-- ==== Sys2Proof/Word.lean ====
section
/-!
DEFINITION. The words of the BH6256 hub block: bytes, 32-bit register words (spec/00_scope.md R6), and the
sparse tables in which State keeps memories, registers and per-index state as plain data.
-/
namespace Sys2Proof

/-- A byte of memory. -/
abbrev Byte := BitVec 8

/-- A register word: 32 bits, bit 31 the most significant (R6). -/
abbrev Word := BitVec 32

/-- A sparse table: key and value pairs. What an unlisted key reads as is given where the table is read. -/
abbrev Tab (α : Type) := List (Nat × α)

end Sys2Proof
end

