-- ==== Sys2Proof/Syntax.lean ====
section
/-!
DEFINITION. The commands of the BH6256 hub block: one constructor per row of spec/opcode_table.json, with the row's operands.
An operand `ofs` is the instant within the present lap at which the command occurs, in units of 2^-16 ns from the lap boundary
(spec/00_scope.md R12, R13). A block of this kind takes commands and events from outside; each is one whole step
(spec/95_what_each_step_holds.md).
-/
namespace Sys2Proof

/-- What the receiver of a lane reports at a lap instant (R289, R294, R298, R299): the words of RX_EQ and EYE, and in TEST the bits that
have arrived at the LRX ball since the bits given before. -/
structure LaneIn where
  lane : Fin 4
  eq : Word := 0
  eye : Word := 0
  bits : List Bool := []
deriving DecidableEq, Repr

/-- What the pins and the analog die give the hub at a lap instant: the common-mode voltages that have changed (channel, mV;
R99), the load currents that have changed (bank, in 2 µA; R92), the banks whose drivers limit their current (R93), the
error of the reference buffer in ppm against its final value (R117) and against its nominal value (R119), and the reports of the lanes. -/
structure LapIn where
  vcm : List (Nat × Int) := []
  excI : List (Nat × Int) := []
  limiting : BitVec 16 := 0
  refFinal : Int := 0
  refErr : Int := 0
  lanes : List LaneIn := []
deriving DecidableEq, Repr

/-- One lap frame of the die-to-die interface (R409): the code of each channel as the six stage outputs spell it, before
correction, in order of channel; the channels whose overload detector fired for the differential input and for a pin beyond
±15 V (R129); the corrected words, the uncorrectable words (word w holds channels 4w to 4w + 3), the arrival in T_s after the
lap instant, the new sense values (bank, in 2^-8 µV; R92), and, as the stages spell them, the codes of slots 0 to 15 of an overlapping
spare (R112) and of slot 16 of each slice (R125). -/
structure D2DFrame where
  codes : List Int := []
  overDiff : List Nat := []
  overPin : List Nat := []
  ce : Nat := 0
  ue : List Nat := []
  align : Nat := 16
  sense : List (Nat × Int) := []
  spare : List Int := []
  slot16 : List Int := []
deriving DecidableEq, Repr

/-- The Z pin of encoder input `input` behind the glitch filter of strength `filt`, which the Tallies with that FILT take (R57). -/
structure EncPins where
  input : Fin 4
  filt : Fin 4
deriving DecidableEq, Repr

/-- The bits that have arrived at the LRX ball of a lane, up to the instant `ofs`, since the bits given before (R298). -/
structure RxBits where
  ofs : Nat
  bits : List Bool
deriving DecidableEq, Repr

/-- The commands. Each docstring gives the row's mnemonic and rule. -/
inductive Instr where
  /-- REGISTER_WRITE (R8). A write to a register field with no row of its own; the field changes according to its access type, and rwl fields ignore the write while LOCK is set. -/
  | registerWrite (addr : Nat) (value : Word)
  /-- RC_READ (R8). A read of an rc field returns its value and then clears it, unless a hardware set falls in the same cycle. -/
  | rcRead (addr : Nat)
  /-- LATCHING_READ (R76). A read of a latching register copies the associated registers from the same instant into holding copies. -/
  | latchingRead (addr : Nat) (ofs : Nat)
  /-- RESULT_REGISTER_READ (R243). A read of a result register returns the oldest unread result with FRESH = 1, or the previous value with FRESH = 0. -/
  | resultRegisterRead (addr : Nat)
  /-- LAP_BOUNDARY (R37). The lap clock reaches a lap boundary: line time and the lap count advance, hold cells sample, and boundary-timed effects apply. -/
  | lapBoundary (inp : LapIn)
  /-- EXC_REVERSAL (R90). The lap count reaches a reversal point and the excitation driver reverses polarity; blank laps begin. -/
  | excReversal (b : Fin 16)
  /-- EXC_BLANK_END (R91). The count of blank laps after a reversal expires, and codes pass through again. -/
  | excBlankEnd (b : Fin 16)
  /-- PACER_ENABLE (R38). A write of TBS_PACER_CTRL.EN from 0 to 1 makes the primary source active and enters ACQUIRE, unless the primary is coded FREE. -/
  | pacerEnable
  /-- PACER_SOURCE_MEASUREMENT (R44). An offset measurement of a tracked time source reaches the Pacer and updates that source's offset estimate. -/
  | pacerSourceMeasurement (sec : Bool) (offset : Int)
  /-- PACER_STEP (R39). At the next lap boundary after an oversize offset or a SET_TIME, the Pacer steps line time and the lap count and posts PACER_STEP. -/
  | pacerStep
  /-- PACER_SRC_LOST (R45). LOSS_INT intervals pass without a measurement of a tracked source; the source is lost, PACER_SRC_LOST is posted and R46 decides the result. -/
  | pacerSrcLost (sec : Bool)
  /-- PACER_SRC_SWITCH (R47). At a lap boundary the other tracked source becomes active without a step, and its offset becomes the slew target. -/
  | pacerSrcSwitch
  /-- SLEW_DONE (R47). TBS_SLEW_REMAIN reaches zero and SLEWING clears. -/
  | slewDone
  /-- SET_TIME (R39). The SET_TIME command sets line time to TBS_SET_TIME, rounded to a lap boundary, at the next lap boundary. -/
  | setTime
  /-- PACER_ACQUIRE (R42). The ACQUIRE command returns the Pacer from LOCKED or HOLDOVER to ACQUIRE. -/
  | pacerAcquire
  /-- PACER_SWITCH (R48). The SWITCH command makes the other valid tracked source active at the next lap boundary. -/
  | pacerSwitch
  /-- TALLY_ENABLE (R52). A write of TBS_TALLYn_CTRL.EN starts or stops a Tally; clearing EN releases the REMOTE source lock. -/
  | tallyEnable (n : Fin 4) (en : Bool)
  /-- ENCODER_EDGE (R51). A filtered A or B edge of a quadrature encoder counts one step of SCALE µm forward or back. The
  row gives the levels that ENC_A[k] and ENC_B[k] take at instant `ofs`. -/
  | encoderEdge (k : Fin 4) (ofs : Nat) (a : Bool) (b : Bool)
  /-- TALLY_Z (R57). A rising Z edge latches the position to ZLATCH, posts TALLY_Z and arms a preset according to Z_MODE. -/
  | tallyZ (p : EncPins) (ofs : Nat)
  /-- TALLY_PRESET_APPLY (R58). At the next lap boundary a Tally takes its PRESET position after a Z preset or a PRESET command, and STATUS.STEP is set. -/
  | tallyPresetApply (n : Fin 4)
  /-- PRESET (R57). The PRESET command of TBS_TALLYn_CMD schedules the position to take PRESET at the next lap boundary. -/
  | preset (n : Fin 4)
  /-- TALLY_BROADCAST (R53). Every 64 × 2^BCAST_INT laps a source Tally sends a TALLY frame with its position and velocity at a lap boundary. -/
  | tallyBroadcast (n : Fin 4)
  /-- TALLY_FRAME_RECEIVE (R54). A REMOTE Tally takes a broadcast of its stream and removes the difference by velocity adjustment or by a step. -/
  | tallyFrameReceive (stream : Fin 16) (addr : Fin 1024) (pos : Int) (vel : Int) (time : Nat)
  /-- TALLY_COASTING (R56). 4 broadcast intervals pass without a broadcast; the REMOTE Tally enters COASTING. -/
  | tallyCoasting (n : Fin 4)
  /-- TALLY_LOST (R56). 4 further intervals pass without a broadcast; the Tally enters LOST, zeroes its velocity and posts TALLY_LOST. -/
  | tallyLost (n : Fin 4)
  /-- MAINS_ENABLE (R60). A write of TBS_MAINS_CTRL.EN starts or stops the mains phase tracker and its coordinate. -/
  | mainsEnable (en : Bool)
  /-- MAINS_CROSSING (R59). A zero crossing of the selected mains input updates the tracker's frequency and phase. -/
  | mainsCrossing (ofs : Nat)
  /-- MAINS_LOST (R60). No crossing for 4 expected cycles, or a frequency out of range; the tracker enters HOLDOVER and posts MAINS_LOST. -/
  | mainsLost
  /-- START_LIST_ENABLE (R71). A write of TBS_SL_CTRL.EN starts or stops the taking of entries; setting it judges every enabled entry for lateness. -/
  | startListEnable (en : Bool)
  /-- SL_ENTRY_ENABLE (R73). Setting EN of a Start List entry orders it into its space and makes it WAITING, or late. -/
  | slEntryEnable (n : Fin 2048)
  /-- SL_ENTRY_DISABLE (R73). Clearing EN of an entry removes a WAITING entry; a TAKEN entry's action still takes effect. -/
  | slEntryDisable (n : Fin 2048)
  /-- SL_ENTRY_REWRITE (R73). A write to any other word of an enabled entry reorders it at once. -/
  | slEntryRewrite (n : Fin 2048) (k : Fin 7) (value : Word)
  /-- DISABLE_SPACE (R63). The DISABLE_SPACE command of TBS_SL_CMD clears EN in every entry of one space. -/
  | disableSpace (space : Fin 16)
  /-- DISABLE_ALL (R63). The DISABLE_ALL command of TBS_SL_CMD clears EN in every entry. -/
  | disableAll
  /-- SL_TAKE (R62). A waiting entry becomes due one take horizon ahead and is taken, which fixes its crossing time. -/
  | slTake (n : Fin 2048) (ofs : Nat)
  /-- SL_ACTION_EFFECT (R65). At its effect lap or crossing time a taken action executes in the order of R68, and is logged with its action stamp. -/
  | slActionEffect (ofs : Nat)
  /-- TRIG_OUT_PULSE_END (R212). A TRIG_OUT pulse ends when its width expires, and the pin returns to its base level. -/
  | trigOutPulseEnd (j : Fin 4) (ofs : Nat)
  /-- EXC_APPLY (R87). A write to AFE_EXC_APPLY copies EXC_NEXT to EXC_ACTIVE for the masked banks at the next lap boundary, and the ramp begins. -/
  | excApply (mask : BitVec 16)
  /-- EXC_RAMP_END (R88). The ramp count of an excitation change expires and the driver enters SETTLE. -/
  | excRampEnd (b : Fin 16)
  /-- EXC_SETTLE_END (R88). The SETTLE count expires and the driver enters ON, or OFF after a change to OFF. -/
  | excSettleEnd (b : Fin 16)
  /-- AFE_EXC_LIMIT (R93). The load draws more than the current limit; the driver limits its current, sets EXC_LIMIT and posts AFE_EXC_LIMIT. -/
  | afeExcLimit (b : Fin 16)
  /-- AFE_EXC_TRIP (R93). Current limiting lasts 1 024 consecutive laps; the driver trips to 0 V and posts AFE_EXC_TRIP. -/
  | afeExcTrip (b : Fin 16)
  /-- RESET_TRIP (R93). The RESET_TRIP command restarts a tripped driver from OFF toward ACTIVE at the next lap boundary. -/
  | resetTrip (b : Fin 16)
  /-- AFE_SNS_FAULT (R94). The sense value stays below 50 % of V_exc for 1 024 laps; SNS_FAULT is set, AFE_SNS_FAULT is posted and STL starts. -/
  | afeSnsFault (b : Fin 16)
  /-- SNS_FAULT_CLEAR (R94). The sense value stays at or above 50 % for 1 024 laps, and the sense-fault STL stops. -/
  | snsFaultClear (b : Fin 16)
  /-- TTEMP_UPDATE (R101). Every 1 024 laps the terminal-temperature measurement of a bank is written to AFE_BANKb_TTEMP. -/
  | ttempUpdate (b : Fin 16) (temp : Int) (bad : Bool)
  /-- OPEN_SET (R98). The code has reached THR in the burn-out direction for PERSIST laps, and OPEN holds from that lap. -/
  | openSet (c : Fin 256)
  /-- OPEN_CLEAR (R98). The code has been below THR for PERSIST laps, and OPEN ends. -/
  | openClear (c : Fin 256)
  /-- CMWIN_WRITE (R99). A write to AFE_BANKb_CMWIN or CMHYS takes effect at the next lap boundary and clears CMX for the bank. -/
  | cmwinWrite (b : Fin 16) (hys : Bool) (value : Word)
  /-- PLUG_DET_EDGE (R102). A level change on PLUG_DET_N restarts the debounce count. -/
  | plugDetEdge (b : Fin 16) (high : Bool)
  /-- AFE_PLUG_OUT (R103). An unplug is confirmed after DEB ms; status is set, AFE_PLUG_OUT is posted and, with EXC_OFF = 1, excitation goes OFF. -/
  | afePlugOut (b : Fin 16)
  /-- AFE_PLUG_IN (R104). A re-plug is confirmed; status is set, AFE_PLUG_IN is posted, excitation restarts and the plug STL window opens. -/
  | afePlugIn (b : Fin 16)
  /-- PLUG_EN_CLEAR (R102). Clearing PLUG.EN while the bank is confirmed unplugged acts as a confirmed re-plug at the next boundary. -/
  | plugEnClear (b : Fin 16)
  /-- D2D_LAP_FRAME_ARRIVAL (R409). A lap frame of codes arrives over the die-to-die interface; it is checked, corrected, flagged and passed on. -/
  | d2dLapFrameArrival (frame : D2DFrame)
  /-- BUF_EN_WRITE (R117). A write to CNV_REF_CTRL.BUF_EN turns the reference buffer on, or off, which clears REF_READY. -/
  | bufEnWrite (en : Bool)
  /-- CNV_REF_READY (R117). The buffer output has stayed within ±0.01 % for 1 024 laps; REF_READY is set and CNV_REF_READY is posted. -/
  | cnvRefReady
  /-- CNV_REF_FAULT (R119). The buffer output has been outside ±0.5 % for 16 laps; REF_READY clears, REF_FAULT is set and CNV_REF_FAULT is posted. -/
  | cnvRefFault
  /-- CAL_EN_WRITE (R121). A write to CNV_CAL_CTRL.EN starts a calibration epoch at the next boundary, or ends the step. -/
  | calEnWrite (en : Bool)
  /-- CAL_EPOCH_END (R121). The 65 536-lap calibration epoch ends and the spare starts its overlap with the target bank. -/
  | calEpochEnd
  /-- CNV_HANDOVER (R122). At the end of the overlap the fit is judged, and at boundary H the map switches with a hand-over mark and CNV_HANDOVER is posted. `b` is the target bank. -/
  | cnvHandover (b : Fin 16)
  /-- TRACKING_BLOCK_END (R125). Every 1 024 laps, slot-16 residuals adjust each in-service slice's gain and offset. `k` counts the blocks: the block before lap 1 024 k ends. -/
  | trackingBlockEnd (k : Nat)
  /-- PAUSE (R126). The PAUSE command stops the epoch count, or abandons the overlap, at the next boundary. -/
  | pause
  /-- CAL_RESUME (R126). The RESUME command of CNV_CAL_CMD continues the paused epoch, or starts a fresh overlap. -/
  | calResume
  /-- READMIT (R124). The READMIT command makes a retired slice the spare at the next boundary and leaves NO_SPARE. -/
  | readmit (slice : Fin 32)
  /-- SKEW_CMD (R128). A nonzero bank mask written to CNV_SKEW_CMD starts skew calibration of those banks at the next boundary. -/
  | skewCmd (banks : BitVec 16)
  /-- CNV_SKEW_DONE (R128). At S_0 + 264 the inputs are reconnected, the new SKEW and EO values take effect and CNV_SKEW_DONE is posted. -/
  | cnvSkewDone
  /-- RECORD_DELIVERY (R141). The records of a closing lap are formed and delivered to the tap, rings, queues and streaming engine in channel order. -/
  | recordDelivery
  /-- CATALOGUE_COMMIT (R162). The COMMIT command of RED_CMD copies masked shadow entries, and the user curves when CURVES = 1, at the next boundary, and posts RED_COMMIT. -/
  | catalogueCommit (curves : Bool)
  /-- SET_SEQ (R155). The SET_SEQ command loads RED_SEQ_VALUE into a channel's sequence number at the next boundary. -/
  | setSeq (chan : Fin 256)
  /-- RED_BP (R161). The record-buffer fill reaches 7/8 or 15/16; the stage is entered, traffic is deferred and RED_BP is posted. -/
  | redBp (ofs : Nat)
  /-- BP_STAGE_EXIT (R161). The record-buffer fill falls below 3/4, and stage 0 resumes. -/
  | bpStageExit (ofs : Nat)
  /-- ARM (R175). The ARM command checks a ring's placement and load and makes it ARMED at the next boundary. -/
  | arm (r : Fin 64)
  /-- DISARM (R175). The DISARM command stops a ring, or truncates its folio and stops it at E. -/
  | disarm (r : Fin 64)
  /-- RING_TRIGGER_CMD (R175). The TRIGGER command gives a ring a SOFTWARE trigger at the next boundary. -/
  | ringTriggerCmd (r : Fin 64)
  /-- TRIG_IN_EDGE (R177). A selected TRIG_IN edge is filtered, stamped to 1 ns and offered as a trigger, unless hold-off drops it. -/
  | trigInEdge (p : Fin 8) (ofs : Nat) (delay : Nat) (high : Bool)
  /-- TRIG_BUS_EDGE (R178). A falling edge of TRIG_BUS is stamped and offered to every ring that did not drive it. -/
  | trigBusEdge (ofs : Nat) (delay : Nat)
  /-- RING_TRIGGER_ARRIVAL (R179). Triggers reaching a ring at a boundary are ordered, and the first is handled by the ring's state. -/
  | ringTriggerArrival (r : Fin 64)
  /-- ACQ_FORCED (R184). The AUTO count expires; a forced trigger or close fires and ACQ_FORCED is posted. -/
  | acqForced (r : Fin 64)
  /-- POST_FILL_COMPLETE (R183). At boundary E the post fill is complete, the summary is written and the ring enters REARM or STOPPED. -/
  | postFillComplete (r : Fin 64)
  /-- REARM_END (R183). 4 laps after E the ring returns to ARMED. -/
  | rearmEnd (r : Fin 64)
  /-- ACQ_FOLIO (R187). After every other write of the folio is in DRAM, VALID is written and ACQ_FOLIO and the ring's event are posted. -/
  | acqFolio (r : Fin 64)
  /-- FOLIO_SLOT_RELEASE (R186). Writing 1 to a bit of ACQ_RINGr_SLOTS frees that folio slot, unless it is still being filled. -/
  | folioSlotRelease (r : Fin 64) (bits : Word)
  /-- TRIG_BUS_PULSE_END (R178). A ring's TRIG_BUS drive pulse of PULSE ns ends and the bus is released. -/
  | trigBusPulseEnd (r : Fin 64) (ofs : Nat)
  /-- LOOP_TICK (R196). A loop or unit is due at a lap boundary; its tap, setpoint and configuration are snapshotted and it joins the queue. -/
  | loopTick (u : Fin 32)
  /-- LOOP_EVALUATION (R202). In a slot the loop unit evaluates one loop's law on its snapshots. -/
  | loopEvaluation
  /-- LOOP_OUTPUT_COMMIT (R198). At the commit boundary a unit's outputs go to AOUT, PWM, DRIVE, CASCADE or NONE. -/
  | loopOutputCommit (u : Fin 32)
  /-- LOOP_COMMIT_CMD (R225). The COMMIT command of CTL_CMD copies the shadow of the masked loops to the active copy at the next boundary, and posts CTL_COMMIT. -/
  | loopCommitCmd
  /-- LOOP_RESUME (R219). The RESUME command returns a loop in FALLBACK or FAULT to RUN without a step. -/
  | loopResume (n : Fin 32)
  /-- TEST_START (R220). The TEST_START command starts the test generator on a loop at the next boundary, and posts the test event at the first tick. -/
  | testStart
  /-- TEST_STOP (R226). The TEST_STOP command stops the test generator at the next boundary. -/
  | testStop
  /-- CTL_TEST_END (R221). The test generator stops after LEN ticks, and CTL_TEST_END is posted. -/
  | ctlTestEnd
  /-- SETPOINT_WRITE (R214). A write to a loop's SETPOINT takes effect at the next lap boundary, as step 1 of R214. -/
  | setpointWrite (n : Fin 32) (value : Word)
  /-- OUTPUT_REGISTER_WRITE (R211). A write to CTL_AOUTj, CTL_PWMj or CTL_DRIVEd takes effect at the next lap boundary. -/
  | outputRegisterWrite (addr : Nat) (value : Word)
  /-- PWM_PERIOD_START (R213). A PWM period starts at a boundary whose lap count is a multiple of PERIOD, and the pending duty is applied. -/
  | pwmPeriodStart (j : Fin 16)
  /-- EVENT_POST (R22). An event is posted on the fabric, setting PEND on every watching core and feeding event counters and the journal. -/
  | eventPost (e : Fin 256)
  /-- EVENT_EXCEPTION (R236). In service mode a PEND bit that is also set in VEC raises the EVENT exception before the next instruction. -/
  | eventException (n : Fin 5)
  /-- ADD (R260). rd := rs + rt, with ZNCV set. -/
  | add (n : Fin 5) (rd : Fin 16) (rs : Fin 16) (rt : Fin 16)
  /-- SUB (R260). rd := rs − rt, with ZNCV set. -/
  | sub (n : Fin 5) (rd : Fin 16) (rs : Fin 16) (rt : Fin 16)
  /-- AND (R260). Bitwise AND, with ZN set. -/
  | and (n : Fin 5) (rd : Fin 16) (rs : Fin 16) (rt : Fin 16)
  /-- OR (R260). Bitwise OR, with ZN set. -/
  | or (n : Fin 5) (rd : Fin 16) (rs : Fin 16) (rt : Fin 16)
  /-- XOR (R260). Bitwise XOR, with ZN set. -/
  | xor (n : Fin 5) (rd : Fin 16) (rs : Fin 16) (rt : Fin 16)
  /-- SHL (R260). Logical left shift by rt[4:0]. -/
  | shl (n : Fin 5) (rd : Fin 16) (rs : Fin 16) (rt : Fin 16)
  /-- SHR (R260). Logical right shift by rt[4:0]. -/
  | shr (n : Fin 5) (rd : Fin 16) (rs : Fin 16) (rt : Fin 16)
  /-- SAR (R260). Arithmetic right shift by rt[4:0]. -/
  | sar (n : Fin 5) (rd : Fin 16) (rs : Fin 16) (rt : Fin 16)
  /-- MUL (R260). Low 32 bits of the product. -/
  | mul (n : Fin 5) (rd : Fin 16) (rs : Fin 16) (rt : Fin 16)
  /-- MULH (R260). High 32 bits of the signed product. -/
  | mulh (n : Fin 5) (rd : Fin 16) (rs : Fin 16) (rt : Fin 16)
  /-- DIV (R260). Signed quotient; V is set on division by zero or overflow. -/
  | div (n : Fin 5) (rd : Fin 16) (rs : Fin 16) (rt : Fin 16)
  /-- DIVU (R260). Unsigned quotient; V is set on division by zero. -/
  | divu (n : Fin 5) (rd : Fin 16) (rs : Fin 16) (rt : Fin 16)
  /-- MIN (R260). The signed lesser of two registers. -/
  | min (n : Fin 5) (rd : Fin 16) (rs : Fin 16) (rt : Fin 16)
  /-- MAX (R260). The signed greater of two registers. -/
  | max (n : Fin 5) (rd : Fin 16) (rs : Fin 16) (rt : Fin 16)
  /-- CMP (R260). Compare as SUB, setting ZNCV without writing a result. -/
  | cmp (n : Fin 5) (rs : Fin 16) (rt : Fin 16)
  /-- JR (R260). Jump to the address in a register. -/
  | jr (n : Fin 5) (rs : Fin 16)
  /-- JALR (R260). Jump to a register address, writing the link. -/
  | jalr (n : Fin 5) (rd : Fin 16) (rs : Fin 16)
  /-- ADDI (R261). Add a sign-extended immediate. -/
  | addi (n : Fin 5) (rd : Fin 16) (rs : Fin 16) (imm : BitVec 14)
  /-- ANDI (R261). AND with a zero-extended immediate. -/
  | andi (n : Fin 5) (rd : Fin 16) (rs : Fin 16) (imm : BitVec 14)
  /-- ORI (R261). OR with a zero-extended immediate. -/
  | ori (n : Fin 5) (rd : Fin 16) (rs : Fin 16) (imm : BitVec 14)
  /-- XORI (R261). XOR with a zero-extended immediate. -/
  | xori (n : Fin 5) (rd : Fin 16) (rs : Fin 16) (imm : BitVec 14)
  /-- SHLI (R261). Left shift by an immediate. -/
  | shli (n : Fin 5) (rd : Fin 16) (rs : Fin 16) (sh : BitVec 5)
  /-- SHRI (R261). Logical right shift by an immediate. -/
  | shri (n : Fin 5) (rd : Fin 16) (rs : Fin 16) (sh : BitVec 5)
  /-- SARI (R261). Arithmetic right shift by an immediate. -/
  | sari (n : Fin 5) (rd : Fin 16) (rs : Fin 16) (sh : BitVec 5)
  /-- CMPI (R261). Compare with a sign-extended immediate. -/
  | cmpi (n : Fin 5) (rs : Fin 16) (imm : BitVec 14)
  /-- LUI (R261). rd := imm18 << 14. -/
  | lui (n : Fin 5) (rd : Fin 16) (imm : BitVec 18)
  /-- MAC (R263). Saturating multiply-accumulate into acc0 or acc1. -/
  | mac (n : Fin 5) (acc : Bool) (rs : Fin 16) (rt : Fin 16)
  /-- MSU (R263). Saturating multiply-subtract from the accumulator. -/
  | msu (n : Fin 5) (acc : Bool) (rs : Fin 16) (rt : Fin 16)
  /-- ACCR (R263). Read the accumulator, shifted and rounded, or as raw bits. -/
  | accr (n : Fin 5) (rd : Fin 16) (acc : Bool) (raw : Bool) (sh : Fin 64)
  /-- ACCW (R263). Write or clear the accumulator. -/
  | accw (n : Fin 5) (acc : Bool) (clear : Bool) (rs : Fin 16) (rt : Fin 16)
  /-- SAT (R263). Clamp a register to n signed bits. -/
  | sat (n : Fin 5) (rd : Fin 16) (rs : Fin 16) (m : Fin 32)
  /-- FADD (R265). Binary32 add. -/
  | fadd (n : Fin 5) (fd : Fin 8) (fs : Fin 8) (ft : Fin 8)
  /-- FSUB (R265). Binary32 subtract. -/
  | fsub (n : Fin 5) (fd : Fin 8) (fs : Fin 8) (ft : Fin 8)
  /-- FMUL (R265). Binary32 multiply. -/
  | fmul (n : Fin 5) (fd : Fin 8) (fs : Fin 8) (ft : Fin 8)
  /-- FDIV (R265). Binary32 divide. -/
  | fdiv (n : Fin 5) (fd : Fin 8) (fs : Fin 8) (ft : Fin 8)
  /-- FSQRT (R265). Binary32 square root. -/
  | fsqrt (n : Fin 5) (fd : Fin 8) (fs : Fin 8)
  /-- FMAC (R265). Fused multiply-add with one rounding. -/
  | fmac (n : Fin 5) (fd : Fin 8) (fs : Fin 8) (ft : Fin 8)
  /-- FMIN (R265). The lesser float. -/
  | fmin (n : Fin 5) (fd : Fin 8) (fs : Fin 8) (ft : Fin 8)
  /-- FMAX (R265). The greater float. -/
  | fmax (n : Fin 5) (fd : Fin 8) (fs : Fin 8) (ft : Fin 8)
  /-- FABS (R265). Clear the sign bit. -/
  | fabs (n : Fin 5) (fd : Fin 8) (fs : Fin 8)
  /-- FNEG (R265). Invert the sign bit. -/
  | fneg (n : Fin 5) (fd : Fin 8) (fs : Fin 8)
  /-- FCMP (R265). Compare floats and set the flags. -/
  | fcmp (n : Fin 5) (fs : Fin 8) (ft : Fin 8)
  /-- FCVTSW (R265). Convert a signed integer to float. -/
  | fcvtsw (n : Fin 5) (fd : Fin 8) (ws : Fin 16)
  /-- FCVTWS (R265). Convert a float to a saturated signed integer. -/
  | fcvtws (n : Fin 5) (wd : Fin 16) (fs : Fin 8) (trunc : Bool)
  /-- FMVWF (R265). Move the bits of a float register to a general register. -/
  | fmvwf (n : Fin 5) (wd : Fin 16) (fs : Fin 8)
  /-- FMVFW (R265). Move the bits of a general register to a float register. -/
  | fmvfw (n : Fin 5) (fd : Fin 8) (ws : Fin 16)
  /-- TINTERP (R266). Interpolate linearly in a table in memory. -/
  | tinterp (n : Fin 5) (fd : Fin 8) (fs : Fin 8) (ws : Fin 16)
  /-- LDB (R268). Load a sign-extended byte. -/
  | ldb (n : Fin 5) (rd : Fin 16) (rb : Fin 16) (am : Fin 3) (off : BitVec 13)
  /-- LDBU (R268). Load a zero-extended byte. -/
  | ldbu (n : Fin 5) (rd : Fin 16) (rb : Fin 16) (am : Fin 3) (off : BitVec 13)
  /-- LDH (R268). Load a sign-extended halfword. -/
  | ldh (n : Fin 5) (rd : Fin 16) (rb : Fin 16) (am : Fin 3) (off : BitVec 13)
  /-- LDHU (R268). Load a zero-extended halfword. -/
  | ldhu (n : Fin 5) (rd : Fin 16) (rb : Fin 16) (am : Fin 3) (off : BitVec 13)
  /-- LDW (R268). Load a word. -/
  | ldw (n : Fin 5) (rd : Fin 16) (rb : Fin 16) (am : Fin 3) (off : BitVec 13)
  /-- STB (R268). Store the low byte. -/
  | stb (n : Fin 5) (rd : Fin 16) (rb : Fin 16) (am : Fin 3) (off : BitVec 13)
  /-- STH (R268). Store the low halfword. -/
  | sth (n : Fin 5) (rd : Fin 16) (rb : Fin 16) (am : Fin 3) (off : BitVec 13)
  /-- STW (R268). Store a word. -/
  | stw (n : Fin 5) (rd : Fin 16) (rb : Fin 16) (am : Fin 3) (off : BitVec 13)
  /-- FLD (R268). Load a binary32. -/
  | fld (n : Fin 5) (fd : Fin 8) (rb : Fin 16) (am : Fin 3) (off : BitVec 13)
  /-- FLDD (R268). Load a binary64 rounded to binary32. -/
  | fldd (n : Fin 5) (fd : Fin 8) (rb : Fin 16) (am : Fin 3) (off : BitVec 13)
  /-- FST (R268). Store a float register. -/
  | fst (n : Fin 5) (fd : Fin 8) (rb : Fin 16) (am : Fin 3) (off : BitVec 13)
  /-- BCC (R270). Branch when the condition holds. -/
  | bcc (n : Fin 5) (cnd : Fin 15) (off : BitVec 20)
  /-- CBR (R270). Branch on a register test. -/
  | cbr (n : Fin 5) (rs : Fin 16) (t : Fin 4) (off : BitVec 20)
  /-- J (R270). Jump to a PC-relative target. -/
  | j (n : Fin 5) (off : BitVec 26)
  /-- JAL (R270). Jump and link into w15. -/
  | jal (n : Fin 5) (off : BitVec 26)
  /-- QPOP (R238). Pop a queue entry into three registers, or underrun with Z = 1. -/
  | qpop (n : Fin 5) (wd : Fin 14) (q : BitVec 8)
  /-- QLEN (R239). Read the consumer view of a queue's length. -/
  | qlen (n : Fin 5) (wd : Fin 16) (q : BitVec 8)
  /-- QPUSH (R242). Push a pair to a relay or commit queue once earlier stores are acknowledged, or refuse it with Z = 1. -/
  | qpush (n : Fin 5) (p : BitVec 8) (ws : Fin 16) (wt : Fin 16)
  /-- WAIT (R235). Return the pending events of a group at once, or sleep until one is pending or the timeout. -/
  | wait (n : Fin 5) (wd : Fin 16) (g : Fin 8) (ws : Fin 16) (wt : Fin 16)
  /-- WAIT_RETURN (R235). A sleeping WAIT wakes when a masked PEND bit is set, returns the common bits and clears them. -/
  | waitReturn (n : Fin 5)
  /-- WAIT_TIMEOUT (R235). The WAIT timeout count expires and WAIT returns 0 with Z = 1. -/
  | waitTimeout (n : Fin 5) (ofs : Nat)
  /-- POST (R271). Post event NUM once earlier stores are acknowledged. -/
  | post (n : Fin 5) (e : BitVec 8)
  /-- POSTR (R271). Post the event named in a register. -/
  | postr (n : Fin 5) (ws : Fin 16)
  /-- STAMP (R273). Read the line time or the lap count. -/
  | stamp (n : Fin 5) (wd : Fin 15) (laps : Bool) (ofs : Nat)
  /-- TALLY (R273). Read a Tally's position or velocity. -/
  | tally (n : Fin 5) (wd : Fin 16) (k : Fin 4) (vel : Bool) (ofs : Nat)
  /-- NOP (R274). No operation. -/
  | nop (n : Fin 5)
  /-- FENCE (R232). Wait for earlier loads and store acknowledgements, and invalidate the data cache. -/
  | fence (n : Fin 5)
  /-- SYSCALL (R274). Raise the SYSCALL exception with a code. -/
  | syscall (n : Fin 5) (code : BitVec 8)
  /-- ERET (R280). Return from an exception, restoring the mode and flags. -/
  | eret (n : Fin 5)
  /-- MFSR (R274). Read a system register. -/
  | mfsr (n : Fin 5) (rd : Fin 16) (sr : Fin 10) (ofs : Nat)
  /-- MTSR (R274). Write a system register. -/
  | mtsr (n : Fin 5) (sr : Fin 10) (rs : Fin 16)
  /-- COMMIT_DESCRIPTOR_APPLY (R245). At a boundary the head descriptors of the commit queues are applied, on time or late, and digested. -/
  | commitDescriptorApply
  /-- CORE_RUN (R249). The RUN command of TOP_CORE_CMD starts a halted Runner at ENTRY in supervisor mode. -/
  | coreRun (n : Fin 8)
  /-- CORE_HALT (R250). The HALT command asks a running Runner to stop at an instruction boundary. -/
  | coreHalt (n : Fin 8)
  /-- CORE_RESTART (R251). The RESTART command halts a Runner, clears its state and queues as FLUSH and DROP say, and runs it. -/
  | coreRestart (n : Fin 8) (flush : Bool) (drop : Bool)
  /-- CORE_HALTED (R250). The Runner stops at an instruction boundary, the halt completes and CORE_HALTED is posted. -/
  | coreHalted (n : Fin 4)
  /-- HALT_TIMEOUT (R250). The core has not stopped within 100 µs; the halt is forced and completes with TIMEOUT. -/
  | haltTimeout (n : Fin 4)
  /-- LANE_ENABLE (R293). Setting a lane's EN enters LISTEN, or TEST when MODE = TEST. -/
  | laneEnable (n : Fin 4)
  /-- LANE_DISABLE (R296). Clearing a lane's EN enters OFF within 1 µs. -/
  | laneDisable (n : Fin 4)
  /-- WAKE_BURST (R293). Once every second in LISTEN, the lane sends a 2 ms wake burst of training blocks. -/
  | wakeBurst (n : Fin 4) (ofs : Nat)
  /-- LNK_SIGNAL (R293). Signal has been present for 100 µs in LISTEN; the lane enters ACQUIRE and posts LNK_SIGNAL. -/
  | lnkSignal (n : Fin 4)
  /-- LNK_ABSENT (R293). LISTEN has lasted 1 s without signal; ABSENT is set and LNK_ABSENT is posted. -/
  | lnkAbsent (n : Fin 4) (ofs : Nat)
  /-- BLOCK_LOCK (R293). The receiver gains block lock in ACQUIRE, and the lane enters TRAIN, or UP in 10GBASE-R and 1000BASE-X. -/
  | blockLock (n : Fin 4) (ofs : Nat)
  /-- TRAINING_BLOCK_RECEIVE (R294). A good training block is taken, tap requests are answered and the partner's status and role are read. -/
  | trainingBlockReceive (n : Fin 4) (bytes : List Byte) (inverted : Bool)
  /-- RX_READY (R294). The eye has stayed above 60 mV and 0.30 UI for 1 ms, and the receiver sets RX_READY. -/
  | rxReady (n : Fin 4) (height : BitVec 16) (width : BitVec 16)
  /-- LNK_UP (R293). CONFIRM completes on the partner's GO, the lane enters UP and LNK_UP is posted. -/
  | lnkUp (n : Fin 4) (ofs : Nat)
  /-- TRAINING_BUDGET_EXPIRE (R295). A 500 ms attempt budget runs out, and the lane tries attempt 2, falls back a rate, or enters FAIL. -/
  | trainingBudgetExpire (n : Fin 4) (ofs : Nat)
  /-- PARTNER_RATE_DETECT (R295). In ACQUIRE or TRAIN the partner is detected at a lower rate, and the lane moves to it with attempt 1. -/
  | partnerRateDetect (n : Fin 4) (rate : Fin 4)
  /-- LOSS_OF_SIGNAL (R296). The signal stays below the detect threshold for 1 µs; training aborts to LISTEN, or UP goes to RELOCK. -/
  | lossOfSignal (n : Fin 4)
  /-- LNK_DOWN (R296). In UP, LOS, bad sync headers or 10 µs without a good block enter RELOCK, and LNK_DOWN is posted. -/
  | lnkDown (n : Fin 4)
  /-- RELOCK_TIMEOUT (R296). 10 ms of RELOCK pass without block lock, and the lane enters LISTEN or ACQUIRE. -/
  | relockTimeout (n : Fin 4) (ofs : Nat) (signal : Bool)
  /-- PARTNER_RETRAIN_DETECT (R296). 4 consecutive good training blocks arrive in UP or RELOCK, and the lane enters ACQUIRE. -/
  | partnerRetrainDetect (n : Fin 4)
  /-- FAIL_RETRY (R296). FAIL_RETRY seconds pass in FAIL, and the lane enters ACQUIRE or LISTEN. -/
  | failRetry (n : Fin 4) (ofs : Nat) (signal : Bool)
  /-- RETRAIN (R296). The RETRAIN command restarts training at RATE_MAX, or moves the lane into or out of TEST. -/
  | retrain (n : Fin 4)
  /-- LANE_INJECT (R300). The INJECT command of LNK_LANEn_CMD inverts bits of the serial stream as INJ_CFG.MODE sets. -/
  | laneInject (n : Fin 4)
  /-- ADAPT_FREEZE (R290). A 1 µs window with too few transitions ends, and equaliser adaptation freezes. -/
  | adaptFreeze (n : Fin 4) (ofs : Nat) (transitions : Nat)
  /-- FILL_BLOCK_SEND (R291). At least every 10 µs a Woten lane sends a PRBS fill block. -/
  | fillBlockSend (n : Fin 4) (ofs : Nat)
  /-- PRBS_CHK_ENABLE (R298). Setting CHK_EN clears BITS and ERR, and the checker seeds from the incoming bits. -/
  | prbsChkEnable (n : Fin 4)
  /-- PRBS_LOCK (R298). 64 consecutive correct bits set LOCK. -/
  | prbsLock (n : Fin 4) (rx : RxBits)
  /-- LNK_PRBS_LOST (R298). More than 32 errors in 1 024 bits clear LOCK, set LOCK_LOST and post LNK_PRBS_LOST; `bits` as for
  PRBS_LOCK. -/
  | lnkPrbsLost (n : Fin 4) (ofs : Nat) (bits : List Bool)
  /-- ACCESSION_SEND (R308). Every 1 024 laps, a hub with a valid address sends an accession frame on lane 1. -/
  | accessionSend
  /-- ACCESSION_RECEIVE (R308). An accession frame on lane 0 sets the address, or flags overflow, mismatch or conflict. -/
  | accessionReceive
  /-- WOT_FRAME_RECEIVE (R313). A sequenced frame on a link is checked, accepted when it carries the expected LSEQ, or discarded and NAKed. -/
  | wotFrameReceive (l : Fin 3) (ofs : Nat) (bytes : List Byte)
  /-- ACK_RECEIVE (R314). An ACK or NAK advances the acknowledged point, or triggers an immediate resend. -/
  | ackReceive (l : Fin 3) (ofs : Nat) (bytes : List Byte)
  /-- ACK_SEND (R314). After 16 accepted frames, or 2 µs after an unacknowledged one, an ACK is sent for a VC. -/
  | ackSend (l : Fin 3) (v : Fin 4) (ofs : Nat)
  /-- ACK_TIMEOUT (R313). ACK_TO passes without progress; unacknowledged frames are resent, and after RETRY_MAX the lane retrains. -/
  | ackTimeout (l : Fin 3) (v : Fin 4) (ofs : Nat)
  /-- CUT_THROUGH_FORWARD (R316). A CUT frame is forwarded once its header passes HCRC, with HOPS and residence updated. -/
  | cutThroughForward (ofs : Nat)
  /-- UNICAST_FRAME_RECEIVE (R318). A COMMAND or MGMT frame is delivered at its destination, or forwarded in its direction, or discarded. -/
  | unicastFrameReceive
  /-- SPLIT_REQ_SEND (R319). Every 1 024 laps each end of a link sends a SPLIT_REQ. -/
  | splitReqSend (l : Fin 3)
  /-- SPLIT_REQ_RECEIVE (R319). A SPLIT_REQ is answered with a SPLIT_RESP carrying t1, t2 and t3. -/
  | splitReqReceive
  /-- SPLIT_RESP_RECEIVE (R319). A SPLIT_RESP gives one delay sample and updates the link delay. -/
  | splitRespReceive
  /-- BATON_SEND (R320). Every 64 laps a head sends a Baton frame away from itself. -/
  | batonSend
  /-- BATON_RECEIVE (R321). A Baton frame gives the Pacer a measurement, updates the hop counts and reachability, and is forwarded with its correction. -/
  | batonReceive (ofs : Nat)
  /-- STREAM_FRAME_CLOSE (R323). A channel's open STREAM frame closes at 61 records or after FLUSH, takes a stream number and is written to Spill. -/
  | streamFrameClose (c : Fin 256)
  /-- STREAM_FRAME_RECEIVE (R325). A head accepts a STREAM frame that is new, or drops it as a duplicate, and hands it to the gateway. -/
  | streamFrameReceive
  /-- STREAM_ACK_SEND (R325). Every 1 024 laps a head sends STREAM_ACK frames away from itself. -/
  | streamAckSend
  /-- STREAM_ACK_RECEIVE (R325). A hub takes its STREAM_ACK entry and frees its Spill. -/
  | streamAckReceive
  /-- HEAD_UNREACHABLE (R326). A head becomes unreachable, by its lane leaving UP or by Baton silence for REROUTE_HOLD, and the data direction is judged again. -/
  | headUnreachable (west : Bool) (ofs : Nat)
  /-- REVERT_HOLD_EXPIRE (R326). The nearer head has been reachable for REVERT_HOLD, and the direction returns to it. -/
  | revertHoldExpire
  /-- RENUMBER (R307). The RENUMBER command clears ADDR_VALID, so that the next accession frame sets the address. -/
  | renumber
  /-- REROUTE (R326). The REROUTE command judges the data direction at once. -/
  | reroute
  /-- GOP_TRIGGER (R328). A head issues a global TRIGGER operation through WOT_GCMD. -/
  | gopTrigger (space : Fin 8) (dir : Fin 4) (cancel : Bool) (turn : Bool)
  /-- GOP_EVENT (R328). A head issues a global EVENT operation through WOT_GCMD. -/
  | gopEvent (space : Fin 8) (dir : Fin 4) (cancel : Bool) (turn : Bool)
  /-- GOP_SNAPSHOT (R328). A head issues a global SNAPSHOT operation through WOT_GCMD. -/
  | gopSnapshot (space : Fin 8) (dir : Fin 4) (cancel : Bool) (turn : Bool)
  /-- GOP_BARRIER (R328). A head issues a global BARRIER operation through WOT_GCMD. -/
  | gopBarrier (space : Fin 8) (dir : Fin 4) (cancel : Bool) (turn : Bool)
  /-- GOP_RESET (R328). A head issues a global RESET operation through WOT_GCMD. -/
  | gopReset (space : Fin 8) (dir : Fin 4) (cancel : Bool) (turn : Bool)
  /-- GOP_RECEIVE (R329). A hub forwards a GOP frame, schedules it when its address is in range, ORs results into an echo, and turns it at the end. -/
  | gopReceive (ofs : Nat)
  /-- GOP_EFFECT (R329). At its coordinate a global operation acts after the lap's Start List actions. -/
  | gopEffect (ofs : Nat)
  /-- WOT_SNAPSHOT (R329). At L + 2 after a SNAPSHOT every channel's SEQ_NEXT is copied to WOT_SNAP_SEQc, and WOT_SNAPSHOT is posted. -/
  | wotSnapshot
  /-- WOT_GOP_ECHO (R330). The echo returns to the issuer; WOT_GCMD completes with the result and WOT_GOP_ECHO is posted. -/
  | wotGopEcho (ofs : Nat)
  /-- GOP_ECHO_TIMEOUT (R330). No echo returns within ECHO_TO, and WOT_GCMD completes with TIMEOUT. -/
  | gopEchoTimeout (ofs : Nat)
  /-- WOT_INJ_ENABLE (R333). Setting WOT_INJ_CFG.EN starts frame fault injection on a lane. -/
  | wotInjEnable
  /-- ETH_FRAME_RECEIVE (R338). A MAC filters and stamps a received frame, and sends it to a PTP engine, the gateway or the receive ring. -/
  | ethFrameReceive (m : Fin 2) (ofs : Nat) (bytes : List Byte)
  /-- TXR_TAIL_WRITE (R340). Advancing TXR_TAIL hands transmit descriptors to the MAC. -/
  | txrTailWrite (m : Fin 2) (tail : Nat)
  /-- ETH_FRAME_SEND (R340). The MAC sends a descriptor's frame, or discards it while the link is down. -/
  | ethFrameSend (m : Fin 2) (ofs : Nat)
  /-- SYNC_RECEIVE (R344). A Sync from the parent yields a measurement when complete, or waits for its Follow_Up. -/
  | syncReceive (d : Fin 2)
  /-- FOLLOW_UP_RECEIVE (R344). A Follow_Up completes a waiting two-step Sync and yields a measurement. -/
  | followUpReceive (d : Fin 2)
  /-- FOLLOW_UP_TIMEOUT (R345). A two-step Sync's Follow_Up has not arrived by the next Sync or within 1 s, and FU_MISS increments. -/
  | followUpTimeout (d : Fin 2) (ofs : Nat)
  /-- DELAY_REQ_SEND (R343). Every 2^LOG_DREQ s a PTP engine sends Delay_Req or Pdelay_Req. -/
  | delayReqSend (d : Fin 2) (ofs : Nat)
  /-- DELAY_RESP_RECEIVE (R344). A Delay_Resp or Pdelay_Resp gives a path-delay sample, judged for spikes. -/
  | delayRespReceive (d : Fin 2)
  /-- PTP_PARENT_WRITE (R345). A write to PARENT or DOMAIN takes effect at the next lap boundary and clears PATH_VALID. -/
  | ptpParentWrite (d : Fin 2) (k : Fin 4) (value : Word)
  /-- GW_DATAGRAM_CLOSE (R347). A FRAMES datagram closes at the MTU or after PACK µs and is sent. -/
  | gwDatagramClose (ofs : Nat)
  /-- HOST_ACK_RECEIVE (R348). A HOST_ACK datagram advances the acknowledged points of hubs. -/
  | hostAckReceive
  /-- INJECT_DATAGRAM_RECEIVE (R348). An INJECT datagram's COMMAND and MGMT frames are sent onto the line by the head. -/
  | injectDatagramReceive
  /-- SFP_READ (R350). An SFP two-wire read of 1 to 8 bytes. -/
  | sfpRead (k : Fin 2) (len : Fin 8) (dev : BitVec 8) (reg : BitVec 8) (data : List Byte) (result : Fin 3)
  /-- SFP_WRITE (R350). An SFP two-wire write of 1 to 8 bytes. -/
  | sfpWrite (k : Fin 2) (len : Fin 8) (dev : BitVec 8) (reg : BitVec 8) (result : Fin 3)
  /-- INIT (R356). The INIT command initialises and trains both DRAM channels. -/
  | init
  /-- INIT_RESUME (R357). The INIT_RESUME command restores saved training and leaves self-refresh. -/
  | initResume
  /-- DMC_TRAIN_DONE (R356). Training completes, the controller enters READY and DMC_TRAIN_DONE is posted. -/
  | dmcTrainDone (margins : List (BitVec 8 × BitVec 8)) (large : Bool) (words : List Word)
  /-- DMC_TRAIN_FAIL (R356). A training step fails, or MR8 reports an unsupported device; the state becomes FAILED and DMC_TRAIN_FAIL is posted. -/
  | dmcTrainFail (step : Fin 9) (chans : BitVec 2) (mr8 : Bool)
  /-- SR_ENTER (R368). The SR_ENTER command drains the queue and places the DRAM in self-refresh. -/
  | srEnter
  /-- SR_ENTER_PASR (R368). The SR_ENTER_PASR command masks the non-Archive segments and enters partial-array self-refresh. -/
  | srEnterPasr
  /-- SR_ENTRY_COMPLETE (R368). The queue is drained, the entry command is issued and the controller enters SELF_REFRESH or PASR. -/
  | srEntryComplete
  /-- SR_EXIT (R368). The SR_EXIT command leaves self-refresh and enters READY. -/
  | srExit
  /-- SR_EXIT_ON_REQUEST (R369). A request arriving in or during self-refresh causes an exit once tSR has passed. -/
  | srExitOnRequest (ofs : Nat)
  /-- DRAM_REQUEST (R361). A 32- or 64-byte request is queued and served by its traffic class. -/
  | dramRequest (cls : Fin 3) (write : Bool) (wide : Bool) (addr : Nat) (data : List Byte) (mask : BitVec 64) (flips : List (Fin 576)) (issued : Bool) (ofs : Nat)
  /-- DQS_RETRAIN (R356). Every 100 ms in READY the DQS-to-DQ delay is retrained. -/
  | dqsRetrain (ofs : Nat)
  /-- PER_BANK_REFRESH (R364). The refresh interval expires and a per-bank refresh is issued. -/
  | perBankRefresh (ofs : Nat)
  /-- MR4_POLL (R364). Every 32 ms MR4 is read and the refresh rate is set, with DMC_TEMP_HIGH or DMC_TEMP_ALARM posted on entry. -/
  | mr4Poll (a : Fin 8) (b : Fin 8) (ofs : Nat)
  /-- SCRUB_READ (R367). The scrubber reads the next line at RATE per ms and corrects errors in it. -/
  | scrubRead (flips : List (Fin 576)) (ofs : Nat)
  /-- GRAIN_WRITE (R359). A write to DMC_MAP.GRAIN changes the interleave at once. -/
  | grainWrite (grain : Fin 16)
  /-- TWIN_ENABLE (R374). Setting TWN_CTRL.EN enters LINKING and sets the claim to PAR; clearing it from LEAVING returns to SINGLE. -/
  | twinEnable (en : Bool)
  /-- LINK_WAIT_EXPIRE (R375). No partner is heard and TWIN_HOLD_IN stays low for LINK_WAIT, and the hub enters ACTIVE alone. -/
  | linkWaitExpire (ofs : Nat)
  /-- PARTNER_LOST (R374). Lane 2 leaves UP, or no good twin frame arrives for 128 laps, and the partner is lost. -/
  | partnerLost
  /-- MIRROR_FRAME_SEND (R378). Once a lap's codes are complete, the active sends the two MIRROR halves for that lap. -/
  | mirrorFrameSend
  /-- MIRROR_FRAME_RECEIVE (R379). A MIRROR half is received and held for consumption at its lap-domain lap. -/
  | mirrorFrameReceive
  /-- MIRROR_DEADLINE_MISS (R379). A lap's mirror frames are not both good by the deadline, or carry OVF, and the hub leaves step. -/
  | mirrorDeadlineMiss (ofs : Nat)
  /-- JOIN_STATE_PIECE (R381). A STATE piece captured at boundary B is sent and loaded by the joining hub at its own boundary B. -/
  | joinStatePiece (k : Fin 386) (words : List Word)
  /-- WARMUP_END (R381). WARM × 1 024 laps of warm-up pass, and the joining hub enters STANDBY. -/
  | warmupEnd
  /-- DIGEST_COMPUTE (R383). At a lap-domain boundary with commits, or with b mod 64 = 0, the hub computes the CRC-64 digest and sends a DIGEST frame. -/
  | digestCompute
  /-- DIGEST_FRAME_RECEIVE (R384). A partner's DIGEST frame updates PEER and state and allows earlier boundaries to be compared. -/
  | digestFrameReceive
  /-- POLICY_APPLY (R386). At P the mismatch policy KEEP, FORCE_STANDBY or SAFE takes effect. -/
  | policyApply
  /-- MM_WINDOW_EXPIRE (R386). MM_WINDOW × 1 024 laps pass since the first held mismatch, and the unresolved count clears. -/
  | mmWindowExpire
  /-- TWIN_HOLD_IN_CHANGE (R388). The level of TWIN_HOLD_IN changes, restarting or breaking the 20 µs guard. -/
  | twinHoldInChange (high : Bool) (ofs : Nat)
  /-- PIN_DRIVE_ENABLE (R388). TWIN_HOLD_IN has been low for 20 µs while the hub holds the top claim, and AOUT and PWM pins drive. -/
  | pinDriveEnable (ofs : Nat)
  /-- EXC_GATE_CHANGE (R393). At the boundary after a change of claim or pin drive, gated banks start a change to OFF or back to ACTIVE. -/
  | excGateChange
  /-- SWAP (R390). The SWAP command proposes a handover boundary H to the partner. -/
  | swap
  /-- SWAP_ACK_TIMEOUT (R390). The partner has not confirmed by H − 16, and SWAP completes with TIMEOUT. -/
  | swapAckTimeout
  /-- SWAP_HANDOVER (R390). At H the data sources switch with a hand-over mark, and at H + 1 the incoming hub raises its claim. -/
  | swapHandover
  /-- TWN_TAKEOVER (R391). A standby takes over: it switches to its own conversions, raises its claim, enters ACTIVE and posts TWN_TAKEOVER. -/
  | twnTakeover
  /-- JOIN (R381). The JOIN command starts a join from OUT_OF_STEP or LINKING. -/
  | join
  /-- LEAVE (R395). The LEAVE command takes the hub to LEAVING, idles its lanes and shows safe to remove. -/
  | leave (force : Bool)
  /-- TAKE (R392). The TAKE command makes the hub take over as active. -/
  | take (force : Bool)
  /-- TWIN_CLEAR (R386). The CLEAR command of TWN_CMD clears TWN_MM.OPEN and ends SAFE. -/
  | twinClear
  /-- XCHK_BLOCK_END (R394). Every 1 024 lap-domain laps a standby compares its own codes with the mirror and posts TWN_XCHK on a new excess. -/
  | xchkBlockEnd
  /-- COUNTER_CLEAR (R411). The CLEAR command of HLT_CMD zeroes the masked event counters at one lap boundary. -/
  | counterClear
  /-- FAULT_INJECT (R410). The INJECT command of HLT_CMD creates one fault of the selected target at the next lap boundary. -/
  | faultInject
  /-- TEMP_SAMPLE (R406). Every 1 024 laps the die temperature sensors are sampled, and TEMP_WARN and TEMP_ALARM are judged. -/
  | tempSample (temps : List Int)
  /-- SUPPLY_SAMPLE (R407). Every 1 024 laps the supply monitors are sampled, and SUP_WARN and SUP_ALARM are judged. -/
  | supplySample (mv : List Int)
  /-- HLT_LOCKSTEP (R408). A lockstep copy difference sets the unit's bit, is counted, and HLT_LOCKSTEP is posted. -/
  | hltLockstep (unit : Fin 4)
  /-- COMMAND_ABORTED_AT_BOUNDARY (R467). A pending command whose condition no longer holds at its boundary completes there with ABORTED. -/
  | commandAbortedAtBoundary (addr : Nat)
  /-- PWR_RUN (R415). The RUN command of TOP_PWR_CMD powers the analog die up from IDLE. -/
  | pwrRun
  /-- ANA_UP (R415). The analog die is up; ANA_UP reads 1, the state becomes RUN and PWR_STATE is posted. -/
  | anaUp
  /-- RUN_TIMEOUT (R453). Analog rails stay out of their windows for 10 ms after RUN, and RUN completes with TIMEOUT. -/
  | runTimeout (ofs : Nat)
  /-- PWR_IDLE (R415). The IDLE command powers the analog die down. -/
  | pwrIdle
  /-- PWR_REST (R417). The REST command stops the digital die's clocks, except the Pacer's DCO. -/
  | pwrRest
  /-- PWR_SHELVE (R418). The SHELVE command drives RAIL_EN low and leaves only the always-on domain powered. -/
  | pwrShelve
  /-- WAKE_FROM_REST (R417). A recognised wake source restarts the clocks, re-judges the Start List, resets filters and posts PWR_WAKE. -/
  | wakeFromRest (wakeN : Bool) (btn : Bool) (spi : Bool) (lanes : BitVec 4)
  /-- WAKE_FROM_SHELVED (R418). A recognised wake source drives RAIL_EN high, and a hub reset follows once the rails are good. -/
  | wakeFromShelved (wakeN : Bool) (btn : Bool)
  /-- AON_TIMER_EXPIRE (R419). TOP_AON_TIMER counts down to 0 and its wake source is recognised. -/
  | aonTimerExpire (ofs : Nat)
  /-- POWER_ON_RESET (R421). VAON falls below its threshold, and everything returns to reset values. -/
  | powerOnReset
  /-- PORST_N (R421). PORST_N low causes a hub reset. -/
  | porstN
  /-- HUB_RESET_CMD (R421). TOP_RESET_CMD with OP HUB and the key causes a hub reset. -/
  | hubResetCmd (key : BitVec 8)
  /-- STEWARD_RESET_CMD (R421). TOP_RESET_CMD with OP STEWARD and the key resets the Steward alone. -/
  | stewardResetCmd (key : BitVec 8)
  /-- WATCHDOG_KICK (R421). Writing KICK restarts the watchdog count. -/
  | watchdogKick
  /-- WATCHDOG_EXPIRE (R421). TIMEOUT ms pass without a KICK, and a Steward reset or a hub reset follows. -/
  | watchdogExpire (ofs : Nat)
  /-- RAILS_GOOD (R453). The digital rails have been in their windows for 1 ms; the digital die leaves reset and the boot ROM starts. -/
  | railsGood
  /-- DIGITAL_RAIL_FAULT (R454). A digital-die rail leaves its alarm window, and a hub reset is held while it is out. -/
  | digitalRailFault
  /-- BOOT_ATTEMPT (R423). The boot ROM tries a source, checks its header, loads segments and verifies the signature. -/
  | bootAttempt (flash : Option (List Byte)) (ofs : Nat)
  /-- BOOT_DONE (R423). The image verifies; the Runners are set up, BOOT_DONE is posted and the ROM jumps to STEWARD_ENTRY. -/
  | bootDone
  /-- BOOT_RETRY (R423). 10 s after every source has failed, the ROM starts again from the first source. -/
  | bootRetry (ofs : Nat)
  /-- BOOT_DATA_RECEIVE (R428). A BOOT_DATA MGMT frame delivers part of the image being booted from the line. -/
  | bootDataReceive (ofs : Nat)
  /-- BOOT_REQ_RETRY (R428). A window makes no progress for 200 ms, and BOOT_REQ is sent again; after 10 repeats the source fails. -/
  | bootReqRetry (ofs : Nat)
  /-- LDG_READ (R431). The READ command of LDG_CMD copies LEN bytes from the Ledger to memory. -/
  | ldgRead
  /-- LDG_WRITE (R431). The WRITE command of LDG_CMD copies bytes to the Ledger with read-back, counting block wear. -/
  | ldgWrite (bad : Option Nat)
  /-- RUNNING_HOURS_WRITE (R432). Every 360 s a running-hours entry is written to the Ledger. -/
  | runningHoursWrite (ofs : Nat)
  /-- SVC_BTN (R434). A debounced press or release of SVC_BTN_N posts SVC_BTN. -/
  | svcBtn (pressed : Bool)
  /-- SVC_BTN_HOLD (R395). SVC_BTN_N held for 2 s posts SVC_BTN and, while twin EN = 1, requests removal. -/
  | svcBtnHold (ofs : Nat)
  /-- SVC_GPIO (R436). A selected level change on a GPIO pin posts SVC_GPIO. -/
  | svcGpio (pins : BitVec 8)
  /-- SPI_WRITE (R437). A 64-clock SPI WRITE performs a supervisor write to a register or table window. -/
  | spiWrite (table : Bool) (offset : BitVec 24) (value : Word)
  /-- SPI_READ (R437). A 64-clock SPI READ queues a result, or drops it and posts SPI_RESULT_OVF when the queue is full. -/
  | spiRead (table : Bool) (offset : BitVec 24)
  /-- SPI_RESULT (R437). A 64-clock SPI RESULT reads the oldest queued result through the result port. -/
  | spiResult
  /-- SPI_FRAME_ERROR (R437). An SPI transaction of any length other than 64 clocks is ignored and counted in FRAME_ERRS. -/
  | spiFrameError (op : Fin 4) (clocks : Nat)
  /-- ILLEGAL_INSTRUCTION (R254). A core issues a word that decodes as no instruction (reserved OP or FN, nonzero unused field, absent register, or 0x0000_0000) and takes the ILLEGAL exception. -/
  | illegalInstruction (n : Fin 5) (word : Word)
  /-- FETCH_FAULT (R278). An instruction fetch from an address that is not a multiple of 4, or that lies outside the core's instruction memory and boot ROM, raises ALIGN or ACCESS_FAULT before any instruction is decoded. -/
  | fetchFault (n : Fin 5)
  /-- FRAME_BOUNDARY (R317). A frame in progress finishes leaving a link's egress, and the egress picks the next frame in the order ACK, CUT, resends, new frames. -/
  | frameBoundary (l : Fin 3) (ofs : Nat)
  /-- WOT_INJ_DELAY_EXPIRE (R333). A frame held by fault injection with ACTION DELAY is released after WOT_INJ_DELAY µs, and its VC's later frames follow it. -/
  | wotInjDelayExpire (l : Fin 2) (v : Fin 4) (ofs : Nat)
  /-- POWER_ON_RESET_END (R453). VAON has been above 1.62 V for 1 ms with PORST_N high; the power-on reset ends and the hub drives RAIL_EN high. -/
  | powerOnResetEnd
  /-- TCK_RISING_EDGE (R462). A rising edge of TCK advances the IEEE 1149.1 TAP state machine by TMS, shifting TDI through the selected register and updating EXTEST pin drives. -/
  | tckRisingEdge (tms : Bool) (tdi : Bool) (pins : List Bool)
  /-- TRST_N (R421). TRST_N low resets the JTAG TAP alone to Test-Logic-Reset. -/
  | trstN
  /-- REFUSED_INDICATION_END (R435). 5 s after SVC_REFUSED was set, the REFUSED indication no longer applies and SVC_LED changes to the next indication that applies. -/
  | refusedIndicationEnd (ofs : Nat)
deriving DecidableEq, Repr

end Sys2Proof
end

