-- ==== Sys2Proof/Decode.lean ====
section
/-!
DEFINITION. Decoding. The opcode table gives no row a bit pattern: the commands of this block are accesses and events, not words
of an instruction memory. The instructions of the six Ralnel cores are decoded in Machine/Isa.lean.
-/
namespace Sys2Proof

/-- The command that a word spells by the table's bits: none, since no row of the table has bits. -/
def decodeTableWord (_nbits _w : Nat) : Option Instr := none

end Sys2Proof
end

