-- ==== Sys2Proof/Config.lean ====
section
/-!
DEFINITION. The free values: what the spec leaves open, as constants without a body. A claim about the model holds whatever
they are. Each takes the model's own counter `State.fresh`, or the operands it depends on.
-/
namespace Sys2Proof.Config

/-- The frequency correction that the Pacer's servo chooses at a measurement, in 2^-16 ppm before the pull range of R49 holds
it (R39, R40: the servo law is not stated; log entry 10). -/
opaque servoAdj : Nat → Int

/-- By how much the mains tracker moves its coordinate at a crossing toward the whole cycle, at most the phase error (R59, R60: the loop
filter is not stated; log entry 11). -/
opaque mainsSteer : Nat → Nat

/-- The reconstruction of a code from the six stage outputs when the stage gain and offset terms are not all zero, in 2^-12
LSB16 (R115: the reconstruction formula is not stated; log entry 20). Arguments: the code as the stages spell it, and the
twelve terms. -/
opaque stageRecon : Int → List Word → Int

/-- What a calibration epoch measures for coefficient word `k` of a slice (R121). -/
opaque epochCoef : Nat → Nat → Word

/-- What share of the correction that a tracking block asks for it applies to the gain word and to the offset word of slice `s`, modulo the
correction plus 1 (R125 says toward the fit, and by how much at most; log entry 125). -/
opaque trackShare : Nat → Nat → Nat

/-- Whether a code of channel `c` in a lap saturates at the upper limit while a pin is beyond ±15 V (R129 leaves the direction open).
Arguments: the lap and the channel. -/
opaque clampsHigh : Nat → Nat → Bool

/-- What a skew calibration measures for channel `c`: the aperture delay in 1/16 ps and the even/odd gain and offset
differences (R128). -/
opaque skewValue : Nat → Nat → Int
opaque eoGain : Nat → Nat → Int
opaque eoOffset : Nat → Nat → Int

/-- The words of stages 2 to 7 (R137, log entry 22): how many fraction bits they have beyond 24, modulo 25, and how the value of a quotient
is brought to its word, as what is added before it is cut, modulo the divisor. -/
opaque moreBits : Nat
opaque stageRounding : Int → Int → Nat

/-- The coefficients of stages 2 to 5 and 7, in 2^-40 (R138, R143, R146; log entry 22): tap `i` of the interpolator at a skew, the free
coefficients of the two half-band filters, tap `i` of the compensating filter at an exponent K′, and the coefficient of power `p` of tap
`i` of the resampler. The model completes them so that each stage passes a constant as R146 requires. -/
opaque skewTap : Nat → Int → Int
opaque halfTapA : Int
opaque halfTapB : Nat → Int
opaque firTap : Nat → Nat → Int
opaque farrowTap : Nat → Nat → Int

/-- The residual of the fractional delay in 1/16 ps, the ripple at 0 Hz in 2^-40, and how far the notch's width lies from 4.8 Hz in
1/1 000 Hz (R146); the limits of R146 are applied. -/
opaque delayResidual : Int → Int
opaque rippleAtZero : Nat → Int
opaque notchWidth : Nat

/-- The voltage of thermocouple curve `k` at a temperature beyond the range of its reference function, in 2^-32 V (R150 states none there;
log entry 23), and the error of a curve's evaluation in 2^-24 °C (R146; the limit is applied). -/
opaque emfBeyond : Nat → Nat → Int
opaque curveError : Nat → Nat → Int

/-- The error of the sine that the chirp computes, in 2^-64 of its value (R221 states no limit; log entry 41), and whether a one of the
maximal-length sequence gives +AMP (R221 leaves it open; log entry 42). -/
opaque sineError : Nat → Int
opaque onePositive : Bool

/-- Whether a post that an instruction makes falls in the fabric cycle of an earlier post of the same instant (R22; log entry 110). -/
opaque sameCycle : Nat → Bool

/-- How many of the entries younger than 40 ns a consumer's view counts, and how many of the pops younger than 40 ns a producer's
view still counts, modulo their number plus 1 (R239; log entry 61). -/
opaque queueSight : Nat → Nat

/-- Whether the store that a forced halt abandons has been performed (R250). -/
opaque storeLands : Nat → Bool

/-- Whether a store stays in the write buffer when another master reads memory, and one to DRAM at the end of a lap (R229 to R232 leave
the order open; log entry 62). -/
opaque storeWaits : Nat → Bool

/-- Whether a fill of the data cache replaces the older of the two lines of its set (R231 states no rule; log entry 63). -/
opaque cacheOlder : Nat → Bool

/-- How many bytes the record buffer still holds when it drains, modulo its fill plus 1 (R161 states no rate; log entry 127). -/
opaque bufferLeft : Nat → Nat

/-- The contents of the Steward's boot ROM, by address (R26; the spec does not give them; log entry 108). -/
opaque romByte : Nat → BitVec 8

/-- What TINTERP gives where its abscissa is NaN although its operand is not (R266 states no floor of it; log entry 109). -/
opaque interpolated : Nat → BitVec 32

/-- The nominal latency of a lane in ps, for a mode and a rate (R292 does not state it; log entry 75). -/
opaque nominalLatency : Nat → Nat → Nat

/-- Where in a window or group of 2^k the injectors of R300 and R333 strike, modulo its length: how a position comes from the PRBS23
sequence is not stated. Arguments: k and the register of the sequence, which moves on by one step a window (log entry 104). -/
opaque injectPlace : Nat → Nat → Nat

/-- What a receiver in TRAIN wishes of its partner's taps when it may ask anew (R294 states the exchange, not the wishes): three digits to
base 3, PRE, MAIN and POST, and above them whether it asks for the preset. Argument: the model's counter (log entry 134). -/
opaque tapWish : Nat → Nat

/-- The seed of the pattern of a Clause 72 training frame, less 1 (R297; log entry 93). -/
opaque trainSeed : Nat → Nat

/-- The true latency of a lane and the error of this stamp together, in 2^-16 ns (R292 bounds them, it does not state them). Arguments: the
model's counter, the lane, and 1 for receiving (log entry 75). -/
opaque trueLatency : Nat → Nat → Nat → Int

/-- Whether a hub with frames that it has sent and that no head has acknowledged sends them again at a STREAM_ACK frame: R346 and R349 have them
arrive, no rule states when they are sent again (log entry 205). -/
opaque sendsAgain : Nat → Bool

/-- Which bit after the header of a frame the injector inverts (R333 does not state it; log entry 76). -/
opaque corruptBit : Nat → Nat

/-- What a byte of DRAM holds whose contents have been lost: after INIT, in a masked segment of PASR, or without power (R357, R368; log
entry 96). Arguments: the model's counter and the address. -/
opaque lostByte : Nat → Nat → BitVec 8

/-- Which check line leaves the full check cache (R365 does not state it; log entry 200), and whether a request of the hub's own in SR_ENTRY
comes after the entry command (R368; log entry 201). -/
opaque checkLeaves : Nat → Nat
opaque entryIssued : Nat → Bool

/-- Whether the PHY uses word `k` of DMC_TRAIN_SAVEk, the step of R356 that a read finds a training in, and an eye margin of a check that
fails, in 1/256 UI (R356, R357 do not state them; log entry 202). -/
opaque phyUses : Nat → Bool
opaque trainStep : Nat → Nat
opaque eyeMargin : Nat → Nat → Nat

/-- Which data bit of a word an injected DRAM error inverts (R410 does not state it; log entry 104). -/
opaque ruinedBit : Nat → Nat

/-- What a Ledger word holds that still differs after 3 retries (R431), and how many more words a write has stored when VDD_DIG leaves
its window, modulo 25 (R431, R454). -/
opaque badWord : Nat → BitVec 32
opaque cutShort : Nat → Nat

/-- Which word of a lap frame an injected die-to-die error strikes (R410 does not state it; log entry 104). -/
opaque struckWord : Nat → Nat

end Sys2Proof.Config
end

