-- ==== Sys2Proof/Machine/Bits.lean ====
section
/-!
DEFINITION. Bit fields, saturation, sign extension, rounding and the 48-bit coordinate arithmetic that the register map
and the rules use (spec/00_scope.md R6, R12, R13, R16).
-/
namespace Sys2Proof.Machine

/-- A field of an addressed register: the register's address, its lowest bit and its width. -/
structure Fld where
  reg : Nat
  lo : Nat
  w : Nat
deriving DecidableEq, Repr

/-- The bits `lo + w - 1 .. lo` of a word set, all others clear. -/
def fmask (lo w : Nat) : Word := BitVec.ofNat 32 (2 ^ w - 1) <<< lo

/-- The value of the field at `lo`, `w` bits wide. -/
def fget (x : Word) (lo w : Nat) : Nat := ((x >>> lo) &&& BitVec.ofNat 32 (2 ^ w - 1)).toNat

/-- The word with that field replaced by `v` (its low `w` bits). -/
def fset (x : Word) (lo w v : Nat) : Word :=
  (x &&& ~~~ fmask lo w) ||| ((BitVec.ofNat 32 v <<< lo) &&& fmask lo w)

/-- 1 for true, 0 for false. -/
def bit (b : Bool) : Nat := if b then 1 else 0

/-- The 32-bit word of a natural number. -/
def w32 (n : Nat) : Word := BitVec.ofNat 32 n

/-- Bits 31:0 and 63:32 of a natural number, as words. -/
def lo32 (n : Nat) : Word := BitVec.ofNat 32 n
def hi32 (n : Nat) : Word := BitVec.ofNat 32 (n / 2 ^ 32)

/-- Two's complement value of the low `w` bits of `n`. -/
def signed (w n : Nat) : Int :=
  let m := n % 2 ^ w
  if 2 * m < 2 ^ w then (m : Int) else (m : Int) - (2 : Int) ^ w

/-- The low `w` bits of an integer, as a natural number. -/
def unsignedOf (w : Nat) (i : Int) : Nat := (i % (2 : Int) ^ w).toNat

/-- An integer clamped to `w`-bit two's complement. -/
def satSigned (w : Nat) (i : Int) : Int :=
  let m : Int := (2 : Int) ^ (w - 1)
  if i ≥ m then m - 1 else if i < -m then -m else i

/-- A natural number clamped to `w` bits. -/
def satNat (w n : Nat) : Nat := if n < 2 ^ w then n else 2 ^ w - 1

/-- Division rounding half to even; `d` positive. -/
def divHalfEven (n d : Int) : Int :=
  let q := n / d
  let r := n % d
  if 2 * r < d then q else if 2 * r > d then q + 1 else if q % 2 = 0 then q else q + 1

/-- An integer held to the range `lo .. hi`. -/
def clampInt (lo hi x : Int) : Int := if x < lo then lo else if x > hi then hi else x

/-- A natural number held to the range `lo .. hi`. -/
def clampNat (lo hi x : Nat) : Nat := if x < lo then lo else if x > hi then hi else x

/-- Line time is kept in units of 2^-16 ns (R12). -/
def unitsPerNs : Nat := 65536

/-- One lap, 976.5625 ns, in units of 2^-16 ns (R13). -/
def lapUnits : Nat := 64000000

/-- The line time of boundary `n` (R13). -/
def lapStart (n : Nat) : Nat := n * lapUnits

/-- The lap that holds line time `t` (R13). -/
def lapOf (t : Nat) : Nat := t / lapUnits

/-- The first lap whose instant is at or after line time `t` (R65, R176). -/
def lapAtOrAfter (t : Nat) : Nat := (t + (lapUnits - 1)) / lapUnits

/-- Whole nanoseconds of a line time. -/
def nsOf (t : Nat) : Nat := t / unitsPerNs

/-- The fraction of a line time in 2^-16 ns. -/
def fracOf (t : Nat) : Nat := t % unitsPerNs

/-- The short stamp of a line time: the low 48 bits of its nanoseconds (R15). -/
def shortStamp (t : Nat) : Nat := nsOf t % 2 ^ 48

/-- Signed difference of two 48-bit coordinates (R16). -/
def sdiff48 (b a : Int) : Int :=
  let d := (b - a) % (2 : Int) ^ 48
  if d ≥ (2 : Int) ^ 47 then d - (2 : Int) ^ 48 else d

/-- Bit `i` of a natural number. -/
def nbit (n i : Nat) : Bool := n.testBit i

/-- Little-endian bytes of `n`, `k` of them. -/
def bytesLE : Nat → Nat → List Byte
  | 0, _ => []
  | k + 1, n => BitVec.ofNat 8 n :: bytesLE k (n / 256)

/-- The number that little-endian bytes spell. -/
def ofBytesLE : List Byte → Nat
  | [] => 0
  | b :: t => b.toNat + 256 * ofBytesLE t

/-- The indices `0 .. n - 1` at which `p` holds. -/
def idxWhere (n : Nat) (p : Nat → Bool) : List Nat := (List.range n).filter p

/-- The index of the first `i < n` with `p i`. -/
def firstIdx (n : Nat) (p : Nat → Bool) : Option Nat := (List.range n).find? p

/-- The natural number whose bit `i`, for `i < n`, is `p i`. -/
def bitsOf (n : Nat) (p : Nat → Bool) : Nat :=
  (List.range n).foldl (fun acc i => if p i then acc + 2 ^ i else acc) 0

end Sys2Proof.Machine
end

