-- ==== Sys2Proof/Machine/Crc.lean ====
section
/-!
DEFINITION. The cyclic redundancy checks of the frames, of training blocks and of the output digest (spec/10_lanes.md R294,
spec/11_woten_line.md R310, spec/14_twin.md R383, spec/16_power_boot.md).
-/
namespace Sys2Proof.Machine

/-- One bit, most significant first, through a register of `w` bits. -/
def crcBit (w poly c : Nat) (b : Bool) : Nat :=
  let out := c.testBit (w - 1) != b
  let d := c * 2 % 2 ^ w
  if out then d ^^^ poly else d

/-- The bits of a byte, most significant first. -/
def bitsMsb (b : Byte) : List Bool := [7, 6, 5, 4, 3, 2, 1, 0].map (fun i => b.toNat.testBit i)

/-- The bits of a byte, least significant first. -/
def bitsLsb (b : Byte) : List Bool := [0, 1, 2, 3, 4, 5, 6, 7].map (fun i => b.toNat.testBit i)

/-- A check taken most significant bit first, without a final inversion. -/
def crcMsb (w poly init : Nat) (bs : List Byte) : Nat :=
  bs.foldl (fun c b => (bitsMsb b).foldl (crcBit w poly) c) init

/-- The number with its low `w` bits in reverse order. -/
def reverseBits : Nat → Nat → Nat
  | 0, _ => 0
  | w + 1, n => n % 2 * 2 ^ w + reverseBits w (n / 2)

/-- CRC-8 of a training block: polynomial 0x07, initial value 0 (R294). -/
def crc8 (bs : List Byte) : Nat := crcMsb 8 0x07 0 bs

/-- The CRC-16 of a frame header: polynomial 0x1021, initial value 0xFFFF (R310). -/
def crc16 (bs : List Byte) : Nat := crcMsb 16 0x1021 0xFFFF bs

/-- The frame check sequence of IEEE 802.3 (R310): least significant bit first, inverted. -/
def crc32 (bs : List Byte) : Nat :=
  let c := bs.foldl (fun c b => (bitsLsb b).foldl (crcBit 32 0x04C11DB7) c) 0xFFFFFFFF
  reverseBits 32 c ^^^ 0xFFFFFFFF

/-- The CRC-64 of the output digest (R383). -/
def crc64 (bs : List Byte) : Nat := crcMsb 64 0x42F0E1EBA9EA3693 0xFFFFFFFFFFFFFFFF bs ^^^ 0xFFFFFFFFFFFFFFFF

end Sys2Proof.Machine
end

