-- ==== Sys2Proof/Machine/Float.lean ====
section
/-!
DEFINITION. IEEE 754 binary32 and binary64 arithmetic, round to nearest even, computed exactly on integers and rounded
once. Used by the reduction stages 8 and 9 (R147, R149), the loop law (R202), the folio summaries (R192) and, with
subnormals flushed to zero, by the Ralnel float instructions (R264, R265).
-/
namespace Sys2Proof.Machine

/-- A float value: `fin s m e` is `(-1)^s * m * 2^e`. -/
inductive FVal where
  | nan
  | inf (neg : Bool)
  | fin (neg : Bool) (m : Nat) (e : Int)
deriving DecidableEq, Repr

/-- A binary format: precision `p` (with the hidden bit), exponent field width `x`. -/
structure FFmt where
  p : Nat
  x : Nat
deriving DecidableEq, Repr

def fmt32 : FFmt := ⟨24, 8⟩
def fmt64 : FFmt := ⟨53, 11⟩

/-- The exponent bias of a format. -/
def FFmt.bias (f : FFmt) : Int := 2 ^ (f.x - 1) - 1

/-- The least exponent of the last place (the quantum of subnormals). -/
def FFmt.qmin (f : FFmt) : Int := 1 - f.bias - ((f.p : Int) - 1)

/-- Multiply a natural number by 2^k, k not negative. -/
def shl (m : Nat) (k : Int) : Nat := m * 2 ^ k.toNat

/-- Round `m * 2^e`, with a sticky bit for a nonzero remainder below the last place of `m`, to format `f`. -/
def roundTo (f : FFmt) (neg : Bool) (m : Nat) (e : Int) (sticky : Bool) : FVal :=
  if m = 0 then .fin neg 0 0 else
  let len : Int := (Nat.log2 m : Int) + 1
  let q : Int := if e + len - f.p < f.qmin then f.qmin else e + len - f.p
  let r : Nat × Int :=
    if q ≤ e then (shl m (e - q), q)
    else
      let k := (q - e).toNat
      let a := m / 2 ^ k
      let rem := m % 2 ^ k
      let up := decide (2 * rem > 2 ^ k) || (decide (2 * rem = 2 ^ k) && (sticky || decide (a % 2 = 1)))
      (if up then a + 1 else a, q)
  if r.1 = 0 then .fin neg 0 0
  else if (Nat.log2 r.1 : Int) + r.2 > f.bias then .inf neg
  else .fin neg r.1 r.2

/-- The value of an encoded float. -/
def fdecode (f : FFmt) (bits : Nat) : FVal :=
  let frac := bits % 2 ^ (f.p - 1)
  let ex := bits / 2 ^ (f.p - 1) % 2 ^ f.x
  let neg := decide (bits / 2 ^ (f.p - 1 + f.x) % 2 = 1)
  if ex = 2 ^ f.x - 1 then (if frac = 0 then .inf neg else .nan)
  else if ex = 0 then .fin neg frac f.qmin
  else .fin neg (frac + 2 ^ (f.p - 1)) (f.qmin + ((ex : Int) - 1))

/-- The encoding of a value already rounded to the format; every NaN is the quiet NaN with a clear sign. -/
def fencode (f : FFmt) (v : FVal) : Nat :=
  let s (neg : Bool) : Nat := if neg then 2 ^ (f.p - 1 + f.x) else 0
  match v with
  | .nan => (2 ^ f.x - 1) * 2 ^ (f.p - 1) + 2 ^ (f.p - 2)
  | .inf neg => s neg + (2 ^ f.x - 1) * 2 ^ (f.p - 1)
  | .fin neg m e =>
    if m = 0 then s neg else
    let l : Int := Nat.log2 m
    let want : Int := (f.p : Int) - 1
    let m' : Nat := if l ≤ want then shl m (want - l) else m / 2 ^ (l - want).toNat
    let e' : Int := e + l - want
    if e' < f.qmin then s neg + (if e ≥ f.qmin then shl m (e - f.qmin) else m / 2 ^ (f.qmin - e).toNat)
    else s neg + ((e' - f.qmin).toNat + 1) * 2 ^ (f.p - 1) + (m' - 2 ^ (f.p - 1))

def FVal.isNan : FVal → Bool | .nan => true | _ => false
def FVal.isZero : FVal → Bool | .fin _ m _ => m = 0 | _ => false
def FVal.isFin : FVal → Bool | .fin _ _ _ => true | _ => false
def FVal.negd : FVal → Bool | .nan => false | .inf n => n | .fin n _ _ => n

/-- The value with the other sign. -/
def fneg : FVal → FVal
  | .nan => .nan
  | .inf n => .inf (!n)
  | .fin n m e => .fin (!n) m e

/-- The magnitude. -/
def fabs : FVal → FVal
  | .nan => .nan
  | .inf _ => .inf false
  | .fin _ m e => .fin false m e

/-- The signed integer `m` of a finite value, scaled to exponent `e0 ≤ e`. -/
def sint (neg : Bool) (m : Nat) (e e0 : Int) : Int :=
  let a : Int := shl m (e - e0)
  if neg then -a else a

/-- The exact sum of finite values rounded once. A zero sum of opposite signs is +0. -/
def faddFin (f : FFmt) (n1 : Bool) (m1 : Nat) (e1 : Int) (n2 : Bool) (m2 : Nat) (e2 : Int) : FVal :=
  if m1 = 0 ∧ m2 = 0 then .fin (n1 && n2) 0 0
  else if m1 = 0 then roundTo f n2 m2 e2 false
  else if m2 = 0 then roundTo f n1 m1 e1 false
  else
    let e0 := if e1 ≤ e2 then e1 else e2
    let s := sint n1 m1 e1 e0 + sint n2 m2 e2 e0
    if s = 0 then .fin false 0 0 else roundTo f (decide (s < 0)) s.natAbs e0 false

def fadd (f : FFmt) : FVal → FVal → FVal
  | .nan, _ => .nan
  | _, .nan => .nan
  | .inf a, .inf b => if a = b then .inf a else .nan
  | .inf a, _ => .inf a
  | _, .inf b => .inf b
  | .fin n1 m1 e1, .fin n2 m2 e2 => faddFin f n1 m1 e1 n2 m2 e2

def fsub (f : FFmt) (a b : FVal) : FVal := fadd f a (fneg b)

/-- The exact product, not rounded (for the fused multiply-add). -/
def fmulExact : FVal → FVal → FVal
  | .nan, _ => .nan
  | _, .nan => .nan
  | .inf a, .inf b => .inf (a != b)
  | .inf a, .fin n m _ => if m = 0 then .nan else .inf (a != n)
  | .fin n m _, .inf b => if m = 0 then .nan else .inf (n != b)
  | .fin n1 m1 e1, .fin n2 m2 e2 => .fin (n1 != n2) (m1 * m2) (e1 + e2)

/-- Round any value to a format. -/
def fround (f : FFmt) : FVal → FVal
  | .nan => .nan
  | .inf n => .inf n
  | .fin n m e => roundTo f n m e false

def fmul (f : FFmt) (a b : FVal) : FVal := fround f (fmulExact a b)

/-- `a * b + c` with one rounding. -/
def ffma (f : FFmt) (a b c : FVal) : FVal := fadd f (fmulExact a b) c

def fdiv (f : FFmt) : FVal → FVal → FVal
  | .nan, _ => .nan
  | _, .nan => .nan
  | .inf _, .inf _ => .nan
  | .inf a, .fin n _ _ => .inf (a != n)
  | .fin n _ _, .inf b => .fin (n != b) 0 0
  | .fin n1 m1 e1, .fin n2 m2 e2 =>
    if m2 = 0 then (if m1 = 0 then .nan else .inf (n1 != n2))
    else if m1 = 0 then .fin (n1 != n2) 0 0
    else
      let k := f.p + 3 + Nat.log2 m2
      let a := m1 * 2 ^ k
      roundTo f (n1 != n2) (a / m2) (e1 - e2 - k) (decide (a % m2 ≠ 0))

/-- Integer square root by bits: the greatest `r` with `r * r ≤ n`, for `n < 4^fuel`. -/
def isqrtAux (n : Nat) : Nat → Nat → Nat
  | 0, r => r
  | k + 1, r =>
    let c := r + 2 ^ k
    isqrtAux n k (if c * c ≤ n then c else r)

def isqrt (n : Nat) : Nat := isqrtAux n (Nat.log2 n / 2 + 1) 0

def fsqrt (f : FFmt) : FVal → FVal
  | .nan => .nan
  | .inf n => if n then .nan else .inf false
  | .fin n m e =>
    if m = 0 then .fin n 0 0
    else if n then .nan
    else
      let k : Nat := 2 * f.p + 4
      let odd : Bool := e % 2 = 1
      let m' := m * 2 ^ (k + (if odd then 1 else 0))
      let e' := (e - k - (if odd then 1 else 0)) / 2
      let r := isqrt m'
      roundTo f false r e' (decide (r * r ≠ m'))

/-- Three-way comparison of two values that are not NaN. -/
def fcmpOrd : FVal → FVal → Ordering
  | .inf a, .inf b => if a = b then .eq else if a then .lt else .gt
  | .inf a, _ => if a then .lt else .gt
  | _, .inf b => if b then .gt else .lt
  | .fin n1 m1 e1, .fin n2 m2 e2 =>
    let e0 := if e1 ≤ e2 then e1 else e2
    compare (sint n1 m1 e1 e0) (sint n2 m2 e2 e0)
  | _, _ => .eq

def flt (a b : FVal) : Bool := !a.isNan && !b.isNan && fcmpOrd a b == .lt
def fle (a b : FVal) : Bool := !a.isNan && !b.isNan && fcmpOrd a b != .gt
def feq (a b : FVal) : Bool := !a.isNan && !b.isNan && fcmpOrd a b == .eq

/-- An integer as an exact value. -/
def fofInt (i : Int) : FVal := .fin (decide (i < 0)) i.natAbs 0

/-- The value rounded half to even to an integer; none for NaN and infinities. -/
def ftoInt : FVal → Option Int
  | .fin n m e =>
    let a : Int := if 0 ≤ e then (shl m e : Int) else divHalfEven m (2 ^ (-e).toNat)
    some (if n then -a else a)
  | _ => none

/-- The value rounded toward zero to an integer; none for NaN and infinities. -/
def ftrunc : FVal → Option Int
  | .fin n m e =>
    let a : Int := if 0 ≤ e then (shl m e : Int) else ((m / 2 ^ (-e).toNat : Nat) : Int)
    some (if n then -a else a)
  | _ => none

/-- The floor of a value; none for NaN and infinities. -/
def ffloor : FVal → Option Int
  | .fin n m e =>
    let a : Int := if n then -(m : Int) else (m : Int)
    some (if 0 ≤ e then a * 2 ^ e.toNat else a / 2 ^ (-e).toNat)
  | _ => none

/-- A subnormal of the format replaced by a zero of its sign (R264). -/
def flushSub (f : FFmt) : FVal → FVal
  | .fin n m e =>
    if m ≠ 0 ∧ (Nat.log2 m : Int) + e < 1 - f.bias then .fin n 0 0 else .fin n m e
  | v => v

/-- binary32 words and binary64 numbers as values, and back. -/
def f32 (w : Word) : FVal := fdecode fmt32 w.toNat
def w32f (v : FVal) : Word := BitVec.ofNat 32 (fencode fmt32 (fround fmt32 v))
def f64 (n : Nat) : FVal := fdecode fmt64 n
def n64 (v : FVal) : Nat := fencode fmt64 (fround fmt64 v)

/-- binary64 operations on values, rounded to nearest even. -/
def dadd (a b : FVal) : FVal := fadd fmt64 a b
def dsub (a b : FVal) : FVal := fsub fmt64 a b
def dmul (a b : FVal) : FVal := fmul fmt64 a b
def ddiv (a b : FVal) : FVal := fdiv fmt64 a b

/-- A rational `n / d`, `d` positive, rounded to binary64. -/
def dofRat (n : Int) (d : Nat) : FVal := fdiv fmt64 (fofInt n) (fofInt d)

end Sys2Proof.Machine
end

