-- ==== Sys2Proof/Machine/Approx.lean ====
section
/-!
DEFINITION. The functions of real numbers that the reduction chain and the test generator evaluate: sine, cosine, exponential, logarithm,
the reference functions of the temperature curves and their inverses (spec/05_reduction.md R145, R146, R149, R150, spec/07_control.md
R221). They are computed in fixed point; where the spec bounds an error, a free error within the bound is added.
-/
namespace Sys2Proof.Machine
open Sys2Proof

/-! ### Elementary functions in units of 2^-64 -/

/-- One in units of 2^-64. -/
def fxOne : Int := 18446744073709551616

/-- π and ln 2 in units of 2^-64. -/
def fxPi : Int := 57952155664616982740
def fxLn2 : Int := 12786308645202655660

def fxMul (a b : Int) : Int := a * b / fxOne

/-- The sum of a series whose next term is the last times `-x2 / ((k + 1) (k + 2))`. -/
def alternating (x2 : Int) : Nat → Int → Int → Int → Int
  | 0, _, _, acc => acc
  | n + 1, k, t, acc =>
    let t1 := -(fxMul t x2) / ((k + 1) * (k + 2))
    alternating x2 n (k + 2) t1 (acc + t1)

/-- Sine and cosine of an angle from 0 to 2π. -/
def fxSin (x : Int) : Int := alternating (fxMul x x) 24 1 x x
def fxCos (x : Int) : Int := alternating (fxMul x x) 24 0 fxOne fxOne

/-- The angle of `num / den` turns, without its whole turns. -/
def turnAngle (num den : Int) : Int := 2 * fxPi * (num % den) / den

/-- The sum of the exponential series. -/
def powers (x : Int) : Nat → Int → Int → Int → Int
  | 0, _, _, acc => acc
  | n + 1, k, t, acc => let t1 := fxMul t x / k; powers x n (k + 1) t1 (acc + t1)

/-- The exponential of `x` from -256 to 0: the 256th power of that of x / 256. -/
def fxExp (x : Int) : Int := (List.range 8).foldl (fun y _ => fxMul y y) (powers (x / 256) 24 1 fxOne fxOne)

/-- The sum of z + z^3 / 3 + z^5 / 5 + … -/
def oddPowers (z2 : Int) : Nat → Int → Int → Int → Int
  | 0, _, _, acc => acc
  | n + 1, k, t, acc => let t1 := fxMul t z2; oddPowers z2 n (k + 2) t1 (acc + t1 / k)

/-- The natural logarithm of m × 2^e, for m > 0. -/
def fxLn (m : Nat) (e : Int) : Int :=
  let b := Nat.log2 m
  let z := ((m : Int) - 2 ^ b) * fxOne / (m + 2 ^ b)
  2 * oddPowers (fxMul z z) 24 3 z z + (e + b) * fxLn2

/-- A finite value in units of 2^-k, without its lower digits. -/
def fxOf (k : Nat) (v : FVal) : Int :=
  match v with
  | .fin n m e =>
    let q : Int := if 0 ≤ e + k then ((m * 2 ^ (e + k).toNat : Nat) : Int) else ((m / 2 ^ (-(e + k)).toNat : Nat) : Int)
    if n then -q else q
  | _ => 0

/-- The sine of a number of turns as the chirp computes it (R221). The spec states no error of it: it is within a part in 2^40 of the sine
(DESIGN CHOICE, log entry 41). -/
def sineOf (turns : FVal) : FVal :=
  let x := fxSin (turnAngle (fxOf 64 turns) fxOne)
  let e := clampInt (-16777216) 16777216 (Config.sineError (n64 turns))
  dofRat (clampInt (-fxOne) fxOne (x + fxMul x e)) 18446744073709551616

/-- The natural logarithm of a positive value, rounded to binary64 (R149). -/
def logOf (v : FVal) : FVal :=
  match v with
  | .fin _ m e => if m = 0 then .nan else dofRat (fxLn m e) 18446744073709551616
  | x => x

/-! ### Reference functions (R149, R150)

Temperatures are in units of 2^-24 °C and values in units of 2^-192. The coefficients of curves 1 to 9 are those of the standards that the
spec names, IEC 60584-1 and IEC 60751 (PRESUMED, log entry 23); those of curve 10 stand in R149. -/

/-- The polynomial that holds up to a temperature in 1/1 000 °C; a coefficient is a number and how many places its point moves left. -/
structure Piece where
  upTo : Int
  coef : List (Int × Nat)
deriving DecidableEq, Repr

def polyAt (cs : List (Int × Nat)) (t : Int) : Int :=
  cs.foldr (fun c acc => acc * t / 16777216 + c.1 * 2 ^ 192 / (10 : Int) ^ c.2) 0

/-- The piece that holds at a temperature; the last goes on beyond its end. -/
def pieceFor (t : Int) : List Piece → List (Int × Nat)
  | [] => []
  | [p] => p.coef
  | p :: ps => if t * 1000 ≤ p.upTo * 16777216 then p.coef else pieceFor t ps

/-- The lowest temperature in 1/1 000 °C, and the pieces, of the reference function of thermocouple curve 1 to 8, in mV (IEC 60584-1). -/
def emfPieces (k : Nat) : Option (Int × List Piece) :=
  match k with
  | 1 => some (0, [⟨630615, [
      (0, 0), (-24650818346, 14), (59040421171, 16), (-13257931636, 19), (15668291901, 22), (-1694452924, 24),
      (62990347094, 29)]⟩,
    ⟨1820000, [
      (-38938168621, 10), (2857174747, 11), (-84885104785, 15), (15785280164, 17), (-16835344864, 20),
      (11109794013, 23), (-44515431033, 27), (98975640821, 31), (-93791330289, 35)]⟩])
  | 2 => some (-270000, [⟨0, [
      (0, 0), (58665508708, 12), (45410977124, 15), (-77998048686, 17), (-25800160843, 18), (-59452583057, 20),
      (-93214058667, 22), (-10287605534, 23), (-80370123621, 26), (-43979497391, 28), (-16414776355, 30),
      (-39673619516, 33), (-55827328721, 36), (-34657842013, 39)]⟩,
    ⟨1000000, [
      (0, 0), (5866550871, 11), (45032275582, 15), (28908407212, 18), (-33056896652, 20), (6502440327, 22),
      (-19197495504, 26), (-12536600497, 28), (21489217569, 31), (-14388041782, 34), (35960899481, 38)]⟩])
  | 3 => some (-210000, [⟨760000, [
      (0, 0), (50381187815, 12), (3047583693, 14), (-8568106572, 17), (13228195295, 20), (-17052958337, 23),
      (20948090697, 26), (-12538395336, 29), (15631725697, 33)]⟩,
    ⟨1200000, [
      (29645625681, 8), (-14976127786, 10), (31787103924, 13), (-31847686701, 16), (15720819004, 19),
      (-30691369056, 23)]⟩])
  | 4 => some (-270000, [⟨0, [
      (0, 0), (39450128025, 12), (23622373598, 15), (-32858906784, 17), (-49904828777, 19), (-67509059173, 21),
      (-57410327428, 23), (-31088872894, 25), (-10451609365, 27), (-19889266878, 30), (-16322697486, 33)]⟩,
    ⟨1372000, [
      (-17600413686, 12), (38921204975, 12), (18558770032, 15), (-99457592874, 18), (31840945719, 20),
      (-56072844889, 23), (56075059059, 26), (-32020720003, 29), (97151147152, 33), (-12104721275, 36)]⟩])
  | 5 => some (-270000, [⟨0, [
      (0, 0), (26159105962, 12), (10957484228, 15), (-93841111554, 18), (-46412039759, 21), (-26303357716, 22),
      (-22653438003, 24), (-76089300791, 27), (-93419667835, 30)]⟩,
    ⟨1300000, [
      (0, 0), (25929394601, 12), (1571014188, 14), (43825627237, 18), (-25261169794, 20), (64311819339, 23),
      (-10063471519, 25), (99745338992, 29), (-60863245607, 32), (20849229339, 35), (-30682196151, 39)]⟩])
  | 6 => some (-50000, [⟨1064180, [
      (0, 0), (528961729765, 14), (139166589782, 16), (-238855693017, 19), (356916001063, 22), (-462347666298, 25),
      (500777441034, 28), (-373105886191, 31), (157716482367, 34), (-281038625251, 38)]⟩,
    ⟨1664500, [
      (295157925316, 11), (-252061251332, 14), (159564501865, 16), (-764085947576, 20), (205305291024, 23),
      (-293359668173, 27)]⟩,
    ⟨1768100, [
      (152232118209, 9), (-268819888545, 12), (171280280471, 15), (-345895706453, 19), (-934633971046, 26)]⟩])
  | 7 => some (-50000, [⟨1064180, [
      (0, 0), (540313308631, 14), (12593428974, 15), (-232477968689, 19), (322028823036, 22), (-331465196389, 25),
      (255744251786, 28), (-125068871393, 31), (271443176145, 35)]⟩,
    ⟨1664500, [
      (132900444085, 11), (334509311344, 14), (654805192818, 17), (-164856259209, 20), (129989605174, 25)]⟩,
    ⟨1768100, [
      (146628232636, 9), (-258430516752, 12), (163693574641, 15), (-330439046987, 19), (-943223690612, 26)]⟩])
  | 8 => some (-270000, [⟨0, [
      (0, 0), (38748106364, 12), (44194434347, 15), (11844323105, 17), (20032973554, 18), (90138019559, 20),
      (22651156593, 21), (36071154205, 23), (38493939883, 25), (28213521925, 27), (14251594779, 29),
      (48768662286, 32), (1079553927, 33), (13945027062, 37), (79795153927, 41)]⟩,
    ⟨400000, [
      (0, 0), (38748106364, 12), (3329222788, 14), (20618243404, 17), (-21882256846, 19), (10996880928, 21),
      (-30815758772, 24), (4547913529, 26), (-27512901673, 30)]⟩])
  | _ => none

/-- The exponential term of the type K function above 0 °C. -/
def typeKTerm (t : Int) : Int :=
  let d := t * fxOne / 16777216 - 1269686 * fxOne / 10000
  1185976 * fxExp (-(fxMul (fxMul d d) (118343200 * fxOne / 1000000000000))) * 2 ^ 128 / 10000000

/-- The reference function of a curve at a temperature: of curves 1 to 8 in mV, of 9 and 10 as ρ / R_nom. -/
def curveAt (k : Nat) (t : Int) : Int :=
  if k = 9 then
    polyAt (if 0 ≤ t then [(1, 0), (39083, 7), (-5775, 10)] else [(1, 0), (39083, 7), (-5775, 10), (4183, 13), (-4183, 15)]) t
  else if k = 10 then polyAt [(1, 0), (5485, 6), (6650, 9), (0, 0), (2805, 14), (0, 0), (-2000, 20)] t
  else
    match emfPieces k with
    | some q => polyAt (pieceFor t q.2) t + (if k = 4 ∧ 0 < t then typeKTerm t else 0)
    | none => 0

/-- Whether the reference function of thermocouple curve `k` covers a temperature. -/
def emfCovers (k : Nat) (t : Int) : Bool :=
  match emfPieces k with
  | some q => decide (q.1 * 16777216 ≤ t * 1000) && q.2.any (fun p => decide (t * 1000 ≤ p.upTo * 16777216))
  | none => false

/-- The voltage of a thermocouple at a temperature, in V (R150). Beyond the reference function's range it is a free value (log entry
23). -/
def emfForward (k : Nat) (v : FVal) : FVal :=
  let t := fxOf 24 v
  if emfCovers k t then dofRat (curveAt k t) (1000 * 2 ^ 192) else dofRat (Config.emfBeyond k (n64 v)) (2 ^ 32)

/-- The highest of the temperatures `lo + j`, j below 2^n, whose value does not exceed `y`, for a rising function. -/
def bisect (f : Int → Int) (lo y : Int) : Nat → Int → Int
  | 0, j => lo + j
  | n + 1, j => bisect f lo y n (if f (lo + (j + 2 ^ n)) ≤ y then j + 2 ^ n else j)

/-- The error that the evaluation of a curve makes at a result: free, within ±0.001 °C (R146), less the error of the computation here. -/
def curveError (k : Nat) (v : FVal) : FVal := dofRat (clampInt (-16757) 16757 (Config.curveError k (n64 v))) 16777216

def withCurveError (k : Nat) (v : FVal) : FVal := dadd v (curveError k v)

/-- The temperature in °C whose reference value is `y`, from 1/64 °C below `lo` °C to 1/64 °C above `hi` °C, within the error of R146. -/
def curveInverse (k : Nat) (lo hi y : Int) : FVal :=
  let a := lo * 16777216 - 262144
  let b := hi * 16777216 + 262144
  let t := if y < curveAt k a then a else if curveAt k b < y then b else min b (bisect (curveAt k) a y 35 0)
  withCurveError k (dofRat t 16777216)

end Sys2Proof.Machine
end

