-- ==== Sys2Proof/Machine/RegMap.lean ====
section
/-!
DEFINITION. The register map: the address of every addressed register (spec/01_architecture.md R31 and the register map
of each chapter) and the place of every field. Indexed registers take their index as an argument. Names are the spec's.
-/
namespace Sys2Proof.Machine

/-! ### TOP: identity, cores, power and reset (spec/00_scope.md R1, spec/08_cores.md R253, spec/16_power_boot.md R439) -/

abbrev TOP_CHIP_ID : Nat := 0xA0000000
abbrev TOP_CHIP_ID.CHIP_ID : Fld := ⟨0xA0000000, 0, 32⟩
abbrev TOP_DIE_REV : Nat := 0xA0000004
abbrev TOP_DIE_REV.ANA_REV : Fld := ⟨0xA0000004, 8, 8⟩
abbrev TOP_DIE_REV.DIG_REV : Fld := ⟨0xA0000004, 0, 8⟩
abbrev TOP_CORE_CMD : Nat := 0xA0000200
abbrev TOP_CORE_CMD.STATUS : Fld := ⟨0xA0000200, 24, 8⟩
abbrev TOP_CORE_CMD.PEND : Fld := ⟨0xA0000200, 23, 1⟩
abbrev TOP_CORE_CMD.DROP : Fld := ⟨0xA0000200, 9, 1⟩
abbrev TOP_CORE_CMD.FLUSH : Fld := ⟨0xA0000200, 8, 1⟩
abbrev TOP_CORE_CMD.CORE : Fld := ⟨0xA0000200, 4, 3⟩
abbrev TOP_CORE_CMD.OP : Fld := ⟨0xA0000200, 0, 4⟩
abbrev TOP_EVT_BADPOST : Nat := 0xA0000204
abbrev TOP_EVT_BADPOST.COUNT : Fld := ⟨0xA0000204, 0, 32⟩
abbrev TOP_COMMIT_BAD : Nat := 0xA0000208
abbrev TOP_COMMIT_BAD.COUNT : Fld := ⟨0xA0000208, 0, 32⟩
abbrev TOP_COREn_STATUS (n : Nat) : Nat := 0xA0000400 + n * 128
abbrev TOP_COREn_STATUS.MODE (n : Nat) : Fld := ⟨0xA0000400 + n * 128, 4, 1⟩
abbrev TOP_COREn_STATUS.SLEEP (n : Nat) : Fld := ⟨0xA0000400 + n * 128, 3, 1⟩
abbrev TOP_COREn_STATUS.STATE (n : Nat) : Fld := ⟨0xA0000400 + n * 128, 0, 3⟩
abbrev TOP_COREn_ENTRY (n : Nat) : Nat := 0xA0000404 + n * 128
abbrev TOP_COREn_ENTRY.ADDR (n : Nat) : Fld := ⟨0xA0000404 + n * 128, 2, 30⟩
abbrev TOP_COREn_FAULT_PC (n : Nat) : Nat := 0xA0000408 + n * 128
abbrev TOP_COREn_FAULT_PC.VALUE (n : Nat) : Fld := ⟨0xA0000408 + n * 128, 0, 32⟩
abbrev TOP_COREn_FAULT_CAUSE (n : Nat) : Nat := 0xA000040C + n * 128
abbrev TOP_COREn_FAULT_CAUSE.CAUSE (n : Nat) : Fld := ⟨0xA000040C + n * 128, 0, 8⟩
abbrev TOP_COREn_COMMIT_LATE (n : Nat) : Nat := 0xA0000410 + n * 128
abbrev TOP_COREn_COMMIT_LATE.COUNT (n : Nat) : Fld := ⟨0xA0000410 + n * 128, 0, 32⟩
abbrev TOP_COREn_COMMIT_CNT (n : Nat) : Nat := 0xA0000414 + n * 128
abbrev TOP_COREn_COMMIT_CNT.DROPPED (n : Nat) : Fld := ⟨0xA0000414 + n * 128, 16, 16⟩
abbrev TOP_COREn_COMMIT_CNT.REFUSED (n : Nat) : Fld := ⟨0xA0000414 + n * 128, 0, 16⟩
abbrev TOP_COREn_RESTARTS (n : Nat) : Nat := 0xA0000418 + n * 128
abbrev TOP_COREn_RESTARTS.COUNT (n : Nat) : Fld := ⟨0xA0000418 + n * 128, 0, 16⟩
abbrev TOP_COREn_WATCHk (n k : Nat) : Nat := 0xA0000420 + n * 128 + k * 4
abbrev TOP_COREn_WATCHk.EVENTS (n k : Nat) : Fld := ⟨0xA0000420 + n * 128 + k * 4, 0, 32⟩
abbrev TOP_COREn_PENDk (n k : Nat) : Nat := 0xA0000440 + n * 128 + k * 4
abbrev TOP_COREn_PENDk.EVENTS (n k : Nat) : Fld := ⟨0xA0000440 + n * 128 + k * 4, 0, 32⟩
abbrev TOP_COREn_VECk (n k : Nat) : Nat := 0xA0000460 + n * 128 + k * 4
abbrev TOP_COREn_VECk.EVENTS (n k : Nat) : Fld := ⟨0xA0000460 + n * 128 + k * 4, 0, 32⟩
abbrev TOP_QSTATq (q : Nat) : Nat := 0xA0000800 + q * 4
abbrev TOP_QSTATq.DROPPED (q : Nat) : Fld := ⟨0xA0000800 + q * 4, 16, 16⟩
abbrev TOP_QSTATq.UNDERRUN (q : Nat) : Fld := ⟨0xA0000800 + q * 4, 9, 1⟩
abbrev TOP_QSTATq.OVERFLOW (q : Nat) : Fld := ⟨0xA0000800 + q * 4, 8, 1⟩
abbrev TOP_QSTATq.LEVEL (q : Nat) : Fld := ⟨0xA0000800 + q * 4, 0, 7⟩
abbrev TOP_MSGm_CFG (m : Nat) : Nat := 0xA0000A00 + m * 8
abbrev TOP_MSGm_CFG.PATH (m : Nat) : Fld := ⟨0xA0000A00 + m * 8, 30, 2⟩
abbrev TOP_MSGm_CFG.ADDR (m : Nat) : Fld := ⟨0xA0000A00 + m * 8, 16, 10⟩
abbrev TOP_MSGm_CFG.OBJECT (m : Nat) : Fld := ⟨0xA0000A00 + m * 8, 0, 16⟩
abbrev TOP_MSGm_SEQ (m : Nat) : Nat := 0xA0000A04 + m * 8
abbrev TOP_MSGm_SEQ.SEQ (m : Nat) : Fld := ⟨0xA0000A04 + m * 8, 0, 32⟩
abbrev TOP_CTRL : Nat := 0xA0000008
abbrev TOP_CTRL.LOCK : Fld := ⟨0xA0000008, 31, 1⟩
abbrev TOP_PWR_STATUS : Nat := 0xA0000010
abbrev TOP_PWR_STATUS.STATE : Fld := ⟨0xA0000010, 0, 3⟩
abbrev TOP_PWR_CMD : Nat := 0xA0000014
abbrev TOP_PWR_CMD.STATUS : Fld := ⟨0xA0000014, 24, 8⟩
abbrev TOP_PWR_CMD.PEND : Fld := ⟨0xA0000014, 23, 1⟩
abbrev TOP_PWR_CMD.OP : Fld := ⟨0xA0000014, 0, 4⟩
abbrev TOP_WAKE_CFG : Nat := 0xA0000018
abbrev TOP_WAKE_CFG.WAKE_N : Fld := ⟨0xA0000018, 31, 1⟩
abbrev TOP_WAKE_CFG.BTN : Fld := ⟨0xA0000018, 30, 1⟩
abbrev TOP_WAKE_CFG.TIMER : Fld := ⟨0xA0000018, 29, 1⟩
abbrev TOP_WAKE_CFG.SPI : Fld := ⟨0xA0000018, 28, 1⟩
abbrev TOP_WAKE_CFG.SHELVED : Fld := ⟨0xA0000018, 8, 1⟩
abbrev TOP_WAKE_CFG.LANES : Fld := ⟨0xA0000018, 0, 4⟩
abbrev TOP_WAKE_STATUS : Nat := 0xA000001C
abbrev TOP_WAKE_STATUS.WAKE_N : Fld := ⟨0xA000001C, 31, 1⟩
abbrev TOP_WAKE_STATUS.BTN : Fld := ⟨0xA000001C, 30, 1⟩
abbrev TOP_WAKE_STATUS.TIMER : Fld := ⟨0xA000001C, 29, 1⟩
abbrev TOP_WAKE_STATUS.SPI : Fld := ⟨0xA000001C, 28, 1⟩
abbrev TOP_WAKE_STATUS.SHELVED : Fld := ⟨0xA000001C, 8, 1⟩
abbrev TOP_WAKE_STATUS.LANES : Fld := ⟨0xA000001C, 0, 4⟩
abbrev TOP_AON_TIMER : Nat := 0xA0000020
abbrev TOP_AON_TIMER.SECONDS : Fld := ⟨0xA0000020, 0, 32⟩
abbrev TOP_RESET_CAUSE : Nat := 0xA0000024
abbrev TOP_RESET_CAUSE.CAUSE : Fld := ⟨0xA0000024, 0, 9⟩
abbrev TOP_RESET_CMD : Nat := 0xA0000028
abbrev TOP_RESET_CMD.KEY : Fld := ⟨0xA0000028, 8, 8⟩
abbrev TOP_RESET_CMD.OP : Fld := ⟨0xA0000028, 0, 2⟩
abbrev TOP_RESET_CFG : Nat := 0xA000002C
abbrev TOP_RESET_CFG.FAULT_RST : Fld := ⟨0xA000002C, 0, 1⟩
abbrev TOP_WDOG : Nat := 0xA0000030
abbrev TOP_WDOG.EN : Fld := ⟨0xA0000030, 31, 1⟩
abbrev TOP_WDOG.ACTION : Fld := ⟨0xA0000030, 30, 1⟩
abbrev TOP_WDOG.KICK : Fld := ⟨0xA0000030, 29, 1⟩
abbrev TOP_WDOG.TIMEOUT : Fld := ⟨0xA0000030, 0, 16⟩
abbrev TOP_BOOT_STATUS : Nat := 0xA0000040
abbrev TOP_BOOT_STATUS.DONE : Fld := ⟨0xA0000040, 31, 1⟩
abbrev TOP_BOOT_STATUS.WARM : Fld := ⟨0xA0000040, 30, 1⟩
abbrev TOP_BOOT_STATUS.FORCED_LINE : Fld := ⟨0xA0000040, 29, 1⟩
abbrev TOP_BOOT_STATUS.FAIL_CODE : Fld := ⟨0xA0000040, 24, 4⟩
abbrev TOP_BOOT_STATUS.SOURCE : Fld := ⟨0xA0000040, 20, 2⟩
abbrev TOP_BOOT_VERSION : Nat := 0xA0000044
abbrev TOP_BOOT_VERSION.VERSION : Fld := ⟨0xA0000044, 0, 32⟩
abbrev TOP_AON_SCRATCHk (k : Nat) : Nat := 0xA0000080 + k * 4
abbrev TOP_AON_SCRATCHk.VALUE (k : Nat) : Fld := ⟨0xA0000080 + k * 4, 0, 32⟩

/-! ### AFE: front end (spec/03_front_end.md R110) -/

abbrev AFE_CTRL : Nat := 0xA0010000
abbrev AFE_CTRL.LOCK : Fld := ⟨0xA0010000, 31, 1⟩
abbrev AFE_STATUS : Nat := 0xA0010004
abbrev AFE_STATUS.ANA_UP : Fld := ⟨0xA0010004, 16, 1⟩
abbrev AFE_STATUS.TRIPPED : Fld := ⟨0xA0010004, 0, 16⟩
abbrev AFE_OPEN_CFG : Nat := 0xA0010008
abbrev AFE_OPEN_CFG.THR : Fld := ⟨0xA0010008, 16, 16⟩
abbrev AFE_OPEN_CFG.PERSIST : Fld := ⟨0xA0010008, 0, 4⟩
abbrev AFE_EXC_APPLY : Nat := 0xA001000C
abbrev AFE_EXC_APPLY.STATUS : Fld := ⟨0xA001000C, 24, 8⟩
abbrev AFE_EXC_APPLY.PEND : Fld := ⟨0xA001000C, 23, 1⟩
abbrev AFE_EXC_APPLY.BANKS : Fld := ⟨0xA001000C, 0, 16⟩
abbrev AFE_PLUG_STATUS : Nat := 0xA0010010
abbrev AFE_PLUG_STATUS.CHANGED : Fld := ⟨0xA0010010, 16, 16⟩
abbrev AFE_PLUG_STATUS.UNPLUGGED : Fld := ⟨0xA0010010, 0, 16⟩
abbrev AFE_CMW_NOWk (k : Nat) : Nat := 0xA0010040 + k * 4
abbrev AFE_CMW_NOWk.CMX (k : Nat) : Fld := ⟨0xA0010040 + k * 4, 0, 32⟩
abbrev AFE_CMW_STICKYk (k : Nat) : Nat := 0xA0010060 + k * 4
abbrev AFE_CMW_STICKYk.SEEN (k : Nat) : Fld := ⟨0xA0010060 + k * 4, 0, 32⟩
abbrev AFE_OPEN_NOWk (k : Nat) : Nat := 0xA0010080 + k * 4
abbrev AFE_OPEN_NOWk.OPEN (k : Nat) : Fld := ⟨0xA0010080 + k * 4, 0, 32⟩
abbrev AFE_BANKb_EXC_NEXT (b : Nat) : Nat := 0xA0010100 + b * 64
abbrev AFE_BANKb_EXC_NEXT.MODE (b : Nat) : Fld := ⟨0xA0010100 + b * 64, 30, 2⟩
abbrev AFE_BANKb_EXC_NEXT.REV_EN (b : Nat) : Fld := ⟨0xA0010100 + b * 64, 29, 1⟩
abbrev AFE_BANKb_EXC_NEXT.REV_N (b : Nat) : Fld := ⟨0xA0010100 + b * 64, 24, 5⟩
abbrev AFE_BANKb_EXC_NEXT.LEVEL (b : Nat) : Fld := ⟨0xA0010100 + b * 64, 0, 16⟩
abbrev AFE_BANKb_EXC_ACTIVE (b : Nat) : Nat := 0xA0010104 + b * 64
abbrev AFE_BANKb_EXC_ACTIVE.MODE (b : Nat) : Fld := ⟨0xA0010104 + b * 64, 30, 2⟩
abbrev AFE_BANKb_EXC_ACTIVE.REV_EN (b : Nat) : Fld := ⟨0xA0010104 + b * 64, 29, 1⟩
abbrev AFE_BANKb_EXC_ACTIVE.REV_N (b : Nat) : Fld := ⟨0xA0010104 + b * 64, 24, 5⟩
abbrev AFE_BANKb_EXC_ACTIVE.LEVEL (b : Nat) : Fld := ⟨0xA0010104 + b * 64, 0, 16⟩
abbrev AFE_BANKb_EXC_CFG (b : Nat) : Nat := 0xA0010108 + b * 64
abbrev AFE_BANKb_EXC_CFG.SETTLE (b : Nat) : Fld := ⟨0xA0010108 + b * 64, 16, 16⟩
abbrev AFE_BANKb_EXC_CFG.REV_BLANK (b : Nat) : Fld := ⟨0xA0010108 + b * 64, 8, 8⟩
abbrev AFE_BANKb_EXC_DEP (b : Nat) : Nat := 0xA001010C + b * 64
abbrev AFE_BANKb_EXC_DEP.DEP (b : Nat) : Fld := ⟨0xA001010C + b * 64, 0, 16⟩
abbrev AFE_BANKb_PLUG (b : Nat) : Nat := 0xA0010110 + b * 64
abbrev AFE_BANKb_PLUG.EN (b : Nat) : Fld := ⟨0xA0010110 + b * 64, 31, 1⟩
abbrev AFE_BANKb_PLUG.EXC_OFF (b : Nat) : Fld := ⟨0xA0010110 + b * 64, 30, 1⟩
abbrev AFE_BANKb_PLUG.DEB (b : Nat) : Fld := ⟨0xA0010110 + b * 64, 16, 8⟩
abbrev AFE_BANKb_PLUG.SETTLE (b : Nat) : Fld := ⟨0xA0010110 + b * 64, 0, 12⟩
abbrev AFE_BANKb_CMWIN (b : Nat) : Nat := 0xA0010114 + b * 64
abbrev AFE_BANKb_CMWIN.HIGH (b : Nat) : Fld := ⟨0xA0010114 + b * 64, 16, 16⟩
abbrev AFE_BANKb_CMWIN.LOW (b : Nat) : Fld := ⟨0xA0010114 + b * 64, 0, 16⟩
abbrev AFE_BANKb_CMHYS (b : Nat) : Nat := 0xA0010118 + b * 64
abbrev AFE_BANKb_CMHYS.HYS (b : Nat) : Fld := ⟨0xA0010118 + b * 64, 0, 10⟩
abbrev AFE_BANKb_SENSE (b : Nat) : Nat := 0xA001011C + b * 64
abbrev AFE_BANKb_SENSE.SENSE (b : Nat) : Fld := ⟨0xA001011C + b * 64, 0, 32⟩
abbrev AFE_BANKb_EXC_I (b : Nat) : Nat := 0xA0010120 + b * 64
abbrev AFE_BANKb_EXC_I.CURRENT (b : Nat) : Fld := ⟨0xA0010120 + b * 64, 0, 16⟩
abbrev AFE_BANKb_TTEMP (b : Nat) : Nat := 0xA0010124 + b * 64
abbrev AFE_BANKb_TTEMP.TEMP (b : Nat) : Fld := ⟨0xA0010124 + b * 64, 0, 16⟩
abbrev AFE_BANKb_STATUS (b : Nat) : Nat := 0xA0010128 + b * 64
abbrev AFE_BANKb_STATUS.SNS_FAULT (b : Nat) : Fld := ⟨0xA0010128 + b * 64, 7, 1⟩
abbrev AFE_BANKb_STATUS.TT_FAULT (b : Nat) : Fld := ⟨0xA0010128 + b * 64, 6, 1⟩
abbrev AFE_BANKb_STATUS.EXC_LIMIT (b : Nat) : Fld := ⟨0xA0010128 + b * 64, 5, 1⟩
abbrev AFE_BANKb_STATUS.PLUGGED (b : Nat) : Fld := ⟨0xA0010128 + b * 64, 4, 1⟩
abbrev AFE_BANKb_STATUS.REV_POL (b : Nat) : Fld := ⟨0xA0010128 + b * 64, 3, 1⟩
abbrev AFE_BANKb_STATUS.EXC_STATE (b : Nat) : Fld := ⟨0xA0010128 + b * 64, 0, 3⟩
abbrev AFE_BANKb_CMD (b : Nat) : Nat := 0xA001012C + b * 64
abbrev AFE_BANKb_CMD.STATUS (b : Nat) : Fld := ⟨0xA001012C + b * 64, 24, 8⟩
abbrev AFE_BANKb_CMD.PEND (b : Nat) : Fld := ⟨0xA001012C + b * 64, 23, 1⟩
abbrev AFE_BANKb_CMD.OP (b : Nat) : Fld := ⟨0xA001012C + b * 64, 0, 4⟩

/-! ### CNV: conversion (spec/04_conversion.md R135) -/

abbrev CNV_CTRL : Nat := 0xA0020000
abbrev CNV_CTRL.LOCK : Fld := ⟨0xA0020000, 31, 1⟩
abbrev CNV_STATUS : Nat := 0xA0020004
abbrev CNV_STATUS.NO_SPARE : Fld := ⟨0xA0020004, 3, 1⟩
abbrev CNV_STATUS.CAL_VALID : Fld := ⟨0xA0020004, 2, 1⟩
abbrev CNV_STATUS.REF_FAULT : Fld := ⟨0xA0020004, 1, 1⟩
abbrev CNV_STATUS.REF_READY : Fld := ⟨0xA0020004, 0, 1⟩
abbrev CNV_REF_CTRL : Nat := 0xA0020008
abbrev CNV_REF_CTRL.BUF_EN : Fld := ⟨0xA0020008, 0, 1⟩
abbrev CNV_CAL_CTRL : Nat := 0xA002000C
abbrev CNV_CAL_CTRL.EN : Fld := ⟨0xA002000C, 31, 1⟩
abbrev CNV_CAL_CTRL.TRACK_LIM : Fld := ⟨0xA002000C, 8, 8⟩
abbrev CNV_CAL_CMD : Nat := 0xA0020010
abbrev CNV_CAL_CMD.STATUS : Fld := ⟨0xA0020010, 24, 8⟩
abbrev CNV_CAL_CMD.PEND : Fld := ⟨0xA0020010, 23, 1⟩
abbrev CNV_CAL_CMD.SLICE : Fld := ⟨0xA0020010, 8, 5⟩
abbrev CNV_CAL_CMD.OP : Fld := ⟨0xA0020010, 0, 4⟩
abbrev CNV_CAL_STATUS : Nat := 0xA0020014
abbrev CNV_CAL_STATUS.SPARE : Fld := ⟨0xA0020014, 16, 5⟩
abbrev CNV_CAL_STATUS.TARGET : Fld := ⟨0xA0020014, 8, 4⟩
abbrev CNV_CAL_STATUS.STATE : Fld := ⟨0xA0020014, 0, 3⟩
abbrev CNV_CAL_COUNT : Nat := 0xA0020018
abbrev CNV_CAL_COUNT.LAPS : Fld := ⟨0xA0020018, 0, 17⟩
abbrev CNV_ROTATIONS : Nat := 0xA002001C
abbrev CNV_ROTATIONS.COUNT : Fld := ⟨0xA002001C, 0, 32⟩
abbrev CNV_HO_LAP_LO : Nat := 0xA0020020
abbrev CNV_HO_LAP_LO.LAP : Fld := ⟨0xA0020020, 0, 32⟩
abbrev CNV_HO_LAP_HI : Nat := 0xA0020024
abbrev CNV_HO_LAP_HI.LAP : Fld := ⟨0xA0020024, 0, 32⟩
abbrev CNV_HO_INFO : Nat := 0xA0020028
abbrev CNV_HO_INFO.VALID : Fld := ⟨0xA0020028, 31, 1⟩
abbrev CNV_HO_INFO.UNTRIMMED : Fld := ⟨0xA0020028, 30, 1⟩
abbrev CNV_HO_INFO.SLICE_IN : Fld := ⟨0xA0020028, 16, 5⟩
abbrev CNV_HO_INFO.SLICE_OUT : Fld := ⟨0xA0020028, 8, 5⟩
abbrev CNV_HO_INFO.BANK : Fld := ⟨0xA0020028, 0, 4⟩
abbrev CNV_HO_RESID : Nat := 0xA002002C
abbrev CNV_HO_RESID.GAIN : Fld := ⟨0xA002002C, 16, 16⟩
abbrev CNV_HO_RESID.OFFSET : Fld := ⟨0xA002002C, 0, 16⟩
abbrev CNV_MAPk (k : Nat) : Nat := 0xA0020030 + k * 4
abbrev CNV_MAPk.SLICE3 (k : Nat) : Fld := ⟨0xA0020030 + k * 4, 24, 5⟩
abbrev CNV_MAPk.SLICE2 (k : Nat) : Fld := ⟨0xA0020030 + k * 4, 16, 5⟩
abbrev CNV_MAPk.SLICE1 (k : Nat) : Fld := ⟨0xA0020030 + k * 4, 8, 5⟩
abbrev CNV_MAPk.SLICE0 (k : Nat) : Fld := ⟨0xA0020030 + k * 4, 0, 5⟩
abbrev CNV_SKEW_CMD : Nat := 0xA0020040
abbrev CNV_SKEW_CMD.STATUS : Fld := ⟨0xA0020040, 24, 8⟩
abbrev CNV_SKEW_CMD.PEND : Fld := ⟨0xA0020040, 23, 1⟩
abbrev CNV_SKEW_CMD.BANKS : Fld := ⟨0xA0020040, 0, 16⟩
abbrev CNV_CLAMP_STICKYk (k : Nat) : Nat := 0xA0020060 + k * 4
abbrev CNV_CLAMP_STICKYk.SEEN (k : Nat) : Fld := ⟨0xA0020060 + k * 4, 0, 32⟩
abbrev CNV_SLICEs_STATUS (s : Nat) : Nat := 0xA0020100 + s * 4
abbrev CNV_SLICEs_STATUS.ROLE (s : Nat) : Fld := ⟨0xA0020100 + s * 4, 8, 3⟩
abbrev CNV_SLICEs_STATUS.FAILS (s : Nat) : Fld := ⟨0xA0020100 + s * 4, 4, 2⟩
abbrev CNV_SLICEs_STATUS.SUSPECT (s : Nat) : Fld := ⟨0xA0020100 + s * 4, 2, 1⟩
abbrev CNV_SLICEs_STATUS.TRACK_FAULT (s : Nat) : Fld := ⟨0xA0020100 + s * 4, 1, 1⟩
abbrev CNV_SLICEs_STATUS.MATCH_FAIL (s : Nat) : Fld := ⟨0xA0020100 + s * 4, 0, 1⟩
abbrev CNV_SLICEs_STAGE_GAIN1 (s : Nat) : Nat := 0xA0021000 + s * 64
abbrev CNV_SLICEs_STAGE_GAIN1.VALUE (s : Nat) : Fld := ⟨0xA0021000 + s * 64, 0, 32⟩
abbrev CNV_SLICEs_STAGE_GAIN2 (s : Nat) : Nat := 0xA0021004 + s * 64
abbrev CNV_SLICEs_STAGE_GAIN2.VALUE (s : Nat) : Fld := ⟨0xA0021004 + s * 64, 0, 32⟩
abbrev CNV_SLICEs_STAGE_GAIN3 (s : Nat) : Nat := 0xA0021008 + s * 64
abbrev CNV_SLICEs_STAGE_GAIN3.VALUE (s : Nat) : Fld := ⟨0xA0021008 + s * 64, 0, 32⟩
abbrev CNV_SLICEs_STAGE_GAIN4 (s : Nat) : Nat := 0xA002100C + s * 64
abbrev CNV_SLICEs_STAGE_GAIN4.VALUE (s : Nat) : Fld := ⟨0xA002100C + s * 64, 0, 32⟩
abbrev CNV_SLICEs_STAGE_GAIN5 (s : Nat) : Nat := 0xA0021010 + s * 64
abbrev CNV_SLICEs_STAGE_GAIN5.VALUE (s : Nat) : Fld := ⟨0xA0021010 + s * 64, 0, 32⟩
abbrev CNV_SLICEs_STAGE_GAIN6 (s : Nat) : Nat := 0xA0021014 + s * 64
abbrev CNV_SLICEs_STAGE_GAIN6.VALUE (s : Nat) : Fld := ⟨0xA0021014 + s * 64, 0, 32⟩
abbrev CNV_SLICEs_STAGE_OFS1 (s : Nat) : Nat := 0xA0021018 + s * 64
abbrev CNV_SLICEs_STAGE_OFS1.VALUE (s : Nat) : Fld := ⟨0xA0021018 + s * 64, 0, 32⟩
abbrev CNV_SLICEs_STAGE_OFS2 (s : Nat) : Nat := 0xA002101C + s * 64
abbrev CNV_SLICEs_STAGE_OFS2.VALUE (s : Nat) : Fld := ⟨0xA002101C + s * 64, 0, 32⟩
abbrev CNV_SLICEs_STAGE_OFS3 (s : Nat) : Nat := 0xA0021020 + s * 64
abbrev CNV_SLICEs_STAGE_OFS3.VALUE (s : Nat) : Fld := ⟨0xA0021020 + s * 64, 0, 32⟩
abbrev CNV_SLICEs_STAGE_OFS4 (s : Nat) : Nat := 0xA0021024 + s * 64
abbrev CNV_SLICEs_STAGE_OFS4.VALUE (s : Nat) : Fld := ⟨0xA0021024 + s * 64, 0, 32⟩
abbrev CNV_SLICEs_STAGE_OFS5 (s : Nat) : Nat := 0xA0021028 + s * 64
abbrev CNV_SLICEs_STAGE_OFS5.VALUE (s : Nat) : Fld := ⟨0xA0021028 + s * 64, 0, 32⟩
abbrev CNV_SLICEs_STAGE_OFS6 (s : Nat) : Nat := 0xA002102C + s * 64
abbrev CNV_SLICEs_STAGE_OFS6.VALUE (s : Nat) : Fld := ⟨0xA002102C + s * 64, 0, 32⟩
abbrev CNV_SLICEs_GAIN (s : Nat) : Nat := 0xA0021030 + s * 64
abbrev CNV_SLICEs_GAIN.VALUE (s : Nat) : Fld := ⟨0xA0021030 + s * 64, 0, 32⟩
abbrev CNV_SLICEs_OFS (s : Nat) : Nat := 0xA0021034 + s * 64
abbrev CNV_SLICEs_OFS.VALUE (s : Nat) : Fld := ⟨0xA0021034 + s * 64, 0, 32⟩
abbrev CNV_SLICEs_TRIM_GAIN (s : Nat) : Nat := 0xA0021038 + s * 64
abbrev CNV_SLICEs_TRIM_GAIN.VALUE (s : Nat) : Fld := ⟨0xA0021038 + s * 64, 0, 32⟩
abbrev CNV_SLICEs_TRIM_OFS (s : Nat) : Nat := 0xA002103C + s * 64
abbrev CNV_SLICEs_TRIM_OFS.VALUE (s : Nat) : Fld := ⟨0xA002103C + s * 64, 0, 32⟩
abbrev CNV_SKEWc (c : Nat) : Nat := 0xA0022000 + c * 4
abbrev CNV_SKEWc.SKEW (c : Nat) : Fld := ⟨0xA0022000 + c * 4, 0, 16⟩
abbrev CNV_EOc (c : Nat) : Nat := 0xA0022400 + c * 4
abbrev CNV_EOc.GAIN (c : Nat) : Fld := ⟨0xA0022400 + c * 4, 16, 16⟩
abbrev CNV_EOc.OFFSET (c : Nat) : Fld := ⟨0xA0022400 + c * 4, 0, 16⟩

/-! ### RED: reduction (spec/05_reduction.md R165) -/

abbrev RED_CTRL : Nat := 0xA0030000
abbrev RED_CTRL.LOCK : Fld := ⟨0xA0030000, 31, 1⟩
abbrev RED_CTRL.VIEW : Fld := ⟨0xA0030000, 0, 1⟩
abbrev RED_STATUS : Nat := 0xA0030004
abbrev RED_STATUS.CURVE_BAD : Fld := ⟨0xA0030004, 9, 1⟩
abbrev RED_STATUS.BP_SEEN : Fld := ⟨0xA0030004, 8, 1⟩
abbrev RED_STATUS.BP_STAGE : Fld := ⟨0xA0030004, 0, 2⟩
abbrev RED_CMD : Nat := 0xA0030008
abbrev RED_CMD.STATUS : Fld := ⟨0xA0030008, 24, 8⟩
abbrev RED_CMD.PEND : Fld := ⟨0xA0030008, 23, 1⟩
abbrev RED_CMD.CHAN : Fld := ⟨0xA0030008, 8, 8⟩
abbrev RED_CMD.CURVES : Fld := ⟨0xA0030008, 4, 1⟩
abbrev RED_CMD.OP : Fld := ⟨0xA0030008, 0, 4⟩
abbrev RED_SEQ_VALUE : Nat := 0xA003000C
abbrev RED_SEQ_VALUE.SEQ : Fld := ⟨0xA003000C, 0, 24⟩
abbrev RED_CJC_STATUS : Nat := 0xA0030010
abbrev RED_CJC_STATUS.FAILED : Fld := ⟨0xA0030010, 0, 16⟩
abbrev RED_CURVE_STATUS : Nat := 0xA0030014
abbrev RED_CURVE_STATUS.VALID : Fld := ⟨0xA0030014, 0, 8⟩
abbrev RED_COMMIT_MASKk (k : Nat) : Nat := 0xA0030020 + k * 4
abbrev RED_COMMIT_MASKk.CH (k : Nat) : Fld := ⟨0xA0030020 + k * 4, 0, 32⟩
abbrev RED_BP_FILL : Nat := 0xA0030040
abbrev RED_BP_FILL.PEAK : Fld := ⟨0xA0030040, 16, 16⟩
abbrev RED_BP_FILL.FILL : Fld := ⟨0xA0030040, 0, 16⟩
abbrev RED_BP_COUNT : Nat := 0xA0030044
abbrev RED_BP_COUNT.STAGE2 : Fld := ⟨0xA0030044, 16, 16⟩
abbrev RED_BP_COUNT.STAGE1 : Fld := ⟨0xA0030044, 0, 16⟩
abbrev RED_GRID_SKIP : Nat := 0xA0030048
abbrev RED_GRID_SKIP.COUNT : Fld := ⟨0xA0030048, 0, 32⟩
abbrev RED_CJC_FALLBACK : Nat := 0xA003004C
abbrev RED_CJC_FALLBACK.COUNT : Fld := ⟨0xA003004C, 0, 32⟩

/-! ### ACQ: acquisition (spec/06_acquisition.md R194) -/

abbrev ACQ_CTRL : Nat := 0xA0040000
abbrev ACQ_CTRL.LOCK : Fld := ⟨0xA0040000, 31, 1⟩
abbrev ACQ_STATUS : Nat := 0xA0040004
abbrev ACQ_STATUS.RAW_LOAD : Fld := ⟨0xA0040004, 16, 9⟩
abbrev ACQ_STATUS.ACTIVE : Fld := ⟨0xA0040004, 0, 7⟩
abbrev ACQ_BUS_CFG : Nat := 0xA0040008
abbrev ACQ_BUS_CFG.PULSE : Fld := ⟨0xA0040008, 8, 20⟩
abbrev ACQ_BUS_CFG.FILT : Fld := ⟨0xA0040008, 4, 2⟩
abbrev ACQ_BUS_STAMP_FRAC : Nat := 0xA004000C
abbrev ACQ_BUS_STAMP_FRAC.FRAC : Fld := ⟨0xA004000C, 0, 16⟩
abbrev ACQ_BUS_STAMP_LO : Nat := 0xA0040010
abbrev ACQ_BUS_STAMP_LO.STAMP : Fld := ⟨0xA0040010, 0, 32⟩
abbrev ACQ_BUS_STAMP_HI : Nat := 0xA0040014
abbrev ACQ_BUS_STAMP_HI.STAMP : Fld := ⟨0xA0040014, 0, 32⟩
abbrev ACQ_TRIGIN_LOST : Nat := 0xA0040018
abbrev ACQ_TRIGIN_LOST.COUNT : Fld := ⟨0xA0040018, 0, 32⟩
abbrev ACQ_TRIGINp_CFG (p : Nat) : Nat := 0xA0040100 + p * 16
abbrev ACQ_TRIGINp_CFG.HOLDOFF (p : Nat) : Fld := ⟨0xA0040100 + p * 16, 16, 16⟩
abbrev ACQ_TRIGINp_CFG.FILT (p : Nat) : Fld := ⟨0xA0040100 + p * 16, 4, 2⟩
abbrev ACQ_TRIGINp_CFG.EDGE (p : Nat) : Fld := ⟨0xA0040100 + p * 16, 0, 2⟩
abbrev ACQ_TRIGINp_STAMP_FRAC (p : Nat) : Nat := 0xA0040104 + p * 16
abbrev ACQ_TRIGINp_STAMP_FRAC.FRAC (p : Nat) : Fld := ⟨0xA0040104 + p * 16, 0, 16⟩
abbrev ACQ_TRIGINp_STAMP_LO (p : Nat) : Nat := 0xA0040108 + p * 16
abbrev ACQ_TRIGINp_STAMP_LO.STAMP (p : Nat) : Fld := ⟨0xA0040108 + p * 16, 0, 32⟩
abbrev ACQ_TRIGINp_STAMP_HI (p : Nat) : Nat := 0xA004010C + p * 16
abbrev ACQ_TRIGINp_STAMP_HI.STAMP (p : Nat) : Fld := ⟨0xA004010C + p * 16, 0, 32⟩
abbrev ACQ_RINGr_CFG (r : Nat) : Nat := 0xA0041000 + r * 128
abbrev ACQ_RINGr_CFG.KIND (r : Nat) : Fld := ⟨0xA0041000 + r * 128, 31, 1⟩
abbrev ACQ_RINGr_CFG.MODE (r : Nat) : Fld := ⟨0xA0041000 + r * 128, 29, 2⟩
abbrev ACQ_RINGr_CFG.REPEAT (r : Nat) : Fld := ⟨0xA0041000 + r * 128, 28, 1⟩
abbrev ACQ_RINGr_CFG.OVERWRITE (r : Nat) : Fld := ⟨0xA0041000 + r * 128, 27, 1⟩
abbrev ACQ_RINGr_CFG.SKIP_UNFIT (r : Nat) : Fld := ⟨0xA0041000 + r * 128, 26, 1⟩
abbrev ACQ_RINGr_CFG.RSPAN (r : Nat) : Fld := ⟨0xA0041000 + r * 128, 25, 1⟩
abbrev ACQ_RINGr_CFG.EVENT_EN (r : Nat) : Fld := ⟨0xA0041000 + r * 128, 24, 1⟩
abbrev ACQ_RINGr_CFG.EVENT (r : Nat) : Fld := ⟨0xA0041000 + r * 128, 16, 8⟩
abbrev ACQ_RINGr_CFG.REDUCE (r : Nat) : Fld := ⟨0xA0041000 + r * 128, 0, 9⟩
abbrev ACQ_RINGr_SRC (r : Nat) : Nat := 0xA0041004 + r * 128
abbrev ACQ_RINGr_SRC.EVENT (r : Nat) : Fld := ⟨0xA0041004 + r * 128, 24, 8⟩
abbrev ACQ_RINGr_SRC.AUTO (r : Nat) : Fld := ⟨0xA0041004 + r * 128, 20, 1⟩
abbrev ACQ_RINGr_SRC.EVT (r : Nat) : Fld := ⟨0xA0041004 + r * 128, 19, 1⟩
abbrev ACQ_RINGr_SRC.WOTEN (r : Nat) : Fld := ⟨0xA0041004 + r * 128, 18, 1⟩
abbrev ACQ_RINGr_SRC.HURDLE (r : Nat) : Fld := ⟨0xA0041004 + r * 128, 17, 1⟩
abbrev ACQ_RINGr_SRC.SLIST (r : Nat) : Fld := ⟨0xA0041004 + r * 128, 16, 1⟩
abbrev ACQ_RINGr_SRC.BUS (r : Nat) : Fld := ⟨0xA0041004 + r * 128, 15, 1⟩
abbrev ACQ_RINGr_SRC.HDIR (r : Nat) : Fld := ⟨0xA0041004 + r * 128, 13, 2⟩
abbrev ACQ_RINGr_SRC.PINS (r : Nat) : Fld := ⟨0xA0041004 + r * 128, 0, 8⟩
abbrev ACQ_RINGr_MASKk (r k : Nat) : Nat := 0xA0041008 + r * 128 + k * 4
abbrev ACQ_RINGr_MASKk.CH (r k : Nat) : Fld := ⟨0xA0041008 + r * 128 + k * 4, 0, 32⟩
abbrev ACQ_RINGr_BASE (r : Nat) : Nat := 0xA0041028 + r * 128
abbrev ACQ_RINGr_BASE.ADDR (r : Nat) : Fld := ⟨0xA0041028 + r * 128, 12, 20⟩
abbrev ACQ_RINGr_SIZE (r : Nat) : Nat := 0xA004102C + r * 128
abbrev ACQ_RINGr_SIZE.ADDR (r : Nat) : Fld := ⟨0xA004102C + r * 128, 12, 20⟩
abbrev ACQ_RINGr_PRE (r : Nat) : Nat := 0xA0041030 + r * 128
abbrev ACQ_RINGr_PRE.LAPS (r : Nat) : Fld := ⟨0xA0041030 + r * 128, 0, 32⟩
abbrev ACQ_RINGr_POST (r : Nat) : Nat := 0xA0041034 + r * 128
abbrev ACQ_RINGr_POST.LAPS (r : Nat) : Fld := ⟨0xA0041034 + r * 128, 0, 32⟩
abbrev ACQ_RINGr_AUTO (r : Nat) : Nat := 0xA0041038 + r * 128
abbrev ACQ_RINGr_AUTO.LAPS (r : Nat) : Fld := ⟨0xA0041038 + r * 128, 0, 32⟩
abbrev ACQ_RINGr_FOLIO_BASE (r : Nat) : Nat := 0xA004103C + r * 128
abbrev ACQ_RINGr_FOLIO_BASE.ADDR (r : Nat) : Fld := ⟨0xA004103C + r * 128, 12, 20⟩
abbrev ACQ_RINGr_FOLIO_SIZE (r : Nat) : Nat := 0xA0041040 + r * 128
abbrev ACQ_RINGr_FOLIO_SIZE.ADDR (r : Nat) : Fld := ⟨0xA0041040 + r * 128, 12, 20⟩
abbrev ACQ_RINGr_FOLIO_SLOTS (r : Nat) : Nat := 0xA0041044 + r * 128
abbrev ACQ_RINGr_FOLIO_SLOTS.COUNT (r : Nat) : Fld := ⟨0xA0041044 + r * 128, 0, 6⟩
abbrev ACQ_RINGr_OUT (r : Nat) : Nat := 0xA0041048 + r * 128
abbrev ACQ_RINGr_OUT.BUS_DRIVE (r : Nat) : Fld := ⟨0xA0041048 + r * 128, 31, 1⟩
abbrev ACQ_RINGr_OUT.PIN_EN (r : Nat) : Fld := ⟨0xA0041048 + r * 128, 30, 1⟩
abbrev ACQ_RINGr_OUT.PIN (r : Nat) : Fld := ⟨0xA0041048 + r * 128, 28, 2⟩
abbrev ACQ_RINGr_OUT.WIDTH (r : Nat) : Fld := ⟨0xA0041048 + r * 128, 0, 20⟩
abbrev ACQ_RINGr_CMD (r : Nat) : Nat := 0xA0041050 + r * 128
abbrev ACQ_RINGr_CMD.STATUS (r : Nat) : Fld := ⟨0xA0041050 + r * 128, 24, 8⟩
abbrev ACQ_RINGr_CMD.PEND (r : Nat) : Fld := ⟨0xA0041050 + r * 128, 23, 1⟩
abbrev ACQ_RINGr_CMD.OP (r : Nat) : Fld := ⟨0xA0041050 + r * 128, 0, 4⟩
abbrev ACQ_RINGr_STATUS (r : Nat) : Nat := 0xA0041054 + r * 128
abbrev ACQ_RINGr_STATUS.NESTED (r : Nat) : Fld := ⟨0xA0041054 + r * 128, 16, 16⟩
abbrev ACQ_RINGr_STATUS.NEST_OVF (r : Nat) : Fld := ⟨0xA0041054 + r * 128, 9, 1⟩
abbrev ACQ_RINGr_STATUS.CFG_IGNORED (r : Nat) : Fld := ⟨0xA0041054 + r * 128, 8, 1⟩
abbrev ACQ_RINGr_STATUS.STATE (r : Nat) : Fld := ⟨0xA0041054 + r * 128, 0, 3⟩
abbrev ACQ_RINGr_CAPACITY (r : Nat) : Nat := 0xA0041058 + r * 128
abbrev ACQ_RINGr_CAPACITY.CAP (r : Nat) : Fld := ⟨0xA0041058 + r * 128, 0, 32⟩
abbrev ACQ_RINGr_FOLIO_NEED (r : Nat) : Nat := 0xA004105C + r * 128
abbrev ACQ_RINGr_FOLIO_NEED.BYTES (r : Nat) : Fld := ⟨0xA004105C + r * 128, 0, 32⟩
abbrev ACQ_RINGr_SLOTS (r : Nat) : Nat := 0xA0041060 + r * 128
abbrev ACQ_RINGr_SLOTS.BUSY (r : Nat) : Fld := ⟨0xA0041060 + r * 128, 0, 32⟩
abbrev ACQ_RINGr_LAST (r : Nat) : Nat := 0xA0041064 + r * 128
abbrev ACQ_RINGr_LAST.VALID (r : Nat) : Fld := ⟨0xA0041064 + r * 128, 31, 1⟩
abbrev ACQ_RINGr_LAST.SLOT (r : Nat) : Fld := ⟨0xA0041064 + r * 128, 0, 5⟩
abbrev ACQ_RINGr_SERIAL (r : Nat) : Nat := 0xA0041068 + r * 128
abbrev ACQ_RINGr_SERIAL.NEXT (r : Nat) : Fld := ⟨0xA0041068 + r * 128, 0, 32⟩
abbrev ACQ_RINGr_MISSES (r : Nat) : Nat := 0xA004106C + r * 128
abbrev ACQ_RINGr_MISSES.COUNT (r : Nat) : Fld := ⟨0xA004106C + r * 128, 0, 32⟩
abbrev ACQ_RINGr_MISS_HEAD (r : Nat) : Nat := 0xA0041070 + r * 128
abbrev ACQ_RINGr_MISS_HEAD.WRAPS (r : Nat) : Fld := ⟨0xA0041070 + r * 128, 16, 16⟩
abbrev ACQ_RINGr_MISS_HEAD.NEXT (r : Nat) : Fld := ⟨0xA0041070 + r * 128, 0, 4⟩
abbrev ACQ_MISSr_m_CTRL (r m : Nat) : Nat := 0xA0044000 + r * 256 + m * 16
abbrev ACQ_MISSr_m_CTRL.REASON (r m : Nat) : Fld := ⟨0xA0044000 + r * 256 + m * 16, 24, 8⟩
abbrev ACQ_MISSr_m_CTRL.SOURCE (r m : Nat) : Fld := ⟨0xA0044000 + r * 256 + m * 16, 16, 8⟩
abbrev ACQ_MISSr_m_CTRL.DETAIL (r m : Nat) : Fld := ⟨0xA0044000 + r * 256 + m * 16, 0, 11⟩
abbrev ACQ_MISSr_m_STAMP_LO (r m : Nat) : Nat := 0xA0044004 + r * 256 + m * 16
abbrev ACQ_MISSr_m_STAMP_LO.STAMP_LO (r m : Nat) : Fld := ⟨0xA0044004 + r * 256 + m * 16, 0, 32⟩
abbrev ACQ_MISSr_m_STAMP_HI (r m : Nat) : Nat := 0xA0044008 + r * 256 + m * 16
abbrev ACQ_MISSr_m_STAMP_HI.STAMP_HI (r m : Nat) : Fld := ⟨0xA0044008 + r * 256 + m * 16, 0, 32⟩

/-! ### TBS: timebase (spec/02_timebase.md R76) -/

abbrev TBS_PACER_CTRL : Nat := 0xA0050000
abbrev TBS_PACER_CTRL.LOCK : Fld := ⟨0xA0050000, 31, 1⟩
abbrev TBS_PACER_CTRL.LOSS_INT : Fld := ⟨0xA0050000, 12, 4⟩
abbrev TBS_PACER_CTRL.SEC_SRC : Fld := ⟨0xA0050000, 8, 4⟩
abbrev TBS_PACER_CTRL.PRI_SRC : Fld := ⟨0xA0050000, 4, 4⟩
abbrev TBS_PACER_CTRL.BW : Fld := ⟨0xA0050000, 2, 2⟩
abbrev TBS_PACER_CTRL.AUTO_SWITCH : Fld := ⟨0xA0050000, 1, 1⟩
abbrev TBS_PACER_CTRL.EN : Fld := ⟨0xA0050000, 0, 1⟩
abbrev TBS_PACER_STATUS : Nat := 0xA0050004
abbrev TBS_PACER_STATUS.ACTIVE_SRC : Fld := ⟨0xA0050004, 12, 4⟩
abbrev TBS_PACER_STATUS.SEC_VALID : Fld := ⟨0xA0050004, 11, 1⟩
abbrev TBS_PACER_STATUS.PRI_VALID : Fld := ⟨0xA0050004, 10, 1⟩
abbrev TBS_PACER_STATUS.SLEWING : Fld := ⟨0xA0050004, 9, 1⟩
abbrev TBS_PACER_STATUS.OFFSET_ALARM : Fld := ⟨0xA0050004, 8, 1⟩
abbrev TBS_PACER_STATUS.STATE : Fld := ⟨0xA0050004, 0, 3⟩
abbrev TBS_PACER_CMD : Nat := 0xA0050008
abbrev TBS_PACER_CMD.STATUS : Fld := ⟨0xA0050008, 24, 8⟩
abbrev TBS_PACER_CMD.PEND : Fld := ⟨0xA0050008, 23, 1⟩
abbrev TBS_PACER_CMD.OP : Fld := ⟨0xA0050008, 0, 4⟩
abbrev TBS_TIME_FRAC : Nat := 0xA0050010
abbrev TBS_TIME_FRAC.FRAC : Fld := ⟨0xA0050010, 0, 16⟩
abbrev TBS_TIME_LO : Nat := 0xA0050014
abbrev TBS_TIME_LO.NS : Fld := ⟨0xA0050014, 0, 32⟩
abbrev TBS_TIME_HI : Nat := 0xA0050018
abbrev TBS_TIME_HI.NS : Fld := ⟨0xA0050018, 0, 32⟩
abbrev TBS_LAP_LO : Nat := 0xA005001C
abbrev TBS_LAP_LO.LAP : Fld := ⟨0xA005001C, 0, 32⟩
abbrev TBS_LAP_HI : Nat := 0xA0050020
abbrev TBS_LAP_HI.LAP : Fld := ⟨0xA0050020, 0, 32⟩
abbrev TBS_SET_TIME_LO : Nat := 0xA0050024
abbrev TBS_SET_TIME_LO.NS : Fld := ⟨0xA0050024, 0, 32⟩
abbrev TBS_SET_TIME_HI : Nat := 0xA0050028
abbrev TBS_SET_TIME_HI.NS : Fld := ⟨0xA0050028, 0, 32⟩
abbrev TBS_PRI_OFFSET : Nat := 0xA005002C
abbrev TBS_PRI_OFFSET.OFFSET : Fld := ⟨0xA005002C, 0, 32⟩
abbrev TBS_SEC_OFFSET : Nat := 0xA0050030
abbrev TBS_SEC_OFFSET.OFFSET : Fld := ⟨0xA0050030, 0, 32⟩
abbrev TBS_SLEW_REMAIN : Nat := 0xA0050034
abbrev TBS_SLEW_REMAIN.OFFSET : Fld := ⟨0xA0050034, 0, 32⟩
abbrev TBS_FREQ_ADJ : Nat := 0xA0050038
abbrev TBS_FREQ_ADJ.ADJ : Fld := ⟨0xA0050038, 0, 32⟩
abbrev TBS_TALLYn_CTRL (n : Nat) : Nat := 0xA0050100 + n * 64
abbrev TBS_TALLYn_CTRL.EN (n : Nat) : Fld := ⟨0xA0050100 + n * 64, 31, 1⟩
abbrev TBS_TALLYn_CTRL.STREAM (n : Nat) : Fld := ⟨0xA0050100 + n * 64, 24, 4⟩
abbrev TBS_TALLYn_CTRL.BCAST_EN (n : Nat) : Fld := ⟨0xA0050100 + n * 64, 23, 1⟩
abbrev TBS_TALLYn_CTRL.BCAST_INT (n : Nat) : Fld := ⟨0xA0050100 + n * 64, 20, 3⟩
abbrev TBS_TALLYn_CTRL.VEL_WIN (n : Nat) : Fld := ⟨0xA0050100 + n * 64, 16, 4⟩
abbrev TBS_TALLYn_CTRL.FILT (n : Nat) : Fld := ⟨0xA0050100 + n * 64, 12, 2⟩
abbrev TBS_TALLYn_CTRL.Z_MODE (n : Nat) : Fld := ⟨0xA0050100 + n * 64, 10, 2⟩
abbrev TBS_TALLYn_CTRL.INVERT (n : Nat) : Fld := ⟨0xA0050100 + n * 64, 9, 1⟩
abbrev TBS_TALLYn_CTRL.ENC_SEL (n : Nat) : Fld := ⟨0xA0050100 + n * 64, 6, 2⟩
abbrev TBS_TALLYn_CTRL.SRC (n : Nat) : Fld := ⟨0xA0050100 + n * 64, 0, 2⟩
abbrev TBS_TALLYn_SCALE (n : Nat) : Nat := 0xA0050104 + n * 64
abbrev TBS_TALLYn_SCALE.SCALE (n : Nat) : Fld := ⟨0xA0050104 + n * 64, 0, 32⟩
abbrev TBS_TALLYn_POS_LO (n : Nat) : Nat := 0xA0050108 + n * 64
abbrev TBS_TALLYn_POS_LO.POS (n : Nat) : Fld := ⟨0xA0050108 + n * 64, 0, 32⟩
abbrev TBS_TALLYn_POS_HI (n : Nat) : Nat := 0xA005010C + n * 64
abbrev TBS_TALLYn_POS_HI.POS (n : Nat) : Fld := ⟨0xA005010C + n * 64, 0, 16⟩
abbrev TBS_TALLYn_VEL (n : Nat) : Nat := 0xA0050110 + n * 64
abbrev TBS_TALLYn_VEL.VEL (n : Nat) : Fld := ⟨0xA0050110 + n * 64, 0, 32⟩
abbrev TBS_TALLYn_PRESET_LO (n : Nat) : Nat := 0xA0050114 + n * 64
abbrev TBS_TALLYn_PRESET_LO.PRESET (n : Nat) : Fld := ⟨0xA0050114 + n * 64, 0, 32⟩
abbrev TBS_TALLYn_PRESET_HI (n : Nat) : Nat := 0xA0050118 + n * 64
abbrev TBS_TALLYn_PRESET_HI.PRESET (n : Nat) : Fld := ⟨0xA0050118 + n * 64, 0, 16⟩
abbrev TBS_TALLYn_ZLATCH_LO (n : Nat) : Nat := 0xA005011C + n * 64
abbrev TBS_TALLYn_ZLATCH_LO.ZPOS (n : Nat) : Fld := ⟨0xA005011C + n * 64, 0, 32⟩
abbrev TBS_TALLYn_ZLATCH_HI (n : Nat) : Nat := 0xA0050120 + n * 64
abbrev TBS_TALLYn_ZLATCH_HI.ZPOS (n : Nat) : Fld := ⟨0xA0050120 + n * 64, 0, 16⟩
abbrev TBS_TALLYn_JUMP (n : Nat) : Nat := 0xA0050124 + n * 64
abbrev TBS_TALLYn_JUMP.LIMIT (n : Nat) : Fld := ⟨0xA0050124 + n * 64, 0, 32⟩
abbrev TBS_TALLYn_STATUS (n : Nat) : Nat := 0xA0050128 + n * 64
abbrev TBS_TALLYn_STATUS.ENC_ERR (n : Nat) : Fld := ⟨0xA0050128 + n * 64, 16, 16⟩
abbrev TBS_TALLYn_STATUS.FOREIGN (n : Nat) : Fld := ⟨0xA0050128 + n * 64, 7, 1⟩
abbrev TBS_TALLYn_STATUS.STEP (n : Nat) : Fld := ⟨0xA0050128 + n * 64, 6, 1⟩
abbrev TBS_TALLYn_STATUS.JUMP (n : Nat) : Fld := ⟨0xA0050128 + n * 64, 5, 1⟩
abbrev TBS_TALLYn_STATUS.Z_SEEN (n : Nat) : Fld := ⟨0xA0050128 + n * 64, 4, 1⟩
abbrev TBS_TALLYn_STATUS.STATE (n : Nat) : Fld := ⟨0xA0050128 + n * 64, 0, 3⟩
abbrev TBS_TALLYn_CMD (n : Nat) : Nat := 0xA005012C + n * 64
abbrev TBS_TALLYn_CMD.STATUS (n : Nat) : Fld := ⟨0xA005012C + n * 64, 24, 8⟩
abbrev TBS_TALLYn_CMD.PEND (n : Nat) : Fld := ⟨0xA005012C + n * 64, 23, 1⟩
abbrev TBS_TALLYn_CMD.OP (n : Nat) : Fld := ⟨0xA005012C + n * 64, 0, 4⟩
abbrev TBS_TALLYn_SOURCE (n : Nat) : Nat := 0xA0050130 + n * 64
abbrev TBS_TALLYn_SOURCE.VALID (n : Nat) : Fld := ⟨0xA0050130 + n * 64, 31, 1⟩
abbrev TBS_TALLYn_SOURCE.ADDR (n : Nat) : Fld := ⟨0xA0050130 + n * 64, 0, 10⟩
abbrev TBS_MAINS_CTRL : Nat := 0xA0050200
abbrev TBS_MAINS_CTRL.EN : Fld := ⟨0xA0050200, 31, 1⟩
abbrev TBS_MAINS_CTRL.PRESET : Fld := ⟨0xA0050200, 16, 1⟩
abbrev TBS_MAINS_CTRL.SRC : Fld := ⟨0xA0050200, 8, 1⟩
abbrev TBS_MAINS_CTRL.CHAN : Fld := ⟨0xA0050200, 0, 8⟩
abbrev TBS_MAINS_FREQ : Nat := 0xA0050204
abbrev TBS_MAINS_FREQ.FREQ : Fld := ⟨0xA0050204, 0, 32⟩
abbrev TBS_MAINS_COORD_LO : Nat := 0xA0050208
abbrev TBS_MAINS_COORD_LO.COORD : Fld := ⟨0xA0050208, 0, 32⟩
abbrev TBS_MAINS_COORD_HI : Nat := 0xA005020C
abbrev TBS_MAINS_COORD_HI.COORD : Fld := ⟨0xA005020C, 0, 16⟩
abbrev TBS_MAINS_STATUS : Nat := 0xA0050210
abbrev TBS_MAINS_STATUS.OUT_OF_RANGE : Fld := ⟨0xA0050210, 3, 1⟩
abbrev TBS_MAINS_STATUS.STATE : Fld := ⟨0xA0050210, 0, 3⟩
abbrev TBS_SL_CTRL : Nat := 0xA0050300
abbrev TBS_SL_CTRL.EN : Fld := ⟨0xA0050300, 0, 1⟩
abbrev TBS_SL_STATUS : Nat := 0xA0050304
abbrev TBS_SL_STATUS.ENABLED : Fld := ⟨0xA0050304, 16, 12⟩
abbrev TBS_SL_STATUS.LAST_LAP : Fld := ⟨0xA0050304, 0, 5⟩
abbrev TBS_SL_CMD : Nat := 0xA0050308
abbrev TBS_SL_CMD.STATUS : Fld := ⟨0xA0050308, 24, 8⟩
abbrev TBS_SL_CMD.PEND : Fld := ⟨0xA0050308, 23, 1⟩
abbrev TBS_SL_CMD.SPACE : Fld := ⟨0xA0050308, 4, 4⟩
abbrev TBS_SL_CMD.OP : Fld := ⟨0xA0050308, 0, 4⟩
abbrev TBS_SL_SLIP : Nat := 0xA005030C
abbrev TBS_SL_SLIP.COUNT : Fld := ⟨0xA005030C, 0, 32⟩
abbrev TBS_SL_LATE : Nat := 0xA0050310
abbrev TBS_SL_LATE.COUNT : Fld := ⟨0xA0050310, 0, 32⟩
abbrev TBS_SL_SKIP : Nat := 0xA0050314
abbrev TBS_SL_SKIP.COUNT : Fld := ⟨0xA0050314, 0, 32⟩
abbrev TBS_SL_BAD : Nat := 0xA0050318
abbrev TBS_SL_BAD.COUNT : Fld := ⟨0xA0050318, 0, 32⟩
abbrev TBS_SL_LOG_HEAD : Nat := 0xA005031C
abbrev TBS_SL_LOG_HEAD.WRAPS : Fld := ⟨0xA005031C, 16, 16⟩
abbrev TBS_SL_LOG_HEAD.NEXT : Fld := ⟨0xA005031C, 0, 5⟩
abbrev TBS_SL_LOGm_CTRL (m : Nat) : Nat := 0xA0050800 + m * 16
abbrev TBS_SL_LOGm_CTRL.SLIPPED (m : Nat) : Fld := ⟨0xA0050800 + m * 16, 31, 1⟩
abbrev TBS_SL_LOGm_CTRL.LATE (m : Nat) : Fld := ⟨0xA0050800 + m * 16, 30, 1⟩
abbrev TBS_SL_LOGm_CTRL.MEMBER (m : Nat) : Fld := ⟨0xA0050800 + m * 16, 29, 1⟩
abbrev TBS_SL_LOGm_CTRL.SPACE (m : Nat) : Fld := ⟨0xA0050800 + m * 16, 24, 3⟩
abbrev TBS_SL_LOGm_CTRL.ACTION (m : Nat) : Fld := ⟨0xA0050800 + m * 16, 20, 4⟩
abbrev TBS_SL_LOGm_CTRL.INDEX (m : Nat) : Fld := ⟨0xA0050800 + m * 16, 0, 11⟩
abbrev TBS_SL_LOGm_TARGET (m : Nat) : Nat := 0xA0050804 + m * 16
abbrev TBS_SL_LOGm_TARGET.TARGET (m : Nat) : Fld := ⟨0xA0050804 + m * 16, 0, 32⟩
abbrev TBS_SL_LOGm_STAMP_LO (m : Nat) : Nat := 0xA0050808 + m * 16
abbrev TBS_SL_LOGm_STAMP_LO.STAMP_LO (m : Nat) : Fld := ⟨0xA0050808 + m * 16, 0, 32⟩
abbrev TBS_SL_LOGm_STAMP_HI (m : Nat) : Nat := 0xA005080C + m * 16
abbrev TBS_SL_LOGm_STAMP_HI.STAMP_HI (m : Nat) : Fld := ⟨0xA005080C + m * 16, 0, 32⟩

/-! ### CTL: control engine (spec/07_control.md R226) -/

abbrev CTL_CTRL : Nat := 0xA0060000
abbrev CTL_CTRL.LOCK : Fld := ⟨0xA0060000, 31, 1⟩
abbrev CTL_CTRL.VIEW : Fld := ⟨0xA0060000, 1, 1⟩
abbrev CTL_CTRL.EN : Fld := ⟨0xA0060000, 0, 1⟩
abbrev CTL_STATUS : Nat := 0xA0060004
abbrev CTL_STATUS.BAD_OUT : Fld := ⟨0xA0060004, 16, 16⟩
abbrev CTL_STATUS.PEAK : Fld := ⟨0xA0060004, 8, 8⟩
abbrev CTL_STATUS.QUEUE : Fld := ⟨0xA0060004, 0, 8⟩
abbrev CTL_CMD : Nat := 0xA0060008
abbrev CTL_CMD.STATUS : Fld := ⟨0xA0060008, 24, 8⟩
abbrev CTL_CMD.PEND : Fld := ⟨0xA0060008, 23, 1⟩
abbrev CTL_CMD.LOOP : Fld := ⟨0xA0060008, 8, 5⟩
abbrev CTL_CMD.OP : Fld := ⟨0xA0060008, 0, 4⟩
abbrev CTL_COMMIT_MASK : Nat := 0xA006000C
abbrev CTL_COMMIT_MASK.LOOPS : Fld := ⟨0xA006000C, 0, 32⟩
abbrev CTL_FAULTED : Nat := 0xA0060010
abbrev CTL_FAULTED.LOOPS : Fld := ⟨0xA0060010, 0, 32⟩
abbrev CTL_OVR_STICKY : Nat := 0xA0060014
abbrev CTL_OVR_STICKY.LOOPS : Fld := ⟨0xA0060014, 0, 32⟩
abbrev CTL_GROUPg_MEMBERS (g : Nat) : Nat := 0xA0060040 + g * 8
abbrev CTL_GROUPg_MEMBERS.LOOPS (g : Nat) : Fld := ⟨0xA0060040 + g * 8, 0, 32⟩
abbrev CTL_GROUPg_STATUS (g : Nat) : Nat := 0xA0060044 + g * 8
abbrev CTL_GROUPg_STATUS.VALID (g : Nat) : Fld := ⟨0xA0060044 + g * 8, 31, 1⟩
abbrev CTL_GROUPg_STATUS.LEADER (g : Nat) : Fld := ⟨0xA0060044 + g * 8, 8, 5⟩
abbrev CTL_GROUPg_STATUS.WINNER (g : Nat) : Fld := ⟨0xA0060044 + g * 8, 0, 5⟩
abbrev CTL_TEST_CFG : Nat := 0xA0060100
abbrev CTL_TEST_CFG.HOLD : Fld := ⟨0xA0060100, 24, 8⟩
abbrev CTL_TEST_CFG.ORDER : Fld := ⟨0xA0060100, 16, 2⟩
abbrev CTL_TEST_CFG.WAVE : Fld := ⟨0xA0060100, 12, 2⟩
abbrev CTL_TEST_CFG.POINT : Fld := ⟨0xA0060100, 8, 1⟩
abbrev CTL_TEST_CFG.LOOP : Fld := ⟨0xA0060100, 0, 5⟩
abbrev CTL_TEST_AMP : Nat := 0xA0060104
abbrev CTL_TEST_AMP.VALUE : Fld := ⟨0xA0060104, 0, 32⟩
abbrev CTL_TEST_F0 : Nat := 0xA0060108
abbrev CTL_TEST_F0.VALUE : Fld := ⟨0xA0060108, 0, 32⟩
abbrev CTL_TEST_F1 : Nat := 0xA006010C
abbrev CTL_TEST_F1.VALUE : Fld := ⟨0xA006010C, 0, 32⟩
abbrev CTL_TEST_LEN : Nat := 0xA0060110
abbrev CTL_TEST_LEN.VALUE : Fld := ⟨0xA0060110, 0, 32⟩
abbrev CTL_TEST_TLEN : Nat := 0xA0060114
abbrev CTL_TEST_TLEN.VALUE : Fld := ⟨0xA0060114, 0, 13⟩
abbrev CTL_TEST_EVENT : Nat := 0xA0060118
abbrev CTL_TEST_EVENT.EVENT : Fld := ⟨0xA0060118, 0, 8⟩
abbrev CTL_TEST_STATUS : Nat := 0xA006011C
abbrev CTL_TEST_STATUS.RUNNING : Fld := ⟨0xA006011C, 31, 1⟩
abbrev CTL_TEST_STATUS.TICKS : Fld := ⟨0xA006011C, 0, 31⟩
abbrev CTL_TRACE_BASE : Nat := 0xA0060120
abbrev CTL_TRACE_BASE.ADDR : Fld := ⟨0xA0060120, 12, 20⟩
abbrev CTL_TRACE_SIZE : Nat := 0xA0060124
abbrev CTL_TRACE_SIZE.ADDR : Fld := ⟨0xA0060124, 12, 20⟩
abbrev CTL_TRACE_HEAD : Nat := 0xA0060128
abbrev CTL_TRACE_HEAD.NEXT : Fld := ⟨0xA0060128, 0, 32⟩
abbrev CTL_AOUTj (j : Nat) : Nat := 0xA0060200 + j * 4
abbrev CTL_AOUTj.EN (j : Nat) : Fld := ⟨0xA0060200 + j * 4, 31, 1⟩
abbrev CTL_AOUTj.CODE (j : Nat) : Fld := ⟨0xA0060200 + j * 4, 0, 16⟩
abbrev CTL_PWMj_CFG (j : Nat) : Nat := 0xA0060240 + j * 8
abbrev CTL_PWMj_CFG.EN (j : Nat) : Fld := ⟨0xA0060240 + j * 8, 31, 1⟩
abbrev CTL_PWMj_CFG.DIGITAL (j : Nat) : Fld := ⟨0xA0060240 + j * 8, 30, 1⟩
abbrev CTL_PWMj_CFG.POL (j : Nat) : Fld := ⟨0xA0060240 + j * 8, 29, 1⟩
abbrev CTL_PWMj_CFG.PERIOD (j : Nat) : Fld := ⟨0xA0060240 + j * 8, 0, 16⟩
abbrev CTL_PWMj_DUTY (j : Nat) : Nat := 0xA0060244 + j * 8
abbrev CTL_PWMj_DUTY.DUTY (j : Nat) : Fld := ⟨0xA0060244 + j * 8, 0, 16⟩
abbrev CTL_DRIVEd_CFG (d : Nat) : Nat := 0xA0060400 + d * 16
abbrev CTL_DRIVEd_CFG.PATH (d : Nat) : Fld := ⟨0xA0060400 + d * 16, 30, 2⟩
abbrev CTL_DRIVEd_CFG.ADDR (d : Nat) : Fld := ⟨0xA0060400 + d * 16, 16, 10⟩
abbrev CTL_DRIVEd_CFG.OBJECT (d : Nat) : Fld := ⟨0xA0060400 + d * 16, 0, 16⟩
abbrev CTL_DRIVEd_LEAD (d : Nat) : Nat := 0xA0060404 + d * 16
abbrev CTL_DRIVEd_LEAD.LEAD (d : Nat) : Fld := ⟨0xA0060404 + d * 16, 0, 16⟩
abbrev CTL_DRIVEd_SEQ (d : Nat) : Nat := 0xA0060408 + d * 16
abbrev CTL_DRIVEd_SEQ.SEQ (d : Nat) : Fld := ⟨0xA0060408 + d * 16, 0, 32⟩
abbrev CTL_TESTTAB (i : Nat) : Nat := 0xA0068000 + i * 4
abbrev CTL_TESTTAB.VALUE (i : Nat) : Fld := ⟨0xA0068000 + i * 4, 0, 32⟩
abbrev CTL_LOOPn_CFG (n : Nat) : Nat := 0xA0061000 + n * 128
abbrev CTL_LOOPn_CFG.EN (n : Nat) : Fld := ⟨0xA0061000 + n * 128, 31, 1⟩
abbrev CTL_LOOPn_CFG.TICK_SRC (n : Nat) : Fld := ⟨0xA0061000 + n * 128, 28, 3⟩
abbrev CTL_LOOPn_CFG.AW (n : Nat) : Fld := ⟨0xA0061000 + n * 128, 26, 2⟩
abbrev CTL_LOOPn_CFG.GRP_EN (n : Nat) : Fld := ⟨0xA0061000 + n * 128, 25, 1⟩
abbrev CTL_LOOPn_CFG.GROUP (n : Nat) : Fld := ⟨0xA0061000 + n * 128, 22, 3⟩
abbrev CTL_LOOPn_CFG.TALLY (n : Nat) : Fld := ⟨0xA0061000 + n * 128, 20, 2⟩
abbrev CTL_LOOPn_CFG.OUT_KIND (n : Nat) : Fld := ⟨0xA0061000 + n * 128, 16, 4⟩
abbrev CTL_LOOPn_CFG.OUT_NUM (n : Nat) : Fld := ⟨0xA0061000 + n * 128, 8, 8⟩
abbrev CTL_LOOPn_CFG.FB_CHAN (n : Nat) : Fld := ⟨0xA0061000 + n * 128, 0, 8⟩
abbrev CTL_LOOPn_N (n : Nat) : Nat := 0xA0061004 + n * 128
abbrev CTL_LOOPn_N.N (n : Nat) : Fld := ⟨0xA0061004 + n * 128, 0, 17⟩
abbrev CTL_LOOPn_PHASE (n : Nat) : Nat := 0xA0061008 + n * 128
abbrev CTL_LOOPn_PHASE.PHASE (n : Nat) : Fld := ⟨0xA0061008 + n * 128, 0, 16⟩
abbrev CTL_LOOPn_TSTRIDE (n : Nat) : Nat := 0xA006100C + n * 128
abbrev CTL_LOOPn_TSTRIDE.TSTRIDE (n : Nat) : Fld := ⟨0xA006100C + n * 128, 0, 32⟩
abbrev CTL_LOOPn_SETPOINT (n : Nat) : Nat := 0xA0061010 + n * 128
abbrev CTL_LOOPn_SETPOINT.SETPOINT (n : Nat) : Fld := ⟨0xA0061010 + n * 128, 0, 32⟩
abbrev CTL_LOOPn_BIAS (n : Nat) : Nat := 0xA0061014 + n * 128
abbrev CTL_LOOPn_BIAS.BIAS (n : Nat) : Fld := ⟨0xA0061014 + n * 128, 0, 32⟩
abbrev CTL_LOOPn_OUT_MIN (n : Nat) : Nat := 0xA0061018 + n * 128
abbrev CTL_LOOPn_OUT_MIN.OUT_MIN (n : Nat) : Fld := ⟨0xA0061018 + n * 128, 0, 32⟩
abbrev CTL_LOOPn_OUT_MAX (n : Nat) : Nat := 0xA006101C + n * 128
abbrev CTL_LOOPn_OUT_MAX.OUT_MAX (n : Nat) : Fld := ⟨0xA006101C + n * 128, 0, 32⟩
abbrev CTL_LOOPn_E_SPAN (n : Nat) : Nat := 0xA0061020 + n * 128
abbrev CTL_LOOPn_E_SPAN.E_SPAN (n : Nat) : Fld := ⟨0xA0061020 + n * 128, 0, 32⟩
abbrev CTL_LOOPn_KT (n : Nat) : Nat := 0xA0061024 + n * 128
abbrev CTL_LOOPn_KT.KT (n : Nat) : Fld := ⟨0xA0061024 + n * 128, 0, 32⟩
abbrev CTL_LOOPn_OUT_SCALE (n : Nat) : Nat := 0xA0061028 + n * 128
abbrev CTL_LOOPn_OUT_SCALE.OUT_SCALE (n : Nat) : Fld := ⟨0xA0061028 + n * 128, 0, 32⟩
abbrev CTL_LOOPn_DFILT (n : Nat) : Nat := 0xA006102C + n * 128
abbrev CTL_LOOPn_DFILT.DFILT (n : Nat) : Fld := ⟨0xA006102C + n * 128, 0, 8⟩
abbrev CTL_LOOPn_FAULT (n : Nat) : Nat := 0xA0061030 + n * 128
abbrev CTL_LOOPn_FAULT.FALLBACK (n : Nat) : Fld := ⟨0xA0061030 + n * 128, 28, 4⟩
abbrev CTL_LOOPn_FAULT.OVR_LIMIT (n : Nat) : Fld := ⟨0xA0061030 + n * 128, 24, 4⟩
abbrev CTL_LOOPn_FAULT.ALT_CHAN (n : Nat) : Fld := ⟨0xA0061030 + n * 128, 16, 8⟩
abbrev CTL_LOOPn_FAULT.FREEZE_N (n : Nat) : Fld := ⟨0xA0061030 + n * 128, 0, 16⟩
abbrev CTL_LOOPn_SAFE (n : Nat) : Nat := 0xA0061034 + n * 128
abbrev CTL_LOOPn_SAFE.SAFE (n : Nat) : Fld := ⟨0xA0061034 + n * 128, 0, 32⟩
abbrev CTL_LOOPn_RAMP_RATE (n : Nat) : Nat := 0xA0061038 + n * 128
abbrev CTL_LOOPn_RAMP_RATE.RAMP_RATE (n : Nat) : Fld := ⟨0xA0061038 + n * 128, 0, 32⟩
abbrev CTL_LOOPn_FREEZE_TOL (n : Nat) : Nat := 0xA006103C + n * 128
abbrev CTL_LOOPn_FREEZE_TOL.FREEZE_TOL (n : Nat) : Fld := ⟨0xA006103C + n * 128, 0, 32⟩
abbrev CTL_LOOPn_FREEZE_MOVE (n : Nat) : Nat := 0xA0061040 + n * 128
abbrev CTL_LOOPn_FREEZE_MOVE.FREEZE_MOVE (n : Nat) : Fld := ⟨0xA0061040 + n * 128, 0, 32⟩
abbrev CTL_LOOPn_STATUS (n : Nat) : Nat := 0xA0061050 + n * 128
abbrev CTL_LOOPn_STATUS.OVERRUNS (n : Nat) : Fld := ⟨0xA0061050 + n * 128, 16, 16⟩
abbrev CTL_LOOPn_STATUS.CAUSE (n : Nat) : Fld := ⟨0xA0061050 + n * 128, 12, 4⟩
abbrev CTL_LOOPn_STATUS.FORCED (n : Nat) : Fld := ⟨0xA0061050 + n * 128, 11, 1⟩
abbrev CTL_LOOPn_STATUS.ALT_ACTIVE (n : Nat) : Fld := ⟨0xA0061050 + n * 128, 10, 1⟩
abbrev CTL_LOOPn_STATUS.FB_LOST (n : Nat) : Fld := ⟨0xA0061050 + n * 128, 9, 1⟩
abbrev CTL_LOOPn_STATUS.OVERRUN (n : Nat) : Fld := ⟨0xA0061050 + n * 128, 8, 1⟩
abbrev CTL_LOOPn_STATUS.OVR_RUN (n : Nat) : Fld := ⟨0xA0061050 + n * 128, 4, 4⟩
abbrev CTL_LOOPn_STATUS.WINNER (n : Nat) : Fld := ⟨0xA0061050 + n * 128, 3, 1⟩
abbrev CTL_LOOPn_STATUS.STATE (n : Nat) : Fld := ⟨0xA0061050 + n * 128, 0, 3⟩
abbrev CTL_LOOPn_OUTPUT (n : Nat) : Nat := 0xA0061054 + n * 128
abbrev CTL_LOOPn_OUTPUT.OUTPUT (n : Nat) : Fld := ⟨0xA0061054 + n * 128, 0, 32⟩
abbrev CTL_LOOPn_OWN_U (n : Nat) : Nat := 0xA0061058 + n * 128
abbrev CTL_LOOPn_OWN_U.OWN_U (n : Nat) : Fld := ⟨0xA0061058 + n * 128, 0, 32⟩
abbrev CTL_LOOPn_INTEG (n : Nat) : Nat := 0xA006105C + n * 128
abbrev CTL_LOOPn_INTEG.INTEG (n : Nat) : Fld := ⟨0xA006105C + n * 128, 0, 32⟩
abbrev CTL_LOOPn_FB_VALUE (n : Nat) : Nat := 0xA0061060 + n * 128
abbrev CTL_LOOPn_FB_VALUE.FB_VALUE (n : Nat) : Fld := ⟨0xA0061060 + n * 128, 0, 32⟩
abbrev CTL_LOOPn_FB (n : Nat) : Nat := 0xA0061064 + n * 128
abbrev CTL_LOOPn_FB.FB_SEQ (n : Nat) : Fld := ⟨0xA0061064 + n * 128, 8, 24⟩
abbrev CTL_LOOPn_FB.FB_TAG (n : Nat) : Fld := ⟨0xA0061064 + n * 128, 0, 8⟩
abbrev CTL_LOOPn_TICK_LAP_LO (n : Nat) : Nat := 0xA0061068 + n * 128
abbrev CTL_LOOPn_TICK_LAP_LO.TICK_LAP_LO (n : Nat) : Fld := ⟨0xA0061068 + n * 128, 0, 32⟩
abbrev CTL_LOOPn_TICK_LAP_HI (n : Nat) : Nat := 0xA006106C + n * 128
abbrev CTL_LOOPn_TICK_LAP_HI.TICK_LAP_HI (n : Nat) : Fld := ⟨0xA006106C + n * 128, 0, 32⟩

/-! ### LNK: lanes (spec/10_lanes.md R303) -/

abbrev LNK_CTRL : Nat := 0xA0070000
abbrev LNK_CTRL.LOCK : Fld := ⟨0xA0070000, 31, 1⟩
abbrev LNK_STATUS : Nat := 0xA0070004
abbrev LNK_STATUS.FAIL : Fld := ⟨0xA0070004, 8, 4⟩
abbrev LNK_STATUS.ABSENT : Fld := ⟨0xA0070004, 4, 4⟩
abbrev LNK_STATUS.UP : Fld := ⟨0xA0070004, 0, 4⟩
abbrev LNK_LANEn_CTRL (n : Nat) : Nat := 0xA0070100 + n * 256
abbrev LNK_LANEn_CTRL.EN (n : Nat) : Fld := ⟨0xA0070100 + n * 256, 31, 1⟩
abbrev LNK_LANEn_CTRL.MODE (n : Nat) : Fld := ⟨0xA0070100 + n * 256, 28, 3⟩
abbrev LNK_LANEn_CTRL.RATE_MAX (n : Nat) : Fld := ⟨0xA0070100 + n * 256, 26, 2⟩
abbrev LNK_LANEn_CTRL.AUTO_FALL (n : Nat) : Fld := ⟨0xA0070100 + n * 256, 25, 1⟩
abbrev LNK_LANEn_CTRL.AUTO_POL (n : Nat) : Fld := ⟨0xA0070100 + n * 256, 24, 1⟩
abbrev LNK_LANEn_CTRL.TX_INV (n : Nat) : Fld := ⟨0xA0070100 + n * 256, 23, 1⟩
abbrev LNK_LANEn_CTRL.RX_INV (n : Nat) : Fld := ⟨0xA0070100 + n * 256, 22, 1⟩
abbrev LNK_LANEn_CTRL.LOOPBACK (n : Nat) : Fld := ⟨0xA0070100 + n * 256, 20, 2⟩
abbrev LNK_LANEn_CTRL.FAIL_RETRY (n : Nat) : Fld := ⟨0xA0070100 + n * 256, 8, 8⟩
abbrev LNK_LANEn_CMD (n : Nat) : Nat := 0xA0070104 + n * 256
abbrev LNK_LANEn_CMD.STATUS (n : Nat) : Fld := ⟨0xA0070104 + n * 256, 24, 8⟩
abbrev LNK_LANEn_CMD.PEND (n : Nat) : Fld := ⟨0xA0070104 + n * 256, 23, 1⟩
abbrev LNK_LANEn_CMD.OP (n : Nat) : Fld := ⟨0xA0070104 + n * 256, 0, 4⟩
abbrev LNK_LANEn_STATUS (n : Nat) : Nat := 0xA0070108 + n * 256
abbrev LNK_LANEn_STATUS.STATE (n : Nat) : Fld := ⟨0xA0070108 + n * 256, 28, 4⟩
abbrev LNK_LANEn_STATUS.RATE (n : Nat) : Fld := ⟨0xA0070108 + n * 256, 26, 2⟩
abbrev LNK_LANEn_STATUS.ABSENT (n : Nat) : Fld := ⟨0xA0070108 + n * 256, 25, 1⟩
abbrev LNK_LANEn_STATUS.LOS (n : Nat) : Fld := ⟨0xA0070108 + n * 256, 24, 1⟩
abbrev LNK_LANEn_STATUS.ADAPT_FROZEN (n : Nat) : Fld := ⟨0xA0070108 + n * 256, 23, 1⟩
abbrev LNK_LANEn_STATUS.POL_DETECTED (n : Nat) : Fld := ⟨0xA0070108 + n * 256, 22, 1⟩
abbrev LNK_LANEn_STATUS.BAD_MODE (n : Nat) : Fld := ⟨0xA0070108 + n * 256, 21, 1⟩
abbrev LNK_LANEn_STATUS.PARTNER_VALID (n : Nat) : Fld := ⟨0xA0070108 + n * 256, 20, 1⟩
abbrev LNK_LANEn_STATUS.PARTNER_ROLE (n : Nat) : Fld := ⟨0xA0070108 + n * 256, 18, 2⟩
abbrev LNK_LANEn_STATUS.ATTEMPT (n : Nat) : Fld := ⟨0xA0070108 + n * 256, 16, 2⟩
abbrev LNK_LANEn_STATUS.FAIL_CAUSE (n : Nat) : Fld := ⟨0xA0070108 + n * 256, 8, 4⟩
abbrev LNK_LANEn_SEEN (n : Nat) : Nat := 0xA007010C + n * 256
abbrev LNK_LANEn_SEEN.FREEZE (n : Nat) : Fld := ⟨0xA007010C + n * 256, 5, 1⟩
abbrev LNK_LANEn_SEEN.ABORT (n : Nat) : Fld := ⟨0xA007010C + n * 256, 4, 1⟩
abbrev LNK_LANEn_SEEN.FAIL (n : Nat) : Fld := ⟨0xA007010C + n * 256, 3, 1⟩
abbrev LNK_LANEn_SEEN.FALLBACK (n : Nat) : Fld := ⟨0xA007010C + n * 256, 2, 1⟩
abbrev LNK_LANEn_SEEN.DOWN (n : Nat) : Fld := ⟨0xA007010C + n * 256, 1, 1⟩
abbrev LNK_LANEn_SEEN.LOS (n : Nat) : Fld := ⟨0xA007010C + n * 256, 0, 1⟩
abbrev LNK_LANEn_TX_TAPS_SET (n : Nat) : Nat := 0xA0070110 + n * 256
abbrev LNK_LANEn_TX_TAPS_SET.POST (n : Nat) : Fld := ⟨0xA0070110 + n * 256, 16, 5⟩
abbrev LNK_LANEn_TX_TAPS_SET.MAIN (n : Nat) : Fld := ⟨0xA0070110 + n * 256, 8, 6⟩
abbrev LNK_LANEn_TX_TAPS_SET.PRE (n : Nat) : Fld := ⟨0xA0070110 + n * 256, 0, 4⟩
abbrev LNK_LANEn_TX_TAPS (n : Nat) : Nat := 0xA0070114 + n * 256
abbrev LNK_LANEn_TX_TAPS.POST (n : Nat) : Fld := ⟨0xA0070114 + n * 256, 16, 5⟩
abbrev LNK_LANEn_TX_TAPS.MAIN (n : Nat) : Fld := ⟨0xA0070114 + n * 256, 8, 6⟩
abbrev LNK_LANEn_TX_TAPS.PRE (n : Nat) : Fld := ⟨0xA0070114 + n * 256, 0, 4⟩
abbrev LNK_LANEn_RX_EQ (n : Nat) : Nat := 0xA0070118 + n * 256
abbrev LNK_LANEn_RX_EQ.CTLE (n : Nat) : Fld := ⟨0xA0070118 + n * 256, 28, 4⟩
abbrev LNK_LANEn_RX_EQ.DFE1 (n : Nat) : Fld := ⟨0xA0070118 + n * 256, 21, 7⟩
abbrev LNK_LANEn_RX_EQ.DFE2 (n : Nat) : Fld := ⟨0xA0070118 + n * 256, 15, 6⟩
abbrev LNK_LANEn_RX_EQ.DFE3 (n : Nat) : Fld := ⟨0xA0070118 + n * 256, 10, 5⟩
abbrev LNK_LANEn_RX_EQ.DFE4 (n : Nat) : Fld := ⟨0xA0070118 + n * 256, 5, 5⟩
abbrev LNK_LANEn_RX_EQ.DFE5 (n : Nat) : Fld := ⟨0xA0070118 + n * 256, 0, 5⟩
abbrev LNK_LANEn_RX_HOLD (n : Nat) : Nat := 0xA007011C + n * 256
abbrev LNK_LANEn_RX_HOLD.HOLD (n : Nat) : Fld := ⟨0xA007011C + n * 256, 31, 1⟩
abbrev LNK_LANEn_RX_HOLD.CTLE_OVR (n : Nat) : Fld := ⟨0xA007011C + n * 256, 30, 1⟩
abbrev LNK_LANEn_RX_HOLD.CTLE_SET (n : Nat) : Fld := ⟨0xA007011C + n * 256, 0, 4⟩
abbrev LNK_LANEn_EYE (n : Nat) : Nat := 0xA0070120 + n * 256
abbrev LNK_LANEn_EYE.HEIGHT (n : Nat) : Fld := ⟨0xA0070120 + n * 256, 16, 16⟩
abbrev LNK_LANEn_EYE.WIDTH (n : Nat) : Fld := ⟨0xA0070120 + n * 256, 0, 16⟩
abbrev LNK_LANEn_LAT (n : Nat) : Nat := 0xA0070124 + n * 256
abbrev LNK_LANEn_LAT.RX (n : Nat) : Fld := ⟨0xA0070124 + n * 256, 16, 16⟩
abbrev LNK_LANEn_LAT.TX (n : Nat) : Fld := ⟨0xA0070124 + n * 256, 0, 16⟩
abbrev LNK_LANEn_LAT_TRIM (n : Nat) : Nat := 0xA0070128 + n * 256
abbrev LNK_LANEn_LAT_TRIM.RX (n : Nat) : Fld := ⟨0xA0070128 + n * 256, 16, 16⟩
abbrev LNK_LANEn_LAT_TRIM.TX (n : Nat) : Fld := ⟨0xA0070128 + n * 256, 0, 16⟩
abbrev LNK_LANEn_COUNT (n : Nat) : Nat := 0xA007012C + n * 256
abbrev LNK_LANEn_COUNT.DOWNS (n : Nat) : Fld := ⟨0xA007012C + n * 256, 16, 16⟩
abbrev LNK_LANEn_COUNT.TRAININGS (n : Nat) : Fld := ⟨0xA007012C + n * 256, 0, 16⟩
abbrev LNK_LANEn_FREEZE_CNT (n : Nat) : Nat := 0xA0070130 + n * 256
abbrev LNK_LANEn_FREEZE_CNT.WINDOWS (n : Nat) : Fld := ⟨0xA0070130 + n * 256, 0, 32⟩
abbrev LNK_LANEn_PRBS_CTRL (n : Nat) : Nat := 0xA0070140 + n * 256
abbrev LNK_LANEn_PRBS_CTRL.GEN_EN (n : Nat) : Fld := ⟨0xA0070140 + n * 256, 31, 1⟩
abbrev LNK_LANEn_PRBS_CTRL.CHK_EN (n : Nat) : Fld := ⟨0xA0070140 + n * 256, 30, 1⟩
abbrev LNK_LANEn_PRBS_CTRL.INV (n : Nat) : Fld := ⟨0xA0070140 + n * 256, 29, 1⟩
abbrev LNK_LANEn_PRBS_CTRL.ORDER (n : Nat) : Fld := ⟨0xA0070140 + n * 256, 0, 3⟩
abbrev LNK_LANEn_PRBS_STATUS (n : Nat) : Nat := 0xA0070144 + n * 256
abbrev LNK_LANEn_PRBS_STATUS.LOCK (n : Nat) : Fld := ⟨0xA0070144 + n * 256, 31, 1⟩
abbrev LNK_LANEn_PRBS_STATUS.LOCK_LOST (n : Nat) : Fld := ⟨0xA0070144 + n * 256, 30, 1⟩
abbrev LNK_LANEn_PRBS_BITS_LO (n : Nat) : Nat := 0xA0070148 + n * 256
abbrev LNK_LANEn_PRBS_BITS_LO.COUNT (n : Nat) : Fld := ⟨0xA0070148 + n * 256, 0, 32⟩
abbrev LNK_LANEn_PRBS_BITS_HI (n : Nat) : Nat := 0xA007014C + n * 256
abbrev LNK_LANEn_PRBS_BITS_HI.COUNT (n : Nat) : Fld := ⟨0xA007014C + n * 256, 0, 16⟩
abbrev LNK_LANEn_PRBS_ERR_LO (n : Nat) : Nat := 0xA0070150 + n * 256
abbrev LNK_LANEn_PRBS_ERR_LO.COUNT (n : Nat) : Fld := ⟨0xA0070150 + n * 256, 0, 32⟩
abbrev LNK_LANEn_PRBS_ERR_HI (n : Nat) : Nat := 0xA0070154 + n * 256
abbrev LNK_LANEn_PRBS_ERR_HI.COUNT (n : Nat) : Fld := ⟨0xA0070154 + n * 256, 0, 16⟩
abbrev LNK_LANEn_INJ_CFG (n : Nat) : Nat := 0xA0070158 + n * 256
abbrev LNK_LANEn_INJ_CFG.MODE (n : Nat) : Fld := ⟨0xA0070158 + n * 256, 30, 2⟩
abbrev LNK_LANEn_INJ_CFG.TARGET (n : Nat) : Fld := ⟨0xA0070158 + n * 256, 29, 1⟩
abbrev LNK_LANEn_INJ_CFG.LEN (n : Nat) : Fld := ⟨0xA0070158 + n * 256, 16, 6⟩
abbrev LNK_LANEn_INJ_CFG.RATE_EXP (n : Nat) : Fld := ⟨0xA0070158 + n * 256, 0, 6⟩
abbrev LNK_LANEn_INJ_COUNT (n : Nat) : Nat := 0xA007015C + n * 256
abbrev LNK_LANEn_INJ_COUNT.COUNT (n : Nat) : Fld := ⟨0xA007015C + n * 256, 0, 32⟩

/-! ### WOT: Woten line (spec/11_woten_line.md R335) -/

abbrev WOT_CTRL : Nat := 0xA0080000
abbrev WOT_CTRL.LOCK : Fld := ⟨0xA0080000, 31, 1⟩
abbrev WOT_CTRL.HOST_ACK : Fld := ⟨0xA0080000, 11, 1⟩
abbrev WOT_CTRL.ACCEPT_RESET : Fld := ⟨0xA0080000, 10, 1⟩
abbrev WOT_CTRL.HEAD : Fld := ⟨0xA0080000, 8, 2⟩
abbrev WOT_CTRL.STREAM_EN : Fld := ⟨0xA0080000, 1, 1⟩
abbrev WOT_CTRL.EN : Fld := ⟨0xA0080000, 0, 1⟩
abbrev WOT_STATUS : Nat := 0xA0080004
abbrev WOT_STATUS.ADDR_VALID : Fld := ⟨0xA0080004, 31, 1⟩
abbrev WOT_STATUS.SPILL_BAD : Fld := ⟨0xA0080004, 30, 1⟩
abbrev WOT_STATUS.SPILL_FULL : Fld := ⟨0xA0080004, 29, 1⟩
abbrev WOT_STATUS.DATA_DIR : Fld := ⟨0xA0080004, 27, 2⟩
abbrev WOT_STATUS.REACH_E : Fld := ⟨0xA0080004, 26, 1⟩
abbrev WOT_STATUS.REACH_W : Fld := ⟨0xA0080004, 25, 1⟩
abbrev WOT_STATUS.ADDR_OVF : Fld := ⟨0xA0080004, 24, 1⟩
abbrev WOT_STATUS.CONFLICT : Fld := ⟨0xA0080004, 23, 1⟩
abbrev WOT_STATUS.MISMATCH : Fld := ⟨0xA0080004, 22, 1⟩
abbrev WOT_STATUS.ADDR : Fld := ⟨0xA0080004, 0, 10⟩
abbrev WOT_ADDR : Nat := 0xA0080008
abbrev WOT_ADDR.FIXED : Fld := ⟨0xA0080008, 31, 1⟩
abbrev WOT_ADDR.FIXED_ADDR : Fld := ⟨0xA0080008, 16, 10⟩
abbrev WOT_ADDR.LINE_ID : Fld := ⟨0xA0080008, 0, 16⟩
abbrev WOT_HEADS : Nat := 0xA008000C
abbrev WOT_HEADS.EAST_ADDR : Fld := ⟨0xA008000C, 22, 10⟩
abbrev WOT_HEADS.HOPS_E : Fld := ⟨0xA008000C, 10, 10⟩
abbrev WOT_HEADS.HOPS_W : Fld := ⟨0xA008000C, 0, 10⟩
abbrev WOT_CMD : Nat := 0xA0080010
abbrev WOT_CMD.STATUS : Fld := ⟨0xA0080010, 24, 8⟩
abbrev WOT_CMD.PEND : Fld := ⟨0xA0080010, 23, 1⟩
abbrev WOT_CMD.OP : Fld := ⟨0xA0080010, 0, 4⟩
abbrev WOT_TIMING : Nat := 0xA0080014
abbrev WOT_TIMING.RETRY_MAX : Fld := ⟨0xA0080014, 24, 8⟩
abbrev WOT_TIMING.ACK_TO : Fld := ⟨0xA0080014, 16, 8⟩
abbrev WOT_TIMING.REVERT_HOLD : Fld := ⟨0xA0080014, 8, 8⟩
abbrev WOT_TIMING.REROUTE_HOLD : Fld := ⟨0xA0080014, 0, 8⟩
abbrev WOT_STREAM_CFG : Nat := 0xA0080018
abbrev WOT_STREAM_CFG.POLICY : Fld := ⟨0xA0080018, 31, 1⟩
abbrev WOT_STREAM_CFG.EPOCH : Fld := ⟨0xA0080018, 16, 5⟩
abbrev WOT_STREAM_CFG.FLUSH : Fld := ⟨0xA0080018, 0, 16⟩
abbrev WOT_SPILL_BASE : Nat := 0xA0080020
abbrev WOT_SPILL_BASE.ADDR : Fld := ⟨0xA0080020, 12, 20⟩
abbrev WOT_SPILL_SIZE : Nat := 0xA0080024
abbrev WOT_SPILL_SIZE.ADDR : Fld := ⟨0xA0080024, 12, 20⟩
abbrev WOT_SPILL_FILL : Nat := 0xA0080028
abbrev WOT_SPILL_FILL.VALUE : Fld := ⟨0xA0080028, 0, 32⟩
abbrev WOT_SPILL_LOST : Nat := 0xA008002C
abbrev WOT_SPILL_LOST.VALUE : Fld := ⟨0xA008002C, 0, 32⟩
abbrev WOT_STREAM_NEXT : Nat := 0xA0080030
abbrev WOT_STREAM_NEXT.VALUE : Fld := ⟨0xA0080030, 0, 32⟩
abbrev WOT_STREAM_UNACKED : Nat := 0xA0080034
abbrev WOT_STREAM_UNACKED.VALUE : Fld := ⟨0xA0080034, 0, 32⟩
abbrev WOT_GCMD : Nat := 0xA0080040
abbrev WOT_GCMD.STATUS : Fld := ⟨0xA0080040, 24, 8⟩
abbrev WOT_GCMD.PEND : Fld := ⟨0xA0080040, 23, 1⟩
abbrev WOT_GCMD.TURN : Fld := ⟨0xA0080040, 19, 1⟩
abbrev WOT_GCMD.CANCEL_LATE : Fld := ⟨0xA0080040, 18, 1⟩
abbrev WOT_GCMD.DIR : Fld := ⟨0xA0080040, 16, 2⟩
abbrev WOT_GCMD.SPACE : Fld := ⟨0xA0080040, 12, 3⟩
abbrev WOT_GCMD.OP : Fld := ⟨0xA0080040, 0, 4⟩
abbrev WOT_GCMD_VALUE_LO : Nat := 0xA0080044
abbrev WOT_GCMD_VALUE_LO.VALUE : Fld := ⟨0xA0080044, 0, 32⟩
abbrev WOT_GCMD_VALUE_HI : Nat := 0xA0080048
abbrev WOT_GCMD_VALUE_HI.VALUE : Fld := ⟨0xA0080048, 0, 16⟩
abbrev WOT_GCMD_ARG_LO : Nat := 0xA008004C
abbrev WOT_GCMD_ARG_LO.VALUE : Fld := ⟨0xA008004C, 0, 32⟩
abbrev WOT_GCMD_ARG_HI : Nat := 0xA0080050
abbrev WOT_GCMD_ARG_HI.VALUE : Fld := ⟨0xA0080050, 0, 32⟩
abbrev WOT_GCMD_RANGE : Nat := 0xA0080054
abbrev WOT_GCMD_RANGE.ADDR_HI : Fld := ⟨0xA0080054, 16, 10⟩
abbrev WOT_GCMD_RANGE.ADDR_LO : Fld := ⟨0xA0080054, 0, 10⟩
abbrev WOT_GCMD_RESULT : Nat := 0xA0080058
abbrev WOT_GCMD_RESULT.RESULT : Fld := ⟨0xA0080058, 28, 4⟩
abbrev WOT_GCMD_RESULT.TURN_ADDR : Fld := ⟨0xA0080058, 16, 10⟩
abbrev WOT_GCMD_RESULT.OP_ID : Fld := ⟨0xA0080058, 0, 16⟩
abbrev WOT_GCMD_ECHO_TO : Nat := 0xA008005C
abbrev WOT_GCMD_ECHO_TO.TIMEOUT : Fld := ⟨0xA008005C, 0, 32⟩
abbrev WOT_BARRIER : Nat := 0xA0080060
abbrev WOT_BARRIER.READY : Fld := ⟨0xA0080060, 0, 1⟩
abbrev WOT_SNAP_LAP_LO : Nat := 0xA0080064
abbrev WOT_SNAP_LAP_LO.LAP : Fld := ⟨0xA0080064, 0, 32⟩
abbrev WOT_SNAP_LAP_HI : Nat := 0xA0080068
abbrev WOT_SNAP_LAP_HI.LAP : Fld := ⟨0xA0080068, 0, 32⟩
abbrev WOT_LINKl_STATUS (l : Nat) : Nat := 0xA0080100 + l * 64
abbrev WOT_LINKl_STATUS.UP (l : Nat) : Fld := ⟨0xA0080100 + l * 64, 31, 1⟩
abbrev WOT_LINKl_STATUS.DELAY_VALID (l : Nat) : Fld := ⟨0xA0080100 + l * 64, 30, 1⟩
abbrev WOT_LINKl_STATUS.RESETS (l : Nat) : Fld := ⟨0xA0080100 + l * 64, 0, 8⟩
abbrev WOT_LINKl_DELAY (l : Nat) : Nat := 0xA0080104 + l * 64
abbrev WOT_LINKl_DELAY.DELAY (l : Nat) : Fld := ⟨0xA0080104 + l * 64, 0, 32⟩
abbrev WOT_LINKl_ASYM (l : Nat) : Nat := 0xA0080108 + l * 64
abbrev WOT_LINKl_ASYM.ASYM (l : Nat) : Fld := ⟨0xA0080108 + l * 64, 0, 32⟩
abbrev WOT_LINKl_RETX (l : Nat) : Nat := 0xA008010C + l * 64
abbrev WOT_LINKl_RETX.RETX (l : Nat) : Fld := ⟨0xA008010C + l * 64, 0, 32⟩
abbrev WOT_LINKl_ERR (l : Nat) : Nat := 0xA0080110 + l * 64
abbrev WOT_LINKl_ERR.CRC (l : Nat) : Fld := ⟨0xA0080110 + l * 64, 16, 16⟩
abbrev WOT_LINKl_ERR.SEQ (l : Nat) : Fld := ⟨0xA0080110 + l * 64, 0, 16⟩
abbrev WOT_LINKl_DROP (l : Nat) : Nat := 0xA0080114 + l * 64
abbrev WOT_LINKl_DROP.DROP (l : Nat) : Fld := ⟨0xA0080114 + l * 64, 0, 32⟩
abbrev WOT_INJ_CFG : Nat := 0xA0080200
abbrev WOT_INJ_CFG.EN : Fld := ⟨0xA0080200, 31, 1⟩
abbrev WOT_INJ_CFG.LANE : Fld := ⟨0xA0080200, 30, 1⟩
abbrev WOT_INJ_CFG.VCS : Fld := ⟨0xA0080200, 26, 4⟩
abbrev WOT_INJ_CFG.ACTION : Fld := ⟨0xA0080200, 24, 2⟩
abbrev WOT_INJ_CFG.MODE : Fld := ⟨0xA0080200, 22, 2⟩
abbrev WOT_INJ_CFG.RATE_EXP : Fld := ⟨0xA0080200, 0, 5⟩
abbrev WOT_INJ_PATTERN : Nat := 0xA0080204
abbrev WOT_INJ_PATTERN.VALUE : Fld := ⟨0xA0080204, 0, 32⟩
abbrev WOT_INJ_DELAY : Nat := 0xA0080208
abbrev WOT_INJ_DELAY.VALUE : Fld := ⟨0xA0080208, 0, 16⟩
abbrev WOT_INJ_COUNT : Nat := 0xA008020C
abbrev WOT_INJ_COUNT.VALUE : Fld := ⟨0xA008020C, 0, 32⟩
abbrev WOT_SNAP_SEQc (c : Nat) : Nat := 0xA0080400 + c * 4
abbrev WOT_SNAP_SEQc.SEQ (c : Nat) : Fld := ⟨0xA0080400 + c * 4, 0, 24⟩

/-! ### ETH: Ethernet (spec/12_uplink_ptp.md R352) -/

abbrev ETH_CTRL : Nat := 0xA0090000
abbrev ETH_CTRL.LOCK : Fld := ⟨0xA0090000, 31, 1⟩
abbrev ETH_CTRL.PTP_COPY : Fld := ⟨0xA0090000, 0, 1⟩
abbrev ETH_UDP_PORT : Nat := 0xA0090004
abbrev ETH_UDP_PORT.PORT : Fld := ⟨0xA0090004, 0, 16⟩
abbrev ETH_CLOCK_ID_LO : Nat := 0xA0090008
abbrev ETH_CLOCK_ID_LO.ID : Fld := ⟨0xA0090008, 0, 32⟩
abbrev ETH_CLOCK_ID_HI : Nat := 0xA009000C
abbrev ETH_CLOCK_ID_HI.ID : Fld := ⟨0xA009000C, 0, 32⟩
abbrev ETH_GW_CFG : Nat := 0xA0090010
abbrev ETH_GW_CFG.EN : Fld := ⟨0xA0090010, 31, 1⟩
abbrev ETH_GW_CFG.MAC : Fld := ⟨0xA0090010, 30, 1⟩
abbrev ETH_GW_CFG.ALT_EN : Fld := ⟨0xA0090010, 29, 1⟩
abbrev ETH_GW_CFG.FWD_CMD : Fld := ⟨0xA0090010, 28, 1⟩
abbrev ETH_GW_CFG.FWD_MGMT : Fld := ⟨0xA0090010, 27, 1⟩
abbrev ETH_GW_CFG.OWN_STREAM : Fld := ⟨0xA0090010, 26, 1⟩
abbrev ETH_GW_CFG.DEST : Fld := ⟨0xA0090010, 18, 6⟩
abbrev ETH_GW_CFG.ALT_DEST : Fld := ⟨0xA0090010, 12, 6⟩
abbrev ETH_GW_CFG.PACK : Fld := ⟨0xA0090010, 0, 12⟩
abbrev ETH_GW_BUF_BASE : Nat := 0xA0090014
abbrev ETH_GW_BUF_BASE.VALUE : Fld := ⟨0xA0090014, 0, 32⟩
abbrev ETH_GW_BUF_SIZE : Nat := 0xA0090018
abbrev ETH_GW_BUF_SIZE.VALUE : Fld := ⟨0xA0090018, 0, 32⟩
abbrev ETH_GW_REFUSED : Nat := 0xA009001C
abbrev ETH_GW_REFUSED.VALUE : Fld := ⟨0xA009001C, 0, 32⟩
abbrev ETH_MACm_CFG (m : Nat) : Nat := 0xA0090100 + m * 256
abbrev ETH_MACm_CFG.EN (m : Nat) : Fld := ⟨0xA0090100 + m * 256, 31, 1⟩
abbrev ETH_MACm_CFG.VLAN_EN (m : Nat) : Fld := ⟨0xA0090100 + m * 256, 30, 1⟩
abbrev ETH_MACm_CFG.MCAST_ALL (m : Nat) : Fld := ⟨0xA0090100 + m * 256, 29, 1⟩
abbrev ETH_MACm_CFG.PCP (m : Nat) : Fld := ⟨0xA0090100 + m * 256, 26, 3⟩
abbrev ETH_MACm_CFG.MTU (m : Nat) : Fld := ⟨0xA0090100 + m * 256, 12, 14⟩
abbrev ETH_MACm_CFG.VID (m : Nat) : Fld := ⟨0xA0090100 + m * 256, 0, 12⟩
abbrev ETH_MACm_ADDR_LO (m : Nat) : Nat := 0xA0090104 + m * 256
abbrev ETH_MACm_ADDR_LO.ADDR_LO (m : Nat) : Fld := ⟨0xA0090104 + m * 256, 0, 32⟩
abbrev ETH_MACm_ADDR_HI (m : Nat) : Nat := 0xA0090108 + m * 256
abbrev ETH_MACm_ADDR_HI.ADDR_HI (m : Nat) : Fld := ⟨0xA0090108 + m * 256, 0, 16⟩
abbrev ETH_MACm_IPV4 (m : Nat) : Nat := 0xA009010C + m * 256
abbrev ETH_MACm_IPV4.IPV4 (m : Nat) : Fld := ⟨0xA009010C + m * 256, 0, 32⟩
abbrev ETH_MACm_IPV60 (m : Nat) : Nat := 0xA0090110 + m * 256
abbrev ETH_MACm_IPV60.IPV6 (m : Nat) : Fld := ⟨0xA0090110 + m * 256, 0, 32⟩
abbrev ETH_MACm_IPV61 (m : Nat) : Nat := 0xA0090114 + m * 256
abbrev ETH_MACm_IPV61.IPV6 (m : Nat) : Fld := ⟨0xA0090114 + m * 256, 0, 32⟩
abbrev ETH_MACm_IPV62 (m : Nat) : Nat := 0xA0090118 + m * 256
abbrev ETH_MACm_IPV62.IPV6 (m : Nat) : Fld := ⟨0xA0090118 + m * 256, 0, 32⟩
abbrev ETH_MACm_IPV63 (m : Nat) : Nat := 0xA009011C + m * 256
abbrev ETH_MACm_IPV63.IPV6 (m : Nat) : Fld := ⟨0xA009011C + m * 256, 0, 32⟩
abbrev ETH_MACm_LINK (m : Nat) : Nat := 0xA0090120 + m * 256
abbrev ETH_MACm_LINK.LINK (m : Nat) : Fld := ⟨0xA0090120 + m * 256, 31, 1⟩
abbrev ETH_MACm_TXR_BASE (m : Nat) : Nat := 0xA0090124 + m * 256
abbrev ETH_MACm_TXR_BASE.TXR_BASE (m : Nat) : Fld := ⟨0xA0090124 + m * 256, 0, 32⟩
abbrev ETH_MACm_TXR_SIZE (m : Nat) : Nat := 0xA0090128 + m * 256
abbrev ETH_MACm_TXR_SIZE.TXR_SIZE (m : Nat) : Fld := ⟨0xA0090128 + m * 256, 0, 32⟩
abbrev ETH_MACm_TXR_TAIL (m : Nat) : Nat := 0xA009012C + m * 256
abbrev ETH_MACm_TXR_TAIL.TXR_TAIL (m : Nat) : Fld := ⟨0xA009012C + m * 256, 0, 10⟩
abbrev ETH_MACm_TXR_HEAD (m : Nat) : Nat := 0xA0090130 + m * 256
abbrev ETH_MACm_TXR_HEAD.TXR_HEAD (m : Nat) : Fld := ⟨0xA0090130 + m * 256, 0, 10⟩
abbrev ETH_MACm_RXR_BASE (m : Nat) : Nat := 0xA0090134 + m * 256
abbrev ETH_MACm_RXR_BASE.RXR_BASE (m : Nat) : Fld := ⟨0xA0090134 + m * 256, 0, 32⟩
abbrev ETH_MACm_RXR_SIZE (m : Nat) : Nat := 0xA0090138 + m * 256
abbrev ETH_MACm_RXR_SIZE.RXR_SIZE (m : Nat) : Fld := ⟨0xA0090138 + m * 256, 0, 32⟩
abbrev ETH_MACm_RXR_TAIL (m : Nat) : Nat := 0xA009013C + m * 256
abbrev ETH_MACm_RXR_TAIL.RXR_TAIL (m : Nat) : Fld := ⟨0xA009013C + m * 256, 0, 10⟩
abbrev ETH_MACm_RXR_HEAD (m : Nat) : Nat := 0xA0090140 + m * 256
abbrev ETH_MACm_RXR_HEAD.RXR_HEAD (m : Nat) : Fld := ⟨0xA0090140 + m * 256, 0, 10⟩
abbrev ETH_MACm_TXS_ID (m : Nat) : Nat := 0xA0090150 + m * 256
abbrev ETH_MACm_TXS_ID.FRESH (m : Nat) : Fld := ⟨0xA0090150 + m * 256, 31, 1⟩
abbrev ETH_MACm_TXS_ID.DROPPED (m : Nat) : Fld := ⟨0xA0090150 + m * 256, 30, 1⟩
abbrev ETH_MACm_TXS_ID.DOMAIN (m : Nat) : Fld := ⟨0xA0090150 + m * 256, 16, 8⟩
abbrev ETH_MACm_TXS_ID.FRAME_ID (m : Nat) : Fld := ⟨0xA0090150 + m * 256, 0, 16⟩
abbrev ETH_MACm_TXS_FRAC (m : Nat) : Nat := 0xA0090154 + m * 256
abbrev ETH_MACm_TXS_FRAC.TXS_FRAC (m : Nat) : Fld := ⟨0xA0090154 + m * 256, 0, 16⟩
abbrev ETH_MACm_TXS_LO (m : Nat) : Nat := 0xA0090158 + m * 256
abbrev ETH_MACm_TXS_LO.TXS_LO (m : Nat) : Fld := ⟨0xA0090158 + m * 256, 0, 32⟩
abbrev ETH_MACm_TXS_HI (m : Nat) : Nat := 0xA009015C + m * 256
abbrev ETH_MACm_TXS_HI.TXS_HI (m : Nat) : Fld := ⟨0xA009015C + m * 256, 0, 32⟩
abbrev ETH_MACm_TXS (m : Nat) : Nat := 0xA0090160 + m * 256
abbrev ETH_MACm_TXS.LOST (m : Nat) : Fld := ⟨0xA0090160 + m * 256, 16, 16⟩
abbrev ETH_MACm_TXS.OVF (m : Nat) : Fld := ⟨0xA0090160 + m * 256, 8, 1⟩
abbrev ETH_MACm_TXS.LEVEL (m : Nat) : Fld := ⟨0xA0090160 + m * 256, 0, 5⟩
abbrev ETH_MACm_RX_FRAMES (m : Nat) : Nat := 0xA0090170 + m * 256
abbrev ETH_MACm_RX_FRAMES.RX_FRAMES (m : Nat) : Fld := ⟨0xA0090170 + m * 256, 0, 32⟩
abbrev ETH_MACm_TX_FRAMES (m : Nat) : Nat := 0xA0090174 + m * 256
abbrev ETH_MACm_TX_FRAMES.TX_FRAMES (m : Nat) : Fld := ⟨0xA0090174 + m * 256, 0, 32⟩
abbrev ETH_MACm_RX_DROP (m : Nat) : Nat := 0xA0090178 + m * 256
abbrev ETH_MACm_RX_DROP.RX_DROP (m : Nat) : Fld := ⟨0xA0090178 + m * 256, 0, 32⟩
abbrev ETH_MACm_RX_BAD (m : Nat) : Nat := 0xA009017C + m * 256
abbrev ETH_MACm_RX_BAD.RX_BAD (m : Nat) : Fld := ⟨0xA009017C + m * 256, 0, 32⟩
abbrev ETH_MACm_TX_DROP (m : Nat) : Nat := 0xA0090180 + m * 256
abbrev ETH_MACm_TX_DROP.TX_DROP (m : Nat) : Fld := ⟨0xA0090180 + m * 256, 0, 32⟩
abbrev ETH_MACm_DGRAM_SEQ (m : Nat) : Nat := 0xA0090184 + m * 256
abbrev ETH_MACm_DGRAM_SEQ.DGRAM_SEQ (m : Nat) : Fld := ⟨0xA0090184 + m * 256, 0, 32⟩
abbrev ETH_PTPd_CFG (d : Nat) : Nat := 0xA0090300 + d * 64
abbrev ETH_PTPd_CFG.EN (d : Nat) : Fld := ⟨0xA0090300 + d * 64, 31, 1⟩
abbrev ETH_PTPd_CFG.MAC (d : Nat) : Fld := ⟨0xA0090300 + d * 64, 30, 1⟩
abbrev ETH_PTPd_CFG.TRANSPORT (d : Nat) : Fld := ⟨0xA0090300 + d * 64, 28, 2⟩
abbrev ETH_PTPd_CFG.MECH (d : Nat) : Fld := ⟨0xA0090300 + d * 64, 27, 1⟩
abbrev ETH_PTPd_CFG.DOMAIN (d : Nat) : Fld := ⟨0xA0090300 + d * 64, 16, 8⟩
abbrev ETH_PTPd_CFG.LOG_SYNC (d : Nat) : Fld := ⟨0xA0090300 + d * 64, 8, 8⟩
abbrev ETH_PTPd_CFG.LOG_DREQ (d : Nat) : Fld := ⟨0xA0090300 + d * 64, 0, 8⟩
abbrev ETH_PTPd_PARENT_LO (d : Nat) : Nat := 0xA0090304 + d * 64
abbrev ETH_PTPd_PARENT_LO.PARENT_LO (d : Nat) : Fld := ⟨0xA0090304 + d * 64, 0, 32⟩
abbrev ETH_PTPd_PARENT_MID (d : Nat) : Nat := 0xA0090308 + d * 64
abbrev ETH_PTPd_PARENT_MID.PARENT_MID (d : Nat) : Fld := ⟨0xA0090308 + d * 64, 0, 32⟩
abbrev ETH_PTPd_PARENT_PORT (d : Nat) : Nat := 0xA009030C + d * 64
abbrev ETH_PTPd_PARENT_PORT.PARENT_PORT (d : Nat) : Fld := ⟨0xA009030C + d * 64, 0, 16⟩
abbrev ETH_PTPd_ASYM (d : Nat) : Nat := 0xA0090310 + d * 64
abbrev ETH_PTPd_ASYM.ASYM (d : Nat) : Fld := ⟨0xA0090310 + d * 64, 0, 32⟩
abbrev ETH_PTPd_PATH_VALID (d : Nat) : Nat := 0xA0090314 + d * 64
abbrev ETH_PTPd_PATH_VALID.PATH_VALID (d : Nat) : Fld := ⟨0xA0090314 + d * 64, 31, 1⟩
abbrev ETH_PTPd_PATH (d : Nat) : Nat := 0xA0090318 + d * 64
abbrev ETH_PTPd_PATH.PATH (d : Nat) : Fld := ⟨0xA0090318 + d * 64, 0, 32⟩
abbrev ETH_PTPd_MISS (d : Nat) : Nat := 0xA009031C + d * 64
abbrev ETH_PTPd_MISS.FU_MISS (d : Nat) : Fld := ⟨0xA009031C + d * 64, 16, 16⟩
abbrev ETH_PTPd_MISS.RESP_MISS (d : Nat) : Fld := ⟨0xA009031C + d * 64, 0, 16⟩
abbrev ETH_PTPd_SPIKE (d : Nat) : Nat := 0xA0090320 + d * 64
abbrev ETH_PTPd_SPIKE.SPIKE (d : Nat) : Fld := ⟨0xA0090320 + d * 64, 0, 32⟩
abbrev ETH_SFPk_CMD (k : Nat) : Nat := 0xA0090400 + k * 16
abbrev ETH_SFPk_CMD.STATUS (k : Nat) : Fld := ⟨0xA0090400 + k * 16, 24, 8⟩
abbrev ETH_SFPk_CMD.PEND (k : Nat) : Fld := ⟨0xA0090400 + k * 16, 23, 1⟩
abbrev ETH_SFPk_CMD.FAST (k : Nat) : Fld := ⟨0xA0090400 + k * 16, 22, 1⟩
abbrev ETH_SFPk_CMD.WRITE (k : Nat) : Fld := ⟨0xA0090400 + k * 16, 21, 1⟩
abbrev ETH_SFPk_CMD.LEN (k : Nat) : Fld := ⟨0xA0090400 + k * 16, 18, 3⟩
abbrev ETH_SFPk_CMD.DEV (k : Nat) : Fld := ⟨0xA0090400 + k * 16, 8, 8⟩
abbrev ETH_SFPk_CMD.REG (k : Nat) : Fld := ⟨0xA0090400 + k * 16, 0, 8⟩
abbrev ETH_DESTi_CFG (i : Nat) : Nat := 0xA0090800 + i * 32
abbrev ETH_DESTi_CFG.VALID (i : Nat) : Fld := ⟨0xA0090800 + i * 32, 31, 1⟩
abbrev ETH_DESTi_CFG.FAMILY (i : Nat) : Fld := ⟨0xA0090800 + i * 32, 29, 2⟩
abbrev ETH_DESTi_CFG.UDP_PORT (i : Nat) : Fld := ⟨0xA0090800 + i * 32, 0, 16⟩
abbrev ETH_DESTi_MAC_LO (i : Nat) : Nat := 0xA0090804 + i * 32
abbrev ETH_DESTi_MAC_LO.MAC_LO (i : Nat) : Fld := ⟨0xA0090804 + i * 32, 0, 32⟩
abbrev ETH_DESTi_MAC_HI (i : Nat) : Nat := 0xA0090808 + i * 32
abbrev ETH_DESTi_MAC_HI.MAC_HI (i : Nat) : Fld := ⟨0xA0090808 + i * 32, 0, 16⟩
abbrev ETH_DESTi_IP0 (i : Nat) : Nat := 0xA0090810 + i * 32
abbrev ETH_DESTi_IP0.IP (i : Nat) : Fld := ⟨0xA0090810 + i * 32, 0, 32⟩
abbrev ETH_DESTi_IP1 (i : Nat) : Nat := 0xA0090814 + i * 32
abbrev ETH_DESTi_IP1.IP (i : Nat) : Fld := ⟨0xA0090814 + i * 32, 0, 32⟩
abbrev ETH_DESTi_IP2 (i : Nat) : Nat := 0xA0090818 + i * 32
abbrev ETH_DESTi_IP2.IP (i : Nat) : Fld := ⟨0xA0090818 + i * 32, 0, 32⟩
abbrev ETH_DESTi_IP3 (i : Nat) : Nat := 0xA009081C + i * 32
abbrev ETH_DESTi_IP3.IP (i : Nat) : Fld := ⟨0xA009081C + i * 32, 0, 32⟩
abbrev ETH_SFPk_DATA0 (k : Nat) : Nat := 0xA0090404 + k * 16
abbrev ETH_SFPk_DATA0.DATA (k : Nat) : Fld := ⟨0xA0090404 + k * 16, 0, 32⟩
abbrev ETH_SFPk_DATA1 (k : Nat) : Nat := 0xA0090408 + k * 16
abbrev ETH_SFPk_DATA1.DATA (k : Nat) : Fld := ⟨0xA0090408 + k * 16, 0, 32⟩

/-! ### DMC: DRAM controller (spec/13_dram.md R371) -/

abbrev DMC_CTRL : Nat := 0xA00A0000
abbrev DMC_CTRL.LOCK : Fld := ⟨0xA00A0000, 31, 1⟩
abbrev DMC_CFG : Nat := 0xA00A0004
abbrev DMC_CFG.ECC_EN : Fld := ⟨0xA00A0004, 8, 1⟩
abbrev DMC_CFG.BIN : Fld := ⟨0xA00A0004, 0, 2⟩
abbrev DMC_MAP : Nat := 0xA00A0008
abbrev DMC_MAP.GRAIN : Fld := ⟨0xA00A0008, 0, 4⟩
abbrev DMC_CLASS : Nat := 0xA00A000C
abbrev DMC_CLASS.EIGHTH : Fld := ⟨0xA00A000C, 0, 16⟩
abbrev DMC_CMD : Nat := 0xA00A0010
abbrev DMC_CMD.STATUS : Fld := ⟨0xA00A0010, 24, 8⟩
abbrev DMC_CMD.PEND : Fld := ⟨0xA00A0010, 23, 1⟩
abbrev DMC_CMD.OP : Fld := ⟨0xA00A0010, 0, 4⟩
abbrev DMC_STATUS : Nat := 0xA00A0014
abbrev DMC_STATUS.ECC_UE : Fld := ⟨0xA00A0014, 11, 1⟩
abbrev DMC_STATUS.TEMP_ALARM : Fld := ⟨0xA00A0014, 10, 1⟩
abbrev DMC_STATUS.TEMP_HIGH : Fld := ⟨0xA00A0014, 9, 1⟩
abbrev DMC_STATUS.SIZE : Fld := ⟨0xA00A0014, 8, 1⟩
abbrev DMC_STATUS.STATE : Fld := ⟨0xA00A0014, 0, 3⟩
abbrev DMC_TRAINc (c : Nat) : Nat := 0xA00A0020 + c * 4
abbrev DMC_TRAINc.RD_MARGIN (c : Nat) : Fld := ⟨0xA00A0020 + c * 4, 24, 8⟩
abbrev DMC_TRAINc.WR_MARGIN (c : Nat) : Fld := ⟨0xA00A0020 + c * 4, 16, 8⟩
abbrev DMC_TRAINc.FAIL_STEP (c : Nat) : Fld := ⟨0xA00A0020 + c * 4, 8, 4⟩
abbrev DMC_TRAINc.STEP (c : Nat) : Fld := ⟨0xA00A0020 + c * 4, 0, 4⟩
abbrev DMC_REFRESH : Nat := 0xA00A0030
abbrev DMC_REFRESH.OVR_EN : Fld := ⟨0xA00A0030, 31, 1⟩
abbrev DMC_REFRESH.INTERVAL : Fld := ⟨0xA00A0030, 0, 12⟩
abbrev DMC_ARB : Nat := 0xA00A0034
abbrev DMC_ARB.CAP_RESERVE : Fld := ⟨0xA00A0034, 16, 7⟩
abbrev DMC_ARB.W_PROG : Fld := ⟨0xA00A0034, 8, 8⟩
abbrev DMC_ARB.W_ARCH : Fld := ⟨0xA00A0034, 0, 8⟩
abbrev DMC_SCRUB : Nat := 0xA00A0038
abbrev DMC_SCRUB.EN : Fld := ⟨0xA00A0038, 31, 1⟩
abbrev DMC_SCRUB.RATE : Fld := ⟨0xA00A0038, 0, 16⟩
abbrev DMC_SCRUB_POS : Nat := 0xA00A003C
abbrev DMC_SCRUB_POS.ADDR : Fld := ⟨0xA00A003C, 0, 32⟩
abbrev DMC_ECC_CE_CNT : Nat := 0xA00A0040
abbrev DMC_ECC_CE_CNT.VALUE : Fld := ⟨0xA00A0040, 0, 32⟩
abbrev DMC_ECC_UE_CNT : Nat := 0xA00A0044
abbrev DMC_ECC_UE_CNT.VALUE : Fld := ⟨0xA00A0044, 0, 32⟩
abbrev DMC_ECC_CE_ADDR : Nat := 0xA00A0048
abbrev DMC_ECC_CE_ADDR.VALUE : Fld := ⟨0xA00A0048, 0, 32⟩
abbrev DMC_ECC_UE_ADDR : Nat := 0xA00A004C
abbrev DMC_ECC_UE_ADDR.VALUE : Fld := ⟨0xA00A004C, 0, 32⟩
abbrev DMC_OUTSTANDING : Nat := 0xA00A0050
abbrev DMC_OUTSTANDING.PEAK : Fld := ⟨0xA00A0050, 16, 8⟩
abbrev DMC_OUTSTANDING.LEVEL : Fld := ⟨0xA00A0050, 0, 8⟩
abbrev DMC_SR_LAT : Nat := 0xA00A0054
abbrev DMC_SR_LAT.SR_EXIT_REQ : Fld := ⟨0xA00A0054, 16, 16⟩
abbrev DMC_SR_LAT.MAX : Fld := ⟨0xA00A0054, 0, 16⟩
abbrev DMC_PASR : Nat := 0xA00A0058
abbrev DMC_PASR.MR17 : Fld := ⟨0xA00A0058, 0, 8⟩
abbrev DMC_MR4 : Nat := 0xA00A005C
abbrev DMC_MR4.CODE_B : Fld := ⟨0xA00A005C, 4, 3⟩
abbrev DMC_MR4.CODE_A : Fld := ⟨0xA00A005C, 0, 3⟩
abbrev DMC_TRAIN_SAVEk (k : Nat) : Nat := 0xA00A0100 + k * 4
abbrev DMC_TRAIN_SAVEk.VALUE (k : Nat) : Fld := ⟨0xA00A0100 + k * 4, 0, 32⟩

/-! ### TWN: twin (spec/14_twin.md R397) -/

abbrev TWN_CTRL : Nat := 0xA00B0000
abbrev TWN_CTRL.LOCK : Fld := ⟨0xA00B0000, 31, 1⟩
abbrev TWN_CTRL.TAKE_ON_LOSS : Fld := ⟨0xA00B0000, 2, 1⟩
abbrev TWN_CTRL.AUTO_JOIN : Fld := ⟨0xA00B0000, 1, 1⟩
abbrev TWN_CTRL.EN : Fld := ⟨0xA00B0000, 0, 1⟩
abbrev TWN_CFG : Nat := 0xA00B0004
abbrev TWN_CFG.STREAM_ADDR : Fld := ⟨0xA00B0004, 16, 10⟩
abbrev TWN_CFG.LINK_WAIT : Fld := ⟨0xA00B0004, 0, 8⟩
abbrev TWN_CLAIM : Nat := 0xA00B0008
abbrev TWN_CLAIM.PAR : Fld := ⟨0xA00B0008, 31, 1⟩
abbrev TWN_CLAIM.PEER : Fld := ⟨0xA00B0008, 8, 8⟩
abbrev TWN_CLAIM.VALUE : Fld := ⟨0xA00B0008, 0, 8⟩
abbrev TWN_STATUS : Nat := 0xA00B000C
abbrev TWN_STATUS.PEER_STATE : Fld := ⟨0xA00B000C, 16, 3⟩
abbrev TWN_STATUS.SVC_REFUSED : Fld := ⟨0xA00B000C, 15, 1⟩
abbrev TWN_STATUS.RATE_LOW : Fld := ⟨0xA00B000C, 14, 1⟩
abbrev TWN_STATUS.SAFE : Fld := ⟨0xA00B000C, 13, 1⟩
abbrev TWN_STATUS.HOLD_IN : Fld := ⟨0xA00B000C, 12, 1⟩
abbrev TWN_STATUS.HOLD_OUT : Fld := ⟨0xA00B000C, 11, 1⟩
abbrev TWN_STATUS.PINS : Fld := ⟨0xA00B000C, 10, 1⟩
abbrev TWN_STATUS.TOP : Fld := ⟨0xA00B000C, 9, 1⟩
abbrev TWN_STATUS.PEER_VALID : Fld := ⟨0xA00B000C, 8, 1⟩
abbrev TWN_STATUS.LAG : Fld := ⟨0xA00B000C, 4, 1⟩
abbrev TWN_STATUS.STATE : Fld := ⟨0xA00B000C, 0, 3⟩
abbrev TWN_CMD : Nat := 0xA00B0010
abbrev TWN_CMD.STATUS : Fld := ⟨0xA00B0010, 24, 8⟩
abbrev TWN_CMD.PEND : Fld := ⟨0xA00B0010, 23, 1⟩
abbrev TWN_CMD.FORCE : Fld := ⟨0xA00B0010, 8, 1⟩
abbrev TWN_CMD.OP : Fld := ⟨0xA00B0010, 0, 4⟩
abbrev TWN_SWAP_LAP_LO : Nat := 0xA00B0014
abbrev TWN_SWAP_LAP_LO.LAP : Fld := ⟨0xA00B0014, 0, 32⟩
abbrev TWN_SWAP_LAP_HI : Nat := 0xA00B0018
abbrev TWN_SWAP_LAP_HI.LAP : Fld := ⟨0xA00B0018, 0, 32⟩
abbrev TWN_POLICY : Nat := 0xA00B001C
abbrev TWN_POLICY.MM_WINDOW : Fld := ⟨0xA00B001C, 16, 16⟩
abbrev TWN_POLICY.MM_LIMIT : Fld := ⟨0xA00B001C, 8, 4⟩
abbrev TWN_POLICY.POLICY : Fld := ⟨0xA00B001C, 0, 2⟩
abbrev TWN_SELF : Nat := 0xA00B0020
abbrev TWN_SELF.FAULT : Fld := ⟨0xA00B0020, 31, 1⟩
abbrev TWN_SELF.MASK : Fld := ⟨0xA00B0020, 16, 8⟩
abbrev TWN_SELF.CHECKS : Fld := ⟨0xA00B0020, 0, 8⟩
abbrev TWN_MM : Nat := 0xA00B0024
abbrev TWN_MM.COUNT : Fld := ⟨0xA00B0024, 16, 16⟩
abbrev TWN_MM.OPEN : Fld := ⟨0xA00B0024, 0, 4⟩
abbrev TWN_MM_LAP_LO : Nat := 0xA00B0028
abbrev TWN_MM_LAP_LO.LAP : Fld := ⟨0xA00B0028, 0, 32⟩
abbrev TWN_MM_LAP_HI : Nat := 0xA00B002C
abbrev TWN_MM_LAP_HI.LAP : Fld := ⟨0xA00B002C, 0, 32⟩
abbrev TWN_MIRROR : Nat := 0xA00B0030
abbrev TWN_MIRROR.LATE : Fld := ⟨0xA00B0030, 16, 16⟩
abbrev TWN_MIRROR.OVF : Fld := ⟨0xA00B0030, 0, 16⟩
abbrev TWN_JOIN : Nat := 0xA00B0034
abbrev TWN_JOIN.WARM : Fld := ⟨0xA00B0034, 0, 16⟩
abbrev TWN_EXC_GATE : Nat := 0xA00B0038
abbrev TWN_EXC_GATE.BANKS : Fld := ⟨0xA00B0038, 0, 16⟩
abbrev TWN_XCHK_CFG : Nat := 0xA00B003C
abbrev TWN_XCHK_CFG.EN : Fld := ⟨0xA00B003C, 31, 1⟩
abbrev TWN_XCHK_CFG.TOL : Fld := ⟨0xA00B003C, 0, 16⟩
abbrev TWN_XCHKk (k : Nat) : Nat := 0xA00B0040 + k * 4
abbrev TWN_XCHKk.SEEN (k : Nat) : Fld := ⟨0xA00B0040 + k * 4, 0, 32⟩

/-! ### HLT: health (spec/15_errors_ordering.md R413) -/

abbrev HLT_CTRL : Nat := 0xA00C0000
abbrev HLT_CTRL.LOCK : Fld := ⟨0xA00C0000, 31, 1⟩
abbrev HLT_STATUS : Nat := 0xA00C0004
abbrev HLT_STATUS.LOCKSTEP : Fld := ⟨0xA00C0004, 6, 1⟩
abbrev HLT_STATUS.D2D_FAULT : Fld := ⟨0xA00C0004, 5, 1⟩
abbrev HLT_STATUS.SUP_ALARM : Fld := ⟨0xA00C0004, 4, 1⟩
abbrev HLT_STATUS.SUP_WARN : Fld := ⟨0xA00C0004, 3, 1⟩
abbrev HLT_STATUS.TEMP_ALARM : Fld := ⟨0xA00C0004, 2, 1⟩
abbrev HLT_STATUS.TEMP_WARN : Fld := ⟨0xA00C0004, 1, 1⟩
abbrev HLT_CMD : Nat := 0xA00C0008
abbrev HLT_CMD.STATUS : Fld := ⟨0xA00C0008, 24, 8⟩
abbrev HLT_CMD.PEND : Fld := ⟨0xA00C0008, 23, 1⟩
abbrev HLT_CMD.OP : Fld := ⟨0xA00C0008, 0, 4⟩
abbrev HLT_REFUSED : Nat := 0xA00C000C
abbrev HLT_REFUSED.COUNT : Fld := ⟨0xA00C000C, 0, 32⟩
abbrev HLT_REFUSED_LAST : Nat := 0xA00C0010
abbrev HLT_REFUSED_LAST.OFFSET : Fld := ⟨0xA00C0010, 0, 24⟩
abbrev HLT_CLR_MASK0 : Nat := 0xA00C0014
abbrev HLT_CLR_MASK0.CNT : Fld := ⟨0xA00C0014, 0, 32⟩
abbrev HLT_CLR_MASK1 : Nat := 0xA00C0018
abbrev HLT_CLR_MASK1.CNT : Fld := ⟨0xA00C0018, 0, 32⟩
abbrev HLT_TEMPs (s : Nat) : Nat := 0xA00C0040 + s * 4
abbrev HLT_TEMPs.TEMP (s : Nat) : Fld := ⟨0xA00C0040 + s * 4, 0, 16⟩
abbrev HLT_TEMP_LIMITS : Nat := 0xA00C0058
abbrev HLT_TEMP_LIMITS.ALARM : Fld := ⟨0xA00C0058, 8, 8⟩
abbrev HLT_TEMP_LIMITS.WARN : Fld := ⟨0xA00C0058, 0, 8⟩
abbrev HLT_SUPm (m : Nat) : Nat := 0xA00C0080 + m * 4
abbrev HLT_SUPm.ALARM (m : Nat) : Fld := ⟨0xA00C0080 + m * 4, 31, 1⟩
abbrev HLT_SUPm.WARN (m : Nat) : Fld := ⟨0xA00C0080 + m * 4, 30, 1⟩
abbrev HLT_SUPm.VALUE (m : Nat) : Fld := ⟨0xA00C0080 + m * 4, 0, 16⟩
abbrev HLT_SUPm_WARN (m : Nat) : Nat := 0xA00C00C0 + m * 4
abbrev HLT_SUPm_WARN.HIGH (m : Nat) : Fld := ⟨0xA00C00C0 + m * 4, 16, 16⟩
abbrev HLT_SUPm_WARN.LOW (m : Nat) : Fld := ⟨0xA00C00C0 + m * 4, 0, 16⟩
abbrev HLT_SUP_STICKY : Nat := 0xA00C0100
abbrev HLT_SUP_STICKY.ALARM : Fld := ⟨0xA00C0100, 16, 14⟩
abbrev HLT_SUP_STICKY.WARN : Fld := ⟨0xA00C0100, 0, 14⟩
abbrev HLT_D2D : Nat := 0xA00C0110
abbrev HLT_D2D.CE : Fld := ⟨0xA00C0110, 16, 16⟩
abbrev HLT_D2D.UE : Fld := ⟨0xA00C0110, 0, 16⟩
abbrev HLT_D2D_CFG : Nat := 0xA00C0114
abbrev HLT_D2D_CFG.CE_LIMIT : Fld := ⟨0xA00C0114, 0, 16⟩
abbrev HLT_D2D_ALIGN : Nat := 0xA00C0118
abbrev HLT_D2D_ALIGN.MISALIGNED : Fld := ⟨0xA00C0118, 16, 16⟩
abbrev HLT_D2D_ALIGN.ALIGN_ERR : Fld := ⟨0xA00C0118, 15, 1⟩
abbrev HLT_D2D_ALIGN.OFFSET : Fld := ⟨0xA00C0118, 0, 8⟩
abbrev HLT_LOCKSTEP : Nat := 0xA00C011C
abbrev HLT_LOCKSTEP.COUNT : Fld := ⟨0xA00C011C, 16, 16⟩
abbrev HLT_LOCKSTEP.UNITS : Fld := ⟨0xA00C011C, 0, 4⟩
abbrev HLT_INJ_CFG : Nat := 0xA00C0120
abbrev HLT_INJ_CFG.SUP : Fld := ⟨0xA00C0120, 8, 4⟩
abbrev HLT_INJ_CFG.TARGET : Fld := ⟨0xA00C0120, 0, 4⟩
abbrev HLT_INJ_ADDR : Nat := 0xA00C0124
abbrev HLT_INJ_ADDR.LINE : Fld := ⟨0xA00C0124, 6, 26⟩
abbrev HLT_CNTn_CFG (n : Nat) : Nat := 0xA00C1000 + n * 16
abbrev HLT_CNTn_CFG.EN (n : Nat) : Fld := ⟨0xA00C1000 + n * 16, 31, 1⟩
abbrev HLT_CNTn_CFG.THR_EXP (n : Nat) : Fld := ⟨0xA00C1000 + n * 16, 16, 6⟩
abbrev HLT_CNTn_CFG.SRC (n : Nat) : Fld := ⟨0xA00C1000 + n * 16, 0, 9⟩
abbrev HLT_CNTn_COUNT_LO (n : Nat) : Nat := 0xA00C1004 + n * 16
abbrev HLT_CNTn_COUNT_LO.COUNT_LO (n : Nat) : Fld := ⟨0xA00C1004 + n * 16, 0, 32⟩
abbrev HLT_CNTn_COUNT_HI (n : Nat) : Nat := 0xA00C1008 + n * 16
abbrev HLT_CNTn_COUNT_HI.COUNT_HI (n : Nat) : Fld := ⟨0xA00C1008 + n * 16, 0, 16⟩

/-! ### LDG: Ledger (spec/16_power_boot.md R439) -/

abbrev LDG_CTRL : Nat := 0xA00D0000
abbrev LDG_CTRL.LOCK : Fld := ⟨0xA00D0000, 31, 1⟩
abbrev LDG_CTRL.HOURS_EN : Fld := ⟨0xA00D0000, 1, 1⟩
abbrev LDG_CTRL.JRNL_EN : Fld := ⟨0xA00D0000, 0, 1⟩
abbrev LDG_STATUS : Nat := 0xA00D0004
abbrev LDG_STATUS.WRITE_ERR : Fld := ⟨0xA00D0004, 1, 1⟩
abbrev LDG_STATUS.WEAR : Fld := ⟨0xA00D0004, 0, 1⟩
abbrev LDG_CMD : Nat := 0xA00D0008
abbrev LDG_CMD.STATUS : Fld := ⟨0xA00D0008, 24, 8⟩
abbrev LDG_CMD.PEND : Fld := ⟨0xA00D0008, 23, 1⟩
abbrev LDG_CMD.OP : Fld := ⟨0xA00D0008, 0, 4⟩
abbrev LDG_XFER_OFS : Nat := 0xA00D000C
abbrev LDG_XFER_OFS.VALUE : Fld := ⟨0xA00D000C, 0, 32⟩
abbrev LDG_XFER_MEM : Nat := 0xA00D0010
abbrev LDG_XFER_MEM.VALUE : Fld := ⟨0xA00D0010, 0, 32⟩
abbrev LDG_XFER_LEN : Nat := 0xA00D0014
abbrev LDG_XFER_LEN.VALUE : Fld := ⟨0xA00D0014, 0, 32⟩
abbrev LDG_PROT : Nat := 0xA00D0018
abbrev LDG_PROT.REGION : Fld := ⟨0xA00D0018, 0, 8⟩
abbrev LDG_WEAR_THR : Nat := 0xA00D001C
abbrev LDG_WEAR_THR.THR : Fld := ⟨0xA00D001C, 0, 32⟩
abbrev LDG_JRNL_MASKk (k : Nat) : Nat := 0xA00D0020 + k * 4
abbrev LDG_JRNL_MASKk.EVENTS (k : Nat) : Fld := ⟨0xA00D0020 + k * 4, 0, 32⟩
abbrev LDG_JRNL_HEAD : Nat := 0xA00D0030
abbrev LDG_JRNL_HEAD.WRAPS : Fld := ⟨0xA00D0030, 16, 16⟩
abbrev LDG_JRNL_HEAD.NEXT : Fld := ⟨0xA00D0030, 0, 13⟩
abbrev LDG_HOURS : Nat := 0xA00D0034
abbrev LDG_HOURS.RUN : Fld := ⟨0xA00D0034, 0, 32⟩
abbrev LDG_WEARr (r : Nat) : Nat := 0xA00D0040 + r * 4
abbrev LDG_WEARr.MAX (r : Nat) : Fld := ⟨0xA00D0040 + r * 4, 0, 32⟩

/-! ### SVC: service pins (spec/16_power_boot.md R439) -/

abbrev SVC_CTRL : Nat := 0xA00E0000
abbrev SVC_CTRL.LOCK : Fld := ⟨0xA00E0000, 31, 1⟩
abbrev SVC_BTN : Nat := 0xA00E0004
abbrev SVC_BTN.HELD_SEEN : Fld := ⟨0xA00E0004, 2, 1⟩
abbrev SVC_BTN.PRESS_SEEN : Fld := ⟨0xA00E0004, 1, 1⟩
abbrev SVC_BTN.PRESSED : Fld := ⟨0xA00E0004, 0, 1⟩
abbrev SVC_LED : Nat := 0xA00E0008
abbrev SVC_LED.SW : Fld := ⟨0xA00E0008, 31, 1⟩
abbrev SVC_LED.INDICATION : Fld := ⟨0xA00E0008, 16, 4⟩
abbrev SVC_LED.LEDS : Fld := ⟨0xA00E0008, 0, 3⟩
abbrev SVC_GPIO_DIR : Nat := 0xA00E0010
abbrev SVC_GPIO_DIR.PINS : Fld := ⟨0xA00E0010, 0, 8⟩
abbrev SVC_GPIO_OUT : Nat := 0xA00E0014
abbrev SVC_GPIO_OUT.PINS : Fld := ⟨0xA00E0014, 0, 8⟩
abbrev SVC_GPIO_IN : Nat := 0xA00E0018
abbrev SVC_GPIO_IN.PINS : Fld := ⟨0xA00E0018, 0, 8⟩
abbrev SVC_GPIO_EDGE : Nat := 0xA00E001C
abbrev SVC_GPIO_EDGE.EDGE : Fld := ⟨0xA00E001C, 0, 16⟩
abbrev SVC_SPI_STATUS : Nat := 0xA00E0020
abbrev SVC_SPI_STATUS.FRAME_ERRS : Fld := ⟨0xA00E0020, 16, 16⟩
abbrev SVC_SPI_STATUS.OVF : Fld := ⟨0xA00E0020, 8, 1⟩
abbrev SVC_SPI_STATUS.LEVEL : Fld := ⟨0xA00E0020, 0, 5⟩
abbrev SVC_SPI_DROPPED : Nat := 0xA00E0024
abbrev SVC_SPI_DROPPED.COUNT : Fld := ⟨0xA00E0024, 0, 32⟩

end Sys2Proof.Machine
end

