-- ==== Sys2Proof/Machine/RegTable.lean ====
section
/-!
DEFINITION. The access types of the register map as bit masks (spec/00_scope.md R8), one row per register kind, and the
reset words that are not zero (R9). A bit that no mask names is ro or reserved.
-/
namespace Sys2Proof.Machine

/-- One register kind: where it stands (base, and up to two index ranges with their strides) and the access masks. -/
structure RegRow where
  base : Nat
  n1 : Nat
  s1 : Nat
  n2 : Nat
  s2 : Nat
  rw : Nat
  rwl : Nat
  w1c : Nat
  rc : Nat
  wo : Nat
deriving DecidableEq, Repr

def rowsTOPA : List RegRow := [
  ⟨0xA0000000, 1, 4, 1, 4, 0x0, 0x0, 0x0, 0x0, 0x0⟩,
  ⟨0xA0000004, 1, 4, 1, 4, 0x0, 0x0, 0x0, 0x0, 0x0⟩,
  ⟨0xA0000200, 1, 4, 1, 4, 0x0, 0x0, 0x0, 0x0, 0x37F⟩,
  ⟨0xA0000204, 1, 4, 1, 4, 0x0, 0x0, 0x0, 0xFFFFFFFF, 0x0⟩,
  ⟨0xA0000208, 1, 4, 1, 4, 0x0, 0x0, 0x0, 0xFFFFFFFF, 0x0⟩,
  ⟨0xA0000400, 5, 128, 1, 4, 0x0, 0x0, 0x0, 0x0, 0x0⟩,
  ⟨0xA0000404, 4, 128, 1, 4, 0xFFFFFFFC, 0x0, 0x0, 0x0, 0x0⟩,
  ⟨0xA0000408, 5, 128, 1, 4, 0x0, 0x0, 0x0, 0x0, 0x0⟩,
  ⟨0xA000040C, 5, 128, 1, 4, 0x0, 0x0, 0x0, 0x0, 0x0⟩,
  ⟨0xA0000410, 5, 128, 1, 4, 0x0, 0x0, 0x0, 0xFFFFFFFF, 0x0⟩,
  ⟨0xA0000414, 5, 128, 1, 4, 0x0, 0x0, 0x0, 0xFFFFFFFF, 0x0⟩,
  ⟨0xA0000418, 5, 128, 1, 4, 0x0, 0x0, 0x0, 0x0, 0x0⟩,
  ⟨0xA0000420, 5, 128, 8, 4, 0xFFFFFFFF, 0x0, 0x0, 0x0, 0x0⟩,
  ⟨0xA0000440, 5, 128, 8, 4, 0x0, 0x0, 0xFFFFFFFF, 0x0, 0x0⟩,
  ⟨0xA0000460, 5, 128, 8, 4, 0xFFFFFFFF, 0x0, 0x0, 0x0, 0x0⟩,
  ⟨0xA0000800, 65, 4, 1, 4, 0x0, 0x0, 0x300, 0xFFFF0000, 0x0⟩,
  ⟨0xA0000A00, 64, 8, 1, 4, 0xC3FFFFFF, 0x0, 0x0, 0x0, 0x0⟩,
  ⟨0xA0000A04, 64, 8, 1, 4, 0x0, 0x0, 0x0, 0x0, 0x0⟩,
  ⟨0xA0000008, 1, 4, 1, 4, 0x0, 0x80000000, 0x0, 0x0, 0x0⟩,
  ⟨0xA0000010, 1, 4, 1, 4, 0x0, 0x0, 0x0, 0x0, 0x0⟩]

def rowsTOPB : List RegRow := [
  ⟨0xA0000014, 1, 4, 1, 4, 0x0, 0x0, 0x0, 0x0, 0xF⟩,
  ⟨0xA0000018, 1, 4, 1, 4, 0xF000000F, 0x0, 0x0, 0x0, 0x0⟩,
  ⟨0xA000001C, 1, 4, 1, 4, 0x0, 0x0, 0xF000010F, 0x0, 0x0⟩,
  ⟨0xA0000020, 1, 4, 1, 4, 0xFFFFFFFF, 0x0, 0x0, 0x0, 0x0⟩,
  ⟨0xA0000024, 1, 4, 1, 4, 0x0, 0x0, 0x1FF, 0x0, 0x0⟩,
  ⟨0xA0000028, 1, 4, 1, 4, 0x0, 0x0, 0x0, 0x0, 0xFF03⟩,
  ⟨0xA000002C, 1, 4, 1, 4, 0x0, 0x1, 0x0, 0x0, 0x0⟩,
  ⟨0xA0000030, 1, 4, 1, 4, 0x0, 0xC000FFFF, 0x0, 0x0, 0x20000000⟩,
  ⟨0xA0000040, 1, 4, 1, 4, 0x0, 0x0, 0x0, 0x0, 0x0⟩,
  ⟨0xA0000044, 1, 4, 1, 4, 0x0, 0x0, 0x0, 0x0, 0x0⟩,
  ⟨0xA0000080, 8, 4, 1, 4, 0xFFFFFFFF, 0x0, 0x0, 0x0, 0x0⟩]

/-- Rows of block TOP. -/
def rowsTOP : List RegRow := rowsTOPA ++ rowsTOPB

def rowsAFEA : List RegRow := [
  ⟨0xA0010000, 1, 4, 1, 4, 0x0, 0x80000000, 0x0, 0x0, 0x0⟩,
  ⟨0xA0010004, 1, 4, 1, 4, 0x0, 0x0, 0x0, 0x0, 0x0⟩,
  ⟨0xA0010008, 1, 4, 1, 4, 0xFFFF000F, 0x0, 0x0, 0x0, 0x0⟩,
  ⟨0xA001000C, 1, 4, 1, 4, 0x0, 0x0, 0x0, 0x0, 0xFFFF⟩,
  ⟨0xA0010010, 1, 4, 1, 4, 0x0, 0x0, 0xFFFF0000, 0x0, 0x0⟩,
  ⟨0xA0010040, 8, 4, 1, 4, 0x0, 0x0, 0x0, 0x0, 0x0⟩,
  ⟨0xA0010060, 8, 4, 1, 4, 0x0, 0x0, 0xFFFFFFFF, 0x0, 0x0⟩,
  ⟨0xA0010080, 8, 4, 1, 4, 0x0, 0x0, 0x0, 0x0, 0x0⟩,
  ⟨0xA0010100, 16, 64, 1, 4, 0xFF00FFFF, 0x0, 0x0, 0x0, 0x0⟩,
  ⟨0xA0010104, 16, 64, 1, 4, 0x0, 0x0, 0x0, 0x0, 0x0⟩,
  ⟨0xA0010108, 16, 64, 1, 4, 0xFFFFFF00, 0x0, 0x0, 0x0, 0x0⟩,
  ⟨0xA001010C, 16, 64, 1, 4, 0xFFFF, 0x0, 0x0, 0x0, 0x0⟩,
  ⟨0xA0010110, 16, 64, 1, 4, 0x0, 0xC0FF0FFF, 0x0, 0x0, 0x0⟩,
  ⟨0xA0010114, 16, 64, 1, 4, 0x0, 0xFFFFFFFF, 0x0, 0x0, 0x0⟩,
  ⟨0xA0010118, 16, 64, 1, 4, 0x0, 0x3FF, 0x0, 0x0, 0x0⟩,
  ⟨0xA001011C, 16, 64, 1, 4, 0x0, 0x0, 0x0, 0x0, 0x0⟩,
  ⟨0xA0010120, 16, 64, 1, 4, 0x0, 0x0, 0x0, 0x0, 0x0⟩,
  ⟨0xA0010124, 16, 64, 1, 4, 0x0, 0x0, 0x0, 0x0, 0x0⟩,
  ⟨0xA0010128, 16, 64, 1, 4, 0x0, 0x0, 0xE0, 0x0, 0x0⟩,
  ⟨0xA001012C, 16, 64, 1, 4, 0x0, 0x0, 0x0, 0x0, 0xF⟩]

/-- Rows of block AFE. -/
def rowsAFE : List RegRow := rowsAFEA

def rowsCNVA : List RegRow := [
  ⟨0xA0020000, 1, 4, 1, 4, 0x0, 0x80000000, 0x0, 0x0, 0x0⟩,
  ⟨0xA0020004, 1, 4, 1, 4, 0x0, 0x0, 0x2, 0x0, 0x0⟩,
  ⟨0xA0020008, 1, 4, 1, 4, 0x1, 0x0, 0x0, 0x0, 0x0⟩,
  ⟨0xA002000C, 1, 4, 1, 4, 0x80000000, 0xFF00, 0x0, 0x0, 0x0⟩,
  ⟨0xA0020010, 1, 4, 1, 4, 0x0, 0x0, 0x0, 0x0, 0x1F0F⟩,
  ⟨0xA0020014, 1, 4, 1, 4, 0x0, 0x0, 0x0, 0x0, 0x0⟩,
  ⟨0xA0020018, 1, 4, 1, 4, 0x0, 0x0, 0x0, 0x0, 0x0⟩,
  ⟨0xA002001C, 1, 4, 1, 4, 0x0, 0x0, 0x0, 0x0, 0x0⟩,
  ⟨0xA0020020, 1, 4, 1, 4, 0x0, 0x0, 0x0, 0x0, 0x0⟩,
  ⟨0xA0020024, 1, 4, 1, 4, 0x0, 0x0, 0x0, 0x0, 0x0⟩,
  ⟨0xA0020028, 1, 4, 1, 4, 0x0, 0x0, 0x0, 0x0, 0x0⟩,
  ⟨0xA002002C, 1, 4, 1, 4, 0x0, 0x0, 0x0, 0x0, 0x0⟩,
  ⟨0xA0020030, 4, 4, 1, 4, 0x0, 0x0, 0x0, 0x0, 0x0⟩,
  ⟨0xA0020040, 1, 4, 1, 4, 0x0, 0x0, 0x0, 0x0, 0xFFFF⟩,
  ⟨0xA0020060, 8, 4, 1, 4, 0x0, 0x0, 0xFFFFFFFF, 0x0, 0x0⟩,
  ⟨0xA0020100, 17, 4, 1, 4, 0x0, 0x0, 0x3, 0x0, 0x0⟩,
  ⟨0xA0021000, 17, 64, 1, 4, 0xFFFFFFFF, 0x0, 0x0, 0x0, 0x0⟩,
  ⟨0xA0021004, 17, 64, 1, 4, 0xFFFFFFFF, 0x0, 0x0, 0x0, 0x0⟩,
  ⟨0xA0021008, 17, 64, 1, 4, 0xFFFFFFFF, 0x0, 0x0, 0x0, 0x0⟩,
  ⟨0xA002100C, 17, 64, 1, 4, 0xFFFFFFFF, 0x0, 0x0, 0x0, 0x0⟩]

def rowsCNVB : List RegRow := [
  ⟨0xA0021010, 17, 64, 1, 4, 0xFFFFFFFF, 0x0, 0x0, 0x0, 0x0⟩,
  ⟨0xA0021014, 17, 64, 1, 4, 0xFFFFFFFF, 0x0, 0x0, 0x0, 0x0⟩,
  ⟨0xA0021018, 17, 64, 1, 4, 0xFFFFFFFF, 0x0, 0x0, 0x0, 0x0⟩,
  ⟨0xA002101C, 17, 64, 1, 4, 0xFFFFFFFF, 0x0, 0x0, 0x0, 0x0⟩,
  ⟨0xA0021020, 17, 64, 1, 4, 0xFFFFFFFF, 0x0, 0x0, 0x0, 0x0⟩,
  ⟨0xA0021024, 17, 64, 1, 4, 0xFFFFFFFF, 0x0, 0x0, 0x0, 0x0⟩,
  ⟨0xA0021028, 17, 64, 1, 4, 0xFFFFFFFF, 0x0, 0x0, 0x0, 0x0⟩,
  ⟨0xA002102C, 17, 64, 1, 4, 0xFFFFFFFF, 0x0, 0x0, 0x0, 0x0⟩,
  ⟨0xA0021030, 17, 64, 1, 4, 0xFFFFFFFF, 0x0, 0x0, 0x0, 0x0⟩,
  ⟨0xA0021034, 17, 64, 1, 4, 0xFFFFFFFF, 0x0, 0x0, 0x0, 0x0⟩,
  ⟨0xA0021038, 17, 64, 1, 4, 0xFFFFFFFF, 0x0, 0x0, 0x0, 0x0⟩,
  ⟨0xA002103C, 17, 64, 1, 4, 0xFFFFFFFF, 0x0, 0x0, 0x0, 0x0⟩,
  ⟨0xA0022000, 256, 4, 1, 4, 0xFFFF, 0x0, 0x0, 0x0, 0x0⟩,
  ⟨0xA0022400, 256, 4, 1, 4, 0xFFFFFFFF, 0x0, 0x0, 0x0, 0x0⟩]

/-- Rows of block CNV. -/
def rowsCNV : List RegRow := rowsCNVA ++ rowsCNVB

def rowsREDA : List RegRow := [
  ⟨0xA0030000, 1, 4, 1, 4, 0x1, 0x80000000, 0x0, 0x0, 0x0⟩,
  ⟨0xA0030004, 1, 4, 1, 4, 0x0, 0x0, 0x300, 0x0, 0x0⟩,
  ⟨0xA0030008, 1, 4, 1, 4, 0x0, 0x0, 0x0, 0x0, 0xFF1F⟩,
  ⟨0xA003000C, 1, 4, 1, 4, 0xFFFFFF, 0x0, 0x0, 0x0, 0x0⟩,
  ⟨0xA0030010, 1, 4, 1, 4, 0x0, 0x0, 0x0, 0x0, 0x0⟩,
  ⟨0xA0030014, 1, 4, 1, 4, 0x0, 0x0, 0x0, 0x0, 0x0⟩,
  ⟨0xA0030020, 8, 4, 1, 4, 0xFFFFFFFF, 0x0, 0x0, 0x0, 0x0⟩,
  ⟨0xA0030040, 1, 4, 1, 4, 0x0, 0x0, 0x0, 0xFFFF0000, 0x0⟩,
  ⟨0xA0030044, 1, 4, 1, 4, 0x0, 0x0, 0x0, 0xFFFFFFFF, 0x0⟩,
  ⟨0xA0030048, 1, 4, 1, 4, 0x0, 0x0, 0x0, 0xFFFFFFFF, 0x0⟩,
  ⟨0xA003004C, 1, 4, 1, 4, 0x0, 0x0, 0x0, 0xFFFFFFFF, 0x0⟩]

/-- Rows of block RED. -/
def rowsRED : List RegRow := rowsREDA

def rowsACQA : List RegRow := [
  ⟨0xA0040000, 1, 4, 1, 4, 0x0, 0x80000000, 0x0, 0x0, 0x0⟩,
  ⟨0xA0040004, 1, 4, 1, 4, 0x0, 0x0, 0x0, 0x0, 0x0⟩,
  ⟨0xA0040008, 1, 4, 1, 4, 0x0, 0xFFFFF30, 0x0, 0x0, 0x0⟩,
  ⟨0xA004000C, 1, 4, 1, 4, 0x0, 0x0, 0x0, 0x0, 0x0⟩,
  ⟨0xA0040010, 1, 4, 1, 4, 0x0, 0x0, 0x0, 0x0, 0x0⟩,
  ⟨0xA0040014, 1, 4, 1, 4, 0x0, 0x0, 0x0, 0x0, 0x0⟩,
  ⟨0xA0040018, 1, 4, 1, 4, 0x0, 0x0, 0x0, 0xFFFFFFFF, 0x0⟩,
  ⟨0xA0040100, 8, 16, 1, 4, 0x0, 0xFFFF0033, 0x0, 0x0, 0x0⟩,
  ⟨0xA0040104, 8, 16, 1, 4, 0x0, 0x0, 0x0, 0x0, 0x0⟩,
  ⟨0xA0040108, 8, 16, 1, 4, 0x0, 0x0, 0x0, 0x0, 0x0⟩,
  ⟨0xA004010C, 8, 16, 1, 4, 0x0, 0x0, 0x0, 0x0, 0x0⟩,
  ⟨0xA0041000, 64, 128, 1, 4, 0xFFFF01FF, 0x0, 0x0, 0x0, 0x0⟩,
  ⟨0xA0041004, 64, 128, 1, 4, 0xFF1FE0FF, 0x0, 0x0, 0x0, 0x0⟩,
  ⟨0xA0041008, 64, 128, 8, 4, 0xFFFFFFFF, 0x0, 0x0, 0x0, 0x0⟩,
  ⟨0xA0041028, 64, 128, 1, 4, 0xFFFFF000, 0x0, 0x0, 0x0, 0x0⟩,
  ⟨0xA004102C, 64, 128, 1, 4, 0xFFFFF000, 0x0, 0x0, 0x0, 0x0⟩,
  ⟨0xA0041030, 64, 128, 1, 4, 0xFFFFFFFF, 0x0, 0x0, 0x0, 0x0⟩,
  ⟨0xA0041034, 64, 128, 1, 4, 0xFFFFFFFF, 0x0, 0x0, 0x0, 0x0⟩,
  ⟨0xA0041038, 64, 128, 1, 4, 0xFFFFFFFF, 0x0, 0x0, 0x0, 0x0⟩,
  ⟨0xA004103C, 64, 128, 1, 4, 0xFFFFF000, 0x0, 0x0, 0x0, 0x0⟩]

def rowsACQB : List RegRow := [
  ⟨0xA0041040, 64, 128, 1, 4, 0xFFFFF000, 0x0, 0x0, 0x0, 0x0⟩,
  ⟨0xA0041044, 64, 128, 1, 4, 0x3F, 0x0, 0x0, 0x0, 0x0⟩,
  ⟨0xA0041048, 64, 128, 1, 4, 0xF00FFFFF, 0x0, 0x0, 0x0, 0x0⟩,
  ⟨0xA0041050, 64, 128, 1, 4, 0x0, 0x0, 0x0, 0x0, 0xF⟩,
  ⟨0xA0041054, 64, 128, 1, 4, 0x0, 0x0, 0x300, 0xFFFF0000, 0x0⟩,
  ⟨0xA0041058, 64, 128, 1, 4, 0x0, 0x0, 0x0, 0x0, 0x0⟩,
  ⟨0xA004105C, 64, 128, 1, 4, 0x0, 0x0, 0x0, 0x0, 0x0⟩,
  ⟨0xA0041060, 64, 128, 1, 4, 0x0, 0x0, 0xFFFFFFFF, 0x0, 0x0⟩,
  ⟨0xA0041064, 64, 128, 1, 4, 0x0, 0x0, 0x0, 0x0, 0x0⟩,
  ⟨0xA0041068, 64, 128, 1, 4, 0x0, 0x0, 0x0, 0x0, 0x0⟩,
  ⟨0xA004106C, 64, 128, 1, 4, 0x0, 0x0, 0x0, 0xFFFFFFFF, 0x0⟩,
  ⟨0xA0041070, 64, 128, 1, 4, 0x0, 0x0, 0x0, 0x0, 0x0⟩,
  ⟨0xA0044000, 64, 256, 16, 16, 0x0, 0x0, 0x0, 0x0, 0x0⟩,
  ⟨0xA0044004, 64, 256, 16, 16, 0x0, 0x0, 0x0, 0x0, 0x0⟩,
  ⟨0xA0044008, 64, 256, 16, 16, 0x0, 0x0, 0x0, 0x0, 0x0⟩]

/-- Rows of block ACQ. -/
def rowsACQ : List RegRow := rowsACQA ++ rowsACQB

def rowsTBSA : List RegRow := [
  ⟨0xA0050000, 1, 4, 1, 4, 0xF003, 0x80000FFC, 0x0, 0x0, 0x0⟩,
  ⟨0xA0050004, 1, 4, 1, 4, 0x0, 0x0, 0x0, 0x0, 0x0⟩,
  ⟨0xA0050008, 1, 4, 1, 4, 0x0, 0x0, 0x0, 0x0, 0xF⟩,
  ⟨0xA0050010, 1, 4, 1, 4, 0x0, 0x0, 0x0, 0x0, 0x0⟩,
  ⟨0xA0050014, 1, 4, 1, 4, 0x0, 0x0, 0x0, 0x0, 0x0⟩,
  ⟨0xA0050018, 1, 4, 1, 4, 0x0, 0x0, 0x0, 0x0, 0x0⟩,
  ⟨0xA005001C, 1, 4, 1, 4, 0x0, 0x0, 0x0, 0x0, 0x0⟩,
  ⟨0xA0050020, 1, 4, 1, 4, 0x0, 0x0, 0x0, 0x0, 0x0⟩,
  ⟨0xA0050024, 1, 4, 1, 4, 0xFFFFFFFF, 0x0, 0x0, 0x0, 0x0⟩,
  ⟨0xA0050028, 1, 4, 1, 4, 0xFFFFFFFF, 0x0, 0x0, 0x0, 0x0⟩,
  ⟨0xA005002C, 1, 4, 1, 4, 0x0, 0x0, 0x0, 0x0, 0x0⟩,
  ⟨0xA0050030, 1, 4, 1, 4, 0x0, 0x0, 0x0, 0x0, 0x0⟩,
  ⟨0xA0050034, 1, 4, 1, 4, 0x0, 0x0, 0x0, 0x0, 0x0⟩,
  ⟨0xA0050038, 1, 4, 1, 4, 0x0, 0x0, 0x0, 0x0, 0x0⟩,
  ⟨0xA0050100, 4, 64, 1, 4, 0x8FFF3EC3, 0x0, 0x0, 0x0, 0x0⟩,
  ⟨0xA0050104, 4, 64, 1, 4, 0xFFFFFFFF, 0x0, 0x0, 0x0, 0x0⟩,
  ⟨0xA0050108, 4, 64, 1, 4, 0x0, 0x0, 0x0, 0x0, 0x0⟩,
  ⟨0xA005010C, 4, 64, 1, 4, 0x0, 0x0, 0x0, 0x0, 0x0⟩,
  ⟨0xA0050110, 4, 64, 1, 4, 0x0, 0x0, 0x0, 0x0, 0x0⟩,
  ⟨0xA0050114, 4, 64, 1, 4, 0xFFFFFFFF, 0x0, 0x0, 0x0, 0x0⟩]

def rowsTBSB : List RegRow := [
  ⟨0xA0050118, 4, 64, 1, 4, 0xFFFF, 0x0, 0x0, 0x0, 0x0⟩,
  ⟨0xA005011C, 4, 64, 1, 4, 0x0, 0x0, 0x0, 0x0, 0x0⟩,
  ⟨0xA0050120, 4, 64, 1, 4, 0x0, 0x0, 0x0, 0x0, 0x0⟩,
  ⟨0xA0050124, 4, 64, 1, 4, 0xFFFFFFFF, 0x0, 0x0, 0x0, 0x0⟩,
  ⟨0xA0050128, 4, 64, 1, 4, 0x0, 0x0, 0xF0, 0xFFFF0000, 0x0⟩,
  ⟨0xA005012C, 4, 64, 1, 4, 0x0, 0x0, 0x0, 0x0, 0xF⟩,
  ⟨0xA0050130, 4, 64, 1, 4, 0x0, 0x0, 0x0, 0x0, 0x0⟩,
  ⟨0xA0050200, 1, 4, 1, 4, 0x800101FF, 0x0, 0x0, 0x0, 0x0⟩,
  ⟨0xA0050204, 1, 4, 1, 4, 0x0, 0x0, 0x0, 0x0, 0x0⟩,
  ⟨0xA0050208, 1, 4, 1, 4, 0x0, 0x0, 0x0, 0x0, 0x0⟩,
  ⟨0xA005020C, 1, 4, 1, 4, 0x0, 0x0, 0x0, 0x0, 0x0⟩,
  ⟨0xA0050210, 1, 4, 1, 4, 0x0, 0x0, 0x8, 0x0, 0x0⟩,
  ⟨0xA0050300, 1, 4, 1, 4, 0x1, 0x0, 0x0, 0x0, 0x0⟩,
  ⟨0xA0050304, 1, 4, 1, 4, 0x0, 0x0, 0x0, 0x0, 0x0⟩,
  ⟨0xA0050308, 1, 4, 1, 4, 0x0, 0x0, 0x0, 0x0, 0xFF⟩,
  ⟨0xA005030C, 1, 4, 1, 4, 0x0, 0x0, 0x0, 0xFFFFFFFF, 0x0⟩,
  ⟨0xA0050310, 1, 4, 1, 4, 0x0, 0x0, 0x0, 0xFFFFFFFF, 0x0⟩,
  ⟨0xA0050314, 1, 4, 1, 4, 0x0, 0x0, 0x0, 0xFFFFFFFF, 0x0⟩,
  ⟨0xA0050318, 1, 4, 1, 4, 0x0, 0x0, 0x0, 0xFFFFFFFF, 0x0⟩,
  ⟨0xA005031C, 1, 4, 1, 4, 0x0, 0x0, 0x0, 0x0, 0x0⟩]

def rowsTBSC : List RegRow := [
  ⟨0xA0050800, 32, 16, 1, 4, 0x0, 0x0, 0x0, 0x0, 0x0⟩,
  ⟨0xA0050804, 32, 16, 1, 4, 0x0, 0x0, 0x0, 0x0, 0x0⟩,
  ⟨0xA0050808, 32, 16, 1, 4, 0x0, 0x0, 0x0, 0x0, 0x0⟩,
  ⟨0xA005080C, 32, 16, 1, 4, 0x0, 0x0, 0x0, 0x0, 0x0⟩]

/-- Rows of block TBS. -/
def rowsTBS : List RegRow := rowsTBSA ++ rowsTBSB ++ rowsTBSC

def rowsCTLA : List RegRow := [
  ⟨0xA0060000, 1, 4, 1, 4, 0x3, 0x80000000, 0x0, 0x0, 0x0⟩,
  ⟨0xA0060004, 1, 4, 1, 4, 0x0, 0x0, 0x0, 0xFFFFFF00, 0x0⟩,
  ⟨0xA0060008, 1, 4, 1, 4, 0x0, 0x0, 0x0, 0x0, 0x1F0F⟩,
  ⟨0xA006000C, 1, 4, 1, 4, 0xFFFFFFFF, 0x0, 0x0, 0x0, 0x0⟩,
  ⟨0xA0060010, 1, 4, 1, 4, 0x0, 0x0, 0x0, 0x0, 0x0⟩,
  ⟨0xA0060014, 1, 4, 1, 4, 0x0, 0x0, 0xFFFFFFFF, 0x0, 0x0⟩,
  ⟨0xA0060040, 8, 8, 1, 4, 0x0, 0x0, 0x0, 0x0, 0x0⟩,
  ⟨0xA0060044, 8, 8, 1, 4, 0x0, 0x0, 0x0, 0x0, 0x0⟩,
  ⟨0xA0060100, 1, 4, 1, 4, 0xFF03311F, 0x0, 0x0, 0x0, 0x0⟩,
  ⟨0xA0060104, 1, 4, 1, 4, 0xFFFFFFFF, 0x0, 0x0, 0x0, 0x0⟩,
  ⟨0xA0060108, 1, 4, 1, 4, 0xFFFFFFFF, 0x0, 0x0, 0x0, 0x0⟩,
  ⟨0xA006010C, 1, 4, 1, 4, 0xFFFFFFFF, 0x0, 0x0, 0x0, 0x0⟩,
  ⟨0xA0060110, 1, 4, 1, 4, 0xFFFFFFFF, 0x0, 0x0, 0x0, 0x0⟩,
  ⟨0xA0060114, 1, 4, 1, 4, 0x1FFF, 0x0, 0x0, 0x0, 0x0⟩,
  ⟨0xA0060118, 1, 4, 1, 4, 0xFF, 0x0, 0x0, 0x0, 0x0⟩,
  ⟨0xA006011C, 1, 4, 1, 4, 0x0, 0x0, 0x0, 0x0, 0x0⟩,
  ⟨0xA0060120, 1, 4, 1, 4, 0x0, 0xFFFFF000, 0x0, 0x0, 0x0⟩,
  ⟨0xA0060124, 1, 4, 1, 4, 0x0, 0xFFFFF000, 0x0, 0x0, 0x0⟩,
  ⟨0xA0060128, 1, 4, 1, 4, 0x0, 0x0, 0x0, 0x0, 0x0⟩,
  ⟨0xA0060200, 16, 4, 1, 4, 0x8000FFFF, 0x0, 0x0, 0x0, 0x0⟩]

def rowsCTLB : List RegRow := [
  ⟨0xA0060240, 16, 8, 1, 4, 0xE000FFFF, 0x0, 0x0, 0x0, 0x0⟩,
  ⟨0xA0060244, 16, 8, 1, 4, 0xFFFF, 0x0, 0x0, 0x0, 0x0⟩,
  ⟨0xA0060400, 32, 16, 1, 4, 0xC3FFFFFF, 0x0, 0x0, 0x0, 0x0⟩,
  ⟨0xA0060404, 32, 16, 1, 4, 0xFFFF, 0x0, 0x0, 0x0, 0x0⟩,
  ⟨0xA0060408, 32, 16, 1, 4, 0x0, 0x0, 0x0, 0x0, 0x0⟩,
  ⟨0xA0068000, 4096, 4, 1, 4, 0xFFFFFFFF, 0x0, 0x0, 0x0, 0x0⟩,
  ⟨0xA0061000, 32, 128, 1, 4, 0xFFFFFFFF, 0x0, 0x0, 0x0, 0x0⟩,
  ⟨0xA0061004, 32, 128, 1, 4, 0x1FFFF, 0x0, 0x0, 0x0, 0x0⟩,
  ⟨0xA0061008, 32, 128, 1, 4, 0xFFFF, 0x0, 0x0, 0x0, 0x0⟩,
  ⟨0xA006100C, 32, 128, 1, 4, 0xFFFFFFFF, 0x0, 0x0, 0x0, 0x0⟩,
  ⟨0xA0061010, 32, 128, 1, 4, 0xFFFFFFFF, 0x0, 0x0, 0x0, 0x0⟩,
  ⟨0xA0061014, 32, 128, 1, 4, 0xFFFFFFFF, 0x0, 0x0, 0x0, 0x0⟩,
  ⟨0xA0061018, 32, 128, 1, 4, 0xFFFFFFFF, 0x0, 0x0, 0x0, 0x0⟩,
  ⟨0xA006101C, 32, 128, 1, 4, 0xFFFFFFFF, 0x0, 0x0, 0x0, 0x0⟩,
  ⟨0xA0061020, 32, 128, 1, 4, 0xFFFFFFFF, 0x0, 0x0, 0x0, 0x0⟩,
  ⟨0xA0061024, 32, 128, 1, 4, 0xFFFFFFFF, 0x0, 0x0, 0x0, 0x0⟩,
  ⟨0xA0061028, 32, 128, 1, 4, 0xFFFFFFFF, 0x0, 0x0, 0x0, 0x0⟩,
  ⟨0xA006102C, 32, 128, 1, 4, 0xFF, 0x0, 0x0, 0x0, 0x0⟩,
  ⟨0xA0061030, 32, 128, 1, 4, 0xFFFFFFFF, 0x0, 0x0, 0x0, 0x0⟩,
  ⟨0xA0061034, 32, 128, 1, 4, 0xFFFFFFFF, 0x0, 0x0, 0x0, 0x0⟩]

def rowsCTLC : List RegRow := [
  ⟨0xA0061038, 32, 128, 1, 4, 0xFFFFFFFF, 0x0, 0x0, 0x0, 0x0⟩,
  ⟨0xA006103C, 32, 128, 1, 4, 0xFFFFFFFF, 0x0, 0x0, 0x0, 0x0⟩,
  ⟨0xA0061040, 32, 128, 1, 4, 0xFFFFFFFF, 0x0, 0x0, 0x0, 0x0⟩,
  ⟨0xA0061050, 32, 128, 1, 4, 0x0, 0x0, 0x300, 0xFFFF0000, 0x0⟩,
  ⟨0xA0061054, 32, 128, 1, 4, 0x0, 0x0, 0x0, 0x0, 0x0⟩,
  ⟨0xA0061058, 32, 128, 1, 4, 0x0, 0x0, 0x0, 0x0, 0x0⟩,
  ⟨0xA006105C, 32, 128, 1, 4, 0x0, 0x0, 0x0, 0x0, 0x0⟩,
  ⟨0xA0061060, 32, 128, 1, 4, 0x0, 0x0, 0x0, 0x0, 0x0⟩,
  ⟨0xA0061064, 32, 128, 1, 4, 0x0, 0x0, 0x0, 0x0, 0x0⟩,
  ⟨0xA0061068, 32, 128, 1, 4, 0x0, 0x0, 0x0, 0x0, 0x0⟩,
  ⟨0xA006106C, 32, 128, 1, 4, 0x0, 0x0, 0x0, 0x0, 0x0⟩]

/-- Rows of block CTL. -/
def rowsCTL : List RegRow := rowsCTLA ++ rowsCTLB ++ rowsCTLC

def rowsLNKA : List RegRow := [
  ⟨0xA0070000, 1, 4, 1, 4, 0x0, 0x80000000, 0x0, 0x0, 0x0⟩,
  ⟨0xA0070004, 1, 4, 1, 4, 0x0, 0x0, 0x0, 0x0, 0x0⟩,
  ⟨0xA0070100, 4, 256, 1, 4, 0xFFF0FF00, 0x0, 0x0, 0x0, 0x0⟩,
  ⟨0xA0070104, 4, 256, 1, 4, 0x0, 0x0, 0x0, 0x0, 0xF⟩,
  ⟨0xA0070108, 4, 256, 1, 4, 0x0, 0x0, 0x0, 0x0, 0x0⟩,
  ⟨0xA007010C, 4, 256, 1, 4, 0x0, 0x0, 0x3F, 0x0, 0x0⟩,
  ⟨0xA0070110, 4, 256, 1, 4, 0x0, 0x1F3F0F, 0x0, 0x0, 0x0⟩,
  ⟨0xA0070114, 4, 256, 1, 4, 0x0, 0x0, 0x0, 0x0, 0x0⟩,
  ⟨0xA0070118, 4, 256, 1, 4, 0x0, 0x0, 0x0, 0x0, 0x0⟩,
  ⟨0xA007011C, 4, 256, 1, 4, 0xC000000F, 0x0, 0x0, 0x0, 0x0⟩,
  ⟨0xA0070120, 4, 256, 1, 4, 0x0, 0x0, 0x0, 0x0, 0x0⟩,
  ⟨0xA0070124, 4, 256, 1, 4, 0x0, 0x0, 0x0, 0x0, 0x0⟩,
  ⟨0xA0070128, 4, 256, 1, 4, 0x0, 0xFFFFFFFF, 0x0, 0x0, 0x0⟩,
  ⟨0xA007012C, 4, 256, 1, 4, 0x0, 0x0, 0x0, 0xFFFFFFFF, 0x0⟩,
  ⟨0xA0070130, 4, 256, 1, 4, 0x0, 0x0, 0x0, 0xFFFFFFFF, 0x0⟩,
  ⟨0xA0070140, 4, 256, 1, 4, 0xE0000007, 0x0, 0x0, 0x0, 0x0⟩,
  ⟨0xA0070144, 4, 256, 1, 4, 0x0, 0x0, 0x40000000, 0x0, 0x0⟩,
  ⟨0xA0070148, 4, 256, 1, 4, 0x0, 0x0, 0x0, 0x0, 0x0⟩,
  ⟨0xA007014C, 4, 256, 1, 4, 0x0, 0x0, 0x0, 0x0, 0x0⟩,
  ⟨0xA0070150, 4, 256, 1, 4, 0x0, 0x0, 0x0, 0x0, 0x0⟩]

def rowsLNKB : List RegRow := [
  ⟨0xA0070154, 4, 256, 1, 4, 0x0, 0x0, 0x0, 0x0, 0x0⟩,
  ⟨0xA0070158, 4, 256, 1, 4, 0xE03F003F, 0x0, 0x0, 0x0, 0x0⟩,
  ⟨0xA007015C, 4, 256, 1, 4, 0x0, 0x0, 0x0, 0xFFFFFFFF, 0x0⟩]

/-- Rows of block LNK. -/
def rowsLNK : List RegRow := rowsLNKA ++ rowsLNKB

def rowsWOTA : List RegRow := [
  ⟨0xA0080000, 1, 4, 1, 4, 0x3, 0x80000F00, 0x0, 0x0, 0x0⟩,
  ⟨0xA0080004, 1, 4, 1, 4, 0x0, 0x0, 0x1C00000, 0x0, 0x0⟩,
  ⟨0xA0080008, 1, 4, 1, 4, 0x0, 0x83FFFFFF, 0x0, 0x0, 0x0⟩,
  ⟨0xA008000C, 1, 4, 1, 4, 0x0, 0x0, 0x0, 0x0, 0x0⟩,
  ⟨0xA0080010, 1, 4, 1, 4, 0x0, 0x0, 0x0, 0x0, 0xF⟩,
  ⟨0xA0080014, 1, 4, 1, 4, 0xFFFFFFFF, 0x0, 0x0, 0x0, 0x0⟩,
  ⟨0xA0080018, 1, 4, 1, 4, 0x801FFFFF, 0x0, 0x0, 0x0, 0x0⟩,
  ⟨0xA0080020, 1, 4, 1, 4, 0xFFFFF000, 0x0, 0x0, 0x0, 0x0⟩,
  ⟨0xA0080024, 1, 4, 1, 4, 0xFFFFF000, 0x0, 0x0, 0x0, 0x0⟩,
  ⟨0xA0080028, 1, 4, 1, 4, 0x0, 0x0, 0x0, 0x0, 0x0⟩,
  ⟨0xA008002C, 1, 4, 1, 4, 0x0, 0x0, 0x0, 0xFFFFFFFF, 0x0⟩,
  ⟨0xA0080030, 1, 4, 1, 4, 0x0, 0x0, 0x0, 0x0, 0x0⟩,
  ⟨0xA0080034, 1, 4, 1, 4, 0x0, 0x0, 0x0, 0x0, 0x0⟩,
  ⟨0xA0080040, 1, 4, 1, 4, 0x0, 0x0, 0x0, 0x0, 0xF700F⟩,
  ⟨0xA0080044, 1, 4, 1, 4, 0xFFFFFFFF, 0x0, 0x0, 0x0, 0x0⟩,
  ⟨0xA0080048, 1, 4, 1, 4, 0xFFFF, 0x0, 0x0, 0x0, 0x0⟩,
  ⟨0xA008004C, 1, 4, 1, 4, 0xFFFFFFFF, 0x0, 0x0, 0x0, 0x0⟩,
  ⟨0xA0080050, 1, 4, 1, 4, 0xFFFFFFFF, 0x0, 0x0, 0x0, 0x0⟩,
  ⟨0xA0080054, 1, 4, 1, 4, 0x3FF03FF, 0x0, 0x0, 0x0, 0x0⟩,
  ⟨0xA0080058, 1, 4, 1, 4, 0x0, 0x0, 0x0, 0x0, 0x0⟩]

def rowsWOTB : List RegRow := [
  ⟨0xA008005C, 1, 4, 1, 4, 0xFFFFFFFF, 0x0, 0x0, 0x0, 0x0⟩,
  ⟨0xA0080060, 1, 4, 1, 4, 0x1, 0x0, 0x0, 0x0, 0x0⟩,
  ⟨0xA0080064, 1, 4, 1, 4, 0x0, 0x0, 0x0, 0x0, 0x0⟩,
  ⟨0xA0080068, 1, 4, 1, 4, 0x0, 0x0, 0x0, 0x0, 0x0⟩,
  ⟨0xA0080100, 2, 64, 1, 4, 0x0, 0x0, 0x0, 0xFF, 0x0⟩,
  ⟨0xA0080104, 2, 64, 1, 4, 0x0, 0x0, 0x0, 0x0, 0x0⟩,
  ⟨0xA0080108, 2, 64, 1, 4, 0x0, 0xFFFFFFFF, 0x0, 0x0, 0x0⟩,
  ⟨0xA008010C, 2, 64, 1, 4, 0x0, 0x0, 0x0, 0xFFFFFFFF, 0x0⟩,
  ⟨0xA0080110, 2, 64, 1, 4, 0x0, 0x0, 0x0, 0xFFFFFFFF, 0x0⟩,
  ⟨0xA0080114, 2, 64, 1, 4, 0x0, 0x0, 0x0, 0xFFFFFFFF, 0x0⟩,
  ⟨0xA0080200, 1, 4, 1, 4, 0xFFC0001F, 0x0, 0x0, 0x0, 0x0⟩,
  ⟨0xA0080204, 1, 4, 1, 4, 0xFFFFFFFF, 0x0, 0x0, 0x0, 0x0⟩,
  ⟨0xA0080208, 1, 4, 1, 4, 0xFFFF, 0x0, 0x0, 0x0, 0x0⟩,
  ⟨0xA008020C, 1, 4, 1, 4, 0x0, 0x0, 0x0, 0xFFFFFFFF, 0x0⟩,
  ⟨0xA0080400, 256, 4, 1, 4, 0x0, 0x0, 0x0, 0x0, 0x0⟩]

/-- Rows of block WOT. -/
def rowsWOT : List RegRow := rowsWOTA ++ rowsWOTB

def rowsETHA : List RegRow := [
  ⟨0xA0090000, 1, 4, 1, 4, 0x1, 0x80000000, 0x0, 0x0, 0x0⟩,
  ⟨0xA0090004, 1, 4, 1, 4, 0x0, 0xFFFF, 0x0, 0x0, 0x0⟩,
  ⟨0xA0090008, 1, 4, 1, 4, 0x0, 0xFFFFFFFF, 0x0, 0x0, 0x0⟩,
  ⟨0xA009000C, 1, 4, 1, 4, 0x0, 0xFFFFFFFF, 0x0, 0x0, 0x0⟩,
  ⟨0xA0090010, 1, 4, 1, 4, 0xFCFFFFFF, 0x0, 0x0, 0x0, 0x0⟩,
  ⟨0xA0090014, 1, 4, 1, 4, 0xFFFFFFFF, 0x0, 0x0, 0x0, 0x0⟩,
  ⟨0xA0090018, 1, 4, 1, 4, 0xFFFFFFFF, 0x0, 0x0, 0x0, 0x0⟩,
  ⟨0xA009001C, 1, 4, 1, 4, 0x0, 0x0, 0x0, 0xFFFFFFFF, 0x0⟩,
  ⟨0xA0090100, 2, 256, 1, 4, 0xFFFFFFFF, 0x0, 0x0, 0x0, 0x0⟩,
  ⟨0xA0090104, 2, 256, 1, 4, 0xFFFFFFFF, 0x0, 0x0, 0x0, 0x0⟩,
  ⟨0xA0090108, 2, 256, 1, 4, 0xFFFF, 0x0, 0x0, 0x0, 0x0⟩,
  ⟨0xA009010C, 2, 256, 1, 4, 0xFFFFFFFF, 0x0, 0x0, 0x0, 0x0⟩,
  ⟨0xA0090110, 2, 256, 1, 4, 0xFFFFFFFF, 0x0, 0x0, 0x0, 0x0⟩,
  ⟨0xA0090114, 2, 256, 1, 4, 0xFFFFFFFF, 0x0, 0x0, 0x0, 0x0⟩,
  ⟨0xA0090118, 2, 256, 1, 4, 0xFFFFFFFF, 0x0, 0x0, 0x0, 0x0⟩,
  ⟨0xA009011C, 2, 256, 1, 4, 0xFFFFFFFF, 0x0, 0x0, 0x0, 0x0⟩,
  ⟨0xA0090120, 2, 256, 1, 4, 0x0, 0x0, 0x0, 0x0, 0x0⟩,
  ⟨0xA0090124, 2, 256, 1, 4, 0xFFFFFFFF, 0x0, 0x0, 0x0, 0x0⟩,
  ⟨0xA0090128, 2, 256, 1, 4, 0xFFFFFFFF, 0x0, 0x0, 0x0, 0x0⟩,
  ⟨0xA009012C, 2, 256, 1, 4, 0x3FF, 0x0, 0x0, 0x0, 0x0⟩]

def rowsETHB : List RegRow := [
  ⟨0xA0090130, 2, 256, 1, 4, 0x0, 0x0, 0x0, 0x0, 0x0⟩,
  ⟨0xA0090134, 2, 256, 1, 4, 0xFFFFFFFF, 0x0, 0x0, 0x0, 0x0⟩,
  ⟨0xA0090138, 2, 256, 1, 4, 0xFFFFFFFF, 0x0, 0x0, 0x0, 0x0⟩,
  ⟨0xA009013C, 2, 256, 1, 4, 0x3FF, 0x0, 0x0, 0x0, 0x0⟩,
  ⟨0xA0090140, 2, 256, 1, 4, 0x0, 0x0, 0x0, 0x0, 0x0⟩,
  ⟨0xA0090150, 2, 256, 1, 4, 0x0, 0x0, 0x0, 0x0, 0x0⟩,
  ⟨0xA0090154, 2, 256, 1, 4, 0x0, 0x0, 0x0, 0x0, 0x0⟩,
  ⟨0xA0090158, 2, 256, 1, 4, 0x0, 0x0, 0x0, 0x0, 0x0⟩,
  ⟨0xA009015C, 2, 256, 1, 4, 0x0, 0x0, 0x0, 0x0, 0x0⟩,
  ⟨0xA0090160, 2, 256, 1, 4, 0x0, 0x0, 0x100, 0xFFFF0000, 0x0⟩,
  ⟨0xA0090170, 2, 256, 1, 4, 0x0, 0x0, 0x0, 0xFFFFFFFF, 0x0⟩,
  ⟨0xA0090174, 2, 256, 1, 4, 0x0, 0x0, 0x0, 0xFFFFFFFF, 0x0⟩,
  ⟨0xA0090178, 2, 256, 1, 4, 0x0, 0x0, 0x0, 0xFFFFFFFF, 0x0⟩,
  ⟨0xA009017C, 2, 256, 1, 4, 0x0, 0x0, 0x0, 0xFFFFFFFF, 0x0⟩,
  ⟨0xA0090180, 2, 256, 1, 4, 0x0, 0x0, 0x0, 0xFFFFFFFF, 0x0⟩,
  ⟨0xA0090184, 2, 256, 1, 4, 0x0, 0x0, 0x0, 0x0, 0x0⟩,
  ⟨0xA0090300, 2, 64, 1, 4, 0xF8FFFFFF, 0x0, 0x0, 0x0, 0x0⟩,
  ⟨0xA0090304, 2, 64, 1, 4, 0xFFFFFFFF, 0x0, 0x0, 0x0, 0x0⟩,
  ⟨0xA0090308, 2, 64, 1, 4, 0xFFFFFFFF, 0x0, 0x0, 0x0, 0x0⟩,
  ⟨0xA009030C, 2, 64, 1, 4, 0xFFFF, 0x0, 0x0, 0x0, 0x0⟩]

def rowsETHC : List RegRow := [
  ⟨0xA0090310, 2, 64, 1, 4, 0xFFFFFFFF, 0x0, 0x0, 0x0, 0x0⟩,
  ⟨0xA0090314, 2, 64, 1, 4, 0x0, 0x0, 0x0, 0x0, 0x0⟩,
  ⟨0xA0090318, 2, 64, 1, 4, 0x0, 0x0, 0x0, 0x0, 0x0⟩,
  ⟨0xA009031C, 2, 64, 1, 4, 0x0, 0x0, 0x0, 0xFFFFFFFF, 0x0⟩,
  ⟨0xA0090320, 2, 64, 1, 4, 0x0, 0x0, 0x0, 0xFFFFFFFF, 0x0⟩,
  ⟨0xA0090400, 2, 16, 1, 4, 0x400000, 0x0, 0x0, 0x0, 0x3CFFFF⟩,
  ⟨0xA0090800, 64, 32, 1, 4, 0xE000FFFF, 0x0, 0x0, 0x0, 0x0⟩,
  ⟨0xA0090804, 64, 32, 1, 4, 0xFFFFFFFF, 0x0, 0x0, 0x0, 0x0⟩,
  ⟨0xA0090808, 64, 32, 1, 4, 0xFFFF, 0x0, 0x0, 0x0, 0x0⟩,
  ⟨0xA0090810, 64, 32, 1, 4, 0xFFFFFFFF, 0x0, 0x0, 0x0, 0x0⟩,
  ⟨0xA0090814, 64, 32, 1, 4, 0xFFFFFFFF, 0x0, 0x0, 0x0, 0x0⟩,
  ⟨0xA0090818, 64, 32, 1, 4, 0xFFFFFFFF, 0x0, 0x0, 0x0, 0x0⟩,
  ⟨0xA009081C, 64, 32, 1, 4, 0xFFFFFFFF, 0x0, 0x0, 0x0, 0x0⟩,
  ⟨0xA0090404, 2, 16, 1, 4, 0xFFFFFFFF, 0x0, 0x0, 0x0, 0x0⟩,
  ⟨0xA0090408, 2, 16, 1, 4, 0xFFFFFFFF, 0x0, 0x0, 0x0, 0x0⟩]

/-- Rows of block ETH. -/
def rowsETH : List RegRow := rowsETHA ++ rowsETHB ++ rowsETHC

def rowsDMCA : List RegRow := [
  ⟨0xA00A0000, 1, 4, 1, 4, 0x0, 0x80000000, 0x0, 0x0, 0x0⟩,
  ⟨0xA00A0004, 1, 4, 1, 4, 0x0, 0x103, 0x0, 0x0, 0x0⟩,
  ⟨0xA00A0008, 1, 4, 1, 4, 0xF, 0x0, 0x0, 0x0, 0x0⟩,
  ⟨0xA00A000C, 1, 4, 1, 4, 0x0, 0xFFFF, 0x0, 0x0, 0x0⟩,
  ⟨0xA00A0010, 1, 4, 1, 4, 0x0, 0x0, 0x0, 0x0, 0xF⟩,
  ⟨0xA00A0014, 1, 4, 1, 4, 0x0, 0x0, 0x800, 0x0, 0x0⟩,
  ⟨0xA00A0020, 2, 4, 1, 4, 0x0, 0x0, 0x0, 0x0, 0x0⟩,
  ⟨0xA00A0030, 1, 4, 1, 4, 0x0, 0x80000FFF, 0x0, 0x0, 0x0⟩,
  ⟨0xA00A0034, 1, 4, 1, 4, 0xFFFF, 0x7F0000, 0x0, 0x0, 0x0⟩,
  ⟨0xA00A0038, 1, 4, 1, 4, 0x8000FFFF, 0x0, 0x0, 0x0, 0x0⟩,
  ⟨0xA00A003C, 1, 4, 1, 4, 0x0, 0x0, 0x0, 0x0, 0x0⟩,
  ⟨0xA00A0040, 1, 4, 1, 4, 0x0, 0x0, 0x0, 0xFFFFFFFF, 0x0⟩,
  ⟨0xA00A0044, 1, 4, 1, 4, 0x0, 0x0, 0x0, 0xFFFFFFFF, 0x0⟩,
  ⟨0xA00A0048, 1, 4, 1, 4, 0x0, 0x0, 0x0, 0x0, 0x0⟩,
  ⟨0xA00A004C, 1, 4, 1, 4, 0x0, 0x0, 0x0, 0x0, 0x0⟩,
  ⟨0xA00A0050, 1, 4, 1, 4, 0x0, 0x0, 0x0, 0xFF0000, 0x0⟩,
  ⟨0xA00A0054, 1, 4, 1, 4, 0x0, 0x0, 0x0, 0xFFFFFFFF, 0x0⟩,
  ⟨0xA00A0058, 1, 4, 1, 4, 0x0, 0x0, 0x0, 0x0, 0x0⟩,
  ⟨0xA00A005C, 1, 4, 1, 4, 0x0, 0x0, 0x0, 0x0, 0x0⟩,
  ⟨0xA00A0100, 64, 4, 1, 4, 0x0, 0xFFFFFFFF, 0x0, 0x0, 0x0⟩]

/-- Rows of block DMC. -/
def rowsDMC : List RegRow := rowsDMCA

def rowsTWNA : List RegRow := [
  ⟨0xA00B0000, 1, 4, 1, 4, 0x7, 0x80000000, 0x0, 0x0, 0x0⟩,
  ⟨0xA00B0004, 1, 4, 1, 4, 0x0, 0x3FF00FF, 0x0, 0x0, 0x0⟩,
  ⟨0xA00B0008, 1, 4, 1, 4, 0x0, 0x80000000, 0x0, 0x0, 0x0⟩,
  ⟨0xA00B000C, 1, 4, 1, 4, 0x0, 0x0, 0x8000, 0x0, 0x0⟩,
  ⟨0xA00B0010, 1, 4, 1, 4, 0x0, 0x0, 0x0, 0x0, 0x10F⟩,
  ⟨0xA00B0014, 1, 4, 1, 4, 0xFFFFFFFF, 0x0, 0x0, 0x0, 0x0⟩,
  ⟨0xA00B0018, 1, 4, 1, 4, 0xFFFFFFFF, 0x0, 0x0, 0x0, 0x0⟩,
  ⟨0xA00B001C, 1, 4, 1, 4, 0x0, 0xFFFF0F03, 0x0, 0x0, 0x0⟩,
  ⟨0xA00B0020, 1, 4, 1, 4, 0x0, 0xFF0000, 0x0, 0x0, 0x0⟩,
  ⟨0xA00B0024, 1, 4, 1, 4, 0x0, 0x0, 0x0, 0xFFFF0000, 0x0⟩,
  ⟨0xA00B0028, 1, 4, 1, 4, 0x0, 0x0, 0x0, 0x0, 0x0⟩,
  ⟨0xA00B002C, 1, 4, 1, 4, 0x0, 0x0, 0x0, 0x0, 0x0⟩,
  ⟨0xA00B0030, 1, 4, 1, 4, 0x0, 0x0, 0x0, 0xFFFFFFFF, 0x0⟩,
  ⟨0xA00B0034, 1, 4, 1, 4, 0xFFFF, 0x0, 0x0, 0x0, 0x0⟩,
  ⟨0xA00B0038, 1, 4, 1, 4, 0x0, 0xFFFF, 0x0, 0x0, 0x0⟩,
  ⟨0xA00B003C, 1, 4, 1, 4, 0x8000FFFF, 0x0, 0x0, 0x0, 0x0⟩,
  ⟨0xA00B0040, 8, 4, 1, 4, 0x0, 0x0, 0xFFFFFFFF, 0x0, 0x0⟩]

/-- Rows of block TWN. -/
def rowsTWN : List RegRow := rowsTWNA

def rowsHLTA : List RegRow := [
  ⟨0xA00C0000, 1, 4, 1, 4, 0x0, 0x80000000, 0x0, 0x0, 0x0⟩,
  ⟨0xA00C0004, 1, 4, 1, 4, 0x0, 0x0, 0x0, 0x0, 0x0⟩,
  ⟨0xA00C0008, 1, 4, 1, 4, 0x0, 0x0, 0x0, 0x0, 0xF⟩,
  ⟨0xA00C000C, 1, 4, 1, 4, 0x0, 0x0, 0x0, 0xFFFFFFFF, 0x0⟩,
  ⟨0xA00C0010, 1, 4, 1, 4, 0x0, 0x0, 0x0, 0x0, 0x0⟩,
  ⟨0xA00C0014, 1, 4, 1, 4, 0xFFFFFFFF, 0x0, 0x0, 0x0, 0x0⟩,
  ⟨0xA00C0018, 1, 4, 1, 4, 0xFFFFFFFF, 0x0, 0x0, 0x0, 0x0⟩,
  ⟨0xA00C0040, 6, 4, 1, 4, 0x0, 0x0, 0x0, 0x0, 0x0⟩,
  ⟨0xA00C0058, 1, 4, 1, 4, 0x0, 0xFFFF, 0x0, 0x0, 0x0⟩,
  ⟨0xA00C0080, 14, 4, 1, 4, 0x0, 0x0, 0x0, 0x0, 0x0⟩,
  ⟨0xA00C00C0, 14, 4, 1, 4, 0x0, 0xFFFFFFFF, 0x0, 0x0, 0x0⟩,
  ⟨0xA00C0100, 1, 4, 1, 4, 0x0, 0x0, 0x3FFF3FFF, 0x0, 0x0⟩,
  ⟨0xA00C0110, 1, 4, 1, 4, 0x0, 0x0, 0x0, 0xFFFFFFFF, 0x0⟩,
  ⟨0xA00C0114, 1, 4, 1, 4, 0x0, 0xFFFF, 0x0, 0x0, 0x0⟩,
  ⟨0xA00C0118, 1, 4, 1, 4, 0x0, 0x0, 0x8000, 0xFFFF0000, 0x0⟩,
  ⟨0xA00C011C, 1, 4, 1, 4, 0x0, 0x0, 0xF, 0xFFFF0000, 0x0⟩,
  ⟨0xA00C0120, 1, 4, 1, 4, 0xF0F, 0x0, 0x0, 0x0, 0x0⟩,
  ⟨0xA00C0124, 1, 4, 1, 4, 0xFFFFFFC0, 0x0, 0x0, 0x0, 0x0⟩,
  ⟨0xA00C1000, 64, 16, 1, 4, 0x803F01FF, 0x0, 0x0, 0x0, 0x0⟩,
  ⟨0xA00C1004, 64, 16, 1, 4, 0x0, 0x0, 0x0, 0x0, 0x0⟩]

def rowsHLTB : List RegRow := [
  ⟨0xA00C1008, 64, 16, 1, 4, 0x0, 0x0, 0x0, 0x0, 0x0⟩]

/-- Rows of block HLT. -/
def rowsHLT : List RegRow := rowsHLTA ++ rowsHLTB

def rowsLDGA : List RegRow := [
  ⟨0xA00D0000, 1, 4, 1, 4, 0x3, 0x80000000, 0x0, 0x0, 0x0⟩,
  ⟨0xA00D0004, 1, 4, 1, 4, 0x0, 0x0, 0x3, 0x0, 0x0⟩,
  ⟨0xA00D0008, 1, 4, 1, 4, 0x0, 0x0, 0x0, 0x0, 0xF⟩,
  ⟨0xA00D000C, 1, 4, 1, 4, 0xFFFFFFFF, 0x0, 0x0, 0x0, 0x0⟩,
  ⟨0xA00D0010, 1, 4, 1, 4, 0xFFFFFFFF, 0x0, 0x0, 0x0, 0x0⟩,
  ⟨0xA00D0014, 1, 4, 1, 4, 0xFFFFFFFF, 0x0, 0x0, 0x0, 0x0⟩,
  ⟨0xA00D0018, 1, 4, 1, 4, 0x0, 0xFF, 0x0, 0x0, 0x0⟩,
  ⟨0xA00D001C, 1, 4, 1, 4, 0xFFFFFFFF, 0x0, 0x0, 0x0, 0x0⟩,
  ⟨0xA00D0020, 4, 4, 1, 4, 0xFFFFFFFF, 0x0, 0x0, 0x0, 0x0⟩,
  ⟨0xA00D0030, 1, 4, 1, 4, 0x0, 0x0, 0x0, 0x0, 0x0⟩,
  ⟨0xA00D0034, 1, 4, 1, 4, 0x0, 0x0, 0x0, 0x0, 0x0⟩,
  ⟨0xA00D0040, 8, 4, 1, 4, 0x0, 0x0, 0x0, 0x0, 0x0⟩]

/-- Rows of block LDG. -/
def rowsLDG : List RegRow := rowsLDGA

def rowsSVCA : List RegRow := [
  ⟨0xA00E0000, 1, 4, 1, 4, 0x0, 0x80000000, 0x0, 0x0, 0x0⟩,
  ⟨0xA00E0004, 1, 4, 1, 4, 0x0, 0x0, 0x6, 0x0, 0x0⟩,
  ⟨0xA00E0008, 1, 4, 1, 4, 0x80000007, 0x0, 0x0, 0x0, 0x0⟩,
  ⟨0xA00E0010, 1, 4, 1, 4, 0xFF, 0x0, 0x0, 0x0, 0x0⟩,
  ⟨0xA00E0014, 1, 4, 1, 4, 0xFF, 0x0, 0x0, 0x0, 0x0⟩,
  ⟨0xA00E0018, 1, 4, 1, 4, 0x0, 0x0, 0x0, 0x0, 0x0⟩,
  ⟨0xA00E001C, 1, 4, 1, 4, 0xFFFF, 0x0, 0x0, 0x0, 0x0⟩,
  ⟨0xA00E0020, 1, 4, 1, 4, 0x0, 0x0, 0x100, 0xFFFF0000, 0x0⟩,
  ⟨0xA00E0024, 1, 4, 1, 4, 0x0, 0x0, 0x0, 0xFFFFFFFF, 0x0⟩]

/-- Rows of block SVC. -/
def rowsSVC : List RegRow := rowsSVCA

/-- The rows of the block whose window has number `k` (R31). -/
def rowsOfBlock (k : Nat) : List RegRow :=
  match k with
  | 0 => rowsTOP
  | 1 => rowsAFE
  | 2 => rowsCNV
  | 3 => rowsRED
  | 4 => rowsACQ
  | 5 => rowsTBS
  | 6 => rowsCTL
  | 7 => rowsLNK
  | 8 => rowsWOT
  | 9 => rowsETH
  | 10 => rowsDMC
  | 11 => rowsTWN
  | 12 => rowsHLT
  | 13 => rowsLDG
  | 14 => rowsSVC
  | _ => []

/-- A reset word that is not zero, with the place of its registers. -/
structure ResetRow where
  base : Nat
  n1 : Nat
  s1 : Nat
  value : Nat
deriving DecidableEq, Repr

/-- The registers of TOP whose reset word is not zero. -/
def resetsTOP : List ResetRow := [
  ⟨0xA0000000, 1, 4, 0x6256C3E1⟩,
  ⟨0xA0000004, 1, 4, 0x00000011⟩,
  ⟨0xA0000018, 1, 4, 0xE0000000⟩,
  ⟨0xA0000024, 1, 4, 0x00000001⟩,
  ⟨0xA000002C, 1, 4, 0x00000001⟩,
  ⟨0xA0000030, 1, 4, 0x000003E8⟩,
  ⟨0xA0000404, 4, 128, 0x90000000⟩,
  ⟨0xA0000600, 1, 4, 0x00000001⟩,
  ⟨0xA0000604, 1, 4, 0xFFFE0000⟩]

/-- The registers of AFE whose reset word is not zero. -/
def resetsAFE : List ResetRow := [
  ⟨0xA0010008, 1, 4, 0x7D000004⟩,
  ⟨0xA0010108, 16, 64, 0x00402000⟩,
  ⟨0xA001010C, 16, 64, 0x0000FFFF⟩,
  ⟨0xA0010110, 16, 64, 0x00140064⟩,
  ⟨0xA0010114, 16, 64, 0x36B0C950⟩,
  ⟨0xA0010118, 16, 64, 0x00000064⟩,
  ⟨0xA0010128, 16, 64, 0x00000010⟩]

/-- The registers of CNV whose reset word is not zero. -/
def resetsCNV : List ResetRow := [
  ⟨0xA002000C, 1, 4, 0x00004000⟩,
  ⟨0xA0020014, 1, 4, 0x00100000⟩,
  ⟨0xA0020030, 1, 4, 0x03020100⟩,
  ⟨0xA0020034, 1, 4, 0x07060504⟩,
  ⟨0xA0020038, 1, 4, 0x0B0A0908⟩,
  ⟨0xA002003C, 1, 4, 0x0F0E0D0C⟩,
  ⟨0xA0020140, 1, 4, 0x00000400⟩,
  ⟨0xA0021030, 17, 64, 0x40000000⟩]

/-- The registers of ACQ whose reset word is not zero. -/
def resetsACQ : List ResetRow := [
  ⟨0xA0040008, 1, 4, 0x0003E810⟩,
  ⟨0xA0040100, 8, 16, 0x00000010⟩,
  ⟨0xA0041004, 64, 128, 0x00006000⟩,
  ⟨0xA0041044, 64, 128, 0x00000001⟩,
  ⟨0xA0041048, 64, 128, 0x00000064⟩]

/-- The registers of TBS whose reset word is not zero. -/
def resetsTBS : List ResetRow := [
  ⟨0xA0050000, 1, 4, 0x00004216⟩,
  ⟨0xA0050100, 4, 64, 0x00060000⟩,
  ⟨0xA0050104, 4, 64, 0x00010000⟩,
  ⟨0xA0050124, 4, 64, 0x000003E8⟩,
  ⟨0xA0050204, 1, 4, 0x00320000⟩]

/-- The registers of CTL whose reset word is not zero. -/
def resetsCTL : List ResetRow := [
  ⟨0xA0060240, 16, 8, 0x00000400⟩,
  ⟨0xA0061004, 32, 128, 0x00000400⟩,
  ⟨0xA006100C, 32, 128, 0x000003E8⟩,
  ⟨0xA0061020, 32, 128, 0x3F800000⟩,
  ⟨0xA0061028, 32, 128, 0x3F800000⟩,
  ⟨0xA0061030, 32, 128, 0x04000000⟩]

/-- The registers of LNK whose reset word is not zero. -/
def resetsLNK : List ResetRow := [
  ⟨0xA0070100, 4, 256, 0x13000A00⟩,
  ⟨0xA0070110, 4, 256, 0x00083304⟩,
  ⟨0xA0070114, 4, 256, 0x00083304⟩]

/-- The registers of WOT whose reset word is not zero. -/
def resetsWOT : List ResetRow := [
  ⟨0xA0080014, 1, 4, 0x10140105⟩,
  ⟨0xA0080018, 1, 4, 0x00000040⟩,
  ⟨0xA0080054, 1, 4, 0x03FF0000⟩,
  ⟨0xA008005C, 1, 4, 0x00002710⟩]

/-- The registers of ETH whose reset word is not zero. -/
def resetsETH : List ResetRow := [
  ⟨0xA0090004, 1, 4, 0x0000B5A0⟩,
  ⟨0xA0090010, 1, 4, 0x00000032⟩,
  ⟨0xA0090100, 2, 256, 0x005DC000⟩]

/-- The registers of DMC whose reset word is not zero. -/
def resetsDMC : List ResetRow := [
  ⟨0xA00A0008, 1, 4, 0x00000002⟩,
  ⟨0xA00A0030, 1, 4, 0x000001E8⟩,
  ⟨0xA00A0034, 1, 4, 0x00200401⟩,
  ⟨0xA00A0038, 1, 4, 0x00000001⟩]

/-- The registers of TWN whose reset word is not zero. -/
def resetsTWN : List ResetRow := [
  ⟨0xA00B0000, 1, 4, 0x00000006⟩,
  ⟨0xA00B0004, 1, 4, 0x0000000A⟩,
  ⟨0xA00B000C, 1, 4, 0x00000200⟩,
  ⟨0xA00B001C, 1, 4, 0x03E80300⟩,
  ⟨0xA00B0020, 1, 4, 0x00FF0000⟩,
  ⟨0xA00B0034, 1, 4, 0x00000040⟩,
  ⟨0xA00B003C, 1, 4, 0x00000100⟩]

/-- The registers of HLT whose reset word is not zero. -/
def resetsHLT : List ResetRow := [
  ⟨0xA00C0058, 1, 4, 0x00006E64⟩,
  ⟨0xA00C0114, 1, 4, 0x00000010⟩,
  ⟨0xA00C0118, 1, 4, 0x00000010⟩]

/-- The registers of LDG whose reset word is not zero. -/
def resetsLDG : List ResetRow := [
  ⟨0xA00D0000, 1, 4, 0x00000002⟩,
  ⟨0xA00D0018, 1, 4, 0x00000003⟩,
  ⟨0xA00D001C, 1, 4, 0x003B9ACA⟩]

/-- Those rows for the block whose window has number `k`. -/
def resetsOfBlock (k : Nat) : List ResetRow :=
  match k with
  | 0 => resetsTOP
  | 1 => resetsAFE
  | 2 => resetsCNV
  | 4 => resetsACQ
  | 5 => resetsTBS
  | 6 => resetsCTL
  | 7 => resetsLNK
  | 8 => resetsWOT
  | 9 => resetsETH
  | 10 => resetsDMC
  | 11 => resetsTWN
  | 12 => resetsHLT
  | 13 => resetsLDG
  | _ => []

end Sys2Proof.Machine
end

