-- ==== Sys2Proof/Machine/Tab.lean ====
section
/-!
DEFINITION. The operations on sparse tables (`Tab`): read with a default, drop a key, and write in the one canonical
form (keys strictly rising, no entry equal to what an unlisted key reads as).
-/
namespace Sys2Proof.Machine

/-- The value a table gives for key `k`; `d k` where the table does not list `k`. -/
def tget {α : Type} (d : Nat → α) : Tab α → Nat → α
  | [], k => d k
  | (j, v) :: t, k => if j = k then v else tget d t k

/-- The table without key `k`. -/
def tdrop {α : Type} : Tab α → Nat → Tab α
  | [], _ => []
  | (j, v) :: t, k => if j = k then tdrop t k else (j, v) :: tdrop t k

/-- The table with `(k, v)` placed before the first larger key. -/
def tins {α : Type} : Tab α → Nat → α → Tab α
  | [], k, v => [(k, v)]
  | (j, u) :: t, k, v => if k < j then (k, v) :: (j, u) :: t else (j, u) :: tins t k v

/-- Write `v` at key `k`: the canonical form is kept, so writing the default removes the entry. -/
def tput {α : Type} [DecidableEq α] (d : Nat → α) (t : Tab α) (k : Nat) (v : α) : Tab α :=
  if v = d k then tdrop t k else tins (tdrop t k) k v

/-- Every key of the table is above `lo`, and the keys rise strictly. -/
def trising {α : Type} : Nat → Tab α → Bool
  | _, [] => true
  | lo, (k, _) :: t => decide (lo ≤ k) && trising (k + 1) t

/-- No entry of the table equals what its key reads as when unlisted. -/
def tlean {α : Type} [DecidableEq α] (d : Nat → α) : Tab α → Bool
  | [] => true
  | (k, v) :: t => decide (v ≠ d k) && tlean d t

/-- The canonical form: strictly rising keys and no default entry. -/
def tcanon {α : Type} [DecidableEq α] (d : Nat → α) (t : Tab α) : Bool :=
  trising 0 t && tlean d t

end Sys2Proof.Machine
end

