-- ==== Sys2Proof/Machine/State.lean ====
section
/-!
DEFINITION. The state of the BH6256 hub block, as plain data: the register space, the table windows, the memories, and the
state of every unit that the spec describes, with the queue of waiting commands; the named reasons a step can stop; and the
state right after a power-on reset.
-/
namespace Sys2Proof.Machine

/-- The misuses of R403 and the few other acts to which the spec gives no effect. A fault is safe: the model stops where
the part's behaviour is undefined (R403, R404). -/
inductive Fault where
  /-- A byte or halfword access to the register space (R6, R403); raised by the core loads and stores. Safe. -/
  | misuseNarrowRegisterAccess
  /-- ARM with a ring region, folio store or trace region that overlaps another (R168, R222, R403). Safe. -/
  | misuseOverlap
  /-- A core store into the region of a ring that is not STOPPED (R168, R403). Safe. -/
  | misuseRingStore
  /-- The interleave grain is changed with DRAM traffic in flight (R359, R403). Safe. -/
  | misuseGrain
  /-- A Start List entry is rewritten within 1 lap of its coordinate (R73, R403). Safe. -/
  | misuseEntryRewrite
  /-- Encoder edges faster than 10 million counts per second (R51, R403). Safe. -/
  | misuseEncoderRate
  /-- A PRBS checker enabled on a lane that carries traffic outside TEST (R298, R403). Safe. -/
  | misusePrbsCheck
  /-- Self-refresh entered while a ring is not STOPPED or the control trace runs (R368, R403). Safe. -/
  | misuseSelfRefresh
  /-- INIT_RESUME without devices in self-refresh or with foreign training values (R357, R403). Safe. -/
  | misuseInitResume
  /-- Equal claim numbers on both twins (R387, R403). Safe. -/
  | misuseEqualClaims
  /-- A refresh interval above the JEDEC interval for the present temperature (R364, R403). Safe. -/
  | misuseRefresh
deriving DecidableEq, Repr

/-- Why the model gives a command no meaning. -/
inductive Refusal where
  /-- The command has no meaning in this model yet; answered by the dispatch alone. Safe. -/
  | notModelled (mnemonic : String)
deriving DecidableEq, Repr

/-- A command that was accepted with PEND = 1 (R10): at its acceptance the boundary count, the count of real boundaries (with the
hold laps of R376) and the instant on the block's own clock; and the word written. -/
structure Acc where
  bnd : Nat
  tick : Nat
  at0 : Nat
  word : Word
deriving DecidableEq, Repr

/-- The event fabric, the event counters and the journal's bookkeeping (R22, R234, R411, R432). `raised` holds the events
posted in the present step; it is empty between steps. `inCycle` are the numbers posted in the fabric cycle `cycle` (plus 1) of the
block's own clock; `loose` says that an instruction has issued in that cycle's instant, so that a post's own cycle within it is open;
`posts` counts the posts. -/
structure Fabric where
  raised : List Nat := []
  cycle : Nat := 0
  inCycle : List Nat := []
  loose : Bool := false
  posts : Nat := 0
  pend : Tab Word := []
  counts : Tab Nat := []
  jrnlAt : Tab Nat := []
  jrnlSeq : Nat := 0
  wear : Tab Nat := []
deriving DecidableEq, Repr

/-- A trigger on its way to a ring (R176): the ring, the source code, whether it opens or closes a window, its stamp and
trigger lap, the boundary count at which it reaches the ring, its pin, channel, event or entry index, and for a Hurdle exit
whether it left above HIGH. -/
structure Offer where
  ring : Nat
  src : Nat
  opens : Bool := false
  closes : Bool := false
  stamp : Nat
  tlap : Nat
  reach : Nat
  idx : Nat := 0
  high : Bool := false
deriving DecidableEq, Repr

/-- What leaves the block: a frame on a lane, a frame of a MAC, a level on a pin, a word on the SPI or JTAG pins. -/
inductive Port where
  | lane (n : Nat) | mac (m : Nat) | trigOut (j : Nat) | trigBus | aout (j : Nat) | pwm (j : Nat) | drive (d : Nat)
  | spi | qspi | tdo | led (i : Nat) | gpio (i : Nat) | sfp (k : Nat) | hold | svc
deriving DecidableEq, Repr

/-- One thing that left the block: where, and its bytes (a level is one byte). -/
structure Sent where
  port : Port
  data : List Byte
deriving DecidableEq, Repr

/-! ### Time, belt position, mains and the Start List (spec/02_timebase.md) -/

/-- One tracked time source (R44, R45): consecutive measurements, the count of real boundaries at the latest measurement (or at the
start of tracking), whether it is lost, and its offset estimate in 2^-16 ns. -/
structure Source where
  run : Nat := 0
  last : Nat := 0
  lost : Bool := false
  offset : Int := 0
deriving DecidableEq, Repr

/-- The Pacer (R37 to R48). `time` is the line time of the present boundary and `ofs` the latest instant within the present
lap, in 2^-16 ns; `slew` is the offset still to be slewed in fifths of that unit, so that 100 ns/s is 32 per lap (R41); `cut` is by how
much the laps shortened by steps have fallen short of a lap, in all (R39). -/
structure Pacer where
  time : Nat := 0
  ofs : Nat := 0
  pri : Source := {}
  sec : Source := {}
  secActive : Bool := false
  stepDue : Option (Int × Nat) := none
  switchDue : Option (Bool × Nat) := none
  lockRun : Nat := 0
  slew : Int := 0
  stepped : Bool := false
  cut : Nat := 0
deriving DecidableEq, Repr

/-- One encoder count (R52): its line time, the position after it and its signed distance, in 2^-16 µm. -/
structure Count where
  time : Int
  pos : Int
  step : Int
deriving DecidableEq, Repr

/-- One Tally (R51 to R58). Positions in 2^-16 µm, times in 2^-16 ns, newest count first. For a REMOTE Tally `pos` at `te`
with the broadcast velocity `vel` (2^-4 µm/s) and the difference `adj` being removed over one interval (R54). `atB` and
`velB` are the position and velocity at the latest lap boundary. -/
structure TallyRun where
  pos : Int := 0
  te : Int := 0
  counts : List Count := []
  vel : Int := 0
  adj : Int := 0
  heard : Nat := 0
  presetDue : Option Nat := none
  jumpDue : Option (Int × Int × Int) := none
  atB : Int := 0
  velB : Int := 0
deriving DecidableEq, Repr

/-- The mains phase tracker (R59, R60): the coordinate at line time `at0`, in 1/65 536 000 000 000 of 1/65 536 cycle (before `at0`
it stands), the measured frequency in 16.16 Hz (it advances the coordinate by that much each 2^-16 ns), the coordinate at the latest
lap boundary, the latest crossing with its count of real boundaries, the consistent cycles in a row, and a pending loss by
frequency. For channel CHAN: its latest code with its line time, and a zero crossing found between two codes that waits for its row.
-/
structure Mains where
  coord : Nat := 0
  at0 : Int := 0
  freq : Nat := 0
  coordB : Nat := 0
  crossed : Option Int := none
  crossBnd : Nat := 0
  run : Nat := 0
  bad : Bool := false
  code : Option (Int × Int) := none
  found : Option Int := none
deriving DecidableEq, Repr

/-- A taken Start List action (R62, R65, R69): the entry that was taken (the chain's head for a member), its place in the chain (0
for an action that is not in a chain), the entry that acts, its crossing time, its effect boundary count, whether it was late or
slipped, whether the entry ends with it, and, once a crossing-timed action has acted before its boundary, its log words. -/
structure Taken where
  n : Nat
  place : Nat := 0
  idx : Nat
  cross : Nat
  eff : Nat
  late : Bool := false
  slipped : Bool := false
  ends : Bool := true
  ran : Option (List Word) := none
deriving DecidableEq, Repr

/-- The Start List engine (R62 to R74): the entries that wait, the sign at enable of EITHER entries, the entries that a step of
their Tally has put beyond their coordinate (R58), the late occurrences of periodic entries with the boundary count from which
they are taken, the taken actions in the order of R68, and the actions that took effect in the present lap. -/
structure StartList where
  wait : List Nat := []
  sign : Tab Int := []
  passed : List Nat := []
  lateFrom : Tab Nat := []
  taken : List Taken := []
  count : Nat := 0
deriving DecidableEq, Repr

/-- An encoder input and one strength of the glitch filter (R51): the levels at the pins with the latest change of each, the levels that
have passed the filter, and the latest four counts, newest first; instants on the block's own clock plus 1. -/
structure EncIn where
  rawA : Bool := false
  rawB : Bool := false
  atA : Nat := 0
  atB : Nat := 0
  a : Bool := false
  b : Bool := false
  counted : List Nat := []
deriving DecidableEq, Repr

/-- The timebase: with the encoder inputs by input × 4 + filter strength, position and velocity of each Tally at the lap-domain boundary
before the latest (R377), and the Tallies that have stepped at the latest (a bit each). -/
structure Tbs where
  pacer : Pacer := {}
  enc : Tab EncIn := []
  tally : Tab TallyRun := []
  mains : Mains := {}
  sl : StartList := {}
  before : List (Int × Int) := []
  stepped : Nat := 0
deriving DecidableEq, Repr

/-! ### The front end (spec/03_front_end.md) -/

/-- One bank (R86 to R108). The driver: laps of ramp and SETTLE left, whether the ramp is one of 21 laps, the mode and reversal exponent
being driven, the signed level driven and its target (with the polarity of the lap), blank laps left and the polarity; the latest sense
result, with the sign of its lap. STL: laps left of the
excitation and plug windows. The sense check: laps ON, runs below and above 50 %, the fault condition and the STL it sets from
the next boundary. The current limit, the plug pin (true: high, unplugged) and its run, a cleared PLUG.EN, and TTEMP. -/
structure Bank where
  ramp : Nat := 0
  slow : Bool := false
  settle : Nat := 0
  mode : Nat := 0
  rev : Option Nat := none
  level : Int := 0
  target : Int := 0
  blank : Nat := 0
  neg : Bool := false
  sense : Int := 0
  stl : Nat := 0
  plugStl : Nat := 0
  onLaps : Nat := 0
  snsLow : Nat := 0
  snsHigh : Nat := 0
  snsBad : Bool := false
  snsStl : Bool := false
  limiting : Bool := false
  limitLaps : Nat := 0
  plugPin : Bool := true
  plugRun : Nat := 0
  plugClear : Bool := false
  cmClear : Bool := false
  ttBad : Bool := false
  ttAt : Nat := 0
deriving DecidableEq, Repr

/-- One channel from its pins to its corrected code: laps left of its range or filter window (R84); the latest delivered code with its
range and its raw flags (bits 0 CLAMP, 1 CMX, 2 STL, 3 hand-over mark), which substitute a lost one (R409); the polarity of the latest lap, the
code delivered last before the polarity changed with its range (R91), and the latest code before the inversion; the runs of codes at or
beyond and below THR (R98), and the boundary count plus 1 at which a disconnection of burn-out last ended OPEN; and the recovery laps
of the overload detector that are left (R129). -/
structure Chan where
  stl : Nat := 0
  code : Int := 0
  range : Nat := 0
  flags : Nat := 0
  neg : Bool := false
  held : Int := 0
  heldRange : Nat := 0
  plain : Int := 0
  openRun : Nat := 0
  closeRun : Nat := 0
  openTo : Nat := 0
  recover : Nat := 0
  subst : Bool := false
deriving DecidableEq, Repr

/-- The front end: banks, channels, and the present common-mode voltages at the pins in mV. -/
structure Afe where
  bank : Tab Bank := []
  chan : Tab Chan := []
  vcm : Tab Int := []
deriving DecidableEq, Repr

/-! ### Conversion (spec/04_conversion.md) -/

/-- The pairs of an overlap (R123): how many are usable, the sums of the outgoing slice's codes, of the spare's, of the products and of the
squares of the former, and the sums of the magnitudes of both slices' slot-16 residuals, in 2^-12 LSB16. -/
structure Pairs where
  n : Nat := 0
  sumO : Int := 0
  sumS : Int := 0
  sumOS : Int := 0
  sumOO : Int := 0
  resO : Nat := 0
  resS : Nat := 0
deriving DecidableEq, Repr

/-- The calibration logic (R111 to R134): the extensions of the overlap, whether it is paused (kept through HELD), an epoch
that starts or a step that ends at the next boundary, whether the present epoch has been measured, the pairs of the overlap, the slot-16
residuals of the present block by `slice * 16 + level` (how many, and their sum in 2^-12 LSB16), whether BUF_EN has been cleared in the
present lap, the suspect slices in order, the target the rotation returns to, the
slices with an epoch and a trimmed hand-over since the die came up, the boundary of the latest tracking block; the runs of
the reference inside ±0.01 % and outside ±0.5 %; the banks under skew calibration and the laps left; the banks whose codes
carry a hand-over mark in the present lap; and the latest hand-over's lap and residual, which a read of CNV_HO_INFO
latches. -/
structure Cnv where
  ext : Nat := 0
  paused : Bool := false
  startDue : Bool := false
  stopDue : Bool := false
  measured : Bool := false
  pairs : Pairs := {}
  track : Tab (Nat × Int) := []
  bufLow : Bool := false
  suspects : List Nat := []
  norm : Nat := 0
  matched : Nat := 0
  trackAt : Nat := 0
  okRun : Nat := 0
  badRun : Nat := 0
  skewMask : Nat := 0
  skewLeft : Nat := 0
  hoNow : Nat := 0
  hoLap : Nat := 0
  hoResid : Nat := 0
deriving DecidableEq, Repr

/-- What a closed lap leaves for its frame of codes, which arrives during the next lap (R24): its lap count, whether the analog
die was up, the channels with STL and CMX, those inverted and blanked, the banks driven negative and blanked, those under skew calibration
and with a hand-over mark, the registers and the active Catalogue in force at its end, and whether its frame has arrived. -/
structure LapInfo where
  lap : Nat := 0
  up : Bool := false
  stl : Nat := 0
  cmx : Nat := 0
  neg : Nat := 0
  blank : Nat := 0
  bankNeg : Nat := 0
  bankBlank : Nat := 0
  skew : Nat := 0
  ho : Nat := 0
  regs : Tab Word := []
  cat : Tab Word := []
  got : Bool := true
deriving DecidableEq, Repr

/-! ### Reduction (spec/05_reduction.md) -/

/-- A sample record on its way to the consumers (R154): channel, sequence number, tag, value, reference lap (R171), closing
lap, the line time for which it stands, and, for a Hurdle exit, whether it left above HIGH. -/
structure Rec where
  chan : Nat
  seq : Nat
  tag : Nat
  value : Word
  ref : Nat
  close : Nat
  time : Nat
  exit : Option Bool := none
deriving DecidableEq, Repr

/-- A grid point crossed (R144): its position, its crossing time, and the lap at whose close its record is complete. -/
structure GridPt where
  pos : Int
  time : Nat
  close : Nat
deriving DecidableEq, Repr

/-- Stages 2 to 6 of one channel (R136 to R145), in words of `chainBits` fraction bits: whether a lap has entered them, the skew that stage 2
acts on in 1/16 ps, its nine words, the integrators and the differences of the CIC, the words in the half-band stages and in the
compensating filter, newest first, the notch's two last inputs and outputs, and the base words that records may still use with their
boundary counts, newest first. -/
structure Chain where
  live : Bool := false
  skew : Int := 0
  line : List Int := []
  sum1 : Int := 0
  sum2 : Int := 0
  sum3 : Int := 0
  last3 : Int := 0
  diff1 : Int := 0
  diff2 : Int := 0
  half1 : List Int := []
  half2 : List Int := []
  fir : List Int := []
  notchX1 : Int := 0
  notchX2 : Int := 0
  notchY1 : Int := 0
  notchY2 : Int := 0
  base : List (Nat × Int) := []
deriving DecidableEq, Repr

/-- One channel's records (R140 to R156): the next sequence number, the tap, the Hurdle state (0 INIT, 1 IN, 2 OUT), the grid
points waiting for their record, the latest recorded point, whether the last lap had no crossing, the last good T_cj as
binary64 bits, whether a replaced one is in use, and by boundary count the filter resets whose lap has not entered the chain, the returns
of the Hurdle to INIT that no record has met, and the latest commit of the entry. -/
structure RedChan where
  seq : Nat := 0
  tapValue : Word := 0
  tapTag : Nat := 0
  tapSeq : Nat := 0
  hurdle : Nat := 0
  grid : List GridPt := []
  gridPos : Int := 0
  waiting : Bool := false
  cjc : Option Nat := none
  cjcFb : Bool := false
  resets : List Nat := []
  inits : List Nat := []
  entryAt : Nat := 0
deriving DecidableEq, Repr

/-- A lap that records may close on (R141): its boundary count, its lap count, and the active Catalogue and user curves in force. -/
structure LapRec where
  bnd : Nat
  lap : Nat
  cat : Tab Word
  curve : Tab Word
deriving DecidableEq, Repr

/-- The reduction block: the active Catalogue by `channel * 256 + offset` and curves by `curve * 1024 + offset`, the user
curves whose shadow has been written, the channels, the marked laps of each channel and kind as intervals of boundary counts
(newest first, key `channel * 8 + kind`, channel 256 standing for all), the sign-corrected sense values of each bank with
their boundary counts (newest first), the closed laps whose records are still to come (oldest first), the chains, and how many bytes the
record buffer holds (R161). -/
structure Red where
  active : Tab Word := []
  curve : Tab Word := []
  dirty : Nat := 0
  chan : Tab RedChan := []
  marks : Tab (List (Nat × Nat)) := [(2048, [(0, 0)])]
  sense : Tab (List (Nat × Int)) := []
  laps : List LapRec := []
  chains : Tab Chain := []
  fill : Nat := 0
deriving DecidableEq, Repr

/-! ### Outputs (R178, R212) -/

/-- A pulse in progress on a TRIG_OUT pin: the pin, its active level, its start and end on the block's own clock, and its order
among pulses that start at one instant (0 Start List, 1 + r ring r). -/
structure Pulse where
  pin : Nat
  level : Bool
  start : Nat
  stop : Nat
  order : Nat
deriving DecidableEq, Repr

/-- A frame handed to an output path (R215, R248): the path (0 the line on VC0, 1 the MAC of lane 3, 2 that of lane 2), the line
address or Ethernet destination index, whether it is a message frame, and the payload. -/
structure Outgoing where
  path : Nat
  dest : Nat
  message : Bool
  data : List Byte
deriving DecidableEq, Repr

/-- An item of the digest of a boundary (R383): the boundary count, its order and key, and its bytes. -/
structure DigestItem where
  bnd : Nat
  order : Nat
  key : Nat
  data : List Byte
deriving DecidableEq, Repr

/-- The TRIG_OUT and TRIG_BUS outputs: base levels, pulses (latest started first), the pins that have been set or pulsed since the
reset, the rings that pull the bus low with the end of each drive, the rings whose drive causes the falling edge that follows, the
boundary count at which they began, and the start and the end of that drive; the rings of a hub without the top claim that would
have begun, and the boundary count; the AOUT and PWM values written by software for the next boundary, who last set each output at
the present boundary in the order of R211 (by 16 × kind + number: 1 a commit of a core, 2 the Start List, 3 + u unit u), and for
each PWM the duty of its present period; the output frames that wait for their path; the digest items of the present boundary and
the next, and the count of frames of each drive slot. -/
structure Outs where
  base : Tab Bool := []
  pulses : List Pulse := []
  pinSet : Nat := 0
  bus : Tab Nat := []
  busOwn : List Nat := []
  busAt : Nat := 0
  busStart : Nat := 0
  busStop : Nat := 0
  busPeer : List Nat := []
  busPeerAt : Nat := 0
  aout : List (Nat × Word) := []
  setBy : Tab Nat := []
  duty : List (Nat × Word) := []
  pwmNow : Tab Nat := []
  frames : List Outgoing := []
  digest : List DigestItem := []
  driveSeq : Tab Nat := []
deriving DecidableEq, Repr

/-! ### Acquisition (spec/06_acquisition.md) -/

/-- A trigger input, TRIG_IN 0 to 7 or the bus as 8 (R177, R178): the latest selected edge and the latest accepted one, on the
block's own clock plus 1 (0: none), and the latest accepted stamp in ns. -/
structure TrigIn where
  last : Nat := 0
  acc : Nat := 0
  stamp : Nat := 0
deriving DecidableEq, Repr

/-- A folio being filled or waiting for VALID (R180 to R191). `t` is T after R180, or O; `last` is unknown while the window is
open; `e` is the boundary count of E; `close` is X. The slot's address, the kind of ring, and the event that follows VALID are kept from the
ring's configuration. -/
structure Folio where
  slot : Nat
  serial : Nat
  t : Nat
  first : Nat
  last : Option Nat
  e : Nat := 0
  stamp : Nat
  src : Nat
  idx : Nat
  high : Bool := false
  window : Bool := false
  forced : Bool := false
  short : Bool := false
  wrap : Bool := false
  trunc : Bool := false
  nested : List Nat := []
  nestedN : Nat := 0
  misses : Nat := 0
  close : Nat := 0
  discarded : Nat := 0
  tallies : List Int := []
  addr : Nat := 0
  record : Bool := false
  post : Option Nat := none
deriving DecidableEq, Repr

/-- What a capture ring holds beside its registers (R166 to R187): the first lap written after ARM and its boundary count, Lmax,
the LAST of the previous folio, the flags of the laps held (newest first, four bits a member), the records each member delivered
since ARM, those its shelf holds (newest first) and the reference laps of those it no longer holds, the Hurdle exits of members
(channel, reference lap, above HIGH), the folio being filled, the end of REARM, since when the present state has lasted, whether
an AUTO trigger fires at the present boundary, the last slot assigned plus 1, the serial held in each slot, the misses since the
last assignment, the folios that wait for VALID, and whether a DISARM is running. -/
structure Ring where
  armLap : Nat := 0
  armBnd : Nat := 0
  lmax : Nat := 0
  prevLast : Option Nat := none
  flags : List (Nat × Nat) := []
  count : Tab Nat := []
  shelves : Tab (List Rec) := []
  lost : Tab (List Nat) := []
  exits : List (Nat × Nat × Bool) := []
  folio : Option Folio := none
  rearmEnd : Nat := 0
  since : Nat := 0
  auto : Bool := false
  lastSlot : Nat := 0
  serials : Tab Nat := []
  missed : Nat := 0
  publish : List Folio := []
  disarm : Bool := false
deriving DecidableEq, Repr

/-- Acquisition: the trigger inputs, the rings, and the Tallies' positions and velocities at lap boundaries (line time of the
boundary, one pair a Tally; newest first, a boundary that repeats the values before it is not listed). -/
structure Acq where
  inp : Tab TrigIn := []
  ring : Tab Ring := []
  tally : List (Nat × List (Int × Int)) := []
deriving DecidableEq, Repr

/-! ### The control engine (spec/07_control.md) -/

/-- A feedback snapshot: the tap's value, tag and sequence number (R21, R199). -/
structure Tap where
  value : Word := 0
  tag : Nat := 0
  seq : Nat := 0
deriving DecidableEq, Repr

/-- A tick of one loop in the queue (R197, R199): its unit, its tick boundary as a boundary count and as a lap count, and the
snapshots of the tap, of the alternate tap, of the setpoint, and of the active configuration and gain tables. -/
structure Tick where
  loop : Nat
  unit : Nat
  bnd : Nat
  lap : Nat
  fb : Tap
  alt : Tap
  sp : Word
  cfg : Tab Word
  gain : Tab Word
deriving DecidableEq, Repr

/-- What the evaluation of one loop leaves until its unit is complete (R202, R208): its tick, u, u_raw, ki × e × dt, dt, whether the
law ran, whether its output is forced, the feedback used, sp_eff and the test signal, and whether it is under test. -/
structure Eval where
  tick : Tick
  u : FVal
  uraw : FVal
  di : FVal
  dt : FVal
  law : Bool
  forced : Bool
  fb : Tap
  sp : FVal
  sig : FVal
  test : Bool
deriving DecidableEq, Repr

/-- The outputs of a unit between the last member's evaluation and the commit boundary (R198): the boundary count of the lap of
that slot, g, the winner, and the evaluations. -/
structure UnitOut where
  unit : Nat
  bnd : Nat
  g : FVal
  winner : Nat
  evals : List Eval
deriving DecidableEq, Repr

/-- The checks of one feedback tap (R217): the ticks checked and the two latest sequence numbers, and the freeze run: its length, fb₀
and a₀. -/
structure Check where
  ticks : Nat := 0
  seqs : List Nat := []
  frozen : Nat := 0
  frFb : FVal := .fin false 0 0
  frA : FVal := .fin false 0 0
deriving DecidableEq, Repr

/-- The law's variables of one loop (R202, R204, R217 to R219): the integrator, the filtered derivative, fb_prev, the previous
evaluated tick, the checks of the primary and of the alternate tap, the last committed value, whether the alternate feedback is lost
too, whether RESUME awaits its first tick; what a latching read of OUTPUT takes: u, the feedback and the lap of the committed tick;
and the boundary count plus 1 of the latest tick. -/
structure LoopRun where
  integ : FVal := .fin false 0 0
  df : FVal := .fin false 0 0
  fbPrev : FVal := .fin false 0 0
  prev : Option Nat := none
  chk : Check := {}
  altChk : Check := {}
  a : Word := 0
  altLost : Bool := false
  resumed : Bool := false
  u : Word := 0
  fb : Tap := {}
  tickLap : Nat := 0
  tickBnd : Nat := 0
deriving DecidableEq, Repr

/-- The test generator as started at S (R220, R221): its settings, the ticks evaluated, the phase of the chirp, the register of the
maximal-length sequence and the ticks its present bit has served, and whether the first tick has posted its event. -/
structure TestGen where
  loop : Nat := 0
  point : Bool := false
  wave : Nat := 0
  hold : Nat := 1
  order : Nat := 7
  amp : FVal := .fin false 0 0
  f0 : FVal := .fin false 0 0
  f1 : FVal := .fin false 0 0
  len : Nat := 0
  tlen : Nat := 0
  start : Nat := 0
  ticks : Nat := 0
  phase : FVal := .fin false 0 0
  lastF : FVal := .fin false 0 0
  lfsr : Nat := 0
  held : Nat := 0
  posted : Bool := false
deriving DecidableEq, Repr

/-- The control engine: the active configuration by register address and the active gain points by window offset, the loops, the
queue of ticks, the evaluations of the unit in progress, the outputs waiting for their commit boundary, the slots used in the
present lap, the loops that LOOP_TICK actions name at the present boundary, the software setpoints for the next one, the test
generator, the trace's region (base, size) once it has been taken into use (R363), and the groups that have had a winner. -/
structure Ctl where
  active : Tab Word := []
  gain : Tab Word := []
  run : Tab LoopRun := []
  queue : List Tick := []
  evals : List Eval := []
  outs : List UnitOut := []
  slots : Nat := 0
  slMask : Nat := 0
  setpoints : List (Nat × Word) := []
  test : TestGen := {}
  trace : Option (Nat × Nat) := none
  hadWinner : Nat := 0
deriving DecidableEq, Repr
/-! ### The cores and their queues (spec/08_cores.md, spec/09_ralnel_isa.md) -/

/-- A WAIT that sleeps (R235): its destination, group, mask, timeout in core cycles, and the start on the block's clock. -/
structure Asleep where
  wd : Nat
  group : Nat
  mask : Word
  timeout : Nat
  start : Nat
deriving DecidableEq, Repr

/-- One core (R257, R275): the general and float registers, the accumulators, the flags N, Z, C and V from bit 3 down, the pc, the
system registers, the instant from which CYCLE counts, a WAIT that sleeps, the lines of the data cache (line number and its 32
bytes, latest filled first) and the write buffer, oldest first (R231). The mode and the run state stand in
TOP_COREn_STATUS. -/
structure Core where
  w : Tab Word := []
  f : Tab Word := []
  acc0 : Int := 0
  acc1 : Int := 0
  flags : Nat := 0
  pc : Nat := 0x90000000
  vbase : Word := 0x90000000
  epc : Word := 0
  estat : Word := 0
  eval : Word := 0
  scratch0 : Word := 0
  scratch1 : Word := 0
  cycle0 : Nat := 0
  asleep : Option Asleep := none
  cache : List (Nat × List Byte) := []
  stores : List (Nat × List Byte) := []
deriving DecidableEq, Repr

/-- A queue entry (R238, R242, R244): its words, the instant at which it entered on the block's clock, and for a commit descriptor
the boundary count of that instant and its commit lap. -/
structure QEntry where
  words : List Word
  at0 : Nat
  bnd : Nat := 0
  lap : Int := 0
deriving DecidableEq, Repr

/-- A queue (R238 to R244): its entries, oldest first, how many of them the consumer is known to see, the instants of the pops that
the producer may not see yet (newest first), and the entry last popped. -/
structure Queue where
  items : List QEntry := []
  seen : Nat := 0
  pops : List Nat := []
  last : List Word := [0, 0, 0]
deriving DecidableEq, Repr

/-- The cores; the queues by number as in TOP_QSTATq; the frame count of each message slot; and the boundary count at which the
commit queues were last applied. -/
structure Cores where
  core : Tab Core := []
  queue : Tab Queue := []
  msgSeq : Tab Nat := []
  commitAt : Nat := 0
deriving DecidableEq, Repr

/-! ### The lanes (spec/10_lanes.md) -/

/-- The PRBS checker of a lane (R298): the latest bits, the bits seeded or correct in a row, the mismatches among the latest 1 024 bits
compared as a mask and their number, whether it has LOCK, whether it has lost it in the bits just taken, and BITS and ERR. -/
structure Checker where
  reg : Nat := 0
  run : Nat := 0
  hist : Nat := 0
  missed : Nat := 0
  lock : Bool := false
  lost : Bool := false
  bits : Nat := 0
  errs : Nat := 0
deriving DecidableEq, Repr

/-- One lane beside its registers (R287 to R300), instants on the block's own clock: the control word as taken, the entry into the
present state and into the present attempt, the latest wake burst and the latest fill block (plus 1), whether RX_READY is set, the
partner's good blocks with RX_READY, its GO, whether a good training block has come in this attempt, the answers to tap requests and
this lane's own requests (PRE, MAIN, POST; PRESET), whether the receiver has inverted itself, the run of good training blocks in UP or
RELOCK and their rate, the training blocks sent and those of CONFIRM, the fill sequence, the end of a freeze. The stream sent: the bit
that left at `bitAt`, the end of what has been sent, the scrambler, the disparity of 8b/10b (true: positive) and the generator. The
injector: the bits still to be inverted, the bit from which rate injection counts (plus 1), and the windows it has passed. The checker. -/
structure Lane where
  taken : Word := 0
  since : Nat := 0
  attempt : Nat := 0
  wake : Nat := 0
  fillAt : Nat := 0
  absentPosted : Bool := false
  rxReady : Bool := false
  readyGot : Nat := 0
  go : Bool := false
  goodSeen : Bool := false
  answers : Nat × Nat × Nat := (0, 0, 0)
  asks : Nat × Nat × Nat := (0, 0, 0)
  askPreset : Bool := false
  rxFlip : Bool := false
  trainRun : Nat := 0
  trainRate : Nat := 0
  blocks : Nat := 0
  confirm : Nat := 0
  fill : Nat := 0x7FFFFFFF
  frozen : Nat := 0
  bitBase : Nat := 0
  bitAt : Nat := 0
  txPos : Nat := 0
  scram : Nat := 0x3FFFFFFFFFFFFFF
  parity : Bool := false
  gen : Nat := 0x7FFFFFFF
  flips : List Nat := []
  injFrom : Nat := 0
  injWin : Nat := 0
  injReg : Nat := 0
  chk : Checker := {}
deriving DecidableEq, Repr

/-- The lanes. -/
structure Lanes where
  lane : Tab Lane := []
deriving DecidableEq, Repr

/-! ### The line engine and the twin link's framing (spec/11_woten_line.md, spec/14_twin.md R373) -/

/-- A Woten frame (R310); `west` is DIR. -/
structure LineFrame where
  vc : Nat := 0
  type : Nat := 0
  nak : Bool := false
  retx : Bool := false
  echo : Bool := false
  bcast : Bool := false
  cut : Bool := false
  west : Bool := false
  dst : Nat := 0
  srcNone : Bool := false
  epoch : Nat := 0
  src : Nat := 0
  lseq : Nat := 0
  lack : Nat := 0
  hops : Nat := 0
  aux : Nat := 0
  payload : List Byte := []
deriving DecidableEq, Repr

/-- An unacknowledged frame of one VC (R313); `hole` is the upstream lane and LSEQ of a cut-through frame whose good copy has not
arrived (R316). -/
structure Unacked where
  frame : LineFrame
  hole : Option (Nat × Nat) := none
deriving DecidableEq, Repr

/-- One VC of one link (R313, R314, R333). Sending: the next LSEQ, the unacknowledged frames, oldest first, the place among them from
which they are sent again, the new frames that wait, when the timeout started, and the timeouts in a row. Receiving: the expected
LSEQ, the frames accepted since the last acknowledgement, the first of them on the block's clock, and whether a NAK has been sent
for the expected value. Injection: a frame that is held until an instant, and the frames that follow the next one, in the order in which
they leave. -/
structure LinkVc where
  next : Nat := 0
  unacked : List Unacked := []
  again : Option Nat := none
  queue : List LineFrame := []
  since : Nat := 0
  tries : Nat := 0
  expect : Nat := 0
  owed : Nat := 0
  owedAt : Nat := 0
  naked : Bool := false
  held : Option (List Byte × Nat) := none
  after : List (List Byte) := []
deriving DecidableEq, Repr

/-- A cut-through frame that waits for its egress (R316): the frame, its arrival as a line time and the delay toward this hub (the
hub's own frames have none), the upstream lane and LSEQ, and whether its CRC-32 failed. -/
structure CutFrame where
  frame : LineFrame
  arrival : Option (Nat × Int) := none
  lane : Nat := 0
  lseq : Nat := 0
  bad : Bool := false
deriving DecidableEq, Repr

/-- One link (lanes 0, 1 and 2): its VCs, the ACK frames (VC, NAK) and the cut-through frames that wait, the latest link delays in
2^-16 ns (newest first, R319), the boundary counts plus 1 of the latest accession and split request, and what R308 remembers:
the carried value of the latest conflict plus 1, and whether the mismatch has been posted. -/
structure Link where
  vc : Tab LinkVc := []
  acks : List (Nat × Bool) := []
  cut : List CutFrame := []
  delays : List Int := []
  exchanges : Nat := 0
  accession : Nat := 0
  split : Nat := 0
  carried : Nat := 0
  mismatch : Bool := false
deriving DecidableEq, Repr

/-- An accepted frame, or a cut-through frame whose CRC-32 failed, that waits for its handling: the lane and the receive stamp. -/
structure Arrived where
  lane : Nat
  stamp : Nat
  frame : LineFrame
  bad : Bool := false
deriving DecidableEq, Repr

/-- What a hub knows of one head (R326): its latest Baton frame on the block's clock, and since when it has been reachable. -/
structure HeadSeen where
  baton : Option Nat := none
  reach : Option Nat := none
deriving DecidableEq, Repr

/-- A global operation that this hub acts on (R329): its frame's fields, the sign and the step note of its Tally, and once it is taken
its crossing time, effect boundary count and lateness. -/
structure Gop where
  src : Nat
  id : Nat
  op : Nat
  space : Nat
  dir : Nat
  value : Nat
  arg : Nat
  sign : Int := 0
  passed : Bool := false
  taken : Option (Nat × Nat × Bool) := none
deriving DecidableEq, Repr

/-- The line engine: the links; the arrived frames; what has been delivered to software (R318); the west head and the east head;
the open STREAM frames (records as word pairs, oldest first, and the boundary count of the first); Spill (stream number, slot and
frame, oldest first), the next slot, the next number to send and the number after the highest sent; what a head has accepted (address:
epoch, number) and acknowledges (address: NEXT), and the hubs of which it has turned a frame away (address: epoch, latest number seen
since); the operations this hub acts on, the results it owes to echoes (source, identifier, bits), the
operation count of an issuer, the identifier, boundary count and issue instant of the operation in flight, the snapshots to take
(L, boundary count); the injector's count of eligible frames and its PRBS23 register; the boundary counts plus 1 of
the latest Baton frame and STREAM_ACK, the Baton count, and the latest broadcasts of the Tallies. -/
structure Wot where
  link : Tab Link := []
  inbox : List Arrived := []
  delivered : List LineFrame := []
  west : HeadSeen := {}
  east : HeadSeen := {}
  openFrames : Tab (List (Word × Word) × Nat) := []
  spill : List (Nat × Nat × LineFrame) := []
  slot : Nat := 0
  sendNext : Nat := 0
  sentTop : Nat := 0
  accepted : Tab (Nat × Nat) := []
  turnedAway : Tab (Nat × Nat) := []
  acked : Tab Nat := []
  gops : List Gop := []
  results : List (Nat × Nat × Nat) := []
  opId : Nat := 0
  issued : Option (Nat × Nat) := none
  snaps : List (Nat × Nat) := []
  injCount : Nat := 0
  injReg : Nat := 0
  batonAt : Nat := 0
  batonSeq : Nat := 0
  ackAt : Nat := 0
  bcastAt : Tab Nat := []
deriving DecidableEq, Repr

/-! ### Ethernet and PTP (spec/12_uplink_ptp.md) -/

/-- A PTP message that an engine has taken: its receive stamp and its octets. -/
structure PtpMsg where
  engine : Nat
  stamp : Nat
  data : List Byte
deriving DecidableEq, Repr

/-- One PTP engine (R343 to R345), times in 2^-16 ns: the latest path delay samples, newest first; the sequenceId of the next
request, its instant on the block's clock plus 1, and the request in flight (sequenceId, transmit stamp); a two-step Pdelay_Resp
that waits (sequenceId, t2, t4, correction); a two-step Sync that waits (sequenceId, t2, correction, arrival); the latest complete
Sync (t1, t2, c_sync); requests without a response and spikes in a row. -/
structure Ptp where
  path : List Int := []
  seq : Nat := 0
  reqAt : Nat := 0
  flight : Option (Nat × Nat) := none
  resp : Option (Nat × Int × Nat × Int) := none
  waiting : Option (Nat × Nat × Int × Nat) := none
  sync : Option (Int × Nat × Int) := none
  missed : Nat := 0
  spikes : Nat := 0
deriving DecidableEq, Repr

/-- Ethernet: the engines; the PTP messages and the gateway datagrams (their payloads) that wait; and the frames in the gateway
buffer with their entry on the block's clock and their place in the buffer, oldest first. -/
structure Eth where
  ptp : Tab Ptp := []
  msgs : List PtpMsg := []
  datagrams : List (List Byte) := []
  gateway : List (LineFrame × Nat × Nat) := []
deriving DecidableEq, Repr


/-! ### The DRAM controller (spec/13_dram.md) -/

/-- A request that waits (R361, R369): its traffic class (0 Capture, 1 Archive, 2 Program, 3 Scrub), whether it writes, its address,
its bytes with the mask of those that are written (for a read, how many bytes), the bits that the devices give inverted, its arrival
on the block's clock, whether its latency is measured, the core that asks, if one does, and whether it is a write-back of a corrected line. -/
structure DramReq where
  cls : Nat
  write : Bool
  addr : Nat
  data : List Byte
  mask : Nat
  flips : List Nat
  at0 : Nat
  measured : Bool
  core : Option Nat := none
  back : Bool := false
deriving DecidableEq, Repr

/-- The controller: requests in its slots and at its ports, in order of arrival; the data of the latest read served; whether the
devices are in self-refresh with their contents; whether 2 GiB are fitted, as MR8 said; what every INIT on this board trained (the
bin and the 64 words); whose turn it is between Archive and Program and how many of it have passed (R362); the check lines in the
cache, and whether the contents were written with check bits (R365); whether a request has ended the present SR_ENTRY; whether
refresh runs at 2×, the bank refreshed next, and the MR4 reads at or below 0b011 in a row; the instants of the latest refresh, MR4
read, retraining, scrub, request and exit from self-refresh; the words of DRAM with wrong bits (by word number: bits 0 to 63 of the
data and 64 to 71 of the check bits); and the injected error that waits (line, number of bits; R410). -/
structure Dmc where
  queue : List DramReq := []
  port : List DramReq := []
  answer : List Byte := []
  asleep : Bool := false
  large : Bool := false
  trained : List (Nat × List Word) := []
  turn : Bool := false
  run : Nat := 0
  checks : List Nat := []
  coded : Bool := false
  aborting : Bool := false
  fast : Bool := false
  bank : Nat := 0
  cool : Nat := 0
  refreshAt : Nat := 0
  pollAt : Nat := 0
  tuneAt : Nat := 0
  scrubAt : Nat := 0
  askedAt : Nat := 0
  exitAt : Nat := 0
  latent : Tab (List Nat) := []
  inject : Option (Nat × Nat) := none
deriving DecidableEq, Repr

/-! ### The twin pair (spec/14_twin.md) -/

/-- The codes of one lap on their way to the lap domain (R24, R376, R378): the lap, the corrected code and the raw flags of each
channel (bits 0 CLAMP, 1 CMX, 2 STL, 3 hand-over mark), the channels with substituted codes, the sign-corrected sense value of each
bank, the banks with a new one, the codes before the inversion of R91, which the OPEN rule takes (R98), and, for the hub's own, the
CNV_SKEWc in force (R138). -/
structure DataLap where
  lap : Nat
  codes : List Int := []
  flags : List Nat := []
  subst : Nat := 0
  sense : List Int := []
  senseNew : Nat := 0
  plain : List Int := []
  skew : List Int := []
deriving DecidableEq, Repr

/-- What holds at the boundary of a lap (R377, R378): position and velocity of each Tally, mains frequency and coordinate, the frequency
at which the coordinate advances, the terminal temperature word of each bank, the banks with TT_FAULT, and, for the hub's own, the
Tallies that step at it (R58). -/
structure EdgeData where
  lap : Nat
  tally : List (Int × Int) := []
  freq : Nat := 0
  coord : Nat := 0
  rate : Nat := 0
  ttemp : List Nat := []
  ttBad : Nat := 0
  stepped : Nat := 0
deriving DecidableEq, Repr

/-- A digest of one hub (R383, R384): its boundary, its value, and the FAULT bit beside it. -/
structure Digest where
  lap : Nat
  value : Nat
  fault : Bool
deriving DecidableEq, Repr

/-- A handover or policy boundary (R386, R390): the lap-domain boundary, whether this hub proposed it, whether the partner has
confirmed it, whether the outgoing hub leaves step (FORCE_STANDBY), whether its sources have switched, and whether this hub then
leaves (R395). -/
structure Swap where
  h : Nat
  mine : Bool
  acked : Bool := false
  force : Bool := false
  switched : Bool := false
  leave : Bool := false
deriving DecidableEq, Repr

/-- The twin (R374 to R395). `heard` is the boundary count of the latest good frame; `holds` counts the hold laps made and `hold`
those left; `mirrored` says that the data source is the mirror, and `switchAt` names a lap from which on it is another. Instants are
on the block's own clock plus 1: `holdLow` since when TWIN_HOLD_IN has been low (0: high), `guardFrom` the raise of a takeover,
`linkAt` the entry to LINKING. Then the codes and the boundary data of the latest own laps (newest first), the boundary data in use
while λ is 3, the MIRROR halves received (lap, half, payload), the trigger edges of the latest laps (lap, side entry), the latest
lap mirrored; the join boundary, the next piece, the first lap mirrored to this hub, the boundary count at which it entered JOINING,
the end of the warm-up and the first boundary that is compared; own digests and the partner's, the latest own boundary digested and
the partner's latest; the unresolved mismatches and the first of them, a policy boundary with its policy; a handover in progress,
the lap from which on a handover has made the partner a standby, until it says its state, the lap whose codes carry a hand-over
mark, the lap that missed its deadline with the boundary count, the latest lap counted as late plus 1, whether a takeover is decided
with its boundary count; the banks gated off; and the sums of differences of the cross-check with their counts; and the lap that the
lap domain took last, with the boundary count at which it did. -/
structure Twin where
  heard : Nat := 0
  holds : Nat := 0
  hold : Nat := 0
  mirrored : Bool := false
  switchAt : Option (Nat × Bool) := none
  holdLow : Nat := 1
  guardFrom : Nat := 0
  linkAt : Nat := 0
  own : List DataLap := []
  edge : List EdgeData := []
  cur : Option EdgeData := none
  halves : List (Nat × Nat × List Byte) := []
  sides : List (Nat × Nat) := []
  sentLap : Nat := 0
  join : Option Nat := none
  piece : Nat := 0
  mirrorFrom : Option Nat := none
  joinAt : Nat := 0
  warmEnd : Option Nat := none
  compareFrom : Option Nat := none
  mine : List Digest := []
  peer : List Digest := []
  mineTo : Nat := 0
  peerTo : Nat := 0
  digestAt : Nat := 0
  openMm : Nat := 0
  firstMm : Nat := 0
  policy : Option (Nat × Nat) := none
  swap : Option Swap := none
  handed : Option Nat := none
  markLap : Option Nat := none
  missed : Option (Nat × Nat) := none
  lateLap : Nat := 0
  takeDue : Option Nat := none
  gateOff : Nat := 0
  xchk : Tab (Int × Nat) := []
  last : DataLap := { lap := 0 }
  usedTo : Nat := 0
deriving DecidableEq, Repr

/-! ### Health (spec/15_errors_ordering.md) -/

/-- The health block (R406 to R410): the boundary counts from which the temperature sensors and the supply monitors are due, the
boundary counts before which no regular sample replaces an injected reading (sensor 0; a monitor), the laps of the die-to-die window
with errors (boundary count, corrected words, whether it faulted; newest first), and the die-to-die errors to inject into the next
frame (0 none, 1 one bit, 2 two bits). -/
structure Hlt where
  tempAt : Nat := 0
  supAt : Nat := 0
  tempHold : Nat := 0
  supHold : Tab Nat := []
  d2d : List (Nat × Nat × Bool) := []
  d2dInject : Nat := 0
deriving DecidableEq, Repr

/-! ### Power, reset, boot, the Ledger engine and service (spec/16_power_boot.md) -/

/-- The boot ROM (R423 to R428): whether it runs, whether the boot is warm, whether LINE comes first, the sources left, the source that
last succeeded, the header of the image that has verified, when every source had failed (block clock plus 1), whether the last attempt
failed; for LINE whether the line has been set up and since when, the window's offset and length (0: none asked), the file's size, the
data received (offset, bytes; newest first), the instant of the latest request or progress, and the repeats. -/
structure Boot where
  on : Bool := true
  warm : Bool := false
  forced : Bool := false
  left : List Nat := [1, 2, 3]
  good : Nat := 0
  ready : List Byte := []
  failedAt : Nat := 0
  failed : Bool := false
  lineAt : Nat := 0
  window : Nat := 0
  asked : Nat := 0
  size : Nat := 0
  chunks : List (Nat × List Byte) := []
  since : Nat := 0
  repeats : Nat := 0
deriving DecidableEq, Repr

/-- A Ledger transfer in progress (R431): its direction, the next Ledger offset and memory address, the words left, and for a WRITE the
place of the word that will not take its value. -/
structure LedgerMove where
  write : Bool
  ofs : Nat
  mem : Nat
  left : Nat
  bad : Option Nat
deriving DecidableEq, Repr

/-- Power, reset and the always-on domain (R414 to R422, R453): `held` says that the digital die is in reset or unpowered, `por` that
the power-on reset lasts and `waking` that a wake from SHELVED awaits the rails; the part of the present second of TOP_AON_TIMER in
2^-16 ns, and whether the timer has reached 0 in REST or SHELVED; the start of the watchdog count and of RUN on the block's clock; in REST,
the reading at which that clock stands, and for how long it has stood before; the laps spent in RUN, IDLE and REST beyond the hours in the
Ledger with those hours in 0.1 h; the latest running-hours entry on that clock, its sequence number and the slot of the next; and the
Ledger transfer in progress. -/
structure Pwr where
  held : Bool := false
  por : Bool := false
  waking : Bool := false
  railEn : Bool := true
  aonPart : Int := 0
  rang : Bool := false
  wdogAt : Nat := 0
  runAt : Nat := 0
  rest : Option Nat := none
  slept : Nat := 0
  spent : Nat × Nat × Nat := (0, 0, 0)
  base : Nat × Nat × Nat := (0, 0, 0)
  hoursAt : Nat := 0
  hoursSeq : Nat := 0
  hoursSlot : Nat := 0
  move : Option LedgerMove := none
  boot : Boot := { }
deriving DecidableEq, Repr

/-- Service (R434 to R437): whether SVC_BTN_N is low, debounced, also over resets; when the button was pressed and when SVC_REFUSED
was set (block clock plus 1), whether this hold has been reported, and the levels outside the GPIO pins. The SPI results wait in
queue 67. -/
structure Svc where
  low : Bool := false
  pressAt : Nat := 0
  heldDone : Bool := false
  refusedAt : Nat := 0
  gpio : Nat := 0
deriving DecidableEq, Repr

/-! ### The test access port (spec/17_pins_electrical.md R462, R463) -/

/-- The TAP: its state in the order of IEEE 1149.1 (0 Test-Logic-Reset, 1 Run-Test/Idle, 2 to 8 the DR column, 9 to 15 the IR
column), the instruction in force, the shift registers (the bit nearest TDO first), the update stage of the boundary register in the
order of R463, and the phase of the 1149.6 drivers. -/
structure Tap1149 where
  state : Nat := 0
  ir : Nat := 1
  irShift : List Bool := []
  drShift : List Bool := []
  cells : List Bool := []
  phase : Bool := false
deriving DecidableEq, Repr

/-! ### The whole state -/

/-- The hub block. `bnd` counts lap boundaries and never steps; `fresh` is the model's own counter, to which the free values
of Config are applied; `regs` holds the register space and the table windows by address; `accepted` the commands that act
at a later boundary; `nextRegs` the register words that take effect at the next boundary; `mem` the Stacks, the local
memories and DRAM; `lost` the ranges of memory whose contents have been lost (first address, end, and the count that their free values
take; latest first); `ledger` the Ledger; `offers` the triggers on their way to rings; `sent` what has left the block. -/
structure State where
  pending : List Instr
  bnd : Nat
  fresh : Nat
  regs : Tab Word
  accepted : Tab Acc
  nextRegs : List (Nat × Word)
  mem : List Host.Cell
  lost : List (Nat × Nat × Nat)
  ledger : List Host.Cell
  fab : Fabric
  offers : List Offer
  sent : List Sent
  tbs : Tbs
  afe : Afe
  cnv : Cnv
  lapInfo : LapInfo
  red : Red
  out : Outs
  acq : Acq
  ctl : Ctl
  cores : Cores
  lanes : Lanes
  wot : Wot
  eth : Eth
  dmc : Dmc
  twin : Twin
  hlt : Hlt
  pwr : Pwr
  svc : Svc
  jtag : Tap1149
deriving DecidableEq, Repr

/-- The block right after a power-on reset (R9, R422): every register at its reset value, nothing listed in any memory, and
no command waiting. -/
def State.reset : State where
  pending := []
  bnd := 0
  fresh := 0
  regs := []
  accepted := []
  nextRegs := []
  mem := []
  lost := []
  ledger := []
  fab := { }
  offers := []
  sent := []
  tbs := { }
  afe := { }
  cnv := { }
  lapInfo := { }
  red := { }
  out := { }
  acq := { }
  ctl := { }
  cores := { }
  lanes := { }
  wot := { }
  eth := { }
  dmc := { }
  twin := { }
  hlt := { }
  pwr := { }
  svc := { }
  jtag := { }

end Sys2Proof.Machine
end

