-- ==== Sys2Proof/Machine/Ops.lean ====
section
/-!
DEFINITION. The named operations over the register space, the memories, commands, events, counters and the journal that every
meaning is written with (spec/00_scope.md R8 to R10, spec/01_architecture.md R22, R26 to R29, spec/08_cores.md R233, R234,
spec/15_errors_ordering.md R401, R411, R412, spec/16_power_boot.md R431 to R433).
-/
namespace Sys2Proof.Machine
open Sys2Proof

/-! ### The register space and the table windows -/

/-- Whether a row of the reset table covers the address. -/
def resetCovers (a : Nat) (r : ResetRow) : Bool :=
  decide (r.base ≤ a) && decide (a - r.base < r.n1 * r.s1) && decide ((a - r.base) % r.s1 = 0)

/-- The reset word at offset `o` of a Catalogue entry (spec/05_reduction.md R163). -/
def catalogueReset (o : Nat) : Word :=
  if o = 0x04 then 0x14000000
  else if o = 0x0C then 0x3E8
  else if o = 0x1C then 0x41C80000
  else if o = 0x20 then 0x3F800000
  else if 0x40 ≤ o ∧ o < 0x70 ∧ o % 8 = 0 then 0x3F800000
  else 0

/-- What a register or table word reads as after reset (R9). -/
def resetWord (a : Nat) : Word :=
  if 0xB0000000 ≤ a ∧ a < 0xB0010000 then catalogueReset (a % 256)
  else
    match (resetsOfBlock ((a - 0xA0000000) / 0x10000)).find? (resetCovers a) with
    | some r => w32 r.value
    | none => 0

/-- The word held at a register or table address. -/
def rd (s : State) (a : Nat) : Word := tget resetWord s.regs a

/-- Hold a word at a register or table address. -/
def wr (s : State) (a : Nat) (w : Word) : State := { s with regs := tput resetWord s.regs a w }

/-- The word that a register holds once the writes that wait for the next boundary have been made. -/
def heldNext (s : State) (a : Nat) : Word :=
  match s.nextRegs.reverse.find? (fun q => decide (q.1 = a)) with
  | some q => q.2
  | none => rd s a

/-- The value of a field. -/
def fld (s : State) (f : Fld) : Nat := fget (rd s f.reg) f.lo f.w

/-- A one-bit field as a truth value. -/
def flag (s : State) (f : Fld) : Bool := decide (fld s f ≠ 0)

/-- The two's complement value of a field. -/
def sfld (s : State) (f : Fld) : Int := signed f.w (fld s f)

/-- Set a field. -/
def setFld (s : State) (f : Fld) (v : Nat) : State := wr s f.reg (fset (rd s f.reg) f.lo f.w v)

/-- Set a one-bit field. -/
def setFlag (s : State) (f : Fld) (b : Bool) : State := setFld s f (bit b)

/-- Set a field to the low bits of an integer. -/
def setInt (s : State) (f : Fld) (i : Int) : State := setFld s f (unsignedOf f.w i)

/-- Add to a saturating count field. -/
def addSat (s : State) (f : Fld) (k : Nat) : State := setFld s f (satNat f.w (fld s f + k))

/-- Add to a count field that wraps. -/
def addMod (s : State) (f : Fld) (k : Nat) : State := setFld s f ((fld s f + k) % 2 ^ f.w)

/-- Two registers as one number, the second holding bits 32 and up. -/
def rdPair (s : State) (lo hi : Nat) : Nat := (rd s lo).toNat + 2 ^ 32 * (rd s hi).toNat

/-- Write a number to two registers, the second holding bits 63:32. -/
def wrPair (s : State) (lo hi : Nat) (v : Nat) : State := wr (wr s lo (lo32 v)) hi (hi32 v)

/-! ### Time -/

/-- The line time of the present instant, in 2^-16 ns (R12). -/
def now (s : State) : Nat := s.tbs.pacer.time + s.tbs.pacer.ofs

/-- The lap count (R13). -/
def lap (s : State) : Nat := lapOf s.tbs.pacer.time

/-- The lag λ of the lap domain in laps (R376); in the hold laps it grows to 3. -/
def lag (s : State) : Nat := if flag s TWN_STATUS.LAG then 3 - s.twin.hold else 0

/-- The lap-domain lap count, the line time of its boundary, and the present lap-domain time (R376). -/
def lapD (s : State) : Nat := lap s - lag s
def timeD (s : State) : Nat := s.tbs.pacer.time - lag s * lapUnits
def nowD (s : State) : Nat := now s - lag s * lapUnits

/-- The count of real lap boundaries: `bnd` counts those of the lap domain, which rests for the hold laps (R376). -/
def tick (s : State) : Nat := s.bnd + s.twin.holds

/-- The laps that the Pacer's oscillator has made, in 2^-16 ns: of the real laps a step makes one shorter (R39). -/
def oscillator (s : State) : Nat := tick s * lapUnits - s.tbs.pacer.cut + s.tbs.pacer.ofs

/-- The block's own clock in 2^-16 ns: it advances with the oscillator, never steps, and stands in REST with every clock of the digital die
but the oscillator's (R417). -/
def clk (s : State) : Nat :=
  match s.pwr.rest with
  | some t => t
  | none => oscillator s - s.pwr.slept

/-- The length of the present lap in 2^-16 ns: to the next point of the lap grid, a whole lap outside a step (R37, R39). -/
def lapLength (s : State) : Nat := lapStart (lap s + 1) - s.tbs.pacer.time

/-- Move to the instant `ofs` within the present lap; the instant never goes back. -/
def atOfs (ofs : Nat) (s : State) : State :=
  { s with tbs := { s.tbs with pacer := { s.tbs.pacer with ofs := max s.tbs.pacer.ofs (min ofs (lapLength s - 1)) } } }

/-- STATE (R414): 0 IDLE, 1 RUN, 2 REST, 3 SHELVED. -/
def powerState (s : State) : Nat := fld s TOP_PWR_STATUS.STATE

/-- The digital die is powered, out of reset and clocked. -/
def awake (s : State) : Bool := !s.pwr.held && decide (powerState s < 2)

/-- Use the next free value: the model's own counter advances. -/
def freshen (s : State) : State := { s with fresh := s.fresh + 1 }

/-! ### Memory (R26 to R29) -/

/-- What a byte of memory that nothing has written reads as: where the contents of a range have been lost since, a free value (log entry
96). DESIGN CHOICE: else zero, for the spec gives no power-on contents; unsafe (log entry 3). -/
def blankByte (lost : List (Nat × Nat × Nat)) (a : Nat) : Byte :=
  match lost.find? (fun r => decide (r.1 ≤ a ∧ a < r.2.1)) with
  | some r => Config.lostByte r.2.2 a
  | none => 0

/-- The byte at an address of the Stacks, a local memory or DRAM. -/
def mget (s : State) (a : Nat) : Byte := tget (blankByte s.lost) s.mem a

/-- Store a byte. -/
def mput (s : State) (a : Nat) (b : Byte) : State := { s with mem := tput (blankByte s.lost) s.mem a b }

/-- Whether an address lies from `lo` up to `hi`. -/
def within (lo hi a : Nat) : Bool := decide (lo ≤ a ∧ a < hi)

/-- The contents of memory from `lo` up to `hi` are lost: each byte is a free value (R285, R418; log entry 96). -/
def loseRange (lo hi : Nat) (s : State) : State :=
  freshen { s with lost := (lo, hi, s.fresh) :: s.lost.filter (fun r => !(decide (lo ≤ r.1) && decide (r.2.1 ≤ hi))),
                   mem := s.mem.filter (fun q => !within lo hi q.1) }

/-- The little-endian number in `k` bytes from `a` (R6). -/
def mread (s : State) (k a : Nat) : Nat := ofBytesLE ((List.range k).map (fun i => mget s (a + i)))

/-- Put a list of bytes from `a` up. -/
def mputs (s : State) : Nat → List Byte → State
  | _, [] => s
  | a, b :: t => mputs (mput s a b) (a + 1) t

/-- DMC_CFG.ECC_EN (R365). -/
def eccOn (s : State) : Bool := flag s DMC_CFG.ECC_EN

/-- The wrong bits of DRAM word `k`: 0 to 63 of its data, 64 to 71 of its check bits. Where there is one, memory lists the right data,
which every read returns (R366); where there are more, memory lists the data as they read. -/
def latentOf (s : State) (k : Nat) : List Nat := tget (fun _ => []) s.dmc.latent k

def setLatent (k : Nat) (l : List Nat) (s : State) : State :=
  { s with dmc := { s.dmc with latent := tput (fun _ => []) s.dmc.latent k l } }

/-- Invert data bit `i` of DRAM word `k`; a check bit is not in memory. -/
def flipBit (k : Nat) (s : State) (i : Nat) : State :=
  if i < 64 then mput s (8 * k + i / 8) (mget s (8 * k + i / 8) ^^^ BitVec.ofNat 8 (2 ^ (i % 8))) else s

/-- Word `k` is stored with `n` data bits inverted; which bits is a free value (R410; log entry 104). -/
def ruinWord (k n : Nat) (s : State) : State :=
  let i := Config.ruinedBit s.fresh % 64
  let j := (i + 1 + Config.ruinedBit (s.fresh + 1) % 63) % 64
  let l := if n = 1 then [i] else [i, j]
  let s1 := { s with fresh := s.fresh + 2, dmc := { s.dmc with inject := none } }
  if eccOn s1 then setLatent k l (if n = 1 then s1 else l.foldl (flipBit k) s1) else l.foldl (flipBit k) s1

/-- What a write of `n` bytes at `a` does to the wrong bits of DRAM: the words are good again, and an injected error that waits for a
whole word of its line strikes the first (R410). -/
def written (a n : Nat) (s : State) : State :=
  if (s.dmc.latent = [] ∧ s.dmc.inject = none) ∨ 0x80000000 ≤ a ∨ n = 0 then s
  else
    let s1 := { s with dmc := { s.dmc with latent := s.dmc.latent.filter (fun q => decide (q.1 < a / 8 ∨ (a + n - 1) / 8 < q.1)) } }
    match s1.dmc.inject with
    | some (line, bits) =>
      (match firstIdx 8 (fun w => decide (a ≤ line + 8 * w ∧ line + 8 * w + 8 ≤ a + n)) with
       | some w => ruinWord (line / 8 + w) bits s1
       | none => s1)
    | none => s1

/-- Store a list of bytes from `a` up. -/
def mwrite (s : State) (a : Nat) (bs : List Byte) : State := written a bs.length (mputs s a bs)

/-- Store the low `k` bytes of `v`, little-endian, at `a`. -/
def mstore (s : State) (k a v : Nat) : State := mwrite s a (bytesLE k v)

/-- Whether the DRAM range is mapped in the controller's state (R355). -/
def dramMapped (s : State) : Bool :=
  let st := fld s DMC_STATUS.STATE
  st = 2 || st = 3 || st = 4 || st = 6

/-- The first address above usable DRAM (R29). -/
def dramTop (s : State) : Nat :=
  let fitted := if flag s DMC_STATUS.SIZE then 0x80000000 else 0x40000000
  if flag s DMC_CFG.ECC_EN then fitted / 8 * 7 else fitted

/-- Usable, mapped DRAM. -/
def isDram (s : State) (a : Nat) : Bool := dramMapped s && decide (a < dramTop s)

/-- The Stacks without the record buffer, which masters other than the record path treat as unmapped (R26, R161). -/
def isStacks (a : Nat) : Bool := decide (0x80000000 ≤ a ∧ a < 0x80300000)

/-- The base of the global alias of core `n`'s local memory (R26). -/
def localBase (n : Nat) : Nat := 0x91000000 + n * 0x100000

/-- The data memory of core `n`: 128 KiB on a Runner, 64 KiB on the Steward (R27). -/
def dmemSize (n : Nat) : Nat := if n = 4 then 0x10000 else 0x20000

/-- The core and offset of an address in a local memory's global alias (R26). -/
def localAt (a : Nat) : Option (Nat × Nat) :=
  if 0x91000000 ≤ a ∧ a < 0x91500000 then some ((a - 0x91000000) / 0x100000, a % 0x100000) else none

/-- Whether an offset of core `n`'s 1 MiB window holds memory (R27). -/
def localHolds (n o : Nat) : Bool :=
  decide (o < 0x10000) || (decide (0x40000 ≤ o) && decide (o < 0x40000 + dmemSize n))

/-- Memory that every master reaches: DRAM, the Stacks and the local memories' global aliases. -/
def isMemory (s : State) (a : Nat) : Bool :=
  isDram s a || isStacks a ||
    (match localAt a with
     | some (n, o) => localHolds n o
     | none => false)

/-! ### Events (R22, R233, R234), event counters (R411) and the journal (R432) -/

/-- Post event `n`. Posts of one number in one step merge (R22); `settle` completes them. -/
def raise (n : Nat) (s : State) : State :=
  if n ∈ s.fab.raised then s else { s with fab := { s.fab with raised := s.fab.raised ++ [n] } }

/-- Post event `n` when `b` holds. -/
def raiseIf (b : Bool) (n : Nat) (s : State) : State := if b then raise n s else s

/-- Post a number that software chose: 0 to 127 is posted; 128 to 255 only counts in TOP_EVT_BADPOST (R233). -/
def raiseChosen (n : Nat) (s : State) : State :=
  if n < 128 then raise n s else addSat s TOP_EVT_BADPOST.COUNT 1

/-- Whether core `c` watches event `n` (R234). -/
def watches (s : State) (c n : Nat) : Bool := nbit (rd s (TOP_COREn_WATCHk c (n / 32))).toNat (n % 32)

/-- Word `k` of the PEND set of core `c`. -/
def pendWord (s : State) (c k : Nat) : Word := tget (fun _ => (0 : Word)) s.fab.pend (c * 8 + k)

/-- Replace that word. -/
def setPend (s : State) (c k : Nat) (w : Word) : State :=
  { s with fab := { s.fab with pend := tput (fun _ => (0 : Word)) s.fab.pend (c * 8 + k) w } }

/-- Set PEND of event `n` on core `c` where the core watches it (R234). -/
def pendOn (n : Nat) (s : State) (c : Nat) : State :=
  if watches s c n then setPend s c (n / 32) (pendWord s c (n / 32) ||| w32 (2 ^ (n % 32))) else s

/-- The count of event counter `n`. -/
def countOf (s : State) (n : Nat) : Nat := tget (fun _ => 0) s.fab.counts n

/-- Replace the count of event counter `n`. -/
def setCount (s : State) (n v : Nat) : State :=
  { s with fab := { s.fab with counts := tput (fun _ => 0) s.fab.counts n v } }

/-- Whether a count that moves from `a` to `b` passes a multiple of 2^k, for k from 1 to 47 (R411). -/
def passes (k a b : Nat) : Bool := decide (1 ≤ k ∧ k ≤ 47) && decide (a / 2 ^ k < b / 2 ^ k)

/-- Counter `n` counts `k` occurrences where it is enabled for source `src`; a threshold passed posts HLT_CNT_THRESH. -/
def countOn (src k : Nat) (s : State) (n : Nat) : State :=
  if flag s (HLT_CNTn_CFG.EN n) && decide (fld s (HLT_CNTn_CFG.SRC n) = src) then
    let v := satNat 48 (countOf s n + k)
    raiseIf (passes (fld s (HLT_CNTn_CFG.THR_EXP n)) (countOf s n) v) 239 (setCount s n v)
  else s

/-- Every counter enabled for source `src` counts `k` occurrences (R411, R412). -/
def count (src k : Nat) (s : State) : State :=
  if k = 0 then s else (List.range 64).foldl (countOn src k) s

/-- STATE of a core: 0 HALTED, 1 RUNNING, 2 FAULTED (R249). -/
def coreState (s : State) (n : Nat) : Nat := fld s (TOP_COREn_STATUS.STATE n)
def setCoreState (n st : Nat) (s : State) : State := setFld s (TOP_COREn_STATUS.STATE n) st

/-! ### The Ledger (R429 to R433) -/

/-- What a byte of the Ledger that nothing has written reads as (DESIGN CHOICE, log entry 3). -/
def blankCell (_ : Nat) : Byte := 0

/-- The Ledger byte at an offset (R429). -/
def lget (s : State) (o : Nat) : Byte := tget blankCell s.ledger o

/-- The Ledger region of an offset (R429). -/
def ledgerRegion (o : Nat) : Nat :=
  if o < 0x1000 then 0 else if o < 0x2000 then 1 else if o < 0x8000 then 2 else if o < 0x9000 then 3
  else if o < 0xA000 then 4 else if o < 0x1A000 then 5 else if o < 0x2A000 then 6 else 7

/-- The write count of a 256-byte block (R433). -/
def wearOf (s : State) (b : Nat) : Nat := tget (fun _ => 0) s.fab.wear b

/-- One 32-bit word written to the Ledger counts in its block; the region's highest count, in units of 256, reads in
LDG_WEARr, and a block that passes LDG_WEAR_THR sets WEAR and posts LDG_WEAR (R433). -/
def wearWord (s : State) (o : Nat) : State :=
  let b := o / 256
  let c := wearOf s b + 1
  let s1 := { s with fab := { s.fab with wear := tput (fun _ => 0) s.fab.wear b c } }
  let r := ledgerRegion o
  let s2 := if fld s1 (LDG_WEARr.MAX r) < c / 256 then setFld s1 (LDG_WEARr.MAX r) (satNat 32 (c / 256)) else s1
  if c = fld s2 LDG_WEAR_THR.THR * 256 + 1 then raise 244 (setFlag s2 LDG_STATUS.WEAR true) else s2

/-- Write one word to the Ledger at a word offset (R431, R433). -/
def lwriteWord (s : State) (o v : Nat) : State :=
  let put := fun (m : List Host.Cell) (i : Nat) => tput blankCell m (o + i) (BitVec.ofNat 8 (v / 256 ^ i))
  wearWord { s with ledger := [0, 1, 2, 3].foldl put s.ledger } o

/-- Write a list of words to the Ledger from offset `o` up. -/
def lwriteWords (s : State) : Nat → List Nat → State
  | _, [] => s
  | o, v :: t => lwriteWords (lwriteWord s o v) (o + 4) t

/-- Whether the journal takes event `n` now: enabled, named in the mask, and not journalled in the last 1 024 laps (R432). -/
def journals (s : State) (n : Nat) : Bool :=
  flag s LDG_CTRL.JRNL_EN && decide (128 ≤ n) &&
    nbit (rd s (LDG_JRNL_MASKk ((n - 128) / 32))).toNat (n % 32) &&
    (let at1 := tget (fun _ => 0) s.fab.jrnlAt n
     at1 = 0 || decide (at1 - 1 + 1024 ≤ s.bnd))

/-- Append the 16-byte journal entry of event `n`: short stamp, number, zero, RUN hours and sequence number (R432). -/
def journal (n : Nat) (s : State) : State :=
  if journals s n then
    let slot := fld s LDG_JRNL_HEAD.NEXT
    let st := shortStamp (now s)
    let words := [st % 2 ^ 32, st / 2 ^ 32 + n * 2 ^ 16, (rd s LDG_HOURS).toNat, s.fab.jrnlSeq % 2 ^ 32]
    let s1 := lwriteWords s (0x2A000 + slot * 16) words
    let s2 := { s1 with fab := { s1.fab with jrnlSeq := s1.fab.jrnlSeq + 1,
                                             jrnlAt := tput (fun _ => 0) s1.fab.jrnlAt n (s1.bnd + 1) } }
    if slot + 1 < 5632 then setFld s2 LDG_JRNL_HEAD.NEXT (slot + 1)
    else addMod (setFld s2 LDG_JRNL_HEAD.NEXT 0) LDG_JRNL_HEAD.WRAPS 1
  else s

/-- Send a trigger towards a ring. -/
def offer (o : Offer) (s : State) : State := { s with offers := s.offers ++ [o] }

/-- An EVENT trigger for ring `r` where its source names event `n` (R176). The stamp is the 2.5 ns fabric cycle of the post;
the trigger reaches the ring at the lap-domain boundary of T, or at the next boundary where that has passed (R376). -/
def offerEvent (n : Nat) (s : State) (r : Nat) : State :=
  if flag s (ACQ_RINGr_SRC.EVT r) && decide (fld s (ACQ_RINGr_SRC.EVENT r) = n) then
    let st := now s / 163840 * 163840
    offer { ring := r, src := 6, stamp := st, tlap := lapAtOrAfter st,
            reach := s.bnd + max 1 (lapAtOrAfter st - lapD s), idx := n } s
  else s

/-- The cycle of the 400 MHz event fabric that holds the present instant, plus 1 (R22). -/
def fabricCycle (s : State) : Nat := clk s / 163840 + 1

/-- The numbers posted in the present fabric cycle are those of `f` if it is of that cycle. -/
def inThisCycle (s : State) (f : Fabric) : Fabric :=
  if f.cycle = fabricCycle s then f else { f with cycle := fabricCycle s, inCycle := [], loose := false }

/-- Whether a post of number `n` merges with an earlier one of the present fabric cycle (R22). Where an instruction has issued at this
instant, the model's time does not say which of the cycles of its post is meant: a free truth value (log entry 110). -/
def merges (n : Nat) (s : State) : Bool :=
  let f := inThisCycle s s.fab
  decide (n ∈ f.inCycle) && (!f.loose || Config.sameCycle f.posts)

/-- Note a post of number `n` in the present cycle. -/
def notePost (n : Nat) (s : State) : State :=
  let f := inThisCycle s s.fab
  { s with fab := { f with inCycle := n :: f.inCycle.filter (fun k => decide (k ≠ n)), posts := f.posts + 1 } }

/-- An instruction issues at the present instant. -/
def loosen (s : State) : State := { s with fab := { inThisCycle s s.fab with loose := true } }

/-- One posted event takes effect: PEND on the watching cores, and, unless it merges (R22), the event counters, the journal and the
EVENT triggers. -/
def postOne (s : State) (n : Nat) : State :=
  let s1 := notePost n ((List.range 5).foldl (pendOn n) s)
  if merges n s then s1 else (List.range 64).foldl (offerEvent n) (journal n (count n 1 s1))

/-- The events raised from place `k` on take effect. -/
def settleFrom (k : Nat) (s : State) : State := (s.fab.raised.drop k).foldl postOne s

/-- Complete the events raised in this step. What their effects post in turn (HLT_CNT_THRESH, LDG_WEAR) is completed too. -/
def settle (s : State) : State :=
  let s1 := settleFrom 0 s
  let s2 := settleFrom s.fab.raised.length s1
  let s3 := settleFrom s1.fab.raised.length s2
  { s3 with fab := { s3.fab with raised := [] } }

/-- The end of a step: every event posted in it has taken effect. -/
def done (s : State) : Host.Outcome State Fault Refusal := .next (settle s)

/-- What happens outside has an effect on a digital die that is powered, out of reset and clocked; else none (R414, R417). -/
def whileAwake (f : State → Host.Outcome State Fault Refusal) (s : State) : Host.Outcome State Fault Refusal :=
  if awake s then f s else done s

/-! ### Command registers (R10, R401, R467) -/

/-- A command ends with a STATUS code, at address `a`; PEND reads 0. -/
def complete (a code : Nat) (s : State) : State :=
  let s1 := setFld (setFld s ⟨a, 24, 8⟩ code) ⟨a, 23, 1⟩ 0
  { s1 with accepted := tdrop s1.accepted a }

/-- A command is accepted and acts at a later boundary; PEND reads 1. -/
def accept (a : Nat) (w : Word) (s : State) : State :=
  let s1 := setFld s ⟨a, 23, 1⟩ 1
  { s1 with accepted := tins (tdrop s1.accepted a) a ⟨s1.bnd, tick s1, clk s1, w⟩ }

/-- REFUSED_STATE: STATUS, HLT_REFUSED, HLT_REFUSED_LAST and HLT_REFUSED (R401), and count source 272. -/
def refuse (a : Nat) (s : State) : State :=
  let s1 := setFld s ⟨a, 24, 8⟩ 1
  let s2 := addSat s1 HLT_REFUSED.COUNT 1
  let s3 := setFld s2 HLT_REFUSED_LAST.OFFSET (a - 0xA0000000)
  raise 238 (count 272 1 s3)

/-- BUSY, BAD_TARGET or another code with no effect: only STATUS changes, and a pending command stays pending. -/
def reject (a code : Nat) (s : State) : State := setFld s ⟨a, 24, 8⟩ code

/-- Whether the command register at `a` holds an accepted command. -/
def isPending (s : State) (a : Nat) : Bool := decide (fld s ⟨a, 23, 1⟩ ≠ 0)

/-- The command accepted at `a`, if it was accepted before the present boundary of the lap domain: it acts at this boundary. -/
def dueCmd (s : State) (a : Nat) : Option Word :=
  match s.accepted.find? (fun p => p.1 = a) with
  | some (_, c) => if c.bnd < s.bnd then some c.word else none
  | none => none

/-- The same for a command that acts at a real lap boundary, whatever the lap domain does (R376). -/
def dueReal (s : State) (a : Nat) : Option Word :=
  match s.accepted.find? (fun p => p.1 = a) with
  | some (_, c) => if c.tick < tick s then some c.word else none
  | none => none

/-- The operation code in the low four bits of a command word. -/
def opOf (w : Word) : Nat := fget w 0 4

/-! ### What leaves the block -/

/-- Whether data lap `l` comes from the mirror (R374, R390 to R392). -/
def fromMirror (s : State) (l : Nat) : Bool :=
  match s.twin.switchAt with
  | some (h, m) => if h ≤ l then m else s.twin.mirrored
  | none => s.twin.mirrored

/-- Send something from a port. -/
def emit (p : Port) (d : List Byte) (s : State) : State := { s with sent := s.sent ++ [⟨p, d⟩] }

/-- A level on a pin. -/
def emitLevel (p : Port) (b : Bool) (s : State) : State := emit p [BitVec.ofNat 8 (bit b)] s

end Sys2Proof.Machine
end

