-- ==== Sys2Proof/Machine/Cat.lean ====
section
/-!
DEFINITION. The Catalogue: the fields of the shadow entries in the table window and of the active entries in force
(spec/05_reduction.md R162, R163).
-/
namespace Sys2Proof.Machine
open Sys2Proof

/-- The address of word offset `o` of shadow entry `c` (R163). -/
def catAddr (c o : Nat) : Nat := 0xB0000000 + c * 256 + o

/-- Word `o` of the active entry of channel `c`; entries are kept by `c * 256 + o`. -/
def catWord (s : State) (c o : Nat) : Word := tget (fun k => catalogueReset (k % 256)) s.red.active (c * 256 + o)

/-- Word `o` of entry `c` in an active Catalogue, and a field of it. -/
def cwIn (cat : Tab Word) (c o : Nat) : Word := tget (fun k => catalogueReset (k % 256)) cat (c * 256 + o)
def cfIn (cat : Tab Word) (c o lo w : Nat) : Nat := fget (cwIn cat c o) lo w

/-- A field of the active entry. -/
def catFld (s : State) (c o lo w : Nat) : Nat := fget (catWord s c o) lo w

/-- OUT_EN of the active entry (R155). -/
def outEn (s : State) (c : Nat) : Bool := decide (catFld s c 0x00 31 1 ≠ 0)

/-- The acting range of a RANGE field: 6 and 7 act as 0 (R77). -/
def actingRange (r : Nat) : Nat := if r ≤ 5 then r else 0

/-- The acting range of channel `c`. -/
def rangeOf (s : State) (c : Nat) : Nat := actingRange (catFld s c 0x00 28 3)

/-- AAF (R78), BO_DIR and SETTLE_EXT (R82, R84) of channel `c`. -/
def aafOf (s : State) (c : Nat) : Bool := decide (catFld s c 0x00 27 1 ≠ 0)
def boDown (cat : Tab Word) (c : Nat) : Bool := decide (cfIn cat c 0x00 24 1 ≠ 0)
def settleExt (s : State) (c : Nat) : Nat := catFld s c 0x00 16 8

/-- Whether burn-out is connected under a Catalogue, and now: BO_CUR is not 0 and the range is not ±10.24 V (R97, R98). -/
def burnOutIn (cat : Tab Word) (c : Nat) : Bool := decide (cfIn cat c 0x00 25 2 ≠ 0) && decide (actingRange (cfIn cat c 0x00 28 3) ≠ 0)
/-- Whether the burn-out source that the codes of channel `c` see is not gated off; a hub that takes its codes from the mirror sees its partner's
(R380, R393). -/
def burnsHere (s : State) (c : Nat) : Bool := s.twin.mirrored || !nbit s.twin.gateOff (c / 16)
def burnOut (s : State) (c : Nat) : Bool := burnOutIn s.red.active c && burnsHere s c

end Sys2Proof.Machine
end

