-- ==== Sys2Proof/Machine/Chain.lean ====
section
/-!
DEFINITION. Stages 2 to 7 of the reduction chain: the skew delay, the CIC decimator, the half-band stages, the compensating filter, the mains
notch and the resampler (spec/05_reduction.md R136 to R146). What the spec leaves open of their coefficients and words is free (log entry
22).
-/
namespace Sys2Proof.Machine
open Sys2Proof

/-! ### Words (R137) -/

/-- The fraction bits of a word of stages 2 to 7, below an LSB16: with the 16 bits of a code a word has 40 bits or more. -/
def chainBits : Nat := 24 + Config.moreBits % 25

/-- A word of value `n / d`, rounded up or down. -/
def narrow (n d : Int) : Int := (n + ((Config.stageRounding n d % d.toNat : Nat) : Int)) / d

/-- Coefficients are in units of 2^-40. -/
def unity : Int := 1099511627776

/-- The sum of products of coefficients and words, newest first. -/
def dot (cs xs : List Int) : Int := (cs.zip xs).foldl (fun acc q => acc + q.1 * q.2) 0

/-- A word enters a line of `n` words. -/
def pushIn (n : Nat) (x : Int) (xs : List Int) : List Int := (x :: xs).take n

/-! ### Stage 2: the skew delay (R138) -/

/-- The aperture delay that acts, in 1/16 ps: values beyond ±1 000 ps act as ±1 000 ps (R135). -/
def actingSkew (x : Int) : Int := clampInt (-16000) 16000 x

/-- The nine taps for a skew in 1/16 ps. They pass a constant unchanged and delay by 4 laps less the skew, within 2 ps (R138, R146). -/
def skewTaps (skew : Int) : List Int :=
  let w := fun (i : Nat) => Config.skewTap i skew
  let others : List Nat := [0, 1, 2, 5, 6, 7, 8]
  let lead := (skew + clampInt (-32) 32 (Config.delayResidual skew)) * unity / 15625000
  let w3 := lead - (others.map (fun (i : Nat) => (4 - (i : Int)) * w i)).foldl (fun a b => a + b) 0
  let w4 := unity - w3 - (others.map w).foldl (fun a b => a + b) 0
  (List.range 9).map (fun i => if i = 3 then w3 else if i = 4 then w4 else w i)

def skewOut (skew : Int) (line : List Int) : Int := narrow (dot (skewTaps skew) line) unity

/-! ### Stage 3: the CIC decimator (R136) -/

/-- The registers of the CIC wrap at 128 bits, beyond its growth. -/
def cicWrap (x : Int) : Int := signed 128 (unsignedOf 128 x)

/-- One lap of the three integrators. -/
def integrate (x : Int) (c : Chain) : Chain :=
  let a := cicWrap (c.sum1 + x)
  let b := cicWrap (c.sum2 + a)
  { c with sum1 := a, sum2 := b, sum3 := cicWrap (c.sum3 + b) }

/-- The three combs, at every `g`-th lap: the word that leaves, and the stage after it. -/
def comb (g : Nat) (c : Chain) : Int × Chain :=
  let d1 := cicWrap (c.sum3 - c.last3)
  let d2 := cicWrap (d1 - c.diff1)
  (narrow (cicWrap (d2 - c.diff2)) (g ^ 3 : Nat), { c with last3 := c.sum3, diff1 := d1, diff2 := d2 })

/-- The CIC before a lap whose phase in its block of `g` laps is `r`, as though every lap before had carried `x` (R142). The sums of a
constant are polynomials of the lap. -/
def cicLoaded (x : Int) (g r : Nat) (c : Chain) : Chain :=
  let sum := fun (t : Int) => x * ((t + 1) * (t + 2) * (t + 3) / 6)
  let at1 := fun (k : Nat) => sum (-1 - (r : Int) - (k * g : Nat))
  let d1 := at1 0 - at1 1
  { c with sum1 := 0, sum2 := 0, sum3 := 0, last3 := cicWrap (at1 0), diff1 := cicWrap d1, diff2 := cicWrap (d1 - (at1 1 - at1 2)) }

/-! ### Stages 4 and 5: the half-bands and the compensating filter (R136, R146) -/

/-- A half-band filter has one half in the middle and zeros at the other odd places; its outer taps are symmetrical and sum to one half. -/
def halfA : List Int :=
  let a := Config.halfTapA
  [a, 0, unity / 4 - a, unity / 2, unity / 4 - a, 0, a]

def halfB : List Int :=
  let a := Config.halfTapB 0
  let b := Config.halfTapB 1
  let c := unity / 4 - a - b
  [a, 0, b, 0, c, unity / 2, c, 0, b, 0, a]

/-- The 64 taps, symmetrical for the linear phase of R140; the two in the middle stand alone where the free ones have no gain. -/
def firTaps (k : Nat) : List Int :=
  let half := (List.range 32).map (Config.firTap k)
  let mid := (List.range 32).map (fun i => if i = 31 then unity / 2 else 0)
  let h := if half.foldl (fun a b => a + b) 0 ≤ 0 then mid else half
  h ++ h.reverse

/-- The compensating filter passes a constant within ±0.001 dB (R146). -/
def firOut (k : Nat) (line : List Int) : Int :=
  let h := firTaps k
  let gain := unity + clampInt (-126580000) 126580000 (Config.rippleAtZero k)
  narrow (dot h line * gain) (h.foldl (fun a b => a + b) 0 * unity)

/-! ### Stage 6: the mains notch (R145) -/

/-- The notch at the base rate of exponent `k` for a mains frequency in 1/65 536 Hz: of the second order, zero at that frequency, unity at
0 Hz, and with a -3 dB width within R146. In units of 2^-64: the cosine of its angle, and its gain. -/
def notchCoef (k freq : Nat) : Int × Int :=
  let c := fxCos (turnAngle (freq * 2 ^ k) (65536 * 1024000))
  let half := turnAngle ((4800 + Config.notchWidth % 401 : Nat) * 2 ^ k) (2 * 1000 * 1024000)
  let t := fxSin half * fxOne / fxCos half
  (c, fxOne * fxOne / (fxOne + t))

/-- One base word through the notch. -/
def notchOut (k freq : Nat) (x : Int) (c : Chain) : Int × Chain :=
  let q := notchCoef k freq
  let fwd := q.2 * (x + c.notchX2) - 2 * fxMul q.2 q.1 * (c.notchX1 - c.notchY1) - (2 * q.2 - fxOne) * c.notchY2
  let y := narrow fwd fxOne
  (y, { c with notchX1 := x, notchX2 := c.notchX1, notchY1 := y, notchY2 := c.notchY1 })

/-! ### Stages 2 to 6, lap by lap (R140, R142) -/

/-- The chain of a channel with exponent `k` before lap `n` with boundary count `b`, as though every lap before had carried the code `x`
(R142). The base words of earlier laps stay for the records that close in those. -/
def loadChain (k n b : Nat) (code : Int) (c : Chain) : Chain :=
  let x := code * 2 ^ chainBits
  let v := skewOut c.skew (List.replicate 9 x)
  let g := 2 ^ (k - 3)
  let base := firOut k (List.replicate 64 v)
  let c1 := cicLoaded v g (n % g) c
  { c1 with live := true, line := List.replicate 9 x, half1 := List.replicate 7 v, half2 := List.replicate 11 v,
            fir := List.replicate 64 v, notchX1 := base, notchX2 := base, notchY1 := base, notchY2 := base,
            base := List.replicate 8 (b, base) ++ c.base }

/-- Lap `n` with boundary count `b` and code `code` enters the chain; a base word that it completes is kept (R140). -/
def chainLap (k n b freq : Nat) (notch : Bool) (code : Int) (c : Chain) : Chain :=
  let g := 2 ^ (k - 3)
  let ends := fun (m : Nat) => (n + 1) % (m * g) = 0
  let c0 := { c with line := pushIn 9 (code * 2 ^ chainBits) c.line }
  let c1 := integrate (skewOut c0.skew c0.line) c0
  if ends 1 then
    let q := comb g c1
    let c2 := { q.2 with half1 := pushIn 7 q.1 q.2.half1 }
    if ends 2 then
      let c3 := { c2 with half2 := pushIn 11 (narrow (dot halfA c2.half1) unity) c2.half2 }
      if ends 4 then
        let c4 := { c3 with fir := pushIn 64 (narrow (dot halfB c3.half2) unity) c3.fir }
        if ends 8 then
          let x := firOut k c4.fir
          let y := if notch then notchOut k freq x c4 else (x, c4)
          { y.2 with base := (b, y.1) :: y.2.base }
        else c4
      else c3
    else c2
  else c1

/-! ### Stage 7: the resampler (R143) -/

/-- The taps of the resampler at the fraction `num / den` of a base interval: polynomials of the fourth order. They pass a constant unchanged
and put the value at its place, so that a ramp is interpolated exactly. Tap 0 takes base record j - 3. -/
def farrowTaps (num den : Int) : List Int :=
  let w := fun (i : Nat) => (List.range 5).reverse.foldl (fun acc p => acc * num / den + Config.farrowTap i p) 0
  let others : List Nat := [0, 1, 2, 5, 6, 7]
  let w4 := num * unity / den - (others.map (fun (i : Nat) => ((i : Int) - 3) * w i)).foldl (fun a b => a + b) 0
  let w3 := unity - w4 - (others.map w).foldl (fun a b => a + b) 0
  (List.range 8).map (fun i => if i = 3 then w3 else if i = 4 then w4 else w i)

/-- The value that base records j + 4 back to j - 3, newest first, give at a fraction after j. -/
def farrowOut (num den : Int) (newest : List Int) : Int := narrow (dot (farrowTaps num den).reverse newest) unity

/-- The base words that a record closing at boundary count `b` may use, newest first. -/
def baseUpTo (b : Nat) (c : Chain) : List Int := (c.base.filter (fun q => decide (q.1 ≤ b))).map (fun q => q.2)

/-- Base words that no later record uses are forgotten. -/
def trimBase (b : Nat) (c : Chain) : Chain :=
  { c with base := c.base.filter (fun q => decide (b < q.1)) ++ (c.base.filter (fun q => decide (q.1 ≤ b))).take 8 }

end Sys2Proof.Machine
end

