-- ==== Sys2Proof/Machine/Dram.lean ====
section
/-!
DEFINITION. Memory as masters reach it, and the requests of the DRAM controller: their queue and its order, the traffic classes, the write
buffer's and the record path's writes, inline ECC and the exit from self-refresh that a request causes (spec/01_architecture.md R26 to R28,
R33, spec/05_reduction.md R161, spec/08_cores.md R229 to R232, spec/13_dram.md R355, R358 to R362, R365, R366, R369).
-/
namespace Sys2Proof.Machine
open Sys2Proof

/-! ### Core and cache -/

def setCores (x : Cores) (s : State) : State := { s with cores := x }

/-- Core `n` after a power-on reset (R257, R275). -/
def coreReset (n : Nat) : Core := if n = 4 then { pc := 0xFFFE0000, vbase := 0xFFFE0000 } else { }

def coreOf (s : State) (n : Nat) : Core := tget coreReset s.cores.core n

def setCore (n : Nat) (x : Core) (s : State) : State :=
  { s with cores := { s.cores with core := tput coreReset s.cores.core n x } }

/-- The lines of a set that stay when a new one enters a full set: the older or the younger leaves (R231; log entry 63). -/
def evict (k : Nat) (s : State) (lines : List (Nat × List Byte)) : List (Nat × List Byte) :=
  let set := lines.filter (fun q => decide (q.1 % 128 = k % 128))
  if set.length < 2 then lines
  else
    let out := if Config.cacheOlder s.fresh then set.getLast? else set.head?
    lines.filter (fun q => decide (some q.1 ≠ out.map (fun p => p.1)))

/-! ### The controller's state (R355, R362) -/

def setDmc (x : Dmc) (s : State) : State := { s with dmc := x }

/-- STATE (R355): 0 OFF, 1 TRAINING, 2 READY, 3 SR_ENTRY, 4 SELF_REFRESH, 5 PASR, 6 SR_EXIT, 7 FAILED. -/
def dmcState (s : State) : Nat := fld s DMC_STATUS.STATE
def setDmcState (st : Nat) (s : State) : State := setFld s DMC_STATUS.STATE st

/-- The operation of the command in progress: 1 INIT, 2 INIT_RESUME, 3 SR_ENTER, 4 SR_ENTER_PASR, 5 SR_EXIT. -/
def dmcOp (s : State) : Nat :=
  match s.accepted.find? (fun p => decide (p.1 = DMC_CMD)) with
  | some (_, c) => opOf c.word
  | none => 0

/-- Whether the controller serves a traffic class now: in READY, or before the entry command; Archive, Program and Scrub wait in the stages of
R161 (R362). -/
def serves (s : State) (cls : Nat) : Bool :=
  let st := fld s RED_STATUS.BP_STAGE
  (decide (dmcState s = 2) || (decide (dmcState s = 3) && !s.dmc.aborting)) &&
    (decide (cls = 0) || decide (st = 0) || (decide (cls = 2) && decide (st = 1)))

/-- The requests that wait, in their slots and at the ports. -/
def waiting (s : State) : List DramReq := s.dmc.queue ++ s.dmc.port

/-- Whether a request waits for line `l`. -/
def lineWaits (s : State) (l : Nat) : Bool := (waiting s).any (fun q => decide (q.addr / 64 = l))

/-! ### Inline ECC (R365, R366) -/

/-- A single-bit error (R366). -/
def eccCorrected (a : Nat) (s : State) : State :=
  raise 220 (count 268 1 (wr (addSat s DMC_ECC_CE_CNT.VALUE 1) DMC_ECC_CE_ADDR (w32 a)))

/-- An uncorrectable error (R366). -/
def eccFailed (a : Nat) (s : State) : State :=
  raise 221 (setFlag (count 269 1 (wr (addSat s DMC_ECC_UE_CNT.VALUE 1) DMC_ECC_UE_ADDR (w32 a))) DMC_STATUS.ECC_UE true)

/-- The write-back of a line (R366), ahead of every later access to it: of traffic class `cls` (Archive; the scrubber's is Scrub). A write to the
line that is already queued replaces it. -/
def queueBack (cls k : Nat) (s : State) : State :=
  let l := k / 8
  if (waiting s).any (fun q => decide (q.addr / 64 = l) && q.write) then s
  else
    let q : DramReq := { cls := cls, write := true, addr := 64 * l, data := List.replicate 64 0, mask := 0, flips := [], at0 := clk s,
                         measured := false, back := true }
    setDmc { s.dmc with queue := q :: s.dmc.queue } s

/-- The check line of DRAM word `k`, which covers 512 bytes (R365), enters the controller's cache of 64; which one leaves a full cache is not
stated (log entry 200). -/
def keepCheck (k : Nat) (s : State) : State :=
  let c := k / 64
  let x := s.dmc
  if c ∈ x.checks then s
  else if x.checks.length < 64 then setDmc { x with checks := c :: x.checks } s
  else freshen (setDmc { x with checks := c :: x.checks.eraseIdx (Config.checkLeaves s.fresh % 64) } s)

/-- The read of DRAM word `k` of which the devices now give the bits `flips` inverted (R365, R366). One wrong bit is corrected in what is
returned, and a write-back of class `back` is queued; more are returned and stay. A check bit of a line in the check cache is not read from the
devices. -/
def readWord (back : Option Nat) (k : Nat) (flips0 : List Nat) (s : State) : State :=
  if !eccOn s then flips0.foldl (flipBit k) s
  else
    let flips := if k / 64 ∈ s.dmc.checks then flips0.filter (fun i => decide (i < 64)) else flips0
    let was := latentOf s k
    let all := flips.filter (fun i => decide (i ∉ was)) ++ was.filter (fun i => decide (i ∉ flips))
    if was = [] ∧ all = [] then s
    else
      let s1 := setLatent k [] (if 2 ≤ was.length then was.foldl (flipBit k) s else s)
      if all = [] then s1
      else if all.length = 1 then
        let s2 := eccCorrected (8 * k) (setLatent k all s1)
        match back with
        | some cls => queueBack cls k s2
        | none => s2
      else eccFailed (8 * k) (setLatent k all (all.foldl (flipBit k) s1))

/-- Of a word that is read, the check line is read too. -/
def readChecked (back : Option Nat) (k : Nat) (flips : List Nat) (s : State) : State :=
  let s1 := readWord back k flips s
  if eccOn s then keepCheck k s1 else s1

/-- The bits of word `w` of a line that the devices give inverted; bits 0 to 511 of `flips` are data bits and 512 up the check bits,
eight to a word. -/
def wordFlips (flips : List Nat) (w : Nat) : List Nat :=
  (flips.filter (fun i => decide (i < 512 ∧ i / 64 = w))).map (fun i => i % 64) ++
    (flips.filter (fun i => decide (512 ≤ i ∧ (i - 512) / 8 = w))).map (fun i => 64 + i % 8)

/-! ### Requests (R360 to R362, R365, R369) -/

/-- The words that a request reads: all of a read, and under ECC the words that a write covers in part (R365). -/
def wordsRead (s : State) (q : DramReq) : List Nat :=
  let whole := fun (w : Nat) => decide (q.mask / 256 ^ w % 256 = 255)
  let part := fun (w : Nat) => !whole w && decide (q.mask / 256 ^ w % 256 ≠ 0)
  (List.range (q.data.length / 8)).filter (fun w => !q.write || (eccOn s && part w))

/-- The largest latency of a measured read (R369). -/
def noteLatency (q : DramReq) (s : State) : State :=
  let ns := (clk s - q.at0) / unitsPerNs
  if q.measured && decide (fld s DMC_SR_LAT.MAX < ns) then setFld s DMC_SR_LAT.MAX (satNat 16 ns) else s

/-- The bytes of a write reach the devices; a word written whole is good again, and one written in part takes the check bits of what was
read. -/
def writeWords (q : DramReq) (s : State) : State :=
  (List.range (q.data.length / 8)).foldl (fun s w =>
    let at1 := q.addr + 8 * w
    let bs := (q.data.drop (8 * w)).take 8
    let m := q.mask / 256 ^ w % 256
    if m = 255 then mwrite s at1 bs
    else if m = 0 then s
    else setLatent (at1 / 8) [] ((List.range 8).foldl (fun s i => if nbit m i then mput s (at1 + i) (bs.getD i 0) else s) s)) s

/-- The write-back of a corrected line (R366): its words with one wrong bit are good again. -/
def writeBackLine (a : Nat) (s : State) : State :=
  (List.range 8).foldl (fun s w => if (latentOf s (a / 8 + w)).length = 1 then setLatent (a / 8 + w) [] s else s) s

/-- The byte at `a` as every master sees it: the latest write that waits, from the moment it is queued, or memory (R361). -/
def mseen (s : State) (a : Nat) : Byte :=
  if 0x80000000 ≤ a then mget s a
  else
    match (waiting s).reverse.find? (fun q => q.write && decide (q.addr ≤ a ∧ a < q.addr + q.data.length) && nbit q.mask (a - q.addr)) with
    | some q => q.data.getD (a - q.addr) 0
    | none => mget s a

/-- The byte at `a` as core `n` sees it: its own latest store still in the write buffer, or what every master sees. -/
def byteSeen (s : State) (n a : Nat) : Byte :=
  match (coreOf s n).stores.reverse.find? (fun q => decide (q.1 ≤ a ∧ a < q.1 + q.2.length)) with
  | some q => q.2.getD (a - q.1) 0
  | none => mseen s a

/-- The line `k` of 32 bytes enters the data cache of the core that asked for it (R231). -/
def enterLine (n k : Nat) (s : State) : State :=
  let x := coreOf s n
  freshen (setCore n { x with cache := (k, (List.range 32).map (fun i => byteSeen s n (32 * k + i))) :: evict k s x.cache } s)

/-- A request is performed. -/
def perform (q : DramReq) (s : State) : State :=
  if q.back then writeBackLine q.addr s
  else
    let back := if q.write then none else some 1
    let s1 := (wordsRead s q).foldl (fun s w => readChecked back (q.addr / 8 + w) (wordFlips q.flips.eraseDups w) s) s
    if q.write then writeWords q s1
    else
      let s2 := match q.core with
        | some n => enterLine n (q.addr / 32) s1
        | none => setDmc { s1.dmc with answer := (List.range q.data.length).map (fun i => mget s1 (q.addr + i)) } s1
      noteLatency q s2

/-- Of the Archive and Program requests that may be served at places `a` and `p`, the one whose turn it is (R362): weighted round robin, W_ARCH
against W_PROG, each 0 acting as 1. `turn` is who is served now (true: Archive), `run` how many of its turn it has had. DEDUCED: a class
with nothing to serve gives up its turn (log entry 95). -/
def roundRobin (s : State) (a p : Option Nat) : Option (Nat × Bool) :=
  let x := s.dmc
  let weight := max 1 (fld s (if x.turn then DMC_ARB.W_ARCH else DMC_ARB.W_PROG))
  match a, p with
  | some i, some j =>
    let archive := if x.run < weight then x.turn else !x.turn
    some (if archive then (i, true) else (j, false))
  | some i, none => some (i, true)
  | none, some j => some (j, false)
  | none, none => none

/-- The turn after a request of Archive (`archive`) or Program has been served. -/
def takeTurn (archive : Bool) (s : State) : State :=
  let x := s.dmc
  setDmc { x with turn := archive, run := if x.turn = archive then x.run + 1 else 1 } s

/-- The place of the request served next, and the turn that it takes: Capture first, then Archive and Program by weight, then Scrub; within a class in
order of arrival, and never past an earlier one to the same line (R361, R362). -/
def nextRequest (s : State) : Option (Nat × Option Bool) :=
  let qs := s.dmc.queue
  let free := fun (cls i : Nat) =>
    match qs[i]? with
    | some q => decide (q.cls = cls) && serves s cls && ((qs.take i).all (fun p => decide (p.addr / 64 ≠ q.addr / 64)))
    | none => false
  let first := fun (cls : Nat) => firstIdx qs.length (free cls)
  match first 0 with
  | some i => some (i, none)
  | none =>
    match roundRobin s (first 1) (first 2) with
    | some (i, archive) => some (i, some archive)
    | none => (first 3).map (fun i => (i, none))

/-- CAP_RESERVE, at most 96. -/
def capReserve (s : State) : Nat := min 96 (fld s DMC_ARB.CAP_RESERVE)

/-- Whether a request finds a usable slot (R361). -/
def slotFree (s : State) (q : DramReq) : Bool :=
  let held := s.dmc.queue
  decide (held.length < 128) && (decide (q.cls = 0) || decide ((held.filter (fun p => decide (p.cls ≠ 0))).length < 128 - capReserve s))

/-- The controller holds `n` transactions: PEAK. -/
def peakHeld (n : Nat) (s : State) : State :=
  if fld s DMC_OUTSTANDING.PEAK < n then setFld s DMC_OUTSTANDING.PEAK n else s

/-- LEVEL and PEAK. -/
def showHeld (s : State) : State :=
  let n := s.dmc.queue.length
  peakHeld n (setFld s DMC_OUTSTANDING.LEVEL n)

/-- The requests at the ports take the slots that are free. -/
def refill (s : State) : State :=
  showHeld (s.dmc.port.foldl (fun s q =>
    if slotFree s q then setDmc { s.dmc with queue := s.dmc.queue ++ [q] } s else setDmc { s.dmc with port := s.dmc.port ++ [q] } s)
    (setDmc { s.dmc with port := [] } s))

/-- Up to `k` requests are served. -/
def serveSome : Nat → State → State
  | 0, s => s
  | k + 1, s =>
    match nextRequest s with
    | some (i, turn) =>
      match s.dmc.queue[i]? with
      | some q =>
        let s1 := setDmc { s.dmc with queue := s.dmc.queue.eraseIdx i } s
        serveSome k (refill (perform q (match turn with | some b => takeTurn b s1 | none => s1)))
      | none => s
    | none => s

/-- Every request that can be served is served, and the write-backs that follow. -/
def dmcServe (s : State) : State := showHeld (serveSome (2 * (waiting s).length) s)

/-- A request reaches the controller. -/
def dmcAsk (q : DramReq) (s : State) : State := refill (setDmc { s.dmc with port := s.dmc.port ++ [q], askedAt := clk s } s)

/-- Whether a request comes after the self-refresh entry command, where `issued` says so of one in SR_ENTRY (R369). -/
def afterEntry (issued : Bool) (s : State) : Bool :=
  let st := dmcState s
  decide (st = 4) || decide (st = 6) || (decide (st = 3) && (s.dmc.aborting || (issued && decide (dmcOp s = 3))))

/-- The controller begins to leave self-refresh; the devices are awake from here on (R368, R369). -/
def leaveSelfRefresh (s : State) : State := setDmc { s.dmc with asleep := false, exitAt := clk s } (setDmcState 6 s)

/-- A request in its state of the controller (R360, R361, R369). One that finds it idle and serving is performed at once; one that comes after the
entry command ends an SR_ENTRY or a SELF_REFRESH, and a read among these is measured. -/
def dmcRequest (q0 : DramReq) (issued : Bool) (s : State) : State :=
  let late := afterEntry issued s
  let q := { q0 with at0 := clk s, measured := late && !q0.write }
  if !late && decide (waiting s = []) && serves s q.cls then
    dmcServe (perform q (peakHeld 1 (setDmc { s.dmc with askedAt := clk s } s)))
  else
    let s1 := dmcAsk q s
    if !late then dmcServe s1
    else if dmcState s = 3 then (if s.dmc.aborting then s1 else setDmc { s1.dmc with aborting := true, exitAt := clk s } s1)
    else if dmcState s = 4 then addSat (leaveSelfRefresh s1) DMC_SR_LAT.SR_EXIT_REQ 1
    else s1

/-- The same of a request of the hub's own: on which side of the entry command it falls in SR_ENTRY is not stated and is free (log entry
201). -/
def dmcOwn (q : DramReq) (s : State) : State :=
  if dmcState s = 3 ∧ dmcOp s = 3 ∧ !s.dmc.aborting then dmcRequest q (Config.entryIssued s.fresh) (freshen s) else dmcRequest q false s

/-! ### Reads and writes of the masters (R26 to R28, R360) -/

/-- A request for the bytes `bs` within one block of `size` bytes, 32 or 64. -/
def writeReq (cls size a : Nat) (bs : List Byte) : DramReq :=
  let o := a % size
  { cls := cls, write := true, addr := a - o, data := (List.replicate o 0 ++ bs ++ List.replicate size 0).take size,
    mask := (2 ^ bs.length - 1) * 2 ^ o, flips := [], at0 := 0, measured := false }

/-- A read of the block of `size` bytes that holds `a`. -/
def readReq (cls size a : Nat) : DramReq :=
  { cls := cls, write := false, addr := a - a % size, data := List.replicate size 0, mask := 0, flips := [], at0 := 0, measured := false }

/-- The bytes of a transfer, split at the 64-byte lines (R360): each part with its address; `k` is fuel. -/
def lineParts : Nat → Nat → List Byte → List (Nat × List Byte)
  | 0, _, _ => []
  | k + 1, a, bs =>
    if bs = [] then []
    else
      let n := 64 - a % 64
      (a, bs.take n) :: lineParts k (a + n) (bs.drop n)

def parts (a : Nat) (bs : List Byte) : List (Nat × List Byte) := lineParts (bs.length / 64 + 2) a bs

/-- A write into the instruction memory of a core that is not halted is discarded and posts the local-write-refused event; `served`
is the Steward's own write while it executes from its boot ROM, which reaches its own instruction memory (R27). A core's store to DRAM is a
32-byte request of Program traffic (R360, R362). -/
def memWrite (served : Bool) (a : Nat) (bs : List Byte) (s : State) : State :=
  match localAt a with
  | some (n, o) => if o < 0x10000 ∧ coreState s n ≠ 0 ∧ !(served && decide (n = 4)) then raise 185 s else mwrite s a bs
  | none => if 0x80000000 ≤ a then mwrite s a bs else if isDram s a then dmcOwn (writeReq 2 32 a bs) s else s

/-- A part of a DMA master's write, within one line (R28): to an unmapped address it is discarded and posts BUS_ERROR. -/
def writePart (cls : Nat) (s : State) (q : Nat × List Byte) : State :=
  if isDram s q.1 then dmcOwn (writeReq cls 64 q.1 q.2) s
  else if isMemory s q.1 then memWrite false q.1 q.2 s
  else raise 184 s

/-- A write by a DMA master of traffic class `cls`, in 64-byte requests (R360). -/
def dmaWrite (cls a : Nat) (bs : List Byte) (s : State) : State := (parts a bs).foldl (writePart cls) s

/-- A part of a DMA master's read: its bytes are added to those read. An unmapped address returns zero data and posts BUS_ERROR (R28). -/
def readPart (cls : Nat) (r : List Byte × State) (q : Nat × List Byte) : List Byte × State :=
  let s := r.2
  if isMemory s q.1 then
    let s1 := if isDram s q.1 then dmcOwn (readReq cls 64 q.1) s else s
    (r.1 ++ (List.range q.2.length).map (fun i => mseen s1 (q.1 + i)), s1)
  else (r.1 ++ q.2.map (fun _ => 0), raise 184 s)

/-- The reads of the hub's own engines, which see what is queued. -/
def engineRead (cls k a : Nat) (s : State) : List Byte × State := (parts a (List.replicate k 0)).foldl (readPart cls) ([], s)

/-- Whether a read of class `cls` at `a` has to wait: the DRAM is mapped there and does not serve the class (R362, R369). -/
def mustWait (s : State) (cls a : Nat) : Bool := isDram s a && !serves s cls

/-- A read that has to wait stands in the queue, once (R369: it ends a self-refresh). -/
def awaitRead (cls a : Nat) (s : State) : State :=
  let q := readReq cls 64 a
  if (waiting s).any (fun p => !p.write && decide (p.addr = q.addr ∧ p.cls = cls)) then s else dmcOwn q s

/-! ### The record path (R161, R172) -/

/-- The fill of the record buffer is `n` bytes; RED_BP_FILL counts in units of 64 bytes. -/
def setFill (n : Nat) (s : State) : State :=
  let u := min ((n + 63) / 64) 16384
  let s1 := setFld { s with red := { s.red with fill := n } } RED_BP_FILL.FILL u
  if fld s1 RED_BP_FILL.PEAK < u then setFld s1 RED_BP_FILL.PEAK u else s1

/-- The buffer drains while the DRAM controller is in READY; how far it has drained at an instant is not stated and is free (log entry
127). -/
def drainFill (s : State) : State :=
  if fld s DMC_STATUS.STATE = 2 ∧ s.red.fill ≠ 0 then freshen (setFill (Config.bufferLeft s.fresh % (s.red.fill + 1)) s) else s

/-- A write of the record path passes through the record buffer, as Capture traffic (R362). The buffer drains before any other master's access
(R33, R161), so the bytes are there for every read from here on. -/
def captureWrite (a : Nat) (bs : List Byte) (s : State) : State :=
  let s1 := drainFill s
  dmaWrite 0 a bs (setFill (s1.red.fill + bs.length) s1)

/-- The record path stores the low `k` bytes of `v`, little-endian. -/
def captureStore (s : State) (k a v : Nat) : State := captureWrite a (bytesLE k v) s

end Sys2Proof.Machine
end

