-- ==== Sys2Proof/Machine/Tbs.lean ====
section
/-!
DEFINITION. The timebase: the Pacer and its sources, the Tally counters and the mains phase tracker (spec/02_timebase.md R36 to
R60). Meanings that also judge Start List entries stand in StartList.lean.
-/
namespace Sys2Proof.Machine
open Sys2Proof

/-! ### The Pacer -/

def setPacer (p : Pacer) (s : State) : State := { s with tbs := { s.tbs with pacer := p } }

/-- TBS_PACER_STATUS.STATE: 0 FREE, 1 ACQUIRE, 2 LOCKED, 3 HOLDOVER (R38). -/
def pacerState (s : State) : Nat := fld s TBS_PACER_STATUS.STATE

/-- The code of the secondary (`true`) or primary source; reserved codes act as FREE (R44). -/
def srcCode (s : State) (sec : Bool) : Nat :=
  let c := fld s (if sec then TBS_PACER_CTRL.SEC_SRC else TBS_PACER_CTRL.PRI_SRC)
  if c ≤ 4 then c else 0

def sourceOf (s : State) (sec : Bool) : Source := if sec then s.tbs.pacer.sec else s.tbs.pacer.pri

def setSource (sec : Bool) (x : Source) (s : State) : State :=
  if sec then setPacer { s.tbs.pacer with sec := x } s else setPacer { s.tbs.pacer with pri := x } s

/-- The valid bit of a source (R45). -/
def validFld (sec : Bool) : Fld := if sec then TBS_PACER_STATUS.SEC_VALID else TBS_PACER_STATUS.PRI_VALID

def isValid (s : State) (sec : Bool) : Bool := flag s (validFld sec)

/-- The measurement interval of PTP engine `d` in laps; LOG_SYNC outside -7 to 4 acts as the nearer limit (R44, R352). -/
def ptpInterval (s : State) (d : Nat) : Nat :=
  let k := clampInt (-7) 4 (sfld s (ETH_PTPd_CFG.LOG_SYNC d))
  if 0 ≤ k then 1024000 * 2 ^ k.toNat else 1024000 / 2 ^ (-k).toNat

/-- The measurement interval of a source code in laps (R44). -/
def srcInterval (s : State) (code : Nat) : Nat :=
  if code = 3 then ptpInterval s 0 else if code = 4 then ptpInterval s 1 else 64

/-- An offset in 2^-16 ns as the offset registers show it: units of 2^-4 ns, saturating (R76). DESIGN CHOICE: the spec states no
rounding; the registers truncate toward zero (log entry 111). -/
def offsetWord (x : Int) : Int := satSigned 32 (Int.tdiv x 4096)

/-- The slew target: the offset still to be removed, in 2^-16 ns; SLEWING reads 1 while TBS_SLEW_REMAIN is not zero (R41, R47). -/
def setSlew (x : Int) (s : State) : State :=
  let s1 := setPacer { s.tbs.pacer with slew := x * 5 } s
  setFlag (setInt s1 TBS_SLEW_REMAIN.OFFSET (offsetWord x)) TBS_PACER_STATUS.SLEWING (decide (offsetWord x ≠ 0))

/-- OFFSET_ALARM follows its condition; PACER_OFFSET_ALARM is posted when it becomes true (R42). -/
def judgeAlarm (s : State) : State :=
  let on := pacerState s = 2 && decide (s.tbs.pacer.slew.natAbs > 5 * 10000 * unitsPerNs)
  let was := flag s TBS_PACER_STATUS.OFFSET_ALARM
  raiseIf (on && !was) 133 (setFlag s TBS_PACER_STATUS.OFFSET_ALARM on)

/-- Enter a Pacer state (R38). -/
def enterPacer (st : Nat) (s : State) : State :=
  let s1 := setFld s TBS_PACER_STATUS.STATE st
  setPacer { s1.tbs.pacer with lockRun := 0 } s1

/-- Leave LOCKED's slewing: nothing remains to be slewed. -/
def clearSlew (s : State) : State := judgeAlarm (setSlew 0 s)

/-- ACTIVE_SRC shows the active source's code. DESIGN CHOICE: while EN = 0 no source steers, and it reads 0 as after reset; the spec
does not say (log entry 112). -/
def showActive (s : State) : State :=
  setFld s TBS_PACER_STATUS.ACTIVE_SRC (if flag s TBS_PACER_CTRL.EN then srcCode s s.tbs.pacer.secActive else 0)

/-- Tracking of a source starts afresh: it is not valid, and its loss is counted from the present boundary (R45). DESIGN CHOICE:
its OFFSET register keeps its word until the first measurement (log entry 212). -/
def trackAfresh (sec : Bool) (s : State) : State :=
  setFlag (setSource sec { run := 0, last := tick s, lost := false, offset := 0 } s) (validFld sec) false

/-- EN has gone from 0 to 1 (R38): the primary becomes active, and the Pacer enters ACQUIRE unless it is coded FREE. The intervals
without a measurement are counted anew, so that R46 applies to a primary that is never heard (DEDUCED, log entry 4). -/
def pacerStart (s : State) : State :=
  let p := s.tbs.pacer
  let s1 := setPacer { p with secActive := false, stepDue := none, switchDue := none,
                              pri := { p.pri with last := tick s, lost := false },
                              sec := { p.sec with last := tick s, lost := false } } s
  let s2 := enterPacer (if srcCode s1 false = 0 then 0 else 1) s1
  raiseIf p.secActive 131 (showActive s2)

/-- EN has gone from 1 to 0: FREE (R38). -/
def pacerStop (s : State) : State :=
  let s1 := setPacer { s.tbs.pacer with stepDue := none, switchDue := none } s
  showActive (clearSlew (enterPacer 0 s1))

/-- A write of TBS_PACER_CTRL has taken place; `old` is the word before it. A source whose code changes is tracked afresh. Under a new
code the active one is not yet valid, so the Pacer is in ACQUIRE; the state follows EN and the active source's code (R38, R44). -/
def pacerCtrlWritten (old : Word) (s : State) : State :=
  let norm := fun (c : Nat) => if c ≤ 4 then c else 0
  let afresh := fun (sec : Bool) (s : State) =>
    let s1 := trackAfresh sec s
    if s1.tbs.pacer.secActive = sec ∧ 2 ≤ pacerState s1 then clearSlew (enterPacer 1 s1)
    else if s1.tbs.pacer.secActive = sec then setPacer { s1.tbs.pacer with lockRun := 0, stepDue := none } s1 else s1
  let s1 := if norm (fget old 4 4) ≠ srcCode s false then afresh false s else s
  let s2 := if norm (fget old 8 4) ≠ srcCode s1 true then afresh true s1 else s1
  let was := fget old 0 1 ≠ 0
  let en := flag s2 TBS_PACER_CTRL.EN
  if en && !was then pacerStart s2
  else if !en && was then pacerStop s2
  else if en then
    if srcCode s2 s2.tbs.pacer.secActive = 0 then showActive (clearSlew (enterPacer 0 s2))
    else if pacerState s2 = 0 then showActive (enterPacer 1 s2)
    else showActive s2
  else s2

/-- PACER_ENABLE (R38). -/
def execPacerEnable (s : State) : Host.Outcome State Fault Refusal :=
  let old := rd s TBS_PACER_CTRL
  done (pacerCtrlWritten old (setFlag s TBS_PACER_CTRL.EN true))

/-- The servo's frequency correction at a measurement of the active source (R39, R41): a free value within the pull range of
R49. -/
def servo (s : State) : State :=
  setInt (freshen s) TBS_FREQ_ADJ.ADJ (clampInt (-13107200) 13107200 (Config.servoAdj s.fresh))

/-- The lock conditions of R40 at one measurement: the offset within 10 ns, and the correction changed by less than 0.01 ppm
(655.36 units). -/
def lockHolds (offset before after : Int) : Bool :=
  decide (offset.natAbs ≤ 10 * unitsPerNs) && decide ((after - before).natAbs ≤ 655)

/-- A measurement of the valid active source in ACQUIRE (R39, R40). -/
def acquireWith (offset : Int) (s : State) : State :=
  if offset.natAbs > 1000 * unitsPerNs then
    setPacer { s.tbs.pacer with stepDue := some (offset, tick s), lockRun := 0 } s
  else
    let before := sfld s TBS_FREQ_ADJ.ADJ
    let s1 := servo s
    let run := if lockHolds offset before (sfld s1 TBS_FREQ_ADJ.ADJ) then s1.tbs.pacer.lockRun + 1 else 0
    if 1024 ≤ run then judgeAlarm (setSlew offset (raise 129 (enterPacer 2 s1)))
    else setPacer { s1.tbs.pacer with lockRun := run } s1

/-- A measurement steers the DCO when its source is active and valid (R38, R39, R41). -/
def steer (sec : Bool) (offset : Int) (s : State) : State :=
  if flag s TBS_PACER_CTRL.EN && decide (s.tbs.pacer.secActive = sec) && isValid s sec then
    if pacerState s = 1 then acquireWith offset s
    else if pacerState s = 2 then judgeAlarm (setSlew offset (servo s))
    else s
  else s

/-- What a source that has just become valid changes: it takes over from HOLDOVER, or from a lost active source in ACQUIRE, at
the next boundary, unless another that became valid first is about to (R46). -/
def becameValid (sec : Bool) (s : State) : State :=
  let p := s.tbs.pacer
  if flag s TBS_PACER_CTRL.EN && p.switchDue.isNone &&
      (pacerState s = 3 || (pacerState s = 1 && (sourceOf s p.secActive).lost && decide (p.secActive ≠ sec)))
  then setPacer { p with switchDue := some (sec, tick s) } s
  else s

/-- A tracked source gives an offset, source time minus line time, in 2^-16 ns (R44, R45). DEDUCED: the 16 consecutive measurements
are broken only by a loss, not by one interval without a measurement (log entry 113). -/
def measure (sec : Bool) (offset : Int) (s : State) : State :=
  if srcCode s sec = 0 then s
  else
    let x := sourceOf s sec
    let s1 := setSource sec { run := x.run + 1, last := tick s, lost := false, offset := offset } s
    let s2 := setInt s1 (if sec then TBS_SEC_OFFSET.OFFSET else TBS_PRI_OFFSET.OFFSET) (offsetWord offset)
    let newly := decide (16 ≤ x.run + 1) && !isValid s2 sec
    let s3 := if newly then becameValid sec (setFlag s2 (validFld sec) true) else s2
    steer sec offset s3

/-- A measurement of the source with code `code`, wherever it is selected: 1 BATON_W, 2 BATON_E, 3 PTP_A, 4 PTP_B (R44). -/
def measureFrom (code : Nat) (offset : Int) (s : State) : State :=
  let s1 := if srcCode s false = code then measure false offset s else s
  if srcCode s1 true = code then measure true offset s1 else s1

/-- PACER_SOURCE_MEASUREMENT (R44). -/
def execPacerSourceMeasurement (sec : Bool) (offset : Int) (s : State) : Host.Outcome State Fault Refusal :=
  whileAwake (fun s =>
    done (measure sec offset s)) s

/-- Whether LOSS_INT intervals have passed without a measurement of a tracked source, whether or not it was ever valid; 0 acts as 1 (R38,
R45). DEDUCED: one never heard counts from when its tracking began (log entry 4). -/
def lossDue (s : State) (sec : Bool) : Bool :=
  let c := srcCode s sec
  let x := sourceOf s sec
  let n := fld s TBS_PACER_CTRL.LOSS_INT
  decide (c ≠ 0) && !x.lost && decide (x.last + (if n = 0 then 1 else n) * srcInterval s c ≤ tick s)

/-- What R46 decides when the active source is lost; the count of R40 is broken. -/
def activeLost (s : State) : State :=
  let p := { s.tbs.pacer with lockRun := 0 }
  if flag s TBS_PACER_CTRL.AUTO_SWITCH && isValid s (!p.secActive) then
    setPacer { p with switchDue := some (!p.secActive, tick s), stepDue := none } s
  else if pacerState s = 2 then raise 132 (enterPacer 3 s)
  else setPacer { p with stepDue := none } s

/-- PACER_SRC_LOST (R45, R46); nothing is lost before the intervals have passed (log entry 4). -/
def execPacerSrcLost (sec : Bool) (s : State) : Host.Outcome State Fault Refusal :=
  if awake s && lossDue s sec then
    let s1 := setFlag (setSource sec { sourceOf s sec with run := 0, lost := true } s) (validFld sec) false
    let p := s1.tbs.pacer
    let pendingHere := match p.switchDue with
      | some (x, _) => decide (x = sec)
      | none => false
    let s2 := if pendingHere then setPacer { p with switchDue := none } s1 else s1
    let s3 := raise 130 s2
    done (if flag s TBS_PACER_CTRL.EN && (p.secActive = sec || pendingHere) then activeLost s3 else s3)
  else done s

/-- The other tracked source, or the recovered one, becomes active without a step: its offset estimate is the slew target (R46,
R47). -/
def switchTo (sec : Bool) (s : State) : State :=
  let changed := decide (s.tbs.pacer.secActive ≠ sec)
  let s1 := setPacer { s.tbs.pacer with secActive := sec, switchDue := none, stepDue := none } s
  let s2 := if pacerState s1 = 3 then enterPacer 2 s1 else s1
  let s3 := judgeAlarm (setSlew (sourceOf s2 sec).offset s2)
  let s4 := if changed then setPacer { s3.tbs.pacer with lockRun := 0 } s3 else s3
  showActive (raiseIf changed 131 s4)

/-- The switch that loss or recovery made due at this boundary (R46). -/
def switchDueNow (s : State) : Option Bool :=
  match s.tbs.pacer.switchDue with
  | some (sec, b) => if b < tick s && isValid s sec && flag s TBS_PACER_CTRL.EN then some sec else none
  | none => none

/-- Whether a SWITCH command acts at this boundary: LOCKED, with the other source valid (R47, R402, R467). -/
def switchCmdDue (s : State) : Bool :=
  (match dueReal s TBS_PACER_CMD with
   | some w => decide (opOf w = 3)
   | none => false) && decide (pacerState s = 2) && isValid s (!s.tbs.pacer.secActive)

/-- PACER_SRC_SWITCH (R47). -/
def execPacerSrcSwitch (s : State) : Host.Outcome State Fault Refusal :=
  match switchDueNow s with
  | some sec => done (switchTo sec s)
  | none =>
    if switchCmdDue s then done (complete TBS_PACER_CMD 0 (switchTo (!s.tbs.pacer.secActive) s))
    else done s

/-- SLEW_DONE (R47): SLEWING clears once TBS_SLEW_REMAIN has reached zero. -/
def execSlewDone (s : State) : Host.Outcome State Fault Refusal :=
  if fld s TBS_SLEW_REMAIN.OFFSET = 0 then done (setFlag s TBS_PACER_STATUS.SLEWING false) else done s

/-- SET_TIME is allowed in FREE and ACQUIRE, and acts at the next boundary (R39, R76, R402). -/
def execSetTime (s : State) : Host.Outcome State Fault Refusal :=
  if isPending s TBS_PACER_CMD then done (reject TBS_PACER_CMD 2 s)
  else if pacerState s ≤ 1 then done (accept TBS_PACER_CMD 1 s)
  else done (refuse TBS_PACER_CMD s)

/-- ACQUIRE is allowed in LOCKED and HOLDOVER, and acts at once (R42, R76). -/
def execPacerAcquire (s : State) : Host.Outcome State Fault Refusal :=
  if isPending s TBS_PACER_CMD then done (reject TBS_PACER_CMD 2 s)
  else if pacerState s = 2 || pacerState s = 3 then
    done (complete TBS_PACER_CMD 0 (clearSlew (enterPacer 1 s)))
  else done (refuse TBS_PACER_CMD s)

/-- SWITCH is allowed in LOCKED with the other source valid, and acts at the next boundary (R47, R48). -/
def execPacerSwitch (s : State) : Host.Outcome State Fault Refusal :=
  if isPending s TBS_PACER_CMD then done (reject TBS_PACER_CMD 2 s)
  else if pacerState s = 2 && isValid s (!s.tbs.pacer.secActive) then done (accept TBS_PACER_CMD 3 s)
  else done (refuse TBS_PACER_CMD s)

/-! ### Tally (R51 to R58) -/

def tallyOf (s : State) (n : Nat) : TallyRun := tget (fun _ => ({ } : TallyRun)) s.tbs.tally n

def setTally (n : Nat) (x : TallyRun) (s : State) : State :=
  { s with tbs := { s.tbs with tally := tput (fun _ => ({ } : TallyRun)) s.tbs.tally n x } }

/-- The source of a running Tally: 1 ENCODER, 2 REMOTE, 0 none (R51). -/
def tallySrc (s : State) (n : Nat) : Nat :=
  if flag s (TBS_TALLYn_CTRL.EN n) then
    (let c := fld s (TBS_TALLYn_CTRL.SRC n); if c = 3 then 0 else c)
  else 0

/-- The velocity window in 2^-16 ns (R52, R76). -/
def velWindow (s : State) (n : Nat) : Nat := 2 ^ min (fld s (TBS_TALLYn_CTRL.VEL_WIN n)) 10 * lapUnits

/-- The broadcast interval in laps (R53, R76). DEDUCED: for a REMOTE Tally, whose broadcasts carry no interval, it is the receiver's own
BCAST_INT (R54, R56; log entry 114). -/
def bcastLaps (s : State) (n : Nat) : Nat := 64 * 2 ^ min (fld s (TBS_TALLYn_CTRL.BCAST_INT n)) 4

/-- The encoder velocity at line time `t` as a distance over a time (R52). -/
def encVel (s : State) (n : Nat) (t : Int) : Int × Nat :=
  let cs := (tallyOf s n).counts
  let win := cs.takeWhile (fun c => decide (t ≤ c.time + velWindow s n))
  match win, cs.drop win.length with
  | [], _ => (0, 1)
  | [c], p :: _ => if p.time < c.time then (c.step, (c.time - p.time).toNat) else (0, 1)
  | [_], [] => (0, 1)
  | c :: rest, _ =>
    match rest.getLast? with
    | some f => if f.time < c.time then (c.pos - f.pos, (c.time - f.time).toNat) else (0, 1)
    | none => (0, 1)

/-- The position of an encoder Tally at line time `t`, with the velocity known at `tv`, in 2^-16 µm over a denominator; it
never runs past a count not yet seen (R52). -/
def encPos (s : State) (n : Nat) (tv t : Int) : Int × Nat :=
  let x := tallyOf s n
  let v := encVel s n tv
  let sc : Int := (rd s (TBS_TALLYn_SCALE n)).toNat
  let raw := x.pos * v.2 + v.1 * (t - x.te)
  let hi := (x.pos + sc) * v.2
  let lo := (x.pos - sc) * v.2
  (if 0 < v.1 then min raw hi else if v.1 < 0 then max raw lo else raw, v.2)

/-- The position of a REMOTE Tally at line time `t`: the broadcast's extrapolation, with the difference removed over one
interval (R54). -/
def remPos (s : State) (n : Nat) (t : Int) : Int × Nat :=
  let x := tallyOf s n
  let i : Int := (bcastLaps s n * lapUnits : Nat)
  let dt := t - x.te
  let part := clampInt 0 i dt
  (x.pos * (16000000000 * i) + x.vel * dt * i + x.adj * part * 16000000000, 16000000000 * (bcastLaps s n * lapUnits))

/-- The exact position at line time `t`, with the velocity known at `tv`. -/
def tallyExact (s : State) (n : Nat) (tv t : Int) : Int × Nat :=
  let src := tallySrc s n
  if src = 1 then encPos s n tv t
  else if src = 2 then remPos s n t
  else ((tallyOf s n).pos, 1)

/-- tally_at (R52): the position at line time `t` in µm, rounded half to even, signed 48-bit. -/
def tallyAt (s : State) (n : Nat) (tv t : Int) : Int :=
  let p := tallyExact s n tv t
  signed 48 (unsignedOf 48 (divHalfEven p.1 (p.2 * 65536)))

/-- The velocity at line time `t` in units of 2^-4 µm/s (R76). -/
def tallyVel (s : State) (n : Nat) (t : Int) : Int :=
  let src := tallySrc s n
  if src = 1 then
    let v := encVel s n t
    satSigned 32 (divHalfEven (v.1 * 16000000000) v.2)
  else if src = 2 then
    let x := tallyOf s n
    let i := bcastLaps s n * lapUnits
    let extra := if t - x.te < i then divHalfEven (x.adj * 16000000000) i else 0
    satSigned 32 (x.vel + extra)
  else 0

/-- Note that Tally `n` steps at the present boundary (R58), also in the boundary data where it has been taken: `p` is the position after
the step. -/
def markStep (n : Nat) (p : Int) (s : State) : State :=
  let note := fun (e : EdgeData) =>
    if e.lap = lap s then { e with stepped := e.stepped ||| 2 ^ n, tally := e.tally.set n (p, (e.tally.getD n (0, 0)).2) } else e
  { s with tbs := { s.tbs with stepped := s.tbs.stepped ||| 2 ^ n }, twin := { s.twin with edge := s.twin.edge.map note } }

/-- Position and velocity of Tally `n` at the latest lap-domain boundary, from the hub's data source (R377, R380). -/
def dataTally (s : State) (n : Nat) : Int × Int :=
  match s.twin.cur with
  | some e => e.tally.getD n (0, 0)
  | none => ((tallyOf s n).atB, (tallyOf s n).velB)

/-- What the Tallies read at the latest lap-domain boundary is kept for the stamps that lie after it (R190). -/
def noteTallies (s : State) : State :=
  let at4 := (List.range 4).map (dataTally s)
  let old := match s.acq.tally with
    | q :: t => if q.1 = timeD s then t else q :: t
    | [] => []
  let same := match old with
    | q :: _ => decide (q.2 = at4)
    | [] => decide (at4 = [(0, 0), (0, 0), (0, 0), (0, 0)])
  { s with acq := { s.acq with tally := if same then old else (timeD s, at4) :: old } }

/-- Shift the position of a Tally so that it is `p` µm at line time `t`, keeping its velocity (R57, R58). -/
def stepTallyTo (n : Nat) (p t : Int) (s : State) : State :=
  let q := tallyExact s n t t
  let d := p * 65536 - divHalfEven q.1 q.2
  let x := tallyOf s n
  let x1 := { x with pos := x.pos + d, counts := x.counts.map (fun c => { c with pos := c.pos + d }), atB := p }
  setFlag (noteTallies (markStep n p (setTally n x1 s))) (TBS_TALLYn_STATUS.STEP n) true

/-- A Tally starts (R52). -/
def tallyStart (n : Nat) (s : State) : State :=
  let x := tallyOf s n
  let src := tallySrc s n
  let s1 := setTally n { x with te := now s, counts := [], vel := 0, adj := 0, heard := tick s, presetDue := none,
                                jumpDue := none } s
  setFld s1 (TBS_TALLYn_STATUS.STATE n) (if src = 1 then 1 else if src = 2 then 4 else 0)

/-- A Tally stops: it holds the position `q`, with velocity 0 (R52). -/
def tallyStop (n : Nat) (q : Int) (s : State) : State :=
  let x := tallyOf s n
  let s1 := setTally n { x with pos := q, te := now s, counts := [], vel := 0, adj := 0, presetDue := none,
                                jumpDue := none } s
  setFld s1 (TBS_TALLYn_STATUS.STATE n) 0

/-- A write of TBS_TALLYn_CTRL: `w` is the word after it. EN starts or stops the Tally, and clearing it alone releases the source
lock; a change of SRC while it runs stops and starts it (R52, R55; log entry 12). -/
def tallyCtrlWrite (n : Nat) (w : Word) (s : State) : State :=
  let was := flag s (TBS_TALLYn_CTRL.EN n)
  let src := fld s (TBS_TALLYn_CTRL.SRC n)
  let q := tallyExact s n (now s) (now s)
  let hold := divHalfEven q.1 q.2
  let s1 := wr s (TBS_TALLYn_CTRL n) w
  let en := flag s1 (TBS_TALLYn_CTRL.EN n)
  let same := decide (fld s1 (TBS_TALLYn_CTRL.SRC n) = src)
  if was && (!en || !same) then
    let s2 := tallyStop n hold s1
    if en then tallyStart n s2 else setFld s2 (TBS_TALLYn_SOURCE.VALID n) 0
  else if en && !was then tallyStart n s1
  else s1

/-- TALLY_ENABLE (R52, R55). -/
def execTallyEnable (n : Fin 4) (en : Bool) (s : State) : Host.Outcome State Fault Refusal :=
  done (tallyCtrlWrite n (fset (rd s (TBS_TALLYn_CTRL n)) 31 1 (bit en)) s)

/-- The direction of one edge with INVERT = 0: forward is 00, 10, 11, 01, 00 in the levels (A, B) (R51). -/
def edgeForward (a b a' b' : Bool) : Bool :=
  match a, b, a', b' with
  | false, false, true, false => true
  | true, false, true, true => true
  | true, true, false, true => true
  | false, true, false, false => true
  | _, _, _, _ => false

/-- One count of an encoder Tally at line time `t`, `fwd` before INVERT (R51, R52). -/
def countEdge (n : Nat) (t : Int) (fwd : Bool) (s : State) : State :=
  let x := tallyOf s n
  let sc : Int := (rd s (TBS_TALLYn_SCALE n)).toNat
  let up := fwd != flag s (TBS_TALLYn_CTRL.INVERT n)
  let d := if up then sc else -sc
  let c : Count := { time := t, pos := x.pos + d, step := d }
  setTally n { x with pos := x.pos + d, te := t, counts := c :: x.counts } s

/-- Whether Tally `n` runs from encoder input `k` behind the glitch filter of strength `f` (R51). -/
def onEncoder (s : State) (k f n : Nat) : Bool :=
  decide (tallySrc s n = 1) && decide (fld s (TBS_TALLYn_CTRL.ENC_SEL n) = k) && decide (fld s (TBS_TALLYn_CTRL.FILT n) = f)

/-- The shortest pulse that the glitch filter of strength `f` passes, in ns (R51, R76). -/
def shortestPulse (f : Nat) : Nat := match f with | 1 => 20 | 2 => 50 | 3 => 100 | _ => 0

/-- Encoder input `k` and the filter of strength `f`. -/
def encIn (s : State) (k f : Nat) : EncIn := tget (fun _ => ({ } : EncIn)) s.tbs.enc (k * 4 + f)
def setEncIn (k f : Nat) (x : EncIn) (s : State) : State :=
  { s with tbs := { s.tbs with enc := tput (fun _ => ({ } : EncIn)) s.tbs.enc (k * 4 + f) x } }

/-- An edge of input `k` behind filter `f` at line time `t` as Tally `n` sees it: a count, or an illegal transition when both levels
change in the same sample (R51). -/
def tallyEdge (k f : Nat) (t : Int) (a b a' b' : Bool) (s : State) (n : Nat) : State :=
  if onEncoder s k f n then
    if a != a' && b != b' then addSat s (TBS_TALLYn_STATUS.ENC_ERR n) 1
    else if a != a' || b != b' then countEdge n t (edgeForward a b a' b') s
    else s
  else s

/-- The levels behind filter `f` of input `k` become those given at instant `at1` of the block's clock plus 1. -/
def passLevels (k f at1 : Nat) (a b : Bool) (s : State) : State :=
  let x := encIn s k f
  let counts := (x.a != a) != (x.b != b)
  let s1 := setEncIn k f { x with a := a, b := b, counted := if counts then (at1 :: x.counted).take 4 else x.counted } s
  (List.range 4).foldl (tallyEdge k f (now s - ((clk s + 1 - at1 : Nat) : Int)) x.a x.b a b) s1

/-- The instant, plus 1, at which a level that has stood since `t` passes the filter of strength `f`: DEDUCED, once it has stood for
the shortest pulse that passes (log entry 146). -/
def passAt (f t : Nat) : Nat := t + shortestPulse f * unitsPerNs

/-- What has passed filter `f` of input `k` by the present instant: a level that stands long enough passes; a pulse shorter than that is
rejected (R51; log entry 146). The earlier of A and B passes first. -/
def filterPass (k f : Nat) (s : State) : State :=
  let x := encIn s k f
  let tA := passAt f x.atA
  let tB := passAt f x.atB
  let dA := x.rawA != x.a && decide (tA ≤ clk s + 1)
  let dB := x.rawB != x.b && decide (tB ≤ clk s + 1)
  if dA && dB && decide (tA = tB) then passLevels k f tA x.rawA x.rawB s
  else if dA && (!dB || decide (tA < tB)) then
    let s1 := passLevels k f tA x.rawA x.b s
    if dB then passLevels k f tB x.rawA x.rawB s1 else s1
  else if dB then
    let s1 := passLevels k f tB x.a x.rawB s
    if dA then passLevels k f tA x.rawA x.rawB s1 else s1
  else s

/-- What has passed the filters of every encoder input by the present instant. -/
def filtersPass (s : State) : State :=
  (List.range 4).foldl (fun s k => (List.range 4).foldl (fun s f => filterPass k f s) s) s

/-- The pins of input `k` take the levels `a` and `b` at the present instant, as the filter of strength `f` sees them. -/
def pinLevels (k : Nat) (a b : Bool) (s0 : State) (f : Nat) : State :=
  let s := filterPass k f s0
  let x := encIn s k f
  let at1 := clk s + 1
  filterPass k f (setEncIn k f { x with rawA := a, rawB := b, atA := if x.rawA = a then x.atA else at1,
                                        atB := if x.rawB = b then x.atB else at1 } s)

/-- Whether a Tally sees a fifth count within 400 ns: a rate above 10 million counts per second over a whole cycle of the encoder
(R51, R403; DEDUCED, log entry 146). -/
def overRate (before after : State) (k f : Nat) : Bool :=
  let x := encIn before k f
  let y := encIn after k f
  (List.range 4).any (onEncoder before k f) && decide (x.counted.length = 4) && decide (x.counted.head? ≠ y.counted.head?) &&
    decide (y.counted.head?.getD 0 < x.counted.getLast?.getD 0 + 400 * unitsPerNs)

/-- ENCODER_EDGE (R51): the levels that the A and B pins of input `k` take at instant `ofs`. A rate above 10 million counts per second is
misuse (R403). -/
def execEncoderEdge (k : Fin 4) (ofs : Nat) (a b : Bool) (s : State) : Host.Outcome State Fault Refusal :=
  whileAwake (fun s =>
    let s0 := filtersPass (atOfs ofs s)
    let s1 := (List.range 4).foldl (pinLevels k a b) s0
    if (List.range 4).any (overRate s0 s1 k) then .fault .misuseEncoderRate else done s1) s

/-- The Z edge of a Tally (R57). -/
def tallyZ1 (k f : Nat) (s : State) (n : Nat) : State :=
  let m := fld s (TBS_TALLYn_CTRL.Z_MODE n)
  if onEncoder s k f n && decide (m ≠ 0) then
    let p := unsignedOf 48 (tallyAt s n (now s) (now s))
    let s1 := wrPair s (TBS_TALLYn_ZLATCH_LO n) (TBS_TALLYn_ZLATCH_HI n) p
    let s2 := raise 134 (setFlag s1 (TBS_TALLYn_STATUS.Z_SEEN n) true)
    let s3 := if 2 ≤ m then setTally n { tallyOf s2 n with presetDue := some (tick s2) } s2 else s2
    if m = 3 then setFld s3 (TBS_TALLYn_CTRL.Z_MODE n) 1 else s3
  else s

/-- TALLY_Z (R57): a rising edge of the Z pin of an encoder input behind a glitch filter. -/
def execTallyZ (p : EncPins) (ofs : Nat) (s : State) : Host.Outcome State Fault Refusal :=
  whileAwake (fun s => done ((List.range 4).foldl (tallyZ1 p.input p.filt) (filtersPass (atOfs ofs s)))) s

/-- The PRESET registers as a signed position. -/
def presetOf (s : State) (n : Nat) : Int :=
  signed 48 (rdPair s (TBS_TALLYn_PRESET_LO n) (TBS_TALLYn_PRESET_HI n))

/-- Whether a Z preset armed in an earlier lap acts at this boundary (R57). -/
def zPresetDue (s : State) (n : Nat) : Bool :=
  match (tallyOf s n).presetDue with
  | some b => decide (b < tick s)
  | none => false

/-- Whether a PRESET command acts at this boundary (R57, R467). -/
def presetCmdDue (s : State) (n : Nat) : Bool :=
  (match dueReal s (TBS_TALLYn_CMD n) with
   | some w => decide (opOf w = 1)
   | none => false) && flag s (TBS_TALLYn_CTRL.EN n)

/-- TALLY_PRESET_APPLY (R57, R58). -/
def execTallyPresetApply (n : Fin 4) (s : State) : Host.Outcome State Fault Refusal :=
  let z := zPresetDue s n
  let c := presetCmdDue s n
  if z || c then
    let s1 := stepTallyTo n (presetOf s n) (now s) s
    let s2 := if z then setTally n { tallyOf s1 n with presetDue := none } s1 else s1
    done (if c then complete (TBS_TALLYn_CMD n) 0 s2 else s2)
  else done s

/-- PRESET (R57, R402): allowed while EN = 1; acts at the next boundary. -/
def execPreset (n : Fin 4) (s : State) : Host.Outcome State Fault Refusal :=
  if isPending s (TBS_TALLYn_CMD n) then done (reject (TBS_TALLYn_CMD n) 2 s)
  else if flag s (TBS_TALLYn_CTRL.EN n) then done (accept (TBS_TALLYn_CMD n) 1 s)
  else done (refuse (TBS_TALLYn_CMD n) s)

/-- A broadcast accepted by REMOTE Tally `n` from its locked source (R54): position in µm, velocity, and line time. The difference is
the signed one of 48-bit positions (R16). -/
def takeBroadcast (n : Nat) (p v tb : Int) (s : State) : State :=
  let x := { tallyOf s n with heard := tick s }
  let t0 : Int := s.tbs.pacer.time
  if fld s (TBS_TALLYn_STATUS.STATE n) = 4 then
    setFld (setTally n { x with pos := p * 65536, te := tb, vel := v, adj := 0 } s) (TBS_TALLYn_STATUS.STATE n) 1
  else
    let own := tallyExact s n t0 t0
    let q := divHalfEven own.1 own.2
    let e := signed 64 (unsignedOf 64 (p * 65536 + divHalfEven (v * (t0 - tb)) 16000000000 - q))
    let lim : Int := (rd s (TBS_TALLYn_JUMP n)).toNat * 65536
    let s1 := setFld s (TBS_TALLYn_STATUS.STATE n) 1
    if e.natAbs ≤ lim.natAbs then setTally n { x with pos := q, te := t0, vel := v, adj := e } s1
    else setTally n { x with jumpDue := some (p, v, tb) } s1

/-- A broadcast of stream `stream` as Tally `n` hears it: the first source is locked, any other is ignored (R55). -/
def hearBroadcast (stream addr : Nat) (p v tb : Int) (s : State) (n : Nat) : State :=
  if tallySrc s n = 2 && fld s (TBS_TALLYn_CTRL.STREAM n) = stream then
    if flag s (TBS_TALLYn_SOURCE.VALID n) && decide (fld s (TBS_TALLYn_SOURCE.ADDR n) ≠ addr) then
      raise 136 (setFlag s (TBS_TALLYn_STATUS.FOREIGN n) true)
    else
      takeBroadcast n p v tb (setFld (setFlag s (TBS_TALLYn_SOURCE.VALID n) true) (TBS_TALLYn_SOURCE.ADDR n) addr)
  else s

/-- TALLY_FRAME_RECEIVE (R54, R55): position in µm, velocity in 2^-4 µm/s, and the line time of its lap boundary. -/
def execTallyFrameReceive (stream : Fin 16) (addr : Fin 1024) (pos vel : Int) (time : Nat) (s : State) :
    Host.Outcome State Fault Refusal :=
  whileAwake (fun s =>
    done ((List.range 4).foldl (hearBroadcast stream addr pos vel time) s)) s

/-- Whether a REMOTE Tally in state `st` has heard no broadcast for `k` intervals (R56). -/
def silentFor (s : State) (n st k : Nat) : Bool :=
  decide (tallySrc s n = 2) && decide (fld s (TBS_TALLYn_STATUS.STATE n) = st) &&
    decide ((tallyOf s n).heard + k * bcastLaps s n ≤ tick s)

/-- TALLY_COASTING (R56). -/
def execTallyCoasting (n : Fin 4) (s : State) : Host.Outcome State Fault Refusal :=
  if awake s && silentFor s n 1 4 then done (setFld s (TBS_TALLYn_STATUS.STATE n) 2) else done s

/-- TALLY_LOST (R56): velocity zero, position held. -/
def execTallyLost (n : Fin 4) (s : State) : Host.Outcome State Fault Refusal :=
  if awake s && silentFor s n 2 8 then
    let q := tallyExact s n (now s) (now s)
    let x := { tallyOf s n with pos := divHalfEven q.1 q.2, te := now s, vel := 0, adj := 0 }
    done (raise 137 (setFld (setTally n x s) (TBS_TALLYn_STATUS.STATE n) 3))
  else done s

/-! ### Mains (R59, R60) -/

def setMains (m : Mains) (s : State) : State := { s with tbs := { s.tbs with mains := m } }

/-- The tracker at line time `t`: the coordinate has advanced at the measured frequency. -/
def mainsTo (m : Mains) (t : Int) : Mains :=
  { m with coord := m.coord + m.freq * (t - m.at0).toNat, at0 := max m.at0 t }

/-- The mains coordinate at line time `t`, 48 bits (R60); it does not advance in OFF. -/
def mainsAt (s : State) (t : Int) : Nat := (mainsTo s.tbs.mains t).coord / 65536000000000 % 2 ^ 48

/-- The preset frequency in 16.16 Hz (R59). -/
def mainsPreset (s : State) : Nat := if flag s TBS_MAINS_CTRL.PRESET then 60 * 65536 else 50 * 65536

/-- The tracker enters a state. TBS_MAINS_FREQ is the tracked frequency while it is LOCKED, and the preset otherwise (R59, R145). -/
def enterMains (st : Nat) (s : State) : State :=
  setFld (setFld s TBS_MAINS_STATUS.STATE st) TBS_MAINS_FREQ.FREQ (if st = 2 then s.tbs.mains.freq else mainsPreset s)

/-- A write of TBS_MAINS_CTRL: `w` is the word after it. EN starts or stops the tracker (R59, R60). Another input starts with no
crossing of its own. -/
def mainsCtrlWrite (w : Word) (s : State) : State :=
  let was := flag s TBS_MAINS_CTRL.EN
  let old := rd s TBS_MAINS_CTRL
  let s1 := wr s TBS_MAINS_CTRL w
  let en := flag s1 TBS_MAINS_CTRL.EN
  if en && !was then
    enterMains 1 (setMains { at0 := now s1, freq := mainsPreset s1, crossBnd := tick s1 } s1)
  else if !en && was then
    let m := mainsTo s1.tbs.mains (now s1)
    enterMains 0 (setMains { m with freq := 0, run := 0, bad := false, crossed := none, code := none, found := none } s1)
  else
    let s2 := if fget old 0 9 = fget w 0 9 then s1
      else setMains { s1.tbs.mains with crossed := none, code := none, found := none } s1
    enterMains (fld s2 TBS_MAINS_STATUS.STATE) s2

/-- MAINS_ENABLE (R60). -/
def execMainsEnable (en : Bool) (s : State) : Host.Outcome State Fault Refusal :=
  let w := fset (rd s TBS_MAINS_CTRL) 31 1 (bit en)
  done (if w = rd s TBS_MAINS_CTRL then s else mainsCtrlWrite w s)

/-- A code of channel CHAN of the lap that began at line time `t` (R59): a positive-going zero crossing since the code before is found
by interpolation. -/
def mainsCode (code t : Int) (s : State) : State :=
  let m := s.tbs.mains
  let found := match m.code with
    | some (c0, t0) => if c0 < 0 ∧ 0 ≤ code ∧ t0 < t then some (t0 + divHalfEven (-c0 * (t - t0)) (code - c0).toNat) else m.found
    | none => m.found
  setMains { m with code := some (code, t), found := found } s

/-- The frequency of one period, in 16.16 Hz. -/
def freqOf (period : Nat) : Nat := 65536 * 1000000000 * 65536 / period

/-- One cycle of the mains coordinate, and by how much a coordinate exceeds the nearest whole cycle (R60). -/
def mainsCycle : Nat := 65536 * 65536000000000
def phaseError (c : Nat) : Int :=
  let p := c % mainsCycle
  if 2 * p ≤ mainsCycle then p else (p : Int) - mainsCycle

/-- The tracker with its coordinate moved toward whole cycle by `d`, at most its phase error: ahead at once, or standing until the
mains has caught up, for the coordinate never goes back (R60). -/
def steerMains (d : Nat) (m : Mains) : Mains :=
  let e := phaseError m.coord
  let k := min d e.natAbs
  if e < 0 then { m with coord := m.coord + k } else { m with at0 := m.at0 + (k / m.freq : Nat) }

/-- A crossing at line time `t` with a period in range: the frequency is measured, the phase judged (within 1/4 096 cycle), and the
coordinate steered by a free value toward the whole cycle that a crossing is (R59, R60). DEDUCED: a LOCKED tracker stays LOCKED when the
phase error is larger (log entry 211). -/
def mainsGood (f : Nat) (t : Int) (s : State) : State :=
  let m := mainsTo s.tbs.mains t
  let good := decide ((phaseError m.coord).natAbs ≤ 16 * 65536000000000)
  let run := if good then m.run + 1 else 0
  let s1 := freshen (setMains (steerMains (Config.mainsSteer s.fresh)
    { m with freq := f, run := run, crossed := some t, crossBnd := tick s }) s)
  let st := fld s1 TBS_MAINS_STATUS.STATE
  if st = 2 then enterMains 2 s1
  else if 50 ≤ run then raise 138 (enterMains 2 s1)
  else enterMains 1 s1

/-- A phase-0 crossing of the selected input at line time `t` (R59, R60). -/
def mainsCrossing (t : Int) (s : State) : State :=
  let m := s.tbs.mains
  match m.crossed with
  | none => setMains { m with crossed := some t, crossBnd := tick s } s
  | some t0 =>
    if t ≤ t0 then s
    else
      let f := freqOf (t - t0).toNat
      if 47 * 65536 ≤ f ∧ f ≤ 63 * 65536 then mainsGood f t s
      else
        setFlag (setMains { m with crossed := some t, crossBnd := tick s, run := 0, bad := decide (fld s TBS_MAINS_STATUS.STATE ≠ 3) } s)
          TBS_MAINS_STATUS.OUT_OF_RANGE true

/-- MAINS_CROSSING (R59, R60): a rising edge of MAINS_IN at instant `ofs`; with SRC = 1, the crossing of channel CHAN that has been
found. -/
def execMainsCrossing (ofs : Nat) (s : State) : Host.Outcome State Fault Refusal :=
  let s0 := atOfs ofs s
  if !awake s0 || !flag s0 TBS_MAINS_CTRL.EN then done s0
  else if flag s0 TBS_MAINS_CTRL.SRC then
    match s0.tbs.mains.found with
    | some t => done (mainsCrossing t (setMains { s0.tbs.mains with found := none } s0))
    | none => done s0
  else done (mainsCrossing (now s0) s0)

/-- Whether the tracker loses the mains: a frequency out of range, or no crossing for 4 expected cycles (R60). -/
def mainsLostDue (s : State) : Bool :=
  let m := s.tbs.mains
  let st := fld s TBS_MAINS_STATUS.STATE
  (st = 1 || st = 2) && (m.bad || decide (4 * 65536 * 1024000 ≤ (tick s - m.crossBnd) * m.freq))

/-- MAINS_LOST (R60): HOLDOVER, at the last in-range frequency. -/
def execMainsLost (s : State) : Host.Outcome State Fault Refusal :=
  if awake s && mainsLostDue s then
    done (raise 139 (enterMains 3 (setMains { s.tbs.mains with run := 0, bad := false, crossed := none } s)))
  else done s

/-! ### The boundary -/

/-- The slew of one lap: at most 32 fifths of 2^-16 ns, which is 100 ns/s (R41). -/
def slewLap (x : Int) : Int := if x > 32 then x - 32 else if x < -32 then x + 32 else 0

/-- The Pacer at a lap boundary: line time reaches the next point of the lap grid, and while a source steers one lap of slew is done
(R37, R39, R41, R47). -/
def pacerBoundary (s : State) : State :=
  let p := s.tbs.pacer
  let sl := if pacerState s = 1 ∨ pacerState s = 2 then slewLap p.slew else p.slew
  let s1 := setPacer { p with time := lapStart (lapOf p.time + 1), ofs := 0, slew := sl, stepped := false,
                              cut := p.cut + (lapUnits - lapLength s) } s
  judgeAlarm (setInt s1 TBS_SLEW_REMAIN.OFFSET (offsetWord (Int.tdiv sl 5)))

/-- One Tally at a lap boundary: a jump made due in an earlier lap is taken (R54), counts outside every window are forgotten,
and the position and velocity of the boundary are noted. -/
def tallyBoundary (s : State) (n : Nat) : State :=
  let t : Int := s.tbs.pacer.time
  let s1 :=
    match (tallyOf s n).jumpDue with
    | some (p, v, tb) =>
      let x := tallyOf s n
      let q := p * 65536 + divHalfEven (v * (t - tb)) 16000000000
      let a := markStep n (q / 65536) (setTally n { x with pos := q, te := t, vel := v, adj := 0, jumpDue := none } s)
      raise 135 (setFlag (setFlag a (TBS_TALLYn_STATUS.JUMP n) true) (TBS_TALLYn_STATUS.STEP n) true)
    | none => s
  let x := tallyOf s1 n
  let keep := x.counts.takeWhile (fun c => decide (t ≤ c.time + 1024 * lapUnits))
  let x1 := { x with counts := keep ++ (x.counts.drop keep.length).take 1 }
  let s2 := setTally n x1 s1
  setTally n { tallyOf s2 n with atB := tallyAt s2 n t t, velB := tallyVel s2 n t } s2

/-- The mains coordinate at lap-domain time `t`, in 1/65 536 000 000 000 of 1/65 536 cycle, and the frequency, from the hub's data
source (R376, R380). -/
def dataMains (s : State) (t : Nat) : Nat × Nat :=
  match s.twin.cur with
  | some e =>
    (e.coord * 65536000000000 + e.rate * (t - timeD s), e.rate)
  | none => let m := mainsTo s.tbs.mains t; (m.coord, m.freq)

/-- What holds at the present boundary, for the lap domain of either twin (R377, R378). -/
def edgeNow (s : State) : EdgeData :=
  { lap := lap s, tally := (List.range 4).map (fun n => ((tallyOf s n).atB, (tallyOf s n).velB)),
    freq := fld s TBS_MAINS_FREQ.FREQ, coord := s.tbs.mains.coordB, rate := s.tbs.mains.freq,
    ttemp := (List.range 16).map (fun b => (rd s (AFE_BANKb_TTEMP b)).toNat),
    ttBad := bitsOf 16 (fun b => flag s (AFE_BANKb_STATUS.TT_FAULT b)), stepped := s.tbs.stepped }

/-- Whether Tally `n` steps at the latest lap-domain boundary, from the hub's data source. The mirror carries no step (R378): a hub that takes
its data from it sees none (DEDUCED, log entry 128). -/
def dataStepped (s : State) (n : Nat) : Bool :=
  match s.twin.cur with
  | some e => nbit e.stepped n
  | none => nbit s.tbs.stepped n

/-- The timebase at a lap boundary (R37, R41, R51, R54, R60). -/
def tbsBoundary (s : State) : State :=
  let s0 := { s with tbs := { s.tbs with stepped := 0 } }
  let s1 := (List.range 4).foldl tallyBoundary (filtersPass (pacerBoundary s0))
  setMains { s1.tbs.mains with coordB := mainsAt s1 s1.tbs.pacer.time } s1

/-- A step of line time by `d` (R39, R43): the instants that engines remember keep their real moments. -/
def shiftTime (d : Int) (s : State) : State :=
  let mv := fun (t : Int) => t + d
  let p := s.tbs.pacer
  let shiftTally := fun (x : TallyRun) =>
    { x with te := mv x.te, counts := x.counts.map (fun c => { c with time := mv c.time }),
             jumpDue := x.jumpDue.map (fun j => (j.1, j.2.1, mv j.2.2)) }
  let m := s.tbs.mains
  { s with tbs := { s.tbs with
      pacer := { p with time := (mv p.time).toNat, stepDue := none, lockRun := 0, stepped := true },
      tally := s.tbs.tally.map (fun q => (q.1, shiftTally q.2)),
      mains := { m with at0 := mv m.at0, crossed := m.crossed.map mv, code := m.code.map (fun q => (q.1, mv q.2)),
                        found := m.found.map mv } } }

end Sys2Proof.Machine
end

