-- ==== Sys2Proof/Machine/Afe.lean ====
section
/-!
DEFINITION. The front end: excitation drivers, reversal, sense check, terminal temperature, common-mode window, plug detection
and the OPEN rule (spec/03_front_end.md R77 to R110).
-/
namespace Sys2Proof.Machine
open Sys2Proof

/-! ### Marks on laps, which become tags (R157, R158) -/

/-- The kinds of mark: 0 contaminating, 1 STL, 2 CLAMP, 3 CMX, 4 OPEN, 5 substituted, 6 hand-over. -/
def markKey (c kind : Nat) : Nat := c * 8 + kind

def marksOf (s : State) (c kind : Nat) : List (Nat × Nat) := tget (fun _ => []) s.red.marks (markKey c kind)

def setMarks (c kind : Nat) (l : List (Nat × Nat)) (s : State) : State :=
  { s with red := { s.red with marks := tput (fun _ => []) s.red.marks (markKey c kind) l } }

/-- Mark the lap with boundary count `b`. -/
def mark (c kind b : Nat) (s : State) : State :=
  match marksOf s c kind with
  | (lo, hi) :: t => if hi = b then s else if hi + 1 = b then setMarks c kind ((lo, b) :: t) s
                     else setMarks c kind ((b, b) :: (lo, hi) :: t) s
  | [] => setMarks c kind [(b, b)] s

/-- Mark it when `p` holds. -/
def markIf (p : Bool) (c kind b : Nat) (s : State) : State := if p then mark c kind b s else s

/-- Take the mark of the lap `b` back, where it is the latest one. -/
def unmark (c kind b : Nat) (s : State) : State :=
  match marksOf s c kind with
  | (lo, hi) :: t => if hi = b then (if lo = b then setMarks c kind t s else setMarks c kind ((lo, b - 1) :: t) s) else s
  | [] => s

/-- Whether a lap from `a` to `b` is marked. -/
def anyMarked (s : State) (c kind a b : Nat) : Bool := (marksOf s c kind).any (fun i => decide (i.1 ≤ b ∧ a ≤ i.2))

/-- Whether every lap from `a` to `b` is marked. -/
def allMarked (s : State) (c kind a b : Nat) : Bool := (marksOf s c kind).any (fun i => decide (i.1 ≤ a ∧ b ≤ i.2))

/-! ### Banks and drivers -/

def bankOf (s : State) (b : Nat) : Bank := tget (fun _ => ({ } : Bank)) s.afe.bank b

def setBank (b : Nat) (x : Bank) (s : State) : State :=
  { s with afe := { s.afe with bank := tput (fun _ => ({ } : Bank)) s.afe.bank b x } }

def chanOf (s : State) (c : Nat) : Chan := tget (fun _ => ({ } : Chan)) s.afe.chan c

def setChan (c : Nat) (x : Chan) (s : State) : State :=
  { s with afe := { s.afe with chan := tput (fun _ => ({ } : Chan)) s.afe.chan c x } }

/-- AFE_STATUS.ANA_UP. -/
def anaUp (s : State) : Bool := flag s AFE_STATUS.ANA_UP

/-- EXC_STATE of a bank: 0 OFF, 1 RAMP, 2 SETTLE, 3 ON, 4 TRIPPED, 5 BLANK. -/
def excState (s : State) (b : Nat) : Nat := fld s (AFE_BANKb_STATUS.EXC_STATE b)

def setExcState (b st : Nat) (s : State) : State := setFld s (AFE_BANKb_STATUS.EXC_STATE b) st

/-- The acting mode of a MODE field: 3 acts as OFF (R86). -/
def actingMode (m : Nat) : Nat := if m = 3 then 0 else m

/-- The reversal exponent in force for a setting, if the driver reverses (R90, R110). -/
def revOf (s : State) (b : Nat) : Option Nat :=
  let m := actingMode (fld s (AFE_BANKb_EXC_ACTIVE.MODE b))
  if flag s (AFE_BANKb_EXC_ACTIVE.REV_EN b) && decide (m ≠ 0) then
    some (clampNat 4 16 (fld s (AFE_BANKb_EXC_ACTIVE.REV_N b)))
  else none

/-- The polarity of lap `n` on a reversal exponent: true in laps whose bit n is 1 (R90). -/
def negIn (rev : Option Nat) (n : Nat) : Bool :=
  match rev with
  | some k => nbit n k
  | none => false

/-- ramp(): the laps that a voltage change of `d` level units takes; 1 V/µs is 6 400 units per lap (R86, R88). -/
def rampLaps (d : Int) : Nat := (d.natAbs + 6399) / 6400

/-- Whether an unplug, or a gate of the twin, holds the bank's driver OFF (R103, R107, R393). -/
def heldOff (s : State) (b : Nat) : Bool :=
  (flag s (AFE_BANKb_PLUG.EXC_OFF b) && nbit (fld s AFE_PLUG_STATUS.UNPLUGGED) b) || nbit s.twin.gateOff b

/-- Start a driver change at the present boundary (R88, R89, R106): to OFF, or to the ACTIVE setting; a restart is a change of
mode from OFF (R93). A change that finds a ramp of 21 laps still under way takes 21 laps again (DEDUCED, log entry 121).
A tripped driver does not move. The blank laps of an earlier reversal go on, and a change at a reversal has those of that reversal (R91,
R106); limiting goes on through it (R93). -/
def startChange (b : Nat) (off restart : Bool) (s : State) : State :=
  if excState s b = 4 && !restart then s
  else
    let x := bankOf s b
    let from1 : Int := if restart then 0 else x.level
    let oldMode := if restart then 0 else x.mode
    let mode := if off then 0 else actingMode (fld s (AFE_BANKb_EXC_ACTIVE.MODE b))
    let rev := if off then none else revOf s b
    let lev : Int := if mode = 0 then 0 else sfld s (AFE_BANKb_EXC_ACTIVE.LEVEL b)
    let neg := negIn rev (lap s)
    let target := if neg then -lev else lev
    let changed := restart || decide (mode ≠ oldMode) || (mode = 2 && decide (target ≠ x.target)) || (x.slow && decide (0 < x.ramp))
    let reverses := x.rev.isSome && rev.isSome && decide (neg ≠ x.neg)
    let k := max (fld s (AFE_BANKb_EXC_CFG.REV_BLANK b)) (if mode = 2 then 21 else rampLaps (2 * target))
    let ramp := if changed then 21 else if mode = 1 then rampLaps (target - from1) else 0
    let win := ramp + fld s (AFE_BANKb_EXC_CFG.SETTLE b)
    let x1 := { x with ramp := ramp, slow := changed, settle := 0, mode := mode, rev := rev, level := from1, target := target,
                       blank := if restart then 0 else if reverses then k else x.blank,
                       neg := neg, stl := max x.stl win, onLaps := 0, snsLow := 0, snsHigh := 0, snsBad := false, snsStl := false }
    setFlag (setExcState b 1 (setBank b x1 s)) (AFE_BANKb_STATUS.REV_POL b) neg

/-- The driver moves toward the ACTIVE setting, unless an unplug holds it OFF. -/
def driveActive (b : Nat) (restart : Bool) (s : State) : State := startChange b (heldOff s b) restart s

/-- The outcome of a bank mask written to AFE_EXC_APPLY, in the order of R87: `none` accepts it. -/
def applyJudge (s : State) (mask : Nat) : Option Nat :=
  if !anaUp s || (List.range 16).any (fun b => nbit mask b && nbit (fld s AFE_STATUS.TRIPPED) b) then some 1
  else if isPending s AFE_EXC_APPLY then some 2
  else if mask = 0 then some 0
  else none

/-- EXC_APPLY (R87). -/
def execExcApply (mask : BitVec 16) (s : State) : Host.Outcome State Fault Refusal :=
  match applyJudge s mask.toNat with
  | none => done (accept AFE_EXC_APPLY (w32 mask.toNat) s)
  | some 1 => done (refuse AFE_EXC_APPLY s)
  | some 2 => done (reject AFE_EXC_APPLY 2 s)
  | some _ => done (complete AFE_EXC_APPLY 0 s)

/-- An accepted APPLY acts at its boundary where its conditions still hold (R87, R467). -/
def applyDue (s : State) : Option Nat :=
  match dueReal s AFE_EXC_APPLY with
  | some w =>
    let m := fget w 0 16
    if anaUp s && !(List.range 16).any (fun b => nbit m b && nbit (fld s AFE_STATUS.TRIPPED) b) then some m else none
  | none => none

/-- One bank of an APPLY: ACTIVE is copied and the ramp begins; an unplugged bank stays OFF (R87, R107). -/
def applyBank (s : State) (b : Nat) : State :=
  let s1 := wr s (AFE_BANKb_EXC_ACTIVE b) (rd s (AFE_BANKb_EXC_NEXT b))
  if heldOff s1 b then s1 else startChange b false false s1

/-- The APPLY of this boundary. -/
def applyBoundary (s : State) : State :=
  match applyDue s with
  | some m => complete AFE_EXC_APPLY 0 ((idxWhere 16 (nbit m)).foldl applyBank s)
  | none => s

/-- EXC_RAMP_END (R88). -/
def execExcRampEnd (b : Fin 16) (s : State) : Host.Outcome State Fault Refusal :=
  if excState s b = 1 && decide ((bankOf s b).ramp = 0) then
    let x := bankOf s b
    done (setExcState b 2 (setBank b { x with settle := fld s (AFE_BANKb_EXC_CFG.SETTLE b), level := x.target } s))
  else done s

/-- EXC_SETTLE_END (R88): ON, or OFF after a change to OFF. -/
def execExcSettleEnd (b : Fin 16) (s : State) : Host.Outcome State Fault Refusal :=
  let x := bankOf s b
  if excState s b = 2 && decide (x.settle = 0) then
    done (setExcState b (if x.mode = 0 then 0 else if 0 < x.blank then 5 else 3) s)
  else done s

/-- The blank laps after a reversal: REV_BLANK, and at least the ramp of twice the level, or 21 in CURRENT mode (R91). -/
def blankLaps (s : State) (b : Nat) : Nat :=
  let x := bankOf s b
  max (fld s (AFE_BANKb_EXC_CFG.REV_BLANK b)) (if x.mode = 2 then 21 else rampLaps (2 * x.target))

/-- The polarity of bank `b` that the code of lap `l` has, by the programmed setting: in a blank lap that of the lap before the reversal,
whose code it repeats (R90, R91). -/
def codeNeg (s : State) (b l : Nat) : Bool :=
  match revOf s b with
  | some n =>
    let m := actingMode (fld s (AFE_BANKb_EXC_ACTIVE.MODE b))
    let k := max (fld s (AFE_BANKb_EXC_CFG.REV_BLANK b)) (if m = 2 then 21 else rampLaps (2 * sfld s (AFE_BANKb_EXC_ACTIVE.LEVEL b)))
    if l % 2 ^ n < k then nbit (l - l % 2 ^ n - 1) n else nbit l n
  | none => false

/-- Whether the driver of a bank is at a reversal point: the polarity of this lap differs from the one driven (R90). -/
def reversalDue (s : State) (b : Nat) : Bool :=
  let x := bankOf s b
  x.rev.isSome && (negIn x.rev (lap s) != x.neg) && decide (excState s b ≠ 4) && decide (excState s b ≠ 0)

/-- EXC_REVERSAL (R90, R91, R106). -/
def execExcReversal (b : Fin 16) (s : State) : Host.Outcome State Fault Refusal :=
  if reversalDue s b then
    let x := bankOf s b
    let x1 := { x with neg := !x.neg, target := -x.target, blank := blankLaps s b }
    let s1 := setFlag (setBank b x1 s) (AFE_BANKb_STATUS.REV_POL b) (!x.neg)
    done (if excState s1 b = 3 && decide (0 < x1.blank) then setExcState b 5 s1 else s1)
  else done s

/-- EXC_BLANK_END (R91). -/
def execExcBlankEnd (b : Fin 16) (s : State) : Host.Outcome State Fault Refusal :=
  if excState s b = 5 && decide ((bankOf s b).blank = 0) then done (setExcState b 3 s) else done s

/-- Whether the current limit of a driver may act: VOLTAGE mode, not TRIPPED (R86, R93). -/
def driving (s : State) (b : Nat) : Bool :=
  anaUp s && decide (excState s b ≠ 0) && decide (excState s b ≠ 4) && decide ((bankOf s b).mode = 1)

/-- AFE_EXC_LIMIT (R93): the load draws more than the limit. -/
def execAfeExcLimit (b : Fin 16) (s : State) : Host.Outcome State Fault Refusal :=
  if driving s b && !(bankOf s b).limiting then
    done (raise 146 (setFlag (setBank b { bankOf s b with limiting := true, limitLaps := 0 } s)
      (AFE_BANKb_STATUS.EXC_LIMIT b) true))
  else done s

/-- AFE_EXC_TRIP (R93, R108): 1 024 consecutive laps of limiting. DESIGN CHOICE: REV_POL, which the spec does not give for a TRIPPED
driver, stays as it was (log entry 120). -/
def execAfeExcTrip (b : Fin 16) (s : State) : Host.Outcome State Fault Refusal :=
  if driving s b && decide (1024 ≤ (bankOf s b).limitLaps) then
    let x := { bankOf s b with ramp := 0, settle := 0, level := 0, target := 0, rev := none, blank := 0,
                               limiting := false, limitLaps := 0 }
    let s1 := setExcState b 4 (setBank b x s)
    done (raise 147 (setFld s1 AFE_STATUS.TRIPPED (fld s1 AFE_STATUS.TRIPPED ||| 2 ^ b.val)))
  else done s

/-- RESET_TRIP is allowed while the bank is TRIPPED, and acts at the next boundary (R93, R402). -/
def execResetTrip (b : Fin 16) (s : State) : Host.Outcome State Fault Refusal :=
  if isPending s (AFE_BANKb_CMD b) then done (reject (AFE_BANKb_CMD b) 2 s)
  else if nbit (fld s AFE_STATUS.TRIPPED) b then done (accept (AFE_BANKb_CMD b) 1 s)
  else done (refuse (AFE_BANKb_CMD b) s)

/-- The RESET_TRIP of this boundary: a change of mode from OFF toward ACTIVE (R93). While the die is down the driver stays
off; it starts when the die comes up. -/
def resetTripBoundary (s : State) (b : Nat) : State :=
  match dueReal s (AFE_BANKb_CMD b) with
  | some _ =>
    if nbit (fld s AFE_STATUS.TRIPPED) b then
      let s1 := setFld s AFE_STATUS.TRIPPED (fld s AFE_STATUS.TRIPPED &&& (65535 - 2 ^ b))
      let s2 := if anaUp s1 then startChange b (heldOff s1 b) true s1
                else setExcState b 0 (setBank b { bankOf s1 b with mode := 0, level := 0, target := 0 } s1)
      complete (AFE_BANKb_CMD b) 0 s2
    else s
  | none => s

/-! ### Sense check and temperature -/

/-- AFE_SNS_FAULT (R94). -/
def execAfeSnsFault (b : Fin 16) (s : State) : Host.Outcome State Fault Refusal :=
  let x := bankOf s b
  if !x.snsBad && decide (1024 ≤ x.snsLow) then
    done (raise 148 (setFlag (setBank b { x with snsBad := true } s) (AFE_BANKb_STATUS.SNS_FAULT b) true))
  else done s

/-- SNS_FAULT_CLEAR (R94): the condition ends; the status bit stays. -/
def execSnsFaultClear (b : Fin 16) (s : State) : Host.Outcome State Fault Refusal :=
  let x := bankOf s b
  if x.snsBad && decide (1024 ≤ x.snsHigh) then done (setBank b { x with snsBad := false } s) else done s

/-- TTEMP_UPDATE (R101): `temp` in 1/128 °C, or an open or shorted reading. At most one update in 1 024 laps, while the die is
up. DEDUCED: a reading that goes on being bad posts its event again only once software has cleared TT_FAULT (log entry 122). -/
def execTtempUpdate (b : Fin 16) (temp : Int) (bad : Bool) (s : State) : Host.Outcome State Fault Refusal :=
  let x := bankOf s b
  if anaUp s && decide (x.ttAt ≤ tick s) then
    let x1 := { x with ttAt := tick s + 1024, ttBad := bad }
    let s1 := setBank b x1 s
    let new := !x.ttBad || !flag s (AFE_BANKb_STATUS.TT_FAULT b)
    if bad then done (raiseIf new 149 (setFlag s1 (AFE_BANKb_STATUS.TT_FAULT b) true))
    else done (setInt s1 (AFE_BANKb_TTEMP.TEMP b) (satSigned 16 temp))
  else done s

/-! ### OPEN (R98) -/

/-- PERSIST; 0 acts as 1. -/
def openPersist (s : State) : Nat := max 1 (fld s AFE_OPEN_CFG.PERSIST)

/-- Bit `c` of AFE_OPEN_NOW. -/
def isOpen (s : State) (c : Nat) : Bool := nbit (rd s (AFE_OPEN_NOWk (c / 32))).toNat (c % 32)

/-- Set or clear bit `c` of a channel-mask register whose word 0 is at `a`. -/
def setMaskBit (a c : Nat) (v : Bool) (s : State) : State := setFld s ⟨a + c / 32 * 4, c % 32, 1⟩ (bit v)

/-- OPEN_SET (R98): the code has been at or beyond THR for PERSIST laps; OPEN holds from the lap whose codes were taken last. -/
def execOpenSet (c : Fin 256) (s : State) : Host.Outcome State Fault Refusal :=
  if burnOut s c && !isOpen s c && decide (openPersist s ≤ (chanOf s c).openRun) then
    done (mark c 4 (s.twin.usedTo - 1) (setMaskBit (AFE_OPEN_NOWk 0) c true s))
  else done s

/-- OPEN_CLEAR (R98): the code has been below THR for PERSIST laps; OPEN ends at that lap. -/
def execOpenClear (c : Fin 256) (s : State) : Host.Outcome State Fault Refusal :=
  if isOpen s c && decide (openPersist s ≤ (chanOf s c).closeRun) then
    done (unmark c 4 (s.twin.usedTo - 1) (setMaskBit (AFE_OPEN_NOWk 0) c false s))
  else done s

/-- One corrected code of channel `c`, before the inversion of R91, in the burn-out direction (R98): the runs at or beyond and
below THR, under the Catalogue `cat` of the code's own lap (R20). -/
def openCount (cat : Tab Word) (c : Nat) (code : Int) (s : State) : State :=
  let thr : Int := fld s AFE_OPEN_CFG.THR
  let x := chanOf s c
  let at1 := if boDown cat c then decide (code ≤ -thr) else decide (thr ≤ code)
  if burnOutIn cat c && burnsHere s c then
    setChan c { x with openRun := if at1 then x.openRun + 1 else 0, closeRun := if at1 then 0 else x.closeRun + 1 } s
  else if x.openRun = 0 ∧ x.closeRun = 0 then s
  else setChan c { x with openRun := 0, closeRun := 0 } s

/-- Whether the lap `b` carries OPEN, once its code has been counted (R98): the condition holds; or burn-out was disconnected at the
boundary that ended the lap, and the condition held in it, or began to. -/
def openLap (s : State) (c b : Nat) : Bool :=
  let x := chanOf s c
  isOpen s c || (decide (x.openTo = b + 1 + 1) && decide (x.closeRun < openPersist s)) ||
    (!burnOut s c && decide (openPersist s ≤ x.openRun))

/-- OPEN ends where burn-out is disconnected (R98). -/
def endOpen (s : State) (c : Nat) : State :=
  if !burnOut s c && isOpen s c then setMaskBit (AFE_OPEN_NOWk 0) c false (setChan c { chanOf s c with openTo := s.bnd + 1 } s) else s

/-! ### Common-mode window (R99, R100) -/

/-- CMWIN_WRITE (R99): a write to CMWIN, or to CMHYS where `hys`, takes effect at the next boundary. LOCK makes the fields
read-only (R8, R110). -/
def execCmwinWrite (b : Fin 16) (hys : Bool) (value : Word) (s : State) : Host.Outcome State Fault Refusal :=
  let a := if hys then AFE_BANKb_CMHYS b else AFE_BANKb_CMWIN b
  let w := if hys then value &&& 0x3FF else value
  if flag s AFE_CTRL.LOCK || decide (w = heldNext s a) then done s
  else
    done (setBank b { bankOf s b with cmClear := true } { s with nextRegs := s.nextRegs ++ [(a, w)] })

/-- A window limit: values beyond ±15 000 mV act as ±15 000 mV. -/
def cmLimit (x : Int) : Int := clampInt (-15000) 15000 x

/-- CMX of a channel at a lap instant, from its state before and its common-mode voltage in mV (R99). -/
def cmxNext (low high hys : Int) (was : Bool) (v : Int) : Bool :=
  if was then !(decide (low + hys ≤ v) && decide (v ≤ high - hys)) else !(decide (low ≤ v) && decide (v ≤ high))

/-- The CMX of all channels as one number with a bit per channel. -/
def maskOf (s : State) (a : Nat) : Nat :=
  (List.range 8).foldl (fun acc k => acc + 2 ^ (32 * k) * (rd s (a + k * 4)).toNat) 0

/-- Write a number with a bit per channel to eight mask registers. -/
def setMaskAll (a m : Nat) (s : State) : State :=
  (List.range 8).foldl (fun s k => wr s (a + k * 4) (w32 (m / 2 ^ (32 * k)))) s

/-- The new CMX bits of one bank's sixteen channels, as a number with bit i for index i. -/
def cmxBank (s : State) (old b : Nat) : Nat :=
  let low := cmLimit (sfld s (AFE_BANKb_CMWIN.LOW b))
  let high := cmLimit (sfld s (AFE_BANKb_CMWIN.HIGH b))
  let hys : Int := fld s (AFE_BANKb_CMHYS.HYS b)
  let clear := (bankOf s b).cmClear
  bitsOf 16 (fun i => cmxNext low high hys (!clear && nbit old (b * 16 + i)) (tget (fun _ => (0 : Int)) s.afe.vcm (b * 16 + i)))

/-- The common-mode comparators at a lap instant: CMX, its sticky bits and AFE_CMW (R99, R100). While the die is down CMX reads
0. -/
def cmxBoundary (s : State) : State :=
  let old := maskOf s (AFE_CMW_NOWk 0)
  let new := if anaUp s then (List.range 16).foldl (fun acc b => acc + cmxBank s old b * 2 ^ (16 * b)) 0 else 0
  let seen := maskOf s (AFE_CMW_STICKYk 0)
  let s1 := if new = old then s else setMaskAll (AFE_CMW_NOWk 0) new s
  let s2 := if new ||| seen = seen then s1 else raise 150 (setMaskAll (AFE_CMW_STICKYk 0) (new ||| seen) s1)
  (List.range 16).foldl (fun s b => if (bankOf s b).cmClear then setBank b { bankOf s b with cmClear := false } s else s) s2

/-! ### Plug detection (R102 to R104) -/

/-- PLUG_DET_EDGE (R102): the pin takes a level (high: unplugged), and the debounce count restarts. -/
def execPlugDetEdge (b : Fin 16) (high : Bool) (s : State) : Host.Outcome State Fault Refusal :=
  let x := bankOf s b
  if x.plugPin = high ∨ !awake s then done s else done (setBank b { x with plugPin := high, plugRun := 0 } s)

/-- Whether the bank is confirmed unplugged. -/
def unplugged (s : State) (b : Nat) : Bool := nbit (fld s AFE_PLUG_STATUS.UNPLUGGED) b

/-- Whether a change of plug state is confirmed at this boundary: the opposite level has been held for DEB x 1 024 laps before
it; DEB = 0 acts as 1 (R102). -/
def plugDue (s : State) (b : Nat) : Bool :=
  flag s (AFE_BANKb_PLUG.EN b) && decide ((bankOf s b).plugPin ≠ unplugged s b) &&
    decide (max 1 (fld s (AFE_BANKb_PLUG.DEB b)) * 1024 < (bankOf s b).plugRun)

/-- Set the confirmed plug state of a bank. -/
def setPlug (b : Nat) (out : Bool) (s : State) : State :=
  let s1 := setFld s ⟨AFE_PLUG_STATUS, b, 1⟩ (bit out)
  let s2 := setFld s1 ⟨AFE_PLUG_STATUS, 16 + b, 1⟩ 1
  setBank b { bankOf s2 b with plugRun := 0 } (setFlag s2 (AFE_BANKb_STATUS.PLUGGED b) (!out))

/-- AFE_PLUG_OUT (R103). -/
def execAfePlugOut (b : Fin 16) (s : State) : Host.Outcome State Fault Refusal :=
  if plugDue s b && !unplugged s b then
    let s1 := raise 144 (setPlug b true s)
    done (if flag s1 (AFE_BANKb_PLUG.EXC_OFF b) && anaUp s1 then startChange b true false s1 else s1)
  else done s

/-- A confirmed re-plug at this boundary (R104): the driver restarts where EXC_OFF = 1 and the twin's gate does not hold it (R393; log entry 216), and the
plug STL window opens. -/
def replug (b : Nat) (s : State) : State :=
  let s1 := raise 145 (setPlug b false s)
  let x := bankOf s1 b
  let s2 := setBank b { x with plugStl := max x.plugStl (fld s1 (AFE_BANKb_PLUG.SETTLE b) * 1024), plugClear := false } s1
  if flag s2 (AFE_BANKb_PLUG.EXC_OFF b) && anaUp s2 && !heldOff s2 b then startChange b false false s2 else s2

/-- AFE_PLUG_IN (R104). -/
def execAfePlugIn (b : Fin 16) (s : State) : Host.Outcome State Fault Refusal :=
  if plugDue s b && unplugged s b then done (replug b s) else done s

/-- PLUG_EN_CLEAR (R102): clearing EN while the bank is confirmed unplugged acts as a re-plug at the next boundary. -/
def execPlugEnClear (b : Fin 16) (s : State) : Host.Outcome State Fault Refusal :=
  if flag s AFE_CTRL.LOCK then done s
  else
    let s1 := setFlag s (AFE_BANKb_PLUG.EN b) false
    done (if unplugged s b && flag s (AFE_BANKb_PLUG.EN b) then setBank b { bankOf s1 b with plugClear := true } s1 else s1)

/-! ### The boundary -/

/-- The level driven one lap later: it moves toward its target at 1 V/µs (R88). -/
def moveLevel (x t : Int) : Int := if t - x > 6400 then x + 6400 else if t - x < -6400 then x - 6400 else t

/-- Whether a bank is ON in VOLTAGE mode; blank laps count as ON (R94). -/
def onVoltage (s : State) (b : Nat) : Bool :=
  (excState s b = 3 || excState s b = 5) && decide ((bankOf s b).mode = 1) && anaUp s

/-- Whether the latest sense value, in 2^-8 µV and with the substitution of blank laps (R91), is below 50 % of |V_exc| (R94). -/
def senseLow (s : State) (b : Nat) : Bool :=
  let v := match s.twin.own with | d :: _ => d.sense.getD b 0 | [] => 0
  decide (4 * v.natAbs < (bankOf s b).target.natAbs * 78125)

/-- The sense check of one lap (R94). -/
def senseCheck (s : State) (b : Nat) (x : Bank) : Bank :=
  if onVoltage s b then
    let on := x.onLaps + 1
    if 1024 < on then
      let low := senseLow s b
      { x with onLaps := on, snsLow := if low then x.snsLow + 1 else 0, snsHigh := if low then 0 else x.snsHigh + 1,
               snsStl := x.snsBad }
    else { x with onLaps := on, snsStl := x.snsBad }
  else { x with onLaps := 0, snsLow := 0, snsHigh := 0, snsBad := false, snsStl := false }

/-- The counters of one bank at a lap boundary: ramp, SETTLE, blank laps, STL windows, the level driven, the plug pin, the
sense check and the current limit. -/
def bankBoundary (limiting : Nat) (s : State) (b : Nat) : State :=
  let x := senseCheck s b (bankOf s b)
  let plug := if flag s (AFE_BANKb_PLUG.EN b) && decide (x.plugPin ≠ unplugged s b) then x.plugRun + 1 else 0
  let lim := x.limiting && nbit limiting b && driving s b
  let x1 := { x with ramp := x.ramp - 1, settle := x.settle - 1, blank := x.blank - 1, stl := x.stl - 1,
                     plugStl := x.plugStl - 1, level := moveLevel x.level x.target, plugRun := plug,
                     limiting := lim, limitLaps := if lim then x.limitLaps + 1 else 0 }
  let s1 := setBank b x1 s
  if x1.plugClear then replug b s1 else s1

/-- The front end at a lap boundary: counters first, then the changes that start at it, then the comparators. While the
analog die is down EXC_I keeps its last value (DESIGN CHOICE, log entry 215). -/
def afeBoundary (limiting : Nat) (excI : List (Nat × Int)) (s : State) : State :=
  let s1 := (List.range 16).foldl (bankBoundary limiting) s
  let s2 := applyBoundary ((List.range 16).foldl resetTripBoundary s1)
  let s3 := s2.afe.chan.foldl (fun s q => if 0 < q.2.stl then setChan q.1 { q.2 with stl := q.2.stl - 1 } s else s) s2
  if anaUp s3 then
    excI.foldl (fun s q => if q.1 < 16 then setInt s (AFE_BANKb_EXC_I.CURRENT q.1) (satSigned 16 q.2) else s) s3
  else s3

/-- Whether STL is set on the codes of channel `c` in the present lap (R84, R88, R93, R94, R104, R105). -/
def stlNow (s : State) (c : Nat) : Bool :=
  let b := c / 16
  let x := bankOf s b
  let dep := nbit (fld s (AFE_BANKb_EXC_DEP.DEP b)) (c % 16)
  decide (0 < (chanOf s c).stl) || decide (0 < x.plugStl) ||
    (dep && (decide (0 < x.stl) || x.snsStl || decide (excState s b = 4)))

/-- Whether the codes of channel `c` are inverted, or blanked, in the present lap (R91). -/
def negNow (s : State) (c : Nat) : Bool :=
  (bankOf s (c / 16)).neg && nbit (fld s (AFE_BANKb_EXC_DEP.DEP (c / 16))) (c % 16) && decide (excState s (c / 16) ≠ 4)

def blankNow (s : State) (c : Nat) : Bool :=
  decide (0 < (bankOf s (c / 16)).blank) && nbit (fld s (AFE_BANKb_EXC_DEP.DEP (c / 16))) (c % 16)

/-- The settling laps of a change of range or filter (R84); 0 where neither changes. -/
def rangeWindow (oldR newR : Nat) (oldA newA : Bool) : Nat :=
  if oldA != newA then 128
  else if oldR = newR then 0
  else if oldR = 0 || newR = 0 then 8
  else if 4 ≤ newR then 6
  else 4

/-- The analog die comes up: drivers held neither by a trip nor by an unplug move to their ACTIVE setting; tripped ones drive
0 V (R86, R93, R110). -/
def driverUp (s : State) (b : Nat) : State :=
  if nbit (fld s AFE_STATUS.TRIPPED) b then setExcState b 4 s
  else if actingMode (fld s (AFE_BANKb_EXC_ACTIVE.MODE b)) = 0 || heldOff s b then s
  else startChange b false false s

/-- The analog die goes down: the driver is off (R86, R93, R94). -/
def driverDown (s : State) (b : Nat) : State :=
  let x := bankOf s b
  let x1 := { x with ramp := 0, settle := 0, mode := 0, rev := none, level := 0, target := 0, blank := 0, neg := false,
                     limiting := false, limitLaps := 0, onLaps := 0, snsLow := 0, snsHigh := 0, snsBad := false,
                     snsStl := false }
  let s1 := setFlag (setBank b x1 s) (AFE_BANKb_STATUS.REV_POL b) false
  if nbit (fld s1 AFE_STATUS.TRIPPED) b then s1 else setExcState b 0 s1

end Sys2Proof.Machine
end

