-- ==== Sys2Proof/Machine/Cnv.lean ====
section
/-!
DEFINITION. Conversion: the reference, background calibration, hand-over, tracking, skew calibration and slice correction
(spec/04_conversion.md R111 to R135).
-/
namespace Sys2Proof.Machine
open Sys2Proof

def setCnv (x : Cnv) (s : State) : State := { s with cnv := x }

def refReady (s : State) : Bool := flag s CNV_STATUS.REF_READY

/-- CNV_CAL_STATUS.STATE: 0 OFF, 1 CALIBRATE, 2 OVERLAP, 3 PAUSED, 4 HELD, 5 NO_SPARE. -/
def calState (s : State) : Nat := fld s CNV_CAL_STATUS.STATE
def setCalState (st : Nat) (s : State) : State := setFld s CNV_CAL_STATUS.STATE st
def calCount (s : State) : Nat := fld s CNV_CAL_COUNT.LAPS
def setCalCount (n : Nat) (s : State) : State := setFld s CNV_CAL_COUNT.LAPS n
def spareOf (s : State) : Nat := fld s CNV_CAL_STATUS.SPARE
def targetOf (s : State) : Nat := fld s CNV_CAL_STATUS.TARGET

/-- The slice that serves bank `b` (R111). -/
def sliceOf (s : State) (b : Nat) : Nat := fget (rd s (CNV_MAPk (b / 4))) (b % 4 * 8) 5

def setSliceOf (b sl : Nat) (s : State) : State :=
  wr s (CNV_MAPk (b / 4)) (fset (rd s (CNV_MAPk (b / 4))) (b % 4 * 8) 5 sl)

/-- The bank that slice `sl` serves. -/
def bankServed (s : State) (sl : Nat) : Option Nat := firstIdx 16 (fun b => decide (sliceOf s b = sl))

def roleOf (s : State) (sl : Nat) : Nat := fld s (CNV_SLICEs_STATUS.ROLE sl)
def setRole (sl r : Nat) (s : State) : State := setFld s (CNV_SLICEs_STATUS.ROLE sl) r

/-- HELD is entered (R120, R126): an overlap in progress is abandoned. -/
def hold (s : State) : State :=
  let n := if calState s = 2 then 65536 else calCount s
  setCalState 4 (setRole (spareOf s) 4 (setCalCount n s))

/-- HELD is entered from CALIBRATE, OVERLAP or PAUSED. -/
def holdRunning (s : State) : State := if calState s = 1 || calState s = 2 || calState s = 3 then hold s else s

/-! ### The reference (R117, R119) -/

/-- BUF_EN_WRITE (R117): REF_READY clears at the next boundary when the buffer is turned off, for however short a time (R119). -/
def execBufEnWrite (en : Bool) (s : State) : Host.Outcome State Fault Refusal :=
  if flag s CNV_REF_CTRL.BUF_EN = en then done s
  else done (setCnv { s.cnv with okRun := 0, badRun := 0, bufLow := s.cnv.bufLow || !en } (setFlag s CNV_REF_CTRL.BUF_EN en))

/-- CNV_REF_READY (R117): 1 024 consecutive laps within ±0.01 %. -/
def execCnvRefReady (s : State) : Host.Outcome State Fault Refusal :=
  if flag s CNV_REF_CTRL.BUF_EN && anaUp s && !refReady s && decide (1024 ≤ s.cnv.okRun) then
    done (raise 152 (setFlag (setCnv { s.cnv with badRun := 0 } s) CNV_STATUS.REF_READY true))
  else done s

/-- CNV_REF_FAULT (R119): 16 consecutive laps outside ±0.5 % while ready. -/
def execCnvRefFault (s : State) : Host.Outcome State Fault Refusal :=
  if refReady s && decide (16 ≤ s.cnv.badRun) then
    let s1 := holdRunning (setFlag (setFlag s CNV_STATUS.REF_READY false) CNV_STATUS.REF_FAULT true)
    done (raise 153 (setCnv { s1.cnv with okRun := 0, badRun := 0 } s1))
  else done s

/-- The reference at a lap instant, with the buffer's errors in ppm against its final and against its nominal value. -/
def refBoundary (errFinal errNominal : Int) (s : State) : State :=
  let on := flag s CNV_REF_CTRL.BUF_EN && anaUp s
  let x := s.cnv
  let ok := on && decide (errFinal.natAbs ≤ 100)
  let bad := on && refReady s && decide (5000 < errNominal.natAbs)
  let s1 := setCnv { x with okRun := if ok then x.okRun + 1 else 0, badRun := if bad then x.badRun + 1 else 0, bufLow := false } s
  if refReady s && (!on || x.bufLow) then setFlag s1 CNV_STATUS.REF_READY false else s1

/-! ### Background calibration (R121 to R126) -/

/-- Calibration may run: enabled, the reference ready and the die up (R121). -/
def calRuns (s : State) : Bool := flag s CNV_CAL_CTRL.EN && refReady s && anaUp s

/-- CAL_EN_WRITE (R121): an epoch starts, or the step ends, at the next boundary. -/
def execCalEnWrite (en : Bool) (s : State) : Host.Outcome State Fault Refusal :=
  if flag s CNV_CAL_CTRL.EN = en then done s
  else
    let s1 := setFlag s CNV_CAL_CTRL.EN en
    done (setCnv { s1.cnv with startDue := en, stopDue := !en } s1)

/-- A new epoch of the spare begins: a SUSPECT slice that has become the spare clears SUSPECT (R121, R125). -/
def startEpoch (s : State) : State :=
  let sp := spareOf s
  let s1 := setFlag (setRole sp (if calRuns s then 1 else 4) s) (CNV_SLICEs_STATUS.SUSPECT sp) false
  let s2 := setCnv { s1.cnv with ext := 0, paused := false, startDue := false, measured := false,
                                 suspects := s1.cnv.suspects.filter (fun x => decide (x ≠ sp)) } s1
  setCalState (if calRuns s2 then 1 else 4) (setCalCount 0 s2)

/-- An overlap is entered: its first lap is the present one (R121). -/
def startOverlap (s : State) : State :=
  setCalState 2 (setRole (spareOf s) 2 (setCalCount 65536 (setCnv { s.cnv with ext := 0, pairs := {} } s)))

/-- CAL_EPOCH_END (R121): the spare measures its coefficients and joins the target bank. -/
def execCalEpochEnd (s : State) : Host.Outcome State Fault Refusal :=
  if calRuns s && decide (calState s = 1) && decide (65536 ≤ calCount s) then
    let sp := spareOf s
    let put := fun (s1 : State) (k : Nat) =>
      wr (freshen s1) (CNV_SLICEs_STAGE_GAIN1 sp + k * 4) (Config.epochCoef s1.fresh k)
    let s1 := (List.range 14).foldl put s
    done (startOverlap (setCnv { s1.cnv with measured := true } s1))
  else done s

/-- The laps of a step up to its hand-over boundary, with its extensions (R121, R123). -/
def stepLaps (s : State) : Nat := 66560 + 1024 * s.cnv.ext

/-- The target of the next step: the bank of the first suspect slice, or the next bank of the rotation (R121, R125). -/
def nextTarget (s : State) : State :=
  match s.cnv.suspects.findSome? (bankServed s) with
  | some b => setFld s CNV_CAL_STATUS.TARGET b
  | none => setFld s CNV_CAL_STATUS.TARGET s.cnv.norm

/-- Slice `sl` becomes SUSPECT (R123, R125). Its bank becomes the target of the next step not yet in its overlap. -/
def suspect (sl : Nat) (s : State) : State :=
  if flag s (CNV_SLICEs_STATUS.SUSPECT sl) then s
  else
    let s1 := raise 156 (setFlag s (CNV_SLICEs_STATUS.SUSPECT sl) true)
    let s2 := setCnv { s1.cnv with suspects := s1.cnv.suspects ++ [sl] } s1
    if calState s2 = 2 then s2 else nextTarget s2

/-- CAL_VALID: every slice that is not RETIRED has an epoch and a trimmed hand-over since the die came up (R133). -/
def judgeCalValid (s : State) : State :=
  let all := (List.range 17).all (fun sl => roleOf s sl = 3 || nbit s.cnv.matched sl)
  if all && anaUp s then setFlag s CNV_STATUS.CAL_VALID true else s

/-- The fit S = gain × O + offset over the usable pairs (R123), as numerators and denominators: gain - 1 and offset in LSB16. Where the
outgoing slice's codes do not vary, which the rule does not address, the gain is 1 (DESIGN CHOICE, log entry 126). -/
def fitGain (p : Pairs) : Int × Int :=
  let q := p.n * p.sumOO - p.sumO * p.sumO
  if q ≤ 0 then (0, 1) else (p.n * p.sumOS - p.sumO * p.sumS - q, q)

def fitOffset (p : Pairs) : Int × Int :=
  let g := fitGain p
  (g.2 * p.sumS - (g.1 + g.2) * p.sumO, p.n * g.2)

/-- Whether the difference lies within 2 LSB16 and 50 ppm (R123). -/
def fitGood (p : Pairs) : Bool :=
  let g := fitGain p
  let o := fitOffset p
  decide (g.1.natAbs * 20000 ≤ g.2.natAbs) && decide (o.1.natAbs ≤ 2 * o.2.natAbs)

/-- The hand-over of the target bank at this boundary (R122): the map, the roles, the mark, and the report. The trim makes the spare's codes
follow the outgoing slice's: (S - offset) / gain. -/
def handOver (untrimmed : Bool) (s : State) : State :=
  let b := targetOf s
  let sp := spareOf s
  let out := sliceOf s b
  let g := fitGain s.cnv.pairs
  let o := fitOffset s.cnv.pairs
  let tg : Int := if untrimmed then 0 else divHalfEven (-g.1 * 2147483648) (g.1 + g.2)
  let tofs : Int := if untrimmed then 0 else divHalfEven (-o.1 * g.2 * 4096) (o.2 * (g.1 + g.2))
  let s1 := setInt (setInt s (CNV_SLICEs_TRIM_GAIN.VALUE sp) (satSigned 32 tg)) (CNV_SLICEs_TRIM_OFS.VALUE sp) (satSigned 32 tofs)
  let s2 := setRole sp 0 (setSliceOf b sp s1)
  let s3 := setFld (setFld s2 (CNV_SLICEs_STATUS.FAILS sp) 0) CNV_CAL_STATUS.SPARE out
  let s4 := addMod s3 CNV_ROTATIONS.COUNT 1
  let info := 2 ^ 31 + bit untrimmed * 2 ^ 30 + sp * 2 ^ 16 + out * 2 ^ 8 + b
  let s5 := wr s4 CNV_HO_INFO (w32 info)
  let resid := unsignedOf 16 (satSigned 16 (divHalfEven (g.1 * 100000000) g.2)) * 65536 +
    unsignedOf 16 (satSigned 16 (divHalfEven (o.1 * 1024) o.2))
  let x := s5.cnv
  let norm := if b = x.norm then (b + 1) % 16 else x.norm
  let s6 := setCnv { x with hoLap := lap s5, hoResid := resid, hoNow := x.hoNow ||| 2 ^ b, norm := norm,
                            matched := if untrimmed then x.matched else x.matched ||| 2 ^ sp } s5
  let s7 := if untrimmed then suspect out s6 else s6
  raise 154 (judgeCalValid (nextTarget (startEpoch s7)))

/-- A match failure of the spare (R124): after the third in a row it is retired, and no step counts its laps. -/
def matchFail (s : State) : State :=
  let sp := spareOf s
  let fails := fld s (CNV_SLICEs_STATUS.FAILS sp) + 1
  let s1 := raise 155 (setFlag (setFld s (CNV_SLICEs_STATUS.FAILS sp) fails) (CNV_SLICEs_STATUS.MATCH_FAIL sp) true)
  if 3 ≤ fails then
    judgeCalValid (raise 157 (setFlag (setCalState 5 (setCalCount 0 (setRole sp 3 s1))) CNV_STATUS.NO_SPARE true))
  else setCnv { s1.cnv with startDue := true, measured := false } (setCalState 1 (setCalCount 0 (setRole sp 1 s1)))

/-- CNV_HANDOVER (R122 to R124): the fit is judged at the end of the overlap. -/
def execCnvHandover (b : Fin 16) (s : State) : Host.Outcome State Fault Refusal :=
  if calRuns s && decide (calState s = 2) && decide (stepLaps s ≤ calCount s) && decide (targetOf s = b) then
    let p := s.cnv.pairs
    if p.n < 8192 then
      if s.cnv.ext < 3 then done (setCnv { s.cnv with ext := s.cnv.ext + 1 } s) else done (matchFail s)
    else if fitGood p then done (handOver false s)
    else if p.resO ≤ p.resS then done (matchFail s)
    else done (handOver true s)
  else done s

/-! ### Tracking (R125) -/

/-- The sum of a list. -/
def total (xs : List Int) : Int := xs.foldl (fun a b => a + b) 0

/-- The residuals of slice `sl` at level `j` in the present block: how many, and their sum in 2^-12 LSB16. -/
def trackOf (s : State) (sl j : Nat) : Nat × Int := tget (fun _ => ((0 : Nat), (0 : Int))) s.cnv.track (sl * 16 + j)

/-- The level of slot 16 of a lap with j = n mod 16, in LSB16: (2j - 15) / 16 of full scale. -/
def trackLevel (j : Nat) : Int := (2 * (j : Int) - 15) * 2048

/-- The gain error, as a ratio, and the offset, in 2^-12 LSB16 as a ratio, of the line fitted to a slice's residuals of the block. -/
def trackFit (s : State) (sl : Nat) : (Int × Int) × (Int × Int) :=
  let q := (List.range 16).map (fun j => (trackLevel j, trackOf s sl j))
  let n : Int := total (q.map (fun x => (x.2.1 : Int)))
  let r := total (q.map (fun x => x.2.2))
  let l1 := total (q.map (fun x => x.1 * x.2.1))
  let l2 := total (q.map (fun x => x.1 * x.1 * x.2.1))
  let rl := total (q.map (fun x => x.1 * x.2.2))
  let d := n * l2 - l1 * l1
  if n = 0 then ((0, 1), (0, 1))
  else if d ≤ 0 then ((0, 1), (r, n))
  else ((n * rl - r * l1, 4096 * d), (r * l2 - rl * l1, d))

/-- A share of a correction, from nothing to all of it (log entry 125). -/
def shareOf (k : Nat) (full : Int) : Int :=
  let p : Int := (k % (full.natAbs + 1) : Nat)
  if full < 0 then -p else p

/-- One slice's adjustment by tracking, toward the fit: the corrected code moves by at most 0.05 LSB16 at any input, which is 204.8 units
of 2^-12 LSB16; a gain word moves the code at full scale by an eighth of such a unit (R125). -/
def trackSlice (s : State) (sl : Nat) : State :=
  if roleOf s sl = 0 then
    let f := trackFit s sl
    let g : Int := (rd s (CNV_SLICEs_GAIN sl)).toNat
    let k := fun (w : Nat) => Config.trackShare (s.fresh + w) sl
    let dg := clampInt (-1638) 1638 (shareOf (k 0) (divHalfEven (-f.1.1 * g) f.1.2))
    let room : Int := (1638 - dg.natAbs : Nat) / 8
    let d := clampInt (-room) room (shareOf (k 1) (divHalfEven (-f.2.1) f.2.2))
    let s1 := freshen (freshen s)
    let s2 := setInt s1 (CNV_SLICEs_GAIN.VALUE sl) (clampInt 0 4294967295 (g + dg))
    setInt s2 (CNV_SLICEs_OFS.VALUE sl) (satSigned 32 (sfld s2 (CNV_SLICEs_OFS.VALUE sl) + d))
  else s

/-- A slice whose mean residual at a level exceeds TRACK_LIM, in 1/16 LSB16 (0 acts as 1), is faulty (R125). -/
def trackJudge (s : State) (sl : Nat) : State :=
  let lim := max 1 (fld s CNV_CAL_CTRL.TRACK_LIM)
  let beyond := (List.range 16).any (fun j => decide ((trackOf s sl j).1 * lim * 256 < (trackOf s sl j).2.natAbs))
  if roleOf s sl = 0 && beyond then suspect sl (setFlag s (CNV_SLICEs_STATUS.TRACK_FAULT sl) true) else s

/-- TRACKING_BLOCK_END (R125): a block of 1 024 laps closes with the slot-16 codes that have arrived. Blocks end where the lap count is a
multiple of 1 024, and tracking stops with EN = 0 (DESIGN CHOICE, log entry 125). While calibration is PAUSED the coefficients stand, so
that a consistent set is read (R133). -/
def execTrackingBlockEnd (k : Nat) (s : State) : Host.Outcome State Fault Refusal :=
  if calRuns s && decide (lap s = 1024 * k) && decide (s.cnv.trackAt ≠ tick s + 1) then
    let s1 := if calState s = 3 then s else (List.range 17).foldl trackSlice s
    let s2 := (List.range 17).foldl trackJudge s1
    done (setCnv { s2.cnv with trackAt := tick s2 + 1, track := [] } s2)
  else done s

/-- PAUSE is allowed in CALIBRATE and OVERLAP, and acts at the next boundary (R126, R135). -/
def execPause (s : State) : Host.Outcome State Fault Refusal :=
  if isPending s CNV_CAL_CMD then done (reject CNV_CAL_CMD 2 s)
  else if calState s = 1 || calState s = 2 then done (accept CNV_CAL_CMD 1 s)
  else done (refuse CNV_CAL_CMD s)

/-- RESUME is allowed in PAUSED, and acts at the next boundary (R126, R135). -/
def execCalResume (s : State) : Host.Outcome State Fault Refusal :=
  if isPending s CNV_CAL_CMD then done (reject CNV_CAL_CMD 2 s)
  else if calState s = 3 then done (accept CNV_CAL_CMD 2 s)
  else done (refuse CNV_CAL_CMD s)

/-- READMIT is allowed in NO_SPARE for a RETIRED slice, and acts at the next boundary (R124, R135). -/
def execReadmit (slice : Fin 32) (s : State) : Host.Outcome State Fault Refusal :=
  if isPending s CNV_CAL_CMD then done (reject CNV_CAL_CMD 2 s)
  else if calState s ≠ 5 then done (refuse CNV_CAL_CMD s)
  else if 17 ≤ slice.val ∨ roleOf s slice ≠ 3 then done (reject CNV_CAL_CMD 3 s)
  else done (accept CNV_CAL_CMD (w32 (slice.val * 256 + 3)) s)

/-- The command of CNV_CAL_CMD that acts at this boundary, where its state still allows it (R126, R467). -/
def calCmdBoundary (s : State) : State :=
  match dueReal s CNV_CAL_CMD with
  | some w =>
    if opOf w = 1 then
      if calState s = 1 ∨ calState s = 2 then
        let n := if calState s = 2 then 65536 else calCount s
        let s1 := setRole (spareOf s) 1 (setCalState 3 (setCalCount n (setCnv { s.cnv with paused := true } s)))
        complete CNV_CAL_CMD 0 s1
      else s
    else if opOf w = 2 then
      if calState s = 3 then
        let s1 := setCnv { s.cnv with paused := false } s
        complete CNV_CAL_CMD 0 (if s1.cnv.measured then startOverlap s1 else setCalState 1 s1)
      else s
    else
      let sl := fget w 8 5
      if calState s = 5 ∧ roleOf s sl = 3 then
        let s1 := setFld (setFlag s CNV_STATUS.NO_SPARE false) (CNV_SLICEs_STATUS.FAILS sl) 0
        complete CNV_CAL_CMD 0 (startEpoch (setFld s1 CNV_CAL_STATUS.SPARE sl))
      else s
  | none => s

/-- The calibration step ends: the map and all coefficients are kept (R121). NO_SPARE stands with EN = 0 too (DEDUCED, log entry 218). -/
def endStep (s : State) : State :=
  let s1 := setCnv { s.cnv with stopDue := false, startDue := false, paused := false, measured := false, ext := 0 } s
  let s2 := if roleOf s1 (spareOf s1) = 3 then s1 else setRole (spareOf s1) 4 s1
  setCalState (if flag s2 CNV_STATUS.NO_SPARE then 5 else 0) (setCalCount 0 s2)

/-- HELD is left (R120): the epoch goes on where it stood, up to its measurement, and an abandoned overlap starts again. -/
def unhold (s : State) : State :=
  if s.cnv.paused then setCalState 3 (setRole (spareOf s) 1 s)
  else if s.cnv.measured then startOverlap s
  else setCalState 1 (setRole (spareOf s) 1 s)

/-- One more lap of the present step (R121); the count stands still in PAUSED and HELD. -/
def countLap (s : State) : State :=
  if calState s = 1 then (if calCount s < 65536 then setCalCount (calCount s + 1) s else s)
  else if calState s = 2 then (if calCount s < stepLaps s then setCalCount (calCount s + 1) s else s)
  else s

/-- Background calibration at a lap boundary (R120, R121, R126): an epoch that is due starts before a command acts. -/
def calBoundary (s : State) : State :=
  let s1 := countLap s
  if s1.cnv.stopDue then endStep (calCmdBoundary s1)
  else
    let s2 := calCmdBoundary (if s1.cnv.startDue && decide (calState s1 ≠ 5) then startEpoch s1 else s1)
    if calRuns s2 then (if calState s2 = 4 then unhold s2 else s2) else holdRunning s2

/-! ### Skew and even/odd calibration (R128) -/

/-- SKEW_CMD (R128), judged in the order of its table. -/
def execSkewCmd (banks : BitVec 16) (s : State) : Host.Outcome State Fault Refusal :=
  if !refReady s || !anaUp s then done (refuse CNV_SKEW_CMD s)
  else if isPending s CNV_SKEW_CMD then done (reject CNV_SKEW_CMD 2 s)
  else if banks = 0 then done (complete CNV_SKEW_CMD 0 s)
  else done (accept CNV_SKEW_CMD (w32 banks.toNat) s)

/-- Skew calibration at a lap boundary: it starts at S_0, or counts a lap. -/
def skewBoundary (s : State) : State :=
  let x := s.cnv
  if x.skewMask ≠ 0 then setCnv { x with skewLeft := x.skewLeft - 1 } s
  else
    match dueReal s CNV_SKEW_CMD with
    | some w => if refReady s && anaUp s then setCnv { x with skewMask := fget w 0 16, skewLeft := 264 } s else s
    | none => s

/-- One channel's results: the skew in 1/16 ps, limited to ±1 000 ps, and the even/odd differences, saturated. -/
def skewChannel (s : State) (c : Nat) : State :=
  let sk := clampInt (-16000) 16000 (Config.skewValue s.fresh c)
  let g := unsignedOf 16 (satSigned 16 (Config.eoGain s.fresh c))
  let o := unsignedOf 16 (satSigned 16 (Config.eoOffset s.fresh c))
  wr (wr s (CNV_SKEWc c) (w32 (unsignedOf 16 sk))) (CNV_EOc c) (w32 (g * 65536 + o))

/-- CNV_SKEW_DONE (R128): at S_0 + 264 the inputs are reconnected and the new values take effect. -/
def execCnvSkewDone (s : State) : Host.Outcome State Fault Refusal :=
  if s.cnv.skewMask ≠ 0 && decide (s.cnv.skewLeft = 0) then
    let chans := idxWhere 256 (fun c => nbit s.cnv.skewMask (c / 16))
    let s1 := freshen (chans.foldl skewChannel s)
    done (raise 158 (complete CNV_SKEW_CMD 0 (setCnv { s1.cnv with skewMask := 0 } s1)))
  else done s

/-- The analog die goes down: REF_READY and CAL_VALID clear, and a skew command in progress ends with ABORTED, its
coefficients kept (R126, R128, R133, R416). -/
def cnvDown (s : State) : State :=
  let s1 := setFlag (setFlag s CNV_STATUS.REF_READY false) CNV_STATUS.CAL_VALID false
  let s2 := setCnv { s1.cnv with okRun := 0, badRun := 0, matched := 0, skewMask := 0, skewLeft := 0 } s1
  let s3 := if isPending s2 CNV_SKEW_CMD then complete CNV_SKEW_CMD 6 s2 else s2
  holdRunning s3

/-- The analog die comes up: with EN = 1 a new epoch starts at the next boundary (R121). -/
def cnvUp (s : State) : State :=
  if flag s CNV_CAL_CTRL.EN && !flag s CNV_STATUS.NO_SPARE then setCnv { s.cnv with startDue := true } s else s

/-! ### Slice correction (R115) and overload (R129) -/

/-- A word of the register space as it stood at the end of the lap that a frame belongs to. -/
def lapWord (s : State) (a : Nat) : Word := tget resetWord s.lapInfo.regs a

/-- The slice that served bank `b` in that lap. -/
def lapSlice (s : State) (b : Nat) : Nat := fget (lapWord s (CNV_MAPk (b / 4))) (b % 4 * 8) 5

/-- Step 1 of R115: the code from the stage outputs, in 2^-12 LSB16. With every stage term zero it is the code they spell. -/
def reconstruct (terms : List Word) (code : Int) : Int :=
  if terms.all (fun w => decide (w = 0)) then code * 4096 else Config.stageRecon code terms

/-- Steps 2 to 4 of R115 as one exact ratio: slice gain (2.30) and offset, hand-over trim (2^-31) and offset, and on odd laps
the even/odd term taken off (2^-24); offsets in 2^-12 LSB16. -/
def correctRatio (x gain ofs trimG trimO eoG eoO : Int) (odd : Bool) : Int × Int :=
  let a := x * gain + ofs * 1073741824
  let b := a * (2147483648 + trimG) + trimO * 1073741824 * 2147483648
  let d : Int := 1073741824 * 2147483648
  if odd then ((b - eoO * d) * 16777216, d * (16777216 + eoG)) else (b, d)

/-- A code of slice `sl` corrected with the coefficients in force in the lap (R115, R116), in 2^-12 LSB16 as a ratio: with the hand-over
trim, and with the even/odd term of a channel. -/
def correctSlice (s : State) (sl : Nat) (trim : Bool) (eo : Option Nat) (code : Int) : Int × Int :=
  let base := CNV_SLICEs_STAGE_GAIN1 sl
  let w := fun (k : Nat) => lapWord s (base + k * 4)
  let t := fun (k : Nat) => if trim then (w k).toInt else 0
  let x := reconstruct ((List.range 12).map w) code
  let e := match eo with | some c => lapWord s (CNV_EOc c) | none => 0
  correctRatio x (w 12).toNat (w 13).toInt (t 14) (t 15) (signed 16 (fget e 16 16)) (signed 16 (fget e 0 16))
    (eo.isSome && decide (s.lapInfo.lap % 2 = 1))

/-- The corrected code of a channel before saturation (R115): rounded to the nearest code, ties to even (log entry 21). -/
def roundedCode (q : Int × Int) : Int := divHalfEven q.1 (q.2 * 4096)

def correctCode (s : State) (c : Nat) (code : Int) : Int := roundedCode (correctSlice s (lapSlice s (c / 16)) true (some c) code)

/-- Saturation of R113. -/
def satCode (x : Int) : Int := clampInt (-32768) 32767 x

/-- The sign inversion of R91, saturating. -/
def invertCode (x : Int) : Int := satCode (-x)

/-! ### What the slices' own conversions give calibration (R112, R123, R125) -/

/-- The residual of slot 16 of a slice in the lap, in 2^-12 LSB16. The trim and the even/odd terms are those of the bank path, which slot
16 does not take. -/
def slot16Residual (s : State) (sl : Nat) (code : Int) : Int :=
  let q := correctSlice s sl false none code
  divHalfEven q.1 q.2 - trackLevel (s.lapInfo.lap % 16) * 4096

/-- The slot-16 residual of one in-service slice enters the present block. -/
def trackTake (s : State) (q : Int × Nat) : State :=
  if roleOf s q.2 = 0 then
    let j := s.lapInfo.lap % 16
    let was := trackOf s q.2 j
    setCnv { s.cnv with track := tput (fun _ => ((0 : Nat), (0 : Int))) s.cnv.track (q.2 * 16 + j) (was.1 + 1, was.2 + slot16Residual s q.2 q.1) } s
  else s

/-- The lap was a lap of the overlap that is still in progress. -/
def overlapLap (s : State) : Bool :=
  decide (fget (lapWord s CNV_CAL_STATUS) 0 3 = 2) && decide (calState s = 2)

/-- A usable pair of an overlap: the outgoing slice's code and the spare's (R123). The spare's code is taken without the trim that it is to
receive. -/
def pairTake (s : State) (q : Int × Int) : State :=
  let p := s.cnv.pairs
  setCnv { s.cnv with pairs := { p with n := p.n + 1, sumO := p.sumO + q.1, sumS := p.sumS + q.2, sumOS := p.sumOS + q.1 * q.2,
                                        sumOO := p.sumOO + q.1 * q.1 } } s

/-- The magnitudes of the slot-16 residuals of both slices in one lap of an overlap. -/
def overlapResiduals (slot16 : List Int) (s : State) : State :=
  let sp := spareOf s
  let out := sliceOf s (targetOf s)
  let r := fun (sl : Nat) => match slot16[sl]? with | some x => (slot16Residual s sl x).natAbs | none => 0
  let p := s.cnv.pairs
  setCnv { s.cnv with pairs := { p with resO := p.resO + r out, resS := p.resS + r sp } } s

end Sys2Proof.Machine
end

