-- ==== Sys2Proof/Machine/Red.lean ====
section
/-!
DEFINITION. Reduction: rates and grids, linearisation and scaling, the Hurdle, tags and sequence numbers, the Catalogue's
commit (spec/05_reduction.md R136 to R165, R468). The consumers of a record stand in Path.lean.
-/
namespace Sys2Proof.Machine
open Sys2Proof

def redChan (s : State) (c : Nat) : RedChan := tget (fun _ => ({ } : RedChan)) s.red.chan c

def setRedChan (c : Nat) (x : RedChan) (s : State) : State :=
  { s with red := { s.red with chan := tput (fun _ => ({ } : RedChan)) s.red.chan c x } }

/-! ### Rates (R139, R140, R143) -/

/-- How a channel's output grid is formed, with its exponent K′ (R139): a base grid of 2^K′ laps, every M laps, or the belt. -/
inductive Rate where
  | pow2 (k : Nat)
  | integer (m k : Nat)
  | grid (k : Nat)
deriving DecidableEq, Repr

/-- ⌈log2 m⌉. -/
def clog2 (m : Nat) : Nat := if 2 ^ Nat.log2 m = m then Nat.log2 m else Nat.log2 m + 1

def rateOf (cat : Tab Word) (c : Nat) : Rate :=
  let k := clampNat 4 20 (cfIn cat c 0x04 25 5)
  let m := clampNat 16 1048576 (cfIn cat c 0x04 0 21)
  match cfIn cat c 0x04 30 2 with
  | 1 => if 2 ^ Nat.log2 m = m then .pow2 (Nat.log2 m) else .integer m (clog2 m)
  | 2 => .grid k
  | _ => .pow2 k

/-- K′. -/
def rateExp (r : Rate) : Nat :=
  match r with
  | .pow2 k => k
  | .integer _ k => k
  | .grid k => k

/-- S₀, the laps that the impulse response of stages 2 to 5 spans; ⌈D⌉ is half of it (R140). -/
def spanBase (k : Nat) : Nat := 6 + 281 * 2 ^ (k - 3)

/-- The group delay D as a line time in 2^-16 ns. -/
def groupDelay (k : Nat) : Nat := (spanBase k - 1) * (lapUnits / 2)

/-- Whether the notch is applied: NOTCH = 1 and K′ ≤ 12 (R145). -/
def notched (cat : Tab Word) (c : Nat) : Bool := decide (cfIn cat c 0x04 24 1 ≠ 0) && decide (rateExp (rateOf cat c) ≤ 12)

/-- The filter span S in laps (R158). -/
def filterSpan (cat : Tab Word) (c : Nat) : Nat :=
  let r := rateOf cat c
  let k := rateExp r
  let n := if notched cat c then 786432 else 0
  match r with
  | .pow2 _ => spanBase k + n
  | _ => spanBase k + n + 7 * 2 ^ k

/-- The block of a record that closes at boundary count `b`, as boundary counts (R140, R158). -/
def blockOf (r : Rate) (b : Nat) : Nat × Nat :=
  match r with
  | .pow2 k => (b + 1 - 2 ^ k, b)
  | .integer _ k => (b + 1 - 5 * 2 ^ k, b - 3 * 2 ^ k)
  | .grid k => (b + 1 - 5 * 2 ^ k, b - 3 * 2 ^ k)

/-- The tag bits that marks give a record closing at boundary count `b` (R158): OVR 7, TAINT 6, SETTLE 5, OPEN 4, CMW 3, STALE 2,
SWAP 0. Channel 256 stands for marks of all channels. -/
def markTag (s : State) (cat : Tab Word) (c b : Nat) : Nat :=
  let sp := filterSpan cat c
  let a := b + 1 - sp
  let bl := blockOf (rateOf cat c) b
  bit (anyMarked s c 2 bl.1 bl.2) * 128 +
    bit (anyMarked s c 0 a b || anyMarked s 256 0 a b) * 64 +
    bit (anyMarked s c 1 a b) * 32 + bit (anyMarked s c 4 bl.1 bl.2) * 16 + bit (anyMarked s c 3 bl.1 bl.2) * 8 +
    bit (allMarked s c 5 bl.1 bl.2) * 4 + bit (anyMarked s c 6 a b)

/-! ### Linearisation and scaling (R147 to R152, R468) -/

/-- The largest finite binary32 as a value. -/
def maxF32 (neg : Bool) : FVal := .fin neg 16777215 104

/-- A binary32 word of the Catalogue as it is used: NaN as +0.0, an infinity as the largest magnitude (R468). -/
def finiteWord (w : Word) : FVal :=
  match f32 w with
  | .nan => .fin false 0 0
  | .inf n => maxF32 n
  | v => v

def catF (cat : Tab Word) (c o : Nat) : FVal := finiteWord (cwIn cat c o)

/-- LSB16 of a range, in volts (R77). -/
def lsb16 (r : Nat) : FVal :=
  dofRat (match r with | 0 => 1024 | 1 => 256 | 2 => 64 | 3 => 16 | 4 => 4 | _ => 2) 3276800

/-- What stage 8 gives: an output, whether OVR is set, or a record value of 0.0 with OVR. -/
inductive Lin where
  | out (v : FVal) (ovr : Bool)
  | dead
deriving DecidableEq, Repr

/-- Hold an output to a domain (R149, R468): beyond it, or infinite, is the domain's end with OVR; no value is 0.0 with OVR. -/
def toDomain (lo hi : FVal) (v : FVal) : Lin :=
  match v with
  | .nan => .dead
  | v => if flt v lo then .out lo true else if flt hi v then .out hi true else .out v false

/-- Domain All: an infinity becomes the largest binary32 magnitude with OVR (R468). -/
def toAll (v : FVal) : Lin :=
  match v with
  | .nan => .dead
  | .inf n => .out (maxF32 n) true
  | v => .out v false

/-- The output domain of the temperature curves, °C (R149). -/
def curveDomain (k : Nat) : Int × Int :=
  match k with
  | 1 => (250, 1820)
  | 2 => (-200, 1000)
  | 3 => (-210, 1200)
  | 4 => (-200, 1372)
  | 5 => (-200, 1300)
  | 6 => (-50, 1768)
  | 7 => (-50, 1768)
  | 8 => (-200, 400)
  | 9 => (-200, 850)
  | 10 => (-60, 180)
  | _ => (-80, 250)

def toCurve (k : Nat) (v : FVal) : Lin := toDomain (fofInt (curveDomain k).1) (fofInt (curveDomain k).2) v

/-- A zero: +0.0 or -0.0. -/
def nonPositive (v : FVal) : Bool := fle v (.fin false 0 0)

/-- Curve 11 (R149). -/
def ntc (p0 p1 p2 rho : FVal) : Lin :=
  if rho.isNan then .dead
  else if nonPositive rho then .out (fofInt 250) true
  else
    let l := logOf rho
    let sum := dadd (dadd p0 (dmul p1 l)) (dmul p2 (dmul (dmul l l) l))
    if sum.isNan then .dead
    else if nonPositive sum then .out (fofInt 250) true
    else toCurve 11 (withCurveError 11 (dsub (ddiv (fofInt 1) sum) (dofRat 27315 100)))

/-- Curves 9 and 10 (R149, R468): `q` is ρ / R_nom. -/
def resistance (k : Nat) (q : FVal) : Lin :=
  match q with
  | .nan => .dead
  | .inf n => toCurve k (.inf n)
  | v => toCurve k (curveInverse k (curveDomain k).1 (curveDomain k).2 (fxOf 192 v))

/-- Curves 1 to 8 (R149, R150): `e` is the voltage with the cold junction's, in V. -/
def thermocouple (k : Nat) (e : FVal) : Lin :=
  match e with
  | .nan => .dead
  | .inf n => toCurve k (.inf n)
  | v => toCurve k (curveInverse k (curveDomain k).1 (curveDomain k).2 (1000 * fxOf 192 v))

/-- Curve 12 (R149). -/
def strain (p0 p1 p2 r : FVal) : Lin :=
  toAll (dadd (dadd (dmul p0 r) (dmul p1 (dmul r r))) (dmul p2 (dmul (dmul r r) r)))

/-- Curve 13 (R149): the domain is that of the current, 3.6 to 21.0 mA. -/
def loop420 (i : FVal) : Lin :=
  match toDomain (dofRat 36 10000) (dofRat 210 10000) i with
  | .out v o => .out (ddiv (dsub v (dofRat 4 1000)) (dofRat 16 1000)) o
  | .dead => .dead

/-- Point `i` of user curve `u` in the curves `cv` (R151). -/
def curveWord (cv : Tab Word) (u o : Nat) : Word := tget (fun _ => (0 : Word)) cv (u * 1024 + o)
def curveX (cv : Tab Word) (u i : Nat) : FVal := f32 (curveWord cv u (0x100 + i * 8))
def curveY (cv : Tab Word) (u i : Nat) : FVal := f32 (curveWord cv u (0x104 + i * 8))
def curvePts (cv : Tab Word) (u : Nat) : Nat := fget (curveWord cv u 0) 0 7

/-- A user curve (R151): linear between neighbouring points, clamped with OVR outside them; 0.0 with OVR where it has never
passed the check. -/
def userCurve (cv : Tab Word) (u : Nat) (x : FVal) : Lin :=
  let n := curvePts cv u
  if n < 2 then .dead
  else
    match x with
    | .nan => .dead
    | x =>
      if flt x (curveX cv u 0) then .out (curveY cv u 0) true
      else if flt (curveX cv u (n - 1)) x then .out (curveY cv u (n - 1)) true
      else
        match firstIdx (n - 1) (fun i => fle x (curveX cv u (i + 1))) with
        | some i =>
          let x0 := curveX cv u i
          let y0 := curveY cv u i
          let t := ddiv (dmul (dsub (curveY cv u (i + 1)) y0) (dsub x x0)) (dsub (curveX cv u (i + 1)) x0)
          .out (dadd y0 t) false
        | none => .out (curveY cv u (n - 1)) false

/-- Stage 8 (R147 to R151) for the input quantity `x`, the sense mean `sn` and the cold junction `tcj` (binary64). -/
def linearise (cv cat : Tab Word) (c : Nat) (x sn tcj : FVal) : Lin :=
  let p := fun (i : Nat) => catF cat c (0x28 + i * 4)
  let ratio := decide (cfIn cat c 0x18 26 1 ≠ 0)
  let k := cfIn cat c 0x18 27 5
  let small := flt (fabs sn) (dofRat 1 1000)
  if 1 ≤ k ∧ k ≤ 8 then
    thermocouple k (dadd x (emfForward k tcj))
  else if k = 9 ∨ k = 10 then
    if small then .dead else resistance k (ddiv (ddiv (dmul (p 1) x) sn) (p 0))
  else if k = 11 then
    if small then .dead else ntc (p 0) (p 1) (p 2) (ddiv (dmul (p 3) x) sn)
  else if k = 12 then
    if small then .dead else strain (p 0) (p 1) (p 2) (ddiv (dmul (fofInt 1000) x) sn)
  else if k = 13 then loop420 (ddiv x (p 0))
  else if 16 ≤ k ∧ k ≤ 23 then
    if ratio then (if small then .dead else userCurve cv (k - 16) (ddiv x sn)) else userCurve cv (k - 16) x
  else
    if ratio then (if small then .dead else toAll (ddiv x sn)) else toAll x

/-- Rounding of R152 to a binary32 word and whether OVR is set. -/
def roundRecord (v : FVal) : Word × Bool :=
  match fround fmt32 v with
  | .nan => (0, true)
  | .inf n => (w32f (maxF32 n), true)
  | .fin n m e => if flt (.fin false m e) (.fin false 1 (-126)) then (0, false) else (w32f (.fin n m e), false)

/-- Stage 9 (R152): GAIN x out + OFFSET in binary64. -/
def scale (cat : Tab Word) (c : Nat) (l : Lin) : Word × Bool :=
  match l with
  | .dead => (0, true)
  | .out v o =>
    let r := roundRecord (dadd (dmul (catF cat c 0x20) v) (catF cat c 0x24))
    (r.1, o || r.2)

/-- The mean of the bank's sign-corrected sense values taken in the 1 024 laps that end at boundary count `b`, in volts
(R148); 0 where none was taken. -/
def senseMean (s : State) (bank b : Nat) : FVal :=
  let l := (tget (fun _ => []) s.red.sense bank).filter (fun q => decide (q.1 ≤ b) && decide (b < q.1 + 1024))
  if l.length = 0 then .fin false 0 0
  else dofRat (l.foldl (fun acc q => acc + q.2) (0 : Int)) (l.length * 256000000)

/-- The cold-junction temperature of CJC_SRC, or `none` where it is failed (R150). -/
def coldJunction (s : State) (cat : Tab Word) (c : Nat) : Option FVal :=
  match cfIn cat c 0x18 24 2 with
  | 0 =>
    match s.twin.cur with
    | some e => if nbit e.ttBad (c / 16) then none else some (dofRat (signed 16 (e.ttemp.getD (c / 16) 0)) 128)
    | none => if flag s (AFE_BANKb_STATUS.TT_FAULT (c / 16)) then none else some (dofRat (sfld s (AFE_BANKb_TTEMP.TEMP (c / 16))) 128)
  | 1 =>
    let r := redChan s (cfIn cat c 0x18 16 8)
    if r.tapTag &&& 0xFC ≠ 0 then none else some (f32 r.tapValue)
  | _ => some (catF cat c 0x1C)

/-- Whether the active entry of channel `c` is compensated, and from its bank's sensor (R150). -/
def compensated (cat : Tab Word) (c : Nat) : Bool :=
  decide (1 ≤ cfIn cat c 0x18 27 5 ∧ cfIn cat c 0x18 27 5 ≤ 8) && decide (cfIn cat c 0x00 31 1 ≠ 0)
def bankCompensated (cat : Tab Word) (c : Nat) : Bool := compensated cat c && decide (cfIn cat c 0x18 24 2 = 0)

/-- RED_CJC_STATUS.FAILED of a bank: a channel is compensated with a value in place of its failed sensor (R150). -/
def judgeCjc (bank : Nat) (s : State) : State :=
  let bad := (List.range 16).any (fun i => bankCompensated s.red.active (bank * 16 + i) && (redChan s (bank * 16 + i)).cjcFb)
  let was := nbit (fld s RED_CJC_STATUS.FAILED) bank
  if bad = was then s else raiseIf bad 162 (setFld s ⟨RED_CJC_STATUS, bank, 1⟩ (bit bad))

/-- The T_cj that a record closing at boundary count `b` uses, and the bookkeeping of a replaced one (R150): CJC_FIXED with CJC_FB = 1,
otherwise the last good value (CJC_FIXED where there has been none, log entry 24). A record of an entry that has been replaced leaves the
state of the new one alone (R20). -/
def useColdJunction (cat : Tab Word) (c b : Nat) (s : State) : FVal × State :=
  let x := redChan s c
  let past := decide (b < x.entryAt)
  match coldJunction s cat c with
  | some t => (t, judgeCjc (c / 16) (setRedChan c { x with cjc := some (n64 t), cjcFb := past && x.cjcFb } s))
  | none =>
    let fixed := catF cat c 0x1C
    let t := if cfIn cat c 0x18 15 1 ≠ 0 then fixed else (match x.cjc with | some n => f64 n | none => fixed)
    let s1 := addSat (setRedChan c { x with cjcFb := !past || x.cjcFb } s) RED_CJC_FALLBACK.COUNT 1
    (t, judgeCjc (c / 16) (raiseIf (!past && !x.cjcFb) 162 s1))

/-! ### Hurdle (R153) -/

/-- The Hurdle's next state, whether an exit (and if so above HIGH) or a re-entry takes place, for a tested value. -/
def hurdleNext (low high hys v : FVal) (st : Nat) : Nat × Option Bool × Bool :=
  let below := flt v low
  let above := flt high v
  let inside := fle (dadd low hys) v && fle v (dsub high hys)
  if st = 2 then (if inside then (1, none, true) else (2, none, false))
  else if below || above then (2, some (!below), false)
  else (1, none, false)

/-- The Hurdle state that a record closing at boundary count `b` meets: INIT, where an entry that took effect by then has returned it there and
no record has been tested since (R20, R153). -/
def hurdleAt (x : RedChan) (b : Nat) : Nat := if x.inits.any (fun i => decide (i ≤ b)) then 0 else x.hurdle

/-- The Hurdle check of a record: the state moves, and an exit or a chosen re-entry posts its event. -/
def hurdle (cat : Tab Word) (c b tag : Nat) (value : Word) (s : State) : Option Bool × State :=
  let en := decide (cfIn cat c 0x70 31 1 ≠ 0)
  let skip := decide (cfIn cat c 0x70 29 1 ≠ 0) && decide (tag &&& 0xFC ≠ 0)
  if en && !skip then
    let x := redChan s c
    let h := hurdleNext (catF cat c 0x74) (catF cat c 0x78) (catF cat c 0x7C) (f32 value) (hurdleAt x b)
    let s1 := setRedChan c { x with hurdle := h.1, inits := x.inits.filter (fun i => decide (b < i)) } s
    let ev := cfIn cat c 0x70 0 8
    let s2 := if h.2.1.isSome || (h.2.2 && decide (cfIn cat c 0x70 30 1 ≠ 0)) then raiseChosen ev s1 else s1
    (h.2.1, s2)
  else (none, s)

/-! ### Forming records (R141, R143, R144, R154 to R156) -/

/-- The grid laps of an INTEGER channel whose records close at block end `n` (R143). -/
def integerLaps (m k n : Nat) : List Nat :=
  let a := n + 1 - 4 * 2 ^ k
  if (n + 1) % 2 ^ k = 0 ∧ 4 * 2 ^ k ≤ n + 1 then
    ((List.range 3).map (fun i => ((a + m - 1) / m + i) * m)).filterMap
      (fun g => if 0 < g ∧ g ≤ a + 2 ^ k - 1 + 0 ∧ a ≤ g then some (g - 1) else none)
  else []

/-- What a record of a channel stands for: its line time, its reference lap, how far its place lies after the block end of base record j,
in 2^-16 ns of lap time (R143), and its grid point, if any. -/
structure Slot where
  time : Nat
  ref : Nat
  frac : Nat := 0
  pos : Option Int := none
deriving DecidableEq, Repr

/-- The records of channel `c` that close with lap `n` (R140, R143, R144, R171). -/
def slotsOf (s : State) (cat : Tab Word) (c n : Nat) : List Slot :=
  match rateOf cat c with
  | .pow2 k => if (n + 1) % 2 ^ k = 0 then [{ time := lapStart n - groupDelay k, ref := n - spanBase k / 2 }] else []
  | .integer m k => (integerLaps m k n).map (fun g =>
      { time := lapStart g - groupDelay k, ref := g - spanBase k / 2, frac := (g + 1) % 2 ^ k * lapUnits })
  | .grid k => ((redChan s c).grid.filter (fun g => decide (g.close ≤ n))).map (fun g =>
      { time := g.time, ref := lapOf g.time, frac := (g.time + groupDelay k + lapUnits) % (2 ^ k * lapUnits), pos := some g.pos })

def chainOf (s : State) (c : Nat) : Chain := tget (fun _ => ({ } : Chain)) s.red.chains c

def setChain (c : Nat) (x : Chain) (s : State) : State :=
  { s with red := { s.red with chains := tput (fun _ => ({ } : Chain)) s.red.chains c x } }

/-- The filtered value of a record closing at boundary count `b`, in LSB16 (R136): its base word, resampled but in POW2. -/
def filteredValue (cat : Tab Word) (c b : Nat) (sl : Slot) (s : State) : FVal :=
  let xs := baseUpTo b (chainOf s c)
  let y := match rateOf cat c with
    | .pow2 _ => xs.headD 0
    | r => farrowOut sl.frac (2 ^ rateExp r * lapUnits : Nat) (xs.take 8)
  dofRat y (2 ^ chainBits)

/-- Form one record of channel `c` that closes at boundary count `b` (stages 2 to 11): the chain's value, its tag and its
sequence number; the tap takes it (R155, R156). -/
def formRec (cv cat : Tab Word) (c b n : Nat) (sl : Slot) (s : State) : Rec × State :=
  let y := filteredValue cat c b sl s
  let r := actingRange (cfIn cat c 0x00 28 3)
  let x := dadd (dmul (dmul y (lsb16 r)) (catF cat c (0x40 + r * 8))) (catF cat c (0x44 + r * 8))
  let k := cfIn cat c 0x18 27 5
  let back := n - lapOf (sl.time + lapUnits / 2 - 1)
  let sn := senseMean s (c / 16) (b - back)
  let q := if 1 ≤ k ∧ k ≤ 8 then useColdJunction cat c b s else (FVal.fin false 0 0, s)
  let v := scale cat c (linearise cv cat c x sn q.1)
  let tag := markTag q.2 cat c b ||| (if v.2 then 128 else 0)
  let h := hurdle cat c b tag v.1 q.2
  let ch := redChan h.2 c
  let rec1 : Rec := { chan := c, seq := ch.seq, tag := tag, value := v.1, ref := sl.ref, close := n, time := sl.time,
                      exit := h.1 }
  let ch1 := { ch with seq := (ch.seq + 1) % 2 ^ 24, tapValue := v.1, tapTag := tag, tapSeq := ch.seq,
                       gridPos := sl.pos.getD ch.gridPos }
  (rec1, setRedChan c ch1 h.2)

/-- Form the listed records in order, collecting them oldest first. -/
def formAll (cv cat : Tab Word) (c b n : Nat) : List Slot → List Rec → State → List Rec × State
  | [], acc, s => (acc, s)
  | sl :: t, acc, s => let q := formRec cv cat c b n sl s; formAll cv cat c b n t (acc ++ [q.1]) q.2

/-- The records of channel `c` with closing lap `n`; none while OUT_EN = 0 (R155). Grid points that close are used up. -/
def formChannel (cv cat : Tab Word) (b n c : Nat) (s : State) : List Rec × State :=
  let slots := slotsOf s cat c n
  let x := redChan s c
  let s1 := if x.grid = [] then s else setRedChan c { x with grid := x.grid.filter (fun g => decide (n < g.close)) } s
  let q := if cfIn cat c 0x00 31 1 ≠ 0 then formAll cv cat c b n slots [] s1 else ([], s1)
  (q.1, setChain c (trimBase b (chainOf q.2 c)) q.2)

/-! ### Laps entering the chain (R136, R142) -/

/-- The code of lap `n`, with boundary count `b`, enters the chain of channel `c`. After a filter reset, and the first time, stages 2 to 7 are
loaded with it. The skew is that of the hub's own conversion; a hub that takes mirrored codes keeps the one that its chain holds (R127,
R381; DEDUCED, log entry 129). -/
def enterChain (cat : Tab Word) (n b freq : Nat) (codes skew : List Int) (s : State) (c : Nat) : State :=
  let k := rateExp (rateOf cat c)
  let x := redChan s c
  let y := chainOf s c
  let y1 := { y with skew := match skew[c]? with | some v => actingSkew v | none => y.skew }
  let code := codes.getD c 0
  let fresh := !y.live || x.resets.any (fun r => decide (r = b))
  let y2 := if fresh then loadChain k n b code y1 else y1
  let s1 := setChain c (chainLap k n b freq (notched cat c) code y2) s
  if x.resets.all (fun r => decide (b < r)) then s1 else setRedChan c { x with resets := x.resets.filter (fun r => decide (b < r)) } s1

/-! ### Grid crossings (R144) -/

/-- i(b): the grid index of a position. -/
def gridIndex (origin stride pos : Int) : Int := (sdiff48 pos origin) / stride

/-- Position and velocity of Tally `n` at the lap-domain boundary before the latest. -/
def tallyBefore (s : State) (n : Nat) : Int × Int := s.tbs.before.getD n (0, 0)

/-- How long after boundary b a Tally that was at `p.1` with velocity `p.2` there, and is at `p1` at the next boundary, crosses the position
`d` beyond `p.1`, in 2^-16 ns: by linear interpolation between the two (R144), in a twin at the velocity of the first (R377). In a twin a
crossing that this puts beyond the lap is held to its end (DEDUCED, log entry 199). -/
def crossAfter (twin : Bool) (p : Int × Int) (p1 d : Int) : Int :=
  if twin ∧ p.2 ≠ 0 then clampInt 0 (lapUnits - 1 : Nat) (d * 1048576000000000 / p.2)
  else d * lapUnits / sdiff48 p1 p.1

/-- The grid of one channel over the lap that ends at the present boundary, which began at line time `t0`. A step of the Tally is no
crossing, and at velocity 0 there is none. -/
def gridChannel (t0 : Nat) (s : State) (c : Nat) : State :=
  match rateOf s.red.active c with
  | .grid k =>
    let tn := catFld s c 0x08 30 2
    let dir := catFld s c 0x08 28 2
    let stride : Int := max 1 (catWord s c 0x0C).toNat
    let origin := signed 48 ((catWord s c 0x10).toNat + catFld s c 0x14 0 16 * 2 ^ 32)
    let p0 := (tallyBefore s tn).1
    let p1 := (dataTally s tn).1
    let i0 := gridIndex origin stride p0
    let i1 := gridIndex origin stride p1
    let x := redChan s c
    let fwd := decide (i0 < i1)
    let takes := if fwd then dir ≠ 1 else dir = 1 ∨ dir = 2
    if i0 = i1 ∨ dataStepped s tn = true ∨ (dataTally s tn).2 = 0 ∨ ¬ takes then
      (if x.waiting then s else setRedChan c { x with waiting := true } s)
    else
      let skipped := (i1 - i0).natAbs - 1
      let i := if fwd then i1 else i1 + 1
      let p := origin + i * stride
      let tx := ((t0 : Int) + crossAfter (flag s TWN_CTRL.EN) (tallyBefore s tn) p1 (sdiff48 p p0)).toNat
      let u := lapOf (tx + groupDelay k)
      let close := (u + 1) / 2 ^ k * 2 ^ k - 1 + 4 * 2 ^ k
      let g : GridPt := { pos := signed 48 (unsignedOf 48 p), time := tx, close := close }
      let s1 := setRedChan c { x with grid := x.grid ++ [g], waiting := false } s
      if skipped = 0 then s1 else raise 163 (addSat s1 RED_GRID_SKIP.COUNT skipped)
  | _ => s

/-! ### The Catalogue's commit (R162) -/

/-- The word offsets of an entry that COMMIT copies. -/
def entryWords : List Nat :=
  [0x00, 0x04, 0x08, 0x0C, 0x10, 0x14, 0x18, 0x1C, 0x20, 0x24, 0x28, 0x2C, 0x30, 0x34, 0x40, 0x44, 0x48, 0x4C, 0x50, 0x54,
   0x58, 0x5C, 0x60, 0x64, 0x68, 0x6C, 0x70, 0x74, 0x78, 0x7C, 0x80]

/-- A filter reset of a channel at the present boundary (R142, R157): a contaminating lap, with whose code stages 2 to 7 are loaded when it
enters them; grid points whose record would close from then on are dropped (log entry 25). -/
def filterReset (c : Nat) (s : State) : State :=
  let x := redChan s c
  mark c 0 s.bnd (setRedChan c { x with grid := x.grid.filter (fun g => decide (g.close < lapD s)), resets := s.bnd :: x.resets } s)

/-- Whether two entries differ in a field: word offset, lowest bit and width. -/
def differ (a b : Tab Word) (c : Nat) (f : Nat × Nat × Nat) : Bool :=
  decide (cfIn a c f.1 f.2.1 f.2.2 ≠ cfIn b c f.1 f.2.1 f.2.2)

/-- The fields whose change resets the filter (R142), and those whose change returns the Hurdle to INIT (R153). -/
def filterFields : List (Nat × Nat × Nat) :=
  [(0x04, 30, 2), (0x04, 25, 5), (0x04, 0, 21), (0x04, 24, 1), (0x08, 30, 2), (0x08, 28, 2), (0x0C, 0, 32), (0x10, 0, 32),
   (0x14, 0, 16)]
def hurdleFields : List (Nat × Nat × Nat) := [(0x70, 31, 1), (0x74, 0, 32), (0x78, 0, 32), (0x7C, 0, 32)]

/-- What a changed entry starts at its boundary: the range and filter window (R84), a contaminating lap (R157), a filter reset
(R142), the end of OPEN (R98), and the Hurdle's INIT (R153). `old` is the active Catalogue before. -/
def entryTakesEffect (old : Tab Word) (c : Nat) (s : State) : State :=
  let new := s.red.active
  let aaf := differ old new c (0x00, 27, 1)
  let rng := decide (actingRange (cfIn old c 0x00 28 3) ≠ rangeOf s c)
  let w := rangeWindow (actingRange (cfIn old c 0x00 28 3)) (rangeOf s c) (decide (cfIn old c 0x00 27 1 ≠ 0)) (aafOf s c)
  let s1 := if aaf || rng then
      (let x := chanOf s c; mark c 0 s.bnd (setChan c { x with stl := max x.stl (w + settleExt s c) } s))
    else s
  let s2 := if filterFields.any (differ old new c) then filterReset c s1 else s1
  let s2 := if (redChan s2 c).cjcFb && (!compensated new c || differ old new c (0x18, 24, 2)) then
      judgeCjc (c / 16) (setRedChan c { redChan s2 c with cjcFb := false } s2)
    else s2
  let s3 := if hurdleFields.any (differ old new c) then setRedChan c { redChan s2 c with inits := s2.bnd :: (redChan s2 c).inits } s2 else s2
  let s3 := setRedChan c { redChan s3 c with entryAt := s3.bnd } s3
  endOpen s3 c

/-- Copy the shadow of entry `c` to the active copy (R162). -/
def commitEntry (s : State) (c : Nat) : State :=
  let put := fun (t : Tab Word) (o : Nat) =>
    tput (fun k => catalogueReset (k % 256)) t (c * 256 + o) (rd s (catAddr c o))
  let old := s.red.active
  entryTakesEffect old c { s with red := { s.red with active := entryWords.foldl put old } }

/-- The address of word `o` of the shadow of user curve `u`. -/
def curveAddr (u o : Nat) : Nat := 0xB0020000 + u * 0x400 + o

/-- The check of a user curve's shadow (R151). -/
def curveGood (s : State) (u : Nat) : Bool :=
  let n := fget (rd s (curveAddr u 0)) 0 7
  let x := fun (i : Nat) => f32 (rd s (curveAddr u (0x100 + i * 8)))
  let y := fun (i : Nat) => f32 (rd s (curveAddr u (0x104 + i * 8)))
  decide (2 ≤ n ∧ n ≤ 64) && (List.range n).all (fun i => (x i).isFin && (y i).isFin) &&
    (List.range (n - 1)).all (fun i => flt (x i) (x (i + 1)))

/-- One written user curve at a COMMIT with CURVES = 1 (R151). -/
def commitCurve (s : State) (u : Nat) : State :=
  if nbit s.red.dirty u then
    let s1 := { s with red := { s.red with dirty := s.red.dirty - 2 ^ u } }
    if curveGood s u then
      let put := fun (t : Tab Word) (i : Nat) => tput (fun _ => (0 : Word)) t (u * 1024 + i * 4) (rd s (curveAddr u (i * 4)))
      let s2 := { s1 with red := { s1.red with curve := (List.range 192).foldl put s1.red.curve } }
      setFld s2 ⟨RED_CURVE_STATUS, u, 1⟩ 1
    else raise 161 (setFlag (setFld s1 ⟨RED_CURVE_STATUS, u, 1⟩ 0) RED_STATUS.CURVE_BAD true)
  else s

/-- RED_COMMIT_MASK as a number with a bit per channel. -/
def commitMask (s : State) : Nat := maskOf s (RED_COMMIT_MASKk 0)

/-- CATALOGUE_COMMIT (R162): accepted, and made at the next boundary. -/
def execCatalogueCommit (curves : Bool) (s : State) : Host.Outcome State Fault Refusal :=
  if isPending s RED_CMD then done (reject RED_CMD 2 s)
  else if commitMask s = 0 ∧ curves = false then done (complete RED_CMD 0 s)
  else done (accept RED_CMD (w32 (bit curves * 16 + 1)) s)

/-- SET_SEQ (R155, R165): allowed while the active OUT_EN of the channel is 0; acts at the next boundary. -/
def execSetSeq (chan : Fin 256) (s : State) : Host.Outcome State Fault Refusal :=
  if isPending s RED_CMD then done (reject RED_CMD 2 s)
  else if outEn s chan then done (refuse RED_CMD s)
  else done (accept RED_CMD (w32 (chan.val * 256 + 2)) s)

/-- The command of RED_CMD at its boundary (R155, R162, R467). -/
def redCmdBoundary (s : State) : State :=
  match dueCmd s RED_CMD with
  | some w =>
    if opOf w = 1 then
      let m := commitMask s
      let s1 := (idxWhere 256 (nbit m)).foldl commitEntry s
      let s2 := if fget w 4 1 ≠ 0 then (List.range 8).foldl commitCurve s1 else s1
      raise 160 (complete RED_CMD 0 s2)
    else
      let c := fget w 8 8
      if outEn s c then s
      else complete RED_CMD 0 (setRedChan c { redChan s c with seq := fld s RED_SEQ_VALUE.SEQ } s)
  | none => s

/-! ### The record buffer (R161) -/

/-- RED_BP (R161): the fill has reached 7/8 or 15/16 of 1 MiB. -/
def execRedBp (ofs : Nat) (s0 : State) : Host.Outcome State Fault Refusal :=
  let s := atOfs ofs s0
  let f := s.red.fill
  let st := fld s RED_STATUS.BP_STAGE
  if 983040 ≤ f ∧ st < 2 then
    done (raise 164 (setFlag (addSat (setFld s RED_STATUS.BP_STAGE 2) RED_BP_COUNT.STAGE2 1) RED_STATUS.BP_SEEN true))
  else if 917504 ≤ f ∧ st < 1 then
    done (raise 164 (setFlag (addSat (setFld s RED_STATUS.BP_STAGE 1) RED_BP_COUNT.STAGE1 1) RED_STATUS.BP_SEEN true))
  else done s

/-- BP_STAGE_EXIT (R161): the fill has fallen below 3/4, and what the DRAM controller deferred is served. -/
def execBpStageExit (ofs : Nat) (s : State) : Host.Outcome State Fault Refusal :=
  let s1 := drainFill (atOfs ofs s)
  if s1.red.fill < 786432 then done (dmcServe (setFld s1 RED_STATUS.BP_STAGE 0)) else done s1

end Sys2Proof.Machine
end

