-- ==== Sys2Proof/Machine/Out.lean ====
section
/-!
DEFINITION. The output pins: TRIG_OUT levels and pulses, the TRIG_BUS drive, AOUT and PWM values in force
(spec/06_acquisition.md R178, spec/07_control.md R211 to R213, spec/14_twin.md R388).
-/
namespace Sys2Proof.Machine
open Sys2Proof

/-- Whether the hub holds the top claim (R388). -/
def holdsTop (s : State) : Bool := flag s TWN_STATUS.TOP

def setOut (x : Outs) (s : State) : State := { s with out := x }

/-- The base level of TRIG_OUT[j]. -/
def trigBase (s : State) (j : Nat) : Bool := tget (fun _ => false) s.out.base j

/-- A level setting (R212). -/
def setTrigBase (j : Nat) (b : Bool) (s : State) : State :=
  setOut { s.out with base := tput (fun _ => false) s.out.base j b, pinSet := s.out.pinSet ||| 2 ^ j } s

/-- The tracked level of TRIG_OUT[j] (R212): that of the pulse started last, or the base level. -/
def trigLevel (s : State) (j : Nat) : Bool :=
  match s.out.pulses.find? (fun p => decide (p.pin = j)) with
  | some p => p.level
  | none => trigBase s j

/-- The level of TRIG_OUT[j] at the ball; none, at high impedance, from a reset until the pin is first set or pulsed (R449), and while the
hub does not hold the top claim. -/
def trigPin (s : State) (j : Nat) : Option Bool :=
  if holdsTop s && nbit s.out.pinSet j && awake s then some (trigLevel s j) else none

/-- Whether pulse `p` counts as started later than `q` (R212). -/
def startedLater (p q : Pulse) : Bool :=
  decide (q.start < p.start) || (decide (q.start = p.start) && decide (q.order ≤ p.order))

/-- Place a pulse among those in progress, latest started first. -/
def insertPulse (p : Pulse) : List Pulse → List Pulse
  | [] => [p]
  | q :: t => if startedLater p q then p :: q :: t else q :: insertPulse p t

/-- Start a pulse of `ns` nanoseconds at the present instant. -/
def startPulse (j : Nat) (level : Bool) (ns order : Nat) (s : State) : State :=
  let p : Pulse := { pin := j, level := level, start := clk s, stop := clk s + ns * unitsPerNs, order := order }
  setOut { s.out with pulses := insertPulse p s.out.pulses, pinSet := s.out.pinSet ||| 2 ^ j } s

/-- TRIG_OUT_PULSE_END (R212): the pulses of pin `j` that have lasted their width end; the pin returns to the level of another
pulse, or to its base level. -/
def execTrigOutPulseEnd (j : Fin 4) (ofs : Nat) (s : State) : Host.Outcome State Fault Refusal :=
  let s0 := atOfs ofs s
  let keep := s0.out.pulses.filter (fun p => !(decide (p.pin = j.val) && decide (p.stop ≤ clk s0)))
  done (setOut { s0.out with pulses := keep } s0)

/-- Ring `r` pulls TRIG_BUS low for PULSE ns (at least 100) while the hub holds the top claim. The falling edge that follows is
caused by every ring that starts driving at this boundary; a drive that starts while the hub already holds the bus low causes none
(R178). The rings that start are noted without the top claim too: a mirrored edge that their twin's drive caused is ignored by them (R378). -/
def driveBus (r : Nat) (s : State) : State :=
  let o := s.out
  let peers := if o.busPeerAt = s.bnd then o.busPeer ++ [r] else [r]
  let s1 := setOut { o with busPeer := peers, busPeerAt := s.bnd } s
  if holdsTop s then
    let stop := clk s + max 100 (fld s ACQ_BUS_CFG.PULSE) * unitsPerNs
    let fresh := decide (o.bus = [])
    let own := if fresh then [r] else if o.busAt = s.bnd then o.busOwn ++ [r] else o.busOwn
    setOut { s1.out with bus := tins (tdrop o.bus r) r stop, busOwn := own, busAt := if fresh then s.bnd else o.busAt,
                         busStart := if fresh then clk s else o.busStart, busStop := if fresh then stop else max o.busStop stop } s1
  else s1

/-- The rings whose drive caused an edge of the bus `delay` before the present instant (R178): the one that follows the start of their
drive, and cannot lie after its end. -/
def edgeOwners (s : State) (delay : Nat) : List Nat :=
  if within s.out.busStart s.out.busStop (clk s - delay) then s.out.busOwn else []

/-- TRIG_BUS_PULSE_END (R178): the drive of ring `r` has lasted its width, and the ring releases the bus. -/
def execTrigBusPulseEnd (r : Fin 64) (ofs : Nat) (s : State) : Host.Outcome State Fault Refusal :=
  let s0 := atOfs ofs s
  if 0 < tget (fun _ => 0) s0.out.bus r ∧ tget (fun _ => 0) s0.out.bus r ≤ clk s0 then
    done (setOut { s0.out with bus := tdrop s0.out.bus r } s0)
  else done s0

/-- The code in force at AOUT `j` (R211). -/
def setAout (j : Nat) (code : Int) (s : State) : State := setInt s (CTL_AOUTj.CODE j) code

/-- The duty in force at PWM `j`. -/
def setPwm (j duty : Nat) (s : State) : State := setFld s (CTL_PWMj_DUTY.DUTY j) duty

/-- Output `j` of kind 0 (AOUT) or 1 (PWM) is set by `f` for the place `place` in the order of R211 (1 a commit of a core, 2 the Start
List, 3 + u unit u), unless a later place has set it at this boundary already: the last of that order stands (R67). -/
def setInOrder (kind j place : Nat) (f : State → State) (s : State) : State :=
  if place < tget (fun _ => 0) s.out.setBy (16 * kind + j) then s
  else f (setOut { s.out with setBy := tput (fun _ => 0) s.out.setBy (16 * kind + j) place } s)

/-- The PERIOD of PWM `j`; 0 acts as 1. -/
def pwmPeriod (s : State) (j : Nat) : Nat := max 1 (fld s (CTL_PWMj_CFG.PERIOD j))

/-- The software writes of the lap before reach their outputs (R211 step 1, R225). -/
def outSoftware (s : State) : State :=
  let s1 := s.out.aout.foldl (fun s q =>
    setAout q.1 (signed 16 (fget q.2 0 16)) (setFld s (CTL_AOUTj.EN q.1) (fget q.2 31 1))) s
  let s2 := s1.out.duty.foldl (fun s q => setPwm q.1 (fget q.2 0 16) s) s1
  setOut { s2.out with aout := [], duty := [] } s2

/-- The level of PWM pin `j` at the present instant, before it is gated by EN and the top claim: high from the period start for
duty × period / 65 536, to the 2.5 ns edge resolution; the level in DIGITAL mode; POL inverts (R210, R213). -/
def pwmLevel (s : State) (j : Nat) : Bool :=
  let raw :=
    if flag s (CTL_PWMj_CFG.DIGITAL j) then nbit (fld s (CTL_PWMj_DUTY.DUTY j)) 0
    else
      let p := pwmPeriod s j
      let at1 := lapD s % p * lapUnits + s.tbs.pacer.ofs
      let high := tget (fun _ => 0) s.out.pwmNow j * p * lapUnits / 65536
      decide (at1 < high / 163840 * 163840)
  raw != flag s (CTL_PWMj_CFG.POL j)

/-- Whether the AOUT and PWM pins are driven (R388). -/
def pinsDriven (s : State) : Bool := flag s TWN_STATUS.PINS

/-- The code at AOUT pin `j`; none where it is high-impedance, as it is while the analog die is off (R416). -/
def aoutPin (s : State) (j : Nat) : Option Int :=
  if pinsDriven s && flag s AFE_STATUS.ANA_UP && flag s (CTL_AOUTj.EN j) then some (sfld s (CTL_AOUTj.CODE j)) else none

/-- The level at PWM pin `j`; none where it is not driven. -/
def pwmPin (s : State) (j : Nat) : Option Bool :=
  if pinsDriven s && awake s && flag s (CTL_PWMj_CFG.EN j) then some (pwmLevel s j) else none

end Sys2Proof.Machine
end

