-- ==== Sys2Proof/Machine/Acq.lean ====
section
/-!
DEFINITION. Acquisition: capture rings, trigger inputs, triggers and folios (spec/06_acquisition.md R166 to R194).
-/
namespace Sys2Proof.Machine
open Sys2Proof

def setAcq (x : Acq) (s : State) : State := { s with acq := x }

def ringOf (s : State) (r : Nat) : Ring := tget (fun _ => ({ } : Ring)) s.acq.ring r

def setRing (r : Nat) (x : Ring) (s : State) : State :=
  { s with acq := { s.acq with ring := tput (fun _ => ({ } : Ring)) s.acq.ring r x } }

/-! ### Configuration and geometry (R166 to R170) -/

/-- A ring's STATE: 0 STOPPED, 1 ARMED, 2 OPEN, 3 POST, 4 REARM (R173). -/
def ringState (s : State) (r : Nat) : Nat := fld s (ACQ_RINGr_STATUS.STATE r)

def isRecordRing (s : State) (r : Nat) : Bool := flag s (ACQ_RINGr_CFG.KIND r)

/-- WINDOW mode; the reserved codes act as TRIGGER. -/
def isWindowRing (s : State) (r : Nat) : Bool := decide (fld s (ACQ_RINGr_CFG.MODE r) = 1)

/-- The members of a ring, in ascending channel number (R166). -/
def members (s : State) (r : Nat) : List Nat := idxWhere 256 (nbit (maskOf s (ACQ_RINGr_MASKk r 0)))

/-- The place of channel `c` among the members. -/
def memberAt (s : State) (r c : Nat) : Option Nat := (members s r).findIdx? (fun x => decide (x = c))

/-- Bytes of a lap row, of a heat row, and of a heat unit with `n` members (R169). -/
def rowBytes (n : Nat) : Nat := 8 * ((n + 3) / 4)
def heatBytes (n : Nat) : Nat := 8 * ((n + 15) / 16)
def unitBytes (n : Nat) : Nat := 64 * rowBytes n + heatBytes n

def ringBase (s : State) (r : Nat) : Nat := (rd s (ACQ_RINGr_BASE r)).toNat
def ringSize (s : State) (r : Nat) : Nat := (rd s (ACQ_RINGr_SIZE r)).toNat

/-- The heat units of a raw ring's region, and its capacity in laps (R169). -/
def heatUnits (s : State) (r : Nat) : Nat := ringSize s r / unitBytes (members s r).length
def rawCapacity (s : State) (r : Nat) : Nat := 64 * heatUnits s r

/-- SHELF, the records in each shelf of a record ring (R170). -/
def shelfSize (s : State) (r : Nat) : Nat := 8 * (ringSize s r / (64 * (members s r).length))

/-- FOLIO_SLOTS; 0 acts as 1, values above 32 as 32. -/
def folioSlots (s : State) (r : Nat) : Nat := clampNat 1 32 (fld s (ACQ_RINGr_FOLIO_SLOTS.COUNT r))

def folioSize (s : State) (r : Nat) : Nat := (rd s (ACQ_RINGr_FOLIO_SIZE r)).toNat

/-- The address of slot `k` (R186). -/
def slotAddr (s : State) (r k : Nat) : Nat := (rd s (ACQ_RINGr_FOLIO_BASE r)).toNat + k * folioSize s r

def roundUp (x m : Nat) : Nat := (x + (m - 1)) / m * m

/-- FOLIO_NEED (R191). -/
def folioNeed (s : State) (r : Nat) : Nat :=
  let n := (members s r).length
  let data :=
    if isRecordRing s r then 0x100 + 32 * n + n * shelfSize s r * 8
    else 0x100 + (rawCapacity s r * rowBytes n + (rawCapacity s r / 64 + 1) * heatBytes n)
  roundUp (roundUp data 64 + 64 * n) 4096

/-- The fitted DRAM in bytes (R29). -/
def dramFitted (s : State) : Nat := if flag s DMC_STATUS.SIZE then 0x80000000 else 0x40000000

/-- The memory class of an eighth of DRAM: 0 Program, 1 Capture, 2 Archive; 3 acts as Program (R363). -/
def classOfEighth (s : State) (k : Nat) : Nat :=
  let c := fget (rd s DMC_CLASS) (2 * k) 2
  if c = 3 then 0 else c

/-- Whether a region lies wholly in usable DRAM of a class (R168, R363). -/
def inClass (s : State) (cls base size : Nat) : Bool :=
  let e := dramFitted s / 8
  decide (base + size ≤ dramTop s) &&
    (List.range 8).all (fun k => decide (base + size ≤ k * e ∨ (k + 1) * e ≤ base) || decide (classOfEighth s k = cls))

/-- Whether two regions share a byte. -/
def overlap (a b : Nat × Nat) : Bool := decide (0 < a.2 ∧ 0 < b.2 ∧ a.1 < b.1 + b.2 ∧ b.1 < a.1 + a.2)

/-- The region and the folio store of a ring. -/
def ringRegions (s : State) (r : Nat) : List (Nat × Nat) :=
  [(ringBase s r, ringSize s r), (slotAddr s r 0, folioSlots s r * folioSize s r)]

/-- The rings that are not STOPPED. -/
def activeRings (s : State) : List Nat := (s.acq.ring.map (fun q => q.1)).filter (fun r => decide (ringState s r ≠ 0))

/-- The raw load (R167). -/
def rawLoad (s : State) : Nat :=
  ((activeRings s).filter (fun r => !isRecordRing s r)).foldl (fun n r => n + (members s r).length) 0

/-- Enter a ring state; ACTIVE and RAW_LOAD follow. -/
def setRingState (r st : Nat) (s : State) : State :=
  let s1 := setFld (setRing r { ringOf s r with since := s.bnd } s) (ACQ_RINGr_STATUS.STATE r) st
  setFld (setFld s1 ACQ_STATUS.RAW_LOAD (rawLoad s1)) ACQ_STATUS.ACTIVE (activeRings s1).length

/-- The latency of a member in laps (R183). -/
def latencyOf (cat : Tab Word) (c : Nat) : Nat :=
  match rateOf cat c with
  | .pow2 k => spanBase k / 2 + 3
  | .integer _ k => spanBase k / 2 + 4 * 2 ^ k + 4
  | .grid k => spanBase k / 2 + 4 * 2 ^ k + 4

def ringLatency (s : State) (r : Nat) : Nat :=
  if isRecordRing s r then (members s r).foldl (fun m c => max m (latencyOf s.red.active c)) 0 else 2

/-! ### Commands (R175) -/

/-- The checks of ARM in their order; `none` passes (R175). -/
def armJudge (s : State) (r : Nat) : Option Nat :=
  let n := (members s r).length
  let stores := folioSlots s r * folioSize s r
  if n = 0 ∨ (isRecordRing s r = false ∧ 32 < n) then some 3
  else if ringSize s r = 0 ∨ inClass s 1 (ringBase s r) (ringSize s r) = false
      ∨ inClass s 2 (slotAddr s r 0) stores = false then some 3
  else if (if isRecordRing s r then decide (shelfSize s r < 8) else decide (heatUnits s r = 0)) then some 3
  else if folioSize s r < folioNeed s r then some 3
  else if isRecordRing s r = false ∧ 256 < rawLoad s + n then some 4
  else none

/-- Whether the ring's regions share a byte with each other, with those of a ring in use or about to be, or with the control trace
(R168, R222). -/
def armOverlaps (s : State) (r : Nat) : Bool :=
  let mine := ringRegions s r
  let trace := (((rd s CTL_TRACE_BASE).toNat, (rd s CTL_TRACE_SIZE).toNat) : Nat × Nat)
  let used := (List.range 64).filter (fun q => decide (q ≠ r) && (decide (ringState s q ≠ 0) || isPending s (ACQ_RINGr_CMD q)))
  let others := trace :: used.flatMap (ringRegions s)
  mine.any (fun a => others.any (overlap a)) || (match mine with | a :: b :: _ => overlap a b | _ => false)

/-- Capacity and FOLIO_NEED are computed when ARM is written (R175, R191); CAPACITY shows C or SHELF. -/
def armCompute (r : Nat) (s : State) : State :=
  let cap := if isRecordRing s r then shelfSize s r else rawCapacity s r
  wr (wr s (ACQ_RINGr_CAPACITY r) (w32 (if (members s r).length = 0 then 0 else cap))) (ACQ_RINGr_FOLIO_NEED r)
    (w32 (folioNeed s r))

/-- ARM (R167 to R170, R175). -/
def execArm (r : Fin 64) (s : State) : Host.Outcome State Fault Refusal :=
  let s1 := armCompute r s
  if isPending s1 (ACQ_RINGr_CMD r) then done (reject (ACQ_RINGr_CMD r) 2 s1)
  else if ringState s1 r ≠ 0 then done (refuse (ACQ_RINGr_CMD r) s1)
  else
    match armJudge s1 r with
    | some code => done (reject (ACQ_RINGr_CMD r) code s1)
    | none => if armOverlaps s1 r then .fault .misuseOverlap else done (accept (ACQ_RINGr_CMD r) 1 s1)

/-- DISARM (R175). -/
def execDisarm (r : Fin 64) (s : State) : Host.Outcome State Fault Refusal :=
  if isPending s (ACQ_RINGr_CMD r) then done (reject (ACQ_RINGr_CMD r) 2 s)
  else if ringState s r = 0 then done (refuse (ACQ_RINGr_CMD r) s)
  else done (accept (ACQ_RINGr_CMD r) 2 s)

/-- RING_TRIGGER_CMD (R175). -/
def execRingTriggerCmd (r : Fin 64) (s : State) : Host.Outcome State Fault Refusal :=
  if isPending s (ACQ_RINGr_CMD r) then done (reject (ACQ_RINGr_CMD r) 2 s)
  else if ringState s r = 0 then done (refuse (ACQ_RINGr_CMD r) s)
  else done (accept (ACQ_RINGr_CMD r) 3 s)

/-- The ring becomes ARMED at the present boundary; writing starts with the lap that begins here (R175, R183). -/
def armNow (r : Nat) (s : State) : State :=
  let x := ringOf s r
  let x1 : Ring := { armLap := lapD s, armBnd := s.bnd, lmax := ringLatency s r, lastSlot := x.lastSlot, serials := x.serials,
                     missed := x.missed, publish := x.publish }
  setRingState r 1 (setRing r x1 s)

/-! ### Trigger inputs (R177, R178) -/

/-- The glitch filter's delay in 2^-16 ns. -/
def filterDelay (f : Nat) : Nat := (match f with | 0 => 0 | 1 => 20 | 2 => 50 | _ => 100) * unitsPerNs

def trigInOf (s : State) (i : Nat) : TrigIn := tget (fun _ => ({ } : TrigIn)) s.acq.inp i

def setTrigIn (i : Nat) (x : TrigIn) (s : State) : State :=
  { s with acq := { s.acq with inp := tput (fun _ => ({ } : TrigIn)) s.acq.inp i x } }

/-- A trigger with a stamp in whole nanoseconds reaches each chosen ring at the boundary of T, or at the next one (R176). -/
def offerStamp (src idx st : Nat) (chosen : Nat → Bool) (s : State) : State :=
  let t := lapAtOrAfter (st * unitsPerNs)
  let reach := s.bnd + max 1 (t - lapD s)
  (idxWhere 64 chosen).foldl (fun s r => offer { ring := r, src := src, stamp := st * unitsPerNs, tlap := t, reach := reach,
                                                 idx := idx } s) s

/-- A selected edge of input `i`, recognised now, `delay` after the edge itself: spacing, hold-off, stamp and the triggers
(R177, R178); `own` marks an edge of the bus that the hub's drive caused (R378). -/
def selectedEdge (i delay hold : Nat) (own : Bool) (chosen : Nat → Bool) (s : State) : State :=
  let x := trigInOf s i
  let at1 := clk s - delay + 1
  let lost := (decide (0 < x.last) && decide (at1 < x.last + 100 * unitsPerNs)) ||
    (decide (0 < x.acc) && decide (at1 < x.acc + hold * lapUnits))
  if lost then setTrigIn i { x with last := at1 } (addSat s ACQ_TRIGIN_LOST.COUNT 1)
  else
    let st := (divHalfEven ((now s : Int) - delay) unitsPerNs).toNat
    let s1 := count 276 1 (setTrigIn i { last := at1, acc := at1, stamp := st } s)
    let l := lapOf (st * unitsPerNs)
    let side := i * 2 ^ 28 + bit own * 2 ^ 27 + (st * unitsPerNs - lapStart l) % 2 ^ 26
    let s2 := if flag s1 TWN_CTRL.EN then { s1 with twin := { s1.twin with sides := ((l, side) :: s1.twin.sides).take 64 } } else s1
    if fromMirror s2 l then s2 else offerStamp (if i = 8 then 2 else 1) (if i = 8 then 0 else i) st chosen s2

/-- TRIG_IN_EDGE (R177): an edge of TRIG_IN[p] to the level `high`, recognised at instant `ofs`, at most its filter delay plus
20 ns (R176) after the edge itself. -/
def execTrigInEdge (p : Fin 8) (ofs delay : Nat) (high : Bool) (s : State) : Host.Outcome State Fault Refusal :=
  whileAwake (fun s =>
    let s0 := atOfs ofs s
    let e := fld s0 (ACQ_TRIGINp_CFG.EDGE p)
    let d := clampNat (filterDelay (fld s0 (ACQ_TRIGINp_CFG.FILT p))) (filterDelay (fld s0 (ACQ_TRIGINp_CFG.FILT p)) + 20 * unitsPerNs)
      delay
    if e = 2 ∨ high = !decide (e = 1) then
      done (selectedEdge p d (fld s0 (ACQ_TRIGINp_CFG.HOLDOFF p)) false
        (fun r => nbit (fld s0 (ACQ_RINGr_SRC.PINS r)) p) s0)
    else done s0) s

/-- TRIG_BUS_EDGE (R178): a falling edge of the bus. The rings whose drive caused it ignore it. -/
def execTrigBusEdge (ofs delay : Nat) (s : State) : Host.Outcome State Fault Refusal :=
  whileAwake (fun s =>
    let s0 := atOfs ofs s
    let d := clampNat (filterDelay (fld s0 ACQ_BUS_CFG.FILT)) (filterDelay (fld s0 ACQ_BUS_CFG.FILT) + 20 * unitsPerNs) delay
    let own := edgeOwners s0 d
    let s1 := selectedEdge 8 d 0 (decide (own ≠ [])) (fun r => flag s0 (ACQ_RINGr_SRC.BUS r) && decide (r ∉ own)) s0
    done (if own = [] then s1 else setOut { s1.out with busOwn := [] } s1)) s

/-! ### The copy into the slot (R187, R188, R191) -/


/-- The address of the row of lap `l` in a raw ring's region (R169). -/
def rowAddr (s : State) (r l : Nat) : Nat :=
  let n := (members s r).length
  ringBase s r + l / 64 % heatUnits s r * unitBytes n + l % 64 * rowBytes n

/-- The flags of the laps from `a` to `b`, OR-ed, four bits a member. -/
def heatOf (x : Ring) (a b : Nat) : Nat :=
  x.flags.foldl (fun m q => if a ≤ q.1 ∧ q.1 ≤ b then m ||| q.2 else m) 0

/-- The bytes of a record (R154), with tag bit 1 set in a forced folio's copies (R188). -/
def recordWord (q : Rec) (forced : Bool) : Nat :=
  q.value.toNat + (if forced then q.tag ||| 2 else q.tag) * 2 ^ 32 + q.seq * 2 ^ 40

/-- Whether the window of a folio, as far as it is known, calls for lap `l`. -/
def Folio.calls (f : Folio) (l : Nat) : Bool :=
  decide (f.first ≤ l) && (match f.last with | some e => decide (l ≤ e) | none => true)

/-- Where the row of lap `l` lies in a raw folio, from DATA_OFFSET on (R191). -/
def folioRowAt (n first l : Nat) : Nat := (l - first) * rowBytes n + (l / 64 - first / 64) * heatBytes n

/-- One lap row of a raw ring is copied into the slot, with the heat row that follows lap 64h + 63. A window longer than the ring has no place
for its first rows until E, when LAST is known for certain. -/
def copyRow (n cap : Nat) (x : Ring) (f : Folio) (l : Nat) (row : List Byte) (s : State) : State :=
  if decide (f.first ≤ l ∧ l < f.first + cap) && f.calls l then
    let a := f.addr + 0x100 + folioRowAt n f.first l
    let s1 := captureWrite a row s
    if l % 64 = 63 then captureWrite (a + rowBytes n) (bytesLE (heatBytes n) (heatOf x (max f.first (l / 64 * 64)) l)) s1 else s1
  else s

/-- The record path reads `n` bytes back from a ring. DEDUCED: as Capture traffic, like the copy that it serves (log entry 203). -/
def captureRead (n a : Nat) (s : State) : List Byte × State := engineRead 0 n a s

/-- Record `k` of member `j`, of `n` members with shelves of `z`, is copied to its place in the block. -/
def copyRecord (n z j k : Nat) (f : Folio) (q : Rec) (s : State) : State :=
  if f.calls q.ref then
    captureStore s 8 (f.addr + 0x100 + 32 * n + (j * z + k % z) * 8) (recordWord q f.forced)
  else s

/-- At the trigger the items of the window that the ring holds already are copied. -/
def copyHeld (r : Nat) (f : Folio) (s : State) : State :=
  let x := ringOf s r
  let n := (members s r).length
  if f.record then
    let z := shelfSize s r
    x.shelves.foldl (fun s q =>
      let c := tget (fun _ => 0) x.count q.1
      q.2.zipIdx.reverse.foldl (fun s p => copyRecord n z q.1 (c - 1 - p.2) f p.1 s) s) s
  else
    x.flags.reverse.foldl (fun s q =>
      let d := captureRead (rowBytes n) (rowAddr s r q.1) s
      copyRow n (rawCapacity s r) x f q.1 d.1 d.2) s

/-! ### Taking a trigger (R179 to R183, R186) -/

/-- The Tallies' positions and velocities at the last lap boundary at or before a stamp (R190). -/
def talliesAt (s : State) (st : Nat) : Nat × List (Int × Int) :=
  let b := st / lapUnits * lapUnits
  match s.acq.tally.find? (fun q => decide (q.1 ≤ b)) with
  | some q => (b, q.2)
  | none => (b, [])

/-- TALLY_POS of the four Tallies at a stamp: P_b + V_b × (stamp − b), in µm, as a number of 48 bits (R189, R190). -/
def tallyStamps (s : State) (st : Nat) : List Int :=
  let q := talliesAt s st
  let dt : Int := (st : Int) - q.1
  (List.range 4).map (fun k =>
    let pv := q.2.getD k (0, 0)
    signed 48 (unsignedOf 48 (pv.1 + divHalfEven (pv.2 * dt) (16000000000 * 65536))))

/-- The first free slot after the last one assigned, wrapping; else the oldest folio's where OVERWRITE = 1 (R186). -/
def chooseSlot (s : State) (r : Nat) : Option (Nat × Bool) :=
  let n := folioSlots s r
  let x := ringOf s r
  let busy := fld s (ACQ_RINGr_SLOTS.BUSY r)
  let from1 := if x.lastSlot < n then x.lastSlot else 0
  match ((List.range n).map (fun i => (from1 + i) % n)).find? (fun k => !nbit busy k) with
  | some k => some (k, false)
  | none =>
    if flag s (ACQ_RINGr_CFG.OVERWRITE r) then
      let next := fld s (ACQ_RINGr_SERIAL.NEXT r)
      let age := fun (k : Nat) => (next + 2 ^ 32 - tget (fun _ => next) x.serials k) % 2 ^ 32
      some ((List.range n).foldl (fun b k => if age b < age k then k else b) 0, true)
    else none

/-- Assign a slot: VALID of a reused one is cleared first, then the slot's bit, the serial and the misses (R186). -/
def assignSlot (r k : Nat) (reuse : Bool) (s : State) : State :=
  let a := slotAddr s r k + 4
  let s1 := if reuse then
      let d := captureRead 4 a s
      captureStore d.2 4 a (ofBytesLE d.1 % 2 ^ 31)
    else s
  let x := ringOf s1 r
  let serial := fld s1 (ACQ_RINGr_SERIAL.NEXT r)
  let x1 := { x with lastSlot := k + 1, serials := tins (tdrop x.serials k) k serial, missed := 0,
                     publish := x.publish.filter (fun f => decide (f.slot ≠ k)) }
  let s2 := setFld (setRing r x1 s1) (ACQ_RINGr_SERIAL.NEXT r) ((serial + 1) % 2 ^ 32)
  setFld s2 ⟨ACQ_RINGr_SLOTS r, k, 1⟩ 1

/-- A miss (R183): counted, logged and posted. Reasons: 1 REARM, 2 NO_SLOT, 3 STRAY. -/
def miss (r reason : Nat) (o : Offer) (s : State) : State :=
  let m := fld s (ACQ_RINGr_MISS_HEAD.NEXT r)
  let a := 0xA0044000 + r * 256 + m * 16
  let st := shortStamp o.stamp
  let s1 := wr s a (w32 (reason * 2 ^ 24 + o.src * 2 ^ 16 + o.idx % 2048))
  let s2 := wr s1 (a + 4) (w32 (st % 65536 * 65536 + fracOf o.stamp))
  let s3 := wr s2 (a + 8) (w32 (st / 65536))
  let s4 := setFld s3 (ACQ_RINGr_MISS_HEAD.NEXT r) ((m + 1) % 16)
  let s5 := if m = 15 then addMod s4 (ACQ_RINGr_MISS_HEAD.WRAPS r) 1 else s4
  let x := ringOf s5 r
  raise 169 (count 277 1 (addSat (setRing r { x with missed := satNat 32 (x.missed + 1) } s5) (ACQ_RINGr_MISSES.COUNT r) 1))

/-- The oldest reference lap that a ring still holds. -/
def oldestHeld (s : State) (r : Nat) : Option Nat :=
  let x := ringOf s r
  if isRecordRing s r then
    let olds := x.shelves.filterMap (fun q => q.2.getLast?.map (fun r => r.ref))
    olds.foldl (fun m v => some (match m with | some u => min u v | none => v)) none
  else x.flags.getLast?.map (fun q => q.1)

/-- The floor F (R180). -/
def floorLap (s : State) (r : Nat) : Nat :=
  let x := ringOf s r
  max x.armLap (max (match x.prevLast with | some l => l + 1 | none => 0) ((oldestHeld s r).getD 0))

/-- The cut of R180 for a raw ring at E: at most C laps, ending at LAST (R185). -/
def cutFolio (s : State) (r : Nat) (f : Folio) : Folio :=
  match f.last with
  | some l =>
    let c := rawCapacity s r
    if isRecordRing s r = false ∧ c < l + 1 - f.first then
      let first := l + 1 - c
      { f with first := first, discarded := first - f.first, wrap := decide (f.t < first), short := f.short || decide (first ≤ f.t) }
    else f
  | none => f

/-- POST of R180, at least 1. -/
def postLaps (s : State) (r : Nat) : Nat := max 1 (fld s (ACQ_RINGr_POST.LAPS r))

/-- The boundary count of the boundary of lap `l`, counted from the present one. -/
def bndOfLap (s : State) (l : Nat) : Nat := s.bnd + l - lapD s

/-- LAST is fixed, and with it E = LAST + Lmax (R182, R183). -/
def closeFolio (s : State) (r last : Nat) (f : Folio) : Folio :=
  { f with last := some last, e := bndOfLap s (last + (ringOf s r).lmax) }

/-- A trigger taken in ARMED, or an open (R180, R182): the window, the slot, the pulses. A trigger without a slot is a miss. -/
def takeTrigger (r : Nat) (o : Offer) (s : State) : State :=
  match chooseSlot s r with
  | none => miss r 2 o s
  | some (k, reuse) =>
    let win := isWindowRing s r
    let fl := floorLap s r
    let t := max o.tlap fl
    let pre := fld s (ACQ_RINGr_PRE.LAPS r)
    let f : Folio := { slot := k, serial := fld s (ACQ_RINGr_SERIAL.NEXT r), t := t, first := max (t - pre) fl, last := none,
                       stamp := o.stamp, src := o.src, idx := o.idx, high := o.high, window := win,
                       forced := decide (o.src = 7), short := decide (o.tlap < fl + pre), misses := (ringOf s r).missed,
                       tallies := tallyStamps s o.stamp, addr := slotAddr s r k, record := isRecordRing s r }
    let f1 := if win then f else closeFolio s r (t + postLaps s r - 1) f
    let s1 := copyHeld r f1 (assignSlot r k reuse s)
    let s2 := setRingState r (if win then 2 else 3) (setRing r { ringOf s1 r with folio := some f1 } s1)
    let s3 := if flag s2 (ACQ_RINGr_OUT.BUS_DRIVE r) then driveBus r s2 else s2
    if flag s3 (ACQ_RINGr_OUT.PIN_EN r) then
      startPulse (fld s3 (ACQ_RINGr_OUT.PIN r)) true (max 20 (fld s3 (ACQ_RINGr_OUT.WIDTH r))) (1 + r) s3
    else s3

/-- A nested trigger (R183): its stamp goes to the header, up to eight; the ninth and later are counted and set
NEST_OVF, and the ninth posts the event (R193). -/
def nestTrigger (r : Nat) (o : Offer) (s : State) : State :=
  let x := ringOf s r
  match x.folio with
  | some f =>
    let f1 := { f with nested := if f.nested.length < 8 then f.nested ++ [o.stamp] else f.nested, nestedN := f.nestedN + 1 }
    let s1 := setRing r { x with folio := some f1 } s
    if f.nestedN < 8 then s1
    else
      let s2 := addSat s1 (ACQ_RINGr_STATUS.NESTED r) 1
      raiseIf (decide (f.nestedN = 8)) 171 (setFlag s2 (ACQ_RINGr_STATUS.NEST_OVF r) true)
  | none => s

/-- A close at lap X (R182). -/
def closeWindow (r : Nat) (o : Offer) (s : State) : State :=
  let x := ringOf s r
  match x.folio with
  | some f =>
    let c := max o.tlap f.t
    let f1 := closeFolio s r (c + postLaps s r - 1) { f with close := c, forced := f.forced || decide (o.src = 7) }
    setRingState r 3 (setRing r { x with folio := some f1 } s)
  | none => s

/-- Whether a trigger closes or opens a window: a SOFTWARE trigger opens in ARMED and closes otherwise; an AUTO close (R175,
R176, R184). -/
def actsAsClose (s : State) (r : Nat) (o : Offer) : Bool :=
  o.closes || (isWindowRing s r && (decide (o.src = 7) || (decide (o.src = 0) && decide (ringState s r ≠ 1))))

/-- Whether a trigger acts on the ring's mode (R176). -/
def actsOn (s : State) (r : Nat) (o : Offer) : Bool :=
  if isWindowRing s r then o.opens || o.closes || decide (o.src = 0) || decide (o.src = 7) else !o.opens && !o.closes

/-- One arrival, handled by the ring's state (R183). -/
def handleTrigger (r : Nat) (s : State) (o : Offer) : State :=
  let st := ringState s r
  if st = 0 || !actsOn s r o then s
  else if actsAsClose s r o then (if st = 2 then closeWindow r o s else miss r 3 o s)
  else if st = 1 then takeTrigger r o s
  else if st = 4 then miss r 1 o s
  else nestTrigger r o s

/-- The order of R179: stamp, source code, index. -/
def earlier (a b : Offer) : Bool :=
  decide (a.stamp < b.stamp) || (decide (a.stamp = b.stamp) && (decide (a.src < b.src) ||
    (decide (a.src = b.src) && decide (a.idx ≤ b.idx))))

def insertOffer (o : Offer) : List Offer → List Offer
  | [] => [o]
  | p :: t => if earlier p o then p :: insertOffer o t else o :: p :: t

/-- The triggers that reach ring `r` at the present boundary, in the order of R179. -/
def arrivals (s : State) (r : Nat) : List Offer :=
  (s.offers.filter (fun o => decide (o.ring = r) && decide (o.reach ≤ s.bnd))).foldl (fun l o => insertOffer o l) []

/-- Every trigger that reaches ring `r` at the present boundary is handled (R179). -/
def handleArrivals (r : Nat) (s : State) : State :=
  let l := arrivals s r
  let s1 := { s with offers := s.offers.filter (fun o => !(decide (o.ring = r) && decide (o.reach ≤ s.bnd))) }
  l.foldl (handleTrigger r) s1

/-! ### Folios (R187 to R192) -/
/-- The data part of a raw folio (R191): lap rows in order, and a heat row after each lap 64h + 63 and after LAST. -/
def rawData (r first last : Nat) (s : State) : List Byte × State :=
  let n := (members s r).length
  let x := ringOf s r
  (List.range (last + 1 - first)).foldl (fun d i =>
    let l := first + i
    let row := captureRead (rowBytes n) (rowAddr s r l) d.2
    (d.1 ++ row.1 ++ (if l % 64 = 63 ∨ l = last then bytesLE (heatBytes n) (heatOf x (max first (l / 64 * 64)) l) else []), row.2)) ([], s)

/-- An item of a reduction (R192): its value, its tag bits, and whether it is unfit. -/
structure Item where
  v : FVal
  tag : Nat
  unfit : Bool
deriving DecidableEq, Repr

/-- The code at an address of a ring. -/
def codeAt (s : State) (a : Nat) : Int := if isMemory s a then signed 16 (ofBytesLE [mseen s a, mseen s (a + 1)]) else 0

/-- The items of member `j` of a raw ring, from lap `a` to lap `b`. -/
def rawItems (s : State) (r j a b : Nat) : List Item :=
  let x := ringOf s r
  (List.range (b + 1 - a)).map (fun i =>
    let l := a + i
    let fl := (x.flags.find? (fun q => decide (q.1 = l))).elim 0 (fun q => q.2 / 16 ^ j % 16)
    let tag := bit (nbit fl 0) * 128 + bit (nbit fl 2) * 32 + bit (nbit fl 1) * 8 + bit (nbit fl 3)
    { v := fofInt (codeAt s (rowAddr s r l + 2 * j)), tag := tag, unfit := decide (fl % 8 ≠ 0) })

/-- The records of member `j` that the folio's window calls for and the shelf holds, oldest first. -/
def heldRecs (x : Ring) (j first last : Nat) : List Rec :=
  ((tget (fun _ => []) x.shelves j).filter (fun q => decide (first ≤ q.ref ∧ q.ref ≤ last))).reverse

/-- A record as an item: every tag but SWAP and FORCED makes it unfit. -/
def itemOf (q : Rec) : Item := { v := f32 q.value, tag := q.tag, unfit := decide (q.tag &&& 0xFC ≠ 0) }

/-- The running sums of a summary (R192). -/
structure Sums where
  count : Nat := 0
  unfit : Nat := 0
  tag : Nat := 0
  first : FVal := .fin false 0 0
  last : FVal := .fin false 0 0
  mn : FVal := .fin false 0 0
  mx : FVal := .fin false 0 0
  sum : FVal := .fin false 0 0
  sq : FVal := .fin false 0 0
deriving DecidableEq, Repr

/-- One item of the span enters the summary. -/
def addItem (skip : Bool) (a : Sums) (i : Item) : Sums :=
  let a1 := { a with tag := a.tag ||| i.tag }
  if skip && i.unfit then { a1 with unfit := a.unfit + 1 }
  else
    let b := if a.count = 0 then { a1 with first := i.v, mn := i.v, mx := i.v } else a1
    { b with last := i.v, mn := if flt i.v b.mn then i.v else b.mn, mx := if flt b.mx i.v then i.v else b.mx,
             sum := dadd b.sum i.v, sq := dadd b.sq (dmul i.v i.v), count := a.count + 1 }

/-- The weight of an item: seconds, or metres on the belt's grid (R192). -/
def itemWeight (s : State) (r c : Nat) : FVal :=
  let lapsS := fun (n : Nat) => ddiv (fofInt n) (fofInt 1024000)
  if isRecordRing s r then
    match rateOf s.red.active c with
    | .pow2 k => lapsS (2 ^ k)
    | .integer m _ => lapsS m
    | .grid _ => dmul (fofInt (max 1 (catWord s c 0x0C).toNat)) (dofRat 1 1000000)
  else dofRat 9765625 10000000000000

/-- The reduction span (R192). -/
def spanOf (s : State) (r : Nat) (f : Folio) : Nat × Nat :=
  let last := f.last.getD 0
  if flag s (ACQ_RINGr_CFG.RSPAN r) then
    (if f.window then (max f.t f.first, f.close) else (max f.t f.first, last + 1))
  else (f.first, last + 1)

/-- The 64 bytes of a member's summary (R192). -/
def summaryBytes (s : State) (r j c : Nat) (f : Folio) : List Byte :=
  let x := ringOf s r
  let sp := spanOf s r f
  let hi := min sp.2 (f.last.getD 0 + 1)
  let items := if sp.1 < hi then
      (if isRecordRing s r then (heldRecs x j sp.1 (hi - 1)).map itemOf else rawItems s r j sp.1 (hi - 1)) else []
  let a := items.foldl (addItem (flag s (ACQ_RINGr_CFG.SKIP_UNFIT r))) { }
  let on := fun (k : Nat) => nbit (fld s (ACQ_RINGr_CFG.REDUCE r)) k
  let w4 := fun (k : Nat) (v : FVal) => bytesLE 4 (if on k then (w32f v).toNat else 0)
  let w8 := fun (k : Nat) (v : FVal) => bytesLE 8 (if on k then n64 v else 0)
  let exits := fun (h : Bool) =>
    satNat 12 (x.exits.filter (fun q => decide (q.1 = c) && decide (sp.1 ≤ q.2.1 ∧ q.2.1 < hi) && q.2.2 == h)).length
  let ex := if on 8 then exits true * 4096 + exits false else 0
  bytesLE 4 a.count ++ bytesLE 4 a.unfit ++ w4 0 a.mn ++ w4 1 a.mx ++ w4 5 a.first ++ w4 6 a.last ++ w4 4 (dsub a.mx a.mn) ++
    bytesLE 4 (a.tag * 2 ^ 24 + ex) ++ w8 2 a.sum ++ w8 3 a.sq ++ w8 7 (dmul a.sum (itemWeight s r c)) ++ bytesLE 8 0

/-- How many records of member `j` were delivered after LAST. -/
def afterLast (x : Ring) (j last : Nat) : Nat :=
  ((tget (fun _ => []) x.shelves j).takeWhile (fun q => decide (last < q.ref))).length

/-- START of member `j`: the index of the oldest of the `n` records held, the k-th record lying at k mod SHELF (R170, R191). -/
def startIndex (s : State) (r j : Nat) (last n : Nat) : Nat :=
  (tget (fun _ => 0) (ringOf s r).count j - afterLast (ringOf s r) j last - n) % shelfSize s r

/-- The table entry of member `j`, channel `c` (R191). -/
def memberEntry (s : State) (r j c first last : Nat) : List Byte :=
  match heldRecs (ringOf s r) j first last with
  | [] => bytesLE 4 0 ++ bytesLE 4 0 ++ bytesLE 4 0 ++ bytesLE 4 c ++ bytesLE 8 0 ++ bytesLE 8 0
  | q :: t =>
    bytesLE 4 q.seq ++ bytesLE 4 (t.length + 1) ++ bytesLE 4 (startIndex s r j last (t.length + 1)) ++ bytesLE 4 c ++
      bytesLE 8 q.ref ++ bytesLE 8 ((q :: t).getLast?.elim 0 (fun z => z.ref))

/-- Write the records of member `j` into its block, from index START on, circularly (R191). -/
def writeBlock (base z : Nat) (forced : Bool) : Nat → List Rec → State → State
  | _, [], s => s
  | i, q :: t, s => writeBlock base z forced ((i + 1) % z) t (captureStore s 8 (base + i * 8) (recordWord q forced))

/-- The records of all members that the window called for but the shelves did not hold (R181): all of them, those before T, and
those at or after T. -/
def lostRecs (x : Ring) (first last t : Nat) : Nat × Nat × Nat :=
  let l := (x.lost.flatMap (fun q => q.2)).filter (fun v => decide (first ≤ v ∧ v ≤ last))
  (l.length, (l.filter (fun v => decide (v < t))).length, (l.filter (fun v => decide (t ≤ v))).length)

/-- The layout of a folio: DATA_OFFSET, DATA_BYTES and SUMMARY_OFFSET (R191). -/
def folioLayout (s : State) (r : Nat) (f : Folio) : Nat × Nat × Nat :=
  let n := (members s r).length
  let last := f.last.getD 0
  let off := if isRecordRing s r then 0x100 + 32 * n else 0x100
  let bytes :=
    if isRecordRing s r then n * shelfSize s r * 8
    else if last < f.first then 0
    else (last + 1 - f.first) * rowBytes n + ((last / 64 + 1) - f.first / 64) * heatBytes n
  (off, bytes, roundUp (off + bytes) 64)

/-- DETAIL of the header: the pin, channel or event number, by source (R189). -/
def detailOf (f : Folio) : Nat := if f.src = 1 ∨ f.src = 4 ∨ f.src = 6 then f.idx % 256 else 0

/-- Word 0x04 of the header, with VALID (R189). -/
def word4 (r : Nat) (f : Folio) : Nat :=
  2 ^ 31 + bit f.record * 2 ^ 30 + bit f.forced * 2 ^ 29 + bit f.wrap * 2 ^ 28 + bit f.short * 2 ^ 27 +
    bit (decide (8 < f.nestedN)) * 2 ^ 26 + bit f.window * 2 ^ 25 + bit f.trunc * 2 ^ 24 + min 255 f.nestedN * 2 ^ 16 + r

/-- The header from word 0x08 on (R189). -/
def headerBytes (s : State) (r : Nat) (f : Folio) : List Byte :=
  let n := (members s r).length
  let lay := folioLayout s r f
  let last := f.last.getD 0
  let nest := (List.range 8).flatMap (fun i =>
    match f.nested[i]? with
    | some st => bytesLE 8 (fracOf st + shortStamp st * 65536)
    | none => bytesLE 8 0)
  bytesLE 4 f.serial ++
    bytesLE 4 (bit f.high * 2 ^ 31 + (if f.src = 3 then f.idx % 2048 else 0) * 2 ^ 16 + detailOf f * 256 + f.src) ++
    bytesLE 8 (nsOf f.stamp) ++ bytesLE 4 (fracOf f.stamp) ++ bytesLE 4 f.misses ++ bytesLE 8 f.t ++ bytesLE 8 f.first ++
    bytesLE 4 (f.t - f.first) ++ bytesLE 4 (last + 1 - f.first) ++ bytesLE 4 f.discarded ++
    bytesLE 4 ((if isRecordRing s r then 8 else rowBytes n) * 65536 + n) ++ bytesLE 4 lay.1 ++ bytesLE 4 lay.2.1 ++
    bytesLE 4 lay.2.2 ++ bytesLE 4 (if f.window then f.close else 0) ++ bytesLE 32 (maskOf s (ACQ_RINGr_MASKk r 0)) ++ nest ++
    bytesLE 4 ((if f.window then f.close / 2 ^ 32 % 65536 else 0) * 65536 + bit (flag s (ACQ_RINGr_CFG.RSPAN r)) * 1024 +
      bit (flag s (ACQ_RINGr_CFG.SKIP_UNFIT r)) * 512 + fld s (ACQ_RINGr_CFG.REDUCE r)) ++ bytesLE 4 0 ++
    (List.range 4).flatMap (fun k => bytesLE 8 (unsignedOf 64 (f.tallies.getD k 0))) ++ bytesLE 40 0

/-- The cut, flags and counts that a folio takes when its items are all held (R180, R181). -/
def judgeFolio (s : State) (r : Nat) (f : Folio) : Folio :=
  if isRecordRing s r then
    let l := lostRecs (ringOf s r) f.first (f.last.getD 0) f.t
    { f with discarded := l.1, short := f.short || decide (0 < l.2.1), wrap := decide (0 < l.2.2) }
  else cutFolio s r f

/-- The data of a folio at E that its copy does not hold: the member table of a record folio, with the records again where a close has set
FORCED (R188); of a raw folio the last heat row, or all of it where the cut of R185 has moved FIRST. -/
def finishData (r : Nat) (f0 f : Folio) (s : State) : State :=
  let lay := folioLayout s r f
  let ms := (members s r).zipIdx
  let n := ms.length
  let last := f.last.getD 0
  let x := ringOf s r
  if f.record then
    let z := shelfSize s r
    let tab := ms.flatMap (fun q => memberEntry s r q.2 q.1 f.first last)
    let s1 := captureWrite (f.addr + 0x100) tab s
    if f.forced then
      ms.foldl (fun s2 q =>
        let rs := heldRecs x q.2 f.first last
        writeBlock (f.addr + lay.1 + q.2 * z * 8) z true (startIndex s r q.2 last rs.length) rs s2) s1
    else s1
  else if f.first ≠ f0.first then
    let d := rawData r f.first last s
    captureWrite (f.addr + lay.1) d.1 d.2
  else if last % 64 ≠ 63 ∧ f.first ≤ last then
    captureWrite (f.addr + 0x100 + folioRowAt n f.first last + rowBytes n)
      (bytesLE (heatBytes n) (heatOf x (max f.first (last / 64 * 64)) last)) s
  else s

/-- At E the folio is written but for word 0x04 (R187): what its copy lacks, the summary block, and the header. -/
def writeFolio (r : Nat) (f0 f : Folio) (s : State) : State :=
  let ms := (members s r).zipIdx
  let s1 := finishData r f0 f s
  let s2 := captureWrite (f.addr + (folioLayout s r f).2.2) (ms.flatMap (fun q => summaryBytes s r q.2 q.1 f)) s1
  captureWrite (f.addr + 8) (headerBytes s r f) (captureStore s2 4 f.addr 0x314C4F46)

/-- Whether the post fill of a ring is complete at the present boundary (R183). -/
def fillDue (s : State) (r : Nat) : Bool :=
  decide (ringState s r = 3) && (match (ringOf s r).folio with | some f => decide (f.e ≤ s.bnd) | none => false)

/-- The event that a ring posts with its folio, where it posts one. -/
def folioEvent (s : State) (r : Nat) : Option Nat :=
  if flag s (ACQ_RINGr_CFG.EVENT_EN r) then some (fld s (ACQ_RINGr_CFG.EVENT r)) else none

/-- The ring when its folio `f` is complete. -/
def ringFilled (f : Folio) (x : Ring) : Ring :=
  { x with folio := none, prevLast := f.last, publish := x.publish ++ [f], rearmEnd := f.e + 4, disarm := false,
           exits := x.exits.filter (fun q => decide (f.last.getD 0 < q.2.1)) }

/-- The folio `f`, which was opened as `f0`, is complete: it is written, and the ring enters REARM, or STOPPED where REPEAT = 0 or a
DISARM runs. -/
def finishFill (r : Nat) (f0 f : Folio) (s : State) : State :=
  let x := ringOf s r
  let again := flag s (ACQ_RINGr_CFG.REPEAT r) && !x.disarm
  let s2 := setRingState r (if again then 4 else 0) (setRing r (ringFilled f x) (writeFolio r f0 f s))
  if x.disarm then complete (ACQ_RINGr_CMD r) 0 s2 else s2

/-- At E (R175, R183, R187). -/
def completeFill (r : Nat) (s : State) : State :=
  match (ringOf s r).folio with
  | some f0 => finishFill r f0 { judgeFolio s r f0 with post := folioEvent s r } s
  | none => s

/-- Whether REARM ends at the present boundary (R183). -/
def rearmDue (s : State) (r : Nat) : Bool := decide (ringState s r = 4) && decide ((ringOf s r).rearmEnd ≤ s.bnd)

/-- A post fill that is complete ends before the ring takes anything that arrives after E. -/
def fillNow (r : Nat) (s : State) : State := if fillDue s r then completeFill r s else s

/-- What time alone makes of a ring by the present boundary: POST completes, REARM ends. -/
def advanceRing (r : Nat) (s : State) : State :=
  let s1 := fillNow r s
  if rearmDue s1 r then setRingState r 1 s1 else s1

/-- POST_FILL_COMPLETE (R183, R187). -/
def execPostFillComplete (r : Fin 64) (s : State) : Host.Outcome State Fault Refusal :=
  done (fillNow r s)

/-- REARM_END (R183). -/
def execRearmEnd (r : Fin 64) (s : State) : Host.Outcome State Fault Refusal :=
  done (if rearmDue s r then setRingState r 1 s else s)

/-- RING_TRIGGER_ARRIVAL (R179): the ring stands as time has left it at this boundary. -/
def execRingTriggerArrival (r : Fin 64) (s : State) : Host.Outcome State Fault Refusal :=
  done (handleArrivals r (advanceRing r s))

/-- ACQ_FORCED (R184): the AUTO count has expired; the trigger or close competes with the other arrivals of the boundary. -/
def execAcqForced (r : Fin 64) (s : State) : Host.Outcome State Fault Refusal :=
  let x := ringOf s r
  if x.auto then
    let o : Offer := { ring := r, src := 7, closes := isWindowRing s r, stamp := timeD s, tlap := lapD s,
                       reach := s.bnd }
    done (handleArrivals r (offer o (raise 170 (setRing r { x with auto := false } s))))
  else done s

/-- ACQ_FOLIO (R187): VALID is the last write of the oldest folio that waits; it comes while the DRAM is not in self-refresh. -/
def execAcqFolio (r : Fin 64) (s : State) : Host.Outcome State Fault Refusal :=
  let x := ringOf s r
  match x.publish with
  | f :: t =>
    if dramMapped s && decide (fld s DMC_STATUS.STATE ≠ 4) then
      let s1 := captureStore (setRing r { x with publish := t } s) 4 (f.addr + 4) (word4 r f)
      let s2 := raise 168 (wr s1 (ACQ_RINGr_LAST r) (w32 (2 ^ 31 + f.slot)))
      done (match f.post with | some e => raiseChosen e s2 | none => s2)
    else done s
  | [] => done s

/-- Whether slot `k` is still being filled (R186). -/
def filling (s : State) (r k : Nat) : Bool :=
  let x := ringOf s r
  x.publish.any (fun f => decide (f.slot = k)) || (match x.folio with | some f => decide (f.slot = k) | none => false)

/-- A write of 1 to bits of ACQ_RINGr_SLOTS frees those slots that are not being filled (R186). -/
def releaseSlots (r : Nat) (w : Word) (s : State) : State :=
  (List.range 32).foldl (fun s k =>
    if nbit w.toNat k && !filling s r k then setFld s ⟨ACQ_RINGr_SLOTS r, k, 1⟩ 0 else s) s

/-- FOLIO_SLOT_RELEASE (R186). -/
def execFolioSlotRelease (r : Fin 64) (bits : Word) (s : State) : Host.Outcome State Fault Refusal :=
  done (releaseSlots r bits s)

/-! ### The boundary -/

/-- A DISARM acts (R175). -/
def disarmNow (r : Nat) (s : State) : State :=
  let st := ringState s r
  let x := ringOf s r
  if st = 2 ∨ st = 3 then
    match x.folio with
    | some f =>
      let last := match f.last with | some l => min l (lapD s - 1) | none => lapD s - 1
      let f1 := closeFolio s r last { f with trunc := true, close := if st = 2 then lapD s else f.close }
      let s1 := setRing r { x with folio := some f1, disarm := true } s
      if st = 2 then setRingState r 3 s1 else s1
    | none => s
  else complete (ACQ_RINGr_CMD r) 0 (setRingState r 0 s)

/-- The command of ring `r` at its boundary; conditions that no longer hold leave it for COMMAND_ABORTED_AT_BOUNDARY (R467). -/
def ringCmdBoundary (s0 : State) (r : Nat) : State :=
  match dueCmd s0 (ACQ_RINGr_CMD r) with
  | some w =>
    if (ringOf s0 r).disarm then s0
    else
      let s := advanceRing r s0
      let st := ringState s r
      if opOf w = 1 then
        (if st = 0 ∧ armJudge s r = none then complete (ACQ_RINGr_CMD r) 0 (armNow r s) else s)
      else if st = 0 then s
      else if opOf w = 2 then disarmNow r s
      else
        let b := timeD s
        complete (ACQ_RINGr_CMD r) 0 (offer { ring := r, src := 0, stamp := b, tlap := lapD s, reach := s.bnd } s)
  | none => s0

/-- Whether the AUTO count of ring `r` expires at the present boundary (R184). -/
def autoDue (s : State) (r : Nat) : Bool :=
  let a := fld s (ACQ_RINGr_AUTO.LAPS r)
  flag s (ACQ_RINGr_SRC.AUTO r) && decide (0 < a) &&
    decide (ringState s r = if isWindowRing s r then 2 else 1) && decide ((ringOf s r).since + a ≤ s.bnd)

/-- Mark an AUTO trigger for the present boundary, and count its laps afresh. -/
def autoBoundary (s : State) (r : Nat) : State :=
  let x := ringOf s r
  if autoDue s r then setRing r { x with auto := true, since := s.bnd } s
  else if x.auto then setRing r { x with auto := false } s
  else s

/-- Acquisition at a lap boundary: the Tallies are noted, the commands act, and the AUTO counts are judged. -/
def acqBoundary (s : State) : State :=
  let s1 := noteTallies s
  let cmds := (s1.accepted.map (fun q => q.1)).filterMap (fun a =>
    if 0xA0041000 ≤ a ∧ a < 0xA0043000 then some ((a - 0xA0041000) / 128) else none)
  let s2 := cmds.foldl ringCmdBoundary s1
  (activeRings s2).foldl autoBoundary s2

/-! ### What a lap and a record bring to the rings (R169 to R172) -/

/-- The codes and flags of a closed lap, of every channel, reach a raw ring: its lap row, and its heat row after lap 64h + 63
(R169, R172), and the copy into the slot of the folio that is being filled (R187). -/
def storeLap (l b : Nat) (code : Nat → Int) (flags : Nat → Nat) (s0 : State) (r : Nat) : State :=
  let s := fillNow r s0
  let x := ringOf s r
  if ringState s r = 0 ∨ isRecordRing s r ∨ b < x.armBnd then s
  else
    let ms := members s r
    let n := ms.length
    let bytes := ms.flatMap (fun c => bytesLE 2 (unsignedOf 16 (code c)))
    let pad := bytesLE (rowBytes n - 2 * n) 0
    let packed := ms.zipIdx.foldl (fun acc q => acc + flags q.1 % 16 * 16 ^ q.2) 0
    let keep := match x.flags with
      | (p, _) :: _ => if p + 1 = l then x.flags.take (rawCapacity s r - 1) else []
      | [] => []
    let x1 := { x with flags := (l, packed) :: keep }
    let s1 := setRing r x1 (captureWrite (rowAddr s r l) (bytes ++ pad) s)
    let s2 := if l % 64 = 63 then
        captureWrite (rowAddr s r (l - 63) + 64 * rowBytes n) (bytesLE (heatBytes n) (heatOf x1 (l - 63) l)) s1
      else s1
    match x.folio with
    | some f => copyRow n (rawCapacity s r) x1 f l (bytes ++ pad) s2
    | none => s2

/-- How many records of member `j` are kept: SHELF, and while a folio fills those after its LAST as well, since the folio's copy
takes each record before the ring overwrites it (R181, R187). -/
def keptRecs (x : Ring) (j z : Nat) (q : Rec) : Nat :=
  match x.folio with
  | some f =>
    (match f.last with
     | some l => z + afterLast x j l + bit (decide (l < q.ref))
     | none => z)
  | none => z

/-- A record enters the shelf of member `j` of a record ring. -/
def storeShelf (q : Rec) (j : Nat) (s : State) (r : Nat) : State :=
  let x := ringOf s r
  let n := keptRecs x j (shelfSize s r) q
  let z := shelfSize s r
  let k := tget (fun _ => 0) x.count j
  let old := tget (fun _ => []) x.shelves j
  let gone := (old.drop (n - 1)).map (fun p => p.ref)
  let x1 := { x with count := tins (tdrop x.count j) j (k + 1),
                     shelves := tins (tdrop x.shelves j) j (q :: old.take (n - 1)),
                     lost := if gone = [] then x.lost
                             else tins (tdrop x.lost j) j (gone ++ tget (fun _ => []) x.lost j) }
  let s1 := setRing r x1 (captureStore s 8 (ringBase s r + (j * z + k % z) * 8) (recordWord q false))
  match x.folio with
  | some f => copyRecord (members s r).length z j k f q s1
  | none => s1

/-- A Hurdle exit in a direction enabled in SRC.HDIR is noted for the summary of a ring that runs, and where HURDLE selects it is offered to the
ring as a trigger: the ring's state at the next boundary decides what becomes of it (R176, R192). -/
def storeExit (q : Rec) (s : State) (r : Nat) : State :=
  match q.exit with
  | none => s
  | some h =>
    if nbit (fld s (ACQ_RINGr_SRC.HDIR r)) (bit h) then
      let y := ringOf s r
      let s1 := if ringState s r = 0 then s else setRing r { y with exits := (q.chan, q.ref, h) :: y.exits } s
      if flag s1 (ACQ_RINGr_SRC.HURDLE r) then
        offer { ring := r, src := 4, stamp := q.time, tlap := q.ref, reach := s1.bnd + 1, idx := q.chan, high := h } s1
      else s1
    else s

/-- A record is delivered to a ring: its slot in the member's shelf, and what the shelf no longer holds (R170, R172). A Hurdle exit
is noted and offered (R176, R192). -/
def storeRecord (q : Rec) (s0 : State) (r : Nat) : State :=
  let s := fillNow r s0
  match memberAt s r q.chan with
  | none => s
  | some j =>
    storeExit q (if decide (ringState s r ≠ 0) && isRecordRing s r then storeShelf q j s r else s) r

end Sys2Proof.Machine
end

