-- ==== Sys2Proof/Machine/Crypto.lean ====
section
/-!
DEFINITION. SHA-256 and the verification of ECDSA over P-256, which the boot ROM uses (spec/16_power_boot.md R424, R425). The
algorithms and the constants are those of FIPS 180-4 and FIPS 186-4, which the spec names and does not repeat (PRESUMED; log entry
105).
-/
namespace Sys2Proof.Machine
open Sys2Proof

/-! ### SHA-256 -/

/-- The whole part of the `k`-th root of `n`, from `r` on, with `b` more bits to find. -/
def rootFrom (k n : Nat) : Nat → Nat → Nat
  | 0, r => r
  | b + 1, r => rootFrom k n b (if (r + 2 ^ b) ^ k ≤ n then r + 2 ^ b else r)

/-- The first 32 bits after the point of the `k`-th root of a number below 2^12. -/
def rootBits (k p : Nat) : Word := w32 (rootFrom k (p * 2 ^ (32 * k)) 44 0)

/-- The primes below 312: the first 64. -/
def primes64 : List Nat := (List.range 312).filter (fun n => decide (2 ≤ n) && (List.range 18).all (fun d => d < 2 || d == n || n % d != 0))

/-- The constants of the rounds: from the cube roots of the first 64 primes (FIPS 180-4, 4.2.2). -/
def shaK : List Word := primes64.map (rootBits 3)

/-- The eight working words at the start: from the square roots of the first 8 primes (FIPS 180-4, 5.3.3). -/
def shaStart : List Word := (primes64.take 8).map (rootBits 2)

/-- A number from bytes, the first the most significant. -/
def ofBytesBE (bs : List Byte) : Nat := bs.foldl (fun n b => n * 256 + b.toNat) 0

/-- `k` bytes of a number, the most significant first. -/
def bytesBE (k n : Nat) : List Byte := (bytesLE k n).reverse

/-- The exclusive or of a word turned right by each of the given counts. -/
def turned (w : Word) (counts : List Nat) : Word := counts.foldl (fun x r => x ^^^ w.rotateRight r) 0

/-- The word that follows the 16 latest of the schedule, the oldest first. -/
def shaNext (w : List Word) : Word :=
  let near := w.getD 14 0
  let far := w.getD 1 0
  w.getD 0 0 + w.getD 9 0 + (turned far [7, 18] ^^^ (far >>> 3)) + (turned near [17, 19] ^^^ (near >>> 10))

/-- The message schedule: `k` more words from the 16 latest. -/
def shaExtend : Nat → List Word → List Word
  | 0, _ => []
  | k + 1, w => shaNext w :: shaExtend k (w.drop 1 ++ [shaNext w])

/-- Bit by bit, `x` where `sel` is 1 and `y` elsewhere. -/
def choose (sel x y : Word) : Word := y ^^^ (sel &&& (x ^^^ y))

/-- Bit by bit, what two or three of the words have: where the first two differ, the third decides. -/
def majority (x y z : Word) : Word := choose (x ^^^ y) z x

/-- One round on the eight working words, with its constant and its schedule word. -/
def shaRound (v : List Word) (kw : Word × Word) : List Word :=
  let x := fun (i : Nat) => v.getD i 0
  let add := kw.1 + kw.2 + x 7 + choose (x 4) (x 5) (x 6) + turned (x 4) [6, 11, 25]
  (add + majority (x 0) (x 1) (x 2) + turned (x 0) [2, 13, 22]) :: (v.take 7).set 3 (x 3 + add)

/-- One block of 64 bytes. -/
def shaBlock (v : List Word) (block : List Byte) : List Word :=
  let w := (List.range 16).map (fun i => w32 (ofBytesBE ((block.drop (4 * i)).take 4)))
  List.zipWith (fun x y => x + y) v ((shaK.zip (w ++ shaExtend 48 w)).foldl shaRound v)

/-- The padded message. -/
def shaPad (m : List Byte) : List Byte :=
  m ++ [0x80] ++ List.replicate ((119 - m.length % 64) % 64) 0 ++ bytesBE 8 (m.length * 8)

/-- Up to `k` blocks. -/
def shaBlocks : Nat → List Word → List Byte → List Word
  | 0, v, _ => v
  | k + 1, v, m => shaBlocks k (shaBlock v (m.take 64)) (m.drop 64)

/-- SHA-256 of a message. -/
def sha256 (m : List Byte) : List Byte :=
  let p := shaPad m
  (shaBlocks (p.length / 64) shaStart p).flatMap (fun w => bytesBE 4 w.toNat)

/-! ### ECDSA over P-256 -/

def p256P : Nat := 0xFFFFFFFF00000001000000000000000000000000FFFFFFFFFFFFFFFFFFFFFFFF
def p256N : Nat := 0xFFFFFFFF00000000FFFFFFFFFFFFFFFFBCE6FAADA7179E84F3B9CAC2FC632551
def p256B : Nat := 0x5AC635D8AA3A93E7B3EBBD55769886BC651D06B0CC53B0F63BCE3C3E27D2604B
def p256G : Nat × Nat :=
  (0x6B17D1F2E12C4247F8BCE6E563A440F277037D812DEB33A0F4A13945D898C296,
   0x4FE342E2FE1A7F9B8EE7EB4A7C0F9E162BCE33576B315ECECBB6406837BF51F5)

/-- `b` to the power `e` modulo `m`, over `k` bits of `e` from the lowest. -/
def powMod (m : Nat) : Nat → Nat → Nat → Nat
  | 0, _, _ => 1 % m
  | k + 1, b, e => (if e % 2 = 1 then b else 1) * powMod m k (b * b % m) (e / 2) % m

/-- The inverse modulo a prime below 2^256. -/
def invMod (m a : Nat) : Nat := powMod m 256 (a % m) (m - 2)

/-- The sum of two points; `none` is the point at infinity. -/
def pointAdd : Option (Nat × Nat) → Option (Nat × Nat) → Option (Nat × Nat)
  | none, q => q
  | p, none => p
  | some (x1, y1), some (x2, y2) =>
    let m := p256P
    if x1 = x2 ∧ (y1 + y2) % m = 0 then none
    else
      let l := if x1 = x2 then (3 * x1 * x1 + (m - 3)) * invMod m (2 * y1) % m
        else (y2 + (m - y1)) * invMod m (x2 + (m - x1)) % m
      let x3 := (l * l + 2 * m - x1 - x2) % m
      some (x3, (l * (x1 + (m - x3)) + (m - y1)) % m)

/-- `k` times a point, over `n` bits of `k` from the lowest. -/
def pointMul : Nat → Nat → Option (Nat × Nat) → Option (Nat × Nat)
  | 0, _, _ => none
  | n + 1, k, p => pointAdd (if k % 2 = 1 then p else none) (pointMul n (k / 2) (pointAdd p p))

/-- Whether a public key is a point of the curve. -/
def onCurve (x y : Nat) : Bool :=
  decide (x < p256P) && decide (y < p256P) && decide (y * y % p256P = (x * x * x + (p256P - 3) * x + p256B) % p256P)

/-- Whether (r, s) is a signature of the digest `e` under the public key (x, y). -/
def ecdsaVerifies (x y r s e : Nat) : Bool :=
  let n := p256N
  if r = 0 ∨ n ≤ r ∨ s = 0 ∨ n ≤ s ∨ !onCurve x y then false
  else
    let w := invMod n s
    match pointAdd (pointMul 256 (e * w % n) (some p256G)) (pointMul 256 (r * w % n) (some (x, y))) with
    | some (x1, _) => decide (x1 % n = r)
    | none => false

end Sys2Proof.Machine
end

