-- ==== Sys2Proof/Machine/Coding.lean ====
section
/-!
DEFINITION. What the lanes send as bits: 64b/66b blocks and their scrambler, the 8b/10b code groups, and the pseudo-random sequences of the
generator and of the checker (spec/10_lanes.md R287, R298; spec/11_woten_line.md R306). The encodings of IEEE 802.3 Clauses 36 and 49, to
which the spec refers, are PRESUMED as that standard has them (log entry 133).
-/
namespace Sys2Proof.Machine
open Sys2Proof

/-! ### 64b/66b (R287, R306) -/

/-- A block before scrambling: whether it is a control block, and its eight payload bytes. -/
abbrev Block := Bool × List Byte

/-- 32 bits through the scrambler 1 + x^39 + x^58, the first sent at bit 0. `st` holds the 58 scrambled bits before them, the oldest at
bit 0. -/
def scramHalf (st w : Nat) : Nat × Nat :=
  let o := (w ^^^ st ^^^ (st / 2 ^ 19)) % 2 ^ 32
  (o, st / 2 ^ 32 + o * 2 ^ 26)

/-- The 64 payload bits of a block through the scrambler. -/
def scramble (st w : Nat) : Nat × Nat :=
  let a := scramHalf st (w % 2 ^ 32)
  let b := scramHalf a.2 (w / 2 ^ 32)
  (a.1 + b.1 * 2 ^ 32, b.2)

/-- The sync header as two bits, the first sent at bit 0: a control block has 0b10, a data block 0b01, read in the order sent. -/
def syncHeader (ctl : Bool) : Nat := if ctl then 1 else 2

/-- The type of the terminate block with `k` data bytes. -/
def endType (k : Nat) : Byte := [0x87#8, 0x99#8, 0xAA#8, 0xB4#8, 0xCC#8, 0xD2#8, 0xE1#8, 0xFF#8].getD k 0xFF#8

/-- The data blocks of a frame and its terminate block, whose idle codes are zeros. -/
def endBlocks : List Byte → List Block
  | a :: b :: c :: d :: e :: f :: g :: h :: t => (false, [a, b, c, d, e, f, g, h]) :: endBlocks t
  | r => [(true, endType r.length :: r ++ List.replicate (7 - r.length) 0)]

/-- The blocks of a frame: a start block of type 0x78 with the first seven bytes, data blocks, and a terminate block (R306). -/
def frameBlocks (bs : List Byte) : List Block := (true, 0x78#8 :: bs.take 7) :: endBlocks (bs.drop 7)

/-- The bits inverted in the block that begins at bit `p` of the lane. -/
def flipMask (flips : List Nat) (p len : Nat) : Nat :=
  (flips.filter (fun q => decide (p ≤ q ∧ q < p + len))).foldl (fun m q => m ^^^ 2 ^ (q - p)) 0

/-- One block as it leaves at bit `p` of the lane, its header and its eight scrambled bytes, and the scrambler after it. -/
def blockBytes (inv : Bool) (flips : List Nat) (st p : Nat) (b : Block) : List Byte × Nat :=
  let q := scramble st (ofBytesLE b.2)
  let w := (syncHeader b.1 + q.1 * 4) ^^^ flipMask flips p 66 ^^^ (if inv then 2 ^ 66 - 1 else 0)
  (bytesLE 1 (w % 4) ++ bytesLE 8 (w / 4), q.2)

/-- A run of blocks that leave from bit `p` of the lane on. -/
def runBytes (inv : Bool) (flips : List Nat) (st p : Nat) (bs : List Block) : List Byte × Nat :=
  let next := fun (x : List (List Byte) × Nat × Nat) (b : Block) =>
    let q := blockBytes inv flips x.2.1 x.2.2 b
    (q.1 :: x.1, q.2, x.2.2 + 66)
  let r := bs.foldl next ([], st, p)
  (r.1.reverse.flatten, r.2.1)

/-! ### 8b/10b (R287) -/

/-- The six bits of EDCBA at negative disparity, the first sent at bit 5. -/
def sixBits : List Nat :=
  [0b100111, 0b011101, 0b101101, 0b110001, 0b110101, 0b101001, 0b011001, 0b111000,
   0b111001, 0b100101, 0b010101, 0b110100, 0b001101, 0b101100, 0b011100, 0b010111,
   0b011011, 0b100011, 0b010011, 0b110010, 0b001011, 0b101010, 0b011010, 0b111010,
   0b110011, 0b100110, 0b010110, 0b110110, 0b001110, 0b101110, 0b011110, 0b101011]

/-- The four bits of HGF at negative disparity, the first sent at bit 3. -/
def fourBits : List Nat := [0b1011, 0b1001, 0b0101, 0b1100, 0b1101, 0b1010, 0b0110, 0b1110]

/-- The number of ones among `k` bits. -/
def onesOf (k w : Nat) : Nat := (List.range k).countP (nbit w)

/-- A sub-block of `k` bits at a running disparity (true: positive), given its form at negative disparity and whether its balanced form
alternates too; and the disparity after it. -/
def subBlock (k w : Nat) (alternates pos : Bool) : Nat × Bool :=
  let even := decide (2 * onesOf k w = k)
  (if pos && (!even || alternates) then 2 ^ k - 1 - w else w, if even then pos else !pos)

/-- The data code group of a byte, the first bit sent at bit 9, and the disparity after it. -/
def dataGroup (pos : Bool) (b : Nat) : Nat × Bool :=
  let x := b % 32
  let y := b / 32
  let six := subBlock 6 (sixBits.getD x 0) (decide (x = 7)) pos
  let alt := decide (y = 7) && (if six.2 then decide (x = 11 ∨ x = 13 ∨ x = 14) else decide (x = 17 ∨ x = 18 ∨ x = 20))
  let four := if alt then subBlock 4 0b0111 false six.2 else subBlock 4 (fourBits.getD y 0) (decide (y = 3)) six.2
  (six.1 * 16 + four.1, four.2)

/-- A special code group from its ten bits at negative disparity. -/
def ctlGroup (pos : Bool) (w : Nat) : Nat × Bool := subBlock 10 w true pos

/-- A run of code groups, each an octet or a special group, as two bytes each with the first bit sent at bit 0. -/
def groupBytes (inv : Bool) (flips : List Nat) (p : Nat) : Bool → List (Nat ⊕ Nat) → List Byte × Bool
  | pos, [] => ([], pos)
  | pos, g :: t =>
    let q := match g with | .inl b => dataGroup pos b | .inr w => ctlGroup pos w
    let w := bitsOf 10 (fun i => nbit q.1 (9 - i)) ^^^ flipMask flips p 10 ^^^ (if inv then 1023 else 0)
    let r := groupBytes inv flips (p + 10) q.2 t
    (bytesLE 2 w ++ r.1, r.2)

/-- The code groups of a frame after its preamble: /S/ in place of the first octet, the rest of the preamble, the frame, /T/ and /R/, and a
second /R/ where the first falls on an even place. -/
def frameGroups (bs : List Byte) : List (Nat ⊕ Nat) :=
  let body : List (Nat ⊕ Nat) := (List.replicate 6 0x55 ++ [0xD5] ++ bs.map (fun (b : Byte) => b.toNat)).map Sum.inl
  let r := [Sum.inr 0b1110101000]
  [Sum.inr 0b1101101000] ++ body ++ [Sum.inr 0b1011101000] ++ r ++ (if bs.length % 2 = 1 then r else [])

/-- The idle block of Clause 49: type 0x1E and eight idle codes (R306). -/
def idleBlock : Block := (true, 0x1E#8 :: List.replicate 7 0)

/-- `k` ordered sets of idle (Clause 36): a comma with D5.6 while the running disparity is positive, which makes it negative, and a comma with D16.2
after that. -/
def idleGroups (pos : Bool) (k : Nat) : List (Nat ⊕ Nat) :=
  (List.range k).flatMap (fun i => [Sum.inr 0b0011111010, Sum.inl (if pos && decide (i = 0) then 0xC5 else 0x50)])

/-- The `k` bits of a number, the highest first. -/
def topBits (k w : Nat) : List Bool := (List.range k).map (fun i => nbit w (k - 1 - i))

/-- The differential Manchester coding of Clause 72 behind the level `prev`: each bit is eight intervals that begin with a change, and a one has
another in the middle. -/
def manchester (prev : Bool) : List Bool → List Bool
  | [] => []
  | b :: t =>
    let h := !prev
    let l := if b then prev else h
    List.replicate 4 h ++ List.replicate 4 l ++ manchester l t

/-! ### Pseudo-random sequences (R298, R300, R221) -/

/-- The second tap of the ITU-T O.150 polynomial of an order. -/
def prbsTap (order : Nat) : Nat := match order with | 9 => 5 | 11 => 9 | 15 => 14 | 23 => 18 | 31 => 28 | _ => 6

/-- One step of the maximal-length sequence: the register holds the latest `order` bits, the newest at bit 0. -/
def prbsStep (order r : Nat) : Nat :=
  (2 * r + bit (nbit r (order - 1) != nbit r (prbsTap order - 1))) % 2 ^ order

/-- All ones. -/
def prbsSeed (order : Nat) : Nat := 2 ^ order - 1

/-- The next `k` bits of a sequence and the register after them. -/
def prbsRun (order : Nat) : Nat → Nat → List Bool × Nat
  | 0, r => ([], r)
  | k + 1, r =>
    let r1 := prbsStep order r
    let q := prbsRun order k r1
    (nbit r1 0 :: q.1, q.2)

/-- Bits as bytes, the first at bit 0; a last byte that they do not fill ends in zeros. -/
def packBits : List Bool → List Byte
  | a :: b :: c :: d :: e :: f :: g :: h :: t =>
    BitVec.ofNat 8 (bit a + 2 * bit b + 4 * bit c + 8 * bit d + 16 * bit e + 32 * bit f + 64 * bit g + 128 * bit h) :: packBits t
  | [] => []
  | r => [BitVec.ofNat 8 (bitsOf 8 (fun i => r.getD i false))]

end Sys2Proof.Machine
end

