-- ==== Sys2Proof/Machine/Ctl.lean ====
section
/-!
DEFINITION. The control engine: ticks, the queue, the loop law, groups, commits, fallback and the test generator
(spec/07_control.md R195 to R226).
-/
namespace Sys2Proof.Machine
open Sys2Proof

def setCtl (x : Ctl) (s : State) : State := { s with ctl := x }

def loopRun (s : State) (n : Nat) : LoopRun := tget (fun _ => ({ } : LoopRun)) s.ctl.run n

def setLoopRun (n : Nat) (x : LoopRun) (s : State) : State :=
  { s with ctl := { s.ctl with run := tput (fun _ => ({ } : LoopRun)) s.ctl.run n x } }

/-! ### Configuration (R225) -/

/-- Word `o` of the active copy of a loop's block; the copies are kept by register address. -/
def loopWord (s : State) (n o : Nat) : Word := tget resetWord s.ctl.active (0xA0061000 + n * 128 + o)

/-- A field of the active copy. -/
def loopFld (s : State) (n o lo w : Nat) : Nat := fget (loopWord s n o) lo w

/-- The words of a snapshot of a loop's block, by offset. -/
def snapWord (t : Tab Word) (o : Nat) : Word := tget (fun o => resetWord (0xA0061000 + o)) t o
def snapFld (t : Tab Word) (o lo w : Nat) : Nat := fget (snapWord t o) lo w
def snapF (t : Tab Word) (o : Nat) : FVal := finiteWord (snapWord t o)

/-- The entries of a table from key `a` on, `n` keys, moved to start at 0. -/
def tslice {α : Type} (t : Tab α) (a n : Nat) : Tab α :=
  (t.filter (fun q => decide (a ≤ q.1 ∧ q.1 < a + n))).map (fun q => (q.1 - a, q.2))

/-- The table without its keys from `a` on, `n` keys. -/
def tcut {α : Type} (t : Tab α) (a n : Nat) : Tab α := t.filter (fun q => !decide (a ≤ q.1 ∧ q.1 < a + n))

/-- The loop's STATE: 0 OFF, 1 RUN, 2 FALLBACK, 3 FAULT (R219). -/
def loopState (s : State) (n : Nat) : Nat := fld s (CTL_LOOPn_STATUS.STATE n)

/-- Enter a loop state; CTL_FAULTED shows loops in FALLBACK or FAULT (R219). -/
def setLoopState (n st : Nat) (s : State) : State :=
  setFld (setFld s (CTL_LOOPn_STATUS.STATE n) st) ⟨CTL_FAULTED, n, 1⟩ (bit (decide (2 ≤ st)))

/-- The enabled members of a group (R207). -/
def groupMembers (s : State) (g : Nat) : List Nat :=
  idxWhere 32 (fun n => decide (loopFld s n 0 31 1 ≠ 0) && decide (loopFld s n 0 25 1 ≠ 0) && decide (loopFld s n 0 22 3 = g))

/-- The members of the unit with index `u`, if there is one (R197): a loop outside a group, or a group by its leader. -/
def unitMembers (s : State) (u : Nat) : List Nat :=
  if loopFld s u 0 31 1 = 0 then []
  else if loopFld s u 0 25 1 = 0 then [u]
  else
    let ms := groupMembers s (loopFld s u 0 22 3)
    if ms.head? = some u then ms else []

/-- CTL_GROUPg_MEMBERS, VALID and LEADER follow the active configuration. -/
def showGroup (s : State) (g : Nat) : State :=
  let ms := groupMembers s g
  let s1 := wr s (CTL_GROUPg_MEMBERS g) (w32 (ms.foldl (fun a n => a + 2 ^ n) 0))
  setFld (setFlag s1 (CTL_GROUPg_STATUS.VALID g) (decide (ms ≠ []))) (CTL_GROUPg_STATUS.LEADER g) (ms.head?.getD 0)

/-- A loop starts (R204, R219): the law's variables are cleared; the last committed value stays, and what the latest evaluation shows. -/
def startLoop (n : Nat) (s : State) : State :=
  let x := loopRun s n
  let s1 := setLoopRun n { a := x.a, tickLap := x.tickLap, u := x.u, fb := x.fb } s
  let s2 := setFld (setFld s1 (CTL_LOOPn_STATUS.CAUSE n) 0) (CTL_LOOPn_STATUS.OVR_RUN n) 0
  setLoopState n 1 (setFlag s2 (CTL_LOOPn_STATUS.ALT_ACTIVE n) false)

/-- A loop is turned OFF: its ticks and its uncommitted outputs are dropped (R219), and it is no longer its group's winner. -/
def stopLoop (n : Nat) (s : State) : State :=
  let x := s.ctl
  let s1 := setCtl { x with queue := x.queue.filter (fun t => decide (t.loop ≠ n)), evals := x.evals.filter (fun e => decide (e.tick.loop ≠ n)) } s
  setLoopState n 0 (setFlag (setFlag s1 (CTL_LOOPn_STATUS.WINNER n) false) (CTL_LOOPn_STATUS.ALT_ACTIVE n) false)

/-- The word offsets of a loop's block that are shadowed. -/
def loopWords : List Nat := [0x00, 0x04, 0x08, 0x0C, 0x14, 0x18, 0x1C, 0x20, 0x24, 0x28, 0x2C, 0x30, 0x34, 0x38, 0x3C, 0x40]

/-- COMMIT copies the shadow of one loop and of its gain tables; EN starts or stops it (R204, R219, R225). -/
def commitLoop (s : State) (n : Nat) : State :=
  let b := 0xA0061000 + n * 128
  let act := loopWords.foldl (fun t o => tput resetWord t (b + o) (rd s (b + o))) s.ctl.active
  let pts := tslice s.regs (0xB0030000 + n * 0x400) 0x300
  let gain := pts.foldl (fun t q => tput (fun _ => (0 : Word)) t (n * 0x400 + q.1) q.2) (tcut s.ctl.gain (n * 0x400) 0x400)
  let s1 := setCtl { s.ctl with active := act, gain := gain } s
  let en := decide (loopFld s1 n 0 31 1 ≠ 0)
  if en && decide (loopState s1 n = 0) then startLoop n s1
  else if !en && decide (loopState s1 n ≠ 0) then stopLoop n s1
  else s1

/-! ### Commands (R219, R220, R225, R226) -/

/-- LOOP_COMMIT_CMD (R225). -/
def execLoopCommitCmd (s : State) : Host.Outcome State Fault Refusal :=
  if isPending s CTL_CMD then done (reject CTL_CMD 2 s) else done (accept CTL_CMD 1 s)

/-- LOOP_RESUME (R219). -/
def execLoopResume (n : Fin 32) (s : State) : Host.Outcome State Fault Refusal :=
  if isPending s CTL_CMD then done (reject CTL_CMD 2 s)
  else if loopState s n < 2 then done (refuse CTL_CMD s)
  else done (accept CTL_CMD (w32 (n.val * 256 + 2)) s)

def testRunning (s : State) : Bool := flag s CTL_TEST_STATUS.RUNNING

/-- TEST_START, judged in the order of R220. -/
def execTestStart (s : State) : Host.Outcome State Fault Refusal :=
  if isPending s CTL_CMD || testRunning s then done (reject CTL_CMD 2 s)
  else if loopState s (fld s CTL_TEST_CFG.LOOP) ≠ 1 then done (refuse CTL_CMD s)
  else if fld s CTL_TEST_CFG.WAVE = 3 ∧ fld s CTL_TEST_TLEN.VALUE = 0 then done (reject CTL_CMD 3 s)
  else done (accept CTL_CMD 3 s)

/-- TEST_STOP (R226). -/
def execTestStop (s : State) : Host.Outcome State Fault Refusal :=
  if isPending s CTL_CMD then done (reject CTL_CMD 2 s)
  else if testRunning s then done (accept CTL_CMD 4 s)
  else done (refuse CTL_CMD s)

/-- The order of the maximal-length sequence (R226). -/
def prbsOrder (o : Nat) : Nat := match o with | 1 => 9 | 2 => 15 | _ => 7

/-- The generator starts at S, seeded with all ones (R220, R221); its settings are those in force at S. -/
def startTest (s : State) : State :=
  let order := prbsOrder (fld s CTL_TEST_CFG.ORDER)
  let g : TestGen := {
    loop := fld s CTL_TEST_CFG.LOOP, point := flag s CTL_TEST_CFG.POINT, wave := fld s CTL_TEST_CFG.WAVE,
    hold := max 1 (fld s CTL_TEST_CFG.HOLD), order := order, amp := finiteWord (rd s CTL_TEST_AMP),
    f0 := finiteWord (rd s CTL_TEST_F0), f1 := finiteWord (rd s CTL_TEST_F1), len := fld s CTL_TEST_LEN.VALUE,
    tlen := min 4096 (fld s CTL_TEST_TLEN.VALUE), start := s.bnd, lfsr := 2 ^ order - 1 }
  wr (setCtl { s.ctl with test := g, trace := none } s) CTL_TEST_STATUS (w32 (2 ^ 31))

/-- The generator stops, and CTL_TEST_END is posted (R221). -/
def stopTest (s : State) : State := raise 177 (setFlag s CTL_TEST_STATUS.RUNNING false)

/-- CTL_TEST_END (R221): LEN ticks have been evaluated. -/
def execCtlTestEnd (s : State) : Host.Outcome State Fault Refusal :=
  let g := s.ctl.test
  if testRunning s && decide (0 < g.len ∧ g.len ≤ g.ticks) then done (stopTest s) else done s

/-- RESUME takes effect: RUN on the primary feedback; the integrator is set at the first tick (R219). -/
def resumeLoop (n : Nat) (s : State) : State :=
  let x := loopRun s n
  let s1 := setLoopRun n { x with resumed := true, altLost := false } s
  let s2 := setFld (setFld s1 (CTL_LOOPn_STATUS.CAUSE n) 0) (CTL_LOOPn_STATUS.OVR_RUN n) 0
  setLoopState n 1 (setFlag s2 (CTL_LOOPn_STATUS.ALT_ACTIVE n) false)

/-! ### Setpoints and outputs written by software (R211, R214, R225) -/

/-- SETPOINT_WRITE (R214): it takes effect at the next lap boundary. -/
def execSetpointWrite (n : Fin 32) (value : Word) (s : State) : Host.Outcome State Fault Refusal :=
  done (setCtl { s.ctl with setpoints := s.ctl.setpoints ++ [(n.val, value)] } s)

/-- Put a setpoint in force. -/
def putSetpoint (n : Nat) (w : Word) (s : State) : State := wr s (CTL_LOOPn_SETPOINT n) w

/-- A write of an output register: what it addresses and when it acts (R211, R225). -/
def outputWrite (a : Nat) (w : Word) (s : State) : State :=
  if 0xA0060200 ≤ a ∧ a < 0xA0060240 then
    setOut { s.out with aout := s.out.aout ++ [((a - 0xA0060200) / 4, w)] } s
  else if 0xA0060240 ≤ a ∧ a < 0xA00602C0 then
    if a % 8 = 4 then setOut { s.out with duty := s.out.duty ++ [((a - 0xA0060240) / 8, w)] } s
    else { s with nextRegs := s.nextRegs ++ [(a, w &&& 0xE000FFFF)] }
  else if 0xA0060400 ≤ a ∧ a < 0xA0060600 then
    if a % 16 = 0 then { s with nextRegs := s.nextRegs ++ [(a, w &&& 0xC3FFFFFF)] }
    else if a % 16 = 4 then { s with nextRegs := s.nextRegs ++ [(a, w &&& 0xFFFF)] }
    else s
  else s

/-- OUTPUT_REGISTER_WRITE (R211): `addr` is the address of a CTL_AOUTj, CTL_PWMj or CTL_DRIVEd word; writes to other addresses are
not this command. -/
def execOutputRegisterWrite (addr : Nat) (value : Word) (s : State) : Host.Outcome State Fault Refusal :=
  done (outputWrite (addr / 4 * 4) value s)

/-- PWM_PERIOD_START (R213): at a boundary whose lap count is a multiple of PERIOD the duty in force is taken over. -/
def execPwmPeriodStart (j : Fin 16) (s : State) : Host.Outcome State Fault Refusal :=
  if lapD s % pwmPeriod s j = 0 ∧ s.tbs.pacer.ofs = 0 then
    done (setOut { s.out with pwmNow := tput (fun _ => 0) s.out.pwmNow j (fld s (CTL_PWMj_DUTY.DUTY j)) } s)
  else done s

/-! ### Ticks (R196 to R201) -/

/-- ⌊sdiff48(position, 0) / TSTRIDE⌋. -/
def strideIndex (pos : Int) (stride : Nat) : Int := sdiff48 pos 0 / (max 1 stride : Nat)

/-- Whether the unit led by loop `u` is due at the present boundary (R196, R207). -/
def tickDue (s : State) (u : Nat) : Bool :=
  match loopFld s u 0 28 3 with
  | 1 =>
    let n := clampNat 16 65536 (loopFld s u 4 0 17)
    decide (lapD s % n = loopFld s u 8 0 16 % n)
  | 2 => nbit s.ctl.slMask u
  | 3 =>
    let t := loopFld s u 0 20 2
    let st := (loopWord s u 0x0C).toNat
    !dataStepped s t &&
      decide (strideIndex (dataTally s t).1 st ≠ strideIndex (tallyBefore s t).1 st)
  | _ => false

/-- The tap of a channel as the hold cells show it (R21, R156). -/
def tapOf (s : State) (c : Nat) : Tap :=
  let x := redChan s c
  { value := x.tapValue, tag := x.tapTag, seq := x.tapSeq }

/-- The snapshots of loop `n` at its tick boundary (R199). -/
def snapTick (s : State) (u n : Nat) : Tick :=
  { loop := n, unit := u, bnd := s.bnd, lap := lapD s, fb := tapOf s (loopFld s n 0 0 8), alt := tapOf s (loopFld s n 0x30 16 8),
    sp := rd s (CTL_LOOPn_SETPOINT n), cfg := tslice s.ctl.active (0xA0061000 + n * 128) 128,
    gain := tslice s.ctl.gain (n * 0x400) 0x400 }

/-- One member's part of an overrun (R200, R219). -/
def overrunMember (s : State) (n : Nat) : State :=
  let run := min 15 (fld s (CTL_LOOPn_STATUS.OVR_RUN n) + 1)
  let s1 := setFld (addSat (setFlag s (CTL_LOOPn_STATUS.OVERRUN n) true) (CTL_LOOPn_STATUS.OVERRUNS n) 1)
    (CTL_LOOPn_STATUS.OVR_RUN n) run
  let s2 := raise 172 (setFld s1 ⟨CTL_OVR_STICKY, n, 1⟩ 1)
  if max 1 (loopFld s2 n 0x30 24 4) ≤ run ∧ (loopState s2 n = 1 ∨ loopState s2 n = 2) then
    raise 173 (setLoopState n 3 s2)
  else s2

/-- Place ticks of one boundary behind every tick queued earlier, in ascending unit index (R197). -/
def enqueue (ts : List Tick) (u b : Nat) (q : List Tick) : List Tick :=
  q.takeWhile (fun t => decide (t.bnd < b) || decide (t.unit < u)) ++ ts ++
    q.dropWhile (fun t => decide (t.bnd < b) || decide (t.unit < u))

/-- Evaluations queued, and the deepest queue since the last read. -/
def showQueue (s : State) : State :=
  let d := min 255 s.ctl.queue.length
  let s1 := setFld s CTL_STATUS.QUEUE d
  if fld s1 CTL_STATUS.PEAK < d then setFld s1 CTL_STATUS.PEAK d else s1

/-- The evaluations and ticks of one unit at one tick boundary. -/
def sameUnit (a b : Tick) : Bool := decide (a.unit = b.unit ∧ a.bnd = b.bnd)

/-- LOOP_TICK (R196 to R200): the unit `u` is due at the present boundary, once. An earlier tick of the unit of which no member has been evaluated is
still waiting, and is removed. -/
def execLoopTick (u : Fin 32) (s : State) : Host.Outcome State Fault Refusal :=
  let ms := unitMembers s u
  if flag s CTL_CTRL.EN && decide (ms ≠ []) && tickDue s u && decide ((loopRun s u).tickBnd ≠ s.bnd + 1) then
    let begun := fun (t : Tick) => s.ctl.evals.any (fun e => sameUnit e.tick t)
    let late := fun (t : Tick) => decide (t.unit = u.val) && !begun t
    let s1 := if s.ctl.queue.any late then
        ms.foldl overrunMember (setCtl { s.ctl with queue := s.ctl.queue.filter (fun t => !late t) } s)
      else s
    let s2 := setLoopRun u { loopRun s1 u with tickBnd := s1.bnd + 1 } s1
    let ts := ms.map (snapTick s2 u)
    let s3 := setCtl { s2.ctl with queue := enqueue ts u s2.bnd s2.ctl.queue } s2
    let g := s3.ctl.test
    let first := testRunning s3 && !g.posted && decide (g.loop ∈ ms)
    let s4 := if first then raiseChosen (fld s3 CTL_TEST_EVENT.EVENT) (setCtl { s3.ctl with test := { g with posted := true } } s3)
      else s3
    done (showQueue s4)
  else done s

/-! ### The law (R202 to R206) -/

/-- min and max as R202 uses them. -/
def dmin (a b : FVal) : FVal := if flt b a then b else a
def dmax (a b : FVal) : FVal := if flt a b then b else a

/-- 0.0 of binary64. -/
def dzero : FVal := .fin false 0 0

/-- Point `i` of gain table `t` of a snapshot (R203). -/
def gainPoint (g : Tab Word) (t i : Nat) : FVal := finiteWord (tget (fun _ => (0 : Word)) g (t * 0x100 + i * 4))

/-- E_SPAN; 0 or less acts as the smallest positive binary32 (R203). -/
def eSpan (cfg : Tab Word) : FVal :=
  let e := snapF cfg 0x20
  if flt dzero e then e else .fin false 1 (-149)

/-- lookup(t, e) of R203. -/
def gainLookup (cfg g : Tab Word) (t : Nat) (e : FVal) : FVal :=
  let sp := eSpan cfg
  let x := ddiv (dmul (dadd e sp) (fofInt 63)) (dmul (fofInt 2) sp)
  let x1 := dmin (dmax x dzero) (fofInt 63)
  let i := ((ffloor x1).getD 0).toNat
  if 63 ≤ i then gainPoint g t 63
  else
    let f := dsub x1 (fofInt i)
    dadd (gainPoint g t i) (dmul f (dsub (gainPoint g t (i + 1)) (gainPoint g t i)))

/-- Laps as seconds in binary64. -/
def lapSeconds (n : Nat) : FVal := dmul (fofInt n) (dofRat 9765625 10000000000000)

/-- f_k of the chirp (R221); with LEN = 0 it stays at F0 (log entry 43). -/
def chirpFreq (g : TestGen) (k : Nat) : FVal :=
  if g.len = 0 then g.f0 else dadd g.f0 (ddiv (dmul (dsub g.f1 g.f0) (fofInt k)) (fofInt g.len))

/-- The test signal of test tick k, whose dt is `dt`, and the generator after it (R221). -/
def testSignal (s : State) (g : TestGen) (dt : FVal) : FVal × TestGen :=
  let k := g.ticks
  let g1 := { g with ticks := k + 1 }
  match g.wave with
  | 0 => (g.amp, g1)
  | 1 =>
    let ph := if k = 0 then dzero else dadd g.phase (dmul (chirpFreq g (k - 1)) dt)
    (dmul g.amp (sineOf ph), { g1 with phase := ph })
  | 2 =>
    let adv := decide (g.hold ≤ g.held)
    let r := if adv then prbsStep g.order g.lfsr else g.lfsr
    (if nbit r (g.order - 1) == Config.onePositive then g.amp else fneg g.amp,
      { g1 with lfsr := r, held := if adv then 1 else g.held + 1 })
  | _ => (dmul g.amp (finiteWord (rd s (CTL_TESTTAB (k % max 1 g.tlen)))), g1)

/-- What a loop's evaluation uses for its feedback checks: cause 1 Signal, 2 Silence, 3 Freeze, 0 none (R217). -/
def checkFeedback (cfg : Tab Word) (a : FVal) (x : Check) (fb : Tap) : Nat × Check :=
  let v := f32 fb.value
  let fresh := match x.seqs with | q :: _ => decide (q ≠ fb.seq) | [] => true
  let silent := match x.seqs with | [p, q] => decide (2 ≤ x.ticks) && decide (p = fb.seq) && decide (q = fb.seq) | _ => false
  let n := snapFld cfg 0x30 0 16
  let restart := decide (x.frozen = 0) || !fresh || flt (snapF cfg 0x3C) (fabs (dsub v x.frFb))
  let x1 := { x with ticks := x.ticks + 1, seqs := fb.seq :: x.seqs.take 1,
                     frozen := if n = 0 then 0 else if restart then 1 else x.frozen + 1,
                     frFb := if restart then v else x.frFb, frA := if restart then a else x.frA }
  let frozen := decide (0 < n) && decide (n ≤ x1.frozen) && flt (snapF cfg 0x40) (fabs (dsub a x1.frA))
  let lost := decide (fb.tag &&& 0x18 ≠ 0)
  (if lost then 1 else if silent then 2 else if frozen then 3 else 0, x1)

/-- The loop's feedback is lost (R218). -/
def loseFeedback (n cause : Nat) (s : State) : State :=
  let x := loopRun s n
  let s1 := setLoopRun n { x with altLost := false, altChk := { } } s
  let s2 := setFlag (setFld s1 (CTL_LOOPn_STATUS.CAUSE n) cause) (CTL_LOOPn_STATUS.FB_LOST n) true
  raise 174 (setLoopState n 2 s2)

/-- The action of a loop that does not run its law on the primary feedback: 0 HOLD, 1 RAMP, 2 ALT, 3 OPEN (R218, R219, R386). -/
def fallbackAction (s : State) (n : Nat) (cfg : Tab Word) : Nat :=
  let f := snapFld cfg 0x30 28 4
  let f1 := if 4 ≤ f then 0 else f
  if loopState s n = 3 then (if flag s TWN_STATUS.SAFE then 1 else if f1 = 2 then 0 else f1)
  else if f1 = 2 ∧ (loopRun s n).altLost then 1
  else f1

/-- The law of R202 up to u, on feedback `fb`; the integrator is not yet moved. After RESUME it is first set so that u_raw equals
the last committed a (R219). -/
def runLaw (t : Tick) (fb : Tap) (injSp injOut dt : FVal) (test : Bool) (s : State) : Eval × State :=
  let n := t.loop
  let x := loopRun s n
  let v := f32 fb.value
  let sp := dadd (finiteWord t.sp) injSp
  let e := dsub sp v
  let kp := gainLookup t.cfg t.gain 0 e
  let ki := gainLookup t.cfg t.gain 1 e
  let kd := gainLookup t.cfg t.gain 2 e
  let raw := if flt dzero dt then ddiv (fneg (dsub v x.fbPrev)) dt else dzero
  let al := dofRat (snapFld t.cfg 0x2C 0 8) 256
  let df := dadd (dmul al x.df) (dmul (dsub (fofInt 1) al) raw)
  let sumWith := fun (i : FVal) => dadd (dadd (dadd (dadd (snapF t.cfg 0x14) (dmul kp e)) i) (dmul kd df)) injOut
  let integ := if x.resumed then dsub (f32 x.a) (sumWith dzero) else x.integ
  let uraw := sumWith integ
  let u := dmin (dmax uraw (snapF t.cfg 0x18)) (snapF t.cfg 0x1C)
  let x1 := { x with integ := integ, df := df, fbPrev := v, resumed := false }
  ({ tick := t, u := u, uraw := uraw, di := dmul (dmul ki e) dt, dt := dt, law := true, forced := test, fb := fb, sp := sp,
     sig := dadd injSp injOut, test := test }, setLoopRun n x1 s)

/-- A loop in FALLBACK or FAULT outside ALT (R218, R219). -/
def runFallback (act : Nat) (t : Tick) (injSp injOut dt : FVal) (test : Bool) (s : State) : Eval × State :=
  let n := t.loop
  let x := loopRun s n
  let a := f32 x.a
  let u :=
    if act = 1 then
      let step := dmax dzero (dmul (snapF t.cfg 0x38) dt)
      let d := dsub (snapF t.cfg 0x34) a
      dadd a (dmax (fneg step) (dmin step d))
    else if act = 3 then dmin (dmax (snapF t.cfg 0x14) (snapF t.cfg 0x18)) (snapF t.cfg 0x1C)
    else a
  ({ tick := t, u := u, uraw := u, di := dzero, dt := dt, law := false, forced := true, fb := t.fb,
     sp := dadd (finiteWord t.sp) injSp, sig := dadd injSp injOut, test := test }, if act = 3 then setLoopRun n { x with integ := dzero } s else s)

/-- The feedback checks of a tick in RUN (R217, R218). -/
def judgePrimary (t : Tick) (s : State) : State :=
  if loopState s t.loop = 1 then
    let x := loopRun s t.loop
    let c := checkFeedback t.cfg (f32 x.a) x.chk t.fb
    let s1 := setLoopRun t.loop { x with chk := c.2 } s
    if c.1 = 0 then s1 else loseFeedback t.loop c.1 s1
  else s

/-- The checks of the alternate tap in FALLBACK with ALT (R218). -/
def judgeAlternate (t : Tick) (s : State) : State :=
  if loopState s t.loop = 2 ∧ fallbackAction s t.loop t.cfg = 2 then
    let x := loopRun s t.loop
    let c := checkFeedback t.cfg (f32 x.a) x.altChk t.alt
    setLoopRun t.loop { x with altChk := c.2, altLost := decide (c.1 ≠ 0) } s
  else s

/-- The evaluation of one tick (R202, R216 to R221). -/
def evaluate (t : Tick) (s : State) : Eval × State :=
  let n := t.loop
  let dt := match (loopRun s n).prev with | some b => lapSeconds (t.bnd - b) | none => dzero
  let g := s.ctl.test
  let test := testRunning s && decide (g.loop = n) && decide (g.start ≤ t.bnd) && (decide (g.len = 0) || decide (g.ticks < g.len))
  let sg := testSignal s g dt
  let s1 := if test then setFld (setCtl { s.ctl with test := sg.2 } s) CTL_TEST_STATUS.TICKS sg.2.ticks else s
  let injSp := if test && !g.point then sg.1 else dzero
  let injOut := if test && g.point then sg.1 else dzero
  let s2 := judgeAlternate t (judgePrimary t s1)
  let st := loopState s2 n
  let act := fallbackAction s2 n t.cfg
  let s3 := setFlag s2 (CTL_LOOPn_STATUS.ALT_ACTIVE n) (decide (st = 2 ∧ act = 2))
  let r := if st = 1 then runLaw t t.fb injSp injOut dt test s3
    else if st = 2 ∧ act = 2 then runLaw t t.alt injSp injOut dt test s3
    else runFallback act t injSp injOut dt test s3
  let x := loopRun r.2 n
  let s4 := setFld (setLoopRun n { x with prev := some t.bnd } r.2) (CTL_LOOPn_STATUS.OVR_RUN n) 0
  (r.1, count 274 1 s4)

/-- Whether the control trace shares a byte with the region or folio store of a ring that is not STOPPED: misuse (R222, R403). -/
def traceOverlaps (s : State) : Bool :=
  let trace := ((rd s CTL_TRACE_BASE).toNat, (rd s CTL_TRACE_SIZE).toNat)
  (activeRings s).any (fun r => (ringRegions s r).any (overlap trace))

/-- The control trace's region where the engine has taken it into use: the check of its class is made with the first entry of a test that goes into
it (R363). DESIGN CHOICE: a region that does not pass takes no entry (log entry 130). -/
def takeTrace (s : State) : State :=
  let region := ((rd s CTL_TRACE_BASE).toNat, (rd s CTL_TRACE_SIZE).toNat)
  if s.ctl.trace = some region then s
  else setCtl { s.ctl with trace := if inClass s 1 region.1 region.2 then some region else none } s

/-- A trace entry of the loop under test (R222); its tag is that of the output, `forced` as R216 says. A HEAD that a smaller SIZE has left outside the
region starts again at 0. -/
def traceEntry (e : Eval) (a : Word) (forced : Bool) (s0 : State) : State :=
  let size := (rd s0 CTL_TRACE_SIZE).toNat
  let s := if e.test && decide (0 < size) then takeTrace s0 else s0
  if e.test && decide (0 < size) && s.ctl.trace.isSome then
    let h := if fld s CTL_TRACE_HEAD.NEXT < size then fld s CTL_TRACE_HEAD.NEXT else 0
    let at1 := (rd s CTL_TRACE_BASE).toNat + h
    let bytes := bytesLE 8 e.tick.lap ++ bytesLE 4 (w32f e.sp).toNat ++ bytesLE 4 (w32f e.sig).toNat ++
      bytesLE 4 e.fb.value.toNat ++ bytesLE 4 (e.fb.seq * 256 + e.fb.tag) ++ bytesLE 4 a.toNat ++
      bytesLE 4 (if forced then 2 else 0)
    setFld (captureWrite at1 bytes s) CTL_TRACE_HEAD.NEXT (if size ≤ h + 32 then 0 else h + 32)
  else s

/-- The integrator's move of R202 and R206 with the applied value `g`, which is `forced` as its winner's is, and what OUTPUT's latching read will take. -/
def settleLoop (g : FVal) (forced : Bool) (s : State) (e : Eval) : State :=
  let t := e.tick
  let x := loopRun s t.loop
  let back := decide (snapFld t.cfg 0x00 26 2 = 1)
  let di :=
    if back then dadd e.di (dmul (dmul (snapF t.cfg 0x24) (dsub g e.uraw)) e.dt)
    else if (flt g e.uraw && flt dzero e.di) || (flt e.uraw g && flt e.di dzero) then dzero
    else e.di
  let integ := if e.law then dmin (dmax (dadd x.integ di) (snapF t.cfg 0x18)) (snapF t.cfg 0x1C) else x.integ
  traceEntry e (w32f g) (forced || e.test) (setLoopRun t.loop { x with integ := integ, u := w32f e.u, fb := e.fb } s)

/-- The unit's last member has been evaluated, in the lap that began at boundary count `lap`: the group output is the least u; the
lowest loop number wins (R208). -/
def finishUnit (lap : Nat) (es : List Eval) (s : State) : State :=
  match es with
  | [] => s
  | e0 :: rest =>
    let best := rest.foldl (fun (b : Eval) e => if flt e.u b.u then e else b) e0
    let s1 := es.foldl (settleLoop best.u best.forced) s
    let o : UnitOut := { unit := e0.tick.unit, bnd := lap, g := best.u, winner := best.tick.loop, evals := es }
    setCtl { s1.ctl with evals := [], outs := s1.ctl.outs ++ [o] } s1

/-- LOOP_EVALUATION (R195, R202): one slot takes the tick at the front of the queue, while the lap has slots left and the engine is
enabled (R226). A tick of the loop under test whose trace entry would go into a region that overlaps a ring in use is misuse (R222,
R403). -/
def execLoopEvaluation (s : State) : Host.Outcome State Fault Refusal :=
  match s.ctl.queue with
  | t :: rest =>
    if s.ctl.slots < 6 ∧ flag s CTL_CTRL.EN = true then
      let s1 := setCtl { s.ctl with queue := rest, slots := s.ctl.slots + 1 } s
      let r := evaluate t s1
      let es := r.2.ctl.evals ++ [r.1]
      let more := rest.any (fun q => decide (q.unit = t.unit) && decide (q.bnd = t.bnd))
      if r.1.test && traceOverlaps r.2 then .fault .misuseOverlap
      else if more then done (setCtl { r.2.ctl with evals := es } r.2)
      else done (finishUnit s.bnd es r.2)
    else done s
  | [] => done s

/-! ### Commits (R198, R208 to R216) -/

/-- The payload of a drive frame (R215). -/
def drivePayload (s : State) (d n tickLap flags seq : Nat) (forced : Bool) (v : Word) : List Byte :=
  let apply := nsOf (timeD s + fld s (CTL_DRIVEd_LEAD.LEAD d) * lapUnits)
  bytesLE 2 (fld s (CTL_DRIVEd_CFG.OBJECT d)) ++ bytesLE 1 (fld s TWN_CLAIM.VALUE) ++ bytesLE 1 (if forced then 2 else 0) ++
    bytesLE 1 n ++ bytesLE 1 flags ++ bytesLE 2 0 ++ bytesLE 8 tickLap ++ bytesLE 8 apply ++ bytesLE 4 v.toNat ++ bytesLE 4 seq

/-- An output frame goes to its path while the hub holds the top claim (R215, R388). -/
def handFrame (message : Bool) (path dest : Nat) (data : List Byte) (s : State) : State :=
  if holdsTop s then
    setOut { s.out with frames := s.out.frames ++ [{ path := if path = 3 then 0 else path, dest := dest, message := message, data := data }] } s
  else s

/-- Note an item for the digest of boundary `b` (R383). -/
def digestItem (b order key : Nat) (data : List Byte) (s : State) : State :=
  setOut { s.out with digest := s.out.digest ++ [{ bnd := b, order := order, key := key, data := data }] } s

/-- The binary32 word of a product, beyond the range the largest magnitude of its sign (R205). -/
def w32sat (v : FVal) : Word :=
  match fround fmt32 v with
  | .inf n => w32f (maxF32 n)
  | x => w32f x

/-- A DRIVE commit (R215). -/
def commitDrive (d n tickLap flags : Nat) (forced : Bool) (v : FVal) (s : State) : State :=
  let seq := tget (fun _ => 0) s.out.driveSeq d
  let s1 := setOut { s.out with driveSeq := tput (fun _ => 0) s.out.driveSeq d ((seq + 1) % 2 ^ 32) } s
  let p := drivePayload s1 d n tickLap flags seq forced (w32sat v)
  handFrame false (fld s1 (CTL_DRIVEd_CFG.PATH d)) (fld s1 (CTL_DRIVEd_CFG.ADDR d)) p (wr s1 (CTL_DRIVEd_SEQ d) (w32 seq))

/-- Where a committed value of unit `u` goes (R210, R211). -/
def sendOutput (cfg : Tab Word) (u n tickLap flags : Nat) (forced : Bool) (a : Word) (s : State) : State :=
  let k := snapFld cfg 0x00 16 4
  let num := snapFld cfg 0x00 8 8
  let v := dmul (f32 a) (snapF cfg 0x28)
  if k = 0 ∨ 5 ≤ k then s
  else if (if k ≤ 2 then 16 else 32) ≤ num then addSat s CTL_STATUS.BAD_OUT 1
  else if k = 1 then
    setInOrder 0 num (3 + u) (setAout num (clampInt (-32000) 32000 ((ftoInt (ddiv v (dofRat 3125 10000000))).getD 0))) s
  else if k = 2 then
    setInOrder 1 num (3 + u)
      (setPwm num (if flag s (CTL_PWMj_CFG.DIGITAL num) then bit (fle (dofRat 1 2) v)
        else (clampInt 0 65535 ((ftoInt (dmul v (fofInt 65536))).getD 0)).toNat)) s
  else if k = 3 then commitDrive num n tickLap flags forced v s
  else putSetpoint num (w32sat v) s

/-- Whether a member's committed value is forced (R216): the value is the winner's, and the output of a loop under test is forced
(R221; DEDUCED for a member that lost, log entry 131). -/
def outForced (o : UnitOut) (e : Eval) : Bool :=
  e.test || o.evals.any (fun w => decide (w.tick.loop = o.winner) && w.forced)

/-- One member's part of a commit (R209, R216). -/
def commitMember (o : UnitOut) (grp : Bool) (a : Word) (s : State) (e : Eval) : State :=
  let n := e.tick.loop
  let x := loopRun s n
  let s1 := setLoopRun n { x with a := a, tickLap := e.tick.lap } s
  let s2 := setFlag (setFlag s1 (CTL_LOOPn_STATUS.FORCED n) (outForced o e)) (CTL_LOOPn_STATUS.WINNER n)
    (grp && decide (n = o.winner))
  digestItem s.bnd 1 (o.unit * 64 + n)
    (bytesLE 1 n ++ bytesLE 1 (loopState s2 n) ++ bytesLE 1 (snapFld e.tick.cfg 0 16 4) ++ bytesLE 1 (snapFld e.tick.cfg 0 8 8) ++
      bytesLE 8 e.tick.lap ++ bytesLE 4 a.toNat) s2

/-- The winner of a group at a commit (R208). -/
def showWinner (g w : Nat) (s : State) : State :=
  let had := nbit s.ctl.hadWinner g
  let changed := had && decide (fld s (CTL_GROUPg_STATUS.WINNER g) ≠ w)
  raiseIf changed 175 (setFld (setCtl { s.ctl with hadWinner := s.ctl.hadWinner ||| 2 ^ g } s) (CTL_GROUPg_STATUS.WINNER g) w)

/-- The outputs of one unit are committed (R198, R208 to R210). -/
def commitUnit (o : UnitOut) (s : State) : State :=
  let es := o.evals.filter (fun e => decide (loopState s e.tick.loop ≠ 0))
  match es with
  | [] => s
  | e0 :: _ =>
    let cfg := e0.tick.cfg
    let grp := decide (snapFld cfg 0 25 1 ≠ 0)
    let a := w32f o.g
    let s1 := es.foldl (commitMember o grp a) s
    let s2 := if grp then showWinner (snapFld cfg 0 22 3) o.winner s1 else s1
    let st := loopState s2 e0.tick.loop
    let test := es.any (fun e => e.test)
    let flags := bit grp + bit (decide (st = 2)) * 2 + bit (decide (st = 3)) * 4 + bit test * 8
    sendOutput cfg o.unit e0.tick.loop e0.tick.lap flags (outForced o e0) a s2

/-- LOOP_OUTPUT_COMMIT (R198): the outputs of unit `u` whose last slot lay in an earlier lap. While EN = 0 outputs hold (R226). -/
def execLoopOutputCommit (u : Fin 32) (s : State) : Host.Outcome State Fault Refusal :=
  if flag s CTL_CTRL.EN = false then done s else
  let due := fun (o : UnitOut) => decide (o.unit = u.val) && decide (o.bnd < s.bnd)
  let s1 := (s.ctl.outs.filter due).foldl (fun s o => commitUnit o s) s
  done (setCtl { s1.ctl with outs := s1.ctl.outs.filter (fun o => !due o) } s1)

/-! ### The boundary -/

/-- The index of the unit of `t` after a COMMIT: its lowest remaining member leads it (R197, R209). -/
def renamed (all : List Tick) (t : Tick) : Tick :=
  match all.find? (sameUnit t) with
  | some q => { t with unit := q.loop }
  | none => t

/-- A COMMIT may have taken the leader out of a unit that waits: the next-lowest member leads it from here on, and the output is that
loop's (R209). -/
def renameUnits (s : State) : State :=
  let all := s.ctl.evals.map (·.tick) ++ s.ctl.queue
  let live := fun (o : UnitOut) => (o.evals.find? (fun e => decide (loopState s e.tick.loop ≠ 0))).map (·.tick.loop)
  setCtl { s.ctl with
    queue := s.ctl.queue.map (renamed all),
    evals := s.ctl.evals.map (fun e => { e with tick := renamed all e.tick }),
    outs := s.ctl.outs.map (fun o => { o with unit := (live o).getD o.unit }) } s

/-- A COMMIT may have dropped the last members that a unit begun in the lap before waited for: the unit is complete with the members
evaluated, and its outputs are committed at this boundary (R198, R208, R219). -/
def closeCut (s : State) : State :=
  match s.ctl.evals with
  | [] => s
  | e :: _ => if s.ctl.queue.any (sameUnit e.tick) then s else finishUnit (s.bnd - 1) s.ctl.evals s

/-- The command of CTL_CMD at its boundary, where its condition still holds (R225, R226, R467). -/
def ctlCmdBoundary (s : State) : State :=
  match dueCmd s CTL_CMD with
  | some w =>
    if opOf w = 1 then
      let m := (rd s CTL_COMMIT_MASK).toNat
      let s1 := closeCut (renameUnits ((idxWhere 32 (nbit m)).foldl commitLoop s))
      raise 176 (complete CTL_CMD 0 ((List.range 8).foldl showGroup s1))
    else if opOf w = 2 then
      let n := fget w 8 5
      if 2 ≤ loopState s n then complete CTL_CMD 0 (resumeLoop n s) else s
    else if opOf w = 3 then
      if loopState s (fld s CTL_TEST_CFG.LOOP) = 1 ∧ ¬(fld s CTL_TEST_CFG.WAVE = 3 ∧ fld s CTL_TEST_TLEN.VALUE = 0) then
        complete CTL_CMD 0 (startTest s)
      else s
    else if testRunning s then complete CTL_CMD 0 (stopTest s)
    else s
  | none => s

/-- The control engine at a lap boundary: the commands and the software setpoints take effect, and the lap's slots are new. -/
def ctlBoundary (s : State) : State :=
  let s1 := ctlCmdBoundary s
  let s2 := s1.ctl.setpoints.foldl (fun s q => putSetpoint q.1 q.2 s) s1
  let s3 := setCtl { s2.ctl with setpoints := [], slots := 0, slMask := 0 } s2
  showQueue s3

end Sys2Proof.Machine
end

