-- ==== Sys2Proof/Machine/StartList.lean ====
section
/-!
DEFINITION. The Start List: entries, taking, late entries, the per-lap limit and the effects of its actions; and the step of line
time, which judges TIME entries anew (spec/02_timebase.md R39, R43, R58, R61 to R74).
-/
namespace Sys2Proof.Machine
open Sys2Proof

def setSl (x : StartList) (s : State) : State := { s with tbs := { s.tbs with sl := x } }

/-! ### Entries (R63) -/

/-- The address of word offset `o` of entry `n`. -/
def slAddr (n o : Nat) : Nat := 0xB0010000 + n * 32 + o
def slFld (n o lo w : Nat) : Fld := ⟨slAddr n o, lo, w⟩

def slEn (s : State) (n : Nat) : Bool := flag s (slFld n 0 31 1)
def slSpace (s : State) (n : Nat) : Nat := fld s (slFld n 0 28 3)
def slAction (s : State) (n : Nat) : Nat := fld s (slFld n 0 24 4)
def slPeriodic (s : State) (n : Nat) : Bool := flag s (slFld n 0 23 1)
def slCancel (s : State) (n : Nat) : Bool := flag s (slFld n 0 22 1)
def slDir (s : State) (n : Nat) : Nat := let d := fld s (slFld n 0 20 2); if d = 3 then 0 else d
def slLinked (s : State) (n : Nat) : Bool := flag s (slFld n 0 19 1)
def slState (s : State) (n : Nat) : Nat := fld s (slFld n 0 12 4)
def setSlState (n st : Nat) (s : State) : State := setFld s (slFld n 0 12 4) st

/-- VALUE and INTERVAL, 48 bits. -/
def slValue (s : State) (n : Nat) : Nat := fld s (slFld n 4 0 32) + fld s (slFld n 8 0 16) * 2 ^ 32
def slInterval (s : State) (n : Nat) : Nat := fld s (slFld n 0xC 0 32) + fld s (slFld n 0x10 0 16) * 2 ^ 32
def setSlValue (n v : Nat) (s : State) : State :=
  setFld (setFld s (slFld n 4 0 32) (v % 2 ^ 32)) (slFld n 8 0 16) (v / 2 ^ 32 % 65536)

/-- The bits of each word of an entry that software writes. -/
def slMask (o : Nat) : Word :=
  match o with
  | 0x00 => 0xFFF80000
  | 0x08 => 0xFFFF
  | 0x10 => 0xFFFF
  | 0x1C => 0xFFFF87FF
  | _ => 0xFFFFFFFF

/-- The enabled entries, in ascending index. -/
def slEnabled (s : State) : List Nat :=
  (s.regs.filter (fun q => decide (0xB0010000 ≤ q.1 ∧ q.1 < 0xB0020000 ∧ q.1 % 32 = 0) && nbit q.2.toNat 31)).map
    (fun q => (q.1 - 0xB0010000) / 32)

/-! ### Coordinates (R61, R62, R74) -/

/-- The position of Tally `k` at lap-domain time `t`, in µm: tally_at, or P_b + V_b × (t − b) while twin EN = 1 (R377). -/
def slTally (s : State) (k t : Nat) : Int :=
  if flag s TWN_CTRL.EN then
    let pv := dataTally s k
    signed 48 (unsignedOf 48 (pv.1 + divHalfEven (pv.2 * ((t : Int) - timeD s)) (16000000000 * 65536)))
  else tallyAt s k (now s) t

/-- sdiff48 of the coordinate at lap-domain time `t` and VALUE, in the space of entry `n`. -/
def slDelta (s : State) (n t : Nat) : Int :=
  let v : Int := slValue s n
  match slSpace s n with
  | 0 => sdiff48 (shortStamp t) v
  | 5 => sdiff48 ((dataMains s t).1 / 65536000000000 % 2 ^ 48 : Nat) v
  | k => sdiff48 (slTally s (k - 1) t) v

/-- sdiff48 of VALUE and the coordinate at lap-domain time `t`, for a TIME or MAINS entry: what is still to go (R74). -/
def slToGo (s : State) (n t : Nat) : Int :=
  let v : Int := slValue s n
  if slSpace s n = 5 then sdiff48 v ((dataMains s t).1 / 65536000000000 % 2 ^ 48 : Nat) else sdiff48 v (shortStamp t)

/-- The sign of an integer. -/
def signOf (x : Int) : Int := if 0 < x then 1 else if x < 0 then -1 else 0

def slIsTally (s : State) (n : Nat) : Bool := decide (1 ≤ slSpace s n) && decide (slSpace s n ≤ 4)

/-- The difference of an entry at the latest boundary, where a Tally's steps take place (R58). -/
def slBoundaryDelta (s : State) (n : Nat) : Int := sdiff48 (dataTally s (slSpace s n - 1)).1 (slValue s n : Int)

/-- Whether the Tally of entry `n` stepped at the present boundary. -/
def slStepped (s : State) (n : Nat) : Bool := slIsTally s n && dataStepped s (slSpace s n - 1)

/-- Whether `d` is at or beyond the coordinate in the entry's direction. -/
def slBeyond (s : State) (n : Nat) (d : Int) : Bool := if slDir s n = 1 then decide (d ≤ 0) else decide (0 ≤ d)

/-- Whether a step has put the Tally beyond the entry's coordinate, so that the entry waits until it has come back (R58). -/
def slPassed (s : State) (n : Nat) : Bool :=
  (decide (n ∈ s.tbs.sl.passed) || (slStepped s n && slBeyond s n (slBoundaryDelta s n))) && slBeyond s n (slDelta s n (nowD s))

/-- Whether a step has put the Tally exactly on an EITHER entry's coordinate: no crossing, so that the entry waits until it has moved
away (R58). -/
def slRests (s : State) (n : Nat) : Bool := decide (n ∈ s.tbs.sl.passed) || (slStepped s n && decide (slBoundaryDelta s n = 0))

/-- The sign against which an EITHER entry is judged (R58, R71). -/
def slSign (s : State) (n : Nat) : Int :=
  if slStepped s n then signOf (slBoundaryDelta s n) else tget (fun _ => (0 : Int)) s.tbs.sl.sign n

/-- due(e, now) of R74. DEDUCED: an enabled entry that is rewritten to a coordinate already passed is due, and is taken as on time; R71
names no late case for it (log entry 115). -/
def slDue (s : State) (n : Nat) : Bool :=
  let d := slDelta s n (nowD s + lapUnits)
  if slIsTally s n then
    if slDir s n = 2 then !slRests s n && (decide (d = 0) || decide (signOf d ≠ slSign s n))
    else slBeyond s n d && !slPassed s n
  else decide (slToGo s n (nowD s + lapUnits) ≤ 0)

/-- Whether an entry that is enabled, or advanced, now is late (R71). -/
def slLateNow (s : State) (n : Nat) : Bool :=
  if slIsTally s n then decide (slDir s n ≠ 2) && slBeyond s n (slDelta s n (nowD s))
  else decide (slToGo s n (nowD s + lapUnits) ≤ 0)

/-- The velocity of Tally `k` as a distance in 2^-16 µm over a time in 2^-16 ns. -/
def slVel (s : State) (k : Nat) : Int × Nat :=
  if flag s TWN_CTRL.EN then ((dataTally s k).2, 16000000000)
  else if tallySrc s k = 1 then encVel s k (now s)
  else (tallyVel s k (now s), 16000000000)

/-- The crossing time of entry `n`, at the velocity known now (R61, R62): the coordinate converted to lap-domain line time. Where the
coordinate does not move, the present. -/
def slCross (s : State) (n : Nat) : Nat :=
  let t := nowD s
  let v : Int := slValue s n
  match slSpace s n with
  | 0 => (((nsOf t : Int) + sdiff48 v (shortStamp t)) * unitsPerNs).toNat
  | 5 =>
    let m := dataMains s t
    let d := sdiff48 v (m.1 / 65536000000000 % 2 ^ 48 : Nat) * 65536000000000 - (m.1 % 65536000000000 : Nat)
    if m.2 = 0 then t else ((t : Int) + d / m.2).toNat
  | k =>
    let w := slVel s (k - 1)
    let p := if flag s TWN_CTRL.EN then (slTally s (k - 1) t * 65536, 1) else tallyExact s (k - 1) (now s) (now s)
    let d := signed 64 (unsignedOf 64 (v * 65536 - divHalfEven p.1 p.2))
    if w.1 = 0 then t else ((t : Int) + divHalfEven (if 0 < w.1 then d * w.2 else -(d * w.2)) (w.1.natAbs : Nat)).toNat

/-! ### The list of taken actions (R68, R69) -/

/-- Whether a new action stands before `q` in the order of R68. -/
def slBefore (x q : Taken) : Bool :=
  decide (x.eff < q.eff) || (decide (x.eff = q.eff) && !q.slipped &&
    (decide (x.cross < q.cross) || (decide (x.cross = q.cross) && decide (x.n < q.n))))

def slInsert (xs : List Taken) : List Taken → List Taken
  | [] => xs
  | q :: t => match xs with
    | [] => q :: t
    | x :: _ => if slBefore x q then xs ++ q :: t else q :: slInsert xs t

/-- The members of a chain: at most four, up to one with LAST = 1 (R69). -/
def slMembers (s : State) : Nat → Nat → List Nat
  | 0, _ => []
  | k + 1, n => if flag s (slFld n 0x1C 15 1) then [n] else n :: slMembers s k (fld s (slFld n 0x1C 0 11))

/-- An entry is taken (R62, R69): its action, or its chain's members, join the list. -/
def slTaken (n cross eff : Nat) (late ends : Bool) (s : State) : State :=
  let one : Taken := { n := n, idx := n, cross := cross, eff := eff, late := late, ends := ends }
  let xs := if slAction s n = 8 then
      (slMembers s 4 (fld s (slFld n 0x1C 0 11))).zipIdx.map (fun q => { one with idx := q.1, place := q.2 + 1 })
    else [one]
  setSlState n 2 (setSl { s.tbs.sl with taken := slInsert xs s.tbs.sl.taken } s)

/-! ### Taking (R62, R65, R71, R72) -/

/-- Remove an entry from those that wait. -/
def slForget (n : Nat) (s : State) : State :=
  let x := s.tbs.sl
  setSl { x with wait := x.wait.filter (fun k => decide (k ≠ n)), sign := tdrop x.sign n,
                 passed := x.passed.filter (fun k => decide (k ≠ n)), lateFrom := tdrop x.lateFrom n } s

/-- The boundary count of the lap-domain boundary of lap `l`. -/
def slBnd (s : State) (l : Nat) : Nat := s.bnd + l - lapD s

/-- The latest effect boundary among the taken actions of an entry. -/
def slLastEff (s : State) (n : Nat) : Nat :=
  (s.tbs.sl.taken.filter (fun q => decide (q.n = n))).foldl (fun m q => max m q.eff) 0

/-- The direction in which a periodic entry's VALUE advances: +1 or −1. For EITHER it is that of the crossing just made, away from the
side noted before it; where the Tally stood at VALUE, that of its velocity (R72). -/
def slAdvanceDir (s : State) (n : Nat) : Int :=
  if slIsTally s n then
    (match slDir s n with
     | 1 => -1
     | 2 =>
       let side := slSign s n
       if 0 < side then -1 else if side < 0 then 1 else if (slVel s (slSpace s n - 1)).1 < 0 then -1 else 1
     | _ => 1)
  else 1

/-- VALUE advances `k` times. -/
def slAdvance (n k : Nat) (dir : Int) (s : State) : State :=
  setSlValue n (unsignedOf 48 ((slValue s n : Int) + dir * (k * slInterval s n : Nat))) s

/-- The note of an entry's sign at the present moment (R71). -/
def slNoteSign (n : Nat) (s : State) : State :=
  if slIsTally s n && decide (slDir s n = 2) then
    setSl { s.tbs.sl with sign := tins (tdrop s.tbs.sl.sign n) n (signOf (slDelta s n (nowD s))) } s
  else s

/-- A late periodic entry with CANCEL_LATE = 1 advances until it is no longer late; each occurrence counts in TBS_SL_SKIP (R72). With
INTERVAL = 0 it never is, and the entry is cancelled (log entry 53). A cancelled occurrence leaves WAS_LATE (log entry 210). -/
def slSkip (n : Nat) (s : State) : State :=
  let i := slInterval s n
  let d := slDelta s n (if slIsTally s n then nowD s else nowD s + lapUnits)
  if i = 0 then setSlState n 4 (setFlag (slForget n (addSat s TBS_SL_SKIP.COUNT 1)) (slFld n 0 31 1) false)
  else
    let k := d.natAbs / i + 1
    addSat (slAdvance n k (slAdvanceDir s n) s) TBS_SL_SKIP.COUNT k

/-- A periodic entry that has been taken advances (R72): it goes on waiting, ends, or is late again. -/
def slPeriodicNext (n : Nat) (s : State) : State :=
  let rep := fld s (slFld n 0x1C 16 16)
  let s1 := slAdvance n 1 (slAdvanceDir s n) s
  if rep = 1 then slForget n s1
  else
    let s2 := if 1 < rep then setFld s1 (slFld n 0x1C 16 16) (rep - 1) else s1
    let s3 := slNoteSign n (setSl { s2.tbs.sl with lateFrom := tdrop s2.tbs.sl.lateFrom n } s2)
    if slLateNow s3 n then
      (if slCancel s3 n then slSkip n s3
       else setSl { s3.tbs.sl with lateFrom := tins (tdrop s3.tbs.sl.lateFrom n) n (s3.bnd + 1) } s3)
    else s3

/-- Take an entry with its crossing time, effect boundary and lateness (R62, R65, R71, R72). -/
def slTake (n cross eff : Nat) (late : Bool) (s : State) : State :=
  let per := slPeriodic s n
  let ends := !per || decide (fld s (slFld n 0x1C 16 16) = 1)
  let s1 := slTaken n cross eff late ends s
  let s2 := if late then raise 141 (addSat (setFlag s1 (slFld n 0 11 1) true) TBS_SL_LATE.COUNT 1) else s1
  if per then slPeriodicNext n s2 else slForget n s2

/-- A late occurrence (R71): taken at once, with the first lap whose boundary is at least one take horizon ahead, or cancelled. DEDUCED:
cancelling a one-shot entry also clears its EN, so that it does not wait on (log entry 116), and a cancelled occurrence leaves WAS_LATE
(log entry 210). -/
def slLate (n : Nat) (s : State) : State :=
  if slCancel s n then
    if slPeriodic s n then slSkip n s
    else addSat (setSlState n 4 (setFlag (slForget n s) (slFld n 0 31 1) false)) TBS_SL_SKIP.COUNT 1
  else
    let eff := max (slBnd s (lapAtOrAfter (nowD s + lapUnits))) (slLastEff s n + 1)
    slTake n (if slSpace s n = 0 then slCross s n else nowD s) eff true s

/-- SL_TAKE (R62, R65, R72): entry `n` is due at instant `ofs`. A periodic TIME entry executes once per lap: an occurrence whose effect lap
would be one that an earlier occurrence has is taken as late (DEDUCED, log entry 53). -/
def execSlTake (n : Fin 2048) (ofs : Nat) (s : State) : Host.Outcome State Fault Refusal :=
  let s0 := atOfs ofs s
  let sl := s0.tbs.sl
  if flag s0 TBS_SL_CTRL.EN && decide (n.val ∈ sl.wait) then
    match sl.lateFrom.find? (fun q => decide (q.1 = n.val)) with
    | some (_, b) => done (if b ≤ s0.bnd then slLate n (setSl { sl with lateFrom := tdrop sl.lateFrom n } s0) else s0)
    | none =>
      if slDue s0 n then
        let c := slCross s0 n
        let e := max (slBnd s0 (lapAtOrAfter c)) (s0.bnd + 1)
        let last := slLastEff s0 n
        if slSpace s0 n = 0 ∧ slPeriodic s0 n = true ∧ slCancel s0 n = false ∧ e ≤ last then done (slTake n c (last + 1) true s0)
        else done (slTake n c e false s0)
      else done s0
  else done s0

/-! ### Writing entries (R63, R70, R71, R73) -/

/-- An entry is ordered into its space, or refused there; a chain member is not ordered (R63, R70, R73). -/
def slOrder (n : Nat) (judge : Bool) (s : State) : State :=
  let s1 := slForget n s
  if slLinked s n then (if slState s1 n = 1 then setSlState n 0 s1 else s1)
  else if 6 ≤ slSpace s n then
    raise 142 (addSat (setSlState n 4 (setFlag s1 (slFld n 0 31 1) false)) TBS_SL_BAD.COUNT 1)
  else
    let ins := fun (l : List Nat) => l.filter (fun k => decide (k < n)) ++ n :: l.filter (fun k => decide (n < k))
    let s2 := slNoteSign n (setSl { s1.tbs.sl with wait := ins s1.tbs.sl.wait } s1)
    let s3 := if s2.tbs.sl.taken.any (fun q => decide (q.n = n)) then s2 else setSlState n 1 s2
    if judge && flag s3 TBS_SL_CTRL.EN && slLateNow s3 n then slLate n s3 else s3

/-- EN of an entry has gone from 0 to 1 (R63, R73). -/
def slEnable (n : Nat) (s : State) : State :=
  slOrder n true (setFlag (setFlag s (slFld n 0 31 1) true) (slFld n 0 11 1) false)

/-- EN of an entry is cleared (R73): a WAITING entry is removed; a taken action still takes effect. -/
def slDisable (n : Nat) (s : State) : State :=
  let s1 := slForget n (setFlag s (slFld n 0 31 1) false)
  if slState s1 n = 1 then setSlState n 0 s1 else s1

/-- SL_ENTRY_ENABLE (R73). -/
def execSlEntryEnable (n : Fin 2048) (s : State) : Host.Outcome State Fault Refusal :=
  if slEn s n then done s else done (slEnable n s)

/-- SL_ENTRY_DISABLE (R73). -/
def execSlEntryDisable (n : Fin 2048) (s : State) : Host.Outcome State Fault Refusal :=
  if slEn s n then done (slDisable n s) else done s

/-- Whether the present moment lies within one lap of a waiting entry's coordinate (R73). -/
def slNear (s : State) (n : Nat) : Bool :=
  let d := (slDelta s n (nowD s)).natAbs
  if slIsTally s n then
    let w := slVel s (slSpace s n - 1)
    decide (d * 65536 * w.2 ≤ w.1.natAbs * lapUnits)
  else if slSpace s n = 5 then decide (d * 65536000000000 ≤ s.tbs.mains.freq * lapUnits)
  else decide (d * unitsPerNs ≤ lapUnits)

/-- A write of the word at offset `o` of entry `n` (R63, R70, R73). An enabled entry whose LINKED clears is ordered as at its enabling
(DEDUCED, log entry 117). Rewriting a waiting entry within one lap of its coordinate is misuse (R403); a write that changes nothing has
no effect (R8). -/
def slWrite (n o : Nat) (w : Word) (s : State) : Host.Outcome State Fault Refusal :=
  let a := slAddr n o
  let old := rd s a
  let new := (old &&& ~~~ slMask o) ||| (w &&& slMask o)
  let wasEn := slEn s n
  let s1 := wr s a new
  let nowEn := slEn s1 n
  if new = old then .next s
  else if wasEn && !nowEn then .next (slDisable n s1)
  else if nowEn && wasEn && slLinked s n && !slLinked s1 n then .next (slOrder n true s1)
  else if !wasEn && nowEn then .next (slEnable n s1)
  else if nowEn && decide (n ∈ s.tbs.sl.wait) then
    if slNear s n || slNear s1 n then .fault .misuseEntryRewrite
    else .next (slOrder n false s1)
  else .next s1

/-- SL_ENTRY_REWRITE (R73): word `k`, other than CTRL, of an entry. -/
def execSlEntryRewrite (n : Fin 2048) (k : Fin 7) (value : Word) (s : State) : Host.Outcome State Fault Refusal :=
  match slWrite n (4 + k * 4) value s with
  | .next t => done t
  | .fault f => .fault f
  | .refused r => .refused r

/-- Every enabled entry is judged as at the setting of TBS_SL_CTRL.EN (R71). -/
def slJudgeAll (s : State) : State :=
  s.tbs.sl.wait.foldl (fun s n =>
    if decide (n ∈ s.tbs.sl.wait) && !(slIsTally s n && decide (slDir s n = 2)) && slDue s n then slLate n s else s) s

/-- A write of TBS_SL_CTRL.EN (R71): setting it judges every enabled entry. -/
def slCtrlWrite (en : Bool) (s : State) : State :=
  let was := flag s TBS_SL_CTRL.EN
  let s1 := setFlag s TBS_SL_CTRL.EN en
  if en && !was then slJudgeAll s1 else s1

/-- START_LIST_ENABLE (R71). -/
def execStartListEnable (en : Bool) (s : State) : Host.Outcome State Fault Refusal := done (slCtrlWrite en s)

/-- DISABLE_SPACE (R63): a reserved space returns BAD_TARGET (R402). -/
def execDisableSpace (space : Fin 16) (s : State) : Host.Outcome State Fault Refusal :=
  if 6 ≤ space.val then done (reject TBS_SL_CMD 3 s)
  else
    let ns := (slEnabled s).filter (fun n => decide (slSpace s n = space.val) && !slLinked s n)
    done (complete TBS_SL_CMD 0 (ns.foldl (fun s n => slDisable n s) s))

/-- DISABLE_ALL (R63). -/
def execDisableAll (s : State) : Host.Outcome State Fault Refusal :=
  done (complete TBS_SL_CMD 0 ((slEnabled s).foldl (fun s n => slDisable n s) s))

/-! ### Effects (R64 to R70) -/

/-- Whether the target of an action exists (R64, R70). DEDUCED: a SET_OUTPUT target with a bit set outside [7:6] and [3:0] names no output
(log entry 59). -/
def slExists (act : Nat) (target : Word) : Bool :=
  let t := target.toNat
  match act with
  | 0 => true
  | 1 => decide (t < 64)
  | 2 => decide (t < 64)
  | 3 => decide (t < 64)
  | 4 => decide (t &&& 0xFFFFFF30 = 0) && (match t / 64 with | 0 => true | 1 => true | 2 => decide (t % 16 < 4) | _ => false)
  | 5 => decide (t < 32)
  | 6 => decide (t < 128)
  | 7 => true
  | _ => false

/-- The action of an entry as executed: a member that is itself a chain is NONE (R69). -/
def slActing (s : State) (q : Taken) : Nat :=
  let a := slAction s q.idx
  if a = 8 ∧ 0 < q.place then 0 else a

/-- Whether an action takes effect at its crossing time: TRIG_OUT and POST_EVENT, on time (R65). -/
def slAtCrossing (s : State) (q : Taken) : Bool :=
  let t := (rd s (slAddr q.idx 0x14)).toNat
  !q.late && !q.slipped && slExists (slActing s q) (rd s (slAddr q.idx 0x14)) &&
    ((decide (slActing s q = 4) && decide (t / 64 = 2)) || decide (slActing s q = 6))

/-- A SET_OUTPUT action (R64, R67, R211, R212). -/
def slSetOutput (q : Taken) (s : State) : State :=
  let t := (rd s (slAddr q.idx 0x14)).toNat
  let arg := rd s (slAddr q.idx 0x18)
  let s1 := digestItem q.eff 2 0 (bytesLE 2 q.idx ++ bytesLE 4 t ++ bytesLE 4 arg.toNat) s
  match t / 64 with
  | 0 => setInOrder 0 (t % 16) 2 (setAout (t % 16) (signed 16 (fget arg 0 16))) s1
  | 1 => setInOrder 1 (t % 16) 2 (setPwm (t % 16) (if flag s1 (CTL_PWMj_CFG.DIGITAL (t % 16)) then fget arg 0 1 else fget arg 0 16)) s1
  | _ =>
    if nbit arg.toNat 1 then startPulse (t % 4) (nbit arg.toNat 0) (fget arg 8 24) 0 s1
    else setTrigBase (t % 4) (nbit arg.toNat 0) s1

/-- The trigger of a sampling action (R64, R176). -/
def slRing (q : Taken) (stamp : Nat) (s : State) : State :=
  let r := (rd s (slAddr q.idx 0x14)).toNat
  let a := slActing s q
  if flag s (ACQ_RINGr_SRC.SLIST r) then
    offer { ring := r, src := 3, opens := decide (a = 2), closes := decide (a = 3), stamp := stamp, tlap := lapD s, reach := s.bnd,
            idx := q.idx } s
  else s

/-- One action acts; an action that does not exist acts as NONE and is counted (R64, R70). -/
def slAct (q : Taken) (stamp : Nat) (s : State) : State :=
  let t := rd s (slAddr q.idx 0x14)
  let a := slActing s q
  if slExists a t then
    match a with
    | 1 => slRing q stamp s
    | 2 => slRing q stamp s
    | 3 => slRing q stamp s
    | 4 => slSetOutput q s
    | 5 => putSetpoint t.toNat (rd s (slAddr q.idx 0x18)) s
    | 6 => raiseChosen t.toNat s
    | 7 => setCtl { s.ctl with slMask := s.ctl.slMask ||| t.toNat } s
    | _ => s
  else raise 142 (addSat s TBS_SL_BAD.COUNT 1)

/-- The action stamp (R66). -/
def slStamp (s : State) (q : Taken) : Nat := if q.late || q.slipped then nowD s else q.cross

/-- The log words of an executed action (R76). -/
def slLogWords (s : State) (q : Taken) (stamp : Nat) : List Word :=
  let t := rd s (slAddr q.idx 0x14)
  let a := if slExists (slActing s q) t then slActing s q else 0
  let st := shortStamp stamp
  [w32 (bit q.slipped * 2 ^ 31 + bit q.late * 2 ^ 30 + bit (decide (0 < q.place)) * 2 ^ 29 + slSpace s q.n * 2 ^ 24 + a * 2 ^ 20 +
     q.idx), t, w32 (st % 65536 * 65536 + fracOf stamp), w32 (st / 65536)]

/-- Write one log entry (R76). -/
def slLog (ws : List Word) (s : State) : State :=
  let m := fld s TBS_SL_LOG_HEAD.NEXT
  let s1 := ws.zipIdx.foldl (fun s q => wr s (0xA0050800 + m * 16 + q.2 * 4) q.1) s
  let s2 := setFld s1 TBS_SL_LOG_HEAD.NEXT ((m + 1) % 32)
  count 273 1 (if m = 31 then addMod s2 TBS_SL_LOG_HEAD.WRAPS 1 else s2)

/-- An action has taken effect (R72): the entry ends, goes on waiting, or stays disabled. -/
def slAfter (q : Taken) (s : State) : State :=
  if s.tbs.sl.taken.any (fun p => decide (p.n = q.n)) then s
  else if slState s q.n ≠ 2 then s
  else if decide (q.n ∈ s.tbs.sl.wait) then setSlState q.n 1 s
  else if q.ends then setSlState q.n 3 (setFlag s (slFld q.n 0 31 1) false)
  else setSlState q.n 0 s

/-- The actions of the present boundary that have acted and head the list are logged, in the order of R68. -/
def slFlush : Nat → State → State
  | 0, s => s
  | k + 1, s =>
    match s.tbs.sl.taken with
    | q :: t =>
      match q.ran with
      | some ws =>
        if q.eff ≤ s.bnd then
          slFlush k (slAfter q (slLog ws (setSl { s.tbs.sl with taken := t, count := s.tbs.sl.count + 1 } s)))
        else s
      | none => s
    | [] => s

/-- Whether an action of the next boundary stands among its first sixteen, with its whole chain (R68, R69). -/
def slFits (l : List Taken) (q : Taken) : Bool :=
  let before := l.takeWhile (fun p => decide (p.eff ≤ q.eff) && !(decide (p.n = q.n) && decide (p.cross = q.cross)))
  let same := l.filter (fun p => decide (p.eff = q.eff) && decide (p.n = q.n) && decide (p.cross = q.cross))
  decide ((before.filter (fun p => decide (p.eff = q.eff))).length + same.length ≤ 16)

/-- The next action that may act at the present instant, by its place in the list: the first of the present boundary, or a
crossing-timed one of the next boundary whose time has come. -/
def slNextAct (s : State) : Option Nat :=
  let l := s.tbs.sl.taken
  match l.findIdx? (fun q => decide (q.eff ≤ s.bnd) && q.ran.isNone) with
  | some i => some i
  | none =>
    l.findIdx? (fun q => decide (q.eff = s.bnd + 1) && q.ran.isNone && slAtCrossing s q && decide (q.cross ≤ nowD s) && slFits l q)

/-- SL_ACTION_EFFECT (R65 to R70): the next action acts at instant `ofs`. -/
def execSlActionEffect (ofs : Nat) (s : State) : Host.Outcome State Fault Refusal :=
  let s0 := atOfs ofs s
  match slNextAct s0 with
  | some i =>
    match s0.tbs.sl.taken[i]? with
    | some q =>
      let st := slStamp s0 q
      let ws := slLogWords s0 q st
      let s1 := slAct q st s0
      let mark := s1.tbs.sl.taken.set i { q with ran := some ws }
      done (slFlush 16 (setSl { s1.tbs.sl with taken := mark } s1))
    | none => done s0
  | none => done s0

/-! ### The boundary -/

/-- Split the actions of the present boundary after the sixteenth; a chain is not divided, and nothing passes one that moves
(R68, R69). `k` actions have been placed. -/
def slSplit (k : Nat) : List Taken → List Taken × List Taken
  | [] => ([], [])
  | q :: t =>
    let size := if q.place ≤ 1 then 1 + (t.takeWhile (fun p => decide (p.n = q.n) && decide (p.cross = q.cross) &&
      decide (1 < p.place))).length else 1
    if 16 < k + size ∧ q.ran.isNone then ([], q :: t)
    else
      let r := slSplit (k + 1) t
      (q :: r.1, r.2)

/-- Actions beyond the sixteenth move to the next lap, ahead of its own (R68). -/
def slSlip (s : State) : State :=
  let x := s.tbs.sl
  let r := slSplit 0 (x.taken.filter (fun q => decide (q.eff ≤ s.bnd)))
  let moved := r.2.map (fun q => { q with eff := s.bnd + 1, slipped := true })
  let later := x.taken.filter (fun q => decide (s.bnd < q.eff))
  let s1 := setSl { x with taken := r.1 ++ moved ++ later } s
  if moved = [] then s1 else raise 140 (addSat s1 TBS_SL_SLIP.COUNT moved.length)

/-- What the steps of Tallies at the boundary that ends now mean for the waiting entries is kept (R58). -/
def slKeepSteps (s : State) : State :=
  s.tbs.sl.wait.foldl (fun s n =>
    if slIsTally s n then
      let x := s.tbs.sl
      let rest := x.passed.filter (fun k => decide (k ≠ n))
      if slDir s n = 2 then
        let away := signOf (slDelta s n (nowD s))
        if slRests s n then
          (if away = 0 then setSl { x with passed := n :: rest } s
           else setSl { x with passed := rest, sign := tins (tdrop x.sign n) n away } s)
        else if slStepped s n then setSl { x with passed := rest, sign := tins (tdrop x.sign n) n (slSign s n) } s
        else s
      else
        setSl { x with passed := if slPassed s n then n :: rest else rest } s
    else s) s

/-- The Start List at a lap boundary, once line time and the Tallies have moved on: the actions are counted out and the surplus
slips. -/
def slBoundary (s : State) : State :=
  let s1 := setFld s TBS_SL_STATUS.LAST_LAP (min 16 s.tbs.sl.count)
  slFlush 16 (slSlip (setSl { s1.tbs.sl with count := 0 } s1))

/-! ### Steps of line time (R39, R43) -/

/-- Line time is stepped by `d`: PACER_STEP is posted, the lap is contaminating, and after a forward step the TIME entries within the
take horizon are late. -/
def stepLine (d : Int) (s : State) : State :=
  let s1 := shiftTime d s
  let mv := fun (t : Nat) => ((t : Int) + d).toNat
  let s2 := setSl { s1.tbs.sl with taken := s1.tbs.sl.taken.map (fun q => { q with cross := mv q.cross }) } s1
  let s3 := raise 128 (if s2.tbs.pacer.slew = 0 then s2 else setSlew 0 s2)
  if 0 < d ∧ flag s3 TBS_SL_CTRL.EN then
    s3.tbs.sl.wait.foldl (fun s n =>
      if decide (n ∈ s.tbs.sl.wait) && decide (slSpace s n = 0) && slLateNow s n then slLate n s else s) s3
  else s3

/-- Whether a SET_TIME command acts at this boundary (R39, R467). -/
def setTimeDue (s : State) : Bool :=
  (match dueReal s TBS_PACER_CMD with
   | some w => decide (opOf w = 1)
   | none => false) && decide (pacerState s ≤ 1)

/-- The line time nearest to `t` on the lap grid. -/
def nearestLap (t : Nat) : Nat := (t + lapUnits / 2) / lapUnits * lapUnits

/-- PACER_STEP (R39): the step of a SET_TIME command, to the nearest point of the lap grid, or of a measurement in ACQUIRE, by the
measured offset. After the latter the lap ends at the next point of the lap grid, which makes it shorter (DEDUCED from R13, log
entry 119). -/
def execPacerStep (s : State) : Host.Outcome State Fault Refusal :=
  if setTimeDue s then
    let t := nearestLap (rdPair s TBS_SET_TIME_LO TBS_SET_TIME_HI * unitsPerNs)
    done (complete TBS_PACER_CMD 0 (stepLine ((t : Int) - s.tbs.pacer.time) s))
  else
    match s.tbs.pacer.stepDue with
    | some (m, b) =>
      if b < tick s ∧ flag s TBS_PACER_CTRL.EN ∧ pacerState s = 1 then
        done (stepLine (max m (-(s.tbs.pacer.time : Int))) s)
      else done s
    | none => done s

end Sys2Proof.Machine
end

