-- ==== Sys2Proof/Machine/Cores.lean ====
section
/-!
DEFINITION. The cores as the fabric sees them: run states, memory as masters reach it, queues, exception entry, sleeping, the core
commands and the commit points (spec/08_cores.md R227 to R253, spec/09_ralnel_isa.md R276 to R281).
-/
namespace Sys2Proof.Machine
open Sys2Proof

/-- Whether a core is in service mode (R228). -/
def inService (s : State) (n : Nat) : Bool := flag s (TOP_COREn_STATUS.MODE n)
def setMode (n : Nat) (service : Bool) (s : State) : State := setFlag s (TOP_COREn_STATUS.MODE n) service

/-- The clock period of a core in 2^-16 ns: 1.25 ns on a Runner, 2.5 ns on the Steward (R227). -/
def corePeriod (n : Nat) : Nat := if n = 4 then 163840 else 81920

/-- General register `r` of core `n`. -/
def reg (s : State) (n r : Nat) : Word := tget (fun _ => (0 : Word)) (coreOf s n).w r

/-- Write a general register; none is hardwired (R257). -/
def setReg (n r : Nat) (v : Word) (s : State) : State :=
  let x := coreOf s n
  setCore n { x with w := tput (fun _ => (0 : Word)) x.w r v } s

/-- The bits of float register `r`. -/
def freg (s : State) (n r : Nat) : Word := tget (fun _ => (0 : Word)) (coreOf s n).f r

def setFreg (n r : Nat) (v : Word) (s : State) : State :=
  let x := coreOf s n
  setCore n { x with f := tput (fun _ => (0 : Word)) x.f r v } s

def setPc (n : Nat) (a : Nat) (s : State) : State := setCore n { coreOf s n with pc := a % 2 ^ 32 } s

def setFlags (n v : Nat) (s : State) : State := setCore n { coreOf s n with flags := v % 16 } s

/-- Set flag Z alone. -/
def setZ (n : Nat) (z : Bool) (s : State) : State :=
  let f := (coreOf s n).flags
  setFlags n (f / 8 * 8 + bit z * 4 + f % 4) s

/-! ### Memory as masters reach it (R26 to R28, R231) -/

/-- A store of core `n` leaves its write buffer. -/
def coreWrite (n a : Nat) (bs : List Byte) (s : State) : State :=
  if isDram s a then dmcOwn { writeReq 2 32 a bs with core := some n } s else memWrite false a bs s

/-- The oldest store of core `n` reaches memory. -/
def drainOne (n : Nat) (s : State) : State :=
  let x := coreOf s n
  match x.stores with
  | q :: t => coreWrite n q.1 q.2 (setCore n { x with stores := t } s)
  | [] => s

/-- Every store in the write buffer of core `n` reaches memory, oldest first (R232). -/
def drainStores (s : State) (n : Nat) : State :=
  let x := coreOf s n
  if x.stores = [] then s
  else x.stores.foldl (fun s q => coreWrite n q.1 q.2 s) (setCore n { x with stores := [] } s)

/-- Whether two stores touch a common byte. -/
def storesMeet (p q : Nat × List Byte) : Bool := decide (p.1 < q.1 + q.2.length ∧ q.1 < p.1 + p.2.length)

/-- One store either stays in the buffer, as `may` allows and the free value says, or reaches memory; a store to bytes of one that stays
stays as well (R232 rule 1). -/
def seepStore (n : Nat) (may : Nat × List Byte → Bool) (r : List (Nat × List Byte) × State) (q : Nat × List Byte) : List (Nat × List Byte) × State :=
  if r.1.any (storesMeet q) then (r.1 ++ [q], r.2)
  else if may q && Config.storeWaits r.2.fresh then (r.1 ++ [q], freshen r.2)
  else (r.1, coreWrite n q.1 q.2 (freshen r.2))

/-- Of the write buffer of core `n` a free choice of the stores reaches memory, in no order that other masters may count on (R232
rule 2; log entry 62). -/
def seep (may : Nat × List Byte → Bool) (s : State) (n : Nat) : State :=
  if (coreOf s n).stores = [] then s
  else
    let r := (coreOf s n).stores.foldl (seepStore n may) ([], s)
    setCore n { coreOf r.2 n with stores := r.1 } r.2

/-- The write buffers of the other cores seep before core `n` reads memory that they share. -/
def seepOthers (n : Nat) (s : State) : State :=
  ((List.range 5).filter (fun k => decide (k ≠ n))).foldl (seep (fun _ => true)) s

/-- A read by a DMA master (R28) of traffic class `cls`, before which the write buffers of the cores seep. -/
def dmaRead (cls k a : Nat) (s : State) : List Byte × State := engineRead cls k a ((List.range 5).foldl (seep (fun _ => true)) s)

/-- Whether a store of core `n` waits at the port of the DRAM controller, so that it has not been acknowledged (R361). -/
def unacked (s : State) (n : Nat) : Bool := s.dmc.port.any (fun q => q.write && decide (q.core = some n))

/-- What waits until every earlier store of core `n` has been acknowledged (R232 rules 3 and 4): the core stalls until then. -/
def afterStores (n : Nat) (f : State → Host.Outcome State Fault Refusal) (s : State) : Host.Outcome State Fault Refusal :=
  let s1 := drainStores s n
  if unacked s1 n then done s1 else f s1

/-- The data cache of core `n` is invalidated. -/
def dropCache (n : Nat) (s : State) : State := setCore n { coreOf s n with cache := [] } s

/-- FENCE (R232 rule 3). -/
def fence (n : Nat) (s : State) : State := dropCache n (drainStores s n)

/-- The write buffers at a lap boundary: every store has been acknowledged, but one to DRAM may wait (R229). -/
def drainAtLap (s : State) : State := (List.range 5).foldl (seep (fun q => decide (q.1 < 0x80000000))) s

/-! ### Queues (R237 to R244) -/

def queueOf (s : State) (q : Nat) : Queue := tget (fun _ => ({ } : Queue)) s.cores.queue q

def setQueue (q : Nat) (x : Queue) (s : State) : State :=
  { s with cores := { s.cores with queue := tput (fun _ => ({ } : Queue)) s.cores.queue q x } }

/-- 40 ns, after which each side sees the other (R239), in 2^-16 ns. -/
def queueLag : Nat := 40 * unitsPerNs

/-- The consumer takes a new view of queue `q` (R239): every entry older than 40 ns is seen, and of the younger ones a free number. -/
def look (q : Nat) (s : State) : State :=
  let x := queueOf s q
  let old := (x.items.takeWhile (fun e => decide (e.at0 + queueLag ≤ clk s))).length
  let base := min x.items.length (max x.seen old)
  let young := x.items.length - base
  if young = 0 then setQueue q { x with seen := base } s
  else freshen (setQueue q { x with seen := base + Config.queueSight s.fresh % (young + 1) } s)

/-- The producer takes a new view of queue `q` (R239): pops younger than 40 ns may still be counted, a free number of them, at
most 3, so that FULL is not asserted below 57 entries truly held, 11 in a relay queue (R242) and 27 in a commit queue (R244). -/
def lookBack (q : Nat) (s : State) : State :=
  let x := queueOf s q
  let young := x.pops.filter (fun t => decide (clk s < t + queueLag))
  let recent := young.take 3
  if recent = [] then setQueue q { x with pops := [] } s
  else freshen (setQueue q { x with pops := recent.take (Config.queueSight s.fresh % (recent.length + 1)) } s)

/-- The producer view L_p that `lookBack` has taken. -/
def producerView (s : State) (q : Nat) : Nat := (queueOf s q).items.length + (queueOf s q).pops.length

/-- The producer view at which a queue is FULL (R239, R242, R244). -/
def queueFull (q : Nat) : Nat := if q < 40 then 60 else if q < 60 then 14 else 30

/-- An entry enters queue `q`. -/
def queueIn (q : Nat) (e : QEntry) (s : State) : State :=
  let x := queueOf s q
  setQueue q { x with items := x.items ++ [e] } s

/-- An entry offered to a FULL sample or relay queue is dropped and counted (R240, R242). -/
def dropEntry (q : Nat) (s : State) : State :=
  let was := flag s (TOP_QSTATq.OVERFLOW q)
  raiseIf (!was) 182 (setFlag (addSat s (TOP_QSTATq.DROPPED q) 1) (TOP_QSTATq.OVERFLOW q) true)

/-- Offer a sample record to a sample queue (R238, R240). -/
def offerRecord (q : Nat) (r : Rec) (s : State) : State :=
  let s1 := lookBack q s
  if queueFull q ≤ producerView s1 q then count 257 1 (dropEntry q s1)
  else queueIn q { words := [r.value, w32 (r.seq * 256 + r.tag), w32 (r.close % 2 ^ 24 * 256 + r.chan)], at0 := clk s1 } s1

/-- Push a pair to relay queue `q` from core `n`; the answer is Z (R242). -/
def pushRelay (n q : Nat) (a b : Word) (s : State) : Bool × State :=
  let s1 := lookBack q s
  if 14 ≤ producerView s1 q then (true, dropEntry q s1)
  else (false, queueIn q { words := [a, b, w32 n], at0 := clk s1 } s1)

/-- The lap count L with L mod 65 536 = `l16` that lies from −32 768 to +32 767 laps from `a` (R245). -/
def commitLap (l16 a : Nat) : Int := (a : Int) + signed 16 (unsignedOf 16 ((l16 : Int) - a))

/-- Push a descriptor to the commit queue of core `n`; the answer is Z (R244, R245). -/
def pushCommit (n : Nat) (a b : Word) (s : State) : Bool × State :=
  let q := 60 + n
  let s1 := lookBack q s
  if 30 ≤ producerView s1 q then (true, addSat s1 (TOP_COREn_COMMIT_CNT.REFUSED n) 1)
  else (false, queueIn q { words := [a, b], at0 := clk s1, bnd := s1.bnd, lap := commitLap (fget a 0 16) (lapD s1) } s1)

/-- The number in TOP_QSTATq of local queue `l` of core `n` (R237). -/
def localQueue (n l : Nat) : Nat := if l < 8 then 8 * n + l else 40 + 4 * n + (l - 8)

/-- Pop queue `q`: the three words and Z (R238, R241). -/
def popQueue (q : Nat) (s : State) : (List Word × Bool) × State :=
  let s1 := look q s
  let x := queueOf s1 q
  match x.items with
  | e :: t =>
    if x.seen = 0 then ((x.last, true), setFlag s1 (TOP_QSTATq.UNDERRUN q) true)
    else ((e.words, false), setQueue q { items := t, seen := x.seen - 1, pops := clk s1 :: x.pops, last := e.words } s1)
  | [] => ((x.last, true), setFlag s1 (TOP_QSTATq.UNDERRUN q) true)

/-- A queue is emptied and its counts and bits are cleared (R251). -/
def flushQueue (s : State) (q : Nat) : State := setQueue q { } (wr s (TOP_QSTATq q) 0)

/-! ### The boot sources and the Steward reset (R421 to R423, R429) -/

/-- A word of the Ledger. -/
def lword (s : State) (o : Nat) : Nat := ofBytesLE ([0, 1, 2, 3].map (fun i => lget s (o + i)))

/-- The boot sources in the order of the security record: up to three codes, 1 QSPI primary, 2 QSPI alternate, 3 LINE; an empty order
acts as 1, 2, 3 (R423, R429). -/
def bootOrder (s : State) : List Nat :=
  let w := lword s 0x1088
  let l := ([w % 4, w / 4 % 4, w / 16 % 4]).filter (fun c => decide (c ≠ 0))
  if l = [] then [1, 2, 3] else l

/-- The sources that a warm boot tries: the one that last succeeded (R423). -/
def warmOrder (s : State) : List Nat := if s.pwr.boot.good = 0 then bootOrder s else [s.pwr.boot.good]

/-- A reset source of TOP_RESET_CAUSE has acted (R421). -/
def noteCause (b : Nat) (s : State) : State := setFld s TOP_RESET_CAUSE.CAUSE (fld s TOP_RESET_CAUSE.CAUSE ||| 2 ^ b)

/-- The numbers in TOP_QSTATq of the Steward's queues. -/
def stewardQueues : List Nat := (List.range 8).map (fun l => 32 + l) ++ [56, 57, 58, 59, 64]

/-- A Steward reset with cause bit `b` (R421 to R423): the Steward's core block and queues are cleared, everything else runs on, and the
Steward starts in the boot ROM for a warm boot. A skew command runs on (DEDUCED, log entry 217). -/
def stewardReset (b : Nat) (s : State) : State :=
  let s1 := noteCause b (drainStores s 4)
  let s2 := (List.range 32).foldl (fun s k => wr s (TOP_COREn_STATUS 4 + 4 * k) (resetWord (TOP_COREn_STATUS 4 + 4 * k))) s1
  let s3 := (List.range 8).foldl (fun s k => setPend s 4 k 0) (stewardQueues.foldl flushQueue s2)
  let s4 := setCore 4 { coreReset 4 with cycle0 := clk s3 } s3
  let boot := { s4.pwr.boot with on := true, warm := true, left := warmOrder s4, ready := [], failedAt := 0, failed := false, lineAt := 0,
                                 window := 0, asked := 0, size := 0, chunks := [], since := 0, repeats := 0 }
  { s4 with pwr := { s4.pwr with boot := boot } }

/-! ### Exceptions (R276 to R281) -/

/-- Exception `num` on core `n` (R279): the return address, the value, and the address of the instruction that raised it. In a
handler it stops the core in FAULTED (R281), which on the Steward is the source of a Steward reset where FAULT_RST is 1 (R421). -/
def takeException (n num epc : Nat) (eval : Word) (at1 : Nat) (s : State) : State :=
  let x := coreOf s n
  let s0 := setFlag (setCore n { x with asleep := none } s) (TOP_COREn_STATUS.SLEEP n) false
  if nbit x.estat.toNat 5 then
    let s1 := raise 180 (wr (wr (setCoreState n 2 s0) (TOP_COREn_FAULT_PC n) (w32 at1)) (TOP_COREn_FAULT_CAUSE n) (w32 num))
    if n = 4 ∧ flag s1 TOP_RESET_CFG.FAULT_RST then stewardReset 7 s1 else s1
  else
    let st := w32 (num * 256 + 32 + bit (inService s n) * 16 + x.flags)
    setMode n false (setCore n { x with epc := w32 epc, estat := st, eval := eval, asleep := none,
                                        pc := (x.vbase.toNat + 16 * num) % 2 ^ 32 } s0)

/-- An exception of the instruction at the pc: EPC is that instruction. -/
def trap (n num : Nat) (eval : Word) (s : State) : State :=
  takeException n num (coreOf s n).pc eval (coreOf s n).pc s

/-- The lowest event with PEND and VEC both 1 on core `n` (R277). -/
def vectored (s : State) (n : Nat) : Option Nat :=
  firstIdx 256 (fun e => nbit (pendWord s n (e / 32)).toNat (e % 32) && nbit (rd s (TOP_COREn_VECk n (e / 32))).toNat (e % 32))

/-- Whether the EVENT exception is due: in service mode, before the next instruction (R236). -/
def eventDue (s : State) (n : Nat) : Option Nat :=
  if coreState s n = 1 ∧ inService s n then vectored s n else none

/-- EVENT_EXCEPTION (R236, R277): EPC is the instruction not issued, or the WAIT it interrupts. -/
def execEventException (n : Fin 5) (s : State) : Host.Outcome State Fault Refusal :=
  match eventDue s n with
  | some e => done (trap n 8 (w32 e) s)
  | none => done s

/-- Whether an event has the number `n` (R233, R412): software's, and the source events. -/
def isEvent (n : Nat) : Bool :=
  decide (n < 128) ||
    [(128, 142), (144, 150), (152, 164), (168, 177), (180, 185), (188, 194), (196, 205), (208, 212), (216, 221), (224, 229),
      (232, 247)].any (fun q => decide (q.1 ≤ n ∧ n ≤ q.2))

/-- EVENT_POST (R22): event `e` is posted on the fabric. A number that is not listed is never posted (R412). -/
def execEventPost (e : Fin 256) (s : State) : Host.Outcome State Fault Refusal := done (raiseIf (isEvent e) e s)

/-! ### Sleeping (R235) -/

/-- WAIT returns `r`: the bits are cleared, wd and Z are written and the core goes on. -/
def waitReturn (n wd g : Nat) (r : Word) (s : State) : State :=
  let s1 := setPend s n g (pendWord s n g &&& ~~~ r)
  let s2 := setZ n (decide (r = 0)) (setReg n wd r s1)
  let x := coreOf s2 n
  setFlag (setCore n { x with asleep := none, pc := (x.pc + 4) % 2 ^ 32 } s2) (TOP_COREn_STATUS.SLEEP n) false

/-- WAIT_RETURN (R235): a masked PEND bit ends the sleep of core `n`. -/
def execWaitReturn (n : Fin 5) (s : State) : Host.Outcome State Fault Refusal :=
  match (coreOf s n).asleep with
  | some w =>
    let r := pendWord s n w.group &&& w.mask
    if awake s ∧ coreState s n = 1 ∧ r ≠ 0 then done (waitReturn n w.wd w.group r s) else done s
  | none => done s

/-- WAIT_TIMEOUT (R235): the timeout of a sleeping WAIT has run out at instant `ofs`. -/
def execWaitTimeout (n : Fin 5) (ofs : Nat) (s : State) : Host.Outcome State Fault Refusal :=
  let s0 := atOfs ofs s
  match (coreOf s0 n).asleep with
  | some w =>
    if awake s0 ∧ coreState s0 n = 1 ∧ 0 < w.timeout ∧ w.timeout ≤ (clk s0 - w.start) / corePeriod n then
      done (waitReturn n w.wd w.group (pendWord s0 n w.group &&& w.mask) s0)
    else done s0
  | none => done s0

/-! ### Halting and restarting (R249 to R251) -/

/-- The core starts at ENTRY in supervisor mode, and the command completes. -/
def runCore (n : Nat) (s : State) : State :=
  complete TOP_CORE_CMD 0 (setPc n (rd s (TOP_COREn_ENTRY n)).toNat (setMode n false (setCoreState n 1 s)))

/-- The PEND, WATCH and VEC sets of core `n` are cleared. -/
def clearEvents (n : Nat) (s : State) : State :=
  (List.range 8).foldl (fun s k => wr (wr (setPend s n k 0) (TOP_COREn_WATCHk n k) 0) (TOP_COREn_VECk n k) 0) s

/-- The state of core `n` after RESTART (R251, R257, R275). -/
def freshCore (s : State) (n : Nat) : Core :=
  { pc := (rd s (TOP_COREn_ENTRY n)).toNat, vbase := rd s (TOP_COREn_ENTRY n) &&& 0xFFFFFF00#32, cycle0 := clk s }

/-- The queues that FLUSH empties: the sample and relay queues of core `n`. -/
def ownQueues (n : Nat) : List Nat := (List.range 12).map (localQueue n)

/-- Descriptors not yet applied are removed and counted (R251). -/
def dropCommits (n : Nat) (s : State) : State :=
  let k := (queueOf s (60 + n)).items.length
  setQueue (60 + n) { } (addSat s (TOP_COREn_COMMIT_CNT.DROPPED n) k)

/-- The effects of RESTART with the command word, then as RUN (R251). -/
def restartCore (n : Nat) (w : Word) (s : State) : State :=
  let s1 := fence n s
  let s2 := clearEvents n (setCore n (freshCore s1 n) s1)
  let s3 := addMod (setFlag s2 (TOP_COREn_STATUS.SLEEP n) false) (TOP_COREn_RESTARTS.COUNT n) 1
  let s4 := if nbit w.toNat 8 then (ownQueues n).foldl flushQueue s3 else s3
  let s5 := if nbit w.toNat 9 then dropCommits n s4 else s4
  runCore n s5

/-- The core has stopped: a HALT is complete, a RESTART goes on (R249). -/
def halted (n : Nat) (w : Word) (s : State) : State :=
  let s0 := drainStores s n
  let s1 := setCore n { coreOf s0 n with asleep := none } s0
  let s2 := raise 181 (setFlag (setCoreState n 0 s1) (TOP_COREn_STATUS.SLEEP n) false)
  if opOf w = 3 then restartCore n w s2 else complete TOP_CORE_CMD 0 s2

/-- A command word of TOP_CORE_CMD. -/
def coreWord (op n : Nat) (flush drop : Bool) : Word := w32 (bit drop * 512 + bit flush * 256 + n * 16 + op)

/-- A HALT or RESTART of a running core: a sleeping core stops at once (R250). -/
def stopCore (n : Nat) (w : Word) (s : State) : State :=
  if (coreOf s n).asleep.isSome then halted n w s else accept TOP_CORE_CMD w s

/-- CORE_RUN (R249). -/
def execCoreRun (n : Fin 8) (s : State) : Host.Outcome State Fault Refusal :=
  if isPending s TOP_CORE_CMD then done (reject TOP_CORE_CMD 2 s)
  else if 4 ≤ n.val then done (reject TOP_CORE_CMD 3 s)
  else if coreState s n ≠ 0 then done (refuse TOP_CORE_CMD s)
  else done (runCore n s)

/-- CORE_HALT (R249, R250). -/
def execCoreHalt (n : Fin 8) (s : State) : Host.Outcome State Fault Refusal :=
  if isPending s TOP_CORE_CMD then done (reject TOP_CORE_CMD 2 s)
  else if 4 ≤ n.val then done (reject TOP_CORE_CMD 3 s)
  else if coreState s n ≠ 1 then done (refuse TOP_CORE_CMD s)
  else done (stopCore n (coreWord 2 n false false) s)

/-- CORE_RESTART (R249, R251). -/
def execCoreRestart (n : Fin 8) (flush drop : Bool) (s : State) : Host.Outcome State Fault Refusal :=
  if isPending s TOP_CORE_CMD then done (reject TOP_CORE_CMD 2 s)
  else if 4 ≤ n.val then done (reject TOP_CORE_CMD 3 s)
  else
    let w := coreWord 3 n flush drop
    if coreState s n = 1 then done (stopCore n w s) else done (restartCore n w s)

/-- The halt that waits for core `n` to stop, as the accepted word and the boundary count of its acceptance. -/
def haltPending (s : State) (n : Nat) : Option Acc :=
  match s.accepted.find? (fun p => decide (p.1 = TOP_CORE_CMD)) with
  | some (_, c) => if fget c.word 4 3 = n then some c else none
  | none => none

/-- CORE_HALTED (R250): the core stops at an instruction boundary. -/
def execCoreHalted (n : Fin 4) (s : State) : Host.Outcome State Fault Refusal :=
  match haltPending s n with
  | some c => done (halted n c.word s)
  | none => done s

/-- The outstanding access is abandoned; a store in it may or may not have been performed (R250). -/
def abandonStore (n : Nat) (s : State) : State :=
  let x := coreOf s n
  match x.stores with
  | _ :: t => if Config.storeLands s.fresh then freshen (drainOne n s) else freshen (setCore n { x with stores := t } s)
  | [] => s

/-- HALT_TIMEOUT (R250): the core has not stopped within 100 µs; the halt is forced. -/
def execHaltTimeout (n : Fin 4) (s : State) : Host.Outcome State Fault Refusal :=
  match haltPending s n with
  | some c =>
    if c.at0 + 100000 * unitsPerNs ≤ clk s then done (raise 181 (complete TOP_CORE_CMD 5 (setCoreState n 0 (abandonStore n s)))) else done s
  | none => done s

/-! ### Commit points (R244 to R248) -/

/-- A word of a message frame: its slot, the committing core, the commit lap, the value and whether it was late (R248). -/
structure MsgWord where
  slot : Nat
  core : Nat
  lap : Int
  value : Word
  late : Bool
deriving DecidableEq, Repr

/-- A target that does not exist acts as NONE and is counted (R244). -/
def badCommit (s : State) : State := addSat s TOP_COMMIT_BAD.COUNT 1

/-- An OUTPUT commit (R211, R212, R244): AOUT and PWM as SET_OUTPUT but before it, TRIG_OUT as a level setting. -/
def commitOutput (t : Nat) (arg : Word) (s : State) : State :=
  match t / 64 with
  | 0 => setInOrder 0 (t % 16) 1 (setAout (t % 16) (signed 16 (fget arg 0 16))) s
  | 1 => setInOrder 1 (t % 16) 1 (setPwm (t % 16) (if flag s (CTL_PWMj_CFG.DIGITAL (t % 16)) then fget arg 0 1 else fget arg 0 16)) s
  | _ => setTrigBase (t % 4) (nbit arg.toNat 0) s

/-- Apply one descriptor by its kind (R244). -/
def applyKind (kind target : Nat) (v : Word) (s : State) : State :=
  let safe := flag s TWN_STATUS.SAFE
  match kind with
  | 0 => s
  | 1 => if target < 32 then (if safe then s else putSetpoint target v s) else badCommit s
  | 2 => if target < 2048 then (if slEn s target then s else slEnable target s) else badCommit s
  | 3 => if slExists 4 (w32 target) then (if safe then s else commitOutput target v s) else badCommit s
  | 4 => if target < 128 then raise target s else badCommit s
  | 5 => if target < 64 then s else badCommit s
  | _ => badCommit s

/-- The digest bytes of a descriptor (R246, R383). -/
def commitDigest (s : State) (n kind target : Nat) (v : Word) (l : Int) : List Byte :=
  bytesLE 2 kind ++ bytesLE 4 target ++ bytesLE 4 v.toNat ++ bytesLE 8 (unsignedOf 64 l) ++ bytesLE 1 n ++
    (if kind = 2 ∧ target < 2048 then
      ((List.range 8).map (fun k => bytesLE 4 (rd s (slAddr target (k * 4))).toNat)).flatten else [])

/-- One descriptor of core `n` is applied at the present boundary (R245, R246); a MESSAGE word joins those of the boundary. -/
def applyCommit (n : Nat) (e : QEntry) (ms : List MsgWord) (s : State) : List MsgWord × State :=
  let a := e.words.getD 0 0
  let v := e.words.getD 1 0
  let kind := fget a 28 4
  let target := fget a 16 12
  let late := decide (e.lap < (lapD s : Int))
  let s1 := digestItem s.bnd 3 0 (commitDigest s n kind target v e.lap) s
  let s2 := if late then raise 183 (addSat s1 (TOP_COREn_COMMIT_LATE.COUNT n) 1) else s1
  let m : MsgWord := { slot := target, core := n, lap := e.lap, value := v, late := late }
  (if kind = 5 ∧ target < 64 then ms ++ [m] else ms, count 275 1 (applyKind kind target v s2))

/-- The head of the commit queue of core `n`, where it is due at the present boundary: it entered in an earlier lap and its commit
lap has come (R245). -/
def commitDue (s : State) (n : Nat) : Option QEntry :=
  match (queueOf s (60 + n)).items with
  | e :: _ => if e.bnd < s.bnd ∧ e.lap ≤ (lapD s : Int) then some e else none
  | [] => none

/-- Up to `k` descriptors of core `n` are applied, in push order. -/
def applyQueue (n : Nat) : Nat → List MsgWord → State → List MsgWord × State
  | 0, ms, s => (ms, s)
  | k + 1, ms, s =>
    match commitDue s n with
    | some e =>
      let x := queueOf s (60 + n)
      let r := applyCommit n e ms (setQueue (60 + n) { x with items := x.items.drop 1, pops := clk s :: x.pops } s)
      applyQueue n k r.1 r.2
    | none => (ms, s)

/-- The words of one message slot leave as frames of up to 16 words (R248). -/
def sendMessage (m : Nat) (ws : List MsgWord) (s : State) : State :=
  match ws with
  | [] => s
  | w0 :: _ =>
    let seq := tget (fun _ => 0) s.cores.msgSeq m
    let p := bytesLE 2 (fld s (TOP_MSGm_CFG.OBJECT m)) ++ bytesLE 1 (fld s TWN_CLAIM.VALUE) ++ bytesLE 1 ws.length ++
      bytesLE 1 w0.core ++ bytesLE 1 (bit (ws.any (fun w => w.late))) ++ bytesLE 2 0 ++ bytesLE 8 (unsignedOf 64 w0.lap) ++
      bytesLE 4 seq ++ bytesLE 4 0 ++ (ws.map (fun w => bytesLE 4 w.value.toNat)).flatten
    let s1 := setCores { s.cores with msgSeq := tput (fun _ => 0) s.cores.msgSeq m ((seq + 1) % 2 ^ 32) } s
    handFrame true (fld s1 (TOP_MSGm_CFG.PATH m)) (fld s1 (TOP_MSGm_CFG.ADDR m)) p (wr s1 (TOP_MSGm_SEQ m) (w32 seq))

/-- The MESSAGE words of the boundary leave, slot by slot in order of first application; `k` bounds the frames. -/
def sendMessages : Nat → List MsgWord → State → State
  | 0, _, s => s
  | k + 1, ms, s =>
    match ms with
    | [] => s
    | w :: _ =>
      let same := ms.filter (fun q => decide (q.slot = w.slot))
      let other := ms.filter (fun q => decide (q.slot ≠ w.slot))
      sendMessages k (same.drop 16 ++ other) (sendMessage w.slot (same.take 16) s)

/-- COMMIT_DESCRIPTOR_APPLY (R245): once at each boundary the commit queues are applied, Runner 0 to 3 and then the Steward, at most
16 descriptors each. -/
def execCommitDescriptorApply (s : State) : Host.Outcome State Fault Refusal :=
  if s.cores.commitAt < s.bnd then
    let s1 := setCores { s.cores with commitAt := s.bnd } s
    let r := (List.range 5).foldl (fun (r : List MsgWord × State) n => applyQueue n 16 r.1 r.2) ([], s1)
    done (sendMessages 80 r.1 r.2)
  else done s

end Sys2Proof.Machine
end

