-- ==== Sys2Proof/Machine/Lanes.lean ====
section
/-!
DEFINITION. The lanes: modes, rates, taps, states and the moves between them that touch nothing above a lane (spec/10_lanes.md R286 to
R303).
-/
namespace Sys2Proof.Machine
open Sys2Proof

def laneOf (s : State) (n : Nat) : Lane := tget (fun _ => ({ } : Lane)) s.lanes.lane n

def setLane (n : Nat) (x : Lane) (s : State) : State :=
  { s with lanes := { s.lanes with lane := tput (fun _ => ({ } : Lane)) s.lanes.lane n x } }

/-- A span of nanoseconds in 2^-16 ns. -/
def nsec (n : Nat) : Nat := n * unitsPerNs

/-! ### Modes and rates (R286, R287) -/

/-- The mode of a control word on lane `n`: 1 WOTEN, 2 10GBASE-R, 3 10GBASE-KR, 4 1000BASE-X, 5 TEST, 0 OFF; one that the lane does
not accept acts as OFF (R286). -/
def modeOf (n : Nat) (w : Word) : Nat :=
  let m := fget w 28 3
  if m = 1 ∨ m = 5 ∨ (2 ≤ n ∧ 2 ≤ m ∧ m ≤ 4) then m else 0

/-- The mode in force on lane `n`. -/
def laneMode (s : State) (n : Nat) : Nat := modeOf n (laneOf s n).taken

/-- STATE of a lane (R293): 0 OFF, 1 LISTEN, 2 ACQUIRE, 3 TRAIN, 4 TRAIN_PRESET, 5 CONFIRM, 6 UP, 7 RELOCK, 8 FAIL, 9 TEST. -/
def laneState (s : State) (n : Nat) : Nat := fld s (LNK_LANEn_STATUS.STATE n)

def laneUp (s : State) (n : Nat) : Bool := decide (laneState s n = 6)

def laneRate (s : State) (n : Nat) : Nat := fld s (LNK_LANEn_STATUS.RATE n)

/-- RATE_MAX as taken. -/
def laneTop (s : State) (n : Nat) : Nat := fget (laneOf s n).taken 26 2

/-- The bit rate in sixteenths of a bit per ns (R287). -/
def bitRate (s : State) (n : Nat) : Nat :=
  if laneMode s n = 2 ∨ laneMode s n = 3 then 165
  else if laneMode s n = 4 then 20
  else match laneRate s n with | 0 => 200 | 1 => 165 | 2 => 100 | _ => 50

/-- The bits that pass in a time of `t` units. -/
def bitsIn (s : State) (n t : Nat) : Nat := t * bitRate s n / (16 * unitsPerNs)

/-- The bit of the lane's stream that leaves now, counted over all rates. -/
def txBits (s : State) (n : Nat) : Nat := (laneOf s n).bitBase + bitsIn s n (clk s - (laneOf s n).bitAt)

/-! ### Errors injected into the bits (R300) -/

/-- Count inverted bits. -/
def injected (n k : Nat) (s : State) : State := addSat s (LNK_LANEn_INJ_COUNT.COUNT n) k

/-- The exponent of a rate window: 10 to 40. -/
def injExp (s : State) (n : Nat) : Nat := clampNat 10 40 (fld s (LNK_LANEn_INJ_CFG.RATE_EXP n))

/-- Whether the injector's target is present: the generator's output in TEST, or coded traffic (R300). -/
def injTargets (s : State) (n : Nat) : Bool :=
  if flag s (LNK_LANEn_INJ_CFG.TARGET n) then decide (laneState s n = 6)
  else decide (laneState s n = 9) && flag s (LNK_LANEn_PRBS_CTRL.GEN_EN n)

/-- The places of rate injection below `upTo`, of at most `fuel` windows from window `w` on, whose PRBS23 register is `reg`; and the window and
register after them. How a place comes from the register is not stated (log entry 104). -/
def ratePlaces (k from1 upTo : Nat) : Nat → Nat → Nat → List Nat × Nat × Nat
  | 0, w, reg => ([], w, reg)
  | fuel + 1, w, reg =>
    let p := from1 + w * 2 ^ k + Config.injectPlace k reg % 2 ^ k
    if p < upTo then
      let r := ratePlaces k from1 upTo fuel (w + 1) (prbsStep 23 reg)
      (p :: r.1, r.2)
    else ([], w, reg)

/-- The bits below `upTo` that rate injection inverts, one in each window of 2^k bits, and the lane after them. -/
def rateFlips (k upTo : Nat) (x : Lane) : List Nat × Lane :=
  if x.injFrom = 0 then ([], x)
  else
    let r := ratePlaces k (x.injFrom - 1) upTo ((upTo + 1 - x.injFrom) / 2 ^ k + 1 - x.injWin) x.injWin x.injReg
    (r.1, { x with injWin := r.2.1, injReg := r.2.2 })

/-- The inverted bits of the stream below `upTo`; those of rate injection are counted as they pass. -/
def flipsTo (n upTo : Nat) (s : State) : List Nat × State :=
  let x := laneOf s n
  let r := rateFlips (injExp s n) upTo x
  let y := { r.2 with flips := x.flips.filter (fun q => decide (upTo ≤ q)) }
  if injTargets s n then (x.flips.filter (fun q => decide (q < upTo)) ++ r.1, injected n r.1.length (setLane n y s))
  else ([], setLane n y s)

/-! ### Sending (R287, R291, R306) -/

/-- TX_INV as taken: the transmitted polarity is inverted. -/
def txInv (s : State) (n : Nat) : Bool := nbit (laneOf s n).taken.toNat 23

/-- Blocks leave from bit `p` of the lane's stream on. -/
def blocksAt (n p : Nat) (bs : List Block) (s : State) : State :=
  let stop := p + 66 * bs.length
  let q := flipsTo n stop s
  let x := laneOf q.2 n
  let r := runBytes (txInv q.2 n) q.1 x.scram p bs
  emit (.lane n) r.1 (setLane n { x with scram := r.2, txPos := stop } q.2)

/-- The first bit of the stream that is still free. -/
def txFree (s : State) (n : Nat) : Nat := max (txBits s n) (laneOf s n).txPos

/-! ### Training blocks as sent (R293, R294, R297) -/

/-- The eight bytes of training block number `k` as the lane has it now (R294). -/
def trainBlock (s : State) (n k : Nat) (go : Bool) : List Byte :=
  let x := laneOf s n
  let b := bytesLE 1 0x5A ++ bytesLE 1 (x.asks.1 + x.asks.2.1 * 4 + x.asks.2.2 * 16 + bit x.askPreset * 64) ++
    bytesLE 1 (x.answers.1 + x.answers.2.1 * 4 + x.answers.2.2 * 16 + bit x.rxReady * 64 + bit go * 128) ++
    bytesLE 1 (laneRate s n + n * 4 + fld s (LNK_LANEn_STATUS.ATTEMPT n) * 16) ++ bytesLE 2 (k % 65536) ++ bytesLE 1 0
  b ++ bytesLE 1 (crc8 b)

/-- A training frame of Clause 72 (R297; PRESUMED, log entry 93): the marker of 16 ones and 16 zeros, the
coefficient update and the status report in differential Manchester coding, the two runs of PRBS11 and the two zeros of the pattern. The seed of the
pattern is free. -/
def trainFrame72 (s : State) (n : Nat) : List Bool :=
  let x := laneOf s n
  let three := fun (t : Nat × Nat × Nat) => t.1 + t.2.1 * 4 + t.2.2 * 16
  let update := three x.asks + bit x.askPreset * 2 ^ 13
  let status := three x.answers + bit x.rxReady * 2 ^ 15
  List.replicate 16 true ++ List.replicate 16 false ++ manchester false (topBits 16 update ++ topBits 16 status) ++
    (prbsRun 11 4094 (1 + Config.trainSeed s.fresh % 2047)).1 ++ [false, false]

/-- The length of a Clause 72 training frame in bits. -/
def frame72Bits : Nat := 4384

/-- `k` training blocks or frames leave from bit `p` on; the last of the 64 of CONFIRM carries GO (R293). -/
def sendTraining (n p k : Nat) (s : State) : State :=
  let x := laneOf s n
  let confirm := decide (laneState s n = 5)
  let s1 := setLane n { x with blocks := (x.blocks + k) % 65536, confirm := if confirm then x.confirm + k else 0 } s
  if k = 0 then s
  else if laneMode s n = 3 then
    let sent := (List.range k).flatMap (fun i => (trainFrame72 { s with fresh := s.fresh + i } n).map (fun b => b != txInv s n))
    emit (.lane n) (packBits sent) (setLane n { laneOf s1 n with txPos := p + frame72Bits * k } { s1 with fresh := s1.fresh + k })
  else
    let go := fun (i : Nat) => confirm && decide (x.confirm + i + 1 = 64)
    blocksAt n p ((List.range k).map (fun i => (true, trainBlock s n (x.blocks + i) (go i)))) s1

/-- The training blocks or frames up to the present instant: without a break in ACQUIRE, TRAIN and TRAIN_PRESET, 64 in CONFIRM (R293). -/
def trainFlow (n : Nat) (s : State) : State :=
  let x := laneOf s n
  let k := (txBits s n - x.txPos) / (if laneMode s n = 3 then frame72Bits else 66)
  sendTraining n x.txPos (if laneState s n = 5 then min k (64 - x.confirm) else k) s

/-! ### The generator, the checker and loopback (R298, R299) -/

/-- The order of the sequence (R298, R303). -/
def laneOrder (s : State) (n : Nat) : Nat :=
  match fld s (LNK_LANEn_PRBS_CTRL.ORDER n) with | 0 => 7 | 1 => 9 | 2 => 15 | 3 => 23 | _ => 31

/-- One received bit (R298): without LOCK the register takes the bits as they come and counts those that follow the sequence; with LOCK
it runs on alone, and mismatches count. More than 32 among any 1 024 bits lose LOCK (DEDUCED: a sliding window, log entry 136). -/
def compareBit (order : Nat) (c : Checker) (b : Bool) : Checker :=
  let next := prbsStep order c.reg
  if c.lock then
    let miss := nbit next 0 != b
    let missed := c.missed + bit miss - bit (nbit c.hist 1023)
    let d := { c with reg := next, hist := (2 * c.hist + bit miss) % 2 ^ 1024, missed := missed, bits := satNat 48 (c.bits + 1),
                      errs := satNat 48 (c.errs + bit miss) }
    if 32 < missed then { d with lock := false, lost := true, run := 0, hist := 0, missed := 0 } else d
  else
    let run := if c.run < order ∨ nbit next 0 = b then c.run + 1 else 0
    { c with reg := (2 * c.reg + bit b) % 2 ^ order, run := run, lock := decide (order + 64 ≤ run), hist := 0, missed := 0 }

/-- The bits received in TEST reach the checker (R298); a lost LOCK posts LNK_PRBS_LOST. -/
def checkBits (n : Nat) (bits : List Bool) (s : State) : State :=
  if flag s (LNK_LANEn_PRBS_CTRL.CHK_EN n) then
    let x := laneOf s n
    let inv := flag s (LNK_LANEn_PRBS_CTRL.INV n) != nbit x.taken.toNat 22
    let c := bits.foldl (fun c b => compareBit (laneOrder s n) c (b != inv)) { x.chk with lost := false }
    let s1 := setFlag (setLane n { x with chk := c } s) (LNK_LANEn_PRBS_STATUS.LOCK n) c.lock
    if c.lost then raise 194 (setFlag s1 (LNK_LANEn_PRBS_STATUS.LOCK_LOST n) true) else s1
  else s

/-- TEST up to the present instant (R298, R299), with the bits that have arrived at the LRX ball: what leaves is the generator's output,
nothing in near-end loopback, and the received bits in far-end loopback. Inversion of the polarity acts at the balls, and so not on
the near-end path (DESIGN CHOICE, log entry 137). -/
def testFlow (n : Nat) (arrived : List Bool) (s : State) : State :=
  let x := laneOf s n
  let k := (txBits s n - x.txPos) / 8 * 8
  let stop := x.txPos + k
  let gen := flag s (LNK_LANEn_PRBS_CTRL.GEN_EN n)
  let r := if gen then prbsRun (laneOrder s n) k x.gen else ([], x.gen)
  let q := flipsTo n stop s
  let inv := flag s (LNK_LANEn_PRBS_CTRL.INV n)
  let made := r.1.mapIdx (fun i b => (b != inv) != decide (x.txPos + i ∈ q.1))
  let s1 := setLane n { laneOf q.2 n with gen := r.2, txPos := stop } q.2
  let loop := fget x.taken 20 2
  let rxInv := nbit x.taken.toNat 22
  let sent := if loop = 1 then [] else if loop = 2 then arrived.map (fun b => b != rxInv) else made
  let heard := if loop = 1 then made.map (fun b => b != rxInv) else arrived
  checkBits n heard (if sent = [] then s1 else emit (.lane n) (packBits (sent.map (fun b => b != txInv s n))) s1)

/-- Whether the lane sends idle while nothing else leaves: in UP and RELOCK, and without training from LISTEN on (R293; log entry 135). -/
def sendsIdle (s : State) (n : Nat) : Bool :=
  let st := laneState s n
  let m := laneMode s n
  (decide (st = 6 ∨ st = 7) && decide (1 ≤ m ∧ m ≤ 4)) || (decide (st = 1 ∨ st = 2) && decide (m = 2 ∨ m = 4))

/-- Code groups leave from bit `p` on. -/
def groupsAt (n p : Nat) (gs : List (Nat ⊕ Nat)) (s : State) : State :=
  let q := flipsTo n (p + 10 * gs.length) s
  let x := laneOf q.2 n
  let r := groupBytes (txInv q.2 n) q.1 p x.parity gs
  emit (.lane n) r.1 (setLane n { x with parity := r.2, txPos := p + 10 * gs.length } q.2)

/-- The idle up to the present instant: whole blocks of type 0x1E through the scrambler (R291, R306), in 1000BASE-X ordered sets of Clause 36
(log entry 135). -/
def idleFlow (n : Nat) (s : State) : State :=
  let x := laneOf s n
  let p := x.txPos
  let behind := txBits s n - p
  if behind = 0 then s
  else if laneMode s n = 4 then groupsAt n p (idleGroups x.parity ((behind + 19) / 20)) s
  else blocksAt n p (List.replicate ((behind + 65) / 66) idleBlock) s

/-- What lane `n` sends in its present state, up to the present instant. -/
def flow (n : Nat) (arrived : List Bool) (s : State) : State :=
  let st := laneState s n
  if st = 9 then testFlow n arrived s
  else if 2 ≤ st ∧ st ≤ 5 ∧ (laneMode s n = 1 ∨ laneMode s n = 3) then trainFlow n s
  else if sendsIdle s n then idleFlow n s
  else (flipsTo n (txBits s n) s).2

/-- Blocks leave behind what is being sent, and the idle before them. -/
def sendBlocks (n : Nat) (bs : List Block) (s : State) : State :=
  let s1 := flow n [] s
  blocksAt n (txFree s1 n) bs s1

/-- The bytes of a frame leave on a Woten lane (R306). -/
def sendLine (n : Nat) (bs : List Byte) (s : State) : State := sendBlocks n (frameBlocks bs) s

/-- The bytes of a frame leave on a lane with a MAC, behind a preamble: Clause 49, or in 1000BASE-X Clause 36 (R287, R336). -/
def sendMacFrame (n : Nat) (bs : List Byte) (s : State) : State :=
  if laneMode s n = 4 then
    let s1 := flow n [] s
    groupsAt n (txFree s1 n) (frameGroups bs) s1
  else sendLine n (List.replicate 6 0x55#8 ++ [0xD5#8] ++ bs) s

/-- The stream goes on from the present instant at another rate or in another state. -/
def rebase (n : Nat) (s : State) : State :=
  let s1 := flow n [] s
  let x := laneOf s1 n
  let b := txBits s1 n
  setLane n { x with bitBase := b, bitAt := clk s1, txPos := max x.txPos b } s1

/-! ### Stamps (R292) -/

/-- A time in ps, in 2^-16 ns. -/
def psUnits (p : Nat) : Int := (p * 65536 / 1000 : Nat)

/-- The transmit stamp of what leaves the LTX ball now (R292): the word-clock stamp, which lies before that instant by the true latency,
plus TX_LAT. -/
def txStamp (n : Nat) (s : State) : Nat :=
  ((now s : Int) - Config.trueLatency s.fresh n 0 + psUnits (fld s (LNK_LANEn_LAT.TX n))).toNat

/-- The receive stamp of what passes the LRX ball now (R292): the word-clock stamp less RX_LAT. -/
def rxStamp (n : Nat) (s : State) : Nat :=
  ((now s : Int) + Config.trueLatency s.fresh n 1 - psUnits (fld s (LNK_LANEn_LAT.RX n))).toNat

/-- The lane has a signal (STATUS.LOS = 0). -/
def hasSignal (s : State) (n : Nat) : Bool := !flag s (LNK_LANEn_STATUS.LOS n)

/-! ### Transmitter taps (R288, R294) -/

/-- The three coefficients of a taps word: PRE, MAIN, POST. -/
def tapsOf (w : Word) : Nat × Nat × Nat := (fget w 0 4, fget w 8 6, fget w 16 5)

/-- Both limits of R288. -/
def tapsFit (t : Nat × Nat × Nat) : Bool := decide (t.1 + t.2.1 + t.2.2 ≤ 63) && decide (t.1 + t.2.2 + 16 ≤ t.2.1)

def setTaps (n : Nat) (t : Nat × Nat × Nat) (s : State) : State :=
  wr s (LNK_LANEn_TX_TAPS n) (w32 (t.2.2 * 65536 + t.2.1 * 256 + t.1))

/-- Set taps that meet the limits of R288; others are not applied. -/
def offerTaps (n : Nat) (t : Nat × Nat × Nat) (s : State) : State := if tapsFit t then setTaps n t s else s

/-- The preset of the mode (R288). -/
def presetTaps (s : State) (n : Nat) : Nat × Nat × Nat :=
  match laneMode s n with
  | 1 => (4, 51, 8)
  | 3 => (0, 63, 0)
  | _ => tapsOf (rd s (LNK_LANEn_TX_TAPS_SET n))

/-! ### Moves (R293 to R296) -/

/-- The lane's state changes; what it sent in the state before is complete, and LNK_STATUS follows. -/
def enterLane (n st : Nat) (s : State) : State :=
  let s0 := rebase n s
  let s1 := setLane n { laneOf s0 n with since := clk s0, confirm := 0 } (setFld s0 (LNK_LANEn_STATUS.STATE n) st)
  let s2 := setFld s1 ⟨LNK_STATUS, n, 1⟩ (bit (decide (st = 6)))
  let s3 := setFld s2 ⟨LNK_STATUS, 8 + n, 1⟩ (bit (decide (st = 8)))
  if st = 6 ∨ st = 9 then s3 else wr s3 (LNK_LANEn_LAT n) 0

/-- RX_LAT and TX_LAT of UP and TEST (R292): the nominal latency, which the spec does not state, plus the trim. -/
def showLatency (n : Nat) (s : State) : State :=
  let part := fun (f : Fld) => unsignedOf 16 ((Config.nominalLatency (laneMode s n) (laneRate s n) : Int) + sfld s f)
  wr s (LNK_LANEn_LAT n) (w32 (part (LNK_LANEn_LAT_TRIM.RX n) * 65536 + part (LNK_LANEn_LAT_TRIM.TX n)))

/-- MODE and the other fields are taken (R293). -/
def takeControl (n : Nat) (s : State) : State :=
  let s0 := rebase n s
  let w := rd s0 (LNK_LANEn_CTRL n)
  setFlag (setLane n { laneOf s0 n with taken := w } s0) (LNK_LANEn_STATUS.BAD_MODE n) (decide (modeOf n w = 0))

/-- TEST is entered: no training, the taps of TX_TAPS_SET, the rate of RATE_MAX (R287, R288, R298). -/
def enterTest (n : Nat) (s : State) : State :=
  let s1 := setFld (enterLane n 9 s) (LNK_LANEn_STATUS.RATE n) (laneTop s n)
  showLatency n (offerTaps n (tapsOf (rd s1 (LNK_LANEn_TX_TAPS_SET n))) (setFld s1 (LNK_LANEn_STATUS.ATTEMPT n) 0))

/-- OFF (R293, R296): nothing is sent and the receiver is off. -/
def enterOff (n : Nat) (s : State) : State :=
  let s1 := enterLane n 0 s
  let s2 := setFld s1 ⟨LNK_STATUS, 4 + n, 1⟩ 0
  setFlag (setFld (setFlag s2 (LNK_LANEn_STATUS.ABSENT n) false) (LNK_LANEn_STATUS.ATTEMPT n) 0) (LNK_LANEn_STATUS.PARTNER_VALID n) false

/-- LISTEN (R293). -/
def enterListen (n : Nat) (s : State) : State :=
  let s1 := setFld (setFld (enterLane n 1 s) (LNK_LANEn_STATUS.RATE n) (laneTop s n)) (LNK_LANEn_STATUS.ATTEMPT n) 0
  setLane n { laneOf s1 n with absentPosted := false } (offerTaps n (presetTaps s1 n) s1)

/-- The start of one attempt at one rate (R293, R295): the control word is taken, and MODE = TEST leads to TEST. A mode that the lane
does not accept acts as OFF. A move from LISTEN to ACQUIRE posts LNK_SIGNAL (R293, R302). -/
def enterAcquire (n rate attempt : Nat) (s : State) : State :=
  let s1 := takeControl n s
  if laneMode s1 n = 5 then enterTest n s1
  else if laneMode s1 n = 0 then enterOff n s1
  else
    let s2 := raiseIf (decide (laneState s n = 1)) 188 (addSat (enterLane n 2 s1) (LNK_LANEn_COUNT.TRAININGS n) 1)
    let s3 := setFld (setFld s2 (LNK_LANEn_STATUS.RATE n) rate) (LNK_LANEn_STATUS.ATTEMPT n) attempt
    let x := laneOf s3 n
    setLane n { x with attempt := clk s3, rxReady := false, readyGot := 0, go := false, goodSeen := false, answers := (0, 0, 0),
                       asks := (0, 0, 0), askPreset := false, trainRun := 0 } (offerTaps n (presetTaps s3 n) s3)

/-- ACQUIRE at RATE_MAX with attempt 1; RATE_MAX is taken there. -/
def acquireTop (n : Nat) (s : State) : State :=
  let s1 := takeControl n s
  enterAcquire n (laneTop s1 n) 1 s1

/-- Signal has been detected: ABSENT and LOS clear (R293). -/
def signalSeen (n : Nat) (s : State) : State :=
  setFld (setFlag (setFlag s (LNK_LANEn_STATUS.LOS n) false) (LNK_LANEn_STATUS.ABSENT n) false) ⟨LNK_STATUS, 4 + n, 1⟩ 0

/-- The lane fails (R295). -/
def enterFail (n cause : Nat) (s : State) : State :=
  raise 192 (setFlag (setFld (enterLane n 8 s) (LNK_LANEn_STATUS.FAIL_CAUSE n) cause) (LNK_LANEn_SEEN.FAIL n) true)

/-- An attempt has failed (R295, R297): attempt 2, the next lower rate, or FAIL. Cause 1 where no good training block came, else 2. -/
def attemptFails (n : Nat) (s : State) : State :=
  let r := laneRate s n
  let w := (laneOf s n).taken
  let cause := if (laneOf s n).goodSeen then 2 else 1
  if fld s (LNK_LANEn_STATUS.ATTEMPT n) ≤ 1 then enterAcquire n r 2 s
  else if laneMode s n = 1 ∧ fget w 25 1 = 1 ∧ r < 3 then
    raise 191 (setFlag (enterAcquire n (r + 1) 1 s) (LNK_LANEn_SEEN.FALLBACK n) true)
  else enterFail n cause s

/-! ### Training blocks (R294) -/

/-- What a training block carries. -/
structure TrainBlock where
  req : Nat × Nat × Nat
  st : Nat × Nat × Nat
  preset : Bool
  ready : Bool
  go : Bool
  rate : Nat
  role : Nat
  attempt : Nat
deriving DecidableEq, Repr

/-- A training block of eight bytes whose TYPE and CRC are right. -/
def parseTrain (bs : List Byte) : Option TrainBlock :=
  let at1 := fun (i : Nat) => (bs.getD i 0).toNat
  if bs.length = 8 ∧ at1 0 = 0x5A ∧ crc8 (bs.take 7) = at1 7 then
    some { req := (at1 1 % 4, at1 1 / 4 % 4, at1 1 / 16 % 4), st := (at1 2 % 4, at1 2 / 4 % 4, at1 2 / 16 % 4), preset := nbit (at1 1) 6, ready := nbit (at1 2) 6, go := nbit (at1 2) 7,
           rate := at1 3 % 4, role := at1 3 / 4 % 4, attempt := at1 3 / 16 % 4 }
  else none

/-- A tap after a request: 1 INCREMENT, 2 DECREMENT; none where the tap would leave its own range. -/
def tapStep (req max x : Nat) : Option Nat :=
  if req = 1 then (if x < max then some (x + 1) else none) else if x = 0 then none else some (x - 1)

/-- The answer to one request and the taps after it: HOLD returns to NOT_UPDATED; a request is applied once, and one that would break
a limit is answered MINIMUM or MAXIMUM (R288, R294). -/
def answerTap (req was max : Nat) (x : Nat) (put : Nat → Nat × Nat × Nat) (taps : Nat × Nat × Nat) : Nat × (Nat × Nat × Nat) :=
  if req = 0 ∨ req = 3 then (0, taps)
  else if was ≠ 0 then (was, taps)
  else
    match tapStep req max x with
    | some y => if tapsFit (put y) then (1, put y) else (if req = 1 then 3 else 2, taps)
    | none => (if req = 1 then 3 else 2, taps)

/-- The partner's requests act on the taps while the lane is in TRAIN; in TRAIN_PRESET they are held (R293, R294). -/
def answerTaps (n : Nat) (b : TrainBlock) (s : State) : State :=
  let x := laneOf s n
  if laneState s n ≠ 3 then s
  else if b.preset then setLane n { x with answers := (1, 1, 1) } (offerTaps n (presetTaps s n) s)
  else
    let t := tapsOf (rd s (LNK_LANEn_TX_TAPS n))
    let a := answerTap b.req.1 x.answers.1 15 t.1 (fun y => (y, t.2.1, t.2.2)) t
    let m := answerTap b.req.2.1 x.answers.2.1 63 a.2.2.1 (fun y => (a.2.1, y, a.2.2.2)) a.2
    let p := answerTap b.req.2.2 x.answers.2.2 31 m.2.2.2 (fun y => (m.2.1, m.2.2.1, y)) m.2
    setLane n { x with answers := (a.1, m.1, p.1) } (setTaps n p.2 s)

/-- The next request of one coefficient (R294): a request is held until its status reads other than NOT_UPDATED, then HOLD until the
status is NOT_UPDATED again, then what the receiver wishes. -/
def nextAsk (ask st wish : Nat) : Nat := if ask ≠ 0 then (if st = 0 then ask else 0) else if st = 0 then wish else 0

/-- The requests of this lane's receiver in TRAIN (R293, R294): what it wishes is free, and a satisfied receiver wishes nothing. -/
def askTaps (n : Nat) (b : TrainBlock) (s : State) : State :=
  let x := laneOf s n
  if laneState s n ≠ 3 then s
  else
    let w := if x.rxReady then 0 else Config.tapWish s.fresh
    let still := x.askPreset && decide (b.st.1 = 0 ∨ b.st.2.1 = 0 ∨ b.st.2.2 = 0)
    let idle := decide (x.asks = (0, 0, 0)) && !x.askPreset && decide (b.st = (0, 0, 0))
    let preset := still || (idle && decide (w / 27 % 2 = 1))
    let wish := fun (k : Nat) => if preset || x.askPreset then 0 else w / k % 3
    let asks := (nextAsk x.asks.1 b.st.1 (wish 1), nextAsk x.asks.2.1 b.st.2.1 (wish 3), nextAsk x.asks.2.2 b.st.2.2 (wish 9))
    freshen (setLane n { x with asks := asks, askPreset := preset } s)

/-- TRAIN and TRAIN_PRESET lead to CONFIRM when RX_READY is set and 8 good blocks with RX_READY have come (R294). -/
def judgeConfirm (n : Nat) (s : State) : State :=
  let x := laneOf s n
  if (laneState s n = 3 ∨ laneState s n = 4) ∧ x.rxReady ∧ 8 ≤ x.readyGot then enterLane n 5 s else s

/-! ### Commands of the test functions (R298, R300) -/

/-- What the INJECT command does (R300): the first bit is that of the block, or of the bit, that the lane sends next. -/
def injectNow (n : Nat) (s : State) : State :=
  let s1 := complete (LNK_LANEn_CMD n) 0 (flow n [] s)
  let x := laneOf s1 n
  let p := txFree s1 n
  if !injTargets s1 n then s1
  else match fld s1 (LNK_LANEn_INJ_CFG.MODE n) with
    | 0 => s1
    | 1 => injected n 1 (setLane n { x with flips := x.flips ++ [p] } s1)
    | 2 =>
      let k := fld s1 (LNK_LANEn_INJ_CFG.LEN n) + 1
      injected n k (setLane n { x with flips := x.flips ++ (List.range k).map (fun i => p + i) } s1)
    | _ => setLane n { x with injFrom := p + 1, injWin := 0, injReg := prbsSeed 23 } s1

/-- Setting CHK_EN clears the counts; the checker seeds itself anew (R298). -/
def checkerStart (n : Nat) (s : State) : State :=
  setFlag (setLane n { laneOf s n with chk := { } } s) (LNK_LANEn_PRBS_STATUS.LOCK n) false

/-- The checker stops counting. -/
def checkerStop (n : Nat) (s : State) : State :=
  let x := laneOf s n
  setFlag (setLane n { x with chk := { x.chk with lock := false, run := 0 } } s) (LNK_LANEn_PRBS_STATUS.LOCK n) false

/-- The generator starts anew, seeded with all ones (the seed is not stated; log entry 137). -/
def genStart (n : Nat) (s : State) : State := setLane n { laneOf s n with gen := prbsSeed (laneOrder s n) } s

/-- CTLE_OVR = 1: the CTLE takes CTLE_SET (R289). -/
def overrideCtle (n : Nat) (s : State) : State :=
  if flag s (LNK_LANEn_RX_HOLD.CTLE_OVR n) then setFld s (LNK_LANEn_RX_EQ.CTLE n) (fld s (LNK_LANEn_RX_HOLD.CTLE_SET n)) else s

/-- Whether the transmitter uses TX_TAPS_SET (R288). -/
def tapsSetActs (s : State) (n : Nat) : Bool :=
  let m := laneMode s n
  decide (laneState s n ≠ 0) && decide (m = 2 ∨ m = 4 ∨ m = 5)

end Sys2Proof.Machine
end

