-- ==== Sys2Proof/Machine/Woten.lean ====
section
/-!
DEFINITION. The Woten line engine: frames, virtual channels, forwarding, addresses, time on the line, streaming and Spill
(spec/11_woten_line.md R304 to R327, R333, R335; spec/14_twin.md R373, R382).
-/
namespace Sys2Proof.Machine
open Sys2Proof

def setWot (x : Wot) (s : State) : State := { s with wot := x }

def linkOf (s : State) (l : Nat) : Link := tget (fun _ => ({ } : Link)) s.wot.link l

def setLink (l : Nat) (x : Link) (s : State) : State :=
  { s with wot := { s.wot with link := tput (fun _ => ({ } : Link)) s.wot.link l x } }

def vcOf (s : State) (l v : Nat) : LinkVc := tget (fun _ => ({ } : LinkVc)) (linkOf s l).vc v

def setVc (l v : Nat) (x : LinkVc) (s : State) : State :=
  setLink l { linkOf s l with vc := tput (fun _ => ({ } : LinkVc)) (linkOf s l).vc v x } s

/-! ### The block's place on the line (R304, R307, R318) -/

def wotOn (s : State) : Bool := flag s WOT_CTRL.EN

/-- HEAD: 1 west head, 2 east head; 3 acts as NONE (R304). -/
def headRole (s : State) : Nat := let h := fld s WOT_CTRL.HEAD; if h = 3 then 0 else h

def isHead (s : State) : Bool := wotOn s && decide (headRole s ≠ 0)

/-- The line address, where it is valid (R307). -/
def ownAddr (s : State) : Option Nat := if flag s WOT_STATUS.ADDR_VALID then some (fld s WOT_STATUS.ADDR) else none

/-- Whether link `l` runs: a WOTEN lane in UP, and on lanes 0 and 1 the line engine. -/
def linkUp (s : State) (l : Nat) : Bool := laneUp s l && decide (laneMode s l = 1) && (decide (l = 2) || wotOn s)

/-- Whether lane `l` carries the line onward: its link runs, and the hub is not a head on that side (R304). -/
def onLine (s : State) (l : Nat) : Bool :=
  linkUp s l && decide (l < 2) && !(decide (headRole s = 1) && decide (l = 0)) && !(decide (headRole s = 2) && decide (l = 1))

/-- The lane on which a frame of direction DIR leaves: west on lane 0, east on lane 1. -/
def laneToward (west : Bool) : Nat := if west then 0 else 1

/-- The lane that leads away from a head on its line. -/
def headLane (s : State) : Nat := if headRole s = 2 then 0 else 1

/-! ### Frames as bytes (R310, R311) -/

/-- The header without its HCRC. -/
def headerOf (f : LineFrame) : List Byte :=
  bytesLE 1 (64 + f.vc * 16 + f.type) ++
  bytesLE 1 (bit f.nak * 32 + bit f.retx * 16 + bit f.echo * 8 + bit f.bcast * 4 + bit f.cut * 2 + bit f.west) ++
  bytesLE 2 f.dst ++ bytesLE 2 (bit f.srcNone * 32768 + f.epoch * 1024 + f.src) ++ bytesLE 1 f.lseq ++ bytesLE 1 f.lack ++
  bytesLE 2 f.payload.length ++ bytesLE 2 f.hops ++ bytesLE 2 f.aux

/-- A whole frame. -/
def frameBytes (f : LineFrame) : List Byte :=
  let h := headerOf f
  let b := h ++ bytesLE 2 (crc16 h) ++ f.payload
  b ++ bytesLE 4 (crc32 b)

/-- What the checks of R311 say of the bytes of a frame; a header that holds is given with each failure behind it. -/
inductive Parsed where
  | badHeader
  | badCrc (f : LineFrame)
  | badForm (f : LineFrame)
  | good (f : LineFrame)
deriving DecidableEq, Repr

/-- The types of R312, and on the twin link those of R373. -/
def typeKnown (l type : Nat) : Bool :=
  if l = 2 then decide (type ∈ [0, 5, 9, 10, 11, 12, 13]) else decide (type ≤ 10)

/-- Parse and check the bytes of a frame on link `l`. -/
def parseFrame (l : Nat) (bs : List Byte) : Parsed :=
  let num := fun (i k : Nat) => ofBytesLE ((bs.drop i).take k)
  let size := bs.length
  if size < 20 ∨ crc16 (bs.take 14) ≠ num 14 2 then .badHeader
  else
    let b0 := num 0 1
    let b1 := num 1 1
    let sw := num 4 2
    let f : LineFrame := {
      vc := b0 / 16 % 4, type := b0 % 16, nak := nbit b1 5, retx := nbit b1 4, echo := nbit b1 3, bcast := nbit b1 2, cut := nbit b1 1,
      west := nbit b1 0, dst := num 2 2 % 1024, srcNone := nbit sw 15, epoch := sw / 1024 % 32, src := sw % 1024, lseq := num 6 1,
      lack := num 7 1, hops := num 10 2 % 1024, aux := num 12 2, payload := (bs.drop 16).take (size - 20) }
    if b0 / 64 ≠ 1 ∨ !typeKnown l f.type ∨ 492 < num 8 2 % 512 ∨ num 8 2 % 512 ≠ size - 20 then .badForm f
    else if crc32 (bs.take (size - 4)) ≠ num (size - 4) 4 then .badCrc f
    else .good f

/-! ### Counts of a link (R335) -/

def onCounts (l : Nat) (g : State → State) (s : State) : State := if l < 2 then g s else s

def countDrop (l k : Nat) (s : State) : State := onCounts l (fun s => addSat s (WOT_LINKl_DROP.DROP l) k) s
def countCrc (l : Nat) (s : State) : State := count (if l = 0 then 260 else if l = 1 then 261 else 0)
  (if l < 2 then 1 else 0) (onCounts l (fun s => addSat s (WOT_LINKl_ERR.CRC l) 1) s)
def countSeq (l : Nat) (s : State) : State := onCounts l (fun s => addSat s (WOT_LINKl_ERR.SEQ l) 1) s
def countRetx (l k : Nat) (s : State) : State := count (if l = 0 then 262 else 263) (if l < 2 then k else 0)
  (onCounts l (fun s => addSat s (WOT_LINKl_RETX.RETX l) k) s)

/-! ### Queues toward a link (R313, R316 to R318) -/

/-- The SRC fields of a frame that this hub originates. -/
def fromHere (s : State) (f : LineFrame) : LineFrame :=
  match ownAddr s with
  | some a => { f with src := a, srcNone := false }
  | none => { f with src := 0, srcNone := true }

/-- A new frame waits in its VC. -/
def enqueueFrame (l : Nat) (f : LineFrame) (s : State) : State :=
  let x := vcOf s l f.vc
  setVc l f.vc { x with queue := x.queue ++ [f] } s

/-- A cut-through frame waits for its egress. The good copy of one that has left with a bad CRC takes its slot, and of one that still waits its
place; a further bad copy takes no slot of its own (R316). -/
def enqueueCut (l : Nat) (c : CutFrame) (s : State) : State :=
  let x := vcOf s l c.frame.vc
  let y := linkOf s l
  let isHole := fun (u : Unacked) => c.arrival.isSome && decide (u.hole = some (c.lane, c.lseq))
  let waits := fun (d : CutFrame) =>
    c.arrival.isSome && d.arrival.isSome && d.bad && decide (d.lane = c.lane ∧ d.lseq = c.lseq ∧ d.frame.vc = c.frame.vc)
  if x.unacked.any isHole then
    let fill := fun (u : Unacked) => if isHole u then { frame := { c.frame with lseq := u.frame.lseq, retx := true } } else u
    if c.bad then s else setVc l c.frame.vc { x with unacked := x.unacked.map fill } s
  else if y.cut.any waits then
    if c.bad then s else setLink l { y with cut := y.cut.map (fun d => if waits d then c else d) } s
  else setLink l { y with cut := y.cut ++ [c] } s

/-- No lane: the upstream lane of a frame whose good copy can no longer come. -/
def noLane : Nat := 4

/-- The link layer of lane `l` starts anew, so no good copy comes of a bad frame that came over it. -/
def orphan (l : Nat) (s : State) : State :=
  let hole := fun (u : Unacked) => { u with hole := u.hole.map (fun h => if h.1 = l then (noLane, h.2) else h) }
  let wait := fun (c : CutFrame) => if c.bad && decide (c.lane = l) then { c with lane := noLane } else c
  let one := fun (s : State) (k : Nat) =>
    let y := linkOf s k
    setLink k { y with vc := y.vc.map (fun q => (q.1, { q.2 with unacked := q.2.unacked.map hole })), cut := y.cut.map wait } s
  [0, 1].foldl one s

/-- A frame goes on to the next hub in its direction, stored and forwarded; where it cannot, it is discarded and counted (R311,
R318). -/
def forwardWhole (f : LineFrame) (s : State) : State :=
  let l := laneToward f.west
  if 1023 ≤ f.hops then countDrop (1 - l) 1 s
  else if onLine s l then enqueueFrame l { f with hops := f.hops + 1 } s
  else countDrop l 1 s

/-- d_in of link `l` in 2^-16 ns, where it is valid (R319). -/
def delayIn (s : State) (l : Nat) : Option Int :=
  let x := linkOf s l
  if x.exchanges < 16 then none
  else
    let asym := if l < 2 then sfld s (WOT_LINKl_ASYM.ASYM l) else 0
    some ((x.delays.foldl (· + ·) 0) / 16 + asym * 65536 / 2000)

/-- A cut-through frame goes on (R316): none at the end of the line. -/
def forwardCut (a : Arrived) (s : State) : State :=
  let f := a.frame
  let l := laneToward f.west
  if 1023 ≤ f.hops then countDrop a.lane 1 s
  else if onLine s l then
    enqueueCut l { frame := { f with hops := f.hops + 1 }, arrival := some (a.stamp, (delayIn s a.lane).getD 0), lane := a.lane, lseq := f.lseq,
                   bad := a.bad } s
  else s

/-- Output frames for the line leave their outputs (R215, R248): as COMMAND frames on VC0 toward their address. A hub without a valid
address originates none; one to this hub's own address has arrived. -/
def moveFrames (s : State) : State :=
  let mine := s.out.frames.filter (fun q => decide (q.path = 0))
  let s1 := setOut { s.out with frames := s.out.frames.filter (fun q => decide (q.path ≠ 0)) } s
  mine.foldl (fun s q =>
    match ownAddr s with
    | none => s
    | some a =>
      let f := fromHere s { type := 1, dst := q.dest, west := decide (q.dest < a), aux := bit q.message, payload := q.data }
      if q.dest = a then setWot { s.wot with inbox := s.wot.inbox ++ [{ lane := 0, stamp := clk s, frame := f }] } s
      else
        let l := laneToward f.west
        if onLine s l then enqueueFrame l f s else countDrop l 1 s) s1

/-! ### Streaming and Spill (R323 to R327) -/

/-- The address that STREAM frames carry: STREAM_ADDR in a twin pair (R382). -/
def streamAddr (s : State) : Nat := if flag s TWN_CTRL.EN then fld s TWN_CFG.STREAM_ADDR else (ownAddr s).getD 0

/-- Whether the Spill region lies in the Archive class (R324). -/
def spillGood (s : State) : Bool := inClass s 2 (rd s WOT_SPILL_BASE).toNat (rd s WOT_SPILL_SIZE).toNat

/-- Whether streaming runs. -/
def streaming (s : State) : Bool := flag s WOT_CTRL.STREAM_EN && !flag s WOT_STATUS.SPILL_BAD

/-- Signed difference of 32-bit counts. -/
def sdiff32 (b a : Nat) : Int := signed 32 (unsignedOf 32 ((b : Int) - a))

/-- WOT_SPILL_FILL and WOT_STREAM_UNACKED follow Spill. -/
def showSpill (s : State) : State :=
  let s1 := wr s WOT_SPILL_FILL (w32 s.wot.spill.length)
  match s.wot.spill with
  | (n, _) :: _ => wr s1 WOT_STREAM_UNACKED (w32 n)
  | [] => wr s1 WOT_STREAM_UNACKED (rd s1 WOT_STREAM_NEXT)

/-- Frame `n` has been sent. -/
def streamSent (n : Nat) (s : State) : State :=
  let next := (n + 1) % 2 ^ 32
  setWot { s.wot with sendNext := next, sentTop := if 0 < sdiff32 next s.wot.sentTop then next else s.wot.sentTop } s

/-- Spill is freed through NEXT - 1 (R325); frames not yet sent that are acknowledged need no sending. -/
def freeSpill (next : Nat) (s : State) : State :=
  let keep := s.wot.spill.filter (fun q => decide (0 ≤ sdiff32 q.1 next))
  let sent := if sdiff32 s.wot.sendNext next < 0 then next else s.wot.sendNext
  let s1 := showSpill (setWot { s.wot with spill := keep, sendNext := sent } s)
  setFlag s1 WOT_STATUS.SPILL_FULL (flag s1 WOT_STATUS.SPILL_FULL && decide (keep.length = s.wot.spill.length))

/-- The STREAM frame of a channel's open records (R323). -/
def streamFrame (s : State) (c num : Nat) (rs : List (Word × Word)) : LineFrame :=
  { vc := 1, type := 3, epoch := fld s WOT_STREAM_CFG.EPOCH, src := streamAddr s, srcNone := (ownAddr s).isNone,
    aux := c + rs.length * 256, payload := bytesLE 4 num ++ (rs.map (fun r => bytesLE 4 r.1.toNat ++ bytesLE 4 r.2.toNat)).flatten }

/-- A closed frame is written to its Spill slot. -/
def spillFrame (num : Nat) (f : LineFrame) (s : State) : State :=
  let slots := (rd s WOT_SPILL_SIZE).toNat / 512
  let k := s.wot.slot % max 1 slots
  let s1 := captureWrite ((rd s WOT_SPILL_BASE).toNat + k * 512) (frameBytes f) s
  showSpill (setWot { s1.wot with spill := s1.wot.spill ++ [(num, k, f)], slot := (k + 1) % max 1 slots } s1)

/-- A frame is lost (R327). -/
def spillLost (s : State) : State :=
  let was := flag s WOT_STATUS.SPILL_FULL
  raiseIf (!was) 202 (count 259 1 (setFlag (addSat s WOT_SPILL_LOST.VALUE 1) WOT_STATUS.SPILL_FULL true))

/-- The open STREAM frame of channel `c` closes (R323, R327). -/
def closeStream (c : Nat) (s : State) : State :=
  let o := tget (fun _ => (([] : List (Word × Word)), 0)) s.wot.openFrames c
  if o.1 = [] then s
  else
    let num := (rd s WOT_STREAM_NEXT).toNat
    let f := streamFrame s c num o.1
    let s1 := wr (setWot { s.wot with openFrames := tdrop s.wot.openFrames c } s) WOT_STREAM_NEXT (w32 (num + 1))
    let s2 := count 258 1 s1
    if s2.wot.spill.length < (rd s2 WOT_SPILL_SIZE).toNat / 512 then
      setFlag (spillFrame num f s2) WOT_STATUS.SPILL_FULL false
    else if flag s2 WOT_STREAM_CFG.POLICY then
      spillFrame num f (spillLost (setWot { s2.wot with spill := s2.wot.spill.drop 1 } s2))
    else showSpill (spillLost s2)

/-- A record joins its channel's open STREAM frame, which is assembled in the record buffer (R323, R324); a full one closes first. -/
def streamRecord (r : Rec) (s : State) : State :=
  let get := fun (s : State) => tget (fun _ => (([] : List (Word × Word)), 0)) s.wot.openFrames r.chan
  let s1 := if 61 ≤ (get s).1.length then closeStream r.chan s else s
  let o := get s1
  let first := if o.1 = [] then s1.bnd else o.2
  let recs := o.1 ++ [(r.value, w32 (r.seq * 256 + r.tag))]
  setFill (s1.red.fill + 8) (setWot { s1.wot with openFrames := tins (tdrop s1.wot.openFrames r.chan) r.chan (recs, first) } s1)

/-- FLUSH in laps; 0 acts as 1. -/
def flushLaps (s : State) : Nat := 1024 * max 1 (fld s WOT_STREAM_CFG.FLUSH)

/-- STREAM_FRAME_CLOSE (R323): a frame of 61 records, or one whose oldest record has waited FLUSH. -/
def execStreamFrameClose (c : Fin 256) (s : State) : Host.Outcome State Fault Refusal :=
  let o := tget (fun _ => (([] : List (Word × Word)), 0)) s.wot.openFrames c
  if 61 ≤ o.1.length ∨ (o.1 ≠ [] ∧ o.2 + flushLaps s ≤ s.bnd) then done (closeStream c s) else done s

/-- The next frame to send: the oldest in Spill that is not before the next number, which passes those that were dropped (R324, R327). -/
def nextStream (s : State) : Option (Nat × Nat × LineFrame) := s.wot.spill.find? (fun q => decide (0 ≤ sdiff32 q.1 s.wot.sendNext))

/-- Whether frame `n` is sent from the record buffer: in stage 0 and for the first time (R161, R324). -/
def fromBuffer (n : Nat) (s : State) : Bool := decide (fld s RED_STATUS.BP_STAGE = 0) && decide (0 ≤ sdiff32 n s.wot.sentTop)

/-- A frame as the bytes of its Spill slot give it; where they do not hold its header, its payload is taken from them. -/
def spillCopy (f : LineFrame) (bs : List Byte) : LineFrame :=
  match parseFrame 0 bs with
  | .good g => g
  | .badCrc g => g
  | _ => { f with payload := (bs.drop 16).take f.payload.length }

/-- The frame `f` of number `n` in slot `k`, for sending: from the buffer, or from Spill as Archive traffic; none while that has to wait (R324,
R362). It carries the address that is valid now (R310, R382). -/
def fetchStream (n k : Nat) (f : LineFrame) (s : State) : Option LineFrame × State :=
  let a := (rd s WOT_SPILL_BASE).toNat + k * 512
  let own := fun (g : LineFrame) => { g with src := streamAddr s, srcNone := false }
  if fromBuffer n s then (some (own f), s)
  else if mustWait s 1 a then (none, awaitRead 1 a s)
  else
    let r := engineRead 1 (frameBytes f).length a s
    (some (own (spillCopy f r.1)), r.2)

/-- The next own frame goes to its VC while that has no frame waiting (R324, R326). -/
def feedStream (l : Nat) (s : State) : State :=
  let dir := fld s WOT_STATUS.DATA_DIR
  let own := flag s ETH_GW_CFG.EN && flag s ETH_GW_CFG.OWN_STREAM
  let may := decide (dir ≠ 0) && decide (laneToward (decide (dir = 1)) = l) && !isHead s && !own && onLine s l &&
    (ownAddr s).isSome && (!flag s TWN_CTRL.EN || holdsTop s) && decide ((vcOf s l 1).queue = [])
  match nextStream s with
  | some (n, k, f) =>
    if !may then s
    else
      let r := fetchStream n k f s
      match r.1 with
      | some g => enqueueFrame l { g with west := decide (dir = 1) } (streamSent n r.2)
      | none => r.2
  | none => s

/-! ### The data direction (R326) -/

def seenOf (s : State) (west : Bool) : HeadSeen := if west then s.wot.west else s.wot.east
def setSeen (west : Bool) (x : HeadSeen) (s : State) : State :=
  if west then setWot { s.wot with west := x } s else setWot { s.wot with east := x } s

def reachFld (west : Bool) : Fld := if west then WOT_STATUS.REACH_W else WOT_STATUS.REACH_E
def hopsFld (west : Bool) : Fld := if west then WOT_HEADS.HOPS_W else WOT_HEADS.HOPS_E
def reaches (s : State) (west : Bool) : Bool := flag s (reachFld west)

/-- The nearer reachable head: 0 none, 1 west, 2 east; on equal counts west. -/
def nearerHead (s : State) : Nat :=
  if reaches s true && (!reaches s false || decide (fld s WOT_HEADS.HOPS_W ≤ fld s WOT_HEADS.HOPS_E)) then 1
  else if reaches s false then 2 else 0

/-- Discard the transit STREAM frames queued on a lane, and count them. -/
def dropTransit (l : Nat) (s : State) : State :=
  let x := vcOf s l 1
  let isTransit := fun (f : LineFrame) => decide (f.type = 3) && decide (f.src ≠ streamAddr s)
  countDrop l (x.queue.filter isTransit).length (setVc l 1 { x with queue := x.queue.filter (fun f => !isTransit f) } s)

/-- The number from which frames are sent again. -/
def resendStream (s : State) : State := setWot { s.wot with sendNext := (rd s WOT_STREAM_UNACKED).toNat } s

/-- The data direction becomes `d`; on a change the hub posts WOT_REROUTE and sends again (R326). -/
def setDirection (d : Nat) (s : State) : State :=
  let old := fld s WOT_STATUS.DATA_DIR
  if old = d then s
  else
    let s1 := resendStream (setFld s WOT_STATUS.DATA_DIR d)
    let gone := decide (old ≠ 0) && !reaches s1 (decide (old = 1))
    let l := laneToward (decide (old = 1))
    let s2 := if gone then dropTransit l s1 else s1
    let x := vcOf s2 l 1
    let mine := fun (f : LineFrame) => decide (f.type = 3) && decide (f.src = streamAddr s2)
    raise 201 (if old = 0 then s2 else setVc l 1 { x with queue := x.queue.filter (fun f => !mine f) } s2)

/-- The direction is judged when the present head is unreachable, or there is none. -/
def judgeDirection (s : State) : State :=
  let d := fld s WOT_STATUS.DATA_DIR
  if d = 0 ∨ !reaches s (decide (d = 1)) then setDirection (nearerHead s) s else s

/-- A head is no longer reachable. -/
def loseHead (west : Bool) (s : State) : State :=
  judgeDirection (setSeen west { seenOf s west with reach := none } (setFlag s (reachFld west) false))

/-- HEAD_UNREACHABLE (R326): the lane toward the head has left UP, or no Baton frame has come for REROUTE_HOLD. -/
def execHeadUnreachable (west : Bool) (ofs : Nat) (s : State) : Host.Outcome State Fault Refusal :=
  let s0 := atOfs ofs s
  let silent := match (seenOf s0 west).baton with
    | some t => decide (t + nsec (1000000 * max 1 (fld s0 WOT_TIMING.REROUTE_HOLD)) ≤ clk s0)
    | none => true
  if reaches s0 west && (!linkUp s0 (laneToward west) || silent) then done (loseHead west s0) else done s0

/-- REVERT_HOLD_EXPIRE (R326). -/
def execRevertHoldExpire (s : State) : Host.Outcome State Fault Refusal :=
  let n := nearerHead s
  let held := match (seenOf s (decide (n = 1))).reach with
    | some t => decide (t + nsec (1000000000 * fld s WOT_TIMING.REVERT_HOLD) ≤ clk s)
    | none => false
  if held && decide (n ≠ 0 ∧ n ≠ fld s WOT_STATUS.DATA_DIR) then done (setDirection n s) else done s

/-- REROUTE (R326, R335). -/
def execReroute (s : State) : Host.Outcome State Fault Refusal :=
  if flag s WOT_CTRL.STREAM_EN then done (complete WOT_CMD 0 (setDirection (nearerHead s) s)) else done (refuse WOT_CMD s)

/-- The address that a running engine has without an accession frame: a fixed one, and 0 at the west head (R307). -/
def takeAddr (s : State) : State :=
  if !wotOn s || flag s WOT_STATUS.ADDR_VALID then s
  else if flag s WOT_ADDR.FIXED then setFlag (setFld s WOT_STATUS.ADDR (fld s WOT_ADDR.FIXED_ADDR)) WOT_STATUS.ADDR_VALID true
  else if headRole s = 1 then setFlag (setFld s WOT_STATUS.ADDR 0) WOT_STATUS.ADDR_VALID true
  else s

/-- A head's distance to itself is 0 (R309). -/
def ownDistance (s : State) : State :=
  if headRole s = 1 then setFld s WOT_HEADS.HOPS_W 0 else if headRole s = 2 then setFld s WOT_HEADS.HOPS_E 0 else s

/-- RENUMBER (R307, R335): the west head takes address 0 again at once. -/
def execRenumber (s : State) : Host.Outcome State Fault Refusal :=
  if wotOn s && !flag s WOT_ADDR.FIXED then done (complete WOT_CMD 0 (takeAddr (setFlag s WOT_STATUS.ADDR_VALID false)))
  else done (refuse WOT_CMD s)

/-! ### The link layer (R313 to R315) -/

/-- WOT_LINKl_STATUS shows whether the link layer runs. -/
def showLink (l : Nat) (s : State) : State := if l < 2 then setFlag s (WOT_LINKl_STATUS.UP l) (linkUp s l) else s

/-- Whether a frame is this hub's own. -/
def isOwn (s : State) (f : LineFrame) : Bool := decide (f.hops = 0) && (f.srcNone || decide (some f.src = ownAddr s) || decide (f.type = 3))

/-- The delay of a link is measured afresh since the lane last entered UP (R319). -/
def freshDelay (l : Nat) (s : State) : State :=
  let s1 := setLink l { linkOf s l with delays := [], exchanges := 0, accession := 0, split := 0, mismatch := false } s
  if l < 2 then setFlag s1 (WOT_LINKl_STATUS.DELAY_VALID l) false else s1

/-- The link layer of link `l` starts at LSEQ 0 with every queue empty (R315). -/
def linkReset (l : Nat) (s : State) : State :=
  let x := linkOf s l
  let held := ((List.range 4).map (fun v => (vcOf s l v).unacked.map (fun u => u.frame) ++ (vcOf s l v).queue)).flatten ++
    x.cut.map (fun c => c.frame)
  let lost := held.filter (fun f => !isOwn s f || decide (f.type = 1) || decide (f.type = 2) || decide (f.type = 5))
  let s1 := orphan l (countDrop l lost.length (setLink l { x with vc := [], acks := [], cut := [] } s))
  let s2 := if l < 2 then raise 200 (addSat s1 (WOT_LINKl_STATUS.RESETS l) 1) else s1
  showLink l (freshDelay l (if l < 2 then resendStream s2 else s2))

/-- The LSEQ of the oldest unacknowledged frame. -/
def baseSeq (x : LinkVc) : Nat := (x.next + 256 - x.unacked.length) % 256

/-- The partner expects LSEQ `lack`: the frames before it are acknowledged (R313, R314). -/
def takeLack (l v lack : Nat) (s : State) : State :=
  let x := vcOf s l v
  let k := (lack + 256 - baseSeq x) % 256
  if 0 < k ∧ k ≤ x.unacked.length then
    let again := if k = x.unacked.length then none else x.again.map (fun i => i - k)
    setVc l v { x with unacked := x.unacked.drop k, again := again, since := clk s, tries := 0 } s
  else s

/-- Every unacknowledged frame is sent again from the oldest (R313, R314). -/
def resendAll (l v : Nat) (s : State) : State :=
  let x := vcOf s l v
  if x.unacked = [] then s else setVc l v { x with again := some 0, since := clk s } s

/-- An ACK frame for VC `v` waits (R314). -/
def oweAck (l v : Nat) (nak : Bool) (s : State) : State :=
  let x := linkOf s l
  if (v, nak) ∈ x.acks then s else setLink l { x with acks := x.acks ++ [(v, nak)] } s

/-- One NAK for each expected value (R314). -/
def oweNak (l v : Nat) (s : State) : State :=
  let x := vcOf s l v
  if x.naked then s else oweAck l v true (setVc l v { x with naked := true } s)

/-- An ACK or NAK frame has come (R314). -/
def takeAck (l : Nat) (f : LineFrame) (s : State) : State :=
  let s1 := takeLack l f.vc f.lack s
  if f.nak then resendAll l f.vc s1 else s1

/-- A frame of VC `v` is accepted and delivered (R313). -/
def acceptFrame (l : Nat) (f : LineFrame) (s : State) : State :=
  let x := vcOf s l f.vc
  let owedAt := if x.owed = 0 then clk s else x.owedAt
  let s1 := setVc l f.vc { x with expect := (x.expect + 1) % 256, owed := x.owed + 1, owedAt := owedAt, naked := false } s
  freshen (setWot { s1.wot with inbox := s1.wot.inbox ++ [{ lane := l, stamp := rxStamp l s1, frame := f }] } s1)

/-- The instant of the latest good frame on the twin link (R374). -/
def heardTwin (l : Nat) (s : State) : State :=
  if l = 2 then { s with twin := { s.twin with heard := tick s } } else s

/-- Traffic ends a run of training blocks (R296). -/
def trafficOn (l : Nat) (s : State) : State := setLane l { laneOf s l with trainRun := 0 } s

/-- WOT_FRAME_RECEIVE (R311, R313): the bytes of a frame whose first bit passed the LRX ball at instant `ofs`. -/
def execWotFrameReceive (l : Fin 3) (ofs : Nat) (bytes : List Byte) (s : State) : Host.Outcome State Fault Refusal :=
  whileAwake (fun s =>
    let s0 := trafficOn l (atOfs ofs s)
    if !linkUp s0 l then done s0
    else
      match parseFrame l bytes with
      | .badHeader => done (countCrc l s0)
      | .badForm f => done (oweNak l f.vc (countDrop l 1 s0))
      | .badCrc f =>
        let s1 := oweNak l f.vc (countCrc l s0)
        if f.cut && decide (f.lseq = (vcOf s0 l f.vc).expect) && decide (l.val < 2) then
          done (freshen (setWot { s1.wot with inbox := s1.wot.inbox ++ [{ lane := l, stamp := rxStamp l s1, frame := f, bad := true }] } s1))
        else done s1
      | .good f =>
        let s1 := heardTwin l s0
        if f.type = 0 then done (takeAck l f s1)
        else
          let s2 := takeLack l f.vc f.lack s1
          if f.lseq = (vcOf s2 l f.vc).expect then done (acceptFrame l f s2)
          else done (oweNak l f.vc (countSeq l s2))) s

/-- ACK_RECEIVE (R314). -/
def execAckReceive (l : Fin 3) (ofs : Nat) (bytes : List Byte) (s : State) : Host.Outcome State Fault Refusal :=
  whileAwake (fun s =>
    let s0 := trafficOn l (atOfs ofs s)
    if !linkUp s0 l then done s0
    else
      match parseFrame l bytes with
      | .good f => if f.type = 0 then done (takeAck l f (heardTwin l s0)) else done s0
      | .badForm _ => done (countDrop l 1 s0)
      | _ => done (countCrc l s0)) s

/-- ACK_SEND (R314): after 16 accepted frames, or 2 µs after one that is not acknowledged. -/
def execAckSend (l : Fin 3) (v : Fin 4) (ofs : Nat) (s : State) : Host.Outcome State Fault Refusal :=
  let s0 := atOfs ofs s
  let x := vcOf s0 l v
  if linkUp s0 l && (decide (16 ≤ x.owed) || (decide (0 < x.owed) && decide (x.owedAt + nsec 2000 ≤ clk s0))) then
    done (oweAck l v false (setVc l v { x with owed := 0 } s0))
  else done s0

/-! ### The egress (R317, R333) -/

/-- The order in which VCs are served. -/
def vcOrder : List Nat := [3, 0, 2, 1]

/-- Whether VC `v` may send now: no frame of it is held by the injector. -/
def vcFree (s : State) (l v : Nat) : Bool := (vcOf s l v).held.isNone

/-- Whether VC `v` has room in its window. -/
def hasWindow (s : State) (l v : Nat) : Bool := decide ((vcOf s l v).unacked.length < 128) && vcFree s l v

/-- The 80-bit form of a line time (R12): ns and its fraction, ten bytes. -/
def stampBytes (t : Nat) : List Byte := bytesLE 8 (nsOf t) ++ bytesLE 2 (fracOf t)

/-- A stamp read back. -/
def stampAt (bs : List Byte) (i : Nat) : Nat := ofBytesLE ((bs.drop i).take 8) * unitsPerNs + ofBytesLE ((bs.drop (i + 8)).take 2)

/-- Replace bytes of a payload. -/
def patch (bs : List Byte) (i : Nat) (new : List Byte) : List Byte := bs.take i ++ new ++ bs.drop (i + new.length)

/-- The stamps that are inserted as a frame is sent (R319, R320): t1 of a request, t3 of a response, ORIGIN of a head's own Baton
frame. -/
def withStamps (t : Nat) (f : LineFrame) : LineFrame :=
  if f.type = 9 then { f with payload := patch f.payload 0 (stampBytes t) }
  else if f.type = 10 then { f with payload := patch f.payload 20 (stampBytes t) }
  else if f.type = 7 ∧ f.hops = 0 then { f with payload := patch f.payload 0 (stampBytes t) }
  else f

/-- A forwarder adds the delay toward this hub and the residence to CORRECTION (R321). -/
def withCorrection (t : Nat) (c : CutFrame) : LineFrame :=
  match c.arrival with
  | some (at0, d) =>
    if c.frame.type = 7 then
      let old := signed 64 (ofBytesLE ((c.frame.payload.drop 0xC).take 8))
      { c.frame with payload := patch c.frame.payload 0xC (bytesLE 8 (unsignedOf 64 (old + d + ((t : Int) - at0)))) }
    else c.frame
  | none => c.frame

/-- Invert one bit of a frame behind its header. -/
def corrupt (k : Nat) (bs : List Byte) : List Byte :=
  let i := 16 + k / 8 % max 1 (bs.length - 16)
  bs.set i (bs.getD i 0 ^^^ BitVec.ofNat 8 (2 ^ (k % 8)))

/-- Whether the injector selects this frame, and the state after it counted it (R333). -/
def selects (l v : Nat) (s : State) : Bool × State :=
  if flag s WOT_INJ_CFG.EN && decide (fld s WOT_INJ_CFG.LANE = l) && nbit (fld s WOT_INJ_CFG.VCS) v then
    let i := s.wot.injCount
    let s1 := setWot { s.wot with injCount := i + 1 } s
    match fld s WOT_INJ_CFG.MODE with
    | 1 =>
      let k := min 20 (fld s WOT_INJ_CFG.RATE_EXP)
      let reg := s.wot.injReg
      let next := if (i + 1) % 2 ^ k = 0 then prbsStep 23 reg else reg
      (decide (i % 2 ^ k = Config.injectPlace k reg % 2 ^ k), setWot { s1.wot with injReg := next } s1)
    | 2 => (nbit (rd s WOT_INJ_PATTERN).toNat (i % 32), s1)
    | _ => (true, setFlag s1 WOT_INJ_CFG.EN false)
  else (false, s)

/-- A frame leaves, and those that were kept for after it follow (R333). -/
def sendKept (l v : Nat) (bs : Option (List Byte)) (s : State) : State :=
  let x := vcOf s l v
  (bs.toList ++ x.after).foldl (fun s b => sendLine l b s) (setVc l v { x with after := [] } s)

/-- The bytes of a sequenced frame leave, disturbed where the injector says so; frames kept for after this one follow it, and with it where it is
kept itself (R333). -/
def launch (l v : Nat) (bs : List Byte) (s : State) : State :=
  let q := selects l v s
  let s1 := if q.1 then addSat q.2 WOT_INJ_COUNT.VALUE 1 else q.2
  let x := vcOf s1 l v
  let act := fld s1 WOT_INJ_CFG.ACTION
  if !q.1 then sendKept l v (some bs) s1
  else if act = 0 then sendKept l v none s1
  else if act = 1 then sendKept l v (some (corrupt (Config.corruptBit s1.fresh) bs)) (freshen s1)
  else if act = 2 then setVc l v { x with held := some (bs, clk s1 + nsec (1000 * max 1 (fld s1 WOT_INJ_DELAY.VALUE % 65536))) } s1
  else setVc l v { x with after := bs :: x.after } s1

/-- The bytes of a frame whose CRC-32 cannot match (R316). -/
def spoiled (f : LineFrame) : List Byte :=
  let b := frameBytes f
  let i := b.length - 1
  b.set i (~~~ b.getD i 0)

/-- A frame takes the next LSEQ of its VC and leaves (R313, R316); SRC of this hub's own frame is the address that is valid as it is
sent (R310). -/
def sendFrame (l : Nat) (f0 : LineFrame) (hole : Option (Nat × Nat)) (s0 : State) : State :=
  let s := freshen s0
  let f := if f0.srcNone && decide (f0.hops = 0) then fromHere s f0 else f0
  let x := vcOf s l f.vc
  let g := withStamps (txStamp l s) { f with lseq := x.next, lack := x.expect }
  let since := if x.unacked = [] then clk s else x.since
  let s1 := setVc l f.vc { x with next := (x.next + 1) % 256, unacked := x.unacked ++ [{ frame := g, hole := hole }], since := since,
                                  owed := 0 } s
  launch l f.vc (if hole.isSome then spoiled g else frameBytes g) s1

/-- The ACK frame for a VC (R314). -/
def sendAck (l v : Nat) (nak : Bool) (s : State) : State :=
  let x := vcOf s l v
  let f := fromHere s { vc := v, nak := nak, west := decide (l = 0), lack := x.expect }
  sendLine l (frameBytes f) (setVc l v { x with owed := 0 } s)

/-- The next frame of VC `v` that is sent again, if its good copy is here. -/
def againFrame (s : State) (l v : Nat) : Option (Nat × LineFrame) :=
  let x := vcOf s l v
  match x.again with
  | some i =>
    match x.unacked[i]? with
    | some u => if u.hole.isSome || !vcFree s l v then none else some (i, u.frame)
    | none => none
  | none => none

/-- A frame is sent again, marked RETX and counted (R313); ACK_TO runs from the sending of the oldest. -/
def sendAgain (l v i : Nat) (f : LineFrame) (s0 : State) : State :=
  let s := freshen s0
  let x := vcOf s l v
  let g := withStamps (txStamp l s) { f with retx := true, lack := x.expect }
  let more := if i + 1 < x.unacked.length then some (i + 1) else none
  let s1 := setVc l v { x with again := more, unacked := x.unacked.set i { frame := g }, since := if i = 0 then clk s else x.since, owed := 0 } s
  launch l v (frameBytes g) (countRetx l 1 s1)

/-- FRAME_BOUNDARY (R317): the egress of link `l` picks the next frame, whose first bit leaves the LTX ball at instant `ofs`. -/
def execFrameBoundary (l : Fin 3) (ofs : Nat) (s : State) : Host.Outcome State Fault Refusal :=
  whileAwake (fun s =>
    let s0 := feedStream l (moveFrames (atOfs ofs s))
    let x := linkOf s0 l
    if !linkUp s0 l then done s0
    else
      match x.acks with
      | a :: t => done (sendAck l a.1 a.2 (setLink l { x with acks := t } s0))
      | [] =>
        match x.cut.findIdx? (fun c => hasWindow s0 l c.frame.vc) with
        | some i =>
          match x.cut[i]? with
          | some c =>
            let hole := if c.bad then some (c.lane, c.lseq) else none
            done (sendFrame l (withCorrection (txStamp l s0) c) hole (setLink l { x with cut := x.cut.eraseIdx i } s0))
          | none => done s0
        | none =>
          match vcOrder.find? (fun v => (againFrame s0 l v).isSome) with
          | some v =>
            match againFrame s0 l v with
            | some (i, f) => done (sendAgain l v i f s0)
            | none => done s0
          | none =>
            match vcOrder.find? (fun v => decide ((vcOf s0 l v).queue ≠ []) && hasWindow s0 l v && ((vcOf s0 l v).again.isNone)) with
            | some v =>
              match (vcOf s0 l v).queue with
              | f :: t => done (sendFrame l f none (setVc l v { vcOf s0 l v with queue := t } s0))
              | [] => done s0
            | none => done s0) s

/-- Injection starts, and its sequence is seeded (R333). -/
def injStart (s : State) : State := setWot { s.wot with injCount := 0, injReg := prbsSeed 23 } s

/-- WOT_INJ_ENABLE (R333). -/
def execWotInjEnable (s : State) : Host.Outcome State Fault Refusal :=
  if flag s WOT_INJ_CFG.EN then done s else done (injStart (setFlag s WOT_INJ_CFG.EN true))

/-- WOT_INJ_DELAY_EXPIRE (R333): a held frame is sent where the link runs (R315); a held Baton frame carries its residence. -/
def execWotInjDelayExpire (l : Fin 2) (v : Fin 4) (ofs : Nat) (s : State) : Host.Outcome State Fault Refusal :=
  let s0 := atOfs ofs s
  let x := vcOf s0 l v
  match x.held with
  | some (bs, t) =>
    if linkUp s0 l ∧ t ≤ clk s0 then
      let extra := clk s0 - (t - nsec (1000 * max 1 (fld s0 WOT_INJ_DELAY.VALUE % 65536)))
      let out := match parseFrame l bs with
        | .good f =>
          if f.type = 7 then
            let old := signed 64 (ofBytesLE ((f.payload.drop 0xC).take 8))
            frameBytes { f with payload := patch f.payload 0xC (bytesLE 8 (unsignedOf 64 (old + extra))) }
          else bs
        | _ => bs
      done (sendKept l v (some out) (setVc l v { x with held := none } s0))
    else done s0
  | none => done s0

/-! ### Arrived frames -/

/-- The first arrived frame that satisfies `p`, and the state without it. -/
def takeArrived (p : Arrived → Bool) (s : State) : Option (Arrived × State) :=
  match s.wot.inbox.findIdx? p with
  | some i =>
    match s.wot.inbox[i]? with
    | some a => some (a, setWot { s.wot with inbox := s.wot.inbox.eraseIdx i } s)
    | none => none
  | none => none

/-- CUT_THROUGH_FORWARD (R316, R322): a TALLY frame, or a cut-through frame whose CRC-32 has failed, goes on. -/
def execCutThroughForward (ofs : Nat) (s : State) : Host.Outcome State Fault Refusal :=
  match takeArrived (fun a => decide (a.lane < 2) && (a.bad || decide (a.frame.type = 8))) (atOfs ofs s) with
  | some (a, s1) => done (forwardCut a s1)
  | none => done (atOfs ofs s)

/-! ### Addresses (R307, R308) -/

/-- ACCESSION_SEND (R308). -/
def execAccessionSend (s : State) : Host.Outcome State Fault Refusal :=
  let x := linkOf s 1
  if onLine s 1 && (ownAddr s).isSome && (decide (x.accession = 0) || decide (x.accession + 1023 ≤ tick s)) then
    let f := fromHere s { vc := 2, type := 6, payload := bytesLE 2 (fld s WOT_STATUS.ADDR) ++ bytesLE 2 (fld s WOT_ADDR.LINE_ID) }
    done (enqueueFrame 1 f (setLink 1 { x with accession := tick s + 1 } s))
  else done s

/-- What a hub does with a carried address and LINE_ID (R308). -/
def hearAccession (carried id : Nat) (s : State) : State :=
  let mine := fld s WOT_ADDR.LINE_ID
  let x := linkOf s 0
  if mine ≠ id ∧ mine ≠ 0 ∧ id ≠ 0 then
    let s1 := setFlag s WOT_STATUS.MISMATCH true
    if x.mismatch then s1 else raise 199 (setLink 0 { x with mismatch := true } s1)
  else
    match ownAddr s with
    | none =>
      if flag s WOT_ADDR.FIXED then s
      else if carried + 1 = 1024 then raise 197 (setFlag s WOT_STATUS.ADDR_OVF true)
      else raise 196 (setFlag (setFld s WOT_STATUS.ADDR (carried + 1)) WOT_STATUS.ADDR_VALID true)
    | some a =>
      if a = carried + 1 then setLink 0 { x with carried := 0 } s
      else
        let s1 := setFlag s WOT_STATUS.CONFLICT true
        if x.carried = carried + 1 then s1 else raise 198 (setLink 0 { x with carried := carried + 1 } s1)

/-- ACCESSION_RECEIVE (R308): accession frames count on lane 0; on lane 1 they are ignored. -/
def execAccessionReceive (s : State) : Host.Outcome State Fault Refusal :=
  match takeArrived (fun a => decide (a.lane < 2) && decide (a.frame.type = 6)) s with
  | some (a, s1) =>
    let num := fun (i : Nat) => ofBytesLE ((a.frame.payload.drop i).take 2)
    if a.lane = 0 ∧ wotOn s1 ∧ headRole s1 ≠ 1 then done (hearAccession (num 0 % 1024) (num 2) s1) else done s1
  | none => done s

/-! ### Unicast frames (R318) -/

/-- What is delivered to software stays with it. -/
def deliver (f : LineFrame) (s : State) : State := setWot { s.wot with delivered := s.wot.delivered ++ [f] } s

/-! ### Time on the line (R319 to R322) -/

/-- SPLIT_REQ_SEND (R319). -/
def execSplitReqSend (l : Fin 3) (s : State) : Host.Outcome State Fault Refusal :=
  let x := linkOf s l
  if linkUp s l && (decide (x.split = 0) || decide (x.split + 1023 ≤ tick s)) then
    let f := fromHere s { vc := 3, type := 9, west := decide (l.val = 0), payload := List.replicate 10 0 }
    done (enqueueFrame l f (setLink l { x with split := tick s + 1 } s))
  else done s

/-- SPLIT_REQ_RECEIVE (R319): answered with t1, t2 and, as it is sent, t3. -/
def execSplitReqReceive (s : State) : Host.Outcome State Fault Refusal :=
  match takeArrived (fun a => decide (a.frame.type = 9) && !a.bad) s with
  | some (a, s1) =>
    let p := a.frame.payload.take 10 ++ stampBytes a.stamp ++ List.replicate 10 0
    done (enqueueFrame a.lane (fromHere s1 { vc := 3, type := 10, west := decide (a.lane = 0), payload := p }) s1)
  | none => done s

/-- The mean link delay shows in ps (R319). -/
def showDelay (l : Nat) (s : State) : State :=
  let x := linkOf s l
  if l < 2 then
    let sum : Int := x.delays.foldl (· + ·) 0
    let mean : Int := sum * 1000 / (65536 * (max 1 x.delays.length : Nat))
    setFlag (wr s (WOT_LINKl_DELAY l) (w32 mean.toNat)) (WOT_LINKl_STATUS.DELAY_VALID l) (decide (16 ≤ x.exchanges))
  else s

/-- SPLIT_RESP_RECEIVE (R319): t4 is the receive stamp. -/
def execSplitRespReceive (s : State) : Host.Outcome State Fault Refusal :=
  match takeArrived (fun a => decide (a.frame.type = 10) && !a.bad) s with
  | some (a, s1) =>
    let p := a.frame.payload
    let d := (((a.stamp : Int) - stampAt p 0) - ((stampAt p 20 : Int) - stampAt p 10)) / 2
    let x := linkOf s1 a.lane
    done (showDelay a.lane (setLink a.lane { x with delays := (d :: x.delays).take 16, exchanges := x.exchanges + 1 } s1))
  | none => done s

/-- Whether the active time source is a PTP domain. -/
def followsPtp (s : State) : Bool := decide (3 ≤ srcCode s s.tbs.pacer.secActive)

/-- BATON_SEND (R320). -/
def execBatonSend (s : State) : Host.Outcome State Fault Refusal :=
  if isHead s && decide (lap s % 64 = 0) && decide (s.wot.batonAt < tick s + 1) then
    let l := headLane s
    let p := List.replicate 10 0 ++ bytesLE 1 (pacerState s + bit (followsPtp s) * 8) ++ bytesLE 1 0 ++ bytesLE 8 0 ++
      bytesLE 2 s.wot.batonSeq ++ bytesLE 2 0
    let f := fromHere s { vc := 3, type := 7, cut := true, bcast := true, west := decide (l = 0), payload := p }
    let s1 := setWot { s.wot with batonAt := tick s + 1, batonSeq := (s.wot.batonSeq + 1) % 65536 } s
    done (if onLine s1 l then enqueueCut l { frame := f } s1 else s1)
  else done s

/-- The measurement that a Baton frame gives (R321): none from a frame sent again, or over a link whose delay is not valid. -/
def batonMeasure (a : Arrived) (s : State) : State :=
  match delayIn s a.lane with
  | some d =>
    if a.frame.retx then s
    else
      let corr := signed 64 (ofBytesLE ((a.frame.payload.drop 0xC).take 8))
      measureFrom (if a.lane = 0 then 1 else 2) ((stampAt a.frame.payload 0 : Int) + corr + d - a.stamp) s
  | none => s

/-- A good Baton frame of a head has arrived: hops and reachability (R309, R326). -/
def batonHeard (west : Bool) (f : LineFrame) (s : State) : State :=
  let x := seenOf s west
  let s1 := ownDistance (setFld s (hopsFld west) (f.hops + 1))
  let s2 := if west then s1 else setFld s1 WOT_HEADS.EAST_ADDR f.src
  let s3 := setFlag (setSeen west { baton := some (clk s2), reach := some (x.reach.getD (clk s2)) } s2) (reachFld west) true
  judgeDirection s3

/-- BATON_RECEIVE (R309, R321, R326). -/
def execBatonReceive (ofs : Nat) (s : State) : Host.Outcome State Fault Refusal :=
  match takeArrived (fun a => decide (a.lane < 2) && decide (a.frame.type = 7) && !a.bad) (atOfs ofs s) with
  | some (a, s1) => done (forwardCut a (batonHeard (!a.frame.west) a.frame (batonMeasure a s1)))
  | none => done (atOfs ofs s)

/-- TALLY_BROADCAST (R53, R322): a Tally with an encoder source broadcasts its position at the lap boundary on both line lanes. -/
def execTallyBroadcast (n : Fin 4) (s : State) : Host.Outcome State Fault Refusal :=
  let last := tget (fun _ => 0) s.wot.bcastAt n
  if flag s (TBS_TALLYn_CTRL.EN n) && flag s (TBS_TALLYn_CTRL.BCAST_EN n) && decide (tallySrc s n = 1) &&
      (decide (last = 0) || decide (last - 1 + bcastLaps s n ≤ tick s)) then
    let t := tallyOf s n
    let pos := t.atB
    let p := bytesLE 1 (fld s (TBS_TALLYn_CTRL.STREAM n)) ++ bytesLE 1 0 ++ bytesLE 6 (unsignedOf 48 pos) ++
      bytesLE 4 (unsignedOf 32 t.velB) ++ stampBytes s.tbs.pacer.time ++ bytesLE 2 0
    let mk := fun (west : Bool) => fromHere s { vc := 3, type := 8, cut := true, bcast := true, west := west, payload := p }
    let s1 := setWot { s.wot with bcastAt := tins (tdrop s.wot.bcastAt n) n (tick s + 1) } s
    let send := fun (s : State) (l : Nat) => if onLine s l then enqueueCut l { frame := mk (decide (l = 0)) } s else s
    done ([0, 1].foldl send s1)
  else done s

/-! ### Acknowledging streams (R325) -/

/-- The entry of a hub in the acknowledgements of a head. -/
def ackEntry (q : Nat × Nat) : List Byte := bytesLE 2 q.1 ++ bytesLE 2 0 ++ bytesLE 4 q.2

/-- The acknowledgements in frames of up to 61 entries; `k` bounds the frames. -/
def ackFrames (s : State) (west : Bool) : Nat → List (Nat × Nat) → List LineFrame
  | 0, _ => []
  | k + 1, qs =>
    if qs = [] then []
    else
      let now1 := qs.take 61
      fromHere s { vc := 1, type := 4, bcast := true, west := west, aux := now1.length, payload := (now1.map ackEntry).flatten } ::
        ackFrames s west k (qs.drop 61)

/-- STREAM_ACK_SEND (R325). -/
def execStreamAckSend (s : State) : Host.Outcome State Fault Refusal :=
  let l := headLane s
  if isHead s && onLine s l && (decide (s.wot.ackAt = 0) || decide (s.wot.ackAt + 1023 ≤ tick s)) then
    let s1 := setWot { s.wot with ackAt := tick s + 1 } s
    done ((ackFrames s1 (decide (l = 0)) 18 s1.wot.acked).foldl (fun s f => enqueueFrame l f s) s1)
  else done s

/-- The entries of a STREAM_ACK or HOST_ACK. -/
def ackEntries (bs : List Byte) (n : Nat) : List (Nat × Nat) :=
  (List.range n).map (fun i => (ofBytesLE ((bs.drop (i * 8)).take 2), ofBytesLE ((bs.drop (i * 8 + 4)).take 4)))

/-- At a STREAM_ACK frame a hub may send again what it has sent and no head has acknowledged; whether it does is not stated (log entry 205). -/
def sendAgainAt (s : State) : State :=
  if 0 < sdiff32 s.wot.sendNext (rd s WOT_STREAM_UNACKED).toNat then
    let s1 := freshen s
    if Config.sendsAgain s.fresh then resendStream s1 else s1
  else s

/-- STREAM_ACK_RECEIVE (R325, R349, R382). -/
def execStreamAckReceive (s : State) : Host.Outcome State Fault Refusal :=
  match takeArrived (fun a => decide (a.lane < 2) && decide (a.frame.type = 4)) s with
  | some (a, s1) =>
    let own := flag s1 ETH_GW_CFG.EN && flag s1 ETH_GW_CFG.OWN_STREAM && decide (headRole s1 = 0)
    let mine := (ackEntries a.frame.payload (a.frame.aux % 256)).find? (fun q => decide (q.1 = streamAddr s1))
    let freed := match mine with
      | some q => if own || (ownAddr s1).isNone then s1 else freeSpill q.2 s1
      | none => s1
    let s2 := if own then freed else sendAgainAt freed
    let l := laneToward a.frame.west
    done (if a.frame.hops < 1023 ∧ onLine s2 l then enqueueFrame l { a.frame with hops := a.frame.hops + 1 } s2
          else if 1023 ≤ a.frame.hops then countDrop a.lane 1 s2 else s2)
  | none => done s

/-! ### Turning global operations (R330) -/

/-- The fields of a GOP payload that a hub acts on. -/
def parseGop (f : LineFrame) : Gop :=
  let num := fun (i k : Nat) => ofBytesLE ((f.payload.drop i).take k)
  { src := f.src, id := num 2 2, op := num 0 1, space := num 1 1 % 8, dir := num 1 1 / 8 % 4, value := num 4 8 % 2 ^ 48, arg := num 0xC 8 }

/-- Whether this hub acts on a frame. -/
def gopActs (s : State) (f : LineFrame) : Bool :=
  match ownAddr s with
  | some a => decide (ofBytesLE ((f.payload.drop 0x14).take 2) ≤ a) && decide (a ≤ ofBytesLE ((f.payload.drop 0x16).take 2))
  | none => false

/-- The RESULT bits that an acting hub puts into an echo: those it has noted, and NOT_READY of a barrier. -/
def echoBits (s : State) (f : LineFrame) : Nat :=
  let g := parseGop f
  if !gopActs s f then 0
  else if g.op = 4 then (if flag s WOT_BARRIER.READY then 0 else 8)
  else match s.wot.results.find? (fun q => decide (q.1 = g.src ∧ q.2.1 = g.id)) with
    | some q => q.2.2
    | none => 0

/-- An echo with this hub's bits. -/
def withBits (s : State) (f : LineFrame) : LineFrame :=
  { f with payload := patch f.payload 0x18 (bytesLE 1 (ofBytesLE ((f.payload.drop 0x18).take 1) ||| echoBits s f)) }

/-- A GOP frame turned at this hub (R330). -/
def turnGop (f : LineFrame) (s : State) : LineFrame :=
  withBits s { f with echo := true, west := !f.west, payload := patch f.payload 0x1A (bytesLE 2 (fld s WOT_STATUS.ADDR)) }

/-- The GOP frames that wait for link `l` or are unacknowledged on it turn here when the link is lost (R330); those without a number leave their
queue. The issuer's own come back to it (log entry 207). -/
def turnQueued (l : Nat) (s : State) : State :=
  let y := linkOf s l
  let isGop := fun (f : LineFrame) => decide (f.type = 2) && !f.echo
  let held := ((List.range 4).flatMap (fun v => (vcOf s l v).unacked.map (fun u => u.frame))).filter isGop ++
    (y.cut.filter (fun c => !c.bad && isGop c.frame)).map (fun c => c.frame)
  let one := fun (s : State) (f : LineFrame) =>
    let g := turnGop { f with hops := f.hops - 1 } s
    let a : Arrived := { lane := l, stamp := clk s, frame := g }
    if f.hops = 0 then setWot { s.wot with inbox := s.wot.inbox ++ [a] } s else forwardCut a s
  held.foldl one (setLink l { y with cut := y.cut.filter (fun c => c.bad || !isGop c.frame) } s)

end Sys2Proof.Machine
end

