-- ==== Sys2Proof/Machine/Eth.lean ====
section
/-!
DEFINITION. The two MACs, the stamp queues, the PTP engines, the gateway of a head and the SFP buses (spec/12_uplink_ptp.md R336 to
R352), and the frames of the line that meet the gateway (spec/11_woten_line.md R318, R325).
-/
namespace Sys2Proof.Machine
open Sys2Proof

def setEth (x : Eth) (s : State) : State := { s with eth := x }

/-! ### MACs (R336, R338) -/

/-- Whether the link of MAC `m` is up: its lane is in UP in an Ethernet mode (R336). -/
def macLink (s : State) (m : Nat) : Bool := laneUp s (2 + m) && decide (2 ≤ laneMode s (2 + m)) && decide (laneMode s (2 + m) ≤ 4)

def macOn (s : State) (m : Nat) : Bool := flag s (ETH_MACm_CFG.EN m) && macLink s m

/-- MTU, held to 576 to 9 000. -/
def mtu (s : State) (m : Nat) : Nat := clampNat 576 9000 (fld s (ETH_MACm_CFG.MTU m))

/-- The six octets of an address, octet 0 first. -/
def macOctets (lo hi : Word) : List Byte := bytesLE 4 lo.toNat ++ bytesLE 2 hi.toNat
def ownMac (s : State) (m : Nat) : List Byte := macOctets (rd s (ETH_MACm_ADDR_LO m)) (rd s (ETH_MACm_ADDR_HI m))

/-- A number from big-endian bytes, as network headers have them. -/
def ofBE (bs : List Byte) : Nat := ofBytesLE bs.reverse

/-- The number in `k` big-endian bytes from `i`. -/
def numAt (bs : List Byte) (i k : Nat) : Nat := ofBE ((bs.drop i).take k)

/-- The IPv6 address in four registers. -/
def ip6 (s : State) (a : Nat) : Nat :=
  (rd s a).toNat + 2 ^ 32 * (rd s (a + 4)).toNat + 2 ^ 64 * (rd s (a + 8)).toNat + 2 ^ 96 * (rd s (a + 12)).toNat

/-- The frame with tag and FCS as MAC `m` sends it (R338, R340). -/
def onWire (s : State) (m : Nat) (f : List Byte) : List Byte :=
  let g := if flag s (ETH_MACm_CFG.VLAN_EN m) then
      f.take 12 ++ bytesBE 2 0x8100 ++ bytesBE 2 (fld s (ETH_MACm_CFG.PCP m) * 8192 + fld s (ETH_MACm_CFG.VID m)) ++ f.drop 12
    else f
  g ++ bytesLE 4 (crc32 g)

/-- A frame leaves MAC `m`. -/
def macSend (m : Nat) (f : List Byte) (s : State) : State :=
  addSat (sendMacFrame (m + 2) (onWire s m f) (emit (.mac m) (onWire s m f) s)) (ETH_MACm_TX_FRAMES.TX_FRAMES m) 1

/-- The ones' complement sum of 16-bit words. -/
def sum16 : List Byte → Nat
  | a :: b :: t => a.toNat * 256 + b.toNat + sum16 t
  | [a] => a.toNat * 256
  | [] => 0

/-- The Internet checksum of a list of bytes. -/
def inetSum (bs : List Byte) : Nat :=
  let t := sum16 bs
  let u := t % 65536 + t / 65536
  let v := u % 65536 + u / 65536
  65535 - (v % 65536 + v / 65536) % 65536

/-- A UDP datagram over IPv4 or IPv6, with its checksum (R336, R337: DF set on IPv4). -/
def udpPacket (six : Bool) (src dst sport dport : Nat) (p : List Byte) : List Byte :=
  let len := 8 + p.length
  let ab := if six then bytesBE 16 src ++ bytesBE 16 dst else bytesBE 4 src ++ bytesBE 4 dst
  let head := bytesBE 2 sport ++ bytesBE 2 dport ++ bytesBE 2 len
  let pseudo := ab ++ (if six then bytesBE 4 len ++ bytesBE 4 17 else bytesBE 2 17 ++ bytesBE 2 len)
  let c := inetSum (pseudo ++ head ++ bytesBE 2 0 ++ p)
  let udp := head ++ bytesBE 2 (if c = 0 then 65535 else c) ++ p
  if six then bytesBE 4 0x60000000 ++ bytesBE 2 len ++ bytesBE 1 17 ++ bytesBE 1 64 ++ ab ++ udp
  else
    let h := fun (c : Nat) => bytesBE 2 0x4500 ++ bytesBE 2 (20 + len) ++ bytesBE 2 0 ++ bytesBE 2 0x4000 ++ bytesBE 1 64 ++
      bytesBE 1 17 ++ bytesBE 2 c ++ ab
    h (inetSum (h 0)) ++ udp

/-! ### Stamp queues (R341, R342) -/

/-- The stamp queues are kept beside the cores' queues, from 65 on. -/
def stampQueue (m : Nat) : Nat := 65 + m

/-- An entry of the stamp queue: TXS_ID without FRESH, and the three stamp words (R341). -/
def stampEntry (m id domain : Nat) (stamp : Option Nat) (s : State) : State :=
  let q := stampQueue m
  if 16 ≤ (queueOf s q).items.length then
    let was := flag s (ETH_MACm_TXS.OVF m)
    raiseIf (!was) 210 (setFlag (addSat s (ETH_MACm_TXS.LOST m) 1) (ETH_MACm_TXS.OVF m) true)
  else
    let t := stamp.getD 0
    queueIn q { words := [w32 (bit stamp.isNone * 2 ^ 30 + domain * 65536 + id), w32 (fracOf t), lo32 (nsOf t), hi32 (nsOf t)],
                at0 := clk s } s

/-- A read of TXS_ID (R243, R342): the oldest visible entry with FRESH = 1, its stamp latched; else the previous value. -/
def readStamp (m : Nat) (s : State) : Word × State :=
  let q := stampQueue m
  let s1 := look q s
  let x := queueOf s1 q
  match x.items with
  | e :: t =>
    if x.seen = 0 then (rd s1 (ETH_MACm_TXS_ID m), s1)
    else
      let w := fun (i : Nat) => e.words.getD i 0
      let s2 := setQueue q { x with items := t, seen := x.seen - 1 } s1
      let s3 := wr (wr (wr (wr s2 (ETH_MACm_TXS_ID m) (w 0)) (ETH_MACm_TXS_FRAC m) (w 1)) (ETH_MACm_TXS_LO m) (w 2)) (ETH_MACm_TXS_HI m) (w 3)
      (w 0 ||| 0x80000000#32, s3)
  | [] => (rd s1 (ETH_MACm_TXS_ID m), s1)

/-! ### Rings (R340) -/

/-- The number of descriptors: 2 to 1 024. -/
def ringLen (s : State) (a : Nat) : Nat := clampNat 2 1024 (rd s a).toNat

/-- TXR_TAIL_WRITE (R340): descriptors up to the new tail belong to the MAC. -/
def execTxrTailWrite (m : Fin 2) (tail : Nat) (s : State) : Host.Outcome State Fault Refusal :=
  done (setFld s (ETH_MACm_TXR_TAIL.TXR_TAIL m) tail)

/-- The descriptor at the head of the transmit ring is used up. -/
def advanceTx (m : Nat) (s : State) : State :=
  setFld s (ETH_MACm_TXR_HEAD.TXR_HEAD m) ((fld s (ETH_MACm_TXR_HEAD.TXR_HEAD m) + 1) % ringLen s (ETH_MACm_TXR_SIZE m))

/-- ETH_FRAME_SEND (R340, R341): the next frame of the transmit ring, whose stamp point passes at instant `ofs`. -/
def execEthFrameSend (m : Fin 2) (ofs : Nat) (s : State) : Host.Outcome State Fault Refusal :=
  whileAwake (fun s =>
    let s0 := atOfs ofs s
    let head := fld s0 (ETH_MACm_TXR_HEAD.TXR_HEAD m)
    if !flag s0 (ETH_MACm_CFG.EN m) || decide (head = fld s0 (ETH_MACm_TXR_TAIL.TXR_TAIL m)) then done s0
    else if mustWait s0 2 ((rd s0 (ETH_MACm_TXR_BASE m)).toNat + head * 32) then
      done (awaitRead 2 ((rd s0 (ETH_MACm_TXR_BASE m)).toNat + head * 32) s0)
    else
      let d := dmaRead 2 32 ((rd s0 (ETH_MACm_TXR_BASE m)).toNat + head * 32) s0
      let w := fun (i : Nat) => w32 (ofBytesLE ((d.1.drop (i * 4)).take 4))
      let len := fget (w 1) 0 14
      if mustWait d.2 2 (w 0).toNat then done (awaitRead 2 (w 0).toNat d.2)
      else
        let id := fget (w 2) 0 16
        let dom := fget (w 2) 16 8
        let asked := nbit (w 1).toNat 31
        if macLink s0 m && decide (len ≤ mtu s0 m + 14) then
          let f := dmaRead 2 len (w 0).toNat d.2
          let s1 := macSend m f.1 f.2
          done (advanceTx m (if asked then freshen (stampEntry m id dom (some (txStamp (m + 2) s1)) s1) else s1))
        else
          let s1 := addSat d.2 (ETH_MACm_TX_DROP.TX_DROP m) 1
          done (advanceTx m (if asked then stampEntry m id dom none s1 else s1))) s

/-- A frame that MAC `m` cannot keep. -/
def rxDrop (m : Nat) (s : State) : State := addSat s (ETH_MACm_RX_DROP.RX_DROP m) 1

/-- A received frame goes to the receive ring (R340, R351): the hardware writes at HEAD, and the frames from TAIL to HEAD - 1 wait for
software (log entry 87). -/
def toRing (m : Nat) (f : List Byte) (ptpEvent tagged : Bool) (s : State) : State :=
  let n := ringLen s (ETH_MACm_RXR_SIZE m)
  let head := fld s (ETH_MACm_RXR_HEAD.RXR_HEAD m)
  let tail := fld s (ETH_MACm_RXR_TAIL.RXR_TAIL m)
  if (head + 1) % n = tail then rxDrop m s
  else
    let at1 := (rd s (ETH_MACm_RXR_BASE m)).toNat + head * 32
    let d := dmaRead 2 4 at1 s
    let t := rxStamp (m + 2) s
    let ws := bytesLE 4 (bit ptpEvent * 2 ^ 31 + bit tagged * 2 ^ 30 + f.length) ++ bytesLE 4 0 ++ bytesLE 4 (fracOf t * 65536) ++
      bytesLE 8 (nsOf t) ++ bytesLE 8 0
    let s1 := dmaWrite 2 (at1 + 4) ws (dmaWrite 2 (ofBytesLE d.1) f d.2)
    raiseIf (decide (head = tail)) 209 (setFld s1 (ETH_MACm_RXR_HEAD.RXR_HEAD m) ((head + 1) % n))

/-! ### PTP messages (R343), laid out as IEEE 1588-2019 gives (log entry 88) -/

def ptpOf (s : State) (d : Nat) : Ptp := tget (fun _ => ({ } : Ptp)) s.eth.ptp d

def setPtp (d : Nat) (x : Ptp) (s : State) : State :=
  { s with eth := { s.eth with ptp := tput (fun _ => ({ } : Ptp)) s.eth.ptp d x } }

def ptpType (bs : List Byte) : Nat := numAt bs 0 1 % 16
def ptpSeq (bs : List Byte) : Nat := numAt bs 30 2
def ptpCorr (bs : List Byte) : Int := signed 64 (numAt bs 8 8)
def ptpTwoStep (bs : List Byte) : Bool := nbit (numAt bs 6 1) 1

/-- A timestamp of a message: seconds and nanoseconds, in 2^-16 ns. -/
def ptpTime (bs : List Byte) : Int := ((numAt bs 34 6 * 1000000000 + numAt bs 40 4) * unitsPerNs : Nat)

/-- The sourcePortIdentity of engine `d`'s parent. -/
def parentId (s : State) (d : Nat) : List Byte :=
  bytesLE 4 (rd s (ETH_PTPd_PARENT_LO d)).toNat ++ bytesLE 4 (rd s (ETH_PTPd_PARENT_MID d)).toNat ++
    bytesBE 2 (fld s (ETH_PTPd_PARENT_PORT.PARENT_PORT d))

/-- The hub's own port identity on MAC `m`: portNumber m + 1. -/
def ownPortId (s : State) (m : Nat) : List Byte :=
  bytesLE 4 (rd s ETH_CLOCK_ID_LO).toNat ++ bytesLE 4 (rd s ETH_CLOCK_ID_HI).toNat ++ bytesBE 2 (m + 1)

/-- The transport of an engine: 0 UDP/IPv4, 1 UDP/IPv6, 2 IEEE 802.3. -/
def ptpTransport (s : State) (d : Nat) : Nat := let t := fld s (ETH_PTPd_CFG.TRANSPORT d); if t = 3 then 0 else t

def ptpOn (s : State) (d m : Nat) : Bool := flag s (ETH_PTPd_CFG.EN d) && decide (fld s (ETH_PTPd_CFG.MAC d) = m)

/-- Whether engine `d` takes a message that came over a transport on MAC `m` (R343). -/
def ptpTakes (s : State) (m tr : Nat) (bs : List Byte) (d : Nat) : Bool :=
  ptpOn s d m && decide (ptpTransport s d = tr) && decide (34 ≤ bs.length) && decide (numAt bs 1 1 % 16 = 2) &&
    decide (numAt bs 4 1 = fld s (ETH_PTPd_CFG.DOMAIN d)) && decide ((bs.drop 20).take 10 = parentId s d) &&
    decide (ptpType bs ∈ [0, 3, 8, 9, 10])

/-- The multicast link address of a transport and mechanism. -/
def ptpMac (tr : Nat) (peer : Bool) : List Byte :=
  bytesBE 6 (match tr with
    | 0 => if peer then 0x01005E00006B else 0x01005E000181
    | 1 => if peer then 0x33330000006B else 0x333300000181
    | _ => if peer then 0x0180C200000E else 0x011B19000000)

/-- Whether MAC `m` accepts a destination address (R338). -/
def acceptsMac (s : State) (m : Nat) (dst : List Byte) : Bool :=
  decide (dst = ownMac s m) || decide (dst = List.replicate 6 0xFF) ||
    (flag s (ETH_MACm_CFG.MCAST_ALL m) && nbit (numAt dst 0 1) 0) ||
    (List.range 2).any (fun d => ptpOn s d m && (decide (dst = ptpMac (ptpTransport s d) false) || decide (dst = ptpMac (ptpTransport s d) true)))

/-! ### Receiving (R338) -/

/-- What a UDP datagram says: whether IPv6, its addresses, ports, payload. -/
structure Udp where
  six : Bool
  src : Nat
  dst : Nat
  dport : Nat
  data : List Byte
deriving DecidableEq, Repr

/-- The UDP datagram in an Ethernet payload, with a right checksum; `frag` where it is a fragment. -/
inductive IpParse where
  | other
  | frag
  | badSum
  | udp (u : Udp)
deriving DecidableEq, Repr

def udpOf (six : Bool) (src dst : Nat) (p : List Byte) : IpParse :=
  let len := numAt p 4 2
  let ab := if six then bytesBE 16 src ++ bytesBE 16 dst ++ bytesBE 4 len ++ bytesBE 4 17 else bytesBE 4 src ++ bytesBE 4 dst ++ bytesBE 2 17 ++ bytesBE 2 len
  let body := p.take len
  if p.length < 8 ∨ len < 8 ∨ p.length < len then .other
  else if (six ∨ numAt p 6 2 ≠ 0) ∧ inetSum (ab ++ body) ≠ 0 then .badSum
  else .udp { six := six, src := src, dst := dst, dport := numAt p 2 2, data := body.drop 8 }

def parseIp (type : Nat) (p : List Byte) : IpParse :=
  if type = 0x0800 then
    let ihl := numAt p 0 1 % 16 * 4
    if numAt p 0 1 / 16 ≠ 4 then .other
    else if numAt p 6 2 % 16384 ≠ 0 then .frag
    else if numAt p 9 1 ≠ 17 then .other
    else udpOf false (numAt p 12 4) (numAt p 16 4) ((p.take (numAt p 2 2)).drop ihl)
  else if type = 0x86DD then
    if numAt p 6 1 = 44 then .frag
    else if numAt p 6 1 ≠ 17 then .other
    else udpOf true (numAt p 8 16) (numAt p 24 16) ((p.drop 40).take (numAt p 4 2))
  else .other

/-- Whether a datagram comes from the address of a gateway destination entry (R348). -/
def fromGateway (s : State) (u : Udp) : Bool :=
  let same := fun (i : Nat) => flag s (ETH_DESTi_CFG.VALID i) && decide (fld s (ETH_DESTi_CFG.FAMILY i) = bit u.six) &&
    decide (u.src = if u.six then ip6 s (ETH_DESTi_IP0 i) else (rd s (ETH_DESTi_IP0 i)).toNat)
  same (fld s ETH_GW_CFG.DEST) || (flag s ETH_GW_CFG.ALT_EN && same (fld s ETH_GW_CFG.ALT_DEST))

/-- A datagram to ETH_UDP_PORT goes to the gateway, where its version, LINE_ID and kind fit (R347, R348). -/
def toGateway (m : Nat) (u : Udp) (s : State) : State :=
  let b := numAt u.data 0 1
  if 8 ≤ u.data.length ∧ b / 16 = 1 ∧ (b % 16 = 1 ∨ b % 16 = 2) ∧ ofBytesLE ((u.data.drop 2).take 2) = fld s WOT_ADDR.LINE_ID ∧
      fromGateway s u then
    setEth { s.eth with datagrams := s.eth.datagrams ++ [u.data] } s
  else rxDrop m s

/-- The PTP message in a frame: over UDP to port 319 or 320, or in an IEEE 802.3 frame of type 0x88F7; with its transport. -/
def ptpIn (type : Nat) (p : List Byte) : Option (Nat × List Byte) :=
  if type = 0x88F7 then some (2, p)
  else match parseIp type p with
    | .udp u => if u.dport = 319 ∨ u.dport = 320 then some (bit u.six, u.data) else none
    | _ => none

/-- An accepted frame goes on: to the PTP engines, the gateway or the receive ring (R338). -/
def routeFrame (m : Nat) (f : List Byte) (tagged : Bool) (s : State) : State :=
  let type := numAt f 12 2
  let p := f.drop 14
  let takers := match ptpIn type p with
    | some (tr, msg) => (List.range 2).filter (ptpTakes s m tr msg)
    | none => []
  let event := match ptpIn type p with
    | some (_, msg) => decide (ptpType msg < 4)
    | none => false
  if takers ≠ [] then
    let msg := match ptpIn type p with | some (_, b) => b | none => []
    let s1 := setEth { s.eth with msgs := s.eth.msgs ++ takers.map (fun d => { engine := d, stamp := rxStamp (m + 2) s, data := msg }) } s
    if flag s1 ETH_CTRL.PTP_COPY then toRing m f event tagged s1 else s1
  else match parseIp type p with
    | .frag => rxDrop m s
    | .badSum => rxDrop m s
    | .udp u =>
      let own := if u.six then decide (u.dst ≠ 0) && decide (u.dst = ip6 s (ETH_MACm_IPV60 m))
        else decide (u.dst ≠ 0) && decide (u.dst = (rd s (ETH_MACm_IPV4 m)).toNat)
      if own && decide (u.dport = fld s ETH_UDP_PORT.PORT) then toGateway m u s
      else toRing m f event tagged s
    | .other => toRing m f event tagged s

/-- ETH_FRAME_RECEIVE (R337 to R339): the bytes of a frame with its FCS, whose stamp point passed at instant `ofs`. A MAC control frame is discarded
and counted whatever its destination. -/
def execEthFrameReceive (m : Fin 2) (ofs : Nat) (bytes : List Byte) (s : State) : Host.Outcome State Fault Refusal :=
  whileAwake (fun s =>
    let s0 := atOfs ofs s
    let tagged := decide (numAt bytes 12 2 = 0x8100)
    let size := bytes.length
    let limit := mtu s0 m + (if tagged then 22 else 18)
    if !macOn s0 m then done s0
    else if size < 18 ∨ limit < size ∨ crc32 (bytes.take (size - 4)) ≠ ofBytesLE (bytes.drop (size - 4)) then
      done (addSat s0 (ETH_MACm_RX_BAD.RX_BAD m) 1)
    else
      let body := bytes.take (size - 4)
      let f := if tagged then body.take 12 ++ body.drop 16 else body
      let vlan := flag s0 (ETH_MACm_CFG.VLAN_EN m)
      let tagFits := if vlan then tagged && decide (numAt body 14 2 % 4096 = fld s0 (ETH_MACm_CFG.VID m)) else !tagged
      if numAt f 12 2 = 0x8808 then done (rxDrop m s0)
      else if acceptsMac s0 m (f.take 6) && tagFits then
        done (freshen (routeFrame m f tagged (addSat s0 (ETH_MACm_RX_FRAMES.RX_FRAMES m) 1)))
      else done s0) s

/-! ### PTP engines (R343 to R345) -/

/-- PATH_VALID changes; ETH_PATH is posted (R351). -/
def setPathValid (d : Nat) (v : Bool) (s : State) : State :=
  let was := flag s (ETH_PTPd_PATH_VALID.PATH_VALID d)
  raiseIf (was != v) 211 (setFlag s (ETH_PTPd_PATH_VALID.PATH_VALID d) v)

/-- The path delay is measured afresh. -/
def ptpRestart (d : Nat) (s : State) : State :=
  setPathValid d false (setPtp d { ptpOf s d with path := [], spikes := 0 } s)

/-- EN of an engine is set (R343). -/
def ptpStart (d : Nat) (s : State) : State := setPathValid d false (setPtp d { seq := (ptpOf s d).seq } s)

/-- The mean of the latest eight samples. -/
def pathMean (x : Ptp) : Int := x.path.foldl (· + ·) 0 / (max 1 x.path.length : Nat)

/-- A path delay sample, judged for spikes (R345): the delay is valid after eight. -/
def pathSample (d : Nat) (v : Int) (s : State) : State :=
  let x := ptpOf s d
  if flag s (ETH_PTPd_PATH_VALID.PATH_VALID d) && decide (1000 * unitsPerNs < (v - pathMean x).natAbs) then
    let s1 := addSat (setPtp d { x with spikes := x.spikes + 1 } s) (ETH_PTPd_SPIKE.SPIKE d) 1
    if 8 ≤ x.spikes + 1 then ptpRestart d s1 else s1
  else
    let y := { x with path := (v :: x.path).take 8, spikes := 0 }
    let s1 := setFld (setPtp d y s) (ETH_PTPd_PATH.PATH d) (pathMean y / 4096).toNat
    if y.path.length = 8 then setPathValid d true s1 else s1

/-- A complete Sync (R344): while the path delay is valid it gives the Pacer a measurement. -/
def syncComplete (d : Nat) (t1 : Int) (t2 : Nat) (c : Int) (s : State) : State :=
  let s1 := setPtp d { ptpOf s d with sync := some (t1, t2, c), waiting := none } s
  if flag s1 (ETH_PTPd_PATH_VALID.PATH_VALID d) then
    measureFrom (3 + d) (t1 + c + pathMean (ptpOf s1 d) + sfld s1 (ETH_PTPd_ASYM.ASYM d) * 2048 - t2) s1
  else s1

/-- The first message that waits for engine `d` and satisfies `p`, and the state without it. -/
def takeMsg (d : Nat) (p : List Byte → Bool) (s : State) : Option (PtpMsg × State) :=
  match s.eth.msgs.findIdx? (fun q => decide (q.engine = d) && p q.data) with
  | some i =>
    match s.eth.msgs[i]? with
    | some q => some (q, setEth { s.eth with msgs := s.eth.msgs.eraseIdx i } s)
    | none => none
  | none => none

def fuMiss (d : Nat) (s : State) : State := addSat s (ETH_PTPd_MISS.FU_MISS d) 1

/-- SYNC_RECEIVE (R344, R345): one-step it is complete; two-step it waits, and a Sync that still waited is a miss. -/
def execSyncReceive (d : Fin 2) (s : State) : Host.Outcome State Fault Refusal :=
  match takeMsg d (fun b => decide (ptpType b = 0)) s with
  | some (q, s1) =>
    let s2 := if (ptpOf s1 d).waiting.isSome then fuMiss d (setPtp d { ptpOf s1 d with waiting := none } s1) else s1
    if ptpTwoStep q.data then
      done (setPtp d { ptpOf s2 d with waiting := some (ptpSeq q.data, q.stamp, ptpCorr q.data, clk s2) } s2)
    else done (syncComplete d (ptpTime q.data) q.stamp (ptpCorr q.data) s2)
  | none => done s

/-- FOLLOW_UP_RECEIVE (R344, R345). -/
def execFollowUpReceive (d : Fin 2) (s : State) : Host.Outcome State Fault Refusal :=
  match takeMsg d (fun b => decide (ptpType b = 8)) s with
  | some (q, s1) =>
    match (ptpOf s1 d).waiting with
    | some (seq, t2, c, _) =>
      if seq = ptpSeq q.data then done (syncComplete d (ptpTime q.data) t2 (c + ptpCorr q.data) s1) else done (fuMiss d s1)
    | none => done (fuMiss d s1)
  | none => done s

/-- FOLLOW_UP_TIMEOUT (R345): a second has passed without the Follow_Up. -/
def execFollowUpTimeout (d : Fin 2) (ofs : Nat) (s : State) : Host.Outcome State Fault Refusal :=
  let s0 := atOfs ofs s
  match (ptpOf s0 d).waiting with
  | some (_, _, _, t) =>
    if t + nsec 1000000000 ≤ clk s0 then done (fuMiss d (setPtp d { ptpOf s0 d with waiting := none } s0)) else done s0
  | none => done s0

/-- The interval between requests, 2^LOG_DREQ s, in 2^-16 ns. -/
def reqInterval (s : State) (d : Nat) : Nat :=
  let k := clampInt (-7) 6 (sfld s (ETH_PTPd_CFG.LOG_DREQ d))
  if 0 ≤ k then nsec (1000000000 * 2 ^ k.toNat) else nsec (1000000000 / 2 ^ (-k).toNat)

/-- A PTP request message: 44 octets for a Delay_Req, 54 for a Pdelay_Req. -/
def requestMsg (s : State) (d : Nat) (peer : Bool) (seq : Nat) : List Byte :=
  bytesBE 1 (if peer then 2 else 1) ++ bytesBE 1 2 ++ bytesBE 2 (if peer then 54 else 44) ++ bytesBE 1 (fld s (ETH_PTPd_CFG.DOMAIN d)) ++
    bytesBE 3 0 ++ bytesBE 8 0 ++ bytesBE 4 0 ++ ownPortId s (fld s (ETH_PTPd_CFG.MAC d)) ++ bytesBE 2 seq ++
    bytesBE 1 (if peer then 5 else 1) ++ bytesBE 1 0x7F ++ bytesBE 10 0 ++ (if peer then bytesBE 10 0 else [])

/-- The frame of a request on its transport. -/
def requestFrame (s : State) (d : Nat) (peer : Bool) (seq : Nat) : List Byte :=
  let m := fld s (ETH_PTPd_CFG.MAC d)
  let tr := ptpTransport s d
  let msg := requestMsg s d peer seq
  let head := ptpMac tr peer ++ ownMac s m
  match tr with
  | 0 => head ++ bytesBE 2 0x0800 ++ udpPacket false (rd s (ETH_MACm_IPV4 m)).toNat (if peer then 0xE000006B else 0xE0000181) 319 319 msg
  | 1 => head ++ bytesBE 2 0x86DD ++ udpPacket true (ip6 s (ETH_MACm_IPV60 m))
      (if peer then 0xFF02 * 2 ^ 112 + 0x6B else 0xFF0E * 2 ^ 112 + 0x181) 319 319 msg
  | _ => head ++ bytesBE 2 0x88F7 ++ msg

/-- A response that has not come before the next request (R345). -/
def respMiss (d : Nat) (s : State) : State :=
  let x := ptpOf s d
  let s1 := addSat (setPtp d { x with missed := x.missed + 1 } s) (ETH_PTPd_MISS.RESP_MISS d) 1
  if 16 ≤ x.missed + 1 then ptpRestart d s1 else s1

/-- DELAY_REQ_SEND (R343): a Delay_Req or Pdelay_Req leaves, stamped at instant `ofs`. -/
def execDelayReqSend (d : Fin 2) (ofs : Nat) (s : State) : Host.Outcome State Fault Refusal :=
  whileAwake (fun s =>
    let s0 := atOfs ofs s
    let m := fld s0 (ETH_PTPd_CFG.MAC d)
    let x := ptpOf s0 d
    if flag s0 (ETH_PTPd_CFG.EN d) && macOn s0 m && (decide (x.reqAt = 0) || decide (x.reqAt - 1 + reqInterval s0 d ≤ clk s0)) then
      let s1 := if x.flight.isSome then respMiss d s0 else s0
      let peer := flag s1 (ETH_PTPd_CFG.MECH d)
      let y := ptpOf s1 d
      let s2 := macSend m (requestFrame s1 d peer y.seq) s1
      let stamp := txStamp (m + 2) s2
      done (freshen (setPtp d { y with seq := (y.seq + 1) % 65536, reqAt := clk s2 + 1, flight := some (y.seq, stamp), resp := none } s2))
    else done s0) s

/-- A response has come. -/
def answered (d : Nat) (s : State) : State := setPtp d { ptpOf s d with flight := none, resp := none, missed := 0 } s

/-- DELAY_RESP_RECEIVE (R344): a Delay_Resp with the latest complete Sync, or a Pdelay_Resp, with its follow-up where it is two-step. -/
def execDelayRespReceive (d : Fin 2) (s : State) : Host.Outcome State Fault Refusal :=
  match takeMsg d (fun b => decide (ptpType b ∈ [3, 9, 10])) s with
  | some (q, s1) =>
    let x := ptpOf s1 d
    let b := q.data
    let mine := decide ((b.drop 44).take 10 = ownPortId s1 (fld s1 (ETH_PTPd_CFG.MAC d)))
    match x.flight with
    | some (seq, sent) =>
      if !mine || decide (ptpSeq b ≠ seq) then done s1
      else if ptpType b = 9 then
        match x.sync with
        | some (t1, t2, c) => done (pathSample d (((t2 - t1 - c) + (ptpTime b - sent - ptpCorr b)) / 2) (answered d s1))
        | none => done (answered d s1)
      else if ptpType b = 3 then
        if ptpTwoStep b then done (setPtp d { x with resp := some (seq, ptpTime b, q.stamp, ptpCorr b) } s1)
        else done (pathSample d (((q.stamp : Int) - sent - ptpCorr b) / 2) (answered d s1))
      else
        match x.resp with
        | some (_, t2, t4, c) => done (pathSample d ((((t4 : Int) - sent) - (ptpTime b - t2) - (c + ptpCorr b)) / 2) (answered d s1))
        | none => done s1
    | none => done s1
  | none => done s

/-- The register of a PARENT or DOMAIN write: 0 the DOMAIN field of CFG, 1 PARENT_LO, 2 PARENT_MID, 3 PARENT_PORT. -/
def parentReg (d k : Nat) : Nat :=
  match k with | 0 => ETH_PTPd_CFG d | 1 => ETH_PTPd_PARENT_LO d | 2 => ETH_PTPd_PARENT_MID d | _ => ETH_PTPd_PARENT_PORT d

/-- A PARENT or DOMAIN write (R345): while EN = 1 it takes effect at the next lap boundary and PATH_VALID clears. -/
def parentWrite (d k : Nat) (v : Word) (s : State) : State :=
  let a := parentReg d k
  let w := if k = 0 then fset (rd s a) 16 8 (fget v 16 8) else if k = 3 then v &&& 0xFFFF#32 else v
  if flag s (ETH_PTPd_CFG.EN d) then ptpRestart d { s with nextRegs := s.nextRegs ++ [(a, w)] } else wr s a w

/-- A write of CFG (R345): while EN = 1 a changed DOMAIN waits for the boundary, and it alone; every other field, and DOMAIN while EN = 0, acts at
once. The latest write of the register decides. -/
def ptpCfgWrite (d : Nat) (new : Word) (s : State) : State :=
  let a := ETH_PTPd_CFG d
  let on := ETH_PTPd_CFG.EN d
  let dom := ETH_PTPd_CFG.DOMAIN d
  let s0 := { s with nextRegs := s.nextRegs.filter (fun q => decide (q.1 ≠ a)) }
  let waits := flag s on && (decide (fget new dom.lo dom.w ≠ fld s dom) || decide (s0.nextRegs.length < s.nextRegs.length))
  if waits then ptpRestart d { wr s0 a (fset new dom.lo dom.w (fld s dom)) with nextRegs := s0.nextRegs ++ [(a, new)] }
  else
    let s1 := wr s0 a new
    if flag s1 on && !flag s on then ptpStart d s1 else s1

/-- PTP_PARENT_WRITE (R345). -/
def execPtpParentWrite (d : Fin 2) (k : Fin 4) (value : Word) (s : State) : Host.Outcome State Fault Refusal :=
  done (parentWrite d k value s)

/-! ### The gateway (R346 to R349) -/

/-- The MAC and the destination entry that the gateway uses now (R346). -/
def gwPath (s : State) : Option (Nat × Nat) :=
  let m := fld s ETH_GW_CFG.MAC
  if !flag s ETH_GW_CFG.EN then none
  else if macOn s m then some (m, fld s ETH_GW_CFG.DEST)
  else if flag s ETH_GW_CFG.ALT_EN && macOn s (1 - m) then some (1 - m, fld s ETH_GW_CFG.ALT_DEST)
  else none

def frameSize (f : LineFrame) : Nat := 20 + f.payload.length

/-- The bytes that the gateway buffer holds. -/
def gwHeld (s : State) : Nat := s.eth.gateway.foldl (fun a q => a + frameSize q.1) 0

/-- Whether the gateway can take a frame. -/
def gwRoom (s : State) (f : LineFrame) : Bool := (gwPath s).isSome && decide (gwHeld s + frameSize f ≤ (rd s ETH_GW_BUF_SIZE).toNat)

/-- The bytes of the gateway buffer behind place `p`. -/
def gwRest (s : State) (p : Nat) : Nat := (rd s ETH_GW_BUF_SIZE).toNat - p

/-- A frame waits in the gateway buffer, behind those that wait (R346). The frames stand back to back and go on at GW_BUF_BASE (log entry 206). -/
def gwPut (f : LineFrame) (s : State) : State :=
  let base := (rd s ETH_GW_BUF_BASE).toNat
  let p := match s.eth.gateway.getLast? with
    | some (g, _, q) => (q + frameSize g) % max 1 (rd s ETH_GW_BUF_SIZE).toNat
    | none => 0
  let b := frameBytes f
  let s1 := dmaWrite 2 base (b.drop (gwRest s p)) (dmaWrite 2 (base + p) (b.take (gwRest s p)) s)
  setEth { s1.eth with gateway := s1.eth.gateway ++ [(f, clk s, p)] } s1

/-- The bytes of the frame of `k` bytes at place `p` of the gateway buffer; those read are behind the bytes `got`. -/
def gwGet (r : List (List Byte) × State) (q : LineFrame × Nat × Nat) : List (List Byte) × State :=
  let s := r.2
  let base := (rd s ETH_GW_BUF_BASE).toNat
  let k := frameSize q.1
  let n := min k (gwRest s q.2.2)
  let a := engineRead 2 n (base + q.2.2) s
  let b := engineRead 2 (k - n) base a.2
  (r.1 ++ [a.1 ++ b.1], b.2)

/-- A STREAM frame that the gateway cannot hold (R346). -/
def gwRefuse (s : State) : State :=
  raiseIf (decide (fld s ETH_GW_REFUSED.VALUE = 0)) 212 (addSat s ETH_GW_REFUSED.VALUE 1)

/-- Own closed STREAM frames go to the gateway of a head, or of a hub with OWN_STREAM, that has a valid address (R308, R324, R346, R349, R382); `k`
bounds them. -/
def gwFeed : Nat → State → State
  | 0, s => s
  | k + 1, s =>
    let mine := flag s ETH_GW_CFG.EN && (isHead s || (decide (headRole s = 0) && flag s ETH_GW_CFG.OWN_STREAM)) &&
      (!flag s TWN_CTRL.EN || holdsTop s) && (ownAddr s).isSome
    match nextStream s with
    | some (n, i, f) =>
      if mine && gwRoom s f then
        let r := fetchStream n i f s
        match r.1 with
        | some g => gwFeed k (gwPut g (streamSent n r.2))
        | none => r.2
      else s
    | none => s

/-- Payload bytes of a datagram on MAC `m`: MTU less the IP and UDP headers (R347). -/
def gwLimit (s : State) (m i : Nat) : Nat := mtu s m - (if fld s (ETH_DESTi_CFG.FAMILY i) = 1 then 48 else 28)

/-- The frames from the front that fit in one datagram. -/
def gwTake (limit : Nat) : Nat → Nat → List (LineFrame × Nat × Nat) → List (LineFrame × Nat × Nat)
  | _, _, [] => []
  | used, n, q :: t => if n < 255 ∧ used + frameSize q.1 ≤ limit then q :: gwTake limit (used + frameSize q.1) (n + 1) t else []

/-- Whether a datagram can leave MAC `m` for entry `i`. -/
def destUsable (s : State) (m i : Nat) : Bool :=
  decide (i < 64) && flag s (ETH_DESTi_CFG.VALID i) && decide (fld s (ETH_DESTi_CFG.FAMILY i) < 2) && macOn s m

/-- A datagram of frames, given as their bytes, leaves MAC `m` for entry `i` (R347); an entry that is not usable discards it. -/
def sendDatagram (m i : Nat) (fs : List (List Byte)) (s : State) : State :=
  if !destUsable s m i then addSat s (ETH_MACm_TX_DROP.TX_DROP m) 1
  else
    let six := decide (fld s (ETH_DESTi_CFG.FAMILY i) = 1)
    let own := fld s ETH_UDP_PORT.PORT
    let port := if fld s (ETH_DESTi_CFG.UDP_PORT i) = 0 then own else fld s (ETH_DESTi_CFG.UDP_PORT i)
    let p := bytesLE 1 0x10 ++ bytesLE 1 fs.length ++ bytesLE 2 (fld s WOT_ADDR.LINE_ID) ++ bytesLE 4 (rd s (ETH_MACm_DGRAM_SEQ m)).toNat ++
      fs.flatten
    let ip := if six then udpPacket true (ip6 s (ETH_MACm_IPV60 m)) (ip6 s (ETH_DESTi_IP0 i)) own port p
      else udpPacket false (rd s (ETH_MACm_IPV4 m)).toNat (rd s (ETH_DESTi_IP0 i)).toNat own port p
    let f := macOctets (rd s (ETH_DESTi_MAC_LO i)) (rd s (ETH_DESTi_MAC_HI i)) ++ ownMac s m ++ bytesBE 2 (if six then 0x86DD else 0x0800) ++ ip
    addMod (macSend m f s) (ETH_MACm_DGRAM_SEQ.DGRAM_SEQ m) 1

/-- Output frames with an Ethernet path leave as datagrams of one COMMAND frame each (R215, R248, R347): path 1 is the MAC of lane 3,
path 2 that of lane 2. A hub without a valid address originates none (R308). -/
def sendOutputs (s : State) : State :=
  let mine := s.out.frames.filter (fun q => decide (q.path ≠ 0))
  let s1 := setOut { s.out with frames := s.out.frames.filter (fun q => decide (q.path = 0)) } s
  if (ownAddr s).isNone then s1
  else
    mine.foldl (fun s q =>
      sendDatagram (if q.path = 1 then 1 else 0) q.dest
        [frameBytes (fromHere s { type := 1, aux := bit q.message, payload := q.data })] s) s1

/-- The stream number of a STREAM frame. -/
def streamNumber (f : LineFrame) : Nat := ofBytesLE (f.payload.take 4)

/-- A frame has been handed to the uplink: with HOST_ACK = 0 a head acknowledges it (R325, R346). -/
def handedOff (s : State) (f : LineFrame) : State :=
  if f.type ≠ 3 ∨ !isHead s ∨ flag s WOT_CTRL.HOST_ACK then s
  else
    let n := (streamNumber f + 1) % 2 ^ 32
    if f.hops = 0 then freeSpill n s else setWot { s.wot with acked := tins (tdrop s.wot.acked f.src) f.src n } s

/-- GW_DATAGRAM_CLOSE (R346, R347): output frames leave; the gateway's datagram closes when the next frame would not fit, or its oldest has
waited PACK µs. While its destination entry is not usable the frames wait. -/
def execGwDatagramClose (ofs : Nat) (s : State) : Host.Outcome State Fault Refusal :=
  whileAwake (fun s =>
    let s0 := gwFeed 64 (sendOutputs (atOfs ofs s))
    match gwPath s0 with
    | some (m, i) =>
      let fs := gwTake (gwLimit s0 m i) 8 0 s0.eth.gateway
      let full := decide (fs.length < s0.eth.gateway.length)
      let old := match s0.eth.gateway with
        | (_, t, _) :: _ => decide (t + nsec (1000 * max 1 (fld s0 ETH_GW_CFG.PACK)) ≤ clk s0)
        | [] => false
      if (full || old) && decide (fs ≠ []) && destUsable s0 m i then
        let r := fs.foldl gwGet ([], setEth { s0.eth with gateway := s0.eth.gateway.drop fs.length } s0)
        done ((fs.map (fun q => q.1)).foldl handedOff (sendDatagram m i r.1 r.2))
      else done s0
    | none => done s0) s

/-- Whether a frame comes behind one that the head has turned away (R346): none is accepted until the hub has gone back to send that again, for
NEXT would acknowledge it (R325, R398; log entry 205). -/
def behindGap (s : State) (f : LineFrame) : Bool :=
  match s.wot.turnedAway.find? (fun q => decide (q.1 = f.src)) with
  | some (_, e, last) => decide (e = f.epoch) && decide (0 < sdiff32 (streamNumber f) last)
  | none => false

/-- Frame `f` is not accepted. -/
def turnAway (f : LineFrame) (s : State) : State :=
  setWot { s.wot with turnedAway := tins (tdrop s.wot.turnedAway f.src) f.src (f.epoch, streamNumber f) } s

/-- Frame `f` is accepted. -/
def acceptStream (f : LineFrame) (s : State) : State :=
  let x := s.wot
  gwPut { f with hops := f.hops + 1 }
    (setWot { x with accepted := tins (tdrop x.accepted f.src) f.src (f.epoch, streamNumber f), turnedAway := tdrop x.turnedAway f.src } s)

/-- STREAM_FRAME_RECEIVE (R325, R346): a head accepts a frame that is new and that its gateway can hold; any other hub forwards it. -/
def execStreamFrameReceive (s : State) : Host.Outcome State Fault Refusal :=
  match takeArrived (fun a => decide (a.lane < 2) && decide (a.frame.type = 3)) s with
  | some (a, s1) =>
    let f := a.frame
    if !isHead s1 then done (forwardWhole f s1)
    else
      let n := streamNumber f
      let new := match s1.wot.accepted.find? (fun q => decide (q.1 = f.src)) with
        | some (_, e, last) => decide (e ≠ f.epoch) || decide (0 < sdiff32 n last)
        | none => true
      if !new then done s1
      else if !gwRoom s1 f then done (turnAway f (gwRefuse s1))
      else if behindGap s1 f then done (turnAway f s1)
      else done (acceptStream f s1)
  | none => done s

/-- A COMMAND or MGMT frame for this hub: a head's gateway forwards it, or software has it (R318, R346). -/
def arriveHere (f : LineFrame) (s : State) : State :=
  let fwd := isHead s && flag s ETH_GW_CFG.EN && flag s (if f.type = 1 then ETH_GW_CFG.FWD_CMD else ETH_GW_CFG.FWD_MGMT)
  if fwd && gwRoom s f then gwPut f s else deliver f s

/-- UNICAST_FRAME_RECEIVE (R318, R346). -/
def execUnicastFrameReceive (s : State) : Host.Outcome State Fault Refusal :=
  match takeArrived (fun a => decide (a.frame.type = 5) || (decide (a.lane < 2) && decide (a.frame.type = 1))) s with
  | some (a, s1) =>
    let f := a.frame
    if a.lane = 2 then done (deliver f s1)
    else if ownAddr s1 ≠ some f.dst then done (forwardWhole f s1)
    else done (arriveHere f s1)
  | none => done s

/-- One entry of a HOST_ACK at a head with HOST_ACK = 1: its acknowledged point, capped at what it has accepted (R348). -/
def hostAckEntry (s : State) (q : Nat × Nat) : State :=
  match s.wot.accepted.find? (fun p => decide (p.1 = q.1)) with
  | some (_, _, last) =>
    let cap := (last + 1) % 2 ^ 32
    let n := if 0 < sdiff32 q.2 cap then cap else q.2
    setWot { s.wot with acked := tins (tdrop s.wot.acked q.1) q.1 n } s
  | none => s

/-- The first waiting datagram of a kind. -/
def takeDatagram (kind : Nat) (s : State) : Option (List Byte × State) :=
  match s.eth.datagrams.findIdx? (fun b => decide (numAt b 0 1 % 16 = kind)) with
  | some i =>
    match s.eth.datagrams[i]? with
    | some b => some (b, setEth { s.eth with datagrams := s.eth.datagrams.eraseIdx i } s)
    | none => none
  | none => none

/-- HOST_ACK_RECEIVE (R348, R349): a head with HOST_ACK = 1 takes the points of the hubs and its own, a hub with OWN_STREAM its own, which
is capped at what the gateway has taken. -/
def execHostAckReceive (s : State) : Host.Outcome State Fault Refusal :=
  match takeDatagram 1 s with
  | some (b, s1) =>
    let es := ackEntries (b.drop 8) (min (numAt b 1 1) ((b.length - 8) / 8))
    let own := flag s1 ETH_GW_CFG.OWN_STREAM && decide (headRole s1 = 0)
    let head := isHead s1 && flag s1 WOT_CTRL.HOST_ACK
    let s2 := if head then es.foldl hostAckEntry s1 else s1
    match es.find? (fun q => decide (q.1 = streamAddr s2)) with
    | some q =>
      let n := if 0 < sdiff32 q.2 s2.wot.sentTop then s2.wot.sentTop else q.2
      if head || own then done (freeSpill n s2) else done s2
    | none => done s2
  | none => done s

/-- The frames in an INJECT datagram: each as long as its LENGTH gives; `k` bounds them. -/
def splitFrames : Nat → List Byte → List (List Byte)
  | 0, _ => []
  | k + 1, bs =>
    if bs.length < 20 then []
    else
      let n := 20 + ofBytesLE ((bs.drop 8).take 2) % 512
      bs.take n :: splitFrames k (bs.drop n)

/-- One injected frame (R348): a COMMAND or MGMT frame goes onto the line as the head's own. -/
def injectFrame (s : State) (bs : List Byte) : State :=
  match parseFrame 0 bs, ownAddr s with
  | .good f, some a =>
    if f.type = 1 ∨ f.type = 5 then
      let g := fromHere s { vc := f.vc, type := f.type, dst := f.dst, aux := f.aux, west := decide (f.dst < a), payload := f.payload }
      if f.dst = a then arriveHere g s
      else if onLine s (laneToward g.west) then enqueueFrame (laneToward g.west) g s else countDrop (laneToward g.west) 1 s
    else rxDrop (fld s ETH_GW_CFG.MAC) s
  | _, _ => rxDrop (fld s ETH_GW_CFG.MAC) s

/-- INJECT_DATAGRAM_RECEIVE (R348). -/
def execInjectDatagramReceive (s : State) : Host.Outcome State Fault Refusal :=
  match takeDatagram 2 s with
  | some (b, s1) =>
    let fs := splitFrames (numAt b 1 1) (b.drop 8)
    if isHead s1 then done (fs.foldl injectFrame s1) else done (rxDrop (fld s1 ETH_GW_CFG.MAC) s1)
  | none => done s

/-! ### SFP modules (R350) -/

/-- The command word of an SFP transfer: WRITE, LEN, DEV, REG. -/
def sfpWord (write : Bool) (len : Nat) (dev reg : BitVec 8) : Word :=
  w32 (bit write * 2 ^ 21 + len * 2 ^ 18 + dev.toNat * 256 + reg.toNat)

/-- The word of the transfer that runs: the one already accepted, or the one given. -/
def sfpRuns (s : State) (k : Nat) (w : Word) : Word :=
  match s.accepted.find? (fun p => decide (p.1 = ETH_SFPk_CMD k)) with
  | some (_, c) => c.word
  | none => w

/-- The end of a transfer: 0 DONE, 1 the bus held low for 25 ms, 2 no acknowledgement (R350). -/
def sfpEnd (k result : Nat) (s : State) : State :=
  complete (ETH_SFPk_CMD k) (match result with | 0 => 0 | 1 => 5 | _ => 6) s

/-- SFP_READ (R350): the module's answer is given with the command. -/
def execSfpRead (k : Fin 2) (len : Fin 8) (dev reg : BitVec 8) (data : List Byte) (result : Fin 3) (s : State) :
    Host.Outcome State Fault Refusal :=
  let w := sfpRuns s k (sfpWord false len dev reg)
  if nbit w.toNat 21 then done (reject (ETH_SFPk_CMD k) 2 s)
  else if result.val ≠ 0 then done (sfpEnd k result s)
  else
    let n := fget w 18 3 + 1
    let byte := fun (i : Nat) (old : Word) => if i < n then (data.getD i 0).toNat else fget old (i % 4 * 8) 8
    let word := fun (j : Nat) (old : Word) => w32 (byte (4 * j) old + byte (4 * j + 1) old * 256 + byte (4 * j + 2) old * 65536 +
      byte (4 * j + 3) old * 16777216)
    let s1 := wr s (ETH_SFPk_DATA0 k) (word 0 (rd s (ETH_SFPk_DATA0 k)))
    let s2 := if 4 < n then wr s1 (ETH_SFPk_DATA1 k) (word 1 (rd s (ETH_SFPk_DATA1 k))) else s1
    done (sfpEnd k 0 (emit (.sfp k) (bytesLE 1 (fget w 8 8) ++ bytesLE 1 (fget w 0 8)) s2))

/-- SFP_WRITE (R350). -/
def execSfpWrite (k : Fin 2) (len : Fin 8) (dev reg : BitVec 8) (result : Fin 3) (s : State) : Host.Outcome State Fault Refusal :=
  let w := sfpRuns s k (sfpWord true len dev reg)
  if !nbit w.toNat 21 then done (reject (ETH_SFPk_CMD k) 2 s)
  else
    let d := (bytesLE 4 (rd s (ETH_SFPk_DATA0 k)).toNat ++ bytesLE 4 (rd s (ETH_SFPk_DATA1 k)).toNat).take (fget w 18 3 + 1)
    let out := emit (.sfp k) (bytesLE 1 (fget w 8 8) ++ bytesLE 1 (fget w 0 8) ++ d) s
    done (sfpEnd k result (if result.val = 1 then s else out))

/-! ### Links (R336, R345, R349) -/

/-- The link of MAC `m` has changed: LINK and ETH_LINK; down, the engines on it lose their path; up, own frames are sent again. -/
def ethLink (m : Nat) (s : State) : State :=
  let was := flag s (ETH_MACm_LINK.LINK m)
  let up := macLink s m
  if was = up then s
  else
    let s1 := raise 208 (setFlag s (ETH_MACm_LINK.LINK m) up)
    if up then
      let gw := flag s1 ETH_GW_CFG.EN && flag s1 ETH_GW_CFG.OWN_STREAM && decide (headRole s1 = 0) &&
        (decide (fld s1 ETH_GW_CFG.MAC = m) || flag s1 ETH_GW_CFG.ALT_EN)
      if gw then resendStream s1 else s1
    else ((List.range 2).filter (fun d => ptpOn s1 d m)).foldl (fun s d => ptpRestart d s) s1

end Sys2Proof.Machine
end

