-- ==== Sys2Proof/Machine/LaneRows.lean ====
section
/-!
DEFINITION. The commands and events of the lanes, with what a lane that comes up or goes down does to the line engine, the MACs and the
heads (spec/10_lanes.md R286 to R303; spec/11_woten_line.md R313, R315, R326; spec/12_uplink_ptp.md R336).
-/
namespace Sys2Proof.Machine
open Sys2Proof

/-! ### Entering and leaving UP (R302, R315, R326, R336) -/

/-- Timeouts do not count while the lane is not UP (R315). -/
def restartTimers (l : Nat) (s : State) : State :=
  (List.range 4).foldl (fun s v => let x := vcOf s l v; if x.unacked = [] then s else setVc l v { x with since := clk s } s) s

/-- Lane `n` enters UP; `again` is a return from RELOCK, which keeps the link layer (R315). -/
def enterUp (n : Nat) (again : Bool) (s : State) : State :=
  let s1 := showLatency n (enterLane n 6 (signalSeen n s))
  let s2 := raise 189 (setLane n { laneOf s1 n with trainRun := 0 } s1)
  if 2 ≤ n ∧ laneMode s2 n ≠ 1 then ethLink (n - 2) s2
  else if again then showLink n (restartTimers n (freshDelay n s2))
  else linkReset n s2

/-- What follows when lane `n` has left UP: the counts, LNK_DOWN, the link with its global operations, and the head beyond it (R296, R326,
R330, R336). -/
def afterDown (n : Nat) (s : State) : State :=
  let s1 := raise 190 (setFlag (addSat s (LNK_LANEn_COUNT.DOWNS n) 1) (LNK_LANEn_SEEN.DOWN n) true)
  if 2 ≤ n then ethLink (n - 2) s1
  else
    let s2 := turnQueued n (showLink n s1)
    if reaches s2 (decide (n = 0)) then loseHead (decide (n = 0)) s2 else s2

/-- A move out of the present state; leaving UP has its own effects. -/
def moveLane (n : Nat) (move : State → State) (s : State) : State :=
  if laneUp s n && !laneUp (move s) n then afterDown n (move s) else move s

/-! ### Enable and disable (R293, R296) -/

/-- EN goes from 0 to 1: TEST, or LISTEN; a mode that the lane does not accept acts as OFF (R286, R293). -/
def laneStart (n : Nat) (s : State) : State :=
  let s1 := takeControl n s
  let m := laneMode s1 n
  if m = 5 then enterTest n s1 else if m = 0 then enterOff n s1 else enterListen n s1

/-- EN is cleared (R296). -/
def laneStop (n : Nat) (s : State) : State := moveLane n (enterOff n) s

/-- LANE_ENABLE (R293). -/
def execLaneEnable (n : Fin 4) (s : State) : Host.Outcome State Fault Refusal :=
  if flag s (LNK_LANEn_CTRL.EN n) then done s else done (laneStart n (setFlag s (LNK_LANEn_CTRL.EN n) true))

/-- LANE_DISABLE (R296). -/
def execLaneDisable (n : Fin 4) (s : State) : Host.Outcome State Fault Refusal :=
  if flag s (LNK_LANEn_CTRL.EN n) then done (laneStop n (setFlag s (LNK_LANEn_CTRL.EN n) false)) else done s

/-! ### LISTEN (R293) -/

/-- WAKE_BURST (R293, R297): once a second in LISTEN, 2 ms of training blocks or of Clause 72 training frames. -/
def execWakeBurst (n : Fin 4) (ofs : Nat) (s : State) : Host.Outcome State Fault Refusal :=
  whileAwake (fun s =>
    let s0 := atOfs ofs s
    let x := laneOf s0 n
    let m := laneMode s0 n
    if laneState s0 n = 1 ∧ (m = 1 ∨ m = 3) ∧ (x.wake = 0 ∨ x.wake + nsec 1000000000 ≤ clk s0 + 1) then
      let s1 := setLane n { x with wake := clk s0 + 1 } s0
      done (sendTraining n (txFree s1 n) (bitsIn s1 n (nsec 2000000) / (if m = 3 then frame72Bits else 66)) s1)
    else done s0) s

/-- LNK_SIGNAL (R293): signal for 100 µs in LISTEN; the event is posted with the move to ACQUIRE. -/
def execLnkSignal (n : Fin 4) (s : State) : Host.Outcome State Fault Refusal :=
  whileAwake (fun s =>
    if laneState s n = 1 then done (acquireTop n (signalSeen n s)) else done s) s

/-- LNK_ABSENT (R293): 1 s of LISTEN without signal. -/
def execLnkAbsent (n : Fin 4) (ofs : Nat) (s : State) : Host.Outcome State Fault Refusal :=
  whileAwake (fun s =>
    let s0 := atOfs ofs s
    let x := laneOf s0 n
    if laneState s0 n = 1 ∧ x.since + nsec 1000000000 ≤ clk s0 ∧ !x.absentPosted then
      let s1 := setFld (setFlag (setFlag s0 (LNK_LANEn_STATUS.LOS n) true) (LNK_LANEn_STATUS.ABSENT n) true) ⟨LNK_STATUS, 4 + n, 1⟩ 1
      done (raise 193 (setLane n { x with absentPosted := true } s1))
    else done s0) s

/-! ### Training (R293 to R297) -/

/-- BLOCK_LOCK (R293, R296, R297): ACQUIRE leads to TRAIN, TRAIN_PRESET or UP, and RELOCK to UP. -/
def execBlockLock (n : Fin 4) (ofs : Nat) (s : State) : Host.Outcome State Fault Refusal :=
  whileAwake (fun s =>
    let s0 := atOfs ofs s
    let m := laneMode s0 n
    if laneState s0 n = 7 then done (enterUp n true s0)
    else if laneState s0 n = 2 then
      if m = 1 ∨ m = 3 then done (enterLane n (if fld s0 (LNK_LANEn_STATUS.ATTEMPT n) = 2 then 4 else 3) s0)
      else done (enterUp n false s0)
    else done s0) s

/-- A training frame of Clause 72 as its coefficient update and its status report, each big-endian (log entry 93). The ready bit stands
for GO as well. -/
def parseClause72 (s : State) (n : Nat) (bs : List Byte) : Option TrainBlock :=
  let u := numAt bs 0 2
  let r := numAt bs 2 2
  if bs.length = 4 then
    some { req := (u % 4, u / 4 % 4, u / 16 % 4), st := (r % 4, r / 4 % 4, r / 16 % 4), preset := nbit u 13,
           ready := nbit r 15, go := nbit r 15, rate := laneRate s n, role := 0,
           attempt := 0 }
  else none

/-- A training frame of Clause 72 asks for INITIALIZE (R288). -/
def asksInit (bs : List Byte) : Bool := nbit (numAt bs 0 2) 12

/-- A good training block or frame in TRAIN, TRAIN_PRESET or CONFIRM: the partner's role, its requests and its readiness (R294). -/
def trainWith (n : Nat) (b : TrainBlock) (init : Bool) (s : State) : State :=
  let kr := decide (laneMode s n = 3)
  let s1 := if kr then s else setFlag (setFld s (LNK_LANEn_STATUS.PARTNER_ROLE n) b.role) (LNK_LANEn_STATUS.PARTNER_VALID n) true
  let x := laneOf s1 n
  let s2 := askTaps n b <| setLane n { x with goodSeen := true, readyGot := x.readyGot + bit b.ready, go := x.go || b.go } s1
  let s3 := if init && decide (laneState s2 n = 3) then
      setLane n { laneOf s2 n with answers := (1, 1, 1) } (offerTaps n (4, 47, 12) s2)
    else answerTaps n b s2
  judgeConfirm n s3

/-- TRAINING_BLOCK_RECEIVE (R291, R294, R296, R297): a block that is `inverted` at the LRX ball and stays so behind RX_INV leads to an
inverted receiver where AUTO_POL is set. A fill block is removed; what goes out up to here is sent first. -/
def execTrainingBlockReceive (n : Fin 4) (bytes : List Byte) (inverted : Bool) (s0 : State) : Host.Outcome State Fault Refusal :=
  whileAwake (fun s0 =>
    let s := flow n [] s0
    let st := laneState s n
    let m := laneMode s n
    let y := laneOf s n
    let wrong := inverted != (nbit y.taken.toNat 22 != y.rxFlip)
    let pol := wrong && nbit y.taken.toNat 24 && decide (m = 1)
    let b := if wrong && !pol then none else if m = 1 then parseTrain bytes else if m = 3 then parseClause72 s n bytes else none
    match b with
    | some b =>
      let s1 := if pol then setFlag (setLane n { y with rxFlip := !y.rxFlip } s) (LNK_LANEn_STATUS.POL_DETECTED n) true else s
      let x := laneOf s1 n
      if st = 3 ∨ st = 4 ∨ st = 5 then done (trainWith n b (decide (m = 3) && asksInit bytes) s1)
      else if st = 6 ∨ st = 7 then done (setLane n { x with trainRun := x.trainRun + 1, trainRate := b.rate } s1)
      else done s
    | none => done (if m = 1 ∧ bytes.head? = some 0x3C#8 then s else setLane n { y with trainRun := 0 } s)) s0

/-- RX_READY (R294): the eye has stayed above 60 mV and 0.30 UI for 1 ms; its height and width are given. -/
def execRxReady (n : Fin 4) (height width : BitVec 16) (s : State) : Host.Outcome State Fault Refusal :=
  whileAwake (fun s =>
    if (laneState s n = 3 ∨ laneState s n = 4) ∧ 60 < height.toNat ∧ 300 < width.toNat then
      let s1 := wr (flow n [] s) (LNK_LANEn_EYE n) (w32 (height.toNat * 65536 + width.toNat))
      done (judgeConfirm n (setLane n { laneOf s1 n with rxReady := true } s1))
    else done s) s

/-- LNK_UP (R293): the 64 blocks of CONFIRM have gone, the last with GO, and the partner's GO has come. -/
def execLnkUp (n : Fin 4) (ofs : Nat) (s : State) : Host.Outcome State Fault Refusal :=
  whileAwake (fun s =>
    let s0 := flow n [] (atOfs ofs s)
    let x := laneOf s0 n
    if laneState s0 n = 5 ∧ x.go ∧ 64 ≤ x.confirm then done (enterUp n false s0) else done s0) s

/-- TRAINING_BUDGET_EXPIRE (R295, R297): 500 ms from entry to ACQUIRE, in the modes that train. -/
def execTrainingBudgetExpire (n : Fin 4) (ofs : Nat) (s : State) : Host.Outcome State Fault Refusal :=
  whileAwake (fun s =>
    let s0 := atOfs ofs s
    let st := laneState s0 n
    let m := laneMode s0 n
    if (st = 2 ∨ st = 3 ∨ st = 4) ∧ (m = 1 ∨ m = 3) ∧ (laneOf s0 n).attempt + nsec 500000000 ≤ clk s0 then done (attemptFails n s0)
    else done s0) s

/-- PARTNER_RATE_DETECT (R295): in ACQUIRE or TRAIN the partner transmits at a lower rate of the ladder. -/
def execPartnerRateDetect (n : Fin 4) (rate : Fin 4) (s : State) : Host.Outcome State Fault Refusal :=
  whileAwake (fun s =>
    let st := laneState s n
    if (st = 2 ∨ st = 3) ∧ laneMode s n = 1 ∧ laneRate s n < rate.val then
      done (raise 191 (setFlag (enterAcquire n rate 1 s) (LNK_LANEn_SEEN.FALLBACK n) true))
    else done s) s

/-! ### Loss, relocking and failure (R296) -/

/-- The lane leaves UP for RELOCK. -/
def enterRelock (n : Nat) (s : State) : State := moveLane n (enterLane n 7) s

/-- LOSS_OF_SIGNAL (R296): below the threshold for 1 µs. Training aborts to LISTEN, UP goes to RELOCK. -/
def execLossOfSignal (n : Fin 4) (s : State) : Host.Outcome State Fault Refusal :=
  whileAwake (fun s =>
    let st := laneState s n
    let s1 := setFlag (setFlag s (LNK_LANEn_STATUS.LOS n) true) (LNK_LANEn_SEEN.LOS n) true
    if st = 0 then done s
    else if st = 2 ∨ st = 3 ∨ st = 4 ∨ st = 5 then done (setFlag (enterListen n s1) (LNK_LANEn_SEEN.ABORT n) true)
    else if st = 6 then done (enterRelock n s1)
    else done s1) s

/-- LNK_DOWN (R296): bad sync headers, no good block for 10 µs, or lost lock or synchronisation (R297). -/
def execLnkDown (n : Fin 4) (s : State) : Host.Outcome State Fault Refusal :=
  whileAwake (fun s =>
    if laneState s n = 6 then done (enterRelock n s) else done s) s

/-- What the signal detector says now. -/
def showSignal (n : Nat) (signal : Bool) (s : State) : State := setFlag s (LNK_LANEn_STATUS.LOS n) (!signal)

/-- RELOCK_TIMEOUT (R296): 10 ms of RELOCK; LISTEN without signal, else ACQUIRE at RATE_MAX. -/
def execRelockTimeout (n : Fin 4) (ofs : Nat) (signal : Bool) (s : State) : Host.Outcome State Fault Refusal :=
  whileAwake (fun s =>
    let s0 := atOfs ofs s
    if laneState s0 n = 7 ∧ (laneOf s0 n).since + nsec 10000000 ≤ clk s0 then
      let s1 := showSignal n signal s0
      done (if signal then acquireTop n s1 else enterListen n s1)
    else done s0) s

/-- PARTNER_RETRAIN_DETECT (R296): 4 good training blocks in a row in UP or RELOCK. -/
def execPartnerRetrainDetect (n : Fin 4) (s : State) : Host.Outcome State Fault Refusal :=
  whileAwake (fun s =>
    let st := laneState s n
    let x := laneOf s n
    if (st = 6 ∨ st = 7) ∧ 4 ≤ x.trainRun then done (raise 190 (moveLane n (enterAcquire n x.trainRate 1) s)) else done s) s

/-- FAIL_RETRY (R296). -/
def execFailRetry (n : Fin 4) (ofs : Nat) (signal : Bool) (s : State) : Host.Outcome State Fault Refusal :=
  whileAwake (fun s =>
    let s0 := atOfs ofs s
    let k := fld s0 (LNK_LANEn_CTRL.FAIL_RETRY n)
    if laneState s0 n = 8 ∧ 0 < k ∧ (laneOf s0 n).since + nsec (1000000000 * k) ≤ clk s0 then
      let s1 := showSignal n signal s0
      done (if signal then acquireTop n s1 else enterListen n s1)
    else done s0) s

/-! ### Commands (R296, R300) -/

/-- RETRAIN in TEST with MODE = TEST: the fields are taken, and the receiver starts anew from its reset values (R293, R296). -/
def restartTest (n : Nat) (s : State) : State := overrideCtle n (wr (enterTest n (takeControl n s)) (LNK_LANEn_RX_EQ n) 0)

/-- RETRAIN acts on lane `n`, which is not OFF (R296). -/
def retrain (n : Nat) (s : State) : State :=
  let test := decide (modeOf n (rd s (LNK_LANEn_CTRL n)) = 5)
  if laneState s n = 9 then (if test then restartTest n s else laneStart n s)
  else moveLane n (acquireTop n) s

/-- RETRAIN (R296). -/
def execRetrain (n : Fin 4) (s : State) : Host.Outcome State Fault Refusal :=
  if laneState s n = 0 then done (refuse (LNK_LANEn_CMD n) s) else done (complete (LNK_LANEn_CMD n) 0 (retrain n s))

/-- LANE_INJECT (R300). -/
def execLaneInject (n : Fin 4) (s : State) : Host.Outcome State Fault Refusal :=
  if laneState s n = 6 ∨ laneState s n = 9 then done (injectNow n s) else done (refuse (LNK_LANEn_CMD n) s)

/-- ACK_TIMEOUT (R313): ACK_TO has passed without progress; after RETRY_MAX timeouts in a row the lane is retrained. -/
def execAckTimeout (l : Fin 3) (v : Fin 4) (ofs : Nat) (s : State) : Host.Outcome State Fault Refusal :=
  let s0 := atOfs ofs s
  let x := vcOf s0 l v
  if linkUp s0 l && decide (x.unacked ≠ []) && decide (x.since + nsec (1000 * max 1 (fld s0 WOT_TIMING.ACK_TO)) ≤ clk s0) then
    let s1 := resendAll l v (setVc l v { x with tries := x.tries + 1 } s0)
    if max 1 (fld s1 WOT_TIMING.RETRY_MAX) ≤ x.tries + 1 then done (retrain l s1) else done s1
  else done s0

/-! ### Receiver monitors, fill blocks and the PRBS checker (R289 to R291, R298) -/

/-- Whether the receiver adapts in this state (R289, R298). -/
def adapts (s : State) (n : Nat) : Bool :=
  let st := laneState s n
  (decide (2 ≤ st) && decide (st ≤ 6)) || decide (st = 9)

/-- ADAPT_FREEZE (R290): a window of 1 µs has ended with so many transitions. -/
def execAdaptFreeze (n : Fin 4) (ofs transitions : Nat) (s : State) : Host.Outcome State Fault Refusal :=
  whileAwake (fun s =>
    let s0 := atOfs ofs s
    if adapts s0 n && decide (16 * transitions < bitsIn s0 n (nsec 1000)) then
      let s1 := setFlag (setFlag s0 (LNK_LANEn_STATUS.ADAPT_FROZEN n) true) (LNK_LANEn_SEEN.FREEZE n) true
      let s2 := setLane n { laneOf s1 n with frozen := clk s1 + nsec 1000 } s1
      done (count (264 + n) 1 (addSat s2 (LNK_LANEn_FREEZE_CNT.WINDOWS n) 1))
    else done s0) s

/-- ADAPT_FROZEN as it stands now: a freeze ends with the window after the frozen one (R290). -/
def thawLane (s : State) (n : Nat) : State :=
  if (laneOf s n).frozen ≤ clk s then setFlag s (LNK_LANEn_STATUS.ADAPT_FROZEN n) false else s

/-- Whether the lane carries Woten traffic, and so fill blocks (R291). -/
def fills (s : State) (n : Nat) : Bool := decide (laneMode s n = 1 ∧ (laneState s n = 6 ∨ laneState s n = 7))

/-- A fill block leaves: block type 0x3C and seven bytes of the free-running PRBS31 (R291). -/
def sendFill (n : Nat) (s : State) : State :=
  let x := laneOf s n
  let r := prbsRun 31 56 x.fill
  sendBlocks n [(true, 0x3C#8 :: packBits r.1)] (setLane n { x with fill := r.2, fillAt := clk s + 1 } s)

/-- FILL_BLOCK_SEND (R291). -/
def execFillBlockSend (n : Fin 4) (ofs : Nat) (s : State) : Host.Outcome State Fault Refusal :=
  whileAwake (fun s =>
    let s0 := atOfs ofs s
    done (if fills s0 n then sendFill n s0 else s0)) s

/-- A fill block that the lap to come would make later than 10 µs after the one before leaves at the boundary (R291). -/
def fillLap (s : State) (n : Nat) : State :=
  if fills s n && decide ((laneOf s n).fillAt + nsec 10000 < clk s + lapUnits + 1) then sendFill n s else s

/-- Whether the lane carries traffic outside TEST. -/
def carriesTraffic (s : State) (n : Nat) : Bool := laneUp s n

/-- PRBS_CHK_ENABLE (R298, R403). -/
def execPrbsChkEnable (n : Fin 4) (s : State) : Host.Outcome State Fault Refusal :=
  if flag s (LNK_LANEn_PRBS_CTRL.CHK_EN n) then done s
  else if carriesTraffic s n then .fault .misusePrbsCheck
  else done (checkerStart n (setFlag s (LNK_LANEn_PRBS_CTRL.CHK_EN n) true))

/-- PRBS_LOCK (R298): with the bits that have arrived, 64 in a row are correct. -/
def execPrbsLock (n : Fin 4) (rx : RxBits) (s : State) : Host.Outcome State Fault Refusal :=
  whileAwake (fun s =>
    let s0 := atOfs rx.ofs s
    if laneState s0 n = 9 ∧ flag s0 (LNK_LANEn_PRBS_STATUS.LOCK n) = false then done (flow n rx.bits s0) else done s0) s

/-- LNK_PRBS_LOST (R298): with the bits that have arrived, more than 32 of 1 024 are wrong. -/
def execLnkPrbsLost (n : Fin 4) (ofs : Nat) (bits : List Bool) (s : State) : Host.Outcome State Fault Refusal :=
  whileAwake (fun s =>
    let s0 := atOfs ofs s
    if laneState s0 n = 9 ∧ flag s0 (LNK_LANEn_PRBS_STATUS.LOCK n) = true then done (flow n bits s0) else done s0) s

/-- What the receiver of a lane reports at a lap boundary (R289, R294): equaliser values and eye; held values hold. -/
def laneReport (x : LaneIn) (s : State) : State :=
  let n := x.lane.val
  let frozen := flag s (LNK_LANEn_RX_HOLD.HOLD n) || decide (clk s < (laneOf s n).frozen) || !adapts s n
  let eq := if frozen then rd s (LNK_LANEn_RX_EQ n) else x.eq
  overrideCtle n (wr (wr s (LNK_LANEn_RX_EQ n) eq) (LNK_LANEn_EYE n) x.eye)

/-- The bits that a report gives for lane `n`. -/
def bitsOfLane (xs : List LaneIn) (n : Nat) : List Bool := (xs.filter (fun x => decide (x.lane.val = n))).flatMap (fun x => x.bits)

/-- The lanes at a lap boundary: what they have sent and received, their fill blocks, and the reports of their receivers. -/
def lanesBoundary (xs : List LaneIn) (s : State) : State :=
  let s1 := (List.range 4).foldl (fun s n => fillLap (flow n (bitsOfLane xs n) (thawLane s n)) n) s
  xs.foldl (fun s x => laneReport x s) s1

end Sys2Proof.Machine
end

