-- ==== Sys2Proof/Machine/Dmc.lean ====
section
/-!
DEFINITION. The DRAM controller: training, requests and their order, refresh, inline ECC, the scrubber, self-refresh and the interleave
grain (spec/13_dram.md R353 to R371).
-/
namespace Sys2Proof.Machine
open Sys2Proof

/-- The controller enters READY; its timers start. -/
def dmcReady (s : State) : State :=
  let t := clk s
  setDmc { s.dmc with asleep := false, aborting := false, refreshAt := t, pollAt := t, tuneAt := t, scrubAt := t } (setDmcState 2 s)

/-- The contents of DRAM from `lo` up to `hi` are lost, with what was wrong in them (log entry 96). -/
def loseDram (lo hi : Nat) (s : State) : State :=
  let s1 := loseRange lo hi s
  setDmc { s1.dmc with latent := s1.dmc.latent.filter (fun q => !within lo hi (8 * q.1)) } s1

/-! ### Initialisation (R355 to R357) -/

/-- The steps of R356 begin at `k` on channel `c`. -/
def startSteps (k : Nat) (s : State) (c : Nat) : State := setFld (setFld s (DMC_TRAINc.STEP c) k) (DMC_TRAINc.FAIL_STEP c) 0

/-- The word that DMC_TRAIN_SAVEk takes: one that the PHY does not use reads 0 (R357; log entry 202). -/
def phyWord (k : Nat) (w : Word) : Word := if Config.phyUses k then w else 0

/-- A read of DMC_TRAINc while the sequence runs finds a step that has started since, or the same (R356): which is free (log entry 202).
INIT_RESUME has no steps 3 to 7 (R357). -/
def lookStep (c : Nat) (s : State) : State :=
  if dmcState s = 1 then
    let k := fld s (DMC_TRAINc.STEP c)
    let n := Config.trainStep s.fresh
    let next := if dmcOp s = 1 then k + n % (9 - k) else if n % 2 = 0 then k else 8
    setFld (freshen s) (DMC_TRAINc.STEP c) next
  else s

/-- INIT (R355, R356): from OFF or FAILED; the devices are reset, so that their contents are lost. -/
def execInit (s : State) : Host.Outcome State Fault Refusal :=
  if isPending s DMC_CMD then done (reject DMC_CMD 2 s)
  else if dmcState s = 0 ∨ dmcState s = 7 then
    let s0 := [0, 1].foldl (startSteps 1) (loseDram 0 0x80000000 s)
    let s1 := setDmc { s0.dmc with asleep := false, queue := [], port := [], checks := [], coded := eccOn s } s0
    done (accept DMC_CMD 1 (setFld (setDmcState 1 s1) DMC_PASR.MR17 0))
  else done (refuse DMC_CMD s)

/-- The words of DMC_TRAIN_SAVEk. -/
def trainSave (s : State) : List Word := (List.range 64).map (fun k => rd s (DMC_TRAIN_SAVEk k))

/-- INIT_RESUME (R357, R403), whose first step is the ZQ calibration: devices that are not in self-refresh, or training
values that no INIT at this bin gave, are misuse. -/
def execInitResume (s : State) : Host.Outcome State Fault Refusal :=
  if isPending s DMC_CMD then done (reject DMC_CMD 2 s)
  else if dmcState s = 0 ∨ dmcState s = 5 then
    if s.dmc.asleep && decide ((fld s DMC_CFG.BIN, trainSave s) ∈ s.dmc.trained) then
      done (accept DMC_CMD 2 (setDmcState 1 ([0, 1].foldl (startSteps 2) s)))
    else .fault .misuseInitResume
  else done (refuse DMC_CMD s)

/-- The contents kept through INIT_RESUME under another ECC_EN than the one they were written under (R365): without ECC, the data as the devices
hold them, and the check bits in eighth 7; with ECC over contents without check bits, free values (log entry 204). -/
def recode (s : State) : State :=
  if eccOn s = s.dmc.coded then s
  else if eccOn s then setDmc { s.dmc with coded := true, checks := [], latent := [] } (loseDram 0 (dramTop s) s)
  else
    let s1 := s.dmc.latent.foldl (fun s q => if q.2.length = 1 then q.2.foldl (flipBit q.1) s else s) s
    loseDram (dramTop s / 8 * 7) (dramTop s) (setDmc { s1.dmc with coded := false, checks := [], latent := [] } s1)

/-- DMC_TRAIN_DONE (R356, R357): the margins of both channels; after INIT the capacity that MR8 gives and the trained words. -/
def execDmcTrainDone (margins : List (BitVec 8 × BitVec 8)) (large : Bool) (words : List Word) (s : State) : Host.Outcome State Fault Refusal :=
  let m := fun (c : Nat) => margins.getD c (0, 0)
  let good := fun (c : Nat) => decide (64 ≤ (m c).1.toNat) && decide (64 ≤ (m c).2.toNat)
  if dmcState s = 1 ∧ good 0 ∧ good 1 then
    let show1 := fun (s : State) (c : Nat) => wr s (DMC_TRAINc c) (w32 ((m c).1.toNat * 16777216 + (m c).2.toNat * 65536 + 8))
    let s1 := [0, 1].foldl show1 s
    let s2 := if dmcOp s1 = 1 then
        let s2 := (List.range 64).foldl (fun s k => wr s (DMC_TRAIN_SAVEk k) (phyWord k (words.getD k 0))) s1
        setDmc { s2.dmc with trained := (fld s2 DMC_CFG.BIN, trainSave s2) :: s2.dmc.trained, large := large } s2
      else s1
    let s3 := setFlag s2 DMC_STATUS.SIZE s2.dmc.large
    done (raise 216 (complete DMC_CMD 0 (dmcReady (if dmcOp s1 = 2 then recode s3 else s3))))
  else done s

/-- The margins of channel `c` after a check of step 8 that failed (`bad`: on this channel), as far as R356 and R357 say: at least 64 for each where
the channel passes, less for one of them where it fails; else free (log entry 202). -/
def showMargins (bad : Bool) (c : Nat) (s : State) : State :=
  let m := fun (i : Nat) => Config.eyeMargin s.fresh (2 * c + i)
  let low := fun (i : Nat) => if bad && decide (m 2 % 2 = i) then m i % 64 else if bad then m i % 256 else 64 + m i % 192
  setFld (setFld s (DMC_TRAINc.RD_MARGIN c) (low 0)) (DMC_TRAINc.WR_MARGIN c) (low 1)

/-- Whether the sequence can have reached step `k`: not behind a step that was seen, and INIT_RESUME has none but 2 and 8 (R356, R357). -/
def stepReached (s : State) (k : Nat) : Bool :=
  [0, 1].all (fun c => decide (fld s (DMC_TRAINc.STEP c) ≤ k)) && (decide (dmcOp s = 1) || decide (k = 2) || decide (k = 8))

/-- DMC_TRAIN_FAIL (R353, R356): a step that failed on some channels, or the MR8 check of step 1. -/
def execDmcTrainFail (step : Fin 9) (chans : BitVec 2) (mr8 : Bool) (s : State) : Host.Outcome State Fault Refusal :=
  if dmcState s = 1 ∧ 0 < step.val ∧ stepReached s step then
    let bad := mr8 && decide (step.val = 1) && decide (dmcOp s = 1)
    let show1 := fun (s : State) (c : Nat) =>
      setFld (setFld s (DMC_TRAINc.STEP c) step) (DMC_TRAINc.FAIL_STEP c) (if nbit chans.toNat c then step.val else 0)
    let s1 := [0, 1].foldl show1 s
    let s2 := if step.val = 8 then freshen ([0, 1].foldl (fun s c => showMargins (nbit chans.toNat c) c s) s1) else s1
    done (raise 217 (complete DMC_CMD (if bad then 3 else 5) (setDmcState 7 s2)))
  else done s

/-- DQS_RETRAIN (R356): every 100 ms in READY. -/
def execDqsRetrain (ofs : Nat) (s : State) : Host.Outcome State Fault Refusal :=
  let s0 := atOfs ofs s
  if dmcState s0 = 2 ∧ s0.dmc.tuneAt + nsec 100000000 ≤ clk s0 then done (setDmc { s0.dmc with tuneAt := clk s0 } s0) else done s0

/-! ### Requests (R360 to R362, R365, R366, R369) -/

/-- DRAM_REQUEST (R360, R361, R369): `issued` says that the request comes after the self-refresh entry command. -/
def execDramRequest (cls : Fin 3) (write wide : Bool) (addr : Nat) (data : List Byte) (mask : BitVec 64) (flips : List (Fin 576))
    (issued : Bool) (ofs : Nat) (s : State) : Host.Outcome State Fault Refusal :=
  let s0 := atOfs ofs s
  let size := if wide then 64 else 32
  let a := addr - addr % size
  let q : DramReq := { cls := cls, write := write, addr := a, data := (data ++ List.replicate 64 0).take size, mask := mask.toNat,
                       flips := flips.map (fun i => i.val), at0 := clk s0, measured := false }
  if !isDram s0 a then
    done (raiseIf (decide (cls.val ≠ 2)) 184 (setDmc { s0.dmc with answer := List.replicate size 0 } s0))
  else done (dmcRequest q issued s0)

/-! ### Refresh and temperature (R364) -/

/-- The JEDEC interval in ns at the rate that the temperature calls for. -/
def jedecInterval (fast : Bool) : Nat := if fast then 244 else 488

/-- The refresh interval in force, in ns. -/
def refreshInterval (s : State) : Nat :=
  if flag s DMC_REFRESH.OVR_EN then fld s DMC_REFRESH.INTERVAL else jedecInterval s.dmc.fast

/-- PER_BANK_REFRESH (R364, R403): the next bank is refreshed, and a change of rate takes effect. -/
def execPerBankRefresh (ofs : Nat) (s : State) : Host.Outcome State Fault Refusal :=
  let s0 := atOfs ofs s
  if dmcState s0 ≠ 2 then done s0
  else if flag s0 DMC_REFRESH.OVR_EN ∧ jedecInterval (flag s0 DMC_STATUS.TEMP_HIGH) < fld s0 DMC_REFRESH.INTERVAL then
    .fault .misuseRefresh
  else if s0.dmc.refreshAt + nsec (refreshInterval s0) ≤ clk s0 then
    done (setDmc { s0.dmc with refreshAt := clk s0, bank := (s0.dmc.bank + 1) % 8, fast := flag s0 DMC_STATUS.TEMP_HIGH } s0)
  else done s0

/-- MR4_POLL (R364): the codes of channels A and B; the worse decides. -/
def execMr4Poll (a b : Fin 8) (ofs : Nat) (s : State) : Host.Outcome State Fault Refusal :=
  let s0 := atOfs ofs s
  if dmcState s0 = 2 ∧ s0.dmc.pollAt + nsec 32000000 ≤ clk s0 then
    let c := max a.val b.val
    let cool := if c ≤ 3 then s0.dmc.cool + 1 else 0
    let s1 := wr (setDmc { s0.dmc with pollAt := clk s0, cool := cool } s0) DMC_MR4 (w32 (b.val * 16 + a.val))
    let high := decide (4 ≤ c) || (flag s1 DMC_STATUS.TEMP_HIGH && decide (cool < 2))
    let alarm := decide (5 ≤ c)
    let s2 := raiseIf (high && !flag s1 DMC_STATUS.TEMP_HIGH) 218 s1
    let s3 := raiseIf (alarm && !flag s1 DMC_STATUS.TEMP_ALARM) 219 s2
    done (setFlag (setFlag s3 DMC_STATUS.TEMP_HIGH high) DMC_STATUS.TEMP_ALARM alarm)
  else done s0

/-- SCRUB_READ (R366, R367): the next line, with the bits that the devices give inverted; a line with another access queued is
skipped. -/
def execScrubRead (flips : List (Fin 576)) (ofs : Nat) (s : State) : Host.Outcome State Fault Refusal :=
  let s0 := atOfs ofs s
  let a := (rd s0 DMC_SCRUB_POS).toNat
  let every := 1000000 / max 1 (fld s0 DMC_SCRUB.RATE)
  let idle := decide (s0.dmc.askedAt + nsec 1000 ≤ clk s0)
  if eccOn s0 && flag s0 DMC_SCRUB.EN && serves s0 3 && decide (dmcState s0 = 2) && idle && decide (s0.dmc.scrubAt + nsec every ≤ clk s0) then
    let read := fun (s : State) (w : Nat) => readChecked (some 3) (a / 8 + w) (wordFlips (flips.map (fun i => i.val)).eraseDups w) s
    let s1 := if lineWaits s0 (a / 64) then s0 else dmcServe ((List.range 8).foldl read s0)
    let next := if dramTop s1 ≤ a + 64 then 0 else a + 64
    done (wr (setDmc { s1.dmc with scrubAt := clk s1 } s1) DMC_SCRUB_POS (w32 next))
  else done s0

/-! ### Self-refresh (R368, R369) -/

/-- Whether a ring is in use or the control trace runs (R368). -/
def captures (s : State) : Bool :=
  (List.range 64).any (fun r => decide (ringState s r ≠ 0)) || (testRunning s && decide (rd s CTL_TRACE_SIZE ≠ 0))

/-- SR_ENTER and SR_ENTER_PASR, as operation `op`. -/
def selfRefresh (op : Nat) (s : State) : Host.Outcome State Fault Refusal :=
  if isPending s DMC_CMD then done (reject DMC_CMD 2 s)
  else if dmcState s ≠ 2 then done (refuse DMC_CMD s)
  else if captures s then .fault .misuseSelfRefresh
  else done (accept DMC_CMD (w32 op) (setDmcState 3 s))

/-- SR_ENTER (R368, R403). -/
def execSrEnter (s : State) : Host.Outcome State Fault Refusal := selfRefresh 3 s

/-- SR_ENTER_PASR (R368, R403). -/
def execSrEnterPasr (s : State) : Host.Outcome State Fault Refusal := selfRefresh 4 s

/-- The mask of MR17: every eighth that is not in the Archive class, but with ECC on not eighth 7 (R368). -/
def pasrMask (s : State) : Nat := bitsOf 8 (fun k => decide (classOfEighth s k ≠ 2) && !(eccOn s && decide (k = 7)))

/-- The masked segments lose their contents. -/
def loseMasked (mask : Nat) (s : State) : State :=
  let e := dramFitted s / 8
  (List.range 8).foldl (fun s k => if nbit mask k then loseDram (k * e) ((k + 1) * e) s else s) s

/-- Every request that waits is performed. -/
def performAll (s : State) : State := (waiting s).foldl (fun s q => perform q s) (setDmc { s.dmc with queue := [], port := [] } s)

/-- SR_ENTRY_COMPLETE (R368): what is queued is served, and the devices enter self-refresh; in SELF_REFRESH every class is kept, so no
segment is masked (log entry 139). -/
def execSrEntryComplete (s : State) : Host.Outcome State Fault Refusal :=
  if dmcState s = 3 ∧ !s.dmc.aborting then
    let s1 := showHeld (performAll (performAll s))
    let s2 := setDmc { s1.dmc with asleep := true } s1
    if dmcOp s2 = 4 then
      let m := pasrMask s2
      done (complete DMC_CMD 0 (setDmcState 5 (loseMasked m (setFld s2 DMC_PASR.MR17 m))))
    else done (complete DMC_CMD 0 (setDmcState 4 (setFld s2 DMC_PASR.MR17 0)))
  else done s

/-- SR_EXIT (R368): the clocks restart and the devices leave self-refresh; READY follows after tXSR. -/
def execSrExit (s : State) : Host.Outcome State Fault Refusal :=
  if isPending s DMC_CMD then done (reject DMC_CMD 2 s)
  else if dmcState s = 4 then done (accept DMC_CMD 5 (leaveSelfRefresh s))
  else done (refuse DMC_CMD s)

/-- Whether the exit that has begun may be over: tXSR of R369 with 8 Gb to a channel, and where that is not stated tSR. -/
def exitDue (s : State) : Bool := decide (s.dmc.exitAt + (if s.dmc.large then 18841600 else nsec 15) ≤ clk s)

/-- SR_EXIT_ON_REQUEST (R368, R369): the controller enters READY and serves what is queued; an SR_EXIT completes. -/
def execSrExitOnRequest (ofs : Nat) (s : State) : Host.Outcome State Fault Refusal :=
  let s0 := atOfs ofs s
  if dmcState s0 = 6 ∧ exitDue s0 then done (dmcServe (dmcReady (if dmcOp s0 = 5 then complete DMC_CMD 0 s0 else s0)))
  else if dmcState s0 = 3 ∧ s0.dmc.aborting ∧ exitDue s0 then done (dmcServe (dmcReady (complete DMC_CMD 6 s0)))
  else done s0

/-! ### The interleave grain (R358, R359) -/

/-- g of R358. -/
def grainBits (v : Nat) : Nat := min 10 v + 6

/-- Where a byte lies in the devices (R358): channel, row, bank, high column bits and byte in the burst. -/
structure DramPlace where
  ch : Nat
  row : Nat
  bank : Nat
  colHigh : Nat
  byteInBurst : Nat
deriving DecidableEq, Repr

/-- The place of a physical address (R358): p is the per-channel address. -/
def interleave (g a : Nat) : DramPlace :=
  let p := a / 2 ^ (g + 1) * 2 ^ g + a % 2 ^ g
  { ch := a / 2 ^ g % 2, row := p / 2 ^ 14, bank := p / 2 ^ 6 % 8, colHigh := p / 2 ^ 9 % 32, byteInBurst := p % 64 }

/-- The physical address of a place. -/
def interleaved (g : Nat) (q : DramPlace) : Nat :=
  let p := q.row * 2 ^ 14 + q.colHigh * 2 ^ 9 + q.bank * 2 ^ 6 + q.byteInBurst
  p / 2 ^ g * 2 ^ (g + 1) + q.ch * 2 ^ g + p % 2 ^ g

/-- The bytes of DRAM as they read under grain `h` when they were written under grain `g`. -/
def regrain (g h : Nat) (s : State) : State :=
  let move := fun (m : List Host.Cell) (q : Host.Cell) =>
    tput (blankByte s.lost) m (if q.1 < 0x80000000 then interleaved h (interleave g q.1) else q.1) q.2
  let word := fun (l : Tab (List Nat)) (q : Nat × List Nat) =>
    tput (fun _ => []) l (interleaved h (interleave g (8 * q.1)) / 8) q.2
  { s with mem := s.mem.foldl move [], dmc := { s.dmc with latent := s.dmc.latent.foldl word [] } }

/-- GRAIN_WRITE (R359, R403): takes effect at once; with traffic in flight it is misuse. -/
def grainWrite (v : Nat) (s : State) : Host.Outcome State Fault Refusal :=
  let g := grainBits (fld s DMC_MAP.GRAIN)
  let h := grainBits v
  let s1 := setFld s DMC_MAP.GRAIN v
  if g = h then done s1
  else if s.dmc.queue ≠ [] ∨ s.dmc.port ≠ [] ∨ captures s then .fault .misuseGrain
  else done (regrain g h s1)

/-- GRAIN_WRITE (R359). -/
def execGrainWrite (grain : Fin 16) (s : State) : Host.Outcome State Fault Refusal := grainWrite grain s

end Sys2Proof.Machine
end

