-- ==== Sys2Proof/Machine/Twin.lean ====
section
/-!
DEFINITION. The twin pair: roles, claims, lag, the mirror, joining, digests and mismatches, handover, takeover and removal
(spec/14_twin.md R372 to R397).
-/
namespace Sys2Proof.Machine
open Sys2Proof

def setTwin (x : Twin) (s : State) : State := { s with twin := x }

/-! ### States and claims (R374, R387, R388) -/

/-- STATE (R374): 0 SINGLE, 1 LINKING, 2 ACTIVE, 3 JOINING, 4 STANDBY, 5 OUT_OF_STEP, 6 LEAVING. -/
def twnState (s : State) : Nat := fld s TWN_STATUS.STATE
def peerState (s : State) : Nat := fld s TWN_STATUS.PEER_STATE
def peerValid (s : State) : Bool := flag s TWN_STATUS.PEER_VALID

/-- sdiff8, the 8-bit form of R16. -/
def sdiff8 (x y : Nat) : Int := signed 8 (unsignedOf 8 ((x : Int) - y))

/-- Whether the partner has shown a claim. -/
def peerShown (s : State) : Bool := peerValid s || decide (fld s TWN_CLAIM.PEER ≠ 0)

/-- Whether the hub holds the top claim (R388). -/
def topClaim (s : State) : Bool :=
  decide (twnState s = 0) ||
    (decide (twnState s = 2) && (!peerShown s || decide (0 < sdiff8 (fld s TWN_CLAIM.VALUE) (fld s TWN_CLAIM.PEER))))

/-- TOP, HOLD_OUT and the pins follow the state and the claims (R388): without the top claim frames and drives of the bus stop and the pins are
not driven. The pulses of TRIG_OUT are tracked on (R212). -/
def showTop (s : State) : State :=
  let top := topClaim s
  let out := top && decide (twnState s ≠ 0)
  let s1 := setFlag (setFlag s TWN_STATUS.TOP top) TWN_STATUS.HOLD_OUT out
  let s2 := if flag s TWN_STATUS.HOLD_OUT = out then s1 else emitLevel .hold out s1
  if top then s2 else setOut { s2.out with frames := [], bus := [] } (setFlag s2 TWN_STATUS.PINS false)

/-- The state changes, and TWN_STATE is posted (R374). -/
def enterTwin (st : Nat) (s : State) : State :=
  if twnState s = st then s else showTop (raise 224 (setFld s TWN_STATUS.STATE st))

/-- Raise the claim (R387): the nearest value above the higher of the two with the parity PAR. -/
def raiseClaim (s : State) : State :=
  let mine := fld s TWN_CLAIM.VALUE
  let peer := fld s TWN_CLAIM.PEER
  let high := if peerShown s ∧ 0 < sdiff8 peer mine then peer else mine
  let v := high + 1
  let v1 := if v % 2 = fld s TWN_CLAIM.PAR then v else v + 1
  raise 227 (setFld s TWN_CLAIM.VALUE (v1 % 256))

/-- A hub with λ = 0 that becomes a standby makes three hold laps (R376). -/
def startLag (s : State) : State :=
  if flag s TWN_STATUS.LAG then s else setFlag (setTwin { s.twin with hold := 3 } s) TWN_STATUS.LAG true

/-- The data source becomes the mirror. -/
def toMirror (s : State) : State :=
  startLag (setTwin { s.twin with mirrored := true, switchAt := none, mirrorFrom := none, missed := none } s)

/-- The data source becomes the hub's own conversions. -/
def toOwn (s : State) : State := setTwin { s.twin with mirrored := false, switchAt := none, missed := none } s

/-- The operation of the command in progress: 1 SWAP, 2 JOIN, 4 TAKE. -/
def twnOp (s : State) : Nat :=
  match s.accepted.find? (fun p => decide (p.1 = TWN_CMD)) with
  | some (_, c) => opOf c.word
  | none => 0

/-- A command of one kind ends, where it is in progress. -/
def endTwnCmd (op code : Nat) (s : State) : State := if twnOp s = op then complete TWN_CMD code s else s

/-- A handover or takeover that was planned is off; the SWAP or TAKE that asked for it ends. -/
def dropPlans (s : State) : State :=
  let s1 := endTwnCmd 4 6 (endTwnCmd 1 6 s)
  let x := s1.twin
  setTwin { x with swap := none, takeDue := none, missed := none, switchAt := none, handed := none,
                   markLap := if x.switchAt.isSome then none else x.markLap } s1

/-- JOINING (R374, R381). -/
def enterJoining (s : State) : State :=
  let s1 := enterTwin 3 (toMirror (dropPlans s))
  setTwin { s1.twin with join := none, piece := 0, warmEnd := none, compareFrom := none, policy := none, joinAt := tick s1 } s1

/-- OUT_OF_STEP (R374). -/
def enterOutOfStep (s : State) : State :=
  let s0 := dropPlans s
  let s1 := endTwnCmd 2 6 (enterTwin 5 (if s0.twin.mirrored then s0 else toMirror s0))
  setTwin { s1.twin with join := none, warmEnd := none, compareFrom := none } s1

/-- LINKING (R374, R375). -/
def enterLinking (s : State) : State :=
  let s1 := endTwnCmd 2 6 (enterTwin 1 (toOwn (dropPlans s)))
  setTwin { s1.twin with linkAt := clk s1 + 1, join := none, warmEnd := none, compareFrom := none, policy := none } s1

/-- ACTIVE from LINKING (R375). -/
def enterActive (s : State) : State := endTwnCmd 2 6 (enterTwin 2 (toOwn s))

/-- RATE_LOW (R373). -/
def rateLow (s : State) : Bool := flag s TWN_CTRL.EN && laneUp s 2 && decide (laneMode s 2 = 1) && decide (laneRate s 2 ≠ 0)

/-- A hub in LINKING settles its role (R375); not while the twin link is slow (R373). -/
def settleRole (s : State) : State :=
  if twnState s ≠ 1 ∨ rateLow s then s
  else if (peerValid s ∧ peerState s = 2) ∨ flag s TWN_STATUS.HOLD_IN then enterJoining s
  else if peerValid s ∧ peerState s = 1 then (if fld s TWN_CLAIM.PAR = 0 then enterActive s else enterJoining s)
  else s

/-- TWIN_ENABLE (R374, R387): EN from 0 to 1 enters LINKING with the claim PAR, where the role may be
settled at once; with EN = 0 the hub is SINGLE. -/
def twinEnable (en : Bool) (s : State) : State :=
  if flag s TWN_CTRL.EN = en then s
  else
    let s1 := setFlag s TWN_CTRL.EN en
    if en then settleRole (enterLinking (setFld s1 TWN_CLAIM.VALUE (fld s1 TWN_CLAIM.PAR)))
    else
      let s2 := if isPending s1 TWN_CMD then complete TWN_CMD 6 s1 else s1
      let s3 := enterTwin 0 (toOwn s2)
      setTwin { s3.twin with join := none, swap := none, policy := none, takeDue := none, compareFrom := none, handed := none } s3

/-- TWIN_ENABLE (R374). -/
def execTwinEnable (en : Bool) (s : State) : Host.Outcome State Fault Refusal := done (twinEnable en s)

/-- LINK_WAIT_EXPIRE (R375); not while the twin link is slow (R373). -/
def execLinkWaitExpire (ofs : Nat) (s : State) : Host.Outcome State Fault Refusal :=
  let s0 := atOfs ofs s
  let low := s0.twin.holdLow
  let wait := nsec (100000000 * max 1 (fld s0 TWN_CFG.LINK_WAIT))
  if twnState s0 = 1 ∧ !rateLow s0 ∧ !peerValid s0 ∧ low ≠ 0 ∧ max low s0.twin.linkAt + wait ≤ clk s0 + 1 then done (enterActive s0) else done s0

/-- PARTNER_LOST (R374): lane 2 has left UP, or no good frame for 128 laps; a hub in JOINING that has heard none counts them from its entry. -/
def execPartnerLost (s : State) : Host.Outcome State Fault Refusal :=
  let x := s.twin
  if (peerValid s ∧ (!linkUp s 2 ∨ x.heard + 128 ≤ tick s)) ∨ (twnState s = 3 ∧ max x.heard x.joinAt + 128 ≤ tick s) then
    let s1 := setFlag s TWN_STATUS.PEER_VALID false
    done (if twnState s1 = 3 then settleRole (enterLinking s1) else s1)
  else done s

/-! ### TWIN_HOLD_IN, the pins and the gated banks (R388, R393) -/

/-- Within 64 laps of a missed deadline, TWIN_HOLD_IN low decides a takeover (R391). -/
def judgeMissed (s : State) : State :=
  match s.twin.missed with
  | some (_, b) =>
    if !flag s TWN_STATUS.HOLD_IN ∧ flag s TWN_CTRL.TAKE_ON_LOSS ∧ s.bnd ≤ b + 64 then setTwin { s.twin with takeDue := some s.bnd } s else s
  | none => s

/-- TWIN_HOLD_IN_CHANGE (R375, R388, R391). -/
def execTwinHoldInChange (high : Bool) (ofs : Nat) (s : State) : Host.Outcome State Fault Refusal :=
  let s0 := atOfs ofs s
  if flag s0 TWN_STATUS.HOLD_IN = high then done s0
  else
    let s1 := setTwin { s0.twin with holdLow := if high then 0 else clk s0 + 1 } (setFlag s0 TWN_STATUS.HOLD_IN high)
    done (if awake s1 then judgeMissed (settleRole s1) else s1)

/-- PIN_DRIVE_ENABLE (R388, R391): the guard of 20 µs has passed with the top claim held. -/
def execPinDriveEnable (ofs : Nat) (s : State) : Host.Outcome State Fault Refusal :=
  let s0 := atOfs ofs s
  let x := s0.twin
  if flag s0 TWN_STATUS.TOP ∧ x.holdLow ≠ 0 ∧ max x.holdLow x.guardFrom + nsec 20000 ≤ clk s0 + 1 then
    done (setFlag s0 TWN_STATUS.PINS true)
  else done s0

/-- EXC_GATE_CHANGE (R393): at a boundary, gated banks start a change to OFF or back to the ACTIVE setting, and their burn-out sources stop
or run. -/
def execExcGateChange (s : State) : Host.Outcome State Fault Refusal :=
  let gated := fld s TWN_EXC_GATE.BANKS
  let top := flag s TWN_STATUS.TOP
  let off := idxWhere 16 (fun b => nbit gated b && !top && !nbit s.twin.gateOff b)
  let on := idxWhere 16 (fun b => nbit s.twin.gateOff b && (!nbit gated b || (top && pinsDriven s)))
  let keep := bitsOf 16 (fun b => (nbit s.twin.gateOff b && !decide (b ∈ on)) || decide (b ∈ off))
  let s1 := (List.range 256).foldl endOpen (setTwin { s.twin with gateOff := keep } s)
  done (if anaUp s1 then (off ++ on).foldl (fun s b => driveActive b false s) s1 else s1)

/-! ### Digests (R383, R385) -/

/-- TWN_SELF.CHECKS (R385). -/
def selfChecks (s : State) : Nat :=
  let slice := (List.range 17).any (fun k => decide (roleOf s k = 0) &&
    (flag s (CNV_SLICEs_STATUS.TRACK_FAULT k) || flag s (CNV_SLICEs_STATUS.SUSPECT k)))
  bit (flag s DMC_STATUS.ECC_UE) + bit (flag s CNV_STATUS.REF_FAULT) * 2 + bit slice * 4 + bit (flag s HLT_STATUS.LOCKSTEP) * 8 +
    bit (flag s HLT_STATUS.SUP_ALARM) * 16 + bit (flag s HLT_STATUS.TEMP_ALARM) * 32 + bit (flag s HLT_STATUS.D2D_FAULT) * 64 +
    bit (flag s DMC_STATUS.TEMP_ALARM) * 128

/-- TWN_SELF is live (R385). -/
def showSelf (s : State) : State :=
  let c := selfChecks s
  setFlag (setFld s TWN_SELF.CHECKS c) TWN_SELF.FAULT (decide (c &&& fld s TWN_SELF.MASK ≠ 0))

/-- The items of the present boundary; those of the next are kept for it. -/
def digestNow (s : State) : List DigestItem := s.out.digest.filter (fun x => decide (x.bnd = s.bnd))
def digestLater (s : State) : List DigestItem := s.out.digest.filter (fun x => decide (s.bnd < x.bnd))

/-- The items of a boundary in the order of R383. -/
def insertItem (x : DigestItem) : List DigestItem → List DigestItem
  | [] => [x]
  | y :: t => if x.order < y.order ∨ (x.order = y.order ∧ x.key < y.key) then x :: y :: t else y :: insertItem x t

def digestOrder (xs : List DigestItem) : List DigestItem := xs.foldl (fun acc x => insertItem x acc) []

/-- The digest of the present lap-domain boundary. -/
def digestValue (s : State) : Nat :=
  crc64 (bytesLE 8 (lapD s) ++ ((digestOrder (digestNow s)).map (fun x => x.data)).flatten)

/-- The boundary that goes in SWAP_LAP: a handover proposed here, or a policy boundary (R386, R390). -/
def swapLap (s : State) : Nat :=
  match s.twin.policy, s.twin.swap with
  | some (p, _), _ => p
  | none, some w => if w.mine then w.h else 0
  | none, none => 0

/-- The payload of a DIGEST frame (R383). -/
def digestPayload (s : State) (v : Nat) : List Byte :=
  let ack := match s.twin.swap with | some w => !w.mine && w.acked | none => false
  let safe := match s.twin.policy with | some (_, p) => decide (p = 2) | none => flag s TWN_STATUS.SAFE
  bytesLE 8 (lapD s) ++ bytesLE 8 v ++ bytesLE 2 (digestNow s).length ++ bytesLE 1 (fld s TWN_SELF.CHECKS) ++
    bytesLE 1 (bit (flag s TWN_SELF.FAULT) + bit safe * 2 + bit ack * 4) ++ bytesLE 1 (fld s TWN_CLAIM.VALUE) ++
    bytesLE 1 (twnState s) ++ bytesLE 1 (lag s) ++ bytesLE 1 0 ++ bytesLE 8 (swapLap s)

/-- A frame goes onto the twin link. -/
def twinSend (vc type : Nat) (p : List Byte) (s : State) : State :=
  if linkUp s 2 then enqueueFrame 2 (fromHere s { vc := vc, type := type, payload := p }) s else s

/-! ### Mismatches (R384, R386) -/

/-- Both hubs know the handover `w`: the active takes its data from the mirror from H on, the standby from its own conversions (R390). -/
def agreeSwap (w : Swap) (s : State) : State := setTwin { s.twin with swap := some w, switchAt := some (w.h, decide (twnState s = 2)) } s

/-- Whether the active's policy limit has been reached: it posts TWN_POLICY and names P (R386). -/
def judgePolicy (s : State) : State :=
  if twnState s = 2 ∧ s.twin.policy = none ∧ max 1 (fld s TWN_POLICY.MM_LIMIT) ≤ s.twin.openMm then
    let p := fld s TWN_POLICY.POLICY
    let h := lapD s + 64
    let s1 := setTwin { s.twin with policy := some (h, if p = 3 then 0 else p) } s
    raise 226 (if p = 1 then agreeSwap { h := h, mine := true, acked := true, force := true } (endTwnCmd 1 6 s1) else s1)
  else s

/-- An unresolved mismatch is counted (R386); the register shows the active's count. -/
def openMismatch (b : Nat) (s : State) : State :=
  let x := s.twin
  let s1 := setTwin { x with openMm := min 15 (x.openMm + 1), firstMm := if x.openMm = 0 then b else x.firstMm } s
  judgePolicy (if twnState s1 = 2 then setFld s1 TWN_MM.OPEN s1.twin.openMm else s1)

/-- A takeover is decided: the source switch lap is the first lap-domain lap after the decision (R392). -/
def decideTake (s : State) : State :=
  let x := s.twin
  let l := lapD s + 1
  setTwin { x with takeDue := some s.bnd, switchAt := if fromMirror s l then some (l, false) else x.switchAt,
                   markLap := if x.missed.isSome then x.markLap else some l } s

/-- A mismatch at `b` with the FAULT bits of both hubs (R384, R386); in the warm-up it is only counted. -/
def mismatch (b : Nat) (mineFault peerFault : Bool) (s : State) : State :=
  let s1 := raise 225 (wrPair (addSat s TWN_MM.COUNT 1) TWN_MM_LAP_LO TWN_MM_LAP_HI b)
  let active := if twnState s1 = 2 then mineFault else peerFault
  let standby := if twnState s1 = 2 then peerFault else mineFault
  if twnState s1 = 4 ∨ (twnState s1 = 2 ∧ peerState s1 = 4) then
    if active && !standby then
      (if twnState s1 = 4 then decideTake s1 else s1)
    else openMismatch b s1
  else s1

/-- The digest for `b` in a list. -/
def digestAt (xs : List Digest) (b : Nat) : Option Digest := xs.find? (fun d => decide (d.lap = b))

/-- Compare the boundary `b` (R384). -/
def compareAt (s : State) (b : Nat) : State :=
  let m := digestAt s.twin.mine b
  let p := digestAt s.twin.peer b
  let faults := ((m.map (fun d => d.fault)).getD (flag s TWN_SELF.FAULT), (p.map (fun d => d.fault)).getD false)
  let same := match m, p with
    | some x, some y => decide (x.value = y.value)
    | none, none => true
    | _, _ => false
  if same then s else mismatch b faults.1 faults.2 s

/-- The boundaries listed on either side up to `top`, without repeats, in ascending order. -/
def listedTo (s : State) (top : Nat) : List Nat :=
  let xs := ((s.twin.mine ++ s.twin.peer).map (fun d => d.lap)).filter (fun b => decide (b ≤ top))
  xs.foldl (fun acc b => if b ∈ acc then acc else acc.takeWhile (fun a => decide (a < b)) ++ [b] ++ acc.dropWhile (fun a => decide (a < b))) []

/-- Compare every boundary that both hubs have passed (R384). -/
def compareDigests (s : State) : State :=
  let x := s.twin
  let top := min (max x.mineTo (lapD s - 1)) (x.peerTo - 1)
  let bs := listedTo s top
  let inStep := decide (twnState s = 2) || decide (twnState s = 3) || decide (twnState s = 4)
  let judged := match x.compareFrom with
    | some f => if inStep then bs.filter (fun b => decide (f ≤ b)) else []
    | none => []
  let s1 := judged.foldl compareAt s
  let keep := fun (ds : List Digest) => ds.filter (fun d => decide (top < d.lap))
  setTwin { s1.twin with mine := keep s1.twin.mine, peer := keep s1.twin.peer } s1

/-- DIGEST_COMPUTE (R383): once at a lap-domain boundary with items, or with b mod 64 = 0. -/
def execDigestCompute (s : State) : Host.Outcome State Fault Refusal :=
  if twnState s = 0 ∨ s.twin.digestAt = s.bnd + 1 ∨ (digestNow s = [] ∧ lapD s % 64 ≠ 0) then done s
  else
    let s1 := showSelf s
    let v := digestValue s1
    let d : Digest := { lap := lapD s1, value := v, fault := flag s1 TWN_SELF.FAULT }
    let s2 := twinSend 0 13 (digestPayload s1 v) s1
    let s3 := setTwin { s2.twin with mine := s2.twin.mine ++ [d], mineTo := lapD s2, digestAt := s2.bnd + 1 } s2
    done (compareDigests (setOut { s3.out with digest := digestLater s3 } s3))

/-! ### Handover (R390) -/

/-- Whether the partner is in step: heard and in STANDBY, or in ACTIVE beside a standby. -/
def inStepWith (s : State) : Bool :=
  peerValid s && ((decide (twnState s = 2) && decide (peerState s = 4)) || (decide (twnState s = 4) && decide (peerState s = 2)))

/-- TWN_SWAP_LAP, at least 64 laps ahead. -/
def swapTarget (s : State) : Nat := max (rdPair s TWN_SWAP_LAP_LO TWN_SWAP_LAP_HI) (lapD s + 64)

/-- SWAP (R390, R397). -/
def execSwap (s : State) : Host.Outcome State Fault Refusal :=
  if isPending s TWN_CMD then done (reject TWN_CMD 2 s)
  else if (twnState s = 2 ∧ inStepWith s) ∨ twnState s = 4 then
    done (accept TWN_CMD 1 (setTwin { s.twin with swap := some { h := swapTarget s, mine := true } } s))
  else done (refuse TWN_CMD s)

/-- SWAP_ACK_TIMEOUT (R390). -/
def execSwapAckTimeout (s : State) : Host.Outcome State Fault Refusal :=
  match s.twin.swap with
  | some w =>
    if w.mine && !w.acked && decide (w.h ≤ lapD s + 16) then done (endTwnCmd 1 5 (setTwin { s.twin with swap := none } s)) else done s
  | none => done s

/-! ### Leaving (R395) -/

/-- LEAVING: no claim, no pins, lanes 0 to 2 in electrical idle. -/
def enterLeaving (s : State) : State :=
  let s0 := endTwnCmd 2 6 (enterTwin 6 (toOwn (dropPlans s)))
  let s1 := setTwin { s0.twin with policy := none, compareFrom := none } s0
  [0, 1, 2].foldl (fun s n => laneStop n s) s1

/-- LEAVE (R395, R397). -/
def execLeave (force : Bool) (s : State) : Host.Outcome State Fault Refusal :=
  if isPending s TWN_CMD then done (reject TWN_CMD 2 s)
  else if twnState s = 0 ∨ (twnState s = 2 ∧ !inStepWith s ∧ !force) then done (refuse TWN_CMD s)
  else done (complete TWN_CMD 0 (enterLeaving s))

/-- SWAP_HANDOVER (R386, R390): at H the active becomes a standby, or leaves step (FORCE_STANDBY), and at H + 1 the incoming hub raises its claim. The
sources switch with data lap H. -/
def execSwapHandover (s : State) : Host.Outcome State Fault Refusal :=
  match s.twin.swap with
  | none => done s
  | some w =>
    if !w.acked ∨ lapD s < w.h then done s
    else if !w.switched then
      let x := { s.twin with swap := some { w with switched := true } }
      if twnState s = 2 then
        let s1 := startLag (setTwin { x with mirrorFrom := some w.h, join := none, missed := none } s)
        done (if w.force then setTwin { s1.twin with compareFrom := none } (enterTwin 5 s1) else enterTwin 4 s1)
      else if twnState s = 4 then done (setTwin { x with markLap := some w.h } s)
      else done (dropPlans s)
    else if lapD s ≤ w.h then done s
    else
      let s1 := endTwnCmd 1 0 (setTwin { s.twin with swap := none } s)
      if fromMirror s w.h then done (if w.leave then enterLeaving s1 else s1)
      else
        let s2 := setTwin { s1.twin with handed := if w.force then none else some w.h } s1
        done (showTop (enterTwin 2 (raiseClaim s2)))

/-! ### Taking over (R386, R391, R392) -/

/-- The hub takes over: the claim raised, ACTIVE. Its own conversions are its source from the lap that the decision named. -/
def takeOver (s : State) : State :=
  let s1 := setTwin { s.twin with takeDue := none, missed := none, swap := none, guardFrom := clk s + 1, compareFrom := none, join := none,
                                  warmEnd := none } s
  endTwnCmd 4 0 (endTwnCmd 1 6 (showTop (enterTwin 2 (raiseClaim s1))))

/-- Whether TAKE is allowed now (R392). -/
def takeAllowed (force : Bool) (s : State) : Bool :=
  let st := twnState s
  decide (st = 4) || (decide (st = 5) && force) || (decide (st = 1) && !flag s TWN_STATUS.HOLD_IN)

/-- Whether the state no longer allows the TAKE in progress (R467). -/
def takeLapsed (s : State) : Bool :=
  match s.accepted.find? (fun p => decide (p.1 = TWN_CMD)) with
  | some (_, c) => decide (opOf c.word = 4) && !takeAllowed (nbit c.word.toNat 8) s
  | none => false

/-- TWN_TAKEOVER (R391, R392): at the next lap-domain boundary after the decision. A TAKE that is no longer allowed is aborted (R467), and a hub does
not leave LINKING while the twin link is slow (R373). -/
def execTwnTakeover (s : State) : Host.Outcome State Fault Refusal :=
  match s.twin.takeDue with
  | some b => if s.bnd ≤ b ∨ (twnState s = 1 ∧ rateLow s) then done s else done (if takeLapsed s then dropPlans s else takeOver s)
  | none => done s

/-- TAKE (R392, R397). -/
def execTake (force : Bool) (s : State) : Host.Outcome State Fault Refusal :=
  if isPending s TWN_CMD then done (reject TWN_CMD 2 s)
  else if takeAllowed force s then done (accept TWN_CMD (w32 (4 + 256 * bit force)) (decideTake s))
  else done (refuse TWN_CMD s)

/-- TWIN_CLEAR (R386). -/
def execTwinClear (s : State) : Host.Outcome State Fault Refusal :=
  if isPending s TWN_CMD then done (reject TWN_CMD 2 s)
  else done (complete TWN_CMD 0 (setTwin { s.twin with openMm := 0 } (setFlag (setFld s TWN_MM.OPEN 0) TWN_STATUS.SAFE false)))

/-- MM_WINDOW_EXPIRE (R386). -/
def execMmWindowExpire (s : State) : Host.Outcome State Fault Refusal :=
  let x := s.twin
  if 0 < x.openMm ∧ x.firstMm + 1024 * max 1 (fld s TWN_POLICY.MM_WINDOW) ≤ lapD s then
    done (setTwin { x with openMm := 0 } (setFld s TWN_MM.OPEN 0))
  else done s

/-- Policy SAFE (R386): every enabled loop goes into FAULT. -/
def applySafe (s : State) : State :=
  let on := (List.range 32).filter (fun n => decide (loopState s n = 1) || decide (loopState s n = 2))
  setFlag (on.foldl (fun s n => raise 173 (setLoopState n 3 s)) s) TWN_STATUS.SAFE true

/-- POLICY_APPLY (R386): at P. -/
def execPolicyApply (s : State) : Host.Outcome State Fault Refusal :=
  match s.twin.policy with
  | none => done s
  | some (p, k) =>
    if lapD s < p then done s
    else
      let s1 := setTwin { s.twin with policy := none } s
      match k with
      | 2 => done (applySafe s1)
      | 1 => execSwapHandover s1
      | _ =>
        if twnState s1 = 4 then
          let s2 := enterOutOfStep s1
          done (if flag s2 TWN_CTRL.AUTO_JOIN then enterJoining s2 else s2)
        else done s1

/-! ### What the partner says (R375, R384, R386, R388, R390) -/

/-- The fields of a DIGEST frame that lead to a decision. -/
structure PeerSays where
  lap : Nat
  value : Nat
  fault : Bool
  safe : Bool
  ack : Bool
  claim : Nat
  state : Nat
  swap : Nat
deriving DecidableEq, Repr

def parseDigest (bs : List Byte) : PeerSays :=
  let num := fun (i k : Nat) => ofBytesLE ((bs.drop i).take k)
  { lap := num 0 8, value := num 8 8, fault := nbit (num 0x13 1) 0, safe := nbit (num 0x13 1) 1, ack := nbit (num 0x13 1) 2,
    claim := num 0x14 1, state := num 0x15 1 % 8, swap := num 0x18 8 }

/-- A boundary that the partner names: a policy boundary of an active whose limit is reached, or a handover (R386, R390). -/
def heedSwap (q : PeerSays) (s : State) : State :=
  let limit := decide (max 1 (fld s TWN_POLICY.MM_LIMIT) ≤ s.twin.openMm)
  let kind := if q.safe then 2 else if fld s TWN_POLICY.POLICY = 1 then 1 else 0
  if q.swap = 0 ∨ q.swap ≤ lapD s then s
  else if twnState s = 4 ∧ (q.safe ∨ limit) then
    (if s.twin.policy = none then
      let s1 := setTwin { s.twin with policy := some (q.swap, kind) } s
      if kind = 1 then agreeSwap { h := q.swap, mine := false, acked := true, force := true } (endTwnCmd 1 6 s1) else s1
     else s)
  else if inStepWith s ∧ s.twin.swap = none then agreeSwap { h := q.swap, mine := false, acked := true } s
  else s

/-- The partner confirms a proposed handover. -/
def heedAck (q : PeerSays) (s : State) : State :=
  match s.twin.swap with
  | some w => if w.mine && q.ack && !w.acked then agreeSwap { w with acked := true } s else s
  | none => s

/-- A join begins at an active whose partner has entered JOINING (R381): J. `was` is the state that the partner showed before. -/
def heedJoin (was : Nat) (q : PeerSays) (s : State) : State :=
  if twnState s = 2 ∧ q.state = 3 ∧ (s.twin.join = none ∨ was ≠ 3) then
    setTwin { s.twin with join := some ((lapD s + 8 + 3) / 4 * 4), piece := 0, compareFrom := none } s
  else if twnState s = 2 ∧ (q.state = 1 ∨ q.state = 5) then setTwin { s.twin with join := none, compareFrom := none } s
  else s

/-- The role follows the partner's state and claim: LINKING is settled, a taken claim puts an active out of step, and AUTO_JOIN joins
(R374, R375, R388). -/
def heedRole (q : PeerSays) (s : State) : State :=
  let s1 := settleRole s
  let taken := decide (twnState s1 = 2) && decide (q.state = 2) && !topClaim s1 && (s1.twin.swap).isNone
  if taken then enterOutOfStep s1
  else if twnState s1 = 5 ∧ q.state = 2 ∧ flag s1 TWN_CTRL.AUTO_JOIN ∧ !rateLow s1 then enterJoining s1
  else showTop s1

/-- DIGEST_FRAME_RECEIVE (R375, R384, R386, R388, R390). Equal claim numbers on both twins are misuse (R387, R403). -/
def execDigestFrameReceive (s : State) : Host.Outcome State Fault Refusal :=
  match takeArrived (fun a => decide (a.lane = 2) && decide (a.frame.type = 13)) s with
  | none => done s
  | some (a, s1) =>
    let q := parseDigest a.frame.payload
    if twnState s1 = 0 ∨ a.frame.payload.length ≠ 32 then done s1
    else if q.claim % 2 = fld s1 TWN_CLAIM.PAR then .fault .misuseEqualClaims
    else
      let s2 := setFlag (setFld (setFld s1 TWN_CLAIM.PEER q.claim) TWN_STATUS.PEER_STATE q.state) TWN_STATUS.PEER_VALID true
      let d : Digest := { lap := q.lap, value := q.value, fault := q.fault }
      let handed := s2.twin.handed.bind (fun h => if h < q.lap then none else some h)
      let s3 := setTwin { s2.twin with peer := s2.twin.peer ++ [d], peerTo := q.lap, handed := handed } s2
      done (compareDigests (heedRole q (heedSwap q (heedAck q (heedJoin (peerState s1) q s3)))))

/-! ### The mirror (R378, R379) -/

/-- The latest own lap whose codes are complete. -/
def ownLap (s : State) (l : Nat) : Option DataLap := s.twin.own.find? (fun d => decide (d.lap = l))

/-- The flags of a lap with the hand-over mark of a source switch (R390). -/
def markedFlags (s : State) (d : DataLap) : List Nat :=
  let named := match s.twin.swap with | some w => decide (w.h = d.lap) && w.acked && decide (twnState s = 4) | none => false
  if named || decide (s.twin.markLap = some d.lap) then d.flags.map (fun f => f ||| 8) else d.flags

/-- The side entries of a lap in stamp order. -/
def sidesOf (s : State) (l : Nat) : List Nat := ((s.twin.sides.filter (fun q => decide (q.1 = l))).map (fun q => q.2)).reverse

/-- The payload of one MIRROR half (R378). -/
def mirrorPayload (s : State) (d : DataLap) (e : EdgeData) (h : Nat) : List Byte :=
  let sides := sidesOf s d.lap
  let mine := (sides.drop (8 * h)).take 8
  let part := fun {α : Type} (xs : List α) (n : Nat) => (xs.drop (n * h)).take n
  let nib := (part (markedFlags s d) 128).zipIdx.foldl (fun acc q => acc + q.1 % 16 * 16 ^ q.2) 0
  bytesLE 8 d.lap ++ bytesLE 1 h ++ bytesLE 1 mine.length ++ bytesLE 1 (bitsOf 8 (fun j => decide (d.subst / 2 ^ (16 * (8 * h + j)) % 65536 ≠ 0))) ++
    bytesLE 1 (bit (decide (16 < sides.length))) ++ bytesLE 4 e.freq ++ bytesLE 8 e.coord ++
    ((part d.codes 128).map (fun c => bytesLE 2 (unsignedOf 16 c))).flatten ++ bytesLE 64 nib ++
    ((part d.sense 8).map (fun v => bytesLE 4 (unsignedOf 32 v))).flatten ++
    ((part e.ttemp 8).map (fun v => bytesLE 2 v)).flatten ++ bytesLE 8 (e.ttBad / 256 ^ h % 256) ++
    (e.tally.map (fun t => bytesLE 8 (unsignedOf 64 t.1) ++ bytesLE 4 (unsignedOf 32 t.2))).flatten ++
    (mine.map (fun v => bytesLE 4 v)).flatten ++ List.replicate (32 - 4 * mine.length) 0

/-- Whether lap `l`, of the hub's own conversions, is mirrored: by an active to a partner that joins, from J − 4, or stands by; by the incoming hub
from H (R378, R381, R390). -/
def mirrors (s : State) (l : Nat) : Bool :=
  let joining := match s.twin.join with | some j => decide (j ≤ l + 4) | none => false
  let incoming := match s.twin.swap with
    | some w => w.acked && decide (w.h ≤ l) && decide (twnState s = 4)
    | none => false
  let standby := decide (peerState s = 4) || s.twin.handed.isSome
  peerValid s && !fromMirror s l && (incoming || (decide (twnState s = 2) && (standby || (decide (peerState s = 3) && joining))))

/-- MIRROR_FRAME_SEND (R378): both halves of the latest lap whose codes are complete. -/
def execMirrorFrameSend (s : State) : Host.Outcome State Fault Refusal :=
  match s.twin.own with
  | d :: _ =>
    if mirrors s d.lap && decide (s.twin.sentLap ≠ d.lap + 1) then
      match s.twin.edge.find? (fun e => decide (e.lap = d.lap)) with
      | some e =>
        let s1 := twinSend 1 11 (mirrorPayload s d e 1) (twinSend 1 11 (mirrorPayload s d e 0) s)
        done (setTwin { s1.twin with sentLap := d.lap + 1 } s1)
      | none => done s
    else done s
  | [] => done s

/-- MIRROR_FRAME_RECEIVE (R379): a half is held for its lap. -/
def execMirrorFrameReceive (s : State) : Host.Outcome State Fault Refusal :=
  match takeArrived (fun a => decide (a.lane = 2) && decide (a.frame.type = 11)) s with
  | none => done s
  | some (a, s1) =>
    let p := a.frame.payload
    let l := ofBytesLE (p.take 8)
    let h := ofBytesLE ((p.drop 8).take 1)
    if p.length = 480 ∧ h < 2 ∧ twnState s1 ≠ 0 then
      let x := s1.twin
      let keep := x.halves.filter (fun q => decide (l < q.1 + 8) && !(decide (q.1 = l) && decide (q.2.1 = h)))
      let first := if x.mirrored && x.mirrorFrom.isNone then some l else x.mirrorFrom
      done (setTwin { x with halves := keep ++ [(l, h, p)], mirrorFrom := first } s1)
    else done s1

/-- One half of a lap. -/
def halfOf (s : State) (l h : Nat) : Option (List Byte) :=
  (s.twin.halves.find? (fun q => decide (q.1 = l) && decide (q.2.1 = h))).map (fun q => q.2.2)

/-- Whether a half carries OVF. -/
def halfOvf (p : List Byte) : Bool := nbit (ofBytesLE ((p.drop 0xB).take 1)) 0

/-- Both halves of a lap, without OVF. -/
def mirrorLap (s : State) (l : Nat) : Option (List Byte × List Byte) :=
  match halfOf s l 0, halfOf s l 1 with
  | some a, some b => if halfOvf a || halfOvf b then none else some (a, b)
  | _, _ => none

/-- The mirrored codes and flags of a lap (R380). -/
def mirrorData (l : Nat) (q : List Byte × List Byte) : DataLap :=
  let num := fun (p : List Byte) (i k : Nat) => ofBytesLE ((p.drop i).take k)
  let both := fun {α : Type} (f : List Byte → List α) => f q.1 ++ f q.2
  { lap := l,
    codes := both (fun p => (List.range 128).map (fun i => signed 16 (num p (0x18 + 2 * i) 2))),
    flags := both (fun p => (List.range 128).map (fun i => num p (0x118 + i / 2) 1 / 16 ^ (i % 2) % 16)),
    subst := bitsOf 256 (fun c => nbit (num q.1 0xA 1 + num q.2 0xA 1 * 256) (c / 16)),
    sense := both (fun p => (List.range 8).map (fun i => signed 32 (num p (0x158 + 4 * i) 4))) }

/-- The mirrored boundary data of a lap (R380). -/
def mirrorEdge (l : Nat) (q : List Byte × List Byte) : EdgeData :=
  let num := fun (p : List Byte) (i k : Nat) => ofBytesLE ((p.drop i).take k)
  { lap := l, freq := num q.1 0xC 4, coord := num q.1 0x10 8 % 2 ^ 48, rate := num q.1 0xC 4,
    tally := (List.range 4).map (fun n => (signed 64 (num q.1 (0x190 + 12 * n) 8), signed 32 (num q.1 (0x198 + 12 * n) 4))),
    ttemp := (List.range 8).map (fun i => num q.1 (0x178 + 2 * i) 2) ++ (List.range 8).map (fun i => num q.2 (0x178 + 2 * i) 2),
    ttBad := num q.1 0x188 1 + num q.2 0x188 1 * 256 }

/-- The side entries of a mirrored lap. -/
def mirrorSides (q : List Byte × List Byte) : List Nat :=
  let part := fun (p : List Byte) =>
    (List.range (min 8 (ofBytesLE ((p.drop 9).take 1)))).map (fun i => ofBytesLE ((p.drop (0x1C0 + 4 * i)).take 4))
  part q.1 ++ part q.2

/-- One mirrored trigger edge reaches the rings (R378, R380): those whose own drive caused a bus edge ignore it. -/
def mirrorTrigger (l : Nat) (s : State) (v : Nat) : State :=
  let src := v / 2 ^ 28
  let st := (lapStart l + v % 2 ^ 26) / unitsPerNs
  if src < 8 then offerStamp 1 src st (fun r => nbit (fld s (ACQ_RINGr_SRC.PINS r)) src) s
  else if src = 8 then
    let own := if nbit v 27 then s.out.busPeer else []
    offerStamp 2 0 st (fun r => flag s (ACQ_RINGr_SRC.BUS r) && decide (r ∉ own)) s
  else s

/-- MIRROR_DEADLINE_MISS (R379, R391): 900 ns into lap-domain lap L, a hub that stands by or joins lacks a good half of L, or L carries
OVF. Where a takeover by itself may follow, the hub takes its own conversions from the first such lap on, and counts the later ones (DEDUCED, log
entry 208). -/
def execMirrorDeadlineMiss (ofs : Nat) (s : State) : Host.Outcome State Fault Refusal :=
  let s0 := atOfs ofs s
  let l := lapD s0
  let st := twnState s0
  let from1 := match s0.twin.mirrorFrom with | some f => decide (f ≤ l) | none => decide (st = 4)
  if !((decide (st = 3) || decide (st = 4)) && (fromMirror s0 l || s0.twin.missed.isSome) && from1 && decide (s0.twin.hold = 0) &&
      decide (s0.twin.lateLap < l + 1) && decide (900 * unitsPerNs ≤ s0.tbs.pacer.ofs) && (mirrorLap s0 l).isNone) then done s0
  else
    let late := (halfOf s0 l 0).isNone || (halfOf s0 l 1).isNone
    let s1 := if late then count 278 1 (addSat s0 TWN_MIRROR.LATE 1) else addSat s0 TWN_MIRROR.OVF 1
    let s2 := setTwin { s1.twin with lateLap := l + 1 } s1
    if s2.twin.missed.isSome then done s2
    else if late ∧ st = 4 ∧ flag s2 TWN_CTRL.TAKE_ON_LOSS then
      done (judgeMissed (setTwin { s2.twin with missed := some (l, s2.bnd), switchAt := some (l, false), markLap := some l } s2))
    else done (enterOutOfStep s2)

/-- A standby whose partner has kept TWIN_HOLD_IN high for 64 laps after a missed deadline leaves step (R391). -/
def missedBoundary (s : State) : State :=
  match s.twin.missed with
  | some (_, b) => if b + 64 < s.bnd ∧ s.twin.takeDue = none then enterOutOfStep s else s
  | none => s

/-- The boundary data of a lap from the hub's data source (R380). -/
def edgeOf (s : State) (l : Nat) : Option EdgeData :=
  if fromMirror s l then (mirrorLap s l).map (mirrorEdge l) else s.twin.edge.find? (fun e => decide (e.lap = l))

/-- The twin at a real lap boundary: the boundary data is noted, and while λ is 3 the lap domain takes that of its own lap. -/
def twinBoundary (s : State) : State :=
  let s1 := setTwin { s.twin with edge := (edgeNow s :: s.twin.edge).take 8 } s
  let s2 := setFlag (showSelf s1) TWN_STATUS.RATE_LOW (rateLow s1)
  if !flag s2 TWN_STATUS.LAG then s2
  else
    match edgeOf s2 (lapD s2) with
    | some e => missedBoundary (setTwin { s2.twin with cur := some e } s2)
    | none => missedBoundary s2

/-! ### Joining (R381) -/

/-- The lap-domain boundary of piece `k`, less J. -/
def pieceAt (k : Nat) : Nat :=
  if k < 256 then 4 * k else if k < 384 then 1024 + 2 * (k - 256) else if k = 384 then 1280 else 1284

/-- Two words of a 64-bit number, and back. -/
def words64 (n : Nat) : List Word := [lo32 n, hi32 n]
def num64 (ws : List Word) (i : Nat) : Nat := (ws.getD i 0).toNat + (ws.getD (i + 1) 0).toNat * 2 ^ 32
def intWords (i : Int) : List Word := words64 (unsignedOf 64 i)
def numInt (ws : List Word) (i : Nat) : Int := signed 64 (num64 ws i)

/-- A list of numbers with its length in front, and back with the words that follow it. -/
def packInts (xs : List Int) : List Word := w32 xs.length :: (xs.map intWords).flatten
def unpackInts (ws : List Word) : List Int × List Word :=
  let n := (ws.getD 0 0).toNat
  ((List.range n).map (fun i => numInt ws (1 + 2 * i)), ws.drop (1 + 2 * n))

/-- A number of 128 bits as two of 64, and back. -/
def wideInts (x : Int) : List Int := [signed 64 (unsignedOf 64 x), x / 2 ^ 64]
def wideOf (xs : List Int) (i : Nat) : Int := xs.getD (i + 1) 0 * 2 ^ 64 + (unsignedOf 64 (xs.getD i 0) : Int)

/-- The state of stages 2 to 7 of a channel: boundary counts as ages. -/
def chainWords (s : State) (c : Nat) : List Word :=
  let y := chainOf s c
  let x := redChan s c
  let age := fun (b : Nat) => (s.bnd : Int) - b
  packInts ([(bit y.live : Int), y.skew, y.notchX1, y.notchX2, y.notchY1, y.notchY2] ++ wideInts y.sum1 ++ wideInts y.sum2 ++ wideInts y.sum3 ++
      wideInts y.last3 ++ wideInts y.diff1 ++ wideInts y.diff2) ++
    packInts y.line ++ packInts y.half1 ++ packInts y.half2 ++ packInts y.fir ++ packInts (y.base.map (fun q => age q.1)) ++
    packInts (y.base.map (fun q => q.2)) ++ packInts (x.resets.map age) ++
    packInts ((x.grid.map (fun g => [g.pos, (g.time : Int), (g.close : Int)])).flatten)

/-- Load that state; the words that follow it are left. -/
def loadChainWords (c : Nat) (ws : List Word) (s : State) : State × List Word :=
  let q0 := unpackInts ws
  let q1 := unpackInts q0.2
  let q2 := unpackInts q1.2
  let q3 := unpackInts q2.2
  let q4 := unpackInts q3.2
  let q5 := unpackInts q4.2
  let q6 := unpackInts q5.2
  let q7 := unpackInts q6.2
  let q8 := unpackInts q7.2
  let n := fun (i : Nat) => q0.1.getD i 0
  let at1 := fun (a : Int) => ((s.bnd : Int) - a).toNat
  let y : Chain :=
    { live := decide (n 0 = 1), skew := n 1, notchX1 := n 2, notchX2 := n 3, notchY1 := n 4, notchY2 := n 5, sum1 := wideOf q0.1 6,
      sum2 := wideOf q0.1 8, sum3 := wideOf q0.1 10, last3 := wideOf q0.1 12, diff1 := wideOf q0.1 14, diff2 := wideOf q0.1 16,
      line := q1.1, half1 := q2.1, half2 := q3.1, fir := q4.1, base := (q5.1.map at1).zip q6.1 }
  let g := fun (i : Nat) => q8.1.getD i 0
  let grid := (List.range (q8.1.length / 3)).map (fun i =>
    ({ pos := g (3 * i), time := (g (3 * i + 1)).toNat, close := (g (3 * i + 2)).toNat } : GridPt))
  let s1 := setChain c y s
  (setRedChan c { redChan s1 c with resets := q7.1.map at1, grid := grid } s1, q8.2)

/-- Piece c: one channel. The layout of STATE pieces is the model's (log entry 100). -/
def channelPiece (s : State) (c : Nat) : List Word :=
  let x := redChan s c
  let y := chanOf s c
  let o := tget (fun _ => (([] : List (Word × Word)), 0)) s.wot.openFrames c
  [w32 x.seq, x.tapValue, w32 x.tapTag, w32 x.tapSeq, w32 x.hurdle, w32 (bit x.waiting + bit x.cjcFb * 2 + bit x.cjc.isSome * 4)] ++
    words64 (x.cjc.getD 0) ++ intWords x.gridPos ++ [w32 y.openRun, w32 y.closeRun, w32 (s.bnd - o.2)] ++ chainWords s c ++
    (o.1.map (fun q => [q.1, q.2])).flatten

def loadChannel (c : Nat) (ws : List Word) (s : State) : State :=
  let n := fun (i : Nat) => (ws.getD i 0).toNat
  let q := loadChainWords c (ws.drop 13) s
  let x := redChan q.1 c
  let s1 := setRedChan c { x with seq := n 0, tapValue := ws.getD 1 0, tapTag := n 2, tapSeq := n 3, hurdle := n 4,
                                  waiting := nbit (n 5) 0, cjcFb := nbit (n 5) 1, cjc := if nbit (n 5) 2 then some (num64 ws 6) else none,
                                  gridPos := numInt ws 8 } q.1
  let s2 := setChan c { chanOf s1 c with openRun := n 10, closeRun := n 11 } s1
  let rest := q.2
  let recs := (List.range (rest.length / 2)).map (fun i => (rest.getD (2 * i) 0, rest.getD (2 * i + 1) 0))
  setWot { s2.wot with openFrames := if recs = [] then tdrop s2.wot.openFrames c
                                     else tins (tdrop s2.wot.openFrames c) c (recs, s2.bnd - n 12) } s2

/-- Piece 256 + k: Start List entries 16k to 16k + 15, with the hub's notes on each in reserved bits of its CTRL; the last adds the slipped
actions. -/
def slPiece (s : State) (k : Nat) : List Word :=
  let ns := (List.range 16).map (fun i => 16 * k + i)
  let sg := fun (n : Nat) => tget (fun _ => (0 : Int)) s.tbs.sl.sign n
  let notes := fun (n : Nat) =>
    w32 (bit (decide (n ∈ s.tbs.sl.wait)) + bit (decide (0 < sg n)) * 2 + bit (decide (sg n < 0)) * 4 + bit (decide (n ∈ s.tbs.sl.passed)) * 8)
  (ns.map (fun n => (rd s (slAddr n 0) ||| notes n) :: (List.range 7).map (fun j => rd s (slAddr n (4 * j + 4))))).flatten ++
    (if k = 127 then
      ((s.tbs.sl.taken.filter (fun t => t.slipped)).map (fun t =>
        [w32 (t.n + t.place * 4096 + bit t.late * 65536 + bit t.ends * 131072), w32 t.idx, w32 (t.eff - s.bnd)] ++ words64 t.cross)).flatten
     else [])

def loadSl (k : Nat) (ws : List Word) (s : State) : State :=
  let ns := (List.range 16).map (fun i => 16 * k + i)
  let word := fun (n j : Nat) => fset (ws.getD ((n - 16 * k) * 8 + j) 0) 0 (if j = 0 then 4 else 0) 0
  let s1 := ns.foldl (fun s n => (List.range 8).foldl (fun s j => wr s (slAddr n (4 * j)) (word n j)) s) s
  let m := fun (j n : Nat) => nbit (ws.getD ((n - 16 * k) * 8) 0).toNat j
  let other := fun (xs : List Nat) => xs.filter (fun n => decide (n / 16 ≠ k))
  let sl := s1.tbs.sl
  let sign := ns.foldl (fun t n => tput (fun _ => (0 : Int)) t n (if m 1 n then 1 else if m 2 n then -1 else 0)) sl.sign
  let rest := ws.drop 128
  let queued := (List.range (rest.length / 5)).map (fun i =>
    let v := (rest.getD (5 * i) 0).toNat
    ({ n := v % 4096, place := v / 4096 % 16, idx := (rest.getD (5 * i + 1) 0).toNat, cross := num64 rest (5 * i + 3),
       eff := s1.bnd + (rest.getD (5 * i + 2) 0).toNat, late := nbit v 16, slipped := true, ends := nbit v 17 } : Taken))
  setSl { sl with wait := other sl.wait ++ ns.filter (m 0), passed := other sl.passed ++ ns.filter (m 3), sign := sign,
                  taken := if k = 127 then queued else sl.taken } s1

/-- The registers of the control engine that a join carries. -/
def ctlRegs : List Nat :=
  ((List.range 32).map (fun n => [CTL_LOOPn_STATUS n, CTL_LOOPn_OWN_U n])).flatten ++ (List.range 16).map CTL_GROUPg_STATUS ++
    (List.range 16).map CTL_DRIVEd_SEQ ++ (List.range 64).map TOP_MSGm_SEQ ++ [CTL_TEST_STATUS]

/-- The state of one loop. -/
def loopPiece (s : State) (n : Nat) : List Word :=
  let x := loopRun s n
  words64 (n64 x.integ) ++ words64 (n64 x.df) ++ words64 (n64 x.fbPrev) ++
    [w32 (match x.prev with | some b => s.bnd - b + 1 | none => 0), x.a, x.u, w32 (bit x.altLost + bit x.resumed * 2)]

def loadLoop (ws : List Word) (s : State) (n : Nat) : State :=
  let i := ctlRegs.length + 10 * n
  let age := (ws.getD (i + 6) 0).toNat
  let f := (ws.getD (i + 9) 0).toNat
  setLoopRun n { loopRun s n with integ := f64 (num64 ws i), df := f64 (num64 ws (i + 2)), fbPrev := f64 (num64 ws (i + 4)),
                                  prev := if age = 0 then none else some (s.bnd + 1 - age), a := ws.getD (i + 7) 0,
                                  u := ws.getD (i + 8) 0, altLost := nbit f 0, resumed := nbit f 1 } s

/-- A queued tick: its loop and unit, its age, and its snapshots; the configuration is the same on both hubs. -/
def tickPiece (s : State) (t : Tick) : List Word :=
  [w32 (t.loop + t.unit * 256), w32 (s.bnd - t.bnd), t.fb.value, w32 t.fb.tag, w32 t.fb.seq, t.alt.value, w32 t.alt.tag, w32 t.alt.seq, t.sp] ++
    words64 t.lap

def loadTick (s : State) (ws : List Word) (i : Nat) : Tick :=
  let n := fun (j : Nat) => (ws.getD (i + j) 0).toNat
  let t := snapTick s (n 0 / 256 % 256) (n 0 % 256)
  { t with bnd := s.bnd - n 1, lap := num64 ws (i + 9), fb := ⟨ws.getD (i + 2) 0, n 3, n 4⟩, alt := ⟨ws.getD (i + 5) 0, n 6, n 7⟩,
           sp := ws.getD (i + 8) 0 }

/-- Piece 384: the control engine, with the test generator and the tick queue. -/
def ctlPiece (s : State) : List Word :=
  let g := s.ctl.test
  ctlRegs.map (rd s) ++ ((List.range 32).map (loopPiece s)).flatten ++
    [w32 s.ctl.hadWinner, w32 g.ticks, w32 g.lfsr, w32 g.held, w32 (s.bnd - g.start)] ++ words64 (n64 g.phase) ++
    (s.ctl.queue.map (tickPiece s)).flatten

def loadCtl (ws : List Word) (s : State) : State :=
  let s1 := ctlRegs.zipIdx.foldl (fun s q => wr s q.1 (ws.getD q.2 0)) s
  let s2 := (List.range 32).foldl (loadLoop ws) s1
  let i := ctlRegs.length + 320
  let n := fun (j : Nat) => (ws.getD (i + j) 0).toNat
  let g := { s2.ctl.test with ticks := n 1, lfsr := n 2, held := n 3, start := s2.bnd - n 4, phase := f64 (num64 ws (i + 5)) }
  let seqs := (List.range 16).foldl (fun t d => tput (fun _ => 0) t d (rd s2 (CTL_DRIVEd_SEQ d)).toNat) []
  let msgs := (List.range 64).foldl (fun t m => tput (fun _ => 0) t m (rd s2 (TOP_MSGm_SEQ m)).toNat) []
  let ticks := (List.range ((ws.length - (i + 7)) / 11)).map (fun k => loadTick s2 ws (i + 7 + 11 * k))
  let s3 := setCores { s2.cores with msgSeq := msgs } (setOut { s2.out with driveSeq := seqs } s2)
  setCtl { s3.ctl with hadWinner := n 0, test := g, queue := ticks } s3

/-- The registers of a ring that a join carries. -/
def ringRegs (r : Nat) : List Nat := [ACQ_RINGr_STATUS r, ACQ_RINGr_SLOTS r, ACQ_RINGr_SERIAL r, ACQ_RINGr_MISSES r, ACQ_RINGr_MISS_HEAD r]

/-- Piece 385: the rings and the stream numbers. Reserved bits of two of a ring's registers hold its latest slot, and how far back its floor lies, up
to 2^44 laps, with one word more. -/
def ringPiece (s : State) : List Word :=
  ((List.range 64).map (fun r =>
    let x := ringOf s r
    let back := satNat 44 (lapD s - x.armLap)
    [fset (rd s (ACQ_RINGr_STATUS r)) 10 6 x.lastSlot, rd s (ACQ_RINGr_SLOTS r), rd s (ACQ_RINGr_SERIAL r), rd s (ACQ_RINGr_MISSES r),
     fset (rd s (ACQ_RINGr_MISS_HEAD r)) 4 12 (back / 2 ^ 32), w32 back, w32 (s.bnd - x.since)])).flatten ++
    [rd s WOT_STREAM_NEXT, w32 (fld s WOT_STREAM_CFG.EPOCH), rd s WOT_STREAM_UNACKED]

def loadRings (ws : List Word) (s : State) : State :=
  let one := fun (s : State) (r : Nat) =>
    let i := 7 * r
    let w := fun (j : Nat) => ws.getD (i + j) 0
    let vs := [fset (w 0) 10 6 0, w 1, w 2, w 3, fset (w 4) 4 12 0]
    let s1 := ((ringRegs r).zip vs).foldl (fun s q => wr s q.1 q.2) s
    setRing r { ringOf s1 r with armLap := lapD s1 - (fget (w 4) 4 12 * 2 ^ 32 + (w 5).toNat), armBnd := s1.bnd, lmax := ringLatency s1 r,
                                 lastSlot := fget (w 0) 10 6, since := s1.bnd - (w 6).toNat } s1
  let s1 := ((List.range 64).filter (fun r => decide ((ws.getD (7 * r) 0) ≠ 0) || decide (ringState s r ≠ 0))).foldl one s
  let s2 := wr s1 WOT_STREAM_NEXT (ws.getD 448 0)
  let s3 := setFld s2 WOT_STREAM_CFG.EPOCH (ws.getD 449 0).toNat
  resendStream (showSpill (wr s3 WOT_STREAM_UNACKED (ws.getD 450 0)))

/-- The words of piece `k`. -/
def pieceWords (s : State) (k : Nat) : List Word :=
  if k < 256 then channelPiece s k else if k < 384 then slPiece s (k - 256) else if k = 384 then ctlPiece s else ringPiece s

/-- Load piece `k`. -/
def loadPiece (k : Nat) (ws : List Word) (s : State) : State :=
  if k < 256 then loadChannel k ws s else if k < 384 then loadSl (k - 256) ws s else if k = 384 then loadCtl ws s else loadRings ws s

/-- The STATE frames of a piece: its number, the place and the words, up to 120 words a frame; `n` bounds the frames. -/
def pieceFrames (k : Nat) : Nat → Nat → List Word → List (List Byte)
  | 0, _, _ => []
  | n + 1, i, ws =>
    if ws = [] then []
    else (bytesLE 2 k ++ bytesLE 2 i ++ ((ws.take 120).map (fun w => bytesLE 4 w.toNat)).flatten) :: pieceFrames k n (i + 120) (ws.drop 120)

/-- The words of piece `k` that STATE frames have brought, and the state in which the frames of the pieces up to it are used up. -/
def pieceArrived (k : Nat) (s : State) : List Word × State :=
  let num := fun (a : Arrived) => ofBytesLE (a.frame.payload.take 2)
  let isState := fun (a : Arrived) => decide (a.lane = 2) && decide (a.frame.type = 12)
  let words := fun (bs : List Byte) => (List.range (bs.length / 4)).map (fun i => w32 (ofBytesLE ((bs.drop (4 * i)).take 4)))
  ((s.wot.inbox.filter (fun a => isState a && decide (num a = k))).flatMap (fun a => words (a.frame.payload.drop 4)),
   setWot { s.wot with inbox := s.wot.inbox.filter (fun a => !isState a || decide (k < num a)) } s)

/-- JOIN_STATE_PIECE (R381): an active captures and sends the next piece at its boundary B; a joining hub loads a piece at its own boundary B, from
its STATE frames, or from `words` where it comes without them. With the last piece the join ends. -/
def execJoinStatePiece (k : Fin 386) (words : List Word) (s : State) : Host.Outcome State Fault Refusal :=
  let x := s.twin
  if twnState s = 2 then
    match x.join with
    | some j =>
      if x.piece = k.val ∧ j + pieceAt k ≤ lapD s ∧ peerState s = 3 then
        let s1 := (pieceFrames k 40 0 (pieceWords s k)).foldl (fun s p => twinSend 2 12 p s) s
        let s2 := setTwin { s1.twin with piece := k + 1 } s1
        done (if k.val = 385 then setTwin { s2.twin with compareFrom := some (lapD s2 + 1) } s2 else s2)
      else done s
    | none => done s
  else if twnState s = 3 ∧ x.piece = k.val then
    let q := pieceArrived k s
    let s1 := loadPiece k (if q.1 = [] then words else q.1) q.2
    let s2 := setTwin { s1.twin with piece := k + 1 } s1
    if k.val = 385 then
      done (setTwin { s2.twin with compareFrom := some (lapD s2 + 1), warmEnd := some (lapD s2 + 1024 * fld s2 TWN_JOIN.WARM) } s2)
    else done s2
  else done s

/-- WARMUP_END (R381). -/
def execWarmupEnd (s : State) : Host.Outcome State Fault Refusal :=
  match s.twin.warmEnd with
  | some l =>
    if twnState s = 3 ∧ l ≤ lapD s then done (endTwnCmd 2 0 (enterTwin 4 (setTwin { s.twin with warmEnd := none } s))) else done s
  | none => done s

/-- JOIN (R381, R397). In LINKING it stays in progress while the twin link is slow (R373). -/
def execJoin (s : State) : Host.Outcome State Fault Refusal :=
  if isPending s TWN_CMD then done (reject TWN_CMD 2 s)
  else if twnState s = 5 then done (accept TWN_CMD 2 (enterJoining s))
  else if twnState s = 1 ∧ peerValid s ∧ peerState s = 2 then done (accept TWN_CMD 2 (if rateLow s then s else enterJoining s))
  else done (refuse TWN_CMD s)

/-! ### The cross-check (R394) -/

/-- The differences of one lap join the block, channel by channel, where neither side has flags. -/
def xchkLap (own mirror : DataLap) (s : State) : State :=
  if !flag s TWN_XCHK_CFG.EN ∨ !s.twin.mirrored then s
  else
    let step := fun (t : Tab (Int × Nat)) (c : Nat) =>
      if own.flags.getD c 0 = 0 ∧ mirror.flags.getD c 0 = 0 then
        let q := tget (fun _ => ((0 : Int), 0)) t c
        tins (tdrop t c) c (q.1 + (own.codes.getD c 0 - mirror.codes.getD c 0), q.2 + 1)
      else t
    setTwin { s.twin with xchk := (List.range 256).foldl step s.twin.xchk } s

/-- XCHK_BLOCK_END (R394): after 1 024 lap-domain laps; TOL is in 1/16 LSB16. -/
def execXchkBlockEnd (s : State) : Host.Outcome State Fault Refusal :=
  if flag s TWN_XCHK_CFG.EN ∧ s.twin.mirrored ∧ lapD s % 1024 = 0 then
    let beyond := fun (q : Nat × Int × Nat) => decide (fld s TWN_XCHK_CFG.TOL * q.2.2 < 16 * q.2.1.natAbs)
    let hit := (s.twin.xchk.filter beyond).map (fun q => q.1)
    let new := hit.any (fun c => !nbit (rd s (TWN_XCHKk (c / 32))).toNat (c % 32))
    let s1 := hit.foldl (fun s c => setFld s ⟨TWN_XCHKk (c / 32), c % 32, 1⟩ 1) s
    done (raiseIf new 228 (setTwin { s1.twin with xchk := [] } s1))
  else done s

end Sys2Proof.Machine
end

