-- ==== Sys2Proof/Machine/Hlt.lean ====
section
/-!
DEFINITION. The health block: temperature and supply monitors, lockstep, the die-to-die window, fault injection, the clearing of
event counters, and commands that lapse at their boundary (spec/15_errors_ordering.md R401, R406 to R413, R467).
-/
namespace Sys2Proof.Machine
open Sys2Proof

def setHlt (x : Hlt) (s : State) : State := { s with hlt := x }

/-- A condition of HLT_STATUS takes a value; its event is posted when it becomes true. -/
def condition (f : Fld) (event : Nat) (v : Bool) (s : State) : State := raiseIf (v && !flag s f) event (setFlag s f v)

/-! ### Temperature (R406) -/

/-- The sensors that are judged: those of the analog die only while it is up. -/
def sensorsJudged (s : State) : List Nat := if anaUp s then [0, 1, 2, 3, 4, 5] else [0, 1, 2, 3]

/-- The next value of a temperature condition with its limit in °C: it holds from the limit up, and until every sensor is 5 °C below. -/
def tempNext (s : State) (was : Bool) (limit : Int) : Bool :=
  let reads := (sensorsJudged s).map (fun k => sfld s (HLT_TEMPs.TEMP k))
  reads.any (fun t => decide (limit * 128 ≤ t)) || (was && !reads.all (fun t => decide (t ≤ (limit - 5) * 128)))

/-- The temperature conditions are judged on the readings that stand. -/
def judgeTemps (s : State) : State :=
  let warn := tempNext s (flag s HLT_STATUS.TEMP_WARN) (sfld s HLT_TEMP_LIMITS.WARN)
  let alarm := tempNext s (flag s HLT_STATUS.TEMP_ALARM) (sfld s HLT_TEMP_LIMITS.ALARM)
  condition HLT_STATUS.TEMP_ALARM 233 alarm (condition HLT_STATUS.TEMP_WARN 232 warn s)

/-- TEMP_SAMPLE (R406, R410): every 1 024 laps; an injected reading of sensor 0 stands until its time is over. -/
def execTempSample (temps : List Int) (s : State) : Host.Outcome State Fault Refusal :=
  if awake s ∧ s.hlt.tempAt ≤ tick s then
    let put := fun (s : State) (k : Nat) =>
      if k = 0 ∧ tick s < s.hlt.tempHold then s else setInt s (HLT_TEMPs.TEMP k) (satSigned 16 (temps.getD k 0))
    let s1 := (List.range 6).foldl put s
    done (judgeTemps (setHlt { s1.hlt with tempAt := tick s1 + 1024 } s1))
  else done s

/-! ### Supplies (R407) -/

/-- The alarm window of a monitor in tenths of a millivolt (R407). -/
def alarmWindow (m : Nat) : Int × Int :=
  let pct := fun (nominal : Int) => (nominal * 92 / 10, nominal * 108 / 10)
  match m with
  | 0 => pct 1800
  | 1 => pct 750
  | 2 => pct 800
  | 3 => pct 1800
  | 4 => pct 3300
  | 5 => (5500, 6700)
  | 6 => pct 1100
  | 7 => pct 900
  | 8 => pct 1200
  | 9 => pct 5000
  | 10 => pct 18000
  | 11 => (-194400, -165600)
  | 12 => (32000, 77000)
  | _ => (-77000, -32000)

/-- The highest reading in mV below the alarm window (R410). -/
def justBelow (m : Nat) : Int := ((alarmWindow m).1 - 1) / 10

/-- Whether monitor `m` is judged: 8 to 13 only while the analog die is up. -/
def supplyJudged (s : State) (m : Nat) : Bool := decide (m < 8) || anaUp s

def supplyAlarm (s : State) (m : Nat) : Bool :=
  let v := sfld s (HLT_SUPm.VALUE m) * 10
  supplyJudged s m && (decide (v < (alarmWindow m).1) || decide ((alarmWindow m).2 < v))

def supplyWarn (s : State) (m : Nat) : Bool :=
  let lo := sfld s (HLT_SUPm_WARN.LOW m)
  let hi := sfld s (HLT_SUPm_WARN.HIGH m)
  let v := sfld s (HLT_SUPm.VALUE m)
  supplyJudged s m && !(decide (lo = 0) && decide (hi = 0)) && (decide (v < lo) || decide (hi < v))

/-- The bits of a monitor and the sticky bits follow its reading. -/
def judgeSupply (s : State) (m : Nat) : State :=
  let a := supplyAlarm s m
  let w := supplyWarn s m
  let s1 := setFlag (setFlag s (HLT_SUPm.ALARM m) a) (HLT_SUPm.WARN m) w
  wr s1 HLT_SUP_STICKY (rd s1 HLT_SUP_STICKY ||| w32 (bit a * 2 ^ (16 + m) + bit w * 2 ^ m))

/-- The supply conditions are judged on the readings that stand. -/
def judgeSupplies (s : State) : State :=
  let s1 := (List.range 14).foldl judgeSupply s
  let warn := (List.range 14).any (supplyWarn s1)
  let alarm := (List.range 14).any (supplyAlarm s1)
  condition HLT_STATUS.SUP_ALARM 235 alarm (condition HLT_STATUS.SUP_WARN 234 warn s1)

/-- The conditions are judged again where the limits, the windows or what is judged has changed: on the latest readings, once there are
any (DEDUCED, log entry 147). -/
def rejudge (s : State) : State :=
  let s1 := if s.hlt.tempAt = 0 then s else judgeTemps s
  if s1.hlt.supAt = 0 then s1 else judgeSupplies s1

/-- SUPPLY_SAMPLE (R407, R410): every 1 024 laps; an injected reading stands until its time is over. -/
def execSupplySample (mv : List Int) (s : State) : Host.Outcome State Fault Refusal :=
  if awake s ∧ s.hlt.supAt ≤ tick s then
    let put := fun (s : State) (m : Nat) =>
      if tick s < tget (fun _ => 0) s.hlt.supHold m then s else setInt s (HLT_SUPm.VALUE m) (satSigned 16 (mv.getD m 0))
    let s1 := (List.range 14).foldl put s
    done (judgeSupplies (setHlt { s1.hlt with supAt := tick s1 + 1024 } s1))
  else done s

/-! ### Lockstep (R408) -/

/-- A difference between the copies of unit `u`: 0 loop unit, 1 Start List engine, 2 commit-queue logic, 3 digest unit. -/
def lockstepDiff (u : Nat) (s : State) : State :=
  let s1 := setFld s HLT_LOCKSTEP.UNITS (fld s HLT_LOCKSTEP.UNITS ||| 2 ^ u)
  raise 237 (setFlag (addSat s1 HLT_LOCKSTEP.COUNT 1) HLT_STATUS.LOCKSTEP true)

/-- HLT_LOCKSTEP (R408). -/
def execHltLockstep (unit : Fin 4) (s : State) : Host.Outcome State Fault Refusal := done (lockstepDiff unit s)

/-- LOCKSTEP reads 1 while any UNITS bit is set; called after a write to UNITS. -/
def showLockstep (s : State) : State := setFlag s HLT_STATUS.LOCKSTEP (decide (fld s HLT_LOCKSTEP.UNITS ≠ 0))

/-! ### The die-to-die window (R409) -/

/-- The laps of the latest 1 048 576 that hold errors. -/
def d2dWindow (s : State) : List (Nat × Nat × Bool) := s.hlt.d2d.filter (fun q => decide (tick s < q.1 + 1048576))

/-- D2D_FAULT follows the window. -/
def judgeD2d (s : State) : State :=
  if s.hlt.d2d = [] ∧ !flag s HLT_STATUS.D2D_FAULT then s
  else
    let w := d2dWindow s
    let ce := (w.map (fun q => q.2.1)).sum
    let bad := w.any (fun q => q.2.2) || decide (fld s HLT_D2D_CFG.CE_LIMIT < ce)
    condition HLT_STATUS.D2D_FAULT 236 bad (setHlt { s.hlt with d2d := w } s)

/-- A lap frame with `ce` corrected and `ue` uncorrectable words, that arrived `align` T_s after the lap instant. -/
def d2dErrors (ce ue align : Nat) (s : State) : State :=
  let late := decide (align ≠ 16)
  let s1 := setFld (addSat (addSat s HLT_D2D.CE ce) HLT_D2D.UE ue) HLT_D2D_ALIGN.OFFSET (min 255 align)
  let s2 := if late then addSat (setFlag s1 HLT_D2D_ALIGN.ALIGN_ERR true) HLT_D2D_ALIGN.MISALIGNED 1 else s1
  let bad := late || decide (0 < ue)
  let s3 := if ce = 0 ∧ !bad then s2 else setHlt { s2.hlt with d2d := (tick s2, ce, bad) :: s2.hlt.d2d } s2
  judgeD2d (count 271 ue (count 270 ce s3))

/-! ### Commands of HLT_CMD (R401, R402, R410, R411) -/

/-- COUNTER_CLEAR (R411): acts at the next lap boundary. -/
def execCounterClear (s : State) : Host.Outcome State Fault Refusal :=
  if isPending s HLT_CMD then done (reject HLT_CMD 2 s) else done (accept HLT_CMD 1 s)

/-- Whether TARGET names the DRAM: 2 DMC_CE, 3 DMC_UE. -/
def injectsDram (s : State) : Bool := decide (fld s HLT_INJ_CFG.TARGET = 2) || decide (fld s HLT_INJ_CFG.TARGET = 3)

/-- FAULT_INJECT (R402, R410): acts at the next lap boundary; the DMC targets need DMC READY. -/
def execFaultInject (s : State) : Host.Outcome State Fault Refusal :=
  if isPending s HLT_CMD then done (reject HLT_CMD 2 s)
  else if injectsDram s && decide (dmcState s ≠ 2) then done (refuse HLT_CMD s)
  else done (accept HLT_CMD 2 s)

/-- The counters named in the masks are zeroed. -/
def clearCounters (s : State) : State :=
  (List.range 64).foldl (fun s n =>
    if nbit (rd s (if n < 32 then HLT_CLR_MASK0 else HLT_CLR_MASK1)).toNat (n % 32) then setCount s n 0 else s) s

/-- One fault of TARGET (R410). -/
def injectFault (s : State) : State :=
  let t := fld s HLT_INJ_CFG.TARGET
  let line := (rd s HLT_INJ_ADDR).toNat
  if t = 0 ∨ t = 1 then setHlt { s.hlt with d2dInject := t + 1 } s
  else if t = 2 ∨ t = 3 then setDmc { s.dmc with inject := some (line, t - 1) } s
  else if t = 4 then lockstepDiff 0 s
  else if t = 5 then
    let s1 := setInt s (HLT_TEMPs.TEMP 0) ((sfld s HLT_TEMP_LIMITS.ALARM + 1) * 128)
    judgeTemps (setHlt { s1.hlt with tempHold := tick s1 + 1024 } s1)
  else if t = 6 then
    let m := min 13 (fld s HLT_INJ_CFG.SUP)
    let s1 := setInt s (HLT_SUPm.VALUE m) (justBelow m)
    judgeSupplies (setHlt { s1.hlt with supHold := tput (fun _ => 0) s1.hlt.supHold m (tick s1 + 1024) } s1)
  else s

/-- HLT_CMD and the window at a lap boundary. A command whose condition has lapsed waits for its abort (R467). -/
def hltBoundary (s : State) : State :=
  let s1 := judgeD2d s
  match dueReal s1 HLT_CMD with
  | some w =>
    if opOf w = 1 then complete HLT_CMD 0 (clearCounters s1)
    else if injectsDram s1 && decide (dmcState s1 ≠ 2) then s1
    else complete HLT_CMD 0 (injectFault s1)
  | none => s1

end Sys2Proof.Machine
end

