-- ==== Sys2Proof/Machine/Pwr.lean ====
section
/-!
DEFINITION. Power states, resets and the watchdog, boot, the Ledger engine, and the service pins other than SPI
(spec/16_power_boot.md R414 to R436, spec/17_pins_electrical.md R450, R453, R454).
-/
namespace Sys2Proof.Machine
open Sys2Proof

def setPower (x : Pwr) (s : State) : State := { s with pwr := x }

/-- STATE changes while the digital die runs, and PWR_STATE is posted (R438). -/
def enterPower (st : Nat) (s : State) : State :=
  if powerState s = st then s else raise 240 (setFld s TOP_PWR_STATUS.STATE st)

/-! ### RUN and IDLE (R415, R416, R453) -/

/-- The operation of the power command in progress. -/
def powerOp (s : State) : Nat :=
  match s.accepted.find? (fun p => decide (p.1 = TOP_PWR_CMD)) with
  | some (_, c) => opOf c.word
  | none => 0

/-- PWR_RUN (R415). -/
def execPwrRun (s : State) : Host.Outcome State Fault Refusal :=
  if isPending s TOP_PWR_CMD then done (reject TOP_PWR_CMD 2 s)
  else if powerState s ≠ 0 then done (refuse TOP_PWR_CMD s)
  else done (setPower { s.pwr with runAt := clk s } (accept TOP_PWR_CMD 1 s))

/-- The analog die comes up (R3, R86, R99, R121, R142): the present lap is the first with its conversions. -/
def analogUp (s : State) : State :=
  let s1 := setFld (setFlag s AFE_STATUS.ANA_UP true) TOP_DIE_REV.ANA_REV 0x11
  let s2 := cnvUp ((List.range 16).foldl driverUp s1)
  rejudge (cmxBoundary ((List.range 256).foldl (fun s c => filterReset c s) s2))

/-- ANA_UP (R415): the command RUN completes. -/
def execAnaUp (s : State) : Host.Outcome State Fault Refusal :=
  if powerOp s = 1 then done (complete TOP_PWR_CMD 0 (enterPower 1 (analogUp s))) else done s

/-- RUN_TIMEOUT (R453): an analog rail has been out of its range for 10 ms after RUN. -/
def execRunTimeout (ofs : Nat) (s : State) : Host.Outcome State Fault Refusal :=
  let s0 := atOfs ofs s
  if powerOp s0 = 1 ∧ s0.pwr.runAt + nsec 10000000 ≤ clk s0 then done (complete TOP_PWR_CMD 5 s0) else done s0

/-- PWR_IDLE (R415). -/
def execPwrIdle (s : State) : Host.Outcome State Fault Refusal :=
  if isPending s TOP_PWR_CMD then done (reject TOP_PWR_CMD 2 s)
  else if powerState s ≠ 1 then done (refuse TOP_PWR_CMD s)
  else done (accept TOP_PWR_CMD 2 s)

/-- The analog die goes down (R416); the comparators stop, and CMX reads 0 from that lap on (R99). -/
def analogDown (s : State) : State :=
  rejudge (setMaskAll (AFE_CMW_NOWk 0) 0 (cnvDown ((List.range 16).foldl driverDown (setFlag s AFE_STATUS.ANA_UP false))))

/-- The power command at a lap boundary: IDLE acts (R415). -/
def powerBoundary (s : State) : State :=
  match dueReal s TOP_PWR_CMD with
  | some w => if opOf w = 2 then complete TOP_PWR_CMD 0 (enterPower 0 (analogDown s)) else s
  | none => s

/-! ### REST and SHELVED (R415, R417 to R419) -/

/-- The conditions of REST and SHELVE, with the DMC states that the command allows. -/
def restful (dmc : List Nat) (s : State) : Bool :=
  decide (powerState s = 0) && (List.range 4).all (fun n => decide (coreState s n = 0)) && !flag s CTL_CTRL.EN &&
    (List.range 64).all (fun r => decide (ringState s r = 0)) && decide (dmcState s ∈ dmc)

/-- PWR_REST (R415, R417): the clocks stop; the Pacer goes on in HOLDOVER, or in FREE if it was not LOCKED. The command ends with the
wake. -/
def execPwrRest (s : State) : Host.Outcome State Fault Refusal :=
  if isPending s TOP_PWR_CMD then done (reject TOP_PWR_CMD 2 s)
  else if restful [0, 4] s then
    let s1 := if pacerState s = 2 then raise 132 (enterPacer 3 s) else enterPacer 0 s
    done (setPower { s1.pwr with rest := some (clk s1), rang := false } (setFld (accept TOP_PWR_CMD 3 s1) TOP_PWR_STATUS.STATE 2))
  else done (refuse TOP_PWR_CMD s)

/-- PWR_SHELVE (R415, R418): RAIL_EN is driven low; only the always-on domain remains. -/
def execPwrShelve (s : State) : Host.Outcome State Fault Refusal :=
  if isPending s TOP_PWR_CMD then done (reject TOP_PWR_CMD 2 s)
  else if restful [0, 5] s then
    let s1 := setFld (accept TOP_PWR_CMD 4 s) TOP_PWR_STATUS.STATE 3
    done (setPower { s1.pwr with held := true, railEn := false, rang := false } s1)
  else done (refuse TOP_PWR_CMD s)

/-- The wake sources that are enabled and recognised (R419), as the bits of TOP_WAKE_CFG. -/
def wakeBits (wakeN btn spi : Bool) (lanes : Nat) (s : State) : Word :=
  w32 (bit wakeN * 2 ^ 31 + bit btn * 2 ^ 30 + bit s.pwr.rang * 2 ^ 29 + bit spi * 2 ^ 28 + lanes % 16) &&& rd s TOP_WAKE_CFG

/-- The clocks of the die restart after REST (R417): every instant on the block's clock is as far off as it was. -/
def clocksRestart (s : State) : State :=
  setPower { s.pwr with rest := none, slept := oscillator s - clk s, rang := false } s

/-- WAKE_FROM_REST (R417, R419): the sources that meet their condition together. -/
def execWakeFromRest (wakeN btn spi : Bool) (lanes : BitVec 4) (s : State) : Host.Outcome State Fault Refusal :=
  let w := wakeBits wakeN btn spi lanes.toNat s
  if powerState s = 2 ∧ !s.pwr.held ∧ w ≠ 0 then
    let s1 := raise 241 (enterPower 0 (wr (clocksRestart s) TOP_WAKE_STATUS w))
    let lane := fun (s : State) (n : Nat) => if flag s (LNK_LANEn_CTRL.EN n) then moveLane n (enterListen n) s else s
    let s2 := (List.range 4).foldl lane s1
    let s3 := if flag s2 TBS_SL_CTRL.EN then slJudgeAll s2 else s2
    done (complete TOP_PWR_CMD 0 ((List.range 256).foldl (fun s c => filterReset c s) s3))
  else done s

/-- WAKE_FROM_SHELVED (R418, R419): RAIL_EN is driven high; the reset follows once the rails are good. -/
def execWakeFromShelved (wakeN btn : Bool) (s : State) : Host.Outcome State Fault Refusal :=
  let w := wakeBits wakeN btn false 0 s
  if powerState s = 3 ∧ !s.pwr.railEn ∧ w ≠ 0 then
    let s1 := wr s TOP_WAKE_STATUS (w ||| 0x100)
    done (setPower { s1.pwr with railEn := true, waking := true, rang := false } s1)
  else done s

/-! ### The always-on timer (R419, R439) -/

def oneSecond : Int := 1000000000 * 65536

/-- A write of TOP_AON_TIMER restarts its second. -/
def aonWrite (v : Word) (s : State) : State :=
  setPower { s.pwr with aonPart := -(s.tbs.pacer.ofs : Int), rang := false } (wr s TOP_AON_TIMER v)

/-- TOP_AON_TIMER as it reads now. -/
def aonNow (s : State) : Nat :=
  let v := (rd s TOP_AON_TIMER).toNat
  if oneSecond ≤ s.pwr.aonPart + s.tbs.pacer.ofs then v - 1 else v

/-- One lap of the timer; the last second ends with AON_TIMER_EXPIRE. -/
def aonLap (s : State) : State :=
  let v := (rd s TOP_AON_TIMER).toNat
  let p := s.pwr.aonPart + lapUnits
  if v = 0 then s
  else if oneSecond ≤ p ∧ 1 < v then setPower { s.pwr with aonPart := p - oneSecond } (wr s TOP_AON_TIMER (w32 (v - 1)))
  else setPower { s.pwr with aonPart := p } s

/-- Whether the hub rests or is shelved, so that a wake source counts (R414, R419). -/
def canWake (s : State) : Bool :=
  (decide (powerState s = 2) && !s.pwr.held) || (decide (powerState s = 3) && !s.pwr.railEn)

/-- AON_TIMER_EXPIRE (R419): from 1 to 0 when the second is over. In REST and SHELVED its wake source is recognised. -/
def execAonTimerExpire (ofs : Nat) (s : State) : Host.Outcome State Fault Refusal :=
  let s0 := atOfs ofs s
  if (rd s0 TOP_AON_TIMER).toNat = 1 ∧ oneSecond ≤ s0.pwr.aonPart + s0.tbs.pacer.ofs then
    done (setPower { s0.pwr with rang := canWake s0 } (wr s0 TOP_AON_TIMER 0))
  else done s0

/-! ### Resets (R421, R422, R450, R453, R454) -/

/-- The always-on registers (R422). -/
def aonRegs : List Nat :=
  [TOP_WAKE_CFG, TOP_WAKE_STATUS, TOP_AON_TIMER, TOP_RESET_CAUSE] ++ (List.range 8).map (fun k => TOP_AON_SCRATCHk k)

/-- The contents of the local memories and the Stacks are lost (R285, R418; log entry 96). -/
def loseLocal (s : State) : State := loseRange 0x80000000 0xA0000000 s

/-- LDG_WEARr shows the counts that the hub keeps outside the Ledger (R433). -/
def showWear (s : State) : State :=
  let top := fun (r : Nat) => s.fab.wear.foldl (fun m q => if ledgerRegion (q.1 * 256) = r then max m (q.2 / 256) else m) 0
  (List.range 8).foldl (fun s r => wr s (LDG_WEARr r) (w32 (min (2 ^ 32 - 1) (top r)))) s

/-- The running-hours entry in slot `k`: its sequence number and the hours in RUN, IDLE and REST (R432). -/
def hoursEntry (s : State) (k : Nat) : Nat × (Nat × Nat × Nat) :=
  let w := fun (i : Nat) => lword s (0x9000 + 16 * k + 4 * i)
  (w 0, (w 1, w 2, w 3))

/-- The slot with the highest sequence number, from which the Ledger block resumes (R432); none where no slot has one. -/
def latestHours (s : State) : Option Nat :=
  (List.range 64).foldl (fun best k =>
    let seq := (hoursEntry s k).1
    if (match best with | some j => (hoursEntry s j).1 | none => 0) < seq then some k else best) none

/-- The Ledger block resumes its running hours. -/
def resumeHours (s : State) : State :=
  match latestHours s with
  | some k =>
    let h := hoursEntry s k
    setFld (setPower { s.pwr with base := h.2, hoursSeq := h.1, hoursSlot := (k + 1) % 64 } s) LDG_HOURS.RUN h.2.1
  | none => s

/-- The reset ends, and the boot ROM starts (R423): a button that is held low puts LINE first. -/
def startBoot (s : State) : State :=
  let forced := s.svc.low
  let order := if forced then 3 :: (bootOrder s).filter (fun c => decide (c ≠ 3)) else bootOrder s
  setFlag (setPower { s.pwr with boot := { forced := forced, left := order } } s) TOP_BOOT_STATUS.FORCED_LINE forced

/-- What a reset of the digital die leaves (R422): everything at its reset value but what the spec keeps. The DRAM keeps its contents
only in self-refresh; the grain is again that of reset, under which they are read from then on (R359). The boot ROM starts (R423).
A skew command in progress leaves STATUS 0 (DEDUCED, log entry 217). -/
def digitalReset (regs : Tab Word) (s : State) : State :=
  let s0 := if s.dmc.asleep then regrain (grainBits (fld s DMC_MAP.GRAIN)) (grainBits 2) s else loseDram 0 0x80000000 s
  let s1 : State := { State.reset with
    pending := s.pending, fresh := s0.fresh, regs := regs, mem := s0.mem, lost := s0.lost, ledger := s.ledger, sent := s.sent,
    fab := { wear := s.fab.wear },
    dmc := { asleep := s.dmc.asleep, large := s.dmc.large, trained := s.dmc.trained, latent := s0.dmc.latent, coded := s.dmc.coded },
    svc := { low := s.svc.low, gpio := s.svc.gpio },
    pwr := { held := s.pwr.held, por := s.pwr.por, railEn := s.pwr.railEn, aonPart := s.pwr.aonPart + s.tbs.pacer.ofs },
    jtag := s.jtag }
  startBoot (resumeHours (showWear s1))

/-- A hub reset (R421, R422). -/
def hubReset (s : State) : State := digitalReset (s.regs.filter (fun q => decide (q.1 ∈ aonRegs))) s

/-- A hub reset whose source sets bit `b` of TOP_RESET_CAUSE. -/
def hubResetBy (b : Nat) (s : State) : State := hubReset (noteCause b s)

/-- POWER_ON_RESET (R421, R422, R453): VAON has fallen; RAIL_EN is low until the reset ends. -/
def execPowerOnReset (s : State) : Host.Outcome State Fault Refusal :=
  let s1 := digitalReset [] (loseLocal (setDmc { s.dmc with asleep := false } s))
  done { s1 with pwr := { s1.pwr with held := true, por := true, railEn := false, aonPart := 0 }, jtag := { } }

/-- POWER_ON_RESET_END (R453): VAON has been good for 1 ms with PORST_N high; RAIL_EN is driven high. -/
def execPowerOnResetEnd (s : State) : Host.Outcome State Fault Refusal :=
  if s.pwr.por then done (setPower { s.pwr with por := false, railEn := true } s) else done s

/-- PORST_N (R421). A hub in SHELVED is in IDLE afterwards (R414): RAIL_EN is driven high, and RAILS_GOOD lets the digital die out of
reset, with what SHELVED loses lost (log entry 138). -/
def execPorstN (s : State) : Host.Outcome State Fault Refusal :=
  if powerState s = 3 then
    let s1 := hubResetBy 1 (loseLocal s)
    done { s1 with pwr := { s1.pwr with railEn := !s1.pwr.por }, jtag := { } }
  else done (hubResetBy 1 s)

/-- A write to TOP_RESET_CMD (R421, R439). -/
def resetCommand (op : Nat) (s : State) : State :=
  if op = 1 then hubResetBy 2 s else if op = 2 then stewardReset 6 s else s

/-- HUB_RESET_CMD (R421); the write acts only with the key, and reaches a die that is awake. -/
def execHubResetCmd (key : BitVec 8) (s : State) : Host.Outcome State Fault Refusal :=
  done (if key = 0xB7 ∧ awake s then resetCommand 1 s else s)

/-- STEWARD_RESET_CMD (R421); the write acts only with the key, and reaches a die that is awake. -/
def execStewardResetCmd (key : BitVec 8) (s : State) : Host.Outcome State Fault Refusal :=
  done (if key = 0xB7 ∧ awake s then resetCommand 2 s else s)

/-- Whether the rails of the digital die may take it out of reset. -/
def railsDue (s : State) : Bool := s.pwr.held && s.pwr.railEn && !s.pwr.por

/-- RAILS_GOOD (R418, R453): the digital die leaves reset; after a wake from SHELVED this is the hub reset, with line time, local
memories and the Stacks lost. -/
def execRailsGood (s : State) : Host.Outcome State Fault Refusal :=
  if !railsDue s then done s
  else if s.pwr.waking then
    let s1 := hubResetBy 4 (loseLocal s)
    done { s1 with pwr := { s1.pwr with held := false, waking := false }, jtag := { } }
  else done (startBoot (setPower { s.pwr with held := false } s))

/-! ### The watchdog (R421) -/

/-- WATCHDOG_KICK (R421). -/
def execWatchdogKick (s : State) : Host.Outcome State Fault Refusal := done (setPower { s.pwr with wdogAt := clk s } s)

/-- WATCHDOG_EXPIRE (R421): TIMEOUT ms without a KICK; 0 acts as 1. Its clock stops with the die's (R417, R418). -/
def execWatchdogExpire (ofs : Nat) (s : State) : Host.Outcome State Fault Refusal :=
  let s0 := atOfs ofs s
  if awake s0 ∧ flag s0 TOP_WDOG.EN ∧ s0.pwr.wdogAt + nsec (1000000 * max 1 (fld s0 TOP_WDOG.TIMEOUT)) ≤ clk s0 then
    if flag s0 TOP_WDOG.ACTION then done (hubResetBy 5 s0)
    else done (stewardReset 8 (setPower { s0.pwr with wdogAt := clk s0 } s0))
  else done s0

/-! ### The Ledger engine (R429, R431 to R433) -/

/-- The regions that a transfer touches. -/
def regionsIn (ofs len : Nat) : List Nat := (List.range 8).filter (fun r =>
  (List.range (len / 256 + 2)).any (fun i => decide (ledgerRegion (ofs + min (256 * i) (len - 1)) = r)))

/-- Whether a range of memory may be the memory side of a transfer (R431). -/
def ledgerMemory (s : State) (a len : Nat) : Bool :=
  let z := a + len - 1
  (isDram s a && isDram s z) || (decide (0x80000000 ≤ a) && decide (z < 0x80300000)) ||
    (match localAt a, localAt z with
     | some (n, o), some (m, p) =>
       decide (n = m) && localHolds n o && localHolds n p && decide ((o < 0x10000 ∧ p < 0x10000) ∨ 0x10000 ≤ o)
     | _, _ => false)

/-- Whether the transfer registers name a transfer (R431). -/
def transferGood (s : State) : Bool :=
  let o := (rd s LDG_XFER_OFS).toNat
  let a := (rd s LDG_XFER_MEM).toNat
  let n := (rd s LDG_XFER_LEN).toNat
  decide (n % 4 = 0) && decide (4 ≤ n) && decide (n ≤ 65536) && decide (o % 4 = 0) && decide (a % 4 = 0) && decide (o + n ≤ 262144) &&
    ledgerMemory s a n

/-- A command of LDG_CMD is judged and accepted (R401, R431). -/
def ledgerCmd (write : Bool) (bad : Option Nat) (s : State) : State :=
  let o := (rd s LDG_XFER_OFS).toNat
  let n := (rd s LDG_XFER_LEN).toNat
  if isPending s LDG_CMD then reject LDG_CMD 2 s
  else if write && decide (0 < n) && (regionsIn o (min n 65536)).any (fun r => nbit (fld s LDG_PROT.REGION) r) then refuse LDG_CMD s
  else if !transferGood s then reject LDG_CMD 3 s
  else
    let a := (rd s LDG_XFER_MEM).toNat
    setPower { s.pwr with move := some ⟨write, o, a, n / 4, bad⟩ } (accept LDG_CMD (if write then 2 else 1) s)

/-- LDG_READ (R431). -/
def execLdgRead (s : State) : Host.Outcome State Fault Refusal := done (ledgerCmd false none s)

/-- LDG_WRITE (R431): `bad` is the place of the first word that will not take its value, if there is one. -/
def execLdgWrite (bad : Option Nat) (s : State) : Host.Outcome State Fault Refusal := done (ledgerCmd true bad s)

/-- One word of the transfer moves. A word written that still differs after 3 retries holds a free value and ends the command. -/
def moveWord (m : LedgerMove) (s : State) : State :=
  let next : LedgerMove := { m with ofs := m.ofs + 4, mem := m.mem + 4, left := m.left - 1, bad := m.bad.map (fun b => b - 1) }
  let s1 := setPower { s.pwr with move := if m.left ≤ 1 then none else some next } s
  let fin := fun (s : State) => if m.left ≤ 1 then complete LDG_CMD 0 s else s
  if !m.write then fin (dmaWrite 2 m.mem ((List.range 4).map (fun i => lget s (m.ofs + i))) s1)
  else
    let d := dmaRead 2 4 m.mem s1
    let v := ofBytesLE d.1
    if m.bad = some 0 then
      let v1 := (Config.badWord d.2.fresh).toNat
      let s2 := [v, v, v, v1].foldl (fun s v => lwriteWord s m.ofs v) (freshen d.2)
      raise 243 (setFlag (complete LDG_CMD 5 (setPower { s2.pwr with move := none } s2)) LDG_STATUS.WRITE_ERR true)
    else fin (lwriteWord d.2 m.ofs v)

/-- Up to `k` words of the transfer move. -/
def moveWords : Nat → State → State
  | 0, s => s
  | k + 1, s => match s.pwr.move with | some m => moveWords k (moveWord m s) | none => s

/-- What moves in one lap at the typical rates of R431: 24 words written or 48 read (log entry 106); the transfer waits for a DRAM that does not
serve it (R369). -/
def ledgerLap (s : State) : State :=
  match s.pwr.move with
  | some m => if mustWait s 2 m.mem then awaitRead 2 m.mem s else moveWords (if m.write then 24 else 48) s
  | none => s

/-- DIGITAL_RAIL_FAULT (R431, R454): the hub reset lasts while the rail is out. A Ledger write is cut short at a free place: the words
before it have their new values, the later ones their old values. In SHELVED the board may remove the rails (R418). -/
def execDigitalRailFault (s : State) : Host.Outcome State Fault Refusal :=
  if powerState s = 3 then done s else
  let s1 := match s.pwr.move with
    | some m => if m.write then freshen (moveWords (Config.cutShort s.fresh % 25) s) else s
    | none => s
  let s2 := hubReset s1
  done { s2 with pwr := { s2.pwr with held := true }, jtag := { } }

/-- One lap of the hours in RUN, IDLE and REST (R432). -/
def hoursLap (s : State) : State :=
  let (a, b, c) := s.pwr.spent
  let st := powerState s
  let spent := if st = 1 then (a + 1, b, c) else if st = 0 then (a, b + 1, c) else (a, b, c + 1)
  let s1 := setPower { s.pwr with spent := spent } s
  if spent.1 % 368640000 = 0 ∧ st = 1 then setFld s1 LDG_HOURS.RUN ((s1.pwr.base.1 + spent.1 / 368640000) % 2 ^ 32) else s1

/-- RUNNING_HOURS_WRITE (R432): every 360 s while HOURS_EN is 1. -/
def execRunningHoursWrite (ofs : Nat) (s : State) : Host.Outcome State Fault Refusal :=
  let s0 := atOfs ofs s
  if awake s0 && flag s0 LDG_CTRL.HOURS_EN && decide (s0.pwr.hoursAt + nsec 360000000000 ≤ clk s0) then
    let x := s0.pwr
    let seq := x.hoursSeq + 1
    let h := [x.base.1 + x.spent.1 / 368640000, x.base.2.1 + x.spent.2.1 / 368640000, x.base.2.2 + x.spent.2.2 / 368640000]
    let s1 := lwriteWords s0 (0x9000 + x.hoursSlot * 16) (seq % 2 ^ 32 :: h.map (fun v => v % 2 ^ 32))
    done (setPower { s1.pwr with hoursAt := clk s1, hoursSeq := seq, hoursSlot := (x.hoursSlot + 1) % 64 } s1)
  else done s0

/-! ### The button, GPIO and LEDs (R434 to R436) -/

def setSvc (x : Svc) (s : State) : State := { s with svc := x }

/-- SVC_BTN (R434): a debounced press or release. A die that is not awake takes the level alone, for boot (R423). -/
def execSvcBtn (pressed : Bool) (s : State) : Host.Outcome State Fault Refusal :=
  let s0 := setSvc { s.svc with low := pressed } s
  if flag s0 SVC_BTN.PRESSED = pressed ∨ !awake s0 then done s0
  else
    let s1 := setFlag s0 SVC_BTN.PRESSED pressed
    let s2 := if pressed then setFlag s1 SVC_BTN.PRESS_SEEN true else s1
    done (raise 245 (setSvc { s2.svc with pressAt := clk s2 + 1, heldDone := false } s2))

/-- The removal request of R395; a handover that is under way serves as its SWAP. -/
def requestRemoval (s : State) : State :=
  let st := twnState s
  if st = 2 ∧ peerValid s ∧ peerState s = 4 then
    setTwin { s.twin with swap := some (match s.twin.swap with
      | some w => { w with leave := true }
      | none => { h := lapD s + 128, mine := true, leave := true }) } s
  else if st = 1 ∨ st = 3 ∨ st = 4 ∨ st = 5 then enterLeaving s
  else if st = 6 then s
  else setSvc { s.svc with refusedAt := clk s + 1 } (raise 229 (setFlag s TWN_STATUS.SVC_REFUSED true))

/-- SVC_BTN_HOLD (R395, R434): held for 2 s. -/
def execSvcBtnHold (ofs : Nat) (s : State) : Host.Outcome State Fault Refusal :=
  let s0 := atOfs ofs s
  let x := s0.svc
  if awake s0 ∧ flag s0 SVC_BTN.PRESSED ∧ !x.heldDone ∧ x.pressAt ≠ 0 ∧ x.pressAt + nsec 2000000000 ≤ clk s0 + 1 then
    let s1 := raise 245 (setFlag (setSvc { x with heldDone := true } s0) SVC_BTN.HELD_SEEN true)
    done (requestRemoval s1)
  else done s0

/-- The levels at the GPIO pins: an output drives its bit of SVC_GPIO_OUT (R436). -/
def gpioPins (s : State) : Nat :=
  let dir := fld s SVC_GPIO_DIR.PINS
  let out := fld s SVC_GPIO_OUT.PINS
  bitsOf 8 (fun p => if nbit dir p then nbit out p else nbit s.svc.gpio p)

/-- SVC_GPIO_IN reads the pins at the latest lap boundary; a selected change posts SVC_GPIO (R436). -/
def gpioSample (s : State) : State :=
  let was := fld s SVC_GPIO_IN.PINS
  let now := gpioPins s
  if was = now then s
  else
    let e := fld s SVC_GPIO_EDGE.EDGE
    let hit := (List.range 8).any (fun p => nbit was p != nbit now p && nbit e (2 * p + bit (nbit was p)))
    raiseIf hit 246 (setFld s SVC_GPIO_IN.PINS now)

/-- SVC_GPIO (R436): the levels that the pins have at this lap boundary. A die that is not awake samples none. -/
def execSvcGpio (pins : BitVec 8) (s : State) : Host.Outcome State Fault Refusal :=
  let s0 := setSvc { s.svc with gpio := pins.toNat } s
  done (if awake s0 then gpioSample s0 else s0)

/-- The indication that applies (R435); 0 in SHELVED. BOOTING is DEDUCED of a warm boot too (log entry 160). -/
def indication (s : State) : Nat :=
  if powerState s = 3 then 0
  else if twnState s = 6 then 1
  else if s.svc.refusedAt ≠ 0 then 2
  else if s.pwr.boot.failed then 3
  else if flag s HLT_STATUS.TEMP_ALARM || flag s HLT_STATUS.SUP_ALARM || flag s HLT_STATUS.D2D_FAULT || flag s HLT_STATUS.LOCKSTEP ||
      (List.range 5).any (fun n => decide (coreState s n = 2)) then 4
  else if s.pwr.boot.on && !s.pwr.held then 5
  else if powerState s = 2 then 6
  else 7

/-- SVC_LED.INDICATION follows it. -/
def showIndication (s : State) : State := setFld s SVC_LED.INDICATION (indication s)

/-- Whether a lamp that flashes `n` times a second is lit at `t`. -/
def flashing (n t : Nat) : Bool := decide (t * 2 * n / 65536000000000 % 2 = 0)

/-- The levels of SVC_LED[2:0] at an instant of the block's clock (R435). -/
def ledPins (s : State) (t : Nat) : Nat :=
  if flag s SVC_LED.SW && decide (powerState s ≠ 3) then fld s SVC_LED.LEDS
  else match indication s with
    | 0 => 0
    | 1 => 4
    | 2 => bit (flashing 4 t) * 2
    | 3 => bit (flashing 1 t) * 2
    | 4 => 2
    | 5 => bit (flashing 4 t)
    | 6 => bit (decide (t % (4000000000 * 65536) < 50000000 * 65536))
    | _ => 1

/-- REFUSED_INDICATION_END (R435): 5 s after SVC_REFUSED was set. -/
def execRefusedIndicationEnd (ofs : Nat) (s : State) : Host.Outcome State Fault Refusal :=
  let s0 := atOfs ofs s
  if awake s0 ∧ s0.svc.refusedAt ≠ 0 ∧ s0.svc.refusedAt + nsec 5000000000 ≤ clk s0 + 1 then
    done (showIndication (setSvc { s0.svc with refusedAt := 0 } s0))
  else done s0

end Sys2Proof.Machine
end

