-- ==== Sys2Proof/Machine/Boot.lean ====
section
/-!
DEFINITION. The boot ROM: the image and its checks, loading, the sources and booting from the line (spec/16_power_boot.md R423 to R428).
-/
namespace Sys2Proof.Machine
open Sys2Proof

def bootOf (s : State) : Boot := s.pwr.boot
def setBoot (x : Boot) (s : State) : State := { s with pwr := { s.pwr with boot := x } }

/-! ### The image (R424 to R426) -/

/-- The little-endian number in `k` bytes of an image from `i`; bytes beyond its end read 0. -/
def imgNum (img : List Byte) (i k : Nat) : Nat := ofBytesLE ((img.drop i).take k)

/-- Segment `i`: destination, file offset, file size and memory size. -/
structure Segment where
  dest : Nat
  ofs : Nat
  size : Nat
  mem : Nat
deriving DecidableEq, Repr

def segment (img : List Byte) (i : Nat) : Segment :=
  let w := fun (k : Nat) => imgNum img (0x100 + 16 * i + 4 * k) 4
  ⟨w 0, w 1, w 2, w 3⟩

def segments (img : List Byte) : List Segment := (List.range (min 16 (imgNum img 0x14 1))).map (segment img)

/-- The bytes of memory that a segment covers. -/
def segLen (g : Segment) : Nat := max g.size g.mem

/-- Where a segment is written: the local alias is the Steward's own local memory (R26, R284). -/
def segAddr (g : Segment) : Nat :=
  if 0x90000000 ≤ g.dest ∧ g.dest < 0x90100000 then g.dest - 0x90000000 + localBase 4 else g.dest

/-- Whether a segment lies in DRAM. -/
def segInDram (g : Segment) : Bool := decide (segAddr g < 0x80000000)

/-- Whether a segment lies wholly in one local memory, the general part of the Stacks, or DRAM (R425). -/
def segGood (g : Segment) : Bool :=
  let a := segAddr g
  let z := a + segLen g - 1
  decide (segLen g = 0) || decide (z < 0x80000000) || (decide (0x80000000 ≤ a) && decide (z < 0x80300000)) ||
    (match localAt a, localAt z with
     | some (n, o), some (m, p) =>
       decide (n = m) && localHolds n o && localHolds n p && decide ((o < 0x10000 ∧ p < 0x10000) ∨ 0x10000 ≤ o)
     | _, _ => false)

/-- Whether a segment belongs to the Steward. -/
def segOfSteward (g : Segment) : Bool := match localAt (segAddr g) with | some (n, _) => decide (n = 4) | none => false

/-- The bytes of a segment: those of the file, then zeros. -/
def segBytes (img : List Byte) (g : Segment) : List Byte :=
  let f := (img.drop g.ofs).take g.size
  f ++ List.replicate (segLen g - f.length) 0

/-- A segment is loaded; those in DRAM are not, and a warm boot loads only the Steward's (R423, R426). -/
def loadSegment (img : List Byte) (warm : Bool) (s : State) (g : Segment) : State :=
  if segInDram g || (warm && !segOfSteward g) then s else memWrite true (segAddr g) (segBytes img g) s

/-- A byte string of the Ledger. -/
def lbytes (s : State) (o k : Nat) : List Byte := (List.range k).map (fun i => lget s (o + i))

/-- The checks before loading, in the order of R425: the FAIL_CODE, or 0. -/
def headerCheck (s : State) (img : List Byte) : Nat :=
  let n := imgNum img
  let total := n 0x10 4
  let slot := n 0x15 1
  let key := lbytes s (0x1000 + 32 * slot) 32
  if n 0 4 ≠ 0x31474D42 ∨ n 4 2 ≠ 1 ∨ n 6 2 ≠ 0x200 ∨ total < 512 ∨ 16777216 < total ∨ img.length < total ∨ n 0x14 1 = 0 ∨
      16 < n 0x14 1 then 2
  else if fld s TOP_DIE_REV.DIG_REV < n 0x0C 1 then 3
  else if 3 < slot ∨ key.all (fun b => decide (b = 0)) ∨ nbit (lword s 0x1080) slot ∨ sha256 ((img.drop 0x80).take 64) ≠ key then 4
  else if n 8 4 < lword s 0x1084 then 5
  else if !(segments img).all segGood then 6
  else 0

/-- The signature (R424): over the file with the bytes of the signature taken as zero. -/
def signatureGood (img : List Byte) : Bool :=
  let file := img.take (imgNum img 0x10 4)
  let big := fun (i : Nat) => ofBytesBE ((img.drop i).take 32)
  let body := file.take 0xC0 ++ List.replicate 64 0 ++ file.drop 0x100
  ecdsaVerifies (big 0x80) (big 0xA0) (big 0xC0) (big 0xE0) (ofBytesBE (sha256 body))

/-! ### The sources (R423, R425) -/

/-- The attempt at the present source has failed with a code; after the last source the ROM waits 10 s. -/
def bootFail (code : Nat) (s : State) : State :=
  let x := bootOf s
  let left := x.left.drop 1
  let x1 := { x with left := left, failed := true, failedAt := if left = [] then clk s + 1 else 0, lineAt := 0, window := 0, asked := 0,
                     size := 0, chunks := [], repeats := 0 }
  showIndication (setBoot x1 (setFld s TOP_BOOT_STATUS.FAIL_CODE code))

/-- An image has been read: it is checked, loaded and verified. -/
def bootImage (img : List Byte) (s : State) : State :=
  let code := headerCheck s img
  if code ≠ 0 then bootFail code s
  else
    let s1 := (segments img).foldl (loadSegment img (bootOf s).warm) s
    if !signatureGood img then bootFail 7 s1
    else setBoot { bootOf s1 with ready := img.take 512, good := (bootOf s1).left.getD 0 0, failed := false } s1

/-- The ROM is at work on a source. -/
def bootTrying (s : State) : Bool := awake s && (bootOf s).on && decide ((bootOf s).ready = []) && decide ((bootOf s).left ≠ [])

/-! ### The line (R428) -/

/-- Lanes 0 and 1 and the line engine are set up, with the FIXED address of the security record. -/
def lineBoot (s : State) : State :=
  let fixed := lword s 0x1090
  let s1 := if nbit fixed 31 then setFld (setFlag s WOT_ADDR.FIXED true) WOT_ADDR.FIXED_ADDR (fixed % 1024) else s
  let lane := fun (s : State) (n : Nat) =>
    if flag s (LNK_LANEn_CTRL.EN n) then s else laneStart n (setFlag s (LNK_LANEn_CTRL.EN n) true)
  let s2 := [0, 1].foldl lane s1
  if wotOn s2 then s2 else takeAddr (setFlag s2 WOT_CTRL.EN true)

/-- A BOOT_REQ for the window at `o` of `n` bytes, to the west head if lane 0 is UP and else to the east head. -/
def bootReq (o n : Nat) (s : State) : State :=
  let p := bytesLE 4 (rd s TOP_CHIP_ID).toNat ++ bytesLE 4 (rd s TOP_DIE_REV).toNat ++ lbytes s 0 8 ++ bytesLE 4 o ++ bytesLE 4 n
  let west := laneUp s 0
  let dst := if west then 0 else fld s WOT_HEADS.EAST_ADDR
  let s1 := setBoot { bootOf s with window := o, asked := n, since := clk s } s
  let f := fromHere s1 { vc := 2, type := 5, dst := dst, west := west, aux := 0xFF01, payload := p }
  if onLine s1 (laneToward west) then enqueueFrame (laneToward west) f s1 else countDrop (laneToward west) 1 s1

/-- Whether byte `o` of the file has come. -/
def bootHas (x : Boot) (o : Nat) : Bool := x.chunks.any (fun q => decide (q.1 ≤ o ∧ o < q.1 + q.2.length))

/-- The length of the window at `o` once the size of the file is known. -/
def windowLen (x : Boot) (o : Nat) : Nat := if x.size = 0 then 65536 else min 65536 (x.size - o)

/-- Whether the whole window has come. -/
def windowFull (x : Boot) : Bool :=
  decide (x.size ≠ 0) && (List.range (windowLen x x.window)).all (fun i => bootHas x (x.window + i))

/-- The file as received. -/
def bootFile (x : Boot) : List Byte :=
  (List.range x.size).map (fun o =>
    match x.chunks.find? (fun q => decide (q.1 ≤ o ∧ o < q.1 + q.2.length)) with
    | some (a, d) => d.getD (o - a) 0
    | none => 0)

/-! ### The QSPI flash (R427) -/

/-- The flash address of an image: the primary lies at 0, the alternate at BOOT_ALT of the security record (R427, R429). -/
def flashBase (source : Nat) (s : State) : Nat := if source = 2 then lword s 0x108C else 0

/-- One read of the flash: Quad Output Fast Read with a 24-bit address. -/
def flashRead (a : Nat) (s : State) : State := emit .qspi (bytesBE 1 0x6B ++ bytesBE 3 a) s

/-- Boot from a QSPI source: `flash` is what the flash holds from address 0 on, where one answers. An address of 24 bits reaches the
first 16 MiB only, so that no byte beyond them is read (R427; log entry 140). -/
def bootFlash (flash : Option (List Byte)) (source : Nat) (s : State) : State :=
  let base := flashBase source s
  if 16777216 ≤ base then bootFail 1 s
  else match flash with
    | some bytes => bootImage ((bytes.take 16777216).drop base) (flashRead base s)
    | none => bootFail 1 (flashRead base s)

/-- BOOT_ATTEMPT (R423 to R428): the ROM's next act on its present source; `flash` is what a QSPI flash holds, if one answers. -/
def execBootAttempt (flash : Option (List Byte)) (ofs : Nat) (s : State) : Host.Outcome State Fault Refusal :=
  let s0 := atOfs ofs s
  let x := bootOf s0
  if !bootTrying s0 then done s0
  else if x.left.getD 0 0 ≠ 3 then done (bootFlash flash (x.left.getD 0 0) s0)
  else if x.lineAt = 0 then done (setBoot { bootOf (lineBoot s0) with lineAt := clk s0 + 1 } (lineBoot s0))
  else if x.asked = 0 then
    if (ownAddr s0).isSome then done (bootReq 0 65536 s0)
    else if x.lineAt + nsec 10000000000 ≤ clk s0 + 1 then done (bootFail 1 s0)
    else done s0
  else if windowFull x && decide (x.size ≤ x.window + x.asked) then done (bootImage (bootFile x) s0)
  else done s0

/-- Whether an MGMT frame is BOOT_DATA for this hub. -/
def isBootData (s : State) (f : LineFrame) : Bool := decide (f.type = 5) && decide (f.aux = 0xFF02) && decide (some f.dst = ownAddr s)

/-- The data of a BOOT_DATA frame. Data that is new is progress; a window that is full is followed by the next. -/
def bootData (f : LineFrame) (s : State) : State :=
  let x := bootOf s
  let o := ofBytesLE (f.payload.take 4)
  let total := ofBytesLE ((f.payload.drop 4).take 4)
  let d := f.payload.drop 8
  let fresh := (List.range d.length).any (fun i => !bootHas x (o + i))
  if x.asked = 0 ∨ !fresh then s
  else
    let x1 := { x with size := total, chunks := (o, d) :: x.chunks, since := clk s, repeats := 0 }
    let s1 := setBoot x1 s
    if windowFull x1 ∧ x1.window + 65536 < x1.size then bootReq (x1.window + 65536) (windowLen x1 (x1.window + 65536)) s1 else s1

/-- BOOT_DATA_RECEIVE (R428): the first that has arrived. -/
def execBootDataReceive (ofs : Nat) (s : State) : Host.Outcome State Fault Refusal :=
  let s0 := atOfs ofs s
  if !bootTrying s0 then done s0
  else match takeArrived (fun a => !a.bad && isBootData s0 a.frame) s0 with
    | some (a, s1) => done (bootData a.frame s1)
    | none =>
      match s0.wot.delivered.find? (isBootData s0) with
      | some f => done (bootData f (setWot { s0.wot with delivered := s0.wot.delivered.erase f } s0))
      | none => done s0

/-- BOOT_REQ_RETRY (R428): 200 ms without progress; after 10 repeats the source fails. -/
def execBootReqRetry (ofs : Nat) (s : State) : Host.Outcome State Fault Refusal :=
  let s0 := atOfs ofs s
  let x := bootOf s0
  if bootTrying s0 ∧ x.left.getD 0 0 = 3 ∧ x.asked ≠ 0 ∧ x.since + nsec 200000000 ≤ clk s0 then
    if 10 ≤ x.repeats then done (bootFail 1 s0)
    else done (bootReq x.window x.asked (setBoot { x with repeats := x.repeats + 1 } s0))
  else done s0

/-- BOOT_RETRY (R423): 10 s after every source has failed. -/
def execBootRetry (ofs : Nat) (s : State) : Host.Outcome State Fault Refusal :=
  let s0 := atOfs ofs s
  let x := bootOf s0
  if x.on ∧ x.failedAt ≠ 0 ∧ x.failedAt + nsec 10000000000 ≤ clk s0 + 1 then
    let forced := x.forced && !x.warm
    let order := if x.warm then warmOrder s0 else if forced then 3 :: (bootOrder s0).filter (fun c => decide (c ≠ 3)) else bootOrder s0
    done (setBoot { x with left := order, failedAt := 0 } s0)
  else done s0

/-- Runner `n` as the header names it (R285, R426): ENTRY, and RUN where RUNNER_START says so. -/
def setUpRunner (h : List Byte) (s : State) (n : Nat) : State :=
  let entry := imgNum h (0x1C + 4 * n) 4
  let s1 := if entry = 0 then s else wr s (TOP_COREn_ENTRY n) (w32 (entry / 4 * 4))
  if nbit (imgNum h 0x16 1) n ∧ coreState s1 n = 0 then runCore n s1 else s1

/-- BOOT_DONE (R423, R438): the image has verified; the ROM jumps to STEWARD_ENTRY in supervisor mode. -/
def execBootDone (s : State) : Host.Outcome State Fault Refusal :=
  let x := bootOf s
  let h := x.ready
  if x.on ∧ h ≠ [] ∧ awake s then
    let s1 := if x.warm then s else (List.range 4).foldl (setUpRunner h) s
    let s2 := setFlag (setFlag (setFld s1 TOP_BOOT_STATUS.SOURCE x.good) TOP_BOOT_STATUS.WARM x.warm) TOP_BOOT_STATUS.DONE true
    let s3 := setPc 4 (imgNum h 0x18 4) (setMode 4 false (wr s2 TOP_BOOT_VERSION (w32 (imgNum h 8 4))))
    done (showIndication (raise 242 (setBoot { bootOf s3 with on := false, ready := [] } s3)))
  else done s

end Sys2Proof.Machine
end

