-- ==== Sys2Proof/Machine/Gop.lean ====
section
/-!
DEFINITION. Global operations: their issue, their way along the line, their effects, snapshots and echoes (spec/11_woten_line.md R328
to R332).
-/
namespace Sys2Proof.Machine
open Sys2Proof

/-! ### Issue (R328, R331) -/

/-- The payload of a GOP frame. -/
def gopPayload (s : State) (op space dir : Nat) (cancel turn : Bool) : List Byte :=
  let arg := if op = 1 then rdPair s WOT_GCMD_ARG_LO WOT_GCMD_ARG_HI else if op = 2 then fget (rd s WOT_GCMD_ARG_LO) 0 8 else 0
  let value := fld s WOT_GCMD_VALUE_LO.VALUE + fld s WOT_GCMD_VALUE_HI.VALUE * 2 ^ 32
  bytesLE 1 op ++ bytesLE 1 (space + dir * 8 + bit cancel * 32 + bit turn * 64) ++ bytesLE 2 s.wot.opId ++ bytesLE 8 value ++
    bytesLE 8 arg ++ bytesLE 2 (fld s WOT_GCMD_RANGE.ADDR_LO) ++ bytesLE 2 (fld s WOT_GCMD_RANGE.ADDR_HI) ++ bytesLE 4 0

/-- A head issues operation `op`; values 6 to 15 and the reserved spaces are refused. -/
def issueGop (op space dir : Nat) (cancel turn : Bool) (s : State) : State :=
  if !isHead s || (ownAddr s).isNone then refuse WOT_GCMD s
  else if isPending s WOT_GCMD then reject WOT_GCMD 2 s
  else if 5 < op ∨ 4 < space then reject WOT_GCMD 3 s
  else
    let l := headLane s
    let f := fromHere s { vc := 0, type := 2, bcast := true, cut := true, west := decide (l = 0),
                          payload := gopPayload s op space dir cancel turn }
    let s1 := accept WOT_GCMD (w32 op) (setWot { s.wot with opId := (s.wot.opId + 1) % 65536, issued := some (s.wot.opId, clk s) } s)
    if onLine s1 l then enqueueCut l { frame := f } s1 else countDrop l 1 s1

/-- GOP_TRIGGER, GOP_EVENT, GOP_SNAPSHOT, GOP_BARRIER and GOP_RESET (R328). -/
def execGopTrigger (space : Fin 8) (dir : Fin 4) (cancel turn : Bool) (s : State) : Host.Outcome State Fault Refusal :=
  done (issueGop 1 space dir cancel turn s)
def execGopEvent (space : Fin 8) (dir : Fin 4) (cancel turn : Bool) (s : State) : Host.Outcome State Fault Refusal :=
  done (issueGop 2 space dir cancel turn s)
def execGopSnapshot (space : Fin 8) (dir : Fin 4) (cancel turn : Bool) (s : State) : Host.Outcome State Fault Refusal :=
  done (issueGop 3 space dir cancel turn s)
def execGopBarrier (space : Fin 8) (dir : Fin 4) (cancel turn : Bool) (s : State) : Host.Outcome State Fault Refusal :=
  done (issueGop 4 space dir cancel turn s)
def execGopReset (space : Fin 8) (dir : Fin 4) (cancel turn : Bool) (s : State) : Host.Outcome State Fault Refusal :=
  done (issueGop 5 space dir cancel turn s)

/-! ### An operation as a Start List entry (R329) -/

/-- The place of a global operation among the entries of the view in which the Start List's rules judge it. -/
def gopEntry : Nat := 2048

/-- The state in which entry 2048 stands for the operation. -/
def gopView (g : Gop) (s : State) : State :=
  let a := slAddr gopEntry
  let s1 := wr s (a 0) (w32 (2 ^ 31 + g.space % 8 * 2 ^ 28 + g.dir % 4 * 2 ^ 20))
  let s2 := wr (wr s1 (a 4) (lo32 g.value)) (a 8) (w32 (g.value / 2 ^ 32 % 65536))
  let x := s2.tbs.sl
  setSl { x with sign := [(gopEntry, g.sign)], passed := if g.passed then [gopEntry] else [] } s2

/-- The operation with the sign of its Tally at this moment (R71). -/
def noteGop (g : Gop) (s : State) : Gop :=
  let v := gopView g s
  if slIsTally v gopEntry ∧ slDir v gopEntry = 2 then { g with sign := signOf (slDelta v gopEntry (nowD v)) } else g

/-- What the steps of Tallies at the boundary that ends now mean for the operations is kept (R58). -/
def gopKeepSteps (s : State) : State :=
  let keep := fun (g : Gop) =>
    let v := gopView g s
    if g.taken.isNone ∧ slIsTally v gopEntry then
      (if slDir v gopEntry = 2 then { g with sign := slSign v gopEntry } else { g with passed := slPassed v gopEntry })
    else g
  if s.wot.gops = [] then s else setWot { s.wot with gops := s.wot.gops.map keep } s

/-- The effect boundary of a crossing (R65): the first lap at or after it, and no earlier than the next. -/
def gopBoundary (cross : Nat) (s : State) : Nat := max (slBnd s (lapAtOrAfter cross)) (s.bnd + 1)

/-- An operation that is due is taken (R62). -/
def takeGop (s : State) (g : Gop) : Gop :=
  let v := gopView g s
  if g.taken.isNone ∧ slDue v gopEntry then
    let c := slCross v gopEntry
    { g with taken := some (c, gopBoundary c s, false) }
  else g

/-- A late operation that executes at once (R71). -/
def lateGop (s : State) (g : Gop) : Gop :=
  let v := gopView g s
  let c := if g.space = 0 then slCross v gopEntry else nowD s
  { g with taken := some (c, slBnd s (lapAtOrAfter (nowD s + lapUnits)), true) }

/-! ### The way along the line (R329, R330) -/

def gopCancels (f : LineFrame) : Bool := nbit (ofBytesLE ((f.payload.drop 1).take 1)) 5
def gopHalf (f : LineFrame) : Bool := nbit (ofBytesLE ((f.payload.drop 1).take 1)) 6

/-- The RESULT bits of an operation on its arrival: 1 LATE, 2 CANCELLED, 4 REFUSED. -/
def gopResult (s : State) (f : LineFrame) (late : Bool) : Nat :=
  let g := parseGop f
  let refused := (decide (g.op = 2) && decide (127 < g.arg % 256)) || (decide (g.op = 5) && !flag s WOT_CTRL.ACCEPT_RESET)
  bit late + bit (late && gopCancels f) * 2 + bit refused * 4

/-- An acting hub schedules an operation (R329); what it noted of an earlier one of the same issuer and number is gone. -/
def scheduleGop (f : LineFrame) (s0 : State) : State :=
  let g := noteGop (parseGop f) s0
  let s := setWot { s0.wot with results := s0.wot.results.filter (fun q => !(decide (q.1 = g.src ∧ q.2.1 = g.id))) } s0
  if g.op = 0 ∨ g.op = 4 ∨ 5 < g.op ∨ 4 < g.space then s
  else
    let late := slLateNow (gopView g s) gopEntry
    let r := gopResult s f late
    let s1 := raiseIf late 204 (setWot { s.wot with results := s.wot.results ++ [(g.src, g.id, r)] } s)
    if late ∧ gopCancels f then s1
    else setWot { s1.wot with gops := s1.wot.gops ++ [if late then lateGop s g else g] } s1

/-- Whether the next hub in the frame's direction would send its data to the issuing head, as its hop counts say (R326). -/
def nextPoints (s : State) (f : LineFrame) : Bool :=
  let w := fld s WOT_HEADS.HOPS_W
  let e := fld s WOT_HEADS.HOPS_E
  if f.west then !reaches s true || decide (e + 1 < w - 1) else !reaches s false || decide (w + 1 ≤ e - 1)

/-- Whether this hub turns a frame (R330). -/
def gopTurns (s : State) (f : LineFrame) : Bool :=
  !onLine s (laneToward f.west) || isHead s ||
    (gopHalf f && (decide (fld s WOT_STATUS.DATA_DIR ≠ if f.west then 2 else 1) || !nextPoints s f))

/-- GOP_RECEIVE (R329, R330): the first GOP frame that has arrived, but for an echo of this hub's own operation. -/
def execGopReceive (ofs : Nat) (s : State) : Host.Outcome State Fault Refusal :=
  let s0 := atOfs ofs s
  let own := fun (f : LineFrame) => f.echo && decide (some f.src = ownAddr s0)
  match takeArrived (fun a => decide (a.lane < 2) && decide (a.frame.type = 2) && !a.bad && !own a.frame) s0 with
  | some (a, s1) =>
    let f := a.frame
    if f.echo then done (forwardCut { a with frame := withBits s1 f } s1)
    else
      let s2 := if gopActs s1 f then scheduleGop f s1 else s1
      if gopTurns s2 f then
        done (forwardCut { a with frame := turnGop f s2 } s2)
      else done (forwardCut a s2)
  | none => done s0

/-! ### Effects (R329) -/

/-- Whether a taken operation may act now: after the Start List's actions of its boundary, or an event at its crossing time. -/
def gopReady (s : State) (g : Gop) : Bool :=
  match g.taken with
  | some (c, eff, late) =>
    if g.op = 2 ∧ !late then decide (c ≤ nowD s)
    else decide (eff ≤ s.bnd) && s.tbs.sl.taken.all (fun q => decide (s.bnd < q.eff) || q.ran.isSome)
  | none => false

/-- The effect of an operation, with its action stamp (R66, R176, R329). -/
def gopAct (g : Gop) (s : State) : State :=
  let st := match g.taken with | some (c, _, late) => if late then nowD s else c | none => nowD s
  if g.op = 1 then
    (idxWhere 64 (fun r => nbit g.arg r)).foldl (fun s r =>
      if flag s (ACQ_RINGr_SRC.WOTEN r) then offer { ring := r, src := 5, stamp := st, tlap := lapD s, reach := s.bnd, idx := g.id } s
      else s) s
  else if g.op = 2 then (if g.arg % 256 ≤ 127 then raise (g.arg % 256) s else s)
  else if g.op = 3 then
    setWot { s.wot with snaps := s.wot.snaps ++ [(lapD s, s.bnd + 2)] } (wrPair s WOT_SNAP_LAP_LO WOT_SNAP_LAP_HI (lapD s))
  else if g.op = 5 then (if flag s WOT_CTRL.ACCEPT_RESET then hubResetBy 3 s else s)
  else s

/-- GOP_EFFECT (R329): at instant `ofs` the due operations are taken, and the first that may act acts. -/
def execGopEffect (ofs : Nat) (s : State) : Host.Outcome State Fault Refusal :=
  let s0 := atOfs ofs s
  let s1 := setWot { s0.wot with gops := s0.wot.gops.map (takeGop s0) } s0
  match s1.wot.gops.findIdx? (gopReady s1) with
  | some i =>
    match s1.wot.gops[i]? with
    | some g => done (gopAct g (setWot { s1.wot with gops := s1.wot.gops.eraseIdx i } s1))
    | none => done s1
  | none => done s1

/-- WOT_SNAPSHOT (R329): at L + 2, before the records with closing lap L. -/
def execWotSnapshot (s : State) : Host.Outcome State Fault Refusal :=
  match s.wot.snaps.find? (fun q => decide (q.2 ≤ s.bnd)) with
  | some q =>
    let copy := fun (s : State) (c : Nat) => setFld s (WOT_SNAP_SEQc.SEQ c) ((redChan s c).seq % 2 ^ 24)
    let s1 := setWot { s.wot with snaps := s.wot.snaps.erase q } s
    done (raise 205 ((List.range 256).foldl copy s1))
  | none => done s

/-! ### Echoes (R330, R331) -/

/-- WOT_GOP_ECHO (R330): the echo of the operation in flight; another echo of this hub's is discarded. -/
def execWotGopEcho (ofs : Nat) (s : State) : Host.Outcome State Fault Refusal :=
  let s0 := atOfs ofs s
  match takeArrived (fun a => decide (a.lane < 2) && decide (a.frame.type = 2) && !a.bad && a.frame.echo &&
      decide (some a.frame.src = ownAddr s0)) s0 with
  | some (a, s1) =>
    let p := a.frame.payload
    let num := fun (i k : Nat) => ofBytesLE ((p.drop i).take k)
    (match s1.wot.issued with
     | some (id, _) =>
       if id = num 2 2 then
         let s2 := wr s1 WOT_GCMD_RESULT (w32 (num 0x18 1 % 16 * 2 ^ 28 + num 0x1A 2 % 1024 * 65536 + num 2 2))
         done (raise 203 (complete WOT_GCMD 0 (setWot { s2.wot with issued := none } s2)))
       else done s1
     | none => done s1)
  | none => done s0

/-- GOP_ECHO_TIMEOUT (R330): no echo within ECHO_TO µs. -/
def execGopEchoTimeout (ofs : Nat) (s : State) : Host.Outcome State Fault Refusal :=
  let s0 := atOfs ofs s
  match s0.wot.issued with
  | some (_, t) =>
    if t + nsec (1000 * fld s0 WOT_GCMD_ECHO_TO.TIMEOUT) ≤ clk s0 then
      done (complete WOT_GCMD 5 (setWot { s0.wot with issued := none } s0))
    else done s0
  | none => done s0

end Sys2Proof.Machine
end

