-- ==== Sys2Proof/Machine/Path.lean ====
section
/-!
DEFINITION. The path of a sample: the lap frame of codes, its correction, flags and marks, the lap domain's use of it, and the
delivery of records (spec/01_architecture.md R24, spec/02_timebase.md R59, spec/03_front_end.md R83, R91, R92, spec/04_conversion.md R115, R128, R129,
spec/05_reduction.md R141, R157, R160, spec/15_errors_ordering.md R409).
-/
namespace Sys2Proof.Machine
open Sys2Proof

/-! ### The hub's own lap (R115, R129, R409) -/

/-- The corrected code of channel `c` before the inversion of R91, and whether it carries CLAMP by itself: it is saturated, or the
detector fires and the code saturates (R113, R115, R129): in the direction of the differential input, which the code has, and while a pin
is beyond ±15 V in a direction that is free. -/
def convert (fr : D2DFrame) (s : State) (c : Nat) : Int × Bool :=
  let x := correctCode s c (fr.codes.getD c 0)
  if c ∈ fr.overPin then (if Config.clampsHigh s.lapInfo.lap c then 32767 else -32768, true)
  else if c ∈ fr.overDiff then (if x < 0 then -32768 else 32767, true)
  else (satCode x, decide (x ≠ satCode x))

/-- The recovery laps that follow (R129). -/
def recovery (fr : D2DFrame) (c left : Nat) : Nat := if c ∈ fr.overPin then 11 else if c ∈ fr.overDiff then 3 else left - 1

/-- Channel `c` at the start of the lap that has ended, of polarity `neg`: where the polarity has changed, the code of the lap before is what
blank laps repeat (R91). -/
def chanTurned (neg : Bool) (x : Chan) : Chan :=
  if neg = x.neg then x else { x with neg := neg, held := x.code, heldRange := x.range }

/-- Channel `c` in the lap that has ended: the channel after it, and whether its code is a substitute (R83, R91, R128, R157, R409). No frame
comes from a die that is down: the last code repeats. A blank lap sets no flag of its own: it carries STL where it lies in a settling window
(R105) and the hand-over mark, but neither the CLAMP of the code that it replaces nor CMX (DEDUCED, log entry 123). A lap of skew calibration
and a lap without a frame carry CLAMP where the detector fires or recovers (R129). -/
def chanLap (fr : Option D2DFrame) (s : State) (c : Nat) : Chan × Bool :=
  let i := s.lapInfo
  let neg := nbit i.neg c
  let x := chanTurned neg (chanOf s c)
  let flags := bit (nbit i.cmx c) * 2 + bit (nbit i.stl c) * 4 + bit (nbit i.ho (c / 16)) * 8
  match fr with
  | none => ({ x with flags := flags + bit (decide (0 < x.recover)), recover := x.recover - 1 }, true)
  | some f =>
    let y := { x with recover := recovery f c x.recover }
    if f.align ≠ 16 ∨ c / 4 ∈ f.ue then (y, true)
    else if nbit i.skew (c / 16) then
      ({ y with flags := (flags ||| 4) + bit ((convert f s c).2 || decide (0 < x.recover)) }, true)
    else
      let v := convert f s c
      let r := actingRange (cfIn i.cat c 0x00 28 3)
      let z := { y with plain := v.1, range := r }
      if nbit i.blank c && decide (x.heldRange = r) then ({ z with code := x.held, flags := flags &&& 12 }, false)
      else ({ z with code := if neg then invertCode v.1 else v.1, flags := flags + bit (v.2 || decide (0 < x.recover)) }, false)

/-- The sense value of the hub's latest own lap. -/
def senseBefore (s : State) (b : Nat) : Int := match s.twin.own with | d :: _ => d.sense.getD b 0 | [] => 0

/-- The latest sense result of bank `b` with the sign of its lap: a new one, or the one before (R91, R92). -/
def senseResult (new : List (Nat × Int)) (s : State) (b : Nat) : Int :=
  match new.find? (fun q => decide (q.1 = b)) with
  | some q => if nbit s.lapInfo.bankNeg b then -(satSigned 32 q.2) else satSigned 32 q.2
  | none => (bankOf s b).sense

/-- The sense value of bank `b` in the lap that has ended: in a blank lap that of the last lap before the reversal (R91); a
result that comes in a blank lap is dropped (DEDUCED, log entry 213). -/
def senseLap (new : List (Nat × Int)) (s : State) (b : Nat) : Int :=
  if nbit s.lapInfo.bankBlank b then senseBefore s b else senseResult new s b

/-- A lap's first CLAMP on a channel (R129). -/
def clampSeen (m : Nat) (s : State) : State :=
  let was := maskOf s (CNV_CLAMP_STICKYk 0)
  if m ||| was = was then s else raise 159 (setMaskAll (CNV_CLAMP_STICKYk 0) (m ||| was) s)

/-- The pairs of codes of one held value that an overlap lap gives, but of words that were lost (R123): a pair is usable when neither code is
saturated and neither carries CLAMP. `s` is the state before the frame. -/
def overlapPairs (f : D2DFrame) (s : State) : List (Int × Int) :=
  let b := targetOf s
  (List.range 16).filterMap (fun i =>
    let c := 16 * b + i
    let o := convert f s c
    match f.spare[i]? with
    | some k =>
      let x := roundedCode (correctSlice s (spareOf s) false (some c) k)
      if o.2 ∨ 0 < (chanOf s c).recover ∨ x ≠ satCode x ∨ f.align ≠ 16 ∨ c / 4 ∈ f.ue then none else some (o.1, x)
    | none => none)

/-- What the frame gives background calibration and tracking (R123, R125); tracking that does not run gathers nothing. -/
def calibrate (fr : Option D2DFrame) (s0 s : State) : State :=
  match fr with
  | some f =>
    let s1 := if calRuns s then f.slot16.zipIdx.foldl trackTake s else setCnv { s.cnv with track := [] } s
    if overlapLap s1 then overlapResiduals f.slot16 ((overlapPairs f s0).foldl pairTake s1) else s1
  | none => s

/-- The mains tracker takes the code of channel CHAN, which the channel sampled at its lap instant (R59). -/
def mainsTake (d : DataLap) (s : State) : State :=
  if flag s TBS_MAINS_CTRL.EN && flag s TBS_MAINS_CTRL.SRC then
    mainsCode (d.codes.getD (fld s TBS_MAINS_CTRL.CHAN) 0) (lapStart d.lap) s
  else s

/-- The sense values that came with a frame. -/
def newSense (fr : Option D2DFrame) : List (Nat × Int) :=
  match fr with
  | some f => f.sense.filter (fun q => decide (q.1 < 16))
  | none => []

/-- The hub's own lap, of the channels' results `rs`. -/
def ownData (fr : Option D2DFrame) (rs : List (Chan × Bool)) (s : State) : DataLap :=
  let new := newSense fr
  let taken := fun (b : Nat) => !nbit s.lapInfo.bankBlank b && (new.any (fun q => decide (q.1 = b)) || decide (senseLap new s b ≠ senseBefore s b))
  { lap := s.lapInfo.lap, codes := rs.map (fun r => r.1.code), flags := rs.map (fun r => r.1.flags),
    subst := bitsOf 256 (fun c => match rs[c]? with | some r => r.2 | none => false),
    sense := (List.range 16).map (senseLap new s), senseNew := bitsOf 16 taken,
    plain := rs.map (fun r => r.1.plain), skew := (List.range 256).map (fun c => signed 16 (fget (lapWord s (CNV_SKEWc c)) 0 16)) }

/-- The channels whose own code of the lap carries CLAMP; words that were lost bring none. -/
def clampMask (fr : Option D2DFrame) (rs : List (Chan × Bool)) : Nat :=
  let lost := fun (c : Nat) => match fr with | some f => decide (f.align ≠ 16 ∨ c / 4 ∈ f.ue) | none => false
  bitsOf 256 (fun c => match rs[c]? with | some r => !lost c && nbit r.1.flags 0 | none => false)

/-- The frame of the present lap has come. -/
def gotLap (s : State) : State := { s with lapInfo := { s.lapInfo with got := true } }

/-- A sense result is kept with the sign of its lap, and shown as measured (R92). -/
def showSense (new : List (Nat × Int)) (s : State) (q : Nat × Int) : State :=
  setBank q.1 { bankOf s q.1 with sense := senseResult new s q.1 } (setInt s (AFE_BANKb_SENSE.SENSE q.1) (satSigned 32 q.2))

/-- The channels and the SENSE registers take the lap. -/
def showLap (fr : Option D2DFrame) (rs : List (Chan × Bool)) (s : State) : State :=
  let new := newSense fr
  new.foldl (showSense new) (rs.zipIdx.foldl (fun s q => setChan q.2 q.1.1 s) s)

/-- The lap `d` joins the hub's own laps. -/
def keepOwn (d : DataLap) (s : State) : State := setTwin { s.twin with own := (d :: s.twin.own).take 8 } s

/-- The hub's own lap is complete. -/
def ownArrives (frame : Option D2DFrame) (s : State) : State :=
  let fr := if s.lapInfo.up then frame else none
  let rs := (List.range 256).map (chanLap fr s)
  let d := ownData fr rs s
  keepOwn d (mainsTake d (clampSeen (clampMask fr rs) (calibrate fr s (gotLap (showLap fr rs s)))))

/-! ### The lap domain (R376, R379, R380) -/

/-- A mirrored code of channel `c` in lap `l` as it was before the inversion of R91, by the programmed reversal, whatever the hub's own driver
does. -/
def uninvert (s : State) (l c : Nat) (code : Int) : Int :=
  if codeNeg s (c / 16) l && nbit (fld s (AFE_BANKb_EXC_DEP.DEP (c / 16))) (c % 16) then invertCode code else code

/-- The lap `l` from the hub's data source; a lap that is missing is a substituted one (R379). -/
def dataFor (s : State) (l : Nat) : DataLap :=
  let old := s.twin.last
  let got :=
    if fromMirror s l then
      (mirrorLap s l).map (fun q =>
        let d := mirrorData l q
        { d with senseNew := bitsOf 16 (fun b => decide (d.sense.getD b 0 ≠ old.sense.getD b 0)),
                 plain := d.codes.zipIdx.map (fun q => if nbit d.subst q.2 then old.plain.getD q.2 0 else uninvert s l q.2 q.1) })
    else ownLap s l
  match got with
  | some d => d
  | none => { old with lap := l, subst := 2 ^ 256 - 1, senseNew := 0 }

/-- The Catalogue in force in the lap with boundary count `b` (R20): a closed lap's own, whose records are still to come. -/
def catOfLap (s : State) (b : Nat) : Tab Word :=
  match s.red.laps.find? (fun x => decide (x.bnd = b)) with
  | some x => x.cat
  | none => s.red.active

/-- One channel of a lap that the lap domain takes: the OPEN rule and the marks of R157. -/
def takeChan (cat : Tab Word) (b : Nat) (d : DataLap) (flags : List Nat) (s : State) (c : Nat) : State :=
  let f := flags.getD c 0
  let sub := nbit d.subst c
  let s1 := openCount cat c (d.plain.getD c 0) s
  let x := chanOf s1 c
  let s2 := if x.subst = sub then s1 else setChan c { x with subst := sub } s1
  let s3 := markIf (nbit f 0) c 2 b (markIf (nbit f 0 || (x.subst && !sub)) c 0 b s2)
  let s4 := markIf (nbit f 2) c 1 b (markIf (nbit f 1) c 3 b s3)
  markIf (nbit f 3) c 6 b (markIf sub c 5 b (markIf (openLap s4 c b) c 4 b s4))

/-- The mains frequency at the boundary of lap `l`, from the hub's data source (R137, R380). -/
def mainsFreqAt (s : State) (l : Nat) : Nat :=
  match edgeOf s l with
  | some e => e.freq
  | none => fld s TBS_MAINS_FREQ.FREQ

/-- A sense value is taken; those older than any record's mean are forgotten. -/
def takeSense (b : Nat) (d : DataLap) (s : State) (k : Nat) : State :=
  if nbit d.senseNew k then
    let l := tget (fun _ => []) s.red.sense k
    let keep := (b, d.sense.getD k 0) :: l.takeWhile (fun q => decide (b < q.1 + 33554432))
    { s with red := { s.red with sense := tput (fun _ => []) s.red.sense k keep } }
  else s

/-- Once lap `l` is taken, a source that has changed with it is the hub's data source. -/
def sourceTaken (l : Nat) (s : State) : State :=
  match s.twin.switchAt with
  | some (h, m) => if h ≤ l then setTwin { s.twin with mirrored := m, switchAt := none } s else s
  | none => s

/-- The lap domain takes the lap `l` with boundary count `b`. -/
def takeLap (l b : Nat) (s : State) : State :=
  let d := dataFor s l
  let flags := markedFlags s d
  let s1 := (List.range 256).foldl (takeChan (catOfLap s b) b d flags) s
  let s1 := (List.range 256).foldl (enterChain (catOfLap s b) l b (mainsFreqAt s l) d.codes d.skew) s1
  let s2 := (List.range 16).foldl (takeSense b d) s1
  let s3 := (activeRings s2).foldl (storeLap l b (fun c => d.codes.getD c 0) (fun c => flags.getD c 0)) s2
  let s4 := match ownLap s3 l with | some o => if fromMirror s3 l && (mirrorLap s3 l).isSome then xchkLap o d s3 else s3 | none => s3
  sourceTaken l (setTwin { s4.twin with last := d, usedTo := s4.bnd } s4)

/-- The lap domain takes its lap before the present one, once. -/
def takeDueLap (s : State) : State := if s.twin.usedTo < s.bnd then takeLap (lapD s - 1) (s.bnd - 1) s else s

/-- D2D_LAP_FRAME_ARRIVAL (R24, R409): the frame of the lap before the present one, once; an injected error counts with its own
(R410). No frame comes from a die that is down. -/
def execD2dLapFrameArrival (frame : D2DFrame) (s : State) : Host.Outcome State Fault Refusal :=
  if s.lapInfo.got || !s.lapInfo.up then done s
  else
    let k := s.hlt.d2dInject
    let f := if k = 1 then { frame with ce := frame.ce + 1 }
             else if k = 2 then { frame with ue := frame.ue ++ [Config.struckWord s.fresh % 64] } else frame
    let s1 := freshen (setHlt { s.hlt with d2dInject := 0 } s)
    let s2 := d2dErrors f.ce f.ue.eraseDups.length f.align s1
    done (takeDueLap (ownArrives (some f) s2))

/-- At the next boundary: a lap whose frame has not come repeats the codes of the lap before. -/
def closeLap (s : State) : State := takeDueLap (if s.lapInfo.got then s else ownArrives none s)

/-- The trigger edges of the mirrored lap that ends at this boundary (R378, R380). -/
def mirrorEdges (s : State) : State :=
  if fromMirror s (lapD s) then
    match mirrorLap s (lapD s) with
    | some q => (mirrorSides q).foldl (mirrorTrigger (lapD s)) s
    | none => s
  else s

/-! ### Delivery (R141, R160) -/

/-- One record goes to its consumers (R160). -/
def deliverRecord (cat : Tab Word) (s : State) (r : Rec) : State :=
  let s1 := count 256 1 s
  let s2 := (if r.exit = none then activeRings s1 else List.range 64).foldl (storeRecord r) s1
  let q := cfIn cat r.chan 0x80 0 6
  let s3 := if cfIn cat r.chan 0x80 30 1 ≠ 0 ∧ q < 40 then offerRecord q r s2 else s2
  if cfIn cat r.chan 0x80 31 1 ≠ 0 ∧ streaming s3 = true then streamRecord r s3 else s3

/-- The records of one closing lap, in ascending channel order (R141). -/
def deliverLap (s : State) (x : LapRec) : State :=
  (List.range 256).foldl (fun s c =>
    let q := formChannel x.curve x.cat x.bnd x.lap c s
    q.1.foldl (deliverRecord x.cat) q.2) s

/-- RECORD_DELIVERY (R141): the laps whose codes are all on the die (R24), oldest first, with the entry in force at each. -/
def execRecordDelivery (s : State) : Host.Outcome State Fault Refusal :=
  let now := s.red.laps.filter (fun x => decide (x.bnd + 2 ≤ s.bnd))
  let later := s.red.laps.filter (fun x => !decide (x.bnd + 2 ≤ s.bnd))
  done (now.foldl deliverLap { s with red := { s.red with laps := later } })

end Sys2Proof.Machine
end

