-- ==== Sys2Proof/Machine/Bus.lean ====
section
/-!
DEFINITION. The register space and the table windows as a supervisor's access meets them: access types, the effects of writes that
have rows of their own, reads that clear, latch or take a result, and the SPI target (spec/00_scope.md R5 to R10,
spec/01_architecture.md R23, R26 to R31, spec/08_cores.md R243, spec/16_power_boot.md R437).
-/
namespace Sys2Proof.Machine
open Sys2Proof

/-! ### Access types (R7, R8) -/

/-- The row of the register map at an address. -/
def rowAt (a : Nat) : Option RegRow :=
  (rowsOfBlock ((a - 0xA0000000) / 0x10000)).find? (fun r =>
    decide (r.base ≤ a) && (List.range r.n2).any (fun j =>
      decide (r.base + j * r.s2 ≤ a) && decide ((a - (r.base + j * r.s2)) % r.s1 = 0) && decide ((a - (r.base + j * r.s2)) / r.s1 < r.n1)))

/-- The LOCK bit of the block of an address (R8). -/
def locked (s : State) (a : Nat) : Bool :=
  let b := (a - 0xA0000000) / 0x10000
  flag s ⟨if b = 0 then 0xA0000008 else 0xA0000000 + b * 0x10000, 31, 1⟩

/-- The word that a write of `w` leaves by access types alone: rw and, unless locked, rwl bits are set, w1c bits with a 1 clear. -/
def writtenWord (s : State) (a : Nat) (w : Word) : Word :=
  let old := rd s a
  match rowAt a with
  | some r =>
    let sets := w32 r.rw ||| (if locked s a then 0 else w32 r.rwl)
    ((old &&& ~~~ sets) ||| (w &&& sets)) &&& ~~~ (w &&& w32 r.w1c)
  | none => old

/-- A write with no further effect. -/
def plainWrite (a : Nat) (w : Word) (s : State) : State := wr s a (writtenWord s a w)

/-- The word `new` with the field `f` as it stands in the register. -/
def keepFld (s : State) (f : Fld) (new : Word) : Word := fset new f.lo f.w (fld s f)

/-- Whether the one-bit field `f` is set in a word. -/
def inWord (f : Fld) (w : Word) : Bool := decide (fget w f.lo f.w ≠ 0)

/-! ### Command registers (R10) -/

/-- A value of OP without a command: DONE, or BUSY while an earlier command is pending. -/
def noOp (a : Nat) (s : State) : Host.Outcome State Fault Refusal :=
  done (if isPending s a then reject a 2 s else complete a 0 s)

/-- The index of a repeated register: base, stride and number. -/
def indexOf (base stride n a : Nat) : Option Nat :=
  if base ≤ a ∧ (a - base) % stride = 0 ∧ (a - base) / stride < n then some ((a - base) / stride) else none

/-- TBS_PACER_CMD (R76). -/
def pacerCommand (w : Word) (s : State) : Host.Outcome State Fault Refusal :=
  match opOf w with | 1 => execSetTime s | 2 => execPacerAcquire s | 3 => execPacerSwitch s | _ => noOp TBS_PACER_CMD s

/-- TBS_SL_CMD (R76). -/
def slCommand (w : Word) (s : State) : Host.Outcome State Fault Refusal :=
  match opOf w with
  | 1 => execDisableSpace (Fin.ofNat 16 (fget w 4 4)) s
  | 2 => execDisableAll s
  | _ => noOp TBS_SL_CMD s

/-- CNV_CAL_CMD (R135). -/
def calCommand (w : Word) (s : State) : Host.Outcome State Fault Refusal :=
  match opOf w with
  | 1 => execPause s | 2 => execCalResume s | 3 => execReadmit (Fin.ofNat 32 (fget w 8 5)) s | _ => noOp CNV_CAL_CMD s

/-- RED_CMD (R165). -/
def redCommand (w : Word) (s : State) : Host.Outcome State Fault Refusal :=
  match opOf w with
  | 1 => execCatalogueCommit (decide (fget w 4 1 ≠ 0)) s | 2 => execSetSeq (Fin.ofNat 256 (fget w 8 8)) s | _ => noOp RED_CMD s

/-- ACQ_RINGr_CMD (R194). -/
def ringCommand (r : Nat) (w : Word) (s : State) : Host.Outcome State Fault Refusal :=
  match opOf w with
  | 1 => execArm (Fin.ofNat 64 r) s | 2 => execDisarm (Fin.ofNat 64 r) s | 3 => execRingTriggerCmd (Fin.ofNat 64 r) s
  | _ => noOp (ACQ_RINGr_CMD r) s

/-- CTL_CMD (R226). -/
def ctlCommand (w : Word) (s : State) : Host.Outcome State Fault Refusal :=
  match opOf w with
  | 1 => execLoopCommitCmd s | 2 => execLoopResume (Fin.ofNat 32 (fget w 8 5)) s | 3 => execTestStart s | 4 => execTestStop s
  | _ => noOp CTL_CMD s

/-- TOP_CORE_CMD (R253). -/
def coreCommand (w : Word) (s : State) : Host.Outcome State Fault Refusal :=
  let n := Fin.ofNat 8 (fget w 4 3)
  match opOf w with
  | 1 => execCoreRun n s | 2 => execCoreHalt n s
  | 3 => execCoreRestart n (decide (fget w 8 1 ≠ 0)) (decide (fget w 9 1 ≠ 0)) s
  | _ => noOp TOP_CORE_CMD s

/-- LNK_LANEn_CMD (R303). -/
def laneCommand (n : Nat) (w : Word) (s : State) : Host.Outcome State Fault Refusal :=
  match opOf w with
  | 1 => execRetrain (Fin.ofNat 4 n) s | 2 => execLaneInject (Fin.ofNat 4 n) s | _ => noOp (LNK_LANEn_CMD n) s

/-- WOT_CMD (R335). -/
def wotCommand (w : Word) (s : State) : Host.Outcome State Fault Refusal :=
  match opOf w with | 1 => execRenumber s | 2 => execReroute s | _ => noOp WOT_CMD s

/-- WOT_GCMD (R335): a nonzero OP starts an operation. -/
def gopCommand (w : Word) (s : State) : Host.Outcome State Fault Refusal :=
  if opOf w = 0 then done s
  else done (issueGop (opOf w) (fget w 12 3) (fget w 16 2) (decide (fget w 18 1 ≠ 0)) (decide (fget w 19 1 ≠ 0)) s)

/-- ETH_SFPk_CMD (R350): a write starts the transfer; SFP_READ or SFP_WRITE ends it. -/
def sfpCommand (k : Nat) (w : Word) (s : State) : Host.Outcome State Fault Refusal :=
  let a := ETH_SFPk_CMD k
  if isPending s a then done (reject a 2 s) else done (accept a w (plainWrite a w s))

/-- DMC_CMD (R371). -/
def dmcCommand (w : Word) (s : State) : Host.Outcome State Fault Refusal :=
  match opOf w with
  | 1 => execInit s | 2 => execInitResume s | 3 => execSrEnter s | 4 => execSrEnterPasr s | 5 => execSrExit s | _ => noOp DMC_CMD s

/-- TWN_CMD (R397). -/
def twinCommand (w : Word) (s : State) : Host.Outcome State Fault Refusal :=
  let force := decide (fget w 8 1 ≠ 0)
  match opOf w with
  | 1 => execSwap s | 2 => execJoin s | 3 => execLeave force s | 4 => execTake force s | 5 => execTwinClear s | _ => noOp TWN_CMD s

/-- HLT_CMD (R413). -/
def hltCommand (w : Word) (s : State) : Host.Outcome State Fault Refusal :=
  match opOf w with | 1 => execCounterClear s | 2 => execFaultInject s | _ => noOp HLT_CMD s

/-- TOP_PWR_CMD (R415). -/
def powerCommand (w : Word) (s : State) : Host.Outcome State Fault Refusal :=
  match opOf w with
  | 1 => execPwrRun s | 2 => execPwrIdle s | 3 => execPwrRest s | 4 => execPwrShelve s | _ => noOp TOP_PWR_CMD s

/-- LDG_CMD (R439). -/
def ledgerCommand (w : Word) (s : State) : Host.Outcome State Fault Refusal :=
  match opOf w with | 1 => execLdgRead s | 2 => execLdgWrite none s | _ => noOp LDG_CMD s

/-! ### Writes, block by block -/

/-- A write in TOP (R253, R439). -/
def writeTop (a : Nat) (w : Word) (s : State) : Host.Outcome State Fault Refusal :=
  if a = TOP_CORE_CMD then coreCommand w s
  else if a = TOP_PWR_CMD then powerCommand w s
  else if a = TOP_AON_TIMER then done (aonWrite w s)
  else if a = TOP_RESET_CMD then done (if fget w 8 8 = 0xB7 then resetCommand (fget w 0 2) s else s)
  else if a = TOP_WDOG then
    let s1 := plainWrite a w s
    let starts := flag s1 TOP_WDOG.EN && !flag s TOP_WDOG.EN
    done (if starts || decide (fget w 29 1 ≠ 0) then setPower { s1.pwr with wdogAt := clk s1 } s1 else s1)
  else if 0xA0000440 ≤ a ∧ a < 0xA0000680 ∧ 0x40 ≤ a % 128 ∧ a % 128 < 0x60 then
    let n := (a - 0xA0000400) / 128
    let k := a % 32 / 4
    done (setPend s n k (pendWord s n k &&& ~~~ w))
  else done (plainWrite a w s)

/-- A write in AFE (R110). -/
def writeAfe (a : Nat) (w : Word) (s : State) : Host.Outcome State Fault Refusal :=
  let b := (a - 0xA0010100) / 64
  let o := (a - 0xA0010100) % 64
  if a = AFE_EXC_APPLY then execExcApply (BitVec.ofNat 16 w.toNat) s
  else if a < 0xA0010100 ∨ 0xA0010500 ≤ a then done (plainWrite a w s)
  else if o = 0x2C then (if opOf w = 1 then execResetTrip (Fin.ofNat 16 b) s else noOp (AFE_BANKb_CMD b) s)
  else if o = 0x14 then execCmwinWrite (Fin.ofNat 16 b) false w s
  else if o = 0x18 then execCmwinWrite (Fin.ofNat 16 b) true w s
  else if o = 0x10 then
    let f := AFE_BANKb_PLUG.EN b
    let new := writtenWord s a w
    if flag s f && !inWord f new then execPlugEnClear (Fin.ofNat 16 b) (wr s a (keepFld s f new)) else done (wr s a new)
  else done (plainWrite a w s)

/-- A write in CNV (R116, R135). Coefficients take effect at the next boundary. -/
def writeCnv (a : Nat) (w : Word) (s : State) : Host.Outcome State Fault Refusal :=
  let new := writtenWord s a w
  if a = CNV_CAL_CMD then calCommand w s
  else if a = CNV_SKEW_CMD then execSkewCmd (BitVec.ofNat 16 w.toNat) s
  else if a = CNV_REF_CTRL then
    let f := CNV_REF_CTRL.BUF_EN
    execBufEnWrite (inWord f new) (wr s a (keepFld s f new))
  else if a = CNV_CAL_CTRL then
    let f := CNV_CAL_CTRL.EN
    execCalEnWrite (inWord f new) (wr s a (keepFld s f new))
  else if 0xA0021000 ≤ a ∧ a < 0xA0021440 then
    done (if flag s CNV_CAL_CTRL.EN then s else { s with nextRegs := s.nextRegs ++ [(a, new)] })
  else if 0xA0022000 ≤ a ∧ a < 0xA0022800 then done { s with nextRegs := s.nextRegs ++ [(a, new)] }
  else done (wr s a new)

/-- A write in ACQ (R174, R194). -/
def writeAcq (a : Nat) (w : Word) (s : State) : Host.Outcome State Fault Refusal :=
  let r := (a - 0xA0041000) / 128
  let o := (a - 0xA0041000) % 128
  let new := writtenWord s a w
  if a < 0xA0041000 ∨ 0xA0043000 ≤ a then done (wr s a new)
  else if o = 0x50 then ringCommand r w s
  else if o = 0x60 then execFolioSlotRelease (Fin.ofNat 64 r) w s
  else if o ≤ 0x48 then
    if ringState s r = 0 then done (wr s a new)
    else done (if new = rd s a then s else setFlag s (ACQ_RINGr_STATUS.CFG_IGNORED r) true)
  else done (wr s a new)

/-- A write in TBS (R76). -/
def writeTbs (a : Nat) (w : Word) (s : State) : Host.Outcome State Fault Refusal :=
  let new := writtenWord s a w
  let n := (a - 0xA0050100) / 64
  if a = TBS_PACER_CMD then pacerCommand w s
  else if a = TBS_SL_CMD then slCommand w s
  else if a = TBS_PACER_CTRL then done (if new = rd s a then s else pacerCtrlWritten (rd s a) (wr s a new))
  else if a = TBS_MAINS_CTRL then done (if new = rd s a then s else mainsCtrlWrite new s)
  else if a = TBS_SL_CTRL then
    let f := TBS_SL_CTRL.EN
    done (slCtrlWrite (inWord f new) (wr s a (keepFld s f new)))
  else if 0xA0050100 ≤ a ∧ a < 0xA0050200 ∧ a % 64 = 0 then done (if new = rd s a then s else tallyCtrlWrite n new s)
  else if 0xA0050100 ≤ a ∧ a < 0xA0050200 ∧ a % 64 = 0x2C then
    (if opOf w = 1 then execPreset (Fin.ofNat 4 n) s else noOp (TBS_TALLYn_CMD n) s)
  else done (wr s a new)

/-- A write in CTL (R225, R226). -/
def writeCtl (a : Nat) (w : Word) (s : State) : Host.Outcome State Fault Refusal :=
  if a = CTL_CMD then ctlCommand w s
  else if 0xA0061000 ≤ a ∧ a < 0xA0062000 ∧ a % 128 = 0x10 then execSetpointWrite (Fin.ofNat 32 ((a - 0xA0061000) / 128)) w s
  else if (0xA0060200 ≤ a ∧ a < 0xA00602C0) ∨ (0xA0060400 ≤ a ∧ a < 0xA0060600) then execOutputRegisterWrite a w s
  else done (plainWrite a w s)

/-- A write to a register of lane `n`, whose stream has run up to the present instant (R303). -/
def writeLane (n a : Nat) (w : Word) (s : State) : Host.Outcome State Fault Refusal :=
  let o := a % 256
  let old := rd s a
  let new := writtenWord s a w
  let s1 := wr s a new
  if o = 0x04 then laneCommand n w s
  else if o = 0x00 then
    let f := LNK_LANEn_CTRL.EN n
    if inWord f new && !inWord f old then done (laneStart n s1)
    else if !inWord f new && inWord f old then done (laneStop n s1)
    else done s1
  else if o = 0x10 then done (if tapsSetActs s1 n then offerTaps n (tapsOf new) s1 else s1)
  else if o = 0x1C then done (overrideCtle n s1)
  else if o = 0x28 then
    let st := fld s (LNK_LANEn_STATUS.STATE n)
    done (if laneUp s n || decide (st = 9) then showLatency n s1 else s1)
  else if o = 0x40 then
    let f := LNK_LANEn_PRBS_CTRL.CHK_EN n
    let gen := LNK_LANEn_PRBS_CTRL.GEN_EN n
    let anew := (inWord gen new && !inWord gen old) || decide (fget new 0 3 ≠ fget old 0 3)
    let s2 := if anew then genStart n s1 else s1
    if inWord f new && !inWord f old then (if carriesTraffic s n then .fault .misusePrbsCheck else done (checkerStart n s2))
    else done (if !inWord f new && inWord f old then checkerStop n s2 else s2)
  else if o = 0x58 then
    done (if fld s1 (LNK_LANEn_INJ_CFG.MODE n) = 0 then setLane n { laneOf s1 n with injFrom := 0 } s1 else s1)
  else done s1

/-- A write in LNK (R303). -/
def writeLnk (a : Nat) (w : Word) (s : State) : Host.Outcome State Fault Refusal :=
  let n := (a - 0xA0070100) / 256
  if a < 0xA0070100 ∨ 0xA0070500 ≤ a then done (plainWrite a w s) else writeLane n a w (flow n [] s)

/-- A write in WOT (R335). -/
def writeWot (a : Nat) (w : Word) (s : State) : Host.Outcome State Fault Refusal :=
  let new := writtenWord s a w
  let s1 := wr s a new
  if a = WOT_CMD then wotCommand w s
  else if a = WOT_GCMD then gopCommand w s
  else if a = WOT_STREAM_CFG ∨ a = WOT_SPILL_BASE ∨ a = WOT_SPILL_SIZE then done (if flag s WOT_CTRL.STREAM_EN then s else s1)
  else if a = WOT_CTRL then
    let s2 := showLink 0 (showLink 1 (ownDistance (takeAddr s1)))
    done (if flag s2 WOT_CTRL.STREAM_EN && !flag s WOT_CTRL.STREAM_EN then setFlag s2 WOT_STATUS.SPILL_BAD (!spillGood s2) else s2)
  else if a = WOT_ADDR then done (takeAddr s1)
  else if a = WOT_INJ_CFG then done (if flag s1 WOT_INJ_CFG.EN && !flag s WOT_INJ_CFG.EN then injStart s1 else s1)
  else done s1

/-- A write in ETH (R345, R350, R352). -/
def writeEth (a : Nat) (w : Word) (s : State) : Host.Outcome State Fault Refusal :=
  let new := writtenWord s a w
  let s1 := wr s a new
  let m := (a - 0xA0090100) / 256
  let d := (a - 0xA0090300) / 64
  if a = ETH_GW_BUF_BASE ∨ a = ETH_GW_BUF_SIZE then done (if flag s ETH_GW_CFG.EN then s else s1)
  else if 0xA0090100 ≤ a ∧ a < 0xA0090300 then
    let o := a % 256
    done (if (o = 0x24 ∨ o = 0x28 ∨ o = 0x34 ∨ o = 0x38) ∧ flag s (ETH_MACm_CFG.EN m) = true then s else s1)
  else if 0xA0090300 ≤ a ∧ a < 0xA0090380 then
    let o := a % 64
    if o = 0 then done (ptpCfgWrite d new s)
    else if o = 0x04 ∨ o = 0x08 ∨ o = 0x0C then done (parentWrite d (o / 4) new s)
    else done s1
  else if a = ETH_SFPk_CMD 0 then sfpCommand 0 w s
  else if a = ETH_SFPk_CMD 1 then sfpCommand 1 w s
  else done s1

/-- A write in DMC (R359, R371). -/
def writeDmc (a : Nat) (w : Word) (s : State) : Host.Outcome State Fault Refusal :=
  let new := writtenWord s a w
  if a = DMC_CMD then dmcCommand w s
  else if a = DMC_CFG then done (if dmcState s = 0 then wr s a new else s)
  else if a = DMC_MAP then execGrainWrite (Fin.ofNat 16 (fget new 0 4)) s
  else if 0xA00A0100 ≤ a ∧ a < 0xA00A0200 then
    done (if dmcState s = 0 ∨ dmcState s = 5 then wr s a (phyWord ((a - 0xA00A0100) / 4) new) else s)
  else done (wr s a new)

/-- A write in TWN (R374, R397). -/
def writeTwn (a : Nat) (w : Word) (s : State) : Host.Outcome State Fault Refusal :=
  let new := writtenWord s a w
  if a = TWN_CMD then twinCommand w s
  else if a = TWN_CTRL then
    let f := TWN_CTRL.EN
    execTwinEnable (inWord f new) (wr s a (keepFld s f new))
  else done (wr s a new)

/-- A write in HLT (R406 to R408, R413). -/
def writeHlt (a : Nat) (w : Word) (s : State) : Host.Outcome State Fault Refusal :=
  if a = HLT_CMD then hltCommand w s
  else if a = HLT_LOCKSTEP then done (showLockstep (plainWrite a w s))
  else if a = HLT_TEMP_LIMITS ∨ (HLT_SUPm_WARN 0 ≤ a ∧ a < HLT_SUPm_WARN 14) then done (rejudge (plainWrite a w s))
  else done (plainWrite a w s)

/-- A write to a register: `a` is a word address of the register space. An offset that holds none ignores it (R7, R28). -/
def writeReg (a : Nat) (w : Word) (s : State) : Host.Outcome State Fault Refusal :=
  match (a - 0xA0000000) / 0x10000 with
  | 0 => writeTop a w s
  | 1 => writeAfe a w s
  | 2 => writeCnv a w s
  | 3 => if a = RED_CMD then redCommand w s else done (plainWrite a w s)
  | 4 => writeAcq a w s
  | 5 => writeTbs a w s
  | 6 => writeCtl a w s
  | 7 => writeLnk a w s
  | 8 => writeWot a w s
  | 9 => writeEth a w s
  | 10 => writeDmc a w s
  | 11 => writeTwn a w s
  | 12 => writeHlt a w s
  | 13 => if a = LDG_CMD then ledgerCommand w s else done (plainWrite a w s)
  | 14 => done (plainWrite a w s)
  | _ => done s

/-! ### Table windows (R30, R63, R151, R163, R225) -/

/-- The rw bits of word `o` of a Catalogue entry (R163). -/
def catalogueMask (o : Nat) : Word :=
  if o = 0x00 then 0xFFFF0000
  else if o = 0x04 then 0xFF1FFFFF
  else if o = 0x08 then 0xF0000000
  else if o = 0x14 then 0x0000FFFF
  else if o = 0x18 then 0xFFFF8000
  else if o = 0x38 ∨ o = 0x3C then 0
  else if o = 0x70 then 0xE00000FF
  else if o = 0x80 then 0xC000003F
  else if o < 0x80 then 0xFFFFFFFF
  else 0

/-- The rw bits of word `o` of a user curve (R151). -/
def curveMask (o : Nat) : Word := if o = 0 then 0x7F else if 0x100 ≤ o ∧ o < 0x300 then 0xFFFFFFFF else 0

/-- A write to a table window; `a` is a word address below 0xB004_0000. -/
def writeTable (a : Nat) (w : Word) (s : State) : Host.Outcome State Fault Refusal :=
  let put := fun (m : Word) => wr s a ((rd s a &&& ~~~ m) ||| (w &&& m))
  if a < 0xB0010000 then done (put (catalogueMask (a % 256)))
  else if a < 0xB0020000 then
    match slWrite ((a - 0xB0010000) / 32) (a % 32) w s with
    | .next t => done t
    | .fault f => .fault f
    | .refused r => .refused r
  else if a < 0xB0030000 then
    let u := (a - 0xB0020000) / 0x400
    let m := curveMask (a % 0x400)
    if 8 ≤ u ∨ m = 0 ∨ rd (put m) a = rd s a then done s
    else
      let s1 := put m
      done { s1 with red := { s1.red with dirty := s1.red.dirty ||| 2 ^ u } }
  else if a < 0xB0038000 ∧ a % 0x400 < 0x300 then done (wr s a w)
  else done s

/-- Whether a word address lies in the register space or a mapped table window (R26, R30). -/
def isBus (a : Nat) : Bool := decide (0xA0000000 ≤ a ∧ a < 0xA1000000) || decide (0xB0000000 ≤ a ∧ a < 0xB0040000)

/-- A supervisor's write of a word (R23). -/
def busWrite (a : Nat) (w : Word) (s : State) : Host.Outcome State Fault Refusal :=
  let b := a / 4 * 4
  if !isBus b then done s
  else if b < 0xA1000000 then writeReg b w s
  else writeTable b w s

/-! ### Reads -/

/-- Before a register of a lane is read, its stream has run up to the present instant (R298, R300). -/
def laneRead (a : Nat) (s : State) : State :=
  if 0xA0070100 ≤ a ∧ a < 0xA0070500 then flow ((a - 0xA0070100) / 256) [] s else s

/-- What a latching register holds from the present instant (R76, R135, R156, R163, R194, R226, R303, R411). -/
def latch (a : Nat) (s : State) : State :=
  if a = TBS_TIME_FRAC then
    wrPair (wrPair (wr s a (w32 (fracOf (now s)))) TBS_TIME_LO TBS_TIME_HI (nsOf (now s))) TBS_LAP_LO TBS_LAP_HI (lap s)
  else if a = TBS_MAINS_COORD_LO then wrPair s a TBS_MAINS_COORD_HI (s.tbs.mains.coordB % 2 ^ 48)
  else if a = CNV_HO_INFO then wr (wrPair s CNV_HO_LAP_LO CNV_HO_LAP_HI s.cnv.hoLap) CNV_HO_RESID (w32 s.cnv.hoResid)
  else if a = ACQ_BUS_STAMP_FRAC then wrPair (wr s a 0) ACQ_BUS_STAMP_LO ACQ_BUS_STAMP_HI (trigInOf s 8).stamp
  else
    match indexOf (TBS_TALLYn_POS_LO 0) 64 4 a, indexOf (ACQ_TRIGINp_STAMP_FRAC 0) 16 8 a, indexOf (CTL_LOOPn_OUTPUT 0) 128 32 a,
      indexOf (LNK_LANEn_PRBS_BITS_LO 0) 256 4 a, indexOf (HLT_CNTn_COUNT_LO 0) 16 64 a with
    | some n, _, _, _, _ =>
      setInt (wrPair s a (a + 4) (unsignedOf 48 (tallyOf s n).atB)) (TBS_TALLYn_VEL.VEL n) (satSigned 32 (tallyOf s n).velB)
    | _, some p, _, _, _ => wrPair (wr s a 0) (a + 4) (a + 8) (trigInOf s p).stamp
    | _, _, some n, _, _ =>
      let x := loopRun s n
      let s1 := wr (wr (wr (wr s a x.a) (a + 4) x.u) (a + 8) (w32f x.integ)) (a + 12) x.fb.value
      wrPair (wr s1 (a + 16) (w32 (x.fb.seq * 256 + x.fb.tag))) (a + 20) (a + 24) x.tickLap
    | _, _, _, some n, _ => wrPair (wrPair s a (a + 4) (laneOf s n).chk.bits) (a + 8) (a + 12) (laneOf s n).chk.errs
    | _, _, _, _, some n => wrPair s a (a + 4) (countOf s n)
    | _, _, _, _, _ =>
      if 0xB0000000 ≤ a ∧ a < 0xB0010000 then
        let x := redChan s ((a - 0xB0000000) / 256)
        if a % 256 = 0xE0 then wr (wr s a x.tapValue) (a + 4) (w32 (x.tapTag * 2 ^ 24 + x.tapSeq))
        else if a % 256 = 0xF0 then wrPair s a (a + 4) (unsignedOf 48 x.gridPos)
        else s
      else s

/-- CHAIN of the status word of a Catalogue entry (R163). -/
def chainState (s : State) (c : Nat) : Nat :=
  if !outEn s c then 0
  else
    match rateOf s.red.active c with
    | .grid _ => if (redChan s c).waiting then 2 else 1
    | _ => 1

/-- The queue behind the SPI result port, kept beside the cores' queues. -/
def spiResults : Nat := 67

/-- Fields that hardware shows as they stand now. DEDUCED: SL_STATUS.ENABLED counts every entry whose EN is set, chain members too (R76;
log entry 118). -/
def refresh (a : Nat) (s : State) : State :=
  if a = TBS_SL_STATUS then setFld s TBS_SL_STATUS.ENABLED ((List.range 2048).countP (slEn s))
  else if a = TWN_SELF then showSelf s
  else if a = SVC_LED then showIndication s
  else if a = SVC_SPI_STATUS then setFld s SVC_SPI_STATUS.LEVEL (queueOf s spiResults).items.length
  else if a = DMC_TRAINc 0 ∨ a = DMC_TRAINc 1 then lookStep ((a - DMC_TRAINc 0) / 4) s
  else
    match indexOf (TOP_QSTATq 0) 4 65 a, indexOf (ETH_MACm_TXS 0) 256 2 a with
    | some q, _ =>
      let s1 := if q < 60 then look q s else s
      setFld s1 (TOP_QSTATq.LEVEL q) (if q < 60 then (queueOf s1 q).seen else (queueOf s1 q).items.length)
    | _, some m =>
      let s1 := look (stampQueue m) s
      setFld s1 (ETH_MACm_TXS.LEVEL m) (queueOf s1 (stampQueue m)).items.length
    | _, _ =>
      if 0xA0070100 ≤ a ∧ a < 0xA0070500 ∧ a % 256 = 8 then thawLane s ((a - 0xA0070100) / 256)
      else if 0xB0000000 ≤ a ∧ a < 0xB0010000 then
        let c := (a - 0xB0000000) / 256
        let x := redChan s c
        if a % 256 = 0xE8 then wr s a (w32 x.seq)
        else if a % 256 = 0xEC then wr s a (w32 (bit x.cjcFb * 64 + (if x.inits = [] then x.hurdle else 0) * 16 + chainState s c))
        else s
      else s

/-- The word that a read returns, where it is not simply the one held: PEND sets, the running timer, and the active copies with
VIEW = 1 (R162, R225, R234). -/
def wordOf (a : Nat) (s : State) : Word :=
  if a = TOP_AON_TIMER then w32 (aonNow s)
  else if 0xA0000440 ≤ a ∧ a < 0xA0000680 ∧ 0x40 ≤ a % 128 ∧ a % 128 < 0x60 then pendWord s ((a - 0xA0000400) / 128) (a % 32 / 4)
  else if 0xA0061000 ≤ a ∧ a < 0xA0062000 ∧ a % 128 ≤ 0x40 ∧ a % 128 ≠ 0x10 ∧ flag s CTL_CTRL.VIEW = true then
    tget resetWord s.ctl.active a
  else if 0xB0000000 ≤ a ∧ a < 0xB0010000 ∧ a % 256 < 0xE0 ∧ flag s RED_CTRL.VIEW = true then
    tget (fun k => catalogueReset (k % 256)) s.red.active (a - 0xB0000000)
  else if 0xB0020000 ≤ a ∧ a < 0xB0022000 ∧ flag s RED_CTRL.VIEW = true then tget (fun _ => (0 : Word)) s.red.curve (a - 0xB0020000)
  else if 0xB0030000 ≤ a ∧ a < 0xB0038000 ∧ flag s CTL_CTRL.VIEW = true then tget (fun _ => (0 : Word)) s.ctl.gain (a - 0xB0030000)
  else rd s a

/-- The rc fields of the row `o` at `a` are cleared. -/
def clearRow (o : Option RegRow) (a : Nat) (s : State) : State :=
  match o with
  | some r => if r.rc = 0 ∨ 0xB0000000 ≤ a then s else wr s a (rd s a &&& ~~~ (w32 r.rc))
  | none => s

/-- The highest value since the read starts again from the present one (R165, R371). -/
def restartPeak (a : Nat) (s : State) : State :=
  if a = RED_BP_FILL then setFld s RED_BP_FILL.PEAK (fld s RED_BP_FILL.FILL)
  else if a = DMC_OUTSTANDING then setFld s DMC_OUTSTANDING.PEAK (fld s DMC_OUTSTANDING.LEVEL)
  else s

/-- The rc fields of a register are cleared by the read (R8). -/
def clearRc (a : Nat) (s : State) : State := restartPeak a (clearRow (rowAt a) a s)

/-- A supervisor's read of a word (R23). -/
def busRead (a : Nat) (s : State) : Word × State :=
  let b := a / 4 * 4
  if !isBus b then (0, s)
  else if b = ETH_MACm_TXS_ID 0 then readStamp 0 s
  else if b = ETH_MACm_TXS_ID 1 then readStamp 1 s
  else
    let s1 := refresh b (latch b (laneRead b s))
    (wordOf b s1, clearRc b s1)

/-! ### The rows of the bus -/

/-- REGISTER_WRITE (R8). No master runs while the digital die sleeps. -/
def execRegisterWrite (addr : Nat) (value : Word) (s : State) : Host.Outcome State Fault Refusal :=
  if awake s then busWrite addr value s else done s

/-- RC_READ (R8). -/
def execRcRead (addr : Nat) (s : State) : Host.Outcome State Fault Refusal :=
  done (if awake s then (busRead addr s).2 else s)

/-- LATCHING_READ (R76): at instant `ofs` of the lap. -/
def execLatchingRead (addr ofs : Nat) (s : State) : Host.Outcome State Fault Refusal :=
  done (if awake s then (busRead addr (atOfs ofs s)).2 else s)

/-- RESULT_REGISTER_READ (R243, R342). -/
def execResultRegisterRead (addr : Nat) (s : State) : Host.Outcome State Fault Refusal :=
  done (if awake s then (busRead addr s).2 else s)

/-! ### The SPI target (R437) -/

/-- The address of an SPI access. -/
def spiAddr (table : Bool) (offset : Nat) : Nat := (if table then 0xB0000000 else 0xA0000000) + offset % 0x1000000 / 4 * 4

/-- Whether an SPI access lies in unmapped table-window space. -/
def spiUnmapped (table : Bool) (offset : Nat) : Bool := table && decide (0x40000 ≤ offset % 0x1000000)

/-- What leaves on SPI_MISO in a transaction other than RESULT. -/
def spiZeros (s : State) : State := emit .spi (List.replicate 8 0) s

/-- SPI_WRITE (R28, R437). -/
def execSpiWrite (table : Bool) (offset : BitVec 24) (value : Word) (s : State) : Host.Outcome State Fault Refusal :=
  if !awake s then done s
  else if spiUnmapped table offset.toNat then done (raise 184 (spiZeros s))
  else busWrite (spiAddr table offset.toNat) value (spiZeros s)

/-- A result enters the queue (its offset, ERR and its value), or is dropped. -/
def spiQueue (offset : Nat) (err : Bool) (value : Word) (s : State) : State :=
  if (queueOf s spiResults).items.length < 16 then
    queueIn spiResults { words := [w32 offset, w32 (bit err), value], at0 := clk s } s
  else raise 247 (setFlag (addSat s SVC_SPI_DROPPED.COUNT 1) SVC_SPI_STATUS.OVF true)

/-- SPI_READ (R437). -/
def execSpiRead (table : Bool) (offset : BitVec 24) (s : State) : Host.Outcome State Fault Refusal :=
  if !awake s then done s
  else
    let o := offset.toNat / 4 * 4
    if spiUnmapped table o then done (spiQueue o true 0 (spiZeros s))
    else
      let q := busRead (spiAddr table o) (spiZeros s)
      done (spiQueue o false q.1 q.2)

/-- The words of the result that the port gives, with FRESH and LEVEL, in the view that `look` has taken: a result may stay unseen for
40 ns (R243). -/
def spiPort (s : State) : List Word × Bool × Nat :=
  let x := queueOf s spiResults
  match x.items with
  | e :: t => if x.seen = 0 then (x.last, false, x.items.length) else (e.words, true, t.length)
  | [] => (x.last, false, 0)

/-- The 64 bits that a RESULT transaction sends, MSB first. -/
def spiAnswer (s : State) : List Byte :=
  let p := spiPort s
  let w := fun (i : Nat) => (p.1.getD i 0).toNat
  bytesBE 4 (bit p.2.1 * 2 ^ 31 + w 1 * 2 ^ 30 + bit (flag s SVC_SPI_STATUS.OVF) * 2 ^ 29 + p.2.2 * 2 ^ 24 + w 0) ++ bytesBE 4 (w 2)

/-- The result that the port gave becomes read. -/
def spiTake (s : State) : State :=
  let x := queueOf s spiResults
  if (spiPort s).2.1 then setQueue spiResults { x with items := x.items.drop 1, seen := x.seen - 1, last := (spiPort s).1 } s else s

/-- SPI_RESULT (R243, R437). -/
def execSpiResult (s : State) : Host.Outcome State Fault Refusal :=
  if !awake s then done s
  else
    let s1 := look spiResults s
    done (emit .spi (spiAnswer s1) (spiTake s1))

/-- SPI_FRAME_ERROR (R437): a transaction of `clocks` clocks, not 64, with the OP that its first word gives. One of 64 clocks with OP 3 is no
error, and sends zeros; those with another OP have rows of their own. -/
def execSpiFrameError (op : Fin 4) (clocks : Nat) (s : State) : Host.Outcome State Fault Refusal :=
  if !awake s then done s
  else if clocks = 64 then done (if op = 3 then spiZeros s else s)
  else
    let s1 := if op = 2 then look spiResults s else s
    let full := (if op = 2 then spiAnswer s1 else List.replicate 8 0) ++ List.replicate ((clocks + 7) / 8 - 8) 0
    let whole := full.take (clocks / 8)
    let rest := if clocks % 8 = 0 then [] else [(full.getD (clocks / 8) 0) &&& BitVec.ofNat 8 (256 - 2 ^ (8 - clocks % 8))]
    done (addSat (emit .spi (whole ++ rest) s1) SVC_SPI_STATUS.FRAME_ERRS 1)

end Sys2Proof.Machine
end

