-- ==== Sys2Proof/Machine/Flags.lean ====
section
/-!
DEFINITION. The flags N, Z, C and V of a core and what is computed with them: the flag sets of R258, sums, differences and shifts (R260),
the branch conditions (R259), saturation (R262, R263) and binary32 under R264 (spec/09_ralnel_isa.md).
-/
namespace Sys2Proof.Machine
open Sys2Proof

/-! ### Flag sets (R258); N is bit 3, Z bit 2, C bit 1 and V bit 0 (R275) -/

def flagC (f : Nat) : Bool := nbit f 1
def flagV (f : Nat) : Bool := nbit f 0

/-- The four flags as a number. -/
def nzcv (n z c v : Bool) : Nat := bit n * 8 + bit z * 4 + bit c * 2 + bit v

/-- N and Z of a result, with C and V as given. -/
def resultFlags (r : Word) (c v : Bool) : Nat := nzcv r.msb (decide (r = 0)) c v

/-- Set V alone. -/
def setV (n : Nat) (v : Bool) (s : State) : State := setFlags n ((coreOf s n).flags / 2 * 2 + bit v) s

/-! ### Integer results with their flags (R260) -/

/-- A result, and C and V; none where the flag is unchanged. -/
structure Alu where
  r : Word
  c : Option Bool := none
  v : Option Bool := none
deriving DecidableEq, Repr

/-- rs + rt; C is the carry out of bit 31. -/
def aluAdd (a b : Word) : Alu :=
  { r := a + b, c := some (decide (2 ^ 32 ≤ a.toNat + b.toNat)), v := some (decide (a.toInt + b.toInt ≠ (a + b).toInt)) }

/-- rs − rt; C is 1 where there is no borrow. -/
def aluSub (a b : Word) : Alu :=
  { r := a - b, c := some (decide (b.toNat ≤ a.toNat)), v := some (decide (a.toInt - b.toInt ≠ (a - b).toInt)) }

/-- Left shift by `k` below 32; C is the last bit out, unchanged for 0. -/
def aluShl (a : Word) (k : Nat) : Alu := { r := a <<< k, c := if k = 0 then none else some (a.getLsbD (32 - k)) }

/-- Logical right shift. -/
def aluShr (a : Word) (k : Nat) : Alu := { r := a >>> k, c := if k = 0 then none else some (a.getLsbD (k - 1)) }

/-- Arithmetic right shift. -/
def aluSar (a : Word) (k : Nat) : Alu := { r := a.sshiftRight k, c := if k = 0 then none else some (a.getLsbD (k - 1)) }

/-- The flags after a result: Z and N from it, C and V where they are given. -/
def aluFlags (x : Alu) (f : Nat) : Nat := resultFlags x.r (x.c.getD (flagC f)) (x.v.getD (flagV f))

/-- DIV (R260): quotient and V. -/
def divSigned (a b : Word) : Word × Bool :=
  if b = 0 then (0, true)
  else if a = 0x80000000#32 ∧ b = 0xFFFFFFFF#32 then (0x80000000, true)
  else (BitVec.ofInt 32 (a.toInt.tdiv b.toInt), false)

/-- DIVU (R260). -/
def divUnsigned (a b : Word) : Word × Bool := if b = 0 then (0, true) else (w32 (a.toNat / b.toNat), false)

/-! ### Conditions (R259, R270) -/

/-- Branch condition `c`, 0 to 14, on the flags. -/
def condHolds (c : Nat) (f : Nat) : Bool :=
  let n := nbit f 3
  let z := nbit f 2
  let cy := nbit f 1
  let v := nbit f 0
  match c with
  | 0 => true
  | 1 => z
  | 2 => !z
  | 3 => n
  | 4 => !n
  | 5 => cy
  | 6 => !cy
  | 7 => v
  | 8 => !v
  | 9 => cy && !z
  | 10 => !cy || z
  | 11 => n == v
  | 12 => n != v
  | 13 => !z && n == v
  | 14 => z || n != v
  | _ => false

/-- Test `t` of CBR on a register. -/
def regTest (t : Nat) (w : Word) : Bool :=
  match t with
  | 0 => decide (w = 0)
  | 1 => decide (w ≠ 0)
  | 2 => w.msb
  | _ => !w.msb

/-! ### Accumulators (R262, R263) -/

/-- A number held to `w` bits, and whether it had to be. -/
def heldTo (w : Nat) (i : Int) : Int × Bool := (satSigned w i, decide (satSigned w i ≠ i))

/-- ACCR with RAW = 0: rounded, shifted and saturated. -/
def accRead (a : Int) (sh : Nat) : Int × Bool := heldTo 32 ((a + (if sh = 0 then 0 else 2 ^ (sh - 1))) / 2 ^ sh)

/-- ACCR with RAW = 1: bits sh + 31 to sh. -/
def accRaw (a : Int) (sh : Nat) : Word := w32 (unsignedOf 64 a / 2 ^ sh)

/-! ### Floats (R264, R265) -/

/-- An operand: a subnormal is taken as zero. -/
def fin32 (w : Word) : FVal := flushSub fmt32 (f32 w)

/-- A result, rounded, with subnormals replaced by zero. -/
def fout32 (v : FVal) : Word := w32f (flushSub fmt32 (fround fmt32 v))

/-- Whether `a` is chosen before `b` as the lesser, −0 below +0. -/
def fbelow (a b : FVal) : Bool :=
  match fcmpOrd a b with
  | .lt => true
  | .gt => false
  | .eq => a.negd

/-- FMIN: the lesser; of a NaN and a number, the number. -/
def fmin32 (a b : FVal) : FVal := if a.isNan then b else if b.isNan then a else if fbelow a b then a else b

/-- FMAX. -/
def fmax32 (a b : FVal) : FVal := if a.isNan then b else if b.isNan then a else if fbelow a b then b else a

/-- The flags of FCMP. -/
def fcmpFlags (a b : FVal) : Nat :=
  if a.isNan || b.isNan then nzcv false false false true
  else
    match fcmpOrd a b with
    | .lt => nzcv true false false false
    | .eq => nzcv false true true false
    | .gt => nzcv false false true false

/-- FCVTWS: rounded half to even, or toward zero; saturated; NaN gives 0. -/
def fToWord (trunc : Bool) (v : FVal) : Word × Bool :=
  match v with
  | .nan => (0, true)
  | .inf neg => (if neg then 0x80000000 else 0x7FFFFFFF, true)
  | .fin .. =>
    match (if trunc then ftrunc v else ftoInt v) with
    | some i => (BitVec.ofInt 32 (heldTo 32 i).1, (heldTo 32 i).2)
    | none => (0, true)

end Sys2Proof.Machine
end

