-- ==== Sys2Proof/Machine/Operands.lean ====
section
/-!
DEFINITION. How an instruction of a core issues, the operands of the M format, the exceptions of a data access, and loads and stores through
the data cache and the write buffer (spec/08_cores.md R227 to R232, spec/09_ralnel_isa.md R254, R255, R266 to R269, R278).
-/
namespace Sys2Proof.Machine
open Sys2Proof

/-! ### Issue (R227, R236, R250, R278) -/

/-- Whether core `n` issues instructions: it is RUNNING, not asleep in WAIT, and no HALT or RESTART of it is pending. -/
def canIssue (n : Nat) (s : State) : Bool :=
  awake s && decide (coreState s n = 1) && (coreOf s n).asleep.isNone && (haltPending s n).isNone

/-- The Steward's boot ROM (R26). -/
def inRom (a : Nat) : Bool := decide (0xFFFE0000 ≤ a ∧ a < 0x100000000)

/-- Whether core `n` may fetch at `a`: from its own instruction memory, and the Steward in supervisor mode from the boot ROM (R227,
R282). The global alias is out of bounds in service mode (R228). -/
def fetchable (n a : Nat) (s : State) : Bool :=
  decide (0x90000000 ≤ a ∧ a < 0x90010000) ||
    (!inService s n && (decide (localBase n ≤ a ∧ a < localBase n + 0x10000) || (decide (n = 4) && inRom a)))

/-- The exception of the fetch at the pc: ALIGN before ACCESS_FAULT (R278). -/
def fetchFault (n : Nat) (s : State) : Option Nat :=
  let a := (coreOf s n).pc
  if a % 4 ≠ 0 then some 5 else if fetchable n a s then none else some 3

/-- Core `n` issues an instruction of meaning `k`. A pending EVENT exception comes first, then those of the fetch (R278). A core that
does not issue leaves the block as it is. -/
def issue (n : Nat) (k : State → Host.Outcome State Fault Refusal) (s : State) : Host.Outcome State Fault Refusal :=
  if canIssue n s then
    match eventDue s n, fetchFault n s with
    | some e, _ => done (trap n 8 (w32 e) s)
    | none, some num => done (trap n num (w32 (coreOf s n).pc) s)
    | none, none => k s
  else done s

/-- The pc moves to the next instruction. -/
def advance (n : Nat) (s : State) : State := setPc n ((coreOf s n).pc + 4) s

/-- An instruction with effect `f` that goes on at the next instruction. -/
def plainOp (n : Nat) (f : State → State) (s : State) : Host.Outcome State Fault Refusal :=
  issue n (fun t => done (advance n (f t))) s

/-! ### Instruction words (R255) -/

/-- A word of format A. -/
def wordA (op rd rs rt sub fn : Nat) : Word := w32 (op * 2 ^ 26 + rd * 2 ^ 22 + rs * 2 ^ 18 + rt * 2 ^ 14 + sub * 2 ^ 6 + fn)

/-- A word of format Q. -/
def wordQ (ra rb rc num fn : Nat) : Word := wordA 0x30 ra rb rc num fn

/-- Whether an A-format word of the integer group is an instruction (R260). -/
def legalInt (rd rt sub fn : Nat) : Bool :=
  decide (sub = 0) &&
    (if 1 ≤ fn ∧ fn ≤ 14 then true
     else if fn = 15 then decide (rd = 0)
     else if fn = 16 then decide (rd = 0 ∧ rt = 0)
     else if fn = 17 then decide (rt = 0)
     else false)

/-- The multiply-accumulate group (R262, R263). -/
def legalMac (rd rs rt sub fn : Nat) : Bool :=
  match fn with
  | 1 => decide (rd = 0 ∧ sub < 2)
  | 2 => decide (rd = 0 ∧ sub < 2)
  | 3 => decide (rs = 0 ∧ rt = 0 ∧ ¬ (128 ≤ sub ∧ 32 < sub % 64))
  | 4 => decide (rd = 0 ∧ sub < 4 ∧ (2 ≤ sub → rs = 0 ∧ rt = 0))
  | 5 => decide (rt = 0 ∧ sub < 32)
  | _ => false

/-- The float group (R265): which of its fields name float registers. -/
def legalFloat (rd rs rt sub fn : Nat) : Bool :=
  if (1 ≤ fn ∧ fn ≤ 4) ∨ (6 ≤ fn ∧ fn ≤ 8) then decide (rd < 8 ∧ rs < 8 ∧ rt < 8 ∧ sub = 0)
  else if fn = 5 ∨ fn = 9 ∨ fn = 10 then decide (rd < 8 ∧ rs < 8 ∧ rt = 0 ∧ sub = 0)
  else if fn = 11 then decide (rd = 0 ∧ rs < 8 ∧ rt < 8 ∧ sub = 0)
  else if fn = 12 ∨ fn = 15 then decide (rd < 8 ∧ rt = 0 ∧ sub = 0)
  else if fn = 13 then decide (rs < 8 ∧ rt = 0 ∧ sub < 2)
  else if fn = 14 then decide (rs < 8 ∧ rt = 0 ∧ sub = 0)
  else if fn = 16 then decide (rd < 8 ∧ rs < 8 ∧ sub = 0)
  else false

/-- The system group (R274, R275). -/
def legalSystem (rd rs rt sub fn : Nat) : Bool :=
  match fn with
  | 1 => decide (rd = 0 ∧ rs = 0 ∧ rt = 0 ∧ sub = 0)
  | 2 => decide (rd = 0 ∧ rs = 0 ∧ rt = 0 ∧ sub = 0)
  | 3 => decide (rd = 0 ∧ rs = 0 ∧ rt = 0)
  | 4 => decide (rd = 0 ∧ rs = 0 ∧ rt = 0 ∧ sub = 0)
  | 5 => decide (rs = 0 ∧ rt = 0 ∧ sub < 10)
  | 6 => decide (rd = 0 ∧ rt = 0 ∧ sub < 10)
  | _ => false

/-- The queue, event and time group (R271). -/
def legalQueue (ra rb rc num fn : Nat) : Bool :=
  match fn with
  | 1 => decide (rb = 0 ∧ rc = 0 ∧ ra ≤ 13)
  | 2 => decide (rb = 0 ∧ rc = 0)
  | 3 => decide (rc = 0)
  | 4 => decide (num < 8)
  | 5 => decide (ra = 0 ∧ rb = 0 ∧ rc = 0)
  | 6 => decide (ra = 0 ∧ rc = 0 ∧ num = 0)
  | 7 => decide (rb = 0 ∧ rc = 0 ∧ num < 2 ∧ ra ≠ 15)
  | 8 => decide (rb = 0 ∧ rc = 0 ∧ num < 8 ∧ (num < 4 → ra ≠ 15))
  | _ => false

/-- The M format (R267, R268): SZ and SX by opcode, and AM = 3. -/
def legalMem (op : Nat) (w : Word) : Bool :=
  let sz := fget w 14 2
  let sx := fget w 13 1
  decide (fget w 16 2 ≠ 3) &&
    (if op = 0x18 then decide (sz < 2 ∨ (sz = 2 ∧ sx = 0))
     else if op = 0x19 then decide (sz < 3 ∧ sx = 0)
     else if op = 0x1A then decide (2 ≤ sz ∧ sx = 0 ∧ fget w 22 4 < 8)
     else decide (sz = 2 ∧ sx = 0 ∧ fget w 22 4 < 8))

/-- Whether a word decodes as an instruction (R254 to R275). -/
def legalWord (w : Word) : Bool :=
  let op := fget w 26 6
  let a := fget w 22 4
  let b := fget w 18 4
  let c := fget w 14 4
  let d := fget w 6 8
  let fn := fget w 0 6
  if op = 0x00 then legalInt a c d fn
  else if op = 0x01 then legalMac a b c d fn
  else if op = 0x02 then legalFloat a b c d fn
  else if op = 0x03 then legalSystem a b c d fn
  else if 0x08 ≤ op ∧ op ≤ 0x0B then decide (c = 0)
  else if 0x0C ≤ op ∧ op ≤ 0x0E then decide (c = 0 ∧ fget w 5 9 = 0)
  else if op = 0x0F then decide (c = 0 ∧ a = 0)
  else if op = 0x10 then decide (b = 0)
  else if 0x18 ≤ op ∧ op ≤ 0x1B then legalMem op w
  else if op = 0x20 then decide (a ≠ 15 ∧ fget w 20 2 = 0)
  else if op = 0x21 ∨ op = 0x28 ∨ op = 0x29 then true
  else if op = 0x30 then legalQueue a b c d fn
  else false

/-! ### M-format operands (R267) -/

/-- The address that RB receives with write-back, and the address of the next in post-increment: rb + OFF × size. -/
def displaced (s : State) (n rb : Nat) (off : BitVec 13) (size : Nat) : Word := reg s n rb + BitVec.ofInt 32 (off.toInt * size)

/-- The address of an access in address mode `am`. -/
def memAddr (s : State) (n rb am : Nat) (off : BitVec 13) (size : Nat) : Nat :=
  if am = 2 then (reg s n rb).toNat else (displaced s n rb off size).toNat

/-- The write-back of address mode `am`. -/
def writeBack (n rb am : Nat) (off : BitVec 13) (size : Nat) (s : State) : State :=
  if am = 0 then s else setReg n rb (displaced s n rb off size) s

/-! ### Exceptions of a data access (R23, R28, R228, R269, R278) -/

/-- The ranges that service mode may not reach: the register space, the table windows and the global aliases (R228, R282). -/
def barred (a : Nat) : Bool :=
  decide (0xA0000000 ≤ a ∧ a < 0xA1000000) || decide (0xB0000000 ≤ a ∧ a < 0xB0100000) || decide (0x91000000 ≤ a ∧ a < 0x91500000)

/-- The address with the own local alias replaced by the global one (R26). -/
def canonical (n a : Nat) : Nat := if 0x90000000 ≤ a ∧ a < 0x90100000 then localBase n + (a - 0x90000000) else a

/-- The register space (R26). -/
def inRegs (a : Nat) : Bool := decide (0xA0000000 ≤ a ∧ a < 0xA1000000)

/-- Whether something answers core accesses at a canonical address: usable DRAM, the general Stacks, a local memory, the register
space, a table window or the boot ROM (R26 to R30, R230). -/
def answers (s : State) (a : Nat) : Bool :=
  isDram s a || decide (0x80000000 ≤ a ∧ a < 0x80300000) ||
    (match localAt a with
     | some (m, o) => localHolds m o
     | none => false) ||
    isBus a || inRom a

/-- The exception of an access of core `n` of `size` bytes at `a`, in the order of R278. -/
def accessFault (s : State) (n size a : Nat) : Option Nat :=
  if a % size ≠ 0 then some 5
  else if inService s n && barred a then some 3
  else if decide (n ≠ 4) && inRom a then some 3
  else if answers s (canonical n a) then none
  else some 4

/-! ### Loads (R229, R231, R232) -/

/-- Core `n` asks for line `k` of DRAM, once; the line enters its cache when the request is performed. -/
def fillLine (n k : Nat) (s : State) : State :=
  if (waiting s).any (fun q => !q.write && decide (q.core = some n ∧ q.addr = 32 * k)) then s
  else dmcOwn { readReq 2 32 (32 * k) with core := some n } (seepOthers n s)

/-- Whether a load of core `n` at a canonical address misses: its line of DRAM is not in the cache. -/
def misses (s : State) (n a : Nat) : Bool := decide (a < 0x80000000) && !(coreOf s n).cache.any (fun q => decide (q.1 = a / 32))

/-- A load that misses asks for its line. It goes on missing where the controller does not perform the request at once: in stage 2 of R161, which
defers Program traffic, from the self-refresh entry command to READY, behind an earlier access to the line, or without a free slot (R361, R362,
R369). The load then waits, and its instruction is not yet performed (R229). -/
def fetchLine (n a : Nat) (s : State) : State := if misses s n a then fillLine n (a / 32) s else s

/-- The bytes of a load from DRAM, of the cached line. -/
def cachedBytes (n size a : Nat) (s : State) : List Byte :=
  match (coreOf s n).cache.find? (fun q => decide (q.1 = a / 32)) with
  | some q => (List.range size).map (fun i => q.2.getD (a % 32 + i) 0)
  | none => []

/-- The bytes of a load from the register space or a table window: whole words, lowest first, of which a narrower load takes its part.
DEDUCED: an aligned load of 8 bytes, which R6 and R403 do not name, is two word reads with their read effects, the lower address first
(log entry 124). -/
def loadBus (size a : Nat) (s : State) : List Byte × State :=
  let r := busRead a s
  if size = 8 then
    let r2 := busRead (a + 4) r.2
    (bytesLE 4 r.1.toNat ++ bytesLE 4 r2.1.toNat, r2.2)
  else ((bytesLE 4 r.1.toNat).drop (a % 4) |>.take size, r.2)

/-- The bytes of a load of core `n` at an address without exception. -/
def loadBytes (n size a0 : Nat) (s : State) : List Byte × State :=
  let a := canonical n a0
  if inRom a then ((List.range size).map (fun i => Config.romByte (a + i)), s)
  else if isBus a then loadBus size a s
  else if a < 0x80000000 then (cachedBytes n size a s, s)
  else
    let s1 := seepOthers n s
    ((List.range size).map (fun i => byteSeen s1 n (a + i)), s1)

/-- A load: the trap it raises, or what `k` does with its bytes after the write-back of RB (R267). -/
def loadOp (n rb am size : Nat) (off : BitVec 13) (k : List Byte → State → State) (s : State) : Host.Outcome State Fault Refusal :=
  issue n (fun s =>
    let a := memAddr s n rb am off size
    match accessFault s n size a with
    | some num => done (trap n num (w32 a) s)
    | none =>
      if inRegs a && decide (size < 4) then .fault .misuseNarrowRegisterAccess
      else
        let s1 := fetchLine n (canonical n a) s
        if misses s1 n (canonical n a) then done s1
        else
          let r := loadBytes n size a s1
          done (advance n (k r.1 (writeBack n rb am off size r.2)))) s

/-! ### Stores (R27, R231, R232, R269) -/

/-- A store enters the write buffer of core `n`; a full buffer first hands on its oldest. -/
def bufferStore (n a : Nat) (bs : List Byte) (s : State) : State :=
  let s1 := if 8 ≤ (coreOf s n).stores.length then drainOne n s else s
  let x := coreOf s1 n
  setCore n { x with stores := x.stores ++ [(a, bs)] } s1

/-- A store updates the line it hits in the cache; it allocates none. -/
def cacheStore (n a : Nat) (bs : List Byte) (s : State) : State :=
  let x := coreOf s n
  let put := fun (q : Nat × List Byte) =>
    if q.1 = a / 32 then (q.1, q.2.take (a % 32) ++ bs ++ q.2.drop (a % 32 + bs.length)) else q
  setCore n { x with cache := x.cache.map put } s

/-- A store of core `n` to memory: to its own local memory at once, elsewhere through the write buffer. `fromRom` is the Steward's
while it executes from its boot ROM (R27). The boot ROM is read only (R26); DEDUCED: a store to it is dropped without an exception (log entry
209). -/
def storeMemory (n a : Nat) (bs : List Byte) (fromRom : Bool) (s : State) : State :=
  if inRom a then s
  else
    match localAt a with
    | some (m, _) => if m = n then memWrite fromRom a bs s else bufferStore n a bs s
    | none => if a < 0x80000000 then bufferStore n a bs (cacheStore n a bs s) else bufferStore n a bs s

/-- Whether a store meets the region of a ring that is not STOPPED (R168). -/
def meetsRing (s : State) (a size : Nat) : Bool :=
  decide (a < 0x80000000) && (activeRings s).any (fun r => overlap (a, size) (ringBase s r, ringSize s r))

/-- A core that halts itself stops when its store to TOP_CORE_CMD has been performed (R250). -/
def selfHalt (n : Nat) (o : Host.Outcome State Fault Refusal) : Host.Outcome State Fault Refusal :=
  match o with
  | .next t =>
    (match haltPending t n with
     | some c => done (halted n c.word t)
     | none => .next t)
  | x => x

/-- The word of a table window with the bytes of a narrower store in it. -/
def mergedWord (s : State) (a : Nat) (bs : List Byte) : Word :=
  let old := bytesLE 4 (rd s (a / 4 * 4)).toNat
  w32 (ofBytesLE (old.take (a % 4) ++ bs ++ old.drop (a % 4 + bs.length)))

/-- A store of `bs` by core `n`, whose registers and pc are already those after it. -/
def performStore (n a : Nat) (bs : List Byte) (fromRom : Bool) (s : State) : Host.Outcome State Fault Refusal :=
  if isBus a then
    selfHalt n (busWrite a (if bs.length = 4 then w32 (ofBytesLE bs) else mergedWord s a bs) (loosen s))
  else done (storeMemory n a bs fromRom s)

/-- A store of the bytes `bs` (R267, R268): the trap it raises, or its effect. -/
def storeOp (n rb am size : Nat) (off : BitVec 13) (bs : State → List Byte) (s : State) : Host.Outcome State Fault Refusal :=
  issue n (fun s =>
    let a := memAddr s n rb am off size
    match accessFault s n size a with
    | some num => done (trap n num (w32 a) s)
    | none =>
      if inRegs a && decide (size < 4) then .fault .misuseNarrowRegisterAccess
      else if meetsRing s a size then .fault .misuseRingStore
      else
        performStore n (canonical n a) (bs s) (decide (n = 4) && inRom (coreOf s n).pc)
          (advance n (writeBack n rb am off size s))) s

end Sys2Proof.Machine
end

