-- ==== Sys2Proof/Machine/Isa.lean ====
section
/-!
DEFINITION. The Ralnel instructions of the integer, multiply-accumulate, branch, queue, event, time and system groups, one meaning each
(spec/09_ralnel_isa.md R260 to R263, R270 to R275). Operand `n` is the core; the other operands are the fields of the word.
-/
namespace Sys2Proof.Machine
open Sys2Proof

/-! ### Shapes -/

/-- A result in `rd` with no flag change. -/
def intOp (n rd : Nat) (r : State → Word) (s : State) : Host.Outcome State Fault Refusal :=
  plainOp n (fun s => setReg n rd (r s) s) s

/-- A result in `rd` with its flags (R258). -/
def aluOp (n rd : Nat) (f : State → Alu) (s : State) : Host.Outcome State Fault Refusal :=
  plainOp n (fun s => setFlags n (aluFlags (f s) (coreOf s n).flags) (setReg n rd (f s).r s)) s

/-- Flags alone. -/
def cmpOp (n : Nat) (f : State → Alu) (s : State) : Host.Outcome State Fault Refusal :=
  plainOp n (fun s => setFlags n (aluFlags (f s) (coreOf s n).flags) s) s

/-- A result in `rd` and V. -/
def intVOp (n rd : Nat) (f : State → Word × Bool) (s : State) : Host.Outcome State Fault Refusal :=
  plainOp n (fun s => setV n (f s).2 (setReg n rd (f s).1 s)) s

/-- A jump to the address that `target` gives, after the effect `f`. -/
def jumpOp (n : Nat) (f : State → State) (target : State → Nat) (s : State) : Host.Outcome State Fault Refusal :=
  issue n (fun s => done (setPc n (target s) (f s))) s

/-- The address of the instruction plus 4 × OFF (R270). -/
def branchTarget (s : State) (n : Nat) (off : Int) : Nat := unsignedOf 32 (((coreOf s n).pc : Int) + 4 * off)

/-- The address of the next instruction. -/
def returnTo (s : State) (n : Nat) : Word := w32 ((coreOf s n).pc + 4)

/-! ### Integer register group (R260) -/

def execAdd (n : Fin 5) (rd rs rt : Fin 16) (s : State) : Host.Outcome State Fault Refusal :=
  aluOp n rd (fun s => aluAdd (reg s n rs) (reg s n rt)) s

def execSub (n : Fin 5) (rd rs rt : Fin 16) (s : State) : Host.Outcome State Fault Refusal :=
  aluOp n rd (fun s => aluSub (reg s n rs) (reg s n rt)) s

def execAnd (n : Fin 5) (rd rs rt : Fin 16) (s : State) : Host.Outcome State Fault Refusal :=
  aluOp n rd (fun s => { r := reg s n rs &&& reg s n rt }) s

def execOr (n : Fin 5) (rd rs rt : Fin 16) (s : State) : Host.Outcome State Fault Refusal :=
  aluOp n rd (fun s => { r := reg s n rs ||| reg s n rt }) s

def execXor (n : Fin 5) (rd rs rt : Fin 16) (s : State) : Host.Outcome State Fault Refusal :=
  aluOp n rd (fun s => { r := reg s n rs ^^^ reg s n rt }) s

/-- The shift amount of a register: bits 4:0. -/
def shiftBy (s : State) (n rt : Nat) : Nat := (reg s n rt).toNat % 32

def execShl (n : Fin 5) (rd rs rt : Fin 16) (s : State) : Host.Outcome State Fault Refusal :=
  aluOp n rd (fun s => aluShl (reg s n rs) (shiftBy s n rt)) s

def execShr (n : Fin 5) (rd rs rt : Fin 16) (s : State) : Host.Outcome State Fault Refusal :=
  aluOp n rd (fun s => aluShr (reg s n rs) (shiftBy s n rt)) s

def execSar (n : Fin 5) (rd rs rt : Fin 16) (s : State) : Host.Outcome State Fault Refusal :=
  aluOp n rd (fun s => aluSar (reg s n rs) (shiftBy s n rt)) s

def execMul (n : Fin 5) (rd rs rt : Fin 16) (s : State) : Host.Outcome State Fault Refusal :=
  intOp n rd (fun s => reg s n rs * reg s n rt) s

def execMulh (n : Fin 5) (rd rs rt : Fin 16) (s : State) : Host.Outcome State Fault Refusal :=
  intOp n rd (fun s => BitVec.ofInt 32 ((reg s n rs).toInt * (reg s n rt).toInt / 2 ^ 32)) s

def execDiv (n : Fin 5) (rd rs rt : Fin 16) (s : State) : Host.Outcome State Fault Refusal :=
  intVOp n rd (fun s => divSigned (reg s n rs) (reg s n rt)) s

def execDivu (n : Fin 5) (rd rs rt : Fin 16) (s : State) : Host.Outcome State Fault Refusal :=
  intVOp n rd (fun s => divUnsigned (reg s n rs) (reg s n rt)) s

def execMin (n : Fin 5) (rd rs rt : Fin 16) (s : State) : Host.Outcome State Fault Refusal :=
  intOp n rd (fun s => if (reg s n rs).toInt ≤ (reg s n rt).toInt then reg s n rs else reg s n rt) s

def execMax (n : Fin 5) (rd rs rt : Fin 16) (s : State) : Host.Outcome State Fault Refusal :=
  intOp n rd (fun s => if (reg s n rs).toInt ≤ (reg s n rt).toInt then reg s n rt else reg s n rs) s

def execCmp (n : Fin 5) (rs rt : Fin 16) (s : State) : Host.Outcome State Fault Refusal :=
  cmpOp n (fun s => aluSub (reg s n rs) (reg s n rt)) s

def execJr (n : Fin 5) (rs : Fin 16) (s : State) : Host.Outcome State Fault Refusal :=
  jumpOp n (fun s => s) (fun s => (reg s n rs).toNat) s

/-- JALR: the target is read before the links are written; with RD = 15 both links are one write. -/
def execJalr (n : Fin 5) (rd rs : Fin 16) (s : State) : Host.Outcome State Fault Refusal :=
  jumpOp n (fun s => setReg n 15 (returnTo s n) (setReg n rd (returnTo s n) s)) (fun s => (reg s n rs).toNat) s

/-! ### Immediate group (R261) -/

def execAddi (n : Fin 5) (rd rs : Fin 16) (imm : BitVec 14) (s : State) : Host.Outcome State Fault Refusal :=
  aluOp n rd (fun s => aluAdd (reg s n rs) (imm.signExtend 32)) s

def execAndi (n : Fin 5) (rd rs : Fin 16) (imm : BitVec 14) (s : State) : Host.Outcome State Fault Refusal :=
  aluOp n rd (fun s => { r := reg s n rs &&& imm.setWidth 32 }) s

def execOri (n : Fin 5) (rd rs : Fin 16) (imm : BitVec 14) (s : State) : Host.Outcome State Fault Refusal :=
  aluOp n rd (fun s => { r := reg s n rs ||| imm.setWidth 32 }) s

def execXori (n : Fin 5) (rd rs : Fin 16) (imm : BitVec 14) (s : State) : Host.Outcome State Fault Refusal :=
  aluOp n rd (fun s => { r := reg s n rs ^^^ imm.setWidth 32 }) s

def execShli (n : Fin 5) (rd rs : Fin 16) (sh : BitVec 5) (s : State) : Host.Outcome State Fault Refusal :=
  aluOp n rd (fun s => aluShl (reg s n rs) sh.toNat) s

def execShri (n : Fin 5) (rd rs : Fin 16) (sh : BitVec 5) (s : State) : Host.Outcome State Fault Refusal :=
  aluOp n rd (fun s => aluShr (reg s n rs) sh.toNat) s

def execSari (n : Fin 5) (rd rs : Fin 16) (sh : BitVec 5) (s : State) : Host.Outcome State Fault Refusal :=
  aluOp n rd (fun s => aluSar (reg s n rs) sh.toNat) s

def execCmpi (n : Fin 5) (rs : Fin 16) (imm : BitVec 14) (s : State) : Host.Outcome State Fault Refusal :=
  cmpOp n (fun s => aluSub (reg s n rs) (imm.signExtend 32)) s

def execLui (n : Fin 5) (rd : Fin 16) (imm : BitVec 18) (s : State) : Host.Outcome State Fault Refusal :=
  intOp n rd (fun _ => imm.setWidth 32 <<< 14) s

/-! ### Multiply-accumulate group (R262, R263) -/

/-- The selected accumulator: acc0 or acc1. -/
def accOf (s : State) (n : Nat) (one : Bool) : Int := if one then (coreOf s n).acc1 else (coreOf s n).acc0

def setAcc (n : Nat) (one : Bool) (v : Int) (s : State) : State :=
  setCore n (if one then { coreOf s n with acc1 := v } else { coreOf s n with acc0 := v }) s

/-- The accumulator takes a saturated sum, and V says whether it saturated. -/
def accumulate (n : Nat) (one : Bool) (f : State → Int) (s : State) : Host.Outcome State Fault Refusal :=
  plainOp n (fun s => setV n (heldTo 64 (f s)).2 (setAcc n one (heldTo 64 (f s)).1 s)) s

def execMac (n : Fin 5) (acc : Bool) (rs rt : Fin 16) (s : State) : Host.Outcome State Fault Refusal :=
  accumulate n acc (fun s => accOf s n acc + (reg s n rs).toInt * (reg s n rt).toInt) s

def execMsu (n : Fin 5) (acc : Bool) (rs rt : Fin 16) (s : State) : Host.Outcome State Fault Refusal :=
  accumulate n acc (fun s => accOf s n acc - (reg s n rs).toInt * (reg s n rt).toInt) s

/-- ACCR; the raw form with a shift above 32 is ILLEGAL. -/
def execAccr (n : Fin 5) (rd : Fin 16) (acc raw : Bool) (sh : Fin 64) (s : State) : Host.Outcome State Fault Refusal :=
  if raw then
    issue n (fun s =>
      if 32 < sh.val then done (trap n 1 (wordA 1 rd 0 0 (128 + bit acc * 64 + sh) 3) s)
      else done (advance n (setReg n rd (accRaw (accOf s n acc) sh) s))) s
  else intVOp n rd (fun s => (BitVec.ofInt 32 (accRead (accOf s n acc) sh).1, (accRead (accOf s n acc) sh).2)) s

/-- ACCW; with `clear` the register fields are 0 in the word and are not read. -/
def execAccw (n : Fin 5) (acc clear : Bool) (rs rt : Fin 16) (s : State) : Host.Outcome State Fault Refusal :=
  plainOp n (fun s =>
    setAcc n acc (if clear then 0 else signed 64 ((reg s n rs).toNat * 2 ^ 32 + (reg s n rt).toNat)) s) s

/-- SAT to `m` + 1 bits. -/
def execSat (n : Fin 5) (rd rs : Fin 16) (m : Fin 32) (s : State) : Host.Outcome State Fault Refusal :=
  intVOp n rd (fun s => (BitVec.ofInt 32 (heldTo (m + 1) (reg s n rs).toInt).1, (heldTo (m + 1) (reg s n rs).toInt).2)) s

/-! ### Branches and jumps (R270) -/

def execBcc (n : Fin 5) (cnd : Fin 15) (off : BitVec 20) (s : State) : Host.Outcome State Fault Refusal :=
  jumpOp n (fun s => s) (fun s => if condHolds cnd (coreOf s n).flags then branchTarget s n off.toInt else (coreOf s n).pc + 4) s

def execCbr (n : Fin 5) (rs : Fin 16) (t : Fin 4) (off : BitVec 20) (s : State) : Host.Outcome State Fault Refusal :=
  jumpOp n (fun s => s) (fun s => if regTest t (reg s n rs) then branchTarget s n off.toInt else (coreOf s n).pc + 4) s

def execJ (n : Fin 5) (off : BitVec 26) (s : State) : Host.Outcome State Fault Refusal :=
  jumpOp n (fun s => s) (fun s => branchTarget s n off.toInt) s

def execJal (n : Fin 5) (off : BitVec 26) (s : State) : Host.Outcome State Fault Refusal :=
  jumpOp n (fun s => setReg n 15 (returnTo s n) s) (fun s => branchTarget s n off.toInt) s

/-! ### Queues, events and time (R271 to R273) -/

/-- QPOP (R238, R241, R242). -/
def execQpop (n : Fin 5) (wd : Fin 14) (q : BitVec 8) (s : State) : Host.Outcome State Fault Refusal :=
  issue n (fun s =>
    if 12 ≤ q.toNat then done (trap n 6 (w32 q.toNat) s)
    else
      let r := popQueue (localQueue n q.toNat) s
      let put := fun (i : Nat) (s : State) => setReg n (wd + i) (r.1.1.getD i 0) s
      done (advance n (setZ n r.1.2 (put 2 (put 1 (put 0 r.2)))))) s

/-- QLEN (R239). -/
def execQlen (n : Fin 5) (wd : Fin 16) (q : BitVec 8) (s : State) : Host.Outcome State Fault Refusal :=
  issue n (fun s =>
    if 12 ≤ q.toNat then done (trap n 6 (w32 q.toNat) s)
    else
      let s1 := look (localQueue n q.toNat) s
      let k := (queueOf s1 (localQueue n q.toNat)).seen
      done (advance n (setZ n (decide (k = 0)) (setReg n wd (w32 k) s1)))) s

/-- QPUSH (R232, R242, R244). -/
def execQpush (n : Fin 5) (p : BitVec 8) (ws wt : Fin 16) (s : State) : Host.Outcome State Fault Refusal :=
  issue n (fun s =>
    if p.toNat = 31 ∨ p.toNat < 20 then
      afterStores n (fun s =>
        let s1 := loosen s
        let r := if p.toNat = 31 then pushCommit n (reg s1 n ws) (reg s1 n wt) s1 else pushRelay n (40 + p.toNat) (reg s1 n ws) (reg s1 n wt) s1
        done (advance n (setZ n r.1 r.2))) s
    else done (trap n 6 (w32 p.toNat) s)) s

/-- WAIT (R235): it returns at once or the core sleeps; its end is a row of its own. -/
def execWait (n : Fin 5) (wd : Fin 16) (g : Fin 8) (ws wt : Fin 16) (s : State) : Host.Outcome State Fault Refusal :=
  issue n (fun s =>
    let m := reg s n ws
    let r := pendWord s n g &&& m
    if r ≠ 0 then done (waitReturn n wd g r s)
    else
      let z : Asleep := { wd := wd, group := g, mask := m, timeout := (reg s n wt).toNat, start := clk s }
      done (setFlag (setCore n { coreOf s n with asleep := some z } s) (TOP_COREn_STATUS.SLEEP n) true)) s

/-- POST (R22, R232, R233). -/
def execPost (n : Fin 5) (e : BitVec 8) (s : State) : Host.Outcome State Fault Refusal :=
  issue n (afterStores n (fun s => done (advance n (raiseChosen e.toNat (loosen s))))) s

/-- POSTR: bits 7:0 of a register. -/
def execPostr (n : Fin 5) (ws : Fin 16) (s : State) : Host.Outcome State Fault Refusal :=
  issue n (afterStores n (fun s => done (advance n (raiseChosen ((reg s n ws).toNat % 256) (loosen s))))) s

/-- STAMP (R273): form 0 is the short stamp with its fraction, form 1 the lap count, at instant `ofs`. -/
def execStamp (n : Fin 5) (wd : Fin 15) (laps : Bool) (ofs : Nat) (s : State) : Host.Outcome State Fault Refusal :=
  plainOp n (fun s0 =>
    let s := atOfs ofs s0
    let v := if laps then lap s else fracOf (now s) + shortStamp (now s) * 65536
    setReg n (wd + 1) (hi32 v) (setReg n wd (lo32 v) s)) s

/-- Whether Tally `k` runs: a Tally that is OFF or WAITING does not (R273). -/
def tallyRuns (s : State) (k : Nat) : Bool :=
  let st := fld s (TBS_TALLYn_STATUS.STATE k)
  decide (st ≠ 0 ∧ st ≠ 4)

/-- TALLY (R52, R54, R273) at instant `ofs`; the position form with wd = 15 is ILLEGAL. -/
def execTally (n : Fin 5) (wd : Fin 16) (k : Fin 4) (vel : Bool) (ofs : Nat) (s : State) : Host.Outcome State Fault Refusal :=
  issue n (fun s0 =>
    if vel = false ∧ wd.val = 15 then done (trap n 1 (wordQ wd 0 0 k 8) s0)
    else
      let s := filtersPass (atOfs ofs s0)
      let runs := tallyRuns s k
      if vel then
        done (advance n (setReg n wd (w32 (unsignedOf 32 (if runs then tallyVel s k (now s) else 0))) s))
      else
        let p := if runs then tallyAt s k (now s) (now s) else (tallyOf s k).atB
        let v := unsignedOf 64 (signed 48 (unsignedOf 48 p))
        done (advance n (setReg n (wd + 1) (hi32 v) (setReg n wd (lo32 v) s)))) s

/-! ### System (R274 to R276, R279 to R282) -/

def execNop (n : Fin 5) (s : State) : Host.Outcome State Fault Refusal := plainOp n (fun s => s) s

/-- FENCE (R232). -/
def execFence (n : Fin 5) (s : State) : Host.Outcome State Fault Refusal :=
  issue n (afterStores n (fun s => done (advance n (dropCache n s)))) s

/-- SYSCALL (R277): EPC is the next instruction. -/
def execSyscall (n : Fin 5) (code : BitVec 8) (s : State) : Host.Outcome State Fault Refusal :=
  issue n (fun s => done (takeException n 7 ((coreOf s n).pc + 4) (w32 code.toNat) (coreOf s n).pc s)) s

/-- ERET (R280, R282). -/
def execEret (n : Fin 5) (s : State) : Host.Outcome State Fault Refusal :=
  issue n (fun s =>
    if inService s n then done (trap n 2 (wordA 3 0 0 0 0 4) s)
    else
      let x := coreOf s n
      done (setMode n (nbit x.estat.toNat 4)
        (setCore n { x with pc := x.epc.toNat, flags := fget x.estat 0 4, estat := fset x.estat 5 1 0 } s))) s

/-- The system registers (R275). -/
def systemReg (s : State) (n sr : Nat) : Word :=
  let x := coreOf s n
  let cycles := (clk s - x.cycle0) / corePeriod n
  match sr with
  | 0 => x.vbase
  | 1 => x.epc
  | 2 => x.estat
  | 3 => x.eval
  | 4 => x.scratch0
  | 5 => x.scratch1
  | 6 => lo32 cycles
  | 7 => hi32 cycles
  | 8 => w32 n
  | 9 => w32 x.flags
  | _ => 0

/-- MFSR (R274, R275, R282) at instant `ofs`. -/
def execMfsr (n : Fin 5) (rd : Fin 16) (sr : Fin 10) (ofs : Nat) (s : State) : Host.Outcome State Fault Refusal :=
  issue n (fun s =>
    if inService s n = true ∧ sr.val < 6 then done (trap n 2 (wordA 3 rd 0 0 sr 5) s)
    else
      let s1 := atOfs ofs s
      done (advance n (setReg n rd (systemReg s1 n sr) s1))) s

/-- A core with a system register written; those marked ro ignore it (R275, R276). -/
def withSystemReg (x : Core) (sr : Nat) (v : Word) : Core :=
  match sr with
  | 0 => { x with vbase := v &&& 0xFFFFFF00#32 }
  | 1 => { x with epc := v }
  | 2 => { x with estat := v &&& 0x0000FF3F#32 }
  | 4 => { x with scratch0 := v }
  | 5 => { x with scratch1 := v }
  | 9 => { x with flags := v.toNat % 16 }
  | _ => x

/-- MTSR (R274, R275, R282). -/
def execMtsr (n : Fin 5) (sr : Fin 10) (rs : Fin 16) (s : State) : Host.Outcome State Fault Refusal :=
  issue n (fun s =>
    if inService s n = true ∧ sr.val ≠ 9 then done (trap n 2 (wordA 3 0 rs 0 sr 6) s)
    else done (advance n (setCore n (withSystemReg (coreOf s n) sr (reg s n rs)) s))) s

/-! ### Words that are no instruction, and fetches (R254, R278) -/

/-- ILLEGAL_INSTRUCTION (R254): the word that the core fetched. A word that is an instruction belongs to the row of its own. -/
def execIllegalInstruction (n : Fin 5) (word : Word) (s : State) : Host.Outcome State Fault Refusal :=
  issue n (fun s => done (if legalWord word then s else trap n 1 word s)) s

/-- FETCH_FAULT (R227, R278). Without an exception of the fetch there is no effect. -/
def execFetchFault (n : Fin 5) (s : State) : Host.Outcome State Fault Refusal := issue n done s

end Sys2Proof.Machine
end

