-- ==== Sys2Proof/Machine/IsaData.lean ====
section
/-!
DEFINITION. The Ralnel float instructions, and the loads and stores (spec/09_ralnel_isa.md R264 to R269).
-/
namespace Sys2Proof.Machine
open Sys2Proof

/-! ### Float group (R265) -/

/-- The value of a float register as an operand. -/
def fop (s : State) (n r : Nat) : FVal := fin32 (freg s n r)

/-- A rounded result in `fd`. -/
def floatOp (n fd : Nat) (f : State → FVal) (s : State) : Host.Outcome State Fault Refusal :=
  plainOp n (fun s => setFreg n fd (fout32 (f s)) s) s

def execFadd (n : Fin 5) (fd fs ft : Fin 8) (s : State) : Host.Outcome State Fault Refusal :=
  floatOp n fd (fun s => fadd fmt32 (fop s n fs) (fop s n ft)) s

def execFsub (n : Fin 5) (fd fs ft : Fin 8) (s : State) : Host.Outcome State Fault Refusal :=
  floatOp n fd (fun s => fsub fmt32 (fop s n fs) (fop s n ft)) s

def execFmul (n : Fin 5) (fd fs ft : Fin 8) (s : State) : Host.Outcome State Fault Refusal :=
  floatOp n fd (fun s => fmul fmt32 (fop s n fs) (fop s n ft)) s

def execFdiv (n : Fin 5) (fd fs ft : Fin 8) (s : State) : Host.Outcome State Fault Refusal :=
  floatOp n fd (fun s => fdiv fmt32 (fop s n fs) (fop s n ft)) s

def execFsqrt (n : Fin 5) (fd fs : Fin 8) (s : State) : Host.Outcome State Fault Refusal :=
  floatOp n fd (fun s => fsqrt fmt32 (fop s n fs)) s

/-- FMAC: one rounding. -/
def execFmac (n : Fin 5) (fd fs ft : Fin 8) (s : State) : Host.Outcome State Fault Refusal :=
  floatOp n fd (fun s => ffma fmt32 (fop s n fs) (fop s n ft) (fop s n fd)) s

def execFmin (n : Fin 5) (fd fs ft : Fin 8) (s : State) : Host.Outcome State Fault Refusal :=
  floatOp n fd (fun s => fmin32 (fop s n fs) (fop s n ft)) s

def execFmax (n : Fin 5) (fd fs ft : Fin 8) (s : State) : Host.Outcome State Fault Refusal :=
  floatOp n fd (fun s => fmax32 (fop s n fs) (fop s n ft)) s

def execFabs (n : Fin 5) (fd fs : Fin 8) (s : State) : Host.Outcome State Fault Refusal :=
  floatOp n fd (fun s => fabs (fop s n fs)) s

def execFneg (n : Fin 5) (fd fs : Fin 8) (s : State) : Host.Outcome State Fault Refusal :=
  floatOp n fd (fun s => fneg (fop s n fs)) s

def execFcmp (n : Fin 5) (fs ft : Fin 8) (s : State) : Host.Outcome State Fault Refusal :=
  plainOp n (fun s => setFlags n (fcmpFlags (fop s n fs) (fop s n ft)) s) s

def execFcvtsw (n : Fin 5) (fd : Fin 8) (ws : Fin 16) (s : State) : Host.Outcome State Fault Refusal :=
  floatOp n fd (fun s => fofInt (reg s n ws).toInt) s

def execFcvtws (n : Fin 5) (wd : Fin 16) (fs : Fin 8) (trunc : Bool) (s : State) : Host.Outcome State Fault Refusal :=
  intVOp n wd (fun s => fToWord trunc (fop s n fs)) s

def execFmvwf (n : Fin 5) (wd : Fin 16) (fs : Fin 8) (s : State) : Host.Outcome State Fault Refusal :=
  intOp n wd (fun s => freg s n fs) s

def execFmvfw (n : Fin 5) (fd : Fin 8) (ws : Fin 16) (s : State) : Host.Outcome State Fault Refusal :=
  plainOp n (fun s => setFreg n fd (reg s n ws) s) s

/-! ### TINTERP (R266) -/

/-- The word that a table read gives; else the outcome of the instruction: the exception it raises, or a stall (R229). -/
def tableWord (n a0 : Nat) (s : State) : Except (Host.Outcome State Fault Refusal) (Word × State) :=
  let a := a0 % 2 ^ 32
  match accessFault s n 4 a with
  | some num => .error (done (trap n num (w32 a) s))
  | none =>
    let s1 := fetchLine n (canonical n a) s
    if misses s1 n (canonical n a) then .error (done s1)
    else
      let r := loadBytes n 4 a s1
      .ok (w32 (ofBytesLE r.1), r.2)

/-- A binary32 operation on operands already rounded, as R264 rounds it. -/
def rounded (v : FVal) : FVal := fin32 (fout32 v)

/-- The interpolation at the abscissa `x`, already held to 0 to N − 1, in the table at `a`. -/
def interpolate (n a last : Nat) (x : FVal) (s : State) : Except (Host.Outcome State Fault Refusal) (Word × State) :=
  match ffloor x with
  | none => .ok (Config.interpolated s.fresh, freshen s)
  | some i0 =>
    let i := i0.toNat
    let f := rounded (fsub fmt32 x (fofInt i0))
    match tableWord n (a + 12 + 4 * i) s with
    | .error e => .error e
    | .ok (y, s1) =>
      if i = last then .ok (fout32 (fin32 y), s1)
      else
        match tableWord n (a + 16 + 4 * i) s1 with
        | .error e => .error e
        | .ok (y', s2) =>
          let d := rounded (fsub fmt32 (fin32 y') (fin32 y))
          .ok (fout32 (fadd fmt32 (fin32 y) (rounded (fmul fmt32 f d))), s2)

/-- The result and V of TINTERP. -/
def tinterp (n a : Nat) (fs : FVal) (s : State) : Except (Host.Outcome State Fault Refusal) ((Word × Bool) × State) :=
  match tableWord n a s with
  | .error e => .error e
  | .ok (x0, s1) =>
    match tableWord n (a + 4) s1 with
    | .error e => .error e
    | .ok (inv, s2) =>
      if fs.isNan then .ok ((0x7FC00000, true), s2)
      else
        match tableWord n (a + 8) s2 with
        | .error e => .error e
        | .ok (nw, s3) =>
          let last := clampNat 2 256 nw.toNat - 1
          let x := rounded (fmul fmt32 (rounded (fsub fmt32 fs (fin32 x0))) (fin32 inv))
          let low := flt x (fofInt 0)
          let high := flt (fofInt last) x
          let x1 := if low then fofInt 0 else if high then fofInt last else x
          match interpolate n a last x1 s3 with
          | .error e => .error e
          | .ok (w, s4) => .ok ((w, low || high), s4)

/-- TINTERP; a table read that raises an exception leaves the instruction without effect. -/
def execTinterp (n : Fin 5) (fd fs : Fin 8) (ws : Fin 16) (s : State) : Host.Outcome State Fault Refusal :=
  issue n (fun s =>
    match tinterp n (reg s n ws).toNat (fop s n fs) s with
    | .error o => o
    | .ok (r, s1) => done (advance n (setV n r.2 (setFreg n fd r.1 s1)))) s

/-! ### Loads (R267, R268) -/

/-- A load into a general register of `size` bytes, sign-extended where `sx`. -/
def loadReg (n rd rb am size : Nat) (sx : Bool) (off : BitVec 13) (s : State) : Host.Outcome State Fault Refusal :=
  loadOp n rb am size off (fun bs s =>
    let v := ofBytesLE bs
    setReg n rd (if sx then BitVec.ofInt 32 (signed (8 * size) v) else w32 v) s) s

def execLdb (n : Fin 5) (rd rb : Fin 16) (am : Fin 3) (off : BitVec 13) (s : State) : Host.Outcome State Fault Refusal :=
  loadReg n rd rb am 1 true off s

def execLdbu (n : Fin 5) (rd rb : Fin 16) (am : Fin 3) (off : BitVec 13) (s : State) : Host.Outcome State Fault Refusal :=
  loadReg n rd rb am 1 false off s

def execLdh (n : Fin 5) (rd rb : Fin 16) (am : Fin 3) (off : BitVec 13) (s : State) : Host.Outcome State Fault Refusal :=
  loadReg n rd rb am 2 true off s

def execLdhu (n : Fin 5) (rd rb : Fin 16) (am : Fin 3) (off : BitVec 13) (s : State) : Host.Outcome State Fault Refusal :=
  loadReg n rd rb am 2 false off s

def execLdw (n : Fin 5) (rd rb : Fin 16) (am : Fin 3) (off : BitVec 13) (s : State) : Host.Outcome State Fault Refusal :=
  loadReg n rd rb am 4 false off s

def execFld (n : Fin 5) (fd : Fin 8) (rb : Fin 16) (am : Fin 3) (off : BitVec 13) (s : State) : Host.Outcome State Fault Refusal :=
  loadOp n rb am 4 off (fun bs s => setFreg n fd (w32 (ofBytesLE bs)) s) s

/-- FLDD: binary64 rounded to binary32. -/
def execFldd (n : Fin 5) (fd : Fin 8) (rb : Fin 16) (am : Fin 3) (off : BitVec 13) (s : State) : Host.Outcome State Fault Refusal :=
  loadOp n rb am 8 off (fun bs s => setFreg n fd (fout32 (flushSub fmt64 (f64 (ofBytesLE bs)))) s) s

/-! ### Stores (R267, R268) -/

/-- A store of the low bytes of a general register, read before the write-back. -/
def storeReg (n rd rb am size : Nat) (off : BitVec 13) (s : State) : Host.Outcome State Fault Refusal :=
  storeOp n rb am size off (fun s => bytesLE size (reg s n rd).toNat) s

def execStb (n : Fin 5) (rd rb : Fin 16) (am : Fin 3) (off : BitVec 13) (s : State) : Host.Outcome State Fault Refusal :=
  storeReg n rd rb am 1 off s

def execSth (n : Fin 5) (rd rb : Fin 16) (am : Fin 3) (off : BitVec 13) (s : State) : Host.Outcome State Fault Refusal :=
  storeReg n rd rb am 2 off s

def execStw (n : Fin 5) (rd rb : Fin 16) (am : Fin 3) (off : BitVec 13) (s : State) : Host.Outcome State Fault Refusal :=
  storeReg n rd rb am 4 off s

def execFst (n : Fin 5) (fd : Fin 8) (rb : Fin 16) (am : Fin 3) (off : BitVec 13) (s : State) : Host.Outcome State Fault Refusal :=
  storeOp n rb am 4 off (fun s => bytesLE 4 (freg s n fd).toNat) s

end Sys2Proof.Machine
end

