-- ==== Sys2Proof/Machine/Jtag.lean ====
section
/-!
DEFINITION. The IEEE 1149.1 test access port and its boundary register (spec/17_pins_electrical.md R462, R463). The sixteen states and
their edges are those of IEEE 1149.1, which the spec names (PRESUMED; log entry 107).
-/
namespace Sys2Proof.Machine
open Sys2Proof

/-- What a boundary cell is (R463). -/
inductive CellKind where
  | input | data | control | receiver
deriving DecidableEq, Repr

/-- A boundary cell: its signal, the signal's index, and its kind. -/
structure BoundaryCell where
  signal : String
  index : Nat
  kind : CellKind
deriving DecidableEq, Repr

/-- The cells of inputs `sig[lo]` up, one each. -/
def inCells (sig : String) (lo n : Nat) : List BoundaryCell := (List.range n).map (fun i => ⟨sig, lo + i, .input⟩)

/-- The cells of output, bidirectional and open-drain pins: a data cell and then a control cell each. -/
def outCells (sig : String) (lo n : Nat) : List BoundaryCell :=
  (List.range n).flatMap (fun i => [⟨sig, lo + i, .data⟩, ⟨sig, lo + i, .control⟩])

/-- The logic block in the order of R446, without the JTAG pins and PORST_N. -/
def logicCells : List BoundaryCell :=
  inCells "TRIG_IN" 0 8 ++ outCells "TRIG_OUT" 0 4 ++ inCells "ENC_A" 0 4 ++ inCells "ENC_B" 0 4 ++ inCells "ENC_Z" 0 4 ++
  outCells "PWM" 0 16 ++ outCells "GPIO" 0 8 ++ outCells "TRIG_BUS" 0 1 ++ inCells "MAINS_IN" 0 1 ++ outCells "TWIN_HOLD_OUT" 0 1 ++
  inCells "TWIN_HOLD_IN" 0 1 ++ outCells "SVC_LED" 0 3 ++ outCells "SFP_SCL" 0 1 ++ outCells "SFP_SDA" 0 1 ++ outCells "SFP_SCL" 1 1 ++
  outCells "SFP_SDA" 1 1 ++ inCells "SPI_SCLK" 0 1 ++ inCells "SPI_CS_N" 0 1 ++ inCells "SPI_MOSI" 0 1 ++ outCells "SPI_MISO" 0 1 ++
  outCells "QSPI_CLK" 0 1 ++ outCells "QSPI_CS_N" 0 1 ++ outCells "QSPI_IO" 0 4 ++ inCells "WAKE_N" 0 1 ++ inCells "SVC_BTN_N" 0 1 ++
  outCells "RAIL_EN" 0 1

/-- A DRAM channel in the order of R448; the clock and strobe pairs count once. -/
def dramCells (ch : String) : List BoundaryCell :=
  let sig := fun (n : String) => ch ++ n
  outCells (sig "DQ") 0 8 ++ outCells (sig "DQS") 0 1 ++ outCells (sig "DMI") 0 1 ++ outCells (sig "DQ") 8 8 ++ outCells (sig "DQS") 1 1 ++
  outCells (sig "DMI") 1 1 ++ outCells (sig "CA") 0 3 ++ outCells (sig "CK") 0 1 ++ outCells (sig "CA") 3 3 ++ outCells (sig "CKE") 0 1 ++
  outCells (sig "CS") 0 1 ++ outCells (sig "RESET_N") 0 1

/-- A lane: the driver and its control, then a test receiver on each leg. -/
def laneCells (n : Nat) : List BoundaryCell := outCells "LTX" n 1 ++ [⟨"LRX_P", n, .receiver⟩, ⟨"LRX_N", n, .receiver⟩]

/-- The boundary register from TDI (R463). -/
def boundaryCells : List BoundaryCell :=
  logicCells ++ inCells "PLUG_DET_N" 0 16 ++ dramCells "DQA_" ++ dramCells "DQB_" ++ (List.range 4).flatMap laneCells

/-- Its length: 269 cells (R463). -/
def boundaryLength : Nat := 269

/-- IDCODE (R462). -/
def idcode : Nat := 0x162560BD

/-- The length of the data register that an instruction selects; an opcode without an entry acts as BYPASS (R462). -/
def drLength (ir : Nat) : Nat := if ir = 0 ∨ ir = 2 ∨ ir = 5 ∨ ir = 6 then boundaryLength else if ir = 1 then 32 else 1

/-- `n` bits of a number, the lowest first. -/
def bitList (n v : Nat) : List Bool := (List.range n).map (fun i => nbit v i)

def ofBits (l : List Bool) : Nat := (l.zipIdx).foldl (fun a q => if q.1 then a + 2 ^ q.2 else a) 0

/-- What Capture-DR loads; `pins` are the levels at the cells in the order of R463. -/
def drCapture (ir : Nat) (pins : List Bool) : List Bool :=
  if drLength ir = boundaryLength then ((List.range boundaryLength).map (fun k => pins.getD k false)).reverse
  else if ir = 1 then bitList 32 idcode else [false]

/-- The next state at a rising edge of TCK. -/
def tapNext (st : Nat) (tms : Bool) : Nat :=
  match st with
  | 0 => if tms then 0 else 1
  | 1 => if tms then 2 else 1
  | 2 => if tms then 9 else 3
  | 3 => if tms then 5 else 4
  | 4 => if tms then 5 else 4
  | 5 => if tms then 8 else 6
  | 6 => if tms then 7 else 6
  | 7 => if tms then 8 else 4
  | 8 => if tms then 2 else 1
  | 9 => if tms then 0 else 10
  | 10 => if tms then 12 else 11
  | 11 => if tms then 12 else 11
  | 12 => if tms then 15 else 13
  | 13 => if tms then 14 else 13
  | 14 => if tms then 15 else 11
  | _ => if tms then 2 else 1

/-- A register shifts by one: its first bit leaves on TDO and TDI enters at the other end. -/
def shiftIn (tdi : Bool) (l : List Bool) : List Bool := l.drop 1 ++ [tdi]

/-- What the rising edge does in the present state: capture or shift. -/
def tapAct (tdi : Bool) (pins : List Bool) (x : Tap1149) : Tap1149 :=
  match x.state with
  | 3 => { x with drShift := drCapture x.ir pins }
  | 4 => { x with drShift := shiftIn tdi x.drShift }
  | 10 => { x with irShift := bitList 8 1 }
  | 11 => { x with irShift := shiftIn tdi x.irShift }
  | _ => x

/-- What the falling edge does in the state entered: update, or the reset of the instruction to IDCODE. -/
def tapEnter (x : Tap1149) : Tap1149 :=
  match x.state with
  | 0 => { x with ir := 1, phase := false }
  | 1 => { x with phase := if x.ir = 5 then true else if x.ir = 6 then !x.phase else false }
  | 8 => if drLength x.ir = boundaryLength then { x with cells := x.drShift.reverse, phase := false } else { x with phase := false }
  | 15 => { x with ir := ofBits x.irShift, phase := false }
  | _ => { x with phase := false }

/-- One clock of the TAP. -/
def tapClock (tms tdi : Bool) (pins : List Bool) (x : Tap1149) : Tap1149 :=
  let y := tapAct tdi pins x
  tapEnter { y with state := tapNext x.state tms }

/-- TDO: driven only in Shift-DR and Shift-IR (R449). -/
def tdoLevel (x : Tap1149) : Option Bool :=
  if x.state = 4 then some (x.drShift.getD 0 false) else if x.state = 11 then some (x.irShift.getD 0 false) else none

/-- The cells that drive the pins: in EXTEST, CLAMP and the 1149.6 instructions the update stage; the drivers of the lanes are inverted
in the phase of EXTEST_PULSE and EXTEST_TRAIN. HIGHZ and every other instruction leave it out. -/
def pinsUnderTest (x : Tap1149) : Option (List Bool) :=
  if x.ir = 0 ∨ x.ir = 3 ∨ x.ir = 5 ∨ x.ir = 6 then
    some ((x.cells.zip boundaryCells).map (fun q => if x.phase ∧ q.2.signal = "LTX" ∧ q.2.kind = .data then !q.1 else q.1))
  else none

/-- Whether the instruction HIGHZ holds every output at high impedance. -/
def pinsHighZ (x : Tap1149) : Bool := decide (x.ir = 4)

/-- TCK_RISING_EDGE (R462, R463). -/
def execTckRisingEdge (tms tdi : Bool) (pins : List Bool) (s : State) : Host.Outcome State Fault Refusal :=
  let x := tapClock tms tdi pins s.jtag
  let s1 := { s with jtag := x }
  done (match tdoLevel x with | some b => emitLevel .tdo b s1 | none => s1)

/-- TRST_N (R421, R462): Test-Logic-Reset. -/
def execTrstN (s : State) : Host.Outcome State Fault Refusal := done { s with jtag := { s.jtag with state := 0, ir := 1, phase := false } }

end Sys2Proof.Machine
end

