-- ==== Sys2Proof/Machine/Lap.lean ====
section
/-!
DEFINITION. The lap boundary as a whole, and the commands that are aborted there (spec/00_scope.md R13, spec/01_architecture.md R19, R24,
spec/02_timebase.md R37, spec/14_twin.md R376, spec/15_errors_ordering.md R467).
-/
namespace Sys2Proof.Machine
open Sys2Proof

/-! ### The lap that ends -/

/-- The 256-channel mask of a property of channels. -/
def chanMask (p : Nat → Bool) : Nat := bitsOf 256 p

/-- What the lap that ends leaves for its frame of codes (R24). -/
def lapEnded (s : State) : LapInfo :=
  { lap := lap s, up := anaUp s, stl := chanMask (stlNow s), cmx := maskOf s (AFE_CMW_NOWk 0), neg := chanMask (negNow s),
    blank := chanMask (blankNow s), bankNeg := bitsOf 16 (fun b => (bankOf s b).neg && decide (excState s b ≠ 4)),
    bankBlank := bitsOf 16 (fun b => decide (0 < (bankOf s b).blank)), skew := s.cnv.skewMask, ho := s.cnv.hoNow,
    regs := s.regs, cat := s.red.active, got := false }

/-- The lap that ends is noted, and marked if line time stepped at its start (R39, R157). -/
def noteLap (s : State) : State :=
  let i := lapEnded s
  let s1 := setCnv { s.cnv with hoNow := 0 } { s with lapInfo := i }
  markIf s1.tbs.pacer.stepped 256 0 s1.bnd s1

/-- The laps on which records may close gain the one that ends (R141). -/
def noteRecordLap (s : State) : State :=
  { s with red := { s.red with laps := s.red.laps ++ [{ bnd := s.bnd, lap := lapD s, cat := s.red.active, curve := s.red.curve }] } }

/-! ### The lap that begins -/

/-- Whether a register write takes effect at a boundary of the lap domain: those of the outputs (R211, R376). -/
def inLapDomain (a : Nat) : Bool := decide (0xA0060000 ≤ a ∧ a < 0xA0070000)

/-- Register writes that take effect at this boundary; in a hold lap those of the lap domain wait (R376). -/
def applyWrites (hold : Bool) (s : State) : State :=
  let waits := fun (q : Nat × Word) => hold && inLapDomain q.1
  (s.nextRegs.filter (fun q => !waits q)).foldl (fun s q => wr s q.1 q.2) { s with nextRegs := s.nextRegs.filter waits }

/-- The common-mode voltages that have changed. -/
def takeVcm (vcm : List (Nat × Int)) (s : State) : State :=
  { s with afe := { s.afe with vcm := (vcm.filter (fun q => decide (q.1 < 256))).foldl (fun t q => tput (fun _ => (0 : Int)) t q.1 q.2) s.afe.vcm } }

/-- The front end and the conversion at a lap instant. -/
def analogBoundary (inp : LapIn) (s : State) : State :=
  let s1 := refBoundary inp.refFinal inp.refErr (afeBoundary inp.limiting.toNat inp.excI s)
  skewBoundary (calBoundary (cmxBoundary (takeVcm inp.vcm s1)))

/-- The parts of a boundary that follow line time itself: memory, lanes, DRAM, Ledger and pins. -/
def carrierBoundary (inp : LapIn) (s : State) : State :=
  let s2 := dmcServe (lanesBoundary inp.lanes (drainFill (drainAtLap s)))
  showIndication (gpioSample (hoursLap (ledgerLap (hltBoundary s2))))

/-- The GRID points of the lap that has ended (R141). -/
def gridBoundary (s : State) : State := (List.range 256).foldl (gridChannel (timeD s - lapUnits)) s

/-- The Tallies at the boundary that is no longer the latest (R377). -/
def noteBefore (s : State) : State := { s with tbs := { s.tbs with before := (List.range 4).map (dataTally s) } }

/-- A boundary of the lap domain (R376). The comparators judge it as the last one before the analog die goes down (DEDUCED, log entry 214). -/
def lapDomainBoundary (inp : LapIn) (s : State) : State :=
  let s1 := noteBefore <| noteRecordLap (noteLap (gopKeepSteps (slKeepSteps (mirrorEdges (closeLap s)))))
  let s2 := setOut { s1.out with digest := digestLater s1, setBy := [] } { s1 with bnd := s1.bnd + 1 }
  let s3 := outSoftware (applyWrites false (twinBoundary (tbsBoundary s2)))
  let s4 := redCmdBoundary (gridBoundary (analogBoundary inp (powerBoundary s3)))
  carrierBoundary inp (slBoundary (ctlBoundary (acqBoundary (count 279 1 s4))))

/-- One of the three laps in which the lap domain holds (R376): line time and the front end go on. -/
def holdBoundary (inp : LapIn) (s : State) : State :=
  let s1 := tbsBoundary (noteLap (closeLap s))
  let s2 := applyWrites true (twinBoundary (setTwin { s1.twin with hold := s1.twin.hold - 1, holds := s1.twin.holds + 1 } s1))
  carrierBoundary inp (count 279 1 (analogBoundary inp (powerBoundary s2)))

/-- The next lap of a die whose clocks stand: only the always-on domain goes on (R415, R418). -/
def darkLap (s : State) : State := { s with tbs := { s.tbs with pacer := { s.tbs.pacer with ofs := 0 } } }

/-- LAP_BOUNDARY (R13, R37): in REST the Pacer alone goes on (R417). -/
def execLapBoundary (inp : LapIn) (s : State) : Host.Outcome State Fault Refusal :=
  let s1 := aonLap s
  if s1.pwr.held ∨ powerState s1 = 3 then done (darkLap s1)
  else if powerState s1 = 2 then done (hoursLap (pacerBoundary { s1 with bnd := s1.bnd + 1 }))
  else if s1.twin.hold = 0 then done (lapDomainBoundary inp s1)
  else done (holdBoundary inp s1)

/-! ### Commands whose condition has lapsed (R467) -/

/-- The command registers whose commands act at a later boundary and name no other outcome. -/
def abortable : List Nat :=
  [TBS_PACER_CMD, AFE_EXC_APPLY, CNV_CAL_CMD, CNV_SKEW_CMD, RED_CMD, CTL_CMD, HLT_CMD, TWN_CMD] ++
    (List.range 4).map TBS_TALLYn_CMD ++ (List.range 16).map AFE_BANKb_CMD ++ (List.range 64).map ACQ_RINGr_CMD

/-- The command at `a` that is due at the present boundary, of the lap domain for those that it judges (R376). -/
def dueAt (s : State) (a : Nat) : Option Word :=
  if a = RED_CMD ∨ a = CTL_CMD ∨ a = TWN_CMD ∨ (ACQ_RINGr_CMD 0 ≤ a ∧ a < ACQ_RINGr_CMD 64) then dueCmd s a else dueReal s a

/-- Whether the command at `a` acts, or goes on, at the present boundary. -/
def goesOn (s : State) (a : Nat) : Bool :=
  if a = TBS_PACER_CMD then setTimeDue s || switchCmdDue s
  else if a = CNV_SKEW_CMD then decide (s.cnv.skewMask ≠ 0)
  else if a = TWN_CMD then !takeLapsed s
  else
    (List.range 4).any (fun n => decide (a = TBS_TALLYn_CMD n) && presetCmdDue s n) ||
      (List.range 64).any (fun r => decide (a = ACQ_RINGr_CMD r) && (ringOf s r).disarm)

/-- COMMAND_ABORTED_AT_BOUNDARY (R467): the command that was due at the present boundary and could not act ends with ABORTED. -/
def execCommandAbortedAtBoundary (addr : Nat) (s : State) : Host.Outcome State Fault Refusal :=
  if decide (addr ∈ abortable) && (dueAt s addr).isSome && !goesOn s addr then
    done (complete addr 6 (if addr = TWN_CMD then dropPlans s else s))
  else done s

end Sys2Proof.Machine
end

