-- ==== Sys2Proof/Machine/Dispatch.lean ====
section
/-!
DEFINITION. The dispatch: one arm per constructor of Instr, each one direct call of the meaning of that command.
-/
namespace Sys2Proof.Machine
open Sys2Proof

/-- The effect of a command on everything but the queue of waiting commands. -/
def exec (i : Instr) (s : State) : Host.Outcome State Fault Refusal :=
  match i with
  | .registerWrite addr value => Sys2Proof.Machine.execRegisterWrite addr value s
  | .rcRead addr => Sys2Proof.Machine.execRcRead addr s
  | .latchingRead addr ofs => Sys2Proof.Machine.execLatchingRead addr ofs s
  | .resultRegisterRead addr => Sys2Proof.Machine.execResultRegisterRead addr s
  | .lapBoundary inp => Sys2Proof.Machine.execLapBoundary inp s
  | .excReversal b => Sys2Proof.Machine.execExcReversal b s
  | .excBlankEnd b => Sys2Proof.Machine.execExcBlankEnd b s
  | .pacerEnable => Sys2Proof.Machine.execPacerEnable s
  | .pacerSourceMeasurement sec offset => Sys2Proof.Machine.execPacerSourceMeasurement sec offset s
  | .pacerStep => Sys2Proof.Machine.execPacerStep s
  | .pacerSrcLost sec => Sys2Proof.Machine.execPacerSrcLost sec s
  | .pacerSrcSwitch => Sys2Proof.Machine.execPacerSrcSwitch s
  | .slewDone => Sys2Proof.Machine.execSlewDone s
  | .setTime => Sys2Proof.Machine.execSetTime s
  | .pacerAcquire => Sys2Proof.Machine.execPacerAcquire s
  | .pacerSwitch => Sys2Proof.Machine.execPacerSwitch s
  | .tallyEnable n en => Sys2Proof.Machine.execTallyEnable n en s
  | .encoderEdge k ofs a b => Sys2Proof.Machine.execEncoderEdge k ofs a b s
  | .tallyZ p ofs => Sys2Proof.Machine.execTallyZ p ofs s
  | .tallyPresetApply n => Sys2Proof.Machine.execTallyPresetApply n s
  | .preset n => Sys2Proof.Machine.execPreset n s
  | .tallyBroadcast n => Sys2Proof.Machine.execTallyBroadcast n s
  | .tallyFrameReceive stream addr pos vel time => Sys2Proof.Machine.execTallyFrameReceive stream addr pos vel time s
  | .tallyCoasting n => Sys2Proof.Machine.execTallyCoasting n s
  | .tallyLost n => Sys2Proof.Machine.execTallyLost n s
  | .mainsEnable en => Sys2Proof.Machine.execMainsEnable en s
  | .mainsCrossing ofs => Sys2Proof.Machine.execMainsCrossing ofs s
  | .mainsLost => Sys2Proof.Machine.execMainsLost s
  | .startListEnable en => Sys2Proof.Machine.execStartListEnable en s
  | .slEntryEnable n => Sys2Proof.Machine.execSlEntryEnable n s
  | .slEntryDisable n => Sys2Proof.Machine.execSlEntryDisable n s
  | .slEntryRewrite n k value => Sys2Proof.Machine.execSlEntryRewrite n k value s
  | .disableSpace space => Sys2Proof.Machine.execDisableSpace space s
  | .disableAll => Sys2Proof.Machine.execDisableAll s
  | .slTake n ofs => Sys2Proof.Machine.execSlTake n ofs s
  | .slActionEffect ofs => Sys2Proof.Machine.execSlActionEffect ofs s
  | .trigOutPulseEnd j ofs => Sys2Proof.Machine.execTrigOutPulseEnd j ofs s
  | .excApply mask => Sys2Proof.Machine.execExcApply mask s
  | .excRampEnd b => Sys2Proof.Machine.execExcRampEnd b s
  | .excSettleEnd b => Sys2Proof.Machine.execExcSettleEnd b s
  | .afeExcLimit b => Sys2Proof.Machine.execAfeExcLimit b s
  | .afeExcTrip b => Sys2Proof.Machine.execAfeExcTrip b s
  | .resetTrip b => Sys2Proof.Machine.execResetTrip b s
  | .afeSnsFault b => Sys2Proof.Machine.execAfeSnsFault b s
  | .snsFaultClear b => Sys2Proof.Machine.execSnsFaultClear b s
  | .ttempUpdate b temp bad => Sys2Proof.Machine.execTtempUpdate b temp bad s
  | .openSet c => Sys2Proof.Machine.execOpenSet c s
  | .openClear c => Sys2Proof.Machine.execOpenClear c s
  | .cmwinWrite b hys value => Sys2Proof.Machine.execCmwinWrite b hys value s
  | .plugDetEdge b high => Sys2Proof.Machine.execPlugDetEdge b high s
  | .afePlugOut b => Sys2Proof.Machine.execAfePlugOut b s
  | .afePlugIn b => Sys2Proof.Machine.execAfePlugIn b s
  | .plugEnClear b => Sys2Proof.Machine.execPlugEnClear b s
  | .d2dLapFrameArrival frame => Sys2Proof.Machine.execD2dLapFrameArrival frame s
  | .bufEnWrite en => Sys2Proof.Machine.execBufEnWrite en s
  | .cnvRefReady => Sys2Proof.Machine.execCnvRefReady s
  | .cnvRefFault => Sys2Proof.Machine.execCnvRefFault s
  | .calEnWrite en => Sys2Proof.Machine.execCalEnWrite en s
  | .calEpochEnd => Sys2Proof.Machine.execCalEpochEnd s
  | .cnvHandover b => Sys2Proof.Machine.execCnvHandover b s
  | .trackingBlockEnd k => Sys2Proof.Machine.execTrackingBlockEnd k s
  | .pause => Sys2Proof.Machine.execPause s
  | .calResume => Sys2Proof.Machine.execCalResume s
  | .readmit slice => Sys2Proof.Machine.execReadmit slice s
  | .skewCmd banks => Sys2Proof.Machine.execSkewCmd banks s
  | .cnvSkewDone => Sys2Proof.Machine.execCnvSkewDone s
  | .recordDelivery => Sys2Proof.Machine.execRecordDelivery s
  | .catalogueCommit curves => Sys2Proof.Machine.execCatalogueCommit curves s
  | .setSeq chan => Sys2Proof.Machine.execSetSeq chan s
  | .redBp ofs => Sys2Proof.Machine.execRedBp ofs s
  | .bpStageExit ofs => Sys2Proof.Machine.execBpStageExit ofs s
  | .arm r => Sys2Proof.Machine.execArm r s
  | .disarm r => Sys2Proof.Machine.execDisarm r s
  | .ringTriggerCmd r => Sys2Proof.Machine.execRingTriggerCmd r s
  | .trigInEdge p ofs delay high => Sys2Proof.Machine.execTrigInEdge p ofs delay high s
  | .trigBusEdge ofs delay => Sys2Proof.Machine.execTrigBusEdge ofs delay s
  | .ringTriggerArrival r => Sys2Proof.Machine.execRingTriggerArrival r s
  | .acqForced r => Sys2Proof.Machine.execAcqForced r s
  | .postFillComplete r => Sys2Proof.Machine.execPostFillComplete r s
  | .rearmEnd r => Sys2Proof.Machine.execRearmEnd r s
  | .acqFolio r => Sys2Proof.Machine.execAcqFolio r s
  | .folioSlotRelease r bits => Sys2Proof.Machine.execFolioSlotRelease r bits s
  | .trigBusPulseEnd r ofs => Sys2Proof.Machine.execTrigBusPulseEnd r ofs s
  | .loopTick u => Sys2Proof.Machine.execLoopTick u s
  | .loopEvaluation => Sys2Proof.Machine.execLoopEvaluation s
  | .loopOutputCommit u => Sys2Proof.Machine.execLoopOutputCommit u s
  | .loopCommitCmd => Sys2Proof.Machine.execLoopCommitCmd s
  | .loopResume n => Sys2Proof.Machine.execLoopResume n s
  | .testStart => Sys2Proof.Machine.execTestStart s
  | .testStop => Sys2Proof.Machine.execTestStop s
  | .ctlTestEnd => Sys2Proof.Machine.execCtlTestEnd s
  | .setpointWrite n value => Sys2Proof.Machine.execSetpointWrite n value s
  | .outputRegisterWrite addr value => Sys2Proof.Machine.execOutputRegisterWrite addr value s
  | .pwmPeriodStart j => Sys2Proof.Machine.execPwmPeriodStart j s
  | .eventPost e => Sys2Proof.Machine.execEventPost e s
  | .eventException n => Sys2Proof.Machine.execEventException n s
  | .add n rd rs rt => Sys2Proof.Machine.execAdd n rd rs rt s
  | .sub n rd rs rt => Sys2Proof.Machine.execSub n rd rs rt s
  | .and n rd rs rt => Sys2Proof.Machine.execAnd n rd rs rt s
  | .or n rd rs rt => Sys2Proof.Machine.execOr n rd rs rt s
  | .xor n rd rs rt => Sys2Proof.Machine.execXor n rd rs rt s
  | .shl n rd rs rt => Sys2Proof.Machine.execShl n rd rs rt s
  | .shr n rd rs rt => Sys2Proof.Machine.execShr n rd rs rt s
  | .sar n rd rs rt => Sys2Proof.Machine.execSar n rd rs rt s
  | .mul n rd rs rt => Sys2Proof.Machine.execMul n rd rs rt s
  | .mulh n rd rs rt => Sys2Proof.Machine.execMulh n rd rs rt s
  | .div n rd rs rt => Sys2Proof.Machine.execDiv n rd rs rt s
  | .divu n rd rs rt => Sys2Proof.Machine.execDivu n rd rs rt s
  | .min n rd rs rt => Sys2Proof.Machine.execMin n rd rs rt s
  | .max n rd rs rt => Sys2Proof.Machine.execMax n rd rs rt s
  | .cmp n rs rt => Sys2Proof.Machine.execCmp n rs rt s
  | .jr n rs => Sys2Proof.Machine.execJr n rs s
  | .jalr n rd rs => Sys2Proof.Machine.execJalr n rd rs s
  | .addi n rd rs imm => Sys2Proof.Machine.execAddi n rd rs imm s
  | .andi n rd rs imm => Sys2Proof.Machine.execAndi n rd rs imm s
  | .ori n rd rs imm => Sys2Proof.Machine.execOri n rd rs imm s
  | .xori n rd rs imm => Sys2Proof.Machine.execXori n rd rs imm s
  | .shli n rd rs sh => Sys2Proof.Machine.execShli n rd rs sh s
  | .shri n rd rs sh => Sys2Proof.Machine.execShri n rd rs sh s
  | .sari n rd rs sh => Sys2Proof.Machine.execSari n rd rs sh s
  | .cmpi n rs imm => Sys2Proof.Machine.execCmpi n rs imm s
  | .lui n rd imm => Sys2Proof.Machine.execLui n rd imm s
  | .mac n acc rs rt => Sys2Proof.Machine.execMac n acc rs rt s
  | .msu n acc rs rt => Sys2Proof.Machine.execMsu n acc rs rt s
  | .accr n rd acc raw sh => Sys2Proof.Machine.execAccr n rd acc raw sh s
  | .accw n acc clear rs rt => Sys2Proof.Machine.execAccw n acc clear rs rt s
  | .sat n rd rs m => Sys2Proof.Machine.execSat n rd rs m s
  | .fadd n fd fs ft => Sys2Proof.Machine.execFadd n fd fs ft s
  | .fsub n fd fs ft => Sys2Proof.Machine.execFsub n fd fs ft s
  | .fmul n fd fs ft => Sys2Proof.Machine.execFmul n fd fs ft s
  | .fdiv n fd fs ft => Sys2Proof.Machine.execFdiv n fd fs ft s
  | .fsqrt n fd fs => Sys2Proof.Machine.execFsqrt n fd fs s
  | .fmac n fd fs ft => Sys2Proof.Machine.execFmac n fd fs ft s
  | .fmin n fd fs ft => Sys2Proof.Machine.execFmin n fd fs ft s
  | .fmax n fd fs ft => Sys2Proof.Machine.execFmax n fd fs ft s
  | .fabs n fd fs => Sys2Proof.Machine.execFabs n fd fs s
  | .fneg n fd fs => Sys2Proof.Machine.execFneg n fd fs s
  | .fcmp n fs ft => Sys2Proof.Machine.execFcmp n fs ft s
  | .fcvtsw n fd ws => Sys2Proof.Machine.execFcvtsw n fd ws s
  | .fcvtws n wd fs trunc => Sys2Proof.Machine.execFcvtws n wd fs trunc s
  | .fmvwf n wd fs => Sys2Proof.Machine.execFmvwf n wd fs s
  | .fmvfw n fd ws => Sys2Proof.Machine.execFmvfw n fd ws s
  | .tinterp n fd fs ws => Sys2Proof.Machine.execTinterp n fd fs ws s
  | .ldb n rd rb am off => Sys2Proof.Machine.execLdb n rd rb am off s
  | .ldbu n rd rb am off => Sys2Proof.Machine.execLdbu n rd rb am off s
  | .ldh n rd rb am off => Sys2Proof.Machine.execLdh n rd rb am off s
  | .ldhu n rd rb am off => Sys2Proof.Machine.execLdhu n rd rb am off s
  | .ldw n rd rb am off => Sys2Proof.Machine.execLdw n rd rb am off s
  | .stb n rd rb am off => Sys2Proof.Machine.execStb n rd rb am off s
  | .sth n rd rb am off => Sys2Proof.Machine.execSth n rd rb am off s
  | .stw n rd rb am off => Sys2Proof.Machine.execStw n rd rb am off s
  | .fld n fd rb am off => Sys2Proof.Machine.execFld n fd rb am off s
  | .fldd n fd rb am off => Sys2Proof.Machine.execFldd n fd rb am off s
  | .fst n fd rb am off => Sys2Proof.Machine.execFst n fd rb am off s
  | .bcc n cnd off => Sys2Proof.Machine.execBcc n cnd off s
  | .cbr n rs t off => Sys2Proof.Machine.execCbr n rs t off s
  | .j n off => Sys2Proof.Machine.execJ n off s
  | .jal n off => Sys2Proof.Machine.execJal n off s
  | .qpop n wd q => Sys2Proof.Machine.execQpop n wd q s
  | .qlen n wd q => Sys2Proof.Machine.execQlen n wd q s
  | .qpush n p ws wt => Sys2Proof.Machine.execQpush n p ws wt s
  | .wait n wd g ws wt => Sys2Proof.Machine.execWait n wd g ws wt s
  | .waitReturn n => Sys2Proof.Machine.execWaitReturn n s
  | .waitTimeout n ofs => Sys2Proof.Machine.execWaitTimeout n ofs s
  | .post n e => Sys2Proof.Machine.execPost n e s
  | .postr n ws => Sys2Proof.Machine.execPostr n ws s
  | .stamp n wd laps ofs => Sys2Proof.Machine.execStamp n wd laps ofs s
  | .tally n wd k vel ofs => Sys2Proof.Machine.execTally n wd k vel ofs s
  | .nop n => Sys2Proof.Machine.execNop n s
  | .fence n => Sys2Proof.Machine.execFence n s
  | .syscall n code => Sys2Proof.Machine.execSyscall n code s
  | .eret n => Sys2Proof.Machine.execEret n s
  | .mfsr n rd sr ofs => Sys2Proof.Machine.execMfsr n rd sr ofs s
  | .mtsr n sr rs => Sys2Proof.Machine.execMtsr n sr rs s
  | .commitDescriptorApply => Sys2Proof.Machine.execCommitDescriptorApply s
  | .coreRun n => Sys2Proof.Machine.execCoreRun n s
  | .coreHalt n => Sys2Proof.Machine.execCoreHalt n s
  | .coreRestart n flush drop => Sys2Proof.Machine.execCoreRestart n flush drop s
  | .coreHalted n => Sys2Proof.Machine.execCoreHalted n s
  | .haltTimeout n => Sys2Proof.Machine.execHaltTimeout n s
  | .laneEnable n => Sys2Proof.Machine.execLaneEnable n s
  | .laneDisable n => Sys2Proof.Machine.execLaneDisable n s
  | .wakeBurst n ofs => Sys2Proof.Machine.execWakeBurst n ofs s
  | .lnkSignal n => Sys2Proof.Machine.execLnkSignal n s
  | .lnkAbsent n ofs => Sys2Proof.Machine.execLnkAbsent n ofs s
  | .blockLock n ofs => Sys2Proof.Machine.execBlockLock n ofs s
  | .trainingBlockReceive n bytes inverted => Sys2Proof.Machine.execTrainingBlockReceive n bytes inverted s
  | .rxReady n height width => Sys2Proof.Machine.execRxReady n height width s
  | .lnkUp n ofs => Sys2Proof.Machine.execLnkUp n ofs s
  | .trainingBudgetExpire n ofs => Sys2Proof.Machine.execTrainingBudgetExpire n ofs s
  | .partnerRateDetect n rate => Sys2Proof.Machine.execPartnerRateDetect n rate s
  | .lossOfSignal n => Sys2Proof.Machine.execLossOfSignal n s
  | .lnkDown n => Sys2Proof.Machine.execLnkDown n s
  | .relockTimeout n ofs signal => Sys2Proof.Machine.execRelockTimeout n ofs signal s
  | .partnerRetrainDetect n => Sys2Proof.Machine.execPartnerRetrainDetect n s
  | .failRetry n ofs signal => Sys2Proof.Machine.execFailRetry n ofs signal s
  | .retrain n => Sys2Proof.Machine.execRetrain n s
  | .laneInject n => Sys2Proof.Machine.execLaneInject n s
  | .adaptFreeze n ofs transitions => Sys2Proof.Machine.execAdaptFreeze n ofs transitions s
  | .fillBlockSend n ofs => Sys2Proof.Machine.execFillBlockSend n ofs s
  | .prbsChkEnable n => Sys2Proof.Machine.execPrbsChkEnable n s
  | .prbsLock n rx => Sys2Proof.Machine.execPrbsLock n rx s
  | .lnkPrbsLost n ofs bits => Sys2Proof.Machine.execLnkPrbsLost n ofs bits s
  | .accessionSend => Sys2Proof.Machine.execAccessionSend s
  | .accessionReceive => Sys2Proof.Machine.execAccessionReceive s
  | .wotFrameReceive l ofs bytes => Sys2Proof.Machine.execWotFrameReceive l ofs bytes s
  | .ackReceive l ofs bytes => Sys2Proof.Machine.execAckReceive l ofs bytes s
  | .ackSend l v ofs => Sys2Proof.Machine.execAckSend l v ofs s
  | .ackTimeout l v ofs => Sys2Proof.Machine.execAckTimeout l v ofs s
  | .cutThroughForward ofs => Sys2Proof.Machine.execCutThroughForward ofs s
  | .unicastFrameReceive => Sys2Proof.Machine.execUnicastFrameReceive s
  | .splitReqSend l => Sys2Proof.Machine.execSplitReqSend l s
  | .splitReqReceive => Sys2Proof.Machine.execSplitReqReceive s
  | .splitRespReceive => Sys2Proof.Machine.execSplitRespReceive s
  | .batonSend => Sys2Proof.Machine.execBatonSend s
  | .batonReceive ofs => Sys2Proof.Machine.execBatonReceive ofs s
  | .streamFrameClose c => Sys2Proof.Machine.execStreamFrameClose c s
  | .streamFrameReceive => Sys2Proof.Machine.execStreamFrameReceive s
  | .streamAckSend => Sys2Proof.Machine.execStreamAckSend s
  | .streamAckReceive => Sys2Proof.Machine.execStreamAckReceive s
  | .headUnreachable west ofs => Sys2Proof.Machine.execHeadUnreachable west ofs s
  | .revertHoldExpire => Sys2Proof.Machine.execRevertHoldExpire s
  | .renumber => Sys2Proof.Machine.execRenumber s
  | .reroute => Sys2Proof.Machine.execReroute s
  | .gopTrigger space dir cancel turn => Sys2Proof.Machine.execGopTrigger space dir cancel turn s
  | .gopEvent space dir cancel turn => Sys2Proof.Machine.execGopEvent space dir cancel turn s
  | .gopSnapshot space dir cancel turn => Sys2Proof.Machine.execGopSnapshot space dir cancel turn s
  | .gopBarrier space dir cancel turn => Sys2Proof.Machine.execGopBarrier space dir cancel turn s
  | .gopReset space dir cancel turn => Sys2Proof.Machine.execGopReset space dir cancel turn s
  | .gopReceive ofs => Sys2Proof.Machine.execGopReceive ofs s
  | .gopEffect ofs => Sys2Proof.Machine.execGopEffect ofs s
  | .wotSnapshot => Sys2Proof.Machine.execWotSnapshot s
  | .wotGopEcho ofs => Sys2Proof.Machine.execWotGopEcho ofs s
  | .gopEchoTimeout ofs => Sys2Proof.Machine.execGopEchoTimeout ofs s
  | .wotInjEnable => Sys2Proof.Machine.execWotInjEnable s
  | .ethFrameReceive m ofs bytes => Sys2Proof.Machine.execEthFrameReceive m ofs bytes s
  | .txrTailWrite m tail => Sys2Proof.Machine.execTxrTailWrite m tail s
  | .ethFrameSend m ofs => Sys2Proof.Machine.execEthFrameSend m ofs s
  | .syncReceive d => Sys2Proof.Machine.execSyncReceive d s
  | .followUpReceive d => Sys2Proof.Machine.execFollowUpReceive d s
  | .followUpTimeout d ofs => Sys2Proof.Machine.execFollowUpTimeout d ofs s
  | .delayReqSend d ofs => Sys2Proof.Machine.execDelayReqSend d ofs s
  | .delayRespReceive d => Sys2Proof.Machine.execDelayRespReceive d s
  | .ptpParentWrite d k value => Sys2Proof.Machine.execPtpParentWrite d k value s
  | .gwDatagramClose ofs => Sys2Proof.Machine.execGwDatagramClose ofs s
  | .hostAckReceive => Sys2Proof.Machine.execHostAckReceive s
  | .injectDatagramReceive => Sys2Proof.Machine.execInjectDatagramReceive s
  | .sfpRead k len dev reg data result => Sys2Proof.Machine.execSfpRead k len dev reg data result s
  | .sfpWrite k len dev reg result => Sys2Proof.Machine.execSfpWrite k len dev reg result s
  | .init => Sys2Proof.Machine.execInit s
  | .initResume => Sys2Proof.Machine.execInitResume s
  | .dmcTrainDone margins large words => Sys2Proof.Machine.execDmcTrainDone margins large words s
  | .dmcTrainFail step chans mr8 => Sys2Proof.Machine.execDmcTrainFail step chans mr8 s
  | .srEnter => Sys2Proof.Machine.execSrEnter s
  | .srEnterPasr => Sys2Proof.Machine.execSrEnterPasr s
  | .srEntryComplete => Sys2Proof.Machine.execSrEntryComplete s
  | .srExit => Sys2Proof.Machine.execSrExit s
  | .srExitOnRequest ofs => Sys2Proof.Machine.execSrExitOnRequest ofs s
  | .dramRequest cls write wide addr data mask flips issued ofs => Sys2Proof.Machine.execDramRequest cls write wide addr data mask flips issued ofs s
  | .dqsRetrain ofs => Sys2Proof.Machine.execDqsRetrain ofs s
  | .perBankRefresh ofs => Sys2Proof.Machine.execPerBankRefresh ofs s
  | .mr4Poll a b ofs => Sys2Proof.Machine.execMr4Poll a b ofs s
  | .scrubRead flips ofs => Sys2Proof.Machine.execScrubRead flips ofs s
  | .grainWrite grain => Sys2Proof.Machine.execGrainWrite grain s
  | .twinEnable en => Sys2Proof.Machine.execTwinEnable en s
  | .linkWaitExpire ofs => Sys2Proof.Machine.execLinkWaitExpire ofs s
  | .partnerLost => Sys2Proof.Machine.execPartnerLost s
  | .mirrorFrameSend => Sys2Proof.Machine.execMirrorFrameSend s
  | .mirrorFrameReceive => Sys2Proof.Machine.execMirrorFrameReceive s
  | .mirrorDeadlineMiss ofs => Sys2Proof.Machine.execMirrorDeadlineMiss ofs s
  | .joinStatePiece k words => Sys2Proof.Machine.execJoinStatePiece k words s
  | .warmupEnd => Sys2Proof.Machine.execWarmupEnd s
  | .digestCompute => Sys2Proof.Machine.execDigestCompute s
  | .digestFrameReceive => Sys2Proof.Machine.execDigestFrameReceive s
  | .policyApply => Sys2Proof.Machine.execPolicyApply s
  | .mmWindowExpire => Sys2Proof.Machine.execMmWindowExpire s
  | .twinHoldInChange high ofs => Sys2Proof.Machine.execTwinHoldInChange high ofs s
  | .pinDriveEnable ofs => Sys2Proof.Machine.execPinDriveEnable ofs s
  | .excGateChange => Sys2Proof.Machine.execExcGateChange s
  | .swap => Sys2Proof.Machine.execSwap s
  | .swapAckTimeout => Sys2Proof.Machine.execSwapAckTimeout s
  | .swapHandover => Sys2Proof.Machine.execSwapHandover s
  | .twnTakeover => Sys2Proof.Machine.execTwnTakeover s
  | .join => Sys2Proof.Machine.execJoin s
  | .leave force => Sys2Proof.Machine.execLeave force s
  | .take force => Sys2Proof.Machine.execTake force s
  | .twinClear => Sys2Proof.Machine.execTwinClear s
  | .xchkBlockEnd => Sys2Proof.Machine.execXchkBlockEnd s
  | .counterClear => Sys2Proof.Machine.execCounterClear s
  | .faultInject => Sys2Proof.Machine.execFaultInject s
  | .tempSample temps => Sys2Proof.Machine.execTempSample temps s
  | .supplySample mv => Sys2Proof.Machine.execSupplySample mv s
  | .hltLockstep unit => Sys2Proof.Machine.execHltLockstep unit s
  | .commandAbortedAtBoundary addr => Sys2Proof.Machine.execCommandAbortedAtBoundary addr s
  | .pwrRun => Sys2Proof.Machine.execPwrRun s
  | .anaUp => Sys2Proof.Machine.execAnaUp s
  | .runTimeout ofs => Sys2Proof.Machine.execRunTimeout ofs s
  | .pwrIdle => Sys2Proof.Machine.execPwrIdle s
  | .pwrRest => Sys2Proof.Machine.execPwrRest s
  | .pwrShelve => Sys2Proof.Machine.execPwrShelve s
  | .wakeFromRest wakeN btn spi lanes => Sys2Proof.Machine.execWakeFromRest wakeN btn spi lanes s
  | .wakeFromShelved wakeN btn => Sys2Proof.Machine.execWakeFromShelved wakeN btn s
  | .aonTimerExpire ofs => Sys2Proof.Machine.execAonTimerExpire ofs s
  | .powerOnReset => Sys2Proof.Machine.execPowerOnReset s
  | .porstN => Sys2Proof.Machine.execPorstN s
  | .hubResetCmd key => Sys2Proof.Machine.execHubResetCmd key s
  | .stewardResetCmd key => Sys2Proof.Machine.execStewardResetCmd key s
  | .watchdogKick => Sys2Proof.Machine.execWatchdogKick s
  | .watchdogExpire ofs => Sys2Proof.Machine.execWatchdogExpire ofs s
  | .railsGood => Sys2Proof.Machine.execRailsGood s
  | .digitalRailFault => Sys2Proof.Machine.execDigitalRailFault s
  | .bootAttempt flash ofs => Sys2Proof.Machine.execBootAttempt flash ofs s
  | .bootDone => Sys2Proof.Machine.execBootDone s
  | .bootRetry ofs => Sys2Proof.Machine.execBootRetry ofs s
  | .bootDataReceive ofs => Sys2Proof.Machine.execBootDataReceive ofs s
  | .bootReqRetry ofs => Sys2Proof.Machine.execBootReqRetry ofs s
  | .ldgRead => Sys2Proof.Machine.execLdgRead s
  | .ldgWrite bad => Sys2Proof.Machine.execLdgWrite bad s
  | .runningHoursWrite ofs => Sys2Proof.Machine.execRunningHoursWrite ofs s
  | .svcBtn pressed => Sys2Proof.Machine.execSvcBtn pressed s
  | .svcBtnHold ofs => Sys2Proof.Machine.execSvcBtnHold ofs s
  | .svcGpio pins => Sys2Proof.Machine.execSvcGpio pins s
  | .spiWrite table offset value => Sys2Proof.Machine.execSpiWrite table offset value s
  | .spiRead table offset => Sys2Proof.Machine.execSpiRead table offset s
  | .spiResult => Sys2Proof.Machine.execSpiResult s
  | .spiFrameError op clocks => Sys2Proof.Machine.execSpiFrameError op clocks s
  | .illegalInstruction n word => Sys2Proof.Machine.execIllegalInstruction n word s
  | .fetchFault n => Sys2Proof.Machine.execFetchFault n s
  | .frameBoundary l ofs => Sys2Proof.Machine.execFrameBoundary l ofs s
  | .wotInjDelayExpire l v ofs => Sys2Proof.Machine.execWotInjDelayExpire l v ofs s
  | .powerOnResetEnd => Sys2Proof.Machine.execPowerOnResetEnd s
  | .tckRisingEdge tms tdi pins => Sys2Proof.Machine.execTckRisingEdge tms tdi pins s
  | .trstN => Sys2Proof.Machine.execTrstN s
  | .refusedIndicationEnd ofs => Sys2Proof.Machine.execRefusedIndicationEnd ofs s

end Sys2Proof.Machine
end

