-- ==== Sys2Proof/Machine/Ralnel.lean ====
section
/-!
DEFINITION. The Ralnel instruction words: the word of each instruction command and the command that a word spells, by the formats and
tables of spec/09_ralnel_isa.md R254 to R275. The instant of STAMP, TALLY and MFSR is not in the word; a decoded one is 0.
-/
namespace Sys2Proof.Machine
open Sys2Proof

/-! ### Encoding (R255) -/

/-- Words of the formats I, M, B and J. -/
def wordI (op rd rs imm : Nat) : Word := w32 (op * 2 ^ 26 + rd * 2 ^ 22 + rs * 2 ^ 18 + imm)
def wordM (op rd rb am sz sx : Nat) (off : BitVec 13) : Word :=
  w32 (op * 2 ^ 26 + rd * 2 ^ 22 + rb * 2 ^ 18 + am * 2 ^ 16 + sz * 2 ^ 14 + sx * 2 ^ 13 + off.toNat)
def wordB (op c t : Nat) (off : BitVec 20) : Word := w32 (op * 2 ^ 26 + c * 2 ^ 22 + t * 2 ^ 20 + off.toNat)
def wordJ (op : Nat) (off : BitVec 26) : Word := w32 (op * 2 ^ 26 + off.toNat)

/-- The word of an instruction command; none for the commands that are no instruction. -/
def ralnelWord (i : Instr) : Option Word :=
  match i with
  | .add _ rd rs rt => some (wordA 0 rd rs rt 0 0x01)
  | .sub _ rd rs rt => some (wordA 0 rd rs rt 0 0x02)
  | .and _ rd rs rt => some (wordA 0 rd rs rt 0 0x03)
  | .or _ rd rs rt => some (wordA 0 rd rs rt 0 0x04)
  | .xor _ rd rs rt => some (wordA 0 rd rs rt 0 0x05)
  | .shl _ rd rs rt => some (wordA 0 rd rs rt 0 0x06)
  | .shr _ rd rs rt => some (wordA 0 rd rs rt 0 0x07)
  | .sar _ rd rs rt => some (wordA 0 rd rs rt 0 0x08)
  | .mul _ rd rs rt => some (wordA 0 rd rs rt 0 0x09)
  | .mulh _ rd rs rt => some (wordA 0 rd rs rt 0 0x0A)
  | .div _ rd rs rt => some (wordA 0 rd rs rt 0 0x0B)
  | .divu _ rd rs rt => some (wordA 0 rd rs rt 0 0x0C)
  | .min _ rd rs rt => some (wordA 0 rd rs rt 0 0x0D)
  | .max _ rd rs rt => some (wordA 0 rd rs rt 0 0x0E)
  | .cmp _ rs rt => some (wordA 0 0 rs rt 0 0x0F)
  | .jr _ rs => some (wordA 0 0 rs 0 0 0x10)
  | .jalr _ rd rs => some (wordA 0 rd rs 0 0 0x11)
  | .addi _ rd rs imm => some (wordI 0x08 rd rs imm.toNat)
  | .andi _ rd rs imm => some (wordI 0x09 rd rs imm.toNat)
  | .ori _ rd rs imm => some (wordI 0x0A rd rs imm.toNat)
  | .xori _ rd rs imm => some (wordI 0x0B rd rs imm.toNat)
  | .shli _ rd rs sh => some (wordI 0x0C rd rs sh.toNat)
  | .shri _ rd rs sh => some (wordI 0x0D rd rs sh.toNat)
  | .sari _ rd rs sh => some (wordI 0x0E rd rs sh.toNat)
  | .cmpi _ rs imm => some (wordI 0x0F 0 rs imm.toNat)
  | .lui _ rd imm => some (wordI 0x10 rd 0 imm.toNat)
  | .mac _ acc rs rt => some (wordA 1 0 rs rt (bit acc) 0x01)
  | .msu _ acc rs rt => some (wordA 1 0 rs rt (bit acc) 0x02)
  | .accr _ rd acc raw sh => some (wordA 1 rd 0 0 (bit raw * 128 + bit acc * 64 + sh) 0x03)
  | .accw _ acc clear rs rt => some (wordA 1 0 rs rt (bit clear * 2 + bit acc) 0x04)
  | .sat _ rd rs m => some (wordA 1 rd rs 0 m 0x05)
  | .fadd _ fd fs ft => some (wordA 2 fd fs ft 0 0x01)
  | .fsub _ fd fs ft => some (wordA 2 fd fs ft 0 0x02)
  | .fmul _ fd fs ft => some (wordA 2 fd fs ft 0 0x03)
  | .fdiv _ fd fs ft => some (wordA 2 fd fs ft 0 0x04)
  | .fsqrt _ fd fs => some (wordA 2 fd fs 0 0 0x05)
  | .fmac _ fd fs ft => some (wordA 2 fd fs ft 0 0x06)
  | .fmin _ fd fs ft => some (wordA 2 fd fs ft 0 0x07)
  | .fmax _ fd fs ft => some (wordA 2 fd fs ft 0 0x08)
  | .fabs _ fd fs => some (wordA 2 fd fs 0 0 0x09)
  | .fneg _ fd fs => some (wordA 2 fd fs 0 0 0x0A)
  | .fcmp _ fs ft => some (wordA 2 0 fs ft 0 0x0B)
  | .fcvtsw _ fd ws => some (wordA 2 fd ws 0 0 0x0C)
  | .fcvtws _ wd fs trunc => some (wordA 2 wd fs 0 (bit trunc) 0x0D)
  | .fmvwf _ wd fs => some (wordA 2 wd fs 0 0 0x0E)
  | .fmvfw _ fd ws => some (wordA 2 fd ws 0 0 0x0F)
  | .tinterp _ fd fs ws => some (wordA 2 fd fs ws 0 0x10)
  | .ldb _ rd rb am off => some (wordM 0x18 rd rb am 0 1 off)
  | .ldbu _ rd rb am off => some (wordM 0x18 rd rb am 0 0 off)
  | .ldh _ rd rb am off => some (wordM 0x18 rd rb am 1 1 off)
  | .ldhu _ rd rb am off => some (wordM 0x18 rd rb am 1 0 off)
  | .ldw _ rd rb am off => some (wordM 0x18 rd rb am 2 0 off)
  | .stb _ rd rb am off => some (wordM 0x19 rd rb am 0 0 off)
  | .sth _ rd rb am off => some (wordM 0x19 rd rb am 1 0 off)
  | .stw _ rd rb am off => some (wordM 0x19 rd rb am 2 0 off)
  | .fld _ fd rb am off => some (wordM 0x1A fd rb am 2 0 off)
  | .fldd _ fd rb am off => some (wordM 0x1A fd rb am 3 0 off)
  | .fst _ fd rb am off => some (wordM 0x1B fd rb am 2 0 off)
  | .bcc _ cnd off => some (wordB 0x20 cnd 0 off)
  | .cbr _ rs t off => some (wordB 0x21 rs t off)
  | .j _ off => some (wordJ 0x28 off)
  | .jal _ off => some (wordJ 0x29 off)
  | .qpop _ wd q => some (wordQ wd 0 0 q.toNat 0x01)
  | .qlen _ wd q => some (wordQ wd 0 0 q.toNat 0x02)
  | .qpush _ p ws wt => some (wordQ ws wt 0 p.toNat 0x03)
  | .wait _ wd g ws wt => some (wordQ wd ws wt g 0x04)
  | .post _ e => some (wordQ 0 0 0 e.toNat 0x05)
  | .postr _ ws => some (wordQ 0 ws 0 0 0x06)
  | .stamp _ wd laps _ => some (wordQ wd 0 0 (bit laps) 0x07)
  | .tally _ wd k vel _ => some (wordQ wd 0 0 (bit vel * 4 + k) 0x08)
  | .nop _ => some (wordA 3 0 0 0 0 0x01)
  | .fence _ => some (wordA 3 0 0 0 0 0x02)
  | .syscall _ code => some (wordA 3 0 0 0 code.toNat 0x03)
  | .eret _ => some (wordA 3 0 0 0 0 0x04)
  | .mfsr _ rd sr _ => some (wordA 3 rd 0 0 sr 0x05)
  | .mtsr _ sr rs => some (wordA 3 0 rs 0 sr 0x06)
  | _ => none

/-! ### Decoding (R254 to R275) -/

/-- Register fields of a word: RD at 22, RS at 18 and RT at 14, as general and as float registers. -/
def gAt (w : Word) (lo : Nat) : Fin 16 := Fin.ofNat 16 (fget w lo 4)
def fAt (w : Word) (lo : Nat) : Fin 8 := Fin.ofNat 8 (fget w lo 4)

/-- The integer register group (R260). -/
def decodeInt (n : Fin 5) (w : Word) : Option Instr :=
  let d := gAt w 22
  let s := gAt w 18
  let t := gAt w 14
  match fget w 0 6 with
  | 0x01 => some (.add n d s t) | 0x02 => some (.sub n d s t) | 0x03 => some (.and n d s t) | 0x04 => some (.or n d s t)
  | 0x05 => some (.xor n d s t) | 0x06 => some (.shl n d s t) | 0x07 => some (.shr n d s t) | 0x08 => some (.sar n d s t)
  | 0x09 => some (.mul n d s t) | 0x0A => some (.mulh n d s t) | 0x0B => some (.div n d s t) | 0x0C => some (.divu n d s t)
  | 0x0D => some (.min n d s t) | 0x0E => some (.max n d s t) | 0x0F => some (.cmp n s t) | 0x10 => some (.jr n s)
  | 0x11 => some (.jalr n d s)
  | _ => none

/-- The multiply-accumulate group (R263). -/
def decodeMac (n : Fin 5) (w : Word) : Option Instr :=
  let s := gAt w 18
  let t := gAt w 14
  let acc := nbit w.toNat 6
  match fget w 0 6 with
  | 1 => some (.mac n acc s t)
  | 2 => some (.msu n acc s t)
  | 3 => some (.accr n (gAt w 22) (nbit w.toNat 12) (nbit w.toNat 13) (Fin.ofNat 64 (fget w 6 6)))
  | 4 => some (.accw n acc (nbit w.toNat 7) s t)
  | 5 => some (.sat n (gAt w 22) s (Fin.ofNat 32 (fget w 6 5)))
  | _ => none

/-- The float group (R265). -/
def decodeFloat (n : Fin 5) (w : Word) : Option Instr :=
  let d := fAt w 22
  let s := fAt w 18
  let t := fAt w 14
  match fget w 0 6 with
  | 0x01 => some (.fadd n d s t) | 0x02 => some (.fsub n d s t) | 0x03 => some (.fmul n d s t) | 0x04 => some (.fdiv n d s t)
  | 0x05 => some (.fsqrt n d s) | 0x06 => some (.fmac n d s t) | 0x07 => some (.fmin n d s t) | 0x08 => some (.fmax n d s t)
  | 0x09 => some (.fabs n d s) | 0x0A => some (.fneg n d s) | 0x0B => some (.fcmp n s t) | 0x0C => some (.fcvtsw n d (gAt w 18))
  | 0x0D => some (.fcvtws n (gAt w 22) s (nbit w.toNat 6)) | 0x0E => some (.fmvwf n (gAt w 22) s)
  | 0x0F => some (.fmvfw n d (gAt w 18)) | 0x10 => some (.tinterp n d s (gAt w 14))
  | _ => none

/-- The system group (R274). -/
def decodeSystem (n : Fin 5) (w : Word) : Option Instr :=
  let sr := Fin.ofNat 10 (fget w 6 8)
  match fget w 0 6 with
  | 1 => some (.nop n)
  | 2 => some (.fence n)
  | 3 => some (.syscall n (BitVec.ofNat 8 (fget w 6 8)))
  | 4 => some (.eret n)
  | 5 => some (.mfsr n (gAt w 22) sr 0)
  | 6 => some (.mtsr n sr (gAt w 18))
  | _ => none

/-- The queue, event and time group (R271). -/
def decodeQueue (n : Fin 5) (w : Word) : Option Instr :=
  let a := gAt w 22
  let num := BitVec.ofNat 8 (fget w 6 8)
  match fget w 0 6 with
  | 1 => some (.qpop n (Fin.ofNat 14 (fget w 22 4)) num)
  | 2 => some (.qlen n a num)
  | 3 => some (.qpush n num a (gAt w 18))
  | 4 => some (.wait n a (Fin.ofNat 8 (fget w 6 8)) (gAt w 18) (gAt w 14))
  | 5 => some (.post n num)
  | 6 => some (.postr n (gAt w 18))
  | 7 => some (.stamp n (Fin.ofNat 15 (fget w 22 4)) (nbit w.toNat 6) 0)
  | 8 => some (.tally n a (Fin.ofNat 4 (fget w 6 2)) (nbit w.toNat 8) 0)
  | _ => none

/-- Loads and stores (R268): by opcode, SZ and SX. -/
def decodeMem (n : Fin 5) (w : Word) : Option Instr :=
  let d := gAt w 22
  let f := fAt w 22
  let b := gAt w 18
  let am := Fin.ofNat 3 (fget w 16 2)
  let off := BitVec.ofNat 13 (fget w 0 13)
  match fget w 26 6, fget w 14 2, fget w 13 1 with
  | 0x18, 0, 1 => some (.ldb n d b am off)
  | 0x18, 0, 0 => some (.ldbu n d b am off)
  | 0x18, 1, 1 => some (.ldh n d b am off)
  | 0x18, 1, 0 => some (.ldhu n d b am off)
  | 0x18, 2, 0 => some (.ldw n d b am off)
  | 0x19, 0, 0 => some (.stb n d b am off)
  | 0x19, 1, 0 => some (.sth n d b am off)
  | 0x19, 2, 0 => some (.stw n d b am off)
  | 0x1A, 2, 0 => some (.fld n f b am off)
  | 0x1A, 3, 0 => some (.fldd n f b am off)
  | 0x1B, 2, 0 => some (.fst n f b am off)
  | _, _, _ => none

/-- The immediate group (R261). -/
def decodeImm (n : Fin 5) (w : Word) : Option Instr :=
  let d := gAt w 22
  let s := gAt w 18
  let imm := BitVec.ofNat 14 (fget w 0 14)
  let sh := BitVec.ofNat 5 (fget w 0 5)
  match fget w 26 6 with
  | 0x08 => some (.addi n d s imm)
  | 0x09 => some (.andi n d s imm)
  | 0x0A => some (.ori n d s imm)
  | 0x0B => some (.xori n d s imm)
  | 0x0C => some (.shli n d s sh)
  | 0x0D => some (.shri n d s sh)
  | 0x0E => some (.sari n d s sh)
  | 0x0F => some (.cmpi n s imm)
  | 0x10 => some (.lui n d (BitVec.ofNat 18 (fget w 0 18)))
  | _ => none

/-- The instruction command of core `n` that a word spells; none for a word that R254 makes ILLEGAL. -/
def decodeRalnel (n : Fin 5) (w : Word) : Option Instr :=
  if legalWord w then
    match fget w 26 6 with
    | 0x00 => decodeInt n w
    | 0x01 => decodeMac n w
    | 0x02 => decodeFloat n w
    | 0x03 => decodeSystem n w
    | 0x18 => decodeMem n w
    | 0x19 => decodeMem n w
    | 0x1A => decodeMem n w
    | 0x1B => decodeMem n w
    | 0x20 => some (.bcc n (Fin.ofNat 15 (fget w 22 4)) (BitVec.ofNat 20 (fget w 0 20)))
    | 0x21 => some (.cbr n (gAt w 22) (Fin.ofNat 4 (fget w 20 2)) (BitVec.ofNat 20 (fget w 0 20)))
    | 0x28 => some (.j n (BitVec.ofNat 26 (fget w 0 26)))
    | 0x29 => some (.jal n (BitVec.ofNat 26 (fget w 0 26)))
    | 0x30 => decodeQueue n w
    | _ => decodeImm n w
  else none

/-- The core that issues an instruction command. -/
def coreOfInstr (i : Instr) : Option (Fin 5) :=
  match i with
  | .add n .. | .sub n .. | .and n .. | .or n .. | .xor n .. | .shl n .. | .shr n .. | .sar n .. | .mul n .. | .mulh n .. | .div n ..
  | .divu n .. | .min n .. | .max n .. | .cmp n .. | .jr n .. | .jalr n .. | .addi n .. | .andi n .. | .ori n .. | .xori n ..
  | .shli n .. | .shri n .. | .sari n .. | .cmpi n .. | .lui n .. | .mac n .. | .msu n .. | .accr n .. | .accw n .. | .sat n ..
  | .fadd n .. | .fsub n .. | .fmul n .. | .fdiv n .. | .fsqrt n .. | .fmac n .. | .fmin n .. | .fmax n .. | .fabs n .. | .fneg n ..
  | .fcmp n .. | .fcvtsw n .. | .fcvtws n .. | .fmvwf n .. | .fmvfw n .. | .tinterp n .. | .ldb n .. | .ldbu n .. | .ldh n ..
  | .ldhu n .. | .ldw n .. | .stb n .. | .sth n .. | .stw n .. | .fld n .. | .fldd n .. | .fst n .. | .bcc n .. | .cbr n .. | .j n ..
  | .jal n .. | .qpop n .. | .qlen n .. | .qpush n .. | .wait n .. | .post n .. | .postr n .. | .stamp n .. | .tally n .. | .nop n
  | .fence n | .syscall n .. | .eret n | .mfsr n .. | .mtsr n .. => some n
  | _ => none

end Sys2Proof.Machine
end

