-- ==== Sys2Proof/Safety.lean ====
section
/-!
DEFINITION. What holds of the block between commands, and what a safe command is, in the terms that claims use.
-/
namespace Sys2Proof.Machine
open Sys2Proof

/-- The canonical form of the memory, where the contents of the ranges `lost` have been lost: addresses strictly rising, and no entry equal to what an
unlisted address reads as. -/
def Memory.wf (lost : List (Nat × Nat × Nat)) (m : List Host.Cell) : Bool := tcanon (blankByte lost) m

/-- The same of the Ledger. -/
def Memory.ledgerWf (m : List Host.Cell) : Bool := tcanon blankCell m

/-- The same of the registers and tables, against their reset words. -/
def Memory.regsWf (r : Tab Word) : Bool := tcanon resetWord r

/-- The invariant of the stores: memory, Ledger and registers are in canonical form, so that equal contents are equal data. -/
def StoresWf (s : State) : Prop :=
  Memory.wf s.lost s.mem = true ∧ Memory.ledgerWf s.ledger = true ∧ Memory.regsWf s.regs = true

/-- Every event posted by the commands so far has taken effect (R22, R234). -/
def Settled (s : State) : Prop := s.fab.raised = []

/-- The invariant between commands. -/
def Inv (s : State) : Prop := StoresWf s ∧ Settled s

/-- A command is safe in a state when it answers a next state: it is no misuse of R403. -/
def SafeCommand (c : Instr) (s : State) : Prop := ∃ t, exec c s = .next t

/-- Whether event `n` is pending on core `c` (R234). -/
def pends (s : State) (c n : Nat) : Bool := nbit (pendWord s c (n / 32)).toNat (n % 32)

/-- Event `n` was posted between `s` and `t`: it is pending on every core that watches it (R234). -/
def Posted (n : Nat) (s t : State) : Prop := ∀ c, c < 5 → watches s c n = true → pends t c n = true

/-- No register changed outside the addresses from `lo` up to `hi` and the Ledger's block, which every event posted may touch (R432,
R433). -/
def RegsOutside (lo hi : Nat) (s t : State) : Prop :=
  ∀ a, a < lo ∨ hi ≤ a → a < 0xA00D0000 ∨ 0xA00D0100 ≤ a → rd t a = rd s a

/-- The command register at `a` holds `w`, accepted now, to act at a later boundary; no other register changed (R10, R467). -/
def Accepted (a : Nat) (w : Word) (s t : State) : Prop :=
  isPending t a = true ∧ t.accepted = tins (tdrop s.accepted a) a ⟨s.bnd, tick s, clk s, w⟩ ∧ ∀ b, b ≠ a → rd t b = rd s b

/-- The command register at `a` answers `code` at once with no effect; a command that was pending still is (R10, R401). -/
def Answered (a code : Nat) (s t : State) : Prop :=
  fld t ⟨a, 24, 8⟩ = code ∧ t.accepted = s.accepted ∧ isPending t a = isPending s a ∧ ∀ b, b ≠ a → rd t b = rd s b

/-- The command register at `a` answers REFUSED_STATE: the refusal is counted, its register is named, HLT_REFUSED is posted, and the
command has no effect (R401). -/
def Refused (a : Nat) (s t : State) : Prop :=
  fld t ⟨a, 24, 8⟩ = 1 ∧ t.accepted = s.accepted ∧ fld t HLT_REFUSED.COUNT = satNat 32 (fld s HLT_REFUSED.COUNT + 1) ∧
    fld t HLT_REFUSED_LAST.OFFSET = a - 0xA0000000 ∧ Posted 238 s t ∧
    ∀ b, b ≠ a → b ≠ HLT_REFUSED → b ≠ HLT_REFUSED_LAST → b < 0xA00D0000 ∨ 0xA00D0100 ≤ b → rd t b = rd s b

/-- The command register at `a` has ended its command with `code` (R10). -/
def Ended (a code : Nat) (t : State) : Prop := fld t ⟨a, 24, 8⟩ = code ∧ isPending t a = false

/-- The bytes in which a frame's bits leave on lane `l` behind what is being sent: its blocks, scrambled, with the polarity taken and the
errors injected (R287, R293, R300, R306). -/
def lineBytes (l : Nat) (bs : List Byte) (s : State) : List Byte :=
  let p := txFree s l
  (runBytes (txInv s l) (flipsTo l (p + 66 * (frameBlocks bs).length) s).1 (laneOf s l).scram p (frameBlocks bs)).1

/-- The bytes in which a frame's bits leave on lane `l`, which has a MAC: behind a preamble, in 10GBASE-R as blocks and in 1000BASE-X as
8b/10b groups (R287, R336). -/
def macBytes (l : Nat) (bs : List Byte) (s : State) : List Byte :=
  if laneMode s l = 4 then
    let gs := frameGroups bs
    (groupBytes (txInv s l) (flipsTo l (txFree s l + 10 * gs.length) s).1 (txFree s l) (laneOf s l).parity gs).1
  else lineBytes l (List.replicate 6 0x55#8 ++ [0xD5#8] ++ bs) s

/-- Everything that has left when the bytes of a frame leave on lane `l`: the idle before it (R291, R306), then the frame. -/
def sentLine (l : Nat) (bs : List Byte) (s : State) : List Sent :=
  (flow l [] s).sent ++ [⟨.lane l, lineBytes l bs (flow l [] s)⟩]

/-- The same of a frame on a lane with a MAC. -/
def sentMac (l : Nat) (bs : List Byte) (s : State) : List Sent :=
  (flow l [] s).sent ++ [⟨.lane l, macBytes l bs (flow l [] s)⟩]

/-! ### Instructions of the cores -/

/-- Core `n` issues the instruction it fetched: it runs, no EVENT exception is due and the fetch raises none (R227, R236, R278). -/
def Issues (n : Nat) (s : State) : Prop := canIssue n s = true ∧ eventDue s n = none ∧ fetchFault n s = none

/-- Core `n` at the next instruction, with `r` in `rd` and no flag changed. -/
def withValue (n rd : Nat) (r : Word) (s : State) : State := advance n (setReg n rd r s)

/-- Core `n` at the next instruction, with `r` in `rd`, V as given and the other flags unchanged. -/
def withV (n rd : Nat) (r : Word) (v : Bool) (s : State) : State := advance n (setV n v (setReg n rd r s))

/-- Core `n` at the next instruction, with Z and N of `r`, and C and V as given. -/
def withFlags (n : Nat) (r : Word) (c v : Bool) (s : State) : State := advance n (setFlags n (nzcv r.msb (decide (r = 0)) c v) s)

/-- Core `n` at the next instruction, with `r` in `rd`, Z and N of it, and C and V as given. -/
def withResult (n rd : Nat) (r : Word) (c v : Bool) (s : State) : State := withFlags n r c v (setReg n rd r s)

/-- Core `n` at the next instruction, with the rounded and flushed float result `v` in `fd`. -/
def withFloat (n fd : Nat) (v : FVal) (s : State) : State := advance n (setFreg n fd (fout32 v) s)

/-- The signed whole number that a finite value is in units of `2 ^ e0`, for `e0 ≤ e`. -/
def inUnits (neg : Bool) (m : Nat) (e e0 : Int) : Int := (if neg then -1 else 1) * m * 2 ^ (e - e0).toNat

/-- The general registers that a register instruction writes (R260, R261, R263, R265, R270). -/
def intDests : Instr → List Nat
  | .add _ rd .. | .sub _ rd .. | .and _ rd .. | .or _ rd .. | .xor _ rd .. | .shl _ rd .. | .shr _ rd .. | .sar _ rd .. | .mul _ rd ..
  | .mulh _ rd .. | .div _ rd .. | .divu _ rd .. | .min _ rd .. | .max _ rd .. | .addi _ rd .. | .andi _ rd .. | .ori _ rd ..
  | .xori _ rd .. | .shli _ rd .. | .shri _ rd .. | .sari _ rd .. | .lui _ rd .. | .accr _ rd .. | .sat _ rd .. | .fcvtws _ rd ..
  | .fmvwf _ rd .. => [rd.val]
  | .jalr _ rd .. => [rd.val, 15]
  | .jal .. => [15]
  | _ => []

/-- The float registers that a register instruction writes. -/
def floatDests : Instr → List Nat
  | .fadd _ fd .. | .fsub _ fd .. | .fmul _ fd .. | .fdiv _ fd .. | .fsqrt _ fd .. | .fmac _ fd .. | .fmin _ fd .. | .fmax _ fd ..
  | .fabs _ fd .. | .fneg _ fd .. | .fcvtsw _ fd .. | .fmvfw _ fd .. => [fd.val]
  | _ => []

/-- The flags that a register instruction writes, as a mask over N, Z, C and V. -/
def flagDests : Instr → Nat
  | .add .. | .sub .. | .cmp .. | .addi .. | .cmpi .. | .fcmp .. => 15
  | .shl .. | .shr .. | .sar .. | .shli .. | .shri .. | .sari .. => 14
  | .and .. | .or .. | .xor .. | .andi .. | .ori .. | .xori .. => 12
  | .div .. | .divu .. | .mac .. | .msu .. | .sat .. | .fcvtws .. => 1
  | .accr _ _ _ raw _ => if raw then 0 else 1
  | _ => 0

/-- The accumulators that a register instruction writes: whether it writes acc0 and acc1. -/
def accDests : Instr → Bool × Bool
  | .mac _ one .. | .msu _ one .. | .accw _ one .. => (!one, one)
  | _ => (false, false)

/-- The instructions that use the registers, flags and accumulators of their core and nothing else, and take no exception of their
own (R260 to R265, R270, R274). -/
def registerOnly : Instr → Bool
  | .add .. | .sub .. | .and .. | .or .. | .xor .. | .shl .. | .shr .. | .sar .. | .mul .. | .mulh .. | .div .. | .divu .. | .min ..
  | .max .. | .cmp .. | .jr .. | .jalr .. | .addi .. | .andi .. | .ori .. | .xori .. | .shli .. | .shri .. | .sari .. | .cmpi ..
  | .lui .. | .mac .. | .msu .. | .accw .. | .sat .. | .fadd .. | .fsub .. | .fmul .. | .fdiv .. | .fsqrt .. | .fmac .. | .fmin ..
  | .fmax .. | .fabs .. | .fneg .. | .fcmp .. | .fcvtsw .. | .fcvtws .. | .fmvwf .. | .fmvfw .. | .bcc .. | .cbr .. | .j .. | .jal ..
  | .nop .. => true
  | .accr _ _ _ raw sh => !raw || decide (sh.val ≤ 32)
  | _ => false

/-- The commands that can be a misuse of R403, whose behaviour the spec leaves undefined: each of them may stop in a fault. -/
def mayMisuse : Instr → Bool
  | .registerWrite .. | .spiWrite .. | .encoderEdge .. | .slEntryRewrite .. | .arm .. | .ldb .. | .ldbu .. | .ldh .. | .ldhu .. |
    .stb .. | .sth .. | .stw .. | .fst .. | .loopEvaluation | .prbsChkEnable .. | .initResume | .srEnter | .srEnterPasr | .perBankRefresh .. |
    .grainWrite .. | .digestFrameReceive => true
  | _ => false

/-- The parts of the state beside the queue, the registers, the events being posted, the Ledger and the triggers under way: every
event posted may touch those four (R176, R234, R411, R432, R433). -/
inductive Comp where
  /-- The boundary count. -/
  | bnd
  /-- The counter of the free values. -/
  | fresh
  /-- The commands that act at a later boundary. -/
  | accepted
  /-- The register words due at the next boundary. -/
  | nextRegs
  /-- DRAM, the Stacks and the local memories. -/
  | mem
  /-- What has left the block. -/
  | sent
  /-- The timebase. -/
  | tbs
  /-- The front end. -/
  | afe
  /-- The conversion. -/
  | cnv
  /-- The lap that the codes come from. -/
  | lapInfo
  /-- The reduction. -/
  | red
  /-- The outputs. -/
  | out
  /-- The rings. -/
  | acq
  /-- The control engine. -/
  | ctl
  /-- The cores, their queues and buffers. -/
  | cores
  /-- The lane PHYs. -/
  | lanes
  /-- The Woten engine. -/
  | wot
  /-- The MACs and PTP engines. -/
  | eth
  /-- The DRAM controller. -/
  | dmc
  /-- The twin engine. -/
  | twin
  /-- The health monitor. -/
  | hlt
  /-- The power sequencer. -/
  | pwr
  /-- The service pins. -/
  | svc
  /-- The test access port. -/
  | jtag
deriving DecidableEq, Repr

/-- The part `c` is the same in two states. -/
def same (c : Comp) (s t : State) : Prop :=
  match c with
  | .bnd => t.bnd = s.bnd
  | .fresh => t.fresh = s.fresh
  | .accepted => t.accepted = s.accepted
  | .nextRegs => t.nextRegs = s.nextRegs
  | .mem => (t.mem, t.lost) = (s.mem, s.lost)
  | .sent => t.sent = s.sent
  | .tbs => t.tbs = s.tbs
  | .afe => t.afe = s.afe
  | .cnv => t.cnv = s.cnv
  | .lapInfo => t.lapInfo = s.lapInfo
  | .red => t.red = s.red
  | .out => t.out = s.out
  | .acq => t.acq = s.acq
  | .ctl => t.ctl = s.ctl
  | .cores => t.cores = s.cores
  | .lanes => t.lanes = s.lanes
  | .wot => t.wot = s.wot
  | .eth => t.eth = s.eth
  | .dmc => t.dmc = s.dmc
  | .twin => t.twin = s.twin
  | .hlt => t.hlt = s.hlt
  | .pwr => t.pwr = s.pwr
  | .svc => t.svc = s.svc
  | .jtag => t.jtag = s.jtag

/-- The parts of the state that a command may touch, beside the queue, which no command touches, and what every posted event may touch
(`Comp`). A frame: a command that answers a next state leaves every other part as it was. -/
def touches : Instr → List Comp
  | .excBlankEnd .. | .slewDone | .tallyCoasting .. | .excSettleEnd .. | .folioSlotRelease .. | .ctlTestEnd | .eventPost ..
    | .txrTailWrite .. | .hltLockstep .. => []
  | .setTime | .pacerSwitch | .preset .. | .excApply .. | .resetTrip .. | .pause | .calResume | .readmit .. | .skewCmd .. |
    .catalogueCommit .. | .setSeq .. | .arm .. | .disarm .. | .ringTriggerCmd .. | .loopCommitCmd | .loopResume .. |
    .testStart | .testStop | .renumber | .initResume | .srEnter | .srEnterPasr | .counterClear | .faultInject | .pwrIdle =>
    [.accepted]
  | .rearmEnd .. => [.acq]
  | .excReversal .. | .excRampEnd .. | .afeExcLimit .. | .afeExcTrip .. | .afeSnsFault .. | .snsFaultClear .. | .ttempUpdate
    .. | .plugDetEdge .. | .afePlugOut .. | .afePlugIn .. | .plugEnClear .. => [.afe]
  | .bufEnWrite .. | .cnvRefReady | .cnvRefFault | .calEnWrite .. | .cnvHandover .. => [.cnv]
  | .waitReturn .. => [.cores]
  | .loopTick .. | .setpointWrite .. => [.ctl]
  | .delayRespReceive .. => [.eth]
  | .tempSample .. | .supplySample .. => [.hlt]
  | .trstN => [.jtag]
  | .prbsChkEnable .. => [.lanes]
  | .pwmPeriodStart .. => [.out]
  | .wakeFromShelved .. | .watchdogKick | .powerOnResetEnd => [.pwr]
  | .openSet .. | .openClear .. => [.red]
  | .svcBtn .. | .svcGpio .. => [.svc]
  | .pacerEnable | .pacerSrcLost .. | .tallyEnable .. | .encoderEdge .. | .tallyZ .. | .tallyFrameReceive .. | .tallyLost ..
    | .mainsEnable .. | .mainsLost | .startListEnable .. | .slEntryEnable .. | .slEntryDisable .. | .slEntryRewrite .. |
    .slTake .. | .redBp .. | .pinDriveEnable .. => [.tbs]
  | .mmWindowExpire | .xchkBlockEnd => [.twin]
  | .tallyBroadcast .. | .accessionSend | .splitReqSend .. | .splitReqReceive | .splitRespReceive | .batonSend |
    .streamAckSend | .revertHoldExpire | .wotSnapshot | .wotInjEnable => [.wot]
  | .coreRun .. => [.accepted, .cores]
  | .srExit => [.accepted, .dmc]
  | .pwrRun | .pwrShelve | .ldgRead | .ldgWrite .. => [.accepted, .pwr]
  | .sfpRead .. | .sfpWrite .. => [.accepted, .sent]
  | .pacerStep | .pacerSrcSwitch | .pacerAcquire | .disableSpace .. | .disableAll | .runTimeout .. => [.accepted, .tbs]
  | .swap | .swapAckTimeout | .take .. | .twinClear | .commandAbortedAtBoundary .. => [.accepted, .twin]
  | .reroute | .gopTrigger .. | .gopEvent .. | .gopSnapshot .. | .gopBarrier .. | .gopReset .. => [.accepted, .wot]
  | .excGateChange => [.afe, .twin]
  | .dmcTrainFail .. => [.fresh, .accepted]
  | .calEpochEnd | .trackingBlockEnd .. => [.fresh, .cnv]
  | .pacerSourceMeasurement .. | .mainsCrossing .. => [.fresh, .tbs]
  | .streamAckReceive => [.fresh, .wot]
  | .grainWrite .. => [.mem, .dmc]
  | .cmwinWrite .. => [.nextRegs, .afe]
  | .ptpParentWrite .. => [.nextRegs, .eth]
  | .outputRegisterWrite .. => [.nextRegs, .out]
  | .loopOutputCommit .. => [.out, .ctl]
  | .tckRisingEdge .. => [.sent, .jtag]
  | .waitTimeout .. => [.tbs, .cores]
  | .dqsRetrain .. | .perBankRefresh .. | .mr4Poll .. => [.tbs, .dmc]
  | .followUpTimeout .. => [.tbs, .eth]
  | .lnkAbsent .. | .adaptFreeze .. => [.tbs, .lanes]
  | .trigOutPulseEnd .. | .trigBusPulseEnd .. => [.tbs, .out]
  | .aonTimerExpire .. | .bootRetry .. | .runningHoursWrite .. => [.tbs, .pwr]
  | .refusedIndicationEnd .. => [.tbs, .svc]
  | .ackSend .. | .cutThroughForward .. | .headUnreachable .. | .gopReceive .. => [.tbs, .wot]
  | .hostAckReceive => [.wot, .eth]
  | .mirrorFrameSend | .mirrorFrameReceive => [.wot, .twin]
  | .bootDone => [.accepted, .cores, .pwr]
  | .pwrRest => [.accepted, .tbs, .pwr]
  | .wotGopEcho .. | .gopEchoTimeout .. => [.accepted, .tbs, .wot]
  | .accessionReceive => [.accepted, .wot, .twin]
  | .cnvSkewDone => [.fresh, .accepted, .cnv]
  | .spiResult | .spiFrameError .. => [.fresh, .sent, .cores]
  | .syncReceive .. | .followUpReceive .. => [.fresh, .tbs, .eth]
  | .batonReceive .. => [.fresh, .tbs, .wot]
  | .trigInEdge .. => [.tbs, .acq, .twin]
  | .commitDescriptorApply => [.tbs, .out, .cores]
  | .bootDataReceive .. | .bootReqRetry .. => [.tbs, .wot, .pwr]
  | .anaUp => [.accepted, .afe, .cnv, .red]
  | .digestCompute => [.accepted, .out, .wot, .twin]
  | .twinEnable .. | .partnerLost | .warmupEnd | .twnTakeover | .join => [.accepted, .sent, .out, .twin]
  | .tallyPresetApply .. => [.accepted, .tbs, .acq, .twin]
  | .init | .dmcTrainDone .. => [.fresh, .accepted, .mem, .dmc]
  | .laneEnable .. | .lnkSignal .. | .trainingBlockReceive .. | .rxReady .. | .partnerRateDetect .. => [.fresh, .sent, .acq,
    .lanes]
  | .wakeBurst .. => [.fresh, .sent, .tbs, .lanes]
  | .ackReceive .. => [.tbs, .lanes, .wot, .twin]
  | .trigBusEdge .. => [.tbs, .out, .acq, .twin]
  | .slActionEffect .. => [.tbs, .red, .out, .ctl]
  | .digestFrameReceive => [.accepted, .sent, .out, .wot, .twin]
  | .linkWaitExpire .. | .mirrorDeadlineMiss .. | .twinHoldInChange .. => [.accepted, .sent, .tbs, .out, .twin]
  | .coreHalt .. | .coreRestart .. | .coreHalted .. | .haltTimeout .. | .srEntryComplete => [.fresh, .accepted, .mem,
    .cores, .dmc]
  | .laneInject .. => [.fresh, .accepted, .sent, .acq, .lanes]
  | .eventException .. | .add .. | .sub .. | .and .. | .or .. | .xor .. | .shl .. | .shr .. | .sar .. | .mul .. | .mulh .. |
    .div .. | .divu .. | .min .. | .max .. | .cmp .. | .jr .. | .jalr .. | .addi .. | .andi .. | .ori .. | .xori .. | .shli
    .. | .shri .. | .sari .. | .cmpi .. | .lui .. | .mac .. | .msu .. | .accr .. | .accw .. | .sat .. | .fadd .. | .fsub ..
    | .fmul .. | .fdiv .. | .fsqrt .. | .fmac .. | .fmin .. | .fmax .. | .fabs .. | .fneg .. | .fcmp .. | .fcvtsw .. |
    .fcvtws .. | .fmvwf .. | .fmvfw .. | .bcc .. | .cbr .. | .j .. | .jal .. | .qpop .. | .qlen .. | .qpush .. | .wait .. |
    .post .. | .postr .. | .nop .. | .fence .. | .syscall .. | .eret .. | .mtsr .. | .illegalInstruction .. | .fetchFault ..
    => [.fresh, .mem, .cores, .dmc, .pwr]
  | .dramRequest .. | .scrubRead .. => [.fresh, .mem, .tbs, .cores, .dmc]
  | .rcRead .. | .resultRegisterRead .. | .spiRead .. => [.fresh, .sent, .acq, .cores, .lanes]
  | .trainingBudgetExpire .. | .relockTimeout .. | .failRetry .. | .fillBlockSend .. | .prbsLock .. | .lnkPrbsLost .. =>
    [.fresh, .sent, .tbs, .acq, .lanes]
  | .wotFrameReceive .. => [.fresh, .tbs, .lanes, .wot, .twin]
  | .srExitOnRequest .. => [.fresh, .accepted, .mem, .tbs, .cores, .dmc]
  | .unicastFrameReceive | .injectDatagramReceive => [.fresh, .mem, .cores, .wot, .eth, .dmc]
  | .acqFolio .. => [.fresh, .mem, .red, .acq, .cores, .dmc]
  | .streamFrameClose .. => [.fresh, .mem, .red, .cores, .wot, .dmc]
  | .loopEvaluation => [.fresh, .mem, .red, .ctl, .cores, .dmc]
  | .stamp .. | .tally .. | .mfsr .. => [.fresh, .mem, .tbs, .cores, .dmc, .pwr]
  | .ethFrameReceive .. => [.fresh, .mem, .tbs, .cores, .eth, .dmc]
  | .bpStageExit .. => [.fresh, .mem, .tbs, .red, .cores, .dmc]
  | .laneDisable .. | .lossOfSignal .. | .lnkDown .. | .partnerRetrainDetect .. => [.fresh, .sent, .acq, .lanes, .wot, .eth]
  | .latchingRead .. => [.fresh, .sent, .tbs, .acq, .cores, .lanes]
  | .delayReqSend .. => [.fresh, .sent, .tbs, .acq, .lanes, .eth]
  | .wotInjDelayExpire .. => [.fresh, .sent, .tbs, .acq, .lanes, .wot]
  | .streamFrameReceive => [.fresh, .accepted, .mem, .cores, .wot, .eth, .dmc]
  | .postFillComplete .. => [.fresh, .accepted, .mem, .red, .acq, .cores, .dmc]
  | .retrain .. => [.fresh, .accepted, .sent, .acq, .lanes, .wot, .eth]
  | .acqForced .. => [.fresh, .mem, .red, .out, .acq, .cores, .dmc]
  | .ackTimeout .. => [.fresh, .sent, .tbs, .acq, .lanes, .wot, .eth]
  | .recordDelivery => [.fresh, .accepted, .mem, .red, .acq, .cores, .wot, .dmc]
  | .ringTriggerArrival .. => [.fresh, .accepted, .mem, .red, .out, .acq, .cores, .dmc]
  | .tinterp .. | .ldb .. | .ldbu .. | .ldh .. | .ldhu .. | .ldw .. | .fld .. | .fldd .. => [.fresh, .mem, .sent, .acq,
    .cores, .lanes, .dmc, .pwr]
  | .ethFrameSend .. => [.fresh, .mem, .sent, .tbs, .acq, .cores, .lanes, .dmc]
  | .policyApply | .swapHandover | .leave .. => [.fresh, .accepted, .sent, .out, .acq, .lanes, .wot, .eth, .twin]
  | .blockLock .. | .lnkUp .. => [.fresh, .accepted, .sent, .tbs, .acq, .lanes, .wot, .eth, .twin]
  | .joinStatePiece .. => [.tbs, .afe, .red, .out, .acq, .ctl, .cores, .wot, .twin]
  | .wakeFromRest .. => [.fresh, .accepted, .sent, .tbs, .red, .acq, .lanes, .wot, .eth, .pwr]
  | .bootAttempt .. => [.fresh, .mem, .sent, .tbs, .acq, .cores, .lanes, .wot, .dmc, .pwr]
  | .frameBoundary .. => [.fresh, .mem, .sent, .tbs, .out, .acq, .cores, .lanes, .wot, .dmc]
  | .svcBtnHold .. => [.fresh, .accepted, .sent, .tbs, .out, .acq, .lanes, .wot, .eth, .twin, .svc]
  | .gwDatagramClose .. => [.fresh, .mem, .sent, .tbs, .out, .acq, .cores, .lanes, .wot, .eth, .dmc]
  | .d2dLapFrameArrival .. => [.fresh, .accepted, .mem, .tbs, .afe, .cnv, .lapInfo, .red, .acq, .cores, .dmc, .twin, .hlt]
  | .lapBoundary .. => [.bnd, .fresh, .accepted, .nextRegs, .mem, .sent, .tbs, .afe, .cnv, .lapInfo, .red, .out, .acq, .ctl,
    .cores, .lanes, .wot, .dmc, .twin, .hlt, .pwr]
  | .registerWrite .. | .stb .. | .sth .. | .stw .. | .fst .. | .gopEffect .. | .powerOnReset | .porstN | .hubResetCmd .. |
    .stewardResetCmd .. | .watchdogExpire .. | .railsGood | .digitalRailFault | .spiWrite .. => [.bnd, .fresh, .accepted,
    .nextRegs, .mem, .sent, .tbs, .afe, .cnv, .lapInfo, .red, .out, .acq, .ctl, .cores, .lanes, .wot, .eth, .dmc, .twin,
    .hlt, .pwr, .svc, .jtag]

end Sys2Proof.Machine
end

