-- ==== Sys2Proof/WellFormed.lean ====
section
/-!
DEFINITION. Which commands are well formed: every operand within the range that the row gives it. The meanings are total all the same.
-/
namespace Sys2Proof

/-- An aligned word address of the register space or of a table window (R6, R26). -/
def busWord (a : Nat) : Bool := decide (a % 4 = 0) && Sys2Proof.Machine.isBus a

/-- An instant within a lap (R13). -/
def inLap (ofs : Nat) : Bool := decide (ofs < Sys2Proof.Machine.lapUnits)

/-- A two's complement number of `w` bits. -/
def fits (w : Nat) (i : Int) : Bool := decide (Sys2Proof.Machine.satSigned w i = i)

/-- Whether a command is well formed. -/
def wellFormed (i : Instr) : Bool :=
  match i with
  | .registerWrite addr _ => busWord addr
  | .rcRead addr => busWord addr
  | .latchingRead addr ofs => inLap ofs && busWord addr
  | .resultRegisterRead addr => busWord addr
  | .lapBoundary inp => inp.vcm.all (fun q => decide (q.1 < 256)) && inp.excI.all (fun q => decide (q.1 < 16))
  | .excReversal _ => true
  | .excBlankEnd _ => true
  | .pacerEnable => true
  | .pacerSourceMeasurement _ _ => true
  | .pacerStep => true
  | .pacerSrcLost _ => true
  | .pacerSrcSwitch => true
  | .slewDone => true
  | .setTime => true
  | .pacerAcquire => true
  | .pacerSwitch => true
  | .tallyEnable _ _ => true
  | .encoderEdge _ ofs _ _ => inLap ofs
  | .tallyZ _ ofs => inLap ofs
  | .tallyPresetApply _ => true
  | .preset _ => true
  | .tallyBroadcast _ => true
  | .tallyFrameReceive _ _ pos vel _ => fits 48 pos && fits 32 vel
  | .tallyCoasting _ => true
  | .tallyLost _ => true
  | .mainsEnable _ => true
  | .mainsCrossing ofs => inLap ofs
  | .mainsLost => true
  | .startListEnable _ => true
  | .slEntryEnable _ => true
  | .slEntryDisable _ => true
  | .slEntryRewrite _ _ _ => true
  | .disableSpace _ => true
  | .disableAll => true
  | .slTake _ ofs => inLap ofs
  | .slActionEffect ofs => inLap ofs
  | .trigOutPulseEnd _ ofs => inLap ofs
  | .excApply _ => true
  | .excRampEnd _ => true
  | .excSettleEnd _ => true
  | .afeExcLimit _ => true
  | .afeExcTrip _ => true
  | .resetTrip _ => true
  | .afeSnsFault _ => true
  | .snsFaultClear _ => true
  | .ttempUpdate _ temp _ => fits 16 temp
  | .openSet _ => true
  | .openClear _ => true
  | .cmwinWrite _ _ _ => true
  | .plugDetEdge _ _ => true
  | .afePlugOut _ => true
  | .afePlugIn _ => true
  | .plugEnClear _ => true
  | .d2dLapFrameArrival frame => decide (frame.codes.length = 256) && frame.ue.all (fun w => decide (w < 64)) && (frame.overDiff ++ frame.overPin).all (fun c => decide (c < 256)) && decide (frame.spare.length ≤ 16 ∧ frame.slot16.length ≤ 17)
  | .bufEnWrite _ => true
  | .cnvRefReady => true
  | .cnvRefFault => true
  | .calEnWrite _ => true
  | .calEpochEnd => true
  | .cnvHandover _ => true
  | .trackingBlockEnd k => decide (k < 2 ^ 38)
  | .pause => true
  | .calResume => true
  | .readmit slice => decide (slice.val < 17)
  | .skewCmd _ => true
  | .cnvSkewDone => true
  | .recordDelivery => true
  | .catalogueCommit _ => true
  | .setSeq _ => true
  | .redBp ofs => inLap ofs
  | .bpStageExit ofs => inLap ofs
  | .arm _ => true
  | .disarm _ => true
  | .ringTriggerCmd _ => true
  | .trigInEdge _ ofs _ _ => inLap ofs
  | .trigBusEdge ofs _ => inLap ofs
  | .ringTriggerArrival _ => true
  | .acqForced _ => true
  | .postFillComplete _ => true
  | .rearmEnd _ => true
  | .acqFolio _ => true
  | .folioSlotRelease _ _ => true
  | .trigBusPulseEnd _ ofs => inLap ofs
  | .loopTick _ => true
  | .loopEvaluation => true
  | .loopOutputCommit _ => true
  | .loopCommitCmd => true
  | .loopResume _ => true
  | .testStart => true
  | .testStop => true
  | .ctlTestEnd => true
  | .setpointWrite _ _ => true
  | .outputRegisterWrite addr _ => busWord addr
  | .pwmPeriodStart _ => true
  | .eventPost _ => true
  | .eventException _ => true
  | .add _ _ _ _ => true
  | .sub _ _ _ _ => true
  | .and _ _ _ _ => true
  | .or _ _ _ _ => true
  | .xor _ _ _ _ => true
  | .shl _ _ _ _ => true
  | .shr _ _ _ _ => true
  | .sar _ _ _ _ => true
  | .mul _ _ _ _ => true
  | .mulh _ _ _ _ => true
  | .div _ _ _ _ => true
  | .divu _ _ _ _ => true
  | .min _ _ _ _ => true
  | .max _ _ _ _ => true
  | .cmp _ _ _ => true
  | .jr _ _ => true
  | .jalr _ _ _ => true
  | .addi _ _ _ _ => true
  | .andi _ _ _ _ => true
  | .ori _ _ _ _ => true
  | .xori _ _ _ _ => true
  | .shli _ _ _ _ => true
  | .shri _ _ _ _ => true
  | .sari _ _ _ _ => true
  | .cmpi _ _ _ => true
  | .lui _ _ _ => true
  | .mac _ _ _ _ => true
  | .msu _ _ _ _ => true
  | .accr _ _ _ raw sh => !(raw && decide (32 < sh.val))
  | .accw _ _ clear rs rt => !clear || decide (rs.val = 0 ∧ rt.val = 0)
  | .sat _ _ _ _ => true
  | .fadd _ _ _ _ => true
  | .fsub _ _ _ _ => true
  | .fmul _ _ _ _ => true
  | .fdiv _ _ _ _ => true
  | .fsqrt _ _ _ => true
  | .fmac _ _ _ _ => true
  | .fmin _ _ _ _ => true
  | .fmax _ _ _ _ => true
  | .fabs _ _ _ => true
  | .fneg _ _ _ => true
  | .fcmp _ _ _ => true
  | .fcvtsw _ _ _ => true
  | .fcvtws _ _ _ _ => true
  | .fmvwf _ _ _ => true
  | .fmvfw _ _ _ => true
  | .tinterp _ _ _ _ => true
  | .ldb _ _ _ _ _ => true
  | .ldbu _ _ _ _ _ => true
  | .ldh _ _ _ _ _ => true
  | .ldhu _ _ _ _ _ => true
  | .ldw _ _ _ _ _ => true
  | .stb _ _ _ _ _ => true
  | .sth _ _ _ _ _ => true
  | .stw _ _ _ _ _ => true
  | .fld _ _ _ _ _ => true
  | .fldd _ _ _ _ _ => true
  | .fst _ _ _ _ _ => true
  | .bcc _ _ _ => true
  | .cbr _ _ _ _ => true
  | .j _ _ => true
  | .jal _ _ => true
  | .qpop _ _ _ => true
  | .qlen _ _ _ => true
  | .qpush _ _ _ _ => true
  | .wait _ _ _ _ _ => true
  | .waitReturn _ => true
  | .waitTimeout _ ofs => inLap ofs
  | .post _ _ => true
  | .postr _ _ => true
  | .stamp _ _ _ ofs => inLap ofs
  | .tally _ wd _ vel ofs => inLap ofs && (vel || decide (wd.val ≠ 15))
  | .nop _ => true
  | .fence _ => true
  | .syscall _ _ => true
  | .eret _ => true
  | .mfsr _ _ _ ofs => inLap ofs
  | .mtsr _ _ _ => true
  | .commitDescriptorApply => true
  | .coreRun _ => true
  | .coreHalt _ => true
  | .coreRestart _ _ _ => true
  | .coreHalted _ => true
  | .haltTimeout _ => true
  | .laneEnable _ => true
  | .laneDisable _ => true
  | .wakeBurst _ ofs => inLap ofs
  | .lnkSignal _ => true
  | .lnkAbsent _ ofs => inLap ofs
  | .blockLock _ ofs => inLap ofs
  | .trainingBlockReceive _ _ _ => true
  | .rxReady _ _ _ => true
  | .lnkUp _ ofs => inLap ofs
  | .trainingBudgetExpire _ ofs => inLap ofs
  | .partnerRateDetect _ _ => true
  | .lossOfSignal _ => true
  | .lnkDown _ => true
  | .relockTimeout _ ofs _ => inLap ofs
  | .partnerRetrainDetect _ => true
  | .failRetry _ ofs _ => inLap ofs
  | .retrain _ => true
  | .laneInject _ => true
  | .adaptFreeze _ ofs _ => inLap ofs
  | .fillBlockSend _ ofs => inLap ofs
  | .prbsChkEnable _ => true
  | .prbsLock _ rx => inLap rx.ofs
  | .lnkPrbsLost _ ofs _ => inLap ofs
  | .accessionSend => true
  | .accessionReceive => true
  | .wotFrameReceive _ ofs _ => inLap ofs
  | .ackReceive _ ofs _ => inLap ofs
  | .ackSend _ _ ofs => inLap ofs
  | .ackTimeout _ _ ofs => inLap ofs
  | .cutThroughForward ofs => inLap ofs
  | .unicastFrameReceive => true
  | .splitReqSend _ => true
  | .splitReqReceive => true
  | .splitRespReceive => true
  | .batonSend => true
  | .batonReceive ofs => inLap ofs
  | .streamFrameClose _ => true
  | .streamFrameReceive => true
  | .streamAckSend => true
  | .streamAckReceive => true
  | .headUnreachable _ ofs => inLap ofs
  | .revertHoldExpire => true
  | .renumber => true
  | .reroute => true
  | .gopTrigger _ _ _ _ => true
  | .gopEvent _ _ _ _ => true
  | .gopSnapshot _ _ _ _ => true
  | .gopBarrier _ _ _ _ => true
  | .gopReset _ _ _ _ => true
  | .gopReceive ofs => inLap ofs
  | .gopEffect ofs => inLap ofs
  | .wotSnapshot => true
  | .wotGopEcho ofs => inLap ofs
  | .gopEchoTimeout ofs => inLap ofs
  | .wotInjEnable => true
  | .ethFrameReceive _ ofs _ => inLap ofs
  | .txrTailWrite _ _ => true
  | .ethFrameSend _ ofs => inLap ofs
  | .syncReceive _ => true
  | .followUpReceive _ => true
  | .followUpTimeout _ ofs => inLap ofs
  | .delayReqSend _ ofs => inLap ofs
  | .delayRespReceive _ => true
  | .ptpParentWrite _ _ _ => true
  | .gwDatagramClose ofs => inLap ofs
  | .hostAckReceive => true
  | .injectDatagramReceive => true
  | .sfpRead _ len _ _ data result => decide (data.length = len.val + 1 ∨ result.val ≠ 0)
  | .sfpWrite _ _ _ _ _ => true
  | .init => true
  | .initResume => true
  | .dmcTrainDone margins _ words => decide (margins.length = 2 ∧ words.length = 64)
  | .dmcTrainFail _ _ _ => true
  | .srEnter => true
  | .srEnterPasr => true
  | .srEntryComplete => true
  | .srExit => true
  | .srExitOnRequest ofs => inLap ofs
  | .dramRequest _ _ _ addr data _ _ _ ofs => inLap ofs && decide (addr < 0x80000000 ∧ data.length ≤ 64)
  | .dqsRetrain ofs => inLap ofs
  | .perBankRefresh ofs => inLap ofs
  | .mr4Poll _ _ ofs => inLap ofs
  | .scrubRead _ ofs => inLap ofs
  | .grainWrite _ => true
  | .twinEnable _ => true
  | .linkWaitExpire ofs => inLap ofs
  | .partnerLost => true
  | .mirrorFrameSend => true
  | .mirrorFrameReceive => true
  | .mirrorDeadlineMiss ofs => inLap ofs
  | .joinStatePiece _ _ => true
  | .warmupEnd => true
  | .digestCompute => true
  | .digestFrameReceive => true
  | .policyApply => true
  | .mmWindowExpire => true
  | .twinHoldInChange _ ofs => inLap ofs
  | .pinDriveEnable ofs => inLap ofs
  | .excGateChange => true
  | .swap => true
  | .swapAckTimeout => true
  | .swapHandover => true
  | .twnTakeover => true
  | .join => true
  | .leave _ => true
  | .take _ => true
  | .twinClear => true
  | .xchkBlockEnd => true
  | .counterClear => true
  | .faultInject => true
  | .tempSample temps => decide (temps.length = 6) && temps.all (fits 16)
  | .supplySample mv => decide (mv.length = 14) && mv.all (fits 16)
  | .hltLockstep _ => true
  | .commandAbortedAtBoundary addr => decide (addr ∈ Sys2Proof.Machine.abortable)
  | .pwrRun => true
  | .anaUp => true
  | .runTimeout ofs => inLap ofs
  | .pwrIdle => true
  | .pwrRest => true
  | .pwrShelve => true
  | .wakeFromRest _ _ _ _ => true
  | .wakeFromShelved _ _ => true
  | .aonTimerExpire ofs => inLap ofs
  | .powerOnReset => true
  | .porstN => true
  | .hubResetCmd _ => true
  | .stewardResetCmd _ => true
  | .watchdogKick => true
  | .watchdogExpire ofs => inLap ofs
  | .railsGood => true
  | .digitalRailFault => true
  | .bootAttempt _ ofs => inLap ofs
  | .bootDone => true
  | .bootRetry ofs => inLap ofs
  | .bootDataReceive ofs => inLap ofs
  | .bootReqRetry ofs => inLap ofs
  | .ldgRead => true
  | .ldgWrite bad => decide (bad.getD 0 < 65536)
  | .runningHoursWrite ofs => inLap ofs
  | .svcBtn _ => true
  | .svcBtnHold ofs => inLap ofs
  | .svcGpio _ => true
  | .spiWrite _ _ _ => true
  | .spiRead _ _ => true
  | .spiResult => true
  | .spiFrameError _ clocks => decide (clocks ≠ 64)
  | .illegalInstruction _ word => !Sys2Proof.Machine.legalWord word
  | .fetchFault _ => true
  | .frameBoundary _ ofs => inLap ofs
  | .wotInjDelayExpire _ _ ofs => inLap ofs
  | .powerOnResetEnd => true
  | .tckRisingEdge _ _ _ => true
  | .trstN => true
  | .refusedIndicationEnd ofs => inLap ofs

end Sys2Proof
end

