-- ==== Sys2Proof/Certificates/Slice0/Obligations.lean ====
section
/-!
DEFINITION. The statements for the provers: what each command does, where it completes, what it leaves, and what every step keeps. Rules
R<n> are those of spec/; "log entry" is a row of notes/assumptions/.
-/
open Sys2Proof Sys2Proof.Machine

/-- A step of a state with a command at the front of its queue is that command run on the state with the rest of the queue (the block of
the row: commands wait first in, first out). -/
def Obligations.StepTakesTheFront : Prop :=
  ∀ (c : Instr) (rest : List Instr) (s : State), s.pending = c :: rest → step s = exec c { s with pending := rest }

/-- With no command waiting a step leaves the state as it is. This is the model's choice (log entry 1): every row that time drives,
the lap boundary of R36 first, is a command of the environment. -/
def Obligations.EmptyQueueIdles : Prop :=
  ∀ s : State, s.pending = [] → step s = .next s

/-- A command that answers a next state leaves the queue of waiting commands as it was: nothing is lost, put in or reordered. A step
therefore removes the front command and nothing else. -/
def Obligations.QueueIsFirstInFirstOut : Prop :=
  (∀ (c : Instr) (s t : State), exec c s = .next t → t.pending = s.pending) ∧
    ∀ s t : State, step s = .next t → t.pending = s.pending.tail

/-- Right after a power-on reset memory, Ledger and registers are in canonical form with nothing listed, no event is left to be posted
and no command waits; line time and the lap count are 0 and the Pacer is in FREE (R37). -/
def Obligations.ResetKeepsInvariant : Prop :=
  Inv State.reset ∧ State.reset.pending = [] ∧ now State.reset = 0 ∧ lap State.reset = 0 ∧ pacerState State.reset = 0

/-- From every state in which memory, Ledger and registers are in canonical form and no event is left to be posted, a step that answers a
next state gives such a state. Equal contents therefore stay equal data, and every event posted in a step has taken effect at its end. -/
def Obligations.EveryStepKeepsTheInvariant : Prop :=
  ∀ s t : State, Inv s → step s = .next t → Inv t

/-- For every command and every state: where it answers a next state, each part of the state that `touches` does not name for it is as it
was. Among them: a core's arithmetic touches no ring, loop, lane or output; a command of the Pacer touches no memory; no command but
a reset, a bus write, a lap boundary and the twin's join touches more than the unit it acts on and what that unit feeds. -/
def Obligations.CommandsTouchOnlyTheirParts : Prop :=
  ∀ (c : Instr) (s t : State) (k : Comp), exec c s = .next t → k ∉ touches c → same k s t

/-- No command is ever refused, and a command stops in a fault only where R403 lists its use as misuse with undefined behaviour: every
command but the twenty-one that can be such a misuse answers a next state from every state. -/
def Obligations.OnlyMisuseStops : Prop :=
  ∀ (c : Instr) (s : State), (∀ r, exec c s ≠ .refused r) ∧ (mayMisuse c = false → ∃ t, exec c s = .next t)

/-- R13, with line time in units of 2^-16 ns: lap n holds exactly the times from n × 976.5625 ns up to (n + 1) × 976.5625 ns, the lap
count is the floor of line time × 16 / 15 625 (line time in nanoseconds), and a lap boundary is the start of a lap. -/
def Obligations.LapCountOfLineTime : Prop :=
  (∀ s : State, 65536 * 976 + 36864 = lapUnits ∧ lap s * lapUnits ≤ s.tbs.pacer.time ∧ s.tbs.pacer.time < (lap s + 1) * lapUnits) ∧
    (∀ t : Nat, lapOf t = t * 16 / (15625 * 65536)) ∧ (∀ n t : Nat, lapOf t = n ↔ n * lapUnits ≤ t ∧ t < (n + 1) * lapUnits) ∧
    ∀ n : Nat, lapOf (lapStart n) = n ∧ ∀ t < lapStart n, lapOf t < n

/-- R15: the short stamp of a line time is the low 48 bits of its whole nanoseconds. And the comparison of R16: the signed difference of two
48-bit coordinates is their difference modulo 2^48, taken between -2^47 and 2^47 - 1; across the wrap of the worked example it is
8 192 ns. -/
def Obligations.ShortStampAndSignedDifference : Prop :=
  (∀ t : Nat, shortStamp t = t / 65536 % 2 ^ 48) ∧
    (∀ b a : Nat, -(2 : Int) ^ 47 ≤ sdiff48 b a ∧ sdiff48 b a < 2 ^ 47 ∧ (sdiff48 b a - ((b : Int) - a)) % 2 ^ 48 = 0) ∧
    sdiff48 0x1000 0xFFFFFFFFF000 = 8192

/-- R8 for the registers of the RED, LDG and SVC blocks other than the command registers: an awake hub completes the write; an rw bit takes
the written bit, an rwl bit does so unless the block's LOCK is set, a w1c bit is cleared by a 1 and kept by a 0, and every bit that no
such type names keeps its value. No other register changes, and no part of the state beside the registers. -/
def Obligations.RegisterWriteFollowsAccessTypes : Prop :=
  ∀ (s : State) (a : Nat) (w : Word) (r : RegRow), Settled s → awake s = true → a % 4 = 0 → rowAt a = some r →
    ((0xA0030000 ≤ a ∧ a < 0xA0040000 ∧ a ≠ RED_CMD) ∨ (0xA00D0000 ≤ a ∧ a < 0xA00F0000 ∧ a ≠ LDG_CMD)) →
    ∃ t, exec (.registerWrite a w) s = .next t ∧
      (∀ i < 32, r.rw.testBit i = true → r.w1c.testBit i = false → (rd t a).getLsbD i = w.getLsbD i) ∧
      (∀ i < 32, r.rw.testBit i = false → r.rwl.testBit i = true → r.w1c.testBit i = false →
        (rd t a).getLsbD i = if locked s a then (rd s a).getLsbD i else w.getLsbD i) ∧
      (∀ i < 32, r.rw.testBit i = false → r.rwl.testBit i = false → r.w1c.testBit i = true →
        (rd t a).getLsbD i = ((rd s a).getLsbD i && !w.getLsbD i)) ∧
      (∀ i < 32, r.rw.testBit i = false → r.rwl.testBit i = false → r.w1c.testBit i = false →
        (rd t a).getLsbD i = (rd s a).getLsbD i) ∧
      (∀ b, b ≠ a → rd t b = rd s b) ∧ ∀ k, same k s t

/-- RC_READ of a Start List count answers the count and leaves it 0, and nothing else changes (R8). LATCHING_READ of TBS_TIME_FRAC copies
line time and the lap count of that instant into their holding registers (R76). RESULT_REGISTER_READ of a MAC's stamp queue takes its
oldest visible entry and latches its words (R243, R342). -/
def Obligations.ReadsClearLatchAndTake : Prop :=
  (∀ (s : State) (a : Nat), Settled s → awake s = true → a ∈ [TBS_SL_SLIP, TBS_SL_LATE, TBS_SL_SKIP, TBS_SL_BAD] →
      (busRead a s).1 = rd s a ∧ ∃ t, exec (.rcRead a) s = .next t ∧ rd t a = 0 ∧ (∀ b, b ≠ a → rd t b = rd s b) ∧ ∀ k, same k s t) ∧
    (∀ (s : State) (ofs : Nat), awake s = true → ∃ t, exec (.latchingRead TBS_TIME_FRAC ofs) s = .next t ∧
      rd t TBS_TIME_FRAC = w32 (now t % 65536) ∧ rd t TBS_TIME_LO = lo32 (now t / 65536) ∧ rd t TBS_TIME_HI = hi32 (now t / 65536) ∧
      rd t TBS_LAP_LO = lo32 (lap t) ∧ rd t TBS_LAP_HI = hi32 (lap t) ∧ lap t = lap s ∧ now s ≤ now t ∧ t.mem = s.mem) ∧
    ∀ (s : State) (m : Fin 2) (e : QEntry) (rest : List QEntry), awake s = true → (queueOf s (stampQueue m)).items = e :: rest →
      1 ≤ (queueOf s (stampQueue m)).seen → ∃ t, exec (.resultRegisterRead (ETH_MACm_TXS_ID m)) s = .next t ∧
        (queueOf t (stampQueue m)).items = rest ∧ rd t (ETH_MACm_TXS_ID m) = e.words.getD 0 0 ∧
        rd t (ETH_MACm_TXS_FRAC m) = e.words.getD 1 0 ∧ rd t (ETH_MACm_TXS_LO m) = e.words.getD 2 0 ∧
        rd t (ETH_MACm_TXS_HI m) = e.words.getD 3 0 ∧ t.mem = s.mem ∧ ∀ q, q ≠ stampQueue m → queueOf t q = queueOf s q

/-- R437 on an awake hub: SPI_WRITE of a register of the SVC block sends zeros and leaves the word that the access types give; one into the
unmapped part of the table windows changes nothing but posts the bus-error event (R28); SPI_READ puts its result into the queue of 16;
with ERR = 1 and the value 0 where it raised a fault; SPI_RESULT sends the oldest result that is seen, marked FRESH, and takes it from
the queue, and on an empty queue the previous result; a transaction of another length than
64 clocks counts in FRAME_ERRS and takes no result. -/
def Obligations.SpiTransactions : Prop :=
  (∀ (s : State) (o : BitVec 24) (v : Word), awake s = true → 0x0E0000 ≤ o.toNat → o.toNat < 0x0F0000 →
      ∃ t, exec (.spiWrite false o v) s = .next t ∧ rd t (0xA0000000 + o.toNat / 4 * 4) = writtenWord s (0xA0000000 + o.toNat / 4 * 4) v ∧
        t.sent = s.sent ++ [⟨.spi, List.replicate 8 0⟩] ∧ t.mem = s.mem ∧ t.svc = s.svc) ∧
    (∀ (s : State) (o : BitVec 24) (v : Word), awake s = true → 0x40000 ≤ o.toNat →
      ∃ t, exec (.spiWrite true o v) s = .next t ∧ Posted 184 s t ∧ t.sent = s.sent ++ [⟨.spi, List.replicate 8 0⟩] ∧ t.mem = s.mem ∧
        ∀ a, a < 0xA00D0000 ∨ 0xA00D0100 ≤ a → rd t a = rd s a) ∧
    (∀ (s : State) (o : BitVec 24), awake s = true → (queueOf s spiResults).items.length < 16 → ∃ t u, exec (.spiRead false o) s = .next t ∧
      busRead (0xA0000000 + o.toNat / 4 * 4) { s with sent := s.sent ++ [⟨.spi, List.replicate 8 0⟩] } = u ∧
      (queueOf t spiResults).items = (queueOf s spiResults).items ++ [{ words := [w32 (o.toNat / 4 * 4), 0, u.1], at0 := clk s }] ∧
      t.sent = s.sent ++ [⟨.spi, List.replicate 8 0⟩]) ∧
    (∀ (s : State) (o : BitVec 24), awake s = true → 0x40000 ≤ o.toNat → (queueOf s spiResults).items.length < 16 →
      ∃ t, exec (.spiRead true o) s = .next t ∧
        (queueOf t spiResults).items = (queueOf s spiResults).items ++ [{ words := [w32 (o.toNat / 4 * 4), 1, 0], at0 := clk s }]) ∧
    (∀ (s : State) (e : QEntry) (rest : List QEntry), awake s = true → (queueOf s spiResults).items = e :: rest →
      (1 ≤ (queueOf s spiResults).seen ∨ e.at0 + queueLag ≤ clk s) → ∃ t, exec .spiResult s = .next t ∧
        (queueOf t spiResults).items = rest ∧ (queueOf t spiResults).last = e.words ∧
        t.sent = s.sent ++ [⟨.spi, bytesBE 4 (2 ^ 31 + (e.words.getD 1 0).toNat * 2 ^ 30 + bit (flag s SVC_SPI_STATUS.OVF) * 2 ^ 29 +
          rest.length * 2 ^ 24 + (e.words.getD 0 0).toNat) ++ bytesBE 4 (e.words.getD 2 0).toNat⟩]) ∧
    (∀ s : State, awake s = true → (queueOf s spiResults).items = [] → ∃ t, exec .spiResult s = .next t ∧
      (queueOf t spiResults).items = [] ∧ (queueOf t spiResults).last = (queueOf s spiResults).last ∧
      t.sent = s.sent ++ [⟨.spi, bytesBE 4 ((((queueOf s spiResults).last.getD 1 0).toNat * 2 ^ 30 +
        bit (flag s SVC_SPI_STATUS.OVF) * 2 ^ 29 + ((queueOf s spiResults).last.getD 0 0).toNat)) ++
        bytesBE 4 ((queueOf s spiResults).last.getD 2 0).toNat⟩]) ∧
    ∀ (s : State) (op : Fin 4) (clocks : Nat), awake s = true → clocks ≠ 64 → fld s SVC_SPI_STATUS.FRAME_ERRS < 65535 →
      ∃ t, exec (.spiFrameError op clocks) s = .next t ∧ fld t SVC_SPI_STATUS.FRAME_ERRS = fld s SVC_SPI_STATUS.FRAME_ERRS + 1 ∧
        t.svc = s.svc ∧ (queueOf t spiResults).items = (queueOf s spiResults).items

/-- SET_TIME in FREE or ACQUIRE, and SWITCH in LOCKED with the other source valid, are accepted and act at a later boundary; ACQUIRE in
LOCKED or HOLDOVER enters ACQUIRE at once, with nothing left to slew and line time as it was (R76). PACER_STEP puts line time on the
lap grid for SET_TIME, to the nearest lap boundary, or moves it by the measured offset in ACQUIRE (R39), after which the lap is at most a
lap long; it posts PACER_STEP and steps neither a Tally nor the mains coordinate (R43). -/
def Obligations.PacerCommandsAndSteps : Prop :=
  (∀ s : State, Settled s → isPending s TBS_PACER_CMD = false → pacerState s ≤ 1 → ∃ t, exec .setTime s = .next t ∧
      isPending t TBS_PACER_CMD = true ∧ t.accepted = tins (tdrop s.accepted TBS_PACER_CMD) TBS_PACER_CMD ⟨s.bnd, tick s, clk s, 1⟩ ∧
      t.tbs = s.tbs ∧ ∀ a, a ≠ TBS_PACER_CMD → rd t a = rd s a) ∧
    (∀ s : State, Settled s → isPending s TBS_PACER_CMD = false → pacerState s = 2 → isValid s (!s.tbs.pacer.secActive) = true →
      ∃ t, exec .pacerSwitch s = .next t ∧ isPending t TBS_PACER_CMD = true ∧
        t.accepted = tins (tdrop s.accepted TBS_PACER_CMD) TBS_PACER_CMD ⟨s.bnd, tick s, clk s, 3⟩ ∧
        t.tbs = s.tbs ∧ ∀ a, a ≠ TBS_PACER_CMD → rd t a = rd s a) ∧
    (∀ s : State, isPending s TBS_PACER_CMD = false → pacerState s = 2 ∨ pacerState s = 3 → ∃ t, exec .pacerAcquire s = .next t ∧
      pacerState t = 1 ∧ fld t TBS_SLEW_REMAIN.OFFSET = 0 ∧ flag t TBS_PACER_STATUS.SLEWING = false ∧
      flag t TBS_PACER_STATUS.OFFSET_ALARM = false ∧ fld t TBS_PACER_CMD.STATUS = 0 ∧ isPending t TBS_PACER_CMD = false ∧
      now t = now s ∧ t.mem = s.mem) ∧
    (∀ s : State, setTimeDue s = true → ∃ t, exec .pacerStep s = .next t ∧
      t.tbs.pacer.time = nearestLap (rdPair s TBS_SET_TIME_LO TBS_SET_TIME_HI * 65536) ∧ t.tbs.pacer.time % lapUnits = 0 ∧ Posted 128 s t ∧
      fld t TBS_PACER_CMD.STATUS = 0 ∧ isPending t TBS_PACER_CMD = false ∧ (∀ n, (tallyOf t n).pos = (tallyOf s n).pos) ∧
      t.tbs.mains.coord = s.tbs.mains.coord) ∧
    ∀ (s : State) (m : Int) (b : Nat), setTimeDue s = false → s.tbs.pacer.stepDue = some (m, b) → b < tick s →
      flag s TBS_PACER_CTRL.EN = true → pacerState s = 1 → ∃ t, exec .pacerStep s = .next t ∧
        t.tbs.pacer.time = ((s.tbs.pacer.time : Int) + m).toNat ∧ 0 < lapLength t ∧ lapLength t ≤ lapUnits ∧ Posted 128 s t ∧
        t.tbs.pacer.stepDue = none ∧ (∀ n, (tallyOf t n).pos = (tallyOf s n).pos) ∧ t.tbs.mains.coord = s.tbs.mains.coord

/-- PACER_ENABLE makes the primary active and enters ACQUIRE, or FREE where it is coded FREE (R38). A measurement updates its source's
estimate, in units of 2^-4 ns (its rounding is the model's choice, log entry 111), and the sixteenth in a row makes it valid (R44, R45). A source whose LOSS_INT intervals have passed is
lost, and an active one sends a LOCKED Pacer to HOLDOVER where no other can take over (R45, R46). A switch leaves line time and the
frequency correction as they are and makes the new source's estimate the slew target; SLEWING clears once nothing remains (R47). -/
def Obligations.PacerFollowsItsSources : Prop :=
  (∀ s : State, flag s TBS_PACER_CTRL.EN = false → ∃ t, exec .pacerEnable s = .next t ∧ flag t TBS_PACER_CTRL.EN = true ∧
      pacerState t = (if srcCode s false = 0 then 0 else 1) ∧ t.tbs.pacer.secActive = false ∧
      fld t TBS_PACER_STATUS.ACTIVE_SRC = srcCode s false ∧ now t = now s ∧ t.mem = s.mem) ∧
    (∀ (s : State) (sec : Bool) (offset : Int), awake s = true → srcCode s sec ≠ 0 → ∃ t, exec (.pacerSourceMeasurement sec offset) s = .next t ∧
      sourceOf t sec = { run := (sourceOf s sec).run + 1, last := tick s, lost := false, offset := offset } ∧
      sfld t (if sec then TBS_SEC_OFFSET.OFFSET else TBS_PRI_OFFSET.OFFSET) = satSigned 32 (Int.tdiv offset 4096) ∧
      isValid t sec = (isValid s sec || decide (16 ≤ (sourceOf s sec).run + 1)) ∧ sourceOf t (!sec) = sourceOf s (!sec) ∧ now t = now s) ∧
    (∀ (s : State) (sec : Bool), awake s = true → lossDue s sec = true → ∃ t, exec (.pacerSrcLost sec) s = .next t ∧ isValid t sec = false ∧
      (sourceOf t sec).lost = true ∧ (sourceOf t sec).run = 0 ∧ Posted 130 s t ∧ now t = now s ∧
      (flag s TBS_PACER_CTRL.EN = true → s.tbs.pacer.secActive = sec → pacerState s = 2 → flag s TBS_PACER_CTRL.AUTO_SWITCH = false → pacerState t = 3 ∧ Posted 132 s t)) ∧
    (∀ (s : State) (sec : Bool), switchDueNow s = some sec → ∃ t, exec .pacerSrcSwitch s = .next t ∧ t.tbs.pacer.secActive = sec ∧
      now t = now s ∧ lap t = lap s ∧ rd t TBS_FREQ_ADJ = rd s TBS_FREQ_ADJ ∧ (s.tbs.pacer.secActive ≠ sec → Posted 131 s t) ∧
      pacerState t = (if pacerState s = 3 then 2 else pacerState s) ∧
      sfld t TBS_SLEW_REMAIN.OFFSET = satSigned 32 (Int.tdiv (sourceOf s sec).offset 4096) ∧
      flag t TBS_PACER_STATUS.SLEWING = decide (fld t TBS_SLEW_REMAIN.OFFSET ≠ 0)) ∧
    ∀ s : State, Settled s → fld s TBS_SLEW_REMAIN.OFFSET = 0 → ∃ t, exec .slewDone s = .next t ∧ flag t TBS_PACER_STATUS.SLEWING = false ∧
      (∀ a, a ≠ TBS_PACER_STATUS → rd t a = rd s a) ∧ ∀ k, same k s t

/-- Setting EN starts a Tally at the position it held, RUNNING for an encoder and WAITING for a remote source; clearing it stops it and
releases the source lock (R52, R55). A valid edge that passes the glitch filter moves the position by SCALE in the direction of the quadrature, INVERT reversing it;
A and B changing together only counts in ENC_ERR; a level passes a filter once it has stood for the shortest pulse that it passes (log
entry 146), and a pulse shorter than that changes nothing (R51). A Z edge latches the position (R57). PRESET is accepted while EN = 1, and at its
boundary the Tally steps to PRESET (R57, R58). -/
def Obligations.EncoderTally : Prop :=
  (∀ (s : State) (n : Fin 4), flag s (TBS_TALLYn_CTRL.EN n) = false → ∃ t, exec (.tallyEnable n true) s = .next t ∧
      flag t (TBS_TALLYn_CTRL.EN n) = true ∧ (tallyOf t n).pos = (tallyOf s n).pos ∧ (tallyOf t n).vel = 0 ∧ (tallyOf t n).counts = [] ∧
      fld t (TBS_TALLYn_STATUS.STATE n) = (if fld s (TBS_TALLYn_CTRL.SRC n) = 1 then 1 else if fld s (TBS_TALLYn_CTRL.SRC n) = 2 then 4 else 0) ∧
      ∀ m, m ≠ n.val → tallyOf t m = tallyOf s m) ∧
    (∀ (s : State) (n : Fin 4), flag s (TBS_TALLYn_CTRL.EN n) = true → ∃ t, exec (.tallyEnable n false) s = .next t ∧
      flag t (TBS_TALLYn_CTRL.EN n) = false ∧ fld t (TBS_TALLYn_STATUS.STATE n) = 0 ∧ fld t (TBS_TALLYn_SOURCE.VALID n) = 0 ∧
      (tallyOf t n).counts = [] ∧ (tallyOf t n).vel = 0 ∧ ∀ m, m ≠ n.val → tallyOf t m = tallyOf s m) ∧
    (∀ (s : State) (k n : Fin 4) (ofs : Nat) (a b : Bool), awake s = true → onEncoder s k 0 n = true →
      (∀ j f, (encIn s j f).rawA = (encIn s j f).a ∧ (encIn s j f).rawB = (encIn s j f).b) →
      ((encIn s k 0).a != a) = !((encIn s k 0).b != b) →
      (encIn s k 0).counted.length ≠ 4 ∨ (encIn s k 0).counted.getLast?.getD 0 + 400 * 65536 ≤ clk (atOfs ofs s) + 1 →
      ∃ t, exec (.encoderEdge k ofs a b) s = .next t ∧ (encIn t k 0).a = a ∧ (encIn t k 0).b = b ∧
        (tallyOf t n).te = now t ∧ (tallyOf t n).pos = (tallyOf s n).pos +
          (if edgeForward (encIn s k 0).a (encIn s k 0).b a b = flag s (TBS_TALLYn_CTRL.INVERT n)
            then -((rd s (TBS_TALLYn_SCALE n)).toNat : Int) else (rd s (TBS_TALLYn_SCALE n)).toNat)) ∧
    (∀ (s : State) (k n : Fin 4) (ofs : Nat) (a b : Bool), awake s = true → onEncoder s k 0 n = true →
      fld s (TBS_TALLYn_STATUS.ENC_ERR n) < 65535 → (∀ j f, (encIn s j f).rawA = (encIn s j f).a ∧ (encIn s j f).rawB = (encIn s j f).b) →
      (encIn s k 0).a ≠ a → (encIn s k 0).b ≠ b →
      ∃ t, exec (.encoderEdge k ofs a b) s = .next t ∧ tallyOf t n = tallyOf s n ∧
        fld t (TBS_TALLYn_STATUS.ENC_ERR n) = fld s (TBS_TALLYn_STATUS.ENC_ERR n) + 1) ∧
    (∀ (s : State) (k f n : Fin 4) (ofs : Nat) (a : Bool), awake s = true → onEncoder s k f n = true →
      (∀ (m g : Fin 4), g ≠ f → onEncoder s k g m = false) → (encIn s k f).a = a → (encIn s k f).rawA ≠ a →
      (encIn s k f).rawB = (encIn s k f).b → clk (atOfs ofs s) + 1 < passAt f (encIn s k f).atA →
      ∃ t, exec (.encoderEdge k ofs a (encIn s k f).b) s = .next t ∧ tallyOf t n = tallyOf s n ∧ (encIn t k f).a = a ∧
        (encIn t k f).rawA = a) ∧
    (∀ (s : State) (k f n : Fin 4), onEncoder s k f n = true → (encIn s k f).rawA ≠ (encIn s k f).a →
      (encIn s k f).rawB = (encIn s k f).b → passAt f (encIn s k f).atA ≤ clk s + 1 →
      (encIn (filterPass k f s) k f).a = (encIn s k f).rawA ∧ (tallyOf (filterPass k f s) n).pos = (tallyOf s n).pos +
        (if edgeForward (encIn s k f).a (encIn s k f).b (encIn s k f).rawA (encIn s k f).rawB = flag s (TBS_TALLYn_CTRL.INVERT n)
          then -((rd s (TBS_TALLYn_SCALE n)).toNat : Int) else (rd s (TBS_TALLYn_SCALE n)).toNat)) ∧
    (∀ (s : State) (k f n : Fin 4) (ofs : Nat), awake s = true → onEncoder s k f n = true → fld s (TBS_TALLYn_CTRL.Z_MODE n) ≠ 0 →
      ∃ z t, z = filtersPass (atOfs ofs s) ∧ exec (.tallyZ ⟨k, f⟩ ofs) s = .next t ∧ Posted 134 s t ∧
        flag t (TBS_TALLYn_STATUS.Z_SEEN n) = true ∧
        rdPair t (TBS_TALLYn_ZLATCH_LO n) (TBS_TALLYn_ZLATCH_HI n) = unsignedOf 48 (tallyAt z n (now z) (now z)) ∧
        fld t (TBS_TALLYn_CTRL.Z_MODE n) = (if fld s (TBS_TALLYn_CTRL.Z_MODE n) = 3 then 1 else fld s (TBS_TALLYn_CTRL.Z_MODE n)) ∧
        (tallyOf t n).pos = (tallyOf z n).pos) ∧
    (∀ (s : State) (n : Fin 4), isPending s (TBS_TALLYn_CMD n) = false → flag s (TBS_TALLYn_CTRL.EN n) = true →
      ∃ t, exec (.preset n) s = .next t ∧ isPending t (TBS_TALLYn_CMD n) = true ∧ t.tbs = s.tbs ∧
        t.accepted = tins (tdrop s.accepted (TBS_TALLYn_CMD n)) (TBS_TALLYn_CMD n) ⟨s.bnd, tick s, clk s, 1⟩) ∧
    ∀ (s : State) (n : Fin 4), zPresetDue s n = true ∨ presetCmdDue s n = true → ∃ t, exec (.tallyPresetApply n) s = .next t ∧
      flag t (TBS_TALLYn_STATUS.STEP n) = true ∧ (tallyOf t n).atB = presetOf s n ∧ now t = now s ∧
      (presetCmdDue s n = true → isPending t (TBS_TALLYn_CMD n) = false ∧ fld t (TBS_TALLYn_CMD.STATUS n) = 0) ∧
      ∀ m, m ≠ n.val → tallyOf t m = tallyOf s m

/-- The first broadcast of its stream locks a waiting remote Tally to its address and gives its position (R54, R55); one from another
address is ignored, sets FOREIGN and is posted (R55); silence leads to COASTING and then to LOST, with velocity zero (R56). The mains
tracker starts in ACQUIRE with coordinate 0; a crossing (an edge of MAINS_IN, or the one found in the codes of the channel) with a period in range measures the frequency, one out of range sets
OUT_OF_RANGE, and the loss of the mains enters HOLDOVER at the last frequency, TBS_MAINS_FREQ showing the preset (R59, R60, R145). -/
def Obligations.RemoteTallyAndMains : Prop :=
  (∀ (s : State) (n : Fin 4) (stream : Fin 16) (addr : Fin 1024) (p v : Int) (tb : Nat), awake s = true → tallySrc s n = 2 →
      fld s (TBS_TALLYn_CTRL.STREAM n) = stream → flag s (TBS_TALLYn_SOURCE.VALID n) = false → fld s (TBS_TALLYn_STATUS.STATE n) = 4 →
      ∃ t, exec (.tallyFrameReceive stream addr p v tb) s = .next t ∧ flag t (TBS_TALLYn_SOURCE.VALID n) = true ∧
        fld t (TBS_TALLYn_SOURCE.ADDR n) = addr ∧ fld t (TBS_TALLYn_STATUS.STATE n) = 1 ∧ (tallyOf t n).pos = p * 65536 ∧
        (tallyOf t n).te = tb ∧ (tallyOf t n).vel = v ∧ (tallyOf t n).heard = tick s) ∧
    (∀ (s : State) (n : Fin 4) (stream : Fin 16) (addr : Fin 1024) (p v : Int) (tb : Nat), awake s = true → tallySrc s n = 2 →
      fld s (TBS_TALLYn_CTRL.STREAM n) = stream → flag s (TBS_TALLYn_SOURCE.VALID n) = true → fld s (TBS_TALLYn_SOURCE.ADDR n) ≠ addr →
      ∃ t, exec (.tallyFrameReceive stream addr p v tb) s = .next t ∧ flag t (TBS_TALLYn_STATUS.FOREIGN n) = true ∧ Posted 136 s t ∧
        tallyOf t n = tallyOf s n ∧ fld t (TBS_TALLYn_SOURCE.ADDR n) = fld s (TBS_TALLYn_SOURCE.ADDR n)) ∧
    (∀ (s : State) (n : Fin 4), awake s = true → silentFor s n 1 4 = true → ∃ t, exec (.tallyCoasting n) s = .next t ∧
      fld t (TBS_TALLYn_STATUS.STATE n) = 2 ∧ t.tbs = s.tbs) ∧
    (∀ (s : State) (n : Fin 4), awake s = true → silentFor s n 2 8 = true → ∃ t, exec (.tallyLost n) s = .next t ∧
      fld t (TBS_TALLYn_STATUS.STATE n) = 3 ∧ (tallyOf t n).vel = 0 ∧ (tallyOf t n).adj = 0 ∧ Posted 137 s t ∧
      ∀ m, m ≠ n.val → tallyOf t m = tallyOf s m) ∧
    (∀ s : State, flag s TBS_MAINS_CTRL.EN = false → ∃ t, exec (.mainsEnable true) s = .next t ∧ flag t TBS_MAINS_CTRL.EN = true ∧
      fld t TBS_MAINS_STATUS.STATE = 1 ∧ mainsAt t (now t) = 0 ∧ now t = now s) ∧
    (∀ (s : State) (ofs : Nat) (t0 t1 : Int), awake s = true → flag s TBS_MAINS_CTRL.EN = true → s.tbs.mains.crossed = some t0 → t0 < t1 →
      (if flag s TBS_MAINS_CTRL.SRC then s.tbs.mains.found else some (now (atOfs ofs s) : Int)) = some t1 →
      ∃ t, exec (.mainsCrossing ofs) s = .next t ∧ t.tbs.mains.crossed = some t1 ∧
        (47 * 65536 ≤ freqOf (t1 - t0).toNat → freqOf (t1 - t0).toNat ≤ 63 * 65536 →
          t.tbs.mains.freq = freqOf (t1 - t0).toNat ∧ s.tbs.mains.coord ≤ t.tbs.mains.coord) ∧
        (freqOf (t1 - t0).toNat < 47 * 65536 ∨ 63 * 65536 < freqOf (t1 - t0).toNat →
          flag t TBS_MAINS_STATUS.OUT_OF_RANGE = true ∧ t.tbs.mains.freq = s.tbs.mains.freq)) ∧
    ∀ s : State, awake s = true → mainsLostDue s = true → ∃ t, exec .mainsLost s = .next t ∧ fld t TBS_MAINS_STATUS.STATE = 3 ∧ Posted 139 s t ∧ fld t TBS_MAINS_FREQ.FREQ = mainsPreset s ∧
      t.tbs.mains.freq = s.tbs.mains.freq ∧ t.tbs.mains.coord = s.tbs.mains.coord

/-- Enabling an entry makes it WAITING, or, in a reserved space, refuses it with SL_BAD (R70, R73); a chain member is not ordered (R63); disabling removes it (R73); a word of a
disabled entry is written as it is; the two commands of TBS_SL_CMD clear EN in the entries concerned, a reserved space being a bad
target (R63, R402). A due one-shot entry is taken with its crossing time, and acts at a boundary not before it (R62, R65). A POST_EVENT
action posts its event (R64). -/
def Obligations.StartListEntries : Prop :=
  (∀ (s : State) (en : Bool), ∃ t, exec (.startListEnable en) s = .next t ∧ flag t TBS_SL_CTRL.EN = en ∧ now t = now s) ∧
    (∀ (s : State) (n : Fin 2048), flag s TBS_SL_CTRL.EN = false → slEn s n = false → slLinked s n = false → slSpace s n < 6 →
      (∀ q ∈ s.tbs.sl.taken, q.n ≠ n.val) → ∃ t, exec (.slEntryEnable n) s = .next t ∧ slEn t n = true ∧ slState t n = 1 ∧
        n.val ∈ t.tbs.sl.wait ∧ flag t (slFld n 0 11 1) = false ∧ slValue t n = slValue s n) ∧
    (∀ (s : State) (n : Fin 2048), slEn s n = false → slLinked s n = false → 6 ≤ slSpace s n → fld s TBS_SL_BAD.COUNT < 2 ^ 32 - 1 →
      ∃ t, exec (.slEntryEnable n) s = .next t ∧ slEn t n = false ∧ slState t n = 4 ∧ Posted 142 s t ∧
        fld t TBS_SL_BAD.COUNT = fld s TBS_SL_BAD.COUNT + 1 ∧ n.val ∉ t.tbs.sl.wait ∧ t.tbs.sl.taken = s.tbs.sl.taken ∧
        (∀ m, m ≠ n.val → (m ∈ t.tbs.sl.wait ↔ m ∈ s.tbs.sl.wait)) ∧ t.tbs.tally = s.tbs.tally ∧ t.tbs.pacer = s.tbs.pacer) ∧
    (∀ (s : State) (n : Fin 2048), slEn s n = false → slLinked s n = true → ∃ t, exec (.slEntryEnable n) s = .next t ∧
      slEn t n = true ∧ n.val ∉ t.tbs.sl.wait ∧ t.tbs.sl.taken = s.tbs.sl.taken) ∧
    (∀ (s : State) (n : Fin 2048), slEn s n = true → ∃ t, exec (.slEntryDisable n) s = .next t ∧ slEn t n = false ∧
      n.val ∉ t.tbs.sl.wait ∧ slState t n = (if slState s n = 1 then 0 else slState s n) ∧ t.tbs.sl.taken = s.tbs.sl.taken) ∧
    (∀ (s : State) (n : Fin 2048) (k : Fin 7) (w : Word), Settled s → slEn s n = false → ∃ t, exec (.slEntryRewrite n k w) s = .next t ∧
      rd t (slAddr n (4 + k * 4)) = ((rd s (slAddr n (4 + k * 4)) &&& ~~~ slMask (4 + k * 4)) ||| (w &&& slMask (4 + k * 4))) ∧
      (∀ a, a ≠ slAddr n (4 + k * 4) → rd t a = rd s a) ∧ ∀ k, same k s t) ∧
    (∀ (s : State) (space : Fin 16), Inv s → space.val < 6 → ∃ t, exec (.disableSpace space) s = .next t ∧
      fld t TBS_SL_CMD.STATUS = 0 ∧ ∀ n : Fin 2048, slSpace s n = space.val → slLinked s n = false → slEn t n = false) ∧
    (∀ (s : State) (space : Fin 16), 6 ≤ space.val → ∃ t, exec (.disableSpace space) s = .next t ∧ fld t TBS_SL_CMD.STATUS = 3 ∧
      t.tbs = s.tbs ∧ ∀ n : Fin 2048, slEn t n = slEn s n) ∧
    (∀ s : State, Inv s → ∃ t, exec .disableAll s = .next t ∧ fld t TBS_SL_CMD.STATUS = 0 ∧ ∀ n : Fin 2048, slEn t n = false) ∧
    (∀ (s : State) (n : Fin 2048) (ofs : Nat), flag s TBS_SL_CTRL.EN = true → n.val ∈ s.tbs.sl.wait →
      (∀ q ∈ s.tbs.sl.lateFrom, q.1 ≠ n.val) → slDue (atOfs ofs s) n = true → slPeriodic s n = false → slAction s n ≠ 8 →
      ∃ t, exec (.slTake n ofs) s = .next t ∧ slState t n = 2 ∧ n.val ∉ t.tbs.sl.wait ∧
        ∃ q ∈ t.tbs.sl.taken, q.n = n.val ∧ q.cross = slCross (atOfs ofs s) n ∧
          q.eff = max (slBnd s (lapAtOrAfter q.cross)) (s.bnd + 1) ∧ q.late = false) ∧
    ∀ (s : State) (ofs i : Nat) (q : Taken), slNextAct (atOfs ofs s) = some i → s.tbs.sl.taken[i]? = some q → slActing s q = 6 →
      (rd s (slAddr q.idx 0x14)).toNat < 128 → ∃ t, exec (.slActionEffect ofs) s = .next t ∧
        Posted (rd s (slAddr q.idx 0x14)).toNat s t ∧ t.mem = s.mem ∧ t.out = s.out

/-- EXC_APPLY with the die up, no named bank tripped and no APPLY pending is accepted; with an empty mask it is done at once; with the die
down it is refused (R87). After its ramp a driver enters SETTLE for EXC_CFG.SETTLE laps, and then ON, or OFF after a change to OFF
(R88). At a reversal the polarity and the driven level change sign, and the first K laps are blank (R90, R91); they end in ON. -/
def Obligations.ExcitationChanges : Prop :=
  (∀ (s : State) (mask : BitVec 16), Settled s → anaUp s = true → isPending s AFE_EXC_APPLY = false → mask ≠ 0 →
      (∀ b < 16, mask.getLsbD b = true → nbit (fld s AFE_STATUS.TRIPPED) b = false) →
      ∃ t, exec (.excApply mask) s = .next t ∧ isPending t AFE_EXC_APPLY = true ∧ t.afe = s.afe ∧
        t.accepted = tins (tdrop s.accepted AFE_EXC_APPLY) AFE_EXC_APPLY ⟨s.bnd, tick s, clk s, w32 mask.toNat⟩ ∧
        ∀ a, a ≠ AFE_EXC_APPLY → rd t a = rd s a) ∧
    (∀ s : State, anaUp s = true → isPending s AFE_EXC_APPLY = false → ∃ t, exec (.excApply 0) s = .next t ∧
      fld t ⟨AFE_EXC_APPLY, 24, 8⟩ = 0 ∧ isPending t AFE_EXC_APPLY = false ∧ t.afe = s.afe) ∧
    (∀ (s : State) (mask : BitVec 16), anaUp s = false → ∃ t, exec (.excApply mask) s = .next t ∧
      fld t ⟨AFE_EXC_APPLY, 24, 8⟩ = 1 ∧ Posted 238 s t ∧ t.afe = s.afe ∧ t.accepted = s.accepted) ∧
    (∀ (s : State) (b : Fin 16), Settled s → excState s b = 1 → (bankOf s b).ramp = 0 → ∃ t, exec (.excRampEnd b) s = .next t ∧
      excState t b = 2 ∧ bankOf t b = { bankOf s b with settle := fld s (AFE_BANKb_EXC_CFG.SETTLE b), level := (bankOf s b).target } ∧
      (∀ a, a ≠ AFE_BANKb_STATUS b → rd t a = rd s a) ∧ ∀ d, d ≠ b.val → bankOf t d = bankOf s d) ∧
    (∀ (s : State) (b : Fin 16), Settled s → excState s b = 2 → (bankOf s b).settle = 0 → ∃ t, exec (.excSettleEnd b) s = .next t ∧
      excState t b = (if (bankOf s b).mode = 0 then 0 else if 0 < (bankOf s b).blank then 5 else 3) ∧
      (∀ a, a ≠ AFE_BANKb_STATUS b → rd t a = rd s a) ∧ ∀ k, same k s t) ∧
    (∀ (s : State) (b : Fin 16), Settled s → reversalDue s b = true → ∃ t, exec (.excReversal b) s = .next t ∧
      (bankOf t b).neg = (!(bankOf s b).neg) ∧ (bankOf t b).target = -(bankOf s b).target ∧
      flag t (AFE_BANKb_STATUS.REV_POL b) = (!(bankOf s b).neg) ∧
      (bankOf t b).blank = max (fld s (AFE_BANKb_EXC_CFG.REV_BLANK b))
        (if (bankOf s b).mode = 2 then 21 else (2 * (bankOf s b).target.natAbs + 6399) / 6400) ∧
      (excState s b = 3 → 0 < (bankOf t b).blank → excState t b = 5) ∧ (∀ a, a ≠ AFE_BANKb_STATUS b → rd t a = rd s a) ∧
      ∀ d, d ≠ b.val → bankOf t d = bankOf s d) ∧
    ∀ (s : State) (b : Fin 16), Settled s → excState s b = 5 → (bankOf s b).blank = 0 → ∃ t, exec (.excBlankEnd b) s = .next t ∧
      excState t b = 3 ∧ (∀ a, a ≠ AFE_BANKb_STATUS b → rd t a = rd s a) ∧ ∀ k, same k s t

/-- A driver that enters its current limit sets EXC_LIMIT and posts AFE_EXC_LIMIT; after 1 024 consecutive laps of it the driver trips:
TRIPPED, its bit in AFE_STATUS, AFE_EXC_TRIP, nothing driven (R93, R108). RESET_TRIP of a tripped bank is accepted. The sense check
sets SNS_FAULT and posts AFE_SNS_FAULT after 1 024 low laps; its condition clears after 1 024 good ones and leaves the bit (R94). A
temperature result is written to TTEMP; an open or shorted one leaves TTEMP, sets TT_FAULT and is posted (R101). -/
def Obligations.ExcitationLimitsAndSensors : Prop :=
  (∀ (s : State) (b : Fin 16), driving s b = true → (bankOf s b).limiting = false → ∃ t, exec (.afeExcLimit b) s = .next t ∧
      flag t (AFE_BANKb_STATUS.EXC_LIMIT b) = true ∧ Posted 146 s t ∧
      bankOf t b = { bankOf s b with limiting := true, limitLaps := 0 } ∧ excState t b = excState s b) ∧
    (∀ (s : State) (b : Fin 16), driving s b = true → 1024 ≤ (bankOf s b).limitLaps → ∃ t, exec (.afeExcTrip b) s = .next t ∧
      excState t b = 4 ∧ nbit (fld t AFE_STATUS.TRIPPED) b = true ∧ Posted 147 s t ∧ (bankOf t b).level = 0 ∧ (bankOf t b).ramp = 0 ∧
      (∀ d < 16, d ≠ b.val → nbit (fld t AFE_STATUS.TRIPPED) d = nbit (fld s AFE_STATUS.TRIPPED) d) ∧
      rd t (AFE_BANKb_EXC_ACTIVE b) = rd s (AFE_BANKb_EXC_ACTIVE b)) ∧
    (∀ (s : State) (b : Fin 16), isPending s (AFE_BANKb_CMD b) = false → nbit (fld s AFE_STATUS.TRIPPED) b = true →
      ∃ t, exec (.resetTrip b) s = .next t ∧ isPending t (AFE_BANKb_CMD b) = true ∧ t.afe = s.afe ∧
        t.accepted = tins (tdrop s.accepted (AFE_BANKb_CMD b)) (AFE_BANKb_CMD b) ⟨s.bnd, tick s, clk s, 1⟩) ∧
    (∀ (s : State) (b : Fin 16), (bankOf s b).snsBad = false → 1024 ≤ (bankOf s b).snsLow → ∃ t, exec (.afeSnsFault b) s = .next t ∧
      flag t (AFE_BANKb_STATUS.SNS_FAULT b) = true ∧ (bankOf t b).snsBad = true ∧ Posted 148 s t) ∧
    (∀ (s : State) (b : Fin 16), Settled s → (bankOf s b).snsBad = true → 1024 ≤ (bankOf s b).snsHigh →
      ∃ t, exec (.snsFaultClear b) s = .next t ∧ bankOf t b = { bankOf s b with snsBad := false } ∧ t.regs = s.regs) ∧
    (∀ (s : State) (b : Fin 16) (temp : Int), Settled s → anaUp s = true → (bankOf s b).ttAt ≤ tick s →
      ∃ t, exec (.ttempUpdate b temp false) s = .next t ∧ sfld t (AFE_BANKb_TTEMP.TEMP b) = satSigned 16 temp ∧
        (bankOf t b).ttBad = false ∧ (bankOf t b).ttAt = tick s + 1024 ∧ ∀ a, a ≠ AFE_BANKb_TTEMP b → rd t a = rd s a) ∧
    ∀ (s : State) (b : Fin 16) (temp : Int), anaUp s = true → (bankOf s b).ttAt ≤ tick s → (bankOf s b).ttBad = false ∨ flag s (AFE_BANKb_STATUS.TT_FAULT b) = false →
      ∃ t, exec (.ttempUpdate b temp true) s = .next t ∧ flag t (AFE_BANKb_STATUS.TT_FAULT b) = true ∧ Posted 149 s t ∧
        rd t (AFE_BANKb_TTEMP b) = rd s (AFE_BANKb_TTEMP b) ∧ (bankOf t b).ttBad = true

/-- OPEN is set once a channel with burn-out connected has been at or beyond THR for PERSIST laps, and ends after PERSIST laps below it
(R98). A window write takes effect at the next boundary, with CMX clear from there (R99); one
under LOCK, or that changes nothing, has no effect (R8). A level change of PLUG_DET_N restarts its
count; a confirmed unplug and re-plug set the status bits of AFE_PLUG_STATUS and of the bank and post their events, and clearing EN of an
unplugged bank makes the re-plug due (R102 to R104). -/
def Obligations.OpenWindowAndPlug : Prop :=
  (∀ (s : State) (c : Fin 256), Settled s → burnOut s c = true → isOpen s c = false → openPersist s ≤ (chanOf s c).openRun →
      ∃ t, exec (.openSet c) s = .next t ∧ isOpen t c = true ∧ (∀ d < 256, d ≠ c.val → isOpen t d = isOpen s d) ∧ t.afe = s.afe) ∧
    (∀ (s : State) (c : Fin 256), Settled s → isOpen s c = true → openPersist s ≤ (chanOf s c).closeRun →
      ∃ t, exec (.openClear c) s = .next t ∧ isOpen t c = false ∧ (∀ d < 256, d ≠ c.val → isOpen t d = isOpen s d) ∧ t.afe = s.afe) ∧
    (∀ (s : State) (b : Fin 16) (hys : Bool) (v : Word), Settled s →
      let a := if hys then AFE_BANKb_CMHYS b else AFE_BANKb_CMWIN b
      let w := if hys then v &&& 0x3FF else v
      (flag s AFE_CTRL.LOCK = false → w ≠ heldNext s a → ∃ t, exec (.cmwinWrite b hys v) s = .next t ∧
        t.nextRegs = s.nextRegs ++ [(a, w)] ∧ bankOf t b = { bankOf s b with cmClear := true } ∧ t.regs = s.regs) ∧
      (flag s AFE_CTRL.LOCK = true ∨ w = heldNext s a → exec (.cmwinWrite b hys v) s = .next s)) ∧
    (∀ (s : State) (b : Fin 16) (high : Bool), Settled s → awake s = true → (bankOf s b).plugPin ≠ high → ∃ t, exec (.plugDetEdge b high) s = .next t ∧
      bankOf t b = { bankOf s b with plugPin := high, plugRun := 0 } ∧ t.regs = s.regs) ∧
    (∀ (s : State) (b : Fin 16), plugDue s b = true → unplugged s b = false → ∃ t, exec (.afePlugOut b) s = .next t ∧
      unplugged t b = true ∧ flag t ⟨AFE_PLUG_STATUS, 16 + b, 1⟩ = true ∧ flag t (AFE_BANKb_STATUS.PLUGGED b) = false ∧ Posted 144 s t ∧
      rd t (AFE_BANKb_EXC_ACTIVE b) = rd s (AFE_BANKb_EXC_ACTIVE b) ∧
      (flag s (AFE_BANKb_PLUG.EXC_OFF b) = true → anaUp s = true → excState s b ≠ 4 → excState t b = 1 ∧ (bankOf t b).mode = 0)) ∧
    (∀ (s : State) (b : Fin 16), plugDue s b = true → unplugged s b = true → ∃ t, exec (.afePlugIn b) s = .next t ∧
      unplugged t b = false ∧ flag t ⟨AFE_PLUG_STATUS, 16 + b, 1⟩ = true ∧ flag t (AFE_BANKb_STATUS.PLUGGED b) = true ∧ Posted 145 s t ∧
      fld s (AFE_BANKb_PLUG.SETTLE b) * 1024 ≤ (bankOf t b).plugStl) ∧
    ∀ (s : State) (b : Fin 16), Settled s → flag s AFE_CTRL.LOCK = false → flag s (AFE_BANKb_PLUG.EN b) = true → unplugged s b = true →
      ∃ t, exec (.plugEnClear b) s = .next t ∧ flag t (AFE_BANKb_PLUG.EN b) = false ∧ (bankOf t b).plugClear = true ∧
        unplugged t b = true ∧ ∀ a, a ≠ AFE_BANKb_PLUG b → rd t a = rd s a

/-- BUF_EN starts and stops the reference buffer, which is ready after 1 024 good laps and faulty after 16 bad ones (R117, R119). PAUSE,
RESUME and READMIT are accepted in their states, BUSY while one is pending, refused elsewhere, and READMIT of a slice that is not retired
is a bad target (R126, R135). A skew command follows the table of R128; at its end the skews of the masked banks are within 1 000 ps
(16 000 sixteenths), the others keep their values, and CNV_SKEW_DONE is posted. -/
def Obligations.CalibrationCommands : Prop :=
  (∀ (s : State) (en : Bool), Settled s → flag s CNV_REF_CTRL.BUF_EN = !en → ∃ t, exec (.bufEnWrite en) s = .next t ∧
      flag t CNV_REF_CTRL.BUF_EN = en ∧ t.cnv = { s.cnv with okRun := 0, badRun := 0, bufLow := s.cnv.bufLow || !en } ∧ ∀ a, a ≠ CNV_REF_CTRL → rd t a = rd s a) ∧
    (∀ s : State, flag s CNV_REF_CTRL.BUF_EN = true → anaUp s = true → refReady s = false → 1024 ≤ s.cnv.okRun →
      ∃ t, exec .cnvRefReady s = .next t ∧ refReady t = true ∧ Posted 152 s t ∧ RegsOutside CNV_STATUS CNV_REF_CTRL s t) ∧
    (∀ s : State, refReady s = true → 16 ≤ s.cnv.badRun → ∃ t, exec .cnvRefFault s = .next t ∧ refReady t = false ∧
      flag t CNV_STATUS.REF_FAULT = true ∧ Posted 153 s t ∧ RegsOutside CNV_STATUS CNV_REF_CTRL s t) ∧
    (∀ (s : State) (en : Bool), Settled s → flag s CNV_CAL_CTRL.EN = !en → ∃ t, exec (.calEnWrite en) s = .next t ∧
      flag t CNV_CAL_CTRL.EN = en ∧ t.cnv = { s.cnv with startDue := en, stopDue := !en } ∧ ∀ a, a ≠ CNV_CAL_CTRL → rd t a = rd s a) ∧
    (∀ s : State, Settled s → ∃ t, exec .pause s = .next t ∧ t.cnv = s.cnv ∧
      if isPending s CNV_CAL_CMD then Answered CNV_CAL_CMD 2 s t
      else if calState s = 1 ∨ calState s = 2 then Accepted CNV_CAL_CMD 1 s t else Refused CNV_CAL_CMD s t) ∧
    (∀ s : State, Settled s → ∃ t, exec .calResume s = .next t ∧ t.cnv = s.cnv ∧
      if isPending s CNV_CAL_CMD then Answered CNV_CAL_CMD 2 s t
      else if calState s = 3 then Accepted CNV_CAL_CMD 2 s t else Refused CNV_CAL_CMD s t) ∧
    (∀ (s : State) (slice : Fin 32), Settled s → ∃ t, exec (.readmit slice) s = .next t ∧ t.cnv = s.cnv ∧
      if isPending s CNV_CAL_CMD then Answered CNV_CAL_CMD 2 s t
      else if calState s ≠ 5 then Refused CNV_CAL_CMD s t
      else if slice.val < 17 ∧ roleOf s slice = 3 then Accepted CNV_CAL_CMD (w32 (slice.val * 256 + 3)) s t
      else Answered CNV_CAL_CMD 3 s t) ∧
    (∀ (s : State) (banks : BitVec 16), Settled s → ∃ t, exec (.skewCmd banks) s = .next t ∧ t.cnv = s.cnv ∧
      if refReady s = false ∨ anaUp s = false then Refused CNV_SKEW_CMD s t
      else if isPending s CNV_SKEW_CMD then Answered CNV_SKEW_CMD 2 s t
      else if banks = 0 then Ended CNV_SKEW_CMD 0 t ∧ RegsOutside CNV_SKEW_CMD CNV_SKEW_CMD.succ s t
      else Accepted CNV_SKEW_CMD (w32 banks.toNat) s t) ∧
    ∀ s : State, s.cnv.skewMask ≠ 0 → s.cnv.skewLeft = 0 → ∃ t, exec .cnvSkewDone s = .next t ∧ t.cnv.skewMask = 0 ∧
      Ended CNV_SKEW_CMD 0 t ∧ Posted 158 s t ∧ ∀ c < 256,
        (nbit s.cnv.skewMask (c / 16) = true → (sfld t (CNV_SKEWc.SKEW c)).natAbs ≤ 16000) ∧
        (nbit s.cnv.skewMask (c / 16) = false → rd t (CNV_SKEWc c) = rd s (CNV_SKEWc c) ∧ rd t (CNV_EOc c) = rd s (CNV_EOc c))

/-- At the end of an epoch the spare joins the target bank for an overlap (R121). At the end of the overlap, too few usable pairs extend it
up to three times, a difference within the limits hands the bank over with the trim that cancels it, one beyond them is a match failure
of the spare or, where the outgoing slice is strictly worse, a hand-over with trim 0 (R122, R123); the third failure in a row retires
the spare (R124). A tracking block moves a gain word by no more than the 0.05 LSB16 allow, leaves slices out of service alone and all of them in PAUSED
(R133), and marks a slice beyond the limit TRACK_FAULT and SUSPECT (R125). -/
def Obligations.CalibrationSteps : Prop :=
  (∀ s : State, Settled s → calRuns s = true → calState s = 1 → 65536 ≤ calCount s → spareOf s < 17 →
      ∃ t, exec .calEpochEnd s = .next t ∧ calState t = 2 ∧ t.cnv = { s.cnv with measured := true, ext := 0, pairs := {} } ∧
      calCount t = 65536 ∧ roleOf t (spareOf s) = 2 ∧ spareOf t = spareOf s ∧ targetOf t = targetOf s ∧
      (∀ b < 16, sliceOf t b = sliceOf s b) ∧ (∀ sl < 17, sl ≠ spareOf s → roleOf t sl = roleOf s sl) ∧
      rd t (CNV_SLICEs_GAIN (spareOf s)) = Config.epochCoef (s.fresh + 12) 12) ∧
    (∀ (s : State) (b : Fin 16), targetOf s = b → Settled s → calRuns s = true → calState s = 2 → stepLaps s ≤ calCount s → s.cnv.pairs.n < 8192 → s.cnv.ext < 3 →
      ∃ t, exec (.cnvHandover b) s = .next t ∧ t.cnv = { s.cnv with ext := s.cnv.ext + 1 } ∧ ∀ a, rd t a = rd s a) ∧
    (∀ (s : State) (b : Fin 16), targetOf s = b → calRuns s = true → calState s = 2 → stepLaps s ≤ calCount s → 8192 ≤ s.cnv.pairs.n → fitGood s.cnv.pairs = true →
      spareOf s < 17 → sliceOf s (targetOf s) < 17 → sliceOf s (targetOf s) ≠ spareOf s →
      s.cnv.suspects = [] → targetOf s = s.cnv.norm →
      ∃ t, exec (.cnvHandover b) s = .next t ∧ sliceOf t (targetOf s) = spareOf s ∧ spareOf t = sliceOf s (targetOf s) ∧
        (∀ b < 16, b ≠ targetOf s → sliceOf t b = sliceOf s b) ∧ roleOf t (spareOf s) = 0 ∧ roleOf t (spareOf t) = 1 ∧
        calState t = 1 ∧ calCount t = 0 ∧ targetOf t = (targetOf s + 1) % 16 ∧ fld t (CNV_SLICEs_STATUS.FAILS (spareOf s)) = 0 ∧
        (let g := fitGain s.cnv.pairs
         let o := fitOffset s.cnv.pairs
         sfld t (CNV_SLICEs_TRIM_OFS.VALUE (spareOf s)) = satSigned 32 (divHalfEven (-o.1 * g.2 * 4096) (o.2 * (g.1 + g.2))) ∧
         sfld t (CNV_SLICEs_TRIM_GAIN.VALUE (spareOf s)) = satSigned 32 (divHalfEven (-g.1 * 2147483648) (g.1 + g.2))) ∧
        fld t CNV_ROTATIONS.COUNT = (fld s CNV_ROTATIONS.COUNT + 1) % 2 ^ 32 ∧ t.cnv.hoLap = lap s ∧
        nbit t.cnv.hoNow (targetOf s) = true ∧ flag t CNV_HO_INFO.VALID = true ∧ flag t CNV_HO_INFO.UNTRIMMED = false ∧ Posted 154 s t) ∧
    (∀ (s : State) (b : Fin 16), targetOf s = b → calRuns s = true → calState s = 2 → stepLaps s ≤ calCount s → 8192 ≤ s.cnv.pairs.n → fitGood s.cnv.pairs = false →
      s.cnv.pairs.resS < s.cnv.pairs.resO → spareOf s < 17 → sliceOf s (targetOf s) < 17 →
      sliceOf s (targetOf s) ≠ spareOf s → flag s (CNV_SLICEs_STATUS.SUSPECT (sliceOf s (targetOf s))) = false →
      ∃ t, exec (.cnvHandover b) s = .next t ∧ sliceOf t (targetOf s) = spareOf s ∧ spareOf t = sliceOf s (targetOf s) ∧
        sfld t (CNV_SLICEs_TRIM_OFS.VALUE (spareOf s)) = 0 ∧ sfld t (CNV_SLICEs_TRIM_GAIN.VALUE (spareOf s)) = 0 ∧
        flag t CNV_HO_INFO.UNTRIMMED = true ∧ Posted 154 s t ∧ Posted 156 s t) ∧
    (∀ (s : State) (b : Fin 16), targetOf s = b → calRuns s = true → calState s = 2 → stepLaps s ≤ calCount s → spareOf s < 17 →
      s.cnv.pairs.n < 8192 ∧ 3 ≤ s.cnv.ext ∨
        8192 ≤ s.cnv.pairs.n ∧ fitGood s.cnv.pairs = false ∧ s.cnv.pairs.resO ≤ s.cnv.pairs.resS →
      ∃ t, exec (.cnvHandover b) s = .next t ∧ (∀ b < 16, sliceOf t b = sliceOf s b) ∧ targetOf t = targetOf s ∧
        flag t (CNV_SLICEs_STATUS.MATCH_FAIL (spareOf s)) = true ∧ Posted 155 s t ∧
        (fld s (CNV_SLICEs_STATUS.FAILS (spareOf s)) < 2 → calState t = 1 ∧ calCount t = 0 ∧ t.cnv.startDue = true ∧
          fld t (CNV_SLICEs_STATUS.FAILS (spareOf s)) = fld s (CNV_SLICEs_STATUS.FAILS (spareOf s)) + 1) ∧
        (fld s (CNV_SLICEs_STATUS.FAILS (spareOf s)) = 2 → calState t = 5 ∧ roleOf t (spareOf s) = 3 ∧
          flag t CNV_STATUS.NO_SPARE = true ∧ Posted 157 s t)) ∧
    (∀ p : Pairs, fitGood p = true ↔ (fitGain p).1.natAbs * 20000 ≤ (fitGain p).2.natAbs ∧
      (fitOffset p).1.natAbs ≤ 2 * (fitOffset p).2.natAbs) ∧
    ∀ (s : State) (sl : Fin 17) (block : Nat), calRuns s = true → lap s = 1024 * block → s.cnv.trackAt ≠ tick s + 1 →
      ∃ t, exec (.trackingBlockEnd block) s = .next t ∧ t.cnv.trackAt = tick s + 1 ∧ t.cnv.track = [] ∧
        (∀ k < 17, (((rd t (CNV_SLICEs_GAIN k)).toNat : Int) - (rd s (CNV_SLICEs_GAIN k)).toNat).natAbs ≤ 1638 ∧
          (sfld t (CNV_SLICEs_OFS.VALUE k) - sfld s (CNV_SLICEs_OFS.VALUE k)).natAbs ≤ 204 ∧
          (roleOf s k ≠ 0 ∨ calState s = 3 →
            rd t (CNV_SLICEs_GAIN k) = rd s (CNV_SLICEs_GAIN k) ∧ rd t (CNV_SLICEs_OFS k) = rd s (CNV_SLICEs_OFS k)) ∧
          roleOf t k = roleOf s k) ∧
        (roleOf s sl = 0 → (∃ j < 16, (trackOf s sl j).1 * max 1 (fld s CNV_CAL_CTRL.TRACK_LIM) * 256 < (trackOf s sl j).2.natAbs) →
          flag t (CNV_SLICEs_STATUS.TRACK_FAULT sl) = true ∧ flag t (CNV_SLICEs_STATUS.SUSPECT sl) = true ∧
          (flag s (CNV_SLICEs_STATUS.SUSPECT sl) = false → Posted 156 s t)) ∧ ∀ b < 16, sliceOf t b = sliceOf s b

/-- COMMIT and SET_SEQ are BUSY while either is pending; a COMMIT of nothing is done at once; SET_SEQ of a channel that delivers records is
refused (R162, R165). At its boundary a COMMIT copies the shadow of exactly the entries in the mask as it then stands, posts RED_COMMIT
and is done; SET_SEQ loads the sequence number (R155, R162). The record buffer enters stage 1 and stage 2 at 7/8 and 15/16 of its
1 MiB, counted and posted, and leaves them below 3/4; every write of the record path fills it, and RED_BP_FILL shows its fill and its
peak; while the DRAM does not serve, the write waits at its controller, and reads see it (R161, R172, R361). -/
def Obligations.CatalogueAndRecordBuffer : Prop :=
  (∀ (s : State) (curves : Bool), Settled s → ∃ t, exec (.catalogueCommit curves) s = .next t ∧ t.red = s.red ∧
      if isPending s RED_CMD then Answered RED_CMD 2 s t
      else if commitMask s = 0 ∧ curves = false then Ended RED_CMD 0 t ∧ ∀ a, a ≠ RED_CMD → rd t a = rd s a
      else Accepted RED_CMD (w32 (bit curves * 16 + 1)) s t) ∧
    (∀ (s : State) (chan : Fin 256), Settled s → ∃ t, exec (.setSeq chan) s = .next t ∧ t.red = s.red ∧
      if isPending s RED_CMD then Answered RED_CMD 2 s t
      else if outEn s chan then Refused RED_CMD s t
      else Accepted RED_CMD (w32 (chan.val * 256 + 2)) s t) ∧
    (∀ (s : State) (w : Word), dueCmd s RED_CMD = some w → opOf w = 1 → Ended RED_CMD 0 (redCmdBoundary s) ∧
      160 ∈ (redCmdBoundary s).fab.raised ∧ ∀ c < 256, ∀ o ∈ entryWords, catWord (redCmdBoundary s) c o =
        if nbit (commitMask s) c then rd s (catAddr c o) else catWord s c o) ∧
    (∀ (s : State) (w : Word), dueCmd s RED_CMD = some w → opOf w = 2 → outEn s (fget w 8 8) = false →
      Ended RED_CMD 0 (redCmdBoundary s) ∧ (redChan (redCmdBoundary s) (fget w 8 8)).seq = fld s RED_SEQ_VALUE.SEQ ∧
      ∀ c, c ≠ fget w 8 8 → redChan (redCmdBoundary s) c = redChan s c) ∧
    (∀ (s : State) (ofs : Nat), 983040 ≤ s.red.fill → fld s RED_STATUS.BP_STAGE < 2 → ∃ t, exec (.redBp ofs) s = .next t ∧
      fld t RED_STATUS.BP_STAGE = 2 ∧ flag t RED_STATUS.BP_SEEN = true ∧ t.red.fill = s.red.fill ∧
      fld t RED_BP_COUNT.STAGE2 = satNat 16 (fld s RED_BP_COUNT.STAGE2 + 1) ∧
      fld t RED_BP_COUNT.STAGE1 = fld s RED_BP_COUNT.STAGE1 ∧ Posted 164 s t) ∧
    (∀ (s : State) (ofs : Nat), 917504 ≤ s.red.fill → s.red.fill < 983040 → fld s RED_STATUS.BP_STAGE = 0 → ∃ t, exec (.redBp ofs) s = .next t ∧
      fld t RED_STATUS.BP_STAGE = 1 ∧ flag t RED_STATUS.BP_SEEN = true ∧ t.red.fill = s.red.fill ∧
      fld t RED_BP_COUNT.STAGE1 = satNat 16 (fld s RED_BP_COUNT.STAGE1 + 1) ∧
      fld t RED_BP_COUNT.STAGE2 = fld s RED_BP_COUNT.STAGE2 ∧ Posted 164 s t) ∧
    (∀ (s : State) (ofs : Nat), ∃ t, exec (.bpStageExit ofs) s = .next t ∧
      t.red = { s.red with fill := t.red.fill } ∧ t.red.fill ≤ s.red.fill ∧ (dmcState s ≠ 2 → t.red.fill = s.red.fill) ∧
      (Settled s → waiting s = [] → fld t RED_STATUS.BP_STAGE = (if t.red.fill < 786432 then 0 else fld s RED_STATUS.BP_STAGE) ∧
        fld s RED_BP_FILL.PEAK ≤ fld t RED_BP_FILL.PEAK ∧
        (∀ a, a ≠ RED_STATUS → a ≠ RED_BP_FILL → a ≠ DMC_OUTSTANDING → rd t a = rd s a) ∧
        ∀ k, k ≠ .red → k ≠ .fresh → same k (atOfs ofs s) t)) ∧
    ∀ (s : State) (a : Nat) (bs : List Byte), dmcState s ≠ 2 → dmcState s ≠ 3 → bs ≠ [] → a % 64 + bs.length ≤ 64 →
      ∃ t, captureWrite a bs s = t ∧ t.red.fill = s.red.fill + bs.length ∧
        fld t RED_BP_FILL.FILL = min ((t.red.fill + 63) / 64) 16384 ∧
        fld t RED_BP_FILL.PEAK = max (fld t RED_BP_FILL.FILL) (fld s RED_BP_FILL.PEAK) ∧
        (isDram s a = true → t.mem = s.mem ∧ (waiting s = [] → ∀ i < bs.length, mseen t (a + i) = bs.getD i 0))

/-- A lap boundary moves line time to the next point of the lap grid; in REST the Pacer alone goes on, and with the clocks stopped
nothing but the always-on timer (R37, R417, R418). A lap frame is taken once, and its codes are corrected with the coefficients of its
own lap; an uncorrectable or misaligned one repeats the code before (R24, R115, R409). RECORD_DELIVERY uses up the laps whose codes are
all on the die (R141); a record takes its sequence number and replaces the tap (R155, R156). A command that was due and could not act ends
with ABORTED (R467). -/
def Obligations.LapAndItsCodes : Prop :=
  (∀ (s : State) (inp : LapIn), s.pwr.held = false → powerState s < 2 → ∃ t, exec (.lapBoundary inp) s = .next t ∧
      t.bnd = (if s.twin.hold = 0 then s.bnd + 1 else s.bnd) ∧ t.tbs.pacer.time = lapStart (lap s + 1) ∧ t.tbs.pacer.ofs = 0 ∧
      lap t = lap s + 1) ∧
    (∀ (s : State) (inp : LapIn), s.pwr.held = false → powerState s = 2 → ∃ t, exec (.lapBoundary inp) s = .next t ∧
      t.bnd = s.bnd + 1 ∧ t.tbs.pacer.time = lapStart (lap s + 1) ∧ t.mem = s.mem ∧ t.cores = s.cores ∧ t.ctl = s.ctl ∧ t.acq = s.acq ∧
      t.red = s.red ∧ t.cnv = s.cnv ∧ t.wot = s.wot ∧ t.out = s.out ∧ t.tbs.tally = s.tbs.tally) ∧
    (∀ (s : State) (inp : LapIn), s.pwr.held = true ∨ powerState s = 3 → ∃ t, exec (.lapBoundary inp) s = .next t ∧ t.bnd = s.bnd ∧
      t.tbs = { s.tbs with pacer := { s.tbs.pacer with ofs := 0 } } ∧ t.mem = s.mem ∧ t.cores = s.cores ∧
      RegsOutside TOP_AON_TIMER TOP_AON_TIMER.succ s t) ∧
    (∀ (s : State) (f : D2DFrame) (c : Nat), s.lapInfo.got = false → s.lapInfo.up = true → s.hlt.d2dInject = 0 → c < 256 →
      nbit s.lapInfo.neg c = false → nbit s.lapInfo.blank c = false → nbit s.lapInfo.skew (c / 16) = false → c ∉ f.overDiff →
      c ∉ f.overPin → ∃ t, exec (.d2dLapFrameArrival f) s = .next t ∧ t.lapInfo.got = true ∧
        (chanOf t c).code = if f.align ≠ 16 ∨ c / 4 ∈ f.ue then (chanOf s c).code else satCode (correctCode s c (f.codes.getD c 0))) ∧
    (∀ (s : State) (f : D2DFrame), s.lapInfo.got = true ∨ s.lapInfo.up = false → ∃ t, exec (.d2dLapFrameArrival f) s = .next t ∧
      ∀ k, same k s t) ∧
    (∀ s : State, ∃ t, exec .recordDelivery s = .next t ∧ t.red.laps = s.red.laps.filter (fun x => !decide (x.bnd + 2 ≤ s.bnd)) ∧
      t.red.active = s.red.active) ∧
    (∀ (s : State) (cv cat : Tab Word) (c b n : Nat) (sl : Slot), ∃ r t, formRec cv cat c b n sl s = (r, t) ∧ r.chan = c ∧
      r.seq = (redChan s c).seq ∧ (redChan t c).seq = (r.seq + 1) % 2 ^ 24 ∧ (redChan t c).tapValue = r.value ∧
      (redChan t c).tapTag = r.tag ∧ (redChan t c).tapSeq = r.seq ∧ (∀ d, d ≠ c → redChan t d = redChan s d)) ∧
    ∀ (s : State) (a : Nat), Settled s → a ∈ abortable → (dueAt s a).isSome = true → goesOn s a = false →
      ∃ t, exec (.commandAbortedAtBoundary a) s = .next t ∧ Ended a 6 t ∧ t.accepted = tdrop s.accepted a ∧
        ∀ b, b ≠ a → rd t b = rd s b

/-- ARM computes FOLIO_NEED whatever its outcome; it is BUSY while a command is pending, refused unless the ring is STOPPED, answers the first
check that fails, stops on overlapping regions (misuse of R168), and is otherwise accepted (R175). At its boundary the ring is ARMED with
the latency of R183. DISARM and TRIGGER are accepted unless the ring is STOPPED; DISARM stops an ARMED or re-arming ring at its boundary
and truncates an open window there (R175). REARM ends in ARMED (R183). A released slot is freed unless it is being filled (R186). -/
def Obligations.RingCommands : Prop :=
  (∀ (s : State) (r : Fin 64), isPending s (ACQ_RINGr_CMD r) = true → ∃ t, exec (.arm r) s = .next t ∧
      fld t ⟨ACQ_RINGr_CMD r, 24, 8⟩ = 2 ∧ isPending t (ACQ_RINGr_CMD r) = true ∧ t.accepted = s.accepted ∧ t.acq = s.acq ∧
      rd t (ACQ_RINGr_FOLIO_NEED r) = w32 (folioNeed s r)) ∧
    (∀ (s : State) (r : Fin 64), isPending s (ACQ_RINGr_CMD r) = false → ringState s r ≠ 0 → ∃ t, exec (.arm r) s = .next t ∧
      fld t ⟨ACQ_RINGr_CMD r, 24, 8⟩ = 1 ∧ isPending t (ACQ_RINGr_CMD r) = false ∧ t.accepted = s.accepted ∧ t.acq = s.acq ∧
      rd t (ACQ_RINGr_FOLIO_NEED r) = w32 (folioNeed s r) ∧ Posted 238 s t) ∧
    (∀ (s : State) (r : Fin 64) (code : Nat), isPending s (ACQ_RINGr_CMD r) = false → ringState s r = 0 →
      armJudge (armCompute r s) r = some code → ∃ t, exec (.arm r) s = .next t ∧
      fld t ⟨ACQ_RINGr_CMD r, 24, 8⟩ = code ∧ isPending t (ACQ_RINGr_CMD r) = false ∧ t.accepted = s.accepted ∧ t.acq = s.acq ∧
      rd t (ACQ_RINGr_FOLIO_NEED r) = w32 (folioNeed s r)) ∧
    (∀ (s : State) (r : Fin 64), isPending s (ACQ_RINGr_CMD r) = false → ringState s r = 0 → armJudge (armCompute r s) r = none →
      armOverlaps (armCompute r s) r = true → exec (.arm r) s = .fault .misuseOverlap) ∧
    (∀ (s : State) (r : Fin 64), Settled s → isPending s (ACQ_RINGr_CMD r) = false → ringState s r = 0 →
      armJudge (armCompute r s) r = none → armOverlaps (armCompute r s) r = false → ∃ t, exec (.arm r) s = .next t ∧
      isPending t (ACQ_RINGr_CMD r) = true ∧ t.accepted = tins (tdrop s.accepted (ACQ_RINGr_CMD r)) (ACQ_RINGr_CMD r) ⟨s.bnd, tick s, clk s, 1⟩ ∧
      t.acq = s.acq ∧ rd t (ACQ_RINGr_FOLIO_NEED r) = w32 (folioNeed s r) ∧ ∀ a, a ≠ ACQ_RINGr_CMD r → a ≠ ACQ_RINGr_CAPACITY r →
        a ≠ ACQ_RINGr_FOLIO_NEED r → rd t a = rd s a) ∧
    (∀ (s : State) (r : Fin 64), Settled s → ∃ t, exec (.disarm r) s = .next t ∧ t.acq = s.acq ∧
      if isPending s (ACQ_RINGr_CMD r) then Answered (ACQ_RINGr_CMD r) 2 s t
      else if ringState s r = 0 then Refused (ACQ_RINGr_CMD r) s t else Accepted (ACQ_RINGr_CMD r) 2 s t) ∧
    (∀ (s : State) (r : Fin 64), Settled s → ∃ t, exec (.ringTriggerCmd r) s = .next t ∧ t.acq = s.acq ∧
      if isPending s (ACQ_RINGr_CMD r) then Answered (ACQ_RINGr_CMD r) 2 s t
      else if ringState s r = 0 then Refused (ACQ_RINGr_CMD r) s t else Accepted (ACQ_RINGr_CMD r) 3 s t) ∧
    (∀ (s : State) (r : Fin 64) (w : Word), dueCmd s (ACQ_RINGr_CMD r) = some w → opOf w = 1 → (ringOf s r).disarm = false →
      ringState s r = 0 → armJudge s r = none → Ended (ACQ_RINGr_CMD r) 0 (ringCmdBoundary s r) ∧ ringState (ringCmdBoundary s r) r = 1 ∧
      (ringOf (ringCmdBoundary s r) r).armLap = lapD s ∧ (ringOf (ringCmdBoundary s r) r).lmax = ringLatency s r) ∧
    (∀ (s : State) (r : Fin 64) (w : Word), dueCmd s (ACQ_RINGr_CMD r) = some w → opOf w = 2 → (ringOf s r).disarm = false →
      ringState s r = 1 ∨ ringState s r = 4 → Ended (ACQ_RINGr_CMD r) 0 (ringCmdBoundary s r) ∧ ringState (ringCmdBoundary s r) r = 0) ∧
    (∀ (s : State) (r : Fin 64) (w : Word) (f : Folio), dueCmd s (ACQ_RINGr_CMD r) = some w → opOf w = 2 → (ringOf s r).disarm = false →
      ringState s r = 2 → (ringOf s r).folio = some f → f.last = none → ringState (ringCmdBoundary s r) r = 3 ∧
      isPending (ringCmdBoundary s r) (ACQ_RINGr_CMD r) = isPending s (ACQ_RINGr_CMD r) ∧
      ∃ g, (ringOf (ringCmdBoundary s r) r).folio = some g ∧ g.trunc = true ∧ g.close = lapD s ∧ g.last = some (lapD s - 1) ∧
        g.e = bndOfLap s (lapD s - 1 + (ringOf s r).lmax)) ∧
    (∀ (s : State) (r : Fin 64), Settled s → rearmDue s r = true → ∃ t, exec (.rearmEnd r) s = .next t ∧ ringState t r = 1 ∧
      (∀ q : Fin 64, q ≠ r → ringState t q = ringState s q) ∧
      ∀ a, a ≠ ACQ_RINGr_STATUS r → a ≠ ACQ_STATUS → rd t a = rd s a) ∧
    ∀ (s : State) (r : Fin 64) (bits : Word), Settled s → ∃ t, exec (.folioSlotRelease r bits) s = .next t ∧
      (∀ k < 32, nbit (fld t (ACQ_RINGr_SLOTS.BUSY r)) k =
        (nbit (fld s (ACQ_RINGr_SLOTS.BUSY r)) k && !(nbit bits.toNat k && !filling s r k))) ∧
      (∀ a, a ≠ ACQ_RINGr_SLOTS r → rd t a = rd s a) ∧ ∀ k, same k s t

/-- An edge of a trigger input that is selected, spaced and past the hold-off is stamped to the nearest nanosecond, without the filter's
delay, and offered to every ring that selects the pin, with the trigger lap of the stamp; one that is too close or within the hold-off is
counted in ACQ_TRIGIN_LOST and offered to no ring; one that is not selected changes nothing (R176, R177). The rings whose drive caused a
bus edge ignore it (R178). A pulse that has lasted its width ends, and the base level stays (R212); a ring whose drive has lasted its width
releases the bus (R178). -/
def Obligations.TriggerInputsAndPulses : Prop :=
  (∀ (s : State) (p : Fin 8) (ofs delay d : Nat) (high : Bool),
      d = clampNat (filterDelay (fld s (ACQ_TRIGINp_CFG.FILT p))) (filterDelay (fld s (ACQ_TRIGINp_CFG.FILT p)) + 20 * unitsPerNs) delay →
      fld s (ACQ_TRIGINp_CFG.EDGE p) = 2 ∨ high = !decide (fld s (ACQ_TRIGINp_CFG.EDGE p) = 1) →
      (trigInOf s p).last = 0 ∨ (trigInOf s p).last + 100 * unitsPerNs ≤ clk (atOfs ofs s) - d + 1 →
      (trigInOf s p).acc = 0 ∨ (trigInOf s p).acc + fld s (ACQ_TRIGINp_CFG.HOLDOFF p) * lapUnits ≤ clk (atOfs ofs s) - d + 1 →
      awake s = true → s.twin.mirrored = false → s.twin.switchAt = none → ∃ t, exec (.trigInEdge p ofs delay high) s = .next t ∧
        (trigInOf t p).stamp = (divHalfEven ((now (atOfs ofs s) : Int) - d) unitsPerNs).toNat ∧
        (trigInOf t p).acc = clk (atOfs ofs s) - d + 1 ∧ (∀ q : Fin 9, q.val ≠ p.val → trigInOf t q = trigInOf s q) ∧
        ∀ r : Fin 64, nbit (fld s (ACQ_RINGr_SRC.PINS r)) p = true → ∃ o ∈ t.offers, o.ring = r.val ∧ o.src = 1 ∧ o.idx = p.val ∧
          o.stamp = (trigInOf t p).stamp * unitsPerNs ∧ o.tlap = lapAtOrAfter o.stamp ∧ s.bnd < o.reach) ∧
    (∀ (s : State) (p : Fin 8) (ofs : Nat) (high : Bool), Settled s → awake s = true → fld s (ACQ_TRIGINp_CFG.FILT p) = 0 →
      fld s (ACQ_TRIGINp_CFG.EDGE p) = 2 ∨ high = !decide (fld s (ACQ_TRIGINp_CFG.EDGE p) = 1) →
      0 < (trigInOf s p).acc → clk (atOfs ofs s) + 1 < (trigInOf s p).acc + fld s (ACQ_TRIGINp_CFG.HOLDOFF p) * lapUnits →
      ∃ t, exec (.trigInEdge p ofs 0 high) s = .next t ∧
        fld t ACQ_TRIGIN_LOST.COUNT = satNat 32 (fld s ACQ_TRIGIN_LOST.COUNT + 1) ∧ (trigInOf t p).acc = (trigInOf s p).acc ∧
        (trigInOf t p).stamp = (trigInOf s p).stamp ∧ t.offers = s.offers ∧ ∀ a, a ≠ ACQ_TRIGIN_LOST → rd t a = rd s a) ∧
    (∀ (s : State) (p : Fin 8) (ofs delay : Nat) (high : Bool), Settled s → fld s (ACQ_TRIGINp_CFG.EDGE p) ≠ 2 →
      high = decide (fld s (ACQ_TRIGINp_CFG.EDGE p) = 1) → ∃ t, exec (.trigInEdge p ofs delay high) s = .next t ∧ t.acq = s.acq ∧
        t.offers = s.offers ∧ ∀ a, rd t a = rd s a) ∧
    (∀ (s : State) (ofs delay d : Nat),
      d = clampNat (filterDelay (fld s ACQ_BUS_CFG.FILT)) (filterDelay (fld s ACQ_BUS_CFG.FILT) + 20 * unitsPerNs) delay →
      (trigInOf s 8).last = 0 ∨ (trigInOf s 8).last + 100 * unitsPerNs ≤ clk (atOfs ofs s) - d + 1 →
      (trigInOf s 8).acc = 0 ∨ (trigInOf s 8).acc ≤ clk (atOfs ofs s) - d + 1 →
      awake s = true → s.twin.mirrored = false → s.twin.switchAt = none → ∃ t, exec (.trigBusEdge ofs delay) s = .next t ∧ t.out.busOwn = (if edgeOwners (atOfs ofs s) d = [] then s.out.busOwn else []) ∧
        (trigInOf t 8).stamp = (divHalfEven ((now (atOfs ofs s) : Int) - d) unitsPerNs).toNat ∧
        ∀ r : Fin 64, flag s (ACQ_RINGr_SRC.BUS r) = true → r.val ∉ edgeOwners (atOfs ofs s) d → ∃ o ∈ t.offers, o.ring = r.val ∧ o.src = 2 ∧
          o.stamp = (trigInOf t 8).stamp * unitsPerNs ∧ o.tlap = lapAtOrAfter o.stamp ∧ s.bnd < o.reach) ∧
    (∀ (s : State) (j : Fin 4) (ofs : Nat), Settled s → ∃ t, exec (.trigOutPulseEnd j ofs) s = .next t ∧
      t.out = { s.out with pulses := s.out.pulses.filter (fun p => !(decide (p.pin = j.val) && decide (p.stop ≤ clk (atOfs ofs s)))) } ∧
      (∀ a, rd t a = rd s a) ∧ t.offers = s.offers ∧
      ((∀ p ∈ s.out.pulses, p.pin = j.val → p.stop ≤ clk (atOfs ofs s)) → trigLevel t j = trigBase s j) ∧
      ∀ i, i ≠ j.val → trigLevel t i = trigLevel s i) ∧
    ∀ (s : State) (r : Fin 64) (ofs : Nat), Settled s → 0 < tget (fun _ => 0) s.out.bus r →
      tget (fun _ => 0) s.out.bus r ≤ clk (atOfs ofs s) → ∃ t, exec (.trigBusPulseEnd r ofs) s = .next t ∧
        t.out.bus = tdrop s.out.bus r ∧ t.out.pulses = s.out.pulses ∧ ∀ a, rd t a = rd s a

/-- A trigger that reaches an ARMED ring in TRIGGER mode, with a free slot, fixes the window of R180 and puts the ring in POST; in POST it
is nested, in REARM a miss, and without a slot a miss that leaves the ring ARMED (R183). The AUTO timer's trigger is posted and makes a
forced folio (R184). From the trigger on the
items of the window are copied into the slot, at E the rest of the folio is written there and nowhere else, and the ring re-arms or stops
(R183, R187). VALID is the
last write of the folio: the word at 0x04 and nothing else, with ACQ_FOLIO and the ring's event posted (R187). -/
def Obligations.TriggersAndFolios : Prop :=
  (∀ (s : State) (r : Fin 64) (o : Offer) (k : Nat), arrivals s r = [o] → ringState s r = 1 → isWindowRing s r = false → o.opens = false →
      o.closes = false → chooseSlot s r = some (k, false) → ∃ t, exec (.ringTriggerArrival r) s = .next t ∧ ringState t r = 3 ∧
        nbit (fld t (ACQ_RINGr_SLOTS.BUSY r)) k = (decide (k < 32)) ∧
        fld t (ACQ_RINGr_SERIAL.NEXT r) = (fld s (ACQ_RINGr_SERIAL.NEXT r) + 1) % 2 ^ 32 ∧
        (waiting s = [] → s.dmc.latent = [] → s.dmc.inject = none → (isRecordRing s r = true → 0 < shelfSize s r) → ∀ x,
          x < slotAddr s r k + 0x100 ∨ slotAddr s r k + folioNeed s r ≤ x → mseen t x = mseen s x) ∧
        ∃ f, (ringOf t r).folio = some f ∧ f.slot = k ∧ f.serial = fld s (ACQ_RINGr_SERIAL.NEXT r) ∧ f.t = max o.tlap (floorLap s r) ∧
          f.first = max (f.t - fld s (ACQ_RINGr_PRE.LAPS r)) (floorLap s r) ∧
          f.last = some (f.t + max 1 (fld s (ACQ_RINGr_POST.LAPS r)) - 1) ∧ f.stamp = o.stamp ∧ f.src = o.src ∧ f.addr = slotAddr s r k ∧
          f.forced = decide (o.src = 7)) ∧
    (∀ (s : State) (r : Fin 64) (o : Offer), arrivals s r = [o] → ringState s r = 1 → isWindowRing s r = false → o.opens = false →
      o.closes = false → chooseSlot s r = none → ∃ t, exec (.ringTriggerArrival r) s = .next t ∧ ringState t r = 1 ∧
        fld t (ACQ_RINGr_MISSES.COUNT r) = satNat 32 (fld s (ACQ_RINGr_MISSES.COUNT r) + 1) ∧ Posted 169 s t ∧ t.mem = s.mem) ∧
    (∀ (s : State) (r : Fin 64) (o : Offer) (f : Folio), arrivals s r = [o] → ringState s r = 3 → fillDue s r = false →
      isWindowRing s r = false → o.opens = false → o.closes = false → (ringOf s r).folio = some f → f.nestedN < 8 →
      f.nested.length = f.nestedN → ∃ t, exec (.ringTriggerArrival r) s = .next t ∧ ringState t r = 3 ∧ t.mem = s.mem ∧
        (ringOf t r).folio = some { f with nested := f.nested ++ [o.stamp], nestedN := f.nestedN + 1 }) ∧
    (∀ (s : State) (r : Fin 64) (o : Offer), arrivals s r = [o] → ringState s r = 4 → rearmDue s r = false → isWindowRing s r = false →
      o.opens = false → o.closes = false → ∃ t, exec (.ringTriggerArrival r) s = .next t ∧ ringState t r = 4 ∧
        fld t (ACQ_RINGr_MISSES.COUNT r) = satNat 32 (fld s (ACQ_RINGr_MISSES.COUNT r) + 1) ∧ Posted 169 s t ∧
        (ringOf t r).folio = (ringOf s r).folio ∧ t.mem = s.mem) ∧
    (∀ (s : State) (r : Fin 64) (k : Nat), (ringOf s r).auto = true → arrivals s r = [] → ringState s r = 1 → isWindowRing s r = false →
      chooseSlot s r = some (k, false) → ∃ t, exec (.acqForced r) s = .next t ∧ ringState t r = 3 ∧ Posted 170 s t ∧
        (ringOf t r).auto = false ∧ ∃ f, (ringOf t r).folio = some f ∧ f.forced = true ∧ f.stamp = timeD s ∧ f.slot = k) ∧
    (∀ (s : State) (r : Fin 64), (ringOf s r).auto = false → ∃ t, exec (.acqForced r) s = .next t ∧ ∀ k, same k s t) ∧
    (∀ (s : State) (r : Fin 64) (f : Folio), fillDue s r = true → (ringOf s r).folio = some f → ∃ t, exec (.postFillComplete r) s = .next t ∧
      ringState t r = (if flag s (ACQ_RINGr_CFG.REPEAT r) && !(ringOf s r).disarm then 4 else 0) ∧ (ringOf t r).folio = none ∧
      (ringOf t r).prevLast = f.last ∧
      (ringOf t r).publish = (ringOf s r).publish ++ [{ judgeFolio s r f with post := folioEvent s r }] ∧
      (ringOf t r).rearmEnd = f.e + 4 ∧ ((ringOf s r).disarm = true → Ended (ACQ_RINGr_CMD r) 0 t) ∧
      (s.dmc.latent = [] → s.dmc.inject = none → waiting s = [] → f.record = isRecordRing s r → (f.record = true → 0 < shelfSize s r) → ∀ x,
        x < f.addr ∨ f.addr + max ((folioLayout s r (judgeFolio s r f)).1 +
          (if isRecordRing s r then (members s r).length * shelfSize s r * 8
            else (rawData r (judgeFolio s r f).first ((judgeFolio s r f).last.getD 0) s).1.length))
          ((folioLayout s r (judgeFolio s r f)).2.2 + 64 * (members s r).length) ≤ x →
        x < f.addr ∨ f.addr + 0x100 ≤ x → mseen t x = mseen s x)) ∧
    ∀ (s : State) (r : Fin 64) (f : Folio) (l : List Folio), (ringOf s r).publish = f :: l → dramMapped s = true →
      fld s DMC_STATUS.STATE ≠ 4 → f.addr + 8 ≤ dramTop s → waiting s = [] → s.dmc.latent = [] → s.dmc.inject = none →
      ∃ t, exec (.acqFolio r) s = .next t ∧ (ringOf t r).publish = l ∧ Posted 168 s t ∧
        ofBytesLE ((List.range 4).map (fun i => mseen t (f.addr + 4 + i))) = word4 r f ∧ (word4 r f).testBit 31 = true ∧
        (∀ x, x < f.addr + 4 ∨ f.addr + 8 ≤ x → mseen t x = mseen s x) ∧
        rd t (ACQ_RINGr_LAST r) = w32 (2 ^ 31 + f.slot) ∧
        ∀ e, f.post = some e → e < 128 → Posted e s t

/-- COMMIT, RESUME, TEST_START and TEST_STOP are BUSY while a command is pending, judged by the tables of R220 and R226, and otherwise
accepted. The generator stops after LEN ticks with CTL_TEST_END (R221). A setpoint, an AOUT code and a PWM duty written by software wait for
the next lap boundary, as do the configuration words of a PWM output and of a drive slot (R211, R214, R225). A PWM output takes the duty in
force at its period start (R213). -/
def Obligations.ControlCommandsAndOutputs : Prop :=
  (∀ s : State, Settled s → ∃ t, exec .loopCommitCmd s = .next t ∧ t.ctl = s.ctl ∧
      if isPending s CTL_CMD then Answered CTL_CMD 2 s t else Accepted CTL_CMD 1 s t) ∧
    (∀ (s : State) (n : Fin 32), Settled s → ∃ t, exec (.loopResume n) s = .next t ∧ t.ctl = s.ctl ∧
      if isPending s CTL_CMD then Answered CTL_CMD 2 s t
      else if loopState s n = 2 ∨ loopState s n = 3 then Accepted CTL_CMD (w32 (n.val * 256 + 2)) s t
      else loopState s n < 2 → Refused CTL_CMD s t) ∧
    (∀ s : State, Settled s → ∃ t, exec .testStart s = .next t ∧ t.ctl = s.ctl ∧
      if isPending s CTL_CMD ∨ testRunning s then Answered CTL_CMD 2 s t
      else if loopState s (fld s CTL_TEST_CFG.LOOP) ≠ 1 then Refused CTL_CMD s t
      else if fld s CTL_TEST_CFG.WAVE = 3 ∧ fld s CTL_TEST_TLEN.VALUE = 0 then Answered CTL_CMD 3 s t else Accepted CTL_CMD 3 s t) ∧
    (∀ s : State, Settled s → ∃ t, exec .testStop s = .next t ∧ t.ctl = s.ctl ∧
      if isPending s CTL_CMD then Answered CTL_CMD 2 s t
      else if testRunning s then Accepted CTL_CMD 4 s t else Refused CTL_CMD s t) ∧
    (∀ s : State, testRunning s = true → 0 < s.ctl.test.len → s.ctl.test.len ≤ s.ctl.test.ticks → ∃ t, exec .ctlTestEnd s = .next t ∧
      testRunning t = false ∧ Posted 177 s t ∧ t.ctl = s.ctl ∧ RegsOutside CTL_TEST_STATUS CTL_TRACE_BASE s t) ∧
    (∀ (s : State) (n : Fin 32) (v : Word), Settled s → ∃ t, exec (.setpointWrite n v) s = .next t ∧
      t.ctl = { s.ctl with setpoints := s.ctl.setpoints ++ [(n.val, v)] } ∧ ∀ a, rd t a = rd s a) ∧
    (∀ (s : State) (j : Fin 16) (w : Word), Settled s → ∃ t, exec (.outputRegisterWrite (CTL_AOUTj j) w) s = .next t ∧
      t.out = { s.out with aout := s.out.aout ++ [(j.val, w)] } ∧ t.nextRegs = s.nextRegs ∧ ∀ a, rd t a = rd s a) ∧
    (∀ (s : State) (j : Fin 16) (w : Word), Settled s → ∃ t, exec (.outputRegisterWrite (CTL_PWMj_DUTY j) w) s = .next t ∧
      t.out = { s.out with duty := s.out.duty ++ [(j.val, w)] } ∧ t.nextRegs = s.nextRegs ∧ ∀ a, rd t a = rd s a) ∧
    (∀ (s : State) (j : Fin 16) (w : Word), Settled s → ∃ t, exec (.outputRegisterWrite (CTL_PWMj_CFG j) w) s = .next t ∧
      t.nextRegs = s.nextRegs ++ [(CTL_PWMj_CFG j, w &&& 0xE000FFFF)] ∧ t.out = s.out ∧ ∀ a, rd t a = rd s a) ∧
    (∀ (s : State) (d : Fin 32) (w : Word), Settled s → ∃ t u, exec (.outputRegisterWrite (CTL_DRIVEd_CFG d) w) s = .next t ∧
      t.nextRegs = s.nextRegs ++ [(CTL_DRIVEd_CFG d, w &&& 0xC3FFFFFF)] ∧ (∀ a, rd t a = rd s a) ∧
      exec (.outputRegisterWrite (CTL_DRIVEd_LEAD d) w) s = .next u ∧
      u.nextRegs = s.nextRegs ++ [(CTL_DRIVEd_LEAD d, w &&& 0xFFFF)] ∧ ∀ a, rd u a = rd s a) ∧
    ∀ (s : State) (j : Fin 16), Settled s → lapD s % pwmPeriod s j = 0 → s.tbs.pacer.ofs = 0 → ∃ t, exec (.pwmPeriodStart j) s = .next t ∧
      tget (fun _ => 0) t.out.pwmNow j = fld s (CTL_PWMj_DUTY.DUTY j) ∧
      (∀ i, i ≠ j.val → tget (fun _ => 0) t.out.pwmNow i = tget (fun _ => 0) s.out.pwmNow i) ∧ ∀ a, rd t a = rd s a

/-- A due unit is queued with the snapshots of its tick boundary, behind every earlier tick (R197, R199); a tick that still waits is removed
unevaluated, and the overrun is marked, counted, posted and, at the limit, a FAULT (R200). A slot takes the front of the queue while the
lap has slots (R195); a loop in FALLBACK with HOLD gives its last committed value (R218), and its outputs wait for the boundary (R198). A
commit sends the value times OUT_SCALE to the output of the loop (R209, R210), where no later place of R211 has set it. With CTL_CTRL.EN = 0
nothing is evaluated or committed (R226). -/
def Obligations.ControlTicks : Prop :=
  (∀ (s : State) (u : Fin 32), flag s CTL_CTRL.EN = false ∨ unitMembers s u = [] ∨ tickDue s u = false → ∃ t, exec (.loopTick u) s = .next t ∧
      ∀ k, same k s t) ∧
    (∀ (s : State) (u : Fin 32), flag s CTL_CTRL.EN = true → unitMembers s u ≠ [] → tickDue s u = true →
      (loopRun s u).tickBnd ≠ s.bnd + 1 → (∀ q ∈ s.ctl.queue, q.unit ≠ u.val) → testRunning s = false → ∃ t, exec (.loopTick u) s = .next t ∧
      t.ctl.queue = enqueue ((unitMembers s u).map (snapTick s u)) u s.bnd s.ctl.queue ∧ (loopRun t u).tickBnd = s.bnd + 1 ∧
      t.ctl.evals = s.ctl.evals ∧ t.ctl.outs = s.ctl.outs ∧ fld t CTL_STATUS.QUEUE = min 255 t.ctl.queue.length ∧
      RegsOutside CTL_STATUS CTL_CMD s t) ∧
    (∀ (s : State) (u : Fin 32) (q : Tick), flag s CTL_CTRL.EN = true → unitMembers s u = [u.val] → tickDue s u = true →
      (loopRun s u).tickBnd ≠ s.bnd + 1 → q ∈ s.ctl.queue → q.unit = u.val → (∀ e ∈ s.ctl.evals, e.tick.unit ≠ u.val) →
      testRunning s = false → ∃ t, exec (.loopTick u) s = .next t ∧ (∀ p ∈ t.ctl.queue, p.unit = u.val → p.bnd = s.bnd) ∧
        flag t (CTL_LOOPn_STATUS.OVERRUN u) = true ∧
        fld t (CTL_LOOPn_STATUS.OVERRUNS u) = satNat 16 (fld s (CTL_LOOPn_STATUS.OVERRUNS u) + 1) ∧
        fld t (CTL_LOOPn_STATUS.OVR_RUN u) = min 15 (fld s (CTL_LOOPn_STATUS.OVR_RUN u) + 1) ∧ nbit (rd t CTL_OVR_STICKY).toNat u = true ∧
        Posted 172 s t ∧ (loopRun t u).a = (loopRun s u).a ∧
        if max 1 (loopFld s u 0x30 24 4) ≤ fld t (CTL_LOOPn_STATUS.OVR_RUN u) ∧ (loopState s u = 1 ∨ loopState s u = 2) then
          loopState t u = 3 ∧ Posted 173 s t ∧ nbit (rd t CTL_FAULTED).toNat u = true
        else loopState t u = loopState s u) ∧
    (∀ s : State, s.ctl.queue = [] ∨ 6 ≤ s.ctl.slots ∨ flag s CTL_CTRL.EN = false → ∃ t, exec .loopEvaluation s = .next t ∧ ∀ k, same k s t) ∧
    (∀ (s : State) (q : Tick) (l : List Tick), s.ctl.queue = q :: l → s.ctl.slots < 6 → flag s CTL_CTRL.EN = true → q.loop < 32 →
      testRunning s = false ∨ s.ctl.test.loop ≠ q.loop ∨ traceOverlaps s = false → ∃ t, exec .loopEvaluation s = .next t ∧
      t.ctl.queue = l ∧ t.ctl.slots = s.ctl.slots + 1 ∧ fld t (CTL_LOOPn_STATUS.OVR_RUN q.loop) = 0 ∧
      (loopRun t q.loop).prev = some q.bnd ∧ (loopRun t q.loop).a = (loopRun s q.loop).a) ∧
    (∀ (s : State) (q : Tick) (l : List Tick), s.ctl.queue = q :: l → s.ctl.slots < 6 → flag s CTL_CTRL.EN = true → q.loop < 32 →
      testRunning s = false → (∀ p ∈ l, ¬(p.unit = q.unit ∧ p.bnd = q.bnd)) → s.ctl.evals = [] → loopState s q.loop = 2 → snapFld q.cfg 0x30 28 4 = 0 →
      ∃ t o, exec .loopEvaluation s = .next t ∧ t.ctl.outs = s.ctl.outs ++ [o] ∧ t.ctl.evals = [] ∧ o.unit = q.unit ∧ o.bnd = s.bnd ∧
        o.winner = q.loop ∧ o.g = f32 (loopRun s q.loop).a ∧ loopState t q.loop = 2) ∧
    (∀ (s : State) (u : Fin 32), flag s CTL_CTRL.EN = false → ∃ t, exec (.loopOutputCommit u) s = .next t ∧ ∀ k, same k s t) ∧
    ∀ (s : State) (u : Fin 32) (o : UnitOut) (e : Eval), flag s CTL_CTRL.EN = true →
      s.ctl.outs.filter (fun o => decide (o.unit = u.val) && decide (o.bnd < s.bnd)) = [o] → o.evals = [e] → e.tick.loop < 32 →
      loopState s e.tick.loop ≠ 0 → snapFld e.tick.cfg 0 25 1 = 0 → snapFld e.tick.cfg 0 16 4 = 1 → snapFld e.tick.cfg 0 8 8 < 16 →
      tget (fun _ => 0) s.out.setBy (snapFld e.tick.cfg 0 8 8) ≤ 3 + u →
      ∃ t, exec (.loopOutputCommit u) s = .next t ∧
        t.ctl.outs = s.ctl.outs.filter (fun o => !(decide (o.unit = u.val) && decide (o.bnd < s.bnd))) ∧
        (loopRun t e.tick.loop).a = w32f o.g ∧ (loopRun t e.tick.loop).tickLap = e.tick.lap ∧
        flag t (CTL_LOOPn_STATUS.FORCED e.tick.loop) = (e.test || (decide (e.tick.loop = o.winner) && e.forced)) ∧
        sfld t (CTL_AOUTj.CODE (snapFld e.tick.cfg 0 8 8)) = clampInt (-32000) 32000
          ((ftoInt (ddiv (dmul (f32 (w32f o.g)) (snapF e.tick.cfg 0x28)) (dofRat 3125 10000000))).getD 0) ∧ t.mem = s.mem

/-- For every instruction of a core: one that is not running, that sleeps or that is being halted issues nothing; a due EVENT exception is taken
before the instruction issues, with the event number in EVAL; then an ALIGN or ACCESS_FAULT exception of the fetch, with the address
(R278). A word that is no instruction raises ILLEGAL with the word in EVAL, and a fetch without exception has no effect of its own. -/
def Obligations.IssueRules : Prop :=
  (∀ (s : State) (i : Instr) (n : Fin 5), Settled s →
      (coreOfInstr i = some n ∨ (∃ w, i = .illegalInstruction n w) ∨ i = .fetchFault n) →
      (canIssue n s = false → exec i s = .next s) ∧
      (∀ e, canIssue n s = true → eventDue s n = some e → exec i s = .next (settle (trap n 8 (w32 e) s))) ∧
      (canIssue n s = true → eventDue s n = none → (coreOf s n).pc % 4 ≠ 0 →
        exec i s = .next (settle (trap n 5 (w32 (coreOf s n).pc) s))) ∧
      (canIssue n s = true → eventDue s n = none → (coreOf s n).pc % 4 = 0 → fetchable n (coreOf s n).pc s = false →
        exec i s = .next (settle (trap n 3 (w32 (coreOf s n).pc) s)))) ∧
    (∀ (s : State) (n : Fin 5) (w : Word), Settled s → Issues n s →
      exec (.illegalInstruction n w) s = .next (if legalWord w then s else settle (trap n 1 w s))) ∧
    (∀ (s : State) (n : Fin 5), Settled s → Issues n s → exec (.fetchFault n) s = .next s) ∧
    ∀ (s : State) (n : Fin 5), Settled s → exec (.eventException n) s =
      .next (match eventDue s n with
        | some e => settle (trap n 8 (w32 e) s)
        | none => s)

/-- A word that is no instruction and a SYSCALL take their exception (R279): EPC is the instruction, or for SYSCALL the next, ESTAT holds
number, EXL, mode and flags, EVAL the word or the code, the mode is supervisor and the pc is VBASE plus 16 times the number; the general and
float registers, the accumulators, memory and every register but the core's status stay. With EXL set the core stops in FAULTED with
FAULT_PC, FAULT_CAUSE and CORE_FAULT (R281), the Steward where it is not then reset. ERET resumes at EPC in the saved mode with the saved
flags (R280) and in service mode raises PRIVILEGED (R282). -/
def Obligations.TakingAndLeavingExceptions : Prop :=
  (∀ (s : State) (n : Fin 5) (w : Word) (code : BitVec 8), Settled s → Issues n s → legalWord w = false →
      nbit (coreOf s n).estat.toNat 5 = false → ∃ t u, exec (.illegalInstruction n w) s = .next t ∧ exec (.syscall n code) s = .next u ∧
      (coreOf t n).epc = w32 (coreOf s n).pc ∧ (coreOf t n).eval = w ∧
      (coreOf t n).estat = w32 (1 * 256 + 32 + bit (inService s n) * 16 + (coreOf s n).flags) ∧
      (coreOf t n).pc = ((coreOf s n).vbase.toNat + 16 * 1) % 2 ^ 32 ∧ inService t n = false ∧
      (coreOf u n).epc = w32 ((coreOf s n).pc + 4) ∧ (coreOf u n).eval = w32 code.toNat ∧
      (coreOf u n).estat = w32 (7 * 256 + 32 + bit (inService s n) * 16 + (coreOf s n).flags) ∧
      (coreOf u n).pc = ((coreOf s n).vbase.toNat + 16 * 7) % 2 ^ 32 ∧ inService u n = false ∧
      (∀ x ∈ [t, u], x.mem = s.mem ∧ (∀ r, reg x n r = reg s n r) ∧ (∀ r, freg x n r = freg s n r) ∧
        (coreOf x n).acc0 = (coreOf s n).acc0 ∧ (coreOf x n).acc1 = (coreOf s n).acc1 ∧ (coreOf x n).flags = (coreOf s n).flags ∧
        (coreOf x n).vbase = (coreOf s n).vbase ∧ (coreOf x n).scratch0 = (coreOf s n).scratch0 ∧
        (coreOf x n).scratch1 = (coreOf s n).scratch1 ∧ (∀ m, m ≠ n.val → coreOf x m = coreOf s m) ∧
        ∀ a, a ≠ TOP_COREn_STATUS n → rd x a = rd s a)) ∧
    (∀ (s : State) (n : Fin 5) (w : Word), Issues n s → legalWord w = false → nbit (coreOf s n).estat.toNat 5 = true →
      (n.val = 4 → flag s TOP_RESET_CFG.FAULT_RST = false) → ∃ t, exec (.illegalInstruction n w) s = .next t ∧ coreState t n = 2 ∧
      rd t (TOP_COREn_FAULT_PC n) = w32 (coreOf s n).pc ∧ rd t (TOP_COREn_FAULT_CAUSE n) = 1 ∧ Posted 180 s t ∧ t.mem = s.mem ∧
      (∀ r, reg t n r = reg s n r) ∧ (coreOf t n).epc = (coreOf s n).epc ∧ ∀ m, m ≠ n.val → coreOf t m = coreOf s m) ∧
    ∀ (s : State) (n : Fin 5), Settled s → Issues n s →
      (inService s n = false → ∃ t, exec (.eret n) s = .next t ∧ (coreOf t n).pc = (coreOf s n).epc.toNat ∧
        (coreOf t n).flags = (coreOf s n).estat.toNat % 16 ∧ inService t n = nbit (coreOf s n).estat.toNat 4 ∧
        (∀ k < 32, (coreOf t n).estat.getLsbD k = ((coreOf s n).estat.getLsbD k && decide (k ≠ 5))) ∧
        (∀ r, reg t n r = reg s n r) ∧ (∀ r, freg t n r = freg s n r) ∧ (coreOf t n).epc = (coreOf s n).epc ∧ t.mem = s.mem ∧
        ∀ a, a ≠ TOP_COREn_STATUS n → rd t a = rd s a) ∧
      (inService s n = true → exec (.eret n) s = .next (settle (trap n 2 0x0C000004 s)))

/-- R260: the result, the flags and the completion of every instruction of the integer register group but the jumps, from the two source
registers and, of a shift, bits 4:0 of the second. Each completes where it issues. C and V stay where the table does not set them, and MUL,
MULH, MIN and MAX change no flag (R258). A register may be source and destination at once, and none is hardwired (R257). -/
def Obligations.IntegerRegisterResults : Prop :=
  ∀ (s : State) (n : Fin 5) (rd rs rt : Fin 16) (a b : Word) (k : Nat) (c v : Bool), Settled s → Issues n s →
    a = reg s n rs → b = reg s n rt → k = b.toNat % 32 → c = nbit (coreOf s n).flags 1 → v = nbit (coreOf s n).flags 0 →
    exec (.add n rd rs rt) s = .next (withResult n rd (a + b) (decide (2 ^ 32 ≤ a.toNat + b.toNat)) (decide (a.toInt + b.toInt ≠ (a + b).toInt)) s) ∧
    exec (.sub n rd rs rt) s = .next (withResult n rd (a - b) (decide (b.toNat ≤ a.toNat)) (decide (a.toInt - b.toInt ≠ (a - b).toInt)) s) ∧
    exec (.and n rd rs rt) s = .next (withResult n rd (a &&& b) c v s) ∧
    exec (.or n rd rs rt) s = .next (withResult n rd (a ||| b) c v s) ∧
    exec (.xor n rd rs rt) s = .next (withResult n rd (a ^^^ b) c v s) ∧
    exec (.shl n rd rs rt) s = .next (withResult n rd (a <<< k) (if k = 0 then c else a.getLsbD (32 - k)) v s) ∧
    exec (.shr n rd rs rt) s = .next (withResult n rd (a >>> k) (if k = 0 then c else a.getLsbD (k - 1)) v s) ∧
    exec (.sar n rd rs rt) s = .next (withResult n rd (a.sshiftRight k) (if k = 0 then c else a.getLsbD (k - 1)) v s) ∧
    exec (.mul n rd rs rt) s = .next (withValue n rd (BitVec.ofInt 32 (a.toInt * b.toInt)) s) ∧
    exec (.mulh n rd rs rt) s = .next (withValue n rd (BitVec.ofInt 32 (a.toInt * b.toInt / 2 ^ 32)) s) ∧
    exec (.div n rd rs rt) s = .next (withV n rd (if b = 0 then 0 else BitVec.ofInt 32 (a.toInt.tdiv b.toInt))
      (decide (b = 0 ∨ (a.toInt = -2 ^ 31 ∧ b.toInt = -1))) s) ∧
    exec (.divu n rd rs rt) s = .next (withV n rd (if b = 0 then 0 else a / b) (decide (b = 0)) s) ∧
    exec (.min n rd rs rt) s = .next (withValue n rd (BitVec.ofInt 32 (min a.toInt b.toInt)) s) ∧
    exec (.max n rd rs rt) s = .next (withValue n rd (BitVec.ofInt 32 (max a.toInt b.toInt)) s) ∧
    exec (.cmp n rs rt) s = .next (withFlags n (a - b) (decide (b.toNat ≤ a.toNat)) (decide (a.toInt - b.toInt ≠ (a - b).toInt)) s)

/-- R261: the result, the flags and the completion of ADDI, ANDI, ORI, XORI, SHLI, SHRI, SARI, CMPI and LUI, with IMM sign-extended in ADDI and
CMPI and zero-extended in the logical instructions. LUI with k >> 14 and then ORI with the low 14 bits of k builds the constant k. -/
def Obligations.ImmediateResults : Prop :=
  ∀ (s : State) (n : Fin 5) (rd rs : Fin 16) (imm : BitVec 14) (sh : BitVec 5) (imm18 : BitVec 18) (a x : Word) (c v : Bool), Settled s →
    Issues n s → a = reg s n rs → x = BitVec.ofInt 32 imm.toInt → c = nbit (coreOf s n).flags 1 → v = nbit (coreOf s n).flags 0 →
    exec (.addi n rd rs imm) s = .next (withResult n rd (a + x) (decide (2 ^ 32 ≤ a.toNat + x.toNat)) (decide (a.toInt + x.toInt ≠ (a + x).toInt)) s) ∧
    exec (.andi n rd rs imm) s = .next (withResult n rd (a &&& BitVec.ofNat 32 imm.toNat) c v s) ∧
    exec (.ori n rd rs imm) s = .next (withResult n rd (a ||| BitVec.ofNat 32 imm.toNat) c v s) ∧
    exec (.xori n rd rs imm) s = .next (withResult n rd (a ^^^ BitVec.ofNat 32 imm.toNat) c v s) ∧
    exec (.shli n rd rs sh) s = .next (withResult n rd (a <<< sh) (if sh = 0 then c else a.getLsbD (32 - sh.toNat)) v s) ∧
    exec (.shri n rd rs sh) s = .next (withResult n rd (a >>> sh) (if sh = 0 then c else a.getLsbD (sh.toNat - 1)) v s) ∧
    exec (.sari n rd rs sh) s = .next (withResult n rd (a.sshiftRight sh.toNat) (if sh = 0 then c else a.getLsbD (sh.toNat - 1)) v s) ∧
    exec (.cmpi n rs imm) s = .next (withFlags n (a - x) (decide (x.toNat ≤ a.toNat)) (decide (a.toInt - x.toInt ≠ (a - x).toInt)) s) ∧
    exec (.lui n rd imm18) s = .next (withValue n rd (BitVec.ofNat 32 (imm18.toNat * 2 ^ 14)) s) ∧
    ∀ t, exec (.lui n rd ((a >>> 14).setWidth 18)) s = .next t → Issues n t → ∃ u, exec (.ori n rd rd (a.setWidth 14)) t = .next u ∧
      reg u n rd = a

/-- R262 and R263: MAC and MSU saturate the exact sum at 64 bits and say so in V; ACCR rounds, shifts and saturates to 32 bits, or takes the raw
bits without changing V, and its raw form with a shift above 32 raises ILLEGAL with the word; ACCW loads or clears the accumulator; SAT clamps
to n bits. The accumulator is the one that SUB selects, and each form completes where it issues, the ILLEGAL one apart. -/
def Obligations.MultiplyAccumulateResults : Prop :=
  ∀ (s : State) (n : Fin 5) (rd rs rt : Fin 16) (one : Bool) (sh : Fin 64) (m : Fin 32) (acc a b : Int), Settled s → Issues n s →
    acc = accOf s n one → a = (reg s n rs).toInt → b = (reg s n rt).toInt →
    (∀ sum : Int, sum = acc + a * b → exec (.mac n one rs rt) s = .next
      (advance n (setV n (decide (sum < -2 ^ 63 ∨ 2 ^ 63 ≤ sum)) (setAcc n one (max (-2 ^ 63) (min (2 ^ 63 - 1) sum)) s)))) ∧
    (∀ sum : Int, sum = acc - a * b → exec (.msu n one rs rt) s = .next
      (advance n (setV n (decide (sum < -2 ^ 63 ∨ 2 ^ 63 ≤ sum)) (setAcc n one (max (-2 ^ 63) (min (2 ^ 63 - 1) sum)) s)))) ∧
    (∀ x : Int, x = (acc + (if sh.val = 0 then 0 else 2 ^ (sh.val - 1))) / 2 ^ sh.val → exec (.accr n rd one false sh) s = .next
      (withV n rd (BitVec.ofInt 32 (max (-2 ^ 31) (min (2 ^ 31 - 1) x))) (decide (x < -2 ^ 31 ∨ 2 ^ 31 ≤ x)) s)) ∧
    (sh.val ≤ 32 → exec (.accr n rd one true sh) s = .next (withValue n rd (BitVec.ofInt 32 (acc % 2 ^ 64 / 2 ^ sh.val)) s)) ∧
    (32 < sh.val → ∃ w, ralnelWord (.accr n rd one true sh) = some w ∧ legalWord w = false ∧
      exec (.accr n rd one true sh) s = .next (settle (trap n 1 w s))) ∧
    exec (.accw n one false rs rt) s =
      .next (advance n (setAcc n one (a * 2 ^ 32 + (reg s n rt).toNat) s)) ∧
    exec (.accw n one true rs rt) s = .next (advance n (setAcc n one 0 s)) ∧
    (∀ lim : Int, lim = 2 ^ m.val → exec (.sat n rd rs m) s =
      .next (withV n rd (BitVec.ofInt 32 (max (-lim) (min (lim - 1) a))) (decide (a < -lim ∨ lim ≤ a)) s))

/-- R264 and R265: each float instruction takes its operands with subnormals as zeros, rounds its exact result once to nearest even and replaces
a subnormal result by a zero of its sign; FMAC rounds once; FCVTWS rounds to nearest even or toward zero, saturates and says so in V, and a
NaN gives 0 with V; FMVWF and FMVFW move the bits. No other flag changes, and each completes where it issues. That FABS, FNEG, FMIN and FMAX
flush as well is log entry 109. -/
def Obligations.FloatResults : Prop :=
  ∀ (s : State) (n : Fin 5) (fd fs ft : Fin 8) (wd ws : Fin 16) (trunc : Bool) (a b : FVal), Settled s → Issues n s →
    a = fin32 (freg s n fs) → b = fin32 (freg s n ft) →
    exec (.fadd n fd fs ft) s = .next (withFloat n fd (fadd fmt32 a b) s) ∧
    exec (.fsub n fd fs ft) s = .next (withFloat n fd (fsub fmt32 a b) s) ∧
    exec (.fmul n fd fs ft) s = .next (withFloat n fd (fmul fmt32 a b) s) ∧
    exec (.fdiv n fd fs ft) s = .next (withFloat n fd (fdiv fmt32 a b) s) ∧
    exec (.fsqrt n fd fs) s = .next (withFloat n fd (fsqrt fmt32 a) s) ∧
    exec (.fmac n fd fs ft) s = .next (withFloat n fd (ffma fmt32 a b (fin32 (freg s n fd))) s) ∧
    exec (.fmin n fd fs ft) s = .next (withFloat n fd (fmin32 a b) s) ∧
    exec (.fmax n fd fs ft) s = .next (withFloat n fd (fmax32 a b) s) ∧
    exec (.fabs n fd fs) s = .next (withFloat n fd (fabs a) s) ∧
    exec (.fneg n fd fs) s = .next (withFloat n fd (fneg a) s) ∧
    exec (.fcvtsw n fd ws) s = .next (withFloat n fd (fofInt (reg s n ws).toInt) s) ∧
    (∀ (neg : Bool) (m : Nat) (e : Int) (i : Int), a = .fin neg m e → (i = if trunc then (inUnits neg m e (min e 0)).tdiv (2 ^ (-(min e 0)).toNat)
        else (if neg then -1 else 1) * divHalfEven (inUnits false m e (min e 0)) (2 ^ (-(min e 0)).toNat)) →
      exec (.fcvtws n wd fs trunc) s = .next (withV n wd (BitVec.ofInt 32 (max (-2 ^ 31) (min (2 ^ 31 - 1) i))) (decide (i < -2 ^ 31 ∨ 2 ^ 31 ≤ i)) s)) ∧
    (a = .nan → exec (.fcvtws n wd fs trunc) s = .next (withV n wd 0 true s)) ∧
    (∀ neg, a = .inf neg → exec (.fcvtws n wd fs trunc) s = .next (withV n wd (if neg then 0x80000000 else 0x7FFFFFFF) true s)) ∧
    exec (.fmvwf n wd fs) s = .next (withValue n wd (freg s n fs) s) ∧
    exec (.fmvfw n fd ws) s = .next (advance n (setFreg n fd (reg s n ws) s))

/-- FCMP sets N for less, Z and C for equal, C for greater and V for unordered, by the numbers that its operands are (R265); a zero of either
sign is equal to the other. A float operation on a NaN gives 0x7FC0_0000, no result is subnormal, and an operand with a zero exponent field
acts as the zero of its sign (R264). -/
def Obligations.FloatCompareAndSpecialValues : Prop :=
  (∀ (s : State) (n : Fin 5) (fs ft : Fin 8) (na nb : Bool) (ma mb : Nat) (ea eb : Int), Settled s → Issues n s →
      fin32 (freg s n fs) = .fin na ma ea → fin32 (freg s n ft) = .fin nb mb eb →
      exec (.fcmp n fs ft) s = .next (advance n (setFlags n (if inUnits na ma ea (min ea eb) < inUnits nb mb eb (min ea eb) then 8
        else if inUnits na ma ea (min ea eb) = inUnits nb mb eb (min ea eb) then 6 else 2) s))) ∧
    (∀ (s : State) (n : Fin 5) (fs ft : Fin 8), Settled s → Issues n s → fin32 (freg s n fs) = .nan ∨ fin32 (freg s n ft) = .nan →
      exec (.fcmp n fs ft) s = .next (advance n (setFlags n 1 s))) ∧
    (∀ (s : State) (n : Fin 5) (fd fs ft : Fin 8), Settled s → Issues n s →
      fin32 (freg s n fs) = .nan ∨ fin32 (freg s n ft) = .nan →
      ∀ i ∈ [Instr.fadd n fd fs ft, .fsub n fd fs ft, .fmul n fd fs ft, .fdiv n fd fs ft, .fmac n fd fs ft],
        ∃ t, exec i s = .next t ∧ freg t n fd = 0x7FC00000) ∧
    (∀ (s : State) (n : Fin 5) (fd fs ft : Fin 8), Settled s → Issues n s →
      ∀ i ∈ [Instr.fadd n fd fs ft, .fsub n fd fs ft, .fmul n fd fs ft, .fdiv n fd fs ft, .fsqrt n fd fs, .fmac n fd fs ft],
        ∃ t, exec i s = .next t ∧ ((freg t n fd).toNat / 2 ^ 23 % 2 ^ 8 = 0 → (freg t n fd).toNat % 2 ^ 23 = 0)) ∧
    ∀ w : Word, w.toNat / 2 ^ 23 % 2 ^ 8 = 0 → ∃ e, fin32 w = .fin w.msb 0 e

/-- R270 with R259: BCC and CBR go to the instruction plus 4 times OFF where the condition or the register test holds and to the next instruction
otherwise; J and JAL always go there; JR and JALR go to the register read before any link is written, and the links are the address of the
next instruction. NOP only goes on. FENCE hands every store in the write buffer to memory, where every master sees it, and empties the data cache; it waits while a
store has not been acknowledged (R232). -/
def Obligations.BranchesAndJumps : Prop :=
  (∀ (s : State) (n : Fin 5) (cnd : Fin 15) (rs rd : Fin 16) (t : Fin 4) (off : BitVec 20) (far : BitVec 26) (nf zf cf vf : Bool),
      Settled s → Issues n s → nf = nbit (coreOf s n).flags 3 → zf = nbit (coreOf s n).flags 2 → cf = nbit (coreOf s n).flags 1 →
      vf = nbit (coreOf s n).flags 0 → ∀ taken : Bool,
      (taken = [true, zf, !zf, nf, !nf, cf, !cf, vf, !vf, cf && !zf, !cf || zf, nf == vf, nf != vf, !zf && nf == vf, zf || nf != vf].getD
        cnd.val false → exec (.bcc n cnd off) s =
        .next (setPc n (if taken then unsignedOf 32 ((coreOf s n).pc + 4 * off.toInt) else (coreOf s n).pc + 4) s)) ∧
      (taken = [decide (reg s n rs = 0), decide (reg s n rs ≠ 0), decide ((reg s n rs).toInt < 0), decide (0 ≤ (reg s n rs).toInt)].getD
        t.val false → exec (.cbr n rs t off) s =
        .next (setPc n (if taken then unsignedOf 32 ((coreOf s n).pc + 4 * off.toInt) else (coreOf s n).pc + 4) s)) ∧
      exec (.j n far) s = .next (setPc n (unsignedOf 32 ((coreOf s n).pc + 4 * far.toInt)) s) ∧
      exec (.jal n far) s = .next (setPc n (unsignedOf 32 ((coreOf s n).pc + 4 * far.toInt)) (setReg n 15 (w32 ((coreOf s n).pc + 4)) s)) ∧
      exec (.jr n rs) s = .next (setPc n (reg s n rs).toNat s) ∧
      (∃ u, exec (.jalr n rd rs) s = .next u ∧ (coreOf u n).pc = (reg s n rs).toNat ∧ reg u n rd = w32 ((coreOf s n).pc + 4) ∧
        reg u n 15 = w32 ((coreOf s n).pc + 4) ∧ ∀ r, r ≠ rd.val → r ≠ 15 → reg u n r = reg s n r) ∧
      exec (.nop n) s = .next (setPc n ((coreOf s n).pc + 4) s)) ∧
    (∀ (s : State) (n : Fin 5), Settled s → Issues n s → (coreOf s n).stores = [] → unacked s n = false → ∃ t, exec (.fence n) s = .next t ∧
      coreOf t n = { coreOf s n with cache := [], pc := ((coreOf s n).pc + 4) % 2 ^ 32 } ∧ t.mem = s.mem ∧ ∀ a, rd t a = rd s a) ∧
    ∀ (s : State) (n : Fin 5) (p : Nat × List Byte), Issues n s → (coreOf s n).stores = [p] → localAt p.1 = none → p.1 % 32 + p.2.length ≤ 32 →
      isDram s p.1 = true ∨ 0x80000000 ≤ p.1 → waiting s = [] → s.dmc.latent = [] → s.dmc.inject = none →
      ∃ t, exec (.fence n) s = .next t ∧ (coreOf t n).stores = [] ∧ (coreOf t n).cache = [] ∧
        (∀ i < p.2.length, mseen t (p.1 + i) = p.2.getD i 0) ∧ ∀ a, a < p.1 ∨ p.1 + p.2.length ≤ a → mseen t a = mseen s a

/-- The frame of the integer, immediate, multiply-accumulate, float, branch and jump instructions and of NOP: where one issues it completes, and
then every general and float register but its destination and links, every flag but those its table names (R258), the accumulator it does not
select, the exception and system registers of its core, all of every other core, every queue, every register of the register space, all of
memory and every other part of the block are as they were. -/
def Obligations.RegisterInstructionFrame : Prop :=
  ∀ (s : State) (i : Instr) (n : Fin 5), Settled s → Issues n s → coreOfInstr i = some n → registerOnly i = true →
    ∃ t, exec i s = .next t ∧ (∀ r, r ∉ intDests i → reg t n r = reg s n r) ∧ (∀ r, r ∉ floatDests i → freg t n r = freg s n r) ∧
      (∀ k < 4, (flagDests i).testBit k = false → nbit (coreOf t n).flags k = nbit (coreOf s n).flags k) ∧
      ((accDests i).1 = false → (coreOf t n).acc0 = (coreOf s n).acc0) ∧ ((accDests i).2 = false → (coreOf t n).acc1 = (coreOf s n).acc1) ∧
      (coreOf t n).epc = (coreOf s n).epc ∧ (coreOf t n).estat = (coreOf s n).estat ∧ (coreOf t n).eval = (coreOf s n).eval ∧
      (coreOf t n).vbase = (coreOf s n).vbase ∧ (coreOf t n).scratch0 = (coreOf s n).scratch0 ∧
      (coreOf t n).scratch1 = (coreOf s n).scratch1 ∧ (coreOf t n).cycle0 = (coreOf s n).cycle0 ∧
      (coreOf t n).stores = (coreOf s n).stores ∧ (coreOf t n).cache = (coreOf s n).cache ∧ (coreOf t n).asleep = (coreOf s n).asleep ∧
      (∀ m, m ≠ n.val → coreOf t m = coreOf s m) ∧ (∀ q, queueOf t q = queueOf s q) ∧ (∀ a, rd t a = rd s a) ∧
      (∀ a, mget t a = mget s a) ∧ ∀ k, k ≠ .cores → same k s t

/-- R267 and R268 for a load without exception of the core's own or another local memory or the Stacks, the write buffers of the other cores
being empty: the bytes are those that the core sees, its own buffered stores first; LDB and LDH extend the sign, LDBU and LDHU zeros; FLDD
rounds binary64 to binary32; with write-back RB receives the address, unless it is the destination. A load from DRAM takes its bytes from the
cached line, which it asks for if need be, and waits while the controller does not serve it (R229, R231). Memory, flags, the other registers and the register space do not change. -/
def Obligations.LoadResults : Prop :=
  (∀ (s : State) (n : Fin 5) (rd rb : Fin 16) (fd : Fin 8) (am : Fin 3) (off : BitVec 13), Settled s → Issues n s →
      (∀ m, m ≠ n.val → (coreOf s m).stores = []) → ∀ p ∈ [(Instr.ldb n rd rb am off, 1), (Instr.ldbu n rd rb am off, 1), (Instr.ldh n rd rb am off, 2), (Instr.ldhu n rd rb am off, 2), (Instr.ldw n rd rb am off, 4), (Instr.fld n fd rb am off, 4), (Instr.fldd n fd rb am off, 8)], ∀ a v : Nat, a = memAddr s n rb am off p.2 →
      accessFault s n p.2 a = none → 0x80000000 ≤ canonical n a → canonical n a < 0xA0000000 →
      v = ofBytesLE ((List.range p.2).map (fun k => byteSeen s n (canonical n a + k))) →
      ∃ t, exec p.1 s = .next t ∧ t.mem = s.mem ∧ (∀ x, Machine.rd t x = Machine.rd s x) ∧
        (coreOf t n).flags = (coreOf s n).flags ∧ (coreOf t n).pc = ((coreOf s n).pc + 4) % 2 ^ 32 ∧
        (p.1 = .fld n fd rb am off → freg t n fd = w32 v) ∧
        (p.1 = .fldd n fd rb am off → freg t n fd = fout32 (flushSub fmt64 (f64 v))) ∧
        (p.1 = .ldb n rd rb am off → (reg t n rd).toInt = if v < 128 then (v : Int) else v - 256) ∧
        (p.1 = .ldh n rd rb am off → (reg t n rd).toInt = if v < 32768 then (v : Int) else v - 65536) ∧
        (p.1 ∈ [.ldbu n rd rb am off, .ldhu n rd rb am off, .ldw n rd rb am off] → (reg t n rd).toNat = v) ∧
        (∀ r, (r ≠ rd.val ∨ p.1 = .fld n fd rb am off ∨ p.1 = .fldd n fd rb am off) → (am.val ≠ 0 → r ≠ rb.val) → reg t n r = reg s n r) ∧
        (am.val ≠ 0 → (rb ≠ rd ∨ p.1 = .fld n fd rb am off ∨ p.1 = .fldd n fd rb am off) →
          reg t n rb = reg s n rb + BitVec.ofInt 32 (off.toInt * p.2)) ∧
        (∀ r, (r ≠ fd.val ∨ (p.1 ≠ .fld n fd rb am off ∧ p.1 ≠ .fldd n fd rb am off)) → freg t n r = freg s n r) ∧ (coreOf t n).acc0 = (coreOf s n).acc0 ∧ (coreOf t n).acc1 = (coreOf s n).acc1 ∧
        ∀ m, m ≠ n.val → coreOf t m = coreOf s m) ∧
    (∀ (s u : State) (n : Fin 5) (rd rb : Fin 16) (fd : Fin 8) (am : Fin 3) (off : BitVec 13), Issues n s → ∀ p ∈ [(Instr.ldb n rd rb am off, 1), (Instr.ldbu n rd rb am off, 1), (Instr.ldh n rd rb am off, 2), (Instr.ldhu n rd rb am off, 2), (Instr.ldw n rd rb am off, 4), (Instr.fld n fd rb am off, 4), (Instr.fldd n fd rb am off, 8)], ∀ a : Nat,
      a = memAddr s n rb am off p.2 → accessFault s n p.2 a = none → a < 0x80000000 → u = fetchLine n a s →
      (misses s n a = false → u = s) ∧
      (dmcState s = 2 → serves s 2 = true → waiting s = [] → (∀ m, m ≠ n.val → (coreOf s m).stores = []) → misses u n a = false) ∧
      (misses u n a = true → exec p.1 s = .next (settle u)) ∧
      (misses u n a = false → ∃ t q, exec p.1 s = .next t ∧ t.mem = u.mem ∧ q ∈ (coreOf u n).cache ∧ q.1 = a / 32 ∧
        ∀ v, v = ofBytesLE ((List.range p.2).map (fun k => q.2.getD (a % 32 + k) 0)) →
        (p.1 = .ldw n rd rb am off → reg t n rd = w32 v) ∧ (p.1 = .fld n fd rb am off → freg t n fd = w32 v) ∧
        (p.1 ∈ [.ldbu n rd rb am off, .ldhu n rd rb am off] → (reg t n rd).toNat = v))) ∧
    ∀ (s : State) (rd rb : Fin 16) (am : Fin 3) (off : BitVec 13) (a : Nat), Settled s → Issues 4 s → a = memAddr s 4 rb am off 4 →
      accessFault s 4 4 a = none → inRom a = true → ∃ t, exec (.ldw 4 rd rb am off) s = .next t ∧ t.mem = s.mem ∧
        reg t 4 rd = w32 (ofBytesLE [Config.romByte a, Config.romByte (a + 1), Config.romByte (a + 2), Config.romByte (a + 3)])

/-- The order of R278 for a data access: ALIGN where the address is no multiple of the size, ACCESS_FAULT for the register space, the table
windows, a global alias and the boot ROM in service mode or the boot ROM on a Runner, BUS_ERROR where nothing answers, each with the address
in EVAL and no other effect (R267). A byte or halfword access to the register space and a store into the region of a ring that is not STOPPED
are the misuses of R403. A word load from the bus takes the word that a read gives, with what the read does. -/
def Obligations.DataExceptions : Prop :=
  (∀ (s : State) (n : Fin 5) (rd rb : Fin 16) (fd : Fin 8) (am : Fin 3) (off : BitVec 13), Issues n s →
      ∀ p ∈ [(Instr.ldb n rd rb am off, 1), (Instr.ldbu n rd rb am off, 1), (Instr.ldh n rd rb am off, 2), (Instr.ldhu n rd rb am off, 2), (Instr.ldw n rd rb am off, 4), (Instr.fld n fd rb am off, 4), (Instr.fldd n fd rb am off, 8)] ++ [(Instr.stb n rd rb am off, 1), (Instr.sth n rd rb am off, 2), (Instr.stw n rd rb am off, 4), (Instr.fst n fd rb am off, 4)], ∀ a : Nat, a = memAddr s n rb am off p.2 →
      (a % p.2 ≠ 0 → exec p.1 s = .next (settle (trap n 5 (w32 a) s))) ∧
      (a % p.2 = 0 → inService s n = true → ((0xA0000000 ≤ a ∧ a < 0xA1000000) ∨ (0xB0000000 ≤ a ∧ a < 0xB0100000) ∨
        (0x91000000 ≤ a ∧ a < 0x91500000)) → exec p.1 s = .next (settle (trap n 3 (w32 a) s))) ∧
      (a % p.2 = 0 → n.val ≠ 4 → 0xFFFE0000 ≤ a → exec p.1 s = .next (settle (trap n 3 (w32 a) s))) ∧
      (a % p.2 = 0 → inService s n = false → a < 0xFFFE0000 → (0x80400000 ≤ a ∧ a < 0x90000000) ∨ (0x90100000 ≤ a ∧ a < 0x91000000) ∨
        (0x91500000 ≤ a ∧ a < 0xA0000000) ∨ (0xA1000000 ≤ a ∧ a < 0xB0000000) ∨ 0xB0040000 ≤ a →
        exec p.1 s = .next (settle (trap n 4 (w32 a) s)))) ∧
    (∀ (s : State) (n : Fin 5) (rd rb : Fin 16) (am : Fin 3) (off : BitVec 13), Issues n s →
      ∀ p ∈ [(Instr.ldb n rd rb am off, 1), (Instr.ldbu n rd rb am off, 1), (Instr.stb n rd rb am off, 1), (Instr.ldh n rd rb am off, 2),
        (Instr.ldhu n rd rb am off, 2), (Instr.sth n rd rb am off, 2)], ∀ a : Nat, a = memAddr s n rb am off p.2 →
      accessFault s n p.2 a = none → 0xA0000000 ≤ a → a < 0xA1000000 → exec p.1 s = .fault .misuseNarrowRegisterAccess) ∧
    (∀ (s : State) (n : Fin 5) (rd rb : Fin 16) (fd : Fin 8) (am : Fin 3) (off : BitVec 13), Issues n s →
      ∀ p ∈ [(Instr.stb n rd rb am off, 1), (Instr.sth n rd rb am off, 2), (Instr.stw n rd rb am off, 4), (Instr.fst n fd rb am off, 4)], ∀ a : Nat, a = memAddr s n rb am off p.2 → accessFault s n p.2 a = none → meetsRing s a p.2 = true →
        exec p.1 s = .fault .misuseRingStore) ∧
    ∀ (s : State) (n : Fin 5) (rd rb : Fin 16) (am : Fin 3) (off : BitVec 13) (a : Nat), Issues n s → a = memAddr s n rb am off 4 →
      accessFault s n 4 a = none → isBus a = true → exec (.ldw n rd rb am off) s =
        .next (settle (advance n (setReg n rd (busRead a s).1 (writeBack n rb am off 4 (busRead a s).2))))

/-- R267 to R269 for a store without exception. In the core's own data memory the bytes of the register, read before the write-back, stand at the
address that memAddr gives at once, and every other byte reads as before. In the Stacks, in DRAM and in another local memory the store enters
the write buffer, memory does not change yet, and the core itself reads the new bytes (R231, R232). In the own instruction memory of a running
core it is discarded and posts the local-write-refused event (R27). RB is updated as AM says; no other register, flag or accumulator changes.
A word store to the bus is the write of that word. -/
def Obligations.StoreResults : Prop :=
  (∀ (s : State) (n : Fin 5) (rd rb : Fin 16) (fd : Fin 8) (am : Fin 3) (off : BitVec 13), Settled s → Issues n s →
      ∀ p ∈ [(Instr.stb n rd rb am off, 1), (Instr.sth n rd rb am off, 2), (Instr.stw n rd rb am off, 4), (Instr.fst n fd rb am off, 4)], ∀ (a : Nat) (bs : List Byte), a = memAddr s n rb am off p.2 → accessFault s n p.2 a = none → meetsRing s a p.2 = false →
      0xA1000000 ≤ a ∨ a < 0xA0000000 → isBus (canonical n a) = false → inRom a = false →
      bs = bytesLE p.2 (if p.1 = .fst n fd rb am off then freg s n fd else reg s n rd).toNat →
      ∃ t, exec p.1 s = .next t ∧ (coreOf t n).flags = (coreOf s n).flags ∧ (coreOf t n).pc = ((coreOf s n).pc + 4) % 2 ^ 32 ∧
        (∀ r, (am.val ≠ 0 → r ≠ rb.val) → reg t n r = reg s n r) ∧
        (am.val ≠ 0 → reg t n rb = reg s n rb + BitVec.ofInt 32 (off.toInt * p.2)) ∧ (∀ r, freg t n r = freg s n r) ∧
        (coreOf t n).acc0 = (coreOf s n).acc0 ∧ (coreOf t n).acc1 = (coreOf s n).acc1 ∧ (∀ m, m ≠ n.val → coreOf t m = coreOf s m) ∧
        (∀ o, localAt (canonical n a) = some (n.val, o) → 0x10000 ≤ o →
          (∀ k < p.2, mget t (canonical n a + k) = bs.getD k 0) ∧
          (∀ x, x < canonical n a ∨ canonical n a + p.2 ≤ x → mget t x = mget s x) ∧ (coreOf t n).stores = (coreOf s n).stores ∧
          ∀ x, Machine.rd t x = Machine.rd s x) ∧
        (∀ o, localAt (canonical n a) = some (n.val, o) → o < 0x10000 → (n.val = 4 → inRom (coreOf s n).pc = false) →
          t.mem = s.mem ∧ Posted 185 s t ∧ (coreOf t n).stores = (coreOf s n).stores) ∧
        ((∀ o, localAt (canonical n a) ≠ some (n.val, o)) → (coreOf s n).stores.length < 8 →
          t.mem = s.mem ∧ (coreOf t n).stores = (coreOf s n).stores ++ [(canonical n a, bs)] ∧
          ∀ k < p.2, byteSeen t n (canonical n a + k) = bs.getD k 0)) ∧
    (∀ (s t : State) (n : Fin 5) (rd rb : Fin 16) (am : Fin 3) (off : BitVec 13) (a : Nat), Issues n s → a = memAddr s n rb am off 4 →
      accessFault s n 4 a = none → isBus a = true → haltPending t n = none →
      exec (.registerWrite a (reg s n rd)) (loosen (advance n (writeBack n rb am off 4 s))) = .next t → exec (.stw n rd rb am off) s = .next t) ∧
    ∀ (s : State) (rd rb : Fin 16) (am : Fin 3) (off : BitVec 13) (a o : Nat), Settled s → Issues 4 s → a = memAddr s 4 rb am off 4 →
      accessFault s 4 4 a = none → localAt (canonical 4 a) = some (4, o) → o < 0x10000 → inRom (coreOf s 4).pc = true →
      ∃ t, exec (.stw 4 rd rb am off) s = .next t ∧ (∀ k < 4, mget t (canonical 4 a + k) = (bytesLE 4 (reg s 4 rd).toNat).getD k 0) ∧
        ∀ x, x < canonical 4 a ∨ canonical 4 a + 4 ≤ x → mget t x = mget s x

/-- QPOP gives the three words of the oldest visible entry with Z = 0 and removes it, or of an empty queue the last words with Z = 1 and UNDERRUN
(R238, R241). QLEN gives the number of entries that the consumer sees (R239). QPUSH to a relay queue with room appends the pair with the
producer's number, and to a full one sets Z and counts DROPPED (R240, R242); QPUSH 31 appends a descriptor with its commit lap or counts it
as refused (R244, R245); the core's earlier stores reach memory first (R232). A wrong number raises QUEUE_FAULT with it (R271). -/
def Obligations.QueueInstructions : Prop :=
  (∀ (s : State) (n : Fin 5) (wd : Fin 14) (wx ws wt : Fin 16) (q : BitVec 8), Issues n s →
      (12 ≤ q.toNat → exec (.qpop n wd q) s = .next (settle (trap n 6 (w32 q.toNat) s)) ∧
        exec (.qlen n wx q) s = .next (settle (trap n 6 (w32 q.toNat) s))) ∧
      (20 ≤ q.toNat → q.toNat ≠ 31 → exec (.qpush n q ws wt) s = .next (settle (trap n 6 (w32 q.toNat) s)))) ∧
    (∀ (s : State) (n : Fin 5) (wd : Fin 14) (q : BitVec 8) (l : Nat) (e : QEntry) (rest : List QEntry), Settled s → Issues n s →
      q.toNat < 12 → l = (if q.toNat < 8 then 8 * n.val + q.toNat else 40 + 4 * n.val + (q.toNat - 8)) → (queueOf s l).items = e :: rest →
      1 ≤ (queueOf s l).seen → ∃ t, exec (.qpop n wd q) s = .next t ∧ reg t n wd = e.words.getD 0 0 ∧
        reg t n (wd + 1) = e.words.getD 1 0 ∧ reg t n (wd + 2) = e.words.getD 2 0 ∧ nbit (coreOf t n).flags 2 = false ∧
        (queueOf t l).items = rest ∧ (queueOf t l).last = e.words ∧ (∀ k, k ≠ l → queueOf t k = queueOf s k) ∧
        (∀ r, r < wd.val ∨ wd.val + 2 < r → reg t n r = reg s n r) ∧ (∀ k ∈ [0, 1, 3], nbit (coreOf t n).flags k = nbit (coreOf s n).flags k) ∧
        t.mem = s.mem ∧ ∀ a, rd t a = rd s a) ∧
    (∀ (s : State) (n : Fin 5) (wd : Fin 14) (q : BitVec 8), Settled s → Issues n s → q.toNat < 12 →
      (queueOf s (localQueue n q.toNat)).items = [] → ∃ t, exec (.qpop n wd q) s = .next t ∧
        reg t n wd = (queueOf s (localQueue n q.toNat)).last.getD 0 0 ∧ nbit (coreOf t n).flags 2 = true ∧
        flag t (TOP_QSTATq.UNDERRUN (localQueue n q.toNat)) = true ∧ t.mem = s.mem ∧
        ∀ a, a ≠ TOP_QSTATq (localQueue n q.toNat) → rd t a = rd s a) ∧
    (∀ (s : State) (n : Fin 5) (wd : Fin 16) (q : BitVec 8) (l : Nat), Settled s → Issues n s → q.toNat < 12 → l = localQueue n q.toNat →
      (queueOf s l).seen ≤ (queueOf s l).items.length → ∃ t k, exec (.qlen n wd q) s = .next t ∧ reg t n wd = w32 k ∧
        nbit (coreOf t n).flags 2 = decide (k = 0) ∧ (queueOf t l).items = (queueOf s l).items ∧ (queueOf s l).seen ≤ k ∧
        k ≤ (queueOf s l).items.length ∧ ((∀ e ∈ (queueOf s l).items, e.at0 + queueLag ≤ clk s) → k = (queueOf s l).items.length) ∧
        t.mem = s.mem ∧ ∀ a, rd t a = rd s a) ∧
    (∀ (s : State) (n : Fin 5) (p : BitVec 8) (ws wt : Fin 16), Settled s → Issues n s → (coreOf s n).stores = [] → unacked s n = false → p.toNat < 20 →
      (queueOf s (40 + p.toNat)).items.length + (queueOf s (40 + p.toNat)).pops.length < 14 →
      ∃ t, exec (.qpush n p ws wt) s = .next t ∧ nbit (coreOf t n).flags 2 = false ∧
        (queueOf t (40 + p.toNat)).items = (queueOf s (40 + p.toNat)).items ++ [⟨[reg s n ws, reg s n wt, w32 n.val], clk s, 0, 0⟩] ∧
        (∀ k, k ≠ 40 + p.toNat → queueOf t k = queueOf s k) ∧ (∀ r, reg t n r = reg s n r) ∧ t.mem = s.mem ∧ ∀ a, rd t a = rd s a) ∧
    (∀ (s : State) (n : Fin 5) (p : BitVec 8) (ws wt : Fin 16), Settled s → Issues n s → (coreOf s n).stores = [] → unacked s n = false → p.toNat < 20 →
      14 ≤ (queueOf s (40 + p.toNat)).items.length → ∃ t, exec (.qpush n p ws wt) s = .next t ∧ nbit (coreOf t n).flags 2 = true ∧
        (queueOf t (40 + p.toNat)).items = (queueOf s (40 + p.toNat)).items ∧ flag t (TOP_QSTATq.OVERFLOW (40 + p.toNat)) = true ∧
        fld t (TOP_QSTATq.DROPPED (40 + p.toNat)) = satNat 16 (fld s (TOP_QSTATq.DROPPED (40 + p.toNat)) + 1) ∧
        (flag s (TOP_QSTATq.OVERFLOW (40 + p.toNat)) = false → Posted 182 s t) ∧ t.mem = s.mem) ∧
    ∀ (s : State) (n : Fin 5) (ws wt : Fin 16), Settled s → Issues n s → (coreOf s n).stores = [] → unacked s n = false → ∃ t,
      exec (.qpush n 31 ws wt) s = .next t ∧ t.mem = s.mem ∧ (∀ r, reg t n r = reg s n r) ∧
      ((queueOf s (60 + n)).items.length + (queueOf s (60 + n)).pops.length < 30 → nbit (coreOf t n).flags 2 = false ∧
        ∃ e, (queueOf t (60 + n)).items = (queueOf s (60 + n)).items ++ [e] ∧ e.words = [reg s n ws, reg s n wt] ∧ e.bnd = s.bnd ∧
          e.lap % 65536 = (fget (reg s n ws) 0 16 : Int) ∧ (lapD s : Int) - 32768 ≤ e.lap ∧ e.lap < (lapD s : Int) + 32768) ∧
      (30 ≤ (queueOf s (60 + n)).items.length → nbit (coreOf t n).flags 2 = true ∧ (queueOf t (60 + n)).items = (queueOf s (60 + n)).items ∧
        fld t (TOP_COREn_COMMIT_CNT.REFUSED n) = satNat 16 (fld s (TOP_COREn_COMMIT_CNT.REFUSED n) + 1))

/-- WAIT with a masked PEND bit set returns those bits, clears them and sets Z by them, and otherwise puts the core to sleep (R235). POST and
POSTR post the event after the core's earlier stores have reached memory (R22, R232), and one above 127 only counts (R233). STAMP gives the
line time of its instant with its fraction, or the lap count; TALLY gives position or velocity at its instant, of a Tally that does not run
the position of the latest boundary or velocity 0 (R273). Both leave the flags, and time does not go back. The position of a REMOTE Tally is
the extrapolation of R54. -/
def Obligations.EventAndTimeInstructions : Prop :=
  (∀ (s : State) (n : Fin 5) (wd ws wt : Fin 16) (g : Fin 8) (r : Word), Settled s → Issues n s → r = pendWord s n g &&& reg s n ws →
      (r ≠ 0 → ∃ t, exec (.wait n wd g ws wt) s = .next t ∧ reg t n wd = r ∧ nbit (coreOf t n).flags 2 = false ∧
        pendWord t n g = pendWord s n g &&& ~~~ r ∧ (∀ k, k ≠ g.val → pendWord t n k = pendWord s n k) ∧ (coreOf t n).asleep = none ∧
        (coreOf t n).pc = ((coreOf s n).pc + 4) % 2 ^ 32 ∧ (∀ k, k ≠ wd.val → reg t n k = reg s n k) ∧ t.mem = s.mem ∧
        ∀ k ∈ [0, 1, 3], nbit (coreOf t n).flags k = nbit (coreOf s n).flags k) ∧
      (r = 0 → ∃ t, exec (.wait n wd g ws wt) s = .next t ∧
        (coreOf t n).asleep = some ⟨wd.val, g.val, reg s n ws, (reg s n wt).toNat, clk s⟩ ∧ flag t (TOP_COREn_STATUS.SLEEP n) = true ∧
        (coreOf t n).pc = (coreOf s n).pc ∧ (∀ k, reg t n k = reg s n k) ∧ (∀ k, pendWord t n k = pendWord s n k) ∧ canIssue n t = false ∧
        t.mem = s.mem ∧ ∀ a, a ≠ TOP_COREn_STATUS n → rd t a = rd s a)) ∧
    (∀ (s : State) (n : Fin 5) (ws : Fin 16) (e : BitVec 8) (i : Instr) (v : Nat), Issues n s → (coreOf s n).stores = [] → unacked s n = false →
      (i = .post n e ∧ v = e.toNat) ∨ (i = .postr n ws ∧ v = (reg s n ws).toNat % 256) → ∃ t, exec i s = .next t ∧
        (v < 128 → Posted v s t) ∧ (coreOf t n).pc = ((coreOf s n).pc + 4) % 2 ^ 32 ∧ (∀ r, reg t n r = reg s n r) ∧
        (coreOf t n).flags = (coreOf s n).flags ∧ t.mem = s.mem ∧
        (128 ≤ v → Settled s → fld t TOP_EVT_BADPOST.COUNT = satNat TOP_EVT_BADPOST.COUNT.w (fld s TOP_EVT_BADPOST.COUNT + 1) ∧
          ∀ c k, pendWord t c k = pendWord s c k)) ∧
    (∀ (s : State) (n : Fin 5) (wd : Fin 15) (laps : Bool) (ofs : Nat), Settled s → Issues n s → ∃ t v, exec (.stamp n wd laps ofs) s = .next t ∧
      v = (if laps then lap s else now t % 65536 + now t / 65536 % 2 ^ 48 * 65536) ∧ reg t n wd = lo32 v ∧ reg t n (wd + 1) = hi32 v ∧
      (∀ r, r ≠ wd.val → r ≠ wd.val + 1 → reg t n r = reg s n r) ∧ (coreOf t n).flags = (coreOf s n).flags ∧ now s ≤ now t ∧ lap t = lap s ∧
      t.mem = s.mem ∧ ∀ a, rd t a = rd s a) ∧
    (∀ (s : State) (n : Fin 5) (wd : Fin 15) (k : Fin 4) (ofs : Nat) (p : Int), Settled s → Issues n s →
      ∃ z t, z = filtersPass (atOfs ofs s) ∧ exec (.tally n wd.castSucc k false ofs) s = .next t ∧
      (p = (if fld s (TBS_TALLYn_STATUS.STATE k) ≠ 0 ∧ fld s (TBS_TALLYn_STATUS.STATE k) ≠ 4 then tallyAt z k (now z) (now z) else (tallyOf s k).atB) →
        reg t n wd = lo32 (unsignedOf 48 p) ∧
        reg t n (wd + 1) = hi32 (unsignedOf 48 p) ||| (if 2 ^ 47 ≤ unsignedOf 48 p then 0xFFFF0000 else 0)) ∧
      (∀ r, r ≠ wd.val → r ≠ wd.val + 1 → reg t n r = reg s n r) ∧ (coreOf t n).flags = (coreOf s n).flags ∧ now s ≤ now t ∧ t.mem = s.mem ∧
      ∀ a, rd t a = rd z a) ∧
    (∀ (s : State) (n : Fin 5) (wd : Fin 16) (k : Fin 4) (ofs : Nat), Settled s → Issues n s → ∃ z t, z = filtersPass (atOfs ofs s) ∧
      exec (.tally n wd k true ofs) s = .next t ∧
      reg t n wd = (if fld s (TBS_TALLYn_STATUS.STATE k) ≠ 0 ∧ fld s (TBS_TALLYn_STATUS.STATE k) ≠ 4 then BitVec.ofInt 32 (tallyVel z k (now z)) else 0) ∧
      (∀ r, r ≠ wd.val → reg t n r = reg s n r) ∧ (coreOf t n).flags = (coreOf s n).flags ∧ now s ≤ now t ∧ t.mem = s.mem ∧
      ∀ a, rd t a = rd z a) ∧
    ∀ (s : State) (n : Fin 5) (k : Fin 4) (ofs : Nat), Issues n s →
      ∃ w, ralnelWord (.tally n 15 k false ofs) = some w ∧ exec (.tally n 15 k false ofs) s = .next (settle (trap n 1 w s))

/-- R275, R276 and R282: MFSR reads each system register, CYCLE as the core periods since reset or RESTART; MTSR writes the writable bits of
VBASE, EPC, ESTAT, the scratch registers and FLAGS and nothing of the read-only ones; in service mode MFSR of the first six and MTSR of any but
FLAGS raise PRIVILEGED with the instruction word. No other register and no memory changes. That VBASE keeps bits 31:8 is its table in R275. -/
def Obligations.SystemRegisterInstructions : Prop :=
  (∀ (s : State) (n : Fin 5) (rd : Fin 16) (sr : Fin 10) (ofs : Nat), Settled s → Issues n s → inService s n = false ∨ 6 ≤ sr.val →
      ∃ t, exec (.mfsr n rd sr ofs) s = .next t ∧ reg t n rd =
        [(coreOf s n).vbase, (coreOf s n).epc, (coreOf s n).estat, (coreOf s n).eval, (coreOf s n).scratch0, (coreOf s n).scratch1,
          w32 ((clk t - (coreOf s n).cycle0) / corePeriod n), hi32 ((clk t - (coreOf s n).cycle0) / corePeriod n), w32 n.val,
          w32 (coreOf s n).flags].getD sr.val 0 ∧ (∀ r, r ≠ rd.val → reg t n r = reg s n r) ∧ (coreOf t n).flags = (coreOf s n).flags ∧
        (coreOf t n).pc = ((coreOf s n).pc + 4) % 2 ^ 32 ∧ clk s ≤ clk t ∧ t.mem = s.mem ∧ ∀ a, Machine.rd t a = Machine.rd s a) ∧
    (∀ (s : State) (n : Fin 5) (sr : Fin 10) (rs : Fin 16) (v : Word), Settled s → Issues n s → inService s n = false ∨ sr.val = 9 →
      v = reg s n rs → ∃ t, exec (.mtsr n sr rs) s = .next t ∧
        (coreOf t n).vbase = (if sr.val = 0 then v &&& 0xFFFFFF00 else (coreOf s n).vbase) ∧
        (coreOf t n).epc = (if sr.val = 1 then v else (coreOf s n).epc) ∧
        (coreOf t n).estat = (if sr.val = 2 then v &&& 0xFF3F else (coreOf s n).estat) ∧ (coreOf t n).eval = (coreOf s n).eval ∧
        (coreOf t n).scratch0 = (if sr.val = 4 then v else (coreOf s n).scratch0) ∧
        (coreOf t n).scratch1 = (if sr.val = 5 then v else (coreOf s n).scratch1) ∧ (coreOf t n).cycle0 = (coreOf s n).cycle0 ∧
        (coreOf t n).flags = (if sr.val = 9 then v.toNat % 16 else (coreOf s n).flags) ∧
        (coreOf t n).pc = ((coreOf s n).pc + 4) % 2 ^ 32 ∧ (∀ r, reg t n r = reg s n r) ∧ (∀ r, freg t n r = freg s n r) ∧
        (∀ m, m ≠ n.val → coreOf t m = coreOf s m) ∧ t.mem = s.mem ∧ ∀ a, rd t a = rd s a) ∧
    ∀ (s : State) (n : Fin 5) (rd rs : Fin 16) (sr : Fin 10) (ofs : Nat), Issues n s → inService s n = true →
      (sr.val < 6 → ∃ w, ralnelWord (.mfsr n rd sr ofs) = some w ∧ exec (.mfsr n rd sr ofs) s = .next (settle (trap n 2 w s))) ∧
      (sr.val ≠ 9 → ∃ w, ralnelWord (.mtsr n sr rs) = some w ∧ exec (.mtsr n sr rs) s = .next (settle (trap n 2 w s)))

/-- R266 for a table in the core's own data memory: a NaN gives the quiet NaN and V; otherwise the abscissa is held to 0 to N - 1, V says whether
it had to be, and the result is the last entry at N - 1 and else that of the line through the two entries around it, each operation rounded and
flushed as R264 says. Memory, the general registers, the other float registers and the other flags do not change. -/
def Obligations.TableInterpolation : Prop :=
  ∀ (s : State) (n : Fin 5) (fd fs : Fin 8) (ws : Fin 16) (o cnt : Nat) (x0 step : Word) (x xh : FVal) (low high : Bool) (y : Nat → Word),
    Settled s → Issues n s → (∀ m < 5, (coreOf s m).stores = []) → reg s n ws = w32 (0x90040000 + o) → o % 4 = 0 →
    o + 12 + 4 * cnt ≤ dmemSize n → 2 ≤ cnt → cnt ≤ 256 → mread s 4 (localBase n + 0x40000 + o) = x0.toNat →
    mread s 4 (localBase n + 0x40000 + o + 4) = step.toNat → mread s 4 (localBase n + 0x40000 + o + 8) = cnt →
    (∀ k < cnt, mread s 4 (localBase n + 0x40000 + o + 12 + 4 * k) = (y k).toNat) →
    x = rounded (fmul fmt32 (rounded (fsub fmt32 (fin32 (freg s n fs)) (fin32 x0))) (fin32 step)) →
    low = flt x (fofInt 0) → high = flt (fofInt ((cnt : Int) - 1)) x →
    xh = (if low then fofInt 0 else if high then fofInt ((cnt : Int) - 1) else x) →
    ∃ t, exec (.tinterp n fd fs ws) s = .next t ∧ t.mem = s.mem ∧ (∀ r, reg t n r = reg s n r) ∧
      (∀ r, r ≠ fd.val → freg t n r = freg s n r) ∧ (∀ k ∈ [1, 2, 3], nbit (coreOf t n).flags k = nbit (coreOf s n).flags k) ∧
      (coreOf t n).pc = ((coreOf s n).pc + 4) % 2 ^ 32 ∧ (∀ a, rd t a = rd s a) ∧
      ((fin32 (freg s n fs)).isNan = true → freg t n fd = 0x7FC00000 ∧ nbit (coreOf t n).flags 0 = true) ∧
      ((fin32 (freg s n fs)).isNan = false → nbit (coreOf t n).flags 0 = (low || high)) ∧
      ((fin32 (freg s n fs)).isNan = false → x.isNan = false → ∃ i : Nat, ffloor xh = some (i : Int) ∧ i < cnt ∧
        freg t n fd = if i = cnt - 1 then fout32 (fin32 (y i)) else
          fout32 (fadd fmt32 (fin32 (y i)) (rounded (fmul fmt32 (rounded (fsub fmt32 xh (fofInt i)))
            (rounded (fsub fmt32 (fin32 (y (i + 1))) (fin32 (y i))))))))

/-- The words of R255 and the tables of R260 to R275: every well-formed instruction command has a word, that word is an instruction (R254), and
decoding it for the same core gives the command back with every operand, the instant of STAMP, TALLY and MFSR, which no word holds, being 0.
A word that is no instruction decodes to none, an instruction that a word spells has that word, and the words of the worked example spell
its eight instructions. -/
def Obligations.DecodeOfEncode : Prop :=
  (∀ (i : Instr) (n : Fin 5), wellFormed i = true → coreOfInstr i = some n → ∃ w, ralnelWord i = some w ∧ legalWord w = true ∧
      decodeRalnel n w = some (match i with
        | .stamp m wd laps _ => .stamp m wd laps 0
        | .tally m wd k vel _ => .tally m wd k vel 0
        | .mfsr m rd sr _ => .mfsr m rd sr 0
        | _ => i)) ∧
    (∀ (n : Fin 5) (w : Word), legalWord w = false → decodeRalnel n w = none) ∧
    (∀ (n : Fin 5) (w : Word), legalWord w = true → ∃ i, decodeRalnel n w = some i ∧ coreOfInstr i = some n ∧ ralnelWord i = some w) ∧
    decodeRalnel 0 0xC008C044 = some (.wait 0 0 1 2 3) ∧ decodeRalnel 0 0x60608001 = some (.ldw 0 1 8 0 1) ∧
    decodeRalnel 0 0x0C000002 = some (.fence 0) ∧ decodeRalnel 0 0x6864C006 = some (.fldd 0 1 9 0 6) ∧
    decodeRalnel 0 0x08004001 = some (.fadd 0 0 0 1) ∧ decodeRalnel 0 0x41014014 = some (.lui 0 4 0x14014) ∧
    decodeRalnel 0 0x01118004 = some (.or 0 4 4 6) ∧ decodeRalnel 0 0xC11407C3 = some (.qpush 0 31 4 5)

/-- A post of a number that R412 lists reaches every watching core, and no other is ever posted (R234, R412). A masked event or the timeout ends the sleep of WAIT with the common bits, which are cleared, and
Z (R235). RUN, HALT and RESTART are BUSY, BAD_TARGET or refused as R249 says; RUN starts a halted core at ENTRY; a sleeping core halts at once
and a running one at CORE_HALTED or, after 100 us, by force with TIMEOUT (R250); RESTART of a halted core sets it as R251 says. A due commit
descriptor is digested and applied by its kind, late or not (R244 to R246), and a MESSAGE counts its frame (R248). -/
def Obligations.CoreStatesAndCommits : Prop :=
  (∀ (s : State) (e : Fin 256), ∃ t, exec (.eventPost e) s = .next t ∧ (isEvent e = true → Posted e s t) ∧
      (isEvent e = false → Settled s → t = s) ∧ RegsOutside 0 0 s t ∧ ∀ k, same k s t) ∧
    (∀ (s : State) (n : Fin 5) (w : Asleep) (r : Word), Settled s → awake s = true → (coreOf s n).asleep = some w → coreState s n = 1 →
      r = pendWord s n w.group &&& w.mask → ∃ t, exec (.waitReturn n) s = .next t ∧ (r = 0 → ∀ k, same k s t) ∧
      (r ≠ 0 → reg t n w.wd = r ∧ nbit (coreOf t n).flags 2 = false ∧ (coreOf t n).asleep = none ∧
        (coreOf t n).pc = ((coreOf s n).pc + 4) % 2 ^ 32 ∧ pendWord t n w.group = pendWord s n w.group &&& ~~~ r ∧
        flag t (TOP_COREn_STATUS.SLEEP n) = false ∧ t.mem = s.mem ∧ ∀ m, m ≠ n.val → coreOf t m = coreOf s m)) ∧
    (∀ (s : State) (n : Fin 5) (w : Asleep) (ofs : Nat), Settled s → awake s = true → (coreOf s n).asleep = some w → coreState s n = 1 →
      ∃ t, exec (.waitTimeout n ofs) s = .next t ∧
      if 0 < w.timeout ∧ w.timeout ≤ (clk (atOfs ofs s) - w.start) / corePeriod n then
        reg t n w.wd = pendWord s n w.group &&& w.mask ∧ nbit (coreOf t n).flags 2 = decide (pendWord s n w.group &&& w.mask = 0) ∧
        (coreOf t n).asleep = none ∧ (coreOf t n).pc = ((coreOf s n).pc + 4) % 2 ^ 32 ∧ t.mem = s.mem
      else coreOf t n = coreOf s n ∧ t.mem = s.mem ∧ ∀ a, rd t a = rd s a) ∧
    (∀ (s : State) (n : Fin 8), Settled s → ∃ t, exec (.coreRun n) s = .next t ∧ t.mem = s.mem ∧
      if isPending s TOP_CORE_CMD then Answered TOP_CORE_CMD 2 s t else if 4 ≤ n.val then Answered TOP_CORE_CMD 3 s t
      else if coreState s n ≠ 0 then Refused TOP_CORE_CMD s t
      else coreState t n = 1 ∧ inService t n = false ∧ Ended TOP_CORE_CMD 0 t ∧
        coreOf t n = { coreOf s n with pc := (rd s (TOP_COREn_ENTRY n)).toNat } ∧ (∀ m, m ≠ n.val → coreOf t m = coreOf s m) ∧
        ∀ a, a ≠ TOP_CORE_CMD → a ≠ TOP_COREn_STATUS n → rd t a = rd s a) ∧
    (∀ (s : State) (n : Fin 8), Settled s → ∃ t, exec (.coreHalt n) s = .next t ∧
      if isPending s TOP_CORE_CMD then Answered TOP_CORE_CMD 2 s t else if 4 ≤ n.val then Answered TOP_CORE_CMD 3 s t
      else if coreState s n ≠ 1 then Refused TOP_CORE_CMD s t
      else if (coreOf s n).asleep = none then Accepted TOP_CORE_CMD (w32 (n.val * 16 + 2)) s t ∧ coreOf t n = coreOf s n
      else coreState t n = 0 ∧ Ended TOP_CORE_CMD 0 t ∧ (coreOf t n).asleep = none ∧ Posted 181 s t ∧ ∀ r, reg t n r = reg s n r) ∧
    (∀ (s : State) (n : Fin 8) (flush drop : Bool), Settled s → ∃ t, exec (.coreRestart n flush drop) s = .next t ∧
      if isPending s TOP_CORE_CMD then Answered TOP_CORE_CMD 2 s t else if 4 ≤ n.val then Answered TOP_CORE_CMD 3 s t
      else if coreState s n = 1 then ((coreOf s n).asleep = none → ∃ w, opOf w = 3 ∧ Accepted TOP_CORE_CMD w s t ∧ coreOf t n = coreOf s n)
      else (coreOf s n).stores = [] → coreState t n = 1 ∧ inService t n = false ∧ Ended TOP_CORE_CMD 0 t ∧ t.mem = s.mem ∧
        coreOf t n = { pc := (rd s (TOP_COREn_ENTRY n)).toNat, vbase := rd s (TOP_COREn_ENTRY n) &&& 0xFFFFFF00, cycle0 := clk s } ∧
        fld t (TOP_COREn_RESTARTS.COUNT n) = (fld s (TOP_COREn_RESTARTS.COUNT n) + 1) % 2 ^ (TOP_COREn_RESTARTS.COUNT n).w ∧
        (∀ k < 8, pendWord t n k = 0 ∧ rd t (TOP_COREn_WATCHk n k) = 0 ∧ rd t (TOP_COREn_VECk n k) = 0) ∧
        (∀ m, m ≠ n.val → coreOf t m = coreOf s m) ∧
        (∀ l < 12, queueOf t (localQueue n l) = if flush then { } else queueOf s (localQueue n l)) ∧
        (queueOf t (60 + n)).items = (if drop then [] else (queueOf s (60 + n)).items)) ∧
    (∀ (s : State) (n : Fin 4) (c : Acc), haltPending s n = some c → opOf c.word ≠ 3 → (∃ t, exec (.coreHalted n) s = .next t ∧
        coreState t n = 0 ∧ Ended TOP_CORE_CMD 0 t ∧ (coreOf t n).stores = [] ∧ Posted 181 s t ∧ ∀ r, reg t n r = reg s n r) ∧
      (c.at0 + 100000 * 65536 ≤ clk s → ∃ t, exec (.haltTimeout n) s = .next t ∧ coreState t n = 0 ∧ Ended TOP_CORE_CMD 5 t ∧ Posted 181 s t ∧
        ∀ r, reg t n r = reg s n r)) ∧
    (∀ s : State, ¬ s.cores.commitAt < s.bnd → Settled s → exec .commitDescriptorApply s = .next s) ∧
    ∀ (s : State) (n : Fin 5) (e : QEntry) (a v : Word) (tgt : Nat), Settled s → s.cores.commitAt < s.bnd →
      (∀ m < 5, m ≠ n.val → (queueOf s (60 + m)).items = []) → (queueOf s (60 + n)).items = [e] → e.words = [a, v] →
      tgt = fget a 16 12 → ∃ t, exec .commitDescriptorApply s = .next t ∧ t.mem = s.mem ∧ t.cores.commitAt = s.bnd ∧
      if s.bnd ≤ e.bnd ∨ (lapD s : Int) < e.lap then (queueOf t (60 + n)).items = [e] ∧ t.out = s.out ∧ ∀ x, rd t x = rd s x
      else (queueOf t (60 + n)).items = [] ∧ (e.lap < lapD s → Posted 183 s t ∧
          fld t (TOP_COREn_COMMIT_LATE.COUNT n) = satNat (TOP_COREn_COMMIT_LATE.COUNT n).w (fld s (TOP_COREn_COMMIT_LATE.COUNT n) + 1)) ∧
        (fget a 28 4 ≠ 2 → ∃ d, t.out.digest = s.out.digest ++ [d] ∧ d.data.take 10 = bytesLE 2 (fget a 28 4) ++ bytesLE 4 tgt ++ bytesLE 4 v.toNat) ∧
        (fget a 28 4 = 1 → tgt < 32 → rd t (CTL_LOOPn_SETPOINT tgt) = if flag s TWN_STATUS.SAFE then rd s (CTL_LOOPn_SETPOINT tgt) else v) ∧
        (fget a 28 4 = 2 → tgt < 2048 → slSpace s tgt < 6 → flag s TBS_SL_CTRL.EN = false → slEn t tgt = true) ∧
        (fget a 28 4 = 3 → tgt < 16 → flag s TWN_STATUS.SAFE = false → tget (fun _ => 0) s.out.setBy tgt ≤ 1 → sfld t (CTL_AOUTj.CODE tgt) = signed 16 (fget v 0 16)) ∧
        (fget a 28 4 = 4 → tgt < 128 → Posted tgt s t) ∧
        (fget a 28 4 = 5 → tgt < 64 → rd t (TOP_MSGm_SEQ tgt) = w32 (tget (fun _ => 0) s.cores.msgSeq tgt)) ∧
        (6 ≤ fget a 28 4 ∨ (fget a 28 4 = 1 ∧ 32 ≤ tgt) ∨ (fget a 28 4 = 2 ∧ 2048 ≤ tgt) ∨ (fget a 28 4 = 4 ∧ 128 ≤ tgt) ∨
          (fget a 28 4 = 5 ∧ 64 ≤ tgt) → fld t TOP_COMMIT_BAD.COUNT = satNat TOP_COMMIT_BAD.COUNT.w (fld s TOP_COMMIT_BAD.COUNT + 1))

/-- R293 to R295: enabling enters LISTEN, TEST, or for a mode that the lane does not accept OFF with BAD_MODE; disabling enters OFF; a wake
burst of training blocks leaves in LISTEN, scrambled as the line carries it; signal leads to ACQUIRE at RATE_MAX, attempt 1; block lock to TRAIN, TRAIN_PRESET or UP; a training block reports the
role, steps a coefficient that its partner asks for within the limits of R288 and answers it, and with RX_READY on both sides leads to CONFIRM;
GO and the 64 blocks of CONFIRM lead to UP; an inverted partner is followed where AUTO_POL is set; a spent budget to attempt 2, the next lower rate or FAIL; a partner at a lower rate pulls the lane down. All while the hub is awake (R414). -/
def Obligations.LaneBringUp : Prop :=
  (∀ (s : State) (n : Fin 4), Settled s → ∃ t, exec (.laneEnable n) s = .next t ∧ t.mem = s.mem ∧ (∀ j < 4, j ≠ n.val → laneState t j = laneState s j) ∧
      if flag s (LNK_LANEn_CTRL.EN n) then ∀ k, same k s t
      else flag t (LNK_LANEn_CTRL.EN n) = true ∧ flag t (LNK_LANEn_STATUS.BAD_MODE n) = decide (modeOf n (rd s (LNK_LANEn_CTRL n)) = 0) ∧
        laneState t n = if modeOf n (rd s (LNK_LANEn_CTRL n)) = 5 then 9 else if modeOf n (rd s (LNK_LANEn_CTRL n)) = 0 then 0 else 1) ∧
    (∀ (s : State) (n : Fin 4), flag s (LNK_LANEn_CTRL.EN n) = true → ∃ t, exec (.laneDisable n) s = .next t ∧ t.mem = s.mem ∧ (∀ j < 4, j ≠ n.val → laneState t j = laneState s j) ∧
      flag t (LNK_LANEn_CTRL.EN n) = false ∧ laneState t n = 0 ∧ (laneState s n = 6 → Posted 190 s t ∧
        flag t (LNK_LANEn_SEEN.DOWN n) = true ∧ fld t (LNK_LANEn_COUNT.DOWNS n) = satNat 16 (fld s (LNK_LANEn_COUNT.DOWNS n) + 1))) ∧
    (∀ (s : State) (n : Fin 4) (ofs k : Nat), awake s = true → laneState s n = 1 → laneMode s n = 1 → (laneOf s n).wake = 0 →
      k = bitsIn s n (nsec 2000000) / 66 → ∃ t, exec (.wakeBurst n ofs) s = .next t ∧ 0 < k ∧ t.mem = s.mem ∧ (∀ j < 4, j ≠ n.val → laneState t j = laneState s j) ∧
        t.sent = s.sent ++ [⟨.lane n, (runBytes (txInv s n) [] (laneOf s n).scram (txFree (atOfs ofs s) n)
          ((List.range k).map (fun i => (true, trainBlock s n ((laneOf s n).blocks + i) false)))).1⟩]) ∧
    (∀ (s : State) (n : Fin 4) (k : Nat) (go : Bool), ∃ b, trainBlock s n k go = b ∧ b.length = 8 ∧ b.getD 0 0 = 0x5A ∧
      (b.getD 3 0).toNat % 4 = laneRate s n ∧ (b.getD 3 0).toNat / 4 % 4 = n.val ∧ nbit (b.getD 2 0).toNat 7 = go ∧
      (b.getD 7 0).toNat = crc8 (b.take 7) % 256) ∧
    (∀ (s : State) (n : Fin 4), awake s = true → laneState s n = 1 → modeOf n (rd s (LNK_LANEn_CTRL n)) ≠ 0 → modeOf n (rd s (LNK_LANEn_CTRL n)) ≠ 5 →
      ∃ t, exec (.lnkSignal n) s = .next t ∧ laneState t n = 2 ∧ laneRate t n = fget (rd s (LNK_LANEn_CTRL n)) 26 2 ∧
        fld t (LNK_LANEn_STATUS.ATTEMPT n) = 1 ∧ hasSignal t n = true ∧ flag t (LNK_LANEn_STATUS.ABSENT n) = false ∧ Posted 188 s t ∧
        fld t (LNK_LANEn_COUNT.TRAININGS n) = satNat 16 (fld s (LNK_LANEn_COUNT.TRAININGS n) + 1) ∧ t.mem = s.mem ∧ (∀ j < 4, j ≠ n.val → laneState t j = laneState s j)) ∧
    (∀ (s : State) (n : Fin 4) (ofs : Nat), awake s = true → laneState s n = 1 → (laneOf s n).absentPosted = false →
      (laneOf s n).since + nsec 1000000000 ≤ clk (atOfs ofs s) → ∃ t, exec (.lnkAbsent n ofs) s = .next t ∧
        flag t (LNK_LANEn_STATUS.ABSENT n) = true ∧ laneState t n = 1 ∧ (laneOf t n).absentPosted = true ∧ Posted 193 s t ∧ (∀ j < 4, j ≠ n.val → laneState t j = laneState s j)) ∧
    (∀ (s : State) (n : Fin 4) (ofs : Nat), awake s = true → ∃ t, exec (.blockLock n ofs) s = .next t ∧ (∀ j < 4, j ≠ n.val → laneState t j = laneState s j) ∧
      (laneState s n = 2 → laneMode s n = 1 ∨ laneMode s n = 3 →
        laneState t n = if fld s (LNK_LANEn_STATUS.ATTEMPT n) = 2 then 4 else 3) ∧
      (laneState s n = 2 → laneMode s n ≠ 1 → laneMode s n ≠ 3 → laneState t n = 6 ∧ Posted 189 s t) ∧
      (laneState s n = 7 → laneState t n = 6 ∧ Posted 189 s t) ∧
      (laneState s n ≠ 2 → laneState s n ≠ 7 → laneState t n = laneState s n)) ∧
    (∀ (s : State) (n : Fin 4) (bytes : List Byte) (inverted : Bool) (b : TrainBlock), awake s = true → laneState s n = 3 → laneMode s n = 1 →
      parseTrain bytes = some b →
      inverted = (nbit (laneOf s n).taken.toNat 22 != (laneOf s n).rxFlip) ∨ nbit (laneOf s n).taken.toNat 24 = true →
      ∃ t, exec (.trainingBlockReceive n bytes inverted) s = .next t ∧ (∀ j < 4, j ≠ n.val → laneState t j = laneState s j) ∧ t.mem = s.mem ∧
        (laneOf t n).rxFlip = (inverted != nbit (laneOf s n).taken.toNat 22) ∧
        ((laneOf t n).rxFlip ≠ (laneOf s n).rxFlip → flag t (LNK_LANEn_STATUS.POL_DETECTED n) = true) ∧
        fld t (LNK_LANEn_STATUS.PARTNER_ROLE n) = b.role ∧ flag t (LNK_LANEn_STATUS.PARTNER_VALID n) = true ∧
        laneState t n = (if (laneOf s n).rxReady = true ∧ 8 ≤ (laneOf s n).readyGot + bit b.ready then 5 else 3) ∧
        ((laneOf s n).asks.1 ≠ 0 → b.st.1 ≠ 0 → (laneOf t n).asks.1 = 0) ∧
        ((laneOf s n).asks.1 ≠ 0 → b.st.1 = 0 → (laneOf t n).asks.1 = (laneOf s n).asks.1) ∧
        (b.preset = true → tapsOf (rd t (LNK_LANEn_TX_TAPS n)) = (4, 51, 8)) ∧
        (b.preset = false → b.req = (0, 0, 0) → tapsOf (rd t (LNK_LANEn_TX_TAPS n)) = tapsOf (rd s (LNK_LANEn_TX_TAPS n)) ∧
          (laneOf t n).answers = (0, 0, 0)) ∧
        (∀ pre main post, tapsOf (rd s (LNK_LANEn_TX_TAPS n)) = (pre, main, post) → b.preset = false → b.req = (0, 0, 1) →
          (laneOf s n).answers.2.2 = 0 → ((laneOf t n).answers.2.2, tapsOf (rd t (LNK_LANEn_TX_TAPS n))) =
            if post < 31 ∧ pre + main + (post + 1) ≤ 63 ∧ pre + (post + 1) + 16 ≤ main then (1, pre, main, post + 1)
            else (3, pre, main, post))) ∧
    (∀ (s : State) (n : Fin 4) (bytes : List Byte) (inverted : Bool), awake s = true → laneMode s n = 1 → parseTrain bytes = none →
      ∃ t, exec (.trainingBlockReceive n bytes inverted) s = .next t ∧ laneState t n = laneState s n ∧ (∀ j < 4, j ≠ n.val → laneState t j = laneState s j) ∧ t.mem = s.mem ∧
        (laneOf t n).trainRun = (if bytes.head? = some 0x3C then (laneOf s n).trainRun else 0) ∧
        rd t (LNK_LANEn_TX_TAPS n) = rd s (LNK_LANEn_TX_TAPS n)) ∧
    (∀ (s : State) (n : Fin 4) (height width : BitVec 16), Settled s → ∃ t, exec (.rxReady n height width) s = .next t ∧
      if awake s = true ∧ (laneState s n = 3 ∨ laneState s n = 4) ∧ 60 < height.toNat ∧ 300 < width.toNat then
        rd t (LNK_LANEn_EYE n) = height ++ width ∧ laneState t n = (if 8 ≤ (laneOf s n).readyGot then 5 else laneState s n) ∧ (∀ j < 4, j ≠ n.val → laneState t j = laneState s j)
      else ∀ k, same k s t) ∧
    (∀ (s : State) (n : Fin 4) (ofs : Nat), awake s = true → laneState s n = 5 → laneMode s n = 1 ∨ laneMode s n = 3 → (laneOf s n).go = true →
      64 ≤ (laneOf s n).confirm + (txBits (atOfs ofs s) n - (laneOf s n).txPos) / (if laneMode s n = 3 then frame72Bits else 66) →
      ∃ t, exec (.lnkUp n ofs) s = .next t ∧ laneState t n = 6 ∧ Posted 189 s t ∧ flag t ⟨LNK_STATUS, n, 1⟩ = true ∧ (∀ j < 4, j ≠ n.val → laneState t j = laneState s j)) ∧
    (∀ (s : State) (n : Fin 4) (ofs : Nat), awake s = true → laneState s n ∈ [2, 3, 4] → laneMode s n = 1 → modeOf n (rd s (LNK_LANEn_CTRL n)) = 1 →
      (laneOf s n).attempt + nsec 500000000 ≤ clk (atOfs ofs s) → ∃ t, exec (.trainingBudgetExpire n ofs) s = .next t ∧ (∀ j < 4, j ≠ n.val → laneState t j = laneState s j) ∧ t.mem = s.mem ∧
      if fld s (LNK_LANEn_STATUS.ATTEMPT n) ≤ 1 then
        laneState t n = 2 ∧ fld t (LNK_LANEn_STATUS.ATTEMPT n) = 2 ∧ laneRate t n = laneRate s n
      else if fget (laneOf s n).taken 25 1 = 1 ∧ laneRate s n < 3 then
        laneState t n = 2 ∧ fld t (LNK_LANEn_STATUS.ATTEMPT n) = 1 ∧ laneRate t n = laneRate s n + 1 ∧ Posted 191 s t ∧
        flag t (LNK_LANEn_SEEN.FALLBACK n) = true
      else laneState t n = 8 ∧ fld t (LNK_LANEn_STATUS.FAIL_CAUSE n) = (if (laneOf s n).goodSeen then 2 else 1) ∧ Posted 192 s t ∧
        flag t (LNK_LANEn_SEEN.FAIL n) = true ∧ flag t ⟨LNK_STATUS, 8 + n, 1⟩ = true) ∧
    ∀ (s : State) (n : Fin 4) (rate : Fin 4), awake s = true → laneState s n = 2 ∨ laneState s n = 3 → laneMode s n = 1 →
      modeOf n (rd s (LNK_LANEn_CTRL n)) = 1 → laneRate s n < rate.val → ∃ t, exec (.partnerRateDetect n rate) s = .next t ∧
        laneState t n = 2 ∧ laneRate t n = rate.val ∧ fld t (LNK_LANEn_STATUS.ATTEMPT n) = 1 ∧ Posted 191 s t ∧ (∀ j < 4, j ≠ n.val → laneState t j = laneState s j)

/-- R296: loss of signal aborts training to LISTEN and takes UP to RELOCK with LNK_DOWN; RELOCK ends after 10 ms in LISTEN or ACQUIRE; a partner
that retrains takes the lane to ACQUIRE at its rate; FAIL ends after FAIL_RETRY seconds; RETRAIN leads to ACQUIRE at RATE_MAX or between TEST
and LISTEN and is refused in OFF. INJECT acts in UP and TEST by its mode (R300). Sparse transitions freeze adaptation and are counted (R290); a
fill block of type 0x3C is sent, and whole idle blocks of type 0x1E while nothing else leaves, all through the scrambler (R291). The checker starts from zero counts, locks and loses lock; enabling it under traffic is a misuse (R298,
R403). The lanes are at work where the hub is awake (R414). -/
def Obligations.LaneLossAndTest : Prop :=
  (∀ (s : State) (n : Fin 4), awake s = true → laneState s n ≠ 0 → ∃ t, exec (.lossOfSignal n) s = .next t ∧ (∀ j < 4, j ≠ n.val → laneState t j = laneState s j) ∧ hasSignal t n = false ∧
      flag t (LNK_LANEn_SEEN.LOS n) = true ∧ t.mem = s.mem ∧
      (laneState s n ∈ [2, 3, 4, 5] → laneState t n = 1 ∧ flag t (LNK_LANEn_SEEN.ABORT n) = true ∧
        laneRate t n = fget (laneOf s n).taken 26 2 ∧ (laneMode s n = 1 → tapsOf (rd t (LNK_LANEn_TX_TAPS n)) = (4, 51, 8))) ∧
      (laneState s n = 6 → laneState t n = 7 ∧ Posted 190 s t ∧ flag t (LNK_LANEn_SEEN.DOWN n) = true) ∧
      (laneState s n ∈ [1, 7, 8, 9] → laneState t n = laneState s n)) ∧
    (∀ (s : State) (n : Fin 4), awake s = true → laneState s n = 6 → ∃ t, exec (.lnkDown n) s = .next t ∧ (∀ j < 4, j ≠ n.val → laneState t j = laneState s j) ∧ laneState t n = 7 ∧ Posted 190 s t ∧
      flag t (LNK_LANEn_SEEN.DOWN n) = true ∧ fld t (LNK_LANEn_COUNT.DOWNS n) = satNat 16 (fld s (LNK_LANEn_COUNT.DOWNS n) + 1)) ∧
    (∀ (s : State) (n : Fin 4) (ofs : Nat) (signal : Bool), awake s = true → laneState s n = 7 → modeOf n (rd s (LNK_LANEn_CTRL n)) = 1 →
      (laneOf s n).since + nsec 10000000 ≤ clk (atOfs ofs s) → ∃ t, exec (.relockTimeout n ofs signal) s = .next t ∧ (∀ j < 4, j ≠ n.val → laneState t j = laneState s j) ∧
        (if signal then laneState t n = 2 ∧ laneRate t n = fget (rd s (LNK_LANEn_CTRL n)) 26 2 else laneState t n = 1) ∧ t.mem = s.mem) ∧
    (∀ (s : State) (n : Fin 4), awake s = true → laneState s n = 6 ∨ laneState s n = 7 → modeOf n (rd s (LNK_LANEn_CTRL n)) = 1 → 4 ≤ (laneOf s n).trainRun →
      (laneOf s n).trainRate < 4 → ∃ t, exec (.partnerRetrainDetect n) s = .next t ∧ (∀ j < 4, j ≠ n.val → laneState t j = laneState s j) ∧ laneState t n = 2 ∧
        laneRate t n = (laneOf s n).trainRate ∧ fld t (LNK_LANEn_STATUS.ATTEMPT n) = 1 ∧ Posted 190 s t) ∧
    (∀ (s : State) (n : Fin 4) (ofs : Nat) (signal : Bool), awake s = true → laneState s n = 8 → modeOf n (rd s (LNK_LANEn_CTRL n)) = 1 →
      0 < fld s (LNK_LANEn_CTRL.FAIL_RETRY n) →
      (laneOf s n).since + nsec (1000000000 * fld s (LNK_LANEn_CTRL.FAIL_RETRY n)) ≤ clk (atOfs ofs s) →
      ∃ t, exec (.failRetry n ofs signal) s = .next t ∧ (∀ j < 4, j ≠ n.val → laneState t j = laneState s j) ∧ (laneState t n = if signal then 2 else 1) ∧
        flag t ⟨LNK_STATUS, 8 + n, 1⟩ = false) ∧
    (∀ (s : State) (n : Fin 4) (m : Nat), m = modeOf n (rd s (LNK_LANEn_CTRL n)) → m ≠ 0 → ∃ t, exec (.retrain n) s = .next t ∧ (∀ j < 4, j ≠ n.val → laneState t j = laneState s j) ∧
      (laneState s n = 0 → Settled s → Refused (LNK_LANEn_CMD n) s t) ∧ (laneState s n ≠ 0 → Ended (LNK_LANEn_CMD n) 0 t) ∧
      (laneState s n = 9 → laneState t n = if m = 5 then 9 else 1) ∧
      (laneState s n ∈ [1, 2, 3, 4, 5, 6, 7, 8] → laneState t n = (if m = 5 then 9 else 2) ∧ (m ≠ 5 →
        laneRate t n = fget (rd s (LNK_LANEn_CTRL n)) 26 2 ∧ fld t (LNK_LANEn_STATUS.ATTEMPT n) = 1) ∧ (laneState s n = 6 → Posted 190 s t) ∧
        (laneState s n = 1 → m ≠ 5 → Posted 188 s t))) ∧
    (∀ (s : State) (n : Fin 4), Settled s → (laneOf s n).injFrom = 0 → ∃ t, exec (.laneInject n) s = .next t ∧ t.mem = s.mem ∧
      if laneState s n = 6 ∨ laneState s n = 9 then Ended (LNK_LANEn_CMD n) 0 t ∧
        (flag s (LNK_LANEn_INJ_CFG.TARGET n) = decide (laneState s n = 6) →
          flag s (LNK_LANEn_INJ_CFG.TARGET n) = true ∨ flag s (LNK_LANEn_PRBS_CTRL.GEN_EN n) = true →
          (fld s (LNK_LANEn_INJ_CFG.MODE n) = 1 → (laneOf t n).flips = (laneOf (flow n [] s) n).flips ++ [txFree (flow n [] s) n] ∧
            fld t (LNK_LANEn_INJ_COUNT.COUNT n) = satNat 32 (fld s (LNK_LANEn_INJ_COUNT.COUNT n) + 1)) ∧
          (fld s (LNK_LANEn_INJ_CFG.MODE n) = 2 → (laneOf t n).flips = (laneOf (flow n [] s) n).flips ++
              (List.range (fld s (LNK_LANEn_INJ_CFG.LEN n) + 1)).map (fun i => txFree (flow n [] s) n + i) ∧
            fld t (LNK_LANEn_INJ_COUNT.COUNT n) =
            satNat 32 (fld s (LNK_LANEn_INJ_COUNT.COUNT n) + (fld s (LNK_LANEn_INJ_CFG.LEN n) + 1))) ∧
          (fld s (LNK_LANEn_INJ_CFG.MODE n) = 3 → (laneOf t n).injFrom = txFree (flow n [] s) n + 1 ∧ (laneOf t n).injWin = 0 ∧
            (laneOf t n).injReg = prbsSeed 23)) ∧
        (fld s (LNK_LANEn_INJ_CFG.MODE n) = 0 → laneOf t n = laneOf (flow n [] s) n)
      else Refused (LNK_LANEn_CMD n) s t) ∧
    (∀ (s : State) (n : Fin 4) (ofs k : Nat), awake s = true → laneState s n ∈ [2, 3, 4, 5, 6, 9] → 16 * k < bitsIn s n (nsec 1000) →
      ∃ t, exec (.adaptFreeze n ofs k) s = .next t ∧ flag t (LNK_LANEn_STATUS.ADAPT_FROZEN n) = true ∧
        flag t (LNK_LANEn_SEEN.FREEZE n) = true ∧ laneState t n = laneState s n ∧
        fld t (LNK_LANEn_FREEZE_CNT.WINDOWS n) = satNat 32 (fld s (LNK_LANEn_FREEZE_CNT.WINDOWS n) + 1)) ∧
    (∀ (s s0 : State) (n : Fin 4) (ofs : Nat) (b : List Byte), s0 = flow n [] (atOfs ofs s) → Settled s → awake s = true → laneMode s n = 1 → laneState s n = 6 ∨ laneState s n = 7 →
      injTargets s n = false → b = packBits (prbsRun 31 56 (laneOf s n).fill).1 → ∃ t, exec (.fillBlockSend n ofs) s = .next t ∧
        t.sent = s0.sent ++ [⟨.lane n, (runBytes (txInv s n) [] (laneOf s0 n).scram (txFree s0 n) [(true, 0x3C :: b)]).1⟩] ∧
        b.length = 7 ∧ (laneOf t n).fill = (prbsRun 31 56 (laneOf s n).fill).2 ∧ ∀ a, rd t a = rd s a) ∧
    (∀ (s : State) (n : Fin 4) (p k : Nat), laneMode s n = 1 → laneState s n = 6 ∨ laneState s n = 7 → injTargets s n = false →
      p = (laneOf s n).txPos → p < txBits s n → k = (txBits s n - p + 65) / 66 →
      (flow n [] s).sent = s.sent ++ [⟨.lane n, (runBytes (txInv s n) [] (laneOf s n).scram p (List.replicate k idleBlock)).1⟩] ∧
        (laneOf (flow n [] s) n).txPos = p + 66 * k) ∧
    (∀ (s : State) (n : Fin 4), flag s (LNK_LANEn_PRBS_CTRL.CHK_EN n) = false →
      (laneState s n = 6 → exec (.prbsChkEnable n) s = .fault .misusePrbsCheck) ∧
      (laneState s n ≠ 6 → ∃ t, exec (.prbsChkEnable n) s = .next t ∧ flag t (LNK_LANEn_PRBS_CTRL.CHK_EN n) = true ∧
        (laneOf t n).chk = { } ∧ flag t (LNK_LANEn_PRBS_STATUS.LOCK n) = false)) ∧
    (∀ (s : State) (n : Fin 4) (ofs : Nat) (bits : List Bool) (i : Instr) (inv : Bool) (c : Checker),
      i = (if flag s (LNK_LANEn_PRBS_STATUS.LOCK n) then .lnkPrbsLost n ofs bits else .prbsLock n ⟨ofs, bits⟩) → laneState s n = 9 →
      flag s (LNK_LANEn_PRBS_CTRL.CHK_EN n) = true → fget (laneOf s n).taken 20 2 ≠ 1 → awake s = true →
      inv = (flag s (LNK_LANEn_PRBS_CTRL.INV n) != nbit (laneOf s n).taken.toNat 22) →
      c = bits.foldl (fun c b => compareBit (laneOrder s n) c (b != inv)) { (laneOf s n).chk with lost := false } →
      ∃ t, exec i s = .next t ∧ (laneOf t n).chk = c ∧ flag t (LNK_LANEn_PRBS_STATUS.LOCK n) = c.lock ∧ t.mem = s.mem ∧
        (c.lost = true → flag t (LNK_LANEn_PRBS_STATUS.LOCK_LOST n) = true ∧ Posted 194 s t)) ∧
    ∀ (order : Nat) (c : Checker) (b : Bool),
      (c.lock = false → (compareBit order c b).bits = c.bits ∧ (compareBit order c b).errs = c.errs ∧
        (c.run < order ∨ nbit (prbsStep order c.reg) 0 = b → (compareBit order c b).run = c.run + 1) ∧
        ((compareBit order c b).lock = true ↔ order + 64 ≤ (compareBit order c b).run)) ∧
      (c.lock = true → (compareBit order c b).bits = satNat 48 (c.bits + 1) ∧
        (compareBit order c b).errs = satNat 48 (c.errs + bit (nbit (prbsStep order c.reg) 0 != b)) ∧
        ((compareBit order c b).lost = true ∨ c.lost = true ∨ (compareBit order c b).missed ≤ 32))

/-- R310 to R312: on every link the bytes of a frame whose fields fit the header, whose type the link knows and whose payload has at most 492
bytes parse to that frame; with any bytes in place of its last four whose number is another one, only the CRC-32 fails, and the header still
stands; with the two bytes of HCRC another number, the header fails. -/
def Obligations.FramesReadBackFromTheirBytes : Prop :=
  ∀ (l : Nat) (f : LineFrame), f.vc < 4 → f.type < 16 → typeKnown l f.type = true → f.dst < 1024 → f.epoch < 32 → f.src < 1024 → f.lseq < 256 →
    f.lack < 256 → f.hops < 1024 → f.aux < 65536 → f.payload.length ≤ 492 →
    parseFrame l (frameBytes f) = .good f ∧ (frameBytes f).length = 20 + f.payload.length ∧
    (∀ tail : List Byte, tail.length = 4 → tail ≠ (frameBytes f).drop (16 + f.payload.length) →
      parseFrame l ((frameBytes f).take (16 + f.payload.length) ++ tail) = .badCrc f) ∧
    ∀ h rest : List Byte, h.length = 2 → h ≠ ((frameBytes f).drop 14).take 2 → parseFrame l ((frameBytes f).take 14 ++ h ++ rest) = .badHeader

/-- R311, R313, R314: on a link that runs, a good frame with the expected LSEQ is accepted, a good one with another LSEQ or one whose CRC-32 fails
is not and owes one NAK, a bad header is counted and nothing else; LACK and ACK frames free what they acknowledge, and a NAK has the rest sent
again. A hub forwards a TALLY frame and a cut-through frame whose CRC failed (R316, R322), and a unicast frame for another address; one for its
own address is delivered (R318). -/
def Obligations.LineFramesReceived : Prop :=
  (∀ (s : State) (l : Fin 3) (ofs : Nat) (bytes : List Byte), Settled s → ∃ t, exec (.wotFrameReceive l ofs bytes) s = .next t ∧
      t.mem = s.mem ∧ t.sent = s.sent ∧
      if awake s = false ∨ linkUp s l = false then t.wot = s.wot ∧ ∀ a, rd t a = rd s a
      else match parseFrame l bytes with
        | .badHeader => t.wot = s.wot ∧ (l.val < 2 → fld t (WOT_LINKl_ERR.CRC l) = satNat 16 (fld s (WOT_LINKl_ERR.CRC l) + 1))
        | .badForm f => t.wot.inbox = s.wot.inbox ∧ (vcOf t l f.vc).expect = (vcOf s l f.vc).expect ∧ (vcOf t l f.vc).naked = true ∧
          (l.val < 2 → fld t (WOT_LINKl_DROP.DROP l) = satNat 32 (fld s (WOT_LINKl_DROP.DROP l) + 1))
        | .badCrc f => (vcOf t l f.vc).expect = (vcOf s l f.vc).expect ∧ (vcOf t l f.vc).naked = true ∧
          (l.val < 2 → fld t (WOT_LINKl_ERR.CRC l) = satNat 16 (fld s (WOT_LINKl_ERR.CRC l) + 1)) ∧
          t.wot.inbox = s.wot.inbox ++ (if f.cut = true ∧ f.lseq = (vcOf s l f.vc).expect ∧ l.val < 2 then
            [⟨l, rxStamp l (atOfs ofs s), f, true⟩] else []) ∧
          ((vcOf s l f.vc).naked = true → (linkOf t l).acks = (linkOf s l).acks) ∧
          ((vcOf s l f.vc).naked = false → (f.vc, true) ∈ (linkOf t l).acks)
        | .good f => f.type ≠ 0 → (∀ a, l.val < 2 → a = WOT_LINKl_ERR l ∨ rd t a = rd s a) ∧
          if f.lseq = (vcOf s l f.vc).expect then
            (vcOf t l f.vc).expect = (f.lseq + 1) % 256 ∧ (vcOf t l f.vc).owed = (vcOf s l f.vc).owed + 1 ∧
            t.wot.inbox = s.wot.inbox ++ [⟨l, rxStamp l (atOfs ofs s), f, false⟩]
          else (vcOf t l f.vc).expect = (vcOf s l f.vc).expect ∧ (vcOf t l f.vc).naked = true ∧ t.wot.inbox = s.wot.inbox ∧
            (l.val < 2 → fld t (WOT_LINKl_ERR.SEQ l) = satNat 16 (fld s (WOT_LINKl_ERR.SEQ l) + 1))) ∧
    (∀ (s : State) (l : Fin 3) (ofs : Nat) (bytes : List Byte) (f : LineFrame), Settled s → awake s = true → linkUp s l = true → parseFrame l bytes = .good f →
      f.type = 0 → ∃ t, exec (.ackReceive l ofs bytes) s = .next t ∧ t.wot.inbox = s.wot.inbox ∧ (∀ a, rd t a = rd s a) ∧
        let x := vcOf s l f.vc
        let k := (f.lack + 256 - baseSeq x) % 256
        (vcOf t l f.vc).unacked = x.unacked.drop (if k ≤ x.unacked.length then k else 0) ∧
        (f.nak = true → (vcOf t l f.vc).unacked ≠ [] → (vcOf t l f.vc).again = some 0)) ∧
    (∀ (s : State) (l : Fin 3) (ofs : Nat) (bytes : List Byte), Settled s → awake s = true → linkUp s l = true →
      ∃ t, exec (.ackReceive l ofs bytes) s = .next t ∧ ((∀ f, parseFrame l bytes ≠ .good f) → t.wot = s.wot) ∧
        (parseFrame l bytes = .badHeader → l.val < 2 → fld t (WOT_LINKl_ERR.CRC l) = satNat 16 (fld s (WOT_LINKl_ERR.CRC l) + 1)) ∧
        ∀ f, (parseFrame l bytes = .badCrc f → l.val < 2 → fld t (WOT_LINKl_ERR.CRC l) = satNat 16 (fld s (WOT_LINKl_ERR.CRC l) + 1)) ∧
          (parseFrame l bytes = .badForm f → l.val < 2 → fld t (WOT_LINKl_DROP.DROP l) = satNat 32 (fld s (WOT_LINKl_DROP.DROP l) + 1))) ∧
    (∀ (s : State) (ofs : Nat) (pre rest : List Arrived) (a : Arrived), Settled s → s.wot.inbox = pre ++ a :: rest →
      (∀ b ∈ pre, 2 ≤ b.lane ∨ (b.bad = false ∧ b.frame.type ≠ 8)) → a.lane < 2 → a.bad = true ∨ a.frame.type = 8 →
      ∃ t, exec (.cutThroughForward ofs) s = .next t ∧ t.wot.inbox = pre ++ rest ∧ t.sent = s.sent ∧
        let l := laneToward a.frame.west
        (1023 ≤ a.frame.hops → fld t (WOT_LINKl_DROP.DROP a.lane) = satNat 32 (fld s (WOT_LINKl_DROP.DROP a.lane) + 1)) ∧
        (a.frame.hops < 1023 → onLine s l = false → t.wot = { s.wot with inbox := pre ++ rest }) ∧
        let c : CutFrame := ⟨{ a.frame with hops := a.frame.hops + 1 }, some (a.stamp, (delayIn s a.lane).getD 0), a.lane, a.frame.lseq, a.bad⟩
        let waits := fun (d : CutFrame) => d.arrival.isSome && d.bad && decide (d.lane = a.lane ∧ d.lseq = a.frame.lseq ∧ d.frame.vc = a.frame.vc)
        let hole := fun (u : Unacked) => decide (u.hole = some (a.lane, a.frame.lseq))
        (a.frame.hops < 1023 → onLine s l = true →
          ((vcOf s l a.frame.vc).unacked.any hole = false → (linkOf s l).cut.any waits = false →
            (linkOf t l).cut = (linkOf s l).cut ++ [c]) ∧
          ((vcOf s l a.frame.vc).unacked.any hole = true → (linkOf t l).cut = (linkOf s l).cut ∧
            (vcOf t l a.frame.vc).unacked = (vcOf s l a.frame.vc).unacked.map (fun u => if hole u && !a.bad then
              ⟨{ c.frame with lseq := u.frame.lseq, retx := true }, none⟩ else u)) ∧
          ((vcOf s l a.frame.vc).unacked.any hole = false → (linkOf s l).cut.any waits = true →
            (linkOf t l).cut = (linkOf s l).cut.map (fun d => if waits d && !a.bad then c else d)))) ∧
    ∀ (s : State) (pre rest : List Arrived) (a : Arrived), Settled s → s.wot.inbox = pre ++ a :: rest →
      (∀ b ∈ pre, b.frame.type ≠ 5 ∧ (b.frame.type = 1 → 2 ≤ b.lane)) → a.frame.type = 5 ∨ (a.frame.type = 1 ∧ a.lane < 2) →
      ∃ t, exec .unicastFrameReceive s = .next t ∧ t.wot.inbox = pre ++ rest ∧ t.sent = s.sent ∧
        let l := laneToward a.frame.west
        (a.lane = 2 ∨ (ownAddr s = some a.frame.dst ∧ isHead s = false) →
          t.wot = { s.wot with inbox := pre ++ rest, delivered := s.wot.delivered ++ [a.frame] } ∧ ∀ b, rd t b = rd s b) ∧
        (a.lane ≠ 2 → ownAddr s ≠ some a.frame.dst → a.frame.hops < 1023 →
          (onLine s l = true → (vcOf t l a.frame.vc).queue = (vcOf s l a.frame.vc).queue ++ [{ a.frame with hops := a.frame.hops + 1 }]) ∧
          (onLine s l = false → fld t (WOT_LINKl_DROP.DROP l) = satNat 32 (fld s (WOT_LINKl_DROP.DROP l) + 1)))

/-- R314: an acknowledgement is owed after 16 frames or 2 us. R317: ACK frames leave first; then, with no cut-through frame waiting, frames that
are sent again, marked RETX and counted; then the first VC in the order 3, 0, 2, 1 that has a frame and room sends one with its next LSEQ and
the LACK it expects, which stays unacknowledged. R313: a spent ACK_TO has every unacknowledged frame sent again, and RETRY_MAX of them the lane
retrained. R333: enabling the injector starts its
sequence, and a held frame leaves after its delay, while the link runs. The bits on the lane are those of R287 and R306, behind the idle before them, with the errors
injected there. A new own frame is what the streams and outputs have ready at that boundary (R317, R324). -/
def Obligations.LineFramesSent : Prop :=
  (∀ (s : State) (l : Fin 3) (v : Fin 4) (ofs : Nat), linkUp s l = true → Settled s → ∃ t, exec (.ackSend l v ofs) s = .next t ∧
      t.sent = s.sent ∧ (∀ a, rd t a = rd s a) ∧
      if 16 ≤ (vcOf s l v).owed ∨ (0 < (vcOf s l v).owed ∧ (vcOf s l v).owedAt + nsec 2000 ≤ clk (atOfs ofs s)) then
        (v.val, false) ∈ (linkOf t l).acks ∧ (vcOf t l v).owed = 0
      else t.wot = s.wot) ∧
    (∀ (s : State) (l : Fin 3) (v : Fin 4) (ofs : Nat), linkUp s l = true → (vcOf s l v).unacked ≠ [] →
      (vcOf s l v).since + nsec (1000 * max 1 (fld s WOT_TIMING.ACK_TO)) ≤ clk (atOfs ofs s) →
      ∃ t, exec (.ackTimeout l v ofs) s = .next t ∧
        ((vcOf s l v).tries + 1 < max 1 (fld s WOT_TIMING.RETRY_MAX) → (vcOf t l v).again = some 0 ∧
          (vcOf t l v).tries = (vcOf s l v).tries + 1 ∧ (vcOf t l v).unacked = (vcOf s l v).unacked ∧ laneState t l = laneState s l) ∧
        (max 1 (fld s WOT_TIMING.RETRY_MAX) ≤ (vcOf s l v).tries + 1 → modeOf l (rd s (LNK_LANEn_CTRL l)) = 1 → laneState t l = 2)) ∧
    (∀ (s : State) (l : Fin 3) (ofs v : Nat) (nak : Bool) (rest : List (Nat × Bool)), awake s = true → linkUp s l = true →
      (linkOf s l).acks = (v, nak) :: rest → ∃ t f, exec (.frameBoundary l ofs) s = .next t ∧
        t.sent = sentLine l (frameBytes f) (atOfs ofs s) ∧
        f.type = 0 ∧ f.vc = v ∧ f.nak = nak ∧ f.lack = (vcOf s l v).expect ∧ f.payload = [] ∧ (linkOf t l).acks = rest) ∧
    (∀ (s s0 : State) (l : Fin 3) (ofs i : Nat) (v : Fin 4) (u : Unacked), s0 = feedStream l (moveFrames (atOfs ofs s)) → awake s = true →
      linkUp s l = true → (linkOf s l).acks = [] → (linkOf s l).cut = [] →
      (∀ w < 4, w ≠ v.val → (vcOf s l w).again = none) → (vcOf s l v).again = some i → (vcOf s l v).unacked[i]? = some u → u.hole = none →
      (vcOf s l v).held = none → (vcOf s l v).after = [] → flag s WOT_INJ_CFG.EN = false →
      ∃ t, exec (.frameBoundary l ofs) s = .next t ∧
        t.sent = sentLine l (frameBytes (withStamps (txStamp l (freshen s0)) { u.frame with retx := true, lack := (vcOf s l v).expect }))
          (atOfs ofs s) ∧
        (vcOf t l v).again = (if i + 1 < (vcOf s l v).unacked.length then some (i + 1) else none) ∧
        (vcOf t l v).next = (vcOf s l v).next ∧ (vcOf t l v).since = (if i = 0 then clk (atOfs ofs s) else (vcOf s l v).since) ∧
        (l.val < 2 → fld t (WOT_LINKl_RETX.RETX l) = satNat 32 (fld s (WOT_LINKl_RETX.RETX l) + 1))) ∧
    (∀ (s s0 : State) (l : Fin 3) (ofs v : Nat) (f : LineFrame) (rest : List LineFrame), s0 = feedStream l (moveFrames (atOfs ofs s)) →
      awake s = true → linkUp s l = true → (linkOf s l).acks = [] → (linkOf s l).cut = [] → (∀ w < 4, (vcOf s l w).again = none) →
      vcOrder.find? (fun v => decide ((vcOf s0 l v).queue ≠ []) && hasWindow s l v) = some v → (vcOf s0 l v).queue = f :: rest → f.vc = v →
      (vcOf s l v).after = [] → flag s WOT_INJ_CFG.EN = false → Settled s0 → ∃ t, exec (.frameBoundary l ofs) s = .next t ∧
        let g := withStamps (txStamp l (freshen s0))
          { (if f.srcNone = true ∧ f.hops = 0 then fromHere s f else f) with lseq := (vcOf s l v).next, lack := (vcOf s l v).expect }
        t.sent = sentLine l (frameBytes g) (atOfs ofs s) ∧ (vcOf t l v).queue = rest ∧ (vcOf t l v).next = ((vcOf s l v).next + 1) % 256 ∧
        (vcOf t l v).unacked = (vcOf s l v).unacked ++ [⟨g, none⟩] ∧ ∀ a, a = LNK_LANEn_INJ_COUNT l ∨ rd t a = rd s0 a) ∧
    (∀ s : State, Settled s → flag s WOT_INJ_CFG.EN = false → ∃ t, exec .wotInjEnable s = .next t ∧ flag t WOT_INJ_CFG.EN = true ∧
      t.wot = { s.wot with injCount := 0, injReg := prbsSeed 23 } ∧ ∀ a, a ≠ WOT_INJ_CFG → rd t a = rd s a) ∧
    ∀ (s : State) (l : Fin 2) (v : Fin 4) (ofs due : Nat) (bs : List Byte), (vcOf s l v).held = some (bs, due) → (vcOf s l v).after = [] →
      Settled s → ∃ t, exec (.wotInjDelayExpire l v ofs) s = .next t ∧ (∀ a, a = LNK_LANEn_INJ_COUNT l ∨ rd t a = rd s a) ∧
        if linkUp s l = true ∧ due ≤ clk (atOfs ofs s) then (vcOf t l v).held = none ∧ ∃ out, t.sent = sentLine l out (atOfs ofs s) ∧
          ((∀ f, parseFrame l bs = .good f → f.type ≠ 7) → out = bs)
        else t.wot = s.wot ∧ t.sent = s.sent

/-- R308: a hub with an address tells its east neighbour every 1024 laps; a hub that is not the west head takes the carried address + 1, or shows a mismatch, an overflow or a
conflict; on lane 1 an accession frame is ignored. R319: the delay exchange, whose layout of three stamps is the model's (log entry 77). R320,
R321: a head sends a Baton at the laps that are multiples of 64; a hub that hears one learns its hops, reaches the head and has a data direction.
R322: a Tally broadcast leaves on both line lanes. R307, R326, R335: RENUMBER, after which the west
head has address 0 and another hub none, REROUTE, a head that is lost, and the return to the nearer head. -/
def Obligations.AddressesAndTimeOnTheLine : Prop :=
  (∀ s : State, Settled s → ∃ t, exec .accessionSend s = .next t ∧ (∀ a, rd t a = rd s a) ∧
      if onLine s 1 = true ∧ (ownAddr s).isSome = true ∧ ((linkOf s 1).accession = 0 ∨ (linkOf s 1).accession + 1023 ≤ tick s) then
        ∃ f, (vcOf t 1 2).queue = (vcOf s 1 2).queue ++ [f] ∧ f.type = 6 ∧ f.west = false ∧ some f.src = ownAddr s ∧
          f.payload = bytesLE 2 (fld s WOT_STATUS.ADDR) ++ bytesLE 2 (fld s WOT_ADDR.LINE_ID) ∧ (linkOf t 1).accession = tick s + 1
      else t.wot = s.wot) ∧
    (∀ (s : State) (pre rest : List Arrived) (a : Arrived) (c id : Nat), Settled s → s.wot.inbox = pre ++ a :: rest →
      (∀ b ∈ pre, 2 ≤ b.lane ∨ b.frame.type ≠ 6) → a.frame.type = 6 → a.lane < 2 → c < 1024 → id < 65536 →
      a.frame.payload = bytesLE 2 c ++ bytesLE 2 id → ∃ t, exec .accessionReceive s = .next t ∧ t.wot.inbox = pre ++ rest ∧ t.sent = s.sent ∧
        (∀ b, b ≠ WOT_STATUS → b < 0xA00D0000 ∨ 0xA00D0100 ≤ b → rd t b = rd s b) ∧
        (a.lane = 1 → rd t WOT_STATUS = rd s WOT_STATUS) ∧
        (a.lane = 0 → wotOn s = true → headRole s ≠ 1 →
          if fld s WOT_ADDR.LINE_ID ≠ id ∧ fld s WOT_ADDR.LINE_ID ≠ 0 ∧ id ≠ 0 then
            flag t WOT_STATUS.MISMATCH = true ∧ ownAddr t = ownAddr s ∧ ((linkOf s 0).mismatch = false → Posted 199 s t)
          else match ownAddr s with
            | none => if flag s WOT_ADDR.FIXED then ownAddr t = none
                else if c = 1023 then ownAddr t = none ∧ flag t WOT_STATUS.ADDR_OVF = true ∧ Posted 197 s t
                else ownAddr t = some (c + 1) ∧ Posted 196 s t
            | some own => ownAddr t = some own ∧ (own ≠ c + 1 → flag t WOT_STATUS.CONFLICT = true ∧
                ((linkOf s 0).carried ≠ c + 1 → Posted 198 s t)))) ∧
    (∀ (s : State) (l : Fin 3), Settled s → ∃ t, exec (.splitReqSend l) s = .next t ∧ (∀ a, rd t a = rd s a) ∧
      if linkUp s l = true ∧ ((linkOf s l).split = 0 ∨ (linkOf s l).split + 1023 ≤ tick s) then
        ∃ f, (vcOf t l 3).queue = (vcOf s l 3).queue ++ [f] ∧ f.type = 9 ∧ f.payload.length = 10 ∧ (linkOf t l).split = tick s + 1
      else t.wot = s.wot) ∧
    (∀ (s : State) (pre rest : List Arrived) (a : Arrived) (t1 : Nat), Settled s → s.wot.inbox = pre ++ a :: rest →
      (∀ b ∈ pre, b.bad = true ∨ b.frame.type ≠ 9) → a.frame.type = 9 → a.bad = false → a.frame.payload = stampBytes t1 →
      ∃ t f, exec .splitReqReceive s = .next t ∧ t.wot.inbox = pre ++ rest ∧ (∀ b, rd t b = rd s b) ∧
        (vcOf t a.lane 3).queue = (vcOf s a.lane 3).queue ++ [f] ∧ f.type = 10 ∧
        f.payload = stampBytes t1 ++ stampBytes a.stamp ++ List.replicate 10 0) ∧
    (∀ (s : State) (pre rest : List Arrived) (a : Arrived) (t1 t2 t3 : Nat), s.wot.inbox = pre ++ a :: rest →
      (∀ b ∈ pre, b.bad = true ∨ b.frame.type ≠ 10) → a.frame.type = 10 → a.bad = false → t1 < 2 ^ 80 → t2 < 2 ^ 80 → t3 < 2 ^ 80 →
      a.frame.payload = stampBytes t1 ++ stampBytes t2 ++ stampBytes t3 → ∃ t, exec .splitRespReceive s = .next t ∧
        (linkOf t a.lane).delays = ((((a.stamp : Int) - t1 - ((t3 : Int) - t2)) / 2) :: (linkOf s a.lane).delays).take 16 ∧
        (linkOf t a.lane).exchanges = (linkOf s a.lane).exchanges + 1 ∧
        (a.lane < 2 → flag t (WOT_LINKl_STATUS.DELAY_VALID a.lane) = decide (15 ≤ (linkOf s a.lane).exchanges))) ∧
    (∀ s : State, Settled s → ∃ t, exec .batonSend s = .next t ∧ (∀ a, rd t a = rd s a) ∧
      if isHead s = true ∧ lap s % 64 = 0 ∧ s.wot.batonAt ≤ tick s then
        t.wot.batonAt = tick s + 1 ∧ t.wot.batonSeq = (s.wot.batonSeq + 1) % 65536 ∧
        (onLine s (headLane s) = true → ∃ f, (linkOf t (headLane s)).cut = (linkOf s (headLane s)).cut ++ [⟨f, none, 0, 0, false⟩] ∧ f.type = 7 ∧
          f.vc = 3 ∧ f.hops = 0 ∧ f.payload.length = 24 ∧ (f.payload.drop 20).take 2 = bytesLE 2 s.wot.batonSeq ∧
          f.payload.getD 10 0 = BitVec.ofNat 8 (pacerState s + bit (followsPtp s) * 8))
      else t.wot = s.wot) ∧
    (∀ (s : State) (ofs : Nat) (pre rest : List Arrived) (a : Arrived), s.wot.inbox = pre ++ a :: rest →
      (∀ b ∈ pre, 2 ≤ b.lane ∨ b.bad = true ∨ b.frame.type ≠ 7) → a.frame.type = 7 → a.lane < 2 → a.bad = false → a.frame.hops < 1023 →
      ∃ t, exec (.batonReceive ofs) s = .next t ∧ t.wot.inbox = pre ++ rest ∧ reaches t (!a.frame.west) = true ∧
        fld t (hopsFld (!a.frame.west)) = (if headRole s = (if a.frame.west then 2 else 1) then 0 else a.frame.hops + 1) ∧ fld t WOT_STATUS.DATA_DIR ≠ 0 ∧
        (fld s WOT_STATUS.DATA_DIR = 0 → Posted 201 s t)) ∧
    (∀ (s : State) (n : Fin 4), Settled s → flag s (TBS_TALLYn_CTRL.EN n) = true → flag s (TBS_TALLYn_CTRL.BCAST_EN n) = true →
      tallySrc s n = 1 → tget (fun _ => 0) s.wot.bcastAt n = 0 ∨ tget (fun _ => 0) s.wot.bcastAt n - 1 + bcastLaps s n ≤ tick s →
      ∃ t, exec (.tallyBroadcast n) s = .next t ∧ (∀ a, rd t a = rd s a) ∧ ∀ l < 2, onLine s l = true →
        ∃ f, (linkOf t l).cut = (linkOf s l).cut ++ [⟨f, none, 0, 0, false⟩] ∧ f.type = 8 ∧ f.vc = 3 ∧ f.west = decide (l = 0) ∧
          f.payload.length = 24 ∧ f.payload.getD 0 0 = BitVec.ofNat 8 (fld s (TBS_TALLYn_CTRL.STREAM n)) ∧
          ofBytesLE ((f.payload.drop 2).take 6) = unsignedOf 48 (tallyOf s n).atB) ∧
    (∀ s : State, Settled s → ∃ t, exec .renumber s = .next t ∧
      if wotOn s = true ∧ flag s WOT_ADDR.FIXED = false then
        ownAddr t = (if headRole s = 1 then some 0 else none) ∧ Ended WOT_CMD 0 t ∧
        ∀ a, a ≠ WOT_CMD → a ≠ WOT_STATUS → rd t a = rd s a
      else Refused WOT_CMD s t) ∧
    (∀ s : State, Settled s → ∃ t, exec .reroute s = .next t ∧
      if flag s WOT_CTRL.STREAM_EN then Ended WOT_CMD 0 t ∧ fld t WOT_STATUS.DATA_DIR = nearerHead s ∧
        (fld s WOT_STATUS.DATA_DIR ≠ nearerHead s → Posted 201 s t ∧ t.wot.sendNext = (rd s WOT_STREAM_UNACKED).toNat)
      else Refused WOT_CMD s t) ∧
    (∀ (s : State) (west : Bool) (ofs : Nat), reaches s west = true →
      linkUp s (laneToward west) = false ∨ (seenOf s west).baton = none ∨ (∃ at0, (seenOf s west).baton = some at0 ∧
        at0 + nsec (1000000 * max 1 (fld s WOT_TIMING.REROUTE_HOLD)) ≤ clk (atOfs ofs s)) →
      ∃ t, exec (.headUnreachable west ofs) s = .next t ∧ reaches t west = false ∧ reaches t (!west) = reaches s (!west) ∧
        (fld s WOT_STATUS.DATA_DIR = (if west then 1 else 2) →
          fld t WOT_STATUS.DATA_DIR = (if reaches s (!west) then (if west then 2 else 1) else 0) ∧ Posted 201 s t) ∧
        (fld s WOT_STATUS.DATA_DIR = (if west then 2 else 1) → reaches s (!west) = true →
          fld t WOT_STATUS.DATA_DIR = fld s WOT_STATUS.DATA_DIR)) ∧
    ∀ (s : State) (t0 : Nat), nearerHead s ≠ 0 → nearerHead s ≠ fld s WOT_STATUS.DATA_DIR →
      (seenOf s (decide (nearerHead s = 1))).reach = some t0 → ∃ t, exec .revertHoldExpire s = .next t ∧ (Settled s →
        if t0 + nsec (1000000000 * fld s WOT_TIMING.REVERT_HOLD) ≤ clk s then fld t WOT_STATUS.DATA_DIR = nearerHead s ∧ Posted 201 s t ∧
          t.wot.sendNext = (rd s WOT_STREAM_UNACKED).toNat
        else t.wot = s.wot ∧ ∀ a, rd t a = rd s a)

/-- R323, R324, R327: a STREAM frame of 61 records, or whose oldest record has waited FLUSH, closes under the next number; it goes into a free Spill
slot, or by POLICY is lost or pushes out the oldest, and a loss is counted and posted once; with the DRAM unmapped nothing is stored and
BUS_DMA is posted (R28). R318, R325, R346: a hub that is no head forwards a
STREAM frame; a head accepts a new one that its gateway can hold, into the gateway buffer, drops one that it has had, and accepts none
behind one that it has turned away (log entries 205, 206). The next frame in Spill goes to its VC, from the buffer or, while that may be read,
from its slot. A head broadcasts its acknowledgements; a hub
frees Spill up to the point acknowledged and forwards them. -/
def Obligations.StreamsAndAcknowledgements : Prop :=
  (∀ (s : State) (c : Fin 256) (rs : List (Word × Word)) (first : Nat), Settled s →
      tget (fun _ => (([] : List (Word × Word)), 0)) s.wot.openFrames c = (rs, first) → rs ≠ [] →
      61 ≤ rs.length ∨ first + flushLaps s ≤ s.bnd → ∃ t, exec (.streamFrameClose c) s = .next t ∧ t.sent = s.sent ∧
        let num := (rd s WOT_STREAM_NEXT).toNat
        let f := streamFrame s c num rs
        let slots := (rd s WOT_SPILL_SIZE).toNat / 512
        let k := s.wot.slot % max 1 slots
        let a := (rd s WOT_SPILL_BASE).toNat + k * 512
        tget (fun _ => (([] : List (Word × Word)), 0)) t.wot.openFrames c = ([], 0) ∧ rd t WOT_STREAM_NEXT = rd s WOT_STREAM_NEXT + 1 ∧
        (s.wot.spill.length < slots ∨ flag s WOT_STREAM_CFG.POLICY = true →
          t.wot.spill = (if s.wot.spill.length < slots then s.wot.spill else s.wot.spill.drop 1) ++ [(num, k, f)] ∧
          (a + (frameBytes f).length ≤ dramTop s → waiting s = [] → s.dmc.latent = [] → s.dmc.inject = none →
            (dramMapped s = true → ∀ i < (frameBytes f).length, mseen t (a + i) = (frameBytes f).getD i 0) ∧
            (dramMapped s = false → t.mem = s.mem ∧ Posted 184 s t) ∧
            (∀ b, b < a ∨ a + (frameBytes f).length ≤ b → mseen t b = mseen s b))) ∧
        (s.wot.spill.length < slots → flag t WOT_STATUS.SPILL_FULL = false ∧ rd t WOT_SPILL_LOST = rd s WOT_SPILL_LOST) ∧
        (slots ≤ s.wot.spill.length → flag t WOT_STATUS.SPILL_FULL = true ∧
          fld t WOT_SPILL_LOST.VALUE = satNat 32 (fld s WOT_SPILL_LOST.VALUE + 1) ∧
          (flag s WOT_STATUS.SPILL_FULL = false → Posted 202 s t) ∧
          (flag s WOT_STREAM_CFG.POLICY = false → t.wot.spill = s.wot.spill ∧ t.mem = s.mem))) ∧
    (∀ (s : State) (pre rest : List Arrived) (a : Arrived), Settled s → s.wot.inbox = pre ++ a :: rest →
      (∀ b ∈ pre, 2 ≤ b.lane ∨ b.frame.type ≠ 3) → a.frame.type = 3 → a.lane < 2 →
      ∃ t, exec .streamFrameReceive s = .next t ∧ t.wot.inbox = pre ++ rest ∧ t.sent = s.sent ∧ (isHead s = false → t.mem = s.mem) ∧
        let l := laneToward a.frame.west
        let n := streamNumber a.frame
        let g := { a.frame with hops := a.frame.hops + 1 }
        let size := (rd s ETH_GW_BUF_SIZE).toNat
        let base := (rd s ETH_GW_BUF_BASE).toNat
        let at1 := match s.eth.gateway.getLast? with | some (q, _, p) => (p + frameSize q) % max 1 size | none => 0
        (isHead s = false → a.frame.hops < 1023 → onLine s l = true →
          (vcOf t l a.frame.vc).queue = (vcOf s l a.frame.vc).queue ++ [g]) ∧
        (isHead s = false → a.frame.hops < 1023 → onLine s l = false →
          fld t (WOT_LINKl_DROP.DROP l) = satNat 32 (fld s (WOT_LINKl_DROP.DROP l) + 1)) ∧
        (∀ e last, isHead s = true → s.wot.accepted.find? (fun q => decide (q.1 = a.frame.src)) = some (a.frame.src, e, last) →
          e = a.frame.epoch → sdiff32 n last ≤ 0 → t.eth = s.eth ∧ t.wot.accepted = s.wot.accepted ∧ t.mem = s.mem ∧ ∀ b, rd t b = rd s b) ∧
        (isHead s = true → (∀ q ∈ s.wot.accepted, q.1 ≠ a.frame.src ∨ q.2.1 ≠ a.frame.epoch) →
          if gwRoom s a.frame = false then t.eth = s.eth ∧ t.wot.accepted = s.wot.accepted ∧ t.mem = s.mem ∧
            behindGap t { a.frame with payload := bytesLE 4 ((n + 1) % 2 ^ 32) } = true ∧
            fld t ETH_GW_REFUSED.VALUE = satNat 32 (fld s ETH_GW_REFUSED.VALUE + 1) ∧
            (fld s ETH_GW_REFUSED.VALUE = 0 → Posted 212 s t)
          else if behindGap s a.frame then t.eth = s.eth ∧ t.wot.accepted = s.wot.accepted ∧ t.mem = s.mem
          else t.eth = { s.eth with gateway := s.eth.gateway ++ [(g, clk s, at1)] } ∧ (a.frame.src, (a.frame.epoch, n)) ∈ t.wot.accepted ∧
            (dramMapped s = true → base + size ≤ dramTop s → waiting s = [] → s.dmc.latent = [] → s.dmc.inject = none →
              (∀ i < frameSize g, mseen t (base + (at1 + i) % size) = (frameBytes g).getD i 0) ∧
              ∀ b, b < base ∨ base + size ≤ b → mseen t b = mseen s b))) ∧
    (∀ (s : State) (l : Fin 2) (n k own : Nat) (f : LineFrame) (west : Bool), l.val = laneToward west →
      fld s WOT_STATUS.DATA_DIR = (if west then 1 else 2) → isHead s = false → flag s ETH_GW_CFG.EN = false → flag s TWN_CTRL.EN = false →
      ownAddr s = some own → onLine s l = true → (vcOf s l 1).queue = [] → nextStream s = some (n, k, f) → f.vc = 1 →
      (fld s RED_STATUS.BP_STAGE = 0 → 0 ≤ sdiff32 n s.wot.sentTop → (feedStream l s).wot.sendNext = (n + 1) % 2 ^ 32 ∧
        (vcOf (feedStream l s) l 1).queue = [{ f with src := own, srcNone := false, west := west }]) ∧
      (fromBuffer n s = false → mustWait s 1 ((rd s WOT_SPILL_BASE).toNat + k * 512) = true →
        (feedStream l s).wot = s.wot)) ∧
    (∀ s : State, Settled s → s.wot.acked ≠ [] → s.wot.acked.length ≤ 61 → ∃ t, exec .streamAckSend s = .next t ∧ (∀ a, rd t a = rd s a) ∧
      let l := headLane s
      if isHead s = true ∧ onLine s l = true ∧ (s.wot.ackAt = 0 ∨ s.wot.ackAt + 1023 ≤ tick s) then
        t.wot.ackAt = tick s + 1 ∧ ∃ f, (vcOf t l 1).queue = (vcOf s l 1).queue ++ [f] ∧ f.type = 4 ∧ f.bcast = true ∧
          f.aux = s.wot.acked.length ∧ f.payload = (s.wot.acked.map ackEntry).flatten
      else t.wot = s.wot) ∧
    ∀ (s : State) (pre rest : List Arrived) (a : Arrived), Settled s → s.wot.inbox = pre ++ a :: rest →
      (∀ b ∈ pre, 2 ≤ b.lane ∨ b.frame.type ≠ 4) → a.frame.type = 4 → a.lane < 2 →
      ∃ t, exec .streamAckReceive s = .next t ∧ t.wot.inbox = pre ++ rest ∧ t.sent = s.sent ∧
        let l := laneToward a.frame.west
        let mine := (ackEntries a.frame.payload (a.frame.aux % 256)).find? (fun q => decide (q.1 = streamAddr s))
        (∀ q, mine = some q → (ownAddr s).isSome = true → flag s ETH_GW_CFG.EN = false →
          t.wot.spill = s.wot.spill.filter (fun p => decide (0 ≤ sdiff32 p.1 q.2)) ∧ rd t WOT_SPILL_FILL = w32 t.wot.spill.length) ∧
        (mine = none → t.wot.spill = s.wot.spill ∧ rd t WOT_SPILL_FILL = rd s WOT_SPILL_FILL ∧
          (t.wot.sendNext = s.wot.sendNext ∨ t.wot.sendNext = (rd s WOT_STREAM_UNACKED).toNat)) ∧
        (a.frame.hops < 1023 → onLine s l = true →
          (vcOf t l a.frame.vc).queue = (vcOf s l a.frame.vc).queue ++ [{ a.frame with hops := a.frame.hops + 1 }])

/-- R328, R331: the five operations are refused at a hub that is no head or has no address, answer BUSY while one is pending and BAD_CODE for a
reserved space; otherwise the frame, with the next operation number, leaves along the line and the command is pending. R329: a hub in the range
schedules the operation, and one that is late either acts later or is cancelled, with WOT_LATE; a due operation posts its event, snapshots the
lap, offers its trigger or resets, the last only if the hub accepts it. R330: the last hub turns the frame into an echo, which ends the command
at its head with the results; without one ECHO_TO ends it with TIMEOUT. -/
def Obligations.GlobalOperations : Prop :=
  (∀ (s : State) (space : Fin 8) (dir : Fin 4) (cancel turn : Bool) (op : Nat) (c : Instr),
      (op, c) ∈ [(1, .gopTrigger space dir cancel turn), (2, .gopEvent space dir cancel turn), (3, .gopSnapshot space dir cancel turn),
        (4, .gopBarrier space dir cancel turn), (5, .gopReset space dir cancel turn)] → Settled s →
      ∃ t, exec c s = .next t ∧ t.sent = s.sent ∧
        if isHead s = false ∨ ownAddr s = none then Refused WOT_GCMD s t
        else if isPending s WOT_GCMD then Answered WOT_GCMD 2 s t
        else if 4 < space.val then Answered WOT_GCMD 3 s t
        else isPending t WOT_GCMD = true ∧ t.wot.issued = some (s.wot.opId, clk s) ∧ t.wot.opId = (s.wot.opId + 1) % 65536 ∧
          (onLine s (headLane s) = false → fld t (WOT_LINKl_DROP.DROP (headLane s)) = satNat 32 (fld s (WOT_LINKl_DROP.DROP (headLane s)) + 1)) ∧
          (onLine s (headLane s) = true → ∃ f, (linkOf t (headLane s)).cut = (linkOf s (headLane s)).cut ++ [⟨f, none, 0, 0, false⟩] ∧
            f.type = 2 ∧ f.vc = 0 ∧ f.bcast = true ∧ f.echo = false ∧ some f.src = ownAddr s ∧ f.payload.length = 28 ∧
            parseGop f = ⟨f.src, s.wot.opId % 65536, op, space, dir,
              fld s WOT_GCMD_VALUE_LO.VALUE + fld s WOT_GCMD_VALUE_HI.VALUE * 2 ^ 32,
              if op = 1 then rdPair s WOT_GCMD_ARG_LO WOT_GCMD_ARG_HI else if op = 2 then fget (rd s WOT_GCMD_ARG_LO) 0 8 else 0,
              0, false, none⟩ ∧ gopCancels f = cancel ∧ gopHalf f = turn)) ∧
    (∀ (s : State) (ofs : Nat) (pre rest : List Arrived) (a : Arrived), s.wot.inbox = pre ++ a :: rest →
      (∀ b ∈ pre, 2 ≤ b.lane ∨ b.frame.type ≠ 2) → a.lane < 2 → a.frame.type = 2 → a.bad = false →
      (a.frame.echo = true → some a.frame.src ≠ ownAddr s) → a.frame.hops < 1023 →
      (∀ l v, ∀ u ∈ (vcOf s l v).unacked, u.hole = none) → (∀ l, ∀ d ∈ (linkOf s l).cut, d.bad = false) → ∃ t, exec (.gopReceive ofs) s = .next t ∧ t.wot.inbox = pre ++ rest ∧ t.sent = s.sent ∧
        let s1 := setWot { s.wot with inbox := pre ++ rest } (atOfs ofs s)
        let f := a.frame
        let g := noteGop (parseGop f) s1
        let late := slLateNow (gopView g s1) gopEntry
        let l := laneToward f.west
        (f.echo = true ∨ gopActs s f = false → t.wot.gops = s.wot.gops ∧ t.wot.results = s.wot.results) ∧
        (f.echo = false → gopActs s f = true → g.op ∈ [1, 2, 3, 5] → g.space ≤ 4 →
          t.wot.results = s.wot.results.filter (fun q => !(decide (q.1 = g.src ∧ q.2.1 = g.id))) ++ [(g.src, g.id, gopResult s f late)] ∧ (late = true → Posted 204 s t) ∧
          t.wot.gops = s.wot.gops ++ (if late && gopCancels f then [] else if late then [lateGop s1 g] else [g])) ∧
        (f.echo = false → gopActs s f = false → isHead s = false → gopHalf f = false → onLine s l = true →
          ∃ q, (linkOf t l).cut = (linkOf s l).cut ++ [q] ∧ q.frame = { f with hops := f.hops + 1 }) ∧
        (f.echo = false → gopActs s f = false → onLine s l = false → onLine s (1 - l) = true → 28 ≤ f.payload.length →
          ∃ q, (linkOf t (1 - l)).cut = (linkOf s (1 - l)).cut ++ [q] ∧ q.frame.echo = true ∧ q.frame.west = (!f.west) ∧
            q.frame.hops = f.hops + 1 ∧ ofBytesLE ((q.frame.payload.drop 26).take 2) = fld s WOT_STATUS.ADDR ∧
            q.frame.payload.take 24 = f.payload.take 24)) ∧
    (∀ (s : State) (ofs : Nat) (g : Gop) (rest : List Gop) (c eff : Nat) (late : Bool), s.wot.gops = g :: rest → s.tbs.sl.taken = [] →
      g.taken = some (c, eff, late) → (if g.op = 2 ∧ late = false then c ≤ nowD (atOfs ofs s) else eff ≤ s.bnd) → Settled s →
      ∃ t, exec (.gopEffect ofs) s = .next t ∧
        (g.op = 1 → (∀ a, rd t a = rd s a) ∧ ∃ os, t.offers = s.offers ++ os ∧
          ∀ r < 64, (∃ o ∈ os, o.ring = r ∧ o.src = 5) ↔ (nbit g.arg r = true ∧ flag s (ACQ_RINGr_SRC.WOTEN r) = true)) ∧
        (g.op = 2 → g.arg % 256 ≤ 127 → Posted (g.arg % 256) s t) ∧
        (g.op = 2 → 127 < g.arg % 256 → ∀ a, rd t a = rd s a) ∧
        (g.op = 3 → rdPair t WOT_SNAP_LAP_LO WOT_SNAP_LAP_HI = lapD s % 2 ^ 64 ∧ t.wot.snaps = s.wot.snaps ++ [(lapD s, s.bnd + 2)]) ∧
        (g.op = 5 → flag s WOT_CTRL.ACCEPT_RESET = false → ∀ a, rd t a = rd s a) ∧
        (g.op ≠ 5 → t.wot.gops = rest.map (takeGop (atOfs ofs s)))) ∧
    (∀ (s : State) (q : Nat × Nat) (rest : List (Nat × Nat)), s.wot.snaps = q :: rest → q.2 ≤ s.bnd → Settled s →
      ∃ t, exec .wotSnapshot s = .next t ∧ t.wot.snaps = rest ∧ Posted 205 s t ∧
        (∀ c < 256, fld t (WOT_SNAP_SEQc.SEQ c) = (redChan s c).seq % 2 ^ 24) ∧ RegsOutside 0xA0080400 0xA0080800 s t) ∧
    (∀ (s : State) (ofs : Nat) (pre rest : List Arrived) (a : Arrived), s.wot.inbox = pre ++ a :: rest →
      (∀ b ∈ pre, 2 ≤ b.lane ∨ b.frame.type ≠ 2 ∨ b.frame.echo = false) → a.lane < 2 → a.frame.type = 2 → a.bad = false →
      a.frame.echo = true → some a.frame.src = ownAddr s → Settled s → ∃ t, exec (.wotGopEcho ofs) s = .next t ∧ t.wot.inbox = pre ++ rest ∧
        let id := ofBytesLE ((a.frame.payload.drop 2).take 2)
        (∀ at0, s.wot.issued = some (id, at0) → t.wot.issued = none ∧ Ended WOT_GCMD 0 t ∧ Posted 203 s t ∧
          fld t WOT_GCMD_RESULT.OP_ID = id ∧ fld t WOT_GCMD_RESULT.RESULT = ofBytesLE ((a.frame.payload.drop 24).take 1) % 16 ∧
          fld t WOT_GCMD_RESULT.TURN_ADDR = ofBytesLE ((a.frame.payload.drop 26).take 2) % 1024) ∧
        ((∀ at0, s.wot.issued ≠ some (id, at0)) → t.wot.issued = s.wot.issued ∧ ∀ b, rd t b = rd s b)) ∧
    ∀ (s : State) (ofs id at0 : Nat), s.wot.issued = some (id, at0) → Settled s → ∃ t, exec (.gopEchoTimeout ofs) s = .next t ∧
      if at0 + nsec (1000 * fld s WOT_GCMD_ECHO_TO.TIMEOUT) ≤ clk (atOfs ofs s) then
        t.wot.issued = none ∧ Ended WOT_GCMD 5 t ∧ ∀ a, a ≠ WOT_GCMD → rd t a = rd s a
      else t.wot = s.wot ∧ ∀ a, rd t a = rd s a

/-- R338, R340, R341: frames of the transmit ring leave with their FCS or are discarded, and are stamped where the descriptor asks; received frames
are checked, counted and passed on; a descriptor or a frame in DRAM that has to wait is waited for (R362, R369). R343 to R345: Sync, Follow_Up and responses give the offsets and path delay samples, misses are counted, a
new parent restarts the path. R346 to R349: a datagram closes when it is full or old, HOST_ACK caps a point at what the head accepted, or of its own
frames at what has been handed on,
an injected COMMAND or MGMT frame goes onto the line. R350: an SFP transfer moves its bytes and ends with DONE, TIMEOUT or NACK. -/
def Obligations.EthernetTimeAndGateway : Prop :=
  (∀ (s : State) (m : Fin 2) (tail : Nat), tail < 1024 → Settled s → ∃ t, exec (.txrTailWrite m tail) s = .next t ∧
      fld t (ETH_MACm_TXR_TAIL.TXR_TAIL m) = tail ∧ t.mem = s.mem ∧ t.sent = s.sent ∧ ∀ a, a ≠ ETH_MACm_TXR_TAIL m → rd t a = rd s a) ∧
    (∀ (s : State) (m : Fin 2) (ofs : Nat), awake s = true → ∃ t, exec (.ethFrameSend m ofs) s = .next t ∧
      let s0 := atOfs ofs s
      let head := fld s (ETH_MACm_TXR_HEAD.TXR_HEAD m)
      let at1 := (rd s (ETH_MACm_TXR_BASE m)).toNat + head * 32
      let d := dmaRead 2 32 at1 s0
      let w := fun (i : Nat) => w32 (ofBytesLE ((d.1.drop (i * 4)).take 4))
      let len := fget (w 1) 0 14
      let f := onWire s m (dmaRead 2 len (w 0).toNat d.2).1
      if flag s (ETH_MACm_CFG.EN m) = false ∨ head = fld s (ETH_MACm_TXR_TAIL.TXR_TAIL m) then t.sent = s.sent ∧ t.mem = s.mem
      else if mustWait s0 2 at1 = true ∨ mustWait d.2 2 (w 0).toNat = true then
        fld t (ETH_MACm_TXR_HEAD.TXR_HEAD m) = head ∧ t.sent = s.sent
      else fld t (ETH_MACm_TXR_HEAD.TXR_HEAD m) = (head + 1) % ringLen s (ETH_MACm_TXR_SIZE m) ∧
        (macLink s m = true → len ≤ mtu s m + 14 →
          t.sent = sentMac (m.val + 2) f (emit (.mac m) f s0) ∧
          fld t (ETH_MACm_TX_FRAMES.TX_FRAMES m) = satNat 32 (fld s (ETH_MACm_TX_FRAMES.TX_FRAMES m) + 1) ∧
          (nbit (w 1).toNat 31 = true → (queueOf s (stampQueue m)).items.length < 16 → ∃ e,
            (queueOf t (stampQueue m)).items = (queueOf s (stampQueue m)).items ++ [e] ∧
            let t1 := txStamp (m.val + 2) (dmaRead 2 len (w 0).toNat d.2).2
            e.words = [w32 (fget (w 2) 16 8 * 65536 + fget (w 2) 0 16), w32 (fracOf t1), lo32 (nsOf t1), hi32 (nsOf t1)])) ∧
        (macLink s m = false ∨ mtu s m + 14 < len → t.sent = s.sent ∧
          fld t (ETH_MACm_TX_DROP.TX_DROP m) = satNat 32 (fld s (ETH_MACm_TX_DROP.TX_DROP m) + 1))) ∧
    (∀ (s : State) (m : Fin 2) (ofs : Nat) (body : List Byte), Settled s → awake s = true → macOn s m = true → 14 ≤ body.length → body.length ≤ mtu s m + 14 →
      numAt body 12 2 ≠ 0x8100 → flag s (ETH_MACm_CFG.VLAN_EN m) = false →
      (∃ t, exec (.ethFrameReceive m ofs (body ++ bytesLE 4 (crc32 body))) s = .next t ∧ t.sent = s.sent ∧
        (numAt body 12 2 = 0x8808 → t.eth = s.eth ∧ t.mem = s.mem ∧
          fld t (ETH_MACm_RX_DROP.RX_DROP m) = satNat 32 (fld s (ETH_MACm_RX_DROP.RX_DROP m) + 1)) ∧
        (numAt body 12 2 ≠ 0x8808 → acceptsMac s m (body.take 6) = false → t.eth = s.eth ∧ t.mem = s.mem ∧ ∀ a, rd t a = rd s a) ∧
        (numAt body 12 2 ≠ 0x8808 → acceptsMac s m (body.take 6) = true →
          fld t (ETH_MACm_RX_FRAMES.RX_FRAMES m) = satNat 32 (fld s (ETH_MACm_RX_FRAMES.RX_FRAMES m) + 1) ∧
          (∀ takers, takers = (List.range 2).filter (ptpTakes s m 2 (body.drop 14)) → numAt body 12 2 = 0x88F7 → takers ≠ [] →
            flag s ETH_CTRL.PTP_COPY = false → t.mem = s.mem ∧
            t.eth = { s.eth with msgs := s.eth.msgs ++ takers.map (fun d => ⟨d, rxStamp (m.val + 2) (atOfs ofs s), body.drop 14⟩) }) ∧
          (numAt body 12 2 ∉ [0x88F7, 0x0800, 0x86DD] → t.eth = s.eth ∧
            let n := ringLen s (ETH_MACm_RXR_SIZE m)
            let head := fld s (ETH_MACm_RXR_HEAD.RXR_HEAD m)
            if (head + 1) % n = fld s (ETH_MACm_RXR_TAIL.RXR_TAIL m) then t.mem = s.mem ∧
              fld t (ETH_MACm_RX_DROP.RX_DROP m) = satNat 32 (fld s (ETH_MACm_RX_DROP.RX_DROP m) + 1)
            else fld t (ETH_MACm_RXR_HEAD.RXR_HEAD m) = (head + 1) % n ∧
              (head = fld s (ETH_MACm_RXR_TAIL.RXR_TAIL m) → Posted 209 s t)))) ∧
      ∀ fcs : List Byte, fcs.length = 4 → fcs ≠ bytesLE 4 (crc32 body) → ∃ t, exec (.ethFrameReceive m ofs (body ++ fcs)) s = .next t ∧
        t.eth = s.eth ∧ t.mem = s.mem ∧ t.sent = s.sent ∧
        fld t (ETH_MACm_RX_BAD.RX_BAD m) = satNat 32 (fld s (ETH_MACm_RX_BAD.RX_BAD m) + 1)) ∧
    (∀ (s : State) (d : Fin 2) (pre rest : List PtpMsg) (q : PtpMsg), s.eth.msgs = pre ++ q :: rest →
      (∀ b ∈ pre, b.engine ≠ d.val ∨ ptpType b.data ≠ 0) → q.engine = d.val → ptpType q.data = 0 →
      ∃ t, exec (.syncReceive d) s = .next t ∧ t.eth.msgs = pre ++ rest ∧ t.sent = s.sent ∧
        fld t (ETH_PTPd_MISS.FU_MISS d) = satNat 16 (fld s (ETH_PTPd_MISS.FU_MISS d) + bit (ptpOf s d).waiting.isSome) ∧
        (ptpTwoStep q.data = true → ptpOf t d = { ptpOf s d with waiting := some (ptpSeq q.data, q.stamp, ptpCorr q.data, clk s) }) ∧
        (ptpTwoStep q.data = false → ptpOf t d = { ptpOf s d with waiting := none, sync := some (ptpTime q.data, q.stamp, ptpCorr q.data) })) ∧
    (∀ (s : State) (d : Fin 2) (pre rest : List PtpMsg) (q : PtpMsg), s.eth.msgs = pre ++ q :: rest →
      (∀ b ∈ pre, b.engine ≠ d.val ∨ ptpType b.data ≠ 8) → q.engine = d.val → ptpType q.data = 8 →
      ∃ t, exec (.followUpReceive d) s = .next t ∧ t.eth.msgs = pre ++ rest ∧
        match (ptpOf s d).waiting with
        | some (seq, t2, c, _) => if seq = ptpSeq q.data then
            ptpOf t d = { ptpOf s d with waiting := none, sync := some (ptpTime q.data, t2, c + ptpCorr q.data) } ∧
            fld t (ETH_PTPd_MISS.FU_MISS d) = fld s (ETH_PTPd_MISS.FU_MISS d)
          else ptpOf t d = ptpOf s d ∧ fld t (ETH_PTPd_MISS.FU_MISS d) = satNat 16 (fld s (ETH_PTPd_MISS.FU_MISS d) + 1)
        | none => ptpOf t d = ptpOf s d ∧ fld t (ETH_PTPd_MISS.FU_MISS d) = satNat 16 (fld s (ETH_PTPd_MISS.FU_MISS d) + 1)) ∧
    (∀ (s : State) (d : Fin 2) (ofs seq t2 at0 : Nat) (c : Int), (ptpOf s d).waiting = some (seq, t2, c, at0) →
      at0 + nsec 1000000000 ≤ clk (atOfs ofs s) → ∃ t, exec (.followUpTimeout d ofs) s = .next t ∧
        ptpOf t d = { ptpOf s d with waiting := none } ∧ fld t (ETH_PTPd_MISS.FU_MISS d) = satNat 16 (fld s (ETH_PTPd_MISS.FU_MISS d) + 1)) ∧
    (∀ (s : State) (d : Fin 2) (ofs : Nat), awake s = true → flag s (ETH_PTPd_CFG.EN d) = true → macOn s (fld s (ETH_PTPd_CFG.MAC d)) = true →
      (ptpOf s d).reqAt = 0 ∨ (ptpOf s d).reqAt - 1 + reqInterval s d ≤ clk (atOfs ofs s) → ∃ t, exec (.delayReqSend d ofs) s = .next t ∧
        let m := fld s (ETH_PTPd_CFG.MAC d)
        let f := onWire s m (requestFrame s d (flag s (ETH_PTPd_CFG.MECH d)) (ptpOf s d).seq)
        t.sent = sentMac (m + 2) f (emit (.mac m) f (atOfs ofs s)) ∧
        (ptpOf t d).seq = ((ptpOf s d).seq + 1) % 65536 ∧
        (ptpOf t d).flight = some ((ptpOf s d).seq, txStamp (fld s (ETH_PTPd_CFG.MAC d) + 2) (atOfs ofs s)) ∧
        fld t (ETH_PTPd_MISS.RESP_MISS d) = satNat 16 (fld s (ETH_PTPd_MISS.RESP_MISS d) + bit (ptpOf s d).flight.isSome)) ∧
    (∀ (s : State) (d : Fin 2) (pre rest : List PtpMsg) (q : PtpMsg) (seq sent : Nat), s.eth.msgs = pre ++ q :: rest →
      (∀ b ∈ pre, b.engine ≠ d.val ∨ ptpType b.data ∉ [3, 9, 10]) → q.engine = d.val → ptpType q.data ∈ [3, 9, 10] →
      (ptpOf s d).flight = some (seq, sent) → ∃ t, exec (.delayRespReceive d) s = .next t ∧ t.eth.msgs = pre ++ rest ∧
        let x := ptpOf s d
        let mine := decide ((q.data.drop 44).take 10 = ownPortId s (fld s (ETH_PTPd_CFG.MAC d)) ∧ ptpSeq q.data = seq)
        let took := fun (v : Int) => flag s (ETH_PTPd_PATH_VALID.PATH_VALID d) = false →
          (ptpOf t d).path = (v :: x.path).take 8 ∧ (ptpOf t d).flight = none ∧
          flag t (ETH_PTPd_PATH_VALID.PATH_VALID d) = decide (7 ≤ x.path.length)
        (mine = false → ptpOf t d = x) ∧
        (mine = true → ptpType q.data = 9 → ∀ t1 t2 c, x.sync = some (t1, t2, c) →
          took (((t2 - t1 - c) + (ptpTime q.data - sent - ptpCorr q.data)) / 2)) ∧
        (mine = true → ptpType q.data = 3 → ptpTwoStep q.data = false → took (((q.stamp : Int) - sent - ptpCorr q.data) / 2)) ∧
        (mine = true → ptpType q.data = 3 → ptpTwoStep q.data = true →
          ptpOf t d = { x with resp := some (seq, ptpTime q.data, q.stamp, ptpCorr q.data) }) ∧
        (mine = true → ptpType q.data = 10 → ∀ k t2 t4 c, x.resp = some (k, t2, t4, c) →
          took ((((t4 : Int) - sent) - (ptpTime q.data - t2) - (c + ptpCorr q.data)) / 2))) ∧
    (∀ (s : State) (d : Fin 2) (k : Fin 4) (v : Word), Settled s → ∃ t, exec (.ptpParentWrite d k v) s = .next t ∧
      let w := if k.val = 0 then fset (rd s (parentReg d k)) 16 8 (fget v 16 8) else if k.val = 3 then v &&& 0xFFFF#32 else v
      if flag s (ETH_PTPd_CFG.EN d) then t.nextRegs = s.nextRegs ++ [(parentReg d k, w)] ∧ rd t (parentReg d k) = rd s (parentReg d k) ∧
        flag t (ETH_PTPd_PATH_VALID.PATH_VALID d) = false ∧ (ptpOf t d).path = []
      else t.nextRegs = s.nextRegs ∧ rd t (parentReg d k) = w ∧ ∀ a, a ≠ parentReg d k → rd t a = rd s a) ∧
    (∀ (s : State) (ofs m i : Nat), awake s = true → gwPath s = some (m, i) → s.out.frames = [] → s.wot.spill = [] →
      ∃ t, exec (.gwDatagramClose ofs) s = .next t ∧
        let fs := gwTake (gwLimit s m i) 8 0 s.eth.gateway
        let due := fs.length < s.eth.gateway.length ∨ ∃ f at0 p rest, s.eth.gateway = (f, at0, p) :: rest ∧
          at0 + nsec (1000 * max 1 (fld s ETH_GW_CFG.PACK)) ≤ clk (atOfs ofs s)
        let r := fs.foldl gwGet ([], setEth { s.eth with gateway := s.eth.gateway.drop fs.length } (atOfs ofs s))
        (fs ≠ [] → due → destUsable s m i = true → t.eth.gateway = s.eth.gateway.drop fs.length ∧ t.sent = (sendDatagram m i r.1 r.2).sent ∧
          r.1.length = fs.length ∧ fld t (ETH_MACm_DGRAM_SEQ.DGRAM_SEQ m) = (fld s (ETH_MACm_DGRAM_SEQ.DGRAM_SEQ m) + 1) % 2 ^ 32) ∧
        (fs = [] ∨ ¬ due ∨ destUsable s m i = false → t.eth = s.eth ∧ t.sent = s.sent)) ∧
    (∀ (s : State) (pre rest : List (List Byte)) (b : List Byte) (q : Nat × Nat) (e last : Nat), s.eth.datagrams = pre ++ b :: rest →
      (∀ c ∈ pre, numAt c 0 1 % 16 ≠ 1) → numAt b 0 1 % 16 = 1 → ackEntries (b.drop 8) (min (numAt b 1 1) ((b.length - 8) / 8)) = [q] →
      ∃ t, exec .hostAckReceive s = .next t ∧ t.eth.datagrams = pre ++ rest ∧
        (isHead s = true → flag s WOT_CTRL.HOST_ACK = true → s.wot.accepted.find? (fun p => decide (p.1 = q.1)) = some (q.1, e, last) →
          tget (fun _ => 0) t.wot.acked q.1 = if 0 < sdiff32 q.2 ((last + 1) % 2 ^ 32) then (last + 1) % 2 ^ 32 else q.2) ∧
        ((isHead s = true ∧ flag s WOT_CTRL.HOST_ACK = true) ∨ (flag s ETH_GW_CFG.OWN_STREAM = true ∧ headRole s = 0) →
          q.1 = streamAddr s → t.wot.spill = s.wot.spill.filter (fun p =>
            decide (0 ≤ sdiff32 p.1 (if 0 < sdiff32 q.2 s.wot.sentTop then s.wot.sentTop else q.2)))) ∧
        (isHead s = false → flag s ETH_GW_CFG.OWN_STREAM = false → t.wot = s.wot)) ∧
    (∀ (s : State) (pre rest : List (List Byte)) (b bs : List Byte) (f : LineFrame) (a : Nat), s.eth.datagrams = pre ++ b :: rest →
      (∀ c ∈ pre, numAt c 0 1 % 16 ≠ 2) → numAt b 0 1 % 16 = 2 → splitFrames (numAt b 1 1) (b.drop 8) = [bs] →
      ∃ t, exec .injectDatagramReceive s = .next t ∧ t.eth.datagrams = pre ++ rest ∧ t.sent = s.sent ∧
        let l := laneToward (decide (f.dst < a))
        (isHead s = true → parseFrame 0 bs = .good f → f.type = 1 ∨ f.type = 5 → ownAddr s = some a → f.dst ≠ a → onLine s l = true →
          ∃ g, (vcOf t l f.vc).queue = (vcOf s l f.vc).queue ++ [g] ∧ g.type = f.type ∧ g.dst = f.dst ∧ g.src = a ∧ g.aux = f.aux ∧
            g.payload = f.payload ∧ g.hops = 0) ∧
        (isHead s = false → t.wot = s.wot ∧ fld t (ETH_MACm_RX_DROP.RX_DROP (fld s ETH_GW_CFG.MAC)) =
          satNat 32 (fld s (ETH_MACm_RX_DROP.RX_DROP (fld s ETH_GW_CFG.MAC)) + 1))) ∧
    (∀ (s : State) (k : Fin 2) (len : Fin 8) (dev reg : BitVec 8) (data : List Byte) (result : Fin 3), Settled s →
      s.accepted.find? (fun p => decide (p.1 = ETH_SFPk_CMD k)) = none → ∃ t, exec (.sfpRead k len dev reg data result) s = .next t ∧
        t.mem = s.mem ∧ Ended (ETH_SFPk_CMD k) (match result.val with | 0 => 0 | 1 => 5 | _ => 6) t ∧
        (∀ a, a ≠ ETH_SFPk_CMD k → a ≠ ETH_SFPk_DATA0 k → a ≠ ETH_SFPk_DATA1 k → rd t a = rd s a) ∧
        (result.val = 0 → ∀ i ≤ len.val, fget (rd t (if i < 4 then ETH_SFPk_DATA0 k else ETH_SFPk_DATA1 k)) (i % 4 * 8) 8 =
          (data.getD i 0).toNat) ∧
        (result.val ≠ 0 → rd t (ETH_SFPk_DATA0 k) = rd s (ETH_SFPk_DATA0 k) ∧ rd t (ETH_SFPk_DATA1 k) = rd s (ETH_SFPk_DATA1 k))) ∧
    ∀ (s : State) (k : Fin 2) (len : Fin 8) (dev reg : BitVec 8) (result : Fin 3), Settled s →
      s.accepted.find? (fun p => decide (p.1 = ETH_SFPk_CMD k)) = none → ∃ t, exec (.sfpWrite k len dev reg result) s = .next t ∧
        Ended (ETH_SFPk_CMD k) (match result.val with | 0 => 0 | 1 => 5 | _ => 6) t ∧ (∀ a, a ≠ ETH_SFPk_CMD k → rd t a = rd s a) ∧
        t.sent = s.sent ++ (if result.val = 1 then [] else [⟨.sfp k, bytesLE 1 dev.toNat ++ bytesLE 1 reg.toNat ++
          (bytesLE 4 (rd s (ETH_SFPk_DATA0 k)).toNat ++ bytesLE 4 (rd s (ETH_SFPk_DATA1 k)).toNat).take (len.val + 1)⟩])

/-- R355 to R357: INIT and INIT_RESUME start from their states, and training leads to READY with its margins and words, or to FAILED. R360, R361: in
READY a read gives the bytes of its line and a write stores the bytes of its mask and nothing else; in SELF_REFRESH a request waits and causes an
exit, which ends in READY (R369); at an unmapped address it has no effect and posts BUS_ERROR. R364, R367: the rate follows the worse MR4 code, banks are refreshed in
turn, the scrubber steps a line. R368: entry keeps every byte, or in PASR those of the segments that are not masked. R358, R359: a new grain
moves every byte as the interleave says, but for free ones of lost contents (log entry 96). Commands in other states are refused, and what R403 lists is misuse. -/
def Obligations.DramController : Prop :=
  (∀ s : State, Settled s → ∃ t, exec .init s = .next t ∧ (∀ a, 0x80000000 ≤ a → mget t a = mget s a) ∧
      if isPending s DMC_CMD then Answered DMC_CMD 2 s t
      else if dmcState s = 0 ∨ dmcState s = 7 then dmcState t = 1 ∧ isPending t DMC_CMD = true ∧ dmcOp t = 1 ∧ t.dmc.queue = [] ∧ t.dmc.port = [] ∧
        fld t DMC_PASR.MR17 = 0 ∧ ∀ c < 2, fld t (DMC_TRAINc.STEP c) = 1 ∧ fld t (DMC_TRAINc.FAIL_STEP c) = 0
      else Refused DMC_CMD s t) ∧
    (∀ s : State, Settled s →
      if isPending s DMC_CMD then ∃ t, exec .initResume s = .next t ∧ Answered DMC_CMD 2 s t
      else if dmcState s ≠ 0 ∧ dmcState s ≠ 5 then ∃ t, exec .initResume s = .next t ∧ Refused DMC_CMD s t
      else if s.dmc.asleep = true ∧ (fld s DMC_CFG.BIN, trainSave s) ∈ s.dmc.trained then
        ∃ t, exec .initResume s = .next t ∧ dmcState t = 1 ∧ isPending t DMC_CMD = true ∧ dmcOp t = 2 ∧ t.mem = s.mem ∧ t.dmc = s.dmc ∧
          ∀ c < 2, fld t (DMC_TRAINc.STEP c) = 2 ∧ fld t (DMC_TRAINc.FAIL_STEP c) = 0
      else exec .initResume s = .fault .misuseInitResume) ∧
    (∀ (s : State) (ra wa rb wb : BitVec 8) (large : Bool) (words : List Word), dmcState s = 1 → 64 ≤ ra.toNat → 64 ≤ wa.toNat →
      64 ≤ rb.toNat → 64 ≤ wb.toNat → ∃ t, exec (.dmcTrainDone [(ra, wa), (rb, wb)] large words) s = .next t ∧ dmcState t = 2 ∧
        Ended DMC_CMD 0 t ∧ Posted 216 s t ∧ (dmcOp s ≠ 2 ∨ eccOn s = s.dmc.coded → t.mem = s.mem) ∧ t.dmc.asleep = false ∧
        (dmcOp s = 2 → t.dmc.coded = eccOn s) ∧
        fld t (DMC_TRAINc.RD_MARGIN 0) = ra.toNat ∧ fld t (DMC_TRAINc.WR_MARGIN 0) = wa.toNat ∧
        fld t (DMC_TRAINc.RD_MARGIN 1) = rb.toNat ∧ fld t (DMC_TRAINc.WR_MARGIN 1) = wb.toNat ∧
        (∀ c < 2, fld t (DMC_TRAINc.STEP c) = 8 ∧ fld t (DMC_TRAINc.FAIL_STEP c) = 0) ∧
        (dmcOp s = 1 → flag t DMC_STATUS.SIZE = large ∧ t.dmc.large = large ∧ (∀ k < 64, rd t (DMC_TRAIN_SAVEk k) = phyWord k (words.getD k 0)) ∧
          t.dmc.trained = (fld s DMC_CFG.BIN, trainSave t) :: s.dmc.trained) ∧
        (dmcOp s ≠ 1 → flag t DMC_STATUS.SIZE = s.dmc.large ∧ trainSave t = trainSave s ∧ t.dmc.trained = s.dmc.trained)) ∧
    (∀ (s : State) (step : Fin 9) (chans : BitVec 2) (mr8 : Bool), dmcState s = 1 → 0 < step.val → stepReached s step = true →
      ∃ t, exec (.dmcTrainFail step chans mr8) s = .next t ∧ dmcState t = 7 ∧ Posted 217 s t ∧ t.mem = s.mem ∧
        Ended DMC_CMD (if mr8 = true ∧ step.val = 1 ∧ dmcOp s = 1 then 3 else 5) t ∧
        ∀ c < 2, fld t (DMC_TRAINc.STEP c) = step ∧ fld t (DMC_TRAINc.FAIL_STEP c) = (if nbit chans.toNat c then step.val else 0) ∧
          (step.val = 8 → (nbit chans.toNat c = false ↔
            64 ≤ fld t (DMC_TRAINc.RD_MARGIN c) ∧ 64 ≤ fld t (DMC_TRAINc.WR_MARGIN c)))) ∧
    (∀ (s : State) (c : Instr) (op : Nat), (c, op) ∈ [(.srEnter, 3), (.srEnterPasr, 4)] → Settled s →
      if isPending s DMC_CMD then ∃ t, exec c s = .next t ∧ Answered DMC_CMD 2 s t
      else if dmcState s ≠ 2 then ∃ t, exec c s = .next t ∧ Refused DMC_CMD s t
      else if captures s then exec c s = .fault .misuseSelfRefresh
      else ∃ t, exec c s = .next t ∧ dmcState t = 3 ∧ isPending t DMC_CMD = true ∧ dmcOp t = op ∧ t.mem = s.mem ∧ t.dmc = s.dmc) ∧
    (∀ s : State, dmcState s = 3 → s.dmc.aborting = false → s.dmc.queue = [] → s.dmc.port = [] → ∃ t, exec .srEntryComplete s = .next t ∧
      Ended DMC_CMD 0 t ∧ t.dmc.asleep = true ∧
      if dmcOp s = 4 then dmcState t = 5 ∧ fld t DMC_PASR.MR17 = pasrMask s ∧
        ∀ a, 0x80000000 ≤ a ∨ nbit (pasrMask s) (a / (dramFitted s / 8)) = false → mget t a = mget s a
      else dmcState t = 4 ∧ fld t DMC_PASR.MR17 = 0 ∧ t.mem = s.mem) ∧
    (∀ s : State, Settled s → ∃ t, exec .srExit s = .next t ∧
      if isPending s DMC_CMD then Answered DMC_CMD 2 s t
      else if dmcState s = 4 then dmcState t = 6 ∧ isPending t DMC_CMD = true ∧ dmcOp t = 5 ∧ t.mem = s.mem ∧
        t.dmc = { s.dmc with asleep := false, exitAt := clk s }
      else Refused DMC_CMD s t) ∧
    (∀ (s : State) (ofs : Nat), ∃ t, exec (.srExitOnRequest ofs) s = .next t ∧
      if exitDue (atOfs ofs s) = true ∧ (dmcState s = 6 ∨ (dmcState s = 3 ∧ s.dmc.aborting = true)) then
        dmcState t = 2 ∧ t.dmc.asleep = false ∧ t.dmc.aborting = false ∧ (dmcState s = 6 → dmcOp s = 5 → Ended DMC_CMD 0 t) ∧
        (dmcState s = 3 → Ended DMC_CMD 6 t) ∧ (waiting s = [] → t.mem = s.mem)
      else t.dmc = s.dmc ∧ t.mem = s.mem) ∧
    (∀ (s : State) (cls : Fin 3) (write wide : Bool) (addr ofs : Nat) (data : List Byte) (mask : BitVec 64) (issued : Bool), Settled s →
      ∃ t, exec (.dramRequest cls write wide addr data mask [] issued ofs) s = .next t ∧
        let size := if wide then 64 else 32
        let a := addr - addr % size
        (isDram s a = false → t.mem = s.mem ∧ t.dmc.answer = List.replicate size 0 ∧ t.dmc.queue = s.dmc.queue ∧
          (cls.val ≠ 2 → Posted 184 s t)) ∧
        (isDram s a = true → dmcState s = 4 → dmcState t = 6 ∧ t.mem = s.mem ∧
          fld t DMC_SR_LAT.SR_EXIT_REQ = satNat 16 (fld s DMC_SR_LAT.SR_EXIT_REQ + 1) ∧
          t.dmc.queue.length + t.dmc.port.length = s.dmc.queue.length + s.dmc.port.length + 1) ∧
        (isDram s a = true → dmcState s = 2 → s.dmc.queue = [] → s.dmc.port = [] → s.dmc.latent = [] → s.dmc.inject = none →
          cls.val = 0 ∨ fld s RED_STATUS.BP_STAGE = 0 → t.dmc.queue = [] ∧ t.dmc.port = [] ∧ dmcState t = 2 ∧
          (write = false → t.mem = s.mem ∧ t.dmc.answer = (List.range size).map (fun i => mget s (a + i))) ∧
          (write = true → (∀ i < size, mget t (a + i) = if nbit mask.toNat i then data.getD i 0 else mget s (a + i)) ∧
            ∀ b, b < a ∨ a + size ≤ b → mget t b = mget s b))) ∧
    (∀ (s : State) (ofs : Nat), Settled s → ∃ t, exec (.dqsRetrain ofs) s = .next t ∧ t.mem = s.mem ∧ (∀ a, rd t a = rd s a) ∧
      t.dmc = if dmcState s = 2 ∧ s.dmc.tuneAt + nsec 100000000 ≤ clk (atOfs ofs s) then { s.dmc with tuneAt := clk (atOfs ofs s) } else s.dmc) ∧
    (∀ (s : State) (ofs : Nat), Settled s →
      if dmcState s = 2 ∧ flag s DMC_REFRESH.OVR_EN = true ∧ jedecInterval (flag s DMC_STATUS.TEMP_HIGH) < fld s DMC_REFRESH.INTERVAL then
        exec (.perBankRefresh ofs) s = .fault .misuseRefresh
      else ∃ t, exec (.perBankRefresh ofs) s = .next t ∧ t.mem = s.mem ∧ (∀ a, rd t a = rd s a) ∧
        if dmcState s = 2 ∧ s.dmc.refreshAt + nsec (refreshInterval s) ≤ clk (atOfs ofs s) then
          t.dmc.bank = (s.dmc.bank + 1) % 8 ∧ t.dmc.refreshAt = clk (atOfs ofs s) ∧ t.dmc.fast = flag s DMC_STATUS.TEMP_HIGH
        else t.dmc = s.dmc) ∧
    (∀ (s : State) (a b : Fin 8) (ofs : Nat), dmcState s = 2 → s.dmc.pollAt + nsec 32000000 ≤ clk (atOfs ofs s) →
      ∃ t, exec (.mr4Poll a b ofs) s = .next t ∧ t.mem = s.mem ∧ fld t DMC_MR4.CODE_A = a ∧ fld t DMC_MR4.CODE_B = b ∧
        flag t DMC_STATUS.TEMP_ALARM = decide (5 ≤ max a.val b.val) ∧
        (5 ≤ max a.val b.val → flag s DMC_STATUS.TEMP_ALARM = false → Posted 219 s t) ∧
        (4 ≤ max a.val b.val → flag t DMC_STATUS.TEMP_HIGH = true ∧ t.dmc.cool = 0 ∧ (flag s DMC_STATUS.TEMP_HIGH = false → Posted 218 s t)) ∧
        (max a.val b.val ≤ 3 → t.dmc.cool = s.dmc.cool + 1 ∧
          flag t DMC_STATUS.TEMP_HIGH = (flag s DMC_STATUS.TEMP_HIGH && decide (s.dmc.cool = 0)))) ∧
    (∀ (s : State) (ofs : Nat), Settled s → dmcState s = 2 → s.dmc.latent = [] → waiting s = [] → ∃ t, exec (.scrubRead [] ofs) s = .next t ∧ t.mem = s.mem ∧
      (∀ a, a ≠ DMC_SCRUB_POS → a ≠ DMC_OUTSTANDING → rd t a = rd s a) ∧
      if eccOn s = true ∧ flag s DMC_SCRUB.EN = true ∧ fld s RED_STATUS.BP_STAGE = 0 ∧ s.dmc.askedAt + nsec 1000 ≤ clk (atOfs ofs s) ∧
          s.dmc.scrubAt + nsec (1000000 / max 1 (fld s DMC_SCRUB.RATE)) ≤ clk (atOfs ofs s) then
        rd t DMC_SCRUB_POS = w32 (if dramTop s ≤ (rd s DMC_SCRUB_POS).toNat + 64 then 0 else (rd s DMC_SCRUB_POS).toNat + 64)
      else rd t DMC_SCRUB_POS = rd s DMC_SCRUB_POS) ∧
    ∀ (s : State) (v : Fin 16), Inv s →
      let g := grainBits (fld s DMC_MAP.GRAIN)
      let h := grainBits v
      if g ≠ h ∧ (s.dmc.queue ≠ [] ∨ s.dmc.port ≠ [] ∨ captures s = true) then exec (.grainWrite v) s = .fault .misuseGrain
      else ∃ t, exec (.grainWrite v) s = .next t ∧ fld t DMC_MAP.GRAIN = v ∧ (∀ a, a ≠ DMC_MAP → rd t a = rd s a) ∧
        (∀ a b, a < 0x80000000 → b = interleaved h (interleave g a) → interleave h b = interleave g a ∧
          ((∃ v, (a, v) ∈ s.mem) ∨ (∀ q ∈ s.lost, within q.1 q.2.1 a = false ∧ within q.1 q.2.1 b = false) → mget t b = mget s a)) ∧
        ∀ a, 0x80000000 ≤ a → mget t a = mget s a

/-- R374, R375: what enters LINKING, settles a role and loses the partner. R378, R379: both halves of a lap are mirrored and held, and a missed
deadline is counted and leads to a takeover or out of step. R381: a join sends and loads its pieces in turn, and STANDBY follows the warm-up.
R383, R384, R387: a digest is sent; the partner's gives its claim and state, and equal claim parities are misuse. R386: policies at P, the
mismatch window and CLEAR. R388, R393: pins and gated banks. R390 to R392, R395: SWAP, its handover, takeover, TAKE and LEAVE; a raised claim has
the parity PAR and lies one or two above the higher of the two. R394: the cross-check of a block. The frames of a join are the model's
(log entry 100). -/
def Obligations.TwinPair : Prop :=
  (∀ s : State, Settled s → flag s TWN_CTRL.EN = false → peerValid s = false → ∃ t, exec (.twinEnable true) s = .next t ∧
      flag t TWN_CTRL.EN = true ∧ fld t TWN_CLAIM.VALUE = fld s TWN_CLAIM.PAR ∧ t.mem = s.mem ∧ (twnState s = 0 → Posted 224 s t) ∧
      (flag s TWN_STATUS.HOLD_IN = false → twnState t = 1 ∧ t.twin.mirrored = false ∧ flag t TWN_STATUS.LAG = flag s TWN_STATUS.LAG) ∧
      (flag s TWN_STATUS.HOLD_IN = true → rateLow t = false → twnState t = 3 ∧ t.twin.mirrored = true ∧ flag t TWN_STATUS.LAG = true)) ∧
    (∀ s : State, Settled s → flag s TWN_CTRL.EN = true → ∃ t, exec (.twinEnable false) s = .next t ∧ flag t TWN_CTRL.EN = false ∧
      twnState t = 0 ∧ t.twin.mirrored = false ∧ flag t TWN_STATUS.LAG = flag s TWN_STATUS.LAG ∧ (isPending s TWN_CMD = true → Ended TWN_CMD 6 t) ∧
      (twnState s ≠ 0 → flag t TWN_STATUS.TOP = true ∧ flag t TWN_STATUS.HOLD_OUT = false ∧ Posted 224 s t)) ∧
    (∀ (s : State) (ofs : Nat), twnState s = 1 → Settled s → ∃ t, exec (.linkWaitExpire ofs) s = .next t ∧
      if rateLow s = false ∧ peerValid s = false ∧ s.twin.holdLow ≠ 0 ∧ max s.twin.holdLow s.twin.linkAt +
          nsec (100000000 * max 1 (fld s TWN_CFG.LINK_WAIT)) ≤ clk (atOfs ofs s) + 1 then
        twnState t = 2 ∧ Posted 224 s t ∧ (fld s TWN_CLAIM.PEER = 0 → flag t TWN_STATUS.TOP = true)
      else twnState t = 1) ∧
    (∀ s : State, Settled s → ∃ t, exec .partnerLost s = .next t ∧
      if (peerValid s = true ∧ (linkUp s 2 = false ∨ s.twin.heard + 128 ≤ tick s)) ∨
          (twnState s = 3 ∧ max s.twin.heard s.twin.joinAt + 128 ≤ tick s) then peerValid t = false ∧
        (twnState s ≠ 3 → twnState t = twnState s) ∧
        (twnState s = 3 → flag s TWN_STATUS.HOLD_IN = false → twnState t = 1 ∧ Posted 224 s t ∧ (twnOp s = 2 → Ended TWN_CMD 6 t))
      else t.twin = s.twin ∧ ∀ a, rd t a = rd s a) ∧
    (∀ (s : State) (d : DataLap) (e : EdgeData) (rest : List DataLap), s.twin.own = d :: rest → mirrors s d.lap = true →
      s.twin.sentLap ≠ d.lap + 1 → s.twin.edge.find? (fun e => decide (e.lap = d.lap)) = some e → linkUp s 2 = true →
      ∃ t f g, exec .mirrorFrameSend s = .next t ∧ t.twin.sentLap = d.lap + 1 ∧ (vcOf t 2 1).queue = (vcOf s 2 1).queue ++ [f, g] ∧
        f.type = 11 ∧ g.type = 11 ∧ f.payload = mirrorPayload s d e 0 ∧ g.payload = mirrorPayload s d e 1) ∧
    (∀ (s : State) (pre rest : List Arrived) (a : Arrived), s.wot.inbox = pre ++ a :: rest → (∀ b ∈ pre, b.lane ≠ 2 ∨ b.frame.type ≠ 11) →
      a.lane = 2 → a.frame.type = 11 → ∃ t, exec .mirrorFrameReceive s = .next t ∧ t.wot.inbox = pre ++ rest ∧
        let p := a.frame.payload
        let h := ofBytesLE ((p.drop 8).take 1)
        if p.length = 480 ∧ h < 2 ∧ twnState s ≠ 0 then halfOf t (ofBytesLE (p.take 8)) h = some p ∧ twnState t = twnState s
        else t.twin = s.twin) ∧
    (∀ (s : State) (ofs f : Nat), twnState s = 3 ∨ twnState s = 4 → fromMirror s (lapD s) = true ∨ s.twin.missed ≠ none →
      s.twin.mirrorFrom = some f → f ≤ lapD s → s.twin.hold = 0 → s.twin.lateLap ≤ lapD s → 900 * unitsPerNs ≤ (atOfs ofs s).tbs.pacer.ofs →
      mirrorLap s (lapD s) = none → ∃ t, exec (.mirrorDeadlineMiss ofs) s = .next t ∧ t.twin.lateLap = lapD s + 1 ∧
        let late := (halfOf s (lapD s) 0).isNone || (halfOf s (lapD s) 1).isNone
        fld t TWN_MIRROR.LATE = (if late then satNat 16 (fld s TWN_MIRROR.LATE + 1) else fld s TWN_MIRROR.LATE) ∧
        fld t TWN_MIRROR.OVF = (if late then fld s TWN_MIRROR.OVF else satNat 16 (fld s TWN_MIRROR.OVF + 1)) ∧
        (s.twin.missed ≠ none → twnState t = twnState s ∧ t.twin.missed = s.twin.missed ∧ t.twin.takeDue = s.twin.takeDue) ∧
        (s.twin.missed = none → if late = true ∧ twnState s = 4 ∧ flag s TWN_CTRL.TAKE_ON_LOSS = true then
            twnState t = 4 ∧ t.twin.missed = some (lapD s, s.bnd) ∧ t.twin.switchAt = some (lapD s, false) ∧ t.twin.markLap = some (lapD s) ∧
            (flag s TWN_STATUS.HOLD_IN = false → t.twin.takeDue = some s.bnd)
          else twnState t = 5 ∧ Posted 224 s t)) ∧
    (∀ (s : State) (k : Fin 386) (words : List Word) (j : Nat), twnState s = 2 → s.twin.join = some j → s.twin.piece = k.val →
      j + pieceAt k ≤ lapD s → peerState s = 3 → linkUp s 2 = true → ∃ t fs, exec (.joinStatePiece k words) s = .next t ∧
        t.twin.piece = k + 1 ∧ (vcOf t 2 2).queue = (vcOf s 2 2).queue ++ fs ∧
        fs.map (fun f => (f.type, f.payload)) = (pieceFrames k 40 0 (pieceWords s k)).map (fun p => (12, p)) ∧
        (k.val = 385 → t.twin.compareFrom = some (lapD s + 1))) ∧
    (∀ (s : State) (k : Fin 386) (words : List Word), twnState s = 3 → s.twin.piece = k.val →
      ∃ t, exec (.joinStatePiece k words) s = .next t ∧ t.twin.piece = k + 1 ∧
        (k.val < 256 → (redChan t k).seq =
          ((if (pieceArrived k s).1 = [] then words else (pieceArrived k s).1).getD 0 0).toNat) ∧ t.wot.inbox = (pieceArrived k s).2.wot.inbox ∧
        (k.val = 385 → t.twin.compareFrom = some (lapD s + 1) ∧ t.twin.warmEnd = some (lapD s + 1024 * fld s TWN_JOIN.WARM))) ∧
    (∀ (s : State) (l : Nat), twnState s = 3 → s.twin.warmEnd = some l → Settled s → ∃ t, exec .warmupEnd s = .next t ∧
      if l ≤ lapD s then twnState t = 4 ∧ Posted 224 s t ∧ t.twin.warmEnd = none ∧ (twnOp s = 2 → Ended TWN_CMD 0 t)
      else t.twin = s.twin ∧ ∀ a, rd t a = rd s a) ∧
    (∀ s : State, twnState s ≠ 0 → s.twin.digestAt ≠ s.bnd + 1 → digestNow s ≠ [] ∨ lapD s % 64 = 0 → linkUp s 2 = true →
      ∃ t f, exec .digestCompute s = .next t ∧ t.twin.digestAt = s.bnd + 1 ∧ t.out.digest = digestLater s ∧
        (vcOf t 2 0).queue = (vcOf s 2 0).queue ++ [f] ∧ f.type = 13 ∧ f.payload.length = 32 ∧
        f.payload.take 16 = bytesLE 8 (lapD s) ++ bytesLE 8 (digestValue s) ∧ f.payload.getD 20 0 = BitVec.ofNat 8 (fld s TWN_CLAIM.VALUE)) ∧
    (∀ (s : State) (pre rest : List Arrived) (a : Arrived), Settled s → s.wot.inbox = pre ++ a :: rest →
      (∀ b ∈ pre, b.lane ≠ 2 ∨ b.frame.type ≠ 13) → a.lane = 2 → a.frame.type = 13 →
      let q := parseDigest a.frame.payload
      if twnState s = 0 ∨ a.frame.payload.length ≠ 32 then ∃ t, exec .digestFrameReceive s = .next t ∧ t.wot.inbox = pre ++ rest ∧
        t.twin = s.twin ∧ ∀ b, rd t b = rd s b
      else if q.claim % 2 = fld s TWN_CLAIM.PAR then exec .digestFrameReceive s = .fault .misuseEqualClaims
      else ∃ t, exec .digestFrameReceive s = .next t ∧ t.wot.inbox = pre ++ rest ∧ fld t TWN_CLAIM.PEER = q.claim ∧ peerState t = q.state ∧
        peerValid t = true ∧ t.twin.peerTo = q.lap ∧
        (twnState s = 1 → rateLow s = false → q.state = 2 ∨ flag s TWN_STATUS.HOLD_IN = true → twnState t = 3 ∧ Posted 224 s t) ∧
        (twnState s = 1 → rateLow s = false → q.state = 1 → flag s TWN_STATUS.HOLD_IN = false →
          twnState t = (if fld s TWN_CLAIM.PAR = 0 then 2 else 3) ∧ Posted 224 s t) ∧
        (twnState s = 2 → q.state = 2 → s.twin.swap = none → sdiff8 (fld s TWN_CLAIM.VALUE) q.claim ≤ 0 →
          twnState t = 5 ∧ flag t TWN_STATUS.TOP = false) ∧
        (twnState s = 5 → q.state = 2 → flag s TWN_CTRL.AUTO_JOIN = true → rateLow s = false → twnState t = 3)) ∧
    (∀ (s : State) (p k : Nat), s.twin.policy = some (p, k) → p ≤ lapD s → ∃ t, exec .policyApply s = .next t ∧
      (k = 2 → flag t TWN_STATUS.SAFE = true ∧ (∀ n < 32, loopState t n = if loopState s n = 1 ∨ loopState s n = 2 then 3 else loopState s n) ∧
        twnState t = twnState s ∧ t.twin.policy = none) ∧
      (k = 0 → twnState s = 4 → twnState t = (if flag s TWN_CTRL.AUTO_JOIN then 3 else 5) ∧ Posted 224 s t) ∧
      (k = 0 → twnState s ≠ 4 → t.twin = { s.twin with policy := none })) ∧
    (∀ s : State, Settled s → ∃ t, exec .mmWindowExpire s = .next t ∧ (∀ a, a ≠ TWN_MM → rd t a = rd s a) ∧
      if 0 < s.twin.openMm ∧ s.twin.firstMm + 1024 * max 1 (fld s TWN_POLICY.MM_WINDOW) ≤ lapD s then
        fld t TWN_MM.OPEN = 0 ∧ t.twin = { s.twin with openMm := 0 }
      else t.twin = s.twin ∧ rd t TWN_MM = rd s TWN_MM) ∧
    (∀ (s : State) (high : Bool) (ofs : Nat), ∃ t, exec (.twinHoldInChange high ofs) s = .next t ∧ flag t TWN_STATUS.HOLD_IN = high ∧
      (flag s TWN_STATUS.HOLD_IN ≠ high → t.twin.holdLow = if high then 0 else clk (atOfs ofs s) + 1) ∧
      (flag s TWN_STATUS.HOLD_IN ≠ high → high = true → awake s = true → twnState s = 1 → rateLow s = false → twnState t = 3 ∧ Posted 224 s t) ∧
      (∀ l b, flag s TWN_STATUS.HOLD_IN ≠ high → high = false → awake s = true → twnState s = 4 → s.twin.missed = some (l, b) →
        flag s TWN_CTRL.TAKE_ON_LOSS = true → s.bnd ≤ b + 64 → t.twin.takeDue = some s.bnd)) ∧
    (∀ (s : State) (ofs : Nat), Settled s → ∃ t, exec (.pinDriveEnable ofs) s = .next t ∧ (∀ a, a ≠ TWN_STATUS → rd t a = rd s a) ∧
      flag t TWN_STATUS.PINS = (flag s TWN_STATUS.PINS || decide (flag s TWN_STATUS.TOP = true ∧ s.twin.holdLow ≠ 0 ∧
        max s.twin.holdLow s.twin.guardFrom + nsec 20000 ≤ clk (atOfs ofs s) + 1))) ∧
    (∀ (s : State) (b : Nat), b < 16 → ∃ t, exec .excGateChange s = .next t ∧ nbit t.twin.gateOff b =
      if nbit s.twin.gateOff b then nbit (fld s TWN_EXC_GATE.BANKS) b && !(flag s TWN_STATUS.TOP && pinsDriven s)
      else nbit (fld s TWN_EXC_GATE.BANKS) b && !flag s TWN_STATUS.TOP) ∧
    (∀ s : State, Settled s → ∃ t, exec .swap s = .next t ∧ twnState t = twnState s ∧
      if isPending s TWN_CMD then Answered TWN_CMD 2 s t
      else if (twnState s = 2 ∧ inStepWith s = true) ∨ twnState s = 4 then Accepted TWN_CMD 1 s t ∧
        t.twin = { s.twin with swap := some { h := max (rdPair s TWN_SWAP_LAP_LO TWN_SWAP_LAP_HI) (lapD s + 64), mine := true } }
      else Refused TWN_CMD s t) ∧
    (∀ (s : State) (w : Swap), s.twin.swap = some w → Settled s → ∃ t, exec .swapAckTimeout s = .next t ∧ twnState t = twnState s ∧
      if w.mine = true ∧ w.acked = false ∧ w.h ≤ lapD s + 16 then t.twin.swap = none ∧ (twnOp s = 1 → Ended TWN_CMD 5 t)
      else t.twin = s.twin ∧ ∀ a, rd t a = rd s a) ∧
    (∀ (s : State) (w : Swap), s.twin.swap = some w → w.acked = true → w.h ≤ lapD s → ∃ t, exec .swapHandover s = .next t ∧
      (w.switched = false → twnState s = 2 → twnState t = (if w.force then 5 else 4) ∧ t.twin.swap = some { w with switched := true } ∧
        t.twin.mirrorFrom = some w.h ∧ flag t TWN_STATUS.LAG = true ∧ flag t TWN_STATUS.TOP = false ∧ Posted 224 s t) ∧
      (w.switched = false → twnState s = 4 → twnState t = 4 ∧ t.twin.swap = some { w with switched := true } ∧ t.twin.markLap = some w.h) ∧
      (w.switched = false → twnState s ≠ 2 → twnState s ≠ 4 → t.twin.swap = none ∧ twnState t = twnState s) ∧
      (w.switched = true → w.h < lapD s → fromMirror s w.h = false → twnState t = 2 ∧ Posted 227 s t ∧
        t.twin.handed = (if w.force then none else some w.h) ∧ (twnOp s = 1 → Ended TWN_CMD 0 t) ∧
        fld t TWN_CLAIM.VALUE % 2 = fld s TWN_CLAIM.PAR ∧
        ∃ k, (k = 1 ∨ k = 2) ∧ fld t TWN_CLAIM.VALUE = ((if peerShown s = true ∧ 0 < sdiff8 (fld s TWN_CLAIM.PEER) (fld s TWN_CLAIM.VALUE) then
          fld s TWN_CLAIM.PEER else fld s TWN_CLAIM.VALUE) + k) % 256) ∧
      (w.switched = true → w.h < lapD s → fromMirror s w.h = true → t.twin.swap = none ∧ twnState t = if w.leave then 6 else twnState s)) ∧
    (∀ (s : State) (b : Nat), s.twin.takeDue = some b → b < s.bnd → twnState s ≠ 1 ∨ rateLow s = false →
      ∃ t, exec .twnTakeover s = .next t ∧ t.twin.takeDue = none ∧ t.twin.missed = none ∧ t.twin.swap = none ∧
        (takeLapsed s = true → twnState t = twnState s ∧ Ended TWN_CMD 6 t) ∧
        (takeLapsed s = false → twnState t = 2 ∧ Posted 227 s t ∧ fld t TWN_CLAIM.VALUE % 2 = fld s TWN_CLAIM.PAR ∧
          t.twin.switchAt = s.twin.switchAt ∧ t.twin.markLap = s.twin.markLap ∧ t.twin.guardFrom = clk s + 1 ∧
          (twnOp s = 4 → Ended TWN_CMD 0 t) ∧ (twnOp s = 1 → Ended TWN_CMD 6 t))) ∧
    (∀ s : State, Settled s → ∃ t, exec .join s = .next t ∧
      if isPending s TWN_CMD then Answered TWN_CMD 2 s t
      else if twnState s = 5 ∨ (twnState s = 1 ∧ peerValid s = true ∧ peerState s = 2) then isPending t TWN_CMD = true ∧ twnOp t = 2 ∧
        (twnState s = 5 ∨ rateLow s = false → twnState t = 3 ∧ t.twin.mirrored = true ∧ flag t TWN_STATUS.LAG = true ∧ Posted 224 s t) ∧
        (twnState s = 1 → rateLow s = true → twnState t = 1 ∧ t.twin = s.twin)
      else Refused TWN_CMD s t) ∧
    (∀ (s : State) (force : Bool), Settled s → ∃ t, exec (.leave force) s = .next t ∧
      if isPending s TWN_CMD then Answered TWN_CMD 2 s t
      else if twnState s = 0 ∨ (twnState s = 2 ∧ inStepWith s = false ∧ force = false) then Refused TWN_CMD s t
      else twnState t = 6 ∧ Ended TWN_CMD 0 t ∧ t.twin.mirrored = false ∧ ∀ n < 3, laneState t n = 0) ∧
    (∀ (s : State) (force : Bool), Settled s → ∃ t, exec (.take force) s = .next t ∧ twnState t = twnState s ∧
      if isPending s TWN_CMD then Answered TWN_CMD 2 s t
      else if twnState s = 4 ∨ (twnState s = 5 ∧ force = true) ∨ (twnState s = 1 ∧ flag s TWN_STATUS.HOLD_IN = false) then
        Accepted TWN_CMD (w32 (4 + 256 * bit force)) s t ∧ t.twin = { s.twin with
          takeDue := some s.bnd, switchAt := if fromMirror s (lapD s + 1) then some (lapD s + 1, false) else s.twin.switchAt,
          markLap := if s.twin.missed.isSome then s.twin.markLap else some (lapD s + 1) }
      else Refused TWN_CMD s t) ∧
    (∀ s : State, Settled s → ∃ t, exec .twinClear s = .next t ∧
      if isPending s TWN_CMD then Answered TWN_CMD 2 s t
      else Ended TWN_CMD 0 t ∧ fld t TWN_MM.OPEN = 0 ∧ flag t TWN_STATUS.SAFE = false ∧ t.twin = { s.twin with openMm := 0 } ∧
        ∀ a, a ≠ TWN_CMD → a ≠ TWN_MM → a ≠ TWN_STATUS → rd t a = rd s a) ∧
    ∀ s : State, flag s TWN_XCHK_CFG.EN = true → s.twin.mirrored = true → lapD s % 1024 = 0 → (∀ q ∈ s.twin.xchk, q.1 < 256) →
      ∃ t, exec .xchkBlockEnd s = .next t ∧ t.twin.xchk = [] ∧ ∀ c < 256, nbit (rd t (TWN_XCHKk (c / 32))).toNat (c % 32) =
        (nbit (rd s (TWN_XCHKk (c / 32))).toNat (c % 32) ||
          s.twin.xchk.any (fun q => decide (q.1 = c) && decide (fld s TWN_XCHK_CFG.TOL * q.2.2 < 16 * q.2.1.natAbs)))

/-- R401, R402, R410, R411: COUNTER_CLEAR and FAULT_INJECT are accepted, answered BUSY or refused. R406: a temperature sample is read and judged with
5 °C of hysteresis. R407: a supply sample is read and judged against its window. R408: a lockstep difference is shown, counted and posted. R434,
R395: a press, and a hold of 2 s, which asks for removal by the state of the twin; a die that is not awake takes levels alone. R436: the GPIO inputs at a lap boundary. R435: the refused
indication ends. R462: a clock of the test access port captures, shifts and updates, five with TMS high reach Test-Logic-Reset, and TRST_N does.
The states of the port are those of IEEE 1149.1 (log entry 107). -/
def Obligations.HealthServiceAndTestPort : Prop :=
  (∀ s : State, Settled s → ∃ t, exec .counterClear s = .next t ∧ t.mem = s.mem ∧
      if isPending s HLT_CMD then Answered HLT_CMD 2 s t else Accepted HLT_CMD 1 s t) ∧
    (∀ s : State, Settled s → ∃ t, exec .faultInject s = .next t ∧ t.mem = s.mem ∧
      if isPending s HLT_CMD then Answered HLT_CMD 2 s t
      else if (fld s HLT_INJ_CFG.TARGET = 2 ∨ fld s HLT_INJ_CFG.TARGET = 3) ∧ dmcState s ≠ 2 then Refused HLT_CMD s t
      else Accepted HLT_CMD 2 s t) ∧
    (∀ (s : State) (temps : List Int), awake s = true → s.hlt.tempAt ≤ tick s → ∃ t, exec (.tempSample temps) s = .next t ∧ t.hlt.tempAt = tick s + 1024 ∧
      t.mem = s.mem ∧ RegsOutside 0xA00C0000 0xA00D0000 s t ∧
      (∀ k < 6, k ≠ 0 ∨ s.hlt.tempHold ≤ tick s → sfld t (HLT_TEMPs.TEMP k) = satSigned 16 (temps.getD k 0)) ∧
      (∀ (f : Fld) (e : Nat) (limit : Int), (f, e, limit) ∈ [(HLT_STATUS.TEMP_WARN, 232, sfld s HLT_TEMP_LIMITS.WARN), (HLT_STATUS.TEMP_ALARM, 233, sfld s HLT_TEMP_LIMITS.ALARM)] →
        (flag t f = true ↔ (∃ k ∈ sensorsJudged s, limit * 128 ≤ sfld t (HLT_TEMPs.TEMP k)) ∨
          (flag s f = true ∧ ∃ k ∈ sensorsJudged s, (limit - 5) * 128 < sfld t (HLT_TEMPs.TEMP k))) ∧
        (flag s f = false → flag t f = true → Posted e s t))) ∧
    (∀ (s : State) (mv : List Int), awake s = true → s.hlt.supAt ≤ tick s → ∃ t, exec (.supplySample mv) s = .next t ∧ t.hlt.supAt = tick s + 1024 ∧
      t.mem = s.mem ∧ RegsOutside 0xA00C0000 0xA00D0000 s t ∧
      (∀ m < 14, tget (fun _ => 0) s.hlt.supHold m ≤ tick s → sfld t (HLT_SUPm.VALUE m) = satSigned 16 (mv.getD m 0)) ∧
      (∀ m < 14, flag t (HLT_SUPm.ALARM m) = (supplyJudged s m && (decide (sfld t (HLT_SUPm.VALUE m) * 10 < (alarmWindow m).1) ||
        decide ((alarmWindow m).2 < sfld t (HLT_SUPm.VALUE m) * 10))) ∧
        (flag t (HLT_SUPm.ALARM m) = true → nbit (rd t HLT_SUP_STICKY).toNat (16 + m) = true) ∧
        (flag t (HLT_SUPm.WARN m) = true → nbit (rd t HLT_SUP_STICKY).toNat m = true)) ∧
      (flag t HLT_STATUS.SUP_ALARM = (List.range 14).any (fun m => flag t (HLT_SUPm.ALARM m))) ∧
      (flag t HLT_STATUS.SUP_WARN = (List.range 14).any (fun m => flag t (HLT_SUPm.WARN m))) ∧
      (flag s HLT_STATUS.SUP_WARN = false → flag t HLT_STATUS.SUP_WARN = true → Posted 234 s t) ∧
      (flag s HLT_STATUS.SUP_ALARM = false → flag t HLT_STATUS.SUP_ALARM = true → Posted 235 s t)) ∧
    (∀ (s : State) (u : Fin 4), ∃ t, exec (.hltLockstep u) s = .next t ∧ fld t HLT_LOCKSTEP.UNITS = fld s HLT_LOCKSTEP.UNITS ||| 2 ^ u.val ∧
      fld t HLT_LOCKSTEP.COUNT = satNat 16 (fld s HLT_LOCKSTEP.COUNT + 1) ∧ flag t HLT_STATUS.LOCKSTEP = true ∧ Posted 237 s t ∧
      t.mem = s.mem ∧ ∀ a, a ≠ HLT_LOCKSTEP → a ≠ HLT_STATUS → a < 0xA00D0000 ∨ 0xA00D0100 ≤ a → rd t a = rd s a) ∧
    (∀ (s : State) (pressed : Bool), ∃ t, exec (.svcBtn pressed) s = .next t ∧ t.svc.low = pressed ∧
      t.mem = s.mem ∧ RegsOutside SVC_BTN (SVC_BTN + 1) s t ∧
      (awake s = false → t.svc = { s.svc with low := pressed } ∧ flag t SVC_BTN.PRESSED = flag s SVC_BTN.PRESSED) ∧
      (awake s = true → flag t SVC_BTN.PRESSED = pressed ∧
        (flag s SVC_BTN.PRESSED ≠ pressed → Posted 245 s t ∧ t.svc.pressAt = clk s + 1 ∧ t.svc.heldDone = false ∧
          flag t SVC_BTN.PRESS_SEEN = (pressed || flag s SVC_BTN.PRESS_SEEN)))) ∧
    (∀ (s : State) (ofs : Nat), awake s = true → flag s SVC_BTN.PRESSED = true → s.svc.heldDone = false → s.svc.pressAt ≠ 0 →
      s.svc.pressAt + nsec 2000000000 ≤ clk (atOfs ofs s) + 1 → ∃ t, exec (.svcBtnHold ofs) s = .next t ∧ Posted 245 s t ∧
        flag t SVC_BTN.HELD_SEEN = true ∧ t.svc.heldDone = true ∧ t.mem = s.mem ∧
        (twnState s = 1 ∨ twnState s = 3 ∨ twnState s = 4 ∨ twnState s = 5 → twnState t = 6) ∧
        (twnState s = 2 → peerValid s = true → peerState s = 4 → t.twin = { s.twin with swap := some (match s.twin.swap with
            | some w => { w with leave := true }
            | none => { h := lapD s + 128, mine := true, leave := true }) } ∧ twnState t = 2) ∧
        (twnState s = 6 → t.twin = s.twin ∧ RegsOutside SVC_BTN (SVC_BTN + 1) s t) ∧
        (twnState s = 0 ∨ (twnState s = 2 ∧ ¬(peerValid s = true ∧ peerState s = 4)) → t.twin = s.twin ∧
          flag t TWN_STATUS.SVC_REFUSED = true ∧ Posted 229 s t ∧ twnState t = twnState s ∧ t.svc.refusedAt = clk (atOfs ofs s) + 1)) ∧
    (∀ (s : State) (pins : BitVec 8), ∃ t, exec (.svcGpio pins) s = .next t ∧ t.svc.gpio = pins.toNat ∧ t.mem = s.mem ∧
      RegsOutside SVC_GPIO_IN (SVC_GPIO_IN + 1) s t ∧
      ∀ p < 8, (awake s = false → nbit (fld t SVC_GPIO_IN.PINS) p = nbit (fld s SVC_GPIO_IN.PINS) p) ∧
        (awake s = true → nbit (fld t SVC_GPIO_IN.PINS) p =
            (if nbit (fld s SVC_GPIO_DIR.PINS) p then nbit (fld s SVC_GPIO_OUT.PINS) p else nbit pins.toNat p) ∧
          (nbit (fld s SVC_GPIO_IN.PINS) p ≠ nbit (fld t SVC_GPIO_IN.PINS) p →
            nbit (fld s SVC_GPIO_EDGE.EDGE) (2 * p + bit (nbit (fld s SVC_GPIO_IN.PINS) p)) = true → Posted 246 s t))) ∧
    (∀ (s : State) (ofs : Nat), awake s = true → s.svc.refusedAt ≠ 0 → s.svc.refusedAt + nsec 5000000000 ≤ clk (atOfs ofs s) + 1 →
      ∃ t, exec (.refusedIndicationEnd ofs) s = .next t ∧ t.svc.refusedAt = 0 ∧ fld t SVC_LED.INDICATION = indication t ∧ indication t ≠ 2 ∧
        t.mem = s.mem ∧ RegsOutside SVC_LED (SVC_LED + 1) s t) ∧
    (∀ (s : State) (tms tdi : Bool) (pins : List Bool), ∃ t, exec (.tckRisingEdge tms tdi pins) s = .next t ∧ t.mem = s.mem ∧
      (Settled s → ∀ a, rd t a = rd s a) ∧ t.jtag.state = tapNext s.jtag.state tms ∧
      (s.jtag.state = 3 → s.jtag.ir = 1 → t.jtag.drShift = bitList 32 0x162560BD) ∧
      (s.jtag.state = 3 → s.jtag.ir = 0xFF → t.jtag.drShift = [false]) ∧
      (s.jtag.state = 4 → t.jtag.drShift = s.jtag.drShift.drop 1 ++ [tdi]) ∧ (s.jtag.state = 10 → t.jtag.irShift = bitList 8 1) ∧
      (s.jtag.state = 11 → t.jtag.irShift = s.jtag.irShift.drop 1 ++ [tdi]) ∧ (t.jtag.state = 15 → t.jtag.ir = ofBits s.jtag.irShift) ∧
      (t.jtag.state = 8 → drLength s.jtag.ir = 269 → t.jtag.cells = s.jtag.drShift.reverse) ∧
      (t.jtag.state = 0 → t.jtag.ir = 1) ∧ ∀ n, tapNext (tapNext (tapNext (tapNext (tapNext n true) true) true) true) true = 0) ∧
    ∀ s : State, ∃ t, exec .trstN s = .next t ∧ t.jtag = { s.jtag with state := 0, ir := 1, phase := false } ∧ t.mem = s.mem ∧
      (Settled s → ∀ a, rd t a = rd s a)

/-- R415 to R419: RUN, IDLE, REST and SHELVE are accepted, answered BUSY or refused; RUN ends when the analog die is up or times out; a wake source
that is enabled ends REST, or drives RAIL_EN high again. R421, R422: each reset notes its source and clears what the table says; the always-on
registers, the Ledger and local memories are kept, the Runners are halted by a hub reset and left by a Steward reset. R423 to R428: the flash
is read from 0, or for the alternate from BOOT_ALT, by command 0x6B with 24 address bits; an image is checked in order, nothing runs before it has verified, BOOT_DONE starts the cores that the header names; data from the line is taken. R431,
R432:
the Ledger's commands are judged, and the running hours are written to the next slot. What stands for rails and retries in SHELVED is the
model's (log entry 138). -/
def Obligations.PowerResetsBootAndLedger : Prop :=
  (∀ s : State, Settled s → ∃ t, exec .pwrRun s = .next t ∧ t.mem = s.mem ∧
      if isPending s TOP_PWR_CMD then Answered TOP_PWR_CMD 2 s t
      else if powerState s ≠ 0 then Refused TOP_PWR_CMD s t
      else Accepted TOP_PWR_CMD 1 s t ∧ t.pwr = { s.pwr with runAt := clk s }) ∧
    (∀ s : State, powerOp s = 1 → powerState s = 0 → ∃ t, exec .anaUp s = .next t ∧ Ended TOP_PWR_CMD 0 t ∧ powerState t = 1 ∧
      flag t AFE_STATUS.ANA_UP = true ∧ fld t TOP_DIE_REV.ANA_REV = 0x11 ∧ Posted 240 s t ∧ t.mem = s.mem) ∧
    (∀ (s : State) (ofs : Nat), powerOp s = 1 → s.pwr.runAt + nsec 10000000 ≤ clk (atOfs ofs s) → ∃ t, exec (.runTimeout ofs) s = .next t ∧
      Ended TOP_PWR_CMD 5 t ∧ powerState t = powerState s ∧ t.mem = s.mem) ∧
    (∀ s : State, Settled s → ∃ t, exec .pwrIdle s = .next t ∧ t.mem = s.mem ∧
      if isPending s TOP_PWR_CMD then Answered TOP_PWR_CMD 2 s t
      else if powerState s ≠ 1 then Refused TOP_PWR_CMD s t
      else Accepted TOP_PWR_CMD 2 s t) ∧
    (∀ (s : State) (c : Instr) (op : Nat) (dmc : List Nat), (c, op, dmc) ∈ [(.pwrRest, 3, [0, 4]), (.pwrShelve, 4, [0, 5])] → Settled s →
      ∃ t, exec c s = .next t ∧ t.mem = s.mem ∧
        if isPending s TOP_PWR_CMD then Answered TOP_PWR_CMD 2 s t
        else if powerState s = 0 ∧ (List.range 4).all (fun n => decide (coreState s n = 0)) = true ∧ flag s CTL_CTRL.EN = false ∧
            (List.range 64).all (fun r => decide (ringState s r = 0)) = true ∧
            dmcState s ∈ dmc then
          isPending t TOP_PWR_CMD = true ∧ powerOp t = op ∧ powerState t = op - 1 ∧
            (op = 3 → t.pwr = { s.pwr with rest := some (clk s), rang := false } ∧ pacerState t = (if pacerState s = 2 then 3 else 0) ∧ (pacerState s = 2 → Posted 132 s t)) ∧
            (op = 4 → t.pwr = { s.pwr with held := true, railEn := false, rang := false } ∧ t.tbs = s.tbs)
        else Refused TOP_PWR_CMD s t) ∧
    (∀ (s : State) (wakeN btn spi : Bool) (lanes : BitVec 4), powerState s = 2 → s.pwr.held = false →
      wakeBits wakeN btn spi lanes.toNat s ≠ 0 → ∃ t, exec (.wakeFromRest wakeN btn spi lanes) s = .next t ∧ powerState t = 0 ∧
        rd t TOP_WAKE_STATUS = wakeBits wakeN btn spi lanes.toNat s ∧ Posted 241 s t ∧ Ended TOP_PWR_CMD 0 t ∧ t.pwr.rang = false ∧ t.pwr.rest = none ∧
        ∀ n < 4, flag s (LNK_LANEn_CTRL.EN n) = true → laneState t n = 1) ∧
    (∀ (s : State) (wakeN btn : Bool), powerState s = 3 → s.pwr.railEn = false → wakeBits wakeN btn false 0 s ≠ 0 →
      ∃ t, exec (.wakeFromShelved wakeN btn) s = .next t ∧ t.pwr = { s.pwr with railEn := true, waking := true, rang := false } ∧
        rd t TOP_WAKE_STATUS = wakeBits wakeN btn false 0 s ||| 0x100 ∧ t.mem = s.mem) ∧
    (∀ (s : State) (ofs : Nat), rd s TOP_AON_TIMER = 1 → oneSecond ≤ s.pwr.aonPart + (atOfs ofs s).tbs.pacer.ofs →
      ∃ t, exec (.aonTimerExpire ofs) s = .next t ∧ rd t TOP_AON_TIMER = 0 ∧ t.pwr = { s.pwr with rang := canWake s } ∧ t.mem = s.mem) ∧
    (∀ s : State, ∃ t, exec .powerOnReset s = .next t ∧ t.pwr.held = true ∧ t.pwr.por = true ∧ t.pwr.railEn = false ∧ t.dmc.asleep = false ∧
      t.ledger = s.ledger ∧ t.jtag = { } ∧ t.tbs = State.reset.tbs ∧ fld t TOP_RESET_CAUSE.CAUSE = 1 ∧ powerState t = 0 ∧
      flag t TOP_BOOT_STATUS.FORCED_LINE = s.svc.low ∧ t.pending = s.pending ∧ ∀ a, a ≠ TOP_BOOT_STATUS → (a < 0xA00D0000 ∨ 0xA00D0100 ≤ a) → rd t a = resetWord a) ∧
    (∀ s : State, s.pwr.por = true → ∃ t, exec .powerOnResetEnd s = .next t ∧ t.pwr = { s.pwr with por := false, railEn := true } ∧
      t.mem = s.mem) ∧
    (∀ (s : State) (c : Instr) (b : Nat), (c, b) ∈ [(.porstN, 1), (.hubResetCmd 0xB7, 2)] → powerState s ≠ 3 → b = 1 ∨ awake s = true → ∃ t, exec c s = .next t ∧
      fld t TOP_RESET_CAUSE.CAUSE = fld s TOP_RESET_CAUSE.CAUSE ||| 2 ^ b ∧ (∀ a ∈ aonRegs, a ≠ TOP_RESET_CAUSE → rd t a = rd s a) ∧
      (∀ a, a ∉ aonRegs → a ≠ TOP_BOOT_STATUS → (a < 0xA00D0000 ∨ 0xA00D0100 ≤ a) → rd t a = resetWord a) ∧ t.ledger = s.ledger ∧ t.pending = s.pending ∧
      (∀ a, 0x80000000 ≤ a → s.dmc.asleep = false ∨ Memory.wf s.lost s.mem = true → mget t a = mget s a) ∧
      (∀ a, s.dmc.asleep = true → fld s DMC_MAP.GRAIN = 2 → Memory.wf s.lost s.mem = true → mget t a = mget s a) ∧ powerState t = 0 ∧ ∀ n < 4, coreState t n = 0) ∧
    (∀ s : State, powerState s = 3 → ∃ t, exec .porstN s = .next t ∧ powerState t = 0 ∧ t.pwr.railEn = !s.pwr.por ∧ t.ledger = s.ledger ∧
      fld t TOP_RESET_CAUSE.CAUSE = fld s TOP_RESET_CAUSE.CAUSE ||| 2) ∧
    (∀ (s : State) (key : BitVec 8), Settled s → key ≠ 0xB7 → exec (.hubResetCmd key) s = .next s ∧ exec (.stewardResetCmd key) s = .next s) ∧
    (∀ s : State, awake s = true → ∃ t, exec (.stewardResetCmd 0xB7) s = .next t ∧ fld t TOP_RESET_CAUSE.CAUSE = fld s TOP_RESET_CAUSE.CAUSE ||| 2 ^ 6 ∧
      coreOf t 4 = { coreReset 4 with cycle0 := clk s } ∧ (coreOf t 4).pc = 0xFFFE0000 ∧
      (∀ n < 4, coreOf t n = coreOf s n ∧ coreState t n = coreState s n) ∧ RegsOutside 0xA0000000 0xA0010000 s t ∧
      t.pwr.boot.on = true ∧ t.pwr.boot.warm = true ∧ ((coreOf s 4).stores = [] → t.mem = s.mem)) ∧
    (∀ s : State, ∃ t, exec .watchdogKick s = .next t ∧ t.pwr = { s.pwr with wdogAt := clk s } ∧ t.mem = s.mem ∧
      (Settled s → ∀ a, rd t a = rd s a)) ∧
    (∀ (s : State) (ofs : Nat), awake s = true → flag s TOP_WDOG.EN = true →
      s.pwr.wdogAt + nsec (1000000 * max 1 (fld s TOP_WDOG.TIMEOUT)) ≤ clk (atOfs ofs s) → ∃ t, exec (.watchdogExpire ofs) s = .next t ∧
        if flag s TOP_WDOG.ACTION then t.ledger = s.ledger ∧
          fld t TOP_RESET_CAUSE.CAUSE = fld s TOP_RESET_CAUSE.CAUSE ||| 2 ^ 5 ∧ powerState t = 0 ∧ ∀ n < 4, coreState t n = 0
        else fld t TOP_RESET_CAUSE.CAUSE = fld s TOP_RESET_CAUSE.CAUSE ||| 2 ^ 8 ∧ (coreOf t 4).pc = 0xFFFE0000 ∧
          powerState t = powerState s ∧ ∀ n < 4, coreOf t n = coreOf s n ∧ coreState t n = coreState s n) ∧
    (∀ s : State, Settled s → if s.pwr.held = true ∧ s.pwr.railEn = true ∧ s.pwr.por = false then
        ∃ t, exec .railsGood s = .next t ∧ t.pwr.held = false ∧ t.ledger = s.ledger ∧
          (s.pwr.waking = false → t.mem = s.mem ∧ flag t TOP_BOOT_STATUS.FORCED_LINE = s.svc.low ∧
            (∀ a, a ≠ TOP_BOOT_STATUS → rd t a = rd s a) ∧ t.pwr = { s.pwr with held := false, boot := {
              forced := s.svc.low, left := if s.svc.low then 3 :: (bootOrder s).filter (fun c => decide (c ≠ 3)) else bootOrder s } }) ∧
          (s.pwr.waking = true → fld t TOP_RESET_CAUSE.CAUSE = fld s TOP_RESET_CAUSE.CAUSE ||| 2 ^ 4 ∧ powerState t = 0 ∧
            ∀ a ∈ aonRegs, a ≠ TOP_RESET_CAUSE → rd t a = rd s a)
      else exec .railsGood s = .next s) ∧
    (∀ s : State, powerState s ≠ 3 → ∃ t, exec .digitalRailFault s = .next t ∧ t.pwr.held = true ∧ powerState t = 0 ∧ (∀ a ∈ aonRegs, rd t a = rd s a) ∧
      ∀ o, (∀ m, s.pwr.move = some m → m.write = true → o < m.ofs ∨ m.ofs + 4 * max 1 m.left ≤ o) → lget t o = lget s o) ∧
    (∀ (s : State) (flash : Option (List Byte)) (ofs : Nat), bootTrying s = true → (bootOf s).left.getD 0 0 ≠ 3 →
      ∃ t, exec (.bootAttempt flash ofs) s = .next t ∧ (∀ n, coreState t n = coreState s n) ∧
        let base := if (bootOf s).left.getD 0 0 = 2 then lword s 0x108C else 0
        let image := if base < 2 ^ 24 then flash.map (fun b => (b.take (2 ^ 24)).drop base) else none
        t.sent = s.sent ++ (if base < 2 ^ 24 then [⟨.qspi, bytesBE 1 0x6B ++ bytesBE 3 base⟩] else []) ∧
        (∀ code : Nat, code = image.elim 1 (fun img => if headerCheck s img = 0 then bit (!signatureGood img) * 7 else headerCheck s img) →
          if code = 0 then (∀ img, image = some img → (bootOf t).ready = img.take 512) ∧
            fld t TOP_BOOT_STATUS.FAIL_CODE = fld s TOP_BOOT_STATUS.FAIL_CODE
          else fld t TOP_BOOT_STATUS.FAIL_CODE = code ∧ (bootOf t).failed = true ∧ (bootOf t).left = (bootOf s).left.drop 1 ∧
            (bootOf t).ready = [] ∧ (code ≠ 7 → t.mem = s.mem)) ∧
        ∀ img, image = some img → ∀ a, (∀ g ∈ segments img, segInDram g = false → a < segAddr g ∨ segAddr g + segLen g ≤ a) →
          mget t a = mget s a) ∧
    (∀ s : State, (bootOf s).on = true → (bootOf s).ready ≠ [] → awake s = true → ∃ t, exec .bootDone s = .next t ∧
      flag t TOP_BOOT_STATUS.DONE = true ∧ flag t TOP_BOOT_STATUS.WARM = (bootOf s).warm ∧
      fld t TOP_BOOT_STATUS.SOURCE = (bootOf s).good % 4 ∧ (rd t TOP_BOOT_VERSION).toNat = imgNum (bootOf s).ready 8 4 ∧ Posted 242 s t ∧
      (bootOf t).on = false ∧ (coreOf t 4).pc = imgNum (bootOf s).ready 0x18 4 ∧ inService t 4 = false ∧ t.mem = s.mem ∧
      ∀ n < 4, if (bootOf s).warm = false ∧ nbit (imgNum (bootOf s).ready 0x16 1) n = true ∧ coreState s n = 0 then coreState t n = 1
        else coreState t n = coreState s n) ∧
    (∀ (s : State) (ofs : Nat), (bootOf s).on = true → (bootOf s).failedAt ≠ 0 → (bootOf s).failedAt + nsec 10000000000 ≤ clk (atOfs ofs s) + 1 →
      ∃ t, exec (.bootRetry ofs) s = .next t ∧ (bootOf t).failedAt = 0 ∧ t.mem = s.mem ∧
        (bootOf t).left = (if (bootOf s).warm then warmOrder s
          else if (bootOf s).forced then 3 :: (bootOrder s).filter (fun c => decide (c ≠ 3)) else bootOrder s)) ∧
    (∀ (s : State) (pre rest : List Arrived) (a : Arrived) (o total : Nat) (d : List Byte) (ofs : Nat), bootTrying s = true →
      s.wot.inbox = pre ++ a :: rest → (∀ b ∈ pre, b.bad = true ∨ isBootData s b.frame = false) → a.bad = false → isBootData s a.frame = true →
      a.frame.payload = bytesLE 4 o ++ bytesLE 4 total ++ d → o < 2 ^ 32 → total < 2 ^ 32 → d ≠ [] → bootHas (bootOf s) o = false →
      (bootOf s).asked ≠ 0 → ∃ t, exec (.bootDataReceive ofs) s = .next t ∧ t.wot.inbox = pre ++ rest ∧ (bootOf t).size = total ∧
        (bootOf t).chunks = (o, d) :: (bootOf s).chunks ∧ (bootOf t).repeats = 0 ∧ (bootOf t).since = clk (atOfs ofs s) ∧ t.mem = s.mem) ∧
    (∀ (s : State) (ofs : Nat), bootTrying s = true → (bootOf s).left.getD 0 0 = 3 → (bootOf s).asked ≠ 0 →
      (bootOf s).since + nsec 200000000 ≤ clk (atOfs ofs s) → ∃ t, exec (.bootReqRetry ofs) s = .next t ∧ t.mem = s.mem ∧
        if 10 ≤ (bootOf s).repeats then fld t TOP_BOOT_STATUS.FAIL_CODE = 1 ∧ (bootOf t).left = (bootOf s).left.drop 1
        else (bootOf t).repeats = (bootOf s).repeats + 1 ∧ (bootOf t).since = clk (atOfs ofs s) ∧ (bootOf t).window = (bootOf s).window) ∧
    (∀ (s : State) (at1 : Option Nat) (c : Instr) (w : Bool) (bad : Option Nat), (c, w, bad) ∈ [(.ldgRead, false, none), (.ldgWrite at1, true, at1)] →
      Settled s →
      ∃ t, exec c s = .next t ∧ t.mem = s.mem ∧
        if isPending s LDG_CMD then Answered LDG_CMD 2 s t
        else if w = true ∧ rd s LDG_XFER_LEN ≠ 0 ∧ (regionsIn (rd s LDG_XFER_OFS).toNat (min (rd s LDG_XFER_LEN).toNat 65536)).any
            (fun r => nbit (fld s LDG_PROT.REGION) r) = true then Refused LDG_CMD s t
        else if transferGood s = false then Answered LDG_CMD 3 s t
        else isPending t LDG_CMD = true ∧
          t.pwr.move = some ⟨w, (rd s LDG_XFER_OFS).toNat, (rd s LDG_XFER_MEM).toNat, (rd s LDG_XFER_LEN).toNat / 4, bad⟩) ∧
    ∀ (s : State) (ofs : Nat), awake s = true → flag s LDG_CTRL.HOURS_EN = true →
      s.pwr.hoursSlot < 64 →
      s.pwr.hoursAt + nsec 360000000000 ≤ clk (atOfs ofs s) → ∃ t, exec (.runningHoursWrite ofs) s = .next t ∧ t.mem = s.mem ∧
        t.pwr.hoursSeq = s.pwr.hoursSeq + 1 ∧ t.pwr.hoursSlot = (s.pwr.hoursSlot + 1) % 64 ∧
        let e := 0x9000 + s.pwr.hoursSlot * 16
        lword t e = (s.pwr.hoursSeq + 1) % 2 ^ 32 ∧ lword t (e + 4) = (s.pwr.base.1 + s.pwr.spent.1 / 368640000) % 2 ^ 32 ∧
          lword t (e + 8) = (s.pwr.base.2.1 + s.pwr.spent.2.1 / 368640000) % 2 ^ 32 ∧
          lword t (e + 12) = (s.pwr.base.2.2 + s.pwr.spent.2.2 / 368640000) % 2 ^ 32 ∧
          ∀ o < 0x2A000, o < e ∨ e + 16 ≤ o → lget t o = lget s o
end

