-- ==== Sys2Proof/Laws/Tab.lean ====
section
/-!
SUPPORT. The laws of sparse tables: what a read gives after a write, and that a write keeps the canonical form.
-/
namespace Sys2Proof.Machine

variable {α : Type}

/-- A dropped key reads as unlisted. -/
theorem tget_tdrop_same (d : Nat → α) (t : Tab α) (k : Nat) : tget d (tdrop t k) k = d k := by
  induction t with
  | nil => rfl
  | cons q t ih =>
    simp only [tdrop]
    split
    · exact ih
    · rename_i hne
      simp [tget, hne, ih]

/-- Dropping a key leaves the others. -/
theorem tget_tdrop_other (d : Nat → α) (t : Tab α) {k j : Nat} (hj : j ≠ k) : tget d (tdrop t k) j = tget d t j := by
  induction t with
  | nil => rfl
  | cons q t ih =>
    simp only [tdrop, tget]
    split
    · rename_i h
      subst h
      rw [if_neg (Ne.symm hj)]
      exact ih
    · simp only [tget, ih]

/-- Placing a pair gives its value at its key. -/
theorem tget_tins_same (d : Nat → α) (t : Tab α) (k : Nat) (v : α) (h : ∀ q ∈ t, q.1 ≠ k) : tget d (tins t k v) k = v := by
  induction t with
  | nil => simp [tins, tget]
  | cons q t ih =>
    simp only [tins]
    split
    · simp [tget]
    · have h1 : q.1 ≠ k := h q (by simp)
      simp only [tget, if_neg h1]
      exact ih (fun r hr => h r (by simp [hr]))

/-- Placing a pair leaves the other keys. -/
theorem tget_tins_other (d : Nat → α) (t : Tab α) {k j : Nat} (v : α) (hj : j ≠ k) : tget d (tins t k v) j = tget d t j := by
  induction t with
  | nil => simp [tins, tget, Ne.symm hj]
  | cons q t ih =>
    simp only [tins]
    split
    · simp [tget, Ne.symm hj]
    · simp only [tget, ih]

theorem tdrop_keys (t : Tab α) (k : Nat) : ∀ q ∈ tdrop t k, q.1 ≠ k := by
  induction t with
  | nil => simp [tdrop]
  | cons q t ih =>
    simp only [tdrop]
    split
    · exact ih
    · intro r hr
      rcases List.mem_cons.mp hr with rfl | hr
      · assumption
      · exact ih r hr

/-- A key written reads as what was written. -/
@[simp] theorem tget_tput_same [DecidableEq α] (d : Nat → α) (t : Tab α) (k : Nat) (v : α) : tget d (tput d t k v) k = v := by
  unfold tput
  split
  · rename_i h
    rw [tget_tdrop_same, h]
  · exact tget_tins_same d _ k v (tdrop_keys t k)

/-- A write leaves every other key. -/
theorem tget_tput_other [DecidableEq α] (d : Nat → α) (t : Tab α) {k j : Nat} (v : α) (hj : j ≠ k) :
    tget d (tput d t k v) j = tget d t j := by
  unfold tput
  split
  · exact tget_tdrop_other d t hj
  · rw [tget_tins_other d _ v hj, tget_tdrop_other d t hj]

/-- A read after a write, at any key. -/
theorem tget_tput [DecidableEq α] (d : Nat → α) (t : Tab α) (k j : Nat) (v : α) :
    tget d (tput d t k v) j = if j = k then v else tget d t j := by
  split
  · rename_i h
    rw [h, tget_tput_same]
  · rename_i h
    exact tget_tput_other d t v h

/-! ### The canonical form -/

theorem trising_mono {t : Tab α} {a b : Nat} (hab : a ≤ b) (h : trising b t = true) : trising a t = true := by
  cases t with
  | nil => rfl
  | cons q t =>
    simp only [trising, Bool.and_eq_true, decide_eq_true_eq] at h ⊢
    exact ⟨by omega, h.2⟩

theorem trising_tdrop {t : Tab α} {a k : Nat} (h : trising a t = true) : trising a (tdrop t k) = true := by
  induction t generalizing a with
  | nil => rfl
  | cons q t ih =>
    simp only [trising, Bool.and_eq_true, decide_eq_true_eq] at h
    simp only [tdrop]
    split
    · exact ih (trising_mono (by omega) h.2)
    · simp only [trising, Bool.and_eq_true, decide_eq_true_eq]
      exact ⟨h.1, ih h.2⟩

theorem trising_tins {t : Tab α} {a k : Nat} {v : α} (hk : ∀ q ∈ t, q.1 ≠ k) (ha : a ≤ k) (h : trising a t = true) :
    trising a (tins t k v) = true := by
  induction t generalizing a with
  | nil => simp [tins, trising, ha]
  | cons q t ih =>
    simp only [trising, Bool.and_eq_true, decide_eq_true_eq] at h
    simp only [tins]
    split
    · simp only [trising, Bool.and_eq_true, decide_eq_true_eq]
      exact ⟨ha, by omega, h.2⟩
    · have h1 : q.1 ≠ k := hk q (by simp)
      simp only [trising, Bool.and_eq_true, decide_eq_true_eq]
      exact ⟨h.1, ih (fun r hr => hk r (by simp [hr])) (by omega) h.2⟩

theorem tlean_tdrop [DecidableEq α] {d : Nat → α} {t : Tab α} (k : Nat) (h : tlean d t = true) : tlean d (tdrop t k) = true := by
  induction t with
  | nil => rfl
  | cons q t ih =>
    simp only [tlean, Bool.and_eq_true, decide_eq_true_eq] at h
    simp only [tdrop]
    split
    · exact ih h.2
    · simp only [tlean, Bool.and_eq_true, decide_eq_true_eq]
      exact ⟨h.1, ih h.2⟩

theorem tlean_tins [DecidableEq α] {d : Nat → α} {t : Tab α} {k : Nat} {v : α} (hv : v ≠ d k) (h : tlean d t = true) :
    tlean d (tins t k v) = true := by
  induction t with
  | nil => simp [tins, tlean, hv]
  | cons q t ih =>
    simp only [tlean, Bool.and_eq_true, decide_eq_true_eq] at h
    simp only [tins]
    split
    · simp only [tlean, Bool.and_eq_true, decide_eq_true_eq]
      exact ⟨hv, h.1, h.2⟩
    · simp only [tlean, Bool.and_eq_true, decide_eq_true_eq]
      exact ⟨h.1, ih h.2⟩

/-- A write keeps the canonical form. -/
theorem tcanon_tput [DecidableEq α] {d : Nat → α} {t : Tab α} (k : Nat) (v : α) (h : tcanon d t = true) :
    tcanon d (tput d t k v) = true := by
  simp only [tcanon, Bool.and_eq_true] at h ⊢
  unfold tput
  split
  · exact ⟨trising_tdrop h.1, tlean_tdrop k h.2⟩
  · rename_i hv
    exact ⟨trising_tins (tdrop_keys t k) (Nat.zero_le k) (trising_tdrop h.1), tlean_tins hv (tlean_tdrop k h.2)⟩

/-- Many writes keep it. -/
theorem tcanon_foldl_tput [DecidableEq α] {β : Type} {d : Nat → α} (f : Tab α → β → Tab α)
    (hf : ∀ t x, tcanon d t = true → tcanon d (f t x) = true) (l : List β) {t : Tab α} (h : tcanon d t = true) :
    tcanon d (l.foldl f t) = true := by
  induction l generalizing t with
  | nil => exact h
  | cons x l ih => exact ih (hf t x h)

/-- The canonical form depends on what the keys that stand there read as unlisted. -/
theorem tcanon_congr [DecidableEq α] {d e : Nat → α} {t : Tab α} (he : ∀ q ∈ t, e q.1 = d q.1) (h : tcanon d t = true) : tcanon e t = true := by
  have key : tlean d t = true → tlean e t = true := by
    clear h
    induction t with
    | nil => exact id
    | cons q t ih =>
      intro h
      simp only [tlean, Bool.and_eq_true, decide_eq_true_eq] at h ⊢
      exact ⟨he q (by simp) ▸ h.1, ih (fun r hr => he r (by simp [hr])) h.2⟩
  simp only [tcanon, Bool.and_eq_true] at h ⊢
  exact ⟨h.1, key h.2⟩

/-- Entries taken out keep it. -/
theorem tcanon_filter [DecidableEq α] {d : Nat → α} (p : Nat × α → Bool) {t : Tab α} (h : tcanon d t = true) :
    tcanon d (t.filter p) = true := by
  simp only [tcanon, Bool.and_eq_true] at h ⊢
  constructor
  · have key : ∀ (t : Tab α) (a : Nat), trising a t = true → trising a (t.filter p) = true := by
      intro t
      induction t with
      | nil => intro a _; rfl
      | cons q t ih =>
        intro a ha
        simp only [trising, Bool.and_eq_true, decide_eq_true_eq] at ha
        simp only [List.filter]
        split
        · simp only [trising, Bool.and_eq_true, decide_eq_true_eq]
          exact ⟨ha.1, ih _ ha.2⟩
        · exact ih a (trising_mono (by omega) ha.2)
    exact key t 0 h.1
  · have key : ∀ t : Tab α, tlean d t = true → tlean d (t.filter p) = true := by
      intro t
      induction t with
      | nil => intro _; rfl
      | cons q t ih =>
        intro ht
        simp only [tlean, Bool.and_eq_true, decide_eq_true_eq] at ht
        simp only [List.filter]
        split
        · simp only [tlean, Bool.and_eq_true, decide_eq_true_eq]
          exact ⟨ht.1, ih ht.2⟩
        · exact ih ht.2
    exact key t h.2

end Sys2Proof.Machine
end

