-- ==== Sys2Proof/Laws/Keep.lean ====
section
/-!
SUPPORT. What every operation keeps: the queue of waiting commands, the canonical form of memory, Ledger and registers, and the parts
of the state that it does not touch. One lemma per operation (Laws/Keep*.lean), so that no later proof unfolds one for this: its
hypotheses `kp .x = true` name the parts that it may touch, so that the other parts may be asked to stay as they are.
-/
namespace Sys2Proof.Machine
open Sys2Proof

/-- Of `zz` and a later `s`: the queue is the same, the stores are in canonical form if they were, and the parts that `kp` does not name are the
same. -/
def Ok (kp : Comp → Bool) (zz s : State) : Prop :=
  (s.pending = zz.pending ∧ (StoresWf zz → StoresWf s)) ∧ ∀ c, kp c = false → same c zz s

/-- The same of the outcome of a command. -/
def OkO (kp : Comp → Bool) (zz : State) (o : Host.Outcome State Fault Refusal) : Prop := ∀ t, o = .next t → Ok kp zz t

variable {kp : Comp → Bool} {zz s : State}

theorem Ok.start : Ok kp s s := ⟨⟨rfl, id⟩, fun c _ => by cases c <;> rfl⟩

theorem Ok.stores (h : Ok kp zz s) (hz : StoresWf zz) : StoresWf s := h.1.2 hz

theorem ok_ite {c : Prop} [Decidable c] {a b : State} (ha : Ok kp zz a) (hb : Ok kp zz b) : Ok kp zz (if c then a else b) := by
  split
  · exact ha
  · exact hb

/-- The state of a choice between pairs. -/
theorem ok_ite2 {α : Type} {c : Prop} [Decidable c] {a b : α × State} (ha : Ok kp zz a.2) (hb : Ok kp zz b.2) :
    Ok kp zz (if c then a else b).2 := by
  split
  · exact ha
  · exact hb

theorem ok_foldl {β : Type} {f : State → β → State} (hf : ∀ u x, Ok kp zz u → Ok kp zz (f u x)) {l : List β} (h : Ok kp zz s) :
    Ok kp zz (l.foldl f s) := by
  induction l generalizing s with
  | nil => exact h
  | cons x l ih => exact ih (hf s x h)

/-- A fold that carries something beside the state. -/
theorem ok_foldl_snd {α β : Type} {f : α × State → β → α × State} (hf : ∀ u x, Ok kp zz u.2 → Ok kp zz (f u x).2) {l : List β}
    {q : α × State} (h : Ok kp zz q.2) : Ok kp zz (l.foldl f q).2 := by
  induction l generalizing q with
  | nil => exact h
  | cons x l ih => exact ih (hf q x h)

theorem okO_next {t : State} (h : Ok kp zz t) : OkO kp zz (.next t) := by
  intro u hu
  cases hu
  exact h

theorem okO_fault {f : Fault} : OkO kp zz (.fault f) := by
  intro u hu
  cases hu

theorem okO_refused {r : Refusal} : OkO kp zz (.refused r) := by
  intro u hu
  cases hu

theorem okO_ite {c : Prop} [Decidable c] {a b : Host.Outcome State Fault Refusal} (ha : OkO kp zz a) (hb : OkO kp zz b) :
    OkO kp zz (if c then a else b) := by
  split
  · exact ha
  · exact hb

/-- A record update that leaves queue and stores alone. -/
theorem ok_mk {t : State} {x1 : Nat} {x2 : Nat} {x4 : Tab Acc} {x5 : List (Nat × Word)} {x8 : Fabric} {x9 : List Offer} {x10 :
    List Sent} {x11 : Tbs} {x12 : Afe} {x13 : Cnv} {x14 : LapInfo} {x15 : Red} {x16 : Outs} {x17 : Acq} {x18 : Ctl} {x19 :
    Cores} {x20 : Lanes} {x21 : Wot} {x22 : Eth} {x23 : Dmc} {x24 : Twin} {x25 : Hlt} {x26 : Pwr} {x27 : Svc} {x28 : Tap1149}
    (h : Ok kp zz t) (hc : (x1 = t.bnd ∨ kp .bnd = true) ∧ (x2 = t.fresh ∨ kp .fresh = true) ∧ (x4 = t.accepted ∨ kp .accepted =
    true) ∧ (x5 = t.nextRegs ∨ kp .nextRegs = true) ∧ (x10 = t.sent ∨ kp .sent = true) ∧ (x11 = t.tbs ∨ kp .tbs = true) ∧ (x12 =
    t.afe ∨ kp .afe = true) ∧ (x13 = t.cnv ∨ kp .cnv = true) ∧ (x14 = t.lapInfo ∨ kp .lapInfo = true) ∧ (x15 = t.red ∨ kp .red =
    true) ∧ (x16 = t.out ∨ kp .out = true) ∧ (x17 = t.acq ∨ kp .acq = true) ∧ (x18 = t.ctl ∨ kp .ctl = true) ∧ (x19 = t.cores ∨ kp
    .cores = true) ∧ (x20 = t.lanes ∨ kp .lanes = true) ∧ (x21 = t.wot ∨ kp .wot = true) ∧ (x22 = t.eth ∨ kp .eth = true) ∧ (x23
    = t.dmc ∨ kp .dmc = true) ∧ (x24 = t.twin ∨ kp .twin = true) ∧ (x25 = t.hlt ∨ kp .hlt = true) ∧ (x26 = t.pwr ∨ kp .pwr = true)
    ∧ (x27 = t.svc ∨ kp .svc = true) ∧ (x28 = t.jtag ∨ kp .jtag = true)) : Ok kp zz (State.mk t.pending x1 x2 t.regs x4 x5 t.mem
    t.lost t.ledger x8 x9 x10 x11 x12 x13 x14 x15 x16 x17 x18 x19 x20 x21 x22 x23 x24 x25 x26 x27 x28) := by
  refine ⟨h.1, fun c hk => ?_⟩
  have h0 := h.2 c hk
  cases c <;> simp only [same] at h0 ⊢ <;> simp_all

/-! ### The operations that write the stores -/

/-- What writes the stores and nothing else of these parts. -/
theorem ok_stores {t u : State} (h : Ok kp zz t) (hp : u.pending = t.pending) (hw : StoresWf t → StoresWf u)
    (hc : ∀ c, kp c = false → same c t u) : Ok kp zz u := by
  refine ⟨⟨hp.trans h.1.1, fun hz => hw (h.1.2 hz)⟩, fun c hk => ?_⟩
  have h0 := h.2 c hk
  have h1 := hc c hk
  cases c <;> simp only [same] at h0 h1 ⊢ <;> simp_all

theorem wr_ok (h : Ok kp zz s) {a : Nat} {w : Word} : Ok kp zz (wr s a w) :=
  ok_stores h rfl (fun w0 => ⟨w0.1, w0.2.1, tcanon_tput a w w0.2.2⟩) (fun c _ => by cases c <;> rfl)

theorem mput_ok (h : Ok kp zz s) {a : Nat} {b : Byte} (kMem : kp .mem = true := by assumption) : Ok kp zz (mput s a b) :=
  ok_stores h rfl (fun w0 => ⟨tcanon_tput a b w0.1, w0.2.1, w0.2.2⟩) (fun c hk => by cases c <;> first | rfl | simp_all)

/-- Outside a range that is lost, what an unlisted byte reads as stays. -/
theorem blankByte_lose {lo hi f a : Nat} {l : List (Nat × Nat × Nat)} (ha : within lo hi a = false) :
    blankByte ((lo, hi, f) :: l.filter (fun r => !(decide (lo ≤ r.1) && decide (r.2.1 ≤ hi)))) a = blankByte l a := by
  simp only [within, decide_eq_false_iff_not] at ha
  have hf : (l.filter (fun r => !(decide (lo ≤ r.1) && decide (r.2.1 ≤ hi)))).find? (fun r => decide (r.1 ≤ a ∧ a < r.2.1)) =
      l.find? (fun r => decide (r.1 ≤ a ∧ a < r.2.1)) := by
    induction l with
    | nil => rfl
    | cons r t ih =>
      by_cases hr : lo ≤ r.1 ∧ r.2.1 ≤ hi
      · have hna : decide (r.1 ≤ a ∧ a < r.2.1) = false := by
          rw [decide_eq_false_iff_not]
          omega
        have hk : (!(decide (lo ≤ r.1) && decide (r.2.1 ≤ hi))) = false := by simp [hr.1, hr.2]
        rw [List.filter_cons_of_neg (by rw [hk]; exact Bool.false_ne_true), ih, List.find?_cons, hna]
      · have hk : (!(decide (lo ≤ r.1) && decide (r.2.1 ≤ hi))) = true := by
          rw [Bool.not_eq_true', Bool.and_eq_false_iff, decide_eq_false_iff_not, decide_eq_false_iff_not]
          exact Decidable.not_and_iff_not_or_not.mp hr
        rw [List.filter_cons, if_pos hk, List.find?_cons, List.find?_cons, ih]
  simp only [blankByte, List.find?_cons, ha, decide_false, hf]

theorem loseRange_ok (h : Ok kp zz s) {lo hi : Nat} (kFresh : kp .fresh = true := by assumption)
    (kMem : kp .mem = true := by assumption) : Ok kp zz (loseRange lo hi s) := by
  refine ok_stores h rfl (fun w0 => ⟨?_, w0.2.1, w0.2.2⟩) (fun c hk => by cases c <;> first | rfl | simp_all)
  refine tcanon_congr (fun q hq => blankByte_lose ?_) (tcanon_filter (fun q => !within lo hi q.1) w0.1)
  simpa using (List.mem_filter.mp hq).2

theorem mputs_ok (h : Ok kp zz s) {a : Nat} {bs : List Byte} (kMem : kp .mem = true := by assumption) : Ok kp zz (mputs s a bs) := by
  induction bs generalizing s a with
  | nil => exact h
  | cons b t ih => exact ih (mput_ok h)

end Sys2Proof.Machine
end

