-- ==== Sys2Proof/Laws/KeepOps.lean ====
section
/-!
SUPPORT. What the operations of Machine/Ops.lean keep.
-/
namespace Sys2Proof.Machine
open Sys2Proof

set_option Elab.async false
set_option linter.unreachableTactic false
set_option linter.unusedTactic false
set_option linter.unusedVariables false

variable {kp : Comp → Bool} {zz s : State}

theorem setFld_ok (h : Ok kp zz s) {f : Fld} {v : Nat} : Ok kp zz (setFld s f v) := by
  unfold setFld
  repeat' first
    | with_reducible assumption | with_reducible apply wr_ok

theorem setFlag_ok (h : Ok kp zz s) {f : Fld} {b : Bool} : Ok kp zz (setFlag s f b) := by
  unfold setFlag
  repeat' first
    | with_reducible assumption | with_reducible apply setFld_ok

theorem setInt_ok (h : Ok kp zz s) {f : Fld} {i : Int} : Ok kp zz (setInt s f i) := by
  unfold setInt
  repeat' first
    | with_reducible assumption | with_reducible apply setFld_ok

theorem addSat_ok (h : Ok kp zz s) {f : Fld} {k : Nat} : Ok kp zz (addSat s f k) := by
  unfold addSat
  repeat' first
    | with_reducible assumption | with_reducible apply setFld_ok

theorem addMod_ok (h : Ok kp zz s) {f : Fld} {k : Nat} : Ok kp zz (addMod s f k) := by
  unfold addMod
  repeat' first
    | with_reducible assumption | with_reducible apply setFld_ok

theorem wrPair_ok (h : Ok kp zz s) {lo : Nat} {hi : Nat} {v : Nat} : Ok kp zz (wrPair s lo hi v) := by
  unfold wrPair
  repeat' first
    | with_reducible assumption | with_reducible apply wr_ok

theorem atOfs_ok (h : Ok kp zz s) {ofs : Nat} (kTbs : kp .tbs = true := by assumption) : Ok kp zz (atOfs ofs s) := by
  unfold atOfs
  repeat' first
    | with_reducible assumption
    | (fail_if_no_progress refine ok_mk ?_ (by and_intros <;> first | with_reducible exact Or.inl rfl | exact Or.inr (by assumption)))

theorem freshen_ok (h : Ok kp zz s) (kFresh : kp .fresh = true := by assumption) : Ok kp zz (freshen s) := by
  unfold freshen
  repeat' first
    | with_reducible assumption
    | (fail_if_no_progress refine ok_mk ?_ (by and_intros <;> first | with_reducible exact Or.inl rfl | exact Or.inr (by assumption)))

theorem setLatent_ok (h : Ok kp zz s) {k : Nat} {l : List Nat} (kDmc : kp .dmc = true := by assumption) : Ok kp zz (setLatent
    k l s) := by
  unfold setLatent
  repeat' first
    | with_reducible assumption
    | (fail_if_no_progress refine ok_mk ?_ (by and_intros <;> first | with_reducible exact Or.inl rfl | exact Or.inr (by assumption)))

theorem flipBit_ok (h : Ok kp zz s) {k : Nat} {i : Nat} (kMem : kp .mem = true := by assumption) : Ok kp zz (flipBit k s i) :=
    by
  unfold flipBit
  repeat' first
    | with_reducible assumption | with_reducible apply ok_ite | with_reducible apply mput_ok | split

theorem ruinWord_ok (h : Ok kp zz s) {k : Nat} {n : Nat} (kFresh : kp .fresh = true := by assumption) (kMem : kp .mem = true
    := by assumption) (kDmc : kp .dmc = true := by assumption) : Ok kp zz (ruinWord k n s) := by
  unfold ruinWord
  repeat' first
    | with_reducible assumption | with_reducible apply ok_ite | with_reducible apply flipBit_ok
    | with_reducible apply setLatent_ok | with_reducible apply ok_foldl | (with_reducible intro u x hu)
    | (fail_if_no_progress refine ok_mk ?_ (by and_intros <;> first | with_reducible exact Or.inl rfl | exact Or.inr (by assumption)))
    | split

theorem written_ok (h : Ok kp zz s) {a : Nat} {n : Nat} (kFresh : kp .fresh = true := by assumption) (kMem : kp .mem = true :=
    by assumption) (kDmc : kp .dmc = true := by assumption) : Ok kp zz (written a n s) := by
  unfold written
  try dsimp only
  repeat' first
    | with_reducible assumption | with_reducible apply ok_ite | with_reducible apply ruinWord_ok | split
    | (with_reducible intro u x hu) | (with_reducible intro u hu) | dsimp only
    | (fail_if_no_progress refine ok_mk ?_ (by and_intros <;> first | with_reducible exact Or.inl rfl | exact Or.inr (by assumption)))

theorem mwrite_ok (h : Ok kp zz s) {a : Nat} {bs : List Byte} (kFresh : kp .fresh = true := by assumption) (kMem : kp .mem =
    true := by assumption) (kDmc : kp .dmc = true := by assumption) : Ok kp zz (mwrite s a bs) := by
  unfold mwrite
  repeat' first
    | with_reducible assumption | with_reducible apply mputs_ok | with_reducible apply written_ok

theorem mstore_ok (h : Ok kp zz s) {k : Nat} {a : Nat} {v : Nat} (kFresh : kp .fresh = true := by assumption) (kMem : kp .mem
    = true := by assumption) (kDmc : kp .dmc = true := by assumption) : Ok kp zz (mstore s k a v) := by
  unfold mstore
  repeat' first
    | with_reducible assumption | with_reducible apply mwrite_ok

theorem raise_ok (h : Ok kp zz s) {n : Nat} : Ok kp zz (raise n s) := by
  unfold raise
  repeat' first
    | with_reducible assumption | with_reducible apply ok_ite
    | (fail_if_no_progress refine ok_mk ?_ (by and_intros <;> first | with_reducible exact Or.inl rfl | exact Or.inr (by assumption)))
    | split

theorem raiseIf_ok (h : Ok kp zz s) {b : Bool} {n : Nat} : Ok kp zz (raiseIf b n s) := by
  unfold raiseIf
  repeat' first
    | with_reducible assumption | with_reducible apply ok_ite | with_reducible apply raise_ok | split

theorem raiseChosen_ok (h : Ok kp zz s) {n : Nat} : Ok kp zz (raiseChosen n s) := by
  unfold raiseChosen
  repeat' first
    | with_reducible assumption | with_reducible apply ok_ite | with_reducible apply addSat_ok | with_reducible apply raise_ok
    | split

theorem setPend_ok (h : Ok kp zz s) {c : Nat} {k : Nat} {w : Word} : Ok kp zz (setPend s c k w) := by
  unfold setPend
  repeat' first
    | with_reducible assumption
    | (fail_if_no_progress refine ok_mk ?_ (by and_intros <;> first | with_reducible exact Or.inl rfl | exact Or.inr (by assumption)))

theorem pendOn_ok (h : Ok kp zz s) {n : Nat} {c : Nat} : Ok kp zz (pendOn n s c) := by
  unfold pendOn
  repeat' first
    | with_reducible assumption | with_reducible apply ok_ite | with_reducible apply setPend_ok | split

theorem setCount_ok (h : Ok kp zz s) {n : Nat} {v : Nat} : Ok kp zz (setCount s n v) := by
  unfold setCount
  repeat' first
    | with_reducible assumption
    | (fail_if_no_progress refine ok_mk ?_ (by and_intros <;> first | with_reducible exact Or.inl rfl | exact Or.inr (by assumption)))

theorem countOn_ok (h : Ok kp zz s) {src : Nat} {k : Nat} {n : Nat} : Ok kp zz (countOn src k s n) := by
  unfold countOn
  repeat' first
    | with_reducible assumption | with_reducible apply ok_ite | with_reducible apply raiseIf_ok
    | with_reducible apply setCount_ok | split

theorem count_ok (h : Ok kp zz s) {src : Nat} {k : Nat} : Ok kp zz (count src k s) := by
  unfold count
  repeat' first
    | with_reducible assumption | with_reducible apply ok_ite | with_reducible apply countOn_ok | with_reducible apply ok_foldl
    | (with_reducible intro u x hu) | split

theorem setCoreState_ok (h : Ok kp zz s) {n : Nat} {st : Nat} : Ok kp zz (setCoreState n st s) := by
  unfold setCoreState
  repeat' first
    | with_reducible assumption | with_reducible apply ok_ite | with_reducible apply setFld_ok | split
    | (with_reducible intro u x hu) | (with_reducible intro u hu) | dsimp only
    | (fail_if_no_progress refine ok_mk ?_ (by and_intros <;> first | with_reducible exact Or.inl rfl | exact Or.inr (by assumption)))

theorem wearWord_ok (h : Ok kp zz s) {o : Nat} : Ok kp zz (wearWord s o) := by
  unfold wearWord
  repeat' first
    | with_reducible assumption | with_reducible apply ok_ite | with_reducible apply raise_ok | with_reducible apply setFlag_ok
    | with_reducible apply setFld_ok
    | (fail_if_no_progress refine ok_mk ?_ (by and_intros <;> first | with_reducible exact Or.inl rfl | exact Or.inr (by assumption)))
    | split

theorem lwriteWord_ok (h : Ok kp zz s) {o v : Nat} : Ok kp zz (lwriteWord s o v) := by
  unfold lwriteWord
  apply wearWord_ok
  exact ok_stores h rfl (fun w0 => ⟨w0.1, tcanon_foldl_tput _ (fun t x ht => tcanon_tput _ _ ht) _ w0.2.1, w0.2.2⟩)
    (fun c _ => by cases c <;> rfl)

theorem lwriteWords_ok (h : Ok kp zz s) {o : Nat} {ws : List Nat} : Ok kp zz (lwriteWords s o ws) := by
  induction ws generalizing s o with
  | nil => exact h
  | cons v t ih => exact ih (lwriteWord_ok h)

theorem journal_ok (h : Ok kp zz s) {n : Nat} : Ok kp zz (journal n s) := by
  unfold journal
  repeat' first
    | with_reducible assumption | with_reducible apply ok_ite | with_reducible apply addMod_ok
    | with_reducible apply lwriteWords_ok | with_reducible apply setFld_ok
    | (fail_if_no_progress refine ok_mk ?_ (by and_intros <;> first | with_reducible exact Or.inl rfl | exact Or.inr (by assumption)))
    | split

theorem offer_ok (h : Ok kp zz s) {o : Offer} : Ok kp zz (offer o s) := by
  unfold offer
  repeat' first
    | with_reducible assumption
    | (fail_if_no_progress refine ok_mk ?_ (by and_intros <;> first | with_reducible exact Or.inl rfl | exact Or.inr (by assumption)))

theorem offerEvent_ok (h : Ok kp zz s) {n : Nat} {r : Nat} : Ok kp zz (offerEvent n s r) := by
  unfold offerEvent
  repeat' first
    | with_reducible assumption | with_reducible apply ok_ite | with_reducible apply offer_ok | split

theorem notePost_ok (h : Ok kp zz s) {n : Nat} : Ok kp zz (notePost n s) := by
  unfold notePost
  try dsimp only
  repeat' first
    | with_reducible assumption | with_reducible apply ok_ite | split | (with_reducible intro u x hu)
    | (with_reducible intro u hu) | dsimp only
    | (fail_if_no_progress refine ok_mk ?_ (by and_intros <;> first | with_reducible exact Or.inl rfl | exact Or.inr (by assumption)))

theorem loosen_ok (h : Ok kp zz s) : Ok kp zz (loosen s) := by
  unfold loosen
  repeat' first
    | with_reducible assumption | with_reducible apply ok_ite | split | (with_reducible intro u x hu)
    | (with_reducible intro u hu) | dsimp only
    | (fail_if_no_progress refine ok_mk ?_ (by and_intros <;> first | with_reducible exact Or.inl rfl | exact Or.inr (by assumption)))

theorem postOne_ok (h : Ok kp zz s) {n : Nat} : Ok kp zz (postOne s n) := by
  unfold postOne
  try dsimp only
  repeat' first
    | with_reducible assumption | with_reducible apply ok_ite | with_reducible apply count_ok | with_reducible apply journal_ok
    | with_reducible apply notePost_ok | with_reducible apply offerEvent_ok | with_reducible apply pendOn_ok
    | with_reducible apply ok_foldl_snd | with_reducible apply ok_foldl | split | (with_reducible intro u x hu)
    | (with_reducible intro u hu) | dsimp only
    | (fail_if_no_progress refine ok_mk ?_ (by and_intros <;> first | with_reducible exact Or.inl rfl | exact Or.inr (by assumption)))

theorem settleFrom_ok (h : Ok kp zz s) {k : Nat} : Ok kp zz (settleFrom k s) := by
  unfold settleFrom
  repeat' first
    | with_reducible assumption | with_reducible apply postOne_ok | with_reducible apply ok_foldl
    | (with_reducible intro u x hu)

theorem settle_ok (h : Ok kp zz s) : Ok kp zz (settle s) := by
  unfold settle
  repeat' first
    | with_reducible assumption | with_reducible apply settleFrom_ok
    | (fail_if_no_progress refine ok_mk ?_ (by and_intros <;> first | with_reducible exact Or.inl rfl | exact Or.inr (by assumption)))

theorem done_ok (h : Ok kp zz s) : OkO kp zz (done s) := by
  unfold done
  repeat' first
    | with_reducible assumption | with_reducible apply okO_next | with_reducible apply settle_ok

theorem whileAwake_ok (h : Ok kp zz s) {f : State → Host.Outcome State Fault Refusal} (hf : ∀ u, Ok kp zz u → OkO kp zz (f u))
    : OkO kp zz (whileAwake f s) := by
  unfold whileAwake
  repeat' first
    | with_reducible assumption | with_reducible apply okO_ite | with_reducible apply okO_next | with_reducible apply okO_fault
    | with_reducible apply okO_refused | with_reducible apply ok_ite | with_reducible apply done_ok | with_reducible apply hf
    | split | (with_reducible intro u x hu) | (with_reducible intro u hu) | dsimp only
    | (fail_if_no_progress refine ok_mk ?_ (by and_intros <;> first | with_reducible exact Or.inl rfl | exact Or.inr (by assumption)))

theorem complete_ok (h : Ok kp zz s) {a : Nat} {code : Nat} (kAccepted : kp .accepted = true := by assumption) : Ok kp zz
    (complete a code s) := by
  unfold complete
  repeat' first
    | with_reducible assumption | with_reducible apply setFld_ok
    | (fail_if_no_progress refine ok_mk ?_ (by and_intros <;> first | with_reducible exact Or.inl rfl | exact Or.inr (by assumption)))

theorem accept_ok (h : Ok kp zz s) {a : Nat} {w : Word} (kAccepted : kp .accepted = true := by assumption) : Ok kp zz (accept
    a w s) := by
  unfold accept
  repeat' first
    | with_reducible assumption | with_reducible apply setFld_ok
    | (fail_if_no_progress refine ok_mk ?_ (by and_intros <;> first | with_reducible exact Or.inl rfl | exact Or.inr (by assumption)))

theorem refuse_ok (h : Ok kp zz s) {a : Nat} : Ok kp zz (refuse a s) := by
  unfold refuse
  repeat' first
    | with_reducible assumption | with_reducible apply addSat_ok | with_reducible apply count_ok | with_reducible apply raise_ok
    | with_reducible apply setFld_ok

theorem reject_ok (h : Ok kp zz s) {a : Nat} {code : Nat} : Ok kp zz (reject a code s) := by
  unfold reject
  repeat' first
    | with_reducible assumption | with_reducible apply setFld_ok

theorem emit_ok (h : Ok kp zz s) {p : Port} {d : List Byte} (kSent : kp .sent = true := by assumption) : Ok kp zz (emit p d s)
    := by
  unfold emit
  repeat' first
    | with_reducible assumption
    | (fail_if_no_progress refine ok_mk ?_ (by and_intros <;> first | with_reducible exact Or.inl rfl | exact Or.inr (by assumption)))

theorem emitLevel_ok (h : Ok kp zz s) {p : Port} {b : Bool} (kSent : kp .sent = true := by assumption) : Ok kp zz (emitLevel p
    b s) := by
  unfold emitLevel
  repeat' first
    | with_reducible assumption | with_reducible apply emit_ok

end Sys2Proof.Machine
end

