-- ==== Sys2Proof/Laws/KeepDram.lean ====
section
/-!
SUPPORT. What the operations of Machine/Dram.lean keep.
-/
namespace Sys2Proof.Machine
open Sys2Proof

set_option Elab.async false
set_option linter.unreachableTactic false
set_option linter.unusedTactic false
set_option linter.unusedVariables false

variable {kp : Comp → Bool} {zz s : State}

theorem setCores_ok (h : Ok kp zz s) {x : Cores} (kCores : kp .cores = true := by assumption) : Ok kp zz (setCores x s) := by
  unfold setCores
  repeat' first
    | with_reducible assumption | with_reducible apply ok_ite | split | (with_reducible intro u x hu)
    | (with_reducible intro u hu) | dsimp only
    | (fail_if_no_progress refine ok_mk ?_ (by and_intros <;> first | with_reducible exact Or.inl rfl | exact Or.inr (by assumption)))

theorem setCore_ok (h : Ok kp zz s) {n : Nat} {x : Core} (kCores : kp .cores = true := by assumption) : Ok kp zz (setCore n x
    s) := by
  unfold setCore
  repeat' first
    | with_reducible assumption | with_reducible apply ok_ite | split | (with_reducible intro u x hu)
    | (with_reducible intro u hu) | dsimp only
    | (fail_if_no_progress refine ok_mk ?_ (by and_intros <;> first | with_reducible exact Or.inl rfl | exact Or.inr (by assumption)))

theorem setDmc_ok (h : Ok kp zz s) {x : Dmc} (kDmc : kp .dmc = true := by assumption) : Ok kp zz (setDmc x s) := by
  unfold setDmc
  repeat' first
    | with_reducible assumption | with_reducible apply ok_ite | split | (with_reducible intro u x hu)
    | (with_reducible intro u hu) | dsimp only
    | (fail_if_no_progress refine ok_mk ?_ (by and_intros <;> first | with_reducible exact Or.inl rfl | exact Or.inr (by assumption)))

theorem setDmcState_ok (h : Ok kp zz s) {st : Nat} : Ok kp zz (setDmcState st s) := by
  unfold setDmcState
  repeat' first
    | with_reducible assumption | with_reducible apply ok_ite | with_reducible apply setFld_ok | split
    | (with_reducible intro u x hu) | (with_reducible intro u hu) | dsimp only
    | (fail_if_no_progress refine ok_mk ?_ (by and_intros <;> first | with_reducible exact Or.inl rfl | exact Or.inr (by assumption)))

theorem eccCorrected_ok (h : Ok kp zz s) {a : Nat} : Ok kp zz (eccCorrected a s) := by
  unfold eccCorrected
  repeat' first
    | with_reducible assumption | with_reducible apply ok_ite | with_reducible apply addSat_ok | with_reducible apply count_ok
    | with_reducible apply raise_ok | with_reducible apply wr_ok | split | (with_reducible intro u x hu)
    | (with_reducible intro u hu) | dsimp only
    | (fail_if_no_progress refine ok_mk ?_ (by and_intros <;> first | with_reducible exact Or.inl rfl | exact Or.inr (by assumption)))

theorem eccFailed_ok (h : Ok kp zz s) {a : Nat} : Ok kp zz (eccFailed a s) := by
  unfold eccFailed
  repeat' first
    | with_reducible assumption | with_reducible apply ok_ite | with_reducible apply addSat_ok | with_reducible apply count_ok
    | with_reducible apply raise_ok | with_reducible apply setFlag_ok | with_reducible apply wr_ok | split
    | (with_reducible intro u x hu) | (with_reducible intro u hu) | dsimp only
    | (fail_if_no_progress refine ok_mk ?_ (by and_intros <;> first | with_reducible exact Or.inl rfl | exact Or.inr (by assumption)))

theorem queueBack_ok (h : Ok kp zz s) {cls : Nat} {k : Nat} (kDmc : kp .dmc = true := by assumption) : Ok kp zz (queueBack cls
    k s) := by
  unfold queueBack
  try dsimp only
  repeat' first
    | with_reducible assumption | with_reducible apply ok_ite | with_reducible apply setDmc_ok | split
    | (with_reducible intro u x hu) | (with_reducible intro u hu) | dsimp only
    | (fail_if_no_progress refine ok_mk ?_ (by and_intros <;> first | with_reducible exact Or.inl rfl | exact Or.inr (by assumption)))

theorem keepCheck_ok (h : Ok kp zz s) {k : Nat} (kFresh : kp .fresh = true := by assumption) (kDmc : kp .dmc = true := by
    assumption) : Ok kp zz (keepCheck k s) := by
  unfold keepCheck
  try dsimp only
  repeat' first
    | with_reducible assumption | with_reducible apply ok_ite | with_reducible apply freshen_ok | with_reducible apply setDmc_ok
    | split | (with_reducible intro u x hu) | (with_reducible intro u hu) | dsimp only
    | (fail_if_no_progress refine ok_mk ?_ (by and_intros <;> first | with_reducible exact Or.inl rfl | exact Or.inr (by assumption)))

theorem readWord_ok (h : Ok kp zz s) {back : Option Nat} {k : Nat} {flips0 : List Nat} (kMem : kp .mem = true := by
    assumption) (kDmc : kp .dmc = true := by assumption) : Ok kp zz (readWord back k flips0 s) := by
  unfold readWord
  try dsimp only
  repeat' first
    | with_reducible assumption | with_reducible apply ok_ite | with_reducible apply eccCorrected_ok
    | with_reducible apply eccFailed_ok | with_reducible apply flipBit_ok | with_reducible apply queueBack_ok
    | with_reducible apply setLatent_ok | with_reducible apply ok_foldl_snd | with_reducible apply ok_foldl | split
    | (with_reducible intro u x hu) | (with_reducible intro u hu) | dsimp only
    | (fail_if_no_progress refine ok_mk ?_ (by and_intros <;> first | with_reducible exact Or.inl rfl | exact Or.inr (by assumption)))

theorem readChecked_ok (h : Ok kp zz s) {back : Option Nat} {k : Nat} {flips : List Nat} (kFresh : kp .fresh = true := by
    assumption) (kMem : kp .mem = true := by assumption) (kDmc : kp .dmc = true := by assumption) : Ok kp zz (readChecked back
    k flips s) := by
  unfold readChecked
  try dsimp only
  repeat' first
    | with_reducible assumption | with_reducible apply ok_ite | with_reducible apply keepCheck_ok
    | with_reducible apply readWord_ok | split | (with_reducible intro u x hu) | (with_reducible intro u hu) | dsimp only
    | (fail_if_no_progress refine ok_mk ?_ (by and_intros <;> first | with_reducible exact Or.inl rfl | exact Or.inr (by assumption)))

theorem noteLatency_ok (h : Ok kp zz s) {q : DramReq} : Ok kp zz (noteLatency q s) := by
  unfold noteLatency
  try dsimp only
  repeat' first
    | with_reducible assumption | with_reducible apply ok_ite | with_reducible apply setFld_ok | split
    | (with_reducible intro u x hu) | (with_reducible intro u hu) | dsimp only
    | (fail_if_no_progress refine ok_mk ?_ (by and_intros <;> first | with_reducible exact Or.inl rfl | exact Or.inr (by assumption)))

theorem writeWords_ok (h : Ok kp zz s) {q : DramReq} (kFresh : kp .fresh = true := by assumption) (kMem : kp .mem = true := by
    assumption) (kDmc : kp .dmc = true := by assumption) : Ok kp zz (writeWords q s) := by
  unfold writeWords
  try dsimp only
  repeat' first
    | with_reducible assumption | with_reducible apply ok_ite | with_reducible apply mput_ok | with_reducible apply mwrite_ok
    | with_reducible apply setLatent_ok | with_reducible apply ok_foldl_snd | with_reducible apply ok_foldl | split
    | (with_reducible intro u x hu) | (with_reducible intro u hu) | dsimp only
    | (fail_if_no_progress refine ok_mk ?_ (by and_intros <;> first | with_reducible exact Or.inl rfl | exact Or.inr (by assumption)))

theorem writeBackLine_ok (h : Ok kp zz s) {a : Nat} (kDmc : kp .dmc = true := by assumption) : Ok kp zz (writeBackLine a s) :=
    by
  unfold writeBackLine
  try dsimp only
  repeat' first
    | with_reducible assumption | with_reducible apply ok_ite | with_reducible apply setLatent_ok
    | with_reducible apply ok_foldl_snd | with_reducible apply ok_foldl | split | (with_reducible intro u x hu)
    | (with_reducible intro u hu) | dsimp only
    | (fail_if_no_progress refine ok_mk ?_ (by and_intros <;> first | with_reducible exact Or.inl rfl | exact Or.inr (by assumption)))

theorem enterLine_ok (h : Ok kp zz s) {n : Nat} {k : Nat} (kFresh : kp .fresh = true := by assumption) (kCores : kp .cores =
    true := by assumption) : Ok kp zz (enterLine n k s) := by
  unfold enterLine
  try dsimp only
  repeat' first
    | with_reducible assumption | with_reducible apply ok_ite | with_reducible apply freshen_ok
    | with_reducible apply setCore_ok | split | (with_reducible intro u x hu) | (with_reducible intro u hu) | dsimp only
    | (fail_if_no_progress refine ok_mk ?_ (by and_intros <;> first | with_reducible exact Or.inl rfl | exact Or.inr (by assumption)))

theorem perform_ok (h : Ok kp zz s) {q : DramReq} (kFresh : kp .fresh = true := by assumption) (kMem : kp .mem = true := by
    assumption) (kCores : kp .cores = true := by assumption) (kDmc : kp .dmc = true := by assumption) : Ok kp zz (perform q s)
    := by
  unfold perform
  try dsimp only
  repeat' first
    | with_reducible assumption | with_reducible apply ok_ite | with_reducible apply enterLine_ok
    | with_reducible apply noteLatency_ok | with_reducible apply readChecked_ok | with_reducible apply setDmc_ok
    | with_reducible apply writeBackLine_ok | with_reducible apply writeWords_ok | with_reducible apply ok_foldl_snd
    | with_reducible apply ok_foldl | split | (with_reducible intro u x hu) | (with_reducible intro u hu) | dsimp only
    | (fail_if_no_progress refine ok_mk ?_ (by and_intros <;> first | with_reducible exact Or.inl rfl | exact Or.inr (by assumption)))

theorem takeTurn_ok (h : Ok kp zz s) {archive : Bool} (kDmc : kp .dmc = true := by assumption) : Ok kp zz (takeTurn archive s)
    := by
  unfold takeTurn
  try dsimp only
  repeat' first
    | with_reducible assumption | with_reducible apply ok_ite | with_reducible apply setDmc_ok | split
    | (with_reducible intro u x hu) | (with_reducible intro u hu) | dsimp only
    | (fail_if_no_progress refine ok_mk ?_ (by and_intros <;> first | with_reducible exact Or.inl rfl | exact Or.inr (by assumption)))

theorem peakHeld_ok (h : Ok kp zz s) {n : Nat} : Ok kp zz (peakHeld n s) := by
  unfold peakHeld
  repeat' first
    | with_reducible assumption | with_reducible apply ok_ite | with_reducible apply setFld_ok | split
    | (with_reducible intro u x hu) | (with_reducible intro u hu) | dsimp only
    | (fail_if_no_progress refine ok_mk ?_ (by and_intros <;> first | with_reducible exact Or.inl rfl | exact Or.inr (by assumption)))

theorem showHeld_ok (h : Ok kp zz s) : Ok kp zz (showHeld s) := by
  unfold showHeld
  try dsimp only
  repeat' first
    | with_reducible assumption | with_reducible apply ok_ite | with_reducible apply peakHeld_ok
    | with_reducible apply setFld_ok | split | (with_reducible intro u x hu) | (with_reducible intro u hu) | dsimp only
    | (fail_if_no_progress refine ok_mk ?_ (by and_intros <;> first | with_reducible exact Or.inl rfl | exact Or.inr (by assumption)))

theorem refill_ok (h : Ok kp zz s) (kDmc : kp .dmc = true := by assumption) : Ok kp zz (refill s) := by
  unfold refill
  try dsimp only
  repeat' first
    | with_reducible assumption | with_reducible apply ok_ite | with_reducible apply setDmc_ok
    | with_reducible apply showHeld_ok | with_reducible apply ok_foldl_snd | with_reducible apply ok_foldl | split
    | (with_reducible intro u x hu) | (with_reducible intro u hu) | dsimp only
    | (fail_if_no_progress refine ok_mk ?_ (by and_intros <;> first | with_reducible exact Or.inl rfl | exact Or.inr (by assumption)))

theorem serveSome_ok {k : Nat} (h : Ok kp zz s) (kFresh : kp .fresh = true := by assumption) (kMem : kp .mem = true := by assumption) (kCores : kp .cores = true := by assumption) (kDmc : kp .dmc = true := by assumption) : Ok kp zz (serveSome k s) := by
  induction k generalizing s with
  | zero => exact h
  | succ k ih =>
    unfold serveSome
    dsimp only
    repeat' first
      | with_reducible assumption | with_reducible apply ih | with_reducible apply refill_ok | with_reducible apply perform_ok
      | with_reducible apply takeTurn_ok | with_reducible apply setDmc_ok | split

theorem dmcServe_ok (h : Ok kp zz s) (kFresh : kp .fresh = true := by assumption) (kMem : kp .mem = true := by assumption)
    (kCores : kp .cores = true := by assumption) (kDmc : kp .dmc = true := by assumption) : Ok kp zz (dmcServe s) := by
  unfold dmcServe
  repeat' first
    | with_reducible assumption | with_reducible apply ok_ite | with_reducible apply serveSome_ok
    | with_reducible apply showHeld_ok | split | (with_reducible intro u x hu) | (with_reducible intro u hu) | dsimp only
    | (fail_if_no_progress refine ok_mk ?_ (by and_intros <;> first | with_reducible exact Or.inl rfl | exact Or.inr (by assumption)))

theorem dmcAsk_ok (h : Ok kp zz s) {q : DramReq} (kDmc : kp .dmc = true := by assumption) : Ok kp zz (dmcAsk q s) := by
  unfold dmcAsk
  repeat' first
    | with_reducible assumption | with_reducible apply ok_ite | with_reducible apply refill_ok | with_reducible apply setDmc_ok
    | split | (with_reducible intro u x hu) | (with_reducible intro u hu) | dsimp only
    | (fail_if_no_progress refine ok_mk ?_ (by and_intros <;> first | with_reducible exact Or.inl rfl | exact Or.inr (by assumption)))

theorem leaveSelfRefresh_ok (h : Ok kp zz s) (kDmc : kp .dmc = true := by assumption) : Ok kp zz (leaveSelfRefresh s) := by
  unfold leaveSelfRefresh
  repeat' first
    | with_reducible assumption | with_reducible apply ok_ite | with_reducible apply setDmc_ok
    | with_reducible apply setDmcState_ok | split | (with_reducible intro u x hu) | (with_reducible intro u hu) | dsimp only
    | (fail_if_no_progress refine ok_mk ?_ (by and_intros <;> first | with_reducible exact Or.inl rfl | exact Or.inr (by assumption)))

theorem dmcRequest_ok (h : Ok kp zz s) {q0 : DramReq} {issued : Bool} (kFresh : kp .fresh = true := by assumption) (kMem : kp
    .mem = true := by assumption) (kCores : kp .cores = true := by assumption) (kDmc : kp .dmc = true := by assumption) : Ok
    kp zz (dmcRequest q0 issued s) := by
  unfold dmcRequest
  try dsimp only
  repeat' first
    | with_reducible assumption | with_reducible apply ok_ite | with_reducible apply addSat_ok | with_reducible apply dmcAsk_ok
    | with_reducible apply dmcServe_ok | with_reducible apply leaveSelfRefresh_ok | with_reducible apply peakHeld_ok
    | with_reducible apply perform_ok | with_reducible apply setDmc_ok | split | (with_reducible intro u x hu)
    | (with_reducible intro u hu) | dsimp only
    | (fail_if_no_progress refine ok_mk ?_ (by and_intros <;> first | with_reducible exact Or.inl rfl | exact Or.inr (by assumption)))

theorem dmcOwn_ok (h : Ok kp zz s) {q : DramReq} (kFresh : kp .fresh = true := by assumption) (kMem : kp .mem = true := by
    assumption) (kCores : kp .cores = true := by assumption) (kDmc : kp .dmc = true := by assumption) : Ok kp zz (dmcOwn q s)
    := by
  unfold dmcOwn
  repeat' first
    | with_reducible assumption | with_reducible apply ok_ite | with_reducible apply dmcRequest_ok
    | with_reducible apply freshen_ok | split | (with_reducible intro u x hu) | (with_reducible intro u hu) | dsimp only
    | (fail_if_no_progress refine ok_mk ?_ (by and_intros <;> first | with_reducible exact Or.inl rfl | exact Or.inr (by assumption)))

theorem memWrite_ok (h : Ok kp zz s) {served : Bool} {a : Nat} {bs : List Byte} (kFresh : kp .fresh = true := by assumption)
    (kMem : kp .mem = true := by assumption) (kCores : kp .cores = true := by assumption) (kDmc : kp .dmc = true := by
    assumption) : Ok kp zz (memWrite served a bs s) := by
  unfold memWrite
  repeat' first
    | with_reducible assumption | with_reducible apply ok_ite | with_reducible apply dmcOwn_ok | with_reducible apply mwrite_ok
    | with_reducible apply raise_ok | split | (with_reducible intro u x hu) | (with_reducible intro u hu) | dsimp only
    | (fail_if_no_progress refine ok_mk ?_ (by and_intros <;> first | with_reducible exact Or.inl rfl | exact Or.inr (by assumption)))

theorem writePart_ok (h : Ok kp zz s) {cls : Nat} {q : Nat × List Byte} (kFresh : kp .fresh = true := by assumption) (kMem :
    kp .mem = true := by assumption) (kCores : kp .cores = true := by assumption) (kDmc : kp .dmc = true := by assumption) :
    Ok kp zz (writePart cls s q) := by
  unfold writePart
  repeat' first
    | with_reducible assumption | with_reducible apply ok_ite2 | with_reducible assumption | with_reducible apply ok_ite
    | with_reducible apply dmcOwn_ok | with_reducible apply memWrite_ok | with_reducible apply raise_ok | split
    | (with_reducible intro u x hu) | (with_reducible intro u hu) | dsimp only
    | (fail_if_no_progress refine ok_mk ?_ (by and_intros <;> first | with_reducible exact Or.inl rfl | exact Or.inr (by assumption)))

theorem dmaWrite_ok (h : Ok kp zz s) {cls : Nat} {a : Nat} {bs : List Byte} (kFresh : kp .fresh = true := by assumption) (kMem
    : kp .mem = true := by assumption) (kCores : kp .cores = true := by assumption) (kDmc : kp .dmc = true := by assumption) :
    Ok kp zz (dmaWrite cls a bs s) := by
  unfold dmaWrite
  repeat' first
    | with_reducible assumption | with_reducible apply ok_ite | with_reducible apply writePart_ok
    | with_reducible apply ok_foldl_snd | with_reducible apply ok_foldl | split | (with_reducible intro u x hu)
    | (with_reducible intro u hu) | dsimp only
    | (fail_if_no_progress refine ok_mk ?_ (by and_intros <;> first | with_reducible exact Or.inl rfl | exact Or.inr (by assumption)))

theorem readPart_ok {cls : Nat} {r : List Byte × State} {q : Nat × List Byte} (h : Ok kp zz r.2) (kFresh : kp .fresh = true := by assumption) (kMem : kp .mem = true := by assumption) (kCores : kp .cores = true := by assumption) (kDmc : kp .dmc = true := by assumption) : Ok kp zz (readPart cls r q).2 := by
  unfold readPart
  dsimp only
  repeat' first
    | with_reducible assumption | with_reducible apply ok_ite2 | with_reducible apply ok_ite | with_reducible apply dmcOwn_ok
    | with_reducible apply raise_ok | split

theorem engineRead_ok (h : Ok kp zz s) {cls : Nat} {k : Nat} {a : Nat} (kFresh : kp .fresh = true := by assumption) (kMem : kp
    .mem = true := by assumption) (kCores : kp .cores = true := by assumption) (kDmc : kp .dmc = true := by assumption) : Ok
    kp zz (engineRead cls k a s).2 := by
  unfold engineRead
  repeat' first
    | with_reducible assumption | with_reducible apply ok_ite2 | with_reducible assumption | with_reducible apply ok_ite
    | with_reducible apply readPart_ok | with_reducible apply ok_foldl_snd | with_reducible apply ok_foldl | split
    | (with_reducible intro u x hu) | (with_reducible intro u hu) | dsimp only
    | (fail_if_no_progress refine ok_mk ?_ (by and_intros <;> first | with_reducible exact Or.inl rfl | exact Or.inr (by assumption)))

theorem awaitRead_ok (h : Ok kp zz s) {cls : Nat} {a : Nat} (kFresh : kp .fresh = true := by assumption) (kMem : kp .mem =
    true := by assumption) (kCores : kp .cores = true := by assumption) (kDmc : kp .dmc = true := by assumption) : Ok kp zz
    (awaitRead cls a s) := by
  unfold awaitRead
  try dsimp only
  repeat' first
    | with_reducible assumption | with_reducible apply ok_ite | with_reducible apply dmcOwn_ok | split
    | (with_reducible intro u x hu) | (with_reducible intro u hu) | dsimp only
    | (fail_if_no_progress refine ok_mk ?_ (by and_intros <;> first | with_reducible exact Or.inl rfl | exact Or.inr (by assumption)))

theorem setFill_ok (h : Ok kp zz s) {n : Nat} (kRed : kp .red = true := by assumption) : Ok kp zz (setFill n s) := by
  unfold setFill
  try dsimp only
  repeat' first
    | with_reducible assumption | with_reducible apply ok_ite | with_reducible apply setFld_ok | split
    | (with_reducible intro u x hu) | (with_reducible intro u hu) | dsimp only
    | (fail_if_no_progress refine ok_mk ?_ (by and_intros <;> first | with_reducible exact Or.inl rfl | exact Or.inr (by assumption)))

theorem drainFill_ok (h : Ok kp zz s) (kFresh : kp .fresh = true := by assumption) (kRed : kp .red = true := by assumption) :
    Ok kp zz (drainFill s) := by
  unfold drainFill
  repeat' first
    | with_reducible assumption | with_reducible apply ok_ite | with_reducible apply freshen_ok
    | with_reducible apply setFill_ok | split | (with_reducible intro u x hu) | (with_reducible intro u hu) | dsimp only
    | (fail_if_no_progress refine ok_mk ?_ (by and_intros <;> first | with_reducible exact Or.inl rfl | exact Or.inr (by assumption)))

theorem captureWrite_ok (h : Ok kp zz s) {a : Nat} {bs : List Byte} (kFresh : kp .fresh = true := by assumption) (kMem : kp
    .mem = true := by assumption) (kRed : kp .red = true := by assumption) (kCores : kp .cores = true := by assumption) (kDmc
    : kp .dmc = true := by assumption) : Ok kp zz (captureWrite a bs s) := by
  unfold captureWrite
  try dsimp only
  repeat' first
    | with_reducible assumption | with_reducible apply ok_ite | with_reducible apply dmaWrite_ok
    | with_reducible apply drainFill_ok | with_reducible apply setFill_ok | split | (with_reducible intro u x hu)
    | (with_reducible intro u hu) | dsimp only
    | (fail_if_no_progress refine ok_mk ?_ (by and_intros <;> first | with_reducible exact Or.inl rfl | exact Or.inr (by assumption)))

theorem captureStore_ok (h : Ok kp zz s) {k : Nat} {a : Nat} {v : Nat} (kFresh : kp .fresh = true := by assumption) (kMem : kp
    .mem = true := by assumption) (kRed : kp .red = true := by assumption) (kCores : kp .cores = true := by assumption) (kDmc
    : kp .dmc = true := by assumption) : Ok kp zz (captureStore s k a v) := by
  unfold captureStore
  repeat' first
    | with_reducible assumption | with_reducible apply ok_ite | with_reducible apply captureWrite_ok | split
    | (with_reducible intro u x hu) | (with_reducible intro u hu) | dsimp only
    | (fail_if_no_progress refine ok_mk ?_ (by and_intros <;> first | with_reducible exact Or.inl rfl | exact Or.inr (by assumption)))

end Sys2Proof.Machine
end

