-- ==== Sys2Proof/Laws/KeepTbs.lean ====
section
/-!
SUPPORT. What the operations of Machine/Tbs.lean keep.
-/
namespace Sys2Proof.Machine
open Sys2Proof

set_option Elab.async false
set_option linter.unreachableTactic false
set_option linter.unusedTactic false
set_option linter.unusedVariables false

variable {kp : Comp → Bool} {zz s : State}

theorem setPacer_ok (h : Ok kp zz s) {p : Pacer} (kTbs : kp .tbs = true := by assumption) : Ok kp zz (setPacer p s) := by
  unfold setPacer
  repeat' first
    | with_reducible assumption
    | (fail_if_no_progress refine ok_mk ?_ (by and_intros <;> first | with_reducible exact Or.inl rfl | exact Or.inr (by assumption)))

theorem setSource_ok (h : Ok kp zz s) {sec : Bool} {x : Source} (kTbs : kp .tbs = true := by assumption) : Ok kp zz (setSource
    sec x s) := by
  unfold setSource
  repeat' first
    | with_reducible assumption | with_reducible apply ok_ite | with_reducible apply setPacer_ok | split

theorem setSlew_ok (h : Ok kp zz s) {x : Int} (kTbs : kp .tbs = true := by assumption) : Ok kp zz (setSlew x s) := by
  unfold setSlew
  repeat' first
    | with_reducible assumption | with_reducible apply setFlag_ok | with_reducible apply setInt_ok
    | with_reducible apply setPacer_ok

theorem judgeAlarm_ok (h : Ok kp zz s) : Ok kp zz (judgeAlarm s) := by
  unfold judgeAlarm
  repeat' first
    | with_reducible assumption | with_reducible apply raiseIf_ok | with_reducible apply setFlag_ok

theorem enterPacer_ok (h : Ok kp zz s) {st : Nat} (kTbs : kp .tbs = true := by assumption) : Ok kp zz (enterPacer st s) := by
  unfold enterPacer
  repeat' first
    | with_reducible assumption | with_reducible apply setFld_ok | with_reducible apply setPacer_ok

theorem clearSlew_ok (h : Ok kp zz s) (kTbs : kp .tbs = true := by assumption) : Ok kp zz (clearSlew s) := by
  unfold clearSlew
  repeat' first
    | with_reducible assumption | with_reducible apply judgeAlarm_ok | with_reducible apply setSlew_ok

theorem showActive_ok (h : Ok kp zz s) : Ok kp zz (showActive s) := by
  unfold showActive
  repeat' first
    | with_reducible assumption | with_reducible apply setFld_ok

theorem trackAfresh_ok (h : Ok kp zz s) {sec : Bool} (kTbs : kp .tbs = true := by assumption) : Ok kp zz (trackAfresh sec s)
    := by
  unfold trackAfresh
  repeat' first
    | with_reducible assumption | with_reducible apply setFlag_ok | with_reducible apply setSource_ok

theorem pacerStart_ok (h : Ok kp zz s) (kTbs : kp .tbs = true := by assumption) : Ok kp zz (pacerStart s) := by
  unfold pacerStart
  try dsimp only
  repeat' first
    | with_reducible assumption | with_reducible apply ok_ite | with_reducible apply enterPacer_ok
    | with_reducible apply raiseIf_ok | with_reducible apply setPacer_ok | with_reducible apply showActive_ok | split
    | (with_reducible intro u x hu) | (with_reducible intro u hu) | dsimp only
    | (fail_if_no_progress refine ok_mk ?_ (by and_intros <;> first | with_reducible exact Or.inl rfl | exact Or.inr (by assumption)))

theorem pacerStop_ok (h : Ok kp zz s) (kTbs : kp .tbs = true := by assumption) : Ok kp zz (pacerStop s) := by
  unfold pacerStop
  repeat' first
    | with_reducible assumption | with_reducible apply clearSlew_ok | with_reducible apply enterPacer_ok
    | with_reducible apply setPacer_ok | with_reducible apply showActive_ok

theorem pacerCtrlWritten_ok (h : Ok kp zz s) {old : Word} (kTbs : kp .tbs = true := by assumption) : Ok kp zz
    (pacerCtrlWritten old s) := by
  unfold pacerCtrlWritten
  try dsimp only
  repeat' first
    | with_reducible assumption | with_reducible apply ok_ite | with_reducible apply clearSlew_ok
    | with_reducible apply enterPacer_ok | with_reducible apply pacerStart_ok | with_reducible apply pacerStop_ok
    | with_reducible apply setPacer_ok | with_reducible apply showActive_ok | with_reducible apply trackAfresh_ok | split
    | (with_reducible intro u x hu) | (with_reducible intro u hu) | dsimp only
    | (fail_if_no_progress refine ok_mk ?_ (by and_intros <;> first | with_reducible exact Or.inl rfl | exact Or.inr (by assumption)))

theorem execPacerEnable_ok (h : Ok kp zz s) (kTbs : kp .tbs = true := by assumption) : OkO kp zz (execPacerEnable s) := by
  unfold execPacerEnable
  repeat' first
    | with_reducible assumption | with_reducible apply done_ok | with_reducible apply pacerCtrlWritten_ok
    | with_reducible apply setFlag_ok

theorem servo_ok (h : Ok kp zz s) (kFresh : kp .fresh = true := by assumption) : Ok kp zz (servo s) := by
  unfold servo
  repeat' first
    | with_reducible assumption | with_reducible apply freshen_ok | with_reducible apply setInt_ok

theorem acquireWith_ok (h : Ok kp zz s) {offset : Int} (kFresh : kp .fresh = true := by assumption) (kTbs : kp .tbs = true :=
    by assumption) : Ok kp zz (acquireWith offset s) := by
  unfold acquireWith
  repeat' first
    | with_reducible assumption | with_reducible apply ok_ite | with_reducible apply enterPacer_ok
    | with_reducible apply judgeAlarm_ok | with_reducible apply raise_ok | with_reducible apply servo_ok
    | with_reducible apply setPacer_ok | with_reducible apply setSlew_ok | split

theorem steer_ok (h : Ok kp zz s) {sec : Bool} {offset : Int} (kFresh : kp .fresh = true := by assumption) (kTbs : kp .tbs =
    true := by assumption) : Ok kp zz (steer sec offset s) := by
  unfold steer
  repeat' first
    | with_reducible assumption | with_reducible apply ok_ite | with_reducible apply acquireWith_ok
    | with_reducible apply judgeAlarm_ok | with_reducible apply servo_ok | with_reducible apply setSlew_ok | split

theorem becameValid_ok (h : Ok kp zz s) {sec : Bool} (kTbs : kp .tbs = true := by assumption) : Ok kp zz (becameValid sec s)
    := by
  unfold becameValid
  repeat' first
    | with_reducible assumption | with_reducible apply ok_ite | with_reducible apply setPacer_ok | split

theorem measure_ok (h : Ok kp zz s) {sec : Bool} {offset : Int} (kFresh : kp .fresh = true := by assumption) (kTbs : kp .tbs =
    true := by assumption) : Ok kp zz (measure sec offset s) := by
  unfold measure
  repeat' first
    | with_reducible assumption | with_reducible apply ok_ite | with_reducible apply becameValid_ok
    | with_reducible apply setFlag_ok | with_reducible apply setInt_ok | with_reducible apply setSource_ok
    | with_reducible apply steer_ok | split

theorem measureFrom_ok (h : Ok kp zz s) {code : Nat} {offset : Int} (kFresh : kp .fresh = true := by assumption) (kTbs : kp
    .tbs = true := by assumption) : Ok kp zz (measureFrom code offset s) := by
  unfold measureFrom
  repeat' first
    | with_reducible assumption | with_reducible apply ok_ite | with_reducible apply measure_ok | split

theorem execPacerSourceMeasurement_ok (h : Ok kp zz s) {sec : Bool} {offset : Int} (kFresh : kp .fresh = true := by
    assumption) (kTbs : kp .tbs = true := by assumption) : OkO kp zz (execPacerSourceMeasurement sec offset s) := by
  unfold execPacerSourceMeasurement
  try dsimp only
  repeat' first
    | with_reducible assumption | with_reducible apply okO_ite | with_reducible apply okO_next | with_reducible apply okO_fault
    | with_reducible apply okO_refused | with_reducible apply ok_ite | with_reducible apply done_ok
    | with_reducible apply measure_ok | with_reducible apply whileAwake_ok | split | (with_reducible intro u x hu)
    | (with_reducible intro u hu) | dsimp only
    | (fail_if_no_progress refine ok_mk ?_ (by and_intros <;> first | with_reducible exact Or.inl rfl | exact Or.inr (by assumption)))

theorem activeLost_ok (h : Ok kp zz s) (kTbs : kp .tbs = true := by assumption) : Ok kp zz (activeLost s) := by
  unfold activeLost
  repeat' first
    | with_reducible assumption | with_reducible apply ok_ite | with_reducible apply enterPacer_ok
    | with_reducible apply raise_ok | with_reducible apply setPacer_ok | split

theorem execPacerSrcLost_ok (h : Ok kp zz s) {sec : Bool} (kTbs : kp .tbs = true := by assumption) : OkO kp zz
    (execPacerSrcLost sec s) := by
  unfold execPacerSrcLost
  repeat' first
    | with_reducible assumption | with_reducible apply okO_ite | with_reducible apply ok_ite
    | with_reducible apply activeLost_ok | with_reducible apply done_ok | with_reducible apply raise_ok
    | with_reducible apply setFlag_ok | with_reducible apply setPacer_ok | with_reducible apply setSource_ok | split

theorem switchTo_ok (h : Ok kp zz s) {sec : Bool} (kTbs : kp .tbs = true := by assumption) : Ok kp zz (switchTo sec s) := by
  unfold switchTo
  repeat' first
    | with_reducible assumption | with_reducible apply ok_ite | with_reducible apply enterPacer_ok
    | with_reducible apply judgeAlarm_ok | with_reducible apply raiseIf_ok | with_reducible apply setPacer_ok
    | with_reducible apply setSlew_ok | with_reducible apply showActive_ok | split

theorem execPacerSrcSwitch_ok (h : Ok kp zz s) (kAccepted : kp .accepted = true := by assumption) (kTbs : kp .tbs = true := by
    assumption) : OkO kp zz (execPacerSrcSwitch s) := by
  unfold execPacerSrcSwitch
  repeat' first
    | with_reducible assumption | with_reducible apply complete_ok | with_reducible apply done_ok
    | with_reducible apply switchTo_ok | split

theorem execSlewDone_ok (h : Ok kp zz s) : OkO kp zz (execSlewDone s) := by
  unfold execSlewDone
  repeat' first
    | with_reducible assumption | with_reducible apply okO_ite | with_reducible apply ok_ite | with_reducible apply done_ok
    | with_reducible apply setFlag_ok | split

theorem execSetTime_ok (h : Ok kp zz s) (kAccepted : kp .accepted = true := by assumption) : OkO kp zz (execSetTime s) := by
  unfold execSetTime
  repeat' first
    | with_reducible assumption | with_reducible apply okO_ite | with_reducible apply ok_ite | with_reducible apply accept_ok
    | with_reducible apply done_ok | with_reducible apply refuse_ok | with_reducible apply reject_ok | split

theorem execPacerAcquire_ok (h : Ok kp zz s) (kAccepted : kp .accepted = true := by assumption) (kTbs : kp .tbs = true := by
    assumption) : OkO kp zz (execPacerAcquire s) := by
  unfold execPacerAcquire
  repeat' first
    | with_reducible assumption | with_reducible apply okO_ite | with_reducible apply ok_ite | with_reducible apply clearSlew_ok
    | with_reducible apply complete_ok | with_reducible apply done_ok | with_reducible apply enterPacer_ok
    | with_reducible apply refuse_ok | with_reducible apply reject_ok | split

theorem execPacerSwitch_ok (h : Ok kp zz s) (kAccepted : kp .accepted = true := by assumption) : OkO kp zz (execPacerSwitch s)
    := by
  unfold execPacerSwitch
  repeat' first
    | with_reducible assumption | with_reducible apply okO_ite | with_reducible apply ok_ite | with_reducible apply accept_ok
    | with_reducible apply done_ok | with_reducible apply refuse_ok | with_reducible apply reject_ok | split

theorem setTally_ok (h : Ok kp zz s) {n : Nat} {x : TallyRun} (kTbs : kp .tbs = true := by assumption) : Ok kp zz (setTally n
    x s) := by
  unfold setTally
  repeat' first
    | with_reducible assumption
    | (fail_if_no_progress refine ok_mk ?_ (by and_intros <;> first | with_reducible exact Or.inl rfl | exact Or.inr (by assumption)))

theorem markStep_ok (h : Ok kp zz s) {n : Nat} {p : Int} (kTbs : kp .tbs = true := by assumption) (kTwin : kp .twin = true :=
    by assumption) : Ok kp zz (markStep n p s) := by
  unfold markStep
  repeat' first
    | with_reducible assumption
    | (fail_if_no_progress refine ok_mk ?_ (by and_intros <;> first | with_reducible exact Or.inl rfl | exact Or.inr (by assumption)))

theorem noteTallies_ok (h : Ok kp zz s) (kAcq : kp .acq = true := by assumption) : Ok kp zz (noteTallies s) := by
  unfold noteTallies
  try dsimp only
  repeat' first
    | with_reducible assumption | with_reducible apply ok_ite2 | with_reducible assumption | with_reducible apply ok_ite | split
    | (with_reducible intro u x hu) | (with_reducible intro u hu) | dsimp only
    | (fail_if_no_progress refine ok_mk ?_ (by and_intros <;> first | with_reducible exact Or.inl rfl | exact Or.inr (by assumption)))

theorem stepTallyTo_ok (h : Ok kp zz s) {n : Nat} {p : Int} {t : Int} (kTbs : kp .tbs = true := by assumption) (kAcq : kp .acq
    = true := by assumption) (kTwin : kp .twin = true := by assumption) : Ok kp zz (stepTallyTo n p t s) := by
  unfold stepTallyTo
  try dsimp only
  repeat' first
    | with_reducible assumption | with_reducible apply ok_ite2 | with_reducible assumption | with_reducible apply ok_ite
    | with_reducible apply markStep_ok | with_reducible apply noteTallies_ok | with_reducible apply setFlag_ok
    | with_reducible apply setTally_ok | split | (with_reducible intro u x hu) | (with_reducible intro u hu) | dsimp only
    | (fail_if_no_progress refine ok_mk ?_ (by and_intros <;> first | with_reducible exact Or.inl rfl | exact Or.inr (by assumption)))

theorem tallyStart_ok (h : Ok kp zz s) {n : Nat} (kTbs : kp .tbs = true := by assumption) : Ok kp zz (tallyStart n s) := by
  unfold tallyStart
  repeat' first
    | with_reducible assumption | with_reducible apply setFld_ok | with_reducible apply setTally_ok

theorem tallyStop_ok (h : Ok kp zz s) {n : Nat} {q : Int} (kTbs : kp .tbs = true := by assumption) : Ok kp zz (tallyStop n q
    s) := by
  unfold tallyStop
  repeat' first
    | with_reducible assumption | with_reducible apply setFld_ok | with_reducible apply setTally_ok

theorem tallyCtrlWrite_ok (h : Ok kp zz s) {n : Nat} {w : Word} (kTbs : kp .tbs = true := by assumption) : Ok kp zz
    (tallyCtrlWrite n w s) := by
  unfold tallyCtrlWrite
  try dsimp only
  repeat' first
    | with_reducible assumption | with_reducible apply ok_ite2 | with_reducible assumption | with_reducible apply ok_ite
    | with_reducible apply hold_ok | with_reducible apply setFld_ok | with_reducible apply tallyStart_ok
    | with_reducible apply tallyStop_ok | with_reducible apply wr_ok | split | (with_reducible intro u x hu)
    | (with_reducible intro u hu) | dsimp only
    | (fail_if_no_progress refine ok_mk ?_ (by and_intros <;> first | with_reducible exact Or.inl rfl | exact Or.inr (by assumption)))

theorem execTallyEnable_ok (h : Ok kp zz s) {n : Fin 4} {en : Bool} (kTbs : kp .tbs = true := by assumption) : OkO kp zz
    (execTallyEnable n en s) := by
  unfold execTallyEnable
  repeat' first
    | with_reducible assumption | with_reducible apply done_ok | with_reducible apply tallyCtrlWrite_ok

theorem countEdge_ok (h : Ok kp zz s) {n : Nat} {t : Int} {fwd : Bool} (kTbs : kp .tbs = true := by assumption) : Ok kp zz
    (countEdge n t fwd s) := by
  unfold countEdge
  repeat' first
    | with_reducible assumption | with_reducible apply setTally_ok

theorem setEncIn_ok (h : Ok kp zz s) {k : Nat} {f : Nat} {x : EncIn} (kTbs : kp .tbs = true := by assumption) : Ok kp zz
    (setEncIn k f x s) := by
  unfold setEncIn
  try dsimp only
  repeat' first
    | with_reducible assumption | with_reducible apply ok_ite | split | (with_reducible intro u x hu)
    | (with_reducible intro u hu) | dsimp only
    | (fail_if_no_progress refine ok_mk ?_ (by and_intros <;> first | with_reducible exact Or.inl rfl | exact Or.inr (by assumption)))

theorem tallyEdge_ok (h : Ok kp zz s) {k : Nat} {f : Nat} {t : Int} {a : Bool} {b : Bool} {a' : Bool} {b' : Bool} {n : Nat}
    (kTbs : kp .tbs = true := by assumption) : Ok kp zz (tallyEdge k f t a b a' b' s n) := by
  unfold tallyEdge
  repeat' first
    | with_reducible assumption | with_reducible apply ok_ite | with_reducible apply addSat_ok
    | with_reducible apply countEdge_ok | split

theorem passLevels_ok (h : Ok kp zz s) {k : Nat} {f : Nat} {at1 : Nat} {a : Bool} {b : Bool} (kTbs : kp .tbs = true := by
    assumption) : Ok kp zz (passLevels k f at1 a b s) := by
  unfold passLevels
  try dsimp only
  repeat' first
    | with_reducible assumption | with_reducible apply ok_ite | with_reducible apply setEncIn_ok
    | with_reducible apply tallyEdge_ok | with_reducible apply ok_foldl_snd | with_reducible apply ok_foldl | split
    | (with_reducible intro u x hu) | (with_reducible intro u hu) | dsimp only
    | (fail_if_no_progress refine ok_mk ?_ (by and_intros <;> first | with_reducible exact Or.inl rfl | exact Or.inr (by assumption)))

theorem filterPass_ok (h : Ok kp zz s) {k : Nat} {f : Nat} (kTbs : kp .tbs = true := by assumption) : Ok kp zz (filterPass k f
    s) := by
  unfold filterPass
  try dsimp only
  repeat' first
    | with_reducible assumption | with_reducible apply ok_ite | with_reducible apply passLevels_ok | split
    | (with_reducible intro u x hu) | (with_reducible intro u hu) | dsimp only
    | (fail_if_no_progress refine ok_mk ?_ (by and_intros <;> first | with_reducible exact Or.inl rfl | exact Or.inr (by assumption)))

theorem filtersPass_ok (h : Ok kp zz s) (kTbs : kp .tbs = true := by assumption) : Ok kp zz (filtersPass s) := by
  unfold filtersPass
  try dsimp only
  repeat' first
    | with_reducible assumption | with_reducible apply ok_ite | with_reducible apply filterPass_ok
    | with_reducible apply ok_foldl_snd | with_reducible apply ok_foldl | split | (with_reducible intro u x hu)
    | (with_reducible intro u hu) | dsimp only
    | (fail_if_no_progress refine ok_mk ?_ (by and_intros <;> first | with_reducible exact Or.inl rfl | exact Or.inr (by assumption)))

theorem pinLevels_ok (h : Ok kp zz s) {k : Nat} {a : Bool} {b : Bool} {f : Nat} (kTbs : kp .tbs = true := by assumption) : Ok
    kp zz (pinLevels k a b s f) := by
  unfold pinLevels
  try dsimp only
  repeat' first
    | with_reducible assumption | with_reducible apply ok_ite | with_reducible apply filterPass_ok
    | with_reducible apply setEncIn_ok | split | (with_reducible intro u x hu) | (with_reducible intro u hu) | dsimp only
    | (fail_if_no_progress refine ok_mk ?_ (by and_intros <;> first | with_reducible exact Or.inl rfl | exact Or.inr (by assumption)))

theorem execEncoderEdge_ok (h : Ok kp zz s) {k : Fin 4} {ofs : Nat} {a : Bool} {b : Bool} (kTbs : kp .tbs = true := by
    assumption) : OkO kp zz (execEncoderEdge k ofs a b s) := by
  unfold execEncoderEdge
  try dsimp only
  repeat' first
    | with_reducible assumption | with_reducible apply okO_ite | with_reducible apply okO_next | with_reducible apply okO_fault
    | with_reducible apply okO_refused | with_reducible apply ok_ite | with_reducible apply atOfs_ok
    | with_reducible apply done_ok | with_reducible apply filtersPass_ok | with_reducible apply pinLevels_ok
    | with_reducible apply whileAwake_ok | with_reducible apply ok_foldl_snd | with_reducible apply ok_foldl | split
    | (with_reducible intro u x hu) | (with_reducible intro u hu) | dsimp only
    | (fail_if_no_progress refine ok_mk ?_ (by and_intros <;> first | with_reducible exact Or.inl rfl | exact Or.inr (by assumption)))

theorem tallyZ1_ok (h : Ok kp zz s) {k : Nat} {f : Nat} {n : Nat} (kTbs : kp .tbs = true := by assumption) : Ok kp zz (tallyZ1
    k f s n) := by
  unfold tallyZ1
  repeat' first
    | with_reducible assumption | with_reducible apply ok_ite | with_reducible apply raise_ok | with_reducible apply setFlag_ok
    | with_reducible apply setFld_ok | with_reducible apply setTally_ok | with_reducible apply wrPair_ok | split

theorem execTallyZ_ok (h : Ok kp zz s) {p : EncPins} {ofs : Nat} (kTbs : kp .tbs = true := by assumption) : OkO kp zz
    (execTallyZ p ofs s) := by
  unfold execTallyZ
  try dsimp only
  repeat' first
    | with_reducible assumption | with_reducible apply okO_ite | with_reducible apply okO_next | with_reducible apply okO_fault
    | with_reducible apply okO_refused | with_reducible apply ok_ite | with_reducible apply atOfs_ok
    | with_reducible apply done_ok | with_reducible apply filtersPass_ok | with_reducible apply tallyZ1_ok
    | with_reducible apply whileAwake_ok | with_reducible apply ok_foldl_snd | with_reducible apply ok_foldl | split
    | (with_reducible intro u x hu) | (with_reducible intro u hu) | dsimp only
    | (fail_if_no_progress refine ok_mk ?_ (by and_intros <;> first | with_reducible exact Or.inl rfl | exact Or.inr (by assumption)))

theorem execTallyPresetApply_ok (h : Ok kp zz s) {n : Fin 4} (kAccepted : kp .accepted = true := by assumption) (kTbs : kp
    .tbs = true := by assumption) (kAcq : kp .acq = true := by assumption) (kTwin : kp .twin = true := by assumption) : OkO kp
    zz (execTallyPresetApply n s) := by
  unfold execTallyPresetApply
  repeat' first
    | with_reducible assumption | with_reducible apply okO_ite | with_reducible apply ok_ite | with_reducible apply complete_ok
    | with_reducible apply done_ok | with_reducible apply setTally_ok | with_reducible apply stepTallyTo_ok | split

theorem execPreset_ok (h : Ok kp zz s) {n : Fin 4} (kAccepted : kp .accepted = true := by assumption) : OkO kp zz (execPreset
    n s) := by
  unfold execPreset
  repeat' first
    | with_reducible assumption | with_reducible apply okO_ite | with_reducible apply ok_ite | with_reducible apply accept_ok
    | with_reducible apply done_ok | with_reducible apply refuse_ok | with_reducible apply reject_ok | split

theorem takeBroadcast_ok (h : Ok kp zz s) {n : Nat} {p : Int} {v : Int} {tb : Int} (kTbs : kp .tbs = true := by assumption) :
    Ok kp zz (takeBroadcast n p v tb s) := by
  unfold takeBroadcast
  repeat' first
    | with_reducible assumption | with_reducible apply ok_ite2 | with_reducible apply ok_ite | with_reducible apply setFld_ok
    | with_reducible apply setTally_ok | split

theorem hearBroadcast_ok (h : Ok kp zz s) {stream : Nat} {addr : Nat} {p : Int} {v : Int} {tb : Int} {n : Nat} (kTbs : kp .tbs
    = true := by assumption) : Ok kp zz (hearBroadcast stream addr p v tb s n) := by
  unfold hearBroadcast
  repeat' first
    | with_reducible assumption | with_reducible apply ok_ite | with_reducible apply raise_ok | with_reducible apply setFlag_ok
    | with_reducible apply setFld_ok | with_reducible apply takeBroadcast_ok | split

theorem execTallyFrameReceive_ok (h : Ok kp zz s) {stream : Fin 16} {addr : Fin 1024} {pos : Int} {vel : Int} {time : Nat}
    (kTbs : kp .tbs = true := by assumption) : OkO kp zz (execTallyFrameReceive stream addr pos vel time s) := by
  unfold execTallyFrameReceive
  try dsimp only
  repeat' first
    | with_reducible assumption | with_reducible apply okO_ite | with_reducible apply okO_next | with_reducible apply okO_fault
    | with_reducible apply okO_refused | with_reducible apply ok_ite | with_reducible apply done_ok
    | with_reducible apply hearBroadcast_ok | with_reducible apply whileAwake_ok | with_reducible apply ok_foldl_snd
    | with_reducible apply ok_foldl | split | (with_reducible intro u x hu) | (with_reducible intro u hu) | dsimp only
    | (fail_if_no_progress refine ok_mk ?_ (by and_intros <;> first | with_reducible exact Or.inl rfl | exact Or.inr (by assumption)))

theorem execTallyCoasting_ok (h : Ok kp zz s) {n : Fin 4} : OkO kp zz (execTallyCoasting n s) := by
  unfold execTallyCoasting
  repeat' first
    | with_reducible assumption | with_reducible apply okO_ite | with_reducible apply ok_ite | with_reducible apply done_ok
    | with_reducible apply setFld_ok | split

theorem execTallyLost_ok (h : Ok kp zz s) {n : Fin 4} (kTbs : kp .tbs = true := by assumption) : OkO kp zz (execTallyLost n s)
    := by
  unfold execTallyLost
  repeat' first
    | with_reducible assumption | with_reducible apply okO_ite | with_reducible apply ok_ite2 | with_reducible apply ok_ite
    | with_reducible apply done_ok | with_reducible apply raise_ok | with_reducible apply setFld_ok
    | with_reducible apply setTally_ok | split

theorem setMains_ok (h : Ok kp zz s) {m : Mains} (kTbs : kp .tbs = true := by assumption) : Ok kp zz (setMains m s) := by
  unfold setMains
  repeat' first
    | with_reducible assumption
    | (fail_if_no_progress refine ok_mk ?_ (by and_intros <;> first | with_reducible exact Or.inl rfl | exact Or.inr (by assumption)))

theorem enterMains_ok (h : Ok kp zz s) {st : Nat} : Ok kp zz (enterMains st s) := by
  unfold enterMains
  repeat' first
    | with_reducible assumption | with_reducible apply ok_ite | with_reducible apply setFld_ok | split
    | (with_reducible intro u x hu) | (with_reducible intro u hu) | dsimp only
    | (fail_if_no_progress refine ok_mk ?_ (by and_intros <;> first | with_reducible exact Or.inl rfl | exact Or.inr (by assumption)))

theorem mainsCtrlWrite_ok (h : Ok kp zz s) {w : Word} (kTbs : kp .tbs = true := by assumption) : Ok kp zz (mainsCtrlWrite w s)
    := by
  unfold mainsCtrlWrite
  try dsimp only
  repeat' first
    | with_reducible assumption | with_reducible apply ok_ite | with_reducible apply enterMains_ok
    | with_reducible apply setMains_ok | with_reducible apply wr_ok | split | (with_reducible intro u x hu)
    | (with_reducible intro u hu) | dsimp only
    | (fail_if_no_progress refine ok_mk ?_ (by and_intros <;> first | with_reducible exact Or.inl rfl | exact Or.inr (by assumption)))

theorem execMainsEnable_ok (h : Ok kp zz s) {en : Bool} (kTbs : kp .tbs = true := by assumption) : OkO kp zz (execMainsEnable
    en s) := by
  unfold execMainsEnable
  try dsimp only
  repeat' first
    | with_reducible assumption | with_reducible apply okO_ite | with_reducible apply okO_next | with_reducible apply okO_fault
    | with_reducible apply okO_refused | with_reducible apply ok_ite | with_reducible apply done_ok
    | with_reducible apply mainsCtrlWrite_ok | split | (with_reducible intro u x hu) | (with_reducible intro u hu) | dsimp only
    | (fail_if_no_progress refine ok_mk ?_ (by and_intros <;> first | with_reducible exact Or.inl rfl | exact Or.inr (by assumption)))

theorem mainsCode_ok (h : Ok kp zz s) {code : Int} {t : Int} (kTbs : kp .tbs = true := by assumption) : Ok kp zz (mainsCode
    code t s) := by
  unfold mainsCode
  try dsimp only
  repeat' first
    | with_reducible assumption | with_reducible apply ok_ite | with_reducible apply setMains_ok | split
    | (with_reducible intro u x hu) | (with_reducible intro u hu) | dsimp only
    | (fail_if_no_progress refine ok_mk ?_ (by and_intros <;> first | with_reducible exact Or.inl rfl | exact Or.inr (by assumption)))

theorem mainsGood_ok (h : Ok kp zz s) {f : Nat} {t : Int} (kFresh : kp .fresh = true := by assumption) (kTbs : kp .tbs = true
    := by assumption) : Ok kp zz (mainsGood f t s) := by
  unfold mainsGood
  try dsimp only
  repeat' first
    | with_reducible assumption | with_reducible apply ok_ite | with_reducible apply enterMains_ok
    | with_reducible apply freshen_ok | with_reducible apply raise_ok | with_reducible apply setMains_ok | split
    | (with_reducible intro u x hu) | (with_reducible intro u hu) | dsimp only
    | (fail_if_no_progress refine ok_mk ?_ (by and_intros <;> first | with_reducible exact Or.inl rfl | exact Or.inr (by assumption)))

theorem mainsCrossing_ok (h : Ok kp zz s) {t : Int} (kFresh : kp .fresh = true := by assumption) (kTbs : kp .tbs = true := by
    assumption) : Ok kp zz (mainsCrossing t s) := by
  unfold mainsCrossing
  try dsimp only
  repeat' first
    | with_reducible assumption | with_reducible apply ok_ite | with_reducible apply mainsGood_ok
    | with_reducible apply setFlag_ok | with_reducible apply setMains_ok | split | (with_reducible intro u x hu)
    | (with_reducible intro u hu) | dsimp only
    | (fail_if_no_progress refine ok_mk ?_ (by and_intros <;> first | with_reducible exact Or.inl rfl | exact Or.inr (by assumption)))

theorem execMainsCrossing_ok (h : Ok kp zz s) {ofs : Nat} (kFresh : kp .fresh = true := by assumption) (kTbs : kp .tbs = true
    := by assumption) : OkO kp zz (execMainsCrossing ofs s) := by
  unfold execMainsCrossing
  try dsimp only
  repeat' first
    | with_reducible assumption | with_reducible apply okO_ite | with_reducible apply okO_next | with_reducible apply okO_fault
    | with_reducible apply okO_refused | with_reducible apply ok_ite | with_reducible apply atOfs_ok
    | with_reducible apply done_ok | (refine (done_ok ?_) _ (by assumption)) | with_reducible apply mainsCrossing_ok
    | with_reducible apply setMains_ok | split | (with_reducible intro u x hu) | (with_reducible intro u hu) | dsimp only
    | (fail_if_no_progress refine ok_mk ?_ (by and_intros <;> first | with_reducible exact Or.inl rfl | exact Or.inr (by assumption)))

theorem execMainsLost_ok (h : Ok kp zz s) (kTbs : kp .tbs = true := by assumption) : OkO kp zz (execMainsLost s) := by
  unfold execMainsLost
  repeat' first
    | with_reducible assumption | with_reducible apply okO_ite | with_reducible apply okO_next | with_reducible apply okO_fault
    | with_reducible apply okO_refused | with_reducible apply ok_ite | with_reducible apply done_ok
    | with_reducible apply enterMains_ok | with_reducible apply raise_ok | with_reducible apply setMains_ok | split
    | (with_reducible intro u x hu) | (with_reducible intro u hu) | dsimp only
    | (fail_if_no_progress refine ok_mk ?_ (by and_intros <;> first | with_reducible exact Or.inl rfl | exact Or.inr (by assumption)))

theorem pacerBoundary_ok (h : Ok kp zz s) (kTbs : kp .tbs = true := by assumption) : Ok kp zz (pacerBoundary s) := by
  unfold pacerBoundary
  repeat' first
    | with_reducible assumption | with_reducible apply judgeAlarm_ok | with_reducible apply setInt_ok
    | with_reducible apply setPacer_ok

theorem tallyBoundary_ok (h : Ok kp zz s) {n : Nat} (kTbs : kp .tbs = true := by assumption) (kTwin : kp .twin = true := by
    assumption) : Ok kp zz (tallyBoundary s n) := by
  unfold tallyBoundary
  repeat' first
    | with_reducible assumption | with_reducible apply markStep_ok | with_reducible apply raise_ok
    | with_reducible apply setFlag_ok | with_reducible apply setTally_ok | split

theorem tbsBoundary_ok (h : Ok kp zz s) (kTbs : kp .tbs = true := by assumption) (kTwin : kp .twin = true := by assumption) :
    Ok kp zz (tbsBoundary s) := by
  unfold tbsBoundary
  try dsimp only
  repeat' first
    | with_reducible assumption | with_reducible apply ok_ite | with_reducible apply filtersPass_ok
    | with_reducible apply pacerBoundary_ok | with_reducible apply setMains_ok | with_reducible apply tallyBoundary_ok
    | with_reducible apply ok_foldl_snd | with_reducible apply ok_foldl | split | (with_reducible intro u x hu)
    | (with_reducible intro u hu) | dsimp only
    | (fail_if_no_progress refine ok_mk ?_ (by and_intros <;> first | with_reducible exact Or.inl rfl | exact Or.inr (by assumption)))

theorem shiftTime_ok (h : Ok kp zz s) {d : Int} (kTbs : kp .tbs = true := by assumption) : Ok kp zz (shiftTime d s) := by
  unfold shiftTime
  repeat' first
    | with_reducible assumption
    | (fail_if_no_progress refine ok_mk ?_ (by and_intros <;> first | with_reducible exact Or.inl rfl | exact Or.inr (by assumption)))

end Sys2Proof.Machine
end

