-- ==== Sys2Proof/Laws/KeepAfe.lean ====
section
/-!
SUPPORT. What the operations of Machine/Afe.lean keep.
-/
namespace Sys2Proof.Machine
open Sys2Proof

set_option Elab.async false
set_option linter.unreachableTactic false
set_option linter.unusedTactic false
set_option linter.unusedVariables false

variable {kp : Comp → Bool} {zz s : State}

theorem setMarks_ok (h : Ok kp zz s) {c : Nat} {kind : Nat} {l : List (Nat × Nat)} (kRed : kp .red = true := by assumption) :
    Ok kp zz (setMarks c kind l s) := by
  unfold setMarks
  repeat' first
    | with_reducible assumption
    | (fail_if_no_progress refine ok_mk ?_ (by and_intros <;> first | with_reducible exact Or.inl rfl | exact Or.inr (by assumption)))

theorem mark_ok (h : Ok kp zz s) {c : Nat} {kind : Nat} {b : Nat} (kRed : kp .red = true := by assumption) : Ok kp zz (mark c
    kind b s) := by
  unfold mark
  repeat' first
    | with_reducible assumption | with_reducible apply setMarks_ok | split

theorem markIf_ok (h : Ok kp zz s) {p : Bool} {c : Nat} {kind : Nat} {b : Nat} (kRed : kp .red = true := by assumption) : Ok
    kp zz (markIf p c kind b s) := by
  unfold markIf
  repeat' first
    | with_reducible assumption | with_reducible apply ok_ite | with_reducible apply mark_ok | split

theorem unmark_ok (h : Ok kp zz s) {c : Nat} {kind : Nat} {b : Nat} (kRed : kp .red = true := by assumption) : Ok kp zz
    (unmark c kind b s) := by
  unfold unmark
  repeat' first
    | with_reducible assumption | with_reducible apply setMarks_ok | split

theorem setBank_ok (h : Ok kp zz s) {b : Nat} {x : Bank} (kAfe : kp .afe = true := by assumption) : Ok kp zz (setBank b x s)
    := by
  unfold setBank
  repeat' first
    | with_reducible assumption
    | (fail_if_no_progress refine ok_mk ?_ (by and_intros <;> first | with_reducible exact Or.inl rfl | exact Or.inr (by assumption)))

theorem setChan_ok (h : Ok kp zz s) {c : Nat} {x : Chan} (kAfe : kp .afe = true := by assumption) : Ok kp zz (setChan c x s)
    := by
  unfold setChan
  repeat' first
    | with_reducible assumption
    | (fail_if_no_progress refine ok_mk ?_ (by and_intros <;> first | with_reducible exact Or.inl rfl | exact Or.inr (by assumption)))

theorem setExcState_ok (h : Ok kp zz s) {b : Nat} {st : Nat} : Ok kp zz (setExcState b st s) := by
  unfold setExcState
  repeat' first
    | with_reducible assumption | with_reducible apply setFld_ok

theorem startChange_ok (h : Ok kp zz s) {b : Nat} {off : Bool} {restart : Bool} (kAfe : kp .afe = true := by assumption) : Ok
    kp zz (startChange b off restart s) := by
  unfold startChange
  repeat' first
    | with_reducible assumption | with_reducible apply ok_ite | with_reducible apply setBank_ok
    | with_reducible apply setExcState_ok | with_reducible apply setFlag_ok | split

theorem driveActive_ok (h : Ok kp zz s) {b : Nat} {restart : Bool} (kAfe : kp .afe = true := by assumption) : Ok kp zz
    (driveActive b restart s) := by
  unfold driveActive
  repeat' first
    | with_reducible assumption | with_reducible apply startChange_ok

theorem execExcApply_ok (h : Ok kp zz s) {mask : BitVec 16} (kAccepted : kp .accepted = true := by assumption) : OkO kp zz
    (execExcApply mask s) := by
  unfold execExcApply
  repeat' first
    | with_reducible assumption | with_reducible apply accept_ok | with_reducible apply complete_ok
    | with_reducible apply done_ok | with_reducible apply refuse_ok | with_reducible apply reject_ok | split

theorem applyBank_ok (h : Ok kp zz s) {b : Nat} (kAfe : kp .afe = true := by assumption) : Ok kp zz (applyBank s b) := by
  unfold applyBank
  repeat' first
    | with_reducible assumption | with_reducible apply ok_ite | with_reducible apply startChange_ok | with_reducible apply wr_ok
    | split

theorem applyBoundary_ok (h : Ok kp zz s) (kAccepted : kp .accepted = true := by assumption) (kAfe : kp .afe = true := by
    assumption) : Ok kp zz (applyBoundary s) := by
  unfold applyBoundary
  repeat' first
    | with_reducible assumption | with_reducible apply applyBank_ok | with_reducible apply complete_ok
    | with_reducible apply ok_foldl | split | (with_reducible intro u x hu)

theorem execExcRampEnd_ok (h : Ok kp zz s) {b : Fin 16} (kAfe : kp .afe = true := by assumption) : OkO kp zz (execExcRampEnd b
    s) := by
  unfold execExcRampEnd
  repeat' first
    | with_reducible assumption | with_reducible apply okO_ite | with_reducible apply ok_ite | with_reducible apply done_ok
    | with_reducible apply setBank_ok | with_reducible apply setExcState_ok | split

theorem execExcSettleEnd_ok (h : Ok kp zz s) {b : Fin 16} : OkO kp zz (execExcSettleEnd b s) := by
  unfold execExcSettleEnd
  repeat' first
    | with_reducible assumption | with_reducible apply okO_ite | with_reducible apply ok_ite | with_reducible apply done_ok
    | with_reducible apply setExcState_ok | split

theorem execExcReversal_ok (h : Ok kp zz s) {b : Fin 16} (kAfe : kp .afe = true := by assumption) : OkO kp zz (execExcReversal
    b s) := by
  unfold execExcReversal
  repeat' first
    | with_reducible assumption | with_reducible apply okO_ite | with_reducible apply ok_ite | with_reducible apply done_ok
    | with_reducible apply setBank_ok | with_reducible apply setExcState_ok | with_reducible apply setFlag_ok | split

theorem execExcBlankEnd_ok (h : Ok kp zz s) {b : Fin 16} : OkO kp zz (execExcBlankEnd b s) := by
  unfold execExcBlankEnd
  repeat' first
    | with_reducible assumption | with_reducible apply okO_ite | with_reducible apply ok_ite | with_reducible apply done_ok
    | with_reducible apply setExcState_ok | split

theorem execAfeExcLimit_ok (h : Ok kp zz s) {b : Fin 16} (kAfe : kp .afe = true := by assumption) : OkO kp zz (execAfeExcLimit
    b s) := by
  unfold execAfeExcLimit
  repeat' first
    | with_reducible assumption | with_reducible apply okO_ite | with_reducible apply ok_ite | with_reducible apply done_ok
    | with_reducible apply raise_ok | with_reducible apply setBank_ok | with_reducible apply setFlag_ok | split

theorem execAfeExcTrip_ok (h : Ok kp zz s) {b : Fin 16} (kAfe : kp .afe = true := by assumption) : OkO kp zz (execAfeExcTrip b
    s) := by
  unfold execAfeExcTrip
  repeat' first
    | with_reducible assumption | with_reducible apply okO_ite | with_reducible apply ok_ite | with_reducible apply done_ok
    | with_reducible apply raise_ok | with_reducible apply setBank_ok | with_reducible apply setExcState_ok
    | with_reducible apply setFld_ok | split

theorem execResetTrip_ok (h : Ok kp zz s) {b : Fin 16} (kAccepted : kp .accepted = true := by assumption) : OkO kp zz
    (execResetTrip b s) := by
  unfold execResetTrip
  repeat' first
    | with_reducible assumption | with_reducible apply okO_ite | with_reducible apply ok_ite | with_reducible apply accept_ok
    | with_reducible apply done_ok | with_reducible apply refuse_ok | with_reducible apply reject_ok | split

theorem resetTripBoundary_ok (h : Ok kp zz s) {b : Nat} (kAccepted : kp .accepted = true := by assumption) (kAfe : kp .afe =
    true := by assumption) : Ok kp zz (resetTripBoundary s b) := by
  unfold resetTripBoundary
  repeat' first
    | with_reducible assumption | with_reducible apply complete_ok | with_reducible apply setBank_ok
    | with_reducible apply setExcState_ok | with_reducible apply setFld_ok | with_reducible apply startChange_ok | split

theorem execAfeSnsFault_ok (h : Ok kp zz s) {b : Fin 16} (kAfe : kp .afe = true := by assumption) : OkO kp zz (execAfeSnsFault
    b s) := by
  unfold execAfeSnsFault
  repeat' first
    | with_reducible assumption | with_reducible apply okO_ite | with_reducible apply ok_ite | with_reducible apply done_ok
    | with_reducible apply raise_ok | with_reducible apply setBank_ok | with_reducible apply setFlag_ok | split

theorem execSnsFaultClear_ok (h : Ok kp zz s) {b : Fin 16} (kAfe : kp .afe = true := by assumption) : OkO kp zz
    (execSnsFaultClear b s) := by
  unfold execSnsFaultClear
  repeat' first
    | with_reducible assumption | with_reducible apply okO_ite | with_reducible apply ok_ite | with_reducible apply done_ok
    | with_reducible apply setBank_ok | split

theorem execTtempUpdate_ok (h : Ok kp zz s) {b : Fin 16} {temp : Int} {bad : Bool} (kAfe : kp .afe = true := by assumption) :
    OkO kp zz (execTtempUpdate b temp bad s) := by
  unfold execTtempUpdate
  repeat' first
    | with_reducible assumption | with_reducible apply okO_ite | with_reducible apply ok_ite | with_reducible apply done_ok
    | with_reducible apply raiseIf_ok | with_reducible apply setBank_ok | with_reducible apply setFlag_ok
    | with_reducible apply setInt_ok | split

theorem setMaskBit_ok (h : Ok kp zz s) {a : Nat} {c : Nat} {v : Bool} : Ok kp zz (setMaskBit a c v s) := by
  unfold setMaskBit
  repeat' first
    | with_reducible assumption | with_reducible apply setFld_ok

theorem execOpenSet_ok (h : Ok kp zz s) {c : Fin 256} (kRed : kp .red = true := by assumption) : OkO kp zz (execOpenSet c s)
    := by
  unfold execOpenSet
  repeat' first
    | with_reducible assumption | with_reducible apply okO_ite | with_reducible apply ok_ite | with_reducible apply done_ok
    | with_reducible apply mark_ok | with_reducible apply setMaskBit_ok | split

theorem execOpenClear_ok (h : Ok kp zz s) {c : Fin 256} (kRed : kp .red = true := by assumption) : OkO kp zz (execOpenClear c
    s) := by
  unfold execOpenClear
  repeat' first
    | with_reducible assumption | with_reducible apply okO_ite | with_reducible apply ok_ite | with_reducible apply done_ok
    | with_reducible apply setMaskBit_ok | with_reducible apply unmark_ok | split

theorem openCount_ok (h : Ok kp zz s) {cat : Tab Word} {c : Nat} {code : Int} (kAfe : kp .afe = true := by assumption) : Ok kp
    zz (openCount cat c code s) := by
  unfold openCount
  repeat' first
    | with_reducible assumption | with_reducible apply ok_ite | with_reducible apply setChan_ok | split

theorem endOpen_ok (h : Ok kp zz s) {c : Nat} (kAfe : kp .afe = true := by assumption) : Ok kp zz (endOpen s c) := by
  unfold endOpen
  repeat' first
    | with_reducible assumption | with_reducible apply ok_ite | with_reducible apply setChan_ok
    | with_reducible apply setMaskBit_ok | split | (with_reducible intro u x hu) | (with_reducible intro u hu) | dsimp only
    | (fail_if_no_progress refine ok_mk ?_ (by and_intros <;> first | with_reducible exact Or.inl rfl | exact Or.inr (by assumption)))

theorem execCmwinWrite_ok (h : Ok kp zz s) {b : Fin 16} {hys : Bool} {value : Word} (kNextRegs : kp .nextRegs = true := by
    assumption) (kAfe : kp .afe = true := by assumption) : OkO kp zz (execCmwinWrite b hys value s) := by
  unfold execCmwinWrite
  repeat' first
    | with_reducible assumption | with_reducible apply okO_ite | with_reducible apply ok_ite | with_reducible apply done_ok
    | with_reducible apply setBank_ok
    | (fail_if_no_progress refine ok_mk ?_ (by and_intros <;> first | with_reducible exact Or.inl rfl | exact Or.inr (by assumption)))
    | split

theorem setMaskAll_ok (h : Ok kp zz s) {a : Nat} {m : Nat} : Ok kp zz (setMaskAll a m s) := by
  unfold setMaskAll
  repeat' first
    | with_reducible assumption | with_reducible apply wr_ok | with_reducible apply ok_foldl | (with_reducible intro u x hu)

theorem cmxBoundary_ok (h : Ok kp zz s) (kAfe : kp .afe = true := by assumption) : Ok kp zz (cmxBoundary s) := by
  unfold cmxBoundary
  repeat' first
    | with_reducible assumption | with_reducible apply ok_ite | with_reducible apply raise_ok | with_reducible apply setBank_ok
    | with_reducible apply setMaskAll_ok | with_reducible apply ok_foldl | (with_reducible intro u x hu) | split

theorem execPlugDetEdge_ok (h : Ok kp zz s) {b : Fin 16} {high : Bool} (kAfe : kp .afe = true := by assumption) : OkO kp zz
    (execPlugDetEdge b high s) := by
  unfold execPlugDetEdge
  repeat' first
    | with_reducible assumption | with_reducible apply okO_ite | with_reducible apply ok_ite | with_reducible apply done_ok
    | with_reducible apply setBank_ok | split

theorem setPlug_ok (h : Ok kp zz s) {b : Nat} {out : Bool} (kAfe : kp .afe = true := by assumption) : Ok kp zz (setPlug b out
    s) := by
  unfold setPlug
  repeat' first
    | with_reducible assumption | with_reducible apply setBank_ok | with_reducible apply setFlag_ok
    | with_reducible apply setFld_ok

theorem execAfePlugOut_ok (h : Ok kp zz s) {b : Fin 16} (kAfe : kp .afe = true := by assumption) : OkO kp zz (execAfePlugOut b
    s) := by
  unfold execAfePlugOut
  repeat' first
    | with_reducible assumption | with_reducible apply okO_ite | with_reducible apply ok_ite | with_reducible apply done_ok
    | with_reducible apply raise_ok | with_reducible apply setPlug_ok | with_reducible apply startChange_ok | split

theorem replug_ok (h : Ok kp zz s) {b : Nat} (kAfe : kp .afe = true := by assumption) : Ok kp zz (replug b s) := by
  unfold replug
  repeat' first
    | with_reducible assumption | with_reducible apply ok_ite | with_reducible apply raise_ok | with_reducible apply setBank_ok
    | with_reducible apply setPlug_ok | with_reducible apply startChange_ok | split

theorem execAfePlugIn_ok (h : Ok kp zz s) {b : Fin 16} (kAfe : kp .afe = true := by assumption) : OkO kp zz (execAfePlugIn b
    s) := by
  unfold execAfePlugIn
  repeat' first
    | with_reducible assumption | with_reducible apply okO_ite | with_reducible apply ok_ite | with_reducible apply done_ok
    | with_reducible apply replug_ok | split

theorem execPlugEnClear_ok (h : Ok kp zz s) {b : Fin 16} (kAfe : kp .afe = true := by assumption) : OkO kp zz (execPlugEnClear
    b s) := by
  unfold execPlugEnClear
  repeat' first
    | with_reducible assumption | with_reducible apply okO_ite | with_reducible apply ok_ite | with_reducible apply done_ok
    | with_reducible apply setBank_ok | with_reducible apply setFlag_ok | split

theorem bankBoundary_ok (h : Ok kp zz s) {limiting : Nat} {b : Nat} (kAfe : kp .afe = true := by assumption) : Ok kp zz
    (bankBoundary limiting s b) := by
  unfold bankBoundary
  repeat' first
    | with_reducible assumption | with_reducible apply ok_ite | with_reducible apply replug_ok | with_reducible apply setBank_ok
    | split

theorem afeBoundary_ok (h : Ok kp zz s) {limiting : Nat} {excI : List (Nat × Int)} (kAccepted : kp .accepted = true := by
    assumption) (kAfe : kp .afe = true := by assumption) : Ok kp zz (afeBoundary limiting excI s) := by
  unfold afeBoundary
  repeat' first
    | with_reducible assumption | with_reducible apply ok_ite2 | with_reducible apply ok_ite
    | with_reducible apply applyBoundary_ok | with_reducible apply bankBoundary_ok | with_reducible apply resetTripBoundary_ok
    | with_reducible apply setChan_ok | with_reducible apply setInt_ok | with_reducible apply ok_foldl
    | (with_reducible intro u x hu) | split

theorem driverUp_ok (h : Ok kp zz s) {b : Nat} (kAfe : kp .afe = true := by assumption) : Ok kp zz (driverUp s b) := by
  unfold driverUp
  repeat' first
    | with_reducible assumption | with_reducible apply ok_ite | with_reducible apply setExcState_ok
    | with_reducible apply startChange_ok | split

theorem driverDown_ok (h : Ok kp zz s) {b : Nat} (kAfe : kp .afe = true := by assumption) : Ok kp zz (driverDown s b) := by
  unfold driverDown
  repeat' first
    | with_reducible assumption | with_reducible apply ok_ite | with_reducible apply setBank_ok
    | with_reducible apply setExcState_ok | with_reducible apply setFlag_ok | split

end Sys2Proof.Machine
end

