-- ==== Sys2Proof/Laws/KeepCnv.lean ====
section
/-!
SUPPORT. What the operations of Machine/Cnv.lean keep.
-/
namespace Sys2Proof.Machine
open Sys2Proof

set_option Elab.async false
set_option linter.unreachableTactic false
set_option linter.unusedTactic false
set_option linter.unusedVariables false

variable {kp : Comp → Bool} {zz s : State}

theorem setCnv_ok (h : Ok kp zz s) {x : Cnv} (kCnv : kp .cnv = true := by assumption) : Ok kp zz (setCnv x s) := by
  unfold setCnv
  repeat' first
    | with_reducible assumption
    | (fail_if_no_progress refine ok_mk ?_ (by and_intros <;> first | with_reducible exact Or.inl rfl | exact Or.inr (by assumption)))

theorem setCalState_ok (h : Ok kp zz s) {st : Nat} : Ok kp zz (setCalState st s) := by
  unfold setCalState
  repeat' first
    | with_reducible assumption | with_reducible apply setFld_ok

theorem setCalCount_ok (h : Ok kp zz s) {n : Nat} : Ok kp zz (setCalCount n s) := by
  unfold setCalCount
  repeat' first
    | with_reducible assumption | with_reducible apply setFld_ok

theorem setSliceOf_ok (h : Ok kp zz s) {b : Nat} {sl : Nat} : Ok kp zz (setSliceOf b sl s) := by
  unfold setSliceOf
  repeat' first
    | with_reducible assumption | with_reducible apply wr_ok

theorem setRole_ok (h : Ok kp zz s) {sl : Nat} {r : Nat} : Ok kp zz (setRole sl r s) := by
  unfold setRole
  repeat' first
    | with_reducible assumption | with_reducible apply setFld_ok

theorem hold_ok (h : Ok kp zz s) : Ok kp zz (hold s) := by
  unfold hold
  repeat' first
    | with_reducible assumption | with_reducible apply setCalCount_ok | with_reducible apply setCalState_ok
    | with_reducible apply setRole_ok

theorem holdRunning_ok (h : Ok kp zz s) : Ok kp zz (holdRunning s) := by
  unfold holdRunning
  repeat' first
    | with_reducible assumption | with_reducible apply ok_ite | with_reducible apply hold_ok | split
    | (with_reducible intro u x hu) | (with_reducible intro u hu) | dsimp only
    | (fail_if_no_progress refine ok_mk ?_ (by and_intros <;> first | with_reducible exact Or.inl rfl | exact Or.inr (by assumption)))

theorem execBufEnWrite_ok (h : Ok kp zz s) {en : Bool} (kCnv : kp .cnv = true := by assumption) : OkO kp zz (execBufEnWrite en
    s) := by
  unfold execBufEnWrite
  repeat' first
    | with_reducible assumption | with_reducible apply okO_ite | with_reducible apply ok_ite | with_reducible apply done_ok
    | with_reducible apply setCnv_ok | with_reducible apply setFlag_ok | split

theorem execCnvRefReady_ok (h : Ok kp zz s) (kCnv : kp .cnv = true := by assumption) : OkO kp zz (execCnvRefReady s) := by
  unfold execCnvRefReady
  repeat' first
    | with_reducible assumption | with_reducible apply okO_ite | with_reducible apply ok_ite | with_reducible apply done_ok
    | with_reducible apply raise_ok | with_reducible apply setCnv_ok | with_reducible apply setFlag_ok | split

theorem execCnvRefFault_ok (h : Ok kp zz s) (kCnv : kp .cnv = true := by assumption) : OkO kp zz (execCnvRefFault s) := by
  unfold execCnvRefFault
  try dsimp only
  repeat' first
    | with_reducible assumption | with_reducible apply okO_ite | with_reducible apply okO_next | with_reducible apply okO_fault
    | with_reducible apply okO_refused | with_reducible apply ok_ite | with_reducible apply done_ok
    | with_reducible apply holdRunning_ok | with_reducible apply raise_ok | with_reducible apply setCnv_ok
    | with_reducible apply setFlag_ok | split | (with_reducible intro u x hu) | (with_reducible intro u hu) | dsimp only
    | (fail_if_no_progress refine ok_mk ?_ (by and_intros <;> first | with_reducible exact Or.inl rfl | exact Or.inr (by assumption)))

theorem refBoundary_ok (h : Ok kp zz s) {errFinal : Int} {errNominal : Int} (kCnv : kp .cnv = true := by assumption) : Ok kp
    zz (refBoundary errFinal errNominal s) := by
  unfold refBoundary
  repeat' first
    | with_reducible assumption | with_reducible apply ok_ite | with_reducible apply setCnv_ok | with_reducible apply setFlag_ok
    | split

theorem execCalEnWrite_ok (h : Ok kp zz s) {en : Bool} (kCnv : kp .cnv = true := by assumption) : OkO kp zz (execCalEnWrite en
    s) := by
  unfold execCalEnWrite
  repeat' first
    | with_reducible assumption | with_reducible apply okO_ite | with_reducible apply ok_ite | with_reducible apply done_ok
    | with_reducible apply setCnv_ok | with_reducible apply setFlag_ok | split

theorem startEpoch_ok (h : Ok kp zz s) (kCnv : kp .cnv = true := by assumption) : Ok kp zz (startEpoch s) := by
  unfold startEpoch
  repeat' first
    | with_reducible assumption | with_reducible apply setCalCount_ok | with_reducible apply setCalState_ok
    | with_reducible apply setCnv_ok | with_reducible apply setFlag_ok | with_reducible apply setRole_ok

theorem startOverlap_ok (h : Ok kp zz s) (kCnv : kp .cnv = true := by assumption) : Ok kp zz (startOverlap s) := by
  unfold startOverlap
  repeat' first
    | with_reducible assumption | with_reducible apply setCalCount_ok | with_reducible apply setCalState_ok
    | with_reducible apply setCnv_ok | with_reducible apply setRole_ok

theorem execCalEpochEnd_ok (h : Ok kp zz s) (kFresh : kp .fresh = true := by assumption) (kCnv : kp .cnv = true := by
    assumption) : OkO kp zz (execCalEpochEnd s) := by
  unfold execCalEpochEnd
  try dsimp only
  repeat' first
    | with_reducible assumption | with_reducible apply okO_ite | with_reducible apply okO_next | with_reducible apply okO_fault
    | with_reducible apply okO_refused | with_reducible apply ok_ite | with_reducible apply done_ok
    | with_reducible apply freshen_ok | with_reducible apply setCnv_ok | with_reducible apply startOverlap_ok
    | with_reducible apply wr_ok | with_reducible apply ok_foldl_snd | with_reducible apply ok_foldl | split
    | (with_reducible intro u x hu) | (with_reducible intro u hu) | dsimp only
    | (fail_if_no_progress refine ok_mk ?_ (by and_intros <;> first | with_reducible exact Or.inl rfl | exact Or.inr (by assumption)))

theorem nextTarget_ok (h : Ok kp zz s) : Ok kp zz (nextTarget s) := by
  unfold nextTarget
  repeat' first
    | with_reducible assumption | with_reducible apply setFld_ok | split

theorem suspect_ok (h : Ok kp zz s) {sl : Nat} (kCnv : kp .cnv = true := by assumption) : Ok kp zz (suspect sl s) := by
  unfold suspect
  repeat' first
    | with_reducible assumption | with_reducible apply ok_ite | with_reducible apply nextTarget_ok
    | with_reducible apply raise_ok | with_reducible apply setCnv_ok | with_reducible apply setFlag_ok | split

theorem judgeCalValid_ok (h : Ok kp zz s) : Ok kp zz (judgeCalValid s) := by
  unfold judgeCalValid
  repeat' first
    | with_reducible assumption | with_reducible apply ok_ite | with_reducible apply setFlag_ok | split

theorem handOver_ok (h : Ok kp zz s) {untrimmed : Bool} (kCnv : kp .cnv = true := by assumption) : Ok kp zz (handOver
    untrimmed s) := by
  unfold handOver
  repeat' first
    | with_reducible assumption | with_reducible apply ok_ite2 | with_reducible apply ok_ite | with_reducible apply addMod_ok
    | with_reducible apply judgeCalValid_ok | with_reducible apply nextTarget_ok | with_reducible apply raise_ok
    | with_reducible apply setCnv_ok | with_reducible apply setFld_ok | with_reducible apply setInt_ok
    | with_reducible apply setRole_ok | with_reducible apply setSliceOf_ok | with_reducible apply startEpoch_ok
    | with_reducible apply suspect_ok | with_reducible apply wr_ok | split

theorem matchFail_ok (h : Ok kp zz s) (kCnv : kp .cnv = true := by assumption) : Ok kp zz (matchFail s) := by
  unfold matchFail
  repeat' first
    | with_reducible assumption | with_reducible apply ok_ite | with_reducible apply judgeCalValid_ok
    | with_reducible apply raise_ok | with_reducible apply setCalCount_ok | with_reducible apply setCalState_ok
    | with_reducible apply setCnv_ok | with_reducible apply setFlag_ok | with_reducible apply setFld_ok
    | with_reducible apply setRole_ok | split

theorem execCnvHandover_ok (h : Ok kp zz s) {b : Fin 16} (kCnv : kp .cnv = true := by assumption) : OkO kp zz (execCnvHandover
    b s) := by
  unfold execCnvHandover
  repeat' first
    | with_reducible assumption | with_reducible apply okO_ite | with_reducible apply ok_ite | with_reducible apply done_ok
    | with_reducible apply handOver_ok | with_reducible apply matchFail_ok | with_reducible apply setCnv_ok | split

theorem trackSlice_ok (h : Ok kp zz s) {sl : Nat} (kFresh : kp .fresh = true := by assumption) : Ok kp zz (trackSlice s sl) :=
    by
  unfold trackSlice
  repeat' first
    | with_reducible assumption | with_reducible apply ok_ite2 | with_reducible apply ok_ite | with_reducible apply freshen_ok
    | with_reducible apply setInt_ok | split

theorem trackJudge_ok (h : Ok kp zz s) {sl : Nat} (kCnv : kp .cnv = true := by assumption) : Ok kp zz (trackJudge s sl) := by
  unfold trackJudge
  repeat' first
    | with_reducible assumption | with_reducible apply ok_ite2 | with_reducible apply ok_ite | with_reducible apply setFlag_ok
    | with_reducible apply suspect_ok | split

theorem execTrackingBlockEnd_ok (h : Ok kp zz s) {k : Nat} (kFresh : kp .fresh = true := by assumption) (kCnv : kp .cnv = true
    := by assumption) : OkO kp zz (execTrackingBlockEnd k s) := by
  unfold execTrackingBlockEnd
  repeat' first
    | with_reducible assumption | with_reducible apply okO_ite | with_reducible apply ok_ite | with_reducible apply done_ok
    | with_reducible apply setCnv_ok | with_reducible apply trackJudge_ok | with_reducible apply trackSlice_ok
    | with_reducible apply ok_foldl | (with_reducible intro u x hu) | split

theorem execPause_ok (h : Ok kp zz s) (kAccepted : kp .accepted = true := by assumption) : OkO kp zz (execPause s) := by
  unfold execPause
  repeat' first
    | with_reducible assumption | with_reducible apply okO_ite | with_reducible apply ok_ite | with_reducible apply accept_ok
    | with_reducible apply done_ok | with_reducible apply refuse_ok | with_reducible apply reject_ok | split

theorem execCalResume_ok (h : Ok kp zz s) (kAccepted : kp .accepted = true := by assumption) : OkO kp zz (execCalResume s) :=
    by
  unfold execCalResume
  repeat' first
    | with_reducible assumption | with_reducible apply okO_ite | with_reducible apply ok_ite | with_reducible apply accept_ok
    | with_reducible apply done_ok | with_reducible apply refuse_ok | with_reducible apply reject_ok | split

theorem execReadmit_ok (h : Ok kp zz s) {slice : Fin 32} (kAccepted : kp .accepted = true := by assumption) : OkO kp zz
    (execReadmit slice s) := by
  unfold execReadmit
  repeat' first
    | with_reducible assumption | with_reducible apply okO_ite | with_reducible apply ok_ite | with_reducible apply accept_ok
    | with_reducible apply done_ok | with_reducible apply refuse_ok | with_reducible apply reject_ok | split

theorem calCmdBoundary_ok (h : Ok kp zz s) (kAccepted : kp .accepted = true := by assumption) (kCnv : kp .cnv = true := by
    assumption) : Ok kp zz (calCmdBoundary s) := by
  unfold calCmdBoundary
  repeat' first
    | with_reducible assumption | with_reducible apply ok_ite | with_reducible apply complete_ok
    | with_reducible apply setCalCount_ok | with_reducible apply setCalState_ok | with_reducible apply setCnv_ok
    | with_reducible apply setFlag_ok | with_reducible apply setFld_ok | with_reducible apply setRole_ok
    | with_reducible apply startEpoch_ok | with_reducible apply startOverlap_ok | split

theorem endStep_ok (h : Ok kp zz s) (kCnv : kp .cnv = true := by assumption) : Ok kp zz (endStep s) := by
  unfold endStep
  repeat' first
    | with_reducible assumption | with_reducible apply ok_ite | with_reducible apply setCalCount_ok
    | with_reducible apply setCalState_ok | with_reducible apply setCnv_ok | with_reducible apply setRole_ok | split

theorem unhold_ok (h : Ok kp zz s) (kCnv : kp .cnv = true := by assumption) : Ok kp zz (unhold s) := by
  unfold unhold
  repeat' first
    | with_reducible assumption | with_reducible apply ok_ite | with_reducible apply setCalState_ok
    | with_reducible apply setRole_ok | with_reducible apply startOverlap_ok | split

theorem countLap_ok (h : Ok kp zz s) : Ok kp zz (countLap s) := by
  unfold countLap
  repeat' first
    | with_reducible assumption | with_reducible apply ok_ite | with_reducible apply setCalCount_ok | split

theorem calBoundary_ok (h : Ok kp zz s) (kAccepted : kp .accepted = true := by assumption) (kCnv : kp .cnv = true := by
    assumption) : Ok kp zz (calBoundary s) := by
  unfold calBoundary
  try dsimp only
  repeat' first
    | with_reducible assumption | with_reducible apply ok_ite | with_reducible apply calCmdBoundary_ok
    | with_reducible apply countLap_ok | with_reducible apply endStep_ok | with_reducible apply holdRunning_ok
    | with_reducible apply startEpoch_ok | with_reducible apply unhold_ok | split | (with_reducible intro u x hu)
    | (with_reducible intro u hu) | dsimp only
    | (fail_if_no_progress refine ok_mk ?_ (by and_intros <;> first | with_reducible exact Or.inl rfl | exact Or.inr (by assumption)))

theorem execSkewCmd_ok (h : Ok kp zz s) {banks : BitVec 16} (kAccepted : kp .accepted = true := by assumption) : OkO kp zz
    (execSkewCmd banks s) := by
  unfold execSkewCmd
  repeat' first
    | with_reducible assumption | with_reducible apply okO_ite | with_reducible apply ok_ite | with_reducible apply accept_ok
    | with_reducible apply complete_ok | with_reducible apply done_ok | with_reducible apply refuse_ok
    | with_reducible apply reject_ok | split

theorem skewBoundary_ok (h : Ok kp zz s) (kCnv : kp .cnv = true := by assumption) : Ok kp zz (skewBoundary s) := by
  unfold skewBoundary
  repeat' first
    | with_reducible assumption | with_reducible apply ok_ite | with_reducible apply setCnv_ok | split

theorem skewChannel_ok (h : Ok kp zz s) {c : Nat} : Ok kp zz (skewChannel s c) := by
  unfold skewChannel
  repeat' first
    | with_reducible assumption | with_reducible apply wr_ok

theorem execCnvSkewDone_ok (h : Ok kp zz s) (kFresh : kp .fresh = true := by assumption) (kAccepted : kp .accepted = true :=
    by assumption) (kCnv : kp .cnv = true := by assumption) : OkO kp zz (execCnvSkewDone s) := by
  unfold execCnvSkewDone
  repeat' first
    | with_reducible assumption | with_reducible apply okO_ite | with_reducible apply ok_ite | with_reducible apply complete_ok
    | with_reducible apply done_ok | with_reducible apply freshen_ok | with_reducible apply raise_ok
    | with_reducible apply setCnv_ok | with_reducible apply skewChannel_ok | with_reducible apply ok_foldl
    | (with_reducible intro u x hu) | split

theorem cnvDown_ok (h : Ok kp zz s) (kAccepted : kp .accepted = true := by assumption) (kCnv : kp .cnv = true := by
    assumption) : Ok kp zz (cnvDown s) := by
  unfold cnvDown
  try dsimp only
  repeat' first
    | with_reducible assumption | with_reducible apply ok_ite | with_reducible apply complete_ok
    | with_reducible apply holdRunning_ok | with_reducible apply setCnv_ok | with_reducible apply setFlag_ok | split
    | (with_reducible intro u x hu) | (with_reducible intro u hu) | dsimp only
    | (fail_if_no_progress refine ok_mk ?_ (by and_intros <;> first | with_reducible exact Or.inl rfl | exact Or.inr (by assumption)))

theorem cnvUp_ok (h : Ok kp zz s) (kCnv : kp .cnv = true := by assumption) : Ok kp zz (cnvUp s) := by
  unfold cnvUp
  repeat' first
    | with_reducible assumption | with_reducible apply ok_ite | with_reducible apply setCnv_ok | split

theorem trackTake_ok (h : Ok kp zz s) {q : Int × Nat} (kCnv : kp .cnv = true := by assumption) : Ok kp zz (trackTake s q) :=
    by
  unfold trackTake
  try dsimp only
  repeat' first
    | with_reducible assumption | with_reducible apply ok_ite2 | with_reducible assumption | with_reducible apply ok_ite
    | with_reducible apply setCnv_ok | split | (with_reducible intro u x hu) | (with_reducible intro u hu) | dsimp only
    | (fail_if_no_progress refine ok_mk ?_ (by and_intros <;> first | with_reducible exact Or.inl rfl | exact Or.inr (by assumption)))

theorem pairTake_ok (h : Ok kp zz s) {q : Int × Int} (kCnv : kp .cnv = true := by assumption) : Ok kp zz (pairTake s q) := by
  unfold pairTake
  try dsimp only
  repeat' first
    | with_reducible assumption | with_reducible apply ok_ite2 | with_reducible assumption | with_reducible apply ok_ite
    | with_reducible apply setCnv_ok | split | (with_reducible intro u x hu) | (with_reducible intro u hu) | dsimp only
    | (fail_if_no_progress refine ok_mk ?_ (by and_intros <;> first | with_reducible exact Or.inl rfl | exact Or.inr (by assumption)))

theorem overlapResiduals_ok (h : Ok kp zz s) {slot16 : List Int} (kCnv : kp .cnv = true := by assumption) : Ok kp zz
    (overlapResiduals slot16 s) := by
  unfold overlapResiduals
  try dsimp only
  repeat' first
    | with_reducible assumption | with_reducible apply ok_ite | with_reducible apply setCnv_ok | split
    | (with_reducible intro u x hu) | (with_reducible intro u hu) | dsimp only
    | (fail_if_no_progress refine ok_mk ?_ (by and_intros <;> first | with_reducible exact Or.inl rfl | exact Or.inr (by assumption)))

end Sys2Proof.Machine
end

