-- ==== Sys2Proof/Laws/KeepRed.lean ====
section
/-!
SUPPORT. What the operations of Machine/Red.lean keep.
-/
namespace Sys2Proof.Machine
open Sys2Proof

set_option Elab.async false
set_option linter.unreachableTactic false
set_option linter.unusedTactic false
set_option linter.unusedVariables false

variable {kp : Comp → Bool} {zz s : State}

theorem setRedChan_ok (h : Ok kp zz s) {c : Nat} {x : RedChan} (kRed : kp .red = true := by assumption) : Ok kp zz (setRedChan
    c x s) := by
  unfold setRedChan
  repeat' first
    | with_reducible assumption
    | (fail_if_no_progress refine ok_mk ?_ (by and_intros <;> first | with_reducible exact Or.inl rfl | exact Or.inr (by assumption)))

theorem judgeCjc_ok (h : Ok kp zz s) {bank : Nat} : Ok kp zz (judgeCjc bank s) := by
  unfold judgeCjc
  try dsimp only
  repeat' first
    | with_reducible assumption | with_reducible apply ok_ite | with_reducible apply raiseIf_ok | with_reducible apply setFld_ok
    | split | (with_reducible intro u x hu) | (with_reducible intro u hu) | dsimp only
    | (fail_if_no_progress refine ok_mk ?_ (by and_intros <;> first | with_reducible exact Or.inl rfl | exact Or.inr (by assumption)))

theorem useColdJunction_ok (h : Ok kp zz s) {cat : Tab Word} {c : Nat} {b : Nat} (kRed : kp .red = true := by assumption) : Ok
    kp zz (useColdJunction cat c b s).2 := by
  unfold useColdJunction
  try dsimp only
  repeat' first
    | with_reducible assumption | with_reducible apply ok_ite2 | with_reducible assumption | with_reducible apply ok_ite
    | with_reducible apply addSat_ok | with_reducible apply judgeCjc_ok | with_reducible apply raiseIf_ok
    | with_reducible apply setRedChan_ok | split | (with_reducible intro u x hu) | (with_reducible intro u hu) | dsimp only
    | (fail_if_no_progress refine ok_mk ?_ (by and_intros <;> first | with_reducible exact Or.inl rfl | exact Or.inr (by assumption)))

theorem hurdle_ok (h : Ok kp zz s) {cat : Tab Word} {c : Nat} {b : Nat} {tag : Nat} {value : Word} (kRed : kp .red = true :=
    by assumption) : Ok kp zz (hurdle cat c b tag value s).2 := by
  unfold hurdle
  repeat' first
    | with_reducible assumption | with_reducible apply ok_ite2 | with_reducible apply ok_ite
    | with_reducible apply raiseChosen_ok | with_reducible apply setRedChan_ok | split

theorem setChain_ok (h : Ok kp zz s) {c : Nat} {x : Chain} (kRed : kp .red = true := by assumption) : Ok kp zz (setChain c x
    s) := by
  unfold setChain
  try dsimp only
  repeat' first
    | with_reducible assumption | with_reducible apply ok_ite | split | (with_reducible intro u x hu)
    | (with_reducible intro u hu) | dsimp only
    | (fail_if_no_progress refine ok_mk ?_ (by and_intros <;> first | with_reducible exact Or.inl rfl | exact Or.inr (by assumption)))

theorem formRec_ok (h : Ok kp zz s) {cv : Tab Word} {cat : Tab Word} {c : Nat} {b : Nat} {n : Nat} {sl : Slot} (kRed : kp .red
    = true := by assumption) : Ok kp zz (formRec cv cat c b n sl s).2 := by
  unfold formRec
  repeat' first
    | with_reducible assumption | with_reducible apply ok_ite2 | with_reducible apply ok_ite | with_reducible apply freshen_ok
    | with_reducible apply hurdle_ok | with_reducible apply setRedChan_ok | with_reducible apply useColdJunction_ok | split

theorem formAll_ok {cv cat : Tab Word} {c b n : Nat} {l : List Slot} {acc : List Rec} (h : Ok kp zz s) (kRed : kp .red = true := by assumption) :
    Ok kp zz (formAll cv cat c b n l acc s).2 := by
  induction l generalizing acc s with
  | nil => exact h
  | cons sl t ih => exact ih (formRec_ok h)

theorem formChannel_ok (h : Ok kp zz s) {cv : Tab Word} {cat : Tab Word} {b : Nat} {n : Nat} {c : Nat} (kRed : kp .red = true
    := by assumption) : Ok kp zz (formChannel cv cat b n c s).2 := by
  unfold formChannel
  try dsimp only
  repeat' first
    | with_reducible assumption | with_reducible apply ok_ite2 | with_reducible assumption | with_reducible apply ok_ite
    | with_reducible apply formAll_ok | with_reducible apply setChain_ok | with_reducible apply setRedChan_ok | split
    | (with_reducible intro u x hu) | (with_reducible intro u hu) | dsimp only
    | (fail_if_no_progress refine ok_mk ?_ (by and_intros <;> first | with_reducible exact Or.inl rfl | exact Or.inr (by assumption)))

theorem enterChain_ok (h : Ok kp zz s) {cat : Tab Word} {n : Nat} {b : Nat} {freq : Nat} {codes : List Int} {skew : List Int}
    {c : Nat} (kRed : kp .red = true := by assumption) : Ok kp zz (enterChain cat n b freq codes skew s c) := by
  unfold enterChain
  try dsimp only
  repeat' first
    | with_reducible assumption | with_reducible apply ok_ite | with_reducible apply setChain_ok
    | with_reducible apply setRedChan_ok | split | (with_reducible intro u x hu) | (with_reducible intro u hu) | dsimp only
    | (fail_if_no_progress refine ok_mk ?_ (by and_intros <;> first | with_reducible exact Or.inl rfl | exact Or.inr (by assumption)))

theorem gridChannel_ok (h : Ok kp zz s) {t0 : Nat} {c : Nat} (kRed : kp .red = true := by assumption) : Ok kp zz (gridChannel
    t0 s c) := by
  unfold gridChannel
  repeat' first
    | with_reducible assumption | with_reducible apply ok_ite2 | with_reducible apply ok_ite | with_reducible apply addSat_ok
    | with_reducible apply raise_ok | with_reducible apply setRedChan_ok | split

theorem filterReset_ok (h : Ok kp zz s) {c : Nat} (kRed : kp .red = true := by assumption) : Ok kp zz (filterReset c s) := by
  unfold filterReset
  repeat' first
    | with_reducible assumption | with_reducible apply mark_ok | with_reducible apply setRedChan_ok

theorem entryTakesEffect_ok (h : Ok kp zz s) {old : Tab Word} {c : Nat} (kAfe : kp .afe = true := by assumption) (kRed : kp
    .red = true := by assumption) : Ok kp zz (entryTakesEffect old c s) := by
  unfold entryTakesEffect
  try dsimp only
  repeat' first
    | with_reducible assumption | with_reducible apply ok_ite | with_reducible apply endOpen_ok
    | with_reducible apply filterReset_ok | with_reducible apply judgeCjc_ok | with_reducible apply mark_ok
    | with_reducible apply setChan_ok | with_reducible apply setRedChan_ok | split | (with_reducible intro u x hu)
    | (with_reducible intro u hu) | dsimp only
    | (fail_if_no_progress refine ok_mk ?_ (by and_intros <;> first | with_reducible exact Or.inl rfl | exact Or.inr (by assumption)))

theorem commitEntry_ok (h : Ok kp zz s) {c : Nat} (kAfe : kp .afe = true := by assumption) (kRed : kp .red = true := by
    assumption) : Ok kp zz (commitEntry s c) := by
  unfold commitEntry
  repeat' first
    | with_reducible assumption | with_reducible apply entryTakesEffect_ok
    | (fail_if_no_progress refine ok_mk ?_ (by and_intros <;> first | with_reducible exact Or.inl rfl | exact Or.inr (by assumption)))

theorem commitCurve_ok (h : Ok kp zz s) {u : Nat} (kRed : kp .red = true := by assumption) : Ok kp zz (commitCurve s u) := by
  unfold commitCurve
  repeat' first
    | with_reducible assumption | with_reducible apply ok_ite | with_reducible apply raise_ok | with_reducible apply setFlag_ok
    | with_reducible apply setFld_ok
    | (fail_if_no_progress refine ok_mk ?_ (by and_intros <;> first | with_reducible exact Or.inl rfl | exact Or.inr (by assumption)))
    | split

theorem execCatalogueCommit_ok (h : Ok kp zz s) {curves : Bool} (kAccepted : kp .accepted = true := by assumption) : OkO kp zz
    (execCatalogueCommit curves s) := by
  unfold execCatalogueCommit
  repeat' first
    | with_reducible assumption | with_reducible apply okO_ite | with_reducible apply ok_ite | with_reducible apply accept_ok
    | with_reducible apply complete_ok | with_reducible apply done_ok | with_reducible apply reject_ok | split

theorem execSetSeq_ok (h : Ok kp zz s) {chan : Fin 256} (kAccepted : kp .accepted = true := by assumption) : OkO kp zz
    (execSetSeq chan s) := by
  unfold execSetSeq
  repeat' first
    | with_reducible assumption | with_reducible apply okO_ite | with_reducible apply ok_ite | with_reducible apply accept_ok
    | with_reducible apply done_ok | with_reducible apply refuse_ok | with_reducible apply reject_ok | split

theorem redCmdBoundary_ok (h : Ok kp zz s) (kAccepted : kp .accepted = true := by assumption) (kAfe : kp .afe = true := by
    assumption) (kRed : kp .red = true := by assumption) : Ok kp zz (redCmdBoundary s) := by
  unfold redCmdBoundary
  repeat' first
    | with_reducible assumption | with_reducible apply ok_ite | with_reducible apply commitCurve_ok
    | with_reducible apply commitEntry_ok | with_reducible apply complete_ok | with_reducible apply raise_ok
    | with_reducible apply setRedChan_ok | with_reducible apply ok_foldl | (with_reducible intro u x hu) | split

theorem execRedBp_ok (h : Ok kp zz s) {ofs : Nat} (kTbs : kp .tbs = true := by assumption) : OkO kp zz (execRedBp ofs s) := by
  unfold execRedBp
  try dsimp only
  repeat' first
    | with_reducible assumption | with_reducible apply okO_ite | with_reducible apply okO_next | with_reducible apply okO_fault
    | with_reducible apply okO_refused | with_reducible apply ok_ite | with_reducible apply addSat_ok
    | with_reducible apply atOfs_ok | with_reducible apply done_ok | with_reducible apply raise_ok
    | with_reducible apply setFlag_ok | with_reducible apply setFld_ok | split | (with_reducible intro u x hu)
    | (with_reducible intro u hu) | dsimp only
    | (fail_if_no_progress refine ok_mk ?_ (by and_intros <;> first | with_reducible exact Or.inl rfl | exact Or.inr (by assumption)))

theorem execBpStageExit_ok (h : Ok kp zz s) {ofs : Nat} (kFresh : kp .fresh = true := by assumption) (kMem : kp .mem = true :=
    by assumption) (kTbs : kp .tbs = true := by assumption) (kRed : kp .red = true := by assumption) (kCores : kp .cores =
    true := by assumption) (kDmc : kp .dmc = true := by assumption) : OkO kp zz (execBpStageExit ofs s) := by
  unfold execBpStageExit
  try dsimp only
  repeat' first
    | with_reducible assumption | with_reducible apply okO_ite | with_reducible apply okO_next | with_reducible apply okO_fault
    | with_reducible apply okO_refused | with_reducible apply ok_ite | with_reducible apply atOfs_ok
    | with_reducible apply dmcServe_ok | with_reducible apply done_ok | with_reducible apply drainFill_ok
    | with_reducible apply setFld_ok | split | (with_reducible intro u x hu) | (with_reducible intro u hu) | dsimp only
    | (fail_if_no_progress refine ok_mk ?_ (by and_intros <;> first | with_reducible exact Or.inl rfl | exact Or.inr (by assumption)))

end Sys2Proof.Machine
end

