-- ==== Sys2Proof/Laws/KeepOut.lean ====
section
/-!
SUPPORT. What the operations of Machine/Out.lean keep.
-/
namespace Sys2Proof.Machine
open Sys2Proof

set_option Elab.async false
set_option linter.unreachableTactic false
set_option linter.unusedTactic false
set_option linter.unusedVariables false

variable {kp : Comp → Bool} {zz s : State}

theorem setOut_ok (h : Ok kp zz s) {x : Outs} (kOut : kp .out = true := by assumption) : Ok kp zz (setOut x s) := by
  unfold setOut
  repeat' first
    | with_reducible assumption
    | (fail_if_no_progress refine ok_mk ?_ (by and_intros <;> first | with_reducible exact Or.inl rfl | exact Or.inr (by assumption)))

theorem setTrigBase_ok (h : Ok kp zz s) {j : Nat} {b : Bool} (kOut : kp .out = true := by assumption) : Ok kp zz (setTrigBase
    j b s) := by
  unfold setTrigBase
  repeat' first
    | with_reducible assumption | with_reducible apply setOut_ok

theorem startPulse_ok (h : Ok kp zz s) {j : Nat} {level : Bool} {ns : Nat} {order : Nat} (kOut : kp .out = true := by
    assumption) : Ok kp zz (startPulse j level ns order s) := by
  unfold startPulse
  repeat' first
    | with_reducible assumption | with_reducible apply setOut_ok

theorem execTrigOutPulseEnd_ok (h : Ok kp zz s) {j : Fin 4} {ofs : Nat} (kTbs : kp .tbs = true := by assumption) (kOut : kp
    .out = true := by assumption) : OkO kp zz (execTrigOutPulseEnd j ofs s) := by
  unfold execTrigOutPulseEnd
  repeat' first
    | with_reducible assumption | with_reducible apply atOfs_ok | with_reducible apply done_ok | with_reducible apply setOut_ok

theorem driveBus_ok (h : Ok kp zz s) {r : Nat} (kOut : kp .out = true := by assumption) : Ok kp zz (driveBus r s) := by
  unfold driveBus
  repeat' first
    | with_reducible assumption | with_reducible apply ok_ite | with_reducible apply setOut_ok | split

theorem execTrigBusPulseEnd_ok (h : Ok kp zz s) {r : Fin 64} {ofs : Nat} (kTbs : kp .tbs = true := by assumption) (kOut : kp
    .out = true := by assumption) : OkO kp zz (execTrigBusPulseEnd r ofs s) := by
  unfold execTrigBusPulseEnd
  repeat' first
    | with_reducible assumption | with_reducible apply okO_ite | with_reducible apply ok_ite | with_reducible apply atOfs_ok
    | with_reducible apply done_ok | with_reducible apply setOut_ok | split

theorem setAout_ok (h : Ok kp zz s) {j : Nat} {code : Int} : Ok kp zz (setAout j code s) := by
  unfold setAout
  repeat' first
    | with_reducible assumption | with_reducible apply setInt_ok

theorem setPwm_ok (h : Ok kp zz s) {j : Nat} {duty : Nat} : Ok kp zz (setPwm j duty s) := by
  unfold setPwm
  repeat' first
    | with_reducible assumption | with_reducible apply setFld_ok

theorem setInOrder_ok (h : Ok kp zz s) {kind : Nat} {j : Nat} {place : Nat} {f : State → State} (hf : ∀ u, Ok kp zz u → Ok kp
    zz (f u)) (kOut : kp .out = true := by assumption) : Ok kp zz (setInOrder kind j place f s) := by
  unfold setInOrder
  try dsimp only
  repeat' first
    | with_reducible assumption | with_reducible apply ok_ite | with_reducible apply setOut_ok | with_reducible apply hf | split
    | (with_reducible intro u x hu) | (with_reducible intro u hu) | dsimp only
    | (fail_if_no_progress refine ok_mk ?_ (by and_intros <;> first | with_reducible exact Or.inl rfl | exact Or.inr (by assumption)))

theorem outSoftware_ok (h : Ok kp zz s) (kOut : kp .out = true := by assumption) : Ok kp zz (outSoftware s) := by
  unfold outSoftware
  repeat' first
    | with_reducible assumption | with_reducible apply setAout_ok | with_reducible apply setFld_ok
    | with_reducible apply setOut_ok | with_reducible apply setPwm_ok | with_reducible apply ok_foldl
    | (with_reducible intro u x hu)

end Sys2Proof.Machine
end

