-- ==== Sys2Proof/Laws/KeepAcq.lean ====
section
/-!
SUPPORT. What the operations of Machine/Acq.lean keep.
-/
namespace Sys2Proof.Machine
open Sys2Proof

set_option Elab.async false
set_option linter.unreachableTactic false
set_option linter.unusedTactic false
set_option linter.unusedVariables false

variable {kp : Comp → Bool} {zz s : State}

theorem setAcq_ok (h : Ok kp zz s) {x : Acq} (kAcq : kp .acq = true := by assumption) : Ok kp zz (setAcq x s) := by
  unfold setAcq
  repeat' first
    | with_reducible assumption
    | (fail_if_no_progress refine ok_mk ?_ (by and_intros <;> first | with_reducible exact Or.inl rfl | exact Or.inr (by assumption)))

theorem setRing_ok (h : Ok kp zz s) {r : Nat} {x : Ring} (kAcq : kp .acq = true := by assumption) : Ok kp zz (setRing r x s)
    := by
  unfold setRing
  repeat' first
    | with_reducible assumption
    | (fail_if_no_progress refine ok_mk ?_ (by and_intros <;> first | with_reducible exact Or.inl rfl | exact Or.inr (by assumption)))

theorem setRingState_ok (h : Ok kp zz s) {r : Nat} {st : Nat} (kAcq : kp .acq = true := by assumption) : Ok kp zz
    (setRingState r st s) := by
  unfold setRingState
  repeat' first
    | with_reducible assumption | with_reducible apply setFld_ok | with_reducible apply setRing_ok

theorem armCompute_ok (h : Ok kp zz s) {r : Nat} : Ok kp zz (armCompute r s) := by
  unfold armCompute
  repeat' first
    | with_reducible assumption | with_reducible apply wr_ok

theorem execArm_ok (h : Ok kp zz s) {r : Fin 64} (kAccepted : kp .accepted = true := by assumption) : OkO kp zz (execArm r s)
    := by
  unfold execArm
  repeat' first
    | with_reducible assumption | with_reducible apply okO_ite | with_reducible apply ok_ite | with_reducible apply okO_fault
    | with_reducible apply accept_ok | with_reducible apply armCompute_ok | with_reducible apply done_ok
    | with_reducible apply refuse_ok | with_reducible apply reject_ok | split

theorem execDisarm_ok (h : Ok kp zz s) {r : Fin 64} (kAccepted : kp .accepted = true := by assumption) : OkO kp zz (execDisarm
    r s) := by
  unfold execDisarm
  repeat' first
    | with_reducible assumption | with_reducible apply okO_ite | with_reducible apply ok_ite | with_reducible apply accept_ok
    | with_reducible apply done_ok | with_reducible apply refuse_ok | with_reducible apply reject_ok | split

theorem execRingTriggerCmd_ok (h : Ok kp zz s) {r : Fin 64} (kAccepted : kp .accepted = true := by assumption) : OkO kp zz
    (execRingTriggerCmd r s) := by
  unfold execRingTriggerCmd
  repeat' first
    | with_reducible assumption | with_reducible apply okO_ite | with_reducible apply ok_ite | with_reducible apply accept_ok
    | with_reducible apply done_ok | with_reducible apply refuse_ok | with_reducible apply reject_ok | split

theorem armNow_ok (h : Ok kp zz s) {r : Nat} (kAcq : kp .acq = true := by assumption) : Ok kp zz (armNow r s) := by
  unfold armNow
  repeat' first
    | with_reducible assumption | with_reducible apply setRing_ok | with_reducible apply setRingState_ok

theorem setTrigIn_ok (h : Ok kp zz s) {i : Nat} {x : TrigIn} (kAcq : kp .acq = true := by assumption) : Ok kp zz (setTrigIn i
    x s) := by
  unfold setTrigIn
  repeat' first
    | with_reducible assumption
    | (fail_if_no_progress refine ok_mk ?_ (by and_intros <;> first | with_reducible exact Or.inl rfl | exact Or.inr (by assumption)))

theorem offerStamp_ok (h : Ok kp zz s) {src : Nat} {idx : Nat} {st : Nat} {chosen : Nat → Bool} : Ok kp zz (offerStamp src idx
    st chosen s) := by
  unfold offerStamp
  repeat' first
    | with_reducible assumption | with_reducible apply offer_ok | with_reducible apply ok_foldl | (with_reducible intro u x hu)

theorem selectedEdge_ok (h : Ok kp zz s) {i : Nat} {delay : Nat} {hold : Nat} {own : Bool} {chosen : Nat → Bool} (kAcq : kp
    .acq = true := by assumption) (kTwin : kp .twin = true := by assumption) : Ok kp zz (selectedEdge i delay hold own chosen
    s) := by
  unfold selectedEdge
  repeat' first
    | with_reducible assumption | with_reducible apply ok_ite | with_reducible apply addSat_ok | with_reducible apply count_ok
    | with_reducible apply offerStamp_ok | with_reducible apply setTrigIn_ok
    | (fail_if_no_progress refine ok_mk ?_ (by and_intros <;> first | with_reducible exact Or.inl rfl | exact Or.inr (by assumption)))
    | split

theorem execTrigInEdge_ok (h : Ok kp zz s) {p : Fin 8} {ofs : Nat} {delay : Nat} {high : Bool} (kTbs : kp .tbs = true := by
    assumption) (kAcq : kp .acq = true := by assumption) (kTwin : kp .twin = true := by assumption) : OkO kp zz
    (execTrigInEdge p ofs delay high s) := by
  unfold execTrigInEdge
  try dsimp only
  repeat' first
    | with_reducible assumption | with_reducible apply okO_ite | with_reducible apply okO_next | with_reducible apply okO_fault
    | with_reducible apply okO_refused | with_reducible apply ok_ite | with_reducible apply atOfs_ok
    | with_reducible apply done_ok | with_reducible apply selectedEdge_ok | with_reducible apply whileAwake_ok | split
    | (with_reducible intro u x hu) | (with_reducible intro u hu) | dsimp only
    | (fail_if_no_progress refine ok_mk ?_ (by and_intros <;> first | with_reducible exact Or.inl rfl | exact Or.inr (by assumption)))

theorem execTrigBusEdge_ok (h : Ok kp zz s) {ofs : Nat} {delay : Nat} (kTbs : kp .tbs = true := by assumption) (kOut : kp .out
    = true := by assumption) (kAcq : kp .acq = true := by assumption) (kTwin : kp .twin = true := by assumption) : OkO kp zz
    (execTrigBusEdge ofs delay s) := by
  unfold execTrigBusEdge
  try dsimp only
  repeat' first
    | with_reducible assumption | with_reducible apply okO_ite | with_reducible apply okO_next | with_reducible apply okO_fault
    | with_reducible apply okO_refused | with_reducible apply ok_ite | with_reducible apply atOfs_ok
    | with_reducible apply done_ok | with_reducible apply selectedEdge_ok | with_reducible apply setOut_ok
    | with_reducible apply whileAwake_ok | split | (with_reducible intro u x hu) | (with_reducible intro u hu) | dsimp only
    | (fail_if_no_progress refine ok_mk ?_ (by and_intros <;> first | with_reducible exact Or.inl rfl | exact Or.inr (by assumption)))

theorem copyRow_ok (h : Ok kp zz s) {n : Nat} {cap : Nat} {x : Ring} {f : Folio} {l : Nat} {row : List Byte} (kFresh : kp
    .fresh = true := by assumption) (kMem : kp .mem = true := by assumption) (kRed : kp .red = true := by assumption) (kCores
    : kp .cores = true := by assumption) (kDmc : kp .dmc = true := by assumption) : Ok kp zz (copyRow n cap x f l row s) := by
  unfold copyRow
  try dsimp only
  repeat' first
    | with_reducible assumption | with_reducible apply ok_ite | with_reducible apply captureWrite_ok | split
    | (with_reducible intro u x hu) | (with_reducible intro u hu) | dsimp only
    | (fail_if_no_progress refine ok_mk ?_ (by and_intros <;> first | with_reducible exact Or.inl rfl | exact Or.inr (by assumption)))

theorem captureRead_ok (h : Ok kp zz s) {n : Nat} {a : Nat} (kFresh : kp .fresh = true := by assumption) (kMem : kp .mem =
    true := by assumption) (kCores : kp .cores = true := by assumption) (kDmc : kp .dmc = true := by assumption) : Ok kp zz
    (captureRead n a s).2 := by
  unfold captureRead
  repeat' first
    | with_reducible assumption | with_reducible apply ok_ite2 | with_reducible assumption | with_reducible apply ok_ite
    | with_reducible apply engineRead_ok | split | (with_reducible intro u x hu) | (with_reducible intro u hu) | dsimp only
    | (fail_if_no_progress refine ok_mk ?_ (by and_intros <;> first | with_reducible exact Or.inl rfl | exact Or.inr (by assumption)))

theorem copyRecord_ok (h : Ok kp zz s) {n : Nat} {z : Nat} {j : Nat} {k : Nat} {f : Folio} {q : Rec} (kFresh : kp .fresh =
    true := by assumption) (kMem : kp .mem = true := by assumption) (kRed : kp .red = true := by assumption) (kCores : kp
    .cores = true := by assumption) (kDmc : kp .dmc = true := by assumption) : Ok kp zz (copyRecord n z j k f q s) := by
  unfold copyRecord
  repeat' first
    | with_reducible assumption | with_reducible apply ok_ite | with_reducible apply captureStore_ok | split
    | (with_reducible intro u x hu) | (with_reducible intro u hu) | dsimp only
    | (fail_if_no_progress refine ok_mk ?_ (by and_intros <;> first | with_reducible exact Or.inl rfl | exact Or.inr (by assumption)))

theorem copyHeld_ok (h : Ok kp zz s) {r : Nat} {f : Folio} (kFresh : kp .fresh = true := by assumption) (kMem : kp .mem = true
    := by assumption) (kRed : kp .red = true := by assumption) (kCores : kp .cores = true := by assumption) (kDmc : kp .dmc =
    true := by assumption) : Ok kp zz (copyHeld r f s) := by
  unfold copyHeld
  try dsimp only
  repeat' first
    | with_reducible assumption | with_reducible apply ok_ite2 | with_reducible assumption | with_reducible apply ok_ite
    | with_reducible apply captureRead_ok | with_reducible apply copyRecord_ok | with_reducible apply copyRow_ok
    | with_reducible apply ok_foldl_snd | with_reducible apply ok_foldl | split | (with_reducible intro u x hu)
    | (with_reducible intro u hu) | dsimp only
    | (fail_if_no_progress refine ok_mk ?_ (by and_intros <;> first | with_reducible exact Or.inl rfl | exact Or.inr (by assumption)))

theorem assignSlot_ok (h : Ok kp zz s) {r : Nat} {k : Nat} {reuse : Bool} (kFresh : kp .fresh = true := by assumption) (kMem :
    kp .mem = true := by assumption) (kRed : kp .red = true := by assumption) (kAcq : kp .acq = true := by assumption) (kCores
    : kp .cores = true := by assumption) (kDmc : kp .dmc = true := by assumption) : Ok kp zz (assignSlot r k reuse s) := by
  unfold assignSlot
  try dsimp only
  repeat' first
    | with_reducible assumption | with_reducible apply ok_ite2 | with_reducible assumption | with_reducible apply ok_ite
    | with_reducible apply captureRead_ok | with_reducible apply captureStore_ok | with_reducible apply setFld_ok
    | with_reducible apply setRing_ok | split | (with_reducible intro u x hu) | (with_reducible intro u hu) | dsimp only
    | (fail_if_no_progress refine ok_mk ?_ (by and_intros <;> first | with_reducible exact Or.inl rfl | exact Or.inr (by assumption)))

theorem miss_ok (h : Ok kp zz s) {r : Nat} {reason : Nat} {o : Offer} (kAcq : kp .acq = true := by assumption) : Ok kp zz
    (miss r reason o s) := by
  unfold miss
  repeat' first
    | with_reducible assumption | with_reducible apply ok_ite | with_reducible apply addMod_ok | with_reducible apply addSat_ok
    | with_reducible apply count_ok | with_reducible apply raise_ok | with_reducible apply setFld_ok
    | with_reducible apply setRing_ok | with_reducible apply wr_ok | split

theorem takeTrigger_ok (h : Ok kp zz s) {r : Nat} {o : Offer} (kFresh : kp .fresh = true := by assumption) (kMem : kp .mem =
    true := by assumption) (kRed : kp .red = true := by assumption) (kOut : kp .out = true := by assumption) (kAcq : kp .acq =
    true := by assumption) (kCores : kp .cores = true := by assumption) (kDmc : kp .dmc = true := by assumption) : Ok kp zz
    (takeTrigger r o s) := by
  unfold takeTrigger
  try dsimp only
  repeat' first
    | with_reducible assumption | with_reducible apply ok_ite | with_reducible apply assignSlot_ok
    | with_reducible apply copyHeld_ok | with_reducible apply driveBus_ok | with_reducible apply miss_ok
    | with_reducible apply setRing_ok | with_reducible apply setRingState_ok | with_reducible apply startPulse_ok | split
    | (with_reducible intro u x hu) | (with_reducible intro u hu) | dsimp only
    | (fail_if_no_progress refine ok_mk ?_ (by and_intros <;> first | with_reducible exact Or.inl rfl | exact Or.inr (by assumption)))

theorem nestTrigger_ok (h : Ok kp zz s) {r : Nat} {o : Offer} (kAcq : kp .acq = true := by assumption) : Ok kp zz (nestTrigger
    r o s) := by
  unfold nestTrigger
  try dsimp only
  repeat' first
    | with_reducible assumption | with_reducible apply ok_ite | with_reducible apply addSat_ok | with_reducible apply raiseIf_ok
    | with_reducible apply setFlag_ok | with_reducible apply setRing_ok | split | (with_reducible intro u x hu)
    | (with_reducible intro u hu) | dsimp only
    | (fail_if_no_progress refine ok_mk ?_ (by and_intros <;> first | with_reducible exact Or.inl rfl | exact Or.inr (by assumption)))

theorem closeWindow_ok (h : Ok kp zz s) {r : Nat} {o : Offer} (kAcq : kp .acq = true := by assumption) : Ok kp zz (closeWindow
    r o s) := by
  unfold closeWindow
  try dsimp only
  repeat' first
    | with_reducible assumption | with_reducible apply ok_ite | with_reducible apply setRing_ok
    | with_reducible apply setRingState_ok | split | (with_reducible intro u x hu) | (with_reducible intro u hu) | dsimp only
    | (fail_if_no_progress refine ok_mk ?_ (by and_intros <;> first | with_reducible exact Or.inl rfl | exact Or.inr (by assumption)))

theorem handleTrigger_ok (h : Ok kp zz s) {r : Nat} {o : Offer} (kFresh : kp .fresh = true := by assumption) (kMem : kp .mem =
    true := by assumption) (kRed : kp .red = true := by assumption) (kOut : kp .out = true := by assumption) (kAcq : kp .acq =
    true := by assumption) (kCores : kp .cores = true := by assumption) (kDmc : kp .dmc = true := by assumption) : Ok kp zz
    (handleTrigger r s o) := by
  unfold handleTrigger
  repeat' first
    | with_reducible assumption | with_reducible apply ok_ite | with_reducible apply closeWindow_ok
    | with_reducible apply miss_ok | with_reducible apply nestTrigger_ok | with_reducible apply takeTrigger_ok | split

theorem handleArrivals_ok (h : Ok kp zz s) {r : Nat} (kFresh : kp .fresh = true := by assumption) (kMem : kp .mem = true := by
    assumption) (kRed : kp .red = true := by assumption) (kOut : kp .out = true := by assumption) (kAcq : kp .acq = true := by
    assumption) (kCores : kp .cores = true := by assumption) (kDmc : kp .dmc = true := by assumption) : Ok kp zz
    (handleArrivals r s) := by
  unfold handleArrivals
  repeat' first
    | with_reducible assumption | with_reducible apply handleTrigger_ok | with_reducible apply ok_foldl
    | (with_reducible intro u x hu)
    | (fail_if_no_progress refine ok_mk ?_ (by and_intros <;> first | with_reducible exact Or.inl rfl | exact Or.inr (by assumption)))

theorem rawData_ok (h : Ok kp zz s) {r : Nat} {first : Nat} {last : Nat} (kFresh : kp .fresh = true := by assumption) (kMem :
    kp .mem = true := by assumption) (kCores : kp .cores = true := by assumption) (kDmc : kp .dmc = true := by assumption) :
    Ok kp zz (rawData r first last s).2 := by
  unfold rawData
  try dsimp only
  repeat' first
    | with_reducible assumption | with_reducible apply ok_ite2 | with_reducible assumption | with_reducible apply ok_ite
    | with_reducible apply captureRead_ok | with_reducible apply ok_foldl_snd | with_reducible apply ok_foldl | split
    | (with_reducible intro u x hu) | (with_reducible intro u hu) | dsimp only
    | (fail_if_no_progress refine ok_mk ?_ (by and_intros <;> first | with_reducible exact Or.inl rfl | exact Or.inr (by assumption)))

theorem writeBlock_ok {base z : Nat} {forced : Bool} {i : Nat} {l : List Rec} (h : Ok kp zz s) (kFresh : kp .fresh = true := by assumption) (kMem : kp .mem = true := by assumption) (kRed : kp .red = true := by assumption) (kCores : kp .cores = true := by assumption) (kDmc : kp .dmc = true := by assumption) :
    Ok kp zz (writeBlock base z forced i l s) := by
  induction l generalizing i s with
  | nil => exact h
  | cons q t ih => exact ih (captureStore_ok h)

theorem finishData_ok (h : Ok kp zz s) {r : Nat} {f0 : Folio} {f : Folio} (kFresh : kp .fresh = true := by assumption) (kMem :
    kp .mem = true := by assumption) (kRed : kp .red = true := by assumption) (kCores : kp .cores = true := by assumption)
    (kDmc : kp .dmc = true := by assumption) : Ok kp zz (finishData r f0 f s) := by
  unfold finishData
  try dsimp only
  repeat' first
    | with_reducible assumption | with_reducible apply ok_ite2 | with_reducible assumption | with_reducible apply ok_ite
    | with_reducible apply captureWrite_ok | with_reducible apply rawData_ok | with_reducible apply writeBlock_ok
    | with_reducible apply ok_foldl_snd | with_reducible apply ok_foldl | split | (with_reducible intro u x hu)
    | (with_reducible intro u hu) | dsimp only
    | (fail_if_no_progress refine ok_mk ?_ (by and_intros <;> first | with_reducible exact Or.inl rfl | exact Or.inr (by assumption)))

theorem writeFolio_ok (h : Ok kp zz s) {r : Nat} {f0 : Folio} {f : Folio} (kFresh : kp .fresh = true := by assumption) (kMem :
    kp .mem = true := by assumption) (kRed : kp .red = true := by assumption) (kCores : kp .cores = true := by assumption)
    (kDmc : kp .dmc = true := by assumption) : Ok kp zz (writeFolio r f0 f s) := by
  unfold writeFolio
  try dsimp only
  repeat' first
    | with_reducible assumption | with_reducible apply ok_ite2 | with_reducible assumption | with_reducible apply ok_ite
    | with_reducible apply captureStore_ok | with_reducible apply captureWrite_ok | with_reducible apply finishData_ok | split
    | (with_reducible intro u x hu) | (with_reducible intro u hu) | dsimp only
    | (fail_if_no_progress refine ok_mk ?_ (by and_intros <;> first | with_reducible exact Or.inl rfl | exact Or.inr (by assumption)))

theorem finishFill_ok (h : Ok kp zz s) {r : Nat} {f0 : Folio} {f : Folio} (kFresh : kp .fresh = true := by assumption)
    (kAccepted : kp .accepted = true := by assumption) (kMem : kp .mem = true := by assumption) (kRed : kp .red = true := by
    assumption) (kAcq : kp .acq = true := by assumption) (kCores : kp .cores = true := by assumption) (kDmc : kp .dmc = true
    := by assumption) : Ok kp zz (finishFill r f0 f s) := by
  unfold finishFill
  try dsimp only
  repeat' first
    | with_reducible assumption | with_reducible apply ok_ite | with_reducible apply complete_ok
    | with_reducible apply setRing_ok | with_reducible apply setRingState_ok | with_reducible apply writeFolio_ok | split
    | (with_reducible intro u x hu) | (with_reducible intro u hu) | dsimp only
    | (fail_if_no_progress refine ok_mk ?_ (by and_intros <;> first | with_reducible exact Or.inl rfl | exact Or.inr (by assumption)))

theorem completeFill_ok (h : Ok kp zz s) {r : Nat} (kFresh : kp .fresh = true := by assumption) (kAccepted : kp .accepted =
    true := by assumption) (kMem : kp .mem = true := by assumption) (kRed : kp .red = true := by assumption) (kAcq : kp .acq =
    true := by assumption) (kCores : kp .cores = true := by assumption) (kDmc : kp .dmc = true := by assumption) : Ok kp zz
    (completeFill r s) := by
  unfold completeFill
  repeat' first
    | with_reducible assumption | with_reducible apply ok_ite | with_reducible apply finishFill_ok | split
    | (with_reducible intro u x hu) | (with_reducible intro u hu) | dsimp only
    | (fail_if_no_progress refine ok_mk ?_ (by and_intros <;> first | with_reducible exact Or.inl rfl | exact Or.inr (by assumption)))

theorem fillNow_ok (h : Ok kp zz s) {r : Nat} (kFresh : kp .fresh = true := by assumption) (kAccepted : kp .accepted = true :=
    by assumption) (kMem : kp .mem = true := by assumption) (kRed : kp .red = true := by assumption) (kAcq : kp .acq = true :=
    by assumption) (kCores : kp .cores = true := by assumption) (kDmc : kp .dmc = true := by assumption) : Ok kp zz (fillNow r
    s) := by
  unfold fillNow
  repeat' first
    | with_reducible assumption | with_reducible apply ok_ite | with_reducible apply completeFill_ok | split
    | (with_reducible intro u x hu) | (with_reducible intro u hu) | dsimp only
    | (fail_if_no_progress refine ok_mk ?_ (by and_intros <;> first | with_reducible exact Or.inl rfl | exact Or.inr (by assumption)))

theorem advanceRing_ok (h : Ok kp zz s) {r : Nat} (kFresh : kp .fresh = true := by assumption) (kAccepted : kp .accepted =
    true := by assumption) (kMem : kp .mem = true := by assumption) (kRed : kp .red = true := by assumption) (kAcq : kp .acq =
    true := by assumption) (kCores : kp .cores = true := by assumption) (kDmc : kp .dmc = true := by assumption) : Ok kp zz
    (advanceRing r s) := by
  unfold advanceRing
  try dsimp only
  repeat' first
    | with_reducible assumption | with_reducible apply ok_ite | with_reducible apply fillNow_ok
    | with_reducible apply setRingState_ok | split | (with_reducible intro u x hu) | (with_reducible intro u hu) | dsimp only
    | (fail_if_no_progress refine ok_mk ?_ (by and_intros <;> first | with_reducible exact Or.inl rfl | exact Or.inr (by assumption)))

theorem execPostFillComplete_ok (h : Ok kp zz s) {r : Fin 64} (kFresh : kp .fresh = true := by assumption) (kAccepted : kp
    .accepted = true := by assumption) (kMem : kp .mem = true := by assumption) (kRed : kp .red = true := by assumption) (kAcq
    : kp .acq = true := by assumption) (kCores : kp .cores = true := by assumption) (kDmc : kp .dmc = true := by assumption) :
    OkO kp zz (execPostFillComplete r s) := by
  unfold execPostFillComplete
  repeat' first
    | with_reducible assumption | with_reducible apply okO_ite | with_reducible apply okO_next | with_reducible apply okO_fault
    | with_reducible apply okO_refused | with_reducible apply ok_ite | with_reducible apply done_ok
    | with_reducible apply fillNow_ok | split | (with_reducible intro u x hu) | (with_reducible intro u hu) | dsimp only
    | (fail_if_no_progress refine ok_mk ?_ (by and_intros <;> first | with_reducible exact Or.inl rfl | exact Or.inr (by assumption)))

theorem execRearmEnd_ok (h : Ok kp zz s) {r : Fin 64} (kAcq : kp .acq = true := by assumption) : OkO kp zz (execRearmEnd r s)
    := by
  unfold execRearmEnd
  repeat' first
    | with_reducible assumption | with_reducible apply okO_ite | with_reducible apply ok_ite | with_reducible apply done_ok
    | with_reducible apply setRingState_ok | split

theorem execRingTriggerArrival_ok (h : Ok kp zz s) {r : Fin 64} (kFresh : kp .fresh = true := by assumption) (kAccepted : kp
    .accepted = true := by assumption) (kMem : kp .mem = true := by assumption) (kRed : kp .red = true := by assumption) (kOut
    : kp .out = true := by assumption) (kAcq : kp .acq = true := by assumption) (kCores : kp .cores = true := by assumption)
    (kDmc : kp .dmc = true := by assumption) : OkO kp zz (execRingTriggerArrival r s) := by
  unfold execRingTriggerArrival
  repeat' first
    | with_reducible assumption | with_reducible apply advanceRing_ok | with_reducible apply done_ok
    | with_reducible apply handleArrivals_ok

theorem execAcqForced_ok (h : Ok kp zz s) {r : Fin 64} (kFresh : kp .fresh = true := by assumption) (kMem : kp .mem = true :=
    by assumption) (kRed : kp .red = true := by assumption) (kOut : kp .out = true := by assumption) (kAcq : kp .acq = true :=
    by assumption) (kCores : kp .cores = true := by assumption) (kDmc : kp .dmc = true := by assumption) : OkO kp zz
    (execAcqForced r s) := by
  unfold execAcqForced
  repeat' first
    | with_reducible assumption | with_reducible apply okO_ite | with_reducible apply ok_ite | with_reducible apply done_ok
    | with_reducible apply handleArrivals_ok | with_reducible apply offer_ok | with_reducible apply raise_ok
    | with_reducible apply setRing_ok | split

theorem execAcqFolio_ok (h : Ok kp zz s) {r : Fin 64} (kFresh : kp .fresh = true := by assumption) (kMem : kp .mem = true :=
    by assumption) (kRed : kp .red = true := by assumption) (kAcq : kp .acq = true := by assumption) (kCores : kp .cores =
    true := by assumption) (kDmc : kp .dmc = true := by assumption) : OkO kp zz (execAcqFolio r s) := by
  unfold execAcqFolio
  try dsimp only
  repeat' first
    | with_reducible assumption | with_reducible apply okO_ite | with_reducible apply okO_next | with_reducible apply okO_fault
    | with_reducible apply okO_refused | with_reducible apply ok_ite | with_reducible apply captureStore_ok
    | with_reducible apply done_ok | (refine (done_ok ?_) _ (by assumption)) | with_reducible apply raise_ok
    | with_reducible apply raiseChosen_ok | with_reducible apply setRing_ok | with_reducible apply wr_ok | split
    | (with_reducible intro u x hu) | (with_reducible intro u hu) | dsimp only
    | (fail_if_no_progress refine ok_mk ?_ (by and_intros <;> first | with_reducible exact Or.inl rfl | exact Or.inr (by assumption)))

theorem releaseSlots_ok (h : Ok kp zz s) {r : Nat} {w : Word} : Ok kp zz (releaseSlots r w s) := by
  unfold releaseSlots
  repeat' first
    | with_reducible assumption | with_reducible apply ok_ite | with_reducible apply setFld_ok | with_reducible apply ok_foldl
    | (with_reducible intro u x hu) | split

theorem execFolioSlotRelease_ok (h : Ok kp zz s) {r : Fin 64} {bits : Word} : OkO kp zz (execFolioSlotRelease r bits s) := by
  unfold execFolioSlotRelease
  repeat' first
    | with_reducible assumption | with_reducible apply done_ok | with_reducible apply releaseSlots_ok

theorem disarmNow_ok (h : Ok kp zz s) {r : Nat} (kAccepted : kp .accepted = true := by assumption) (kAcq : kp .acq = true :=
    by assumption) : Ok kp zz (disarmNow r s) := by
  unfold disarmNow
  repeat' first
    | with_reducible assumption | with_reducible apply ok_ite | with_reducible apply complete_ok
    | with_reducible apply setRing_ok | with_reducible apply setRingState_ok | split

theorem ringCmdBoundary_ok (h : Ok kp zz s) {r : Nat} (kFresh : kp .fresh = true := by assumption) (kAccepted : kp .accepted =
    true := by assumption) (kMem : kp .mem = true := by assumption) (kRed : kp .red = true := by assumption) (kAcq : kp .acq =
    true := by assumption) (kCores : kp .cores = true := by assumption) (kDmc : kp .dmc = true := by assumption) : Ok kp zz
    (ringCmdBoundary s r) := by
  unfold ringCmdBoundary
  repeat' first
    | with_reducible assumption | with_reducible apply ok_ite | with_reducible apply advanceRing_ok
    | with_reducible apply armNow_ok | with_reducible apply complete_ok | with_reducible apply disarmNow_ok
    | with_reducible apply offer_ok | split

theorem autoBoundary_ok (h : Ok kp zz s) {r : Nat} (kAcq : kp .acq = true := by assumption) : Ok kp zz (autoBoundary s r) :=
    by
  unfold autoBoundary
  repeat' first
    | with_reducible assumption | with_reducible apply ok_ite | with_reducible apply setRing_ok | split

theorem acqBoundary_ok (h : Ok kp zz s) (kFresh : kp .fresh = true := by assumption) (kAccepted : kp .accepted = true := by
    assumption) (kMem : kp .mem = true := by assumption) (kRed : kp .red = true := by assumption) (kAcq : kp .acq = true := by
    assumption) (kCores : kp .cores = true := by assumption) (kDmc : kp .dmc = true := by assumption) : Ok kp zz (acqBoundary
    s) := by
  unfold acqBoundary
  try dsimp only
  repeat' first
    | with_reducible assumption | with_reducible apply ok_ite | with_reducible apply autoBoundary_ok
    | with_reducible apply noteTallies_ok | with_reducible apply ringCmdBoundary_ok | with_reducible apply ok_foldl_snd
    | with_reducible apply ok_foldl | split | (with_reducible intro u x hu) | (with_reducible intro u hu) | dsimp only
    | (fail_if_no_progress refine ok_mk ?_ (by and_intros <;> first | with_reducible exact Or.inl rfl | exact Or.inr (by assumption)))

theorem storeLap_ok (h : Ok kp zz s) {l : Nat} {b : Nat} {code : Nat → Int} {flags : Nat → Nat} {r : Nat} (kFresh : kp .fresh
    = true := by assumption) (kAccepted : kp .accepted = true := by assumption) (kMem : kp .mem = true := by assumption) (kRed
    : kp .red = true := by assumption) (kAcq : kp .acq = true := by assumption) (kCores : kp .cores = true := by assumption)
    (kDmc : kp .dmc = true := by assumption) : Ok kp zz (storeLap l b code flags s r) := by
  unfold storeLap
  try dsimp only
  repeat' first
    | with_reducible assumption | with_reducible apply ok_ite2 | with_reducible assumption | with_reducible apply ok_ite
    | with_reducible apply captureWrite_ok | with_reducible apply copyRow_ok | with_reducible apply fillNow_ok
    | with_reducible apply setRing_ok | with_reducible apply ok_foldl_snd | with_reducible apply ok_foldl | split
    | (with_reducible intro u x hu) | (with_reducible intro u hu) | dsimp only
    | (fail_if_no_progress refine ok_mk ?_ (by and_intros <;> first | with_reducible exact Or.inl rfl | exact Or.inr (by assumption)))

theorem storeShelf_ok (h : Ok kp zz s) {q : Rec} {j : Nat} {r : Nat} (kFresh : kp .fresh = true := by assumption) (kMem : kp
    .mem = true := by assumption) (kRed : kp .red = true := by assumption) (kAcq : kp .acq = true := by assumption) (kCores :
    kp .cores = true := by assumption) (kDmc : kp .dmc = true := by assumption) : Ok kp zz (storeShelf q j s r) := by
  unfold storeShelf
  try dsimp only
  repeat' first
    | with_reducible assumption | with_reducible apply ok_ite | with_reducible apply captureStore_ok
    | with_reducible apply copyRecord_ok | with_reducible apply count_ok | with_reducible apply setRing_ok | split
    | (with_reducible intro u x hu) | (with_reducible intro u hu) | dsimp only
    | (fail_if_no_progress refine ok_mk ?_ (by and_intros <;> first | with_reducible exact Or.inl rfl | exact Or.inr (by assumption)))

theorem storeExit_ok (h : Ok kp zz s) {q : Rec} {r : Nat} (kAcq : kp .acq = true := by assumption) : Ok kp zz (storeExit q s
    r) := by
  unfold storeExit
  repeat' first
    | with_reducible assumption | with_reducible apply ok_ite | with_reducible apply offer_ok | with_reducible apply setRing_ok
    | split

theorem storeRecord_ok (h : Ok kp zz s) {q : Rec} {r : Nat} (kFresh : kp .fresh = true := by assumption) (kAccepted : kp
    .accepted = true := by assumption) (kMem : kp .mem = true := by assumption) (kRed : kp .red = true := by assumption) (kAcq
    : kp .acq = true := by assumption) (kCores : kp .cores = true := by assumption) (kDmc : kp .dmc = true := by assumption) :
    Ok kp zz (storeRecord q s r) := by
  unfold storeRecord
  try dsimp only
  repeat' first
    | with_reducible assumption | with_reducible apply ok_ite | with_reducible apply fillNow_ok
    | with_reducible apply storeExit_ok | with_reducible apply storeShelf_ok | split | (with_reducible intro u x hu)
    | (with_reducible intro u hu) | dsimp only
    | (fail_if_no_progress refine ok_mk ?_ (by and_intros <;> first | with_reducible exact Or.inl rfl | exact Or.inr (by assumption)))

end Sys2Proof.Machine
end

