-- ==== Sys2Proof/Laws/KeepCtl.lean ====
section
/-!
SUPPORT. What the operations of Machine/Ctl.lean keep.
-/
namespace Sys2Proof.Machine
open Sys2Proof

set_option Elab.async false
set_option linter.unreachableTactic false
set_option linter.unusedTactic false
set_option linter.unusedVariables false

variable {kp : Comp → Bool} {zz s : State}

theorem setCtl_ok (h : Ok kp zz s) {x : Ctl} (kCtl : kp .ctl = true := by assumption) : Ok kp zz (setCtl x s) := by
  unfold setCtl
  repeat' first
    | with_reducible assumption
    | (fail_if_no_progress refine ok_mk ?_ (by and_intros <;> first | with_reducible exact Or.inl rfl | exact Or.inr (by assumption)))

theorem setLoopRun_ok (h : Ok kp zz s) {n : Nat} {x : LoopRun} (kCtl : kp .ctl = true := by assumption) : Ok kp zz (setLoopRun
    n x s) := by
  unfold setLoopRun
  repeat' first
    | with_reducible assumption
    | (fail_if_no_progress refine ok_mk ?_ (by and_intros <;> first | with_reducible exact Or.inl rfl | exact Or.inr (by assumption)))

theorem setLoopState_ok (h : Ok kp zz s) {n : Nat} {st : Nat} : Ok kp zz (setLoopState n st s) := by
  unfold setLoopState
  repeat' first
    | with_reducible assumption | with_reducible apply setFld_ok

theorem showGroup_ok (h : Ok kp zz s) {g : Nat} : Ok kp zz (showGroup s g) := by
  unfold showGroup
  repeat' first
    | with_reducible assumption | with_reducible apply setFlag_ok | with_reducible apply setFld_ok | with_reducible apply wr_ok

theorem startLoop_ok (h : Ok kp zz s) {n : Nat} (kCtl : kp .ctl = true := by assumption) : Ok kp zz (startLoop n s) := by
  unfold startLoop
  repeat' first
    | with_reducible assumption | with_reducible apply setFlag_ok | with_reducible apply setFld_ok
    | with_reducible apply setLoopRun_ok | with_reducible apply setLoopState_ok

theorem stopLoop_ok (h : Ok kp zz s) {n : Nat} (kCtl : kp .ctl = true := by assumption) : Ok kp zz (stopLoop n s) := by
  unfold stopLoop
  try dsimp only
  repeat' first
    | with_reducible assumption | with_reducible apply ok_ite | with_reducible apply setCtl_ok | with_reducible apply setFlag_ok
    | with_reducible apply setLoopState_ok | split | (with_reducible intro u x hu) | (with_reducible intro u hu) | dsimp only
    | (fail_if_no_progress refine ok_mk ?_ (by and_intros <;> first | with_reducible exact Or.inl rfl | exact Or.inr (by assumption)))

theorem commitLoop_ok (h : Ok kp zz s) {n : Nat} (kCtl : kp .ctl = true := by assumption) : Ok kp zz (commitLoop s n) := by
  unfold commitLoop
  repeat' first
    | with_reducible assumption | with_reducible apply ok_ite2 | with_reducible apply ok_ite | with_reducible apply setCtl_ok
    | with_reducible apply startLoop_ok | with_reducible apply stopLoop_ok | split

theorem execLoopCommitCmd_ok (h : Ok kp zz s) (kAccepted : kp .accepted = true := by assumption) : OkO kp zz
    (execLoopCommitCmd s) := by
  unfold execLoopCommitCmd
  repeat' first
    | with_reducible assumption | with_reducible apply okO_ite | with_reducible apply ok_ite | with_reducible apply accept_ok
    | with_reducible apply done_ok | with_reducible apply reject_ok | split

theorem execLoopResume_ok (h : Ok kp zz s) {n : Fin 32} (kAccepted : kp .accepted = true := by assumption) : OkO kp zz
    (execLoopResume n s) := by
  unfold execLoopResume
  repeat' first
    | with_reducible assumption | with_reducible apply okO_ite | with_reducible apply ok_ite | with_reducible apply accept_ok
    | with_reducible apply done_ok | with_reducible apply refuse_ok | with_reducible apply reject_ok | split

theorem execTestStart_ok (h : Ok kp zz s) (kAccepted : kp .accepted = true := by assumption) : OkO kp zz (execTestStart s) :=
    by
  unfold execTestStart
  repeat' first
    | with_reducible assumption | with_reducible apply okO_ite | with_reducible apply ok_ite | with_reducible apply accept_ok
    | with_reducible apply done_ok | with_reducible apply refuse_ok | with_reducible apply reject_ok | split

theorem execTestStop_ok (h : Ok kp zz s) (kAccepted : kp .accepted = true := by assumption) : OkO kp zz (execTestStop s) := by
  unfold execTestStop
  repeat' first
    | with_reducible assumption | with_reducible apply okO_ite | with_reducible apply ok_ite | with_reducible apply accept_ok
    | with_reducible apply done_ok | with_reducible apply refuse_ok | with_reducible apply reject_ok | split

theorem startTest_ok (h : Ok kp zz s) (kCtl : kp .ctl = true := by assumption) : Ok kp zz (startTest s) := by
  unfold startTest
  repeat' first
    | with_reducible assumption | with_reducible apply setCtl_ok | with_reducible apply wr_ok

theorem stopTest_ok (h : Ok kp zz s) : Ok kp zz (stopTest s) := by
  unfold stopTest
  repeat' first
    | with_reducible assumption | with_reducible apply raise_ok | with_reducible apply setFlag_ok

theorem execCtlTestEnd_ok (h : Ok kp zz s) : OkO kp zz (execCtlTestEnd s) := by
  unfold execCtlTestEnd
  repeat' first
    | with_reducible assumption | with_reducible apply okO_ite | with_reducible apply ok_ite | with_reducible apply done_ok
    | with_reducible apply stopTest_ok | split

theorem resumeLoop_ok (h : Ok kp zz s) {n : Nat} (kCtl : kp .ctl = true := by assumption) : Ok kp zz (resumeLoop n s) := by
  unfold resumeLoop
  repeat' first
    | with_reducible assumption | with_reducible apply setFlag_ok | with_reducible apply setFld_ok
    | with_reducible apply setLoopRun_ok | with_reducible apply setLoopState_ok

theorem execSetpointWrite_ok (h : Ok kp zz s) {n : Fin 32} {value : Word} (kCtl : kp .ctl = true := by assumption) : OkO kp zz
    (execSetpointWrite n value s) := by
  unfold execSetpointWrite
  repeat' first
    | with_reducible assumption | with_reducible apply done_ok | with_reducible apply setCtl_ok

theorem putSetpoint_ok (h : Ok kp zz s) {n : Nat} {w : Word} : Ok kp zz (putSetpoint n w s) := by
  unfold putSetpoint
  repeat' first
    | with_reducible assumption | with_reducible apply wr_ok

theorem outputWrite_ok (h : Ok kp zz s) {a : Nat} {w : Word} (kNextRegs : kp .nextRegs = true := by assumption) (kOut : kp
    .out = true := by assumption) : Ok kp zz (outputWrite a w s) := by
  unfold outputWrite
  repeat' first
    | with_reducible assumption | with_reducible apply ok_ite | with_reducible apply setOut_ok
    | (fail_if_no_progress refine ok_mk ?_ (by and_intros <;> first | with_reducible exact Or.inl rfl | exact Or.inr (by assumption)))
    | split

theorem execOutputRegisterWrite_ok (h : Ok kp zz s) {addr : Nat} {value : Word} (kNextRegs : kp .nextRegs = true := by
    assumption) (kOut : kp .out = true := by assumption) : OkO kp zz (execOutputRegisterWrite addr value s) := by
  unfold execOutputRegisterWrite
  repeat' first
    | with_reducible assumption | with_reducible apply done_ok | with_reducible apply outputWrite_ok

theorem execPwmPeriodStart_ok (h : Ok kp zz s) {j : Fin 16} (kOut : kp .out = true := by assumption) : OkO kp zz
    (execPwmPeriodStart j s) := by
  unfold execPwmPeriodStart
  repeat' first
    | with_reducible assumption | with_reducible apply okO_ite | with_reducible apply ok_ite | with_reducible apply done_ok
    | with_reducible apply setOut_ok | split

theorem overrunMember_ok (h : Ok kp zz s) {n : Nat} : Ok kp zz (overrunMember s n) := by
  unfold overrunMember
  repeat' first
    | with_reducible assumption | with_reducible apply ok_ite | with_reducible apply addSat_ok | with_reducible apply raise_ok
    | with_reducible apply setFlag_ok | with_reducible apply setFld_ok | with_reducible apply setLoopState_ok | split

theorem showQueue_ok (h : Ok kp zz s) : Ok kp zz (showQueue s) := by
  unfold showQueue
  repeat' first
    | with_reducible assumption | with_reducible apply ok_ite | with_reducible apply setFld_ok | split

theorem execLoopTick_ok (h : Ok kp zz s) {u : Fin 32} (kCtl : kp .ctl = true := by assumption) : OkO kp zz (execLoopTick u s)
    := by
  unfold execLoopTick
  repeat' first
    | with_reducible assumption | with_reducible apply okO_ite | with_reducible apply ok_ite | with_reducible apply done_ok
    | with_reducible apply overrunMember_ok | with_reducible apply raiseChosen_ok | with_reducible apply setCtl_ok
    | with_reducible apply setLoopRun_ok | with_reducible apply showQueue_ok | with_reducible apply ok_foldl
    | (with_reducible intro u x hu) | split

theorem loseFeedback_ok (h : Ok kp zz s) {n : Nat} {cause : Nat} (kCtl : kp .ctl = true := by assumption) : Ok kp zz
    (loseFeedback n cause s) := by
  unfold loseFeedback
  repeat' first
    | with_reducible assumption | with_reducible apply raise_ok | with_reducible apply setFlag_ok
    | with_reducible apply setFld_ok | with_reducible apply setLoopRun_ok | with_reducible apply setLoopState_ok

theorem runLaw_ok (h : Ok kp zz s) {t : Tick} {fb : Tap} {injSp : FVal} {injOut : FVal} {dt : FVal} {test : Bool} (kCtl : kp
    .ctl = true := by assumption) : Ok kp zz (runLaw t fb injSp injOut dt test s).2 := by
  unfold runLaw
  repeat' first
    | with_reducible assumption | with_reducible apply setLoopRun_ok

theorem runFallback_ok (h : Ok kp zz s) {act : Nat} {t : Tick} {injSp : FVal} {injOut : FVal} {dt : FVal} {test : Bool} (kCtl
    : kp .ctl = true := by assumption) : Ok kp zz (runFallback act t injSp injOut dt test s).2 := by
  unfold runFallback
  repeat' first
    | with_reducible assumption | with_reducible apply ok_ite2 | with_reducible apply ok_ite
    | with_reducible apply setLoopRun_ok | split

theorem judgePrimary_ok (h : Ok kp zz s) {t : Tick} (kCtl : kp .ctl = true := by assumption) : Ok kp zz (judgePrimary t s) :=
    by
  unfold judgePrimary
  repeat' first
    | with_reducible assumption | with_reducible apply ok_ite2 | with_reducible apply ok_ite
    | with_reducible apply loseFeedback_ok | with_reducible apply setLoopRun_ok | split

theorem judgeAlternate_ok (h : Ok kp zz s) {t : Tick} (kCtl : kp .ctl = true := by assumption) : Ok kp zz (judgeAlternate t s)
    := by
  unfold judgeAlternate
  repeat' first
    | with_reducible assumption | with_reducible apply ok_ite2 | with_reducible apply ok_ite
    | with_reducible apply setLoopRun_ok | split

theorem evaluate_ok (h : Ok kp zz s) {t : Tick} (kCtl : kp .ctl = true := by assumption) : Ok kp zz (evaluate t s).2 := by
  unfold evaluate
  repeat' first
    | with_reducible assumption | with_reducible apply ok_ite2 | with_reducible apply ok_ite | with_reducible apply count_ok
    | with_reducible apply judgeAlternate_ok | with_reducible apply judgePrimary_ok | with_reducible apply runFallback_ok
    | with_reducible apply runLaw_ok | with_reducible apply setCtl_ok | with_reducible apply setFlag_ok
    | with_reducible apply setFld_ok | with_reducible apply setLoopRun_ok | split

theorem takeTrace_ok (h : Ok kp zz s) (kCtl : kp .ctl = true := by assumption) : Ok kp zz (takeTrace s) := by
  unfold takeTrace
  try dsimp only
  repeat' first
    | with_reducible assumption | with_reducible apply ok_ite2 | with_reducible assumption | with_reducible apply ok_ite
    | with_reducible apply setCtl_ok | split | (with_reducible intro u x hu) | (with_reducible intro u hu) | dsimp only
    | (fail_if_no_progress refine ok_mk ?_ (by and_intros <;> first | with_reducible exact Or.inl rfl | exact Or.inr (by assumption)))

theorem traceEntry_ok (h : Ok kp zz s) {e : Eval} {a : Word} {forced : Bool} (kFresh : kp .fresh = true := by assumption)
    (kMem : kp .mem = true := by assumption) (kRed : kp .red = true := by assumption) (kCtl : kp .ctl = true := by assumption)
    (kCores : kp .cores = true := by assumption) (kDmc : kp .dmc = true := by assumption) : Ok kp zz (traceEntry e a forced s)
    := by
  unfold traceEntry
  try dsimp only
  repeat' first
    | with_reducible assumption | with_reducible apply ok_ite | with_reducible apply captureWrite_ok
    | with_reducible apply setFld_ok | with_reducible apply takeTrace_ok | split | (with_reducible intro u x hu)
    | (with_reducible intro u hu) | dsimp only
    | (fail_if_no_progress refine ok_mk ?_ (by and_intros <;> first | with_reducible exact Or.inl rfl | exact Or.inr (by assumption)))

theorem settleLoop_ok (h : Ok kp zz s) {g : FVal} {forced : Bool} {e : Eval} (kFresh : kp .fresh = true := by assumption)
    (kMem : kp .mem = true := by assumption) (kRed : kp .red = true := by assumption) (kCtl : kp .ctl = true := by assumption)
    (kCores : kp .cores = true := by assumption) (kDmc : kp .dmc = true := by assumption) : Ok kp zz (settleLoop g forced s e)
    := by
  unfold settleLoop
  repeat' first
    | with_reducible assumption | with_reducible apply setLoopRun_ok | with_reducible apply traceEntry_ok

theorem finishUnit_ok (h : Ok kp zz s) {lap : Nat} {es : List Eval} (kFresh : kp .fresh = true := by assumption) (kMem : kp
    .mem = true := by assumption) (kRed : kp .red = true := by assumption) (kCtl : kp .ctl = true := by assumption) (kCores :
    kp .cores = true := by assumption) (kDmc : kp .dmc = true := by assumption) : Ok kp zz (finishUnit lap es s) := by
  unfold finishUnit
  repeat' first
    | with_reducible assumption | with_reducible apply setCtl_ok | with_reducible apply settleLoop_ok
    | with_reducible apply ok_foldl | split | (with_reducible intro u x hu)

theorem execLoopEvaluation_ok (h : Ok kp zz s) (kFresh : kp .fresh = true := by assumption) (kMem : kp .mem = true := by
    assumption) (kRed : kp .red = true := by assumption) (kCtl : kp .ctl = true := by assumption) (kCores : kp .cores = true
    := by assumption) (kDmc : kp .dmc = true := by assumption) : OkO kp zz (execLoopEvaluation s) := by
  unfold execLoopEvaluation
  try dsimp only
  repeat' first
    | with_reducible assumption | with_reducible apply okO_ite | with_reducible apply okO_next | with_reducible apply okO_fault
    | with_reducible apply okO_refused | with_reducible apply ok_ite2 | with_reducible assumption | with_reducible apply ok_ite
    | with_reducible apply done_ok | (refine (done_ok ?_) _ (by assumption)) | with_reducible apply evaluate_ok
    | with_reducible apply finishUnit_ok | with_reducible apply setCtl_ok | split | (with_reducible intro u x hu)
    | (with_reducible intro u hu) | dsimp only
    | (fail_if_no_progress refine ok_mk ?_ (by and_intros <;> first | with_reducible exact Or.inl rfl | exact Or.inr (by assumption)))

theorem handFrame_ok (h : Ok kp zz s) {message : Bool} {path : Nat} {dest : Nat} {data : List Byte} (kOut : kp .out = true :=
    by assumption) : Ok kp zz (handFrame message path dest data s) := by
  unfold handFrame
  repeat' first
    | with_reducible assumption | with_reducible apply ok_ite | with_reducible apply setOut_ok | split

theorem digestItem_ok (h : Ok kp zz s) {b : Nat} {order : Nat} {key : Nat} {data : List Byte} (kOut : kp .out = true := by
    assumption) : Ok kp zz (digestItem b order key data s) := by
  unfold digestItem
  repeat' first
    | with_reducible assumption | with_reducible apply setOut_ok

theorem commitDrive_ok (h : Ok kp zz s) {d : Nat} {n : Nat} {tickLap : Nat} {flags : Nat} {forced : Bool} {v : FVal} (kOut :
    kp .out = true := by assumption) : Ok kp zz (commitDrive d n tickLap flags forced v s) := by
  unfold commitDrive
  repeat' first
    | with_reducible assumption | with_reducible apply handFrame_ok | with_reducible apply setOut_ok
    | with_reducible apply wr_ok

theorem sendOutput_ok (h : Ok kp zz s) {cfg : Tab Word} {u : Nat} {n : Nat} {tickLap : Nat} {flags : Nat} {forced : Bool} {a :
    Word} (kOut : kp .out = true := by assumption) : Ok kp zz (sendOutput cfg u n tickLap flags forced a s) := by
  unfold sendOutput
  try dsimp only
  repeat' first
    | with_reducible assumption | with_reducible apply ok_ite | with_reducible apply addSat_ok
    | with_reducible apply commitDrive_ok | with_reducible apply putSetpoint_ok | with_reducible apply setAout_ok
    | with_reducible apply setInOrder_ok | with_reducible apply setPwm_ok | split | (with_reducible intro u x hu)
    | (with_reducible intro u hu) | dsimp only
    | (fail_if_no_progress refine ok_mk ?_ (by and_intros <;> first | with_reducible exact Or.inl rfl | exact Or.inr (by assumption)))

theorem commitMember_ok (h : Ok kp zz s) {o : UnitOut} {grp : Bool} {a : Word} {e : Eval} (kOut : kp .out = true := by
    assumption) (kCtl : kp .ctl = true := by assumption) : Ok kp zz (commitMember o grp a s e) := by
  unfold commitMember
  repeat' first
    | with_reducible assumption | with_reducible apply digestItem_ok | with_reducible apply setFlag_ok
    | with_reducible apply setLoopRun_ok

theorem showWinner_ok (h : Ok kp zz s) {g : Nat} {w : Nat} (kCtl : kp .ctl = true := by assumption) : Ok kp zz (showWinner g w
    s) := by
  unfold showWinner
  repeat' first
    | with_reducible assumption | with_reducible apply raiseIf_ok | with_reducible apply setCtl_ok
    | with_reducible apply setFld_ok

theorem commitUnit_ok (h : Ok kp zz s) {o : UnitOut} (kOut : kp .out = true := by assumption) (kCtl : kp .ctl = true := by
    assumption) : Ok kp zz (commitUnit o s) := by
  unfold commitUnit
  try dsimp only
  repeat' first
    | with_reducible assumption | with_reducible apply ok_ite | with_reducible apply commitMember_ok
    | with_reducible apply sendOutput_ok | with_reducible apply showWinner_ok | with_reducible apply ok_foldl_snd
    | with_reducible apply ok_foldl | split | (with_reducible intro u x hu) | (with_reducible intro u hu) | dsimp only
    | (fail_if_no_progress refine ok_mk ?_ (by and_intros <;> first | with_reducible exact Or.inl rfl | exact Or.inr (by assumption)))

theorem execLoopOutputCommit_ok (h : Ok kp zz s) {u : Fin 32} (kOut : kp .out = true := by assumption) (kCtl : kp .ctl = true
    := by assumption) : OkO kp zz (execLoopOutputCommit u s) := by
  unfold execLoopOutputCommit
  try dsimp only
  repeat' first
    | with_reducible assumption | with_reducible apply okO_ite | with_reducible apply okO_next | with_reducible apply okO_fault
    | with_reducible apply okO_refused | with_reducible apply ok_ite | with_reducible apply commitUnit_ok
    | with_reducible apply done_ok | with_reducible apply setCtl_ok | with_reducible apply ok_foldl_snd
    | with_reducible apply ok_foldl | split | (with_reducible intro u x hu) | (with_reducible intro u hu) | dsimp only
    | (fail_if_no_progress refine ok_mk ?_ (by and_intros <;> first | with_reducible exact Or.inl rfl | exact Or.inr (by assumption)))

theorem renameUnits_ok (h : Ok kp zz s) (kCtl : kp .ctl = true := by assumption) : Ok kp zz (renameUnits s) := by
  unfold renameUnits
  try dsimp only
  repeat' first
    | with_reducible assumption | with_reducible apply ok_ite | with_reducible apply setCtl_ok | split
    | (with_reducible intro u x hu) | (with_reducible intro u hu) | dsimp only
    | (fail_if_no_progress refine ok_mk ?_ (by and_intros <;> first | with_reducible exact Or.inl rfl | exact Or.inr (by assumption)))

theorem closeCut_ok (h : Ok kp zz s) (kFresh : kp .fresh = true := by assumption) (kMem : kp .mem = true := by assumption)
    (kRed : kp .red = true := by assumption) (kCtl : kp .ctl = true := by assumption) (kCores : kp .cores = true := by
    assumption) (kDmc : kp .dmc = true := by assumption) : Ok kp zz (closeCut s) := by
  unfold closeCut
  repeat' first
    | with_reducible assumption | with_reducible apply ok_ite | with_reducible apply finishUnit_ok | split
    | (with_reducible intro u x hu) | (with_reducible intro u hu) | dsimp only
    | (fail_if_no_progress refine ok_mk ?_ (by and_intros <;> first | with_reducible exact Or.inl rfl | exact Or.inr (by assumption)))

theorem ctlCmdBoundary_ok (h : Ok kp zz s) (kFresh : kp .fresh = true := by assumption) (kAccepted : kp .accepted = true := by
    assumption) (kMem : kp .mem = true := by assumption) (kRed : kp .red = true := by assumption) (kCtl : kp .ctl = true := by
    assumption) (kCores : kp .cores = true := by assumption) (kDmc : kp .dmc = true := by assumption) : Ok kp zz
    (ctlCmdBoundary s) := by
  unfold ctlCmdBoundary
  try dsimp only
  repeat' first
    | with_reducible assumption | with_reducible apply ok_ite | with_reducible apply closeCut_ok
    | with_reducible apply commitLoop_ok | with_reducible apply complete_ok | with_reducible apply raise_ok
    | with_reducible apply renameUnits_ok | with_reducible apply resumeLoop_ok | with_reducible apply showGroup_ok
    | with_reducible apply startTest_ok | with_reducible apply stopTest_ok | with_reducible apply ok_foldl_snd
    | with_reducible apply ok_foldl | split | (with_reducible intro u x hu) | (with_reducible intro u hu) | dsimp only
    | (fail_if_no_progress refine ok_mk ?_ (by and_intros <;> first | with_reducible exact Or.inl rfl | exact Or.inr (by assumption)))

theorem ctlBoundary_ok (h : Ok kp zz s) (kFresh : kp .fresh = true := by assumption) (kAccepted : kp .accepted = true := by
    assumption) (kMem : kp .mem = true := by assumption) (kRed : kp .red = true := by assumption) (kCtl : kp .ctl = true := by
    assumption) (kCores : kp .cores = true := by assumption) (kDmc : kp .dmc = true := by assumption) : Ok kp zz (ctlBoundary
    s) := by
  unfold ctlBoundary
  repeat' first
    | with_reducible assumption | with_reducible apply ctlCmdBoundary_ok | with_reducible apply putSetpoint_ok
    | with_reducible apply setCtl_ok | with_reducible apply setOut_ok | with_reducible apply showQueue_ok
    | with_reducible apply ok_foldl | (with_reducible intro u x hu)

end Sys2Proof.Machine
end

