-- ==== Sys2Proof/Laws/KeepStartList.lean ====
section
/-!
SUPPORT. What the operations of Machine/StartList.lean keep.
-/
namespace Sys2Proof.Machine
open Sys2Proof

set_option Elab.async false
set_option linter.unreachableTactic false
set_option linter.unusedTactic false
set_option linter.unusedVariables false

variable {kp : Comp → Bool} {zz s : State}

theorem setSl_ok (h : Ok kp zz s) {x : StartList} (kTbs : kp .tbs = true := by assumption) : Ok kp zz (setSl x s) := by
  unfold setSl
  repeat' first
    | with_reducible assumption
    | (fail_if_no_progress refine ok_mk ?_ (by and_intros <;> first | with_reducible exact Or.inl rfl | exact Or.inr (by assumption)))

theorem setSlState_ok (h : Ok kp zz s) {n : Nat} {st : Nat} : Ok kp zz (setSlState n st s) := by
  unfold setSlState
  repeat' first
    | with_reducible assumption | with_reducible apply setFld_ok

theorem setSlValue_ok (h : Ok kp zz s) {n : Nat} {v : Nat} : Ok kp zz (setSlValue n v s) := by
  unfold setSlValue
  repeat' first
    | with_reducible assumption | with_reducible apply setFld_ok

theorem slTaken_ok (h : Ok kp zz s) {n : Nat} {cross : Nat} {eff : Nat} {late : Bool} {ends : Bool} (kTbs : kp .tbs = true :=
    by assumption) : Ok kp zz (slTaken n cross eff late ends s) := by
  unfold slTaken
  repeat' first
    | with_reducible assumption | with_reducible apply setSl_ok | with_reducible apply setSlState_ok

theorem slForget_ok (h : Ok kp zz s) {n : Nat} (kTbs : kp .tbs = true := by assumption) : Ok kp zz (slForget n s) := by
  unfold slForget
  repeat' first
    | with_reducible assumption | with_reducible apply setSl_ok

theorem slAdvance_ok (h : Ok kp zz s) {n : Nat} {k : Nat} {dir : Int} : Ok kp zz (slAdvance n k dir s) := by
  unfold slAdvance
  repeat' first
    | with_reducible assumption | with_reducible apply setSlValue_ok

theorem slNoteSign_ok (h : Ok kp zz s) {n : Nat} (kTbs : kp .tbs = true := by assumption) : Ok kp zz (slNoteSign n s) := by
  unfold slNoteSign
  repeat' first
    | with_reducible assumption | with_reducible apply ok_ite | with_reducible apply setSl_ok | split

theorem slSkip_ok (h : Ok kp zz s) {n : Nat} (kTbs : kp .tbs = true := by assumption) : Ok kp zz (slSkip n s) := by
  unfold slSkip
  repeat' first
    | with_reducible assumption | with_reducible apply ok_ite | with_reducible apply addSat_ok | with_reducible apply setFlag_ok
    | with_reducible apply setSlState_ok | with_reducible apply slAdvance_ok | with_reducible apply slForget_ok | split

theorem slPeriodicNext_ok (h : Ok kp zz s) {n : Nat} (kTbs : kp .tbs = true := by assumption) : Ok kp zz (slPeriodicNext n s)
    := by
  unfold slPeriodicNext
  repeat' first
    | with_reducible assumption | with_reducible apply ok_ite | with_reducible apply setFld_ok | with_reducible apply setSl_ok
    | with_reducible apply slAdvance_ok | with_reducible apply slForget_ok | with_reducible apply slNoteSign_ok
    | with_reducible apply slSkip_ok | split

theorem slTake_ok (h : Ok kp zz s) {n : Nat} {cross : Nat} {eff : Nat} {late : Bool} (kTbs : kp .tbs = true := by assumption)
    : Ok kp zz (slTake n cross eff late s) := by
  unfold slTake
  repeat' first
    | with_reducible assumption | with_reducible apply ok_ite | with_reducible apply addSat_ok | with_reducible apply raise_ok
    | with_reducible apply setFlag_ok | with_reducible apply slForget_ok | with_reducible apply slPeriodicNext_ok
    | with_reducible apply slTaken_ok | split

theorem slLate_ok (h : Ok kp zz s) {n : Nat} (kTbs : kp .tbs = true := by assumption) : Ok kp zz (slLate n s) := by
  unfold slLate
  repeat' first
    | with_reducible assumption | with_reducible apply ok_ite | with_reducible apply addSat_ok | with_reducible apply setFlag_ok
    | with_reducible apply setSlState_ok | with_reducible apply slForget_ok | with_reducible apply slSkip_ok
    | with_reducible apply slTake_ok | split

theorem execSlTake_ok (h : Ok kp zz s) {n : Fin 2048} {ofs : Nat} (kTbs : kp .tbs = true := by assumption) : OkO kp zz
    (execSlTake n ofs s) := by
  unfold execSlTake
  repeat' first
    | with_reducible assumption | with_reducible apply okO_ite | with_reducible apply ok_ite | with_reducible apply atOfs_ok
    | with_reducible apply done_ok | with_reducible apply setSl_ok | with_reducible apply slLate_ok
    | with_reducible apply slTake_ok | split

theorem slOrder_ok (h : Ok kp zz s) {n : Nat} {judge : Bool} (kTbs : kp .tbs = true := by assumption) : Ok kp zz (slOrder n
    judge s) := by
  unfold slOrder
  repeat' first
    | with_reducible assumption | with_reducible apply ok_ite | with_reducible apply addSat_ok | with_reducible apply raise_ok
    | with_reducible apply setFlag_ok | with_reducible apply setSl_ok | with_reducible apply setSlState_ok
    | with_reducible apply slForget_ok | with_reducible apply slLate_ok | with_reducible apply slNoteSign_ok | split

theorem slEnable_ok (h : Ok kp zz s) {n : Nat} (kTbs : kp .tbs = true := by assumption) : Ok kp zz (slEnable n s) := by
  unfold slEnable
  repeat' first
    | with_reducible assumption | with_reducible apply setFlag_ok | with_reducible apply slOrder_ok

theorem slDisable_ok (h : Ok kp zz s) {n : Nat} (kTbs : kp .tbs = true := by assumption) : Ok kp zz (slDisable n s) := by
  unfold slDisable
  repeat' first
    | with_reducible assumption | with_reducible apply ok_ite | with_reducible apply setFlag_ok
    | with_reducible apply setSlState_ok | with_reducible apply slForget_ok | split

theorem execSlEntryEnable_ok (h : Ok kp zz s) {n : Fin 2048} (kTbs : kp .tbs = true := by assumption) : OkO kp zz
    (execSlEntryEnable n s) := by
  unfold execSlEntryEnable
  repeat' first
    | with_reducible assumption | with_reducible apply okO_ite | with_reducible apply ok_ite | with_reducible apply done_ok
    | with_reducible apply slEnable_ok | split

theorem execSlEntryDisable_ok (h : Ok kp zz s) {n : Fin 2048} (kTbs : kp .tbs = true := by assumption) : OkO kp zz
    (execSlEntryDisable n s) := by
  unfold execSlEntryDisable
  repeat' first
    | with_reducible assumption | with_reducible apply okO_ite | with_reducible apply ok_ite | with_reducible apply done_ok
    | with_reducible apply slDisable_ok | split

theorem slWrite_ok (h : Ok kp zz s) {n : Nat} {o : Nat} {w : Word} (kTbs : kp .tbs = true := by assumption) : OkO kp zz
    (slWrite n o w s) := by
  unfold slWrite
  repeat' first
    | with_reducible assumption | with_reducible apply okO_ite | with_reducible apply ok_ite | with_reducible apply okO_next
    | with_reducible apply okO_fault | with_reducible apply slDisable_ok | with_reducible apply slEnable_ok
    | with_reducible apply slOrder_ok | with_reducible apply wr_ok | split

theorem execSlEntryRewrite_ok (h : Ok kp zz s) {n : Fin 2048} {k : Fin 7} {value : Word} (kTbs : kp .tbs = true := by
    assumption) : OkO kp zz (execSlEntryRewrite n k value s) := by
  unfold execSlEntryRewrite
  repeat' first
    | with_reducible assumption | with_reducible apply okO_fault | with_reducible apply okO_refused
    | with_reducible apply done_ok | (refine (slWrite_ok ?_) _ (by assumption)) | split

theorem slJudgeAll_ok (h : Ok kp zz s) (kTbs : kp .tbs = true := by assumption) : Ok kp zz (slJudgeAll s) := by
  unfold slJudgeAll
  repeat' first
    | with_reducible assumption | with_reducible apply ok_ite | with_reducible apply slLate_ok | with_reducible apply ok_foldl
    | (with_reducible intro u x hu) | split

theorem slCtrlWrite_ok (h : Ok kp zz s) {en : Bool} (kTbs : kp .tbs = true := by assumption) : Ok kp zz (slCtrlWrite en s) :=
    by
  unfold slCtrlWrite
  repeat' first
    | with_reducible assumption | with_reducible apply ok_ite | with_reducible apply setFlag_ok
    | with_reducible apply slJudgeAll_ok | split

theorem execStartListEnable_ok (h : Ok kp zz s) {en : Bool} (kTbs : kp .tbs = true := by assumption) : OkO kp zz
    (execStartListEnable en s) := by
  unfold execStartListEnable
  repeat' first
    | with_reducible assumption | with_reducible apply done_ok | with_reducible apply slCtrlWrite_ok

theorem execDisableSpace_ok (h : Ok kp zz s) {space : Fin 16} (kAccepted : kp .accepted = true := by assumption) (kTbs : kp
    .tbs = true := by assumption) : OkO kp zz (execDisableSpace space s) := by
  unfold execDisableSpace
  repeat' first
    | with_reducible assumption | with_reducible apply okO_ite | with_reducible apply ok_ite | with_reducible apply complete_ok
    | with_reducible apply done_ok | with_reducible apply reject_ok | with_reducible apply slDisable_ok
    | with_reducible apply ok_foldl | (with_reducible intro u x hu) | split

theorem execDisableAll_ok (h : Ok kp zz s) (kAccepted : kp .accepted = true := by assumption) (kTbs : kp .tbs = true := by
    assumption) : OkO kp zz (execDisableAll s) := by
  unfold execDisableAll
  repeat' first
    | with_reducible assumption | with_reducible apply complete_ok | with_reducible apply done_ok
    | with_reducible apply slDisable_ok | with_reducible apply ok_foldl | (with_reducible intro u x hu)

theorem slSetOutput_ok (h : Ok kp zz s) {q : Taken} (kOut : kp .out = true := by assumption) : Ok kp zz (slSetOutput q s) :=
    by
  unfold slSetOutput
  try dsimp only
  repeat' first
    | with_reducible assumption | with_reducible apply ok_ite | with_reducible apply digestItem_ok
    | with_reducible apply setAout_ok | with_reducible apply setInOrder_ok | with_reducible apply setPwm_ok
    | with_reducible apply setTrigBase_ok | with_reducible apply startPulse_ok | split | (with_reducible intro u x hu)
    | (with_reducible intro u hu) | dsimp only
    | (fail_if_no_progress refine ok_mk ?_ (by and_intros <;> first | with_reducible exact Or.inl rfl | exact Or.inr (by assumption)))

theorem slRing_ok (h : Ok kp zz s) {q : Taken} {stamp : Nat} : Ok kp zz (slRing q stamp s) := by
  unfold slRing
  repeat' first
    | with_reducible assumption | with_reducible apply ok_ite | with_reducible apply offer_ok | split

theorem slAct_ok (h : Ok kp zz s) {q : Taken} {stamp : Nat} (kOut : kp .out = true := by assumption) (kCtl : kp .ctl = true :=
    by assumption) : Ok kp zz (slAct q stamp s) := by
  unfold slAct
  repeat' first
    | with_reducible assumption | with_reducible apply ok_ite | with_reducible apply addSat_ok
    | with_reducible apply putSetpoint_ok | with_reducible apply raise_ok | with_reducible apply raiseChosen_ok
    | with_reducible apply setCtl_ok | with_reducible apply slRing_ok | with_reducible apply slSetOutput_ok | split

theorem slLog_ok (h : Ok kp zz s) {ws : List Word} : Ok kp zz (slLog ws s) := by
  unfold slLog
  repeat' first
    | with_reducible assumption | with_reducible apply ok_ite2 | with_reducible apply ok_ite | with_reducible apply addMod_ok
    | with_reducible apply count_ok | with_reducible apply setFld_ok | with_reducible apply wr_ok
    | with_reducible apply ok_foldl | (with_reducible intro u x hu) | split

theorem slAfter_ok (h : Ok kp zz s) {q : Taken} : Ok kp zz (slAfter q s) := by
  unfold slAfter
  repeat' first
    | with_reducible assumption | with_reducible apply ok_ite | with_reducible apply setFlag_ok
    | with_reducible apply setSlState_ok | split

theorem slFlush_ok {k : Nat} (h : Ok kp zz s) (kTbs : kp .tbs = true := by assumption) : Ok kp zz (slFlush k s) := by
  induction k generalizing s with
  | zero => exact h
  | succ k ih =>
    unfold slFlush
    repeat' first
      | with_reducible assumption | with_reducible apply ih | with_reducible apply slAfter_ok | with_reducible apply slLog_ok
      | with_reducible apply setSl_ok | with_reducible apply ok_ite | split

theorem execSlActionEffect_ok (h : Ok kp zz s) {ofs : Nat} (kTbs : kp .tbs = true := by assumption) (kRed : kp .red = true :=
    by assumption) (kOut : kp .out = true := by assumption) (kCtl : kp .ctl = true := by assumption) : OkO kp zz
    (execSlActionEffect ofs s) := by
  unfold execSlActionEffect
  try dsimp only
  repeat' first
    | with_reducible assumption | with_reducible apply okO_ite | with_reducible apply okO_next | with_reducible apply okO_fault
    | with_reducible apply okO_refused | with_reducible apply ok_ite | with_reducible apply atOfs_ok
    | with_reducible apply done_ok | (refine (done_ok ?_) _ (by assumption)) | with_reducible apply mark_ok
    | with_reducible apply setSl_ok | with_reducible apply slAct_ok | with_reducible apply slFlush_ok | split
    | (with_reducible intro u x hu) | (with_reducible intro u hu) | dsimp only
    | (fail_if_no_progress refine ok_mk ?_ (by and_intros <;> first | with_reducible exact Or.inl rfl | exact Or.inr (by assumption)))

theorem slSlip_ok (h : Ok kp zz s) (kTbs : kp .tbs = true := by assumption) : Ok kp zz (slSlip s) := by
  unfold slSlip
  repeat' first
    | with_reducible assumption | with_reducible apply ok_ite2 | with_reducible apply ok_ite | with_reducible apply addSat_ok
    | with_reducible apply raise_ok | with_reducible apply setSl_ok | split

theorem slKeepSteps_ok (h : Ok kp zz s) (kTbs : kp .tbs = true := by assumption) : Ok kp zz (slKeepSteps s) := by
  unfold slKeepSteps
  repeat' first
    | with_reducible assumption | with_reducible apply ok_ite | with_reducible apply setSl_ok | with_reducible apply ok_foldl
    | (with_reducible intro u x hu) | split

theorem slBoundary_ok (h : Ok kp zz s) (kTbs : kp .tbs = true := by assumption) : Ok kp zz (slBoundary s) := by
  unfold slBoundary
  repeat' first
    | with_reducible assumption | with_reducible apply setFld_ok | with_reducible apply setSl_ok
    | with_reducible apply slFlush_ok | with_reducible apply slSlip_ok

theorem stepLine_ok (h : Ok kp zz s) {d : Int} (kTbs : kp .tbs = true := by assumption) : Ok kp zz (stepLine d s) := by
  unfold stepLine
  try dsimp only
  repeat' first
    | with_reducible assumption | with_reducible apply ok_ite | with_reducible apply raise_ok | with_reducible apply setSl_ok
    | with_reducible apply setSlew_ok | with_reducible apply shiftTime_ok | with_reducible apply slLate_ok
    | with_reducible apply ok_foldl_snd | with_reducible apply ok_foldl | split | (with_reducible intro u x hu)
    | (with_reducible intro u hu) | dsimp only
    | (fail_if_no_progress refine ok_mk ?_ (by and_intros <;> first | with_reducible exact Or.inl rfl | exact Or.inr (by assumption)))

theorem execPacerStep_ok (h : Ok kp zz s) (kAccepted : kp .accepted = true := by assumption) (kTbs : kp .tbs = true := by
    assumption) : OkO kp zz (execPacerStep s) := by
  unfold execPacerStep
  repeat' first
    | with_reducible assumption | with_reducible apply complete_ok | with_reducible apply done_ok
    | with_reducible apply stepLine_ok | split

end Sys2Proof.Machine
end

