-- ==== Sys2Proof/Laws/KeepCores.lean ====
section
/-!
SUPPORT. What the operations of Machine/Cores.lean keep.
-/
namespace Sys2Proof.Machine
open Sys2Proof

set_option Elab.async false
set_option linter.unreachableTactic false
set_option linter.unusedTactic false
set_option linter.unusedVariables false

variable {kp : Comp → Bool} {zz s : State}

theorem setMode_ok (h : Ok kp zz s) {n : Nat} {service : Bool} : Ok kp zz (setMode n service s) := by
  unfold setMode
  repeat' first
    | with_reducible assumption | with_reducible apply setFlag_ok

theorem setReg_ok (h : Ok kp zz s) {n : Nat} {r : Nat} {v : Word} (kCores : kp .cores = true := by assumption) : Ok kp zz
    (setReg n r v s) := by
  unfold setReg
  repeat' first
    | with_reducible assumption | with_reducible apply setCore_ok

theorem setFreg_ok (h : Ok kp zz s) {n : Nat} {r : Nat} {v : Word} (kCores : kp .cores = true := by assumption) : Ok kp zz
    (setFreg n r v s) := by
  unfold setFreg
  repeat' first
    | with_reducible assumption | with_reducible apply setCore_ok

theorem setPc_ok (h : Ok kp zz s) {n : Nat} {a : Nat} (kCores : kp .cores = true := by assumption) : Ok kp zz (setPc n a s) :=
    by
  unfold setPc
  repeat' first
    | with_reducible assumption | with_reducible apply setCore_ok

theorem setFlags_ok (h : Ok kp zz s) {n : Nat} {v : Nat} (kCores : kp .cores = true := by assumption) : Ok kp zz (setFlags n v
    s) := by
  unfold setFlags
  repeat' first
    | with_reducible assumption | with_reducible apply setCore_ok

theorem setZ_ok (h : Ok kp zz s) {n : Nat} {z : Bool} (kCores : kp .cores = true := by assumption) : Ok kp zz (setZ n z s) :=
    by
  unfold setZ
  repeat' first
    | with_reducible assumption | with_reducible apply setFlags_ok

theorem coreWrite_ok (h : Ok kp zz s) {n : Nat} {a : Nat} {bs : List Byte} (kFresh : kp .fresh = true := by assumption) (kMem
    : kp .mem = true := by assumption) (kCores : kp .cores = true := by assumption) (kDmc : kp .dmc = true := by assumption) :
    Ok kp zz (coreWrite n a bs s) := by
  unfold coreWrite
  repeat' first
    | with_reducible assumption | with_reducible apply ok_ite | with_reducible apply dmcOwn_ok
    | with_reducible apply memWrite_ok | split | (with_reducible intro u x hu) | (with_reducible intro u hu) | dsimp only
    | (fail_if_no_progress refine ok_mk ?_ (by and_intros <;> first | with_reducible exact Or.inl rfl | exact Or.inr (by assumption)))

theorem drainOne_ok (h : Ok kp zz s) {n : Nat} (kFresh : kp .fresh = true := by assumption) (kMem : kp .mem = true := by
    assumption) (kCores : kp .cores = true := by assumption) (kDmc : kp .dmc = true := by assumption) : Ok kp zz (drainOne n
    s) := by
  unfold drainOne
  try dsimp only
  repeat' first
    | with_reducible assumption | with_reducible apply ok_ite2 | with_reducible assumption | with_reducible apply ok_ite
    | with_reducible apply coreWrite_ok | with_reducible apply setCore_ok | split | (with_reducible intro u x hu)
    | (with_reducible intro u hu) | dsimp only
    | (fail_if_no_progress refine ok_mk ?_ (by and_intros <;> first | with_reducible exact Or.inl rfl | exact Or.inr (by assumption)))

theorem drainStores_ok (h : Ok kp zz s) {n : Nat} (kFresh : kp .fresh = true := by assumption) (kMem : kp .mem = true := by
    assumption) (kCores : kp .cores = true := by assumption) (kDmc : kp .dmc = true := by assumption) : Ok kp zz (drainStores
    s n) := by
  unfold drainStores
  try dsimp only
  repeat' first
    | with_reducible assumption | with_reducible apply ok_ite2 | with_reducible assumption | with_reducible apply ok_ite
    | with_reducible apply coreWrite_ok | with_reducible apply setCore_ok | with_reducible apply ok_foldl_snd
    | with_reducible apply ok_foldl | split | (with_reducible intro u x hu) | (with_reducible intro u hu) | dsimp only
    | (fail_if_no_progress refine ok_mk ?_ (by and_intros <;> first | with_reducible exact Or.inl rfl | exact Or.inr (by assumption)))

theorem seepStore_ok {n : Nat} {may : Nat × List Byte → Bool} {r : List (Nat × List Byte) × State} {q : Nat × List Byte} (h : Ok kp zz r.2) (kFresh : kp .fresh = true := by assumption) (kMem : kp .mem = true := by assumption) (kCores : kp .cores = true := by assumption) (kDmc : kp .dmc = true := by assumption) :
    Ok kp zz (seepStore n may r q).2 := by
  unfold seepStore
  repeat' first
    | with_reducible assumption | with_reducible apply ok_ite2 | with_reducible apply coreWrite_ok | with_reducible apply freshen_ok

theorem seep_ok (h : Ok kp zz s) {may : Nat × List Byte → Bool} {n : Nat} (kFresh : kp .fresh = true := by assumption) (kMem :
    kp .mem = true := by assumption) (kCores : kp .cores = true := by assumption) (kDmc : kp .dmc = true := by assumption) :
    Ok kp zz (seep may s n) := by
  unfold seep
  try dsimp only
  repeat' first
    | with_reducible assumption | with_reducible apply ok_ite2 | with_reducible assumption | with_reducible apply ok_ite
    | with_reducible apply seepStore_ok | with_reducible apply setCore_ok | with_reducible apply ok_foldl_snd
    | with_reducible apply ok_foldl | split | (with_reducible intro u x hu) | (with_reducible intro u hu) | dsimp only
    | (fail_if_no_progress refine ok_mk ?_ (by and_intros <;> first | with_reducible exact Or.inl rfl | exact Or.inr (by assumption)))

theorem seepOthers_ok (h : Ok kp zz s) {n : Nat} (kFresh : kp .fresh = true := by assumption) (kMem : kp .mem = true := by
    assumption) (kCores : kp .cores = true := by assumption) (kDmc : kp .dmc = true := by assumption) : Ok kp zz (seepOthers n
    s) := by
  unfold seepOthers
  repeat' first
    | with_reducible assumption | with_reducible apply seep_ok | with_reducible apply ok_foldl | (with_reducible intro u x hu)

theorem dmaRead_ok (h : Ok kp zz s) {cls : Nat} {k : Nat} {a : Nat} (kFresh : kp .fresh = true := by assumption) (kMem : kp
    .mem = true := by assumption) (kCores : kp .cores = true := by assumption) (kDmc : kp .dmc = true := by assumption) : Ok
    kp zz (dmaRead cls k a s).2 := by
  unfold dmaRead
  try dsimp only
  repeat' first
    | with_reducible assumption | with_reducible apply ok_ite2 | with_reducible assumption | with_reducible apply ok_ite
    | with_reducible apply engineRead_ok | with_reducible apply seep_ok | with_reducible apply ok_foldl_snd
    | with_reducible apply ok_foldl | split | (with_reducible intro u x hu) | (with_reducible intro u hu) | dsimp only
    | (fail_if_no_progress refine ok_mk ?_ (by and_intros <;> first | with_reducible exact Or.inl rfl | exact Or.inr (by assumption)))

theorem afterStores_ok (h : Ok kp zz s) {n : Nat} {f : State → Host.Outcome State Fault Refusal} (hf : ∀ u, Ok kp zz u → OkO
    kp zz (f u)) (kFresh : kp .fresh = true := by assumption) (kMem : kp .mem = true := by assumption) (kCores : kp .cores =
    true := by assumption) (kDmc : kp .dmc = true := by assumption) : OkO kp zz (afterStores n f s) := by
  unfold afterStores
  try dsimp only
  repeat' first
    | with_reducible assumption | with_reducible apply okO_ite | with_reducible apply okO_next | with_reducible apply okO_fault
    | with_reducible apply okO_refused | with_reducible apply ok_ite | with_reducible apply done_ok
    | with_reducible apply drainStores_ok | with_reducible apply hf | split | (with_reducible intro u x hu)
    | (with_reducible intro u hu) | dsimp only
    | (fail_if_no_progress refine ok_mk ?_ (by and_intros <;> first | with_reducible exact Or.inl rfl | exact Or.inr (by assumption)))

theorem dropCache_ok (h : Ok kp zz s) {n : Nat} (kCores : kp .cores = true := by assumption) : Ok kp zz (dropCache n s) := by
  unfold dropCache
  repeat' first
    | with_reducible assumption | with_reducible apply setCore_ok

theorem fence_ok (h : Ok kp zz s) {n : Nat} (kFresh : kp .fresh = true := by assumption) (kMem : kp .mem = true := by
    assumption) (kCores : kp .cores = true := by assumption) (kDmc : kp .dmc = true := by assumption) : Ok kp zz (fence n s)
    := by
  unfold fence
  repeat' first
    | with_reducible assumption | with_reducible apply drainStores_ok | with_reducible apply dropCache_ok

theorem drainAtLap_ok (h : Ok kp zz s) (kFresh : kp .fresh = true := by assumption) (kMem : kp .mem = true := by assumption)
    (kCores : kp .cores = true := by assumption) (kDmc : kp .dmc = true := by assumption) : Ok kp zz (drainAtLap s) := by
  unfold drainAtLap
  repeat' first
    | with_reducible assumption | with_reducible apply seep_ok | with_reducible apply ok_foldl | (with_reducible intro u x hu)

theorem setQueue_ok (h : Ok kp zz s) {q : Nat} {x : Queue} (kCores : kp .cores = true := by assumption) : Ok kp zz (setQueue q
    x s) := by
  unfold setQueue
  repeat' first
    | with_reducible assumption
    | (fail_if_no_progress refine ok_mk ?_ (by and_intros <;> first | with_reducible exact Or.inl rfl | exact Or.inr (by assumption)))

theorem look_ok (h : Ok kp zz s) {q : Nat} (kFresh : kp .fresh = true := by assumption) (kCores : kp .cores = true := by
    assumption) : Ok kp zz (look q s) := by
  unfold look
  repeat' first
    | with_reducible assumption | with_reducible apply ok_ite | with_reducible apply freshen_ok
    | with_reducible apply setQueue_ok | split

theorem lookBack_ok (h : Ok kp zz s) {q : Nat} (kFresh : kp .fresh = true := by assumption) (kCores : kp .cores = true := by
    assumption) : Ok kp zz (lookBack q s) := by
  unfold lookBack
  repeat' first
    | with_reducible assumption | with_reducible apply ok_ite | with_reducible apply freshen_ok
    | with_reducible apply setQueue_ok | split

theorem queueIn_ok (h : Ok kp zz s) {q : Nat} {e : QEntry} (kCores : kp .cores = true := by assumption) : Ok kp zz (queueIn q
    e s) := by
  unfold queueIn
  repeat' first
    | with_reducible assumption | with_reducible apply setQueue_ok

theorem dropEntry_ok (h : Ok kp zz s) {q : Nat} : Ok kp zz (dropEntry q s) := by
  unfold dropEntry
  repeat' first
    | with_reducible assumption | with_reducible apply addSat_ok | with_reducible apply raiseIf_ok
    | with_reducible apply setFlag_ok

theorem offerRecord_ok (h : Ok kp zz s) {q : Nat} {r : Rec} (kFresh : kp .fresh = true := by assumption) (kCores : kp .cores =
    true := by assumption) : Ok kp zz (offerRecord q r s) := by
  unfold offerRecord
  repeat' first
    | with_reducible assumption | with_reducible apply ok_ite | with_reducible apply count_ok
    | with_reducible apply dropEntry_ok | with_reducible apply lookBack_ok | with_reducible apply queueIn_ok | split

theorem pushRelay_ok (h : Ok kp zz s) {n : Nat} {q : Nat} {a : Word} {b : Word} (kFresh : kp .fresh = true := by assumption)
    (kCores : kp .cores = true := by assumption) : Ok kp zz (pushRelay n q a b s).2 := by
  unfold pushRelay
  repeat' first
    | with_reducible assumption | with_reducible apply ok_ite2 | with_reducible apply ok_ite | with_reducible apply dropEntry_ok
    | with_reducible apply lookBack_ok | with_reducible apply queueIn_ok | split

theorem pushCommit_ok (h : Ok kp zz s) {n : Nat} {a : Word} {b : Word} (kFresh : kp .fresh = true := by assumption) (kCores :
    kp .cores = true := by assumption) : Ok kp zz (pushCommit n a b s).2 := by
  unfold pushCommit
  repeat' first
    | with_reducible assumption | with_reducible apply ok_ite2 | with_reducible apply ok_ite | with_reducible apply addSat_ok
    | with_reducible apply lookBack_ok | with_reducible apply queueIn_ok | split

theorem popQueue_ok (h : Ok kp zz s) {q : Nat} (kFresh : kp .fresh = true := by assumption) (kCores : kp .cores = true := by
    assumption) : Ok kp zz (popQueue q s).2 := by
  unfold popQueue
  try dsimp only
  repeat' first
    | with_reducible assumption | with_reducible apply ok_ite2 | with_reducible assumption | with_reducible apply ok_ite
    | with_reducible apply look_ok | with_reducible apply setFlag_ok | with_reducible apply setQueue_ok | split
    | (with_reducible intro u x hu) | (with_reducible intro u hu) | dsimp only
    | (fail_if_no_progress refine ok_mk ?_ (by and_intros <;> first | with_reducible exact Or.inl rfl | exact Or.inr (by assumption)))

theorem flushQueue_ok (h : Ok kp zz s) {q : Nat} (kCores : kp .cores = true := by assumption) : Ok kp zz (flushQueue s q) :=
    by
  unfold flushQueue
  repeat' first
    | with_reducible assumption | with_reducible apply setQueue_ok | with_reducible apply wr_ok

theorem noteCause_ok (h : Ok kp zz s) {b : Nat} : Ok kp zz (noteCause b s) := by
  unfold noteCause
  repeat' first
    | with_reducible assumption | with_reducible apply setFld_ok

theorem stewardReset_ok (h : Ok kp zz s) {b : Nat} (kFresh : kp .fresh = true := by assumption) (kMem : kp .mem = true := by
    assumption) (kCores : kp .cores = true := by assumption) (kDmc : kp .dmc = true := by assumption) (kPwr : kp .pwr = true
    := by assumption) : Ok kp zz (stewardReset b s) := by
  unfold stewardReset
  repeat' first
    | with_reducible assumption | with_reducible apply drainStores_ok | with_reducible apply flushQueue_ok
    | with_reducible apply noteCause_ok | with_reducible apply setCore_ok | with_reducible apply setPend_ok
    | with_reducible apply wr_ok | with_reducible apply ok_foldl | (with_reducible intro u x hu)
    | (fail_if_no_progress refine ok_mk ?_ (by and_intros <;> first | with_reducible exact Or.inl rfl | exact Or.inr (by assumption)))

theorem takeException_ok (h : Ok kp zz s) {n : Nat} {num : Nat} {epc : Nat} {eval : Word} {at1 : Nat} (kFresh : kp .fresh =
    true := by assumption) (kMem : kp .mem = true := by assumption) (kCores : kp .cores = true := by assumption) (kDmc : kp
    .dmc = true := by assumption) (kPwr : kp .pwr = true := by assumption) : Ok kp zz (takeException n num epc eval at1 s) :=
    by
  unfold takeException
  repeat' first
    | with_reducible assumption | with_reducible apply ok_ite | with_reducible apply raise_ok | with_reducible apply setCore_ok
    | with_reducible apply setCoreState_ok | with_reducible apply setFlag_ok | with_reducible apply setMode_ok
    | with_reducible apply stewardReset_ok | with_reducible apply wr_ok | split

theorem trap_ok (h : Ok kp zz s) {n : Nat} {num : Nat} {eval : Word} (kFresh : kp .fresh = true := by assumption) (kMem : kp
    .mem = true := by assumption) (kCores : kp .cores = true := by assumption) (kDmc : kp .dmc = true := by assumption) (kPwr
    : kp .pwr = true := by assumption) : Ok kp zz (trap n num eval s) := by
  unfold trap
  repeat' first
    | with_reducible assumption | with_reducible apply takeException_ok

theorem execEventException_ok (h : Ok kp zz s) {n : Fin 5} (kFresh : kp .fresh = true := by assumption) (kMem : kp .mem = true
    := by assumption) (kCores : kp .cores = true := by assumption) (kDmc : kp .dmc = true := by assumption) (kPwr : kp .pwr =
    true := by assumption) : OkO kp zz (execEventException n s) := by
  unfold execEventException
  repeat' first
    | with_reducible assumption | with_reducible apply done_ok | with_reducible apply trap_ok | split

theorem execEventPost_ok (h : Ok kp zz s) {e : Fin 256} : OkO kp zz (execEventPost e s) := by
  unfold execEventPost
  repeat' first
    | with_reducible assumption | with_reducible apply okO_ite | with_reducible apply okO_next | with_reducible apply okO_fault
    | with_reducible apply okO_refused | with_reducible apply ok_ite | with_reducible apply done_ok
    | with_reducible apply raiseIf_ok | split | (with_reducible intro u x hu) | (with_reducible intro u hu) | dsimp only
    | (fail_if_no_progress refine ok_mk ?_ (by and_intros <;> first | with_reducible exact Or.inl rfl | exact Or.inr (by assumption)))

theorem waitReturn_ok (h : Ok kp zz s) {n : Nat} {wd : Nat} {g : Nat} {r : Word} (kCores : kp .cores = true := by assumption)
    : Ok kp zz (waitReturn n wd g r s) := by
  unfold waitReturn
  repeat' first
    | with_reducible assumption | with_reducible apply setCore_ok | with_reducible apply setFlag_ok
    | with_reducible apply setPend_ok | with_reducible apply setReg_ok | with_reducible apply setZ_ok

theorem execWaitReturn_ok (h : Ok kp zz s) {n : Fin 5} (kCores : kp .cores = true := by assumption) : OkO kp zz
    (execWaitReturn n s) := by
  unfold execWaitReturn
  repeat' first
    | with_reducible assumption | with_reducible apply okO_ite | with_reducible apply ok_ite | with_reducible apply done_ok
    | with_reducible apply waitReturn_ok | split

theorem execWaitTimeout_ok (h : Ok kp zz s) {n : Fin 5} {ofs : Nat} (kTbs : kp .tbs = true := by assumption) (kCores : kp
    .cores = true := by assumption) : OkO kp zz (execWaitTimeout n ofs s) := by
  unfold execWaitTimeout
  try dsimp only
  repeat' first
    | with_reducible assumption | with_reducible apply okO_ite | with_reducible apply okO_next | with_reducible apply okO_fault
    | with_reducible apply okO_refused | with_reducible apply ok_ite | with_reducible apply atOfs_ok
    | with_reducible apply done_ok | (refine (done_ok ?_) _ (by assumption)) | with_reducible apply waitReturn_ok | split
    | (with_reducible intro u x hu) | (with_reducible intro u hu) | dsimp only
    | (fail_if_no_progress refine ok_mk ?_ (by and_intros <;> first | with_reducible exact Or.inl rfl | exact Or.inr (by assumption)))

theorem runCore_ok (h : Ok kp zz s) {n : Nat} (kAccepted : kp .accepted = true := by assumption) (kCores : kp .cores = true :=
    by assumption) : Ok kp zz (runCore n s) := by
  unfold runCore
  repeat' first
    | with_reducible assumption | with_reducible apply complete_ok | with_reducible apply setCoreState_ok
    | with_reducible apply setMode_ok | with_reducible apply setPc_ok

theorem clearEvents_ok (h : Ok kp zz s) {n : Nat} : Ok kp zz (clearEvents n s) := by
  unfold clearEvents
  repeat' first
    | with_reducible assumption | with_reducible apply setPend_ok | with_reducible apply wr_ok | with_reducible apply ok_foldl
    | (with_reducible intro u x hu)

theorem dropCommits_ok (h : Ok kp zz s) {n : Nat} (kCores : kp .cores = true := by assumption) : Ok kp zz (dropCommits n s) :=
    by
  unfold dropCommits
  repeat' first
    | with_reducible assumption | with_reducible apply addSat_ok | with_reducible apply setQueue_ok

theorem restartCore_ok (h : Ok kp zz s) {n : Nat} {w : Word} (kFresh : kp .fresh = true := by assumption) (kAccepted : kp
    .accepted = true := by assumption) (kMem : kp .mem = true := by assumption) (kCores : kp .cores = true := by assumption)
    (kDmc : kp .dmc = true := by assumption) : Ok kp zz (restartCore n w s) := by
  unfold restartCore
  repeat' first
    | with_reducible assumption | with_reducible apply ok_ite | with_reducible apply addMod_ok
    | with_reducible apply clearEvents_ok | with_reducible apply dropCommits_ok | with_reducible apply fence_ok
    | with_reducible apply flushQueue_ok | with_reducible apply runCore_ok | with_reducible apply setCore_ok
    | with_reducible apply setFlag_ok | with_reducible apply ok_foldl | (with_reducible intro u x hu) | split

theorem halted_ok (h : Ok kp zz s) {n : Nat} {w : Word} (kFresh : kp .fresh = true := by assumption) (kAccepted : kp .accepted
    = true := by assumption) (kMem : kp .mem = true := by assumption) (kCores : kp .cores = true := by assumption) (kDmc : kp
    .dmc = true := by assumption) : Ok kp zz (halted n w s) := by
  unfold halted
  repeat' first
    | with_reducible assumption | with_reducible apply ok_ite | with_reducible apply complete_ok
    | with_reducible apply drainStores_ok | with_reducible apply raise_ok | with_reducible apply restartCore_ok
    | with_reducible apply setCore_ok | with_reducible apply setCoreState_ok | with_reducible apply setFlag_ok | split

theorem stopCore_ok (h : Ok kp zz s) {n : Nat} {w : Word} (kFresh : kp .fresh = true := by assumption) (kAccepted : kp
    .accepted = true := by assumption) (kMem : kp .mem = true := by assumption) (kCores : kp .cores = true := by assumption)
    (kDmc : kp .dmc = true := by assumption) : Ok kp zz (stopCore n w s) := by
  unfold stopCore
  repeat' first
    | with_reducible assumption | with_reducible apply ok_ite | with_reducible apply accept_ok | with_reducible apply halted_ok
    | split

theorem execCoreRun_ok (h : Ok kp zz s) {n : Fin 8} (kAccepted : kp .accepted = true := by assumption) (kCores : kp .cores =
    true := by assumption) : OkO kp zz (execCoreRun n s) := by
  unfold execCoreRun
  repeat' first
    | with_reducible assumption | with_reducible apply okO_ite | with_reducible apply ok_ite | with_reducible apply done_ok
    | with_reducible apply refuse_ok | with_reducible apply reject_ok | with_reducible apply runCore_ok | split

theorem execCoreHalt_ok (h : Ok kp zz s) {n : Fin 8} (kFresh : kp .fresh = true := by assumption) (kAccepted : kp .accepted =
    true := by assumption) (kMem : kp .mem = true := by assumption) (kCores : kp .cores = true := by assumption) (kDmc : kp
    .dmc = true := by assumption) : OkO kp zz (execCoreHalt n s) := by
  unfold execCoreHalt
  repeat' first
    | with_reducible assumption | with_reducible apply okO_ite | with_reducible apply ok_ite | with_reducible apply done_ok
    | with_reducible apply refuse_ok | with_reducible apply reject_ok | with_reducible apply stopCore_ok | split

theorem execCoreRestart_ok (h : Ok kp zz s) {n : Fin 8} {flush : Bool} {drop : Bool} (kFresh : kp .fresh = true := by
    assumption) (kAccepted : kp .accepted = true := by assumption) (kMem : kp .mem = true := by assumption) (kCores : kp
    .cores = true := by assumption) (kDmc : kp .dmc = true := by assumption) : OkO kp zz (execCoreRestart n flush drop s) :=
    by
  unfold execCoreRestart
  repeat' first
    | with_reducible assumption | with_reducible apply okO_ite | with_reducible apply ok_ite | with_reducible apply done_ok
    | with_reducible apply reject_ok | with_reducible apply restartCore_ok | with_reducible apply stopCore_ok | split

theorem execCoreHalted_ok (h : Ok kp zz s) {n : Fin 4} (kFresh : kp .fresh = true := by assumption) (kAccepted : kp .accepted
    = true := by assumption) (kMem : kp .mem = true := by assumption) (kCores : kp .cores = true := by assumption) (kDmc : kp
    .dmc = true := by assumption) : OkO kp zz (execCoreHalted n s) := by
  unfold execCoreHalted
  repeat' first
    | with_reducible assumption | with_reducible apply done_ok | with_reducible apply halted_ok | split

theorem abandonStore_ok (h : Ok kp zz s) {n : Nat} (kFresh : kp .fresh = true := by assumption) (kMem : kp .mem = true := by
    assumption) (kCores : kp .cores = true := by assumption) (kDmc : kp .dmc = true := by assumption) : Ok kp zz (abandonStore
    n s) := by
  unfold abandonStore
  try dsimp only
  repeat' first
    | with_reducible assumption | with_reducible apply ok_ite | with_reducible apply drainOne_ok
    | with_reducible apply freshen_ok | with_reducible apply setCore_ok | split | (with_reducible intro u x hu)
    | (with_reducible intro u hu) | dsimp only
    | (fail_if_no_progress refine ok_mk ?_ (by and_intros <;> first | with_reducible exact Or.inl rfl | exact Or.inr (by assumption)))

theorem execHaltTimeout_ok (h : Ok kp zz s) {n : Fin 4} (kFresh : kp .fresh = true := by assumption) (kAccepted : kp .accepted
    = true := by assumption) (kMem : kp .mem = true := by assumption) (kCores : kp .cores = true := by assumption) (kDmc : kp
    .dmc = true := by assumption) : OkO kp zz (execHaltTimeout n s) := by
  unfold execHaltTimeout
  repeat' first
    | with_reducible assumption | with_reducible apply abandonStore_ok | with_reducible apply complete_ok
    | with_reducible apply done_ok | with_reducible apply raise_ok | with_reducible apply setCoreState_ok | split

theorem badCommit_ok (h : Ok kp zz s) : Ok kp zz (badCommit s) := by
  unfold badCommit
  repeat' first
    | with_reducible assumption | with_reducible apply addSat_ok

theorem commitOutput_ok (h : Ok kp zz s) {t : Nat} {arg : Word} (kOut : kp .out = true := by assumption) : Ok kp zz
    (commitOutput t arg s) := by
  unfold commitOutput
  repeat' first
    | with_reducible assumption | with_reducible apply ok_ite | with_reducible apply setAout_ok
    | with_reducible apply setInOrder_ok | with_reducible apply setPwm_ok | with_reducible apply setTrigBase_ok | split
    | (with_reducible intro u x hu) | (with_reducible intro u hu) | dsimp only
    | (fail_if_no_progress refine ok_mk ?_ (by and_intros <;> first | with_reducible exact Or.inl rfl | exact Or.inr (by assumption)))

theorem applyKind_ok (h : Ok kp zz s) {kind : Nat} {target : Nat} {v : Word} (kTbs : kp .tbs = true := by assumption) (kOut :
    kp .out = true := by assumption) : Ok kp zz (applyKind kind target v s) := by
  unfold applyKind
  repeat' first
    | with_reducible assumption | with_reducible apply ok_ite | with_reducible apply badCommit_ok
    | with_reducible apply commitOutput_ok | with_reducible apply putSetpoint_ok | with_reducible apply raise_ok
    | with_reducible apply slEnable_ok | split

theorem applyCommit_ok (h : Ok kp zz s) {n : Nat} {e : QEntry} {ms : List MsgWord} (kTbs : kp .tbs = true := by assumption)
    (kOut : kp .out = true := by assumption) : Ok kp zz (applyCommit n e ms s).2 := by
  unfold applyCommit
  repeat' first
    | with_reducible assumption | with_reducible apply ok_ite2 | with_reducible apply ok_ite | with_reducible apply addSat_ok
    | with_reducible apply applyKind_ok | with_reducible apply count_ok | with_reducible apply digestItem_ok
    | with_reducible apply raise_ok | split

theorem applyQueue_ok {n k : Nat} {ms : List MsgWord} (h : Ok kp zz s) (kTbs : kp .tbs = true := by assumption) (kOut : kp .out = true := by assumption) (kCores : kp .cores = true := by assumption) : Ok kp zz (applyQueue n k ms s).2 := by
  induction k generalizing s ms with
  | zero => exact h
  | succ k ih =>
    unfold applyQueue
    dsimp only
    split
    · exact ih (applyCommit_ok (setQueue_ok h))
    · exact h

theorem sendMessage_ok (h : Ok kp zz s) {m : Nat} {ws : List MsgWord} (kOut : kp .out = true := by assumption) (kCores : kp
    .cores = true := by assumption) : Ok kp zz (sendMessage m ws s) := by
  unfold sendMessage
  repeat' first
    | with_reducible assumption | with_reducible apply handFrame_ok | with_reducible apply setCores_ok
    | with_reducible apply wr_ok | split

theorem sendMessages_ok {k : Nat} {ms : List MsgWord} (h : Ok kp zz s) (kOut : kp .out = true := by assumption) (kCores : kp .cores = true := by assumption) : Ok kp zz (sendMessages k ms s) := by
  induction k generalizing s ms with
  | zero => exact h
  | succ k ih =>
    unfold sendMessages
    split
    · exact h
    · exact ih (sendMessage_ok h)

theorem execCommitDescriptorApply_ok (h : Ok kp zz s) (kTbs : kp .tbs = true := by assumption) (kOut : kp .out = true := by
    assumption) (kCores : kp .cores = true := by assumption) : OkO kp zz (execCommitDescriptorApply s) := by
  unfold execCommitDescriptorApply
  try dsimp only
  repeat' first
    | with_reducible assumption | with_reducible apply okO_ite | with_reducible apply okO_next | with_reducible apply okO_fault
    | with_reducible apply okO_refused | with_reducible apply ok_ite2 | with_reducible assumption | with_reducible apply ok_ite
    | with_reducible apply applyQueue_ok | with_reducible apply done_ok | with_reducible apply sendMessages_ok
    | with_reducible apply setCores_ok | with_reducible apply ok_foldl_snd | with_reducible apply ok_foldl | split
    | (with_reducible intro u x hu) | (with_reducible intro u hu) | dsimp only
    | (fail_if_no_progress refine ok_mk ?_ (by and_intros <;> first | with_reducible exact Or.inl rfl | exact Or.inr (by assumption)))

end Sys2Proof.Machine
end

