-- ==== Sys2Proof/Laws/KeepLanes.lean ====
section
/-!
SUPPORT. What the operations of Machine/Lanes.lean keep.
-/
namespace Sys2Proof.Machine
open Sys2Proof

set_option Elab.async false
set_option linter.unreachableTactic false
set_option linter.unusedTactic false
set_option linter.unusedVariables false

variable {kp : Comp → Bool} {zz s : State}

theorem setLane_ok (h : Ok kp zz s) {n : Nat} {x : Lane} (kLanes : kp .lanes = true := by assumption) : Ok kp zz (setLane n x
    s) := by
  unfold setLane
  repeat' first
    | with_reducible assumption
    | (fail_if_no_progress refine ok_mk ?_ (by and_intros <;> first | with_reducible exact Or.inl rfl | exact Or.inr (by assumption)))

theorem injected_ok (h : Ok kp zz s) {n : Nat} {k : Nat} : Ok kp zz (injected n k s) := by
  unfold injected
  repeat' first
    | with_reducible assumption | with_reducible apply addSat_ok

theorem flipsTo_ok (h : Ok kp zz s) {n : Nat} {upTo : Nat} (kLanes : kp .lanes = true := by assumption) : Ok kp zz (flipsTo n
    upTo s).2 := by
  unfold flipsTo
  try dsimp only
  repeat' first
    | with_reducible assumption | with_reducible apply ok_ite2 | with_reducible assumption | with_reducible apply ok_ite
    | with_reducible apply injected_ok | with_reducible apply setLane_ok | split | (with_reducible intro u x hu)
    | (with_reducible intro u hu) | dsimp only
    | (fail_if_no_progress refine ok_mk ?_ (by and_intros <;> first | with_reducible exact Or.inl rfl | exact Or.inr (by assumption)))

theorem blocksAt_ok (h : Ok kp zz s) {n : Nat} {p : Nat} {bs : List Block} (kSent : kp .sent = true := by assumption) (kLanes
    : kp .lanes = true := by assumption) : Ok kp zz (blocksAt n p bs s) := by
  unfold blocksAt
  try dsimp only
  repeat' first
    | with_reducible assumption | with_reducible apply ok_ite2 | with_reducible assumption | with_reducible apply ok_ite
    | with_reducible apply emit_ok | with_reducible apply flipsTo_ok | with_reducible apply setLane_ok | split
    | (with_reducible intro u x hu) | (with_reducible intro u hu) | dsimp only
    | (fail_if_no_progress refine ok_mk ?_ (by and_intros <;> first | with_reducible exact Or.inl rfl | exact Or.inr (by assumption)))

theorem sendTraining_ok (h : Ok kp zz s) {n : Nat} {p : Nat} {k : Nat} (kFresh : kp .fresh = true := by assumption) (kSent :
    kp .sent = true := by assumption) (kLanes : kp .lanes = true := by assumption) : Ok kp zz (sendTraining n p k s) := by
  unfold sendTraining
  try dsimp only
  repeat' first
    | with_reducible assumption | with_reducible apply ok_ite | with_reducible apply blocksAt_ok | with_reducible apply emit_ok
    | with_reducible apply setLane_ok | split | (with_reducible intro u x hu) | (with_reducible intro u hu) | dsimp only
    | (fail_if_no_progress refine ok_mk ?_ (by and_intros <;> first | with_reducible exact Or.inl rfl | exact Or.inr (by assumption)))

theorem trainFlow_ok (h : Ok kp zz s) {n : Nat} (kFresh : kp .fresh = true := by assumption) (kSent : kp .sent = true := by
    assumption) (kLanes : kp .lanes = true := by assumption) : Ok kp zz (trainFlow n s) := by
  unfold trainFlow
  try dsimp only
  repeat' first
    | with_reducible assumption | with_reducible apply ok_ite | with_reducible apply sendTraining_ok | split
    | (with_reducible intro u x hu) | (with_reducible intro u hu) | dsimp only
    | (fail_if_no_progress refine ok_mk ?_ (by and_intros <;> first | with_reducible exact Or.inl rfl | exact Or.inr (by assumption)))

theorem checkBits_ok (h : Ok kp zz s) {n : Nat} {bits : List Bool} (kAcq : kp .acq = true := by assumption) (kLanes : kp
    .lanes = true := by assumption) : Ok kp zz (checkBits n bits s) := by
  unfold checkBits
  try dsimp only
  repeat' first
    | with_reducible assumption | with_reducible apply ok_ite | with_reducible apply raise_ok | with_reducible apply setFlag_ok
    | with_reducible apply setLane_ok | with_reducible apply ok_foldl_snd | with_reducible apply ok_foldl | split
    | (with_reducible intro u x hu) | (with_reducible intro u hu) | dsimp only
    | (fail_if_no_progress refine ok_mk ?_ (by and_intros <;> first | with_reducible exact Or.inl rfl | exact Or.inr (by assumption)))

theorem testFlow_ok (h : Ok kp zz s) {n : Nat} {arrived : List Bool} (kSent : kp .sent = true := by assumption) (kAcq : kp
    .acq = true := by assumption) (kLanes : kp .lanes = true := by assumption) : Ok kp zz (testFlow n arrived s) := by
  unfold testFlow
  try dsimp only
  repeat' first
    | with_reducible assumption | with_reducible apply ok_ite2 | with_reducible assumption | with_reducible apply ok_ite
    | with_reducible apply checkBits_ok | with_reducible apply emit_ok | with_reducible apply flipsTo_ok
    | with_reducible apply setLane_ok | split | (with_reducible intro u x hu) | (with_reducible intro u hu) | dsimp only
    | (fail_if_no_progress refine ok_mk ?_ (by and_intros <;> first | with_reducible exact Or.inl rfl | exact Or.inr (by assumption)))

theorem groupsAt_ok (h : Ok kp zz s) {n : Nat} {p : Nat} {gs : List (Nat ⊕ Nat)} (kSent : kp .sent = true := by assumption)
    (kLanes : kp .lanes = true := by assumption) : Ok kp zz (groupsAt n p gs s) := by
  unfold groupsAt
  try dsimp only
  repeat' first
    | with_reducible assumption | with_reducible apply ok_ite2 | with_reducible assumption | with_reducible apply ok_ite
    | with_reducible apply emit_ok | with_reducible apply flipsTo_ok | with_reducible apply setLane_ok | split
    | (with_reducible intro u x hu) | (with_reducible intro u hu) | dsimp only
    | (fail_if_no_progress refine ok_mk ?_ (by and_intros <;> first | with_reducible exact Or.inl rfl | exact Or.inr (by assumption)))

theorem idleFlow_ok (h : Ok kp zz s) {n : Nat} (kSent : kp .sent = true := by assumption) (kLanes : kp .lanes = true := by
    assumption) : Ok kp zz (idleFlow n s) := by
  unfold idleFlow
  try dsimp only
  repeat' first
    | with_reducible assumption | with_reducible apply ok_ite | with_reducible apply blocksAt_ok
    | with_reducible apply groupsAt_ok | split | (with_reducible intro u x hu) | (with_reducible intro u hu) | dsimp only
    | (fail_if_no_progress refine ok_mk ?_ (by and_intros <;> first | with_reducible exact Or.inl rfl | exact Or.inr (by assumption)))

theorem flow_ok (h : Ok kp zz s) {n : Nat} {arrived : List Bool} (kFresh : kp .fresh = true := by assumption) (kSent : kp
    .sent = true := by assumption) (kAcq : kp .acq = true := by assumption) (kLanes : kp .lanes = true := by assumption) : Ok
    kp zz (flow n arrived s) := by
  unfold flow
  try dsimp only
  repeat' first
    | with_reducible assumption | with_reducible apply ok_ite2 | with_reducible assumption | with_reducible apply ok_ite
    | with_reducible apply flipsTo_ok | with_reducible apply idleFlow_ok | with_reducible apply testFlow_ok
    | with_reducible apply trainFlow_ok | split | (with_reducible intro u x hu) | (with_reducible intro u hu) | dsimp only
    | (fail_if_no_progress refine ok_mk ?_ (by and_intros <;> first | with_reducible exact Or.inl rfl | exact Or.inr (by assumption)))

theorem sendBlocks_ok (h : Ok kp zz s) {n : Nat} {bs : List Block} (kFresh : kp .fresh = true := by assumption) (kSent : kp
    .sent = true := by assumption) (kAcq : kp .acq = true := by assumption) (kLanes : kp .lanes = true := by assumption) : Ok
    kp zz (sendBlocks n bs s) := by
  unfold sendBlocks
  try dsimp only
  repeat' first
    | with_reducible assumption | with_reducible apply ok_ite | with_reducible apply blocksAt_ok | with_reducible apply flow_ok
    | split | (with_reducible intro u x hu) | (with_reducible intro u hu) | dsimp only
    | (fail_if_no_progress refine ok_mk ?_ (by and_intros <;> first | with_reducible exact Or.inl rfl | exact Or.inr (by assumption)))

theorem sendLine_ok (h : Ok kp zz s) {n : Nat} {bs : List Byte} (kFresh : kp .fresh = true := by assumption) (kSent : kp .sent
    = true := by assumption) (kAcq : kp .acq = true := by assumption) (kLanes : kp .lanes = true := by assumption) : Ok kp zz
    (sendLine n bs s) := by
  unfold sendLine
  repeat' first
    | with_reducible assumption | with_reducible apply ok_ite | with_reducible apply sendBlocks_ok | split
    | (with_reducible intro u x hu) | (with_reducible intro u hu) | dsimp only
    | (fail_if_no_progress refine ok_mk ?_ (by and_intros <;> first | with_reducible exact Or.inl rfl | exact Or.inr (by assumption)))

theorem sendMacFrame_ok (h : Ok kp zz s) {n : Nat} {bs : List Byte} (kFresh : kp .fresh = true := by assumption) (kSent : kp
    .sent = true := by assumption) (kAcq : kp .acq = true := by assumption) (kLanes : kp .lanes = true := by assumption) : Ok
    kp zz (sendMacFrame n bs s) := by
  unfold sendMacFrame
  try dsimp only
  repeat' first
    | with_reducible assumption | with_reducible apply ok_ite | with_reducible apply flow_ok | with_reducible apply groupsAt_ok
    | with_reducible apply sendLine_ok | split | (with_reducible intro u x hu) | (with_reducible intro u hu) | dsimp only
    | (fail_if_no_progress refine ok_mk ?_ (by and_intros <;> first | with_reducible exact Or.inl rfl | exact Or.inr (by assumption)))

theorem rebase_ok (h : Ok kp zz s) {n : Nat} (kFresh : kp .fresh = true := by assumption) (kSent : kp .sent = true := by
    assumption) (kAcq : kp .acq = true := by assumption) (kLanes : kp .lanes = true := by assumption) : Ok kp zz (rebase n s)
    := by
  unfold rebase
  try dsimp only
  repeat' first
    | with_reducible assumption | with_reducible apply ok_ite | with_reducible apply flow_ok | with_reducible apply setLane_ok
    | split | (with_reducible intro u x hu) | (with_reducible intro u hu) | dsimp only
    | (fail_if_no_progress refine ok_mk ?_ (by and_intros <;> first | with_reducible exact Or.inl rfl | exact Or.inr (by assumption)))

theorem setTaps_ok (h : Ok kp zz s) {n : Nat} {t : Nat × Nat × Nat} : Ok kp zz (setTaps n t s) := by
  unfold setTaps
  repeat' first
    | with_reducible assumption | with_reducible apply wr_ok

theorem offerTaps_ok (h : Ok kp zz s) {n : Nat} {t : Nat × Nat × Nat} : Ok kp zz (offerTaps n t s) := by
  unfold offerTaps
  repeat' first
    | with_reducible assumption | with_reducible apply ok_ite | with_reducible apply setTaps_ok | split

theorem enterLane_ok (h : Ok kp zz s) {n : Nat} {st : Nat} (kFresh : kp .fresh = true := by assumption) (kSent : kp .sent =
    true := by assumption) (kAcq : kp .acq = true := by assumption) (kLanes : kp .lanes = true := by assumption) : Ok kp zz
    (enterLane n st s) := by
  unfold enterLane
  try dsimp only
  repeat' first
    | with_reducible assumption | with_reducible apply ok_ite | with_reducible apply rebase_ok | with_reducible apply setFld_ok
    | with_reducible apply setLane_ok | with_reducible apply wr_ok | split | (with_reducible intro u x hu)
    | (with_reducible intro u hu) | dsimp only
    | (fail_if_no_progress refine ok_mk ?_ (by and_intros <;> first | with_reducible exact Or.inl rfl | exact Or.inr (by assumption)))

theorem showLatency_ok (h : Ok kp zz s) {n : Nat} : Ok kp zz (showLatency n s) := by
  unfold showLatency
  repeat' first
    | with_reducible assumption | with_reducible apply wr_ok

theorem takeControl_ok (h : Ok kp zz s) {n : Nat} (kFresh : kp .fresh = true := by assumption) (kSent : kp .sent = true := by
    assumption) (kAcq : kp .acq = true := by assumption) (kLanes : kp .lanes = true := by assumption) : Ok kp zz (takeControl
    n s) := by
  unfold takeControl
  try dsimp only
  repeat' first
    | with_reducible assumption | with_reducible apply ok_ite | with_reducible apply rebase_ok | with_reducible apply setFlag_ok
    | with_reducible apply setLane_ok | split | (with_reducible intro u x hu) | (with_reducible intro u hu) | dsimp only
    | (fail_if_no_progress refine ok_mk ?_ (by and_intros <;> first | with_reducible exact Or.inl rfl | exact Or.inr (by assumption)))

theorem enterTest_ok (h : Ok kp zz s) {n : Nat} (kFresh : kp .fresh = true := by assumption) (kSent : kp .sent = true := by
    assumption) (kAcq : kp .acq = true := by assumption) (kLanes : kp .lanes = true := by assumption) : Ok kp zz (enterTest n
    s) := by
  unfold enterTest
  repeat' first
    | with_reducible assumption | with_reducible apply enterLane_ok | with_reducible apply offerTaps_ok
    | with_reducible apply setFld_ok | with_reducible apply showLatency_ok

theorem enterOff_ok (h : Ok kp zz s) {n : Nat} (kFresh : kp .fresh = true := by assumption) (kSent : kp .sent = true := by
    assumption) (kAcq : kp .acq = true := by assumption) (kLanes : kp .lanes = true := by assumption) : Ok kp zz (enterOff n
    s) := by
  unfold enterOff
  repeat' first
    | with_reducible assumption | with_reducible apply enterLane_ok | with_reducible apply setFlag_ok
    | with_reducible apply setFld_ok

theorem enterListen_ok (h : Ok kp zz s) {n : Nat} (kFresh : kp .fresh = true := by assumption) (kSent : kp .sent = true := by
    assumption) (kAcq : kp .acq = true := by assumption) (kLanes : kp .lanes = true := by assumption) : Ok kp zz (enterListen
    n s) := by
  unfold enterListen
  repeat' first
    | with_reducible assumption | with_reducible apply enterLane_ok | with_reducible apply offerTaps_ok
    | with_reducible apply setFld_ok | with_reducible apply setLane_ok

theorem enterAcquire_ok (h : Ok kp zz s) {n : Nat} {rate : Nat} {attempt : Nat} (kFresh : kp .fresh = true := by assumption)
    (kSent : kp .sent = true := by assumption) (kAcq : kp .acq = true := by assumption) (kLanes : kp .lanes = true := by
    assumption) : Ok kp zz (enterAcquire n rate attempt s) := by
  unfold enterAcquire
  try dsimp only
  repeat' first
    | with_reducible assumption | with_reducible apply ok_ite | with_reducible apply addSat_ok
    | with_reducible apply enterLane_ok | with_reducible apply enterOff_ok | with_reducible apply enterTest_ok
    | with_reducible apply offerTaps_ok | with_reducible apply raiseIf_ok | with_reducible apply setFld_ok
    | with_reducible apply setLane_ok | with_reducible apply takeControl_ok | split | (with_reducible intro u x hu)
    | (with_reducible intro u hu) | dsimp only
    | (fail_if_no_progress refine ok_mk ?_ (by and_intros <;> first | with_reducible exact Or.inl rfl | exact Or.inr (by assumption)))

theorem acquireTop_ok (h : Ok kp zz s) {n : Nat} (kFresh : kp .fresh = true := by assumption) (kSent : kp .sent = true := by
    assumption) (kAcq : kp .acq = true := by assumption) (kLanes : kp .lanes = true := by assumption) : Ok kp zz (acquireTop n
    s) := by
  unfold acquireTop
  repeat' first
    | with_reducible assumption | with_reducible apply enterAcquire_ok | with_reducible apply takeControl_ok

theorem signalSeen_ok (h : Ok kp zz s) {n : Nat} : Ok kp zz (signalSeen n s) := by
  unfold signalSeen
  repeat' first
    | with_reducible assumption | with_reducible apply setFlag_ok | with_reducible apply setFld_ok

theorem enterFail_ok (h : Ok kp zz s) {n : Nat} {cause : Nat} (kFresh : kp .fresh = true := by assumption) (kSent : kp .sent =
    true := by assumption) (kAcq : kp .acq = true := by assumption) (kLanes : kp .lanes = true := by assumption) : Ok kp zz
    (enterFail n cause s) := by
  unfold enterFail
  repeat' first
    | with_reducible assumption | with_reducible apply enterLane_ok | with_reducible apply raise_ok
    | with_reducible apply setFlag_ok | with_reducible apply setFld_ok

theorem attemptFails_ok (h : Ok kp zz s) {n : Nat} (kFresh : kp .fresh = true := by assumption) (kSent : kp .sent = true := by
    assumption) (kAcq : kp .acq = true := by assumption) (kLanes : kp .lanes = true := by assumption) : Ok kp zz (attemptFails
    n s) := by
  unfold attemptFails
  repeat' first
    | with_reducible assumption | with_reducible apply ok_ite | with_reducible apply enterAcquire_ok
    | with_reducible apply enterFail_ok | with_reducible apply raise_ok | with_reducible apply setFlag_ok | split

theorem answerTaps_ok (h : Ok kp zz s) {n : Nat} {b : TrainBlock} (kLanes : kp .lanes = true := by assumption) : Ok kp zz
    (answerTaps n b s) := by
  unfold answerTaps
  repeat' first
    | with_reducible assumption | with_reducible apply ok_ite2 | with_reducible apply ok_ite | with_reducible apply offerTaps_ok
    | with_reducible apply setLane_ok | with_reducible apply setTaps_ok | split

theorem askTaps_ok (h : Ok kp zz s) {n : Nat} {b : TrainBlock} (kFresh : kp .fresh = true := by assumption) (kLanes : kp
    .lanes = true := by assumption) : Ok kp zz (askTaps n b s) := by
  unfold askTaps
  try dsimp only
  repeat' first
    | with_reducible assumption | with_reducible apply ok_ite2 | with_reducible assumption | with_reducible apply ok_ite
    | with_reducible apply freshen_ok | with_reducible apply setLane_ok | split | (with_reducible intro u x hu)
    | (with_reducible intro u hu) | dsimp only
    | (fail_if_no_progress refine ok_mk ?_ (by and_intros <;> first | with_reducible exact Or.inl rfl | exact Or.inr (by assumption)))

theorem judgeConfirm_ok (h : Ok kp zz s) {n : Nat} (kFresh : kp .fresh = true := by assumption) (kSent : kp .sent = true := by
    assumption) (kAcq : kp .acq = true := by assumption) (kLanes : kp .lanes = true := by assumption) : Ok kp zz (judgeConfirm
    n s) := by
  unfold judgeConfirm
  repeat' first
    | with_reducible assumption | with_reducible apply ok_ite | with_reducible apply enterLane_ok | split

theorem injectNow_ok (h : Ok kp zz s) {n : Nat} (kFresh : kp .fresh = true := by assumption) (kAccepted : kp .accepted = true
    := by assumption) (kSent : kp .sent = true := by assumption) (kAcq : kp .acq = true := by assumption) (kLanes : kp .lanes
    = true := by assumption) : Ok kp zz (injectNow n s) := by
  unfold injectNow
  try dsimp only
  repeat' first
    | with_reducible assumption | with_reducible apply ok_ite | with_reducible apply complete_ok | with_reducible apply flow_ok
    | with_reducible apply injected_ok | with_reducible apply setLane_ok | split | (with_reducible intro u x hu)
    | (with_reducible intro u hu) | dsimp only
    | (fail_if_no_progress refine ok_mk ?_ (by and_intros <;> first | with_reducible exact Or.inl rfl | exact Or.inr (by assumption)))

theorem checkerStart_ok (h : Ok kp zz s) {n : Nat} (kLanes : kp .lanes = true := by assumption) : Ok kp zz (checkerStart n s)
    := by
  unfold checkerStart
  repeat' first
    | with_reducible assumption | with_reducible apply setFlag_ok | with_reducible apply setLane_ok

theorem checkerStop_ok (h : Ok kp zz s) {n : Nat} (kLanes : kp .lanes = true := by assumption) : Ok kp zz (checkerStop n s) :=
    by
  unfold checkerStop
  repeat' first
    | with_reducible assumption | with_reducible apply setFlag_ok | with_reducible apply setLane_ok

theorem genStart_ok (h : Ok kp zz s) {n : Nat} (kLanes : kp .lanes = true := by assumption) : Ok kp zz (genStart n s) := by
  unfold genStart
  repeat' first
    | with_reducible assumption | with_reducible apply ok_ite | with_reducible apply setLane_ok | split
    | (with_reducible intro u x hu) | (with_reducible intro u hu) | dsimp only
    | (fail_if_no_progress refine ok_mk ?_ (by and_intros <;> first | with_reducible exact Or.inl rfl | exact Or.inr (by assumption)))

theorem overrideCtle_ok (h : Ok kp zz s) {n : Nat} : Ok kp zz (overrideCtle n s) := by
  unfold overrideCtle
  repeat' first
    | with_reducible assumption | with_reducible apply ok_ite | with_reducible apply setFld_ok | split
    | (with_reducible intro u x hu) | (with_reducible intro u hu) | dsimp only
    | (fail_if_no_progress refine ok_mk ?_ (by and_intros <;> first | with_reducible exact Or.inl rfl | exact Or.inr (by assumption)))

end Sys2Proof.Machine
end

