-- ==== Sys2Proof/Laws/KeepWoten.lean ====
section
/-!
SUPPORT. What the operations of Machine/Woten.lean keep.
-/
namespace Sys2Proof.Machine
open Sys2Proof

set_option Elab.async false
set_option linter.unreachableTactic false
set_option linter.unusedTactic false
set_option linter.unusedVariables false

variable {kp : Comp → Bool} {zz s : State}

theorem setWot_ok (h : Ok kp zz s) {x : Wot} (kWot : kp .wot = true := by assumption) : Ok kp zz (setWot x s) := by
  unfold setWot
  repeat' first
    | with_reducible assumption
    | (fail_if_no_progress refine ok_mk ?_ (by and_intros <;> first | with_reducible exact Or.inl rfl | exact Or.inr (by assumption)))

theorem setLink_ok (h : Ok kp zz s) {l : Nat} {x : Link} (kWot : kp .wot = true := by assumption) : Ok kp zz (setLink l x s)
    := by
  unfold setLink
  repeat' first
    | with_reducible assumption
    | (fail_if_no_progress refine ok_mk ?_ (by and_intros <;> first | with_reducible exact Or.inl rfl | exact Or.inr (by assumption)))

theorem setVc_ok (h : Ok kp zz s) {l : Nat} {v : Nat} {x : LinkVc} (kWot : kp .wot = true := by assumption) : Ok kp zz (setVc
    l v x s) := by
  unfold setVc
  repeat' first
    | with_reducible assumption | with_reducible apply setLink_ok

theorem onCounts_ok (h : Ok kp zz s) {l : Nat} {g : State → State} (hg : ∀ u, Ok kp zz u → Ok kp zz (g u)) : Ok kp zz
    (onCounts l g s) := by
  unfold onCounts
  repeat' first
    | with_reducible assumption | with_reducible apply ok_ite | with_reducible apply hg | split

theorem countDrop_ok (h : Ok kp zz s) {l : Nat} {k : Nat} : Ok kp zz (countDrop l k s) := by
  unfold countDrop
  repeat' first
    | with_reducible assumption | with_reducible apply addSat_ok | with_reducible apply onCounts_ok
    | (with_reducible intro u hu)

theorem countCrc_ok (h : Ok kp zz s) {l : Nat} : Ok kp zz (countCrc l s) := by
  unfold countCrc
  repeat' first
    | with_reducible assumption | with_reducible apply addSat_ok | with_reducible apply count_ok
    | with_reducible apply onCounts_ok | (with_reducible intro u hu)

theorem countSeq_ok (h : Ok kp zz s) {l : Nat} : Ok kp zz (countSeq l s) := by
  unfold countSeq
  repeat' first
    | with_reducible assumption | with_reducible apply addSat_ok | with_reducible apply onCounts_ok
    | (with_reducible intro u hu)

theorem countRetx_ok (h : Ok kp zz s) {l : Nat} {k : Nat} : Ok kp zz (countRetx l k s) := by
  unfold countRetx
  repeat' first
    | with_reducible assumption | with_reducible apply addSat_ok | with_reducible apply count_ok
    | with_reducible apply onCounts_ok | (with_reducible intro u hu)

theorem enqueueFrame_ok (h : Ok kp zz s) {l : Nat} {f : LineFrame} (kWot : kp .wot = true := by assumption) : Ok kp zz
    (enqueueFrame l f s) := by
  unfold enqueueFrame
  repeat' first
    | with_reducible assumption | with_reducible apply setVc_ok

theorem enqueueCut_ok (h : Ok kp zz s) {l : Nat} {c : CutFrame} (kWot : kp .wot = true := by assumption) : Ok kp zz
    (enqueueCut l c s) := by
  unfold enqueueCut
  repeat' first
    | with_reducible assumption | with_reducible apply ok_ite | with_reducible apply setLink_ok | with_reducible apply setVc_ok
    | split

theorem orphan_ok (h : Ok kp zz s) {l : Nat} (kWot : kp .wot = true := by assumption) : Ok kp zz (orphan l s) := by
  unfold orphan
  try dsimp only
  repeat' first
    | with_reducible assumption | with_reducible apply ok_ite2 | with_reducible assumption | with_reducible apply ok_ite
    | with_reducible apply setLink_ok | with_reducible apply ok_foldl_snd | with_reducible apply ok_foldl | split
    | (with_reducible intro u x hu) | (with_reducible intro u hu) | dsimp only
    | (fail_if_no_progress refine ok_mk ?_ (by and_intros <;> first | with_reducible exact Or.inl rfl | exact Or.inr (by assumption)))

theorem forwardWhole_ok (h : Ok kp zz s) {f : LineFrame} (kWot : kp .wot = true := by assumption) : Ok kp zz (forwardWhole f
    s) := by
  unfold forwardWhole
  repeat' first
    | with_reducible assumption | with_reducible apply ok_ite | with_reducible apply countDrop_ok
    | with_reducible apply enqueueFrame_ok | split

theorem forwardCut_ok (h : Ok kp zz s) {a : Arrived} (kWot : kp .wot = true := by assumption) : Ok kp zz (forwardCut a s) :=
    by
  unfold forwardCut
  repeat' first
    | with_reducible assumption | with_reducible apply ok_ite | with_reducible apply countDrop_ok
    | with_reducible apply enqueueCut_ok | split

theorem moveFrames_ok (h : Ok kp zz s) (kOut : kp .out = true := by assumption) (kWot : kp .wot = true := by assumption) : Ok
    kp zz (moveFrames s) := by
  unfold moveFrames
  repeat' first
    | with_reducible assumption | with_reducible apply ok_ite | with_reducible apply countDrop_ok
    | with_reducible apply enqueueFrame_ok | with_reducible apply setOut_ok | with_reducible apply setWot_ok
    | with_reducible apply ok_foldl | (with_reducible intro u x hu) | split

theorem showSpill_ok (h : Ok kp zz s) : Ok kp zz (showSpill s) := by
  unfold showSpill
  repeat' first
    | with_reducible assumption | with_reducible apply wr_ok | split

theorem streamSent_ok (h : Ok kp zz s) {n : Nat} (kWot : kp .wot = true := by assumption) : Ok kp zz (streamSent n s) := by
  unfold streamSent
  try dsimp only
  repeat' first
    | with_reducible assumption | with_reducible apply ok_ite | with_reducible apply setWot_ok | split
    | (with_reducible intro u x hu) | (with_reducible intro u hu) | dsimp only
    | (fail_if_no_progress refine ok_mk ?_ (by and_intros <;> first | with_reducible exact Or.inl rfl | exact Or.inr (by assumption)))

theorem freeSpill_ok (h : Ok kp zz s) {next : Nat} (kWot : kp .wot = true := by assumption) : Ok kp zz (freeSpill next s) :=
    by
  unfold freeSpill
  repeat' first
    | with_reducible assumption | with_reducible apply setFlag_ok | with_reducible apply setWot_ok
    | with_reducible apply showSpill_ok

theorem spillFrame_ok (h : Ok kp zz s) {num : Nat} {f : LineFrame} (kFresh : kp .fresh = true := by assumption) (kMem : kp
    .mem = true := by assumption) (kRed : kp .red = true := by assumption) (kCores : kp .cores = true := by assumption) (kWot
    : kp .wot = true := by assumption) (kDmc : kp .dmc = true := by assumption) : Ok kp zz (spillFrame num f s) := by
  unfold spillFrame
  try dsimp only
  repeat' first
    | with_reducible assumption | with_reducible apply ok_ite | with_reducible apply captureWrite_ok
    | with_reducible apply setWot_ok | with_reducible apply showSpill_ok | split | (with_reducible intro u x hu)
    | (with_reducible intro u hu) | dsimp only
    | (fail_if_no_progress refine ok_mk ?_ (by and_intros <;> first | with_reducible exact Or.inl rfl | exact Or.inr (by assumption)))

theorem spillLost_ok (h : Ok kp zz s) : Ok kp zz (spillLost s) := by
  unfold spillLost
  repeat' first
    | with_reducible assumption | with_reducible apply addSat_ok | with_reducible apply count_ok
    | with_reducible apply raiseIf_ok | with_reducible apply setFlag_ok

theorem closeStream_ok (h : Ok kp zz s) {c : Nat} (kFresh : kp .fresh = true := by assumption) (kMem : kp .mem = true := by
    assumption) (kRed : kp .red = true := by assumption) (kCores : kp .cores = true := by assumption) (kWot : kp .wot = true
    := by assumption) (kDmc : kp .dmc = true := by assumption) : Ok kp zz (closeStream c s) := by
  unfold closeStream
  repeat' first
    | with_reducible assumption | with_reducible apply ok_ite | with_reducible apply count_ok | with_reducible apply setFlag_ok
    | with_reducible apply setWot_ok | with_reducible apply showSpill_ok | with_reducible apply spillFrame_ok
    | with_reducible apply spillLost_ok | with_reducible apply wr_ok | split

theorem streamRecord_ok (h : Ok kp zz s) {r : Rec} (kFresh : kp .fresh = true := by assumption) (kMem : kp .mem = true := by
    assumption) (kRed : kp .red = true := by assumption) (kCores : kp .cores = true := by assumption) (kWot : kp .wot = true
    := by assumption) (kDmc : kp .dmc = true := by assumption) : Ok kp zz (streamRecord r s) := by
  unfold streamRecord
  try dsimp only
  repeat' first
    | with_reducible assumption | with_reducible apply ok_ite2 | with_reducible assumption | with_reducible apply ok_ite
    | with_reducible apply closeStream_ok | with_reducible apply setFill_ok | with_reducible apply setWot_ok | split
    | (with_reducible intro u x hu) | (with_reducible intro u hu) | dsimp only
    | (fail_if_no_progress refine ok_mk ?_ (by and_intros <;> first | with_reducible exact Or.inl rfl | exact Or.inr (by assumption)))

theorem execStreamFrameClose_ok (h : Ok kp zz s) {c : Fin 256} (kFresh : kp .fresh = true := by assumption) (kMem : kp .mem =
    true := by assumption) (kRed : kp .red = true := by assumption) (kCores : kp .cores = true := by assumption) (kWot : kp
    .wot = true := by assumption) (kDmc : kp .dmc = true := by assumption) : OkO kp zz (execStreamFrameClose c s) := by
  unfold execStreamFrameClose
  repeat' first
    | with_reducible assumption | with_reducible apply okO_ite | with_reducible apply ok_ite2 | with_reducible apply ok_ite
    | with_reducible apply closeStream_ok | with_reducible apply done_ok | split

theorem fetchStream_ok (h : Ok kp zz s) {n : Nat} {k : Nat} {f : LineFrame} (kFresh : kp .fresh = true := by assumption) (kMem
    : kp .mem = true := by assumption) (kCores : kp .cores = true := by assumption) (kDmc : kp .dmc = true := by assumption) :
    Ok kp zz (fetchStream n k f s).2 := by
  unfold fetchStream
  try dsimp only
  repeat' first
    | with_reducible assumption | with_reducible apply ok_ite2 | with_reducible assumption | with_reducible apply ok_ite
    | with_reducible apply awaitRead_ok | with_reducible apply engineRead_ok | split | (with_reducible intro u x hu)
    | (with_reducible intro u hu) | dsimp only
    | (fail_if_no_progress refine ok_mk ?_ (by and_intros <;> first | with_reducible exact Or.inl rfl | exact Or.inr (by assumption)))

theorem feedStream_ok (h : Ok kp zz s) {l : Nat} (kFresh : kp .fresh = true := by assumption) (kMem : kp .mem = true := by
    assumption) (kCores : kp .cores = true := by assumption) (kWot : kp .wot = true := by assumption) (kDmc : kp .dmc = true
    := by assumption) : Ok kp zz (feedStream l s) := by
  unfold feedStream
  try dsimp only
  repeat' first
    | with_reducible assumption | with_reducible apply ok_ite2 | with_reducible assumption | with_reducible apply ok_ite
    | with_reducible apply enqueueFrame_ok | with_reducible apply fetchStream_ok | with_reducible apply streamSent_ok | split
    | (with_reducible intro u x hu) | (with_reducible intro u hu) | dsimp only
    | (fail_if_no_progress refine ok_mk ?_ (by and_intros <;> first | with_reducible exact Or.inl rfl | exact Or.inr (by assumption)))

theorem setSeen_ok (h : Ok kp zz s) {west : Bool} {x : HeadSeen} (kWot : kp .wot = true := by assumption) : Ok kp zz (setSeen
    west x s) := by
  unfold setSeen
  repeat' first
    | with_reducible assumption | with_reducible apply ok_ite | with_reducible apply setWot_ok | split

theorem dropTransit_ok (h : Ok kp zz s) {l : Nat} (kWot : kp .wot = true := by assumption) : Ok kp zz (dropTransit l s) := by
  unfold dropTransit
  repeat' first
    | with_reducible assumption | with_reducible apply countDrop_ok | with_reducible apply setVc_ok

theorem resendStream_ok (h : Ok kp zz s) (kWot : kp .wot = true := by assumption) : Ok kp zz (resendStream s) := by
  unfold resendStream
  repeat' first
    | with_reducible assumption | with_reducible apply setWot_ok

theorem setDirection_ok (h : Ok kp zz s) {d : Nat} (kWot : kp .wot = true := by assumption) : Ok kp zz (setDirection d s) :=
    by
  unfold setDirection
  repeat' first
    | with_reducible assumption | with_reducible apply ok_ite | with_reducible apply dropTransit_ok
    | with_reducible apply raise_ok | with_reducible apply resendStream_ok | with_reducible apply setFld_ok
    | with_reducible apply setVc_ok | split

theorem judgeDirection_ok (h : Ok kp zz s) (kWot : kp .wot = true := by assumption) : Ok kp zz (judgeDirection s) := by
  unfold judgeDirection
  repeat' first
    | with_reducible assumption | with_reducible apply ok_ite | with_reducible apply setDirection_ok | split

theorem loseHead_ok (h : Ok kp zz s) {west : Bool} (kWot : kp .wot = true := by assumption) : Ok kp zz (loseHead west s) := by
  unfold loseHead
  repeat' first
    | with_reducible assumption | with_reducible apply judgeDirection_ok | with_reducible apply setFlag_ok
    | with_reducible apply setSeen_ok

theorem execHeadUnreachable_ok (h : Ok kp zz s) {west : Bool} {ofs : Nat} (kTbs : kp .tbs = true := by assumption) (kWot : kp
    .wot = true := by assumption) : OkO kp zz (execHeadUnreachable west ofs s) := by
  unfold execHeadUnreachable
  repeat' first
    | with_reducible assumption | with_reducible apply okO_ite | with_reducible apply ok_ite | with_reducible apply atOfs_ok
    | with_reducible apply done_ok | with_reducible apply loseHead_ok | split

theorem execRevertHoldExpire_ok (h : Ok kp zz s) (kWot : kp .wot = true := by assumption) : OkO kp zz (execRevertHoldExpire s)
    := by
  unfold execRevertHoldExpire
  repeat' first
    | with_reducible assumption | with_reducible apply okO_ite | with_reducible apply ok_ite | with_reducible apply done_ok
    | with_reducible apply setDirection_ok | split

theorem execReroute_ok (h : Ok kp zz s) (kAccepted : kp .accepted = true := by assumption) (kWot : kp .wot = true := by
    assumption) : OkO kp zz (execReroute s) := by
  unfold execReroute
  repeat' first
    | with_reducible assumption | with_reducible apply okO_ite | with_reducible apply ok_ite | with_reducible apply complete_ok
    | with_reducible apply done_ok | with_reducible apply refuse_ok | with_reducible apply setDirection_ok | split

theorem takeAddr_ok (h : Ok kp zz s) : Ok kp zz (takeAddr s) := by
  unfold takeAddr
  repeat' first
    | with_reducible assumption | with_reducible apply ok_ite | with_reducible apply setFlag_ok | with_reducible apply setFld_ok
    | split | (with_reducible intro u x hu) | (with_reducible intro u hu) | dsimp only
    | (fail_if_no_progress refine ok_mk ?_ (by and_intros <;> first | with_reducible exact Or.inl rfl | exact Or.inr (by assumption)))

theorem ownDistance_ok (h : Ok kp zz s) : Ok kp zz (ownDistance s) := by
  unfold ownDistance
  repeat' first
    | with_reducible assumption | with_reducible apply ok_ite | with_reducible apply setFld_ok | split
    | (with_reducible intro u x hu) | (with_reducible intro u hu) | dsimp only
    | (fail_if_no_progress refine ok_mk ?_ (by and_intros <;> first | with_reducible exact Or.inl rfl | exact Or.inr (by assumption)))

theorem execRenumber_ok (h : Ok kp zz s) (kAccepted : kp .accepted = true := by assumption) : OkO kp zz (execRenumber s) := by
  unfold execRenumber
  repeat' first
    | with_reducible assumption | with_reducible apply okO_ite | with_reducible apply okO_next | with_reducible apply okO_fault
    | with_reducible apply okO_refused | with_reducible apply ok_ite | with_reducible apply complete_ok
    | with_reducible apply done_ok | with_reducible apply refuse_ok | with_reducible apply setFlag_ok
    | with_reducible apply takeAddr_ok | split | (with_reducible intro u x hu) | (with_reducible intro u hu) | dsimp only
    | (fail_if_no_progress refine ok_mk ?_ (by and_intros <;> first | with_reducible exact Or.inl rfl | exact Or.inr (by assumption)))

theorem showLink_ok (h : Ok kp zz s) {l : Nat} : Ok kp zz (showLink l s) := by
  unfold showLink
  repeat' first
    | with_reducible assumption | with_reducible apply ok_ite | with_reducible apply setFlag_ok | split

theorem freshDelay_ok (h : Ok kp zz s) {l : Nat} (kAccepted : kp .accepted = true := by assumption) (kWot : kp .wot = true :=
    by assumption) (kTwin : kp .twin = true := by assumption) : Ok kp zz (freshDelay l s) := by
  unfold freshDelay
  repeat' first
    | with_reducible assumption | with_reducible apply ok_ite | with_reducible apply setFlag_ok
    | with_reducible apply setLink_ok | split

theorem linkReset_ok (h : Ok kp zz s) {l : Nat} (kAccepted : kp .accepted = true := by assumption) (kWot : kp .wot = true :=
    by assumption) (kTwin : kp .twin = true := by assumption) : Ok kp zz (linkReset l s) := by
  unfold linkReset
  try dsimp only
  repeat' first
    | with_reducible assumption | with_reducible apply ok_ite | with_reducible apply addSat_ok
    | with_reducible apply countDrop_ok | with_reducible apply freshDelay_ok | with_reducible apply orphan_ok
    | with_reducible apply raise_ok | with_reducible apply resendStream_ok | with_reducible apply setLink_ok
    | with_reducible apply showLink_ok | split | (with_reducible intro u x hu) | (with_reducible intro u hu) | dsimp only
    | (fail_if_no_progress refine ok_mk ?_ (by and_intros <;> first | with_reducible exact Or.inl rfl | exact Or.inr (by assumption)))

theorem takeLack_ok (h : Ok kp zz s) {l : Nat} {v : Nat} {lack : Nat} (kWot : kp .wot = true := by assumption) : Ok kp zz
    (takeLack l v lack s) := by
  unfold takeLack
  repeat' first
    | with_reducible assumption | with_reducible apply ok_ite | with_reducible apply setVc_ok | split

theorem resendAll_ok (h : Ok kp zz s) {l : Nat} {v : Nat} (kWot : kp .wot = true := by assumption) : Ok kp zz (resendAll l v
    s) := by
  unfold resendAll
  repeat' first
    | with_reducible assumption | with_reducible apply ok_ite | with_reducible apply setVc_ok | split

theorem oweAck_ok (h : Ok kp zz s) {l : Nat} {v : Nat} {nak : Bool} (kWot : kp .wot = true := by assumption) : Ok kp zz
    (oweAck l v nak s) := by
  unfold oweAck
  repeat' first
    | with_reducible assumption | with_reducible apply ok_ite | with_reducible apply setLink_ok | split

theorem oweNak_ok (h : Ok kp zz s) {l : Nat} {v : Nat} (kWot : kp .wot = true := by assumption) : Ok kp zz (oweNak l v s) :=
    by
  unfold oweNak
  repeat' first
    | with_reducible assumption | with_reducible apply ok_ite | with_reducible apply oweAck_ok | with_reducible apply setVc_ok
    | split

theorem takeAck_ok (h : Ok kp zz s) {l : Nat} {f : LineFrame} (kWot : kp .wot = true := by assumption) : Ok kp zz (takeAck l f
    s) := by
  unfold takeAck
  repeat' first
    | with_reducible assumption | with_reducible apply ok_ite | with_reducible apply resendAll_ok
    | with_reducible apply takeLack_ok | split

theorem acceptFrame_ok (h : Ok kp zz s) {l : Nat} {f : LineFrame} (kFresh : kp .fresh = true := by assumption) (kWot : kp .wot
    = true := by assumption) : Ok kp zz (acceptFrame l f s) := by
  unfold acceptFrame
  try dsimp only
  repeat' first
    | with_reducible assumption | with_reducible apply ok_ite | with_reducible apply freshen_ok | with_reducible apply setVc_ok
    | with_reducible apply setWot_ok | split | (with_reducible intro u x hu) | (with_reducible intro u hu) | dsimp only
    | (fail_if_no_progress refine ok_mk ?_ (by and_intros <;> first | with_reducible exact Or.inl rfl | exact Or.inr (by assumption)))

theorem heardTwin_ok (h : Ok kp zz s) {l : Nat} (kTwin : kp .twin = true := by assumption) : Ok kp zz (heardTwin l s) := by
  unfold heardTwin
  repeat' first
    | with_reducible assumption | with_reducible apply ok_ite
    | (fail_if_no_progress refine ok_mk ?_ (by and_intros <;> first | with_reducible exact Or.inl rfl | exact Or.inr (by assumption)))
    | split

theorem trafficOn_ok (h : Ok kp zz s) {l : Nat} (kLanes : kp .lanes = true := by assumption) : Ok kp zz (trafficOn l s) := by
  unfold trafficOn
  repeat' first
    | with_reducible assumption | with_reducible apply setLane_ok

theorem execWotFrameReceive_ok (h : Ok kp zz s) {l : Fin 3} {ofs : Nat} {bytes : List Byte} (kFresh : kp .fresh = true := by
    assumption) (kTbs : kp .tbs = true := by assumption) (kLanes : kp .lanes = true := by assumption) (kWot : kp .wot = true
    := by assumption) (kTwin : kp .twin = true := by assumption) : OkO kp zz (execWotFrameReceive l ofs bytes s) := by
  unfold execWotFrameReceive
  try dsimp only
  repeat' first
    | with_reducible assumption | with_reducible apply okO_ite | with_reducible apply okO_next | with_reducible apply okO_fault
    | with_reducible apply okO_refused | with_reducible apply ok_ite | with_reducible apply acceptFrame_ok
    | with_reducible apply atOfs_ok | with_reducible apply countCrc_ok | with_reducible apply countDrop_ok
    | with_reducible apply countSeq_ok | with_reducible apply done_ok | (refine (done_ok ?_) _ (by assumption))
    | with_reducible apply freshen_ok | with_reducible apply heardTwin_ok | with_reducible apply oweNak_ok
    | with_reducible apply setWot_ok | with_reducible apply takeAck_ok | with_reducible apply takeLack_ok
    | with_reducible apply trafficOn_ok | with_reducible apply whileAwake_ok | (refine (whileAwake_ok ?_) _ (by assumption))
    | split | (with_reducible intro u x hu) | (with_reducible intro u hu) | dsimp only
    | (fail_if_no_progress refine ok_mk ?_ (by and_intros <;> first | with_reducible exact Or.inl rfl | exact Or.inr (by assumption)))

theorem execAckReceive_ok (h : Ok kp zz s) {l : Fin 3} {ofs : Nat} {bytes : List Byte} (kTbs : kp .tbs = true := by
    assumption) (kLanes : kp .lanes = true := by assumption) (kWot : kp .wot = true := by assumption) (kTwin : kp .twin = true
    := by assumption) : OkO kp zz (execAckReceive l ofs bytes s) := by
  unfold execAckReceive
  try dsimp only
  repeat' first
    | with_reducible assumption | with_reducible apply okO_ite | with_reducible apply okO_next | with_reducible apply okO_fault
    | with_reducible apply okO_refused | with_reducible apply ok_ite | with_reducible apply atOfs_ok
    | with_reducible apply countCrc_ok | with_reducible apply countDrop_ok | with_reducible apply done_ok
    | (refine (done_ok ?_) _ (by assumption)) | with_reducible apply heardTwin_ok | with_reducible apply takeAck_ok
    | with_reducible apply trafficOn_ok | with_reducible apply whileAwake_ok | (refine (whileAwake_ok ?_) _ (by assumption))
    | split | (with_reducible intro u x hu) | (with_reducible intro u hu) | dsimp only
    | (fail_if_no_progress refine ok_mk ?_ (by and_intros <;> first | with_reducible exact Or.inl rfl | exact Or.inr (by assumption)))

theorem execAckSend_ok (h : Ok kp zz s) {l : Fin 3} {v : Fin 4} {ofs : Nat} (kTbs : kp .tbs = true := by assumption) (kWot :
    kp .wot = true := by assumption) : OkO kp zz (execAckSend l v ofs s) := by
  unfold execAckSend
  repeat' first
    | with_reducible assumption | with_reducible apply okO_ite | with_reducible apply ok_ite | with_reducible apply atOfs_ok
    | with_reducible apply done_ok | with_reducible apply oweAck_ok | with_reducible apply setVc_ok | split

theorem selects_ok (h : Ok kp zz s) {l : Nat} {v : Nat} (kWot : kp .wot = true := by assumption) : Ok kp zz (selects l v s).2
    := by
  unfold selects
  repeat' first
    | with_reducible assumption | with_reducible apply setFlag_ok | with_reducible apply setWot_ok | split

theorem sendKept_ok (h : Ok kp zz s) {l : Nat} {v : Nat} {bs : Option (List Byte)} (kFresh : kp .fresh = true := by
    assumption) (kSent : kp .sent = true := by assumption) (kAcq : kp .acq = true := by assumption) (kLanes : kp .lanes = true
    := by assumption) (kWot : kp .wot = true := by assumption) : Ok kp zz (sendKept l v bs s) := by
  unfold sendKept
  try dsimp only
  repeat' first
    | with_reducible assumption | with_reducible apply ok_ite | with_reducible apply sendLine_ok | with_reducible apply setVc_ok
    | with_reducible apply ok_foldl_snd | with_reducible apply ok_foldl | split | (with_reducible intro u x hu)
    | (with_reducible intro u hu) | dsimp only
    | (fail_if_no_progress refine ok_mk ?_ (by and_intros <;> first | with_reducible exact Or.inl rfl | exact Or.inr (by assumption)))

theorem launch_ok (h : Ok kp zz s) {l : Nat} {v : Nat} {bs : List Byte} (kFresh : kp .fresh = true := by assumption) (kSent :
    kp .sent = true := by assumption) (kAcq : kp .acq = true := by assumption) (kLanes : kp .lanes = true := by assumption)
    (kWot : kp .wot = true := by assumption) : Ok kp zz (launch l v bs s) := by
  unfold launch
  try dsimp only
  repeat' first
    | with_reducible assumption | with_reducible apply ok_ite2 | with_reducible assumption | with_reducible apply ok_ite
    | with_reducible apply addSat_ok | with_reducible apply freshen_ok | with_reducible apply selects_ok
    | with_reducible apply sendKept_ok | with_reducible apply setVc_ok | split | (with_reducible intro u x hu)
    | (with_reducible intro u hu) | dsimp only
    | (fail_if_no_progress refine ok_mk ?_ (by and_intros <;> first | with_reducible exact Or.inl rfl | exact Or.inr (by assumption)))

theorem sendFrame_ok (h : Ok kp zz s) {l : Nat} {f0 : LineFrame} {hole : Option (Nat × Nat)} (kFresh : kp .fresh = true := by
    assumption) (kSent : kp .sent = true := by assumption) (kAcq : kp .acq = true := by assumption) (kLanes : kp .lanes = true
    := by assumption) (kWot : kp .wot = true := by assumption) : Ok kp zz (sendFrame l f0 hole s) := by
  unfold sendFrame
  try dsimp only
  repeat' first
    | with_reducible assumption | with_reducible apply ok_ite | with_reducible apply freshen_ok | with_reducible apply launch_ok
    | with_reducible apply setVc_ok | split | (with_reducible intro u x hu) | (with_reducible intro u hu) | dsimp only
    | (fail_if_no_progress refine ok_mk ?_ (by and_intros <;> first | with_reducible exact Or.inl rfl | exact Or.inr (by assumption)))

theorem sendAck_ok (h : Ok kp zz s) {l : Nat} {v : Nat} {nak : Bool} (kFresh : kp .fresh = true := by assumption) (kSent : kp
    .sent = true := by assumption) (kAcq : kp .acq = true := by assumption) (kLanes : kp .lanes = true := by assumption) (kWot
    : kp .wot = true := by assumption) : Ok kp zz (sendAck l v nak s) := by
  unfold sendAck
  try dsimp only
  repeat' first
    | with_reducible assumption | with_reducible apply ok_ite | with_reducible apply sendLine_ok | with_reducible apply setVc_ok
    | split | (with_reducible intro u x hu) | (with_reducible intro u hu) | dsimp only
    | (fail_if_no_progress refine ok_mk ?_ (by and_intros <;> first | with_reducible exact Or.inl rfl | exact Or.inr (by assumption)))

theorem sendAgain_ok (h : Ok kp zz s) {l : Nat} {v : Nat} {i : Nat} {f : LineFrame} (kFresh : kp .fresh = true := by
    assumption) (kSent : kp .sent = true := by assumption) (kAcq : kp .acq = true := by assumption) (kLanes : kp .lanes = true
    := by assumption) (kWot : kp .wot = true := by assumption) : Ok kp zz (sendAgain l v i f s) := by
  unfold sendAgain
  try dsimp only
  repeat' first
    | with_reducible assumption | with_reducible apply ok_ite | with_reducible apply countRetx_ok
    | with_reducible apply freshen_ok | with_reducible apply launch_ok | with_reducible apply setVc_ok | split
    | (with_reducible intro u x hu) | (with_reducible intro u hu) | dsimp only
    | (fail_if_no_progress refine ok_mk ?_ (by and_intros <;> first | with_reducible exact Or.inl rfl | exact Or.inr (by assumption)))

theorem execFrameBoundary_ok (h : Ok kp zz s) {l : Fin 3} {ofs : Nat} (kFresh : kp .fresh = true := by assumption) (kMem : kp
    .mem = true := by assumption) (kSent : kp .sent = true := by assumption) (kTbs : kp .tbs = true := by assumption) (kOut :
    kp .out = true := by assumption) (kAcq : kp .acq = true := by assumption) (kCores : kp .cores = true := by assumption)
    (kLanes : kp .lanes = true := by assumption) (kWot : kp .wot = true := by assumption) (kDmc : kp .dmc = true := by
    assumption) : OkO kp zz (execFrameBoundary l ofs s) := by
  unfold execFrameBoundary
  try dsimp only
  repeat' first
    | with_reducible assumption | with_reducible apply okO_ite | with_reducible apply okO_next | with_reducible apply okO_fault
    | with_reducible apply okO_refused | with_reducible apply ok_ite2 | with_reducible assumption | with_reducible apply ok_ite
    | with_reducible apply atOfs_ok | with_reducible apply done_ok | (refine (done_ok ?_) _ (by assumption))
    | with_reducible apply feedStream_ok | with_reducible apply moveFrames_ok | with_reducible apply sendAck_ok
    | with_reducible apply sendAgain_ok | with_reducible apply sendFrame_ok | with_reducible apply setLink_ok
    | with_reducible apply setVc_ok | with_reducible apply whileAwake_ok | (refine (whileAwake_ok ?_) _ (by assumption)) | split
    | (with_reducible intro u x hu) | (with_reducible intro u hu) | dsimp only
    | (fail_if_no_progress refine ok_mk ?_ (by and_intros <;> first | with_reducible exact Or.inl rfl | exact Or.inr (by assumption)))

theorem injStart_ok (h : Ok kp zz s) (kWot : kp .wot = true := by assumption) : Ok kp zz (injStart s) := by
  unfold injStart
  repeat' first
    | with_reducible assumption | with_reducible apply setWot_ok

theorem execWotInjEnable_ok (h : Ok kp zz s) (kWot : kp .wot = true := by assumption) : OkO kp zz (execWotInjEnable s) := by
  unfold execWotInjEnable
  repeat' first
    | with_reducible assumption | with_reducible apply okO_ite | with_reducible apply ok_ite | with_reducible apply done_ok
    | with_reducible apply injStart_ok | with_reducible apply setFlag_ok | split

theorem execWotInjDelayExpire_ok (h : Ok kp zz s) {l : Fin 2} {v : Fin 4} {ofs : Nat} (kFresh : kp .fresh = true := by
    assumption) (kSent : kp .sent = true := by assumption) (kTbs : kp .tbs = true := by assumption) (kAcq : kp .acq = true :=
    by assumption) (kLanes : kp .lanes = true := by assumption) (kWot : kp .wot = true := by assumption) : OkO kp zz
    (execWotInjDelayExpire l v ofs s) := by
  unfold execWotInjDelayExpire
  try dsimp only
  repeat' first
    | with_reducible assumption | with_reducible apply okO_ite | with_reducible apply okO_next | with_reducible apply okO_fault
    | with_reducible apply okO_refused | with_reducible apply ok_ite | with_reducible apply atOfs_ok
    | with_reducible apply done_ok | (refine (done_ok ?_) _ (by assumption)) | with_reducible apply sendKept_ok
    | with_reducible apply setVc_ok | split | (with_reducible intro u x hu) | (with_reducible intro u hu) | dsimp only
    | (fail_if_no_progress refine ok_mk ?_ (by and_intros <;> first | with_reducible exact Or.inl rfl | exact Or.inr (by assumption)))

theorem takeArrived_ok {q : Arrived → Bool} {a : Arrived} {t : State} (h : Ok kp zz s) (e : takeArrived q s = some (a, t)) (kWot : kp .wot = true := by assumption) : Ok kp zz t := by
  unfold takeArrived at e
  repeat' split at e
  all_goals first
    | (cases e; exact ok_mk h (by and_intros <;> first | exact Or.inl rfl | exact Or.inr (by assumption)))
    | cases e

theorem execCutThroughForward_ok (h : Ok kp zz s) {ofs : Nat} (kTbs : kp .tbs = true := by assumption) (kWot : kp .wot = true
    := by assumption) : OkO kp zz (execCutThroughForward ofs s) := by
  unfold execCutThroughForward
  repeat' first
    | with_reducible assumption | (refine takeArrived_ok ?_ (by assumption)) | with_reducible apply atOfs_ok
    | with_reducible apply done_ok | with_reducible apply forwardCut_ok | split

theorem execAccessionSend_ok (h : Ok kp zz s) (kWot : kp .wot = true := by assumption) : OkO kp zz (execAccessionSend s) := by
  unfold execAccessionSend
  repeat' first
    | with_reducible assumption | with_reducible apply okO_ite | with_reducible apply ok_ite | with_reducible apply done_ok
    | with_reducible apply enqueueFrame_ok | with_reducible apply setLink_ok | split

theorem hearAccession_ok (h : Ok kp zz s) {carried : Nat} {id : Nat} (kAccepted : kp .accepted = true := by assumption) (kWot
    : kp .wot = true := by assumption) (kTwin : kp .twin = true := by assumption) : Ok kp zz (hearAccession carried id s) :=
    by
  unfold hearAccession
  repeat' first
    | with_reducible assumption | with_reducible apply ok_ite | with_reducible apply raise_ok | with_reducible apply setFlag_ok
    | with_reducible apply setFld_ok | with_reducible apply setLink_ok | split

theorem execAccessionReceive_ok (h : Ok kp zz s) (kAccepted : kp .accepted = true := by assumption) (kWot : kp .wot = true :=
    by assumption) (kTwin : kp .twin = true := by assumption) : OkO kp zz (execAccessionReceive s) := by
  unfold execAccessionReceive
  repeat' first
    | with_reducible assumption | (refine takeArrived_ok ?_ (by assumption)) | with_reducible apply done_ok
    | with_reducible apply hearAccession_ok | split

theorem deliver_ok (h : Ok kp zz s) {f : LineFrame} (kWot : kp .wot = true := by assumption) : Ok kp zz (deliver f s) := by
  unfold deliver
  repeat' first
    | with_reducible assumption | with_reducible apply setWot_ok

theorem execSplitReqSend_ok (h : Ok kp zz s) {l : Fin 3} (kWot : kp .wot = true := by assumption) : OkO kp zz
    (execSplitReqSend l s) := by
  unfold execSplitReqSend
  repeat' first
    | with_reducible assumption | with_reducible apply okO_ite | with_reducible apply ok_ite | with_reducible apply done_ok
    | with_reducible apply enqueueFrame_ok | with_reducible apply setLink_ok | split

theorem execSplitReqReceive_ok (h : Ok kp zz s) (kWot : kp .wot = true := by assumption) : OkO kp zz (execSplitReqReceive s)
    := by
  unfold execSplitReqReceive
  repeat' first
    | with_reducible assumption | (refine takeArrived_ok ?_ (by assumption)) | with_reducible apply done_ok
    | with_reducible apply enqueueFrame_ok | split

theorem showDelay_ok (h : Ok kp zz s) {l : Nat} : Ok kp zz (showDelay l s) := by
  unfold showDelay
  repeat' first
    | with_reducible assumption | with_reducible apply ok_ite | with_reducible apply setFlag_ok | with_reducible apply wr_ok
    | split

theorem execSplitRespReceive_ok (h : Ok kp zz s) (kWot : kp .wot = true := by assumption) : OkO kp zz (execSplitRespReceive s)
    := by
  unfold execSplitRespReceive
  repeat' first
    | with_reducible assumption | (refine takeArrived_ok ?_ (by assumption)) | with_reducible apply done_ok
    | with_reducible apply setLink_ok | with_reducible apply showDelay_ok | split

theorem execBatonSend_ok (h : Ok kp zz s) (kWot : kp .wot = true := by assumption) : OkO kp zz (execBatonSend s) := by
  unfold execBatonSend
  repeat' first
    | with_reducible assumption | with_reducible apply okO_ite | with_reducible apply ok_ite | with_reducible apply done_ok
    | with_reducible apply enqueueCut_ok | with_reducible apply setWot_ok | split

theorem batonMeasure_ok (h : Ok kp zz s) {a : Arrived} (kFresh : kp .fresh = true := by assumption) (kTbs : kp .tbs = true :=
    by assumption) : Ok kp zz (batonMeasure a s) := by
  unfold batonMeasure
  repeat' first
    | with_reducible assumption | with_reducible apply measureFrom_ok | split

theorem batonHeard_ok (h : Ok kp zz s) {west : Bool} {f : LineFrame} (kWot : kp .wot = true := by assumption) : Ok kp zz
    (batonHeard west f s) := by
  unfold batonHeard
  try dsimp only
  repeat' first
    | with_reducible assumption | with_reducible apply ok_ite | with_reducible apply judgeDirection_ok
    | with_reducible apply ownDistance_ok | with_reducible apply setFlag_ok | with_reducible apply setFld_ok
    | with_reducible apply setSeen_ok | split | (with_reducible intro u x hu) | (with_reducible intro u hu) | dsimp only
    | (fail_if_no_progress refine ok_mk ?_ (by and_intros <;> first | with_reducible exact Or.inl rfl | exact Or.inr (by assumption)))

theorem execBatonReceive_ok (h : Ok kp zz s) {ofs : Nat} (kFresh : kp .fresh = true := by assumption) (kTbs : kp .tbs = true
    := by assumption) (kWot : kp .wot = true := by assumption) : OkO kp zz (execBatonReceive ofs s) := by
  unfold execBatonReceive
  repeat' first
    | with_reducible assumption | (refine takeArrived_ok ?_ (by assumption)) | with_reducible apply atOfs_ok
    | with_reducible apply batonHeard_ok | with_reducible apply batonMeasure_ok | with_reducible apply done_ok
    | with_reducible apply forwardCut_ok | split

theorem execTallyBroadcast_ok (h : Ok kp zz s) {n : Fin 4} (kWot : kp .wot = true := by assumption) : OkO kp zz
    (execTallyBroadcast n s) := by
  unfold execTallyBroadcast
  repeat' first
    | with_reducible assumption | with_reducible apply okO_ite | with_reducible apply ok_ite | with_reducible apply done_ok
    | with_reducible apply enqueueCut_ok | with_reducible apply setWot_ok | with_reducible apply ok_foldl
    | (with_reducible intro u x hu) | split

theorem execStreamAckSend_ok (h : Ok kp zz s) (kWot : kp .wot = true := by assumption) : OkO kp zz (execStreamAckSend s) := by
  unfold execStreamAckSend
  repeat' first
    | with_reducible assumption | with_reducible apply okO_ite | with_reducible apply ok_ite | with_reducible apply done_ok
    | with_reducible apply enqueueFrame_ok | with_reducible apply setWot_ok | with_reducible apply ok_foldl
    | (with_reducible intro u x hu) | split

theorem sendAgainAt_ok (h : Ok kp zz s) (kFresh : kp .fresh = true := by assumption) (kWot : kp .wot = true := by assumption)
    : Ok kp zz (sendAgainAt s) := by
  unfold sendAgainAt
  try dsimp only
  repeat' first
    | with_reducible assumption | with_reducible apply ok_ite | with_reducible apply freshen_ok
    | with_reducible apply resendStream_ok | split | (with_reducible intro u x hu) | (with_reducible intro u hu) | dsimp only
    | (fail_if_no_progress refine ok_mk ?_ (by and_intros <;> first | with_reducible exact Or.inl rfl | exact Or.inr (by assumption)))

theorem execStreamAckReceive_ok (h : Ok kp zz s) (kFresh : kp .fresh = true := by assumption) (kWot : kp .wot = true := by
    assumption) : OkO kp zz (execStreamAckReceive s) := by
  unfold execStreamAckReceive
  try dsimp only
  repeat' first
    | with_reducible assumption | with_reducible apply okO_ite | with_reducible apply okO_next | with_reducible apply okO_fault
    | with_reducible apply okO_refused | with_reducible apply ok_ite2 | with_reducible assumption | with_reducible apply ok_ite
    | (refine takeArrived_ok ?_ (by assumption)) | with_reducible apply countDrop_ok | with_reducible apply done_ok
    | (refine (done_ok ?_) _ (by assumption)) | with_reducible apply enqueueFrame_ok | with_reducible apply freeSpill_ok
    | with_reducible apply sendAgainAt_ok | split | (with_reducible intro u x hu) | (with_reducible intro u hu) | dsimp only
    | (fail_if_no_progress refine ok_mk ?_ (by and_intros <;> first | with_reducible exact Or.inl rfl | exact Or.inr (by assumption)))

theorem turnQueued_ok (h : Ok kp zz s) {l : Nat} (kWot : kp .wot = true := by assumption) : Ok kp zz (turnQueued l s) := by
  unfold turnQueued
  try dsimp only
  repeat' first
    | with_reducible assumption | with_reducible apply ok_ite | with_reducible apply forwardCut_ok
    | with_reducible apply setLink_ok | with_reducible apply setWot_ok | with_reducible apply ok_foldl_snd
    | with_reducible apply ok_foldl | split | (with_reducible intro u x hu) | (with_reducible intro u hu) | dsimp only
    | (fail_if_no_progress refine ok_mk ?_ (by and_intros <;> first | with_reducible exact Or.inl rfl | exact Or.inr (by assumption)))

end Sys2Proof.Machine
end

