-- ==== Sys2Proof/Laws/KeepEth.lean ====
section
/-!
SUPPORT. What the operations of Machine/Eth.lean keep.
-/
namespace Sys2Proof.Machine
open Sys2Proof

set_option Elab.async false
set_option linter.unreachableTactic false
set_option linter.unusedTactic false
set_option linter.unusedVariables false

variable {kp : Comp → Bool} {zz s : State}

theorem setEth_ok (h : Ok kp zz s) {x : Eth} (kEth : kp .eth = true := by assumption) : Ok kp zz (setEth x s) := by
  unfold setEth
  repeat' first
    | with_reducible assumption
    | (fail_if_no_progress refine ok_mk ?_ (by and_intros <;> first | with_reducible exact Or.inl rfl | exact Or.inr (by assumption)))

theorem macSend_ok (h : Ok kp zz s) {m : Nat} {f : List Byte} (kFresh : kp .fresh = true := by assumption) (kSent : kp .sent =
    true := by assumption) (kAcq : kp .acq = true := by assumption) (kLanes : kp .lanes = true := by assumption) : Ok kp zz
    (macSend m f s) := by
  unfold macSend
  repeat' first
    | with_reducible assumption | with_reducible apply ok_ite | with_reducible apply addSat_ok | with_reducible apply emit_ok
    | with_reducible apply sendMacFrame_ok | split | (with_reducible intro u x hu) | (with_reducible intro u hu) | dsimp only
    | (fail_if_no_progress refine ok_mk ?_ (by and_intros <;> first | with_reducible exact Or.inl rfl | exact Or.inr (by assumption)))

theorem stampEntry_ok (h : Ok kp zz s) {m : Nat} {id : Nat} {domain : Nat} {stamp : Option Nat} (kCores : kp .cores = true :=
    by assumption) : Ok kp zz (stampEntry m id domain stamp s) := by
  unfold stampEntry
  repeat' first
    | with_reducible assumption | with_reducible apply ok_ite | with_reducible apply addSat_ok | with_reducible apply queueIn_ok
    | with_reducible apply raiseIf_ok | with_reducible apply setFlag_ok | split

theorem readStamp_ok (h : Ok kp zz s) {m : Nat} (kFresh : kp .fresh = true := by assumption) (kCores : kp .cores = true := by
    assumption) : Ok kp zz (readStamp m s).2 := by
  unfold readStamp
  try dsimp only
  repeat' first
    | with_reducible assumption | with_reducible apply ok_ite2 | with_reducible assumption | with_reducible apply ok_ite
    | with_reducible apply look_ok | with_reducible apply setQueue_ok | with_reducible apply wr_ok | split
    | (with_reducible intro u x hu) | (with_reducible intro u hu) | dsimp only
    | (fail_if_no_progress refine ok_mk ?_ (by and_intros <;> first | with_reducible exact Or.inl rfl | exact Or.inr (by assumption)))

theorem execTxrTailWrite_ok (h : Ok kp zz s) {m : Fin 2} {tail : Nat} : OkO kp zz (execTxrTailWrite m tail s) := by
  unfold execTxrTailWrite
  repeat' first
    | with_reducible assumption | with_reducible apply done_ok | with_reducible apply setFld_ok

theorem advanceTx_ok (h : Ok kp zz s) {m : Nat} : Ok kp zz (advanceTx m s) := by
  unfold advanceTx
  repeat' first
    | with_reducible assumption | with_reducible apply setFld_ok

theorem execEthFrameSend_ok (h : Ok kp zz s) {m : Fin 2} {ofs : Nat} (kFresh : kp .fresh = true := by assumption) (kMem : kp
    .mem = true := by assumption) (kSent : kp .sent = true := by assumption) (kTbs : kp .tbs = true := by assumption) (kAcq :
    kp .acq = true := by assumption) (kCores : kp .cores = true := by assumption) (kLanes : kp .lanes = true := by assumption)
    (kDmc : kp .dmc = true := by assumption) : OkO kp zz (execEthFrameSend m ofs s) := by
  unfold execEthFrameSend
  try dsimp only
  repeat' first
    | with_reducible assumption | with_reducible apply okO_ite | with_reducible apply okO_next | with_reducible apply okO_fault
    | with_reducible apply okO_refused | with_reducible apply ok_ite2 | with_reducible assumption | with_reducible apply ok_ite
    | with_reducible apply addSat_ok | with_reducible apply advanceTx_ok | with_reducible apply atOfs_ok
    | with_reducible apply awaitRead_ok | with_reducible apply dmaRead_ok | with_reducible apply done_ok
    | with_reducible apply freshen_ok | with_reducible apply macSend_ok | with_reducible apply stampEntry_ok
    | with_reducible apply whileAwake_ok | split | (with_reducible intro u x hu) | (with_reducible intro u hu) | dsimp only
    | (fail_if_no_progress refine ok_mk ?_ (by and_intros <;> first | with_reducible exact Or.inl rfl | exact Or.inr (by assumption)))

theorem rxDrop_ok (h : Ok kp zz s) {m : Nat} : Ok kp zz (rxDrop m s) := by
  unfold rxDrop
  repeat' first
    | with_reducible assumption | with_reducible apply addSat_ok

theorem toRing_ok (h : Ok kp zz s) {m : Nat} {f : List Byte} {ptpEvent : Bool} {tagged : Bool} (kFresh : kp .fresh = true :=
    by assumption) (kMem : kp .mem = true := by assumption) (kCores : kp .cores = true := by assumption) (kDmc : kp .dmc =
    true := by assumption) : Ok kp zz (toRing m f ptpEvent tagged s) := by
  unfold toRing
  repeat' first
    | with_reducible assumption | with_reducible apply ok_ite2 | with_reducible apply ok_ite | with_reducible apply dmaRead_ok
    | with_reducible apply dmaWrite_ok | with_reducible apply raiseIf_ok | with_reducible apply rxDrop_ok
    | with_reducible apply setFld_ok | split

theorem setPtp_ok (h : Ok kp zz s) {d : Nat} {x : Ptp} (kEth : kp .eth = true := by assumption) : Ok kp zz (setPtp d x s) :=
    by
  unfold setPtp
  repeat' first
    | with_reducible assumption
    | (fail_if_no_progress refine ok_mk ?_ (by and_intros <;> first | with_reducible exact Or.inl rfl | exact Or.inr (by assumption)))

theorem toGateway_ok (h : Ok kp zz s) {m : Nat} {u : Udp} (kEth : kp .eth = true := by assumption) : Ok kp zz (toGateway m u
    s) := by
  unfold toGateway
  repeat' first
    | with_reducible assumption | with_reducible apply ok_ite | with_reducible apply rxDrop_ok | with_reducible apply setEth_ok
    | split

theorem routeFrame_ok (h : Ok kp zz s) {m : Nat} {f : List Byte} {tagged : Bool} (kFresh : kp .fresh = true := by assumption)
    (kMem : kp .mem = true := by assumption) (kCores : kp .cores = true := by assumption) (kEth : kp .eth = true := by
    assumption) (kDmc : kp .dmc = true := by assumption) : Ok kp zz (routeFrame m f tagged s) := by
  unfold routeFrame
  repeat' first
    | with_reducible assumption | with_reducible apply ok_ite | with_reducible apply rxDrop_ok | with_reducible apply setEth_ok
    | with_reducible apply toGateway_ok | with_reducible apply toRing_ok | split

theorem execEthFrameReceive_ok (h : Ok kp zz s) {m : Fin 2} {ofs : Nat} {bytes : List Byte} (kFresh : kp .fresh = true := by
    assumption) (kMem : kp .mem = true := by assumption) (kTbs : kp .tbs = true := by assumption) (kCores : kp .cores = true
    := by assumption) (kEth : kp .eth = true := by assumption) (kDmc : kp .dmc = true := by assumption) : OkO kp zz
    (execEthFrameReceive m ofs bytes s) := by
  unfold execEthFrameReceive
  try dsimp only
  repeat' first
    | with_reducible assumption | with_reducible apply okO_ite | with_reducible apply okO_next | with_reducible apply okO_fault
    | with_reducible apply okO_refused | with_reducible apply ok_ite | with_reducible apply addSat_ok
    | with_reducible apply atOfs_ok | with_reducible apply done_ok | with_reducible apply freshen_ok
    | with_reducible apply routeFrame_ok | with_reducible apply rxDrop_ok | with_reducible apply whileAwake_ok | split
    | (with_reducible intro u x hu) | (with_reducible intro u hu) | dsimp only
    | (fail_if_no_progress refine ok_mk ?_ (by and_intros <;> first | with_reducible exact Or.inl rfl | exact Or.inr (by assumption)))

theorem setPathValid_ok (h : Ok kp zz s) {d : Nat} {v : Bool} : Ok kp zz (setPathValid d v s) := by
  unfold setPathValid
  repeat' first
    | with_reducible assumption | with_reducible apply raiseIf_ok | with_reducible apply setFlag_ok

theorem ptpRestart_ok (h : Ok kp zz s) {d : Nat} (kEth : kp .eth = true := by assumption) : Ok kp zz (ptpRestart d s) := by
  unfold ptpRestart
  repeat' first
    | with_reducible assumption | with_reducible apply setPathValid_ok | with_reducible apply setPtp_ok

theorem ptpStart_ok (h : Ok kp zz s) {d : Nat} (kEth : kp .eth = true := by assumption) : Ok kp zz (ptpStart d s) := by
  unfold ptpStart
  repeat' first
    | with_reducible assumption | with_reducible apply setPathValid_ok | with_reducible apply setPtp_ok

theorem pathSample_ok (h : Ok kp zz s) {d : Nat} {v : Int} (kEth : kp .eth = true := by assumption) : Ok kp zz (pathSample d v
    s) := by
  unfold pathSample
  repeat' first
    | with_reducible assumption | with_reducible apply ok_ite | with_reducible apply addSat_ok
    | with_reducible apply ptpRestart_ok | with_reducible apply setFld_ok | with_reducible apply setPathValid_ok
    | with_reducible apply setPtp_ok | split

theorem syncComplete_ok (h : Ok kp zz s) {d : Nat} {t1 : Int} {t2 : Nat} {c : Int} (kFresh : kp .fresh = true := by
    assumption) (kTbs : kp .tbs = true := by assumption) (kEth : kp .eth = true := by assumption) : Ok kp zz (syncComplete d
    t1 t2 c s) := by
  unfold syncComplete
  repeat' first
    | with_reducible assumption | with_reducible apply ok_ite | with_reducible apply measureFrom_ok
    | with_reducible apply setPtp_ok | split

theorem takeMsg_ok {d : Nat} {q : List Byte → Bool} {a : PtpMsg} {t : State} (h : Ok kp zz s) (e : takeMsg d q s = some (a, t)) (kEth : kp .eth = true := by assumption) : Ok kp zz t := by
  unfold takeMsg at e
  repeat' split at e
  all_goals first
    | (cases e; exact ok_mk h (by and_intros <;> first | exact Or.inl rfl | exact Or.inr (by assumption)))
    | cases e

theorem fuMiss_ok (h : Ok kp zz s) {d : Nat} : Ok kp zz (fuMiss d s) := by
  unfold fuMiss
  repeat' first
    | with_reducible assumption | with_reducible apply addSat_ok

theorem execSyncReceive_ok (h : Ok kp zz s) {d : Fin 2} (kFresh : kp .fresh = true := by assumption) (kTbs : kp .tbs = true :=
    by assumption) (kEth : kp .eth = true := by assumption) : OkO kp zz (execSyncReceive d s) := by
  unfold execSyncReceive
  repeat' first
    | with_reducible assumption | (refine takeMsg_ok ?_ (by assumption)) | with_reducible apply done_ok
    | with_reducible apply fuMiss_ok | with_reducible apply setPtp_ok | with_reducible apply syncComplete_ok | split

theorem execFollowUpReceive_ok (h : Ok kp zz s) {d : Fin 2} (kFresh : kp .fresh = true := by assumption) (kTbs : kp .tbs =
    true := by assumption) (kEth : kp .eth = true := by assumption) : OkO kp zz (execFollowUpReceive d s) := by
  unfold execFollowUpReceive
  repeat' first
    | with_reducible assumption | (refine takeMsg_ok ?_ (by assumption)) | with_reducible apply done_ok
    | with_reducible apply fuMiss_ok | with_reducible apply syncComplete_ok | split

theorem execFollowUpTimeout_ok (h : Ok kp zz s) {d : Fin 2} {ofs : Nat} (kTbs : kp .tbs = true := by assumption) (kEth : kp
    .eth = true := by assumption) : OkO kp zz (execFollowUpTimeout d ofs s) := by
  unfold execFollowUpTimeout
  try dsimp only
  repeat' first
    | with_reducible assumption | with_reducible apply okO_ite | with_reducible apply okO_next | with_reducible apply okO_fault
    | with_reducible apply okO_refused | with_reducible apply ok_ite | with_reducible apply atOfs_ok
    | with_reducible apply done_ok | (refine (done_ok ?_) _ (by assumption)) | with_reducible apply fuMiss_ok
    | with_reducible apply setPtp_ok | split | (with_reducible intro u x hu) | (with_reducible intro u hu) | dsimp only
    | (fail_if_no_progress refine ok_mk ?_ (by and_intros <;> first | with_reducible exact Or.inl rfl | exact Or.inr (by assumption)))

theorem respMiss_ok (h : Ok kp zz s) {d : Nat} (kEth : kp .eth = true := by assumption) : Ok kp zz (respMiss d s) := by
  unfold respMiss
  repeat' first
    | with_reducible assumption | with_reducible apply ok_ite | with_reducible apply addSat_ok
    | with_reducible apply ptpRestart_ok | with_reducible apply setPtp_ok | split

theorem execDelayReqSend_ok (h : Ok kp zz s) {d : Fin 2} {ofs : Nat} (kFresh : kp .fresh = true := by assumption) (kSent : kp
    .sent = true := by assumption) (kTbs : kp .tbs = true := by assumption) (kAcq : kp .acq = true := by assumption) (kLanes :
    kp .lanes = true := by assumption) (kEth : kp .eth = true := by assumption) : OkO kp zz (execDelayReqSend d ofs s) := by
  unfold execDelayReqSend
  try dsimp only
  repeat' first
    | with_reducible assumption | with_reducible apply okO_ite | with_reducible apply okO_next | with_reducible apply okO_fault
    | with_reducible apply okO_refused | with_reducible apply ok_ite | with_reducible apply atOfs_ok
    | with_reducible apply done_ok | with_reducible apply freshen_ok | with_reducible apply macSend_ok
    | with_reducible apply respMiss_ok | with_reducible apply setPtp_ok | with_reducible apply whileAwake_ok | split
    | (with_reducible intro u x hu) | (with_reducible intro u hu) | dsimp only
    | (fail_if_no_progress refine ok_mk ?_ (by and_intros <;> first | with_reducible exact Or.inl rfl | exact Or.inr (by assumption)))

theorem answered_ok (h : Ok kp zz s) {d : Nat} (kEth : kp .eth = true := by assumption) : Ok kp zz (answered d s) := by
  unfold answered
  repeat' first
    | with_reducible assumption | with_reducible apply setPtp_ok

theorem execDelayRespReceive_ok (h : Ok kp zz s) {d : Fin 2} (kEth : kp .eth = true := by assumption) : OkO kp zz
    (execDelayRespReceive d s) := by
  unfold execDelayRespReceive
  try dsimp only
  repeat' first
    | with_reducible assumption | with_reducible apply okO_ite | with_reducible apply okO_next | with_reducible apply okO_fault
    | with_reducible apply okO_refused | with_reducible apply ok_ite | (refine takeMsg_ok ?_ (by assumption))
    | with_reducible apply answered_ok | with_reducible apply done_ok | (refine (done_ok ?_) _ (by assumption))
    | with_reducible apply pathSample_ok | with_reducible apply setPtp_ok | split | (with_reducible intro u x hu)
    | (with_reducible intro u hu) | dsimp only
    | (fail_if_no_progress refine ok_mk ?_ (by and_intros <;> first | with_reducible exact Or.inl rfl | exact Or.inr (by assumption)))

theorem parentWrite_ok (h : Ok kp zz s) {d : Nat} {k : Nat} {v : Word} (kNextRegs : kp .nextRegs = true := by assumption)
    (kEth : kp .eth = true := by assumption) : Ok kp zz (parentWrite d k v s) := by
  unfold parentWrite
  repeat' first
    | with_reducible assumption | with_reducible apply ok_ite | with_reducible apply ptpRestart_ok | with_reducible apply wr_ok
    | (fail_if_no_progress refine ok_mk ?_ (by and_intros <;> first | with_reducible exact Or.inl rfl | exact Or.inr (by assumption)))
    | split

theorem ptpCfgWrite_ok (h : Ok kp zz s) {d : Nat} {new : Word} (kNextRegs : kp .nextRegs = true := by assumption) (kEth : kp
    .eth = true := by assumption) : Ok kp zz (ptpCfgWrite d new s) := by
  unfold ptpCfgWrite
  try dsimp only
  repeat' first
    | with_reducible assumption | with_reducible apply ok_ite | with_reducible apply ptpRestart_ok
    | with_reducible apply ptpStart_ok | with_reducible apply wr_ok | split | (with_reducible intro u x hu)
    | (with_reducible intro u hu) | dsimp only
    | (fail_if_no_progress refine ok_mk ?_ (by and_intros <;> first | with_reducible exact Or.inl rfl | exact Or.inr (by assumption)))

theorem execPtpParentWrite_ok (h : Ok kp zz s) {d : Fin 2} {k : Fin 4} {value : Word} (kNextRegs : kp .nextRegs = true := by
    assumption) (kEth : kp .eth = true := by assumption) : OkO kp zz (execPtpParentWrite d k value s) := by
  unfold execPtpParentWrite
  repeat' first
    | with_reducible assumption | with_reducible apply done_ok | with_reducible apply parentWrite_ok

theorem gwPut_ok (h : Ok kp zz s) {f : LineFrame} (kFresh : kp .fresh = true := by assumption) (kMem : kp .mem = true := by
    assumption) (kCores : kp .cores = true := by assumption) (kEth : kp .eth = true := by assumption) (kDmc : kp .dmc = true
    := by assumption) : Ok kp zz (gwPut f s) := by
  unfold gwPut
  try dsimp only
  repeat' first
    | with_reducible assumption | with_reducible apply ok_ite | with_reducible apply dmaWrite_ok
    | with_reducible apply setEth_ok | split | (with_reducible intro u x hu) | (with_reducible intro u hu) | dsimp only
    | (fail_if_no_progress refine ok_mk ?_ (by and_intros <;> first | with_reducible exact Or.inl rfl | exact Or.inr (by assumption)))

theorem gwGet_ok {r : List (List Byte) × State} {q : LineFrame × Nat × Nat} (h : Ok kp zz r.2) (kFresh : kp .fresh = true := by assumption) (kMem : kp .mem = true := by assumption) (kCores : kp .cores = true := by assumption) (kDmc : kp .dmc = true := by assumption) : Ok kp zz (gwGet r q).2 := by
  unfold gwGet
  dsimp only
  repeat' first
    | with_reducible assumption | with_reducible apply ok_ite2 | with_reducible apply ok_ite | with_reducible apply dmaRead_ok
    | with_reducible apply captureRead_ok | with_reducible apply engineRead_ok | split

theorem gwRefuse_ok (h : Ok kp zz s) : Ok kp zz (gwRefuse s) := by
  unfold gwRefuse
  repeat' first
    | with_reducible assumption | with_reducible apply addSat_ok | with_reducible apply raiseIf_ok

theorem gwFeed_ok {k : Nat} (h : Ok kp zz s) (kFresh : kp .fresh = true := by assumption) (kMem : kp .mem = true := by assumption) (kCores : kp .cores = true := by assumption) (kWot : kp .wot = true := by assumption) (kEth : kp .eth = true := by assumption) (kDmc : kp .dmc = true := by assumption) : Ok kp zz (gwFeed k s) := by
  induction k generalizing s with
  | zero => exact h
  | succ k ih =>
    unfold gwFeed
    dsimp only
    repeat' first
      | with_reducible assumption | with_reducible apply ih | with_reducible apply gwPut_ok | with_reducible apply streamSent_ok
      | with_reducible apply fetchStream_ok | with_reducible apply ok_ite | split

theorem sendDatagram_ok (h : Ok kp zz s) {m : Nat} {i : Nat} {fs : List (List Byte)} (kFresh : kp .fresh = true := by
    assumption) (kSent : kp .sent = true := by assumption) (kAcq : kp .acq = true := by assumption) (kLanes : kp .lanes = true
    := by assumption) : Ok kp zz (sendDatagram m i fs s) := by
  unfold sendDatagram
  repeat' first
    | with_reducible assumption | with_reducible apply ok_ite | with_reducible apply addMod_ok | with_reducible apply addSat_ok
    | with_reducible apply macSend_ok | split

theorem sendOutputs_ok (h : Ok kp zz s) (kFresh : kp .fresh = true := by assumption) (kSent : kp .sent = true := by
    assumption) (kOut : kp .out = true := by assumption) (kAcq : kp .acq = true := by assumption) (kLanes : kp .lanes = true
    := by assumption) : Ok kp zz (sendOutputs s) := by
  unfold sendOutputs
  try dsimp only
  repeat' first
    | with_reducible assumption | with_reducible apply ok_ite | with_reducible apply sendDatagram_ok
    | with_reducible apply setOut_ok | with_reducible apply ok_foldl_snd | with_reducible apply ok_foldl | split
    | (with_reducible intro u x hu) | (with_reducible intro u hu) | dsimp only
    | (fail_if_no_progress refine ok_mk ?_ (by and_intros <;> first | with_reducible exact Or.inl rfl | exact Or.inr (by assumption)))

theorem handedOff_ok (h : Ok kp zz s) {f : LineFrame} (kWot : kp .wot = true := by assumption) : Ok kp zz (handedOff s f) :=
    by
  unfold handedOff
  repeat' first
    | with_reducible assumption | with_reducible apply ok_ite | with_reducible apply freeSpill_ok
    | with_reducible apply setWot_ok | split

theorem execGwDatagramClose_ok (h : Ok kp zz s) {ofs : Nat} (kFresh : kp .fresh = true := by assumption) (kMem : kp .mem =
    true := by assumption) (kSent : kp .sent = true := by assumption) (kTbs : kp .tbs = true := by assumption) (kOut : kp .out
    = true := by assumption) (kAcq : kp .acq = true := by assumption) (kCores : kp .cores = true := by assumption) (kLanes :
    kp .lanes = true := by assumption) (kWot : kp .wot = true := by assumption) (kEth : kp .eth = true := by assumption) (kDmc
    : kp .dmc = true := by assumption) : OkO kp zz (execGwDatagramClose ofs s) := by
  unfold execGwDatagramClose
  try dsimp only
  repeat' first
    | with_reducible assumption | with_reducible apply okO_ite | with_reducible apply okO_next | with_reducible apply okO_fault
    | with_reducible apply okO_refused | with_reducible apply ok_ite2 | with_reducible assumption | with_reducible apply ok_ite
    | with_reducible apply atOfs_ok | with_reducible apply done_ok | (refine (done_ok ?_) _ (by assumption))
    | with_reducible apply gwFeed_ok | with_reducible apply gwGet_ok | with_reducible apply handedOff_ok
    | with_reducible apply sendDatagram_ok | with_reducible apply sendOutputs_ok | with_reducible apply setEth_ok
    | with_reducible apply whileAwake_ok | (refine (whileAwake_ok ?_) _ (by assumption)) | with_reducible apply ok_foldl_snd
    | with_reducible apply ok_foldl | split | (with_reducible intro u x hu) | (with_reducible intro u hu) | dsimp only
    | (fail_if_no_progress refine ok_mk ?_ (by and_intros <;> first | with_reducible exact Or.inl rfl | exact Or.inr (by assumption)))

theorem turnAway_ok (h : Ok kp zz s) {f : LineFrame} (kWot : kp .wot = true := by assumption) : Ok kp zz (turnAway f s) := by
  unfold turnAway
  repeat' first
    | with_reducible assumption | with_reducible apply ok_ite | with_reducible apply setWot_ok | split
    | (with_reducible intro u x hu) | (with_reducible intro u hu) | dsimp only
    | (fail_if_no_progress refine ok_mk ?_ (by and_intros <;> first | with_reducible exact Or.inl rfl | exact Or.inr (by assumption)))

theorem acceptStream_ok (h : Ok kp zz s) {f : LineFrame} (kFresh : kp .fresh = true := by assumption) (kAccepted : kp
    .accepted = true := by assumption) (kMem : kp .mem = true := by assumption) (kCores : kp .cores = true := by assumption)
    (kWot : kp .wot = true := by assumption) (kEth : kp .eth = true := by assumption) (kDmc : kp .dmc = true := by assumption)
    : Ok kp zz (acceptStream f s) := by
  unfold acceptStream
  try dsimp only
  repeat' first
    | with_reducible assumption | with_reducible apply ok_ite | with_reducible apply gwPut_ok | with_reducible apply setWot_ok
    | split | (with_reducible intro u x hu) | (with_reducible intro u hu) | dsimp only
    | (fail_if_no_progress refine ok_mk ?_ (by and_intros <;> first | with_reducible exact Or.inl rfl | exact Or.inr (by assumption)))

theorem execStreamFrameReceive_ok (h : Ok kp zz s) (kFresh : kp .fresh = true := by assumption) (kAccepted : kp .accepted =
    true := by assumption) (kMem : kp .mem = true := by assumption) (kCores : kp .cores = true := by assumption) (kWot : kp
    .wot = true := by assumption) (kEth : kp .eth = true := by assumption) (kDmc : kp .dmc = true := by assumption) : OkO kp
    zz (execStreamFrameReceive s) := by
  unfold execStreamFrameReceive
  try dsimp only
  repeat' first
    | with_reducible assumption | with_reducible apply okO_ite | with_reducible apply okO_next | with_reducible apply okO_fault
    | with_reducible apply okO_refused | with_reducible apply ok_ite | (refine takeArrived_ok ?_ (by assumption))
    | with_reducible apply acceptStream_ok | with_reducible apply done_ok | (refine (done_ok ?_) _ (by assumption))
    | with_reducible apply forwardWhole_ok | with_reducible apply gwRefuse_ok | with_reducible apply turnAway_ok | split
    | (with_reducible intro u x hu) | (with_reducible intro u hu) | dsimp only
    | (fail_if_no_progress refine ok_mk ?_ (by and_intros <;> first | with_reducible exact Or.inl rfl | exact Or.inr (by assumption)))

theorem arriveHere_ok (h : Ok kp zz s) {f : LineFrame} (kFresh : kp .fresh = true := by assumption) (kMem : kp .mem = true :=
    by assumption) (kCores : kp .cores = true := by assumption) (kWot : kp .wot = true := by assumption) (kEth : kp .eth =
    true := by assumption) (kDmc : kp .dmc = true := by assumption) : Ok kp zz (arriveHere f s) := by
  unfold arriveHere
  try dsimp only
  repeat' first
    | with_reducible assumption | with_reducible apply ok_ite | with_reducible apply deliver_ok | with_reducible apply gwPut_ok
    | split | (with_reducible intro u x hu) | (with_reducible intro u hu) | dsimp only
    | (fail_if_no_progress refine ok_mk ?_ (by and_intros <;> first | with_reducible exact Or.inl rfl | exact Or.inr (by assumption)))

theorem execUnicastFrameReceive_ok (h : Ok kp zz s) (kFresh : kp .fresh = true := by assumption) (kMem : kp .mem = true := by
    assumption) (kCores : kp .cores = true := by assumption) (kWot : kp .wot = true := by assumption) (kEth : kp .eth = true
    := by assumption) (kDmc : kp .dmc = true := by assumption) : OkO kp zz (execUnicastFrameReceive s) := by
  unfold execUnicastFrameReceive
  try dsimp only
  repeat' first
    | with_reducible assumption | with_reducible apply okO_ite | with_reducible apply okO_next | with_reducible apply okO_fault
    | with_reducible apply okO_refused | with_reducible apply ok_ite | (refine takeArrived_ok ?_ (by assumption))
    | with_reducible apply arriveHere_ok | with_reducible apply deliver_ok | with_reducible apply done_ok
    | (refine (done_ok ?_) _ (by assumption)) | with_reducible apply forwardWhole_ok | split | (with_reducible intro u x hu)
    | (with_reducible intro u hu) | dsimp only
    | (fail_if_no_progress refine ok_mk ?_ (by and_intros <;> first | with_reducible exact Or.inl rfl | exact Or.inr (by assumption)))

theorem hostAckEntry_ok (h : Ok kp zz s) {q : Nat × Nat} (kWot : kp .wot = true := by assumption) : Ok kp zz (hostAckEntry s
    q) := by
  unfold hostAckEntry
  repeat' first
    | with_reducible assumption | with_reducible apply setWot_ok | split

theorem takeDatagram_ok {k : Nat} {a : List Byte} {t : State} (h : Ok kp zz s) (e : takeDatagram k s = some (a, t)) (kEth : kp .eth = true := by assumption) : Ok kp zz t := by
  unfold takeDatagram at e
  repeat' split at e
  all_goals first
    | (cases e; exact ok_mk h (by and_intros <;> first | exact Or.inl rfl | exact Or.inr (by assumption)))
    | cases e

theorem execHostAckReceive_ok (h : Ok kp zz s) (kWot : kp .wot = true := by assumption) (kEth : kp .eth = true := by
    assumption) : OkO kp zz (execHostAckReceive s) := by
  unfold execHostAckReceive
  try dsimp only
  repeat' first
    | with_reducible assumption | with_reducible apply okO_ite | with_reducible apply okO_next | with_reducible apply okO_fault
    | with_reducible apply okO_refused | with_reducible apply ok_ite2 | with_reducible assumption | with_reducible apply ok_ite
    | (refine takeDatagram_ok ?_ (by assumption)) | with_reducible apply done_ok | (refine (done_ok ?_) _ (by assumption))
    | with_reducible apply freeSpill_ok | with_reducible apply hostAckEntry_ok | with_reducible apply ok_foldl_snd
    | with_reducible apply ok_foldl | split | (with_reducible intro u x hu) | (with_reducible intro u hu) | dsimp only
    | (fail_if_no_progress refine ok_mk ?_ (by and_intros <;> first | with_reducible exact Or.inl rfl | exact Or.inr (by assumption)))

theorem injectFrame_ok (h : Ok kp zz s) {bs : List Byte} (kFresh : kp .fresh = true := by assumption) (kMem : kp .mem = true
    := by assumption) (kCores : kp .cores = true := by assumption) (kWot : kp .wot = true := by assumption) (kEth : kp .eth =
    true := by assumption) (kDmc : kp .dmc = true := by assumption) : Ok kp zz (injectFrame s bs) := by
  unfold injectFrame
  try dsimp only
  repeat' first
    | with_reducible assumption | with_reducible apply ok_ite | with_reducible apply arriveHere_ok
    | with_reducible apply countDrop_ok | with_reducible apply enqueueFrame_ok | with_reducible apply rxDrop_ok | split
    | (with_reducible intro u x hu) | (with_reducible intro u hu) | dsimp only
    | (fail_if_no_progress refine ok_mk ?_ (by and_intros <;> first | with_reducible exact Or.inl rfl | exact Or.inr (by assumption)))

theorem execInjectDatagramReceive_ok (h : Ok kp zz s) (kFresh : kp .fresh = true := by assumption) (kMem : kp .mem = true :=
    by assumption) (kCores : kp .cores = true := by assumption) (kWot : kp .wot = true := by assumption) (kEth : kp .eth =
    true := by assumption) (kDmc : kp .dmc = true := by assumption) : OkO kp zz (execInjectDatagramReceive s) := by
  unfold execInjectDatagramReceive
  repeat' first
    | with_reducible assumption | (refine takeDatagram_ok ?_ (by assumption)) | with_reducible apply done_ok
    | with_reducible apply injectFrame_ok | with_reducible apply rxDrop_ok | with_reducible apply ok_foldl | split
    | (with_reducible intro u x hu)

theorem sfpEnd_ok (h : Ok kp zz s) {k : Nat} {result : Nat} (kAccepted : kp .accepted = true := by assumption) : Ok kp zz
    (sfpEnd k result s) := by
  unfold sfpEnd
  repeat' first
    | with_reducible assumption | with_reducible apply complete_ok

theorem execSfpRead_ok (h : Ok kp zz s) {k : Fin 2} {len : Fin 8} {dev : BitVec 8} {reg : BitVec 8} {data : List Byte} {result
    : Fin 3} (kAccepted : kp .accepted = true := by assumption) (kSent : kp .sent = true := by assumption) : OkO kp zz
    (execSfpRead k len dev reg data result s) := by
  unfold execSfpRead
  repeat' first
    | with_reducible assumption | with_reducible apply okO_ite | with_reducible apply ok_ite | with_reducible apply done_ok
    | with_reducible apply emit_ok | with_reducible apply reject_ok | with_reducible apply sfpEnd_ok
    | with_reducible apply wr_ok | split

theorem execSfpWrite_ok (h : Ok kp zz s) {k : Fin 2} {len : Fin 8} {dev : BitVec 8} {reg : BitVec 8} {result : Fin 3}
    (kAccepted : kp .accepted = true := by assumption) (kSent : kp .sent = true := by assumption) : OkO kp zz (execSfpWrite k
    len dev reg result s) := by
  unfold execSfpWrite
  repeat' first
    | with_reducible assumption | with_reducible apply okO_ite | with_reducible apply ok_ite | with_reducible apply done_ok
    | with_reducible apply emit_ok | with_reducible apply reject_ok | with_reducible apply sfpEnd_ok | split

theorem ethLink_ok (h : Ok kp zz s) {m : Nat} (kWot : kp .wot = true := by assumption) (kEth : kp .eth = true := by
    assumption) : Ok kp zz (ethLink m s) := by
  unfold ethLink
  repeat' first
    | with_reducible assumption | with_reducible apply ok_ite | with_reducible apply ptpRestart_ok
    | with_reducible apply raise_ok | with_reducible apply resendStream_ok | with_reducible apply setFlag_ok
    | with_reducible apply ok_foldl | (with_reducible intro u x hu) | split

end Sys2Proof.Machine
end

