-- ==== Sys2Proof/Laws/KeepLaneRows.lean ====
section
/-!
SUPPORT. What the operations of Machine/LaneRows.lean keep.
-/
namespace Sys2Proof.Machine
open Sys2Proof

set_option Elab.async false
set_option linter.unreachableTactic false
set_option linter.unusedTactic false
set_option linter.unusedVariables false

variable {kp : Comp → Bool} {zz s : State}

theorem restartTimers_ok (h : Ok kp zz s) {l : Nat} (kWot : kp .wot = true := by assumption) : Ok kp zz (restartTimers l s) :=
    by
  unfold restartTimers
  repeat' first
    | with_reducible assumption | with_reducible apply ok_ite | with_reducible apply setVc_ok | with_reducible apply ok_foldl
    | (with_reducible intro u x hu) | split

theorem enterUp_ok (h : Ok kp zz s) {n : Nat} {again : Bool} (kFresh : kp .fresh = true := by assumption) (kAccepted : kp
    .accepted = true := by assumption) (kSent : kp .sent = true := by assumption) (kAcq : kp .acq = true := by assumption)
    (kLanes : kp .lanes = true := by assumption) (kWot : kp .wot = true := by assumption) (kEth : kp .eth = true := by
    assumption) (kTwin : kp .twin = true := by assumption) : Ok kp zz (enterUp n again s) := by
  unfold enterUp
  repeat' first
    | with_reducible assumption | with_reducible apply ok_ite | with_reducible apply enterLane_ok
    | with_reducible apply ethLink_ok | with_reducible apply freshDelay_ok | with_reducible apply linkReset_ok
    | with_reducible apply raise_ok | with_reducible apply restartTimers_ok | with_reducible apply setLane_ok
    | with_reducible apply showLatency_ok | with_reducible apply showLink_ok | with_reducible apply signalSeen_ok | split

theorem afterDown_ok (h : Ok kp zz s) {n : Nat} (kWot : kp .wot = true := by assumption) (kEth : kp .eth = true := by
    assumption) : Ok kp zz (afterDown n s) := by
  unfold afterDown
  try dsimp only
  repeat' first
    | with_reducible assumption | with_reducible apply ok_ite | with_reducible apply addSat_ok | with_reducible apply ethLink_ok
    | with_reducible apply loseHead_ok | with_reducible apply raise_ok | with_reducible apply setFlag_ok
    | with_reducible apply showLink_ok | with_reducible apply turnQueued_ok | split | (with_reducible intro u x hu)
    | (with_reducible intro u hu) | dsimp only
    | (fail_if_no_progress refine ok_mk ?_ (by and_intros <;> first | with_reducible exact Or.inl rfl | exact Or.inr (by assumption)))

theorem moveLane_ok (h : Ok kp zz s) {n : Nat} {move : State → State} (hmove : ∀ u, Ok kp zz u → Ok kp zz (move u)) (kWot : kp
    .wot = true := by assumption) (kEth : kp .eth = true := by assumption) : Ok kp zz (moveLane n move s) := by
  unfold moveLane
  repeat' first
    | with_reducible assumption | with_reducible apply ok_ite | with_reducible apply afterDown_ok | with_reducible apply hmove
    | split

theorem laneStart_ok (h : Ok kp zz s) {n : Nat} (kFresh : kp .fresh = true := by assumption) (kSent : kp .sent = true := by
    assumption) (kAcq : kp .acq = true := by assumption) (kLanes : kp .lanes = true := by assumption) : Ok kp zz (laneStart n
    s) := by
  unfold laneStart
  repeat' first
    | with_reducible assumption | with_reducible apply ok_ite | with_reducible apply enterListen_ok
    | with_reducible apply enterOff_ok | with_reducible apply enterTest_ok | with_reducible apply takeControl_ok | split

theorem laneStop_ok (h : Ok kp zz s) {n : Nat} (kFresh : kp .fresh = true := by assumption) (kSent : kp .sent = true := by
    assumption) (kAcq : kp .acq = true := by assumption) (kLanes : kp .lanes = true := by assumption) (kWot : kp .wot = true
    := by assumption) (kEth : kp .eth = true := by assumption) : Ok kp zz (laneStop n s) := by
  unfold laneStop
  repeat' first
    | with_reducible assumption | with_reducible apply enterOff_ok | with_reducible apply moveLane_ok
    | (with_reducible intro u hu)

theorem execLaneEnable_ok (h : Ok kp zz s) {n : Fin 4} (kFresh : kp .fresh = true := by assumption) (kSent : kp .sent = true
    := by assumption) (kAcq : kp .acq = true := by assumption) (kLanes : kp .lanes = true := by assumption) : OkO kp zz
    (execLaneEnable n s) := by
  unfold execLaneEnable
  repeat' first
    | with_reducible assumption | with_reducible apply okO_ite | with_reducible apply ok_ite | with_reducible apply done_ok
    | with_reducible apply laneStart_ok | with_reducible apply setFlag_ok | split

theorem execLaneDisable_ok (h : Ok kp zz s) {n : Fin 4} (kFresh : kp .fresh = true := by assumption) (kSent : kp .sent = true
    := by assumption) (kAcq : kp .acq = true := by assumption) (kLanes : kp .lanes = true := by assumption) (kWot : kp .wot =
    true := by assumption) (kEth : kp .eth = true := by assumption) : OkO kp zz (execLaneDisable n s) := by
  unfold execLaneDisable
  repeat' first
    | with_reducible assumption | with_reducible apply okO_ite | with_reducible apply ok_ite | with_reducible apply done_ok
    | with_reducible apply laneStop_ok | with_reducible apply setFlag_ok | split

theorem execWakeBurst_ok (h : Ok kp zz s) {n : Fin 4} {ofs : Nat} (kFresh : kp .fresh = true := by assumption) (kSent : kp
    .sent = true := by assumption) (kTbs : kp .tbs = true := by assumption) (kLanes : kp .lanes = true := by assumption) : OkO
    kp zz (execWakeBurst n ofs s) := by
  unfold execWakeBurst
  try dsimp only
  repeat' first
    | with_reducible assumption | with_reducible apply okO_ite | with_reducible apply okO_next | with_reducible apply okO_fault
    | with_reducible apply okO_refused | with_reducible apply ok_ite | with_reducible apply atOfs_ok
    | with_reducible apply done_ok | with_reducible apply sendTraining_ok | with_reducible apply setLane_ok
    | with_reducible apply whileAwake_ok | split | (with_reducible intro u x hu) | (with_reducible intro u hu) | dsimp only
    | (fail_if_no_progress refine ok_mk ?_ (by and_intros <;> first | with_reducible exact Or.inl rfl | exact Or.inr (by assumption)))

theorem execLnkSignal_ok (h : Ok kp zz s) {n : Fin 4} (kFresh : kp .fresh = true := by assumption) (kSent : kp .sent = true :=
    by assumption) (kAcq : kp .acq = true := by assumption) (kLanes : kp .lanes = true := by assumption) : OkO kp zz
    (execLnkSignal n s) := by
  unfold execLnkSignal
  try dsimp only
  repeat' first
    | with_reducible assumption | with_reducible apply okO_ite | with_reducible apply okO_next | with_reducible apply okO_fault
    | with_reducible apply okO_refused | with_reducible apply ok_ite | with_reducible apply acquireTop_ok
    | with_reducible apply done_ok | with_reducible apply signalSeen_ok | with_reducible apply whileAwake_ok | split
    | (with_reducible intro u x hu) | (with_reducible intro u hu) | dsimp only
    | (fail_if_no_progress refine ok_mk ?_ (by and_intros <;> first | with_reducible exact Or.inl rfl | exact Or.inr (by assumption)))

theorem execLnkAbsent_ok (h : Ok kp zz s) {n : Fin 4} {ofs : Nat} (kTbs : kp .tbs = true := by assumption) (kLanes : kp .lanes
    = true := by assumption) : OkO kp zz (execLnkAbsent n ofs s) := by
  unfold execLnkAbsent
  try dsimp only
  repeat' first
    | with_reducible assumption | with_reducible apply okO_ite | with_reducible apply okO_next | with_reducible apply okO_fault
    | with_reducible apply okO_refused | with_reducible apply ok_ite | with_reducible apply atOfs_ok
    | with_reducible apply done_ok | with_reducible apply raise_ok | with_reducible apply setFlag_ok
    | with_reducible apply setFld_ok | with_reducible apply setLane_ok | with_reducible apply whileAwake_ok | split
    | (with_reducible intro u x hu) | (with_reducible intro u hu) | dsimp only
    | (fail_if_no_progress refine ok_mk ?_ (by and_intros <;> first | with_reducible exact Or.inl rfl | exact Or.inr (by assumption)))

theorem execBlockLock_ok (h : Ok kp zz s) {n : Fin 4} {ofs : Nat} (kFresh : kp .fresh = true := by assumption) (kAccepted : kp
    .accepted = true := by assumption) (kSent : kp .sent = true := by assumption) (kTbs : kp .tbs = true := by assumption)
    (kAcq : kp .acq = true := by assumption) (kLanes : kp .lanes = true := by assumption) (kWot : kp .wot = true := by
    assumption) (kEth : kp .eth = true := by assumption) (kTwin : kp .twin = true := by assumption) : OkO kp zz (execBlockLock
    n ofs s) := by
  unfold execBlockLock
  try dsimp only
  repeat' first
    | with_reducible assumption | with_reducible apply okO_ite | with_reducible apply okO_next | with_reducible apply okO_fault
    | with_reducible apply okO_refused | with_reducible apply ok_ite | with_reducible apply atOfs_ok
    | with_reducible apply done_ok | with_reducible apply enterLane_ok | with_reducible apply enterUp_ok
    | with_reducible apply whileAwake_ok | split | (with_reducible intro u x hu) | (with_reducible intro u hu) | dsimp only
    | (fail_if_no_progress refine ok_mk ?_ (by and_intros <;> first | with_reducible exact Or.inl rfl | exact Or.inr (by assumption)))

theorem trainWith_ok (h : Ok kp zz s) {n : Nat} {b : TrainBlock} {init : Bool} (kFresh : kp .fresh = true := by assumption)
    (kSent : kp .sent = true := by assumption) (kAcq : kp .acq = true := by assumption) (kLanes : kp .lanes = true := by
    assumption) : Ok kp zz (trainWith n b init s) := by
  unfold trainWith
  try dsimp only
  repeat' first
    | with_reducible assumption | with_reducible apply ok_ite | with_reducible apply answerTaps_ok
    | with_reducible apply askTaps_ok | with_reducible apply judgeConfirm_ok | with_reducible apply offerTaps_ok
    | with_reducible apply setFlag_ok | with_reducible apply setFld_ok | with_reducible apply setLane_ok | split
    | (with_reducible intro u x hu) | (with_reducible intro u hu) | dsimp only
    | (fail_if_no_progress refine ok_mk ?_ (by and_intros <;> first | with_reducible exact Or.inl rfl | exact Or.inr (by assumption)))

theorem execTrainingBlockReceive_ok (h : Ok kp zz s) {n : Fin 4} {bytes : List Byte} {inverted : Bool} (kFresh : kp .fresh =
    true := by assumption) (kSent : kp .sent = true := by assumption) (kAcq : kp .acq = true := by assumption) (kLanes : kp
    .lanes = true := by assumption) : OkO kp zz (execTrainingBlockReceive n bytes inverted s) := by
  unfold execTrainingBlockReceive
  try dsimp only
  repeat' first
    | with_reducible assumption | with_reducible apply okO_ite | with_reducible apply okO_next | with_reducible apply okO_fault
    | with_reducible apply okO_refused | with_reducible apply ok_ite | with_reducible apply done_ok
    | (refine (done_ok ?_) _ (by assumption)) | with_reducible apply flow_ok | with_reducible apply setFlag_ok
    | with_reducible apply setLane_ok | with_reducible apply trainWith_ok | with_reducible apply whileAwake_ok
    | (refine (whileAwake_ok ?_) _ (by assumption)) | split | (with_reducible intro u x hu) | (with_reducible intro u hu)
    | dsimp only
    | (fail_if_no_progress refine ok_mk ?_ (by and_intros <;> first | with_reducible exact Or.inl rfl | exact Or.inr (by assumption)))

theorem execRxReady_ok (h : Ok kp zz s) {n : Fin 4} {height : BitVec 16} {width : BitVec 16} (kFresh : kp .fresh = true := by
    assumption) (kSent : kp .sent = true := by assumption) (kAcq : kp .acq = true := by assumption) (kLanes : kp .lanes = true
    := by assumption) : OkO kp zz (execRxReady n height width s) := by
  unfold execRxReady
  try dsimp only
  repeat' first
    | with_reducible assumption | with_reducible apply okO_ite | with_reducible apply okO_next | with_reducible apply okO_fault
    | with_reducible apply okO_refused | with_reducible apply ok_ite | with_reducible apply done_ok
    | with_reducible apply flow_ok | with_reducible apply judgeConfirm_ok | with_reducible apply setLane_ok
    | with_reducible apply whileAwake_ok | with_reducible apply wr_ok | split | (with_reducible intro u x hu)
    | (with_reducible intro u hu) | dsimp only
    | (fail_if_no_progress refine ok_mk ?_ (by and_intros <;> first | with_reducible exact Or.inl rfl | exact Or.inr (by assumption)))

theorem execLnkUp_ok (h : Ok kp zz s) {n : Fin 4} {ofs : Nat} (kFresh : kp .fresh = true := by assumption) (kAccepted : kp
    .accepted = true := by assumption) (kSent : kp .sent = true := by assumption) (kTbs : kp .tbs = true := by assumption)
    (kAcq : kp .acq = true := by assumption) (kLanes : kp .lanes = true := by assumption) (kWot : kp .wot = true := by
    assumption) (kEth : kp .eth = true := by assumption) (kTwin : kp .twin = true := by assumption) : OkO kp zz (execLnkUp n
    ofs s) := by
  unfold execLnkUp
  try dsimp only
  repeat' first
    | with_reducible assumption | with_reducible apply okO_ite | with_reducible apply okO_next | with_reducible apply okO_fault
    | with_reducible apply okO_refused | with_reducible apply ok_ite | with_reducible apply atOfs_ok
    | with_reducible apply done_ok | with_reducible apply enterUp_ok | with_reducible apply flow_ok
    | with_reducible apply whileAwake_ok | split | (with_reducible intro u x hu) | (with_reducible intro u hu) | dsimp only
    | (fail_if_no_progress refine ok_mk ?_ (by and_intros <;> first | with_reducible exact Or.inl rfl | exact Or.inr (by assumption)))

theorem execTrainingBudgetExpire_ok (h : Ok kp zz s) {n : Fin 4} {ofs : Nat} (kFresh : kp .fresh = true := by assumption)
    (kSent : kp .sent = true := by assumption) (kTbs : kp .tbs = true := by assumption) (kAcq : kp .acq = true := by
    assumption) (kLanes : kp .lanes = true := by assumption) : OkO kp zz (execTrainingBudgetExpire n ofs s) := by
  unfold execTrainingBudgetExpire
  try dsimp only
  repeat' first
    | with_reducible assumption | with_reducible apply okO_ite | with_reducible apply okO_next | with_reducible apply okO_fault
    | with_reducible apply okO_refused | with_reducible apply ok_ite | with_reducible apply atOfs_ok
    | with_reducible apply attemptFails_ok | with_reducible apply done_ok | with_reducible apply whileAwake_ok | split
    | (with_reducible intro u x hu) | (with_reducible intro u hu) | dsimp only
    | (fail_if_no_progress refine ok_mk ?_ (by and_intros <;> first | with_reducible exact Or.inl rfl | exact Or.inr (by assumption)))

theorem execPartnerRateDetect_ok (h : Ok kp zz s) {n : Fin 4} {rate : Fin 4} (kFresh : kp .fresh = true := by assumption)
    (kSent : kp .sent = true := by assumption) (kAcq : kp .acq = true := by assumption) (kLanes : kp .lanes = true := by
    assumption) : OkO kp zz (execPartnerRateDetect n rate s) := by
  unfold execPartnerRateDetect
  try dsimp only
  repeat' first
    | with_reducible assumption | with_reducible apply okO_ite | with_reducible apply okO_next | with_reducible apply okO_fault
    | with_reducible apply okO_refused | with_reducible apply ok_ite | with_reducible apply done_ok
    | with_reducible apply enterAcquire_ok | with_reducible apply raise_ok | with_reducible apply setFlag_ok
    | with_reducible apply whileAwake_ok | split | (with_reducible intro u x hu) | (with_reducible intro u hu) | dsimp only
    | (fail_if_no_progress refine ok_mk ?_ (by and_intros <;> first | with_reducible exact Or.inl rfl | exact Or.inr (by assumption)))

theorem enterRelock_ok (h : Ok kp zz s) {n : Nat} (kFresh : kp .fresh = true := by assumption) (kSent : kp .sent = true := by
    assumption) (kAcq : kp .acq = true := by assumption) (kLanes : kp .lanes = true := by assumption) (kWot : kp .wot = true
    := by assumption) (kEth : kp .eth = true := by assumption) : Ok kp zz (enterRelock n s) := by
  unfold enterRelock
  repeat' first
    | with_reducible assumption | with_reducible apply enterLane_ok | with_reducible apply moveLane_ok
    | (with_reducible intro u hu)

theorem execLossOfSignal_ok (h : Ok kp zz s) {n : Fin 4} (kFresh : kp .fresh = true := by assumption) (kSent : kp .sent = true
    := by assumption) (kAcq : kp .acq = true := by assumption) (kLanes : kp .lanes = true := by assumption) (kWot : kp .wot =
    true := by assumption) (kEth : kp .eth = true := by assumption) : OkO kp zz (execLossOfSignal n s) := by
  unfold execLossOfSignal
  try dsimp only
  repeat' first
    | with_reducible assumption | with_reducible apply okO_ite | with_reducible apply okO_next | with_reducible apply okO_fault
    | with_reducible apply okO_refused | with_reducible apply ok_ite | with_reducible apply done_ok
    | with_reducible apply enterListen_ok | with_reducible apply enterRelock_ok | with_reducible apply setFlag_ok
    | with_reducible apply whileAwake_ok | split | (with_reducible intro u x hu) | (with_reducible intro u hu) | dsimp only
    | (fail_if_no_progress refine ok_mk ?_ (by and_intros <;> first | with_reducible exact Or.inl rfl | exact Or.inr (by assumption)))

theorem execLnkDown_ok (h : Ok kp zz s) {n : Fin 4} (kFresh : kp .fresh = true := by assumption) (kSent : kp .sent = true :=
    by assumption) (kAcq : kp .acq = true := by assumption) (kLanes : kp .lanes = true := by assumption) (kWot : kp .wot =
    true := by assumption) (kEth : kp .eth = true := by assumption) : OkO kp zz (execLnkDown n s) := by
  unfold execLnkDown
  try dsimp only
  repeat' first
    | with_reducible assumption | with_reducible apply okO_ite | with_reducible apply okO_next | with_reducible apply okO_fault
    | with_reducible apply okO_refused | with_reducible apply ok_ite | with_reducible apply done_ok
    | with_reducible apply enterRelock_ok | with_reducible apply whileAwake_ok | split | (with_reducible intro u x hu)
    | (with_reducible intro u hu) | dsimp only
    | (fail_if_no_progress refine ok_mk ?_ (by and_intros <;> first | with_reducible exact Or.inl rfl | exact Or.inr (by assumption)))

theorem showSignal_ok (h : Ok kp zz s) {n : Nat} {signal : Bool} : Ok kp zz (showSignal n signal s) := by
  unfold showSignal
  repeat' first
    | with_reducible assumption | with_reducible apply setFlag_ok

theorem execRelockTimeout_ok (h : Ok kp zz s) {n : Fin 4} {ofs : Nat} {signal : Bool} (kFresh : kp .fresh = true := by
    assumption) (kSent : kp .sent = true := by assumption) (kTbs : kp .tbs = true := by assumption) (kAcq : kp .acq = true :=
    by assumption) (kLanes : kp .lanes = true := by assumption) : OkO kp zz (execRelockTimeout n ofs signal s) := by
  unfold execRelockTimeout
  try dsimp only
  repeat' first
    | with_reducible assumption | with_reducible apply okO_ite | with_reducible apply okO_next | with_reducible apply okO_fault
    | with_reducible apply okO_refused | with_reducible apply ok_ite | with_reducible apply acquireTop_ok
    | with_reducible apply atOfs_ok | with_reducible apply done_ok | with_reducible apply enterListen_ok
    | with_reducible apply showSignal_ok | with_reducible apply whileAwake_ok | split | (with_reducible intro u x hu)
    | (with_reducible intro u hu) | dsimp only
    | (fail_if_no_progress refine ok_mk ?_ (by and_intros <;> first | with_reducible exact Or.inl rfl | exact Or.inr (by assumption)))

theorem execPartnerRetrainDetect_ok (h : Ok kp zz s) {n : Fin 4} (kFresh : kp .fresh = true := by assumption) (kSent : kp
    .sent = true := by assumption) (kAcq : kp .acq = true := by assumption) (kLanes : kp .lanes = true := by assumption) (kWot
    : kp .wot = true := by assumption) (kEth : kp .eth = true := by assumption) : OkO kp zz (execPartnerRetrainDetect n s) :=
    by
  unfold execPartnerRetrainDetect
  try dsimp only
  repeat' first
    | with_reducible assumption | with_reducible apply okO_ite | with_reducible apply okO_next | with_reducible apply okO_fault
    | with_reducible apply okO_refused | with_reducible apply ok_ite | with_reducible apply done_ok
    | with_reducible apply enterAcquire_ok | with_reducible apply moveLane_ok | with_reducible apply raise_ok
    | with_reducible apply whileAwake_ok | split | (with_reducible intro u x hu) | (with_reducible intro u hu) | dsimp only
    | (fail_if_no_progress refine ok_mk ?_ (by and_intros <;> first | with_reducible exact Or.inl rfl | exact Or.inr (by assumption)))

theorem execFailRetry_ok (h : Ok kp zz s) {n : Fin 4} {ofs : Nat} {signal : Bool} (kFresh : kp .fresh = true := by assumption)
    (kSent : kp .sent = true := by assumption) (kTbs : kp .tbs = true := by assumption) (kAcq : kp .acq = true := by
    assumption) (kLanes : kp .lanes = true := by assumption) : OkO kp zz (execFailRetry n ofs signal s) := by
  unfold execFailRetry
  try dsimp only
  repeat' first
    | with_reducible assumption | with_reducible apply okO_ite | with_reducible apply okO_next | with_reducible apply okO_fault
    | with_reducible apply okO_refused | with_reducible apply ok_ite | with_reducible apply acquireTop_ok
    | with_reducible apply atOfs_ok | with_reducible apply done_ok | with_reducible apply enterListen_ok
    | with_reducible apply showSignal_ok | with_reducible apply whileAwake_ok | split | (with_reducible intro u x hu)
    | (with_reducible intro u hu) | dsimp only
    | (fail_if_no_progress refine ok_mk ?_ (by and_intros <;> first | with_reducible exact Or.inl rfl | exact Or.inr (by assumption)))

theorem restartTest_ok (h : Ok kp zz s) {n : Nat} (kFresh : kp .fresh = true := by assumption) (kSent : kp .sent = true := by
    assumption) (kAcq : kp .acq = true := by assumption) (kLanes : kp .lanes = true := by assumption) : Ok kp zz (restartTest
    n s) := by
  unfold restartTest
  repeat' first
    | with_reducible assumption | with_reducible apply ok_ite | with_reducible apply enterTest_ok
    | with_reducible apply overrideCtle_ok | with_reducible apply takeControl_ok | with_reducible apply wr_ok | split
    | (with_reducible intro u x hu) | (with_reducible intro u hu) | dsimp only
    | (fail_if_no_progress refine ok_mk ?_ (by and_intros <;> first | with_reducible exact Or.inl rfl | exact Or.inr (by assumption)))

theorem retrain_ok (h : Ok kp zz s) {n : Nat} (kFresh : kp .fresh = true := by assumption) (kSent : kp .sent = true := by
    assumption) (kAcq : kp .acq = true := by assumption) (kLanes : kp .lanes = true := by assumption) (kWot : kp .wot = true
    := by assumption) (kEth : kp .eth = true := by assumption) : Ok kp zz (retrain n s) := by
  unfold retrain
  try dsimp only
  repeat' first
    | with_reducible assumption | with_reducible apply ok_ite | with_reducible apply acquireTop_ok
    | with_reducible apply laneStart_ok | with_reducible apply moveLane_ok | with_reducible apply restartTest_ok | split
    | (with_reducible intro u x hu) | (with_reducible intro u hu) | dsimp only
    | (fail_if_no_progress refine ok_mk ?_ (by and_intros <;> first | with_reducible exact Or.inl rfl | exact Or.inr (by assumption)))

theorem execRetrain_ok (h : Ok kp zz s) {n : Fin 4} (kFresh : kp .fresh = true := by assumption) (kAccepted : kp .accepted =
    true := by assumption) (kSent : kp .sent = true := by assumption) (kAcq : kp .acq = true := by assumption) (kLanes : kp
    .lanes = true := by assumption) (kWot : kp .wot = true := by assumption) (kEth : kp .eth = true := by assumption) : OkO kp
    zz (execRetrain n s) := by
  unfold execRetrain
  repeat' first
    | with_reducible assumption | with_reducible apply okO_ite | with_reducible apply ok_ite | with_reducible apply complete_ok
    | with_reducible apply done_ok | with_reducible apply refuse_ok | with_reducible apply retrain_ok | split

theorem execLaneInject_ok (h : Ok kp zz s) {n : Fin 4} (kFresh : kp .fresh = true := by assumption) (kAccepted : kp .accepted
    = true := by assumption) (kSent : kp .sent = true := by assumption) (kAcq : kp .acq = true := by assumption) (kLanes : kp
    .lanes = true := by assumption) : OkO kp zz (execLaneInject n s) := by
  unfold execLaneInject
  repeat' first
    | with_reducible assumption | with_reducible apply okO_ite | with_reducible apply ok_ite | with_reducible apply done_ok
    | with_reducible apply injectNow_ok | with_reducible apply refuse_ok | split

theorem execAckTimeout_ok (h : Ok kp zz s) {l : Fin 3} {v : Fin 4} {ofs : Nat} (kFresh : kp .fresh = true := by assumption)
    (kSent : kp .sent = true := by assumption) (kTbs : kp .tbs = true := by assumption) (kAcq : kp .acq = true := by
    assumption) (kLanes : kp .lanes = true := by assumption) (kWot : kp .wot = true := by assumption) (kEth : kp .eth = true
    := by assumption) : OkO kp zz (execAckTimeout l v ofs s) := by
  unfold execAckTimeout
  repeat' first
    | with_reducible assumption | with_reducible apply okO_ite | with_reducible apply ok_ite | with_reducible apply atOfs_ok
    | with_reducible apply done_ok | with_reducible apply resendAll_ok | with_reducible apply retrain_ok
    | with_reducible apply setVc_ok | split

theorem execAdaptFreeze_ok (h : Ok kp zz s) {n : Fin 4} {ofs : Nat} {transitions : Nat} (kTbs : kp .tbs = true := by
    assumption) (kLanes : kp .lanes = true := by assumption) : OkO kp zz (execAdaptFreeze n ofs transitions s) := by
  unfold execAdaptFreeze
  try dsimp only
  repeat' first
    | with_reducible assumption | with_reducible apply okO_ite | with_reducible apply okO_next | with_reducible apply okO_fault
    | with_reducible apply okO_refused | with_reducible apply ok_ite | with_reducible apply addSat_ok
    | with_reducible apply atOfs_ok | with_reducible apply count_ok | with_reducible apply done_ok
    | with_reducible apply setFlag_ok | with_reducible apply setLane_ok | with_reducible apply whileAwake_ok | split
    | (with_reducible intro u x hu) | (with_reducible intro u hu) | dsimp only
    | (fail_if_no_progress refine ok_mk ?_ (by and_intros <;> first | with_reducible exact Or.inl rfl | exact Or.inr (by assumption)))

theorem thawLane_ok (h : Ok kp zz s) {n : Nat} : Ok kp zz (thawLane s n) := by
  unfold thawLane
  repeat' first
    | with_reducible assumption | with_reducible apply ok_ite | with_reducible apply setFlag_ok | split

theorem sendFill_ok (h : Ok kp zz s) {n : Nat} (kFresh : kp .fresh = true := by assumption) (kSent : kp .sent = true := by
    assumption) (kAcq : kp .acq = true := by assumption) (kLanes : kp .lanes = true := by assumption) : Ok kp zz (sendFill n
    s) := by
  unfold sendFill
  try dsimp only
  repeat' first
    | with_reducible assumption | with_reducible apply ok_ite2 | with_reducible assumption | with_reducible apply ok_ite
    | with_reducible apply sendBlocks_ok | with_reducible apply setLane_ok | split | (with_reducible intro u x hu)
    | (with_reducible intro u hu) | dsimp only
    | (fail_if_no_progress refine ok_mk ?_ (by and_intros <;> first | with_reducible exact Or.inl rfl | exact Or.inr (by assumption)))

theorem execFillBlockSend_ok (h : Ok kp zz s) {n : Fin 4} {ofs : Nat} (kFresh : kp .fresh = true := by assumption) (kSent : kp
    .sent = true := by assumption) (kTbs : kp .tbs = true := by assumption) (kAcq : kp .acq = true := by assumption) (kLanes :
    kp .lanes = true := by assumption) : OkO kp zz (execFillBlockSend n ofs s) := by
  unfold execFillBlockSend
  try dsimp only
  repeat' first
    | with_reducible assumption | with_reducible apply okO_ite | with_reducible apply okO_next | with_reducible apply okO_fault
    | with_reducible apply okO_refused | with_reducible apply ok_ite | with_reducible apply atOfs_ok
    | with_reducible apply done_ok | with_reducible apply sendFill_ok | with_reducible apply whileAwake_ok | split
    | (with_reducible intro u x hu) | (with_reducible intro u hu) | dsimp only
    | (fail_if_no_progress refine ok_mk ?_ (by and_intros <;> first | with_reducible exact Or.inl rfl | exact Or.inr (by assumption)))

theorem fillLap_ok (h : Ok kp zz s) {n : Nat} (kFresh : kp .fresh = true := by assumption) (kSent : kp .sent = true := by
    assumption) (kAcq : kp .acq = true := by assumption) (kLanes : kp .lanes = true := by assumption) : Ok kp zz (fillLap s n)
    := by
  unfold fillLap
  repeat' first
    | with_reducible assumption | with_reducible apply ok_ite | with_reducible apply sendFill_ok | split
    | (with_reducible intro u x hu) | (with_reducible intro u hu) | dsimp only
    | (fail_if_no_progress refine ok_mk ?_ (by and_intros <;> first | with_reducible exact Or.inl rfl | exact Or.inr (by assumption)))

theorem execPrbsChkEnable_ok (h : Ok kp zz s) {n : Fin 4} (kLanes : kp .lanes = true := by assumption) : OkO kp zz
    (execPrbsChkEnable n s) := by
  unfold execPrbsChkEnable
  repeat' first
    | with_reducible assumption | with_reducible apply okO_ite | with_reducible apply ok_ite | with_reducible apply okO_fault
    | with_reducible apply checkerStart_ok | with_reducible apply done_ok | with_reducible apply setFlag_ok | split

theorem execPrbsLock_ok (h : Ok kp zz s) {n : Fin 4} {rx : RxBits} (kFresh : kp .fresh = true := by assumption) (kSent : kp
    .sent = true := by assumption) (kTbs : kp .tbs = true := by assumption) (kAcq : kp .acq = true := by assumption) (kLanes :
    kp .lanes = true := by assumption) : OkO kp zz (execPrbsLock n rx s) := by
  unfold execPrbsLock
  try dsimp only
  repeat' first
    | with_reducible assumption | with_reducible apply okO_ite | with_reducible apply okO_next | with_reducible apply okO_fault
    | with_reducible apply okO_refused | with_reducible apply ok_ite | with_reducible apply atOfs_ok
    | with_reducible apply done_ok | with_reducible apply flow_ok | with_reducible apply whileAwake_ok | split
    | (with_reducible intro u x hu) | (with_reducible intro u hu) | dsimp only
    | (fail_if_no_progress refine ok_mk ?_ (by and_intros <;> first | with_reducible exact Or.inl rfl | exact Or.inr (by assumption)))

theorem execLnkPrbsLost_ok (h : Ok kp zz s) {n : Fin 4} {ofs : Nat} {bits : List Bool} (kFresh : kp .fresh = true := by
    assumption) (kSent : kp .sent = true := by assumption) (kTbs : kp .tbs = true := by assumption) (kAcq : kp .acq = true :=
    by assumption) (kLanes : kp .lanes = true := by assumption) : OkO kp zz (execLnkPrbsLost n ofs bits s) := by
  unfold execLnkPrbsLost
  try dsimp only
  repeat' first
    | with_reducible assumption | with_reducible apply okO_ite | with_reducible apply okO_next | with_reducible apply okO_fault
    | with_reducible apply okO_refused | with_reducible apply ok_ite | with_reducible apply atOfs_ok
    | with_reducible apply done_ok | with_reducible apply flow_ok | with_reducible apply whileAwake_ok | split
    | (with_reducible intro u x hu) | (with_reducible intro u hu) | dsimp only
    | (fail_if_no_progress refine ok_mk ?_ (by and_intros <;> first | with_reducible exact Or.inl rfl | exact Or.inr (by assumption)))

theorem laneReport_ok (h : Ok kp zz s) {x : LaneIn} : Ok kp zz (laneReport x s) := by
  unfold laneReport
  try dsimp only
  repeat' first
    | with_reducible assumption | with_reducible apply ok_ite | with_reducible apply overrideCtle_ok
    | with_reducible apply wr_ok | split | (with_reducible intro u x hu) | (with_reducible intro u hu) | dsimp only
    | (fail_if_no_progress refine ok_mk ?_ (by and_intros <;> first | with_reducible exact Or.inl rfl | exact Or.inr (by assumption)))

theorem lanesBoundary_ok (h : Ok kp zz s) {xs : List LaneIn} (kFresh : kp .fresh = true := by assumption) (kSent : kp .sent =
    true := by assumption) (kAcq : kp .acq = true := by assumption) (kLanes : kp .lanes = true := by assumption) : Ok kp zz
    (lanesBoundary xs s) := by
  unfold lanesBoundary
  try dsimp only
  repeat' first
    | with_reducible assumption | with_reducible apply ok_ite | with_reducible apply fillLap_ok | with_reducible apply flow_ok
    | with_reducible apply laneReport_ok | with_reducible apply thawLane_ok | with_reducible apply ok_foldl_snd
    | with_reducible apply ok_foldl | split | (with_reducible intro u x hu) | (with_reducible intro u hu) | dsimp only
    | (fail_if_no_progress refine ok_mk ?_ (by and_intros <;> first | with_reducible exact Or.inl rfl | exact Or.inr (by assumption)))

end Sys2Proof.Machine
end

