-- ==== Sys2Proof/Laws/KeepDmc.lean ====
section
/-!
SUPPORT. What the operations of Machine/Dmc.lean keep.
-/
namespace Sys2Proof.Machine
open Sys2Proof

set_option Elab.async false
set_option linter.unreachableTactic false
set_option linter.unusedTactic false
set_option linter.unusedVariables false

variable {kp : Comp → Bool} {zz s : State}

theorem dmcReady_ok (h : Ok kp zz s) (kDmc : kp .dmc = true := by assumption) : Ok kp zz (dmcReady s) := by
  unfold dmcReady
  repeat' first
    | with_reducible assumption | with_reducible apply setDmc_ok | with_reducible apply setDmcState_ok

theorem loseDram_ok (h : Ok kp zz s) {lo : Nat} {hi : Nat} (kFresh : kp .fresh = true := by assumption) (kMem : kp .mem = true
    := by assumption) (kDmc : kp .dmc = true := by assumption) : Ok kp zz (loseDram lo hi s) := by
  unfold loseDram
  try dsimp only
  repeat' first
    | with_reducible assumption | with_reducible apply ok_ite | with_reducible apply loseRange_ok
    | with_reducible apply setDmc_ok | split | (with_reducible intro u x hu) | (with_reducible intro u hu) | dsimp only
    | (fail_if_no_progress refine ok_mk ?_ (by and_intros <;> first | with_reducible exact Or.inl rfl | exact Or.inr (by assumption)))

theorem startSteps_ok (h : Ok kp zz s) {k : Nat} {c : Nat} : Ok kp zz (startSteps k s c) := by
  unfold startSteps
  repeat' first
    | with_reducible assumption | with_reducible apply ok_ite | with_reducible apply setFld_ok | split
    | (with_reducible intro u x hu) | (with_reducible intro u hu) | dsimp only
    | (fail_if_no_progress refine ok_mk ?_ (by and_intros <;> first | with_reducible exact Or.inl rfl | exact Or.inr (by assumption)))

theorem lookStep_ok (h : Ok kp zz s) {c : Nat} (kFresh : kp .fresh = true := by assumption) : Ok kp zz (lookStep c s) := by
  unfold lookStep
  try dsimp only
  repeat' first
    | with_reducible assumption | with_reducible apply ok_ite | with_reducible apply freshen_ok | with_reducible apply setFld_ok
    | split | (with_reducible intro u x hu) | (with_reducible intro u hu) | dsimp only
    | (fail_if_no_progress refine ok_mk ?_ (by and_intros <;> first | with_reducible exact Or.inl rfl | exact Or.inr (by assumption)))

theorem execInit_ok (h : Ok kp zz s) (kFresh : kp .fresh = true := by assumption) (kAccepted : kp .accepted = true := by
    assumption) (kMem : kp .mem = true := by assumption) (kDmc : kp .dmc = true := by assumption) : OkO kp zz (execInit s) :=
    by
  unfold execInit
  try dsimp only
  repeat' first
    | with_reducible assumption | with_reducible apply okO_ite | with_reducible apply okO_next | with_reducible apply okO_fault
    | with_reducible apply okO_refused | with_reducible apply ok_ite | with_reducible apply accept_ok
    | with_reducible apply done_ok | with_reducible apply loseDram_ok | with_reducible apply refuse_ok
    | with_reducible apply reject_ok | with_reducible apply setDmc_ok | with_reducible apply setDmcState_ok
    | with_reducible apply setFld_ok | with_reducible apply startSteps_ok | with_reducible apply ok_foldl_snd
    | with_reducible apply ok_foldl | split | (with_reducible intro u x hu) | (with_reducible intro u hu) | dsimp only
    | (fail_if_no_progress refine ok_mk ?_ (by and_intros <;> first | with_reducible exact Or.inl rfl | exact Or.inr (by assumption)))

theorem execInitResume_ok (h : Ok kp zz s) (kAccepted : kp .accepted = true := by assumption) : OkO kp zz (execInitResume s)
    := by
  unfold execInitResume
  repeat' first
    | with_reducible assumption | with_reducible apply okO_ite | with_reducible apply okO_next | with_reducible apply okO_fault
    | with_reducible apply okO_refused | with_reducible apply ok_ite | with_reducible apply accept_ok
    | with_reducible apply done_ok | with_reducible apply refuse_ok | with_reducible apply reject_ok
    | with_reducible apply setDmcState_ok | with_reducible apply startSteps_ok | with_reducible apply ok_foldl_snd
    | with_reducible apply ok_foldl | split | (with_reducible intro u x hu) | (with_reducible intro u hu) | dsimp only
    | (fail_if_no_progress refine ok_mk ?_ (by and_intros <;> first | with_reducible exact Or.inl rfl | exact Or.inr (by assumption)))

theorem recode_ok (h : Ok kp zz s) (kFresh : kp .fresh = true := by assumption) (kMem : kp .mem = true := by assumption) (kDmc
    : kp .dmc = true := by assumption) : Ok kp zz (recode s) := by
  unfold recode
  try dsimp only
  repeat' first
    | with_reducible assumption | with_reducible apply ok_ite2 | with_reducible assumption | with_reducible apply ok_ite
    | with_reducible apply flipBit_ok | with_reducible apply loseDram_ok | with_reducible apply setDmc_ok
    | with_reducible apply ok_foldl_snd | with_reducible apply ok_foldl | split | (with_reducible intro u x hu)
    | (with_reducible intro u hu) | dsimp only
    | (fail_if_no_progress refine ok_mk ?_ (by and_intros <;> first | with_reducible exact Or.inl rfl | exact Or.inr (by assumption)))

theorem execDmcTrainDone_ok (h : Ok kp zz s) {margins : List (BitVec 8 × BitVec 8)} {large : Bool} {words : List Word} (kFresh
    : kp .fresh = true := by assumption) (kAccepted : kp .accepted = true := by assumption) (kMem : kp .mem = true := by
    assumption) (kDmc : kp .dmc = true := by assumption) : OkO kp zz (execDmcTrainDone margins large words s) := by
  unfold execDmcTrainDone
  try dsimp only
  repeat' first
    | with_reducible assumption | with_reducible apply okO_ite | with_reducible apply okO_next | with_reducible apply okO_fault
    | with_reducible apply okO_refused | with_reducible apply ok_ite2 | with_reducible assumption | with_reducible apply ok_ite
    | with_reducible apply complete_ok | with_reducible apply dmcReady_ok | with_reducible apply done_ok
    | with_reducible apply raise_ok | with_reducible apply recode_ok | with_reducible apply setDmc_ok
    | with_reducible apply setFlag_ok | with_reducible apply wr_ok | with_reducible apply ok_foldl_snd
    | with_reducible apply ok_foldl | split | (with_reducible intro u x hu) | (with_reducible intro u hu) | dsimp only
    | (fail_if_no_progress refine ok_mk ?_ (by and_intros <;> first | with_reducible exact Or.inl rfl | exact Or.inr (by assumption)))

theorem showMargins_ok (h : Ok kp zz s) {bad : Bool} {c : Nat} : Ok kp zz (showMargins bad c s) := by
  unfold showMargins
  try dsimp only
  repeat' first
    | with_reducible assumption | with_reducible apply ok_ite | with_reducible apply setFld_ok | split
    | (with_reducible intro u x hu) | (with_reducible intro u hu) | dsimp only
    | (fail_if_no_progress refine ok_mk ?_ (by and_intros <;> first | with_reducible exact Or.inl rfl | exact Or.inr (by assumption)))

theorem execDmcTrainFail_ok (h : Ok kp zz s) {step : Fin 9} {chans : BitVec 2} {mr8 : Bool} (kFresh : kp .fresh = true := by
    assumption) (kAccepted : kp .accepted = true := by assumption) : OkO kp zz (execDmcTrainFail step chans mr8 s) := by
  unfold execDmcTrainFail
  try dsimp only
  repeat' first
    | with_reducible assumption | with_reducible apply okO_ite | with_reducible apply okO_next | with_reducible apply okO_fault
    | with_reducible apply okO_refused | with_reducible apply ok_ite | with_reducible apply complete_ok
    | with_reducible apply done_ok | with_reducible apply freshen_ok | with_reducible apply raise_ok
    | with_reducible apply setDmcState_ok | with_reducible apply setFld_ok | with_reducible apply showMargins_ok
    | with_reducible apply ok_foldl_snd | with_reducible apply ok_foldl | split | (with_reducible intro u x hu)
    | (with_reducible intro u hu) | dsimp only
    | (fail_if_no_progress refine ok_mk ?_ (by and_intros <;> first | with_reducible exact Or.inl rfl | exact Or.inr (by assumption)))

theorem execDqsRetrain_ok (h : Ok kp zz s) {ofs : Nat} (kTbs : kp .tbs = true := by assumption) (kDmc : kp .dmc = true := by
    assumption) : OkO kp zz (execDqsRetrain ofs s) := by
  unfold execDqsRetrain
  repeat' first
    | with_reducible assumption | with_reducible apply okO_ite | with_reducible apply ok_ite | with_reducible apply atOfs_ok
    | with_reducible apply done_ok | with_reducible apply setDmc_ok | split

theorem execDramRequest_ok (h : Ok kp zz s) {cls : Fin 3} {write : Bool} {wide : Bool} {addr : Nat} {data : List Byte} {mask :
    BitVec 64} {flips : List (Fin 576)} {issued : Bool} {ofs : Nat} (kFresh : kp .fresh = true := by assumption) (kMem : kp
    .mem = true := by assumption) (kTbs : kp .tbs = true := by assumption) (kCores : kp .cores = true := by assumption) (kDmc
    : kp .dmc = true := by assumption) : OkO kp zz (execDramRequest cls write wide addr data mask flips issued ofs s) := by
  unfold execDramRequest
  try dsimp only
  repeat' first
    | with_reducible assumption | with_reducible apply okO_ite | with_reducible apply okO_next | with_reducible apply okO_fault
    | with_reducible apply okO_refused | with_reducible apply ok_ite | with_reducible apply atOfs_ok
    | with_reducible apply dmcRequest_ok | with_reducible apply done_ok | with_reducible apply raiseIf_ok
    | with_reducible apply setDmc_ok | split | (with_reducible intro u x hu) | (with_reducible intro u hu) | dsimp only
    | (fail_if_no_progress refine ok_mk ?_ (by and_intros <;> first | with_reducible exact Or.inl rfl | exact Or.inr (by assumption)))

theorem execPerBankRefresh_ok (h : Ok kp zz s) {ofs : Nat} (kTbs : kp .tbs = true := by assumption) (kDmc : kp .dmc = true :=
    by assumption) : OkO kp zz (execPerBankRefresh ofs s) := by
  unfold execPerBankRefresh
  repeat' first
    | with_reducible assumption | with_reducible apply okO_ite | with_reducible apply ok_ite | with_reducible apply okO_fault
    | with_reducible apply atOfs_ok | with_reducible apply done_ok | with_reducible apply setDmc_ok | split

theorem execMr4Poll_ok (h : Ok kp zz s) {a : Fin 8} {b : Fin 8} {ofs : Nat} (kTbs : kp .tbs = true := by assumption) (kDmc :
    kp .dmc = true := by assumption) : OkO kp zz (execMr4Poll a b ofs s) := by
  unfold execMr4Poll
  repeat' first
    | with_reducible assumption | with_reducible apply okO_ite | with_reducible apply ok_ite | with_reducible apply atOfs_ok
    | with_reducible apply done_ok | with_reducible apply raiseIf_ok | with_reducible apply setDmc_ok
    | with_reducible apply setFlag_ok | with_reducible apply wr_ok | split

theorem execScrubRead_ok (h : Ok kp zz s) {flips : List (Fin 576)} {ofs : Nat} (kFresh : kp .fresh = true := by assumption)
    (kMem : kp .mem = true := by assumption) (kTbs : kp .tbs = true := by assumption) (kCores : kp .cores = true := by
    assumption) (kDmc : kp .dmc = true := by assumption) : OkO kp zz (execScrubRead flips ofs s) := by
  unfold execScrubRead
  try dsimp only
  repeat' first
    | with_reducible assumption | with_reducible apply okO_ite | with_reducible apply okO_next | with_reducible apply okO_fault
    | with_reducible apply okO_refused | with_reducible apply ok_ite | with_reducible apply atOfs_ok
    | with_reducible apply dmcServe_ok | with_reducible apply done_ok | with_reducible apply readChecked_ok
    | with_reducible apply setDmc_ok | with_reducible apply wr_ok | with_reducible apply ok_foldl_snd
    | with_reducible apply ok_foldl | split | (with_reducible intro u x hu) | (with_reducible intro u hu) | dsimp only
    | (fail_if_no_progress refine ok_mk ?_ (by and_intros <;> first | with_reducible exact Or.inl rfl | exact Or.inr (by assumption)))

theorem selfRefresh_ok (h : Ok kp zz s) {op : Nat} (kAccepted : kp .accepted = true := by assumption) : OkO kp zz (selfRefresh
    op s) := by
  unfold selfRefresh
  repeat' first
    | with_reducible assumption | with_reducible apply okO_ite | with_reducible apply ok_ite | with_reducible apply okO_fault
    | with_reducible apply accept_ok | with_reducible apply done_ok | with_reducible apply refuse_ok
    | with_reducible apply reject_ok | with_reducible apply setDmcState_ok | split

theorem execSrEnter_ok (h : Ok kp zz s) (kAccepted : kp .accepted = true := by assumption) : OkO kp zz (execSrEnter s) := by
  unfold execSrEnter
  repeat' first
    | with_reducible assumption | with_reducible apply selfRefresh_ok

theorem execSrEnterPasr_ok (h : Ok kp zz s) (kAccepted : kp .accepted = true := by assumption) : OkO kp zz (execSrEnterPasr s)
    := by
  unfold execSrEnterPasr
  repeat' first
    | with_reducible assumption | with_reducible apply selfRefresh_ok

theorem loseMasked_ok (h : Ok kp zz s) {mask : Nat} (kFresh : kp .fresh = true := by assumption) (kMem : kp .mem = true := by
    assumption) (kDmc : kp .dmc = true := by assumption) : Ok kp zz (loseMasked mask s) := by
  unfold loseMasked
  try dsimp only
  repeat' first
    | with_reducible assumption | with_reducible apply ok_ite | with_reducible apply loseDram_ok
    | with_reducible apply ok_foldl_snd | with_reducible apply ok_foldl | split | (with_reducible intro u x hu)
    | (with_reducible intro u hu) | dsimp only
    | (fail_if_no_progress refine ok_mk ?_ (by and_intros <;> first | with_reducible exact Or.inl rfl | exact Or.inr (by assumption)))

theorem performAll_ok (h : Ok kp zz s) (kFresh : kp .fresh = true := by assumption) (kMem : kp .mem = true := by assumption)
    (kCores : kp .cores = true := by assumption) (kDmc : kp .dmc = true := by assumption) : Ok kp zz (performAll s) := by
  unfold performAll
  try dsimp only
  repeat' first
    | with_reducible assumption | with_reducible apply ok_ite | with_reducible apply perform_ok | with_reducible apply setDmc_ok
    | with_reducible apply ok_foldl_snd | with_reducible apply ok_foldl | split | (with_reducible intro u x hu)
    | (with_reducible intro u hu) | dsimp only
    | (fail_if_no_progress refine ok_mk ?_ (by and_intros <;> first | with_reducible exact Or.inl rfl | exact Or.inr (by assumption)))

theorem execSrEntryComplete_ok (h : Ok kp zz s) (kFresh : kp .fresh = true := by assumption) (kAccepted : kp .accepted = true
    := by assumption) (kMem : kp .mem = true := by assumption) (kCores : kp .cores = true := by assumption) (kDmc : kp .dmc =
    true := by assumption) : OkO kp zz (execSrEntryComplete s) := by
  unfold execSrEntryComplete
  try dsimp only
  repeat' first
    | with_reducible assumption | with_reducible apply okO_ite | with_reducible apply okO_next | with_reducible apply okO_fault
    | with_reducible apply okO_refused | with_reducible apply ok_ite | with_reducible apply complete_ok
    | with_reducible apply done_ok | with_reducible apply loseMasked_ok | with_reducible apply performAll_ok
    | with_reducible apply setDmc_ok | with_reducible apply setDmcState_ok | with_reducible apply setFld_ok
    | with_reducible apply showHeld_ok | split | (with_reducible intro u x hu) | (with_reducible intro u hu) | dsimp only
    | (fail_if_no_progress refine ok_mk ?_ (by and_intros <;> first | with_reducible exact Or.inl rfl | exact Or.inr (by assumption)))

theorem execSrExit_ok (h : Ok kp zz s) (kAccepted : kp .accepted = true := by assumption) (kDmc : kp .dmc = true := by
    assumption) : OkO kp zz (execSrExit s) := by
  unfold execSrExit
  repeat' first
    | with_reducible assumption | with_reducible apply okO_ite | with_reducible apply okO_next | with_reducible apply okO_fault
    | with_reducible apply okO_refused | with_reducible apply ok_ite | with_reducible apply accept_ok
    | with_reducible apply done_ok | with_reducible apply leaveSelfRefresh_ok | with_reducible apply refuse_ok
    | with_reducible apply reject_ok | split | (with_reducible intro u x hu) | (with_reducible intro u hu) | dsimp only
    | (fail_if_no_progress refine ok_mk ?_ (by and_intros <;> first | with_reducible exact Or.inl rfl | exact Or.inr (by assumption)))

theorem execSrExitOnRequest_ok (h : Ok kp zz s) {ofs : Nat} (kFresh : kp .fresh = true := by assumption) (kAccepted : kp
    .accepted = true := by assumption) (kMem : kp .mem = true := by assumption) (kTbs : kp .tbs = true := by assumption)
    (kCores : kp .cores = true := by assumption) (kDmc : kp .dmc = true := by assumption) : OkO kp zz (execSrExitOnRequest ofs
    s) := by
  unfold execSrExitOnRequest
  repeat' first
    | with_reducible assumption | with_reducible apply okO_ite | with_reducible apply ok_ite | with_reducible apply atOfs_ok
    | with_reducible apply complete_ok | with_reducible apply dmcReady_ok | with_reducible apply dmcServe_ok
    | with_reducible apply done_ok | split

theorem regrain_ok (h : Ok kp zz s) {a b : Nat} (kMem : kp .mem = true := by assumption) (kDmc : kp .dmc = true := by assumption) : Ok kp zz (regrain a b s) := by
  unfold regrain
  dsimp only
  exact ok_stores h rfl (fun w0 => ⟨tcanon_foldl_tput _ (fun t x ht => tcanon_tput _ _ ht) _ rfl, w0.2⟩)
    (fun c hk => by cases c <;> first | rfl | simp_all)

theorem grainWrite_ok (h : Ok kp zz s) {v : Nat} (kMem : kp .mem = true := by assumption) (kDmc : kp .dmc = true := by
    assumption) : OkO kp zz (grainWrite v s) := by
  unfold grainWrite
  repeat' first
    | with_reducible assumption | with_reducible apply okO_ite | with_reducible apply ok_ite | with_reducible apply okO_fault
    | with_reducible apply done_ok | with_reducible apply regrain_ok | with_reducible apply setFld_ok | split

theorem execGrainWrite_ok (h : Ok kp zz s) {grain : Fin 16} (kMem : kp .mem = true := by assumption) (kDmc : kp .dmc = true :=
    by assumption) : OkO kp zz (execGrainWrite grain s) := by
  unfold execGrainWrite
  repeat' first
    | with_reducible assumption | with_reducible apply grainWrite_ok

end Sys2Proof.Machine
end

