-- ==== Sys2Proof/Laws/KeepTwin.lean ====
section
/-!
SUPPORT. What the operations of Machine/Twin.lean keep.
-/
namespace Sys2Proof.Machine
open Sys2Proof

set_option Elab.async false
set_option linter.unreachableTactic false
set_option linter.unusedTactic false
set_option linter.unusedVariables false

variable {kp : Comp → Bool} {zz s : State}

theorem setTwin_ok (h : Ok kp zz s) {x : Twin} (kTwin : kp .twin = true := by assumption) : Ok kp zz (setTwin x s) := by
  unfold setTwin
  repeat' first
    | with_reducible assumption
    | (fail_if_no_progress refine ok_mk ?_ (by and_intros <;> first | with_reducible exact Or.inl rfl | exact Or.inr (by assumption)))

theorem showTop_ok (h : Ok kp zz s) (kSent : kp .sent = true := by assumption) (kOut : kp .out = true := by assumption) : Ok
    kp zz (showTop s) := by
  unfold showTop
  repeat' first
    | with_reducible assumption | with_reducible apply ok_ite | with_reducible apply emitLevel_ok
    | with_reducible apply setFlag_ok | with_reducible apply setOut_ok | split

theorem enterTwin_ok (h : Ok kp zz s) {st : Nat} (kSent : kp .sent = true := by assumption) (kOut : kp .out = true := by
    assumption) : Ok kp zz (enterTwin st s) := by
  unfold enterTwin
  repeat' first
    | with_reducible assumption | with_reducible apply ok_ite | with_reducible apply raise_ok | with_reducible apply setFld_ok
    | with_reducible apply showTop_ok | split

theorem raiseClaim_ok (h : Ok kp zz s) : Ok kp zz (raiseClaim s) := by
  unfold raiseClaim
  repeat' first
    | with_reducible assumption | with_reducible apply raise_ok | with_reducible apply setFld_ok

theorem startLag_ok (h : Ok kp zz s) (kTwin : kp .twin = true := by assumption) : Ok kp zz (startLag s) := by
  unfold startLag
  repeat' first
    | with_reducible assumption | with_reducible apply ok_ite | with_reducible apply hold_ok | with_reducible apply setFlag_ok
    | with_reducible apply setTwin_ok | split | (with_reducible intro u x hu) | (with_reducible intro u hu) | dsimp only
    | (fail_if_no_progress refine ok_mk ?_ (by and_intros <;> first | with_reducible exact Or.inl rfl | exact Or.inr (by assumption)))

theorem toMirror_ok (h : Ok kp zz s) (kTwin : kp .twin = true := by assumption) : Ok kp zz (toMirror s) := by
  unfold toMirror
  repeat' first
    | with_reducible assumption | with_reducible apply ok_ite | with_reducible apply setTwin_ok
    | with_reducible apply startLag_ok | split | (with_reducible intro u x hu) | (with_reducible intro u hu) | dsimp only
    | (fail_if_no_progress refine ok_mk ?_ (by and_intros <;> first | with_reducible exact Or.inl rfl | exact Or.inr (by assumption)))

theorem toOwn_ok (h : Ok kp zz s) (kTwin : kp .twin = true := by assumption) : Ok kp zz (toOwn s) := by
  unfold toOwn
  repeat' first
    | with_reducible assumption | with_reducible apply setTwin_ok

theorem endTwnCmd_ok (h : Ok kp zz s) {op : Nat} {code : Nat} (kAccepted : kp .accepted = true := by assumption) : Ok kp zz
    (endTwnCmd op code s) := by
  unfold endTwnCmd
  repeat' first
    | with_reducible assumption | with_reducible apply ok_ite | with_reducible apply complete_ok | split

theorem dropPlans_ok (h : Ok kp zz s) (kAccepted : kp .accepted = true := by assumption) (kTwin : kp .twin = true := by
    assumption) : Ok kp zz (dropPlans s) := by
  unfold dropPlans
  try dsimp only
  repeat' first
    | with_reducible assumption | with_reducible apply ok_ite | with_reducible apply endTwnCmd_ok
    | with_reducible apply setTwin_ok | split | (with_reducible intro u x hu) | (with_reducible intro u hu) | dsimp only
    | (fail_if_no_progress refine ok_mk ?_ (by and_intros <;> first | with_reducible exact Or.inl rfl | exact Or.inr (by assumption)))

theorem enterJoining_ok (h : Ok kp zz s) (kAccepted : kp .accepted = true := by assumption) (kSent : kp .sent = true := by
    assumption) (kOut : kp .out = true := by assumption) (kTwin : kp .twin = true := by assumption) : Ok kp zz (enterJoining
    s) := by
  unfold enterJoining
  try dsimp only
  repeat' first
    | with_reducible assumption | with_reducible apply ok_ite | with_reducible apply dropPlans_ok
    | with_reducible apply enterTwin_ok | with_reducible apply setTwin_ok | with_reducible apply toMirror_ok | split
    | (with_reducible intro u x hu) | (with_reducible intro u hu) | dsimp only
    | (fail_if_no_progress refine ok_mk ?_ (by and_intros <;> first | with_reducible exact Or.inl rfl | exact Or.inr (by assumption)))

theorem enterOutOfStep_ok (h : Ok kp zz s) (kAccepted : kp .accepted = true := by assumption) (kSent : kp .sent = true := by
    assumption) (kOut : kp .out = true := by assumption) (kTwin : kp .twin = true := by assumption) : Ok kp zz (enterOutOfStep
    s) := by
  unfold enterOutOfStep
  try dsimp only
  repeat' first
    | with_reducible assumption | with_reducible apply ok_ite | with_reducible apply dropPlans_ok
    | with_reducible apply endTwnCmd_ok | with_reducible apply enterTwin_ok | with_reducible apply setTwin_ok
    | with_reducible apply toMirror_ok | split | (with_reducible intro u x hu) | (with_reducible intro u hu) | dsimp only
    | (fail_if_no_progress refine ok_mk ?_ (by and_intros <;> first | with_reducible exact Or.inl rfl | exact Or.inr (by assumption)))

theorem enterLinking_ok (h : Ok kp zz s) (kAccepted : kp .accepted = true := by assumption) (kSent : kp .sent = true := by
    assumption) (kOut : kp .out = true := by assumption) (kTwin : kp .twin = true := by assumption) : Ok kp zz (enterLinking
    s) := by
  unfold enterLinking
  try dsimp only
  repeat' first
    | with_reducible assumption | with_reducible apply ok_ite | with_reducible apply dropPlans_ok
    | with_reducible apply endTwnCmd_ok | with_reducible apply enterTwin_ok | with_reducible apply setTwin_ok
    | with_reducible apply toOwn_ok | split | (with_reducible intro u x hu) | (with_reducible intro u hu) | dsimp only
    | (fail_if_no_progress refine ok_mk ?_ (by and_intros <;> first | with_reducible exact Or.inl rfl | exact Or.inr (by assumption)))

theorem enterActive_ok (h : Ok kp zz s) (kAccepted : kp .accepted = true := by assumption) (kSent : kp .sent = true := by
    assumption) (kOut : kp .out = true := by assumption) (kTwin : kp .twin = true := by assumption) : Ok kp zz (enterActive s)
    := by
  unfold enterActive
  repeat' first
    | with_reducible assumption | with_reducible apply ok_ite | with_reducible apply endTwnCmd_ok
    | with_reducible apply enterTwin_ok | with_reducible apply toOwn_ok | split | (with_reducible intro u x hu)
    | (with_reducible intro u hu) | dsimp only
    | (fail_if_no_progress refine ok_mk ?_ (by and_intros <;> first | with_reducible exact Or.inl rfl | exact Or.inr (by assumption)))

theorem settleRole_ok (h : Ok kp zz s) (kAccepted : kp .accepted = true := by assumption) (kSent : kp .sent = true := by
    assumption) (kOut : kp .out = true := by assumption) (kTwin : kp .twin = true := by assumption) : Ok kp zz (settleRole s)
    := by
  unfold settleRole
  repeat' first
    | with_reducible assumption | with_reducible apply ok_ite | with_reducible apply enterActive_ok
    | with_reducible apply enterJoining_ok | split

theorem twinEnable_ok (h : Ok kp zz s) {en : Bool} (kAccepted : kp .accepted = true := by assumption) (kSent : kp .sent = true
    := by assumption) (kOut : kp .out = true := by assumption) (kTwin : kp .twin = true := by assumption) : Ok kp zz
    (twinEnable en s) := by
  unfold twinEnable
  try dsimp only
  repeat' first
    | with_reducible assumption | with_reducible apply ok_ite | with_reducible apply complete_ok
    | with_reducible apply enterLinking_ok | with_reducible apply enterTwin_ok | with_reducible apply setFlag_ok
    | with_reducible apply setFld_ok | with_reducible apply setTwin_ok | with_reducible apply settleRole_ok
    | with_reducible apply toOwn_ok | split | (with_reducible intro u x hu) | (with_reducible intro u hu) | dsimp only
    | (fail_if_no_progress refine ok_mk ?_ (by and_intros <;> first | with_reducible exact Or.inl rfl | exact Or.inr (by assumption)))

theorem execTwinEnable_ok (h : Ok kp zz s) {en : Bool} (kAccepted : kp .accepted = true := by assumption) (kSent : kp .sent =
    true := by assumption) (kOut : kp .out = true := by assumption) (kTwin : kp .twin = true := by assumption) : OkO kp zz
    (execTwinEnable en s) := by
  unfold execTwinEnable
  repeat' first
    | with_reducible assumption | with_reducible apply done_ok | with_reducible apply twinEnable_ok

theorem execLinkWaitExpire_ok (h : Ok kp zz s) {ofs : Nat} (kAccepted : kp .accepted = true := by assumption) (kSent : kp
    .sent = true := by assumption) (kTbs : kp .tbs = true := by assumption) (kOut : kp .out = true := by assumption) (kTwin :
    kp .twin = true := by assumption) : OkO kp zz (execLinkWaitExpire ofs s) := by
  unfold execLinkWaitExpire
  repeat' first
    | with_reducible assumption | with_reducible apply okO_ite | with_reducible apply ok_ite | with_reducible apply atOfs_ok
    | with_reducible apply done_ok | with_reducible apply enterActive_ok | split

theorem execPartnerLost_ok (h : Ok kp zz s) (kAccepted : kp .accepted = true := by assumption) (kSent : kp .sent = true := by
    assumption) (kOut : kp .out = true := by assumption) (kTwin : kp .twin = true := by assumption) : OkO kp zz
    (execPartnerLost s) := by
  unfold execPartnerLost
  try dsimp only
  repeat' first
    | with_reducible assumption | with_reducible apply okO_ite | with_reducible apply okO_next | with_reducible apply okO_fault
    | with_reducible apply okO_refused | with_reducible apply ok_ite | with_reducible apply done_ok
    | with_reducible apply enterLinking_ok | with_reducible apply setFlag_ok | with_reducible apply settleRole_ok | split
    | (with_reducible intro u x hu) | (with_reducible intro u hu) | dsimp only
    | (fail_if_no_progress refine ok_mk ?_ (by and_intros <;> first | with_reducible exact Or.inl rfl | exact Or.inr (by assumption)))

theorem judgeMissed_ok (h : Ok kp zz s) (kTwin : kp .twin = true := by assumption) : Ok kp zz (judgeMissed s) := by
  unfold judgeMissed
  repeat' first
    | with_reducible assumption | with_reducible apply setTwin_ok | split

theorem execTwinHoldInChange_ok (h : Ok kp zz s) {high : Bool} {ofs : Nat} (kAccepted : kp .accepted = true := by assumption)
    (kSent : kp .sent = true := by assumption) (kTbs : kp .tbs = true := by assumption) (kOut : kp .out = true := by
    assumption) (kTwin : kp .twin = true := by assumption) : OkO kp zz (execTwinHoldInChange high ofs s) := by
  unfold execTwinHoldInChange
  repeat' first
    | with_reducible assumption | with_reducible apply okO_ite | with_reducible apply ok_ite | with_reducible apply atOfs_ok
    | with_reducible apply done_ok | with_reducible apply judgeMissed_ok | with_reducible apply setFlag_ok
    | with_reducible apply setTwin_ok | with_reducible apply settleRole_ok | split

theorem execPinDriveEnable_ok (h : Ok kp zz s) {ofs : Nat} (kTbs : kp .tbs = true := by assumption) : OkO kp zz
    (execPinDriveEnable ofs s) := by
  unfold execPinDriveEnable
  repeat' first
    | with_reducible assumption | with_reducible apply okO_ite | with_reducible apply ok_ite | with_reducible apply atOfs_ok
    | with_reducible apply done_ok | with_reducible apply setFlag_ok | split

theorem execExcGateChange_ok (h : Ok kp zz s) (kAfe : kp .afe = true := by assumption) (kTwin : kp .twin = true := by
    assumption) : OkO kp zz (execExcGateChange s) := by
  unfold execExcGateChange
  try dsimp only
  repeat' first
    | with_reducible assumption | with_reducible apply okO_ite | with_reducible apply okO_next | with_reducible apply okO_fault
    | with_reducible apply okO_refused | with_reducible apply ok_ite | with_reducible apply done_ok
    | with_reducible apply driveActive_ok | with_reducible apply endOpen_ok | with_reducible apply setTwin_ok
    | with_reducible apply ok_foldl_snd | with_reducible apply ok_foldl | split | (with_reducible intro u x hu)
    | (with_reducible intro u hu) | dsimp only
    | (fail_if_no_progress refine ok_mk ?_ (by and_intros <;> first | with_reducible exact Or.inl rfl | exact Or.inr (by assumption)))

theorem showSelf_ok (h : Ok kp zz s) : Ok kp zz (showSelf s) := by
  unfold showSelf
  repeat' first
    | with_reducible assumption | with_reducible apply setFlag_ok | with_reducible apply setFld_ok

theorem twinSend_ok (h : Ok kp zz s) {vc : Nat} {type : Nat} {p : List Byte} (kWot : kp .wot = true := by assumption) : Ok kp
    zz (twinSend vc type p s) := by
  unfold twinSend
  repeat' first
    | with_reducible assumption | with_reducible apply ok_ite | with_reducible apply enqueueFrame_ok | split

theorem agreeSwap_ok (h : Ok kp zz s) {w : Swap} (kTwin : kp .twin = true := by assumption) : Ok kp zz (agreeSwap w s) := by
  unfold agreeSwap
  repeat' first
    | with_reducible assumption | with_reducible apply ok_ite | with_reducible apply setTwin_ok | split
    | (with_reducible intro u x hu) | (with_reducible intro u hu) | dsimp only
    | (fail_if_no_progress refine ok_mk ?_ (by and_intros <;> first | with_reducible exact Or.inl rfl | exact Or.inr (by assumption)))

theorem judgePolicy_ok (h : Ok kp zz s) (kAccepted : kp .accepted = true := by assumption) (kTwin : kp .twin = true := by
    assumption) : Ok kp zz (judgePolicy s) := by
  unfold judgePolicy
  try dsimp only
  repeat' first
    | with_reducible assumption | with_reducible apply ok_ite | with_reducible apply agreeSwap_ok
    | with_reducible apply endTwnCmd_ok | with_reducible apply raise_ok | with_reducible apply setTwin_ok | split
    | (with_reducible intro u x hu) | (with_reducible intro u hu) | dsimp only
    | (fail_if_no_progress refine ok_mk ?_ (by and_intros <;> first | with_reducible exact Or.inl rfl | exact Or.inr (by assumption)))

theorem openMismatch_ok (h : Ok kp zz s) {b : Nat} (kAccepted : kp .accepted = true := by assumption) (kTwin : kp .twin = true
    := by assumption) : Ok kp zz (openMismatch b s) := by
  unfold openMismatch
  repeat' first
    | with_reducible assumption | with_reducible apply ok_ite | with_reducible apply judgePolicy_ok
    | with_reducible apply setFld_ok | with_reducible apply setTwin_ok | split

theorem decideTake_ok (h : Ok kp zz s) (kTwin : kp .twin = true := by assumption) : Ok kp zz (decideTake s) := by
  unfold decideTake
  try dsimp only
  repeat' first
    | with_reducible assumption | with_reducible apply ok_ite | with_reducible apply setTwin_ok | split
    | (with_reducible intro u x hu) | (with_reducible intro u hu) | dsimp only
    | (fail_if_no_progress refine ok_mk ?_ (by and_intros <;> first | with_reducible exact Or.inl rfl | exact Or.inr (by assumption)))

theorem mismatch_ok (h : Ok kp zz s) {b : Nat} {mineFault : Bool} {peerFault : Bool} (kAccepted : kp .accepted = true := by
    assumption) (kTwin : kp .twin = true := by assumption) : Ok kp zz (mismatch b mineFault peerFault s) := by
  unfold mismatch
  try dsimp only
  repeat' first
    | with_reducible assumption | with_reducible apply ok_ite | with_reducible apply addSat_ok
    | with_reducible apply decideTake_ok | with_reducible apply openMismatch_ok | with_reducible apply raise_ok
    | with_reducible apply wrPair_ok | split | (with_reducible intro u x hu) | (with_reducible intro u hu) | dsimp only
    | (fail_if_no_progress refine ok_mk ?_ (by and_intros <;> first | with_reducible exact Or.inl rfl | exact Or.inr (by assumption)))

theorem compareAt_ok (h : Ok kp zz s) {b : Nat} (kAccepted : kp .accepted = true := by assumption) (kTwin : kp .twin = true :=
    by assumption) : Ok kp zz (compareAt s b) := by
  unfold compareAt
  repeat' first
    | with_reducible assumption | with_reducible apply ok_ite2 | with_reducible apply ok_ite | with_reducible apply mismatch_ok
    | split

theorem compareDigests_ok (h : Ok kp zz s) (kAccepted : kp .accepted = true := by assumption) (kTwin : kp .twin = true := by
    assumption) : Ok kp zz (compareDigests s) := by
  unfold compareDigests
  repeat' first
    | with_reducible assumption | with_reducible apply compareAt_ok | with_reducible apply setTwin_ok
    | with_reducible apply ok_foldl | (with_reducible intro u x hu)

theorem execDigestCompute_ok (h : Ok kp zz s) (kAccepted : kp .accepted = true := by assumption) (kOut : kp .out = true := by
    assumption) (kWot : kp .wot = true := by assumption) (kTwin : kp .twin = true := by assumption) : OkO kp zz
    (execDigestCompute s) := by
  unfold execDigestCompute
  repeat' first
    | with_reducible assumption | with_reducible apply okO_ite | with_reducible apply ok_ite
    | with_reducible apply compareDigests_ok | with_reducible apply done_ok | with_reducible apply setOut_ok
    | with_reducible apply setTwin_ok | with_reducible apply showSelf_ok | with_reducible apply twinSend_ok | split

theorem execSwap_ok (h : Ok kp zz s) (kAccepted : kp .accepted = true := by assumption) (kTwin : kp .twin = true := by
    assumption) : OkO kp zz (execSwap s) := by
  unfold execSwap
  repeat' first
    | with_reducible assumption | with_reducible apply okO_ite | with_reducible apply ok_ite | with_reducible apply accept_ok
    | with_reducible apply done_ok | with_reducible apply refuse_ok | with_reducible apply reject_ok
    | with_reducible apply setTwin_ok | split

theorem execSwapAckTimeout_ok (h : Ok kp zz s) (kAccepted : kp .accepted = true := by assumption) (kTwin : kp .twin = true :=
    by assumption) : OkO kp zz (execSwapAckTimeout s) := by
  unfold execSwapAckTimeout
  repeat' first
    | with_reducible assumption | with_reducible apply done_ok | with_reducible apply endTwnCmd_ok
    | with_reducible apply setTwin_ok | split

theorem enterLeaving_ok (h : Ok kp zz s) (kFresh : kp .fresh = true := by assumption) (kAccepted : kp .accepted = true := by
    assumption) (kSent : kp .sent = true := by assumption) (kOut : kp .out = true := by assumption) (kAcq : kp .acq = true :=
    by assumption) (kLanes : kp .lanes = true := by assumption) (kWot : kp .wot = true := by assumption) (kEth : kp .eth =
    true := by assumption) (kTwin : kp .twin = true := by assumption) : Ok kp zz (enterLeaving s) := by
  unfold enterLeaving
  try dsimp only
  repeat' first
    | with_reducible assumption | with_reducible apply ok_ite | with_reducible apply dropPlans_ok
    | with_reducible apply endTwnCmd_ok | with_reducible apply enterTwin_ok | with_reducible apply laneStop_ok
    | with_reducible apply setTwin_ok | with_reducible apply toOwn_ok | with_reducible apply ok_foldl_snd
    | with_reducible apply ok_foldl | split | (with_reducible intro u x hu) | (with_reducible intro u hu) | dsimp only
    | (fail_if_no_progress refine ok_mk ?_ (by and_intros <;> first | with_reducible exact Or.inl rfl | exact Or.inr (by assumption)))

theorem execLeave_ok (h : Ok kp zz s) {force : Bool} (kFresh : kp .fresh = true := by assumption) (kAccepted : kp .accepted =
    true := by assumption) (kSent : kp .sent = true := by assumption) (kOut : kp .out = true := by assumption) (kAcq : kp .acq
    = true := by assumption) (kLanes : kp .lanes = true := by assumption) (kWot : kp .wot = true := by assumption) (kEth : kp
    .eth = true := by assumption) (kTwin : kp .twin = true := by assumption) : OkO kp zz (execLeave force s) := by
  unfold execLeave
  repeat' first
    | with_reducible assumption | with_reducible apply okO_ite | with_reducible apply ok_ite | with_reducible apply complete_ok
    | with_reducible apply done_ok | with_reducible apply enterLeaving_ok | with_reducible apply refuse_ok
    | with_reducible apply reject_ok | split

theorem execSwapHandover_ok (h : Ok kp zz s) (kFresh : kp .fresh = true := by assumption) (kAccepted : kp .accepted = true :=
    by assumption) (kSent : kp .sent = true := by assumption) (kOut : kp .out = true := by assumption) (kAcq : kp .acq = true
    := by assumption) (kLanes : kp .lanes = true := by assumption) (kWot : kp .wot = true := by assumption) (kEth : kp .eth =
    true := by assumption) (kTwin : kp .twin = true := by assumption) : OkO kp zz (execSwapHandover s) := by
  unfold execSwapHandover
  try dsimp only
  repeat' first
    | with_reducible assumption | with_reducible apply okO_ite | with_reducible apply okO_next | with_reducible apply okO_fault
    | with_reducible apply okO_refused | with_reducible apply ok_ite | with_reducible apply done_ok
    | (refine (done_ok ?_) _ (by assumption)) | with_reducible apply dropPlans_ok | with_reducible apply endTwnCmd_ok
    | with_reducible apply enterLeaving_ok | with_reducible apply enterTwin_ok | with_reducible apply raiseClaim_ok
    | with_reducible apply setTwin_ok | with_reducible apply showTop_ok | with_reducible apply startLag_ok | split
    | (with_reducible intro u x hu) | (with_reducible intro u hu) | dsimp only
    | (fail_if_no_progress refine ok_mk ?_ (by and_intros <;> first | with_reducible exact Or.inl rfl | exact Or.inr (by assumption)))

theorem takeOver_ok (h : Ok kp zz s) (kAccepted : kp .accepted = true := by assumption) (kSent : kp .sent = true := by
    assumption) (kOut : kp .out = true := by assumption) (kTwin : kp .twin = true := by assumption) : Ok kp zz (takeOver s) :=
    by
  unfold takeOver
  repeat' first
    | with_reducible assumption | with_reducible apply endTwnCmd_ok | with_reducible apply enterTwin_ok
    | with_reducible apply raiseClaim_ok | with_reducible apply setTwin_ok | with_reducible apply showTop_ok
    | with_reducible apply toOwn_ok

theorem execTwnTakeover_ok (h : Ok kp zz s) (kAccepted : kp .accepted = true := by assumption) (kSent : kp .sent = true := by
    assumption) (kOut : kp .out = true := by assumption) (kTwin : kp .twin = true := by assumption) : OkO kp zz
    (execTwnTakeover s) := by
  unfold execTwnTakeover
  repeat' first
    | with_reducible assumption | with_reducible apply okO_ite | with_reducible apply okO_next | with_reducible apply okO_fault
    | with_reducible apply okO_refused | with_reducible apply ok_ite | with_reducible apply done_ok
    | (refine (done_ok ?_) _ (by assumption)) | with_reducible apply dropPlans_ok | with_reducible apply takeOver_ok | split
    | (with_reducible intro u x hu) | (with_reducible intro u hu) | dsimp only
    | (fail_if_no_progress refine ok_mk ?_ (by and_intros <;> first | with_reducible exact Or.inl rfl | exact Or.inr (by assumption)))

theorem execTake_ok (h : Ok kp zz s) {force : Bool} (kAccepted : kp .accepted = true := by assumption) (kTwin : kp .twin =
    true := by assumption) : OkO kp zz (execTake force s) := by
  unfold execTake
  repeat' first
    | with_reducible assumption | with_reducible apply okO_ite | with_reducible apply okO_next | with_reducible apply okO_fault
    | with_reducible apply okO_refused | with_reducible apply ok_ite | with_reducible apply accept_ok
    | with_reducible apply decideTake_ok | with_reducible apply done_ok | with_reducible apply refuse_ok
    | with_reducible apply reject_ok | split | (with_reducible intro u x hu) | (with_reducible intro u hu) | dsimp only
    | (fail_if_no_progress refine ok_mk ?_ (by and_intros <;> first | with_reducible exact Or.inl rfl | exact Or.inr (by assumption)))

theorem execTwinClear_ok (h : Ok kp zz s) (kAccepted : kp .accepted = true := by assumption) (kTwin : kp .twin = true := by
    assumption) : OkO kp zz (execTwinClear s) := by
  unfold execTwinClear
  repeat' first
    | with_reducible assumption | with_reducible apply okO_ite | with_reducible apply ok_ite | with_reducible apply complete_ok
    | with_reducible apply done_ok | with_reducible apply reject_ok | with_reducible apply setFlag_ok
    | with_reducible apply setFld_ok | with_reducible apply setTwin_ok | split

theorem execMmWindowExpire_ok (h : Ok kp zz s) (kTwin : kp .twin = true := by assumption) : OkO kp zz (execMmWindowExpire s)
    := by
  unfold execMmWindowExpire
  repeat' first
    | with_reducible assumption | with_reducible apply okO_ite | with_reducible apply ok_ite | with_reducible apply done_ok
    | with_reducible apply setFld_ok | with_reducible apply setTwin_ok | split

theorem applySafe_ok (h : Ok kp zz s) : Ok kp zz (applySafe s) := by
  unfold applySafe
  repeat' first
    | with_reducible assumption | with_reducible apply raise_ok | with_reducible apply setFlag_ok
    | with_reducible apply setLoopState_ok | with_reducible apply ok_foldl | (with_reducible intro u x hu)

theorem execPolicyApply_ok (h : Ok kp zz s) (kFresh : kp .fresh = true := by assumption) (kAccepted : kp .accepted = true :=
    by assumption) (kSent : kp .sent = true := by assumption) (kOut : kp .out = true := by assumption) (kAcq : kp .acq = true
    := by assumption) (kLanes : kp .lanes = true := by assumption) (kWot : kp .wot = true := by assumption) (kEth : kp .eth =
    true := by assumption) (kTwin : kp .twin = true := by assumption) : OkO kp zz (execPolicyApply s) := by
  unfold execPolicyApply
  repeat' first
    | with_reducible assumption | with_reducible apply okO_ite | with_reducible apply ok_ite | with_reducible apply applySafe_ok
    | with_reducible apply done_ok | with_reducible apply enterJoining_ok | with_reducible apply enterOutOfStep_ok
    | with_reducible apply execSwapHandover_ok | with_reducible apply setTwin_ok | split

theorem heedSwap_ok (h : Ok kp zz s) {q : PeerSays} (kAccepted : kp .accepted = true := by assumption) (kTwin : kp .twin =
    true := by assumption) : Ok kp zz (heedSwap q s) := by
  unfold heedSwap
  try dsimp only
  repeat' first
    | with_reducible assumption | with_reducible apply ok_ite | with_reducible apply agreeSwap_ok
    | with_reducible apply endTwnCmd_ok | with_reducible apply setTwin_ok | split | (with_reducible intro u x hu)
    | (with_reducible intro u hu) | dsimp only
    | (fail_if_no_progress refine ok_mk ?_ (by and_intros <;> first | with_reducible exact Or.inl rfl | exact Or.inr (by assumption)))

theorem heedAck_ok (h : Ok kp zz s) {q : PeerSays} (kTwin : kp .twin = true := by assumption) : Ok kp zz (heedAck q s) := by
  unfold heedAck
  repeat' first
    | with_reducible assumption | with_reducible apply ok_ite | with_reducible apply agreeSwap_ok | split
    | (with_reducible intro u x hu) | (with_reducible intro u hu) | dsimp only
    | (fail_if_no_progress refine ok_mk ?_ (by and_intros <;> first | with_reducible exact Or.inl rfl | exact Or.inr (by assumption)))

theorem heedJoin_ok (h : Ok kp zz s) {was : Nat} {q : PeerSays} (kTwin : kp .twin = true := by assumption) : Ok kp zz
    (heedJoin was q s) := by
  unfold heedJoin
  repeat' first
    | with_reducible assumption | with_reducible apply ok_ite | with_reducible apply setTwin_ok | split

theorem heedRole_ok (h : Ok kp zz s) {q : PeerSays} (kAccepted : kp .accepted = true := by assumption) (kSent : kp .sent =
    true := by assumption) (kOut : kp .out = true := by assumption) (kTwin : kp .twin = true := by assumption) : Ok kp zz
    (heedRole q s) := by
  unfold heedRole
  repeat' first
    | with_reducible assumption | with_reducible apply ok_ite | with_reducible apply enterJoining_ok
    | with_reducible apply enterOutOfStep_ok | with_reducible apply settleRole_ok | with_reducible apply showTop_ok | split

theorem execDigestFrameReceive_ok (h : Ok kp zz s) (kAccepted : kp .accepted = true := by assumption) (kSent : kp .sent = true
    := by assumption) (kOut : kp .out = true := by assumption) (kWot : kp .wot = true := by assumption) (kTwin : kp .twin =
    true := by assumption) : OkO kp zz (execDigestFrameReceive s) := by
  unfold execDigestFrameReceive
  repeat' first
    | with_reducible assumption | with_reducible apply okO_ite | with_reducible apply ok_ite | with_reducible apply okO_fault
    | (refine takeArrived_ok ?_ (by assumption)) | with_reducible apply compareDigests_ok | with_reducible apply done_ok
    | with_reducible apply heedAck_ok | with_reducible apply heedJoin_ok | with_reducible apply heedRole_ok
    | with_reducible apply heedSwap_ok | with_reducible apply setFlag_ok | with_reducible apply setFld_ok
    | with_reducible apply setTwin_ok | split

theorem execMirrorFrameSend_ok (h : Ok kp zz s) (kWot : kp .wot = true := by assumption) (kTwin : kp .twin = true := by
    assumption) : OkO kp zz (execMirrorFrameSend s) := by
  unfold execMirrorFrameSend
  repeat' first
    | with_reducible assumption | with_reducible apply done_ok | with_reducible apply setTwin_ok
    | with_reducible apply twinSend_ok | split

theorem execMirrorFrameReceive_ok (h : Ok kp zz s) (kWot : kp .wot = true := by assumption) (kTwin : kp .twin = true := by
    assumption) : OkO kp zz (execMirrorFrameReceive s) := by
  unfold execMirrorFrameReceive
  repeat' first
    | with_reducible assumption | with_reducible apply okO_ite | with_reducible apply ok_ite2 | with_reducible apply ok_ite
    | (refine takeArrived_ok ?_ (by assumption)) | with_reducible apply done_ok | with_reducible apply setTwin_ok | split

theorem mirrorTrigger_ok (h : Ok kp zz s) {l : Nat} {v : Nat} : Ok kp zz (mirrorTrigger l s v) := by
  unfold mirrorTrigger
  repeat' first
    | with_reducible assumption | with_reducible apply ok_ite | with_reducible apply offerStamp_ok | split

theorem execMirrorDeadlineMiss_ok (h : Ok kp zz s) {ofs : Nat} (kAccepted : kp .accepted = true := by assumption) (kSent : kp
    .sent = true := by assumption) (kTbs : kp .tbs = true := by assumption) (kOut : kp .out = true := by assumption) (kTwin :
    kp .twin = true := by assumption) : OkO kp zz (execMirrorDeadlineMiss ofs s) := by
  unfold execMirrorDeadlineMiss
  repeat' first
    | with_reducible assumption | with_reducible apply okO_ite | with_reducible apply ok_ite | with_reducible apply addSat_ok
    | with_reducible apply atOfs_ok | with_reducible apply count_ok | with_reducible apply done_ok
    | with_reducible apply enterOutOfStep_ok | with_reducible apply judgeMissed_ok | with_reducible apply setTwin_ok | split

theorem missedBoundary_ok (h : Ok kp zz s) (kAccepted : kp .accepted = true := by assumption) (kSent : kp .sent = true := by
    assumption) (kOut : kp .out = true := by assumption) (kTwin : kp .twin = true := by assumption) : Ok kp zz (missedBoundary
    s) := by
  unfold missedBoundary
  repeat' first
    | with_reducible assumption | with_reducible apply enterOutOfStep_ok | split

theorem twinBoundary_ok (h : Ok kp zz s) (kAccepted : kp .accepted = true := by assumption) (kSent : kp .sent = true := by
    assumption) (kOut : kp .out = true := by assumption) (kTwin : kp .twin = true := by assumption) : Ok kp zz (twinBoundary
    s) := by
  unfold twinBoundary
  repeat' first
    | with_reducible assumption | with_reducible apply ok_ite | with_reducible apply missedBoundary_ok
    | with_reducible apply setFlag_ok | with_reducible apply setTwin_ok | with_reducible apply showSelf_ok
    | (fail_if_no_progress refine ok_mk ?_ (by and_intros <;> first | with_reducible exact Or.inl rfl | exact Or.inr (by assumption)))
    | split

theorem loadChannel_ok (h : Ok kp zz s) {c : Nat} {ws : List Word} (kAfe : kp .afe = true := by assumption) (kRed : kp .red =
    true := by assumption) (kWot : kp .wot = true := by assumption) : Ok kp zz (loadChannel c ws s) := by
  unfold loadChannel
  try dsimp only
  repeat' first
    | with_reducible assumption | with_reducible apply ok_ite2 | with_reducible assumption | with_reducible apply ok_ite
    | with_reducible apply hurdle_ok | with_reducible apply setChan_ok | with_reducible apply setRedChan_ok
    | with_reducible apply setWot_ok | split | (with_reducible intro u x hu) | (with_reducible intro u hu) | dsimp only
    | (fail_if_no_progress refine ok_mk ?_ (by and_intros <;> first | with_reducible exact Or.inl rfl | exact Or.inr (by assumption)))

theorem loadSl_ok (h : Ok kp zz s) {k : Nat} {ws : List Word} (kTbs : kp .tbs = true := by assumption) : Ok kp zz (loadSl k ws
    s) := by
  unfold loadSl
  repeat' first
    | with_reducible assumption | with_reducible apply setSl_ok | with_reducible apply wr_ok | with_reducible apply ok_foldl
    | (with_reducible intro u x hu)

theorem loadLoop_ok (h : Ok kp zz s) {ws : List Word} {n : Nat} (kCtl : kp .ctl = true := by assumption) : Ok kp zz (loadLoop
    ws s n) := by
  unfold loadLoop
  repeat' first
    | with_reducible assumption | with_reducible apply setLoopRun_ok

theorem loadCtl_ok (h : Ok kp zz s) {ws : List Word} (kOut : kp .out = true := by assumption) (kCtl : kp .ctl = true := by
    assumption) (kCores : kp .cores = true := by assumption) : Ok kp zz (loadCtl ws s) := by
  unfold loadCtl
  repeat' first
    | with_reducible assumption | with_reducible apply loadLoop_ok | with_reducible apply setCores_ok
    | with_reducible apply setCtl_ok | with_reducible apply setOut_ok | with_reducible apply wr_ok
    | with_reducible apply ok_foldl | (with_reducible intro u x hu)

theorem loadRings_ok (h : Ok kp zz s) {ws : List Word} (kAcq : kp .acq = true := by assumption) (kWot : kp .wot = true := by
    assumption) : Ok kp zz (loadRings ws s) := by
  unfold loadRings
  repeat' first
    | with_reducible assumption | with_reducible apply resendStream_ok | with_reducible apply setFld_ok
    | with_reducible apply setRing_ok | with_reducible apply showSpill_ok | with_reducible apply wr_ok
    | with_reducible apply ok_foldl | (with_reducible intro u x hu)

theorem loadPiece_ok (h : Ok kp zz s) {k : Nat} {ws : List Word} (kTbs : kp .tbs = true := by assumption) (kAfe : kp .afe =
    true := by assumption) (kRed : kp .red = true := by assumption) (kOut : kp .out = true := by assumption) (kAcq : kp .acq =
    true := by assumption) (kCtl : kp .ctl = true := by assumption) (kCores : kp .cores = true := by assumption) (kWot : kp
    .wot = true := by assumption) : Ok kp zz (loadPiece k ws s) := by
  unfold loadPiece
  repeat' first
    | with_reducible assumption | with_reducible apply ok_ite | with_reducible apply loadChannel_ok
    | with_reducible apply loadCtl_ok | with_reducible apply loadRings_ok | with_reducible apply loadSl_ok | split

theorem pieceArrived_ok (h : Ok kp zz s) {k : Nat} (kWot : kp .wot = true := by assumption) : Ok kp zz (pieceArrived k s).2 :=
    by
  unfold pieceArrived
  try dsimp only
  repeat' first
    | with_reducible assumption | with_reducible apply ok_ite2 | with_reducible assumption | with_reducible apply ok_ite
    | with_reducible apply setWot_ok | split | (with_reducible intro u x hu) | (with_reducible intro u hu) | dsimp only
    | (fail_if_no_progress refine ok_mk ?_ (by and_intros <;> first | with_reducible exact Or.inl rfl | exact Or.inr (by assumption)))

theorem execJoinStatePiece_ok (h : Ok kp zz s) {k : Fin 386} {words : List Word} (kTbs : kp .tbs = true := by assumption)
    (kAfe : kp .afe = true := by assumption) (kRed : kp .red = true := by assumption) (kOut : kp .out = true := by assumption)
    (kAcq : kp .acq = true := by assumption) (kCtl : kp .ctl = true := by assumption) (kCores : kp .cores = true := by
    assumption) (kWot : kp .wot = true := by assumption) (kTwin : kp .twin = true := by assumption) : OkO kp zz
    (execJoinStatePiece k words s) := by
  unfold execJoinStatePiece
  try dsimp only
  repeat' first
    | with_reducible assumption | with_reducible apply okO_ite | with_reducible apply okO_next | with_reducible apply okO_fault
    | with_reducible apply okO_refused | with_reducible apply ok_ite2 | with_reducible assumption | with_reducible apply ok_ite
    | with_reducible apply done_ok | (refine (done_ok ?_) _ (by assumption)) | with_reducible apply loadPiece_ok
    | with_reducible apply pieceArrived_ok | with_reducible apply setTwin_ok | with_reducible apply twinSend_ok
    | with_reducible apply ok_foldl_snd | with_reducible apply ok_foldl | split | (with_reducible intro u x hu)
    | (with_reducible intro u hu) | dsimp only
    | (fail_if_no_progress refine ok_mk ?_ (by and_intros <;> first | with_reducible exact Or.inl rfl | exact Or.inr (by assumption)))

theorem execWarmupEnd_ok (h : Ok kp zz s) (kAccepted : kp .accepted = true := by assumption) (kSent : kp .sent = true := by
    assumption) (kOut : kp .out = true := by assumption) (kTwin : kp .twin = true := by assumption) : OkO kp zz (execWarmupEnd
    s) := by
  unfold execWarmupEnd
  repeat' first
    | with_reducible assumption | with_reducible apply done_ok | with_reducible apply endTwnCmd_ok
    | with_reducible apply enterTwin_ok | with_reducible apply setTwin_ok | split

theorem execJoin_ok (h : Ok kp zz s) (kAccepted : kp .accepted = true := by assumption) (kSent : kp .sent = true := by
    assumption) (kOut : kp .out = true := by assumption) (kTwin : kp .twin = true := by assumption) : OkO kp zz (execJoin s)
    := by
  unfold execJoin
  repeat' first
    | with_reducible assumption | with_reducible apply okO_ite | with_reducible apply ok_ite | with_reducible apply accept_ok
    | with_reducible apply done_ok | with_reducible apply enterJoining_ok | with_reducible apply refuse_ok
    | with_reducible apply reject_ok | split

theorem xchkLap_ok (h : Ok kp zz s) {own : DataLap} {mirror : DataLap} (kTwin : kp .twin = true := by assumption) : Ok kp zz
    (xchkLap own mirror s) := by
  unfold xchkLap
  repeat' first
    | with_reducible assumption | with_reducible apply ok_ite2 | with_reducible apply ok_ite | with_reducible apply setTwin_ok
    | split

theorem execXchkBlockEnd_ok (h : Ok kp zz s) (kTwin : kp .twin = true := by assumption) : OkO kp zz (execXchkBlockEnd s) := by
  unfold execXchkBlockEnd
  repeat' first
    | with_reducible assumption | with_reducible apply okO_ite | with_reducible apply ok_ite2 | with_reducible apply ok_ite
    | with_reducible apply done_ok | with_reducible apply raiseIf_ok | with_reducible apply setFld_ok
    | with_reducible apply setTwin_ok | with_reducible apply ok_foldl | (with_reducible intro u x hu) | split

end Sys2Proof.Machine
end

