-- ==== Sys2Proof/Laws/KeepHlt.lean ====
section
/-!
SUPPORT. What the operations of Machine/Hlt.lean keep.
-/
namespace Sys2Proof.Machine
open Sys2Proof

set_option Elab.async false
set_option linter.unreachableTactic false
set_option linter.unusedTactic false
set_option linter.unusedVariables false

variable {kp : Comp → Bool} {zz s : State}

theorem setHlt_ok (h : Ok kp zz s) {x : Hlt} (kHlt : kp .hlt = true := by assumption) : Ok kp zz (setHlt x s) := by
  unfold setHlt
  repeat' first
    | with_reducible assumption
    | (fail_if_no_progress refine ok_mk ?_ (by and_intros <;> first | with_reducible exact Or.inl rfl | exact Or.inr (by assumption)))

theorem condition_ok (h : Ok kp zz s) {f : Fld} {event : Nat} {v : Bool} : Ok kp zz (condition f event v s) := by
  unfold condition
  repeat' first
    | with_reducible assumption | with_reducible apply raiseIf_ok | with_reducible apply setFlag_ok

theorem judgeTemps_ok (h : Ok kp zz s) : Ok kp zz (judgeTemps s) := by
  unfold judgeTemps
  repeat' first
    | with_reducible assumption | with_reducible apply condition_ok

theorem execTempSample_ok (h : Ok kp zz s) {temps : List Int} (kHlt : kp .hlt = true := by assumption) : OkO kp zz
    (execTempSample temps s) := by
  unfold execTempSample
  repeat' first
    | with_reducible assumption | with_reducible apply okO_ite | with_reducible apply ok_ite | with_reducible apply done_ok
    | with_reducible apply judgeTemps_ok | with_reducible apply setHlt_ok | with_reducible apply setInt_ok
    | with_reducible apply ok_foldl | (with_reducible intro u x hu) | split

theorem judgeSupply_ok (h : Ok kp zz s) {m : Nat} : Ok kp zz (judgeSupply s m) := by
  unfold judgeSupply
  repeat' first
    | with_reducible assumption | with_reducible apply setFlag_ok | with_reducible apply wr_ok

theorem judgeSupplies_ok (h : Ok kp zz s) : Ok kp zz (judgeSupplies s) := by
  unfold judgeSupplies
  repeat' first
    | with_reducible assumption | with_reducible apply condition_ok | with_reducible apply judgeSupply_ok
    | with_reducible apply ok_foldl | (with_reducible intro u x hu)

theorem rejudge_ok (h : Ok kp zz s) : Ok kp zz (rejudge s) := by
  unfold rejudge
  try dsimp only
  repeat' first
    | with_reducible assumption | with_reducible apply ok_ite | with_reducible apply judgeSupplies_ok
    | with_reducible apply judgeTemps_ok | split | (with_reducible intro u x hu) | (with_reducible intro u hu) | dsimp only
    | (fail_if_no_progress refine ok_mk ?_ (by and_intros <;> first | with_reducible exact Or.inl rfl | exact Or.inr (by assumption)))

theorem execSupplySample_ok (h : Ok kp zz s) {mv : List Int} (kHlt : kp .hlt = true := by assumption) : OkO kp zz
    (execSupplySample mv s) := by
  unfold execSupplySample
  repeat' first
    | with_reducible assumption | with_reducible apply okO_ite | with_reducible apply ok_ite | with_reducible apply done_ok
    | with_reducible apply judgeSupplies_ok | with_reducible apply setHlt_ok | with_reducible apply setInt_ok
    | with_reducible apply ok_foldl | (with_reducible intro u x hu) | split

theorem lockstepDiff_ok (h : Ok kp zz s) {u : Nat} : Ok kp zz (lockstepDiff u s) := by
  unfold lockstepDiff
  repeat' first
    | with_reducible assumption | with_reducible apply addSat_ok | with_reducible apply raise_ok
    | with_reducible apply setFlag_ok | with_reducible apply setFld_ok

theorem execHltLockstep_ok (h : Ok kp zz s) {unit : Fin 4} : OkO kp zz (execHltLockstep unit s) := by
  unfold execHltLockstep
  repeat' first
    | with_reducible assumption | with_reducible apply done_ok | with_reducible apply lockstepDiff_ok

theorem showLockstep_ok (h : Ok kp zz s) : Ok kp zz (showLockstep s) := by
  unfold showLockstep
  repeat' first
    | with_reducible assumption | with_reducible apply setFlag_ok

theorem judgeD2d_ok (h : Ok kp zz s) (kHlt : kp .hlt = true := by assumption) : Ok kp zz (judgeD2d s) := by
  unfold judgeD2d
  repeat' first
    | with_reducible assumption | with_reducible apply ok_ite2 | with_reducible apply ok_ite | with_reducible apply condition_ok
    | with_reducible apply setHlt_ok | split

theorem d2dErrors_ok (h : Ok kp zz s) {ce : Nat} {ue : Nat} {align : Nat} (kHlt : kp .hlt = true := by assumption) : Ok kp zz
    (d2dErrors ce ue align s) := by
  unfold d2dErrors
  repeat' first
    | with_reducible assumption | with_reducible apply ok_ite | with_reducible apply addSat_ok | with_reducible apply count_ok
    | with_reducible apply judgeD2d_ok | with_reducible apply setFlag_ok | with_reducible apply setFld_ok
    | with_reducible apply setHlt_ok | split

theorem execCounterClear_ok (h : Ok kp zz s) (kAccepted : kp .accepted = true := by assumption) : OkO kp zz (execCounterClear
    s) := by
  unfold execCounterClear
  repeat' first
    | with_reducible assumption | with_reducible apply okO_ite | with_reducible apply ok_ite | with_reducible apply accept_ok
    | with_reducible apply done_ok | with_reducible apply reject_ok | split

theorem execFaultInject_ok (h : Ok kp zz s) (kAccepted : kp .accepted = true := by assumption) : OkO kp zz (execFaultInject s)
    := by
  unfold execFaultInject
  repeat' first
    | with_reducible assumption | with_reducible apply okO_ite | with_reducible apply ok_ite | with_reducible apply accept_ok
    | with_reducible apply done_ok | with_reducible apply refuse_ok | with_reducible apply reject_ok | split

theorem clearCounters_ok (h : Ok kp zz s) : Ok kp zz (clearCounters s) := by
  unfold clearCounters
  repeat' first
    | with_reducible assumption | with_reducible apply ok_ite | with_reducible apply setCount_ok | with_reducible apply ok_foldl
    | (with_reducible intro u x hu) | split

theorem injectFault_ok (h : Ok kp zz s) (kDmc : kp .dmc = true := by assumption) (kHlt : kp .hlt = true := by assumption) : Ok
    kp zz (injectFault s) := by
  unfold injectFault
  repeat' first
    | with_reducible assumption | with_reducible apply ok_ite | with_reducible apply judgeSupplies_ok
    | with_reducible apply judgeTemps_ok | with_reducible apply lockstepDiff_ok | with_reducible apply setDmc_ok
    | with_reducible apply setHlt_ok | with_reducible apply setInt_ok | split

theorem hltBoundary_ok (h : Ok kp zz s) (kAccepted : kp .accepted = true := by assumption) (kDmc : kp .dmc = true := by
    assumption) (kHlt : kp .hlt = true := by assumption) : Ok kp zz (hltBoundary s) := by
  unfold hltBoundary
  try dsimp only
  repeat' first
    | with_reducible assumption | with_reducible apply ok_ite | with_reducible apply clearCounters_ok
    | with_reducible apply complete_ok | with_reducible apply injectFault_ok | with_reducible apply judgeD2d_ok | split
    | (with_reducible intro u x hu) | (with_reducible intro u hu) | dsimp only
    | (fail_if_no_progress refine ok_mk ?_ (by and_intros <;> first | with_reducible exact Or.inl rfl | exact Or.inr (by assumption)))

end Sys2Proof.Machine
end

