-- ==== Sys2Proof/Laws/KeepPwr.lean ====
section
/-!
SUPPORT. What the operations of Machine/Pwr.lean keep.
-/
namespace Sys2Proof.Machine
open Sys2Proof

set_option Elab.async false
set_option linter.unreachableTactic false
set_option linter.unusedTactic false
set_option linter.unusedVariables false

variable {kp : Comp → Bool} {zz s : State}

theorem setPower_ok (h : Ok kp zz s) {x : Pwr} (kPwr : kp .pwr = true := by assumption) : Ok kp zz (setPower x s) := by
  unfold setPower
  repeat' first
    | with_reducible assumption
    | (fail_if_no_progress refine ok_mk ?_ (by and_intros <;> first | with_reducible exact Or.inl rfl | exact Or.inr (by assumption)))

theorem enterPower_ok (h : Ok kp zz s) {st : Nat} : Ok kp zz (enterPower st s) := by
  unfold enterPower
  repeat' first
    | with_reducible assumption | with_reducible apply ok_ite | with_reducible apply raise_ok | with_reducible apply setFld_ok
    | split

theorem execPwrRun_ok (h : Ok kp zz s) (kAccepted : kp .accepted = true := by assumption) (kPwr : kp .pwr = true := by
    assumption) : OkO kp zz (execPwrRun s) := by
  unfold execPwrRun
  repeat' first
    | with_reducible assumption | with_reducible apply okO_ite | with_reducible apply ok_ite | with_reducible apply accept_ok
    | with_reducible apply done_ok | with_reducible apply refuse_ok | with_reducible apply reject_ok
    | with_reducible apply setPower_ok | split

theorem analogUp_ok (h : Ok kp zz s) (kAfe : kp .afe = true := by assumption) (kCnv : kp .cnv = true := by assumption) (kRed :
    kp .red = true := by assumption) : Ok kp zz (analogUp s) := by
  unfold analogUp
  try dsimp only
  repeat' first
    | with_reducible assumption | with_reducible apply ok_ite | with_reducible apply cmxBoundary_ok
    | with_reducible apply cnvUp_ok | with_reducible apply driverUp_ok | with_reducible apply filterReset_ok
    | with_reducible apply rejudge_ok | with_reducible apply setFlag_ok | with_reducible apply setFld_ok
    | with_reducible apply ok_foldl_snd | with_reducible apply ok_foldl | split | (with_reducible intro u x hu)
    | (with_reducible intro u hu) | dsimp only
    | (fail_if_no_progress refine ok_mk ?_ (by and_intros <;> first | with_reducible exact Or.inl rfl | exact Or.inr (by assumption)))

theorem execAnaUp_ok (h : Ok kp zz s) (kAccepted : kp .accepted = true := by assumption) (kAfe : kp .afe = true := by
    assumption) (kCnv : kp .cnv = true := by assumption) (kRed : kp .red = true := by assumption) : OkO kp zz (execAnaUp s) :=
    by
  unfold execAnaUp
  repeat' first
    | with_reducible assumption | with_reducible apply okO_ite | with_reducible apply ok_ite | with_reducible apply analogUp_ok
    | with_reducible apply complete_ok | with_reducible apply done_ok | with_reducible apply enterPower_ok | split

theorem execRunTimeout_ok (h : Ok kp zz s) {ofs : Nat} (kAccepted : kp .accepted = true := by assumption) (kTbs : kp .tbs =
    true := by assumption) : OkO kp zz (execRunTimeout ofs s) := by
  unfold execRunTimeout
  repeat' first
    | with_reducible assumption | with_reducible apply okO_ite | with_reducible apply ok_ite | with_reducible apply atOfs_ok
    | with_reducible apply complete_ok | with_reducible apply done_ok | split

theorem execPwrIdle_ok (h : Ok kp zz s) (kAccepted : kp .accepted = true := by assumption) : OkO kp zz (execPwrIdle s) := by
  unfold execPwrIdle
  repeat' first
    | with_reducible assumption | with_reducible apply okO_ite | with_reducible apply ok_ite | with_reducible apply accept_ok
    | with_reducible apply done_ok | with_reducible apply refuse_ok | with_reducible apply reject_ok | split

theorem analogDown_ok (h : Ok kp zz s) (kAccepted : kp .accepted = true := by assumption) (kAfe : kp .afe = true := by
    assumption) (kCnv : kp .cnv = true := by assumption) : Ok kp zz (analogDown s) := by
  unfold analogDown
  repeat' first
    | with_reducible assumption | with_reducible apply ok_ite | with_reducible apply cnvDown_ok
    | with_reducible apply driverDown_ok | with_reducible apply rejudge_ok | with_reducible apply setFlag_ok
    | with_reducible apply setMaskAll_ok | with_reducible apply ok_foldl_snd | with_reducible apply ok_foldl | split
    | (with_reducible intro u x hu) | (with_reducible intro u hu) | dsimp only
    | (fail_if_no_progress refine ok_mk ?_ (by and_intros <;> first | with_reducible exact Or.inl rfl | exact Or.inr (by assumption)))

theorem powerBoundary_ok (h : Ok kp zz s) (kAccepted : kp .accepted = true := by assumption) (kAfe : kp .afe = true := by
    assumption) (kCnv : kp .cnv = true := by assumption) : Ok kp zz (powerBoundary s) := by
  unfold powerBoundary
  repeat' first
    | with_reducible assumption | with_reducible apply analogDown_ok | with_reducible apply complete_ok
    | with_reducible apply enterPower_ok | split

theorem execPwrRest_ok (h : Ok kp zz s) (kAccepted : kp .accepted = true := by assumption) (kTbs : kp .tbs = true := by
    assumption) (kPwr : kp .pwr = true := by assumption) : OkO kp zz (execPwrRest s) := by
  unfold execPwrRest
  try dsimp only
  repeat' first
    | with_reducible assumption | with_reducible apply okO_ite | with_reducible apply okO_next | with_reducible apply okO_fault
    | with_reducible apply okO_refused | with_reducible apply ok_ite | with_reducible apply accept_ok
    | with_reducible apply done_ok | with_reducible apply enterPacer_ok | with_reducible apply raise_ok
    | with_reducible apply refuse_ok | with_reducible apply reject_ok | with_reducible apply setFld_ok
    | with_reducible apply setPower_ok | split | (with_reducible intro u x hu) | (with_reducible intro u hu) | dsimp only
    | (fail_if_no_progress refine ok_mk ?_ (by and_intros <;> first | with_reducible exact Or.inl rfl | exact Or.inr (by assumption)))

theorem execPwrShelve_ok (h : Ok kp zz s) (kAccepted : kp .accepted = true := by assumption) (kPwr : kp .pwr = true := by
    assumption) : OkO kp zz (execPwrShelve s) := by
  unfold execPwrShelve
  repeat' first
    | with_reducible assumption | with_reducible apply okO_ite | with_reducible apply ok_ite | with_reducible apply accept_ok
    | with_reducible apply done_ok | with_reducible apply refuse_ok | with_reducible apply reject_ok
    | with_reducible apply setFld_ok | with_reducible apply setPower_ok | split

theorem clocksRestart_ok (h : Ok kp zz s) (kPwr : kp .pwr = true := by assumption) : Ok kp zz (clocksRestart s) := by
  unfold clocksRestart
  repeat' first
    | with_reducible assumption | with_reducible apply ok_ite | with_reducible apply setPower_ok | split
    | (with_reducible intro u x hu) | (with_reducible intro u hu) | dsimp only
    | (fail_if_no_progress refine ok_mk ?_ (by and_intros <;> first | with_reducible exact Or.inl rfl | exact Or.inr (by assumption)))

theorem execWakeFromRest_ok (h : Ok kp zz s) {wakeN : Bool} {btn : Bool} {spi : Bool} {lanes : BitVec 4} (kFresh : kp .fresh =
    true := by assumption) (kAccepted : kp .accepted = true := by assumption) (kSent : kp .sent = true := by assumption) (kTbs
    : kp .tbs = true := by assumption) (kRed : kp .red = true := by assumption) (kAcq : kp .acq = true := by assumption)
    (kLanes : kp .lanes = true := by assumption) (kWot : kp .wot = true := by assumption) (kEth : kp .eth = true := by
    assumption) (kPwr : kp .pwr = true := by assumption) : OkO kp zz (execWakeFromRest wakeN btn spi lanes s) := by
  unfold execWakeFromRest
  try dsimp only
  repeat' first
    | with_reducible assumption | with_reducible apply okO_ite | with_reducible apply okO_next | with_reducible apply okO_fault
    | with_reducible apply okO_refused | with_reducible apply ok_ite | with_reducible apply clocksRestart_ok
    | with_reducible apply complete_ok | with_reducible apply done_ok | with_reducible apply enterListen_ok
    | with_reducible apply enterPower_ok | with_reducible apply filterReset_ok | with_reducible apply moveLane_ok
    | with_reducible apply raise_ok | with_reducible apply slJudgeAll_ok | with_reducible apply wr_ok
    | with_reducible apply ok_foldl_snd | with_reducible apply ok_foldl | split | (with_reducible intro u x hu)
    | (with_reducible intro u hu) | dsimp only
    | (fail_if_no_progress refine ok_mk ?_ (by and_intros <;> first | with_reducible exact Or.inl rfl | exact Or.inr (by assumption)))

theorem execWakeFromShelved_ok (h : Ok kp zz s) {wakeN : Bool} {btn : Bool} (kPwr : kp .pwr = true := by assumption) : OkO kp
    zz (execWakeFromShelved wakeN btn s) := by
  unfold execWakeFromShelved
  repeat' first
    | with_reducible assumption | with_reducible apply okO_ite | with_reducible apply ok_ite | with_reducible apply done_ok
    | with_reducible apply setPower_ok | with_reducible apply wr_ok | split

theorem aonWrite_ok (h : Ok kp zz s) {v : Word} (kPwr : kp .pwr = true := by assumption) : Ok kp zz (aonWrite v s) := by
  unfold aonWrite
  repeat' first
    | with_reducible assumption | with_reducible apply setPower_ok | with_reducible apply wr_ok

theorem aonLap_ok (h : Ok kp zz s) (kPwr : kp .pwr = true := by assumption) : Ok kp zz (aonLap s) := by
  unfold aonLap
  repeat' first
    | with_reducible assumption | with_reducible apply ok_ite | with_reducible apply setPower_ok | with_reducible apply wr_ok
    | split

theorem execAonTimerExpire_ok (h : Ok kp zz s) {ofs : Nat} (kTbs : kp .tbs = true := by assumption) (kPwr : kp .pwr = true :=
    by assumption) : OkO kp zz (execAonTimerExpire ofs s) := by
  unfold execAonTimerExpire
  repeat' first
    | with_reducible assumption | with_reducible apply okO_ite | with_reducible apply ok_ite | with_reducible apply atOfs_ok
    | with_reducible apply done_ok | with_reducible apply setPower_ok | with_reducible apply wr_ok | split

theorem loseLocal_ok (h : Ok kp zz s) (kFresh : kp .fresh = true := by assumption) (kMem : kp .mem = true := by assumption) :
    Ok kp zz (loseLocal s) := by
  unfold loseLocal
  repeat' first
    | with_reducible assumption | with_reducible apply ok_ite | with_reducible apply loseRange_ok | split
    | (with_reducible intro u x hu) | (with_reducible intro u hu) | dsimp only
    | (fail_if_no_progress refine ok_mk ?_ (by and_intros <;> first | with_reducible exact Or.inl rfl | exact Or.inr (by assumption)))

theorem showWear_ok (h : Ok kp zz s) : Ok kp zz (showWear s) := by
  unfold showWear
  repeat' first
    | with_reducible assumption | with_reducible apply wr_ok | with_reducible apply ok_foldl | (with_reducible intro u x hu)

theorem resumeHours_ok (h : Ok kp zz s) (kPwr : kp .pwr = true := by assumption) : Ok kp zz (resumeHours s) := by
  unfold resumeHours
  try dsimp only
  repeat' first
    | with_reducible assumption | with_reducible apply ok_ite2 | with_reducible assumption | with_reducible apply ok_ite
    | with_reducible apply setFld_ok | with_reducible apply setPower_ok | split | (with_reducible intro u x hu)
    | (with_reducible intro u hu) | dsimp only
    | (fail_if_no_progress refine ok_mk ?_ (by and_intros <;> first | with_reducible exact Or.inl rfl | exact Or.inr (by assumption)))

theorem startBoot_ok (h : Ok kp zz s) (kPwr : kp .pwr = true := by assumption) : Ok kp zz (startBoot s) := by
  unfold startBoot
  try dsimp only
  repeat' first
    | with_reducible assumption | with_reducible apply ok_ite | with_reducible apply setFlag_ok
    | with_reducible apply setPower_ok | split | (with_reducible intro u x hu) | (with_reducible intro u hu) | dsimp only
    | (fail_if_no_progress refine ok_mk ?_ (by and_intros <;> first | with_reducible exact Or.inl rfl | exact Or.inr (by assumption)))

theorem digitalReset_ok (h : Ok kp zz s) {regs : Tab Word} (hr : StoresWf zz → Memory.regsWf regs = true) (kBnd : kp .bnd = true := by assumption) (kFresh : kp .fresh = true := by assumption) (kAccepted : kp .accepted = true := by assumption) (kNextRegs : kp .nextRegs = true := by assumption) (kMem : kp .mem = true := by assumption) (kSent : kp .sent = true := by assumption) (kTbs : kp .tbs = true := by assumption) (kAfe : kp .afe = true := by assumption) (kCnv : kp .cnv = true := by assumption) (kLapInfo : kp .lapInfo = true := by assumption) (kRed : kp .red = true := by assumption) (kOut : kp .out = true := by assumption) (kAcq : kp .acq = true := by assumption) (kCtl : kp .ctl = true := by assumption) (kCores : kp .cores = true := by assumption) (kLanes : kp .lanes = true := by assumption) (kWot : kp .wot = true := by assumption) (kEth : kp .eth = true := by assumption) (kDmc : kp .dmc = true := by assumption) (kTwin : kp .twin = true := by assumption) (kHlt : kp .hlt = true := by assumption) (kPwr : kp .pwr = true := by assumption) (kSvc : kp .svc = true := by assumption) (kJtag : kp .jtag = true := by assumption) : Ok kp zz (digitalReset regs s) := by
  unfold digitalReset
  have h0 : Ok kp zz (if s.dmc.asleep then regrain (grainBits (fld s DMC_MAP.GRAIN)) (grainBits 2) s else loseDram 0 0x80000000 s) := by
    with_reducible apply ok_ite
    · exact regrain_ok h
    · exact loseDram_ok h
  dsimp only
  refine startBoot_ok (resumeHours_ok (showWear_ok ?_))
  exact ⟨⟨h.1.1, fun hz => ⟨(h0.1.2 hz).1, (h.1.2 hz).2.1, hr hz⟩⟩, fun c hk => by cases c <;> simp_all⟩

theorem hubReset_ok (h : Ok kp zz s) (kBnd : kp .bnd = true := by assumption) (kFresh : kp .fresh = true := by assumption) (kAccepted : kp .accepted = true := by assumption) (kNextRegs : kp .nextRegs = true := by assumption) (kMem : kp .mem = true := by assumption) (kSent : kp .sent = true := by assumption) (kTbs : kp .tbs = true := by assumption) (kAfe : kp .afe = true := by assumption) (kCnv : kp .cnv = true := by assumption) (kLapInfo : kp .lapInfo = true := by assumption) (kRed : kp .red = true := by assumption) (kOut : kp .out = true := by assumption) (kAcq : kp .acq = true := by assumption) (kCtl : kp .ctl = true := by assumption) (kCores : kp .cores = true := by assumption) (kLanes : kp .lanes = true := by assumption) (kWot : kp .wot = true := by assumption) (kEth : kp .eth = true := by assumption) (kDmc : kp .dmc = true := by assumption) (kTwin : kp .twin = true := by assumption) (kHlt : kp .hlt = true := by assumption) (kPwr : kp .pwr = true := by assumption) (kSvc : kp .svc = true := by assumption) (kJtag : kp .jtag = true := by assumption) : Ok kp zz (hubReset s) := by
  unfold hubReset
  exact digitalReset_ok h (fun hz => tcanon_filter _ (h.1.2 hz).2.2)

theorem hubResetBy_ok (h : Ok kp zz s) {b : Nat} (kBnd : kp .bnd = true := by assumption) (kFresh : kp .fresh = true := by
    assumption) (kAccepted : kp .accepted = true := by assumption) (kNextRegs : kp .nextRegs = true := by assumption) (kMem :
    kp .mem = true := by assumption) (kSent : kp .sent = true := by assumption) (kTbs : kp .tbs = true := by assumption) (kAfe
    : kp .afe = true := by assumption) (kCnv : kp .cnv = true := by assumption) (kLapInfo : kp .lapInfo = true := by
    assumption) (kRed : kp .red = true := by assumption) (kOut : kp .out = true := by assumption) (kAcq : kp .acq = true := by
    assumption) (kCtl : kp .ctl = true := by assumption) (kCores : kp .cores = true := by assumption) (kLanes : kp .lanes =
    true := by assumption) (kWot : kp .wot = true := by assumption) (kEth : kp .eth = true := by assumption) (kDmc : kp .dmc =
    true := by assumption) (kTwin : kp .twin = true := by assumption) (kHlt : kp .hlt = true := by assumption) (kPwr : kp .pwr
    = true := by assumption) (kSvc : kp .svc = true := by assumption) (kJtag : kp .jtag = true := by assumption) : Ok kp zz
    (hubResetBy b s) := by
  unfold hubResetBy
  repeat' first
    | with_reducible assumption | with_reducible apply hubReset_ok | with_reducible apply noteCause_ok

theorem execPowerOnReset_ok (h : Ok kp zz s) (kBnd : kp .bnd = true := by assumption) (kFresh : kp .fresh = true := by assumption) (kAccepted : kp .accepted = true := by assumption) (kNextRegs : kp .nextRegs = true := by assumption) (kMem : kp .mem = true := by assumption) (kSent : kp .sent = true := by assumption) (kTbs : kp .tbs = true := by assumption) (kAfe : kp .afe = true := by assumption) (kCnv : kp .cnv = true := by assumption) (kLapInfo : kp .lapInfo = true := by assumption) (kRed : kp .red = true := by assumption) (kOut : kp .out = true := by assumption) (kAcq : kp .acq = true := by assumption) (kCtl : kp .ctl = true := by assumption) (kCores : kp .cores = true := by assumption) (kLanes : kp .lanes = true := by assumption) (kWot : kp .wot = true := by assumption) (kEth : kp .eth = true := by assumption) (kDmc : kp .dmc = true := by assumption) (kTwin : kp .twin = true := by assumption) (kHlt : kp .hlt = true := by assumption) (kPwr : kp .pwr = true := by assumption) (kSvc : kp .svc = true := by assumption) (kJtag : kp .jtag = true := by assumption) : OkO kp zz (execPowerOnReset s) := by
  unfold execPowerOnReset
  dsimp only
  apply done_ok
  refine ok_mk ?_ (by and_intros <;> first | with_reducible exact Or.inl rfl | exact Or.inr (by assumption))
  exact digitalReset_ok (loseLocal_ok (setDmc_ok h)) (fun _ => rfl)

theorem execPowerOnResetEnd_ok (h : Ok kp zz s) (kPwr : kp .pwr = true := by assumption) : OkO kp zz (execPowerOnResetEnd s)
    := by
  unfold execPowerOnResetEnd
  repeat' first
    | with_reducible assumption | with_reducible apply okO_ite | with_reducible apply ok_ite | with_reducible apply done_ok
    | with_reducible apply setPower_ok | split

theorem execPorstN_ok (h : Ok kp zz s) (kBnd : kp .bnd = true := by assumption) (kFresh : kp .fresh = true := by assumption) (kAccepted : kp .accepted = true := by assumption) (kNextRegs : kp .nextRegs = true := by assumption) (kMem : kp .mem = true := by assumption) (kSent : kp .sent = true := by assumption) (kTbs : kp .tbs = true := by assumption) (kAfe : kp .afe = true := by assumption) (kCnv : kp .cnv = true := by assumption) (kLapInfo : kp .lapInfo = true := by assumption) (kRed : kp .red = true := by assumption) (kOut : kp .out = true := by assumption) (kAcq : kp .acq = true := by assumption) (kCtl : kp .ctl = true := by assumption) (kCores : kp .cores = true := by assumption) (kLanes : kp .lanes = true := by assumption) (kWot : kp .wot = true := by assumption) (kEth : kp .eth = true := by assumption) (kDmc : kp .dmc = true := by assumption) (kTwin : kp .twin = true := by assumption) (kHlt : kp .hlt = true := by assumption) (kPwr : kp .pwr = true := by assumption) (kSvc : kp .svc = true := by assumption) (kJtag : kp .jtag = true := by assumption) : OkO kp zz (execPorstN s) := by
  have h1 : Ok kp zz (hubResetBy 1 (loseLocal s)) := hubResetBy_ok (loseLocal_ok h)
  have h2 : Ok kp zz (hubResetBy 1 s) := hubResetBy_ok h
  unfold execPorstN
  generalize hubResetBy 1 (loseLocal s) = t at h1 ⊢
  generalize hubResetBy 1 s = u at h2 ⊢
  with_reducible apply okO_ite
  · exact done_ok (ok_mk h1 (by and_intros <;> first | with_reducible exact Or.inl rfl | exact Or.inr (by assumption)))
  · exact done_ok h2

theorem resetCommand_ok (h : Ok kp zz s) {op : Nat} (kBnd : kp .bnd = true := by assumption) (kFresh : kp .fresh = true := by
    assumption) (kAccepted : kp .accepted = true := by assumption) (kNextRegs : kp .nextRegs = true := by assumption) (kMem :
    kp .mem = true := by assumption) (kSent : kp .sent = true := by assumption) (kTbs : kp .tbs = true := by assumption) (kAfe
    : kp .afe = true := by assumption) (kCnv : kp .cnv = true := by assumption) (kLapInfo : kp .lapInfo = true := by
    assumption) (kRed : kp .red = true := by assumption) (kOut : kp .out = true := by assumption) (kAcq : kp .acq = true := by
    assumption) (kCtl : kp .ctl = true := by assumption) (kCores : kp .cores = true := by assumption) (kLanes : kp .lanes =
    true := by assumption) (kWot : kp .wot = true := by assumption) (kEth : kp .eth = true := by assumption) (kDmc : kp .dmc =
    true := by assumption) (kTwin : kp .twin = true := by assumption) (kHlt : kp .hlt = true := by assumption) (kPwr : kp .pwr
    = true := by assumption) (kSvc : kp .svc = true := by assumption) (kJtag : kp .jtag = true := by assumption) : Ok kp zz
    (resetCommand op s) := by
  unfold resetCommand
  repeat' first
    | with_reducible assumption | with_reducible apply ok_ite | with_reducible apply hubResetBy_ok
    | with_reducible apply stewardReset_ok | split

theorem execHubResetCmd_ok (h : Ok kp zz s) {key : BitVec 8} (kBnd : kp .bnd = true := by assumption) (kFresh : kp .fresh =
    true := by assumption) (kAccepted : kp .accepted = true := by assumption) (kNextRegs : kp .nextRegs = true := by
    assumption) (kMem : kp .mem = true := by assumption) (kSent : kp .sent = true := by assumption) (kTbs : kp .tbs = true :=
    by assumption) (kAfe : kp .afe = true := by assumption) (kCnv : kp .cnv = true := by assumption) (kLapInfo : kp .lapInfo =
    true := by assumption) (kRed : kp .red = true := by assumption) (kOut : kp .out = true := by assumption) (kAcq : kp .acq =
    true := by assumption) (kCtl : kp .ctl = true := by assumption) (kCores : kp .cores = true := by assumption) (kLanes : kp
    .lanes = true := by assumption) (kWot : kp .wot = true := by assumption) (kEth : kp .eth = true := by assumption) (kDmc :
    kp .dmc = true := by assumption) (kTwin : kp .twin = true := by assumption) (kHlt : kp .hlt = true := by assumption) (kPwr
    : kp .pwr = true := by assumption) (kSvc : kp .svc = true := by assumption) (kJtag : kp .jtag = true := by assumption) :
    OkO kp zz (execHubResetCmd key s) := by
  unfold execHubResetCmd
  repeat' first
    | with_reducible assumption | with_reducible apply okO_ite | with_reducible apply ok_ite | with_reducible apply done_ok
    | with_reducible apply resetCommand_ok | split

theorem execStewardResetCmd_ok (h : Ok kp zz s) {key : BitVec 8} (kBnd : kp .bnd = true := by assumption) (kFresh : kp .fresh
    = true := by assumption) (kAccepted : kp .accepted = true := by assumption) (kNextRegs : kp .nextRegs = true := by
    assumption) (kMem : kp .mem = true := by assumption) (kSent : kp .sent = true := by assumption) (kTbs : kp .tbs = true :=
    by assumption) (kAfe : kp .afe = true := by assumption) (kCnv : kp .cnv = true := by assumption) (kLapInfo : kp .lapInfo =
    true := by assumption) (kRed : kp .red = true := by assumption) (kOut : kp .out = true := by assumption) (kAcq : kp .acq =
    true := by assumption) (kCtl : kp .ctl = true := by assumption) (kCores : kp .cores = true := by assumption) (kLanes : kp
    .lanes = true := by assumption) (kWot : kp .wot = true := by assumption) (kEth : kp .eth = true := by assumption) (kDmc :
    kp .dmc = true := by assumption) (kTwin : kp .twin = true := by assumption) (kHlt : kp .hlt = true := by assumption) (kPwr
    : kp .pwr = true := by assumption) (kSvc : kp .svc = true := by assumption) (kJtag : kp .jtag = true := by assumption) :
    OkO kp zz (execStewardResetCmd key s) := by
  unfold execStewardResetCmd
  repeat' first
    | with_reducible assumption | with_reducible apply okO_ite | with_reducible apply ok_ite | with_reducible apply done_ok
    | with_reducible apply resetCommand_ok | split

theorem execRailsGood_ok (h : Ok kp zz s) (kBnd : kp .bnd = true := by assumption) (kFresh : kp .fresh = true := by
    assumption) (kAccepted : kp .accepted = true := by assumption) (kNextRegs : kp .nextRegs = true := by assumption) (kMem :
    kp .mem = true := by assumption) (kSent : kp .sent = true := by assumption) (kTbs : kp .tbs = true := by assumption) (kAfe
    : kp .afe = true := by assumption) (kCnv : kp .cnv = true := by assumption) (kLapInfo : kp .lapInfo = true := by
    assumption) (kRed : kp .red = true := by assumption) (kOut : kp .out = true := by assumption) (kAcq : kp .acq = true := by
    assumption) (kCtl : kp .ctl = true := by assumption) (kCores : kp .cores = true := by assumption) (kLanes : kp .lanes =
    true := by assumption) (kWot : kp .wot = true := by assumption) (kEth : kp .eth = true := by assumption) (kDmc : kp .dmc =
    true := by assumption) (kTwin : kp .twin = true := by assumption) (kHlt : kp .hlt = true := by assumption) (kPwr : kp .pwr
    = true := by assumption) (kSvc : kp .svc = true := by assumption) (kJtag : kp .jtag = true := by assumption) : OkO kp zz
    (execRailsGood s) := by
  unfold execRailsGood
  try dsimp only
  repeat' first
    | with_reducible assumption | with_reducible apply okO_ite | with_reducible apply okO_next | with_reducible apply okO_fault
    | with_reducible apply okO_refused | with_reducible apply ok_ite | with_reducible apply done_ok
    | with_reducible apply hubResetBy_ok | with_reducible apply loseLocal_ok | with_reducible apply setPower_ok
    | with_reducible apply startBoot_ok | split | (with_reducible intro u x hu) | (with_reducible intro u hu) | dsimp only
    | (fail_if_no_progress refine ok_mk ?_ (by and_intros <;> first | with_reducible exact Or.inl rfl | exact Or.inr (by assumption)))

theorem execWatchdogKick_ok (h : Ok kp zz s) (kPwr : kp .pwr = true := by assumption) : OkO kp zz (execWatchdogKick s) := by
  unfold execWatchdogKick
  repeat' first
    | with_reducible assumption | with_reducible apply done_ok | with_reducible apply setPower_ok

theorem execWatchdogExpire_ok (h : Ok kp zz s) {ofs : Nat} (kBnd : kp .bnd = true := by assumption) (kFresh : kp .fresh = true
    := by assumption) (kAccepted : kp .accepted = true := by assumption) (kNextRegs : kp .nextRegs = true := by assumption)
    (kMem : kp .mem = true := by assumption) (kSent : kp .sent = true := by assumption) (kTbs : kp .tbs = true := by
    assumption) (kAfe : kp .afe = true := by assumption) (kCnv : kp .cnv = true := by assumption) (kLapInfo : kp .lapInfo =
    true := by assumption) (kRed : kp .red = true := by assumption) (kOut : kp .out = true := by assumption) (kAcq : kp .acq =
    true := by assumption) (kCtl : kp .ctl = true := by assumption) (kCores : kp .cores = true := by assumption) (kLanes : kp
    .lanes = true := by assumption) (kWot : kp .wot = true := by assumption) (kEth : kp .eth = true := by assumption) (kDmc :
    kp .dmc = true := by assumption) (kTwin : kp .twin = true := by assumption) (kHlt : kp .hlt = true := by assumption) (kPwr
    : kp .pwr = true := by assumption) (kSvc : kp .svc = true := by assumption) (kJtag : kp .jtag = true := by assumption) :
    OkO kp zz (execWatchdogExpire ofs s) := by
  unfold execWatchdogExpire
  repeat' first
    | with_reducible assumption | with_reducible apply okO_ite | with_reducible apply ok_ite | with_reducible apply atOfs_ok
    | with_reducible apply done_ok | with_reducible apply hubResetBy_ok | with_reducible apply setPower_ok
    | with_reducible apply stewardReset_ok | split

theorem ledgerCmd_ok (h : Ok kp zz s) {write : Bool} {bad : Option Nat} (kAccepted : kp .accepted = true := by assumption)
    (kPwr : kp .pwr = true := by assumption) : Ok kp zz (ledgerCmd write bad s) := by
  unfold ledgerCmd
  repeat' first
    | with_reducible assumption | with_reducible apply ok_ite | with_reducible apply accept_ok | with_reducible apply refuse_ok
    | with_reducible apply reject_ok | with_reducible apply setPower_ok | with_reducible apply wakeDram_ok | split

theorem execLdgRead_ok (h : Ok kp zz s) (kAccepted : kp .accepted = true := by assumption) (kPwr : kp .pwr = true := by
    assumption) : OkO kp zz (execLdgRead s) := by
  unfold execLdgRead
  repeat' first
    | with_reducible assumption | with_reducible apply done_ok | with_reducible apply ledgerCmd_ok

theorem execLdgWrite_ok (h : Ok kp zz s) {bad : Option Nat} (kAccepted : kp .accepted = true := by assumption) (kPwr : kp .pwr
    = true := by assumption) : OkO kp zz (execLdgWrite bad s) := by
  unfold execLdgWrite
  repeat' first
    | with_reducible assumption | with_reducible apply done_ok | with_reducible apply ledgerCmd_ok

theorem moveWord_ok (h : Ok kp zz s) {m : LedgerMove} (kFresh : kp .fresh = true := by assumption) (kAccepted : kp .accepted =
    true := by assumption) (kMem : kp .mem = true := by assumption) (kCores : kp .cores = true := by assumption) (kDmc : kp
    .dmc = true := by assumption) (kPwr : kp .pwr = true := by assumption) : Ok kp zz (moveWord m s) := by
  unfold moveWord
  try dsimp only
  repeat' first
    | with_reducible assumption | with_reducible apply ok_ite2 | with_reducible assumption | with_reducible apply ok_ite
    | with_reducible apply complete_ok | with_reducible apply dmaRead_ok | with_reducible apply dmaWrite_ok
    | with_reducible apply freshen_ok | with_reducible apply lwriteWord_ok | with_reducible apply raise_ok
    | with_reducible apply setFlag_ok | with_reducible apply setPower_ok | with_reducible apply ok_foldl_snd
    | with_reducible apply ok_foldl | split | (with_reducible intro u x hu) | (with_reducible intro u hu) | dsimp only
    | (fail_if_no_progress refine ok_mk ?_ (by and_intros <;> first | with_reducible exact Or.inl rfl | exact Or.inr (by assumption)))

theorem moveWords_ok {k : Nat} (h : Ok kp zz s) (kFresh : kp .fresh = true := by assumption) (kAccepted : kp .accepted = true := by assumption) (kMem : kp .mem = true := by assumption) (kCores : kp .cores = true := by assumption) (kDmc : kp .dmc = true := by assumption) (kPwr : kp .pwr = true := by assumption) : Ok kp zz (moveWords k s) := by
  induction k generalizing s with
  | zero => exact h
  | succ k ih =>
    unfold moveWords
    repeat' first
      | with_reducible assumption | with_reducible apply ih | with_reducible apply moveWord_ok | split

theorem ledgerLap_ok (h : Ok kp zz s) (kFresh : kp .fresh = true := by assumption) (kAccepted : kp .accepted = true := by
    assumption) (kMem : kp .mem = true := by assumption) (kCores : kp .cores = true := by assumption) (kDmc : kp .dmc = true
    := by assumption) (kPwr : kp .pwr = true := by assumption) : Ok kp zz (ledgerLap s) := by
  unfold ledgerLap
  repeat' first
    | with_reducible assumption | with_reducible apply ok_ite | with_reducible apply awaitRead_ok
    | with_reducible apply moveWords_ok | split | (with_reducible intro u x hu) | (with_reducible intro u hu) | dsimp only
    | (fail_if_no_progress refine ok_mk ?_ (by and_intros <;> first | with_reducible exact Or.inl rfl | exact Or.inr (by assumption)))

theorem execDigitalRailFault_ok (h : Ok kp zz s) (kBnd : kp .bnd = true := by assumption) (kFresh : kp .fresh = true := by assumption) (kAccepted : kp .accepted = true := by assumption) (kNextRegs : kp .nextRegs = true := by assumption) (kMem : kp .mem = true := by assumption) (kSent : kp .sent = true := by assumption) (kTbs : kp .tbs = true := by assumption) (kAfe : kp .afe = true := by assumption) (kCnv : kp .cnv = true := by assumption) (kLapInfo : kp .lapInfo = true := by assumption) (kRed : kp .red = true := by assumption) (kOut : kp .out = true := by assumption) (kAcq : kp .acq = true := by assumption) (kCtl : kp .ctl = true := by assumption) (kCores : kp .cores = true := by assumption) (kLanes : kp .lanes = true := by assumption) (kWot : kp .wot = true := by assumption) (kEth : kp .eth = true := by assumption) (kDmc : kp .dmc = true := by assumption) (kTwin : kp .twin = true := by assumption) (kHlt : kp .hlt = true := by assumption) (kPwr : kp .pwr = true := by assumption) (kSvc : kp .svc = true := by assumption) (kJtag : kp .jtag = true := by assumption) : OkO kp zz (execDigitalRailFault s) := by
  unfold execDigitalRailFault
  dsimp only
  with_reducible apply okO_ite
  · exact done_ok h
  · refine done_ok (ok_mk (hubReset_ok ?_) (by and_intros <;> first | with_reducible exact Or.inl rfl | exact Or.inr (by assumption)))
    split
    · with_reducible apply ok_ite
      · exact freshen_ok (moveWords_ok h)
      · exact h
    · exact h

theorem hoursLap_ok (h : Ok kp zz s) (kPwr : kp .pwr = true := by assumption) : Ok kp zz (hoursLap s) := by
  unfold hoursLap
  repeat' first
    | with_reducible assumption | with_reducible apply ok_ite | with_reducible apply setFld_ok
    | with_reducible apply setPower_ok | split

theorem execRunningHoursWrite_ok (h : Ok kp zz s) {ofs : Nat} (kTbs : kp .tbs = true := by assumption) (kPwr : kp .pwr = true
    := by assumption) : OkO kp zz (execRunningHoursWrite ofs s) := by
  unfold execRunningHoursWrite
  repeat' first
    | with_reducible assumption | with_reducible apply okO_ite | with_reducible apply ok_ite2 | with_reducible apply ok_ite
    | with_reducible apply atOfs_ok | with_reducible apply done_ok | with_reducible apply lwriteWords_ok
    | with_reducible apply setPower_ok | split

theorem setSvc_ok (h : Ok kp zz s) {x : Svc} (kSvc : kp .svc = true := by assumption) : Ok kp zz (setSvc x s) := by
  unfold setSvc
  repeat' first
    | with_reducible assumption
    | (fail_if_no_progress refine ok_mk ?_ (by and_intros <;> first | with_reducible exact Or.inl rfl | exact Or.inr (by assumption)))

theorem execSvcBtn_ok (h : Ok kp zz s) {pressed : Bool} (kSvc : kp .svc = true := by assumption) : OkO kp zz (execSvcBtn
    pressed s) := by
  unfold execSvcBtn
  repeat' first
    | with_reducible assumption | with_reducible apply okO_ite | with_reducible apply ok_ite | with_reducible apply done_ok
    | with_reducible apply raise_ok | with_reducible apply setFlag_ok | with_reducible apply setSvc_ok | split

theorem requestRemoval_ok (h : Ok kp zz s) (kFresh : kp .fresh = true := by assumption) (kAccepted : kp .accepted = true := by
    assumption) (kSent : kp .sent = true := by assumption) (kOut : kp .out = true := by assumption) (kAcq : kp .acq = true :=
    by assumption) (kLanes : kp .lanes = true := by assumption) (kWot : kp .wot = true := by assumption) (kEth : kp .eth =
    true := by assumption) (kTwin : kp .twin = true := by assumption) (kSvc : kp .svc = true := by assumption) : Ok kp zz
    (requestRemoval s) := by
  unfold requestRemoval
  repeat' first
    | with_reducible assumption | with_reducible apply ok_ite | with_reducible apply enterLeaving_ok
    | with_reducible apply raise_ok | with_reducible apply setFlag_ok | with_reducible apply setSvc_ok
    | with_reducible apply setTwin_ok | split

theorem execSvcBtnHold_ok (h : Ok kp zz s) {ofs : Nat} (kFresh : kp .fresh = true := by assumption) (kAccepted : kp .accepted
    = true := by assumption) (kSent : kp .sent = true := by assumption) (kTbs : kp .tbs = true := by assumption) (kOut : kp
    .out = true := by assumption) (kAcq : kp .acq = true := by assumption) (kLanes : kp .lanes = true := by assumption) (kWot
    : kp .wot = true := by assumption) (kEth : kp .eth = true := by assumption) (kTwin : kp .twin = true := by assumption)
    (kSvc : kp .svc = true := by assumption) : OkO kp zz (execSvcBtnHold ofs s) := by
  unfold execSvcBtnHold
  repeat' first
    | with_reducible assumption | with_reducible apply okO_ite | with_reducible apply ok_ite | with_reducible apply atOfs_ok
    | with_reducible apply done_ok | with_reducible apply raise_ok | with_reducible apply requestRemoval_ok
    | with_reducible apply setFlag_ok | with_reducible apply setSvc_ok | split

theorem gpioSample_ok (h : Ok kp zz s) : Ok kp zz (gpioSample s) := by
  unfold gpioSample
  repeat' first
    | with_reducible assumption | with_reducible apply ok_ite | with_reducible apply raiseIf_ok | with_reducible apply setFld_ok
    | split

theorem execSvcGpio_ok (h : Ok kp zz s) {pins : BitVec 8} (kSvc : kp .svc = true := by assumption) : OkO kp zz (execSvcGpio
    pins s) := by
  unfold execSvcGpio
  try dsimp only
  repeat' first
    | with_reducible assumption | with_reducible apply okO_ite | with_reducible apply okO_next | with_reducible apply okO_fault
    | with_reducible apply okO_refused | with_reducible apply ok_ite | with_reducible apply done_ok
    | with_reducible apply gpioSample_ok | with_reducible apply setSvc_ok | split | (with_reducible intro u x hu)
    | (with_reducible intro u hu) | dsimp only
    | (fail_if_no_progress refine ok_mk ?_ (by and_intros <;> first | with_reducible exact Or.inl rfl | exact Or.inr (by assumption)))

theorem showIndication_ok (h : Ok kp zz s) : Ok kp zz (showIndication s) := by
  unfold showIndication
  repeat' first
    | with_reducible assumption | with_reducible apply setFld_ok

theorem execRefusedIndicationEnd_ok (h : Ok kp zz s) {ofs : Nat} (kTbs : kp .tbs = true := by assumption) (kSvc : kp .svc =
    true := by assumption) : OkO kp zz (execRefusedIndicationEnd ofs s) := by
  unfold execRefusedIndicationEnd
  repeat' first
    | with_reducible assumption | with_reducible apply okO_ite | with_reducible apply ok_ite | with_reducible apply atOfs_ok
    | with_reducible apply done_ok | with_reducible apply setSvc_ok | with_reducible apply showIndication_ok | split

end Sys2Proof.Machine
end

