-- ==== Sys2Proof/Laws/KeepBoot.lean ====
section
/-!
SUPPORT. What the operations of Machine/Boot.lean keep.
-/
namespace Sys2Proof.Machine
open Sys2Proof

set_option Elab.async false
set_option linter.unreachableTactic false
set_option linter.unusedTactic false
set_option linter.unusedVariables false

variable {kp : Comp → Bool} {zz s : State}

theorem setBoot_ok (h : Ok kp zz s) {x : Boot} (kPwr : kp .pwr = true := by assumption) : Ok kp zz (setBoot x s) := by
  unfold setBoot
  repeat' first
    | with_reducible assumption
    | (fail_if_no_progress refine ok_mk ?_ (by and_intros <;> first | with_reducible exact Or.inl rfl | exact Or.inr (by assumption)))

theorem loadSegment_ok (h : Ok kp zz s) {img : List Byte} {warm : Bool} {g : Segment} (kFresh : kp .fresh = true := by
    assumption) (kMem : kp .mem = true := by assumption) (kCores : kp .cores = true := by assumption) (kDmc : kp .dmc = true
    := by assumption) : Ok kp zz (loadSegment img warm s g) := by
  unfold loadSegment
  repeat' first
    | with_reducible assumption | with_reducible apply ok_ite | with_reducible apply memWrite_ok | split

theorem bootFail_ok (h : Ok kp zz s) {code : Nat} (kPwr : kp .pwr = true := by assumption) : Ok kp zz (bootFail code s) := by
  unfold bootFail
  repeat' first
    | with_reducible assumption | with_reducible apply setBoot_ok | with_reducible apply setFld_ok
    | with_reducible apply showIndication_ok

theorem bootImage_ok (h : Ok kp zz s) {img : List Byte} (kFresh : kp .fresh = true := by assumption) (kMem : kp .mem = true :=
    by assumption) (kCores : kp .cores = true := by assumption) (kDmc : kp .dmc = true := by assumption) (kPwr : kp .pwr =
    true := by assumption) : Ok kp zz (bootImage img s) := by
  unfold bootImage
  repeat' first
    | with_reducible assumption | with_reducible apply ok_ite | with_reducible apply bootFail_ok
    | with_reducible apply loadSegment_ok | with_reducible apply setBoot_ok | with_reducible apply ok_foldl
    | (with_reducible intro u x hu) | split

theorem lineBoot_ok (h : Ok kp zz s) (kFresh : kp .fresh = true := by assumption) (kSent : kp .sent = true := by assumption)
    (kAcq : kp .acq = true := by assumption) (kLanes : kp .lanes = true := by assumption) : Ok kp zz (lineBoot s) := by
  unfold lineBoot
  try dsimp only
  repeat' first
    | with_reducible assumption | with_reducible apply ok_ite | with_reducible apply laneStart_ok
    | with_reducible apply setFlag_ok | with_reducible apply setFld_ok | with_reducible apply takeAddr_ok
    | with_reducible apply ok_foldl_snd | with_reducible apply ok_foldl | split | (with_reducible intro u x hu)
    | (with_reducible intro u hu) | dsimp only
    | (fail_if_no_progress refine ok_mk ?_ (by and_intros <;> first | with_reducible exact Or.inl rfl | exact Or.inr (by assumption)))

theorem bootReq_ok (h : Ok kp zz s) {o : Nat} {n : Nat} (kWot : kp .wot = true := by assumption) (kPwr : kp .pwr = true := by
    assumption) : Ok kp zz (bootReq o n s) := by
  unfold bootReq
  repeat' first
    | with_reducible assumption | with_reducible apply ok_ite | with_reducible apply countDrop_ok
    | with_reducible apply enqueueFrame_ok | with_reducible apply setBoot_ok | split

theorem flashRead_ok (h : Ok kp zz s) {a : Nat} (kSent : kp .sent = true := by assumption) : Ok kp zz (flashRead a s) := by
  unfold flashRead
  repeat' first
    | with_reducible assumption | with_reducible apply ok_ite | with_reducible apply emit_ok | split
    | (with_reducible intro u x hu) | (with_reducible intro u hu) | dsimp only
    | (fail_if_no_progress refine ok_mk ?_ (by and_intros <;> first | with_reducible exact Or.inl rfl | exact Or.inr (by assumption)))

theorem bootFlash_ok (h : Ok kp zz s) {flash : Option (List Byte)} {source : Nat} (kFresh : kp .fresh = true := by assumption)
    (kMem : kp .mem = true := by assumption) (kSent : kp .sent = true := by assumption) (kCores : kp .cores = true := by
    assumption) (kDmc : kp .dmc = true := by assumption) (kPwr : kp .pwr = true := by assumption) : Ok kp zz (bootFlash flash
    source s) := by
  unfold bootFlash
  try dsimp only
  repeat' first
    | with_reducible assumption | with_reducible apply ok_ite | with_reducible apply bootFail_ok
    | with_reducible apply bootImage_ok | with_reducible apply flashRead_ok | split | (with_reducible intro u x hu)
    | (with_reducible intro u hu) | dsimp only
    | (fail_if_no_progress refine ok_mk ?_ (by and_intros <;> first | with_reducible exact Or.inl rfl | exact Or.inr (by assumption)))

theorem execBootAttempt_ok (h : Ok kp zz s) {flash : Option (List Byte)} {ofs : Nat} (kFresh : kp .fresh = true := by
    assumption) (kMem : kp .mem = true := by assumption) (kSent : kp .sent = true := by assumption) (kTbs : kp .tbs = true :=
    by assumption) (kAcq : kp .acq = true := by assumption) (kCores : kp .cores = true := by assumption) (kLanes : kp .lanes =
    true := by assumption) (kWot : kp .wot = true := by assumption) (kDmc : kp .dmc = true := by assumption) (kPwr : kp .pwr =
    true := by assumption) : OkO kp zz (execBootAttempt flash ofs s) := by
  unfold execBootAttempt
  try dsimp only
  repeat' first
    | with_reducible assumption | with_reducible apply okO_ite | with_reducible apply okO_next | with_reducible apply okO_fault
    | with_reducible apply okO_refused | with_reducible apply ok_ite | with_reducible apply atOfs_ok
    | with_reducible apply bootFail_ok | with_reducible apply bootFlash_ok | with_reducible apply bootImage_ok
    | with_reducible apply bootReq_ok | with_reducible apply done_ok | with_reducible apply lineBoot_ok
    | with_reducible apply setBoot_ok | split | (with_reducible intro u x hu) | (with_reducible intro u hu) | dsimp only
    | (fail_if_no_progress refine ok_mk ?_ (by and_intros <;> first | with_reducible exact Or.inl rfl | exact Or.inr (by assumption)))

theorem bootData_ok (h : Ok kp zz s) {f : LineFrame} (kWot : kp .wot = true := by assumption) (kPwr : kp .pwr = true := by
    assumption) : Ok kp zz (bootData f s) := by
  unfold bootData
  repeat' first
    | with_reducible assumption | with_reducible apply ok_ite | with_reducible apply bootReq_ok
    | with_reducible apply setBoot_ok | split

theorem execBootDataReceive_ok (h : Ok kp zz s) {ofs : Nat} (kTbs : kp .tbs = true := by assumption) (kWot : kp .wot = true :=
    by assumption) (kPwr : kp .pwr = true := by assumption) : OkO kp zz (execBootDataReceive ofs s) := by
  unfold execBootDataReceive
  repeat' first
    | with_reducible assumption | with_reducible apply okO_ite | with_reducible apply ok_ite
    | (refine takeArrived_ok ?_ (by assumption)) | with_reducible apply atOfs_ok | with_reducible apply bootData_ok
    | with_reducible apply done_ok | with_reducible apply setWot_ok | split

theorem execBootReqRetry_ok (h : Ok kp zz s) {ofs : Nat} (kTbs : kp .tbs = true := by assumption) (kWot : kp .wot = true := by
    assumption) (kPwr : kp .pwr = true := by assumption) : OkO kp zz (execBootReqRetry ofs s) := by
  unfold execBootReqRetry
  repeat' first
    | with_reducible assumption | with_reducible apply okO_ite | with_reducible apply ok_ite | with_reducible apply atOfs_ok
    | with_reducible apply bootFail_ok | with_reducible apply bootReq_ok | with_reducible apply done_ok
    | with_reducible apply setBoot_ok | split

theorem execBootRetry_ok (h : Ok kp zz s) {ofs : Nat} (kTbs : kp .tbs = true := by assumption) (kPwr : kp .pwr = true := by
    assumption) : OkO kp zz (execBootRetry ofs s) := by
  unfold execBootRetry
  repeat' first
    | with_reducible assumption | with_reducible apply okO_ite | with_reducible apply ok_ite | with_reducible apply atOfs_ok
    | with_reducible apply done_ok | with_reducible apply setBoot_ok | split

theorem setUpRunner_ok (h : Ok kp zz s) {h_ : List Byte} {n : Nat} (kAccepted : kp .accepted = true := by assumption) (kCores
    : kp .cores = true := by assumption) : Ok kp zz (setUpRunner h_ s n) := by
  unfold setUpRunner
  repeat' first
    | with_reducible assumption | with_reducible apply ok_ite | with_reducible apply runCore_ok | with_reducible apply wr_ok
    | split

theorem execBootDone_ok (h : Ok kp zz s) (kAccepted : kp .accepted = true := by assumption) (kCores : kp .cores = true := by
    assumption) (kPwr : kp .pwr = true := by assumption) : OkO kp zz (execBootDone s) := by
  unfold execBootDone
  repeat' first
    | with_reducible assumption | with_reducible apply okO_ite | with_reducible apply ok_ite | with_reducible apply done_ok
    | with_reducible apply raise_ok | with_reducible apply setBoot_ok | with_reducible apply setFlag_ok
    | with_reducible apply setFld_ok | with_reducible apply setMode_ok | with_reducible apply setPc_ok
    | with_reducible apply setUpRunner_ok | with_reducible apply showIndication_ok | with_reducible apply wr_ok
    | with_reducible apply ok_foldl | (with_reducible intro u x hu) | split

end Sys2Proof.Machine
end

