-- ==== Sys2Proof/Laws/KeepJtag.lean ====
section
/-!
SUPPORT. What the operations of Machine/Jtag.lean keep.
-/
namespace Sys2Proof.Machine
open Sys2Proof

set_option Elab.async false
set_option linter.unreachableTactic false
set_option linter.unusedTactic false
set_option linter.unusedVariables false

variable {kp : Comp → Bool} {zz s : State}

theorem execTckRisingEdge_ok (h : Ok kp zz s) {tms : Bool} {tdi : Bool} {pins : List Bool} (kSent : kp .sent = true := by
    assumption) (kJtag : kp .jtag = true := by assumption) : OkO kp zz (execTckRisingEdge tms tdi pins s) := by
  unfold execTckRisingEdge
  repeat' first
    | with_reducible assumption | with_reducible apply done_ok | with_reducible apply emitLevel_ok | split
    | (fail_if_no_progress refine ok_mk ?_ (by and_intros <;> first | with_reducible exact Or.inl rfl | exact Or.inr (by assumption)))

theorem execTrstN_ok (h : Ok kp zz s) (kJtag : kp .jtag = true := by assumption) : OkO kp zz (execTrstN s) := by
  unfold execTrstN
  repeat' first
    | with_reducible assumption | with_reducible apply done_ok
    | (fail_if_no_progress refine ok_mk ?_ (by and_intros <;> first | with_reducible exact Or.inl rfl | exact Or.inr (by assumption)))

end Sys2Proof.Machine
end

