-- ==== Sys2Proof/Laws/KeepGop.lean ====
section
/-!
SUPPORT. What the operations of Machine/Gop.lean keep.
-/
namespace Sys2Proof.Machine
open Sys2Proof

set_option Elab.async false
set_option linter.unreachableTactic false
set_option linter.unusedTactic false
set_option linter.unusedVariables false

variable {kp : Comp → Bool} {zz s : State}

theorem issueGop_ok (h : Ok kp zz s) {op : Nat} {space : Nat} {dir : Nat} {cancel : Bool} {turn : Bool} (kAccepted : kp
    .accepted = true := by assumption) (kWot : kp .wot = true := by assumption) : Ok kp zz (issueGop op space dir cancel turn
    s) := by
  unfold issueGop
  repeat' first
    | with_reducible assumption | with_reducible apply ok_ite | with_reducible apply accept_ok
    | with_reducible apply countDrop_ok | with_reducible apply enqueueCut_ok | with_reducible apply refuse_ok
    | with_reducible apply reject_ok | with_reducible apply setWot_ok | split

theorem execGopTrigger_ok (h : Ok kp zz s) {space : Fin 8} {dir : Fin 4} {cancel : Bool} {turn : Bool} (kAccepted : kp
    .accepted = true := by assumption) (kWot : kp .wot = true := by assumption) : OkO kp zz (execGopTrigger space dir cancel
    turn s) := by
  unfold execGopTrigger
  repeat' first
    | with_reducible assumption | with_reducible apply done_ok | with_reducible apply issueGop_ok

theorem execGopEvent_ok (h : Ok kp zz s) {space : Fin 8} {dir : Fin 4} {cancel : Bool} {turn : Bool} (kAccepted : kp .accepted
    = true := by assumption) (kWot : kp .wot = true := by assumption) : OkO kp zz (execGopEvent space dir cancel turn s) := by
  unfold execGopEvent
  repeat' first
    | with_reducible assumption | with_reducible apply done_ok | with_reducible apply issueGop_ok

theorem execGopSnapshot_ok (h : Ok kp zz s) {space : Fin 8} {dir : Fin 4} {cancel : Bool} {turn : Bool} (kAccepted : kp
    .accepted = true := by assumption) (kWot : kp .wot = true := by assumption) : OkO kp zz (execGopSnapshot space dir cancel
    turn s) := by
  unfold execGopSnapshot
  repeat' first
    | with_reducible assumption | with_reducible apply done_ok | with_reducible apply issueGop_ok

theorem execGopBarrier_ok (h : Ok kp zz s) {space : Fin 8} {dir : Fin 4} {cancel : Bool} {turn : Bool} (kAccepted : kp
    .accepted = true := by assumption) (kWot : kp .wot = true := by assumption) : OkO kp zz (execGopBarrier space dir cancel
    turn s) := by
  unfold execGopBarrier
  repeat' first
    | with_reducible assumption | with_reducible apply done_ok | with_reducible apply issueGop_ok

theorem execGopReset_ok (h : Ok kp zz s) {space : Fin 8} {dir : Fin 4} {cancel : Bool} {turn : Bool} (kAccepted : kp .accepted
    = true := by assumption) (kWot : kp .wot = true := by assumption) : OkO kp zz (execGopReset space dir cancel turn s) := by
  unfold execGopReset
  repeat' first
    | with_reducible assumption | with_reducible apply done_ok | with_reducible apply issueGop_ok

theorem gopView_ok (h : Ok kp zz s) {g : Gop} (kTbs : kp .tbs = true := by assumption) : Ok kp zz (gopView g s) := by
  unfold gopView
  repeat' first
    | with_reducible assumption | with_reducible apply setSl_ok | with_reducible apply wr_ok

theorem gopKeepSteps_ok (h : Ok kp zz s) (kTbs : kp .tbs = true := by assumption) (kWot : kp .wot = true := by assumption) :
    Ok kp zz (gopKeepSteps s) := by
  unfold gopKeepSteps
  repeat' first
    | with_reducible assumption | with_reducible apply ok_ite | with_reducible apply setWot_ok | split

theorem scheduleGop_ok (h : Ok kp zz s) {f : LineFrame} (kTbs : kp .tbs = true := by assumption) (kWot : kp .wot = true := by
    assumption) : Ok kp zz (scheduleGop f s) := by
  unfold scheduleGop
  repeat' first
    | with_reducible assumption | with_reducible apply ok_ite2 | with_reducible apply ok_ite | with_reducible apply raiseIf_ok
    | with_reducible apply setWot_ok | split

theorem execGopReceive_ok (h : Ok kp zz s) {ofs : Nat} (kTbs : kp .tbs = true := by assumption) (kWot : kp .wot = true := by
    assumption) : OkO kp zz (execGopReceive ofs s) := by
  unfold execGopReceive
  try dsimp only
  repeat' first
    | with_reducible assumption | with_reducible apply okO_ite | with_reducible apply okO_next | with_reducible apply okO_fault
    | with_reducible apply okO_refused | with_reducible apply ok_ite | (refine takeArrived_ok ?_ (by assumption))
    | with_reducible apply atOfs_ok | with_reducible apply done_ok | (refine (done_ok ?_) _ (by assumption))
    | with_reducible apply forwardCut_ok | with_reducible apply scheduleGop_ok | split | (with_reducible intro u x hu)
    | (with_reducible intro u hu) | dsimp only
    | (fail_if_no_progress refine ok_mk ?_ (by and_intros <;> first | with_reducible exact Or.inl rfl | exact Or.inr (by assumption)))

theorem gopAct_ok (h : Ok kp zz s) {g : Gop} (kBnd : kp .bnd = true := by assumption) (kFresh : kp .fresh = true := by
    assumption) (kAccepted : kp .accepted = true := by assumption) (kNextRegs : kp .nextRegs = true := by assumption) (kMem :
    kp .mem = true := by assumption) (kSent : kp .sent = true := by assumption) (kTbs : kp .tbs = true := by assumption) (kAfe
    : kp .afe = true := by assumption) (kCnv : kp .cnv = true := by assumption) (kLapInfo : kp .lapInfo = true := by
    assumption) (kRed : kp .red = true := by assumption) (kOut : kp .out = true := by assumption) (kAcq : kp .acq = true := by
    assumption) (kCtl : kp .ctl = true := by assumption) (kCores : kp .cores = true := by assumption) (kLanes : kp .lanes =
    true := by assumption) (kWot : kp .wot = true := by assumption) (kEth : kp .eth = true := by assumption) (kDmc : kp .dmc =
    true := by assumption) (kTwin : kp .twin = true := by assumption) (kHlt : kp .hlt = true := by assumption) (kPwr : kp .pwr
    = true := by assumption) (kSvc : kp .svc = true := by assumption) (kJtag : kp .jtag = true := by assumption) : Ok kp zz
    (gopAct g s) := by
  unfold gopAct
  repeat' first
    | with_reducible assumption | with_reducible apply ok_ite | with_reducible apply hubResetBy_ok
    | with_reducible apply offer_ok | with_reducible apply raise_ok | with_reducible apply setWot_ok
    | with_reducible apply wrPair_ok | with_reducible apply ok_foldl | (with_reducible intro u x hu) | split

theorem execGopEffect_ok (h : Ok kp zz s) {ofs : Nat} (kBnd : kp .bnd = true := by assumption) (kFresh : kp .fresh = true :=
    by assumption) (kAccepted : kp .accepted = true := by assumption) (kNextRegs : kp .nextRegs = true := by assumption) (kMem
    : kp .mem = true := by assumption) (kSent : kp .sent = true := by assumption) (kTbs : kp .tbs = true := by assumption)
    (kAfe : kp .afe = true := by assumption) (kCnv : kp .cnv = true := by assumption) (kLapInfo : kp .lapInfo = true := by
    assumption) (kRed : kp .red = true := by assumption) (kOut : kp .out = true := by assumption) (kAcq : kp .acq = true := by
    assumption) (kCtl : kp .ctl = true := by assumption) (kCores : kp .cores = true := by assumption) (kLanes : kp .lanes =
    true := by assumption) (kWot : kp .wot = true := by assumption) (kEth : kp .eth = true := by assumption) (kDmc : kp .dmc =
    true := by assumption) (kTwin : kp .twin = true := by assumption) (kHlt : kp .hlt = true := by assumption) (kPwr : kp .pwr
    = true := by assumption) (kSvc : kp .svc = true := by assumption) (kJtag : kp .jtag = true := by assumption) : OkO kp zz
    (execGopEffect ofs s) := by
  unfold execGopEffect
  try dsimp only
  repeat' first
    | with_reducible assumption | with_reducible apply okO_ite | with_reducible apply okO_next | with_reducible apply okO_fault
    | with_reducible apply okO_refused | with_reducible apply ok_ite | with_reducible apply atOfs_ok
    | with_reducible apply done_ok | (refine (done_ok ?_) _ (by assumption)) | with_reducible apply gopAct_ok
    | with_reducible apply setWot_ok | split | (with_reducible intro u x hu) | (with_reducible intro u hu) | dsimp only
    | (fail_if_no_progress refine ok_mk ?_ (by and_intros <;> first | with_reducible exact Or.inl rfl | exact Or.inr (by assumption)))

theorem execWotSnapshot_ok (h : Ok kp zz s) (kWot : kp .wot = true := by assumption) : OkO kp zz (execWotSnapshot s) := by
  unfold execWotSnapshot
  repeat' first
    | with_reducible assumption | with_reducible apply done_ok | with_reducible apply raise_ok | with_reducible apply setFld_ok
    | with_reducible apply setWot_ok | with_reducible apply ok_foldl | split | (with_reducible intro u x hu)

theorem execWotGopEcho_ok (h : Ok kp zz s) {ofs : Nat} (kAccepted : kp .accepted = true := by assumption) (kTbs : kp .tbs =
    true := by assumption) (kWot : kp .wot = true := by assumption) : OkO kp zz (execWotGopEcho ofs s) := by
  unfold execWotGopEcho
  try dsimp only
  repeat' first
    | with_reducible assumption | with_reducible apply okO_ite | with_reducible apply okO_next | with_reducible apply okO_fault
    | with_reducible apply okO_refused | with_reducible apply ok_ite | (refine takeArrived_ok ?_ (by assumption))
    | with_reducible apply atOfs_ok | with_reducible apply complete_ok | with_reducible apply done_ok
    | (refine (done_ok ?_) _ (by assumption)) | with_reducible apply raise_ok | with_reducible apply setWot_ok
    | with_reducible apply wr_ok | split | (with_reducible intro u x hu) | (with_reducible intro u hu) | dsimp only
    | (fail_if_no_progress refine ok_mk ?_ (by and_intros <;> first | with_reducible exact Or.inl rfl | exact Or.inr (by assumption)))

theorem execGopEchoTimeout_ok (h : Ok kp zz s) {ofs : Nat} (kAccepted : kp .accepted = true := by assumption) (kTbs : kp .tbs
    = true := by assumption) (kWot : kp .wot = true := by assumption) : OkO kp zz (execGopEchoTimeout ofs s) := by
  unfold execGopEchoTimeout
  try dsimp only
  repeat' first
    | with_reducible assumption | with_reducible apply okO_ite | with_reducible apply okO_next | with_reducible apply okO_fault
    | with_reducible apply okO_refused | with_reducible apply ok_ite | with_reducible apply atOfs_ok
    | with_reducible apply complete_ok | with_reducible apply done_ok | (refine (done_ok ?_) _ (by assumption))
    | with_reducible apply setWot_ok | split | (with_reducible intro u x hu) | (with_reducible intro u hu) | dsimp only
    | (fail_if_no_progress refine ok_mk ?_ (by and_intros <;> first | with_reducible exact Or.inl rfl | exact Or.inr (by assumption)))

end Sys2Proof.Machine
end

