-- ==== Sys2Proof/Laws/KeepPath.lean ====
section
/-!
SUPPORT. What the operations of Machine/Path.lean keep.
-/
namespace Sys2Proof.Machine
open Sys2Proof

set_option Elab.async false
set_option linter.unreachableTactic false
set_option linter.unusedTactic false
set_option linter.unusedVariables false

variable {kp : Comp → Bool} {zz s : State}

theorem clampSeen_ok (h : Ok kp zz s) {m : Nat} : Ok kp zz (clampSeen m s) := by
  unfold clampSeen
  repeat' first
    | with_reducible assumption | with_reducible apply ok_ite | with_reducible apply raise_ok
    | with_reducible apply setMaskAll_ok | split

theorem calibrate_ok (hs0 : Ok kp zz s0) (hs : Ok kp zz s) {fr : Option D2DFrame} {s0 : State} (kCnv : kp .cnv = true := by
    assumption) : Ok kp zz (calibrate fr s0 s) := by
  unfold calibrate
  try dsimp only
  repeat' first
    | with_reducible assumption | with_reducible apply ok_ite | with_reducible apply overlapResiduals_ok
    | with_reducible apply pairTake_ok | with_reducible apply setCnv_ok | with_reducible apply trackTake_ok
    | with_reducible apply ok_foldl_snd | with_reducible apply ok_foldl | split | (with_reducible intro u x hu)
    | (with_reducible intro u hu) | dsimp only
    | (fail_if_no_progress refine ok_mk ?_ (by and_intros <;> first | with_reducible exact Or.inl rfl | exact Or.inr (by assumption)))

theorem mainsTake_ok (h : Ok kp zz s) {d : DataLap} (kTbs : kp .tbs = true := by assumption) : Ok kp zz (mainsTake d s) := by
  unfold mainsTake
  repeat' first
    | with_reducible assumption | with_reducible apply ok_ite | with_reducible apply mainsCode_ok | split
    | (with_reducible intro u x hu) | (with_reducible intro u hu) | dsimp only
    | (fail_if_no_progress refine ok_mk ?_ (by and_intros <;> first | with_reducible exact Or.inl rfl | exact Or.inr (by assumption)))

theorem gotLap_ok (h : Ok kp zz s) (kLapInfo : kp .lapInfo = true := by assumption) : Ok kp zz (gotLap s) := by
  unfold gotLap
  repeat' first
    | with_reducible assumption | with_reducible apply ok_ite | split | (with_reducible intro u x hu)
    | (with_reducible intro u hu) | dsimp only
    | (fail_if_no_progress refine ok_mk ?_ (by and_intros <;> first | with_reducible exact Or.inl rfl | exact Or.inr (by assumption)))

theorem showSense_ok (h : Ok kp zz s) {new : List (Nat × Int)} {q : Nat × Int} (kAfe : kp .afe = true := by assumption) : Ok
    kp zz (showSense new s q) := by
  unfold showSense
  repeat' first
    | with_reducible assumption | with_reducible apply ok_ite2 | with_reducible assumption | with_reducible apply ok_ite
    | with_reducible apply setBank_ok | with_reducible apply setInt_ok | split | (with_reducible intro u x hu)
    | (with_reducible intro u hu) | dsimp only
    | (fail_if_no_progress refine ok_mk ?_ (by and_intros <;> first | with_reducible exact Or.inl rfl | exact Or.inr (by assumption)))

theorem showLap_ok (h : Ok kp zz s) {fr : Option D2DFrame} {rs : List (Chan × Bool)} (kAfe : kp .afe = true := by assumption)
    : Ok kp zz (showLap fr rs s) := by
  unfold showLap
  try dsimp only
  repeat' first
    | with_reducible assumption | with_reducible apply ok_ite2 | with_reducible assumption | with_reducible apply ok_ite
    | with_reducible apply setChan_ok | with_reducible apply showSense_ok | with_reducible apply ok_foldl_snd
    | with_reducible apply ok_foldl | split | (with_reducible intro u x hu) | (with_reducible intro u hu) | dsimp only
    | (fail_if_no_progress refine ok_mk ?_ (by and_intros <;> first | with_reducible exact Or.inl rfl | exact Or.inr (by assumption)))

theorem keepOwn_ok (h : Ok kp zz s) {d : DataLap} (kTwin : kp .twin = true := by assumption) : Ok kp zz (keepOwn d s) := by
  unfold keepOwn
  repeat' first
    | with_reducible assumption | with_reducible apply ok_ite | with_reducible apply setTwin_ok | split
    | (with_reducible intro u x hu) | (with_reducible intro u hu) | dsimp only
    | (fail_if_no_progress refine ok_mk ?_ (by and_intros <;> first | with_reducible exact Or.inl rfl | exact Or.inr (by assumption)))

theorem ownArrives_ok (h : Ok kp zz s) {frame : Option D2DFrame} (kTbs : kp .tbs = true := by assumption) (kAfe : kp .afe =
    true := by assumption) (kCnv : kp .cnv = true := by assumption) (kLapInfo : kp .lapInfo = true := by assumption) (kTwin :
    kp .twin = true := by assumption) : Ok kp zz (ownArrives frame s) := by
  unfold ownArrives
  try dsimp only
  repeat' first
    | with_reducible assumption | with_reducible apply ok_ite | with_reducible apply calibrate_ok
    | with_reducible apply clampSeen_ok | with_reducible apply gotLap_ok | with_reducible apply keepOwn_ok
    | with_reducible apply mainsTake_ok | with_reducible apply showLap_ok | split | (with_reducible intro u x hu)
    | (with_reducible intro u hu) | dsimp only
    | (fail_if_no_progress refine ok_mk ?_ (by and_intros <;> first | with_reducible exact Or.inl rfl | exact Or.inr (by assumption)))

theorem takeChan_ok (h : Ok kp zz s) {cat : Tab Word} {b : Nat} {d : DataLap} {flags : List Nat} {c : Nat} (kAfe : kp .afe =
    true := by assumption) (kRed : kp .red = true := by assumption) : Ok kp zz (takeChan cat b d flags s c) := by
  unfold takeChan
  repeat' first
    | with_reducible assumption | with_reducible apply ok_ite | with_reducible apply markIf_ok
    | with_reducible apply openCount_ok | with_reducible apply setChan_ok | split

theorem takeSense_ok (h : Ok kp zz s) {b : Nat} {d : DataLap} {k : Nat} (kRed : kp .red = true := by assumption) : Ok kp zz
    (takeSense b d s k) := by
  unfold takeSense
  repeat' first
    | with_reducible assumption | with_reducible apply ok_ite
    | (fail_if_no_progress refine ok_mk ?_ (by and_intros <;> first | with_reducible exact Or.inl rfl | exact Or.inr (by assumption)))
    | split

theorem sourceTaken_ok (h : Ok kp zz s) {l : Nat} (kTwin : kp .twin = true := by assumption) : Ok kp zz (sourceTaken l s) :=
    by
  unfold sourceTaken
  repeat' first
    | with_reducible assumption | with_reducible apply ok_ite | with_reducible apply setTwin_ok | split
    | (with_reducible intro u x hu) | (with_reducible intro u hu) | dsimp only
    | (fail_if_no_progress refine ok_mk ?_ (by and_intros <;> first | with_reducible exact Or.inl rfl | exact Or.inr (by assumption)))

theorem takeLap_ok (h : Ok kp zz s) {l : Nat} {b : Nat} (kFresh : kp .fresh = true := by assumption) (kAccepted : kp .accepted
    = true := by assumption) (kMem : kp .mem = true := by assumption) (kAfe : kp .afe = true := by assumption) (kRed : kp .red
    = true := by assumption) (kAcq : kp .acq = true := by assumption) (kCores : kp .cores = true := by assumption) (kDmc : kp
    .dmc = true := by assumption) (kTwin : kp .twin = true := by assumption) : Ok kp zz (takeLap l b s) := by
  unfold takeLap
  try dsimp only
  repeat' first
    | with_reducible assumption | with_reducible apply ok_ite | with_reducible apply enterChain_ok
    | with_reducible apply setTwin_ok | with_reducible apply sourceTaken_ok | with_reducible apply storeLap_ok
    | with_reducible apply takeChan_ok | with_reducible apply takeSense_ok | with_reducible apply xchkLap_ok
    | with_reducible apply ok_foldl_snd | with_reducible apply ok_foldl | split | (with_reducible intro u x hu)
    | (with_reducible intro u hu) | dsimp only
    | (fail_if_no_progress refine ok_mk ?_ (by and_intros <;> first | with_reducible exact Or.inl rfl | exact Or.inr (by assumption)))

theorem takeDueLap_ok (h : Ok kp zz s) (kFresh : kp .fresh = true := by assumption) (kAccepted : kp .accepted = true := by
    assumption) (kMem : kp .mem = true := by assumption) (kAfe : kp .afe = true := by assumption) (kRed : kp .red = true := by
    assumption) (kAcq : kp .acq = true := by assumption) (kCores : kp .cores = true := by assumption) (kDmc : kp .dmc = true
    := by assumption) (kTwin : kp .twin = true := by assumption) : Ok kp zz (takeDueLap s) := by
  unfold takeDueLap
  repeat' first
    | with_reducible assumption | with_reducible apply ok_ite | with_reducible apply takeLap_ok | split

theorem execD2dLapFrameArrival_ok (h : Ok kp zz s) {frame : D2DFrame} (kFresh : kp .fresh = true := by assumption) (kAccepted
    : kp .accepted = true := by assumption) (kMem : kp .mem = true := by assumption) (kTbs : kp .tbs = true := by assumption)
    (kAfe : kp .afe = true := by assumption) (kCnv : kp .cnv = true := by assumption) (kLapInfo : kp .lapInfo = true := by
    assumption) (kRed : kp .red = true := by assumption) (kAcq : kp .acq = true := by assumption) (kCores : kp .cores = true
    := by assumption) (kDmc : kp .dmc = true := by assumption) (kTwin : kp .twin = true := by assumption) (kHlt : kp .hlt =
    true := by assumption) : OkO kp zz (execD2dLapFrameArrival frame s) := by
  unfold execD2dLapFrameArrival
  repeat' first
    | with_reducible assumption | with_reducible apply okO_ite | with_reducible apply ok_ite | with_reducible apply d2dErrors_ok
    | with_reducible apply done_ok | with_reducible apply freshen_ok | with_reducible apply ownArrives_ok
    | with_reducible apply setHlt_ok | with_reducible apply takeDueLap_ok | split

theorem closeLap_ok (h : Ok kp zz s) (kFresh : kp .fresh = true := by assumption) (kAccepted : kp .accepted = true := by
    assumption) (kMem : kp .mem = true := by assumption) (kTbs : kp .tbs = true := by assumption) (kAfe : kp .afe = true := by
    assumption) (kCnv : kp .cnv = true := by assumption) (kLapInfo : kp .lapInfo = true := by assumption) (kRed : kp .red =
    true := by assumption) (kAcq : kp .acq = true := by assumption) (kCores : kp .cores = true := by assumption) (kDmc : kp
    .dmc = true := by assumption) (kTwin : kp .twin = true := by assumption) : Ok kp zz (closeLap s) := by
  unfold closeLap
  repeat' first
    | with_reducible assumption | with_reducible apply ok_ite | with_reducible apply ownArrives_ok
    | with_reducible apply takeDueLap_ok | split

theorem mirrorEdges_ok (h : Ok kp zz s) : Ok kp zz (mirrorEdges s) := by
  unfold mirrorEdges
  repeat' first
    | with_reducible assumption | with_reducible apply mirrorTrigger_ok | with_reducible apply ok_foldl | split
    | (with_reducible intro u x hu)

theorem deliverRecord_ok (h : Ok kp zz s) {cat : Tab Word} {r : Rec} (kFresh : kp .fresh = true := by assumption) (kAccepted :
    kp .accepted = true := by assumption) (kMem : kp .mem = true := by assumption) (kRed : kp .red = true := by assumption)
    (kAcq : kp .acq = true := by assumption) (kCores : kp .cores = true := by assumption) (kWot : kp .wot = true := by
    assumption) (kDmc : kp .dmc = true := by assumption) : Ok kp zz (deliverRecord cat s r) := by
  unfold deliverRecord
  repeat' first
    | with_reducible assumption | with_reducible apply ok_ite | with_reducible apply count_ok
    | with_reducible apply offerRecord_ok | with_reducible apply storeRecord_ok | with_reducible apply streamRecord_ok
    | with_reducible apply ok_foldl | (with_reducible intro u x hu) | split

theorem deliverLap_ok (h : Ok kp zz s) {x : LapRec} (kFresh : kp .fresh = true := by assumption) (kAccepted : kp .accepted =
    true := by assumption) (kMem : kp .mem = true := by assumption) (kRed : kp .red = true := by assumption) (kAcq : kp .acq =
    true := by assumption) (kCores : kp .cores = true := by assumption) (kWot : kp .wot = true := by assumption) (kDmc : kp
    .dmc = true := by assumption) : Ok kp zz (deliverLap s x) := by
  unfold deliverLap
  repeat' first
    | with_reducible assumption | with_reducible apply deliverRecord_ok | with_reducible apply formChannel_ok
    | with_reducible apply ok_foldl | (with_reducible intro u x hu)

theorem execRecordDelivery_ok (h : Ok kp zz s) (kFresh : kp .fresh = true := by assumption) (kAccepted : kp .accepted = true
    := by assumption) (kMem : kp .mem = true := by assumption) (kRed : kp .red = true := by assumption) (kAcq : kp .acq = true
    := by assumption) (kCores : kp .cores = true := by assumption) (kWot : kp .wot = true := by assumption) (kDmc : kp .dmc =
    true := by assumption) : OkO kp zz (execRecordDelivery s) := by
  unfold execRecordDelivery
  repeat' first
    | with_reducible assumption | with_reducible apply deliverLap_ok | with_reducible apply done_ok
    | with_reducible apply ok_foldl | (with_reducible intro u x hu)
    | (fail_if_no_progress refine ok_mk ?_ (by and_intros <;> first | with_reducible exact Or.inl rfl | exact Or.inr (by assumption)))

end Sys2Proof.Machine
end

