-- ==== Sys2Proof/Laws/KeepBus.lean ====
section
/-!
SUPPORT. What the operations of Machine/Bus.lean keep.
-/
namespace Sys2Proof.Machine
open Sys2Proof

set_option Elab.async false
set_option linter.unreachableTactic false
set_option linter.unusedTactic false
set_option linter.unusedVariables false

variable {kp : Comp → Bool} {zz s : State}

theorem plainWrite_ok (h : Ok kp zz s) {a : Nat} {w : Word} : Ok kp zz (plainWrite a w s) := by
  unfold plainWrite
  repeat' first
    | with_reducible assumption | with_reducible apply wr_ok

theorem noOp_ok (h : Ok kp zz s) {a : Nat} (kAccepted : kp .accepted = true := by assumption) : OkO kp zz (noOp a s) := by
  unfold noOp
  repeat' first
    | with_reducible assumption | with_reducible apply okO_ite | with_reducible apply ok_ite | with_reducible apply complete_ok
    | with_reducible apply done_ok | with_reducible apply reject_ok | split

theorem pacerCommand_ok (h : Ok kp zz s) {w : Word} (kAccepted : kp .accepted = true := by assumption) (kTbs : kp .tbs = true
    := by assumption) : OkO kp zz (pacerCommand w s) := by
  unfold pacerCommand
  repeat' first
    | with_reducible assumption | with_reducible apply execPacerAcquire_ok | with_reducible apply execPacerSwitch_ok
    | with_reducible apply execSetTime_ok | with_reducible apply noOp_ok | split

theorem slCommand_ok (h : Ok kp zz s) {w : Word} (kAccepted : kp .accepted = true := by assumption) (kTbs : kp .tbs = true :=
    by assumption) : OkO kp zz (slCommand w s) := by
  unfold slCommand
  repeat' first
    | with_reducible assumption | with_reducible apply execDisableAll_ok | with_reducible apply execDisableSpace_ok
    | with_reducible apply noOp_ok | split

theorem calCommand_ok (h : Ok kp zz s) {w : Word} (kAccepted : kp .accepted = true := by assumption) : OkO kp zz (calCommand w
    s) := by
  unfold calCommand
  repeat' first
    | with_reducible assumption | with_reducible apply execCalResume_ok | with_reducible apply execPause_ok
    | with_reducible apply execReadmit_ok | with_reducible apply noOp_ok | split

theorem redCommand_ok (h : Ok kp zz s) {w : Word} (kAccepted : kp .accepted = true := by assumption) : OkO kp zz (redCommand w
    s) := by
  unfold redCommand
  repeat' first
    | with_reducible assumption | with_reducible apply execCatalogueCommit_ok | with_reducible apply execSetSeq_ok
    | with_reducible apply noOp_ok | split

theorem ringCommand_ok (h : Ok kp zz s) {r : Nat} {w : Word} (kAccepted : kp .accepted = true := by assumption) : OkO kp zz
    (ringCommand r w s) := by
  unfold ringCommand
  repeat' first
    | with_reducible assumption | with_reducible apply execArm_ok | with_reducible apply execDisarm_ok
    | with_reducible apply execRingTriggerCmd_ok | with_reducible apply noOp_ok | split

theorem ctlCommand_ok (h : Ok kp zz s) {w : Word} (kAccepted : kp .accepted = true := by assumption) : OkO kp zz (ctlCommand w
    s) := by
  unfold ctlCommand
  repeat' first
    | with_reducible assumption | with_reducible apply execLoopCommitCmd_ok | with_reducible apply execLoopResume_ok
    | with_reducible apply execTestStart_ok | with_reducible apply execTestStop_ok | with_reducible apply noOp_ok | split

theorem coreCommand_ok (h : Ok kp zz s) {w : Word} (kFresh : kp .fresh = true := by assumption) (kAccepted : kp .accepted =
    true := by assumption) (kMem : kp .mem = true := by assumption) (kCores : kp .cores = true := by assumption) (kDmc : kp
    .dmc = true := by assumption) : OkO kp zz (coreCommand w s) := by
  unfold coreCommand
  repeat' first
    | with_reducible assumption | with_reducible apply execCoreHalt_ok | with_reducible apply execCoreRestart_ok
    | with_reducible apply execCoreRun_ok | with_reducible apply noOp_ok | split

theorem laneCommand_ok (h : Ok kp zz s) {n : Nat} {w : Word} (kFresh : kp .fresh = true := by assumption) (kAccepted : kp
    .accepted = true := by assumption) (kSent : kp .sent = true := by assumption) (kAcq : kp .acq = true := by assumption)
    (kLanes : kp .lanes = true := by assumption) (kWot : kp .wot = true := by assumption) (kEth : kp .eth = true := by
    assumption) : OkO kp zz (laneCommand n w s) := by
  unfold laneCommand
  repeat' first
    | with_reducible assumption | with_reducible apply execLaneInject_ok | with_reducible apply execRetrain_ok
    | with_reducible apply noOp_ok | split

theorem wotCommand_ok (h : Ok kp zz s) {w : Word} (kAccepted : kp .accepted = true := by assumption) (kWot : kp .wot = true :=
    by assumption) : OkO kp zz (wotCommand w s) := by
  unfold wotCommand
  repeat' first
    | with_reducible assumption | with_reducible apply execRenumber_ok | with_reducible apply execReroute_ok
    | with_reducible apply noOp_ok | split

theorem gopCommand_ok (h : Ok kp zz s) {w : Word} (kAccepted : kp .accepted = true := by assumption) (kWot : kp .wot = true :=
    by assumption) : OkO kp zz (gopCommand w s) := by
  unfold gopCommand
  repeat' first
    | with_reducible assumption | with_reducible apply okO_ite | with_reducible apply ok_ite | with_reducible apply done_ok
    | with_reducible apply issueGop_ok | split

theorem sfpCommand_ok (h : Ok kp zz s) {k : Nat} {w : Word} (kAccepted : kp .accepted = true := by assumption) : OkO kp zz
    (sfpCommand k w s) := by
  unfold sfpCommand
  repeat' first
    | with_reducible assumption | with_reducible apply okO_ite | with_reducible apply ok_ite | with_reducible apply accept_ok
    | with_reducible apply done_ok | with_reducible apply plainWrite_ok | with_reducible apply reject_ok | split

theorem dmcCommand_ok (h : Ok kp zz s) {w : Word} (kFresh : kp .fresh = true := by assumption) (kAccepted : kp .accepted =
    true := by assumption) (kMem : kp .mem = true := by assumption) (kDmc : kp .dmc = true := by assumption) : OkO kp zz
    (dmcCommand w s) := by
  unfold dmcCommand
  repeat' first
    | with_reducible assumption | with_reducible apply execInit_ok | with_reducible apply execInitResume_ok
    | with_reducible apply execSrEnter_ok | with_reducible apply execSrEnterPasr_ok | with_reducible apply execSrExit_ok
    | with_reducible apply noOp_ok | split

theorem twinCommand_ok (h : Ok kp zz s) {w : Word} (kFresh : kp .fresh = true := by assumption) (kAccepted : kp .accepted =
    true := by assumption) (kSent : kp .sent = true := by assumption) (kOut : kp .out = true := by assumption) (kAcq : kp .acq
    = true := by assumption) (kLanes : kp .lanes = true := by assumption) (kWot : kp .wot = true := by assumption) (kEth : kp
    .eth = true := by assumption) (kTwin : kp .twin = true := by assumption) : OkO kp zz (twinCommand w s) := by
  unfold twinCommand
  repeat' first
    | with_reducible assumption | with_reducible apply execJoin_ok | with_reducible apply execLeave_ok
    | with_reducible apply execSwap_ok | with_reducible apply execTake_ok | with_reducible apply execTwinClear_ok
    | with_reducible apply noOp_ok | split

theorem hltCommand_ok (h : Ok kp zz s) {w : Word} (kAccepted : kp .accepted = true := by assumption) : OkO kp zz (hltCommand w
    s) := by
  unfold hltCommand
  repeat' first
    | with_reducible assumption | with_reducible apply execCounterClear_ok | with_reducible apply execFaultInject_ok
    | with_reducible apply noOp_ok | split

theorem powerCommand_ok (h : Ok kp zz s) {w : Word} (kAccepted : kp .accepted = true := by assumption) (kTbs : kp .tbs = true
    := by assumption) (kPwr : kp .pwr = true := by assumption) : OkO kp zz (powerCommand w s) := by
  unfold powerCommand
  repeat' first
    | with_reducible assumption | with_reducible apply execPwrIdle_ok | with_reducible apply execPwrRest_ok
    | with_reducible apply execPwrRun_ok | with_reducible apply execPwrShelve_ok | with_reducible apply noOp_ok | split

theorem ledgerCommand_ok (h : Ok kp zz s) {w : Word} (kAccepted : kp .accepted = true := by assumption) (kPwr : kp .pwr = true
    := by assumption) : OkO kp zz (ledgerCommand w s) := by
  unfold ledgerCommand
  repeat' first
    | with_reducible assumption | with_reducible apply execLdgRead_ok | with_reducible apply execLdgWrite_ok
    | with_reducible apply noOp_ok | split

theorem writeTop_ok (h : Ok kp zz s) {a : Nat} {w : Word} (kBnd : kp .bnd = true := by assumption) (kFresh : kp .fresh = true
    := by assumption) (kAccepted : kp .accepted = true := by assumption) (kNextRegs : kp .nextRegs = true := by assumption)
    (kMem : kp .mem = true := by assumption) (kSent : kp .sent = true := by assumption) (kTbs : kp .tbs = true := by
    assumption) (kAfe : kp .afe = true := by assumption) (kCnv : kp .cnv = true := by assumption) (kLapInfo : kp .lapInfo =
    true := by assumption) (kRed : kp .red = true := by assumption) (kOut : kp .out = true := by assumption) (kAcq : kp .acq =
    true := by assumption) (kCtl : kp .ctl = true := by assumption) (kCores : kp .cores = true := by assumption) (kLanes : kp
    .lanes = true := by assumption) (kWot : kp .wot = true := by assumption) (kEth : kp .eth = true := by assumption) (kDmc :
    kp .dmc = true := by assumption) (kTwin : kp .twin = true := by assumption) (kHlt : kp .hlt = true := by assumption) (kPwr
    : kp .pwr = true := by assumption) (kSvc : kp .svc = true := by assumption) (kJtag : kp .jtag = true := by assumption) :
    OkO kp zz (writeTop a w s) := by
  unfold writeTop
  repeat' first
    | with_reducible assumption | with_reducible apply okO_ite | with_reducible apply ok_ite | with_reducible apply aonWrite_ok
    | with_reducible apply coreCommand_ok | with_reducible apply done_ok | with_reducible apply plainWrite_ok
    | with_reducible apply powerCommand_ok | with_reducible apply resetCommand_ok | with_reducible apply setPend_ok
    | with_reducible apply setPower_ok | split

theorem writeAfe_ok (h : Ok kp zz s) {a : Nat} {w : Word} (kAccepted : kp .accepted = true := by assumption) (kNextRegs : kp
    .nextRegs = true := by assumption) (kAfe : kp .afe = true := by assumption) : OkO kp zz (writeAfe a w s) := by
  unfold writeAfe
  repeat' first
    | with_reducible assumption | with_reducible apply okO_ite | with_reducible apply ok_ite | with_reducible apply done_ok
    | with_reducible apply execCmwinWrite_ok | with_reducible apply execExcApply_ok | with_reducible apply execPlugEnClear_ok
    | with_reducible apply execResetTrip_ok | with_reducible apply noOp_ok | with_reducible apply plainWrite_ok
    | with_reducible apply wr_ok | split

theorem writeCnv_ok (h : Ok kp zz s) {a : Nat} {w : Word} (kAccepted : kp .accepted = true := by assumption) (kNextRegs : kp
    .nextRegs = true := by assumption) (kCnv : kp .cnv = true := by assumption) : OkO kp zz (writeCnv a w s) := by
  unfold writeCnv
  repeat' first
    | with_reducible assumption | with_reducible apply okO_ite | with_reducible apply ok_ite
    | with_reducible apply calCommand_ok | with_reducible apply done_ok | with_reducible apply execBufEnWrite_ok
    | with_reducible apply execCalEnWrite_ok | with_reducible apply execSkewCmd_ok | with_reducible apply wr_ok
    | (fail_if_no_progress refine ok_mk ?_ (by and_intros <;> first | with_reducible exact Or.inl rfl | exact Or.inr (by assumption)))
    | split

theorem writeAcq_ok (h : Ok kp zz s) {a : Nat} {w : Word} (kAccepted : kp .accepted = true := by assumption) : OkO kp zz
    (writeAcq a w s) := by
  unfold writeAcq
  repeat' first
    | with_reducible assumption | with_reducible apply okO_ite | with_reducible apply ok_ite | with_reducible apply done_ok
    | with_reducible apply execFolioSlotRelease_ok | with_reducible apply ringCommand_ok | with_reducible apply setFlag_ok
    | with_reducible apply wr_ok | split

theorem writeTbs_ok (h : Ok kp zz s) {a : Nat} {w : Word} (kAccepted : kp .accepted = true := by assumption) (kTbs : kp .tbs =
    true := by assumption) : OkO kp zz (writeTbs a w s) := by
  unfold writeTbs
  repeat' first
    | with_reducible assumption | with_reducible apply okO_ite | with_reducible apply ok_ite | with_reducible apply done_ok
    | with_reducible apply execPreset_ok | with_reducible apply mainsCtrlWrite_ok | with_reducible apply noOp_ok
    | with_reducible apply pacerCommand_ok | with_reducible apply pacerCtrlWritten_ok | with_reducible apply slCommand_ok
    | with_reducible apply slCtrlWrite_ok | with_reducible apply tallyCtrlWrite_ok | with_reducible apply wr_ok | split

theorem writeCtl_ok (h : Ok kp zz s) {a : Nat} {w : Word} (kAccepted : kp .accepted = true := by assumption) (kNextRegs : kp
    .nextRegs = true := by assumption) (kOut : kp .out = true := by assumption) (kCtl : kp .ctl = true := by assumption) : OkO
    kp zz (writeCtl a w s) := by
  unfold writeCtl
  repeat' first
    | with_reducible assumption | with_reducible apply okO_ite | with_reducible apply ok_ite
    | with_reducible apply ctlCommand_ok | with_reducible apply done_ok | with_reducible apply execOutputRegisterWrite_ok
    | with_reducible apply execSetpointWrite_ok | with_reducible apply plainWrite_ok | split

theorem writeLane_ok (h : Ok kp zz s) {n : Nat} {a : Nat} {w : Word} (kFresh : kp .fresh = true := by assumption) (kAccepted :
    kp .accepted = true := by assumption) (kSent : kp .sent = true := by assumption) (kAcq : kp .acq = true := by assumption)
    (kLanes : kp .lanes = true := by assumption) (kWot : kp .wot = true := by assumption) (kEth : kp .eth = true := by
    assumption) : OkO kp zz (writeLane n a w s) := by
  unfold writeLane
  try dsimp only
  repeat' first
    | with_reducible assumption | with_reducible apply okO_ite | with_reducible apply okO_next | with_reducible apply okO_fault
    | with_reducible apply okO_refused | with_reducible apply ok_ite | with_reducible apply checkerStart_ok
    | with_reducible apply checkerStop_ok | with_reducible apply done_ok | with_reducible apply genStart_ok
    | with_reducible apply laneCommand_ok | with_reducible apply laneStart_ok | with_reducible apply laneStop_ok
    | with_reducible apply offerTaps_ok | with_reducible apply overrideCtle_ok | with_reducible apply setLane_ok
    | with_reducible apply showLatency_ok | with_reducible apply wr_ok | split | (with_reducible intro u x hu)
    | (with_reducible intro u hu) | dsimp only
    | (fail_if_no_progress refine ok_mk ?_ (by and_intros <;> first | with_reducible exact Or.inl rfl | exact Or.inr (by assumption)))

theorem writeLnk_ok (h : Ok kp zz s) {a : Nat} {w : Word} (kFresh : kp .fresh = true := by assumption) (kAccepted : kp
    .accepted = true := by assumption) (kSent : kp .sent = true := by assumption) (kAcq : kp .acq = true := by assumption)
    (kLanes : kp .lanes = true := by assumption) (kWot : kp .wot = true := by assumption) (kEth : kp .eth = true := by
    assumption) : OkO kp zz (writeLnk a w s) := by
  unfold writeLnk
  try dsimp only
  repeat' first
    | with_reducible assumption | with_reducible apply okO_ite | with_reducible apply okO_next | with_reducible apply okO_fault
    | with_reducible apply okO_refused | with_reducible apply ok_ite | with_reducible apply done_ok
    | with_reducible apply flow_ok | with_reducible apply plainWrite_ok | with_reducible apply writeLane_ok | split
    | (with_reducible intro u x hu) | (with_reducible intro u hu) | dsimp only
    | (fail_if_no_progress refine ok_mk ?_ (by and_intros <;> first | with_reducible exact Or.inl rfl | exact Or.inr (by assumption)))

theorem writeWot_ok (h : Ok kp zz s) {a : Nat} {w : Word} (kAccepted : kp .accepted = true := by assumption) (kWot : kp .wot =
    true := by assumption) : OkO kp zz (writeWot a w s) := by
  unfold writeWot
  try dsimp only
  repeat' first
    | with_reducible assumption | with_reducible apply okO_ite | with_reducible apply okO_next | with_reducible apply okO_fault
    | with_reducible apply okO_refused | with_reducible apply ok_ite | with_reducible apply done_ok
    | with_reducible apply gopCommand_ok | with_reducible apply injStart_ok | with_reducible apply ownDistance_ok
    | with_reducible apply setFlag_ok | with_reducible apply showLink_ok | with_reducible apply takeAddr_ok
    | with_reducible apply wotCommand_ok | with_reducible apply wr_ok | split | (with_reducible intro u x hu)
    | (with_reducible intro u hu) | dsimp only
    | (fail_if_no_progress refine ok_mk ?_ (by and_intros <;> first | with_reducible exact Or.inl rfl | exact Or.inr (by assumption)))

theorem writeEth_ok (h : Ok kp zz s) {a : Nat} {w : Word} (kAccepted : kp .accepted = true := by assumption) (kNextRegs : kp
    .nextRegs = true := by assumption) (kEth : kp .eth = true := by assumption) : OkO kp zz (writeEth a w s) := by
  unfold writeEth
  try dsimp only
  repeat' first
    | with_reducible assumption | with_reducible apply okO_ite | with_reducible apply okO_next | with_reducible apply okO_fault
    | with_reducible apply okO_refused | with_reducible apply ok_ite | with_reducible apply done_ok
    | with_reducible apply parentWrite_ok | with_reducible apply ptpCfgWrite_ok | with_reducible apply sfpCommand_ok
    | with_reducible apply wr_ok | split | (with_reducible intro u x hu) | (with_reducible intro u hu) | dsimp only
    | (fail_if_no_progress refine ok_mk ?_ (by and_intros <;> first | with_reducible exact Or.inl rfl | exact Or.inr (by assumption)))

theorem writeDmc_ok (h : Ok kp zz s) {a : Nat} {w : Word} (kFresh : kp .fresh = true := by assumption) (kAccepted : kp
    .accepted = true := by assumption) (kMem : kp .mem = true := by assumption) (kDmc : kp .dmc = true := by assumption) : OkO
    kp zz (writeDmc a w s) := by
  unfold writeDmc
  repeat' first
    | with_reducible assumption | with_reducible apply okO_ite | with_reducible apply ok_ite
    | with_reducible apply dmcCommand_ok | with_reducible apply done_ok | with_reducible apply execGrainWrite_ok
    | with_reducible apply wr_ok | split

theorem writeTwn_ok (h : Ok kp zz s) {a : Nat} {w : Word} (kFresh : kp .fresh = true := by assumption) (kAccepted : kp
    .accepted = true := by assumption) (kSent : kp .sent = true := by assumption) (kOut : kp .out = true := by assumption)
    (kAcq : kp .acq = true := by assumption) (kLanes : kp .lanes = true := by assumption) (kWot : kp .wot = true := by
    assumption) (kEth : kp .eth = true := by assumption) (kTwin : kp .twin = true := by assumption) : OkO kp zz (writeTwn a w
    s) := by
  unfold writeTwn
  repeat' first
    | with_reducible assumption | with_reducible apply okO_ite | with_reducible apply ok_ite | with_reducible apply done_ok
    | with_reducible apply execTwinEnable_ok | with_reducible apply twinCommand_ok | with_reducible apply wr_ok | split

theorem writeHlt_ok (h : Ok kp zz s) {a : Nat} {w : Word} (kAccepted : kp .accepted = true := by assumption) : OkO kp zz
    (writeHlt a w s) := by
  unfold writeHlt
  repeat' first
    | with_reducible assumption | with_reducible apply okO_ite | with_reducible apply okO_next | with_reducible apply okO_fault
    | with_reducible apply okO_refused | with_reducible apply ok_ite | with_reducible apply done_ok
    | with_reducible apply hltCommand_ok | with_reducible apply plainWrite_ok | with_reducible apply rejudge_ok
    | with_reducible apply showLockstep_ok | split | (with_reducible intro u x hu) | (with_reducible intro u hu) | dsimp only
    | (fail_if_no_progress refine ok_mk ?_ (by and_intros <;> first | with_reducible exact Or.inl rfl | exact Or.inr (by assumption)))

theorem writeReg_ok (h : Ok kp zz s) {a : Nat} {w : Word} (kBnd : kp .bnd = true := by assumption) (kFresh : kp .fresh = true
    := by assumption) (kAccepted : kp .accepted = true := by assumption) (kNextRegs : kp .nextRegs = true := by assumption)
    (kMem : kp .mem = true := by assumption) (kSent : kp .sent = true := by assumption) (kTbs : kp .tbs = true := by
    assumption) (kAfe : kp .afe = true := by assumption) (kCnv : kp .cnv = true := by assumption) (kLapInfo : kp .lapInfo =
    true := by assumption) (kRed : kp .red = true := by assumption) (kOut : kp .out = true := by assumption) (kAcq : kp .acq =
    true := by assumption) (kCtl : kp .ctl = true := by assumption) (kCores : kp .cores = true := by assumption) (kLanes : kp
    .lanes = true := by assumption) (kWot : kp .wot = true := by assumption) (kEth : kp .eth = true := by assumption) (kDmc :
    kp .dmc = true := by assumption) (kTwin : kp .twin = true := by assumption) (kHlt : kp .hlt = true := by assumption) (kPwr
    : kp .pwr = true := by assumption) (kSvc : kp .svc = true := by assumption) (kJtag : kp .jtag = true := by assumption) :
    OkO kp zz (writeReg a w s) := by
  unfold writeReg
  repeat' first
    | with_reducible assumption | with_reducible apply done_ok | with_reducible apply ledgerCommand_ok
    | with_reducible apply plainWrite_ok | with_reducible apply redCommand_ok | with_reducible apply writeAcq_ok
    | with_reducible apply writeAfe_ok | with_reducible apply writeCnv_ok | with_reducible apply writeCtl_ok
    | with_reducible apply writeDmc_ok | with_reducible apply writeEth_ok | with_reducible apply writeHlt_ok
    | with_reducible apply writeLnk_ok | with_reducible apply writeTbs_ok | with_reducible apply writeTop_ok
    | with_reducible apply writeTwn_ok | with_reducible apply writeWot_ok | split

theorem writeTable_ok (h : Ok kp zz s) {a : Nat} {w : Word} (kTbs : kp .tbs = true := by assumption) (kRed : kp .red = true :=
    by assumption) : OkO kp zz (writeTable a w s) := by
  unfold writeTable
  repeat' first
    | with_reducible assumption | with_reducible apply okO_ite | with_reducible apply ok_ite | with_reducible apply okO_fault
    | with_reducible apply okO_refused | with_reducible apply done_ok | (refine (slWrite_ok ?_) _ (by assumption))
    | with_reducible apply wr_ok
    | (fail_if_no_progress refine ok_mk ?_ (by and_intros <;> first | with_reducible exact Or.inl rfl | exact Or.inr (by assumption)))
    | split

theorem busWrite_ok (h : Ok kp zz s) {a : Nat} {w : Word} (kBnd : kp .bnd = true := by assumption) (kFresh : kp .fresh = true
    := by assumption) (kAccepted : kp .accepted = true := by assumption) (kNextRegs : kp .nextRegs = true := by assumption)
    (kMem : kp .mem = true := by assumption) (kSent : kp .sent = true := by assumption) (kTbs : kp .tbs = true := by
    assumption) (kAfe : kp .afe = true := by assumption) (kCnv : kp .cnv = true := by assumption) (kLapInfo : kp .lapInfo =
    true := by assumption) (kRed : kp .red = true := by assumption) (kOut : kp .out = true := by assumption) (kAcq : kp .acq =
    true := by assumption) (kCtl : kp .ctl = true := by assumption) (kCores : kp .cores = true := by assumption) (kLanes : kp
    .lanes = true := by assumption) (kWot : kp .wot = true := by assumption) (kEth : kp .eth = true := by assumption) (kDmc :
    kp .dmc = true := by assumption) (kTwin : kp .twin = true := by assumption) (kHlt : kp .hlt = true := by assumption) (kPwr
    : kp .pwr = true := by assumption) (kSvc : kp .svc = true := by assumption) (kJtag : kp .jtag = true := by assumption) :
    OkO kp zz (busWrite a w s) := by
  unfold busWrite
  repeat' first
    | with_reducible assumption | with_reducible apply okO_ite | with_reducible apply ok_ite | with_reducible apply done_ok
    | with_reducible apply writeReg_ok | with_reducible apply writeTable_ok | split

theorem laneRead_ok (h : Ok kp zz s) {a : Nat} (kFresh : kp .fresh = true := by assumption) (kSent : kp .sent = true := by
    assumption) (kAcq : kp .acq = true := by assumption) (kLanes : kp .lanes = true := by assumption) : Ok kp zz (laneRead a
    s) := by
  unfold laneRead
  repeat' first
    | with_reducible assumption | with_reducible apply ok_ite | with_reducible apply flow_ok | split
    | (with_reducible intro u x hu) | (with_reducible intro u hu) | dsimp only
    | (fail_if_no_progress refine ok_mk ?_ (by and_intros <;> first | with_reducible exact Or.inl rfl | exact Or.inr (by assumption)))

theorem latch_ok (h : Ok kp zz s) {a : Nat} : Ok kp zz (latch a s) := by
  unfold latch
  repeat' first
    | with_reducible assumption | with_reducible apply setInt_ok | with_reducible apply wr_ok | with_reducible apply wrPair_ok
    | split

theorem refresh_ok (h : Ok kp zz s) {a : Nat} (kFresh : kp .fresh = true := by assumption) (kCores : kp .cores = true := by
    assumption) : Ok kp zz (refresh a s) := by
  unfold refresh
  try dsimp only
  repeat' first
    | with_reducible assumption | with_reducible apply ok_ite | with_reducible apply look_ok | with_reducible apply lookStep_ok
    | with_reducible apply setFld_ok | with_reducible apply showIndication_ok | with_reducible apply showSelf_ok
    | with_reducible apply thawLane_ok | with_reducible apply wr_ok | split | (with_reducible intro u x hu)
    | (with_reducible intro u hu) | dsimp only
    | (fail_if_no_progress refine ok_mk ?_ (by and_intros <;> first | with_reducible exact Or.inl rfl | exact Or.inr (by assumption)))

theorem clearRow_ok (h : Ok kp zz s) {o : Option RegRow} {a : Nat} : Ok kp zz (clearRow o a s) := by
  unfold clearRow
  repeat' first
    | with_reducible assumption | with_reducible apply wr_ok | split

theorem restartPeak_ok (h : Ok kp zz s) {a : Nat} : Ok kp zz (restartPeak a s) := by
  unfold restartPeak
  repeat' first
    | with_reducible assumption | with_reducible apply ok_ite | with_reducible apply setFld_ok | split
    | (with_reducible intro u x hu) | (with_reducible intro u hu) | dsimp only
    | (fail_if_no_progress refine ok_mk ?_ (by and_intros <;> first | with_reducible exact Or.inl rfl | exact Or.inr (by assumption)))

theorem clearRc_ok (h : Ok kp zz s) {a : Nat} : Ok kp zz (clearRc a s) := by
  unfold clearRc
  repeat' first
    | with_reducible assumption | with_reducible apply ok_ite | with_reducible apply clearRow_ok
    | with_reducible apply restartPeak_ok | split | (with_reducible intro u x hu) | (with_reducible intro u hu) | dsimp only
    | (fail_if_no_progress refine ok_mk ?_ (by and_intros <;> first | with_reducible exact Or.inl rfl | exact Or.inr (by assumption)))

theorem busRead_ok (h : Ok kp zz s) {a : Nat} (kFresh : kp .fresh = true := by assumption) (kSent : kp .sent = true := by
    assumption) (kAcq : kp .acq = true := by assumption) (kCores : kp .cores = true := by assumption) (kLanes : kp .lanes =
    true := by assumption) : Ok kp zz (busRead a s).2 := by
  unfold busRead
  try dsimp only
  repeat' first
    | with_reducible assumption | with_reducible apply ok_ite2 | with_reducible assumption | with_reducible apply ok_ite
    | with_reducible apply clearRc_ok | with_reducible apply laneRead_ok | with_reducible apply latch_ok
    | with_reducible apply readStamp_ok | with_reducible apply refresh_ok | split | (with_reducible intro u x hu)
    | (with_reducible intro u hu) | dsimp only
    | (fail_if_no_progress refine ok_mk ?_ (by and_intros <;> first | with_reducible exact Or.inl rfl | exact Or.inr (by assumption)))

theorem execRegisterWrite_ok (h : Ok kp zz s) {addr : Nat} {value : Word} (kBnd : kp .bnd = true := by assumption) (kFresh :
    kp .fresh = true := by assumption) (kAccepted : kp .accepted = true := by assumption) (kNextRegs : kp .nextRegs = true :=
    by assumption) (kMem : kp .mem = true := by assumption) (kSent : kp .sent = true := by assumption) (kTbs : kp .tbs = true
    := by assumption) (kAfe : kp .afe = true := by assumption) (kCnv : kp .cnv = true := by assumption) (kLapInfo : kp
    .lapInfo = true := by assumption) (kRed : kp .red = true := by assumption) (kOut : kp .out = true := by assumption) (kAcq
    : kp .acq = true := by assumption) (kCtl : kp .ctl = true := by assumption) (kCores : kp .cores = true := by assumption)
    (kLanes : kp .lanes = true := by assumption) (kWot : kp .wot = true := by assumption) (kEth : kp .eth = true := by
    assumption) (kDmc : kp .dmc = true := by assumption) (kTwin : kp .twin = true := by assumption) (kHlt : kp .hlt = true :=
    by assumption) (kPwr : kp .pwr = true := by assumption) (kSvc : kp .svc = true := by assumption) (kJtag : kp .jtag = true
    := by assumption) : OkO kp zz (execRegisterWrite addr value s) := by
  unfold execRegisterWrite
  repeat' first
    | with_reducible assumption | with_reducible apply okO_ite | with_reducible apply ok_ite | with_reducible apply busWrite_ok
    | with_reducible apply done_ok | split

theorem execRcRead_ok (h : Ok kp zz s) {addr : Nat} (kFresh : kp .fresh = true := by assumption) (kSent : kp .sent = true :=
    by assumption) (kAcq : kp .acq = true := by assumption) (kCores : kp .cores = true := by assumption) (kLanes : kp .lanes =
    true := by assumption) : OkO kp zz (execRcRead addr s) := by
  unfold execRcRead
  repeat' first
    | with_reducible assumption | with_reducible apply okO_ite | with_reducible apply ok_ite2 | with_reducible apply ok_ite
    | with_reducible apply busRead_ok | with_reducible apply done_ok | split

theorem execLatchingRead_ok (h : Ok kp zz s) {addr : Nat} {ofs : Nat} (kFresh : kp .fresh = true := by assumption) (kSent : kp
    .sent = true := by assumption) (kTbs : kp .tbs = true := by assumption) (kAcq : kp .acq = true := by assumption) (kCores :
    kp .cores = true := by assumption) (kLanes : kp .lanes = true := by assumption) : OkO kp zz (execLatchingRead addr ofs s)
    := by
  unfold execLatchingRead
  repeat' first
    | with_reducible assumption | with_reducible apply okO_ite | with_reducible apply ok_ite2 | with_reducible apply ok_ite
    | with_reducible apply atOfs_ok | with_reducible apply busRead_ok | with_reducible apply done_ok | split

theorem execResultRegisterRead_ok (h : Ok kp zz s) {addr : Nat} (kFresh : kp .fresh = true := by assumption) (kSent : kp .sent
    = true := by assumption) (kAcq : kp .acq = true := by assumption) (kCores : kp .cores = true := by assumption) (kLanes :
    kp .lanes = true := by assumption) : OkO kp zz (execResultRegisterRead addr s) := by
  unfold execResultRegisterRead
  repeat' first
    | with_reducible assumption | with_reducible apply okO_ite | with_reducible apply ok_ite2 | with_reducible apply ok_ite
    | with_reducible apply busRead_ok | with_reducible apply done_ok | split

theorem spiZeros_ok (h : Ok kp zz s) (kSent : kp .sent = true := by assumption) : Ok kp zz (spiZeros s) := by
  unfold spiZeros
  repeat' first
    | with_reducible assumption | with_reducible apply emit_ok

theorem execSpiWrite_ok (h : Ok kp zz s) {table : Bool} {offset : BitVec 24} {value : Word} (kBnd : kp .bnd = true := by
    assumption) (kFresh : kp .fresh = true := by assumption) (kAccepted : kp .accepted = true := by assumption) (kNextRegs :
    kp .nextRegs = true := by assumption) (kMem : kp .mem = true := by assumption) (kSent : kp .sent = true := by assumption)
    (kTbs : kp .tbs = true := by assumption) (kAfe : kp .afe = true := by assumption) (kCnv : kp .cnv = true := by assumption)
    (kLapInfo : kp .lapInfo = true := by assumption) (kRed : kp .red = true := by assumption) (kOut : kp .out = true := by
    assumption) (kAcq : kp .acq = true := by assumption) (kCtl : kp .ctl = true := by assumption) (kCores : kp .cores = true
    := by assumption) (kLanes : kp .lanes = true := by assumption) (kWot : kp .wot = true := by assumption) (kEth : kp .eth =
    true := by assumption) (kDmc : kp .dmc = true := by assumption) (kTwin : kp .twin = true := by assumption) (kHlt : kp .hlt
    = true := by assumption) (kPwr : kp .pwr = true := by assumption) (kSvc : kp .svc = true := by assumption) (kJtag : kp
    .jtag = true := by assumption) : OkO kp zz (execSpiWrite table offset value s) := by
  unfold execSpiWrite
  repeat' first
    | with_reducible assumption | with_reducible apply okO_ite | with_reducible apply ok_ite | with_reducible apply busWrite_ok
    | with_reducible apply done_ok | with_reducible apply raise_ok | with_reducible apply spiZeros_ok | split

theorem spiQueue_ok (h : Ok kp zz s) {offset : Nat} {err : Bool} {value : Word} (kCores : kp .cores = true := by assumption) :
    Ok kp zz (spiQueue offset err value s) := by
  unfold spiQueue
  repeat' first
    | with_reducible assumption | with_reducible apply ok_ite | with_reducible apply addSat_ok | with_reducible apply raise_ok
    | with_reducible apply setFlag_ok
    | (fail_if_no_progress refine ok_mk ?_ (by and_intros <;> first | with_reducible exact Or.inl rfl | exact Or.inr (by assumption)))
    | split

theorem execSpiRead_ok (h : Ok kp zz s) {table : Bool} {offset : BitVec 24} (kFresh : kp .fresh = true := by assumption)
    (kSent : kp .sent = true := by assumption) (kAcq : kp .acq = true := by assumption) (kCores : kp .cores = true := by
    assumption) (kLanes : kp .lanes = true := by assumption) : OkO kp zz (execSpiRead table offset s) := by
  unfold execSpiRead
  repeat' first
    | with_reducible assumption | with_reducible apply okO_ite | with_reducible apply ok_ite2 | with_reducible apply ok_ite
    | with_reducible apply busRead_ok | with_reducible apply done_ok | with_reducible apply spiQueue_ok
    | with_reducible apply spiZeros_ok | split

theorem spiTake_ok (h : Ok kp zz s) (kCores : kp .cores = true := by assumption) : Ok kp zz (spiTake s) := by
  unfold spiTake
  try dsimp only
  repeat' first
    | with_reducible assumption | with_reducible apply ok_ite2 | with_reducible assumption | with_reducible apply ok_ite
    | with_reducible apply setQueue_ok | split | (with_reducible intro u x hu) | (with_reducible intro u hu) | dsimp only
    | (fail_if_no_progress refine ok_mk ?_ (by and_intros <;> first | with_reducible exact Or.inl rfl | exact Or.inr (by assumption)))

theorem execSpiResult_ok (h : Ok kp zz s) (kFresh : kp .fresh = true := by assumption) (kSent : kp .sent = true := by
    assumption) (kCores : kp .cores = true := by assumption) : OkO kp zz (execSpiResult s) := by
  unfold execSpiResult
  try dsimp only
  repeat' first
    | with_reducible assumption | with_reducible apply okO_ite | with_reducible apply okO_next | with_reducible apply okO_fault
    | with_reducible apply okO_refused | with_reducible apply ok_ite | with_reducible apply done_ok
    | with_reducible apply emit_ok | with_reducible apply look_ok | with_reducible apply spiTake_ok | split
    | (with_reducible intro u x hu) | (with_reducible intro u hu) | dsimp only
    | (fail_if_no_progress refine ok_mk ?_ (by and_intros <;> first | with_reducible exact Or.inl rfl | exact Or.inr (by assumption)))

theorem execSpiFrameError_ok (h : Ok kp zz s) {op : Fin 4} {clocks : Nat} (kFresh : kp .fresh = true := by assumption) (kSent
    : kp .sent = true := by assumption) (kCores : kp .cores = true := by assumption) : OkO kp zz (execSpiFrameError op clocks
    s) := by
  unfold execSpiFrameError
  try dsimp only
  repeat' first
    | with_reducible assumption | with_reducible apply okO_ite | with_reducible apply okO_next | with_reducible apply okO_fault
    | with_reducible apply okO_refused | with_reducible apply ok_ite | with_reducible apply addSat_ok
    | with_reducible apply done_ok | with_reducible apply emit_ok | with_reducible apply look_ok
    | with_reducible apply spiZeros_ok | split | (with_reducible intro u x hu) | (with_reducible intro u hu) | dsimp only
    | (fail_if_no_progress refine ok_mk ?_ (by and_intros <;> first | with_reducible exact Or.inl rfl | exact Or.inr (by assumption)))

end Sys2Proof.Machine
end

