-- ==== Sys2Proof/Laws/KeepFlags.lean ====
section
/-!
SUPPORT. What the operations of Machine/Flags.lean keep.
-/
namespace Sys2Proof.Machine
open Sys2Proof

set_option Elab.async false
set_option linter.unreachableTactic false
set_option linter.unusedTactic false
set_option linter.unusedVariables false

variable {kp : Comp → Bool} {zz s : State}

theorem setV_ok (h : Ok kp zz s) {n : Nat} {v : Bool} (kCores : kp .cores = true := by assumption) : Ok kp zz (setV n v s) :=
    by
  unfold setV
  repeat' first
    | with_reducible assumption | with_reducible apply setFlags_ok

end Sys2Proof.Machine
end

