-- ==== Sys2Proof/Laws/KeepOperands.lean ====
section
/-!
SUPPORT. What the operations of Machine/Operands.lean keep.
-/
namespace Sys2Proof.Machine
open Sys2Proof

set_option Elab.async false
set_option linter.unreachableTactic false
set_option linter.unusedTactic false
set_option linter.unusedVariables false

variable {kp : Comp → Bool} {zz s : State}

theorem issue_ok (h : Ok kp zz s) {n : Nat} {k : State → Host.Outcome State Fault Refusal} (hk : ∀ u, Ok kp zz u → OkO kp zz
    (k u)) (kFresh : kp .fresh = true := by assumption) (kMem : kp .mem = true := by assumption) (kCores : kp .cores = true :=
    by assumption) (kDmc : kp .dmc = true := by assumption) (kPwr : kp .pwr = true := by assumption) : OkO kp zz (issue n k s)
    := by
  unfold issue
  repeat' first
    | with_reducible assumption | with_reducible apply done_ok | with_reducible apply trap_ok | with_reducible apply hk | split

theorem advance_ok (h : Ok kp zz s) {n : Nat} (kCores : kp .cores = true := by assumption) : Ok kp zz (advance n s) := by
  unfold advance
  repeat' first
    | with_reducible assumption | with_reducible apply setPc_ok

theorem plainOp_ok (h : Ok kp zz s) {n : Nat} {f : State → State} (hf : ∀ u, Ok kp zz u → Ok kp zz (f u)) (kFresh : kp .fresh
    = true := by assumption) (kMem : kp .mem = true := by assumption) (kCores : kp .cores = true := by assumption) (kDmc : kp
    .dmc = true := by assumption) (kPwr : kp .pwr = true := by assumption) : OkO kp zz (plainOp n f s) := by
  unfold plainOp
  repeat' first
    | with_reducible assumption | with_reducible apply advance_ok | with_reducible apply done_ok | with_reducible apply issue_ok
    | with_reducible apply hf | (with_reducible intro u hu)

theorem writeBack_ok (h : Ok kp zz s) {n : Nat} {rb : Nat} {am : Nat} {off : BitVec 13} {size : Nat} (kCores : kp .cores =
    true := by assumption) : Ok kp zz (writeBack n rb am off size s) := by
  unfold writeBack
  repeat' first
    | with_reducible assumption | with_reducible apply ok_ite | with_reducible apply setReg_ok | split

theorem fillLine_ok (h : Ok kp zz s) {n : Nat} {k : Nat} (kFresh : kp .fresh = true := by assumption) (kMem : kp .mem = true
    := by assumption) (kCores : kp .cores = true := by assumption) (kDmc : kp .dmc = true := by assumption) : Ok kp zz
    (fillLine n k s) := by
  unfold fillLine
  try dsimp only
  repeat' first
    | with_reducible assumption | with_reducible apply ok_ite | with_reducible apply dmcOwn_ok
    | with_reducible apply seepOthers_ok | split | (with_reducible intro u x hu) | (with_reducible intro u hu) | dsimp only
    | (fail_if_no_progress refine ok_mk ?_ (by and_intros <;> first | with_reducible exact Or.inl rfl | exact Or.inr (by assumption)))

theorem fetchLine_ok (h : Ok kp zz s) {n : Nat} {a : Nat} (kFresh : kp .fresh = true := by assumption) (kMem : kp .mem = true
    := by assumption) (kCores : kp .cores = true := by assumption) (kDmc : kp .dmc = true := by assumption) : Ok kp zz
    (fetchLine n a s) := by
  unfold fetchLine
  repeat' first
    | with_reducible assumption | with_reducible apply ok_ite | with_reducible apply fillLine_ok | split
    | (with_reducible intro u x hu) | (with_reducible intro u hu) | dsimp only
    | (fail_if_no_progress refine ok_mk ?_ (by and_intros <;> first | with_reducible exact Or.inl rfl | exact Or.inr (by assumption)))

theorem loadBus_ok (h : Ok kp zz s) {size : Nat} {a : Nat} (kFresh : kp .fresh = true := by assumption) (kSent : kp .sent =
    true := by assumption) (kAcq : kp .acq = true := by assumption) (kCores : kp .cores = true := by assumption) (kLanes : kp
    .lanes = true := by assumption) : Ok kp zz (loadBus size a s).2 := by
  unfold loadBus
  repeat' first
    | with_reducible assumption | with_reducible apply ok_ite2 | with_reducible apply ok_ite | with_reducible apply busRead_ok
    | split

theorem loadBytes_ok (h : Ok kp zz s) {n : Nat} {size : Nat} {a0 : Nat} (kFresh : kp .fresh = true := by assumption) (kMem :
    kp .mem = true := by assumption) (kSent : kp .sent = true := by assumption) (kAcq : kp .acq = true := by assumption)
    (kCores : kp .cores = true := by assumption) (kLanes : kp .lanes = true := by assumption) (kDmc : kp .dmc = true := by
    assumption) : Ok kp zz (loadBytes n size a0 s).2 := by
  unfold loadBytes
  repeat' first
    | with_reducible assumption | with_reducible apply ok_ite2 | with_reducible apply ok_ite | with_reducible apply loadBus_ok
    | with_reducible apply loadDram_ok | with_reducible apply seepOthers_ok | split

theorem loadOp_ok (h : Ok kp zz s) {n : Nat} {rb : Nat} {am : Nat} {size : Nat} {off : BitVec 13} {k : List Byte → State →
    State} (hk : ∀ x u, Ok kp zz u → Ok kp zz (k x u)) (kFresh : kp .fresh = true := by assumption) (kMem : kp .mem = true :=
    by assumption) (kSent : kp .sent = true := by assumption) (kAcq : kp .acq = true := by assumption) (kCores : kp .cores =
    true := by assumption) (kLanes : kp .lanes = true := by assumption) (kDmc : kp .dmc = true := by assumption) (kPwr : kp
    .pwr = true := by assumption) : OkO kp zz (loadOp n rb am size off k s) := by
  unfold loadOp
  try dsimp only
  repeat' first
    | with_reducible assumption | with_reducible apply okO_ite | with_reducible apply okO_next | with_reducible apply okO_fault
    | with_reducible apply okO_refused | with_reducible apply ok_ite2 | with_reducible assumption | with_reducible apply ok_ite
    | with_reducible apply advance_ok | with_reducible apply done_ok | (refine (done_ok ?_) _ (by assumption))
    | with_reducible apply fetchLine_ok | with_reducible apply issue_ok | (refine (issue_ok ?_) _ (by assumption))
    | with_reducible apply loadBytes_ok | with_reducible apply trap_ok | with_reducible apply writeBack_ok
    | with_reducible apply hk | split | (with_reducible intro u x hu) | (with_reducible intro u hu) | dsimp only
    | (fail_if_no_progress refine ok_mk ?_ (by and_intros <;> first | with_reducible exact Or.inl rfl | exact Or.inr (by assumption)))

theorem bufferStore_ok (h : Ok kp zz s) {n : Nat} {a : Nat} {bs : List Byte} (kFresh : kp .fresh = true := by assumption)
    (kMem : kp .mem = true := by assumption) (kCores : kp .cores = true := by assumption) (kDmc : kp .dmc = true := by
    assumption) : Ok kp zz (bufferStore n a bs s) := by
  unfold bufferStore
  repeat' first
    | with_reducible assumption | with_reducible apply ok_ite | with_reducible apply drainOne_ok
    | with_reducible apply setCore_ok | split

theorem cacheStore_ok (h : Ok kp zz s) {n : Nat} {a : Nat} {bs : List Byte} (kCores : kp .cores = true := by assumption) : Ok
    kp zz (cacheStore n a bs s) := by
  unfold cacheStore
  repeat' first
    | with_reducible assumption | with_reducible apply setCore_ok

theorem storeMemory_ok (h : Ok kp zz s) {n : Nat} {a : Nat} {bs : List Byte} {fromRom : Bool} (kFresh : kp .fresh = true := by
    assumption) (kMem : kp .mem = true := by assumption) (kCores : kp .cores = true := by assumption) (kDmc : kp .dmc = true
    := by assumption) : Ok kp zz (storeMemory n a bs fromRom s) := by
  unfold storeMemory
  repeat' first
    | with_reducible assumption | with_reducible apply bufferStore_ok | with_reducible apply cacheStore_ok
    | with_reducible apply memWrite_ok | with_reducible apply wakeDram_ok | split

theorem selfHalt_ok {n : Nat} {o : Host.Outcome State Fault Refusal} (h : OkO kp zz o) (kFresh : kp .fresh = true := by assumption) (kAccepted : kp .accepted = true := by assumption) (kMem : kp .mem = true := by assumption) (kCores : kp .cores = true := by assumption) (kDmc : kp .dmc = true := by assumption) : OkO kp zz (selfHalt n o) := by
  unfold selfHalt
  split
  · split
    · exact okO_next (settle_ok (halted_ok (h _ rfl)))
    · exact h
  · exact h

theorem performStore_ok (h : Ok kp zz s) {n : Nat} {a : Nat} {bs : List Byte} {fromRom : Bool} (kBnd : kp .bnd = true := by
    assumption) (kFresh : kp .fresh = true := by assumption) (kAccepted : kp .accepted = true := by assumption) (kNextRegs :
    kp .nextRegs = true := by assumption) (kMem : kp .mem = true := by assumption) (kSent : kp .sent = true := by assumption)
    (kTbs : kp .tbs = true := by assumption) (kAfe : kp .afe = true := by assumption) (kCnv : kp .cnv = true := by assumption)
    (kLapInfo : kp .lapInfo = true := by assumption) (kRed : kp .red = true := by assumption) (kOut : kp .out = true := by
    assumption) (kAcq : kp .acq = true := by assumption) (kCtl : kp .ctl = true := by assumption) (kCores : kp .cores = true
    := by assumption) (kLanes : kp .lanes = true := by assumption) (kWot : kp .wot = true := by assumption) (kEth : kp .eth =
    true := by assumption) (kDmc : kp .dmc = true := by assumption) (kTwin : kp .twin = true := by assumption) (kHlt : kp .hlt
    = true := by assumption) (kPwr : kp .pwr = true := by assumption) (kSvc : kp .svc = true := by assumption) (kJtag : kp
    .jtag = true := by assumption) : OkO kp zz (performStore n a bs fromRom s) := by
  unfold performStore
  repeat' first
    | with_reducible assumption | with_reducible apply okO_ite | with_reducible apply okO_next | with_reducible apply okO_fault
    | with_reducible apply okO_refused | with_reducible apply ok_ite | with_reducible apply busWrite_ok
    | with_reducible apply done_ok | with_reducible apply loosen_ok | with_reducible apply selfHalt_ok
    | with_reducible apply storeMemory_ok | split | (with_reducible intro u x hu) | (with_reducible intro u hu) | dsimp only
    | (fail_if_no_progress refine ok_mk ?_ (by and_intros <;> first | with_reducible exact Or.inl rfl | exact Or.inr (by assumption)))

theorem storeOp_ok (h : Ok kp zz s) {n : Nat} {rb : Nat} {am : Nat} {size : Nat} {off : BitVec 13} {bs : State → List Byte}
    (kBnd : kp .bnd = true := by assumption) (kFresh : kp .fresh = true := by assumption) (kAccepted : kp .accepted = true :=
    by assumption) (kNextRegs : kp .nextRegs = true := by assumption) (kMem : kp .mem = true := by assumption) (kSent : kp
    .sent = true := by assumption) (kTbs : kp .tbs = true := by assumption) (kAfe : kp .afe = true := by assumption) (kCnv :
    kp .cnv = true := by assumption) (kLapInfo : kp .lapInfo = true := by assumption) (kRed : kp .red = true := by assumption)
    (kOut : kp .out = true := by assumption) (kAcq : kp .acq = true := by assumption) (kCtl : kp .ctl = true := by assumption)
    (kCores : kp .cores = true := by assumption) (kLanes : kp .lanes = true := by assumption) (kWot : kp .wot = true := by
    assumption) (kEth : kp .eth = true := by assumption) (kDmc : kp .dmc = true := by assumption) (kTwin : kp .twin = true :=
    by assumption) (kHlt : kp .hlt = true := by assumption) (kPwr : kp .pwr = true := by assumption) (kSvc : kp .svc = true :=
    by assumption) (kJtag : kp .jtag = true := by assumption) : OkO kp zz (storeOp n rb am size off bs s) := by
  unfold storeOp
  try dsimp only
  repeat' first
    | with_reducible assumption | with_reducible apply okO_ite | with_reducible apply okO_next | with_reducible apply okO_fault
    | with_reducible apply okO_refused | with_reducible apply ok_ite | with_reducible apply advance_ok
    | with_reducible apply done_ok | (refine (done_ok ?_) _ (by assumption)) | with_reducible apply issue_ok
    | (refine (issue_ok ?_) _ (by assumption)) | with_reducible apply performStore_ok
    | (refine (performStore_ok ?_) _ (by assumption)) | with_reducible apply trap_ok | with_reducible apply writeBack_ok | split
    | (with_reducible intro u x hu) | (with_reducible intro u hu) | dsimp only
    | (fail_if_no_progress refine ok_mk ?_ (by and_intros <;> first | with_reducible exact Or.inl rfl | exact Or.inr (by assumption)))

end Sys2Proof.Machine
end

