-- ==== Sys2Proof/Laws/KeepIsa.lean ====
section
/-!
SUPPORT. What the operations of Machine/Isa.lean keep.
-/
namespace Sys2Proof.Machine
open Sys2Proof

set_option Elab.async false
set_option linter.unreachableTactic false
set_option linter.unusedTactic false
set_option linter.unusedVariables false

variable {kp : Comp → Bool} {zz s : State}

theorem intOp_ok (h : Ok kp zz s) {n : Nat} {rd : Nat} {r : State → Word} (kFresh : kp .fresh = true := by assumption) (kMem :
    kp .mem = true := by assumption) (kCores : kp .cores = true := by assumption) (kDmc : kp .dmc = true := by assumption)
    (kPwr : kp .pwr = true := by assumption) : OkO kp zz (intOp n rd r s) := by
  unfold intOp
  repeat' first
    | with_reducible assumption | with_reducible apply plainOp_ok | with_reducible apply setReg_ok | (with_reducible intro u hu)

theorem aluOp_ok (h : Ok kp zz s) {n : Nat} {rd : Nat} {f : State → Alu} (kFresh : kp .fresh = true := by assumption) (kMem :
    kp .mem = true := by assumption) (kCores : kp .cores = true := by assumption) (kDmc : kp .dmc = true := by assumption)
    (kPwr : kp .pwr = true := by assumption) : OkO kp zz (aluOp n rd f s) := by
  unfold aluOp
  repeat' first
    | with_reducible assumption | with_reducible apply plainOp_ok | with_reducible apply setFlags_ok
    | with_reducible apply setReg_ok | (with_reducible intro u hu)

theorem cmpOp_ok (h : Ok kp zz s) {n : Nat} {f : State → Alu} (kFresh : kp .fresh = true := by assumption) (kMem : kp .mem =
    true := by assumption) (kCores : kp .cores = true := by assumption) (kDmc : kp .dmc = true := by assumption) (kPwr : kp
    .pwr = true := by assumption) : OkO kp zz (cmpOp n f s) := by
  unfold cmpOp
  repeat' first
    | with_reducible assumption | with_reducible apply plainOp_ok | with_reducible apply setFlags_ok
    | (with_reducible intro u hu)

theorem intVOp_ok (h : Ok kp zz s) {n : Nat} {rd : Nat} {f : State → Word × Bool} (kFresh : kp .fresh = true := by assumption)
    (kMem : kp .mem = true := by assumption) (kCores : kp .cores = true := by assumption) (kDmc : kp .dmc = true := by
    assumption) (kPwr : kp .pwr = true := by assumption) : OkO kp zz (intVOp n rd f s) := by
  unfold intVOp
  repeat' first
    | with_reducible assumption | with_reducible apply plainOp_ok | with_reducible apply setReg_ok
    | with_reducible apply setV_ok | (with_reducible intro u hu)

theorem jumpOp_ok (h : Ok kp zz s) {n : Nat} {f : State → State} {target : State → Nat} (hf : ∀ u, Ok kp zz u → Ok kp zz (f
    u)) (kFresh : kp .fresh = true := by assumption) (kMem : kp .mem = true := by assumption) (kCores : kp .cores = true := by
    assumption) (kDmc : kp .dmc = true := by assumption) (kPwr : kp .pwr = true := by assumption) : OkO kp zz (jumpOp n f
    target s) := by
  unfold jumpOp
  repeat' first
    | with_reducible assumption | with_reducible apply done_ok | with_reducible apply issue_ok | with_reducible apply setPc_ok
    | with_reducible apply hf | (with_reducible intro u hu)

theorem execAdd_ok (h : Ok kp zz s) {n : Fin 5} {rd : Fin 16} {rs : Fin 16} {rt : Fin 16} (kFresh : kp .fresh = true := by
    assumption) (kMem : kp .mem = true := by assumption) (kCores : kp .cores = true := by assumption) (kDmc : kp .dmc = true
    := by assumption) (kPwr : kp .pwr = true := by assumption) : OkO kp zz (execAdd n rd rs rt s) := by
  unfold execAdd
  repeat' first
    | with_reducible assumption | with_reducible apply aluOp_ok

theorem execSub_ok (h : Ok kp zz s) {n : Fin 5} {rd : Fin 16} {rs : Fin 16} {rt : Fin 16} (kFresh : kp .fresh = true := by
    assumption) (kMem : kp .mem = true := by assumption) (kCores : kp .cores = true := by assumption) (kDmc : kp .dmc = true
    := by assumption) (kPwr : kp .pwr = true := by assumption) : OkO kp zz (execSub n rd rs rt s) := by
  unfold execSub
  repeat' first
    | with_reducible assumption | with_reducible apply aluOp_ok

theorem execAnd_ok (h : Ok kp zz s) {n : Fin 5} {rd : Fin 16} {rs : Fin 16} {rt : Fin 16} (kFresh : kp .fresh = true := by
    assumption) (kMem : kp .mem = true := by assumption) (kCores : kp .cores = true := by assumption) (kDmc : kp .dmc = true
    := by assumption) (kPwr : kp .pwr = true := by assumption) : OkO kp zz (execAnd n rd rs rt s) := by
  unfold execAnd
  repeat' first
    | with_reducible assumption | with_reducible apply aluOp_ok

theorem execOr_ok (h : Ok kp zz s) {n : Fin 5} {rd : Fin 16} {rs : Fin 16} {rt : Fin 16} (kFresh : kp .fresh = true := by
    assumption) (kMem : kp .mem = true := by assumption) (kCores : kp .cores = true := by assumption) (kDmc : kp .dmc = true
    := by assumption) (kPwr : kp .pwr = true := by assumption) : OkO kp zz (execOr n rd rs rt s) := by
  unfold execOr
  repeat' first
    | with_reducible assumption | with_reducible apply aluOp_ok

theorem execXor_ok (h : Ok kp zz s) {n : Fin 5} {rd : Fin 16} {rs : Fin 16} {rt : Fin 16} (kFresh : kp .fresh = true := by
    assumption) (kMem : kp .mem = true := by assumption) (kCores : kp .cores = true := by assumption) (kDmc : kp .dmc = true
    := by assumption) (kPwr : kp .pwr = true := by assumption) : OkO kp zz (execXor n rd rs rt s) := by
  unfold execXor
  repeat' first
    | with_reducible assumption | with_reducible apply aluOp_ok

theorem execShl_ok (h : Ok kp zz s) {n : Fin 5} {rd : Fin 16} {rs : Fin 16} {rt : Fin 16} (kFresh : kp .fresh = true := by
    assumption) (kMem : kp .mem = true := by assumption) (kCores : kp .cores = true := by assumption) (kDmc : kp .dmc = true
    := by assumption) (kPwr : kp .pwr = true := by assumption) : OkO kp zz (execShl n rd rs rt s) := by
  unfold execShl
  repeat' first
    | with_reducible assumption | with_reducible apply aluOp_ok

theorem execShr_ok (h : Ok kp zz s) {n : Fin 5} {rd : Fin 16} {rs : Fin 16} {rt : Fin 16} (kFresh : kp .fresh = true := by
    assumption) (kMem : kp .mem = true := by assumption) (kCores : kp .cores = true := by assumption) (kDmc : kp .dmc = true
    := by assumption) (kPwr : kp .pwr = true := by assumption) : OkO kp zz (execShr n rd rs rt s) := by
  unfold execShr
  repeat' first
    | with_reducible assumption | with_reducible apply aluOp_ok

theorem execSar_ok (h : Ok kp zz s) {n : Fin 5} {rd : Fin 16} {rs : Fin 16} {rt : Fin 16} (kFresh : kp .fresh = true := by
    assumption) (kMem : kp .mem = true := by assumption) (kCores : kp .cores = true := by assumption) (kDmc : kp .dmc = true
    := by assumption) (kPwr : kp .pwr = true := by assumption) : OkO kp zz (execSar n rd rs rt s) := by
  unfold execSar
  repeat' first
    | with_reducible assumption | with_reducible apply aluOp_ok

theorem execMul_ok (h : Ok kp zz s) {n : Fin 5} {rd : Fin 16} {rs : Fin 16} {rt : Fin 16} (kFresh : kp .fresh = true := by
    assumption) (kMem : kp .mem = true := by assumption) (kCores : kp .cores = true := by assumption) (kDmc : kp .dmc = true
    := by assumption) (kPwr : kp .pwr = true := by assumption) : OkO kp zz (execMul n rd rs rt s) := by
  unfold execMul
  repeat' first
    | with_reducible assumption | with_reducible apply intOp_ok

theorem execMulh_ok (h : Ok kp zz s) {n : Fin 5} {rd : Fin 16} {rs : Fin 16} {rt : Fin 16} (kFresh : kp .fresh = true := by
    assumption) (kMem : kp .mem = true := by assumption) (kCores : kp .cores = true := by assumption) (kDmc : kp .dmc = true
    := by assumption) (kPwr : kp .pwr = true := by assumption) : OkO kp zz (execMulh n rd rs rt s) := by
  unfold execMulh
  repeat' first
    | with_reducible assumption | with_reducible apply intOp_ok

theorem execDiv_ok (h : Ok kp zz s) {n : Fin 5} {rd : Fin 16} {rs : Fin 16} {rt : Fin 16} (kFresh : kp .fresh = true := by
    assumption) (kMem : kp .mem = true := by assumption) (kCores : kp .cores = true := by assumption) (kDmc : kp .dmc = true
    := by assumption) (kPwr : kp .pwr = true := by assumption) : OkO kp zz (execDiv n rd rs rt s) := by
  unfold execDiv
  repeat' first
    | with_reducible assumption | with_reducible apply intVOp_ok

theorem execDivu_ok (h : Ok kp zz s) {n : Fin 5} {rd : Fin 16} {rs : Fin 16} {rt : Fin 16} (kFresh : kp .fresh = true := by
    assumption) (kMem : kp .mem = true := by assumption) (kCores : kp .cores = true := by assumption) (kDmc : kp .dmc = true
    := by assumption) (kPwr : kp .pwr = true := by assumption) : OkO kp zz (execDivu n rd rs rt s) := by
  unfold execDivu
  repeat' first
    | with_reducible assumption | with_reducible apply intVOp_ok

theorem execMin_ok (h : Ok kp zz s) {n : Fin 5} {rd : Fin 16} {rs : Fin 16} {rt : Fin 16} (kFresh : kp .fresh = true := by
    assumption) (kMem : kp .mem = true := by assumption) (kCores : kp .cores = true := by assumption) (kDmc : kp .dmc = true
    := by assumption) (kPwr : kp .pwr = true := by assumption) : OkO kp zz (execMin n rd rs rt s) := by
  unfold execMin
  repeat' first
    | with_reducible assumption | with_reducible apply intOp_ok

theorem execMax_ok (h : Ok kp zz s) {n : Fin 5} {rd : Fin 16} {rs : Fin 16} {rt : Fin 16} (kFresh : kp .fresh = true := by
    assumption) (kMem : kp .mem = true := by assumption) (kCores : kp .cores = true := by assumption) (kDmc : kp .dmc = true
    := by assumption) (kPwr : kp .pwr = true := by assumption) : OkO kp zz (execMax n rd rs rt s) := by
  unfold execMax
  repeat' first
    | with_reducible assumption | with_reducible apply intOp_ok

theorem execCmp_ok (h : Ok kp zz s) {n : Fin 5} {rs : Fin 16} {rt : Fin 16} (kFresh : kp .fresh = true := by assumption) (kMem
    : kp .mem = true := by assumption) (kCores : kp .cores = true := by assumption) (kDmc : kp .dmc = true := by assumption)
    (kPwr : kp .pwr = true := by assumption) : OkO kp zz (execCmp n rs rt s) := by
  unfold execCmp
  repeat' first
    | with_reducible assumption | with_reducible apply cmpOp_ok

theorem execJr_ok (h : Ok kp zz s) {n : Fin 5} {rs : Fin 16} (kFresh : kp .fresh = true := by assumption) (kMem : kp .mem =
    true := by assumption) (kCores : kp .cores = true := by assumption) (kDmc : kp .dmc = true := by assumption) (kPwr : kp
    .pwr = true := by assumption) : OkO kp zz (execJr n rs s) := by
  unfold execJr
  repeat' first
    | with_reducible assumption | with_reducible apply jumpOp_ok | (with_reducible intro u hu)

theorem execJalr_ok (h : Ok kp zz s) {n : Fin 5} {rd : Fin 16} {rs : Fin 16} (kFresh : kp .fresh = true := by assumption)
    (kMem : kp .mem = true := by assumption) (kCores : kp .cores = true := by assumption) (kDmc : kp .dmc = true := by
    assumption) (kPwr : kp .pwr = true := by assumption) : OkO kp zz (execJalr n rd rs s) := by
  unfold execJalr
  repeat' first
    | with_reducible assumption | with_reducible apply jumpOp_ok | with_reducible apply setReg_ok | (with_reducible intro u hu)

theorem execAddi_ok (h : Ok kp zz s) {n : Fin 5} {rd : Fin 16} {rs : Fin 16} {imm : BitVec 14} (kFresh : kp .fresh = true :=
    by assumption) (kMem : kp .mem = true := by assumption) (kCores : kp .cores = true := by assumption) (kDmc : kp .dmc =
    true := by assumption) (kPwr : kp .pwr = true := by assumption) : OkO kp zz (execAddi n rd rs imm s) := by
  unfold execAddi
  repeat' first
    | with_reducible assumption | with_reducible apply aluOp_ok

theorem execAndi_ok (h : Ok kp zz s) {n : Fin 5} {rd : Fin 16} {rs : Fin 16} {imm : BitVec 14} (kFresh : kp .fresh = true :=
    by assumption) (kMem : kp .mem = true := by assumption) (kCores : kp .cores = true := by assumption) (kDmc : kp .dmc =
    true := by assumption) (kPwr : kp .pwr = true := by assumption) : OkO kp zz (execAndi n rd rs imm s) := by
  unfold execAndi
  repeat' first
    | with_reducible assumption | with_reducible apply aluOp_ok

theorem execOri_ok (h : Ok kp zz s) {n : Fin 5} {rd : Fin 16} {rs : Fin 16} {imm : BitVec 14} (kFresh : kp .fresh = true := by
    assumption) (kMem : kp .mem = true := by assumption) (kCores : kp .cores = true := by assumption) (kDmc : kp .dmc = true
    := by assumption) (kPwr : kp .pwr = true := by assumption) : OkO kp zz (execOri n rd rs imm s) := by
  unfold execOri
  repeat' first
    | with_reducible assumption | with_reducible apply aluOp_ok

theorem execXori_ok (h : Ok kp zz s) {n : Fin 5} {rd : Fin 16} {rs : Fin 16} {imm : BitVec 14} (kFresh : kp .fresh = true :=
    by assumption) (kMem : kp .mem = true := by assumption) (kCores : kp .cores = true := by assumption) (kDmc : kp .dmc =
    true := by assumption) (kPwr : kp .pwr = true := by assumption) : OkO kp zz (execXori n rd rs imm s) := by
  unfold execXori
  repeat' first
    | with_reducible assumption | with_reducible apply aluOp_ok

theorem execShli_ok (h : Ok kp zz s) {n : Fin 5} {rd : Fin 16} {rs : Fin 16} {sh : BitVec 5} (kFresh : kp .fresh = true := by
    assumption) (kMem : kp .mem = true := by assumption) (kCores : kp .cores = true := by assumption) (kDmc : kp .dmc = true
    := by assumption) (kPwr : kp .pwr = true := by assumption) : OkO kp zz (execShli n rd rs sh s) := by
  unfold execShli
  repeat' first
    | with_reducible assumption | with_reducible apply aluOp_ok

theorem execShri_ok (h : Ok kp zz s) {n : Fin 5} {rd : Fin 16} {rs : Fin 16} {sh : BitVec 5} (kFresh : kp .fresh = true := by
    assumption) (kMem : kp .mem = true := by assumption) (kCores : kp .cores = true := by assumption) (kDmc : kp .dmc = true
    := by assumption) (kPwr : kp .pwr = true := by assumption) : OkO kp zz (execShri n rd rs sh s) := by
  unfold execShri
  repeat' first
    | with_reducible assumption | with_reducible apply aluOp_ok

theorem execSari_ok (h : Ok kp zz s) {n : Fin 5} {rd : Fin 16} {rs : Fin 16} {sh : BitVec 5} (kFresh : kp .fresh = true := by
    assumption) (kMem : kp .mem = true := by assumption) (kCores : kp .cores = true := by assumption) (kDmc : kp .dmc = true
    := by assumption) (kPwr : kp .pwr = true := by assumption) : OkO kp zz (execSari n rd rs sh s) := by
  unfold execSari
  repeat' first
    | with_reducible assumption | with_reducible apply aluOp_ok

theorem execCmpi_ok (h : Ok kp zz s) {n : Fin 5} {rs : Fin 16} {imm : BitVec 14} (kFresh : kp .fresh = true := by assumption)
    (kMem : kp .mem = true := by assumption) (kCores : kp .cores = true := by assumption) (kDmc : kp .dmc = true := by
    assumption) (kPwr : kp .pwr = true := by assumption) : OkO kp zz (execCmpi n rs imm s) := by
  unfold execCmpi
  repeat' first
    | with_reducible assumption | with_reducible apply cmpOp_ok

theorem execLui_ok (h : Ok kp zz s) {n : Fin 5} {rd : Fin 16} {imm : BitVec 18} (kFresh : kp .fresh = true := by assumption)
    (kMem : kp .mem = true := by assumption) (kCores : kp .cores = true := by assumption) (kDmc : kp .dmc = true := by
    assumption) (kPwr : kp .pwr = true := by assumption) : OkO kp zz (execLui n rd imm s) := by
  unfold execLui
  repeat' first
    | with_reducible assumption | with_reducible apply intOp_ok

theorem setAcc_ok (h : Ok kp zz s) {n : Nat} {one : Bool} {v : Int} (kCores : kp .cores = true := by assumption) : Ok kp zz
    (setAcc n one v s) := by
  unfold setAcc
  repeat' first
    | with_reducible assumption | with_reducible apply setCore_ok

theorem accumulate_ok (h : Ok kp zz s) {n : Nat} {one : Bool} {f : State → Int} (kFresh : kp .fresh = true := by assumption)
    (kMem : kp .mem = true := by assumption) (kCores : kp .cores = true := by assumption) (kDmc : kp .dmc = true := by
    assumption) (kPwr : kp .pwr = true := by assumption) : OkO kp zz (accumulate n one f s) := by
  unfold accumulate
  repeat' first
    | with_reducible assumption | with_reducible apply plainOp_ok | with_reducible apply setAcc_ok
    | with_reducible apply setV_ok | (with_reducible intro u hu)

theorem execMac_ok (h : Ok kp zz s) {n : Fin 5} {acc : Bool} {rs : Fin 16} {rt : Fin 16} (kFresh : kp .fresh = true := by
    assumption) (kMem : kp .mem = true := by assumption) (kCores : kp .cores = true := by assumption) (kDmc : kp .dmc = true
    := by assumption) (kPwr : kp .pwr = true := by assumption) : OkO kp zz (execMac n acc rs rt s) := by
  unfold execMac
  repeat' first
    | with_reducible assumption | with_reducible apply accumulate_ok

theorem execMsu_ok (h : Ok kp zz s) {n : Fin 5} {acc : Bool} {rs : Fin 16} {rt : Fin 16} (kFresh : kp .fresh = true := by
    assumption) (kMem : kp .mem = true := by assumption) (kCores : kp .cores = true := by assumption) (kDmc : kp .dmc = true
    := by assumption) (kPwr : kp .pwr = true := by assumption) : OkO kp zz (execMsu n acc rs rt s) := by
  unfold execMsu
  repeat' first
    | with_reducible assumption | with_reducible apply accumulate_ok

theorem execAccr_ok (h : Ok kp zz s) {n : Fin 5} {rd : Fin 16} {acc : Bool} {raw : Bool} {sh : Fin 64} (kFresh : kp .fresh =
    true := by assumption) (kMem : kp .mem = true := by assumption) (kCores : kp .cores = true := by assumption) (kDmc : kp
    .dmc = true := by assumption) (kPwr : kp .pwr = true := by assumption) : OkO kp zz (execAccr n rd acc raw sh s) := by
  unfold execAccr
  repeat' first
    | with_reducible assumption | with_reducible apply okO_ite | with_reducible apply ok_ite2 | with_reducible apply ok_ite
    | with_reducible apply advance_ok | with_reducible apply done_ok | with_reducible apply intVOp_ok
    | with_reducible apply issue_ok | with_reducible apply setReg_ok | with_reducible apply trap_ok
    | (with_reducible intro u hu) | split

theorem execAccw_ok (h : Ok kp zz s) {n : Fin 5} {acc : Bool} {clear : Bool} {rs : Fin 16} {rt : Fin 16} (kFresh : kp .fresh =
    true := by assumption) (kMem : kp .mem = true := by assumption) (kCores : kp .cores = true := by assumption) (kDmc : kp
    .dmc = true := by assumption) (kPwr : kp .pwr = true := by assumption) : OkO kp zz (execAccw n acc clear rs rt s) := by
  unfold execAccw
  repeat' first
    | with_reducible assumption | with_reducible apply plainOp_ok | with_reducible apply setAcc_ok | (with_reducible intro u hu)

theorem execSat_ok (h : Ok kp zz s) {n : Fin 5} {rd : Fin 16} {rs : Fin 16} {m : Fin 32} (kFresh : kp .fresh = true := by
    assumption) (kMem : kp .mem = true := by assumption) (kCores : kp .cores = true := by assumption) (kDmc : kp .dmc = true
    := by assumption) (kPwr : kp .pwr = true := by assumption) : OkO kp zz (execSat n rd rs m s) := by
  unfold execSat
  repeat' first
    | with_reducible assumption | with_reducible apply intVOp_ok

theorem execBcc_ok (h : Ok kp zz s) {n : Fin 5} {cnd : Fin 15} {off : BitVec 20} (kFresh : kp .fresh = true := by assumption)
    (kMem : kp .mem = true := by assumption) (kCores : kp .cores = true := by assumption) (kDmc : kp .dmc = true := by
    assumption) (kPwr : kp .pwr = true := by assumption) : OkO kp zz (execBcc n cnd off s) := by
  unfold execBcc
  repeat' first
    | with_reducible assumption | with_reducible apply jumpOp_ok | (with_reducible intro u hu)

theorem execCbr_ok (h : Ok kp zz s) {n : Fin 5} {rs : Fin 16} {t : Fin 4} {off : BitVec 20} (kFresh : kp .fresh = true := by
    assumption) (kMem : kp .mem = true := by assumption) (kCores : kp .cores = true := by assumption) (kDmc : kp .dmc = true
    := by assumption) (kPwr : kp .pwr = true := by assumption) : OkO kp zz (execCbr n rs t off s) := by
  unfold execCbr
  repeat' first
    | with_reducible assumption | with_reducible apply jumpOp_ok | (with_reducible intro u hu)

theorem execJ_ok (h : Ok kp zz s) {n : Fin 5} {off : BitVec 26} (kFresh : kp .fresh = true := by assumption) (kMem : kp .mem =
    true := by assumption) (kCores : kp .cores = true := by assumption) (kDmc : kp .dmc = true := by assumption) (kPwr : kp
    .pwr = true := by assumption) : OkO kp zz (execJ n off s) := by
  unfold execJ
  repeat' first
    | with_reducible assumption | with_reducible apply jumpOp_ok | (with_reducible intro u hu)

theorem execJal_ok (h : Ok kp zz s) {n : Fin 5} {off : BitVec 26} (kFresh : kp .fresh = true := by assumption) (kMem : kp .mem
    = true := by assumption) (kCores : kp .cores = true := by assumption) (kDmc : kp .dmc = true := by assumption) (kPwr : kp
    .pwr = true := by assumption) : OkO kp zz (execJal n off s) := by
  unfold execJal
  repeat' first
    | with_reducible assumption | with_reducible apply jumpOp_ok | with_reducible apply setReg_ok | (with_reducible intro u hu)

theorem execQpop_ok (h : Ok kp zz s) {n : Fin 5} {wd : Fin 14} {q : BitVec 8} (kFresh : kp .fresh = true := by assumption)
    (kMem : kp .mem = true := by assumption) (kCores : kp .cores = true := by assumption) (kDmc : kp .dmc = true := by
    assumption) (kPwr : kp .pwr = true := by assumption) : OkO kp zz (execQpop n wd q s) := by
  unfold execQpop
  repeat' first
    | with_reducible assumption | with_reducible apply okO_ite | with_reducible apply ok_ite2 | with_reducible apply ok_ite
    | with_reducible apply advance_ok | with_reducible apply done_ok | with_reducible apply issue_ok
    | with_reducible apply popQueue_ok | with_reducible apply setReg_ok | with_reducible apply setZ_ok
    | with_reducible apply trap_ok | (with_reducible intro u hu) | split

theorem execQlen_ok (h : Ok kp zz s) {n : Fin 5} {wd : Fin 16} {q : BitVec 8} (kFresh : kp .fresh = true := by assumption)
    (kMem : kp .mem = true := by assumption) (kCores : kp .cores = true := by assumption) (kDmc : kp .dmc = true := by
    assumption) (kPwr : kp .pwr = true := by assumption) : OkO kp zz (execQlen n wd q s) := by
  unfold execQlen
  repeat' first
    | with_reducible assumption | with_reducible apply okO_ite | with_reducible apply ok_ite | with_reducible apply advance_ok
    | with_reducible apply done_ok | with_reducible apply issue_ok | with_reducible apply look_ok
    | with_reducible apply setReg_ok | with_reducible apply setZ_ok | with_reducible apply trap_ok | (with_reducible intro u hu)
    | split

theorem execQpush_ok (h : Ok kp zz s) {n : Fin 5} {p : BitVec 8} {ws : Fin 16} {wt : Fin 16} (kFresh : kp .fresh = true := by
    assumption) (kMem : kp .mem = true := by assumption) (kCores : kp .cores = true := by assumption) (kDmc : kp .dmc = true
    := by assumption) (kPwr : kp .pwr = true := by assumption) : OkO kp zz (execQpush n p ws wt s) := by
  unfold execQpush
  try dsimp only
  repeat' first
    | with_reducible assumption | with_reducible apply okO_ite | with_reducible apply okO_next | with_reducible apply okO_fault
    | with_reducible apply okO_refused | with_reducible apply ok_ite2 | with_reducible assumption | with_reducible apply ok_ite
    | with_reducible apply advance_ok | with_reducible apply afterStores_ok | with_reducible apply done_ok
    | with_reducible apply issue_ok | with_reducible apply loosen_ok | with_reducible apply pushCommit_ok
    | with_reducible apply pushRelay_ok | with_reducible apply setZ_ok | with_reducible apply trap_ok | split
    | (with_reducible intro u x hu) | (with_reducible intro u hu) | dsimp only
    | (fail_if_no_progress refine ok_mk ?_ (by and_intros <;> first | with_reducible exact Or.inl rfl | exact Or.inr (by assumption)))

theorem execWait_ok (h : Ok kp zz s) {n : Fin 5} {wd : Fin 16} {g : Fin 8} {ws : Fin 16} {wt : Fin 16} (kFresh : kp .fresh =
    true := by assumption) (kMem : kp .mem = true := by assumption) (kCores : kp .cores = true := by assumption) (kDmc : kp
    .dmc = true := by assumption) (kPwr : kp .pwr = true := by assumption) : OkO kp zz (execWait n wd g ws wt s) := by
  unfold execWait
  repeat' first
    | with_reducible assumption | with_reducible apply okO_ite | with_reducible apply ok_ite | with_reducible apply done_ok
    | with_reducible apply issue_ok | with_reducible apply setCore_ok | with_reducible apply setFlag_ok
    | with_reducible apply waitReturn_ok | (with_reducible intro u hu) | split

theorem execPost_ok (h : Ok kp zz s) {n : Fin 5} {e : BitVec 8} (kFresh : kp .fresh = true := by assumption) (kMem : kp .mem =
    true := by assumption) (kCores : kp .cores = true := by assumption) (kDmc : kp .dmc = true := by assumption) (kPwr : kp
    .pwr = true := by assumption) : OkO kp zz (execPost n e s) := by
  unfold execPost
  try dsimp only
  repeat' first
    | with_reducible assumption | with_reducible apply okO_ite | with_reducible apply okO_next | with_reducible apply okO_fault
    | with_reducible apply okO_refused | with_reducible apply ok_ite | with_reducible apply advance_ok
    | with_reducible apply afterStores_ok | with_reducible apply done_ok | with_reducible apply issue_ok
    | with_reducible apply loosen_ok | with_reducible apply raiseChosen_ok | split | (with_reducible intro u x hu)
    | (with_reducible intro u hu) | dsimp only
    | (fail_if_no_progress refine ok_mk ?_ (by and_intros <;> first | with_reducible exact Or.inl rfl | exact Or.inr (by assumption)))

theorem execPostr_ok (h : Ok kp zz s) {n : Fin 5} {ws : Fin 16} (kFresh : kp .fresh = true := by assumption) (kMem : kp .mem =
    true := by assumption) (kCores : kp .cores = true := by assumption) (kDmc : kp .dmc = true := by assumption) (kPwr : kp
    .pwr = true := by assumption) : OkO kp zz (execPostr n ws s) := by
  unfold execPostr
  try dsimp only
  repeat' first
    | with_reducible assumption | with_reducible apply okO_ite | with_reducible apply okO_next | with_reducible apply okO_fault
    | with_reducible apply okO_refused | with_reducible apply ok_ite | with_reducible apply advance_ok
    | with_reducible apply afterStores_ok | with_reducible apply done_ok | with_reducible apply issue_ok
    | with_reducible apply loosen_ok | with_reducible apply raiseChosen_ok | split | (with_reducible intro u x hu)
    | (with_reducible intro u hu) | dsimp only
    | (fail_if_no_progress refine ok_mk ?_ (by and_intros <;> first | with_reducible exact Or.inl rfl | exact Or.inr (by assumption)))

theorem execStamp_ok (h : Ok kp zz s) {n : Fin 5} {wd : Fin 15} {laps : Bool} {ofs : Nat} (kFresh : kp .fresh = true := by
    assumption) (kMem : kp .mem = true := by assumption) (kTbs : kp .tbs = true := by assumption) (kCores : kp .cores = true
    := by assumption) (kDmc : kp .dmc = true := by assumption) (kPwr : kp .pwr = true := by assumption) : OkO kp zz (execStamp
    n wd laps ofs s) := by
  unfold execStamp
  repeat' first
    | with_reducible assumption | with_reducible apply atOfs_ok | with_reducible apply plainOp_ok
    | with_reducible apply setReg_ok | (with_reducible intro u hu)

theorem execTally_ok (h : Ok kp zz s) {n : Fin 5} {wd : Fin 16} {k : Fin 4} {vel : Bool} {ofs : Nat} (kFresh : kp .fresh =
    true := by assumption) (kMem : kp .mem = true := by assumption) (kTbs : kp .tbs = true := by assumption) (kCores : kp
    .cores = true := by assumption) (kDmc : kp .dmc = true := by assumption) (kPwr : kp .pwr = true := by assumption) : OkO kp
    zz (execTally n wd k vel ofs s) := by
  unfold execTally
  try dsimp only
  repeat' first
    | with_reducible assumption | with_reducible apply okO_ite | with_reducible apply okO_next | with_reducible apply okO_fault
    | with_reducible apply okO_refused | with_reducible apply ok_ite | with_reducible apply advance_ok
    | with_reducible apply atOfs_ok | with_reducible apply done_ok | with_reducible apply filtersPass_ok
    | with_reducible apply issue_ok | with_reducible apply setReg_ok | with_reducible apply trap_ok | split
    | (with_reducible intro u x hu) | (with_reducible intro u hu) | dsimp only
    | (fail_if_no_progress refine ok_mk ?_ (by and_intros <;> first | with_reducible exact Or.inl rfl | exact Or.inr (by assumption)))

theorem execNop_ok (h : Ok kp zz s) {n : Fin 5} (kFresh : kp .fresh = true := by assumption) (kMem : kp .mem = true := by
    assumption) (kCores : kp .cores = true := by assumption) (kDmc : kp .dmc = true := by assumption) (kPwr : kp .pwr = true
    := by assumption) : OkO kp zz (execNop n s) := by
  unfold execNop
  repeat' first
    | with_reducible assumption | with_reducible apply plainOp_ok | (with_reducible intro u hu)

theorem execFence_ok (h : Ok kp zz s) {n : Fin 5} (kFresh : kp .fresh = true := by assumption) (kMem : kp .mem = true := by
    assumption) (kCores : kp .cores = true := by assumption) (kDmc : kp .dmc = true := by assumption) (kPwr : kp .pwr = true
    := by assumption) : OkO kp zz (execFence n s) := by
  unfold execFence
  try dsimp only
  repeat' first
    | with_reducible assumption | with_reducible apply okO_ite | with_reducible apply okO_next | with_reducible apply okO_fault
    | with_reducible apply okO_refused | with_reducible apply ok_ite | with_reducible apply advance_ok
    | with_reducible apply afterStores_ok | with_reducible apply done_ok | with_reducible apply dropCache_ok
    | with_reducible apply issue_ok | split | (with_reducible intro u x hu) | (with_reducible intro u hu) | dsimp only
    | (fail_if_no_progress refine ok_mk ?_ (by and_intros <;> first | with_reducible exact Or.inl rfl | exact Or.inr (by assumption)))

theorem execSyscall_ok (h : Ok kp zz s) {n : Fin 5} {code : BitVec 8} (kFresh : kp .fresh = true := by assumption) (kMem : kp
    .mem = true := by assumption) (kCores : kp .cores = true := by assumption) (kDmc : kp .dmc = true := by assumption) (kPwr
    : kp .pwr = true := by assumption) : OkO kp zz (execSyscall n code s) := by
  unfold execSyscall
  repeat' first
    | with_reducible assumption | with_reducible apply done_ok | with_reducible apply issue_ok
    | with_reducible apply takeException_ok | (with_reducible intro u hu)

theorem execEret_ok (h : Ok kp zz s) {n : Fin 5} (kFresh : kp .fresh = true := by assumption) (kMem : kp .mem = true := by
    assumption) (kCores : kp .cores = true := by assumption) (kDmc : kp .dmc = true := by assumption) (kPwr : kp .pwr = true
    := by assumption) : OkO kp zz (execEret n s) := by
  unfold execEret
  repeat' first
    | with_reducible assumption | with_reducible apply okO_ite | with_reducible apply ok_ite | with_reducible apply done_ok
    | with_reducible apply issue_ok | with_reducible apply setCore_ok | with_reducible apply setMode_ok
    | with_reducible apply trap_ok | (with_reducible intro u hu) | split

theorem execMfsr_ok (h : Ok kp zz s) {n : Fin 5} {rd : Fin 16} {sr : Fin 10} {ofs : Nat} (kFresh : kp .fresh = true := by
    assumption) (kMem : kp .mem = true := by assumption) (kTbs : kp .tbs = true := by assumption) (kCores : kp .cores = true
    := by assumption) (kDmc : kp .dmc = true := by assumption) (kPwr : kp .pwr = true := by assumption) : OkO kp zz (execMfsr
    n rd sr ofs s) := by
  unfold execMfsr
  repeat' first
    | with_reducible assumption | with_reducible apply okO_ite | with_reducible apply ok_ite | with_reducible apply advance_ok
    | with_reducible apply atOfs_ok | with_reducible apply done_ok | with_reducible apply issue_ok
    | with_reducible apply setReg_ok | with_reducible apply trap_ok | (with_reducible intro u hu) | split

theorem execMtsr_ok (h : Ok kp zz s) {n : Fin 5} {sr : Fin 10} {rs : Fin 16} (kFresh : kp .fresh = true := by assumption)
    (kMem : kp .mem = true := by assumption) (kCores : kp .cores = true := by assumption) (kDmc : kp .dmc = true := by
    assumption) (kPwr : kp .pwr = true := by assumption) : OkO kp zz (execMtsr n sr rs s) := by
  unfold execMtsr
  repeat' first
    | with_reducible assumption | with_reducible apply okO_ite | with_reducible apply ok_ite | with_reducible apply advance_ok
    | with_reducible apply done_ok | with_reducible apply issue_ok | with_reducible apply setCore_ok
    | with_reducible apply trap_ok | (with_reducible intro u hu) | split

theorem execIllegalInstruction_ok (h : Ok kp zz s) {n : Fin 5} {word : Word} (kFresh : kp .fresh = true := by assumption)
    (kMem : kp .mem = true := by assumption) (kCores : kp .cores = true := by assumption) (kDmc : kp .dmc = true := by
    assumption) (kPwr : kp .pwr = true := by assumption) : OkO kp zz (execIllegalInstruction n word s) := by
  unfold execIllegalInstruction
  repeat' first
    | with_reducible assumption | with_reducible apply okO_ite | with_reducible apply ok_ite | with_reducible apply done_ok
    | with_reducible apply issue_ok | with_reducible apply trap_ok | (with_reducible intro u hu) | split

theorem execFetchFault_ok (h : Ok kp zz s) {n : Fin 5} (kFresh : kp .fresh = true := by assumption) (kMem : kp .mem = true :=
    by assumption) (kCores : kp .cores = true := by assumption) (kDmc : kp .dmc = true := by assumption) (kPwr : kp .pwr =
    true := by assumption) : OkO kp zz (execFetchFault n s) := by
  unfold execFetchFault
  repeat' first
    | with_reducible assumption | with_reducible apply done_ok | with_reducible apply issue_ok

end Sys2Proof.Machine
end

