-- ==== Sys2Proof/Laws/KeepIsaData.lean ====
section
/-!
SUPPORT. What the operations of Machine/IsaData.lean keep.
-/
namespace Sys2Proof.Machine
open Sys2Proof

set_option Elab.async false
set_option linter.unreachableTactic false
set_option linter.unusedTactic false
set_option linter.unusedVariables false

variable {kp : Comp → Bool} {zz s : State}

theorem floatOp_ok (h : Ok kp zz s) {n : Nat} {fd : Nat} {f : State → FVal} (kFresh : kp .fresh = true := by assumption) (kMem
    : kp .mem = true := by assumption) (kCores : kp .cores = true := by assumption) (kDmc : kp .dmc = true := by assumption)
    (kPwr : kp .pwr = true := by assumption) : OkO kp zz (floatOp n fd f s) := by
  unfold floatOp
  repeat' first
    | with_reducible assumption | with_reducible apply plainOp_ok | with_reducible apply setFreg_ok
    | (with_reducible intro u hu)

theorem execFadd_ok (h : Ok kp zz s) {n : Fin 5} {fd : Fin 8} {fs : Fin 8} {ft : Fin 8} (kFresh : kp .fresh = true := by
    assumption) (kMem : kp .mem = true := by assumption) (kCores : kp .cores = true := by assumption) (kDmc : kp .dmc = true
    := by assumption) (kPwr : kp .pwr = true := by assumption) : OkO kp zz (execFadd n fd fs ft s) := by
  unfold execFadd
  repeat' first
    | with_reducible assumption | with_reducible apply floatOp_ok

theorem execFsub_ok (h : Ok kp zz s) {n : Fin 5} {fd : Fin 8} {fs : Fin 8} {ft : Fin 8} (kFresh : kp .fresh = true := by
    assumption) (kMem : kp .mem = true := by assumption) (kCores : kp .cores = true := by assumption) (kDmc : kp .dmc = true
    := by assumption) (kPwr : kp .pwr = true := by assumption) : OkO kp zz (execFsub n fd fs ft s) := by
  unfold execFsub
  repeat' first
    | with_reducible assumption | with_reducible apply floatOp_ok

theorem execFmul_ok (h : Ok kp zz s) {n : Fin 5} {fd : Fin 8} {fs : Fin 8} {ft : Fin 8} (kFresh : kp .fresh = true := by
    assumption) (kMem : kp .mem = true := by assumption) (kCores : kp .cores = true := by assumption) (kDmc : kp .dmc = true
    := by assumption) (kPwr : kp .pwr = true := by assumption) : OkO kp zz (execFmul n fd fs ft s) := by
  unfold execFmul
  repeat' first
    | with_reducible assumption | with_reducible apply floatOp_ok

theorem execFdiv_ok (h : Ok kp zz s) {n : Fin 5} {fd : Fin 8} {fs : Fin 8} {ft : Fin 8} (kFresh : kp .fresh = true := by
    assumption) (kMem : kp .mem = true := by assumption) (kCores : kp .cores = true := by assumption) (kDmc : kp .dmc = true
    := by assumption) (kPwr : kp .pwr = true := by assumption) : OkO kp zz (execFdiv n fd fs ft s) := by
  unfold execFdiv
  repeat' first
    | with_reducible assumption | with_reducible apply floatOp_ok

theorem execFsqrt_ok (h : Ok kp zz s) {n : Fin 5} {fd : Fin 8} {fs : Fin 8} (kFresh : kp .fresh = true := by assumption) (kMem
    : kp .mem = true := by assumption) (kCores : kp .cores = true := by assumption) (kDmc : kp .dmc = true := by assumption)
    (kPwr : kp .pwr = true := by assumption) : OkO kp zz (execFsqrt n fd fs s) := by
  unfold execFsqrt
  repeat' first
    | with_reducible assumption | with_reducible apply floatOp_ok

theorem execFmac_ok (h : Ok kp zz s) {n : Fin 5} {fd : Fin 8} {fs : Fin 8} {ft : Fin 8} (kFresh : kp .fresh = true := by
    assumption) (kMem : kp .mem = true := by assumption) (kCores : kp .cores = true := by assumption) (kDmc : kp .dmc = true
    := by assumption) (kPwr : kp .pwr = true := by assumption) : OkO kp zz (execFmac n fd fs ft s) := by
  unfold execFmac
  repeat' first
    | with_reducible assumption | with_reducible apply floatOp_ok

theorem execFmin_ok (h : Ok kp zz s) {n : Fin 5} {fd : Fin 8} {fs : Fin 8} {ft : Fin 8} (kFresh : kp .fresh = true := by
    assumption) (kMem : kp .mem = true := by assumption) (kCores : kp .cores = true := by assumption) (kDmc : kp .dmc = true
    := by assumption) (kPwr : kp .pwr = true := by assumption) : OkO kp zz (execFmin n fd fs ft s) := by
  unfold execFmin
  repeat' first
    | with_reducible assumption | with_reducible apply floatOp_ok

theorem execFmax_ok (h : Ok kp zz s) {n : Fin 5} {fd : Fin 8} {fs : Fin 8} {ft : Fin 8} (kFresh : kp .fresh = true := by
    assumption) (kMem : kp .mem = true := by assumption) (kCores : kp .cores = true := by assumption) (kDmc : kp .dmc = true
    := by assumption) (kPwr : kp .pwr = true := by assumption) : OkO kp zz (execFmax n fd fs ft s) := by
  unfold execFmax
  repeat' first
    | with_reducible assumption | with_reducible apply floatOp_ok

theorem execFabs_ok (h : Ok kp zz s) {n : Fin 5} {fd : Fin 8} {fs : Fin 8} (kFresh : kp .fresh = true := by assumption) (kMem
    : kp .mem = true := by assumption) (kCores : kp .cores = true := by assumption) (kDmc : kp .dmc = true := by assumption)
    (kPwr : kp .pwr = true := by assumption) : OkO kp zz (execFabs n fd fs s) := by
  unfold execFabs
  repeat' first
    | with_reducible assumption | with_reducible apply floatOp_ok

theorem execFneg_ok (h : Ok kp zz s) {n : Fin 5} {fd : Fin 8} {fs : Fin 8} (kFresh : kp .fresh = true := by assumption) (kMem
    : kp .mem = true := by assumption) (kCores : kp .cores = true := by assumption) (kDmc : kp .dmc = true := by assumption)
    (kPwr : kp .pwr = true := by assumption) : OkO kp zz (execFneg n fd fs s) := by
  unfold execFneg
  repeat' first
    | with_reducible assumption | with_reducible apply floatOp_ok

theorem execFcmp_ok (h : Ok kp zz s) {n : Fin 5} {fs : Fin 8} {ft : Fin 8} (kFresh : kp .fresh = true := by assumption) (kMem
    : kp .mem = true := by assumption) (kCores : kp .cores = true := by assumption) (kDmc : kp .dmc = true := by assumption)
    (kPwr : kp .pwr = true := by assumption) : OkO kp zz (execFcmp n fs ft s) := by
  unfold execFcmp
  repeat' first
    | with_reducible assumption | with_reducible apply plainOp_ok | with_reducible apply setFlags_ok
    | (with_reducible intro u hu)

theorem execFcvtsw_ok (h : Ok kp zz s) {n : Fin 5} {fd : Fin 8} {ws : Fin 16} (kFresh : kp .fresh = true := by assumption)
    (kMem : kp .mem = true := by assumption) (kCores : kp .cores = true := by assumption) (kDmc : kp .dmc = true := by
    assumption) (kPwr : kp .pwr = true := by assumption) : OkO kp zz (execFcvtsw n fd ws s) := by
  unfold execFcvtsw
  repeat' first
    | with_reducible assumption | with_reducible apply floatOp_ok

theorem execFcvtws_ok (h : Ok kp zz s) {n : Fin 5} {wd : Fin 16} {fs : Fin 8} {trunc : Bool} (kFresh : kp .fresh = true := by
    assumption) (kMem : kp .mem = true := by assumption) (kCores : kp .cores = true := by assumption) (kDmc : kp .dmc = true
    := by assumption) (kPwr : kp .pwr = true := by assumption) : OkO kp zz (execFcvtws n wd fs trunc s) := by
  unfold execFcvtws
  repeat' first
    | with_reducible assumption | with_reducible apply intVOp_ok

theorem execFmvwf_ok (h : Ok kp zz s) {n : Fin 5} {wd : Fin 16} {fs : Fin 8} (kFresh : kp .fresh = true := by assumption)
    (kMem : kp .mem = true := by assumption) (kCores : kp .cores = true := by assumption) (kDmc : kp .dmc = true := by
    assumption) (kPwr : kp .pwr = true := by assumption) : OkO kp zz (execFmvwf n wd fs s) := by
  unfold execFmvwf
  repeat' first
    | with_reducible assumption | with_reducible apply intOp_ok

theorem execFmvfw_ok (h : Ok kp zz s) {n : Fin 5} {fd : Fin 8} {ws : Fin 16} (kFresh : kp .fresh = true := by assumption)
    (kMem : kp .mem = true := by assumption) (kCores : kp .cores = true := by assumption) (kDmc : kp .dmc = true := by
    assumption) (kPwr : kp .pwr = true := by assumption) : OkO kp zz (execFmvfw n fd ws s) := by
  unfold execFmvfw
  repeat' first
    | with_reducible assumption | with_reducible apply plainOp_ok | with_reducible apply setFreg_ok
    | (with_reducible intro u hu)

theorem tableWord_ok {n a : Nat} {w : Word} {t : State} (h : Ok kp zz s) (e : tableWord n a s = .ok (w, t)) (kFresh : kp .fresh = true := by assumption) (kMem : kp .mem = true := by assumption) (kSent : kp .sent = true := by assumption) (kAcq : kp .acq = true := by assumption) (kCores : kp .cores = true := by assumption) (kLanes : kp .lanes = true := by assumption) (kDmc : kp .dmc = true := by assumption) (kPwr : kp .pwr = true := by assumption) : Ok kp zz t := by
  unfold tableWord at e
  dsimp only at e
  split at e
  · cases e
  · split at e
    · cases e
    · cases e
      exact loadBytes_ok (fetchLine_ok h)

theorem tableWord_err {n a : Nat} {o : Host.Outcome State Fault Refusal} (h : Ok kp zz s) (e : tableWord n a s = .error o) (kFresh : kp .fresh = true := by assumption) (kMem : kp .mem = true := by assumption) (kSent : kp .sent = true := by assumption) (kAcq : kp .acq = true := by assumption) (kCores : kp .cores = true := by assumption) (kLanes : kp .lanes = true := by assumption) (kDmc : kp .dmc = true := by assumption) (kPwr : kp .pwr = true := by assumption) : OkO kp zz o := by
  unfold tableWord at e
  dsimp only at e
  split at e
  · cases e
    exact done_ok (trap_ok h)
  · split at e
    · cases e
      exact done_ok (fetchLine_ok h)
    · cases e

theorem interpolate_ok {n a last : Nat} {x : FVal} {w : Word} {t : State} (h : Ok kp zz s)
    (e : interpolate n a last x s = .ok (w, t)) (kFresh : kp .fresh = true := by assumption) (kMem : kp .mem = true := by assumption) (kSent : kp .sent = true := by assumption) (kAcq : kp .acq = true := by assumption) (kCores : kp .cores = true := by assumption) (kLanes : kp .lanes = true := by assumption) (kDmc : kp .dmc = true := by assumption) (kPwr : kp .pwr = true := by assumption) : Ok kp zz t := by
  unfold interpolate at e
  split at e
  · cases e
    exact freshen_ok h
  · dsimp only at e
    split at e
    · cases e
    · rename_i e1
      have h1 := tableWord_ok h e1
      split at e
      · cases e
        exact h1
      · split at e
        · cases e
        · rename_i e2
          cases e
          exact tableWord_ok h1 e2

theorem interpolate_err {n a last : Nat} {x : FVal} {o : Host.Outcome State Fault Refusal} (h : Ok kp zz s)
    (e : interpolate n a last x s = .error o) (kFresh : kp .fresh = true := by assumption) (kMem : kp .mem = true := by assumption) (kSent : kp .sent = true := by assumption) (kAcq : kp .acq = true := by assumption) (kCores : kp .cores = true := by assumption) (kLanes : kp .lanes = true := by assumption) (kDmc : kp .dmc = true := by assumption) (kPwr : kp .pwr = true := by assumption) : OkO kp zz o := by
  unfold interpolate at e
  split at e
  · cases e
  · dsimp only at e
    split at e
    · rename_i e1
      cases e
      exact tableWord_err h e1
    · rename_i e1
      have h1 := tableWord_ok h e1
      split at e
      · cases e
      · split at e
        · rename_i e2
          cases e
          exact tableWord_err h1 e2
        · cases e

theorem tinterp_ok {n a : Nat} {x : FVal} {w : Word × Bool} {t : State} (h : Ok kp zz s)
    (e : tinterp n a x s = .ok (w, t)) (kFresh : kp .fresh = true := by assumption) (kMem : kp .mem = true := by assumption) (kSent : kp .sent = true := by assumption) (kAcq : kp .acq = true := by assumption) (kCores : kp .cores = true := by assumption) (kLanes : kp .lanes = true := by assumption) (kDmc : kp .dmc = true := by assumption) (kPwr : kp .pwr = true := by assumption) : Ok kp zz t := by
  unfold tinterp at e
  split at e
  · cases e
  · rename_i e1
    have h1 := tableWord_ok h e1
    split at e
    · cases e
    · rename_i e2
      have h2 := tableWord_ok h1 e2
      split at e
      · cases e
        exact h2
      · split at e
        · cases e
        · rename_i e3
          have h3 := tableWord_ok h2 e3
          dsimp only at e
          split at e
          · cases e
          · rename_i e4
            cases e
            exact interpolate_ok h3 e4

theorem tinterp_err {n a : Nat} {x : FVal} {o : Host.Outcome State Fault Refusal} (h : Ok kp zz s)
    (e : tinterp n a x s = .error o) (kFresh : kp .fresh = true := by assumption) (kMem : kp .mem = true := by assumption) (kSent : kp .sent = true := by assumption) (kAcq : kp .acq = true := by assumption) (kCores : kp .cores = true := by assumption) (kLanes : kp .lanes = true := by assumption) (kDmc : kp .dmc = true := by assumption) (kPwr : kp .pwr = true := by assumption) : OkO kp zz o := by
  unfold tinterp at e
  split at e
  · rename_i e1
    cases e
    exact tableWord_err h e1
  · rename_i e1
    have h1 := tableWord_ok h e1
    split at e
    · rename_i e2
      cases e
      exact tableWord_err h1 e2
    · rename_i e2
      have h2 := tableWord_ok h1 e2
      split at e
      · cases e
      · split at e
        · rename_i e3
          cases e
          exact tableWord_err h2 e3
        · rename_i e3
          have h3 := tableWord_ok h2 e3
          dsimp only at e
          split at e
          · rename_i e4
            cases e
            exact interpolate_err h3 e4
          · cases e

theorem execTinterp_ok (h : Ok kp zz s) {n : Fin 5} {fd : Fin 8} {fs : Fin 8} {ws : Fin 16} (kFresh : kp .fresh = true := by
    assumption) (kMem : kp .mem = true := by assumption) (kSent : kp .sent = true := by assumption) (kAcq : kp .acq = true :=
    by assumption) (kCores : kp .cores = true := by assumption) (kLanes : kp .lanes = true := by assumption) (kDmc : kp .dmc =
    true := by assumption) (kPwr : kp .pwr = true := by assumption) : OkO kp zz (execTinterp n fd fs ws s) := by
  unfold execTinterp
  try dsimp only
  repeat' first
    | with_reducible assumption | with_reducible apply okO_ite | with_reducible apply okO_next | with_reducible apply okO_fault
    | with_reducible apply okO_refused | with_reducible apply ok_ite2 | with_reducible assumption | with_reducible apply ok_ite
    | (refine tinterp_ok ?_ (by assumption)) | (refine tinterp_err ?_ (by assumption)) | with_reducible apply advance_ok
    | with_reducible apply done_ok | (refine (done_ok ?_) _ (by assumption)) | with_reducible apply issue_ok
    | (refine (issue_ok ?_) _ (by assumption)) | with_reducible apply setFreg_ok | with_reducible apply setV_ok | split
    | (with_reducible intro u x hu) | (with_reducible intro u hu) | dsimp only
    | (fail_if_no_progress refine ok_mk ?_ (by and_intros <;> first | with_reducible exact Or.inl rfl | exact Or.inr (by assumption)))

theorem loadReg_ok (h : Ok kp zz s) {n : Nat} {rd : Nat} {rb : Nat} {am : Nat} {size : Nat} {sx : Bool} {off : BitVec 13}
    (kFresh : kp .fresh = true := by assumption) (kMem : kp .mem = true := by assumption) (kSent : kp .sent = true := by
    assumption) (kAcq : kp .acq = true := by assumption) (kCores : kp .cores = true := by assumption) (kLanes : kp .lanes =
    true := by assumption) (kDmc : kp .dmc = true := by assumption) (kPwr : kp .pwr = true := by assumption) : OkO kp zz
    (loadReg n rd rb am size sx off s) := by
  unfold loadReg
  repeat' first
    | with_reducible assumption | with_reducible apply loadOp_ok | with_reducible apply setReg_ok
    | (with_reducible intro u x hu)

theorem execLdb_ok (h : Ok kp zz s) {n : Fin 5} {rd : Fin 16} {rb : Fin 16} {am : Fin 3} {off : BitVec 13} (kFresh : kp .fresh
    = true := by assumption) (kMem : kp .mem = true := by assumption) (kSent : kp .sent = true := by assumption) (kAcq : kp
    .acq = true := by assumption) (kCores : kp .cores = true := by assumption) (kLanes : kp .lanes = true := by assumption)
    (kDmc : kp .dmc = true := by assumption) (kPwr : kp .pwr = true := by assumption) : OkO kp zz (execLdb n rd rb am off s)
    := by
  unfold execLdb
  repeat' first
    | with_reducible assumption | with_reducible apply loadReg_ok

theorem execLdbu_ok (h : Ok kp zz s) {n : Fin 5} {rd : Fin 16} {rb : Fin 16} {am : Fin 3} {off : BitVec 13} (kFresh : kp
    .fresh = true := by assumption) (kMem : kp .mem = true := by assumption) (kSent : kp .sent = true := by assumption) (kAcq
    : kp .acq = true := by assumption) (kCores : kp .cores = true := by assumption) (kLanes : kp .lanes = true := by
    assumption) (kDmc : kp .dmc = true := by assumption) (kPwr : kp .pwr = true := by assumption) : OkO kp zz (execLdbu n rd
    rb am off s) := by
  unfold execLdbu
  repeat' first
    | with_reducible assumption | with_reducible apply loadReg_ok

theorem execLdh_ok (h : Ok kp zz s) {n : Fin 5} {rd : Fin 16} {rb : Fin 16} {am : Fin 3} {off : BitVec 13} (kFresh : kp .fresh
    = true := by assumption) (kMem : kp .mem = true := by assumption) (kSent : kp .sent = true := by assumption) (kAcq : kp
    .acq = true := by assumption) (kCores : kp .cores = true := by assumption) (kLanes : kp .lanes = true := by assumption)
    (kDmc : kp .dmc = true := by assumption) (kPwr : kp .pwr = true := by assumption) : OkO kp zz (execLdh n rd rb am off s)
    := by
  unfold execLdh
  repeat' first
    | with_reducible assumption | with_reducible apply loadReg_ok

theorem execLdhu_ok (h : Ok kp zz s) {n : Fin 5} {rd : Fin 16} {rb : Fin 16} {am : Fin 3} {off : BitVec 13} (kFresh : kp
    .fresh = true := by assumption) (kMem : kp .mem = true := by assumption) (kSent : kp .sent = true := by assumption) (kAcq
    : kp .acq = true := by assumption) (kCores : kp .cores = true := by assumption) (kLanes : kp .lanes = true := by
    assumption) (kDmc : kp .dmc = true := by assumption) (kPwr : kp .pwr = true := by assumption) : OkO kp zz (execLdhu n rd
    rb am off s) := by
  unfold execLdhu
  repeat' first
    | with_reducible assumption | with_reducible apply loadReg_ok

theorem execLdw_ok (h : Ok kp zz s) {n : Fin 5} {rd : Fin 16} {rb : Fin 16} {am : Fin 3} {off : BitVec 13} (kFresh : kp .fresh
    = true := by assumption) (kMem : kp .mem = true := by assumption) (kSent : kp .sent = true := by assumption) (kAcq : kp
    .acq = true := by assumption) (kCores : kp .cores = true := by assumption) (kLanes : kp .lanes = true := by assumption)
    (kDmc : kp .dmc = true := by assumption) (kPwr : kp .pwr = true := by assumption) : OkO kp zz (execLdw n rd rb am off s)
    := by
  unfold execLdw
  repeat' first
    | with_reducible assumption | with_reducible apply loadReg_ok

theorem execFld_ok (h : Ok kp zz s) {n : Fin 5} {fd : Fin 8} {rb : Fin 16} {am : Fin 3} {off : BitVec 13} (kFresh : kp .fresh
    = true := by assumption) (kMem : kp .mem = true := by assumption) (kSent : kp .sent = true := by assumption) (kAcq : kp
    .acq = true := by assumption) (kCores : kp .cores = true := by assumption) (kLanes : kp .lanes = true := by assumption)
    (kDmc : kp .dmc = true := by assumption) (kPwr : kp .pwr = true := by assumption) : OkO kp zz (execFld n fd rb am off s)
    := by
  unfold execFld
  repeat' first
    | with_reducible assumption | with_reducible apply loadOp_ok | with_reducible apply setFreg_ok
    | (with_reducible intro u x hu)

theorem execFldd_ok (h : Ok kp zz s) {n : Fin 5} {fd : Fin 8} {rb : Fin 16} {am : Fin 3} {off : BitVec 13} (kFresh : kp .fresh
    = true := by assumption) (kMem : kp .mem = true := by assumption) (kSent : kp .sent = true := by assumption) (kAcq : kp
    .acq = true := by assumption) (kCores : kp .cores = true := by assumption) (kLanes : kp .lanes = true := by assumption)
    (kDmc : kp .dmc = true := by assumption) (kPwr : kp .pwr = true := by assumption) : OkO kp zz (execFldd n fd rb am off s)
    := by
  unfold execFldd
  repeat' first
    | with_reducible assumption | with_reducible apply loadOp_ok | with_reducible apply setFreg_ok
    | (with_reducible intro u x hu)

theorem storeReg_ok (h : Ok kp zz s) {n : Nat} {rd : Nat} {rb : Nat} {am : Nat} {size : Nat} {off : BitVec 13} (kBnd : kp .bnd
    = true := by assumption) (kFresh : kp .fresh = true := by assumption) (kAccepted : kp .accepted = true := by assumption)
    (kNextRegs : kp .nextRegs = true := by assumption) (kMem : kp .mem = true := by assumption) (kSent : kp .sent = true := by
    assumption) (kTbs : kp .tbs = true := by assumption) (kAfe : kp .afe = true := by assumption) (kCnv : kp .cnv = true := by
    assumption) (kLapInfo : kp .lapInfo = true := by assumption) (kRed : kp .red = true := by assumption) (kOut : kp .out =
    true := by assumption) (kAcq : kp .acq = true := by assumption) (kCtl : kp .ctl = true := by assumption) (kCores : kp
    .cores = true := by assumption) (kLanes : kp .lanes = true := by assumption) (kWot : kp .wot = true := by assumption)
    (kEth : kp .eth = true := by assumption) (kDmc : kp .dmc = true := by assumption) (kTwin : kp .twin = true := by
    assumption) (kHlt : kp .hlt = true := by assumption) (kPwr : kp .pwr = true := by assumption) (kSvc : kp .svc = true := by
    assumption) (kJtag : kp .jtag = true := by assumption) : OkO kp zz (storeReg n rd rb am size off s) := by
  unfold storeReg
  repeat' first
    | with_reducible assumption | with_reducible apply storeOp_ok

theorem execStb_ok (h : Ok kp zz s) {n : Fin 5} {rd : Fin 16} {rb : Fin 16} {am : Fin 3} {off : BitVec 13} (kBnd : kp .bnd =
    true := by assumption) (kFresh : kp .fresh = true := by assumption) (kAccepted : kp .accepted = true := by assumption)
    (kNextRegs : kp .nextRegs = true := by assumption) (kMem : kp .mem = true := by assumption) (kSent : kp .sent = true := by
    assumption) (kTbs : kp .tbs = true := by assumption) (kAfe : kp .afe = true := by assumption) (kCnv : kp .cnv = true := by
    assumption) (kLapInfo : kp .lapInfo = true := by assumption) (kRed : kp .red = true := by assumption) (kOut : kp .out =
    true := by assumption) (kAcq : kp .acq = true := by assumption) (kCtl : kp .ctl = true := by assumption) (kCores : kp
    .cores = true := by assumption) (kLanes : kp .lanes = true := by assumption) (kWot : kp .wot = true := by assumption)
    (kEth : kp .eth = true := by assumption) (kDmc : kp .dmc = true := by assumption) (kTwin : kp .twin = true := by
    assumption) (kHlt : kp .hlt = true := by assumption) (kPwr : kp .pwr = true := by assumption) (kSvc : kp .svc = true := by
    assumption) (kJtag : kp .jtag = true := by assumption) : OkO kp zz (execStb n rd rb am off s) := by
  unfold execStb
  repeat' first
    | with_reducible assumption | with_reducible apply storeReg_ok

theorem execSth_ok (h : Ok kp zz s) {n : Fin 5} {rd : Fin 16} {rb : Fin 16} {am : Fin 3} {off : BitVec 13} (kBnd : kp .bnd =
    true := by assumption) (kFresh : kp .fresh = true := by assumption) (kAccepted : kp .accepted = true := by assumption)
    (kNextRegs : kp .nextRegs = true := by assumption) (kMem : kp .mem = true := by assumption) (kSent : kp .sent = true := by
    assumption) (kTbs : kp .tbs = true := by assumption) (kAfe : kp .afe = true := by assumption) (kCnv : kp .cnv = true := by
    assumption) (kLapInfo : kp .lapInfo = true := by assumption) (kRed : kp .red = true := by assumption) (kOut : kp .out =
    true := by assumption) (kAcq : kp .acq = true := by assumption) (kCtl : kp .ctl = true := by assumption) (kCores : kp
    .cores = true := by assumption) (kLanes : kp .lanes = true := by assumption) (kWot : kp .wot = true := by assumption)
    (kEth : kp .eth = true := by assumption) (kDmc : kp .dmc = true := by assumption) (kTwin : kp .twin = true := by
    assumption) (kHlt : kp .hlt = true := by assumption) (kPwr : kp .pwr = true := by assumption) (kSvc : kp .svc = true := by
    assumption) (kJtag : kp .jtag = true := by assumption) : OkO kp zz (execSth n rd rb am off s) := by
  unfold execSth
  repeat' first
    | with_reducible assumption | with_reducible apply storeReg_ok

theorem execStw_ok (h : Ok kp zz s) {n : Fin 5} {rd : Fin 16} {rb : Fin 16} {am : Fin 3} {off : BitVec 13} (kBnd : kp .bnd =
    true := by assumption) (kFresh : kp .fresh = true := by assumption) (kAccepted : kp .accepted = true := by assumption)
    (kNextRegs : kp .nextRegs = true := by assumption) (kMem : kp .mem = true := by assumption) (kSent : kp .sent = true := by
    assumption) (kTbs : kp .tbs = true := by assumption) (kAfe : kp .afe = true := by assumption) (kCnv : kp .cnv = true := by
    assumption) (kLapInfo : kp .lapInfo = true := by assumption) (kRed : kp .red = true := by assumption) (kOut : kp .out =
    true := by assumption) (kAcq : kp .acq = true := by assumption) (kCtl : kp .ctl = true := by assumption) (kCores : kp
    .cores = true := by assumption) (kLanes : kp .lanes = true := by assumption) (kWot : kp .wot = true := by assumption)
    (kEth : kp .eth = true := by assumption) (kDmc : kp .dmc = true := by assumption) (kTwin : kp .twin = true := by
    assumption) (kHlt : kp .hlt = true := by assumption) (kPwr : kp .pwr = true := by assumption) (kSvc : kp .svc = true := by
    assumption) (kJtag : kp .jtag = true := by assumption) : OkO kp zz (execStw n rd rb am off s) := by
  unfold execStw
  repeat' first
    | with_reducible assumption | with_reducible apply storeReg_ok

theorem execFst_ok (h : Ok kp zz s) {n : Fin 5} {fd : Fin 8} {rb : Fin 16} {am : Fin 3} {off : BitVec 13} (kBnd : kp .bnd =
    true := by assumption) (kFresh : kp .fresh = true := by assumption) (kAccepted : kp .accepted = true := by assumption)
    (kNextRegs : kp .nextRegs = true := by assumption) (kMem : kp .mem = true := by assumption) (kSent : kp .sent = true := by
    assumption) (kTbs : kp .tbs = true := by assumption) (kAfe : kp .afe = true := by assumption) (kCnv : kp .cnv = true := by
    assumption) (kLapInfo : kp .lapInfo = true := by assumption) (kRed : kp .red = true := by assumption) (kOut : kp .out =
    true := by assumption) (kAcq : kp .acq = true := by assumption) (kCtl : kp .ctl = true := by assumption) (kCores : kp
    .cores = true := by assumption) (kLanes : kp .lanes = true := by assumption) (kWot : kp .wot = true := by assumption)
    (kEth : kp .eth = true := by assumption) (kDmc : kp .dmc = true := by assumption) (kTwin : kp .twin = true := by
    assumption) (kHlt : kp .hlt = true := by assumption) (kPwr : kp .pwr = true := by assumption) (kSvc : kp .svc = true := by
    assumption) (kJtag : kp .jtag = true := by assumption) : OkO kp zz (execFst n fd rb am off s) := by
  unfold execFst
  repeat' first
    | with_reducible assumption | with_reducible apply storeOp_ok

end Sys2Proof.Machine
end

