-- ==== Sys2Proof/Laws/KeepLap.lean ====
section
/-!
SUPPORT. What the operations of Machine/Lap.lean keep.
-/
namespace Sys2Proof.Machine
open Sys2Proof

set_option Elab.async false
set_option linter.unreachableTactic false
set_option linter.unusedTactic false
set_option linter.unusedVariables false

variable {kp : Comp → Bool} {zz s : State}

theorem noteLap_ok (h : Ok kp zz s) (kCnv : kp .cnv = true := by assumption) (kLapInfo : kp .lapInfo = true := by assumption)
    (kRed : kp .red = true := by assumption) : Ok kp zz (noteLap s) := by
  unfold noteLap
  repeat' first
    | with_reducible assumption | with_reducible apply markIf_ok | with_reducible apply setCnv_ok
    | (fail_if_no_progress refine ok_mk ?_ (by and_intros <;> first | with_reducible exact Or.inl rfl | exact Or.inr (by assumption)))

theorem noteRecordLap_ok (h : Ok kp zz s) (kRed : kp .red = true := by assumption) : Ok kp zz (noteRecordLap s) := by
  unfold noteRecordLap
  repeat' first
    | with_reducible assumption
    | (fail_if_no_progress refine ok_mk ?_ (by and_intros <;> first | with_reducible exact Or.inl rfl | exact Or.inr (by assumption)))

theorem applyWrites_ok (h : Ok kp zz s) {hold : Bool} (kNextRegs : kp .nextRegs = true := by assumption) : Ok kp zz
    (applyWrites hold s) := by
  unfold applyWrites
  repeat' first
    | with_reducible assumption | with_reducible apply wr_ok | with_reducible apply ok_foldl | (with_reducible intro u x hu)
    | (fail_if_no_progress refine ok_mk ?_ (by and_intros <;> first | with_reducible exact Or.inl rfl | exact Or.inr (by assumption)))

theorem takeVcm_ok (h : Ok kp zz s) {vcm : List (Nat × Int)} (kAfe : kp .afe = true := by assumption) : Ok kp zz (takeVcm vcm
    s) := by
  unfold takeVcm
  repeat' first
    | with_reducible assumption
    | (fail_if_no_progress refine ok_mk ?_ (by and_intros <;> first | with_reducible exact Or.inl rfl | exact Or.inr (by assumption)))

theorem analogBoundary_ok (h : Ok kp zz s) {inp : LapIn} (kAccepted : kp .accepted = true := by assumption) (kAfe : kp .afe =
    true := by assumption) (kCnv : kp .cnv = true := by assumption) : Ok kp zz (analogBoundary inp s) := by
  unfold analogBoundary
  repeat' first
    | with_reducible assumption | with_reducible apply afeBoundary_ok | with_reducible apply calBoundary_ok
    | with_reducible apply cmxBoundary_ok | with_reducible apply refBoundary_ok | with_reducible apply skewBoundary_ok
    | with_reducible apply takeVcm_ok

theorem carrierBoundary_ok (h : Ok kp zz s) {inp : LapIn} (kFresh : kp .fresh = true := by assumption) (kAccepted : kp
    .accepted = true := by assumption) (kMem : kp .mem = true := by assumption) (kSent : kp .sent = true := by assumption)
    (kRed : kp .red = true := by assumption) (kAcq : kp .acq = true := by assumption) (kCores : kp .cores = true := by
    assumption) (kLanes : kp .lanes = true := by assumption) (kDmc : kp .dmc = true := by assumption) (kHlt : kp .hlt = true
    := by assumption) (kPwr : kp .pwr = true := by assumption) : Ok kp zz (carrierBoundary inp s) := by
  unfold carrierBoundary
  try dsimp only
  repeat' first
    | with_reducible assumption | with_reducible apply ok_ite | with_reducible apply dmcServe_ok
    | with_reducible apply drainAtLap_ok | with_reducible apply drainFill_ok | with_reducible apply gpioSample_ok
    | with_reducible apply hltBoundary_ok | with_reducible apply hoursLap_ok | with_reducible apply lanesBoundary_ok
    | with_reducible apply ledgerLap_ok | with_reducible apply showIndication_ok | split | (with_reducible intro u x hu)
    | (with_reducible intro u hu) | dsimp only
    | (fail_if_no_progress refine ok_mk ?_ (by and_intros <;> first | with_reducible exact Or.inl rfl | exact Or.inr (by assumption)))

theorem gridBoundary_ok (h : Ok kp zz s) (kRed : kp .red = true := by assumption) : Ok kp zz (gridBoundary s) := by
  unfold gridBoundary
  repeat' first
    | with_reducible assumption | with_reducible apply gridChannel_ok | with_reducible apply ok_foldl
    | (with_reducible intro u x hu)

theorem noteBefore_ok (h : Ok kp zz s) (kTbs : kp .tbs = true := by assumption) : Ok kp zz (noteBefore s) := by
  unfold noteBefore
  repeat' first
    | with_reducible assumption | with_reducible apply ok_ite | split | (with_reducible intro u x hu)
    | (with_reducible intro u hu) | dsimp only
    | (fail_if_no_progress refine ok_mk ?_ (by and_intros <;> first | with_reducible exact Or.inl rfl | exact Or.inr (by assumption)))

theorem lapDomainBoundary_ok (h : Ok kp zz s) {inp : LapIn} (kBnd : kp .bnd = true := by assumption) (kFresh : kp .fresh =
    true := by assumption) (kAccepted : kp .accepted = true := by assumption) (kNextRegs : kp .nextRegs = true := by
    assumption) (kMem : kp .mem = true := by assumption) (kSent : kp .sent = true := by assumption) (kTbs : kp .tbs = true :=
    by assumption) (kAfe : kp .afe = true := by assumption) (kCnv : kp .cnv = true := by assumption) (kLapInfo : kp .lapInfo =
    true := by assumption) (kRed : kp .red = true := by assumption) (kOut : kp .out = true := by assumption) (kAcq : kp .acq =
    true := by assumption) (kCtl : kp .ctl = true := by assumption) (kCores : kp .cores = true := by assumption) (kLanes : kp
    .lanes = true := by assumption) (kWot : kp .wot = true := by assumption) (kDmc : kp .dmc = true := by assumption) (kTwin :
    kp .twin = true := by assumption) (kHlt : kp .hlt = true := by assumption) (kPwr : kp .pwr = true := by assumption) : Ok
    kp zz (lapDomainBoundary inp s) := by
  unfold lapDomainBoundary
  try dsimp only
  repeat' first
    | with_reducible assumption | with_reducible apply ok_ite | with_reducible apply acqBoundary_ok
    | with_reducible apply analogBoundary_ok | with_reducible apply applyWrites_ok | with_reducible apply carrierBoundary_ok
    | with_reducible apply closeLap_ok | with_reducible apply count_ok | with_reducible apply ctlBoundary_ok
    | with_reducible apply gopKeepSteps_ok | with_reducible apply gridBoundary_ok | with_reducible apply mirrorEdges_ok
    | with_reducible apply noteBefore_ok | with_reducible apply noteLap_ok | with_reducible apply noteRecordLap_ok
    | with_reducible apply outSoftware_ok | with_reducible apply powerBoundary_ok | with_reducible apply redCmdBoundary_ok
    | with_reducible apply setOut_ok | with_reducible apply slBoundary_ok | with_reducible apply slKeepSteps_ok
    | with_reducible apply tbsBoundary_ok | with_reducible apply twinBoundary_ok | split | (with_reducible intro u x hu)
    | (with_reducible intro u hu) | dsimp only
    | (fail_if_no_progress refine ok_mk ?_ (by and_intros <;> first | with_reducible exact Or.inl rfl | exact Or.inr (by assumption)))

theorem holdBoundary_ok (h : Ok kp zz s) {inp : LapIn} (kFresh : kp .fresh = true := by assumption) (kAccepted : kp .accepted
    = true := by assumption) (kNextRegs : kp .nextRegs = true := by assumption) (kMem : kp .mem = true := by assumption)
    (kSent : kp .sent = true := by assumption) (kTbs : kp .tbs = true := by assumption) (kAfe : kp .afe = true := by
    assumption) (kCnv : kp .cnv = true := by assumption) (kLapInfo : kp .lapInfo = true := by assumption) (kRed : kp .red =
    true := by assumption) (kOut : kp .out = true := by assumption) (kAcq : kp .acq = true := by assumption) (kCores : kp
    .cores = true := by assumption) (kLanes : kp .lanes = true := by assumption) (kDmc : kp .dmc = true := by assumption)
    (kTwin : kp .twin = true := by assumption) (kHlt : kp .hlt = true := by assumption) (kPwr : kp .pwr = true := by
    assumption) : Ok kp zz (holdBoundary inp s) := by
  unfold holdBoundary
  try dsimp only
  repeat' first
    | with_reducible assumption | with_reducible apply ok_ite | with_reducible apply analogBoundary_ok
    | with_reducible apply applyWrites_ok | with_reducible apply carrierBoundary_ok | with_reducible apply closeLap_ok
    | with_reducible apply count_ok | with_reducible apply hold_ok | with_reducible apply noteLap_ok
    | with_reducible apply powerBoundary_ok | with_reducible apply setTwin_ok | with_reducible apply tbsBoundary_ok
    | with_reducible apply twinBoundary_ok | split | (with_reducible intro u x hu) | (with_reducible intro u hu) | dsimp only
    | (fail_if_no_progress refine ok_mk ?_ (by and_intros <;> first | with_reducible exact Or.inl rfl | exact Or.inr (by assumption)))

theorem darkLap_ok (h : Ok kp zz s) (kTbs : kp .tbs = true := by assumption) : Ok kp zz (darkLap s) := by
  unfold darkLap
  repeat' first
    | with_reducible assumption
    | (fail_if_no_progress refine ok_mk ?_ (by and_intros <;> first | with_reducible exact Or.inl rfl | exact Or.inr (by assumption)))

theorem execLapBoundary_ok (h : Ok kp zz s) {inp : LapIn} (kBnd : kp .bnd = true := by assumption) (kFresh : kp .fresh = true
    := by assumption) (kAccepted : kp .accepted = true := by assumption) (kNextRegs : kp .nextRegs = true := by assumption)
    (kMem : kp .mem = true := by assumption) (kSent : kp .sent = true := by assumption) (kTbs : kp .tbs = true := by
    assumption) (kAfe : kp .afe = true := by assumption) (kCnv : kp .cnv = true := by assumption) (kLapInfo : kp .lapInfo =
    true := by assumption) (kRed : kp .red = true := by assumption) (kOut : kp .out = true := by assumption) (kAcq : kp .acq =
    true := by assumption) (kCtl : kp .ctl = true := by assumption) (kCores : kp .cores = true := by assumption) (kLanes : kp
    .lanes = true := by assumption) (kWot : kp .wot = true := by assumption) (kDmc : kp .dmc = true := by assumption) (kTwin :
    kp .twin = true := by assumption) (kHlt : kp .hlt = true := by assumption) (kPwr : kp .pwr = true := by assumption) : OkO
    kp zz (execLapBoundary inp s) := by
  unfold execLapBoundary
  repeat' first
    | with_reducible assumption | with_reducible apply okO_ite | with_reducible apply ok_ite | with_reducible apply aonLap_ok
    | with_reducible apply darkLap_ok | with_reducible apply done_ok | with_reducible apply holdBoundary_ok
    | with_reducible apply hoursLap_ok | with_reducible apply lapDomainBoundary_ok | with_reducible apply pacerBoundary_ok
    | (fail_if_no_progress refine ok_mk ?_ (by and_intros <;> first | with_reducible exact Or.inl rfl | exact Or.inr (by assumption)))
    | split

theorem execCommandAbortedAtBoundary_ok (h : Ok kp zz s) {addr : Nat} (kAccepted : kp .accepted = true := by assumption)
    (kTwin : kp .twin = true := by assumption) : OkO kp zz (execCommandAbortedAtBoundary addr s) := by
  unfold execCommandAbortedAtBoundary
  repeat' first
    | with_reducible assumption | with_reducible apply okO_ite | with_reducible apply okO_next | with_reducible apply okO_fault
    | with_reducible apply okO_refused | with_reducible apply ok_ite | with_reducible apply complete_ok
    | with_reducible apply done_ok | with_reducible apply dropPlans_ok | split | (with_reducible intro u x hu)
    | (with_reducible intro u hu) | dsimp only
    | (fail_if_no_progress refine ok_mk ?_ (by and_intros <;> first | with_reducible exact Or.inl rfl | exact Or.inr (by assumption)))

end Sys2Proof.Machine
end

