-- ==== Sys2Proof/Laws/State.lean ====
section
/-!
SUPPORT. What the updates of the state leave: one lemma per update, for every other field and for every register read, so that no later
proof unfolds one (spec/00_scope.md R6 to R10, spec/01_architecture.md R22).
-/
namespace Sys2Proof.Machine
open Sys2Proof

/-! ### Updates of one field -/

@[simp] theorem atOfs_frame (ofs : Nat) (s : State) : (atOfs ofs s).pending = s.pending ∧ (atOfs ofs s).bnd = s.bnd ∧ (atOfs
    ofs s).fresh = s.fresh ∧ (atOfs ofs s).regs = s.regs ∧ (atOfs ofs s).accepted = s.accepted ∧ (atOfs ofs s).nextRegs =
    s.nextRegs ∧ (atOfs ofs s).mem = s.mem ∧ (atOfs ofs s).lost = s.lost ∧ (atOfs ofs s).ledger = s.ledger ∧ (atOfs ofs s).fab
    = s.fab ∧ (atOfs ofs s).offers = s.offers ∧ (atOfs ofs s).sent = s.sent ∧ (atOfs ofs s).afe = s.afe ∧ (atOfs ofs s).cnv =
    s.cnv ∧ (atOfs ofs s).lapInfo = s.lapInfo ∧ (atOfs ofs s).red = s.red ∧ (atOfs ofs s).out = s.out ∧ (atOfs ofs s).acq =
    s.acq ∧ (atOfs ofs s).ctl = s.ctl ∧ (atOfs ofs s).cores = s.cores ∧ (atOfs ofs s).lanes = s.lanes ∧ (atOfs ofs s).wot =
    s.wot ∧ (atOfs ofs s).eth = s.eth ∧ (atOfs ofs s).dmc = s.dmc ∧ (atOfs ofs s).twin = s.twin ∧ (atOfs ofs s).hlt = s.hlt ∧
    (atOfs ofs s).pwr = s.pwr ∧ (atOfs ofs s).svc = s.svc ∧ (atOfs ofs s).jtag = s.jtag ∧ (∀ a, rd (atOfs ofs s) a = rd s a) ∧
    (∀ f, fld (atOfs ofs s) f = fld s f) ∧ (∀ f, flag (atOfs ofs s) f = flag s f) := ⟨rfl, rfl, rfl, rfl, rfl, rfl, rfl, rfl,
    rfl, rfl, rfl, rfl, rfl, rfl, rfl, rfl, rfl, rfl, rfl, rfl, rfl, rfl, rfl, rfl, rfl, rfl, rfl, rfl, rfl, fun _ => rfl, fun
    _ => rfl, fun _ => rfl⟩

@[simp] theorem atOfs_tbs (ofs : Nat) (s : State) :
    (atOfs ofs s).tbs = { s.tbs with pacer := { s.tbs.pacer with ofs := max s.tbs.pacer.ofs (min ofs (lapLength s - 1)) } } := rfl

@[simp] theorem freshen_frame (s : State) : (freshen s).pending = s.pending ∧ (freshen s).bnd = s.bnd ∧ (freshen s).regs =
    s.regs ∧ (freshen s).accepted = s.accepted ∧ (freshen s).nextRegs = s.nextRegs ∧ (freshen s).mem = s.mem ∧ (freshen
    s).lost = s.lost ∧ (freshen s).ledger = s.ledger ∧ (freshen s).fab = s.fab ∧ (freshen s).offers = s.offers ∧ (freshen
    s).sent = s.sent ∧ (freshen s).tbs = s.tbs ∧ (freshen s).afe = s.afe ∧ (freshen s).cnv = s.cnv ∧ (freshen s).lapInfo =
    s.lapInfo ∧ (freshen s).red = s.red ∧ (freshen s).out = s.out ∧ (freshen s).acq = s.acq ∧ (freshen s).ctl = s.ctl ∧
    (freshen s).cores = s.cores ∧ (freshen s).lanes = s.lanes ∧ (freshen s).wot = s.wot ∧ (freshen s).eth = s.eth ∧ (freshen
    s).dmc = s.dmc ∧ (freshen s).twin = s.twin ∧ (freshen s).hlt = s.hlt ∧ (freshen s).pwr = s.pwr ∧ (freshen s).svc = s.svc ∧
    (freshen s).jtag = s.jtag ∧ (∀ a, rd (freshen s) a = rd s a) ∧ (∀ f, fld (freshen s) f = fld s f) ∧ (∀ f, flag (freshen s)
    f = flag s f) := ⟨rfl, rfl, rfl, rfl, rfl, rfl, rfl, rfl, rfl, rfl, rfl, rfl, rfl, rfl, rfl, rfl, rfl, rfl, rfl, rfl, rfl,
    rfl, rfl, rfl, rfl, rfl, rfl, rfl, rfl, fun _ => rfl, fun _ => rfl, fun _ => rfl⟩

@[simp] theorem freshen_fresh (s : State) :
    (freshen s).fresh = s.fresh + 1 := rfl

@[simp] theorem mput_frame (s : State) (a : Nat) (b : Byte) : (mput s a b).pending = s.pending ∧ (mput s a b).bnd = s.bnd ∧
    (mput s a b).fresh = s.fresh ∧ (mput s a b).regs = s.regs ∧ (mput s a b).accepted = s.accepted ∧ (mput s a b).nextRegs =
    s.nextRegs ∧ (mput s a b).lost = s.lost ∧ (mput s a b).ledger = s.ledger ∧ (mput s a b).fab = s.fab ∧ (mput s a b).offers
    = s.offers ∧ (mput s a b).sent = s.sent ∧ (mput s a b).tbs = s.tbs ∧ (mput s a b).afe = s.afe ∧ (mput s a b).cnv = s.cnv ∧
    (mput s a b).lapInfo = s.lapInfo ∧ (mput s a b).red = s.red ∧ (mput s a b).out = s.out ∧ (mput s a b).acq = s.acq ∧ (mput
    s a b).ctl = s.ctl ∧ (mput s a b).cores = s.cores ∧ (mput s a b).lanes = s.lanes ∧ (mput s a b).wot = s.wot ∧ (mput s a
    b).eth = s.eth ∧ (mput s a b).dmc = s.dmc ∧ (mput s a b).twin = s.twin ∧ (mput s a b).hlt = s.hlt ∧ (mput s a b).pwr =
    s.pwr ∧ (mput s a b).svc = s.svc ∧ (mput s a b).jtag = s.jtag ∧ (∀ a0, rd (mput s a b) a0 = rd s a0) ∧ (∀ f, fld (mput s a
    b) f = fld s f) ∧ (∀ f, flag (mput s a b) f = flag s f) := ⟨rfl, rfl, rfl, rfl, rfl, rfl, rfl, rfl, rfl, rfl, rfl, rfl,
    rfl, rfl, rfl, rfl, rfl, rfl, rfl, rfl, rfl, rfl, rfl, rfl, rfl, rfl, rfl, rfl, rfl, fun _ => rfl, fun _ => rfl, fun _ =>
    rfl⟩

@[simp] theorem mput_mem (s : State) (a : Nat) (b : Byte) :
    (mput s a b).mem = tput (blankByte s.lost) s.mem a b := rfl

@[simp] theorem setLatent_frame (k : Nat) (l : List Nat) (s : State) : (setLatent k l s).pending = s.pending ∧ (setLatent k l
    s).bnd = s.bnd ∧ (setLatent k l s).fresh = s.fresh ∧ (setLatent k l s).regs = s.regs ∧ (setLatent k l s).accepted =
    s.accepted ∧ (setLatent k l s).nextRegs = s.nextRegs ∧ (setLatent k l s).mem = s.mem ∧ (setLatent k l s).lost = s.lost ∧
    (setLatent k l s).ledger = s.ledger ∧ (setLatent k l s).fab = s.fab ∧ (setLatent k l s).offers = s.offers ∧ (setLatent k l
    s).sent = s.sent ∧ (setLatent k l s).tbs = s.tbs ∧ (setLatent k l s).afe = s.afe ∧ (setLatent k l s).cnv = s.cnv ∧
    (setLatent k l s).lapInfo = s.lapInfo ∧ (setLatent k l s).red = s.red ∧ (setLatent k l s).out = s.out ∧ (setLatent k l
    s).acq = s.acq ∧ (setLatent k l s).ctl = s.ctl ∧ (setLatent k l s).cores = s.cores ∧ (setLatent k l s).lanes = s.lanes ∧
    (setLatent k l s).wot = s.wot ∧ (setLatent k l s).eth = s.eth ∧ (setLatent k l s).twin = s.twin ∧ (setLatent k l s).hlt =
    s.hlt ∧ (setLatent k l s).pwr = s.pwr ∧ (setLatent k l s).svc = s.svc ∧ (setLatent k l s).jtag = s.jtag ∧ (∀ a, rd
    (setLatent k l s) a = rd s a) ∧ (∀ f, fld (setLatent k l s) f = fld s f) ∧ (∀ f, flag (setLatent k l s) f = flag s f) :=
    ⟨rfl, rfl, rfl, rfl, rfl, rfl, rfl, rfl, rfl, rfl, rfl, rfl, rfl, rfl, rfl, rfl, rfl, rfl, rfl, rfl, rfl, rfl, rfl, rfl,
    rfl, rfl, rfl, rfl, rfl, fun _ => rfl, fun _ => rfl, fun _ => rfl⟩

@[simp] theorem setLatent_dmc (k : Nat) (l : List Nat) (s : State) :
    (setLatent k l s).dmc = { s.dmc with latent := tput (fun _ => []) s.dmc.latent k l } := rfl

@[simp] theorem setPend_frame (s : State) (c : Nat) (k : Nat) (w : Word) : (setPend s c k w).pending = s.pending ∧ (setPend s
    c k w).bnd = s.bnd ∧ (setPend s c k w).fresh = s.fresh ∧ (setPend s c k w).regs = s.regs ∧ (setPend s c k w).accepted =
    s.accepted ∧ (setPend s c k w).nextRegs = s.nextRegs ∧ (setPend s c k w).mem = s.mem ∧ (setPend s c k w).lost = s.lost ∧
    (setPend s c k w).ledger = s.ledger ∧ (setPend s c k w).offers = s.offers ∧ (setPend s c k w).sent = s.sent ∧ (setPend s c
    k w).tbs = s.tbs ∧ (setPend s c k w).afe = s.afe ∧ (setPend s c k w).cnv = s.cnv ∧ (setPend s c k w).lapInfo = s.lapInfo ∧
    (setPend s c k w).red = s.red ∧ (setPend s c k w).out = s.out ∧ (setPend s c k w).acq = s.acq ∧ (setPend s c k w).ctl =
    s.ctl ∧ (setPend s c k w).cores = s.cores ∧ (setPend s c k w).lanes = s.lanes ∧ (setPend s c k w).wot = s.wot ∧ (setPend s
    c k w).eth = s.eth ∧ (setPend s c k w).dmc = s.dmc ∧ (setPend s c k w).twin = s.twin ∧ (setPend s c k w).hlt = s.hlt ∧
    (setPend s c k w).pwr = s.pwr ∧ (setPend s c k w).svc = s.svc ∧ (setPend s c k w).jtag = s.jtag ∧ (∀ a, rd (setPend s c k
    w) a = rd s a) ∧ (∀ f, fld (setPend s c k w) f = fld s f) ∧ (∀ f, flag (setPend s c k w) f = flag s f) := ⟨rfl, rfl, rfl,
    rfl, rfl, rfl, rfl, rfl, rfl, rfl, rfl, rfl, rfl, rfl, rfl, rfl, rfl, rfl, rfl, rfl, rfl, rfl, rfl, rfl, rfl, rfl, rfl,
    rfl, rfl, fun _ => rfl, fun _ => rfl, fun _ => rfl⟩

@[simp] theorem setPend_fab (s : State) (c : Nat) (k : Nat) (w : Word) :
    (setPend s c k w).fab = { s.fab with pend := tput (fun _ => (0 : Word)) s.fab.pend (c * 8 + k) w } := rfl

@[simp] theorem setCount_frame (s : State) (n : Nat) (v : Nat) : (setCount s n v).pending = s.pending ∧ (setCount s n v).bnd =
    s.bnd ∧ (setCount s n v).fresh = s.fresh ∧ (setCount s n v).regs = s.regs ∧ (setCount s n v).accepted = s.accepted ∧
    (setCount s n v).nextRegs = s.nextRegs ∧ (setCount s n v).mem = s.mem ∧ (setCount s n v).lost = s.lost ∧ (setCount s n
    v).ledger = s.ledger ∧ (setCount s n v).offers = s.offers ∧ (setCount s n v).sent = s.sent ∧ (setCount s n v).tbs = s.tbs
    ∧ (setCount s n v).afe = s.afe ∧ (setCount s n v).cnv = s.cnv ∧ (setCount s n v).lapInfo = s.lapInfo ∧ (setCount s n
    v).red = s.red ∧ (setCount s n v).out = s.out ∧ (setCount s n v).acq = s.acq ∧ (setCount s n v).ctl = s.ctl ∧ (setCount s
    n v).cores = s.cores ∧ (setCount s n v).lanes = s.lanes ∧ (setCount s n v).wot = s.wot ∧ (setCount s n v).eth = s.eth ∧
    (setCount s n v).dmc = s.dmc ∧ (setCount s n v).twin = s.twin ∧ (setCount s n v).hlt = s.hlt ∧ (setCount s n v).pwr =
    s.pwr ∧ (setCount s n v).svc = s.svc ∧ (setCount s n v).jtag = s.jtag ∧ (∀ a, rd (setCount s n v) a = rd s a) ∧ (∀ f, fld
    (setCount s n v) f = fld s f) ∧ (∀ f, flag (setCount s n v) f = flag s f) := ⟨rfl, rfl, rfl, rfl, rfl, rfl, rfl, rfl, rfl,
    rfl, rfl, rfl, rfl, rfl, rfl, rfl, rfl, rfl, rfl, rfl, rfl, rfl, rfl, rfl, rfl, rfl, rfl, rfl, rfl, fun _ => rfl, fun _ =>
    rfl, fun _ => rfl⟩

@[simp] theorem setCount_fab (s : State) (n : Nat) (v : Nat) :
    (setCount s n v).fab = { s.fab with counts := tput (fun _ => 0) s.fab.counts n v } := rfl

@[simp] theorem offer_frame (o : Offer) (s : State) : (offer o s).pending = s.pending ∧ (offer o s).bnd = s.bnd ∧ (offer o
    s).fresh = s.fresh ∧ (offer o s).regs = s.regs ∧ (offer o s).accepted = s.accepted ∧ (offer o s).nextRegs = s.nextRegs ∧
    (offer o s).mem = s.mem ∧ (offer o s).lost = s.lost ∧ (offer o s).ledger = s.ledger ∧ (offer o s).fab = s.fab ∧ (offer o
    s).sent = s.sent ∧ (offer o s).tbs = s.tbs ∧ (offer o s).afe = s.afe ∧ (offer o s).cnv = s.cnv ∧ (offer o s).lapInfo =
    s.lapInfo ∧ (offer o s).red = s.red ∧ (offer o s).out = s.out ∧ (offer o s).acq = s.acq ∧ (offer o s).ctl = s.ctl ∧ (offer
    o s).cores = s.cores ∧ (offer o s).lanes = s.lanes ∧ (offer o s).wot = s.wot ∧ (offer o s).eth = s.eth ∧ (offer o s).dmc =
    s.dmc ∧ (offer o s).twin = s.twin ∧ (offer o s).hlt = s.hlt ∧ (offer o s).pwr = s.pwr ∧ (offer o s).svc = s.svc ∧ (offer o
    s).jtag = s.jtag ∧ (∀ a, rd (offer o s) a = rd s a) ∧ (∀ f, fld (offer o s) f = fld s f) ∧ (∀ f, flag (offer o s) f = flag
    s f) := ⟨rfl, rfl, rfl, rfl, rfl, rfl, rfl, rfl, rfl, rfl, rfl, rfl, rfl, rfl, rfl, rfl, rfl, rfl, rfl, rfl, rfl, rfl,
    rfl, rfl, rfl, rfl, rfl, rfl, rfl, fun _ => rfl, fun _ => rfl, fun _ => rfl⟩

@[simp] theorem offer_offers (o : Offer) (s : State) :
    (offer o s).offers = s.offers ++ [o] := rfl

@[simp] theorem loosen_frame (s : State) : (loosen s).pending = s.pending ∧ (loosen s).bnd = s.bnd ∧ (loosen s).fresh =
    s.fresh ∧ (loosen s).regs = s.regs ∧ (loosen s).accepted = s.accepted ∧ (loosen s).nextRegs = s.nextRegs ∧ (loosen s).mem
    = s.mem ∧ (loosen s).lost = s.lost ∧ (loosen s).ledger = s.ledger ∧ (loosen s).offers = s.offers ∧ (loosen s).sent =
    s.sent ∧ (loosen s).tbs = s.tbs ∧ (loosen s).afe = s.afe ∧ (loosen s).cnv = s.cnv ∧ (loosen s).lapInfo = s.lapInfo ∧
    (loosen s).red = s.red ∧ (loosen s).out = s.out ∧ (loosen s).acq = s.acq ∧ (loosen s).ctl = s.ctl ∧ (loosen s).cores =
    s.cores ∧ (loosen s).lanes = s.lanes ∧ (loosen s).wot = s.wot ∧ (loosen s).eth = s.eth ∧ (loosen s).dmc = s.dmc ∧ (loosen
    s).twin = s.twin ∧ (loosen s).hlt = s.hlt ∧ (loosen s).pwr = s.pwr ∧ (loosen s).svc = s.svc ∧ (loosen s).jtag = s.jtag ∧
    (∀ a, rd (loosen s) a = rd s a) ∧ (∀ f, fld (loosen s) f = fld s f) ∧ (∀ f, flag (loosen s) f = flag s f) := ⟨rfl, rfl,
    rfl, rfl, rfl, rfl, rfl, rfl, rfl, rfl, rfl, rfl, rfl, rfl, rfl, rfl, rfl, rfl, rfl, rfl, rfl, rfl, rfl, rfl, rfl, rfl,
    rfl, rfl, rfl, fun _ => rfl, fun _ => rfl, fun _ => rfl⟩

@[simp] theorem loosen_fab (s : State) :
    (loosen s).fab = { inThisCycle s s.fab with loose := true } := rfl

@[simp] theorem emit_frame (p : Port) (d : List Byte) (s : State) : (emit p d s).pending = s.pending ∧ (emit p d s).bnd =
    s.bnd ∧ (emit p d s).fresh = s.fresh ∧ (emit p d s).regs = s.regs ∧ (emit p d s).accepted = s.accepted ∧ (emit p d
    s).nextRegs = s.nextRegs ∧ (emit p d s).mem = s.mem ∧ (emit p d s).lost = s.lost ∧ (emit p d s).ledger = s.ledger ∧ (emit
    p d s).fab = s.fab ∧ (emit p d s).offers = s.offers ∧ (emit p d s).tbs = s.tbs ∧ (emit p d s).afe = s.afe ∧ (emit p d
    s).cnv = s.cnv ∧ (emit p d s).lapInfo = s.lapInfo ∧ (emit p d s).red = s.red ∧ (emit p d s).out = s.out ∧ (emit p d s).acq
    = s.acq ∧ (emit p d s).ctl = s.ctl ∧ (emit p d s).cores = s.cores ∧ (emit p d s).lanes = s.lanes ∧ (emit p d s).wot =
    s.wot ∧ (emit p d s).eth = s.eth ∧ (emit p d s).dmc = s.dmc ∧ (emit p d s).twin = s.twin ∧ (emit p d s).hlt = s.hlt ∧
    (emit p d s).pwr = s.pwr ∧ (emit p d s).svc = s.svc ∧ (emit p d s).jtag = s.jtag ∧ (∀ a, rd (emit p d s) a = rd s a) ∧ (∀
    f, fld (emit p d s) f = fld s f) ∧ (∀ f, flag (emit p d s) f = flag s f) := ⟨rfl, rfl, rfl, rfl, rfl, rfl, rfl, rfl, rfl,
    rfl, rfl, rfl, rfl, rfl, rfl, rfl, rfl, rfl, rfl, rfl, rfl, rfl, rfl, rfl, rfl, rfl, rfl, rfl, rfl, fun _ => rfl, fun _ =>
    rfl, fun _ => rfl⟩

@[simp] theorem emit_sent (p : Port) (d : List Byte) (s : State) :
    (emit p d s).sent = s.sent ++ [⟨p, d⟩] := rfl

@[simp] theorem setCores_frame (x : Cores) (s : State) : (setCores x s).pending = s.pending ∧ (setCores x s).bnd = s.bnd ∧
    (setCores x s).fresh = s.fresh ∧ (setCores x s).regs = s.regs ∧ (setCores x s).accepted = s.accepted ∧ (setCores x
    s).nextRegs = s.nextRegs ∧ (setCores x s).mem = s.mem ∧ (setCores x s).lost = s.lost ∧ (setCores x s).ledger = s.ledger ∧
    (setCores x s).fab = s.fab ∧ (setCores x s).offers = s.offers ∧ (setCores x s).sent = s.sent ∧ (setCores x s).tbs = s.tbs
    ∧ (setCores x s).afe = s.afe ∧ (setCores x s).cnv = s.cnv ∧ (setCores x s).lapInfo = s.lapInfo ∧ (setCores x s).red =
    s.red ∧ (setCores x s).out = s.out ∧ (setCores x s).acq = s.acq ∧ (setCores x s).ctl = s.ctl ∧ (setCores x s).lanes =
    s.lanes ∧ (setCores x s).wot = s.wot ∧ (setCores x s).eth = s.eth ∧ (setCores x s).dmc = s.dmc ∧ (setCores x s).twin =
    s.twin ∧ (setCores x s).hlt = s.hlt ∧ (setCores x s).pwr = s.pwr ∧ (setCores x s).svc = s.svc ∧ (setCores x s).jtag =
    s.jtag ∧ (∀ a, rd (setCores x s) a = rd s a) ∧ (∀ f, fld (setCores x s) f = fld s f) ∧ (∀ f, flag (setCores x s) f = flag
    s f) := ⟨rfl, rfl, rfl, rfl, rfl, rfl, rfl, rfl, rfl, rfl, rfl, rfl, rfl, rfl, rfl, rfl, rfl, rfl, rfl, rfl, rfl, rfl,
    rfl, rfl, rfl, rfl, rfl, rfl, rfl, fun _ => rfl, fun _ => rfl, fun _ => rfl⟩

@[simp] theorem setCores_cores (x : Cores) (s : State) :
    (setCores x s).cores = x := rfl

@[simp] theorem setCore_frame (n : Nat) (x : Core) (s : State) : (setCore n x s).pending = s.pending ∧ (setCore n x s).bnd =
    s.bnd ∧ (setCore n x s).fresh = s.fresh ∧ (setCore n x s).regs = s.regs ∧ (setCore n x s).accepted = s.accepted ∧ (setCore
    n x s).nextRegs = s.nextRegs ∧ (setCore n x s).mem = s.mem ∧ (setCore n x s).lost = s.lost ∧ (setCore n x s).ledger =
    s.ledger ∧ (setCore n x s).fab = s.fab ∧ (setCore n x s).offers = s.offers ∧ (setCore n x s).sent = s.sent ∧ (setCore n x
    s).tbs = s.tbs ∧ (setCore n x s).afe = s.afe ∧ (setCore n x s).cnv = s.cnv ∧ (setCore n x s).lapInfo = s.lapInfo ∧
    (setCore n x s).red = s.red ∧ (setCore n x s).out = s.out ∧ (setCore n x s).acq = s.acq ∧ (setCore n x s).ctl = s.ctl ∧
    (setCore n x s).lanes = s.lanes ∧ (setCore n x s).wot = s.wot ∧ (setCore n x s).eth = s.eth ∧ (setCore n x s).dmc = s.dmc
    ∧ (setCore n x s).twin = s.twin ∧ (setCore n x s).hlt = s.hlt ∧ (setCore n x s).pwr = s.pwr ∧ (setCore n x s).svc = s.svc
    ∧ (setCore n x s).jtag = s.jtag ∧ (∀ a, rd (setCore n x s) a = rd s a) ∧ (∀ f, fld (setCore n x s) f = fld s f) ∧ (∀ f,
    flag (setCore n x s) f = flag s f) := ⟨rfl, rfl, rfl, rfl, rfl, rfl, rfl, rfl, rfl, rfl, rfl, rfl, rfl, rfl, rfl, rfl,
    rfl, rfl, rfl, rfl, rfl, rfl, rfl, rfl, rfl, rfl, rfl, rfl, rfl, fun _ => rfl, fun _ => rfl, fun _ => rfl⟩

@[simp] theorem setCore_cores (n : Nat) (x : Core) (s : State) :
    (setCore n x s).cores = { s.cores with core := tput coreReset s.cores.core n x } := rfl

@[simp] theorem setDmc_frame (x : Dmc) (s : State) : (setDmc x s).pending = s.pending ∧ (setDmc x s).bnd = s.bnd ∧ (setDmc x
    s).fresh = s.fresh ∧ (setDmc x s).regs = s.regs ∧ (setDmc x s).accepted = s.accepted ∧ (setDmc x s).nextRegs = s.nextRegs
    ∧ (setDmc x s).mem = s.mem ∧ (setDmc x s).lost = s.lost ∧ (setDmc x s).ledger = s.ledger ∧ (setDmc x s).fab = s.fab ∧
    (setDmc x s).offers = s.offers ∧ (setDmc x s).sent = s.sent ∧ (setDmc x s).tbs = s.tbs ∧ (setDmc x s).afe = s.afe ∧
    (setDmc x s).cnv = s.cnv ∧ (setDmc x s).lapInfo = s.lapInfo ∧ (setDmc x s).red = s.red ∧ (setDmc x s).out = s.out ∧
    (setDmc x s).acq = s.acq ∧ (setDmc x s).ctl = s.ctl ∧ (setDmc x s).cores = s.cores ∧ (setDmc x s).lanes = s.lanes ∧
    (setDmc x s).wot = s.wot ∧ (setDmc x s).eth = s.eth ∧ (setDmc x s).twin = s.twin ∧ (setDmc x s).hlt = s.hlt ∧ (setDmc x
    s).pwr = s.pwr ∧ (setDmc x s).svc = s.svc ∧ (setDmc x s).jtag = s.jtag ∧ (∀ a, rd (setDmc x s) a = rd s a) ∧ (∀ f, fld
    (setDmc x s) f = fld s f) ∧ (∀ f, flag (setDmc x s) f = flag s f) := ⟨rfl, rfl, rfl, rfl, rfl, rfl, rfl, rfl, rfl, rfl,
    rfl, rfl, rfl, rfl, rfl, rfl, rfl, rfl, rfl, rfl, rfl, rfl, rfl, rfl, rfl, rfl, rfl, rfl, rfl, fun _ => rfl, fun _ => rfl,
    fun _ => rfl⟩

@[simp] theorem setDmc_dmc (x : Dmc) (s : State) :
    (setDmc x s).dmc = x := rfl

@[simp] theorem setPacer_frame (p : Pacer) (s : State) : (setPacer p s).pending = s.pending ∧ (setPacer p s).bnd = s.bnd ∧
    (setPacer p s).fresh = s.fresh ∧ (setPacer p s).regs = s.regs ∧ (setPacer p s).accepted = s.accepted ∧ (setPacer p
    s).nextRegs = s.nextRegs ∧ (setPacer p s).mem = s.mem ∧ (setPacer p s).lost = s.lost ∧ (setPacer p s).ledger = s.ledger ∧
    (setPacer p s).fab = s.fab ∧ (setPacer p s).offers = s.offers ∧ (setPacer p s).sent = s.sent ∧ (setPacer p s).afe = s.afe
    ∧ (setPacer p s).cnv = s.cnv ∧ (setPacer p s).lapInfo = s.lapInfo ∧ (setPacer p s).red = s.red ∧ (setPacer p s).out =
    s.out ∧ (setPacer p s).acq = s.acq ∧ (setPacer p s).ctl = s.ctl ∧ (setPacer p s).cores = s.cores ∧ (setPacer p s).lanes =
    s.lanes ∧ (setPacer p s).wot = s.wot ∧ (setPacer p s).eth = s.eth ∧ (setPacer p s).dmc = s.dmc ∧ (setPacer p s).twin =
    s.twin ∧ (setPacer p s).hlt = s.hlt ∧ (setPacer p s).pwr = s.pwr ∧ (setPacer p s).svc = s.svc ∧ (setPacer p s).jtag =
    s.jtag ∧ (∀ a, rd (setPacer p s) a = rd s a) ∧ (∀ f, fld (setPacer p s) f = fld s f) ∧ (∀ f, flag (setPacer p s) f = flag
    s f) := ⟨rfl, rfl, rfl, rfl, rfl, rfl, rfl, rfl, rfl, rfl, rfl, rfl, rfl, rfl, rfl, rfl, rfl, rfl, rfl, rfl, rfl, rfl,
    rfl, rfl, rfl, rfl, rfl, rfl, rfl, fun _ => rfl, fun _ => rfl, fun _ => rfl⟩

@[simp] theorem setPacer_tbs (p : Pacer) (s : State) :
    (setPacer p s).tbs = { s.tbs with pacer := p } := rfl

@[simp] theorem setTally_frame (n : Nat) (x : TallyRun) (s : State) : (setTally n x s).pending = s.pending ∧ (setTally n x
    s).bnd = s.bnd ∧ (setTally n x s).fresh = s.fresh ∧ (setTally n x s).regs = s.regs ∧ (setTally n x s).accepted =
    s.accepted ∧ (setTally n x s).nextRegs = s.nextRegs ∧ (setTally n x s).mem = s.mem ∧ (setTally n x s).lost = s.lost ∧
    (setTally n x s).ledger = s.ledger ∧ (setTally n x s).fab = s.fab ∧ (setTally n x s).offers = s.offers ∧ (setTally n x
    s).sent = s.sent ∧ (setTally n x s).afe = s.afe ∧ (setTally n x s).cnv = s.cnv ∧ (setTally n x s).lapInfo = s.lapInfo ∧
    (setTally n x s).red = s.red ∧ (setTally n x s).out = s.out ∧ (setTally n x s).acq = s.acq ∧ (setTally n x s).ctl = s.ctl
    ∧ (setTally n x s).cores = s.cores ∧ (setTally n x s).lanes = s.lanes ∧ (setTally n x s).wot = s.wot ∧ (setTally n x
    s).eth = s.eth ∧ (setTally n x s).dmc = s.dmc ∧ (setTally n x s).twin = s.twin ∧ (setTally n x s).hlt = s.hlt ∧ (setTally
    n x s).pwr = s.pwr ∧ (setTally n x s).svc = s.svc ∧ (setTally n x s).jtag = s.jtag ∧ (∀ a, rd (setTally n x s) a = rd s a)
    ∧ (∀ f, fld (setTally n x s) f = fld s f) ∧ (∀ f, flag (setTally n x s) f = flag s f) := ⟨rfl, rfl, rfl, rfl, rfl, rfl,
    rfl, rfl, rfl, rfl, rfl, rfl, rfl, rfl, rfl, rfl, rfl, rfl, rfl, rfl, rfl, rfl, rfl, rfl, rfl, rfl, rfl, rfl, rfl, fun _
    => rfl, fun _ => rfl, fun _ => rfl⟩

@[simp] theorem setTally_tbs (n : Nat) (x : TallyRun) (s : State) :
    (setTally n x s).tbs = { s.tbs with tally := tput (fun _ => ({ } : TallyRun)) s.tbs.tally n x } := rfl

@[simp] theorem setEncIn_frame (k : Nat) (f : Nat) (x : EncIn) (s : State) : (setEncIn k f x s).pending = s.pending ∧
    (setEncIn k f x s).bnd = s.bnd ∧ (setEncIn k f x s).fresh = s.fresh ∧ (setEncIn k f x s).regs = s.regs ∧ (setEncIn k f x
    s).accepted = s.accepted ∧ (setEncIn k f x s).nextRegs = s.nextRegs ∧ (setEncIn k f x s).mem = s.mem ∧ (setEncIn k f x
    s).lost = s.lost ∧ (setEncIn k f x s).ledger = s.ledger ∧ (setEncIn k f x s).fab = s.fab ∧ (setEncIn k f x s).offers =
    s.offers ∧ (setEncIn k f x s).sent = s.sent ∧ (setEncIn k f x s).afe = s.afe ∧ (setEncIn k f x s).cnv = s.cnv ∧ (setEncIn
    k f x s).lapInfo = s.lapInfo ∧ (setEncIn k f x s).red = s.red ∧ (setEncIn k f x s).out = s.out ∧ (setEncIn k f x s).acq =
    s.acq ∧ (setEncIn k f x s).ctl = s.ctl ∧ (setEncIn k f x s).cores = s.cores ∧ (setEncIn k f x s).lanes = s.lanes ∧
    (setEncIn k f x s).wot = s.wot ∧ (setEncIn k f x s).eth = s.eth ∧ (setEncIn k f x s).dmc = s.dmc ∧ (setEncIn k f x s).twin
    = s.twin ∧ (setEncIn k f x s).hlt = s.hlt ∧ (setEncIn k f x s).pwr = s.pwr ∧ (setEncIn k f x s).svc = s.svc ∧ (setEncIn k
    f x s).jtag = s.jtag ∧ (∀ a, rd (setEncIn k f x s) a = rd s a) ∧ (∀ f0, fld (setEncIn k f x s) f0 = fld s f0) ∧ (∀ f0,
    flag (setEncIn k f x s) f0 = flag s f0) := ⟨rfl, rfl, rfl, rfl, rfl, rfl, rfl, rfl, rfl, rfl, rfl, rfl, rfl, rfl, rfl,
    rfl, rfl, rfl, rfl, rfl, rfl, rfl, rfl, rfl, rfl, rfl, rfl, rfl, rfl, fun _ => rfl, fun _ => rfl, fun _ => rfl⟩

@[simp] theorem setEncIn_tbs (k : Nat) (f : Nat) (x : EncIn) (s : State) :
    (setEncIn k f x s).tbs = { s.tbs with enc := tput (fun _ => ({ } : EncIn)) s.tbs.enc (k * 4 + f) x } := rfl

@[simp] theorem setMains_frame (m : Mains) (s : State) : (setMains m s).pending = s.pending ∧ (setMains m s).bnd = s.bnd ∧
    (setMains m s).fresh = s.fresh ∧ (setMains m s).regs = s.regs ∧ (setMains m s).accepted = s.accepted ∧ (setMains m
    s).nextRegs = s.nextRegs ∧ (setMains m s).mem = s.mem ∧ (setMains m s).lost = s.lost ∧ (setMains m s).ledger = s.ledger ∧
    (setMains m s).fab = s.fab ∧ (setMains m s).offers = s.offers ∧ (setMains m s).sent = s.sent ∧ (setMains m s).afe = s.afe
    ∧ (setMains m s).cnv = s.cnv ∧ (setMains m s).lapInfo = s.lapInfo ∧ (setMains m s).red = s.red ∧ (setMains m s).out =
    s.out ∧ (setMains m s).acq = s.acq ∧ (setMains m s).ctl = s.ctl ∧ (setMains m s).cores = s.cores ∧ (setMains m s).lanes =
    s.lanes ∧ (setMains m s).wot = s.wot ∧ (setMains m s).eth = s.eth ∧ (setMains m s).dmc = s.dmc ∧ (setMains m s).twin =
    s.twin ∧ (setMains m s).hlt = s.hlt ∧ (setMains m s).pwr = s.pwr ∧ (setMains m s).svc = s.svc ∧ (setMains m s).jtag =
    s.jtag ∧ (∀ a, rd (setMains m s) a = rd s a) ∧ (∀ f, fld (setMains m s) f = fld s f) ∧ (∀ f, flag (setMains m s) f = flag
    s f) := ⟨rfl, rfl, rfl, rfl, rfl, rfl, rfl, rfl, rfl, rfl, rfl, rfl, rfl, rfl, rfl, rfl, rfl, rfl, rfl, rfl, rfl, rfl,
    rfl, rfl, rfl, rfl, rfl, rfl, rfl, fun _ => rfl, fun _ => rfl, fun _ => rfl⟩

@[simp] theorem setMains_tbs (m : Mains) (s : State) :
    (setMains m s).tbs = { s.tbs with mains := m } := rfl

@[simp] theorem setMarks_frame (c : Nat) (kind : Nat) (l : List (Nat × Nat)) (s : State) : (setMarks c kind l s).pending =
    s.pending ∧ (setMarks c kind l s).bnd = s.bnd ∧ (setMarks c kind l s).fresh = s.fresh ∧ (setMarks c kind l s).regs =
    s.regs ∧ (setMarks c kind l s).accepted = s.accepted ∧ (setMarks c kind l s).nextRegs = s.nextRegs ∧ (setMarks c kind l
    s).mem = s.mem ∧ (setMarks c kind l s).lost = s.lost ∧ (setMarks c kind l s).ledger = s.ledger ∧ (setMarks c kind l s).fab
    = s.fab ∧ (setMarks c kind l s).offers = s.offers ∧ (setMarks c kind l s).sent = s.sent ∧ (setMarks c kind l s).tbs =
    s.tbs ∧ (setMarks c kind l s).afe = s.afe ∧ (setMarks c kind l s).cnv = s.cnv ∧ (setMarks c kind l s).lapInfo = s.lapInfo
    ∧ (setMarks c kind l s).out = s.out ∧ (setMarks c kind l s).acq = s.acq ∧ (setMarks c kind l s).ctl = s.ctl ∧ (setMarks c
    kind l s).cores = s.cores ∧ (setMarks c kind l s).lanes = s.lanes ∧ (setMarks c kind l s).wot = s.wot ∧ (setMarks c kind l
    s).eth = s.eth ∧ (setMarks c kind l s).dmc = s.dmc ∧ (setMarks c kind l s).twin = s.twin ∧ (setMarks c kind l s).hlt =
    s.hlt ∧ (setMarks c kind l s).pwr = s.pwr ∧ (setMarks c kind l s).svc = s.svc ∧ (setMarks c kind l s).jtag = s.jtag ∧ (∀
    a, rd (setMarks c kind l s) a = rd s a) ∧ (∀ f, fld (setMarks c kind l s) f = fld s f) ∧ (∀ f, flag (setMarks c kind l s)
    f = flag s f) := ⟨rfl, rfl, rfl, rfl, rfl, rfl, rfl, rfl, rfl, rfl, rfl, rfl, rfl, rfl, rfl, rfl, rfl, rfl, rfl, rfl, rfl,
    rfl, rfl, rfl, rfl, rfl, rfl, rfl, rfl, fun _ => rfl, fun _ => rfl, fun _ => rfl⟩

@[simp] theorem setMarks_red (c : Nat) (kind : Nat) (l : List (Nat × Nat)) (s : State) :
    (setMarks c kind l s).red = { s.red with marks := tput (fun _ => []) s.red.marks (markKey c kind) l } := rfl

@[simp] theorem setBank_frame (b : Nat) (x : Bank) (s : State) : (setBank b x s).pending = s.pending ∧ (setBank b x s).bnd =
    s.bnd ∧ (setBank b x s).fresh = s.fresh ∧ (setBank b x s).regs = s.regs ∧ (setBank b x s).accepted = s.accepted ∧ (setBank
    b x s).nextRegs = s.nextRegs ∧ (setBank b x s).mem = s.mem ∧ (setBank b x s).lost = s.lost ∧ (setBank b x s).ledger =
    s.ledger ∧ (setBank b x s).fab = s.fab ∧ (setBank b x s).offers = s.offers ∧ (setBank b x s).sent = s.sent ∧ (setBank b x
    s).tbs = s.tbs ∧ (setBank b x s).cnv = s.cnv ∧ (setBank b x s).lapInfo = s.lapInfo ∧ (setBank b x s).red = s.red ∧
    (setBank b x s).out = s.out ∧ (setBank b x s).acq = s.acq ∧ (setBank b x s).ctl = s.ctl ∧ (setBank b x s).cores = s.cores
    ∧ (setBank b x s).lanes = s.lanes ∧ (setBank b x s).wot = s.wot ∧ (setBank b x s).eth = s.eth ∧ (setBank b x s).dmc =
    s.dmc ∧ (setBank b x s).twin = s.twin ∧ (setBank b x s).hlt = s.hlt ∧ (setBank b x s).pwr = s.pwr ∧ (setBank b x s).svc =
    s.svc ∧ (setBank b x s).jtag = s.jtag ∧ (∀ a, rd (setBank b x s) a = rd s a) ∧ (∀ f, fld (setBank b x s) f = fld s f) ∧ (∀
    f, flag (setBank b x s) f = flag s f) := ⟨rfl, rfl, rfl, rfl, rfl, rfl, rfl, rfl, rfl, rfl, rfl, rfl, rfl, rfl, rfl, rfl,
    rfl, rfl, rfl, rfl, rfl, rfl, rfl, rfl, rfl, rfl, rfl, rfl, rfl, fun _ => rfl, fun _ => rfl, fun _ => rfl⟩

@[simp] theorem setBank_afe (b : Nat) (x : Bank) (s : State) :
    (setBank b x s).afe = { s.afe with bank := tput (fun _ => ({ } : Bank)) s.afe.bank b x } := rfl

@[simp] theorem setChan_frame (c : Nat) (x : Chan) (s : State) : (setChan c x s).pending = s.pending ∧ (setChan c x s).bnd =
    s.bnd ∧ (setChan c x s).fresh = s.fresh ∧ (setChan c x s).regs = s.regs ∧ (setChan c x s).accepted = s.accepted ∧ (setChan
    c x s).nextRegs = s.nextRegs ∧ (setChan c x s).mem = s.mem ∧ (setChan c x s).lost = s.lost ∧ (setChan c x s).ledger =
    s.ledger ∧ (setChan c x s).fab = s.fab ∧ (setChan c x s).offers = s.offers ∧ (setChan c x s).sent = s.sent ∧ (setChan c x
    s).tbs = s.tbs ∧ (setChan c x s).cnv = s.cnv ∧ (setChan c x s).lapInfo = s.lapInfo ∧ (setChan c x s).red = s.red ∧
    (setChan c x s).out = s.out ∧ (setChan c x s).acq = s.acq ∧ (setChan c x s).ctl = s.ctl ∧ (setChan c x s).cores = s.cores
    ∧ (setChan c x s).lanes = s.lanes ∧ (setChan c x s).wot = s.wot ∧ (setChan c x s).eth = s.eth ∧ (setChan c x s).dmc =
    s.dmc ∧ (setChan c x s).twin = s.twin ∧ (setChan c x s).hlt = s.hlt ∧ (setChan c x s).pwr = s.pwr ∧ (setChan c x s).svc =
    s.svc ∧ (setChan c x s).jtag = s.jtag ∧ (∀ a, rd (setChan c x s) a = rd s a) ∧ (∀ f, fld (setChan c x s) f = fld s f) ∧ (∀
    f, flag (setChan c x s) f = flag s f) := ⟨rfl, rfl, rfl, rfl, rfl, rfl, rfl, rfl, rfl, rfl, rfl, rfl, rfl, rfl, rfl, rfl,
    rfl, rfl, rfl, rfl, rfl, rfl, rfl, rfl, rfl, rfl, rfl, rfl, rfl, fun _ => rfl, fun _ => rfl, fun _ => rfl⟩

@[simp] theorem setChan_afe (c : Nat) (x : Chan) (s : State) :
    (setChan c x s).afe = { s.afe with chan := tput (fun _ => ({ } : Chan)) s.afe.chan c x } := rfl

@[simp] theorem setCnv_frame (x : Cnv) (s : State) : (setCnv x s).pending = s.pending ∧ (setCnv x s).bnd = s.bnd ∧ (setCnv x
    s).fresh = s.fresh ∧ (setCnv x s).regs = s.regs ∧ (setCnv x s).accepted = s.accepted ∧ (setCnv x s).nextRegs = s.nextRegs
    ∧ (setCnv x s).mem = s.mem ∧ (setCnv x s).lost = s.lost ∧ (setCnv x s).ledger = s.ledger ∧ (setCnv x s).fab = s.fab ∧
    (setCnv x s).offers = s.offers ∧ (setCnv x s).sent = s.sent ∧ (setCnv x s).tbs = s.tbs ∧ (setCnv x s).afe = s.afe ∧
    (setCnv x s).lapInfo = s.lapInfo ∧ (setCnv x s).red = s.red ∧ (setCnv x s).out = s.out ∧ (setCnv x s).acq = s.acq ∧
    (setCnv x s).ctl = s.ctl ∧ (setCnv x s).cores = s.cores ∧ (setCnv x s).lanes = s.lanes ∧ (setCnv x s).wot = s.wot ∧
    (setCnv x s).eth = s.eth ∧ (setCnv x s).dmc = s.dmc ∧ (setCnv x s).twin = s.twin ∧ (setCnv x s).hlt = s.hlt ∧ (setCnv x
    s).pwr = s.pwr ∧ (setCnv x s).svc = s.svc ∧ (setCnv x s).jtag = s.jtag ∧ (∀ a, rd (setCnv x s) a = rd s a) ∧ (∀ f, fld
    (setCnv x s) f = fld s f) ∧ (∀ f, flag (setCnv x s) f = flag s f) := ⟨rfl, rfl, rfl, rfl, rfl, rfl, rfl, rfl, rfl, rfl,
    rfl, rfl, rfl, rfl, rfl, rfl, rfl, rfl, rfl, rfl, rfl, rfl, rfl, rfl, rfl, rfl, rfl, rfl, rfl, fun _ => rfl, fun _ => rfl,
    fun _ => rfl⟩

@[simp] theorem setCnv_cnv (x : Cnv) (s : State) :
    (setCnv x s).cnv = x := rfl

@[simp] theorem setRedChan_frame (c : Nat) (x : RedChan) (s : State) : (setRedChan c x s).pending = s.pending ∧ (setRedChan c
    x s).bnd = s.bnd ∧ (setRedChan c x s).fresh = s.fresh ∧ (setRedChan c x s).regs = s.regs ∧ (setRedChan c x s).accepted =
    s.accepted ∧ (setRedChan c x s).nextRegs = s.nextRegs ∧ (setRedChan c x s).mem = s.mem ∧ (setRedChan c x s).lost = s.lost
    ∧ (setRedChan c x s).ledger = s.ledger ∧ (setRedChan c x s).fab = s.fab ∧ (setRedChan c x s).offers = s.offers ∧
    (setRedChan c x s).sent = s.sent ∧ (setRedChan c x s).tbs = s.tbs ∧ (setRedChan c x s).afe = s.afe ∧ (setRedChan c x
    s).cnv = s.cnv ∧ (setRedChan c x s).lapInfo = s.lapInfo ∧ (setRedChan c x s).out = s.out ∧ (setRedChan c x s).acq = s.acq
    ∧ (setRedChan c x s).ctl = s.ctl ∧ (setRedChan c x s).cores = s.cores ∧ (setRedChan c x s).lanes = s.lanes ∧ (setRedChan c
    x s).wot = s.wot ∧ (setRedChan c x s).eth = s.eth ∧ (setRedChan c x s).dmc = s.dmc ∧ (setRedChan c x s).twin = s.twin ∧
    (setRedChan c x s).hlt = s.hlt ∧ (setRedChan c x s).pwr = s.pwr ∧ (setRedChan c x s).svc = s.svc ∧ (setRedChan c x s).jtag
    = s.jtag ∧ (∀ a, rd (setRedChan c x s) a = rd s a) ∧ (∀ f, fld (setRedChan c x s) f = fld s f) ∧ (∀ f, flag (setRedChan c
    x s) f = flag s f) := ⟨rfl, rfl, rfl, rfl, rfl, rfl, rfl, rfl, rfl, rfl, rfl, rfl, rfl, rfl, rfl, rfl, rfl, rfl, rfl, rfl,
    rfl, rfl, rfl, rfl, rfl, rfl, rfl, rfl, rfl, fun _ => rfl, fun _ => rfl, fun _ => rfl⟩

@[simp] theorem setRedChan_red (c : Nat) (x : RedChan) (s : State) :
    (setRedChan c x s).red = { s.red with chan := tput (fun _ => ({ } : RedChan)) s.red.chan c x } := rfl

@[simp] theorem setChain_frame (c : Nat) (x : Chain) (s : State) : (setChain c x s).pending = s.pending ∧ (setChain c x s).bnd
    = s.bnd ∧ (setChain c x s).fresh = s.fresh ∧ (setChain c x s).regs = s.regs ∧ (setChain c x s).accepted = s.accepted ∧
    (setChain c x s).nextRegs = s.nextRegs ∧ (setChain c x s).mem = s.mem ∧ (setChain c x s).lost = s.lost ∧ (setChain c x
    s).ledger = s.ledger ∧ (setChain c x s).fab = s.fab ∧ (setChain c x s).offers = s.offers ∧ (setChain c x s).sent = s.sent
    ∧ (setChain c x s).tbs = s.tbs ∧ (setChain c x s).afe = s.afe ∧ (setChain c x s).cnv = s.cnv ∧ (setChain c x s).lapInfo =
    s.lapInfo ∧ (setChain c x s).out = s.out ∧ (setChain c x s).acq = s.acq ∧ (setChain c x s).ctl = s.ctl ∧ (setChain c x
    s).cores = s.cores ∧ (setChain c x s).lanes = s.lanes ∧ (setChain c x s).wot = s.wot ∧ (setChain c x s).eth = s.eth ∧
    (setChain c x s).dmc = s.dmc ∧ (setChain c x s).twin = s.twin ∧ (setChain c x s).hlt = s.hlt ∧ (setChain c x s).pwr =
    s.pwr ∧ (setChain c x s).svc = s.svc ∧ (setChain c x s).jtag = s.jtag ∧ (∀ a, rd (setChain c x s) a = rd s a) ∧ (∀ f, fld
    (setChain c x s) f = fld s f) ∧ (∀ f, flag (setChain c x s) f = flag s f) := ⟨rfl, rfl, rfl, rfl, rfl, rfl, rfl, rfl, rfl,
    rfl, rfl, rfl, rfl, rfl, rfl, rfl, rfl, rfl, rfl, rfl, rfl, rfl, rfl, rfl, rfl, rfl, rfl, rfl, rfl, fun _ => rfl, fun _ =>
    rfl, fun _ => rfl⟩

@[simp] theorem setChain_red (c : Nat) (x : Chain) (s : State) :
    (setChain c x s).red = { s.red with chains := tput (fun _ => ({ } : Chain)) s.red.chains c x } := rfl

@[simp] theorem setOut_frame (x : Outs) (s : State) : (setOut x s).pending = s.pending ∧ (setOut x s).bnd = s.bnd ∧ (setOut x
    s).fresh = s.fresh ∧ (setOut x s).regs = s.regs ∧ (setOut x s).accepted = s.accepted ∧ (setOut x s).nextRegs = s.nextRegs
    ∧ (setOut x s).mem = s.mem ∧ (setOut x s).lost = s.lost ∧ (setOut x s).ledger = s.ledger ∧ (setOut x s).fab = s.fab ∧
    (setOut x s).offers = s.offers ∧ (setOut x s).sent = s.sent ∧ (setOut x s).tbs = s.tbs ∧ (setOut x s).afe = s.afe ∧
    (setOut x s).cnv = s.cnv ∧ (setOut x s).lapInfo = s.lapInfo ∧ (setOut x s).red = s.red ∧ (setOut x s).acq = s.acq ∧
    (setOut x s).ctl = s.ctl ∧ (setOut x s).cores = s.cores ∧ (setOut x s).lanes = s.lanes ∧ (setOut x s).wot = s.wot ∧
    (setOut x s).eth = s.eth ∧ (setOut x s).dmc = s.dmc ∧ (setOut x s).twin = s.twin ∧ (setOut x s).hlt = s.hlt ∧ (setOut x
    s).pwr = s.pwr ∧ (setOut x s).svc = s.svc ∧ (setOut x s).jtag = s.jtag ∧ (∀ a, rd (setOut x s) a = rd s a) ∧ (∀ f, fld
    (setOut x s) f = fld s f) ∧ (∀ f, flag (setOut x s) f = flag s f) := ⟨rfl, rfl, rfl, rfl, rfl, rfl, rfl, rfl, rfl, rfl,
    rfl, rfl, rfl, rfl, rfl, rfl, rfl, rfl, rfl, rfl, rfl, rfl, rfl, rfl, rfl, rfl, rfl, rfl, rfl, fun _ => rfl, fun _ => rfl,
    fun _ => rfl⟩

@[simp] theorem setOut_out (x : Outs) (s : State) :
    (setOut x s).out = x := rfl

@[simp] theorem setAcq_frame (x : Acq) (s : State) : (setAcq x s).pending = s.pending ∧ (setAcq x s).bnd = s.bnd ∧ (setAcq x
    s).fresh = s.fresh ∧ (setAcq x s).regs = s.regs ∧ (setAcq x s).accepted = s.accepted ∧ (setAcq x s).nextRegs = s.nextRegs
    ∧ (setAcq x s).mem = s.mem ∧ (setAcq x s).lost = s.lost ∧ (setAcq x s).ledger = s.ledger ∧ (setAcq x s).fab = s.fab ∧
    (setAcq x s).offers = s.offers ∧ (setAcq x s).sent = s.sent ∧ (setAcq x s).tbs = s.tbs ∧ (setAcq x s).afe = s.afe ∧
    (setAcq x s).cnv = s.cnv ∧ (setAcq x s).lapInfo = s.lapInfo ∧ (setAcq x s).red = s.red ∧ (setAcq x s).out = s.out ∧
    (setAcq x s).ctl = s.ctl ∧ (setAcq x s).cores = s.cores ∧ (setAcq x s).lanes = s.lanes ∧ (setAcq x s).wot = s.wot ∧
    (setAcq x s).eth = s.eth ∧ (setAcq x s).dmc = s.dmc ∧ (setAcq x s).twin = s.twin ∧ (setAcq x s).hlt = s.hlt ∧ (setAcq x
    s).pwr = s.pwr ∧ (setAcq x s).svc = s.svc ∧ (setAcq x s).jtag = s.jtag ∧ (∀ a, rd (setAcq x s) a = rd s a) ∧ (∀ f, fld
    (setAcq x s) f = fld s f) ∧ (∀ f, flag (setAcq x s) f = flag s f) := ⟨rfl, rfl, rfl, rfl, rfl, rfl, rfl, rfl, rfl, rfl,
    rfl, rfl, rfl, rfl, rfl, rfl, rfl, rfl, rfl, rfl, rfl, rfl, rfl, rfl, rfl, rfl, rfl, rfl, rfl, fun _ => rfl, fun _ => rfl,
    fun _ => rfl⟩

@[simp] theorem setAcq_acq (x : Acq) (s : State) :
    (setAcq x s).acq = x := rfl

@[simp] theorem setRing_frame (r : Nat) (x : Ring) (s : State) : (setRing r x s).pending = s.pending ∧ (setRing r x s).bnd =
    s.bnd ∧ (setRing r x s).fresh = s.fresh ∧ (setRing r x s).regs = s.regs ∧ (setRing r x s).accepted = s.accepted ∧ (setRing
    r x s).nextRegs = s.nextRegs ∧ (setRing r x s).mem = s.mem ∧ (setRing r x s).lost = s.lost ∧ (setRing r x s).ledger =
    s.ledger ∧ (setRing r x s).fab = s.fab ∧ (setRing r x s).offers = s.offers ∧ (setRing r x s).sent = s.sent ∧ (setRing r x
    s).tbs = s.tbs ∧ (setRing r x s).afe = s.afe ∧ (setRing r x s).cnv = s.cnv ∧ (setRing r x s).lapInfo = s.lapInfo ∧
    (setRing r x s).red = s.red ∧ (setRing r x s).out = s.out ∧ (setRing r x s).ctl = s.ctl ∧ (setRing r x s).cores = s.cores
    ∧ (setRing r x s).lanes = s.lanes ∧ (setRing r x s).wot = s.wot ∧ (setRing r x s).eth = s.eth ∧ (setRing r x s).dmc =
    s.dmc ∧ (setRing r x s).twin = s.twin ∧ (setRing r x s).hlt = s.hlt ∧ (setRing r x s).pwr = s.pwr ∧ (setRing r x s).svc =
    s.svc ∧ (setRing r x s).jtag = s.jtag ∧ (∀ a, rd (setRing r x s) a = rd s a) ∧ (∀ f, fld (setRing r x s) f = fld s f) ∧ (∀
    f, flag (setRing r x s) f = flag s f) := ⟨rfl, rfl, rfl, rfl, rfl, rfl, rfl, rfl, rfl, rfl, rfl, rfl, rfl, rfl, rfl, rfl,
    rfl, rfl, rfl, rfl, rfl, rfl, rfl, rfl, rfl, rfl, rfl, rfl, rfl, fun _ => rfl, fun _ => rfl, fun _ => rfl⟩

@[simp] theorem setRing_acq (r : Nat) (x : Ring) (s : State) :
    (setRing r x s).acq = { s.acq with ring := tput (fun _ => ({ } : Ring)) s.acq.ring r x } := rfl

@[simp] theorem setTrigIn_frame (i : Nat) (x : TrigIn) (s : State) : (setTrigIn i x s).pending = s.pending ∧ (setTrigIn i x
    s).bnd = s.bnd ∧ (setTrigIn i x s).fresh = s.fresh ∧ (setTrigIn i x s).regs = s.regs ∧ (setTrigIn i x s).accepted =
    s.accepted ∧ (setTrigIn i x s).nextRegs = s.nextRegs ∧ (setTrigIn i x s).mem = s.mem ∧ (setTrigIn i x s).lost = s.lost ∧
    (setTrigIn i x s).ledger = s.ledger ∧ (setTrigIn i x s).fab = s.fab ∧ (setTrigIn i x s).offers = s.offers ∧ (setTrigIn i x
    s).sent = s.sent ∧ (setTrigIn i x s).tbs = s.tbs ∧ (setTrigIn i x s).afe = s.afe ∧ (setTrigIn i x s).cnv = s.cnv ∧
    (setTrigIn i x s).lapInfo = s.lapInfo ∧ (setTrigIn i x s).red = s.red ∧ (setTrigIn i x s).out = s.out ∧ (setTrigIn i x
    s).ctl = s.ctl ∧ (setTrigIn i x s).cores = s.cores ∧ (setTrigIn i x s).lanes = s.lanes ∧ (setTrigIn i x s).wot = s.wot ∧
    (setTrigIn i x s).eth = s.eth ∧ (setTrigIn i x s).dmc = s.dmc ∧ (setTrigIn i x s).twin = s.twin ∧ (setTrigIn i x s).hlt =
    s.hlt ∧ (setTrigIn i x s).pwr = s.pwr ∧ (setTrigIn i x s).svc = s.svc ∧ (setTrigIn i x s).jtag = s.jtag ∧ (∀ a, rd
    (setTrigIn i x s) a = rd s a) ∧ (∀ f, fld (setTrigIn i x s) f = fld s f) ∧ (∀ f, flag (setTrigIn i x s) f = flag s f) :=
    ⟨rfl, rfl, rfl, rfl, rfl, rfl, rfl, rfl, rfl, rfl, rfl, rfl, rfl, rfl, rfl, rfl, rfl, rfl, rfl, rfl, rfl, rfl, rfl, rfl,
    rfl, rfl, rfl, rfl, rfl, fun _ => rfl, fun _ => rfl, fun _ => rfl⟩

@[simp] theorem setTrigIn_acq (i : Nat) (x : TrigIn) (s : State) :
    (setTrigIn i x s).acq = { s.acq with inp := tput (fun _ => ({ } : TrigIn)) s.acq.inp i x } := rfl

@[simp] theorem setCtl_frame (x : Ctl) (s : State) : (setCtl x s).pending = s.pending ∧ (setCtl x s).bnd = s.bnd ∧ (setCtl x
    s).fresh = s.fresh ∧ (setCtl x s).regs = s.regs ∧ (setCtl x s).accepted = s.accepted ∧ (setCtl x s).nextRegs = s.nextRegs
    ∧ (setCtl x s).mem = s.mem ∧ (setCtl x s).lost = s.lost ∧ (setCtl x s).ledger = s.ledger ∧ (setCtl x s).fab = s.fab ∧
    (setCtl x s).offers = s.offers ∧ (setCtl x s).sent = s.sent ∧ (setCtl x s).tbs = s.tbs ∧ (setCtl x s).afe = s.afe ∧
    (setCtl x s).cnv = s.cnv ∧ (setCtl x s).lapInfo = s.lapInfo ∧ (setCtl x s).red = s.red ∧ (setCtl x s).out = s.out ∧
    (setCtl x s).acq = s.acq ∧ (setCtl x s).cores = s.cores ∧ (setCtl x s).lanes = s.lanes ∧ (setCtl x s).wot = s.wot ∧
    (setCtl x s).eth = s.eth ∧ (setCtl x s).dmc = s.dmc ∧ (setCtl x s).twin = s.twin ∧ (setCtl x s).hlt = s.hlt ∧ (setCtl x
    s).pwr = s.pwr ∧ (setCtl x s).svc = s.svc ∧ (setCtl x s).jtag = s.jtag ∧ (∀ a, rd (setCtl x s) a = rd s a) ∧ (∀ f, fld
    (setCtl x s) f = fld s f) ∧ (∀ f, flag (setCtl x s) f = flag s f) := ⟨rfl, rfl, rfl, rfl, rfl, rfl, rfl, rfl, rfl, rfl,
    rfl, rfl, rfl, rfl, rfl, rfl, rfl, rfl, rfl, rfl, rfl, rfl, rfl, rfl, rfl, rfl, rfl, rfl, rfl, fun _ => rfl, fun _ => rfl,
    fun _ => rfl⟩

@[simp] theorem setCtl_ctl (x : Ctl) (s : State) :
    (setCtl x s).ctl = x := rfl

@[simp] theorem setLoopRun_frame (n : Nat) (x : LoopRun) (s : State) : (setLoopRun n x s).pending = s.pending ∧ (setLoopRun n
    x s).bnd = s.bnd ∧ (setLoopRun n x s).fresh = s.fresh ∧ (setLoopRun n x s).regs = s.regs ∧ (setLoopRun n x s).accepted =
    s.accepted ∧ (setLoopRun n x s).nextRegs = s.nextRegs ∧ (setLoopRun n x s).mem = s.mem ∧ (setLoopRun n x s).lost = s.lost
    ∧ (setLoopRun n x s).ledger = s.ledger ∧ (setLoopRun n x s).fab = s.fab ∧ (setLoopRun n x s).offers = s.offers ∧
    (setLoopRun n x s).sent = s.sent ∧ (setLoopRun n x s).tbs = s.tbs ∧ (setLoopRun n x s).afe = s.afe ∧ (setLoopRun n x
    s).cnv = s.cnv ∧ (setLoopRun n x s).lapInfo = s.lapInfo ∧ (setLoopRun n x s).red = s.red ∧ (setLoopRun n x s).out = s.out
    ∧ (setLoopRun n x s).acq = s.acq ∧ (setLoopRun n x s).cores = s.cores ∧ (setLoopRun n x s).lanes = s.lanes ∧ (setLoopRun n
    x s).wot = s.wot ∧ (setLoopRun n x s).eth = s.eth ∧ (setLoopRun n x s).dmc = s.dmc ∧ (setLoopRun n x s).twin = s.twin ∧
    (setLoopRun n x s).hlt = s.hlt ∧ (setLoopRun n x s).pwr = s.pwr ∧ (setLoopRun n x s).svc = s.svc ∧ (setLoopRun n x s).jtag
    = s.jtag ∧ (∀ a, rd (setLoopRun n x s) a = rd s a) ∧ (∀ f, fld (setLoopRun n x s) f = fld s f) ∧ (∀ f, flag (setLoopRun n
    x s) f = flag s f) := ⟨rfl, rfl, rfl, rfl, rfl, rfl, rfl, rfl, rfl, rfl, rfl, rfl, rfl, rfl, rfl, rfl, rfl, rfl, rfl, rfl,
    rfl, rfl, rfl, rfl, rfl, rfl, rfl, rfl, rfl, fun _ => rfl, fun _ => rfl, fun _ => rfl⟩

@[simp] theorem setLoopRun_ctl (n : Nat) (x : LoopRun) (s : State) :
    (setLoopRun n x s).ctl = { s.ctl with run := tput (fun _ => ({ } : LoopRun)) s.ctl.run n x } := rfl

@[simp] theorem setSl_frame (x : StartList) (s : State) : (setSl x s).pending = s.pending ∧ (setSl x s).bnd = s.bnd ∧ (setSl x
    s).fresh = s.fresh ∧ (setSl x s).regs = s.regs ∧ (setSl x s).accepted = s.accepted ∧ (setSl x s).nextRegs = s.nextRegs ∧
    (setSl x s).mem = s.mem ∧ (setSl x s).lost = s.lost ∧ (setSl x s).ledger = s.ledger ∧ (setSl x s).fab = s.fab ∧ (setSl x
    s).offers = s.offers ∧ (setSl x s).sent = s.sent ∧ (setSl x s).afe = s.afe ∧ (setSl x s).cnv = s.cnv ∧ (setSl x s).lapInfo
    = s.lapInfo ∧ (setSl x s).red = s.red ∧ (setSl x s).out = s.out ∧ (setSl x s).acq = s.acq ∧ (setSl x s).ctl = s.ctl ∧
    (setSl x s).cores = s.cores ∧ (setSl x s).lanes = s.lanes ∧ (setSl x s).wot = s.wot ∧ (setSl x s).eth = s.eth ∧ (setSl x
    s).dmc = s.dmc ∧ (setSl x s).twin = s.twin ∧ (setSl x s).hlt = s.hlt ∧ (setSl x s).pwr = s.pwr ∧ (setSl x s).svc = s.svc ∧
    (setSl x s).jtag = s.jtag ∧ (∀ a, rd (setSl x s) a = rd s a) ∧ (∀ f, fld (setSl x s) f = fld s f) ∧ (∀ f, flag (setSl x s)
    f = flag s f) := ⟨rfl, rfl, rfl, rfl, rfl, rfl, rfl, rfl, rfl, rfl, rfl, rfl, rfl, rfl, rfl, rfl, rfl, rfl, rfl, rfl, rfl,
    rfl, rfl, rfl, rfl, rfl, rfl, rfl, rfl, fun _ => rfl, fun _ => rfl, fun _ => rfl⟩

@[simp] theorem setSl_tbs (x : StartList) (s : State) :
    (setSl x s).tbs = { s.tbs with sl := x } := rfl

@[simp] theorem setQueue_frame (q : Nat) (x : Queue) (s : State) : (setQueue q x s).pending = s.pending ∧ (setQueue q x s).bnd
    = s.bnd ∧ (setQueue q x s).fresh = s.fresh ∧ (setQueue q x s).regs = s.regs ∧ (setQueue q x s).accepted = s.accepted ∧
    (setQueue q x s).nextRegs = s.nextRegs ∧ (setQueue q x s).mem = s.mem ∧ (setQueue q x s).lost = s.lost ∧ (setQueue q x
    s).ledger = s.ledger ∧ (setQueue q x s).fab = s.fab ∧ (setQueue q x s).offers = s.offers ∧ (setQueue q x s).sent = s.sent
    ∧ (setQueue q x s).tbs = s.tbs ∧ (setQueue q x s).afe = s.afe ∧ (setQueue q x s).cnv = s.cnv ∧ (setQueue q x s).lapInfo =
    s.lapInfo ∧ (setQueue q x s).red = s.red ∧ (setQueue q x s).out = s.out ∧ (setQueue q x s).acq = s.acq ∧ (setQueue q x
    s).ctl = s.ctl ∧ (setQueue q x s).lanes = s.lanes ∧ (setQueue q x s).wot = s.wot ∧ (setQueue q x s).eth = s.eth ∧
    (setQueue q x s).dmc = s.dmc ∧ (setQueue q x s).twin = s.twin ∧ (setQueue q x s).hlt = s.hlt ∧ (setQueue q x s).pwr =
    s.pwr ∧ (setQueue q x s).svc = s.svc ∧ (setQueue q x s).jtag = s.jtag ∧ (∀ a, rd (setQueue q x s) a = rd s a) ∧ (∀ f, fld
    (setQueue q x s) f = fld s f) ∧ (∀ f, flag (setQueue q x s) f = flag s f) := ⟨rfl, rfl, rfl, rfl, rfl, rfl, rfl, rfl, rfl,
    rfl, rfl, rfl, rfl, rfl, rfl, rfl, rfl, rfl, rfl, rfl, rfl, rfl, rfl, rfl, rfl, rfl, rfl, rfl, rfl, fun _ => rfl, fun _ =>
    rfl, fun _ => rfl⟩

@[simp] theorem setQueue_cores (q : Nat) (x : Queue) (s : State) :
    (setQueue q x s).cores = { s.cores with queue := tput (fun _ => ({ } : Queue)) s.cores.queue q x } := rfl

@[simp] theorem setLane_frame (n : Nat) (x : Lane) (s : State) : (setLane n x s).pending = s.pending ∧ (setLane n x s).bnd =
    s.bnd ∧ (setLane n x s).fresh = s.fresh ∧ (setLane n x s).regs = s.regs ∧ (setLane n x s).accepted = s.accepted ∧ (setLane
    n x s).nextRegs = s.nextRegs ∧ (setLane n x s).mem = s.mem ∧ (setLane n x s).lost = s.lost ∧ (setLane n x s).ledger =
    s.ledger ∧ (setLane n x s).fab = s.fab ∧ (setLane n x s).offers = s.offers ∧ (setLane n x s).sent = s.sent ∧ (setLane n x
    s).tbs = s.tbs ∧ (setLane n x s).afe = s.afe ∧ (setLane n x s).cnv = s.cnv ∧ (setLane n x s).lapInfo = s.lapInfo ∧
    (setLane n x s).red = s.red ∧ (setLane n x s).out = s.out ∧ (setLane n x s).acq = s.acq ∧ (setLane n x s).ctl = s.ctl ∧
    (setLane n x s).cores = s.cores ∧ (setLane n x s).wot = s.wot ∧ (setLane n x s).eth = s.eth ∧ (setLane n x s).dmc = s.dmc
    ∧ (setLane n x s).twin = s.twin ∧ (setLane n x s).hlt = s.hlt ∧ (setLane n x s).pwr = s.pwr ∧ (setLane n x s).svc = s.svc
    ∧ (setLane n x s).jtag = s.jtag ∧ (∀ a, rd (setLane n x s) a = rd s a) ∧ (∀ f, fld (setLane n x s) f = fld s f) ∧ (∀ f,
    flag (setLane n x s) f = flag s f) := ⟨rfl, rfl, rfl, rfl, rfl, rfl, rfl, rfl, rfl, rfl, rfl, rfl, rfl, rfl, rfl, rfl,
    rfl, rfl, rfl, rfl, rfl, rfl, rfl, rfl, rfl, rfl, rfl, rfl, rfl, fun _ => rfl, fun _ => rfl, fun _ => rfl⟩

@[simp] theorem setLane_lanes (n : Nat) (x : Lane) (s : State) :
    (setLane n x s).lanes = { s.lanes with lane := tput (fun _ => ({ } : Lane)) s.lanes.lane n x } := rfl

@[simp] theorem setWot_frame (x : Wot) (s : State) : (setWot x s).pending = s.pending ∧ (setWot x s).bnd = s.bnd ∧ (setWot x
    s).fresh = s.fresh ∧ (setWot x s).regs = s.regs ∧ (setWot x s).accepted = s.accepted ∧ (setWot x s).nextRegs = s.nextRegs
    ∧ (setWot x s).mem = s.mem ∧ (setWot x s).lost = s.lost ∧ (setWot x s).ledger = s.ledger ∧ (setWot x s).fab = s.fab ∧
    (setWot x s).offers = s.offers ∧ (setWot x s).sent = s.sent ∧ (setWot x s).tbs = s.tbs ∧ (setWot x s).afe = s.afe ∧
    (setWot x s).cnv = s.cnv ∧ (setWot x s).lapInfo = s.lapInfo ∧ (setWot x s).red = s.red ∧ (setWot x s).out = s.out ∧
    (setWot x s).acq = s.acq ∧ (setWot x s).ctl = s.ctl ∧ (setWot x s).cores = s.cores ∧ (setWot x s).lanes = s.lanes ∧
    (setWot x s).eth = s.eth ∧ (setWot x s).dmc = s.dmc ∧ (setWot x s).twin = s.twin ∧ (setWot x s).hlt = s.hlt ∧ (setWot x
    s).pwr = s.pwr ∧ (setWot x s).svc = s.svc ∧ (setWot x s).jtag = s.jtag ∧ (∀ a, rd (setWot x s) a = rd s a) ∧ (∀ f, fld
    (setWot x s) f = fld s f) ∧ (∀ f, flag (setWot x s) f = flag s f) := ⟨rfl, rfl, rfl, rfl, rfl, rfl, rfl, rfl, rfl, rfl,
    rfl, rfl, rfl, rfl, rfl, rfl, rfl, rfl, rfl, rfl, rfl, rfl, rfl, rfl, rfl, rfl, rfl, rfl, rfl, fun _ => rfl, fun _ => rfl,
    fun _ => rfl⟩

@[simp] theorem setWot_wot (x : Wot) (s : State) :
    (setWot x s).wot = x := rfl

@[simp] theorem setLink_frame (l : Nat) (x : Link) (s : State) : (setLink l x s).pending = s.pending ∧ (setLink l x s).bnd =
    s.bnd ∧ (setLink l x s).fresh = s.fresh ∧ (setLink l x s).regs = s.regs ∧ (setLink l x s).accepted = s.accepted ∧ (setLink
    l x s).nextRegs = s.nextRegs ∧ (setLink l x s).mem = s.mem ∧ (setLink l x s).lost = s.lost ∧ (setLink l x s).ledger =
    s.ledger ∧ (setLink l x s).fab = s.fab ∧ (setLink l x s).offers = s.offers ∧ (setLink l x s).sent = s.sent ∧ (setLink l x
    s).tbs = s.tbs ∧ (setLink l x s).afe = s.afe ∧ (setLink l x s).cnv = s.cnv ∧ (setLink l x s).lapInfo = s.lapInfo ∧
    (setLink l x s).red = s.red ∧ (setLink l x s).out = s.out ∧ (setLink l x s).acq = s.acq ∧ (setLink l x s).ctl = s.ctl ∧
    (setLink l x s).cores = s.cores ∧ (setLink l x s).lanes = s.lanes ∧ (setLink l x s).eth = s.eth ∧ (setLink l x s).dmc =
    s.dmc ∧ (setLink l x s).twin = s.twin ∧ (setLink l x s).hlt = s.hlt ∧ (setLink l x s).pwr = s.pwr ∧ (setLink l x s).svc =
    s.svc ∧ (setLink l x s).jtag = s.jtag ∧ (∀ a, rd (setLink l x s) a = rd s a) ∧ (∀ f, fld (setLink l x s) f = fld s f) ∧ (∀
    f, flag (setLink l x s) f = flag s f) := ⟨rfl, rfl, rfl, rfl, rfl, rfl, rfl, rfl, rfl, rfl, rfl, rfl, rfl, rfl, rfl, rfl,
    rfl, rfl, rfl, rfl, rfl, rfl, rfl, rfl, rfl, rfl, rfl, rfl, rfl, fun _ => rfl, fun _ => rfl, fun _ => rfl⟩

@[simp] theorem setLink_wot (l : Nat) (x : Link) (s : State) :
    (setLink l x s).wot = { s.wot with link := tput (fun _ => ({ } : Link)) s.wot.link l x } := rfl

@[simp] theorem setEth_frame (x : Eth) (s : State) : (setEth x s).pending = s.pending ∧ (setEth x s).bnd = s.bnd ∧ (setEth x
    s).fresh = s.fresh ∧ (setEth x s).regs = s.regs ∧ (setEth x s).accepted = s.accepted ∧ (setEth x s).nextRegs = s.nextRegs
    ∧ (setEth x s).mem = s.mem ∧ (setEth x s).lost = s.lost ∧ (setEth x s).ledger = s.ledger ∧ (setEth x s).fab = s.fab ∧
    (setEth x s).offers = s.offers ∧ (setEth x s).sent = s.sent ∧ (setEth x s).tbs = s.tbs ∧ (setEth x s).afe = s.afe ∧
    (setEth x s).cnv = s.cnv ∧ (setEth x s).lapInfo = s.lapInfo ∧ (setEth x s).red = s.red ∧ (setEth x s).out = s.out ∧
    (setEth x s).acq = s.acq ∧ (setEth x s).ctl = s.ctl ∧ (setEth x s).cores = s.cores ∧ (setEth x s).lanes = s.lanes ∧
    (setEth x s).wot = s.wot ∧ (setEth x s).dmc = s.dmc ∧ (setEth x s).twin = s.twin ∧ (setEth x s).hlt = s.hlt ∧ (setEth x
    s).pwr = s.pwr ∧ (setEth x s).svc = s.svc ∧ (setEth x s).jtag = s.jtag ∧ (∀ a, rd (setEth x s) a = rd s a) ∧ (∀ f, fld
    (setEth x s) f = fld s f) ∧ (∀ f, flag (setEth x s) f = flag s f) := ⟨rfl, rfl, rfl, rfl, rfl, rfl, rfl, rfl, rfl, rfl,
    rfl, rfl, rfl, rfl, rfl, rfl, rfl, rfl, rfl, rfl, rfl, rfl, rfl, rfl, rfl, rfl, rfl, rfl, rfl, fun _ => rfl, fun _ => rfl,
    fun _ => rfl⟩

@[simp] theorem setEth_eth (x : Eth) (s : State) :
    (setEth x s).eth = x := rfl

@[simp] theorem setPtp_frame (d : Nat) (x : Ptp) (s : State) : (setPtp d x s).pending = s.pending ∧ (setPtp d x s).bnd = s.bnd
    ∧ (setPtp d x s).fresh = s.fresh ∧ (setPtp d x s).regs = s.regs ∧ (setPtp d x s).accepted = s.accepted ∧ (setPtp d x
    s).nextRegs = s.nextRegs ∧ (setPtp d x s).mem = s.mem ∧ (setPtp d x s).lost = s.lost ∧ (setPtp d x s).ledger = s.ledger ∧
    (setPtp d x s).fab = s.fab ∧ (setPtp d x s).offers = s.offers ∧ (setPtp d x s).sent = s.sent ∧ (setPtp d x s).tbs = s.tbs
    ∧ (setPtp d x s).afe = s.afe ∧ (setPtp d x s).cnv = s.cnv ∧ (setPtp d x s).lapInfo = s.lapInfo ∧ (setPtp d x s).red =
    s.red ∧ (setPtp d x s).out = s.out ∧ (setPtp d x s).acq = s.acq ∧ (setPtp d x s).ctl = s.ctl ∧ (setPtp d x s).cores =
    s.cores ∧ (setPtp d x s).lanes = s.lanes ∧ (setPtp d x s).wot = s.wot ∧ (setPtp d x s).dmc = s.dmc ∧ (setPtp d x s).twin =
    s.twin ∧ (setPtp d x s).hlt = s.hlt ∧ (setPtp d x s).pwr = s.pwr ∧ (setPtp d x s).svc = s.svc ∧ (setPtp d x s).jtag =
    s.jtag ∧ (∀ a, rd (setPtp d x s) a = rd s a) ∧ (∀ f, fld (setPtp d x s) f = fld s f) ∧ (∀ f, flag (setPtp d x s) f = flag
    s f) := ⟨rfl, rfl, rfl, rfl, rfl, rfl, rfl, rfl, rfl, rfl, rfl, rfl, rfl, rfl, rfl, rfl, rfl, rfl, rfl, rfl, rfl, rfl,
    rfl, rfl, rfl, rfl, rfl, rfl, rfl, fun _ => rfl, fun _ => rfl, fun _ => rfl⟩

@[simp] theorem setPtp_eth (d : Nat) (x : Ptp) (s : State) :
    (setPtp d x s).eth = { s.eth with ptp := tput (fun _ => ({ } : Ptp)) s.eth.ptp d x } := rfl

@[simp] theorem setTwin_frame (x : Twin) (s : State) : (setTwin x s).pending = s.pending ∧ (setTwin x s).bnd = s.bnd ∧
    (setTwin x s).fresh = s.fresh ∧ (setTwin x s).regs = s.regs ∧ (setTwin x s).accepted = s.accepted ∧ (setTwin x s).nextRegs
    = s.nextRegs ∧ (setTwin x s).mem = s.mem ∧ (setTwin x s).lost = s.lost ∧ (setTwin x s).ledger = s.ledger ∧ (setTwin x
    s).fab = s.fab ∧ (setTwin x s).offers = s.offers ∧ (setTwin x s).sent = s.sent ∧ (setTwin x s).tbs = s.tbs ∧ (setTwin x
    s).afe = s.afe ∧ (setTwin x s).cnv = s.cnv ∧ (setTwin x s).lapInfo = s.lapInfo ∧ (setTwin x s).red = s.red ∧ (setTwin x
    s).out = s.out ∧ (setTwin x s).acq = s.acq ∧ (setTwin x s).ctl = s.ctl ∧ (setTwin x s).cores = s.cores ∧ (setTwin x
    s).lanes = s.lanes ∧ (setTwin x s).wot = s.wot ∧ (setTwin x s).eth = s.eth ∧ (setTwin x s).dmc = s.dmc ∧ (setTwin x s).hlt
    = s.hlt ∧ (setTwin x s).pwr = s.pwr ∧ (setTwin x s).svc = s.svc ∧ (setTwin x s).jtag = s.jtag ∧ (∀ a, rd (setTwin x s) a =
    rd s a) ∧ (∀ f, fld (setTwin x s) f = fld s f) ∧ (∀ f, flag (setTwin x s) f = flag s f) := ⟨rfl, rfl, rfl, rfl, rfl, rfl,
    rfl, rfl, rfl, rfl, rfl, rfl, rfl, rfl, rfl, rfl, rfl, rfl, rfl, rfl, rfl, rfl, rfl, rfl, rfl, rfl, rfl, rfl, rfl, fun _
    => rfl, fun _ => rfl, fun _ => rfl⟩

@[simp] theorem setTwin_twin (x : Twin) (s : State) :
    (setTwin x s).twin = x := rfl

@[simp] theorem setHlt_frame (x : Hlt) (s : State) : (setHlt x s).pending = s.pending ∧ (setHlt x s).bnd = s.bnd ∧ (setHlt x
    s).fresh = s.fresh ∧ (setHlt x s).regs = s.regs ∧ (setHlt x s).accepted = s.accepted ∧ (setHlt x s).nextRegs = s.nextRegs
    ∧ (setHlt x s).mem = s.mem ∧ (setHlt x s).lost = s.lost ∧ (setHlt x s).ledger = s.ledger ∧ (setHlt x s).fab = s.fab ∧
    (setHlt x s).offers = s.offers ∧ (setHlt x s).sent = s.sent ∧ (setHlt x s).tbs = s.tbs ∧ (setHlt x s).afe = s.afe ∧
    (setHlt x s).cnv = s.cnv ∧ (setHlt x s).lapInfo = s.lapInfo ∧ (setHlt x s).red = s.red ∧ (setHlt x s).out = s.out ∧
    (setHlt x s).acq = s.acq ∧ (setHlt x s).ctl = s.ctl ∧ (setHlt x s).cores = s.cores ∧ (setHlt x s).lanes = s.lanes ∧
    (setHlt x s).wot = s.wot ∧ (setHlt x s).eth = s.eth ∧ (setHlt x s).dmc = s.dmc ∧ (setHlt x s).twin = s.twin ∧ (setHlt x
    s).pwr = s.pwr ∧ (setHlt x s).svc = s.svc ∧ (setHlt x s).jtag = s.jtag ∧ (∀ a, rd (setHlt x s) a = rd s a) ∧ (∀ f, fld
    (setHlt x s) f = fld s f) ∧ (∀ f, flag (setHlt x s) f = flag s f) := ⟨rfl, rfl, rfl, rfl, rfl, rfl, rfl, rfl, rfl, rfl,
    rfl, rfl, rfl, rfl, rfl, rfl, rfl, rfl, rfl, rfl, rfl, rfl, rfl, rfl, rfl, rfl, rfl, rfl, rfl, fun _ => rfl, fun _ => rfl,
    fun _ => rfl⟩

@[simp] theorem setHlt_hlt (x : Hlt) (s : State) :
    (setHlt x s).hlt = x := rfl

@[simp] theorem setPower_frame (x : Pwr) (s : State) : (setPower x s).pending = s.pending ∧ (setPower x s).bnd = s.bnd ∧
    (setPower x s).fresh = s.fresh ∧ (setPower x s).regs = s.regs ∧ (setPower x s).accepted = s.accepted ∧ (setPower x
    s).nextRegs = s.nextRegs ∧ (setPower x s).mem = s.mem ∧ (setPower x s).lost = s.lost ∧ (setPower x s).ledger = s.ledger ∧
    (setPower x s).fab = s.fab ∧ (setPower x s).offers = s.offers ∧ (setPower x s).sent = s.sent ∧ (setPower x s).tbs = s.tbs
    ∧ (setPower x s).afe = s.afe ∧ (setPower x s).cnv = s.cnv ∧ (setPower x s).lapInfo = s.lapInfo ∧ (setPower x s).red =
    s.red ∧ (setPower x s).out = s.out ∧ (setPower x s).acq = s.acq ∧ (setPower x s).ctl = s.ctl ∧ (setPower x s).cores =
    s.cores ∧ (setPower x s).lanes = s.lanes ∧ (setPower x s).wot = s.wot ∧ (setPower x s).eth = s.eth ∧ (setPower x s).dmc =
    s.dmc ∧ (setPower x s).twin = s.twin ∧ (setPower x s).hlt = s.hlt ∧ (setPower x s).svc = s.svc ∧ (setPower x s).jtag =
    s.jtag ∧ (∀ a, rd (setPower x s) a = rd s a) ∧ (∀ f, fld (setPower x s) f = fld s f) ∧ (∀ f, flag (setPower x s) f = flag
    s f) := ⟨rfl, rfl, rfl, rfl, rfl, rfl, rfl, rfl, rfl, rfl, rfl, rfl, rfl, rfl, rfl, rfl, rfl, rfl, rfl, rfl, rfl, rfl,
    rfl, rfl, rfl, rfl, rfl, rfl, rfl, fun _ => rfl, fun _ => rfl, fun _ => rfl⟩

@[simp] theorem setPower_pwr (x : Pwr) (s : State) :
    (setPower x s).pwr = x := rfl

@[simp] theorem setSvc_frame (x : Svc) (s : State) : (setSvc x s).pending = s.pending ∧ (setSvc x s).bnd = s.bnd ∧ (setSvc x
    s).fresh = s.fresh ∧ (setSvc x s).regs = s.regs ∧ (setSvc x s).accepted = s.accepted ∧ (setSvc x s).nextRegs = s.nextRegs
    ∧ (setSvc x s).mem = s.mem ∧ (setSvc x s).lost = s.lost ∧ (setSvc x s).ledger = s.ledger ∧ (setSvc x s).fab = s.fab ∧
    (setSvc x s).offers = s.offers ∧ (setSvc x s).sent = s.sent ∧ (setSvc x s).tbs = s.tbs ∧ (setSvc x s).afe = s.afe ∧
    (setSvc x s).cnv = s.cnv ∧ (setSvc x s).lapInfo = s.lapInfo ∧ (setSvc x s).red = s.red ∧ (setSvc x s).out = s.out ∧
    (setSvc x s).acq = s.acq ∧ (setSvc x s).ctl = s.ctl ∧ (setSvc x s).cores = s.cores ∧ (setSvc x s).lanes = s.lanes ∧
    (setSvc x s).wot = s.wot ∧ (setSvc x s).eth = s.eth ∧ (setSvc x s).dmc = s.dmc ∧ (setSvc x s).twin = s.twin ∧ (setSvc x
    s).hlt = s.hlt ∧ (setSvc x s).pwr = s.pwr ∧ (setSvc x s).jtag = s.jtag ∧ (∀ a, rd (setSvc x s) a = rd s a) ∧ (∀ f, fld
    (setSvc x s) f = fld s f) ∧ (∀ f, flag (setSvc x s) f = flag s f) := ⟨rfl, rfl, rfl, rfl, rfl, rfl, rfl, rfl, rfl, rfl,
    rfl, rfl, rfl, rfl, rfl, rfl, rfl, rfl, rfl, rfl, rfl, rfl, rfl, rfl, rfl, rfl, rfl, rfl, rfl, fun _ => rfl, fun _ => rfl,
    fun _ => rfl⟩

@[simp] theorem setSvc_svc (x : Svc) (s : State) :
    (setSvc x s).svc = x := rfl

@[simp] theorem setBoot_frame (x : Boot) (s : State) : (setBoot x s).pending = s.pending ∧ (setBoot x s).bnd = s.bnd ∧
    (setBoot x s).fresh = s.fresh ∧ (setBoot x s).regs = s.regs ∧ (setBoot x s).accepted = s.accepted ∧ (setBoot x s).nextRegs
    = s.nextRegs ∧ (setBoot x s).mem = s.mem ∧ (setBoot x s).lost = s.lost ∧ (setBoot x s).ledger = s.ledger ∧ (setBoot x
    s).fab = s.fab ∧ (setBoot x s).offers = s.offers ∧ (setBoot x s).sent = s.sent ∧ (setBoot x s).tbs = s.tbs ∧ (setBoot x
    s).afe = s.afe ∧ (setBoot x s).cnv = s.cnv ∧ (setBoot x s).lapInfo = s.lapInfo ∧ (setBoot x s).red = s.red ∧ (setBoot x
    s).out = s.out ∧ (setBoot x s).acq = s.acq ∧ (setBoot x s).ctl = s.ctl ∧ (setBoot x s).cores = s.cores ∧ (setBoot x
    s).lanes = s.lanes ∧ (setBoot x s).wot = s.wot ∧ (setBoot x s).eth = s.eth ∧ (setBoot x s).dmc = s.dmc ∧ (setBoot x
    s).twin = s.twin ∧ (setBoot x s).hlt = s.hlt ∧ (setBoot x s).svc = s.svc ∧ (setBoot x s).jtag = s.jtag ∧ (∀ a, rd (setBoot
    x s) a = rd s a) ∧ (∀ f, fld (setBoot x s) f = fld s f) ∧ (∀ f, flag (setBoot x s) f = flag s f) := ⟨rfl, rfl, rfl, rfl,
    rfl, rfl, rfl, rfl, rfl, rfl, rfl, rfl, rfl, rfl, rfl, rfl, rfl, rfl, rfl, rfl, rfl, rfl, rfl, rfl, rfl, rfl, rfl, rfl,
    rfl, fun _ => rfl, fun _ => rfl, fun _ => rfl⟩

@[simp] theorem setBoot_pwr (x : Boot) (s : State) :
    (setBoot x s).pwr = { s.pwr with boot := x } := rfl

@[simp] theorem gotLap_frame (s : State) : (gotLap s).pending = s.pending ∧ (gotLap s).bnd = s.bnd ∧ (gotLap s).fresh =
    s.fresh ∧ (gotLap s).regs = s.regs ∧ (gotLap s).accepted = s.accepted ∧ (gotLap s).nextRegs = s.nextRegs ∧ (gotLap s).mem
    = s.mem ∧ (gotLap s).lost = s.lost ∧ (gotLap s).ledger = s.ledger ∧ (gotLap s).fab = s.fab ∧ (gotLap s).offers = s.offers
    ∧ (gotLap s).sent = s.sent ∧ (gotLap s).tbs = s.tbs ∧ (gotLap s).afe = s.afe ∧ (gotLap s).cnv = s.cnv ∧ (gotLap s).red =
    s.red ∧ (gotLap s).out = s.out ∧ (gotLap s).acq = s.acq ∧ (gotLap s).ctl = s.ctl ∧ (gotLap s).cores = s.cores ∧ (gotLap
    s).lanes = s.lanes ∧ (gotLap s).wot = s.wot ∧ (gotLap s).eth = s.eth ∧ (gotLap s).dmc = s.dmc ∧ (gotLap s).twin = s.twin ∧
    (gotLap s).hlt = s.hlt ∧ (gotLap s).pwr = s.pwr ∧ (gotLap s).svc = s.svc ∧ (gotLap s).jtag = s.jtag ∧ (∀ a, rd (gotLap s)
    a = rd s a) ∧ (∀ f, fld (gotLap s) f = fld s f) ∧ (∀ f, flag (gotLap s) f = flag s f) := ⟨rfl, rfl, rfl, rfl, rfl, rfl,
    rfl, rfl, rfl, rfl, rfl, rfl, rfl, rfl, rfl, rfl, rfl, rfl, rfl, rfl, rfl, rfl, rfl, rfl, rfl, rfl, rfl, rfl, rfl, fun _
    => rfl, fun _ => rfl, fun _ => rfl⟩

@[simp] theorem gotLap_lapInfo (s : State) :
    (gotLap s).lapInfo = { s.lapInfo with got := true } := rfl

@[simp] theorem noteBefore_frame (s : State) : (noteBefore s).pending = s.pending ∧ (noteBefore s).bnd = s.bnd ∧ (noteBefore
    s).fresh = s.fresh ∧ (noteBefore s).regs = s.regs ∧ (noteBefore s).accepted = s.accepted ∧ (noteBefore s).nextRegs =
    s.nextRegs ∧ (noteBefore s).mem = s.mem ∧ (noteBefore s).lost = s.lost ∧ (noteBefore s).ledger = s.ledger ∧ (noteBefore
    s).fab = s.fab ∧ (noteBefore s).offers = s.offers ∧ (noteBefore s).sent = s.sent ∧ (noteBefore s).afe = s.afe ∧
    (noteBefore s).cnv = s.cnv ∧ (noteBefore s).lapInfo = s.lapInfo ∧ (noteBefore s).red = s.red ∧ (noteBefore s).out = s.out
    ∧ (noteBefore s).acq = s.acq ∧ (noteBefore s).ctl = s.ctl ∧ (noteBefore s).cores = s.cores ∧ (noteBefore s).lanes =
    s.lanes ∧ (noteBefore s).wot = s.wot ∧ (noteBefore s).eth = s.eth ∧ (noteBefore s).dmc = s.dmc ∧ (noteBefore s).twin =
    s.twin ∧ (noteBefore s).hlt = s.hlt ∧ (noteBefore s).pwr = s.pwr ∧ (noteBefore s).svc = s.svc ∧ (noteBefore s).jtag =
    s.jtag ∧ (∀ a, rd (noteBefore s) a = rd s a) ∧ (∀ f, fld (noteBefore s) f = fld s f) ∧ (∀ f, flag (noteBefore s) f = flag
    s f) := ⟨rfl, rfl, rfl, rfl, rfl, rfl, rfl, rfl, rfl, rfl, rfl, rfl, rfl, rfl, rfl, rfl, rfl, rfl, rfl, rfl, rfl, rfl,
    rfl, rfl, rfl, rfl, rfl, rfl, rfl, fun _ => rfl, fun _ => rfl, fun _ => rfl⟩

@[simp] theorem noteBefore_tbs (s : State) :
    (noteBefore s).tbs = { s.tbs with before := (List.range 4).map (dataTally s) } := rfl

/-! ### Registers -/

/-- A register word after a word is held. -/
theorem rd_wr (s : State) (a b : Nat) (w : Word) : rd (wr s a w) b = if b = a then w else rd s b := tget_tput resetWord s.regs a b w

@[simp] theorem rd_wr_same (s : State) (a : Nat) (w : Word) : rd (wr s a w) a = w := by
  simp [rd_wr]

theorem rd_wr_other (s : State) {a b : Nat} (w : Word) (h : b ≠ a) : rd (wr s a w) b = rd s b := by
  simp [rd_wr, h]

theorem fget_lt (x : Word) (lo w : Nat) (hw : w ≤ 32) : fget x lo w < 2 ^ w := by
  unfold fget
  rw [BitVec.toNat_and]
  refine lt_of_le_of_lt Nat.and_le_right ?_
  rw [BitVec.toNat_ofNat]
  have h1 : 2 ^ w ≤ 2 ^ 32 := Nat.pow_le_pow_right (by decide) hw
  have h0 : 0 < 2 ^ w := Nat.pow_pos (by decide)
  rw [Nat.mod_eq_of_lt (by omega)]
  omega

theorem getLsb_fmask (lo w i : Nat) (h : lo + w ≤ 32) : (fmask lo w).getLsbD i = (decide (lo ≤ i) && decide (i < lo + w)) := by
  unfold fmask
  rw [BitVec.getLsbD_shiftLeft, BitVec.getLsbD_ofNat, Nat.testBit_two_pow_sub_one]
  rw [Bool.eq_iff_iff]
  simp only [Bool.and_eq_true, decide_eq_true_eq, Bool.not_eq_true', decide_eq_false_iff_not]
  omega

theorem getLsb_fset (x : Word) (lo w v i : Nat) (h : lo + w ≤ 32) :
    (fset x lo w v).getLsbD i = if lo ≤ i ∧ i < lo + w then v.testBit (i - lo) else x.getLsbD i := by
  unfold fset
  simp only [BitVec.getLsbD_or, BitVec.getLsbD_and, BitVec.getLsbD_not, getLsb_fmask _ _ _ h, BitVec.getLsbD_shiftLeft,
    BitVec.getLsbD_ofNat]
  by_cases h5 : i < 32
  · by_cases h1 : lo ≤ i <;> by_cases h2 : i < lo + w
    · have h4 : i - lo < 32 := by omega
      simp [h1, h2, h4, h5, Nat.not_lt.mpr h1]
    · simp [h1, h2, h5]
    · simp [h1, h5]
    · simp [h1, h5]
  · have h6 : ¬ (lo ≤ i ∧ i < lo + w) := by omega
    simp [h6, h5, BitVec.getLsbD_of_ge x i (Nat.not_lt.mp h5)]

theorem testBit_fget (x : Word) (lo w i : Nat) (hw : w ≤ 32) : (fget x lo w).testBit i = (decide (i < w) && x.getLsbD (lo + i)) := by
  unfold fget
  rw [← BitVec.getLsbD, BitVec.getLsbD_and, BitVec.getLsbD_ushiftRight, BitVec.getLsbD_ofNat, Nat.testBit_two_pow_sub_one]
  by_cases h1 : i < w
  · have h2 : i < 32 := by omega
    simp [h1, h2]
  · simp [h1]

/-- A field reads the low bits of what was last written to it. -/
theorem fget_fset_same (x : Word) (lo w v : Nat) (h : lo + w ≤ 32) : fget (fset x lo w v) lo w = v % 2 ^ w := by
  apply Nat.eq_of_testBit_eq
  intro i
  rw [testBit_fget _ _ _ _ (by omega), getLsb_fset _ _ _ _ _ h, Nat.testBit_mod_two_pow]
  by_cases h1 : i < w
  · simp [h1]
  · simp [h1]

/-- A field keeps its value when a field beside it is written. -/
theorem fget_fset_other (x : Word) (lo w lo' w' v : Nat) (h : lo + w ≤ 32) (h' : lo' + w' ≤ 32) (hd : lo + w ≤ lo' ∨ lo' + w' ≤ lo) :
    fget (fset x lo' w' v) lo w = fget x lo w := by
  apply Nat.eq_of_testBit_eq
  intro i
  rw [testBit_fget _ _ _ _ (by omega), testBit_fget _ _ _ _ (by omega), getLsb_fset _ _ _ _ _ h']
  by_cases h1 : i < w
  · have h2 : ¬ (lo' ≤ lo + i ∧ lo + i < lo' + w') := by omega
    simp [h2]
  · simp [h1]

theorem fld_setFld_same (s : State) (f : Fld) (v : Nat) (h : f.lo + f.w ≤ 32) : fld (setFld s f v) f = v % 2 ^ f.w := by
  simp [fld, setFld, fget_fset_same _ _ _ _ h]

theorem fld_setFld_reg (s : State) (f g : Fld) (v : Nat) (h : f.reg ≠ g.reg) : fld (setFld s g v) f = fld s f := by
  simp [fld, setFld, rd_wr_other _ _ h]

theorem fld_setFld_beside (s : State) (f g : Fld) (v : Nat) (hr : f.reg = g.reg) (h : f.lo + f.w ≤ 32) (h' : g.lo + g.w ≤ 32)
    (hd : f.lo + f.w ≤ g.lo ∨ g.lo + g.w ≤ f.lo) : fld (setFld s g v) f = fld s f := by
  simp [fld, setFld, hr, fget_fset_other _ _ _ _ _ _ h h' hd]

theorem rd_setFld_other (s : State) (g : Fld) (v a : Nat) (h : a ≠ g.reg) : rd (setFld s g v) a = rd s a := rd_wr_other _ _ h

theorem flag_setFlag_same (s : State) (f : Fld) (b : Bool) (hw : f.w = 1) (h : f.lo + f.w ≤ 32) : flag (setFlag s f b) f = b := by
  cases b <;> simp [flag, setFlag, bit, fld_setFld_same s f _ h, hw]

@[simp] theorem wr_frame (s : State) (a : Nat) (w : Word) : (wr s a w).pending = s.pending ∧ (wr s a w).bnd = s.bnd ∧ (wr s a
    w).fresh = s.fresh ∧ (wr s a w).accepted = s.accepted ∧ (wr s a w).nextRegs = s.nextRegs ∧ (wr s a w).mem = s.mem ∧ (wr s
    a w).lost = s.lost ∧ (wr s a w).ledger = s.ledger ∧ (wr s a w).fab = s.fab ∧ (wr s a w).offers = s.offers ∧ (wr s a
    w).sent = s.sent ∧ (wr s a w).tbs = s.tbs ∧ (wr s a w).afe = s.afe ∧ (wr s a w).cnv = s.cnv ∧ (wr s a w).lapInfo =
    s.lapInfo ∧ (wr s a w).red = s.red ∧ (wr s a w).out = s.out ∧ (wr s a w).acq = s.acq ∧ (wr s a w).ctl = s.ctl ∧ (wr s a
    w).cores = s.cores ∧ (wr s a w).lanes = s.lanes ∧ (wr s a w).wot = s.wot ∧ (wr s a w).eth = s.eth ∧ (wr s a w).dmc = s.dmc
    ∧ (wr s a w).twin = s.twin ∧ (wr s a w).hlt = s.hlt ∧ (wr s a w).pwr = s.pwr ∧ (wr s a w).svc = s.svc ∧ (wr s a w).jtag =
    s.jtag := ⟨rfl, rfl, rfl, rfl, rfl, rfl, rfl, rfl, rfl, rfl, rfl, rfl, rfl, rfl, rfl, rfl, rfl, rfl, rfl, rfl, rfl, rfl,
    rfl, rfl, rfl, rfl, rfl, rfl, rfl⟩

@[simp] theorem setFld_frame (s : State) (f : Fld) (v : Nat) : (setFld s f v).pending = s.pending ∧ (setFld s f v).bnd = s.bnd
    ∧ (setFld s f v).fresh = s.fresh ∧ (setFld s f v).accepted = s.accepted ∧ (setFld s f v).nextRegs = s.nextRegs ∧ (setFld s
    f v).mem = s.mem ∧ (setFld s f v).lost = s.lost ∧ (setFld s f v).ledger = s.ledger ∧ (setFld s f v).fab = s.fab ∧ (setFld
    s f v).offers = s.offers ∧ (setFld s f v).sent = s.sent ∧ (setFld s f v).tbs = s.tbs ∧ (setFld s f v).afe = s.afe ∧
    (setFld s f v).cnv = s.cnv ∧ (setFld s f v).lapInfo = s.lapInfo ∧ (setFld s f v).red = s.red ∧ (setFld s f v).out = s.out
    ∧ (setFld s f v).acq = s.acq ∧ (setFld s f v).ctl = s.ctl ∧ (setFld s f v).cores = s.cores ∧ (setFld s f v).lanes =
    s.lanes ∧ (setFld s f v).wot = s.wot ∧ (setFld s f v).eth = s.eth ∧ (setFld s f v).dmc = s.dmc ∧ (setFld s f v).twin =
    s.twin ∧ (setFld s f v).hlt = s.hlt ∧ (setFld s f v).pwr = s.pwr ∧ (setFld s f v).svc = s.svc ∧ (setFld s f v).jtag =
    s.jtag := ⟨rfl, rfl, rfl, rfl, rfl, rfl, rfl, rfl, rfl, rfl, rfl, rfl, rfl, rfl, rfl, rfl, rfl, rfl, rfl, rfl, rfl, rfl,
    rfl, rfl, rfl, rfl, rfl, rfl, rfl⟩

@[simp] theorem setFlag_frame (s : State) (f : Fld) (b : Bool) : (setFlag s f b).pending = s.pending ∧ (setFlag s f b).bnd =
    s.bnd ∧ (setFlag s f b).fresh = s.fresh ∧ (setFlag s f b).accepted = s.accepted ∧ (setFlag s f b).nextRegs = s.nextRegs ∧
    (setFlag s f b).mem = s.mem ∧ (setFlag s f b).lost = s.lost ∧ (setFlag s f b).ledger = s.ledger ∧ (setFlag s f b).fab =
    s.fab ∧ (setFlag s f b).offers = s.offers ∧ (setFlag s f b).sent = s.sent ∧ (setFlag s f b).tbs = s.tbs ∧ (setFlag s f
    b).afe = s.afe ∧ (setFlag s f b).cnv = s.cnv ∧ (setFlag s f b).lapInfo = s.lapInfo ∧ (setFlag s f b).red = s.red ∧
    (setFlag s f b).out = s.out ∧ (setFlag s f b).acq = s.acq ∧ (setFlag s f b).ctl = s.ctl ∧ (setFlag s f b).cores = s.cores
    ∧ (setFlag s f b).lanes = s.lanes ∧ (setFlag s f b).wot = s.wot ∧ (setFlag s f b).eth = s.eth ∧ (setFlag s f b).dmc =
    s.dmc ∧ (setFlag s f b).twin = s.twin ∧ (setFlag s f b).hlt = s.hlt ∧ (setFlag s f b).pwr = s.pwr ∧ (setFlag s f b).svc =
    s.svc ∧ (setFlag s f b).jtag = s.jtag := ⟨rfl, rfl, rfl, rfl, rfl, rfl, rfl, rfl, rfl, rfl, rfl, rfl, rfl, rfl, rfl, rfl,
    rfl, rfl, rfl, rfl, rfl, rfl, rfl, rfl, rfl, rfl, rfl, rfl, rfl⟩

@[simp] theorem setInt_frame (s : State) (f : Fld) (i : Int) : (setInt s f i).pending = s.pending ∧ (setInt s f i).bnd = s.bnd
    ∧ (setInt s f i).fresh = s.fresh ∧ (setInt s f i).accepted = s.accepted ∧ (setInt s f i).nextRegs = s.nextRegs ∧ (setInt s
    f i).mem = s.mem ∧ (setInt s f i).lost = s.lost ∧ (setInt s f i).ledger = s.ledger ∧ (setInt s f i).fab = s.fab ∧ (setInt
    s f i).offers = s.offers ∧ (setInt s f i).sent = s.sent ∧ (setInt s f i).tbs = s.tbs ∧ (setInt s f i).afe = s.afe ∧
    (setInt s f i).cnv = s.cnv ∧ (setInt s f i).lapInfo = s.lapInfo ∧ (setInt s f i).red = s.red ∧ (setInt s f i).out = s.out
    ∧ (setInt s f i).acq = s.acq ∧ (setInt s f i).ctl = s.ctl ∧ (setInt s f i).cores = s.cores ∧ (setInt s f i).lanes =
    s.lanes ∧ (setInt s f i).wot = s.wot ∧ (setInt s f i).eth = s.eth ∧ (setInt s f i).dmc = s.dmc ∧ (setInt s f i).twin =
    s.twin ∧ (setInt s f i).hlt = s.hlt ∧ (setInt s f i).pwr = s.pwr ∧ (setInt s f i).svc = s.svc ∧ (setInt s f i).jtag =
    s.jtag := ⟨rfl, rfl, rfl, rfl, rfl, rfl, rfl, rfl, rfl, rfl, rfl, rfl, rfl, rfl, rfl, rfl, rfl, rfl, rfl, rfl, rfl, rfl,
    rfl, rfl, rfl, rfl, rfl, rfl, rfl⟩

@[simp] theorem addSat_frame (s : State) (f : Fld) (k : Nat) : (addSat s f k).pending = s.pending ∧ (addSat s f k).bnd = s.bnd
    ∧ (addSat s f k).fresh = s.fresh ∧ (addSat s f k).accepted = s.accepted ∧ (addSat s f k).nextRegs = s.nextRegs ∧ (addSat s
    f k).mem = s.mem ∧ (addSat s f k).lost = s.lost ∧ (addSat s f k).ledger = s.ledger ∧ (addSat s f k).fab = s.fab ∧ (addSat
    s f k).offers = s.offers ∧ (addSat s f k).sent = s.sent ∧ (addSat s f k).tbs = s.tbs ∧ (addSat s f k).afe = s.afe ∧
    (addSat s f k).cnv = s.cnv ∧ (addSat s f k).lapInfo = s.lapInfo ∧ (addSat s f k).red = s.red ∧ (addSat s f k).out = s.out
    ∧ (addSat s f k).acq = s.acq ∧ (addSat s f k).ctl = s.ctl ∧ (addSat s f k).cores = s.cores ∧ (addSat s f k).lanes =
    s.lanes ∧ (addSat s f k).wot = s.wot ∧ (addSat s f k).eth = s.eth ∧ (addSat s f k).dmc = s.dmc ∧ (addSat s f k).twin =
    s.twin ∧ (addSat s f k).hlt = s.hlt ∧ (addSat s f k).pwr = s.pwr ∧ (addSat s f k).svc = s.svc ∧ (addSat s f k).jtag =
    s.jtag := ⟨rfl, rfl, rfl, rfl, rfl, rfl, rfl, rfl, rfl, rfl, rfl, rfl, rfl, rfl, rfl, rfl, rfl, rfl, rfl, rfl, rfl, rfl,
    rfl, rfl, rfl, rfl, rfl, rfl, rfl⟩

@[simp] theorem addMod_frame (s : State) (f : Fld) (k : Nat) : (addMod s f k).pending = s.pending ∧ (addMod s f k).bnd = s.bnd
    ∧ (addMod s f k).fresh = s.fresh ∧ (addMod s f k).accepted = s.accepted ∧ (addMod s f k).nextRegs = s.nextRegs ∧ (addMod s
    f k).mem = s.mem ∧ (addMod s f k).lost = s.lost ∧ (addMod s f k).ledger = s.ledger ∧ (addMod s f k).fab = s.fab ∧ (addMod
    s f k).offers = s.offers ∧ (addMod s f k).sent = s.sent ∧ (addMod s f k).tbs = s.tbs ∧ (addMod s f k).afe = s.afe ∧
    (addMod s f k).cnv = s.cnv ∧ (addMod s f k).lapInfo = s.lapInfo ∧ (addMod s f k).red = s.red ∧ (addMod s f k).out = s.out
    ∧ (addMod s f k).acq = s.acq ∧ (addMod s f k).ctl = s.ctl ∧ (addMod s f k).cores = s.cores ∧ (addMod s f k).lanes =
    s.lanes ∧ (addMod s f k).wot = s.wot ∧ (addMod s f k).eth = s.eth ∧ (addMod s f k).dmc = s.dmc ∧ (addMod s f k).twin =
    s.twin ∧ (addMod s f k).hlt = s.hlt ∧ (addMod s f k).pwr = s.pwr ∧ (addMod s f k).svc = s.svc ∧ (addMod s f k).jtag =
    s.jtag := ⟨rfl, rfl, rfl, rfl, rfl, rfl, rfl, rfl, rfl, rfl, rfl, rfl, rfl, rfl, rfl, rfl, rfl, rfl, rfl, rfl, rfl, rfl,
    rfl, rfl, rfl, rfl, rfl, rfl, rfl⟩

@[simp] theorem wrPair_frame (s : State) (lo : Nat) (hi : Nat) (v : Nat) : (wrPair s lo hi v).pending = s.pending ∧ (wrPair s
    lo hi v).bnd = s.bnd ∧ (wrPair s lo hi v).fresh = s.fresh ∧ (wrPair s lo hi v).accepted = s.accepted ∧ (wrPair s lo hi
    v).nextRegs = s.nextRegs ∧ (wrPair s lo hi v).mem = s.mem ∧ (wrPair s lo hi v).lost = s.lost ∧ (wrPair s lo hi v).ledger =
    s.ledger ∧ (wrPair s lo hi v).fab = s.fab ∧ (wrPair s lo hi v).offers = s.offers ∧ (wrPair s lo hi v).sent = s.sent ∧
    (wrPair s lo hi v).tbs = s.tbs ∧ (wrPair s lo hi v).afe = s.afe ∧ (wrPair s lo hi v).cnv = s.cnv ∧ (wrPair s lo hi
    v).lapInfo = s.lapInfo ∧ (wrPair s lo hi v).red = s.red ∧ (wrPair s lo hi v).out = s.out ∧ (wrPair s lo hi v).acq = s.acq
    ∧ (wrPair s lo hi v).ctl = s.ctl ∧ (wrPair s lo hi v).cores = s.cores ∧ (wrPair s lo hi v).lanes = s.lanes ∧ (wrPair s lo
    hi v).wot = s.wot ∧ (wrPair s lo hi v).eth = s.eth ∧ (wrPair s lo hi v).dmc = s.dmc ∧ (wrPair s lo hi v).twin = s.twin ∧
    (wrPair s lo hi v).hlt = s.hlt ∧ (wrPair s lo hi v).pwr = s.pwr ∧ (wrPair s lo hi v).svc = s.svc ∧ (wrPair s lo hi v).jtag
    = s.jtag := ⟨rfl, rfl, rfl, rfl, rfl, rfl, rfl, rfl, rfl, rfl, rfl, rfl, rfl, rfl, rfl, rfl, rfl, rfl, rfl, rfl, rfl, rfl,
    rfl, rfl, rfl, rfl, rfl, rfl, rfl⟩

/-! ### Events -/

@[simp] theorem raise_frame (n : Nat) (s : State) : (raise n s).pending = s.pending ∧ (raise n s).bnd = s.bnd ∧ (raise n
    s).fresh = s.fresh ∧ (raise n s).regs = s.regs ∧ (raise n s).accepted = s.accepted ∧ (raise n s).nextRegs = s.nextRegs ∧
    (raise n s).mem = s.mem ∧ (raise n s).lost = s.lost ∧ (raise n s).ledger = s.ledger ∧ (raise n s).offers = s.offers ∧
    (raise n s).sent = s.sent ∧ (raise n s).tbs = s.tbs ∧ (raise n s).afe = s.afe ∧ (raise n s).cnv = s.cnv ∧ (raise n
    s).lapInfo = s.lapInfo ∧ (raise n s).red = s.red ∧ (raise n s).out = s.out ∧ (raise n s).acq = s.acq ∧ (raise n s).ctl =
    s.ctl ∧ (raise n s).cores = s.cores ∧ (raise n s).lanes = s.lanes ∧ (raise n s).wot = s.wot ∧ (raise n s).eth = s.eth ∧
    (raise n s).dmc = s.dmc ∧ (raise n s).twin = s.twin ∧ (raise n s).hlt = s.hlt ∧ (raise n s).pwr = s.pwr ∧ (raise n s).svc
    = s.svc ∧ (raise n s).jtag = s.jtag ∧ (∀ a, rd (raise n s) a = rd s a) ∧ (∀ f, fld (raise n s) f = fld s f) ∧ (∀ f, flag
    (raise n s) f = flag s f) := by
  unfold raise
  split <;> exact ⟨rfl, rfl, rfl, rfl, rfl, rfl, rfl, rfl, rfl, rfl, rfl, rfl, rfl, rfl, rfl, rfl, rfl, rfl, rfl, rfl, rfl, rfl, rfl, rfl, rfl, rfl, rfl, rfl, rfl, fun _ => rfl, fun _ => rfl, fun _ => rfl⟩

@[simp] theorem raiseIf_frame (b : Bool) (n : Nat) (s : State) : (raiseIf b n s).pending = s.pending ∧ (raiseIf b n s).bnd =
    s.bnd ∧ (raiseIf b n s).fresh = s.fresh ∧ (raiseIf b n s).regs = s.regs ∧ (raiseIf b n s).accepted = s.accepted ∧ (raiseIf
    b n s).nextRegs = s.nextRegs ∧ (raiseIf b n s).mem = s.mem ∧ (raiseIf b n s).lost = s.lost ∧ (raiseIf b n s).ledger =
    s.ledger ∧ (raiseIf b n s).offers = s.offers ∧ (raiseIf b n s).sent = s.sent ∧ (raiseIf b n s).tbs = s.tbs ∧ (raiseIf b n
    s).afe = s.afe ∧ (raiseIf b n s).cnv = s.cnv ∧ (raiseIf b n s).lapInfo = s.lapInfo ∧ (raiseIf b n s).red = s.red ∧
    (raiseIf b n s).out = s.out ∧ (raiseIf b n s).acq = s.acq ∧ (raiseIf b n s).ctl = s.ctl ∧ (raiseIf b n s).cores = s.cores
    ∧ (raiseIf b n s).lanes = s.lanes ∧ (raiseIf b n s).wot = s.wot ∧ (raiseIf b n s).eth = s.eth ∧ (raiseIf b n s).dmc =
    s.dmc ∧ (raiseIf b n s).twin = s.twin ∧ (raiseIf b n s).hlt = s.hlt ∧ (raiseIf b n s).pwr = s.pwr ∧ (raiseIf b n s).svc =
    s.svc ∧ (raiseIf b n s).jtag = s.jtag ∧ (∀ a, rd (raiseIf b n s) a = rd s a) ∧ (∀ f, fld (raiseIf b n s) f = fld s f) ∧ (∀
    f, flag (raiseIf b n s) f = flag s f) := by
  unfold raiseIf
  split <;> simp

theorem mem_raise (n : Nat) (s : State) : n ∈ (raise n s).fab.raised := by
  unfold raise
  split
  · assumption
  · simp

theorem mem_raise_of_mem {n : Nat} (m : Nat) {s : State} (h : n ∈ s.fab.raised) : n ∈ (raise m s).fab.raised := by
  unfold raise
  split
  · exact h
  · simp [h]

end Sys2Proof.Machine
end

