-- ==== Sys2Proof/Laws/Settle.lean ====
section
/-!
SUPPORT. What the completion of the posted events (`settle`) does and leaves: the events posted are pending on the cores that watch
them, and no register outside the Ledger's block changes (spec/08_cores.md R234, spec/15_errors_ordering.md R411,
spec/16_power_boot.md R432, R433).
-/
namespace Sys2Proof.Machine
open Sys2Proof

/-- Every part of the state beside the registers, the events, the Ledger and the triggers under way is as it was. -/
theorem settle_same (s : State) (c : Comp) : same c s (settle s) := (settle_ok (kp := fun _ => false) Ok.start).2 c rfl

@[simp] theorem settle_frame (s : State) : (settle s).bnd = s.bnd ∧ (settle s).fresh = s.fresh ∧
    (settle s).accepted = s.accepted ∧ (settle s).nextRegs = s.nextRegs ∧ (settle s).mem = s.mem ∧ (settle s).sent = s.sent ∧
    (settle s).tbs = s.tbs ∧ (settle s).afe = s.afe ∧ (settle s).cnv = s.cnv ∧ (settle s).lapInfo = s.lapInfo ∧
    (settle s).red = s.red ∧ (settle s).out = s.out ∧ (settle s).acq = s.acq ∧ (settle s).ctl = s.ctl ∧
    (settle s).cores = s.cores ∧ (settle s).lanes = s.lanes ∧ (settle s).wot = s.wot ∧ (settle s).eth = s.eth ∧
    (settle s).dmc = s.dmc ∧ (settle s).twin = s.twin ∧ (settle s).hlt = s.hlt ∧ (settle s).pwr = s.pwr ∧
    (settle s).svc = s.svc ∧ (settle s).jtag = s.jtag :=
  ⟨settle_same s .bnd, settle_same s .fresh, settle_same s .accepted, settle_same s .nextRegs,
    congrArg Prod.fst (settle_same s .mem),
    settle_same s .sent, settle_same s .tbs, settle_same s .afe, settle_same s .cnv, settle_same s .lapInfo, settle_same s .red,
    settle_same s .out, settle_same s .acq, settle_same s .ctl, settle_same s .cores, settle_same s .lanes, settle_same s .wot,
    settle_same s .eth, settle_same s .dmc, settle_same s .twin, settle_same s .hlt, settle_same s .pwr, settle_same s .svc,
    settle_same s .jtag⟩

@[simp] theorem settle_lost (s : State) : (settle s).lost = s.lost := congrArg Prod.snd (settle_same s .mem)

@[simp] theorem settle_pending (s : State) : (settle s).pending = s.pending :=
  (settle_ok (kp := fun _ => false) Ok.start).1.1

@[simp] theorem settle_raised (s : State) : (settle s).fab.raised = [] := rfl

/-! ### Registers -/

/-- The registers that the completion of an event may write: LDG_STATUS, LDG_JRNL_HEAD and LDG_WEARr (R432, R433). -/
def inLdg (a : Nat) : Bool := decide (a = LDG_STATUS) || decide (a = LDG_JRNL_HEAD) || decide (0xA00D0040 ≤ a ∧ a < 0xA00D0060)

/-- An address that is none of them. -/
def OutsideLdg (a : Nat) : Prop := inLdg a = false

theorem outsideLdg_of {a : Nat} (h : a < 0xA00D0000 ∨ 0xA00D0100 ≤ a) : OutsideLdg a := by
  unfold OutsideLdg inLdg
  simp only [LDG_STATUS, LDG_JRNL_HEAD, Bool.or_eq_false_iff, decide_eq_false_iff_not]
  omega

/-- The registers outside the Ledger's block, and the PEND sets up to bits that were set, are as they were. -/
def Quiet (s t : State) : Prop :=
  (∀ a, OutsideLdg a → rd t a = rd s a) ∧ ∀ c n, pends s c n = true → pends t c n = true

theorem Quiet.refl (s : State) : Quiet s s := ⟨fun _ _ => rfl, fun _ _ h => h⟩

theorem Quiet.trans {s t u : State} (h : Quiet s t) (h' : Quiet t u) : Quiet s u :=
  ⟨fun a ha => (h'.1 a ha).trans (h.1 a ha), fun c n hn => h'.2 c n (h.2 c n hn)⟩

theorem quiet_of {s t : State} (h1 : t.regs = s.regs) (h2 : t.fab.pend = s.fab.pend) : Quiet s t :=
  ⟨fun a _ => by simp [rd, h1], fun c n h => by simpa [pends, pendWord, h2] using h⟩

theorem quiet_foldl {β : Type} {f : State → β → State} (hf : ∀ s x, Quiet s (f s x)) (l : List β) (s : State) : Quiet s (l.foldl f s) := by
  induction l generalizing s with
  | nil => exact Quiet.refl s
  | cons x l ih => exact (hf s x).trans (ih (f s x))

theorem quiet_ite {c : Prop} [Decidable c] {s a b : State} (ha : Quiet s a) (hb : Quiet s b) : Quiet s (if c then a else b) := by
  split
  · exact ha
  · exact hb

theorem raise_quiet (n : Nat) (s : State) : Quiet s (raise n s) := by
  unfold raise
  exact quiet_ite (Quiet.refl s) (quiet_of rfl rfl)

theorem setFld_quiet (s : State) (f : Fld) (v : Nat) (h : inLdg f.reg = true) : Quiet s (setFld s f v) := by
  refine ⟨fun a ha => rd_wr_other _ _ ?_, fun c n hn => hn⟩
  rintro rfl
  rw [OutsideLdg, h] at ha
  cases ha

theorem countOn_quiet (src k : Nat) (s : State) (n : Nat) : Quiet s (countOn src k s n) := by
  unfold countOn
  dsimp only
  refine quiet_ite ?_ (Quiet.refl s)
  unfold raiseIf
  exact quiet_ite ((quiet_of rfl rfl : Quiet s (setCount s n _)).trans (raise_quiet _ _)) (quiet_of rfl rfl)

theorem count_quiet (src k : Nat) (s : State) : Quiet s (count src k s) :=
  quiet_ite (Quiet.refl s) (quiet_foldl (countOn_quiet src k) _ s)

theorem ledgerRegion_lt (o : Nat) : ledgerRegion o < 8 := by
  unfold ledgerRegion
  repeat' split
  all_goals decide

theorem wearWord_quiet (s : State) (o : Nat) : Quiet s (wearWord s o) := by
  unfold wearWord
  dsimp only
  have h0 := ledgerRegion_lt o
  generalize h1 : wearOf s (o / 256) + 1 = c
  have h2 : Quiet s { s with fab := { s.fab with wear := tput (fun _ => 0) s.fab.wear (o / 256) c } } := quiet_of rfl rfl
  generalize { s with fab := { s.fab with wear := tput (fun _ => 0) s.fab.wear (o / 256) c } } = t at h2 ⊢
  have h3 : Quiet s (if fld t (LDG_WEARr.MAX (ledgerRegion o)) < c / 256 then
      setFld t (LDG_WEARr.MAX (ledgerRegion o)) (satNat 32 (c / 256)) else t) :=
    quiet_ite (h2.trans (setFld_quiet _ _ _ (by simp only [inLdg, Bool.or_eq_true, decide_eq_true_eq]; omega))) h2
  exact quiet_ite ((h3.trans (setFld_quiet _ _ _ (by decide))).trans (raise_quiet _ _)) h3

theorem lwriteWord_quiet (s : State) (o v : Nat) : Quiet s (lwriteWord s o v) := by
  unfold lwriteWord
  refine Quiet.trans ?_ (wearWord_quiet _ o)
  exact quiet_of rfl rfl

theorem lwriteWords_quiet (s : State) (o : Nat) (l : List Nat) : Quiet s (lwriteWords s o l) := by
  induction l generalizing s o with
  | nil => exact Quiet.refl s
  | cons v t ih => exact (lwriteWord_quiet s o v).trans (ih _ _)

theorem journal_quiet (n : Nat) (s : State) : Quiet s (journal n s) := by
  unfold journal
  dsimp only
  refine quiet_ite ?_ (Quiet.refl s)
  have h1 : ∀ l j, Quiet s { lwriteWords s (0x2A000 + fld s LDG_JRNL_HEAD.NEXT * 16) l with
      fab := { (lwriteWords s (0x2A000 + fld s LDG_JRNL_HEAD.NEXT * 16) l).fab with
        jrnlSeq := (lwriteWords s (0x2A000 + fld s LDG_JRNL_HEAD.NEXT * 16) l).fab.jrnlSeq + 1, jrnlAt := j } } :=
    fun l j => (lwriteWords_quiet s _ l).trans (quiet_of rfl rfl)
  refine quiet_ite ((h1 _ _).trans (setFld_quiet _ _ _ (by decide))) ?_
  exact ((h1 _ _).trans (setFld_quiet _ _ _ (by decide))).trans (setFld_quiet _ _ _ (by decide))

theorem offerEvent_quiet (n : Nat) (s : State) (r : Nat) : Quiet s (offerEvent n s r) := by
  unfold offerEvent
  exact quiet_ite (quiet_of rfl rfl) (Quiet.refl s)

theorem pends_setPend (s : State) (c k : Nat) (w : Word) (c' n : Nat) : pends (setPend s c k w) c' n =
    if c' * 8 + n / 32 = c * 8 + k then nbit w.toNat (n % 32) else pends s c' n := by
  unfold pends pendWord setPend
  rw [tget_tput]
  split <;> rfl

theorem pends_or (s : State) (c k : Nat) (w : Word) (c' n : Nat) (h : pends s c' n = true) :
    pends (setPend s c k (pendWord s c k ||| w)) c' n = true := by
  rw [pends_setPend]
  split
  · rename_i e
    unfold pends pendWord at h
    unfold nbit pendWord at *
    rw [e] at h
    rw [BitVec.toNat_or, Nat.testBit_or, h, Bool.true_or]
  · exact h

theorem pendOn_quiet (n : Nat) (s : State) (c : Nat) : Quiet s (pendOn n s c) := by
  unfold pendOn
  refine quiet_ite ⟨fun a _ => rfl, fun c' m h => pends_or s c _ _ c' m h⟩ (Quiet.refl s)

theorem inThisCycle_pend (s : State) (f : Fabric) : (inThisCycle s f).pend = f.pend := by
  unfold inThisCycle
  split <;> rfl

theorem notePost_quiet (n : Nat) (s : State) : Quiet s (notePost n s) := quiet_of rfl (inThisCycle_pend s s.fab)

/-- The effect of a post beyond PEND. -/
theorem postRest_quiet (n : Nat) (c : Prop) [Decidable c] (s : State) :
    Quiet s (if c then notePost n s else (List.range 64).foldl (offerEvent n) (journal n (count n 1 (notePost n s)))) :=
  quiet_ite (notePost_quiet n s)
    ((((notePost_quiet n s).trans (count_quiet n 1 _)).trans (journal_quiet n _)).trans (quiet_foldl (offerEvent_quiet n) _ _))

theorem postOne_quiet (s : State) (n : Nat) : Quiet s (postOne s n) :=
  (quiet_foldl (pendOn_quiet n) _ s).trans (postRest_quiet n (merges n s = true) _)

theorem settleFrom_quiet (k : Nat) (s : State) : Quiet s (settleFrom k s) := quiet_foldl postOne_quiet _ s

theorem settle_quiet (s : State) : Quiet s (settle s) :=
  (((settleFrom_quiet 0 s).trans (settleFrom_quiet _ _)).trans (settleFrom_quiet _ _)).trans (quiet_of rfl rfl)

/-- No other register changes when the events take effect. -/
theorem rd_settle (s : State) (a : Nat) (h : OutsideLdg a) : rd (settle s) a = rd s a := (settle_quiet s).1 a h

theorem fld_settle (s : State) (f : Fld) (h : OutsideLdg f.reg) : fld (settle s) f = fld s f := by
  simp [fld, rd_settle s f.reg h]

theorem flag_settle (s : State) (f : Fld) (h : OutsideLdg f.reg) : flag (settle s) f = flag s f := by
  simp [flag, fld_settle s f h]

/-! ### The events posted -/

theorem watches_quiet {s t : State} (h : Quiet s t) (c n : Nat) (hc : c < 5) (hn : n < 256) : watches t c n = watches s c n := by
  unfold watches
  rw [h.1]
  apply outsideLdg_of
  unfold TOP_COREn_WATCHk
  omega

theorem pendOn_pends (n : Nat) (s : State) (c : Nat) (hw : watches s c n = true) : pends (pendOn n s c) c n = true := by
  unfold pendOn
  rw [if_pos hw, pends_setPend, if_pos rfl]
  unfold nbit
  have h : n % 32 < 32 := Nat.mod_lt _ (by decide)
  have h2 : 2 ^ (n % 32) < 2 ^ 32 := Nat.pow_lt_pow_right (by decide) h
  rw [BitVec.toNat_or, Nat.testBit_or, w32, BitVec.toNat_ofNat, Nat.mod_eq_of_lt h2, Nat.testBit_two_pow_self, Bool.or_true]

theorem postOne_pends (n : Nat) (s : State) (c : Nat) (hc : c < 5) (hn : n < 256) (hw : watches s c n = true) :
    pends (postOne s n) c n = true := by
  have h1 : pends ((List.range 5).foldl (pendOn n) s) c n = true := by
    have hs : List.range 5 = [0, 1, 2, 3, 4] := rfl
    rw [hs]
    simp only [List.foldl]
    have q0 := pendOn_quiet n s 0
    have q1 := q0.trans (pendOn_quiet n _ 1)
    have q2 := q1.trans (pendOn_quiet n _ 2)
    have q3 := q2.trans (pendOn_quiet n _ 3)
    have c01 : c = 0 ∨ c = 1 ∨ c = 2 ∨ c = 3 ∨ c = 4 := by omega
    rcases c01 with rfl | rfl | rfl | rfl | rfl
    · exact (pendOn_quiet n _ 4).2 _ _ ((pendOn_quiet n _ 3).2 _ _ ((pendOn_quiet n _ 2).2 _ _ ((pendOn_quiet n _ 1).2 _ _
        (pendOn_pends n s 0 hw))))
    · exact (pendOn_quiet n _ 4).2 _ _ ((pendOn_quiet n _ 3).2 _ _ ((pendOn_quiet n _ 2).2 _ _
        (pendOn_pends n _ 1 (by rw [watches_quiet q0 1 n hc hn, hw]))))
    · exact (pendOn_quiet n _ 4).2 _ _ ((pendOn_quiet n _ 3).2 _ _ (pendOn_pends n _ 2 (by rw [watches_quiet q1 2 n hc hn, hw])))
    · exact (pendOn_quiet n _ 4).2 _ _ (pendOn_pends n _ 3 (by rw [watches_quiet q2 3 n hc hn, hw]))
    · exact pendOn_pends n _ 4 (by rw [watches_quiet q3 4 n hc hn, hw])
  exact (postRest_quiet n (merges n s = true) _).2 c n h1

theorem foldl_pends (n : Nat) (l : List Nat) (s : State) (c : Nat) (hc : c < 5) (hn : n < 256) (hw : watches s c n = true)
    (hm : n ∈ l) : pends (l.foldl postOne s) c n = true := by
  induction l generalizing s with
  | nil => cases hm
  | cons x l ih =>
    rcases List.mem_cons.mp hm with e | e
    · subst e
      exact (quiet_foldl postOne_quiet l _).2 c n (postOne_pends n s c hc hn hw)
    · exact ih (postOne s x) (by rw [watches_quiet (postOne_quiet s x) c n hc hn, hw]) e

/-- An event raised in a command is pending, once the command ends, on each core that watches it. -/
theorem settle_posted (n : Nat) (s : State) (hn : n < 256) (hm : n ∈ s.fab.raised) : Posted n s (settle s) := by
  intro c hc hw
  have h0 : pends (settleFrom 0 s) c n = true := by
    unfold settleFrom
    rw [List.drop_zero]
    exact foldl_pends n _ s c hc hn hw hm
  exact (((settleFrom_quiet _ _).trans (settleFrom_quiet _ _)).trans (quiet_of rfl rfl)).2 c n h0

/-- The same from an earlier state whose WATCH words are those of `s`. -/
theorem settle_posted_of (n : Nat) {z s : State} (hn : n < 256) (hm : n ∈ s.fab.raised)
    (hr : ∀ c, c < 5 → rd s (TOP_COREn_WATCHk c (n / 32)) = rd z (TOP_COREn_WATCHk c (n / 32))) : Posted n z (settle s) := by
  intro c hc hw
  refine settle_posted n s hn hm c hc ?_
  unfold watches at *
  rw [hr c hc, hw]

/-- When nothing is posted, nothing is left to do. -/
theorem settle_nothing (s : State) (h : s.fab.raised = []) : settle s = s := by
  unfold settle settleFrom
  cases s with
  | mk _ _ _ _ _ _ _ _ _ fab _ _ _ _ _ _ _ _ _ _ _ _ _ _ _ _ _ _ _ _ =>
    cases fab
    simp_all

end Sys2Proof.Machine
end

