-- ==== Sys2Proof/Laws/Command.lean ====
section
/-!
SUPPORT. What a command register does (accepted, answered, refused, ended), what an instruction that issues answers, and memory read
after it is written (spec/00_scope.md R6, R10, spec/08_cores.md R227, spec/15_errors_ordering.md R401, R467).
-/
namespace Sys2Proof.Machine
open Sys2Proof

/-! ### Command registers -/

theorem code_le : 24 + 8 ≤ 32 := by decide
theorem pend_le : 23 + 1 ≤ 32 := by decide

/-- The code of a command register as it is written. -/
theorem code_setCode (a v : Nat) (s : State) : fld (setFld s ⟨a, 24, 8⟩ v) ⟨a, 24, 8⟩ = v % 2 ^ 8 := fld_setFld_same s ⟨a, 24, 8⟩ v code_le

theorem code_setPend (a v : Nat) (s : State) : fld (setFld s ⟨a, 23, 1⟩ v) ⟨a, 24, 8⟩ = fld s ⟨a, 24, 8⟩ :=
  fld_setFld_beside s ⟨a, 24, 8⟩ ⟨a, 23, 1⟩ v rfl code_le pend_le (Or.inr (Nat.le_refl 24))

theorem pend_setPend (a v : Nat) (s : State) : fld (setFld s ⟨a, 23, 1⟩ v) ⟨a, 23, 1⟩ = v % 2 ^ 1 := fld_setFld_same s ⟨a, 23, 1⟩ v pend_le

theorem pend_setCode (a v : Nat) (s : State) : fld (setFld s ⟨a, 24, 8⟩ v) ⟨a, 23, 1⟩ = fld s ⟨a, 23, 1⟩ :=
  fld_setFld_beside s ⟨a, 23, 1⟩ ⟨a, 24, 8⟩ v rfl pend_le code_le (Or.inl (Nat.le_refl 24))

/-- A register reads as without the end of the command. -/
theorem rd_accepted (s : State) (x : Tab Acc) (a : Nat) : rd { s with accepted := x } a = rd s a := rfl

theorem fld_accepted (s : State) (x : Tab Acc) (f : Fld) : fld { s with accepted := x } f = fld s f := rfl

theorem complete_fld (a code : Nat) (s : State) (f : Fld) :
    fld (complete a code s) f = fld (setFld (setFld s ⟨a, 24, 8⟩ code) ⟨a, 23, 1⟩ 0) f := by
  unfold complete
  exact fld_accepted _ _ f

theorem accept_fld (a : Nat) (w : Word) (s : State) (f : Fld) : fld (accept a w s) f = fld (setFld s ⟨a, 23, 1⟩ 1) f := by
  unfold accept
  exact fld_accepted _ _ f

@[simp] theorem complete_status (a code : Nat) (s : State) : fld (complete a code s) ⟨a, 24, 8⟩ = code % 2 ^ 8 := by
  rw [complete_fld, code_setPend, code_setCode]

@[simp] theorem complete_isPending (a code : Nat) (s : State) : isPending (complete a code s) a = false := by
  unfold isPending
  rw [complete_fld, pend_setPend]
  rfl

theorem complete_rd (a code : Nat) (s : State) {b : Nat} (h : b ≠ a) : rd (complete a code s) b = rd s b := by
  unfold complete
  dsimp only
  rw [rd_accepted, rd_setFld_other _ ⟨a, 23, 1⟩ 0 b h, rd_setFld_other _ ⟨a, 24, 8⟩ code b h]

/-- A command that ends has ended. -/
theorem ended_complete (a code : Nat) (s : State) (hc : code < 256) (ha : OutsideLdg a) : Ended a code (settle (complete a code s)) := by
  unfold Ended isPending
  rw [fld_settle _ ⟨a, 24, 8⟩ ha, fld_settle _ ⟨a, 23, 1⟩ ha, complete_status]
  exact ⟨Nat.mod_eq_of_lt hc, complete_isPending a code s⟩

@[simp] theorem accept_isPending (a : Nat) (w : Word) (s : State) : isPending (accept a w s) a = true := by
  unfold isPending
  rw [accept_fld, pend_setPend]
  rfl

theorem accept_rd (a : Nat) (w : Word) (s : State) {b : Nat} (h : b ≠ a) : rd (accept a w s) b = rd s b := by
  unfold accept
  dsimp only
  rw [rd_accepted, rd_setFld_other _ ⟨a, 23, 1⟩ 1 b h]

/-- Where nothing else is posted, a command that is accepted is accepted and nothing more. -/
theorem accepted_accept (a : Nat) (w : Word) (s : State) (hs : Settled s) : Accepted a w s (settle (accept a w s)) := by
  have h1 : (accept a w s).fab.raised = [] := hs
  have h2 : (accept a w s).accepted = tins (tdrop s.accepted a) a ⟨s.bnd, tick s, clk s, w⟩ := rfl
  rw [settle_nothing (accept a w s) h1]
  exact ⟨accept_isPending a w s, h2, fun b h => accept_rd a w s h⟩

theorem reject_isPending (a code : Nat) (s : State) : isPending (reject a code s) a = isPending s a := by
  unfold isPending reject
  rw [pend_setCode]

/-- A command that is answered at once is answered and nothing more. -/
theorem answered_reject (a code : Nat) (s : State) (hs : Settled s) (hc : code < 256) : Answered a code s (settle (reject a code s)) := by
  have h1 : (reject a code s).fab.raised = [] := hs
  have h2 : fld (reject a code s) ⟨a, 24, 8⟩ = code := by
    unfold reject
    rw [code_setCode]
    exact Nat.mod_eq_of_lt hc
  rw [settle_nothing (reject a code s) h1]
  exact ⟨h2, rfl, reject_isPending a code s, fun b h => rd_setFld_other s ⟨a, 24, 8⟩ code b h⟩

/-- The events that a step posts are pending where they are watched, as seen from a state with the same WATCH words. -/
theorem watch_outside {c n : Nat} (hc : c < 5) (hn : n < 256) (a : Nat) (ha : a < 0xA0000000 ∨ 0xA0010000 ≤ a) :
    TOP_COREn_WATCHk c (n / 32) ≠ a := by
  unfold TOP_COREn_WATCHk
  omega

/-- A command that is refused is counted, named and posted, and nothing more. -/
theorem refused_refuse (a : Nat) (s : State) (ha : OutsideLdg a) (h1 : a ≠ HLT_REFUSED) (h2 : a ≠ HLT_REFUSED_LAST)
    (h3 : 0xA0000000 ≤ a) (h4 : a < 0xA1000000) (hw : ∀ c < 5, TOP_COREn_WATCHk c 7 ≠ a) : Refused a s (settle (refuse a s)) := by
  have hr : ∀ b, b ≠ a → b ≠ HLT_REFUSED → b ≠ HLT_REFUSED_LAST → OutsideLdg b → rd (refuse a s) b = rd s b := by
    intro b e1 e2 e3 e4
    unfold refuse
    dsimp only
    rw [(raise_quiet _ _).1 b e4, (count_quiet _ _ _).1 b e4, rd_setFld_other _ HLT_REFUSED_LAST.OFFSET _ b e3, addSat,
      rd_setFld_other _ HLT_REFUSED.COUNT _ b e2, rd_setFld_other _ ⟨a, 24, 8⟩ 1 b e1]
  refine ⟨?_, ?_, ?_, ?_, ?_, ?_⟩
  · rw [fld_settle _ ⟨a, 24, 8⟩ ha]
    unfold refuse
    dsimp only
    rw [fld, (raise_quiet _ _).1 a ha, (count_quiet _ _ _).1 a ha, rd_setFld_other _ HLT_REFUSED_LAST.OFFSET _ a h2, addSat,
      rd_setFld_other _ HLT_REFUSED.COUNT _ a h1]
    exact code_setCode a 1 s
  · have e := (settle_frame (refuse a s)).2.2.1
    rw [e]
    exact (refuse_ok (kp := fun c => !decide (c = .accepted)) Ok.start).2 .accepted rfl
  · have hl : OutsideLdg HLT_REFUSED.COUNT.reg := outsideLdg_of (by decide)
    rw [fld_settle _ _ hl]
    unfold refuse
    dsimp only
    rw [fld, (raise_quiet _ _).1 _ hl, (count_quiet _ _ _).1 _ hl, rd_setFld_other _ HLT_REFUSED_LAST.OFFSET _ _ (by decide)]
    have e := fld_setFld_same (setFld s ⟨a, 24, 8⟩ 1) HLT_REFUSED.COUNT
      (satNat 32 (fld (setFld s ⟨a, 24, 8⟩ 1) HLT_REFUSED.COUNT + 1)) (by decide)
    have e2 : fld (setFld s ⟨a, 24, 8⟩ 1) HLT_REFUSED.COUNT = fld s HLT_REFUSED.COUNT := fld_setFld_reg s _ ⟨a, 24, 8⟩ 1 (Ne.symm h1)
    have e3 : satNat 32 (fld s HLT_REFUSED.COUNT + 1) % 2 ^ 32 = satNat 32 (fld s HLT_REFUSED.COUNT + 1) := by
      apply Nat.mod_eq_of_lt
      unfold satNat
      split <;> omega
    rw [e2, e3] at e
    unfold addSat
    rw [e2]
    exact e
  · have hl : OutsideLdg HLT_REFUSED_LAST.OFFSET.reg := outsideLdg_of (by decide)
    rw [fld_settle _ _ hl]
    unfold refuse
    dsimp only
    rw [fld, (raise_quiet _ _).1 _ hl, (count_quiet _ _ _).1 _ hl]
    have e := fld_setFld_same (addSat (setFld s ⟨a, 24, 8⟩ 1) HLT_REFUSED.COUNT 1) HLT_REFUSED_LAST.OFFSET (a - 0xA0000000) (by decide)
    rw [Nat.mod_eq_of_lt (show a - 0xA0000000 < 2 ^ 24 by omega)] at e
    exact e
  · refine settle_posted_of 238 (by decide) ?_ ?_
    · unfold refuse
      exact mem_raise 238 _
    · intro c hc
      have e := watch_outside hc (n := 238) (by decide)
      exact hr _ (hw c hc) (e _ (by decide)) (e _ (by decide)) (outsideLdg_of (by unfold TOP_COREn_WATCHk; omega))
  · intro b e1 e2 e3 e4
    have hl := outsideLdg_of e4
    rw [rd_settle _ _ hl, hr b e1 e2 e3 hl]

/-! ### Memory -/

theorem mget_mput (s : State) (a b : Nat) (v : Byte) : mget (mput s a v) b = if b = a then v else mget s b :=
  tget_tput (blankByte s.lost) s.mem a b v

theorem mget_mputs_outside (s : State) (a b : Nat) (bs : List Byte) (h : b < a ∨ a + bs.length ≤ b) : mget (mputs s a bs) b = mget s b := by
  induction bs generalizing s a with
  | nil => rfl
  | cons v t ih =>
    have h1 : b < a + 1 ∨ a + 1 + t.length ≤ b := by simp only [List.length_cons] at h; omega
    show mget (mputs (mput s a v) (a + 1) t) b = _
    rw [ih _ _ h1, mget_mput, if_neg (by simp only [List.length_cons] at h; omega)]

theorem mget_mputs_inside (s : State) (a i : Nat) (bs : List Byte) (h : i < bs.length) : mget (mputs s a bs) (a + i) = bs.getD i 0 := by
  induction bs generalizing s a i with
  | nil => exact absurd h (Nat.not_lt_zero _)
  | cons v t ih =>
    show mget (mputs (mput s a v) (a + 1) t) (a + i) = _
    cases i with
    | zero => rw [mget_mputs_outside _ _ _ _ (Or.inl (by omega)), mget_mput, if_pos (Nat.add_zero a)]; rfl
    | succ i =>
      have h1 : i < t.length := by simp only [List.length_cons] at h; omega
      have e : a + (i + 1) = a + 1 + i := by omega
      rw [e, ih _ _ _ h1]
      rfl

/-! ### Instructions of the cores -/

/-- An instruction that a core issues runs its meaning. -/
theorem issue_runs {n : Nat} {s : State} (h : Issues n s) (k : State → Host.Outcome State Fault Refusal) : issue n k s = k s := by
  unfold issue
  rw [if_pos h.1, h.2.1, h.2.2]

/-- An instruction with a plain effect that a core issues answers that effect at the next instruction. -/
theorem plainOp_runs {n : Nat} {s : State} (h : Issues n s) (f : State → State) : plainOp n f s = done (advance n (f s)) :=
  issue_runs h _

/-- An effect that posts no event is the whole of the step. -/
theorem done_settled_next {s : State} (h : Settled s) : done s = .next s := by
  unfold done
  rw [settle_nothing s h]

end Sys2Proof.Machine
end

