-- ==== Sys2Proof/Laws/Settled.lean ====
section
/-!
SUPPORT. Every command that answers a next state has completed the events it posted: nothing is left to be posted (R22, R234).
-/
namespace Sys2Proof.Machine
open Sys2Proof

set_option Elab.async false
set_option linter.unreachableTactic false
set_option linter.unusedTactic false

/-- Of an outcome: the events posted have taken effect. -/
def SettledO (o : Host.Outcome State Fault Refusal) : Prop := ∀ t, o = .next t → t.fab.raised = []

theorem done_settled {s : State} : SettledO (done s) := by
  intro t h
  cases h
  rfl

theorem settledO_fault {f : Fault} : SettledO (.fault f) := by
  intro t h
  cases h

theorem settledO_refused {r : Refusal} : SettledO (.refused r) := by
  intro t h
  cases h

theorem whileAwake_settled {f : State → Host.Outcome State Fault Refusal} {s : State} (hf : ∀ u0, SettledO (f u0)) : SettledO (whileAwake f s) := by
  unfold whileAwake
  repeat' first
    | with_reducible exact done_settled | with_reducible exact settledO_fault | with_reducible exact settledO_refused
    | with_reducible apply hf | split | (with_reducible intro u)

theorem execPacerEnable_settled {s : State} : SettledO (execPacerEnable s) := by
  unfold execPacerEnable
  try dsimp only
  repeat' first
    | with_reducible exact done_settled | with_reducible exact settledO_fault | with_reducible exact settledO_refused
    | split | (with_reducible intro u)

theorem execPacerSourceMeasurement_settled {sec : Bool} {offset : Int} {s : State} : SettledO (execPacerSourceMeasurement sec offset s) := by
  unfold execPacerSourceMeasurement
  try dsimp only
  repeat' first
    | with_reducible exact done_settled | with_reducible exact settledO_fault | with_reducible exact settledO_refused
    | with_reducible apply whileAwake_settled | split | (with_reducible intro u)

theorem execPacerSrcLost_settled {sec : Bool} {s : State} : SettledO (execPacerSrcLost sec s) := by
  unfold execPacerSrcLost
  try dsimp only
  repeat' first
    | with_reducible exact done_settled | with_reducible exact settledO_fault | with_reducible exact settledO_refused
    | split | (with_reducible intro u)

theorem execPacerSrcSwitch_settled {s : State} : SettledO (execPacerSrcSwitch s) := by
  unfold execPacerSrcSwitch
  repeat' first
    | with_reducible exact done_settled | with_reducible exact settledO_fault | with_reducible exact settledO_refused
    | split | (with_reducible intro u)

theorem execSlewDone_settled {s : State} : SettledO (execSlewDone s) := by
  unfold execSlewDone
  repeat' first
    | with_reducible exact done_settled | with_reducible exact settledO_fault | with_reducible exact settledO_refused
    | split | (with_reducible intro u)

theorem execSetTime_settled {s : State} : SettledO (execSetTime s) := by
  unfold execSetTime
  repeat' first
    | with_reducible exact done_settled | with_reducible exact settledO_fault | with_reducible exact settledO_refused
    | split | (with_reducible intro u)

theorem execPacerAcquire_settled {s : State} : SettledO (execPacerAcquire s) := by
  unfold execPacerAcquire
  repeat' first
    | with_reducible exact done_settled | with_reducible exact settledO_fault | with_reducible exact settledO_refused
    | split | (with_reducible intro u)

theorem execPacerSwitch_settled {s : State} : SettledO (execPacerSwitch s) := by
  unfold execPacerSwitch
  repeat' first
    | with_reducible exact done_settled | with_reducible exact settledO_fault | with_reducible exact settledO_refused
    | split | (with_reducible intro u)

theorem execTallyEnable_settled {n : Fin 4} {en : Bool} {s : State} : SettledO (execTallyEnable n en s) := by
  unfold execTallyEnable
  repeat' first
    | with_reducible exact done_settled | with_reducible exact settledO_fault | with_reducible exact settledO_refused
    | split | (with_reducible intro u)

theorem execEncoderEdge_settled {k : Fin 4} {ofs : Nat} {a : Bool} {b : Bool} {s : State} : SettledO (execEncoderEdge k ofs a b s) := by
  unfold execEncoderEdge
  try dsimp only
  repeat' first
    | with_reducible exact done_settled | with_reducible exact settledO_fault | with_reducible exact settledO_refused
    | with_reducible apply whileAwake_settled | split | (with_reducible intro u)

theorem execTallyZ_settled {p : EncPins} {ofs : Nat} {s : State} : SettledO (execTallyZ p ofs s) := by
  unfold execTallyZ
  try dsimp only
  repeat' first
    | with_reducible exact done_settled | with_reducible exact settledO_fault | with_reducible exact settledO_refused
    | with_reducible apply whileAwake_settled | split | (with_reducible intro u)

theorem execTallyPresetApply_settled {n : Fin 4} {s : State} : SettledO (execTallyPresetApply n s) := by
  unfold execTallyPresetApply
  try dsimp only
  repeat' first
    | with_reducible exact done_settled | with_reducible exact settledO_fault | with_reducible exact settledO_refused
    | split | (with_reducible intro u)

theorem execPreset_settled {n : Fin 4} {s : State} : SettledO (execPreset n s) := by
  unfold execPreset
  repeat' first
    | with_reducible exact done_settled | with_reducible exact settledO_fault | with_reducible exact settledO_refused
    | split | (with_reducible intro u)

theorem execTallyFrameReceive_settled {stream : Fin 16} {addr : Fin 1024} {pos : Int} {vel : Int} {time : Nat} {s : State} : SettledO (execTallyFrameReceive stream addr pos vel time s) := by
  unfold execTallyFrameReceive
  try dsimp only
  repeat' first
    | with_reducible exact done_settled | with_reducible exact settledO_fault | with_reducible exact settledO_refused
    | with_reducible apply whileAwake_settled | split | (with_reducible intro u)

theorem execTallyCoasting_settled {n : Fin 4} {s : State} : SettledO (execTallyCoasting n s) := by
  unfold execTallyCoasting
  repeat' first
    | with_reducible exact done_settled | with_reducible exact settledO_fault | with_reducible exact settledO_refused
    | split | (with_reducible intro u)

theorem execTallyLost_settled {n : Fin 4} {s : State} : SettledO (execTallyLost n s) := by
  unfold execTallyLost
  try dsimp only
  repeat' first
    | with_reducible exact done_settled | with_reducible exact settledO_fault | with_reducible exact settledO_refused
    | split | (with_reducible intro u)

theorem execMainsEnable_settled {en : Bool} {s : State} : SettledO (execMainsEnable en s) := by
  unfold execMainsEnable
  try dsimp only
  repeat' first
    | with_reducible exact done_settled | with_reducible exact settledO_fault | with_reducible exact settledO_refused
    | split | (with_reducible intro u)

theorem execMainsCrossing_settled {ofs : Nat} {s : State} : SettledO (execMainsCrossing ofs s) := by
  unfold execMainsCrossing
  try dsimp only
  repeat' first
    | with_reducible exact done_settled | with_reducible exact settledO_fault | with_reducible exact settledO_refused
    | split | (with_reducible intro u)

theorem execMainsLost_settled {s : State} : SettledO (execMainsLost s) := by
  unfold execMainsLost
  repeat' first
    | with_reducible exact done_settled | with_reducible exact settledO_fault | with_reducible exact settledO_refused
    | split | (with_reducible intro u)

theorem execExcApply_settled {mask : BitVec 16} {s : State} : SettledO (execExcApply mask s) := by
  unfold execExcApply
  repeat' first
    | with_reducible exact done_settled | with_reducible exact settledO_fault | with_reducible exact settledO_refused
    | split | (with_reducible intro u)

theorem execExcRampEnd_settled {b : Fin 16} {s : State} : SettledO (execExcRampEnd b s) := by
  unfold execExcRampEnd
  try dsimp only
  repeat' first
    | with_reducible exact done_settled | with_reducible exact settledO_fault | with_reducible exact settledO_refused
    | split | (with_reducible intro u)

theorem execExcSettleEnd_settled {b : Fin 16} {s : State} : SettledO (execExcSettleEnd b s) := by
  unfold execExcSettleEnd
  try dsimp only
  repeat' first
    | with_reducible exact done_settled | with_reducible exact settledO_fault | with_reducible exact settledO_refused
    | split | (with_reducible intro u)

theorem execExcReversal_settled {b : Fin 16} {s : State} : SettledO (execExcReversal b s) := by
  unfold execExcReversal
  try dsimp only
  repeat' first
    | with_reducible exact done_settled | with_reducible exact settledO_fault | with_reducible exact settledO_refused
    | split | (with_reducible intro u)

theorem execExcBlankEnd_settled {b : Fin 16} {s : State} : SettledO (execExcBlankEnd b s) := by
  unfold execExcBlankEnd
  repeat' first
    | with_reducible exact done_settled | with_reducible exact settledO_fault | with_reducible exact settledO_refused
    | split | (with_reducible intro u)

theorem execAfeExcLimit_settled {b : Fin 16} {s : State} : SettledO (execAfeExcLimit b s) := by
  unfold execAfeExcLimit
  repeat' first
    | with_reducible exact done_settled | with_reducible exact settledO_fault | with_reducible exact settledO_refused
    | split | (with_reducible intro u)

theorem execAfeExcTrip_settled {b : Fin 16} {s : State} : SettledO (execAfeExcTrip b s) := by
  unfold execAfeExcTrip
  try dsimp only
  repeat' first
    | with_reducible exact done_settled | with_reducible exact settledO_fault | with_reducible exact settledO_refused
    | split | (with_reducible intro u)

theorem execResetTrip_settled {b : Fin 16} {s : State} : SettledO (execResetTrip b s) := by
  unfold execResetTrip
  repeat' first
    | with_reducible exact done_settled | with_reducible exact settledO_fault | with_reducible exact settledO_refused
    | split | (with_reducible intro u)

theorem execAfeSnsFault_settled {b : Fin 16} {s : State} : SettledO (execAfeSnsFault b s) := by
  unfold execAfeSnsFault
  try dsimp only
  repeat' first
    | with_reducible exact done_settled | with_reducible exact settledO_fault | with_reducible exact settledO_refused
    | split | (with_reducible intro u)

theorem execSnsFaultClear_settled {b : Fin 16} {s : State} : SettledO (execSnsFaultClear b s) := by
  unfold execSnsFaultClear
  try dsimp only
  repeat' first
    | with_reducible exact done_settled | with_reducible exact settledO_fault | with_reducible exact settledO_refused
    | split | (with_reducible intro u)

theorem execTtempUpdate_settled {b : Fin 16} {temp : Int} {bad : Bool} {s : State} : SettledO (execTtempUpdate b temp bad s) := by
  unfold execTtempUpdate
  try dsimp only
  repeat' first
    | with_reducible exact done_settled | with_reducible exact settledO_fault | with_reducible exact settledO_refused
    | split | (with_reducible intro u)

theorem execOpenSet_settled {c : Fin 256} {s : State} : SettledO (execOpenSet c s) := by
  unfold execOpenSet
  repeat' first
    | with_reducible exact done_settled | with_reducible exact settledO_fault | with_reducible exact settledO_refused
    | split | (with_reducible intro u)

theorem execOpenClear_settled {c : Fin 256} {s : State} : SettledO (execOpenClear c s) := by
  unfold execOpenClear
  repeat' first
    | with_reducible exact done_settled | with_reducible exact settledO_fault | with_reducible exact settledO_refused
    | split | (with_reducible intro u)

theorem execCmwinWrite_settled {b : Fin 16} {hys : Bool} {value : Word} {s : State} : SettledO (execCmwinWrite b hys value s) := by
  unfold execCmwinWrite
  try dsimp only
  repeat' first
    | with_reducible exact done_settled | with_reducible exact settledO_fault | with_reducible exact settledO_refused
    | split | (with_reducible intro u)

theorem execPlugDetEdge_settled {b : Fin 16} {high : Bool} {s : State} : SettledO (execPlugDetEdge b high s) := by
  unfold execPlugDetEdge
  try dsimp only
  repeat' first
    | with_reducible exact done_settled | with_reducible exact settledO_fault | with_reducible exact settledO_refused
    | split | (with_reducible intro u)

theorem execAfePlugOut_settled {b : Fin 16} {s : State} : SettledO (execAfePlugOut b s) := by
  unfold execAfePlugOut
  try dsimp only
  repeat' first
    | with_reducible exact done_settled | with_reducible exact settledO_fault | with_reducible exact settledO_refused
    | split | (with_reducible intro u)

theorem execAfePlugIn_settled {b : Fin 16} {s : State} : SettledO (execAfePlugIn b s) := by
  unfold execAfePlugIn
  repeat' first
    | with_reducible exact done_settled | with_reducible exact settledO_fault | with_reducible exact settledO_refused
    | split | (with_reducible intro u)

theorem execPlugEnClear_settled {b : Fin 16} {s : State} : SettledO (execPlugEnClear b s) := by
  unfold execPlugEnClear
  try dsimp only
  repeat' first
    | with_reducible exact done_settled | with_reducible exact settledO_fault | with_reducible exact settledO_refused
    | split | (with_reducible intro u)

theorem execBufEnWrite_settled {en : Bool} {s : State} : SettledO (execBufEnWrite en s) := by
  unfold execBufEnWrite
  repeat' first
    | with_reducible exact done_settled | with_reducible exact settledO_fault | with_reducible exact settledO_refused
    | split | (with_reducible intro u)

theorem execCnvRefReady_settled {s : State} : SettledO (execCnvRefReady s) := by
  unfold execCnvRefReady
  repeat' first
    | with_reducible exact done_settled | with_reducible exact settledO_fault | with_reducible exact settledO_refused
    | split | (with_reducible intro u)

theorem execCnvRefFault_settled {s : State} : SettledO (execCnvRefFault s) := by
  unfold execCnvRefFault
  try dsimp only
  repeat' first
    | with_reducible exact done_settled | with_reducible exact settledO_fault | with_reducible exact settledO_refused
    | split | (with_reducible intro u)

theorem execCalEnWrite_settled {en : Bool} {s : State} : SettledO (execCalEnWrite en s) := by
  unfold execCalEnWrite
  try dsimp only
  repeat' first
    | with_reducible exact done_settled | with_reducible exact settledO_fault | with_reducible exact settledO_refused
    | split | (with_reducible intro u)

theorem execCalEpochEnd_settled {s : State} : SettledO (execCalEpochEnd s) := by
  unfold execCalEpochEnd
  try dsimp only
  repeat' first
    | with_reducible exact done_settled | with_reducible exact settledO_fault | with_reducible exact settledO_refused
    | split | (with_reducible intro u)

theorem execCnvHandover_settled {b : Fin 16} {s : State} : SettledO (execCnvHandover b s) := by
  unfold execCnvHandover
  try dsimp only
  repeat' first
    | with_reducible exact done_settled | with_reducible exact settledO_fault | with_reducible exact settledO_refused
    | split | (with_reducible intro u)

theorem execTrackingBlockEnd_settled {k : Nat} {s : State} : SettledO (execTrackingBlockEnd k s) := by
  unfold execTrackingBlockEnd
  try dsimp only
  repeat' first
    | with_reducible exact done_settled | with_reducible exact settledO_fault | with_reducible exact settledO_refused
    | split | (with_reducible intro u)

theorem execPause_settled {s : State} : SettledO (execPause s) := by
  unfold execPause
  repeat' first
    | with_reducible exact done_settled | with_reducible exact settledO_fault | with_reducible exact settledO_refused
    | split | (with_reducible intro u)

theorem execCalResume_settled {s : State} : SettledO (execCalResume s) := by
  unfold execCalResume
  repeat' first
    | with_reducible exact done_settled | with_reducible exact settledO_fault | with_reducible exact settledO_refused
    | split | (with_reducible intro u)

theorem execReadmit_settled {slice : Fin 32} {s : State} : SettledO (execReadmit slice s) := by
  unfold execReadmit
  repeat' first
    | with_reducible exact done_settled | with_reducible exact settledO_fault | with_reducible exact settledO_refused
    | split | (with_reducible intro u)

theorem execSkewCmd_settled {banks : BitVec 16} {s : State} : SettledO (execSkewCmd banks s) := by
  unfold execSkewCmd
  repeat' first
    | with_reducible exact done_settled | with_reducible exact settledO_fault | with_reducible exact settledO_refused
    | split | (with_reducible intro u)

theorem execCnvSkewDone_settled {s : State} : SettledO (execCnvSkewDone s) := by
  unfold execCnvSkewDone
  try dsimp only
  repeat' first
    | with_reducible exact done_settled | with_reducible exact settledO_fault | with_reducible exact settledO_refused
    | split | (with_reducible intro u)

theorem execCatalogueCommit_settled {curves : Bool} {s : State} : SettledO (execCatalogueCommit curves s) := by
  unfold execCatalogueCommit
  repeat' first
    | with_reducible exact done_settled | with_reducible exact settledO_fault | with_reducible exact settledO_refused
    | split | (with_reducible intro u)

theorem execSetSeq_settled {chan : Fin 256} {s : State} : SettledO (execSetSeq chan s) := by
  unfold execSetSeq
  repeat' first
    | with_reducible exact done_settled | with_reducible exact settledO_fault | with_reducible exact settledO_refused
    | split | (with_reducible intro u)

theorem execRedBp_settled {ofs : Nat} {s0 : State} : SettledO (execRedBp ofs s0) := by
  unfold execRedBp
  try dsimp only
  repeat' first
    | with_reducible exact done_settled | with_reducible exact settledO_fault | with_reducible exact settledO_refused
    | split | (with_reducible intro u)

theorem execBpStageExit_settled {ofs : Nat} {s : State} : SettledO (execBpStageExit ofs s) := by
  unfold execBpStageExit
  try dsimp only
  repeat' first
    | with_reducible exact done_settled | with_reducible exact settledO_fault | with_reducible exact settledO_refused
    | split | (with_reducible intro u)

theorem execTrigOutPulseEnd_settled {j : Fin 4} {ofs : Nat} {s : State} : SettledO (execTrigOutPulseEnd j ofs s) := by
  unfold execTrigOutPulseEnd
  try dsimp only
  repeat' first
    | with_reducible exact done_settled | with_reducible exact settledO_fault | with_reducible exact settledO_refused
    | split | (with_reducible intro u)

theorem execTrigBusPulseEnd_settled {r : Fin 64} {ofs : Nat} {s : State} : SettledO (execTrigBusPulseEnd r ofs s) := by
  unfold execTrigBusPulseEnd
  try dsimp only
  repeat' first
    | with_reducible exact done_settled | with_reducible exact settledO_fault | with_reducible exact settledO_refused
    | split | (with_reducible intro u)

theorem execArm_settled {r : Fin 64} {s : State} : SettledO (execArm r s) := by
  unfold execArm
  try dsimp only
  repeat' first
    | with_reducible exact done_settled | with_reducible exact settledO_fault | with_reducible exact settledO_refused
    | split | (with_reducible intro u)

theorem execDisarm_settled {r : Fin 64} {s : State} : SettledO (execDisarm r s) := by
  unfold execDisarm
  repeat' first
    | with_reducible exact done_settled | with_reducible exact settledO_fault | with_reducible exact settledO_refused
    | split | (with_reducible intro u)

theorem execRingTriggerCmd_settled {r : Fin 64} {s : State} : SettledO (execRingTriggerCmd r s) := by
  unfold execRingTriggerCmd
  repeat' first
    | with_reducible exact done_settled | with_reducible exact settledO_fault | with_reducible exact settledO_refused
    | split | (with_reducible intro u)

theorem execTrigInEdge_settled {p : Fin 8} {ofs : Nat} {delay : Nat} {high : Bool} {s : State} : SettledO (execTrigInEdge p ofs delay high s) := by
  unfold execTrigInEdge
  try dsimp only
  repeat' first
    | with_reducible exact done_settled | with_reducible exact settledO_fault | with_reducible exact settledO_refused
    | with_reducible apply whileAwake_settled | split | (with_reducible intro u)

theorem execTrigBusEdge_settled {ofs : Nat} {delay : Nat} {s : State} : SettledO (execTrigBusEdge ofs delay s) := by
  unfold execTrigBusEdge
  try dsimp only
  repeat' first
    | with_reducible exact done_settled | with_reducible exact settledO_fault | with_reducible exact settledO_refused
    | with_reducible apply whileAwake_settled | split | (with_reducible intro u)

theorem execPostFillComplete_settled {r : Fin 64} {s : State} : SettledO (execPostFillComplete r s) := by
  unfold execPostFillComplete
  repeat' first
    | with_reducible exact done_settled | with_reducible exact settledO_fault | with_reducible exact settledO_refused
    | split | (with_reducible intro u)

theorem execRearmEnd_settled {r : Fin 64} {s : State} : SettledO (execRearmEnd r s) := by
  unfold execRearmEnd
  repeat' first
    | with_reducible exact done_settled | with_reducible exact settledO_fault | with_reducible exact settledO_refused
    | split | (with_reducible intro u)

theorem execRingTriggerArrival_settled {r : Fin 64} {s : State} : SettledO (execRingTriggerArrival r s) := by
  unfold execRingTriggerArrival
  repeat' first
    | with_reducible exact done_settled | with_reducible exact settledO_fault | with_reducible exact settledO_refused
    | split | (with_reducible intro u)

theorem execAcqForced_settled {r : Fin 64} {s : State} : SettledO (execAcqForced r s) := by
  unfold execAcqForced
  try dsimp only
  repeat' first
    | with_reducible exact done_settled | with_reducible exact settledO_fault | with_reducible exact settledO_refused
    | split | (with_reducible intro u)

theorem execAcqFolio_settled {r : Fin 64} {s : State} : SettledO (execAcqFolio r s) := by
  unfold execAcqFolio
  try dsimp only
  repeat' first
    | with_reducible exact done_settled | with_reducible exact settledO_fault | with_reducible exact settledO_refused
    | split | (with_reducible intro u)

theorem execFolioSlotRelease_settled {r : Fin 64} {bits : Word} {s : State} : SettledO (execFolioSlotRelease r bits s) := by
  unfold execFolioSlotRelease
  repeat' first
    | with_reducible exact done_settled | with_reducible exact settledO_fault | with_reducible exact settledO_refused
    | split | (with_reducible intro u)

theorem execLoopCommitCmd_settled {s : State} : SettledO (execLoopCommitCmd s) := by
  unfold execLoopCommitCmd
  repeat' first
    | with_reducible exact done_settled | with_reducible exact settledO_fault | with_reducible exact settledO_refused
    | split | (with_reducible intro u)

theorem execLoopResume_settled {n : Fin 32} {s : State} : SettledO (execLoopResume n s) := by
  unfold execLoopResume
  repeat' first
    | with_reducible exact done_settled | with_reducible exact settledO_fault | with_reducible exact settledO_refused
    | split | (with_reducible intro u)

theorem execTestStart_settled {s : State} : SettledO (execTestStart s) := by
  unfold execTestStart
  repeat' first
    | with_reducible exact done_settled | with_reducible exact settledO_fault | with_reducible exact settledO_refused
    | split | (with_reducible intro u)

theorem execTestStop_settled {s : State} : SettledO (execTestStop s) := by
  unfold execTestStop
  repeat' first
    | with_reducible exact done_settled | with_reducible exact settledO_fault | with_reducible exact settledO_refused
    | split | (with_reducible intro u)

theorem execCtlTestEnd_settled {s : State} : SettledO (execCtlTestEnd s) := by
  unfold execCtlTestEnd
  try dsimp only
  repeat' first
    | with_reducible exact done_settled | with_reducible exact settledO_fault | with_reducible exact settledO_refused
    | split | (with_reducible intro u)

theorem execSetpointWrite_settled {n : Fin 32} {value : Word} {s : State} : SettledO (execSetpointWrite n value s) := by
  unfold execSetpointWrite
  repeat' first
    | with_reducible exact done_settled | with_reducible exact settledO_fault | with_reducible exact settledO_refused
    | split | (with_reducible intro u)

theorem execOutputRegisterWrite_settled {addr : Nat} {value : Word} {s : State} : SettledO (execOutputRegisterWrite addr value s) := by
  unfold execOutputRegisterWrite
  repeat' first
    | with_reducible exact done_settled | with_reducible exact settledO_fault | with_reducible exact settledO_refused
    | split | (with_reducible intro u)

theorem execPwmPeriodStart_settled {j : Fin 16} {s : State} : SettledO (execPwmPeriodStart j s) := by
  unfold execPwmPeriodStart
  try dsimp only
  repeat' first
    | with_reducible exact done_settled | with_reducible exact settledO_fault | with_reducible exact settledO_refused
    | split | (with_reducible intro u)

theorem execLoopTick_settled {u : Fin 32} {s : State} : SettledO (execLoopTick u s) := by
  unfold execLoopTick
  try dsimp only
  repeat' first
    | with_reducible exact done_settled | with_reducible exact settledO_fault | with_reducible exact settledO_refused
    | split | (with_reducible intro u)

theorem execLoopEvaluation_settled {s : State} : SettledO (execLoopEvaluation s) := by
  unfold execLoopEvaluation
  try dsimp only
  repeat' first
    | with_reducible exact done_settled | with_reducible exact settledO_fault | with_reducible exact settledO_refused
    | split | (with_reducible intro u)

theorem execLoopOutputCommit_settled {u : Fin 32} {s : State} : SettledO (execLoopOutputCommit u s) := by
  unfold execLoopOutputCommit
  try dsimp only
  repeat' first
    | with_reducible exact done_settled | with_reducible exact settledO_fault | with_reducible exact settledO_refused
    | split | (with_reducible intro u)

theorem execSlTake_settled {n : Fin 2048} {ofs : Nat} {s : State} : SettledO (execSlTake n ofs s) := by
  unfold execSlTake
  try dsimp only
  repeat' first
    | with_reducible exact done_settled | with_reducible exact settledO_fault | with_reducible exact settledO_refused
    | split | (with_reducible intro u)

theorem execSlEntryEnable_settled {n : Fin 2048} {s : State} : SettledO (execSlEntryEnable n s) := by
  unfold execSlEntryEnable
  repeat' first
    | with_reducible exact done_settled | with_reducible exact settledO_fault | with_reducible exact settledO_refused
    | split | (with_reducible intro u)

theorem execSlEntryDisable_settled {n : Fin 2048} {s : State} : SettledO (execSlEntryDisable n s) := by
  unfold execSlEntryDisable
  repeat' first
    | with_reducible exact done_settled | with_reducible exact settledO_fault | with_reducible exact settledO_refused
    | split | (with_reducible intro u)

theorem execSlEntryRewrite_settled {n : Fin 2048} {k : Fin 7} {value : Word} {s : State} : SettledO (execSlEntryRewrite n k value s) := by
  unfold execSlEntryRewrite
  repeat' first
    | with_reducible exact done_settled | with_reducible exact settledO_fault | with_reducible exact settledO_refused
    | split | (with_reducible intro u)

theorem execStartListEnable_settled {en : Bool} {s : State} : SettledO (execStartListEnable en s) := by
  unfold execStartListEnable
  repeat' first
    | with_reducible exact done_settled | with_reducible exact settledO_fault | with_reducible exact settledO_refused
    | split | (with_reducible intro u)

theorem execDisableSpace_settled {space : Fin 16} {s : State} : SettledO (execDisableSpace space s) := by
  unfold execDisableSpace
  try dsimp only
  repeat' first
    | with_reducible exact done_settled | with_reducible exact settledO_fault | with_reducible exact settledO_refused
    | split | (with_reducible intro u)

theorem execDisableAll_settled {s : State} : SettledO (execDisableAll s) := by
  unfold execDisableAll
  try dsimp only
  repeat' first
    | with_reducible exact done_settled | with_reducible exact settledO_fault | with_reducible exact settledO_refused
    | split | (with_reducible intro u)

theorem execSlActionEffect_settled {ofs : Nat} {s : State} : SettledO (execSlActionEffect ofs s) := by
  unfold execSlActionEffect
  try dsimp only
  repeat' first
    | with_reducible exact done_settled | with_reducible exact settledO_fault | with_reducible exact settledO_refused
    | split | (with_reducible intro u)

theorem execPacerStep_settled {s : State} : SettledO (execPacerStep s) := by
  unfold execPacerStep
  try dsimp only
  repeat' first
    | with_reducible exact done_settled | with_reducible exact settledO_fault | with_reducible exact settledO_refused
    | split | (with_reducible intro u)

theorem afterStores_settled {n : Nat} {f : State → Host.Outcome State Fault Refusal} {s : State} (hf : ∀ u0, SettledO (f u0)) : SettledO (afterStores n f s) := by
  unfold afterStores
  try dsimp only
  repeat' first
    | with_reducible exact done_settled | with_reducible exact settledO_fault | with_reducible exact settledO_refused
    | with_reducible apply hf | split | (with_reducible intro u)

theorem execEventException_settled {n : Fin 5} {s : State} : SettledO (execEventException n s) := by
  unfold execEventException
  repeat' first
    | with_reducible exact done_settled | with_reducible exact settledO_fault | with_reducible exact settledO_refused
    | split | (with_reducible intro u)

theorem execEventPost_settled {e : Fin 256} {s : State} : SettledO (execEventPost e s) := by
  unfold execEventPost
  repeat' first
    | with_reducible exact done_settled | with_reducible exact settledO_fault | with_reducible exact settledO_refused
    | split | (with_reducible intro u)

theorem execWaitReturn_settled {n : Fin 5} {s : State} : SettledO (execWaitReturn n s) := by
  unfold execWaitReturn
  try dsimp only
  repeat' first
    | with_reducible exact done_settled | with_reducible exact settledO_fault | with_reducible exact settledO_refused
    | split | (with_reducible intro u)

theorem execWaitTimeout_settled {n : Fin 5} {ofs : Nat} {s : State} : SettledO (execWaitTimeout n ofs s) := by
  unfold execWaitTimeout
  try dsimp only
  repeat' first
    | with_reducible exact done_settled | with_reducible exact settledO_fault | with_reducible exact settledO_refused
    | split | (with_reducible intro u)

theorem execCoreRun_settled {n : Fin 8} {s : State} : SettledO (execCoreRun n s) := by
  unfold execCoreRun
  repeat' first
    | with_reducible exact done_settled | with_reducible exact settledO_fault | with_reducible exact settledO_refused
    | split | (with_reducible intro u)

theorem execCoreHalt_settled {n : Fin 8} {s : State} : SettledO (execCoreHalt n s) := by
  unfold execCoreHalt
  repeat' first
    | with_reducible exact done_settled | with_reducible exact settledO_fault | with_reducible exact settledO_refused
    | split | (with_reducible intro u)

theorem execCoreRestart_settled {n : Fin 8} {flush : Bool} {drop : Bool} {s : State} : SettledO (execCoreRestart n flush drop s) := by
  unfold execCoreRestart
  try dsimp only
  repeat' first
    | with_reducible exact done_settled | with_reducible exact settledO_fault | with_reducible exact settledO_refused
    | split | (with_reducible intro u)

theorem execCoreHalted_settled {n : Fin 4} {s : State} : SettledO (execCoreHalted n s) := by
  unfold execCoreHalted
  repeat' first
    | with_reducible exact done_settled | with_reducible exact settledO_fault | with_reducible exact settledO_refused
    | split | (with_reducible intro u)

theorem execHaltTimeout_settled {n : Fin 4} {s : State} : SettledO (execHaltTimeout n s) := by
  unfold execHaltTimeout
  repeat' first
    | with_reducible exact done_settled | with_reducible exact settledO_fault | with_reducible exact settledO_refused
    | split | (with_reducible intro u)

theorem execCommitDescriptorApply_settled {s : State} : SettledO (execCommitDescriptorApply s) := by
  unfold execCommitDescriptorApply
  try dsimp only
  repeat' first
    | with_reducible exact done_settled | with_reducible exact settledO_fault | with_reducible exact settledO_refused
    | split | (with_reducible intro u)

theorem execStreamFrameClose_settled {c : Fin 256} {s : State} : SettledO (execStreamFrameClose c s) := by
  unfold execStreamFrameClose
  try dsimp only
  repeat' first
    | with_reducible exact done_settled | with_reducible exact settledO_fault | with_reducible exact settledO_refused
    | split | (with_reducible intro u)

theorem execHeadUnreachable_settled {west : Bool} {ofs : Nat} {s : State} : SettledO (execHeadUnreachable west ofs s) := by
  unfold execHeadUnreachable
  try dsimp only
  repeat' first
    | with_reducible exact done_settled | with_reducible exact settledO_fault | with_reducible exact settledO_refused
    | split | (with_reducible intro u)

theorem execRevertHoldExpire_settled {s : State} : SettledO (execRevertHoldExpire s) := by
  unfold execRevertHoldExpire
  try dsimp only
  repeat' first
    | with_reducible exact done_settled | with_reducible exact settledO_fault | with_reducible exact settledO_refused
    | split | (with_reducible intro u)

theorem execReroute_settled {s : State} : SettledO (execReroute s) := by
  unfold execReroute
  repeat' first
    | with_reducible exact done_settled | with_reducible exact settledO_fault | with_reducible exact settledO_refused
    | split | (with_reducible intro u)

theorem execRenumber_settled {s : State} : SettledO (execRenumber s) := by
  unfold execRenumber
  repeat' first
    | with_reducible exact done_settled | with_reducible exact settledO_fault | with_reducible exact settledO_refused
    | split | (with_reducible intro u)

theorem execWotFrameReceive_settled {l : Fin 3} {ofs : Nat} {bytes : List Byte} {s : State} : SettledO (execWotFrameReceive l ofs bytes s) := by
  unfold execWotFrameReceive
  try dsimp only
  repeat' first
    | with_reducible exact done_settled | with_reducible exact settledO_fault | with_reducible exact settledO_refused
    | with_reducible apply whileAwake_settled | split | (with_reducible intro u)

theorem execAckReceive_settled {l : Fin 3} {ofs : Nat} {bytes : List Byte} {s : State} : SettledO (execAckReceive l ofs bytes s) := by
  unfold execAckReceive
  try dsimp only
  repeat' first
    | with_reducible exact done_settled | with_reducible exact settledO_fault | with_reducible exact settledO_refused
    | with_reducible apply whileAwake_settled | split | (with_reducible intro u)

theorem execAckSend_settled {l : Fin 3} {v : Fin 4} {ofs : Nat} {s : State} : SettledO (execAckSend l v ofs s) := by
  unfold execAckSend
  try dsimp only
  repeat' first
    | with_reducible exact done_settled | with_reducible exact settledO_fault | with_reducible exact settledO_refused
    | split | (with_reducible intro u)

theorem execFrameBoundary_settled {l : Fin 3} {ofs : Nat} {s : State} : SettledO (execFrameBoundary l ofs s) := by
  unfold execFrameBoundary
  try dsimp only
  repeat' first
    | with_reducible exact done_settled | with_reducible exact settledO_fault | with_reducible exact settledO_refused
    | with_reducible apply whileAwake_settled | split | (with_reducible intro u)

theorem execWotInjEnable_settled {s : State} : SettledO (execWotInjEnable s) := by
  unfold execWotInjEnable
  repeat' first
    | with_reducible exact done_settled | with_reducible exact settledO_fault | with_reducible exact settledO_refused
    | split | (with_reducible intro u)

theorem execWotInjDelayExpire_settled {l : Fin 2} {v : Fin 4} {ofs : Nat} {s : State} : SettledO (execWotInjDelayExpire l v ofs s) := by
  unfold execWotInjDelayExpire
  try dsimp only
  repeat' first
    | with_reducible exact done_settled | with_reducible exact settledO_fault | with_reducible exact settledO_refused
    | split | (with_reducible intro u)

theorem execCutThroughForward_settled {ofs : Nat} {s : State} : SettledO (execCutThroughForward ofs s) := by
  unfold execCutThroughForward
  try dsimp only
  repeat' first
    | with_reducible exact done_settled | with_reducible exact settledO_fault | with_reducible exact settledO_refused
    | split | (with_reducible intro u)

theorem execAccessionSend_settled {s : State} : SettledO (execAccessionSend s) := by
  unfold execAccessionSend
  try dsimp only
  repeat' first
    | with_reducible exact done_settled | with_reducible exact settledO_fault | with_reducible exact settledO_refused
    | split | (with_reducible intro u)

theorem execAccessionReceive_settled {s : State} : SettledO (execAccessionReceive s) := by
  unfold execAccessionReceive
  try dsimp only
  repeat' first
    | with_reducible exact done_settled | with_reducible exact settledO_fault | with_reducible exact settledO_refused
    | split | (with_reducible intro u)

theorem execSplitReqSend_settled {l : Fin 3} {s : State} : SettledO (execSplitReqSend l s) := by
  unfold execSplitReqSend
  try dsimp only
  repeat' first
    | with_reducible exact done_settled | with_reducible exact settledO_fault | with_reducible exact settledO_refused
    | split | (with_reducible intro u)

theorem execSplitReqReceive_settled {s : State} : SettledO (execSplitReqReceive s) := by
  unfold execSplitReqReceive
  try dsimp only
  repeat' first
    | with_reducible exact done_settled | with_reducible exact settledO_fault | with_reducible exact settledO_refused
    | split | (with_reducible intro u)

theorem execSplitRespReceive_settled {s : State} : SettledO (execSplitRespReceive s) := by
  unfold execSplitRespReceive
  try dsimp only
  repeat' first
    | with_reducible exact done_settled | with_reducible exact settledO_fault | with_reducible exact settledO_refused
    | split | (with_reducible intro u)

theorem execBatonSend_settled {s : State} : SettledO (execBatonSend s) := by
  unfold execBatonSend
  try dsimp only
  repeat' first
    | with_reducible exact done_settled | with_reducible exact settledO_fault | with_reducible exact settledO_refused
    | split | (with_reducible intro u)

theorem execBatonReceive_settled {ofs : Nat} {s : State} : SettledO (execBatonReceive ofs s) := by
  unfold execBatonReceive
  try dsimp only
  repeat' first
    | with_reducible exact done_settled | with_reducible exact settledO_fault | with_reducible exact settledO_refused
    | split | (with_reducible intro u)

theorem execTallyBroadcast_settled {n : Fin 4} {s : State} : SettledO (execTallyBroadcast n s) := by
  unfold execTallyBroadcast
  try dsimp only
  repeat' first
    | with_reducible exact done_settled | with_reducible exact settledO_fault | with_reducible exact settledO_refused
    | split | (with_reducible intro u)

theorem execStreamAckSend_settled {s : State} : SettledO (execStreamAckSend s) := by
  unfold execStreamAckSend
  try dsimp only
  repeat' first
    | with_reducible exact done_settled | with_reducible exact settledO_fault | with_reducible exact settledO_refused
    | split | (with_reducible intro u)

theorem execStreamAckReceive_settled {s : State} : SettledO (execStreamAckReceive s) := by
  unfold execStreamAckReceive
  try dsimp only
  repeat' first
    | with_reducible exact done_settled | with_reducible exact settledO_fault | with_reducible exact settledO_refused
    | split | (with_reducible intro u)

theorem execTxrTailWrite_settled {m : Fin 2} {tail : Nat} {s : State} : SettledO (execTxrTailWrite m tail s) := by
  unfold execTxrTailWrite
  repeat' first
    | with_reducible exact done_settled | with_reducible exact settledO_fault | with_reducible exact settledO_refused
    | split | (with_reducible intro u)

theorem execEthFrameSend_settled {m : Fin 2} {ofs : Nat} {s : State} : SettledO (execEthFrameSend m ofs s) := by
  unfold execEthFrameSend
  try dsimp only
  repeat' first
    | with_reducible exact done_settled | with_reducible exact settledO_fault | with_reducible exact settledO_refused
    | with_reducible apply whileAwake_settled | split | (with_reducible intro u)

theorem execEthFrameReceive_settled {m : Fin 2} {ofs : Nat} {bytes : List Byte} {s : State} : SettledO (execEthFrameReceive m ofs bytes s) := by
  unfold execEthFrameReceive
  try dsimp only
  repeat' first
    | with_reducible exact done_settled | with_reducible exact settledO_fault | with_reducible exact settledO_refused
    | with_reducible apply whileAwake_settled | split | (with_reducible intro u)

theorem execSyncReceive_settled {d : Fin 2} {s : State} : SettledO (execSyncReceive d s) := by
  unfold execSyncReceive
  try dsimp only
  repeat' first
    | with_reducible exact done_settled | with_reducible exact settledO_fault | with_reducible exact settledO_refused
    | split | (with_reducible intro u)

theorem execFollowUpReceive_settled {d : Fin 2} {s : State} : SettledO (execFollowUpReceive d s) := by
  unfold execFollowUpReceive
  try dsimp only
  repeat' first
    | with_reducible exact done_settled | with_reducible exact settledO_fault | with_reducible exact settledO_refused
    | split | (with_reducible intro u)

theorem execFollowUpTimeout_settled {d : Fin 2} {ofs : Nat} {s : State} : SettledO (execFollowUpTimeout d ofs s) := by
  unfold execFollowUpTimeout
  try dsimp only
  repeat' first
    | with_reducible exact done_settled | with_reducible exact settledO_fault | with_reducible exact settledO_refused
    | split | (with_reducible intro u)

theorem execDelayReqSend_settled {d : Fin 2} {ofs : Nat} {s : State} : SettledO (execDelayReqSend d ofs s) := by
  unfold execDelayReqSend
  try dsimp only
  repeat' first
    | with_reducible exact done_settled | with_reducible exact settledO_fault | with_reducible exact settledO_refused
    | with_reducible apply whileAwake_settled | split | (with_reducible intro u)

theorem execDelayRespReceive_settled {d : Fin 2} {s : State} : SettledO (execDelayRespReceive d s) := by
  unfold execDelayRespReceive
  try dsimp only
  repeat' first
    | with_reducible exact done_settled | with_reducible exact settledO_fault | with_reducible exact settledO_refused
    | split | (with_reducible intro u)

theorem execPtpParentWrite_settled {d : Fin 2} {k : Fin 4} {value : Word} {s : State} : SettledO (execPtpParentWrite d k value s) := by
  unfold execPtpParentWrite
  repeat' first
    | with_reducible exact done_settled | with_reducible exact settledO_fault | with_reducible exact settledO_refused
    | split | (with_reducible intro u)

theorem execGwDatagramClose_settled {ofs : Nat} {s : State} : SettledO (execGwDatagramClose ofs s) := by
  unfold execGwDatagramClose
  try dsimp only
  repeat' first
    | with_reducible exact done_settled | with_reducible exact settledO_fault | with_reducible exact settledO_refused
    | with_reducible apply whileAwake_settled | split | (with_reducible intro u)

theorem execStreamFrameReceive_settled {s : State} : SettledO (execStreamFrameReceive s) := by
  unfold execStreamFrameReceive
  try dsimp only
  repeat' first
    | with_reducible exact done_settled | with_reducible exact settledO_fault | with_reducible exact settledO_refused
    | split | (with_reducible intro u)

theorem execUnicastFrameReceive_settled {s : State} : SettledO (execUnicastFrameReceive s) := by
  unfold execUnicastFrameReceive
  try dsimp only
  repeat' first
    | with_reducible exact done_settled | with_reducible exact settledO_fault | with_reducible exact settledO_refused
    | split | (with_reducible intro u)

theorem execHostAckReceive_settled {s : State} : SettledO (execHostAckReceive s) := by
  unfold execHostAckReceive
  try dsimp only
  repeat' first
    | with_reducible exact done_settled | with_reducible exact settledO_fault | with_reducible exact settledO_refused
    | split | (with_reducible intro u)

theorem execInjectDatagramReceive_settled {s : State} : SettledO (execInjectDatagramReceive s) := by
  unfold execInjectDatagramReceive
  try dsimp only
  repeat' first
    | with_reducible exact done_settled | with_reducible exact settledO_fault | with_reducible exact settledO_refused
    | split | (with_reducible intro u)

theorem execSfpRead_settled {k : Fin 2} {len : Fin 8} {dev : BitVec 8} {reg : BitVec 8} {data : List Byte} {result : Fin 3} {s : State} : SettledO (execSfpRead k len dev reg data result s) := by
  unfold execSfpRead
  try dsimp only
  repeat' first
    | with_reducible exact done_settled | with_reducible exact settledO_fault | with_reducible exact settledO_refused
    | split | (with_reducible intro u)

theorem execSfpWrite_settled {k : Fin 2} {len : Fin 8} {dev : BitVec 8} {reg : BitVec 8} {result : Fin 3} {s : State} : SettledO (execSfpWrite k len dev reg result s) := by
  unfold execSfpWrite
  try dsimp only
  repeat' first
    | with_reducible exact done_settled | with_reducible exact settledO_fault | with_reducible exact settledO_refused
    | split | (with_reducible intro u)

theorem execLaneEnable_settled {n : Fin 4} {s : State} : SettledO (execLaneEnable n s) := by
  unfold execLaneEnable
  repeat' first
    | with_reducible exact done_settled | with_reducible exact settledO_fault | with_reducible exact settledO_refused
    | split | (with_reducible intro u)

theorem execLaneDisable_settled {n : Fin 4} {s : State} : SettledO (execLaneDisable n s) := by
  unfold execLaneDisable
  repeat' first
    | with_reducible exact done_settled | with_reducible exact settledO_fault | with_reducible exact settledO_refused
    | split | (with_reducible intro u)

theorem execWakeBurst_settled {n : Fin 4} {ofs : Nat} {s : State} : SettledO (execWakeBurst n ofs s) := by
  unfold execWakeBurst
  try dsimp only
  repeat' first
    | with_reducible exact done_settled | with_reducible exact settledO_fault | with_reducible exact settledO_refused
    | with_reducible apply whileAwake_settled | split | (with_reducible intro u)

theorem execLnkSignal_settled {n : Fin 4} {s : State} : SettledO (execLnkSignal n s) := by
  unfold execLnkSignal
  try dsimp only
  repeat' first
    | with_reducible exact done_settled | with_reducible exact settledO_fault | with_reducible exact settledO_refused
    | with_reducible apply whileAwake_settled | split | (with_reducible intro u)

theorem execLnkAbsent_settled {n : Fin 4} {ofs : Nat} {s : State} : SettledO (execLnkAbsent n ofs s) := by
  unfold execLnkAbsent
  try dsimp only
  repeat' first
    | with_reducible exact done_settled | with_reducible exact settledO_fault | with_reducible exact settledO_refused
    | with_reducible apply whileAwake_settled | split | (with_reducible intro u)

theorem execBlockLock_settled {n : Fin 4} {ofs : Nat} {s : State} : SettledO (execBlockLock n ofs s) := by
  unfold execBlockLock
  try dsimp only
  repeat' first
    | with_reducible exact done_settled | with_reducible exact settledO_fault | with_reducible exact settledO_refused
    | with_reducible apply whileAwake_settled | split | (with_reducible intro u)

theorem execTrainingBlockReceive_settled {n : Fin 4} {bytes : List Byte} {inverted : Bool} {s0 : State} : SettledO (execTrainingBlockReceive n bytes inverted s0) := by
  unfold execTrainingBlockReceive
  try dsimp only
  repeat' first
    | with_reducible exact done_settled | with_reducible exact settledO_fault | with_reducible exact settledO_refused
    | with_reducible apply whileAwake_settled | split | (with_reducible intro u)

theorem execRxReady_settled {n : Fin 4} {height : BitVec 16} {width : BitVec 16} {s : State} : SettledO (execRxReady n height width s) := by
  unfold execRxReady
  try dsimp only
  repeat' first
    | with_reducible exact done_settled | with_reducible exact settledO_fault | with_reducible exact settledO_refused
    | with_reducible apply whileAwake_settled | split | (with_reducible intro u)

theorem execLnkUp_settled {n : Fin 4} {ofs : Nat} {s : State} : SettledO (execLnkUp n ofs s) := by
  unfold execLnkUp
  try dsimp only
  repeat' first
    | with_reducible exact done_settled | with_reducible exact settledO_fault | with_reducible exact settledO_refused
    | with_reducible apply whileAwake_settled | split | (with_reducible intro u)

theorem execTrainingBudgetExpire_settled {n : Fin 4} {ofs : Nat} {s : State} : SettledO (execTrainingBudgetExpire n ofs s) := by
  unfold execTrainingBudgetExpire
  try dsimp only
  repeat' first
    | with_reducible exact done_settled | with_reducible exact settledO_fault | with_reducible exact settledO_refused
    | with_reducible apply whileAwake_settled | split | (with_reducible intro u)

theorem execPartnerRateDetect_settled {n : Fin 4} {rate : Fin 4} {s : State} : SettledO (execPartnerRateDetect n rate s) := by
  unfold execPartnerRateDetect
  try dsimp only
  repeat' first
    | with_reducible exact done_settled | with_reducible exact settledO_fault | with_reducible exact settledO_refused
    | with_reducible apply whileAwake_settled | split | (with_reducible intro u)

theorem execLossOfSignal_settled {n : Fin 4} {s : State} : SettledO (execLossOfSignal n s) := by
  unfold execLossOfSignal
  try dsimp only
  repeat' first
    | with_reducible exact done_settled | with_reducible exact settledO_fault | with_reducible exact settledO_refused
    | with_reducible apply whileAwake_settled | split | (with_reducible intro u)

theorem execLnkDown_settled {n : Fin 4} {s : State} : SettledO (execLnkDown n s) := by
  unfold execLnkDown
  try dsimp only
  repeat' first
    | with_reducible exact done_settled | with_reducible exact settledO_fault | with_reducible exact settledO_refused
    | with_reducible apply whileAwake_settled | split | (with_reducible intro u)

theorem execRelockTimeout_settled {n : Fin 4} {ofs : Nat} {signal : Bool} {s : State} : SettledO (execRelockTimeout n ofs signal s) := by
  unfold execRelockTimeout
  try dsimp only
  repeat' first
    | with_reducible exact done_settled | with_reducible exact settledO_fault | with_reducible exact settledO_refused
    | with_reducible apply whileAwake_settled | split | (with_reducible intro u)

theorem execPartnerRetrainDetect_settled {n : Fin 4} {s : State} : SettledO (execPartnerRetrainDetect n s) := by
  unfold execPartnerRetrainDetect
  try dsimp only
  repeat' first
    | with_reducible exact done_settled | with_reducible exact settledO_fault | with_reducible exact settledO_refused
    | with_reducible apply whileAwake_settled | split | (with_reducible intro u)

theorem execFailRetry_settled {n : Fin 4} {ofs : Nat} {signal : Bool} {s : State} : SettledO (execFailRetry n ofs signal s) := by
  unfold execFailRetry
  try dsimp only
  repeat' first
    | with_reducible exact done_settled | with_reducible exact settledO_fault | with_reducible exact settledO_refused
    | with_reducible apply whileAwake_settled | split | (with_reducible intro u)

theorem execRetrain_settled {n : Fin 4} {s : State} : SettledO (execRetrain n s) := by
  unfold execRetrain
  repeat' first
    | with_reducible exact done_settled | with_reducible exact settledO_fault | with_reducible exact settledO_refused
    | split | (with_reducible intro u)

theorem execLaneInject_settled {n : Fin 4} {s : State} : SettledO (execLaneInject n s) := by
  unfold execLaneInject
  repeat' first
    | with_reducible exact done_settled | with_reducible exact settledO_fault | with_reducible exact settledO_refused
    | split | (with_reducible intro u)

theorem execAckTimeout_settled {l : Fin 3} {v : Fin 4} {ofs : Nat} {s : State} : SettledO (execAckTimeout l v ofs s) := by
  unfold execAckTimeout
  try dsimp only
  repeat' first
    | with_reducible exact done_settled | with_reducible exact settledO_fault | with_reducible exact settledO_refused
    | split | (with_reducible intro u)

theorem execAdaptFreeze_settled {n : Fin 4} {ofs : Nat} {transitions : Nat} {s : State} : SettledO (execAdaptFreeze n ofs transitions s) := by
  unfold execAdaptFreeze
  try dsimp only
  repeat' first
    | with_reducible exact done_settled | with_reducible exact settledO_fault | with_reducible exact settledO_refused
    | with_reducible apply whileAwake_settled | split | (with_reducible intro u)

theorem execFillBlockSend_settled {n : Fin 4} {ofs : Nat} {s : State} : SettledO (execFillBlockSend n ofs s) := by
  unfold execFillBlockSend
  try dsimp only
  repeat' first
    | with_reducible exact done_settled | with_reducible exact settledO_fault | with_reducible exact settledO_refused
    | with_reducible apply whileAwake_settled | split | (with_reducible intro u)

theorem execPrbsChkEnable_settled {n : Fin 4} {s : State} : SettledO (execPrbsChkEnable n s) := by
  unfold execPrbsChkEnable
  repeat' first
    | with_reducible exact done_settled | with_reducible exact settledO_fault | with_reducible exact settledO_refused
    | split | (with_reducible intro u)

theorem execPrbsLock_settled {n : Fin 4} {rx : RxBits} {s : State} : SettledO (execPrbsLock n rx s) := by
  unfold execPrbsLock
  try dsimp only
  repeat' first
    | with_reducible exact done_settled | with_reducible exact settledO_fault | with_reducible exact settledO_refused
    | with_reducible apply whileAwake_settled | split | (with_reducible intro u)

theorem execLnkPrbsLost_settled {n : Fin 4} {ofs : Nat} {bits : List Bool} {s : State} : SettledO (execLnkPrbsLost n ofs bits s) := by
  unfold execLnkPrbsLost
  try dsimp only
  repeat' first
    | with_reducible exact done_settled | with_reducible exact settledO_fault | with_reducible exact settledO_refused
    | with_reducible apply whileAwake_settled | split | (with_reducible intro u)

theorem execInit_settled {s : State} : SettledO (execInit s) := by
  unfold execInit
  try dsimp only
  repeat' first
    | with_reducible exact done_settled | with_reducible exact settledO_fault | with_reducible exact settledO_refused
    | split | (with_reducible intro u)

theorem execInitResume_settled {s : State} : SettledO (execInitResume s) := by
  unfold execInitResume
  repeat' first
    | with_reducible exact done_settled | with_reducible exact settledO_fault | with_reducible exact settledO_refused
    | split | (with_reducible intro u)

theorem execDmcTrainDone_settled {margins : List (BitVec 8 × BitVec 8)} {large : Bool} {words : List Word} {s : State} : SettledO (execDmcTrainDone margins large words s) := by
  unfold execDmcTrainDone
  try dsimp only
  repeat' first
    | with_reducible exact done_settled | with_reducible exact settledO_fault | with_reducible exact settledO_refused
    | split | (with_reducible intro u)

theorem execDmcTrainFail_settled {step : Fin 9} {chans : BitVec 2} {mr8 : Bool} {s : State} : SettledO (execDmcTrainFail step chans mr8 s) := by
  unfold execDmcTrainFail
  try dsimp only
  repeat' first
    | with_reducible exact done_settled | with_reducible exact settledO_fault | with_reducible exact settledO_refused
    | split | (with_reducible intro u)

theorem execDqsRetrain_settled {ofs : Nat} {s : State} : SettledO (execDqsRetrain ofs s) := by
  unfold execDqsRetrain
  try dsimp only
  repeat' first
    | with_reducible exact done_settled | with_reducible exact settledO_fault | with_reducible exact settledO_refused
    | split | (with_reducible intro u)

theorem execDramRequest_settled {cls : Fin 3} {write : Bool} {wide : Bool} {addr : Nat} {data : List Byte} {mask : BitVec 64} {flips : List (Fin 576)} {issued : Bool} {ofs : Nat} {s : State} : SettledO (execDramRequest cls write wide addr data mask flips issued ofs s) := by
  unfold execDramRequest
  try dsimp only
  repeat' first
    | with_reducible exact done_settled | with_reducible exact settledO_fault | with_reducible exact settledO_refused
    | split | (with_reducible intro u)

theorem execPerBankRefresh_settled {ofs : Nat} {s : State} : SettledO (execPerBankRefresh ofs s) := by
  unfold execPerBankRefresh
  try dsimp only
  repeat' first
    | with_reducible exact done_settled | with_reducible exact settledO_fault | with_reducible exact settledO_refused
    | split | (with_reducible intro u)

theorem execMr4Poll_settled {a : Fin 8} {b : Fin 8} {ofs : Nat} {s : State} : SettledO (execMr4Poll a b ofs s) := by
  unfold execMr4Poll
  try dsimp only
  repeat' first
    | with_reducible exact done_settled | with_reducible exact settledO_fault | with_reducible exact settledO_refused
    | split | (with_reducible intro u)

theorem execScrubRead_settled {flips : List (Fin 576)} {ofs : Nat} {s : State} : SettledO (execScrubRead flips ofs s) := by
  unfold execScrubRead
  try dsimp only
  repeat' first
    | with_reducible exact done_settled | with_reducible exact settledO_fault | with_reducible exact settledO_refused
    | split | (with_reducible intro u)

theorem selfRefresh_settled {op : Nat} {s : State} : SettledO (selfRefresh op s) := by
  unfold selfRefresh
  repeat' first
    | with_reducible exact done_settled | with_reducible exact settledO_fault | with_reducible exact settledO_refused
    | split | (with_reducible intro u)

theorem execSrEnter_settled {s : State} : SettledO (execSrEnter s) := by
  unfold execSrEnter
  repeat' first
    | with_reducible exact done_settled | with_reducible exact settledO_fault | with_reducible exact settledO_refused
    | with_reducible apply selfRefresh_settled | split | (with_reducible intro u)

theorem execSrEnterPasr_settled {s : State} : SettledO (execSrEnterPasr s) := by
  unfold execSrEnterPasr
  repeat' first
    | with_reducible exact done_settled | with_reducible exact settledO_fault | with_reducible exact settledO_refused
    | with_reducible apply selfRefresh_settled | split | (with_reducible intro u)

theorem execSrEntryComplete_settled {s : State} : SettledO (execSrEntryComplete s) := by
  unfold execSrEntryComplete
  try dsimp only
  repeat' first
    | with_reducible exact done_settled | with_reducible exact settledO_fault | with_reducible exact settledO_refused
    | split | (with_reducible intro u)

theorem execSrExit_settled {s : State} : SettledO (execSrExit s) := by
  unfold execSrExit
  repeat' first
    | with_reducible exact done_settled | with_reducible exact settledO_fault | with_reducible exact settledO_refused
    | split | (with_reducible intro u)

theorem execSrExitOnRequest_settled {ofs : Nat} {s : State} : SettledO (execSrExitOnRequest ofs s) := by
  unfold execSrExitOnRequest
  try dsimp only
  repeat' first
    | with_reducible exact done_settled | with_reducible exact settledO_fault | with_reducible exact settledO_refused
    | split | (with_reducible intro u)

theorem grainWrite_settled {v : Nat} {s : State} : SettledO (grainWrite v s) := by
  unfold grainWrite
  try dsimp only
  repeat' first
    | with_reducible exact done_settled | with_reducible exact settledO_fault | with_reducible exact settledO_refused
    | split | (with_reducible intro u)

theorem execGrainWrite_settled {grain : Fin 16} {s : State} : SettledO (execGrainWrite grain s) := by
  unfold execGrainWrite
  repeat' first
    | with_reducible exact done_settled | with_reducible exact settledO_fault | with_reducible exact settledO_refused
    | with_reducible apply grainWrite_settled | split | (with_reducible intro u)

theorem execTwinEnable_settled {en : Bool} {s : State} : SettledO (execTwinEnable en s) := by
  unfold execTwinEnable
  repeat' first
    | with_reducible exact done_settled | with_reducible exact settledO_fault | with_reducible exact settledO_refused
    | split | (with_reducible intro u)

theorem execLinkWaitExpire_settled {ofs : Nat} {s : State} : SettledO (execLinkWaitExpire ofs s) := by
  unfold execLinkWaitExpire
  try dsimp only
  repeat' first
    | with_reducible exact done_settled | with_reducible exact settledO_fault | with_reducible exact settledO_refused
    | split | (with_reducible intro u)

theorem execPartnerLost_settled {s : State} : SettledO (execPartnerLost s) := by
  unfold execPartnerLost
  try dsimp only
  repeat' first
    | with_reducible exact done_settled | with_reducible exact settledO_fault | with_reducible exact settledO_refused
    | split | (with_reducible intro u)

theorem execTwinHoldInChange_settled {high : Bool} {ofs : Nat} {s : State} : SettledO (execTwinHoldInChange high ofs s) := by
  unfold execTwinHoldInChange
  try dsimp only
  repeat' first
    | with_reducible exact done_settled | with_reducible exact settledO_fault | with_reducible exact settledO_refused
    | split | (with_reducible intro u)

theorem execPinDriveEnable_settled {ofs : Nat} {s : State} : SettledO (execPinDriveEnable ofs s) := by
  unfold execPinDriveEnable
  try dsimp only
  repeat' first
    | with_reducible exact done_settled | with_reducible exact settledO_fault | with_reducible exact settledO_refused
    | split | (with_reducible intro u)

theorem execExcGateChange_settled {s : State} : SettledO (execExcGateChange s) := by
  unfold execExcGateChange
  try dsimp only
  repeat' first
    | with_reducible exact done_settled | with_reducible exact settledO_fault | with_reducible exact settledO_refused
    | split | (with_reducible intro u)

theorem execDigestCompute_settled {s : State} : SettledO (execDigestCompute s) := by
  unfold execDigestCompute
  try dsimp only
  repeat' first
    | with_reducible exact done_settled | with_reducible exact settledO_fault | with_reducible exact settledO_refused
    | split | (with_reducible intro u)

theorem execSwap_settled {s : State} : SettledO (execSwap s) := by
  unfold execSwap
  repeat' first
    | with_reducible exact done_settled | with_reducible exact settledO_fault | with_reducible exact settledO_refused
    | split | (with_reducible intro u)

theorem execSwapAckTimeout_settled {s : State} : SettledO (execSwapAckTimeout s) := by
  unfold execSwapAckTimeout
  repeat' first
    | with_reducible exact done_settled | with_reducible exact settledO_fault | with_reducible exact settledO_refused
    | split | (with_reducible intro u)

theorem execLeave_settled {force : Bool} {s : State} : SettledO (execLeave force s) := by
  unfold execLeave
  repeat' first
    | with_reducible exact done_settled | with_reducible exact settledO_fault | with_reducible exact settledO_refused
    | split | (with_reducible intro u)

theorem execSwapHandover_settled {s : State} : SettledO (execSwapHandover s) := by
  unfold execSwapHandover
  try dsimp only
  repeat' first
    | with_reducible exact done_settled | with_reducible exact settledO_fault | with_reducible exact settledO_refused
    | split | (with_reducible intro u)

theorem execTwnTakeover_settled {s : State} : SettledO (execTwnTakeover s) := by
  unfold execTwnTakeover
  repeat' first
    | with_reducible exact done_settled | with_reducible exact settledO_fault | with_reducible exact settledO_refused
    | split | (with_reducible intro u)

theorem execTake_settled {force : Bool} {s : State} : SettledO (execTake force s) := by
  unfold execTake
  repeat' first
    | with_reducible exact done_settled | with_reducible exact settledO_fault | with_reducible exact settledO_refused
    | split | (with_reducible intro u)

theorem execTwinClear_settled {s : State} : SettledO (execTwinClear s) := by
  unfold execTwinClear
  repeat' first
    | with_reducible exact done_settled | with_reducible exact settledO_fault | with_reducible exact settledO_refused
    | split | (with_reducible intro u)

theorem execMmWindowExpire_settled {s : State} : SettledO (execMmWindowExpire s) := by
  unfold execMmWindowExpire
  try dsimp only
  repeat' first
    | with_reducible exact done_settled | with_reducible exact settledO_fault | with_reducible exact settledO_refused
    | split | (with_reducible intro u)

theorem execPolicyApply_settled {s : State} : SettledO (execPolicyApply s) := by
  unfold execPolicyApply
  try dsimp only
  repeat' first
    | with_reducible exact done_settled | with_reducible exact settledO_fault | with_reducible exact settledO_refused
    | with_reducible apply execSwapHandover_settled | split | (with_reducible intro u)

theorem execDigestFrameReceive_settled {s : State} : SettledO (execDigestFrameReceive s) := by
  unfold execDigestFrameReceive
  try dsimp only
  repeat' first
    | with_reducible exact done_settled | with_reducible exact settledO_fault | with_reducible exact settledO_refused
    | split | (with_reducible intro u)

theorem execMirrorFrameSend_settled {s : State} : SettledO (execMirrorFrameSend s) := by
  unfold execMirrorFrameSend
  try dsimp only
  repeat' first
    | with_reducible exact done_settled | with_reducible exact settledO_fault | with_reducible exact settledO_refused
    | split | (with_reducible intro u)

theorem execMirrorFrameReceive_settled {s : State} : SettledO (execMirrorFrameReceive s) := by
  unfold execMirrorFrameReceive
  try dsimp only
  repeat' first
    | with_reducible exact done_settled | with_reducible exact settledO_fault | with_reducible exact settledO_refused
    | split | (with_reducible intro u)

theorem execMirrorDeadlineMiss_settled {ofs : Nat} {s : State} : SettledO (execMirrorDeadlineMiss ofs s) := by
  unfold execMirrorDeadlineMiss
  try dsimp only
  repeat' first
    | with_reducible exact done_settled | with_reducible exact settledO_fault | with_reducible exact settledO_refused
    | split | (with_reducible intro u)

theorem execJoinStatePiece_settled {k : Fin 386} {words : List Word} {s : State} : SettledO (execJoinStatePiece k words s) := by
  unfold execJoinStatePiece
  try dsimp only
  repeat' first
    | with_reducible exact done_settled | with_reducible exact settledO_fault | with_reducible exact settledO_refused
    | split | (with_reducible intro u)

theorem execWarmupEnd_settled {s : State} : SettledO (execWarmupEnd s) := by
  unfold execWarmupEnd
  repeat' first
    | with_reducible exact done_settled | with_reducible exact settledO_fault | with_reducible exact settledO_refused
    | split | (with_reducible intro u)

theorem execJoin_settled {s : State} : SettledO (execJoin s) := by
  unfold execJoin
  repeat' first
    | with_reducible exact done_settled | with_reducible exact settledO_fault | with_reducible exact settledO_refused
    | split | (with_reducible intro u)

theorem execXchkBlockEnd_settled {s : State} : SettledO (execXchkBlockEnd s) := by
  unfold execXchkBlockEnd
  try dsimp only
  repeat' first
    | with_reducible exact done_settled | with_reducible exact settledO_fault | with_reducible exact settledO_refused
    | split | (with_reducible intro u)

theorem execTempSample_settled {temps : List Int} {s : State} : SettledO (execTempSample temps s) := by
  unfold execTempSample
  try dsimp only
  repeat' first
    | with_reducible exact done_settled | with_reducible exact settledO_fault | with_reducible exact settledO_refused
    | split | (with_reducible intro u)

theorem execSupplySample_settled {mv : List Int} {s : State} : SettledO (execSupplySample mv s) := by
  unfold execSupplySample
  try dsimp only
  repeat' first
    | with_reducible exact done_settled | with_reducible exact settledO_fault | with_reducible exact settledO_refused
    | split | (with_reducible intro u)

theorem execHltLockstep_settled {unit : Fin 4} {s : State} : SettledO (execHltLockstep unit s) := by
  unfold execHltLockstep
  repeat' first
    | with_reducible exact done_settled | with_reducible exact settledO_fault | with_reducible exact settledO_refused
    | split | (with_reducible intro u)

theorem execCounterClear_settled {s : State} : SettledO (execCounterClear s) := by
  unfold execCounterClear
  repeat' first
    | with_reducible exact done_settled | with_reducible exact settledO_fault | with_reducible exact settledO_refused
    | split | (with_reducible intro u)

theorem execFaultInject_settled {s : State} : SettledO (execFaultInject s) := by
  unfold execFaultInject
  repeat' first
    | with_reducible exact done_settled | with_reducible exact settledO_fault | with_reducible exact settledO_refused
    | split | (with_reducible intro u)

theorem execPwrRun_settled {s : State} : SettledO (execPwrRun s) := by
  unfold execPwrRun
  repeat' first
    | with_reducible exact done_settled | with_reducible exact settledO_fault | with_reducible exact settledO_refused
    | split | (with_reducible intro u)

theorem execAnaUp_settled {s : State} : SettledO (execAnaUp s) := by
  unfold execAnaUp
  repeat' first
    | with_reducible exact done_settled | with_reducible exact settledO_fault | with_reducible exact settledO_refused
    | split | (with_reducible intro u)

theorem execRunTimeout_settled {ofs : Nat} {s : State} : SettledO (execRunTimeout ofs s) := by
  unfold execRunTimeout
  try dsimp only
  repeat' first
    | with_reducible exact done_settled | with_reducible exact settledO_fault | with_reducible exact settledO_refused
    | split | (with_reducible intro u)

theorem execPwrIdle_settled {s : State} : SettledO (execPwrIdle s) := by
  unfold execPwrIdle
  repeat' first
    | with_reducible exact done_settled | with_reducible exact settledO_fault | with_reducible exact settledO_refused
    | split | (with_reducible intro u)

theorem execPwrRest_settled {s : State} : SettledO (execPwrRest s) := by
  unfold execPwrRest
  try dsimp only
  repeat' first
    | with_reducible exact done_settled | with_reducible exact settledO_fault | with_reducible exact settledO_refused
    | split | (with_reducible intro u)

theorem execPwrShelve_settled {s : State} : SettledO (execPwrShelve s) := by
  unfold execPwrShelve
  try dsimp only
  repeat' first
    | with_reducible exact done_settled | with_reducible exact settledO_fault | with_reducible exact settledO_refused
    | split | (with_reducible intro u)

theorem execWakeFromRest_settled {wakeN : Bool} {btn : Bool} {spi : Bool} {lanes : BitVec 4} {s : State} : SettledO (execWakeFromRest wakeN btn spi lanes s) := by
  unfold execWakeFromRest
  try dsimp only
  repeat' first
    | with_reducible exact done_settled | with_reducible exact settledO_fault | with_reducible exact settledO_refused
    | split | (with_reducible intro u)

theorem execWakeFromShelved_settled {wakeN : Bool} {btn : Bool} {s : State} : SettledO (execWakeFromShelved wakeN btn s) := by
  unfold execWakeFromShelved
  try dsimp only
  repeat' first
    | with_reducible exact done_settled | with_reducible exact settledO_fault | with_reducible exact settledO_refused
    | split | (with_reducible intro u)

theorem execAonTimerExpire_settled {ofs : Nat} {s : State} : SettledO (execAonTimerExpire ofs s) := by
  unfold execAonTimerExpire
  try dsimp only
  repeat' first
    | with_reducible exact done_settled | with_reducible exact settledO_fault | with_reducible exact settledO_refused
    | split | (with_reducible intro u)

theorem execPowerOnReset_settled {s : State} : SettledO (execPowerOnReset s) := by
  unfold execPowerOnReset
  try dsimp only
  repeat' first
    | with_reducible exact done_settled | with_reducible exact settledO_fault | with_reducible exact settledO_refused
    | split | (with_reducible intro u)

theorem execPowerOnResetEnd_settled {s : State} : SettledO (execPowerOnResetEnd s) := by
  unfold execPowerOnResetEnd
  repeat' first
    | with_reducible exact done_settled | with_reducible exact settledO_fault | with_reducible exact settledO_refused
    | split | (with_reducible intro u)

theorem execPorstN_settled {s : State} : SettledO (execPorstN s) := by
  unfold execPorstN
  try dsimp only
  repeat' first
    | with_reducible exact done_settled | with_reducible exact settledO_fault | with_reducible exact settledO_refused
    | split | (with_reducible intro u)

theorem execHubResetCmd_settled {key : BitVec 8} {s : State} : SettledO (execHubResetCmd key s) := by
  unfold execHubResetCmd
  repeat' first
    | with_reducible exact done_settled | with_reducible exact settledO_fault | with_reducible exact settledO_refused
    | split | (with_reducible intro u)

theorem execStewardResetCmd_settled {key : BitVec 8} {s : State} : SettledO (execStewardResetCmd key s) := by
  unfold execStewardResetCmd
  repeat' first
    | with_reducible exact done_settled | with_reducible exact settledO_fault | with_reducible exact settledO_refused
    | split | (with_reducible intro u)

theorem execRailsGood_settled {s : State} : SettledO (execRailsGood s) := by
  unfold execRailsGood
  try dsimp only
  repeat' first
    | with_reducible exact done_settled | with_reducible exact settledO_fault | with_reducible exact settledO_refused
    | split | (with_reducible intro u)

theorem execWatchdogKick_settled {s : State} : SettledO (execWatchdogKick s) := by
  unfold execWatchdogKick
  repeat' first
    | with_reducible exact done_settled | with_reducible exact settledO_fault | with_reducible exact settledO_refused
    | split | (with_reducible intro u)

theorem execWatchdogExpire_settled {ofs : Nat} {s : State} : SettledO (execWatchdogExpire ofs s) := by
  unfold execWatchdogExpire
  try dsimp only
  repeat' first
    | with_reducible exact done_settled | with_reducible exact settledO_fault | with_reducible exact settledO_refused
    | split | (with_reducible intro u)

theorem execLdgRead_settled {s : State} : SettledO (execLdgRead s) := by
  unfold execLdgRead
  repeat' first
    | with_reducible exact done_settled | with_reducible exact settledO_fault | with_reducible exact settledO_refused
    | split | (with_reducible intro u)

theorem execLdgWrite_settled {bad : Option Nat} {s : State} : SettledO (execLdgWrite bad s) := by
  unfold execLdgWrite
  repeat' first
    | with_reducible exact done_settled | with_reducible exact settledO_fault | with_reducible exact settledO_refused
    | split | (with_reducible intro u)

theorem execDigitalRailFault_settled {s : State} : SettledO (execDigitalRailFault s) := by
  unfold execDigitalRailFault
  try dsimp only
  repeat' first
    | with_reducible exact done_settled | with_reducible exact settledO_fault | with_reducible exact settledO_refused
    | split | (with_reducible intro u)

theorem execRunningHoursWrite_settled {ofs : Nat} {s : State} : SettledO (execRunningHoursWrite ofs s) := by
  unfold execRunningHoursWrite
  try dsimp only
  repeat' first
    | with_reducible exact done_settled | with_reducible exact settledO_fault | with_reducible exact settledO_refused
    | split | (with_reducible intro u)

theorem execSvcBtn_settled {pressed : Bool} {s : State} : SettledO (execSvcBtn pressed s) := by
  unfold execSvcBtn
  try dsimp only
  repeat' first
    | with_reducible exact done_settled | with_reducible exact settledO_fault | with_reducible exact settledO_refused
    | split | (with_reducible intro u)

theorem execSvcBtnHold_settled {ofs : Nat} {s : State} : SettledO (execSvcBtnHold ofs s) := by
  unfold execSvcBtnHold
  try dsimp only
  repeat' first
    | with_reducible exact done_settled | with_reducible exact settledO_fault | with_reducible exact settledO_refused
    | split | (with_reducible intro u)

theorem execSvcGpio_settled {pins : BitVec 8} {s : State} : SettledO (execSvcGpio pins s) := by
  unfold execSvcGpio
  try dsimp only
  repeat' first
    | with_reducible exact done_settled | with_reducible exact settledO_fault | with_reducible exact settledO_refused
    | split | (with_reducible intro u)

theorem execRefusedIndicationEnd_settled {ofs : Nat} {s : State} : SettledO (execRefusedIndicationEnd ofs s) := by
  unfold execRefusedIndicationEnd
  try dsimp only
  repeat' first
    | with_reducible exact done_settled | with_reducible exact settledO_fault | with_reducible exact settledO_refused
    | split | (with_reducible intro u)

theorem execBootAttempt_settled {flash : Option (List Byte)} {ofs : Nat} {s : State} : SettledO (execBootAttempt flash ofs s) := by
  unfold execBootAttempt
  try dsimp only
  repeat' first
    | with_reducible exact done_settled | with_reducible exact settledO_fault | with_reducible exact settledO_refused
    | split | (with_reducible intro u)

theorem execBootDataReceive_settled {ofs : Nat} {s : State} : SettledO (execBootDataReceive ofs s) := by
  unfold execBootDataReceive
  try dsimp only
  repeat' first
    | with_reducible exact done_settled | with_reducible exact settledO_fault | with_reducible exact settledO_refused
    | split | (with_reducible intro u)

theorem execBootReqRetry_settled {ofs : Nat} {s : State} : SettledO (execBootReqRetry ofs s) := by
  unfold execBootReqRetry
  try dsimp only
  repeat' first
    | with_reducible exact done_settled | with_reducible exact settledO_fault | with_reducible exact settledO_refused
    | split | (with_reducible intro u)

theorem execBootRetry_settled {ofs : Nat} {s : State} : SettledO (execBootRetry ofs s) := by
  unfold execBootRetry
  try dsimp only
  repeat' first
    | with_reducible exact done_settled | with_reducible exact settledO_fault | with_reducible exact settledO_refused
    | split | (with_reducible intro u)

theorem execBootDone_settled {s : State} : SettledO (execBootDone s) := by
  unfold execBootDone
  try dsimp only
  repeat' first
    | with_reducible exact done_settled | with_reducible exact settledO_fault | with_reducible exact settledO_refused
    | split | (with_reducible intro u)

theorem execTckRisingEdge_settled {tms : Bool} {tdi : Bool} {pins : List Bool} {s : State} : SettledO (execTckRisingEdge tms tdi pins s) := by
  unfold execTckRisingEdge
  try dsimp only
  repeat' first
    | with_reducible exact done_settled | with_reducible exact settledO_fault | with_reducible exact settledO_refused
    | split | (with_reducible intro u)

theorem execTrstN_settled {s : State} : SettledO (execTrstN s) := by
  unfold execTrstN
  repeat' first
    | with_reducible exact done_settled | with_reducible exact settledO_fault | with_reducible exact settledO_refused
    | split | (with_reducible intro u)

theorem execGopTrigger_settled {space : Fin 8} {dir : Fin 4} {cancel : Bool} {turn : Bool} {s : State} : SettledO (execGopTrigger space dir cancel turn s) := by
  unfold execGopTrigger
  repeat' first
    | with_reducible exact done_settled | with_reducible exact settledO_fault | with_reducible exact settledO_refused
    | with_reducible apply execGopBarrier_settled | with_reducible apply execGopEvent_settled
    | with_reducible apply execGopReset_settled | with_reducible apply execGopSnapshot_settled | split
    | (with_reducible intro u)

theorem execGopEvent_settled {space : Fin 8} {dir : Fin 4} {cancel : Bool} {turn : Bool} {s : State} : SettledO (execGopEvent space dir cancel turn s) := by
  unfold execGopEvent
  repeat' first
    | with_reducible exact done_settled | with_reducible exact settledO_fault | with_reducible exact settledO_refused
    | with_reducible apply execGopBarrier_settled | with_reducible apply execGopReset_settled
    | with_reducible apply execGopSnapshot_settled | split | (with_reducible intro u)

theorem execGopSnapshot_settled {space : Fin 8} {dir : Fin 4} {cancel : Bool} {turn : Bool} {s : State} : SettledO (execGopSnapshot space dir cancel turn s) := by
  unfold execGopSnapshot
  repeat' first
    | with_reducible exact done_settled | with_reducible exact settledO_fault | with_reducible exact settledO_refused
    | with_reducible apply execGopBarrier_settled | with_reducible apply execGopReset_settled | split
    | (with_reducible intro u)

theorem execGopBarrier_settled {space : Fin 8} {dir : Fin 4} {cancel : Bool} {turn : Bool} {s : State} : SettledO (execGopBarrier space dir cancel turn s) := by
  unfold execGopBarrier
  repeat' first
    | with_reducible exact done_settled | with_reducible exact settledO_fault | with_reducible exact settledO_refused
    | with_reducible apply execGopReset_settled | split | (with_reducible intro u)

theorem execGopReset_settled {space : Fin 8} {dir : Fin 4} {cancel : Bool} {turn : Bool} {s : State} : SettledO (execGopReset space dir cancel turn s) := by
  unfold execGopReset
  repeat' first
    | with_reducible exact done_settled | with_reducible exact settledO_fault | with_reducible exact settledO_refused
    | split | (with_reducible intro u)

theorem execGopReceive_settled {ofs : Nat} {s : State} : SettledO (execGopReceive ofs s) := by
  unfold execGopReceive
  try dsimp only
  repeat' first
    | with_reducible exact done_settled | with_reducible exact settledO_fault | with_reducible exact settledO_refused
    | split | (with_reducible intro u)

theorem execGopEffect_settled {ofs : Nat} {s : State} : SettledO (execGopEffect ofs s) := by
  unfold execGopEffect
  try dsimp only
  repeat' first
    | with_reducible exact done_settled | with_reducible exact settledO_fault | with_reducible exact settledO_refused
    | split | (with_reducible intro u)

theorem execWotSnapshot_settled {s : State} : SettledO (execWotSnapshot s) := by
  unfold execWotSnapshot
  try dsimp only
  repeat' first
    | with_reducible exact done_settled | with_reducible exact settledO_fault | with_reducible exact settledO_refused
    | split | (with_reducible intro u)

theorem execWotGopEcho_settled {ofs : Nat} {s : State} : SettledO (execWotGopEcho ofs s) := by
  unfold execWotGopEcho
  try dsimp only
  repeat' first
    | with_reducible exact done_settled | with_reducible exact settledO_fault | with_reducible exact settledO_refused
    | split | (with_reducible intro u)

theorem execGopEchoTimeout_settled {ofs : Nat} {s : State} : SettledO (execGopEchoTimeout ofs s) := by
  unfold execGopEchoTimeout
  try dsimp only
  repeat' first
    | with_reducible exact done_settled | with_reducible exact settledO_fault | with_reducible exact settledO_refused
    | split | (with_reducible intro u)

theorem execD2dLapFrameArrival_settled {frame : D2DFrame} {s : State} : SettledO (execD2dLapFrameArrival frame s) := by
  unfold execD2dLapFrameArrival
  try dsimp only
  repeat' first
    | with_reducible exact done_settled | with_reducible exact settledO_fault | with_reducible exact settledO_refused
    | split | (with_reducible intro u)

theorem execRecordDelivery_settled {s : State} : SettledO (execRecordDelivery s) := by
  unfold execRecordDelivery
  try dsimp only
  repeat' first
    | with_reducible exact done_settled | with_reducible exact settledO_fault | with_reducible exact settledO_refused
    | split | (with_reducible intro u)

theorem noOp_settled {a : Nat} {s : State} : SettledO (noOp a s) := by
  unfold noOp
  repeat' first
    | with_reducible exact done_settled | with_reducible exact settledO_fault | with_reducible exact settledO_refused
    | split | (with_reducible intro u)

theorem pacerCommand_settled {w : Word} {s : State} : SettledO (pacerCommand w s) := by
  unfold pacerCommand
  repeat' first
    | with_reducible exact done_settled | with_reducible exact settledO_fault | with_reducible exact settledO_refused
    | with_reducible apply execPacerAcquire_settled | with_reducible apply execPacerSwitch_settled
    | with_reducible apply execSetTime_settled | with_reducible apply noOp_settled | split | (with_reducible intro u)

theorem slCommand_settled {w : Word} {s : State} : SettledO (slCommand w s) := by
  unfold slCommand
  repeat' first
    | with_reducible exact done_settled | with_reducible exact settledO_fault | with_reducible exact settledO_refused
    | with_reducible apply execDisableAll_settled | with_reducible apply execDisableSpace_settled
    | with_reducible apply noOp_settled | split | (with_reducible intro u)

theorem calCommand_settled {w : Word} {s : State} : SettledO (calCommand w s) := by
  unfold calCommand
  repeat' first
    | with_reducible exact done_settled | with_reducible exact settledO_fault | with_reducible exact settledO_refused
    | with_reducible apply execCalResume_settled | with_reducible apply execPause_settled
    | with_reducible apply execReadmit_settled | with_reducible apply noOp_settled | split | (with_reducible intro u)

theorem redCommand_settled {w : Word} {s : State} : SettledO (redCommand w s) := by
  unfold redCommand
  repeat' first
    | with_reducible exact done_settled | with_reducible exact settledO_fault | with_reducible exact settledO_refused
    | with_reducible apply execCatalogueCommit_settled | with_reducible apply execSetSeq_settled
    | with_reducible apply noOp_settled | split | (with_reducible intro u)

theorem ringCommand_settled {r : Nat} {w : Word} {s : State} : SettledO (ringCommand r w s) := by
  unfold ringCommand
  repeat' first
    | with_reducible exact done_settled | with_reducible exact settledO_fault | with_reducible exact settledO_refused
    | with_reducible apply execArm_settled | with_reducible apply execDisarm_settled
    | with_reducible apply execRingTriggerCmd_settled | with_reducible apply noOp_settled | split
    | (with_reducible intro u)

theorem ctlCommand_settled {w : Word} {s : State} : SettledO (ctlCommand w s) := by
  unfold ctlCommand
  repeat' first
    | with_reducible exact done_settled | with_reducible exact settledO_fault | with_reducible exact settledO_refused
    | with_reducible apply execLoopCommitCmd_settled | with_reducible apply execLoopResume_settled
    | with_reducible apply execTestStart_settled | with_reducible apply execTestStop_settled
    | with_reducible apply noOp_settled | split | (with_reducible intro u)

theorem coreCommand_settled {w : Word} {s : State} : SettledO (coreCommand w s) := by
  unfold coreCommand
  try dsimp only
  repeat' first
    | with_reducible exact done_settled | with_reducible exact settledO_fault | with_reducible exact settledO_refused
    | with_reducible apply execCoreHalt_settled | with_reducible apply execCoreRestart_settled
    | with_reducible apply execCoreRun_settled | with_reducible apply noOp_settled | split | (with_reducible intro u)

theorem laneCommand_settled {n : Nat} {w : Word} {s : State} : SettledO (laneCommand n w s) := by
  unfold laneCommand
  repeat' first
    | with_reducible exact done_settled | with_reducible exact settledO_fault | with_reducible exact settledO_refused
    | with_reducible apply execLaneInject_settled | with_reducible apply execRetrain_settled
    | with_reducible apply noOp_settled | split | (with_reducible intro u)

theorem wotCommand_settled {w : Word} {s : State} : SettledO (wotCommand w s) := by
  unfold wotCommand
  repeat' first
    | with_reducible exact done_settled | with_reducible exact settledO_fault | with_reducible exact settledO_refused
    | with_reducible apply execRenumber_settled | with_reducible apply execReroute_settled
    | with_reducible apply noOp_settled | split | (with_reducible intro u)

theorem gopCommand_settled {w : Word} {s : State} : SettledO (gopCommand w s) := by
  unfold gopCommand
  repeat' first
    | with_reducible exact done_settled | with_reducible exact settledO_fault | with_reducible exact settledO_refused
    | split | (with_reducible intro u)

theorem sfpCommand_settled {k : Nat} {w : Word} {s : State} : SettledO (sfpCommand k w s) := by
  unfold sfpCommand
  try dsimp only
  repeat' first
    | with_reducible exact done_settled | with_reducible exact settledO_fault | with_reducible exact settledO_refused
    | split | (with_reducible intro u)

theorem dmcCommand_settled {w : Word} {s : State} : SettledO (dmcCommand w s) := by
  unfold dmcCommand
  repeat' first
    | with_reducible exact done_settled | with_reducible exact settledO_fault | with_reducible exact settledO_refused
    | with_reducible apply execInit_settled | with_reducible apply execInitResume_settled
    | with_reducible apply execSrEnter_settled | with_reducible apply execSrEnterPasr_settled
    | with_reducible apply execSrExit_settled | with_reducible apply noOp_settled | split | (with_reducible intro u)

theorem twinCommand_settled {w : Word} {s : State} : SettledO (twinCommand w s) := by
  unfold twinCommand
  try dsimp only
  repeat' first
    | with_reducible exact done_settled | with_reducible exact settledO_fault | with_reducible exact settledO_refused
    | with_reducible apply execJoin_settled | with_reducible apply execLeave_settled
    | with_reducible apply execSwap_settled | with_reducible apply execTake_settled
    | with_reducible apply execTwinClear_settled | with_reducible apply noOp_settled | split | (with_reducible intro u)

theorem hltCommand_settled {w : Word} {s : State} : SettledO (hltCommand w s) := by
  unfold hltCommand
  repeat' first
    | with_reducible exact done_settled | with_reducible exact settledO_fault | with_reducible exact settledO_refused
    | with_reducible apply execCounterClear_settled | with_reducible apply execFaultInject_settled
    | with_reducible apply noOp_settled | split | (with_reducible intro u)

theorem powerCommand_settled {w : Word} {s : State} : SettledO (powerCommand w s) := by
  unfold powerCommand
  repeat' first
    | with_reducible exact done_settled | with_reducible exact settledO_fault | with_reducible exact settledO_refused
    | with_reducible apply execPwrIdle_settled | with_reducible apply execPwrRest_settled
    | with_reducible apply execPwrRun_settled | with_reducible apply execPwrShelve_settled
    | with_reducible apply noOp_settled | split | (with_reducible intro u)

theorem ledgerCommand_settled {w : Word} {s : State} : SettledO (ledgerCommand w s) := by
  unfold ledgerCommand
  repeat' first
    | with_reducible exact done_settled | with_reducible exact settledO_fault | with_reducible exact settledO_refused
    | with_reducible apply execLdgRead_settled | with_reducible apply execLdgWrite_settled
    | with_reducible apply noOp_settled | split | (with_reducible intro u)

theorem writeTop_settled {a : Nat} {w : Word} {s : State} : SettledO (writeTop a w s) := by
  unfold writeTop
  try dsimp only
  repeat' first
    | with_reducible exact done_settled | with_reducible exact settledO_fault | with_reducible exact settledO_refused
    | with_reducible apply coreCommand_settled | with_reducible apply powerCommand_settled | split
    | (with_reducible intro u)

theorem writeAfe_settled {a : Nat} {w : Word} {s : State} : SettledO (writeAfe a w s) := by
  unfold writeAfe
  try dsimp only
  repeat' first
    | with_reducible exact done_settled | with_reducible exact settledO_fault | with_reducible exact settledO_refused
    | with_reducible apply execCmwinWrite_settled | with_reducible apply execExcApply_settled
    | with_reducible apply execPlugEnClear_settled | with_reducible apply execResetTrip_settled
    | with_reducible apply noOp_settled | split | (with_reducible intro u)

theorem writeCnv_settled {a : Nat} {w : Word} {s : State} : SettledO (writeCnv a w s) := by
  unfold writeCnv
  try dsimp only
  repeat' first
    | with_reducible exact done_settled | with_reducible exact settledO_fault | with_reducible exact settledO_refused
    | with_reducible apply calCommand_settled | with_reducible apply execBufEnWrite_settled
    | with_reducible apply execCalEnWrite_settled | with_reducible apply execSkewCmd_settled | split
    | (with_reducible intro u)

theorem writeAcq_settled {a : Nat} {w : Word} {s : State} : SettledO (writeAcq a w s) := by
  unfold writeAcq
  try dsimp only
  repeat' first
    | with_reducible exact done_settled | with_reducible exact settledO_fault | with_reducible exact settledO_refused
    | with_reducible apply execFolioSlotRelease_settled | with_reducible apply ringCommand_settled | split
    | (with_reducible intro u)

theorem writeTbs_settled {a : Nat} {w : Word} {s : State} : SettledO (writeTbs a w s) := by
  unfold writeTbs
  try dsimp only
  repeat' first
    | with_reducible exact done_settled | with_reducible exact settledO_fault | with_reducible exact settledO_refused
    | with_reducible apply execPreset_settled | with_reducible apply noOp_settled
    | with_reducible apply pacerCommand_settled | with_reducible apply slCommand_settled | split | (with_reducible intro u)

theorem writeCtl_settled {a : Nat} {w : Word} {s : State} : SettledO (writeCtl a w s) := by
  unfold writeCtl
  repeat' first
    | with_reducible exact done_settled | with_reducible exact settledO_fault | with_reducible exact settledO_refused
    | with_reducible apply ctlCommand_settled | with_reducible apply execOutputRegisterWrite_settled
    | with_reducible apply execSetpointWrite_settled | split | (with_reducible intro u)

theorem writeLane_settled {n : Nat} {a : Nat} {w : Word} {s : State} : SettledO (writeLane n a w s) := by
  unfold writeLane
  try dsimp only
  repeat' first
    | with_reducible exact done_settled | with_reducible exact settledO_fault | with_reducible exact settledO_refused
    | with_reducible apply laneCommand_settled | split | (with_reducible intro u)

theorem writeLnk_settled {a : Nat} {w : Word} {s : State} : SettledO (writeLnk a w s) := by
  unfold writeLnk
  try dsimp only
  repeat' first
    | with_reducible exact done_settled | with_reducible exact settledO_fault | with_reducible exact settledO_refused
    | with_reducible apply writeLane_settled | split | (with_reducible intro u)

theorem writeWot_settled {a : Nat} {w : Word} {s : State} : SettledO (writeWot a w s) := by
  unfold writeWot
  try dsimp only
  repeat' first
    | with_reducible exact done_settled | with_reducible exact settledO_fault | with_reducible exact settledO_refused
    | with_reducible apply gopCommand_settled | with_reducible apply wotCommand_settled | split | (with_reducible intro u)

theorem writeEth_settled {a : Nat} {w : Word} {s : State} : SettledO (writeEth a w s) := by
  unfold writeEth
  try dsimp only
  repeat' first
    | with_reducible exact done_settled | with_reducible exact settledO_fault | with_reducible exact settledO_refused
    | with_reducible apply sfpCommand_settled | split | (with_reducible intro u)

theorem writeDmc_settled {a : Nat} {w : Word} {s : State} : SettledO (writeDmc a w s) := by
  unfold writeDmc
  try dsimp only
  repeat' first
    | with_reducible exact done_settled | with_reducible exact settledO_fault | with_reducible exact settledO_refused
    | with_reducible apply dmcCommand_settled | with_reducible apply execGrainWrite_settled | split
    | (with_reducible intro u)

theorem writeTwn_settled {a : Nat} {w : Word} {s : State} : SettledO (writeTwn a w s) := by
  unfold writeTwn
  try dsimp only
  repeat' first
    | with_reducible exact done_settled | with_reducible exact settledO_fault | with_reducible exact settledO_refused
    | with_reducible apply execTwinEnable_settled | with_reducible apply twinCommand_settled | split
    | (with_reducible intro u)

theorem writeHlt_settled {a : Nat} {w : Word} {s : State} : SettledO (writeHlt a w s) := by
  unfold writeHlt
  repeat' first
    | with_reducible exact done_settled | with_reducible exact settledO_fault | with_reducible exact settledO_refused
    | with_reducible apply hltCommand_settled | split | (with_reducible intro u)

theorem writeReg_settled {a : Nat} {w : Word} {s : State} : SettledO (writeReg a w s) := by
  unfold writeReg
  repeat' first
    | with_reducible exact done_settled | with_reducible exact settledO_fault | with_reducible exact settledO_refused
    | with_reducible apply ledgerCommand_settled | with_reducible apply redCommand_settled
    | with_reducible apply writeAcq_settled | with_reducible apply writeAfe_settled | with_reducible apply writeCnv_settled
    | with_reducible apply writeCtl_settled | with_reducible apply writeDmc_settled | with_reducible apply writeEth_settled
    | with_reducible apply writeHlt_settled | with_reducible apply writeLnk_settled | with_reducible apply writeTbs_settled
    | with_reducible apply writeTop_settled | with_reducible apply writeTwn_settled | with_reducible apply writeWot_settled
    | split | (with_reducible intro u)

theorem writeTable_settled {a : Nat} {w : Word} {s : State} : SettledO (writeTable a w s) := by
  unfold writeTable
  try dsimp only
  repeat' first
    | with_reducible exact done_settled | with_reducible exact settledO_fault | with_reducible exact settledO_refused
    | split | (with_reducible intro u)

theorem busWrite_settled {a : Nat} {w : Word} {s : State} : SettledO (busWrite a w s) := by
  unfold busWrite
  try dsimp only
  repeat' first
    | with_reducible exact done_settled | with_reducible exact settledO_fault | with_reducible exact settledO_refused
    | with_reducible apply writeReg_settled | with_reducible apply writeTable_settled | split | (with_reducible intro u)

theorem execRegisterWrite_settled {addr : Nat} {value : Word} {s : State} : SettledO (execRegisterWrite addr value s) := by
  unfold execRegisterWrite
  repeat' first
    | with_reducible exact done_settled | with_reducible exact settledO_fault | with_reducible exact settledO_refused
    | with_reducible apply busWrite_settled | split | (with_reducible intro u)

theorem execRcRead_settled {addr : Nat} {s : State} : SettledO (execRcRead addr s) := by
  unfold execRcRead
  repeat' first
    | with_reducible exact done_settled | with_reducible exact settledO_fault | with_reducible exact settledO_refused
    | split | (with_reducible intro u)

theorem execLatchingRead_settled {addr : Nat} {ofs : Nat} {s : State} : SettledO (execLatchingRead addr ofs s) := by
  unfold execLatchingRead
  repeat' first
    | with_reducible exact done_settled | with_reducible exact settledO_fault | with_reducible exact settledO_refused
    | split | (with_reducible intro u)

theorem execResultRegisterRead_settled {addr : Nat} {s : State} : SettledO (execResultRegisterRead addr s) := by
  unfold execResultRegisterRead
  repeat' first
    | with_reducible exact done_settled | with_reducible exact settledO_fault | with_reducible exact settledO_refused
    | split | (with_reducible intro u)

theorem execSpiWrite_settled {table : Bool} {offset : BitVec 24} {value : Word} {s : State} : SettledO (execSpiWrite table offset value s) := by
  unfold execSpiWrite
  repeat' first
    | with_reducible exact done_settled | with_reducible exact settledO_fault | with_reducible exact settledO_refused
    | with_reducible apply busWrite_settled | split | (with_reducible intro u)

theorem execSpiRead_settled {table : Bool} {offset : BitVec 24} {s : State} : SettledO (execSpiRead table offset s) := by
  unfold execSpiRead
  try dsimp only
  repeat' first
    | with_reducible exact done_settled | with_reducible exact settledO_fault | with_reducible exact settledO_refused
    | split | (with_reducible intro u)

theorem execSpiResult_settled {s : State} : SettledO (execSpiResult s) := by
  unfold execSpiResult
  try dsimp only
  repeat' first
    | with_reducible exact done_settled | with_reducible exact settledO_fault | with_reducible exact settledO_refused
    | split | (with_reducible intro u)

theorem execSpiFrameError_settled {op : Fin 4} {clocks : Nat} {s : State} : SettledO (execSpiFrameError op clocks s) := by
  unfold execSpiFrameError
  try dsimp only
  repeat' first
    | with_reducible exact done_settled | with_reducible exact settledO_fault | with_reducible exact settledO_refused
    | split | (with_reducible intro u)

theorem issue_settled {n : Nat} {k : State → Host.Outcome State Fault Refusal} {s : State} (hk : ∀ u0, SettledO (k u0)) : SettledO (issue n k s) := by
  unfold issue
  repeat' first
    | with_reducible exact done_settled | with_reducible exact settledO_fault | with_reducible exact settledO_refused
    | with_reducible apply hk | split | (with_reducible intro u)

theorem plainOp_settled {n : Nat} {f : State → State} {s : State} : SettledO (plainOp n f s) := by
  unfold plainOp
  try dsimp only
  repeat' first
    | with_reducible exact done_settled | with_reducible exact settledO_fault | with_reducible exact settledO_refused
    | with_reducible apply issue_settled | split | (with_reducible intro u)

theorem loadOp_settled {n : Nat} {rb : Nat} {am : Nat} {size : Nat} {off : BitVec 13} {k : List Byte → State → State} {s : State} : SettledO (loadOp n rb am size off k s) := by
  unfold loadOp
  try dsimp only
  repeat' first
    | with_reducible exact done_settled | with_reducible exact settledO_fault | with_reducible exact settledO_refused
    | with_reducible apply issue_settled | split | (with_reducible intro u)

theorem settle_settled {s : State} : (settle s).fab.raised = [] := rfl

theorem selfHalt_settled {n : Nat} {o : Host.Outcome State Fault Refusal} (h : SettledO o) : SettledO (selfHalt n o) := by
  intro t e
  unfold selfHalt at e
  repeat' split at e
  all_goals first
    | (cases e; rfl)
    | exact h t e
    | cases e

theorem performStore_settled {n : Nat} {a : Nat} {bs : List Byte} {fromRom : Bool} {s : State} : SettledO (performStore n a bs fromRom s) := by
  unfold performStore
  repeat' first
    | with_reducible exact done_settled | with_reducible exact settledO_fault | with_reducible exact settledO_refused
    | with_reducible apply busWrite_settled | with_reducible apply selfHalt_settled | split | (with_reducible intro u)

theorem storeOp_settled {n : Nat} {rb : Nat} {am : Nat} {size : Nat} {off : BitVec 13} {bs : State → List Byte} {s : State} : SettledO (storeOp n rb am size off bs s) := by
  unfold storeOp
  try dsimp only
  repeat' first
    | with_reducible exact done_settled | with_reducible exact settledO_fault | with_reducible exact settledO_refused
    | with_reducible apply issue_settled | with_reducible apply performStore_settled | split | (with_reducible intro u)

theorem intOp_settled {n : Nat} {rd : Nat} {r : State → Word} {s : State} : SettledO (intOp n rd r s) := by
  unfold intOp
  try dsimp only
  repeat' first
    | with_reducible exact done_settled | with_reducible exact settledO_fault | with_reducible exact settledO_refused
    | with_reducible apply plainOp_settled | split | (with_reducible intro u)

theorem aluOp_settled {n : Nat} {rd : Nat} {f : State → Alu} {s : State} : SettledO (aluOp n rd f s) := by
  unfold aluOp
  try dsimp only
  repeat' first
    | with_reducible exact done_settled | with_reducible exact settledO_fault | with_reducible exact settledO_refused
    | with_reducible apply plainOp_settled | split | (with_reducible intro u)

theorem cmpOp_settled {n : Nat} {f : State → Alu} {s : State} : SettledO (cmpOp n f s) := by
  unfold cmpOp
  try dsimp only
  repeat' first
    | with_reducible exact done_settled | with_reducible exact settledO_fault | with_reducible exact settledO_refused
    | with_reducible apply plainOp_settled | split | (with_reducible intro u)

theorem intVOp_settled {n : Nat} {rd : Nat} {f : State → Word × Bool} {s : State} : SettledO (intVOp n rd f s) := by
  unfold intVOp
  try dsimp only
  repeat' first
    | with_reducible exact done_settled | with_reducible exact settledO_fault | with_reducible exact settledO_refused
    | with_reducible apply plainOp_settled | split | (with_reducible intro u)

theorem jumpOp_settled {n : Nat} {f : State → State} {target : State → Nat} {s : State} : SettledO (jumpOp n f target s) := by
  unfold jumpOp
  try dsimp only
  repeat' first
    | with_reducible exact done_settled | with_reducible exact settledO_fault | with_reducible exact settledO_refused
    | with_reducible apply issue_settled | split | (with_reducible intro u)

theorem execAdd_settled {n : Fin 5} {rd : Fin 16} {rs : Fin 16} {rt : Fin 16} {s : State} : SettledO (execAdd n rd rs rt s) := by
  unfold execAdd
  try dsimp only
  repeat' first
    | with_reducible exact done_settled | with_reducible exact settledO_fault | with_reducible exact settledO_refused
    | with_reducible apply aluOp_settled | split | (with_reducible intro u)

theorem execSub_settled {n : Fin 5} {rd : Fin 16} {rs : Fin 16} {rt : Fin 16} {s : State} : SettledO (execSub n rd rs rt s) := by
  unfold execSub
  try dsimp only
  repeat' first
    | with_reducible exact done_settled | with_reducible exact settledO_fault | with_reducible exact settledO_refused
    | with_reducible apply aluOp_settled | split | (with_reducible intro u)

theorem execAnd_settled {n : Fin 5} {rd : Fin 16} {rs : Fin 16} {rt : Fin 16} {s : State} : SettledO (execAnd n rd rs rt s) := by
  unfold execAnd
  try dsimp only
  repeat' first
    | with_reducible exact done_settled | with_reducible exact settledO_fault | with_reducible exact settledO_refused
    | with_reducible apply aluOp_settled | split | (with_reducible intro u)

theorem execOr_settled {n : Fin 5} {rd : Fin 16} {rs : Fin 16} {rt : Fin 16} {s : State} : SettledO (execOr n rd rs rt s) := by
  unfold execOr
  try dsimp only
  repeat' first
    | with_reducible exact done_settled | with_reducible exact settledO_fault | with_reducible exact settledO_refused
    | with_reducible apply aluOp_settled | split | (with_reducible intro u)

theorem execXor_settled {n : Fin 5} {rd : Fin 16} {rs : Fin 16} {rt : Fin 16} {s : State} : SettledO (execXor n rd rs rt s) := by
  unfold execXor
  try dsimp only
  repeat' first
    | with_reducible exact done_settled | with_reducible exact settledO_fault | with_reducible exact settledO_refused
    | with_reducible apply aluOp_settled | split | (with_reducible intro u)

theorem execShl_settled {n : Fin 5} {rd : Fin 16} {rs : Fin 16} {rt : Fin 16} {s : State} : SettledO (execShl n rd rs rt s) := by
  unfold execShl
  try dsimp only
  repeat' first
    | with_reducible exact done_settled | with_reducible exact settledO_fault | with_reducible exact settledO_refused
    | with_reducible apply aluOp_settled | split | (with_reducible intro u)

theorem execShr_settled {n : Fin 5} {rd : Fin 16} {rs : Fin 16} {rt : Fin 16} {s : State} : SettledO (execShr n rd rs rt s) := by
  unfold execShr
  try dsimp only
  repeat' first
    | with_reducible exact done_settled | with_reducible exact settledO_fault | with_reducible exact settledO_refused
    | with_reducible apply aluOp_settled | split | (with_reducible intro u)

theorem execSar_settled {n : Fin 5} {rd : Fin 16} {rs : Fin 16} {rt : Fin 16} {s : State} : SettledO (execSar n rd rs rt s) := by
  unfold execSar
  try dsimp only
  repeat' first
    | with_reducible exact done_settled | with_reducible exact settledO_fault | with_reducible exact settledO_refused
    | with_reducible apply aluOp_settled | split | (with_reducible intro u)

theorem execMul_settled {n : Fin 5} {rd : Fin 16} {rs : Fin 16} {rt : Fin 16} {s : State} : SettledO (execMul n rd rs rt s) := by
  unfold execMul
  try dsimp only
  repeat' first
    | with_reducible exact done_settled | with_reducible exact settledO_fault | with_reducible exact settledO_refused
    | with_reducible apply intOp_settled | split | (with_reducible intro u)

theorem execMulh_settled {n : Fin 5} {rd : Fin 16} {rs : Fin 16} {rt : Fin 16} {s : State} : SettledO (execMulh n rd rs rt s) := by
  unfold execMulh
  try dsimp only
  repeat' first
    | with_reducible exact done_settled | with_reducible exact settledO_fault | with_reducible exact settledO_refused
    | with_reducible apply intOp_settled | split | (with_reducible intro u)

theorem execDiv_settled {n : Fin 5} {rd : Fin 16} {rs : Fin 16} {rt : Fin 16} {s : State} : SettledO (execDiv n rd rs rt s) := by
  unfold execDiv
  try dsimp only
  repeat' first
    | with_reducible exact done_settled | with_reducible exact settledO_fault | with_reducible exact settledO_refused
    | with_reducible apply intVOp_settled | split | (with_reducible intro u)

theorem execDivu_settled {n : Fin 5} {rd : Fin 16} {rs : Fin 16} {rt : Fin 16} {s : State} : SettledO (execDivu n rd rs rt s) := by
  unfold execDivu
  try dsimp only
  repeat' first
    | with_reducible exact done_settled | with_reducible exact settledO_fault | with_reducible exact settledO_refused
    | with_reducible apply intVOp_settled | split | (with_reducible intro u)

theorem execMin_settled {n : Fin 5} {rd : Fin 16} {rs : Fin 16} {rt : Fin 16} {s : State} : SettledO (execMin n rd rs rt s) := by
  unfold execMin
  try dsimp only
  repeat' first
    | with_reducible exact done_settled | with_reducible exact settledO_fault | with_reducible exact settledO_refused
    | with_reducible apply intOp_settled | split | (with_reducible intro u)

theorem execMax_settled {n : Fin 5} {rd : Fin 16} {rs : Fin 16} {rt : Fin 16} {s : State} : SettledO (execMax n rd rs rt s) := by
  unfold execMax
  try dsimp only
  repeat' first
    | with_reducible exact done_settled | with_reducible exact settledO_fault | with_reducible exact settledO_refused
    | with_reducible apply intOp_settled | split | (with_reducible intro u)

theorem execCmp_settled {n : Fin 5} {rs : Fin 16} {rt : Fin 16} {s : State} : SettledO (execCmp n rs rt s) := by
  unfold execCmp
  try dsimp only
  repeat' first
    | with_reducible exact done_settled | with_reducible exact settledO_fault | with_reducible exact settledO_refused
    | with_reducible apply cmpOp_settled | split | (with_reducible intro u)

theorem execJr_settled {n : Fin 5} {rs : Fin 16} {s : State} : SettledO (execJr n rs s) := by
  unfold execJr
  try dsimp only
  repeat' first
    | with_reducible exact done_settled | with_reducible exact settledO_fault | with_reducible exact settledO_refused
    | with_reducible apply jumpOp_settled | split | (with_reducible intro u)

theorem execJalr_settled {n : Fin 5} {rd : Fin 16} {rs : Fin 16} {s : State} : SettledO (execJalr n rd rs s) := by
  unfold execJalr
  try dsimp only
  repeat' first
    | with_reducible exact done_settled | with_reducible exact settledO_fault | with_reducible exact settledO_refused
    | with_reducible apply jumpOp_settled | split | (with_reducible intro u)

theorem execAddi_settled {n : Fin 5} {rd : Fin 16} {rs : Fin 16} {imm : BitVec 14} {s : State} : SettledO (execAddi n rd rs imm s) := by
  unfold execAddi
  try dsimp only
  repeat' first
    | with_reducible exact done_settled | with_reducible exact settledO_fault | with_reducible exact settledO_refused
    | with_reducible apply aluOp_settled | split | (with_reducible intro u)

theorem execAndi_settled {n : Fin 5} {rd : Fin 16} {rs : Fin 16} {imm : BitVec 14} {s : State} : SettledO (execAndi n rd rs imm s) := by
  unfold execAndi
  try dsimp only
  repeat' first
    | with_reducible exact done_settled | with_reducible exact settledO_fault | with_reducible exact settledO_refused
    | with_reducible apply aluOp_settled | split | (with_reducible intro u)

theorem execOri_settled {n : Fin 5} {rd : Fin 16} {rs : Fin 16} {imm : BitVec 14} {s : State} : SettledO (execOri n rd rs imm s) := by
  unfold execOri
  try dsimp only
  repeat' first
    | with_reducible exact done_settled | with_reducible exact settledO_fault | with_reducible exact settledO_refused
    | with_reducible apply aluOp_settled | split | (with_reducible intro u)

theorem execXori_settled {n : Fin 5} {rd : Fin 16} {rs : Fin 16} {imm : BitVec 14} {s : State} : SettledO (execXori n rd rs imm s) := by
  unfold execXori
  try dsimp only
  repeat' first
    | with_reducible exact done_settled | with_reducible exact settledO_fault | with_reducible exact settledO_refused
    | with_reducible apply aluOp_settled | split | (with_reducible intro u)

theorem execShli_settled {n : Fin 5} {rd : Fin 16} {rs : Fin 16} {sh : BitVec 5} {s : State} : SettledO (execShli n rd rs sh s) := by
  unfold execShli
  try dsimp only
  repeat' first
    | with_reducible exact done_settled | with_reducible exact settledO_fault | with_reducible exact settledO_refused
    | with_reducible apply aluOp_settled | split | (with_reducible intro u)

theorem execShri_settled {n : Fin 5} {rd : Fin 16} {rs : Fin 16} {sh : BitVec 5} {s : State} : SettledO (execShri n rd rs sh s) := by
  unfold execShri
  try dsimp only
  repeat' first
    | with_reducible exact done_settled | with_reducible exact settledO_fault | with_reducible exact settledO_refused
    | with_reducible apply aluOp_settled | split | (with_reducible intro u)

theorem execSari_settled {n : Fin 5} {rd : Fin 16} {rs : Fin 16} {sh : BitVec 5} {s : State} : SettledO (execSari n rd rs sh s) := by
  unfold execSari
  try dsimp only
  repeat' first
    | with_reducible exact done_settled | with_reducible exact settledO_fault | with_reducible exact settledO_refused
    | with_reducible apply aluOp_settled | split | (with_reducible intro u)

theorem execCmpi_settled {n : Fin 5} {rs : Fin 16} {imm : BitVec 14} {s : State} : SettledO (execCmpi n rs imm s) := by
  unfold execCmpi
  try dsimp only
  repeat' first
    | with_reducible exact done_settled | with_reducible exact settledO_fault | with_reducible exact settledO_refused
    | with_reducible apply cmpOp_settled | split | (with_reducible intro u)

theorem execLui_settled {n : Fin 5} {rd : Fin 16} {imm : BitVec 18} {s : State} : SettledO (execLui n rd imm s) := by
  unfold execLui
  try dsimp only
  repeat' first
    | with_reducible exact done_settled | with_reducible exact settledO_fault | with_reducible exact settledO_refused
    | with_reducible apply intOp_settled | split | (with_reducible intro u)

theorem accumulate_settled {n : Nat} {one : Bool} {f : State → Int} {s : State} : SettledO (accumulate n one f s) := by
  unfold accumulate
  try dsimp only
  repeat' first
    | with_reducible exact done_settled | with_reducible exact settledO_fault | with_reducible exact settledO_refused
    | with_reducible apply plainOp_settled | split | (with_reducible intro u)

theorem execMac_settled {n : Fin 5} {acc : Bool} {rs : Fin 16} {rt : Fin 16} {s : State} : SettledO (execMac n acc rs rt s) := by
  unfold execMac
  try dsimp only
  repeat' first
    | with_reducible exact done_settled | with_reducible exact settledO_fault | with_reducible exact settledO_refused
    | with_reducible apply accumulate_settled | split | (with_reducible intro u)

theorem execMsu_settled {n : Fin 5} {acc : Bool} {rs : Fin 16} {rt : Fin 16} {s : State} : SettledO (execMsu n acc rs rt s) := by
  unfold execMsu
  try dsimp only
  repeat' first
    | with_reducible exact done_settled | with_reducible exact settledO_fault | with_reducible exact settledO_refused
    | with_reducible apply accumulate_settled | split | (with_reducible intro u)

theorem execAccr_settled {n : Fin 5} {rd : Fin 16} {acc : Bool} {raw : Bool} {sh : Fin 64} {s : State} : SettledO (execAccr n rd acc raw sh s) := by
  unfold execAccr
  try dsimp only
  repeat' first
    | with_reducible exact done_settled | with_reducible exact settledO_fault | with_reducible exact settledO_refused
    | with_reducible apply intVOp_settled | with_reducible apply issue_settled | split | (with_reducible intro u)

theorem execAccw_settled {n : Fin 5} {acc : Bool} {clear : Bool} {rs : Fin 16} {rt : Fin 16} {s : State} : SettledO (execAccw n acc clear rs rt s) := by
  unfold execAccw
  try dsimp only
  repeat' first
    | with_reducible exact done_settled | with_reducible exact settledO_fault | with_reducible exact settledO_refused
    | with_reducible apply plainOp_settled | split | (with_reducible intro u)

theorem execSat_settled {n : Fin 5} {rd : Fin 16} {rs : Fin 16} {m : Fin 32} {s : State} : SettledO (execSat n rd rs m s) := by
  unfold execSat
  try dsimp only
  repeat' first
    | with_reducible exact done_settled | with_reducible exact settledO_fault | with_reducible exact settledO_refused
    | with_reducible apply intVOp_settled | split | (with_reducible intro u)

theorem execBcc_settled {n : Fin 5} {cnd : Fin 15} {off : BitVec 20} {s : State} : SettledO (execBcc n cnd off s) := by
  unfold execBcc
  try dsimp only
  repeat' first
    | with_reducible exact done_settled | with_reducible exact settledO_fault | with_reducible exact settledO_refused
    | with_reducible apply jumpOp_settled | split | (with_reducible intro u)

theorem execCbr_settled {n : Fin 5} {rs : Fin 16} {t : Fin 4} {off : BitVec 20} {s : State} : SettledO (execCbr n rs t off s) := by
  unfold execCbr
  try dsimp only
  repeat' first
    | with_reducible exact done_settled | with_reducible exact settledO_fault | with_reducible exact settledO_refused
    | with_reducible apply jumpOp_settled | split | (with_reducible intro u)

theorem execJ_settled {n : Fin 5} {off : BitVec 26} {s : State} : SettledO (execJ n off s) := by
  unfold execJ
  try dsimp only
  repeat' first
    | with_reducible exact done_settled | with_reducible exact settledO_fault | with_reducible exact settledO_refused
    | with_reducible apply jumpOp_settled | split | (with_reducible intro u)

theorem execJal_settled {n : Fin 5} {off : BitVec 26} {s : State} : SettledO (execJal n off s) := by
  unfold execJal
  try dsimp only
  repeat' first
    | with_reducible exact done_settled | with_reducible exact settledO_fault | with_reducible exact settledO_refused
    | with_reducible apply jumpOp_settled | split | (with_reducible intro u)

theorem execQpop_settled {n : Fin 5} {wd : Fin 14} {q : BitVec 8} {s : State} : SettledO (execQpop n wd q s) := by
  unfold execQpop
  try dsimp only
  repeat' first
    | with_reducible exact done_settled | with_reducible exact settledO_fault | with_reducible exact settledO_refused
    | with_reducible apply issue_settled | split | (with_reducible intro u)

theorem execQlen_settled {n : Fin 5} {wd : Fin 16} {q : BitVec 8} {s : State} : SettledO (execQlen n wd q s) := by
  unfold execQlen
  try dsimp only
  repeat' first
    | with_reducible exact done_settled | with_reducible exact settledO_fault | with_reducible exact settledO_refused
    | with_reducible apply issue_settled | split | (with_reducible intro u)

theorem execQpush_settled {n : Fin 5} {p : BitVec 8} {ws : Fin 16} {wt : Fin 16} {s : State} : SettledO (execQpush n p ws wt s) := by
  unfold execQpush
  try dsimp only
  repeat' first
    | with_reducible exact done_settled | with_reducible exact settledO_fault | with_reducible exact settledO_refused
    | with_reducible apply afterStores_settled | with_reducible apply issue_settled | split | (with_reducible intro u)

theorem execWait_settled {n : Fin 5} {wd : Fin 16} {g : Fin 8} {ws : Fin 16} {wt : Fin 16} {s : State} : SettledO (execWait n wd g ws wt s) := by
  unfold execWait
  try dsimp only
  repeat' first
    | with_reducible exact done_settled | with_reducible exact settledO_fault | with_reducible exact settledO_refused
    | with_reducible apply issue_settled | split | (with_reducible intro u)

theorem execPost_settled {n : Fin 5} {e : BitVec 8} {s : State} : SettledO (execPost n e s) := by
  unfold execPost
  try dsimp only
  repeat' first
    | with_reducible exact done_settled | with_reducible exact settledO_fault | with_reducible exact settledO_refused
    | with_reducible apply afterStores_settled | with_reducible apply issue_settled | split | (with_reducible intro u)

theorem execPostr_settled {n : Fin 5} {ws : Fin 16} {s : State} : SettledO (execPostr n ws s) := by
  unfold execPostr
  try dsimp only
  repeat' first
    | with_reducible exact done_settled | with_reducible exact settledO_fault | with_reducible exact settledO_refused
    | with_reducible apply afterStores_settled | with_reducible apply issue_settled | split | (with_reducible intro u)

theorem execStamp_settled {n : Fin 5} {wd : Fin 15} {laps : Bool} {ofs : Nat} {s : State} : SettledO (execStamp n wd laps ofs s) := by
  unfold execStamp
  try dsimp only
  repeat' first
    | with_reducible exact done_settled | with_reducible exact settledO_fault | with_reducible exact settledO_refused
    | with_reducible apply plainOp_settled | split | (with_reducible intro u)

theorem execTally_settled {n : Fin 5} {wd : Fin 16} {k : Fin 4} {vel : Bool} {ofs : Nat} {s : State} : SettledO (execTally n wd k vel ofs s) := by
  unfold execTally
  try dsimp only
  repeat' first
    | with_reducible exact done_settled | with_reducible exact settledO_fault | with_reducible exact settledO_refused
    | with_reducible apply issue_settled | split | (with_reducible intro u)

theorem execNop_settled {n : Fin 5} {s : State} : SettledO (execNop n s) := by
  unfold execNop
  try dsimp only
  repeat' first
    | with_reducible exact done_settled | with_reducible exact settledO_fault | with_reducible exact settledO_refused
    | with_reducible apply plainOp_settled | split | (with_reducible intro u)

theorem execFence_settled {n : Fin 5} {s : State} : SettledO (execFence n s) := by
  unfold execFence
  try dsimp only
  repeat' first
    | with_reducible exact done_settled | with_reducible exact settledO_fault | with_reducible exact settledO_refused
    | with_reducible apply afterStores_settled | with_reducible apply issue_settled | split | (with_reducible intro u)

theorem execSyscall_settled {n : Fin 5} {code : BitVec 8} {s : State} : SettledO (execSyscall n code s) := by
  unfold execSyscall
  try dsimp only
  repeat' first
    | with_reducible exact done_settled | with_reducible exact settledO_fault | with_reducible exact settledO_refused
    | with_reducible apply issue_settled | split | (with_reducible intro u)

theorem execEret_settled {n : Fin 5} {s : State} : SettledO (execEret n s) := by
  unfold execEret
  try dsimp only
  repeat' first
    | with_reducible exact done_settled | with_reducible exact settledO_fault | with_reducible exact settledO_refused
    | with_reducible apply issue_settled | split | (with_reducible intro u)

theorem execMfsr_settled {n : Fin 5} {rd : Fin 16} {sr : Fin 10} {ofs : Nat} {s : State} : SettledO (execMfsr n rd sr ofs s) := by
  unfold execMfsr
  try dsimp only
  repeat' first
    | with_reducible exact done_settled | with_reducible exact settledO_fault | with_reducible exact settledO_refused
    | with_reducible apply issue_settled | split | (with_reducible intro u)

theorem execMtsr_settled {n : Fin 5} {sr : Fin 10} {rs : Fin 16} {s : State} : SettledO (execMtsr n sr rs s) := by
  unfold execMtsr
  try dsimp only
  repeat' first
    | with_reducible exact done_settled | with_reducible exact settledO_fault | with_reducible exact settledO_refused
    | with_reducible apply issue_settled | split | (with_reducible intro u)

theorem execIllegalInstruction_settled {n : Fin 5} {word : Word} {s : State} : SettledO (execIllegalInstruction n word s) := by
  unfold execIllegalInstruction
  try dsimp only
  repeat' first
    | with_reducible exact done_settled | with_reducible exact settledO_fault | with_reducible exact settledO_refused
    | with_reducible apply issue_settled | split | (with_reducible intro u)

theorem execFetchFault_settled {n : Fin 5} {s : State} : SettledO (execFetchFault n s) := by
  unfold execFetchFault
  repeat' first
    | with_reducible exact done_settled | with_reducible exact settledO_fault | with_reducible exact settledO_refused
    | with_reducible apply issue_settled | split | (with_reducible intro u)

theorem floatOp_settled {n : Nat} {fd : Nat} {f : State → FVal} {s : State} : SettledO (floatOp n fd f s) := by
  unfold floatOp
  try dsimp only
  repeat' first
    | with_reducible exact done_settled | with_reducible exact settledO_fault | with_reducible exact settledO_refused
    | with_reducible apply plainOp_settled | split | (with_reducible intro u)

theorem execFadd_settled {n : Fin 5} {fd : Fin 8} {fs : Fin 8} {ft : Fin 8} {s : State} : SettledO (execFadd n fd fs ft s) := by
  unfold execFadd
  try dsimp only
  repeat' first
    | with_reducible exact done_settled | with_reducible exact settledO_fault | with_reducible exact settledO_refused
    | with_reducible apply floatOp_settled | split | (with_reducible intro u)

theorem execFsub_settled {n : Fin 5} {fd : Fin 8} {fs : Fin 8} {ft : Fin 8} {s : State} : SettledO (execFsub n fd fs ft s) := by
  unfold execFsub
  try dsimp only
  repeat' first
    | with_reducible exact done_settled | with_reducible exact settledO_fault | with_reducible exact settledO_refused
    | with_reducible apply floatOp_settled | split | (with_reducible intro u)

theorem execFmul_settled {n : Fin 5} {fd : Fin 8} {fs : Fin 8} {ft : Fin 8} {s : State} : SettledO (execFmul n fd fs ft s) := by
  unfold execFmul
  try dsimp only
  repeat' first
    | with_reducible exact done_settled | with_reducible exact settledO_fault | with_reducible exact settledO_refused
    | with_reducible apply floatOp_settled | split | (with_reducible intro u)

theorem execFdiv_settled {n : Fin 5} {fd : Fin 8} {fs : Fin 8} {ft : Fin 8} {s : State} : SettledO (execFdiv n fd fs ft s) := by
  unfold execFdiv
  try dsimp only
  repeat' first
    | with_reducible exact done_settled | with_reducible exact settledO_fault | with_reducible exact settledO_refused
    | with_reducible apply floatOp_settled | split | (with_reducible intro u)

theorem execFsqrt_settled {n : Fin 5} {fd : Fin 8} {fs : Fin 8} {s : State} : SettledO (execFsqrt n fd fs s) := by
  unfold execFsqrt
  try dsimp only
  repeat' first
    | with_reducible exact done_settled | with_reducible exact settledO_fault | with_reducible exact settledO_refused
    | with_reducible apply floatOp_settled | split | (with_reducible intro u)

theorem execFmac_settled {n : Fin 5} {fd : Fin 8} {fs : Fin 8} {ft : Fin 8} {s : State} : SettledO (execFmac n fd fs ft s) := by
  unfold execFmac
  try dsimp only
  repeat' first
    | with_reducible exact done_settled | with_reducible exact settledO_fault | with_reducible exact settledO_refused
    | with_reducible apply floatOp_settled | split | (with_reducible intro u)

theorem execFmin_settled {n : Fin 5} {fd : Fin 8} {fs : Fin 8} {ft : Fin 8} {s : State} : SettledO (execFmin n fd fs ft s) := by
  unfold execFmin
  try dsimp only
  repeat' first
    | with_reducible exact done_settled | with_reducible exact settledO_fault | with_reducible exact settledO_refused
    | with_reducible apply floatOp_settled | split | (with_reducible intro u)

theorem execFmax_settled {n : Fin 5} {fd : Fin 8} {fs : Fin 8} {ft : Fin 8} {s : State} : SettledO (execFmax n fd fs ft s) := by
  unfold execFmax
  try dsimp only
  repeat' first
    | with_reducible exact done_settled | with_reducible exact settledO_fault | with_reducible exact settledO_refused
    | with_reducible apply floatOp_settled | split | (with_reducible intro u)

theorem execFabs_settled {n : Fin 5} {fd : Fin 8} {fs : Fin 8} {s : State} : SettledO (execFabs n fd fs s) := by
  unfold execFabs
  try dsimp only
  repeat' first
    | with_reducible exact done_settled | with_reducible exact settledO_fault | with_reducible exact settledO_refused
    | with_reducible apply floatOp_settled | split | (with_reducible intro u)

theorem execFneg_settled {n : Fin 5} {fd : Fin 8} {fs : Fin 8} {s : State} : SettledO (execFneg n fd fs s) := by
  unfold execFneg
  try dsimp only
  repeat' first
    | with_reducible exact done_settled | with_reducible exact settledO_fault | with_reducible exact settledO_refused
    | with_reducible apply floatOp_settled | split | (with_reducible intro u)

theorem execFcmp_settled {n : Fin 5} {fs : Fin 8} {ft : Fin 8} {s : State} : SettledO (execFcmp n fs ft s) := by
  unfold execFcmp
  try dsimp only
  repeat' first
    | with_reducible exact done_settled | with_reducible exact settledO_fault | with_reducible exact settledO_refused
    | with_reducible apply plainOp_settled | split | (with_reducible intro u)

theorem execFcvtsw_settled {n : Fin 5} {fd : Fin 8} {ws : Fin 16} {s : State} : SettledO (execFcvtsw n fd ws s) := by
  unfold execFcvtsw
  try dsimp only
  repeat' first
    | with_reducible exact done_settled | with_reducible exact settledO_fault | with_reducible exact settledO_refused
    | with_reducible apply floatOp_settled | split | (with_reducible intro u)

theorem execFcvtws_settled {n : Fin 5} {wd : Fin 16} {fs : Fin 8} {trunc : Bool} {s : State} : SettledO (execFcvtws n wd fs trunc s) := by
  unfold execFcvtws
  try dsimp only
  repeat' first
    | with_reducible exact done_settled | with_reducible exact settledO_fault | with_reducible exact settledO_refused
    | with_reducible apply intVOp_settled | split | (with_reducible intro u)

theorem execFmvwf_settled {n : Fin 5} {wd : Fin 16} {fs : Fin 8} {s : State} : SettledO (execFmvwf n wd fs s) := by
  unfold execFmvwf
  try dsimp only
  repeat' first
    | with_reducible exact done_settled | with_reducible exact settledO_fault | with_reducible exact settledO_refused
    | with_reducible apply intOp_settled | split | (with_reducible intro u)

theorem execFmvfw_settled {n : Fin 5} {fd : Fin 8} {ws : Fin 16} {s : State} : SettledO (execFmvfw n fd ws s) := by
  unfold execFmvfw
  try dsimp only
  repeat' first
    | with_reducible exact done_settled | with_reducible exact settledO_fault | with_reducible exact settledO_refused
    | with_reducible apply plainOp_settled | split | (with_reducible intro u)

theorem tableWord_settled {n a : Nat} {s : State} {o : Host.Outcome State Fault Refusal} (e : tableWord n a s = .error o) : SettledO o := by
  unfold tableWord at e
  dsimp only at e
  repeat' split at e
  · cases e
    exact done_settled
  · cases e
    exact done_settled
  · cases e

theorem interpolate_settled {n a last : Nat} {x : FVal} {s : State} {o : Host.Outcome State Fault Refusal}
    (e : interpolate n a last x s = .error o) : SettledO o := by
  unfold interpolate at e
  dsimp only at e
  repeat' split at e
  all_goals first
    | (cases e; done)
    | (cases e; exact tableWord_settled (by assumption))

theorem tinterp_settled {n a : Nat} {x : FVal} {s : State} {o : Host.Outcome State Fault Refusal}
    (e : tinterp n a x s = .error o) : SettledO o := by
  unfold tinterp at e
  dsimp only at e
  repeat' split at e
  all_goals first
    | (cases e; done)
    | (cases e; exact tableWord_settled (by assumption))
    | (cases e; exact interpolate_settled (by assumption))

theorem execTinterp_settled {n : Fin 5} {fd : Fin 8} {fs : Fin 8} {ws : Fin 16} {s : State} : SettledO (execTinterp n fd fs ws s) := by
  unfold execTinterp
  apply issue_settled
  intro u
  split
  · exact tinterp_settled (by assumption)
  · exact done_settled

theorem loadReg_settled {n : Nat} {rd : Nat} {rb : Nat} {am : Nat} {size : Nat} {sx : Bool} {off : BitVec 13} {s : State} : SettledO (loadReg n rd rb am size sx off s) := by
  unfold loadReg
  try dsimp only
  repeat' first
    | with_reducible exact done_settled | with_reducible exact settledO_fault | with_reducible exact settledO_refused
    | with_reducible apply loadOp_settled | split | (with_reducible intro u)

theorem execLdb_settled {n : Fin 5} {rd : Fin 16} {rb : Fin 16} {am : Fin 3} {off : BitVec 13} {s : State} : SettledO (execLdb n rd rb am off s) := by
  unfold execLdb
  repeat' first
    | with_reducible exact done_settled | with_reducible exact settledO_fault | with_reducible exact settledO_refused
    | with_reducible apply loadReg_settled | split | (with_reducible intro u)

theorem execLdbu_settled {n : Fin 5} {rd : Fin 16} {rb : Fin 16} {am : Fin 3} {off : BitVec 13} {s : State} : SettledO (execLdbu n rd rb am off s) := by
  unfold execLdbu
  repeat' first
    | with_reducible exact done_settled | with_reducible exact settledO_fault | with_reducible exact settledO_refused
    | with_reducible apply loadReg_settled | split | (with_reducible intro u)

theorem execLdh_settled {n : Fin 5} {rd : Fin 16} {rb : Fin 16} {am : Fin 3} {off : BitVec 13} {s : State} : SettledO (execLdh n rd rb am off s) := by
  unfold execLdh
  repeat' first
    | with_reducible exact done_settled | with_reducible exact settledO_fault | with_reducible exact settledO_refused
    | with_reducible apply loadReg_settled | split | (with_reducible intro u)

theorem execLdhu_settled {n : Fin 5} {rd : Fin 16} {rb : Fin 16} {am : Fin 3} {off : BitVec 13} {s : State} : SettledO (execLdhu n rd rb am off s) := by
  unfold execLdhu
  repeat' first
    | with_reducible exact done_settled | with_reducible exact settledO_fault | with_reducible exact settledO_refused
    | with_reducible apply loadReg_settled | split | (with_reducible intro u)

theorem execLdw_settled {n : Fin 5} {rd : Fin 16} {rb : Fin 16} {am : Fin 3} {off : BitVec 13} {s : State} : SettledO (execLdw n rd rb am off s) := by
  unfold execLdw
  repeat' first
    | with_reducible exact done_settled | with_reducible exact settledO_fault | with_reducible exact settledO_refused
    | with_reducible apply loadReg_settled | split | (with_reducible intro u)

theorem execFld_settled {n : Fin 5} {fd : Fin 8} {rb : Fin 16} {am : Fin 3} {off : BitVec 13} {s : State} : SettledO (execFld n fd rb am off s) := by
  unfold execFld
  try dsimp only
  repeat' first
    | with_reducible exact done_settled | with_reducible exact settledO_fault | with_reducible exact settledO_refused
    | with_reducible apply loadOp_settled | split | (with_reducible intro u)

theorem execFldd_settled {n : Fin 5} {fd : Fin 8} {rb : Fin 16} {am : Fin 3} {off : BitVec 13} {s : State} : SettledO (execFldd n fd rb am off s) := by
  unfold execFldd
  try dsimp only
  repeat' first
    | with_reducible exact done_settled | with_reducible exact settledO_fault | with_reducible exact settledO_refused
    | with_reducible apply loadOp_settled | split | (with_reducible intro u)

theorem storeReg_settled {n : Nat} {rd : Nat} {rb : Nat} {am : Nat} {size : Nat} {off : BitVec 13} {s : State} : SettledO (storeReg n rd rb am size off s) := by
  unfold storeReg
  try dsimp only
  repeat' first
    | with_reducible exact done_settled | with_reducible exact settledO_fault | with_reducible exact settledO_refused
    | with_reducible apply storeOp_settled | split | (with_reducible intro u)

theorem execStb_settled {n : Fin 5} {rd : Fin 16} {rb : Fin 16} {am : Fin 3} {off : BitVec 13} {s : State} : SettledO (execStb n rd rb am off s) := by
  unfold execStb
  repeat' first
    | with_reducible exact done_settled | with_reducible exact settledO_fault | with_reducible exact settledO_refused
    | with_reducible apply storeReg_settled | split | (with_reducible intro u)

theorem execSth_settled {n : Fin 5} {rd : Fin 16} {rb : Fin 16} {am : Fin 3} {off : BitVec 13} {s : State} : SettledO (execSth n rd rb am off s) := by
  unfold execSth
  repeat' first
    | with_reducible exact done_settled | with_reducible exact settledO_fault | with_reducible exact settledO_refused
    | with_reducible apply storeReg_settled | split | (with_reducible intro u)

theorem execStw_settled {n : Fin 5} {rd : Fin 16} {rb : Fin 16} {am : Fin 3} {off : BitVec 13} {s : State} : SettledO (execStw n rd rb am off s) := by
  unfold execStw
  repeat' first
    | with_reducible exact done_settled | with_reducible exact settledO_fault | with_reducible exact settledO_refused
    | with_reducible apply storeReg_settled | split | (with_reducible intro u)

theorem execFst_settled {n : Fin 5} {fd : Fin 8} {rb : Fin 16} {am : Fin 3} {off : BitVec 13} {s : State} : SettledO (execFst n fd rb am off s) := by
  unfold execFst
  try dsimp only
  repeat' first
    | with_reducible exact done_settled | with_reducible exact settledO_fault | with_reducible exact settledO_refused
    | with_reducible apply storeOp_settled | split | (with_reducible intro u)

theorem execLapBoundary_settled {inp : LapIn} {s : State} : SettledO (execLapBoundary inp s) := by
  unfold execLapBoundary
  try dsimp only
  repeat' first
    | with_reducible exact done_settled | with_reducible exact settledO_fault | with_reducible exact settledO_refused
    | split | (with_reducible intro u)

theorem execCommandAbortedAtBoundary_settled {addr : Nat} {s : State} : SettledO (execCommandAbortedAtBoundary addr s) := by
  unfold execCommandAbortedAtBoundary
  repeat' first
    | with_reducible exact done_settled | with_reducible exact settledO_fault | with_reducible exact settledO_refused
    | split | (with_reducible intro u)

end Sys2Proof.Machine
end

