-- ==== Sys2Proof/Machine/Pins.lean ====
section
/-!
DEFINITION. The balls of the package and what they carry, and the state of every signal in reset, in REST and in SHELVED
(spec/17_pins_electrical.md R441 to R451). No command acts on a ball: these are what a board sees of the state.
-/
namespace Sys2Proof.Machine
open Sys2Proof

/-! ### The ball map (R441 to R448) -/

/-- The supplies and grounds (R448, R452). -/
inductive Rail where
  | vss | agnd | vddDig | vddSram | vddLane | vddqDmc | vddDmc | vddIo33 | vddIo18 | vaon | vana | vanaD | vhvPos | vhvNeg | vexcPos | vexcNeg
deriving DecidableEq, Repr

/-- The signals of R449, with P and N legs or T and C legs apart. -/
inductive Pin where
  | ainP | ainN | excP | excN | snsP | snsN | tsnsP | tsnsN | plugDetN | aout
  | trigIn | trigOut | encA | encB | encZ | pwm | gpio | trigBus | mainsIn | holdOut | holdIn | svcLed | sfpScl | sfpSda
  | spiSclk | spiCsN | spiMosi | spiMiso | qspiClk | qspiCsN | qspiIo | tck | tms | tdi | tdo | trstN | porstN | wakeN | svcBtnN | railEn
  | refclkP | refclkN | ltxP | ltxN | lrxP | lrxN
  | dq (chan : Bool) | dqsT (chan : Bool) | dqsC (chan : Bool) | dmi (chan : Bool) | ca (chan : Bool) | ckT (chan : Bool)
  | ckC (chan : Bool) | cke (chan : Bool) | cs (chan : Bool) | resetN (chan : Bool) | zq (chan : Bool)
deriving DecidableEq, Repr

/-- What a ball carries: a rail, or a signal with its index. -/
inductive Net where
  | rail (r : Rail)
  | pin (p : Pin) (i : Nat)
deriving DecidableEq, Repr

/-- Consecutive signals `p[lo]` up. -/
def run (p : Pin) (lo n : Nat) : List Net := (List.range n).map (fun i => .pin p (lo + i))

/-- `n` balls of a rail. -/
def rails (r : Rail) (n : Nat) : List Net := List.replicate n (.rail r)

/-- The ball of bank `b` in row `r` (R443). -/
def bankBall (b r : Nat) (p : Bool) : Net :=
  if r ≤ 16 then .pin (if p then .ainP else .ainN) (16 * b + (r - 1))
  else match r, p with
    | 17, true => .pin .excP b
    | 17, false => .pin .excN b
    | 18, true => .pin .snsP b
    | 18, false => .pin .snsN b
    | 19, true => .pin .tsnsP b
    | 19, false => .pin .tsnsN b
    | _, true => .pin .plugDetN b
    | _, false => .rail .agnd

/-- The analog supply block (R444). -/
def supplyBall (r c : Nat) : Net :=
  if c ≤ 35 then (if r ≤ 8 then .pin .aout (2 * (r - 1) + (c - 34)) else .rail .agnd)
  else if c ≤ 37 then .rail (if r ≤ 8 then .vexcPos else if r ≤ 16 then .vexcNeg else .agnd)
  else if c ≤ 39 then .rail (if r ≤ 4 then .vhvPos else if r ≤ 8 then .vhvNeg else .vana)
  else .rail (if r ≤ 8 then .vanaD else .agnd)

/-- A row of the lane block, columns 1 to 10 (R445). -/
def laneRow (r : Nat) : List Net :=
  let pairs := fun (p n : Pin) => (List.range 4).flatMap (fun k => [Net.pin p k, Net.pin n k])
  match r with
  | 24 => rails .vss 1 ++ pairs .ltxP .ltxN ++ rails .vss 1
  | 27 => rails .vss 1 ++ pairs .lrxP .lrxN ++ rails .vss 1
  | 26 => rails .vddLane 10
  | 30 => rails .vddLane 10
  | 29 => rails .vss 1 ++ [.pin .refclkP 0, .pin .refclkN 0] ++ rails .vss 1 ++ rails .vddLane 4 ++ rails .vss 2
  | _ => rails .vss 10

/-- A row of the logic block, columns 30 to 41 (R446). -/
def logicRow (r : Nat) : List Net :=
  match r with
  | 23 => run .trigIn 0 8 ++ run .trigOut 0 4
  | 24 => run .encA 0 4 ++ run .encB 0 4 ++ run .encZ 0 4
  | 25 => run .pwm 0 12
  | 26 => run .pwm 12 4 ++ run .gpio 0 8
  | 27 => run .trigBus 0 1 ++ run .mainsIn 0 1 ++ run .holdOut 0 1 ++ run .holdIn 0 1 ++ run .svcLed 0 3 ++ run .sfpScl 0 1 ++
      run .sfpSda 0 1 ++ run .sfpScl 1 1 ++ run .sfpSda 1 1 ++ rails .vss 1
  | 28 => run .spiSclk 0 1 ++ run .spiCsN 0 1 ++ run .spiMosi 0 1 ++ run .spiMiso 0 1 ++ rails .vddIo33 8
  | 29 => run .qspiClk 0 1 ++ run .qspiCsN 0 1 ++ run .qspiIo 0 4 ++ run .tck 0 1 ++ run .tms 0 1 ++ run .tdi 0 1 ++ run .tdo 0 1 ++
      run .trstN 0 1 ++ rails .vss 1
  | _ => run .porstN 0 1 ++ run .wakeN 0 1 ++ run .svcBtnN 0 1 ++ run .railEn 0 1 ++ rails .vaon 4 ++ rails .vddIo18 4

/-- A row of DRAM channel A, columns 1 to 10; channel B mirrors it (R448). -/
def dramRow (ch : Bool) (r : Nat) : List Net :=
  let data := fun (lo : Nat) => rails .vss 1 ++ run (.dq ch) lo 8 ++ rails .vss 1
  let strobe := fun (k : Nat) => rails .vss 2 ++ [.pin (.dqsT ch) k, .pin (.dqsC ch) k, .pin (.dmi ch) k] ++ rails .vss 1 ++ rails .vddqDmc 2 ++
    rails .vss 2
  let supply := rails .vss 1 ++ rails .vddqDmc 4 ++ rails .vss 1 ++ rails .vddDmc 2 ++ rails .vss 2
  match r with
  | 31 => data 0
  | 32 => strobe 0
  | 33 => data 8
  | 34 => strobe 1
  | 35 => supply
  | 38 => supply
  | 36 => rails .vss 1 ++ run (.ca ch) 0 3 ++ rails .vss 1 ++ [.pin (.ckT ch) 0, .pin (.ckC ch) 0] ++ rails .vss 3
  | 37 => rails .vss 1 ++ run (.ca ch) 3 3 ++ rails .vss 1 ++ [.pin (.cke ch) 0, .pin (.cs ch) 0] ++ rails .vss 3
  | 39 => rails .vss 1 ++ [.pin (.resetN ch) 0, .pin (.zq ch) 0] ++ rails .vss 3 ++ rails .vddDmc 2 ++ rails .vss 2
  | 40 => rails .vss 6 ++ rails .vddDmc 2 ++ rails .vss 2
  | _ => rails .vss 10

/-- A ball of the core field (R447). -/
def coreBall (r c : Nat) : Net := .rail (if (r + c) % 2 = 0 then .vss else if r = 34 ∨ r = 35 then .vddSram else .vddDig)

/-- The net of the ball in row index `r` and column `c`, each from 1 to 41 (R442). -/
def ballNet (r c : Nat) : Net :=
  let at1 := fun (row : List Net) (i : Nat) => row.getD i (.rail .vss)
  if r ≤ 20 then
    (if c = 1 then .rail .agnd else if c ≤ 33 then bankBall ((c - 2) / 2) r (decide (c % 2 = 0)) else supplyBall r c)
  else if r = 21 then .rail .agnd
  else if r = 22 then .rail .vss
  else if r ≤ 30 then (if c ≤ 10 then at1 (laneRow r) (c - 1) else if c ≤ 29 then coreBall r c else at1 (logicRow r) (c - 30))
  else if c ≤ 10 then at1 (dramRow false r) (c - 1)
  else if c ≤ 31 then coreBall r c
  else at1 (dramRow true r) (41 - c)

/-- The names of the rows, from the A1 edge (R441). -/
def rowNames : List String :=
  ["A", "B", "C", "D", "E", "F", "G", "H", "J", "K", "L", "M", "N", "P", "T", "U", "V", "W", "Y"] ++
  ["AA", "AB", "AC", "AD", "AE", "AF", "AG", "AH", "AJ", "AK", "AL", "AM", "AN", "AP", "AT", "AU", "AV", "AW", "AY"] ++ ["BA", "BB", "BC"]

/-- Every ball of the grid (R440). -/
def allBalls : List (Nat × Nat) := (List.range 41).flatMap (fun r => (List.range 41).map (fun c => (r + 1, c + 1)))

/-- How many balls carry a rail. -/
def ballsOf (r : Rail) : Nat := (allBalls.filter (fun q => decide (ballNet q.1 q.2 = .rail r))).length

/-! ### Die, class, pull and supply (R449) -/

/-- The class of a pin: fail-safe 3.3 V, standard 3.3 V, 1.8 V, or none of these. -/
inductive PinClass where
  | failSafe | standard | low | plain
deriving DecidableEq, Repr

/-- How a pin is driven. -/
inductive PinType where
  | analogInput | analogOutput | input | output | openDrain | bidirectional | differentialInput | differentialOutput | reference
deriving DecidableEq, Repr

/-- What stands on a pin: nothing, or a pull-up or a pull-down of 50 kΩ nominal. -/
inductive Pull where
  | none | up | down
deriving DecidableEq, Repr

/-- The columns of R449 that no state changes: whether the pin is on the analog die, its type, class and pull, and its supplies. -/
structure PinRow where
  analog : Bool := false
  type : PinType
  cls : PinClass := .plain
  pull : Pull := .none
  supply : List Rail
deriving DecidableEq, Repr

/-- The row of a signal. -/
def pinRow : Pin → PinRow
  | .ainP | .ainN => ⟨true, .analogInput, .plain, .none, [.vhvPos, .vhvNeg]⟩
  | .excP | .excN => ⟨true, .analogOutput, .plain, .none, [.vexcPos, .vexcNeg]⟩
  | .snsP | .snsN | .tsnsP | .tsnsN => ⟨true, .analogInput, .plain, .none, [.vana]⟩
  | .aout => ⟨true, .analogOutput, .plain, .none, [.vhvPos, .vhvNeg]⟩
  | .plugDetN | .encA | .encB | .encZ => ⟨false, .input, .failSafe, .up, [.vddIo33]⟩
  | .trigIn | .mainsIn | .holdIn => ⟨false, .input, .failSafe, .down, [.vddIo33]⟩
  | .pwm | .trigOut => ⟨false, .output, .failSafe, .down, [.vddIo33]⟩
  | .trigBus | .sfpScl | .sfpSda => ⟨false, .openDrain, .failSafe, .none, [.vddIo33]⟩
  | .gpio => ⟨false, .bidirectional, .standard, .down, [.vddIo33]⟩
  | .holdOut | .svcLed | .spiMiso => ⟨false, .output, .standard, .none, [.vddIo33]⟩
  | .spiSclk | .spiMosi => ⟨false, .input, .standard, .none, [.vddIo33]⟩
  | .spiCsN => ⟨false, .input, .standard, .up, [.vddIo33]⟩
  | .qspiClk | .qspiCsN => ⟨false, .output, .low, .none, [.vddIo18]⟩
  | .qspiIo => ⟨false, .bidirectional, .low, .up, [.vddIo18]⟩
  | .tck | .trstN => ⟨false, .input, .low, .down, [.vddIo18]⟩
  | .tms | .tdi => ⟨false, .input, .low, .up, [.vddIo18]⟩
  | .tdo => ⟨false, .output, .low, .none, [.vddIo18]⟩
  | .porstN | .wakeN | .svcBtnN => ⟨false, .input, .low, .up, [.vaon]⟩
  | .railEn => ⟨false, .output, .low, .none, [.vaon]⟩
  | .refclkP | .refclkN | .lrxP | .lrxN => ⟨false, .differentialInput, .plain, .none, [.vddLane]⟩
  | .ltxP | .ltxN => ⟨false, .differentialOutput, .plain, .none, [.vddLane]⟩
  | .dq _ | .dqsT _ | .dqsC _ | .dmi _ => ⟨false, .bidirectional, .plain, .none, [.vddqDmc]⟩
  | .ca _ | .ckT _ | .ckC _ | .cs _ => ⟨false, .output, .plain, .none, [.vddqDmc]⟩
  | .cke _ | .resetN _ => ⟨false, .output, .plain, .none, [.vddDmc, .vaon]⟩
  | .zq _ => ⟨false, .reference, .plain, .none, []⟩

/-! ### The states of the signals (R449, R450) -/

/-- Where the hub is, for its pins: in a reset, in service, in REST or in SHELVED. -/
inductive PinTime where
  | reset | working | rest | shelved
deriving DecidableEq, Repr

def pinTime (s : State) : PinTime :=
  if powerState s = 3 then .shelved else if s.pwr.held then .reset else if powerState s = 2 then .rest else .working

/-- What a pin does: its function as other rules give it, an input, no drive, a level, electrical idle, released, no supply, or a drive only
while SPI_CS_N is low. -/
inductive PinState where
  | works | input | off | highZ | level (b : Bool) | idle | detects | unpowered | whileSelected
deriving DecidableEq, Repr

/-- Whether the DRAM pins are as a reset left them: no INIT or INIT_RESUME has taken the controller out of OFF since (R449). -/
def dramIdle (s : State) : Bool := decide (dmcState s = 0)

/-- CKE and RESET_N of a DRAM channel (R450): low at power-on; at a hub reset, and until software starts the controller, they keep the levels
of self-refresh (CKE low, RESET_N high), else they are low; in SHELVED CKE is low and RESET_N high. -/
def ckeState (s : State) : PinState :=
  if pinTime s = .working ∧ dmcState s ∉ [0, 4, 5] then .works else .level false

def resetNState (s : State) : PinState :=
  match pinTime s with
  | .shelved => .level true
  | .reset => .level (!s.pwr.por && s.dmc.asleep)
  | _ => .level (s.dmc.asleep || !dramIdle s)

/-- The state of signal `p[i]` (R449). What "at reset" says holds until software changes the pin. -/
def pinState (s : State) (p : Pin) (i : Nat) : PinState :=
  let t := pinTime s
  let by1 := fun (reset rest shelved : PinState) =>
    match t with
    | .reset => reset
    | .working => .works
    | .rest => rest
    | .shelved => shelved
  match p with
  | .ainP | .ainN | .excP | .excN | .snsP | .snsN | .tsnsP | .tsnsN => if anaUp s then .works else .off
  | .aout => if (aoutPin s i).isSome then .works else .highZ
  | .plugDetN | .trigIn | .mainsIn | .holdIn | .encA | .encB | .encZ | .spiSclk | .spiMosi | .tck | .trstN | .tms | .tdi | .refclkP | .refclkN =>
    by1 .input .input .unpowered
  | .qspiIo => if t = .shelved then .unpowered else .input
  | .spiCsN => by1 .input .detects .unpowered
  | .pwm => if t = .working ∧ (pwmPin s i).isNone then .highZ else by1 .highZ .highZ .unpowered
  | .trigOut => if t = .working ∧ (trigPin s i).isNone then .highZ else by1 .highZ .highZ .unpowered
  | .trigBus => if t = .working ∧ s.out.bus = [] then .highZ else by1 .highZ .highZ .unpowered
  | .sfpScl | .sfpSda => by1 .highZ .highZ .unpowered
  | .spiMiso => if t = .shelved then .unpowered else .whileSelected
  | .tdo => if t = .shelved then .unpowered else if (tdoLevel s.jtag).isSome then .works else .highZ
  | .gpio => by1 .input .works .unpowered
  | .holdOut => by1 (.level false) (.level false) .unpowered
  | .svcLed => by1 (.level false) .works .unpowered
  | .qspiClk => if t = .shelved then .unpowered else .level false
  | .qspiCsN => if t = .shelved then .unpowered else .level true
  | .porstN | .wakeN | .svcBtnN => .input
  | .railEn => .level s.pwr.railEn
  | .ltxP | .ltxN => by1 .idle .idle .unpowered
  | .lrxP | .lrxN => by1 .works .detects .unpowered
  | .dq _ | .dqsT _ | .dqsC _ | .dmi _ => if t = .working ∧ dramIdle s then .highZ else by1 .highZ .highZ .unpowered
  | .ca _ | .ckT _ | .ckC _ | .cs _ => if t = .working ∧ dramIdle s then .level false else by1 (.level false) (.level false) .unpowered
  | .cke _ => ckeState s
  | .resetN _ => resetNState s
  | .zq _ => .works

end Sys2Proof.Machine
end

