-- ==== Sys2Proof/Tests/Slice0.lean ====
section
/-!
SUPPORT. Tests: an ill-formed command for each check, words and values of the spec's worked examples, single steps, and for each obligation
with hypotheses a state and operands that meet all of them. Expected values come from the spec or from the published check values of the
codes that it names.
-/
set_option maxRecDepth 8000
set_option Elab.async false
namespace Sys2Proof.Tests
open Sys2Proof Sys2Proof.Machine

/-- A state with the fields of `l` written. -/
def put (l : List (Fld × Nat)) (s : State) : State := l.foldl (fun s p => setFld s p.1 p.2) s

theorem put_cores (l : List (Fld × Nat)) (s : State) : (put l s).cores = s.cores := by
  induction l generalizing s with
  | nil => rfl
  | cons p l ih => exact (ih (setFld s p.1 p.2)).trans rfl

theorem other_stores_empty (l : List (Fld × Nat)) (s : State) (x : Core) (h : s.cores.core = [(1, x)]) (m : Nat) (hm : m ≠ 1) :
    (coreOf (put l s) m).stores = [] := by
  have h1 : (coreOf (put l s) m) = coreReset m := by
    unfold coreOf; rw [put_cores, h]; simp [tget, Ne.symm hm]
  rw [h1]; unfold coreReset; split <;> rfl

theorem put_tbs (l : List (Fld × Nat)) (s : State) : (put l s).tbs = s.tbs := by
  induction l generalizing s with
  | nil => rfl
  | cons p l ih => exact (ih (setFld s p.1 p.2)).trans rfl

theorem encIn_calm (l : List (Fld × Nat)) (s : State) (x : EncIn) (h : s.tbs.enc = [(8, x)]) (j f : Nat) :
    encIn (put l s) j f = if 8 = j * 4 + f then x else { } := by
  unfold encIn; rw [put_tbs, h]; simp [tget]

/-- The state that an outcome answers. -/
def nextOf (o : Host.Outcome State Fault Refusal) : State := match o with | .next t => t | _ => State.reset
def isNext (o : Host.Outcome State Fault Refusal) : Bool := match o with | .next _ => true | _ => false
theorem eq_nextOf {o : Host.Outcome State Fault Refusal} (h : isNext o = true) : o = .next (nextOf o) := by
  cases o <;> first | rfl | cases h

/-! ### Well-formed commands: an ill-formed one for each check -/

theorem test_bus_word_misaligned : wellFormed (.registerWrite 0xA0000002 5) = false := by decide
theorem test_bus_word_elsewhere : wellFormed (.rcRead 0x80000000) = false := by decide
theorem test_output_word_misaligned : wellFormed (.outputRegisterWrite 0xA0060001 5) = false := by decide
theorem test_result_read_elsewhere : wellFormed (.resultRegisterRead 0) = false := by decide
theorem test_latching_instant : wellFormed (.latchingRead 0xA0050000 64000000) = false := by decide
theorem test_last_instant_of_a_lap : wellFormed (.latchingRead 0xA0050000 63999999) = true := by decide
theorem test_instant_beyond_lap : wellFormed (.mainsCrossing 64000000) = false := by decide
theorem test_common_mode_channel : wellFormed (.lapBoundary { vcm := [(256, 0)] }) = false := by decide
theorem test_current_bank : wellFormed (.lapBoundary { excI := [(16, 0)] }) = false := by decide
theorem test_position_width : wellFormed (.tallyFrameReceive 0 0 (2 ^ 47) 0 0) = false := by decide
theorem test_velocity_width : wellFormed (.tallyFrameReceive 0 0 0 (-(2 ^ 31) - 1) 0) = false := by decide
theorem test_temperature_width : wellFormed (.ttempUpdate 0 32768 false) = false := by decide
theorem test_frame_without_codes : wellFormed (.d2dLapFrameArrival { codes := [] }) = false := by decide
theorem test_frame_word_number : wellFormed (.d2dLapFrameArrival { codes := List.replicate 256 0, ue := [64] }) = false := by decide
theorem test_frame_overload_channel : wellFormed (.d2dLapFrameArrival { codes := List.replicate 256 0, overPin := [256] }) = false := by decide
theorem test_frame_spare_codes : wellFormed (.d2dLapFrameArrival { codes := List.replicate 256 0, spare := List.replicate 17 0 }) = false := by decide
theorem test_frame_well_formed : wellFormed (.d2dLapFrameArrival { codes := List.replicate 256 0 }) = true := by decide
theorem test_slice_number : wellFormed (.readmit 17) = false := by decide
theorem test_raw_shift : wellFormed (.accr 0 0 false true 33) = false := by decide
theorem test_clear_names_no_register : wellFormed (.accw 0 false true 1 0) = false := by decide
theorem test_position_pair : wellFormed (.tally 0 15 0 false 0) = false := by decide
theorem test_sfp_answer_length : wellFormed (.sfpRead 0 3 0xA0 0 [1, 2, 3] 0) = false := by decide
theorem test_training_words : wellFormed (.dmcTrainDone [(64, 64), (64, 64)] true []) = false := by decide
theorem test_dram_address : wellFormed (.dramRequest 0 false false 0x80000000 [] 0 [] false 0) = false := by decide
theorem test_dram_line : wellFormed (.dramRequest 0 true false 0 (List.replicate 65 0) 0 [] false 0) = false := by decide
theorem test_six_sensors : wellFormed (.tempSample [25]) = false := by decide
theorem test_fourteen_monitors : wellFormed (.supplySample (List.replicate 14 40000)) = false := by decide
theorem test_abort_of_another_register : wellFormed (.commandAbortedAtBoundary 0xA0000000) = false := by decide
theorem test_bad_word_place : wellFormed (.ldgWrite (some 65536)) = false := by decide
theorem test_full_spi_frame : wellFormed (.spiFrameError 0 64) = false := by decide
theorem test_legal_word_is_not_illegal : wellFormed (.illegalInstruction 0 0x0C000002) = false := by decide

/-! ### Ralnel words of the worked example of chapter 9 -/

theorem test_word_wait : decodeRalnel 0 0xC008C044 = some (.wait 0 0 1 2 3) := by decide
theorem test_word_ldw : decodeRalnel 0 0x60608001 = some (.ldw 0 1 8 0 1) := by decide
theorem test_word_fence : decodeRalnel 0 0x0C000002 = some (.fence 0) := by decide
theorem test_word_fldd : decodeRalnel 0 0x6864C006 = some (.fldd 0 1 9 0 6) := by decide
theorem test_word_fadd : decodeRalnel 0 0x08004001 = some (.fadd 0 0 0 1) := by decide
theorem test_word_lui : decodeRalnel 0 0x41014014 = some (.lui 0 4 0x14014) := by decide
theorem test_word_or : decodeRalnel 0 0x01118004 = some (.or 0 4 4 6) := by decide
theorem test_word_qpush : decodeRalnel 0 0xC11407C3 = some (.qpush 0 31 4 5) := by decide
/-- A word built bit by bit from R255 and R261: OP 0x08, RD 3, RS 2, IMM −1 (R255). -/
theorem test_word_addi : decodeRalnel 1 0x20C83FFF = some (.addi 1 3 2 0x3FFF) := by decide

/-! ### Worked examples and check values -/

/-- The worked example of R16. -/
theorem test_sdiff48_over_the_wrap : sdiff48 0x000000001000 0xFFFFFFFFF000 = 8192 := by decide
/-- The worked example of R358. -/
theorem test_interleave : (interleave (grainBits 2) 0x12345678).ch = 0 ∧ (interleave (grainBits 2) 0x12345678).row = 0x2468 ∧
    (interleave (grainBits 2) 0x12345678).colHigh = 0x15 := by decide
/-- The worked example of chapter 13: DMC_CLASS 0x2AA4 with ECC on gives MR17 = 0x03. -/
theorem test_pasr_mask : pasrMask (put [(⟨DMC_CLASS, 0, 32⟩, 0x2AA4), (DMC_CFG.ECC_EN, 1)] State.reset) = 3 := by decide +kernel
/-- R88 and the worked example of chapter 3: 10 V takes 11 laps. -/
theorem test_ramp_of_ten_volts : rampLaps 65534 = 11 := by decide
/-- The worked examples of chapter 5: K = 12 with the notch on a grid, and K′ = 17 of INTEGER. -/
theorem test_span_of_grid : filterSpan [(96 * 256 + 4, w32 (2 * 2 ^ 30 + 12 * 2 ^ 25 + 2 ^ 24))] 96 = 958982 := by decide +kernel
theorem test_span_of_integer : filterSpan [(64 * 256 + 4, 0x40019000)] 64 = 5521414 := by decide +kernel
/-- The claims of the worked example of R392. -/
theorem test_claim_is_raised : fld (raiseClaim (put [(TWN_CLAIM.PAR, 1), (TWN_CLAIM.VALUE, 0x1F), (TWN_CLAIM.PEER, 0x20),
    (TWN_STATUS.PEER_VALID, 1)] State.reset)) TWN_CLAIM.VALUE = 0x21 := by decide +kernel
/-- The published check values of the four codes, over the digits 1 to 9. -/
theorem test_crc8 : crc8 [0x31, 0x32, 0x33, 0x34, 0x35, 0x36, 0x37, 0x38, 0x39] = 0xF4 := by decide +kernel
theorem test_crc16 : crc16 [0x31, 0x32, 0x33, 0x34, 0x35, 0x36, 0x37, 0x38, 0x39] = 0x29B1 := by decide +kernel
theorem test_crc32 : crc32 [0x31, 0x32, 0x33, 0x34, 0x35, 0x36, 0x37, 0x38, 0x39] = 0xCBF43926 := by decide +kernel
theorem test_crc64 : crc64 [0x31, 0x32, 0x33, 0x34, 0x35, 0x36, 0x37, 0x38, 0x39] = 0x62EC59E3F1A4F00A := by decide +kernel
/-- FIPS 180-4: the digest of "abc". -/
theorem test_sha256 : (sha256 [0x61, 0x62, 0x63]).take 4 = [0xBA, 0x78, 0x16, 0xBF] := by decide +kernel
/-- R447 and R448: the balls of each rail. -/
theorem test_balls : [Rail.vss, .agnd, .vddDig, .vddSram, .vddLane, .vddqDmc, .vddDmc, .vddIo33, .vddIo18, .vaon, .vana, .vanaD, .vhvPos,
    .vhvNeg, .vexcPos, .vexcNeg].map ballsOf = [385, 133, 170, 21, 24, 24, 16, 8, 4, 4, 24, 16, 8, 8, 16, 16] := by decide +kernel
/-- R463: the length of the boundary register. -/
theorem test_boundary_register : boundaryCells.length = 269 := by decide +kernel

/-! ### Single steps -/

/-- The front of the queue runs, and the rest stays. -/
theorem test_step_takes_the_front :
    (nextOf (step ((State.reset.push (.nop 1)).push (.registerWrite (TOP_AON_SCRATCHk 3) 7)))).pending = [.nop 1] := by decide +kernel
/-- An empty queue idles. -/
theorem test_step_idles : nextOf (step State.reset) = State.reset := by decide +kernel
/-- R13: a lap is 62 500/64 ns. -/
theorem test_lap_boundary : (nextOf (exec (.lapBoundary { }) State.reset)).tbs.pacer.time = 64000000 := by decide +kernel
/-- A core with two registers set. -/
def coreState2 (a b : Word) : State :=
  put [(TOP_COREn_STATUS.STATE 1, 1)] { State.reset with cores := { core := [(1, { w := [(1, a), (2, b)] })] } }
/-- R260: an addition that wraps sets C, and a comparison that overflows sets V. -/
theorem test_add_wraps : let t := nextOf (exec (.add 1 1 1 2) (coreState2 0xFFFFFFFF 2)); (reg t 1 1, nbit (coreOf t 1).flags 1) = (1, true) := by
  decide +kernel
theorem test_sub_overflows : nbit (coreOf (nextOf (exec (.cmp 1 1 2) (coreState2 0x80000000 1))) 1).flags 0 = true := by decide +kernel
/-- R260: a shift uses bits 4:0 of RT. -/
theorem test_shift_of_full_width : reg (nextOf (exec (.shl 1 3 1 2) (coreState2 5 33))) 1 3 = 10 := by decide +kernel
/-- R279: EPC after a system call is the address of the next instruction. -/
theorem test_syscall_saves_the_pc : (coreOf (nextOf (exec (.syscall 1 7) (coreState2 0 0))) 1).epc = (coreOf (coreState2 0 0) 1).pc + 4 := by
  decide +kernel

/-! ### Witnesses: states and operands that meet the hypotheses of each obligation -/

theorem wit_StepTakesTheFront_0 : ∃ (c : Instr) (rest : List Instr) (s : State), s.pending = c :: rest :=
  ⟨.pwrRun, [.pwrIdle], ({ State.reset with pending := [.pwrRun, .pwrIdle] }), by decide +kernel⟩
theorem wit_EmptyQueueIdles_0 : ∃ (s : State), s.pending = [] :=
  ⟨State.reset, by decide +kernel⟩
theorem wit_RegisterWriteFollowsAccessTypes_0 : ∃ (s : State) (a : Nat) (r : RegRow), Settled s ∧ awake s = true ∧ a % 4 = 0 ∧ rowAt a = some r ∧ ((0xA0030000 ≤ a ∧ a < 0xA0040000 ∧ a ≠ RED_CMD) ∨ (0xA00D0000 ≤ a ∧ a < 0xA00F0000 ∧ a ≠ LDG_CMD)) :=
  ⟨State.reset, LDG_CTRL, ((rowAt LDG_CTRL).getD ⟨0, 0, 0, 0, 0, 0, 0, 0, 0, 0⟩), by unfold Settled; decide +kernel⟩
theorem wit_ReadsClearLatchAndTake_0 : ∃ (s : State) (a : Nat), Settled s ∧ awake s = true ∧ a ∈ [TBS_SL_SLIP, TBS_SL_LATE, TBS_SL_SKIP, TBS_SL_BAD] :=
  ⟨(put [(⟨TBS_SL_SKIP, 0, 32⟩, 9)] State.reset), TBS_SL_SKIP, by unfold Settled; decide +kernel⟩
theorem wit_ReadsClearLatchAndTake_1 : ∃ (s : State), awake s = true :=
  ⟨State.reset, by decide +kernel⟩
theorem wit_ReadsClearLatchAndTake_2 : ∃ (s : State) (m : Fin 2) (e : QEntry) (rest : List QEntry), awake s = true ∧ (queueOf s (stampQueue m)).items = e :: rest ∧ 1 ≤ (queueOf s (stampQueue m)).seen :=
  ⟨({ State.reset with cores := { queue := [(stampQueue 1, { items := [⟨[7, 8], 5, 0, 0⟩], seen := 1 })] } }), 1, ⟨[7, 8], 5, 0, 0⟩, [], by decide +kernel⟩
theorem wit_SpiTransactions_0a : ∃ (s : State) (o : BitVec 24), awake s = true ∧ 0x0E0000 ≤ o.toNat ∧ o.toNat < 0x0F0000 :=
  ⟨State.reset, 0x0E0000, by decide +kernel⟩
theorem wit_SpiTransactions_0b : ∃ (s : State) (o : BitVec 24), awake s = true ∧ 0x0E0000 ≤ o.toNat ∧ o.toNat < 0x0F0000 :=
  ⟨State.reset, 0x0EFFFC, by decide +kernel⟩
theorem wit_SpiTransactions_1 : ∃ (s : State) (o : BitVec 24), awake s = true ∧ 0x40000 ≤ o.toNat :=
  ⟨State.reset, 0x40000, by decide +kernel⟩
theorem wit_SpiTransactions_2 : ∃ (s : State), awake s = true ∧ (queueOf s spiResults).items.length < 16 :=
  ⟨State.reset, by decide +kernel⟩
theorem wit_SpiTransactions_3 : ∃ (s : State) (o : BitVec 24), awake s = true ∧ 0x40000 ≤ o.toNat ∧ (queueOf s spiResults).items.length < 16 :=
  ⟨State.reset, 0x40000, by decide +kernel⟩
theorem wit_SpiTransactions_4 : ∃ (s : State) (e : QEntry) (rest : List QEntry), awake s = true ∧ (queueOf s spiResults).items = e :: rest ∧ (1 ≤ (queueOf s spiResults).seen ∨ e.at0 + queueLag ≤ clk s) :=
  ⟨({ State.reset with cores := { queue := [(spiResults, { items := [⟨[4, 9], 0, 0, 0⟩], seen := 1 })] } }), ⟨[4, 9], 0, 0, 0⟩, [], by decide +kernel⟩
theorem wit_SpiTransactions_5 : ∃ (s : State), awake s = true ∧ (queueOf s spiResults).items = [] :=
  ⟨State.reset, by decide +kernel⟩
theorem wit_SpiTransactions_6 : ∃ (s : State) (clocks : Nat), awake s = true ∧ clocks ≠ 64 ∧ fld s SVC_SPI_STATUS.FRAME_ERRS < 65535 :=
  ⟨State.reset, 63, by decide +kernel⟩
theorem wit_PacerCommandsAndSteps_0 : ∃ (s : State), Settled s ∧ isPending s TBS_PACER_CMD = false ∧ pacerState s ≤ 1 :=
  ⟨(put [(TBS_PACER_STATUS.STATE, 1)] State.reset), by unfold Settled; decide +kernel⟩
theorem wit_PacerCommandsAndSteps_1 : ∃ (s : State), Settled s ∧ isPending s TBS_PACER_CMD = false ∧ pacerState s = 2 ∧ isValid s (!s.tbs.pacer.secActive) = true :=
  ⟨(put [(TBS_PACER_STATUS.STATE, 2), (validFld true, 1)] State.reset), by unfold Settled; decide +kernel⟩
theorem wit_PacerCommandsAndSteps_2a : ∃ (s : State), isPending s TBS_PACER_CMD = false ∧ (pacerState s = 2 ∨ pacerState s = 3) :=
  ⟨(put [(TBS_PACER_STATUS.STATE, 3)] State.reset), by decide +kernel⟩
theorem wit_PacerCommandsAndSteps_2b : ∃ (s : State), isPending s TBS_PACER_CMD = false ∧ (pacerState s = 2 ∨ pacerState s = 3) :=
  ⟨(put [(TBS_PACER_STATUS.STATE, 2)] State.reset), by decide +kernel⟩
theorem wit_PacerCommandsAndSteps_3 : ∃ (s : State), setTimeDue s = true :=
  ⟨(put [(TBS_PACER_STATUS.STATE, 0)] { State.reset with bnd := 1, accepted := [(TBS_PACER_CMD, ⟨0, 0, 0, 1⟩)] }), by decide +kernel⟩
theorem wit_PacerCommandsAndSteps_4 : ∃ (s : State) (m : Int) (b : Nat), setTimeDue s = false ∧ s.tbs.pacer.stepDue = some (m, b) ∧ b < tick s ∧ flag s TBS_PACER_CTRL.EN = true ∧ pacerState s = 1 :=
  ⟨(put [(TBS_PACER_STATUS.STATE, 1), (TBS_PACER_CTRL.EN, 1)] { State.reset with bnd := 4, tbs := { pacer := { stepDue := some (-7, 3) } } }), -7, 3, by decide +kernel⟩
theorem wit_PacerFollowsItsSources_0 : ∃ (s : State), flag s TBS_PACER_CTRL.EN = false :=
  ⟨State.reset, by decide +kernel⟩
theorem wit_PacerFollowsItsSources_1 : ∃ (s : State) (sec : Bool), awake s = true ∧ srcCode s sec ≠ 0 :=
  ⟨(put [(TBS_PACER_CTRL.EN, 1), (TBS_PACER_CTRL.SEC_SRC, 4), (TBS_PACER_STATUS.STATE, 1)] State.reset), true, by decide +kernel⟩
theorem wit_PacerFollowsItsSources_2 : ∃ (s : State) (sec : Bool), awake s = true ∧ lossDue s sec = true :=
  ⟨(put [(TBS_PACER_CTRL.EN, 1), (TBS_PACER_CTRL.PRI_SRC, 1), (TBS_PACER_STATUS.STATE, 2), (TBS_PACER_CTRL.LOSS_INT, 1)] { State.reset with bnd := 2 ^ 32 }), false, by decide +kernel⟩
theorem wit_PacerFollowsItsSources_3 : ∃ (s : State) (sec : Bool), switchDueNow s = some sec :=
  ⟨(put [(TBS_PACER_CTRL.EN, 1), (validFld true, 1), (TBS_PACER_STATUS.STATE, 2)] { State.reset with bnd := 2, tbs := { pacer := { switchDue := some (true, 1) } } }), true, by decide +kernel⟩
theorem wit_PacerFollowsItsSources_4 : ∃ (s : State), Settled s ∧ fld s TBS_SLEW_REMAIN.OFFSET = 0 :=
  ⟨State.reset, by unfold Settled; decide +kernel⟩
theorem wit_EncoderTally_0 : ∃ (s : State) (n : Fin 4), flag s (TBS_TALLYn_CTRL.EN n) = false :=
  ⟨State.reset, 3, by decide +kernel⟩
theorem wit_EncoderTally_1 : ∃ (s : State) (n : Fin 4), flag s (TBS_TALLYn_CTRL.EN n) = true :=
  ⟨(put [(TBS_TALLYn_CTRL.EN 3, 1)] State.reset), 3, by decide +kernel⟩
theorem wit_EncoderTally_2a : ∃ (s : State) (k : Fin 4) (n : Fin 4) (ofs : Nat) (a : Bool) (b : Bool), awake s = true ∧ onEncoder s k 0 n = true ∧ (∀ j f, (encIn s j f).rawA = (encIn s j f).a ∧ (encIn s j f).rawB = (encIn s j f).b) ∧ ((encIn s k 0).a != a) = !((encIn s k 0).b != b) ∧ ((encIn s k 0).counted.length ≠ 4 ∨ (encIn s k 0).counted.getLast?.getD 0 + 400 * 65536 ≤ clk (atOfs ofs s) + 1) :=
  ⟨(put [(TBS_TALLYn_CTRL.EN 3, 1), (TBS_TALLYn_CTRL.SRC 3, 1), (TBS_TALLYn_CTRL.ENC_SEL 3, 2)] { State.reset with bnd := 200000, tbs := { enc := [(8, { })] } }), 2, 3, 900, true, false, by decide +kernel, by decide +kernel, fun j f => by rw [encIn_calm _ _ _ (rfl) j f]; split <;> exact ⟨rfl, rfl⟩, by decide +kernel, by decide +kernel⟩
theorem wit_EncoderTally_2b : ∃ (s : State) (k : Fin 4) (n : Fin 4) (ofs : Nat) (a : Bool) (b : Bool), awake s = true ∧ onEncoder s k 0 n = true ∧ (∀ j f, (encIn s j f).rawA = (encIn s j f).a ∧ (encIn s j f).rawB = (encIn s j f).b) ∧ ((encIn s k 0).a != a) = !((encIn s k 0).b != b) ∧ ((encIn s k 0).counted.length ≠ 4 ∨ (encIn s k 0).counted.getLast?.getD 0 + 400 * 65536 ≤ clk (atOfs ofs s) + 1) :=
  ⟨(put [(TBS_TALLYn_CTRL.EN 3, 1), (TBS_TALLYn_CTRL.SRC 3, 1), (TBS_TALLYn_CTRL.ENC_SEL 3, 2)] { State.reset with bnd := 1, tbs := { enc := [(8, { counted := [64000000, 60000000, 50000000, 37785601] })] } }), 2, 3, 0, true, false, by decide +kernel, by decide +kernel, fun j f => by rw [encIn_calm _ _ _ (rfl) j f]; split <;> exact ⟨rfl, rfl⟩, by decide +kernel, by decide +kernel⟩
theorem wit_EncoderTally_3 : ∃ (s : State) (k : Fin 4) (n : Fin 4) (a : Bool) (b : Bool), awake s = true ∧ onEncoder s k 0 n = true ∧ fld s (TBS_TALLYn_STATUS.ENC_ERR n) < 65535 ∧ (∀ j f, (encIn s j f).rawA = (encIn s j f).a ∧ (encIn s j f).rawB = (encIn s j f).b) ∧ (encIn s k 0).a ≠ a ∧ (encIn s k 0).b ≠ b :=
  ⟨(put [(TBS_TALLYn_CTRL.EN 3, 1), (TBS_TALLYn_CTRL.SRC 3, 1), (TBS_TALLYn_CTRL.ENC_SEL 3, 2)] { State.reset with tbs := { enc := [(8, { })] } }), 2, 3, true, true, by decide +kernel, by decide +kernel, by decide +kernel, fun j f => by rw [encIn_calm _ _ _ (rfl) j f]; split <;> exact ⟨rfl, rfl⟩, by decide +kernel, by decide +kernel⟩
theorem wit_EncoderTally_4 : ∃ (s : State) (k : Fin 4) (f : Fin 4) (n : Fin 4) (ofs : Nat) (a : Bool), awake s = true ∧ onEncoder s k f n = true ∧ (∀ (m g : Fin 4), g ≠ f → onEncoder s k g m = false) ∧ (encIn s k f).a = a ∧ (encIn s k f).rawA ≠ a ∧ (encIn s k f).rawB = (encIn s k f).b ∧ clk (atOfs ofs s) + 1 < passAt f (encIn s k f).atA :=
  ⟨(put [(TBS_TALLYn_CTRL.EN 3, 1), (TBS_TALLYn_CTRL.SRC 3, 1), (TBS_TALLYn_CTRL.ENC_SEL 3, 2), (TBS_TALLYn_CTRL.FILT 3, 2)] { State.reset with bnd := 3, tbs := { enc := [(10, { a := true, atA := 3 * lapUnits })] } }), 2, 2, 3, 0, true, by decide +kernel⟩
theorem wit_EncoderTally_5 : ∃ (s : State) (k : Fin 4) (f : Fin 4) (n : Fin 4), onEncoder s k f n = true ∧ (encIn s k f).rawA ≠ (encIn s k f).a ∧ (encIn s k f).rawB = (encIn s k f).b ∧ passAt f (encIn s k f).atA ≤ clk s + 1 :=
  ⟨(put [(TBS_TALLYn_CTRL.EN 3, 1), (TBS_TALLYn_CTRL.SRC 3, 1), (TBS_TALLYn_CTRL.ENC_SEL 3, 2), (TBS_TALLYn_CTRL.FILT 3, 2)] { State.reset with bnd := 4, tbs := { enc := [(10, { rawA := true, atA := 3 * lapUnits })] } }), 2, 2, 3, by decide +kernel⟩
theorem wit_EncoderTally_6 : ∃ (s : State) (k : Fin 4) (f : Fin 4) (n : Fin 4), awake s = true ∧ onEncoder s k f n = true ∧ fld s (TBS_TALLYn_CTRL.Z_MODE n) ≠ 0 :=
  ⟨(put [(TBS_TALLYn_CTRL.EN 3, 1), (TBS_TALLYn_CTRL.SRC 3, 1), (TBS_TALLYn_CTRL.ENC_SEL 3, 2), (TBS_TALLYn_CTRL.Z_MODE 3, 2)] { State.reset with bnd := 3 }), 2, 0, 3, by decide +kernel⟩
theorem wit_EncoderTally_7 : ∃ (s : State) (n : Fin 4), isPending s (TBS_TALLYn_CMD n) = false ∧ flag s (TBS_TALLYn_CTRL.EN n) = true :=
  ⟨(put [(TBS_TALLYn_CTRL.EN 3, 1)] State.reset), 3, by decide +kernel⟩
theorem wit_EncoderTally_8a : ∃ (s : State) (n : Fin 4), (zPresetDue s n = true ∨ presetCmdDue s n = true) :=
  ⟨(put [(TBS_TALLYn_CTRL.EN 3, 1)] { State.reset with bnd := 2, accepted := [(TBS_TALLYn_CMD 3, ⟨0, 0, 0, 1⟩)] }), 3, by decide +kernel⟩
theorem wit_EncoderTally_8b : ∃ (s : State) (n : Fin 4), (zPresetDue s n = true ∨ presetCmdDue s n = true) :=
  ⟨(put [(TBS_TALLYn_CTRL.EN 0, 1)] { State.reset with bnd := 2, tbs := { tally := [(0, { presetDue := some 1, pos := 40 })] } }), 0, by decide +kernel⟩
theorem wit_RemoteTallyAndMains_0 : ∃ (s : State) (n : Fin 4) (stream : Fin 16), awake s = true ∧ tallySrc s n = 2 ∧ fld s (TBS_TALLYn_CTRL.STREAM n) = stream ∧ flag s (TBS_TALLYn_SOURCE.VALID n) = false ∧ fld s (TBS_TALLYn_STATUS.STATE n) = 4 :=
  ⟨(put [(TBS_TALLYn_CTRL.EN 1, 1), (TBS_TALLYn_CTRL.SRC 1, 2), (TBS_TALLYn_CTRL.STREAM 1, 9), (TBS_TALLYn_STATUS.STATE 1, 4)] { State.reset with bnd := 3 }), 1, 9, by decide +kernel⟩
theorem wit_RemoteTallyAndMains_1 : ∃ (s : State) (n : Fin 4) (stream : Fin 16) (addr : Fin 1024), awake s = true ∧ tallySrc s n = 2 ∧ fld s (TBS_TALLYn_CTRL.STREAM n) = stream ∧ flag s (TBS_TALLYn_SOURCE.VALID n) = true ∧ fld s (TBS_TALLYn_SOURCE.ADDR n) ≠ addr :=
  ⟨(put [(TBS_TALLYn_CTRL.EN 1, 1), (TBS_TALLYn_CTRL.SRC 1, 2), (TBS_TALLYn_CTRL.STREAM 1, 9), (TBS_TALLYn_SOURCE.VALID 1, 1), (TBS_TALLYn_SOURCE.ADDR 1, 76)] { State.reset with bnd := 3 }), 1, 9, 77, by decide +kernel⟩
theorem wit_RemoteTallyAndMains_2 : ∃ (s : State) (n : Fin 4), awake s = true ∧ silentFor s n 1 4 = true :=
  ⟨(put [(TBS_TALLYn_CTRL.EN 1, 1), (TBS_TALLYn_CTRL.SRC 1, 2), (TBS_TALLYn_CTRL.STREAM 1, 9), (TBS_TALLYn_STATUS.STATE 1, 1)] { State.reset with bnd := 2 ^ 30 }), 1, by decide +kernel⟩
theorem wit_RemoteTallyAndMains_3 : ∃ (s : State) (n : Fin 4), awake s = true ∧ silentFor s n 2 8 = true :=
  ⟨(put [(TBS_TALLYn_CTRL.EN 1, 1), (TBS_TALLYn_CTRL.SRC 1, 2), (TBS_TALLYn_CTRL.STREAM 1, 9), (TBS_TALLYn_STATUS.STATE 1, 2)] { State.reset with bnd := 2 ^ 30 }), 1, by decide +kernel⟩
theorem wit_RemoteTallyAndMains_4 : ∃ (s : State), flag s TBS_MAINS_CTRL.EN = false :=
  ⟨State.reset, by decide +kernel⟩
theorem wit_RemoteTallyAndMains_5 : ∃ (s : State) (ofs : Nat) (t0 : Int) (t1 : Int), awake s = true ∧ flag s TBS_MAINS_CTRL.EN = true ∧ s.tbs.mains.crossed = some t0 ∧ t0 < t1 ∧ ((if flag s TBS_MAINS_CTRL.SRC then s.tbs.mains.found else some (now (atOfs ofs s) : Int)) = some t1) :=
  ⟨(put [(TBS_MAINS_CTRL.EN, 1)] { State.reset with tbs := { pacer := { time := 20 * 1000000 * 65536 }, mains := { crossed := some 65536 } }, bnd := 20000 }), 30, 65536, 20 * 1000000 * 65536 + 30, by decide +kernel⟩
theorem wit_RemoteTallyAndMains_6 : ∃ (s : State), awake s = true ∧ mainsLostDue s = true :=
  ⟨(put [(TBS_MAINS_STATUS.STATE, 2)] { State.reset with tbs := { mains := { bad := true } } }), by decide +kernel⟩
theorem wit_StartListEntries_1 : ∃ (s : State) (n : Fin 2048), flag s TBS_SL_CTRL.EN = false ∧ slEn s n = false ∧ slLinked s n = false ∧ slSpace s n < 6 ∧ (∀ q ∈ s.tbs.sl.taken, q.n ≠ n.val) :=
  ⟨State.reset, 2047, by decide +kernel⟩
theorem wit_StartListEntries_2 : ∃ (s : State) (n : Fin 2048), slEn s n = false ∧ slLinked s n = false ∧ 6 ≤ slSpace s n ∧ fld s TBS_SL_BAD.COUNT < 2 ^ 32 - 1 :=
  ⟨(put [(slFld 2047 0 28 3, 6)] State.reset), 2047, by decide +kernel⟩
theorem wit_StartListEntries_3 : ∃ (s : State) (n : Fin 2048), slEn s n = false ∧ slLinked s n = true :=
  ⟨(put [(slFld 2047 0 19 1, 1)] State.reset), 2047, by decide +kernel⟩
theorem wit_StartListEntries_4 : ∃ (s : State) (n : Fin 2048), slEn s n = true :=
  ⟨(put [(slFld 2047 0 31 1, 1)] State.reset), 2047, by decide +kernel⟩
theorem wit_StartListEntries_5 : ∃ (s : State) (n : Fin 2048), Settled s ∧ slEn s n = false :=
  ⟨State.reset, 5, by unfold Settled; decide +kernel⟩
theorem wit_StartListEntries_6 : ∃ (s : State) (space : Fin 16), Inv s ∧ space.val < 6 :=
  ⟨State.reset, 5, by unfold Machine.Inv Settled StoresWf; decide +kernel⟩
theorem wit_StartListEntries_7a : ∃ (space : Fin 16), 6 ≤ space.val :=
  ⟨6, by decide +kernel⟩
theorem wit_StartListEntries_7b : ∃ (space : Fin 16), 6 ≤ space.val :=
  ⟨15, by decide +kernel⟩
theorem wit_StartListEntries_9 : ∃ (s : State) (n : Fin 2048) (ofs : Nat), flag s TBS_SL_CTRL.EN = true ∧ n.val ∈ s.tbs.sl.wait ∧ (∀ q ∈ s.tbs.sl.lateFrom, q.1 ≠ n.val) ∧ slDue (atOfs ofs s) n = true ∧ slPeriodic s n = false ∧ slAction s n ≠ 8 :=
  ⟨(put [(TBS_SL_CTRL.EN, 1), (slFld 7 0 31 1, 1), (slFld 7 0 24 4, 3), (slFld 7 4 0 32, 900)] { State.reset with bnd := 5, tbs := { pacer := { time := 5 * lapUnits }, sl := { wait := [7], count := 1 } } }), 7, 100, by decide +kernel⟩
theorem wit_StartListEntries_10 : ∃ (s : State) (ofs : Nat) (i : Nat) (q : Taken), slNextAct (atOfs ofs s) = some i ∧ s.tbs.sl.taken[i]? = some q ∧ slActing s q = 6 ∧ (rd s (slAddr q.idx 0x14)).toNat < 128 :=
  ⟨(put [(slFld 7 0 24 4, 6), (slFld 7 0x14 0 32, 127)] { State.reset with bnd := 5, tbs := { sl := { taken := [⟨7, 0, 7, 0, 3, false, false, true, none⟩] } } }), 100, 0, ⟨7, 0, 7, 0, 3, false, false, true, none⟩, by decide +kernel⟩
theorem wit_ExcitationChanges_0 : ∃ (s : State) (mask : BitVec 16), Settled s ∧ anaUp s = true ∧ isPending s AFE_EXC_APPLY = false ∧ mask ≠ 0 ∧ (∀ b < 16, mask.getLsbD b = true → nbit (fld s AFE_STATUS.TRIPPED) b = false) :=
  ⟨(put [(AFE_STATUS.ANA_UP, 1)] State.reset), 0x8001, by unfold Settled; decide +kernel⟩
theorem wit_ExcitationChanges_1 : ∃ (s : State), anaUp s = true ∧ isPending s AFE_EXC_APPLY = false :=
  ⟨(put [(AFE_STATUS.ANA_UP, 1)] State.reset), by decide +kernel⟩
theorem wit_ExcitationChanges_2 : ∃ (s : State), anaUp s = false :=
  ⟨State.reset, by decide +kernel⟩
theorem wit_ExcitationChanges_3 : ∃ (s : State) (b : Fin 16), Settled s ∧ excState s b = 1 ∧ (bankOf s b).ramp = 0 :=
  ⟨(put [(AFE_STATUS.ANA_UP, 1), (AFE_BANKb_STATUS.EXC_STATE 15, 1)] State.reset), 15, by unfold Settled; decide +kernel⟩
theorem wit_ExcitationChanges_4 : ∃ (s : State) (b : Fin 16), Settled s ∧ excState s b = 2 ∧ (bankOf s b).settle = 0 :=
  ⟨(put [(AFE_STATUS.ANA_UP, 1), (AFE_BANKb_STATUS.EXC_STATE 15, 2)] State.reset), 15, by unfold Settled; decide +kernel⟩
theorem wit_ExcitationChanges_5 : ∃ (s : State) (b : Fin 16), Settled s ∧ reversalDue s b = true :=
  ⟨(put [(AFE_STATUS.ANA_UP, 1), (AFE_BANKb_STATUS.EXC_STATE 2, 3)] { State.reset with afe := { bank := [(2, { mode := 2, rev := some 20, level := 9, target := 9 })] }, tbs := { pacer := { time := 2 ^ 20 * lapUnits } } }), 2, by unfold Settled; decide +kernel⟩
theorem wit_ExcitationChanges_6 : ∃ (s : State) (b : Fin 16), Settled s ∧ excState s b = 5 ∧ (bankOf s b).blank = 0 :=
  ⟨(put [(AFE_STATUS.ANA_UP, 1), (AFE_BANKb_STATUS.EXC_STATE 2, 5)] State.reset), 2, by unfold Settled; decide +kernel⟩
theorem wit_ExcitationLimitsAndSensors_0 : ∃ (s : State) (b : Fin 16), driving s b = true ∧ (bankOf s b).limiting = false :=
  ⟨(put [(AFE_STATUS.ANA_UP, 1), (AFE_BANKb_STATUS.EXC_STATE 4, 3)] { State.reset with afe := { bank := [(4, { mode := 1, level := 5, target := 5 })] } }), 4, by decide +kernel⟩
theorem wit_ExcitationLimitsAndSensors_1 : ∃ (s : State) (b : Fin 16), driving s b = true ∧ 1024 ≤ (bankOf s b).limitLaps :=
  ⟨(put [(AFE_STATUS.ANA_UP, 1), (AFE_BANKb_STATUS.EXC_STATE 4, 3)] { State.reset with afe := { bank := [(4, { mode := 1, level := 5, target := 5, limiting := true, limitLaps := 1024 })] } }), 4, by decide +kernel⟩
theorem wit_ExcitationLimitsAndSensors_2 : ∃ (s : State) (b : Fin 16), isPending s (AFE_BANKb_CMD b) = false ∧ nbit (fld s AFE_STATUS.TRIPPED) b = true :=
  ⟨(put [(AFE_STATUS.ANA_UP, 1), (AFE_BANKb_STATUS.EXC_STATE 4, 4), (⟨AFE_STATUS.TRIPPED.reg, AFE_STATUS.TRIPPED.lo + 4, 1⟩, 1)] State.reset), 4, by decide +kernel⟩
theorem wit_ExcitationLimitsAndSensors_3 : ∃ (s : State) (b : Fin 16), (bankOf s b).snsBad = false ∧ 1024 ≤ (bankOf s b).snsLow :=
  ⟨(put [(AFE_STATUS.ANA_UP, 1), (AFE_BANKb_STATUS.EXC_STATE 4, 3)] { State.reset with afe := { bank := [(4, { mode := 1, snsLow := 1024 })] } }), 4, by decide +kernel⟩
theorem wit_ExcitationLimitsAndSensors_4 : ∃ (s : State) (b : Fin 16), Settled s ∧ (bankOf s b).snsBad = true ∧ 1024 ≤ (bankOf s b).snsHigh :=
  ⟨(put [(AFE_STATUS.ANA_UP, 1), (AFE_BANKb_STATUS.EXC_STATE 4, 3)] { State.reset with afe := { bank := [(4, { mode := 1, snsBad := true, snsHigh := 1024 })] } }), 4, by unfold Settled; decide +kernel⟩
theorem wit_ExcitationLimitsAndSensors_5 : ∃ (s : State) (b : Fin 16), Settled s ∧ anaUp s = true ∧ (bankOf s b).ttAt ≤ tick s :=
  ⟨(put [(AFE_STATUS.ANA_UP, 1)] State.reset), 4, by unfold Settled; decide +kernel⟩
theorem wit_ExcitationLimitsAndSensors_6 : ∃ (s : State) (b : Fin 16), anaUp s = true ∧ (bankOf s b).ttAt ≤ tick s ∧ ((bankOf s b).ttBad = false ∨ flag s (AFE_BANKb_STATUS.TT_FAULT b) = false) :=
  ⟨(put [(AFE_STATUS.ANA_UP, 1)] { State.reset with bnd := 1024 }), 4, by decide +kernel⟩
theorem wit_OpenWindowAndPlug_0 : ∃ (s : State) (c : Fin 256), Settled s ∧ burnOut s c = true ∧ isOpen s c = false ∧ openPersist s ≤ (chanOf s c).openRun :=
  ⟨{ State.reset with afe := { chan := [(255, { openRun := 9000 })] }, red := { active := [(255 * 256, 0x52000000)] } }, 255, by unfold Settled; decide +kernel⟩
theorem wit_OpenWindowAndPlug_1 : ∃ (s : State) (c : Fin 256), Settled s ∧ isOpen s c = true ∧ openPersist s ≤ (chanOf s c).closeRun :=
  ⟨(put [(⟨AFE_OPEN_NOWk 7, 31, 1⟩, 1)] { State.reset with afe := { chan := [(255, { closeRun := 70000 })] } }), 255, by unfold Settled; decide +kernel⟩
theorem wit_OpenWindowAndPlug_2 : ∃ (s : State), Settled s :=
  ⟨State.reset, by unfold Settled; decide +kernel⟩
theorem wit_OpenWindowAndPlug_3 : ∃ (s : State) (b : Fin 16) (high : Bool), Settled s ∧ awake s = true ∧ (bankOf s b).plugPin ≠ high :=
  ⟨State.reset, 3, false, by unfold Settled; decide +kernel⟩
theorem wit_OpenWindowAndPlug_4 : ∃ (s : State) (b : Fin 16), plugDue s b = true ∧ unplugged s b = false :=
  ⟨(put [(AFE_BANKb_PLUG.EN 3, 1), (AFE_BANKb_PLUG.DEB 3, 2)] { State.reset with afe := { bank := [(3, { plugPin := true, plugRun := 2049 })] } }), 3, by decide +kernel⟩
theorem wit_OpenWindowAndPlug_5 : ∃ (s : State) (b : Fin 16), plugDue s b = true ∧ unplugged s b = true :=
  ⟨(put [(AFE_BANKb_PLUG.EN 3, 1), (AFE_BANKb_PLUG.DEB 3, 2), (⟨AFE_PLUG_STATUS, 3, 1⟩, 1)] { State.reset with afe := { bank := [(3, { plugPin := false, plugRun := 2049 })] } }), 3, by decide +kernel⟩
theorem wit_OpenWindowAndPlug_6 : ∃ (s : State) (b : Fin 16), Settled s ∧ flag s AFE_CTRL.LOCK = false ∧ flag s (AFE_BANKb_PLUG.EN b) = true ∧ unplugged s b = true :=
  ⟨(put [(AFE_BANKb_PLUG.EN 3, 1), (AFE_BANKb_PLUG.DEB 3, 2), (⟨AFE_PLUG_STATUS, 3, 1⟩, 1)] State.reset), 3, by unfold Settled; decide +kernel⟩
theorem wit_CalibrationCommands_0a : ∃ (s : State) (en : Bool), Settled s ∧ flag s CNV_REF_CTRL.BUF_EN = !en :=
  ⟨State.reset, true, by unfold Settled; decide +kernel⟩
theorem wit_CalibrationCommands_0b : ∃ (s : State) (en : Bool), Settled s ∧ flag s CNV_REF_CTRL.BUF_EN = !en :=
  ⟨(put [(CNV_REF_CTRL.BUF_EN, 1)] State.reset), false, by unfold Settled; decide +kernel⟩
theorem wit_CalibrationCommands_1 : ∃ (s : State), flag s CNV_REF_CTRL.BUF_EN = true ∧ anaUp s = true ∧ refReady s = false ∧ 1024 ≤ s.cnv.okRun :=
  ⟨(put [(CNV_REF_CTRL.BUF_EN, 1), (AFE_STATUS.ANA_UP, 1)] { State.reset with cnv := { okRun := 1024 } }), by decide +kernel⟩
theorem wit_CalibrationCommands_2 : ∃ (s : State), refReady s = true ∧ 16 ≤ s.cnv.badRun :=
  ⟨(put [(CNV_STATUS.REF_READY, 1)] { State.reset with cnv := { badRun := 16 } }), by decide +kernel⟩
theorem wit_CalibrationCommands_3a : ∃ (s : State) (en : Bool), Settled s ∧ flag s CNV_CAL_CTRL.EN = !en :=
  ⟨State.reset, true, by unfold Settled; decide +kernel⟩
theorem wit_CalibrationCommands_3b : ∃ (s : State) (en : Bool), Settled s ∧ flag s CNV_CAL_CTRL.EN = !en :=
  ⟨(put [(CNV_CAL_CTRL.EN, 1)] State.reset), false, by unfold Settled; decide +kernel⟩
theorem wit_CalibrationCommands_8 : ∃ (s : State), s.cnv.skewMask ≠ 0 ∧ s.cnv.skewLeft = 0 :=
  ⟨({ State.reset with cnv := { skewMask := 5 } }), by decide +kernel⟩
theorem wit_CalibrationSteps_0 : ∃ (s : State), Settled s ∧ calRuns s = true ∧ calState s = 1 ∧ 65536 ≤ calCount s ∧ spareOf s < 17 :=
  ⟨(put [(⟨CNV_MAPk (0 / 4), 0 % 4 * 8, 5⟩, 0), (⟨CNV_MAPk (1 / 4), 1 % 4 * 8, 5⟩, 1), (⟨CNV_MAPk (2 / 4), 2 % 4 * 8, 5⟩, 2), (⟨CNV_MAPk (3 / 4), 3 % 4 * 8, 5⟩, 3), (⟨CNV_MAPk (4 / 4), 4 % 4 * 8, 5⟩, 4), (⟨CNV_MAPk (5 / 4), 5 % 4 * 8, 5⟩, 5), (⟨CNV_MAPk (6 / 4), 6 % 4 * 8, 5⟩, 6), (⟨CNV_MAPk (7 / 4), 7 % 4 * 8, 5⟩, 7), (⟨CNV_MAPk (8 / 4), 8 % 4 * 8, 5⟩, 8), (⟨CNV_MAPk (9 / 4), 9 % 4 * 8, 5⟩, 9), (⟨CNV_MAPk (10 / 4), 10 % 4 * 8, 5⟩, 10), (⟨CNV_MAPk (11 / 4), 11 % 4 * 8, 5⟩, 11), (⟨CNV_MAPk (12 / 4), 12 % 4 * 8, 5⟩, 12), (⟨CNV_MAPk (13 / 4), 13 % 4 * 8, 5⟩, 13), (⟨CNV_MAPk (14 / 4), 14 % 4 * 8, 5⟩, 14), (⟨CNV_MAPk (15 / 4), 15 % 4 * 8, 5⟩, 15), (CNV_CAL_STATUS.STATE, 1), (CNV_CAL_COUNT.LAPS, 65536), (CNV_CAL_STATUS.SPARE, 16), (CNV_CAL_STATUS.TARGET, 3), (CNV_CAL_CTRL.EN, 1), (CNV_STATUS.REF_READY, 1), (AFE_STATUS.ANA_UP, 1)] State.reset), by unfold Settled; decide +kernel⟩
theorem wit_CalibrationSteps_1 : ∃ (s : State) (b : Fin 16), targetOf s = b ∧ Settled s ∧ calRuns s = true ∧ calState s = 2 ∧ stepLaps s ≤ calCount s ∧ s.cnv.pairs.n < 8192 ∧ s.cnv.ext < 3 :=
  ⟨(put [(⟨CNV_MAPk (0 / 4), 0 % 4 * 8, 5⟩, 0), (⟨CNV_MAPk (1 / 4), 1 % 4 * 8, 5⟩, 1), (⟨CNV_MAPk (2 / 4), 2 % 4 * 8, 5⟩, 2), (⟨CNV_MAPk (3 / 4), 3 % 4 * 8, 5⟩, 3), (⟨CNV_MAPk (4 / 4), 4 % 4 * 8, 5⟩, 4), (⟨CNV_MAPk (5 / 4), 5 % 4 * 8, 5⟩, 5), (⟨CNV_MAPk (6 / 4), 6 % 4 * 8, 5⟩, 6), (⟨CNV_MAPk (7 / 4), 7 % 4 * 8, 5⟩, 7), (⟨CNV_MAPk (8 / 4), 8 % 4 * 8, 5⟩, 8), (⟨CNV_MAPk (9 / 4), 9 % 4 * 8, 5⟩, 9), (⟨CNV_MAPk (10 / 4), 10 % 4 * 8, 5⟩, 10), (⟨CNV_MAPk (11 / 4), 11 % 4 * 8, 5⟩, 11), (⟨CNV_MAPk (12 / 4), 12 % 4 * 8, 5⟩, 12), (⟨CNV_MAPk (13 / 4), 13 % 4 * 8, 5⟩, 13), (⟨CNV_MAPk (14 / 4), 14 % 4 * 8, 5⟩, 14), (⟨CNV_MAPk (15 / 4), 15 % 4 * 8, 5⟩, 15), (CNV_CAL_STATUS.STATE, 2), (CNV_CAL_COUNT.LAPS, 68608), (CNV_CAL_STATUS.SPARE, 16), (CNV_CAL_STATUS.TARGET, 3), (CNV_CAL_CTRL.EN, 1), (CNV_STATUS.REF_READY, 1), (AFE_STATUS.ANA_UP, 1)] { State.reset with cnv := { ext := 2, pairs := { n := 8191 } } }), 3, by unfold Settled; decide +kernel⟩
theorem wit_CalibrationSteps_2 : ∃ (s : State) (b : Fin 16), targetOf s = b ∧ calRuns s = true ∧ calState s = 2 ∧ stepLaps s ≤ calCount s ∧ 8192 ≤ s.cnv.pairs.n ∧ fitGood s.cnv.pairs = true ∧ spareOf s < 17 ∧ sliceOf s (targetOf s) < 17 ∧ sliceOf s (targetOf s) ≠ spareOf s ∧ s.cnv.suspects = [] ∧ targetOf s = s.cnv.norm :=
  ⟨(put [(⟨CNV_MAPk (0 / 4), 0 % 4 * 8, 5⟩, 0), (⟨CNV_MAPk (1 / 4), 1 % 4 * 8, 5⟩, 1), (⟨CNV_MAPk (2 / 4), 2 % 4 * 8, 5⟩, 2), (⟨CNV_MAPk (3 / 4), 3 % 4 * 8, 5⟩, 3), (⟨CNV_MAPk (4 / 4), 4 % 4 * 8, 5⟩, 4), (⟨CNV_MAPk (5 / 4), 5 % 4 * 8, 5⟩, 5), (⟨CNV_MAPk (6 / 4), 6 % 4 * 8, 5⟩, 6), (⟨CNV_MAPk (7 / 4), 7 % 4 * 8, 5⟩, 7), (⟨CNV_MAPk (8 / 4), 8 % 4 * 8, 5⟩, 8), (⟨CNV_MAPk (9 / 4), 9 % 4 * 8, 5⟩, 9), (⟨CNV_MAPk (10 / 4), 10 % 4 * 8, 5⟩, 10), (⟨CNV_MAPk (11 / 4), 11 % 4 * 8, 5⟩, 11), (⟨CNV_MAPk (12 / 4), 12 % 4 * 8, 5⟩, 12), (⟨CNV_MAPk (13 / 4), 13 % 4 * 8, 5⟩, 13), (⟨CNV_MAPk (14 / 4), 14 % 4 * 8, 5⟩, 14), (⟨CNV_MAPk (15 / 4), 15 % 4 * 8, 5⟩, 15), (CNV_CAL_STATUS.STATE, 2), (CNV_CAL_COUNT.LAPS, 66560), (CNV_CAL_STATUS.SPARE, 16), (CNV_CAL_STATUS.TARGET, 3), (CNV_CAL_CTRL.EN, 1), (CNV_STATUS.REF_READY, 1), (AFE_STATUS.ANA_UP, 1)] { State.reset with cnv := { norm := 3, pairs := { n := 8192, resS := 3, resO := 4 } } }), 3, by decide +kernel⟩
theorem wit_CalibrationSteps_3 : ∃ (s : State) (b : Fin 16), targetOf s = b ∧ calRuns s = true ∧ calState s = 2 ∧ stepLaps s ≤ calCount s ∧ 8192 ≤ s.cnv.pairs.n ∧ fitGood s.cnv.pairs = false ∧ s.cnv.pairs.resS < s.cnv.pairs.resO ∧ spareOf s < 17 ∧ sliceOf s (targetOf s) < 17 ∧ sliceOf s (targetOf s) ≠ spareOf s ∧ flag s (CNV_SLICEs_STATUS.SUSPECT (sliceOf s (targetOf s))) = false :=
  ⟨(put [(⟨CNV_MAPk (0 / 4), 0 % 4 * 8, 5⟩, 0), (⟨CNV_MAPk (1 / 4), 1 % 4 * 8, 5⟩, 1), (⟨CNV_MAPk (2 / 4), 2 % 4 * 8, 5⟩, 2), (⟨CNV_MAPk (3 / 4), 3 % 4 * 8, 5⟩, 3), (⟨CNV_MAPk (4 / 4), 4 % 4 * 8, 5⟩, 4), (⟨CNV_MAPk (5 / 4), 5 % 4 * 8, 5⟩, 5), (⟨CNV_MAPk (6 / 4), 6 % 4 * 8, 5⟩, 6), (⟨CNV_MAPk (7 / 4), 7 % 4 * 8, 5⟩, 7), (⟨CNV_MAPk (8 / 4), 8 % 4 * 8, 5⟩, 8), (⟨CNV_MAPk (9 / 4), 9 % 4 * 8, 5⟩, 9), (⟨CNV_MAPk (10 / 4), 10 % 4 * 8, 5⟩, 10), (⟨CNV_MAPk (11 / 4), 11 % 4 * 8, 5⟩, 11), (⟨CNV_MAPk (12 / 4), 12 % 4 * 8, 5⟩, 12), (⟨CNV_MAPk (13 / 4), 13 % 4 * 8, 5⟩, 13), (⟨CNV_MAPk (14 / 4), 14 % 4 * 8, 5⟩, 14), (⟨CNV_MAPk (15 / 4), 15 % 4 * 8, 5⟩, 15), (CNV_CAL_STATUS.STATE, 2), (CNV_CAL_COUNT.LAPS, 66560), (CNV_CAL_STATUS.SPARE, 16), (CNV_CAL_STATUS.TARGET, 3), (CNV_CAL_CTRL.EN, 1), (CNV_STATUS.REF_READY, 1), (AFE_STATUS.ANA_UP, 1)] { State.reset with cnv := { pairs := { n := 8192, sumS := 8192 * 3, resS := 3, resO := 4 } } }), 3, by decide +kernel⟩
theorem wit_CalibrationSteps_4a : ∃ (s : State) (b : Fin 16), targetOf s = b ∧ calRuns s = true ∧ calState s = 2 ∧ stepLaps s ≤ calCount s ∧ spareOf s < 17 ∧ (s.cnv.pairs.n < 8192 ∧ 3 ≤ s.cnv.ext ∨ 8192 ≤ s.cnv.pairs.n ∧ fitGood s.cnv.pairs = false ∧ s.cnv.pairs.resO ≤ s.cnv.pairs.resS) :=
  ⟨(put [(⟨CNV_MAPk (0 / 4), 0 % 4 * 8, 5⟩, 0), (⟨CNV_MAPk (1 / 4), 1 % 4 * 8, 5⟩, 1), (⟨CNV_MAPk (2 / 4), 2 % 4 * 8, 5⟩, 2), (⟨CNV_MAPk (3 / 4), 3 % 4 * 8, 5⟩, 3), (⟨CNV_MAPk (4 / 4), 4 % 4 * 8, 5⟩, 4), (⟨CNV_MAPk (5 / 4), 5 % 4 * 8, 5⟩, 5), (⟨CNV_MAPk (6 / 4), 6 % 4 * 8, 5⟩, 6), (⟨CNV_MAPk (7 / 4), 7 % 4 * 8, 5⟩, 7), (⟨CNV_MAPk (8 / 4), 8 % 4 * 8, 5⟩, 8), (⟨CNV_MAPk (9 / 4), 9 % 4 * 8, 5⟩, 9), (⟨CNV_MAPk (10 / 4), 10 % 4 * 8, 5⟩, 10), (⟨CNV_MAPk (11 / 4), 11 % 4 * 8, 5⟩, 11), (⟨CNV_MAPk (12 / 4), 12 % 4 * 8, 5⟩, 12), (⟨CNV_MAPk (13 / 4), 13 % 4 * 8, 5⟩, 13), (⟨CNV_MAPk (14 / 4), 14 % 4 * 8, 5⟩, 14), (⟨CNV_MAPk (15 / 4), 15 % 4 * 8, 5⟩, 15), (CNV_CAL_STATUS.STATE, 2), (CNV_CAL_COUNT.LAPS, 70000), (CNV_CAL_STATUS.SPARE, 16), (CNV_CAL_STATUS.TARGET, 3), (CNV_CAL_CTRL.EN, 1), (CNV_STATUS.REF_READY, 1), (AFE_STATUS.ANA_UP, 1)] { State.reset with cnv := { ext := 3, pairs := { n := 8191 } } }), 3, by decide +kernel⟩
theorem wit_CalibrationSteps_4b : ∃ (s : State) (b : Fin 16), targetOf s = b ∧ calRuns s = true ∧ calState s = 2 ∧ stepLaps s ≤ calCount s ∧ spareOf s < 17 ∧ (s.cnv.pairs.n < 8192 ∧ 3 ≤ s.cnv.ext ∨ 8192 ≤ s.cnv.pairs.n ∧ fitGood s.cnv.pairs = false ∧ s.cnv.pairs.resO ≤ s.cnv.pairs.resS) :=
  ⟨(put [(⟨CNV_MAPk (0 / 4), 0 % 4 * 8, 5⟩, 0), (⟨CNV_MAPk (1 / 4), 1 % 4 * 8, 5⟩, 1), (⟨CNV_MAPk (2 / 4), 2 % 4 * 8, 5⟩, 2), (⟨CNV_MAPk (3 / 4), 3 % 4 * 8, 5⟩, 3), (⟨CNV_MAPk (4 / 4), 4 % 4 * 8, 5⟩, 4), (⟨CNV_MAPk (5 / 4), 5 % 4 * 8, 5⟩, 5), (⟨CNV_MAPk (6 / 4), 6 % 4 * 8, 5⟩, 6), (⟨CNV_MAPk (7 / 4), 7 % 4 * 8, 5⟩, 7), (⟨CNV_MAPk (8 / 4), 8 % 4 * 8, 5⟩, 8), (⟨CNV_MAPk (9 / 4), 9 % 4 * 8, 5⟩, 9), (⟨CNV_MAPk (10 / 4), 10 % 4 * 8, 5⟩, 10), (⟨CNV_MAPk (11 / 4), 11 % 4 * 8, 5⟩, 11), (⟨CNV_MAPk (12 / 4), 12 % 4 * 8, 5⟩, 12), (⟨CNV_MAPk (13 / 4), 13 % 4 * 8, 5⟩, 13), (⟨CNV_MAPk (14 / 4), 14 % 4 * 8, 5⟩, 14), (⟨CNV_MAPk (15 / 4), 15 % 4 * 8, 5⟩, 15), (CNV_CAL_STATUS.STATE, 2), (CNV_CAL_COUNT.LAPS, 70000), (CNV_CAL_STATUS.SPARE, 16), (CNV_CAL_STATUS.TARGET, 3), (CNV_CAL_CTRL.EN, 1), (CNV_STATUS.REF_READY, 1), (AFE_STATUS.ANA_UP, 1), (CNV_SLICEs_STATUS.FAILS 16, 2)] { State.reset with cnv := { pairs := { n := 8192, sumS := -8192 * 3, resS := 4, resO := 4 } } }), 3, by decide +kernel⟩
theorem wit_CalibrationSteps_6 : ∃ (s : State) (block : Nat), calRuns s = true ∧ lap s = 1024 * block ∧ s.cnv.trackAt ≠ tick s + 1 :=
  ⟨(put [(⟨CNV_MAPk (0 / 4), 0 % 4 * 8, 5⟩, 0), (⟨CNV_MAPk (1 / 4), 1 % 4 * 8, 5⟩, 1), (⟨CNV_MAPk (2 / 4), 2 % 4 * 8, 5⟩, 2), (⟨CNV_MAPk (3 / 4), 3 % 4 * 8, 5⟩, 3), (⟨CNV_MAPk (4 / 4), 4 % 4 * 8, 5⟩, 4), (⟨CNV_MAPk (5 / 4), 5 % 4 * 8, 5⟩, 5), (⟨CNV_MAPk (6 / 4), 6 % 4 * 8, 5⟩, 6), (⟨CNV_MAPk (7 / 4), 7 % 4 * 8, 5⟩, 7), (⟨CNV_MAPk (8 / 4), 8 % 4 * 8, 5⟩, 8), (⟨CNV_MAPk (9 / 4), 9 % 4 * 8, 5⟩, 9), (⟨CNV_MAPk (10 / 4), 10 % 4 * 8, 5⟩, 10), (⟨CNV_MAPk (11 / 4), 11 % 4 * 8, 5⟩, 11), (⟨CNV_MAPk (12 / 4), 12 % 4 * 8, 5⟩, 12), (⟨CNV_MAPk (13 / 4), 13 % 4 * 8, 5⟩, 13), (⟨CNV_MAPk (14 / 4), 14 % 4 * 8, 5⟩, 14), (⟨CNV_MAPk (15 / 4), 15 % 4 * 8, 5⟩, 15), (CNV_CAL_STATUS.STATE, 1), (CNV_CAL_COUNT.LAPS, 5), (CNV_CAL_STATUS.SPARE, 16), (CNV_CAL_STATUS.TARGET, 3), (CNV_CAL_CTRL.EN, 1), (CNV_STATUS.REF_READY, 1), (AFE_STATUS.ANA_UP, 1)] { State.reset with bnd := 1024 }), 0, by decide +kernel⟩
theorem wit_CatalogueAndRecordBuffer_2 : ∃ (s : State) (w : Word), dueCmd s RED_CMD = some w ∧ opOf w = 1 :=
  ⟨({ State.reset with bnd := 1, accepted := [(RED_CMD, ⟨0, 0, 0, 1⟩)] }), 1, by decide +kernel⟩
theorem wit_CatalogueAndRecordBuffer_3 : ∃ (s : State) (w : Word), dueCmd s RED_CMD = some w ∧ opOf w = 2 ∧ outEn s (fget w 8 8) = false :=
  ⟨({ State.reset with bnd := 1, accepted := [(RED_CMD, ⟨0, 0, 0, 0xFF02⟩)] }), 0xFF02, by decide +kernel⟩
theorem wit_CatalogueAndRecordBuffer_4 : ∃ (s : State), 983040 ≤ s.red.fill ∧ fld s RED_STATUS.BP_STAGE < 2 :=
  ⟨({ State.reset with red := { fill := 983040 } }), by decide +kernel⟩
theorem wit_CatalogueAndRecordBuffer_5a : ∃ (s : State), 917504 ≤ s.red.fill ∧ s.red.fill < 983040 ∧ fld s RED_STATUS.BP_STAGE = 0 :=
  ⟨({ State.reset with red := { fill := 917504 } }), by decide +kernel⟩
theorem wit_CatalogueAndRecordBuffer_5b : ∃ (s : State), 917504 ≤ s.red.fill ∧ s.red.fill < 983040 ∧ fld s RED_STATUS.BP_STAGE = 0 :=
  ⟨({ State.reset with red := { fill := 983039 } }), by decide +kernel⟩
theorem wit_CatalogueAndRecordBuffer_7 : ∃ (s : State) (a : Nat) (bs : List Byte), dmcState s ≠ 2 ∧ dmcState s ≠ 3 ∧ bs ≠ [] ∧ a % 64 + bs.length ≤ 64 :=
  ⟨State.reset, 0x80300000, [1, 2], by decide +kernel⟩
theorem wit_LapAndItsCodes_0 : ∃ (s : State), s.pwr.held = false ∧ powerState s < 2 :=
  ⟨State.reset, by decide +kernel⟩
theorem wit_LapAndItsCodes_1 : ∃ (s : State), s.pwr.held = false ∧ powerState s = 2 :=
  ⟨(put [(TOP_PWR_STATUS.STATE, 2)] State.reset), by decide +kernel⟩
theorem wit_LapAndItsCodes_2a : ∃ (s : State), (s.pwr.held = true ∨ powerState s = 3) :=
  ⟨(put [(TOP_PWR_STATUS.STATE, 3)] State.reset), by decide +kernel⟩
theorem wit_LapAndItsCodes_2b : ∃ (s : State), (s.pwr.held = true ∨ powerState s = 3) :=
  ⟨({ State.reset with pwr := { held := true } }), by decide +kernel⟩
theorem wit_LapAndItsCodes_3a : ∃ (s : State) (f : D2DFrame) (c : Nat), s.lapInfo.got = false ∧ s.lapInfo.up = true ∧ s.hlt.d2dInject = 0 ∧ c < 256 ∧ nbit s.lapInfo.neg c = false ∧ nbit s.lapInfo.blank c = false ∧ nbit s.lapInfo.skew (c / 16) = false ∧ c ∉ f.overDiff ∧ c ∉ f.overPin :=
  ⟨({ State.reset with lapInfo := { got := false, up := true } }), { codes := [5, -6, 7] }, 2, by decide +kernel⟩
theorem wit_LapAndItsCodes_3b : ∃ (s : State) (f : D2DFrame) (c : Nat), s.lapInfo.got = false ∧ s.lapInfo.up = true ∧ s.hlt.d2dInject = 0 ∧ c < 256 ∧ nbit s.lapInfo.neg c = false ∧ nbit s.lapInfo.blank c = false ∧ nbit s.lapInfo.skew (c / 16) = false ∧ c ∉ f.overDiff ∧ c ∉ f.overPin :=
  ⟨({ State.reset with lapInfo := { got := false, up := true, cmx := 2 ^ 255 } }), { codes := List.replicate 256 (-99) }, 255, by decide +kernel⟩
theorem wit_LapAndItsCodes_4a : ∃ (s : State), (s.lapInfo.got = true ∨ s.lapInfo.up = false) :=
  ⟨State.reset, by decide +kernel⟩
theorem wit_LapAndItsCodes_4b : ∃ (s : State), (s.lapInfo.got = true ∨ s.lapInfo.up = false) :=
  ⟨({ State.reset with lapInfo := { got := false, up := false } }), by decide +kernel⟩
theorem wit_LapAndItsCodes_7 : ∃ (s : State) (a : Nat), Settled s ∧ a ∈ abortable ∧ (dueAt s a).isSome = true ∧ goesOn s a = false :=
  ⟨({ State.reset with bnd := 1, accepted := [(CTL_CMD, ⟨0, 0, 0, 3⟩)] }), CTL_CMD, by unfold Settled; decide +kernel⟩
theorem wit_RingCommands_0 : ∃ (s : State) (r : Fin 64), isPending s (ACQ_RINGr_CMD r) = true :=
  ⟨(put [(⟨ACQ_RINGr_CMD 63, 23, 1⟩, 1)] State.reset), 63, by decide +kernel⟩
theorem wit_RingCommands_1 : ∃ (s : State) (r : Fin 64), isPending s (ACQ_RINGr_CMD r) = false ∧ ringState s r ≠ 0 :=
  ⟨(put [(ACQ_RINGr_STATUS.STATE 63, 1)] State.reset), 63, by decide +kernel⟩
theorem wit_RingCommands_2 : ∃ (s : State) (r : Fin 64) (code : Nat), isPending s (ACQ_RINGr_CMD r) = false ∧ ringState s r = 0 ∧ armJudge (armCompute r s) r = some code :=
  ⟨State.reset, 63, 3, by decide +kernel⟩
theorem wit_RingCommands_3 : ∃ (s : State) (r : Fin 64), isPending s (ACQ_RINGr_CMD r) = false ∧ ringState s r = 0 ∧ armJudge (armCompute r s) r = none ∧ armOverlaps (armCompute r s) r = true :=
  ⟨(put [(ACQ_RINGr_CFG.KIND 2, 0), (⟨ACQ_RINGr_MASKk 2 0, 0, 32⟩, 3), (⟨ACQ_RINGr_BASE 2, 0, 32⟩, 0x08000000), (⟨ACQ_RINGr_SIZE 2, 0, 32⟩, 4096), (⟨ACQ_RINGr_FOLIO_BASE 2, 0, 32⟩, 0x10000000), (⟨ACQ_RINGr_FOLIO_SIZE 2, 0, 32⟩, 4096), (⟨ACQ_RINGr_PRE 2, 0, 32⟩, 4), (⟨ACQ_RINGr_POST 2, 0, 32⟩, 4), (⟨DMC_CLASS, 0, 32⟩, 0x24), (⟨ACQ_RINGr_FOLIO_SIZE 2, 0, 32⟩, 8192), (⟨CTL_TRACE_BASE, 0, 32⟩, 0x08000FFF), (⟨CTL_TRACE_SIZE, 0, 32⟩, 1)] State.reset), 2, by decide +kernel⟩
theorem wit_RingCommands_4 : ∃ (s : State) (r : Fin 64), Settled s ∧ isPending s (ACQ_RINGr_CMD r) = false ∧ ringState s r = 0 ∧ armJudge (armCompute r s) r = none ∧ armOverlaps (armCompute r s) r = false :=
  ⟨(put [(ACQ_RINGr_CFG.KIND 2, 0), (⟨ACQ_RINGr_MASKk 2 0, 0, 32⟩, 3), (⟨ACQ_RINGr_BASE 2, 0, 32⟩, 0x08000000), (⟨ACQ_RINGr_SIZE 2, 0, 32⟩, 4096), (⟨ACQ_RINGr_FOLIO_BASE 2, 0, 32⟩, 0x10000000), (⟨ACQ_RINGr_FOLIO_SIZE 2, 0, 32⟩, 4096), (⟨ACQ_RINGr_PRE 2, 0, 32⟩, 4), (⟨ACQ_RINGr_POST 2, 0, 32⟩, 4), (⟨DMC_CLASS, 0, 32⟩, 0x24), (⟨ACQ_RINGr_FOLIO_SIZE 2, 0, 32⟩, 8192)] State.reset), 2, by unfold Settled; decide +kernel⟩
theorem wit_RingCommands_7 : ∃ (s : State) (r : Fin 64) (w : Word), dueCmd s (ACQ_RINGr_CMD r) = some w ∧ opOf w = 1 ∧ (ringOf s r).disarm = false ∧ ringState s r = 0 ∧ armJudge s r = none :=
  ⟨(put [(ACQ_RINGr_CFG.KIND 2, 0), (⟨ACQ_RINGr_MASKk 2 0, 0, 32⟩, 3), (⟨ACQ_RINGr_BASE 2, 0, 32⟩, 0x08000000), (⟨ACQ_RINGr_SIZE 2, 0, 32⟩, 4096), (⟨ACQ_RINGr_FOLIO_BASE 2, 0, 32⟩, 0x10000000), (⟨ACQ_RINGr_FOLIO_SIZE 2, 0, 32⟩, 4096), (⟨ACQ_RINGr_PRE 2, 0, 32⟩, 4), (⟨ACQ_RINGr_POST 2, 0, 32⟩, 4), (⟨DMC_CLASS, 0, 32⟩, 0x24), (⟨ACQ_RINGr_FOLIO_SIZE 2, 0, 32⟩, 8192)] { State.reset with bnd := 1, accepted := [(ACQ_RINGr_CMD 2, ⟨0, 0, 0, 1⟩)] }), 2, 1, by decide +kernel⟩
theorem wit_RingCommands_8a : ∃ (s : State) (r : Fin 64) (w : Word), dueCmd s (ACQ_RINGr_CMD r) = some w ∧ opOf w = 2 ∧ (ringOf s r).disarm = false ∧ (ringState s r = 1 ∨ ringState s r = 4) :=
  ⟨(put [(ACQ_RINGr_STATUS.STATE 2, 4)] { State.reset with bnd := 1, accepted := [(ACQ_RINGr_CMD 2, ⟨0, 0, 0, 2⟩)] }), 2, 2, by decide +kernel⟩
theorem wit_RingCommands_8b : ∃ (s : State) (r : Fin 64) (w : Word), dueCmd s (ACQ_RINGr_CMD r) = some w ∧ opOf w = 2 ∧ (ringOf s r).disarm = false ∧ (ringState s r = 1 ∨ ringState s r = 4) :=
  ⟨(put [(ACQ_RINGr_STATUS.STATE 2, 1)] { State.reset with bnd := 1, accepted := [(ACQ_RINGr_CMD 2, ⟨0, 0, 0, 2⟩)] }), 2, 2, by decide +kernel⟩
theorem wit_RingCommands_9 : ∃ (s : State) (r : Fin 64) (w : Word) (f : Folio), dueCmd s (ACQ_RINGr_CMD r) = some w ∧ opOf w = 2 ∧ (ringOf s r).disarm = false ∧ ringState s r = 2 ∧ (ringOf s r).folio = some f ∧ f.last = none :=
  ⟨(put [(ACQ_RINGr_STATUS.STATE 2, 2)] { State.reset with acq := { ring := [(2, { folio := some ⟨0, 9, 100, 96, none, 0, 5, 0, 0, false, true, false, false, false, false, [], 0, 0, 0, 0, [], 0, false, none⟩ })] }, bnd := 1, accepted := [(ACQ_RINGr_CMD 2, ⟨0, 0, 0, 2⟩)] }), 2, 2, ⟨0, 9, 100, 96, none, 0, 5, 0, 0, false, true, false, false, false, false, [], 0, 0, 0, 0, [], 0, false, none⟩, by decide +kernel⟩
theorem wit_RingCommands_10 : ∃ (s : State) (r : Fin 64), Settled s ∧ rearmDue s r = true :=
  ⟨(put [(ACQ_RINGr_STATUS.STATE 2, 4)] State.reset), 2, by unfold Settled; decide +kernel⟩
theorem wit_TriggerInputsAndPulses_0a : ∃ (s : State) (p : Fin 8) (ofs : Nat) (delay : Nat) (d : Nat) (high : Bool), d = clampNat (filterDelay (fld s (ACQ_TRIGINp_CFG.FILT p))) (filterDelay (fld s (ACQ_TRIGINp_CFG.FILT p)) + 20 * unitsPerNs) delay ∧ (fld s (ACQ_TRIGINp_CFG.EDGE p) = 2 ∨ high = !decide (fld s (ACQ_TRIGINp_CFG.EDGE p) = 1)) ∧ ((trigInOf s p).last = 0 ∨ (trigInOf s p).last + 100 * unitsPerNs ≤ clk (atOfs ofs s) - d + 1) ∧ ((trigInOf s p).acc = 0 ∨ (trigInOf s p).acc + fld s (ACQ_TRIGINp_CFG.HOLDOFF p) * lapUnits ≤ clk (atOfs ofs s) - d + 1) ∧ awake s = true ∧ s.twin.mirrored = false ∧ s.twin.switchAt = none :=
  ⟨(put [(ACQ_TRIGINp_CFG.FILT 7, 3), (ACQ_TRIGINp_CFG.EDGE 7, 0)] { State.reset with bnd := 9 }), 7, 0, 7000000, 7000000, true, by decide +kernel⟩
theorem wit_TriggerInputsAndPulses_0b : ∃ (s : State) (p : Fin 8) (ofs : Nat) (delay : Nat) (d : Nat) (high : Bool), d = clampNat (filterDelay (fld s (ACQ_TRIGINp_CFG.FILT p))) (filterDelay (fld s (ACQ_TRIGINp_CFG.FILT p)) + 20 * unitsPerNs) delay ∧ (fld s (ACQ_TRIGINp_CFG.EDGE p) = 2 ∨ high = !decide (fld s (ACQ_TRIGINp_CFG.EDGE p) = 1)) ∧ ((trigInOf s p).last = 0 ∨ (trigInOf s p).last + 100 * unitsPerNs ≤ clk (atOfs ofs s) - d + 1) ∧ ((trigInOf s p).acc = 0 ∨ (trigInOf s p).acc + fld s (ACQ_TRIGINp_CFG.HOLDOFF p) * lapUnits ≤ clk (atOfs ofs s) - d + 1) ∧ awake s = true ∧ s.twin.mirrored = false ∧ s.twin.switchAt = none :=
  ⟨(put [(ACQ_TRIGINp_CFG.FILT 7, 0), (ACQ_TRIGINp_CFG.EDGE 7, 1)] { State.reset with bnd := 9, acq := { inp := [(7, { last := 1, acc := 1 })] } }), 7, 0, 0, 0, false, by decide +kernel⟩
theorem wit_TriggerInputsAndPulses_1 : ∃ (s : State) (p : Fin 8) (ofs : Nat) (high : Bool), Settled s ∧ awake s = true ∧ fld s (ACQ_TRIGINp_CFG.FILT p) = 0 ∧ (fld s (ACQ_TRIGINp_CFG.EDGE p) = 2 ∨ high = !decide (fld s (ACQ_TRIGINp_CFG.EDGE p) = 1)) ∧ 0 < (trigInOf s p).acc ∧ clk (atOfs ofs s) + 1 < (trigInOf s p).acc + fld s (ACQ_TRIGINp_CFG.HOLDOFF p) * lapUnits :=
  ⟨(put [(ACQ_TRIGINp_CFG.FILT 7, 0), (ACQ_TRIGINp_CFG.EDGE 7, 2), (ACQ_TRIGINp_CFG.HOLDOFF 7, 3)] { State.reset with bnd := 9, acq := { inp := [(7, { last := 9 * lapUnits + 1, acc := 9 * lapUnits + 1, stamp := 4 })] } }), 7, 65536, true, by unfold Settled; decide +kernel⟩
theorem wit_TriggerInputsAndPulses_2 : ∃ (s : State) (p : Fin 8) (high : Bool), Settled s ∧ fld s (ACQ_TRIGINp_CFG.EDGE p) ≠ 2 ∧ high = decide (fld s (ACQ_TRIGINp_CFG.EDGE p) = 1) :=
  ⟨({ State.reset with bnd := 9 }), 7, false, by unfold Settled; decide +kernel⟩
theorem wit_TriggerInputsAndPulses_3a : ∃ (s : State) (ofs : Nat) (delay : Nat) (d : Nat), d = clampNat (filterDelay (fld s ACQ_BUS_CFG.FILT)) (filterDelay (fld s ACQ_BUS_CFG.FILT) + 20 * unitsPerNs) delay ∧ ((trigInOf s 8).last = 0 ∨ (trigInOf s 8).last + 100 * unitsPerNs ≤ clk (atOfs ofs s) - d + 1) ∧ ((trigInOf s 8).acc = 0 ∨ (trigInOf s 8).acc ≤ clk (atOfs ofs s) - d + 1) ∧ awake s = true ∧ s.twin.mirrored = false ∧ s.twin.switchAt = none :=
  ⟨(put [(ACQ_BUS_CFG.FILT, 0)] { State.reset with bnd := 9 }), 0, 0, 0, by decide +kernel⟩
theorem wit_TriggerInputsAndPulses_3b : ∃ (s : State) (ofs : Nat) (delay : Nat) (d : Nat), d = clampNat (filterDelay (fld s ACQ_BUS_CFG.FILT)) (filterDelay (fld s ACQ_BUS_CFG.FILT) + 20 * unitsPerNs) delay ∧ ((trigInOf s 8).last = 0 ∨ (trigInOf s 8).last + 100 * unitsPerNs ≤ clk (atOfs ofs s) - d + 1) ∧ ((trigInOf s 8).acc = 0 ∨ (trigInOf s 8).acc ≤ clk (atOfs ofs s) - d + 1) ∧ awake s = true ∧ s.twin.mirrored = false ∧ s.twin.switchAt = none :=
  ⟨(put [(ACQ_BUS_CFG.FILT, 0)] { State.reset with bnd := 9, acq := { inp := [(8, { last := 1, acc := 1 })] } }), 0, 0, 0, by decide +kernel⟩
theorem wit_TriggerInputsAndPulses_5 : ∃ (s : State) (r : Fin 64) (ofs : Nat), Settled s ∧ 0 < tget (fun _ => 0) s.out.bus r ∧ tget (fun _ => 0) s.out.bus r ≤ clk (atOfs ofs s) :=
  ⟨({ State.reset with bnd := 9, out := { bus := [(63, 500)] } }), 63, 0, by unfold Settled; decide +kernel⟩
theorem wit_TriggersAndFolios_0 : ∃ (s : State) (r : Fin 64) (o : Offer) (k : Nat), arrivals s r = [o] ∧ ringState s r = 1 ∧ isWindowRing s r = false ∧ o.opens = false ∧ o.closes = false ∧ chooseSlot s r = some (k, false) :=
  ⟨(put [(ACQ_RINGr_STATUS.STATE 2, 1), (ACQ_RINGr_CFG.KIND 2, 0), (⟨ACQ_RINGr_MASKk 2 0, 0, 32⟩, 3), (⟨ACQ_RINGr_BASE 2, 0, 32⟩, 0x08000000), (⟨ACQ_RINGr_SIZE 2, 0, 32⟩, 4096), (⟨ACQ_RINGr_FOLIO_BASE 2, 0, 32⟩, 0x10000000), (⟨ACQ_RINGr_FOLIO_SIZE 2, 0, 32⟩, 4096), (⟨ACQ_RINGr_PRE 2, 0, 32⟩, 4), (⟨ACQ_RINGr_POST 2, 0, 32⟩, 4), (⟨DMC_CLASS, 0, 32⟩, 0x24), (⟨ACQ_RINGr_FOLIO_SIZE 2, 0, 32⟩, 8192)] { State.reset with bnd := 3, offers := [⟨2, 2, false, false, 77, 10, 3, 0, false⟩] }), 2, ⟨2, 2, false, false, 77, 10, 3, 0, false⟩, 0, by decide +kernel⟩
theorem wit_TriggersAndFolios_1 : ∃ (s : State) (r : Fin 64) (o : Offer), arrivals s r = [o] ∧ ringState s r = 1 ∧ isWindowRing s r = false ∧ o.opens = false ∧ o.closes = false ∧ chooseSlot s r = none :=
  ⟨(put [(ACQ_RINGr_STATUS.STATE 2, 1), (ACQ_RINGr_CFG.KIND 2, 0), (⟨ACQ_RINGr_MASKk 2 0, 0, 32⟩, 3), (⟨ACQ_RINGr_BASE 2, 0, 32⟩, 0x08000000), (⟨ACQ_RINGr_SIZE 2, 0, 32⟩, 4096), (⟨ACQ_RINGr_FOLIO_BASE 2, 0, 32⟩, 0x10000000), (⟨ACQ_RINGr_FOLIO_SIZE 2, 0, 32⟩, 4096), (⟨ACQ_RINGr_PRE 2, 0, 32⟩, 4), (⟨ACQ_RINGr_POST 2, 0, 32⟩, 4), (⟨DMC_CLASS, 0, 32⟩, 0x24), (⟨ACQ_RINGr_FOLIO_SIZE 2, 0, 32⟩, 8192), (ACQ_RINGr_SLOTS.BUSY 2, 2 ^ 32 - 1)] { State.reset with bnd := 3, offers := [⟨2, 2, false, false, 77, 10, 3, 0, false⟩] }), 2, ⟨2, 2, false, false, 77, 10, 3, 0, false⟩, by decide +kernel⟩
theorem wit_TriggersAndFolios_2 : ∃ (s : State) (r : Fin 64) (o : Offer) (f : Folio), arrivals s r = [o] ∧ ringState s r = 3 ∧ fillDue s r = false ∧ isWindowRing s r = false ∧ o.opens = false ∧ o.closes = false ∧ (ringOf s r).folio = some f ∧ f.nestedN < 8 ∧ f.nested.length = f.nestedN :=
  ⟨(put [(ACQ_RINGr_STATUS.STATE 2, 3), (ACQ_RINGr_CFG.KIND 2, 0), (⟨ACQ_RINGr_MASKk 2 0, 0, 32⟩, 3), (⟨ACQ_RINGr_BASE 2, 0, 32⟩, 0x08000000), (⟨ACQ_RINGr_SIZE 2, 0, 32⟩, 4096), (⟨ACQ_RINGr_FOLIO_BASE 2, 0, 32⟩, 0x10000000), (⟨ACQ_RINGr_FOLIO_SIZE 2, 0, 32⟩, 4096), (⟨ACQ_RINGr_PRE 2, 0, 32⟩, 4), (⟨ACQ_RINGr_POST 2, 0, 32⟩, 4), (⟨DMC_CLASS, 0, 32⟩, 0x24), (⟨ACQ_RINGr_FOLIO_SIZE 2, 0, 32⟩, 8192)] { State.reset with acq := { ring := [(2, { folio := some ⟨0, 9, 100, 96, some 103, 8, 5, 0, 0, false, false, false, false, false, false, [1, 2, 3, 4, 5, 6, 7], 7, 0, 0, 0, [], 0, false, none⟩ })] }, bnd := 3, offers := [⟨2, 2, false, false, 77, 10, 3, 0, false⟩] }), 2, ⟨2, 2, false, false, 77, 10, 3, 0, false⟩, ⟨0, 9, 100, 96, some 103, 8, 5, 0, 0, false, false, false, false, false, false, [1, 2, 3, 4, 5, 6, 7], 7, 0, 0, 0, [], 0, false, none⟩, by decide +kernel⟩
theorem wit_TriggersAndFolios_3 : ∃ (s : State) (r : Fin 64) (o : Offer), arrivals s r = [o] ∧ ringState s r = 4 ∧ rearmDue s r = false ∧ isWindowRing s r = false ∧ o.opens = false ∧ o.closes = false :=
  ⟨(put [(ACQ_RINGr_STATUS.STATE 2, 4), (ACQ_RINGr_CFG.KIND 2, 0), (⟨ACQ_RINGr_MASKk 2 0, 0, 32⟩, 3), (⟨ACQ_RINGr_BASE 2, 0, 32⟩, 0x08000000), (⟨ACQ_RINGr_SIZE 2, 0, 32⟩, 4096), (⟨ACQ_RINGr_FOLIO_BASE 2, 0, 32⟩, 0x10000000), (⟨ACQ_RINGr_FOLIO_SIZE 2, 0, 32⟩, 4096), (⟨ACQ_RINGr_PRE 2, 0, 32⟩, 4), (⟨ACQ_RINGr_POST 2, 0, 32⟩, 4), (⟨DMC_CLASS, 0, 32⟩, 0x24), (⟨ACQ_RINGr_FOLIO_SIZE 2, 0, 32⟩, 8192)] { State.reset with acq := { ring := [(2, { rearmEnd := 4 })] }, bnd := 3, offers := [⟨2, 2, false, false, 77, 10, 3, 0, false⟩] }), 2, ⟨2, 2, false, false, 77, 10, 3, 0, false⟩, by decide +kernel⟩
theorem wit_TriggersAndFolios_4 : ∃ (s : State) (r : Fin 64) (k : Nat), (ringOf s r).auto = true ∧ arrivals s r = [] ∧ ringState s r = 1 ∧ isWindowRing s r = false ∧ chooseSlot s r = some (k, false) :=
  ⟨(put [(ACQ_RINGr_STATUS.STATE 2, 1), (ACQ_RINGr_CFG.KIND 2, 0), (⟨ACQ_RINGr_MASKk 2 0, 0, 32⟩, 3), (⟨ACQ_RINGr_BASE 2, 0, 32⟩, 0x08000000), (⟨ACQ_RINGr_SIZE 2, 0, 32⟩, 4096), (⟨ACQ_RINGr_FOLIO_BASE 2, 0, 32⟩, 0x10000000), (⟨ACQ_RINGr_FOLIO_SIZE 2, 0, 32⟩, 4096), (⟨ACQ_RINGr_PRE 2, 0, 32⟩, 4), (⟨ACQ_RINGr_POST 2, 0, 32⟩, 4), (⟨DMC_CLASS, 0, 32⟩, 0x24), (⟨ACQ_RINGr_FOLIO_SIZE 2, 0, 32⟩, 8192)] { State.reset with acq := { ring := [(2, { auto := true })] }, bnd := 3 }), 2, 0, by decide +kernel⟩
theorem wit_TriggersAndFolios_5 : ∃ (s : State) (r : Fin 64), (ringOf s r).auto = false :=
  ⟨State.reset, 2, by decide +kernel⟩
theorem wit_TriggersAndFolios_6 : ∃ (s : State) (r : Fin 64) (f : Folio), fillDue s r = true ∧ (ringOf s r).folio = some f :=
  ⟨(put [(ACQ_RINGr_STATUS.STATE 2, 3), (ACQ_RINGr_CFG.KIND 2, 0), (⟨ACQ_RINGr_MASKk 2 0, 0, 32⟩, 3), (⟨ACQ_RINGr_BASE 2, 0, 32⟩, 0x08000000), (⟨ACQ_RINGr_SIZE 2, 0, 32⟩, 4096), (⟨ACQ_RINGr_FOLIO_BASE 2, 0, 32⟩, 0x10000000), (⟨ACQ_RINGr_FOLIO_SIZE 2, 0, 32⟩, 4096), (⟨ACQ_RINGr_PRE 2, 0, 32⟩, 4), (⟨ACQ_RINGr_POST 2, 0, 32⟩, 4), (⟨DMC_CLASS, 0, 32⟩, 0x24), (⟨ACQ_RINGr_FOLIO_SIZE 2, 0, 32⟩, 8192)] { State.reset with acq := { ring := [(2, { folio := some ⟨0, 9, 100, 96, some 103, 8, 5, 0, 0, false, false, false, false, false, false, [], 0, 0, 0, 0, [], 0, false, none⟩ })] }, bnd := 8 }), 2, ⟨0, 9, 100, 96, some 103, 8, 5, 0, 0, false, false, false, false, false, false, [], 0, 0, 0, 0, [], 0, false, none⟩, by decide +kernel⟩
theorem wit_TriggersAndFolios_7 : ∃ (s : State) (r : Fin 64) (f : Folio) (l : List Folio), (ringOf s r).publish = f :: l ∧ dramMapped s = true ∧ fld s DMC_STATUS.STATE ≠ 4 ∧ f.addr + 8 ≤ dramTop s ∧ waiting s = [] ∧ s.dmc.latent = [] ∧ s.dmc.inject = none :=
  ⟨(put [(ACQ_RINGr_STATUS.STATE 2, 4), (DMC_STATUS.STATE, 2), (ACQ_RINGr_CFG.KIND 2, 0), (⟨ACQ_RINGr_MASKk 2 0, 0, 32⟩, 3), (⟨ACQ_RINGr_BASE 2, 0, 32⟩, 0x08000000), (⟨ACQ_RINGr_SIZE 2, 0, 32⟩, 4096), (⟨ACQ_RINGr_FOLIO_BASE 2, 0, 32⟩, 0x10000000), (⟨ACQ_RINGr_FOLIO_SIZE 2, 0, 32⟩, 4096), (⟨ACQ_RINGr_PRE 2, 0, 32⟩, 4), (⟨ACQ_RINGr_POST 2, 0, 32⟩, 4), (⟨DMC_CLASS, 0, 32⟩, 0x24), (⟨ACQ_RINGr_FOLIO_SIZE 2, 0, 32⟩, 8192)] { State.reset with acq := { ring := [(2, { publish := [⟨0, 9, 100, 96, some 103, 8, 5, 0, 0, false, false, false, false, false, false, [], 0, 0, 0, 0, [], 0, false, none⟩] })] }, bnd := 8 }), 2, ⟨0, 9, 100, 96, some 103, 8, 5, 0, 0, false, false, false, false, false, false, [], 0, 0, 0, 0, [], 0, false, none⟩, [], by decide +kernel⟩
theorem wit_ControlCommandsAndOutputs_4 : ∃ (s : State), testRunning s = true ∧ 0 < s.ctl.test.len ∧ s.ctl.test.len ≤ s.ctl.test.ticks :=
  ⟨(put [(CTL_TEST_STATUS.RUNNING, 1)] { State.reset with ctl := { test := { len := 5, ticks := 5 } } }), by decide +kernel⟩
theorem wit_ControlCommandsAndOutputs_10 : ∃ (s : State) (j : Fin 16), Settled s ∧ lapD s % pwmPeriod s j = 0 ∧ s.tbs.pacer.ofs = 0 :=
  ⟨State.reset, 15, by unfold Settled; decide +kernel⟩
theorem wit_ControlTicks_0a : ∃ (s : State) (u : Fin 32), (flag s CTL_CTRL.EN = false ∨ unitMembers s u = [] ∨ tickDue s u = false) :=
  ⟨State.reset, 31, by decide +kernel⟩
theorem wit_ControlTicks_0b : ∃ (s : State) (u : Fin 32), (flag s CTL_CTRL.EN = false ∨ unitMembers s u = [] ∨ tickDue s u = false) :=
  ⟨(put [(CTL_CTRL.EN, 1)] State.reset), 31, by decide +kernel⟩
theorem wit_ControlTicks_1 : ∃ (s : State) (u : Fin 32), flag s CTL_CTRL.EN = true ∧ unitMembers s u ≠ [] ∧ tickDue s u = true ∧ (loopRun s u).tickBnd ≠ s.bnd + 1 ∧ (∀ q ∈ s.ctl.queue, q.unit ≠ u.val) ∧ testRunning s = false :=
  ⟨(put [(CTL_CTRL.EN, 1)] { State.reset with ctl := { active := [(0xA0061000 + 4 * 128 + 0, 0x90000000)] } }), 4, by decide +kernel⟩
theorem wit_ControlTicks_2 : ∃ (s : State) (u : Fin 32) (q : Tick), flag s CTL_CTRL.EN = true ∧ unitMembers s u = [u.val] ∧ tickDue s u = true ∧ (loopRun s u).tickBnd ≠ s.bnd + 1 ∧ q ∈ s.ctl.queue ∧ q.unit = u.val ∧ (∀ e ∈ s.ctl.evals, e.tick.unit ≠ u.val) ∧ testRunning s = false :=
  ⟨(put [(CTL_CTRL.EN, 1), (CTL_LOOPn_STATUS.STATE 4, 1)] { State.reset with ctl := { active := [(0xA0061000 + 4 * 128 + 0, 0x90000000)], queue := [⟨4, 4, 0, 100, { }, { }, 0, [], []⟩] }, bnd := 16 }), 4, ⟨4, 4, 0, 100, { }, { }, 0, [], []⟩, by decide +kernel⟩
theorem wit_ControlTicks_3a : ∃ (s : State), (s.ctl.queue = [] ∨ 6 ≤ s.ctl.slots ∨ flag s CTL_CTRL.EN = false) :=
  ⟨State.reset, by decide +kernel⟩
theorem wit_ControlTicks_3b : ∃ (s : State), (s.ctl.queue = [] ∨ 6 ≤ s.ctl.slots ∨ flag s CTL_CTRL.EN = false) :=
  ⟨({ State.reset with ctl := { queue := [⟨4, 4, 0, 100, { }, { }, 0, [], []⟩], slots := 6 } }), by decide +kernel⟩
theorem wit_ControlTicks_4 : ∃ (s : State) (q : Tick) (l : List Tick), s.ctl.queue = q :: l ∧ s.ctl.slots < 6 ∧ flag s CTL_CTRL.EN = true ∧ q.loop < 32 ∧ (testRunning s = false ∨ s.ctl.test.loop ≠ q.loop ∨ traceOverlaps s = false) :=
  ⟨(put [(CTL_CTRL.EN, 1), (CTL_LOOPn_STATUS.STATE 4, 1)] { State.reset with ctl := { queue := [⟨4, 4, 0, 100, { }, { }, 0, [], []⟩], slots := 5 }, bnd := 1 }), ⟨4, 4, 0, 100, { }, { }, 0, [], []⟩, [], by decide +kernel⟩
theorem wit_ControlTicks_5 : ∃ (s : State) (q : Tick) (l : List Tick), s.ctl.queue = q :: l ∧ s.ctl.slots < 6 ∧ flag s CTL_CTRL.EN = true ∧ q.loop < 32 ∧ testRunning s = false ∧ (∀ p ∈ l, ¬(p.unit = q.unit ∧ p.bnd = q.bnd)) ∧ s.ctl.evals = [] ∧ loopState s q.loop = 2 ∧ snapFld q.cfg 0x30 28 4 = 0 :=
  ⟨(put [(CTL_CTRL.EN, 1), (CTL_LOOPn_STATUS.STATE 4, 2)] { State.reset with ctl := { queue := [⟨4, 4, 0, 100, { }, { }, 0, [], []⟩], slots := 0 }, bnd := 1 }), ⟨4, 4, 0, 100, { }, { }, 0, [], []⟩, [], by decide +kernel⟩
theorem wit_ControlTicks_6 : ∃ (s : State), flag s CTL_CTRL.EN = false :=
  ⟨State.reset, by decide +kernel⟩
theorem wit_ControlTicks_7 : ∃ (s : State) (u : Fin 32) (o : UnitOut) (e : Eval), flag s CTL_CTRL.EN = true ∧ s.ctl.outs.filter (fun o => decide (o.unit = u.val) && decide (o.bnd < s.bnd)) = [o] ∧ o.evals = [e] ∧ e.tick.loop < 32 ∧ loopState s e.tick.loop ≠ 0 ∧ snapFld e.tick.cfg 0 25 1 = 0 ∧ snapFld e.tick.cfg 0 16 4 = 1 ∧ snapFld e.tick.cfg 0 8 8 < 16 ∧ tget (fun _ => 0) s.out.setBy (snapFld e.tick.cfg 0 8 8) ≤ 3 + u :=
  ⟨(put [(CTL_CTRL.EN, 1), (CTL_LOOPn_STATUS.STATE 4, 1)] { State.reset with ctl := { outs := [⟨4, 0, .fin false 3 0, 4, [⟨⟨4, 4, 0, 100, { }, { }, 0, [(0, 0x80010F00), (0x28, 0x3F800000)], []⟩, .fin false 0 0, .fin false 0 0, .fin false 0 0, .fin false 0 0, true, true, { }, .fin false 0 0, .fin false 0 0, false⟩]⟩] }, bnd := 1 }), 4, ⟨4, 0, .fin false 3 0, 4, [⟨⟨4, 4, 0, 100, { }, { }, 0, [(0, 0x80010F00), (0x28, 0x3F800000)], []⟩, .fin false 0 0, .fin false 0 0, .fin false 0 0, .fin false 0 0, true, true, { }, .fin false 0 0, .fin false 0 0, false⟩]⟩, ⟨⟨4, 4, 0, 100, { }, { }, 0, [(0, 0x80010F00), (0x28, 0x3F800000)], []⟩, .fin false 0 0, .fin false 0 0, .fin false 0 0, .fin false 0 0, true, true, { }, .fin false 0 0, .fin false 0 0, false⟩, by decide +kernel⟩
theorem wit_IssueRules_0a : ∃ (s : State) (i : Instr) (n : Fin 5), Settled s ∧ (coreOfInstr i = some n ∨ (∃ w, i = .illegalInstruction n w) ∨ i = .fetchFault n) :=
  ⟨State.reset, .nop 3, 3, rfl, .inl rfl⟩
theorem wit_IssueRules_0b : ∃ (s : State) (i : Instr) (n : Fin 5), Settled s ∧ (coreOfInstr i = some n ∨ (∃ w, i = .illegalInstruction n w) ∨ i = .fetchFault n) :=
  ⟨State.reset, .illegalInstruction 0 5, 0, rfl, .inr (.inl ⟨5, rfl⟩)⟩
theorem wit_IssueRules_1 : ∃ (s : State) (n : Fin 5), Settled s ∧ Issues n s :=
  ⟨(put [(TOP_COREn_STATUS.STATE 0, 1), (TOP_COREn_STATUS.MODE 0, 0)] State.reset), 0, by unfold Settled Issues; decide +kernel⟩
theorem wit_IssueRules_2 : ∃ (s : State) (n : Fin 5), Settled s ∧ Issues n s :=
  ⟨(put [(TOP_COREn_STATUS.STATE 3, 1), (TOP_COREn_STATUS.MODE 3, 0)] State.reset), 3, by unfold Settled Issues; decide +kernel⟩
theorem wit_TakingAndLeavingExceptions_0 : ∃ (s : State) (n : Fin 5) (w : Word), Settled s ∧ Issues n s ∧ legalWord w = false ∧ nbit (coreOf s n).estat.toNat 5 = false :=
  ⟨(put [(TOP_COREn_STATUS.STATE 1, 1), (TOP_COREn_STATUS.MODE 1, 0)] State.reset), 1, 0xFFFFFFFF, by unfold Settled Issues; decide +kernel⟩
theorem wit_TakingAndLeavingExceptions_1 : ∃ (s : State) (n : Fin 5) (w : Word), Issues n s ∧ legalWord w = false ∧ nbit (coreOf s n).estat.toNat 5 = true ∧ (n.val = 4 → flag s TOP_RESET_CFG.FAULT_RST = false) :=
  ⟨(put [(TOP_COREn_STATUS.STATE 4, 1), (TOP_COREn_STATUS.MODE 4, 0), (TOP_RESET_CFG.FAULT_RST, 0)] { State.reset with cores := { core := [(4, { estat := 32 })] } }), 4, 0xFFFFFFFF, by unfold Issues; decide +kernel⟩
theorem wit_TakingAndLeavingExceptions_2 : ∃ (s : State) (n : Fin 5), Settled s ∧ Issues n s :=
  ⟨(put [(TOP_COREn_STATUS.STATE 1, 1), (TOP_COREn_STATUS.MODE 1, 0)] { State.reset with cores := { core := [(1, { estat := 48, epc := 0x90000010 })] } }), 1, by unfold Settled Issues; decide +kernel⟩
theorem wit_IntegerRegisterResults_0a : ∃ (s : State) (n : Fin 5) (rs : Fin 16) (rt : Fin 16) (a : Word) (b : Word) (k : Nat) (c : Bool) (v : Bool), Settled s ∧ Issues n s ∧ a = reg s n rs ∧ b = reg s n rt ∧ k = b.toNat % 32 ∧ c = nbit (coreOf s n).flags 1 ∧ v = nbit (coreOf s n).flags 0 :=
  ⟨(put [(TOP_COREn_STATUS.STATE 2, 1), (TOP_COREn_STATUS.MODE 2, 0)] { State.reset with cores := { core := [(2, { w := [(1, 0x80000000), (2, 0xFFFFFFFF)], flags := 2 })] } }), 2, 1, 2, 0x80000000, 0xFFFFFFFF, 31, true, false, by unfold Settled Issues; decide +kernel⟩
theorem wit_IntegerRegisterResults_0b : ∃ (s : State) (n : Fin 5) (rs : Fin 16) (rt : Fin 16) (a : Word) (b : Word) (k : Nat) (c : Bool) (v : Bool), Settled s ∧ Issues n s ∧ a = reg s n rs ∧ b = reg s n rt ∧ k = b.toNat % 32 ∧ c = nbit (coreOf s n).flags 1 ∧ v = nbit (coreOf s n).flags 0 :=
  ⟨(put [(TOP_COREn_STATUS.STATE 2, 1), (TOP_COREn_STATUS.MODE 2, 0)] { State.reset with cores := { core := [(2, { w := [(1, 0x80000000), (2, 0xFFFFFFFF)], flags := 1 })] } }), 2, 2, 0, 0xFFFFFFFF, 0, 0, false, true, by unfold Settled Issues; decide +kernel⟩
theorem wit_ImmediateResults_0a : ∃ (s : State) (n : Fin 5) (rs : Fin 16) (imm : BitVec 14) (a : Word) (x : Word) (c : Bool) (v : Bool), Settled s ∧ Issues n s ∧ a = reg s n rs ∧ x = BitVec.ofInt 32 imm.toInt ∧ c = nbit (coreOf s n).flags 1 ∧ v = nbit (coreOf s n).flags 0 :=
  ⟨(put [(TOP_COREn_STATUS.STATE 2, 1), (TOP_COREn_STATUS.MODE 2, 0)] { State.reset with cores := { core := [(2, { w := [(1, 0x80000000), (2, 0xFFFFFFFF)], flags := 2 })] } }), 2, 1, 0x2000, 0x80000000, 0xFFFFE000, true, false, by unfold Settled Issues; decide +kernel⟩
theorem wit_ImmediateResults_0b : ∃ (s : State) (n : Fin 5) (rs : Fin 16) (imm : BitVec 14) (a : Word) (x : Word) (c : Bool) (v : Bool), Settled s ∧ Issues n s ∧ a = reg s n rs ∧ x = BitVec.ofInt 32 imm.toInt ∧ c = nbit (coreOf s n).flags 1 ∧ v = nbit (coreOf s n).flags 0 :=
  ⟨(put [(TOP_COREn_STATUS.STATE 2, 1), (TOP_COREn_STATUS.MODE 2, 0)] { State.reset with cores := { core := [(2, { w := [(1, 0x80000000), (2, 0xFFFFFFFF)] })] } }), 2, 0, 0x1FFF, 0, 0x1FFF, false, false, by unfold Settled Issues; decide +kernel⟩
theorem wit_MultiplyAccumulateResults_0a : ∃ (s : State) (n : Fin 5) (rs : Fin 16) (rt : Fin 16) (one : Bool) (acc : Int) (a : Int) (b : Int), Settled s ∧ Issues n s ∧ acc = accOf s n one ∧ a = (reg s n rs).toInt ∧ b = (reg s n rt).toInt :=
  ⟨(put [(TOP_COREn_STATUS.STATE 2, 1), (TOP_COREn_STATUS.MODE 2, 0)] { State.reset with cores := { core := [(2, { w := [(1, 0x80000000), (2, 0xFFFFFFFF)], acc1 := -5 })] } }), 2, 1, 2, true, -5, -2147483648, -1, by unfold Settled Issues; decide +kernel⟩
theorem wit_MultiplyAccumulateResults_0b : ∃ (s : State) (n : Fin 5) (rs : Fin 16) (rt : Fin 16) (one : Bool) (acc : Int) (a : Int) (b : Int), Settled s ∧ Issues n s ∧ acc = accOf s n one ∧ a = (reg s n rs).toInt ∧ b = (reg s n rt).toInt :=
  ⟨(put [(TOP_COREn_STATUS.STATE 2, 1), (TOP_COREn_STATUS.MODE 2, 0)] { State.reset with cores := { core := [(2, { w := [(1, 0x80000000), (2, 0xFFFFFFFF)], acc0 := 2 ^ 63 - 1 })] } }), 2, 1, 2, false, 2 ^ 63 - 1, -2147483648, -1, by unfold Settled Issues; decide +kernel⟩
theorem wit_MultiplyAccumulateResults_0c : ∃ (s : State) (n : Fin 5) (rs : Fin 16) (rt : Fin 16) (one : Bool) (acc : Int) (a : Int) (b : Int), Settled s ∧ Issues n s ∧ acc = accOf s n one ∧ a = (reg s n rs).toInt ∧ b = (reg s n rt).toInt :=
  ⟨(put [(TOP_COREn_STATUS.STATE 2, 1), (TOP_COREn_STATUS.MODE 2, 0)] { State.reset with cores := { core := [(2, { w := [(1, 0x80000000), (2, 0xFFFFFFFF)], acc0 := 2 ^ 40 + 2 ^ 32 })] } }), 2, 1, 2, false, 2 ^ 40 + 2 ^ 32, -2147483648, -1, by unfold Settled Issues; decide +kernel⟩
theorem wit_FloatResults_0a : ∃ (s : State) (n : Fin 5) (fs : Fin 8) (ft : Fin 8) (a : FVal) (b : FVal), Settled s ∧ Issues n s ∧ a = fin32 (freg s n fs) ∧ b = fin32 (freg s n ft) :=
  ⟨(put [(TOP_COREn_STATUS.STATE 0, 1), (TOP_COREn_STATUS.MODE 0, 0)] { State.reset with cores := { core := [(0, { w := [(1, 0x80000001)], f := [(1, 0x3F800000), (2, 0x40490FDB)] })] } }), 0, 1, 2, fin32 0x3F800000, fin32 0x40490FDB, by unfold Settled Issues; decide +kernel⟩
theorem wit_FloatResults_0b : ∃ (s : State) (n : Fin 5) (fs : Fin 8) (ft : Fin 8) (a : FVal) (b : FVal), Settled s ∧ Issues n s ∧ a = fin32 (freg s n fs) ∧ b = fin32 (freg s n ft) :=
  ⟨(put [(TOP_COREn_STATUS.STATE 0, 1), (TOP_COREn_STATUS.MODE 0, 0)] { State.reset with cores := { core := [(0, { w := [(1, 0x80000001)], f := [(1, 0x7F800000), (2, 0xFF800000)] })] } }), 0, 1, 2, fin32 0x7F800000, fin32 0xFF800000, by unfold Settled Issues; decide +kernel⟩
theorem wit_FloatResults_0c : ∃ (s : State) (n : Fin 5) (fs : Fin 8) (ft : Fin 8) (a : FVal) (b : FVal), Settled s ∧ Issues n s ∧ a = fin32 (freg s n fs) ∧ b = fin32 (freg s n ft) :=
  ⟨(put [(TOP_COREn_STATUS.STATE 0, 1), (TOP_COREn_STATUS.MODE 0, 0)] { State.reset with cores := { core := [(0, { w := [(1, 0x80000001)], f := [(1, 0x7FC00000), (2, 0x00000001)] })] } }), 0, 1, 2, fin32 0x7FC00000, fin32 0x00000001, by unfold Settled Issues; decide +kernel⟩
theorem wit_FloatResults_0d : ∃ (s : State) (n : Fin 5) (fs : Fin 8) (ft : Fin 8) (a : FVal) (b : FVal), Settled s ∧ Issues n s ∧ a = fin32 (freg s n fs) ∧ b = fin32 (freg s n ft) :=
  ⟨(put [(TOP_COREn_STATUS.STATE 0, 1), (TOP_COREn_STATUS.MODE 0, 0)] { State.reset with cores := { core := [(0, { w := [(1, 0x80000001)], f := [(1, 0xC1200000), (2, 0x40400000)] })] } }), 0, 1, 2, fin32 0xC1200000, fin32 0x40400000, by unfold Settled Issues; decide +kernel⟩
theorem wit_FloatResults_0e : ∃ (s : State) (n : Fin 5) (fs : Fin 8) (ft : Fin 8) (a : FVal) (b : FVal), Settled s ∧ Issues n s ∧ a = fin32 (freg s n fs) ∧ b = fin32 (freg s n ft) :=
  ⟨(put [(TOP_COREn_STATUS.STATE 0, 1), (TOP_COREn_STATUS.MODE 0, 0)] { State.reset with cores := { core := [(0, { w := [(1, 0x80000001)], f := [(1, 0x4F000000), (2, 0xCF000001)] })] } }), 0, 1, 2, fin32 0x4F000000, fin32 0xCF000001, by unfold Settled Issues; decide +kernel⟩
theorem wit_FloatCompareAndSpecialValues_0 : ∃ (s : State) (n : Fin 5) (fs : Fin 8) (ft : Fin 8) (na : Bool) (nb : Bool) (ma : Nat) (mb : Nat) (ea : Int) (eb : Int), Settled s ∧ Issues n s ∧ fin32 (freg s n fs) = .fin na ma ea ∧ fin32 (freg s n ft) = .fin nb mb eb :=
  ⟨(put [(TOP_COREn_STATUS.STATE 0, 1), (TOP_COREn_STATUS.MODE 0, 0)] { State.reset with cores := { core := [(0, { f := [(1, 0x3F800000), (2, 0xC0000000)] })] } }), 0, 1, 2, false, true, 2 ^ 23, 2 ^ 23, -23, -22, by unfold Settled Issues; decide +kernel⟩
theorem wit_FloatCompareAndSpecialValues_1 : ∃ (s : State) (n : Fin 5) (fs : Fin 8) (ft : Fin 8), Settled s ∧ Issues n s ∧ (fin32 (freg s n fs) = .nan ∨ fin32 (freg s n ft) = .nan) :=
  ⟨(put [(TOP_COREn_STATUS.STATE 0, 1), (TOP_COREn_STATUS.MODE 0, 0)] { State.reset with cores := { core := [(0, { f := [(1, 0x7FC00000), (2, 0xC0000000)] })] } }), 0, 1, 2, by unfold Settled Issues; decide +kernel⟩
theorem wit_FloatCompareAndSpecialValues_2 : ∃ (s : State) (n : Fin 5) (fd : Fin 8) (fs : Fin 8) (ft : Fin 8) (i : Instr), Settled s ∧ Issues n s ∧ (fin32 (freg s n fs) = .nan ∨ fin32 (freg s n ft) = .nan) ∧ i ∈ [Instr.fadd n fd fs ft, .fsub n fd fs ft, .fmul n fd fs ft, .fdiv n fd fs ft, .fmac n fd fs ft] :=
  ⟨(put [(TOP_COREn_STATUS.STATE 0, 1), (TOP_COREn_STATUS.MODE 0, 0)] { State.reset with cores := { core := [(0, { f := [(1, 0x3F800000), (2, 0xFFC00000)] })] } }), 0, 3, 1, 2, .fmac 0 3 1 2, by unfold Settled Issues; decide +kernel⟩
theorem wit_FloatCompareAndSpecialValues_3 : ∃ (s : State) (n : Fin 5) (fd : Fin 8) (fs : Fin 8) (ft : Fin 8) (i : Instr), Settled s ∧ Issues n s ∧ i ∈ [Instr.fadd n fd fs ft, .fsub n fd fs ft, .fmul n fd fs ft, .fdiv n fd fs ft, .fsqrt n fd fs, .fmac n fd fs ft] :=
  ⟨(put [(TOP_COREn_STATUS.STATE 0, 1), (TOP_COREn_STATUS.MODE 0, 0)] { State.reset with cores := { core := [(0, { f := [(1, 0x3F800000), (2, 0x0)] })] } }), 0, 3, 1, 2, .fsqrt 0 3 1, by unfold Settled Issues; decide +kernel⟩
theorem wit_FloatCompareAndSpecialValues_4 : ∃ (w : Word), w.toNat / 2 ^ 23 % 2 ^ 8 = 0 :=
  ⟨0x807FFFFF, by decide +kernel⟩
theorem wit_BranchesAndJumps_0 : ∃ (s : State) (n : Fin 5) (nf : Bool) (zf : Bool) (cf : Bool) (vf : Bool), Settled s ∧ Issues n s ∧ nf = nbit (coreOf s n).flags 3 ∧ zf = nbit (coreOf s n).flags 2 ∧ cf = nbit (coreOf s n).flags 1 ∧ vf = nbit (coreOf s n).flags 0 :=
  ⟨(put [(TOP_COREn_STATUS.STATE 4, 1), (TOP_COREn_STATUS.MODE 4, 0)] { State.reset with cores := { core := [(4, { w := [(1, 0x90000040)], flags := 10 })] } }), 4, true, false, true, false, by unfold Settled Issues; decide +kernel⟩
theorem wit_BranchesAndJumps_1 : ∃ (s : State) (n : Fin 5), Settled s ∧ Issues n s ∧ (coreOf s n).stores = [] ∧ unacked s n = false :=
  ⟨(put [(TOP_COREn_STATUS.STATE 4, 1), (TOP_COREn_STATUS.MODE 4, 0)] State.reset), 4, by unfold Settled Issues; decide +kernel⟩
theorem wit_BranchesAndJumps_2 : ∃ (s : State) (n : Fin 5) (p : Nat × List Byte), Issues n s ∧ (coreOf s n).stores = [p] ∧ localAt p.1 = none ∧ p.1 % 32 + p.2.length ≤ 32 ∧ (isDram s p.1 = true ∨ 0x80000000 ≤ p.1) ∧ waiting s = [] ∧ s.dmc.latent = [] ∧ s.dmc.inject = none :=
  ⟨(put [(TOP_COREn_STATUS.STATE 4, 1), (TOP_COREn_STATUS.MODE 4, 0)] { State.reset with cores := { core := [(4, { stores := [(0x80000010, [1, 2, 3, 4])] })] } }), 4, (0x80000010, [1, 2, 3, 4]), by unfold Issues; decide +kernel⟩
theorem wit_RegisterInstructionFrame_0a : ∃ (s : State) (i : Instr) (n : Fin 5), Settled s ∧ Issues n s ∧ coreOfInstr i = some n ∧ registerOnly i = true :=
  ⟨(put [(TOP_COREn_STATUS.STATE 1, 1), (TOP_COREn_STATUS.MODE 1, 0)] State.reset), .add 1 2 3 4, 1, by unfold Settled Issues; decide +kernel⟩
theorem wit_RegisterInstructionFrame_0b : ∃ (s : State) (i : Instr) (n : Fin 5), Settled s ∧ Issues n s ∧ coreOfInstr i = some n ∧ registerOnly i = true :=
  ⟨(put [(TOP_COREn_STATUS.STATE 1, 1), (TOP_COREn_STATUS.MODE 1, 0)] State.reset), .fmac 1 2 3 4, 1, by unfold Settled Issues; decide +kernel⟩
theorem wit_LoadResults_0a : ∃ (s : State) (n : Fin 5) (rd : Fin 16) (rb : Fin 16) (fd : Fin 8) (am : Fin 3) (off : BitVec 13) (p : Instr × Nat) (a : Nat) (v : Nat), Settled s ∧ Issues n s ∧ (∀ m, m ≠ n.val → (coreOf s m).stores = []) ∧ p ∈ [(Instr.ldb n rd rb am off, 1), (Instr.ldbu n rd rb am off, 1), (Instr.ldh n rd rb am off, 2), (Instr.ldhu n rd rb am off, 2), (Instr.ldw n rd rb am off, 4), (Instr.fld n fd rb am off, 4), (Instr.fldd n fd rb am off, 8)] ∧ a = memAddr s n rb am off p.2 ∧ accessFault s n p.2 a = none ∧ 0x80000000 ≤ canonical n a ∧ canonical n a < 0xA0000000 ∧ v = ofBytesLE ((List.range p.2).map (fun k => byteSeen s n (canonical n a + k))) :=
  ⟨(put [(TOP_COREn_STATUS.STATE 1, 1), (TOP_COREn_STATUS.MODE 1, 0)] { State.reset with mem := [(0x80000010, 0x80), (0x80000011, 0xFF), (0x91140000, 7)], cores := { core := [(1, { w := [(1, 0x80000000)] })] } }), 1, 5, 1, 2, 0, 16, (Instr.ldb 1 5 1 0 16, 1), 0x80000010, 0x80, by unfold Settled Issues; exact ⟨by decide +kernel, by decide +kernel, other_stores_empty _ _ _ rfl, by decide +kernel, by decide +kernel, by decide +kernel, by decide +kernel, by decide +kernel, by decide +kernel⟩⟩
theorem wit_LoadResults_0b : ∃ (s : State) (n : Fin 5) (rd : Fin 16) (rb : Fin 16) (fd : Fin 8) (am : Fin 3) (off : BitVec 13) (p : Instr × Nat) (a : Nat) (v : Nat), Settled s ∧ Issues n s ∧ (∀ m, m ≠ n.val → (coreOf s m).stores = []) ∧ p ∈ [(Instr.ldb n rd rb am off, 1), (Instr.ldbu n rd rb am off, 1), (Instr.ldh n rd rb am off, 2), (Instr.ldhu n rd rb am off, 2), (Instr.ldw n rd rb am off, 4), (Instr.fld n fd rb am off, 4), (Instr.fldd n fd rb am off, 8)] ∧ a = memAddr s n rb am off p.2 ∧ accessFault s n p.2 a = none ∧ 0x80000000 ≤ canonical n a ∧ canonical n a < 0xA0000000 ∧ v = ofBytesLE ((List.range p.2).map (fun k => byteSeen s n (canonical n a + k))) :=
  ⟨(put [(TOP_COREn_STATUS.STATE 1, 1), (TOP_COREn_STATUS.MODE 1, 0)] { State.reset with mem := [(0x80000010, 0x80), (0x80000011, 0xFF), (0x91140000, 7)], cores := { core := [(1, { w := [(1, 0x80000000)] })] } }), 1, 5, 1, 2, 0, 8, (Instr.ldh 1 5 1 0 8, 2), 0x80000010, 0xFF80, by unfold Settled Issues; exact ⟨by decide +kernel, by decide +kernel, other_stores_empty _ _ _ rfl, by decide +kernel, by decide +kernel, by decide +kernel, by decide +kernel, by decide +kernel, by decide +kernel⟩⟩
theorem wit_LoadResults_0c : ∃ (s : State) (n : Fin 5) (rd : Fin 16) (rb : Fin 16) (fd : Fin 8) (am : Fin 3) (off : BitVec 13) (p : Instr × Nat) (a : Nat) (v : Nat), Settled s ∧ Issues n s ∧ (∀ m, m ≠ n.val → (coreOf s m).stores = []) ∧ p ∈ [(Instr.ldb n rd rb am off, 1), (Instr.ldbu n rd rb am off, 1), (Instr.ldh n rd rb am off, 2), (Instr.ldhu n rd rb am off, 2), (Instr.ldw n rd rb am off, 4), (Instr.fld n fd rb am off, 4), (Instr.fldd n fd rb am off, 8)] ∧ a = memAddr s n rb am off p.2 ∧ accessFault s n p.2 a = none ∧ 0x80000000 ≤ canonical n a ∧ canonical n a < 0xA0000000 ∧ v = ofBytesLE ((List.range p.2).map (fun k => byteSeen s n (canonical n a + k))) :=
  ⟨(put [(TOP_COREn_STATUS.STATE 1, 1), (TOP_COREn_STATUS.MODE 1, 0)] { State.reset with mem := [(0x80000010, 0x80), (0x80000011, 0xFF), (0x91140000, 7)], cores := { core := [(1, { w := [(1, 0x80000000)] })] } }), 1, 5, 1, 2, 0, 8, (Instr.ldhu 1 5 1 0 8, 2), 0x80000010, 0xFF80, by unfold Settled Issues; exact ⟨by decide +kernel, by decide +kernel, other_stores_empty _ _ _ rfl, by decide +kernel, by decide +kernel, by decide +kernel, by decide +kernel, by decide +kernel, by decide +kernel⟩⟩
theorem wit_LoadResults_0d : ∃ (s : State) (n : Fin 5) (rd : Fin 16) (rb : Fin 16) (fd : Fin 8) (am : Fin 3) (off : BitVec 13) (p : Instr × Nat) (a : Nat) (v : Nat), Settled s ∧ Issues n s ∧ (∀ m, m ≠ n.val → (coreOf s m).stores = []) ∧ p ∈ [(Instr.ldb n rd rb am off, 1), (Instr.ldbu n rd rb am off, 1), (Instr.ldh n rd rb am off, 2), (Instr.ldhu n rd rb am off, 2), (Instr.ldw n rd rb am off, 4), (Instr.fld n fd rb am off, 4), (Instr.fldd n fd rb am off, 8)] ∧ a = memAddr s n rb am off p.2 ∧ accessFault s n p.2 a = none ∧ 0x80000000 ≤ canonical n a ∧ canonical n a < 0xA0000000 ∧ v = ofBytesLE ((List.range p.2).map (fun k => byteSeen s n (canonical n a + k))) :=
  ⟨(put [(TOP_COREn_STATUS.STATE 1, 1), (TOP_COREn_STATUS.MODE 1, 0)] { State.reset with mem := [(0x80000010, 0x80), (0x80000011, 0xFF), (0x91140000, 7)], cores := { core := [(1, { w := [(1, 0x80000000)] })] } }), 1, 5, 1, 2, 0, 4, (Instr.ldw 1 5 1 0 4, 4), 0x80000010, 0xFF80, by unfold Settled Issues; exact ⟨by decide +kernel, by decide +kernel, other_stores_empty _ _ _ rfl, by decide +kernel, by decide +kernel, by decide +kernel, by decide +kernel, by decide +kernel, by decide +kernel⟩⟩
theorem wit_LoadResults_0e : ∃ (s : State) (n : Fin 5) (rd : Fin 16) (rb : Fin 16) (fd : Fin 8) (am : Fin 3) (off : BitVec 13) (p : Instr × Nat) (a : Nat) (v : Nat), Settled s ∧ Issues n s ∧ (∀ m, m ≠ n.val → (coreOf s m).stores = []) ∧ p ∈ [(Instr.ldb n rd rb am off, 1), (Instr.ldbu n rd rb am off, 1), (Instr.ldh n rd rb am off, 2), (Instr.ldhu n rd rb am off, 2), (Instr.ldw n rd rb am off, 4), (Instr.fld n fd rb am off, 4), (Instr.fldd n fd rb am off, 8)] ∧ a = memAddr s n rb am off p.2 ∧ accessFault s n p.2 a = none ∧ 0x80000000 ≤ canonical n a ∧ canonical n a < 0xA0000000 ∧ v = ofBytesLE ((List.range p.2).map (fun k => byteSeen s n (canonical n a + k))) :=
  ⟨(put [(TOP_COREn_STATUS.STATE 1, 1), (TOP_COREn_STATUS.MODE 1, 0)] { State.reset with mem := [(0x80000010, 0x80), (0x80000011, 0xFF), (0x91140000, 7)], cores := { core := [(1, { w := [(1, 0x80000020)] })] } }), 1, 5, 1, 2, 1, -2, (Instr.fldd 1 2 1 1 (-2), 8), 0x80000010, 0xFF80, by unfold Settled Issues; exact ⟨by decide +kernel, by decide +kernel, other_stores_empty _ _ _ rfl, by decide +kernel, by decide +kernel, by decide +kernel, by decide +kernel, by decide +kernel, by decide +kernel⟩⟩
theorem wit_LoadResults_0f : ∃ (s : State) (n : Fin 5) (rd : Fin 16) (rb : Fin 16) (fd : Fin 8) (am : Fin 3) (off : BitVec 13) (p : Instr × Nat) (a : Nat) (v : Nat), Settled s ∧ Issues n s ∧ (∀ m, m ≠ n.val → (coreOf s m).stores = []) ∧ p ∈ [(Instr.ldb n rd rb am off, 1), (Instr.ldbu n rd rb am off, 1), (Instr.ldh n rd rb am off, 2), (Instr.ldhu n rd rb am off, 2), (Instr.ldw n rd rb am off, 4), (Instr.fld n fd rb am off, 4), (Instr.fldd n fd rb am off, 8)] ∧ a = memAddr s n rb am off p.2 ∧ accessFault s n p.2 a = none ∧ 0x80000000 ≤ canonical n a ∧ canonical n a < 0xA0000000 ∧ v = ofBytesLE ((List.range p.2).map (fun k => byteSeen s n (canonical n a + k))) :=
  ⟨(put [(TOP_COREn_STATUS.STATE 1, 1), (TOP_COREn_STATUS.MODE 1, 0)] { State.reset with mem := [(0x80000010, 0x80), (0x80000011, 0xFF), (0x91140000, 7)], cores := { core := [(1, { w := [(1, 0x90040000)] })] } }), 1, 5, 1, 2, 2, 3, (Instr.ldw 1 5 1 2 3, 4), 0x90040000, 7, by unfold Settled Issues; exact ⟨by decide +kernel, by decide +kernel, other_stores_empty _ _ _ rfl, by decide +kernel, by decide +kernel, by decide +kernel, by decide +kernel, by decide +kernel, by decide +kernel⟩⟩
theorem wit_LoadResults_1a : ∃ (s : State) (u : State) (n : Fin 5) (rd : Fin 16) (rb : Fin 16) (fd : Fin 8) (am : Fin 3) (off : BitVec 13) (p : Instr × Nat) (a : Nat), Issues n s ∧ p ∈ [(Instr.ldb n rd rb am off, 1), (Instr.ldbu n rd rb am off, 1), (Instr.ldh n rd rb am off, 2), (Instr.ldhu n rd rb am off, 2), (Instr.ldw n rd rb am off, 4), (Instr.fld n fd rb am off, 4), (Instr.fldd n fd rb am off, 8)] ∧ a = memAddr s n rb am off p.2 ∧ accessFault s n p.2 a = none ∧ a < 0x80000000 ∧ u = fetchLine n a s :=
  ⟨(put [(TOP_COREn_STATUS.STATE 1, 1), (TOP_COREn_STATUS.MODE 1, 0), (DMC_STATUS.STATE, 2)] { State.reset with cores := { core := [(1, { w := [(1, 0)] })] } }), fetchLine 1 0x10 (put [(TOP_COREn_STATUS.STATE 1, 1), (TOP_COREn_STATUS.MODE 1, 0), (DMC_STATUS.STATE, 2)] { State.reset with cores := { core := [(1, { w := [(1, 0)] })] } }), 1, 5, 1, 2, 0, 4, (Instr.ldw 1 5 1 0 4, 4), 0x10, by unfold Issues; decide +kernel⟩
theorem wit_LoadResults_1b : ∃ (s : State) (u : State) (n : Fin 5) (rd : Fin 16) (rb : Fin 16) (fd : Fin 8) (am : Fin 3) (off : BitVec 13) (p : Instr × Nat) (a : Nat), Issues n s ∧ p ∈ [(Instr.ldb n rd rb am off, 1), (Instr.ldbu n rd rb am off, 1), (Instr.ldh n rd rb am off, 2), (Instr.ldhu n rd rb am off, 2), (Instr.ldw n rd rb am off, 4), (Instr.fld n fd rb am off, 4), (Instr.fldd n fd rb am off, 8)] ∧ a = memAddr s n rb am off p.2 ∧ accessFault s n p.2 a = none ∧ a < 0x80000000 ∧ u = fetchLine n a s :=
  ⟨(put [(TOP_COREn_STATUS.STATE 1, 1), (TOP_COREn_STATUS.MODE 1, 0), (DMC_STATUS.STATE, 2)] { State.reset with cores := { core := [(1, { w := [(1, 0)] })] } }), fetchLine 1 0x20 (put [(TOP_COREn_STATUS.STATE 1, 1), (TOP_COREn_STATUS.MODE 1, 0), (DMC_STATUS.STATE, 2)] { State.reset with cores := { core := [(1, { w := [(1, 0)] })] } }), 1, 5, 1, 2, 0, 4, (Instr.fldd 1 2 1 0 4, 8), 0x20, by unfold Issues; decide +kernel⟩
theorem wit_LoadResults_2 : ∃ (s : State) (rb : Fin 16) (am : Fin 3) (off : BitVec 13) (a : Nat), Settled s ∧ Issues 4 s ∧ a = memAddr s 4 rb am off 4 ∧ accessFault s 4 4 a = none ∧ inRom a = true :=
  ⟨(put [(TOP_COREn_STATUS.STATE 4, 1), (TOP_COREn_STATUS.MODE 4, 0)] { State.reset with cores := { core := [(4, { w := [(1, 0xFFFE0000)] })] } }), 1, 0, 4, 0xFFFE0010, by unfold Settled Issues; decide +kernel⟩
theorem wit_DataExceptions_0a : ∃ (s : State) (n : Fin 5) (rd : Fin 16) (rb : Fin 16) (fd : Fin 8) (am : Fin 3) (off : BitVec 13) (p : Instr × Nat) (a : Nat), Issues n s ∧ p ∈ [(Instr.ldb n rd rb am off, 1), (Instr.ldbu n rd rb am off, 1), (Instr.ldh n rd rb am off, 2), (Instr.ldhu n rd rb am off, 2), (Instr.ldw n rd rb am off, 4), (Instr.fld n fd rb am off, 4), (Instr.fldd n fd rb am off, 8)] ++ [(Instr.stb n rd rb am off, 1), (Instr.sth n rd rb am off, 2), (Instr.stw n rd rb am off, 4), (Instr.fst n fd rb am off, 4)] ∧ a = memAddr s n rb am off p.2 ∧ a % p.2 ≠ 0 :=
  ⟨(put [(TOP_COREn_STATUS.STATE 1, 1), (TOP_COREn_STATUS.MODE 1, 0)] { State.reset with cores := { core := [(1, { w := [(1, 0x80000002)] })] } }), 1, 5, 1, 2, 0, 0, (Instr.ldw 1 5 1 0 0, 4), 0x80000002, by unfold Issues; decide +kernel⟩
theorem wit_DataExceptions_0b : ∃ (s : State) (n : Fin 5) (rd : Fin 16) (rb : Fin 16) (fd : Fin 8) (am : Fin 3) (off : BitVec 13) (p : Instr × Nat) (a : Nat), Issues n s ∧ p ∈ [(Instr.ldb n rd rb am off, 1), (Instr.ldbu n rd rb am off, 1), (Instr.ldh n rd rb am off, 2), (Instr.ldhu n rd rb am off, 2), (Instr.ldw n rd rb am off, 4), (Instr.fld n fd rb am off, 4), (Instr.fldd n fd rb am off, 8)] ++ [(Instr.stb n rd rb am off, 1), (Instr.sth n rd rb am off, 2), (Instr.stw n rd rb am off, 4), (Instr.fst n fd rb am off, 4)] ∧ a = memAddr s n rb am off p.2 ∧ a % p.2 = 0 ∧ inService s n = true ∧ 0xA0000000 ≤ a ∧ a < 0xA1000000 :=
  ⟨(put [(TOP_COREn_STATUS.STATE 1, 1), (TOP_COREn_STATUS.MODE 1, 1)] { State.reset with cores := { core := [(1, { w := [(1, 0xA0000000)] })] } }), 1, 5, 1, 2, 0, 0, (Instr.stb 1 5 1 0 0, 1), 0xA0000000, by unfold Issues; decide +kernel⟩
theorem wit_DataExceptions_0c : ∃ (s : State) (n : Fin 5) (rd : Fin 16) (rb : Fin 16) (fd : Fin 8) (am : Fin 3) (off : BitVec 13) (p : Instr × Nat) (a : Nat), Issues n s ∧ p ∈ [(Instr.ldb n rd rb am off, 1), (Instr.ldbu n rd rb am off, 1), (Instr.ldh n rd rb am off, 2), (Instr.ldhu n rd rb am off, 2), (Instr.ldw n rd rb am off, 4), (Instr.fld n fd rb am off, 4), (Instr.fldd n fd rb am off, 8)] ++ [(Instr.stb n rd rb am off, 1), (Instr.sth n rd rb am off, 2), (Instr.stw n rd rb am off, 4), (Instr.fst n fd rb am off, 4)] ∧ a = memAddr s n rb am off p.2 ∧ a % p.2 = 0 ∧ inService s n = true ∧ 0x91000000 ≤ a ∧ a < 0x91500000 :=
  ⟨(put [(TOP_COREn_STATUS.STATE 1, 1), (TOP_COREn_STATUS.MODE 1, 1)] { State.reset with cores := { core := [(1, { w := [(1, 0x91000000)] })] } }), 1, 5, 1, 2, 0, 0, (Instr.sth 1 5 1 0 0, 2), 0x91000000, by unfold Issues; decide +kernel⟩
theorem wit_DataExceptions_0d : ∃ (s : State) (n : Fin 5) (rd : Fin 16) (rb : Fin 16) (fd : Fin 8) (am : Fin 3) (off : BitVec 13) (p : Instr × Nat) (a : Nat), Issues n s ∧ p ∈ [(Instr.ldb n rd rb am off, 1), (Instr.ldbu n rd rb am off, 1), (Instr.ldh n rd rb am off, 2), (Instr.ldhu n rd rb am off, 2), (Instr.ldw n rd rb am off, 4), (Instr.fld n fd rb am off, 4), (Instr.fldd n fd rb am off, 8)] ++ [(Instr.stb n rd rb am off, 1), (Instr.sth n rd rb am off, 2), (Instr.stw n rd rb am off, 4), (Instr.fst n fd rb am off, 4)] ∧ a = memAddr s n rb am off p.2 ∧ a % p.2 = 0 ∧ n.val ≠ 4 ∧ 0xFFFE0000 ≤ a :=
  ⟨(put [(TOP_COREn_STATUS.STATE 1, 1), (TOP_COREn_STATUS.MODE 1, 0)] { State.reset with cores := { core := [(1, { w := [(1, 0xFFFE0000)] })] } }), 1, 5, 1, 2, 0, 0, (Instr.fld 1 2 1 0 0, 4), 0xFFFE0000, by unfold Issues; decide +kernel⟩
theorem wit_DataExceptions_0e : ∃ (s : State) (n : Fin 5) (rd : Fin 16) (rb : Fin 16) (fd : Fin 8) (am : Fin 3) (off : BitVec 13) (p : Instr × Nat) (a : Nat), Issues n s ∧ p ∈ [(Instr.ldb n rd rb am off, 1), (Instr.ldbu n rd rb am off, 1), (Instr.ldh n rd rb am off, 2), (Instr.ldhu n rd rb am off, 2), (Instr.ldw n rd rb am off, 4), (Instr.fld n fd rb am off, 4), (Instr.fldd n fd rb am off, 8)] ++ [(Instr.stb n rd rb am off, 1), (Instr.sth n rd rb am off, 2), (Instr.stw n rd rb am off, 4), (Instr.fst n fd rb am off, 4)] ∧ a = memAddr s n rb am off p.2 ∧ a % p.2 = 0 ∧ inService s n = false ∧ a < 0xFFFE0000 ∧ 0x80400000 ≤ a ∧ a < 0x90000000 :=
  ⟨(put [(TOP_COREn_STATUS.STATE 1, 1), (TOP_COREn_STATUS.MODE 1, 0)] { State.reset with cores := { core := [(1, { w := [(1, 0x80400000)] })] } }), 1, 5, 1, 2, 0, 0, (Instr.fst 1 2 1 0 0, 4), 0x80400000, by unfold Issues; decide +kernel⟩
theorem wit_DataExceptions_0f : ∃ (s : State) (n : Fin 5) (rd : Fin 16) (rb : Fin 16) (fd : Fin 8) (am : Fin 3) (off : BitVec 13) (p : Instr × Nat) (a : Nat), Issues n s ∧ p ∈ [(Instr.ldb n rd rb am off, 1), (Instr.ldbu n rd rb am off, 1), (Instr.ldh n rd rb am off, 2), (Instr.ldhu n rd rb am off, 2), (Instr.ldw n rd rb am off, 4), (Instr.fld n fd rb am off, 4), (Instr.fldd n fd rb am off, 8)] ++ [(Instr.stb n rd rb am off, 1), (Instr.sth n rd rb am off, 2), (Instr.stw n rd rb am off, 4), (Instr.fst n fd rb am off, 4)] ∧ a = memAddr s n rb am off p.2 ∧ a % p.2 = 0 ∧ inService s n = false ∧ a < 0xFFFE0000 ∧ 0xB0040000 ≤ a :=
  ⟨(put [(TOP_COREn_STATUS.STATE 1, 1), (TOP_COREn_STATUS.MODE 1, 0)] { State.reset with cores := { core := [(1, { w := [(1, 0xB0040000)] })] } }), 1, 5, 1, 2, 0, 0, (Instr.ldw 1 5 1 0 0, 4), 0xB0040000, by unfold Issues; decide +kernel⟩
theorem wit_DataExceptions_0g : ∃ (s : State) (n : Fin 5) (rd : Fin 16) (rb : Fin 16) (fd : Fin 8) (am : Fin 3) (off : BitVec 13) (p : Instr × Nat) (a : Nat), Issues n s ∧ p ∈ [(Instr.ldb n rd rb am off, 1), (Instr.ldbu n rd rb am off, 1), (Instr.ldh n rd rb am off, 2), (Instr.ldhu n rd rb am off, 2), (Instr.ldw n rd rb am off, 4), (Instr.fld n fd rb am off, 4), (Instr.fldd n fd rb am off, 8)] ++ [(Instr.stb n rd rb am off, 1), (Instr.sth n rd rb am off, 2), (Instr.stw n rd rb am off, 4), (Instr.fst n fd rb am off, 4)] ∧ a = memAddr s n rb am off p.2 ∧ a % p.2 = 0 ∧ inService s n = false ∧ a < 0xFFFE0000 ∧ 0xB0040000 ≤ a :=
  ⟨(put [(TOP_COREn_STATUS.STATE 4, 1), (TOP_COREn_STATUS.MODE 4, 0)] { State.reset with cores := { core := [(4, { w := [(1, 0xFFFDFFFC)] })] } }), 4, 5, 1, 2, 0, 0, (Instr.ldw 4 5 1 0 0, 4), 0xFFFDFFFC, by unfold Issues; decide +kernel⟩
theorem wit_DataExceptions_1 : ∃ (s : State) (n : Fin 5) (rd : Fin 16) (rb : Fin 16) (am : Fin 3) (off : BitVec 13) (p : Instr × Nat) (a : Nat), Issues n s ∧ p ∈ [(Instr.ldb n rd rb am off, 1), (Instr.ldbu n rd rb am off, 1), (Instr.stb n rd rb am off, 1), (Instr.ldh n rd rb am off, 2), (Instr.ldhu n rd rb am off, 2), (Instr.sth n rd rb am off, 2)] ∧ a = memAddr s n rb am off p.2 ∧ accessFault s n p.2 a = none ∧ 0xA0000000 ≤ a ∧ a < 0xA1000000 :=
  ⟨(put [(TOP_COREn_STATUS.STATE 1, 1), (TOP_COREn_STATUS.MODE 1, 0)] { State.reset with cores := { core := [(1, { w := [(1, 0xA0FFFFFE)] })] } }), 1, 5, 1, 0, 0, (Instr.sth 1 5 1 0 0, 2), 0xA0FFFFFE, by unfold Issues; decide +kernel⟩
theorem wit_DataExceptions_2 : ∃ (s : State) (n : Fin 5) (rd : Fin 16) (rb : Fin 16) (fd : Fin 8) (am : Fin 3) (off : BitVec 13) (p : Instr × Nat) (a : Nat), Issues n s ∧ p ∈ [(Instr.stb n rd rb am off, 1), (Instr.sth n rd rb am off, 2), (Instr.stw n rd rb am off, 4), (Instr.fst n fd rb am off, 4)] ∧ a = memAddr s n rb am off p.2 ∧ accessFault s n p.2 a = none ∧ meetsRing s a p.2 = true :=
  ⟨(put [(TOP_COREn_STATUS.STATE 1, 1), (DMC_STATUS.STATE, 2), (ACQ_RINGr_STATUS.STATE 2, 1), (⟨ACQ_RINGr_BASE 2, 0, 32⟩, 0x08000000), (⟨ACQ_RINGr_SIZE 2, 0, 32⟩, 4096)] { State.reset with acq := { ring := [(2, { since := 1 })] }, cores := { core := [(1, { w := [(1, 0x08000FFF)] })] } }), 1, 5, 1, 2, 0, 0, (Instr.stb 1 5 1 0 0, 1), 0x08000FFF, by unfold Issues; decide +kernel⟩
theorem wit_DataExceptions_3 : ∃ (s : State) (n : Fin 5) (rb : Fin 16) (am : Fin 3) (off : BitVec 13) (a : Nat), Issues n s ∧ a = memAddr s n rb am off 4 ∧ accessFault s n 4 a = none ∧ isBus a = true :=
  ⟨(put [(TOP_COREn_STATUS.STATE 1, 1), (TOP_COREn_STATUS.MODE 1, 0)] { State.reset with cores := { core := [(1, { w := [(1, 0xB003FFFC)] })] } }), 1, 1, 0, 0, 0xB003FFFC, by unfold Issues; decide +kernel⟩
theorem wit_StoreResults_0a : ∃ (s : State) (n : Fin 5) (rd : Fin 16) (rb : Fin 16) (fd : Fin 8) (am : Fin 3) (off : BitVec 13) (p : Instr × Nat) (a : Nat) (bs : List Byte), Settled s ∧ Issues n s ∧ p ∈ [(Instr.stb n rd rb am off, 1), (Instr.sth n rd rb am off, 2), (Instr.stw n rd rb am off, 4), (Instr.fst n fd rb am off, 4)] ∧ a = memAddr s n rb am off p.2 ∧ accessFault s n p.2 a = none ∧ meetsRing s a p.2 = false ∧ (0xA1000000 ≤ a ∨ a < 0xA0000000) ∧ isBus (canonical n a) = false ∧ inRom a = false ∧ (bs = bytesLE p.2 (if p.1 = .fst n fd rb am off then freg s n fd else reg s n rd).toNat) ∧ localAt (canonical n a) = some (n.val, 0x40000) :=
  ⟨(put [(TOP_COREn_STATUS.STATE 1, 1), (TOP_COREn_STATUS.MODE 1, 0)] { State.reset with cores := { core := [(1, { w := [(1, 0x90040000), (5, 0x89ABCDEF)] })] } }), 1, 5, 1, 2, 0, 0, (Instr.stw 1 5 1 0 0, 4), 0x90040000, [0xEF, 0xCD, 0xAB, 0x89], by unfold Settled Issues; decide +kernel⟩
theorem wit_StoreResults_0b : ∃ (s : State) (n : Fin 5) (rd : Fin 16) (rb : Fin 16) (fd : Fin 8) (am : Fin 3) (off : BitVec 13) (p : Instr × Nat) (a : Nat) (bs : List Byte), Settled s ∧ Issues n s ∧ p ∈ [(Instr.stb n rd rb am off, 1), (Instr.sth n rd rb am off, 2), (Instr.stw n rd rb am off, 4), (Instr.fst n fd rb am off, 4)] ∧ a = memAddr s n rb am off p.2 ∧ accessFault s n p.2 a = none ∧ meetsRing s a p.2 = false ∧ (0xA1000000 ≤ a ∨ a < 0xA0000000) ∧ isBus (canonical n a) = false ∧ inRom a = false ∧ (bs = bytesLE p.2 (if p.1 = .fst n fd rb am off then freg s n fd else reg s n rd).toNat) ∧ localAt (canonical n a) = some (n.val, 0x40FFE) :=
  ⟨(put [(TOP_COREn_STATUS.STATE 1, 1), (TOP_COREn_STATUS.MODE 1, 0)] { State.reset with cores := { core := [(1, { w := [(1, 0x91140FFE), (5, 0x89ABCDEF)] })] } }), 1, 5, 1, 2, 0, 0, (Instr.sth 1 5 1 0 0, 2), 0x91140FFE, [0xEF, 0xCD], by unfold Settled Issues; decide +kernel⟩
theorem wit_StoreResults_0c : ∃ (s : State) (n : Fin 5) (rd : Fin 16) (rb : Fin 16) (fd : Fin 8) (am : Fin 3) (off : BitVec 13) (p : Instr × Nat) (a : Nat) (bs : List Byte), Settled s ∧ Issues n s ∧ p ∈ [(Instr.stb n rd rb am off, 1), (Instr.sth n rd rb am off, 2), (Instr.stw n rd rb am off, 4), (Instr.fst n fd rb am off, 4)] ∧ a = memAddr s n rb am off p.2 ∧ accessFault s n p.2 a = none ∧ meetsRing s a p.2 = false ∧ (0xA1000000 ≤ a ∨ a < 0xA0000000) ∧ isBus (canonical n a) = false ∧ inRom a = false ∧ (bs = bytesLE p.2 (if p.1 = .fst n fd rb am off then freg s n fd else reg s n rd).toNat) ∧ localAt (canonical n a) = some (n.val, 0xFFFF) :=
  ⟨(put [(TOP_COREn_STATUS.STATE 1, 1), (TOP_COREn_STATUS.MODE 1, 0)] { State.reset with cores := { core := [(1, { w := [(1, 0x9000FFFF), (5, 0x89ABCDEF)] })] } }), 1, 5, 1, 2, 0, 0, (Instr.stb 1 5 1 0 0, 1), 0x9000FFFF, [0xEF], by unfold Settled Issues; decide +kernel⟩
theorem wit_StoreResults_0d : ∃ (s : State) (n : Fin 5) (rd : Fin 16) (rb : Fin 16) (fd : Fin 8) (am : Fin 3) (off : BitVec 13) (p : Instr × Nat) (a : Nat) (bs : List Byte), Settled s ∧ Issues n s ∧ p ∈ [(Instr.stb n rd rb am off, 1), (Instr.sth n rd rb am off, 2), (Instr.stw n rd rb am off, 4), (Instr.fst n fd rb am off, 4)] ∧ a = memAddr s n rb am off p.2 ∧ accessFault s n p.2 a = none ∧ meetsRing s a p.2 = false ∧ (0xA1000000 ≤ a ∨ a < 0xA0000000) ∧ isBus (canonical n a) = false ∧ inRom a = false ∧ (bs = bytesLE p.2 (if p.1 = .fst n fd rb am off then freg s n fd else reg s n rd).toNat) ∧ localAt (canonical n a) = none ∧ (coreOf s n).stores.length < 8 :=
  ⟨(put [(TOP_COREn_STATUS.STATE 1, 1), (TOP_COREn_STATUS.MODE 1, 0)] { State.reset with cores := { core := [(1, { w := [(1, 0x80000000), (5, 0x89ABCDEF)], f := [(2, 0x3F800000)] })] } }), 1, 5, 1, 2, 0, 0, (Instr.fst 1 2 1 0 0, 4), 0x80000000, [0, 0, 0x80, 0x3F], by unfold Settled Issues; decide +kernel⟩
theorem wit_StoreResults_0e : ∃ (s : State) (n : Fin 5) (rd : Fin 16) (rb : Fin 16) (fd : Fin 8) (am : Fin 3) (off : BitVec 13) (p : Instr × Nat) (a : Nat) (bs : List Byte), Settled s ∧ Issues n s ∧ p ∈ [(Instr.stb n rd rb am off, 1), (Instr.sth n rd rb am off, 2), (Instr.stw n rd rb am off, 4), (Instr.fst n fd rb am off, 4)] ∧ a = memAddr s n rb am off p.2 ∧ accessFault s n p.2 a = none ∧ meetsRing s a p.2 = false ∧ (0xA1000000 ≤ a ∨ a < 0xA0000000) ∧ isBus (canonical n a) = false ∧ inRom a = false ∧ (bs = bytesLE p.2 (if p.1 = .fst n fd rb am off then freg s n fd else reg s n rd).toNat) :=
  ⟨(put [(TOP_COREn_STATUS.STATE 1, 1), (TOP_COREn_STATUS.MODE 1, 0)] { State.reset with cores := { core := [(1, { w := [(1, 0x91240000), (5, 0x89ABCDEF)] })] } }), 1, 5, 1, 2, 0, 0, (Instr.stw 1 5 1 0 0, 4), 0x91240000, [0xEF, 0xCD, 0xAB, 0x89], by unfold Settled Issues; decide +kernel⟩
theorem wit_StoreResults_0f : ∃ (s : State) (n : Fin 5) (rd : Fin 16) (rb : Fin 16) (fd : Fin 8) (am : Fin 3) (off : BitVec 13) (p : Instr × Nat) (a : Nat) (bs : List Byte), Settled s ∧ Issues n s ∧ p ∈ [(Instr.stb n rd rb am off, 1), (Instr.sth n rd rb am off, 2), (Instr.stw n rd rb am off, 4), (Instr.fst n fd rb am off, 4)] ∧ a = memAddr s n rb am off p.2 ∧ accessFault s n p.2 a = none ∧ meetsRing s a p.2 = false ∧ (0xA1000000 ≤ a ∨ a < 0xA0000000) ∧ isBus (canonical n a) = false ∧ inRom a = false ∧ (bs = bytesLE p.2 (if p.1 = .fst n fd rb am off then freg s n fd else reg s n rd).toNat) :=
  ⟨(put [(TOP_COREn_STATUS.STATE 1, 1), (TOP_COREn_STATUS.MODE 1, 0), (DMC_STATUS.STATE, 2)] { State.reset with cores := { core := [(1, { w := [(1, 0x40), (5, 0x89ABCDEF)] })] } }), 1, 5, 1, 2, 0, 0, (Instr.stw 1 5 1 0 0, 4), 0x40, [0xEF, 0xCD, 0xAB, 0x89], by unfold Settled Issues; decide +kernel⟩
theorem wit_StoreResults_1 : ∃ (s : State) (t : State) (n : Fin 5) (rd : Fin 16) (rb : Fin 16) (am : Fin 3) (off : BitVec 13) (a : Nat), Issues n s ∧ a = memAddr s n rb am off 4 ∧ accessFault s n 4 a = none ∧ isBus a = true ∧ haltPending t n = none ∧ exec (.registerWrite a (reg s n rd)) (advance n (writeBack n rb am off 4 s)) = .next t :=
  ⟨(put [(TOP_COREn_STATUS.STATE 1, 1), (TOP_COREn_STATUS.MODE 1, 0)] { State.reset with cores := { core := [(1, { w := [(1, 0xB0000008), (5, 0x1)] })] } }), nextOf (exec (.registerWrite 0xB0000008 (reg (put [(TOP_COREn_STATUS.STATE 1, 1), (TOP_COREn_STATUS.MODE 1, 0)] { State.reset with cores := { core := [(1, { w := [(1, 0xB0000008), (5, 0x1)] })] } }) 1 5)) (advance 1 (writeBack 1 1 0 0 4 (put [(TOP_COREn_STATUS.STATE 1, 1), (TOP_COREn_STATUS.MODE 1, 0)] { State.reset with cores := { core := [(1, { w := [(1, 0xB0000008), (5, 0x1)] })] } })))), 1, 5, 1, 0, 0, 0xB0000008, by unfold Issues; decide +kernel, by decide +kernel, by decide +kernel, by decide +kernel, by decide +kernel, eq_nextOf (by decide +kernel)⟩
theorem wit_StoreResults_2 : ∃ (s : State) (rb : Fin 16) (am : Fin 3) (off : BitVec 13) (a : Nat) (o : Nat), Settled s ∧ Issues 4 s ∧ a = memAddr s 4 rb am off 4 ∧ accessFault s 4 4 a = none ∧ localAt (canonical 4 a) = some (4, o) ∧ o < 0x10000 ∧ inRom (coreOf s 4).pc = true :=
  ⟨(put [(TOP_COREn_STATUS.STATE 4, 1), (TOP_COREn_STATUS.MODE 4, 0)] { State.reset with cores := { core := [(4, { w := [(1, 0x91400100), (5, 0x1)], pc := 0xFFFE0000 })] } }), 1, 0, 0, 0x91400100, 0x100, by unfold Settled Issues; decide +kernel⟩
theorem wit_QueueInstructions_0 : ∃ (s : State) (n : Fin 5), Issues n s :=
  ⟨(put [(TOP_COREn_STATUS.STATE 1, 1), (TOP_COREn_STATUS.MODE 1, 0)] State.reset), 1, by unfold Issues; decide +kernel⟩
theorem wit_QueueInstructions_1a : ∃ (s : State) (n : Fin 5) (q : BitVec 8) (l : Nat) (e : QEntry) (rest : List QEntry), Settled s ∧ Issues n s ∧ q.toNat < 12 ∧ (l = (if q.toNat < 8 then 8 * n.val + q.toNat else 40 + 4 * n.val + (q.toNat - 8))) ∧ (queueOf s l).items = e :: rest ∧ 1 ≤ (queueOf s l).seen :=
  ⟨(put [(TOP_COREn_STATUS.STATE 1, 1), (TOP_COREn_STATUS.MODE 1, 0)] { State.reset with cores := { queue := [(15, { items := [⟨[7, 8, 9], 5, 0, 0⟩], seen := 1 })] } }), 1, 7, 15, ⟨[7, 8, 9], 5, 0, 0⟩, [], by unfold Settled Issues; decide +kernel⟩
theorem wit_QueueInstructions_1b : ∃ (s : State) (n : Fin 5) (q : BitVec 8) (l : Nat) (e : QEntry) (rest : List QEntry), Settled s ∧ Issues n s ∧ q.toNat < 12 ∧ (l = (if q.toNat < 8 then 8 * n.val + q.toNat else 40 + 4 * n.val + (q.toNat - 8))) ∧ (queueOf s l).items = e :: rest ∧ 1 ≤ (queueOf s l).seen :=
  ⟨(put [(TOP_COREn_STATUS.STATE 1, 1), (TOP_COREn_STATUS.MODE 1, 0)] { State.reset with cores := { queue := [(47, { items := [⟨[7, 8, 9], 5, 0, 0⟩], seen := 1 })] } }), 1, 11, 47, ⟨[7, 8, 9], 5, 0, 0⟩, [], by unfold Settled Issues; decide +kernel⟩
theorem wit_QueueInstructions_2 : ∃ (s : State) (n : Fin 5) (q : BitVec 8), Settled s ∧ Issues n s ∧ q.toNat < 12 ∧ (queueOf s (localQueue n q.toNat)).items = [] :=
  ⟨(put [(TOP_COREn_STATUS.STATE 1, 1), (TOP_COREn_STATUS.MODE 1, 0)] State.reset), 1, 8, by unfold Settled Issues; decide +kernel⟩
theorem wit_QueueInstructions_3 : ∃ (s : State) (n : Fin 5) (q : BitVec 8) (l : Nat), Settled s ∧ Issues n s ∧ q.toNat < 12 ∧ l = localQueue n q.toNat ∧ (queueOf s l).seen ≤ (queueOf s l).items.length :=
  ⟨(put [(TOP_COREn_STATUS.STATE 1, 1), (TOP_COREn_STATUS.MODE 1, 0)] { State.reset with cores := { queue := [(47, { items := [⟨[7, 8, 9], 5, 0, 0⟩], seen := 0 })] } }), 1, 11, 47, by unfold Settled Issues; decide +kernel⟩
theorem wit_QueueInstructions_4 : ∃ (s : State) (n : Fin 5) (p : BitVec 8), Settled s ∧ Issues n s ∧ (coreOf s n).stores = [] ∧ unacked s n = false ∧ p.toNat < 20 ∧ (queueOf s (40 + p.toNat)).items.length + (queueOf s (40 + p.toNat)).pops.length < 14 :=
  ⟨(put [(TOP_COREn_STATUS.STATE 1, 1), (TOP_COREn_STATUS.MODE 1, 0)] { State.reset with cores := { core := [(1, { w := [(1, 5), (2, 6)] })] } }), 1, 19, by unfold Settled Issues; decide +kernel⟩
theorem wit_QueueInstructions_5 : ∃ (s : State) (n : Fin 5) (p : BitVec 8), Settled s ∧ Issues n s ∧ (coreOf s n).stores = [] ∧ unacked s n = false ∧ p.toNat < 20 ∧ 14 ≤ (queueOf s (40 + p.toNat)).items.length :=
  ⟨(put [(TOP_COREn_STATUS.STATE 1, 1), (TOP_COREn_STATUS.MODE 1, 0)] { State.reset with cores := { queue := [(40, { items := List.replicate 14 ⟨[7, 8, 9], 5, 0, 0⟩ })] } }), 1, 0, by unfold Settled Issues; decide +kernel⟩
theorem wit_QueueInstructions_6 : ∃ (s : State) (n : Fin 5), Settled s ∧ Issues n s ∧ (coreOf s n).stores = [] ∧ unacked s n = false :=
  ⟨(put [(TOP_COREn_STATUS.STATE 1, 1), (TOP_COREn_STATUS.MODE 1, 0)] { State.reset with cores := { core := [(1, { w := [(1, 5), (2, 6)] })] } }), 1, by unfold Settled Issues; decide +kernel⟩
theorem wit_EventAndTimeInstructions_0a : ∃ (s : State) (n : Fin 5) (ws : Fin 16) (g : Fin 8) (r : Word), Settled s ∧ Issues n s ∧ r = pendWord s n g &&& reg s n ws :=
  ⟨(put [(TOP_COREn_STATUS.STATE 1, 1), (TOP_COREn_STATUS.MODE 1, 0)] { State.reset with fab := { pend := [(15, 7)] }, cores := { core := [(1, { w := [(1, 6), (2, 100)] })] } }), 1, 1, 7, 6, by unfold Settled Issues; decide +kernel⟩
theorem wit_EventAndTimeInstructions_0b : ∃ (s : State) (n : Fin 5) (ws : Fin 16) (g : Fin 8) (r : Word), Settled s ∧ Issues n s ∧ r = pendWord s n g &&& reg s n ws :=
  ⟨(put [(TOP_COREn_STATUS.STATE 1, 1), (TOP_COREn_STATUS.MODE 1, 0)] { State.reset with cores := { core := [(1, { w := [(1, 6), (2, 100)] })] } }), 1, 1, 7, 0, by unfold Settled Issues; decide +kernel⟩
theorem wit_EventAndTimeInstructions_1a : ∃ (s : State) (n : Fin 5) (ws : Fin 16) (e : BitVec 8) (i : Instr) (v : Nat), Issues n s ∧ (coreOf s n).stores = [] ∧ unacked s n = false ∧ (i = .post n e ∧ v = e.toNat) ∨ (i = .postr n ws ∧ v = (reg s n ws).toNat % 256) :=
  ⟨(put [(TOP_COREn_STATUS.STATE 1, 1), (TOP_COREn_STATUS.MODE 1, 0)] State.reset), 1, 1, 127, .post 1 127, 127, by unfold Issues; decide +kernel⟩
theorem wit_EventAndTimeInstructions_1b : ∃ (s : State) (n : Fin 5) (ws : Fin 16) (e : BitVec 8) (i : Instr) (v : Nat), Issues n s ∧ (coreOf s n).stores = [] ∧ unacked s n = false ∧ (i = .post n e ∧ v = e.toNat) ∨ (i = .postr n ws ∧ v = (reg s n ws).toNat % 256) :=
  ⟨(put [(TOP_COREn_STATUS.STATE 1, 1), (TOP_COREn_STATUS.MODE 1, 0)] { State.reset with cores := { core := [(1, { w := [(1, 0x105)] })] } }), 1, 1, 0, .postr 1 1, 5, by unfold Issues; decide +kernel⟩
theorem wit_EventAndTimeInstructions_2 : ∃ (s : State) (n : Fin 5), Settled s ∧ Issues n s :=
  ⟨(put [(TOP_COREn_STATUS.STATE 1, 1), (TOP_COREn_STATUS.MODE 1, 0)] State.reset), 1, by unfold Settled Issues; decide +kernel⟩
theorem wit_EventAndTimeInstructions_3 : ∃ (s : State) (n : Fin 5), Settled s ∧ Issues n s :=
  ⟨(put [(TOP_COREn_STATUS.STATE 1, 1), (TOP_COREn_STATUS.MODE 1, 0)] State.reset), 1, by unfold Settled Issues; decide +kernel⟩
theorem wit_EventAndTimeInstructions_4 : ∃ (s : State) (n : Fin 5), Settled s ∧ Issues n s :=
  ⟨(put [(TOP_COREn_STATUS.STATE 1, 1), (TOP_COREn_STATUS.MODE 1, 0)] State.reset), 1, by unfold Settled Issues; decide +kernel⟩
theorem wit_EventAndTimeInstructions_5 : ∃ (s : State) (n : Fin 5), Issues n s :=
  ⟨(put [(TOP_COREn_STATUS.STATE 1, 1), (TOP_COREn_STATUS.MODE 1, 0)] State.reset), 1, by unfold Issues; decide +kernel⟩
theorem wit_SystemRegisterInstructions_0a : ∃ (s : State) (n : Fin 5) (sr : Fin 10), Settled s ∧ Issues n s ∧ (inService s n = false ∨ 6 ≤ sr.val) :=
  ⟨(put [(TOP_COREn_STATUS.STATE 1, 1), (TOP_COREn_STATUS.MODE 1, 0)] State.reset), 1, 5, by unfold Settled Issues; decide +kernel⟩
theorem wit_SystemRegisterInstructions_0b : ∃ (s : State) (n : Fin 5) (sr : Fin 10), Settled s ∧ Issues n s ∧ (inService s n = false ∨ 6 ≤ sr.val) :=
  ⟨(put [(TOP_COREn_STATUS.STATE 1, 1), (TOP_COREn_STATUS.MODE 1, 1)] State.reset), 1, 6, by unfold Settled Issues; decide +kernel⟩
theorem wit_SystemRegisterInstructions_1a : ∃ (s : State) (n : Fin 5) (sr : Fin 10) (rs : Fin 16) (v : Word), Settled s ∧ Issues n s ∧ (inService s n = false ∨ sr.val = 9) ∧ v = reg s n rs :=
  ⟨(put [(TOP_COREn_STATUS.STATE 1, 1), (TOP_COREn_STATUS.MODE 1, 0)] { State.reset with cores := { core := [(1, { w := [(1, 0x90000104)] })] } }), 1, 0, 1, 0x90000104, by unfold Settled Issues; decide +kernel⟩
theorem wit_SystemRegisterInstructions_1b : ∃ (s : State) (n : Fin 5) (sr : Fin 10) (rs : Fin 16) (v : Word), Settled s ∧ Issues n s ∧ (inService s n = false ∨ sr.val = 9) ∧ v = reg s n rs :=
  ⟨(put [(TOP_COREn_STATUS.STATE 1, 1), (TOP_COREn_STATUS.MODE 1, 1)] { State.reset with cores := { core := [(1, { w := [(1, 5)] })] } }), 1, 9, 1, 5, by unfold Settled Issues; decide +kernel⟩
theorem wit_SystemRegisterInstructions_2a : ∃ (s : State) (n : Fin 5), Issues n s ∧ inService s n = true :=
  ⟨(put [(TOP_COREn_STATUS.STATE 1, 1), (TOP_COREn_STATUS.MODE 1, 1)] State.reset), 1, by unfold Issues; decide +kernel⟩
theorem wit_SystemRegisterInstructions_2b : ∃ (s : State) (n : Fin 5), Issues n s ∧ inService s n = true :=
  ⟨(put [(TOP_COREn_STATUS.STATE 1, 1), (TOP_COREn_STATUS.MODE 1, 1)] State.reset), 1, by unfold Issues; decide +kernel⟩
theorem wit_TableInterpolation_0a : ∃ (s : State) (n : Fin 5) (fs : Fin 8) (ws : Fin 16) (o : Nat) (cnt : Nat) (x0 : Word) (step : Word) (x : FVal) (xh : FVal) (low : Bool) (high : Bool) (y : Nat → Word), Settled s ∧ Issues n s ∧ (∀ m < 5, (coreOf s m).stores = []) ∧ reg s n ws = w32 (0x90040000 + o) ∧ o % 4 = 0 ∧ o + 12 + 4 * cnt ≤ dmemSize n ∧ 2 ≤ cnt ∧ cnt ≤ 256 ∧ mread s 4 (localBase n + 0x40000 + o) = x0.toNat ∧ mread s 4 (localBase n + 0x40000 + o + 4) = step.toNat ∧ mread s 4 (localBase n + 0x40000 + o + 8) = cnt ∧ (∀ k < cnt, mread s 4 (localBase n + 0x40000 + o + 12 + 4 * k) = (y k).toNat) ∧ x = rounded (fmul fmt32 (rounded (fsub fmt32 (fin32 (freg s n fs)) (fin32 x0))) (fin32 step)) ∧ low = flt x (fofInt 0) ∧ high = flt (fofInt ((cnt : Int) - 1)) x ∧ (xh = (if low then fofInt 0 else if high then fofInt ((cnt : Int) - 1) else x)) :=
  ⟨(put [(TOP_COREn_STATUS.STATE 1, 1), (TOP_COREn_STATUS.MODE 1, 0)] { State.reset with mem := [(0x91140006, 0x80), (0x91140007, 0x3F), (0x91140008, 2), (0x91140012, 0x80), (0x91140013, 0x3F)], cores := { core := [(1, { w := [(1, 0x90040000)], f := [(1, 0)] })] } }), 1, 1, 1, 0, 2, 0, 0x3F800000, rounded (fmul fmt32 (rounded (fsub fmt32 (fin32 0) (fin32 0))) (fin32 0x3F800000)), (if flt (rounded (fmul fmt32 (rounded (fsub fmt32 (fin32 0) (fin32 0))) (fin32 0x3F800000))) (fofInt 0) then fofInt 0 else if flt (fofInt 1) (rounded (fmul fmt32 (rounded (fsub fmt32 (fin32 0) (fin32 0))) (fin32 0x3F800000))) then fofInt 1 else rounded (fmul fmt32 (rounded (fsub fmt32 (fin32 0) (fin32 0))) (fin32 0x3F800000))), flt (rounded (fmul fmt32 (rounded (fsub fmt32 (fin32 0) (fin32 0))) (fin32 0x3F800000))) (fofInt 0), flt (fofInt 1) (rounded (fmul fmt32 (rounded (fsub fmt32 (fin32 0) (fin32 0))) (fin32 0x3F800000))), fun k => if k = 1 then 0x3F800000 else 0, by unfold Settled Issues; decide +kernel⟩
theorem wit_TableInterpolation_0b : ∃ (s : State) (n : Fin 5) (fs : Fin 8) (ws : Fin 16) (o : Nat) (cnt : Nat) (x0 : Word) (step : Word) (x : FVal) (xh : FVal) (low : Bool) (high : Bool) (y : Nat → Word), Settled s ∧ Issues n s ∧ (∀ m < 5, (coreOf s m).stores = []) ∧ reg s n ws = w32 (0x90040000 + o) ∧ o % 4 = 0 ∧ o + 12 + 4 * cnt ≤ dmemSize n ∧ 2 ≤ cnt ∧ cnt ≤ 256 ∧ mread s 4 (localBase n + 0x40000 + o) = x0.toNat ∧ mread s 4 (localBase n + 0x40000 + o + 4) = step.toNat ∧ mread s 4 (localBase n + 0x40000 + o + 8) = cnt ∧ (∀ k < cnt, mread s 4 (localBase n + 0x40000 + o + 12 + 4 * k) = (y k).toNat) ∧ x = rounded (fmul fmt32 (rounded (fsub fmt32 (fin32 (freg s n fs)) (fin32 x0))) (fin32 step)) ∧ low = flt x (fofInt 0) ∧ high = flt (fofInt ((cnt : Int) - 1)) x ∧ (xh = (if low then fofInt 0 else if high then fofInt ((cnt : Int) - 1) else x)) :=
  ⟨(put [(TOP_COREn_STATUS.STATE 1, 1), (TOP_COREn_STATUS.MODE 1, 0)] { State.reset with mem := [(0x91140006, 0x80), (0x91140007, 0x3F), (0x91140008, 2), (0x91140012, 0x80), (0x91140013, 0x3F)], cores := { core := [(1, { w := [(1, 0x90040000)], f := [(1, 0x3F000000)] })] } }), 1, 1, 1, 0, 2, 0, 0x3F800000, rounded (fmul fmt32 (rounded (fsub fmt32 (fin32 0x3F000000) (fin32 0))) (fin32 0x3F800000)), (if flt (rounded (fmul fmt32 (rounded (fsub fmt32 (fin32 0x3F000000) (fin32 0))) (fin32 0x3F800000))) (fofInt 0) then fofInt 0 else if flt (fofInt 1) (rounded (fmul fmt32 (rounded (fsub fmt32 (fin32 0x3F000000) (fin32 0))) (fin32 0x3F800000))) then fofInt 1 else rounded (fmul fmt32 (rounded (fsub fmt32 (fin32 0x3F000000) (fin32 0))) (fin32 0x3F800000))), flt (rounded (fmul fmt32 (rounded (fsub fmt32 (fin32 0x3F000000) (fin32 0))) (fin32 0x3F800000))) (fofInt 0), flt (fofInt 1) (rounded (fmul fmt32 (rounded (fsub fmt32 (fin32 0x3F000000) (fin32 0))) (fin32 0x3F800000))), fun k => if k = 1 then 0x3F800000 else 0, by unfold Settled Issues; decide +kernel⟩
theorem wit_TableInterpolation_0c : ∃ (s : State) (n : Fin 5) (fs : Fin 8) (ws : Fin 16) (o : Nat) (cnt : Nat) (x0 : Word) (step : Word) (x : FVal) (xh : FVal) (low : Bool) (high : Bool) (y : Nat → Word), Settled s ∧ Issues n s ∧ (∀ m < 5, (coreOf s m).stores = []) ∧ reg s n ws = w32 (0x90040000 + o) ∧ o % 4 = 0 ∧ o + 12 + 4 * cnt ≤ dmemSize n ∧ 2 ≤ cnt ∧ cnt ≤ 256 ∧ mread s 4 (localBase n + 0x40000 + o) = x0.toNat ∧ mread s 4 (localBase n + 0x40000 + o + 4) = step.toNat ∧ mread s 4 (localBase n + 0x40000 + o + 8) = cnt ∧ (∀ k < cnt, mread s 4 (localBase n + 0x40000 + o + 12 + 4 * k) = (y k).toNat) ∧ x = rounded (fmul fmt32 (rounded (fsub fmt32 (fin32 (freg s n fs)) (fin32 x0))) (fin32 step)) ∧ low = flt x (fofInt 0) ∧ high = flt (fofInt ((cnt : Int) - 1)) x ∧ (xh = (if low then fofInt 0 else if high then fofInt ((cnt : Int) - 1) else x)) :=
  ⟨(put [(TOP_COREn_STATUS.STATE 1, 1), (TOP_COREn_STATUS.MODE 1, 0)] { State.reset with mem := [(0x91140006, 0x80), (0x91140007, 0x3F), (0x91140008, 2), (0x91140012, 0x80), (0x91140013, 0x3F)], cores := { core := [(1, { w := [(1, 0x90040000)], f := [(1, 0xBF000000)] })] } }), 1, 1, 1, 0, 2, 0, 0x3F800000, rounded (fmul fmt32 (rounded (fsub fmt32 (fin32 0xBF000000) (fin32 0))) (fin32 0x3F800000)), (if flt (rounded (fmul fmt32 (rounded (fsub fmt32 (fin32 0xBF000000) (fin32 0))) (fin32 0x3F800000))) (fofInt 0) then fofInt 0 else if flt (fofInt 1) (rounded (fmul fmt32 (rounded (fsub fmt32 (fin32 0xBF000000) (fin32 0))) (fin32 0x3F800000))) then fofInt 1 else rounded (fmul fmt32 (rounded (fsub fmt32 (fin32 0xBF000000) (fin32 0))) (fin32 0x3F800000))), flt (rounded (fmul fmt32 (rounded (fsub fmt32 (fin32 0xBF000000) (fin32 0))) (fin32 0x3F800000))) (fofInt 0), flt (fofInt 1) (rounded (fmul fmt32 (rounded (fsub fmt32 (fin32 0xBF000000) (fin32 0))) (fin32 0x3F800000))), fun k => if k = 1 then 0x3F800000 else 0, by unfold Settled Issues; decide +kernel⟩
theorem wit_TableInterpolation_0d : ∃ (s : State) (n : Fin 5) (fs : Fin 8) (ws : Fin 16) (o : Nat) (cnt : Nat) (x0 : Word) (step : Word) (x : FVal) (xh : FVal) (low : Bool) (high : Bool) (y : Nat → Word), Settled s ∧ Issues n s ∧ (∀ m < 5, (coreOf s m).stores = []) ∧ reg s n ws = w32 (0x90040000 + o) ∧ o % 4 = 0 ∧ o + 12 + 4 * cnt ≤ dmemSize n ∧ 2 ≤ cnt ∧ cnt ≤ 256 ∧ mread s 4 (localBase n + 0x40000 + o) = x0.toNat ∧ mread s 4 (localBase n + 0x40000 + o + 4) = step.toNat ∧ mread s 4 (localBase n + 0x40000 + o + 8) = cnt ∧ (∀ k < cnt, mread s 4 (localBase n + 0x40000 + o + 12 + 4 * k) = (y k).toNat) ∧ x = rounded (fmul fmt32 (rounded (fsub fmt32 (fin32 (freg s n fs)) (fin32 x0))) (fin32 step)) ∧ low = flt x (fofInt 0) ∧ high = flt (fofInt ((cnt : Int) - 1)) x ∧ (xh = (if low then fofInt 0 else if high then fofInt ((cnt : Int) - 1) else x)) :=
  ⟨(put [(TOP_COREn_STATUS.STATE 1, 1), (TOP_COREn_STATUS.MODE 1, 0)] { State.reset with mem := [(0x91140006, 0x80), (0x91140007, 0x3F), (0x91140008, 2), (0x91140012, 0x80), (0x91140013, 0x3F)], cores := { core := [(1, { w := [(1, 0x90040000)], f := [(1, 0x40000000)] })] } }), 1, 1, 1, 0, 2, 0, 0x3F800000, rounded (fmul fmt32 (rounded (fsub fmt32 (fin32 0x40000000) (fin32 0))) (fin32 0x3F800000)), (if flt (rounded (fmul fmt32 (rounded (fsub fmt32 (fin32 0x40000000) (fin32 0))) (fin32 0x3F800000))) (fofInt 0) then fofInt 0 else if flt (fofInt 1) (rounded (fmul fmt32 (rounded (fsub fmt32 (fin32 0x40000000) (fin32 0))) (fin32 0x3F800000))) then fofInt 1 else rounded (fmul fmt32 (rounded (fsub fmt32 (fin32 0x40000000) (fin32 0))) (fin32 0x3F800000))), flt (rounded (fmul fmt32 (rounded (fsub fmt32 (fin32 0x40000000) (fin32 0))) (fin32 0x3F800000))) (fofInt 0), flt (fofInt 1) (rounded (fmul fmt32 (rounded (fsub fmt32 (fin32 0x40000000) (fin32 0))) (fin32 0x3F800000))), fun k => if k = 1 then 0x3F800000 else 0, by unfold Settled Issues; decide +kernel⟩
theorem wit_TableInterpolation_0e : ∃ (s : State) (n : Fin 5) (fs : Fin 8) (ws : Fin 16) (o : Nat) (cnt : Nat) (x0 : Word) (step : Word) (x : FVal) (xh : FVal) (low : Bool) (high : Bool) (y : Nat → Word), Settled s ∧ Issues n s ∧ (∀ m < 5, (coreOf s m).stores = []) ∧ reg s n ws = w32 (0x90040000 + o) ∧ o % 4 = 0 ∧ o + 12 + 4 * cnt ≤ dmemSize n ∧ 2 ≤ cnt ∧ cnt ≤ 256 ∧ mread s 4 (localBase n + 0x40000 + o) = x0.toNat ∧ mread s 4 (localBase n + 0x40000 + o + 4) = step.toNat ∧ mread s 4 (localBase n + 0x40000 + o + 8) = cnt ∧ (∀ k < cnt, mread s 4 (localBase n + 0x40000 + o + 12 + 4 * k) = (y k).toNat) ∧ x = rounded (fmul fmt32 (rounded (fsub fmt32 (fin32 (freg s n fs)) (fin32 x0))) (fin32 step)) ∧ low = flt x (fofInt 0) ∧ high = flt (fofInt ((cnt : Int) - 1)) x ∧ (xh = (if low then fofInt 0 else if high then fofInt ((cnt : Int) - 1) else x)) :=
  ⟨(put [(TOP_COREn_STATUS.STATE 1, 1), (TOP_COREn_STATUS.MODE 1, 0)] { State.reset with mem := [(0x91140006, 0x80), (0x91140007, 0x3F), (0x91140008, 2), (0x91140012, 0x80), (0x91140013, 0x3F)], cores := { core := [(1, { w := [(1, 0x90040000)], f := [(1, 0x7FC00000)] })] } }), 1, 1, 1, 0, 2, 0, 0x3F800000, rounded (fmul fmt32 (rounded (fsub fmt32 (fin32 0x7FC00000) (fin32 0))) (fin32 0x3F800000)), (if flt (rounded (fmul fmt32 (rounded (fsub fmt32 (fin32 0x7FC00000) (fin32 0))) (fin32 0x3F800000))) (fofInt 0) then fofInt 0 else if flt (fofInt 1) (rounded (fmul fmt32 (rounded (fsub fmt32 (fin32 0x7FC00000) (fin32 0))) (fin32 0x3F800000))) then fofInt 1 else rounded (fmul fmt32 (rounded (fsub fmt32 (fin32 0x7FC00000) (fin32 0))) (fin32 0x3F800000))), flt (rounded (fmul fmt32 (rounded (fsub fmt32 (fin32 0x7FC00000) (fin32 0))) (fin32 0x3F800000))) (fofInt 0), flt (fofInt 1) (rounded (fmul fmt32 (rounded (fsub fmt32 (fin32 0x7FC00000) (fin32 0))) (fin32 0x3F800000))), fun k => if k = 1 then 0x3F800000 else 0, by unfold Settled Issues; decide +kernel⟩
theorem wit_DecodeOfEncode_0 : ∃ (i : Instr) (n : Fin 5), wellFormed i = true ∧ coreOfInstr i = some n :=
  ⟨.addi 3 15 14 0x2000, 3, by decide +kernel⟩
theorem wit_DecodeOfEncode_1 : ∃ (w : Word), legalWord w = false :=
  ⟨0xFFFFFFFF, by decide +kernel⟩
theorem wit_DecodeOfEncode_2 : ∃ (w : Word), legalWord w = true :=
  ⟨0x08004001, by decide +kernel⟩
theorem wit_CoreStatesAndCommits_1 : ∃ (s : State) (n : Fin 5) (w : Asleep) (r : Word), Settled s ∧ awake s = true ∧ (coreOf s n).asleep = some w ∧ coreState s n = 1 ∧ r = pendWord s n w.group &&& w.mask :=
  ⟨(put [(TOP_COREn_STATUS.STATE 1, 1)] { State.reset with cores := { core := [(1, { asleep := some ⟨3, 2, 6, 100, 5⟩ })] }, fab := { pend := [(10, 7)] } }), 1, ⟨3, 2, 6, 100, 5⟩, 6, by unfold Settled; decide +kernel⟩
theorem wit_CoreStatesAndCommits_2 : ∃ (s : State) (n : Fin 5) (w : Asleep), Settled s ∧ awake s = true ∧ (coreOf s n).asleep = some w ∧ coreState s n = 1 :=
  ⟨(put [(TOP_COREn_STATUS.STATE 1, 1)] { State.reset with cores := { core := [(1, { asleep := some ⟨3, 2, 6, 100, 5⟩ })] } }), 1, ⟨3, 2, 6, 100, 5⟩, by unfold Settled; decide +kernel⟩
theorem wit_CoreStatesAndCommits_6 : ∃ (s : State) (n : Fin 4) (c : Acc), haltPending s n = some c ∧ opOf c.word ≠ 3 :=
  ⟨(put [(TOP_COREn_STATUS.STATE 2, 1), (TOP_COREn_STATUS.MODE 2, 0)] { State.reset with accepted := [(TOP_CORE_CMD, ⟨0, 0, 0, 0x22⟩)] }), 2, ⟨0, 0, 0, 0x22⟩, by decide +kernel⟩
theorem wit_CoreStatesAndCommits_7 : ∃ (s : State), ¬ s.cores.commitAt < s.bnd ∧ Settled s :=
  ⟨State.reset, by unfold Settled; decide +kernel⟩
theorem wit_CoreStatesAndCommits_8 : ∃ (s : State) (n : Fin 5) (e : QEntry) (a : Word) (v : Word) (tgt : Nat), Settled s ∧ s.cores.commitAt < s.bnd ∧ (∀ m < 5, m ≠ n.val → (queueOf s (60 + m)).items = []) ∧ (queueOf s (60 + n)).items = [e] ∧ e.words = [a, v] ∧ tgt = fget a 16 12 :=
  ⟨({ State.reset with bnd := 3, cores := { commitAt := 2, queue := [(61, { items := [⟨[0x20010000, 7], 5, 0, 0⟩] })] } }), 1, ⟨[0x20010000, 7], 5, 0, 0⟩, 0x20010000, 7, 1, by unfold Settled; decide +kernel⟩
theorem wit_LaneBringUp_1 : ∃ (s : State) (n : Fin 4), flag s (LNK_LANEn_CTRL.EN n) = true :=
  ⟨(put [(LNK_LANEn_CTRL.EN 3, 1)] State.reset), 3, by decide +kernel⟩
theorem wit_LaneBringUp_2 : ∃ (s : State) (n : Fin 4) (k : Nat), awake s = true ∧ laneState s n = 1 ∧ laneMode s n = 1 ∧ (laneOf s n).wake = 0 ∧ k = bitsIn s n (nsec 2000000) / 66 :=
  ⟨(put [(LNK_LANEn_STATUS.STATE 1, 1)] { State.reset with lanes := { lane := [(1, { taken := 0x90000000 })] } }), 1, bitsIn (put [(LNK_LANEn_STATUS.STATE 1, 1)] { State.reset with lanes := { lane := [(1, { taken := 0x90000000 })] } }) 1 (nsec 2000000) / 66, by decide +kernel⟩
theorem wit_LaneBringUp_4a : ∃ (s : State) (n : Fin 4), awake s = true ∧ laneState s n = 1 ∧ modeOf n (rd s (LNK_LANEn_CTRL n)) ≠ 0 ∧ modeOf n (rd s (LNK_LANEn_CTRL n)) ≠ 5 :=
  ⟨(put [(LNK_LANEn_STATUS.STATE 2, 1), (⟨LNK_LANEn_CTRL 2, 0, 32⟩, 2952790016)] State.reset), 2, by decide +kernel⟩
theorem wit_LaneBringUp_4b : ∃ (s : State) (n : Fin 4), awake s = true ∧ laneState s n = 1 ∧ modeOf n (rd s (LNK_LANEn_CTRL n)) ≠ 0 ∧ modeOf n (rd s (LNK_LANEn_CTRL n)) ≠ 5 :=
  ⟨(put [(LNK_LANEn_STATUS.STATE 0, 1), (⟨LNK_LANEn_CTRL 0, 0, 32⟩, 2415919104)] State.reset), 0, by decide +kernel⟩
theorem wit_LaneBringUp_5 : ∃ (s : State) (n : Fin 4) (ofs : Nat), awake s = true ∧ laneState s n = 1 ∧ (laneOf s n).absentPosted = false ∧ (laneOf s n).since + nsec 1000000000 ≤ clk (atOfs ofs s) :=
  ⟨(put [(LNK_LANEn_STATUS.STATE 2, 1)] { State.reset with bnd := 1024 * 1000 }), 2, 5, by decide +kernel⟩
theorem wit_LaneBringUp_6 : ∃ (s : State), awake s = true :=
  ⟨(put [(LNK_LANEn_STATUS.STATE 2, 2)] { State.reset with lanes := { lane := [(2, { taken := 0xB0000000 })] } }), by decide +kernel⟩
theorem wit_LaneBringUp_7 : ∃ (s : State) (n : Fin 4) (bytes : List Byte) (inverted : Bool) (b : TrainBlock), awake s = true ∧ laneState s n = 3 ∧ laneMode s n = 1 ∧ parseTrain bytes = some b ∧ (inverted = (nbit (laneOf s n).taken.toNat 22 != (laneOf s n).rxFlip) ∨ nbit (laneOf s n).taken.toNat 24 = true) :=
  ⟨(put [(LNK_LANEn_STATUS.STATE 2, 3)] { State.reset with lanes := { lane := [(2, { taken := 0x90000000 })] } }), 2, [0x5A, 0x19, 0x40, 3, 0, 0, 0, BitVec.ofNat 8 (crc8 [0x5A, 0x19, 0x40, 3, 0, 0, 0])], false, ⟨(1, 2, 1), (0, 0, 0), false, true, false, 3, 0, 0⟩, by decide +kernel⟩
theorem wit_LaneBringUp_8 : ∃ (s : State) (n : Fin 4) (bytes : List Byte), awake s = true ∧ laneMode s n = 1 ∧ parseTrain bytes = none :=
  ⟨(put [(LNK_LANEn_STATUS.STATE 2, 3)] { State.reset with lanes := { lane := [(2, { taken := 0x90000000 })] } }), 2, [0x5A, 0], by decide +kernel⟩
theorem wit_LaneBringUp_10a : ∃ (s : State) (n : Fin 4) (ofs : Nat), awake s = true ∧ laneState s n = 5 ∧ (laneMode s n = 1 ∨ laneMode s n = 3) ∧ (laneOf s n).go = true ∧ (64 ≤ (laneOf s n).confirm + (txBits (atOfs ofs s) n - (laneOf s n).txPos) / (if laneMode s n = 3 then frame72Bits else 66)) :=
  ⟨(put [(LNK_LANEn_STATUS.STATE 2, 5)] { State.reset with lanes := { lane := [(2, { taken := 0x90000000, go := true, confirm := 64 })] } }), 2, 9, by decide +kernel⟩
theorem wit_LaneBringUp_10b : ∃ (s : State) (n : Fin 4) (ofs : Nat), awake s = true ∧ laneState s n = 5 ∧ (laneMode s n = 1 ∨ laneMode s n = 3) ∧ (laneOf s n).go = true ∧ (64 ≤ (laneOf s n).confirm + (txBits (atOfs ofs s) n - (laneOf s n).txPos) / (if laneMode s n = 3 then frame72Bits else 66)) :=
  ⟨(put [(LNK_LANEn_STATUS.STATE 3, 5)] { State.reset with lanes := { lane := [(3, { taken := 0xB0000000, go := true, confirm := 64 })] } }), 3, 9, by decide +kernel⟩
theorem wit_LaneBringUp_11 : ∃ (s : State) (n : Fin 4) (ofs : Nat), awake s = true ∧ laneState s n ∈ [2, 3, 4] ∧ laneMode s n = 1 ∧ modeOf n (rd s (LNK_LANEn_CTRL n)) = 1 ∧ (laneOf s n).attempt + nsec 500000000 ≤ clk (atOfs ofs s) :=
  ⟨(put [(LNK_LANEn_STATUS.STATE 2, 4), (⟨LNK_LANEn_CTRL 2, 0, 32⟩, 2415919104)] { State.reset with bnd := 1024 * 501, lanes := { lane := [(2, { taken := 0x90000000 })] } }), 2, 0, by decide +kernel⟩
theorem wit_LaneBringUp_12 : ∃ (s : State) (n : Fin 4) (rate : Fin 4), awake s = true ∧ (laneState s n = 2 ∨ laneState s n = 3) ∧ laneMode s n = 1 ∧ modeOf n (rd s (LNK_LANEn_CTRL n)) = 1 ∧ laneRate s n < rate.val :=
  ⟨(put [(LNK_LANEn_STATUS.STATE 2, 3), (⟨LNK_LANEn_CTRL 2, 0, 32⟩, 2415919104), (LNK_LANEn_STATUS.RATE 2, 2)] { State.reset with lanes := { lane := [(2, { taken := 0x90000000 })] } }), 2, 3, by decide +kernel⟩
theorem wit_LaneLossAndTest_0a : ∃ (s : State) (n : Fin 4), awake s = true ∧ laneState s n ≠ 0 :=
  ⟨(put [(LNK_LANEn_STATUS.STATE 1, 6)] { State.reset with lanes := { lane := [(1, { taken := 0x90000000 })] } }), 1, by decide +kernel⟩
theorem wit_LaneLossAndTest_0b : ∃ (s : State) (n : Fin 4), awake s = true ∧ laneState s n ≠ 0 :=
  ⟨(put [(LNK_LANEn_STATUS.STATE 3, 3)] { State.reset with lanes := { lane := [(3, { taken := 0xB0000000 })] } }), 3, by decide +kernel⟩
theorem wit_LaneLossAndTest_1 : ∃ (s : State) (n : Fin 4), awake s = true ∧ laneState s n = 6 :=
  ⟨(put [(LNK_LANEn_STATUS.STATE 3, 6)] State.reset), 3, by decide +kernel⟩
theorem wit_LaneLossAndTest_2 : ∃ (s : State) (n : Fin 4) (ofs : Nat), awake s = true ∧ laneState s n = 7 ∧ modeOf n (rd s (LNK_LANEn_CTRL n)) = 1 ∧ (laneOf s n).since + nsec 10000000 ≤ clk (atOfs ofs s) :=
  ⟨(put [(LNK_LANEn_STATUS.STATE 2, 7), (⟨LNK_LANEn_CTRL 2, 0, 32⟩, 2415919104)] { State.reset with bnd := 1024 * 11 }), 2, 0, by decide +kernel⟩
theorem wit_LaneLossAndTest_3 : ∃ (s : State) (n : Fin 4), awake s = true ∧ (laneState s n = 6 ∨ laneState s n = 7) ∧ modeOf n (rd s (LNK_LANEn_CTRL n)) = 1 ∧ 4 ≤ (laneOf s n).trainRun ∧ (laneOf s n).trainRate < 4 :=
  ⟨(put [(LNK_LANEn_STATUS.STATE 2, 6), (⟨LNK_LANEn_CTRL 2, 0, 32⟩, 2415919104)] { State.reset with lanes := { lane := [(2, { taken := 0x90000000, trainRun := 4, trainRate := 3 })] } }), 2, by decide +kernel⟩
theorem wit_LaneLossAndTest_4 : ∃ (s : State) (n : Fin 4) (ofs : Nat), awake s = true ∧ laneState s n = 8 ∧ modeOf n (rd s (LNK_LANEn_CTRL n)) = 1 ∧ 0 < fld s (LNK_LANEn_CTRL.FAIL_RETRY n) ∧ (laneOf s n).since + nsec (1000000000 * fld s (LNK_LANEn_CTRL.FAIL_RETRY n)) ≤ clk (atOfs ofs s) :=
  ⟨(put [(LNK_LANEn_STATUS.STATE 2, 8), (⟨LNK_LANEn_CTRL 2, 0, 32⟩, 2415919104), (LNK_LANEn_CTRL.FAIL_RETRY 2, 1)] { State.reset with bnd := 1024 * 1001 }), 2, 0, by decide +kernel⟩
theorem wit_LaneLossAndTest_5a : ∃ (s : State) (n : Fin 4) (m : Nat), m = modeOf n (rd s (LNK_LANEn_CTRL n)) ∧ m ≠ 0 :=
  ⟨(put [(⟨LNK_LANEn_CTRL 2, 0, 32⟩, 3221225472)] State.reset), 2, 4, by decide +kernel⟩
theorem wit_LaneLossAndTest_5b : ∃ (s : State) (n : Fin 4) (m : Nat), m = modeOf n (rd s (LNK_LANEn_CTRL n)) ∧ m ≠ 0 :=
  ⟨(put [(LNK_LANEn_STATUS.STATE 0, 9), (⟨LNK_LANEn_CTRL 0, 0, 32⟩, 3489660928)] State.reset), 0, 5, by decide +kernel⟩
theorem wit_LaneLossAndTest_6 : ∃ (s : State) (n : Fin 4), Settled s ∧ (laneOf s n).injFrom = 0 :=
  ⟨State.reset, 0, by unfold Settled; decide +kernel⟩
theorem wit_LaneLossAndTest_7 : ∃ (s : State) (n : Fin 4) (k : Nat), awake s = true ∧ laneState s n ∈ [2, 3, 4, 5, 6, 9] ∧ 16 * k < bitsIn s n (nsec 1000) :=
  ⟨(put [(LNK_LANEn_STATUS.STATE 2, 6)] { State.reset with lanes := { lane := [(2, { taken := 0x90000000 })] } }), 2, 3, by decide +kernel⟩
theorem wit_LaneLossAndTest_8a : ∃ (s : State) (s0 : State) (n : Fin 4) (ofs : Nat) (b : List Byte), s0 = flow n [] (atOfs ofs s) ∧ Settled s ∧ awake s = true ∧ laneMode s n = 1 ∧ (laneState s n = 6 ∨ laneState s n = 7) ∧ injTargets s n = false ∧ b = packBits (prbsRun 31 56 (laneOf s n).fill).1 :=
  ⟨(put [(LNK_LANEn_STATUS.STATE 1, 6)] { State.reset with bnd := 3, lanes := { lane := [(1, { taken := 0x90000000, fill := 5 })] } }), flow 1 [] (atOfs 0 (put [(LNK_LANEn_STATUS.STATE 1, 6)] { State.reset with bnd := 3, lanes := { lane := [(1, { taken := 0x90000000, fill := 5 })] } })), 1, 0, packBits (prbsRun 31 56 5).1, by unfold Settled; decide +kernel⟩
theorem wit_LaneLossAndTest_8b : ∃ (s : State) (s0 : State) (n : Fin 4) (ofs : Nat) (b : List Byte), s0 = flow n [] (atOfs ofs s) ∧ Settled s ∧ awake s = true ∧ laneMode s n = 1 ∧ (laneState s n = 6 ∨ laneState s n = 7) ∧ injTargets s n = false ∧ b = packBits (prbsRun 31 56 (laneOf s n).fill).1 :=
  ⟨(put [(LNK_LANEn_STATUS.STATE 1, 6)] { State.reset with bnd := 3, lanes := { lane := [(1, { taken := 0x90000000, fill := 5, txPos := 66 })] } }), flow 1 [] (atOfs 0 (put [(LNK_LANEn_STATUS.STATE 1, 6)] { State.reset with bnd := 3, lanes := { lane := [(1, { taken := 0x90000000, fill := 5, txPos := 66 })] } })), 1, 0, packBits (prbsRun 31 56 5).1, by unfold Settled; decide +kernel⟩
theorem wit_LaneLossAndTest_9 : ∃ (s : State) (n : Fin 4) (p : Nat) (k : Nat), laneMode s n = 1 ∧ (laneState s n = 6 ∨ laneState s n = 7) ∧ injTargets s n = false ∧ p = (laneOf s n).txPos ∧ p < txBits s n ∧ k = (txBits s n - p + 65) / 66 :=
  ⟨(put [(LNK_LANEn_STATUS.STATE 1, 6)] { State.reset with bnd := 1, lanes := { lane := [(1, { taken := 0x90000000 })] } }), 1, 0, (txBits (put [(LNK_LANEn_STATUS.STATE 1, 6)] { State.reset with bnd := 1, lanes := { lane := [(1, { taken := 0x90000000 })] } }) 1 - 0 + 65) / 66, by decide +kernel⟩
theorem wit_LaneLossAndTest_10 : ∃ (s : State) (n : Fin 4), flag s (LNK_LANEn_PRBS_CTRL.CHK_EN n) = false :=
  ⟨State.reset, 1, by decide +kernel⟩
theorem wit_LaneLossAndTest_11a : ∃ (s : State) (n : Fin 4) (ofs : Nat) (bits : List Bool) (i : Instr) (inv : Bool) (c : Checker), (i = (if flag s (LNK_LANEn_PRBS_STATUS.LOCK n) then .lnkPrbsLost n ofs bits else .prbsLock n ⟨ofs, bits⟩)) ∧ laneState s n = 9 ∧ flag s (LNK_LANEn_PRBS_CTRL.CHK_EN n) = true ∧ fget (laneOf s n).taken 20 2 ≠ 1 ∧ awake s = true ∧ inv = (flag s (LNK_LANEn_PRBS_CTRL.INV n) != nbit (laneOf s n).taken.toNat 22) ∧ c = bits.foldl (fun c b => compareBit (laneOrder s n) c (b != inv)) { (laneOf s n).chk with lost := false } :=
  ⟨(put [(LNK_LANEn_STATUS.STATE 3, 9), (LNK_LANEn_PRBS_CTRL.CHK_EN 3, 1), (LNK_LANEn_PRBS_STATUS.LOCK 3, 0)] { State.reset with lanes := { lane := [(3, { taken := 0xD0000000 })] } }), 3, 0, [true, false], (if flag (put [(LNK_LANEn_STATUS.STATE 3, 9), (LNK_LANEn_PRBS_CTRL.CHK_EN 3, 1), (LNK_LANEn_PRBS_STATUS.LOCK 3, 0)] { State.reset with lanes := { lane := [(3, { taken := 0xD0000000 })] } }) (LNK_LANEn_PRBS_STATUS.LOCK 3) then .lnkPrbsLost 3 0 [true, false] else .prbsLock 3 ⟨0, [true, false]⟩), false, ([true, false].foldl (fun c b => compareBit (laneOrder (put [(LNK_LANEn_STATUS.STATE 3, 9), (LNK_LANEn_PRBS_CTRL.CHK_EN 3, 1), (LNK_LANEn_PRBS_STATUS.LOCK 3, 0)] { State.reset with lanes := { lane := [(3, { taken := 0xD0000000 })] } }) 3) c (b != false)) { (laneOf (put [(LNK_LANEn_STATUS.STATE 3, 9), (LNK_LANEn_PRBS_CTRL.CHK_EN 3, 1), (LNK_LANEn_PRBS_STATUS.LOCK 3, 0)] { State.reset with lanes := { lane := [(3, { taken := 0xD0000000 })] } }) 3).chk with lost := false }), by decide +kernel⟩
theorem wit_LaneLossAndTest_11b : ∃ (s : State) (n : Fin 4) (ofs : Nat) (bits : List Bool) (i : Instr) (inv : Bool) (c : Checker), (i = (if flag s (LNK_LANEn_PRBS_STATUS.LOCK n) then .lnkPrbsLost n ofs bits else .prbsLock n ⟨ofs, bits⟩)) ∧ laneState s n = 9 ∧ flag s (LNK_LANEn_PRBS_CTRL.CHK_EN n) = true ∧ fget (laneOf s n).taken 20 2 ≠ 1 ∧ awake s = true ∧ inv = (flag s (LNK_LANEn_PRBS_CTRL.INV n) != nbit (laneOf s n).taken.toNat 22) ∧ c = bits.foldl (fun c b => compareBit (laneOrder s n) c (b != inv)) { (laneOf s n).chk with lost := false } :=
  ⟨(put [(LNK_LANEn_STATUS.STATE 3, 9), (LNK_LANEn_PRBS_CTRL.CHK_EN 3, 1), (LNK_LANEn_PRBS_STATUS.LOCK 3, 1)] { State.reset with lanes := { lane := [(3, { taken := 0xD0000000 })] } }), 3, 0, [true, false], (if flag (put [(LNK_LANEn_STATUS.STATE 3, 9), (LNK_LANEn_PRBS_CTRL.CHK_EN 3, 1), (LNK_LANEn_PRBS_STATUS.LOCK 3, 1)] { State.reset with lanes := { lane := [(3, { taken := 0xD0000000 })] } }) (LNK_LANEn_PRBS_STATUS.LOCK 3) then .lnkPrbsLost 3 0 [true, false] else .prbsLock 3 ⟨0, [true, false]⟩), false, ([true, false].foldl (fun c b => compareBit (laneOrder (put [(LNK_LANEn_STATUS.STATE 3, 9), (LNK_LANEn_PRBS_CTRL.CHK_EN 3, 1), (LNK_LANEn_PRBS_STATUS.LOCK 3, 1)] { State.reset with lanes := { lane := [(3, { taken := 0xD0000000 })] } }) 3) c (b != false)) { (laneOf (put [(LNK_LANEn_STATUS.STATE 3, 9), (LNK_LANEn_PRBS_CTRL.CHK_EN 3, 1), (LNK_LANEn_PRBS_STATUS.LOCK 3, 1)] { State.reset with lanes := { lane := [(3, { taken := 0xD0000000 })] } }) 3).chk with lost := false }), by decide +kernel⟩
theorem wit_FramesReadBackFromTheirBytes_0a : ∃ (l : Nat) (f : LineFrame), f.vc < 4 ∧ f.type < 16 ∧ typeKnown l f.type = true ∧ f.dst < 1024 ∧ f.epoch < 32 ∧ f.src < 1024 ∧ f.lseq < 256 ∧ f.lack < 256 ∧ f.hops < 1024 ∧ f.aux < 65536 ∧ f.payload.length ≤ 492 :=
  ⟨1, ({ vc := 3, type := 6, dst := 1023, epoch := 31, src := 1023, lseq := 255, lack := 255, hops := 1023, aux := 65535, payload := [1, 2, 3] } : LineFrame), by decide +kernel⟩
theorem wit_FramesReadBackFromTheirBytes_0b : ∃ (l : Nat) (f : LineFrame), f.vc < 4 ∧ f.type < 16 ∧ typeKnown l f.type = true ∧ f.dst < 1024 ∧ f.epoch < 32 ∧ f.src < 1024 ∧ f.lseq < 256 ∧ f.lack < 256 ∧ f.hops < 1024 ∧ f.aux < 65536 ∧ f.payload.length ≤ 492 :=
  ⟨2, ({ type := 13 } : LineFrame), by decide +kernel⟩
theorem wit_LineFramesReceived_1 : ∃ (s : State) (l : Fin 3) (bytes : List Byte) (f : LineFrame), Settled s ∧ awake s = true ∧ linkUp s l = true ∧ parseFrame l bytes = .good f ∧ f.type = 0 :=
  ⟨(put [(LNK_LANEn_STATUS.STATE 1, 6), (WOT_CTRL.EN, 1)] { State.reset with lanes := { lane := [(1, { taken := 0x90000000 })] } }), 1, frameBytes ({ payload := [7] } : LineFrame), ({ payload := [7] } : LineFrame), by unfold Settled; decide +kernel⟩
theorem wit_LineFramesReceived_2 : ∃ (s : State) (l : Fin 3), Settled s ∧ awake s = true ∧ linkUp s l = true :=
  ⟨(put [(LNK_LANEn_STATUS.STATE 1, 6), (WOT_CTRL.EN, 1)] { State.reset with lanes := { lane := [(1, { taken := 0x90000000 })] } }), 1, by unfold Settled; decide +kernel⟩
theorem wit_LineFramesReceived_3a : ∃ (s : State) (pre : List Arrived) (rest : List Arrived) (a : Arrived), Settled s ∧ s.wot.inbox = pre ++ a :: rest ∧ (∀ b ∈ pre, 2 ≤ b.lane ∨ (b.bad = false ∧ b.frame.type ≠ 8)) ∧ a.lane < 2 ∧ (a.bad = true ∨ a.frame.type = 8) :=
  ⟨({ State.reset with wot := { inbox := [({ lane := 0, stamp := 5, frame := ({ type := 8 } : LineFrame), bad := false } : Arrived)] } }), [], [], ({ lane := 0, stamp := 5, frame := ({ type := 8 } : LineFrame), bad := false } : Arrived), by unfold Settled; decide +kernel⟩
theorem wit_LineFramesReceived_3b : ∃ (s : State) (pre : List Arrived) (rest : List Arrived) (a : Arrived), Settled s ∧ s.wot.inbox = pre ++ a :: rest ∧ (∀ b ∈ pre, 2 ≤ b.lane ∨ (b.bad = false ∧ b.frame.type ≠ 8)) ∧ a.lane < 2 ∧ (a.bad = true ∨ a.frame.type = 8) :=
  ⟨({ State.reset with wot := { inbox := [({ lane := 1, stamp := 5, frame := ({ type := 3 } : LineFrame), bad := true } : Arrived)] } }), [], [], ({ lane := 1, stamp := 5, frame := ({ type := 3 } : LineFrame), bad := true } : Arrived), by unfold Settled; decide +kernel⟩
theorem wit_LineFramesReceived_4a : ∃ (s : State) (pre : List Arrived) (rest : List Arrived) (a : Arrived), Settled s ∧ s.wot.inbox = pre ++ a :: rest ∧ (∀ b ∈ pre, b.frame.type ≠ 5 ∧ (b.frame.type = 1 → 2 ≤ b.lane)) ∧ (a.frame.type = 5 ∨ (a.frame.type = 1 ∧ a.lane < 2)) :=
  ⟨({ State.reset with wot := { inbox := [({ lane := 2, stamp := 5, frame := ({ type := 5 } : LineFrame), bad := false } : Arrived)] } }), [], [], ({ lane := 2, stamp := 5, frame := ({ type := 5 } : LineFrame), bad := false } : Arrived), by unfold Settled; decide +kernel⟩
theorem wit_LineFramesReceived_4b : ∃ (s : State) (pre : List Arrived) (rest : List Arrived) (a : Arrived), Settled s ∧ s.wot.inbox = pre ++ a :: rest ∧ (∀ b ∈ pre, b.frame.type ≠ 5 ∧ (b.frame.type = 1 → 2 ≤ b.lane)) ∧ (a.frame.type = 5 ∨ (a.frame.type = 1 ∧ a.lane < 2)) :=
  ⟨({ State.reset with wot := { inbox := [({ lane := 1, stamp := 5, frame := ({ type := 1 } : LineFrame), bad := false } : Arrived)] } }), [], [], ({ lane := 1, stamp := 5, frame := ({ type := 1 } : LineFrame), bad := false } : Arrived), by unfold Settled; decide +kernel⟩
theorem wit_LineFramesSent_0 : ∃ (s : State) (l : Fin 3), linkUp s l = true ∧ Settled s :=
  ⟨(put [(LNK_LANEn_STATUS.STATE 1, 6), (WOT_CTRL.EN, 1)] { State.reset with lanes := { lane := [(1, { taken := 0x90000000 })] }, wot := { link := [(1, {  })] } }), 1, by unfold Settled; decide +kernel⟩
theorem wit_LineFramesSent_1 : ∃ (s : State) (l : Fin 3) (v : Fin 4) (ofs : Nat), linkUp s l = true ∧ (vcOf s l v).unacked ≠ [] ∧ (vcOf s l v).since + nsec (1000 * max 1 (fld s WOT_TIMING.ACK_TO)) ≤ clk (atOfs ofs s) :=
  ⟨(put [(LNK_LANEn_STATUS.STATE 1, 6), (WOT_CTRL.EN, 1)] { State.reset with bnd := 10 ^ 6, lanes := { lane := [(1, { taken := 0x90000000 })] }, wot := { link := [(1, { vc := [(2, { unacked := [⟨({ vc := 2, type := 2 } : LineFrame), none⟩] })] })] } }), 1, 2, 0, by decide +kernel⟩
theorem wit_LineFramesSent_2 : ∃ (s : State) (l : Fin 3) (v : Nat) (nak : Bool) (rest : List (Nat × Bool)), awake s = true ∧ linkUp s l = true ∧ (linkOf s l).acks = (v, nak) :: rest :=
  ⟨(put [(LNK_LANEn_STATUS.STATE 0, 6), (WOT_CTRL.EN, 1)] { State.reset with lanes := { lane := [(0, { taken := 0x90000000 })] }, wot := { link := [(0, { acks := [(3, true)] })] } }), 0, 3, true, [], by decide +kernel⟩
theorem wit_LineFramesSent_3 : ∃ (s : State) (s0 : State) (l : Fin 3) (ofs : Nat) (i : Nat) (v : Fin 4) (u : Unacked), s0 = feedStream l (moveFrames (atOfs ofs s)) ∧ awake s = true ∧ linkUp s l = true ∧ (linkOf s l).acks = [] ∧ (linkOf s l).cut = [] ∧ (∀ w < 4, w ≠ v.val → (vcOf s l w).again = none) ∧ (vcOf s l v).again = some i ∧ (vcOf s l v).unacked[i]? = some u ∧ u.hole = none ∧ (vcOf s l v).held = none ∧ (vcOf s l v).after = [] ∧ flag s WOT_INJ_CFG.EN = false :=
  ⟨(put [(LNK_LANEn_STATUS.STATE 0, 6), (WOT_CTRL.EN, 1)] { State.reset with lanes := { lane := [(0, { taken := 0x90000000 })] }, wot := { link := [(0, { vc := [(1, { unacked := [⟨({ vc := 1, type := 3 } : LineFrame), none⟩], again := some 0, next := 1 })] })] } }), feedStream 0 (moveFrames (atOfs 0 (put [(LNK_LANEn_STATUS.STATE 0, 6), (WOT_CTRL.EN, 1)] { State.reset with lanes := { lane := [(0, { taken := 0x90000000 })] }, wot := { link := [(0, { vc := [(1, { unacked := [⟨({ vc := 1, type := 3 } : LineFrame), none⟩], again := some 0, next := 1 })] })] } }))), 0, 0, 0, 1, ⟨({ vc := 1, type := 3 } : LineFrame), none⟩, by decide +kernel⟩
theorem wit_LineFramesSent_4 : ∃ (s : State) (s0 : State) (l : Fin 3) (ofs : Nat) (v : Nat) (f : LineFrame) (rest : List LineFrame), s0 = feedStream l (moveFrames (atOfs ofs s)) ∧ awake s = true ∧ linkUp s l = true ∧ (linkOf s l).acks = [] ∧ (linkOf s l).cut = [] ∧ (∀ w < 4, (vcOf s l w).again = none) ∧ vcOrder.find? (fun v => decide ((vcOf s0 l v).queue ≠ []) && hasWindow s l v) = some v ∧ (vcOf s0 l v).queue = f :: rest ∧ f.vc = v ∧ (vcOf s l v).after = [] ∧ flag s WOT_INJ_CFG.EN = false ∧ Settled s0 :=
  ⟨(put [(LNK_LANEn_STATUS.STATE 0, 6), (WOT_CTRL.EN, 1)] { State.reset with lanes := { lane := [(0, { taken := 0x90000000 })] }, wot := { link := [(0, { vc := [(1, { queue := [({ vc := 1, type := 3 } : LineFrame)] })] })] } }), feedStream 0 (moveFrames (atOfs 0 (put [(LNK_LANEn_STATUS.STATE 0, 6), (WOT_CTRL.EN, 1)] { State.reset with lanes := { lane := [(0, { taken := 0x90000000 })] }, wot := { link := [(0, { vc := [(1, { queue := [({ vc := 1, type := 3 } : LineFrame)] })] })] } }))), 0, 0, 1, ({ vc := 1, type := 3 } : LineFrame), [], by unfold Settled; decide +kernel⟩
theorem wit_LineFramesSent_5 : ∃ (s : State), Settled s ∧ flag s WOT_INJ_CFG.EN = false :=
  ⟨State.reset, by unfold Settled; decide +kernel⟩
theorem wit_LineFramesSent_6 : ∃ (s : State) (l : Fin 2) (v : Fin 4) (due : Nat) (bs : List Byte), (vcOf s l v).held = some (bs, due) ∧ (vcOf s l v).after = [] ∧ Settled s :=
  ⟨({ State.reset with wot := { link := [(1, { vc := [(1, { held := some ([1, 2], 4) })] })] }, bnd := 3 }), 1, 1, 4, [1, 2], by unfold Settled; decide +kernel⟩
theorem wit_AddressesAndTimeOnTheLine_1 : ∃ (s : State) (pre : List Arrived) (rest : List Arrived) (a : Arrived) (c : Nat) (id : Nat), Settled s ∧ s.wot.inbox = pre ++ a :: rest ∧ (∀ b ∈ pre, 2 ≤ b.lane ∨ b.frame.type ≠ 6) ∧ a.frame.type = 6 ∧ a.lane < 2 ∧ c < 1024 ∧ id < 65536 ∧ a.frame.payload = bytesLE 2 c ++ bytesLE 2 id :=
  ⟨({ State.reset with wot := { inbox := [({ lane := 0, stamp := 5, frame := ({ type := 6, payload := [255, 3, 1, 0] } : LineFrame), bad := false } : Arrived)] } }), [], [], ({ lane := 0, stamp := 5, frame := ({ type := 6, payload := [255, 3, 1, 0] } : LineFrame), bad := false } : Arrived), 1023, 1, by unfold Settled; decide +kernel⟩
theorem wit_AddressesAndTimeOnTheLine_3 : ∃ (s : State) (pre : List Arrived) (rest : List Arrived) (a : Arrived) (t1 : Nat), Settled s ∧ s.wot.inbox = pre ++ a :: rest ∧ (∀ b ∈ pre, b.bad = true ∨ b.frame.type ≠ 9) ∧ a.frame.type = 9 ∧ a.bad = false ∧ a.frame.payload = stampBytes t1 :=
  ⟨({ State.reset with wot := { inbox := [({ lane := 2, stamp := 5, frame := ({ type := 9, payload := stampBytes 77 } : LineFrame), bad := false } : Arrived)] } }), [], [], ({ lane := 2, stamp := 5, frame := ({ type := 9, payload := stampBytes 77 } : LineFrame), bad := false } : Arrived), 77, by unfold Settled; decide +kernel⟩
theorem wit_AddressesAndTimeOnTheLine_4 : ∃ (s : State) (pre : List Arrived) (rest : List Arrived) (a : Arrived) (t1 : Nat) (t2 : Nat) (t3 : Nat), s.wot.inbox = pre ++ a :: rest ∧ (∀ b ∈ pre, b.bad = true ∨ b.frame.type ≠ 10) ∧ a.frame.type = 10 ∧ a.bad = false ∧ t1 < 2 ^ 80 ∧ t2 < 2 ^ 80 ∧ t3 < 2 ^ 80 ∧ a.frame.payload = stampBytes t1 ++ stampBytes t2 ++ stampBytes t3 :=
  ⟨({ State.reset with wot := { inbox := [({ lane := 1, stamp := 5, frame := ({ type := 10, payload := stampBytes 77 ++ stampBytes 99 ++ stampBytes 111 } : LineFrame), bad := false } : Arrived)] } }), [], [], ({ lane := 1, stamp := 5, frame := ({ type := 10, payload := stampBytes 77 ++ stampBytes 99 ++ stampBytes 111 } : LineFrame), bad := false } : Arrived), 77, 99, 111, by decide +kernel⟩
theorem wit_AddressesAndTimeOnTheLine_6 : ∃ (s : State) (pre : List Arrived) (rest : List Arrived) (a : Arrived), s.wot.inbox = pre ++ a :: rest ∧ (∀ b ∈ pre, 2 ≤ b.lane ∨ b.bad = true ∨ b.frame.type ≠ 7) ∧ a.frame.type = 7 ∧ a.lane < 2 ∧ a.bad = false ∧ a.frame.hops < 1023 :=
  ⟨({ State.reset with wot := { inbox := [({ lane := 1, stamp := 5, frame := ({ type := 7, hops := 1022 } : LineFrame), bad := false } : Arrived)] } }), [], [], ({ lane := 1, stamp := 5, frame := ({ type := 7, hops := 1022 } : LineFrame), bad := false } : Arrived), by decide +kernel⟩
theorem wit_AddressesAndTimeOnTheLine_7 : ∃ (s : State) (n : Fin 4), Settled s ∧ flag s (TBS_TALLYn_CTRL.EN n) = true ∧ flag s (TBS_TALLYn_CTRL.BCAST_EN n) = true ∧ tallySrc s n = 1 ∧ (tget (fun _ => 0) s.wot.bcastAt n = 0 ∨ tget (fun _ => 0) s.wot.bcastAt n - 1 + bcastLaps s n ≤ tick s) :=
  ⟨(put [(TBS_TALLYn_CTRL.EN 3, 1), (TBS_TALLYn_CTRL.BCAST_EN 3, 1), (TBS_TALLYn_CTRL.SRC 3, 1)] State.reset), 3, by unfold Settled; decide +kernel⟩
theorem wit_AddressesAndTimeOnTheLine_10a : ∃ (s : State) (west : Bool) (ofs : Nat), reaches s west = true ∧ (linkUp s (laneToward west) = false ∨ (seenOf s west).baton = none ∨ (∃ at0, (seenOf s west).baton = some at0 ∧ at0 + nsec (1000000 * max 1 (fld s WOT_TIMING.REROUTE_HOLD)) ≤ clk (atOfs ofs s))) :=
  ⟨(put [(WOT_STATUS.REACH_W, 1)] State.reset), true, 0, by decide +kernel, .inl (by decide +kernel)⟩
theorem wit_AddressesAndTimeOnTheLine_10b : ∃ (s : State) (west : Bool) (ofs : Nat), reaches s west = true ∧ (linkUp s (laneToward west) = false ∨ (seenOf s west).baton = none ∨ (∃ at0, (seenOf s west).baton = some at0 ∧ at0 + nsec (1000000 * max 1 (fld s WOT_TIMING.REROUTE_HOLD)) ≤ clk (atOfs ofs s))) :=
  ⟨(put [(WOT_STATUS.REACH_E, 1), (LNK_LANEn_STATUS.STATE 1, 6), (WOT_CTRL.EN, 1)] { State.reset with bnd := 10 ^ 8, wot := { east := { baton := some 3 } }, lanes := { lane := [(1, { taken := 0x90000000 })] } }), false, 0, by decide +kernel, .inr (.inr ⟨3, by decide +kernel, by decide +kernel⟩)⟩
theorem wit_AddressesAndTimeOnTheLine_11 : ∃ (s : State) (t0 : Nat), nearerHead s ≠ 0 ∧ nearerHead s ≠ fld s WOT_STATUS.DATA_DIR ∧ (seenOf s (decide (nearerHead s = 1))).reach = some t0 :=
  ⟨(put [(WOT_STATUS.REACH_E, 1), (WOT_STATUS.DATA_DIR, 1)] { State.reset with wot := { east := { reach := some 7 } } }), 7, by decide +kernel⟩
theorem wit_StreamsAndAcknowledgements_0a : ∃ (s : State) (c : Fin 256) (rs : List (Word × Word)) (first : Nat), Settled s ∧ tget (fun _ => (([] : List (Word × Word)), 0)) s.wot.openFrames c = (rs, first) ∧ rs ≠ [] ∧ (61 ≤ rs.length ∨ first + flushLaps s ≤ s.bnd) :=
  ⟨({ State.reset with bnd := 10 ^ 8, wot := { openFrames := [(255, ([(1, 2)], 0))] } }), 255, [(1, 2)], 0, by unfold Settled; decide +kernel⟩
theorem wit_StreamsAndAcknowledgements_0b : ∃ (s : State) (c : Fin 256) (rs : List (Word × Word)) (first : Nat), Settled s ∧ tget (fun _ => (([] : List (Word × Word)), 0)) s.wot.openFrames c = (rs, first) ∧ rs ≠ [] ∧ (61 ≤ rs.length ∨ first + flushLaps s ≤ s.bnd) :=
  ⟨({ State.reset with wot := { openFrames := [(0, (List.replicate 61 (1, 2), 0))] } }), 0, List.replicate 61 (1, 2), 0, by unfold Settled; decide +kernel⟩
theorem wit_StreamsAndAcknowledgements_1 : ∃ (s : State) (pre : List Arrived) (rest : List Arrived) (a : Arrived), Settled s ∧ s.wot.inbox = pre ++ a :: rest ∧ (∀ b ∈ pre, 2 ≤ b.lane ∨ b.frame.type ≠ 3) ∧ a.frame.type = 3 ∧ a.lane < 2 :=
  ⟨({ State.reset with wot := { inbox := [({ lane := 1, stamp := 5, frame := ({ type := 3 } : LineFrame), bad := false } : Arrived)] } }), [], [], ({ lane := 1, stamp := 5, frame := ({ type := 3 } : LineFrame), bad := false } : Arrived), by unfold Settled; decide +kernel⟩
theorem wit_StreamsAndAcknowledgements_2a : ∃ (s : State) (l : Fin 2) (n : Nat) (k : Nat) (own : Nat) (f : LineFrame) (west : Bool), l.val = laneToward west ∧ (fld s WOT_STATUS.DATA_DIR = (if west then 1 else 2)) ∧ isHead s = false ∧ flag s ETH_GW_CFG.EN = false ∧ flag s TWN_CTRL.EN = false ∧ ownAddr s = some own ∧ onLine s l = true ∧ (vcOf s l 1).queue = [] ∧ nextStream s = some (n, k, f) ∧ f.vc = 1 :=
  ⟨(put [(LNK_LANEn_STATUS.STATE 1, 6), (WOT_CTRL.EN, 1), (WOT_STATUS.ADDR_VALID, 1), (WOT_STATUS.ADDR, 5), (WOT_STATUS.REACH_E, 1), (WOT_STATUS.DATA_DIR, 2), (RED_STATUS.BP_STAGE, 0), (DMC_STATUS.STATE, 2)] { State.reset with lanes := { lane := [(1, { taken := 0x90000000 })] }, wot := { spill := [(0, 0, ({ vc := 1, type := 3 } : LineFrame))] } }), 1, 0, 0, 5, ({ vc := 1, type := 3 } : LineFrame), false, by decide +kernel⟩
theorem wit_StreamsAndAcknowledgements_2b : ∃ (s : State) (l : Fin 2) (n : Nat) (k : Nat) (own : Nat) (f : LineFrame) (west : Bool), l.val = laneToward west ∧ (fld s WOT_STATUS.DATA_DIR = (if west then 1 else 2)) ∧ isHead s = false ∧ flag s ETH_GW_CFG.EN = false ∧ flag s TWN_CTRL.EN = false ∧ ownAddr s = some own ∧ onLine s l = true ∧ (vcOf s l 1).queue = [] ∧ nextStream s = some (n, k, f) ∧ f.vc = 1 ∧ fromBuffer n s = false ∧ mustWait s 1 ((rd s WOT_SPILL_BASE).toNat + k * 512) = true :=
  ⟨(put [(LNK_LANEn_STATUS.STATE 1, 6), (WOT_CTRL.EN, 1), (WOT_STATUS.ADDR_VALID, 1), (WOT_STATUS.ADDR, 5), (WOT_STATUS.REACH_E, 1), (WOT_STATUS.DATA_DIR, 2), (RED_STATUS.BP_STAGE, 2), (DMC_STATUS.STATE, 2)] { State.reset with lanes := { lane := [(1, { taken := 0x90000000 })] }, wot := { spill := [(0, 0, ({ vc := 1, type := 3 } : LineFrame))] } }), 1, 0, 0, 5, ({ vc := 1, type := 3 } : LineFrame), false, by decide +kernel⟩
theorem wit_StreamsAndAcknowledgements_3 : ∃ (s : State), Settled s ∧ s.wot.acked ≠ [] ∧ s.wot.acked.length ≤ 61 :=
  ⟨({ State.reset with wot := { acked := [(5, 7)] } }), by unfold Settled; decide +kernel⟩
theorem wit_StreamsAndAcknowledgements_4 : ∃ (s : State) (pre : List Arrived) (rest : List Arrived) (a : Arrived), Settled s ∧ s.wot.inbox = pre ++ a :: rest ∧ (∀ b ∈ pre, 2 ≤ b.lane ∨ b.frame.type ≠ 4) ∧ a.frame.type = 4 ∧ a.lane < 2 :=
  ⟨({ State.reset with wot := { inbox := [({ lane := 0, stamp := 5, frame := ({ type := 4 } : LineFrame), bad := false } : Arrived)] } }), [], [], ({ lane := 0, stamp := 5, frame := ({ type := 4 } : LineFrame), bad := false } : Arrived), by unfold Settled; decide +kernel⟩
theorem wit_GlobalOperations_0a : ∃ (s : State) (space : Fin 8) (dir : Fin 4) (cancel : Bool) (turn : Bool) (op : Nat) (c : Instr), (op, c) ∈ [(1, .gopTrigger space dir cancel turn), (2, .gopEvent space dir cancel turn), (3, .gopSnapshot space dir cancel turn), (4, .gopBarrier space dir cancel turn), (5, .gopReset space dir cancel turn)] ∧ Settled s :=
  ⟨State.reset, 1, 0, true, true, 1, .gopTrigger 1 0 true true, by unfold Settled; decide +kernel⟩
theorem wit_GlobalOperations_0b : ∃ (s : State) (space : Fin 8) (dir : Fin 4) (cancel : Bool) (turn : Bool) (op : Nat) (c : Instr), (op, c) ∈ [(1, .gopTrigger space dir cancel turn), (2, .gopEvent space dir cancel turn), (3, .gopSnapshot space dir cancel turn), (4, .gopBarrier space dir cancel turn), (5, .gopReset space dir cancel turn)] ∧ Settled s :=
  ⟨State.reset, 1, 0, true, true, 5, .gopReset 1 0 true true, by unfold Settled; decide +kernel⟩
theorem wit_GlobalOperations_1 : ∃ (s : State) (pre : List Arrived) (rest : List Arrived) (a : Arrived), s.wot.inbox = pre ++ a :: rest ∧ (∀ b ∈ pre, 2 ≤ b.lane ∨ b.frame.type ≠ 2) ∧ a.lane < 2 ∧ a.frame.type = 2 ∧ a.bad = false ∧ (a.frame.echo = true → some a.frame.src ≠ ownAddr s) ∧ a.frame.hops < 1023 ∧ (∀ l v, ∀ u ∈ (vcOf s l v).unacked, u.hole = none) ∧ (∀ l, ∀ d ∈ (linkOf s l).cut, d.bad = false) :=
  ⟨({ State.reset with wot := { inbox := [({ lane := 1, stamp := 5, frame := ({ type := 2, hops := 1022, src := 3 } : LineFrame), bad := false } : Arrived)] } }), [], [], ({ lane := 1, stamp := 5, frame := ({ type := 2, hops := 1022, src := 3 } : LineFrame), bad := false } : Arrived), rfl, by decide +kernel, by decide +kernel, by decide +kernel, by decide +kernel, by decide +kernel, by decide +kernel, fun l v u hu => absurd (show u ∈ ([] : List Unacked) from hu) (by simp), fun l d hd => absurd (show d ∈ ([] : List CutFrame) from hd) (by simp)⟩
theorem wit_GlobalOperations_2a : ∃ (s : State) (ofs : Nat) (g : Gop) (rest : List Gop) (c : Nat) (eff : Nat) (late : Bool), s.wot.gops = g :: rest ∧ s.tbs.sl.taken = [] ∧ g.taken = some (c, eff, late) ∧ (if g.op = 2 ∧ late = false then c ≤ nowD (atOfs ofs s) else eff ≤ s.bnd) ∧ Settled s :=
  ⟨({ State.reset with bnd := 3, wot := { gops := [⟨3, 1, 2, 0, 0, 7, 0, 0, false, some (7, 3, true)⟩] } }), 0, ⟨3, 1, 2, 0, 0, 7, 0, 0, false, some (7, 3, true)⟩, [], 7, 3, true, by unfold Settled; decide +kernel⟩
theorem wit_GlobalOperations_2b : ∃ (s : State) (ofs : Nat) (g : Gop) (rest : List Gop) (c : Nat) (eff : Nat) (late : Bool), s.wot.gops = g :: rest ∧ s.tbs.sl.taken = [] ∧ g.taken = some (c, eff, late) ∧ (if g.op = 2 ∧ late = false then c ≤ nowD (atOfs ofs s) else eff ≤ s.bnd) ∧ Settled s :=
  ⟨({ State.reset with bnd := 2, wot := { gops := [⟨3, 1, 2, 0, 0, 7, 0, 0, false, some (7, 3, false)⟩] } }), 8, ⟨3, 1, 2, 0, 0, 7, 0, 0, false, some (7, 3, false)⟩, [], 7, 3, false, by unfold Settled; decide +kernel⟩
theorem wit_GlobalOperations_3 : ∃ (s : State) (q : Nat × Nat) (rest : List (Nat × Nat)), s.wot.snaps = q :: rest ∧ q.2 ≤ s.bnd ∧ Settled s :=
  ⟨({ State.reset with bnd := 3, wot := { snaps := [(7, 3)] } }), (7, 3), [], by unfold Settled; decide +kernel⟩
theorem wit_GlobalOperations_4 : ∃ (s : State) (pre : List Arrived) (rest : List Arrived) (a : Arrived), s.wot.inbox = pre ++ a :: rest ∧ (∀ b ∈ pre, 2 ≤ b.lane ∨ b.frame.type ≠ 2 ∨ b.frame.echo = false) ∧ a.lane < 2 ∧ a.frame.type = 2 ∧ a.bad = false ∧ a.frame.echo = true ∧ some a.frame.src = ownAddr s ∧ Settled s :=
  ⟨(put [(WOT_STATUS.ADDR_VALID, 1), (WOT_STATUS.ADDR, 9)] { State.reset with wot := { inbox := [({ lane := 1, stamp := 5, frame := ({ type := 2, echo := true, src := 9 } : LineFrame), bad := false } : Arrived)] } }), [], [], ({ lane := 1, stamp := 5, frame := ({ type := 2, echo := true, src := 9 } : LineFrame), bad := false } : Arrived), by unfold Settled; decide +kernel⟩
theorem wit_GlobalOperations_5 : ∃ (s : State) (id : Nat) (at0 : Nat), s.wot.issued = some (id, at0) ∧ Settled s :=
  ⟨({ State.reset with wot := { issued := some (3, 9) } }), 3, 9, by unfold Settled; decide +kernel⟩
theorem wit_EthernetTimeAndGateway_0 : ∃ (s : State) (tail : Nat), tail < 1024 ∧ Settled s :=
  ⟨State.reset, 1023, by unfold Settled; decide +kernel⟩
theorem wit_EthernetTimeAndGateway_1 : ∃ (s : State), awake s = true :=
  ⟨State.reset, by decide +kernel⟩
theorem wit_EthernetTimeAndGateway_2a : ∃ (s : State) (m : Fin 2) (body : List Byte), Settled s ∧ awake s = true ∧ macOn s m = true ∧ 14 ≤ body.length ∧ body.length ≤ mtu s m + 14 ∧ numAt body 12 2 ≠ 0x8100 ∧ flag s (ETH_MACm_CFG.VLAN_EN m) = false :=
  ⟨(put [(LNK_LANEn_STATUS.STATE 3, 6), (ETH_MACm_CFG.EN 1, 1)] { State.reset with lanes := { lane := [(3, { taken := 0xA0000000 })] } }), 1, List.replicate 14 0, by unfold Settled; decide +kernel⟩
theorem wit_EthernetTimeAndGateway_2b : ∃ (s : State) (m : Fin 2) (body : List Byte), Settled s ∧ awake s = true ∧ macOn s m = true ∧ 14 ≤ body.length ∧ body.length ≤ mtu s m + 14 ∧ numAt body 12 2 ≠ 0x8100 ∧ flag s (ETH_MACm_CFG.VLAN_EN m) = false :=
  ⟨(put [(LNK_LANEn_STATUS.STATE 2, 6), (ETH_MACm_CFG.EN 0, 1)] { State.reset with lanes := { lane := [(2, { taken := 0xA0000000 })] } }), 0, List.replicate 590 0, by unfold Settled; decide +kernel⟩
theorem wit_EthernetTimeAndGateway_3 : ∃ (s : State) (d : Fin 2) (pre : List PtpMsg) (rest : List PtpMsg) (q : PtpMsg), s.eth.msgs = pre ++ q :: rest ∧ (∀ b ∈ pre, b.engine ≠ d.val ∨ ptpType b.data ≠ 0) ∧ q.engine = d.val ∧ ptpType q.data = 0 :=
  ⟨({ State.reset with eth := { msgs := [(⟨1, 5, 0 :: List.replicate 43 0⟩ : PtpMsg)] } }), 1, [], [], (⟨1, 5, 0 :: List.replicate 43 0⟩ : PtpMsg), by decide +kernel⟩
theorem wit_EthernetTimeAndGateway_4 : ∃ (s : State) (d : Fin 2) (pre : List PtpMsg) (rest : List PtpMsg) (q : PtpMsg), s.eth.msgs = pre ++ q :: rest ∧ (∀ b ∈ pre, b.engine ≠ d.val ∨ ptpType b.data ≠ 8) ∧ q.engine = d.val ∧ ptpType q.data = 8 :=
  ⟨({ State.reset with eth := { msgs := [(⟨1, 5, 8 :: List.replicate 43 0⟩ : PtpMsg)] } }), 1, [], [], (⟨1, 5, 8 :: List.replicate 43 0⟩ : PtpMsg), by decide +kernel⟩
theorem wit_EthernetTimeAndGateway_5 : ∃ (s : State) (d : Fin 2) (ofs : Nat) (seq : Nat) (t2 : Nat) (at0 : Nat) (c : Int), (ptpOf s d).waiting = some (seq, t2, c, at0) ∧ at0 + nsec 1000000000 ≤ clk (atOfs ofs s) :=
  ⟨({ State.reset with bnd := 1024 * 1001, eth := { ptp := [(1, { waiting := some (4, 9, 0, 0) })] } }), 1, 0, 4, 9, 0, 0, by decide +kernel⟩
theorem wit_EthernetTimeAndGateway_6 : ∃ (s : State) (d : Fin 2) (ofs : Nat), awake s = true ∧ flag s (ETH_PTPd_CFG.EN d) = true ∧ macOn s (fld s (ETH_PTPd_CFG.MAC d)) = true ∧ (ptpOf s d).reqAt = 0 ∨ (ptpOf s d).reqAt - 1 + reqInterval s d ≤ clk (atOfs ofs s) :=
  ⟨(put [(LNK_LANEn_STATUS.STATE 2, 6), (ETH_MACm_CFG.EN 0, 1), (ETH_PTPd_CFG.EN 0, 1)] { State.reset with lanes := { lane := [(2, { taken := 0xA0000000 })] } }), 0, 0, by decide +kernel⟩
theorem wit_EthernetTimeAndGateway_7a : ∃ (s : State) (d : Fin 2) (pre : List PtpMsg) (rest : List PtpMsg) (q : PtpMsg) (seq : Nat) (sent : Nat), s.eth.msgs = pre ++ q :: rest ∧ (∀ b ∈ pre, b.engine ≠ d.val ∨ ptpType b.data ∉ [3, 9, 10]) ∧ q.engine = d.val ∧ ptpType q.data ∈ [3, 9, 10] ∧ (ptpOf s d).flight = some (seq, sent) :=
  ⟨({ State.reset with eth := { msgs := [(⟨1, 5, 9 :: List.replicate 43 0⟩ : PtpMsg)], ptp := [(1, { flight := some (4, 9) })] } }), 1, [], [], (⟨1, 5, 9 :: List.replicate 43 0⟩ : PtpMsg), 4, 9, by decide +kernel⟩
theorem wit_EthernetTimeAndGateway_7b : ∃ (s : State) (d : Fin 2) (pre : List PtpMsg) (rest : List PtpMsg) (q : PtpMsg) (seq : Nat) (sent : Nat), s.eth.msgs = pre ++ q :: rest ∧ (∀ b ∈ pre, b.engine ≠ d.val ∨ ptpType b.data ∉ [3, 9, 10]) ∧ q.engine = d.val ∧ ptpType q.data ∈ [3, 9, 10] ∧ (ptpOf s d).flight = some (seq, sent) :=
  ⟨({ State.reset with eth := { msgs := [(⟨0, 5, 3 :: List.replicate 43 0⟩ : PtpMsg)], ptp := [(0, { flight := some (4, 9) })] } }), 0, [], [], (⟨0, 5, 3 :: List.replicate 43 0⟩ : PtpMsg), 4, 9, by decide +kernel⟩
theorem wit_EthernetTimeAndGateway_9 : ∃ (s : State) (m : Nat) (i : Nat), awake s = true ∧ gwPath s = some (m, i) ∧ s.out.frames = [] ∧ s.wot.spill = [] :=
  ⟨(put [(LNK_LANEn_STATUS.STATE 3, 6), (ETH_MACm_CFG.EN 1, 1), (ETH_GW_CFG.EN, 1), (ETH_GW_CFG.MAC, 1)] { State.reset with lanes := { lane := [(3, { taken := 0xA0000000 })] } }), 1, 0, by decide +kernel⟩
theorem wit_EthernetTimeAndGateway_10 : ∃ (s : State) (pre : List (List Byte)) (rest : List (List Byte)) (b : List Byte) (q : Nat × Nat), s.eth.datagrams = pre ++ b :: rest ∧ (∀ c ∈ pre, numAt c 0 1 % 16 ≠ 1) ∧ numAt b 0 1 % 16 = 1 ∧ ackEntries (b.drop 8) (min (numAt b 1 1) ((b.length - 8) / 8)) = [q] :=
  ⟨({ State.reset with eth := { datagrams := [([0x11, 1, 0, 0, 0, 0, 0, 0, 5, 0, 0, 0, 9, 0, 0, 0] : List Byte)] } }), [], [], ([0x11, 1, 0, 0, 0, 0, 0, 0, 5, 0, 0, 0, 9, 0, 0, 0] : List Byte), (5, 9), by decide +kernel⟩
theorem wit_EthernetTimeAndGateway_11 : ∃ (s : State) (pre : List (List Byte)) (rest : List (List Byte)) (b : List Byte) (bs : List Byte), s.eth.datagrams = pre ++ b :: rest ∧ (∀ c ∈ pre, numAt c 0 1 % 16 ≠ 2) ∧ numAt b 0 1 % 16 = 2 ∧ splitFrames (numAt b 1 1) (b.drop 8) = [bs] :=
  ⟨({ State.reset with eth := { datagrams := [(0x12 :: 1 :: List.replicate 26 0 : List Byte)] } }), [], [], (0x12 :: 1 :: List.replicate 26 0 : List Byte), List.replicate 20 0, by decide +kernel⟩
theorem wit_EthernetTimeAndGateway_12 : ∃ (s : State) (k : Fin 2), Settled s ∧ s.accepted.find? (fun p => decide (p.1 = ETH_SFPk_CMD k)) = none :=
  ⟨State.reset, 1, by unfold Settled; decide +kernel⟩
theorem wit_EthernetTimeAndGateway_13 : ∃ (s : State) (k : Fin 2), Settled s ∧ s.accepted.find? (fun p => decide (p.1 = ETH_SFPk_CMD k)) = none :=
  ⟨State.reset, 1, by unfold Settled; decide +kernel⟩
theorem wit_DramController_2 : ∃ (s : State) (ra : BitVec 8) (wa : BitVec 8) (rb : BitVec 8) (wb : BitVec 8), dmcState s = 1 ∧ 64 ≤ ra.toNat ∧ 64 ≤ wa.toNat ∧ 64 ≤ rb.toNat ∧ 64 ≤ wb.toNat :=
  ⟨(put [(DMC_STATUS.STATE, 1)] State.reset), 64, 64, 64, 255, by decide +kernel⟩
theorem wit_DramController_3 : ∃ (s : State) (step : Fin 9), dmcState s = 1 ∧ 0 < step.val ∧ stepReached s step = true :=
  ⟨(put [(DMC_STATUS.STATE, 1)] State.reset), 8, by decide +kernel⟩
theorem wit_DramController_4a : ∃ (s : State) (c : Instr) (op : Nat), (c, op) ∈ [(.srEnter, 3), (.srEnterPasr, 4)] ∧ Settled s :=
  ⟨State.reset, .srEnter, 3, by unfold Settled; decide +kernel⟩
theorem wit_DramController_4b : ∃ (s : State) (c : Instr) (op : Nat), (c, op) ∈ [(.srEnter, 3), (.srEnterPasr, 4)] ∧ Settled s :=
  ⟨(put [(DMC_STATUS.STATE, 2)] State.reset), .srEnterPasr, 4, by unfold Settled; decide +kernel⟩
theorem wit_DramController_5 : ∃ (s : State), dmcState s = 3 ∧ s.dmc.aborting = false ∧ s.dmc.queue = [] ∧ s.dmc.port = [] :=
  ⟨(put [(DMC_STATUS.STATE, 3)] State.reset), by decide +kernel⟩
theorem wit_DramController_11 : ∃ (s : State) (ofs : Nat), dmcState s = 2 ∧ s.dmc.pollAt + nsec 32000000 ≤ clk (atOfs ofs s) :=
  ⟨(put [(DMC_STATUS.STATE, 2)] { State.reset with bnd := 1024 * 33 }), 0, by decide +kernel⟩
theorem wit_DramController_12 : ∃ (s : State), Settled s ∧ dmcState s = 2 ∧ s.dmc.latent = [] ∧ waiting s = [] :=
  ⟨(put [(DMC_STATUS.STATE, 2)] State.reset), by unfold Settled; decide +kernel⟩
theorem wit_TwinPair_0 : ∃ (s : State), Settled s ∧ flag s TWN_CTRL.EN = false ∧ peerValid s = false :=
  ⟨State.reset, by unfold Settled; decide +kernel⟩
theorem wit_TwinPair_1 : ∃ (s : State), Settled s ∧ flag s TWN_CTRL.EN = true :=
  ⟨(put [(TWN_CTRL.EN, 1)] State.reset), by unfold Settled; decide +kernel⟩
theorem wit_TwinPair_2 : ∃ (s : State), twnState s = 1 ∧ Settled s :=
  ⟨(put [(TWN_STATUS.STATE, 1)] State.reset), by unfold Settled; decide +kernel⟩
theorem wit_TwinPair_4 : ∃ (s : State) (d : DataLap) (e : EdgeData) (rest : List DataLap), s.twin.own = d :: rest ∧ mirrors s d.lap = true ∧ s.twin.sentLap ≠ d.lap + 1 ∧ s.twin.edge.find? (fun e => decide (e.lap = d.lap)) = some e ∧ linkUp s 2 = true :=
  ⟨(put [(TWN_STATUS.STATE, 2), (LNK_LANEn_STATUS.STATE 2, 6), (TWN_STATUS.PEER_VALID, 1), (TWN_STATUS.PEER_STATE, 4)] { State.reset with twin := { own := [{ lap := 9 }], edge := [{ lap := 9 }] }, lanes := { lane := [(2, { taken := 0x90000000 })] } }), { lap := 9 }, { lap := 9 }, [], by decide +kernel⟩
theorem wit_TwinPair_5 : ∃ (s : State) (pre : List Arrived) (rest : List Arrived) (a : Arrived), s.wot.inbox = pre ++ a :: rest ∧ (∀ b ∈ pre, b.lane ≠ 2 ∨ b.frame.type ≠ 11) ∧ a.lane = 2 ∧ a.frame.type = 11 :=
  ⟨({ State.reset with wot := { inbox := [({ lane := 2, stamp := 5, frame := ({ type := 11 } : LineFrame), bad := false } : Arrived)] } }), [], [], ({ lane := 2, stamp := 5, frame := ({ type := 11 } : LineFrame), bad := false } : Arrived), by decide +kernel⟩
theorem wit_TwinPair_6 : ∃ (s : State) (ofs : Nat) (f : Nat), (twnState s = 3 ∨ twnState s = 4) ∧ (fromMirror s (lapD s) = true ∨ s.twin.missed ≠ none) ∧ s.twin.mirrorFrom = some f ∧ f ≤ lapD s ∧ s.twin.hold = 0 ∧ s.twin.lateLap ≤ lapD s ∧ 900 * unitsPerNs ≤ (atOfs ofs s).tbs.pacer.ofs ∧ mirrorLap s (lapD s) = none :=
  ⟨(put [(TWN_STATUS.STATE, 4)] { State.reset with tbs := { pacer := { time := 9 * lapUnits } }, twin := { mirrored := true, mirrorFrom := some 3 } }), 900 * 65536, 3, by decide +kernel⟩
theorem wit_TwinPair_7 : ∃ (s : State) (k : Fin 386) (j : Nat), twnState s = 2 ∧ s.twin.join = some j ∧ s.twin.piece = k.val ∧ j + pieceAt k ≤ lapD s ∧ peerState s = 3 ∧ linkUp s 2 = true :=
  ⟨(put [(TWN_STATUS.STATE, 2), (LNK_LANEn_STATUS.STATE 2, 6), (TWN_STATUS.PEER_STATE, 3)] { State.reset with twin := { join := some 0 }, tbs := { pacer := { time := 9000 * lapUnits } }, lanes := { lane := [(2, { taken := 0x90000000 })] } }), 0, 0, by decide +kernel⟩
theorem wit_TwinPair_8 : ∃ (s : State) (k : Fin 386), twnState s = 3 ∧ s.twin.piece = k.val :=
  ⟨(put [(TWN_STATUS.STATE, 3)] { State.reset with twin := { piece := 385 } }), 385, by decide +kernel⟩
theorem wit_TwinPair_9 : ∃ (s : State) (l : Nat), twnState s = 3 ∧ s.twin.warmEnd = some l ∧ Settled s :=
  ⟨(put [(TWN_STATUS.STATE, 3)] { State.reset with twin := { warmEnd := some 3 } }), 3, by unfold Settled; decide +kernel⟩
theorem wit_TwinPair_10 : ∃ (s : State), twnState s ≠ 0 ∧ s.twin.digestAt ≠ s.bnd + 1 ∧ (digestNow s ≠ [] ∨ lapD s % 64 = 0) ∧ linkUp s 2 = true :=
  ⟨(put [(TWN_STATUS.STATE, 4), (LNK_LANEn_STATUS.STATE 2, 6)] { State.reset with lanes := { lane := [(2, { taken := 0x90000000 })] } }), by decide +kernel⟩
theorem wit_TwinPair_11 : ∃ (s : State) (pre : List Arrived) (rest : List Arrived) (a : Arrived), Settled s ∧ s.wot.inbox = pre ++ a :: rest ∧ (∀ b ∈ pre, b.lane ≠ 2 ∨ b.frame.type ≠ 13) ∧ a.lane = 2 ∧ a.frame.type = 13 :=
  ⟨({ State.reset with wot := { inbox := [({ lane := 2, stamp := 5, frame := ({ type := 13 } : LineFrame), bad := false } : Arrived)] } }), [], [], ({ lane := 2, stamp := 5, frame := ({ type := 13 } : LineFrame), bad := false } : Arrived), by unfold Settled; decide +kernel⟩
theorem wit_TwinPair_12 : ∃ (s : State) (p : Nat) (k : Nat), s.twin.policy = some (p, k) ∧ p ≤ lapD s :=
  ⟨({ State.reset with twin := { policy := some (0, 2) } }), 0, 2, by decide +kernel⟩
theorem wit_TwinPair_16 : ∃ (b : Nat), b < 16 :=
  ⟨15, by decide +kernel⟩
theorem wit_TwinPair_18 : ∃ (s : State) (w : Swap), s.twin.swap = some w ∧ Settled s :=
  ⟨({ State.reset with twin := { swap := some { h := 0, mine := true, acked := false } } }), { h := 0, mine := true, acked := false }, by unfold Settled; decide +kernel⟩
theorem wit_TwinPair_19 : ∃ (s : State) (w : Swap), s.twin.swap = some w ∧ w.acked = true ∧ w.h ≤ lapD s :=
  ⟨({ State.reset with twin := { swap := some { h := 0, mine := true, acked := true } } }), { h := 0, mine := true, acked := true }, by decide +kernel⟩
theorem wit_TwinPair_20 : ∃ (s : State) (b : Nat), s.twin.takeDue = some b ∧ b < s.bnd ∧ (twnState s ≠ 1 ∨ rateLow s = false) :=
  ⟨({ State.reset with twin := { takeDue := some 1 }, bnd := 2 }), 1, by decide +kernel⟩
theorem wit_TwinPair_25 : ∃ (s : State), flag s TWN_XCHK_CFG.EN = true ∧ s.twin.mirrored = true ∧ lapD s % 1024 = 0 ∧ (∀ q ∈ s.twin.xchk, q.1 < 256) :=
  ⟨(put [(TWN_XCHK_CFG.EN, 1)] { State.reset with twin := { mirrored := true, xchk := [(255, (4, 5))] } }), by decide +kernel⟩
theorem wit_HealthServiceAndTestPort_2 : ∃ (s : State), awake s = true ∧ s.hlt.tempAt ≤ tick s :=
  ⟨State.reset, by decide +kernel⟩
theorem wit_HealthServiceAndTestPort_3 : ∃ (s : State), awake s = true ∧ s.hlt.supAt ≤ tick s :=
  ⟨State.reset, by decide +kernel⟩
theorem wit_HealthServiceAndTestPort_6 : ∃ (s : State) (ofs : Nat), awake s = true ∧ flag s SVC_BTN.PRESSED = true ∧ s.svc.heldDone = false ∧ s.svc.pressAt ≠ 0 ∧ s.svc.pressAt + nsec 2000000000 ≤ clk (atOfs ofs s) + 1 :=
  ⟨(put [(SVC_BTN.PRESSED, 1)] { State.reset with svc := { pressAt := 1 }, bnd := 1024 * 2001 }), 0, by decide +kernel⟩
theorem wit_HealthServiceAndTestPort_8 : ∃ (s : State) (ofs : Nat), awake s = true ∧ s.svc.refusedAt ≠ 0 ∧ s.svc.refusedAt + nsec 5000000000 ≤ clk (atOfs ofs s) + 1 :=
  ⟨({ State.reset with svc := { refusedAt := 1 }, bnd := 1024 * 5001 }), 0, by decide +kernel⟩
theorem wit_PowerResetsBootAndLedger_1 : ∃ (s : State), powerOp s = 1 ∧ powerState s = 0 :=
  ⟨({ State.reset with accepted := [(TOP_PWR_CMD, ⟨0, 0, 0, 1⟩)] }), by decide +kernel⟩
theorem wit_PowerResetsBootAndLedger_2 : ∃ (s : State) (ofs : Nat), powerOp s = 1 ∧ s.pwr.runAt + nsec 10000000 ≤ clk (atOfs ofs s) :=
  ⟨({ State.reset with accepted := [(TOP_PWR_CMD, ⟨0, 0, 0, 1⟩)], bnd := 1024 * 11 }), 0, by decide +kernel⟩
theorem wit_PowerResetsBootAndLedger_4a : ∃ (s : State) (c : Instr) (op : Nat) (dmc : List Nat), (c, op, dmc) ∈ [(.pwrRest, 3, [0, 4]), (.pwrShelve, 4, [0, 5])] ∧ Settled s :=
  ⟨State.reset, .pwrRest, 3, [0, 4], by unfold Settled; decide +kernel⟩
theorem wit_PowerResetsBootAndLedger_4b : ∃ (s : State) (c : Instr) (op : Nat) (dmc : List Nat), (c, op, dmc) ∈ [(.pwrRest, 3, [0, 4]), (.pwrShelve, 4, [0, 5])] ∧ Settled s :=
  ⟨State.reset, .pwrShelve, 4, [0, 5], by unfold Settled; decide +kernel⟩
theorem wit_PowerResetsBootAndLedger_5 : ∃ (s : State) (wakeN : Bool) (btn : Bool) (spi : Bool) (lanes : BitVec 4), powerState s = 2 ∧ s.pwr.held = false ∧ wakeBits wakeN btn spi lanes.toNat s ≠ 0 :=
  ⟨(put [(TOP_PWR_STATUS.STATE, 2), (⟨TOP_WAKE_CFG, 31, 1⟩, 1)] State.reset), true, false, false, 0, by decide +kernel⟩
theorem wit_PowerResetsBootAndLedger_6 : ∃ (s : State) (wakeN : Bool) (btn : Bool), powerState s = 3 ∧ s.pwr.railEn = false ∧ wakeBits wakeN btn false 0 s ≠ 0 :=
  ⟨(put [(TOP_PWR_STATUS.STATE, 3), (⟨TOP_WAKE_CFG, 30, 1⟩, 1)] { State.reset with pwr := { railEn := false } }), false, true, by decide +kernel⟩
theorem wit_PowerResetsBootAndLedger_7 : ∃ (s : State) (ofs : Nat), rd s TOP_AON_TIMER = 1 ∧ oneSecond ≤ s.pwr.aonPart + (atOfs ofs s).tbs.pacer.ofs :=
  ⟨(put [(⟨TOP_AON_TIMER, 0, 32⟩, 1)] { State.reset with pwr := { aonPart := oneSecond } }), 0, by decide +kernel⟩
theorem wit_PowerResetsBootAndLedger_9 : ∃ (s : State), s.pwr.por = true :=
  ⟨({ State.reset with pwr := { por := true } }), by decide +kernel⟩
theorem wit_PowerResetsBootAndLedger_10a : ∃ (s : State) (c : Instr) (b : Nat), (c, b) ∈ [(.porstN, 1), (.hubResetCmd 0xB7, 2)] ∧ powerState s ≠ 3 ∧ (b = 1 ∨ awake s = true) :=
  ⟨State.reset, .porstN, 1, by decide +kernel⟩
theorem wit_PowerResetsBootAndLedger_10b : ∃ (s : State) (c : Instr) (b : Nat), (c, b) ∈ [(.porstN, 1), (.hubResetCmd 0xB7, 2)] ∧ powerState s ≠ 3 ∧ (b = 1 ∨ awake s = true) :=
  ⟨State.reset, .hubResetCmd 0xB7, 2, by decide +kernel⟩
theorem wit_PowerResetsBootAndLedger_11 : ∃ (s : State), powerState s = 3 :=
  ⟨(put [(TOP_PWR_STATUS.STATE, 3)] State.reset), by decide +kernel⟩
theorem wit_PowerResetsBootAndLedger_12 : ∃ (s : State) (key : BitVec 8), Settled s ∧ key ≠ 0xB7 :=
  ⟨State.reset, 0xB6, by unfold Settled; decide +kernel⟩
theorem wit_PowerResetsBootAndLedger_13 : ∃ (s : State), awake s = true :=
  ⟨State.reset, by decide +kernel⟩
theorem wit_PowerResetsBootAndLedger_15 : ∃ (s : State) (ofs : Nat), awake s = true ∧ flag s TOP_WDOG.EN = true ∧ s.pwr.wdogAt + nsec (1000000 * max 1 (fld s TOP_WDOG.TIMEOUT)) ≤ clk (atOfs ofs s) :=
  ⟨(put [(TOP_WDOG.EN, 1), (TOP_WDOG.TIMEOUT, 5)] { State.reset with bnd := 1024 * 6 }), 0, by decide +kernel⟩
theorem wit_PowerResetsBootAndLedger_17 : ∃ (s : State), powerState s ≠ 3 :=
  ⟨State.reset, by decide +kernel⟩
theorem wit_PowerResetsBootAndLedger_18 : ∃ (s : State), bootTrying s = true ∧ (bootOf s).left.getD 0 0 ≠ 3 :=
  ⟨State.reset, by decide +kernel⟩
theorem wit_PowerResetsBootAndLedger_19 : ∃ (s : State), (bootOf s).on = true ∧ (bootOf s).ready ≠ [] ∧ awake s = true :=
  ⟨({ State.reset with pwr := { boot := { ready := [1] } } }), by decide +kernel⟩
theorem wit_PowerResetsBootAndLedger_20 : ∃ (s : State) (ofs : Nat), (bootOf s).on = true ∧ (bootOf s).failedAt ≠ 0 ∧ (bootOf s).failedAt + nsec 10000000000 ≤ clk (atOfs ofs s) + 1 :=
  ⟨({ State.reset with pwr := { boot := { failedAt := 1 } }, bnd := 1024 * 10001 }), 0, by decide +kernel⟩
theorem wit_PowerResetsBootAndLedger_21 : ∃ (s : State) (pre : List Arrived) (rest : List Arrived) (a : Arrived) (o : Nat) (total : Nat) (d : List Byte), bootTrying s = true ∧ s.wot.inbox = pre ++ a :: rest ∧ (∀ b ∈ pre, b.bad = true ∨ isBootData s b.frame = false) ∧ a.bad = false ∧ isBootData s a.frame = true ∧ a.frame.payload = bytesLE 4 o ++ bytesLE 4 total ++ d ∧ o < 2 ^ 32 ∧ total < 2 ^ 32 ∧ d ≠ [] ∧ bootHas (bootOf s) o = false ∧ (bootOf s).asked ≠ 0 :=
  ⟨(put [(WOT_STATUS.ADDR_VALID, 1), (WOT_STATUS.ADDR, 9)] { State.reset with pwr := { boot := { left := [3], asked := 1 } }, wot := { inbox := [({ lane := 0, stamp := 5, frame := ({ type := 5, aux := 0xFF02, dst := 9, payload := [0, 0, 0, 0, 2, 0, 0, 0, 7, 8] } : LineFrame), bad := false } : Arrived)] } }), [], [], ({ lane := 0, stamp := 5, frame := ({ type := 5, aux := 0xFF02, dst := 9, payload := [0, 0, 0, 0, 2, 0, 0, 0, 7, 8] } : LineFrame), bad := false } : Arrived), 0, 2, [7, 8], by decide +kernel⟩
theorem wit_PowerResetsBootAndLedger_22 : ∃ (s : State) (ofs : Nat), bootTrying s = true ∧ (bootOf s).left.getD 0 0 = 3 ∧ (bootOf s).asked ≠ 0 ∧ (bootOf s).since + nsec 200000000 ≤ clk (atOfs ofs s) :=
  ⟨({ State.reset with bnd := 1024 * 201, pwr := { boot := { left := [3], asked := 1 } } }), 0, by decide +kernel⟩
theorem wit_PowerResetsBootAndLedger_23a : ∃ (s : State) (at1 : Option Nat) (c : Instr) (w : Bool) (bad : Option Nat), (c, w, bad) ∈ [(.ldgRead, false, none), (.ldgWrite at1, true, at1)] ∧ Settled s :=
  ⟨State.reset, some 5, .ldgWrite (some 5), true, some 5, by unfold Settled; decide +kernel⟩
theorem wit_PowerResetsBootAndLedger_23b : ∃ (s : State) (at1 : Option Nat) (c : Instr) (w : Bool) (bad : Option Nat), (c, w, bad) ∈ [(.ldgRead, false, none), (.ldgWrite at1, true, at1)] ∧ Settled s :=
  ⟨State.reset, none, .ldgRead, false, none, by unfold Settled; decide +kernel⟩
theorem wit_PowerResetsBootAndLedger_24 : ∃ (s : State) (ofs : Nat), awake s = true ∧ flag s LDG_CTRL.HOURS_EN = true ∧ s.pwr.hoursSlot < 64 ∧ s.pwr.hoursAt + nsec 360000000000 ≤ clk (atOfs ofs s) :=
  ⟨(put [(LDG_CTRL.HOURS_EN, 1)] { State.reset with bnd := 1024 * 360001 }), 0, by decide +kernel⟩

/-- QueueIsFirstInFirstOut: a command that answers a next state, and a step that does. -/
theorem wit_QueueIsFirstInFirstOut_0 : ∃ (c : Instr) (s t : State), exec c s = .next t :=
  ⟨.lapBoundary { }, State.reset, _, eq_nextOf (by decide +kernel)⟩
theorem wit_QueueIsFirstInFirstOut_1 : ∃ (s t : State), step s = .next t :=
  ⟨State.reset.push (.lapBoundary { }), _, eq_nextOf (by decide +kernel)⟩
theorem wit_EveryStepKeepsTheInvariant_0 : ∃ (s t : State), Machine.Inv s ∧ step s = .next t :=
  ⟨State.reset.push (.lapBoundary { }), _, by unfold Machine.Inv Settled StoresWf; decide +kernel, eq_nextOf (by decide +kernel)⟩
theorem wit_CommandsTouchOnlyTheirParts_0 : ∃ (c : Instr) (s t : State) (k : Comp), exec c s = .next t ∧ k ∉ touches c :=
  ⟨.lapBoundary { }, State.reset, _, .jtag, eq_nextOf (by decide +kernel), by decide +kernel⟩

end Sys2Proof.Tests
end

namespace Sys2Proof.Machine
open Sys2Proof

/-- Settles O1: `step` is that match on the queue. -/
theorem stepTakesTheFront : Obligations.StepTakesTheFront := by
  intro c rest s hs
  unfold step
  rw [hs]

/-- Settles O4: nothing is listed after reset, and every register reads its reset word. -/
theorem resetKeepsInvariant : Obligations.ResetKeepsInvariant := by
  refine ⟨⟨⟨rfl, rfl, rfl⟩, rfl⟩, rfl, rfl, rfl, ?_⟩
  show fget (resetWord TBS_PACER_STATUS) 0 3 = 0
  decide +kernel

/-- A line time lies in lap `n` exactly when it lies between the starts of laps `n` and `n + 1` (R13). -/
theorem lapOf_eq_iff (n t : Nat) : lapOf t = n ↔ n * lapUnits ≤ t ∧ t < (n + 1) * lapUnits := by
  unfold lapOf
  rw [Nat.div_eq_iff (by decide : 0 < lapUnits)]
  unfold lapUnits
  omega

theorem lapOf_lapStart (n : Nat) : lapOf (lapStart n) = n :=
  Nat.mul_div_cancel n (by decide)

theorem lapOf_lt_of_lt_lapStart {n t : Nat} (h : t < lapStart n) : lapOf t < n :=
  Nat.div_lt_of_lt_mul (by rwa [Nat.mul_comm])

/-- Settles O8: the lap of a time is the one that holds it (`lapOf_eq_iff`). -/
theorem lapCountOfLineTime : Obligations.LapCountOfLineTime := by
  refine ⟨fun s => ⟨by decide, (lapOf_eq_iff (lap s) _).mp rfl⟩, fun t => ?_, lapOf_eq_iff,
    fun n => ⟨lapOf_lapStart n, fun t => lapOf_lt_of_lt_lapStart⟩⟩
  unfold lapOf lapUnits
  omega

/-- The signed difference is the difference modulo 2^48, in the range of a signed 48-bit number (R16). -/
theorem sdiff48_spec (b a : Int) : -(2 : Int) ^ 47 ≤ sdiff48 b a ∧ sdiff48 b a < 2 ^ 47 ∧ (sdiff48 b a - (b - a)) % 2 ^ 48 = 0 := by
  unfold sdiff48
  dsimp only
  split <;> omega

/-- Settles O9: the short stamp by definition, the difference by `sdiff48_spec`. -/
theorem shortStampAndSignedDifference : Obligations.ShortStampAndSignedDifference :=
  ⟨fun _ => rfl, fun b a => sdiff48_spec b a, by decide⟩

end Sys2Proof.Machine

namespace Sys2Proof.Machine
open Sys2Proof

/-- The parts that a command may touch, as a test. -/
def mayTouch (c : Instr) (k : Comp) : Bool := decide (k ∈ touches c)

/-- What every command does where it answers a next state: it keeps the queue, the canonical form of the stores and every part that
`touches` does not name for it, and it leaves no event to be posted. One arm per command, each citing the two lemmas about its meaning. -/
theorem exec_keeps (c : Instr) (s : State) : OkO (mayTouch c) s (exec c s) ∧ SettledO (exec c s) := by
  -- by `assumption` it closes each side condition `mayTouch c k = true`, which evaluates to it
  have named : true = true := rfl
  cases c with
  | registerWrite => exact ⟨execRegisterWrite_ok .start, execRegisterWrite_settled⟩
  | rcRead => exact ⟨execRcRead_ok .start, execRcRead_settled⟩
  | latchingRead => exact ⟨execLatchingRead_ok .start, execLatchingRead_settled⟩
  | resultRegisterRead => exact ⟨execResultRegisterRead_ok .start, execResultRegisterRead_settled⟩
  | lapBoundary => exact ⟨execLapBoundary_ok .start, execLapBoundary_settled⟩
  | excReversal => exact ⟨execExcReversal_ok .start, execExcReversal_settled⟩
  | excBlankEnd => exact ⟨execExcBlankEnd_ok .start, execExcBlankEnd_settled⟩
  | pacerEnable => exact ⟨execPacerEnable_ok .start, execPacerEnable_settled⟩
  | pacerSourceMeasurement => exact ⟨execPacerSourceMeasurement_ok .start, execPacerSourceMeasurement_settled⟩
  | pacerStep => exact ⟨execPacerStep_ok .start, execPacerStep_settled⟩
  | pacerSrcLost => exact ⟨execPacerSrcLost_ok .start, execPacerSrcLost_settled⟩
  | pacerSrcSwitch => exact ⟨execPacerSrcSwitch_ok .start, execPacerSrcSwitch_settled⟩
  | slewDone => exact ⟨execSlewDone_ok .start, execSlewDone_settled⟩
  | setTime => exact ⟨execSetTime_ok .start, execSetTime_settled⟩
  | pacerAcquire => exact ⟨execPacerAcquire_ok .start, execPacerAcquire_settled⟩
  | pacerSwitch => exact ⟨execPacerSwitch_ok .start, execPacerSwitch_settled⟩
  | tallyEnable => exact ⟨execTallyEnable_ok .start, execTallyEnable_settled⟩
  | encoderEdge => exact ⟨execEncoderEdge_ok .start, execEncoderEdge_settled⟩
  | tallyZ => exact ⟨execTallyZ_ok .start, execTallyZ_settled⟩
  | tallyPresetApply => exact ⟨execTallyPresetApply_ok .start, execTallyPresetApply_settled⟩
  | preset => exact ⟨execPreset_ok .start, execPreset_settled⟩
  | tallyBroadcast => exact ⟨execTallyBroadcast_ok .start, execTallyBroadcast_settled⟩
  | tallyFrameReceive => exact ⟨execTallyFrameReceive_ok .start, execTallyFrameReceive_settled⟩
  | tallyCoasting => exact ⟨execTallyCoasting_ok .start, execTallyCoasting_settled⟩
  | tallyLost => exact ⟨execTallyLost_ok .start, execTallyLost_settled⟩
  | mainsEnable => exact ⟨execMainsEnable_ok .start, execMainsEnable_settled⟩
  | mainsCrossing => exact ⟨execMainsCrossing_ok .start, execMainsCrossing_settled⟩
  | mainsLost => exact ⟨execMainsLost_ok .start, execMainsLost_settled⟩
  | startListEnable => exact ⟨execStartListEnable_ok .start, execStartListEnable_settled⟩
  | slEntryEnable => exact ⟨execSlEntryEnable_ok .start, execSlEntryEnable_settled⟩
  | slEntryDisable => exact ⟨execSlEntryDisable_ok .start, execSlEntryDisable_settled⟩
  | slEntryRewrite => exact ⟨execSlEntryRewrite_ok .start, execSlEntryRewrite_settled⟩
  | disableSpace => exact ⟨execDisableSpace_ok .start, execDisableSpace_settled⟩
  | disableAll => exact ⟨execDisableAll_ok .start, execDisableAll_settled⟩
  | slTake => exact ⟨execSlTake_ok .start, execSlTake_settled⟩
  | slActionEffect => exact ⟨execSlActionEffect_ok .start, execSlActionEffect_settled⟩
  | trigOutPulseEnd => exact ⟨execTrigOutPulseEnd_ok .start, execTrigOutPulseEnd_settled⟩
  | excApply => exact ⟨execExcApply_ok .start, execExcApply_settled⟩
  | excRampEnd => exact ⟨execExcRampEnd_ok .start, execExcRampEnd_settled⟩
  | excSettleEnd => exact ⟨execExcSettleEnd_ok .start, execExcSettleEnd_settled⟩
  | afeExcLimit => exact ⟨execAfeExcLimit_ok .start, execAfeExcLimit_settled⟩
  | afeExcTrip => exact ⟨execAfeExcTrip_ok .start, execAfeExcTrip_settled⟩
  | resetTrip => exact ⟨execResetTrip_ok .start, execResetTrip_settled⟩
  | afeSnsFault => exact ⟨execAfeSnsFault_ok .start, execAfeSnsFault_settled⟩
  | snsFaultClear => exact ⟨execSnsFaultClear_ok .start, execSnsFaultClear_settled⟩
  | ttempUpdate => exact ⟨execTtempUpdate_ok .start, execTtempUpdate_settled⟩
  | openSet => exact ⟨execOpenSet_ok .start, execOpenSet_settled⟩
  | openClear => exact ⟨execOpenClear_ok .start, execOpenClear_settled⟩
  | cmwinWrite => exact ⟨execCmwinWrite_ok .start, execCmwinWrite_settled⟩
  | plugDetEdge => exact ⟨execPlugDetEdge_ok .start, execPlugDetEdge_settled⟩
  | afePlugOut => exact ⟨execAfePlugOut_ok .start, execAfePlugOut_settled⟩
  | afePlugIn => exact ⟨execAfePlugIn_ok .start, execAfePlugIn_settled⟩
  | plugEnClear => exact ⟨execPlugEnClear_ok .start, execPlugEnClear_settled⟩
  | d2dLapFrameArrival => exact ⟨execD2dLapFrameArrival_ok .start, execD2dLapFrameArrival_settled⟩
  | bufEnWrite => exact ⟨execBufEnWrite_ok .start, execBufEnWrite_settled⟩
  | cnvRefReady => exact ⟨execCnvRefReady_ok .start, execCnvRefReady_settled⟩
  | cnvRefFault => exact ⟨execCnvRefFault_ok .start, execCnvRefFault_settled⟩
  | calEnWrite => exact ⟨execCalEnWrite_ok .start, execCalEnWrite_settled⟩
  | calEpochEnd => exact ⟨execCalEpochEnd_ok .start, execCalEpochEnd_settled⟩
  | cnvHandover => exact ⟨execCnvHandover_ok .start, execCnvHandover_settled⟩
  | trackingBlockEnd => exact ⟨execTrackingBlockEnd_ok .start, execTrackingBlockEnd_settled⟩
  | pause => exact ⟨execPause_ok .start, execPause_settled⟩
  | calResume => exact ⟨execCalResume_ok .start, execCalResume_settled⟩
  | readmit => exact ⟨execReadmit_ok .start, execReadmit_settled⟩
  | skewCmd => exact ⟨execSkewCmd_ok .start, execSkewCmd_settled⟩
  | cnvSkewDone => exact ⟨execCnvSkewDone_ok .start, execCnvSkewDone_settled⟩
  | recordDelivery => exact ⟨execRecordDelivery_ok .start, execRecordDelivery_settled⟩
  | catalogueCommit => exact ⟨execCatalogueCommit_ok .start, execCatalogueCommit_settled⟩
  | setSeq => exact ⟨execSetSeq_ok .start, execSetSeq_settled⟩
  | redBp => exact ⟨execRedBp_ok .start, execRedBp_settled⟩
  | bpStageExit => exact ⟨execBpStageExit_ok .start, execBpStageExit_settled⟩
  | arm => exact ⟨execArm_ok .start, execArm_settled⟩
  | disarm => exact ⟨execDisarm_ok .start, execDisarm_settled⟩
  | ringTriggerCmd => exact ⟨execRingTriggerCmd_ok .start, execRingTriggerCmd_settled⟩
  | trigInEdge => exact ⟨execTrigInEdge_ok .start, execTrigInEdge_settled⟩
  | trigBusEdge => exact ⟨execTrigBusEdge_ok .start, execTrigBusEdge_settled⟩
  | ringTriggerArrival => exact ⟨execRingTriggerArrival_ok .start, execRingTriggerArrival_settled⟩
  | acqForced => exact ⟨execAcqForced_ok .start, execAcqForced_settled⟩
  | postFillComplete => exact ⟨execPostFillComplete_ok .start, execPostFillComplete_settled⟩
  | rearmEnd => exact ⟨execRearmEnd_ok .start, execRearmEnd_settled⟩
  | acqFolio => exact ⟨execAcqFolio_ok .start, execAcqFolio_settled⟩
  | folioSlotRelease => exact ⟨execFolioSlotRelease_ok .start, execFolioSlotRelease_settled⟩
  | trigBusPulseEnd => exact ⟨execTrigBusPulseEnd_ok .start, execTrigBusPulseEnd_settled⟩
  | loopTick => exact ⟨execLoopTick_ok .start, execLoopTick_settled⟩
  | loopEvaluation => exact ⟨execLoopEvaluation_ok .start, execLoopEvaluation_settled⟩
  | loopOutputCommit => exact ⟨execLoopOutputCommit_ok .start, execLoopOutputCommit_settled⟩
  | loopCommitCmd => exact ⟨execLoopCommitCmd_ok .start, execLoopCommitCmd_settled⟩
  | loopResume => exact ⟨execLoopResume_ok .start, execLoopResume_settled⟩
  | testStart => exact ⟨execTestStart_ok .start, execTestStart_settled⟩
  | testStop => exact ⟨execTestStop_ok .start, execTestStop_settled⟩
  | ctlTestEnd => exact ⟨execCtlTestEnd_ok .start, execCtlTestEnd_settled⟩
  | setpointWrite => exact ⟨execSetpointWrite_ok .start, execSetpointWrite_settled⟩
  | outputRegisterWrite => exact ⟨execOutputRegisterWrite_ok .start, execOutputRegisterWrite_settled⟩
  | pwmPeriodStart => exact ⟨execPwmPeriodStart_ok .start, execPwmPeriodStart_settled⟩
  | eventPost => exact ⟨execEventPost_ok .start, execEventPost_settled⟩
  | eventException => exact ⟨execEventException_ok .start, execEventException_settled⟩
  | add => exact ⟨execAdd_ok .start, execAdd_settled⟩
  | sub => exact ⟨execSub_ok .start, execSub_settled⟩
  | and => exact ⟨execAnd_ok .start, execAnd_settled⟩
  | or => exact ⟨execOr_ok .start, execOr_settled⟩
  | xor => exact ⟨execXor_ok .start, execXor_settled⟩
  | shl => exact ⟨execShl_ok .start, execShl_settled⟩
  | shr => exact ⟨execShr_ok .start, execShr_settled⟩
  | sar => exact ⟨execSar_ok .start, execSar_settled⟩
  | mul => exact ⟨execMul_ok .start, execMul_settled⟩
  | mulh => exact ⟨execMulh_ok .start, execMulh_settled⟩
  | div => exact ⟨execDiv_ok .start, execDiv_settled⟩
  | divu => exact ⟨execDivu_ok .start, execDivu_settled⟩
  | min => exact ⟨execMin_ok .start, execMin_settled⟩
  | max => exact ⟨execMax_ok .start, execMax_settled⟩
  | cmp => exact ⟨execCmp_ok .start, execCmp_settled⟩
  | jr => exact ⟨execJr_ok .start, execJr_settled⟩
  | jalr => exact ⟨execJalr_ok .start, execJalr_settled⟩
  | addi => exact ⟨execAddi_ok .start, execAddi_settled⟩
  | andi => exact ⟨execAndi_ok .start, execAndi_settled⟩
  | ori => exact ⟨execOri_ok .start, execOri_settled⟩
  | xori => exact ⟨execXori_ok .start, execXori_settled⟩
  | shli => exact ⟨execShli_ok .start, execShli_settled⟩
  | shri => exact ⟨execShri_ok .start, execShri_settled⟩
  | sari => exact ⟨execSari_ok .start, execSari_settled⟩
  | cmpi => exact ⟨execCmpi_ok .start, execCmpi_settled⟩
  | lui => exact ⟨execLui_ok .start, execLui_settled⟩
  | mac => exact ⟨execMac_ok .start, execMac_settled⟩
  | msu => exact ⟨execMsu_ok .start, execMsu_settled⟩
  | accr => exact ⟨execAccr_ok .start, execAccr_settled⟩
  | accw => exact ⟨execAccw_ok .start, execAccw_settled⟩
  | sat => exact ⟨execSat_ok .start, execSat_settled⟩
  | fadd => exact ⟨execFadd_ok .start, execFadd_settled⟩
  | fsub => exact ⟨execFsub_ok .start, execFsub_settled⟩
  | fmul => exact ⟨execFmul_ok .start, execFmul_settled⟩
  | fdiv => exact ⟨execFdiv_ok .start, execFdiv_settled⟩
  | fsqrt => exact ⟨execFsqrt_ok .start, execFsqrt_settled⟩
  | fmac => exact ⟨execFmac_ok .start, execFmac_settled⟩
  | fmin => exact ⟨execFmin_ok .start, execFmin_settled⟩
  | fmax => exact ⟨execFmax_ok .start, execFmax_settled⟩
  | fabs => exact ⟨execFabs_ok .start, execFabs_settled⟩
  | fneg => exact ⟨execFneg_ok .start, execFneg_settled⟩
  | fcmp => exact ⟨execFcmp_ok .start, execFcmp_settled⟩
  | fcvtsw => exact ⟨execFcvtsw_ok .start, execFcvtsw_settled⟩
  | fcvtws => exact ⟨execFcvtws_ok .start, execFcvtws_settled⟩
  | fmvwf => exact ⟨execFmvwf_ok .start, execFmvwf_settled⟩
  | fmvfw => exact ⟨execFmvfw_ok .start, execFmvfw_settled⟩
  | tinterp => exact ⟨execTinterp_ok .start, execTinterp_settled⟩
  | ldb => exact ⟨execLdb_ok .start, execLdb_settled⟩
  | ldbu => exact ⟨execLdbu_ok .start, execLdbu_settled⟩
  | ldh => exact ⟨execLdh_ok .start, execLdh_settled⟩
  | ldhu => exact ⟨execLdhu_ok .start, execLdhu_settled⟩
  | ldw => exact ⟨execLdw_ok .start, execLdw_settled⟩
  | stb => exact ⟨execStb_ok .start, execStb_settled⟩
  | sth => exact ⟨execSth_ok .start, execSth_settled⟩
  | stw => exact ⟨execStw_ok .start, execStw_settled⟩
  | fld => exact ⟨execFld_ok .start, execFld_settled⟩
  | fldd => exact ⟨execFldd_ok .start, execFldd_settled⟩
  | fst => exact ⟨execFst_ok .start, execFst_settled⟩
  | bcc => exact ⟨execBcc_ok .start, execBcc_settled⟩
  | cbr => exact ⟨execCbr_ok .start, execCbr_settled⟩
  | j => exact ⟨execJ_ok .start, execJ_settled⟩
  | jal => exact ⟨execJal_ok .start, execJal_settled⟩
  | qpop => exact ⟨execQpop_ok .start, execQpop_settled⟩
  | qlen => exact ⟨execQlen_ok .start, execQlen_settled⟩
  | qpush => exact ⟨execQpush_ok .start, execQpush_settled⟩
  | wait => exact ⟨execWait_ok .start, execWait_settled⟩
  | waitReturn => exact ⟨execWaitReturn_ok .start, execWaitReturn_settled⟩
  | waitTimeout => exact ⟨execWaitTimeout_ok .start, execWaitTimeout_settled⟩
  | post => exact ⟨execPost_ok .start, execPost_settled⟩
  | postr => exact ⟨execPostr_ok .start, execPostr_settled⟩
  | stamp => exact ⟨execStamp_ok .start, execStamp_settled⟩
  | tally => exact ⟨execTally_ok .start, execTally_settled⟩
  | nop => exact ⟨execNop_ok .start, execNop_settled⟩
  | fence => exact ⟨execFence_ok .start, execFence_settled⟩
  | syscall => exact ⟨execSyscall_ok .start, execSyscall_settled⟩
  | eret => exact ⟨execEret_ok .start, execEret_settled⟩
  | mfsr => exact ⟨execMfsr_ok .start, execMfsr_settled⟩
  | mtsr => exact ⟨execMtsr_ok .start, execMtsr_settled⟩
  | commitDescriptorApply => exact ⟨execCommitDescriptorApply_ok .start, execCommitDescriptorApply_settled⟩
  | coreRun => exact ⟨execCoreRun_ok .start, execCoreRun_settled⟩
  | coreHalt => exact ⟨execCoreHalt_ok .start, execCoreHalt_settled⟩
  | coreRestart => exact ⟨execCoreRestart_ok .start, execCoreRestart_settled⟩
  | coreHalted => exact ⟨execCoreHalted_ok .start, execCoreHalted_settled⟩
  | haltTimeout => exact ⟨execHaltTimeout_ok .start, execHaltTimeout_settled⟩
  | laneEnable => exact ⟨execLaneEnable_ok .start, execLaneEnable_settled⟩
  | laneDisable => exact ⟨execLaneDisable_ok .start, execLaneDisable_settled⟩
  | wakeBurst => exact ⟨execWakeBurst_ok .start, execWakeBurst_settled⟩
  | lnkSignal => exact ⟨execLnkSignal_ok .start, execLnkSignal_settled⟩
  | lnkAbsent => exact ⟨execLnkAbsent_ok .start, execLnkAbsent_settled⟩
  | blockLock => exact ⟨execBlockLock_ok .start, execBlockLock_settled⟩
  | trainingBlockReceive => exact ⟨execTrainingBlockReceive_ok .start, execTrainingBlockReceive_settled⟩
  | rxReady => exact ⟨execRxReady_ok .start, execRxReady_settled⟩
  | lnkUp => exact ⟨execLnkUp_ok .start, execLnkUp_settled⟩
  | trainingBudgetExpire => exact ⟨execTrainingBudgetExpire_ok .start, execTrainingBudgetExpire_settled⟩
  | partnerRateDetect => exact ⟨execPartnerRateDetect_ok .start, execPartnerRateDetect_settled⟩
  | lossOfSignal => exact ⟨execLossOfSignal_ok .start, execLossOfSignal_settled⟩
  | lnkDown => exact ⟨execLnkDown_ok .start, execLnkDown_settled⟩
  | relockTimeout => exact ⟨execRelockTimeout_ok .start, execRelockTimeout_settled⟩
  | partnerRetrainDetect => exact ⟨execPartnerRetrainDetect_ok .start, execPartnerRetrainDetect_settled⟩
  | failRetry => exact ⟨execFailRetry_ok .start, execFailRetry_settled⟩
  | retrain => exact ⟨execRetrain_ok .start, execRetrain_settled⟩
  | laneInject => exact ⟨execLaneInject_ok .start, execLaneInject_settled⟩
  | adaptFreeze => exact ⟨execAdaptFreeze_ok .start, execAdaptFreeze_settled⟩
  | fillBlockSend => exact ⟨execFillBlockSend_ok .start, execFillBlockSend_settled⟩
  | prbsChkEnable => exact ⟨execPrbsChkEnable_ok .start, execPrbsChkEnable_settled⟩
  | prbsLock => exact ⟨execPrbsLock_ok .start, execPrbsLock_settled⟩
  | lnkPrbsLost => exact ⟨execLnkPrbsLost_ok .start, execLnkPrbsLost_settled⟩
  | accessionSend => exact ⟨execAccessionSend_ok .start, execAccessionSend_settled⟩
  | accessionReceive => exact ⟨execAccessionReceive_ok .start, execAccessionReceive_settled⟩
  | wotFrameReceive => exact ⟨execWotFrameReceive_ok .start, execWotFrameReceive_settled⟩
  | ackReceive => exact ⟨execAckReceive_ok .start, execAckReceive_settled⟩
  | ackSend => exact ⟨execAckSend_ok .start, execAckSend_settled⟩
  | ackTimeout => exact ⟨execAckTimeout_ok .start, execAckTimeout_settled⟩
  | cutThroughForward => exact ⟨execCutThroughForward_ok .start, execCutThroughForward_settled⟩
  | unicastFrameReceive => exact ⟨execUnicastFrameReceive_ok .start, execUnicastFrameReceive_settled⟩
  | splitReqSend => exact ⟨execSplitReqSend_ok .start, execSplitReqSend_settled⟩
  | splitReqReceive => exact ⟨execSplitReqReceive_ok .start, execSplitReqReceive_settled⟩
  | splitRespReceive => exact ⟨execSplitRespReceive_ok .start, execSplitRespReceive_settled⟩
  | batonSend => exact ⟨execBatonSend_ok .start, execBatonSend_settled⟩
  | batonReceive => exact ⟨execBatonReceive_ok .start, execBatonReceive_settled⟩
  | streamFrameClose => exact ⟨execStreamFrameClose_ok .start, execStreamFrameClose_settled⟩
  | streamFrameReceive => exact ⟨execStreamFrameReceive_ok .start, execStreamFrameReceive_settled⟩
  | streamAckSend => exact ⟨execStreamAckSend_ok .start, execStreamAckSend_settled⟩
  | streamAckReceive => exact ⟨execStreamAckReceive_ok .start, execStreamAckReceive_settled⟩
  | headUnreachable => exact ⟨execHeadUnreachable_ok .start, execHeadUnreachable_settled⟩
  | revertHoldExpire => exact ⟨execRevertHoldExpire_ok .start, execRevertHoldExpire_settled⟩
  | renumber => exact ⟨execRenumber_ok .start, execRenumber_settled⟩
  | reroute => exact ⟨execReroute_ok .start, execReroute_settled⟩
  | gopTrigger => exact ⟨execGopTrigger_ok .start, execGopTrigger_settled⟩
  | gopEvent => exact ⟨execGopEvent_ok .start, execGopEvent_settled⟩
  | gopSnapshot => exact ⟨execGopSnapshot_ok .start, execGopSnapshot_settled⟩
  | gopBarrier => exact ⟨execGopBarrier_ok .start, execGopBarrier_settled⟩
  | gopReset => exact ⟨execGopReset_ok .start, execGopReset_settled⟩
  | gopReceive => exact ⟨execGopReceive_ok .start, execGopReceive_settled⟩
  | gopEffect => exact ⟨execGopEffect_ok .start, execGopEffect_settled⟩
  | wotSnapshot => exact ⟨execWotSnapshot_ok .start, execWotSnapshot_settled⟩
  | wotGopEcho => exact ⟨execWotGopEcho_ok .start, execWotGopEcho_settled⟩
  | gopEchoTimeout => exact ⟨execGopEchoTimeout_ok .start, execGopEchoTimeout_settled⟩
  | wotInjEnable => exact ⟨execWotInjEnable_ok .start, execWotInjEnable_settled⟩
  | ethFrameReceive => exact ⟨execEthFrameReceive_ok .start, execEthFrameReceive_settled⟩
  | txrTailWrite => exact ⟨execTxrTailWrite_ok .start, execTxrTailWrite_settled⟩
  | ethFrameSend => exact ⟨execEthFrameSend_ok .start, execEthFrameSend_settled⟩
  | syncReceive => exact ⟨execSyncReceive_ok .start, execSyncReceive_settled⟩
  | followUpReceive => exact ⟨execFollowUpReceive_ok .start, execFollowUpReceive_settled⟩
  | followUpTimeout => exact ⟨execFollowUpTimeout_ok .start, execFollowUpTimeout_settled⟩
  | delayReqSend => exact ⟨execDelayReqSend_ok .start, execDelayReqSend_settled⟩
  | delayRespReceive => exact ⟨execDelayRespReceive_ok .start, execDelayRespReceive_settled⟩
  | ptpParentWrite => exact ⟨execPtpParentWrite_ok .start, execPtpParentWrite_settled⟩
  | gwDatagramClose => exact ⟨execGwDatagramClose_ok .start, execGwDatagramClose_settled⟩
  | hostAckReceive => exact ⟨execHostAckReceive_ok .start, execHostAckReceive_settled⟩
  | injectDatagramReceive => exact ⟨execInjectDatagramReceive_ok .start, execInjectDatagramReceive_settled⟩
  | sfpRead => exact ⟨execSfpRead_ok .start, execSfpRead_settled⟩
  | sfpWrite => exact ⟨execSfpWrite_ok .start, execSfpWrite_settled⟩
  | init => exact ⟨execInit_ok .start, execInit_settled⟩
  | initResume => exact ⟨execInitResume_ok .start, execInitResume_settled⟩
  | dmcTrainDone => exact ⟨execDmcTrainDone_ok .start, execDmcTrainDone_settled⟩
  | dmcTrainFail => exact ⟨execDmcTrainFail_ok .start, execDmcTrainFail_settled⟩
  | srEnter => exact ⟨execSrEnter_ok .start, execSrEnter_settled⟩
  | srEnterPasr => exact ⟨execSrEnterPasr_ok .start, execSrEnterPasr_settled⟩
  | srEntryComplete => exact ⟨execSrEntryComplete_ok .start, execSrEntryComplete_settled⟩
  | srExit => exact ⟨execSrExit_ok .start, execSrExit_settled⟩
  | srExitOnRequest => exact ⟨execSrExitOnRequest_ok .start, execSrExitOnRequest_settled⟩
  | dramRequest => exact ⟨execDramRequest_ok .start, execDramRequest_settled⟩
  | dqsRetrain => exact ⟨execDqsRetrain_ok .start, execDqsRetrain_settled⟩
  | perBankRefresh => exact ⟨execPerBankRefresh_ok .start, execPerBankRefresh_settled⟩
  | mr4Poll => exact ⟨execMr4Poll_ok .start, execMr4Poll_settled⟩
  | scrubRead => exact ⟨execScrubRead_ok .start, execScrubRead_settled⟩
  | grainWrite => exact ⟨execGrainWrite_ok .start, execGrainWrite_settled⟩
  | twinEnable => exact ⟨execTwinEnable_ok .start, execTwinEnable_settled⟩
  | linkWaitExpire => exact ⟨execLinkWaitExpire_ok .start, execLinkWaitExpire_settled⟩
  | partnerLost => exact ⟨execPartnerLost_ok .start, execPartnerLost_settled⟩
  | mirrorFrameSend => exact ⟨execMirrorFrameSend_ok .start, execMirrorFrameSend_settled⟩
  | mirrorFrameReceive => exact ⟨execMirrorFrameReceive_ok .start, execMirrorFrameReceive_settled⟩
  | mirrorDeadlineMiss => exact ⟨execMirrorDeadlineMiss_ok .start, execMirrorDeadlineMiss_settled⟩
  | joinStatePiece => exact ⟨execJoinStatePiece_ok .start, execJoinStatePiece_settled⟩
  | warmupEnd => exact ⟨execWarmupEnd_ok .start, execWarmupEnd_settled⟩
  | digestCompute => exact ⟨execDigestCompute_ok .start, execDigestCompute_settled⟩
  | digestFrameReceive => exact ⟨execDigestFrameReceive_ok .start, execDigestFrameReceive_settled⟩
  | policyApply => exact ⟨execPolicyApply_ok .start, execPolicyApply_settled⟩
  | mmWindowExpire => exact ⟨execMmWindowExpire_ok .start, execMmWindowExpire_settled⟩
  | twinHoldInChange => exact ⟨execTwinHoldInChange_ok .start, execTwinHoldInChange_settled⟩
  | pinDriveEnable => exact ⟨execPinDriveEnable_ok .start, execPinDriveEnable_settled⟩
  | excGateChange => exact ⟨execExcGateChange_ok .start, execExcGateChange_settled⟩
  | swap => exact ⟨execSwap_ok .start, execSwap_settled⟩
  | swapAckTimeout => exact ⟨execSwapAckTimeout_ok .start, execSwapAckTimeout_settled⟩
  | swapHandover => exact ⟨execSwapHandover_ok .start, execSwapHandover_settled⟩
  | twnTakeover => exact ⟨execTwnTakeover_ok .start, execTwnTakeover_settled⟩
  | join => exact ⟨execJoin_ok .start, execJoin_settled⟩
  | leave => exact ⟨execLeave_ok .start, execLeave_settled⟩
  | take => exact ⟨execTake_ok .start, execTake_settled⟩
  | twinClear => exact ⟨execTwinClear_ok .start, execTwinClear_settled⟩
  | xchkBlockEnd => exact ⟨execXchkBlockEnd_ok .start, execXchkBlockEnd_settled⟩
  | counterClear => exact ⟨execCounterClear_ok .start, execCounterClear_settled⟩
  | faultInject => exact ⟨execFaultInject_ok .start, execFaultInject_settled⟩
  | tempSample => exact ⟨execTempSample_ok .start, execTempSample_settled⟩
  | supplySample => exact ⟨execSupplySample_ok .start, execSupplySample_settled⟩
  | hltLockstep => exact ⟨execHltLockstep_ok .start, execHltLockstep_settled⟩
  | commandAbortedAtBoundary => exact ⟨execCommandAbortedAtBoundary_ok .start, execCommandAbortedAtBoundary_settled⟩
  | pwrRun => exact ⟨execPwrRun_ok .start, execPwrRun_settled⟩
  | anaUp => exact ⟨execAnaUp_ok .start, execAnaUp_settled⟩
  | runTimeout => exact ⟨execRunTimeout_ok .start, execRunTimeout_settled⟩
  | pwrIdle => exact ⟨execPwrIdle_ok .start, execPwrIdle_settled⟩
  | pwrRest => exact ⟨execPwrRest_ok .start, execPwrRest_settled⟩
  | pwrShelve => exact ⟨execPwrShelve_ok .start, execPwrShelve_settled⟩
  | wakeFromRest => exact ⟨execWakeFromRest_ok .start, execWakeFromRest_settled⟩
  | wakeFromShelved => exact ⟨execWakeFromShelved_ok .start, execWakeFromShelved_settled⟩
  | aonTimerExpire => exact ⟨execAonTimerExpire_ok .start, execAonTimerExpire_settled⟩
  | powerOnReset => exact ⟨execPowerOnReset_ok .start, execPowerOnReset_settled⟩
  | porstN => exact ⟨execPorstN_ok .start, execPorstN_settled⟩
  | hubResetCmd => exact ⟨execHubResetCmd_ok .start, execHubResetCmd_settled⟩
  | stewardResetCmd => exact ⟨execStewardResetCmd_ok .start, execStewardResetCmd_settled⟩
  | watchdogKick => exact ⟨execWatchdogKick_ok .start, execWatchdogKick_settled⟩
  | watchdogExpire => exact ⟨execWatchdogExpire_ok .start, execWatchdogExpire_settled⟩
  | railsGood => exact ⟨execRailsGood_ok .start, execRailsGood_settled⟩
  | digitalRailFault => exact ⟨execDigitalRailFault_ok .start, execDigitalRailFault_settled⟩
  | bootAttempt => exact ⟨execBootAttempt_ok .start, execBootAttempt_settled⟩
  | bootDone => exact ⟨execBootDone_ok .start, execBootDone_settled⟩
  | bootRetry => exact ⟨execBootRetry_ok .start, execBootRetry_settled⟩
  | bootDataReceive => exact ⟨execBootDataReceive_ok .start, execBootDataReceive_settled⟩
  | bootReqRetry => exact ⟨execBootReqRetry_ok .start, execBootReqRetry_settled⟩
  | ldgRead => exact ⟨execLdgRead_ok .start, execLdgRead_settled⟩
  | ldgWrite => exact ⟨execLdgWrite_ok .start, execLdgWrite_settled⟩
  | runningHoursWrite => exact ⟨execRunningHoursWrite_ok .start, execRunningHoursWrite_settled⟩
  | svcBtn => exact ⟨execSvcBtn_ok .start, execSvcBtn_settled⟩
  | svcBtnHold => exact ⟨execSvcBtnHold_ok .start, execSvcBtnHold_settled⟩
  | svcGpio => exact ⟨execSvcGpio_ok .start, execSvcGpio_settled⟩
  | spiWrite => exact ⟨execSpiWrite_ok .start, execSpiWrite_settled⟩
  | spiRead => exact ⟨execSpiRead_ok .start, execSpiRead_settled⟩
  | spiResult => exact ⟨execSpiResult_ok .start, execSpiResult_settled⟩
  | spiFrameError => exact ⟨execSpiFrameError_ok .start, execSpiFrameError_settled⟩
  | illegalInstruction => exact ⟨execIllegalInstruction_ok .start, execIllegalInstruction_settled⟩
  | fetchFault => exact ⟨execFetchFault_ok .start, execFetchFault_settled⟩
  | frameBoundary => exact ⟨execFrameBoundary_ok .start, execFrameBoundary_settled⟩
  | wotInjDelayExpire => exact ⟨execWotInjDelayExpire_ok .start, execWotInjDelayExpire_settled⟩
  | powerOnResetEnd => exact ⟨execPowerOnResetEnd_ok .start, execPowerOnResetEnd_settled⟩
  | tckRisingEdge => exact ⟨execTckRisingEdge_ok .start, execTckRisingEdge_settled⟩
  | trstN => exact ⟨execTrstN_ok .start, execTrstN_settled⟩
  | refusedIndicationEnd => exact ⟨execRefusedIndicationEnd_ok .start, execRefusedIndicationEnd_settled⟩

theorem exec_pending {c : Instr} {s t : State} (h : exec c s = .next t) : t.pending = s.pending := ((exec_keeps c s).1 t h).1.1

theorem exec_stores {c : Instr} {s t : State} (h : exec c s = .next t) (hs : StoresWf s) : StoresWf t := ((exec_keeps c s).1 t h).stores hs

theorem exec_settled {c : Instr} {s t : State} (h : exec c s = .next t) : Settled t := (exec_keeps c s).2 t h

/-- What a step can be: it idles on an empty queue, or it is the front command run on the state with the rest of the queue. -/
theorem step_cases {s t : State} (h : step s = .next t) :
    (s.pending = [] ∧ t = s) ∨ ∃ c rest, s.pending = c :: rest ∧ exec c { s with pending := rest } = .next t := by
  unfold step at h
  split at h
  · next hq =>
    cases h
    exact .inl ⟨hq, rfl⟩
  · next c rest hq => exact .inr ⟨c, rest, hq, h⟩

/-- Settles O3: a step that is a command takes that command and leaves the rest (`exec_pending`). -/
theorem queueIsFirstInFirstOut : Obligations.QueueIsFirstInFirstOut := by
  refine ⟨fun c s t => exec_pending, fun s t h => ?_⟩
  obtain ⟨hq, rfl⟩ | ⟨c, rest, hq, hc⟩ := step_cases h
  · rw [hq, List.tail_nil]
  · rw [exec_pending hc, hq, List.tail_cons]

/-- Settles O5: whatever the command, it keeps the stores and settles (`exec_keeps`); the queue is no part of the invariant. -/
theorem everyStepKeepsTheInvariant : Obligations.EveryStepKeepsTheInvariant := by
  intro s t hinv h
  obtain ⟨-, rfl⟩ | ⟨c, rest, -, hc⟩ := step_cases h
  · exact hinv
  · exact ⟨exec_stores hc hinv.1, exec_settled hc⟩

end Sys2Proof.Machine

namespace Sys2Proof.Machine
open Sys2Proof

/-! ### Access types (R8) -/

theorem getLsbD_w32 {i : Nat} (v : Nat) (hi : i < 32) : (w32 v).getLsbD i = v.testBit i := by
  rw [w32, BitVec.getLsbD_ofNat, decide_eq_true hi, Bool.true_and]

/-- `writtenWord` as it is defined. The kernel must not look into `rowAt a` for an open address `a`, where it would count down from
0xA0000000; so the proof below puts the row in its place without comparing two forms of the definition's match. -/
theorem writtenWord_def : writtenWord = delta% writtenWord := rfl

/-- The word that a write leaves, with the masks of the register's row. -/
theorem writtenWord_of_rowAt {a : Nat} {r : RegRow} (s : State) (w : Word) (hr : rowAt a = some r) :
    writtenWord s a w = ((rd s a &&& ~~~ (w32 r.rw ||| if locked s a then 0 else w32 r.rwl)) |||
      (w &&& (w32 r.rw ||| if locked s a then 0 else w32 r.rwl))) &&& ~~~ (w &&& w32 r.w1c) := by
  refine (congrFun (congrFun (congrFun writtenWord_def s) a) w).trans ?_
  generalize rowAt a = o at hr
  subst hr
  rfl

/-- A bit of that word. -/
theorem getLsbD_writtenWord {s : State} {a : Nat} {r : RegRow} (hr : rowAt a = some r) (w : Word) {i : Nat} (hi : i < 32) :
    (writtenWord s a w).getLsbD i =
      ((if r.rw.testBit i || (!locked s a && r.rwl.testBit i) then w.getLsbD i else (rd s a).getLsbD i) &&
        !(w.getLsbD i && r.w1c.testBit i)) := by
  rw [writtenWord_of_rowAt s w hr]
  generalize locked s a = l
  have hl : (if l then (0 : Word) else w32 r.rwl).getLsbD i = (!l && r.rwl.testBit i) := by
    cases l <;> simp [getLsbD_w32 _ hi]
  simp only [BitVec.getLsbD_and, BitVec.getLsbD_or, BitVec.getLsbD_not, getLsbD_w32 _ hi, hl, hi, decide_true, Bool.true_and]
  cases r.rw.testBit i || (!l && r.rwl.testBit i) <;> simp

/-- In RED, LDG and SVC a write to a register other than a command register is a plain write. -/
theorem writeReg_plain {a : Nat} (w : Word) (s : State)
    (h : (0xA0030000 ≤ a ∧ a < 0xA0040000 ∧ a ≠ RED_CMD) ∨ (0xA00D0000 ≤ a ∧ a < 0xA00F0000 ∧ a ≠ LDG_CMD)) :
    writeReg a w s = done (plainWrite a w s) := by
  have hb : (a - 0xA0000000) / 0x10000 = 3 ∧ a ≠ RED_CMD ∨ (a - 0xA0000000) / 0x10000 = 13 ∧ a ≠ LDG_CMD ∨
      (a - 0xA0000000) / 0x10000 = 14 := by omega
  unfold writeReg
  obtain ⟨e, hn⟩ | ⟨e, hn⟩ | e := hb
  · simp only [e, if_neg hn]
  · simp only [e, if_neg hn]
  · simp only [e]

/-- A write by an awake hub to a word address of the register space. -/
theorem exec_registerWrite {s : State} {a : Nat} (w : Word) (hs : awake s = true) (h4 : a % 4 = 0) (h : 0xA0000000 ≤ a) (h' : a < 0xA1000000) :
    exec (.registerWrite a w) s = writeReg a w s := by
  have e : a / 4 * 4 = a := by omega
  have hbus : isBus a = true := by simp [isBus, h, h']
  calc exec (.registerWrite a w) s = busWrite a w s := if_pos hs
    _ = if !isBus (a / 4 * 4) then done s else if a / 4 * 4 < 0xA1000000 then writeReg (a / 4 * 4) w s else writeTable (a / 4 * 4) w s := rfl
    _ = writeReg a w s := by rw [e, hbus, if_neg (by decide), if_pos h']

/-- A register write touches no other part of the state. -/
theorem same_wr (s : State) (a : Nat) (w : Word) (k : Comp) : same k s (wr s a w) := by cases k <;> rfl

theorem settled_wr {s : State} (h : Settled s) (a : Nat) (w : Word) : Settled (wr s a w) := by
  unfold Settled at *
  rw [(wr_frame s a w).2.2.2.2.2.2.2.2.1, h]

/-- Settles O10: such a write is a plain write (`writeReg_plain`), whose bits the row's masks give (`getLsbD_writtenWord`). -/
theorem registerWriteFollowsAccessTypes : Obligations.RegisterWriteFollowsAccessTypes := by
  intro s a w r hset hawake h4 hrow hblock
  have hstep : exec (.registerWrite a w) s = .next (plainWrite a w s) := by
    rw [exec_registerWrite w hawake h4 (by omega) (by omega), writeReg_plain w s hblock]
    exact done_settled_next (settled_wr hset a _)
  have hrd : rd (plainWrite a w s) a = writtenWord s a w := rd_wr_same s a _
  refine ⟨plainWrite a w s, hstep, ?_, ?_, ?_, ?_, fun b hb => rd_wr_other s _ hb, same_wr s a _⟩
  · intro i hi hrw hw1c
    simp [hrd, getLsbD_writtenWord hrow w hi, hrw, hw1c]
  · intro i hi hrw hrwl hw1c
    cases hl : locked s a <;> simp [hrd, getLsbD_writtenWord hrow w hi, hrw, hrwl, hw1c, hl]
  · intro i hi hrw hrwl hw1c
    simp [hrd, getLsbD_writtenWord hrow w hi, hrw, hrwl, hw1c]
  · intro i hi hrw hrwl hw1c
    simp [hrd, getLsbD_writtenWord hrow w hi, hrw, hrwl, hw1c]

end Sys2Proof.Machine

namespace Sys2Proof.Machine
open Sys2Proof

/-! ### Reads with an effect (R8, R76, R243) -/

/-- A read of a word address on the bus that is no stamp queue's: the word held, after what latches and is shown, with rc fields cleared. -/
theorem busRead_of_isBus {a : Nat} (s : State) (h4 : a / 4 * 4 = a) (h : isBus a = true) (h0 : a ≠ ETH_MACm_TXS_ID 0) (h1 : a ≠ ETH_MACm_TXS_ID 1) :
    busRead a s = (wordOf a (refresh a (latch a (laneRead a s))), clearRc a (refresh a (latch a (laneRead a s)))) := by
  unfold busRead
  simp only [h4, h, if_neg h0, if_neg h1]
  rfl

/-- Such a read of a register that is neither latched nor shown, and whose bits are all rc. -/
theorem busRead_slCount {a : Nat} (s : State) (ha : a ∈ [TBS_SL_SLIP, TBS_SL_LATE, TBS_SL_SKIP, TBS_SL_BAD]) :
    busRead a s = (rd s a, wr s a 0) := by
  have hrow : (rowAt a).map (·.rc) = some 0xFFFFFFFF ∧ ¬ 0xB0000000 ≤ a := by
    revert a
    decide +kernel
  obtain ⟨hrow, hlow⟩ := hrow
  obtain ⟨r, hr, hrc⟩ := Option.map_eq_some_iff.mp hrow
  have hall : rd s a &&& ~~~ w32 0xFFFFFFFF = 0 := by simp [w32]
  have hclear : clearRow (rowAt a) a s = wr s a 0 := by
    rw [hr, clearRow, if_neg (by simp [hrc, hlow]), hrc, hall]
  simp only [List.mem_cons, List.not_mem_nil, or_false] at ha
  obtain rfl | rfl | rfl | rfl := ha
  all_goals
    rw [busRead_of_isBus s rfl (by decide) (by decide) (by decide)]
    exact congrArg (Prod.mk _) hclear
/-- A read of TBS_TIME_FRAC copies the present line time and lap count (R76). -/
theorem busRead_timeFrac (s : State) : (busRead TBS_TIME_FRAC s).2 =
    wrPair (wrPair (wr s TBS_TIME_FRAC (w32 (now s % 65536))) TBS_TIME_LO TBS_TIME_HI (now s / 65536)) TBS_LAP_LO TBS_LAP_HI (lap s) := by
  have hrow : (rowAt TBS_TIME_FRAC).map (·.rc) = some 0 := by decide +kernel
  obtain ⟨r, hr, hrc⟩ := Option.map_eq_some_iff.mp hrow
  have hclear : ∀ u, clearRc TBS_TIME_FRAC u = u := by
    intro u
    unfold clearRc clearRow
    rw [hr]
    simp only [hrc, true_or, if_true]
    rfl
  rw [busRead_of_isBus s rfl (by decide) (by decide) (by decide), hclear]
  rfl

@[simp] theorem now_settle (s : State) : now (settle s) = now s := by simp [now]

@[simp] theorem lap_settle (s : State) : lap (settle s) = lap s := by simp [lap]

theorem latchingRead_timeFrac (s : State) (ofs : Nat) (hs : awake s = true) : ∃ t, exec (.latchingRead TBS_TIME_FRAC ofs) s = .next t ∧
    rd t TBS_TIME_FRAC = w32 (now t % 65536) ∧ rd t TBS_TIME_LO = lo32 (now t / 65536) ∧ rd t TBS_TIME_HI = hi32 (now t / 65536) ∧
    rd t TBS_LAP_LO = lo32 (lap t) ∧ rd t TBS_LAP_HI = hi32 (lap t) ∧ lap t = lap s ∧ now s ≤ now t ∧ t.mem = s.mem := by
  have hstep : exec (.latchingRead TBS_TIME_FRAC ofs) s = .next (settle (busRead TBS_TIME_FRAC (atOfs ofs s)).2) :=
    congrArg done (if_pos hs)
  refine ⟨_, hstep, ?_⟩
  rw [busRead_timeFrac]
  have hlater : now s ≤ now (atOfs ofs s) := by simp [now]
  have hlap : lap (atOfs ofs s) = lap s := rfl
  have hmem : (atOfs ofs s).mem = s.mem := rfl
  rw [rd_settle _ TBS_TIME_FRAC rfl, rd_settle _ TBS_TIME_LO rfl, rd_settle _ TBS_TIME_HI rfl, rd_settle _ TBS_LAP_LO rfl,
    rd_settle _ TBS_LAP_HI rfl, now_settle, lap_settle, ← hlap]
  generalize atOfs ofs s = u at hlater hmem ⊢
  refine ⟨?_, ?_, ?_, ?_, ?_, rfl, hlater, ?_⟩
  case refine_6 => simpa [wrPair] using hmem
  all_goals simp [wrPair, rd_wr, now, lap]
/-! ### Queues seen by their consumer (R239) -/

@[simp] theorem queueOf_setQueue_same (q : Nat) (x : Queue) (s : State) : queueOf (setQueue q x s) q = x := tget_tput_same _ _ q x

theorem queueOf_setQueue_other {q k : Nat} (x : Queue) (s : State) (h : k ≠ q) : queueOf (setQueue q x s) k = queueOf s k :=
  tget_tput_other _ _ x h

@[simp] theorem queueOf_freshen (s : State) (q : Nat) : queueOf (freshen s) q = queueOf s q := rfl

@[simp] theorem queueOf_wr (s : State) (a : Nat) (w : Word) (q : Nat) : queueOf (wr s a w) q = queueOf s q := rfl

@[simp] theorem queueOf_settle (s : State) (q : Nat) : queueOf (settle s) q = queueOf s q := by simp [queueOf]

/-- A new view of queue `q` hides no entry that was seen, and changes nothing but the number seen and the model's counter of free values. -/
theorem look_cases (q : Nat) (s : State) : ∃ n, min (queueOf s q).items.length (queueOf s q).seen ≤ n ∧
    (look q s = setQueue q { queueOf s q with seen := n } s ∨ look q s = freshen (setQueue q { queueOf s q with seen := n } s)) := by
  unfold look
  dsimp only
  split
  · exact ⟨_, by omega, .inl rfl⟩
  · exact ⟨_, by omega, .inr rfl⟩

theorem items_look (q : Nat) (s : State) : (queueOf (look q s) q).items = (queueOf s q).items := by
  obtain ⟨n, -, e | e⟩ := look_cases q s <;> simp [e]

theorem seen_look (q : Nat) (s : State) : min (queueOf s q).items.length (queueOf s q).seen ≤ (queueOf (look q s) q).seen := by
  obtain ⟨n, hn, e | e⟩ := look_cases q s <;> simpa [e] using hn

theorem queueOf_look_other {q k : Nat} (s : State) (h : k ≠ q) : queueOf (look q s) k = queueOf s k := by
  obtain ⟨n, -, e | e⟩ := look_cases q s <;> simp [e, queueOf_setQueue_other _ s h]

@[simp] theorem mem_look (q : Nat) (s : State) : (look q s).mem = s.mem := by
  obtain ⟨n, -, e | e⟩ := look_cases q s <;> simp [e]

/-- A read of TXS_ID of a MAC is that of its stamp queue. -/
theorem busRead_stamp (m : Fin 2) (s : State) : busRead (ETH_MACm_TXS_ID m) s = readStamp m s := by
  unfold busRead
  match m with
  | 0 => exact (if_neg (by decide)).trans (if_pos (by decide))
  | 1 => exact (if_neg (by decide)).trans ((if_neg (by decide)).trans (if_pos (by decide)))

/-- A read of a stamp queue whose oldest entry is seen takes it and latches its words (R243, R342). -/
theorem readStamp_takes {m : Nat} {s : State} {e : QEntry} {rest : List QEntry} (hq : (queueOf s (stampQueue m)).items = e :: rest)
    (hseen : 1 ≤ (queueOf s (stampQueue m)).seen) : ∃ x u, x.items = rest ∧ u.mem = s.mem ∧
      (∀ k, k ≠ stampQueue m → queueOf u k = queueOf s k) ∧
      (readStamp m s).2 = wr (wr (wr (wr (setQueue (stampQueue m) x u) (ETH_MACm_TXS_ID m) (e.words.getD 0 0)) (ETH_MACm_TXS_FRAC m)
        (e.words.getD 1 0)) (ETH_MACm_TXS_LO m) (e.words.getD 2 0)) (ETH_MACm_TXS_HI m) (e.words.getD 3 0) := by
  have hitems := (items_look (stampQueue m) s).trans hq
  have hlook := seen_look (stampQueue m) s
  rw [hq, List.length_cons] at hlook
  refine ⟨{ queueOf (look (stampQueue m) s) (stampQueue m) with
      items := rest, seen := (queueOf (look (stampQueue m) s) (stampQueue m)).seen - 1 },
    look (stampQueue m) s, rfl, mem_look _ s, fun k hk => queueOf_look_other s hk, ?_⟩
  unfold readStamp
  dsimp only
  rw [hitems]
  exact congrArg Prod.snd (if_neg (by omega))

theorem outsideLdg_stamp (m : Fin 2) : OutsideLdg (ETH_MACm_TXS_ID m) ∧ OutsideLdg (ETH_MACm_TXS_FRAC m) ∧
    OutsideLdg (ETH_MACm_TXS_LO m) ∧ OutsideLdg (ETH_MACm_TXS_HI m) := by
  unfold ETH_MACm_TXS_ID ETH_MACm_TXS_FRAC ETH_MACm_TXS_LO ETH_MACm_TXS_HI
  exact ⟨outsideLdg_of (by omega), outsideLdg_of (by omega), outsideLdg_of (by omega), outsideLdg_of (by omega)⟩

/-- Settles O11: the three kinds of read by `busRead_slCount`, `busRead_timeFrac` and `readStamp_takes`. -/
theorem readsClearLatchAndTake : Obligations.ReadsClearLatchAndTake := by
  refine ⟨fun s a hset hs ha => ?_, fun s ofs hs => latchingRead_timeFrac s ofs hs, fun s m e rest hs hq hseen => ?_⟩
  · have hstep : exec (.rcRead a) s = .next (wr s a 0) := by
      show done (if awake s then (busRead a s).2 else s) = _
      rw [if_pos hs, busRead_slCount s ha]
      exact done_settled_next (settled_wr hset a 0)
    exact ⟨congrArg Prod.fst (busRead_slCount s ha), _, hstep, rd_wr_same s a 0, fun b hb => rd_wr_other s 0 hb, same_wr s a 0⟩
  · have hstep : exec (.resultRegisterRead (ETH_MACm_TXS_ID m)) s = .next (settle (readStamp m s).2) :=
      congrArg done ((if_pos hs).trans (congrArg Prod.snd (busRead_stamp m s)))
    obtain ⟨x, u, hx, hmem, hother, hread⟩ := readStamp_takes hq hseen
    obtain ⟨hid, hfrac, hlo, hhi⟩ := outsideLdg_stamp m
    refine ⟨_, hstep, ?_⟩
    rw [hread, rd_settle _ _ hid, rd_settle _ _ hfrac, rd_settle _ _ hlo, rd_settle _ _ hhi]
    refine ⟨by simpa using hx, ?_, ?_, ?_, ?_, by simpa using hmem, fun q hq => ?_⟩
    case refine_5 => simpa [queueOf_setQueue_other x u hq] using hother q hq
    all_goals simp [rd_wr]

end Sys2Proof.Machine

namespace Sys2Proof.Machine
open Sys2Proof

/-! ### Exceptions of a data access (R278) -/

/-- The access of `size` bytes to address `a` by core `n` faults on alignment before anything else. -/
theorem accessFault_unaligned (s : State) (n : Nat) {size a : Nat} (h : a % size ≠ 0) : accessFault s n size a = some 5 := if_pos h

/-- In service mode the ranges of R228 are closed. -/
theorem accessFault_barred {s : State} {n size a : Nat} (h : a % size = 0) (hm : inService s n = true)
    (hr : (0xA0000000 ≤ a ∧ a < 0xA1000000) ∨ (0xB0000000 ≤ a ∧ a < 0xB0100000) ∨ (0x91000000 ≤ a ∧ a < 0x91500000)) :
    accessFault s n size a = some 3 := by
  have hb : barred a = true := by simpa [barred, or_assoc] using hr
  simp [accessFault, h, hm, hb]

/-- To a Runner the boot ROM is closed in either mode. -/
theorem accessFault_rom {s : State} {n size a : Nat} (h : a % size = 0) (hn : n ≠ 4) (ha : 0xFFFE0000 ≤ a) (ha' : a < 2 ^ 32) :
    accessFault s n size a = some 3 := by
  have hrom : inRom a = true := by simpa [inRom] using ⟨ha, ha'⟩
  simp [accessFault, h, hn, hrom]

/-- The addresses at which nothing answers a core, below the boot ROM (R26 to R30). -/
def Unmapped (a : Nat) : Prop :=
  (0x80400000 ≤ a ∧ a < 0x90000000) ∨ (0x90100000 ≤ a ∧ a < 0x91000000) ∨ (0x91500000 ≤ a ∧ a < 0xA0000000) ∨
    (0xA1000000 ≤ a ∧ a < 0xB0000000) ∨ 0xB0040000 ≤ a

theorem dramTop_le (s : State) : dramTop s ≤ 0x80000000 := by
  unfold dramTop
  split <;> split <;> decide

theorem canonical_of_unmapped {a : Nat} (n : Nat) (hu : Unmapped a) : canonical n a = a := by
  unfold Unmapped at hu
  exact if_neg (by omega)

theorem answers_of_unmapped {a : Nat} (s : State) (hu : Unmapped a) (ha : a < 0xFFFE0000) : answers s a = false := by
  have htop := dramTop_le s
  unfold Unmapped at hu
  have hdram : ¬ a < dramTop s := by omega
  have hlocal : localAt a = none := if_neg (by omega)
  have hstacks : ¬ (0x80000000 ≤ a ∧ a < 0x80300000) := by omega
  have hbus : isBus a = false := by
    rw [isBus, Bool.or_eq_false_iff, decide_eq_false_iff_not, decide_eq_false_iff_not]
    omega
  have hrom : inRom a = false := decide_eq_false (by omega)
  simp [answers, isDram, hdram, hlocal, hstacks, hbus, hrom]

/-- Where nothing answers, the access is a bus error. -/
theorem accessFault_unmapped {s : State} {n size a : Nat} (h : a % size = 0) (hm : inService s n = false) (ha : a < 0xFFFE0000)
    (hu : Unmapped a) : accessFault s n size a = some 4 := by
  have hrom : inRom a = false := decide_eq_false (by omega)
  simp [accessFault, h, hm, hrom, canonical_of_unmapped n hu, answers_of_unmapped s hu ha]

theorem memAddr_lt (s : State) (n rb am : Nat) (off : BitVec 13) (size : Nat) : memAddr s n rb am off size < 2 ^ 32 := by
  unfold memAddr
  split <;> exact BitVec.isLt _

/-! ### Loads and stores that issue -/

section
variable {n : Nat} {s : State} (hi : Issues n s) {rb am size : Nat} {off : BitVec 13}
include hi

theorem loadOp_traps {num : Nat} (k : List Byte → State → State) (h : accessFault s n size (memAddr s n rb am off size) = some num) :
    loadOp n rb am size off k s = .next (settle (trap n num (w32 (memAddr s n rb am off size)) s)) := by
  unfold loadOp
  rw [issue_runs hi]
  dsimp only
  rw [h]
  rfl

theorem storeOp_traps {num : Nat} (bs : State → List Byte) (h : accessFault s n size (memAddr s n rb am off size) = some num) :
    storeOp n rb am size off bs s = .next (settle (trap n num (w32 (memAddr s n rb am off size)) s)) := by
  unfold storeOp
  rw [issue_runs hi]
  dsimp only
  rw [h]
  rfl

theorem loadOp_narrow (k : List Byte → State → State) (h : accessFault s n size (memAddr s n rb am off size) = none)
    (hr : inRegs (memAddr s n rb am off size) = true) (hsize : size < 4) :
    loadOp n rb am size off k s = .fault .misuseNarrowRegisterAccess := by
  unfold loadOp
  rw [issue_runs hi]
  simp [h, hr, hsize]

theorem storeOp_narrow (bs : State → List Byte) (h : accessFault s n size (memAddr s n rb am off size) = none)
    (hr : inRegs (memAddr s n rb am off size) = true) (hsize : size < 4) :
    storeOp n rb am size off bs s = .fault .misuseNarrowRegisterAccess := by
  unfold storeOp
  rw [issue_runs hi]
  simp [h, hr, hsize]

theorem storeOp_ring (bs : State → List Byte) (h : accessFault s n size (memAddr s n rb am off size) = none)
    (hr : meetsRing s (memAddr s n rb am off size) size = true) : storeOp n rb am size off bs s = .fault .misuseRingStore := by
  have hlow : memAddr s n rb am off size < 0x80000000 := by
    simp only [meetsRing, Bool.and_eq_true, decide_eq_true_eq] at hr
    exact hr.1
  have hregs : inRegs (memAddr s n rb am off size) = false := decide_eq_false (by omega)
  unfold storeOp
  rw [issue_runs hi]
  simp [h, hregs, hr]

end

/-- The loads, with the bytes that each moves. -/
def loadForms (n : Fin 5) (rd rb : Fin 16) (fd : Fin 8) (am : Fin 3) (off : BitVec 13) : List (Instr × Nat) :=
  [(.ldb n rd rb am off, 1), (.ldbu n rd rb am off, 1), (.ldh n rd rb am off, 2), (.ldhu n rd rb am off, 2), (.ldw n rd rb am off, 4),
    (.fld n fd rb am off, 4), (.fldd n fd rb am off, 8)]

/-- The stores, with the bytes that each moves. -/
def storeForms (n : Fin 5) (rd rb : Fin 16) (fd : Fin 8) (am : Fin 3) (off : BitVec 13) : List (Instr × Nat) :=
  [(.stb n rd rb am off, 1), (.sth n rd rb am off, 2), (.stw n rd rb am off, 4), (.fst n fd rb am off, 4)]

section
variable {n : Fin 5} {s : State} {rd rb : Fin 16} {fd : Fin 8} {am : Fin 3} {off : BitVec 13} {p : Instr × Nat}

/-- Each load is `loadOp` of its size. -/
theorem exec_load (hp : p ∈ loadForms n rd rb fd am off) : ∃ k, exec p.1 s = loadOp n rb am p.2 off k s := by
  simp only [loadForms, List.mem_cons, List.not_mem_nil, or_false] at hp
  obtain rfl | rfl | rfl | rfl | rfl | rfl | rfl := hp
  · exact ⟨_, show exec (.ldb n rd rb am off) s = loadReg n rd rb am 1 true off s from rfl⟩
  · exact ⟨_, show exec (.ldbu n rd rb am off) s = loadReg n rd rb am 1 false off s from rfl⟩
  · exact ⟨_, show exec (.ldh n rd rb am off) s = loadReg n rd rb am 2 true off s from rfl⟩
  · exact ⟨_, show exec (.ldhu n rd rb am off) s = loadReg n rd rb am 2 false off s from rfl⟩
  · exact ⟨_, show exec (.ldw n rd rb am off) s = loadReg n rd rb am 4 false off s from rfl⟩
  · exact ⟨_, show exec (.fld n fd rb am off) s = execFld n fd rb am off s from rfl⟩
  · exact ⟨_, show exec (.fldd n fd rb am off) s = execFldd n fd rb am off s from rfl⟩

/-- Each store is `storeOp` of its size. -/
theorem exec_store (hp : p ∈ storeForms n rd rb fd am off) : ∃ bs, exec p.1 s = storeOp n rb am p.2 off bs s := by
  simp only [storeForms, List.mem_cons, List.not_mem_nil, or_false] at hp
  obtain rfl | rfl | rfl | rfl := hp
  · exact ⟨_, show exec (.stb n rd rb am off) s = storeReg n rd rb am 1 off s from rfl⟩
  · exact ⟨_, show exec (.sth n rd rb am off) s = storeReg n rd rb am 2 off s from rfl⟩
  · exact ⟨_, show exec (.stw n rd rb am off) s = storeReg n rd rb am 4 off s from rfl⟩
  · exact ⟨_, show exec (.fst n fd rb am off) s = execFst n fd rb am off s from rfl⟩

/-- A load or store whose access faults takes that exception, and has no other effect (R267). -/
theorem exec_traps (hi : Issues n s) (hp : p ∈ loadForms n rd rb fd am off ++ storeForms n rd rb fd am off) {num : Nat}
    (h : accessFault s n p.2 (memAddr s n rb am off p.2) = some num) :
    exec p.1 s = .next (settle (trap n num (w32 (memAddr s n rb am off p.2)) s)) := by
  obtain hp | hp := List.mem_append.mp hp
  · obtain ⟨k, e⟩ := exec_load (s := s) hp
    rw [e, loadOp_traps hi k h]
  · obtain ⟨bs, e⟩ := exec_store (s := s) hp
    rw [e, storeOp_traps hi bs h]

/-- A byte or halfword access to the register space is misuse (R6, R403). -/
theorem exec_narrow (hi : Issues n s) (hp : p ∈ loadForms n rd rb fd am off ++ storeForms n rd rb fd am off) (hsize : p.2 < 4)
    (h : accessFault s n p.2 (memAddr s n rb am off p.2) = none) (hr : inRegs (memAddr s n rb am off p.2) = true) :
    exec p.1 s = .fault .misuseNarrowRegisterAccess := by
  obtain hp | hp := List.mem_append.mp hp
  · obtain ⟨k, e⟩ := exec_load (s := s) hp
    rw [e, loadOp_narrow hi k h hr hsize]
  · obtain ⟨bs, e⟩ := exec_store (s := s) hp
    rw [e, storeOp_narrow hi bs h hr hsize]

end

theorem ofBytesLE_bytesLE (k v : Nat) : ofBytesLE (bytesLE k v) = v % 256 ^ k := by
  induction k generalizing v with
  | zero => simp [bytesLE, ofBytesLE, Nat.mod_one]
  | succ k ih =>
    have hbyte : (BitVec.ofNat 8 v).toNat = v % 256 := BitVec.toNat_ofNat v 8
    rw [bytesLE, ofBytesLE, ih, hbyte, pow_succ', Nat.mod_mul]

theorem bytesLE_length (k v : Nat) : (bytesLE k v).length = k := by
  induction k generalizing v with
  | zero => rfl
  | succ k ih => rw [bytesLE, List.length_cons, ih]

/-- A register word read back from the bytes of a word load. -/
theorem w32_ofBytesLE_word (w : Word) : w32 (ofBytesLE (bytesLE 4 w.toNat)) = w := by
  rw [ofBytesLE_bytesLE, Nat.mod_eq_of_lt (show w.toNat < 256 ^ 4 from w.isLt)]
  exact (BitVec.ofNat_toNat 32 w).trans w.setWidth_eq

/-- An address on the bus lies outside the memories of the cores, DRAM and the boot ROM. -/
theorem isBus_iff (a : Nat) : isBus a = true ↔ (0xA0000000 ≤ a ∧ a < 0xA1000000) ∨ (0xB0000000 ≤ a ∧ a < 0xB0040000) := by
  rw [isBus, Bool.or_eq_true, decide_eq_true_eq, decide_eq_true_eq]

theorem canonical_of_isBus {a : Nat} (n : Nat) (h : isBus a = true) : canonical n a = a := by
  rw [isBus_iff] at h
  exact if_neg (by omega)

theorem misses_of_isBus {a : Nat} (s : State) (n : Nat) (h : isBus a = true) : misses s n a = false := by
  rw [isBus_iff] at h
  exact Bool.and_eq_false_imp.mpr fun hlow => absurd (of_decide_eq_true hlow) (by omega)

/-- A word load from the bus gives the bytes of the word that a read gives, with what the read does. -/
theorem loadBytes_bus {n a : Nat} (s : State) (h : isBus a = true) (h4 : a % 4 = 0) :
    loadBytes n 4 a s = (bytesLE 4 (busRead a s).1.toNat, (busRead a s).2) := by
  have hrom : inRom a = false := by
    rw [isBus_iff] at h
    exact decide_eq_false (by omega)
  unfold loadBytes loadBus
  simp only [canonical_of_isBus n h, hrom, h, h4, List.drop_zero]
  rw [List.take_of_length_le (bytesLE_length 4 _).le]
  rfl

theorem loadOp_bus {n rb am : Nat} {s : State} {off : BitVec 13} (hi : Issues n s) (k : List Byte → State → State)
    (hfault : accessFault s n 4 (memAddr s n rb am off 4) = none) (h : isBus (memAddr s n rb am off 4) = true) :
    loadOp n rb am 4 off k s = .next (settle (advance n (k (bytesLE 4 (busRead (memAddr s n rb am off 4) s).1.toNat)
      (writeBack n rb am off 4 (busRead (memAddr s n rb am off 4) s).2)))) := by
  have h4 : memAddr s n rb am off 4 % 4 = 0 := by
    by_contra hne
    rw [accessFault_unaligned s n hne] at hfault
    cases hfault
  have hmiss := misses_of_isBus s n h
  unfold loadOp
  rw [issue_runs hi]
  simp [hfault, canonical_of_isBus n h, fetchLine, hmiss, loadBytes_bus s h h4, done]

/-- Settles O40: the order of R278 by the `accessFault` lemmas, what a faulting or misused access does by `exec_traps`, `exec_narrow` and
`storeOp_ring`, and the word from the bus by `loadOp_bus`. -/
theorem dataExceptions : Obligations.DataExceptions := by
  refine ⟨?_, ?_, ?_, ?_⟩
  · intro s n rd rb fd am off hi p hp a ha
    subst ha
    refine ⟨fun h => exec_traps hi hp (accessFault_unaligned s n h), fun h hm hr => exec_traps hi hp (accessFault_barred h hm hr),
      fun h hn hr => exec_traps hi hp (accessFault_rom h hn hr (memAddr_lt s n rb am off p.2)),
      fun h hm hr hu => exec_traps hi hp (accessFault_unmapped h hm hr hu)⟩
  · intro s n rd rb am off hi p hp a ha hfault hlo hhi
    subst ha
    have hform : p ∈ loadForms n rd rb 0 am off ++ storeForms n rd rb 0 am off ∧ p.2 < 4 := by
      revert p
      simp [loadForms, storeForms]
    exact exec_narrow hi hform.1 hform.2 hfault (decide_eq_true ⟨hlo, hhi⟩)
  · intro s n rd rb fd am off hi p hp a ha hfault hring
    subst ha
    obtain ⟨bs, e⟩ := exec_store (s := s) hp
    rw [e, storeOp_ring hi bs hfault hring]
  · intro s n rd rb am off a hi ha hfault hbus
    subst ha
    have e : exec (.ldw n rd rb am off) s = loadReg n rd rb am 4 false off s := rfl
    rw [e, loadReg, loadOp_bus hi _ hfault hbus]
    simp only [Bool.false_eq_true, if_false, w32_ofBytesLE_word]

end Sys2Proof.Machine

namespace Sys2Proof.Machine
open Sys2Proof

/-! ### Channel masks and marks (R98) -/

theorem setMarks_only (c kind : Nat) (l : List (Nat × Nat)) (s : State) : ∃ r, setMarks c kind l s = { s with red := r } := ⟨_, rfl⟩

/-- Marking a lap touches the reduction's part of the state only. -/
theorem mark_only (c kind b : Nat) (s : State) : ∃ r, mark c kind b s = { s with red := r } := by
  unfold mark
  split
  · split
    · exact ⟨s.red, rfl⟩
    · split <;> exact setMarks_only ..
  · exact setMarks_only ..

theorem unmark_only (c kind b : Nat) (s : State) : ∃ r, unmark c kind b s = { s with red := r } := by
  unfold unmark
  split
  · split
    · split <;> exact setMarks_only ..
    · exact ⟨s.red, rfl⟩
  · exact ⟨s.red, rfl⟩

theorem isOpen_eq (s : State) (d : Nat) : isOpen s d = (rd s (AFE_OPEN_NOWk (d / 32))).getLsbD (d % 32) := rfl

/-- Setting one bit of AFE_OPEN_NOW changes OPEN of that channel alone. -/
theorem isOpen_setMaskBit (c d : Nat) (v : Bool) (s : State) :
    isOpen (setMaskBit (AFE_OPEN_NOWk 0) c v s) d = if d = c then v else isOpen s d := by
  have hreg : AFE_OPEN_NOWk 0 + c / 32 * 4 = AFE_OPEN_NOWk (c / 32) := by simp [AFE_OPEN_NOWk]
  rw [isOpen_eq, isOpen_eq, setMaskBit, setFld, rd_wr, hreg]
  by_cases hword : d / 32 = c / 32
  · rw [hword, if_pos rfl, getLsb_fset _ _ _ _ _ (show c % 32 + 1 ≤ 32 by omega)]
    dsimp only
    by_cases hbit : d % 32 = c % 32
    · have hdc : d = c := by omega
      rw [if_pos (by omega), if_pos hdc, hbit, Nat.sub_self]
      cases v <;> rfl
    · have hdc : d ≠ c := fun e => hbit (e ▸ rfl)
      rw [if_neg (by omega), if_neg hdc]
  · have hne : AFE_OPEN_NOWk (d / 32) ≠ AFE_OPEN_NOWk (c / 32) := by
      unfold AFE_OPEN_NOWk
      omega
    rw [if_neg hne, if_neg fun e : d = c => hword (e ▸ rfl)]

/-- What OPEN_SET and OPEN_CLEAR answer: the bit is written and a lap is marked, or its mark taken back. -/
theorem openWrite {s : State} (h : Settled s) (c : Nat) (v : Bool) {f : State → State} (hf : ∀ u, ∃ r, f u = { u with red := r }) :
    ∃ t, done (f (setMaskBit (AFE_OPEN_NOWk 0) c v s)) = .next t ∧ isOpen t c = v ∧
      (∀ d, d ≠ c → isOpen t d = isOpen s d) ∧ t.afe = s.afe := by
  obtain ⟨r, hr⟩ := hf (setMaskBit (AFE_OPEN_NOWk 0) c v s)
  have hopen : ∀ d, isOpen (f (setMaskBit (AFE_OPEN_NOWk 0) c v s)) d = if d = c then v else isOpen s d := by
    intro d
    rw [hr]
    exact isOpen_setMaskBit c d v s
  refine ⟨_, done_settled_next ?_, by simp [hopen], fun d hd => by simp [hopen, hd], by rw [hr]; rfl⟩
  rw [hr]
  exact h

/-! ### Banks -/

@[simp] theorem bankOf_setBank_same (b : Nat) (x : Bank) (s : State) : bankOf (setBank b x s) b = x := tget_tput_same _ _ b x

theorem bankOf_of_afe {s t : State} (h : t.afe = s.afe) (b : Nat) : bankOf t b = bankOf s b := by rw [bankOf, bankOf, h]

/-- A driver change that is not a restart: a tripped driver stays as it is; another moves, to OFF where `off` says so, and keeps the
laps of its plug window. -/
theorem startChange_cases (b : Nat) (off : Bool) (s : State) :
    (excState s b = 4 ∧ startChange b off false s = s) ∨
    (excState s b ≠ 4 ∧ ∃ x neg, startChange b off false s = setFlag (setExcState b 1 (setBank b x s)) (AFE_BANKb_STATUS.REV_POL b) neg ∧
      x.plugStl = (bankOf s b).plugStl ∧ (off = true → x.mode = 0)) := by
  unfold startChange
  split
  next h => exact .inl ⟨by simpa using h, rfl⟩
  next h => exact .inr ⟨by simpa using h, _, _, rfl, rfl, fun e => by simp [e]⟩

/-- A one-bit field keeps its value when a field beside it in its register is written. -/
theorem flag_setFld_beside (s : State) {r lo lo' w : Nat} (v : Nat) (h : lo < 32) (h' : lo' + w ≤ 32) (hd : lo < lo' ∨ lo' + w ≤ lo) :
    flag (setFld s ⟨r, lo', w⟩ v) ⟨r, lo, 1⟩ = flag s ⟨r, lo, 1⟩ := by
  rw [flag, fld_setFld_beside s ⟨r, lo, 1⟩ ⟨r, lo', w⟩ v rfl h h' hd]
  rfl

/-- A driver change writes no register but the bank's status word. -/
theorem rd_startChange (b : Nat) (off : Bool) (s : State) {a : Nat} (h : a ≠ AFE_BANKb_STATUS b) : rd (startChange b off false s) a = rd s a := by
  obtain ⟨-, e⟩ | ⟨-, x, neg, e, -, -⟩ := startChange_cases b off s
  · rw [e]
  · rw [e, setFlag, rd_setFld_other _ _ _ _ h, setExcState, rd_setFld_other _ _ _ _ h]
    rfl

/-- It leaves PLUGGED of that word as it was. -/
theorem plugged_startChange (b : Nat) (off : Bool) (s : State) :
    flag (startChange b off false s) (AFE_BANKb_STATUS.PLUGGED b) = flag s (AFE_BANKb_STATUS.PLUGGED b) := by
  obtain ⟨-, e⟩ | ⟨-, x, neg, e, -, -⟩ := startChange_cases b off s
  · rw [e]
  · rw [e, setFlag, flag_setFld_beside _ _ (by omega) (by omega) (by omega), setExcState,
      flag_setFld_beside _ _ (by omega) (by omega) (by omega)]
    rfl

theorem fab_startChange (b : Nat) (off : Bool) (s : State) : (startChange b off false s).fab = s.fab := by
  obtain ⟨-, e⟩ | ⟨-, x, neg, e, -, -⟩ := startChange_cases b off s
  · rw [e]
  · rw [e]
    rfl

/-- The bank's record once a driver change has begun. -/
theorem bankOf_started (b st : Nat) (x : Bank) (f : Fld) (neg : Bool) (s : State) :
    bankOf (setFlag (setExcState b st (setBank b x s)) f neg) b = x := bankOf_setBank_same b x s

theorem plugStl_startChange (b : Nat) (off : Bool) (s : State) : (bankOf (startChange b off false s) b).plugStl = (bankOf s b).plugStl := by
  obtain ⟨-, e⟩ | ⟨-, x, neg, e, hstl, -⟩ := startChange_cases b off s
  · rw [e]
  · rw [e, bankOf_started, hstl]

/-- A driver that is not tripped and is told to go to OFF ramps, with the mode of OFF. -/
theorem startChange_off (b : Nat) (s : State) (h : excState s b ≠ 4) :
    excState (startChange b true false s) b = 1 ∧ (bankOf (startChange b true false s) b).mode = 0 := by
  obtain ⟨h4, -⟩ | ⟨-, x, neg, e, -, hmode⟩ := startChange_cases b true s
  · exact absurd h4 h
  · have hstate : ∀ u, excState (setFlag (setExcState b 1 u) (AFE_BANKb_STATUS.REV_POL b) neg) b = 1 := fun u => by
      rw [excState, setFlag, fld_setFld_beside _ (AFE_BANKb_STATUS.EXC_STATE b) (AFE_BANKb_STATUS.REV_POL b) _ rfl (by simp) (by simp)
        (by simp), setExcState, fld_setFld_same _ _ _ (by simp)]
      rfl
    rw [e, bankOf_started]
    exact ⟨hstate _, hmode rfl⟩

/-! ### Plug detection (R102 to R104) -/

theorem unplugged_eq (s : State) {b : Nat} (hb : b < 16) : unplugged s b = (rd s AFE_PLUG_STATUS).getLsbD b := by
  simp [unplugged, nbit, fld, testBit_fget, hb]

theorem setPlug_eq (b : Nat) (out : Bool) (s : State) : ∃ x, setPlug b out s = setBank b x
    (setFlag (setFld (setFld s ⟨AFE_PLUG_STATUS, b, 1⟩ (bit out)) ⟨AFE_PLUG_STATUS, 16 + b, 1⟩ 1) (AFE_BANKb_STATUS.PLUGGED b) (!out)) :=
  ⟨_, rfl⟩

@[simp] theorem rd_setBank (b : Nat) (x : Bank) (s : State) (a : Nat) : rd (setBank b x s) a = rd s a := rfl

@[simp] theorem flag_setBank (b : Nat) (x : Bank) (s : State) (f : Fld) : flag (setBank b x s) f = flag s f := rfl

theorem flag_of_rd {s t : State} {f : Fld} (h : rd t f.reg = rd s f.reg) : flag t f = flag s f := by rw [flag, flag, fld, fld, h]

theorem rd_setPlug (b : Nat) (out : Bool) (s : State) {a : Nat} (h : a ≠ AFE_PLUG_STATUS) (h' : a ≠ AFE_BANKb_STATUS b) :
    rd (setPlug b out s) a = rd s a := by
  obtain ⟨x, e⟩ := setPlug_eq b out s
  rw [e, rd_setBank, setFlag, rd_setFld_other _ _ _ _ h', rd_setFld_other _ _ _ _ h, rd_setFld_other _ _ _ _ h]

theorem plugStatus_setPlug {b : Nat} (hb : b < 16) (out : Bool) (s : State) :
    unplugged (setPlug b out s) b = out ∧ flag (setPlug b out s) ⟨AFE_PLUG_STATUS, 16 + b, 1⟩ = true ∧
      flag (setPlug b out s) (AFE_BANKb_STATUS.PLUGGED b) = !out := by
  have hne : AFE_PLUG_STATUS ≠ AFE_BANKb_STATUS b := by
    unfold AFE_PLUG_STATUS AFE_BANKb_STATUS
    omega
  obtain ⟨x, e⟩ := setPlug_eq b out s
  have hword : rd (setPlug b out s) AFE_PLUG_STATUS =
      fset (fset (rd s AFE_PLUG_STATUS) b 1 (bit out)) (16 + b) 1 1 := by
    rw [e, rd_setBank, setFlag, rd_setFld_other _ _ _ _ hne, setFld, rd_wr_same, setFld, rd_wr_same]
  refine ⟨?_, ?_, by rw [e, flag_setBank, flag_setFlag_same _ _ _ rfl (by simp)]⟩
  · rw [unplugged_eq _ hb, hword, getLsb_fset _ _ _ _ _ (by omega), if_neg (by omega), getLsb_fset _ _ _ _ _ (by omega),
      if_pos (by omega), Nat.sub_self]
    cases out <;> rfl
  · rw [flag, fld, hword, fget_fset_same _ _ _ _ (by omega)]
    rfl

theorem excState_setPlug {b : Nat} (hb : b < 16) (out : Bool) (s : State) : excState (setPlug b out s) b = excState s b := by
  have hne : AFE_BANKb_STATUS b ≠ AFE_PLUG_STATUS := by
    unfold AFE_PLUG_STATUS AFE_BANKb_STATUS
    omega
  obtain ⟨x, e⟩ := setPlug_eq b out s
  calc excState (setPlug b out s) b
      = fld (setFld (setFld (setFld s ⟨AFE_PLUG_STATUS, b, 1⟩ (bit out)) ⟨AFE_PLUG_STATUS, 16 + b, 1⟩ 1)
          (AFE_BANKb_STATUS.PLUGGED b) (bit !out)) (AFE_BANKb_STATUS.EXC_STATE b) := by rw [e]; rfl
    _ = excState s b := by
      rw [fld_setFld_beside _ (AFE_BANKb_STATUS.EXC_STATE b) (AFE_BANKb_STATUS.PLUGGED b) _ rfl (by simp) (by simp) (by simp),
        fld_setFld_reg _ _ _ _ hne, fld_setFld_reg _ _ _ _ hne, excState]

/-- What holds at the end of a command that confirms a change of plug state, posts its event and moves the driver or not: `u` stands for
the state before the events take effect. -/
theorem plug_confirmed {b n : Nat} (hb : b < 16) (hn : n < 256) {out : Bool} {s u : State}
    (hrd : ∀ a, a ≠ AFE_BANKb_STATUS b → rd u a = rd (setPlug b out s) a)
    (hflag : flag u (AFE_BANKb_STATUS.PLUGGED b) = flag (setPlug b out s) (AFE_BANKb_STATUS.PLUGGED b)) (hraised : n ∈ u.fab.raised) :
    unplugged (settle u) b = out ∧ flag (settle u) ⟨AFE_PLUG_STATUS, 16 + b, 1⟩ = true ∧
      flag (settle u) (AFE_BANKb_STATUS.PLUGGED b) = !out ∧ Posted n s (settle u) ∧
      ∀ a, OutsideLdg a → a ≠ AFE_PLUG_STATUS → a ≠ AFE_BANKb_STATUS b → rd (settle u) a = rd s a := by
  have hstatus : OutsideLdg (AFE_BANKb_STATUS b) := outsideLdg_of (by unfold AFE_BANKb_STATUS; omega)
  have hne : AFE_PLUG_STATUS ≠ AFE_BANKb_STATUS b := by
    unfold AFE_PLUG_STATUS AFE_BANKb_STATUS
    omega
  have hplug : rd (settle u) AFE_PLUG_STATUS = rd (setPlug b out s) AFE_PLUG_STATUS :=
    (rd_settle u AFE_PLUG_STATUS rfl).trans (hrd _ hne)
  obtain ⟨hout, hchanged, hplugged⟩ := plugStatus_setPlug hb out s
  refine ⟨?_, ?_, ?_, settle_posted_of n hn hraised fun c hc => ?_, fun a hl h1 h2 => ?_⟩
  · rw [unplugged_eq _ hb, hplug, ← unplugged_eq _ hb, hout]
  · rw [flag, fld, hplug]
    exact hchanged
  · rw [flag_settle _ _ hstatus, hflag, hplugged]
  · rw [hrd, rd_setPlug]
    all_goals simp only [TOP_COREn_WATCHk, AFE_PLUG_STATUS, AFE_BANKb_STATUS]; omega
  · rw [rd_settle _ _ hl, hrd a h2, rd_setPlug b out s h1 h2]

@[simp] theorem bankOf_settle (s : State) (b : Nat) : bankOf (settle s) b = bankOf s b := bankOf_of_afe (by simp) b

@[simp] theorem excState_settle (s : State) (b : Fin 16) : excState (settle s) b = excState s b :=
  fld_settle s _ (outsideLdg_of (by simp only; omega))

/-- The driver change that may follow a confirmed change of plug state, in the form that `plug_confirmed` takes. -/
theorem plug_driver (b n : Nat) (off c : Bool) (out : Bool) {s v : State} (hrd : ∀ a, rd v a = rd (setPlug b out s) a) (hn : n ∈ v.fab.raised) :
    (∀ a, a ≠ AFE_BANKb_STATUS b → rd (if c then startChange b off false v else v) a = rd (setPlug b out s) a) ∧
      flag (if c then startChange b off false v else v) (AFE_BANKb_STATUS.PLUGGED b) = flag (setPlug b out s) (AFE_BANKb_STATUS.PLUGGED b) ∧
      n ∈ (if c then startChange b off false v else v).fab.raised := by
  have hflag : flag v (AFE_BANKb_STATUS.PLUGGED b) = flag (setPlug b out s) (AFE_BANKb_STATUS.PLUGGED b) := by rw [flag, fld, hrd]; rfl
  cases c
  · exact ⟨fun a _ => hrd a, hflag, hn⟩
  · exact ⟨fun a ha => (rd_startChange b off v ha).trans (hrd a), (plugged_startChange b off v).trans hflag,
      by rw [if_pos rfl, fab_startChange]; exact hn⟩

/-- A confirmed unplug (R103). -/
theorem plugOut {s : State} {b : Fin 16} (hdue : plugDue s b = true) (hplug : unplugged s b = false) : ∃ t, exec (.afePlugOut b) s = .next t ∧
    unplugged t b = true ∧ flag t ⟨AFE_PLUG_STATUS, 16 + b, 1⟩ = true ∧ flag t (AFE_BANKb_STATUS.PLUGGED b) = false ∧ Posted 144 s t ∧
    rd t (AFE_BANKb_EXC_ACTIVE b) = rd s (AFE_BANKb_EXC_ACTIVE b) ∧
    (flag s (AFE_BANKb_PLUG.EXC_OFF b) = true → anaUp s = true → excState s b ≠ 4 → excState t b = 1 ∧ (bankOf t b).mode = 0) := by
  let v := raise 144 (setPlug b true s)
  have hv : ∀ a, rd v a = rd (setPlug b true s) a := fun a => by simp [v]
  have hoff : flag v (AFE_BANKb_PLUG.EXC_OFF b) = flag s (AFE_BANKb_PLUG.EXC_OFF b) :=
    flag_of_rd ((hv _).trans (rd_setPlug b true s (by simp only [AFE_PLUG_STATUS]; omega) (by simp only [AFE_BANKb_STATUS]; omega)))
  have hup : anaUp v = anaUp s :=
    flag_of_rd ((hv _).trans (rd_setPlug b true s (by decide) (by simp only [AFE_BANKb_STATUS]; omega)))
  have hexc : excState v b = excState s b := by
    rw [← excState_setPlug b.isLt true s, excState, fld, hv]
    rfl
  have hstep : exec (.afePlugOut b) s = .next (settle (if flag v (AFE_BANKb_PLUG.EXC_OFF b) && anaUp v then startChange b true false v else v)) :=
    if_pos (by simp [hdue, hplug])
  obtain ⟨hrd, hflag, hraised⟩ := plug_driver b 144 true (flag v (AFE_BANKb_PLUG.EXC_OFF b) && anaUp v) true hv (mem_raise 144 _)
  obtain ⟨hout, hchanged, hplugged, hposted, hrest⟩ := plug_confirmed b.isLt (by decide) hrd hflag hraised
  refine ⟨_, hstep, hout, hchanged, hplugged, hposted, hrest _ (outsideLdg_of ?_) ?_ ?_, fun h1 h2 h4 => ?_⟩
  case refine_4 =>
    rw [hoff, h1, hup, h2, excState_settle, bankOf_settle]
    exact startChange_off b v (hexc ▸ h4)
  all_goals simp only [AFE_BANKb_EXC_ACTIVE, AFE_PLUG_STATUS, AFE_BANKb_STATUS]; omega

/-- A confirmed re-plug (R104). -/
theorem plugIn {s : State} {b : Fin 16} (hdue : plugDue s b = true) (hplug : unplugged s b = true) : ∃ t, exec (.afePlugIn b) s = .next t ∧
    unplugged t b = false ∧ flag t ⟨AFE_PLUG_STATUS, 16 + b, 1⟩ = true ∧ flag t (AFE_BANKb_STATUS.PLUGGED b) = true ∧ Posted 145 s t ∧
    fld s (AFE_BANKb_PLUG.SETTLE b) * 1024 ≤ (bankOf t b).plugStl := by
  let u := raise 145 (setPlug b false s)
  let v := setBank b { bankOf u b with plugStl := max (bankOf u b).plugStl (fld u (AFE_BANKb_PLUG.SETTLE b) * 1024), plugClear := false } u
  let moves := flag v (AFE_BANKb_PLUG.EXC_OFF b) && anaUp v && !heldOff v b
  have hv : ∀ a, rd v a = rd (setPlug b false s) a := fun a => by simp [v, u]
  have hsettle : fld u (AFE_BANKb_PLUG.SETTLE b) = fld s (AFE_BANKb_PLUG.SETTLE b) :=
    congrArg (fget · 0 12) ((hv _).trans (rd_setPlug b false s (by simp only [AFE_PLUG_STATUS]; omega) (by simp only [AFE_BANKb_STATUS]; omega)))
  have hstep : exec (.afePlugIn b) s = .next (settle (if moves then startChange b false false v else v)) :=
    if_pos (by simp [hdue, hplug])
  have hstl : (bankOf (if moves then startChange b false false v else v) b).plugStl = (bankOf v b).plugStl := by
    cases moves
    · rfl
    · exact plugStl_startChange b false v
  obtain ⟨hrd, hflag, hraised⟩ := plug_driver b 145 false moves false hv (mem_raise 145 (setPlug b false s))
  obtain ⟨hout, hchanged, hplugged, hposted, -⟩ := plug_confirmed b.isLt (by decide) hrd hflag hraised
  refine ⟨_, hstep, hout, hchanged, hplugged, hposted, ?_⟩
  rw [bankOf_settle, hstl, ← hsettle, bankOf_setBank_same]
  exact le_max_right _ _

/-- Clearing EN of an unplugged bank (R102). -/
theorem plugEnClear {s : State} {b : Fin 16} (hset : Settled s) (hlock : flag s AFE_CTRL.LOCK = false)
    (hen : flag s (AFE_BANKb_PLUG.EN b) = true) (hplug : unplugged s b = true) : ∃ t, exec (.plugEnClear b) s = .next t ∧
    flag t (AFE_BANKb_PLUG.EN b) = false ∧ (bankOf t b).plugClear = true ∧ unplugged t b = true ∧
    ∀ a, a ≠ AFE_BANKb_PLUG b → rd t a = rd s a := by
  let u := setFlag s (AFE_BANKb_PLUG.EN b) false
  have hstep : exec (.plugEnClear b) s = done (setBank b { bankOf u b with plugClear := true } u) :=
    (if_neg (by simp [hlock])).trans (congrArg done (if_pos (by simp [hen, hplug])))
  have hrd : ∀ a, a ≠ AFE_BANKb_PLUG b → rd u a = rd s a := fun a h => rd_setFld_other _ _ _ _ h
  refine ⟨_, hstep.trans (done_settled_next hset), flag_setFlag_same s _ false rfl (by simp), by rw [bankOf_setBank_same], ?_, hrd⟩
  rw [unplugged_eq _ b.isLt, rd_setBank, hrd _ (by simp only [AFE_PLUG_STATUS, AFE_BANKb_PLUG]; omega), ← unplugged_eq _ b.isLt, hplug]

/-- Settles O20: OPEN by `openWrite`, the plug states by `plugOut`, `plugIn` and `plugEnClear`; the other writes touch one part each. -/
theorem openWindowAndPlug : Obligations.OpenWindowAndPlug := by
  refine ⟨fun s c h hbo hopen hrun => ?_, fun s c h hopen hrun => ?_, fun s b hys v h => ⟨fun hlock hw => ?_, fun hno => ?_⟩,
    fun s b high h hawake hpin => ?_, fun s b hdue hplug => plugOut hdue hplug, fun s b hdue hplug => plugIn hdue hplug,
    fun s b h hlock hen hplug => plugEnClear h hlock hen hplug⟩
  · obtain ⟨t, ht, hc, hd, hafe⟩ := openWrite h c true (mark_only c 4 (s.twin.usedTo - 1))
    exact ⟨t, (if_pos (by simp [hbo, hopen, hrun])).trans ht, hc, fun d _ => hd d, hafe⟩
  · obtain ⟨t, ht, hc, hd, hafe⟩ := openWrite h c false (unmark_only c 4 (s.twin.usedTo - 1))
    exact ⟨t, (if_pos (by simp [hopen, hrun])).trans ht, hc, fun d _ => hd d, hafe⟩
  · exact ⟨_, (if_neg (by simpa [hlock] using hw)).trans (done_settled_next h), rfl, bankOf_setBank_same .., rfl⟩
  · exact (if_pos (by simpa using hno)).trans (done_settled_next h)
  · exact ⟨_, (if_neg (by simp [hawake, hpin])).trans (done_settled_next h), bankOf_setBank_same .., rfl⟩

end Sys2Proof.Machine

namespace Sys2Proof.Machine
open Sys2Proof

/-! ### Stages of a boundary and the parts that they leave alone -/

/-- The test by which an operation may touch every part of the state but `k`. -/
def allBut (k c : Comp) : Bool := decide (c ≠ k)

theorem same_of_allBut {k : Comp} {s t : State} (h : Ok (allBut k) s t) : same k s t := h.2 k (by simp [allBut])

theorem pacer_of_ok {s t : State} (h : Ok (allBut .tbs) s t) : t.tbs.pacer = s.tbs.pacer := congrArg Tbs.pacer (same_of_allBut h)

/-- A fold whose every step keeps `p` keeps it. -/
theorem foldl_keeps {α β : Type} (p : State → α) {f : State → β → State} (hf : ∀ s x, p (f s x) = p s) (l : List β) (s : State) :
    p (l.foldl f s) = p s := by
  induction l generalizing s with
  | nil => rfl
  | cons x l ih => exact (ih _).trans (hf s x)

/-! ### Line time at a boundary (R37) -/

theorem pacer_tallyEdge (k f : Nat) (t : Int) (a b a' b' : Bool) (s : State) (n : Nat) :
    (tallyEdge k f t a b a' b' s n).tbs.pacer = s.tbs.pacer := by
  unfold tallyEdge
  split
  · split
    · rfl
    · split <;> rfl
  · rfl

theorem pacer_passLevels (k f at1 : Nat) (a b : Bool) (s : State) : (passLevels k f at1 a b s).tbs.pacer = s.tbs.pacer :=
  foldl_keeps (·.tbs.pacer) (pacer_tallyEdge k f _ _ _ a b) _ _

theorem pacer_filterPass (k f : Nat) (s : State) : (filterPass k f s).tbs.pacer = s.tbs.pacer := by
  unfold filterPass
  dsimp only
  split
  · exact pacer_passLevels ..
  · split
    · split
      · rw [pacer_passLevels, pacer_passLevels]
      · exact pacer_passLevels ..
    · split
      · split
        · rw [pacer_passLevels, pacer_passLevels]
        · exact pacer_passLevels ..
      · rfl

theorem pacer_filtersPass (s : State) : (filtersPass s).tbs.pacer = s.tbs.pacer := by
  unfold filtersPass
  exact foldl_keeps (·.tbs.pacer) (fun s k => foldl_keeps (·.tbs.pacer) (fun s f => pacer_filterPass k f s) _ s) _ s

theorem pacer_tallyBoundary (s : State) (n : Nat) : (tallyBoundary s n).tbs.pacer = s.tbs.pacer := by
  unfold tallyBoundary
  dsimp only
  split <;> simp [markStep]

/-- The Pacer at a boundary: line time is the start of the next lap. -/
theorem pacer_pacerBoundary (s : State) :
    (pacerBoundary s).tbs.pacer.time = lapStart (lap s + 1) ∧ (pacerBoundary s).tbs.pacer.ofs = 0 := by
  unfold pacerBoundary judgeAlarm
  simp [lap]

theorem pacer_tbsBoundary (s : State) :
    (tbsBoundary s).tbs.pacer.time = lapStart (lap s + 1) ∧ (tbsBoundary s).tbs.pacer.ofs = 0 := by
  have hkeep : ∀ u, ((List.range 4).foldl tallyBoundary (filtersPass u)).tbs.pacer = u.tbs.pacer := fun u =>
    (foldl_keeps (·.tbs.pacer) pacer_tallyBoundary _ _).trans (pacer_filtersPass u)
  unfold tbsBoundary
  simp only [setMains_tbs, hkeep]
  exact pacer_pacerBoundary _

/-! ### The parts of a boundary of the lap domain -/

theorem pacer_ownArrives (frame : Option D2DFrame) (s : State) : (ownArrives frame s).tbs.pacer = s.tbs.pacer := by
  have named : true = true := rfl
  have hmains : ∀ d u, (mainsTake d u).tbs.pacer = u.tbs.pacer := fun d u => by
    unfold mainsTake
    split <;> rfl
  refine (pacer_of_ok (keepOwn_ok .start)).trans ((hmains _ _).trans ?_)
  exact pacer_of_ok (clampSeen_ok (calibrate_ok .start (gotLap_ok (showLap_ok .start))))

theorem pacer_closeLap (s : State) : (closeLap s).tbs.pacer = s.tbs.pacer := by
  have named : true = true := rfl
  refine (pacer_of_ok (takeDueLap_ok .start)).trans ?_
  split
  · rfl
  · exact pacer_ownArrives none s

theorem pacer_slKeepSteps (s : State) : (slKeepSteps s).tbs.pacer = s.tbs.pacer := by
  refine foldl_keeps (·.tbs.pacer) (fun s n => ?_) _ s
  split
  · dsimp only
    split
    · split
      · split <;> rfl
      · split <;> rfl
    · rfl
  · rfl

theorem pacer_gopKeepSteps (s : State) : (gopKeepSteps s).tbs.pacer = s.tbs.pacer := by
  unfold gopKeepSteps
  dsimp only
  split <;> rfl

theorem pacer_slFlush (k : Nat) (s : State) : (slFlush k s).tbs.pacer = s.tbs.pacer := by
  induction k generalizing s with
  | zero => rfl
  | succ k ih =>
    unfold slFlush
    split
    · split
      · split
        · refine (ih _).trans ((pacer_of_ok (slAfter_ok (slLog_ok .start))).trans ?_)
          rw [setSl_tbs]
        · rfl
      · rfl
    · rfl

theorem pacer_slBoundary (s : State) : (slBoundary s).tbs.pacer = s.tbs.pacer := by
  have hslip : ∀ u, (slSlip u).tbs.pacer = u.tbs.pacer := fun u => by
    unfold slSlip
    dsimp only
    split <;> simp
  exact (pacer_slFlush 16 _).trans (hslip _)

/-- Line time at the boundary that a lap domain, or a die whose lap domain holds, has come to. -/
def AtLap (n : Nat) (s : State) : Prop := s.tbs.pacer.time = lapStart n ∧ s.tbs.pacer.ofs = 0

theorem AtLap.of_pacer {n : Nat} {s t : State} (h : AtLap n s) (hp : t.tbs.pacer = s.tbs.pacer) : AtLap n t := by
  rw [AtLap, hp]
  exact h

theorem AtLap.lap_eq {n : Nat} {s : State} (h : AtLap n s) : lap s = n := by
  rw [lap, h.1, lapOf_lapStart]

theorem atLap_tbsBoundary {s t : State} (h : t.tbs.pacer = s.tbs.pacer) : AtLap (lap s + 1) (tbsBoundary t) := by
  have e : lap t = lap s := by rw [lap, lap, h]
  rw [← e]
  exact pacer_tbsBoundary t

/-- A boundary of the lap domain is one lap on, and counts one boundary. -/
theorem lapDomainBoundary_time (inp : LapIn) (s : State) :
    AtLap (lap s + 1) (lapDomainBoundary inp s) ∧ (lapDomainBoundary inp s).bnd = s.bnd + 1 := by
  have named : true = true := rfl
  let s0 := noteRecordLap (noteLap (gopKeepSteps (slKeepSteps (mirrorEdges (closeLap s)))))
  let s1 := noteBefore s0
  let s2 := setOut { s1.out with digest := digestLater s1, setBy := [] } { s1 with bnd := s1.bnd + 1 }
  have hpacer : s2.tbs.pacer = s.tbs.pacer :=
    calc s2.tbs.pacer = s0.tbs.pacer := rfl
      _ = (gopKeepSteps (slKeepSteps (mirrorEdges (closeLap s)))).tbs.pacer := pacer_of_ok (noteRecordLap_ok (noteLap_ok .start))
      _ = (mirrorEdges (closeLap s)).tbs.pacer := (pacer_gopKeepSteps _).trans (pacer_slKeepSteps _)
      _ = s.tbs.pacer := (pacer_of_ok (mirrorEdges_ok .start)).trans (pacer_closeLap s)
  have hbefore : s2.bnd = s.bnd + 1 := congrArg (· + 1) (same_of_allBut (k := .bnd)
    (noteBefore_ok (noteRecordLap_ok (noteLap_ok (gopKeepSteps_ok (slKeepSteps_ok (mirrorEdges_ok (closeLap_ok .start))))))))
  constructor
  · refine (atLap_tbsBoundary hpacer).of_pacer ?_
    refine (pacer_of_ok (carrierBoundary_ok .start)).trans ((pacer_slBoundary _).trans ?_)
    exact pacer_of_ok (ctlBoundary_ok (acqBoundary_ok (count_ok (redCmdBoundary_ok (gridBoundary_ok (analogBoundary_ok
      (powerBoundary_ok (outSoftware_ok (applyWrites_ok (twinBoundary_ok .start))))))))))
  · refine Eq.trans (same_of_allBut (k := .bnd) ?_) hbefore
    exact carrierBoundary_ok (slBoundary_ok (ctlBoundary_ok (acqBoundary_ok (count_ok (redCmdBoundary_ok (gridBoundary_ok
      (analogBoundary_ok (powerBoundary_ok (outSoftware_ok (applyWrites_ok (twinBoundary_ok (tbsBoundary_ok .start))))))))))))

/-- A lap in which the lap domain holds is one lap on, and counts no boundary. -/
theorem holdBoundary_time (inp : LapIn) (s : State) : AtLap (lap s + 1) (holdBoundary inp s) ∧ (holdBoundary inp s).bnd = s.bnd := by
  have named : true = true := rfl
  constructor
  · have hpacer : (noteLap (closeLap s)).tbs.pacer = s.tbs.pacer := (pacer_of_ok (noteLap_ok .start)).trans (pacer_closeLap s)
    refine (atLap_tbsBoundary hpacer).of_pacer ?_
    exact pacer_of_ok (carrierBoundary_ok (count_ok (analogBoundary_ok (powerBoundary_ok (applyWrites_ok (twinBoundary_ok (setTwin_ok .start)))))))
  · exact same_of_allBut (k := .bnd) (holdBoundary_ok .start)

/-- The always-on timer alone counts before a lap boundary. -/
theorem aonLap_keeps (s : State) : ((aonLap s).pwr.held = s.pwr.held ∧ ∀ a, a ≠ TOP_AON_TIMER → rd (aonLap s) a = rd s a) := by
  unfold aonLap
  dsimp only
  split
  · exact ⟨rfl, fun _ _ => rfl⟩
  · split
    · exact ⟨rfl, fun a h => rd_wr_other s _ h⟩
    · exact ⟨rfl, fun _ _ => rfl⟩

theorem aonLap_same (s : State) {k : Comp} (h : k ≠ .pwr) : same k s (aonLap s) :=
  (aonLap_ok (kp := fun c => decide (c = .pwr)) .start rfl).2 k (decide_eq_false h)

theorem powerState_aonLap (s : State) : powerState (aonLap s) = powerState s :=
  congrArg (fget · _ _) ((aonLap_keeps s).2 _ (by decide))

theorem lap_aonLap (s : State) : lap (aonLap s) = lap s := by
  have htbs : (aonLap s).tbs = s.tbs := aonLap_same s (k := .tbs) (by decide)
  rw [lap, lap, htbs]

/-- LAP_BOUNDARY while the clocks run: one lap on, and one boundary unless the lap domain holds. -/
theorem lapBoundary_awake (s : State) (inp : LapIn) (hheld : s.pwr.held = false) (hpower : powerState s < 2) :
    ∃ t, exec (.lapBoundary inp) s = .next t ∧ t.bnd = (if s.twin.hold = 0 then s.bnd + 1 else s.bnd) ∧
      t.tbs.pacer.time = lapStart (lap s + 1) ∧ t.tbs.pacer.ofs = 0 ∧ lap t = lap s + 1 := by
  have hbnd : (aonLap s).bnd = s.bnd := aonLap_same s (k := .bnd) (by decide)
  have htwin : (aonLap s).twin = s.twin := aonLap_same s (k := .twin) (by decide)
  have hnotDark : ¬ ((aonLap s).pwr.held = true ∨ powerState (aonLap s) = 3) := by
    simp only [(aonLap_keeps s).1, powerState_aonLap, hheld, Bool.false_eq_true, false_or]
    omega
  have hnotRest : ¬ powerState (aonLap s) = 2 := by
    rw [powerState_aonLap]
    omega
  have hstep : exec (.lapBoundary inp) s =
      if (aonLap s).twin.hold = 0 then done (lapDomainBoundary inp (aonLap s)) else done (holdBoundary inp (aonLap s)) :=
    (if_neg hnotDark).trans (if_neg hnotRest)
  rw [htwin] at hstep
  have hnext : ∀ u, AtLap (lap s + 1) u → (settle u).tbs.pacer.time = lapStart (lap s + 1) ∧ (settle u).tbs.pacer.ofs = 0 ∧
      lap (settle u) = lap s + 1 := fun u hu => by
    have hset : AtLap (lap s + 1) (settle u) := hu.of_pacer (by simp)
    exact ⟨hset.1, hset.2, hset.lap_eq⟩
  by_cases hhold : s.twin.hold = 0
  · obtain ⟨htime, hcount⟩ := lapDomainBoundary_time inp (aonLap s)
    rw [lap_aonLap] at htime
    rw [if_pos hhold] at hstep ⊢
    exact ⟨_, hstep, by simpa [hbnd] using hcount, hnext _ htime⟩
  · obtain ⟨htime, hcount⟩ := holdBoundary_time inp (aonLap s)
    rw [lap_aonLap] at htime
    rw [if_neg hhold] at hstep ⊢
    exact ⟨_, hstep, by simpa [hbnd] using hcount, hnext _ htime⟩

/-- The Pacer's boundary leaves the Tallies alone. -/
theorem tally_pacerBoundary (s : State) : (pacerBoundary s).tbs.tally = s.tbs.tally := by
  unfold pacerBoundary judgeAlarm
  simp

/-- LAP_BOUNDARY in REST: the Pacer goes on, and the running hours. -/
theorem lapBoundary_rest (s : State) (inp : LapIn) (hheld : s.pwr.held = false) (hpower : powerState s = 2) :
    ∃ t, exec (.lapBoundary inp) s = .next t ∧ t.bnd = s.bnd + 1 ∧ t.tbs.pacer.time = lapStart (lap s + 1) ∧
      t.tbs.tally = s.tbs.tally ∧ ∀ k, k ≠ .bnd → k ≠ .tbs → k ≠ .pwr → same k s t := by
  have hnotDark : ¬ ((aonLap s).pwr.held = true ∨ powerState (aonLap s) = 3) := by
    simp [(aonLap_keeps s).1, powerState_aonLap, hheld, hpower]
  let u : State := { aonLap s with bnd := (aonLap s).bnd + 1 }
  have hstep : exec (.lapBoundary inp) s = .next (settle (hoursLap (pacerBoundary u))) :=
    (if_neg hnotDark).trans (if_pos ((powerState_aonLap s).trans hpower))
  have hrest : Ok (fun c => decide (c = .bnd) || decide (c = .tbs) || decide (c = .pwr)) s (settle (hoursLap (pacerBoundary u))) :=
    settle_ok (hoursLap_ok (pacerBoundary_ok (ok_mk (aonLap_ok .start rfl) (by simp)) rfl) rfl)
  have hpacer : (settle (hoursLap (pacerBoundary u))).tbs = (pacerBoundary u).tbs :=
    same_of_allBut (k := .tbs) (settle_ok (hoursLap_ok .start rfl))
  refine ⟨_, hstep, ?_, ?_, ?_, fun k hb ht hp => ?_⟩
  · exact (same_of_allBut (k := .bnd) (settle_ok (hoursLap_ok (pacerBoundary_ok .start rfl) rfl))).trans
      (congrArg (· + 1) (aonLap_same s (k := .bnd) (by decide)))
  · rw [hpacer, (pacer_pacerBoundary u).1]
    exact congrArg (fun n => lapStart (n + 1)) (lap_aonLap s)
  · rw [hpacer, tally_pacerBoundary]
    exact congrArg Tbs.tally (aonLap_same s (k := .tbs) (by decide))
  · exact hrest.2 k (by simp [hb, ht, hp])

/-- LAP_BOUNDARY of a die whose clocks stand: the always-on timer alone goes on. -/
theorem lapBoundary_dark (s : State) (inp : LapIn) (h : s.pwr.held = true ∨ powerState s = 3) :
    ∃ t, exec (.lapBoundary inp) s = .next t ∧ t.bnd = s.bnd ∧ t.tbs = { s.tbs with pacer := { s.tbs.pacer with ofs := 0 } } ∧
      t.mem = s.mem ∧ t.cores = s.cores ∧ RegsOutside TOP_AON_TIMER TOP_AON_TIMER.succ s t := by
  have hdark : (aonLap s).pwr.held = true ∨ powerState (aonLap s) = 3 := by rwa [(aonLap_keeps s).1, powerState_aonLap]
  have hstep : exec (.lapBoundary inp) s = .next (settle (darkLap (aonLap s))) := if_pos hdark
  have hbnd : (aonLap s).bnd = s.bnd := aonLap_same s (k := .bnd) (by decide)
  have htbs : (aonLap s).tbs = s.tbs := aonLap_same s (k := .tbs) (by decide)
  have hmem : (aonLap s).mem = s.mem := congrArg Prod.fst (aonLap_same s (k := .mem) (by decide))
  have hcores : (aonLap s).cores = s.cores := aonLap_same s (k := .cores) (by decide)
  refine ⟨_, hstep, ?_, ?_, ?_, ?_, fun a ha hl => ?_⟩
  · simpa [darkLap] using hbnd
  · simp [darkLap, htbs]
  · simpa [darkLap] using hmem
  · simpa [darkLap] using hcores
  · exact (rd_settle _ a (outsideLdg_of hl)).trans ((aonLap_keeps s).2 a (by omega))

/-! ### The codes of a lap frame (R24, R115) -/

theorem chanOf_of_afe {s t : State} (h : t.afe = s.afe) (c : Nat) : chanOf t c = chanOf s c := by rw [chanOf, chanOf, h]

theorem chanOf_setChan (c d : Nat) (x : Chan) (s : State) : chanOf (setChan c x s) d = if d = c then x else chanOf s d :=
  tget_tput _ s.afe.chan c d x

/-- A change of a channel's record beside its code. -/
theorem code_setChan {c : Nat} {x : Chan} {s : State} (h : x.code = (chanOf s c).code) (d : Nat) :
    (chanOf (setChan c x s) d).code = (chanOf s d).code := by
  rw [chanOf_setChan]
  split
  next e => rw [h, e]
  next => rfl

theorem code_openCount (cat : Tab Word) (c : Nat) (code : Int) (s : State) (d : Nat) :
    (chanOf (openCount cat c code s) d).code = (chanOf s d).code := by
  unfold openCount
  dsimp only
  split
  · exact code_setChan (by rfl) d
  · split
    · rfl
    · exact code_setChan (by rfl) d

/-- Taking a lap for the record path changes no code. -/
theorem code_takeChan (cat : Tab Word) (b : Nat) (dl : DataLap) (flags : List Nat) (s : State) (c d : Nat) :
    (chanOf (takeChan cat b dl flags s c) d).code = (chanOf s d).code := by
  have named : true = true := rfl
  have hmarks : ∀ {u v : State}, Ok (allBut .afe) u v → (chanOf v d).code = (chanOf u d).code := fun h =>
    congrArg Chan.code (chanOf_of_afe (same_of_allBut h) d)
  unfold takeChan
  dsimp only
  refine (hmarks (markIf_ok (markIf_ok (markIf_ok (markIf_ok (markIf_ok (markIf_ok (markIf_ok .start)))))))).trans ?_
  split
  · exact code_openCount ..
  · exact (code_setChan (by rfl) d).trans (code_openCount ..)

/-- Storing a lap in the record path and in the rings leaves the front end alone. -/
theorem storedLap_ok {z : State} {cat : Tab Word} {l b freq : Nat} {codes skew : List Int} {dl : DataLap} {code : Nat → Int} {flags : Nat → Nat}
    {rings : List Nat} : Ok (allBut .afe) z (rings.foldl (storeLap l b code flags) ((List.range 16).foldl (takeSense b dl)
      ((List.range 256).foldl (enterChain cat l b freq codes skew) z))) := by
  have named : true = true := rfl
  exact ok_foldl (fun _ _ h => storeLap_ok h) (ok_foldl (fun _ _ h => takeSense_ok h) (ok_foldl (fun _ _ h => enterChain_ok h) .start))

theorem code_takeLap (l b : Nat) (s : State) (d : Nat) : (chanOf (takeLap l b s) d).code = (chanOf s d).code := by
  have named : true = true := rfl
  unfold takeLap
  dsimp only
  refine (congrArg Chan.code (chanOf_of_afe (same_of_allBut (k := .afe) (sourceTaken_ok (setTwin_ok ?_))) d)).trans
    (foldl_keeps (fun u => (chanOf u d).code) (fun u c => code_takeChan (catOfLap s b) b (dataFor s l) (markedFlags s (dataFor s l)) u c d)
      (List.range 256) s)
  split
  · exact ok_ite (xchkLap_ok storedLap_ok) storedLap_ok
  · exact storedLap_ok

theorem code_takeDueLap (s : State) (d : Nat) : (chanOf (takeDueLap s) d).code = (chanOf s d).code := by
  unfold takeDueLap
  split
  · exact code_takeLap ..
  · rfl

theorem lapWord_of {s t : State} (h : t.lapInfo = s.lapInfo) (a : Nat) : lapWord t a = lapWord s a := by rw [lapWord, lapWord, h]

/-- The correction of a code depends on the noted coefficients of its lap alone. -/
theorem correctCode_of {s t : State} (h : t.lapInfo = s.lapInfo) (c : Nat) (code : Int) : correctCode t c code = correctCode s c code := by
  have hw : lapWord t = lapWord s := funext fun a => lapWord_of h a
  unfold correctCode correctSlice lapSlice
  rw [hw, h]

/-- The code of a channel in a lap that is not inverted, blanked or moved by a skew, and drives no input beyond its range. -/
theorem code_chanLap (f : D2DFrame) {s : State} {c : Nat} (hneg : nbit s.lapInfo.neg c = false) (hblank : nbit s.lapInfo.blank c = false)
    (hskew : nbit s.lapInfo.skew (c / 16) = false) (hdiff : c ∉ f.overDiff) (hpin : c ∉ f.overPin) :
    (chanLap (some f) s c).1.code =
      if f.align ≠ 16 ∨ c / 4 ∈ f.ue then (chanOf s c).code else satCode (correctCode s c (f.codes.getD c 0)) := by
  have hturn : (chanTurned false (chanOf s c)).code = (chanOf s c).code := by
    unfold chanTurned
    split <;> rfl
  unfold chanLap
  simp only [hneg, hblank, hskew, Bool.false_eq_true, if_false, Bool.false_and]
  split
  · exact hturn
  · simp [convert, hdiff, hpin]

/-- The channels' records once those of a lap have been put in place from channel `k` on. -/
theorem chanOf_foldl_setChan (rs : List (Chan × Bool)) (k : Nat) (s : State) (c : Nat) :
    chanOf ((rs.zipIdx k).foldl (fun s q => setChan q.2 q.1.1 s) s) c =
      if k ≤ c then ((rs[c - k]?).map (·.1)).getD (chanOf s c) else chanOf s c := by
  induction rs generalizing k s with
  | nil => simp
  | cons x rs ih =>
    rw [List.zipIdx_cons, List.foldl_cons, ih, chanOf_setChan]
    obtain h | rfl | h := lt_trichotomy k c
    · have hidx : c - k = c - (k + 1) + 1 := by omega
      simp [show k + 1 ≤ c by omega, h.le, h.ne', hidx]
    · simp
    · simp [show ¬ k + 1 ≤ c by omega, show ¬ k ≤ c by omega, h.ne]

theorem chanOf_showLap (fr : Option D2DFrame) (s u : State) {c : Nat} (hc : c < 256) :
    chanOf (showLap fr ((List.range 256).map (chanLap fr s)) u) c = (chanLap fr s c).1 := by
  have hsense : ∀ new v q, chanOf (showSense new v q) c = chanOf v c := fun _ _ _ => rfl
  unfold showLap
  refine (foldl_keeps (chanOf · c) (hsense _) _ _).trans ?_
  rw [chanOf_foldl_setChan]
  simp [hc]

/-- The calibration's share of a lap frame touches the calibration alone. -/
theorem calibrate_keeps {k : Comp} (kCnv : allBut k .cnv = true) (fr : Option D2DFrame) (s u : State) : Ok (allBut k) u (calibrate fr s u) := by
  unfold calibrate
  split
  · have htrack : ∀ l : List (Int × Nat), Ok (allBut k) u (if calRuns u then l.foldl trackTake u else setCnv { u.cnv with track := [] } u) :=
      fun _ => ok_ite (ok_foldl (fun _ _ h => trackTake_ok h) .start) (setCnv_ok .start)
    exact ok_ite (overlapResiduals_ok (ok_foldl (fun _ _ h => pairTake_ok h) (htrack _))) (htrack _)
  · exact .start

/-- When the codes of a lap arrive they take the place of those before, and the lap has its codes. -/
theorem ownArrives_takes (fr : D2DFrame) {s : State} (hup : s.lapInfo.up = true) {c : Nat} (hc : c < 256) :
    (ownArrives (some fr) s).lapInfo.got = true ∧ chanOf (ownArrives (some fr) s) c = (chanLap (some fr) s c).1 := by
  have hrest : ∀ {k : Comp} {d : DataLap} {m : Nat} {f : Option D2DFrame} {u : State}, allBut k .cnv = true → allBut k .twin = true →
      allBut k .tbs = true → same k u (keepOwn d (mainsTake d (clampSeen m (calibrate f s u)))) := fun kCnv kTwin kTbs =>
    same_of_allBut (keepOwn_ok (mainsTake_ok (clampSeen_ok (calibrate_keeps kCnv _ s _))))
  unfold ownArrives
  rw [hup, if_pos rfl]
  constructor
  · exact congrArg LapInfo.got (hrest (k := .lapInfo) rfl rfl rfl)
  · exact (chanOf_of_afe (hrest (k := .afe) rfl rfl rfl) c).trans (chanOf_showLap (some fr) s s hc)

/-- D2D_LAP_FRAME_ARRIVAL of a frame into which nothing is injected. -/
theorem lapFrame_takes {s : State} {f : D2DFrame} {c : Nat} (hgot : s.lapInfo.got = false) (hup : s.lapInfo.up = true)
    (hinject : s.hlt.d2dInject = 0) (hc : c < 256) (hneg : nbit s.lapInfo.neg c = false) (hblank : nbit s.lapInfo.blank c = false)
    (hskew : nbit s.lapInfo.skew (c / 16) = false) (hdiff : c ∉ f.overDiff) (hpin : c ∉ f.overPin) :
    ∃ t, exec (.d2dLapFrameArrival f) s = .next t ∧ t.lapInfo.got = true ∧ (chanOf t c).code =
      if f.align ≠ 16 ∨ c / 4 ∈ f.ue then (chanOf s c).code else satCode (correctCode s c (f.codes.getD c 0)) := by
  have named : true = true := rfl
  let u := d2dErrors f.ce f.ue.eraseDups.length f.align (freshen (setHlt { s.hlt with d2dInject := 0 } s))
  have hstep : exec (.d2dLapFrameArrival f) s = .next (settle (takeDueLap (ownArrives (some f) u))) := by
    show execD2dLapFrameArrival f s = _
    unfold execD2dLapFrameArrival
    rw [hgot, hup, hinject]
    rfl
  have hlapInfo : u.lapInfo = s.lapInfo := same_of_allBut (k := .lapInfo) (d2dErrors_ok (freshen_ok (setHlt_ok .start)))
  have hafe : u.afe = s.afe := same_of_allBut (k := .afe) (d2dErrors_ok (freshen_ok (setHlt_ok .start)))
  obtain ⟨hnow, hchan⟩ := ownArrives_takes f (s := u) (hlapInfo ▸ hup) hc
  refine ⟨_, hstep, ?_, ?_⟩
  · have hkeep : (takeDueLap (ownArrives (some f) u)).lapInfo = (ownArrives (some f) u).lapInfo :=
      same_of_allBut (k := .lapInfo) (takeDueLap_ok .start)
    simpa [hkeep] using hnow
  · have hsettle : ∀ v, chanOf (settle v) c = chanOf v c := fun v => chanOf_of_afe (by simp) c
    rw [hsettle, code_takeDueLap, hchan]
    rw [← hlapInfo] at hneg hblank hskew
    rw [code_chanLap f hneg hblank hskew hdiff hpin, chanOf_of_afe hafe, correctCode_of hlapInfo]

/-- A frame that comes when the lap has its codes, or while the link is down, changes nothing. -/
theorem lapFrame_ignored {s : State} (f : D2DFrame) (h : s.lapInfo.got = true ∨ s.lapInfo.up = false) :
    ∃ t, exec (.d2dLapFrameArrival f) s = .next t ∧ ∀ k, same k s t :=
  ⟨settle s, if_pos (by simpa using h), settle_same s⟩

end Sys2Proof.Machine

namespace Sys2Proof.Machine
open Sys2Proof

/-! ### A record's number and its tap (R155, R156) -/

theorem redChan_setRedChan (c d : Nat) (x : RedChan) (s : State) : redChan (setRedChan c x s) d = if d = c then x else redChan s d :=
  tget_tput _ s.red.chan c d x

/-- From `s` to `t` the sequence number of channel `c` has not moved, and the other channels are as they were. -/
def SeqKept (c : Nat) (s t : State) : Prop := (redChan t c).seq = (redChan s c).seq ∧ ∀ d, d ≠ c → redChan t d = redChan s d

theorem SeqKept.refl (c : Nat) (s : State) : SeqKept c s s := ⟨rfl, fun _ _ => rfl⟩

theorem SeqKept.trans {c : Nat} {s t u : State} (h : SeqKept c s t) (h' : SeqKept c t u) : SeqKept c s u :=
  ⟨h'.1.trans h.1, fun d hd => (h'.2 d hd).trans (h.2 d hd)⟩

theorem SeqKept.of_ok {c : Nat} {s t : State} (h : Ok (allBut .red) s t) : SeqKept c s t := by
  have hred : t.red = s.red := same_of_allBut h
  simp [SeqKept, redChan, hred]

theorem seqKept_setRedChan {c : Nat} {x : RedChan} {s : State} (h : x.seq = (redChan s c).seq) : SeqKept c s (setRedChan c x s) := by
  constructor
  · rw [redChan_setRedChan, if_pos rfl, h]
  · intro d hd
    rw [redChan_setRedChan, if_neg hd]

/-- The same when what follows leaves the reduction's part alone. -/
theorem seqKept_of_setRedChan {c : Nat} {x : RedChan} {s t : State} (h : Ok (allBut .red) (setRedChan c x s) t)
    (hx : x.seq = (redChan s c).seq) : SeqKept c s t := (seqKept_setRedChan hx).trans (.of_ok h)

theorem seqKept_useColdJunction (cat : Tab Word) (c b : Nat) (s : State) : SeqKept c s (useColdJunction cat c b s).2 := by
  unfold useColdJunction
  dsimp only
  split
  · exact seqKept_of_setRedChan (judgeCjc_ok .start) rfl
  · exact seqKept_of_setRedChan (judgeCjc_ok (raiseIf_ok (addSat_ok .start))) rfl

theorem seqKept_hurdle (cat : Tab Word) (c b tag : Nat) (value : Word) (s : State) : SeqKept c s (hurdle cat c b tag value s).2 := by
  unfold hurdle
  dsimp only
  split
  · dsimp only
    exact seqKept_of_setRedChan (ok_ite (raiseChosen_ok .start) .start) rfl
  · exact .refl ..

/-- A record takes the sequence number of its channel, which moves on, and replaces the tap. -/
theorem formRec_takes (cv cat : Tab Word) (c b n : Nat) (sl : Slot) (s : State) : ∃ r t, formRec cv cat c b n sl s = (r, t) ∧ r.chan = c ∧
    r.seq = (redChan s c).seq ∧ (redChan t c).seq = (r.seq + 1) % 2 ^ 24 ∧ (redChan t c).tapValue = r.value ∧
    (redChan t c).tapTag = r.tag ∧ (redChan t c).tapSeq = r.seq ∧ ∀ d, d ≠ c → redChan t d = redChan s d := by
  have hcold : ∀ p : Prop, [Decidable p] → SeqKept c s (if p then useColdJunction cat c b s else (FVal.fin false 0 0, s)).2 := fun p _ => by
    split
    · exact seqKept_useColdJunction cat c b s
    · exact .refl ..
  have hkept : ∀ (p : Prop) [Decidable p] tag v, SeqKept c s
      (hurdle cat c b tag v (if p then useColdJunction cat c b s else (FVal.fin false 0 0, s)).2).2 := fun p _ tag v =>
    (hcold p).trans (seqKept_hurdle ..)
  unfold formRec
  dsimp only
  refine ⟨_, _, rfl, rfl, (hkept ..).1, ?_, ?_, ?_, ?_, fun d hd => ?_⟩
  case refine_5 => rw [redChan_setRedChan, if_neg hd, (hkept ..).2 d hd]
  all_goals rw [redChan_setRedChan, if_pos rfl]

/-! ### What the delivery of records leaves (R141) -/

/-- The laps that wait to be delivered, and the Catalogue in force. -/
def waitingLaps (s : State) : List LapRec × Tab Word := (s.red.laps, s.red.active)

theorem waitingLaps_of_ok {s t : State} (h : Ok (allBut .red) s t) : waitingLaps t = waitingLaps s := by
  have hred : t.red = s.red := same_of_allBut h
  rw [waitingLaps, hred, waitingLaps]

theorem waitingLaps_setFill (n : Nat) (s : State) : waitingLaps (setFill n s) = waitingLaps s := by
  unfold setFill
  dsimp only
  split <;> rfl

theorem waitingLaps_drainFill (s : State) : waitingLaps (drainFill s) = waitingLaps s := by
  unfold drainFill
  split
  · exact waitingLaps_setFill _ s
  · rfl

theorem waitingLaps_captureWrite (a : Nat) (bs : List Byte) (s : State) : waitingLaps (captureWrite a bs s) = waitingLaps s := by
  have named : true = true := rfl
  unfold captureWrite
  exact (waitingLaps_of_ok (dmaWrite_ok .start)).trans ((waitingLaps_setFill ..).trans (waitingLaps_drainFill s))

theorem waitingLaps_captureStore (s : State) (k a v : Nat) : waitingLaps (captureStore s k a v) = waitingLaps s := waitingLaps_captureWrite ..

theorem waitingLaps_copyRecord (n z j k : Nat) (f : Folio) (q : Rec) (s : State) : waitingLaps (copyRecord n z j k f q s) = waitingLaps s := by
  unfold copyRecord
  split
  · exact waitingLaps_captureStore ..
  · rfl

theorem waitingLaps_writeBlock (base z : Nat) (forced : Bool) (i : Nat) (l : List Rec) (s : State) :
    waitingLaps (writeBlock base z forced i l s) = waitingLaps s := by
  induction l generalizing i s with
  | nil => rfl
  | cons q l ih => exact (ih _ _).trans (waitingLaps_captureStore ..)

theorem waitingLaps_finishData (r : Nat) (f0 f : Folio) (s : State) : waitingLaps (finishData r f0 f s) = waitingLaps s := by
  have named : true = true := rfl
  unfold finishData
  dsimp only
  split
  · split
    · exact (foldl_keeps waitingLaps (fun _ _ => waitingLaps_writeBlock ..) _ _).trans (waitingLaps_captureWrite ..)
    · exact waitingLaps_captureWrite ..
  · split
    · exact (waitingLaps_captureWrite ..).trans (waitingLaps_of_ok (rawData_ok .start))
    · split
      · exact waitingLaps_captureWrite ..
      · rfl

theorem waitingLaps_writeFolio (r : Nat) (f0 f : Folio) (s : State) : waitingLaps (writeFolio r f0 f s) = waitingLaps s := by
  unfold writeFolio
  dsimp only
  rw [waitingLaps_captureWrite, waitingLaps_captureStore, waitingLaps_captureWrite, waitingLaps_finishData]

theorem waitingLaps_finishFill (r : Nat) (f0 f : Folio) (s : State) : waitingLaps (finishFill r f0 f s) = waitingLaps s := by
  have named : true = true := rfl
  unfold finishFill
  dsimp only
  exact (waitingLaps_of_ok (ok_ite (complete_ok (setRingState_ok (setRing_ok .start))) (setRingState_ok (setRing_ok .start)))).trans
    (waitingLaps_writeFolio ..)

theorem waitingLaps_fillNow (r : Nat) (s : State) : waitingLaps (fillNow r s) = waitingLaps s := by
  unfold fillNow completeFill
  split
  · split
    · exact waitingLaps_finishFill ..
    · rfl
  · rfl

theorem waitingLaps_storeShelf (q : Rec) (j : Nat) (s : State) (r : Nat) : waitingLaps (storeShelf q j s r) = waitingLaps s := by
  have hset : ∀ x u, waitingLaps (setRing r x u) = waitingLaps u := fun _ _ => rfl
  unfold storeShelf
  dsimp only
  split
  · rw [waitingLaps_copyRecord, hset, waitingLaps_captureStore]
  · rw [hset, waitingLaps_captureStore]

theorem waitingLaps_storeRecord (q : Rec) (s : State) (r : Nat) : waitingLaps (storeRecord q s r) = waitingLaps s := by
  have named : true = true := rfl
  unfold storeRecord
  dsimp only
  split
  · exact waitingLaps_fillNow r s
  · refine (waitingLaps_of_ok (storeExit_ok .start)).trans ?_
    split
    · exact (waitingLaps_storeShelf ..).trans (waitingLaps_fillNow r s)
    · exact waitingLaps_fillNow r s

theorem waitingLaps_spillFrame (num : Nat) (f : LineFrame) (s : State) : waitingLaps (spillFrame num f s) = waitingLaps s := by
  have named : true = true := rfl
  unfold spillFrame
  dsimp only
  exact (waitingLaps_of_ok (showSpill_ok (setWot_ok .start))).trans (waitingLaps_captureWrite ..)

theorem waitingLaps_closeStream (c : Nat) (s : State) : waitingLaps (closeStream c s) = waitingLaps s := by
  have named : true = true := rfl
  unfold closeStream
  dsimp only
  split
  · rfl
  · have hcounted : ∀ x a w, waitingLaps (count 258 1 (wr (setWot x s) a w)) = waitingLaps s := fun _ _ _ =>
      waitingLaps_of_ok (count_ok (wr_ok (setWot_ok .start)))
    split
    · exact (waitingLaps_of_ok (setFlag_ok .start)).trans ((waitingLaps_spillFrame ..).trans (hcounted ..))
    · split
      · exact (waitingLaps_spillFrame ..).trans ((waitingLaps_of_ok (spillLost_ok (setWot_ok .start))).trans (hcounted ..))
      · exact (waitingLaps_of_ok (showSpill_ok (spillLost_ok .start))).trans (hcounted ..)

theorem waitingLaps_streamRecord (r : Rec) (s : State) : waitingLaps (streamRecord r s) = waitingLaps s := by
  have hset : ∀ x u, waitingLaps (setWot x u) = waitingLaps u := fun _ _ => rfl
  unfold streamRecord
  dsimp only
  rw [waitingLaps_setFill, hset]
  split
  · exact waitingLaps_closeStream ..
  · rfl

theorem waitingLaps_deliverRecord (cat : Tab Word) (s : State) (r : Rec) : waitingLaps (deliverRecord cat s r) = waitingLaps s := by
  have named : true = true := rfl
  have hstored : ∀ l : List Nat, waitingLaps (l.foldl (storeRecord r) (count 256 1 s)) = waitingLaps s := fun l =>
    (foldl_keeps waitingLaps (waitingLaps_storeRecord r) l _).trans (waitingLaps_of_ok (count_ok .start))
  have hoffered : ∀ (p : Prop) [Decidable p] (q : Nat) (u : State), waitingLaps (if p then offerRecord q r u else u) = waitingLaps u :=
    fun _ _ q u => waitingLaps_of_ok (ok_ite (offerRecord_ok .start) .start)
  have hstreamed : ∀ (p : Prop) [Decidable p] (u : State), waitingLaps (if p then streamRecord r u else u) = waitingLaps u := fun p _ u => by
    split
    · exact waitingLaps_streamRecord r u
    · rfl
  unfold deliverRecord
  dsimp only
  rw [hstreamed, hoffered, hstored]

theorem waitingLaps_of_setRedChan {c : Nat} {x : RedChan} {s t : State} (h : Ok (allBut .red) (setRedChan c x s) t) :
    waitingLaps t = waitingLaps s := (waitingLaps_of_ok h).trans rfl

theorem waitingLaps_useColdJunction (cat : Tab Word) (c b : Nat) (s : State) :
    waitingLaps (useColdJunction cat c b s).2 = waitingLaps s := by
  unfold useColdJunction
  dsimp only
  split
  · exact waitingLaps_of_setRedChan (judgeCjc_ok .start)
  · exact waitingLaps_of_setRedChan (judgeCjc_ok (raiseIf_ok (addSat_ok .start)))

theorem waitingLaps_hurdle (cat : Tab Word) (c b tag : Nat) (value : Word) (s : State) :
    waitingLaps (hurdle cat c b tag value s).2 = waitingLaps s := by
  unfold hurdle
  dsimp only
  split
  · dsimp only
    exact waitingLaps_of_setRedChan (ok_ite (raiseChosen_ok .start) .start)
  · rfl

theorem waitingLaps_formRec (cv cat : Tab Word) (c b n : Nat) (sl : Slot) (s : State) :
    waitingLaps (formRec cv cat c b n sl s).2 = waitingLaps s := by
  have hset : ∀ x u, waitingLaps (setRedChan c x u) = waitingLaps u := fun _ _ => rfl
  unfold formRec
  dsimp only
  rw [hset, waitingLaps_hurdle]
  split
  · exact waitingLaps_useColdJunction ..
  · rfl

theorem waitingLaps_formAll (cv cat : Tab Word) (c b n : Nat) (l : List Slot) (acc : List Rec) (s : State) :
    waitingLaps (formAll cv cat c b n l acc s).2 = waitingLaps s := by
  induction l generalizing acc s with
  | nil => rfl
  | cons sl l ih => exact (ih _ _).trans (waitingLaps_formRec ..)

theorem waitingLaps_formChannel (cv cat : Tab Word) (b n c : Nat) (s : State) : waitingLaps (formChannel cv cat b n c s).2 = waitingLaps s := by
  have hgrid : ∀ (p : Prop) [Decidable p] x, waitingLaps (if p then s else setRedChan c x s) = waitingLaps s := fun _ _ _ => by split <;> rfl
  have hset : ∀ x u, waitingLaps (setChain c x u) = waitingLaps u := fun _ _ => rfl
  unfold formChannel
  dsimp only
  rw [hset]
  split
  · rw [waitingLaps_formAll, hgrid]
  · exact hgrid ..

theorem waitingLaps_deliverLap (s : State) (x : LapRec) : waitingLaps (deliverLap s x) = waitingLaps s := by
  unfold deliverLap
  exact foldl_keeps waitingLaps (fun s c => (foldl_keeps waitingLaps (waitingLaps_deliverRecord x.cat) _ _).trans
    (waitingLaps_formChannel x.curve x.cat x.bnd x.lap c s)) _ s

/-- RECORD_DELIVERY uses up the laps whose codes are all on the die. -/
theorem recordDelivery_takes (s : State) : ∃ t, exec .recordDelivery s = .next t ∧
    t.red.laps = s.red.laps.filter (fun x => !decide (x.bnd + 2 ≤ s.bnd)) ∧ t.red.active = s.red.active := by
  have hkept : ∀ (l : List LapRec) u, waitingLaps (settle (l.foldl deliverLap u)) = waitingLaps u := fun l u =>
    (waitingLaps_of_ok (settle_ok .start)).trans (foldl_keeps waitingLaps waitingLaps_deliverLap l u)
  exact ⟨_, rfl, congrArg Prod.fst (hkept ..), congrArg Prod.snd (hkept ..)⟩

/-! ### A command whose condition has lapsed (R467) -/

theorem tdrop_tdrop {α : Type} (t : Tab α) (k : Nat) : tdrop (tdrop t k) k = tdrop t k := by
  induction t with
  | nil => rfl
  | cons x t ih =>
    obtain ⟨j, v⟩ := x
    by_cases h : j = k <;> simp [tdrop, h, ih]

theorem accepted_complete (a code : Nat) (s : State) : (complete a code s).accepted = tdrop s.accepted a := rfl

/-- Between `s` and `t` no event was posted, and no register changed but that of the command at `a`, which is no longer accepted or is as it
was. -/
def OnlyCmd (a : Nat) (s t : State) : Prop :=
  t.fab = s.fab ∧ tdrop t.accepted a = tdrop s.accepted a ∧ ∀ b, b ≠ a → rd t b = rd s b

theorem OnlyCmd.refl (a : Nat) (s : State) : OnlyCmd a s s := ⟨rfl, rfl, fun _ _ => rfl⟩

theorem OnlyCmd.trans {a : Nat} {s t u : State} (h : OnlyCmd a s t) (h' : OnlyCmd a t u) : OnlyCmd a s u :=
  ⟨h'.1.trans h.1, h'.2.1.trans h.2.1, fun b hb => (h'.2.2 b hb).trans (h.2.2 b hb)⟩

theorem onlyCmd_complete (a code : Nat) (s : State) : OnlyCmd a s (complete a code s) :=
  ⟨rfl, by rw [accepted_complete, tdrop_tdrop], fun _ hb => complete_rd a code s hb⟩

theorem onlyCmd_endTwnCmd (op code : Nat) (s : State) : OnlyCmd TWN_CMD s (endTwnCmd op code s) := by
  unfold endTwnCmd
  split
  · exact onlyCmd_complete ..
  · exact .refl ..

theorem onlyCmd_dropPlans (s : State) : OnlyCmd TWN_CMD s (dropPlans s) :=
  (onlyCmd_endTwnCmd 1 6 s).trans (onlyCmd_endTwnCmd 4 6 _)

theorem outsideLdg_abortable {a : Nat} (h : a ∈ abortable) : OutsideLdg a := by
  have hall : ∀ b ∈ abortable, inLdg b = false := by decide
  exact hall a h

/-- COMMAND_ABORTED_AT_BOUNDARY ends the command that was due and could not act. -/
theorem commandAborted {s : State} {a : Nat} (h : Settled s) (ha : a ∈ abortable) (hdue : (dueAt s a).isSome = true)
    (hlapsed : goesOn s a = false) : ∃ t, exec (.commandAbortedAtBoundary a) s = .next t ∧ Ended a 6 t ∧
      t.accepted = tdrop s.accepted a ∧ ∀ b, b ≠ a → rd t b = rd s b := by
  let u := if a = TWN_CMD then dropPlans s else s
  have hstep : exec (.commandAbortedAtBoundary a) s = done (complete a 6 u) := if_pos (by simp [ha, hdue, hlapsed])
  have hu : OnlyCmd a s u := by
    by_cases e : a = TWN_CMD
    · simp only [u, if_pos e]
      exact e ▸ onlyCmd_dropPlans s
    · simp only [u, if_neg e]
      exact .refl a s
  obtain ⟨hfab, haccepted, hrd⟩ := hu.trans (onlyCmd_complete a 6 u)
  have hset : Settled (complete a 6 u) := by rw [Settled, hfab, h]
  have hended := ended_complete a 6 u (by decide) (outsideLdg_abortable ha)
  rw [settle_nothing _ hset] at hended
  refine ⟨_, hstep.trans (done_settled_next hset), hended, ?_, hrd⟩
  rw [← haccepted, accepted_complete, tdrop_tdrop]

/-- Settles O24: the laps by `lapBoundary_awake`, `lapBoundary_rest` and `lapBoundary_dark`, the codes by `lapFrame_takes` and
`lapFrame_ignored`, the records by `recordDelivery_takes` and `formRec_takes`, a lapsed command by `commandAborted`. -/
theorem lapAndItsCodes : Obligations.LapAndItsCodes := by
  refine ⟨lapBoundary_awake, fun s inp hheld hpower => ?_, lapBoundary_dark, fun s f c hgot hup hinject hc hneg hblank hskew hdiff hpin =>
    lapFrame_takes hgot hup hinject hc hneg hblank hskew hdiff hpin, fun s f h => lapFrame_ignored f h, recordDelivery_takes,
    fun s cv cat c b n sl => formRec_takes cv cat c b n sl s,
    fun s a h ha hdue hlapsed => commandAborted h ha hdue hlapsed⟩
  obtain ⟨t, ht, hbnd, htime, htally, hsame⟩ := lapBoundary_rest s inp hheld hpower
  have hkeep : ∀ k, k ≠ .bnd ∧ k ≠ .tbs ∧ k ≠ .pwr → same k s t := fun k hk => hsame k hk.1 hk.2.1 hk.2.2
  exact ⟨t, ht, hbnd, htime, congrArg Prod.fst (hkeep .mem (by decide)), hkeep .cores (by decide), hkeep .ctl (by decide),
    hkeep .acq (by decide), hkeep .red (by decide), hkeep .cnv (by decide), hkeep .wot (by decide), hkeep .out (by decide), htally⟩

end Sys2Proof.Machine

namespace Sys2Proof.Machine
open Sys2Proof

/-- A command that answers a next state leaves every part that `touches` does not name as it was. -/
theorem exec_same {c : Instr} {s t : State} {k : Comp} (h : exec c s = .next t) (hk : k ∉ touches c) : same k s t :=
  ((exec_keeps c s).1 t h).2 k (decide_eq_false hk)

/-- Settles O6: `exec_keeps` has one arm per command, with the parts that `touches` names for it. -/
theorem commandsTouchOnlyTheirParts : Obligations.CommandsTouchOnlyTheirParts :=
  fun _ _ _ _ h hk => exec_same h hk

end Sys2Proof.Machine

namespace Sys2Proof.Machine
open Sys2Proof

/-! ### What a read over SPI sends (R298, R437) -/

/-- A hub whose lane 0 is UP as a Woten lane (R286, R293), with a block of idle due at the present instant. -/
def idleDue : State := setLane 0 { taken := 0x10000000, bitBase := 66 } (setFld State.reset (LNK_LANEn_STATUS.STATE 0) 6)

/-- What has left the block when a command ends. -/
def sentBy (o : Host.Outcome State Fault Refusal) : List Sent :=
  match o with
  | .next t => t.sent
  | _ => []

/-- An SPI_READ of LNK_LANE0_CTRL first runs the stream of lane 0 up to the present instant, so that a block of idle leaves beside the zeros. -/
theorem sentBy_spiRead_idleDue : (sentBy (exec (.spiRead false 0x070100) idleDue)).length = 2 := by decide +kernel

/-- Refutes O12: the read of a lane register makes more leave than the 64 zeros (`sentBy_spiRead_idleDue`). -/
theorem not_spiTransactions : ¬ Obligations.SpiTransactions := by
  intro h
  obtain ⟨-, -, hread, -⟩ := h
  obtain ⟨t, u, ht, -, -, hsent⟩ := hread idleDue 0x070100 (by decide +kernel) (by decide +kernel)
  have hlen : t.sent.length = 2 := (congrArg (fun o => (sentBy o).length) ht).symm.trans sentBy_spiRead_idleDue
  have hzeros : t.sent.length = 1 := congrArg List.length hsent
  omega

end Sys2Proof.Machine

namespace Sys2Proof.Machine
open Sys2Proof

/-! ### A store that finds the write buffer full (R231, R232) -/

/-- Core 0 about to issue a store, with its write buffer full of stores to DRAM, while a line that core 1 has asked for waits in the controller. -/
def fullBuffer : State :=
  setDmc { queue := [{ readReq 2 32 0 with core := some 1 }] }
    (setCore 0 { pc := 0x90000000, w := [(1, 0x80000000)], stores := List.replicate 8 (0, [0]) }
      (setFld (setFld State.reset (TOP_COREn_STATUS.STATE 0) 1) DMC_STATUS.STATE 2))

/-- The data cache of a core when a command ends. -/
def cacheAfter (n : Nat) (o : Host.Outcome State Fault Refusal) : List (Nat × List Byte) :=
  match o with
  | .next t => (coreOf t n).cache
  | _ => []

/-- The full buffer hands on its oldest store, and with that request the controller serves the waiting one: the line enters core 1's cache. -/
theorem cacheAfter_stw_fullBuffer : (cacheAfter 1 (exec (.stw 0 0 1 2 0) fullBuffer)).length = 1 := by decide +kernel

theorem issues_fullBuffer : Issues 0 fullBuffer := by
  unfold Issues
  decide +kernel

/-- Refutes O41: a store into a full write buffer may change the cache of another core (`cacheAfter_stw_fullBuffer`). -/
theorem not_storeResults : ¬ Obligations.StoreResults := by
  intro h
  obtain ⟨hstore, -⟩ := h
  obtain ⟨t, ht, -, -, -, -, -, -, -, hothers, -⟩ := hstore fullBuffer 0 0 1 0 2 0 rfl issues_fullBuffer (.stw 0 0 1 2 0, 4) (by simp) 0x80000000
    [0, 0, 0, 0] (by decide +kernel) (by decide +kernel) (by decide +kernel) (.inr (by decide)) (by decide) (by decide) (by decide +kernel)
  have hlen : (coreOf t 1).cache.length = 1 := (congrArg (fun o => (cacheAfter 1 o).length) ht).symm.trans cacheAfter_stw_fullBuffer
  rw [hothers 1 (by decide)] at hlen
  exact absurd hlen (by decide +kernel)

end Sys2Proof.Machine

namespace Sys2Proof.Machine
open Sys2Proof

/-! ### The record of a core (R257) -/

theorem tdrop_tins {α : Type} (t : Tab α) (k : Nat) (v : α) : tdrop (tins t k v) k = tdrop t k := by
  induction t with
  | nil => simp [tins, tdrop]
  | cons q t ih =>
    obtain ⟨j, u⟩ := q
    simp only [tins]
    split
    · simp [tdrop]
    · simp only [tdrop, ih]

theorem tput_tput {α : Type} [DecidableEq α] (d : Nat → α) (t : Tab α) (k : Nat) (v w : α) : tput d (tput d t k v) k w = tput d t k w := by
  have hdrop : tdrop (tput d t k v) k = tdrop t k := by
    unfold tput
    split
    · exact tdrop_tdrop t k
    · rw [tdrop_tins, tdrop_tdrop]
  rw [tput, hdrop, ← tput]

theorem coreOf_setCore (n m : Nat) (x : Core) (s : State) : coreOf (setCore n x s) m = if m = n then x else coreOf s m :=
  tget_tput coreReset s.cores.core n m x

@[simp] theorem coreOf_setCore_same (n : Nat) (x : Core) (s : State) : coreOf (setCore n x s) n = x := tget_tput_same _ _ n x

theorem coreOf_of_cores {s t : State} (h : t.cores = s.cores) (m : Nat) : coreOf t m = coreOf s m := by rw [coreOf, coreOf, h]

theorem mem_settle (s : State) : (settle s).mem = s.mem := by simp

@[simp] theorem coreOf_settle (s : State) (m : Nat) : coreOf (settle s) m = coreOf s m := coreOf_of_cores (by simp) m

@[simp] theorem reg_settle (s : State) (n r : Nat) : reg (settle s) n r = reg s n r := by simp [reg]

@[simp] theorem freg_settle (s : State) (n r : Nat) : freg (settle s) n r = freg s n r := by simp [freg]

@[simp] theorem setCore_setCore (n : Nat) (x y : Core) (s : State) : setCore n x (setCore n y s) = setCore n x s := by
  simp only [setCore, tput_tput]

theorem coreOf_setReg (n r : Nat) (v : Word) (s : State) : coreOf (setReg n r v s) n =
    { coreOf s n with w := tput (fun _ => (0 : Word)) (coreOf s n).w r v } := coreOf_setCore_same ..

theorem coreOf_setFreg (n r : Nat) (v : Word) (s : State) : coreOf (setFreg n r v s) n =
    { coreOf s n with f := tput (fun _ => (0 : Word)) (coreOf s n).f r v } := coreOf_setCore_same ..

theorem coreOf_advance (n : Nat) (s : State) : coreOf (advance n s) n = { coreOf s n with pc := ((coreOf s n).pc + 4) % 2 ^ 32 } :=
  coreOf_setCore_same ..

theorem coreOf_setFlags (n v : Nat) (s : State) : coreOf (setFlags n v s) n = { coreOf s n with flags := v % 16 } := coreOf_setCore_same ..

theorem reg_setReg (n r k : Nat) (v : Word) (s : State) : reg (setReg n r v s) n k = if k = r then v else reg s n k := by
  rw [reg, coreOf_setReg]
  exact tget_tput _ _ r k v

theorem freg_setFreg (n r k : Nat) (v : Word) (s : State) : freg (setFreg n r v s) n k = if k = r then v else freg s n k := by
  rw [freg, coreOf_setFreg]
  exact tget_tput _ _ r k v

@[simp] theorem freg_setReg (n r k : Nat) (v : Word) (s : State) : freg (setReg n r v s) n k = freg s n k := by rw [freg, coreOf_setReg, freg]

@[simp] theorem reg_setFreg (n r k : Nat) (v : Word) (s : State) : reg (setFreg n r v s) n k = reg s n k := by rw [reg, coreOf_setFreg, reg]

@[simp] theorem reg_advance (n k : Nat) (s : State) : reg (advance n s) n k = reg s n k := by rw [reg, coreOf_advance, reg]

@[simp] theorem freg_advance (n k : Nat) (s : State) : freg (advance n s) n k = freg s n k := by rw [freg, coreOf_advance, freg]

/-- Write-back gives RB the address, where the address mode asks for it, and changes nothing else (R267). -/
theorem coreOf_writeBack (n rb am : Nat) (off : BitVec 13) (size : Nat) (s : State) :
    coreOf (writeBack n rb am off size s) n = { coreOf s n with w := (coreOf (writeBack n rb am off size s) n).w } := by
  unfold writeBack
  split
  · rfl
  · rw [coreOf_setReg]

theorem reg_writeBack (n rb am : Nat) (off : BitVec 13) (size : Nat) (s : State) (k : Nat) :
    reg (writeBack n rb am off size s) n k = if am ≠ 0 ∧ k = rb then displaced s n rb off size else reg s n k := by
  unfold writeBack
  by_cases h : am = 0
  · simp [h]
  · simp [h, reg_setReg]

@[simp] theorem freg_writeBack (n rb am : Nat) (off : BitVec 13) (size : Nat) (s : State) (k : Nat) :
    freg (writeBack n rb am off size s) n k = freg s n k := by rw [freg, coreOf_writeBack, freg]

/-- Between `s` and `t` nothing changed but the record of core `n`. -/
structure OnlyCore (n : Nat) (s t : State) : Prop where
  rest : t = { s with cores := { s.cores with core := t.cores.core } }
  others : ∀ m, m ≠ n → coreOf t m = coreOf s m

namespace OnlyCore

variable {n : Nat} {s t u : State}

protected theorem refl (n : Nat) (s : State) : OnlyCore n s s := ⟨rfl, fun _ _ => rfl⟩

theorem trans (h : OnlyCore n s t) (h' : OnlyCore n t u) : OnlyCore n s u :=
  ⟨h'.rest.trans (congrArg (fun v : State => { v with cores := { v.cores with core := u.cores.core } }) h.rest),
    fun m hm => (h'.others m hm).trans (h.others m hm)⟩

theorem setCore (n : Nat) (x : Core) (s : State) : OnlyCore n s (setCore n x s) :=
  ⟨rfl, fun m hm => (coreOf_setCore n m x s).trans (if_neg hm)⟩

theorem writeBack (n rb am : Nat) (off : BitVec 13) (size : Nat) (s : State) : OnlyCore n s (writeBack n rb am off size s) := by
  unfold Machine.writeBack
  split
  · exact .refl n s
  · exact setCore ..

theorem mem (h : OnlyCore n s t) : t.mem = s.mem := (congrArg State.mem h.rest).trans rfl

theorem fab (h : OnlyCore n s t) : t.fab = s.fab := (congrArg State.fab h.rest).trans rfl

theorem regs (h : OnlyCore n s t) : t.regs = s.regs := (congrArg State.regs h.rest).trans rfl

theorem rd (h : OnlyCore n s t) (a : Nat) : rd t a = rd s a := by rw [Machine.rd, Machine.rd, h.regs]

theorem settled (h : OnlyCore n s t) (hs : Settled s) : Settled t := by rw [Settled, h.fab, hs]

end OnlyCore

end Sys2Proof.Machine

namespace Sys2Proof.Machine
open Sys2Proof

/-! ### What a load puts where (R267, R268) -/

/-- Whether a load gives a float register. -/
def loadsFloat : Instr → Bool
  | .fld .. | .fldd .. => true
  | _ => false

/-- The word that a load makes of the number in its bytes. -/
def loadWord : Instr → Nat → Word
  | .ldb .., v => BitVec.ofInt 32 (signed 8 v)
  | .ldh .., v => BitVec.ofInt 32 (signed 16 v)
  | .fldd .., v => fout32 (flushSub fmt64 (f64 v))
  | _, v => w32 v

/-- A load's word enters its destination. -/
def putLoaded (i : Instr) (n rd fd : Nat) (v : Nat) (s : State) : State :=
  if loadsFloat i then setFreg n fd (loadWord i v) s else setReg n rd (loadWord i v) s

theorem onlyCore_putLoaded (i : Instr) (n rd fd v : Nat) (s : State) : OnlyCore n s (putLoaded i n rd fd v s) := by
  unfold putLoaded
  split <;> exact .setCore ..

/-- A load changes the register files of its core alone. -/
theorem coreOf_putLoaded (i : Instr) (n rd fd v : Nat) (s : State) : coreOf (putLoaded i n rd fd v s) n =
    { coreOf s n with w := (coreOf (putLoaded i n rd fd v s) n).w, f := (coreOf (putLoaded i n rd fd v s) n).f } := by
  unfold putLoaded
  split
  · rw [coreOf_setFreg]
  · rw [coreOf_setReg]

theorem reg_putLoaded (i : Instr) (n rd fd v k : Nat) (s : State) : reg (putLoaded i n rd fd v s) n k =
    if loadsFloat i = false ∧ k = rd then loadWord i v else reg s n k := by
  unfold putLoaded
  by_cases h : loadsFloat i <;> simp [h, reg_setReg]

theorem freg_putLoaded (i : Instr) (n rd fd v k : Nat) (s : State) : freg (putLoaded i n rd fd v s) n k =
    if loadsFloat i = true ∧ k = fd then loadWord i v else freg s n k := by
  unfold putLoaded
  by_cases h : loadsFloat i <;> simp [h, freg_setFreg]

theorem ofBytesLE_lt (l : List Byte) : ofBytesLE l < 256 ^ l.length := by
  induction l with
  | nil => exact Nat.one_pos
  | cons b l ih =>
    have hb : b.toNat < 256 := b.isLt
    rw [ofBytesLE, List.length_cons, pow_succ]
    omega

/-- A number of at most 32 bits is the value of the word that extends its sign. -/
theorem toInt_ofInt_signed {w v : Nat} (hw : w ≤ 32) : (BitVec.ofInt 32 (signed w v)).toInt = signed w v := by
  have hpow : 2 ^ w ≤ 2 ^ 32 := Nat.pow_le_pow_right (by decide) hw
  have hmod : v % 2 ^ w < 2 ^ w := Nat.mod_lt _ (Nat.two_pow_pos w)
  have hcast : (2 : Int) ^ w = ((2 ^ w : Nat) : Int) := by simp
  rw [BitVec.toInt_ofInt, signed, hcast]
  generalize v % 2 ^ w = m at hmod ⊢
  generalize 2 ^ w = k at hpow hmod ⊢
  refine Int.bmod_eq_of_le ?_ ?_ <;> split <;> omega

section
variable {n : Fin 5} {rd rb : Fin 16} {fd : Fin 8} {am : Fin 3} {off : BitVec 13} {p : Instr × Nat}

/-- Each load is `loadOp` of its size, which puts its word into its destination. -/
theorem exec_load_eq (hp : p ∈ loadForms n rd rb fd am off) (s : State) :
    exec p.1 s = loadOp n rb am p.2 off (fun bs => putLoaded p.1 n rd fd (ofBytesLE bs)) s := by
  simp only [loadForms, List.mem_cons, List.not_mem_nil, or_false] at hp
  obtain rfl | rfl | rfl | rfl | rfl | rfl | rfl := hp <;> rfl

theorem loadsFloat_iff (hp : p ∈ loadForms n rd rb fd am off) :
    loadsFloat p.1 = true ↔ p.1 = .fld n fd rb am off ∨ p.1 = .fldd n fd rb am off := by
  simp only [loadForms, List.mem_cons, List.not_mem_nil, or_false] at hp
  obtain rfl | rfl | rfl | rfl | rfl | rfl | rfl := hp <;> simp [loadsFloat]

/-- The words of the integer loads: LDB and LDH extend the sign, the others zeros (R268). -/
theorem loadWord_int (hp : p ∈ loadForms n rd rb fd am off) {v : Nat} (hv : v < 256 ^ p.2) :
    (p.1 = .ldb n rd rb am off → (loadWord p.1 v).toInt = if v < 128 then (v : Int) else v - 256) ∧
    (p.1 = .ldh n rd rb am off → (loadWord p.1 v).toInt = if v < 32768 then (v : Int) else v - 65536) ∧
    (p.1 ∈ [.ldbu n rd rb am off, .ldhu n rd rb am off, .ldw n rd rb am off] → (loadWord p.1 v).toNat = v) := by
  have hb : v < 256 → (BitVec.ofInt 32 (signed 8 v)).toInt = if v < 128 then (v : Int) else v - 256 := fun h => by
    rw [toInt_ofInt_signed (by decide), signed, Nat.mod_eq_of_lt (show v < 2 ^ 8 from h)]
    split <;> split <;> omega
  have hh : v < 65536 → (BitVec.ofInt 32 (signed 16 v)).toInt = if v < 32768 then (v : Int) else v - 65536 := fun h => by
    rw [toInt_ofInt_signed (by decide), signed, Nat.mod_eq_of_lt (show v < 2 ^ 16 from h)]
    split <;> split <;> omega
  have hw : v < 2 ^ 32 → (w32 v).toNat = v := fun h => BitVec.toNat_ofNat v 32 ▸ Nat.mod_eq_of_lt h
  simp only [loadForms, List.mem_cons, List.not_mem_nil, or_false] at hp
  obtain rfl | rfl | rfl | rfl | rfl | rfl | rfl := hp <;> dsimp only at hv <;> simp [loadWord, -BitVec.toInt_ofInt]
  · exact hb hv
  · exact hw (by omega)
  · exact hh (by omega)
  · exact hw (by omega)
  · exact hw (by omega)

end

end Sys2Proof.Machine

namespace Sys2Proof.Machine
open Sys2Proof

/-! ### Where a load finds its bytes (R26, R229, R231) -/

theorem foldl_fixed_of_mem {α β : Type} {f : α → β → α} {a : α} {l : List β} (h : ∀ x ∈ l, f a x = a) : l.foldl f a = a := by
  induction l with
  | nil => rfl
  | cons x l ih => rw [List.foldl_cons, h x List.mem_cons_self, ih fun y hy => h y (List.mem_cons_of_mem x hy)]

/-- Empty write buffers have nothing that seeps (R232). -/
theorem seepOthers_of_empty {n : Nat} {s : State} (h : ∀ m, m ≠ n → (coreOf s m).stores = []) : seepOthers n s = s :=
  foldl_fixed_of_mem fun m hm => if_pos (h m (by simpa using (List.mem_filter.mp hm).2))

theorem inRom_of_lt {a : Nat} (h : a < 0xA0000000) : inRom a = false := decide_eq_false (by omega)

theorem inRegs_of_lt {a : Nat} (h : a < 0xA0000000) : inRegs a = false := decide_eq_false (by omega)

theorem isBus_of_lt {a : Nat} (h : a < 0xA0000000) : isBus a = false := by
  rw [← Bool.not_eq_true, isBus_iff]
  omega

/-- No address that means one of the own local memory lies above the memories. -/
theorem lt_of_canonical_lt {n a : Nat} (h : canonical n a < 0xA0000000) : a < 0xA0000000 := by
  unfold canonical at h
  split at h <;> omega

theorem canonical_of_lt {n a : Nat} (h : a < 0x80000000) : canonical n a = a := if_neg (by omega)

theorem canonical_of_inRom {n a : Nat} (h : inRom a = true) : canonical n a = a := by
  have hrom := of_decide_eq_true h
  exact if_neg (by omega)

theorem misses_of_ge {s : State} {n a : Nat} (h : 0x80000000 ≤ a) : misses s n a = false := by
  rw [misses, decide_eq_false (by omega), Bool.false_and]

theorem fetchLine_of_hit {s : State} {n a : Nat} (h : misses s n a = false) : fetchLine n a s = s := by
  rw [fetchLine, h]
  rfl

/-- The bytes that core `n` sees from `a` up. -/
def bytesSeen (s : State) (n size a : Nat) : List Byte := (List.range size).map (fun k => byteSeen s n (a + k))

/-- A load from the Stacks or a local memory gives what the core sees there, when no other core's stores are under way. -/
theorem loadBytes_memory {s : State} {n size a : Nat} (hlo : 0x80000000 ≤ canonical n a) (hhi : canonical n a < 0xA0000000)
    (hempty : ∀ m, m ≠ n → (coreOf s m).stores = []) : loadBytes n size a s = (bytesSeen s n size (canonical n a), s) := by
  have hlow : ¬ canonical n a < 0x80000000 := by omega
  simp [loadBytes, inRom_of_lt hhi, isBus_of_lt hhi, hlow, seepOthers_of_empty hempty, bytesSeen]

theorem loadBytes_rom {s : State} {n size a : Nat} (h : inRom a = true) :
    loadBytes n size a s = ((List.range size).map (fun i => Config.romByte (a + i)), s) := by
  simp [loadBytes, canonical_of_inRom h, h]

theorem loadBytes_dram {s : State} {n size a : Nat} (h : a < 0x80000000) : loadBytes n size a s = (cachedBytes n size a s, s) := by
  have hlow : a < 0xA0000000 := by omega
  simp [loadBytes, canonical_of_lt h, inRom_of_lt hlow, isBus_of_lt hlow, h]

/-- A load without exception asks for its line where it misses, and goes on where it then has it. -/
theorem loadOp_runs {n rb am size : Nat} {off : BitVec 13} {s : State} (hi : Issues n s) (k : List Byte → State → State) {a : Nat}
    (ha : a = memAddr s n rb am off size) (hfault : accessFault s n size a = none) (hregs : inRegs a = false) :
    loadOp n rb am size off k s =
      if misses (fetchLine n (canonical n a) s) n (canonical n a) then done (fetchLine n (canonical n a) s)
      else done (advance n (k (loadBytes n size a (fetchLine n (canonical n a) s)).1
        (writeBack n rb am off size (loadBytes n size a (fetchLine n (canonical n a) s)).2))) := by
  subst ha
  unfold loadOp
  rw [issue_runs hi]
  simp [hfault, hregs]

/-- A load that finds its bytes in the state itself, without asking for a line. -/
theorem loadOp_of_hit {n rb am size : Nat} {off : BitVec 13} {s : State} (hi : Issues n s) (k : List Byte → State → State) {a : Nat}
    (ha : a = memAddr s n rb am off size) (hfault : accessFault s n size a = none) (hregs : inRegs a = false)
    (hhit : misses s n (canonical n a) = false) {bs : List Byte} (hbytes : loadBytes n size a s = (bs, s)) :
    loadOp n rb am size off k s = done (advance n (k bs (writeBack n rb am off size s))) := by
  rw [loadOp_runs hi k ha hfault hregs, fetchLine_of_hit hhit, hhit, hbytes]
  rfl

/-! ### The state after a load -/

/-- The state after a load of the number `v`, from the state `s` in which it has its bytes. -/
def loadedState (i : Instr) (n rd fd rb am : Nat) (off : BitVec 13) (size v : Nat) (s : State) : State :=
  advance n (putLoaded i n rd fd v (writeBack n rb am off size s))

section
variable (i : Instr) (n rd fd rb am : Nat) (off : BitVec 13) (size v : Nat) (s : State)

theorem onlyCore_loadedState : OnlyCore n s (loadedState i n rd fd rb am off size v s) :=
  ((OnlyCore.writeBack ..).trans (onlyCore_putLoaded ..)).trans (.setCore ..)

/-- A load changes the register files and the pc of its core alone. -/
theorem coreOf_loadedState : coreOf (loadedState i n rd fd rb am off size v s) n =
    { coreOf s n with w := (coreOf (loadedState i n rd fd rb am off size v s) n).w,
                      f := (coreOf (loadedState i n rd fd rb am off size v s) n).f, pc := ((coreOf s n).pc + 4) % 2 ^ 32 } := by
  rw [loadedState, coreOf_advance, coreOf_putLoaded, coreOf_writeBack]

theorem reg_loadedState (k : Nat) : reg (loadedState i n rd fd rb am off size v s) n k =
    if loadsFloat i = false ∧ k = rd then loadWord i v else if am ≠ 0 ∧ k = rb then displaced s n rb off size else reg s n k := by
  rw [loadedState, reg_advance, reg_putLoaded, reg_writeBack]

theorem freg_loadedState (k : Nat) : freg (loadedState i n rd fd rb am off size v s) n k =
    if loadsFloat i = true ∧ k = fd then loadWord i v else freg s n k := by
  rw [loadedState, freg_advance, freg_putLoaded, freg_writeBack]

end

end Sys2Proof.Machine

namespace Sys2Proof.Machine
open Sys2Proof

/-! ### A DRAM controller that serves at once (R231, R361, R362) -/

/-- Every request that waits is a write-back of a corrected line. -/
def BacksOnly (s : State) : Prop := ∀ q ∈ waiting s, q.back = true

theorem backsOnly_of_dmc {s t : State} (h : t.dmc = s.dmc) (hs : BacksOnly s) : BacksOnly t := by rwa [BacksOnly, waiting, h]

theorem backsOnly_of_ok {s t : State} (h : Ok (allBut .dmc) s t) (hs : BacksOnly s) : BacksOnly t := backsOnly_of_dmc (same_of_allBut h) hs

theorem backsOnly_of_queue {s t : State} (hq : t.dmc.queue = s.dmc.queue) (hp : t.dmc.port = s.dmc.port) (hs : BacksOnly s) :
    BacksOnly t := by
  rwa [BacksOnly, waiting, hq, hp]

theorem backsOnly_ite {c : Prop} [Decidable c] {a b : State} (ha : BacksOnly a) (hb : BacksOnly b) : BacksOnly (if c then a else b) := by
  split
  · exact ha
  · exact hb

theorem backsOnly_setLatent {k : Nat} {l : List Nat} {s : State} (hs : BacksOnly s) : BacksOnly (setLatent k l s) :=
  backsOnly_of_queue rfl rfl hs

theorem backsOnly_queueBack {cls k : Nat} {s : State} (hs : BacksOnly s) : BacksOnly (queueBack cls k s) := by
  unfold queueBack
  dsimp only
  split
  · exact hs
  · intro q hq
    rw [waiting, setDmc_dmc, List.cons_append, List.mem_cons] at hq
    obtain rfl | hq := hq
    · rfl
    · exact hs q hq

theorem backsOnly_keepCheck {k : Nat} {s : State} (hs : BacksOnly s) : BacksOnly (keepCheck k s) := by
  unfold keepCheck
  dsimp only
  split
  · exact hs
  · split <;> exact backsOnly_of_queue rfl rfl hs

theorem backsOnly_flipBits {k : Nat} {l : List Nat} {s : State} (hs : BacksOnly s) : BacksOnly (l.foldl (flipBit k) s) :=
  backsOnly_of_ok (ok_foldl (fun _ _ h => flipBit_ok h rfl) .start) hs

/-- A read may queue the write-back of the line that it corrects, and no other request (R366). -/
theorem backsOnly_readWord {back : Option Nat} {k : Nat} {flips : List Nat} {s : State} (hs : BacksOnly s) :
    BacksOnly (readWord back k flips s) := by
  have hclean : ∀ was : List Nat, BacksOnly (setLatent k [] (if 2 ≤ was.length then was.foldl (flipBit k) s else s)) := fun was =>
    backsOnly_setLatent (backsOnly_ite (backsOnly_flipBits hs) hs)
  have hcorrected : ∀ (l : List Nat) (u : State), BacksOnly u → BacksOnly (eccCorrected (8 * k) (setLatent k l u)) := fun l u hu =>
    backsOnly_of_ok (eccCorrected_ok .start) (backsOnly_setLatent hu)
  unfold readWord
  dsimp only
  refine backsOnly_ite (backsOnly_flipBits hs) (backsOnly_ite hs (backsOnly_ite (hclean _) (backsOnly_ite ?_ ?_)))
  · cases back with
    | none => exact hcorrected _ _ (hclean _)
    | some cls => exact backsOnly_queueBack (hcorrected _ _ (hclean _))
  · exact backsOnly_of_ok (eccFailed_ok .start) (backsOnly_setLatent (backsOnly_flipBits (hclean _)))

theorem backsOnly_readChecked {back : Option Nat} {k : Nat} {flips : List Nat} {s : State} (hs : BacksOnly s) :
    BacksOnly (readChecked back k flips s) := by
  exact backsOnly_ite (backsOnly_keepCheck (backsOnly_readWord hs)) (backsOnly_readWord hs)

theorem backsOnly_foldl {β : Type} {f : State → β → State} (hf : ∀ s x, BacksOnly s → BacksOnly (f s x)) (l : List β) {s : State}
    (hs : BacksOnly s) : BacksOnly (l.foldl f s) := by
  induction l generalizing s with
  | nil => exact hs
  | cons x l ih => exact ih (hf s x hs)

theorem backsOnly_writeBackLine {a : Nat} {s : State} (hs : BacksOnly s) : BacksOnly (writeBackLine a s) :=
  backsOnly_foldl (fun _ _ h => backsOnly_ite (backsOnly_setLatent h) h) _ hs

/-- The requests at the ports take slots: none is added. -/
theorem backsOnly_refill {s : State} (hs : BacksOnly s) : BacksOnly (refill s) := by
  have htake : ∀ (l : List DramReq) (u : State), (∀ q ∈ l, q.back = true) → BacksOnly u → BacksOnly (l.foldl (fun s q =>
      if slotFree s q then setDmc { s.dmc with queue := s.dmc.queue ++ [q] } s else setDmc { s.dmc with port := s.dmc.port ++ [q] } s) u) := by
    intro l
    induction l with
    | nil => exact fun u _ hu => hu
    | cons q l ih =>
      intro u hl hu
      refine ih _ (fun p hp => hl p (List.mem_cons_of_mem q hp)) fun p hp => ?_
      have hmem : p = q ∨ p ∈ waiting u := by
        dsimp only at hp
        split at hp <;> simp only [waiting, setDmc_dmc, List.mem_append, List.mem_singleton] at hp ⊢ <;> tauto
      obtain rfl | hp := hmem
      · exact hl p List.mem_cons_self
      · exact hu p hp
  refine backsOnly_of_ok (showHeld_ok .start) (htake _ _ (fun q hq => hs q (List.mem_append_right _ hq)) fun q hq => hs q ?_)
  rw [waiting, setDmc_dmc, List.append_nil] at hq
  exact List.mem_append_left _ hq

/-- Serving write-backs gives no core a line. -/
theorem cores_serveSome {k : Nat} {s : State} (hs : BacksOnly s) : (serveSome k s).cores = s.cores := by
  induction k generalizing s with
  | zero => rfl
  | succ k ih =>
    unfold serveSome
    split
    · next i turn _ =>
      split
      · next q hq =>
        have hback : q.back = true := hs q (List.mem_append_left _ (List.mem_of_getElem? hq))
        let s1 := setDmc { s.dmc with queue := s.dmc.queue.eraseIdx i } s
        let s2 := match turn with | some b => takeTurn b s1 | none => s1
        have hs1 : BacksOnly s1 := fun p hp => hs p (by
          rw [waiting, setDmc_dmc, List.mem_append] at hp
          exact List.mem_append.mpr (hp.imp_left List.mem_of_mem_eraseIdx))
        have hs2 : BacksOnly s2 ∧ s2.cores = s.cores := by
          cases turn
          · exact ⟨hs1, rfl⟩
          · exact ⟨backsOnly_of_queue rfl rfl hs1, rfl⟩
        have hperform : perform q s2 = writeBackLine q.addr s2 := if_pos hback
        refine (ih (s := refill (perform q s2)) ?_).trans ?_
        · rw [hperform]
          exact backsOnly_refill (backsOnly_writeBackLine hs2.1)
        · rw [hperform]
          exact (same_of_allBut (k := .cores) (refill_ok (writeBackLine_ok .start rfl) rfl)).trans hs2.2
      · rfl
    · rfl

theorem cores_dmcServe {s : State} (hs : BacksOnly s) : (dmcServe s).cores = s.cores :=
  (same_of_allBut (k := .cores) (showHeld_ok .start)).trans (cores_serveSome hs)

/-- A read performed for a core enters its line into the cache of that core. -/
theorem perform_enters {q : DramReq} {n : Nat} {s : State} (hback : q.back = false) (hwrite : q.write = false) (hcore : q.core = some n)
    (hs : BacksOnly s) : BacksOnly (perform q s) ∧ (coreOf (perform q s) n).cache.any (fun p => decide (p.1 = q.addr / 32)) = true := by
  have hstep : ∃ u, BacksOnly u ∧ perform q s = noteLatency q (enterLine n (q.addr / 32) u) := by
    let read := fun (u : State) (w : Nat) => readChecked (some 1) (q.addr / 8 + w) (wordFlips q.flips.eraseDups w) u
    refine ⟨(wordsRead s q).foldl read s, backsOnly_foldl (fun s w h => backsOnly_readChecked h) (wordsRead s q) hs, ?_⟩
    simp only [perform, hback, hwrite, hcore, Bool.false_eq_true, if_false]
    rfl
  obtain ⟨u, hu, e⟩ := hstep
  rw [e]
  have hnote : (noteLatency q (enterLine n (q.addr / 32) u)).cores = (enterLine n (q.addr / 32) u).cores :=
    same_of_allBut (k := .cores) (noteLatency_ok .start)
  refine ⟨backsOnly_of_ok (noteLatency_ok (enterLine_ok .start rfl rfl)) hu, ?_⟩
  have henter : (coreOf (enterLine n (q.addr / 32) u) n).cache =
      (q.addr / 32, (List.range 32).map (fun i => byteSeen u n (32 * (q.addr / 32) + i))) :: evict (q.addr / 32) u (coreOf u n).cache :=
    congrArg Core.cache (coreOf_setCore_same n _ u)
  rw [coreOf_of_cores hnote, henter]
  simp

/-- A controller that is READY, serves the class of a request and has nothing waiting performs it at once. -/
theorem dmcOwn_idle {q : DramReq} {s : State} (hstate : dmcState s = 2) (hserves : serves s q.cls = true) (hidle : waiting s = []) :
    dmcOwn q s = dmcServe (perform { q with at0 := clk s, measured := false } (peakHeld 1 (setDmc { s.dmc with askedAt := clk s } s))) := by
  have hlate : afterEntry false s = false := by simp [afterEntry, hstate]
  simp [dmcOwn, dmcRequest, hlate, hstate, hserves, hidle]

/-- Such a controller has the line of a load that misses in the cache of its core at once. -/
theorem fetchLine_hits {s : State} {n a : Nat} (hstate : dmcState s = 2) (hserves : serves s 2 = true)
    (hidle : waiting s = []) (hempty : ∀ m, m ≠ n → (coreOf s m).stores = []) : misses (fetchLine n a s) n a = false := by
  by_cases hmiss : misses s n a = false
  · rw [fetchLine_of_hit hmiss, hmiss]
  · have hnone : ¬ (waiting s).any (fun q => !q.write && decide (q.core = some n ∧ q.addr = 32 * (a / 32))) = true := by simp [hidle]
    rw [fetchLine, if_pos (eq_true_of_ne_false hmiss), fillLine, if_neg hnone, seepOthers_of_empty hempty,
      dmcOwn_idle hstate hserves hidle]
    have hbacks : BacksOnly (peakHeld 1 (setDmc { s.dmc with askedAt := clk s } s)) :=
      backsOnly_of_ok (peakHeld_ok .start) (backsOnly_of_queue (s := s) rfl rfl fun q hq => absurd hq (hidle ▸ List.not_mem_nil))
    obtain ⟨hafter, henters⟩ := perform_enters
      (q := { readReq 2 32 (32 * (a / 32)) with core := some n, at0 := clk s, measured := false }) rfl rfl rfl hbacks
    have hline : (32 * (a / 32) - 32 * (a / 32) % 32) / 32 = a / 32 := by omega
    have hline' : (readReq 2 32 (32 * (a / 32))).addr / 32 = a / 32 := hline
    rw [hline'] at henters
    rw [misses, coreOf_of_cores (cores_dmcServe hafter), henters]
    simp

end Sys2Proof.Machine

namespace Sys2Proof.Machine
open Sys2Proof

/-! ### The three clauses of the loads (R267, R268) -/

/-- A load without exception of bytes that the state holds ends in `loadedState`. -/
theorem exec_load_of_hit {s : State} {n : Fin 5} {rd rb : Fin 16} {fd : Fin 8} {am : Fin 3} {off : BitVec 13} {p : Instr × Nat} {a : Nat}
    (hp : p ∈ loadForms n rd rb fd am off) (hi : Issues n s) (ha : a = memAddr s n rb am off p.2)
    (hfault : accessFault s n p.2 a = none) (hregs : inRegs a = false) (hhit : misses s n (canonical n a) = false) {bs : List Byte}
    (hbytes : loadBytes n p.2 a s = (bs, s)) :
    exec p.1 s = .next (settle (loadedState p.1 n rd fd rb am off p.2 (ofBytesLE bs) s)) := by
  rw [exec_load_eq hp, loadOp_of_hit hi _ ha hfault hregs hhit hbytes, done, loadedState]

/-- A load without exception whose line did not come waits: only the request for the line has happened (R229). -/
theorem exec_load_waits {s u : State} {n : Fin 5} {rd rb : Fin 16} {fd : Fin 8} {am : Fin 3} {off : BitVec 13} {p : Instr × Nat} {a : Nat}
    (hp : p ∈ loadForms n rd rb fd am off) (hi : Issues n s) (ha : a = memAddr s n rb am off p.2)
    (hfault : accessFault s n p.2 a = none) (hlow : a < 0x80000000) (hu : u = fetchLine n a s) (hmiss : misses u n a = true) :
    exec p.1 s = .next (settle u) := by
  subst hu
  rw [exec_load_eq hp, loadOp_runs hi _ ha hfault (inRegs_of_lt (by omega)), canonical_of_lt hlow, if_pos hmiss, done]

/-- A load without exception whose line is there takes its bytes from it (R231). -/
theorem exec_load_cached {s u : State} {n : Fin 5} {rd rb : Fin 16} {fd : Fin 8} {am : Fin 3} {off : BitVec 13} {p : Instr × Nat} {a : Nat}
    (hp : p ∈ loadForms n rd rb fd am off) (hi : Issues n s) (ha : a = memAddr s n rb am off p.2)
    (hfault : accessFault s n p.2 a = none) (hlow : a < 0x80000000) (hu : u = fetchLine n a s) (hhit : misses u n a = false) :
    exec p.1 s = .next (settle (loadedState p.1 n rd fd rb am off p.2 (ofBytesLE (cachedBytes n p.2 a u)) u)) := by
  subst hu
  rw [exec_load_eq hp, loadOp_runs hi _ ha hfault (inRegs_of_lt (by omega)), canonical_of_lt hlow, hhit, loadBytes_dram hlow]
  rfl

/-- Where an address does not miss, the cached line gives its bytes. -/
theorem cachedBytes_of_hit {s : State} {n a : Nat} (size : Nat) (hlow : a < 0x80000000) (hhit : misses s n a = false) :
    ∃ q ∈ (coreOf s n).cache, q.1 = a / 32 ∧ cachedBytes n size a s = (List.range size).map (fun i => q.2.getD (a % 32 + i) 0) := by
  rw [misses, decide_eq_true hlow, Bool.true_and, Bool.not_eq_false'] at hhit
  obtain ⟨q, hq⟩ := Option.isSome_iff_exists.mp ((List.find?_isSome (p := fun q : Nat × List Byte => decide (q.1 = a / 32))).mpr (List.any_eq_true.mp hhit))
  have hline : q.1 = a / 32 := by simpa using List.find?_some hq
  refine ⟨q, List.mem_of_find?_eq_some hq, hline, ?_⟩
  rw [cachedBytes, hq]

theorem eq_w32_of_toNat {w : Word} {v : Nat} (h : w.toNat = v) : w = w32 v := by
  subst h
  simp [w32]

/-- What a load leaves in its registers (R267, R268), for a destination that its form has. -/
theorem loadedState_results {n : Fin 5} {rd rb : Fin 16} {fd : Fin 8} {am : Fin 3} {off : BitVec 13} {p : Instr × Nat}
    (hp : p ∈ loadForms n rd rb fd am off) {v : Nat} (hv : v < 256 ^ p.2) (s : State) :
    (p.1 = .fld n fd rb am off → freg (loadedState p.1 n rd fd rb am off p.2 v s) n fd = w32 v) ∧
    (p.1 = .fldd n fd rb am off → freg (loadedState p.1 n rd fd rb am off p.2 v s) n fd = fout32 (flushSub fmt64 (f64 v))) ∧
    (p.1 = .ldb n rd rb am off → (reg (loadedState p.1 n rd fd rb am off p.2 v s) n rd).toInt = if v < 128 then (v : Int) else v - 256) ∧
    (p.1 = .ldh n rd rb am off → (reg (loadedState p.1 n rd fd rb am off p.2 v s) n rd).toInt = if v < 32768 then (v : Int) else v - 65536) ∧
    (p.1 ∈ [.ldbu n rd rb am off, .ldhu n rd rb am off, .ldw n rd rb am off] →
      (reg (loadedState p.1 n rd fd rb am off p.2 v s) n rd).toNat = v) := by
  obtain ⟨hldb, hldh, hzero⟩ := loadWord_int hp hv
  have hint : loadsFloat p.1 = false → reg (loadedState p.1 n rd fd rb am off p.2 v s) n rd = loadWord p.1 v := fun h => by
    simp [reg_loadedState, h]
  have hfloat : loadsFloat p.1 = true → freg (loadedState p.1 n rd fd rb am off p.2 v s) n fd = loadWord p.1 v := fun h => by
    simp [freg_loadedState, h]
  refine ⟨fun h => ?_, fun h => ?_, fun h => ?_, fun h => ?_, fun h => ?_⟩
  · rw [hfloat (by rw [h, loadsFloat]), h]
    rfl
  · rw [hfloat (by rw [h, loadsFloat]), h]
    rfl
  · rw [hint (by simp [h, loadsFloat]), hldb h]
  · rw [hint (by simp [h, loadsFloat]), hldh h]
  · have hnot : loadsFloat p.1 = false := by
      simp only [List.mem_cons, List.not_mem_nil, or_false] at h
      obtain h | h | h := h <;> rw [h, loadsFloat] <;> simp
    rw [hint hnot, hzero h]

theorem length_bytesSeen (s : State) (n size a : Nat) : (bytesSeen s n size a).length = size := by simp [bytesSeen]

/-- Settles O39: a load without exception that finds its bytes ends in `loadedState`; one that misses has asked for its line (`fetchLine`),
which an idle controller enters into the cache at once. -/
theorem loadResults : Obligations.LoadResults := by
  unfold Obligations.LoadResults
  refine ⟨fun s n rd rb fd am off hs hi hempty p hp a v ha hfault hlo hhi hv => ?_,
    fun s u n rd rb fd am off hi p hp a ha hfault hlow hu => ⟨fun hhit => ?_, fun hstate hserves hidle hempty => ?_, fun hmiss => ?_, fun hhit => ?_⟩,
    fun s rd rb am off a hs hi ha hfault hrom => ?_⟩
  · change p ∈ loadForms n rd rb fd am off at hp
    have hregs := inRegs_of_lt (lt_of_canonical_lt hhi)
    have hexec := exec_load_of_hit hp hi ha hfault hregs (misses_of_ge hlo) (loadBytes_memory hlo hhi hempty)
    have hbound : v < 256 ^ p.2 := by
      have hlt := ofBytesLE_lt (bytesSeen s n p.2 (canonical n a))
      rwa [length_bytesSeen, bytesSeen, ← hv] at hlt
    rw [bytesSeen, ← hv] at hexec
    have honly := onlyCore_loadedState p.1 n rd fd rb am off p.2 v s
    have hcore := coreOf_loadedState p.1 n rd fd rb am off p.2 v s
    rw [settle_nothing _ (honly.settled hs)] at hexec
    obtain ⟨hfld, hfldd, hldb, hldh, hzero⟩ := loadedState_results hp hbound s
    have hform := loadsFloat_iff hp
    refine ⟨_, hexec, honly.mem, honly.rd, ?_, ?_, hfld, hfldd, hldb, hldh, hzero, fun r hr hrb => ?_, fun hne hr => ?_,
      fun r hr => ?_, ?_, ?_, honly.others⟩
    · rw [hcore]
    · rw [hcore]
    · rw [reg_loadedState, if_neg, if_neg]
      · exact fun h => hrb h.1 h.2
      · rintro ⟨hint, rfl⟩
        rw [← hform, hint] at hr
        simp at hr
    · rw [reg_loadedState, if_neg, if_pos ⟨hne, rfl⟩, displaced]
      rintro ⟨hint, e⟩
      rw [← hform, hint] at hr
      simp [Fin.ext_iff, e] at hr
    · rw [freg_loadedState, if_neg]
      rintro ⟨hfloat, rfl⟩
      rw [← not_or, ← hform, hfloat] at hr
      simp at hr
    · rw [hcore]
    · rw [hcore]
  · rw [hu, fetchLine_of_hit hhit]
  · rw [hu]
    exact fetchLine_hits hstate hserves hidle hempty
  · exact exec_load_waits hp hi ha hfault hlow hu hmiss
  · change p ∈ loadForms n rd rb fd am off at hp
    obtain ⟨q, hq, hline, hbytes⟩ := cachedBytes_of_hit p.2 hlow hhit
    have hexec := exec_load_cached hp hi ha hfault hlow hu hhit
    rw [hbytes] at hexec
    refine ⟨_, q, hexec, ?_, hq, hline, fun v hv => ?_⟩
    · rw [mem_settle, (onlyCore_loadedState ..).mem]
    · have hbound : v < 256 ^ p.2 := by
        have hlt := ofBytesLE_lt ((List.range p.2).map (fun k => q.2.getD (a % 32 + k) 0))
        rwa [List.length_map, List.length_range, ← hv] at hlt
      rw [← hv]
      obtain ⟨hfld, -, -, -, hzero⟩ := loadedState_results hp hbound u
      simp only [reg_settle, freg_settle]
      refine ⟨fun h => ?_, hfld, fun h => hzero (by simp at h ⊢; tauto)⟩
      exact eq_w32_of_toNat (hzero (by simp [h]))
  · have hp : (Instr.ldw 4 rd rb am off, 4) ∈ loadForms 4 rd rb 0 am off := by simp [loadForms]
    have hrange := of_decide_eq_true hrom
    have hexec := exec_load_of_hit hp hi ha hfault (decide_eq_false (by omega)) (misses_of_ge (by rw [canonical_of_inRom hrom]; omega))
      (loadBytes_rom hrom)
    have honly := onlyCore_loadedState (.ldw 4 rd rb am off) 4 rd 0 rb am off 4 (ofBytesLE ((List.range 4).map fun i => Config.romByte (a + i))) s
    exact ⟨_, hexec.trans (congrArg Host.Outcome.next (settle_nothing _ (honly.settled hs))), honly.mem,
      (reg_loadedState ..).trans (if_pos ⟨rfl, rfl⟩)⟩

end Sys2Proof.Machine

namespace Sys2Proof.Machine
open Sys2Proof

/-! ### Register and event writes beside the record of a core -/

section
variable (s : State) (n : Nat)

@[simp] theorem coreOf_setFld (f : Fld) (v : Nat) : coreOf (setFld s f v) n = coreOf s n := rfl

@[simp] theorem coreOf_setFlag (f : Fld) (b : Bool) : coreOf (setFlag s f b) n = coreOf s n := rfl

@[simp] theorem coreOf_setPend (c k : Nat) (w : Word) : coreOf (setPend s c k w) n = coreOf s n := rfl

@[simp] theorem coreOf_raise (e : Nat) : coreOf (raise e s) n = coreOf s n := coreOf_of_cores (by simp) n

@[simp] theorem coreOf_complete (a code : Nat) : coreOf (complete a code s) n = coreOf s n := rfl

@[simp] theorem coreOf_accept (a : Nat) (w : Word) : coreOf (accept a w s) n = coreOf s n := rfl

end

theorem pendWord_setPend (s : State) (c k c' k' : Nat) (w : Word) :
    pendWord (setPend s c k w) c' k' = if c' * 8 + k' = c * 8 + k then w else pendWord s c' k' := by
  rw [pendWord, setPend_fab, tget_tput, ← pendWord]

theorem pendWord_of_fab {s t : State} (h : t.fab = s.fab) (c k : Nat) : pendWord t c k = pendWord s c k := by
  rw [pendWord, pendWord, h]

/-! ### WAIT (R235) -/

/-- The flags with Z set to `z`. -/
def zFlags (z : Bool) (f : Nat) : Nat := (f / 8 * 8 + bit z * 4 + f % 4) % 16

theorem nbit_zFlags (z : Bool) (f : Nat) {k : Nat} (hk : k < 4) : nbit (zFlags z f) k = if k = 2 then z else nbit f k := by
  have hcases : k = 0 ∨ k = 1 ∨ k = 2 ∨ k = 3 := by omega
  rw [nbit, nbit, zFlags]
  obtain rfl | rfl | rfl | rfl := hcases <;> cases z <;> simp [bit, Nat.testBit_eq_decide_div_mod_eq] <;> omega

section
variable (n wd g : Nat) (r : Word) (s : State)

theorem coreOf_setZ (z : Bool) : coreOf (setZ n z s) n = { coreOf s n with flags := zFlags z (coreOf s n).flags } := coreOf_setFlags ..

/-- Where WAIT returns `r`, its core has `r` in wd and Z, is awake and goes on. -/
theorem coreOf_waitReturn : coreOf (waitReturn n wd g r s) n =
    { coreOf s n with w := tput (fun _ => (0 : Word)) (coreOf s n).w wd r, flags := zFlags (decide (r = 0)) (coreOf s n).flags,
                      asleep := none, pc := ((coreOf s n).pc + 4) % 2 ^ 32 } := by
  rw [waitReturn, coreOf_setFlag, coreOf_setCore_same, coreOf_setZ, coreOf_setReg, coreOf_setPend]

theorem reg_waitReturn (k : Nat) : reg (waitReturn n wd g r s) n k = if k = wd then r else reg s n k := by
  rw [reg, coreOf_waitReturn]
  exact tget_tput _ _ wd k r

theorem fab_waitReturn : (waitReturn n wd g r s).fab = (setPend s n g (pendWord s n g &&& ~~~ r)).fab := by
  simp [waitReturn, setZ, setFlags, setReg]

theorem mem_waitReturn : (waitReturn n wd g r s).mem = s.mem := by simp [waitReturn, setZ, setFlags, setReg]

theorem pendWord_waitReturn (k : Nat) :
    pendWord (waitReturn n wd g r s) n k = if k = g then pendWord s n g &&& ~~~ r else pendWord s n k := by
  rw [pendWord_of_fab (fab_waitReturn ..), pendWord_setPend]
  simp

theorem flag_sleep_waitReturn : flag (waitReturn n wd g r s) (TOP_COREn_STATUS.SLEEP n) = false :=
  flag_setFlag_same _ _ _ rfl (Nat.le_of_ble_eq_true rfl)

theorem coreOf_waitReturn_other {m : Nat} (h : m ≠ n) : coreOf (waitReturn n wd g r s) m = coreOf s m := by
  rw [waitReturn, coreOf_setFlag, coreOf_setCore, if_neg h, setZ, setFlags, coreOf_setCore, if_neg h, setReg, coreOf_setCore, if_neg h,
    coreOf_setPend]

theorem settled_waitReturn {s : State} (h : Settled s) : Settled (waitReturn n wd g r s) := by
  rw [Settled, fab_waitReturn]
  exact h

end

/-- A core that waits: its record holds the sleep, and STATUS shows it. -/
def sleepIn (n : Nat) (z : Asleep) (s : State) : State :=
  setFlag (setCore n { coreOf s n with asleep := some z } s) (TOP_COREn_STATUS.SLEEP n) true

theorem coreOf_sleepIn (n : Nat) (z : Asleep) (s : State) : coreOf (sleepIn n z s) n = { coreOf s n with asleep := some z } :=
  coreOf_setCore_same ..

theorem reg_sleepIn (n : Nat) (z : Asleep) (s : State) (k : Nat) : reg (sleepIn n z s) n k = reg s n k := by
  rw [reg, coreOf_sleepIn, reg]

theorem fab_sleepIn (n : Nat) (z : Asleep) (s : State) : (sleepIn n z s).fab = s.fab := by simp [sleepIn]

theorem mem_sleepIn (n : Nat) (z : Asleep) (s : State) : (sleepIn n z s).mem = s.mem := by simp [sleepIn]

theorem rd_sleepIn (n : Nat) (z : Asleep) (s : State) {a : Nat} (h : a ≠ TOP_COREn_STATUS n) : rd (sleepIn n z s) a = rd s a :=
  rd_setFld_other _ (TOP_COREn_STATUS.SLEEP n) 1 a h

/-- WAIT with a masked PEND bit set returns at once, otherwise it sleeps. -/
theorem exec_wait {n : Fin 5} {s : State} (hs : Settled s) (hi : Issues n s) (wd ws wt : Fin 16) (g : Fin 8) :
    exec (.wait n wd g ws wt) s = .next (if pendWord s n g &&& reg s n ws ≠ 0 then waitReturn n wd g (pendWord s n g &&& reg s n ws) s
      else sleepIn n ⟨wd, g, reg s n ws, (reg s n wt).toNat, clk s⟩ s) := by
  have hstep : exec (.wait n wd g ws wt) s = done (if pendWord s n g &&& reg s n ws ≠ 0
      then waitReturn n wd g (pendWord s n g &&& reg s n ws) s else sleepIn n ⟨wd, g, reg s n ws, (reg s n wt).toNat, clk s⟩ s) := by
    change execWait n wd g ws wt s = _
    rw [execWait, issue_runs hi]
    dsimp only
    split <;> rfl
  rw [hstep]
  refine done_settled_next ?_
  split
  · exact settled_waitReturn _ _ _ _ hs
  · rw [Settled, fab_sleepIn, hs]

/-- The clause of O43 about WAIT. -/
theorem wait_results (s : State) (n : Fin 5) (wd ws wt : Fin 16) (g : Fin 8) (r : Word) (hs : Settled s) (hi : Issues n s)
    (hr : r = pendWord s n g &&& reg s n ws) :
    (r ≠ 0 → ∃ t, exec (.wait n wd g ws wt) s = .next t ∧ reg t n wd = r ∧ nbit (coreOf t n).flags 2 = false ∧
      pendWord t n g = pendWord s n g &&& ~~~ r ∧ (∀ k, k ≠ g.val → pendWord t n k = pendWord s n k) ∧ (coreOf t n).asleep = none ∧
      (coreOf t n).pc = ((coreOf s n).pc + 4) % 2 ^ 32 ∧ (∀ k, k ≠ wd.val → reg t n k = reg s n k) ∧ t.mem = s.mem ∧
      ∀ k ∈ [0, 1, 3], nbit (coreOf t n).flags k = nbit (coreOf s n).flags k) ∧
    (r = 0 → ∃ t, exec (.wait n wd g ws wt) s = .next t ∧
      (coreOf t n).asleep = some ⟨wd.val, g.val, reg s n ws, (reg s n wt).toNat, clk s⟩ ∧ flag t (TOP_COREn_STATUS.SLEEP n) = true ∧
      (coreOf t n).pc = (coreOf s n).pc ∧ (∀ k, reg t n k = reg s n k) ∧ (∀ k, pendWord t n k = pendWord s n k) ∧ canIssue n t = false ∧
      t.mem = s.mem ∧ ∀ a, a ≠ TOP_COREn_STATUS n → rd t a = rd s a) := by
  have hexec := exec_wait hs hi wd ws wt g
  rw [← hr] at hexec
  refine ⟨fun hne => ⟨waitReturn n wd g r s, ?_, ?_, ?_, ?_, fun k hk => ?_, ?_, ?_, fun k hk => ?_, mem_waitReturn .., fun k hk => ?_⟩,
    fun hz => ⟨sleepIn n ⟨wd, g, reg s n ws, (reg s n wt).toNat, clk s⟩ s, ?_, ?_, ?_, ?_, fun k => ?_,
      fun k => pendWord_of_fab (fab_sleepIn ..) n k, ?_, mem_sleepIn .., fun a ha => rd_sleepIn n _ s ha⟩⟩
  · rw [hexec, if_pos hne]
  · rw [reg_waitReturn, if_pos rfl]
  · rw [coreOf_waitReturn]
    exact (nbit_zFlags _ _ (by decide)).trans (decide_eq_false hne)
  · rw [pendWord_waitReturn, if_pos rfl]
  · rw [pendWord_waitReturn, if_neg hk]
  · rw [coreOf_waitReturn]
  · rw [coreOf_waitReturn]
  · rw [reg_waitReturn, if_neg hk]
  · rw [coreOf_waitReturn]
    have hk' : k < 4 ∧ k ≠ 2 := by
      simp only [List.mem_cons, List.not_mem_nil, or_false] at hk
      omega
    exact (nbit_zFlags _ _ hk'.1).trans (if_neg hk'.2)
  · rw [hexec, if_neg (not_not_intro hz)]
  · rw [coreOf_sleepIn]
  · exact flag_setFlag_same _ _ _ rfl (Nat.le_of_ble_eq_true rfl)
  · rw [coreOf_sleepIn]
  · exact reg_sleepIn ..
  · rw [canIssue, coreOf_sleepIn]
    simp

end Sys2Proof.Machine

namespace Sys2Proof.Machine
open Sys2Proof

/-- A saturating counter after it counts. -/
theorem fld_addSat_same (s : State) (f : Fld) (k : Nat) (h : f.lo + f.w ≤ 32) : fld (addSat s f k) f = satNat f.w (fld s f + k) := by
  have hpos := Nat.two_pow_pos f.w
  rw [addSat, fld_setFld_same _ _ _ h, Nat.mod_eq_of_lt]
  unfold satNat
  split <;> omega

/-! ### POST and POSTR (R22, R233) -/

/-- A core without stores under way is not held by the rule that waits for them (R232). -/
theorem afterStores_of_empty {n : Nat} {s : State} (hempty : (coreOf s n).stores = []) (hack : unacked s n = false)
    (f : State → Host.Outcome State Fault Refusal) : afterStores n f s = f s := by
  have hdrain : drainStores s n = s := if_pos hempty
  rw [afterStores, hdrain, hack]
  rfl

/-- The post of a number that software chose. -/
def posted (n v : Nat) (s : State) : State := advance n (raiseChosen v (loosen s))

theorem exec_post {n : Fin 5} {ws : Fin 16} {e : BitVec 8} {i : Instr} {v : Nat} {s : State} (hi : Issues n s)
    (hempty : (coreOf s n).stores = []) (hack : unacked s n = false)
    (hform : (i = .post n e ∧ v = e.toNat) ∨ (i = .postr n ws ∧ v = (reg s n ws).toNat % 256)) :
    exec i s = .next (settle (posted n v s)) := by
  obtain ⟨rfl, rfl⟩ | ⟨rfl, rfl⟩ := hform
  · change execPost n e s = _
    rw [execPost, issue_runs hi, afterStores_of_empty hempty hack, done, posted]
  · change execPostr n ws s = _
    rw [execPostr, issue_runs hi, afterStores_of_empty hempty hack, done, posted]

theorem cores_raiseChosen (v : Nat) (s : State) : (raiseChosen v s).cores = s.cores := by
  unfold raiseChosen
  split
  · simp
  · rfl

theorem mem_raiseChosen (v : Nat) (s : State) : (raiseChosen v s).mem = s.mem := by
  unfold raiseChosen
  split
  · simp
  · rfl

theorem coreOf_posted (n v : Nat) (s : State) : coreOf (posted n v s) n = { coreOf s n with pc := ((coreOf s n).pc + 4) % 2 ^ 32 } := by
  rw [posted, coreOf_advance, coreOf_of_cores (cores_raiseChosen ..)]
  rfl

theorem mem_posted (n v : Nat) (s : State) : (posted n v s).mem = s.mem := mem_raiseChosen v (loosen s)

/-- A number below 128 is posted (R233). -/
theorem posted_of_lt {n v : Nat} (s : State) (h : v < 128) : Posted v s (settle (posted n v s)) := by
  have hraise : (posted n v s).fab = (raise v (loosen s)).fab ∧ (posted n v s).regs = s.regs := by
    rw [posted, raiseChosen, if_pos h]
    exact ⟨rfl, by simp [advance, setPc]⟩
  refine settle_posted_of v (by omega) ?_ fun c _ => ?_
  · rw [hraise.1]
    exact mem_raise v _
  · rw [rd, rd, hraise.2]

/-- One above only counts (R233). -/
theorem posted_of_ge {n v : Nat} {s : State} (hs : Settled s) (h : 128 ≤ v) :
    settle (posted n v s) = posted n v s ∧
    fld (posted n v s) TOP_EVT_BADPOST.COUNT = satNat TOP_EVT_BADPOST.COUNT.w (fld s TOP_EVT_BADPOST.COUNT + 1) ∧
    ∀ c k, pendWord (posted n v s) c k = pendWord s c k := by
  have hcount : raiseChosen v (loosen s) = addSat (loosen s) TOP_EVT_BADPOST.COUNT 1 := if_neg (by omega)
  have hraised : (inThisCycle s s.fab).raised = [] := by
    unfold inThisCycle
    split <;> exact hs
  rw [posted, hcount]
  refine ⟨settle_nothing _ hraised, ?_, fun c k => ?_⟩
  · exact fld_addSat_same (loosen s) TOP_EVT_BADPOST.COUNT 1 (by decide)
  · change tget (fun _ => (0 : Word)) (inThisCycle s s.fab).pend (c * 8 + k) = _
    rw [inThisCycle_pend, ← pendWord]

/-- The clause of O43 about POST and POSTR. -/
theorem post_results {n : Fin 5} {ws : Fin 16} {e : BitVec 8} {i : Instr} {v : Nat} {s : State} (hi : Issues n s)
    (hempty : (coreOf s n).stores = []) (hack : unacked s n = false)
    (hform : (i = .post n e ∧ v = e.toNat) ∨ (i = .postr n ws ∧ v = (reg s n ws).toNat % 256)) : ∃ t, exec i s = .next t ∧
      (v < 128 → Posted v s t) ∧ (coreOf t n).pc = ((coreOf s n).pc + 4) % 2 ^ 32 ∧ (∀ r, reg t n r = reg s n r) ∧
      (coreOf t n).flags = (coreOf s n).flags ∧ t.mem = s.mem ∧
      (128 ≤ v → Settled s → fld t TOP_EVT_BADPOST.COUNT = satNat TOP_EVT_BADPOST.COUNT.w (fld s TOP_EVT_BADPOST.COUNT + 1) ∧
        ∀ c k, pendWord t c k = pendWord s c k) := by
  refine ⟨_, exec_post hi hempty hack hform, fun hlt => posted_of_lt s hlt, ?_, fun r => ?_, ?_, ?_, fun hge hs => ?_⟩
  · rw [coreOf_settle, coreOf_posted]
  · rw [reg_settle, reg, coreOf_posted, reg]
  · rw [coreOf_settle, coreOf_posted]
  · rw [mem_settle, mem_posted]
  · obtain ⟨hsettle, hcount, hpend⟩ := posted_of_ge (n := n) hs hge
    rw [hsettle]
    exact ⟨hcount, hpend⟩

end Sys2Proof.Machine

namespace Sys2Proof.Machine
open Sys2Proof

/-! ### STAMP (R271, R273) -/

theorem now_le_atOfs (ofs : Nat) (s : State) : now s ≤ now (atOfs ofs s) := by simp [now]

/-- A pair of registers takes a 64-bit number, low word first. -/
def setPair (n wd v : Nat) (s : State) : State := setReg n (wd + 1) (hi32 v) (setReg n wd (lo32 v) s)

theorem onlyCore_setPair (n wd v : Nat) (s : State) : OnlyCore n s (setPair n wd v s) := (OnlyCore.setCore ..).trans (.setCore ..)

theorem reg_setPair (n wd v : Nat) (s : State) (k : Nat) :
    reg (setPair n wd v s) n k = if k = wd + 1 then hi32 v else if k = wd then lo32 v else reg s n k := by
  rw [setPair, reg_setReg, reg_setReg]

theorem reg_setPair_low (n wd v : Nat) (s : State) : reg (setPair n wd v s) n wd = lo32 v := by
  rw [reg_setPair, if_neg (Nat.ne_add_one wd), if_pos rfl]

theorem reg_setPair_high (n wd v : Nat) (s : State) : reg (setPair n wd v s) n (wd + 1) = hi32 v := by
  rw [reg_setPair, if_pos rfl]

/-- Registers that a pair does not hold keep their words. -/
theorem reg_setPair_other {n wd v k : Nat} (s : State) (h : k ≠ wd) (h' : k ≠ wd + 1) : reg (setPair n wd v s) n k = reg s n k := by
  rw [reg_setPair, if_neg h', if_neg h]

/-- The state of a core after an instruction that gives a pair of registers a number. -/
theorem coreOf_advance_setPair (n wd v : Nat) (s : State) : (coreOf (advance n (setPair n wd v s)) n).flags = (coreOf s n).flags := by
  rw [coreOf_advance, setPair, coreOf_setReg, coreOf_setReg]

theorem onlyCore_advance (n : Nat) (s : State) : OnlyCore n s (advance n s) := .setCore ..

theorem onlyCore_advance_setPair (n wd v : Nat) (s : State) : OnlyCore n s (advance n (setPair n wd v s)) :=
  (onlyCore_setPair ..).trans (onlyCore_advance ..)

theorem onlyCore_advance_setReg (n r : Nat) (v : Word) (s : State) : OnlyCore n s (advance n (setReg n r v s)) :=
  (OnlyCore.setCore ..).trans (onlyCore_advance ..)

theorem OnlyCore.tbs {n : Nat} {s t : State} (h : OnlyCore n s t) : t.tbs = s.tbs := (congrArg State.tbs h.rest).trans rfl

theorem OnlyCore.now {n : Nat} {s t : State} (h : OnlyCore n s t) : now t = now s := by rw [Machine.now, Machine.now, h.tbs]

theorem OnlyCore.lap {n : Nat} {s t : State} (h : OnlyCore n s t) : lap t = lap s := by rw [Machine.lap, Machine.lap, h.tbs]

/-- What STAMP gives at line time and lap count of `s`. -/
def stampOf (laps : Bool) (s : State) : Nat := if laps then lap s else fracOf (now s) + shortStamp (now s) * 65536

theorem exec_stamp {n : Fin 5} {s : State} (hs : Settled s) (hi : Issues n s) (wd : Fin 15) (laps : Bool) (ofs : Nat) :
    exec (.stamp n wd laps ofs) s = .next (advance n (setPair n wd (stampOf laps (atOfs ofs s)) (atOfs ofs s))) := by
  change execStamp n wd laps ofs s = _
  rw [execStamp, plainOp_runs hi]
  exact done_settled_next ((onlyCore_advance_setPair ..).settled (by simpa [Settled] using hs))

theorem stamp_results {s : State} {n : Fin 5} (hs : Settled s) (hi : Issues n s) (wd : Fin 15) (laps : Bool) (ofs : Nat) :
    ∃ t v, exec (.stamp n wd laps ofs) s = .next t ∧
      v = (if laps then lap s else now t % 65536 + now t / 65536 % 2 ^ 48 * 65536) ∧ reg t n wd = lo32 v ∧ reg t n (wd + 1) = hi32 v ∧
      (∀ r, r ≠ wd.val → r ≠ wd.val + 1 → reg t n r = reg s n r) ∧ (coreOf t n).flags = (coreOf s n).flags ∧ now s ≤ now t ∧ lap t = lap s ∧
      t.mem = s.mem ∧ ∀ a, rd t a = rd s a := by
  have honly := onlyCore_advance_setPair n wd (stampOf laps (atOfs ofs s)) (atOfs ofs s)
  have hcore : coreOf (atOfs ofs s) n = coreOf s n := coreOf_of_cores (by simp) n
  refine ⟨_, stampOf laps (atOfs ofs s), exec_stamp hs hi wd laps ofs, ?_, ?_, ?_, fun r h h' => ?_, ?_,
    (now_le_atOfs ofs s).trans honly.now.ge, honly.lap, honly.mem.trans (by simp), fun a => (honly.rd a).trans rfl⟩
  · rw [honly.now]
    rfl
  · rw [reg_advance, reg_setPair_low]
  · rw [reg_advance, reg_setPair_high]
  · rw [reg_advance, reg_setPair_other _ h h', reg, hcore, reg]
  · rw [coreOf_advance_setPair, hcore]

/-! ### TALLY (R52, R54, R273) -/

/-- Of a state, what the glitch filters leave: the events under way, each Tally's STATE and its position at the latest boundary. -/
def tallyView (s : State) : Fabric × (Nat → Nat) × (Nat → Int) :=
  (s.fab, fun k => fld s (TBS_TALLYn_STATUS.STATE k), fun k => (tallyOf s k).atB)

theorem tallyOf_setTally (n k : Nat) (x : TallyRun) (s : State) : tallyOf (setTally n x s) k = if k = n then x else tallyOf s k :=
  tget_tput _ _ n k x

/-- ENC_ERR counts beside STATE. -/
theorem fld_state_addSat_encErr (n k j : Nat) (s : State) :
    fld (addSat s (TBS_TALLYn_STATUS.ENC_ERR n) j) (TBS_TALLYn_STATUS.STATE k) = fld s (TBS_TALLYn_STATUS.STATE k) := by
  by_cases h : k = n
  · subst h
    exact fld_setFld_beside _ _ _ _ rfl (Nat.le_of_ble_eq_true rfl) (Nat.le_of_ble_eq_true rfl) (Or.inl (Nat.le_of_ble_eq_true rfl))
  · exact fld_setFld_reg _ _ _ _ (by dsimp only; omega)

theorem tallyView_tallyEdge (k f : Nat) (t : Int) (a b a' b' : Bool) (s : State) (n : Nat) :
    tallyView (tallyEdge k f t a b a' b' s n) = tallyView s := by
  unfold tallyEdge
  split
  · split
    · rw [tallyView, tallyView]
      simp only [fld_state_addSat_encErr]
      rfl
    · split
      · have hb : ∀ j, (tallyOf (countEdge n t (edgeForward a b a' b') s) j).atB = (tallyOf s j).atB := fun j => by
          rw [countEdge, tallyOf_setTally]
          split
          · next h => rw [h]
          · rfl
        rw [tallyView, tallyView]
        simp only [hb]
        rfl
      · rfl
  · rfl

theorem tallyView_passLevels (k f at1 : Nat) (a b : Bool) (s : State) : tallyView (passLevels k f at1 a b s) = tallyView s :=
  foldl_keeps tallyView (tallyView_tallyEdge k f _ _ _ a b) _ _

theorem tallyView_filterPass (k f : Nat) (s : State) : tallyView (filterPass k f s) = tallyView s := by
  unfold filterPass
  dsimp only
  split
  · exact tallyView_passLevels ..
  · split
    · split
      · rw [tallyView_passLevels, tallyView_passLevels]
      · exact tallyView_passLevels ..
    · split
      · split
        · rw [tallyView_passLevels, tallyView_passLevels]
        · exact tallyView_passLevels ..
      · rfl

theorem tallyView_filtersPass (s : State) : tallyView (filtersPass s) = tallyView s :=
  foldl_keeps tallyView (fun s k => foldl_keeps tallyView (fun s f => tallyView_filterPass k f s) _ s) _ s

/-- The instant of a TALLY, with what has passed the filters by then. -/
@[irreducible] def tallyInstant (ofs : Nat) (s : State) : State := filtersPass (atOfs ofs s)

theorem tallyInstant_eq (ofs : Nat) (s : State) : tallyInstant ofs s = filtersPass (atOfs ofs s) := by
  unfold tallyInstant
  rfl

theorem fab_of_tallyView {s t : State} (h : tallyView t = tallyView s) : t.fab = s.fab := congrArg Prod.fst h

theorem state_of_tallyView {s t : State} (h : tallyView t = tallyView s) (k : Nat) :
    fld t (TBS_TALLYn_STATUS.STATE k) = fld s (TBS_TALLYn_STATUS.STATE k) := congrFun (congrArg (·.2.1) h) k

theorem atB_of_tallyView {s t : State} (h : tallyView t = tallyView s) (k : Nat) : (tallyOf t k).atB = (tallyOf s k).atB :=
  congrFun (congrArg (·.2.2) h) k

section
variable (ofs : Nat) (s : State)

theorem ok_tallyInstant {kp : Comp → Bool} (kTbs : kp .tbs = true) : Ok kp s (tallyInstant ofs s) := by
  unfold tallyInstant
  exact filtersPass_ok (atOfs_ok .start kTbs) kTbs

theorem cores_tallyInstant : (tallyInstant ofs s).cores = s.cores := same_of_allBut (k := .cores) (ok_tallyInstant ofs s rfl)

theorem mem_tallyInstant : (tallyInstant ofs s).mem = s.mem :=
  congrArg Prod.fst (same_of_allBut (k := .mem) (ok_tallyInstant ofs s rfl))

theorem tallyView_tallyInstant : tallyView (tallyInstant ofs s) = tallyView s := by
  unfold tallyInstant
  exact tallyView_filtersPass _

theorem settled_tallyInstant {s : State} (hs : Settled s) : Settled (tallyInstant ofs s) := by
  rw [Settled, fab_of_tallyView (tallyView_tallyInstant ofs s), hs]

theorem tallyRuns_tallyInstant (k : Nat) : tallyRuns (tallyInstant ofs s) k = tallyRuns s k := by
  rw [tallyRuns, tallyRuns, state_of_tallyView (tallyView_tallyInstant ofs s)]

theorem atB_tallyInstant (k : Nat) : (tallyOf (tallyInstant ofs s) k).atB = (tallyOf s k).atB :=
  atB_of_tallyView (tallyView_tallyInstant ofs s) k

theorem now_tallyInstant : now (tallyInstant ofs s) = now (atOfs ofs s) := by
  have hpacer : (tallyInstant ofs s).tbs.pacer = (atOfs ofs s).tbs.pacer := by
    unfold tallyInstant
    exact pacer_filtersPass _
  unfold now
  rw [hpacer]

theorem now_le_tallyInstant : now s ≤ now (tallyInstant ofs s) := (now_le_atOfs ofs s).trans (now_tallyInstant ofs s).ge

theorem reg_tallyInstant (n r : Nat) : reg (tallyInstant ofs s) n r = reg s n r := by rw [reg, coreOf_of_cores (cores_tallyInstant ..), reg]

/-- The position that TALLY gives. -/
def tallyPosition (k : Nat) : Int :=
  if tallyRuns (tallyInstant ofs s) k then tallyAt (tallyInstant ofs s) k (now (tallyInstant ofs s)) (now (tallyInstant ofs s))
  else (tallyOf (tallyInstant ofs s) k).atB

/-- The velocity that TALLY gives. -/
def tallyVelocity (k : Nat) : Int :=
  if tallyRuns (tallyInstant ofs s) k then tallyVel (tallyInstant ofs s) k (now (tallyInstant ofs s)) else 0

end

/-- The 48-bit position with its sign extended to 64 bits. -/
def widePosition (p : Int) : Nat := unsignedOf 64 (signed 48 (unsignedOf 48 p))

theorem unsignedOf_lt (w : Nat) (p : Int) : unsignedOf w p < 2 ^ w := by
  have hpos : (0 : Int) < 2 ^ w := by positivity
  have hlt := Int.emod_lt_of_pos p hpos
  have hnonneg := Int.emod_nonneg p hpos.ne'
  rw [unsignedOf, Int.toNat_lt hnonneg]
  exact_mod_cast hlt

/-- The sign of a position fills the bits above it. -/
theorem widePosition_eq (p : Int) :
    widePosition p = unsignedOf 48 p + if 2 ^ 47 ≤ unsignedOf 48 p then 0xFFFF000000000000 else 0 := by
  have hlt := unsignedOf_lt 48 p
  rw [widePosition]
  generalize unsignedOf 48 p = u at hlt
  unfold unsignedOf signed
  dsimp only
  split <;> split <;> omega

theorem lo32_widePosition (p : Int) : lo32 (widePosition p) = lo32 (unsignedOf 48 p) := by
  rw [widePosition_eq]
  apply BitVec.eq_of_toNat_eq
  rw [lo32, lo32, BitVec.toNat_ofNat, BitVec.toNat_ofNat]
  split <;> omega

theorem hi32_widePosition (p : Int) :
    hi32 (widePosition p) = hi32 (unsignedOf 48 p) ||| (if 2 ^ 47 ≤ unsignedOf 48 p then 0xFFFF0000 else 0) := by
  have hlt := unsignedOf_lt 48 p
  rw [widePosition_eq]
  split
  · have hhigh : (unsignedOf 48 p + 0xFFFF000000000000) / 2 ^ 32 = 0xFFFF <<< 16 + unsignedOf 48 p / 2 ^ 32 := by omega
    rw [hi32, hi32, hhigh, Nat.shiftLeft_add_eq_or_of_lt (by omega), BitVec.ofNat_or, BitVec.or_comm]
    rfl
  · rw [Nat.add_zero]
    exact BitVec.or_zero.symm

theorem exec_tally {n : Fin 5} {s : State} (hi : Issues n s) (wd : Fin 16) (k : Fin 4) (vel : Bool) (ofs : Nat) :
    exec (.tally n wd k vel ofs) s =
      if vel = false ∧ wd.val = 15 then done (trap n 1 (wordQ wd 0 0 k 8) s)
      else if vel then done (advance n (setReg n wd (w32 (unsignedOf 32 (tallyVelocity ofs s k))) (tallyInstant ofs s)))
      else done (advance n (setPair n wd (widePosition (tallyPosition ofs s k)) (tallyInstant ofs s))) := by
  change execTally n wd k vel ofs s = _
  unfold execTally tallyVelocity tallyPosition tallyInstant widePosition setPair
  exact issue_runs hi _

theorem exec_tally_position {n : Fin 5} {s : State} (hs : Settled s) (hi : Issues n s) (wd : Fin 15) (k : Fin 4) (ofs : Nat) :
    exec (.tally n wd.castSucc k false ofs) s =
      .next (advance n (setPair n wd (widePosition (tallyPosition ofs s k)) (tallyInstant ofs s))) := by
  have hwd : ¬ (false = false ∧ wd.castSucc.val = 15) := by
    have hlt : wd.castSucc.val < 15 := wd.isLt
    omega
  have honly := onlyCore_advance_setPair n wd (widePosition (tallyPosition ofs s k)) (tallyInstant ofs s)
  exact (exec_tally hi ..).trans ((if_neg hwd).trans (done_settled_next (honly.settled (settled_tallyInstant ofs hs))))

theorem exec_tally_velocity {n : Fin 5} {s : State} (hs : Settled s) (hi : Issues n s) (wd : Fin 16) (k : Fin 4) (ofs : Nat) :
    exec (.tally n wd k true ofs) s =
      .next (advance n (setReg n wd (w32 (unsignedOf 32 (tallyVelocity ofs s k))) (tallyInstant ofs s))) := by
  have hvel : ¬ (true = false ∧ wd.val = 15) := by simp
  have honly := onlyCore_advance_setReg n wd (w32 (unsignedOf 32 (tallyVelocity ofs s k))) (tallyInstant ofs s)
  exact (exec_tally hi ..).trans ((if_neg hvel).trans (done_settled_next (honly.settled (settled_tallyInstant ofs hs))))

/-- The word of a signed number. -/
theorem w32_unsignedOf (i : Int) : w32 (unsignedOf 32 i) = BitVec.ofInt 32 i := by
  apply BitVec.eq_of_toNat_eq
  rw [w32, BitVec.toNat_ofNat, Nat.mod_eq_of_lt (unsignedOf_lt 32 i), BitVec.toNat_ofInt, unsignedOf]
  rfl

theorem tally_position_results {s : State} {n : Fin 5} (hs : Settled s) (hi : Issues n s) (wd : Fin 15) (k : Fin 4) (ofs : Nat) (p : Int) :
    ∃ z t, z = filtersPass (atOfs ofs s) ∧ exec (.tally n wd.castSucc k false ofs) s = .next t ∧
      (p = (if fld s (TBS_TALLYn_STATUS.STATE k) ≠ 0 ∧ fld s (TBS_TALLYn_STATUS.STATE k) ≠ 4 then tallyAt z k (now z) (now z) else (tallyOf s k).atB) →
        reg t n wd = lo32 (unsignedOf 48 p) ∧
        reg t n (wd + 1) = hi32 (unsignedOf 48 p) ||| (if 2 ^ 47 ≤ unsignedOf 48 p then 0xFFFF0000 else 0)) ∧
      (∀ r, r ≠ wd.val → r ≠ wd.val + 1 → reg t n r = reg s n r) ∧ (coreOf t n).flags = (coreOf s n).flags ∧ now s ≤ now t ∧ t.mem = s.mem ∧
      ∀ a, rd t a = rd z a := by
  have honly := onlyCore_advance_setPair n wd (widePosition (tallyPosition ofs s k)) (tallyInstant ofs s)
  refine ⟨tallyInstant ofs s, _, tallyInstant_eq ofs s, exec_tally_position hs hi wd k ofs, fun hp => ?_, fun r h h' => ?_, ?_,
    (now_le_tallyInstant ofs s).trans honly.now.ge, honly.mem.trans (mem_tallyInstant ofs s), honly.rd⟩
  · have hposition : tallyPosition ofs s k = p := by
      rw [hp, tallyPosition, tallyRuns_tallyInstant, atB_tallyInstant, tallyRuns]
      simp only [decide_eq_true_eq]
    rw [hposition]
    exact ⟨((reg_advance ..).trans (reg_setPair_low ..)).trans (lo32_widePosition p),
      ((reg_advance ..).trans (reg_setPair_high ..)).trans (hi32_widePosition p)⟩
  · rw [reg_advance, reg_setPair_other _ h h', reg_tallyInstant]
  · rw [coreOf_advance_setPair, coreOf_of_cores (cores_tallyInstant ..)]

theorem tally_velocity_results {s : State} {n : Fin 5} (hs : Settled s) (hi : Issues n s) (wd : Fin 16) (k : Fin 4) (ofs : Nat) :
    ∃ z t, z = filtersPass (atOfs ofs s) ∧ exec (.tally n wd k true ofs) s = .next t ∧
      reg t n wd = (if fld s (TBS_TALLYn_STATUS.STATE k) ≠ 0 ∧ fld s (TBS_TALLYn_STATUS.STATE k) ≠ 4 then BitVec.ofInt 32 (tallyVel z k (now z)) else 0) ∧
      (∀ r, r ≠ wd.val → reg t n r = reg s n r) ∧ (coreOf t n).flags = (coreOf s n).flags ∧ now s ≤ now t ∧ t.mem = s.mem ∧
      ∀ a, rd t a = rd z a := by
  have honly := onlyCore_advance_setReg n wd (w32 (unsignedOf 32 (tallyVelocity ofs s k))) (tallyInstant ofs s)
  refine ⟨tallyInstant ofs s, _, tallyInstant_eq ofs s, exec_tally_velocity hs hi wd k ofs, ?_, fun r h => ?_, ?_,
    (now_le_tallyInstant ofs s).trans honly.now.ge, honly.mem.trans (mem_tallyInstant ofs s), honly.rd⟩
  · rw [reg_advance, reg_setReg, if_pos rfl, w32_unsignedOf, tallyVelocity, tallyRuns_tallyInstant, tallyRuns]
    simp only [decide_eq_true_eq]
    split <;> rfl
  · rw [reg_advance, reg_setReg, if_neg h, reg_tallyInstant]
  · rw [coreOf_advance, coreOf_setReg, coreOf_of_cores (cores_tallyInstant ..)]

/-- The position form with the last register as its first is ILLEGAL (R273). -/
theorem tally_pair_illegal {s : State} {n : Fin 5} (hi : Issues n s) (k : Fin 4) (ofs : Nat) :
    ∃ w, ralnelWord (.tally n 15 k false ofs) = some w ∧ exec (.tally n 15 k false ofs) s = .next (settle (trap n 1 w s)) := by
  have hword : ralnelWord (.tally n 15 k false ofs) = some (wordQ 15 0 0 k 8) := by
    change some (wordQ 15 0 0 (bit false * 4 + k) 8) = _
    simp [bit]
  exact ⟨_, hword, (exec_tally hi ..).trans (if_pos ⟨rfl, rfl⟩)⟩

/-- Settles O43, clause by clause: WAIT by `exec_wait`, POST and POSTR by `exec_post`, STAMP and TALLY by the instant they move to
(`tallyInstant`), which keeps what they read. -/
theorem eventAndTimeInstructions : Obligations.EventAndTimeInstructions := by
  unfold Obligations.EventAndTimeInstructions
  exact ⟨fun s n wd ws wt g r hs hi hr => wait_results s n wd ws wt g r hs hi hr, fun _ _ _ _ _ _ hi hempty hack hform => post_results hi hempty hack hform,
    fun _ _ wd laps ofs hs hi => stamp_results hs hi wd laps ofs, fun _ _ wd k ofs p hs hi => tally_position_results hs hi wd k ofs p,
    fun _ _ wd k ofs hs hi => tally_velocity_results hs hi wd k ofs, fun _ _ k ofs hi => tally_pair_illegal hi k ofs⟩

end Sys2Proof.Machine

namespace Sys2Proof.Machine
open Sys2Proof

/-! ### What the DRAM controller changes beside memory and itself (R231, R360 to R369) -/

/-- An address of the controller's register block. -/
def inDmc (a : Nat) : Bool := decide (0xA00A0000 ≤ a ∧ a < 0xA00B0000)

/-- Between `s` and `t`, of the registers those of the controller changed alone, and of the cores their data caches alone. -/
structure DramOnly (s t : State) : Prop where
  regs : ∀ a, inDmc a = false → rd t a = rd s a
  cores : ∀ m, ∃ c, coreOf t m = { coreOf s m with cache := c }

namespace DramOnly

variable {s t u : State}

protected theorem refl (s : State) : DramOnly s s := ⟨fun _ _ => rfl, fun m => ⟨(coreOf s m).cache, rfl⟩⟩

theorem trans (h : DramOnly s t) (h' : DramOnly t u) : DramOnly s u where
  regs a ha := (h'.regs a ha).trans (h.regs a ha)
  cores m := by
    obtain ⟨c, hc⟩ := h.cores m
    obtain ⟨c', hc'⟩ := h'.cores m
    exact ⟨c', by rw [hc', hc]⟩

/-- A change beside the registers and the cores. -/
theorem of_eq (hr : t.regs = s.regs) (hc : t.cores = s.cores) : DramOnly s t where
  regs a _ := by rw [rd, rd, hr]
  cores m := ⟨(coreOf s m).cache, coreOf_of_cores hc m⟩

theorem ite {c : Prop} [Decidable c] (ht : DramOnly s t) (hu : DramOnly s u) : DramOnly s (if c then t else u) := by
  split
  · exact ht
  · exact hu

theorem foldl {β : Type} {f : State → β → State} (hf : ∀ s x, DramOnly s (f s x)) (l : List β) (s : State) : DramOnly s (l.foldl f s) := by
  induction l generalizing s with
  | nil => exact .refl s
  | cons x l ih => exact (hf s x).trans (ih _)

theorem wr (s : State) {a : Nat} (w : Word) (h : inDmc a = true) : DramOnly s (wr s a w) where
  regs b hb := rd_wr_other s w (by rintro rfl; rw [h] at hb; cases hb)
  cores m := ⟨(coreOf s m).cache, rfl⟩

theorem setFld (s : State) (f : Fld) (v : Nat) (h : inDmc f.reg = true) : DramOnly s (setFld s f v) := wr s _ h

theorem raise (n : Nat) (s : State) : DramOnly s (raise n s) := of_eq (by simp) (by simp)

theorem countOn (src k : Nat) (s : State) (n : Nat) : DramOnly s (countOn src k s n) := by
  unfold Machine.countOn
  exact ite (of_eq (by simp) (by simp)) (.refl s)

theorem count (src k : Nat) (s : State) : DramOnly s (count src k s) := ite (.refl s) (foldl (countOn src k) _ s)

theorem setDmc (x : Dmc) (s : State) : DramOnly s (setDmc x s) := of_eq rfl rfl

theorem freshen (s : State) : DramOnly s (freshen s) := of_eq rfl rfl

theorem mput (s : State) (a : Nat) (b : Byte) : DramOnly s (mput s a b) := of_eq (by simp) (by simp)

theorem setLatent (k : Nat) (l : List Nat) (s : State) : DramOnly s (setLatent k l s) := of_eq (by simp) (by simp)

theorem flipBit (k : Nat) (s : State) (i : Nat) : DramOnly s (flipBit k s i) := by
  unfold Machine.flipBit
  exact ite (mput ..) (.refl s)

theorem setFlag (s : State) (f : Fld) (b : Bool) (h : inDmc f.reg = true) : DramOnly s (setFlag s f b) := wr s _ h

theorem mputs (s : State) (a : Nat) (bs : List Byte) : DramOnly s (mputs s a bs) := by
  induction bs generalizing s a with
  | nil => exact .refl s
  | cons b bs ih => exact (mput s a b).trans (ih _ _)

theorem flipBits (k : Nat) (l : List Nat) (s : State) : DramOnly s (l.foldl (Machine.flipBit k) s) := foldl (flipBit k) l s

theorem ruinWord (k n : Nat) (s : State) : DramOnly s (ruinWord k n s) := by
  have hnote : ∀ x : Dmc, ∀ f : Nat, DramOnly s { s with fresh := f, dmc := x } := fun _ _ => of_eq rfl rfl
  unfold Machine.ruinWord
  dsimp only
  exact ite ((ite (hnote ..) ((hnote ..).trans (flipBits ..))).trans (setLatent ..)) ((hnote ..).trans (flipBits ..))

theorem written (a n : Nat) (s : State) : DramOnly s (written a n s) := by
  have hgood : ∀ x : Dmc, DramOnly s { s with dmc := x } := fun _ => of_eq rfl rfl
  unfold Machine.written
  refine ite (.refl s) ?_
  dsimp only
  split
  · split
    · exact (hgood _).trans (ruinWord ..)
    · exact hgood _
  · exact hgood _

theorem mwrite (s : State) (a : Nat) (bs : List Byte) : DramOnly s (mwrite s a bs) := by
  exact (mputs s a bs).trans (written ..)

theorem eccCorrected (a : Nat) (s : State) : DramOnly s (eccCorrected a s) :=
  (((setFld s _ _ rfl).trans (wr _ _ rfl)).trans (count ..)).trans (raise ..)

theorem eccFailed (a : Nat) (s : State) : DramOnly s (eccFailed a s) :=
  ((((setFld s _ _ rfl).trans (wr _ _ rfl)).trans (count ..)).trans (setFlag _ _ _ rfl)).trans (raise ..)

theorem queueBack (cls k : Nat) (s : State) : DramOnly s (queueBack cls k s) := ite (.refl s) (setDmc ..)

theorem keepCheck (k : Nat) (s : State) : DramOnly s (keepCheck k s) :=
  ite (.refl s) (ite (setDmc ..) ((setDmc ..).trans (freshen _)))

theorem readWord (back : Option Nat) (k : Nat) (flips : List Nat) (s : State) : DramOnly s (readWord back k flips s) := by
  have hclean : ∀ was : List Nat, DramOnly s (Machine.setLatent k [] (if 2 ≤ was.length then was.foldl (Machine.flipBit k) s else s)) :=
    fun was => (ite (flipBits k was s) (.refl s)).trans (setLatent ..)
  unfold Machine.readWord
  refine ite (flipBits k flips s) (ite (.refl s) (ite (hclean _) (ite ?_ ?_)))
  · cases back with
    | none => exact ((hclean _).trans (setLatent ..)).trans (eccCorrected ..)
    | some cls => exact (((hclean _).trans (setLatent ..)).trans (eccCorrected ..)).trans (queueBack ..)
  · exact (((hclean _).trans (flipBits ..)).trans (setLatent ..)).trans (eccFailed ..)

theorem readChecked (back : Option Nat) (k : Nat) (flips : List Nat) (s : State) : DramOnly s (readChecked back k flips s) :=
  ite ((readWord ..).trans (keepCheck ..)) (readWord ..)

theorem noteLatency (q : DramReq) (s : State) : DramOnly s (noteLatency q s) := ite (setFld s _ _ rfl) (.refl s)

theorem writeWords (q : DramReq) (s : State) : DramOnly s (writeWords q s) :=
  foldl (fun s _ => ite (mwrite ..) (ite (.refl s) ((foldl (fun s _ => ite (mput ..) (.refl s)) _ s).trans (setLatent ..)))) _ s

theorem writeBackLine (a : Nat) (s : State) : DramOnly s (writeBackLine a s) := foldl (fun s _ => ite (setLatent ..) (.refl s)) _ s

theorem setCache (n : Nat) (c : List (Nat × List Byte)) (s : State) : DramOnly s (setCore n { coreOf s n with cache := c } s) where
  regs a _ := rfl
  cores m := by
    rw [coreOf_setCore]
    split
    · next h => exact ⟨c, by rw [h]⟩
    · exact ⟨(coreOf s m).cache, rfl⟩

/-- A line that enters a cache changes the cache of its core. -/
theorem enterLine (n k : Nat) (s : State) : DramOnly s (enterLine n k s) := (setCache n _ s).trans (freshen _)

theorem perform (q : DramReq) (s : State) : DramOnly s (perform q s) := by
  unfold Machine.perform
  dsimp only
  refine ite (writeBackLine ..) ?_
  have hread := foldl (fun s w => readChecked (if q.write = true then none else some 1) (q.addr / 8 + w)
    (wordFlips q.flips.eraseDups w) s) (wordsRead s q) s
  refine hread.trans (ite (writeWords ..) (DramOnly.trans ?_ (noteLatency ..)))
  cases q.core with
  | none => exact setDmc ..
  | some n => exact enterLine ..

theorem peakHeld (n : Nat) (s : State) : DramOnly s (peakHeld n s) := ite (setFld s _ _ rfl) (.refl s)

theorem showHeld (s : State) : DramOnly s (showHeld s) := (setFld s DMC_OUTSTANDING.LEVEL _ rfl).trans (peakHeld ..)

theorem refill (s : State) : DramOnly s (refill s) :=
  ((setDmc ..).trans (foldl (fun _ _ => ite (setDmc ..) (setDmc ..)) _ _)).trans (showHeld _)

theorem serveSome (k : Nat) (s : State) : DramOnly s (serveSome k s) := by
  induction k generalizing s with
  | zero => exact .refl s
  | succ k ih =>
    unfold Machine.serveSome
    split
    · next i turn _ =>
      split
      · cases turn with
        | none => exact (((setDmc ..).trans (perform ..)).trans (refill _)).trans (ih _)
        | some b => exact ((((setDmc ..).trans (setDmc ..)).trans (perform ..)).trans (refill _)).trans (ih _)
      · exact .refl s
    · exact .refl s

theorem dmcServe (s : State) : DramOnly s (dmcServe s) := (serveSome ..).trans (showHeld _)

theorem dmcAsk (q : DramReq) (s : State) : DramOnly s (dmcAsk q s) := (setDmc ..).trans (refill _)

theorem leaveSelfRefresh (s : State) : DramOnly s (leaveSelfRefresh s) := (setFld s DMC_STATUS.STATE 6 rfl).trans (setDmc ..)

theorem dmcRequest (q : DramReq) (issued : Bool) (s : State) : DramOnly s (dmcRequest q issued s) := by
  unfold Machine.dmcRequest
  refine ite ((((setDmc ..).trans (peakHeld ..)).trans (perform ..)).trans (dmcServe _)) ?_
  refine (dmcAsk _ s).trans (ite (dmcServe _) (ite (ite (.refl _) (setDmc ..)) (ite ?_ (.refl _))))
  exact (leaveSelfRefresh _).trans (setFld _ _ _ rfl)

theorem dmcOwn (q : DramReq) (s : State) : DramOnly s (dmcOwn q s) := ite ((freshen s).trans (dmcRequest ..)) (dmcRequest ..)

theorem memWrite (served : Bool) (a : Nat) (bs : List Byte) (s : State) : DramOnly s (memWrite served a bs s) := by
  unfold Machine.memWrite
  split
  · exact ite (raise ..) (mwrite ..)
  · exact ite (mwrite ..) (ite (dmcOwn ..) (.refl s))

/-- A store that leaves a write buffer changes no core beyond its cache. -/
theorem coreWrite (n a : Nat) (bs : List Byte) (s : State) : DramOnly s (coreWrite n a bs s) := ite (dmcOwn ..) (memWrite ..)

end DramOnly

end Sys2Proof.Machine

namespace Sys2Proof.Machine
open Sys2Proof

/-! ### Posts and the end of a sleep (R22, R234, R235) -/

theorem mem_of_exec {c : Instr} {s t : State} (h : exec c s = .next t) (hk : Comp.mem ∉ touches c) : t.mem = s.mem :=
  congrArg Prod.fst (exec_same h hk)

/-- The clause of O47 about EVENT_POST. -/
theorem eventPost_results (s : State) (e : Fin 256) : ∃ t, exec (.eventPost e) s = .next t ∧ (isEvent e = true → Posted e s t) ∧
    (isEvent e = false → Settled s → t = s) ∧ RegsOutside 0 0 s t ∧ ∀ k, same k s t := by
  have hstep : exec (.eventPost e) s = .next (settle (raiseIf (isEvent e) e s)) := rfl
  refine ⟨_, hstep, fun h => ?_, fun h hs => ?_, fun a _ ha => ?_, fun k => exec_same hstep (show k ∉ [] from List.not_mem_nil)⟩
  · refine settle_posted_of e e.isLt ?_ fun c _ => by simp
    rw [h]
    exact mem_raise e s
  · rw [h]
    exact settle_nothing s hs
  · rw [rd_settle _ _ (outsideLdg_of ha)]
    simp

theorem exec_waitReturn {n : Fin 5} {w : Asleep} {s : State} (hs : Settled s) (ha : awake s = true) (hw : (coreOf s n).asleep = some w)
    (hst : coreState s n = 1) : exec (.waitReturn n) s = .next (if pendWord s n w.group &&& w.mask ≠ 0
      then waitReturn n w.wd w.group (pendWord s n w.group &&& w.mask) s else s) := by
  have hstep : exec (.waitReturn n) s = done (if pendWord s n w.group &&& w.mask ≠ 0
      then waitReturn n w.wd w.group (pendWord s n w.group &&& w.mask) s else s) := by
    change execWaitReturn n s = _
    simp only [execWaitReturn, hw, ha, hst, true_and]
    split <;> rfl
  rw [hstep]
  refine done_settled_next ?_
  split
  · exact settled_waitReturn _ _ _ _ hs
  · exact hs

/-- The clause of O47 about WAIT_RETURN. -/
theorem waitReturn_results {s : State} {n : Fin 5} {w : Asleep} {r : Word} (hs : Settled s) (ha : awake s = true)
    (hw : (coreOf s n).asleep = some w) (hst : coreState s n = 1) (hr : r = pendWord s n w.group &&& w.mask) :
    ∃ t, exec (.waitReturn n) s = .next t ∧ (r = 0 → ∀ k, same k s t) ∧
      (r ≠ 0 → reg t n w.wd = r ∧ nbit (coreOf t n).flags 2 = false ∧ (coreOf t n).asleep = none ∧
        (coreOf t n).pc = ((coreOf s n).pc + 4) % 2 ^ 32 ∧ pendWord t n w.group = pendWord s n w.group &&& ~~~ r ∧
        flag t (TOP_COREn_STATUS.SLEEP n) = false ∧ t.mem = s.mem ∧ ∀ m, m ≠ n.val → coreOf t m = coreOf s m) := by
  have hexec := exec_waitReturn hs ha hw hst
  rw [← hr] at hexec
  refine ⟨_, hexec, fun hz k => ?_, fun hne => ?_⟩
  · rw [if_neg (not_not_intro hz)]
    exact (Ok.start (kp := fun _ => false)).2 k rfl
  · rw [if_pos hne]
    refine ⟨?_, ?_, ?_, ?_, ?_, flag_sleep_waitReturn .., mem_waitReturn .., fun m hm => coreOf_waitReturn_other _ _ _ _ _ hm⟩
    · rw [reg_waitReturn, if_pos rfl]
    · rw [coreOf_waitReturn]
      exact (nbit_zFlags _ _ (by decide)).trans (decide_eq_false hne)
    · rw [coreOf_waitReturn]
    · rw [coreOf_waitReturn]
    · rw [pendWord_waitReturn, if_pos rfl]

/-- The clause of O47 about WAIT_TIMEOUT. -/
theorem waitTimeout_results {s : State} {n : Fin 5} {w : Asleep} (ofs : Nat) (hs : Settled s) (ha : awake s = true)
    (hw : (coreOf s n).asleep = some w) (hst : coreState s n = 1) : ∃ t, exec (.waitTimeout n ofs) s = .next t ∧
      if 0 < w.timeout ∧ w.timeout ≤ (clk (atOfs ofs s) - w.start) / corePeriod n then
        reg t n w.wd = pendWord s n w.group &&& w.mask ∧ nbit (coreOf t n).flags 2 = decide (pendWord s n w.group &&& w.mask = 0) ∧
        (coreOf t n).asleep = none ∧ (coreOf t n).pc = ((coreOf s n).pc + 4) % 2 ^ 32 ∧ t.mem = s.mem
      else coreOf t n = coreOf s n ∧ t.mem = s.mem ∧ ∀ a, rd t a = rd s a := by
  have hcore : coreOf (atOfs ofs s) n = coreOf s n := coreOf_of_cores (by simp) n
  have hpend : pendWord (atOfs ofs s) n w.group = pendWord s n w.group := pendWord_of_fab (by simp) ..
  have hsettled : Settled (atOfs ofs s) := by simpa [Settled] using hs
  have hstep : exec (.waitTimeout n ofs) s = done (if 0 < w.timeout ∧ w.timeout ≤ (clk (atOfs ofs s) - w.start) / corePeriod n
      then waitReturn n w.wd w.group (pendWord s n w.group &&& w.mask) (atOfs ofs s) else atOfs ofs s) := by
    have ha' : awake (atOfs ofs s) = true := ha
    have hst' : coreState (atOfs ofs s) n = 1 := hst
    change execWaitTimeout n ofs s = _
    simp only [execWaitTimeout, hcore, hw, ha', hst', hpend, true_and]
    split <;> rfl
  rw [hstep]
  split
  · refine ⟨_, done_settled_next (settled_waitReturn _ _ _ _ hsettled), ?_, ?_, ?_, ?_, ?_⟩
    · rw [reg_waitReturn, if_pos rfl]
    · rw [coreOf_waitReturn]
      exact nbit_zFlags _ _ (by decide)
    · rw [coreOf_waitReturn]
    · rw [coreOf_waitReturn, hcore]
    · rw [mem_waitReturn]
      simp
  · exact ⟨_, done_settled_next hsettled, hcore, by simp, fun a => by simp⟩

/-! ### RUN (R249) -/

/-- The end of a command leaves every other register. -/
theorem fld_complete_other {a code : Nat} {s : State} {f : Fld} (h : f.reg ≠ a) : fld (complete a code s) f = fld s f := by
  rw [fld, complete_rd _ _ _ h, fld]

theorem rd_setPc (n a : Nat) (s : State) (b : Nat) : rd (setPc n a s) b = rd s b := rfl

theorem fld_setPc (n a : Nat) (s : State) (f : Fld) : fld (setPc n a s) f = fld s f := rfl

/-- What RUN and RESTART change of the registers: the command's own, and STATE and MODE of the core. -/
theorem runCore_regs (n : Nat) (s : State) :
    coreState (runCore n s) n = 1 ∧ inService (runCore n s) n = false ∧
    ∀ a, a ≠ TOP_CORE_CMD → a ≠ TOP_COREn_STATUS n → rd (runCore n s) a = rd s a := by
  have hcmd : 0xA0000400 + n * 128 ≠ 0xA0000200 := by omega
  refine ⟨?_, ?_, fun a ha ha' => ?_⟩
  · rw [coreState, runCore, fld_complete_other hcmd, fld_setPc, setMode, setFlag]
    rw [fld_setFld_beside (setCoreState n 1 s) (TOP_COREn_STATUS.STATE n) (TOP_COREn_STATUS.MODE n) _ rfl
      (Nat.le_of_ble_eq_true rfl) (Nat.le_of_ble_eq_true rfl) (Or.inl (Nat.le_of_ble_eq_true rfl))]
    exact fld_setFld_same s (TOP_COREn_STATUS.STATE n) 1 (Nat.le_of_ble_eq_true rfl)
  · rw [inService, flag, runCore, fld_complete_other hcmd, fld_setPc, ← flag]
    exact flag_setFlag_same (setCoreState n 1 s) (TOP_COREn_STATUS.MODE n) false rfl (Nat.le_of_ble_eq_true rfl)
  · rw [runCore, complete_rd _ _ _ ha, rd_setPc, setMode, setFlag, rd_setFld_other _ _ _ _ ha', setCoreState, rd_setFld_other _ _ _ _ ha']

/-- A core that runs starts at ENTRY. -/
theorem coreOf_runCore (n : Nat) (s : State) : coreOf (runCore n s) n = { coreOf s n with pc := (rd s (TOP_COREn_ENTRY n)).toNat } := by
  have hpc : (rd s (TOP_COREn_ENTRY n)).toNat % 2 ^ 32 = (rd s (TOP_COREn_ENTRY n)).toNat := Nat.mod_eq_of_lt (BitVec.isLt _)
  rw [runCore, coreOf_complete, setPc, coreOf_setCore_same, hpc, setMode, coreOf_setFlag, setCoreState, coreOf_setFld]

theorem coreOf_runCore_other {n m : Nat} (h : m ≠ n) (s : State) : coreOf (runCore n s) m = coreOf s m := by
  rw [runCore, coreOf_complete, setPc, coreOf_setCore, if_neg h, setMode, coreOf_setFlag, setCoreState, coreOf_setFld]

theorem fab_runCore (n : Nat) (s : State) : (runCore n s).fab = s.fab := by simp [runCore, complete, setPc, setMode, setCoreState]

theorem settled_runCore {n : Nat} {s : State} (hs : Settled s) : Settled (runCore n s) := by rw [Settled, fab_runCore, hs]

theorem ended_runCore {n : Nat} {s : State} (hs : Settled s) : Ended TOP_CORE_CMD 0 (runCore n s) := by
  have hended := ended_complete TOP_CORE_CMD 0 (setPc n (rd s (TOP_COREn_ENTRY n)).toNat (setMode n false (setCoreState n 1 s)))
    (by decide) rfl
  rwa [← runCore, settle_nothing _ (settled_runCore hs)] at hended

/-- The refusal of a core command. -/
theorem refused_coreCmd (s : State) : Refused TOP_CORE_CMD s (settle (refuse TOP_CORE_CMD s)) :=
  refused_refuse TOP_CORE_CMD s rfl (by decide) (by decide) (by decide) (by decide) (by decide)

/-- A core command is BUSY while one is pending and BAD_TARGET for a core that it does not name (R249). -/
theorem coreCmd_answers {s : State} {n : Nat} {o rest : Host.Outcome State Fault Refusal} {Q : State → Prop} (hs : Settled s)
    (ho : o = if isPending s TOP_CORE_CMD then done (reject TOP_CORE_CMD 2 s) else if 4 ≤ n then done (reject TOP_CORE_CMD 3 s) else rest)
    (hrest : ¬ isPending s TOP_CORE_CMD = true → ¬ 4 ≤ n → ∃ t, rest = .next t ∧ Q t) :
    ∃ t, o = .next t ∧ if isPending s TOP_CORE_CMD then Answered TOP_CORE_CMD 2 s t else if 4 ≤ n then Answered TOP_CORE_CMD 3 s t
      else Q t := by
  rw [ho]
  split
  · exact ⟨_, rfl, answered_reject _ _ s hs (by decide)⟩
  · next hpending =>
    split
    · exact ⟨_, rfl, answered_reject _ _ s hs (by decide)⟩
    · next hn => exact hrest hpending hn

/-- The clause of O47 about RUN. -/
theorem coreRun_results (s : State) (n : Fin 8) (hs : Settled s) : ∃ t, exec (.coreRun n) s = .next t ∧ t.mem = s.mem ∧
    if isPending s TOP_CORE_CMD then Answered TOP_CORE_CMD 2 s t else if 4 ≤ n.val then Answered TOP_CORE_CMD 3 s t
    else if coreState s n ≠ 0 then Refused TOP_CORE_CMD s t
    else coreState t n = 1 ∧ inService t n = false ∧ Ended TOP_CORE_CMD 0 t ∧
      coreOf t n = { coreOf s n with pc := (rd s (TOP_COREn_ENTRY n)).toNat } ∧ (∀ m, m ≠ n.val → coreOf t m = coreOf s m) ∧
      ∀ a, a ≠ TOP_CORE_CMD → a ≠ TOP_COREn_STATUS n → rd t a = rd s a := by
  refine Exists.imp (fun t ht => ⟨ht.1, mem_of_exec (c := .coreRun n) ht.1 (show Comp.mem ∉ [Comp.accepted, Comp.cores] by decide), ht.2⟩)
    (coreCmd_answers (o := exec (.coreRun n) s) (n := n) hs rfl fun _ _ => ?_)
  split
  · exact ⟨_, rfl, refused_coreCmd s⟩
  · obtain ⟨hstate, hmode, hrd⟩ := runCore_regs n s
    exact ⟨_, done_settled_next (settled_runCore hs), hstate, hmode, ended_runCore hs, coreOf_runCore n s,
      fun m hm => coreOf_runCore_other hm s, hrd⟩

end Sys2Proof.Machine

namespace Sys2Proof.Machine
open Sys2Proof

/-! ### HALT (R249, R250) -/

/-- Between `s` and `t`, stores of core `n` may have reached memory: beside the controller's registers and the cores' caches, only its write
buffer changed. -/
structure StoresOnly (n : Nat) (s t : State) : Prop where
  regs : ∀ a, inDmc a = false → rd t a = rd s a
  core : ∃ c l, coreOf t n = { coreOf s n with cache := c, stores := l }

namespace StoresOnly

variable {n : Nat} {s t u : State}

protected theorem refl (n : Nat) (s : State) : StoresOnly n s s := ⟨fun _ _ => rfl, (coreOf s n).cache, (coreOf s n).stores, rfl⟩

/-- The write buffer of core `n` changes. -/
theorem setStores (n : Nat) (l : List (Nat × List Byte)) (s : State) : StoresOnly n s (setCore n { coreOf s n with stores := l } s) :=
  ⟨fun _ _ => rfl, (coreOf s n).cache, l, coreOf_setCore_same ..⟩

theorem trans_dram (h : StoresOnly n s t) (h' : DramOnly t u) : StoresOnly n s u where
  regs a ha := (h'.regs a ha).trans (h.regs a ha)
  core := by
    obtain ⟨c, l, hcore⟩ := h.core
    obtain ⟨c', hcore'⟩ := h'.cores n
    exact ⟨c', l, by rw [hcore', hcore]⟩

theorem reg (h : StoresOnly n s t) (r : Nat) : reg t n r = reg s n r := by
  obtain ⟨c, l, hcore⟩ := h.core
  rw [Machine.reg, hcore, Machine.reg]

end StoresOnly

theorem storesOnly_drainStores (n : Nat) (s : State) : StoresOnly n s (drainStores s n) ∧ (coreOf (drainStores s n) n).stores = [] := by
  unfold drainStores
  dsimp only
  split
  · next h => exact ⟨.refl n s, h⟩
  · have hdram : DramOnly (setCore n { coreOf s n with stores := [] } s)
        ((coreOf s n).stores.foldl (fun s q => coreWrite n q.1 q.2 s) (setCore n { coreOf s n with stores := [] } s)) :=
      .foldl (fun s (q : Nat × List Byte) => .coreWrite n q.1 q.2 s) _ _
    refine ⟨(StoresOnly.setStores n [] s).trans_dram hdram, ?_⟩
    obtain ⟨c, hcore⟩ := hdram.cores n
    rw [hcore, coreOf_setCore_same]

theorem storesOnly_drainOne (n : Nat) (s : State) : StoresOnly n s (drainOne n s) := by
  unfold drainOne
  dsimp only
  split
  · exact (StoresOnly.setStores n _ s).trans_dram (.coreWrite ..)
  · exact .refl n s

theorem storesOnly_abandonStore (n : Nat) (s : State) : StoresOnly n s (abandonStore n s) := by
  unfold abandonStore
  dsimp only
  split
  · split
    · exact (storesOnly_drainOne n s).trans_dram (.freshen _)
    · exact (StoresOnly.setStores n _ s).trans_dram (.freshen _)
  · exact .refl n s

/-- A core stands: HALTED and awake, and CORE_HALTED is posted (R249). -/
def standStill (n : Nat) (s : State) : State :=
  raise 181 (setFlag (setCoreState n 0 (setCore n { coreOf s n with asleep := none } s)) (TOP_COREn_STATUS.SLEEP n) false)

theorem halted_eq {n : Nat} {w : Word} (s : State) (h : opOf w ≠ 3) :
    halted n w s = complete TOP_CORE_CMD 0 (standStill n (drainStores s n)) := if_neg h

/-- A register outside the Ledger's block after a command ends. -/
theorem fld_settle_complete {a code : Nat} {s : State} {f : Fld} (h : f.reg ≠ a) (hl : OutsideLdg f.reg) :
    fld (settle (complete a code s)) f = fld s f := by
  rw [fld_settle _ _ hl, fld_complete_other h]

theorem coreState_setCoreState (n st : Nat) (s : State) : coreState (setCoreState n st s) n = st % 8 :=
  fld_setFld_same s (TOP_COREn_STATUS.STATE n) st (Nat.le_of_ble_eq_true rfl)

theorem coreState_setSleep (n : Nat) (b : Bool) (s : State) : coreState (setFlag s (TOP_COREn_STATUS.SLEEP n) b) n = coreState s n :=
  fld_setFld_beside s (TOP_COREn_STATUS.STATE n) (TOP_COREn_STATUS.SLEEP n) _ rfl (Nat.le_of_ble_eq_true rfl) (Nat.le_of_ble_eq_true rfl)
    (Or.inl (Nat.le_of_ble_eq_true rfl))

theorem outsideLdg_status {n : Nat} (hn : n < 8) : OutsideLdg (TOP_COREn_STATUS n) := outsideLdg_of (Or.inl (by unfold TOP_COREn_STATUS; omega))

theorem status_ne_cmd (n : Nat) : TOP_COREn_STATUS n ≠ TOP_CORE_CMD := by
  unfold TOP_COREn_STATUS TOP_CORE_CMD
  omega

theorem coreState_complete {n : Nat} (hn : n < 8) (code : Nat) (s : State) :
    coreState (settle (complete TOP_CORE_CMD code s)) n = coreState s n :=
  fld_settle_complete (status_ne_cmd n) (outsideLdg_status hn)

theorem coreState_standStill (n : Nat) (s : State) : coreState (standStill n s) n = 0 := by
  have hraise : ∀ u, coreState (raise 181 u) n = coreState u n := fun u => by simp [coreState]
  rw [standStill, hraise, coreState_setSleep, coreState_setCoreState]

theorem coreOf_standStill (n : Nat) (s : State) : coreOf (standStill n s) n = { coreOf s n with asleep := none } := by
  rw [standStill, coreOf_raise, coreOf_setFlag, setCoreState, coreOf_setFld, coreOf_setCore_same]

theorem rd_standStill {n a : Nat} (s : State) (h : a ≠ TOP_COREn_STATUS n) : rd (standStill n s) a = rd s a := by
  have hraise : ∀ u, rd (raise 181 u) a = rd u a := fun u => by simp
  rw [standStill, hraise, setFlag, rd_setFld_other _ _ _ _ h, setCoreState, rd_setFld_other _ _ _ _ h]
  rfl

/-- No register of a core's WATCH set is one of the command, of STATUS or of the memory controller. -/
theorem watchk_apart {c n k : Nat} (hc : c < 5) (hk : k < 8) :
    TOP_COREn_WATCHk c k ≠ TOP_CORE_CMD ∧ TOP_COREn_WATCHk c k ≠ TOP_COREn_STATUS n ∧ inDmc (TOP_COREn_WATCHk c k) = false := by
  unfold TOP_COREn_WATCHk TOP_CORE_CMD TOP_COREn_STATUS inDmc
  refine ⟨by omega, by omega, decide_eq_false (by omega)⟩

/-- CORE_HALTED reaches the cores that watch it. -/
theorem posted_halted {n : Nat} {s u : State} (hraised : 181 ∈ u.fab.raised)
    (hregs : ∀ a, a ≠ TOP_COREn_STATUS n → a ≠ TOP_CORE_CMD → inDmc a = false → rd u a = rd s a) :
    Posted 181 s (settle u) := by
  refine settle_posted_of 181 (by decide) hraised fun c hc => ?_
  obtain ⟨hcmd, hstatus, hdmc⟩ := watchk_apart (n := n) hc (k := 181 / 32) (by decide)
  exact hregs _ hstatus hcmd hdmc

/-- A core that stops in good order (R249). -/
theorem halted_results {n : Nat} {w : Word} (hn : n < 8) (hw : opOf w ≠ 3) (s : State) :
    coreState (settle (halted n w s)) n = 0 ∧ Ended TOP_CORE_CMD 0 (settle (halted n w s)) ∧ (coreOf (settle (halted n w s)) n).asleep = none ∧
    (coreOf (settle (halted n w s)) n).stores = [] ∧ Posted 181 s (settle (halted n w s)) ∧
    ∀ r, reg (settle (halted n w s)) n r = reg s n r := by
  obtain ⟨hdrain, hstores⟩ := storesOnly_drainStores n s
  have hcore : coreOf (settle (complete TOP_CORE_CMD 0 (standStill n (drainStores s n)))) n =
      { coreOf (drainStores s n) n with asleep := none } := by
    rw [coreOf_settle, coreOf_complete, coreOf_standStill]
  rw [halted_eq s hw, hcore]
  refine ⟨?_, ended_complete _ _ _ (by decide) rfl, rfl, hstores, ?_, fun r => ?_⟩
  · rw [coreState_complete hn, coreState_standStill]
  · refine posted_halted (n := n) (mem_raise 181 _) fun a hstatus hcmd hdmc => ?_
    rw [complete_rd _ _ _ hcmd, rd_standStill _ hstatus, hdrain.regs a hdmc]
  · rw [reg, hcore]
    exact hdrain.reg r

/-- A field of a word as a number. -/
theorem fget_eq (x : Word) (lo : Nat) {w : Nat} (hw : w ≤ 32) : fget x lo w = x.toNat / 2 ^ lo % 2 ^ w := by
  apply Nat.eq_of_testBit_eq
  intro i
  rw [testBit_fget _ _ _ _ hw, Nat.testBit_mod_two_pow, Nat.testBit_div_two_pow, BitVec.getLsbD, Nat.add_comm]

theorem opOf_coreWord {op n : Nat} (hop : op < 16) (flush drop : Bool) : opOf (coreWord op n flush drop) = op := by
  rw [opOf, fget_eq _ _ (by decide), coreWord, w32, BitVec.toNat_ofNat]
  omega

/-- The clause of O47 about HALT. -/
theorem coreHalt_results (s : State) (n : Fin 8) (hs : Settled s) : ∃ t, exec (.coreHalt n) s = .next t ∧
    if isPending s TOP_CORE_CMD then Answered TOP_CORE_CMD 2 s t else if 4 ≤ n.val then Answered TOP_CORE_CMD 3 s t
    else if coreState s n ≠ 1 then Refused TOP_CORE_CMD s t
    else if (coreOf s n).asleep = none then Accepted TOP_CORE_CMD (w32 (n.val * 16 + 2)) s t ∧ coreOf t n = coreOf s n
    else coreState t n = 0 ∧ Ended TOP_CORE_CMD 0 t ∧ (coreOf t n).asleep = none ∧ Posted 181 s t ∧ ∀ r, reg t n r = reg s n r := by
  refine coreCmd_answers (o := exec (.coreHalt n) s) (n := n) hs rfl fun _ _ => ?_
  split
  · exact ⟨_, rfl, refused_coreCmd s⟩
  · refine ⟨_, rfl, ?_⟩
    by_cases hawake : (coreOf s n).asleep = none
    · rw [if_pos hawake, stopCore, hawake]
      have hword : coreWord 2 n false false = w32 (n.val * 16 + 2) := by simp [coreWord, bit]
      rw [hword]
      exact ⟨accepted_accept _ _ s hs, by rw [if_neg (by simp), coreOf_settle, coreOf_accept]⟩
    · rw [if_neg hawake, stopCore, if_pos (Option.isSome_iff_ne_none.mpr hawake)]
      obtain ⟨hstate, hended, hasleep, -, hposted, hreg⟩ := halted_results n.isLt (w := coreWord 2 n false false)
        (by rw [opOf_coreWord (by decide)]; decide) s
      exact ⟨hstate, hended, hasleep, hposted, hreg⟩

/-- The clause of O47 about CORE_HALTED. -/
theorem coreHalted_results {s : State} {n : Fin 4} {c : Acc} (hc : haltPending s n = some c) (hop : opOf c.word ≠ 3) :
    ∃ t, exec (.coreHalted n) s = .next t ∧ coreState t n = 0 ∧ Ended TOP_CORE_CMD 0 t ∧ (coreOf t n).stores = [] ∧ Posted 181 s t ∧
      ∀ r, reg t n r = reg s n r := by
  have hstep : exec (.coreHalted n) s = .next (settle (halted n c.word s)) := by
    change execCoreHalted n s = _
    rw [execCoreHalted, hc]
    rfl
  obtain ⟨hstate, hended, -, hstores, hposted, hreg⟩ := halted_results (Nat.lt_trans n.isLt (by decide)) hop s
  exact ⟨_, hstep, hstate, hended, hstores, hposted, hreg⟩

/-- The clause of O47 about HALT_TIMEOUT. -/
theorem haltTimeout_results {s : State} {n : Fin 4} {c : Acc} (hc : haltPending s n = some c) (hat : c.at0 + 100000 * 65536 ≤ clk s) :
    ∃ t, exec (.haltTimeout n) s = .next t ∧ coreState t n = 0 ∧ Ended TOP_CORE_CMD 5 t ∧ Posted 181 s t ∧
      ∀ r, reg t n r = reg s n r := by
  have hstores := storesOnly_abandonStore n s
  have hstep : exec (.haltTimeout n) s =
      .next (settle (raise 181 (complete TOP_CORE_CMD 5 (setCoreState n 0 (abandonStore n s))))) := by
    change execHaltTimeout n s = _
    simp only [execHaltTimeout, hc]
    exact if_pos hat
  generalize abandonStore n s = u at hstores hstep
  have hn : n.val < 8 := Nat.lt_trans n.isLt (by decide)
  have hfld : ∀ f : Fld, OutsideLdg f.reg → fld (settle (raise 181 (complete TOP_CORE_CMD 5 (setCoreState n 0 u)))) f =
      fld (complete TOP_CORE_CMD 5 (setCoreState n 0 u)) f := fun f hf => by
    rw [fld_settle _ _ hf]
    simp
  refine ⟨_, hstep, ?_, ⟨?_, ?_⟩, ?_, fun r => ?_⟩
  · rw [coreState, hfld _ (outsideLdg_status hn), fld_complete_other (status_ne_cmd n)]
    exact coreState_setCoreState n 0 u
  · rw [hfld ⟨TOP_CORE_CMD, 24, 8⟩ rfl, complete_status]
    rfl
  · rw [isPending, hfld ⟨TOP_CORE_CMD, 23, 1⟩ rfl]
    exact complete_isPending ..
  · refine posted_halted (n := n) (mem_raise 181 _) fun a hstatus hcmd hdmc => ?_
    have hraise : ∀ v, rd (raise 181 v) a = rd v a := fun v => by simp
    rw [hraise, complete_rd _ _ _ hcmd, setCoreState, rd_setFld_other _ _ _ _ hstatus, hstores.regs a hdmc]
  · rw [reg, coreOf_settle, coreOf_raise, coreOf_complete, setCoreState, coreOf_setFld, ← reg, hstores.reg]

end Sys2Proof.Machine

namespace Sys2Proof.Machine
open Sys2Proof

/-! ### RESTART (R251) -/

/-- One word of the PEND, WATCH and VEC sets of core `n` is cleared. -/
def clearWord (n : Nat) (s : State) (k : Nat) : State := wr (wr (setPend s n k 0) (TOP_COREn_WATCHk n k) 0) (TOP_COREn_VECk n k) 0

theorem rd_clearWord (n k : Nat) (s : State) (a : Nat) :
    rd (clearWord n s k) a = if a = TOP_COREn_VECk n k ∨ a = TOP_COREn_WATCHk n k then 0 else rd s a := by
  rw [clearWord, rd_wr, rd_wr]
  by_cases h : a = TOP_COREn_VECk n k <;> by_cases h' : a = TOP_COREn_WATCHk n k <;> simp [h, h']

theorem pendWord_clearWord (n k : Nat) (s : State) (j : Nat) : pendWord (clearWord n s k) n j = if j = k then 0 else pendWord s n j := by
  have hset : pendWord (clearWord n s k) n j = pendWord (setPend s n k 0) n j := rfl
  rw [hset, pendWord_setPend]
  simp

theorem clearEvents_eq (n : Nat) (s : State) : clearEvents n s = (List.range 8).foldl (clearWord n) s := rfl

/-- The words cleared so far are zero. -/
theorem cleared_upto (n : Nat) (s : State) {m : Nat} (hm : m ≤ 8) : ∀ k < m, pendWord ((List.range m).foldl (clearWord n) s) n k = 0 ∧
    rd ((List.range m).foldl (clearWord n) s) (TOP_COREn_WATCHk n k) = 0 ∧ rd ((List.range m).foldl (clearWord n) s) (TOP_COREn_VECk n k) = 0 := by
  induction m with
  | zero => exact fun k hk => absurd hk (Nat.not_lt_zero k)
  | succ m ih =>
    intro k hk
    rw [List.range_succ, List.foldl_append, List.foldl_cons, List.foldl_nil, pendWord_clearWord, rd_clearWord, rd_clearWord]
    by_cases h : k = m
    · subst h
      simp
    · obtain ⟨hpend, hwatch, hvec⟩ := ih (by omega) k (by omega)
      refine ⟨by rw [if_neg h, hpend], ?_, ?_⟩
      · rw [hwatch, ite_self]
      · rw [hvec, ite_self]

theorem clearEvents_clears (n : Nat) (s : State) : ∀ k < 8, pendWord (clearEvents n s) n k = 0 ∧
    rd (clearEvents n s) (TOP_COREn_WATCHk n k) = 0 ∧ rd (clearEvents n s) (TOP_COREn_VECk n k) = 0 := cleared_upto n s (Nat.le_refl 8)

theorem rd_clearEvents (n : Nat) (s : State) {a : Nat} (h : a < TOP_COREn_WATCHk n 0 ∨ TOP_COREn_WATCHk n 0 + 0x60 ≤ a) :
    rd (clearEvents n s) a = rd s a := by
  rw [clearEvents_eq]
  have hkeep : ∀ l : List Nat, (∀ k ∈ l, k < 8) → ∀ u, rd (l.foldl (clearWord n) u) a = rd u a := by
    intro l
    induction l with
    | nil => exact fun _ _ => rfl
    | cons k l ih =>
      intro hl u
      have hk := hl k List.mem_cons_self
      unfold TOP_COREn_WATCHk at h
      rw [List.foldl_cons, ih (fun j hj => hl j (List.mem_cons_of_mem k hj)), rd_clearWord, if_neg]
      unfold TOP_COREn_VECk TOP_COREn_WATCHk
      omega
  exact hkeep _ (fun k hk => List.mem_range.mp hk) s

/-- What the clearing of the event sets and of queues leaves: the cores' records, the events under way and memory. -/
def stillParts (s : State) : Tab Core × List Nat × Tab Byte := (s.cores.core, s.fab.raised, s.mem)

theorem stillParts_clearEvents (n : Nat) (s : State) : stillParts (clearEvents n s) = stillParts s := by
  rw [clearEvents_eq]
  exact foldl_keeps stillParts (fun s k => by simp [stillParts, clearWord]) _ s

theorem stillParts_flushQueues (l : List Nat) (s : State) : stillParts (l.foldl flushQueue s) = stillParts s :=
  foldl_keeps stillParts (f := flushQueue) (fun s q => by simp [stillParts, flushQueue]) l s

theorem queueOf_flushQueues (l : List Nat) (s : State) (q : Nat) :
    queueOf (l.foldl flushQueue s) q = if q ∈ l then { } else queueOf s q := by
  induction l generalizing s with
  | nil => simp
  | cons k l ih =>
    rw [List.foldl_cons, ih]
    by_cases hq : q = k
    · subst hq
      simp [flushQueue]
    · simp [flushQueue, queueOf_setQueue_other _ _ hq, hq]

theorem rd_flushQueues {l : List Nat} (s : State) {a : Nat} (h : ∀ q ∈ l, a ≠ TOP_QSTATq q) : rd (l.foldl flushQueue s) a = rd s a := by
  induction l generalizing s with
  | nil => rfl
  | cons q l ih =>
    rw [List.foldl_cons, ih _ fun k hk => h k (List.mem_cons_of_mem q hk)]
    exact rd_wr_other s 0 (h q List.mem_cons_self)

/-- A core that restarts, before its queues: its record and its event sets are as after a reset, and RESTARTS has counted. -/
def restartBase (n : Nat) (s : State) : State :=
  addMod (setFlag (clearEvents n (setCore n (freshCore s n) s)) (TOP_COREn_STATUS.SLEEP n) false) (TOP_COREn_RESTARTS.COUNT n) 1

/-- Its own queues are emptied where `flush` says so. -/
def flushed (flush : Bool) (n : Nat) (s : State) : State := if flush then (ownQueues n).foldl flushQueue s else s

/-- Its commit descriptors are dropped where `drop` says so. -/
def dropped (drop : Bool) (n : Nat) (s : State) : State := if drop then dropCommits n s else s

theorem nbit_coreWord {n : Nat} (hn : n < 8) (flush drop : Bool) :
    nbit (coreWord 3 n flush drop).toNat 8 = flush ∧ nbit (coreWord 3 n flush drop).toNat 9 = drop := by
  have hword : (coreWord 3 n flush drop).toNat = bit drop * 512 + bit flush * 256 + n * 16 + 3 := by
    rw [coreWord, w32, BitVec.toNat_ofNat]
    cases flush <;> cases drop <;> simp [bit] <;> omega
  rw [hword, nbit, nbit]
  cases flush <;> cases drop <;> simp [bit, Nat.testBit_eq_decide_div_mod_eq] <;> omega

/-- RESTART of a core whose stores have all reached memory. -/
theorem restartCore_eq {n : Nat} {s : State} (hn : n < 8) (flush drop : Bool) (hempty : (coreOf s n).stores = []) :
    restartCore n (coreWord 3 n flush drop) s = runCore n (dropped drop n (flushed flush n (restartBase n s))) := by
  have hfence : fence n s = dropCache n s := congrArg (dropCache n) (if_pos hempty)
  have hset : setCore n (freshCore (dropCache n s) n) (dropCache n s) = setCore n (freshCore s n) s := setCore_setCore n _ _ s
  obtain ⟨hflush, hdrop⟩ := nbit_coreWord hn flush drop
  rw [restartCore, hfence, hset, hflush, hdrop]
  rfl

section
variable (n : Nat) (s : State)

theorem stillParts_restartBase : stillParts (restartBase n s) = stillParts (setCore n (freshCore s n) s) := by
  have hrest : ∀ u, stillParts (addMod (setFlag u (TOP_COREn_STATUS.SLEEP n) false) (TOP_COREn_RESTARTS.COUNT n) 1) = stillParts u :=
    fun u => by simp [stillParts]
  rw [restartBase, hrest, stillParts_clearEvents]

theorem stillParts_flushed (flush : Bool) : stillParts (flushed flush n s) = stillParts s := by
  unfold flushed
  split
  · exact stillParts_flushQueues ..
  · rfl

theorem stillParts_dropped (drop : Bool) : stillParts (dropped drop n s) = stillParts s := by
  unfold dropped
  split
  · simp [stillParts, dropCommits]
  · rfl

/-- The registers of a core's block, of which RESTART writes RESTARTS, STATUS and the event sets. -/
theorem rd_restartBase {a : Nat} (hstatus : a ≠ TOP_COREn_STATUS n) (hcount : a ≠ TOP_COREn_RESTARTS n)
    : rd (restartBase n s) a = rd (clearEvents n (setCore n (freshCore s n) s)) a := by
  rw [restartBase, addMod, rd_setFld_other _ _ _ _ hcount, setFlag, rd_setFld_other _ _ _ _ hstatus]

theorem fld_restarts_restartBase : fld (restartBase n s) (TOP_COREn_RESTARTS.COUNT n) =
    (fld s (TOP_COREn_RESTARTS.COUNT n) + 1) % 2 ^ (TOP_COREn_RESTARTS.COUNT n).w := by
  have hbefore : fld (setFlag (clearEvents n (setCore n (freshCore s n) s)) (TOP_COREn_STATUS.SLEEP n) false) (TOP_COREn_RESTARTS.COUNT n) =
      fld s (TOP_COREn_RESTARTS.COUNT n) := by
    have hclear : rd (clearEvents n (setCore n (freshCore s n) s)) (TOP_COREn_RESTARTS n) = rd s (TOP_COREn_RESTARTS n) :=
      rd_clearEvents n _ (Or.inl (by unfold TOP_COREn_RESTARTS TOP_COREn_WATCHk; omega))
    rw [setFlag, fld_setFld_reg _ _ _ _ (by dsimp only; omega), fld, hclear, fld]
  rw [restartBase, addMod, hbefore, fld_setFld_same _ _ _ (Nat.le_of_ble_eq_true rfl), Nat.mod_mod]

end

end Sys2Proof.Machine

namespace Sys2Proof.Machine
open Sys2Proof

/-! ### The queues and registers after RESTART (R251) -/

section
variable (n : Nat) (s : State) (flush drop : Bool)

theorem fab_flushed : (flushed flush n s).fab = s.fab := by
  unfold flushed
  split
  · exact foldl_keeps (f := flushQueue) (·.fab) (fun s q => by simp [flushQueue]) _ s
  · rfl

theorem fab_dropped : (dropped drop n s).fab = s.fab := by
  unfold dropped
  split
  · simp [dropCommits]
  · rfl

theorem rd_flushed {a : Nat} (ha : a < 0xA0000800) : rd (flushed flush n s) a = rd s a := by
  unfold flushed
  split
  · exact rd_flushQueues s fun q _ => by unfold TOP_QSTATq; omega
  · rfl

theorem rd_dropped {a : Nat} (ha : a ≠ TOP_COREn_COMMIT_CNT n) : rd (dropped drop n s) a = rd s a := by
  unfold dropped
  split
  · exact rd_setFld_other s (TOP_COREn_COMMIT_CNT.DROPPED n) _ a ha
  · rfl

theorem queueOf_flushed (q : Nat) : queueOf (flushed flush n s) q = if flush = true ∧ q ∈ ownQueues n then { } else queueOf s q := by
  unfold flushed
  cases flush <;> simp [queueOf_flushQueues]

theorem queueOf_dropped (q : Nat) : queueOf (dropped drop n s) q = if drop = true ∧ q = 60 + n then { } else queueOf s q := by
  unfold dropped
  cases drop
  · simp
  · by_cases hq : q = 60 + n
    · subst hq
      simp [dropCommits]
    · have hother : queueOf (dropCommits n s) q = queueOf s q := (queueOf_setQueue_other _ _ hq).trans rfl
      simp [hother, hq]

theorem queueOf_of_queue {s t : State} (h : t.cores.queue = s.cores.queue) (q : Nat) : queueOf t q = queueOf s q := by
  rw [queueOf, queueOf, h]

theorem queueOf_restartBase (q : Nat) : queueOf (restartBase n s) q = queueOf s q := by
  have hclear : ∀ u, (clearEvents n u).cores.queue = u.cores.queue := fun u => by
    rw [clearEvents_eq]
    exact foldl_keeps (f := clearWord n) (·.cores.queue) (fun s k => by simp [clearWord]) _ u
  refine queueOf_of_queue ?_ q
  rw [restartBase]
  simp [hclear]

theorem queueOf_runCore (q : Nat) : queueOf (runCore n s) q = queueOf s q :=
  queueOf_of_queue (by simp [runCore, complete, setPc, setMode, setCoreState]) q

theorem mem_runCore : (runCore n s).mem = s.mem := by simp [runCore, complete, setPc, setMode, setCoreState]

/-- A core's own queues lie below the commit queues. -/
theorem ownQueues_lt {n q : Nat} (hn : n < 4) (hq : q ∈ ownQueues n) : q < 60 := by
  obtain ⟨l, hl, rfl⟩ := List.mem_map.mp hq
  have hl := List.mem_range.mp hl
  unfold localQueue
  split <;> omega

theorem localQueue_mem {n l : Nat} (hl : l < 12) : localQueue n l ∈ ownQueues n := List.mem_map.mpr ⟨l, List.mem_range.mpr hl, rfl⟩

end

/-- The state of a core that has restarted, before it runs. -/
def restarted (n : Nat) (flush drop : Bool) (s : State) : State := dropped drop n (flushed flush n (restartBase n s))

section
variable (n : Nat) (s : State) (flush drop : Bool)

theorem stillParts_restarted : stillParts (restarted n flush drop s) = stillParts (setCore n (freshCore s n) s) := by
  rw [restarted, stillParts_dropped, stillParts_flushed, stillParts_restartBase]

theorem settled_restarted {s : State} (hs : Settled s) : Settled (restarted n flush drop s) := by
  have hraised : (restarted n flush drop s).fab.raised = s.fab.raised := congrArg (·.2.1) (stillParts_restarted n s flush drop)
  rw [Settled, hraised, hs]

theorem mem_restarted : (restarted n flush drop s).mem = s.mem := congrArg (·.2.2) (stillParts_restarted n s flush drop)

theorem coreOf_restarted (m : Nat) : coreOf (restarted n flush drop s) m = if m = n then freshCore s n else coreOf s m := by
  have hcore : (restarted n flush drop s).cores.core = (setCore n (freshCore s n) s).cores.core :=
    congrArg (·.1) (stillParts_restarted n s flush drop)
  rw [← coreOf_setCore, coreOf, hcore, ← coreOf]

/-- The block of core `n` beside its event sets after RESTART. -/
theorem rd_restarted_block (hn : n < 4) {a : Nat} (hlow : a < TOP_COREn_WATCHk n 0) (hstatus : a ≠ TOP_COREn_STATUS n)
    (hcount : a ≠ TOP_COREn_RESTARTS n) (hcnt : a ≠ TOP_COREn_COMMIT_CNT n) : rd (restarted n flush drop s) a = rd s a := by
  have hhigh : a < 0xA0000800 := by
    unfold TOP_COREn_WATCHk at hlow
    omega
  rw [restarted, rd_dropped _ _ _ hcnt, rd_flushed _ _ _ hhigh, rd_restartBase _ _ hstatus hcount, rd_clearEvents _ _ (Or.inl hlow)]
  rfl

theorem fld_restarts_restarted (hn : n < 4) : fld (restarted n flush drop s) (TOP_COREn_RESTARTS.COUNT n) =
    (fld s (TOP_COREn_RESTARTS.COUNT n) + 1) % 2 ^ (TOP_COREn_RESTARTS.COUNT n).w := by
  have hrd : rd (restarted n flush drop s) (TOP_COREn_RESTARTS n) = rd (restartBase n s) (TOP_COREn_RESTARTS n) := by
    rw [restarted, rd_dropped _ _ _ (by unfold TOP_COREn_RESTARTS TOP_COREn_COMMIT_CNT; omega),
      rd_flushed _ _ _ (by unfold TOP_COREn_RESTARTS; omega)]
  rw [fld, hrd, ← fld_restarts_restartBase, fld]

/-- The words of the WATCH and VEC sets of a core. -/
def inEventSets (n a : Nat) : Prop := TOP_COREn_WATCHk n 0 ≤ a ∧ a < TOP_COREn_WATCHk n 0 + 0x60

theorem inEventSets_watchk {n k : Nat} (hk : k < 8) : inEventSets n (TOP_COREn_WATCHk n k) := by
  unfold inEventSets TOP_COREn_WATCHk
  omega

theorem inEventSets_veck {n k : Nat} (hk : k < 8) : inEventSets n (TOP_COREn_VECk n k) := by
  unfold inEventSets TOP_COREn_VECk TOP_COREn_WATCHk
  omega

/-- What follows the clearing of the event sets leaves them. -/
theorem rd_eventSets_runCore (hn : n < 4) {a : Nat} (ha : inEventSets n a) :
    rd (runCore n (restarted n flush drop s)) a = rd (clearEvents n (setCore n (freshCore s n) s)) a := by
  obtain ⟨-, -, hrd⟩ := runCore_regs n (restarted n flush drop s)
  unfold inEventSets TOP_COREn_WATCHk at ha
  rw [hrd _ (by unfold TOP_CORE_CMD; omega) (by unfold TOP_COREn_STATUS; omega), restarted,
    rd_dropped _ _ _ (by unfold TOP_COREn_COMMIT_CNT; omega), rd_flushed _ _ _ (by omega),
    rd_restartBase _ _ (by unfold TOP_COREn_STATUS; omega) (by unfold TOP_COREn_RESTARTS; omega)]

/-- The event sets of a core that has restarted. -/
theorem events_runCore (hn : n < 4) {k : Nat} (hk : k < 8) : pendWord (runCore n (restarted n flush drop s)) n k = 0 ∧
    rd (runCore n (restarted n flush drop s)) (TOP_COREn_WATCHk n k) = 0 ∧
    rd (runCore n (restarted n flush drop s)) (TOP_COREn_VECk n k) = 0 := by
  obtain ⟨hpend, hwatch, hvec⟩ := clearEvents_clears n (setCore n (freshCore s n) s) k hk
  have hfab : (runCore n (restarted n flush drop s)).fab = (clearEvents n (setCore n (freshCore s n) s)).fab := by
    rw [fab_runCore, restarted, fab_dropped, fab_flushed, restartBase]
    simp
  exact ⟨(pendWord_of_fab hfab n k).trans hpend, (rd_eventSets_runCore n s flush drop hn (inEventSets_watchk hk)).trans hwatch,
    (rd_eventSets_runCore n s flush drop hn (inEventSets_veck hk)).trans hvec⟩

/-- The queues after RESTART. -/
theorem queueOf_restarted (q : Nat) : queueOf (restarted n flush drop s) q =
    if drop = true ∧ q = 60 + n then { } else if flush = true ∧ q ∈ ownQueues n then { } else queueOf s q := by
  rw [restarted, queueOf_dropped, queueOf_flushed, queueOf_restartBase]

end

/-- The clause of O47 about RESTART. -/
theorem coreRestart_results (s : State) (n : Fin 8) (flush drop : Bool) (hs : Settled s) : ∃ t, exec (.coreRestart n flush drop) s = .next t ∧
    if isPending s TOP_CORE_CMD then Answered TOP_CORE_CMD 2 s t else if 4 ≤ n.val then Answered TOP_CORE_CMD 3 s t
    else if coreState s n = 1 then ((coreOf s n).asleep = none → ∃ w, opOf w = 3 ∧ Accepted TOP_CORE_CMD w s t ∧ coreOf t n = coreOf s n)
    else (coreOf s n).stores = [] → coreState t n = 1 ∧ inService t n = false ∧ Ended TOP_CORE_CMD 0 t ∧ t.mem = s.mem ∧
      coreOf t n = { pc := (rd s (TOP_COREn_ENTRY n)).toNat, vbase := rd s (TOP_COREn_ENTRY n) &&& 0xFFFFFF00, cycle0 := clk s } ∧
      fld t (TOP_COREn_RESTARTS.COUNT n) = (fld s (TOP_COREn_RESTARTS.COUNT n) + 1) % 2 ^ (TOP_COREn_RESTARTS.COUNT n).w ∧
      (∀ k < 8, pendWord t n k = 0 ∧ rd t (TOP_COREn_WATCHk n k) = 0 ∧ rd t (TOP_COREn_VECk n k) = 0) ∧
      (∀ m, m ≠ n.val → coreOf t m = coreOf s m) ∧
      (∀ l < 12, queueOf t (localQueue n l) = if flush then { } else queueOf s (localQueue n l)) ∧
      (queueOf t (60 + n)).items = (if drop then [] else (queueOf s (60 + n)).items) := by
  refine coreCmd_answers (o := exec (.coreRestart n flush drop) s) (n := n) hs rfl fun _ hge => ?_
  have hn : n.val < 4 := Nat.lt_of_not_le hge
  dsimp only
  split
  · refine ⟨_, rfl, fun hawake => ?_⟩
    rw [stopCore, hawake]
    exact ⟨_, opOf_coreWord (by decide) flush drop, accepted_accept _ _ s hs, by rw [if_neg (by simp), coreOf_settle, coreOf_accept]⟩
  · refine ⟨_, rfl, fun hempty => ?_⟩
    have hsettled := settled_restarted n flush drop hs
    rw [restartCore_eq n.isLt flush drop hempty, ← restarted, settle_nothing _ (settled_runCore hsettled)]
    obtain ⟨hstate, hmode, hrd⟩ := runCore_regs n (restarted n flush drop s)
    have hentry : rd (restarted n flush drop s) (TOP_COREn_ENTRY n) = rd s (TOP_COREn_ENTRY n) :=
      rd_restarted_block n s flush drop hn (by unfold TOP_COREn_ENTRY TOP_COREn_WATCHk; omega) (by unfold TOP_COREn_ENTRY TOP_COREn_STATUS; omega)
        (by unfold TOP_COREn_ENTRY TOP_COREn_RESTARTS; omega) (by unfold TOP_COREn_ENTRY TOP_COREn_COMMIT_CNT; omega)
    refine ⟨hstate, hmode, ended_runCore hsettled, ?_, ?_, ?_, fun k hk => ?_, fun m hm => ?_, fun l hl => ?_, ?_⟩
    · rw [mem_runCore, mem_restarted]
    · rw [coreOf_runCore, coreOf_restarted, if_pos rfl, hentry]
      rfl
    · have hkeep := hrd (TOP_COREn_RESTARTS n) (by unfold TOP_COREn_RESTARTS TOP_CORE_CMD; omega)
        (by unfold TOP_COREn_RESTARTS TOP_COREn_STATUS; omega)
      rw [fld, hkeep, ← fld_restarts_restarted n s flush drop hn, fld]
    · exact events_runCore n s flush drop hn hk
    · rw [coreOf_runCore_other hm, coreOf_restarted, if_neg hm]
    · have hlt := ownQueues_lt hn (localQueue_mem (n := n) hl)
      rw [queueOf_runCore, queueOf_restarted, if_neg (by omega)]
      simp [localQueue_mem hl]
    · have hnot : ¬ (flush = true ∧ 60 + n.val ∈ ownQueues n) := fun h => absurd (ownQueues_lt hn h.2) (by omega)
      rw [queueOf_runCore, queueOf_restarted, if_neg hnot]
      cases drop <;> simp

end Sys2Proof.Machine

namespace Sys2Proof.Machine
open Sys2Proof

/-! ### What the effects of a commit leave (R244 to R248) -/

/-- Entry `n` among those that wait in its space. -/
def slPlaced (n : Nat) (s : State) : State :=
  let s1 := slForget n s
  let ins := fun (l : List Nat) => l.filter (fun k => decide (k < n)) ++ n :: l.filter (fun k => decide (n < k))
  slNoteSign n (setSl { s1.tbs.sl with wait := ins s1.tbs.sl.wait } s1)

/-- The same with its STATE, which reads WAITING unless a taken action of it is under way. -/
def slWaits (n : Nat) (s : State) : State :=
  if (slPlaced n s).tbs.sl.taken.any (fun q => decide (q.n = n)) then slPlaced n s else setSlState n 1 (slPlaced n s)

theorem slOrder_eq (n : Nat) (judge : Bool) (s : State) : slOrder n judge s =
    if slLinked s n then (if slState (slForget n s) n = 1 then setSlState n 0 (slForget n s) else slForget n s)
    else if 6 ≤ slSpace s n then
      raise 142 (addSat (setSlState n 4 (setFlag (slForget n s) (slFld n 0 31 1) false)) TBS_SL_BAD.COUNT 1)
    else if judge && flag (slWaits n s) TBS_SL_CTRL.EN && slLateNow (slWaits n s) n then slLate n (slWaits n s) else slWaits n s := rfl

/-- Between `s` and `t` no register of the core blocks changed, nor their commit queues, and what was posted still is. The count of bad
descriptors stands apart, and the message slots lie above. -/
structure LowKept (s t : State) : Prop where
  regs : ∀ a < 0xA0000A00, a ≠ TOP_COMMIT_BAD → rd t a = rd s a
  queue : t.cores.queue = s.cores.queue
  commitAt : t.cores.commitAt = s.cores.commitAt
  raised : ∀ e ∈ s.fab.raised, e ∈ t.fab.raised

namespace LowKept

variable {s t u : State}

protected theorem refl (s : State) : LowKept s s := ⟨fun _ _ _ => rfl, rfl, rfl, fun _ h => h⟩

theorem trans (h : LowKept s t) (h' : LowKept t u) : LowKept s u where
  regs a ha hbad := (h'.regs a ha hbad).trans (h.regs a ha hbad)
  queue := h'.queue.trans h.queue
  commitAt := h'.commitAt.trans h.commitAt
  raised e he := h'.raised e (h.raised e he)

theorem ite {c : Prop} [Decidable c] (ht : LowKept s t) (hu : LowKept s u) : LowKept s (if c then t else u) := by
  split
  · exact ht
  · exact hu

/-- A change beside registers, cores and events. -/
theorem of_eq (hr : t.regs = s.regs) (hc : t.cores = s.cores) (hf : t.fab = s.fab) : LowKept s t where
  regs a _ _ := by rw [rd, rd, hr]
  queue := by rw [hc]
  commitAt := by rw [hc]
  raised e he := by rwa [hf]

theorem foldl {β : Type} {f : State → β → State} (hf : ∀ s x, LowKept s (f s x)) (l : List β) (s : State) : LowKept s (l.foldl f s) := by
  induction l generalizing s with
  | nil => exact .refl s
  | cons x l ih => exact (hf s x).trans (ih _)

theorem wr (s : State) {a : Nat} (w : Word) (h : 0xA0000A00 ≤ a) : LowKept s (wr s a w) where
  regs b hb _ := rd_wr_other s w (by omega)
  queue := rfl
  commitAt := rfl
  raised _ he := he

theorem setFld (s : State) (f : Fld) (v : Nat) (h : 0xA0000A00 ≤ f.reg) : LowKept s (setFld s f v) := wr s _ h

theorem setFlag (s : State) (f : Fld) (b : Bool) (h : 0xA0000A00 ≤ f.reg) : LowKept s (setFlag s f b) := wr s _ h

theorem addSat (s : State) (f : Fld) (k : Nat) (h : 0xA0000A00 ≤ f.reg) : LowKept s (addSat s f k) := wr s _ h

theorem badCommit (s : State) : LowKept s (badCommit s) where
  regs a _ hbad := rd_setFld_other s TOP_COMMIT_BAD.COUNT _ a hbad
  queue := rfl
  commitAt := rfl
  raised _ he := he

theorem raise (n : Nat) (s : State) : LowKept s (raise n s) where
  regs a _ _ := by simp
  queue := by simp
  commitAt := by simp
  raised _ he := mem_raise_of_mem n he

theorem countOn (src k : Nat) (s : State) (n : Nat) : LowKept s (countOn src k s n) := by
  unfold Machine.countOn raiseIf
  have hset : ∀ v, LowKept s (setCount s n v) := fun v => ⟨fun _ _ _ => rfl, rfl, rfl, fun _ he => he⟩
  exact ite (ite ((hset _).trans (raise ..)) (hset _)) (.refl s)

theorem count (src k : Nat) (s : State) : LowKept s (count src k s) := ite (.refl s) (foldl (countOn src k) _ s)

theorem setSl (x : StartList) (s : State) : LowKept s (setSl x s) := of_eq rfl rfl rfl

theorem setOut (x : Outs) (s : State) : LowKept s (setOut x s) := of_eq rfl rfl rfl

/-! Entries of the Start List (R63 to R73). -/

theorem slReg (n o lo w : Nat) : 0xA0000A00 ≤ (slFld n o lo w).reg := by
  unfold slFld slAddr
  dsimp only
  omega

theorem setSlState (n st : Nat) (s : State) : LowKept s (setSlState n st s) := setFld _ _ _ (slReg ..)

theorem slForget (n : Nat) (s : State) : LowKept s (slForget n s) := setSl ..

theorem slNoteSign (n : Nat) (s : State) : LowKept s (slNoteSign n s) := ite (setSl ..) (.refl s)

theorem slAdvance (n k : Nat) (dir : Int) (s : State) : LowKept s (slAdvance n k dir s) :=
  (setFld _ _ _ (slReg ..)).trans (setFld _ _ _ (slReg ..))

/-- An entry that is cancelled. -/
theorem slCancelled (n : Nat) (s : State) :
    LowKept s (Machine.setSlState n 4 (Machine.setFlag (Machine.slForget n s) (slFld n 0 31 1) false)) :=
  ((slForget n s).trans (setFlag _ _ _ (slReg ..))).trans (setSlState ..)

theorem slSkip (n : Nat) (s : State) : LowKept s (slSkip n s) := by
  unfold Machine.slSkip
  refine ite ?_ ?_
  · exact (addSat s TBS_SL_SKIP.COUNT 1 (by decide)).trans (slCancelled ..)
  · exact (slAdvance ..).trans (addSat _ _ _ (by decide))

theorem slPeriodicNext (n : Nat) (s : State) : LowKept s (slPeriodicNext n s) := by
  unfold Machine.slPeriodicNext
  refine (slAdvance n 1 (slAdvanceDir s n) s).trans (ite (slForget ..) ?_)
  refine LowKept.trans (ite (setFld _ _ _ (slReg ..)) (.refl _)) (((setSl ..).trans (slNoteSign ..)).trans (ite (ite (slSkip ..) (setSl ..)) (.refl _)))

theorem slTaken (n cross eff : Nat) (late ends : Bool) (s : State) : LowKept s (slTaken n cross eff late ends s) :=
  (setSl ..).trans (setSlState ..)

theorem slTake (n cross eff : Nat) (late : Bool) (s : State) : LowKept s (slTake n cross eff late s) := by
  unfold Machine.slTake
  refine (slTaken ..).trans (LowKept.trans (ite ?_ (.refl _)) (ite (slPeriodicNext ..) (slForget ..)))
  exact ((setFlag _ _ _ (slReg ..)).trans (addSat _ TBS_SL_LATE.COUNT 1 (by decide))).trans (raise ..)

theorem slLate (n : Nat) (s : State) : LowKept s (slLate n s) :=
  ite (ite (slSkip ..) ((slCancelled ..).trans (addSat _ TBS_SL_SKIP.COUNT 1 (by decide)))) (slTake ..)

theorem slPlaced (n : Nat) (s : State) : LowKept s (slPlaced n s) := ((slForget n s).trans (setSl ..)).trans (slNoteSign ..)

theorem slWaits (n : Nat) (s : State) : LowKept s (slWaits n s) := (slPlaced n s).trans (ite (.refl _) (setSlState ..))

theorem slOrder (n : Nat) (judge : Bool) (s : State) : LowKept s (slOrder n judge s) := by
  rw [slOrder_eq]
  refine ite ((slForget n s).trans (ite (setSlState ..) (.refl _))) (ite ?_ ((slWaits n s).trans (ite (slLate ..) (.refl _))))
  exact ((slCancelled n s).trans (addSat _ TBS_SL_BAD.COUNT 1 (by decide))).trans (raise ..)

theorem slEnable (n : Nat) (s : State) : LowKept s (slEnable n s) :=
  ((setFlag _ _ _ (slReg ..)).trans (setFlag _ _ _ (slReg ..))).trans (slOrder ..)

/-! The kinds of a descriptor (R244). -/

theorem setInOrder (kind j place : Nat) {f : State → State} (hf : ∀ s, LowKept s (f s)) (s : State) :
    LowKept s (setInOrder kind j place f s) :=
  ite (.refl s) ((setOut ..).trans (hf _))

theorem commitOutput (t : Nat) (arg : Word) (s : State) : LowKept s (commitOutput t arg s) := by
  unfold Machine.commitOutput
  split
  · exact setInOrder _ _ _ (fun s => setFld s _ _ (by dsimp only; omega)) s
  · exact setInOrder _ _ _ (fun s => setFld s _ _ (by dsimp only; omega)) s
  · exact setOut ..

theorem putSetpoint (n : Nat) (v : Word) (s : State) : LowKept s (putSetpoint n v s) := wr s v (by unfold CTL_LOOPn_SETPOINT; omega)

theorem applyKind (kind target : Nat) (v : Word) (s : State) : LowKept s (applyKind kind target v s) := by
  unfold Machine.applyKind
  dsimp only
  split
  · exact .refl s
  · exact ite (ite (.refl s) (putSetpoint ..)) (badCommit s)
  · exact ite (ite (.refl s) (slEnable ..)) (badCommit s)
  · exact ite (ite (.refl s) (commitOutput ..)) (badCommit s)
  · exact ite (raise ..) (badCommit s)
  · exact ite (.refl s) (badCommit s)
  · exact badCommit s

theorem handFrame (message : Bool) (path dest : Nat) (data : List Byte) (s : State) : LowKept s (handFrame message path dest data s) :=
  ite (setOut ..) (.refl s)

theorem sendMessage (m : Nat) (ws : List MsgWord) (s : State) : LowKept s (sendMessage m ws s) := by
  unfold Machine.sendMessage
  split
  · exact .refl s
  · have hseq : ∀ x, LowKept s (setCores { s.cores with msgSeq := x } s) := fun x => ⟨fun _ _ _ => rfl, rfl, rfl, fun _ he => he⟩
    exact ((hseq _).trans (wr _ _ (by unfold TOP_MSGm_SEQ; omega))).trans (handFrame ..)

theorem sendMessages (k : Nat) (ms : List MsgWord) (s : State) : LowKept s (sendMessages k ms s) := by
  induction k generalizing ms s with
  | zero => exact .refl s
  | succ k ih =>
    unfold Machine.sendMessages
    split
    · exact .refl s
    · exact (sendMessage ..).trans (ih ..)

end LowKept

end Sys2Proof.Machine

namespace Sys2Proof.Machine
open Sys2Proof

/-! ### The effect of each kind (R244) -/

theorem regs_count (src k : Nat) (s : State) : (count src k s).regs = s.regs := by
  unfold count
  split
  · rfl
  · refine foldl_keeps (·.regs) (fun s n => ?_) _ s
    unfold countOn raiseIf
    split
    · dsimp only
      split <;> simp
    · rfl

theorem out_count (src k : Nat) (s : State) : (count src k s).out = s.out := (count_ok (kp := fun _ => false) Ok.start).2 .out rfl

theorem cores_count (src k : Nat) (s : State) : (count src k s).cores = s.cores := (count_ok (kp := fun _ => false) Ok.start).2 .cores rfl

theorem rd_count (src k : Nat) (s : State) (a : Nat) : rd (count src k s) a = rd s a := by rw [rd, regs_count, ← rd]

theorem fld_count (src k : Nat) (s : State) (f : Fld) : fld (count src k s) f = fld s f := by rw [fld, rd_count, ← fld]

/-- The bits of an entry's first word lie apart. -/
theorem fld_setFlag_slFld (n lo w : Nat) (b : Nat) (v : Bool) (s : State) (h : lo + w ≤ b ∨ b + 1 ≤ lo) (hw : lo + w ≤ 32) (hb : b + 1 ≤ 32) :
    fld (setFlag s (slFld n 0 b 1) v) (slFld n 0 lo w) = fld s (slFld n 0 lo w) :=
  fld_setFld_beside s (slFld n 0 lo w) (slFld n 0 b 1) _ rfl hw hb h

theorem slEn_setSlState (n st : Nat) (s : State) : slEn (setSlState n st s) n = slEn s n := by
  rw [slEn, slEn, flag, flag, setSlState,
    fld_setFld_beside s (slFld n 0 31 1) (slFld n 0 12 4) st rfl (Nat.le_refl 32) (Nat.le_of_ble_eq_true rfl)
      (Or.inr (Nat.le_of_ble_eq_true rfl))]

theorem regs_slPlaced (n : Nat) (s : State) : (slPlaced n s).regs = s.regs := by
  unfold slPlaced slNoteSign slForget
  dsimp only
  split <;> simp

theorem slEn_of_regs {s t : State} (h : t.regs = s.regs) (n : Nat) : slEn t n = slEn s n := by rw [slEn, slEn, flag, flag, fld, fld, rd, rd, h]

theorem slEn_slWaits (n : Nat) (s : State) : slEn (slWaits n s) n = slEn s n := by
  unfold slWaits
  split
  · exact slEn_of_regs (regs_slPlaced n s) n
  · rw [slEn_setSlState, slEn_of_regs (regs_slPlaced n s)]

/-- The Start List's own EN is no word of an entry. -/
theorem slCtrl_slWaits (n : Nat) (s : State) : flag (slWaits n s) TBS_SL_CTRL.EN = flag s TBS_SL_CTRL.EN := by
  have hplaced : fld (slPlaced n s) TBS_SL_CTRL.EN = fld s TBS_SL_CTRL.EN := by rw [fld, fld, rd, rd, regs_slPlaced]
  unfold slWaits
  split
  · rw [flag, hplaced, flag]
  · rw [flag, setSlState, fld_setFld_reg _ _ _ _ (by unfold slFld slAddr; dsimp only; omega), hplaced, flag]

/-- While the list is not enabled, no entry that is ordered into one of the six spaces is late, so it keeps its EN. -/
theorem slEn_slOrder {n : Nat} {s : State} (judge : Bool) (hen : slEn s n = true) (hspace : slSpace s n < 6)
    (hctrl : flag s TBS_SL_CTRL.EN = false) : slEn (slOrder n judge s) n = true := by
  have hforget : slEn (slForget n s) n = true := hen
  rw [slOrder_eq]
  split
  · split
    · rw [slEn_setSlState, hforget]
    · exact hforget
  · rw [if_neg (by omega), if_neg (by rw [slCtrl_slWaits, hctrl]; simp), slEn_slWaits, hen]

theorem slEn_slEnable {n : Nat} {s : State} (hspace : slSpace s n < 6) (hctrl : flag s TBS_SL_CTRL.EN = false) :
    slEn (slEnable n s) n = true := by
  have hne : TBS_SL_CTRL.EN.reg ≠ (slFld n 0 31 1).reg := by
    unfold slFld slAddr
    dsimp only
    omega
  refine slEn_slOrder true ?_ ?_ ?_
  · rw [slEn, flag, fld_setFlag_slFld n 31 1 11 _ _ (Or.inr (by decide)) (Nat.le_refl 32) (by decide), ← flag]
    exact flag_setFlag_same s (slFld n 0 31 1) true rfl (Nat.le_refl 32)
  · rw [slSpace, fld_setFlag_slFld n 28 3 11 _ _ (Or.inr (by decide)) (by decide) (by decide),
      fld_setFlag_slFld n 28 3 31 _ _ (Or.inl (by decide)) (by decide) (by decide)]
    exact hspace
  · have hother : ∀ b u v, fld (setFlag u (slFld n 0 b 1) v) TBS_SL_CTRL.EN = fld u TBS_SL_CTRL.EN := fun b u v => fld_setFld_reg u _ _ _ hne
    rw [flag, hother, hother, ← flag]
    exact hctrl

/-- Two's complement of 16 bits. -/
theorem signed_unsignedOf_signed (x : Nat) : signed 16 (unsignedOf 16 (signed 16 x)) = signed 16 x := by
  unfold signed unsignedOf
  dsimp only
  split <;> split <;> omega

/-- A commit sets an analog output that no later place of R211 has set. -/
theorem sfld_commitOutput {t : Nat} {v : Word} {s : State} (ht : t < 16) (hset : tget (fun _ => 0) s.out.setBy t ≤ 1) :
    sfld (commitOutput t v s) (CTL_AOUTj.CODE t) = signed 16 (fget v 0 16) := by
  have hkind : t / 64 = 0 := by omega
  have hmod : t % 16 = t := Nat.mod_eq_of_lt ht
  simp only [commitOutput, hkind, hmod]
  rw [setInOrder, Nat.mul_zero, Nat.zero_add, if_neg (by omega), setAout, setInt, sfld, fld_setFld_same _ _ _ (Nat.le_of_ble_eq_true rfl),
    Nat.mod_eq_of_lt (unsignedOf_lt ..)]
  exact signed_unsignedOf_signed _

theorem slExists_output {t : Nat} (ht : t < 16) : slExists 4 (w32 t) = true := by
  have hcases : ∀ t < 16, slExists 4 (w32 t) = true := by decide
  exact hcases t ht

/-- No kind but an entry's adds to the digest. -/
theorem digest_applyKind {kind : Nat} (target : Nat) (v : Word) (s : State) (h : kind ≠ 2) :
    (applyKind kind target v s).out.digest = s.out.digest := by
  have hbad : (badCommit s).out.digest = s.out.digest := rfl
  have hraise : (raise target s).out.digest = s.out.digest := by simp
  have hsetpoint : (putSetpoint target v s).out.digest = s.out.digest := rfl
  have houtput : (commitOutput target v s).out.digest = s.out.digest := by
    unfold commitOutput setInOrder
    split
    · split <;> rfl
    · split <;> rfl
    · rfl
  unfold applyKind
  dsimp only
  split
  · rfl
  · split
    · split
      · rfl
      · exact hsetpoint
    · exact hbad
  · exact absurd rfl h
  · split
    · split
      · rfl
      · exact houtput
    · exact hbad
  · split
    · exact hraise
    · exact hbad
  · split
    · rfl
    · exact hbad
  · exact hbad

/-- A descriptor of an unknown kind, or of a target that does not exist, only counts. -/
theorem applyKind_bad {kind target : Nat} (v : Word) (s : State) (h : 6 ≤ kind ∨ (kind = 1 ∧ 32 ≤ target) ∨ (kind = 2 ∧ 2048 ≤ target) ∨
    (kind = 4 ∧ 128 ≤ target) ∨ (kind = 5 ∧ 64 ≤ target)) : applyKind kind target v s = badCommit s := by
  obtain h | ⟨rfl, h⟩ | ⟨rfl, h⟩ | ⟨rfl, h⟩ | ⟨rfl, h⟩ := h
  · unfold applyKind
    split
    · omega
    · omega
    · omega
    · omega
    · omega
    · omega
    · rfl
  · exact if_neg (by omega)
  · exact if_neg (by omega)
  · exact if_neg (by omega)
  · exact if_neg (by omega)

end Sys2Proof.Machine

namespace Sys2Proof.Machine
open Sys2Proof

/-! ### COMMIT_DESCRIPTOR_APPLY (R244 to R248) -/

/-- The state in which the commit queues of a boundary are applied. -/
def commitBegun (s : State) : State := setCores { s.cores with commitAt := s.bnd } s

/-- The head of the commit queue of core `n` is taken. -/
def commitTaken (n : Nat) (s : State) : State :=
  setQueue (60 + n) { queueOf s (60 + n) with items := (queueOf s (60 + n)).items.drop 1, pops := clk s :: (queueOf s (60 + n)).pops } s

/-- A descriptor is noted for the digest, and counted and posted where it is late. -/
def commitNoted (n : Nat) (e : QEntry) (kind target : Nat) (v : Word) (s : State) : State :=
  let s1 := digestItem s.bnd 3 0 (commitDigest s n kind target v e.lap) s
  if e.lap < (lapD s : Int) then raise 183 (addSat s1 (TOP_COREn_COMMIT_LATE.COUNT n) 1) else s1

/-- The message word of a descriptor, where it has one. -/
def commitWords (n : Nat) (e : QEntry) (kind target : Nat) (v : Word) (s : State) : List MsgWord :=
  if kind = 5 ∧ target < 64 then [{ slot := target, core := n, lap := e.lap, value := v, late := decide (e.lap < (lapD s : Int)) }] else []

theorem applyCommit_eq {n : Nat} {e : QEntry} {a v : Word} (he : e.words = [a, v]) (s : State) : applyCommit n e [] s =
    (commitWords n e (fget a 28 4) (fget a 16 12) v s,
      count 275 1 (applyKind (fget a 28 4) (fget a 16 12) v (commitNoted n e (fget a 28 4) (fget a 16 12) v s))) := by
  unfold applyCommit commitWords commitNoted
  simp only [he, List.getD_cons_zero, List.getD_cons_succ, List.nil_append, decide_eq_true_eq]

theorem applyQueue_empty {n : Nat} (k : Nat) (ms : List MsgWord) {s : State} (h : (queueOf s (60 + n)).items = []) :
    applyQueue n k ms s = (ms, s) := by
  cases k with
  | zero => rfl
  | succ k =>
    have hdue : commitDue s n = none := by rw [commitDue, h]
    rw [applyQueue, hdue]

/-- Cores whose commit queues are empty apply nothing. -/
theorem applyQueues_empty {l : List Nat} {r : List MsgWord × State} (h : ∀ n ∈ l, (queueOf r.2 (60 + n)).items = []) :
    l.foldl (fun (r : List MsgWord × State) n => applyQueue n 16 r.1 r.2) r = r := by
  induction l with
  | nil => rfl
  | cons n l ih =>
    rw [List.foldl_cons, applyQueue_empty _ _ (h n List.mem_cons_self)]
    exact ih fun m hm => h m (List.mem_cons_of_mem n hm)

/-- With one core that has descriptors, the queues of a boundary are that core's. -/
theorem applyQueues_single {n : Fin 5} {s : State} (h : ∀ m < 5, m ≠ n.val → (queueOf s (60 + m)).items = [])
    (hkeep : ∀ m < 5, m ≠ n.val → (queueOf (applyQueue n 16 [] s).2 (60 + m)).items = []) :
    (List.range 5).foldl (fun (r : List MsgWord × State) n => applyQueue n 16 r.1 r.2) ([], s) = applyQueue n 16 [] s := by
  have hsplit : ∀ k : Fin 5, List.range 5 = List.range k ++ k.val :: List.range' (k + 1) (4 - k) := by decide
  have hbefore := applyQueues_empty (l := List.range n) (r := ([], s)) fun m hm => by
    have hm := List.mem_range.mp hm
    exact h m (by omega) (by omega)
  have hafter := applyQueues_empty (l := List.range' (n + 1) (4 - n)) (r := applyQueue n 16 [] s) fun m hm => by
    have hm := List.mem_range'_1.mp hm
    exact hkeep m (by omega) (by omega)
  rw [hsplit n, List.foldl_append, hbefore, List.foldl_cons, hafter]

section
variable (n : Nat) (e : QEntry) (kind target : Nat) (v : Word) (s : State)

theorem cores_commitNoted : (commitNoted n e kind target v s).cores = s.cores := by
  unfold commitNoted
  dsimp only
  split
  · simp [digestItem]
  · rfl

theorem rd_commitNoted {a : Nat} (h : a ≠ TOP_COREn_COMMIT_LATE n) : rd (commitNoted n e kind target v s) a = rd s a := by
  have hraise : ∀ u, rd (raise 183 u) a = rd u a := fun u => by simp
  unfold commitNoted
  dsimp only
  split
  · rw [hraise, addSat, rd_setFld_other _ _ _ _ h]
    rfl
  · rfl

/-- The digest takes one item of a descriptor first. -/
theorem out_commitNoted : ∃ d : DigestItem, (commitNoted n e kind target v s).out = { s.out with digest := s.out.digest ++ [d] } ∧
    d.data = commitDigest s n kind target v e.lap := by
  refine ⟨{ bnd := s.bnd, order := 3, key := 0, data := commitDigest s n kind target v e.lap }, ?_, rfl⟩
  unfold commitNoted
  dsimp only
  split
  · simp [digestItem]
  · rfl

/-- A late descriptor is counted and posted. -/
theorem commitNoted_late (h : e.lap < (lapD s : Int)) : 183 ∈ (commitNoted n e kind target v s).fab.raised ∧
    fld (commitNoted n e kind target v s) (TOP_COREn_COMMIT_LATE.COUNT n) =
      satNat (TOP_COREn_COMMIT_LATE.COUNT n).w (fld s (TOP_COREn_COMMIT_LATE.COUNT n) + 1) := by
  have hraise : ∀ u, fld (raise 183 u) (TOP_COREn_COMMIT_LATE.COUNT n) = fld u (TOP_COREn_COMMIT_LATE.COUNT n) := fun u => by simp
  unfold commitNoted
  dsimp only
  rw [if_pos h]
  refine ⟨mem_raise 183 _, ?_⟩
  rw [hraise, fld_addSat_same _ _ _ (Nat.le_of_ble_eq_true rfl)]
  rfl

/-- The digest bytes begin with kind, target and value (R246). -/
theorem take_commitDigest (l : Int) :
    (commitDigest s n kind target v l).take 10 = bytesLE 2 kind ++ bytesLE 4 target ++ bytesLE 4 v.toNat := by
  have hlen : (bytesLE 2 kind ++ bytesLE 4 target ++ bytesLE 4 v.toNat).length = 10 := rfl
  rw [commitDigest, List.append_assoc, List.append_assoc _ (bytesLE 8 _), List.take_append_of_le_length (by rw [hlen]), List.take_of_length_le (by rw [hlen])]

end

/-- The descriptor is due at this boundary (R245). -/
def commitIsDue (s : State) (e : QEntry) : Prop := ¬ (s.bnd ≤ e.bnd ∨ (lapD s : Int) < e.lap)

section
variable {s : State} {n : Fin 5} {e : QEntry} {a v : Word}

/-- The state before the descriptor of core `n` takes effect. -/
def commitStart (n : Nat) (e : QEntry) (a v : Word) (s : State) : State :=
  commitNoted n e (fget a 28 4) (fget a 16 12) v (commitTaken n (commitBegun s))

/-- The state in which the descriptor has taken effect. -/
def commitEnd (n : Nat) (e : QEntry) (a v : Word) (s : State) : State :=
  sendMessages 80 (commitWords n e (fget a 28 4) (fget a 16 12) v (commitTaken n (commitBegun s)))
    (count 275 1 (applyKind (fget a 28 4) (fget a 16 12) v (commitStart n e a v s)))

theorem cores_commitStart : (commitStart n e a v s).cores = (commitTaken n (commitBegun s)).cores := cores_commitNoted ..

theorem queueOf_commitStart_same (hq : (queueOf s (60 + n)).items = [e]) : (queueOf (commitStart n e a v s) (60 + n)).items = [] := by
  rw [queueOf_of_queue (congrArg (·.queue) cores_commitStart), commitTaken, queueOf_setQueue_same]
  have hbegun : queueOf (commitBegun s) (60 + n) = queueOf s (60 + n) := rfl
  rw [hbegun, hq]
  rfl

theorem queueOf_commitStart_other {q : Nat} (h : q ≠ 60 + n.val) : queueOf (commitStart n e a v s) q = queueOf s q := by
  rw [queueOf_of_queue (congrArg (·.queue) cores_commitStart), commitTaken, queueOf_setQueue_other _ _ h]
  rfl

/-- The only descriptor of the boundary is applied. -/
theorem applyQueue_single (hq : (queueOf s (60 + n)).items = [e]) (he : e.words = [a, v]) (hdue : commitIsDue s e) :
    applyQueue n 16 [] (commitBegun s) = (commitWords n e (fget a 28 4) (fget a 16 12) v (commitTaken n (commitBegun s)),
      count 275 1 (applyKind (fget a 28 4) (fget a 16 12) v (commitStart n e a v s))) := by
  have hhead : commitDue (commitBegun s) n = some e := by
    have hitems : (queueOf (commitBegun s) (60 + n)).items = [e] := hq
    have hcond : e.bnd < (commitBegun s).bnd ∧ e.lap ≤ (lapD (commitBegun s) : Int) := by
      unfold commitIsDue at hdue
      have hlap : lapD (commitBegun s) = lapD s := rfl
      have hbnd : (commitBegun s).bnd = s.bnd := rfl
      rw [hlap, hbnd]
      omega
    rw [commitDue, hitems]
    exact if_pos hcond
  rw [applyQueue, hhead]
  dsimp only
  rw [← commitTaken, applyCommit_eq he]
  refine applyQueue_empty _ _ ?_
  have hkept := (LowKept.applyKind (fget a 28 4) (fget a 16 12) v (commitStart n e a v s)).trans (.count 275 1 _)
  rw [← commitStart, queueOf_of_queue hkept.queue, queueOf_commitStart_same hq]

theorem exec_commit_due (hat : s.cores.commitAt < s.bnd) (hothers : ∀ m < 5, m ≠ n.val → (queueOf s (60 + m)).items = [])
    (hq : (queueOf s (60 + n)).items = [e]) (he : e.words = [a, v]) (hdue : commitIsDue s e) :
    exec .commitDescriptorApply s = .next (settle (commitEnd n e a v s)) := by
  have hkept := (LowKept.applyKind (fget a 28 4) (fget a 16 12) v (commitStart n e a v s)).trans (.count 275 1 _)
  have hsingle := applyQueue_single hq he hdue
  have hqueues := applyQueues_single (n := n) (s := commitBegun s) hothers fun m hm hne => by
    rw [hsingle, queueOf_of_queue hkept.queue, queueOf_commitStart_other (by omega)]
    exact hothers m hm hne
  change execCommitDescriptorApply s = _
  unfold execCommitDescriptorApply
  rw [if_pos hat, ← commitBegun]
  dsimp only
  rw [hqueues, hsingle]
  rfl

/-- A descriptor that is not due stays. -/
theorem exec_commit_notDue (hs : Settled s) (hat : s.cores.commitAt < s.bnd)
    (hothers : ∀ m < 5, m ≠ n.val → (queueOf s (60 + m)).items = [])
    (hq : (queueOf s (60 + n)).items = [e]) (hdue : s.bnd ≤ e.bnd ∨ (lapD s : Int) < e.lap) :
    exec .commitDescriptorApply s = .next (commitBegun s) := by
  have hhead : commitDue (commitBegun s) n = none := by
    have hitems : (queueOf (commitBegun s) (60 + n)).items = [e] := hq
    have hcond : ¬ (e.bnd < s.bnd ∧ e.lap ≤ (lapD s : Int)) := by omega
    rw [commitDue, hitems]
    exact if_neg hcond
  have hsingle : applyQueue n 16 [] (commitBegun s) = ([], commitBegun s) := by rw [applyQueue, hhead]
  have hqueues := applyQueues_single (n := n) (s := commitBegun s) hothers fun m hm hne => by
    rw [hsingle]
    exact hothers m hm hne
  change execCommitDescriptorApply s = _
  unfold execCommitDescriptorApply
  rw [if_pos hat, ← commitBegun]
  dsimp only
  rw [hqueues, hsingle]
  exact done_settled_next hs

/-- What the only descriptor of a boundary leaves from its start on. -/
theorem lowKept_commitEnd : LowKept (commitStart n e a v s) (commitEnd n e a v s) :=
  ((LowKept.applyKind ..).trans (.count ..)).trans (.sendMessages ..)

theorem rd_commitStart {x : Nat} (h : x ≠ TOP_COREn_COMMIT_LATE n) : rd (commitStart n e a v s) x = rd s x :=
  (rd_commitNoted n e _ _ v _ h).trans rfl

/-- The registers above the core blocks. -/
theorem rd_commitStart_above {x : Nat} (h : 0xA0000A00 ≤ x) : rd (commitStart n e a v s) x = rd s x :=
  rd_commitStart (by unfold TOP_COREn_COMMIT_LATE; omega)

theorem fld_commitStart {f : Fld} (h : 0xA0000A00 ≤ f.reg) : fld (commitStart n e a v s) f = fld s f := by
  rw [fld, rd_commitStart_above h, ← fld]

theorem flag_commitStart {f : Fld} (h : 0xA0000A00 ≤ f.reg) : flag (commitStart n e a v s) f = flag s f := by
  rw [flag, fld_commitStart h, ← flag]

end

end Sys2Proof.Machine

namespace Sys2Proof.Machine
open Sys2Proof

/-! ### What the descriptor of a boundary has done (R244 to R248) -/

section
variable {s : State} {n : Fin 5} {e : QEntry} {a v : Word}

/-- A descriptor that is no MESSAGE sends nothing. -/
theorem commitEnd_eq (h : ¬ (fget a 28 4 = 5 ∧ fget a 16 12 < 64)) :
    commitEnd n e a v s = count 275 1 (applyKind (fget a 28 4) (fget a 16 12) v (commitStart n e a v s)) := by
  rw [commitEnd, commitWords, if_neg h]
  rfl

theorem digest_sendMessages (k : Nat) (ms : List MsgWord) (s : State) : (sendMessages k ms s).out.digest = s.out.digest := by
  have hsend : ∀ m ws u, (sendMessage m ws u).out.digest = u.out.digest := fun m ws u => by
    unfold sendMessage handFrame
    split
    · rfl
    · dsimp only
      split <;> rfl
  induction k generalizing ms s with
  | zero => rfl
  | succ k ih =>
    unfold sendMessages
    split
    · rfl
    · rw [ih, hsend]

/-- The events posted by then are pending where they are watched. -/
theorem posted_commitEnd {k : Nat} (hk : k < 256) (h : k ∈ (commitEnd n e a v s).fab.raised) : Posted k s (settle (commitEnd n e a v s)) := by
  refine settle_posted_of k hk h fun c hc => ?_
  have hlow : TOP_COREn_WATCHk c (k / 32) < 0xA0000A00 ∧ TOP_COREn_WATCHk c (k / 32) ≠ TOP_COMMIT_BAD ∧
      TOP_COREn_WATCHk c (k / 32) ≠ TOP_COREn_COMMIT_LATE n := by
    unfold TOP_COREn_WATCHk TOP_COMMIT_BAD TOP_COREn_COMMIT_LATE
    omega
  rw [lowKept_commitEnd.regs _ hlow.1 hlow.2.1, rd_commitStart hlow.2.2]

theorem commitEnd_late (h : e.lap < (lapD s : Int)) : Posted 183 s (settle (commitEnd n e a v s)) ∧
    fld (settle (commitEnd n e a v s)) (TOP_COREn_COMMIT_LATE.COUNT n) =
      satNat (TOP_COREn_COMMIT_LATE.COUNT n).w (fld s (TOP_COREn_COMMIT_LATE.COUNT n) + 1) := by
  obtain ⟨hraised, hcount⟩ := commitNoted_late n e (fget a 28 4) (fget a 16 12) v (commitTaken n (commitBegun s)) h
  have hlow : TOP_COREn_COMMIT_LATE n < 0xA0000A00 ∧ TOP_COREn_COMMIT_LATE n ≠ TOP_COMMIT_BAD := by
    unfold TOP_COREn_COMMIT_LATE TOP_COMMIT_BAD
    omega
  refine ⟨posted_commitEnd (by decide) (lowKept_commitEnd.raised 183 hraised), ?_⟩
  have hkept : fld (commitEnd n e a v s) (TOP_COREn_COMMIT_LATE.COUNT n) = fld (commitStart n e a v s) (TOP_COREn_COMMIT_LATE.COUNT n) := by
    rw [fld, lowKept_commitEnd.regs _ hlow.1 hlow.2, fld]
  rw [fld_settle _ _ (outsideLdg_of (Or.inl (by dsimp only; omega))), hkept]
  exact hcount.trans rfl

theorem commitEnd_digest (h : fget a 28 4 ≠ 2) : ∃ d : DigestItem, (settle (commitEnd n e a v s)).out.digest = s.out.digest ++ [d] ∧
    d.data.take 10 = bytesLE 2 (fget a 28 4) ++ bytesLE 4 (fget a 16 12) ++ bytesLE 4 v.toNat := by
  obtain ⟨d, hout, hdata⟩ := out_commitNoted n e (fget a 28 4) (fget a 16 12) v (commitTaken n (commitBegun s))
  refine ⟨d, ?_, by rw [hdata, take_commitDigest]⟩
  have hsettle : (settle (commitEnd n e a v s)).out = (commitEnd n e a v s).out := by simp
  rw [hsettle, commitEnd, digest_sendMessages, out_count, digest_applyKind _ _ _ h, commitStart, hout]
  rfl

theorem commitEnd_setpoint (hkind : fget a 28 4 = 1) (ht : fget a 16 12 < 32) :
    rd (settle (commitEnd n e a v s)) (CTL_LOOPn_SETPOINT (fget a 16 12)) =
      if flag s TWN_STATUS.SAFE then rd s (CTL_LOOPn_SETPOINT (fget a 16 12)) else v := by
  have hsafe : flag (commitStart n e a v s) TWN_STATUS.SAFE = flag s TWN_STATUS.SAFE := flag_commitStart (by decide)
  have hstart : rd (commitStart n e a v s) (CTL_LOOPn_SETPOINT (fget a 16 12)) = rd s (CTL_LOOPn_SETPOINT (fget a 16 12)) :=
    rd_commitStart_above (by unfold CTL_LOOPn_SETPOINT; omega)
  rw [rd_settle _ _ (outsideLdg_of (Or.inl (by unfold CTL_LOOPn_SETPOINT; omega))), commitEnd_eq (by omega), rd_count, hkind]
  simp only [applyKind]
  rw [if_pos ht, hsafe]
  split
  · exact hstart
  · exact rd_wr_same ..

theorem commitEnd_entry (hkind : fget a 28 4 = 2) (ht : fget a 16 12 < 2048) (hspace : slSpace s (fget a 16 12) < 6)
    (hctrl : flag s TBS_SL_CTRL.EN = false) : slEn (settle (commitEnd n e a v s)) (fget a 16 12) = true := by
  have hspace' : slSpace (commitStart n e a v s) (fget a 16 12) < 6 := by
    rwa [slSpace, fld_commitStart (LowKept.slReg ..), ← slSpace]
  have hctrl' : flag (commitStart n e a v s) TBS_SL_CTRL.EN = false := by
    rwa [flag_commitStart (by decide)]
  rw [slEn, flag_settle _ _ (outsideLdg_of (Or.inr (by unfold slFld slAddr; dsimp only; omega))), commitEnd_eq (by omega), flag, fld_count,
    ← flag, ← slEn, hkind]
  simp only [applyKind]
  rw [if_pos ht]
  split
  · next hen => exact hen
  · exact slEn_slEnable hspace' hctrl'

theorem commitEnd_output (hkind : fget a 28 4 = 3) (ht : fget a 16 12 < 16) (hsafe : flag s TWN_STATUS.SAFE = false)
    (hset : tget (fun _ => 0) s.out.setBy (fget a 16 12) ≤ 1) :
    sfld (settle (commitEnd n e a v s)) (CTL_AOUTj.CODE (fget a 16 12)) = signed 16 (fget v 0 16) := by
  have hsafe' : flag (commitStart n e a v s) TWN_STATUS.SAFE = false := by rwa [flag_commitStart (by decide)]
  have hset' : tget (fun _ => 0) (commitStart n e a v s).out.setBy (fget a 16 12) ≤ 1 := by
    obtain ⟨d, hout, -⟩ := out_commitNoted n e (fget a 28 4) (fget a 16 12) v (commitTaken n (commitBegun s))
    rw [commitStart, hout]
    exact hset
  rw [sfld, fld_settle _ _ (outsideLdg_of (Or.inl (by dsimp only; omega))), commitEnd_eq (by omega), fld_count, ← sfld, hkind]
  simp only [applyKind]
  rw [if_pos (slExists_output ht), hsafe']
  exact sfld_commitOutput ht hset'

theorem commitEnd_event (hkind : fget a 28 4 = 4) (ht : fget a 16 12 < 128) : Posted (fget a 16 12) s (settle (commitEnd n e a v s)) := by
  refine posted_commitEnd (by omega) ?_
  rw [commitEnd_eq (by omega)]
  refine (LowKept.count 275 1 _).raised _ ?_
  rw [hkind]
  simp only [applyKind]
  rw [if_pos ht]
  exact mem_raise ..

/-- One message word leaves as one frame. -/
theorem sendMessages_single (k : Nat) (m : MsgWord) (s : State) : sendMessages (k + 1) [m] s = sendMessage m.slot [m] s := by
  have hnone : ∀ u, sendMessages k [] u = u := fun u => by cases k <;> rfl
  simp [sendMessages, hnone]

theorem commitEnd_message (hkind : fget a 28 4 = 5) (ht : fget a 16 12 < 64) :
    rd (settle (commitEnd n e a v s)) (TOP_MSGm_SEQ (fget a 16 12)) = w32 (tget (fun _ => 0) s.cores.msgSeq (fget a 16 12)) := by
  have hseq : (commitStart n e a v s).cores.msgSeq = s.cores.msgSeq := congrArg (·.msgSeq) cores_commitStart
  have happly : applyKind (fget a 28 4) (fget a 16 12) v (commitStart n e a v s) = commitStart n e a v s := by
    rw [hkind]
    exact if_pos ht
  have hframe : ∀ m p d l u x, rd (handFrame m p d l u) x = rd u x := fun m p d l u x => by
    unfold handFrame
    split <;> rfl
  rw [rd_settle _ _ (outsideLdg_of (Or.inl (by unfold TOP_MSGm_SEQ; omega))), commitEnd, commitWords, if_pos ⟨hkind, ht⟩, happly, ← hseq,
    ← congrArg Cores.msgSeq (cores_count 275 1 _)]
  generalize count 275 1 (commitStart n e a v s) = u
  rw [sendMessages_single, sendMessage, hframe]
  exact rd_wr_same ..

theorem commitEnd_bad (h : 6 ≤ fget a 28 4 ∨ (fget a 28 4 = 1 ∧ 32 ≤ fget a 16 12) ∨ (fget a 28 4 = 2 ∧ 2048 ≤ fget a 16 12) ∨
    (fget a 28 4 = 4 ∧ 128 ≤ fget a 16 12) ∨ (fget a 28 4 = 5 ∧ 64 ≤ fget a 16 12)) :
    fld (settle (commitEnd n e a v s)) TOP_COMMIT_BAD.COUNT = satNat TOP_COMMIT_BAD.COUNT.w (fld s TOP_COMMIT_BAD.COUNT + 1) := by
  have hstart : fld (commitStart n e a v s) TOP_COMMIT_BAD.COUNT = fld s TOP_COMMIT_BAD.COUNT := by
    rw [fld, rd_commitStart (by unfold TOP_COREn_COMMIT_LATE; dsimp only; omega), ← fld]
  have hmessage : ¬ (fget a 28 4 = 5 ∧ fget a 16 12 < 64) := by omega
  rw [fld_settle _ TOP_COMMIT_BAD.COUNT rfl, commitEnd_eq hmessage, fld_count, applyKind_bad v _ h, badCommit, fld_addSat_same _ _ _ (by decide), hstart]

end

/-- The clause of O47 about a descriptor at a boundary. -/
theorem commit_results {s : State} {n : Fin 5} {e : QEntry} {a v : Word} {tgt : Nat} (hs : Settled s) (hat : s.cores.commitAt < s.bnd)
    (hothers : ∀ m < 5, m ≠ n.val → (queueOf s (60 + m)).items = []) (hq : (queueOf s (60 + n)).items = [e]) (he : e.words = [a, v])
    (htgt : tgt = fget a 16 12) : ∃ t, exec .commitDescriptorApply s = .next t ∧ t.mem = s.mem ∧ t.cores.commitAt = s.bnd ∧
      if s.bnd ≤ e.bnd ∨ (lapD s : Int) < e.lap then (queueOf t (60 + n)).items = [e] ∧ t.out = s.out ∧ ∀ x, rd t x = rd s x
      else (queueOf t (60 + n)).items = [] ∧ (e.lap < lapD s → Posted 183 s t ∧
          fld t (TOP_COREn_COMMIT_LATE.COUNT n) = satNat (TOP_COREn_COMMIT_LATE.COUNT n).w (fld s (TOP_COREn_COMMIT_LATE.COUNT n) + 1)) ∧
        (fget a 28 4 ≠ 2 → ∃ d, t.out.digest = s.out.digest ++ [d] ∧ d.data.take 10 = bytesLE 2 (fget a 28 4) ++ bytesLE 4 tgt ++ bytesLE 4 v.toNat) ∧
        (fget a 28 4 = 1 → tgt < 32 → rd t (CTL_LOOPn_SETPOINT tgt) = if flag s TWN_STATUS.SAFE then rd s (CTL_LOOPn_SETPOINT tgt) else v) ∧
        (fget a 28 4 = 2 → tgt < 2048 → slSpace s tgt < 6 → flag s TBS_SL_CTRL.EN = false → slEn t tgt = true) ∧
        (fget a 28 4 = 3 → tgt < 16 → flag s TWN_STATUS.SAFE = false → tget (fun _ => 0) s.out.setBy tgt ≤ 1 → sfld t (CTL_AOUTj.CODE tgt) = signed 16 (fget v 0 16)) ∧
        (fget a 28 4 = 4 → tgt < 128 → Posted tgt s t) ∧
        (fget a 28 4 = 5 → tgt < 64 → rd t (TOP_MSGm_SEQ tgt) = w32 (tget (fun _ => 0) s.cores.msgSeq tgt)) ∧
        (6 ≤ fget a 28 4 ∨ (fget a 28 4 = 1 ∧ 32 ≤ tgt) ∨ (fget a 28 4 = 2 ∧ 2048 ≤ tgt) ∨ (fget a 28 4 = 4 ∧ 128 ≤ tgt) ∨
          (fget a 28 4 = 5 ∧ 64 ≤ tgt) → fld t TOP_COMMIT_BAD.COUNT = satNat TOP_COMMIT_BAD.COUNT.w (fld s TOP_COMMIT_BAD.COUNT + 1)) := by
  subst htgt
  by_cases hdue : s.bnd ≤ e.bnd ∨ (lapD s : Int) < e.lap
  · refine ⟨commitBegun s, exec_commit_notDue hs hat hothers hq hdue, rfl, rfl, ?_⟩
    rw [if_pos hdue]
    exact ⟨hq, rfl, fun _ => rfl⟩
  · have hexec := exec_commit_due hat hothers hq he hdue
    refine ⟨_, hexec, mem_of_exec hexec (show Comp.mem ∉ [Comp.tbs, Comp.out, Comp.cores] by decide), ?_, ?_⟩
    · have hcores : (settle (commitEnd n e a v s)).cores = (commitEnd n e a v s).cores := by simp
      rw [hcores, lowKept_commitEnd.commitAt, cores_commitStart]
      rfl
    · rw [if_neg hdue]
      refine ⟨?_, commitEnd_late, commitEnd_digest, commitEnd_setpoint, commitEnd_entry, commitEnd_output, commitEnd_event,
        commitEnd_message, commitEnd_bad⟩
      rw [queueOf_settle, queueOf_of_queue lowKept_commitEnd.queue, queueOf_commitStart_same hq]

/-- Settles O47, clause by clause: the sleeping cores by `waitReturn`, RUN, HALT and RESTART by `runCore`, `halted_results` and
`restartCore_eq`, a commit by `commitEnd`. -/
theorem coreStatesAndCommits : Obligations.CoreStatesAndCommits := by
  unfold Obligations.CoreStatesAndCommits
  refine ⟨eventPost_results, fun _ _ _ _ hs ha hw hst hr => waitReturn_results hs ha hw hst hr,
    fun _ _ _ ofs hs ha hw hst => waitTimeout_results ofs hs ha hw hst, coreRun_results, coreHalt_results, coreRestart_results,
    fun _ _ _ hc hop => ⟨coreHalted_results hc hop, haltTimeout_results hc⟩, fun s hat hs => ?_,
    fun _ _ _ _ _ _ hs hat hothers hq he htgt => commit_results hs hat hothers hq he htgt⟩
  change execCommitDescriptorApply s = _
  unfold execCommitDescriptorApply
  rw [if_neg hat]
  exact done_settled_next hs

end Sys2Proof.Machine

namespace Sys2Proof.Machine
open Sys2Proof

/-! ### An empty queue (R36) -/

/-- Settles O2: `step` finds no command to take. -/
theorem emptyQueueIdles : Obligations.EmptyQueueIdles := by
  intro s hs
  unfold step
  rw [hs]

/-! ### Fields that lie apart -/

/-- The bits of `f` and `g` lie in their words, and none is of both. -/
abbrev Apart (f g : Fld) : Prop :=
  f.lo + f.w ≤ 32 ∧ g.lo + g.w ≤ 32 ∧ (f.reg ≠ g.reg ∨ f.lo + f.w ≤ g.lo ∨ g.lo + g.w ≤ f.lo)

theorem fld_setFld_apart {f g : Fld} (h : Apart f g) (s : State) (v : Nat) : fld (setFld s g v) f = fld s f := by
  obtain ⟨hf, hg, hd⟩ := h
  by_cases hr : f.reg = g.reg
  · exact fld_setFld_beside s f g v hr hf hg (by simpa [hr] using hd)
  · exact fld_setFld_reg s f g v hr

theorem fld_setFlag_apart {f g : Fld} (h : Apart f g) (s : State) (b : Bool) : fld (setFlag s g b) f = fld s f := fld_setFld_apart h s _

theorem fld_setInt_apart {f g : Fld} (h : Apart f g) (s : State) (i : Int) : fld (setInt s g i) f = fld s f := fld_setFld_apart h s _

theorem flag_setFld_apart {f g : Fld} (h : Apart f g) (s : State) (v : Nat) : flag (setFld s g v) f = flag s f := by
  rw [flag, fld_setFld_apart h, flag]

theorem flag_setFlag_apart {f g : Fld} (h : Apart f g) (s : State) (b : Bool) : flag (setFlag s g b) f = flag s f := flag_setFld_apart h s _

/-- A field takes a value that fits it. -/
theorem fld_setFld_fits {f : Fld} {v : Nat} (s : State) (h : f.lo + f.w ≤ 32) (hv : v < 2 ^ f.w) : fld (setFld s f v) f = v := by
  rw [fld_setFld_same s f v h, Nat.mod_eq_of_lt hv]

theorem fld_raise (n : Nat) (s : State) (f : Fld) : fld (raise n s) f = fld s f := by simp

theorem fld_raiseIf (b : Bool) (n : Nat) (s : State) (f : Fld) : fld (raiseIf b n s) f = fld s f := by simp

/-- The registers of the timebase and of the Start List stand outside the Ledger's block. -/
theorem fld_settle_low {f : Fld} (s : State) (h : f.reg < 0xA00D0000) : fld (settle s) f = fld s f := fld_settle s f (outsideLdg_of (.inl h))

theorem flag_settle_low {f : Fld} (s : State) (h : f.reg < 0xA00D0000) : flag (settle s) f = flag s f := by
  rw [flag, fld_settle_low s h, flag]

theorem slFld_reg_le (n o lo w : Nat) : 0xB0010000 ≤ (slFld n o lo w).reg := by
  unfold slFld slAddr
  dsimp only
  omega

theorem fld_settle_entry {n o lo w : Nat} (s : State) : fld (settle s) (slFld n o lo w) = fld s (slFld n o lo w) :=
  fld_settle s _ (outsideLdg_of (.inr (Nat.le_trans (by decide) (slFld_reg_le ..))))

namespace LowKept

variable {s u : State}

/-- An event raised on the way to `u` is posted at the end of the command. -/
theorem posted (h : LowKept s u) {n : Nat} (hn : n < 256) (hm : n ∈ u.fab.raised) : Posted n s (settle u) :=
  settle_posted_of n hn hm fun c hc =>
    h.regs _ (by unfold TOP_COREn_WATCHk; omega) (by unfold TOP_COREn_WATCHk TOP_COMMIT_BAD; omega)

theorem setPacer (p : Pacer) (s : State) : LowKept s (setPacer p s) := of_eq rfl rfl rfl

theorem setTally (n : Nat) (x : TallyRun) (s : State) : LowKept s (setTally n x s) := of_eq rfl rfl rfl

theorem setMains (m : Mains) (s : State) : LowKept s (setMains m s) := of_eq rfl rfl rfl

theorem complete (a code : Nat) (s : State) (h : 0xA0000A00 ≤ a) : LowKept s (complete a code s) where
  regs b hb _ := complete_rd a code s (by omega)
  queue := rfl
  commitAt := rfl
  raised _ he := he

end LowKept

theorem tbs_complete (a code : Nat) (s : State) : (complete a code s).tbs = s.tbs := rfl

/-- What a command register reads once the step in which it ends has ended. -/
theorem ends_settle_complete {a : Nat} (s : State) (h : a < 0xA00D0000) :
    fld (settle (complete a 0 s)) ⟨a, 24, 8⟩ = 0 ∧ isPending (settle (complete a 0 s)) a = false := by
  have hl : OutsideLdg a := outsideLdg_of (.inl h)
  exact ended_complete a 0 s (by decide) hl

/-! ### The operations of the Pacer (R38 to R47) -/

theorem tbs_setSlew (x : Int) (s : State) : (setSlew x s).tbs = { s.tbs with pacer := { s.tbs.pacer with slew := x * 5 } } := rfl

theorem tbs_enterPacer (st : Nat) (s : State) : (enterPacer st s).tbs = { s.tbs with pacer := { s.tbs.pacer with lockRun := 0 } } := rfl

theorem tbs_judgeAlarm (s : State) : (judgeAlarm s).tbs = s.tbs := by simp [judgeAlarm]

theorem tbs_clearSlew (s : State) : (clearSlew s).tbs = { s.tbs with pacer := { s.tbs.pacer with slew := 0 } } := by
  rw [clearSlew, tbs_judgeAlarm, tbs_setSlew, Int.zero_mul]

theorem fld_setSlew {f : Fld} (x : Int) (s : State) (h : Apart f TBS_SLEW_REMAIN.OFFSET) (h' : Apart f TBS_PACER_STATUS.SLEWING) :
    fld (setSlew x s) f = fld s f := by
  rw [setSlew, fld_setFlag_apart h', fld_setInt_apart h]
  rfl

theorem fld_judgeAlarm {f : Fld} (s : State) (h : Apart f TBS_PACER_STATUS.OFFSET_ALARM) : fld (judgeAlarm s) f = fld s f := by
  simp [judgeAlarm, fld_setFlag_apart h]

theorem fld_enterPacer {f : Fld} (st : Nat) (s : State) (h : Apart f TBS_PACER_STATUS.STATE) : fld (enterPacer st s) f = fld s f :=
  fld_setFld_apart h s st

theorem pacerState_enterPacer {st : Nat} (s : State) (h : st < 8) : pacerState (enterPacer st s) = st :=
  fld_setFld_fits (f := TBS_PACER_STATUS.STATE) s (by decide) h

theorem pacerState_setSlew (x : Int) (s : State) : pacerState (setSlew x s) = pacerState s := fld_setSlew x s (by decide) (by decide)

theorem pacerState_judgeAlarm (s : State) : pacerState (judgeAlarm s) = pacerState s := fld_judgeAlarm s (by decide)

theorem pacerState_clearSlew (s : State) : pacerState (clearSlew s) = pacerState s := by
  rw [clearSlew, pacerState_judgeAlarm, pacerState_setSlew]

/-- TBS_SLEW_REMAIN shows the slew target, and SLEWING whether it is zero (R41, R47). -/
theorem fld_slewRemain_setSlew (x : Int) (s : State) : fld (setSlew x s) TBS_SLEW_REMAIN.OFFSET = unsignedOf 32 (offsetWord x) := by
  rw [setSlew, fld_setFlag_apart (by decide)]
  exact fld_setFld_fits (f := TBS_SLEW_REMAIN.OFFSET) _ (by decide) (unsignedOf_lt _ _)

theorem flag_slewing_setSlew (x : Int) (s : State) : flag (setSlew x s) TBS_PACER_STATUS.SLEWING = decide (offsetWord x ≠ 0) :=
  flag_setFlag_same _ _ _ rfl (by decide)

theorem flag_alarm_judgeAlarm (s : State) : flag (judgeAlarm s) TBS_PACER_STATUS.OFFSET_ALARM =
    (decide (pacerState s = 2) && decide (s.tbs.pacer.slew.natAbs > 5 * 10000 * unitsPerNs)) := by
  rw [judgeAlarm]
  simp [flag_setFlag_same]

/-- With the slew cleared nothing remains, and no alarm stands (R42). -/
theorem slew_clearSlew (s : State) : fld (clearSlew s) TBS_SLEW_REMAIN.OFFSET = 0 ∧ flag (clearSlew s) TBS_PACER_STATUS.SLEWING = false ∧
    flag (clearSlew s) TBS_PACER_STATUS.OFFSET_ALARM = false := by
  refine ⟨?_, ?_, ?_⟩
  · rw [clearSlew, fld_judgeAlarm _ (by decide), fld_slewRemain_setSlew]
    rfl
  · rw [clearSlew, flag, fld_judgeAlarm _ (by decide), ← flag, flag_slewing_setSlew]
    rfl
  · rw [clearSlew, flag_alarm_judgeAlarm, tbs_setSlew]
    simp

/-! ### Commands of the Pacer (R42, R47, R76) -/

/-- A command of the Pacer that is allowed waits for a boundary. -/
theorem pacerCommand_accepted {s : State} (hs : Settled s) (w : Word) :
    isPending (settle (accept TBS_PACER_CMD w s)) TBS_PACER_CMD = true ∧
      (settle (accept TBS_PACER_CMD w s)).accepted = tins (tdrop s.accepted TBS_PACER_CMD) TBS_PACER_CMD ⟨s.bnd, tick s, clk s, w⟩ ∧
      (settle (accept TBS_PACER_CMD w s)).tbs = s.tbs ∧ ∀ a, a ≠ TBS_PACER_CMD → rd (settle (accept TBS_PACER_CMD w s)) a = rd s a := by
  obtain ⟨hpend, hacc, hregs⟩ := accepted_accept TBS_PACER_CMD w s hs
  exact ⟨hpend, hacc, by simp [accept], hregs⟩

theorem exec_setTime {s : State} (hp : isPending s TBS_PACER_CMD = false) (hst : pacerState s ≤ 1) :
    exec .setTime s = .next (settle (accept TBS_PACER_CMD 1 s)) := by
  change execSetTime s = _
  rw [execSetTime, hp, if_neg Bool.false_ne_true, if_pos hst, done]

theorem exec_pacerSwitch {s : State} (hp : isPending s TBS_PACER_CMD = false) (hst : pacerState s = 2)
    (hv : isValid s (!s.tbs.pacer.secActive) = true) : exec .pacerSwitch s = .next (settle (accept TBS_PACER_CMD 3 s)) := by
  change execPacerSwitch s = _
  rw [execPacerSwitch, hp, if_neg Bool.false_ne_true, hst, hv]
  rfl

theorem exec_pacerAcquire {s : State} (hp : isPending s TBS_PACER_CMD = false) (hst : pacerState s = 2 ∨ pacerState s = 3) :
    exec .pacerAcquire s = .next (settle (complete TBS_PACER_CMD 0 (clearSlew (enterPacer 1 s)))) := by
  change execPacerAcquire s = _
  rw [execPacerAcquire, hp, if_neg Bool.false_ne_true, if_pos (by simpa using hst), done]

/-- A register of the timebase beside the command register, after a command has ended. -/
theorem fld_settle_complete_low {a : Nat} {f : Fld} (s : State) (hne : f.reg ≠ a) (h : f.reg < 0xA00D0000) :
    fld (settle (complete a 0 s)) f = fld s f := by
  rw [fld_settle_low _ h, fld_complete_other hne]

/-- ACQUIRE enters the state ACQUIRE at once, with nothing left to slew (R42). -/
theorem pacerAcquire_results {s : State} (hp : isPending s TBS_PACER_CMD = false) (hst : pacerState s = 2 ∨ pacerState s = 3) :
    ∃ t, exec .pacerAcquire s = .next t ∧
      pacerState t = 1 ∧ fld t TBS_SLEW_REMAIN.OFFSET = 0 ∧ flag t TBS_PACER_STATUS.SLEWING = false ∧
      flag t TBS_PACER_STATUS.OFFSET_ALARM = false ∧ fld t TBS_PACER_CMD.STATUS = 0 ∧ isPending t TBS_PACER_CMD = false ∧
      now t = now s ∧ t.mem = s.mem := by
  obtain ⟨hremain, hslewing, halarm⟩ := slew_clearSlew (enterPacer 1 s)
  obtain ⟨hstatus, hpend⟩ := ends_settle_complete (a := TBS_PACER_CMD) (clearSlew (enterPacer 1 s)) (by decide)
  refine ⟨_, exec_pacerAcquire hp hst, ?_, ?_, ?_, ?_, hstatus, hpend, ?_, mem_of_exec (exec_pacerAcquire hp hst) (by decide)⟩
  · rw [pacerState, fld_settle_complete_low _ (by decide) (by decide), ← pacerState, pacerState_clearSlew, pacerState_enterPacer s (by decide)]
  · rw [fld_settle_complete_low _ (by decide) (by decide), hremain]
  · rw [flag, fld_settle_complete_low _ (by decide) (by decide), ← flag, hslewing]
  · rw [flag, fld_settle_complete_low _ (by decide) (by decide), ← flag, halarm]
  · rw [now_settle, now, tbs_complete, tbs_clearSlew, tbs_enterPacer, now]

/-! ### What the Start List changes of the timebase (R63 to R73) -/

/-- Of the timebase only the Start List changed, and of the registers below the entries only the list's counts. -/
structure EntriesOnly (s t : State) : Prop where
  tbs : ∃ x, t.tbs = { s.tbs with sl := x }
  regs : ∀ a < 0xB0010000, a ∉ [TBS_SL_LATE, TBS_SL_SKIP, TBS_SL_BAD] → rd t a = rd s a

namespace EntriesOnly

variable {s t u : State}

protected theorem refl (s : State) : EntriesOnly s s := ⟨⟨_, rfl⟩, fun _ _ _ => rfl⟩

theorem trans (h : EntriesOnly s t) (h' : EntriesOnly t u) : EntriesOnly s u where
  tbs := by
    obtain ⟨x, hx⟩ := h.tbs
    obtain ⟨y, hy⟩ := h'.tbs
    exact ⟨y, by rw [hy, hx]⟩
  regs a ha hc := (h'.regs a ha hc).trans (h.regs a ha hc)

theorem ite {c : Prop} [Decidable c] (ht : EntriesOnly s t) (hu : EntriesOnly s u) : EntriesOnly s (if c then t else u) := by
  split
  · exact ht
  · exact hu

theorem foldl {β : Type} {f : State → β → State} (hf : ∀ s x, EntriesOnly s (f s x)) (l : List β) (s : State) :
    EntriesOnly s (l.foldl f s) := by
  induction l generalizing s with
  | nil => exact .refl s
  | cons x l ih => exact (hf s x).trans (ih _)

theorem setSl (x : StartList) (s : State) : EntriesOnly s (setSl x s) := ⟨⟨x, rfl⟩, fun _ _ _ => rfl⟩

theorem setEntry (n o lo w v : Nat) (s : State) : EntriesOnly s (setFld s (slFld n o lo w) v) :=
  ⟨⟨_, rfl⟩, fun a ha _ => rd_setFld_other s _ v a (by unfold slFld slAddr; dsimp only; omega)⟩

theorem countIn {f : Fld} (h : f.reg ∈ [TBS_SL_LATE, TBS_SL_SKIP, TBS_SL_BAD]) (k : Nat) (s : State) : EntriesOnly s (addSat s f k) :=
  ⟨⟨_, rfl⟩, fun a _ hc => rd_setFld_other s f _ a fun he => hc (he ▸ h)⟩

theorem raise (n : Nat) (s : State) : EntriesOnly s (raise n s) := ⟨⟨s.tbs.sl, by simp⟩, fun a _ _ => by simp⟩

theorem slCancelled (n : Nat) (s : State) : EntriesOnly s (setSlState n 4 (setFlag (slForget n s) (slFld n 0 31 1) false)) :=
  ((setSl ..).trans (setEntry ..)).trans (setEntry ..)

theorem slAdvance (n k : Nat) (dir : Int) (s : State) : EntriesOnly s (slAdvance n k dir s) := (setEntry ..).trans (setEntry ..)

theorem slNoteSign (n : Nat) (s : State) : EntriesOnly s (slNoteSign n s) := ite (setSl ..) (.refl s)

theorem slSkip (n : Nat) (s : State) : EntriesOnly s (slSkip n s) :=
  ite ((countIn (f := TBS_SL_SKIP.COUNT) (by decide) 1 s).trans (slCancelled ..))
    ((slAdvance ..).trans (countIn (f := TBS_SL_SKIP.COUNT) (by decide) _ _))

theorem slPeriodicNext (n : Nat) (s : State) : EntriesOnly s (slPeriodicNext n s) := by
  unfold Machine.slPeriodicNext
  refine (slAdvance n 1 (slAdvanceDir s n) s).trans (ite (setSl ..) ?_)
  refine EntriesOnly.trans (ite (setEntry ..) (.refl _)) (((setSl ..).trans (slNoteSign ..)).trans (ite (ite (slSkip ..) (setSl ..)) (.refl _)))

theorem slTake (n cross eff : Nat) (late : Bool) (s : State) : EntriesOnly s (slTake n cross eff late s) := by
  unfold Machine.slTake
  have htaken : ∀ ends, EntriesOnly s (slTaken n cross eff late ends s) := fun _ => (setSl ..).trans (setEntry ..)
  refine (htaken _).trans (EntriesOnly.trans (ite ?_ (.refl _)) (ite (slPeriodicNext ..) (setSl ..)))
  exact ((setEntry ..).trans (countIn (f := TBS_SL_LATE.COUNT) (by decide) 1 _)).trans (raise ..)

theorem slLate (n : Nat) (s : State) : EntriesOnly s (slLate n s) :=
  ite (ite (slSkip ..) ((slCancelled ..).trans (countIn (f := TBS_SL_SKIP.COUNT) (by decide) 1 _))) (slTake ..)

theorem pacer (h : EntriesOnly s t) : t.tbs.pacer = s.tbs.pacer := by
  obtain ⟨x, hx⟩ := h.tbs
  rw [hx]

theorem tally (h : EntriesOnly s t) : t.tbs.tally = s.tbs.tally := by
  obtain ⟨x, hx⟩ := h.tbs
  rw [hx]

theorem mains (h : EntriesOnly s t) : t.tbs.mains = s.tbs.mains := by
  obtain ⟨x, hx⟩ := h.tbs
  rw [hx]

end EntriesOnly

/-! ### A step of line time (R39, R43) -/

/-- The step before the TIME entries are judged. -/
def lineStepped (d : Int) (s : State) : State :=
  let s1 := shiftTime d s
  let s2 := setSl { s1.tbs.sl with taken := s1.tbs.sl.taken.map (fun q => { q with cross := ((q.cross : Int) + d).toNat }) } s1
  raise 128 (if s2.tbs.pacer.slew = 0 then s2 else setSlew 0 s2)

/-- An entry of the space TIME that the step has made late. -/
def judgeTimeEntry (s : State) (n : Nat) : State :=
  if decide (n ∈ s.tbs.sl.wait) && decide (slSpace s n = 0) && slLateNow s n then slLate n s else s

theorem stepLine_eq (d : Int) (s : State) : stepLine d s =
    if 0 < d ∧ flag (lineStepped d s) TBS_SL_CTRL.EN then (lineStepped d s).tbs.sl.wait.foldl judgeTimeEntry (lineStepped d s)
    else lineStepped d s := rfl

theorem entriesOnly_stepLine (d : Int) (s : State) : EntriesOnly (lineStepped d s) (stepLine d s) := by
  rw [stepLine_eq]
  exact .ite (.foldl (fun u n => .ite (.slLate n u) (.refl u)) _ _) (.refl _)

theorem lowKept_stepLine (d : Int) (s : State) : LowKept (lineStepped d s) (stepLine d s) := by
  rw [stepLine_eq]
  exact .ite (.foldl (fun u n => .ite (.slLate n u) (.refl u)) _ _) (.refl _)

theorem lowKept_setSlew (x : Int) (s : State) : LowKept s (setSlew x s) :=
  ((LowKept.setPacer ..).trans (.setFld _ _ _ (by decide))).trans (.setFlag _ _ _ (by decide))

theorem lowKept_lineStepped (d : Int) (s : State) : LowKept s (lineStepped d s) := by
  have hshift : LowKept s (shiftTime d s) := .of_eq rfl rfl rfl
  exact (hshift.trans (.setSl ..)).trans (LowKept.trans (.ite (.refl _) (lowKept_setSlew ..)) (.raise ..))

/-- A step moves no position: each Tally keeps it, and so does the mains coordinate. -/
theorem pos_shiftTime (d : Int) (s : State) (n : Nat) : (tallyOf (shiftTime d s) n).pos = (tallyOf s n).pos := by
  unfold tallyOf shiftTime
  dsimp only
  induction s.tbs.tally with
  | nil => rfl
  | cons q l ih =>
    simp only [tget, List.map_cons] at ih ⊢
    split <;> simp_all

theorem lineStepped_results (d : Int) (s : State) : (lineStepped d s).tbs.pacer.time = ((s.tbs.pacer.time : Int) + d).toNat ∧
    (lineStepped d s).tbs.pacer.stepDue = none ∧ (lineStepped d s).tbs.tally = (shiftTime d s).tbs.tally ∧
    (lineStepped d s).tbs.mains.coord = s.tbs.mains.coord := by
  unfold lineStepped
  simp only [raise_frame]
  split
  · exact ⟨rfl, rfl, rfl, rfl⟩
  · exact ⟨rfl, rfl, rfl, rfl⟩

/-- Line time moves by the step; nothing more is due, no Tally and no mains coordinate steps, and PACER_STEP is raised. -/
theorem stepLine_results (d : Int) (s : State) : (stepLine d s).tbs.pacer.time = ((s.tbs.pacer.time : Int) + d).toNat ∧
    (stepLine d s).tbs.pacer.stepDue = none ∧ (∀ n, (tallyOf (stepLine d s) n).pos = (tallyOf s n).pos) ∧
    (stepLine d s).tbs.mains.coord = s.tbs.mains.coord ∧ 128 ∈ (stepLine d s).fab.raised := by
  have hentries := entriesOnly_stepLine d s
  obtain ⟨htime, hdue, htally, hmains⟩ := lineStepped_results d s
  refine ⟨by rw [hentries.pacer, htime], by rw [hentries.pacer, hdue], fun n => ?_, by rw [hentries.mains, hmains],
    (lowKept_stepLine d s).raised _ (mem_raise 128 _)⟩
  rw [tallyOf, hentries.tally, htally, ← tallyOf, pos_shiftTime]

/-! ### PACER_STEP (R39) -/

theorem exec_pacerStep_setTime {s : State} (h : setTimeDue s = true) : exec .pacerStep s = .next (settle (complete TBS_PACER_CMD 0
    (stepLine ((nearestLap (rdPair s TBS_SET_TIME_LO TBS_SET_TIME_HI * unitsPerNs) : Int) - s.tbs.pacer.time) s))) := by
  change execPacerStep s = _
  rw [execPacerStep, if_pos h, done]

theorem exec_pacerStep_measured {s : State} {m : Int} {b : Nat} (h : setTimeDue s = false) (hdue : s.tbs.pacer.stepDue = some (m, b))
    (hb : b < tick s) (hen : flag s TBS_PACER_CTRL.EN = true) (hst : pacerState s = 1) :
    exec .pacerStep s = .next (settle (stepLine (max m (-(s.tbs.pacer.time : Int))) s)) := by
  change execPacerStep s = _
  rw [execPacerStep, h, if_neg Bool.false_ne_true, hdue]
  exact if_pos ⟨hb, hen, hst⟩

theorem nearestLap_onGrid (t : Nat) : nearestLap t % lapUnits = 0 := Nat.mul_mod_left _ _

theorem tallyOf_of_tbs {s t : State} (h : t.tbs = s.tbs) (n : Nat) : tallyOf t n = tallyOf s n := by rw [tallyOf, tallyOf, h]

theorem pacerStep_setTime_results {s : State} (h : setTimeDue s = true) : ∃ t, exec .pacerStep s = .next t ∧
      t.tbs.pacer.time = nearestLap (rdPair s TBS_SET_TIME_LO TBS_SET_TIME_HI * 65536) ∧ t.tbs.pacer.time % lapUnits = 0 ∧ Posted 128 s t ∧
      fld t TBS_PACER_CMD.STATUS = 0 ∧ isPending t TBS_PACER_CMD = false ∧ (∀ n, (tallyOf t n).pos = (tallyOf s n).pos) ∧
      t.tbs.mains.coord = s.tbs.mains.coord := by
  have hexec := exec_pacerStep_setTime h
  generalize hd : ((nearestLap (rdPair s TBS_SET_TIME_LO TBS_SET_TIME_HI * unitsPerNs) : Int) - s.tbs.pacer.time) = d at hexec
  obtain ⟨htime, -, hpos, hcoord, hraised⟩ := stepLine_results d s
  obtain ⟨hstatus, hpend⟩ := ends_settle_complete (a := TBS_PACER_CMD) (stepLine d s) (by decide)
  have htbs : (settle (complete TBS_PACER_CMD 0 (stepLine d s))).tbs = (stepLine d s).tbs := by
    simp [tbs_complete]
  have hline : (stepLine d s).tbs.pacer.time = nearestLap (rdPair s TBS_SET_TIME_LO TBS_SET_TIME_HI * 65536) := by
    rw [htime, ← hd]
    unfold unitsPerNs
    omega
  have hlow := ((lowKept_lineStepped d s).trans (lowKept_stepLine d s)).trans (.complete TBS_PACER_CMD 0 _ (by decide))
  refine ⟨_, hexec, by rw [htbs, hline], by rw [htbs, hline, nearestLap_onGrid], hlow.posted (by decide) hraised, hstatus, hpend,
    fun n => by rw [tallyOf_of_tbs htbs, hpos], by rw [htbs, hcoord]⟩

/-- A lap ends at the next point of the grid, so it lasts a lap at most. -/
theorem lapLength_bounds (s : State) : 0 < lapLength s ∧ lapLength s ≤ lapUnits := by
  obtain ⟨hle, hlt⟩ := (lapOf_eq_iff (lapOf s.tbs.pacer.time) s.tbs.pacer.time).mp rfl
  have hnext : (lapOf s.tbs.pacer.time + 1) * lapUnits = lapOf s.tbs.pacer.time * lapUnits + lapUnits := Nat.succ_mul ..
  unfold lapLength lapStart lap
  omega

theorem pacerStep_measured_results {s : State} {m : Int} {b : Nat} (h : setTimeDue s = false) (hdue : s.tbs.pacer.stepDue = some (m, b))
    (hb : b < tick s) (hen : flag s TBS_PACER_CTRL.EN = true) (hst : pacerState s = 1) : ∃ t, exec .pacerStep s = .next t ∧
      t.tbs.pacer.time = ((s.tbs.pacer.time : Int) + m).toNat ∧ 0 < lapLength t ∧ lapLength t ≤ lapUnits ∧ Posted 128 s t ∧
      t.tbs.pacer.stepDue = none ∧ (∀ n, (tallyOf t n).pos = (tallyOf s n).pos) ∧ t.tbs.mains.coord = s.tbs.mains.coord := by
  have hexec := exec_pacerStep_measured h hdue hb hen hst
  generalize hd : max m (-(s.tbs.pacer.time : Int)) = d at hexec
  obtain ⟨htime, hnone, hpos, hcoord, hraised⟩ := stepLine_results d s
  obtain ⟨hlong, hshort⟩ := lapLength_bounds (settle (stepLine d s))
  have htbs : (settle (stepLine d s)).tbs = (stepLine d s).tbs := by simp
  have hline : (stepLine d s).tbs.pacer.time = ((s.tbs.pacer.time : Int) + m).toNat := by
    rw [htime, ← hd]
    omega
  have hlow := (lowKept_lineStepped d s).trans (lowKept_stepLine d s)
  exact ⟨_, hexec, by rw [htbs, hline], hlong, hshort, hlow.posted (by decide) hraised, by rw [htbs, hnone],
    fun n => by rw [tallyOf_of_tbs htbs, hpos], by rw [htbs, hcoord]⟩

/-- Settles O13, clause by clause: `pacerCommand_accepted` for the two commands that wait, `pacerAcquire_results`, and `stepLine_results`
for the two steps of line time. -/
theorem pacerCommandsAndSteps : Obligations.PacerCommandsAndSteps :=
  ⟨fun _ hs hp hst => ⟨_, exec_setTime hp hst, pacerCommand_accepted hs 1⟩,
    fun _ hs hp hst hv => ⟨_, exec_pacerSwitch hp hst hv, pacerCommand_accepted hs 3⟩,
    fun _ hp hst => pacerAcquire_results hp hst,
    fun _ h => pacerStep_setTime_results h,
    fun _ _ _ h hdue hb hen hst => pacerStep_measured_results h hdue hb hen hst⟩

end Sys2Proof.Machine

namespace Sys2Proof.Machine
open Sys2Proof

/-! ### Enabling the Pacer (R38) -/

/-- A source code depends on its field alone. -/
theorem srcCode_of_fld {s t : State} {sec : Bool} (h : fld t (if sec then TBS_PACER_CTRL.SEC_SRC else TBS_PACER_CTRL.PRI_SRC) =
    fld s (if sec then TBS_PACER_CTRL.SEC_SRC else TBS_PACER_CTRL.PRI_SRC)) : srcCode t sec = srcCode s sec := by
  unfold srcCode
  rw [h]

theorem srcCode_setFlag_en (s : State) (b sec : Bool) : srcCode (setFlag s TBS_PACER_CTRL.EN b) sec = srcCode s sec := by
  refine srcCode_of_fld ?_
  cases sec
  · exact fld_setFlag_apart (by decide) s b
  · exact fld_setFlag_apart (by decide) s b

/-- Setting EN alone leaves both codes as they were, so that nothing is tracked afresh, and the Pacer starts. -/
theorem pacerCtrlWritten_enable {s : State} (h : flag s TBS_PACER_CTRL.EN = false) :
    pacerCtrlWritten (rd s TBS_PACER_CTRL) (setFlag s TBS_PACER_CTRL.EN true) = pacerStart (setFlag s TBS_PACER_CTRL.EN true) := by
  have hpri : (if fget (rd s TBS_PACER_CTRL) 4 4 ≤ 4 then fget (rd s TBS_PACER_CTRL) 4 4 else 0) =
      srcCode (setFlag s TBS_PACER_CTRL.EN true) false := (srcCode_setFlag_en s true false).symm
  have hsec : (if fget (rd s TBS_PACER_CTRL) 8 4 ≤ 4 then fget (rd s TBS_PACER_CTRL) 8 4 else 0) =
      srcCode (setFlag s TBS_PACER_CTRL.EN true) true := (srcCode_setFlag_en s true true).symm
  have hwas : fget (rd s TBS_PACER_CTRL) 0 1 = 0 := not_not.mp (of_decide_eq_false h)
  have hen : flag (setFlag s TBS_PACER_CTRL.EN true) TBS_PACER_CTRL.EN = true := flag_setFlag_same _ _ _ rfl (by decide)
  unfold pacerCtrlWritten
  simp [hpri, hsec, hwas, hen]

theorem exec_pacerEnable {s : State} (h : flag s TBS_PACER_CTRL.EN = false) :
    exec .pacerEnable s = .next (settle (pacerStart (setFlag s TBS_PACER_CTRL.EN true))) := by
  change execPacerEnable s = _
  rw [execPacerEnable, pacerCtrlWritten_enable h, done]

/-- The Pacer's record once it has started. -/
def pacerStarted (s : State) : State :=
  setPacer { s.tbs.pacer with secActive := false, stepDue := none, switchDue := none,
                              pri := { s.tbs.pacer.pri with last := tick s, lost := false },
                              sec := { s.tbs.pacer.sec with last := tick s, lost := false } } s

theorem pacerStart_eq (s : State) : pacerStart s =
    raiseIf s.tbs.pacer.secActive 131 (showActive (enterPacer (if srcCode s false = 0 then 0 else 1) (pacerStarted s))) := rfl

theorem srcCode_le (s : State) (sec : Bool) : srcCode s sec ≤ 4 := by
  unfold srcCode
  generalize fld s _ = c
  dsimp only
  split
  · assumption
  · decide

theorem fld_activeSrc_showActive (s : State) : fld (showActive s) TBS_PACER_STATUS.ACTIVE_SRC =
    if flag s TBS_PACER_CTRL.EN then srcCode s s.tbs.pacer.secActive else 0 := by
  have hcode := srcCode_le s s.tbs.pacer.secActive
  refine fld_setFld_fits (f := TBS_PACER_STATUS.ACTIVE_SRC) s (by decide) ?_
  split
  · exact Nat.lt_of_le_of_lt hcode (by decide)
  · decide

theorem fld_showActive {f : Fld} (s : State) (h : Apart f TBS_PACER_STATUS.ACTIVE_SRC) : fld (showActive s) f = fld s f :=
  fld_setFld_apart h s _

/-- The primary is active; the state is ACQUIRE unless it is coded FREE. -/
theorem pacerStart_results {s : State} (hen : flag s TBS_PACER_CTRL.EN = true) : flag (pacerStart s) TBS_PACER_CTRL.EN = true ∧
    pacerState (pacerStart s) = (if srcCode s false = 0 then 0 else 1) ∧ (pacerStart s).tbs.pacer.secActive = false ∧
    fld (pacerStart s) TBS_PACER_STATUS.ACTIVE_SRC = srcCode s false ∧ now (pacerStart s) = now s := by
  have hstate : (if srcCode s false = 0 then 0 else 1) < 8 := by split <;> decide
  generalize hst : (if srcCode s false = 0 then 0 else 1) = st at hstate
  rw [pacerStart_eq, hst]
  have hen2 : flag (enterPacer st (pacerStarted s)) TBS_PACER_CTRL.EN = true := by
    rw [flag, fld_enterPacer _ _ (by decide), ← flag]
    exact hen
  have hcode : srcCode (enterPacer st (pacerStarted s)) false = srcCode s false :=
    srcCode_of_fld (fld_enterPacer (f := TBS_PACER_CTRL.PRI_SRC) _ _ (by decide))
  refine ⟨?_, ?_, ?_, ?_, ?_⟩
  · simp only [raiseIf_frame]
    rw [flag, fld_showActive _ (by decide), ← flag, hen2]
  · rw [pacerState]
    simp only [raiseIf_frame]
    rw [fld_showActive _ (by decide), ← pacerState, pacerState_enterPacer _ hstate]
  · simp only [raiseIf_frame]
    rfl
  · simp only [raiseIf_frame]
    rw [fld_activeSrc_showActive, if_pos hen2]
    exact hcode
  · rw [now]
    simp only [raiseIf_frame]
    rfl

theorem pacerEnable_results {s : State} (h : flag s TBS_PACER_CTRL.EN = false) : ∃ t, exec .pacerEnable s = .next t ∧
    flag t TBS_PACER_CTRL.EN = true ∧ pacerState t = (if srcCode s false = 0 then 0 else 1) ∧ t.tbs.pacer.secActive = false ∧
    fld t TBS_PACER_STATUS.ACTIVE_SRC = srcCode s false ∧ now t = now s ∧ t.mem = s.mem := by
  have hexec := exec_pacerEnable h
  obtain ⟨hen, hstate, hactive, hshown, hnow⟩ := pacerStart_results (s := setFlag s TBS_PACER_CTRL.EN true)
    (flag_setFlag_same _ _ _ rfl (by decide))
  rw [srcCode_setFlag_en] at hstate hshown
  refine ⟨_, hexec, ?_, ?_, ?_, ?_, ?_, mem_of_exec hexec (by decide)⟩
  · rw [flag_settle_low _ (by decide), hen]
  · rw [pacerState, fld_settle_low _ (by decide), ← pacerState, hstate]
  · rw [← hactive]
    simp
  · rw [fld_settle_low _ (by decide), hshown]
  · rw [now_settle, hnow]
    simp [now]

/-! ### What steering leaves (R38 to R47) -/

/-- The fields that steering sets: the frequency correction, the slew target, and three of the status. -/
def steeredFlds : List Fld :=
  [TBS_FREQ_ADJ.ADJ, TBS_SLEW_REMAIN.OFFSET, TBS_PACER_STATUS.SLEWING, TBS_PACER_STATUS.OFFSET_ALARM, TBS_PACER_STATUS.STATE]

/-- Steering sets no other field, and leaves both sources and line time as they are. -/
structure Steers (s t : State) : Prop where
  flds : ∀ f, (∀ g ∈ steeredFlds, Apart f g) → fld t f = fld s f
  pri : t.tbs.pacer.pri = s.tbs.pacer.pri
  sec : t.tbs.pacer.sec = s.tbs.pacer.sec
  time : t.tbs.pacer.time = s.tbs.pacer.time
  ofs : t.tbs.pacer.ofs = s.tbs.pacer.ofs
  low : LowKept s t

namespace Steers

variable {s t u : State}

protected theorem refl (s : State) : Steers s s := ⟨fun _ _ => rfl, rfl, rfl, rfl, rfl, .refl s⟩

theorem trans (h : Steers s t) (h' : Steers t u) : Steers s u where
  flds f hf := (h'.flds f hf).trans (h.flds f hf)
  pri := h'.pri.trans h.pri
  sec := h'.sec.trans h.sec
  time := h'.time.trans h.time
  ofs := h'.ofs.trans h.ofs
  low := h.low.trans h'.low

theorem ite {c : Prop} [Decidable c] (ht : Steers s t) (hu : Steers s u) : Steers s (if c then t else u) := by
  split
  · exact ht
  · exact hu

theorem setFld {g : Fld} (h : g ∈ steeredFlds) (hg : 0xA0000A00 ≤ g.reg) (v : Nat) (s : State) : Steers s (setFld s g v) :=
  ⟨fun _ hf => fld_setFld_apart (hf g h) s v, rfl, rfl, rfl, rfl, .setFld s g v hg⟩

theorem setPacer {p : Pacer} {s : State} (hpri : p.pri = s.tbs.pacer.pri) (hsec : p.sec = s.tbs.pacer.sec)
    (htime : p.time = s.tbs.pacer.time) (hofs : p.ofs = s.tbs.pacer.ofs) : Steers s (setPacer p s) :=
  ⟨fun _ _ => rfl, hpri, hsec, htime, hofs, .setPacer p s⟩

theorem raise (n : Nat) (s : State) : Steers s (raise n s) := ⟨fun f _ => by simp, by simp, by simp, by simp, by simp, .raise n s⟩

theorem raiseIf (b : Bool) (n : Nat) (s : State) : Steers s (raiseIf b n s) := ite (raise n s) (.refl s)

theorem freshen (s : State) : Steers s (freshen s) := ⟨fun _ _ => rfl, rfl, rfl, rfl, rfl, .of_eq rfl rfl rfl⟩

theorem enterPacer (st : Nat) (s : State) : Steers s (enterPacer st s) :=
  (setFld (g := TBS_PACER_STATUS.STATE) (by decide) (by decide) st s).trans (setPacer rfl rfl rfl rfl)

theorem setSlew (x : Int) (s : State) : Steers s (setSlew x s) :=
  ((setPacer (p := { s.tbs.pacer with slew := x * 5 }) rfl rfl rfl rfl).trans
    (setFld (g := TBS_SLEW_REMAIN.OFFSET) (by decide) (by decide) _ _)).trans
    (setFld (g := TBS_PACER_STATUS.SLEWING) (by decide) (by decide) _ _)

theorem judgeAlarm (s : State) : Steers s (judgeAlarm s) :=
  (setFld (g := TBS_PACER_STATUS.OFFSET_ALARM) (by decide) (by decide) _ _).trans (raiseIf ..)

theorem servo (s : State) : Steers s (servo s) :=
  (freshen s).trans (setFld (g := TBS_FREQ_ADJ.ADJ) (by decide) (by decide) _ _)

theorem acquireWith (offset : Int) (s : State) : Steers s (acquireWith offset s) := by
  unfold Machine.acquireWith
  refine ite (setPacer rfl rfl rfl rfl) ((servo s).trans (ite ?_ (setPacer rfl rfl rfl rfl)))
  exact (((enterPacer 2 _).trans (raise 129 _)).trans (setSlew ..)).trans (judgeAlarm _)

theorem steer (sec : Bool) (offset : Int) (s : State) : Steers s (steer sec offset s) :=
  ite (ite (acquireWith ..) (ite (((servo s).trans (setSlew ..)).trans (judgeAlarm _)) (.refl s))) (.refl s)

theorem becameValid (sec : Bool) (s : State) : Steers s (becameValid sec s) := ite (setPacer rfl rfl rfl rfl) (.refl s)

theorem activeLost (s : State) : Steers s (activeLost s) :=
  ite (setPacer rfl rfl rfl rfl) (ite ((enterPacer 3 s).trans (raise 132 _)) (setPacer rfl rfl rfl rfl))

theorem sourceOf (h : Steers s t) (sec : Bool) : sourceOf t sec = sourceOf s sec := by
  cases sec
  · exact h.pri
  · exact h.sec

theorem isValid (h : Steers s t) (sec : Bool) : isValid t sec = isValid s sec := by
  cases sec
  · exact congrArg (fun v => decide (v ≠ 0)) (h.flds TBS_PACER_STATUS.PRI_VALID (by decide))
  · exact congrArg (fun v => decide (v ≠ 0)) (h.flds TBS_PACER_STATUS.SEC_VALID (by decide))

theorem now (h : Steers s t) : now t = now s := by rw [Machine.now, Machine.now, h.time, h.ofs]

end Steers

/-! ### A measurement of a source (R44, R45) -/

/-- A 32-bit field holds a saturated value. -/
theorem signed_unsignedOf_satSigned (x : Int) : signed 32 (unsignedOf 32 (satSigned 32 x)) = satSigned 32 x := by
  unfold signed unsignedOf satSigned
  dsimp only
  split
  · split <;> omega
  · split <;> split <;> omega

theorem sourceOf_setSource_same (sec : Bool) (x : Source) (s : State) : sourceOf (setSource sec x s) sec = x := by
  cases sec
  · rfl
  · rfl

theorem sourceOf_setSource_other (sec : Bool) (x : Source) (s : State) : sourceOf (setSource sec x s) (!sec) = sourceOf s (!sec) := by
  cases sec
  · rfl
  · rfl

theorem fld_setSource (sec : Bool) (x : Source) (s : State) (f : Fld) : fld (setSource sec x s) f = fld s f := by
  cases sec
  · rfl
  · rfl

theorem now_setSource (sec : Bool) (x : Source) (s : State) : now (setSource sec x s) = now s := by
  cases sec
  · rfl
  · rfl

theorem sourceOf_of_tbs {s t : State} (h : t.tbs = s.tbs) (sec : Bool) : sourceOf t sec = sourceOf s sec := by
  rw [sourceOf, sourceOf, h]

theorem now_of_tbs {s t : State} (h : t.tbs = s.tbs) : now t = now s := by rw [now, now, h]

/-- The register that shows the offset of a source. -/
def offsetFld (sec : Bool) : Fld := if sec then TBS_SEC_OFFSET.OFFSET else TBS_PRI_OFFSET.OFFSET

/-- The source's estimate with its register, before it steers. -/
def sourceMeasured (sec : Bool) (offset : Int) (s : State) : State :=
  setInt (setSource sec { run := (sourceOf s sec).run + 1, last := tick s, lost := false, offset := offset } s) (offsetFld sec) (offsetWord offset)

/-- A source that has become valid. -/
def sourceJudged (sec : Bool) (offset : Int) (s : State) : State :=
  if decide (16 ≤ (sourceOf s sec).run + 1) && !isValid (sourceMeasured sec offset s) sec then
    becameValid sec (setFlag (sourceMeasured sec offset s) (validFld sec) true)
  else sourceMeasured sec offset s

theorem measure_eq {sec : Bool} {offset : Int} {s : State} (h : srcCode s sec ≠ 0) :
    measure sec offset s = steer sec offset (sourceJudged sec offset s) := if_neg h

theorem isValid_setFlag (sec b : Bool) (s : State) : isValid (setFlag s (validFld sec) b) sec = b := by
  cases sec
  · exact flag_setFlag_same _ _ _ rfl (by decide)
  · exact flag_setFlag_same _ _ _ rfl (by decide)

theorem isValid_sourceMeasured (sec : Bool) (offset : Int) (s : State) : isValid (sourceMeasured sec offset s) sec = isValid s sec := by
  cases sec
  · exact congrArg (fun v => decide (v ≠ 0)) (fld_setInt_apart (f := TBS_PACER_STATUS.PRI_VALID) (by decide) _ _)
  · exact congrArg (fun v => decide (v ≠ 0)) (fld_setInt_apart (f := TBS_PACER_STATUS.SEC_VALID) (by decide) _ _)

theorem sfld_offset_sourceMeasured (sec : Bool) (offset : Int) (s : State) :
    sfld (sourceMeasured sec offset s) (offsetFld sec) = satSigned 32 (Int.tdiv offset 4096) := by
  have hle : (offsetFld sec).lo + (offsetFld sec).w ≤ 32 := by cases sec <;> decide
  have hw : (offsetFld sec).w = 32 := by cases sec <;> rfl
  have hfld := fld_setFld_fits (f := offsetFld sec) (setSource sec
    { run := (sourceOf s sec).run + 1, last := tick s, lost := false, offset := offset } s) hle (unsignedOf_lt _ (offsetWord offset))
  rw [sfld, sourceMeasured, setInt, hfld, hw, offsetWord]
  exact signed_unsignedOf_satSigned _

/-- A measurement sets its source's estimate and its register, makes it valid at the sixteenth in a row, and changes no more of the
sources. -/
theorem sourceJudged_results (sec : Bool) (offset : Int) (s : State) :
    sourceOf (sourceJudged sec offset s) sec = { run := (sourceOf s sec).run + 1, last := tick s, lost := false, offset := offset } ∧
    sfld (sourceJudged sec offset s) (offsetFld sec) = satSigned 32 (Int.tdiv offset 4096) ∧
    isValid (sourceJudged sec offset s) sec = (isValid s sec || decide (16 ≤ (sourceOf s sec).run + 1)) ∧
    sourceOf (sourceJudged sec offset s) (!sec) = sourceOf s (!sec) ∧ now (sourceJudged sec offset s) = now s := by
  have hnow : now (sourceMeasured sec offset s) = now s := now_setSource ..
  unfold sourceJudged
  split
  · next h =>
    have hsteers := Steers.becameValid sec (setFlag (sourceMeasured sec offset s) (validFld sec) true)
    have hapart : Apart (offsetFld sec) (validFld sec) ∧ ∀ g ∈ steeredFlds, Apart (offsetFld sec) g := by cases sec <;> decide
    have hshown : fld (becameValid sec (setFlag (sourceMeasured sec offset s) (validFld sec) true)) (offsetFld sec) =
        fld (sourceMeasured sec offset s) (offsetFld sec) := by rw [hsteers.flds _ hapart.2, fld_setFlag_apart hapart.1]
    simp only [Bool.and_eq_true, decide_eq_true_eq] at h
    refine ⟨?_, ?_, ?_, ?_, hsteers.now.trans hnow⟩
    · rw [hsteers.sourceOf]
      exact sourceOf_setSource_same ..
    · rw [sfld, hshown, ← sfld, sfld_offset_sourceMeasured]
    · rw [hsteers.isValid, isValid_setFlag, decide_eq_true h.1, Bool.or_true]
    · rw [hsteers.sourceOf]
      exact sourceOf_setSource_other ..
  · next h =>
    refine ⟨sourceOf_setSource_same .., sfld_offset_sourceMeasured .., ?_, sourceOf_setSource_other .., hnow⟩
    rw [isValid_sourceMeasured] at h ⊢
    cases hv : isValid s sec
    · simpa [hv] using h
    · rfl

theorem measurement_results {s : State} {sec : Bool} (offset : Int) (hawake : awake s = true) (hcode : srcCode s sec ≠ 0) :
    ∃ t, exec (.pacerSourceMeasurement sec offset) s = .next t ∧
      sourceOf t sec = { run := (sourceOf s sec).run + 1, last := tick s, lost := false, offset := offset } ∧
      sfld t (if sec then TBS_SEC_OFFSET.OFFSET else TBS_PRI_OFFSET.OFFSET) = satSigned 32 (Int.tdiv offset 4096) ∧
      isValid t sec = (isValid s sec || decide (16 ≤ (sourceOf s sec).run + 1)) ∧ sourceOf t (!sec) = sourceOf s (!sec) ∧ now t = now s := by
  have hexec : exec (.pacerSourceMeasurement sec offset) s = .next (settle (steer sec offset (sourceJudged sec offset s))) := by
    change execPacerSourceMeasurement sec offset s = _
    rw [execPacerSourceMeasurement, whileAwake, if_pos hawake, measure_eq hcode, done]
  obtain ⟨hsource, hshown, hvalid, hother, hnow⟩ := sourceJudged_results sec offset s
  have hsteers := Steers.steer sec offset (sourceJudged sec offset s)
  have htbs : (settle (steer sec offset (sourceJudged sec offset s))).tbs = (steer sec offset (sourceJudged sec offset s)).tbs := by simp
  refine ⟨_, hexec, ?_, ?_, ?_, ?_, ?_⟩
  · rw [sourceOf_of_tbs htbs, hsteers.sourceOf, hsource]
  · have hlow : (offsetFld sec).reg < 0xA00D0000 ∧ ∀ g ∈ steeredFlds, Apart (offsetFld sec) g := by cases sec <;> decide
    rw [← offsetFld, sfld, fld_settle_low _ hlow.1, hsteers.flds _ hlow.2, ← sfld, hshown]
  · have hlow : (validFld sec).reg < 0xA00D0000 := by cases sec <;> decide
    rw [isValid, flag_settle_low _ hlow, ← isValid, hsteers.isValid, hvalid]
  · rw [sourceOf_of_tbs htbs, hsteers.sourceOf, hother]
  · rw [now_settle, hsteers.now, hnow]

/-! ### The loss of a source (R45, R46) -/

/-- The source is noted as lost. -/
def sourceLost (sec : Bool) (s : State) : State :=
  setFlag (setSource sec { sourceOf s sec with run := 0, lost := true } s) (validFld sec) false

/-- A switch to the lost source is given up. -/
def switchDropped (sec : Bool) (s : State) : State :=
  if (match s.tbs.pacer.switchDue with
      | some (x, _) => decide (x = sec)
      | none => false)
  then setPacer { s.tbs.pacer with switchDue := none } s else s

theorem steers_switchDropped (sec : Bool) (s : State) : Steers s (switchDropped sec s) := .ite (.setPacer rfl rfl rfl rfl) (.refl s)

theorem fld_switchDropped (sec : Bool) (s : State) (f : Fld) : fld (switchDropped sec s) f = fld s f := by
  unfold switchDropped
  split <;> split <;> rfl

/-- The loss is posted, and an active source, or one about to be, is given up. -/
theorem pacerSrcLost_next {s : State} {sec : Bool} (hawake : awake s = true) (hdue : lossDue s sec = true) :
    ∃ b : Bool, exec (.pacerSrcLost sec) s = .next (settle (if b then activeLost (raise 130 (switchDropped sec (sourceLost sec s)))
        else raise 130 (switchDropped sec (sourceLost sec s)))) ∧
      (flag s TBS_PACER_CTRL.EN = true → s.tbs.pacer.secActive = sec → b = true) := by
  refine ⟨flag s TBS_PACER_CTRL.EN && (decide ((sourceLost sec s).tbs.pacer.secActive = sec) ||
    (match (sourceLost sec s).tbs.pacer.switchDue with
     | some (x, _) => decide (x = sec)
     | none => false)), ?_, fun hen hactive => ?_⟩
  · change execPacerSrcLost sec s = _
    rw [execPacerSrcLost, hawake, hdue, Bool.and_self, if_pos rfl, done]
    rfl
  · have hsame : (sourceLost sec s).tbs.pacer.secActive = s.tbs.pacer.secActive := by cases sec <;> rfl
    rw [hen, hsame, hactive, decide_eq_true rfl]
    rfl

theorem sourceLost_results (sec : Bool) (s : State) : isValid (sourceLost sec s) sec = false ∧ (sourceOf (sourceLost sec s) sec).lost = true ∧
    (sourceOf (sourceLost sec s) sec).run = 0 ∧ now (sourceLost sec s) = now s ∧ LowKept s (sourceLost sec s) ∧
    ∀ f, Apart f TBS_PACER_STATUS.PRI_VALID → Apart f TBS_PACER_STATUS.SEC_VALID → fld (sourceLost sec s) f = fld s f := by
  have hvalid : 0xA0000A00 ≤ (validFld sec).reg := by cases sec <;> decide
  have hset : LowKept s (setSource sec { sourceOf s sec with run := 0, lost := true } s) := by cases sec <;> exact .setPacer ..
  have hsource : sourceOf (sourceLost sec s) sec = { sourceOf s sec with run := 0, lost := true } := sourceOf_setSource_same ..
  refine ⟨isValid_setFlag sec false _, by rw [hsource], by rw [hsource], now_setSource .., hset.trans (.setFlag _ _ _ hvalid), fun f hp hs => ?_⟩
  have hapart : Apart f (validFld sec) := by
    cases sec
    · exact hp
    · exact hs
  rw [sourceLost, fld_setFlag_apart hapart, fld_setSource]

theorem activeLost_holdover {s : State} (hst : pacerState s = 2) (hauto : flag s TBS_PACER_CTRL.AUTO_SWITCH = false) :
    activeLost s = raise 132 (enterPacer 3 s) := by
  unfold activeLost
  simp [hauto, hst]

theorem pacerSrcLost_results {s : State} {sec : Bool} (hawake : awake s = true) (hdue : lossDue s sec = true) :
    ∃ t, exec (.pacerSrcLost sec) s = .next t ∧ isValid t sec = false ∧
      (sourceOf t sec).lost = true ∧ (sourceOf t sec).run = 0 ∧ Posted 130 s t ∧ now t = now s ∧
      (flag s TBS_PACER_CTRL.EN = true → s.tbs.pacer.secActive = sec → pacerState s = 2 → flag s TBS_PACER_CTRL.AUTO_SWITCH = false →
        pacerState t = 3 ∧ Posted 132 s t) := by
  obtain ⟨b, hexec, hb⟩ := pacerSrcLost_next hawake hdue
  obtain ⟨hinvalid, hlost, hrun, hnow, hlow, hflds⟩ := sourceLost_results sec s
  generalize hv : raise 130 (switchDropped sec (sourceLost sec s)) = v at hexec
  have hvlost : Steers (sourceLost sec s) v := hv ▸ (steers_switchDropped sec _).trans (.raise 130 _)
  have hvraised : 130 ∈ v.fab.raised := hv ▸ mem_raise 130 _
  have hvflds : ∀ f, Apart f TBS_PACER_STATUS.PRI_VALID → Apart f TBS_PACER_STATUS.SEC_VALID → fld v f = fld s f := fun f hp hs => by
    rw [← hv, fld_raise, fld_switchDropped, hflds f hp hs]
  generalize hu : (if b then activeLost v else v) = u at hexec
  have hsteers : Steers v u := hu ▸ .ite (.activeLost v) (.refl v)
  have hall := hvlost.trans hsteers
  have htbs : (settle u).tbs = u.tbs := by simp
  have hvalidlow : (validFld sec).reg < 0xA00D0000 := by cases sec <;> decide
  have hulow : LowKept s u := hlow.trans hall.low
  refine ⟨_, hexec, ?_, ?_, ?_, hulow.posted (by decide) (hsteers.low.raised _ hvraised), ?_, fun hen hactive hst hauto => ?_⟩
  · rw [isValid, flag_settle_low _ hvalidlow, ← isValid, hall.isValid, hinvalid]
  · rw [sourceOf_of_tbs htbs, hall.sourceOf, hlost]
  · rw [sourceOf_of_tbs htbs, hall.sourceOf, hrun]
  · rw [now_settle, hall.now, hnow]
  · have hvst : pacerState v = 2 := (hvflds _ (by decide) (by decide)).trans hst
    have hvauto : flag v TBS_PACER_CTRL.AUTO_SWITCH = false := by rw [flag, hvflds _ (by decide) (by decide), ← flag, hauto]
    rw [hb hen hactive, if_pos rfl, activeLost_holdover hvst hvauto] at hu
    refine ⟨?_, hulow.posted (by decide) (hu ▸ mem_raise 132 _)⟩
    rw [pacerState, fld_settle_low _ (by decide), ← hu, fld_raise, ← pacerState, pacerState_enterPacer v (by decide)]

/-! ### A switch of the source (R46, R47) -/

/-- The other source is active, and a HOLDOVER has ended. -/
def switchEntered (sec : Bool) (s : State) : State :=
  let s1 := setPacer { s.tbs.pacer with secActive := sec, switchDue := none, stepDue := none } s
  if pacerState s1 = 3 then enterPacer 2 s1 else s1

/-- What remains to be slewed is the estimate of the source that has become active. -/
def switchSlewed (sec : Bool) (s : State) : State := judgeAlarm (setSlew (sourceOf (switchEntered sec s) sec).offset (switchEntered sec s))

/-- The switch with its event. -/
def switchPosted (sec : Bool) (s : State) : State :=
  raiseIf (decide (s.tbs.pacer.secActive ≠ sec)) 131
    (if decide (s.tbs.pacer.secActive ≠ sec) then setPacer { (switchSlewed sec s).tbs.pacer with lockRun := 0 } (switchSlewed sec s)
     else switchSlewed sec s)

theorem switchTo_eq (sec : Bool) (s : State) : switchTo sec s = showActive (switchPosted sec s) := rfl

theorem steers_switchEntered (sec : Bool) (s : State) : Steers s (switchEntered sec s) := by
  have hactive : Steers s (setPacer { s.tbs.pacer with secActive := sec, switchDue := none, stepDue := none } s) := .setPacer rfl rfl rfl rfl
  exact .ite (hactive.trans (.enterPacer 2 _)) hactive

theorem pacerState_switchEntered (sec : Bool) (s : State) :
    pacerState (switchEntered sec s) = if pacerState s = 3 then 2 else pacerState s := by
  have hsame : pacerState (setPacer { s.tbs.pacer with secActive := sec, switchDue := none, stepDue := none } s) = pacerState s := rfl
  unfold switchEntered
  dsimp only
  rw [hsame]
  split
  · exact pacerState_enterPacer _ (by decide)
  · exact hsame

theorem secActive_switchEntered (sec : Bool) (s : State) : (switchEntered sec s).tbs.pacer.secActive = sec := by
  unfold switchEntered
  dsimp only
  split <;> rfl

/-- Registers that a switch has nothing to do with. -/
theorem rd_switchTo {a : Nat} (sec : Bool) (s : State) (h : a ≠ TBS_PACER_STATUS) (h' : a ≠ TBS_SLEW_REMAIN) :
    rd (switchTo sec s) a = rd s a := by
  have hentered : rd (switchEntered sec s) a = rd s a := by
    unfold switchEntered
    dsimp only
    split
    · exact rd_setFld_other _ TBS_PACER_STATUS.STATE _ a h
    · rfl
  have hslewed : rd (switchSlewed sec s) a = rd s a := by
    rw [switchSlewed, judgeAlarm]
    simp only [raiseIf_frame]
    rw [setFlag, rd_setFld_other _ TBS_PACER_STATUS.OFFSET_ALARM _ a h, setSlew, setFlag, rd_setFld_other _ TBS_PACER_STATUS.SLEWING _ a h,
      setInt, rd_setFld_other _ TBS_SLEW_REMAIN.OFFSET _ a h', ← hentered]
    rfl
  rw [switchTo_eq, showActive, rd_setFld_other _ TBS_PACER_STATUS.ACTIVE_SRC _ a h, switchPosted]
  simp only [raiseIf_frame]
  split
  · exact hslewed
  · exact hslewed

/-- A field of the status or of the slew, beside ACTIVE_SRC, is as the slew and the alarm have left it. -/
theorem fld_switchTo {f : Fld} (sec : Bool) (s : State) (h : Apart f TBS_PACER_STATUS.ACTIVE_SRC) (h' : Apart f TBS_PACER_STATUS.OFFSET_ALARM) :
    fld (switchTo sec s) f = fld (setSlew (sourceOf s sec).offset (switchEntered sec s)) f := by
  have hslewed : fld (switchSlewed sec s) f = fld (setSlew (sourceOf s sec).offset (switchEntered sec s)) f := by
    rw [← (steers_switchEntered sec s).sourceOf]
    exact fld_judgeAlarm _ h'
  rw [switchTo_eq, fld_showActive _ h, switchPosted, fld_raiseIf]
  split
  · exact hslewed
  · exact hslewed

theorem steers_switchPosted (sec : Bool) (s : State) : Steers s (switchPosted sec s) := by
  have hslewed : Steers s (switchSlewed sec s) := ((steers_switchEntered sec s).trans (.setSlew ..)).trans (.judgeAlarm _)
  have hcounted : Steers s (setPacer { (switchSlewed sec s).tbs.pacer with lockRun := 0 } (switchSlewed sec s)) :=
    hslewed.trans (.setPacer rfl rfl rfl rfl)
  exact Steers.trans (.ite hcounted hslewed) (.raiseIf ..)

theorem secActive_switchPosted (sec : Bool) (s : State) : (switchPosted sec s).tbs.pacer.secActive = sec := by
  have hslewed : (switchSlewed sec s).tbs.pacer.secActive = sec := by
    rw [switchSlewed, tbs_judgeAlarm, tbs_setSlew]
    exact secActive_switchEntered sec s
  unfold switchPosted
  simp only [raiseIf_frame]
  split
  · exact hslewed
  · exact hslewed

theorem pacerState_switchTo (sec : Bool) (s : State) : pacerState (switchTo sec s) = if pacerState s = 3 then 2 else pacerState s := by
  rw [pacerState, fld_switchTo sec s (by decide) (by decide), ← pacerState, pacerState_setSlew, pacerState_switchEntered]

/-- The slew target shows the new source's estimate, and SLEWING whether anything remains (R47). -/
theorem slew_switchTo (sec : Bool) (s : State) :
    sfld (switchTo sec s) TBS_SLEW_REMAIN.OFFSET = satSigned 32 (Int.tdiv (sourceOf s sec).offset 4096) ∧
    flag (switchTo sec s) TBS_PACER_STATUS.SLEWING = decide (fld (switchTo sec s) TBS_SLEW_REMAIN.OFFSET ≠ 0) := by
  have hremain := fld_switchTo (f := TBS_SLEW_REMAIN.OFFSET) sec s (by decide) (by decide)
  have hslewing := fld_switchTo (f := TBS_PACER_STATUS.SLEWING) sec s (by decide) (by decide)
  have hsigned := signed_unsignedOf_satSigned (Int.tdiv (sourceOf s sec).offset 4096)
  rw [← offsetWord] at hsigned ⊢
  rw [fld_slewRemain_setSlew] at hremain
  refine ⟨by rw [sfld, hremain, hsigned], ?_⟩
  rw [flag, hslewing, ← flag, flag_slewing_setSlew, hremain, decide_eq_decide, not_iff_not]
  constructor
  · intro h
    rw [h]
    rfl
  · intro h
    rw [← hsigned, h]
    rfl

theorem pacerSrcSwitch_results {s : State} {sec : Bool} (h : switchDueNow s = some sec) :
    ∃ t, exec .pacerSrcSwitch s = .next t ∧ t.tbs.pacer.secActive = sec ∧
      now t = now s ∧ lap t = lap s ∧ rd t TBS_FREQ_ADJ = rd s TBS_FREQ_ADJ ∧ (s.tbs.pacer.secActive ≠ sec → Posted 131 s t) ∧
      pacerState t = (if pacerState s = 3 then 2 else pacerState s) ∧
      sfld t TBS_SLEW_REMAIN.OFFSET = satSigned 32 (Int.tdiv (sourceOf s sec).offset 4096) ∧
      flag t TBS_PACER_STATUS.SLEWING = decide (fld t TBS_SLEW_REMAIN.OFFSET ≠ 0) := by
  have hexec : exec .pacerSrcSwitch s = .next (settle (switchTo sec s)) := by
    change execPacerSrcSwitch s = _
    rw [execPacerSrcSwitch, h]
    rfl
  have hsteers := steers_switchPosted sec s
  have htbs : (settle (switchTo sec s)).tbs = (switchPosted sec s).tbs := by
    rw [switchTo_eq]
    simp [showActive]
  have hlow : LowKept s (switchTo sec s) := hsteers.low.trans (.setFld _ TBS_PACER_STATUS.ACTIVE_SRC _ (by decide))
  obtain ⟨hremain, hslewing⟩ := slew_switchTo sec s
  refine ⟨_, hexec, ?_, ?_, ?_, ?_, fun hne => hlow.posted (by decide) ?_, ?_, ?_, ?_⟩
  · rw [htbs, secActive_switchPosted]
  · rw [now_of_tbs htbs, hsteers.now]
  · rw [lap, htbs, hsteers.time, lap]
  · rw [rd_settle _ _ (outsideLdg_of (by decide)), rd_switchTo sec s (by decide) (by decide)]
  · have hraised : 131 ∈ (switchPosted sec s).fab.raised := by
      rw [switchPosted, decide_eq_true hne]
      exact mem_raise 131 _
    exact hraised
  · rw [pacerState, fld_settle_low _ (by decide), ← pacerState, pacerState_switchTo]
  · rw [sfld, fld_settle_low _ (by decide), ← sfld, hremain]
  · rw [flag_settle_low _ (by decide), fld_settle_low _ (by decide), hslewing]

/-- SLEWING clears, and nothing else changes (R47). -/
theorem slewDone_results {s : State} (hs : Settled s) (h : fld s TBS_SLEW_REMAIN.OFFSET = 0) :
    ∃ t, exec .slewDone s = .next t ∧ flag t TBS_PACER_STATUS.SLEWING = false ∧
      (∀ a, a ≠ TBS_PACER_STATUS → rd t a = rd s a) ∧ ∀ k, same k s t := by
  have hexec : exec .slewDone s = .next (setFlag s TBS_PACER_STATUS.SLEWING false) := by
    change execSlewDone s = _
    rw [execSlewDone, if_pos h]
    exact done_settled_next (settled_wr hs _ _)
  exact ⟨_, hexec, flag_setFlag_same _ _ _ rfl (by decide), fun a ha => rd_setFld_other s TBS_PACER_STATUS.SLEWING _ a ha,
    fun k => same_wr s _ _ k⟩

/-- Settles O14, clause by clause: the Pacer's start, a measurement, the loss of a source, a switch, and the end of a slew. -/
theorem pacerFollowsItsSources : Obligations.PacerFollowsItsSources :=
  ⟨fun _ h => pacerEnable_results h, fun _ _ offset hawake hcode => measurement_results offset hawake hcode,
    fun _ _ hawake hdue => pacerSrcLost_results hawake hdue, fun _ _ h => pacerSrcSwitch_results h,
    fun _ hs h => slewDone_results hs h⟩

end Sys2Proof.Machine

namespace Sys2Proof.Machine
open Sys2Proof

/-! ### What concerns one Tally (R51 to R58) -/

/-- A field of one of the registers of Tally `n`. -/
abbrev OfTally (n : Nat) (f : Fld) : Prop := 0xA0050100 + n * 64 ≤ f.reg ∧ f.reg < 0xA0050140 + n * 64

/-- Between `s` and `t` Tally `n` and its registers are as they were, time stands, and what was posted still is. -/
structure TallyKept (n : Nat) (s t : State) : Prop where
  tally : tallyOf t n = tallyOf s n
  regs : ∀ a, 0xA0050100 + n * 64 ≤ a → a < 0xA0050140 + n * 64 → rd t a = rd s a
  pacer : t.tbs.pacer = s.tbs.pacer
  bnd : t.bnd = s.bnd
  twin : t.twin = s.twin
  pwr : t.pwr = s.pwr
  raised : ∀ e ∈ s.fab.raised, e ∈ t.fab.raised

namespace TallyKept

variable {n : Nat} {s t u : State}

protected theorem refl (n : Nat) (s : State) : TallyKept n s s := ⟨rfl, fun _ _ _ => rfl, rfl, rfl, rfl, rfl, fun _ h => h⟩

theorem trans (h : TallyKept n s t) (h' : TallyKept n t u) : TallyKept n s u where
  tally := h'.tally.trans h.tally
  regs a ha hb := (h'.regs a ha hb).trans (h.regs a ha hb)
  pacer := h'.pacer.trans h.pacer
  bnd := h'.bnd.trans h.bnd
  twin := h'.twin.trans h.twin
  pwr := h'.pwr.trans h.pwr
  raised e he := h'.raised e (h.raised e he)

/-! What another Tally or input does. -/

theorem setTally_other {m : Nat} (x : TallyRun) (s : State) (h : m ≠ n) : TallyKept n s (setTally m x s) :=
  ⟨by rw [tallyOf_setTally, if_neg h.symm], fun _ _ _ => rfl, rfl, rfl, rfl, rfl, fun _ he => he⟩

theorem setFld_other {f : Fld} (v : Nat) (s : State) (h : ¬ OfTally n f) : TallyKept n s (setFld s f v) :=
  ⟨rfl, fun a ha hb => rd_setFld_other s f v a fun he => h ⟨he ▸ ha, he ▸ hb⟩, rfl, rfl, rfl, rfl, fun _ he => he⟩

theorem setEncIn (k f : Nat) (x : EncIn) (s : State) : TallyKept n s (setEncIn k f x s) :=
  ⟨rfl, fun _ _ _ => rfl, rfl, rfl, rfl, rfl, fun _ he => he⟩

theorem raise (e : Nat) (s : State) : TallyKept n s (raise e s) :=
  ⟨by simp [tallyOf], fun _ _ _ => by simp, by simp, by simp, by simp, by simp, fun _ he => mem_raise_of_mem e he⟩

/-! What the Tally itself does keeps two states alike. -/

theorem setTally_congr (h : TallyKept n s t) (x : TallyRun) : TallyKept n (setTally n x s) (setTally n x t) where
  tally := by rw [tallyOf_setTally, tallyOf_setTally, if_pos rfl, if_pos rfl]
  regs := h.regs
  pacer := h.pacer
  bnd := h.bnd
  twin := h.twin
  pwr := h.pwr
  raised := h.raised

theorem wr_congr (h : TallyKept n s t) (a : Nat) (w : Word) : TallyKept n (wr s a w) (wr t a w) where
  tally := h.tally
  regs b hb hb' := by rw [rd_wr, rd_wr, h.regs b hb hb']
  pacer := h.pacer
  bnd := h.bnd
  twin := h.twin
  pwr := h.pwr
  raised := h.raised

theorem setFld_congr (h : TallyKept n s t) {f : Fld} (hf : OfTally n f) (v : Nat) : TallyKept n (setFld s f v) (setFld t f v) := by
  rw [setFld, setFld, h.regs _ hf.1 hf.2]
  exact h.wr_congr ..

theorem raise_congr (h : TallyKept n s t) (e : Nat) : TallyKept n (Machine.raise e s) (Machine.raise e t) where
  tally := ((raise e t).tally.trans h.tally).trans (raise e s).tally.symm
  regs a ha hb := by simp [h.regs a ha hb]
  pacer := by simp [h.pacer]
  bnd := by simp [h.bnd]
  twin := by simp [h.twin]
  pwr := by simp [h.pwr]
  raised e' he := by
    by_cases hee : e' = e
    · exact hee ▸ mem_raise e t
    · refine mem_raise_of_mem e (h.raised e' ?_)
      unfold Machine.raise at he
      split at he
      · exact he
      · simpa [hee] using he

/-! What a Tally reads. -/

theorem fld (h : TallyKept n s t) {f : Fld} (hf : OfTally n f) : fld t f = fld s f := by rw [Machine.fld, Machine.fld, h.regs _ hf.1 hf.2]

theorem flag (h : TallyKept n s t) {f : Fld} (hf : OfTally n f) : flag t f = flag s f := by rw [Machine.flag, Machine.flag, h.fld hf]

theorem scale (h : TallyKept n s t) : rd t (TBS_TALLYn_SCALE n) = rd s (TBS_TALLYn_SCALE n) :=
  h.regs _ (by dsimp only [TBS_TALLYn_SCALE]; omega) (by dsimp only [TBS_TALLYn_SCALE]; omega)

theorem now (h : TallyKept n s t) : now t = now s := by rw [Machine.now, Machine.now, h.pacer]

theorem tick (h : TallyKept n s t) : tick t = tick s := by rw [Machine.tick, Machine.tick, h.bnd, h.twin]

theorem clk (h : TallyKept n s t) : clk t = clk s := by
  unfold Machine.clk oscillator
  rw [h.tick, h.pacer, h.pwr]

theorem tallySrc (h : TallyKept n s t) : tallySrc t n = tallySrc s n := by
  unfold Machine.tallySrc
  rw [h.flag (f := TBS_TALLYn_CTRL.EN n) (by dsimp only [OfTally]; omega), h.fld (f := TBS_TALLYn_CTRL.SRC n) (by dsimp only [OfTally]; omega)]

theorem onEncoder (h : TallyKept n s t) (k f : Nat) : onEncoder t k f n = onEncoder s k f n := by
  unfold Machine.onEncoder
  rw [h.tallySrc, h.fld (f := TBS_TALLYn_CTRL.ENC_SEL n) (by dsimp only [OfTally]; omega),
    h.fld (f := TBS_TALLYn_CTRL.FILT n) (by dsimp only [OfTally]; omega)]

theorem encVel (h : TallyKept n s t) (x : Int) : encVel t n x = encVel s n x := by
  unfold Machine.encVel velWindow
  rw [h.tally, h.fld (f := TBS_TALLYn_CTRL.VEL_WIN n) (by dsimp only [OfTally]; omega)]

theorem tallyExact (h : TallyKept n s t) (tv x : Int) : tallyExact t n tv x = tallyExact s n tv x := by
  unfold Machine.tallyExact encPos remPos bcastLaps
  rw [h.tallySrc, h.encVel, h.tally, h.fld (f := TBS_TALLYn_CTRL.BCAST_INT n) (by dsimp only [OfTally]; omega), h.scale]

theorem tallyAt (h : TallyKept n s t) (tv x : Int) : tallyAt t n tv x = tallyAt s n tv x := by
  unfold Machine.tallyAt
  rw [h.tallyExact]

end TallyKept

/-- A fold in which one place has an effect, and the others keep what it starts from and what it gives. -/
theorem foldl_own {β : Type} {f : State → β → State} {P Q : State → Prop} {x : β} (hbefore : ∀ u y, y ≠ x → P u → P (f u y))
    (hown : ∀ u, P u → Q (f u x)) (hafter : ∀ u y, y ≠ x → Q u → Q (f u y)) {l : List β} (hl : l.Nodup) (hx : x ∈ l) {s : State}
    (hs : P s) : Q (l.foldl f s) := by
  have hrest : ∀ (r : List β) u, x ∉ r → Q u → Q (r.foldl f u) := by
    intro r
    induction r with
    | nil => exact fun u _ hu => hu
    | cons y r ih =>
      intro u hr hu
      rw [List.mem_cons, not_or] at hr
      exact ih _ hr.2 (hafter u y (Ne.symm hr.1) hu)
  induction l generalizing s with
  | nil => cases hx
  | cons y l ih =>
    rw [List.nodup_cons] at hl
    by_cases hy : y = x
    · subst hy
      exact hrest l _ hl.1 (hown s hs)
    · exact ih hl.2 ((List.mem_cons.mp hx).resolve_left (Ne.symm hy)) (hbefore s y hy hs)

/-- A pass over the four Tallies gives Tally `n` what its own step gives it. -/
theorem TallyKept.foldl {n : Nat} {s : State} {f : State → Nat → State} (hn : n < 4) (hother : ∀ u m, m ≠ n → TallyKept n u (f u m))
    (hcongr : ∀ u, TallyKept n s u → TallyKept n (f s n) (f u n)) : TallyKept n (f s n) ((List.range 4).foldl f s) :=
  foldl_own (P := TallyKept n s) (Q := TallyKept n (f s n)) (fun u m hm hu => hu.trans (hother u m hm)) (fun u hu => hcongr u hu)
    (fun u m hm hu => hu.trans (hother u m hm)) List.nodup_range (List.mem_range.mpr hn) (.refl n s)

/-! ### Edges of an encoder (R51) -/

/-- The registers of two Tallies are not the same. -/
theorem not_ofTally {n m : Nat} {f : Fld} (h : m ≠ n) (hf : OfTally m f) : ¬ OfTally n f := by omega

theorem ofTally_encErr (n : Nat) : OfTally n (TBS_TALLYn_STATUS.ENC_ERR n) := by
  dsimp only [OfTally]
  omega

theorem tallyEdge_other {n m : Nat} (k f : Nat) (t : Int) (a b a' b' : Bool) (s : State) (h : m ≠ n) :
    TallyKept n s (tallyEdge k f t a b a' b' s m) := by
  unfold tallyEdge
  split
  · split
    · exact .setFld_other _ _ (not_ofTally h (ofTally_encErr m))
    · split
      · exact .setTally_other _ _ h
      · exact .refl n s
  · exact .refl n s

theorem TallyKept.countEdge_congr {n : Nat} {s u : State} (h : TallyKept n s u) (t : Int) (fwd : Bool) :
    TallyKept n (countEdge n t fwd s) (countEdge n t fwd u) := by
  unfold countEdge
  rw [h.tally, h.scale, h.flag (f := TBS_TALLYn_CTRL.INVERT n) (by dsimp only [OfTally]; omega)]
  exact h.setTally_congr _

theorem TallyKept.tallyEdge_congr {n : Nat} {s u : State} (h : TallyKept n s u) (k f : Nat) (t : Int) (a b a' b' : Bool) :
    TallyKept n (tallyEdge k f t a b a' b' s n) (tallyEdge k f t a b a' b' u n) := by
  unfold tallyEdge
  rw [h.onEncoder]
  split
  · split
    · rw [addSat, addSat, h.fld (ofTally_encErr n)]
      exact h.setFld_congr (ofTally_encErr n) _
    · split
      · exact h.countEdge_congr ..
      · exact h
  · exact h

/-- Levels that pass a filter reach a Tally as one edge. -/
theorem passLevels_tallyEdge {n : Nat} (hn : n < 4) (k f at1 : Nat) (a b : Bool) (s : State) :
    TallyKept n (tallyEdge k f (now s - ((clk s + 1 - at1 : Nat) : Int)) (encIn s k f).a (encIn s k f).b a b s n) (passLevels k f at1 a b s) := by
  unfold passLevels
  dsimp only
  refine TallyKept.trans ?_ (TallyKept.foldl hn (fun u m hm => tallyEdge_other k f _ _ _ a b u hm) fun u hu => hu.tallyEdge_congr ..)
  exact (TallyKept.setEncIn ..).tallyEdge_congr ..

/-- The counts of a Tally at an edge. -/
theorem tallyEdge_counts {k f n : Nat} {s : State} (h : onEncoder s k f n = true) (t : Int) {a b a' b' : Bool}
    (hone : (a != a') = !(b != b')) : tallyEdge k f t a b a' b' s n = countEdge n t (edgeForward a b a' b') s := by
  unfold tallyEdge
  rw [if_pos h, hone]
  cases b != b'
  · rfl
  · rfl

theorem tallyEdge_errs {k f n : Nat} {s : State} (h : onEncoder s k f n = true) (t : Int) {a b a' b' : Bool} (ha : a ≠ a') (hb : b ≠ b') :
    tallyEdge k f t a b a' b' s n = addSat s (TBS_TALLYn_STATUS.ENC_ERR n) 1 := by
  unfold tallyEdge
  rw [if_pos h, if_pos (by simp [ha, hb])]

theorem tallyOf_countEdge (n : Nat) (t : Int) (fwd : Bool) (s : State) : (tallyOf (countEdge n t fwd s) n).te = t ∧
    (tallyOf (countEdge n t fwd s) n).pos = (tallyOf s n).pos +
      (if fwd = flag s (TBS_TALLYn_CTRL.INVERT n) then -((rd s (TBS_TALLYn_SCALE n)).toNat : Int) else (rd s (TBS_TALLYn_SCALE n)).toNat) := by
  unfold countEdge
  dsimp only
  rw [tallyOf_setTally, if_pos rfl]
  refine ⟨rfl, ?_⟩
  by_cases hinv : fwd = flag s (TBS_TALLYn_CTRL.INVERT n)
  · simp [hinv]
  · simp [hinv]

/-! ### What the filters leave -/

theorem encIn_setEncIn (k f j g : Nat) (x : EncIn) (s : State) :
    encIn (setEncIn k f x s) j g = if j * 4 + g = k * 4 + f then x else encIn s j g := tget_tput _ _ _ _ x

theorem encIn_setEncIn_same (k f : Nat) (x : EncIn) (s : State) : encIn (setEncIn k f x s) k f = x := by rw [encIn_setEncIn, if_pos rfl]

theorem encIn_setEncIn_other {k f j g : Nat} (x : EncIn) (s : State) (h : j * 4 + g ≠ k * 4 + f) :
    encIn (setEncIn k f x s) j g = encIn s j g := by rw [encIn_setEncIn, if_neg h]

theorem encIn_of_enc {s t : State} (h : t.tbs.enc = s.tbs.enc) (k f : Nat) : encIn t k f = encIn s k f := by rw [encIn, encIn, h]

theorem enc_tallyEdge (k f : Nat) (t : Int) (a b a' b' : Bool) (s : State) (n : Nat) : (tallyEdge k f t a b a' b' s n).tbs.enc = s.tbs.enc := by
  unfold tallyEdge
  split
  · split
    · rfl
    · split <;> rfl
  · rfl

/-- An input behind a filter takes the levels that pass, and its count. -/
theorem encIn_passLevels_same (k f at1 : Nat) (a b : Bool) (s : State) : encIn (passLevels k f at1 a b s) k f =
    { encIn s k f with a := a, b := b, counted := if ((encIn s k f).a != a) != ((encIn s k f).b != b) then
      (at1 :: (encIn s k f).counted).take 4 else (encIn s k f).counted } := by
  unfold passLevels
  dsimp only
  rw [encIn_of_enc (foldl_keeps (·.tbs.enc) (enc_tallyEdge k f _ _ _ a b) _ _), encIn_setEncIn_same]

theorem encIn_passLevels_other {k f j g : Nat} (at1 : Nat) (a b : Bool) (s : State) (h : j * 4 + g ≠ k * 4 + f) :
    encIn (passLevels k f at1 a b s) j g = encIn s j g := by
  unfold passLevels
  dsimp only
  rw [encIn_of_enc (foldl_keeps (·.tbs.enc) (enc_tallyEdge k f _ _ _ a b) _ _), encIn_setEncIn_other _ _ h]

/-- What every passing of levels keeps, a filter keeps. -/
theorem filterPass_of {P : State → Prop} {k f : Nat} (hpass : ∀ u at1 a b, P u → P (passLevels k f at1 a b u)) {s : State} (hs : P s) :
    P (filterPass k f s) := by
  unfold filterPass
  dsimp only
  split
  · exact hpass _ _ _ _ hs
  · split
    · split
      · exact hpass _ _ _ _ (hpass _ _ _ _ hs)
      · exact hpass _ _ _ _ hs
    · split
      · split
        · exact hpass _ _ _ _ (hpass _ _ _ _ hs)
        · exact hpass _ _ _ _ hs
      · exact hs

/-- What each filter of each input keeps, all of them keep. -/
theorem filtersPass_of {P : State → Prop} (hpass : ∀ u k f, k < 4 → f < 4 → P u → P (filterPass k f u)) {s : State} (hs : P s) :
    P (filtersPass s) := by
  refine List.foldlRecOn (motive := P) _ _ hs fun u hu k hk => ?_
  exact List.foldlRecOn (motive := P) _ _ hu fun v hv f hf => hpass v k f (List.mem_range.mp hk) (List.mem_range.mp hf) hv

/-- A filter behind which the levels are those of the pins passes nothing. -/
theorem filterPass_still {k f : Nat} {s : State} (ha : (encIn s k f).rawA = (encIn s k f).a) (hb : (encIn s k f).rawB = (encIn s k f).b) :
    filterPass k f s = s := by
  unfold filterPass
  simp [ha, hb]

/-- What a filter passes or not, where only level A can be on its way. -/
theorem filterPass_early {k f : Nat} {s : State} (hb : (encIn s k f).rawB = (encIn s k f).b) (ht : clk s + 1 < passAt f (encIn s k f).atA) :
    filterPass k f s = s := by
  have hno : ¬ passAt f (encIn s k f).atA ≤ clk s + 1 := by omega
  unfold filterPass
  simp [hb, hno]

theorem filterPass_levelA {k f : Nat} {s : State} (ha : (encIn s k f).rawA ≠ (encIn s k f).a) (hb : (encIn s k f).rawB = (encIn s k f).b)
    (ht : passAt f (encIn s k f).atA ≤ clk s + 1) :
    filterPass k f s = passLevels k f (passAt f (encIn s k f).atA) (encIn s k f).rawA (encIn s k f).b s := by
  unfold filterPass
  simp [ha, hb, ht]

theorem filterPass_levelB {k f : Nat} {s : State} (ha : (encIn s k f).rawA = (encIn s k f).a) (hb : (encIn s k f).rawB ≠ (encIn s k f).b)
    (ht : passAt f (encIn s k f).atB ≤ clk s + 1) :
    filterPass k f s = passLevels k f (passAt f (encIn s k f).atB) (encIn s k f).a (encIn s k f).rawB s := by
  unfold filterPass
  simp [ha, hb, ht]

theorem filterPass_both {k f : Nat} {s : State} (ha : (encIn s k f).rawA ≠ (encIn s k f).a) (hb : (encIn s k f).rawB ≠ (encIn s k f).b)
    (heq : (encIn s k f).atB = (encIn s k f).atA) (ht : passAt f (encIn s k f).atA ≤ clk s + 1) :
    filterPass k f s = passLevels k f (passAt f (encIn s k f).atA) (encIn s k f).rawA (encIn s k f).rawB s := by
  unfold filterPass
  simp [ha, hb, heq, ht]


theorem lowKept_tallyEdge (k f : Nat) (t : Int) (a b a' b' : Bool) (s : State) (n : Nat) : LowKept s (tallyEdge k f t a b a' b' s n) :=
  .ite (.ite (.addSat _ _ _ (by dsimp only; omega)) (.ite (.setTally ..) (.refl s))) (.refl s)

theorem lowKept_passLevels (k f at1 : Nat) (a b : Bool) (s : State) : LowKept s (passLevels k f at1 a b s) := by
  unfold passLevels
  dsimp only
  have hset : ∀ x, LowKept s (setEncIn k f x s) := fun _ => .of_eq rfl rfl rfl
  exact (hset _).trans (.foldl (fun u n => lowKept_tallyEdge k f _ _ _ a b u n) _ _)

theorem lowKept_filtersPass (s : State) : LowKept s (filtersPass s) :=
  filtersPass_of (P := LowKept s) (fun _ _ _ _ _ hu => filterPass_of (fun v at1 a b hv => hv.trans (lowKept_passLevels _ _ at1 a b v)) hu)
    (.refl s)

/-- No filter writes what configures a Tally. -/
theorem ctrl_filtersPass (s : State) (m : Nat) : rd (filtersPass s) (TBS_TALLYn_CTRL m) = rd s (TBS_TALLYn_CTRL m) := by
  have hedge : ∀ k f t a b a' b' u n, rd (tallyEdge k f t a b a' b' u n) (TBS_TALLYn_CTRL m) = rd u (TBS_TALLYn_CTRL m) := by
    intro k f t a b a' b' u n
    unfold tallyEdge
    split
    · split
      · exact rd_setFld_other _ _ _ _ (by dsimp only [TBS_TALLYn_CTRL]; omega)
      · split <;> rfl
    · rfl
  refine filtersPass_of (P := fun u => rd u (TBS_TALLYn_CTRL m) = rd s (TBS_TALLYn_CTRL m)) (fun u k f _ _ hu => ?_) rfl
  refine filterPass_of (P := fun u => rd u (TBS_TALLYn_CTRL m) = rd s (TBS_TALLYn_CTRL m)) (fun v at1 a b hv => ?_) hu
  exact (foldl_keeps (fun u => rd u (TBS_TALLYn_CTRL m)) (hedge k f _ _ _ a b) _ _).trans hv

/-- Whether a Tally runs from an input depends on its CTRL alone. -/
theorem onEncoder_of_ctrl {s t : State} {m : Nat} (h : rd t (TBS_TALLYn_CTRL m) = rd s (TBS_TALLYn_CTRL m)) (k f : Nat) :
    onEncoder t k f m = onEncoder s k f m := by
  unfold onEncoder tallySrc flag fld
  dsimp only
  rw [h]

/-! ### EN of a Tally (R52, R55) -/

/-- The word with EN changed is the register with its flag set. -/
theorem wr_ctrl_en (n : Nat) (b : Bool) (s : State) :
    wr s (TBS_TALLYn_CTRL n) (fset (rd s (TBS_TALLYn_CTRL n)) 31 1 (bit b)) = setFlag s (TBS_TALLYn_CTRL.EN n) b := rfl

theorem flag_en_setFlag (n : Nat) (b : Bool) (s : State) : flag (setFlag s (TBS_TALLYn_CTRL.EN n) b) (TBS_TALLYn_CTRL.EN n) = b :=
  flag_setFlag_same _ _ _ rfl (Nat.le_of_ble_eq_true rfl)

theorem exec_tallyEnable_start {s : State} {n : Fin 4} (h : flag s (TBS_TALLYn_CTRL.EN n) = false) :
    exec (.tallyEnable n true) s = .next (settle (tallyStart n (setFlag s (TBS_TALLYn_CTRL.EN n) true))) := by
  change execTallyEnable n true s = _
  rw [execTallyEnable, tallyCtrlWrite, wr_ctrl_en, h, flag_en_setFlag]
  rfl

/-- What a Tally with EN = 1 takes its position from. -/
theorem tallySrc_enabled {s : State} {n : Nat} (h : flag s (TBS_TALLYn_CTRL.EN n) = true) :
    tallySrc s n = if fld s (TBS_TALLYn_CTRL.SRC n) = 3 then 0 else fld s (TBS_TALLYn_CTRL.SRC n) := if_pos h

theorem tallyOf_setFld (s : State) (f : Fld) (v n : Nat) : tallyOf (setFld s f v) n = tallyOf s n :=
  tallyOf_of_tbs (t := setFld s f v) (s := s) rfl n

theorem tallyOf_setFlag (s : State) (f : Fld) (b : Bool) (n : Nat) : tallyOf (setFlag s f b) n = tallyOf s n := tallyOf_setFld ..

theorem tallyOf_setTally_same (n : Nat) (x : TallyRun) (s : State) : tallyOf (setTally n x s) n = x := by
  rw [tallyOf_setTally, if_pos rfl]

theorem tallyOf_settle (s : State) (n : Nat) : tallyOf (settle s) n = tallyOf s n := tallyOf_of_tbs (by simp) n

theorem tallyStart_results {s : State} {n : Fin 4} (h : flag s (TBS_TALLYn_CTRL.EN n) = false) : ∃ t, exec (.tallyEnable n true) s = .next t ∧
      flag t (TBS_TALLYn_CTRL.EN n) = true ∧ (tallyOf t n).pos = (tallyOf s n).pos ∧ (tallyOf t n).vel = 0 ∧ (tallyOf t n).counts = [] ∧
      fld t (TBS_TALLYn_STATUS.STATE n) = (if fld s (TBS_TALLYn_CTRL.SRC n) = 1 then 1 else if fld s (TBS_TALLYn_CTRL.SRC n) = 2 then 4 else 0) ∧
      ∀ m, m ≠ n.val → tallyOf t m = tallyOf s m := by
  generalize hu : setFlag s (TBS_TALLYn_CTRL.EN n) true = u
  have hkept : ∀ m, tallyOf u m = tallyOf s m := fun m => hu ▸ tallyOf_setFlag ..
  have hen : flag u (TBS_TALLYn_CTRL.EN n) = true := hu ▸ flag_en_setFlag n true s
  have hsrc : fld u (TBS_TALLYn_CTRL.SRC n) = fld s (TBS_TALLYn_CTRL.SRC n) :=
    hu ▸ fld_setFlag_apart (by dsimp only [Apart]; omega) s true
  refine ⟨_, hu ▸ exec_tallyEnable_start h, ?_, ?_, ?_, ?_, ?_, fun m hm => ?_⟩
  · rw [flag_settle_low _ (by dsimp only; omega), tallyStart, flag_setFld_apart (by dsimp only [Apart]; omega)]
    exact hen
  · rw [tallyOf_settle, tallyStart, tallyOf_setFld, tallyOf_setTally_same, hkept]
  · rw [tallyOf_settle, tallyStart, tallyOf_setFld, tallyOf_setTally_same]
  · rw [tallyOf_settle, tallyStart, tallyOf_setFld, tallyOf_setTally_same]
  · rw [fld_settle_low _ (by dsimp only; omega), tallyStart, tallySrc_enabled hen, hsrc]
    generalize fld s (TBS_TALLYn_CTRL.SRC n) = c
    rw [fld_setFld_same _ _ _ (Nat.le_of_ble_eq_true rfl)]
    by_cases h3 : c = 3
    · subst h3
      rfl
    · rw [if_neg h3]
      refine Nat.mod_eq_of_lt (b := 8) ?_
      split
      · decide
      · split <;> decide
  · rw [tallyOf_settle, tallyStart, tallyOf_setFld, tallyOf_setTally, if_neg hm, hkept]

/-- The position that a Tally holds when it stops. -/
def heldPos (s : State) (n : Nat) : Int := divHalfEven (tallyExact s n (now s) (now s)).1 (tallyExact s n (now s) (now s)).2

theorem exec_tallyEnable_stop {s : State} {n : Fin 4} (h : flag s (TBS_TALLYn_CTRL.EN n) = true) : exec (.tallyEnable n false) s =
    .next (settle (setFld (tallyStop n (heldPos s n) (setFlag s (TBS_TALLYn_CTRL.EN n) false)) (TBS_TALLYn_SOURCE.VALID n) 0)) := by
  change execTallyEnable n false s = _
  rw [execTallyEnable, tallyCtrlWrite, wr_ctrl_en, h, flag_en_setFlag]
  rfl

theorem tallyStop_results {s : State} {n : Fin 4} (h : flag s (TBS_TALLYn_CTRL.EN n) = true) : ∃ t, exec (.tallyEnable n false) s = .next t ∧
      flag t (TBS_TALLYn_CTRL.EN n) = false ∧ fld t (TBS_TALLYn_STATUS.STATE n) = 0 ∧ fld t (TBS_TALLYn_SOURCE.VALID n) = 0 ∧
      (tallyOf t n).counts = [] ∧ (tallyOf t n).vel = 0 ∧ ∀ m, m ≠ n.val → tallyOf t m = tallyOf s m := by
  generalize hu : setFlag s (TBS_TALLYn_CTRL.EN n) false = u
  have hkept : ∀ m, tallyOf u m = tallyOf s m := fun m => hu ▸ tallyOf_setFlag ..
  have hen : flag u (TBS_TALLYn_CTRL.EN n) = false := hu ▸ flag_en_setFlag n false s
  refine ⟨_, hu ▸ exec_tallyEnable_stop h, ?_, ?_, ?_, ?_, ?_, fun m hm => ?_⟩
  · rw [flag_settle_low _ (by dsimp only; omega), flag_setFld_apart (by dsimp only [Apart]; omega), tallyStop,
      flag_setFld_apart (by dsimp only [Apart]; omega)]
    exact hen
  · rw [fld_settle_low _ (by dsimp only; omega), fld_setFld_apart (by dsimp only [Apart]; omega), tallyStop,
      fld_setFld_same _ _ _ (Nat.le_of_ble_eq_true rfl)]
    rfl
  · rw [fld_settle_low _ (by dsimp only; omega), fld_setFld_same _ _ _ (Nat.le_of_ble_eq_true rfl)]
    rfl
  · rw [tallyOf_settle, tallyOf_setFld, tallyStop, tallyOf_setFld, tallyOf_setTally_same]
  · rw [tallyOf_settle, tallyOf_setFld, tallyStop, tallyOf_setFld, tallyOf_setTally_same]
  · rw [tallyOf_settle, tallyOf_setFld, tallyStop, tallyOf_setFld, tallyOf_setTally, if_neg hm, hkept]

/-! ### ENCODER_EDGE (R51) -/

/-- The pins of an input take new levels, which have not passed the filter yet. -/
def pinSet (k f : Nat) (a b : Bool) (s : State) : State :=
  setEncIn k f { encIn s k f with rawA := a, rawB := b, atA := if (encIn s k f).rawA = a then (encIn s k f).atA else clk s + 1,
                                  atB := if (encIn s k f).rawB = b then (encIn s k f).atB else clk s + 1 } s

theorem pinLevels_eq (k f : Nat) (a b : Bool) (s : State) : pinLevels k a b s f = filterPass k f (pinSet k f a b (filterPass k f s)) := rfl

theorem encIn_pinSet_same (k f : Nat) (a b : Bool) (s : State) : encIn (pinSet k f a b s) k f = { encIn s k f with
    rawA := a, rawB := b, atA := if (encIn s k f).rawA = a then (encIn s k f).atA else clk s + 1,
    atB := if (encIn s k f).rawB = b then (encIn s k f).atB else clk s + 1 } := encIn_setEncIn_same ..

theorem encIn_pinSet_other {k f g : Nat} (a b : Bool) (s : State) (h : g ≠ f) : encIn (pinSet k f a b s) k g = encIn s k g :=
  encIn_setEncIn_other _ _ (by omega)

/-- What the pins of input `k` give behind its four filters. -/
def pinned (k : Nat) (a b : Bool) (s : State) : State := (List.range 4).foldl (pinLevels k a b) s

theorem exec_encoderEdge {k : Fin 4} {ofs : Nat} {a b : Bool} {s : State} (hawake : awake s = true)
    (hrate : ∀ f < 4, overRate (filtersPass (atOfs ofs s)) (pinned k a b (filtersPass (atOfs ofs s))) k f = false) :
    exec (.encoderEdge k ofs a b) s = .next (settle (pinned k a b (filtersPass (atOfs ofs s)))) := by
  have hany : (List.range 4).any (overRate (filtersPass (atOfs ofs s)) (pinned k a b (filtersPass (atOfs ofs s))) k) = false :=
    List.any_eq_false.mpr fun f hf => by simp [hrate f (List.mem_range.mp hf)]
  change execEncoderEdge k ofs a b s = _
  rw [execEncoderEdge, whileAwake, if_pos hawake]
  dsimp only
  rw [← pinned, hany, if_neg Bool.false_ne_true, done]

/-- An input that has counted nothing more is not over the rate of R403. -/
theorem overRate_of_counted {z t : State} {k f : Nat} (h : (encIn t k f).counted = (encIn z k f).counted) : overRate z t k f = false := by
  unfold overRate
  simp [h]

/-- A level that has just changed passes no filter but the one that passes every pulse. -/
theorem passAt_later {f : Nat} (h : 1 ≤ f) (h' : f < 4) (t : Nat) : t < passAt f t := by
  have hcases : f = 1 ∨ f = 2 ∨ f = 3 := by omega
  obtain rfl | rfl | rfl := hcases <;> simp [passAt, shortestPulse, unitsPerNs]

/-- The levels behind a filter are those of its pins. -/
def InputStill (s : State) (k f : Nat) : Prop := (encIn s k f).rawA = (encIn s k f).a ∧ (encIn s k f).rawB = (encIn s k f).b

theorem pinLevels_late {k f : Nat} {a b : Bool} {s : State} (h : 1 ≤ f) (h' : f < 4) (hs : InputStill s k f) :
    pinLevels k a b s f = pinSet k f a b s := by
  obtain ⟨hA, hB⟩ := hs
  have hclk : clk (pinSet k f a b s) = clk s := rfl
  have hlate := passAt_later h h' (clk s + 1)
  rw [pinLevels_eq, filterPass_still hA hB]
  unfold filterPass
  simp only [encIn_pinSet_same, hclk, hA, hB]
  by_cases ha : (encIn s k f).a = a
  · by_cases hb : (encIn s k f).b = b
    · simp [ha, hb]
    · simp [ha, hb, hlate]
  · by_cases hb : (encIn s k f).b = b
    · simp [ha, hb, hlate]
    · have hno : ¬ passAt f (clk s + 1) ≤ clk s + 1 := by omega
      simp [ha, hb, hno]

/-- A change of levels passes the filter of strength 0 at once. -/
theorem pinLevels_now {k : Nat} {a b : Bool} {s : State} (hs : InputStill s k 0) (hchange : (encIn s k 0).a ≠ a ∨ (encIn s k 0).b ≠ b) :
    pinLevels k a b s 0 = passLevels k 0 (clk s + 1) a b (pinSet k 0 a b s) := by
  obtain ⟨hA, hB⟩ := hs
  have hclk : clk (pinSet k 0 a b s) = clk s := rfl
  have hpass : ∀ t, passAt 0 t = t := fun t => by simp [passAt, shortestPulse]
  have hin := encIn_pinSet_same k 0 a b s
  rw [pinLevels_eq, filterPass_still hA hB]
  rw [hA, hB] at hin
  by_cases ha : (encIn s k 0).a = a
  · have hb : (encIn s k 0).b ≠ b := hchange.resolve_left (not_not.mpr ha)
    rw [filterPass_levelB (by simp [hin, ha]) (by simp [hin, hb.symm]) (by simp [hin, hb, hpass, hclk])]
    simp [hin, ha, hb, hpass]
  · by_cases hb : (encIn s k 0).b = b
    · rw [filterPass_levelA (by simp [hin, Ne.symm ha]) (by simp [hin, hb]) (by simp [hin, ha, hpass, hclk])]
      simp [hin, ha, hb, hpass]
    · rw [filterPass_both (by simp [hin, Ne.symm ha]) (by simp [hin, Ne.symm hb]) (by simp [hin, ha, hb]) (by simp [hin, ha, hpass, hclk])]
      simp [hin, ha, hpass]

/-- With nothing on its way an edge passes filter 0, and waits behind the other three. -/
theorem pinned_still {k : Nat} {a b : Bool} {s : State} (hs : ∀ f, InputStill s k f) (hchange : (encIn s k 0).a ≠ a ∨ (encIn s k 0).b ≠ b) :
    pinned k a b s = pinSet k 3 a b (pinSet k 2 a b (pinSet k 1 a b (passLevels k 0 (clk s + 1) a b (pinSet k 0 a b s)))) := by
  have hkeep : ∀ f, f ≠ 0 → encIn (passLevels k 0 (clk s + 1) a b (pinSet k 0 a b s)) k f = encIn s k f := fun f hf => by
    rw [encIn_passLevels_other _ _ _ _ (by omega), encIn_pinSet_other _ _ _ hf]
  have hrange : List.range 4 = [0, 1, 2, 3] := rfl
  rw [pinned, hrange]
  simp only [List.foldl_cons, List.foldl_nil]
  rw [pinLevels_now (hs 0) hchange]
  generalize hu : passLevels k 0 (clk s + 1) a b (pinSet k 0 a b s) = u at hkeep ⊢
  have hstill : ∀ v f, f ≠ 0 → encIn v k f = encIn u k f → InputStill v k f := fun v f hf hv => by
    rw [InputStill, hv, hkeep f hf]
    exact hs f
  rw [pinLevels_late (by decide) (by decide) (hstill u 1 (by decide) rfl)]
  rw [pinLevels_late (by decide) (by decide) (hstill _ 2 (by decide) (encIn_pinSet_other _ _ _ (by decide)))]
  rw [pinLevels_late (by decide) (by decide) (hstill _ 3 (by decide)
    ((encIn_pinSet_other _ _ _ (by decide)).trans (encIn_pinSet_other _ _ _ (by decide))))]


theorem still_atOfs {s : State} (hs : ∀ k f, InputStill s k f) (ofs : Nat) : filtersPass (atOfs ofs s) = atOfs ofs s :=
  filtersPass_of (P := fun u => u = atOfs ofs s) (fun u k f _ _ hu => by
    rw [hu]
    exact filterPass_still (hs k f).1 (hs k f).2) rfl

/-- Of the four filters that an edge reaches, only filter 0 has counted. -/
theorem counted_pinned {k : Nat} {a b : Bool} {s : State} (hs : ∀ f, InputStill s k f) (hchange : (encIn s k 0).a ≠ a ∨ (encIn s k 0).b ≠ b)
    {f : Nat} (hf : 1 ≤ f) (hf' : f < 4) : (encIn (pinned k a b s) k f).counted = (encIn s k f).counted := by
  have hset : ∀ g u, (encIn (pinSet k g a b u) k f).counted = (encIn u k f).counted := fun g u => by
    by_cases hg : f = g
    · rw [hg, encIn_pinSet_same]
    · rw [encIn_pinSet_other a b u hg]
  rw [pinned_still hs hchange, hset, hset, hset, encIn_passLevels_other _ _ _ _ (by omega), hset]

/-- What passes filter 0 is behind it, and counts where one level has changed. -/
theorem encIn_pinned {k : Nat} {a b : Bool} {s : State} (hs : ∀ f, InputStill s k f) (hchange : (encIn s k 0).a ≠ a ∨ (encIn s k 0).b ≠ b) :
    (encIn (pinned k a b s) k 0).a = a ∧ (encIn (pinned k a b s) k 0).b = b ∧ (encIn (pinned k a b s) k 0).counted =
      if ((encIn s k 0).a != a) != ((encIn s k 0).b != b) then ((clk s + 1) :: (encIn s k 0).counted).take 4 else (encIn s k 0).counted := by
  have hlater : ∀ g u, g ≠ 0 → encIn (pinSet k g a b u) k 0 = encIn u k 0 := fun g u hg => encIn_pinSet_other a b u hg.symm
  rw [pinned_still hs hchange, hlater 3 _ (by decide), hlater 2 _ (by decide), hlater 1 _ (by decide), encIn_passLevels_same, encIn_pinSet_same]
  exact ⟨rfl, rfl, rfl⟩

/-- The edge as Tally `n` sees it behind filter 0. -/
theorem tally_pinned {k n : Nat} {a b : Bool} {s : State} (hn : n < 4) (hs : ∀ f, InputStill s k f)
    (hchange : (encIn s k 0).a ≠ a ∨ (encIn s k 0).b ≠ b) :
    TallyKept n (tallyEdge k 0 (now s) (encIn s k 0).a (encIn s k 0).b a b s n) (pinned k a b s) := by
  have hset : ∀ g u, TallyKept n u (pinSet k g a b u) := fun g u => .setEncIn ..
  have hedge := passLevels_tallyEdge hn k 0 (clk s + 1) a b (pinSet k 0 a b s)
  have hnow : ((now (pinSet k 0 a b s) : Int) - ((clk (pinSet k 0 a b s) + 1 - (clk s + 1) : Nat) : Int)) = now s := by
    have h1 : now (pinSet k 0 a b s) = now s := rfl
    have h2 : clk (pinSet k 0 a b s) = clk s := rfl
    rw [h1, h2, Nat.sub_self]
    exact Int.sub_zero _
  rw [hnow, encIn_pinSet_same] at hedge
  rw [pinned_still hs hchange]
  exact ((((hset 0 s).tallyEdge_congr ..).trans hedge).trans (hset 1 _)).trans ((hset 2 _).trans (hset 3 _))

/-- An edge that counts where fewer than four counts stand within 400 ns is not misuse. -/
theorem overRate_pinned {k : Nat} {a b : Bool} {s : State} (hs : ∀ f, InputStill s k f) (hchange : (encIn s k 0).a ≠ a ∨ (encIn s k 0).b ≠ b)
    (hrate : ((encIn s k 0).a != a) != ((encIn s k 0).b != b) → (encIn s k 0).counted.length ≠ 4 ∨
      (encIn s k 0).counted.getLast?.getD 0 + 400 * 65536 ≤ clk s + 1) {f : Nat} (hf : f < 4) : overRate s (pinned k a b s) k f = false := by
  by_cases hzero : f = 0
  · subst hzero
    obtain ⟨-, -, hcounted⟩ := encIn_pinned hs hchange
    by_cases hone : ((encIn s k 0).a != a) != ((encIn s k 0).b != b)
    · rw [if_pos hone] at hcounted
      unfold overRate
      dsimp only
      rw [hcounted]
      obtain hlen | hlast := hrate hone
      · simp [hlen]
      · have hno : ¬ clk s + 1 < (encIn s k 0).counted.getLast?.getD 0 + 400 * unitsPerNs := by
          unfold unitsPerNs
          omega
        simp [hno]
    · rw [if_neg hone] at hcounted
      exact overRate_of_counted hcounted
  · exact overRate_of_counted (counted_pinned hs hchange (by omega) hf)

theorem still_of_atOfs {s : State} {k : Nat} (hs : ∀ k f, InputStill s k f) (ofs f : Nat) : InputStill (atOfs ofs s) k f := hs k f

/-- An edge with nothing on its way behind the filters of its input. -/
theorem encoderEdge_next {s : State} {k : Fin 4} {a b : Bool} (ofs : Nat) (hawake : awake s = true) (hs : ∀ j f, InputStill s j f)
    (hchange : (encIn s k 0).a ≠ a ∨ (encIn s k 0).b ≠ b)
    (hrate : ((encIn s k 0).a != a) != ((encIn s k 0).b != b) → (encIn s k 0).counted.length ≠ 4 ∨
      (encIn s k 0).counted.getLast?.getD 0 + 400 * 65536 ≤ clk (atOfs ofs s) + 1) :
    exec (.encoderEdge k ofs a b) s = .next (settle (pinned k a b (atOfs ofs s))) := by
  have hexec := exec_encoderEdge (k := k) (ofs := ofs) (a := a) (b := b) hawake
  rw [still_atOfs hs] at hexec
  exact hexec fun f hf => overRate_pinned (s := atOfs ofs s) (fun g => hs k g) hchange hrate hf

theorem encIn_settle (s : State) (k f : Nat) : encIn (settle s) k f = encIn s k f := encIn_of_enc (by simp) k f

/-- The clause of O15 about an edge that counts. -/
theorem edge_counts {s : State} {k n : Fin 4} (ofs : Nat) {a b : Bool} (hawake : awake s = true) (hon : onEncoder s k 0 n = true)
    (hs : ∀ j f, InputStill s j f) (hone : ((encIn s k 0).a != a) = !((encIn s k 0).b != b))
    (hrate : (encIn s k 0).counted.length ≠ 4 ∨ (encIn s k 0).counted.getLast?.getD 0 + 400 * 65536 ≤ clk (atOfs ofs s) + 1) :
    ∃ t, exec (.encoderEdge k ofs a b) s = .next t ∧ (encIn t k 0).a = a ∧ (encIn t k 0).b = b ∧
      (tallyOf t n).te = now t ∧ (tallyOf t n).pos = (tallyOf s n).pos +
        (if edgeForward (encIn s k 0).a (encIn s k 0).b a b = flag s (TBS_TALLYn_CTRL.INVERT n)
          then -((rd s (TBS_TALLYn_SCALE n)).toNat : Int) else (rd s (TBS_TALLYn_SCALE n)).toNat) := by
  have hchange : (encIn s k 0).a ≠ a ∨ (encIn s k 0).b ≠ b := by
    by_cases hb : (encIn s k 0).b = b
    · exact .inl (by simpa [hb] using hone)
    · exact .inr hb
  have hin : encIn (atOfs ofs s) k 0 = encIn s k 0 := rfl
  have hkept := tally_pinned (a := a) (b := b) n.isLt (fun f => still_of_atOfs hs ofs f) (by rw [hin]; exact hchange)
  obtain ⟨ha, hb, -⟩ := encIn_pinned (fun f => still_of_atOfs hs ofs f) (by rw [hin]; exact hchange)
  rw [hin, tallyEdge_counts (s := atOfs ofs s) hon _ hone] at hkept
  obtain ⟨hte, hpos⟩ := tallyOf_countEdge n (now (atOfs ofs s)) (edgeForward (encIn s k 0).a (encIn s k 0).b a b) (atOfs ofs s)
  refine ⟨_, encoderEdge_next ofs hawake hs hchange fun _ => hrate, by rw [encIn_settle, ha], by rw [encIn_settle, hb], ?_, ?_⟩
  · rw [tallyOf_settle, hkept.tally, hte, now_settle, hkept.now]
    rfl
  · rw [tallyOf_settle, hkept.tally, hpos]
    rfl

/-- The clause of O15 about a transition that is illegal. -/
theorem edge_illegal {s : State} {k n : Fin 4} (ofs : Nat) {a b : Bool} (hawake : awake s = true) (hon : onEncoder s k 0 n = true)
    (herr : fld s (TBS_TALLYn_STATUS.ENC_ERR n) < 65535) (hs : ∀ j f, InputStill s j f) (ha : (encIn s k 0).a ≠ a) (hb : (encIn s k 0).b ≠ b) :
    ∃ t, exec (.encoderEdge k ofs a b) s = .next t ∧ tallyOf t n = tallyOf s n ∧
      fld t (TBS_TALLYn_STATUS.ENC_ERR n) = fld s (TBS_TALLYn_STATUS.ENC_ERR n) + 1 := by
  have hin : encIn (atOfs ofs s) k 0 = encIn s k 0 := rfl
  have hkept := tally_pinned (a := a) (b := b) n.isLt (fun f => still_of_atOfs hs ofs f) (by rw [hin]; exact .inl ha)
  rw [hin, tallyEdge_errs (s := atOfs ofs s) hon _ ha hb] at hkept
  refine ⟨_, encoderEdge_next ofs hawake hs (.inl ha) fun hone => ?_, ?_, ?_⟩
  · rw [bne_iff_ne.mpr ha, bne_iff_ne.mpr hb] at hone
    exact absurd hone (by decide)
  · rw [tallyOf_settle, hkept.tally, addSat, tallyOf_setFld]
    rfl
  · rw [fld_settle_low _ (by dsimp only; omega), hkept.fld (ofTally_encErr n), fld_addSat_same _ _ _ (Nat.le_of_ble_eq_true rfl)]
    exact if_pos (Nat.succ_lt_succ herr)

/-! ### A pulse that a filter rejects (R51) -/

/-- Nothing has reached Tally `n`, nor input `k` behind filter `f`. -/
structure InputKept (n k f : Nat) (s t : State) : Prop where
  tally : TallyKept n s t
  input : encIn t k f = encIn s k f

/-- A Tally runs from one input behind one filter. -/
theorem onEncoder_unique {s : State} {k f j g n : Nat} (h : onEncoder s k f n = true) (hne : j ≠ k ∨ g ≠ f) : onEncoder s j g n = false := by
  unfold onEncoder at *
  simp only [Bool.and_eq_true, decide_eq_true_eq] at h
  obtain ⟨⟨-, hk⟩, hf⟩ := h
  rw [hk, hf]
  obtain hne | hne := hne
  · simp [Ne.symm hne]
  · simp [Ne.symm hne]

/-- What passes another filter does not reach them. -/
theorem InputKept.filterPass_other {n k f j g : Nat} {s u : State} (hon : onEncoder s k f n = true) (hf : f < 4) (hg : g < 4)
    (hne : j ≠ k ∨ g ≠ f) (hu : InputKept n k f s u) : InputKept n k f s (filterPass j g u) := by
  refine filterPass_of (P := InputKept n k f s) (fun v at1 a b hv => ⟨?_, ?_⟩) hu
  · unfold passLevels
    dsimp only
    refine List.foldlRecOn (motive := TallyKept n s) _ _ (hv.tally.trans (.setEncIn ..)) fun w hw m _ => ?_
    by_cases hm : m = n
    · subst hm
      have hoff : onEncoder w j g m = false := by rw [hw.onEncoder, onEncoder_unique hon hne]
      unfold tallyEdge
      rw [hoff, if_neg Bool.false_ne_true]
      exact hw
    · exact hw.trans (tallyEdge_other j g _ _ _ a b w hm)
  · rw [encIn_passLevels_other _ _ _ _ (by omega), hv.input]

section
variable {s z : State} {k f n : Nat} {a : Bool}

/-- Until the pulse has stood long enough no filter passes anything to the Tally. -/
theorem InputKept.filtersPass (hon : onEncoder s k f n = true) (hf : f < 4) (hb : (encIn s k f).rawB = (encIn s k f).b)
    (ht : clk s + 1 < passAt f (encIn s k f).atA) : InputKept n k f s (filtersPass s) := by
  refine filtersPass_of (P := InputKept n k f s) (fun u j g _ hg hu => ?_) ⟨.refl n s, rfl⟩
  by_cases hne : j ≠ k ∨ g ≠ f
  · exact hu.filterPass_other hon hf hg hne
  · obtain ⟨rfl, rfl⟩ : j = k ∧ g = f := by omega
    rw [filterPass_early (by rw [hu.input, hb]) (by rw [hu.input, hu.tally.clk]; exact ht)]
    exact hu

/-- The end of the pulse: the level at the pin is again that behind the filter. -/
theorem pinLevels_back (hu : InputKept n k f z s) (ha : (encIn z k f).a = a) (hb : (encIn z k f).rawB = (encIn z k f).b)
    (ht : clk z + 1 < passAt f (encIn z k f).atA) : pinLevels k a (encIn z k f).b s f = pinSet k f a (encIn z k f).b s := by
  rw [pinLevels_eq, filterPass_early (s := s) (by rw [hu.input, hb]) (by rw [hu.input, hu.tally.clk]; exact ht)]
  refine filterPass_still ?_ ?_
  · rw [encIn_pinSet_same, hu.input, ha]
  · rw [encIn_pinSet_same, hu.input]

/-- The levels at the pins of an input behind another filter. -/
theorem InputKept.pinLevels_other {g : Nat} {b : Bool} {u : State} (hon : onEncoder z k f n = true) (hf : f < 4) (hg : g < 4) (hne : g ≠ f)
    (hu : InputKept n k f z u) : InputKept n k f z (pinLevels k a b u g) := by
  rw [pinLevels_eq]
  have hfirst := hu.filterPass_other (j := k) hon hf hg (.inr hne)
  refine InputKept.filterPass_other hon hf hg (.inr hne) ⟨hfirst.tally.trans (.setEncIn ..), ?_⟩
  rw [encIn_pinSet_other a b _ (Ne.symm hne), hfirst.input]

/-- A rejected pulse leaves Tally and count as they were. -/
theorem pinned_back (hon : onEncoder z k f n = true) (hf : f < 4) (ha : (encIn z k f).a = a) (hb : (encIn z k f).rawB = (encIn z k f).b)
    (ht : clk z + 1 < passAt f (encIn z k f).atA) :
    TallyKept n z (pinned k a (encIn z k f).b z) ∧ (encIn (pinned k a (encIn z k f).b z) k f).a = a ∧
      (encIn (pinned k a (encIn z k f).b z) k f).rawA = a ∧ (encIn (pinned k a (encIn z k f).b z) k f).counted = (encIn z k f).counted := by
  refine foldl_own (f := fun u (g : Fin 4) => pinLevels k a (encIn z k f).b u g) (x := ⟨f, hf⟩) (P := InputKept n k f z)
    (Q := fun u => TallyKept n z u ∧ (encIn u k f).a = a ∧ (encIn u k f).rawA = a ∧ (encIn u k f).counted = (encIn z k f).counted)
    ?_ ?_ ?_ (l := List.finRange 4) (List.nodup_finRange 4) (List.mem_finRange _) (s := z) ⟨.refl n z, rfl⟩
  · exact fun u g hg hu => hu.pinLevels_other hon hf g.isLt fun he => hg (Fin.ext he)
  · intro u hu
    rw [pinLevels_back hu ha hb ht, encIn_pinSet_same, hu.input, ha]
    exact ⟨hu.tally.trans (.setEncIn ..), rfl, rfl, rfl⟩
  · intro u g hg hu
    obtain ⟨hkept, hin⟩ := hu
    have hne : g.val ≠ f := fun he => hg (Fin.ext he)
    have hone : onEncoder u k f n = true := by rw [hkept.onEncoder, hon]
    obtain ⟨hlast, hsame⟩ := InputKept.pinLevels_other (a := a) (b := (encIn z k f).b) hone hf g.isLt hne (u := u) ⟨.refl n u, rfl⟩
    rw [hsame]
    exact ⟨hkept.trans hlast, hin⟩

end

/-- The clause of O15 about a pulse shorter than the shortest that passes. -/
theorem pulse_rejected {s : State} {k f n : Fin 4} (ofs : Nat) {a : Bool} (hawake : awake s = true) (hon : onEncoder s k f n = true)
    (hothers : ∀ (m g : Fin 4), g ≠ f → onEncoder s k g m = false) (ha : (encIn s k f).a = a)
    (hb : (encIn s k f).rawB = (encIn s k f).b) (ht : clk (atOfs ofs s) + 1 < passAt f (encIn s k f).atA) :
    ∃ t, exec (.encoderEdge k ofs a (encIn s k f).b) s = .next t ∧ tallyOf t n = tallyOf s n ∧ (encIn t k f).a = a ∧
      (encIn t k f).rawA = a := by
  have hz := InputKept.filtersPass (s := atOfs ofs s) (n := n) hon f.isLt hb ht
  have hctrl : ∀ m, rd (filtersPass (atOfs ofs s)) (TBS_TALLYn_CTRL m) = rd s (TBS_TALLYn_CTRL m) := ctrl_filtersPass (atOfs ofs s)
  generalize hzdef : filtersPass (atOfs ofs s) = z at hz hctrl
  have hin : encIn z k f = encIn s k f := hz.input
  have hback := pinned_back (z := z) (a := a) (by rw [onEncoder_of_ctrl (hctrl n), hon]) f.isLt (by rw [hin, ha]) (by rw [hin, hb])
    (by rw [hin, hz.tally.clk]; exact ht)
  rw [hin] at hback
  obtain ⟨hkept, hlevel, hpin, hcounted⟩ := hback
  have hexec := exec_encoderEdge (k := k) (ofs := ofs) (a := a) (b := (encIn s k f).b) hawake
  rw [hzdef] at hexec
  refine ⟨_, hexec fun g hg => ?_, ?_, by rw [encIn_settle, hlevel], by rw [encIn_settle, hpin]⟩
  · by_cases hgf : g = f.val
    · rw [hgf]
      exact overRate_of_counted (by rw [hcounted, hin])
    · have hnone : (List.range 4).any (onEncoder z k g) = false := List.any_eq_false.mpr fun m hm => by
        have hm' := List.mem_range.mp hm
        rw [onEncoder_of_ctrl (hctrl m), hothers ⟨m, hm'⟩ ⟨g, hg⟩ fun he => hgf (congrArg Fin.val he)]
        exact Bool.false_ne_true
      unfold overRate
      rw [hnone]
      simp
  · rw [tallyOf_settle, hkept.tally, hz.tally.tally]
    rfl

/-- The clause of O15 about a level that has stood long enough. -/
theorem level_passes {s : State} {k f n : Fin 4} (hon : onEncoder s k f n = true) (ha : (encIn s k f).rawA ≠ (encIn s k f).a)
    (hb : (encIn s k f).rawB = (encIn s k f).b) (ht : passAt f (encIn s k f).atA ≤ clk s + 1) :
    (encIn (filterPass k f s) k f).a = (encIn s k f).rawA ∧ (tallyOf (filterPass k f s) n).pos = (tallyOf s n).pos +
      (if edgeForward (encIn s k f).a (encIn s k f).b (encIn s k f).rawA (encIn s k f).rawB = flag s (TBS_TALLYn_CTRL.INVERT n)
        then -((rd s (TBS_TALLYn_SCALE n)).toNat : Int) else (rd s (TBS_TALLYn_SCALE n)).toNat) := by
  have hkept := passLevels_tallyEdge n.isLt k f (passAt f (encIn s k f).atA) (encIn s k f).rawA (encIn s k f).b s
  rw [tallyEdge_counts hon _ (by simp [ha.symm])] at hkept
  obtain ⟨-, hpos⟩ := tallyOf_countEdge n (now s - ((clk s + 1 - passAt f (encIn s k f).atA : Nat) : Int))
    (edgeForward (encIn s k f).a (encIn s k f).b (encIn s k f).rawA (encIn s k f).b) s
  rw [filterPass_levelA ha hb ht, encIn_passLevels_same, hkept.tally, hpos, hb]
  exact ⟨rfl, rfl⟩

/-! ### A Z edge (R57) -/

theorem ofTally_zMode (n : Nat) : OfTally n (TBS_TALLYn_CTRL.Z_MODE n) := by
  dsimp only [OfTally]
  omega

theorem ofTally_zSeen (n : Nat) : OfTally n (TBS_TALLYn_STATUS.Z_SEEN n) := by
  dsimp only [OfTally]
  omega

/-- The position latched at a Z edge, with its event. -/
def zLatched (n : Nat) (s : State) : State :=
  raise 134 (setFlag (wrPair s (TBS_TALLYn_ZLATCH_LO n) (TBS_TALLYn_ZLATCH_HI n) (unsignedOf 48 (tallyAt s n (now s) (now s))))
    (TBS_TALLYn_STATUS.Z_SEEN n) true)

/-- A preset that Z arms. -/
def zArmed (n m : Nat) (s : State) : State :=
  if 2 ≤ m then setTally n { tallyOf s n with presetDue := some (tick s) } s else s

theorem tallyZ1_runs {k f n : Nat} {s : State} (hon : onEncoder s k f n = true) (hm : fld s (TBS_TALLYn_CTRL.Z_MODE n) ≠ 0) :
    tallyZ1 k f s n = if fld s (TBS_TALLYn_CTRL.Z_MODE n) = 3 then
      setFld (zArmed n (fld s (TBS_TALLYn_CTRL.Z_MODE n)) (zLatched n s)) (TBS_TALLYn_CTRL.Z_MODE n) 1
    else zArmed n (fld s (TBS_TALLYn_CTRL.Z_MODE n)) (zLatched n s) := by
  unfold tallyZ1
  dsimp only
  rw [if_pos (by rw [hon, decide_eq_true hm]; rfl)]
  rfl

theorem tallyZ1_skips {k f n : Nat} {s : State} (h : onEncoder s k f n = false ∨ fld s (TBS_TALLYn_CTRL.Z_MODE n) = 0) :
    tallyZ1 k f s n = s := by
  unfold tallyZ1
  obtain h | h := h
  · simp [h]
  · simp [h]

theorem TallyKept.wr_other {n a : Nat} (w : Word) (s : State) (h : a < 0xA0050100 + n * 64 ∨ 0xA0050140 + n * 64 ≤ a) :
    TallyKept n s (wr s a w) :=
  ⟨rfl, fun b hb hb' => rd_wr_other s w (by omega), rfl, rfl, rfl, rfl, fun _ he => he⟩

theorem zLatched_other {n m : Nat} (s : State) (h : m ≠ n) : TallyKept n s (zLatched m s) := by
  have hlo := TallyKept.wr_other (n := n) (a := TBS_TALLYn_ZLATCH_LO m) (lo32 (unsignedOf 48 (tallyAt s m (now s) (now s)))) s
    (by dsimp only [TBS_TALLYn_ZLATCH_LO]; omega)
  refine ((hlo.trans (.wr_other _ _ ?_)).trans (.setFld_other _ _ (not_ofTally h (ofTally_zSeen m)))).trans (.raise ..)
  dsimp only [TBS_TALLYn_ZLATCH_HI]
  omega

theorem tallyZ1_other {n m : Nat} (k f : Nat) (s : State) (h : m ≠ n) : TallyKept n s (tallyZ1 k f s m) := by
  by_cases hskip : onEncoder s k f m = false ∨ fld s (TBS_TALLYn_CTRL.Z_MODE m) = 0
  · rw [tallyZ1_skips hskip]
    exact .refl n s
  · rw [not_or, Bool.not_eq_false] at hskip
    have harmed : TallyKept n s (zArmed m (fld s (TBS_TALLYn_CTRL.Z_MODE m)) (zLatched m s)) := by
      unfold zArmed
      split
      · exact (zLatched_other s h).trans (.setTally_other _ _ h)
      · exact zLatched_other s h
    rw [tallyZ1_runs hskip.1 hskip.2]
    split
    · exact harmed.trans (.setFld_other _ _ (not_ofTally h (ofTally_zMode m)))
    · exact harmed

theorem TallyKept.zLatched_congr {n : Nat} {s u : State} (h : TallyKept n s u) : TallyKept n (zLatched n s) (zLatched n u) := by
  unfold zLatched
  rw [h.tallyAt, h.now]
  exact ((TallyKept.wr_congr (h.wr_congr ..) ..).setFld_congr (ofTally_zSeen n) _).raise_congr 134

theorem TallyKept.zArmed_congr {n : Nat} {s u : State} (h : TallyKept n s u) (m : Nat) : TallyKept n (zArmed n m s) (zArmed n m u) := by
  unfold zArmed
  rw [h.tally, h.tick]
  split
  · exact h.setTally_congr _
  · exact h

theorem TallyKept.tallyZ1_congr {n : Nat} {s u : State} (h : TallyKept n s u) (k f : Nat) : TallyKept n (tallyZ1 k f s n) (tallyZ1 k f u n) := by
  have hmode := h.fld (ofTally_zMode n)
  have hon := h.onEncoder k f
  by_cases hskip : Machine.onEncoder s k f n = false ∨ Machine.fld s (TBS_TALLYn_CTRL.Z_MODE n) = 0
  · rw [tallyZ1_skips hskip, tallyZ1_skips (by rw [hmode, hon]; exact hskip)]
    exact h
  · rw [not_or, Bool.not_eq_false] at hskip
    rw [tallyZ1_runs hskip.1 hskip.2, tallyZ1_runs (hon.trans hskip.1) (by rw [hmode]; exact hskip.2), hmode]
    split
    · exact (h.zLatched_congr.zArmed_congr _).setFld_congr (ofTally_zMode n) _
    · exact h.zLatched_congr.zArmed_congr _


theorem lowKept_tallyZ1 (k f : Nat) (s : State) (n : Nat) : LowKept s (tallyZ1 k f s n) := by
  have hlatched : LowKept s (zLatched n s) :=
    (((LowKept.wr s _ (by dsimp only [TBS_TALLYn_ZLATCH_LO]; omega)).trans (.wr _ _ (by dsimp only [TBS_TALLYn_ZLATCH_HI]; omega))).trans
      (.setFlag _ _ _ (by dsimp only; omega))).trans (.raise 134 _)
  have harmed : ∀ m, LowKept s (zArmed n m (zLatched n s)) := fun m => hlatched.trans (.ite (.setTally ..) (.refl _))
  unfold tallyZ1
  exact .ite (.ite ((harmed _).trans (.setFld _ _ _ (by dsimp only; omega))) (harmed _)) (.refl s)

theorem fld_zArmed (n m : Nat) (s : State) (f : Fld) : fld (zArmed n m s) f = fld s f := by
  unfold zArmed
  split <;> rfl

theorem rd_zArmed (n m : Nat) (s : State) (a : Nat) : rd (zArmed n m s) a = rd s a := by
  unfold zArmed
  split <;> rfl

theorem pos_zArmed (n m : Nat) (s : State) : (tallyOf (zArmed n m s) n).pos = (tallyOf s n).pos := by
  unfold zArmed
  split
  · rw [tallyOf_setTally_same]
  · rfl

theorem raised_zArmed (n m : Nat) (s : State) : (zArmed n m s).fab.raised = s.fab.raised := by
  unfold zArmed
  split <;> rfl

/-- A pair of registers holds a number of 64 bits. -/
theorem lo32_hi32 {p : Nat} (h : p < 2 ^ 64) : (lo32 p).toNat + 2 ^ 32 * (hi32 p).toNat = p := by
  unfold lo32 hi32
  simp only [BitVec.toNat_ofNat]
  omega

theorem zLatched_results (n : Nat) (s : State) : flag (zLatched n s) (TBS_TALLYn_STATUS.Z_SEEN n) = true ∧
    rd (zLatched n s) (TBS_TALLYn_ZLATCH_LO n) = lo32 (unsignedOf 48 (tallyAt s n (now s) (now s))) ∧
    rd (zLatched n s) (TBS_TALLYn_ZLATCH_HI n) = hi32 (unsignedOf 48 (tallyAt s n (now s) (now s))) ∧
    fld (zLatched n s) (TBS_TALLYn_CTRL.Z_MODE n) = fld s (TBS_TALLYn_CTRL.Z_MODE n) ∧ tallyOf (zLatched n s) n = tallyOf s n ∧
    134 ∈ (zLatched n s).fab.raised := by
  unfold zLatched
  generalize unsignedOf 48 (tallyAt s n (now s) (now s)) = p
  refine ⟨?_, ?_, ?_, ?_, ?_, mem_raise 134 _⟩
  · simp only [raise_frame]
    exact flag_setFlag_same _ _ _ rfl (Nat.le_of_ble_eq_true rfl)
  · simp only [raise_frame]
    rw [setFlag, rd_setFld_other _ _ _ _ (by dsimp only [TBS_TALLYn_ZLATCH_LO]; omega), wrPair,
      rd_wr_other _ _ (by dsimp only [TBS_TALLYn_ZLATCH_LO, TBS_TALLYn_ZLATCH_HI]; omega), rd_wr_same]
  · simp only [raise_frame]
    rw [setFlag, rd_setFld_other _ _ _ _ (by dsimp only [TBS_TALLYn_ZLATCH_HI]; omega), wrPair, rd_wr_same]
  · simp only [raise_frame]
    rw [fld_setFlag_apart (by dsimp only [Apart]; omega), fld, wrPair, rd_wr_other _ _ (by dsimp only [TBS_TALLYn_ZLATCH_HI]; omega),
      rd_wr_other _ _ (by dsimp only [TBS_TALLYn_ZLATCH_LO]; omega), ← fld]
  · rw [(TallyKept.raise (n := n) 134 _).tally, tallyOf_setFlag]
    exact tallyOf_of_tbs rfl n

/-- What a Z edge leaves of Tally `n`: its position latched and shown, its mode, and its event. -/
theorem tallyZ1_results {k f n : Nat} {s : State} (hon : onEncoder s k f n = true) (hm : fld s (TBS_TALLYn_CTRL.Z_MODE n) ≠ 0) :
    flag (tallyZ1 k f s n) (TBS_TALLYn_STATUS.Z_SEEN n) = true ∧
    rd (tallyZ1 k f s n) (TBS_TALLYn_ZLATCH_LO n) = lo32 (unsignedOf 48 (tallyAt s n (now s) (now s))) ∧
    rd (tallyZ1 k f s n) (TBS_TALLYn_ZLATCH_HI n) = hi32 (unsignedOf 48 (tallyAt s n (now s) (now s))) ∧
    fld (tallyZ1 k f s n) (TBS_TALLYn_CTRL.Z_MODE n) =
      (if fld s (TBS_TALLYn_CTRL.Z_MODE n) = 3 then 1 else fld s (TBS_TALLYn_CTRL.Z_MODE n)) ∧
    (tallyOf (tallyZ1 k f s n) n).pos = (tallyOf s n).pos ∧ 134 ∈ (tallyZ1 k f s n).fab.raised := by
  obtain ⟨hseen, hlo, hhi, hmode, htally, hraised⟩ := zLatched_results n s
  rw [tallyZ1_runs hon hm]
  split
  · refine ⟨?_, ?_, ?_, ?_, ?_, ?_⟩
    · rw [flag_setFld_apart (by dsimp only [Apart]; omega), flag, fld_zArmed, ← flag, hseen]
    · rw [rd_setFld_other _ _ _ _ (by dsimp only [TBS_TALLYn_ZLATCH_LO]; omega), rd_zArmed, hlo]
    · rw [rd_setFld_other _ _ _ _ (by dsimp only [TBS_TALLYn_ZLATCH_HI]; omega), rd_zArmed, hhi]
    · exact fld_setFld_same _ _ _ (Nat.le_of_ble_eq_true rfl)
    · rw [tallyOf_setFld, pos_zArmed, htally]
    · have hset : ∀ u f v, (setFld u f v).fab.raised = u.fab.raised := fun _ _ _ => rfl
      rw [hset, raised_zArmed]
      exact hraised
  · refine ⟨?_, ?_, ?_, ?_, ?_, ?_⟩
    · rw [flag, fld_zArmed, ← flag, hseen]
    · rw [rd_zArmed, hlo]
    · rw [rd_zArmed, hhi]
    · rw [fld_zArmed, hmode]
    · rw [pos_zArmed, htally]
    · rw [raised_zArmed]
      exact hraised

/-- The clause of O15 about a Z edge. -/
theorem tallyZ_results {s : State} {k f n : Fin 4} (ofs : Nat) (hawake : awake s = true) (hon : onEncoder s k f n = true)
    (hm : fld s (TBS_TALLYn_CTRL.Z_MODE n) ≠ 0) :
    ∃ z t, z = filtersPass (atOfs ofs s) ∧ exec (.tallyZ ⟨k, f⟩ ofs) s = .next t ∧ Posted 134 s t ∧
      flag t (TBS_TALLYn_STATUS.Z_SEEN n) = true ∧
      rdPair t (TBS_TALLYn_ZLATCH_LO n) (TBS_TALLYn_ZLATCH_HI n) = unsignedOf 48 (tallyAt z n (now z) (now z)) ∧
      fld t (TBS_TALLYn_CTRL.Z_MODE n) = (if fld s (TBS_TALLYn_CTRL.Z_MODE n) = 3 then 1 else fld s (TBS_TALLYn_CTRL.Z_MODE n)) ∧
      (tallyOf t n).pos = (tallyOf z n).pos := by
  have hctrl : rd (filtersPass (atOfs ofs s)) (TBS_TALLYn_CTRL n) = rd s (TBS_TALLYn_CTRL n) := ctrl_filtersPass (atOfs ofs s) n
  have hat : LowKept s (atOfs ofs s) := .of_eq rfl rfl rfl
  have hlow : LowKept s (filtersPass (atOfs ofs s)) := hat.trans (lowKept_filtersPass _)
  have hexec : exec (.tallyZ ⟨k, f⟩ ofs) s = .next (settle ((List.range 4).foldl (tallyZ1 k f) (filtersPass (atOfs ofs s)))) := by
    change execTallyZ ⟨k, f⟩ ofs s = _
    rw [execTallyZ, whileAwake, if_pos hawake, done]
  generalize filtersPass (atOfs ofs s) = z at hctrl hlow hexec
  have hmode : fld z (TBS_TALLYn_CTRL.Z_MODE n) = fld s (TBS_TALLYn_CTRL.Z_MODE n) := by rw [fld, fld, hctrl]
  have hone : onEncoder z k f n = true := by rw [onEncoder_of_ctrl hctrl, hon]
  obtain ⟨hseen, hlo, hhi, hnext, hpos, hraised⟩ := tallyZ1_results hone (by rw [hmode]; exact hm)
  have hkept := TallyKept.foldl n.isLt (fun u m hne => tallyZ1_other k f u hne) (fun u hu => TallyKept.tallyZ1_congr (s := z) hu k f)
  have hposted := (hlow.trans (.foldl (lowKept_tallyZ1 k f) (List.range 4) z)).posted (by decide) (hkept.raised _ hraised)
  rw [hmode] at hnext
  refine ⟨z, _, rfl, hexec, hposted, ?_, ?_, ?_, ?_⟩
  · rw [flag_settle_low _ (by dsimp only; omega), hkept.flag (ofTally_zSeen n), hseen]
  · have hout : ∀ a, a < 0xA00D0000 → OutsideLdg a := fun a ha => outsideLdg_of (.inl ha)
    rw [rdPair, rd_settle _ _ (hout _ (by dsimp only [TBS_TALLYn_ZLATCH_LO]; omega)),
      rd_settle _ _ (hout _ (by dsimp only [TBS_TALLYn_ZLATCH_HI]; omega)),
      hkept.regs _ (by dsimp only [TBS_TALLYn_ZLATCH_LO]; omega) (by dsimp only [TBS_TALLYn_ZLATCH_LO]; omega),
      hkept.regs _ (by dsimp only [TBS_TALLYn_ZLATCH_HI]; omega) (by dsimp only [TBS_TALLYn_ZLATCH_HI]; omega), hlo, hhi]
    exact lo32_hi32 ((unsignedOf_lt _ _).trans (by decide))
  · rw [fld_settle_low _ (by dsimp only; omega), hkept.fld (ofTally_zMode n), hnext]
  · rw [tallyOf_settle, hkept.tally, hpos]

/-! ### PRESET (R57, R58) -/

theorem preset_results {s : State} {n : Fin 4} (hp : isPending s (TBS_TALLYn_CMD n) = false) (hen : flag s (TBS_TALLYn_CTRL.EN n) = true) :
    ∃ t, exec (.preset n) s = .next t ∧ isPending t (TBS_TALLYn_CMD n) = true ∧ t.tbs = s.tbs ∧
      t.accepted = tins (tdrop s.accepted (TBS_TALLYn_CMD n)) (TBS_TALLYn_CMD n) ⟨s.bnd, tick s, clk s, 1⟩ := by
  have hexec : exec (.preset n) s = .next (settle (accept (TBS_TALLYn_CMD n) 1 s)) := by
    change execPreset n s = _
    rw [execPreset, hp, if_neg Bool.false_ne_true, if_pos hen, done]
  have hacc : (settle (accept (TBS_TALLYn_CMD n) 1 s)).accepted = (accept (TBS_TALLYn_CMD n) 1 s).accepted := by simp
  have hpend : flag (settle (accept (TBS_TALLYn_CMD n) 1 s)) ⟨TBS_TALLYn_CMD n, 23, 1⟩ = true := by
    rw [flag_settle_low _ (by dsimp only [TBS_TALLYn_CMD]; omega)]
    exact accept_isPending ..
  exact ⟨_, hexec, hpend, by simp [accept], hacc⟩

/-- A Tally steps to `p`: its position at the boundary is `p`. -/
def presetRun (n : Nat) (p t : Int) (s : State) : TallyRun :=
  let q := tallyExact s n t t
  let d := p * 65536 - divHalfEven q.1 q.2
  { tallyOf s n with pos := (tallyOf s n).pos + d, counts := (tallyOf s n).counts.map (fun c => { c with pos := c.pos + d }), atB := p }

theorem tallyOf_stepTallyTo (n : Nat) (p t : Int) (s : State) (m : Nat) :
    tallyOf (stepTallyTo n p t s) m = if m = n then presetRun n p t s else tallyOf s m := by
  unfold stepTallyTo
  dsimp only
  rw [tallyOf_setFlag, ← tallyOf_setTally]
  rfl


/-- The Tally has stepped to PRESET, and a preset that Z had armed is spent. -/
def presetTaken (n : Nat) (s : State) : State :=
  let s1 := stepTallyTo n (presetOf s n) (now s) s
  if zPresetDue s n then setTally n { tallyOf s1 n with presetDue := none } s1 else s1

theorem exec_tallyPresetApply {s : State} {n : Fin 4} (h : zPresetDue s n = true ∨ presetCmdDue s n = true) :
    exec (.tallyPresetApply n) s =
      .next (settle (if presetCmdDue s n then complete (TBS_TALLYn_CMD n) 0 (presetTaken n s) else presetTaken n s)) := by
  change execTallyPresetApply n s = _
  rw [execTallyPresetApply]
  dsimp only
  rw [if_pos (by simpa using h)]
  rfl

theorem flag_step_stepTallyTo (n : Nat) (p t : Int) (s : State) : flag (stepTallyTo n p t s) (TBS_TALLYn_STATUS.STEP n) = true :=
  flag_setFlag_same _ _ _ rfl (Nat.le_of_ble_eq_true rfl)

theorem pacer_stepTallyTo (n : Nat) (p t : Int) (s : State) : (stepTallyTo n p t s).tbs.pacer = s.tbs.pacer := rfl

theorem presetTaken_results (n : Nat) (s : State) : flag (presetTaken n s) (TBS_TALLYn_STATUS.STEP n) = true ∧
    (tallyOf (presetTaken n s) n).atB = presetOf s n ∧ (presetTaken n s).tbs.pacer = s.tbs.pacer ∧
    ∀ m, m ≠ n → tallyOf (presetTaken n s) m = tallyOf s m := by
  have hstep := flag_step_stepTallyTo n (presetOf s n) (now s) s
  have hpacer := pacer_stepTallyTo n (presetOf s n) (now s) s
  have htally := tallyOf_stepTallyTo n (presetOf s n) (now s) s
  unfold presetTaken
  generalize stepTallyTo n (presetOf s n) (now s) s = u at hstep hpacer htally
  dsimp only
  split
  · refine ⟨hstep, ?_, hpacer, fun m hm => ?_⟩
    · rw [tallyOf_setTally_same, htally, if_pos rfl]
      rfl
    · rw [tallyOf_setTally, if_neg hm, htally, if_neg hm]
  · refine ⟨hstep, ?_, hpacer, fun m hm => ?_⟩
    · rw [htally, if_pos rfl]
      rfl
    · rw [htally, if_neg hm]

/-- The clause of O15 about the boundary at which PRESET acts. -/
theorem presetApply_results {s : State} {n : Fin 4} (h : zPresetDue s n = true ∨ presetCmdDue s n = true) :
    ∃ t, exec (.tallyPresetApply n) s = .next t ∧
      flag t (TBS_TALLYn_STATUS.STEP n) = true ∧ (tallyOf t n).atB = presetOf s n ∧ now t = now s ∧
      (presetCmdDue s n = true → isPending t (TBS_TALLYn_CMD n) = false ∧ fld t (TBS_TALLYn_CMD.STATUS n) = 0) ∧
      ∀ m, m ≠ n.val → tallyOf t m = tallyOf s m := by
  have hexec := exec_tallyPresetApply h
  obtain ⟨hstep, hpos, hpacer, hothers⟩ := presetTaken_results n s
  generalize presetTaken n s = u at hexec hstep hpos hpacer hothers
  by_cases hcmd : presetCmdDue s n = true
  · rw [if_pos hcmd] at hexec
    have htbs : (settle (complete (TBS_TALLYn_CMD n) 0 u)).tbs = u.tbs := by simp [tbs_complete]
    obtain ⟨hstatus, hpend⟩ := ends_settle_complete (a := TBS_TALLYn_CMD n) u (by dsimp only [TBS_TALLYn_CMD]; omega)
    refine ⟨_, hexec, ?_, by rw [tallyOf_of_tbs htbs, hpos], by rw [now_of_tbs htbs, now, hpacer, now], fun _ => ⟨hpend, hstatus⟩,
      fun m hm => by rw [tallyOf_of_tbs htbs, hothers m hm]⟩
    rw [flag, fld_settle_complete_low u (by dsimp only [TBS_TALLYn_CMD]; omega) (by dsimp only; omega), ← flag, hstep]
  · rw [if_neg hcmd] at hexec
    refine ⟨_, hexec, ?_, by rw [tallyOf_settle, hpos], by rw [now_settle, now, hpacer, now], fun hc => absurd hc hcmd,
      fun m hm => by rw [tallyOf_settle, hothers m hm]⟩
    rw [flag_settle_low _ (by dsimp only; omega), hstep]

/-- Settles O15, clause by clause: EN, an edge that counts, an illegal one, a pulse that is rejected, a level that passes, a Z edge, and
PRESET. -/
theorem encoderTally : Obligations.EncoderTally :=
  ⟨fun _ _ h => tallyStart_results h, fun _ _ h => tallyStop_results h,
    fun _ _ _ ofs _ _ hawake hon hs hone hrate => edge_counts ofs hawake hon hs hone hrate,
    fun _ _ _ ofs _ _ hawake hon herr hs ha hb => edge_illegal ofs hawake hon herr hs ha hb,
    fun _ _ _ _ ofs _ hawake hon hothers ha _ hb ht => pulse_rejected ofs hawake hon hothers ha hb ht,
    fun _ _ _ _ hon ha hb ht => level_passes hon ha hb ht,
    fun _ _ _ _ ofs hawake hon hm => tallyZ_results ofs hawake hon hm,
    fun _ _ hp hen => preset_results hp hen, fun _ _ h => presetApply_results h⟩

end Sys2Proof.Machine

namespace Sys2Proof.Machine
open Sys2Proof

/-! ### Broadcasts (R54, R55) -/

theorem ofTally_foreign (n : Nat) : OfTally n (TBS_TALLYn_STATUS.FOREIGN n) := by
  dsimp only [OfTally]
  omega

theorem ofTally_state (n : Nat) : OfTally n (TBS_TALLYn_STATUS.STATE n) := by
  dsimp only [OfTally]
  omega

theorem ofTally_valid (n : Nat) : OfTally n (TBS_TALLYn_SOURCE.VALID n) := by
  dsimp only [OfTally]
  omega

theorem ofTally_addr (n : Nat) : OfTally n (TBS_TALLYn_SOURCE.ADDR n) := by
  dsimp only [OfTally]
  omega

theorem ofTally_stream (n : Nat) : OfTally n (TBS_TALLYn_CTRL.STREAM n) := by
  dsimp only [OfTally]
  omega

/-- The source of a broadcast is locked. -/
def sourceLocked (n addr : Nat) (s : State) : State :=
  setFld (setFlag s (TBS_TALLYn_SOURCE.VALID n) true) (TBS_TALLYn_SOURCE.ADDR n) addr

/-- A broadcast from another source is noted. -/
def foreignNoted (n : Nat) (s : State) : State := raise 136 (setFlag s (TBS_TALLYn_STATUS.FOREIGN n) true)

theorem hearBroadcast_eq (stream addr : Nat) (p v tb : Int) (s : State) (n : Nat) : hearBroadcast stream addr p v tb s n =
    if tallySrc s n = 2 && fld s (TBS_TALLYn_CTRL.STREAM n) = stream then
      if flag s (TBS_TALLYn_SOURCE.VALID n) && decide (fld s (TBS_TALLYn_SOURCE.ADDR n) ≠ addr) then foreignNoted n s
      else takeBroadcast n p v tb (sourceLocked n addr s)
    else s := rfl

theorem takeBroadcast_other {n m : Nat} (p v tb : Int) (s : State) (h : m ≠ n) : TallyKept n s (takeBroadcast m p v tb s) := by
  have hstate := not_ofTally h (ofTally_state m)
  unfold takeBroadcast
  dsimp only
  split
  · exact (TallyKept.setTally_other _ _ h).trans (.setFld_other _ _ hstate)
  · split
    · exact (TallyKept.setFld_other _ _ hstate).trans (.setTally_other _ _ h)
    · exact (TallyKept.setFld_other _ _ hstate).trans (.setTally_other _ _ h)

theorem hearBroadcast_other {n m : Nat} (stream addr : Nat) (p v tb : Int) (s : State) (h : m ≠ n) :
    TallyKept n s (hearBroadcast stream addr p v tb s m) := by
  rw [hearBroadcast_eq]
  split
  · split
    · exact (TallyKept.setFld_other _ _ (not_ofTally h (ofTally_foreign m))).trans (.raise ..)
    · exact ((TallyKept.setFld_other _ _ (not_ofTally h (ofTally_valid m))).trans
        (.setFld_other _ _ (not_ofTally h (ofTally_addr m)))).trans (takeBroadcast_other p v tb _ h)
  · exact .refl n s

theorem TallyKept.takeBroadcast_congr {n : Nat} {s u : State} (h : TallyKept n s u) (p v tb : Int) :
    TallyKept n (takeBroadcast n p v tb s) (takeBroadcast n p v tb u) := by
  unfold takeBroadcast
  simp only [h.tally, h.tick, h.pacer, h.fld (ofTally_state n), h.tallyExact,
    h.regs (TBS_TALLYn_JUMP n) (by dsimp only [TBS_TALLYn_JUMP]; omega) (by dsimp only [TBS_TALLYn_JUMP]; omega)]
  split
  · exact (h.setTally_congr _).setFld_congr (ofTally_state n) 1
  · split
    · exact (h.setFld_congr (ofTally_state n) 1).setTally_congr _
    · exact (h.setFld_congr (ofTally_state n) 1).setTally_congr _

theorem TallyKept.hearBroadcast_congr {n : Nat} {s u : State} (h : TallyKept n s u) (stream addr : Nat) (p v tb : Int) :
    TallyKept n (hearBroadcast stream addr p v tb s n) (hearBroadcast stream addr p v tb u n) := by
  rw [hearBroadcast_eq, hearBroadcast_eq, h.tallySrc, h.fld (ofTally_stream n), h.flag (ofTally_valid n), h.fld (ofTally_addr n)]
  split
  · split
    · exact (h.setFld_congr (ofTally_foreign n) _).raise_congr 136
    · exact ((h.setFld_congr (ofTally_valid n) _).setFld_congr (ofTally_addr n) _).takeBroadcast_congr p v tb
  · exact h

theorem lowKept_hearBroadcast (stream addr : Nat) (p v tb : Int) (s : State) (n : Nat) : LowKept s (hearBroadcast stream addr p v tb s n) := by
  have hset : ∀ u (f : Fld) w, 0xA0050100 ≤ f.reg → LowKept u (setFld u f w) := fun u f w hf => .setFld u f w (by omega)
  have htake : ∀ u, LowKept u (takeBroadcast n p v tb u) := fun u => by
    have hstate : ∀ w, LowKept w (setFld w (TBS_TALLYn_STATUS.STATE n) 1) := fun w => hset w _ 1 (by dsimp only; omega)
    unfold takeBroadcast
    exact .ite ((LowKept.setTally ..).trans (hstate _)) (.ite ((hstate u).trans (.setTally ..)) ((hstate u).trans (.setTally ..)))
  rw [hearBroadcast_eq]
  refine .ite (.ite ((hset s (TBS_TALLYn_STATUS.FOREIGN n) _ (by dsimp only; omega)).trans (.raise ..)) (LowKept.trans ?_ (htake _))) (.refl s)
  exact (hset s (TBS_TALLYn_SOURCE.VALID n) _ (by dsimp only; omega)).trans (hset _ (TBS_TALLYn_SOURCE.ADDR n) _ (by dsimp only; omega))

theorem exec_tallyFrameReceive {stream : Fin 16} {addr : Fin 1024} {p v : Int} {tb : Nat} {s : State} (hawake : awake s = true) :
    exec (.tallyFrameReceive stream addr p v tb) s = .next (settle ((List.range 4).foldl (hearBroadcast stream addr p v tb) s)) := by
  change execTallyFrameReceive stream addr p v tb s = _
  rw [execTallyFrameReceive, whileAwake, if_pos hawake, done]

/-- All four Tallies hear a broadcast; Tally `n` has what its own hearing gives. -/
theorem tallyKept_broadcast {n : Nat} (hn : n < 4) (stream addr : Nat) (p v tb : Int) (s : State) :
    TallyKept n (hearBroadcast stream addr p v tb s n) ((List.range 4).foldl (hearBroadcast stream addr p v tb) s) :=
  TallyKept.foldl hn (fun u _ hm => hearBroadcast_other stream addr p v tb u hm) fun _ hu => hu.hearBroadcast_congr stream addr p v tb

section
variable {s : State} {n stream addr : Nat} {p v tb : Int}

/-- The source that a waiting Tally hears first. -/
theorem hearBroadcast_first (hsrc : tallySrc s n = 2) (hstream : fld s (TBS_TALLYn_CTRL.STREAM n) = stream)
    (hvalid : flag s (TBS_TALLYn_SOURCE.VALID n) = false) (hwait : fld s (TBS_TALLYn_STATUS.STATE n) = 4) :
    hearBroadcast stream addr p v tb s n = setFld (setTally n { tallyOf (sourceLocked n addr s) n with
      heard := tick s, pos := p * 65536, te := tb, vel := v, adj := 0 } (sourceLocked n addr s)) (TBS_TALLYn_STATUS.STATE n) 1 := by
  have hstate : fld (sourceLocked n addr s) (TBS_TALLYn_STATUS.STATE n) = 4 := by
    rw [sourceLocked, fld_setFld_apart (by dsimp only [Apart]; omega), fld_setFlag_apart (by dsimp only [Apart]; omega), hwait]
  rw [hearBroadcast_eq, hsrc, hstream, hvalid]
  simp only [decide_true, Bool.and_self, Bool.false_and, if_true, Bool.false_eq_true, if_false]
  unfold takeBroadcast
  dsimp only
  rw [if_pos hstate]
  rfl

theorem hearBroadcast_foreign (hsrc : tallySrc s n = 2) (hstream : fld s (TBS_TALLYn_CTRL.STREAM n) = stream)
    (hvalid : flag s (TBS_TALLYn_SOURCE.VALID n) = true) (hother : fld s (TBS_TALLYn_SOURCE.ADDR n) ≠ addr) :
    hearBroadcast stream addr p v tb s n = foreignNoted n s := by
  rw [hearBroadcast_eq, hsrc, hstream, hvalid, decide_eq_true hother]
  simp only [decide_true, Bool.and_self, if_true]

end

theorem sourceLocked_results {n addr : Nat} (s : State) (h : addr < 1024) :
    flag (sourceLocked n addr s) (TBS_TALLYn_SOURCE.VALID n) = true ∧ fld (sourceLocked n addr s) (TBS_TALLYn_SOURCE.ADDR n) = addr := by
  unfold sourceLocked
  refine ⟨?_, ?_⟩
  · rw [flag_setFld_apart (by dsimp only [Apart]; omega)]
    exact flag_setFlag_same s (TBS_TALLYn_SOURCE.VALID n) true rfl (Nat.le_of_ble_eq_true rfl)
  · rw [fld_setFld_same _ _ _ (Nat.le_of_ble_eq_true rfl)]
    exact Nat.mod_eq_of_lt h

theorem fld_setTally (n : Nat) (x : TallyRun) (s : State) (f : Fld) : fld (setTally n x s) f = fld s f := rfl

theorem flag_setTally (n : Nat) (x : TallyRun) (s : State) (f : Fld) : flag (setTally n x s) f = flag s f := rfl

/-- The clause of O16 about the first broadcast. -/
theorem firstBroadcast_results {s : State} {n : Fin 4} {stream : Fin 16} (addr : Fin 1024) (p v : Int) (tb : Nat) (hawake : awake s = true)
    (hsrc : tallySrc s n = 2) (hstream : fld s (TBS_TALLYn_CTRL.STREAM n) = stream) (hvalid : flag s (TBS_TALLYn_SOURCE.VALID n) = false)
    (hwait : fld s (TBS_TALLYn_STATUS.STATE n) = 4) :
    ∃ t, exec (.tallyFrameReceive stream addr p v tb) s = .next t ∧ flag t (TBS_TALLYn_SOURCE.VALID n) = true ∧
      fld t (TBS_TALLYn_SOURCE.ADDR n) = addr ∧ fld t (TBS_TALLYn_STATUS.STATE n) = 1 ∧ (tallyOf t n).pos = p * 65536 ∧
      (tallyOf t n).te = tb ∧ (tallyOf t n).vel = v ∧ (tallyOf t n).heard = tick s := by
  have hkept := tallyKept_broadcast n.isLt stream addr p v tb s
  rw [hearBroadcast_first hsrc hstream hvalid hwait] at hkept
  have htally := hkept.tally
  rw [tallyOf_setFld, tallyOf_setTally_same] at htally
  obtain ⟨hvalid', haddr⟩ := sourceLocked_results (n := n) s addr.isLt
  refine ⟨_, exec_tallyFrameReceive hawake, ?_, ?_, ?_, ?_, ?_, ?_, ?_⟩
  · rw [flag_settle_low _ (by dsimp only; omega), hkept.flag (ofTally_valid n), flag_setFld_apart (by dsimp only [Apart]; omega),
      flag_setTally, hvalid']
  · rw [fld_settle_low _ (by dsimp only; omega), hkept.fld (ofTally_addr n), fld_setFld_apart (by dsimp only [Apart]; omega),
      fld_setTally, haddr]
  · rw [fld_settle_low _ (by dsimp only; omega), hkept.fld (ofTally_state n)]
    exact fld_setFld_same _ _ _ (Nat.le_of_ble_eq_true rfl)
  · rw [tallyOf_settle, htally]
  · rw [tallyOf_settle, htally]
  · rw [tallyOf_settle, htally]
  · rw [tallyOf_settle, htally]

/-- The clause of O16 about a broadcast from another address. -/
theorem foreignBroadcast_results {s : State} {n : Fin 4} {stream : Fin 16} {addr : Fin 1024} (p v : Int) (tb : Nat) (hawake : awake s = true)
    (hsrc : tallySrc s n = 2) (hstream : fld s (TBS_TALLYn_CTRL.STREAM n) = stream) (hvalid : flag s (TBS_TALLYn_SOURCE.VALID n) = true)
    (hother : fld s (TBS_TALLYn_SOURCE.ADDR n) ≠ addr) :
    ∃ t, exec (.tallyFrameReceive stream addr p v tb) s = .next t ∧ flag t (TBS_TALLYn_STATUS.FOREIGN n) = true ∧ Posted 136 s t ∧
      tallyOf t n = tallyOf s n ∧ fld t (TBS_TALLYn_SOURCE.ADDR n) = fld s (TBS_TALLYn_SOURCE.ADDR n) := by
  have hkept := tallyKept_broadcast n.isLt stream addr p v tb s
  rw [hearBroadcast_foreign hsrc hstream hvalid hother, foreignNoted] at hkept
  have hall : LowKept s ((List.range 4).foldl (hearBroadcast stream addr p v tb) s) :=
    .foldl (fun u m => lowKept_hearBroadcast stream addr p v tb u m) _ s
  refine ⟨_, exec_tallyFrameReceive hawake, ?_, hall.posted (by decide) (hkept.raised _ (mem_raise 136 _)), ?_, ?_⟩
  · rw [flag_settle_low _ (by dsimp only; omega), hkept.flag (ofTally_foreign n), flag, fld_raise, ← flag]
    exact flag_setFlag_same s (TBS_TALLYn_STATUS.FOREIGN n) true rfl (Nat.le_of_ble_eq_true rfl)
  · rw [tallyOf_settle, hkept.tally, (TallyKept.raise 136 _).tally, tallyOf_setFlag]
  · rw [fld_settle_low _ (by dsimp only; omega), hkept.fld (ofTally_addr n), fld_raise, fld_setFlag_apart (by dsimp only [Apart]; omega)]

/-! ### Silence (R56) -/

theorem coasting_results {s : State} {n : Fin 4} (hawake : awake s = true) (hsilent : silentFor s n 1 4 = true) :
    ∃ t, exec (.tallyCoasting n) s = .next t ∧ fld t (TBS_TALLYn_STATUS.STATE n) = 2 ∧ t.tbs = s.tbs := by
  have hexec : exec (.tallyCoasting n) s = .next (settle (setFld s (TBS_TALLYn_STATUS.STATE n) 2)) := by
    change execTallyCoasting n s = _
    rw [execTallyCoasting, hawake, hsilent]
    rfl
  refine ⟨_, hexec, ?_, by simp⟩
  rw [fld_settle_low _ (by dsimp only; omega)]
  exact fld_setFld_same _ _ _ (Nat.le_of_ble_eq_true rfl)

/-- The Tally with its position held. -/
def lostRun (s : State) (n : Nat) : TallyRun := { tallyOf s n with pos := heldPos s n, te := now s, vel := 0, adj := 0 }

theorem lost_results {s : State} {n : Fin 4} (hawake : awake s = true) (hsilent : silentFor s n 2 8 = true) :
    ∃ t, exec (.tallyLost n) s = .next t ∧
      fld t (TBS_TALLYn_STATUS.STATE n) = 3 ∧ (tallyOf t n).vel = 0 ∧ (tallyOf t n).adj = 0 ∧ Posted 137 s t ∧
      ∀ m, m ≠ n.val → tallyOf t m = tallyOf s m := by
  have hexec : exec (.tallyLost n) s = .next (settle (raise 137 (setFld (setTally n (lostRun s n) s) (TBS_TALLYn_STATUS.STATE n) 3))) := by
    change execTallyLost n s = _
    rw [execTallyLost, hawake, hsilent]
    rfl
  have hlow : LowKept s (raise 137 (setFld (setTally n (lostRun s n) s) (TBS_TALLYn_STATUS.STATE n) 3)) :=
    ((LowKept.setTally ..).trans (.setFld _ _ _ (by dsimp only; omega))).trans (.raise ..)
  have htally : ∀ m, tallyOf (settle (raise 137 (setFld (setTally n (lostRun s n) s) (TBS_TALLYn_STATUS.STATE n) 3))) m =
      if m = n.val then lostRun s n else tallyOf s m := fun m => by
    rw [tallyOf_settle, (TallyKept.raise 137 _).tally, tallyOf_setFld, tallyOf_setTally]
  refine ⟨_, hexec, ?_, ?_, ?_, hlow.posted (by decide) (mem_raise 137 _), fun m hm => by rw [htally, if_neg hm]⟩
  · rw [fld_settle_low _ (by dsimp only; omega), fld_raise]
    exact fld_setFld_same _ _ _ (Nat.le_of_ble_eq_true rfl)
  · rw [htally, if_pos rfl]
    rfl
  · rw [htally, if_pos rfl]
    rfl

/-! ### The mains (R59, R60) -/

theorem tbs_enterMains (st : Nat) (s : State) : (enterMains st s).tbs = s.tbs := rfl

theorem fld_enterMains {f : Fld} (st : Nat) (s : State) (h : Apart f TBS_MAINS_STATUS.STATE) (h' : Apart f TBS_MAINS_FREQ.FREQ) :
    fld (enterMains st s) f = fld s f := by
  rw [enterMains, fld_setFld_apart h', fld_setFld_apart h]

theorem state_enterMains {st : Nat} (s : State) (h : st < 8) : fld (enterMains st s) TBS_MAINS_STATUS.STATE = st := by
  rw [enterMains, fld_setFld_apart (by decide)]
  exact fld_setFld_fits (f := TBS_MAINS_STATUS.STATE) s (by decide) h

theorem mainsPreset_lt (s : State) : mainsPreset s < 2 ^ 32 := by
  unfold mainsPreset
  split
  · decide
  · decide

/-- Outside LOCKED the register shows the preset (R145). -/
theorem freq_enterMains {st : Nat} (s : State) (h : st ≠ 2) : fld (enterMains st s) TBS_MAINS_FREQ.FREQ = mainsPreset s := by
  rw [enterMains, if_neg h]
  exact fld_setFld_fits (f := TBS_MAINS_FREQ.FREQ) _ (by decide) (mainsPreset_lt s)

theorem lowKept_enterMains (st : Nat) (s : State) : LowKept s (enterMains st s) :=
  (LowKept.setFld s _ _ (by decide)).trans (.setFld _ _ _ (by decide))

/-- The tracker that has just started. -/
def mainsStarted (s : State) : State :=
  setMains { at0 := now s, freq := mainsPreset s, crossBnd := tick s } s

theorem exec_mainsEnable {s : State} (h : flag s TBS_MAINS_CTRL.EN = false) :
    exec (.mainsEnable true) s = .next (settle (enterMains 1 (mainsStarted (setFlag s TBS_MAINS_CTRL.EN true)))) := by
  have hset : wr s TBS_MAINS_CTRL (fset (rd s TBS_MAINS_CTRL) 31 1 (bit true)) = setFlag s TBS_MAINS_CTRL.EN true := rfl
  have hen : flag (setFlag s TBS_MAINS_CTRL.EN true) TBS_MAINS_CTRL.EN = true := flag_setFlag_same _ _ _ rfl (by decide)
  have hne : fset (rd s TBS_MAINS_CTRL) 31 1 (bit true) ≠ rd s TBS_MAINS_CTRL := by
    intro he
    have hfld : fget (fset (rd s TBS_MAINS_CTRL) 31 1 (bit true)) 31 1 = 1 := fget_fset_same _ _ _ _ (by decide)
    rw [he] at hfld
    exact of_decide_eq_false h (by rw [fld, hfld]; decide)
  change execMainsEnable true s = _
  rw [execMainsEnable, if_neg hne, mainsCtrlWrite, hset, h, hen]
  rfl

theorem mainsEnable_results {s : State} (h : flag s TBS_MAINS_CTRL.EN = false) :
    ∃ t, exec (.mainsEnable true) s = .next t ∧ flag t TBS_MAINS_CTRL.EN = true ∧
      fld t TBS_MAINS_STATUS.STATE = 1 ∧ mainsAt t (now t) = 0 ∧ now t = now s := by
  have hen : flag (setFlag s TBS_MAINS_CTRL.EN true) TBS_MAINS_CTRL.EN = true := flag_setFlag_same _ _ _ rfl (by decide)
  have hexec := exec_mainsEnable h
  have hnow : now (setFlag s TBS_MAINS_CTRL.EN true) = now s := now_of_tbs (t := setFlag s TBS_MAINS_CTRL.EN true) rfl
  generalize setFlag s TBS_MAINS_CTRL.EN true = u at hen hexec hnow
  have htbs : (settle (enterMains 1 (mainsStarted u))).tbs = (mainsStarted u).tbs := by simp [tbs_enterMains]
  have hstarted : now (mainsStarted u) = now u := rfl
  refine ⟨_, hexec, ?_, ?_, ?_, by rw [now_of_tbs htbs, hstarted, hnow]⟩
  · rw [flag, fld_settle_low _ (by decide), fld_enterMains _ _ (by decide) (by decide), ← flag]
    exact hen
  · rw [fld_settle_low _ (by decide), state_enterMains _ (by decide)]
  · have hmains : (mainsStarted u).tbs.mains = { at0 := now u, freq := mainsPreset u, crossBnd := tick u } := rfl
    rw [now_of_tbs htbs, mainsAt, htbs, hmains, hstarted, mainsTo]
    simp

/-! ### A crossing (R59, R60) -/

/-- The consistent cycles in a row, with the present one. -/
def mainsRun (t : Int) (s : State) : Nat :=
  if (phaseError (mainsTo s.tbs.mains t).coord).natAbs ≤ 16 * 65536000000000 then (mainsTo s.tbs.mains t).run + 1 else 0

/-- The tracker once the frequency has been measured and the phase steered. -/
def mainsMeasured (f : Nat) (t : Int) (s : State) : State :=
  freshen (setMains (steerMains (Config.mainsSteer s.fresh)
    { mainsTo s.tbs.mains t with freq := f, run := mainsRun t s, crossed := some t, crossBnd := tick s }) s)

theorem mainsGood_eq (f : Nat) (t : Int) (s : State) : mainsGood f t s =
    if fld (mainsMeasured f t s) TBS_MAINS_STATUS.STATE = 2 then enterMains 2 (mainsMeasured f t s)
    else if 50 ≤ mainsRun t s then raise 138 (enterMains 2 (mainsMeasured f t s))
    else enterMains 1 (mainsMeasured f t s) := by
  unfold mainsGood mainsMeasured mainsRun
  simp only [decide_eq_true_eq]

theorem tbs_mainsGood (f : Nat) (t : Int) (s : State) : (mainsGood f t s).tbs = (mainsMeasured f t s).tbs := by
  rw [mainsGood_eq]
  split
  · exact tbs_enterMains 2 _
  · split
    · simp [tbs_enterMains]
    · exact tbs_enterMains 1 _

/-- Steering leaves what was measured, and never moves the coordinate back. -/
theorem steerMains_results (d : Nat) (m : Mains) : (steerMains d m).freq = m.freq ∧ (steerMains d m).crossed = m.crossed ∧
    m.coord ≤ (steerMains d m).coord := by
  unfold steerMains
  dsimp only
  split
  · exact ⟨rfl, rfl, Nat.le_add_right ..⟩
  · exact ⟨rfl, rfl, Nat.le_refl _⟩

theorem mainsGood_results (f : Nat) (t : Int) (s : State) : (mainsGood f t s).tbs.mains.crossed = some t ∧
    (mainsGood f t s).tbs.mains.freq = f ∧ s.tbs.mains.coord ≤ (mainsGood f t s).tbs.mains.coord := by
  obtain ⟨hfreq, hcrossed, hcoord⟩ := steerMains_results (Config.mainsSteer s.fresh)
    { mainsTo s.tbs.mains t with freq := f, run := mainsRun t s, crossed := some t, crossBnd := tick s }
  rw [tbs_mainsGood]
  exact ⟨hcrossed, hfreq, (Nat.le_add_right ..).trans hcoord⟩

theorem mainsCrossing_results {s : State} {t0 t1 : Int} (hcrossed : s.tbs.mains.crossed = some t0) (hlt : t0 < t1) :
    (mainsCrossing t1 s).tbs.mains.crossed = some t1 ∧
    (47 * 65536 ≤ freqOf (t1 - t0).toNat → freqOf (t1 - t0).toNat ≤ 63 * 65536 →
      (mainsCrossing t1 s).tbs.mains.freq = freqOf (t1 - t0).toNat ∧ s.tbs.mains.coord ≤ (mainsCrossing t1 s).tbs.mains.coord) ∧
    (freqOf (t1 - t0).toNat < 47 * 65536 ∨ 63 * 65536 < freqOf (t1 - t0).toNat →
      flag (mainsCrossing t1 s) TBS_MAINS_STATUS.OUT_OF_RANGE = true ∧ (mainsCrossing t1 s).tbs.mains.freq = s.tbs.mains.freq) := by
  unfold mainsCrossing
  dsimp only
  rw [hcrossed]
  dsimp only
  rw [if_neg (by omega)]
  generalize freqOf (t1 - t0).toNat = f
  split
  · next hin =>
    obtain ⟨hnew, hfreq, hcoord⟩ := mainsGood_results f t1 s
    exact ⟨hnew, fun _ _ => ⟨hfreq, hcoord⟩, fun hout => by omega⟩
  · next hout =>
    exact ⟨rfl, fun hlo hhi => absurd ⟨hlo, hhi⟩ hout, fun _ => ⟨flag_setFlag_same _ _ _ rfl (by decide), rfl⟩⟩

/-- The crossing that is taken: of the pin, or of the channel. -/
theorem exec_mainsCrossing {s : State} {ofs : Nat} {t1 : Int} (hawake : awake s = true) (hen : flag s TBS_MAINS_CTRL.EN = true)
    (hat : (if flag s TBS_MAINS_CTRL.SRC then s.tbs.mains.found else some (now (atOfs ofs s) : Int)) = some t1) :
    ∃ u, exec (.mainsCrossing ofs) s = .next (settle (mainsCrossing t1 u)) ∧ u.tbs.mains.crossed = s.tbs.mains.crossed ∧
      u.tbs.mains.coord = s.tbs.mains.coord ∧ u.tbs.mains.freq = s.tbs.mains.freq := by
  have hawake' : awake (atOfs ofs s) = true := hawake
  have hen' : flag (atOfs ofs s) TBS_MAINS_CTRL.EN = true := hen
  have hsrc' : flag (atOfs ofs s) TBS_MAINS_CTRL.SRC = flag s TBS_MAINS_CTRL.SRC := rfl
  change ∃ u, execMainsCrossing ofs s = _ ∧ _
  rw [execMainsCrossing]
  dsimp only
  rw [hawake', hen', hsrc']
  cases hsrc : flag s TBS_MAINS_CTRL.SRC
  · rw [hsrc, if_neg Bool.false_ne_true, Option.some.injEq] at hat
    rw [hat]
    exact ⟨_, rfl, rfl, rfl, rfl⟩
  · rw [hsrc, if_pos rfl] at hat
    have hfound : (atOfs ofs s).tbs.mains.found = some t1 := hat
    rw [hfound]
    exact ⟨_, rfl, rfl, rfl, rfl⟩

theorem crossing_results {s : State} {ofs : Nat} {t0 t1 : Int} (hawake : awake s = true) (hen : flag s TBS_MAINS_CTRL.EN = true)
    (hcrossed : s.tbs.mains.crossed = some t0) (hlt : t0 < t1)
    (hat : (if flag s TBS_MAINS_CTRL.SRC then s.tbs.mains.found else some (now (atOfs ofs s) : Int)) = some t1) :
    ∃ t, exec (.mainsCrossing ofs) s = .next t ∧ t.tbs.mains.crossed = some t1 ∧
      (47 * 65536 ≤ freqOf (t1 - t0).toNat → freqOf (t1 - t0).toNat ≤ 63 * 65536 →
        t.tbs.mains.freq = freqOf (t1 - t0).toNat ∧ s.tbs.mains.coord ≤ t.tbs.mains.coord) ∧
      (freqOf (t1 - t0).toNat < 47 * 65536 ∨ 63 * 65536 < freqOf (t1 - t0).toNat →
        flag t TBS_MAINS_STATUS.OUT_OF_RANGE = true ∧ t.tbs.mains.freq = s.tbs.mains.freq) := by
  obtain ⟨u, hexec, hsame, hcoord, hfreq⟩ := exec_mainsCrossing hawake hen hat
  obtain ⟨hnew, hgood, hbad⟩ := mainsCrossing_results (hsame.trans hcrossed) hlt
  have htbs : (settle (mainsCrossing t1 u)).tbs = (mainsCrossing t1 u).tbs := by simp
  rw [hcoord] at hgood
  rw [hfreq] at hbad
  refine ⟨_, hexec, by rw [htbs, hnew], fun hlo hhi => ?_, fun hout => ?_⟩
  · rw [htbs]
    exact hgood hlo hhi
  · rw [flag_settle_low _ (by decide), htbs]
    exact hbad hout

/-- The clause of O16 about the loss of the mains. -/
theorem mainsLost_results {s : State} (hawake : awake s = true) (hdue : mainsLostDue s = true) :
    ∃ t, exec .mainsLost s = .next t ∧ fld t TBS_MAINS_STATUS.STATE = 3 ∧ Posted 139 s t ∧ fld t TBS_MAINS_FREQ.FREQ = mainsPreset s ∧
      t.tbs.mains.freq = s.tbs.mains.freq ∧ t.tbs.mains.coord = s.tbs.mains.coord := by
  have hexec : exec .mainsLost s =
      .next (settle (raise 139 (enterMains 3 (setMains { s.tbs.mains with run := 0, bad := false, crossed := none } s)))) := by
    change execMainsLost s = _
    rw [execMainsLost, hawake, hdue]
    rfl
  generalize hu : setMains { s.tbs.mains with run := 0, bad := false, crossed := none } s = u at hexec
  have hlow : LowKept s (raise 139 (enterMains 3 u)) := ((hu ▸ LowKept.setMains _ s).trans (lowKept_enterMains 3 u)).trans (.raise ..)
  have htbs : (settle (raise 139 (enterMains 3 u))).tbs = u.tbs := by simp [tbs_enterMains]
  have hpreset : mainsPreset u = mainsPreset s := hu ▸ rfl
  refine ⟨_, hexec, ?_, hlow.posted (by decide) (mem_raise 139 _), ?_, by rw [htbs, ← hu]; rfl, by rw [htbs, ← hu]; rfl⟩
  · rw [fld_settle_low _ (by decide), fld_raise, state_enterMains _ (by decide)]
  · rw [fld_settle_low _ (by decide), fld_raise, freq_enterMains _ (by decide), hpreset]

/-- Settles O16, clause by clause: the first broadcast, a foreign one, COASTING, LOST, and the mains tracker's start, crossing and loss. -/
theorem remoteTallyAndMains : Obligations.RemoteTallyAndMains :=
  ⟨fun _ _ _ addr p v tb hawake hsrc hstream hvalid hwait => firstBroadcast_results addr p v tb hawake hsrc hstream hvalid hwait,
    fun _ _ _ _ p v tb hawake hsrc hstream hvalid hother => foreignBroadcast_results p v tb hawake hsrc hstream hvalid hother,
    fun _ _ hawake hsilent => coasting_results hawake hsilent, fun _ _ hawake hsilent => lost_results hawake hsilent,
    fun _ h => mainsEnable_results h, fun _ _ _ _ hawake hen hcrossed hlt hat => crossing_results hawake hen hcrossed hlt hat,
    fun _ hawake hdue => mainsLost_results hawake hdue⟩

end Sys2Proof.Machine

namespace Sys2Proof.Machine
open Sys2Proof

/-! ### The list's own EN (R71) -/

theorem entriesOnly_slJudgeAll (s : State) : EntriesOnly s (slJudgeAll s) :=
  .foldl (fun u n => .ite (.slLate n u) (.refl u)) _ s

theorem startListEnable_results (s : State) (en : Bool) :
    ∃ t, exec (.startListEnable en) s = .next t ∧ flag t TBS_SL_CTRL.EN = en ∧ now t = now s := by
  have hentries : EntriesOnly (setFlag s TBS_SL_CTRL.EN en) (slCtrlWrite en s) := .ite (entriesOnly_slJudgeAll _) (.refl _)
  refine ⟨settle (slCtrlWrite en s), rfl, ?_, ?_⟩
  · rw [flag_settle_low _ (by decide), flag, fld, hentries.regs _ (by decide) (by decide)]
    exact flag_setFlag_same s TBS_SL_CTRL.EN en rfl (by decide)
  · rw [now_settle, now, hentries.pacer, now]
    simp

/-! ### Fields of an entry (R63) -/

/-- Fields of different words, of different entries, or of bits that lie apart. -/
theorem apart_entry {n m o o' lo w lo' w' : Nat} (ho : o < 32) (ho' : o' < 32) (hlo : lo + w ≤ 32) (hlo' : lo' + w' ≤ 32)
    (hne : n ≠ m ∨ o ≠ o' ∨ lo + w ≤ lo' ∨ lo' + w' ≤ lo) : Apart (slFld n o lo w) (slFld m o' lo' w') := by
  refine ⟨hlo, hlo', ?_⟩
  unfold slFld slAddr
  dsimp only
  omega

/-- No entry lies among the registers of the timebase. -/
theorem apart_below {f : Fld} {n o lo w : Nat} (hf : f.lo + f.w ≤ 32) (hlo : lo + w ≤ 32) (h : f.reg < 0xB0010000) :
    Apart (slFld n o lo w) f := by
  have hreg := slFld_reg_le n o lo w
  exact ⟨hlo, hf, .inl (by omega)⟩

theorem slEn_setSlState_any (n m st : Nat) (s : State) : slEn (setSlState m st s) n = slEn s n :=
  flag_setFld_apart (apart_entry (by decide) (by decide) (by decide) (by decide) (.inr (.inr (.inr (by decide))))) s st

theorem slState_setSlState {st : Nat} (n : Nat) (s : State) (h : st < 16) : slState (setSlState n st s) n = st :=
  fld_setFld_fits (f := slFld n 0 12 4) s (Nat.le_of_ble_eq_true rfl) h

theorem slEn_settle (n : Nat) (s : State) : slEn (settle s) n = slEn s n := by rw [slEn, flag, fld_settle_entry, ← flag, ← slEn]

theorem slState_settle (n : Nat) (s : State) : slState (settle s) n = slState s n := fld_settle_entry s

theorem slEn_slForget (m n : Nat) (s : State) : slEn (slForget m s) n = slEn s n := rfl

theorem slState_slForget (m n : Nat) (s : State) : slState (slForget m s) n = slState s n := rfl

theorem mem_wait_slForget (n m : Nat) (s : State) : m ∈ (slForget n s).tbs.sl.wait ↔ m ∈ s.tbs.sl.wait ∧ m ≠ n := by
  simp [slForget]

theorem taken_slForget (n : Nat) (s : State) : (slForget n s).tbs.sl.taken = s.tbs.sl.taken := rfl

theorem tbs_setSlState (n st : Nat) (s : State) : (setSlState n st s).tbs = s.tbs := rfl

theorem tbs_setFlag (s : State) (f : Fld) (b : Bool) : (setFlag s f b).tbs = s.tbs := rfl

theorem tbs_settle (s : State) : (settle s).tbs = s.tbs := by simp

/-! ### Enabling an entry (R63, R70, R73) -/

/-- The entry with EN set and WAS_LATE cleared, before it is ordered. -/
def entryEnabled (n : Nat) (s : State) : State := setFlag (setFlag s (slFld n 0 31 1) true) (slFld n 0 11 1) false

theorem exec_slEntryEnable {s : State} {n : Fin 2048} (h : slEn s n = false) :
    exec (.slEntryEnable n) s = .next (settle (slOrder n true (entryEnabled n s))) := by
  change execSlEntryEnable n s = _
  rw [execSlEntryEnable, h, if_neg Bool.false_ne_true]
  rfl

/-- A field of the entry beside EN and WAS_LATE. -/
theorem fld_entryEnabled {n o lo w : Nat} (s : State) (ho : o < 32) (hlo : lo + w ≤ 32)
    (h : o ≠ 0 ∨ (lo + w ≤ 31 ∧ (lo + w ≤ 11 ∨ 12 ≤ lo))) : fld (entryEnabled n s) (slFld n o lo w) = fld s (slFld n o lo w) := by
  rw [entryEnabled, fld_setFlag_apart (apart_entry ho (by decide) hlo (by decide) (by omega)),
    fld_setFlag_apart (apart_entry ho (by decide) hlo (by decide) (by omega))]

theorem fld_entryEnabled_low {f : Fld} (n : Nat) (s : State) (h : f.reg < 0xB0010000) : fld (entryEnabled n s) f = fld s f := by
  have hne : ∀ lo, f.reg ≠ (slFld n 0 lo 1).reg := fun lo => by
    have := slFld_reg_le n 0 lo 1
    omega
  have hset : ∀ u lo b, fld (setFlag u (slFld n 0 lo 1) b) f = fld u f := fun u lo b => fld_setFld_reg u f _ _ (hne lo)
  rw [entryEnabled, hset, hset]

theorem slEn_entryEnabled (n : Nat) (s : State) : slEn (entryEnabled n s) n = true := by
  have hkept : slEn (entryEnabled n s) n = slEn (setFlag s (slFld n 0 31 1) true) n :=
    flag_setFlag_apart (apart_entry (by decide) (by decide) (by decide) (by decide) (.inr (.inr (.inr (by decide))))) _ false
  rw [hkept]
  exact flag_setFlag_same s (slFld n 0 31 1) true rfl (Nat.le_of_ble_eq_true rfl)

theorem slLinked_entryEnabled (n : Nat) (s : State) : slLinked (entryEnabled n s) n = slLinked s n :=
  congrArg (fun v => decide (v ≠ 0)) (fld_entryEnabled s (by decide) (by decide) (by omega))

theorem slSpace_entryEnabled (n : Nat) (s : State) : slSpace (entryEnabled n s) n = slSpace s n :=
  fld_entryEnabled s (by decide) (by decide) (by omega)

theorem tbs_entryEnabled (n : Nat) (s : State) : (entryEnabled n s).tbs = s.tbs := rfl

theorem wait_slNoteSign (n : Nat) (s : State) : (slNoteSign n s).tbs.sl.wait = s.tbs.sl.wait ∧ (slNoteSign n s).tbs.sl.taken = s.tbs.sl.taken := by
  unfold slNoteSign
  split
  · exact ⟨rfl, rfl⟩
  · exact ⟨rfl, rfl⟩

/-- An entry that is placed waits, and no taken action changes. -/
theorem slPlaced_results (n : Nat) (s : State) : n ∈ (slPlaced n s).tbs.sl.wait ∧ (slPlaced n s).tbs.sl.taken = s.tbs.sl.taken := by
  unfold slPlaced
  dsimp only
  obtain ⟨hwait, htaken⟩ := wait_slNoteSign n (setSl { (slForget n s).tbs.sl with
    wait := (slForget n s).tbs.sl.wait.filter (fun k => decide (k < n)) ++ n :: (slForget n s).tbs.sl.wait.filter (fun k => decide (n < k)) }
    (slForget n s))
  rw [hwait, htaken]
  exact ⟨List.mem_append_right _ List.mem_cons_self, rfl⟩

/-- An entry of which no action is under way waits. -/
theorem slWaits_fresh {n : Nat} {s : State} (h : ∀ q ∈ s.tbs.sl.taken, q.n ≠ n) : slWaits n s = setSlState n 1 (slPlaced n s) := by
  have hnone : (slPlaced n s).tbs.sl.taken.any (fun q => decide (q.n = n)) = false := by
    rw [(slPlaced_results n s).2, List.any_eq_false]
    exact fun q hq => by simp [h q hq]
  unfold slWaits
  rw [hnone, if_neg Bool.false_ne_true]

theorem slOrder_waits {n : Nat} {s : State} (hlinked : slLinked s n = false) (hspace : slSpace s n < 6) (hctrl : flag s TBS_SL_CTRL.EN = false) :
    slOrder n true s = slWaits n s := by
  rw [slOrder_eq, hlinked, if_neg Bool.false_ne_true, if_neg (by omega), slCtrl_slWaits, hctrl]
  rfl

theorem fld_slPlaced (n : Nat) (s : State) (f : Fld) : fld (slPlaced n s) f = fld s f := by rw [fld, fld, rd, rd, regs_slPlaced]

/-- The clause of O17 about enabling an entry of one of the six spaces. -/
theorem entryEnable_waits {s : State} {n : Fin 2048} (hctrl : flag s TBS_SL_CTRL.EN = false) (hen : slEn s n = false)
    (hlinked : slLinked s n = false) (hspace : slSpace s n < 6) (hnone : ∀ q ∈ s.tbs.sl.taken, q.n ≠ n.val) :
    ∃ t, exec (.slEntryEnable n) s = .next t ∧ slEn t n = true ∧ slState t n = 1 ∧
      n.val ∈ t.tbs.sl.wait ∧ flag t (slFld n 0 11 1) = false ∧ slValue t n = slValue s n := by
  have horder : slOrder n true (entryEnabled n s) = setSlState n 1 (slPlaced n (entryEnabled n s)) := by
    rw [slOrder_waits (by rw [slLinked_entryEnabled, hlinked]) (by rw [slSpace_entryEnabled]; exact hspace)
      (by rw [flag, fld_entryEnabled_low n s (by decide), ← flag, hctrl]), slWaits_fresh (s := entryEnabled n s) hnone]
  have hexec := exec_slEntryEnable hen
  rw [horder] at hexec
  have hother : ∀ {o lo w}, o < 32 → lo + w ≤ 32 → (o ≠ 0 ∨ lo + w ≤ 12) →
      fld (settle (setSlState n 1 (slPlaced n (entryEnabled n s)))) (slFld n o lo w) = fld (entryEnabled n s) (slFld n o lo w) := by
    intro o lo w ho hlo hne
    rw [fld_settle_entry, setSlState, fld_setFld_apart (apart_entry ho (by decide) hlo (by decide) (by omega)), fld_slPlaced]
  refine ⟨_, hexec, ?_, ?_, ?_, ?_, ?_⟩
  · rw [slEn_settle, slEn_setSlState_any, slEn_of_regs (regs_slPlaced _ _), slEn_entryEnabled]
  · rw [slState_settle, slState_setSlState _ _ (by decide)]
  · rw [tbs_settle, tbs_setSlState]
    exact (slPlaced_results _ _).1
  · rw [flag, hother (by decide) (by decide) (by omega), ← flag]
    exact flag_setFlag_same _ (slFld n 0 11 1) false rfl (Nat.le_of_ble_eq_true rfl)
  · rw [slValue, hother (by decide) (by decide) (by omega), hother (by decide) (by decide) (by omega),
      fld_entryEnabled s (by decide) (by decide) (by omega), fld_entryEnabled s (by decide) (by decide) (by omega), ← slValue]

/-- The entry refused: cancelled, and counted in SL_BAD (R70). -/
def entryRefused (n : Nat) (s : State) : State :=
  addSat (setSlState n 4 (setFlag (slForget n s) (slFld n 0 31 1) false)) TBS_SL_BAD.COUNT 1

theorem slOrder_refused {n : Nat} {s : State} (judge : Bool) (hlinked : slLinked s n = false) (hspace : 6 ≤ slSpace s n) :
    slOrder n judge s = raise 142 (entryRefused n s) := by
  rw [slOrder_eq, hlinked, if_neg Bool.false_ne_true, if_pos hspace, entryRefused]

theorem fld_entryRefused {n lo w : Nat} (s : State) (hlo : lo + w ≤ 32) : fld (entryRefused n s) (slFld n 0 lo w) =
    fld (setSlState n 4 (setFlag (slForget n s) (slFld n 0 31 1) false)) (slFld n 0 lo w) :=
  fld_setFld_apart (apart_below (f := TBS_SL_BAD.COUNT) (by decide) hlo (by decide)) _ _

theorem slEn_entryRefused (n : Nat) (s : State) : slEn (entryRefused n s) n = false := by
  rw [slEn, flag, fld_entryRefused s (by decide), ← flag, ← slEn, slEn_setSlState_any]
  exact flag_setFlag_same _ (slFld n 0 31 1) false rfl (Nat.le_of_ble_eq_true rfl)

theorem slState_entryRefused (n : Nat) (s : State) : slState (entryRefused n s) n = 4 := by
  rw [slState, fld_entryRefused s (by decide), ← slState, slState_setSlState _ _ (by decide)]

theorem tbs_entryRefused (n : Nat) (s : State) : (entryRefused n s).tbs = (slForget n s).tbs := rfl

/-- A register of the timebase after one field of an entry is set. -/
theorem fld_setEntry_low {f : Fld} (n o lo w v : Nat) (s : State) (h : f.reg < 0xB0010000) : fld (setFld s (slFld n o lo w) v) f = fld s f := by
  have hreg := slFld_reg_le n o lo w
  exact fld_setFld_reg s f _ v (by omega)

theorem slBad_entryRefused {n : Nat} {s : State} (h : fld s TBS_SL_BAD.COUNT < 2 ^ 32 - 1) :
    fld (entryRefused n s) TBS_SL_BAD.COUNT = fld s TBS_SL_BAD.COUNT + 1 := by
  have hsame : fld (setSlState n 4 (setFlag (slForget n s) (slFld n 0 31 1) false)) TBS_SL_BAD.COUNT = fld s TBS_SL_BAD.COUNT := by
    rw [setSlState, fld_setEntry_low _ _ _ _ _ _ (by decide), setFlag, fld_setEntry_low _ _ _ _ _ _ (by decide)]
    rfl
  rw [entryRefused, fld_addSat_same _ _ _ (by decide), hsame]
  exact if_pos (Nat.add_lt_of_lt_sub h)

theorem lowKept_entryEnabled (n : Nat) (s : State) : LowKept s (entryEnabled n s) :=
  (LowKept.setFlag s _ _ (LowKept.slReg ..)).trans (.setFlag _ _ _ (LowKept.slReg ..))

/-- The clause of O17 about enabling an entry of a reserved space. -/
theorem entryEnable_refused {s : State} {n : Fin 2048} (hen : slEn s n = false) (hlinked : slLinked s n = false) (hspace : 6 ≤ slSpace s n)
    (hbad : fld s TBS_SL_BAD.COUNT < 2 ^ 32 - 1) :
    ∃ t, exec (.slEntryEnable n) s = .next t ∧ slEn t n = false ∧ slState t n = 4 ∧ Posted 142 s t ∧
      fld t TBS_SL_BAD.COUNT = fld s TBS_SL_BAD.COUNT + 1 ∧ n.val ∉ t.tbs.sl.wait ∧ t.tbs.sl.taken = s.tbs.sl.taken ∧
      (∀ m, m ≠ n.val → (m ∈ t.tbs.sl.wait ↔ m ∈ s.tbs.sl.wait)) ∧ t.tbs.tally = s.tbs.tally ∧ t.tbs.pacer = s.tbs.pacer := by
  have horder := slOrder_refused (n := n) (s := entryEnabled n s) true (by rw [slLinked_entryEnabled, hlinked])
    (by rw [slSpace_entryEnabled]; exact hspace)
  have hexec := exec_slEntryEnable hen
  have hlow := (lowKept_entryEnabled n s).trans (.slOrder n true (entryEnabled n s))
  rw [horder] at hexec hlow
  have htbs : (settle (raise 142 (entryRefused n (entryEnabled n s)))).tbs = (slForget n (entryEnabled n s)).tbs := by
    simp [tbs_entryRefused]
  have hsame : (slForget n (entryEnabled n s)).tbs.tally = s.tbs.tally ∧ (slForget n (entryEnabled n s)).tbs.pacer = s.tbs.pacer := ⟨rfl, rfl⟩
  refine ⟨_, hexec, ?_, ?_, hlow.posted (by decide) (mem_raise 142 _), ?_, ?_, ?_, fun m hm => ?_, by rw [htbs, hsame.1], by rw [htbs, hsame.2]⟩
  · rw [slEn_settle, slEn, flag, fld_raise, ← flag, ← slEn, slEn_entryRefused]
  · rw [slState_settle, slState, fld_raise, ← slState, slState_entryRefused]
  · rw [fld_settle_low _ (by decide), fld_raise, slBad_entryRefused (by rw [fld_entryEnabled_low n s (by decide)]; exact hbad),
      fld_entryEnabled_low n s (by decide)]
  · rw [htbs, mem_wait_slForget]
    exact fun h => h.2 rfl
  · rw [htbs, taken_slForget, tbs_entryEnabled]
  · rw [htbs, mem_wait_slForget, tbs_entryEnabled]
    exact and_iff_left hm

/-! ### Forgetting an entry (R63, R73) -/

/-- An entry that no longer waits reads IDLE instead of WAITING. -/
def slIdled (n : Nat) (s : State) : State := if slState (slForget n s) n = 1 then setSlState n 0 (slForget n s) else slForget n s

theorem slDisable_eq (n : Nat) (s : State) : slDisable n s = slIdled n (setFlag s (slFld n 0 31 1) false) := rfl

theorem slOrder_linked {n : Nat} {s : State} (judge : Bool) (h : slLinked s n = true) : slOrder n judge s = slIdled n s := by
  rw [slOrder_eq, if_pos h, slIdled]

theorem slEn_slIdled (m n : Nat) (s : State) : slEn (slIdled m s) n = slEn s n := by
  unfold slIdled
  split
  · rw [slEn_setSlState_any, slEn_slForget]
  · exact slEn_slForget m n s

theorem slState_slIdled (n : Nat) (s : State) : slState (slIdled n s) n = if slState s n = 1 then 0 else slState s n := by
  unfold slIdled
  rw [slState_slForget]
  split
  · exact slState_setSlState _ _ (by decide)
  · exact slState_slForget ..

theorem tbs_slIdled (n : Nat) (s : State) : (slIdled n s).tbs = (slForget n s).tbs := by
  unfold slIdled
  split
  · exact tbs_setSlState ..
  · rfl

theorem wait_slIdled (n : Nat) (s : State) : n ∉ (slIdled n s).tbs.sl.wait ∧ (slIdled n s).tbs.sl.taken = s.tbs.sl.taken := by
  rw [tbs_slIdled, mem_wait_slForget, taken_slForget]
  exact ⟨fun h => h.2 rfl, rfl⟩

/-- The clause of O17 about a chain member. -/
theorem entryEnable_linked {s : State} {n : Fin 2048} (hen : slEn s n = false) (hlinked : slLinked s n = true) :
    ∃ t, exec (.slEntryEnable n) s = .next t ∧
      slEn t n = true ∧ n.val ∉ t.tbs.sl.wait ∧ t.tbs.sl.taken = s.tbs.sl.taken := by
  have hexec := exec_slEntryEnable hen
  rw [slOrder_linked true (by rw [slLinked_entryEnabled, hlinked])] at hexec
  obtain ⟨hwait, htaken⟩ := wait_slIdled n (entryEnabled n s)
  refine ⟨_, hexec, ?_, by rw [tbs_settle]; exact hwait, by rw [tbs_settle, htaken, tbs_entryEnabled]⟩
  rw [slEn_settle, slEn_slIdled, slEn_entryEnabled]

theorem slEn_slDisable_same (n : Nat) (s : State) : slEn (slDisable n s) n = false := by
  rw [slDisable_eq, slEn_slIdled]
  exact flag_setFlag_same s (slFld n 0 31 1) false rfl (Nat.le_of_ble_eq_true rfl)

theorem slEn_slDisable_other {n m : Nat} (s : State) (h : n ≠ m) : slEn (slDisable m s) n = slEn s n := by
  rw [slDisable_eq, slEn_slIdled]
  exact flag_setFlag_apart (apart_entry (by decide) (by decide) (by decide) (by decide) (.inl h)) s false

theorem entryDisable_results {s : State} {n : Fin 2048} (hen : slEn s n = true) : ∃ t, exec (.slEntryDisable n) s = .next t ∧ slEn t n = false ∧
      n.val ∉ t.tbs.sl.wait ∧ slState t n = (if slState s n = 1 then 0 else slState s n) ∧ t.tbs.sl.taken = s.tbs.sl.taken := by
  have hexec : exec (.slEntryDisable n) s = .next (settle (slDisable n s)) := by
    change execSlEntryDisable n s = _
    rw [execSlEntryDisable, hen, if_pos rfl, done]
  have hstate : slState (setFlag s (slFld n 0 31 1) false) n = slState s n :=
    fld_setFlag_apart (apart_entry (by decide) (by decide) (by decide) (by decide) (.inr (.inr (.inl (by decide))))) s false
  obtain ⟨hwait, htaken⟩ := wait_slIdled n (setFlag s (slFld n 0 31 1) false)
  refine ⟨_, hexec, ?_, ?_, ?_, ?_⟩
  · rw [slEn_settle, slEn_slDisable_same]
  · rw [tbs_settle]
    exact hwait
  · rw [slState_settle, slDisable_eq, slState_slIdled, hstate]
  · rw [tbs_settle, slDisable_eq, htaken, tbs_setFlag]

/-! ### Rewriting a disabled entry (R73) -/

/-- The word of an entry that a write leaves. -/
def entryWord (n o : Nat) (w : Word) (s : State) : Word := (rd s (slAddr n o) &&& ~~~ slMask o) ||| (w &&& slMask o)

theorem slEn_wr {n o : Nat} (w : Word) (s : State) (ho : o ≠ 0) : slEn (wr s (slAddr n o) w) n = slEn s n := by
  have hne : slAddr n 0 ≠ slAddr n o := by
    unfold slAddr
    omega
  rw [slEn, slEn, flag, flag, fld, fld, slFld, rd_wr_other s w hne]

theorem slWrite_disabled {n o : Nat} {w : Word} {s : State} (hen : slEn s n = false) (ho : o ≠ 0) :
    slWrite n o w s = .next (if entryWord n o w s = rd s (slAddr n o) then s else wr s (slAddr n o) (entryWord n o w s)) := by
  unfold slWrite
  dsimp only
  rw [← entryWord, slEn_wr _ s ho, hen]
  by_cases hsame : entryWord n o w s = rd s (slAddr n o)
  · rw [if_pos hsame, if_pos hsame]
  · rw [if_neg hsame, if_neg hsame]
    rfl

theorem entryRewrite_results {s : State} {n : Fin 2048} (k : Fin 7) (w : Word) (hs : Settled s) (hen : slEn s n = false) :
    ∃ t, exec (.slEntryRewrite n k w) s = .next t ∧
      rd t (slAddr n (4 + k * 4)) = ((rd s (slAddr n (4 + k * 4)) &&& ~~~ slMask (4 + k * 4)) ||| (w &&& slMask (4 + k * 4))) ∧
      (∀ a, a ≠ slAddr n (4 + k * 4) → rd t a = rd s a) ∧ ∀ k, same k s t := by
  have hwrite := slWrite_disabled (w := w) (o := 4 + k * 4) hen (by omega)
  have hexec : ∀ u, slWrite n (4 + k * 4) w s = .next u → Settled u → exec (.slEntryRewrite n k w) s = .next u := by
    intro u hu hsettled
    change execSlEntryRewrite n k w s = _
    rw [execSlEntryRewrite, hu]
    exact done_settled_next hsettled
  rw [← entryWord]
  by_cases hsame : entryWord n (4 + k * 4) w s = rd s (slAddr n (4 + k * 4))
  · rw [if_pos hsame] at hwrite
    exact ⟨s, hexec s hwrite hs, hsame.symm, fun _ _ => rfl, fun k => by cases k <;> rfl⟩
  · rw [if_neg hsame] at hwrite
    exact ⟨_, hexec _ hwrite (settled_wr hs _ _), rd_wr_same .., fun a ha => rd_wr_other s _ ha, fun k => same_wr s _ _ k⟩

/-! ### The two commands of TBS_SL_CMD (R63, R402) -/

/-- A table lists what does not read as by default. -/
theorem mem_of_tget_ne {α : Type} {d : Nat → α} {t : Tab α} {k : Nat} (h : tget d t k ≠ d k) : (k, tget d t k) ∈ t := by
  induction t with
  | nil => exact absurd rfl h
  | cons q t ih =>
    obtain ⟨j, v⟩ := q
    unfold tget at h ⊢
    split
    · next hj => exact hj ▸ List.mem_cons_self
    · next hj =>
      rw [if_neg hj] at h
      exact List.mem_cons_of_mem _ (ih h)

/-- Entries read 0 after reset. -/
theorem resetWord_entry (n : Fin 2048) : resetWord (slAddr n 0) = 0 := by
  have hblock : (slAddr n 0 - 0xA0000000) / 0x10000 = 4097 := by
    unfold slAddr
    omega
  unfold resetWord
  rw [if_neg (by unfold slAddr; omega), hblock]
  rfl

/-- The enabled entries are listed. -/
theorem mem_slEnabled {s : State} {n : Fin 2048} (h : slEn s n = true) : n.val ∈ slEnabled s := by
  have hbit : fget (rd s (slAddr n 0)) 31 1 ≠ 0 := of_decide_eq_true h
  have hlisted : (slAddr n 0, rd s (slAddr n 0)) ∈ s.regs := by
    refine mem_of_tget_ne fun he => hbit ?_
    rw [rd, he, resetWord_entry]
    rfl
  have htest : nbit (rd s (slAddr n 0)).toNat 31 = true := by
    by_contra hno
    refine hbit (Nat.eq_of_testBit_eq fun i => ?_)
    rw [testBit_fget _ _ _ _ (by decide)]
    by_cases hi : i < 1
    · obtain rfl : i = 0 := by omega
      have hclear : (rd s (slAddr n 0)).getLsbD 31 = false := by simpa [nbit, BitVec.getLsbD] using hno
      rw [Nat.add_zero, hclear, Bool.and_false, Nat.zero_testBit]
    · simp [hi]
  refine List.mem_map.mpr ⟨_, List.mem_filter.mpr ⟨hlisted, ?_⟩, ?_⟩
  · have hrange : 0xB0010000 ≤ slAddr n 0 ∧ slAddr n 0 < 0xB0020000 ∧ slAddr n 0 % 32 = 0 := by
      unfold slAddr
      omega
    rw [decide_eq_true hrange, htest]
    rfl
  · unfold slAddr
    dsimp only
    omega

/-- Entries that are disabled one after another. -/
def entriesDisabled (l : List Nat) (s : State) : State := l.foldl (fun s n => slDisable n s) s

/-- Each of them is disabled in the end, and an entry that was so stays so. -/
theorem slEn_entriesDisabled {n : Nat} {l : List Nat} {s : State} (h : n ∈ l ∨ slEn s n = false) : slEn (entriesDisabled l s) n = false := by
  unfold entriesDisabled
  induction l generalizing s with
  | nil =>
    obtain h | h := h
    · cases h
    · exact h
  | cons m l ih =>
    refine ih ?_
    by_cases hm : n = m
    · exact .inr (hm ▸ slEn_slDisable_same n s)
    · rw [slEn_slDisable_other s hm]
      exact h.imp_left fun hmem => (List.mem_cons.mp hmem).resolve_left hm

theorem slEn_complete (n code : Nat) (s : State) : slEn (settle (complete TBS_SL_CMD code s)) n = slEn s n := by
  have hreg : (slFld n 0 31 1).reg ≠ TBS_SL_CMD := fun he => absurd (he ▸ slFld_reg_le n 0 31 1) (by decide)
  rw [slEn_settle, slEn, flag, fld_complete_other hreg, ← flag, ← slEn]

theorem disableSpace_results {s : State} {space : Fin 16} (h : space.val < 6) : ∃ t, exec (.disableSpace space) s = .next t ∧
      fld t TBS_SL_CMD.STATUS = 0 ∧ ∀ n : Fin 2048, slSpace s n = space.val → slLinked s n = false → slEn t n = false := by
  have hexec : exec (.disableSpace space) s = .next (settle (complete TBS_SL_CMD 0
      (entriesDisabled ((slEnabled s).filter (fun n => decide (slSpace s n = space.val) && !slLinked s n)) s))) := by
    change execDisableSpace space s = _
    rw [execDisableSpace, if_neg (by omega)]
    rfl
  refine ⟨_, hexec, (ends_settle_complete _ (by decide)).1, fun n hspace hlinked => ?_⟩
  rw [slEn_complete]
  refine slEn_entriesDisabled ?_
  by_cases hen : slEn s n = true
  · refine .inl (List.mem_filter.mpr ⟨mem_slEnabled hen, ?_⟩)
    rw [decide_eq_true hspace, hlinked]
    rfl
  · exact .inr (Bool.not_eq_true _ ▸ hen)

theorem disableSpace_refused {s : State} {space : Fin 16} (h : 6 ≤ space.val) : ∃ t, exec (.disableSpace space) s = .next t ∧
      fld t TBS_SL_CMD.STATUS = 3 ∧ t.tbs = s.tbs ∧ ∀ n : Fin 2048, slEn t n = slEn s n := by
  have hexec : exec (.disableSpace space) s = .next (settle (reject TBS_SL_CMD 3 s)) := by
    change execDisableSpace space s = _
    rw [execDisableSpace, if_pos h, done]
  refine ⟨_, hexec, ?_, by simp [reject], fun n => ?_⟩
  · rw [fld_settle_low _ (by decide)]
    exact fld_setFld_fits (f := TBS_SL_CMD.STATUS) s (by decide) (by decide)
  · rw [slEn_settle]
    exact flag_setFld_apart (apart_below (f := TBS_SL_CMD.STATUS) (by decide) (by decide) (by decide)) s 3

theorem disableAll_results (s : State) : ∃ t, exec .disableAll s = .next t ∧
    fld t TBS_SL_CMD.STATUS = 0 ∧ ∀ n : Fin 2048, slEn t n = false := by
  have hexec : exec .disableAll s = .next (settle (complete TBS_SL_CMD 0 (entriesDisabled (slEnabled s) s))) := rfl
  refine ⟨_, hexec, (ends_settle_complete _ (by decide)).1, fun n => ?_⟩
  rw [slEn_complete]
  refine slEn_entriesDisabled ?_
  by_cases hen : slEn s n = true
  · exact .inl (mem_slEnabled hen)
  · exact .inr (Bool.not_eq_true _ ▸ hen)

/-! ### Taking an entry (R62, R65) -/

theorem mem_slInsert (x : Taken) (l : List Taken) : x ∈ slInsert [x] l := by
  induction l with
  | nil => exact List.mem_cons_self
  | cons q t ih =>
    unfold slInsert
    dsimp only
    split
    · exact List.mem_append_left _ List.mem_cons_self
    · exact List.mem_cons_of_mem q ih

/-- The action of a one-shot entry that is taken on time. -/
def onTime (n cross eff : Nat) : Taken := { n := n, idx := n, cross := cross, eff := eff }

/-- The entry is taken, and waits no longer. -/
def takenOnce (n cross eff : Nat) (s : State) : State :=
  slForget n (setSlState n 2 (setSl { s.tbs.sl with taken := slInsert [onTime n cross eff] s.tbs.sl.taken } s))

theorem slTake_once {n cross eff : Nat} {s : State} (hper : slPeriodic s n = false) (hact : slAction s n ≠ 8) :
    slTake n cross eff false s = takenOnce n cross eff s := by
  unfold slTake slTaken
  dsimp only
  rw [hper, if_neg Bool.false_ne_true, if_neg Bool.false_ne_true, if_neg hact]
  rfl

theorem exec_slTake {s : State} {n : Fin 2048} {ofs : Nat} (hctrl : flag s TBS_SL_CTRL.EN = true) (hwait : n.val ∈ s.tbs.sl.wait)
    (hlate : ∀ q ∈ s.tbs.sl.lateFrom, q.1 ≠ n.val) (hdue : slDue (atOfs ofs s) n = true) (hper : slPeriodic s n = false)
    (hact : slAction s n ≠ 8) : exec (.slTake n ofs) s = .next (settle (takenOnce n (slCross (atOfs ofs s) n)
      (max (slBnd (atOfs ofs s) (lapAtOrAfter (slCross (atOfs ofs s) n))) ((atOfs ofs s).bnd + 1)) (atOfs ofs s))) := by
  have hctrl' : flag (atOfs ofs s) TBS_SL_CTRL.EN = true := hctrl
  have hwait' : n.val ∈ (atOfs ofs s).tbs.sl.wait := hwait
  have hfind : (atOfs ofs s).tbs.sl.lateFrom.find? (fun q => decide (q.1 = n.val)) = none :=
    List.find?_eq_none.mpr fun q hq => by simpa using hlate q hq
  have hper' : slPeriodic (atOfs ofs s) n = false := hper
  change execSlTake n ofs s = _
  rw [execSlTake]
  dsimp only
  rw [hctrl', decide_eq_true hwait', Bool.and_self, if_pos rfl, hfind]
  dsimp only
  rw [if_pos hdue, hper', if_neg (by simp), slTake_once hper' hact, done]

theorem slTake_results {s : State} {n : Fin 2048} {ofs : Nat} (hctrl : flag s TBS_SL_CTRL.EN = true) (hwait : n.val ∈ s.tbs.sl.wait)
    (hlate : ∀ q ∈ s.tbs.sl.lateFrom, q.1 ≠ n.val) (hdue : slDue (atOfs ofs s) n = true) (hper : slPeriodic s n = false)
    (hact : slAction s n ≠ 8) : ∃ t, exec (.slTake n ofs) s = .next t ∧ slState t n = 2 ∧ n.val ∉ t.tbs.sl.wait ∧
        ∃ q ∈ t.tbs.sl.taken, q.n = n.val ∧ q.cross = slCross (atOfs ofs s) n ∧
          q.eff = max (slBnd s (lapAtOrAfter q.cross)) (s.bnd + 1) ∧ q.late = false := by
  have hexec := exec_slTake hctrl hwait hlate hdue hper hact
  generalize slCross (atOfs ofs s) n = c at hexec ⊢
  refine ⟨_, hexec, ?_, ?_, onTime n c (max (slBnd s (lapAtOrAfter c)) (s.bnd + 1)), ?_, rfl, rfl, rfl, rfl⟩
  · rw [slState_settle, takenOnce, slState_slForget, slState_setSlState _ _ (by decide)]
  · rw [tbs_settle, takenOnce, mem_wait_slForget]
    exact fun h => h.2 rfl
  · rw [tbs_settle, takenOnce, taken_slForget, tbs_setSlState]
    exact mem_slInsert _ _

/-! ### POST_EVENT (R64) -/

namespace LowKept

theorem slLog (ws : List Word) (s : State) : LowKept s (slLog ws s) := by
  unfold Machine.slLog
  dsimp only
  refine (LowKept.trans (LowKept.trans (foldl (fun u q => wr u _ (by omega)) _ s) (setFld _ _ _ (by decide)))
    (ite (setFld _ _ _ (by decide)) (.refl _))).trans (count ..)

theorem slAfter (q : Taken) (s : State) : LowKept s (slAfter q s) :=
  ite (.refl s) (ite (.refl s) (ite (setSlState ..) (ite ((setFlag _ _ _ (slReg ..)).trans (setSlState ..)) (setSlState ..))))

theorem slFlush (k : Nat) (s : State) : LowKept s (slFlush k s) := by
  induction k generalizing s with
  | zero => exact .refl s
  | succ k ih =>
    unfold Machine.slFlush
    split
    · split
      · exact ite (((setSl ..).trans (slLog ..)).trans ((slAfter ..).trans (ih _))) (.refl s)
      · exact .refl s
    · exact .refl s

end LowKept

/-- An action that posts an event. -/
theorem slAct_posts {q : Taken} {stamp : Nat} {s : State} (hact : slActing s q = 6) (ht : (rd s (slAddr q.idx 0x14)).toNat < 128) :
    slAct q stamp s = raise (rd s (slAddr q.idx 0x14)).toNat s := by
  have hexists : slExists 6 (rd s (slAddr q.idx 0x14)) = true := decide_eq_true ht
  unfold slAct
  dsimp only
  rw [hact, hexists, if_pos rfl]
  exact if_pos ht

/-- The clause of O17 about POST_EVENT. -/
theorem postEvent_results {s : State} {ofs i : Nat} {q : Taken} (hnext : slNextAct (atOfs ofs s) = some i) (hq : s.tbs.sl.taken[i]? = some q)
    (hact : slActing s q = 6) (ht : (rd s (slAddr q.idx 0x14)).toNat < 128) : ∃ t, exec (.slActionEffect ofs) s = .next t ∧
      Posted (rd s (slAddr q.idx 0x14)).toNat s t ∧ t.mem = s.mem ∧ t.out = s.out := by
  have hq' : (atOfs ofs s).tbs.sl.taken[i]? = some q := hq
  have hacts : ∀ stamp, slAct q stamp (atOfs ofs s) = raise (rd s (slAddr q.idx 0x14)).toNat (atOfs ofs s) := fun stamp => slAct_posts hact ht
  have hexec : ∃ x, exec (.slActionEffect ofs) s =
      .next (settle (slFlush 16 (setSl x (raise (rd s (slAddr q.idx 0x14)).toNat (atOfs ofs s))))) := by
    change ∃ x, execSlActionEffect ofs s = _
    rw [execSlActionEffect]
    dsimp only
    rw [hnext]
    dsimp only
    rw [hq']
    dsimp only
    rw [hacts]
    exact ⟨_, rfl⟩
  obtain ⟨x, hexec⟩ := hexec
  have hmem : Comp.mem ∉ touches (.slActionEffect ofs) := by
    change Comp.mem ∉ [Comp.tbs, .red, .out, .ctl]
    decide
  have hat : LowKept s (atOfs ofs s) := .of_eq rfl rfl rfl
  have hlow := ((hat.trans (.raise (rd s (slAddr q.idx 0x14)).toNat _)).trans (.setSl x _)).trans (.slFlush 16 _)
  have hflush : ∀ u, (slFlush 16 u).out = u.out := fun u => same_of_allBut (k := .out) (slFlush_ok Ok.start rfl)
  refine ⟨_, hexec, hlow.posted (by omega) ((LowKept.slFlush 16 _).raised _ (mem_raise _ _)), mem_of_exec hexec hmem, ?_⟩
  rw [settle_same _ .out, hflush]
  simp [setSl]

/-- Settles O17, clause by clause: the list's EN, the three ways of enabling an entry, disabling and rewriting one, the commands of
TBS_SL_CMD, taking an entry, and POST_EVENT. -/
theorem startListEntries : Obligations.StartListEntries :=
  ⟨startListEnable_results, fun _ _ hctrl hen hlinked hspace hnone => entryEnable_waits hctrl hen hlinked hspace hnone,
    fun _ _ hen hlinked hspace hbad => entryEnable_refused hen hlinked hspace hbad, fun _ _ hen hlinked => entryEnable_linked hen hlinked,
    fun _ _ hen => entryDisable_results hen, fun _ _ k w hs hen => entryRewrite_results k w hs hen,
    fun _ _ _ h => disableSpace_results h, fun _ _ h => disableSpace_refused h, fun s _ => disableAll_results s,
    fun _ _ _ hctrl hwait hlate hdue hper hact => slTake_results hctrl hwait hlate hdue hper hact,
    fun _ _ _ _ hnext hq hact ht => postEvent_results hnext hq hact ht⟩

end Sys2Proof.Machine

namespace Sys2Proof.Machine
open Sys2Proof

/-! ### Records and status words of the banks -/

theorem bankOf_setBank_other {b d : Nat} (x : Bank) (s : State) (h : d ≠ b) : bankOf (setBank b x s) d = bankOf s d :=
  tget_tput_other _ _ x h

theorem excState_setExcState {b st : Nat} (s : State) (h : st < 8) : excState (setExcState b st s) b = st :=
  fld_setFld_fits s (f := AFE_BANKb_STATUS.EXC_STATE b) (Nat.le_of_ble_eq_true rfl) h

/-- The flags of a status word lie above EXC_STATE. -/
theorem excState_setStatusFlag {b lo : Nat} (v : Bool) (s : State) (h : 3 ≤ lo) (hlo : lo < 32) :
    excState (setFlag s ⟨AFE_BANKb_STATUS b, lo, 1⟩ v) b = excState s b :=
  fld_setFld_beside s (AFE_BANKb_STATUS.EXC_STATE b) _ _ rfl (Nat.le_of_ble_eq_true rfl) hlo (.inl h)

theorem rd_setExcState {a b : Nat} (st : Nat) (s : State) (h : a ≠ AFE_BANKb_STATUS b) : rd (setExcState b st s) a = rd s a :=
  rd_setFld_other s (AFE_BANKb_STATUS.EXC_STATE b) st a h

/-- The status words stand between the system's block and the Ledger's. -/
theorem bankStatus_bounds (b : Fin 16) : 0xA0000A00 ≤ AFE_BANKb_STATUS b ∧ AFE_BANKb_STATUS b < 0xA00D0000 := by
  unfold AFE_BANKb_STATUS
  omega

/-- Only the status word and the record of bank `b` differ. -/
structure BankOnly (b : Nat) (s t : State) : Prop where
  regs : ∀ a, a ≠ AFE_BANKb_STATUS b → rd t a = rd s a
  banks : ∀ d, d ≠ b → bankOf t d = bankOf s d
  fab : t.fab = s.fab

namespace BankOnly

variable {b : Nat} {s t u : State}

theorem trans (h : BankOnly b s t) (h' : BankOnly b t u) : BankOnly b s u where
  regs a ha := (h'.regs a ha).trans (h.regs a ha)
  banks d hd := (h'.banks d hd).trans (h.banks d hd)
  fab := h'.fab.trans h.fab

theorem setBank (x : Bank) (s : State) : BankOnly b s (setBank b x s) where
  regs _ _ := rfl
  banks _ hd := bankOf_setBank_other x s hd
  fab := rfl

theorem setStatus {f : Fld} (hf : f.reg = AFE_BANKb_STATUS b) (v : Nat) (s : State) : BankOnly b s (setFld s f v) where
  regs a ha := rd_setFld_other s f v a (hf ▸ ha)
  banks _ _ := rfl
  fab := rfl

theorem setExcState (st : Nat) (s : State) : BankOnly b s (setExcState b st s) := setStatus rfl st s

theorem settled (h : BankOnly b s t) (hs : Settled s) : Settled t := by rw [Settled, h.fab, hs]

end BankOnly

/-- A command that writes EXC_STATE and nothing else. -/
theorem setExcState_results {c : Instr} {b : Fin 16} {st : Nat} {s : State} (hst : st < 8) (hs : Settled s)
    (h : exec c s = done (setExcState b st s)) : ∃ t, exec c s = .next t ∧ excState t b = st ∧
      (∀ a, a ≠ AFE_BANKb_STATUS b → rd t a = rd s a) ∧ ∀ k, same k s t :=
  ⟨_, h.trans (done_settled_next hs), excState_setExcState s hst, fun _ ha => rd_setExcState st s ha, fun k => same_wr s _ _ k⟩

/-! ### EXC_APPLY (R87) -/

theorem nbit_toNat (mask : BitVec 16) (b : Nat) : nbit mask.toNat b = mask.getLsbD b := rfl

/-- A mask that names no tripped bank. -/
theorem none_tripped {s : State} {mask : BitVec 16} (h : ∀ b < 16, mask.getLsbD b = true → nbit (fld s AFE_STATUS.TRIPPED) b = false) :
    (List.range 16).any (fun b => nbit mask.toNat b && nbit (fld s AFE_STATUS.TRIPPED) b) = false := by
  rw [List.any_eq_false]
  intro b hb
  rw [nbit_toNat, Bool.and_eq_true]
  rintro ⟨hnamed, htripped⟩
  rw [h b (List.mem_range.mp hb) hnamed] at htripped
  cases htripped

theorem applyJudge_accepts {s : State} {mask : BitVec 16} (hup : anaUp s = true) (hpend : isPending s AFE_EXC_APPLY = false) (hmask : mask ≠ 0)
    (htrip : ∀ b < 16, mask.getLsbD b = true → nbit (fld s AFE_STATUS.TRIPPED) b = false) : applyJudge s mask.toNat = none := by
  have hne : mask.toNat ≠ 0 := fun e => hmask (BitVec.eq_of_toNat_eq e)
  rw [applyJudge, hup, none_tripped htrip, hpend, if_neg (by decide), if_neg (by decide), if_neg hne]

theorem applyJudge_empty {s : State} (hup : anaUp s = true) (hpend : isPending s AFE_EXC_APPLY = false) :
    applyJudge s (0 : BitVec 16).toNat = some 0 := by
  have htrip := none_tripped (s := s) (mask := 0) fun b _ hb => by simp at hb
  rw [applyJudge, hup, htrip, hpend, if_neg (by decide), if_neg (by decide), if_pos (by decide)]

theorem applyJudge_down {s : State} (mask : Nat) (hup : anaUp s = false) : applyJudge s mask = some 1 := by
  rw [applyJudge, hup]
  rfl

/-- No EXC_APPLY changes the front end before its boundary. -/
theorem afe_excApply {s t : State} {mask : BitVec 16} (h : exec (.excApply mask) s = .next t) : t.afe = s.afe :=
  exec_same (k := .afe) h (show Comp.afe ∉ [Comp.accepted] by decide)

theorem excApply_accepted {s : State} {mask : BitVec 16} (hs : Settled s) (h : applyJudge s mask.toNat = none) :
    ∃ t, exec (.excApply mask) s = .next t ∧ isPending t AFE_EXC_APPLY = true ∧ t.afe = s.afe ∧
      t.accepted = tins (tdrop s.accepted AFE_EXC_APPLY) AFE_EXC_APPLY ⟨s.bnd, tick s, clk s, w32 mask.toNat⟩ ∧
      ∀ a, a ≠ AFE_EXC_APPLY → rd t a = rd s a := by
  have hexec : exec (.excApply mask) s = .next (settle (accept AFE_EXC_APPLY (w32 mask.toNat) s)) := by
    change execExcApply mask s = _
    rw [execExcApply, h]
    rfl
  obtain ⟨hpend, haccepted, hrest⟩ := accepted_accept AFE_EXC_APPLY (w32 mask.toNat) s hs
  exact ⟨_, hexec, hpend, afe_excApply hexec, haccepted, hrest⟩

theorem excApply_completed {s : State} {mask : BitVec 16} (h : applyJudge s mask.toNat = some 0) :
    ∃ t, exec (.excApply mask) s = .next t ∧ fld t ⟨AFE_EXC_APPLY, 24, 8⟩ = 0 ∧ isPending t AFE_EXC_APPLY = false ∧ t.afe = s.afe := by
  have hexec : exec (.excApply mask) s = .next (settle (complete AFE_EXC_APPLY 0 s)) := by
    change execExcApply mask s = _
    rw [execExcApply, h]
    rfl
  obtain ⟨hcode, hpend⟩ := ended_complete AFE_EXC_APPLY 0 s (by decide) (outsideLdg_of (by decide))
  exact ⟨_, hexec, hcode, hpend, afe_excApply hexec⟩

theorem excApply_refused {s : State} {mask : BitVec 16} (h : applyJudge s mask.toNat = some 1) :
    ∃ t, exec (.excApply mask) s = .next t ∧ fld t ⟨AFE_EXC_APPLY, 24, 8⟩ = 1 ∧ Posted 238 s t ∧ t.afe = s.afe ∧ t.accepted = s.accepted := by
  have hexec : exec (.excApply mask) s = .next (settle (refuse AFE_EXC_APPLY s)) := by
    change execExcApply mask s = _
    rw [execExcApply, h]
    rfl
  obtain ⟨hcode, haccepted, -, -, hposted, -⟩ := refused_refuse AFE_EXC_APPLY s (outsideLdg_of (by decide)) (by decide) (by decide)
    (by decide) (by decide) fun c hc => watch_outside (n := 238) hc (by decide) _ (.inr (by decide))
  exact ⟨_, hexec, hcode, hposted, afe_excApply hexec, haccepted⟩

/-! ### The stages of a change (R88) -/

theorem excRampEnd_results {s : State} {b : Fin 16} (hs : Settled s) (hst : excState s b = 1) (hramp : (bankOf s b).ramp = 0) :
    ∃ t, exec (.excRampEnd b) s = .next t ∧ excState t b = 2 ∧
      bankOf t b = { bankOf s b with settle := fld s (AFE_BANKb_EXC_CFG.SETTLE b), level := (bankOf s b).target } ∧
      (∀ a, a ≠ AFE_BANKb_STATUS b → rd t a = rd s a) ∧ ∀ d, d ≠ b.val → bankOf t d = bankOf s d := by
  let x := { bankOf s b with settle := fld s (AFE_BANKb_EXC_CFG.SETTLE b), level := (bankOf s b).target }
  have hexec : exec (.excRampEnd b) s = done (setExcState b 2 (setBank b x s)) := if_pos (by simp [hst, hramp])
  have honly : BankOnly b s (setExcState b 2 (setBank b x s)) := (BankOnly.setBank x s).trans (.setExcState 2 _)
  exact ⟨_, hexec.trans (done_settled_next (honly.settled hs)), excState_setExcState _ (by decide), bankOf_setBank_same b x s, honly.regs,
    honly.banks⟩

theorem excSettleEnd_results {s : State} {b : Fin 16} (hs : Settled s) (hst : excState s b = 2) (hsettle : (bankOf s b).settle = 0) :
    ∃ t, exec (.excSettleEnd b) s = .next t ∧
      excState t b = (if (bankOf s b).mode = 0 then 0 else if 0 < (bankOf s b).blank then 5 else 3) ∧
      (∀ a, a ≠ AFE_BANKb_STATUS b → rd t a = rd s a) ∧ ∀ k, same k s t :=
  setExcState_results (by split <;> [decide; split <;> decide]) hs (if_pos (by simp [hst, hsettle]))

/-! ### Polarity reversal (R90, R91) -/

theorem blankLaps_eq (s : State) (b : Nat) : blankLaps s b = max (fld s (AFE_BANKb_EXC_CFG.REV_BLANK b))
    (if (bankOf s b).mode = 2 then 21 else (2 * (bankOf s b).target.natAbs + 6399) / 6400) := by
  rw [blankLaps, rampLaps, Int.natAbs_mul]
  rfl

/-- The bank at a reversal: its record and REV_POL. -/
def reversed (b : Nat) (s : State) : State :=
  setFlag (setBank b { bankOf s b with neg := !(bankOf s b).neg, target := -(bankOf s b).target, blank := blankLaps s b } s)
    (AFE_BANKb_STATUS.REV_POL b) (!(bankOf s b).neg)

/-- The driver at a reversal: one that was ON is BLANK where there are blank laps. -/
def reversalDriven (b : Nat) (s : State) : State :=
  if excState (reversed b s) b = 3 && decide (0 < blankLaps s b) then setExcState b 5 (reversed b s) else reversed b s

theorem exec_excReversal {s : State} {b : Fin 16} (h : reversalDue s b = true) : exec (.excReversal b) s = done (reversalDriven b s) := if_pos h

theorem excState_reversed (b : Nat) (s : State) : excState (reversed b s) b = excState s b :=
  excState_setStatusFlag _ _ (by decide) (by decide)

theorem bankOf_reversalDriven (b : Nat) (s : State) : bankOf (reversalDriven b s) b =
    { bankOf s b with neg := !(bankOf s b).neg, target := -(bankOf s b).target, blank := blankLaps s b } := by
  unfold reversalDriven
  split <;> exact bankOf_setBank_same b _ s

theorem revPol_reversalDriven (b : Nat) (s : State) : flag (reversalDriven b s) (AFE_BANKb_STATUS.REV_POL b) = !(bankOf s b).neg := by
  have hflag : flag (reversed b s) (AFE_BANKb_STATUS.REV_POL b) = !(bankOf s b).neg :=
    flag_setFlag_same _ _ _ rfl (Nat.le_of_ble_eq_true rfl)
  unfold reversalDriven
  split
  · rw [setExcState, flag_setFld_beside _ _ (by decide) (by decide) (by decide), hflag]
  · exact hflag

theorem excState_reversalDriven {b : Nat} {s : State} (hst : excState s b = 3) (hblank : 0 < blankLaps s b) :
    excState (reversalDriven b s) b = 5 := by
  rw [reversalDriven, if_pos (by simp [excState_reversed, hst, hblank]), excState_setExcState _ (by decide)]

theorem bankOnly_reversalDriven (b : Nat) (s : State) : BankOnly b s (reversalDriven b s) := by
  have hreversed : BankOnly b s (reversed b s) := (BankOnly.setBank _ s).trans (.setStatus rfl _ _)
  unfold reversalDriven
  split
  · exact hreversed.trans (.setExcState 5 _)
  · exact hreversed

theorem excReversal_results {s : State} {b : Fin 16} (hs : Settled s) (hdue : reversalDue s b = true) :
    ∃ t, exec (.excReversal b) s = .next t ∧
      (bankOf t b).neg = (!(bankOf s b).neg) ∧ (bankOf t b).target = -(bankOf s b).target ∧
      flag t (AFE_BANKb_STATUS.REV_POL b) = (!(bankOf s b).neg) ∧
      (bankOf t b).blank = max (fld s (AFE_BANKb_EXC_CFG.REV_BLANK b))
        (if (bankOf s b).mode = 2 then 21 else (2 * (bankOf s b).target.natAbs + 6399) / 6400) ∧
      (excState s b = 3 → 0 < (bankOf t b).blank → excState t b = 5) ∧ (∀ a, a ≠ AFE_BANKb_STATUS b → rd t a = rd s a) ∧
      ∀ d, d ≠ b.val → bankOf t d = bankOf s d := by
  have honly := bankOnly_reversalDriven b s
  refine ⟨_, (exec_excReversal hdue).trans (done_settled_next (honly.settled hs)), ?_, ?_, revPol_reversalDriven b s, ?_,
    fun hst hblank => excState_reversalDriven hst ?_, honly.regs, honly.banks⟩
  · rw [bankOf_reversalDriven]
  · rw [bankOf_reversalDriven]
  · rw [bankOf_reversalDriven, blankLaps_eq]
  · rwa [bankOf_reversalDriven] at hblank

/-- Settles O18: EXC_APPLY by what `applyJudge` answers, the stages of a change and of a reversal by one lemma per command. -/
theorem excitationChanges : Obligations.ExcitationChanges :=
  ⟨fun _ _ hs hup hpend hmask htrip => excApply_accepted hs (applyJudge_accepts hup hpend hmask htrip),
    fun _ hup hpend => excApply_completed (applyJudge_empty hup hpend), fun _ _ hup => excApply_refused (applyJudge_down _ hup),
    fun _ _ hs hst hramp => excRampEnd_results hs hst hramp, fun _ _ hs hst hsettle => excSettleEnd_results hs hst hsettle,
    fun _ _ hs hdue => excReversal_results hs hdue,
    fun _ _ hs hst hblank => setExcState_results (by decide) hs (if_pos (by simp [hst, hblank]))⟩

end Sys2Proof.Machine

namespace Sys2Proof.Machine
open Sys2Proof

/-! ### Events of a bank (R93, R94, R101) -/

theorem LowKept.setBank (b : Nat) (x : Bank) (s : State) : LowKept s (setBank b x s) := .of_eq rfl rfl rfl

/-- The bank's record is replaced, the flag at bit `lo` of its status word set and event `n` posted. -/
def bankFlagged (b n lo : Nat) (x : Bank) (s : State) : State := raise n (setFlag (setBank b x s) ⟨AFE_BANKb_STATUS b, lo, 1⟩ true)

theorem rd_bankFlagged {a b n lo : Nat} (x : Bank) (s : State) (h : a ≠ AFE_BANKb_STATUS b) : rd (bankFlagged b n lo x s) a = rd s a := by
  have hset := rd_setFld_other (setBank b x s) ⟨AFE_BANKb_STATUS b, lo, 1⟩ (bit true) a h
  simpa [bankFlagged, setFlag] using hset

theorem bankOf_bankFlagged (b n lo : Nat) (x : Bank) (s : State) : bankOf (bankFlagged b n lo x s) b = x := by
  rw [bankFlagged, bankOf_of_afe (s := setBank b x s) (by simp), bankOf_setBank_same]

theorem fld_bankFlagged (b n lo : Nat) (x : Bank) (s : State) (f : Fld) :
    fld (bankFlagged b n lo x s) f = fld (setFlag (setBank b x s) ⟨AFE_BANKb_STATUS b, lo, 1⟩ true) f := fld_raise ..

/-- What a command that ends in `bankFlagged` has done. -/
theorem bankFlagged_results {c : Instr} {b : Fin 16} {n lo : Nat} {x : Bank} {s : State} (hn : n < 256) (h3 : 3 ≤ lo) (hlo : lo < 32)
    (h : exec c s = done (bankFlagged b n lo x s)) : ∃ t, exec c s = .next t ∧ flag t ⟨AFE_BANKb_STATUS b, lo, 1⟩ = true ∧ Posted n s t ∧
      bankOf t b = x ∧ excState t b = excState s b ∧ ∀ a, OutsideLdg a → a ≠ AFE_BANKb_STATUS b → rd t a = rd s a := by
  obtain ⟨habove, hbelow⟩ := bankStatus_bounds b
  have hlow : LowKept s (bankFlagged b n lo x s) := ((LowKept.setBank b x s).trans (.setFlag _ _ _ habove)).trans (.raise n _)
  refine ⟨_, h, ?_, hlow.posted hn (mem_raise n _), by rw [bankOf_settle, bankOf_bankFlagged], ?_,
    fun a hl ha => by rw [rd_settle _ a hl, rd_bankFlagged x s ha]⟩
  · rw [flag_settle_low _ hbelow, flag, fld_bankFlagged]
    exact flag_setFlag_same _ _ true rfl hlo
  · rw [excState_settle, excState, fld_bankFlagged]
    exact excState_setStatusFlag true _ h3 hlo

theorem afeExcLimit_results {s : State} {b : Fin 16} (hdriving : driving s b = true) (hlimiting : (bankOf s b).limiting = false) :
    ∃ t, exec (.afeExcLimit b) s = .next t ∧ flag t (AFE_BANKb_STATUS.EXC_LIMIT b) = true ∧ Posted 146 s t ∧
      bankOf t b = { bankOf s b with limiting := true, limitLaps := 0 } ∧ excState t b = excState s b := by
  have hexec : exec (.afeExcLimit b) s = done (bankFlagged b 146 5 { bankOf s b with limiting := true, limitLaps := 0 } s) :=
    if_pos (by simp [hdriving, hlimiting])
  obtain ⟨t, ht, hflag, hposted, hbank, hstate, -⟩ := bankFlagged_results (by decide) (by decide) (by decide) hexec
  exact ⟨t, ht, hflag, hposted, hbank, hstate⟩

theorem afeSnsFault_results {s : State} {b : Fin 16} (hbad : (bankOf s b).snsBad = false) (hlow : 1024 ≤ (bankOf s b).snsLow) :
    ∃ t, exec (.afeSnsFault b) s = .next t ∧ flag t (AFE_BANKb_STATUS.SNS_FAULT b) = true ∧ (bankOf t b).snsBad = true ∧ Posted 148 s t := by
  have hexec : exec (.afeSnsFault b) s = done (bankFlagged b 148 7 { bankOf s b with snsBad := true } s) := if_pos (by simp [hbad, hlow])
  obtain ⟨t, ht, hflag, hposted, hbank, -, -⟩ := bankFlagged_results (by decide) (by decide) (by decide) hexec
  exact ⟨t, ht, hflag, by rw [hbank], hposted⟩

/-! ### A trip and its end (R93, R108) -/

/-- Setting one bit of AFE_STATUS.TRIPPED leaves the others. -/
theorem nbit_setTripped {b d : Nat} (s : State) (hd : d < 16) :
    nbit (fld (setFld s AFE_STATUS.TRIPPED (fld s AFE_STATUS.TRIPPED ||| 2 ^ b)) AFE_STATUS.TRIPPED) d =
      (nbit (fld s AFE_STATUS.TRIPPED) d || decide (b = d)) := by
  rw [fld_setFld_same _ _ _ (by decide), nbit, nbit, Nat.testBit_mod_two_pow, Nat.testBit_or, Nat.testBit_two_pow, decide_eq_true hd,
    Bool.true_and]

/-- The record of a driver that trips: nothing is driven, and nothing is under way. -/
def tripRecord (x : Bank) : Bank :=
  { x with ramp := 0, settle := 0, level := 0, target := 0, rev := none, blank := 0, limiting := false, limitLaps := 0 }

/-- The driver in TRIPPED. -/
def tripState (b : Nat) (s : State) : State := setExcState b 4 (setBank b (tripRecord (bankOf s b)) s)

/-- The trip with its bit and its event. -/
def tripped (b : Nat) (s : State) : State :=
  raise 147 (setFld (tripState b s) AFE_STATUS.TRIPPED (fld (tripState b s) AFE_STATUS.TRIPPED ||| 2 ^ b))

theorem exec_afeExcTrip {s : State} {b : Fin 16} (hdriving : driving s b = true) (hlaps : 1024 ≤ (bankOf s b).limitLaps) :
    exec (.afeExcTrip b) s = .next (settle (tripped b s)) := if_pos (by simp [hdriving, hlaps])

theorem bankOf_tripped (b : Nat) (s : State) : bankOf (tripped b s) b = tripRecord (bankOf s b) := by
  rw [tripped, bankOf_of_afe (s := tripState b s) (by simp)]
  exact bankOf_setBank_same b _ s

theorem tripped_tripState (b : Fin 16) (s : State) : fld (tripState b s) AFE_STATUS.TRIPPED = fld s AFE_STATUS.TRIPPED :=
  fld_setFld_reg _ _ _ _ (by simp only; omega)

theorem excState_tripped (b : Fin 16) (s : State) : excState (tripped b s) b = 4 := by
  rw [excState, tripped, fld_raise, fld_setFld_reg _ _ _ _ (by simp only; omega)]
  exact excState_setExcState _ (by decide)

theorem nbit_tripped (b : Fin 16) {d : Nat} (s : State) (hd : d < 16) :
    nbit (fld (tripped b s) AFE_STATUS.TRIPPED) d = (nbit (fld s AFE_STATUS.TRIPPED) d || decide (b.val = d)) := by
  rw [tripped, fld_raise, nbit_setTripped _ hd, tripped_tripState]

theorem rd_tripped {a b : Nat} (s : State) (h : a ≠ AFE_BANKb_STATUS b) (h' : a ≠ AFE_STATUS) : rd (tripped b s) a = rd s a := by
  have hraise : ∀ u, rd (raise 147 u) a = rd u a := fun u => by simp
  rw [tripped, hraise, rd_setFld_other _ _ _ _ h', tripState, rd_setExcState _ _ h, rd_setBank]

theorem lowKept_tripped (b : Fin 16) (s : State) : LowKept s (tripped b s) :=
  (((LowKept.setBank b _ s).trans (.setFld _ _ _ (bankStatus_bounds b).1)).trans (.setFld _ _ _ (by decide))).trans (.raise 147 _)

theorem afeExcTrip_results {s : State} {b : Fin 16} (hdriving : driving s b = true) (hlaps : 1024 ≤ (bankOf s b).limitLaps) :
    ∃ t, exec (.afeExcTrip b) s = .next t ∧
      excState t b = 4 ∧ nbit (fld t AFE_STATUS.TRIPPED) b = true ∧ Posted 147 s t ∧ (bankOf t b).level = 0 ∧ (bankOf t b).ramp = 0 ∧
      (∀ d < 16, d ≠ b.val → nbit (fld t AFE_STATUS.TRIPPED) d = nbit (fld s AFE_STATUS.TRIPPED) d) ∧
      rd t (AFE_BANKb_EXC_ACTIVE b) = rd s (AFE_BANKb_EXC_ACTIVE b) := by
  have hbits : fld (settle (tripped b s)) AFE_STATUS.TRIPPED = fld (tripped b s) AFE_STATUS.TRIPPED := fld_settle_low _ (by decide)
  have hbank : bankOf (settle (tripped b s)) b = tripRecord (bankOf s b) := by rw [bankOf_settle, bankOf_tripped]
  refine ⟨_, exec_afeExcTrip hdriving hlaps, by rw [excState_settle, excState_tripped], ?_,
    (lowKept_tripped b s).posted (by decide) (mem_raise 147 _), by rw [hbank, tripRecord], by rw [hbank, tripRecord], fun d hd hne => ?_, ?_⟩
  · rw [hbits, nbit_tripped b s b.isLt, decide_eq_true rfl, Bool.or_true]
  · rw [hbits, nbit_tripped b s hd, decide_eq_false (Ne.symm hne), Bool.or_false]
  · rw [rd_settle _ _ (outsideLdg_of (by simp only [AFE_BANKb_EXC_ACTIVE]; omega)), rd_tripped s]
    all_goals simp only [AFE_BANKb_EXC_ACTIVE, AFE_BANKb_STATUS, AFE_STATUS]; omega

/-- A command accepted in any state, with other events under way or not, is pending at the end of its step. -/
theorem settle_accept {a : Nat} (w : Word) (s : State) (h : OutsideLdg a) : isPending (settle (accept a w s)) a = true ∧
    (settle (accept a w s)).accepted = tins (tdrop s.accepted a) a ⟨s.bnd, tick s, clk s, w⟩ :=
  ⟨by rw [isPending, fld_settle _ _ h, ← isPending, accept_isPending], settle_same _ .accepted⟩

theorem resetTrip_results {s : State} {b : Fin 16} (hpend : isPending s (AFE_BANKb_CMD b) = false)
    (htrip : nbit (fld s AFE_STATUS.TRIPPED) b = true) : ∃ t, exec (.resetTrip b) s = .next t ∧ isPending t (AFE_BANKb_CMD b) = true ∧
      t.afe = s.afe ∧ t.accepted = tins (tdrop s.accepted (AFE_BANKb_CMD b)) (AFE_BANKb_CMD b) ⟨s.bnd, tick s, clk s, 1⟩ := by
  have hexec : exec (.resetTrip b) s = .next (settle (accept (AFE_BANKb_CMD b) 1 s)) := by
    change execResetTrip b s = _
    rw [execResetTrip, hpend, if_neg Bool.false_ne_true, if_pos htrip, done]
  obtain ⟨hpending, haccepted⟩ := settle_accept (a := AFE_BANKb_CMD b) 1 s (outsideLdg_of (by unfold AFE_BANKb_CMD; omega))
  exact ⟨_, hexec, hpending, exec_same (k := .afe) hexec (show Comp.afe ∉ [Comp.accepted] by decide), haccepted⟩

/-! ### Sense check and temperature input (R94, R101) -/

theorem snsFaultClear_results {s : State} {b : Fin 16} (hs : Settled s) (hbad : (bankOf s b).snsBad = true)
    (hhigh : 1024 ≤ (bankOf s b).snsHigh) : ∃ t, exec (.snsFaultClear b) s = .next t ∧
      bankOf t b = { bankOf s b with snsBad := false } ∧ t.regs = s.regs :=
  ⟨_, (if_pos (by simp [hbad, hhigh])).trans (done_settled_next hs), bankOf_setBank_same .., rfl⟩

/-- A 16-bit field holds a saturated value. -/
theorem signed16_unsignedOf_satSigned (x : Int) : signed 16 (unsignedOf 16 (satSigned 16 x)) = satSigned 16 x := by
  unfold signed unsignedOf satSigned
  dsimp only
  split
  · split <;> omega
  · split <;> split <;> omega

theorem sfld_setInt_same {f : Fld} (i : Int) (s : State) (h : f.lo + f.w ≤ 32) : sfld (setInt s f i) f = signed f.w (unsignedOf f.w i) := by
  rw [sfld, setInt, fld_setFld_fits s h (unsignedOf_lt ..)]

theorem ttemp_taken {s : State} {b : Fin 16} (temp : Int) (hs : Settled s) (hup : anaUp s = true) (hdue : (bankOf s b).ttAt ≤ tick s) :
    ∃ t, exec (.ttempUpdate b temp false) s = .next t ∧ sfld t (AFE_BANKb_TTEMP.TEMP b) = satSigned 16 temp ∧
      (bankOf t b).ttBad = false ∧ (bankOf t b).ttAt = tick s + 1024 ∧ ∀ a, a ≠ AFE_BANKb_TTEMP b → rd t a = rd s a := by
  let x := { bankOf s b with ttAt := tick s + 1024, ttBad := false }
  let u := setInt (setBank b x s) (AFE_BANKb_TTEMP.TEMP b) (satSigned 16 temp)
  have hexec : exec (.ttempUpdate b temp false) s = done u := if_pos (by simp [hup, hdue])
  have hbank : bankOf u b = x := bankOf_setBank_same b x s
  have htemp : sfld u (AFE_BANKb_TTEMP.TEMP b) = satSigned 16 temp :=
    (sfld_setInt_same _ _ (Nat.le_of_ble_eq_true rfl)).trans (signed16_unsignedOf_satSigned temp)
  exact ⟨u, hexec.trans (done_settled_next hs), htemp, by rw [hbank], by rw [hbank],
    fun a ha => rd_setFld_other (setBank b x s) (AFE_BANKb_TTEMP.TEMP b) _ a ha⟩

theorem ttemp_failed {s : State} {b : Fin 16} (temp : Int) (hup : anaUp s = true) (hdue : (bankOf s b).ttAt ≤ tick s)
    (hnew : (bankOf s b).ttBad = false ∨ flag s (AFE_BANKb_STATUS.TT_FAULT b) = false) :
    ∃ t, exec (.ttempUpdate b temp true) s = .next t ∧ flag t (AFE_BANKb_STATUS.TT_FAULT b) = true ∧ Posted 149 s t ∧
      rd t (AFE_BANKb_TTEMP b) = rd s (AFE_BANKb_TTEMP b) ∧ (bankOf t b).ttBad = true := by
  have hposts : (!(bankOf s b).ttBad || !flag s (AFE_BANKb_STATUS.TT_FAULT b)) = true := by simpa using hnew
  have hexec : exec (.ttempUpdate b temp true) s =
      done (bankFlagged b 149 6 { bankOf s b with ttAt := tick s + 1024, ttBad := true } s) := by
    change execTtempUpdate b temp true s = _
    rw [execTtempUpdate, if_pos (by simp [hup, hdue]), hposts]
    rfl
  obtain ⟨t, ht, hflag, hposted, hbank, -, hrest⟩ := bankFlagged_results (by decide) (by decide) (by decide) hexec
  refine ⟨t, ht, hflag, hposted, hrest _ (outsideLdg_of ?_) ?_, by rw [hbank]⟩
  all_goals simp only [AFE_BANKb_TTEMP, AFE_BANKb_STATUS]; omega

/-- Settles O19: the events of a bank by `bankFlagged_results`, the trip by the reads of `tripped`, the other commands by one lemma each. -/
theorem excitationLimitsAndSensors : Obligations.ExcitationLimitsAndSensors :=
  ⟨fun _ _ hdriving hlimiting => afeExcLimit_results hdriving hlimiting, fun _ _ hdriving hlaps => afeExcTrip_results hdriving hlaps,
    fun _ _ hpend htrip => resetTrip_results hpend htrip, fun _ _ hbad hlow => afeSnsFault_results hbad hlow,
    fun _ _ hs hbad hhigh => snsFaultClear_results hs hbad hhigh, fun _ _ temp hs hup hdue => ttemp_taken temp hs hup hdue,
    fun _ _ temp hup hdue hnew => ttemp_failed temp hup hdue hnew⟩

end Sys2Proof.Machine

namespace Sys2Proof.Machine
open Sys2Proof

/-! ### A fault of the reference while calibration runs (R119, R120) -/

/-- The fault puts a calibration that was in CALIBRATE in HELD. -/
theorem cnvRefFault_holds {s : State} (hready : refReady s = true) (hbad : 16 ≤ s.cnv.badRun) (hcal : calState s = 1) :
    ∃ t, exec .cnvRefFault s = .next t ∧ calState t = 4 := by
  let u := setFlag (setFlag s CNV_STATUS.REF_READY false) CNV_STATUS.REF_FAULT true
  have hu : calState u = 1 := by
    rw [calState, fld_setFlag_apart (by decide), fld_setFlag_apart (by decide), ← calState, hcal]
  have hholds : holdRunning u = hold u := if_pos (by simp [hu])
  refine ⟨_, if_pos (by simp [hready, hbad]), ?_⟩
  rw [calState, fld_settle_low _ (by decide), fld_raise]
  change fld (holdRunning u) _ = 4
  rw [hholds]
  exact fld_setFld_fits _ (by decide) (by decide)

/-- A hub in CALIBRATE whose ready reference has been outside ±0.5 % for 16 laps. -/
def faultyInCalibrate : State := setCnv { badRun := 16 } (setFlag (setCalState 1 State.reset) CNV_STATUS.REF_READY true)

/-- Refutes O21: its clause about CNV_REF_FAULT says that no register beside CNV_STATUS changes, but in CALIBRATE the fault also moves
CNV_CAL_STATUS to HELD, as R120 demands. -/
theorem not_calibrationCommands : ¬ Obligations.CalibrationCommands := by
  unfold Obligations.CalibrationCommands
  rintro ⟨-, -, hfault, -⟩
  have hready : refReady faultyInCalibrate = true := by decide +kernel
  have hcal : calState faultyInCalibrate = 1 := by decide +kernel
  obtain ⟨t, ht, -, -, -, hregs⟩ := hfault faultyInCalibrate hready (by decide)
  obtain ⟨u, hu, hheld⟩ := cnvRefFault_holds hready (by decide) hcal
  obtain rfl : t = u := by injection ht.symm.trans hu
  have hsame : calState t = calState faultyInCalibrate :=
    congrArg (fun w => fget w 0 3) (hregs CNV_CAL_STATUS (.inr (by decide)) (.inl (by decide)))
  rw [hheld, hcal] at hsame
  cases hsame

end Sys2Proof.Machine

namespace Sys2Proof.Machine
open Sys2Proof

/-! ### The fields that an operation of the conversion writes -/

theorem fld_whole (s : State) (a : Nat) : fld s ⟨a, 0, 32⟩ = (rd s a).toNat := by
  rw [fld, fget_eq _ _ (Nat.le_refl 32), pow_zero, Nat.div_one, Nat.mod_eq_of_lt (rd s a).isLt]

theorem rd_eq_of_fld {a : Nat} {s t : State} (h : fld t ⟨a, 0, 32⟩ = fld s ⟨a, 0, 32⟩) : rd t a = rd s a := by
  rw [fld_whole, fld_whole] at h
  exact BitVec.eq_of_toNat_eq h

/-- A field as a part of its register. -/
theorem fld_of_whole (s : State) (a lo : Nat) {w : Nat} (hw : w ≤ 32) : fld s ⟨a, lo, w⟩ = fld s ⟨a, 0, 32⟩ / 2 ^ lo % 2 ^ w := by
  rw [fld_whole, fld, fget_eq _ _ hw]

/-- A register written is its field of all 32 bits written. -/
theorem wr_w32 (s : State) (a v : Nat) : wr s a (w32 v) = setFld s ⟨a, 0, 32⟩ v := by
  have hset : fset (rd s a) 0 32 v = w32 v := by
    apply BitVec.eq_of_getLsbD_eq
    intro i hi
    rw [getLsb_fset _ _ _ _ _ (Nat.le_refl 32), getLsbD_w32 v hi, if_pos (by omega), Nat.sub_zero]
  rw [setFld, hset]

theorem cnv_settle (s : State) : (settle s).cnv = s.cnv := settle_same s .cnv

theorem cnv_raise (n : Nat) (s : State) : (raise n s).cnv = s.cnv := by simp

theorem fld_setCnv (x : Cnv) (s : State) (f : Fld) : fld (setCnv x s) f = fld s f := rfl

theorem fld_wr_apart {f : Fld} {a : Nat} (h : f.reg ≠ a) (s : State) (w : Word) : fld (wr s a w) f = fld s f := by
  rw [fld, rd_wr_other s w h, ← fld]

/-- The fields of `l` written with their values, in this order. -/
def setFlds (l : List (Fld × Nat)) (s : State) : State := l.foldl (fun s p => setFld s p.1 p.2) s

/-- Between `s` and `t` no field apart from those of `l` changed, nor a register of the core blocks, nor what was posted. -/
structure Writes (l : List Fld) (s t : State) : Prop where
  flds : ∀ f, l.Forall (Apart f) → fld t f = fld s f
  low : LowKept s t

namespace Writes

variable {l l' : List Fld} {s t u : State}

protected theorem refl (s : State) : Writes l s s := ⟨fun _ _ => rfl, .refl s⟩

theorem trans (h : Writes l s t) (h' : Writes l' t u) : Writes (l ++ l') s u where
  flds f hf := by
    obtain ⟨hl, hl'⟩ := List.forall_append.mp hf
    rw [h'.flds f hl', h.flds f hl]
  low := h.low.trans h'.low

theorem mono (h : Writes l s t) (hl : ∀ f, l'.Forall (Apart f) → l.Forall (Apart f)) : Writes l' s t := ⟨fun f hf => h.flds f (hl f hf), h.low⟩

theorem ite {c : Prop} [Decidable c] (ht : Writes l s t) (hu : Writes l s u) : Writes l s (if c then t else u) := by
  split
  · exact ht
  · exact hu

/-- A change beside registers, cores and events. -/
theorem of_eq (hr : t.regs = s.regs) (hc : t.cores = s.cores) (hf : t.fab = s.fab) : Writes l s t :=
  ⟨fun f _ => by rw [fld, fld, rd, rd, hr], .of_eq hr hc hf⟩

theorem setCnv (x : Cnv) (s : State) : Writes l s (setCnv x s) := of_eq rfl rfl rfl

theorem raise (n : Nat) (s : State) : Writes l s (raise n s) := ⟨fun f _ => fld_raise n s f, .raise n s⟩

theorem setFld (f : Fld) (v : Nat) (s : State) (h : 0xA0000A00 ≤ f.reg := by dsimp only; omega) : Writes [f] s (setFld s f v) :=
  ⟨fun _ hf => fld_setFld_apart hf s v, .setFld s f v h⟩

theorem setFlag (f : Fld) (b : Bool) (s : State) (h : 0xA0000A00 ≤ f.reg := by dsimp only; omega) : Writes [f] s (setFlag s f b) :=
  setFld f _ s h

theorem setInt (f : Fld) (i : Int) (s : State) (h : 0xA0000A00 ≤ f.reg := by dsimp only; omega) : Writes [f] s (setInt s f i) :=
  setFld f _ s h

theorem flag (h : Writes l s t) {f : Fld} (hf : l.Forall (Apart f)) : flag t f = flag s f := by rw [Machine.flag, h.flds f hf, ← Machine.flag]

/-- A register of which no field is written. -/
theorem rd (h : Writes l s t) {a : Nat} (ha : l.Forall (Apart ⟨a, 0, 32⟩)) : rd t a = rd s a := rd_eq_of_fld (h.flds _ ha)

theorem calRuns (h : Writes l s t) (hen : l.Forall (Apart CNV_CAL_CTRL.EN)) (hready : l.Forall (Apart CNV_STATUS.REF_READY))
    (hup : l.Forall (Apart AFE_STATUS.ANA_UP)) : calRuns t = calRuns s := by
  rw [Machine.calRuns, refReady, anaUp, h.flag hen, h.flag hready, h.flag hup]
  rfl

end Writes

theorem setFlds_writes {l : List (Fld × Nat)} (s : State) (h : l.Forall fun p => 0xA0000A00 ≤ p.1.reg) :
    Writes (l.map Prod.fst) s (setFlds l s) := by
  induction l generalizing s with
  | nil => exact .refl s
  | cons p l ih =>
    rw [List.forall_cons] at h
    exact (Writes.setFld p.1 p.2 s h.1).trans (ih _ h.2)

/-- Fields that lie apart hold what was written to each. -/
theorem fld_setFlds {l : List (Fld × Nat)} (s : State) (hreg : l.Forall fun p => 0xA0000A00 ≤ p.1.reg ∧ p.1.lo + p.1.w ≤ 32)
    (hapart : l.Pairwise fun p q => Apart p.1 q.1) : l.Forall fun p => fld (setFlds l s) p.1 = p.2 % 2 ^ p.1.w := by
  induction l generalizing s with
  | nil => trivial
  | cons p l ih =>
    rw [List.forall_cons] at hreg ⊢
    rw [List.pairwise_cons] at hapart
    refine ⟨?_, ih _ hreg.2 hapart.2⟩
    have hrest := setFlds_writes (l := l) (setFld s p.1 p.2) (hreg.2.imp fun _ => And.left)
    refine (hrest.flds p.1 ?_).trans (fld_setFld_same s p.1 p.2 hreg.1.2)
    rw [List.forall_map_iff, List.forall_iff_forall_mem]
    exact hapart.1

/-- The field of CNV_MAPk that names the slice of bank `b`. -/
abbrev mapFld (b : Nat) : Fld := ⟨CNV_MAPk (b / 4), b % 4 * 8, 5⟩

theorem setSliceOf_eq (b sl : Nat) (s : State) : setSliceOf b sl s = setFld s (mapFld b) sl := rfl

theorem spareOf_lt (s : State) : spareOf s < 32 := fget_lt _ _ _ (by decide)

theorem targetOf_lt (s : State) : targetOf s < 16 := fget_lt _ _ _ (by decide)

theorem nextTarget_writes (s : State) : Writes [CNV_CAL_STATUS.TARGET] s (nextTarget s) := by
  unfold nextTarget
  split
  · exact .setFld _ _ s
  · exact .setFld _ _ s

/-- Without a suspect slice the rotation goes on (R121, R125). -/
theorem targetOf_nextTarget {s : State} (h : s.cnv.suspects = []) (hnorm : s.cnv.norm < 16) : targetOf (nextTarget s) = s.cnv.norm := by
  have hnext : nextTarget s = setFld s CNV_CAL_STATUS.TARGET s.cnv.norm := by
    unfold nextTarget
    rw [h]
    rfl
  rw [hnext]
  exact fld_setFld_fits s (by decide) hnorm

theorem judgeCalValid_writes (s : State) : Writes [CNV_STATUS.CAL_VALID] s (judgeCalValid s) := by
  unfold judgeCalValid
  exact .ite (.setFlag _ _ s) (.refl s)

/-- The state in which slice `sl` has just become SUSPECT. -/
def newlySuspect (sl : Nat) (s : State) : State :=
  let s1 := raise 156 (setFlag s (CNV_SLICEs_STATUS.SUSPECT sl) true)
  setCnv { s1.cnv with suspects := s1.cnv.suspects ++ [sl] } s1

theorem suspect_eq (sl : Nat) (s : State) : suspect sl s = if flag s (CNV_SLICEs_STATUS.SUSPECT sl) then s
    else if calState (newlySuspect sl s) = 2 then newlySuspect sl s else nextTarget (newlySuspect sl s) := rfl

theorem newlySuspect_writes (sl : Nat) (s : State) : Writes [CNV_SLICEs_STATUS.SUSPECT sl] s (newlySuspect sl s) :=
  ((Writes.setFlag _ true s).trans (l' := []) (.raise 156 _)).trans (l' := []) (.setCnv _ _)

theorem suspect_writes (sl : Nat) (s : State) : Writes [CNV_SLICEs_STATUS.SUSPECT sl, CNV_CAL_STATUS.TARGET] s (suspect sl s) := by
  rw [suspect_eq]
  exact .ite (.refl s) (.ite ((newlySuspect_writes sl s).trans (.refl _)) ((newlySuspect_writes sl s).trans (nextTarget_writes _)))

theorem flag_newlySuspect (sl : Nat) (s : State) : flag (newlySuspect sl s) (CNV_SLICEs_STATUS.SUSPECT sl) = true := by
  rw [newlySuspect, flag, fld_setCnv, fld_raise, ← flag]
  exact flag_setFlag_same s _ true rfl (Nat.le_of_ble_eq_true rfl)

theorem mem_raised_newlySuspect (sl : Nat) (s : State) : 156 ∈ (newlySuspect sl s).fab.raised := mem_raise 156 _

/-- The slice is SUSPECT; if it was not before, the event is posted (R123, R125). -/
theorem suspect_results (sl : Nat) (s : State) : flag (suspect sl s) (CNV_SLICEs_STATUS.SUSPECT sl) = true ∧
    (flag s (CNV_SLICEs_STATUS.SUSPECT sl) = false → 156 ∈ (suspect sl s).fab.raised) := by
  have hflag := flag_newlySuspect sl s
  have hraised := mem_raised_newlySuspect sl s
  have hnext := nextTarget_writes (newlySuspect sl s)
  rw [suspect_eq]
  split
  next hwas => exact ⟨hwas, fun hnew => absurd (hwas.symm.trans hnew) (by decide)⟩
  next =>
    split
    · exact ⟨hflag, fun _ => hraised⟩
    · refine ⟨(hnext.flag ?_).trans hflag, fun _ => hnext.low.raised _ hraised⟩
      dsimp only [List.Forall, Apart]
      omega

end Sys2Proof.Machine

namespace Sys2Proof.Machine
open Sys2Proof

/-! ### The start of an epoch (R121, R125) -/

theorem setRole_writes (sl r : Nat) (s : State) : Writes [CNV_SLICEs_STATUS.ROLE sl] s (setRole sl r s) := .setFld _ r s

theorem setCalCount_writes (n : Nat) (s : State) : Writes [CNV_CAL_COUNT.LAPS] s (setCalCount n s) := .setFld _ n s

theorem setCalState_writes (st : Nat) (s : State) : Writes [CNV_CAL_STATUS.STATE] s (setCalState st s) := .setFld _ st s

/-- The slice's words and the calibration's record at the start of an epoch. -/
def epochSlice (s : State) : State :=
  let s1 := setFlag (setRole (spareOf s) (if calRuns s then 1 else 4) s) (CNV_SLICEs_STATUS.SUSPECT (spareOf s)) false
  setCnv { s1.cnv with ext := 0, paused := false, startDue := false, measured := false,
                       suspects := s1.cnv.suspects.filter (fun x => decide (x ≠ spareOf s)) } s1

theorem startEpoch_eq (s : State) : startEpoch s = setCalState (if calRuns (epochSlice s) then 1 else 4) (setCalCount 0 (epochSlice s)) := rfl

theorem epochSlice_writes (s : State) :
    Writes [CNV_SLICEs_STATUS.ROLE (spareOf s), CNV_SLICEs_STATUS.SUSPECT (spareOf s)] s (epochSlice s) :=
  ((setRole_writes _ _ s).trans (.setFlag _ _ _)).trans (l' := []) (.setCnv _ _)

theorem startEpoch_writes (s : State) : Writes [CNV_SLICEs_STATUS.ROLE (spareOf s), CNV_SLICEs_STATUS.SUSPECT (spareOf s), CNV_CAL_COUNT.LAPS,
    CNV_CAL_STATUS.STATE] s (startEpoch s) := by
  rw [startEpoch_eq]
  exact (epochSlice_writes s).trans ((setCalCount_writes _ _).trans (setCalState_writes _ _))

theorem calRuns_epochSlice (s : State) : calRuns (epochSlice s) = calRuns s := by
  apply (epochSlice_writes s).calRuns
  all_goals
    dsimp only [List.Forall, Apart]
    omega

theorem startEpoch_results {s : State} (hruns : calRuns s = true) : calState (startEpoch s) = 1 ∧ calCount (startEpoch s) = 0 ∧
    roleOf (startEpoch s) (spareOf s) = 1 := by
  rw [startEpoch_eq, calRuns_epochSlice, hruns, if_pos rfl]
  refine ⟨fld_setFld_fits _ (by decide) (by decide), ?_, ?_⟩
  · rw [calCount, setCalState, fld_setFld_apart (by decide)]
    exact fld_setFld_fits _ (by decide) (by decide)
  · rw [roleOf, setCalState, fld_setFld_apart (by dsimp only [Apart]; omega), setCalCount, fld_setFld_apart (by dsimp only [Apart]; omega),
      epochSlice, fld_setCnv, fld_setFlag_apart (by dsimp only [Apart]; omega), hruns, if_pos rfl]
    exact fld_setFld_fits s (Nat.le_of_ble_eq_true rfl) (Nat.le_of_ble_eq_true rfl)

theorem cnv_startEpoch (s : State) : (startEpoch s).cnv = { s.cnv with
    ext := 0, paused := false, startDue := false, measured := false, suspects := s.cnv.suspects.filter (fun x => decide (x ≠ spareOf s)) } := rfl

/-! ### The registers at a hand-over (R122, R123) -/

/-- The trim of the new slice: it cancels the difference that was measured, or is 0. -/
def trimGain (untrimmed : Bool) (p : Pairs) : Int :=
  if untrimmed then 0 else divHalfEven (-(fitGain p).1 * 2147483648) ((fitGain p).1 + (fitGain p).2)

def trimOfs (untrimmed : Bool) (p : Pairs) : Int :=
  if untrimmed then 0 else divHalfEven (-(fitOffset p).1 * (fitGain p).2 * 4096) ((fitOffset p).2 * ((fitGain p).1 + (fitGain p).2))

/-- CNV_HO_INFO of a hand-over of bank `b` from slice `out` to slice `sp`. -/
def handOverInfo (untrimmed : Bool) (b sp out : Nat) : Nat := 2 ^ 31 + bit untrimmed * 2 ^ 30 + sp * 2 ^ 16 + out * 2 ^ 8 + b

/-- What a hand-over of bank `b` from slice `out` to slice `sp` writes first: the trim, the map, the new slice's role and failures, the
spare, and the report. -/
def handOverFlds (untrimmed : Bool) (b sp out : Nat) (s : State) : List (Fld × Nat) :=
  [(CNV_SLICEs_TRIM_GAIN.VALUE sp, unsignedOf 32 (satSigned 32 (trimGain untrimmed s.cnv.pairs))),
    (CNV_SLICEs_TRIM_OFS.VALUE sp, unsignedOf 32 (satSigned 32 (trimOfs untrimmed s.cnv.pairs))),
    (mapFld b, sp), (CNV_SLICEs_STATUS.ROLE sp, 0), (CNV_SLICEs_STATUS.FAILS sp, 0), (CNV_CAL_STATUS.SPARE, out),
    (CNV_ROTATIONS.COUNT, (fld s CNV_ROTATIONS.COUNT + 1) % 2 ^ 32), (⟨CNV_HO_INFO, 0, 32⟩, handOverInfo untrimmed b sp out)]

/-- The state with these written. -/
def handedOver (untrimmed : Bool) (s : State) : State :=
  setFlds (handOverFlds untrimmed (targetOf s) (spareOf s) (sliceOf s (targetOf s)) s) s

/-- The model's form of it. -/
theorem handedOver_eq (untrimmed : Bool) (s : State) : handedOver untrimmed s =
    let b := targetOf s
    let sp := spareOf s
    let out := sliceOf s b
    let s1 := setInt (setInt s (CNV_SLICEs_TRIM_GAIN.VALUE sp) (satSigned 32 (trimGain untrimmed s.cnv.pairs)))
      (CNV_SLICEs_TRIM_OFS.VALUE sp) (satSigned 32 (trimOfs untrimmed s.cnv.pairs))
    let s3 := setFld (setFld (setRole sp 0 (setSliceOf b sp s1)) (CNV_SLICEs_STATUS.FAILS sp) 0) CNV_CAL_STATUS.SPARE out
    wr (addMod s3 CNV_ROTATIONS.COUNT 1) CNV_HO_INFO (w32 (handOverInfo untrimmed b sp out)) := by
  have htarget := targetOf_lt s
  have hspare := spareOf_lt s
  dsimp only
  rw [wr_w32, addMod, fld_setFld_apart (by decide), fld_setFld_apart (by dsimp only [Apart]; omega), setRole,
    fld_setFld_apart (by dsimp only [Apart]; omega), setSliceOf_eq, fld_setFld_apart (by dsimp only [Apart, CNV_MAPk]; omega),
    fld_setInt_apart (by dsimp only [Apart]; omega), fld_setInt_apart (by dsimp only [Apart]; omega)]
  rfl

/-- The record at a hand-over in state `s`: its lap, its residual and its mark, the next target of the rotation, and the slices matched
(R122, R133). -/
def handOverRecord (untrimmed : Bool) (b sp : Nat) (p : Pairs) (s : State) : Cnv :=
  let g := fitGain p
  let o := fitOffset p
  let resid := unsignedOf 16 (satSigned 16 (divHalfEven (g.1 * 100000000) g.2)) * 65536 +
    unsignedOf 16 (satSigned 16 (divHalfEven (o.1 * 1024) o.2))
  let norm := if b = s.cnv.norm then (b + 1) % 16 else s.cnv.norm
  { s.cnv with hoLap := lap s, hoResid := resid, hoNow := s.cnv.hoNow ||| 2 ^ b, norm := norm,
               matched := if untrimmed then s.cnv.matched else s.cnv.matched ||| 2 ^ sp }

/-- The fields and the record of a hand-over. -/
def handOverNoted (untrimmed : Bool) (s : State) : State :=
  setCnv (handOverRecord untrimmed (targetOf s) (spareOf s) s.cnv.pairs (handedOver untrimmed s)) (handedOver untrimmed s)

/-- The outgoing slice is SUSPECT where the trim is 0 (R123). -/
def handOverJudged (untrimmed : Bool) (s : State) : State :=
  if untrimmed then suspect (sliceOf s (targetOf s)) (handOverNoted untrimmed s) else handOverNoted untrimmed s

theorem handOver_eq (untrimmed : Bool) (s : State) :
    handOver untrimmed s = raise 154 (judgeCalValid (nextTarget (startEpoch (handOverJudged untrimmed s)))) := by
  rw [handOverJudged, handOverNoted, handedOver_eq]
  rfl

theorem handOverFlds_apart (untrimmed : Bool) {b sp : Nat} (out : Nat) (s : State) (hb : b < 16) (hsp : sp < 32) :
    (handOverFlds untrimmed b sp out s).Pairwise fun p q => Apart p.1 q.1 := by
  simp only [handOverFlds, List.pairwise_cons, List.mem_cons, List.not_mem_nil, or_false, forall_eq_or_imp, forall_eq, false_imp_iff, implies_true,
    List.Pairwise.nil, and_true, Apart, CNV_MAPk, CNV_HO_INFO]
  and_intros <;> omega

theorem handOverFlds_regs (untrimmed : Bool) (b sp out : Nat) (s : State) :
    (handOverFlds untrimmed b sp out s).Forall fun p => 0xA0000A00 ≤ p.1.reg ∧ p.1.lo + p.1.w ≤ 32 := by
  simp only [handOverFlds, List.Forall, CNV_MAPk, CNV_HO_INFO]
  and_intros <;> omega

theorem fld_handedOver (untrimmed : Bool) (s : State) : (handOverFlds untrimmed (targetOf s) (spareOf s) (sliceOf s (targetOf s)) s).Forall
    fun p => fld (handedOver untrimmed s) p.1 = p.2 % 2 ^ p.1.w :=
  fld_setFlds s (handOverFlds_regs ..) (handOverFlds_apart _ _ s (targetOf_lt s) (spareOf_lt s))

theorem handedOver_writes (untrimmed : Bool) (s : State) :
    Writes [CNV_SLICEs_TRIM_GAIN.VALUE (spareOf s), CNV_SLICEs_TRIM_OFS.VALUE (spareOf s), mapFld (targetOf s),
      CNV_SLICEs_STATUS.ROLE (spareOf s), CNV_SLICEs_STATUS.FAILS (spareOf s), CNV_CAL_STATUS.SPARE, CNV_ROTATIONS.COUNT,
      ⟨CNV_HO_INFO, 0, 32⟩] s (handedOver untrimmed s) :=
  setFlds_writes s ((handOverFlds_regs ..).imp fun _ => And.left)

theorem spareOf_handedOver {untrimmed : Bool} {s : State} (hout : sliceOf s (targetOf s) < 17) :
    spareOf (handedOver untrimmed s) = sliceOf s (targetOf s) := by
  obtain ⟨-, -, -, -, -, hspare, -⟩ := fld_handedOver untrimmed s
  exact hspare.trans (Nat.mod_eq_of_lt (Nat.lt_of_lt_of_le hout (Nat.le_of_ble_eq_true rfl)))

/-- A SUSPECT mark and the record leave the fields of the hand-over (R123). -/
theorem handOverJudged_writes (untrimmed : Bool) (s : State) :
    Writes [CNV_SLICEs_STATUS.SUSPECT (sliceOf s (targetOf s)), CNV_CAL_STATUS.TARGET] (handedOver untrimmed s) (handOverJudged untrimmed s) := by
  have hnoted : Writes [] (handedOver untrimmed s) (handOverNoted untrimmed s) := .setCnv _ _
  unfold handOverJudged
  exact .ite (hnoted.trans (suspect_writes _ _)) (hnoted.mono fun _ _ => trivial)

theorem spareOf_handOverJudged {untrimmed : Bool} {s : State} (hout : sliceOf s (targetOf s) < 17) :
    spareOf (handOverJudged untrimmed s) = sliceOf s (targetOf s) :=
  ((handOverJudged_writes untrimmed s).flds _ (by dsimp only [List.Forall, Apart]; omega)).trans (spareOf_handedOver hout)

/-- What follows the fields of a hand-over writes: the freed slice's marks and the next step (R121, R125, R133). -/
theorem handOver_writes {untrimmed : Bool} {s : State} (hout : sliceOf s (targetOf s) < 17) :
    Writes [CNV_SLICEs_STATUS.SUSPECT (sliceOf s (targetOf s)), CNV_SLICEs_STATUS.ROLE (sliceOf s (targetOf s)), CNV_CAL_COUNT.LAPS,
      CNV_CAL_STATUS.STATE, CNV_CAL_STATUS.TARGET, CNV_STATUS.CAL_VALID] (handedOver untrimmed s) (handOver untrimmed s) := by
  have hepoch := startEpoch_writes (handOverJudged untrimmed s)
  rw [spareOf_handOverJudged hout] at hepoch
  have hall := (((handOverJudged_writes untrimmed s).trans hepoch).trans (nextTarget_writes _)).trans
    ((judgeCalValid_writes _).trans (l' := []) (.raise 154 _))
  rw [handOver_eq]
  refine hall.mono fun f hf => ?_
  obtain ⟨hsuspect, hrole, hlaps, hstate, htarget, hvalid⟩ := hf
  exact ⟨hsuspect, htarget, hrole, hsuspect, hlaps, hstate, htarget, hvalid⟩

/-- At the end of the command every other field of the conversion is as the hand-over wrote it. -/
theorem fld_settle_handOver {untrimmed : Bool} {s : State} (hout : sliceOf s (targetOf s) < 17) {f : Fld} (hreg : f.reg < 0xA00D0000)
    (hf : [CNV_SLICEs_STATUS.SUSPECT (sliceOf s (targetOf s)), CNV_SLICEs_STATUS.ROLE (sliceOf s (targetOf s)), CNV_CAL_COUNT.LAPS,
      CNV_CAL_STATUS.STATE, CNV_CAL_STATUS.TARGET, CNV_STATUS.CAL_VALID].Forall (Apart f)) :
    fld (settle (handOver untrimmed s)) f = fld (handedOver untrimmed s) f :=
  (fld_settle_low _ hreg).trans ((handOver_writes hout).flds f hf)

section

variable {untrimmed : Bool} {s : State}

/-- The map after a hand-over (R122). -/
theorem map_handOver (hsp : spareOf s < 17) (hout : sliceOf s (targetOf s) < 17) :
    sliceOf (settle (handOver untrimmed s)) (targetOf s) = spareOf s ∧ spareOf (settle (handOver untrimmed s)) = sliceOf s (targetOf s) ∧
      ∀ b < 16, b ≠ targetOf s → sliceOf (settle (handOver untrimmed s)) b = sliceOf s b := by
  have htarget := targetOf_lt s
  obtain ⟨-, -, hmap, -⟩ := fld_handedOver untrimmed s
  have hkept : ∀ b < 16, sliceOf (settle (handOver untrimmed s)) b = fld (handedOver untrimmed s) (mapFld b) := fun b hb =>
    fld_settle_handOver (f := mapFld b) hout (by dsimp only [CNV_MAPk]; omega) (by dsimp only [List.Forall, Apart, CNV_MAPk]; omega)
  refine ⟨?_, ?_, fun b hb hne => ?_⟩
  · rw [hkept _ htarget, hmap]
    exact Nat.mod_eq_of_lt (Nat.lt_of_lt_of_le hsp (Nat.le_of_ble_eq_true rfl))
  · rw [spareOf, fld_settle_handOver hout (by decide) (by dsimp only [List.Forall, Apart]; omega), ← spareOf, spareOf_handedOver hout]
  · rw [hkept b hb]
    exact (handedOver_writes untrimmed s).flds (mapFld b) (by dsimp only [List.Forall, Apart, CNV_MAPk, CNV_HO_INFO]; omega)

/-- The words of the slice that takes the bank (R122 to R124). -/
theorem newSlice_handOver (hsp : spareOf s < 17) (hout : sliceOf s (targetOf s) < 17) (hne : sliceOf s (targetOf s) ≠ spareOf s) :
    roleOf (settle (handOver untrimmed s)) (spareOf s) = 0 ∧
      fld (settle (handOver untrimmed s)) (CNV_SLICEs_STATUS.FAILS (spareOf s)) = 0 ∧
      sfld (settle (handOver untrimmed s)) (CNV_SLICEs_TRIM_OFS.VALUE (spareOf s)) = satSigned 32 (trimOfs untrimmed s.cnv.pairs) ∧
      sfld (settle (handOver untrimmed s)) (CNV_SLICEs_TRIM_GAIN.VALUE (spareOf s)) = satSigned 32 (trimGain untrimmed s.cnv.pairs) := by
  obtain ⟨hgain, hofs, -, hrole, hfails, -⟩ := fld_handedOver untrimmed s
  have htrim : ∀ x, signed 32 (unsignedOf 32 (satSigned 32 x) % 2 ^ 32) = satSigned 32 x := fun x => by
    rw [Nat.mod_eq_of_lt (unsignedOf_lt ..), signed_unsignedOf_satSigned]
  refine ⟨(fld_settle_handOver hout ?_ ?_).trans hrole, (fld_settle_handOver hout ?_ ?_).trans hfails,
    (congrArg (signed 32) ((fld_settle_handOver hout ?_ ?_).trans hofs)).trans (htrim _),
    (congrArg (signed 32) ((fld_settle_handOver hout ?_ ?_).trans hgain)).trans (htrim _)⟩
  all_goals
    dsimp only [List.Forall, Apart]
    omega

/-- The report of the hand-over (R122, R123). -/
theorem report_handOver (hsp : spareOf s < 17) (hout : sliceOf s (targetOf s) < 17) :
    fld (settle (handOver untrimmed s)) CNV_ROTATIONS.COUNT = (fld s CNV_ROTATIONS.COUNT + 1) % 2 ^ 32 ∧
      flag (settle (handOver untrimmed s)) CNV_HO_INFO.VALID = true ∧ flag (settle (handOver untrimmed s)) CNV_HO_INFO.UNTRIMMED = untrimmed := by
  have htarget := targetOf_lt s
  obtain ⟨-, -, -, -, -, -, hcount, hinfo⟩ := fld_handedOver untrimmed s
  have hword : fld (settle (handOver untrimmed s)) ⟨CNV_HO_INFO, 0, 32⟩ =
      handOverInfo untrimmed (targetOf s) (spareOf s) (sliceOf s (targetOf s)) % 2 ^ 32 :=
    (fld_settle_handOver hout (by decide) (by dsimp only [List.Forall, Apart, CNV_HO_INFO]; omega)).trans hinfo
  refine ⟨?_, ?_, ?_⟩
  · refine (fld_settle_handOver hout (by decide) (by dsimp only [List.Forall, Apart]; omega)).trans (hcount.trans ?_)
    exact Nat.mod_mod _ _
  · rw [flag, fld_of_whole _ _ _ (by decide), hword, handOverInfo]
    cases untrimmed <;> simp only [bit] <;> simp <;> omega
  · rw [flag, fld_of_whole _ _ _ (by decide), hword, handOverInfo]
    cases untrimmed <;> simp only [bit] <;> simp <;> omega

end

/-! ### The step after a hand-over (R121, R125) -/

section

variable {untrimmed : Bool} {s : State}

/-- The freed slice begins its epoch (R121). -/
theorem nextStep_handOver (hout : sliceOf s (targetOf s) < 17) (hruns : calRuns s = true) :
    calState (settle (handOver untrimmed s)) = 1 ∧ calCount (settle (handOver untrimmed s)) = 0 ∧
      roleOf (settle (handOver untrimmed s)) (sliceOf s (targetOf s)) = 1 := by
  have htarget := targetOf_lt s
  have hjudged : calRuns (handOverJudged untrimmed s) = true := by
    rw [← hruns]
    apply ((handedOver_writes untrimmed s).trans (handOverJudged_writes untrimmed s)).calRuns
    all_goals
      dsimp only [List.append_eq, List.cons_append, List.nil_append, List.Forall, Apart, CNV_MAPk, CNV_HO_INFO]
      omega
  obtain ⟨hstate, hcount, hrole⟩ := startEpoch_results hjudged
  rw [spareOf_handOverJudged hout] at hrole
  have hafter : ∀ f, f.reg < 0xA00D0000 → [CNV_CAL_STATUS.TARGET, CNV_STATUS.CAL_VALID].Forall (Apart f) →
      fld (settle (handOver untrimmed s)) f = fld (startEpoch (handOverJudged untrimmed s)) f := fun f hreg hf => by
    rw [fld_settle_low _ hreg, handOver_eq, fld_raise]
    exact ((nextTarget_writes _).trans (judgeCalValid_writes _)).flds f hf
  refine ⟨(hafter _ ?_ ?_).trans hstate, (hafter _ ?_ ?_).trans hcount, (hafter _ ?_ ?_).trans hrole⟩
  all_goals
    dsimp only [List.Forall, Apart]
    omega

/-- An event posted on the way to the hand-over's end is posted (R122). -/
theorem lowKept_handOver (hout : sliceOf s (targetOf s) < 17) : LowKept s (handOver untrimmed s) :=
  (handedOver_writes untrimmed s).low.trans (handOver_writes hout).low

theorem posted154_handOver (hout : sliceOf s (targetOf s) < 17) : Posted 154 s (settle (handOver untrimmed s)) := by
  refine (lowKept_handOver hout).posted (by decide) ?_
  rw [handOver_eq]
  exact mem_raise 154 _

/-- A hand-over with trim 0 makes the freed slice SUSPECT (R123). -/
theorem posted156_handOver (hout : sliceOf s (targetOf s) < 17) (hnew : flag s (CNV_SLICEs_STATUS.SUSPECT (sliceOf s (targetOf s))) = false) :
    Posted 156 s (settle (handOver true s)) := by
  have hnoted : flag (handOverNoted true s) (CNV_SLICEs_STATUS.SUSPECT (sliceOf s (targetOf s))) = false := by
    have htarget := targetOf_lt s
    rw [← hnew, handOverNoted, flag, fld_setCnv, ← flag]
    exact (handedOver_writes true s).flag (by dsimp only [List.Forall, Apart, CNV_MAPk, CNV_HO_INFO]; omega)
  have hraised : 156 ∈ (handOverJudged true s).fab.raised := (suspect_results _ _).2 hnoted
  refine (lowKept_handOver hout).posted (by decide) ?_
  rw [handOver_eq]
  exact mem_raise_of_mem 154 ((((startEpoch_writes _).trans (nextTarget_writes _)).trans (judgeCalValid_writes _)).low.raised _ hraised)

theorem cnv_nextTarget (s : State) : (nextTarget s).cnv = s.cnv := by
  unfold nextTarget
  split <;> rfl

theorem cnv_judgeCalValid (s : State) : (judgeCalValid s).cnv = s.cnv := by
  unfold judgeCalValid
  dsimp only
  split <;> rfl

theorem cnv_setFlds (l : List (Fld × Nat)) (s : State) : (setFlds l s).cnv = s.cnv :=  by
  induction l generalizing s with
  | nil => rfl
  | cons p l ih => exact ih (setFld s p.1 p.2)

theorem lap_setFlds (l : List (Fld × Nat)) (s : State) : lap (setFlds l s) = lap s :=  by
  induction l generalizing s with
  | nil => rfl
  | cons p l ih => exact ih (setFld s p.1 p.2)

theorem cnv_handOverNoted (untrimmed : Bool) (s : State) : (handOverNoted untrimmed s).cnv =
    handOverRecord untrimmed (targetOf s) (spareOf s) s.cnv.pairs (handedOver untrimmed s) := rfl

/-- The record of a hand-over with a trim: its lap and its mark (R122). -/
theorem record_handOver (s : State) : (settle (handOver false s)).cnv.hoLap = lap s ∧
    nbit (settle (handOver false s)).cnv.hoNow (targetOf s) = true := by
  have hcnv : (settle (handOver false s)).cnv = (startEpoch (handOverNoted false s)).cnv := by
    rw [cnv_settle, handOver_eq, cnv_raise, cnv_judgeCalValid, cnv_nextTarget]
    rfl
  rw [hcnv, cnv_startEpoch, cnv_handOverNoted]
  refine ⟨lap_setFlds _ s, ?_⟩
  dsimp only [handOverRecord]
  rw [nbit, Nat.testBit_or, Nat.testBit_two_pow_self, Bool.or_true]

/-- The rotation goes on to the next bank where no slice is SUSPECT (R121, R125). -/
theorem target_handOver (hsuspects : s.cnv.suspects = []) (hnorm : targetOf s = s.cnv.norm) :
    targetOf (settle (handOver false s)) = (targetOf s + 1) % 16 := by
  have hcnv : (startEpoch (handOverJudged false s)).cnv.suspects = [] ∧
      (startEpoch (handOverJudged false s)).cnv.norm = (targetOf s + 1) % 16 := by
    rw [cnv_startEpoch, handOverJudged, if_neg Bool.false_ne_true, cnv_handOverNoted]
    dsimp only [handOverRecord]
    rw [handedOver, cnv_setFlds, hsuspects, if_pos hnorm]
    exact ⟨rfl, rfl⟩
  obtain ⟨hnone, hnext⟩ := hcnv
  rw [targetOf, fld_settle_low _ (by decide), handOver_eq, fld_raise,
    (judgeCalValid_writes _).flds _ (by dsimp only [List.Forall, Apart]; omega), ← hnext]
  exact targetOf_nextTarget hnone (by rw [hnext]; omega)

end

end Sys2Proof.Machine

namespace Sys2Proof.Machine
open Sys2Proof

/-! ### The end of an epoch (R121) -/

theorem rd_freshen (s : State) (a : Nat) : rd (freshen s) a = rd s a := rfl

theorem fab_setCnv (x : Cnv) (s : State) : (setCnv x s).fab = s.fab := rfl

/-- One coefficient of slice `sp` measured: the next free value. -/
def measureCoef (sp : Nat) (s : State) (k : Nat) : State :=
  wr (freshen s) (CNV_SLICEs_STAGE_GAIN1 sp + k * 4) (Config.epochCoef s.fresh k)

/-- The epoch's measurements. -/
def epochMeasured (s : State) : State := (List.range 14).foldl (measureCoef (spareOf s)) s

theorem exec_calEpochEnd {s : State} (hruns : calRuns s = true) (hstate : calState s = 1) (hcount : 65536 ≤ calCount s) :
    exec .calEpochEnd s = done (startOverlap (setCnv { (epochMeasured s).cnv with measured := true } (epochMeasured s))) :=
  if_pos (by simp [hruns, hstate, hcount])

theorem cnv_epochMeasured (s : State) : (epochMeasured s).cnv = s.cnv := foldl_keeps State.cnv (f := measureCoef (spareOf s)) (fun _ _ => rfl) _ s

theorem fab_epochMeasured (s : State) : (epochMeasured s).fab = s.fab := foldl_keeps State.fab (f := measureCoef (spareOf s)) (fun _ _ => rfl) _ s

/-- The registers below the slices' coefficients are as they were. -/
theorem fld_epochMeasured {f : Fld} (h : f.reg < 0xA0021000) (s : State) : fld (epochMeasured s) f = fld s f :=
  foldl_keeps (fun u => fld u f) (f := measureCoef (spareOf s))
    (fun u k => (fld_wr_apart (by dsimp only [CNV_SLICEs_STAGE_GAIN1]; omega) (freshen u) _).trans (by simp)) _ s

theorem fresh_measureCoef (sp n : Nat) (s : State) : ((List.range n).foldl (measureCoef sp) s).fresh = s.fresh + n := by
  induction n with
  | zero => rfl
  | succ n ih =>
    rw [List.range_succ, List.foldl_append]
    exact congrArg (· + 1) ih

/-- The slice gain is the thirteenth of them. -/
theorem gain_epochMeasured (s : State) : rd (epochMeasured s) (CNV_SLICEs_GAIN (spareOf s)) = Config.epochCoef (s.fresh + 12) 12 := by
  have hgain : CNV_SLICEs_GAIN (spareOf s) = CNV_SLICEs_STAGE_GAIN1 (spareOf s) + 12 * 4 := by
    dsimp only [CNV_SLICEs_GAIN, CNV_SLICEs_STAGE_GAIN1]
    omega
  rw [epochMeasured, List.range_succ, List.range_succ, List.foldl_append, List.foldl_append, List.foldl_cons, List.foldl_nil, List.foldl_cons,
    List.foldl_nil, measureCoef, rd_wr_other _ _ (by omega), rd_freshen, measureCoef, hgain, rd_wr_same, fresh_measureCoef]

theorem startOverlap_writes (s : State) : Writes [CNV_CAL_COUNT.LAPS, CNV_SLICEs_STATUS.ROLE (spareOf s), CNV_CAL_STATUS.STATE] s
    (startOverlap s) :=
  (Writes.setCnv (l := []) _ s).trans ((setCalCount_writes _ _).trans ((setRole_writes _ _ _).trans (setCalState_writes _ _)))

theorem cnv_startOverlap (s : State) : (startOverlap s).cnv = { s.cnv with ext := 0, pairs := {} } := rfl

theorem fab_startOverlap (s : State) : (startOverlap s).fab = s.fab := rfl

theorem startOverlap_results (s : State) : calState (startOverlap s) = 2 ∧ calCount (startOverlap s) = 65536 ∧
    roleOf (startOverlap s) (spareOf s) = 2 := by
  rw [startOverlap]
  refine ⟨fld_setFld_fits _ (by decide) (by decide), ?_, ?_⟩
  · rw [calCount, setCalState, fld_setFld_apart (by decide), setRole, fld_setFld_apart (by dsimp only [Apart]; omega)]
    exact fld_setFld_fits _ (by decide) (by decide)
  · rw [roleOf, setCalState, fld_setFld_apart (by dsimp only [Apart]; omega)]
    exact fld_setFld_fits _ (Nat.le_of_ble_eq_true rfl) (Nat.le_of_ble_eq_true rfl)

/-- The end of an epoch before its events: the measurements, then the overlap. -/
def epochEnded (s : State) : State := startOverlap (setCnv { (epochMeasured s).cnv with measured := true } (epochMeasured s))

theorem spareOf_epochMeasured (x : Cnv) (s : State) : spareOf (setCnv x (epochMeasured s)) = spareOf s := by
  rw [spareOf, fld_setCnv, fld_epochMeasured (by decide), ← spareOf]

/-- A field below the coefficients that the overlap does not write. -/
theorem fld_epochEnded {f : Fld} (hreg : f.reg < 0xA0021000) {s : State}
    (hf : [CNV_CAL_COUNT.LAPS, CNV_SLICEs_STATUS.ROLE (spareOf s), CNV_CAL_STATUS.STATE].Forall (Apart f)) :
    fld (epochEnded s) f = fld s f := by
  have hwrites := startOverlap_writes (setCnv { (epochMeasured s).cnv with measured := true } (epochMeasured s))
  rw [spareOf_epochMeasured] at hwrites
  rw [epochEnded, hwrites.flds f hf, fld_setCnv, fld_epochMeasured hreg]

theorem gain_epochEnded {s : State} (hsp : spareOf s < 17) :
    rd (epochEnded s) (CNV_SLICEs_GAIN (spareOf s)) = Config.epochCoef (s.fresh + 12) 12 := by
  have hwrites := startOverlap_writes (setCnv { (epochMeasured s).cnv with measured := true } (epochMeasured s))
  rw [spareOf_epochMeasured] at hwrites
  rw [epochEnded, hwrites.rd (by dsimp only [List.Forall, Apart, CNV_SLICEs_GAIN]; omega), ← gain_epochMeasured]
  rfl

theorem calEpochEnd_results {s : State} (hs : Settled s) (hruns : calRuns s = true) (hstate : calState s = 1) (hcount : 65536 ≤ calCount s)
    (hsp : spareOf s < 17) : ∃ t, exec .calEpochEnd s = .next t ∧ calState t = 2 ∧
      t.cnv = { s.cnv with measured := true, ext := 0, pairs := {} } ∧
      calCount t = 65536 ∧ roleOf t (spareOf s) = 2 ∧ spareOf t = spareOf s ∧ targetOf t = targetOf s ∧
      (∀ b < 16, sliceOf t b = sliceOf s b) ∧ (∀ sl < 17, sl ≠ spareOf s → roleOf t sl = roleOf s sl) ∧
      rd t (CNV_SLICEs_GAIN (spareOf s)) = Config.epochCoef (s.fresh + 12) 12 := by
  have hsettled : Settled (epochEnded s) := by
    rw [Settled, epochEnded, fab_startOverlap, fab_setCnv, fab_epochMeasured, hs]
  obtain ⟨hoverlap, hlaps, hrole⟩ := startOverlap_results (setCnv { (epochMeasured s).cnv with measured := true } (epochMeasured s))
  rw [spareOf_epochMeasured] at hrole
  refine ⟨epochEnded s, (exec_calEpochEnd hruns hstate hcount).trans (done_settled_next hsettled), hoverlap, ?_, hlaps, hrole,
    fld_epochEnded (by decide) ?_, fld_epochEnded (by decide) ?_, fun b hb => fld_epochEnded (f := mapFld b) ?_ ?_,
    fun sl hsl hne => fld_epochEnded (f := CNV_SLICEs_STATUS.ROLE sl) ?_ ?_, gain_epochEnded hsp⟩
  · rw [epochEnded, cnv_startOverlap, setCnv_cnv, cnv_epochMeasured]
  all_goals
    dsimp only [List.Forall, Apart, CNV_MAPk]
    omega

end Sys2Proof.Machine

namespace Sys2Proof.Machine
open Sys2Proof

/-! ### A match failure (R124) -/

/-- The failure is counted, marked and posted. -/
def matchFailed (s : State) : State :=
  raise 155 (setFlag (setFld s (CNV_SLICEs_STATUS.FAILS (spareOf s)) (fld s (CNV_SLICEs_STATUS.FAILS (spareOf s)) + 1))
    (CNV_SLICEs_STATUS.MATCH_FAIL (spareOf s)) true)

/-- The spare then has role `r`, and calibration state `st`. -/
def failedStep (r st : Nat) (s : State) : State := setCalState st (setCalCount 0 (setRole (spareOf s) r (matchFailed s)))

theorem matchFail_eq (s : State) : matchFail s = if 3 ≤ fld s (CNV_SLICEs_STATUS.FAILS (spareOf s)) + 1 then
    judgeCalValid (raise 157 (setFlag (failedStep 3 5 s) CNV_STATUS.NO_SPARE true))
  else setCnv { (matchFailed s).cnv with startDue := true, measured := false } (failedStep 1 1 s) := rfl

theorem matchFailed_writes (s : State) :
    Writes [CNV_SLICEs_STATUS.FAILS (spareOf s), CNV_SLICEs_STATUS.MATCH_FAIL (spareOf s)] s (matchFailed s) :=
  (Writes.setFld _ _ s).trans ((Writes.setFlag _ _ _).trans (l' := []) (.raise 155 _))

theorem failedStep_writes (r st : Nat) (s : State) :
    Writes [CNV_SLICEs_STATUS.ROLE (spareOf s), CNV_CAL_COUNT.LAPS, CNV_CAL_STATUS.STATE] (matchFailed s) (failedStep r st s) :=
  (setRole_writes _ _ _).trans ((setCalCount_writes _ _).trans (setCalState_writes _ _))

theorem matchFail_writes (s : State) : Writes [CNV_SLICEs_STATUS.ROLE (spareOf s), CNV_CAL_COUNT.LAPS, CNV_CAL_STATUS.STATE,
    CNV_STATUS.NO_SPARE, CNV_STATUS.CAL_VALID] (matchFailed s) (matchFail s) := by
  have hnone : Writes [CNV_STATUS.NO_SPARE] (failedStep 3 5 s) (raise 157 (setFlag (failedStep 3 5 s) CNV_STATUS.NO_SPARE true)) :=
    (Writes.setFlag _ _ _).trans (l' := []) (.raise 157 _)
  have hagain := (failedStep_writes 1 1 s).trans (l' := [])
    (.setCnv { (matchFailed s).cnv with startDue := true, measured := false } (failedStep 1 1 s))
  rw [matchFail_eq]
  refine .ite ((failedStep_writes 3 5 s).trans (hnone.trans (judgeCalValid_writes _))) (hagain.mono fun f hf => ?_)
  obtain ⟨hrole, hlaps, hstate, -⟩ := hf
  exact ⟨hrole, hlaps, hstate⟩

theorem failedStep_results {r st : Nat} (hr : r < 8) (hst : st < 8) (s : State) : calState (failedStep r st s) = st ∧
    calCount (failedStep r st s) = 0 ∧ roleOf (failedStep r st s) (spareOf s) = r := by
  rw [failedStep]
  refine ⟨fld_setFld_fits _ (by decide) hst, ?_, ?_⟩
  · rw [calCount, setCalState, fld_setFld_apart (by decide)]
    exact fld_setFld_fits _ (by decide) (by decide)
  · rw [roleOf, setCalState, fld_setFld_apart (by dsimp only [Apart]; omega), setCalCount, fld_setFld_apart (by dsimp only [Apart]; omega)]
    exact fld_setFld_fits _ (Nat.le_of_ble_eq_true rfl) hr

/-- What every match failure does (R124). -/
theorem matchFail_results {s : State} (hsp : spareOf s < 17) : (∀ b < 16, sliceOf (settle (matchFail s)) b = sliceOf s b) ∧
    targetOf (settle (matchFail s)) = targetOf s ∧ flag (settle (matchFail s)) (CNV_SLICEs_STATUS.MATCH_FAIL (spareOf s)) = true ∧
    Posted 155 s (settle (matchFail s)) := by
  have hwrites := (matchFailed_writes s).trans (matchFail_writes s)
  refine ⟨fun b hb => (fld_settle_low (f := mapFld b) _ ?_).trans (hwrites.flds (mapFld b) ?_),
    (fld_settle_low _ (by decide)).trans (hwrites.flds _ ?_), ?_, hwrites.low.posted (by decide) ?_⟩
  · dsimp only [CNV_MAPk]
    omega
  · dsimp only [List.append_eq, List.cons_append, List.nil_append, List.Forall, Apart, CNV_MAPk]
    omega
  · dsimp only [List.append_eq, List.cons_append, List.nil_append, List.Forall, Apart]
    omega
  · rw [flag_settle_low _ (by dsimp only; omega), (matchFail_writes s).flag (by dsimp only [List.Forall, Apart]; omega), matchFailed, flag,
      fld_raise, ← flag]
    exact flag_setFlag_same _ _ _ rfl (Nat.le_of_ble_eq_true rfl)
  · exact (matchFail_writes s).low.raised _ (mem_raise 155 _)

/-- The first or second failure in a row: a new epoch with the same target, and the count (R124). -/
theorem matchFail_again {s : State} (hsp : spareOf s < 17) (hfails : fld s (CNV_SLICEs_STATUS.FAILS (spareOf s)) < 2) :
    calState (settle (matchFail s)) = 1 ∧ calCount (settle (matchFail s)) = 0 ∧ (settle (matchFail s)).cnv.startDue = true ∧
      fld (settle (matchFail s)) (CNV_SLICEs_STATUS.FAILS (spareOf s)) = fld s (CNV_SLICEs_STATUS.FAILS (spareOf s)) + 1 := by
  obtain ⟨hstate, hcount, -⟩ := failedStep_results (r := 1) (st := 1) (by decide) (by decide) s
  have heq : matchFail s = setCnv { (matchFailed s).cnv with startDue := true, measured := false } (failedStep 1 1 s) := by
    rw [matchFail_eq, if_neg (by omega)]
  refine ⟨?_, ?_, ?_, ?_⟩
  · rw [calState, fld_settle_low _ (by decide), heq, fld_setCnv, ← calState, hstate]
  · rw [calCount, fld_settle_low _ (by decide), heq, fld_setCnv, ← calCount, hcount]
  · rw [cnv_settle, heq, setCnv_cnv]
  · rw [fld_settle_low _ (by dsimp only; omega), (matchFail_writes s).flds _ (by dsimp only [List.Forall, Apart]; omega), matchFailed, fld_raise,
      fld_setFlag_apart (by dsimp only [Apart]; omega)]
    exact fld_setFld_fits _ (Nat.le_of_ble_eq_true rfl) (by dsimp only; omega)

/-- The third failure in a row retires the spare (R124). -/
theorem matchFail_third {s : State} (hsp : spareOf s < 17) (hfails : fld s (CNV_SLICEs_STATUS.FAILS (spareOf s)) = 2) :
    calState (settle (matchFail s)) = 5 ∧ roleOf (settle (matchFail s)) (spareOf s) = 3 ∧
      flag (settle (matchFail s)) CNV_STATUS.NO_SPARE = true ∧ Posted 157 s (settle (matchFail s)) := by
  obtain ⟨hstate, -, hrole⟩ := failedStep_results (r := 3) (st := 5) (by decide) (by decide) s
  let u := setFlag (failedStep 3 5 s) CNV_STATUS.NO_SPARE true
  have heq : matchFail s = judgeCalValid (raise 157 u) := by
    rw [matchFail_eq, if_pos (by omega)]
  have hu : Writes [CNV_STATUS.NO_SPARE] (failedStep 3 5 s) u := .setFlag _ _ _
  have hjudge := judgeCalValid_writes (raise 157 u)
  refine ⟨?_, ?_, ?_, ((matchFailed_writes s).trans (matchFail_writes s)).low.posted (by decide) ?_⟩
  · rw [calState, fld_settle_low _ (by decide), heq, hjudge.flds _ (by dsimp only [List.Forall, Apart]; omega), fld_raise,
      hu.flds _ (by dsimp only [List.Forall, Apart]; omega), ← calState, hstate]
  · rw [roleOf, fld_settle_low _ (by dsimp only; omega), heq, hjudge.flds _ (by dsimp only [List.Forall, Apart]; omega), fld_raise,
      hu.flds _ (by dsimp only [List.Forall, Apart]; omega), ← roleOf, hrole]
  · rw [flag_settle_low _ (by decide), heq, hjudge.flag (by dsimp only [List.Forall, Apart]; omega), flag, fld_raise, ← flag]
    exact flag_setFlag_same _ _ _ rfl (by decide)
  · rw [heq]
    exact hjudge.low.raised _ (mem_raise 157 u)

end Sys2Proof.Machine

namespace Sys2Proof.Machine
open Sys2Proof

/-! ### Tracking (R125, R133) -/

theorem clampInt_bounds {lo hi : Int} (h : lo ≤ hi) (x : Int) : lo ≤ clampInt lo hi x ∧ clampInt lo hi x ≤ hi := by
  unfold clampInt
  split
  · omega
  · split <;> omega

/-- A number held between `-r` and `r`. -/
theorem natAbs_clampInt_le {r : Int} (hr : 0 ≤ r) (x : Int) : ((clampInt (-r) r x).natAbs : Int) ≤ r := by
  obtain ⟨hlo, hhi⟩ := clampInt_bounds (lo := -r) (hi := r) (by omega) x
  omega

/-- What a gain step of `n` leaves to the offset (R125). -/
theorem natAbs_clampInt_room_le (n : Nat) (x : Int) : (clampInt (-(((1638 - n : Nat) : Int) / 8)) (((1638 - n : Nat) : Int) / 8) x).natAbs ≤ 204 := by
  have hroom := natAbs_clampInt_le (r := ((1638 - n : Nat) : Int) / 8) (by omega) x
  omega

/-- Slice `k` has the same gain and offset in both states. -/
def SameWords (k : Nat) (s t : State) : Prop :=
  fld t (CNV_SLICEs_GAIN.VALUE k) = fld s (CNV_SLICEs_GAIN.VALUE k) ∧ fld t (CNV_SLICEs_OFS.VALUE k) = fld s (CNV_SLICEs_OFS.VALUE k)

/-- The gain and offset of slice `k` in `t` lie within the moves of one block of those in `s` (R125). -/
def TrackedFrom (k : Nat) (s t : State) : Prop :=
  ((fld t (CNV_SLICEs_GAIN.VALUE k) : Int) - fld s (CNV_SLICEs_GAIN.VALUE k)).natAbs ≤ 1638 ∧
    (sfld t (CNV_SLICEs_OFS.VALUE k) - sfld s (CNV_SLICEs_OFS.VALUE k)).natAbs ≤ 204

theorem TrackedFrom.congr {k : Nat} {s s' t t' : State} (h : TrackedFrom k s t) (hs : SameWords k s s') (ht : SameWords k t t') :
    TrackedFrom k s' t' := by
  unfold TrackedFrom sfld at *
  rwa [hs.1, hs.2, ht.1, ht.2]

theorem TrackedFrom.refl (k : Nat) (s : State) : TrackedFrom k s s := by simp [TrackedFrom]

theorem trackSlice_idle {s : State} {sl : Nat} (h : roleOf s sl ≠ 0) : trackSlice s sl = s := if_neg h

/-- An adjustment moves the gain word by at most 1638 and the offset by at most 204. -/
theorem trackSlice_moves {s : State} {sl : Nat} (h : roleOf s sl = 0) : ∃ dg d : Int, dg.natAbs ≤ 1638 ∧ d.natAbs ≤ 204 ∧
    trackSlice s sl =
      let s2 := setInt (freshen (freshen s)) (CNV_SLICEs_GAIN.VALUE sl) (clampInt 0 4294967295 ((rd s (CNV_SLICEs_GAIN sl)).toNat + dg))
      setInt s2 (CNV_SLICEs_OFS.VALUE sl) (satSigned 32 (sfld s2 (CNV_SLICEs_OFS.VALUE sl) + d)) := by
  refine ⟨_, _, ?_, ?_, if_pos h⟩
  · exact Int.ofNat_le.mp (natAbs_clampInt_le (by decide) _)
  · exact natAbs_clampInt_room_le _ _

theorem trackSlice_writes (s : State) (sl : Nat) : Writes [CNV_SLICEs_GAIN.VALUE sl, CNV_SLICEs_OFS.VALUE sl] s (trackSlice s sl) := by
  by_cases h : roleOf s sl = 0
  · obtain ⟨dg, d, -, -, heq⟩ := trackSlice_moves h
    rw [heq]
    have hfresh : Writes [] s (freshen (freshen s)) := .of_eq rfl rfl rfl
    exact hfresh.trans ((Writes.setInt _ _ _).trans (.setInt _ _ _))
  · rw [trackSlice_idle h]
    exact .refl s

/-- A number of 32 bits, moved and held to 32 bits, has moved no further. -/
theorem natAbs_clampInt_sub_le {g : Nat} (hg : g < 2 ^ 32) (d : Int) :
    (((unsignedOf 32 (clampInt 0 4294967295 (g + d)) : Nat) : Int) - g).natAbs ≤ d.natAbs := by
  unfold unsignedOf clampInt
  split
  · omega
  · split <;> omega

theorem natAbs_satSigned_sub_le {x : Int} (hlo : -2 ^ 31 ≤ x) (hhi : x < 2 ^ 31) (d : Int) : (satSigned 32 (x + d) - x).natAbs ≤ d.natAbs := by
  unfold satSigned
  dsimp only
  split
  · omega
  · split <;> omega

theorem signed_bounds (x : Nat) : -2 ^ 31 ≤ signed 32 x ∧ signed 32 x < 2 ^ 31 := by
  unfold signed
  dsimp only
  split <;> omega

theorem trackSlice_trackedFrom (s : State) (sl : Nat) : TrackedFrom sl s (trackSlice s sl) := by
  by_cases h : roleOf s sl = 0
  case neg =>
    rw [trackSlice_idle h]
    exact .refl sl s
  obtain ⟨dg, d, hdg, hd, heq⟩ := trackSlice_moves h
  let u := setInt (freshen (freshen s)) (CNV_SLICEs_GAIN.VALUE sl) (clampInt 0 4294967295 ((rd s (CNV_SLICEs_GAIN sl)).toNat + dg))
  have hgain : fld (trackSlice s sl) (CNV_SLICEs_GAIN.VALUE sl) = unsignedOf 32 (clampInt 0 4294967295 ((rd s (CNV_SLICEs_GAIN sl)).toNat + dg)) := by
    rw [heq, fld_setInt_apart (by dsimp only [Apart]; omega)]
    exact fld_setFld_fits _ (Nat.le_of_ble_eq_true rfl) (unsignedOf_lt ..)
  have hofs : sfld u (CNV_SLICEs_OFS.VALUE sl) = sfld s (CNV_SLICEs_OFS.VALUE sl) := by
    rw [sfld, fld_setInt_apart (by dsimp only [Apart]; omega)]
    rfl
  have hset : sfld (trackSlice s sl) (CNV_SLICEs_OFS.VALUE sl) = satSigned 32 (sfld s (CNV_SLICEs_OFS.VALUE sl) + d) := by
    rw [heq, sfld_setInt_same _ _ (Nat.le_of_ble_eq_true rfl), ← hofs]
    exact signed_unsignedOf_satSigned _
  obtain ⟨hlo, hhi⟩ := signed_bounds (fld s (CNV_SLICEs_OFS.VALUE sl))
  refine ⟨?_, ?_⟩
  · rw [hgain, show fld s (CNV_SLICEs_GAIN.VALUE sl) = _ from fld_whole s _]
    exact (natAbs_clampInt_sub_le (rd s (CNV_SLICEs_GAIN sl)).isLt dg).trans hdg
  · rw [hset]
    exact (natAbs_satSigned_sub_le hlo hhi d).trans hd

theorem trackSlice_other {k sl : Nat} (h : sl ≠ k) (s : State) : SameWords k s (trackSlice s sl) := by
  refine ⟨(trackSlice_writes s sl).flds _ ?_, (trackSlice_writes s sl).flds _ ?_⟩
  all_goals
    dsimp only [List.Forall, Apart]
    omega

/-- The state once the gains and offsets of a block's end are set. -/
def trackedSlices (s : State) : State := if calState s = 3 then s else (List.range 17).foldl trackSlice s

/-- A field that is no slice's gain or offset. -/
theorem fld_trackedSlices {f : Fld} (hf : ∀ sl, [CNV_SLICEs_GAIN.VALUE sl, CNV_SLICEs_OFS.VALUE sl].Forall (Apart f)) (s : State) :
    fld (trackedSlices s) f = fld s f := by
  unfold trackedSlices
  split
  · rfl
  · exact foldl_keeps (fun u => fld u f) (f := trackSlice) (fun u sl => (trackSlice_writes u sl).flds f (hf sl)) _ s

theorem lowKept_trackedSlices (s : State) : LowKept s (trackedSlices s) :=
  .ite (.refl s) (.foldl (fun u sl => (trackSlice_writes u sl).low) _ s)

theorem cnv_trackSlice (s : State) (sl : Nat) : (trackSlice s sl).cnv = s.cnv := by
  unfold trackSlice
  split <;> rfl

theorem cnv_trackedSlices (s : State) : (trackedSlices s).cnv = s.cnv := by
  unfold trackedSlices
  split
  · rfl
  · exact foldl_keeps State.cnv cnv_trackSlice _ s

theorem trackedFrom_trackedSlices {k : Nat} (hk : k < 17) (s : State) : TrackedFrom k s (trackedSlices s) := by
  unfold trackedSlices
  split
  · exact .refl k s
  · exact foldl_own (x := k) (P := SameWords k s) (Q := TrackedFrom k s)
      (fun u y hy hu => ⟨(trackSlice_other hy u).1.trans hu.1, (trackSlice_other hy u).2.trans hu.2⟩)
      (fun u hu => (trackSlice_trackedFrom u k).congr ⟨hu.1.symm, hu.2.symm⟩ ⟨rfl, rfl⟩)
      (fun u y hy hu => hu.congr ⟨rfl, rfl⟩ (trackSlice_other hy u)) List.nodup_range (List.mem_range.mpr hk) ⟨rfl, rfl⟩

theorem roleOf_trackSlice {k : Nat} (hk : k < 17) (s : State) (sl : Nat) : roleOf (trackSlice s sl) k = roleOf s k :=
  (trackSlice_writes s sl).flds _ (by dsimp only [List.Forall, Apart]; omega)

/-- A slice out of service keeps its words, and in PAUSED every slice does (R133). -/
theorem sameWords_trackedSlices {k : Nat} (hk : k < 17) {s : State} (h : roleOf s k ≠ 0 ∨ calState s = 3) : SameWords k s (trackedSlices s) := by
  unfold trackedSlices
  split
  · exact ⟨rfl, rfl⟩
  next hcal =>
    have hrole := h.resolve_right hcal
    refine (List.foldlRecOn (motive := fun u => roleOf u k ≠ 0 ∧ SameWords k s u) _ _ ⟨hrole, rfl, rfl⟩ fun u hu sl _ => ?_).2
    by_cases hsl : sl = k
    · rw [hsl, trackSlice_idle hu.1]
      exact hu
    · obtain ⟨hgain, hofs⟩ := trackSlice_other hsl u
      exact ⟨(roleOf_trackSlice hk u sl).trans_ne hu.1, hgain.trans hu.2.1, hofs.trans hu.2.2⟩

/-! ### Faulty slices (R125) -/

theorem trackJudge_writes (s : State) (sl : Nat) :
    Writes [CNV_SLICEs_STATUS.TRACK_FAULT sl, CNV_SLICEs_STATUS.SUSPECT sl, CNV_CAL_STATUS.TARGET] s (trackJudge s sl) := by
  unfold trackJudge
  exact .ite ((Writes.setFlag _ _ _).trans (suspect_writes sl _)) (.refl s)

theorem track_newlySuspect (sl : Nat) (s : State) : (newlySuspect sl s).cnv.track = s.cnv.track := by
  rw [newlySuspect, setCnv_cnv, cnv_raise]
  rfl

theorem track_suspect (sl : Nat) (s : State) : (suspect sl s).cnv.track = s.cnv.track := by
  rw [suspect_eq]
  split
  · rfl
  · split
    · exact track_newlySuspect sl s
    · rw [cnv_nextTarget, track_newlySuspect]

theorem track_trackJudge (s : State) (sl : Nat) : (trackJudge s sl).cnv.track = s.cnv.track := by
  unfold trackJudge
  dsimp only
  split
  · rw [track_suspect]
    rfl
  · rfl

/-- Some mean residual of slice `sl` in the block exceeds the limit (R125). -/
def BeyondLimit (s : State) (sl : Nat) : Prop :=
  ∃ j < 16, (trackOf s sl j).1 * max 1 (fld s CNV_CAL_CTRL.TRACK_LIM) * 256 < (trackOf s sl j).2.natAbs

theorem BeyondLimit.congr {s t : State} {sl : Nat} (h : BeyondLimit s sl) (htrack : t.cnv.track = s.cnv.track)
    (hlim : fld t CNV_CAL_CTRL.TRACK_LIM = fld s CNV_CAL_CTRL.TRACK_LIM) : BeyondLimit t sl := by
  unfold BeyondLimit trackOf at *
  rwa [htrack, hlim]

theorem trackJudge_faulty {s : State} {sl : Nat} (hrole : roleOf s sl = 0) (hbeyond : BeyondLimit s sl) :
    trackJudge s sl = suspect sl (setFlag s (CNV_SLICEs_STATUS.TRACK_FAULT sl) true) := by
  obtain ⟨j, hj, hlt⟩ := hbeyond
  exact if_pos (by
    rw [hrole, Bool.and_eq_true, List.any_eq_true]
    exact ⟨rfl, j, List.mem_range.mpr hj, decide_eq_true hlt⟩)

/-- Slice `sl` is marked in `t`, and the event is posted if it was not SUSPECT in `s`. -/
def MarkedFaulty (sl : Nat) (s t : State) : Prop :=
  flag t (CNV_SLICEs_STATUS.TRACK_FAULT sl) = true ∧ flag t (CNV_SLICEs_STATUS.SUSPECT sl) = true ∧
    (flag s (CNV_SLICEs_STATUS.SUSPECT sl) = false → 156 ∈ t.fab.raised)

theorem trackJudge_marks {s : State} {sl : Nat} (hrole : roleOf s sl = 0) (hbeyond : BeyondLimit s sl) : MarkedFaulty sl s (trackJudge s sl) := by
  rw [trackJudge_faulty hrole hbeyond]
  obtain ⟨hsuspect, hposts⟩ := suspect_results sl (setFlag s (CNV_SLICEs_STATUS.TRACK_FAULT sl) true)
  refine ⟨?_, hsuspect, fun hnew => hposts ?_⟩
  · rw [(suspect_writes sl _).flag (by dsimp only [List.Forall, Apart]; omega)]
    exact flag_setFlag_same s _ true rfl (Nat.le_of_ble_eq_true rfl)
  · rw [flag_setFlag_apart (by dsimp only [Apart]; omega), hnew]

/-- The slices judged at the end of a block. -/
def judgedSlices (s : State) : State := (List.range 17).foldl trackJudge s

theorem fld_judgedSlices {f : Fld} (hf : ∀ sl < 17, [CNV_SLICEs_STATUS.TRACK_FAULT sl, CNV_SLICEs_STATUS.SUSPECT sl,
    CNV_CAL_STATUS.TARGET].Forall (Apart f)) (s : State) : fld (judgedSlices s) f = fld s f :=
  List.foldlRecOn (motive := fun u => fld u f = fld s f) _ _ rfl fun u hu sl hsl =>
    ((trackJudge_writes u sl).flds f (hf sl (List.mem_range.mp hsl))).trans hu

theorem lowKept_judgedSlices (s : State) : LowKept s (judgedSlices s) := .foldl (fun u sl => (trackJudge_writes u sl).low) _ s

theorem judgedSlices_marks {sl : Nat} (hsl : sl < 17) {s : State} (hrole : roleOf s sl = 0) (hbeyond : BeyondLimit s sl) :
    MarkedFaulty sl s (judgedSlices s) := by
  have hother : ∀ (u : State) (y : Nat), y ≠ sl → ∀ f, f.reg = CNV_SLICEs_STATUS sl → f.lo + f.w ≤ 32 → fld (trackJudge u y) f = fld u f :=
    fun u y hy f hf hfits => (trackJudge_writes u y).flds f (by
      dsimp only [List.Forall, Apart]
      dsimp only [CNV_SLICEs_STATUS] at hf
      omega)
  refine foldl_own (x := sl) (P := fun u => roleOf u sl = 0 ∧ BeyondLimit u sl ∧
    flag u (CNV_SLICEs_STATUS.SUSPECT sl) = flag s (CNV_SLICEs_STATUS.SUSPECT sl)) (fun u y hy hu => ?_) (fun u hu => ?_) (fun u y hy hu => ?_)
    List.nodup_range (List.mem_range.mpr hsl) ⟨hrole, hbeyond, rfl⟩
  · obtain ⟨hr, hb, hflag⟩ := hu
    exact ⟨(hother u y hy _ rfl (Nat.le_of_ble_eq_true rfl)).trans hr, hb.congr (track_trackJudge u y) ((trackJudge_writes u y).flds _
      (by dsimp only [List.Forall, Apart]; omega)), by rw [flag, hother u y hy _ rfl (Nat.le_of_ble_eq_true rfl), ← flag, hflag]⟩
  · obtain ⟨hr, hb, hflag⟩ := hu
    obtain ⟨hfault, hsuspect, hposts⟩ := trackJudge_marks hr hb
    exact ⟨hfault, hsuspect, fun hnew => hposts (hflag.trans hnew)⟩
  · obtain ⟨hfault, hsuspect, hposts⟩ := hu
    refine ⟨?_, ?_, fun hnew => (trackJudge_writes u y).low.raised _ (hposts hnew)⟩
    · rw [flag, hother u y hy _ rfl (Nat.le_of_ble_eq_true rfl), ← flag, hfault]
    · rw [flag, hother u y hy _ rfl (Nat.le_of_ble_eq_true rfl), ← flag, hsuspect]

end Sys2Proof.Machine

namespace Sys2Proof.Machine
open Sys2Proof

/-! ### TRACKING_BLOCK_END (R125, R133) -/

/-- The block's end before its events: the adjustments, then the judgement, and the next block. -/
def blockEnded (s : State) : State :=
  setCnv { (judgedSlices (trackedSlices s)).cnv with trackAt := tick (judgedSlices (trackedSlices s)) + 1, track := [] }
    (judgedSlices (trackedSlices s))

theorem exec_trackingBlockEnd {s : State} {block : Nat} (hruns : calRuns s = true) (hlap : lap s = 1024 * block)
    (hnew : s.cnv.trackAt ≠ tick s + 1) : exec (.trackingBlockEnd block) s = .next (settle (blockEnded s)) :=
  if_pos (by simp [hruns, hlap, hnew])

/-- A field of the conversion that a block's end does not write. -/
theorem fld_blockEnded {f : Fld} (hreg : f.reg < 0xA00D0000) (s : State)
    (hf : ∀ sl < 17, [CNV_SLICEs_STATUS.TRACK_FAULT sl, CNV_SLICEs_STATUS.SUSPECT sl, CNV_CAL_STATUS.TARGET].Forall (Apart f)) :
    fld (settle (blockEnded s)) f = fld (trackedSlices s) f := by
  rw [fld_settle_low _ hreg, blockEnded, fld_setCnv, fld_judgedSlices hf]

theorem sameWords_blockEnded {k : Nat} (hk : k < 17) (s : State) : SameWords k (trackedSlices s) (settle (blockEnded s)) := by
  refine ⟨fld_blockEnded ?_ s fun sl hsl => ?_, fld_blockEnded ?_ s fun sl hsl => ?_⟩
  all_goals
    dsimp only [List.Forall, Apart]
    omega

theorem roleOf_blockEnded {k : Nat} (hk : k < 17) (s : State) : roleOf (settle (blockEnded s)) k = roleOf s k := by
  refine (fld_blockEnded ?_ s fun sl hsl => ?_).trans (fld_trackedSlices (fun sl => ?_) s)
  all_goals
    dsimp only [List.Forall, Apart]
    omega

theorem sliceOf_blockEnded {b : Nat} (hb : b < 16) (s : State) : sliceOf (settle (blockEnded s)) b = sliceOf s b := by
  refine (fld_blockEnded (f := mapFld b) ?_ s fun sl hsl => ?_).trans (fld_trackedSlices (f := mapFld b) (fun sl => ?_) s)
  all_goals
    dsimp only [List.Forall, Apart, CNV_MAPk]
    omega

theorem lowKept_blockEnded (s : State) : LowKept s (blockEnded s) :=
  ((lowKept_trackedSlices s).trans (lowKept_judgedSlices _)).trans (.of_eq rfl rfl rfl)

/-- What a block's end does to slice `k`. -/
theorem blockEnded_slice {k : Nat} (hk : k < 17) (s : State) :
    (((rd (settle (blockEnded s)) (CNV_SLICEs_GAIN k)).toNat : Int) - (rd s (CNV_SLICEs_GAIN k)).toNat).natAbs ≤ 1638 ∧
      (sfld (settle (blockEnded s)) (CNV_SLICEs_OFS.VALUE k) - sfld s (CNV_SLICEs_OFS.VALUE k)).natAbs ≤ 204 ∧
      (roleOf s k ≠ 0 ∨ calState s = 3 →
        rd (settle (blockEnded s)) (CNV_SLICEs_GAIN k) = rd s (CNV_SLICEs_GAIN k) ∧
        rd (settle (blockEnded s)) (CNV_SLICEs_OFS k) = rd s (CNV_SLICEs_OFS k)) ∧
      roleOf (settle (blockEnded s)) k = roleOf s k := by
  have hkept := sameWords_blockEnded hk s
  obtain ⟨hgain, hofs⟩ := (trackedFrom_trackedSlices hk s).congr ⟨rfl, rfl⟩ hkept
  refine ⟨?_, hofs, fun h => ?_, roleOf_blockEnded hk s⟩
  · rwa [← fld_whole, ← fld_whole]
  · obtain ⟨hsameGain, hsameOfs⟩ := sameWords_trackedSlices hk h
    exact ⟨rd_eq_of_fld (hkept.1.trans hsameGain), rd_eq_of_fld (hkept.2.trans hsameOfs)⟩

/-- A slice in service beyond the limit is marked, and the event posted (R125). -/
theorem blockEnded_marks {sl : Nat} (hsl : sl < 17) {s : State} (hrole : roleOf s sl = 0) (hbeyond : BeyondLimit s sl) :
    flag (settle (blockEnded s)) (CNV_SLICEs_STATUS.TRACK_FAULT sl) = true ∧ flag (settle (blockEnded s)) (CNV_SLICEs_STATUS.SUSPECT sl) = true ∧
      (flag s (CNV_SLICEs_STATUS.SUSPECT sl) = false → Posted 156 s (settle (blockEnded s))) := by
  have htracked : ∀ f, f.reg < 0xA0021000 → f.lo + f.w ≤ 32 → fld (trackedSlices s) f = fld s f := fun f hreg hfits =>
    fld_trackedSlices (fun sl => by dsimp only [List.Forall, Apart]; omega) s
  obtain ⟨hfault, hsuspect, hposts⟩ := judgedSlices_marks hsl
    ((htracked (CNV_SLICEs_STATUS.ROLE sl) (by dsimp only; omega) (Nat.le_of_ble_eq_true rfl)).trans hrole)
    (hbeyond.congr (by rw [cnv_trackedSlices]) (htracked _ (by decide) (by decide)))
  refine ⟨?_, ?_, fun hnew => (lowKept_blockEnded s).posted (by decide) (hposts ?_)⟩
  · rw [flag_settle_low _ (by dsimp only; omega), blockEnded, flag, fld_setCnv, ← flag, hfault]
  · rw [flag_settle_low _ (by dsimp only; omega), blockEnded, flag, fld_setCnv, ← flag, hsuspect]
  · rw [flag, htracked _ (by dsimp only; omega) (Nat.le_of_ble_eq_true rfl), ← flag, hnew]

/-- The next block begins. -/
theorem track_blockEnded {s t : State} {block : Nat} (h : exec (.trackingBlockEnd block) s = .next t) (ht : t = settle (blockEnded s)) :
    t.cnv.trackAt = tick s + 1 ∧ t.cnv.track = [] := by
  have htick : tick t = tick s := by
    have hbnd : t.bnd = s.bnd := exec_same (k := .bnd) h (show Comp.bnd ∉ [Comp.fresh, Comp.cnv] by decide)
    have htwin : t.twin = s.twin := exec_same (k := .twin) h (show Comp.twin ∉ [Comp.fresh, Comp.cnv] by decide)
    rw [tick, tick, hbnd, htwin]
  have hcnv : t.cnv = (blockEnded s).cnv := by rw [ht, cnv_settle]
  have hended : tick t = tick (judgedSlices (trackedSlices s)) := by
    rw [ht, tick, tick]
    simp [blockEnded]
  rw [hcnv, blockEnded, setCnv_cnv, ← hended, htick]
  exact ⟨rfl, rfl⟩

theorem trackingBlockEnd_results {s : State} (sl : Fin 17) {block : Nat} (hruns : calRuns s = true) (hlap : lap s = 1024 * block)
    (hnew : s.cnv.trackAt ≠ tick s + 1) : ∃ t, exec (.trackingBlockEnd block) s = .next t ∧ t.cnv.trackAt = tick s + 1 ∧ t.cnv.track = [] ∧
      (∀ k < 17, (((rd t (CNV_SLICEs_GAIN k)).toNat : Int) - (rd s (CNV_SLICEs_GAIN k)).toNat).natAbs ≤ 1638 ∧
        (sfld t (CNV_SLICEs_OFS.VALUE k) - sfld s (CNV_SLICEs_OFS.VALUE k)).natAbs ≤ 204 ∧
        (roleOf s k ≠ 0 ∨ calState s = 3 →
          rd t (CNV_SLICEs_GAIN k) = rd s (CNV_SLICEs_GAIN k) ∧ rd t (CNV_SLICEs_OFS k) = rd s (CNV_SLICEs_OFS k)) ∧
        roleOf t k = roleOf s k) ∧
      (roleOf s sl = 0 → BeyondLimit s sl →
        flag t (CNV_SLICEs_STATUS.TRACK_FAULT sl) = true ∧ flag t (CNV_SLICEs_STATUS.SUSPECT sl) = true ∧
          (flag s (CNV_SLICEs_STATUS.SUSPECT sl) = false → Posted 156 s t)) ∧ ∀ b < 16, sliceOf t b = sliceOf s b := by
  have hexec := exec_trackingBlockEnd hruns hlap hnew
  obtain ⟨htrackAt, htrack⟩ := track_blockEnded hexec rfl
  exact ⟨_, hexec, htrackAt, htrack, fun k hk => blockEnded_slice hk s, fun hrole hbeyond => blockEnded_marks sl.isLt hrole hbeyond,
    fun b hb => sliceOf_blockEnded hb s⟩

/-! ### CNV_HANDOVER (R122 to R124) -/

section

variable {s : State} {b : Fin 16}

/-- What CNV_HANDOVER judges at the end of the overlap. -/
theorem exec_cnvHandover (hb : targetOf s = b) (hruns : calRuns s = true) (hstate : calState s = 2) (hlaps : stepLaps s ≤ calCount s) :
    exec (.cnvHandover b) s =
      if s.cnv.pairs.n < 8192 then
        if s.cnv.ext < 3 then done (setCnv { s.cnv with ext := s.cnv.ext + 1 } s) else done (matchFail s)
      else if fitGood s.cnv.pairs then done (handOver false s)
      else if s.cnv.pairs.resO ≤ s.cnv.pairs.resS then done (matchFail s)
      else done (handOver true s) :=
  if_pos (by simp [hb, hruns, hstate, hlaps])

theorem cnvHandover_trimmed (hb : targetOf s = b) (hruns : calRuns s = true) (hstate : calState s = 2) (hlaps : stepLaps s ≤ calCount s)
    (hpairs : 8192 ≤ s.cnv.pairs.n) (hgood : fitGood s.cnv.pairs = true) (hsp : spareOf s < 17) (hout : sliceOf s (targetOf s) < 17)
    (hne : sliceOf s (targetOf s) ≠ spareOf s) (hsuspects : s.cnv.suspects = []) (hnorm : targetOf s = s.cnv.norm) :
    ∃ t, exec (.cnvHandover b) s = .next t ∧ sliceOf t (targetOf s) = spareOf s ∧ spareOf t = sliceOf s (targetOf s) ∧
      (∀ b < 16, b ≠ targetOf s → sliceOf t b = sliceOf s b) ∧ roleOf t (spareOf s) = 0 ∧ roleOf t (spareOf t) = 1 ∧
      calState t = 1 ∧ calCount t = 0 ∧ targetOf t = (targetOf s + 1) % 16 ∧ fld t (CNV_SLICEs_STATUS.FAILS (spareOf s)) = 0 ∧
      (sfld t (CNV_SLICEs_TRIM_OFS.VALUE (spareOf s)) = satSigned 32 (trimOfs false s.cnv.pairs) ∧
        sfld t (CNV_SLICEs_TRIM_GAIN.VALUE (spareOf s)) = satSigned 32 (trimGain false s.cnv.pairs)) ∧
      fld t CNV_ROTATIONS.COUNT = (fld s CNV_ROTATIONS.COUNT + 1) % 2 ^ 32 ∧ t.cnv.hoLap = lap s ∧
      nbit t.cnv.hoNow (targetOf s) = true ∧ flag t CNV_HO_INFO.VALID = true ∧ flag t CNV_HO_INFO.UNTRIMMED = false ∧ Posted 154 s t := by
  have hexec : exec (.cnvHandover b) s = .next (settle (handOver false s)) := by
    rw [exec_cnvHandover hb hruns hstate hlaps, if_neg (by omega), if_pos hgood]
    rfl
  obtain ⟨hmap, hspare, hothers⟩ := map_handOver (untrimmed := false) hsp hout
  obtain ⟨hrole, hfails, hofs, hgain⟩ := newSlice_handOver (untrimmed := false) hsp hout hne
  obtain ⟨hcal, hcount, hfreed⟩ := nextStep_handOver (untrimmed := false) hout hruns
  obtain ⟨hrotations, hvalid, huntrimmed⟩ := report_handOver (untrimmed := false) hsp hout
  obtain ⟨hlap, hmark⟩ := record_handOver s
  exact ⟨_, hexec, hmap, hspare, hothers, hrole, by rw [hspare, hfreed], hcal, hcount, target_handOver hsuspects hnorm, hfails, ⟨hofs, hgain⟩,
    hrotations, hlap, hmark, hvalid, huntrimmed, posted154_handOver hout⟩

theorem cnvHandover_untrimmed (hb : targetOf s = b) (hruns : calRuns s = true) (hstate : calState s = 2) (hlaps : stepLaps s ≤ calCount s)
    (hpairs : 8192 ≤ s.cnv.pairs.n) (hbad : fitGood s.cnv.pairs = false) (hres : s.cnv.pairs.resS < s.cnv.pairs.resO) (hsp : spareOf s < 17)
    (hout : sliceOf s (targetOf s) < 17) (hne : sliceOf s (targetOf s) ≠ spareOf s)
    (hnew : flag s (CNV_SLICEs_STATUS.SUSPECT (sliceOf s (targetOf s))) = false) :
    ∃ t, exec (.cnvHandover b) s = .next t ∧ sliceOf t (targetOf s) = spareOf s ∧ spareOf t = sliceOf s (targetOf s) ∧
      sfld t (CNV_SLICEs_TRIM_OFS.VALUE (spareOf s)) = 0 ∧ sfld t (CNV_SLICEs_TRIM_GAIN.VALUE (spareOf s)) = 0 ∧
      flag t CNV_HO_INFO.UNTRIMMED = true ∧ Posted 154 s t ∧ Posted 156 s t := by
  have hexec : exec (.cnvHandover b) s = .next (settle (handOver true s)) := by
    rw [exec_cnvHandover hb hruns hstate hlaps, if_neg (by omega), hbad, if_neg Bool.false_ne_true, if_neg (by omega)]
    rfl
  obtain ⟨hmap, hspare, -⟩ := map_handOver (untrimmed := true) hsp hout
  obtain ⟨-, -, hofs, hgain⟩ := newSlice_handOver (untrimmed := true) hsp hout hne
  obtain ⟨-, -, huntrimmed⟩ := report_handOver (untrimmed := true) hsp hout
  exact ⟨_, hexec, hmap, hspare, hofs, hgain, huntrimmed, posted154_handOver hout, posted156_handOver hout hnew⟩

/-- Too few pairs after the third extension, or a difference beyond the limits that is the spare's: a match failure (R123). -/
theorem exec_cnvHandover_fails (hb : targetOf s = b) (hruns : calRuns s = true) (hstate : calState s = 2) (hlaps : stepLaps s ≤ calCount s)
    (hcase : s.cnv.pairs.n < 8192 ∧ 3 ≤ s.cnv.ext ∨
      8192 ≤ s.cnv.pairs.n ∧ fitGood s.cnv.pairs = false ∧ s.cnv.pairs.resO ≤ s.cnv.pairs.resS) :
    exec (.cnvHandover b) s = .next (settle (matchFail s)) := by
  rw [exec_cnvHandover hb hruns hstate hlaps]
  obtain ⟨hfew, hext⟩ | ⟨hpairs, hbad, hres⟩ := hcase
  · rw [if_pos hfew, if_neg (by omega)]
    rfl
  · rw [if_neg (by omega), hbad, if_neg Bool.false_ne_true, if_pos hres]
    rfl

end

theorem cnvHandover_extends {s : State} {b : Fin 16} (hb : targetOf s = b) (hs : Settled s) (hruns : calRuns s = true) (hstate : calState s = 2)
    (hlaps : stepLaps s ≤ calCount s) (hfew : s.cnv.pairs.n < 8192) (hext : s.cnv.ext < 3) :
    ∃ t, exec (.cnvHandover b) s = .next t ∧ t.cnv = { s.cnv with ext := s.cnv.ext + 1 } ∧ ∀ a, rd t a = rd s a := by
  refine ⟨setCnv { s.cnv with ext := s.cnv.ext + 1 } s, ?_, rfl, fun _ => rfl⟩
  rw [exec_cnvHandover hb hruns hstate hlaps, if_pos hfew, if_pos hext]
  exact done_settled_next hs

theorem fitGood_iff (p : Pairs) : fitGood p = true ↔ (fitGain p).1.natAbs * 20000 ≤ (fitGain p).2.natAbs ∧
    (fitOffset p).1.natAbs ≤ 2 * (fitOffset p).2.natAbs := by
  unfold fitGood
  rw [Bool.and_eq_true, decide_eq_true_iff, decide_eq_true_iff]

/-- Settles O22: the end of an epoch by `calEpochEnd_results`, the hand-over by the fields that it writes and by what follows them, a match
failure by its three lemmas, and tracking by what the folds over the slices leave of each. -/
theorem calibrationSteps : Obligations.CalibrationSteps := by
  refine ⟨fun s hs hruns hstate hcount hsp => calEpochEnd_results hs hruns hstate hcount hsp,
    fun s b hb hs hruns hstate hlaps hfew hext => cnvHandover_extends hb hs hruns hstate hlaps hfew hext,
    fun s b hb hruns hstate hlaps hpairs hgood hsp hout hne hsuspects hnorm =>
      cnvHandover_trimmed hb hruns hstate hlaps hpairs hgood hsp hout hne hsuspects hnorm,
    fun s b hb hruns hstate hlaps hpairs hbad hres hsp hout hne hnew =>
      cnvHandover_untrimmed hb hruns hstate hlaps hpairs hbad hres hsp hout hne hnew,
    fun s b hb hruns hstate hlaps hsp hcase => ?_, fitGood_iff,
    fun s sl block hruns hlap hnew => trackingBlockEnd_results sl hruns hlap hnew⟩
  obtain ⟨hmap, htarget, hmark, hposted⟩ := matchFail_results hsp
  exact ⟨_, exec_cnvHandover_fails hb hruns hstate hlaps hcase, hmap, htarget, hmark, hposted, matchFail_again hsp, matchFail_third hsp⟩

end Sys2Proof.Machine

namespace Sys2Proof.Machine
open Sys2Proof

/-! ### The commands of RED_CMD (R155, R162, R165) -/

theorem refused_redCmd (s : State) : Refused RED_CMD s (settle (refuse RED_CMD s)) :=
  refused_refuse RED_CMD s (outsideLdg_of (by decide)) (by decide) (by decide) (by decide) (by decide)
    fun _ hc => watch_outside hc (n := 238) (by decide) RED_CMD (by decide)

theorem catalogueCommit_results (s : State) (curves : Bool) (hs : Settled s) : ∃ t, exec (.catalogueCommit curves) s = .next t ∧
    t.red = s.red ∧
      if isPending s RED_CMD then Answered RED_CMD 2 s t
      else if commitMask s = 0 ∧ curves = false then Ended RED_CMD 0 t ∧ ∀ a, a ≠ RED_CMD → rd t a = rd s a
      else Accepted RED_CMD (w32 (bit curves * 16 + 1)) s t := by
  have hexec : exec (.catalogueCommit curves) s = .next (settle (if isPending s RED_CMD then reject RED_CMD 2 s
      else if commitMask s = 0 ∧ curves = false then complete RED_CMD 0 s else accept RED_CMD (w32 (bit curves * 16 + 1)) s)) := by
    change execCatalogueCommit curves s = _
    unfold execCatalogueCommit
    split
    · rfl
    · split <;> rfl
  refine ⟨_, hexec, exec_same hexec (show Comp.red ∉ [.accepted] by decide), ?_⟩
  split
  · exact answered_reject _ _ s hs (by decide)
  · split
    · refine ⟨ends_settle_complete s (by decide), fun a ha => ?_⟩
      rw [settle_nothing (complete RED_CMD 0 s) hs]
      exact complete_rd _ _ s ha
    · exact accepted_accept _ _ s hs

theorem setSeq_results (s : State) (chan : Fin 256) (hs : Settled s) : ∃ t, exec (.setSeq chan) s = .next t ∧ t.red = s.red ∧
      if isPending s RED_CMD then Answered RED_CMD 2 s t
      else if outEn s chan then Refused RED_CMD s t
      else Accepted RED_CMD (w32 (chan.val * 256 + 2)) s t := by
  have hexec : exec (.setSeq chan) s = .next (settle (if isPending s RED_CMD then reject RED_CMD 2 s
      else if outEn s chan then refuse RED_CMD s else accept RED_CMD (w32 (chan.val * 256 + 2)) s)) := by
    change execSetSeq chan s = _
    unfold execSetSeq
    split
    · rfl
    · split <;> rfl
  refine ⟨_, hexec, exec_same hexec (show Comp.red ∉ [.accepted] by decide), ?_⟩
  split
  · exact answered_reject _ _ s hs (by decide)
  · split
    · exact refused_redCmd s
    · exact accepted_accept _ _ s hs

/-! ### What a changed entry starts leaves the Catalogue alone (R142, R153, R157, R162) -/

/-- Between `s` and `t` the active entries did not change, nor the shadow entries and curves of the table windows. -/
structure CatalogueKept (s t : State) : Prop where
  active : t.red.active = s.red.active
  shadow : ∀ a, 0xB0000000 ≤ a → rd t a = rd s a

namespace CatalogueKept

variable {s t u : State}

protected theorem refl (s : State) : CatalogueKept s s := ⟨rfl, fun _ _ => rfl⟩

theorem trans (h : CatalogueKept s t) (h' : CatalogueKept t u) : CatalogueKept s u :=
  ⟨h'.active.trans h.active, fun a ha => (h'.shadow a ha).trans (h.shadow a ha)⟩

theorem ite {c : Prop} [Decidable c] (ht : CatalogueKept s t) (hu : CatalogueKept s u) : CatalogueKept s (if c then t else u) := by
  split
  · exact ht
  · exact hu

theorem foldl {β : Type} {f : State → β → State} (hf : ∀ s x, CatalogueKept s (f s x)) (l : List β) (s : State) :
    CatalogueKept s (l.foldl f s) := by
  induction l generalizing s with
  | nil => exact .refl s
  | cons x l ih => exact (hf s x).trans (ih _)

/-- A change beside registers and the active entries. -/
theorem of_eq (hr : t.regs = s.regs) (ha : t.red.active = s.red.active) : CatalogueKept s t :=
  ⟨ha, fun a _ => by rw [rd, rd, hr]⟩

theorem setFld (s : State) (f : Fld) (v : Nat) (h : f.reg < 0xB0000000) : CatalogueKept s (setFld s f v) :=
  ⟨rfl, fun a ha => rd_setFld_other s f v a (by omega)⟩

theorem raise (n : Nat) (s : State) : CatalogueKept s (raise n s) := of_eq (by simp) (by simp)

theorem raiseIf (b : Bool) (n : Nat) (s : State) : CatalogueKept s (raiseIf b n s) := ite (raise n s) (.refl s)

theorem setRedChan (c : Nat) (x : RedChan) (s : State) : CatalogueKept s (setRedChan c x s) := of_eq rfl rfl

theorem setChan (c : Nat) (x : Chan) (s : State) : CatalogueKept s (setChan c x s) := of_eq rfl rfl

theorem setMarks (c kind : Nat) (l : List (Nat × Nat)) (s : State) : CatalogueKept s (setMarks c kind l s) := of_eq rfl rfl

theorem mark (c kind b : Nat) (s : State) : CatalogueKept s (mark c kind b s) := by
  unfold Machine.mark
  split
  · exact ite (.refl s) (ite (setMarks ..) (setMarks ..))
  · exact setMarks ..

theorem filterReset (c : Nat) (s : State) : CatalogueKept s (filterReset c s) := (setRedChan ..).trans (mark ..)

theorem judgeCjc (bank : Nat) (s : State) : CatalogueKept s (judgeCjc bank s) :=
  ite (.refl s) ((setFld s ⟨RED_CJC_STATUS, bank, 1⟩ _ (show RED_CJC_STATUS < _ by decide)).trans (raiseIf ..))

/-- The register that holds the OPEN bit of a channel lies below the table windows. -/
theorem endOpen {c : Nat} (hc : c < 256) (s : State) : CatalogueKept s (endOpen s c) := by
  unfold Machine.endOpen
  exact ite ((setChan ..).trans (setFld _ ⟨AFE_OPEN_NOWk 0 + c / 32 * 4, _, 1⟩ _ (by unfold AFE_OPEN_NOWk; dsimp only; omega))) (.refl s)

theorem entryTakesEffect (old : Tab Word) {c : Nat} (hc : c < 256) (s : State) : CatalogueKept s (entryTakesEffect old c s) := by
  unfold Machine.entryTakesEffect
  extract_lets new aaf rng w _ ranged reset _ judged _ inited _ noted
  have hranged : CatalogueKept s ranged := ite ((setChan ..).trans (mark ..)) (.refl s)
  have hreset : CatalogueKept s reset := hranged.trans (ite (filterReset ..) (.refl _))
  have hjudged : CatalogueKept s judged := hreset.trans (ite ((setRedChan ..).trans (judgeCjc ..)) (.refl _))
  have hinited : CatalogueKept s inited := hjudged.trans (ite (setRedChan ..) (.refl _))
  exact (hinited.trans (setRedChan ..)).trans (endOpen hc _)

theorem commitCurve (s : State) (u : Nat) : CatalogueKept s (commitCurve s u) := by
  have hvalid : ∀ t v, CatalogueKept t (Machine.setFld t ⟨RED_CURVE_STATUS, u, 1⟩ v) := fun t v =>
    setFld t _ v (show RED_CURVE_STATUS < _ by decide)
  unfold Machine.commitCurve
  refine ite ?_ (.refl s)
  extract_lets _ cleared put _ copied
  have hcleared : CatalogueKept s cleared := of_eq rfl rfl
  refine ite ?_ ?_
  · have hcopied : CatalogueKept s copied := of_eq rfl rfl
    exact hcopied.trans (hvalid copied 1)
  · exact (hcleared.trans (hvalid cleared 0)).trans ((setFld _ RED_STATUS.CURVE_BAD _ (by decide)).trans (raise ..))

theorem catWord (h : CatalogueKept s t) (c o : Nat) : catWord t c o = catWord s c o := by rw [Machine.catWord, Machine.catWord, h.active]

end CatalogueKept

/-! ### The copy of a COMMIT (R162) -/

/-- A table into which `v o` was written at `b + o`, for each `o` of a list. -/
theorem tget_foldl_tput {α : Type} [DecidableEq α] (d v : Nat → α) (b : Nat) (l : List Nat) (t : Tab α) (k : Nat) :
    tget d (l.foldl (fun t o => tput d t (b + o) (v o)) t) k = if b ≤ k ∧ k - b ∈ l then v (k - b) else tget d t k := by
  induction l generalizing t with
  | nil => simp
  | cons o l ih =>
    rw [List.foldl_cons, ih, tget_tput]
    by_cases hk : k = b + o
    · simp [hk]
    · have hne : b ≤ k → k - b ≠ o := by omega
      by_cases hb : b ≤ k
      · simp [hk, hb, hne hb]
      · simp [hk, hb]

theorem entryWords_lt : ∀ o ∈ entryWords, o < 256 := by decide

/-- The active Catalogue with the shadow of entry `c` copied, and the state that has it. -/
def activeCopied (s : State) (c : Nat) : Tab Word :=
  entryWords.foldl (fun t o => tput (fun k => catalogueReset (k % 256)) t (c * 256 + o) (rd s (catAddr c o))) s.red.active

def entryCopied (s : State) (c : Nat) : State := { s with red := { s.red with active := activeCopied s c } }

theorem commitEntry_eq (s : State) (c : Nat) : commitEntry s c = entryTakesEffect s.red.active c (entryCopied s c) := rfl

theorem catWord_entryCopied (s : State) (c d : Nat) {o : Nat} (ho : o ∈ entryWords) :
    catWord (entryCopied s c) d o = if d = c then rd s (catAddr c o) else catWord s d o := by
  have hlt := entryWords_lt o ho
  have hcopy := tget_foldl_tput (fun k => catalogueReset (k % 256)) (fun o => rd s (catAddr c o)) (c * 256) entryWords s.red.active (d * 256 + o)
  refine hcopy.trans ?_
  by_cases hd : d = c
  · rw [hd, if_pos rfl, Nat.add_sub_cancel_left, if_pos ⟨by omega, ho⟩]
  · have hout : ¬ (c * 256 ≤ d * 256 + o ∧ d * 256 + o - c * 256 ∈ entryWords) := fun ⟨hle, hmem⟩ => by
      have hnear := entryWords_lt _ hmem
      omega
    rw [if_neg hd, if_neg hout]
    rfl

theorem catWord_commitEntry (s : State) {c : Nat} (hc : c < 256) (d : Nat) {o : Nat} (ho : o ∈ entryWords) :
    catWord (commitEntry s c) d o = if d = c then rd s (catAddr c o) else catWord s d o := by
  rw [commitEntry_eq, (CatalogueKept.entryTakesEffect _ hc _).catWord, catWord_entryCopied s c d ho]

theorem rd_commitEntry (s : State) {c a : Nat} (hc : c < 256) (ha : 0xB0000000 ≤ a) : rd (commitEntry s c) a = rd s a := by
  rw [commitEntry_eq, (CatalogueKept.entryTakesEffect _ hc _).shadow a ha]
  rfl

theorem catWord_commitEntries {l : List Nat} (hl : ∀ c ∈ l, c < 256) (s : State) (d : Nat) {o : Nat} (ho : o ∈ entryWords) :
    catWord (l.foldl commitEntry s) d o = if d ∈ l then rd s (catAddr d o) else catWord s d o := by
  induction l generalizing s with
  | nil => rfl
  | cons c l ih =>
    obtain ⟨hc, hl⟩ := List.forall_mem_cons.mp hl
    have hshadow : rd (commitEntry s c) (catAddr d o) = rd s (catAddr d o) := rd_commitEntry s hc (by unfold catAddr; omega)
    rw [List.foldl_cons, ih hl, hshadow, catWord_commitEntry s hc d ho]
    by_cases hd : d = c
    · simp [hd]
    · simp [hd]

theorem mem_idxWhere {n i : Nat} {p : Nat → Bool} : i ∈ idxWhere n p ↔ i < n ∧ p i = true := by
  rw [idxWhere, List.mem_filter, List.mem_range]

/-- The state in which a COMMIT with command word `w` has made its copies. -/
def commitMade (w : Word) (s : State) : State :=
  let copied := (idxWhere 256 (nbit (commitMask s))).foldl commitEntry s
  if fget w 4 1 ≠ 0 then (List.range 8).foldl commitCurve copied else copied

theorem redCmdBoundary_commit {s : State} {w : Word} (hdue : dueCmd s RED_CMD = some w) (hop : opOf w = 1) :
    redCmdBoundary s = raise 160 (complete RED_CMD 0 (commitMade w s)) := by
  unfold redCmdBoundary
  rw [hdue]
  exact if_pos hop

theorem catWord_commitMade (w : Word) (s : State) {c o : Nat} (hc : c < 256) (ho : o ∈ entryWords) :
    catWord (commitMade w s) c o = if nbit (commitMask s) c then rd s (catAddr c o) else catWord s c o := by
  have hcurves : CatalogueKept ((idxWhere 256 (nbit (commitMask s))).foldl commitEntry s) (commitMade w s) :=
    .ite (.foldl CatalogueKept.commitCurve _ _) (.refl _)
  rw [hcurves.catWord, catWord_commitEntries (fun d hd => (mem_idxWhere.mp hd).1) s c ho]
  simp [mem_idxWhere, hc]

theorem ended_raise_complete (n a : Nat) (s : State) : Ended a 0 (raise n (complete a 0 s)) := by
  unfold Ended isPending
  rw [fld_raise, fld_raise]
  exact ⟨complete_status a 0 s, complete_isPending a 0 s⟩

/-- A COMMIT at its boundary (R162). -/
theorem redCmdBoundary_commits {s : State} {w : Word} (hdue : dueCmd s RED_CMD = some w) (hop : opOf w = 1) :
    Ended RED_CMD 0 (redCmdBoundary s) ∧ 160 ∈ (redCmdBoundary s).fab.raised ∧ ∀ c < 256, ∀ o ∈ entryWords,
      catWord (redCmdBoundary s) c o = if nbit (commitMask s) c then rd s (catAddr c o) else catWord s c o := by
  rw [redCmdBoundary_commit hdue hop]
  refine ⟨ended_raise_complete .., mem_raise .., fun c hc o ho => ?_⟩
  rw [(CatalogueKept.raise ..).catWord, ← catWord_commitMade w s hc ho]
  rfl

/-- A SET_SEQ at its boundary (R155). -/
theorem redCmdBoundary_setsSeq {s : State} {w : Word} (hdue : dueCmd s RED_CMD = some w) (hop : opOf w = 2)
    (hout : outEn s (fget w 8 8) = false) : Ended RED_CMD 0 (redCmdBoundary s) ∧
      (redChan (redCmdBoundary s) (fget w 8 8)).seq = fld s RED_SEQ_VALUE.SEQ ∧
      ∀ c, c ≠ fget w 8 8 → redChan (redCmdBoundary s) c = redChan s c := by
  have heq : redCmdBoundary s = complete RED_CMD 0
      (setRedChan (fget w 8 8) { redChan s (fget w 8 8) with seq := fld s RED_SEQ_VALUE.SEQ } s) := by
    unfold redCmdBoundary
    rw [hdue]
    dsimp only
    rw [if_neg (by omega), hout, if_neg Bool.false_ne_true]
  have hchan : ∀ c x, redChan (complete RED_CMD 0 (setRedChan (fget w 8 8) x s)) c = if c = fget w 8 8 then x else redChan s c :=
    fun c x => redChan_setRedChan (fget w 8 8) c x s
  rw [heq]
  refine ⟨⟨complete_status .., complete_isPending ..⟩, ?_, fun c hc => ?_⟩
  · rw [hchan, if_pos rfl]
  · rw [hchan, if_neg hc]

end Sys2Proof.Machine

namespace Sys2Proof.Machine
open Sys2Proof

/-! ### The fill of the record buffer (R161) -/

/-- RED_BP_FILL.FILL, in units of 64 bytes. -/
def fillUnits (n : Nat) : Nat := min ((n + 63) / 64) 16384

theorem fillUnits_lt (n : Nat) : fillUnits n < 2 ^ 16 := by
  unfold fillUnits
  omega

/-- The fill is `n` bytes; then FILL shows it. -/
def filled (n : Nat) (s : State) : State := { s with red := { s.red with fill := n } }

def fillShown (n : Nat) (s : State) : State := setFld (filled n s) RED_BP_FILL.FILL (fillUnits n)

theorem fld_fill_fillShown (n : Nat) (s : State) : fld (fillShown n s) RED_BP_FILL.FILL = fillUnits n :=
  fld_setFld_fits _ (by decide) (fillUnits_lt n)

theorem fld_peak_fillShown (n : Nat) (s : State) : fld (fillShown n s) RED_BP_FILL.PEAK = fld s RED_BP_FILL.PEAK :=
  fld_setFld_apart (f := RED_BP_FILL.PEAK) (g := RED_BP_FILL.FILL) (by decide) (filled n s) _

theorem setFill_eq (n : Nat) (s : State) : setFill n s = if fld s RED_BP_FILL.PEAK < fillUnits n
    then setFld (fillShown n s) RED_BP_FILL.PEAK (fillUnits n) else fillShown n s := by
  rw [← fld_peak_fillShown n s]
  rfl

theorem red_setFill (n : Nat) (s : State) : (setFill n s).red = { s.red with fill := n } := by
  rw [setFill_eq]
  split <;> rfl

theorem fab_setFill (n : Nat) (s : State) : (setFill n s).fab = s.fab := by
  rw [setFill_eq]
  split <;> rfl

theorem setFill_writes (n : Nat) (s : State) : Writes [RED_BP_FILL.FILL, RED_BP_FILL.PEAK] s (setFill n s) := by
  have hfilled : Writes [] s (filled n s) := .of_eq rfl rfl rfl
  have hshown : Writes [RED_BP_FILL.FILL] s (fillShown n s) := hfilled.trans (.setFld RED_BP_FILL.FILL _ _)
  rw [setFill_eq]
  exact .ite (hshown.trans (.setFld RED_BP_FILL.PEAK _ _)) (hshown.trans (.refl _))

theorem fld_fill_setFill (n : Nat) (s : State) : fld (setFill n s) RED_BP_FILL.FILL = fillUnits n := by
  rw [setFill_eq]
  split
  · rw [fld_setFld_apart (by decide), fld_fill_fillShown]
  · exact fld_fill_fillShown n s

theorem fld_peak_setFill (n : Nat) (s : State) : fld (setFill n s) RED_BP_FILL.PEAK = max (fillUnits n) (fld s RED_BP_FILL.PEAK) := by
  rw [setFill_eq]
  split
  next h => rw [fld_setFld_fits _ (by decide) (fillUnits_lt n), Nat.max_eq_left h.le]
  next h => rw [fld_peak_fillShown, Nat.max_eq_right (Nat.not_lt.mp h)]

/-- Only in READY does the buffer drain (R161). -/
theorem drainFill_cases (s : State) : drainFill s = s ∨
    dmcState s = 2 ∧ ∃ n ≤ s.red.fill, drainFill s = freshen (setFill n s) := by
  unfold drainFill
  split
  next h => exact .inr ⟨h.1, _, Nat.le_of_lt_succ (Nat.mod_lt _ (Nat.succ_pos _)), rfl⟩
  next => exact .inl rfl

theorem drainFill_of_not_ready {s : State} (h : dmcState s ≠ 2) : drainFill s = s :=
  (drainFill_cases s).resolve_right fun hready => h hready.1

theorem red_drainFill (s : State) : (drainFill s).red = { s.red with fill := (drainFill s).red.fill } ∧
    (drainFill s).red.fill ≤ s.red.fill := by
  obtain h | ⟨-, n, hn, h⟩ := drainFill_cases s
  · rw [h]
    exact ⟨rfl, Nat.le_refl _⟩
  · have hred : (drainFill s).red = { s.red with fill := n } := by rw [h, ← red_setFill n s]; rfl
    rw [hred]
    exact ⟨rfl, hn⟩

theorem fab_drainFill (s : State) : (drainFill s).fab = s.fab := by
  obtain h | ⟨-, n, -, h⟩ := drainFill_cases s
  · rw [h]
  · rw [h, ← fab_setFill n s]
    rfl

theorem drainFill_writes (s : State) : Writes [RED_BP_FILL.FILL, RED_BP_FILL.PEAK] s (drainFill s) := by
  obtain h | ⟨-, n, -, h⟩ := drainFill_cases s
  · rw [h]
    exact .refl s
  · rw [h]
    exact (setFill_writes n s).trans (l' := []) (.of_eq rfl rfl rfl)

theorem peak_le_drainFill (s : State) : fld s RED_BP_FILL.PEAK ≤ fld (drainFill s) RED_BP_FILL.PEAK := by
  obtain h | ⟨-, n, -, h⟩ := drainFill_cases s
  · rw [h]
  · have hpeak : fld (drainFill s) RED_BP_FILL.PEAK = fld (setFill n s) RED_BP_FILL.PEAK := by rw [h]; rfl
    rw [hpeak, fld_peak_setFill]
    exact Nat.le_max_right ..

/-! ### RED_BP (R161) -/

/-- Stage `k` is entered, and counted in `f`. -/
def stageEntered (k : Nat) (f : Fld) (s : State) : State :=
  raise 164 (setFlag (addSat (setFld s RED_STATUS.BP_STAGE k) f 1) RED_STATUS.BP_SEEN true)

theorem exec_redBp_stage2 {s : State} (ofs : Nat) (hfill : 983040 ≤ s.red.fill) (hst : fld s RED_STATUS.BP_STAGE < 2) :
    exec (.redBp ofs) s = .next (settle (stageEntered 2 RED_BP_COUNT.STAGE2 (atOfs ofs s))) := by
  change execRedBp ofs s = _
  exact if_pos ⟨hfill, hst⟩

theorem exec_redBp_stage1 {s : State} (ofs : Nat) (hfill : 917504 ≤ s.red.fill) (hbelow : s.red.fill < 983040)
    (hst : fld s RED_STATUS.BP_STAGE = 0) :
    exec (.redBp ofs) s = .next (settle (stageEntered 1 RED_BP_COUNT.STAGE1 (atOfs ofs s))) := by
  have hst' : fld s RED_STATUS.BP_STAGE < 1 := by omega
  change execRedBp ofs s = _
  exact (if_neg fun h => absurd h.1 (Nat.not_le.mpr hbelow)).trans (if_pos ⟨hfill, hst'⟩)

theorem stageEntered_writes (k : Nat) {f : Fld} (hf : f.reg = RED_BP_COUNT) (s : State) :
    Writes [RED_STATUS.BP_STAGE, f, RED_STATUS.BP_SEEN] s (stageEntered k f s) :=
  (((Writes.setFld RED_STATUS.BP_STAGE k s).trans (.setFld f _ _ (hf ▸ by decide))).trans
    (.setFlag RED_STATUS.BP_SEEN true _)).trans (l' := []) (.raise 164 _)

/-- Entering a stage shows it, counts it, and posts RED_BP; the other count stays. -/
theorem stageEntered_results {k : Nat} {f : Fld} (hk : k < 4) (hf : f.reg = RED_BP_COUNT) (hfw : f.lo + f.w ≤ 32) (s : State) :
    fld (settle (stageEntered k f s)) RED_STATUS.BP_STAGE = k ∧ flag (settle (stageEntered k f s)) RED_STATUS.BP_SEEN = true ∧
      (settle (stageEntered k f s)).red = s.red ∧ fld (settle (stageEntered k f s)) f = satNat f.w (fld s f + 1) ∧
      (∀ g : Fld, g.reg = RED_BP_COUNT → Apart g f → fld (settle (stageEntered k f s)) g = fld s g) ∧
      Posted 164 s (settle (stageEntered k f s)) := by
  have hstatus : ∀ g : Fld, g.reg = RED_STATUS → g.reg ≠ f.reg := fun g hg => by rw [hg, hf]; decide
  have hcount : ∀ g : Fld, g.reg = RED_BP_COUNT → g.reg ≠ RED_STATUS := fun g hg => by rw [hg]; decide
  have hlow : ∀ {g : Fld}, g.reg = RED_BP_COUNT → g.reg < 0xA00D0000 := fun hg => by rw [hg]; decide
  refine ⟨?_, ?_, by simp [stageEntered], ?_, fun g hg happ => ?_, (stageEntered_writes k hf s).low.posted (by decide) (mem_raise 164 _)⟩
  · rw [fld_settle_low _ (by decide), stageEntered, fld_raise, fld_setFlag_apart (by decide), addSat,
      fld_setFld_reg _ _ f _ (hstatus _ rfl)]
    exact fld_setFld_fits s (by decide) hk
  · rw [flag_settle_low _ (by decide), stageEntered, flag, fld_raise, ← flag]
    exact flag_setFlag_same _ _ true rfl (by decide)
  · rw [fld_settle_low _ (hlow hf), stageEntered, fld_raise, setFlag, fld_setFld_reg _ _ RED_STATUS.BP_SEEN _ (hcount f hf),
      fld_addSat_same _ _ _ hfw, fld_setFld_reg _ _ RED_STATUS.BP_STAGE _ (hcount f hf)]
  · rw [fld_settle_low _ (hlow hg)]
    exact (stageEntered_writes k hf s).flds g
      ⟨⟨happ.1, by decide, .inl (hcount g hg)⟩, happ, ⟨happ.1, by decide, .inl (hcount g hg)⟩⟩

theorem redBp_stage2 (s : State) (ofs : Nat) (hfill : 983040 ≤ s.red.fill) (hst : fld s RED_STATUS.BP_STAGE < 2) :
    ∃ t, exec (.redBp ofs) s = .next t ∧
      fld t RED_STATUS.BP_STAGE = 2 ∧ flag t RED_STATUS.BP_SEEN = true ∧ t.red.fill = s.red.fill ∧
      fld t RED_BP_COUNT.STAGE2 = satNat 16 (fld s RED_BP_COUNT.STAGE2 + 1) ∧
      fld t RED_BP_COUNT.STAGE1 = fld s RED_BP_COUNT.STAGE1 ∧ Posted 164 s t := by
  obtain ⟨hstage, hseen, hred, hcount, hother, hposted⟩ :=
    stageEntered_results (k := 2) (f := RED_BP_COUNT.STAGE2) (by decide) rfl (by decide) (atOfs ofs s)
  exact ⟨_, exec_redBp_stage2 ofs hfill hst, hstage, hseen, congrArg Red.fill hred, hcount, hother _ rfl (by decide), hposted⟩

theorem redBp_stage1 (s : State) (ofs : Nat) (hfill : 917504 ≤ s.red.fill) (hbelow : s.red.fill < 983040)
    (hst : fld s RED_STATUS.BP_STAGE = 0) : ∃ t, exec (.redBp ofs) s = .next t ∧
      fld t RED_STATUS.BP_STAGE = 1 ∧ flag t RED_STATUS.BP_SEEN = true ∧ t.red.fill = s.red.fill ∧
      fld t RED_BP_COUNT.STAGE1 = satNat 16 (fld s RED_BP_COUNT.STAGE1 + 1) ∧
      fld t RED_BP_COUNT.STAGE2 = fld s RED_BP_COUNT.STAGE2 ∧ Posted 164 s t := by
  obtain ⟨hstage, hseen, hred, hcount, hother, hposted⟩ :=
    stageEntered_results (k := 1) (f := RED_BP_COUNT.STAGE1) (by decide) rfl (by decide) (atOfs ofs s)
  exact ⟨_, exec_redBp_stage1 ofs hfill hbelow hst, hstage, hseen, congrArg Red.fill hred, hcount, hother _ rfl (by decide), hposted⟩

/-! ### BP_STAGE_EXIT (R161) -/

theorem showHeld_writes (s : State) : Writes [DMC_OUTSTANDING.LEVEL, DMC_OUTSTANDING.PEAK] s (showHeld s) :=
  (Writes.setFld DMC_OUTSTANDING.LEVEL _ s).trans (.ite (.setFld DMC_OUTSTANDING.PEAK _ _) (.refl _))

theorem fab_showHeld (s : State) : (showHeld s).fab = s.fab := by
  unfold showHeld peakHeld
  dsimp only
  split <;> rfl

theorem waiting_of_dmc {s t : State} (h : t.dmc = s.dmc) : waiting t = waiting s := by rw [waiting, waiting, h]

/-- A controller with nothing waiting has nothing to serve. -/
theorem dmcServe_idle {s : State} (h : waiting s = []) : dmcServe s = showHeld s := by
  unfold dmcServe
  rw [h]
  rfl

/-- A register lies apart from the fields of the others. -/
theorem apart_word {a : Nat} {f : Fld} (hf : f.lo + f.w ≤ 32) (h : a ≠ f.reg) : Apart ⟨a, 0, 32⟩ f := ⟨Nat.le_refl 32, hf, .inl h⟩

/-- What BP_STAGE_EXIT leaves at its instant. -/
def stageExited (s : State) : State :=
  if (drainFill s).red.fill < 786432 then dmcServe (setFld (drainFill s) RED_STATUS.BP_STAGE 0) else drainFill s

theorem exec_bpStageExit (ofs : Nat) (s : State) : exec (.bpStageExit ofs) s = .next (settle (stageExited (atOfs ofs s))) := by
  change execBpStageExit ofs s = _
  unfold execBpStageExit stageExited
  dsimp only
  split <;> rfl

theorem red_stageExited (s : State) : (stageExited s).red = (drainFill s).red := by
  have named : true = true := rfl
  unfold stageExited
  split
  · exact same_of_allBut (k := .red) (dmcServe_ok (setFld_ok .start))
  · rfl

section

variable {s : State} (hidle : waiting s = [])

include hidle

theorem stageExited_idle : stageExited s =
    if (drainFill s).red.fill < 786432 then showHeld (setFld (drainFill s) RED_STATUS.BP_STAGE 0) else drainFill s := by
  have named : true = true := rfl
  have hdmc : (drainFill s).dmc = s.dmc := same_of_allBut (k := .dmc) (drainFill_ok .start)
  have hwaiting : waiting (setFld (drainFill s) RED_STATUS.BP_STAGE 0) = [] := (waiting_of_dmc hdmc).trans hidle
  unfold stageExited
  rw [dmcServe_idle hwaiting]

theorem stageExited_writes : Writes [RED_BP_FILL.FILL, RED_BP_FILL.PEAK, RED_STATUS.BP_STAGE, DMC_OUTSTANDING.LEVEL, DMC_OUTSTANDING.PEAK]
    s (stageExited s) := by
  rw [stageExited_idle hidle]
  exact .ite (((drainFill_writes s).trans (.setFld RED_STATUS.BP_STAGE 0 _)).trans (showHeld_writes _))
    ((drainFill_writes s).trans (.refl _))

theorem fab_stageExited : (stageExited s).fab = s.fab := by
  rw [stageExited_idle hidle]
  split
  · rw [fab_showHeld, ← fab_drainFill s]
    rfl
  · exact fab_drainFill s

theorem stage_stageExited : fld (stageExited s) RED_STATUS.BP_STAGE =
    if (stageExited s).red.fill < 786432 then 0 else fld s RED_STATUS.BP_STAGE := by
  rw [red_stageExited, stageExited_idle hidle]
  split
  · rw [(showHeld_writes _).flds _ (by decide)]
    exact fld_setFld_fits _ (by decide) (by decide)
  · exact (drainFill_writes s).flds _ (by decide)

theorem peak_le_stageExited : fld s RED_BP_FILL.PEAK ≤ fld (stageExited s) RED_BP_FILL.PEAK := by
  rw [stageExited_idle hidle]
  split
  · rw [(showHeld_writes _).flds _ (by decide), fld_setFld_apart (by decide)]
    exact peak_le_drainFill s
  · exact peak_le_drainFill s

theorem rd_stageExited {a : Nat} (hstatus : a ≠ RED_STATUS) (hfill : a ≠ RED_BP_FILL) (hheld : a ≠ DMC_OUTSTANDING) :
    rd (stageExited s) a = rd s a :=
  (stageExited_writes hidle).rd ⟨apart_word (by decide) hfill, apart_word (by decide) hfill, apart_word (by decide) hstatus,
    apart_word (by decide) hheld, apart_word (by decide) hheld⟩

theorem same_stageExited {k : Comp} (hred : k ≠ .red) (hfresh : k ≠ .fresh) : same k s (stageExited s) := by
  have named : decide (Comp.red = .red ∨ Comp.red = .fresh) = true ∧ decide (Comp.fresh = .red ∨ Comp.fresh = .fresh) = true := by decide
  obtain ⟨kRed, kFresh⟩ := named
  have hok : Ok (fun c => decide (c = .red ∨ c = .fresh)) s (stageExited s) := by
    rw [stageExited_idle hidle]
    exact ok_ite (showHeld_ok (setFld_ok (drainFill_ok .start))) (drainFill_ok .start)
  exact hok.2 k (by simp [hred, hfresh])

end

theorem bpStageExit_results (s : State) (ofs : Nat) : ∃ t, exec (.bpStageExit ofs) s = .next t ∧
      t.red = { s.red with fill := t.red.fill } ∧ t.red.fill ≤ s.red.fill ∧ (dmcState s ≠ 2 → t.red.fill = s.red.fill) ∧
      (Settled s → waiting s = [] → fld t RED_STATUS.BP_STAGE = (if t.red.fill < 786432 then 0 else fld s RED_STATUS.BP_STAGE) ∧
        fld s RED_BP_FILL.PEAK ≤ fld t RED_BP_FILL.PEAK ∧
        (∀ a, a ≠ RED_STATUS → a ≠ RED_BP_FILL → a ≠ DMC_OUTSTANDING → rd t a = rd s a) ∧
        ∀ k, k ≠ .red → k ≠ .fresh → same k (atOfs ofs s) t) := by
  have hred : (settle (stageExited (atOfs ofs s))).red = (drainFill (atOfs ofs s)).red := by
    rw [← red_stageExited]
    simp
  obtain ⟨hfill, hle⟩ := red_drainFill (atOfs ofs s)
  refine ⟨_, exec_bpStageExit ofs s, ?_, ?_, fun hdmc => ?_, fun hs hidle => ?_⟩
  · rw [hred]
    exact hfill
  · rw [hred]
    exact hle
  · rw [hred, drainFill_of_not_ready (s := atOfs ofs s) hdmc]
    rfl
  · have hidle' : waiting (atOfs ofs s) = [] := hidle
    rw [settle_nothing _ ((congrArg Fabric.raised (fab_stageExited hidle')).trans hs)]
    exact ⟨stage_stageExited hidle', peak_le_stageExited hidle', fun a hstatus hfill hheld => rd_stageExited hidle' hstatus hfill hheld,
      fun k => same_stageExited hidle'⟩

end Sys2Proof.Machine

namespace Sys2Proof.Machine
open Sys2Proof

/-! ### A write of the record path (R161, R361, R362) -/

theorem DramOnly.writePart (cls : Nat) (s : State) (q : Nat × List Byte) : DramOnly s (writePart cls s q) :=
  .ite (.dmcOwn ..) (.ite (.memWrite ..) (.raise ..))

/-- A write within one line is one part (R360). -/
theorem parts_single {a : Nat} {bs : List Byte} (hne : bs ≠ []) (hline : a % 64 + bs.length ≤ 64) : parts a bs = [(a, bs)] := by
  have hlen : bs.length ≤ 64 - a % 64 := by omega
  rw [parts, lineParts, if_neg hne]
  dsimp only
  rw [List.take_of_length_le hlen, List.drop_of_length_le hlen, lineParts, if_pos rfl]

theorem captureWrite_single {s : State} {a : Nat} {bs : List Byte} (hready : dmcState s ≠ 2) (hne : bs ≠ [])
    (hline : a % 64 + bs.length ≤ 64) : captureWrite a bs s = writePart 0 (setFill (s.red.fill + bs.length) s) (a, bs) := by
  unfold captureWrite dmaWrite
  dsimp only
  rw [drainFill_of_not_ready hready, parts_single hne hline]
  rfl

theorem red_writePart (cls : Nat) (s : State) (q : Nat × List Byte) : (writePart cls s q).red = s.red := by
  have named : true = true := rfl
  exact same_of_allBut (k := .red) (writePart_ok .start)

/-- The request as it is queued by a controller in self-refresh or leaving it (R369). -/
def heldReq (q : DramReq) (s : State) : DramReq := { q with at0 := clk s, measured := !q.write }

/-- In self-refresh, or on the way out of it, a request is queued; in self-refresh it also ends it (R369). -/
theorem dmcOwn_held {q : DramReq} {s : State} (h : dmcState s = 4 ∨ dmcState s = 6) : dmcOwn q s =
    if dmcState s = 4 then addSat (leaveSelfRefresh (dmcAsk (heldReq q s) s)) DMC_SR_LAT.SR_EXIT_REQ 1 else dmcAsk (heldReq q s) s := by
  have hlate : afterEntry false s = true := by
    obtain h | h := h <;> simp [afterEntry, h]
  have hentry : dmcState s ≠ 3 := by omega
  have hreq : { q with at0 := clk s, measured := true && !q.write } = heldReq q s := rfl
  rw [dmcOwn, if_neg fun hin => hentry hin.1, dmcRequest]
  simp only [hlate, Bool.not_true, Bool.false_and, Bool.false_eq_true, if_false, if_neg hentry, hreq]

theorem dmc_showHeld (s : State) : (showHeld s).dmc = s.dmc := same_of_allBut (k := .dmc) (showHeld_ok .start)

/-- A request that finds nothing waiting stands alone, in a slot or at its port. -/
theorem waiting_dmcAsk_idle {q : DramReq} {s : State} (hidle : waiting s = []) : waiting (dmcAsk q s) = [q] := by
  obtain ⟨hqueue, hport⟩ := List.append_eq_nil_iff.mp hidle
  unfold dmcAsk refill
  rw [waiting_of_dmc (dmc_showHeld _)]
  simp only [setDmc, hport, List.nil_append, List.foldl_cons, List.foldl_nil]
  split <;> simp [waiting, hqueue]

theorem waiting_dmcOwn_held {q : DramReq} {s : State} (h : dmcState s = 4 ∨ dmcState s = 6) (hidle : waiting s = []) :
    waiting (dmcOwn q s) = [heldReq q s] := by
  rw [dmcOwn_held h, ← waiting_dmcAsk_idle hidle]
  split <;> rfl

/-- The write waits: memory is as it was (R361). -/
theorem mem_dmcOwn_held {q : DramReq} {s : State} (h : dmcState s = 4 ∨ dmcState s = 6) : (dmcOwn q s).mem = s.mem := by
  have named : true = true := rfl
  have hask : (dmcAsk (heldReq q s) s).mem = s.mem := congrArg Prod.fst (same_of_allBut (k := .mem) (dmcAsk_ok .start))
  rw [dmcOwn_held h, ← hask]
  split <;> rfl

/-- The bytes of a write stand in its request at their places in the line. -/
theorem data_writeReq {cls a i : Nat} {bs : List Byte} (hline : a % 64 + bs.length ≤ 64) (hi : i < bs.length) :
    (writeReq cls 64 a bs).data.getD (a % 64 + i) 0 = bs.getD i 0 := by
  unfold writeReq
  dsimp only
  rw [List.getD_eq_getElem?_getD, List.getD_eq_getElem?_getD, List.getElem?_take_of_lt (by omega), List.append_assoc,
    List.getElem?_append_right (by simp), List.length_replicate, Nat.add_sub_cancel_left, List.getElem?_append_left hi]

theorem length_data_writeReq (cls a : Nat) (bs : List Byte) : (writeReq cls 64 a bs).data.length = 64 := by
  simp only [writeReq, List.length_take, List.length_append, List.length_replicate]
  omega

theorem mask_writeReq {cls a i : Nat} {bs : List Byte} (hi : i < bs.length) : nbit (writeReq cls 64 a bs).mask (a % 64 + i) = true := by
  change ((2 ^ bs.length - 1) * 2 ^ (a % 64)).testBit (a % 64 + i) = true
  rw [Nat.mul_comm, Nat.testBit_two_pow_mul, Nat.testBit_two_pow_sub_one]
  simp [hi]

/-- Reads see the bytes of a write that waits alone (R361). -/
theorem mseen_of_waiting_writeReq {t s : State} {cls a i : Nat} {bs : List Byte} (hw : waiting t = [heldReq (writeReq cls 64 a bs) s])
    (hline : a % 64 + bs.length ≤ 64) (hi : i < bs.length) (hlow : a < 0x80000000) : mseen t (a + i) = bs.getD i 0 := by
  have haddr : (heldReq (writeReq cls 64 a bs) s).addr = a - a % 64 := rfl
  have hdata : (heldReq (writeReq cls 64 a bs) s).data = (writeReq cls 64 a bs).data := rfl
  have hmask : (heldReq (writeReq cls 64 a bs) s).mask = (writeReq cls 64 a bs).mask := rfl
  have hwrite : (heldReq (writeReq cls 64 a bs) s).write = true := rfl
  have hplace : a + i - (a - a % 64) = a % 64 + i := by omega
  have hin : a - a % 64 ≤ a + i ∧ a + i < a - a % 64 + 64 := by omega
  have hfound : [heldReq (writeReq cls 64 a bs) s].reverse.find? (fun q => q.write &&
      decide (q.addr ≤ a + i ∧ a + i < q.addr + q.data.length) && nbit q.mask (a + i - q.addr)) = some (heldReq (writeReq cls 64 a bs) s) := by
    rw [List.reverse_singleton]
    refine List.find?_cons_of_pos ?_
    rw [hwrite, haddr, hdata, hmask, length_data_writeReq, hplace, mask_writeReq hi, decide_eq_true hin]
    rfl
  unfold mseen
  rw [if_neg (by omega), hw, hfound]
  dsimp only
  rw [haddr, hdata, hplace, data_writeReq hline hi]

theorem isDram_lt {s : State} {a : Nat} (h : isDram s a = true) : a < 0x80000000 := by
  have hlt : a < dramTop s := of_decide_eq_true (Bool.and_eq_true_iff.mp h).2
  unfold dramTop at hlt
  dsimp only at hlt
  split at hlt <;> split at hlt <;> omega

theorem isDram_state {s : State} {a : Nat} (h : isDram s a = true) : dmcState s = 2 ∨ dmcState s = 3 ∨ dmcState s = 4 ∨ dmcState s = 6 := by
  have hmapped : dramMapped s = true := (Bool.and_eq_true_iff.mp h).1
  simpa [dramMapped, dmcState, or_assoc] using hmapped

theorem fld_setFill {f : Fld} (n : Nat) (s : State) (h : [RED_BP_FILL.FILL, RED_BP_FILL.PEAK].Forall (Apart f)) :
    fld (setFill n s) f = fld s f := (setFill_writes n s).flds f h

/-- The write fills the buffer; the line that is in DRAM waits at its controller. -/
theorem captureWrite_results {s : State} {a : Nat} {bs : List Byte} (hready : dmcState s ≠ 2) (hentry : dmcState s ≠ 3) (hne : bs ≠ [])
    (hline : a % 64 + bs.length ≤ 64) : ∃ t, captureWrite a bs s = t ∧ t.red.fill = s.red.fill + bs.length ∧
      fld t RED_BP_FILL.FILL = min ((t.red.fill + 63) / 64) 16384 ∧
      fld t RED_BP_FILL.PEAK = max (fld t RED_BP_FILL.FILL) (fld s RED_BP_FILL.PEAK) ∧
      (isDram s a = true → t.mem = s.mem ∧ (waiting s = [] → ∀ i < bs.length, mseen t (a + i) = bs.getD i 0)) := by
  have named : true = true := rfl
  let u := setFill (s.red.fill + bs.length) s
  have hred : (writePart 0 u (a, bs)).red.fill = s.red.fill + bs.length := by rw [red_writePart, red_setFill]
  have hreg : ∀ f : Fld, f.reg = RED_BP_FILL → fld (writePart 0 u (a, bs)) f = fld u f := fun f hf => by
    rw [fld, (DramOnly.writePart 0 u (a, bs)).regs f.reg (hf ▸ by decide), ← fld]
  have hstate : dmcState u = dmcState s := fld_setFill _ s (by decide)
  have hdram : isDram u a = isDram s a := by
    have hsize : flag u DMC_STATUS.SIZE = flag s DMC_STATUS.SIZE := (setFill_writes _ s).flag (by decide)
    have hecc : flag u DMC_CFG.ECC_EN = flag s DMC_CFG.ECC_EN := (setFill_writes _ s).flag (by decide)
    have hmapped : dramMapped u = dramMapped s := by
      unfold dramMapped
      rw [show fld u DMC_STATUS.STATE = fld s DMC_STATUS.STATE from hstate]
    rw [isDram, isDram, dramTop, dramTop, hmapped, hsize, hecc]
  refine ⟨_, captureWrite_single hready hne hline, hred, ?_, ?_, fun hin => ?_⟩
  · rw [hred, hreg _ rfl, fld_fill_setFill, fillUnits]
  · rw [hreg _ rfl, hreg _ rfl, fld_peak_setFill, fld_fill_setFill]
  · have hpart : writePart 0 u (a, bs) = dmcOwn (writeReq 0 64 a bs) u := if_pos (hdram.trans hin)
    have hheld : dmcState u = 4 ∨ dmcState u = 6 := by
      rw [hstate]
      have hmapped := isDram_state hin
      omega
    have hmem : u.mem = s.mem := congrArg Prod.fst (same_of_allBut (k := .mem) (setFill_ok .start))
    have hdmc : u.dmc = s.dmc := same_of_allBut (k := .dmc) (setFill_ok .start)
    refine ⟨hpart ▸ (mem_dmcOwn_held hheld).trans hmem, fun hidle i hi => ?_⟩
    have hwaiting : waiting (writePart 0 u (a, bs)) = [heldReq (writeReq 0 64 a bs) u] := by
      rw [hpart]
      exact waiting_dmcOwn_held hheld ((waiting_of_dmc hdmc).trans hidle)
    exact mseen_of_waiting_writeReq hwaiting hline hi (isDram_lt hin)

/-- Settles O23, clause by clause: the two commands by what is pending, a COMMIT and a SET_SEQ at their boundary by
`redCmdBoundary_commits` and `redCmdBoundary_setsSeq`, the stages by `stageEntered_results` and the fields that `stageExited` writes, a write of
the record path by `captureWrite_results`. -/
theorem catalogueAndRecordBuffer : Obligations.CatalogueAndRecordBuffer :=
  ⟨catalogueCommit_results, setSeq_results, fun _ _ hdue hop => redCmdBoundary_commits hdue hop,
    fun _ _ hdue hop hout => redCmdBoundary_setsSeq hdue hop hout, redBp_stage2, redBp_stage1, bpStageExit_results,
    fun _ _ _ hready hentry hne hline => captureWrite_results hready hentry hne hline⟩

end Sys2Proof.Machine

namespace Sys2Proof.Machine
open Sys2Proof

/-! ### The record and the STATE of a ring (R173) -/

theorem ringOf_of_acq {s t : State} (h : t.acq = s.acq) (r : Nat) : ringOf t r = ringOf s r := by rw [ringOf, ringOf, h]

theorem ringOf_setRing_same (r : Nat) (x : Ring) (s : State) : ringOf (setRing r x s) r = x := tget_tput_same ..

/-- The ring's record with the boundary at which it enters a state. -/
def ringEntered (r : Nat) (s : State) : State := setRing r { ringOf s r with since := s.bnd } s

/-- RAW_LOAD and ACTIVE follow the state that is entered. -/
theorem setRingState_eq (r st : Nat) (s : State) : ∃ load active, setRingState r st s =
    setFld (setFld (setFld (ringEntered r s) (ACQ_RINGr_STATUS.STATE r) st) ACQ_STATUS.RAW_LOAD load) ACQ_STATUS.ACTIVE active :=
  ⟨_, _, rfl⟩

theorem ringOf_setRingState (r st : Nat) (s : State) : ringOf (setRingState r st s) r = { ringOf s r with since := s.bnd } :=
  ringOf_setRing_same ..

theorem setRingState_writes (r st : Nat) (s : State) :
    Writes [ACQ_RINGr_STATUS.STATE r, ACQ_STATUS.RAW_LOAD, ACQ_STATUS.ACTIVE] s (setRingState r st s) := by
  have hentered : Writes [] s (ringEntered r s) := .of_eq rfl rfl rfl
  obtain ⟨load, active, heq⟩ := setRingState_eq r st s
  rw [heq]
  exact ((hentered.trans (.setFld (ACQ_RINGr_STATUS.STATE r) st _)).trans (.setFld ACQ_STATUS.RAW_LOAD load _)).trans
    (.setFld ACQ_STATUS.ACTIVE active _)

theorem settled_setRingState {s : State} (r st : Nat) (hs : Settled s) : Settled (setRingState r st s) := hs

theorem ringState_setRingState {st : Nat} (r : Nat) (s : State) (hst : st < 8) : ringState (setRingState r st s) r = st := by
  obtain ⟨load, active, heq⟩ := setRingState_eq r st s
  have hstatus : (ACQ_RINGr_STATUS.STATE r).reg ≠ ACQ_STATUS := by dsimp only [ACQ_STATUS]; omega
  rw [ringState, heq, fld_setFld_reg _ _ _ _ hstatus, fld_setFld_reg _ _ _ _ hstatus]
  exact fld_setFld_fits _ (Nat.le_of_ble_eq_true rfl) hst

theorem rd_setRingState {a r : Nat} (st : Nat) (s : State) (hring : a ≠ ACQ_RINGr_STATUS r) (hsum : a ≠ ACQ_STATUS) :
    rd (setRingState r st s) a = rd s a :=
  (setRingState_writes r st s).rd
    ⟨apart_word (Nat.le_of_ble_eq_true rfl) hring, apart_word (by decide) hsum, apart_word (by decide) hsum⟩

theorem ringState_of_rd {s t : State} {r : Nat} (h : rd t (ACQ_RINGr_STATUS r) = rd s (ACQ_RINGr_STATUS r)) :
    ringState t r = ringState s r := by
  rw [ringState, fld, h]
  rfl

theorem ringState_setRingState_other {q r : Nat} (st : Nat) (s : State) (h : q ≠ r) : ringState (setRingState r st s) q = ringState s q :=
  ringState_of_rd (rd_setRingState st s (by dsimp only [ACQ_RINGr_STATUS]; omega) (by dsimp only [ACQ_RINGr_STATUS, ACQ_STATUS]; omega))

theorem isPending_of_rd {s t : State} {a : Nat} (h : rd t a = rd s a) : isPending t a = isPending s a := by
  rw [isPending, isPending, fld, fld, h]

theorem isPending_setRingState (r st : Nat) (s : State) : isPending (setRingState r st s) (ACQ_RINGr_CMD r) = isPending s (ACQ_RINGr_CMD r) :=
  isPending_of_rd (rd_setRingState st s (by dsimp only [ACQ_RINGr_STATUS, ACQ_RINGr_CMD]; omega)
    (by dsimp only [ACQ_RINGr_CMD, ACQ_STATUS]; omega))

/-- The end of a command of the ring is no change of its state. -/
theorem ringState_complete (r code : Nat) (s : State) : ringState (complete (ACQ_RINGr_CMD r) code s) r = ringState s r :=
  ringState_of_rd (complete_rd _ _ _ (by dsimp only [ACQ_RINGr_STATUS, ACQ_RINGr_CMD]; omega))

theorem ringOf_complete (a code : Nat) (s : State) (r : Nat) : ringOf (complete a code s) r = ringOf s r := ringOf_of_acq rfl r

theorem ended_complete_now (a : Nat) (s : State) : Ended a 0 (complete a 0 s) := ⟨complete_status a 0 s, complete_isPending a 0 s⟩

/-! ### The answers of a ring's command register (R10, R401) -/

theorem ringCmd_low (r : Fin 64) : ACQ_RINGr_CMD r < 0xA00C0000 := by dsimp only [ACQ_RINGr_CMD]; omega

theorem outsideLdg_of_acq {a : Nat} (h : a < 0xA00C0000) : OutsideLdg a := outsideLdg_of (.inl (by omega))

/-- The registers that a refusal writes lie above the rings. -/
theorem ne_refused_of_low {a : Nat} (h : a < 0xA00C0000) : a ≠ HLT_REFUSED ∧ a ≠ HLT_REFUSED_LAST :=
  ⟨Nat.ne_of_lt (h.trans_le (by decide)), Nat.ne_of_lt (h.trans_le (by decide))⟩

theorem refused_ringCmd (r : Fin 64) (s : State) : Refused (ACQ_RINGr_CMD r) s (settle (refuse (ACQ_RINGr_CMD r) s)) := by
  have hlow := ringCmd_low r
  have hring : 0xA0040000 ≤ ACQ_RINGr_CMD r := by dsimp only [ACQ_RINGr_CMD]; omega
  obtain ⟨hcount, hlast⟩ := ne_refused_of_low hlow
  exact refused_refuse _ s (outsideLdg_of_acq hlow) hcount hlast (by omega) (by omega)
    fun c hc => watch_outside hc (n := 238) (by decide) _ (.inr (by omega))

/-- A refusal leaves PEND as it was (R401). -/
theorem isPending_settle_refuse {a : Nat} (s : State) (h : a < 0xA00C0000) : isPending (settle (refuse a s)) a = isPending s a := by
  have ha : OutsideLdg a := outsideLdg_of_acq h
  obtain ⟨hcount, hlast⟩ := ne_refused_of_low h
  rw [isPending, fld_settle _ ⟨a, 23, 1⟩ ha]
  unfold refuse
  dsimp only
  rw [fld, (raise_quiet _ _).1 a ha, (count_quiet _ _ _).1 a ha, rd_setFld_other _ HLT_REFUSED_LAST.OFFSET _ a hlast, addSat,
    rd_setFld_other _ HLT_REFUSED.COUNT _ a hcount, isPending, ← pend_setCode a 1 s, fld]

/-- An answer at once, whatever the step posts beside it. -/
theorem settle_reject_results {a code : Nat} (s : State) (ha : a < 0xA00C0000) (hc : code < 256) :
    fld (settle (reject a code s)) ⟨a, 24, 8⟩ = code ∧ isPending (settle (reject a code s)) a = isPending s a ∧
      (settle (reject a code s)).accepted = s.accepted ∧
      ∀ b, b ≠ a → b < 0xA00C0000 → rd (settle (reject a code s)) b = rd s b := by
  have hpend : isPending (settle (reject a code s)) a = isPending (reject a code s) a :=
    isPending_of_rd (rd_settle _ _ (outsideLdg_of_acq ha))
  refine ⟨?_, hpend.trans (reject_isPending ..), settle_same _ .accepted, fun b hb hlow => ?_⟩
  · rw [fld_settle _ ⟨a, 24, 8⟩ (outsideLdg_of_acq ha), reject, code_setCode]
    exact Nat.mod_eq_of_lt hc
  · rw [rd_settle _ _ (outsideLdg_of_acq hlow), reject, rd_setFld_other _ _ _ _ hb]

end Sys2Proof.Machine

namespace Sys2Proof.Machine
open Sys2Proof

/-! ### ARM (R168, R175, R191) -/

section

variable (s : State) (r : Fin 64)

theorem rd_armCompute {a : Nat} (hcap : a ≠ ACQ_RINGr_CAPACITY r) (hneed : a ≠ ACQ_RINGr_FOLIO_NEED r) :
    rd (armCompute r s) a = rd s a := by
  unfold armCompute
  dsimp only
  rw [rd_wr_other _ _ hneed, rd_wr_other _ _ hcap]

theorem need_armCompute : rd (armCompute r s) (ACQ_RINGr_FOLIO_NEED r) = w32 (folioNeed s r) := rd_wr_same ..

theorem isPending_armCompute : isPending (armCompute r s) (ACQ_RINGr_CMD r) = isPending s (ACQ_RINGr_CMD r) :=
  isPending_of_rd (rd_armCompute s r (by dsimp only [ACQ_RINGr_CMD, ACQ_RINGr_CAPACITY]; omega)
    (by dsimp only [ACQ_RINGr_CMD, ACQ_RINGr_FOLIO_NEED]; omega))

theorem ringState_armCompute : ringState (armCompute r s) r = ringState s r :=
  ringState_of_rd (rd_armCompute s r (by dsimp only [ACQ_RINGr_STATUS, ACQ_RINGr_CAPACITY]; omega)
    (by dsimp only [ACQ_RINGr_STATUS, ACQ_RINGr_FOLIO_NEED]; omega))

theorem need_ne_cmd : ACQ_RINGr_FOLIO_NEED r ≠ ACQ_RINGr_CMD r := by dsimp only [ACQ_RINGr_CMD, ACQ_RINGr_FOLIO_NEED]; omega

theorem need_low : ACQ_RINGr_FOLIO_NEED r < 0xA00C0000 := by dsimp only [ACQ_RINGr_FOLIO_NEED]; omega

theorem acq_of_arm {t : State} (h : exec (.arm r) s = .next t) : t.acq = s.acq := exec_same h (show Comp.acq ∉ [.accepted] by decide)

variable {s r}

theorem exec_arm_busy (hpend : isPending s (ACQ_RINGr_CMD r) = true) :
    exec (.arm r) s = .next (settle (reject (ACQ_RINGr_CMD r) 2 (armCompute r s))) :=
  if_pos ((isPending_armCompute s r).trans hpend)

theorem exec_arm_active (hpend : isPending s (ACQ_RINGr_CMD r) = false) (hstate : ringState s r ≠ 0) :
    exec (.arm r) s = .next (settle (refuse (ACQ_RINGr_CMD r) (armCompute r s))) := by
  change execArm r s = _
  unfold execArm
  dsimp only
  rw [isPending_armCompute, hpend, if_neg Bool.false_ne_true, ringState_armCompute, if_pos hstate]
  rfl

/-- In STOPPED the outcome is that of the checks. -/
theorem exec_arm_stopped (hpend : isPending s (ACQ_RINGr_CMD r) = false) (hstate : ringState s r = 0) :
    exec (.arm r) s = (armJudge (armCompute r s) r).elim
      (if armOverlaps (armCompute r s) r then .fault .misuseOverlap else done (accept (ACQ_RINGr_CMD r) 1 (armCompute r s)))
      (fun code => done (reject (ACQ_RINGr_CMD r) code (armCompute r s))) := by
  change execArm r s = _
  unfold execArm
  dsimp only
  rw [isPending_armCompute, hpend, if_neg Bool.false_ne_true, ringState_armCompute, if_neg (not_not_intro hstate)]
  cases armJudge (armCompute r s) r <;> rfl

/-- A check that fails answers BAD_TARGET or NO_RESOURCE (R10, R175). -/
theorem armJudge_codes {code : Nat} (h : armJudge s r = some code) : code = 3 ∨ code = 4 := by
  unfold armJudge at h
  dsimp only at h
  split_ifs at h <;> simp_all

theorem arm_answers {code : Nat} (hc : code < 256)
    (hexec : exec (.arm r) s = .next (settle (reject (ACQ_RINGr_CMD r) code (armCompute r s)))) : ∃ t, exec (.arm r) s = .next t ∧
      fld t ⟨ACQ_RINGr_CMD r, 24, 8⟩ = code ∧ isPending t (ACQ_RINGr_CMD r) = isPending s (ACQ_RINGr_CMD r) ∧ t.accepted = s.accepted ∧
      t.acq = s.acq ∧ rd t (ACQ_RINGr_FOLIO_NEED r) = w32 (folioNeed s r) := by
  obtain ⟨hcode, hpend, haccepted, hrd⟩ := settle_reject_results (armCompute r s) (ringCmd_low r) hc
  exact ⟨_, hexec, hcode, hpend.trans (isPending_armCompute s r), haccepted, acq_of_arm s r hexec,
    (hrd _ (need_ne_cmd r) (need_low r)).trans (need_armCompute s r)⟩

theorem arm_busy (hpend : isPending s (ACQ_RINGr_CMD r) = true) : ∃ t, exec (.arm r) s = .next t ∧
      fld t ⟨ACQ_RINGr_CMD r, 24, 8⟩ = 2 ∧ isPending t (ACQ_RINGr_CMD r) = true ∧ t.accepted = s.accepted ∧ t.acq = s.acq ∧
      rd t (ACQ_RINGr_FOLIO_NEED r) = w32 (folioNeed s r) :=
  hpend ▸ arm_answers (by decide) (exec_arm_busy hpend)

theorem arm_fails {code : Nat} (hpend : isPending s (ACQ_RINGr_CMD r) = false) (hstate : ringState s r = 0)
    (hjudge : armJudge (armCompute r s) r = some code) : ∃ t, exec (.arm r) s = .next t ∧
      fld t ⟨ACQ_RINGr_CMD r, 24, 8⟩ = code ∧ isPending t (ACQ_RINGr_CMD r) = false ∧ t.accepted = s.accepted ∧ t.acq = s.acq ∧
      rd t (ACQ_RINGr_FOLIO_NEED r) = w32 (folioNeed s r) := by
  have hexec := exec_arm_stopped hpend hstate
  have hcode := armJudge_codes hjudge
  rw [hjudge] at hexec
  exact hpend ▸ arm_answers (by omega) hexec

/-- A WATCH word lies below the rings. -/
theorem posted_of_armCompute {t : State} (h : Posted 238 (armCompute r s) t) : Posted 238 s t := by
  intro c hc hw
  refine h c hc ?_
  rw [watches, rd_armCompute _ _ (by unfold TOP_COREn_WATCHk ACQ_RINGr_CAPACITY; omega)
    (by unfold TOP_COREn_WATCHk ACQ_RINGr_FOLIO_NEED; omega)]
  exact hw

theorem arm_refused (hpend : isPending s (ACQ_RINGr_CMD r) = false) (hstate : ringState s r ≠ 0) : ∃ t, exec (.arm r) s = .next t ∧
      fld t ⟨ACQ_RINGr_CMD r, 24, 8⟩ = 1 ∧ isPending t (ACQ_RINGr_CMD r) = false ∧ t.accepted = s.accepted ∧ t.acq = s.acq ∧
      rd t (ACQ_RINGr_FOLIO_NEED r) = w32 (folioNeed s r) ∧ Posted 238 s t := by
  have hexec := exec_arm_active hpend hstate
  have hneed := need_low r
  obtain ⟨hcount, hlast⟩ := ne_refused_of_low hneed
  obtain ⟨hcode, haccepted, -, -, hposted, hrd⟩ := refused_ringCmd r (armCompute r s)
  have hstays := isPending_settle_refuse (armCompute r s) (ringCmd_low r)
  refine ⟨_, hexec, hcode, (hstays.trans (isPending_armCompute s r)).trans hpend, haccepted, acq_of_arm s r hexec, ?_,
    posted_of_armCompute hposted⟩
  rw [hrd _ (need_ne_cmd r) hcount hlast (.inl (by omega)), need_armCompute]

theorem arm_overlaps (hpend : isPending s (ACQ_RINGr_CMD r) = false) (hstate : ringState s r = 0)
    (hjudge : armJudge (armCompute r s) r = none) (hover : armOverlaps (armCompute r s) r = true) :
    exec (.arm r) s = .fault .misuseOverlap := by
  rw [exec_arm_stopped hpend hstate, hjudge]
  exact if_pos hover

theorem arm_accepted (hs : Settled s) (hpend : isPending s (ACQ_RINGr_CMD r) = false) (hstate : ringState s r = 0)
    (hjudge : armJudge (armCompute r s) r = none) (hover : armOverlaps (armCompute r s) r = false) : ∃ t, exec (.arm r) s = .next t ∧
      isPending t (ACQ_RINGr_CMD r) = true ∧ t.accepted = tins (tdrop s.accepted (ACQ_RINGr_CMD r)) (ACQ_RINGr_CMD r) ⟨s.bnd, tick s, clk s, 1⟩ ∧
      t.acq = s.acq ∧ rd t (ACQ_RINGr_FOLIO_NEED r) = w32 (folioNeed s r) ∧ ∀ a, a ≠ ACQ_RINGr_CMD r → a ≠ ACQ_RINGr_CAPACITY r →
        a ≠ ACQ_RINGr_FOLIO_NEED r → rd t a = rd s a := by
  have hexec := exec_arm_stopped hpend hstate
  rw [hjudge, hover] at hexec
  obtain ⟨hnow, haccepted, hrd⟩ := accepted_accept (ACQ_RINGr_CMD r) 1 (armCompute r s) hs
  exact ⟨_, hexec, hnow, haccepted, acq_of_arm s r hexec, (hrd _ (need_ne_cmd r)).trans (need_armCompute s r),
    fun a hcmd hcap hneed => (hrd a hcmd).trans (rd_armCompute s r hcap hneed)⟩

end

/-! ### DISARM and RING_TRIGGER_CMD (R175) -/

/-- A command of an active ring, with operation code `op`, is taken, or answered as its register stands. -/
def askActive (r : Fin 64) (op : Word) (s : State) : State :=
  if isPending s (ACQ_RINGr_CMD r) then reject (ACQ_RINGr_CMD r) 2 s
  else if ringState s r = 0 then refuse (ACQ_RINGr_CMD r) s else accept (ACQ_RINGr_CMD r) op s

theorem exec_disarm (r : Fin 64) (s : State) : exec (.disarm r) s = .next (settle (askActive r 2 s)) := by
  change execDisarm r s = _
  unfold execDisarm askActive
  split
  · rfl
  · split <;> rfl

theorem exec_ringTriggerCmd (r : Fin 64) (s : State) : exec (.ringTriggerCmd r) s = .next (settle (askActive r 3 s)) := by
  change execRingTriggerCmd r s = _
  unfold execRingTriggerCmd askActive
  split
  · rfl
  · split <;> rfl

theorem settle_askActive {s : State} (r : Fin 64) (op : Word) (hs : Settled s) :
    if isPending s (ACQ_RINGr_CMD r) then Answered (ACQ_RINGr_CMD r) 2 s (settle (askActive r op s))
    else if ringState s r = 0 then Refused (ACQ_RINGr_CMD r) s (settle (askActive r op s))
    else Accepted (ACQ_RINGr_CMD r) op s (settle (askActive r op s)) := by
  unfold askActive
  split
  · exact answered_reject _ _ s hs (by decide)
  · split
    · exact refused_ringCmd r s
    · exact accepted_accept _ _ s hs

theorem disarm_results (s : State) (r : Fin 64) (hs : Settled s) : ∃ t, exec (.disarm r) s = .next t ∧ t.acq = s.acq ∧
      if isPending s (ACQ_RINGr_CMD r) then Answered (ACQ_RINGr_CMD r) 2 s t
      else if ringState s r = 0 then Refused (ACQ_RINGr_CMD r) s t else Accepted (ACQ_RINGr_CMD r) 2 s t :=
  ⟨_, exec_disarm r s, exec_same (exec_disarm r s) (show Comp.acq ∉ [.accepted] by decide), settle_askActive r 2 hs⟩

theorem ringTriggerCmd_results (s : State) (r : Fin 64) (hs : Settled s) : ∃ t, exec (.ringTriggerCmd r) s = .next t ∧ t.acq = s.acq ∧
      if isPending s (ACQ_RINGr_CMD r) then Answered (ACQ_RINGr_CMD r) 2 s t
      else if ringState s r = 0 then Refused (ACQ_RINGr_CMD r) s t else Accepted (ACQ_RINGr_CMD r) 3 s t :=
  ⟨_, exec_ringTriggerCmd r s, exec_same (exec_ringTriggerCmd r s) (show Comp.acq ∉ [.accepted] by decide), settle_askActive r 3 hs⟩

end Sys2Proof.Machine

namespace Sys2Proof.Machine
open Sys2Proof

/-! ### What time alone makes of a ring (R183) -/

section

variable {s : State} {r : Nat}

theorem fillNow_of_ne (h : ringState s r ≠ 3) : fillNow r s = s := by
  have hdue : fillDue s r = false := by rw [fillDue, decide_eq_false h, Bool.false_and]
  rw [fillNow, hdue, if_neg Bool.false_ne_true]

theorem rearmDue_of_ne (h : ringState s r ≠ 4) : rearmDue s r = false := by rw [rearmDue, decide_eq_false h, Bool.false_and]

theorem advanceRing_eq (hpost : ringState s r ≠ 3) : advanceRing r s = if rearmDue s r then setRingState r 1 s else s := by
  unfold advanceRing
  dsimp only
  rw [fillNow_of_ne hpost]

/-- Only POST and REARM end by time. -/
theorem advanceRing_of_ne (hpost : ringState s r ≠ 3) (hrearm : ringState s r ≠ 4) : advanceRing r s = s := by
  rw [advanceRing_eq hpost, rearmDue_of_ne hrearm, if_neg Bool.false_ne_true]

theorem ringState_advanceRing (h : ringState s r = 1 ∨ ringState s r = 4) :
    ringState (advanceRing r s) r = 1 ∨ ringState (advanceRing r s) r = 4 := by
  rw [advanceRing_eq (by omega)]
  split
  · exact .inl (ringState_setRingState r s (by decide))
  · exact h

/-! ### The commands at their boundary (R175, R180 to R183) -/

theorem ringOf_armNow (r : Nat) (s : State) : (ringOf (armNow r s) r).armLap = lapD s ∧ (ringOf (armNow r s) r).lmax = ringLatency s r := by
  unfold armNow
  dsimp only
  rw [ringOf_setRingState, ringOf_setRing_same]
  exact ⟨rfl, rfl⟩

theorem ringCmdBoundary_arm {w : Word} (hdue : dueCmd s (ACQ_RINGr_CMD r) = some w) (hop : opOf w = 1) (hdisarm : (ringOf s r).disarm = false)
    (hstate : ringState s r = 0) (hjudge : armJudge s r = none) : ringCmdBoundary s r = complete (ACQ_RINGr_CMD r) 0 (armNow r s) := by
  unfold ringCmdBoundary
  rw [hdue]
  dsimp only
  rw [hdisarm, if_neg Bool.false_ne_true, if_pos hop, advanceRing_of_ne (by omega) (by omega), if_pos ⟨hstate, hjudge⟩]

theorem ringCmdBoundary_arms {w : Word} (hdue : dueCmd s (ACQ_RINGr_CMD r) = some w) (hop : opOf w = 1) (hdisarm : (ringOf s r).disarm = false)
    (hstate : ringState s r = 0) (hjudge : armJudge s r = none) : Ended (ACQ_RINGr_CMD r) 0 (ringCmdBoundary s r) ∧
      ringState (ringCmdBoundary s r) r = 1 ∧ (ringOf (ringCmdBoundary s r) r).armLap = lapD s ∧
      (ringOf (ringCmdBoundary s r) r).lmax = ringLatency s r := by
  rw [ringCmdBoundary_arm hdue hop hdisarm hstate hjudge, ringState_complete, ringOf_complete]
  exact ⟨ended_complete_now .., ringState_setRingState _ _ (by decide), ringOf_armNow r s⟩

/-- A DISARM in any state but STOPPED acts on the ring as time has left it. -/
theorem ringCmdBoundary_disarm {w : Word} (hdue : dueCmd s (ACQ_RINGr_CMD r) = some w) (hop : opOf w = 2)
    (hdisarm : (ringOf s r).disarm = false) (hstate : ringState (advanceRing r s) r ≠ 0) :
    ringCmdBoundary s r = disarmNow r (advanceRing r s) := by
  unfold ringCmdBoundary
  rw [hdue]
  dsimp only
  rw [hdisarm, if_neg Bool.false_ne_true, if_neg (by omega), if_neg hstate, if_pos hop]

theorem disarmNow_idle (h : ringState s r = 1 ∨ ringState s r = 4) :
    disarmNow r s = complete (ACQ_RINGr_CMD r) 0 (setRingState r 0 s) := by
  unfold disarmNow
  dsimp only
  rw [if_neg (by omega)]

theorem ringCmdBoundary_stops {w : Word} (hdue : dueCmd s (ACQ_RINGr_CMD r) = some w) (hop : opOf w = 2) (hdisarm : (ringOf s r).disarm = false)
    (hstate : ringState s r = 1 ∨ ringState s r = 4) :
    Ended (ACQ_RINGr_CMD r) 0 (ringCmdBoundary s r) ∧ ringState (ringCmdBoundary s r) r = 0 := by
  have hnow := ringState_advanceRing hstate
  rw [ringCmdBoundary_disarm hdue hop hdisarm (by omega), disarmNow_idle hnow, ringState_complete]
  exact ⟨ended_complete_now .., ringState_setRingState _ _ (by decide)⟩

/-- The folio of an open window that a DISARM truncates at the present boundary. -/
def truncated (s : State) (r : Nat) (f : Folio) : Folio := closeFolio s r (lapD s - 1) { f with trunc := true, close := lapD s }

theorem disarmNow_open {f : Folio} (hstate : ringState s r = 2) (hfolio : (ringOf s r).folio = some f) (hlast : f.last = none) :
    disarmNow r s = setRingState r 3 (setRing r { ringOf s r with folio := some (truncated s r f), disarm := true } s) := by
  unfold disarmNow truncated
  simp only [hstate, hfolio, hlast, true_or, if_true]

theorem ringCmdBoundary_truncates {w : Word} {f : Folio} (hdue : dueCmd s (ACQ_RINGr_CMD r) = some w) (hop : opOf w = 2)
    (hdisarm : (ringOf s r).disarm = false) (hstate : ringState s r = 2) (hfolio : (ringOf s r).folio = some f) (hlast : f.last = none) :
    ringState (ringCmdBoundary s r) r = 3 ∧ isPending (ringCmdBoundary s r) (ACQ_RINGr_CMD r) = isPending s (ACQ_RINGr_CMD r) ∧
      ∃ g, (ringOf (ringCmdBoundary s r) r).folio = some g ∧ g.trunc = true ∧ g.close = lapD s ∧ g.last = some (lapD s - 1) ∧
        g.e = bndOfLap s (lapD s - 1 + (ringOf s r).lmax) := by
  have hstill : advanceRing r s = s := advanceRing_of_ne (by omega) (by omega)
  rw [ringCmdBoundary_disarm hdue hop hdisarm (by rw [hstill]; omega), hstill, disarmNow_open hstate hfolio hlast, isPending_setRingState,
    ringOf_setRingState, ringOf_setRing_same]
  exact ⟨ringState_setRingState _ _ (by decide), rfl, truncated s r f, rfl, rfl, rfl, rfl, rfl⟩

end

/-! ### REARM_END and FOLIO_SLOT_RELEASE (R183, R186) -/

theorem rearmEnd_results {s : State} {r : Fin 64} (hs : Settled s) (hdue : rearmDue s r = true) : ∃ t, exec (.rearmEnd r) s = .next t ∧
      ringState t r = 1 ∧ (∀ q : Fin 64, q ≠ r → ringState t q = ringState s q) ∧
      ∀ a, a ≠ ACQ_RINGr_STATUS r → a ≠ ACQ_STATUS → rd t a = rd s a := by
  have hexec : exec (.rearmEnd r) s = done (setRingState r 1 s) := congrArg done (if_pos hdue)
  exact ⟨_, hexec.trans (done_settled_next (settled_setRingState r 1 hs)), ringState_setRingState _ s (by decide),
    fun q hq => ringState_setRingState_other 1 s (Fin.val_ne_of_ne hq), fun a hring hsum => rd_setRingState 1 s hring hsum⟩

/-- Whether a write of `w` frees slot `k`. -/
def frees (s : State) (r : Nat) (w : Word) (k : Nat) : Bool := nbit w.toNat k && !filling s r k

/-- Slot `k` after the write. -/
def releaseSlot (r : Nat) (w : Word) (s : State) (k : Nat) : State := if frees s r w k then setFld s ⟨ACQ_RINGr_SLOTS r, k, 1⟩ 0 else s

theorem releaseSlots_eq (r : Nat) (w : Word) (s : State) : releaseSlots r w s = (List.range 32).foldl (releaseSlot r w) s := rfl

theorem acq_releaseSlot (r : Nat) (w : Word) (s : State) (k : Nat) : (releaseSlot r w s k).acq = s.acq := by
  unfold releaseSlot
  split <;> rfl

theorem fab_releaseSlot (r : Nat) (w : Word) (s : State) (k : Nat) : (releaseSlot r w s k).fab = s.fab := by
  unfold releaseSlot
  split <;> rfl

theorem rd_releaseSlot {r a : Nat} (w : Word) (s : State) (k : Nat) (h : a ≠ ACQ_RINGr_SLOTS r) : rd (releaseSlot r w s k) a = rd s a := by
  unfold releaseSlot
  split
  · exact rd_setFld_other _ _ _ _ h
  · rfl

theorem frees_of_acq {s t : State} (h : t.acq = s.acq) (r : Nat) (w : Word) (k : Nat) : frees t r w k = frees s r w k := by
  rw [frees, frees, filling, filling, ringOf_of_acq h]

theorem nbit_busy (s : State) (r : Nat) {k : Nat} (hk : k < 32) :
    nbit (fld s (ACQ_RINGr_SLOTS.BUSY r)) k = (rd s (ACQ_RINGr_SLOTS r)).getLsbD k := by
  rw [nbit, fld, testBit_fget _ _ _ _ (Nat.le_refl 32), decide_eq_true hk, Bool.true_and, Nat.zero_add]

theorem nbit_busy_clearSlot (s : State) (r : Nat) {j k : Nat} (hj : j < 32) (hk : k < 32) :
    nbit (fld (setFld s ⟨ACQ_RINGr_SLOTS r, j, 1⟩ 0) (ACQ_RINGr_SLOTS.BUSY r)) k =
      (nbit (fld s (ACQ_RINGr_SLOTS.BUSY r)) k && !decide (k = j)) := by
  rw [nbit_busy _ _ hk, nbit_busy _ _ hk, setFld, rd_wr_same, getLsb_fset _ _ _ _ _ (by dsimp only; omega)]
  by_cases h : k = j
  · simp [h]
  · rw [if_neg (by dsimp only; omega)]
    simp [h]

theorem nbit_busy_releaseSlot (r : Nat) (w : Word) (s : State) {j k : Nat} (hj : j < 32) (hk : k < 32) :
    nbit (fld (releaseSlot r w s j) (ACQ_RINGr_SLOTS.BUSY r)) k =
      (nbit (fld s (ACQ_RINGr_SLOTS.BUSY r)) k && !(decide (k = j) && frees s r w k)) := by
  unfold releaseSlot
  by_cases h : k = j
  · subst h
    cases hfrees : frees s r w k <;> simp [nbit_busy_clearSlot s r hk hk]
  · split
    · simp [nbit_busy_clearSlot s r hj hk, h]
    · simp [h]

theorem nbit_busy_foldl_releaseSlot (r : Nat) (w : Word) {l : List Nat} (hl : ∀ j ∈ l, j < 32) (s : State) {k : Nat} (hk : k < 32) :
    nbit (fld (l.foldl (releaseSlot r w) s) (ACQ_RINGr_SLOTS.BUSY r)) k =
      (nbit (fld s (ACQ_RINGr_SLOTS.BUSY r)) k && !(decide (k ∈ l) && frees s r w k)) := by
  induction l generalizing s with
  | nil => simp
  | cons j l ih =>
    obtain ⟨hj, hl⟩ := List.forall_mem_cons.mp hl
    rw [List.foldl_cons, ih hl, frees_of_acq (acq_releaseSlot r w s j), nbit_busy_releaseSlot r w s hj hk]
    cases frees s r w k <;> simp [List.mem_cons, Bool.and_assoc]

theorem folioSlotRelease_results (s : State) (r : Fin 64) (bits : Word) (hs : Settled s) : ∃ t, exec (.folioSlotRelease r bits) s = .next t ∧
      (∀ k < 32, nbit (fld t (ACQ_RINGr_SLOTS.BUSY r)) k =
        (nbit (fld s (ACQ_RINGr_SLOTS.BUSY r)) k && !(nbit bits.toNat k && !filling s r k))) ∧
      (∀ a, a ≠ ACQ_RINGr_SLOTS r → rd t a = rd s a) ∧ ∀ k, same k s t := by
  have hfab : (releaseSlots r bits s).fab = s.fab := foldl_keeps (·.fab) (fab_releaseSlot r bits) _ s
  have hsettled : Settled (releaseSlots r bits s) := by rw [Settled, hfab, hs]
  have hexec : exec (.folioSlotRelease r bits) s = .next (releaseSlots r bits s) := done_settled_next hsettled
  refine ⟨_, hexec, fun k hk => ?_, fun a ha => ?_, fun k => exec_same hexec (show k ∉ [] from List.not_mem_nil)⟩
  · have hlist := nbit_busy_foldl_releaseSlot r bits (l := List.range 32) (fun j hj => List.mem_range.mp hj) s hk
    rw [decide_eq_true (List.mem_range.mpr hk), Bool.true_and] at hlist
    exact hlist
  · exact foldl_keeps (rd · a) (fun u k => rd_releaseSlot bits u k ha) _ s

/-- Settles O25: ARM by what its register, its ring and its checks answer, DISARM and TRIGGER by `settle_askActive`, the boundary by the state
in which each command finds the ring, the end of REARM, and the release of slots one by one. -/
theorem ringCommands : Obligations.RingCommands :=
  ⟨fun _ _ hpend => arm_busy hpend, fun _ _ hpend hstate => arm_refused hpend hstate,
    fun _ _ _ hpend hstate hjudge => arm_fails hpend hstate hjudge,
    fun _ _ hpend hstate hjudge hover => arm_overlaps hpend hstate hjudge hover,
    fun _ _ hs hpend hstate hjudge hover => arm_accepted hs hpend hstate hjudge hover, disarm_results, ringTriggerCmd_results,
    fun _ _ _ hdue hop hdisarm hstate hjudge => ringCmdBoundary_arms hdue hop hdisarm hstate hjudge,
    fun _ _ _ hdue hop hdisarm hstate => ringCmdBoundary_stops hdue hop hdisarm hstate,
    fun _ _ _ _ hdue hop hdisarm hstate hfolio hlast => ringCmdBoundary_truncates hdue hop hdisarm hstate hfolio hlast,
    fun _ _ hs hdue => rearmEnd_results hs hdue, folioSlotRelease_results⟩

end Sys2Proof.Machine

namespace Sys2Proof.Machine
open Sys2Proof

/-! ### The commands of CTL_CMD (R219, R220, R225, R226) -/

theorem refused_ctlCmd (s : State) : Refused CTL_CMD s (settle (refuse CTL_CMD s)) :=
  refused_refuse CTL_CMD s (outsideLdg_of (by decide)) (by decide) (by decide) (by decide) (by decide)
    fun _ hc => watch_outside hc (n := 238) (by decide) CTL_CMD (by decide)

/-- A command that may touch the accepted commands alone leaves the control engine as it was. -/
theorem next_keeping_ctl {c : Instr} {s u : State} {P : State → Prop} (hexec : exec c s = done u) (htouch : touches c = [.accepted])
    (hu : P (settle u)) : ∃ t, exec c s = .next t ∧ t.ctl = s.ctl ∧ P t :=
  ⟨_, hexec, exec_same (k := .ctl) hexec (htouch ▸ by decide), hu⟩

theorem exec_loopCommitCmd (s : State) :
    exec .loopCommitCmd s = done (if isPending s CTL_CMD then reject CTL_CMD 2 s else accept CTL_CMD 1 s) := (apply_ite done ..).symm

theorem loopCommitCmd_results (s : State) (hs : Settled s) : ∃ t, exec .loopCommitCmd s = .next t ∧ t.ctl = s.ctl ∧
      if isPending s CTL_CMD then Answered CTL_CMD 2 s t else Accepted CTL_CMD 1 s t := by
  refine next_keeping_ctl (exec_loopCommitCmd s) rfl ?_
  split
  · exact answered_reject _ _ s hs (by decide)
  · exact accepted_accept _ _ s hs

theorem exec_loopResume (n : Fin 32) (s : State) : exec (.loopResume n) s = done (if isPending s CTL_CMD then reject CTL_CMD 2 s
    else if loopState s n < 2 then refuse CTL_CMD s else accept CTL_CMD (w32 (n.val * 256 + 2)) s) := by
  rw [apply_ite done, apply_ite done]
  rfl

theorem loopResume_results (s : State) (n : Fin 32) (hs : Settled s) : ∃ t, exec (.loopResume n) s = .next t ∧ t.ctl = s.ctl ∧
      if isPending s CTL_CMD then Answered CTL_CMD 2 s t
      else if loopState s n = 2 ∨ loopState s n = 3 then Accepted CTL_CMD (w32 (n.val * 256 + 2)) s t
      else loopState s n < 2 → Refused CTL_CMD s t := by
  refine next_keeping_ctl (exec_loopResume n s) rfl ?_
  split
  · exact answered_reject _ _ s hs (by decide)
  split
  · rw [if_neg (by omega)]
    exact accepted_accept _ _ s hs
  · intro hoff
    rw [if_pos hoff]
    exact refused_ctlCmd s

theorem exec_testStart (s : State) : exec .testStart s = done (if isPending s CTL_CMD || testRunning s then reject CTL_CMD 2 s
    else if loopState s (fld s CTL_TEST_CFG.LOOP) ≠ 1 then refuse CTL_CMD s
    else if fld s CTL_TEST_CFG.WAVE = 3 ∧ fld s CTL_TEST_TLEN.VALUE = 0 then reject CTL_CMD 3 s else accept CTL_CMD 3 s) := by
  rw [apply_ite done, apply_ite done, apply_ite done]
  rfl

theorem testStart_results (s : State) (hs : Settled s) : ∃ t, exec .testStart s = .next t ∧ t.ctl = s.ctl ∧
      if isPending s CTL_CMD ∨ testRunning s then Answered CTL_CMD 2 s t
      else if loopState s (fld s CTL_TEST_CFG.LOOP) ≠ 1 then Refused CTL_CMD s t
      else if fld s CTL_TEST_CFG.WAVE = 3 ∧ fld s CTL_TEST_TLEN.VALUE = 0 then Answered CTL_CMD 3 s t else Accepted CTL_CMD 3 s t := by
  refine next_keeping_ctl (exec_testStart s) rfl ?_
  simp only [Bool.or_eq_true]
  split
  · exact answered_reject _ _ s hs (by decide)
  split
  · exact refused_ctlCmd s
  split
  · exact answered_reject _ _ s hs (by decide)
  · exact accepted_accept _ _ s hs

theorem exec_testStop (s : State) : exec .testStop s = done (if isPending s CTL_CMD then reject CTL_CMD 2 s
    else if testRunning s then accept CTL_CMD 4 s else refuse CTL_CMD s) := by
  rw [apply_ite done, apply_ite done]
  rfl

theorem testStop_results (s : State) (hs : Settled s) : ∃ t, exec .testStop s = .next t ∧ t.ctl = s.ctl ∧
      if isPending s CTL_CMD then Answered CTL_CMD 2 s t
      else if testRunning s then Accepted CTL_CMD 4 s t else Refused CTL_CMD s t := by
  refine next_keeping_ctl (exec_testStop s) rfl ?_
  split
  · exact answered_reject _ _ s hs (by decide)
  split
  · exact accepted_accept _ _ s hs
  · exact refused_ctlCmd s

/-! ### The end of a test (R221) -/

theorem stopTest_writes (s : State) : Writes [CTL_TEST_STATUS.RUNNING] s (stopTest s) :=
  (Writes.setFlag CTL_TEST_STATUS.RUNNING false s).trans (l' := []) (.raise 177 _)

theorem testRunning_stopTest (s : State) : testRunning (stopTest s) = false := by
  rw [stopTest, testRunning, flag, fld_raise, ← flag]
  exact flag_setFlag_same s _ false rfl (by decide)

theorem testRunning_settle (s : State) : testRunning (settle s) = testRunning s := flag_settle_low s (by decide)

/-- A step that writes fields of the registers from `lo` up to `hi` alone. -/
theorem Writes.regsOutside {l : List Fld} {s u : State} (h : Writes l s u) {lo hi : Nat}
    (hl : ∀ f ∈ l, f.lo + f.w ≤ 32 ∧ lo ≤ f.reg ∧ f.reg < hi) : RegsOutside lo hi s (settle u) := fun a ha hldg => by
  rw [rd_settle u a (outsideLdg_of hldg)]
  refine h.rd (List.forall_iff_forall_mem.mpr fun f hf => ?_)
  obtain ⟨hw, hlo, hhi⟩ := hl f hf
  exact apart_word hw (by omega)

theorem ctlTestEnd_results (s : State) (hrun : testRunning s = true) (hlen : 0 < s.ctl.test.len) (hticks : s.ctl.test.len ≤ s.ctl.test.ticks) :
    ∃ t, exec .ctlTestEnd s = .next t ∧ testRunning t = false ∧ Posted 177 s t ∧ t.ctl = s.ctl ∧ RegsOutside CTL_TEST_STATUS CTL_TRACE_BASE s t := by
  have hexec : exec .ctlTestEnd s = done (stopTest s) := if_pos (by simp [hrun, hlen, hticks])
  exact ⟨_, hexec, (testRunning_settle _).trans (testRunning_stopTest s), (stopTest_writes s).low.posted (by decide) (mem_raise 177 _),
    exec_same (k := .ctl) hexec List.not_mem_nil, (stopTest_writes s).regsOutside (by decide)⟩

/-! ### Setpoints and outputs written by software (R211, R213, R214, R225) -/

theorem setpointWrite_results (s : State) (n : Fin 32) (v : Word) (hs : Settled s) : ∃ t, exec (.setpointWrite n v) s = .next t ∧
      t.ctl = { s.ctl with setpoints := s.ctl.setpoints ++ [(n.val, v)] } ∧ ∀ a, rd t a = rd s a :=
  ⟨_, done_settled_next hs, rfl, fun _ => rfl⟩

section

variable (w : Word) (s : State)

theorem outputWrite_aout {j : Nat} (hj : j < 16) : outputWrite (CTL_AOUTj j) w s = setOut { s.out with aout := s.out.aout ++ [(j, w)] } s := by
  have hplace : (CTL_AOUTj j - 0xA0060200) / 4 = j := by unfold CTL_AOUTj; omega
  rw [outputWrite, if_pos (by unfold CTL_AOUTj; omega), hplace]

theorem outputWrite_pwm {a : Nat} (hlo : 0xA0060240 ≤ a) (hhi : a < 0xA00602C0) : outputWrite a w s =
    if a % 8 = 4 then setOut { s.out with duty := s.out.duty ++ [((a - 0xA0060240) / 8, w)] } s
    else { s with nextRegs := s.nextRegs ++ [(a, w &&& 0xE000FFFF)] } := by
  rw [outputWrite, if_neg (by omega), if_pos ⟨hlo, hhi⟩]

theorem outputWrite_drive {a : Nat} (hlo : 0xA0060400 ≤ a) (hhi : a < 0xA0060600) : outputWrite a w s =
    if a % 16 = 0 then { s with nextRegs := s.nextRegs ++ [(a, w &&& 0xC3FFFFFF)] }
    else if a % 16 = 4 then { s with nextRegs := s.nextRegs ++ [(a, w &&& 0xFFFF)] } else s := by
  rw [outputWrite, if_neg (by omega), if_neg (by omega), if_pos ⟨hlo, hhi⟩]

theorem outputWrite_duty {j : Nat} (hj : j < 16) :
    outputWrite (CTL_PWMj_DUTY j) w s = setOut { s.out with duty := s.out.duty ++ [(j, w)] } s := by
  have hplace : (CTL_PWMj_DUTY j - 0xA0060240) / 8 = j := by unfold CTL_PWMj_DUTY; omega
  rw [outputWrite_pwm w s (by unfold CTL_PWMj_DUTY; omega) (by unfold CTL_PWMj_DUTY; omega), if_pos (by unfold CTL_PWMj_DUTY; omega), hplace]

theorem outputWrite_pwmCfg {j : Nat} (hj : j < 16) :
    outputWrite (CTL_PWMj_CFG j) w s = { s with nextRegs := s.nextRegs ++ [(CTL_PWMj_CFG j, w &&& 0xE000FFFF)] } := by
  rw [outputWrite_pwm w s (by unfold CTL_PWMj_CFG; omega) (by unfold CTL_PWMj_CFG; omega), if_neg (by unfold CTL_PWMj_CFG; omega)]

theorem outputWrite_driveCfg {d : Nat} (hd : d < 32) :
    outputWrite (CTL_DRIVEd_CFG d) w s = { s with nextRegs := s.nextRegs ++ [(CTL_DRIVEd_CFG d, w &&& 0xC3FFFFFF)] } := by
  rw [outputWrite_drive w s (by unfold CTL_DRIVEd_CFG; omega) (by unfold CTL_DRIVEd_CFG; omega), if_pos (by unfold CTL_DRIVEd_CFG; omega)]

theorem outputWrite_driveLead {d : Nat} (hd : d < 32) :
    outputWrite (CTL_DRIVEd_LEAD d) w s = { s with nextRegs := s.nextRegs ++ [(CTL_DRIVEd_LEAD d, w &&& 0xFFFF)] } := by
  rw [outputWrite_drive w s (by unfold CTL_DRIVEd_LEAD; omega) (by unfold CTL_DRIVEd_LEAD; omega), if_neg (by unfold CTL_DRIVEd_LEAD; omega),
    if_pos (by unfold CTL_DRIVEd_LEAD; omega)]

end

/-- A write of an output word that posts nothing is the whole of the step. -/
theorem exec_outputRegisterWrite {a : Nat} {w : Word} {s u : State} (hword : a % 4 = 0) (hu : outputWrite a w s = u) (hs : Settled u) :
    exec (.outputRegisterWrite a w) s = .next u := by
  have hbase : a / 4 * 4 = a := by omega
  change done (outputWrite (a / 4 * 4) w s) = _
  rw [hbase, hu, done_settled_next hs]

theorem aoutWrite_results (s : State) (j : Fin 16) (w : Word) (hs : Settled s) : ∃ t, exec (.outputRegisterWrite (CTL_AOUTj j) w) s = .next t ∧
      t.out = { s.out with aout := s.out.aout ++ [(j.val, w)] } ∧ t.nextRegs = s.nextRegs ∧ ∀ a, rd t a = rd s a :=
  ⟨_, exec_outputRegisterWrite (by unfold CTL_AOUTj; omega) (outputWrite_aout w s j.isLt) hs, rfl, rfl, fun _ => rfl⟩

theorem dutyWrite_results (s : State) (j : Fin 16) (w : Word) (hs : Settled s) :
    ∃ t, exec (.outputRegisterWrite (CTL_PWMj_DUTY j) w) s = .next t ∧
      t.out = { s.out with duty := s.out.duty ++ [(j.val, w)] } ∧ t.nextRegs = s.nextRegs ∧ ∀ a, rd t a = rd s a :=
  ⟨_, exec_outputRegisterWrite (by unfold CTL_PWMj_DUTY; omega) (outputWrite_duty w s j.isLt) hs, rfl, rfl, fun _ => rfl⟩

theorem pwmCfgWrite_results (s : State) (j : Fin 16) (w : Word) (hs : Settled s) :
    ∃ t, exec (.outputRegisterWrite (CTL_PWMj_CFG j) w) s = .next t ∧
      t.nextRegs = s.nextRegs ++ [(CTL_PWMj_CFG j, w &&& 0xE000FFFF)] ∧ t.out = s.out ∧ ∀ a, rd t a = rd s a :=
  ⟨_, exec_outputRegisterWrite (by unfold CTL_PWMj_CFG; omega) (outputWrite_pwmCfg w s j.isLt) hs, rfl, rfl, fun _ => rfl⟩

theorem driveWrite_results (s : State) (d : Fin 32) (w : Word) (hs : Settled s) :
    ∃ t u, exec (.outputRegisterWrite (CTL_DRIVEd_CFG d) w) s = .next t ∧
      t.nextRegs = s.nextRegs ++ [(CTL_DRIVEd_CFG d, w &&& 0xC3FFFFFF)] ∧ (∀ a, rd t a = rd s a) ∧
      exec (.outputRegisterWrite (CTL_DRIVEd_LEAD d) w) s = .next u ∧
      u.nextRegs = s.nextRegs ++ [(CTL_DRIVEd_LEAD d, w &&& 0xFFFF)] ∧ ∀ a, rd u a = rd s a :=
  ⟨_, _, exec_outputRegisterWrite (by unfold CTL_DRIVEd_CFG; omega) (outputWrite_driveCfg w s d.isLt) hs, rfl, fun _ => rfl,
    exec_outputRegisterWrite (by unfold CTL_DRIVEd_LEAD; omega) (outputWrite_driveLead w s d.isLt) hs, rfl, fun _ => rfl⟩

theorem pwmPeriodStart_results (s : State) (j : Fin 16) (hs : Settled s) (hperiod : lapD s % pwmPeriod s j = 0)
    (hofs : s.tbs.pacer.ofs = 0) : ∃ t, exec (.pwmPeriodStart j) s = .next t ∧
      tget (fun _ => 0) t.out.pwmNow j = fld s (CTL_PWMj_DUTY.DUTY j) ∧
      (∀ i, i ≠ j.val → tget (fun _ => 0) t.out.pwmNow i = tget (fun _ => 0) s.out.pwmNow i) ∧ ∀ a, rd t a = rd s a := by
  have hexec : exec (.pwmPeriodStart j) s =
      done (setOut { s.out with pwmNow := tput (fun _ => 0) s.out.pwmNow j (fld s (CTL_PWMj_DUTY.DUTY j)) } s) := if_pos ⟨hperiod, hofs⟩
  exact ⟨_, hexec.trans (done_settled_next hs), tget_tput_same .., fun _ hi => tget_tput_other _ _ _ hi, fun _ => rfl⟩

/-- Settles O28, clause by clause: the four commands by what their register answers, the end of a test, and the writes of software by the
list that each of them waits in (`outputWrite`). -/
theorem controlCommandsAndOutputs : Obligations.ControlCommandsAndOutputs :=
  ⟨loopCommitCmd_results, loopResume_results, testStart_results, testStop_results, ctlTestEnd_results, setpointWrite_results, aoutWrite_results,
    dutyWrite_results, pwmCfgWrite_results, driveWrite_results, pwmPeriodStart_results⟩

end Sys2Proof.Machine

namespace Sys2Proof.Machine
open Sys2Proof

/-! ### The record of a loop, and the parts of a tick (R197 to R200) -/

theorem loopRun_setLoopRun (n m : Nat) (x : LoopRun) (s : State) : loopRun (setLoopRun n x s) m = if m = n then x else loopRun s m := tget_tput ..

theorem loopRun_setLoopRun_same (n : Nat) (x : LoopRun) (s : State) : loopRun (setLoopRun n x s) n = x := tget_tput_same ..

theorem loopRun_of_ctl {s t : State} (h : t.ctl = s.ctl) (n : Nat) : loopRun t n = loopRun s n := by rw [loopRun, loopRun, h]

theorem nbit_rd (s : State) (a n : Nat) : nbit (rd s a).toNat n = flag s ⟨a, n, 1⟩ := by
  have hbit : (fget (rd s a) n 1).testBit 0 = nbit (rd s a).toNat n := testBit_fget (rd s a) n 1 0 (by decide)
  have hlt : fget (rd s a) n 1 < 2 := fget_lt _ _ _ (by decide)
  rw [← hbit, Nat.testBit_zero]
  change _ = decide (fget (rd s a) n 1 ≠ 0)
  exact decide_eq_decide.mpr (by omega)

/-- Two fields of one register that share no bit. -/
theorem apart_beside {a lo w lo' w' : Nat} (h : lo + w ≤ 32) (h' : lo' + w' ≤ 32) (hd : lo + w ≤ lo' ∨ lo' + w' ≤ lo) :
    Apart ⟨a, lo, w⟩ ⟨a, lo', w'⟩ := ⟨h, h', .inr hd⟩

theorem mem_enqueue {ts q : List Tick} {u b : Nat} {p : Tick} : p ∈ enqueue ts u b q ↔ p ∈ ts ∨ p ∈ q := by
  have hq : p ∈ q ↔ p ∈ q.takeWhile (fun t => decide (t.bnd < b) || decide (t.unit < u)) ∨
      p ∈ q.dropWhile (fun t => decide (t.bnd < b) || decide (t.unit < u)) := by
    rw [← List.mem_append, List.takeWhile_append_dropWhile]
  rw [enqueue, List.mem_append, List.mem_append, hq]
  tauto

/-- A queued tick of unit `u` of which no member has been evaluated: it waits whole (R200). -/
def waitsWhole (s : State) (u : Nat) (t : Tick) : Bool := decide (t.unit = u) && !(s.ctl.evals.any fun e => sameUnit e.tick t)

/-- The ticks of unit `u` that wait whole are removed. -/
def lateDropped (u : Nat) (s : State) : State := setCtl { s.ctl with queue := s.ctl.queue.filter (fun t => !waitsWhole s u t) } s

/-- The overrun of unit `u`, where a tick of it still waits. -/
def lateJudged (u : Nat) (s : State) : State :=
  if s.ctl.queue.any (waitsWhole s u) then (unitMembers s u).foldl overrunMember (lateDropped u s) else s

/-- The tick of the members `ms` is noted and queued. -/
def tickQueued (u : Nat) (ms : List Nat) (s : State) : State :=
  let noted := setLoopRun u { loopRun s u with tickBnd := s.bnd + 1 } s
  setCtl { noted.ctl with queue := enqueue (ms.map (snapTick s u)) u s.bnd s.ctl.queue } noted

theorem tickQueued_writes (u : Nat) (ms : List Nat) (s : State) : Writes [] s (tickQueued u ms s) := .of_eq rfl rfl rfl

theorem loopRun_tickQueued (u : Nat) (ms : List Nat) (s : State) :
    loopRun (tickQueued u ms s) u = { loopRun s u with tickBnd := s.bnd + 1 } := loopRun_setLoopRun_same ..

theorem showQueue_writes (s : State) : Writes [CTL_STATUS.QUEUE, CTL_STATUS.PEAK] s (showQueue s) :=
  (Writes.setFld CTL_STATUS.QUEUE _ s).trans (.ite (.setFld CTL_STATUS.PEAK _ _) (.refl _))

theorem ctl_showQueue (s : State) : (showQueue s).ctl = s.ctl := same_of_allBut (k := .ctl) (showQueue_ok .start)

theorem queue_showQueue (s : State) : fld (showQueue s) CTL_STATUS.QUEUE = min 255 s.ctl.queue.length := by
  have hfits : fld (setFld s CTL_STATUS.QUEUE (min 255 s.ctl.queue.length)) CTL_STATUS.QUEUE = min 255 s.ctl.queue.length :=
    fld_setFld_fits s (by decide) (by simp only; omega)
  unfold showQueue
  dsimp only
  split
  · rw [fld_setFld_apart (by decide), hfits]
  · exact hfits

theorem tickShown_writes (u : Nat) (ms : List Nat) (s : State) :
    Writes [CTL_STATUS.QUEUE, CTL_STATUS.PEAK] s (showQueue (tickQueued u ms s)) := (tickQueued_writes u ms s).trans (showQueue_writes _)

theorem flds_tickShown {f : Fld} (u : Nat) (ms : List Nat) (s : State) (hw : f.lo + f.w ≤ 32) (hlow : f.reg < 0xA00D0000)
    (hreg : f.reg ≠ CTL_STATUS) : fld (settle (showQueue (tickQueued u ms s))) f = fld s f := by
  rw [fld_settle_low _ hlow]
  exact (tickShown_writes u ms s).flds f ⟨⟨hw, by decide, .inl hreg⟩, hw, by decide, .inl hreg⟩

/-- The registers of the loops' STATUS lie above the engine's own. -/
theorem ne_loopStatus {a n : Nat} (ha : a < 0xA0061050) : CTL_LOOPn_STATUS n ≠ a := by
  unfold CTL_LOOPn_STATUS
  omega

/-! ### LOOP_TICK (R196 to R200, R226) -/

theorem exec_loopTick_idle {s : State} {u : Fin 32} (h : flag s CTL_CTRL.EN = false ∨ unitMembers s u = [] ∨ tickDue s u = false) :
    exec (.loopTick u) s = done s := by
  change execLoopTick u s = _
  unfold execLoopTick
  refine if_neg ?_
  rcases h with h | h | h <;> simp [h]

theorem exec_loopTick_due {s : State} {u : Fin 32} (hen : flag s CTL_CTRL.EN = true) (hms : unitMembers s u ≠ [])
    (hdue : tickDue s u = true) (hbnd : (loopRun s u).tickBnd ≠ s.bnd + 1) (htest : testRunning (lateJudged u s) = false) :
    exec (.loopTick u) s = done (showQueue (tickQueued u (unitMembers s u) (lateJudged u s))) := by
  have hrun : testRunning (tickQueued u (unitMembers s u) (lateJudged u s)) = false := htest
  change execLoopTick u s = _
  unfold execLoopTick
  refine (if_pos (by simp [hen, hms, hdue, hbnd])).trans ?_
  refine congrArg (fun x => done (showQueue x)) (if_neg fun hfirst => ?_)
  exact Bool.false_ne_true (hrun.symm.trans (Bool.and_eq_true_iff.mp (Bool.and_eq_true_iff.mp hfirst).1).1)

theorem loopTick_queues {s : State} {u : Fin 32} (hen : flag s CTL_CTRL.EN = true) (hms : unitMembers s u ≠ [])
    (hdue : tickDue s u = true) (hbnd : (loopRun s u).tickBnd ≠ s.bnd + 1) (hnone : ∀ q ∈ s.ctl.queue, q.unit ≠ u.val)
    (htest : testRunning s = false) : ∃ t, exec (.loopTick u) s = .next t ∧
      t.ctl.queue = enqueue ((unitMembers s u).map (snapTick s u)) u s.bnd s.ctl.queue ∧ (loopRun t u).tickBnd = s.bnd + 1 ∧
      t.ctl.evals = s.ctl.evals ∧ t.ctl.outs = s.ctl.outs ∧ fld t CTL_STATUS.QUEUE = min 255 t.ctl.queue.length ∧
      RegsOutside CTL_STATUS CTL_CMD s t := by
  have hon : lateJudged u s = s := by
    refine if_neg fun hany => ?_
    obtain ⟨q, hq, hwaits⟩ := List.any_eq_true.mp hany
    exact hnone q hq (of_decide_eq_true (Bool.and_eq_true_iff.mp hwaits).1)
  have hexec := exec_loopTick_due hen hms hdue hbnd (hon.symm ▸ htest)
  rw [hon] at hexec
  have hctl : (settle (showQueue (tickQueued u (unitMembers s u) s))).ctl = (tickQueued u (unitMembers s u) s).ctl :=
    (settle_same _ .ctl).trans (ctl_showQueue _)
  refine ⟨_, hexec, by rw [hctl]; rfl, ?_, by rw [hctl]; rfl, by rw [hctl]; rfl, ?_,
    (tickShown_writes u _ s).regsOutside (by decide)⟩
  · rw [loopRun_of_ctl hctl, loopRun_tickQueued]
  · rw [fld_settle_low _ (by decide), queue_showQueue, hctl]

/-! ### The overrun of a unit (R200, R219) -/

section

variable (n : Nat) (s : State)

/-- The ticks that the loop has overrun in a row, with the present one. -/
def overrunRow : Nat := min 15 (fld s (CTL_LOOPn_STATUS.OVR_RUN n) + 1)

/-- The overrun of a loop is marked, counted and posted. -/
def overrunNoted : State :=
  raise 172 (setFld (setFld (addSat (setFlag s (CTL_LOOPn_STATUS.OVERRUN n) true) (CTL_LOOPn_STATUS.OVERRUNS n) 1)
    (CTL_LOOPn_STATUS.OVR_RUN n) (overrunRow n s)) ⟨CTL_OVR_STICKY, n, 1⟩ 1)

theorem overrunNoted_writes : Writes [CTL_LOOPn_STATUS.OVERRUN n, CTL_LOOPn_STATUS.OVERRUNS n, CTL_LOOPn_STATUS.OVR_RUN n, ⟨CTL_OVR_STICKY, n, 1⟩]
    s (overrunNoted n s) :=
  ((((Writes.setFlag (CTL_LOOPn_STATUS.OVERRUN n) true s).trans (.setFld (CTL_LOOPn_STATUS.OVERRUNS n) _ _)).trans
    (.setFld (CTL_LOOPn_STATUS.OVR_RUN n) _ _)).trans (.setFld ⟨CTL_OVR_STICKY, n, 1⟩ 1 _ (show 0xA0000A00 ≤ CTL_OVR_STICKY by decide))).trans (l' := []) (.raise 172 _)

end

theorem overrunNoted_results {n : Nat} (hn : n < 32) (s : State) :
    flag (overrunNoted n s) (CTL_LOOPn_STATUS.OVERRUN n) = true ∧
      fld (overrunNoted n s) (CTL_LOOPn_STATUS.OVERRUNS n) = satNat 16 (fld s (CTL_LOOPn_STATUS.OVERRUNS n) + 1) ∧
      fld (overrunNoted n s) (CTL_LOOPn_STATUS.OVR_RUN n) = overrunRow n s ∧ flag (overrunNoted n s) ⟨CTL_OVR_STICKY, n, 1⟩ = true := by
  have hreg : ∀ f : Fld, f.reg = CTL_LOOPn_STATUS n → f.reg ≠ CTL_OVR_STICKY := fun f hf =>
    hf ▸ ne_loopStatus (by decide)
  have hsticky : ∀ f v u, f.reg = CTL_LOOPn_STATUS n → fld (raise 172 (setFld u ⟨CTL_OVR_STICKY, n, 1⟩ v)) f = fld u f := fun f v u hf => by
    rw [fld_raise, fld_setFld_reg u f ⟨CTL_OVR_STICKY, n, 1⟩ v (hreg f hf)]
  refine ⟨?_, ?_, ?_, ?_⟩
  · rw [flag, overrunNoted, hsticky _ _ _ rfl, fld_setFld_apart (apart_beside (by decide) (by decide) (by decide)), addSat,
      fld_setFld_apart (apart_beside (by decide) (by decide) (by decide)), ← flag]
    exact flag_setFlag_same s _ true rfl (show 8 + 1 ≤ 32 by decide)
  · rw [overrunNoted, hsticky _ _ _ rfl, fld_setFld_apart (apart_beside (by decide) (by decide) (by decide)),
      fld_addSat_same _ _ _ (show 16 + 16 ≤ 32 by decide), fld_setFlag_apart (apart_beside (by decide) (by decide) (by decide))]
  · rw [overrunNoted, hsticky _ _ _ rfl]
    exact fld_setFld_fits _ (show 4 + 4 ≤ 32 by decide) (show min 15 _ < 16 by omega)
  · rw [overrunNoted, flag, fld_raise, ← flag]
    exact flag_setFlag_same _ ⟨CTL_OVR_STICKY, n, 1⟩ true rfl (show n + 1 ≤ 32 by omega)

theorem setLoopState_writes (n st : Nat) (s : State) : Writes [CTL_LOOPn_STATUS.STATE n, ⟨CTL_FAULTED, n, 1⟩] s (setLoopState n st s) :=
  (Writes.setFld (CTL_LOOPn_STATUS.STATE n) st s).trans (.setFld ⟨CTL_FAULTED, n, 1⟩ _ _ (show 0xA0000A00 ≤ CTL_FAULTED by decide))

theorem loopState_setLoopState {n st : Nat} (s : State) (h : st < 8) : loopState (setLoopState n st s) n = st := by
  rw [loopState, setLoopState, fld_setFld_reg _ _ ⟨CTL_FAULTED, n, 1⟩ _ (ne_loopStatus (a := CTL_FAULTED) (by decide))]
  exact fld_setFld_fits s (show 0 + 3 ≤ 32 by decide) h

theorem faulted_setLoopState {n : Nat} (hn : n < 32) (st : Nat) (s : State) :
    flag (setLoopState n st s) ⟨CTL_FAULTED, n, 1⟩ = decide (2 ≤ st) := flag_setFlag_same _ _ _ rfl (show n + 1 ≤ 32 by omega)

theorem ctl_overrunNoted (n : Nat) (s : State) : (overrunNoted n s).ctl = s.ctl :=
  same_of_allBut (k := .ctl) (raise_ok (setFld_ok (setFld_ok (addSat_ok (setFlag_ok .start)))))

theorem loopState_overrunNoted {n : Nat} (hn : n < 32) (s : State) : loopState (overrunNoted n s) n = loopState s n :=
  (overrunNoted_writes n s).flds _ ⟨apart_beside (by decide) (by decide) (by decide), apart_beside (by decide) (by decide) (by decide),
    apart_beside (by decide) (by decide) (by decide), show 0 + 3 ≤ 32 by decide, show n + 1 ≤ 32 by omega, .inl (ne_loopStatus (a := CTL_OVR_STICKY) (by decide))⟩

/-- The loop has been evaluated before, and the row of its overruns has reached the limit (R200, R219). -/
def OverrunFaults (n : Nat) (s : State) : Prop := max 1 (loopFld s n 0x30 24 4) ≤ overrunRow n s ∧ (loopState s n = 1 ∨ loopState s n = 2)

section

variable {n : Nat} {s : State} (hn : n < 32)

include hn

theorem overrunFaults_overrunNoted : OverrunFaults n s ↔ max 1 (loopFld (overrunNoted n s) n 0x30 24 4) ≤ overrunRow n s ∧
    (loopState (overrunNoted n s) n = 1 ∨ loopState (overrunNoted n s) n = 2) := by
  rw [loopState_overrunNoted hn, loopFld, loopWord, ctl_overrunNoted]
  rfl

theorem overrunMember_faults (h : OverrunFaults n s) : overrunMember s n = raise 173 (setLoopState n 3 (overrunNoted n s)) :=
  if_pos ((overrunFaults_overrunNoted hn).mp h)

theorem overrunMember_stays (h : ¬ OverrunFaults n s) : overrunMember s n = overrunNoted n s := if_neg (mt (overrunFaults_overrunNoted hn).mpr h)

theorem overrunMember_cases : OverrunFaults n s ∧ overrunMember s n = raise 173 (setLoopState n 3 (overrunNoted n s)) ∨
    ¬ OverrunFaults n s ∧ overrunMember s n = overrunNoted n s :=
  (Classical.em (OverrunFaults n s)).imp (fun h => ⟨h, overrunMember_faults hn h⟩) fun h => ⟨h, overrunMember_stays hn h⟩

theorem overrunMember_writes : Writes [CTL_LOOPn_STATUS.OVERRUN n, CTL_LOOPn_STATUS.OVERRUNS n, CTL_LOOPn_STATUS.OVR_RUN n, ⟨CTL_OVR_STICKY, n, 1⟩,
    CTL_LOOPn_STATUS.STATE n, ⟨CTL_FAULTED, n, 1⟩] s (overrunMember s n) := by
  obtain ⟨-, h⟩ | ⟨-, h⟩ := overrunMember_cases (s := s) hn <;> rw [h]
  · exact ((overrunNoted_writes n s).trans (setLoopState_writes n 3 _)).trans (l' := []) (.raise 173 _)
  · exact (overrunNoted_writes n s).trans (.refl _)

/-- A field that neither STATE nor CTL_FAULTED holds is as the note of the overrun leaves it. -/
theorem fld_overrunMember {f : Fld} (hw : f.lo + f.w ≤ 32) (hstate : f.reg ≠ CTL_LOOPn_STATUS n ∨ 3 ≤ f.lo) (hfaulted : f.reg ≠ CTL_FAULTED) :
    fld (overrunMember s n) f = fld (overrunNoted n s) f := by
  obtain ⟨-, h⟩ | ⟨-, h⟩ := overrunMember_cases (s := s) hn <;> rw [h]
  rw [fld_raise]
  exact (setLoopState_writes n 3 _).flds f ⟨⟨hw, show 0 + 3 ≤ 32 by decide, hstate.imp_right .inr⟩, hw, show n + 1 ≤ 32 by omega, .inl hfaulted⟩

theorem raised_overrunMember : 172 ∈ (overrunMember s n).fab.raised := by
  have hnoted : 172 ∈ (overrunNoted n s).fab.raised := mem_raise ..
  obtain ⟨-, h⟩ | ⟨-, h⟩ := overrunMember_cases (s := s) hn <;> rw [h]
  · exact mem_raise_of_mem 173 hnoted
  · exact hnoted

theorem overrunMember_marks : flag (overrunMember s n) (CTL_LOOPn_STATUS.OVERRUN n) = true ∧
    fld (overrunMember s n) (CTL_LOOPn_STATUS.OVERRUNS n) = satNat 16 (fld s (CTL_LOOPn_STATUS.OVERRUNS n) + 1) ∧
    fld (overrunMember s n) (CTL_LOOPn_STATUS.OVR_RUN n) = overrunRow n s ∧ flag (overrunMember s n) ⟨CTL_OVR_STICKY, n, 1⟩ = true := by
  have hkept : ∀ {lo w}, lo + w ≤ 32 → 3 ≤ lo → fld (overrunMember s n) ⟨CTL_LOOPn_STATUS n, lo, w⟩ = fld (overrunNoted n s) ⟨CTL_LOOPn_STATUS n, lo, w⟩ :=
    fun hw hlo => fld_overrunMember hn hw (.inr hlo) (ne_loopStatus (a := CTL_FAULTED) (by decide))
  obtain ⟨hmark, hcount, hrow, hsticky⟩ := overrunNoted_results hn s
  refine ⟨?_, (hkept (by decide) (by decide)).trans hcount, (hkept (by decide) (by decide)).trans hrow, ?_⟩
  · rwa [flag, hkept (by decide) (by decide), ← flag]
  · rwa [flag, fld_overrunMember hn (show n + 1 ≤ 32 by omega) (.inl (ne_loopStatus (a := CTL_OVR_STICKY) (by decide)).symm)
      (show CTL_OVR_STICKY ≠ CTL_FAULTED by decide), ← flag]

/-- What the limit of overruns makes of the loop (R200, R219). -/
theorem overrunMember_state (h : OverrunFaults n s) : loopState (overrunMember s n) n = 3 ∧ 173 ∈ (overrunMember s n).fab.raised ∧
    flag (overrunMember s n) ⟨CTL_FAULTED, n, 1⟩ = true := by
  rw [overrunMember_faults hn h]
  refine ⟨?_, mem_raise .., ?_⟩
  · rw [loopState, fld_raise]
    exact loopState_setLoopState _ (by decide)
  · rw [flag, fld_raise, ← flag]
    exact faulted_setLoopState hn 3 _

theorem overrunMember_state_stays (h : ¬ OverrunFaults n s) : loopState (overrunMember s n) n = loopState s n := by
  rw [overrunMember_stays hn h, loopState_overrunNoted hn]

end

/-- A loop that is its own unit has overrun, and its tick is queued. -/
def loopOverrun (n : Nat) (s : State) : State := showQueue (tickQueued n [n] (overrunMember (lateDropped n s) n))

section

variable {n : Nat} {s : State}

theorem ctl_loopOverrun : (loopOverrun n s).ctl = (tickQueued n [n] (overrunMember (lateDropped n s) n)).ctl := ctl_showQueue _

theorem ctl_overrunMember (n : Nat) (s : State) : (overrunMember s n).ctl = s.ctl := same_of_allBut (k := .ctl) (overrunMember_ok .start)

theorem bnd_overrunMember (n : Nat) (s : State) : (overrunMember s n).bnd = s.bnd := same_of_allBut (k := .bnd) (overrunMember_ok .start)

theorem a_loopOverrun : (loopRun (loopOverrun n s) n).a = (loopRun s n).a := by
  rw [loopRun_of_ctl ctl_loopOverrun, loopRun_tickQueued, loopRun_of_ctl (ctl_overrunMember ..)]
  rfl

/-- Of a unit of which no member has been evaluated, the tick of this boundary alone is left in the queue. -/
theorem bnd_of_mem_queue_loopOverrun (hwhole : ∀ t : Tick, t.unit = n → waitsWhole s n t = true) {p : Tick}
    (hp : p ∈ (loopOverrun n s).ctl.queue) (hunit : p.unit = n) : p.bnd = s.bnd := by
  rw [ctl_loopOverrun] at hp
  obtain hnew | hold := mem_enqueue.mp hp
  · rw [List.mem_singleton.mp hnew]
    exact bnd_overrunMember n (lateDropped n s)
  · rw [ctl_overrunMember] at hold
    have hstays : (!waitsWhole s n p) = true := (List.mem_filter.mp hold).2
    rw [hwhole p hunit] at hstays
    exact absurd hstays Bool.false_ne_true

theorem fld_settle_loopOverrun {f : Fld} (hw : f.lo + f.w ≤ 32) (hlow : f.reg < 0xA00D0000) (hreg : f.reg ≠ CTL_STATUS) :
    fld (settle (loopOverrun n s)) f = fld (overrunMember (lateDropped n s) n) f := flds_tickShown n [n] _ hw hlow hreg

theorem flag_settle_loopOverrun {f : Fld} (hw : f.lo + f.w ≤ 32) (hlow : f.reg < 0xA00D0000) (hreg : f.reg ≠ CTL_STATUS) :
    flag (settle (loopOverrun n s)) f = flag (overrunMember (lateDropped n s) n) f := by
  rw [flag, fld_settle_loopOverrun hw hlow hreg, ← flag]

variable (hn : n < 32)

include hn

theorem fld_status_loopOverrun {lo w : Nat} (hw : lo + w ≤ 32) : fld (settle (loopOverrun n s)) ⟨CTL_LOOPn_STATUS n, lo, w⟩ =
    fld (overrunMember (lateDropped n s) n) ⟨CTL_LOOPn_STATUS n, lo, w⟩ :=
  fld_settle_loopOverrun hw (show CTL_LOOPn_STATUS n < _ by unfold CTL_LOOPn_STATUS; omega) (ne_loopStatus (a := CTL_STATUS) (by decide))

theorem lateDropped_to_overrun : LowKept s (overrunMember (lateDropped n s) n) :=
  (LowKept.of_eq rfl rfl rfl : LowKept s (lateDropped n s)).trans (overrunMember_writes hn).low

theorem posted_loopOverrun {e : Nat} (he : e < 256) (hraised : e ∈ (overrunMember (lateDropped n s) n).fab.raised) :
    Posted e s (settle (loopOverrun n s)) :=
  have hshown := (tickShown_writes n [n] (overrunMember (lateDropped n s) n)).low
  ((lateDropped_to_overrun hn).trans hshown).posted he (hshown.raised e hraised)

theorem testRunning_overrunMember (s : State) : testRunning (overrunMember s n) = testRunning s :=
  (overrunMember_writes hn).flag (f := CTL_TEST_STATUS.RUNNING) (by
    have hreg : CTL_TEST_STATUS.RUNNING.reg ≠ CTL_LOOPn_STATUS n := (ne_loopStatus (by decide)).symm
    exact ⟨⟨by decide, show 8 + 1 ≤ 32 by decide, .inl hreg⟩, ⟨by decide, show 16 + 16 ≤ 32 by decide, .inl hreg⟩,
      ⟨by decide, show 4 + 4 ≤ 32 by decide, .inl hreg⟩, ⟨by decide, show n + 1 ≤ 32 by omega, .inl (by decide : CTL_TEST_STATUS ≠ CTL_OVR_STICKY)⟩,
      ⟨by decide, show 0 + 3 ≤ 32 by decide, .inl hreg⟩, by decide, show n + 1 ≤ 32 by omega, .inl (by decide : CTL_TEST_STATUS ≠ CTL_FAULTED)⟩)

end

theorem waitsWhole_of_none {s : State} {u : Nat} (hnone : ∀ e ∈ s.ctl.evals, e.tick.unit ≠ u) {t : Tick} (ht : t.unit = u) :
    waitsWhole s u t = true := by
  have hbegun : (s.ctl.evals.any fun e => sameUnit e.tick t) = false :=
    List.any_eq_false.mpr fun e he hsame => hnone e he ((of_decide_eq_true hsame).1.trans ht)
  rw [waitsWhole, hbegun, decide_eq_true ht, Bool.not_false, Bool.and_self]

theorem exec_loopTick_overrun {s : State} {u : Fin 32} {q : Tick} (hen : flag s CTL_CTRL.EN = true) (hms : unitMembers s u = [u.val])
    (hdue : tickDue s u = true) (hbnd : (loopRun s u).tickBnd ≠ s.bnd + 1) (hq : q ∈ s.ctl.queue) (hwaits : waitsWhole s u q = true)
    (htest : testRunning s = false) : exec (.loopTick u) s = done (loopOverrun u s) := by
  have hlate : lateJudged u s = overrunMember (lateDropped u s) u := by
    rw [lateJudged, if_pos (List.any_eq_true.mpr ⟨q, hq, hwaits⟩), hms, List.foldl_cons, List.foldl_nil]
  have hrun : testRunning (lateJudged u s) = false := by
    rw [hlate, testRunning_overrunMember u.isLt]
    exact htest
  rw [exec_loopTick_due hen (hms ▸ List.cons_ne_nil _ _) hdue hbnd hrun, hms, hlate, loopOverrun]

theorem loopTick_overruns {s : State} {u : Fin 32} {q : Tick} (hen : flag s CTL_CTRL.EN = true) (hms : unitMembers s u = [u.val])
    (hdue : tickDue s u = true) (hbnd : (loopRun s u).tickBnd ≠ s.bnd + 1) (hq : q ∈ s.ctl.queue) (hunit : q.unit = u.val)
    (hnone : ∀ e ∈ s.ctl.evals, e.tick.unit ≠ u.val) (htest : testRunning s = false) : ∃ t, exec (.loopTick u) s = .next t ∧
      (∀ p ∈ t.ctl.queue, p.unit = u.val → p.bnd = s.bnd) ∧ flag t (CTL_LOOPn_STATUS.OVERRUN u) = true ∧
      fld t (CTL_LOOPn_STATUS.OVERRUNS u) = satNat 16 (fld s (CTL_LOOPn_STATUS.OVERRUNS u) + 1) ∧
      fld t (CTL_LOOPn_STATUS.OVR_RUN u) = min 15 (fld s (CTL_LOOPn_STATUS.OVR_RUN u) + 1) ∧ nbit (rd t CTL_OVR_STICKY).toNat u = true ∧
      Posted 172 s t ∧ (loopRun t u).a = (loopRun s u).a ∧
      if max 1 (loopFld s u 0x30 24 4) ≤ fld t (CTL_LOOPn_STATUS.OVR_RUN u) ∧ (loopState s u = 1 ∨ loopState s u = 2) then
        loopState t u = 3 ∧ Posted 173 s t ∧ nbit (rd t CTL_FAULTED).toNat u = true
      else loopState t u = loopState s u := by
  have hctl : (settle (loopOverrun u s)).ctl = (loopOverrun u s).ctl := settle_same _ .ctl
  obtain ⟨hmark, hcount, hrow, hsticky⟩ := overrunMember_marks (s := lateDropped u s) u.isLt
  have hrow : fld (settle (loopOverrun u s)) (CTL_LOOPn_STATUS.OVR_RUN u) = overrunRow u s := (fld_status_loopOverrun u.isLt (by decide)).trans hrow
  refine ⟨_, exec_loopTick_overrun hen hms hdue hbnd hq (waitsWhole_of_none hnone hunit) htest, fun p hp hpu => ?_, ?_,
    (fld_status_loopOverrun u.isLt (by decide)).trans hcount, hrow, ?_, posted_loopOverrun u.isLt (by decide) (raised_overrunMember u.isLt), ?_, ?_⟩
  · exact bnd_of_mem_queue_loopOverrun (fun t => waitsWhole_of_none hnone) (hctl ▸ hp) hpu
  · rw [flag, fld_status_loopOverrun u.isLt (by decide), ← flag, hmark]
  · rw [nbit_rd, flag_settle_loopOverrun (show u.val + 1 ≤ 32 by omega) (show CTL_OVR_STICKY < _ by decide)
      (show CTL_OVR_STICKY ≠ _ by decide), hsticky]
  · rw [loopRun_of_ctl hctl, a_loopOverrun]
  · have hstate : loopState (settle (loopOverrun u s)) u = loopState (overrunMember (lateDropped u s) u) u := fld_status_loopOverrun u.isLt (by decide)
    rw [hrow, hstate, nbit_rd, flag_settle_loopOverrun (show u.val + 1 ≤ 32 by omega) (show CTL_FAULTED < _ by decide)
      (show CTL_FAULTED ≠ _ by decide)]
    split
    next h =>
      obtain ⟨hst, hraised, hfaulted⟩ := overrunMember_state (s := lateDropped u s) u.isLt h
      exact ⟨hst, posted_loopOverrun u.isLt (by decide) hraised, hfaulted⟩
    next h => exact overrunMember_state_stays (s := lateDropped u s) u.isLt h

end Sys2Proof.Machine

namespace Sys2Proof.Machine
open Sys2Proof

theorem ctl_count (src k : Nat) (s : State) : (count src k s).ctl = s.ctl := (count_ok (kp := fun _ => false) Ok.start).2 .ctl rfl

/-! ### What the law of a loop changes (R202, R216 to R221) -/

/-- Between `s` and `t`, of the engine the loops' variables and the generator changed, but not the committed value of loop `n`, and of the
registers the STATUS of loop `n`, CTL_FAULTED and CTL_TEST_STATUS. -/
structure LawOnly (n : Nat) (s t : State) : Prop where
  ctl : ∃ run test, t.ctl = { s.ctl with run := run, test := test }
  a : (loopRun t n).a = (loopRun s n).a
  regs : ∀ r, r ≠ CTL_LOOPn_STATUS n → r ≠ CTL_FAULTED → r ≠ CTL_TEST_STATUS → rd t r = rd s r

namespace LawOnly

variable {n : Nat} {s t u : State}

protected theorem refl (s : State) : LawOnly n s s := ⟨⟨_, _, rfl⟩, rfl, fun _ _ _ _ => rfl⟩

theorem trans (h : LawOnly n s t) (h' : LawOnly n t u) : LawOnly n s u where
  ctl := by
    obtain ⟨run, test, h⟩ := h.ctl
    obtain ⟨run', test', h'⟩ := h'.ctl
    exact ⟨run', test', by rw [h', h]⟩
  a := h'.a.trans h.a
  regs r hs hf ht := (h'.regs r hs hf ht).trans (h.regs r hs hf ht)

theorem ite {c : Prop} [Decidable c] (ht : LawOnly n s t) (hu : LawOnly n s u) : LawOnly n s (if c then t else u) := by
  split
  · exact ht
  · exact hu

/-- A change beside registers and the engine. -/
theorem of_eq (hr : t.regs = s.regs) (hc : t.ctl = s.ctl) : LawOnly n s t where
  ctl := ⟨_, _, hc⟩
  a := congrArg LoopRun.a (loopRun_of_ctl hc n)
  regs r _ _ _ := by rw [rd, rd, hr]

theorem setLoopRun (x : LoopRun) (s : State) (hx : x.a = (loopRun s n).a := by rfl) : LawOnly n s (setLoopRun n x s) where
  ctl := ⟨_, _, rfl⟩
  a := (congrArg LoopRun.a (loopRun_setLoopRun_same n x s)).trans hx
  regs _ _ _ _ := rfl

theorem setTest (g : TestGen) (s : State) : LawOnly n s (setCtl { s.ctl with test := g } s) := ⟨⟨_, _, rfl⟩, rfl, fun _ _ _ _ => rfl⟩

theorem setFld (s : State) (f : Fld) (v : Nat) (h : f.reg = CTL_LOOPn_STATUS n ∨ f.reg = CTL_FAULTED ∨ f.reg = CTL_TEST_STATUS) :
    LawOnly n s (setFld s f v) where
  ctl := ⟨_, _, rfl⟩
  a := rfl
  regs r hs hf ht := rd_setFld_other s f v r (by rintro rfl; tauto)

theorem setFlag (s : State) (f : Fld) (b : Bool) (h : f.reg = CTL_LOOPn_STATUS n) : LawOnly n s (setFlag s f b) := setFld s f _ (.inl h)

theorem setLoopState (st : Nat) (s : State) : LawOnly n s (setLoopState n st s) := (setFld s _ _ (.inl rfl)).trans (setFld _ _ _ (.inr (.inl rfl)))

theorem raise (e : Nat) (s : State) : LawOnly n s (raise e s) := of_eq (by simp) (by simp)

theorem count (src k : Nat) (s : State) : LawOnly n s (count src k s) := of_eq (regs_count ..) (ctl_count ..)

theorem loseFeedback (cause : Nat) (s : State) : LawOnly n s (loseFeedback n cause s) :=
  ((((setLoopRun _ s).trans (setFld _ _ _ (.inl rfl))).trans (setFlag _ _ _ rfl)).trans (setLoopState 2 _)).trans (raise 174 _)

variable {k : Tick}

theorem judgePrimary (s : State) : LawOnly k.loop s (judgePrimary k s) :=
  ite (ite (setLoopRun _ s) ((setLoopRun _ s).trans (loseFeedback _ _))) (.refl s)

theorem judgeAlternate (s : State) : LawOnly k.loop s (judgeAlternate k s) := ite (setLoopRun _ s) (.refl s)

theorem runLaw (fb : Tap) (injSp injOut dt : FVal) (test : Bool) (s : State) : LawOnly k.loop s (runLaw k fb injSp injOut dt test s).2 :=
  setLoopRun _ s

theorem runFallback (act : Nat) (injSp injOut dt : FVal) (test : Bool) (s : State) :
    LawOnly k.loop s (runFallback act k injSp injOut dt test s).2 := ite (setLoopRun _ s) (.refl s)

end LawOnly

/-- The last steps of an evaluation note the tick, end the row of overruns and count the evaluation (R200, R202). -/
theorem evaluate_ends (k : Tick) (s : State) : ∃ u, LawOnly k.loop s u ∧ (evaluate k s).2 = count 274 1
    (setFld (setLoopRun k.loop { loopRun u k.loop with prev := some k.bnd } u) (CTL_LOOPn_STATUS.OVR_RUN k.loop) 0) := by
  unfold evaluate
  extract_lets n dt g test sg ctl ticked injSp injOut judged st act shown r x
  have hticked : LawOnly n s ticked := .ite ((LawOnly.setTest _ s).trans (.setFld _ _ _ (.inr (.inr rfl)))) (.refl s)
  have hjudged : LawOnly n s judged := (hticked.trans (.judgePrimary _)).trans (.judgeAlternate _)
  have hshown : LawOnly n s shown := hjudged.trans (.setFlag _ _ _ rfl)
  have hr : LawOnly n shown r.2 := by
    unfold r
    split
    · exact .runLaw ..
    split
    · exact .runLaw ..
    · exact .runFallback ..
  exact ⟨r.2, hshown.trans hr, rfl⟩

theorem evaluate_lawOnly (k : Tick) (s : State) : LawOnly k.loop s (evaluate k s).2 := by
  obtain ⟨u, hu, h⟩ := evaluate_ends k s
  rw [h]
  exact ((hu.trans (.setLoopRun _ u)).trans (.setFld _ _ _ (.inl rfl))).trans (.count ..)

theorem prev_evaluate (k : Tick) (s : State) : (loopRun (evaluate k s).2 k.loop).prev = some k.bnd := by
  obtain ⟨u, -, h⟩ := evaluate_ends k s
  rw [h, loopRun_of_ctl (ctl_count ..)]
  exact congrArg LoopRun.prev (loopRun_setLoopRun_same k.loop _ u)

theorem ovrRun_evaluate (k : Tick) (s : State) : fld (evaluate k s).2 (CTL_LOOPn_STATUS.OVR_RUN k.loop) = 0 := by
  obtain ⟨u, -, h⟩ := evaluate_ends k s
  rw [h, fld_count]
  exact fld_setFld_fits _ (show 4 + 4 ≤ 32 by decide) (show 0 < 2 ^ 4 by decide)

theorem test_evaluate (k : Tick) (s : State) (h : testRunning s = false ∨ s.ctl.test.loop ≠ k.loop) : (evaluate k s).1.test = false := by
  have hout : (testRunning s && decide (s.ctl.test.loop = k.loop)) = false := by
    rcases h with h | h <;> simp [h]
  unfold evaluate
  extract_lets n dt g test sg ctl ticked injSp injOut judged st act shown r x
  have htest : test = false := by
    unfold test
    rw [hout, Bool.false_and, Bool.false_and]
  have hr : r.1.test = test := by
    unfold r
    split
    · rfl
    split <;> rfl
  exact hr.trans htest

/-! ### What the control trace of an evaluation changes (R206, R222) -/

/-- Between `s` and `t`, of the engine the loops' variables and the trace's region changed, but no loop's committed value nor its latest tick, and
of the registers those of the record path, of the DRAM controller and the trace's HEAD. -/
structure TraceOnly (s t : State) : Prop where
  ctl : ∃ run trace, t.ctl = { s.ctl with run := run, trace := trace }
  run : ∀ n, (loopRun t n).a = (loopRun s n).a ∧ (loopRun t n).prev = (loopRun s n).prev
  regs : ∀ r, inDmc r = false → r ≠ RED_BP_FILL → r ≠ CTL_TRACE_HEAD → rd t r = rd s r

namespace TraceOnly

variable {s t u : State}

protected theorem refl (s : State) : TraceOnly s s := ⟨⟨_, _, rfl⟩, fun _ => ⟨rfl, rfl⟩, fun _ _ _ _ => rfl⟩

theorem trans (h : TraceOnly s t) (h' : TraceOnly t u) : TraceOnly s u where
  ctl := by
    obtain ⟨run, trace, h⟩ := h.ctl
    obtain ⟨run', trace', h'⟩ := h'.ctl
    exact ⟨run', trace', by rw [h', h]⟩
  run n := ⟨(h'.run n).1.trans (h.run n).1, (h'.run n).2.trans (h.run n).2⟩
  regs r hd hf hh := (h'.regs r hd hf hh).trans (h.regs r hd hf hh)

theorem ite {c : Prop} [Decidable c] (ht : TraceOnly s t) (hu : TraceOnly s u) : TraceOnly s (if c then t else u) := by
  split
  · exact ht
  · exact hu

theorem foldl {β : Type} {f : State → β → State} (hf : ∀ s x, TraceOnly s (f s x)) (l : List β) (s : State) : TraceOnly s (l.foldl f s) := by
  induction l generalizing s with
  | nil => exact .refl s
  | cons x l ih => exact (hf s x).trans (ih _)

theorem setTrace (x : Option (Nat × Nat)) (s : State) : TraceOnly s (setCtl { s.ctl with trace := x } s) :=
  ⟨⟨_, _, rfl⟩, fun _ => ⟨rfl, rfl⟩, fun _ _ _ _ => rfl⟩

theorem setLoopRun {n : Nat} {x : LoopRun} (s : State) (ha : x.a = (loopRun s n).a := by rfl)
    (hprev : x.prev = (loopRun s n).prev := by rfl) : TraceOnly s (setLoopRun n x s) where
  ctl := ⟨_, _, rfl⟩
  run m := by
    rw [loopRun_setLoopRun]
    split
    next h => exact h ▸ ⟨ha, hprev⟩
    next => exact ⟨rfl, rfl⟩
  regs _ _ _ _ := rfl

/-- What writes fields of RED_BP_FILL and CTL_TRACE_HEAD and leaves the engine. -/
theorem of_writes {l : List Fld} (h : Writes l s t) (hctl : t.ctl = s.ctl)
    (hl : ∀ f ∈ l, f.lo + f.w ≤ 32 ∧ (f.reg = RED_BP_FILL ∨ f.reg = CTL_TRACE_HEAD)) : TraceOnly s t where
  ctl := ⟨_, _, hctl⟩
  run n := by rw [loopRun_of_ctl hctl]; exact ⟨rfl, rfl⟩
  regs r _ hfill hhead := h.rd (List.forall_iff_forall_mem.mpr fun f hf =>
    apart_word (hl f hf).1 ((hl f hf).2.elim (fun he => he ▸ hfill) fun he => he ▸ hhead))

theorem of_dram (h : DramOnly s t) (hctl : t.ctl = s.ctl) : TraceOnly s t where
  ctl := ⟨_, _, hctl⟩
  run n := by rw [loopRun_of_ctl hctl]; exact ⟨rfl, rfl⟩
  regs r hdmc _ _ := h.regs r hdmc

theorem drainFill (s : State) : TraceOnly s (drainFill s) :=
  have named : true = true := rfl
  of_writes (drainFill_writes s) (same_of_allBut (k := .ctl) (drainFill_ok .start)) (by decide)

theorem setFill (m : Nat) (s : State) : TraceOnly s (setFill m s) :=
  have named : true = true := rfl
  of_writes (setFill_writes m s) (same_of_allBut (k := .ctl) (setFill_ok .start)) (by decide)

theorem writePart (cls : Nat) (s : State) (q : Nat × List Byte) : TraceOnly s (writePart cls s q) :=
  have named : true = true := rfl
  of_dram (.writePart cls s q) (same_of_allBut (k := .ctl) (writePart_ok .start))

theorem captureWrite (a : Nat) (bs : List Byte) (s : State) : TraceOnly s (captureWrite a bs s) :=
  ((drainFill s).trans (setFill ..)).trans (foldl (writePart 0) _ _)

theorem takeTrace (s : State) : TraceOnly s (takeTrace s) := ite (.refl s) (setTrace ..)

theorem traceEntry (e : Eval) (a : Word) (forced : Bool) (s : State) : TraceOnly s (traceEntry e a forced s) := by
  unfold Machine.traceEntry
  extract_lets size taken h at1 bytes
  have htaken : TraceOnly s taken := ite (takeTrace s) (.refl s)
  exact ite ((htaken.trans (captureWrite ..)).trans (of_writes (.setFld CTL_TRACE_HEAD.NEXT _ _) rfl (by decide))) htaken

theorem settleLoop (g : FVal) (forced : Bool) (s : State) (e : Eval) : TraceOnly s (settleLoop g forced s e) :=
  (setLoopRun s).trans (traceEntry ..)

end TraceOnly

/-- The unit's last member: its loops are settled, and its output waits (R208). -/
theorem finishUnit_traceOnly (lap : Nat) {es : List Eval} (hes : es ≠ []) (s : State) : ∃ u o, TraceOnly s u ∧
    finishUnit lap es s = setCtl { u.ctl with evals := [], outs := u.ctl.outs ++ [o] } u := by
  cases es with
  | nil => exact absurd rfl hes
  | cons e rest => exact ⟨_, _, .foldl (.settleLoop _ _) (e :: rest) s, rfl⟩

end Sys2Proof.Machine

namespace Sys2Proof.Machine
open Sys2Proof

/-! ### LOOP_EVALUATION (R195, R202, R218, R222) -/

/-- A slot has taken the front of the queue. -/
def slotTaken (l : List Tick) (s : State) : State := setCtl { s.ctl with queue := l, slots := s.ctl.slots + 1 } s

/-- Whether the trace overlaps a ring depends on no register that the law of a loop writes. -/
theorem traceOverlaps_of_lawOnly {n : Nat} {s t : State} (h : LawOnly n s t) (hacq : t.acq = s.acq) : traceOverlaps t = traceOverlaps s := by
  have hreg : ∀ a, a % 128 ≠ 0x10 → a % 128 ≠ 0x1C → a % 128 ≠ 0x50 → rd t a = rd s a := fun a hfaulted htest hstatus =>
    h.regs a (by rintro rfl; unfold CTL_LOOPn_STATUS at hstatus; omega) (by rintro rfl; exact hfaulted rfl) (by rintro rfl; exact htest rfl)
  have hring : ∀ r o, o < 128 → o ≠ 0x10 → o ≠ 0x1C → o ≠ 0x50 → rd t (0xA0041000 + o + r * 128) = rd s (0xA0041000 + o + r * 128) :=
    fun r o _ _ _ _ => hreg _ (by omega) (by omega) (by omega)
  have hstate : ∀ r, ringState t r = ringState s r := fun r =>
    congrArg (fget · 0 3) (hring r 0x54 (by decide) (by decide) (by decide) (by decide))
  have hregions : ∀ r, ringRegions t r = ringRegions s r := fun r => by
    have hbase : rd t (ACQ_RINGr_BASE r) = _ := hring r 0x28 (by decide) (by decide) (by decide) (by decide)
    have hsize : rd t (ACQ_RINGr_SIZE r) = _ := hring r 0x2C (by decide) (by decide) (by decide) (by decide)
    have hfolios : rd t (ACQ_RINGr_FOLIO_BASE r) = _ := hring r 0x3C (by decide) (by decide) (by decide) (by decide)
    have hfolio : rd t (ACQ_RINGr_FOLIO_SIZE r) = _ := hring r 0x40 (by decide) (by decide) (by decide) (by decide)
    have hslots : rd t (ACQ_RINGr_FOLIO_SLOTS r) = _ := hring r 0x44 (by decide) (by decide) (by decide) (by decide)
    simp only [ringRegions, ringBase, ringSize, slotAddr, folioSlots, folioSize, fld, hbase, hsize, hfolios, hfolio, hslots]
  simp only [traceOverlaps, activeRings, hacq, hstate, hregions, hreg CTL_TRACE_BASE (by decide) (by decide) (by decide),
    hreg CTL_TRACE_SIZE (by decide) (by decide) (by decide)]

theorem exec_loopEvaluation_idle {s : State} (h : s.ctl.queue = [] ∨ 6 ≤ s.ctl.slots ∨ flag s CTL_CTRL.EN = false) :
    exec .loopEvaluation s = done s := by
  change execLoopEvaluation s = _
  unfold execLoopEvaluation
  split
  next hq =>
    refine if_neg fun hgo => ?_
    rcases h with h | h | h
    · rw [h] at hq
      cases hq
    · omega
    · rw [h] at hgo
      exact Bool.false_ne_true hgo.2
  next => rfl

section

variable {s : State} {q : Tick} {l : List Tick} (hq : s.ctl.queue = q :: l) (hslots : s.ctl.slots < 6) (hen : flag s CTL_CTRL.EN = true)

include hq hslots hen

theorem exec_loopEvaluation (hsafe : ((evaluate q (slotTaken l s)).1.test && traceOverlaps (evaluate q (slotTaken l s)).2) = false) :
    exec .loopEvaluation s = done (if l.any (fun p => decide (p.unit = q.unit) && decide (p.bnd = q.bnd))
      then setCtl { (evaluate q (slotTaken l s)).2.ctl with
        evals := (evaluate q (slotTaken l s)).2.ctl.evals ++ [(evaluate q (slotTaken l s)).1] } (evaluate q (slotTaken l s)).2
      else finishUnit s.bnd ((evaluate q (slotTaken l s)).2.ctl.evals ++ [(evaluate q (slotTaken l s)).1]) (evaluate q (slotTaken l s)).2) := by
  change execLoopEvaluation s = _
  unfold execLoopEvaluation
  rw [hq]
  dsimp only
  rw [if_pos ⟨hslots, hen⟩]
  refine (if_neg (Bool.eq_false_iff.mp hsafe)).trans ?_
  exact (apply_ite done ..).symm

/-- However the unit goes on, the evaluation is followed by nothing but the settling of its loops and their trace. -/
theorem loopEvaluation_ends (hsafe : ((evaluate q (slotTaken l s)).1.test && traceOverlaps (evaluate q (slotTaken l s)).2) = false) :
    ∃ u es os, exec .loopEvaluation s = done (setCtl { u.ctl with evals := es, outs := os } u) ∧
      TraceOnly (evaluate q (slotTaken l s)).2 u := by
  rw [exec_loopEvaluation hq hslots hen hsafe]
  split
  · exact ⟨_, _, _, rfl, .refl _⟩
  · obtain ⟨u, o, hu, h⟩ := finishUnit_traceOnly s.bnd (List.append_ne_nil_of_right_ne_nil _ (List.cons_ne_nil _ _)) (evaluate q (slotTaken l s)).2
    exact ⟨u, [], _, congrArg done h, hu⟩

end

/-- No misuse of R403: the loop is not under test, or the trace shares no byte with a ring in use. -/
theorem evaluate_safe {s : State} (q : Tick) (l : List Tick) (h : testRunning s = false ∨ s.ctl.test.loop ≠ q.loop ∨ traceOverlaps s = false) :
    ((evaluate q (slotTaken l s)).1.test && traceOverlaps (evaluate q (slotTaken l s)).2) = false := by
  have named : true = true := rfl
  obtain hquiet | hover := or_assoc.mpr h
  · rw [test_evaluate q (slotTaken l s) hquiet, Bool.false_and]
  · have hacq : (evaluate q (slotTaken l s)).2.acq = (slotTaken l s).acq := same_of_allBut (k := .acq) (evaluate_ok .start)
    have hsame : traceOverlaps (slotTaken l s) = traceOverlaps s := rfl
    rw [traceOverlaps_of_lawOnly (evaluate_lawOnly ..) hacq, hsame, hover, Bool.and_false]

theorem loopEvaluation_takes {s : State} {q : Tick} {l : List Tick} (hq : s.ctl.queue = q :: l) (hslots : s.ctl.slots < 6)
    (hen : flag s CTL_CTRL.EN = true) (hloop : q.loop < 32)
    (hsafe : testRunning s = false ∨ s.ctl.test.loop ≠ q.loop ∨ traceOverlaps s = false) : ∃ t, exec .loopEvaluation s = .next t ∧
      t.ctl.queue = l ∧ t.ctl.slots = s.ctl.slots + 1 ∧ fld t (CTL_LOOPn_STATUS.OVR_RUN q.loop) = 0 ∧
      (loopRun t q.loop).prev = some q.bnd ∧ (loopRun t q.loop).a = (loopRun s q.loop).a := by
  obtain ⟨u, es, os, hexec, hu⟩ := loopEvaluation_ends hq hslots hen (evaluate_safe q l hsafe)
  have hlaw := evaluate_lawOnly q (slotTaken l s)
  have hctl : (settle (setCtl { u.ctl with evals := es, outs := os } u)).ctl = { u.ctl with evals := es, outs := os } := settle_same _ .ctl
  have hrun : ∀ n, loopRun (settle (setCtl { u.ctl with evals := es, outs := os } u)) n = loopRun u n := fun n => by rw [loopRun, hctl, loopRun]
  obtain ⟨run, test, hlawCtl⟩ := hlaw.ctl
  obtain ⟨run', trace, huCtl⟩ := hu.ctl
  obtain ⟨ha, hprev⟩ := hu.run q.loop
  refine ⟨_, hexec, by rw [hctl, huCtl, hlawCtl]; rfl, by rw [hctl, huCtl, hlawCtl]; rfl, ?_, ?_, ?_⟩
  · have hreg : rd u (CTL_LOOPn_STATUS q.loop) = rd (evaluate q (slotTaken l s)).2 (CTL_LOOPn_STATUS q.loop) :=
      hu.regs _ (decide_eq_false (by unfold CTL_LOOPn_STATUS; omega)) (by unfold CTL_LOOPn_STATUS RED_BP_FILL; omega)
        (ne_loopStatus (by decide))
    rw [fld_settle_low _ (show CTL_LOOPn_STATUS q.loop < _ by unfold CTL_LOOPn_STATUS; omega), ← ovrRun_evaluate q (slotTaken l s)]
    exact congrArg (fget · 4 4) hreg
  · rw [hrun, hprev, prev_evaluate]
  · rw [hrun, ha, hlaw.a]
    rfl

/-! ### HOLD (R218) -/

section

variable {k : Tick} {s : State} (htest : testRunning s = false) (hstate : loopState s k.loop = 2) (hhold : snapFld k.cfg 0x30 28 4 = 0)

include hstate hhold

theorem fallbackAction_hold : fallbackAction s k.loop k.cfg = 0 := by
  unfold fallbackAction
  simp [hstate, hhold]

include htest

theorem evaluate_hold : (evaluate k s).1.u = f32 (loopRun s k.loop).a ∧ (evaluate k s).1.tick = k ∧ loopState (evaluate k s).2 k.loop = 2 := by
  have hprimary : judgePrimary k s = s := if_neg (by omega)
  have hact : fallbackAction s k.loop k.cfg = 0 := fallbackAction_hold hstate hhold
  have halternate : judgeAlternate k s = s := if_neg (by omega)
  unfold evaluate
  extract_lets n dt g test sg ctl ticked injSp injOut judged st act shown r x
  have htest : test = false := by
    unfold test
    rw [htest]
    rfl
  have hticked : ticked = s := if_neg (by rw [htest]; exact Bool.false_ne_true)
  have hjudged : judged = s := by
    unfold judged
    rw [hticked, hprimary, halternate]
  have hst : st = 2 := by
    unfold st
    rw [hjudged, hstate]
  have hact : act = 0 := by
    unfold act
    rw [hjudged, hact]
  have hr : r = runFallback act k injSp injOut dt test shown := by
    unfold r
    rw [if_neg (by omega), if_neg (by omega)]
  have hu : (runFallback act k injSp injOut dt test shown).1.u = f32 (loopRun shown n).a := by
    unfold runFallback
    rw [hact]
    rfl
  have hsame : (runFallback act k injSp injOut dt test shown).2 = shown := if_neg (by omega)
  have hshown : loopState shown n = 2 := by
    rw [loopState, fld_setFlag_apart (apart_beside (show 0 + 3 ≤ 32 by decide) (by decide) (by decide)), ← loopState, hjudged, hstate]
  refine ⟨?_, ?_, ?_⟩
  · rw [hr, hu, loopRun_of_ctl (t := shown) (s := s) (by unfold shown; rw [hjudged]; rfl)]
  · rw [hr]
    rfl
  · rw [loopState, fld_count, fld_setFld_apart (apart_beside (show 0 + 3 ≤ 32 by decide) (by decide) (by decide)), hr, hsame]
    exact hshown

end

end Sys2Proof.Machine

namespace Sys2Proof.Machine
open Sys2Proof

/-- A loop in FALLBACK with HOLD, alone in its unit, gives its last committed value (R218), and the output waits (R198). -/
theorem loopEvaluation_holds {s : State} {q : Tick} {l : List Tick} (hq : s.ctl.queue = q :: l) (hslots : s.ctl.slots < 6)
    (hen : flag s CTL_CTRL.EN = true) (hloop : q.loop < 32) (htest : testRunning s = false) (hlast : ∀ p ∈ l, ¬(p.unit = q.unit ∧ p.bnd = q.bnd))
    (hevals : s.ctl.evals = []) (hstate : loopState s q.loop = 2) (hhold : snapFld q.cfg 0x30 28 4 = 0) :
    ∃ t o, exec .loopEvaluation s = .next t ∧ t.ctl.outs = s.ctl.outs ++ [o] ∧ t.ctl.evals = [] ∧ o.unit = q.unit ∧ o.bnd = s.bnd ∧
      o.winner = q.loop ∧ o.g = f32 (loopRun s q.loop).a ∧ loopState t q.loop = 2 := by
  have hsafe := evaluate_safe q l (.inl htest)
  obtain ⟨hu, htick, hheld⟩ := evaluate_hold (k := q) (s := slotTaken l s) htest hstate hhold
  obtain ⟨run, test, hctl⟩ := (evaluate_lawOnly q (slotTaken l s)).ctl
  generalize hr : evaluate q (slotTaken l s) = r at hsafe hu htick hheld hctl
  have hnone : r.2.ctl.evals = [] := by
    rw [hctl]
    exact hevals
  have hmore : (l.any fun p => decide (p.unit = q.unit) && decide (p.bnd = q.bnd)) = false :=
    List.any_eq_false.mpr fun p hp h => hlast p hp (by simpa using h)
  have hsettled := TraceOnly.settleLoop r.1.u r.1.forced r.2 r.1
  obtain ⟨run', trace, hctl'⟩ := hsettled.ctl
  have hexec := exec_loopEvaluation hq hslots hen (hr ▸ hsafe)
  rw [hr, hmore, hnone, if_neg Bool.false_ne_true, List.nil_append] at hexec
  have hend : (settle (finishUnit s.bnd [r.1] r.2)).ctl = (finishUnit s.bnd [r.1] r.2).ctl := settle_same _ .ctl
  refine ⟨_, ⟨r.1.tick.unit, s.bnd, r.1.u, r.1.tick.loop, [r.1]⟩, hexec, ?_, by rw [hend]; rfl, by rw [htick], rfl, by rw [htick], hu, ?_⟩
  · rw [hend]
    change (settleLoop r.1.u r.1.forced r.2 r.1).ctl.outs ++ _ = _
    rw [hctl', hctl]
    rfl
  · rw [loopState, fld_settle_low _ (show CTL_LOOPn_STATUS q.loop < _ by unfold CTL_LOOPn_STATUS; omega)]
    refine Eq.trans ?_ hheld
    exact congrArg (fget · 0 3) (hsettled.regs (CTL_LOOPn_STATUS q.loop) (decide_eq_false (by unfold CTL_LOOPn_STATUS; omega))
      (by unfold CTL_LOOPn_STATUS RED_BP_FILL; omega) (ne_loopStatus (by decide)))

/-! ### LOOP_OUTPUT_COMMIT (R198, R208 to R211) -/

theorem exec_loopOutputCommit_idle {s : State} {u : Fin 32} (h : flag s CTL_CTRL.EN = false) : exec (.loopOutputCommit u) s = done s := if_pos h

/-- A 16-bit field holds a code of the ±32 000 codes of an analog output. -/
theorem signed_unsignedOf_clampInt (x : Int) : signed 16 (unsignedOf 16 (clampInt (-32000) 32000 x)) = clampInt (-32000) 32000 x := by
  obtain ⟨hlo, hhi⟩ := clampInt_bounds (lo := -32000) (hi := 32000) (by decide) x
  unfold signed unsignedOf
  dsimp only
  split <;> omega

/-- Whether an output of unit `u` is due: its last slot lay in an earlier lap (R198). -/
def outDue (s : State) (u : Nat) (o : UnitOut) : Bool := decide (o.unit = u) && decide (o.bnd < s.bnd)

/-- The loops of `o` are committed. -/
def unitCommitted (u : Nat) (o : UnitOut) (s : State) : State :=
  setCtl { (commitUnit o s).ctl with outs := (commitUnit o s).ctl.outs.filter fun o => !outDue s u o } (commitUnit o s)

theorem exec_loopOutputCommit {s : State} {u : Fin 32} {o : UnitOut} (hen : flag s CTL_CTRL.EN = true)
    (hdue : s.ctl.outs.filter (outDue s u) = [o]) : exec (.loopOutputCommit u) s = done (unitCommitted u o s) := by
  have hfold : (s.ctl.outs.filter (outDue s u)).foldl (fun s o => commitUnit o s) s = commitUnit o s := by rw [hdue]; rfl
  change execLoopOutputCommit u s = _
  refine (if_neg (by simp [hen])).trans ?_
  rw [unitCommitted, ← hfold]
  rfl

/-- The value `a` is the committed value of the loop, and its flags show whence it comes (R209, R216). -/
def memberShown (o : UnitOut) (a : Word) (s : State) (e : Eval) : State :=
  setFlag (setFlag (setLoopRun e.tick.loop { loopRun s e.tick.loop with a := a, tickLap := e.tick.lap } s)
    (CTL_LOOPn_STATUS.FORCED e.tick.loop) (outForced o e)) (CTL_LOOPn_STATUS.WINNER e.tick.loop) false

/-- A loop that is its own unit is no group's winner, and its commit is one more item of the digest. -/
theorem commitMember_alone (o : UnitOut) (a : Word) (s : State) (e : Eval) : ∃ data,
    commitMember o false a s e = digestItem s.bnd 1 (o.unit * 64 + e.tick.loop) data (memberShown o a s e) := ⟨_, rfl⟩

theorem forced_memberShown (o : UnitOut) (a : Word) (s : State) (e : Eval) :
    flag (memberShown o a s e) (CTL_LOOPn_STATUS.FORCED e.tick.loop) = outForced o e := by
  rw [flag, memberShown, fld_setFlag_apart (apart_beside (by decide) (by decide) (by decide)), ← flag]
  exact flag_setFlag_same _ _ _ rfl (show 11 + 1 ≤ 32 by decide)

/-- The code of an analog output for the applied value `a`, in steps of 312.5 µV (R205, R210). -/
def aoutCode (cfg : Tab Word) (a : Word) : Int :=
  clampInt (-32000) 32000 ((ftoInt (ddiv (dmul (f32 a) (snapF cfg 0x28)) (dofRat 3125 10000000))).getD 0)

theorem sendOutput_aout {cfg : Tab Word} (u n lap flags : Nat) (forced : Bool) (a : Word) (s : State) (hkind : snapFld cfg 0 16 4 = 1)
    (hnum : snapFld cfg 0 8 8 < 16) : sendOutput cfg u n lap flags forced a s =
      setInOrder 0 (snapFld cfg 0 8 8) (3 + u) (setAout (snapFld cfg 0 8 8) (aoutCode cfg a)) s := by
  unfold sendOutput
  rw [hkind]
  exact (if_neg (by decide)).trans ((if_neg (Nat.not_le.mpr hnum)).trans (if_pos rfl))

section

variable {o : UnitOut} {e : Eval} {s : State} (hevals : o.evals = [e]) (hstate : loopState s e.tick.loop ≠ 0)
    (hgroup : snapFld e.tick.cfg 0 25 1 = 0)

include hevals hstate hgroup

theorem commitUnit_alone : ∃ flags, commitUnit o s = sendOutput e.tick.cfg o.unit e.tick.loop e.tick.lap flags (outForced o e) (w32f o.g)
    (commitMember o false (w32f o.g) s e) := by
  have hlive : o.evals.filter (fun e => decide (loopState s e.tick.loop ≠ 0)) = [e] := by
    rw [hevals, List.filter_singleton, decide_eq_true hstate]
    rfl
  have hgrp : decide (snapFld e.tick.cfg 0 25 1 ≠ 0) = false := by rw [hgroup]; rfl
  unfold commitUnit
  dsimp only
  rw [hlive]
  dsimp only
  rw [hgrp]
  exact ⟨_, rfl⟩

/-- A commit sets the analog output of a loop that is its own unit, where no later place of R211 has set it. -/
theorem commitUnit_aout (hkind : snapFld e.tick.cfg 0 16 4 = 1) (hnum : snapFld e.tick.cfg 0 8 8 < 16)
    (hplace : tget (fun _ => 0) s.out.setBy (snapFld e.tick.cfg 0 8 8) ≤ 3 + o.unit) : ∃ w,
    w.regs = (memberShown o (w32f o.g) s e).regs ∧ w.ctl = (memberShown o (w32f o.g) s e).ctl ∧
    commitUnit o s = setAout (snapFld e.tick.cfg 0 8 8) (aoutCode e.tick.cfg (w32f o.g)) w := by
  obtain ⟨flags, hcommit⟩ := commitUnit_alone hevals hstate hgroup
  obtain ⟨data, hmember⟩ := commitMember_alone o (w32f o.g) s e
  rw [hcommit, sendOutput_aout _ _ _ _ _ _ _ hkind hnum, hmember, setInOrder, Nat.mul_zero, Nat.zero_add]
  refine ⟨_, ?_, ?_, if_neg (Nat.not_lt.mpr hplace)⟩ <;> rfl

end

theorem outForced_alone {o : UnitOut} {e : Eval} (h : o.evals = [e]) : outForced o e = (e.test || (decide (e.tick.loop = o.winner) && e.forced)) := by
  rw [outForced, h, List.any_cons, List.any_nil, Bool.or_false]

theorem loopOutputCommit_commits {s : State} {u : Fin 32} {o : UnitOut} {e : Eval} (hen : flag s CTL_CTRL.EN = true)
    (hdue : s.ctl.outs.filter (outDue s u) = [o]) (hevals : o.evals = [e]) (hloop : e.tick.loop < 32) (hstate : loopState s e.tick.loop ≠ 0)
    (hgroup : snapFld e.tick.cfg 0 25 1 = 0) (hkind : snapFld e.tick.cfg 0 16 4 = 1) (hnum : snapFld e.tick.cfg 0 8 8 < 16)
    (hplace : tget (fun _ => 0) s.out.setBy (snapFld e.tick.cfg 0 8 8) ≤ 3 + u) : ∃ t, exec (.loopOutputCommit u) s = .next t ∧
      t.ctl.outs = s.ctl.outs.filter (fun o => !outDue s u o) ∧ (loopRun t e.tick.loop).a = w32f o.g ∧
      (loopRun t e.tick.loop).tickLap = e.tick.lap ∧
      flag t (CTL_LOOPn_STATUS.FORCED e.tick.loop) = (e.test || (decide (e.tick.loop = o.winner) && e.forced)) ∧
      sfld t (CTL_AOUTj.CODE (snapFld e.tick.cfg 0 8 8)) = aoutCode e.tick.cfg (w32f o.g) ∧ t.mem = s.mem := by
  have hunit : o.unit = u := by
    have hmem : o ∈ s.ctl.outs.filter (outDue s u) := hdue ▸ List.mem_singleton_self o
    exact of_decide_eq_true (Bool.and_eq_true_iff.mp (List.mem_filter.mp hmem).2).1
  obtain ⟨w, hregs, hctl, hcommit⟩ := commitUnit_aout hevals hstate hgroup hkind hnum (hunit ▸ hplace)
  have hexec : exec (.loopOutputCommit u) s = done (unitCommitted u o s) := exec_loopOutputCommit hen hdue
  have hctl : (commitUnit o s).ctl = (memberShown o (w32f o.g) s e).ctl := by
    rw [hcommit, ← hctl]
    rfl
  have hsettle : (settle (unitCommitted u o s)).ctl = (unitCommitted u o s).ctl := settle_same _ .ctl
  have hrun : loopRun (settle (unitCommitted u o s)) e.tick.loop = { loopRun s e.tick.loop with a := w32f o.g, tickLap := e.tick.lap } := by
    rw [loopRun, hsettle]
    change loopRun (commitUnit o s) e.tick.loop = _
    rw [loopRun_of_ctl hctl]
    exact loopRun_setLoopRun_same ..
  have hmem : (settle (unitCommitted u o s)).mem = s.mem := congrArg Prod.fst (exec_same (k := .mem) hexec (show Comp.mem ∉ [Comp.out, Comp.ctl] by decide))
  refine ⟨_, hexec, ?_, by rw [hrun], by rw [hrun], ?_, ?_, hmem⟩
  · rw [hsettle, unitCommitted]
    change (commitUnit o s).ctl.outs.filter _ = _
    rw [hctl]
    rfl
  · rw [flag_settle_low _ (show CTL_LOOPn_STATUS e.tick.loop < _ by unfold CTL_LOOPn_STATUS; omega), ← outForced_alone hevals,
      ← forced_memberShown o (w32f o.g) s e]
    change flag (commitUnit o s) _ = _
    rw [hcommit, setAout, setInt, flag, fld_setFld_reg _ _ _ _ (ne_loopStatus (a := CTL_AOUTj _) (by unfold CTL_AOUTj; omega)), fld, rd, hregs]
    rfl
  · rw [sfld, fld_settle_low _ (show CTL_AOUTj (snapFld e.tick.cfg 0 8 8) < _ by unfold CTL_AOUTj; omega), ← sfld]
    change sfld (commitUnit o s) _ = _
    rw [hcommit, setAout, sfld_setInt_same _ _ (show 0 + 16 ≤ 32 by decide)]
    exact signed_unsignedOf_clampInt _

/-- Settles O29, clause by clause: the lemma about what each instruction does in the case of its clause. -/
theorem controlTicks : Obligations.ControlTicks :=
  ⟨fun s _ h => ⟨_, exec_loopTick_idle h, settle_same s⟩,
    fun _ _ => loopTick_queues,
    fun _ _ _ => loopTick_overruns,
    fun s h => ⟨_, exec_loopEvaluation_idle h, settle_same s⟩,
    fun _ _ _ => loopEvaluation_takes,
    fun _ _ _ => loopEvaluation_holds,
    fun s _ h => ⟨_, exec_loopOutputCommit_idle h, settle_same s⟩,
    fun _ _ _ _ => loopOutputCommit_commits⟩

end Sys2Proof.Machine

namespace Sys2Proof.Machine
open Sys2Proof

/-! ### The fields of an instruction word (R255) -/

/-- A number is `q * d + r`, for a digit `r`, exactly where these are its quotient and its remainder. -/
theorem eq_mul_add_iff {x q r d : Nat} (hr : r < d) : x = q * d + r ↔ x / d = q ∧ x % d = r := by
  rw [Nat.div_mod_unique (Nat.zero_lt_of_lt hr), and_iff_left hr, eq_comm, add_comm, mul_comm]

/-- The opcode is what stands above bit 25. -/
theorem opcode_eq (w : Word) : fget w 26 6 = w.toNat / 2 ^ 26 := by
  have hw := w.isLt
  rw [fget_eq w 26 (by decide)]
  omega

theorem w32_eq_iff {x : Nat} {w : Word} (hx : x < 2 ^ 32) : w32 x = w ↔ w.toNat = x := by
  rw [← BitVec.toNat_inj, w32, BitVec.toNat_ofNat, Nat.mod_eq_of_lt hx, eq_comm]

/-- A word is of format A with given fields exactly where its fields are these: they are the digits of its number. -/
theorem wordA_eq_iff {w : Word} {op rd rs rt sub fn : Nat} (hop : op < 64) (hrd : rd < 16) (hrs : rs < 16) (hrt : rt < 16) (hsub : sub < 256)
    (hfn : fn < 64) : wordA op rd rs rt sub fn = w ↔ fget w 26 6 = op ∧ fget w 22 4 = rd ∧ fget w 18 4 = rs ∧ fget w 14 4 = rt ∧
      fget w 6 8 = sub ∧ fget w 0 6 = fn := by
  have hdigits : op * 2 ^ 26 + rd * 2 ^ 22 + rs * 2 ^ 18 + rt * 2 ^ 14 + sub * 2 ^ 6 + fn =
      ((((op * 16 + rd) * 16 + rs) * 16 + rt) * 256 + sub) * 64 + fn := by ring
  rw [wordA, w32_eq_iff (by omega), hdigits, eq_mul_add_iff hfn, eq_mul_add_iff hsub, eq_mul_add_iff hrt, eq_mul_add_iff hrs,
    eq_mul_add_iff hrd, opcode_eq]
  simp (disch := decide) only [fget_eq, and_assoc, Nat.div_div_eq_div_mul, Nat.reduceMul, Nat.reducePow, Nat.div_one]

/-- The same of format I with a 14-bit immediate. -/
theorem wordI_eq_iff {w : Word} {op rd rs imm : Nat} (hop : op < 64) (hrd : rd < 16) (hrs : rs < 16) (himm : imm < 2 ^ 14) :
    wordI op rd rs imm = w ↔ fget w 26 6 = op ∧ fget w 22 4 = rd ∧ fget w 18 4 = rs ∧ fget w 14 4 = 0 ∧ fget w 0 14 = imm := by
  have hdigits : op * 2 ^ 26 + rd * 2 ^ 22 + rs * 2 ^ 18 + imm = (((op * 16 + rd) * 16 + rs) * 16 + 0) * 2 ^ 14 + imm := by ring
  rw [wordI, w32_eq_iff (by omega), hdigits, eq_mul_add_iff himm, eq_mul_add_iff (by decide), eq_mul_add_iff hrs, eq_mul_add_iff hrd, opcode_eq]
  simp (disch := decide) only [fget_eq, and_assoc, Nat.div_div_eq_div_mul, Nat.reduceMul, Nat.reducePow, Nat.div_one]

/-- The 14-bit field of a shift: its amount, and zeros above. -/
theorem shiftField_eq_iff {w : Word} {sh : Nat} (hsh : sh < 32) : fget w 0 14 = sh ↔ fget w 5 9 = 0 ∧ fget w 0 5 = sh := by
  simp (disch := decide) only [fget_eq]
  omega

/-- The same of LUI, with an 18-bit immediate. -/
theorem wordLui_eq_iff {w : Word} {op rd imm : Nat} (hop : op < 64) (hrd : rd < 16) (himm : imm < 2 ^ 18) :
    wordI op rd 0 imm = w ↔ fget w 26 6 = op ∧ fget w 22 4 = rd ∧ fget w 18 4 = 0 ∧ fget w 0 18 = imm := by
  have hdigits : op * 2 ^ 26 + rd * 2 ^ 22 + 0 * 2 ^ 18 + imm = ((op * 16 + rd) * 16 + 0) * 2 ^ 18 + imm := by ring
  rw [wordI, w32_eq_iff (by omega), hdigits, eq_mul_add_iff himm, eq_mul_add_iff (by decide), eq_mul_add_iff hrd, opcode_eq]
  simp (disch := decide) only [fget_eq, and_assoc, Nat.div_div_eq_div_mul, Nat.reduceMul, Nat.reducePow, Nat.div_one]

theorem wordM_eq_iff {w : Word} {op rd rb am sz sx : Nat} {off : BitVec 13} (hop : op < 64) (hrd : rd < 16) (hrb : rb < 16) (ham : am < 4)
    (hsz : sz < 4) (hsx : sx < 2) : wordM op rd rb am sz sx off = w ↔ fget w 26 6 = op ∧ fget w 22 4 = rd ∧ fget w 18 4 = rb ∧
      fget w 16 2 = am ∧ fget w 14 2 = sz ∧ fget w 13 1 = sx ∧ fget w 0 13 = off.toNat := by
  have hoff := off.isLt
  have hdigits : op * 2 ^ 26 + rd * 2 ^ 22 + rb * 2 ^ 18 + am * 2 ^ 16 + sz * 2 ^ 14 + sx * 2 ^ 13 + off.toNat =
      (((((op * 16 + rd) * 16 + rb) * 4 + am) * 4 + sz) * 2 + sx) * 2 ^ 13 + off.toNat := by ring
  rw [wordM, w32_eq_iff (by omega), hdigits, eq_mul_add_iff hoff, eq_mul_add_iff hsx, eq_mul_add_iff hsz, eq_mul_add_iff ham,
    eq_mul_add_iff hrb, eq_mul_add_iff hrd, opcode_eq]
  simp (disch := decide) only [fget_eq, and_assoc, Nat.div_div_eq_div_mul, Nat.reduceMul, Nat.reducePow, Nat.div_one]

theorem wordB_eq_iff {w : Word} {op c t : Nat} {off : BitVec 20} (hop : op < 64) (hc : c < 16) (ht : t < 4) :
    wordB op c t off = w ↔ fget w 26 6 = op ∧ fget w 22 4 = c ∧ fget w 20 2 = t ∧ fget w 0 20 = off.toNat := by
  have hoff := off.isLt
  have hdigits : op * 2 ^ 26 + c * 2 ^ 22 + t * 2 ^ 20 + off.toNat = ((op * 16 + c) * 4 + t) * 2 ^ 20 + off.toNat := by ring
  rw [wordB, w32_eq_iff (by omega), hdigits, eq_mul_add_iff hoff, eq_mul_add_iff ht, eq_mul_add_iff hc, opcode_eq]
  simp (disch := decide) only [fget_eq, and_assoc, Nat.div_div_eq_div_mul, Nat.reduceMul, Nat.reducePow, Nat.div_one]

theorem wordJ_eq_iff {w : Word} {op : Nat} {off : BitVec 26} (hop : op < 64) :
    wordJ op off = w ↔ fget w 26 6 = op ∧ fget w 0 26 = off.toNat := by
  have hoff := off.isLt
  rw [wordJ, w32_eq_iff (by omega), eq_mul_add_iff hoff, opcode_eq]
  simp (disch := decide) only [fget_eq, Nat.reducePow, Nat.div_one]

/-! ### The operands that a field spells -/

theorem gAt_val (w : Word) (lo : Nat) : (gAt w lo).val = fget w lo 4 := Nat.mod_eq_of_lt (fget_lt w lo 4 (by decide))

theorem fAt_val {w : Word} {lo : Nat} (h : fget w lo 4 < 8) : (fAt w lo).val = fget w lo 4 := Nat.mod_eq_of_lt h

/-- The bits of SUB. -/
theorem nbit_of_sub {w : Word} {i : Nat} (hlo : 6 ≤ i) (hhi : i < 14) : nbit w.toNat i = (fget w 6 8).testBit (i - 6) := by
  rw [testBit_fget _ _ _ _ (by decide), decide_eq_true (by omega), Bool.true_and, Nat.add_sub_cancel' hlo]
  rfl

/-- The low bits of SUB. -/
theorem fget_of_sub (w : Word) {k : Nat} (hk : k < 8) : fget w 6 k = fget w 6 8 % 2 ^ k := by
  rw [fget_eq w 6 (by omega), fget_eq w 6 (by decide), Nat.mod_mod_of_dvd _ (Nat.pow_dvd_pow 2 hk.le)]

theorem bit_le_one (b : Bool) : bit b ≤ 1 := by cases b <;> decide

theorem bit_decide_odd (x : Nat) : bit (decide (x % 2 = 1)) = x % 2 := by
  rw [bit]
  split <;> simp_all

/-! ### Every legal word is the word of what it spells (R254) -/

section
variable {n : Fin 5} {w : Word}

theorem wordA_of_fields {op rd rs rt sub fn : Nat} (hop : fget w 26 6 = op) (hrd : fget w 22 4 = rd) (hrs : fget w 18 4 = rs)
    (hrt : fget w 14 4 = rt) (hsub : fget w 6 8 = sub) (hfn : fget w 0 6 = fn) : wordA op rd rs rt sub fn = w := by
  subst hop hrd hrs hrt hsub hfn
  exact (wordA_eq_iff (fget_lt _ _ _ (by decide)) (fget_lt _ _ _ (by decide)) (fget_lt _ _ _ (by decide)) (fget_lt _ _ _ (by decide))
    (fget_lt _ _ _ (by decide)) (fget_lt _ _ _ (by decide))).mpr ⟨rfl, rfl, rfl, rfl, rfl, rfl⟩

theorem fn_of_legalInt {rd rt sub fn : Nat} (h : legalInt rd rt sub fn = true) : 1 ≤ fn ∧ fn ≤ 17 := by
  by_contra hfn
  have hne : ¬ (1 ≤ fn ∧ fn ≤ 14) ∧ fn ≠ 15 ∧ fn ≠ 16 ∧ fn ≠ 17 := by omega
  simp [legalInt, hne] at h

theorem fn_of_legalFloat {rd rs rt sub fn : Nat} (h : legalFloat rd rs rt sub fn = true) : 1 ≤ fn ∧ fn ≤ 16 := by
  by_contra hfn
  have hne : ¬ ((1 ≤ fn ∧ fn ≤ 4) ∨ (6 ≤ fn ∧ fn ≤ 8)) ∧ ¬ (fn = 5 ∨ fn = 9 ∨ fn = 10) ∧ fn ≠ 11 ∧ ¬ (fn = 12 ∨ fn = 15) ∧ fn ≠ 13 ∧ fn ≠ 14 ∧
    fn ≠ 16 := by omega
  obtain ⟨h1, h2, h3, h4, h5, h6, h7⟩ := hne
  simp only [legalFloat, if_neg h1, if_neg h2, if_neg h3, if_neg h4, if_neg h5, if_neg h6, if_neg h7, Bool.false_eq_true] at h

/-- Instruction `i` of core `n` is what its own word `w` spells. -/
def SpelledBy (n : Fin 5) (w : Word) (i : Instr) : Prop := coreOfInstr i = some n ∧ ralnelWord i = some w

/-- A legal word of the integer register group spells an instruction, whose word it is. -/
theorem decodeInt_spells (hop : fget w 26 6 = 0) (hl : legalInt (fget w 22 4) (fget w 14 4) (fget w 6 8) (fget w 0 6) = true) :
    ∃ i, decodeInt n w = some i ∧ SpelledBy n w i := by
  unfold decodeInt
  dsimp only
  split
  case h_18 =>
    obtain ⟨hlo, hhi⟩ := fn_of_legalInt hl
    generalize fget w 0 6 = fn at *
    interval_cases fn <;> contradiction
  all_goals
    next h =>
    simp [legalInt, h] at hl
    exact ⟨_, rfl, rfl, congrArg some (by apply wordA_of_fields <;> simp [gAt_val, *])⟩

/-- The same of the multiply-accumulate group, whose SUB holds the accumulator and more. -/
theorem decodeMac_spells (hop : fget w 26 6 = 1)
    (hl : legalMac (fget w 22 4) (fget w 18 4) (fget w 14 4) (fget w 6 8) (fget w 0 6) = true) :
    ∃ i, decodeMac n w = some i ∧ SpelledBy n w i := by
  have hsub := fget_lt w 6 8 (by decide)
  unfold decodeMac
  dsimp only
  split
  case h_6 => simp [legalMac] at hl
  all_goals
    next h =>
    simp [legalMac, h] at hl
    exact ⟨_, rfl, rfl, congrArg some (by
      apply wordA_of_fields <;> simp [gAt_val, fget_of_sub, nbit_of_sub, Nat.testBit_eq_decide_div_mod_eq, bit_decide_odd, *]; omega)⟩

theorem decodeFloat_spells (hop : fget w 26 6 = 2)
    (hl : legalFloat (fget w 22 4) (fget w 18 4) (fget w 14 4) (fget w 6 8) (fget w 0 6) = true) :
    ∃ i, decodeFloat n w = some i ∧ SpelledBy n w i := by
  unfold decodeFloat
  dsimp only
  split
  case h_17 =>
    obtain ⟨hlo, hhi⟩ := fn_of_legalFloat hl
    generalize fget w 0 6 = fn at *
    interval_cases fn <;> contradiction
  all_goals
    next h =>
    simp [legalFloat, h] at hl
    exact ⟨_, rfl, rfl, congrArg some (by
      apply wordA_of_fields <;> simp [gAt_val, fAt_val, nbit_of_sub, bit_decide_odd, *] <;> omega)⟩

theorem decodeSystem_spells (hop : fget w 26 6 = 3)
    (hl : legalSystem (fget w 22 4) (fget w 18 4) (fget w 14 4) (fget w 6 8) (fget w 0 6) = true) :
    ∃ i, decodeSystem n w = some i ∧ SpelledBy n w i := by
  have hsub := fget_lt w 6 8 (by decide)
  unfold decodeSystem
  dsimp only
  split
  case h_7 => simp [legalSystem] at hl
  all_goals
    next h =>
    simp [legalSystem, h] at hl
    exact ⟨_, rfl, rfl, congrArg some (by
      apply wordA_of_fields <;> simp [gAt_val, *] <;> omega)⟩

theorem decodeQueue_spells (hop : fget w 26 6 = 0x30)
    (hl : legalQueue (fget w 22 4) (fget w 18 4) (fget w 14 4) (fget w 6 8) (fget w 0 6) = true) :
    ∃ i, decodeQueue n w = some i ∧ SpelledBy n w i := by
  have hsub := fget_lt w 6 8 (by decide)
  have hra := fget_lt w 22 4 (by decide)
  unfold decodeQueue
  dsimp only
  split
  case h_9 => simp [legalQueue] at hl
  all_goals
    next h =>
    simp [legalQueue, h] at hl
    exact ⟨_, rfl, rfl, congrArg some (by
      apply wordA_of_fields <;> simp [gAt_val, fget_of_sub, nbit_of_sub, Nat.testBit_eq_decide_div_mod_eq, bit_decide_odd, *] <;> omega)⟩

theorem toNat_ofNat_fget (w : Word) (lo k : Nat) (hk : k ≤ 32) : (BitVec.ofNat k (fget w lo k)).toNat = fget w lo k :=
  (BitVec.toNat_ofNat ..).trans (Nat.mod_eq_of_lt (fget_lt w lo k hk))

theorem wordM_of_fields {op rd rb am sz sx : Nat} {off : BitVec 13} (hop : fget w 26 6 = op) (hrd : fget w 22 4 = rd) (hrb : fget w 18 4 = rb)
    (ham : fget w 16 2 = am) (hsz : fget w 14 2 = sz) (hsx : fget w 13 1 = sx) (hoff : fget w 0 13 = off.toNat) :
    wordM op rd rb am sz sx off = w := by
  subst hop hrd hrb ham hsz hsx
  exact (wordM_eq_iff (fget_lt _ _ _ (by decide)) (fget_lt _ _ _ (by decide)) (fget_lt _ _ _ (by decide)) (fget_lt _ _ _ (by decide))
    (fget_lt _ _ _ (by decide)) (fget_lt _ _ _ (by decide))).mpr ⟨rfl, rfl, rfl, rfl, rfl, rfl, hoff⟩

/-- The forms of a legal word of the M format (R268). -/
theorem memForm_of_legal {op : Nat} (hop : 0x18 ≤ op ∧ op ≤ 0x1B) (hl : legalMem op w = true) : fget w 16 2 ≠ 3 ∧
    ((op, fget w 14 2, fget w 13 1) ∈ [(0x18, 0, 1), (0x18, 0, 0), (0x18, 1, 1), (0x18, 1, 0), (0x18, 2, 0), (0x19, 0, 0), (0x19, 1, 0),
      (0x19, 2, 0)] ∨ (fget w 22 4 < 8 ∧ (op, fget w 14 2, fget w 13 1) ∈ [(0x1A, 2, 0), (0x1A, 3, 0), (0x1B, 2, 0)])) := by
  have hsz := fget_lt w 14 2 (by decide)
  have hsx := fget_lt w 13 1 (by decide)
  unfold legalMem at hl
  generalize fget w 14 2 = sz at hsz hl ⊢
  generalize fget w 13 1 = sx at hsx hl ⊢
  obtain ⟨hlo, hhi⟩ := hop
  interval_cases op <;> interval_cases sz <;> interval_cases sx <;> simp at hl ⊢ <;> simp [hl]

theorem decodeMem_spells (hop : 0x18 ≤ fget w 26 6 ∧ fget w 26 6 ≤ 0x1B) (hl : legalMem (fget w 26 6) w = true) :
    ∃ i, decodeMem n w = some i ∧ SpelledBy n w i := by
  have ham : fget w 16 2 = (Fin.ofNat 3 (fget w 16 2)).val := by
    have hlt := fget_lt w 16 2 (by decide)
    have hne := (memForm_of_legal hop hl).1
    simp
    omega
  have hoff := (toNat_ofNat_fget w 0 13 (by decide)).symm
  have hform := (memForm_of_legal hop hl).2
  simp only [List.mem_cons, List.not_mem_nil, or_false, Prod.mk.injEq] at hform
  rcases hform with hform | ⟨hd, hform⟩
  · rcases hform with ⟨h, h', h''⟩ | ⟨h, h', h''⟩ | ⟨h, h', h''⟩ | ⟨h, h', h''⟩ | ⟨h, h', h''⟩ | ⟨h, h', h''⟩ | ⟨h, h', h''⟩ | ⟨h, h', h''⟩
    all_goals
      rw [decodeMem, h, h', h'']
      exact ⟨_, rfl, rfl, congrArg some (wordM_of_fields h (gAt_val ..).symm (gAt_val ..).symm ham h' h'' hoff)⟩
  · rcases hform with ⟨h, h', h''⟩ | ⟨h, h', h''⟩ | ⟨h, h', h''⟩
    all_goals
      rw [decodeMem, h, h', h'']
      exact ⟨_, rfl, rfl, congrArg some (wordM_of_fields h (fAt_val hd).symm (gAt_val ..).symm ham h' h'' hoff)⟩

theorem wordI_of_fields {op rd rs imm : Nat} (hop : fget w 26 6 = op) (hrd : fget w 22 4 = rd) (hrs : fget w 18 4 = rs)
    (hrt : fget w 14 4 = 0) (himm : fget w 0 14 = imm) : wordI op rd rs imm = w := by
  subst hop hrd hrs himm
  exact (wordI_eq_iff (fget_lt _ _ _ (by decide)) (fget_lt _ _ _ (by decide)) (fget_lt _ _ _ (by decide))
    (fget_lt _ _ _ (by decide))).mpr ⟨rfl, rfl, rfl, hrt, rfl⟩

/-- The legality of an immediate-group word, as `legalWord` has it. -/
def legalImm (w : Word) : Bool :=
  let op := fget w 26 6
  if 0x08 ≤ op ∧ op ≤ 0x0B then decide (fget w 14 4 = 0)
  else if 0x0C ≤ op ∧ op ≤ 0x0E then decide (fget w 14 4 = 0 ∧ fget w 5 9 = 0)
  else if op = 0x0F then decide (fget w 14 4 = 0 ∧ fget w 22 4 = 0)
  else if op = 0x10 then decide (fget w 18 4 = 0)
  else false

theorem decodeImm_spells (hl : legalImm w = true) :
    ∃ i, decodeImm n w = some i ∧ SpelledBy n w i := by
  have himm := toNat_ofNat_fget w 0 14 (by decide)
  have himm18 := toNat_ofNat_fget w 0 18 (by decide)
  have hshift : fget w 5 9 = 0 → fget w 0 14 = (BitVec.ofNat 5 (fget w 0 5)).toNat := fun h =>
    (shiftField_eq_iff (BitVec.isLt _)).mpr ⟨h, (toNat_ofNat_fget w 0 5 (by decide)).symm⟩
  unfold decodeImm
  dsimp only
  split
  case h_10 =>
    simp only [imp_false] at *
    unfold legalImm at hl
    dsimp only at hl
    split_ifs at hl <;> simp at hl <;> omega
  case h_9 h =>
    simp [legalImm, h] at hl
    exact ⟨_, rfl, rfl, congrArg some ((wordLui_eq_iff (by decide) (Fin.isLt _) (BitVec.isLt _)).mpr ⟨h, (gAt_val ..).symm, hl, himm18.symm⟩)⟩
  all_goals
    next h =>
    simp [legalImm, h] at hl
    exact ⟨_, rfl, rfl, congrArg some (by apply wordI_of_fields <;> simp [gAt_val, -BitVec.toNat_ofNat, *])⟩

theorem wordB_of_fields {op c t : Nat} {off : BitVec 20} (hop : fget w 26 6 = op) (hc : fget w 22 4 = c) (ht : fget w 20 2 = t)
    (hoff : fget w 0 20 = off.toNat) : wordB op c t off = w := by
  subst hop hc ht
  exact (wordB_eq_iff (fget_lt _ _ _ (by decide)) (fget_lt _ _ _ (by decide)) (fget_lt _ _ _ (by decide))).mpr ⟨rfl, rfl, rfl, hoff⟩

theorem wordJ_of_fields {op : Nat} {off : BitVec 26} (hop : fget w 26 6 = op) (hoff : fget w 0 26 = off.toNat) : wordJ op off = w := by
  subst hop
  exact (wordJ_eq_iff (fget_lt _ _ _ (by decide))).mpr ⟨rfl, hoff⟩

/-- Every legal word spells an instruction, whose word it is (R254). -/
theorem decodeRalnel_spells (hl : legalWord w = true) : ∃ i, decodeRalnel n w = some i ∧ SpelledBy n w i := by
  have hoff := (toNat_ofNat_fget w 0 20 (by decide)).symm
  have hfar := (toNat_ofNat_fget w 0 26 (by decide)).symm
  have hcond := fget_lt w 22 4 (by decide)
  have htest := fget_lt w 20 2 (by decide)
  unfold decodeRalnel
  rw [if_pos hl]
  split
  case h_1 h => exact decodeInt_spells h (by simpa [legalWord, h] using hl)
  case h_2 h => exact decodeMac_spells h (by simpa [legalWord, h] using hl)
  case h_3 h => exact decodeFloat_spells h (by simpa [legalWord, h] using hl)
  case h_4 h => exact decodeSystem_spells h (by simpa [legalWord, h] using hl)
  case h_5 h | h_6 h | h_7 h | h_8 h => exact decodeMem_spells (by omega) (by simpa [legalWord, h] using hl)
  case h_9 h =>
    simp [legalWord, h] at hl
    exact ⟨_, rfl, rfl, congrArg some (wordB_of_fields h (by simp; omega) hl.2 hoff)⟩
  case h_10 h => exact ⟨_, rfl, rfl, congrArg some (wordB_of_fields h (gAt_val ..).symm (by simp; omega) hoff)⟩
  case h_11 h | h_12 h => exact ⟨_, rfl, rfl, congrArg some (wordJ_of_fields h hfar)⟩
  case h_13 h => exact decodeQueue_spells h (by simpa [legalWord, h] using hl)
  case h_14 =>
    simp only [imp_false] at *
    refine decodeImm_spells ?_
    have hmem : ¬ (0x18 ≤ fget w 26 6 ∧ fget w 26 6 ≤ 0x1B) := by omega
    simp_all [legalWord, legalImm]

end

/-! ### Every instruction is decoded from its own word (R254, R255) -/

/-- The instruction with the instant that no word holds at 0. -/
def atZero (i : Instr) : Instr :=
  match i with
  | .stamp m wd laps _ => .stamp m wd laps 0
  | .tally m wd k vel _ => .tally m wd k vel 0
  | .mfsr m rd sr _ => .mfsr m rd sr 0
  | _ => i

theorem fields_wordA {op rd rs rt sub fn : Nat} (hop : op < 64) (hrd : rd < 16) (hrs : rs < 16) (hrt : rt < 16) (hsub : sub < 256)
    (hfn : fn < 64) : fget (wordA op rd rs rt sub fn) 26 6 = op ∧ fget (wordA op rd rs rt sub fn) 22 4 = rd ∧
      fget (wordA op rd rs rt sub fn) 18 4 = rs ∧ fget (wordA op rd rs rt sub fn) 14 4 = rt ∧
      fget (wordA op rd rs rt sub fn) 6 8 = sub ∧ fget (wordA op rd rs rt sub fn) 0 6 = fn :=
  (wordA_eq_iff hop hrd hrs hrt hsub hfn).mp rfl

theorem fields_wordM {op rd rb am sz sx : Nat} {off : BitVec 13} (hop : op < 64) (hrd : rd < 16) (hrb : rb < 16) (ham : am < 4)
    (hsz : sz < 4) (hsx : sx < 2) : fget (wordM op rd rb am sz sx off) 26 6 = op ∧ fget (wordM op rd rb am sz sx off) 22 4 = rd ∧
      fget (wordM op rd rb am sz sx off) 18 4 = rb ∧ fget (wordM op rd rb am sz sx off) 16 2 = am ∧
      fget (wordM op rd rb am sz sx off) 14 2 = sz ∧ fget (wordM op rd rb am sz sx off) 13 1 = sx ∧
      fget (wordM op rd rb am sz sx off) 0 13 = off.toNat := (wordM_eq_iff hop hrd hrb ham hsz hsx).mp rfl

theorem fields_wordI {op rd rs imm : Nat} (hop : op < 64) (hrd : rd < 16) (hrs : rs < 16) (himm : imm < 2 ^ 14) :
    fget (wordI op rd rs imm) 26 6 = op ∧ fget (wordI op rd rs imm) 22 4 = rd ∧ fget (wordI op rd rs imm) 18 4 = rs ∧
      fget (wordI op rd rs imm) 14 4 = 0 ∧ fget (wordI op rd rs imm) 0 14 = imm := (wordI_eq_iff hop hrd hrs himm).mp rfl

theorem fields_wordLui {op rd imm : Nat} (hop : op < 64) (hrd : rd < 16) (himm : imm < 2 ^ 18) :
    fget (wordI op rd 0 imm) 26 6 = op ∧ fget (wordI op rd 0 imm) 22 4 = rd ∧ fget (wordI op rd 0 imm) 18 4 = 0 ∧
      fget (wordI op rd 0 imm) 0 18 = imm := (wordLui_eq_iff hop hrd himm).mp rfl

theorem fields_wordB {op c t : Nat} {off : BitVec 20} (hop : op < 64) (hc : c < 16) (ht : t < 4) :
    fget (wordB op c t off) 26 6 = op ∧ fget (wordB op c t off) 22 4 = c ∧ fget (wordB op c t off) 20 2 = t ∧
      fget (wordB op c t off) 0 20 = off.toNat := (wordB_eq_iff hop hc ht).mp rfl

theorem fields_wordJ {op : Nat} {off : BitVec 26} (hop : op < 64) :
    fget (wordJ op off) 26 6 = op ∧ fget (wordJ op off) 0 26 = off.toNat := (wordJ_eq_iff hop).mp rfl

/-- The word of instruction `i` is legal, and core `n` decodes it as `j`. -/
def DecodesAs (n : Fin 5) (i j : Instr) : Prop := ∃ w, ralnelWord i = some w ∧ legalWord w = true ∧ decodeRalnel n w = some j

/-! Legality and decoding by opcode (R254, R255) -/

section
variable {w : Word}

theorem legalWord_integer (h : fget w 26 6 = 0) : legalWord w = legalInt (fget w 22 4) (fget w 14 4) (fget w 6 8) (fget w 0 6) := by
  rw [legalWord, h]
  rfl

theorem legalWord_accumulator (h : fget w 26 6 = 1) :
    legalWord w = legalMac (fget w 22 4) (fget w 18 4) (fget w 14 4) (fget w 6 8) (fget w 0 6) := by
  rw [legalWord, h]
  rfl

theorem legalWord_float (h : fget w 26 6 = 2) :
    legalWord w = legalFloat (fget w 22 4) (fget w 18 4) (fget w 14 4) (fget w 6 8) (fget w 0 6) := by
  rw [legalWord, h]
  rfl

theorem legalWord_system (h : fget w 26 6 = 3) :
    legalWord w = legalSystem (fget w 22 4) (fget w 18 4) (fget w 14 4) (fget w 6 8) (fget w 0 6) := by
  rw [legalWord, h]
  rfl

theorem legalWord_queue (h : fget w 26 6 = 0x30) :
    legalWord w = legalQueue (fget w 22 4) (fget w 18 4) (fget w 14 4) (fget w 6 8) (fget w 0 6) := by
  rw [legalWord, h]
  rfl

variable {n : Fin 5} (hl : legalWord w = true)
include hl

theorem decodeRalnel_integer (h : fget w 26 6 = 0) : decodeRalnel n w = decodeInt n w := by
  rw [decodeRalnel, if_pos hl, h]
  rfl

theorem decodeRalnel_accumulator (h : fget w 26 6 = 1) : decodeRalnel n w = decodeMac n w := by
  rw [decodeRalnel, if_pos hl, h]
  rfl

theorem decodeRalnel_float (h : fget w 26 6 = 2) : decodeRalnel n w = decodeFloat n w := by
  rw [decodeRalnel, if_pos hl, h]
  rfl

theorem decodeRalnel_system (h : fget w 26 6 = 3) : decodeRalnel n w = decodeSystem n w := by
  rw [decodeRalnel, if_pos hl, h]
  rfl

theorem decodeRalnel_queue (h : fget w 26 6 = 0x30) : decodeRalnel n w = decodeQueue n w := by
  rw [decodeRalnel, if_pos hl, h]
  rfl

end

section
variable {n : Fin 5} {i j : Instr} {rd rs rt sub fn : Nat}

/-- An instruction of format A is decoded as `j` where its fields are legal in its group and the group's decoder gives `j` for them. -/
theorem decodes_of_wordA {op : Nat} {legal : Nat → Nat → Nat → Nat → Nat → Bool} {decode : Fin 5 → Word → Option Instr}
    (hlegal : ∀ w, fget w 26 6 = op → legalWord w = legal (fget w 22 4) (fget w 18 4) (fget w 14 4) (fget w 6 8) (fget w 0 6))
    (hdecode : ∀ w, legalWord w = true → fget w 26 6 = op → decodeRalnel n w = decode n w) (hop : op < 64)
    (hword : ralnelWord i = some (wordA op rd rs rt sub fn)) (hrd : rd < 16) (hrs : rs < 16) (hrt : rt < 16) (hsub : sub < 256) (hfn : fn < 64)
    (hl : legal rd rs rt sub fn = true)
    (hj : ∀ w, fget w 22 4 = rd → fget w 18 4 = rs → fget w 14 4 = rt → fget w 6 8 = sub → fget w 0 6 = fn → decode n w = some j) :
    DecodesAs n i j := by
  obtain ⟨h1, h2, h3, h4, h5, h6⟩ := fields_wordA hop hrd hrs hrt hsub hfn
  have hl' : legalWord (wordA op rd rs rt sub fn) = true := by rw [hlegal _ h1, h2, h3, h4, h5, h6, hl]
  exact ⟨_, hword, hl', (hdecode _ hl' h1).trans (hj _ h2 h3 h4 h5 h6)⟩


/-- One of format M is decoded as `j` where every word with its fields is. -/
theorem decodes_of_wordM {op rb am sz sx : Nat} {off : BitVec 13} (hword : ralnelWord i = some (wordM op rd rb am sz sx off)) (hop : op < 64)
    (hrd : rd < 16) (hrb : rb < 16) (ham : am < 4) (hsz : sz < 4) (hsx : sx < 2)
    (h : ∀ w, fget w 26 6 = op → fget w 22 4 = rd → fget w 18 4 = rb → fget w 16 2 = am → fget w 14 2 = sz → fget w 13 1 = sx →
      fget w 0 13 = off.toNat → legalWord w = true ∧ decodeRalnel n w = some j) : DecodesAs n i j := by
  obtain ⟨h1, h2, h3, h4, h5, h6, h7⟩ := fields_wordM (off := off) hop hrd hrb ham hsz hsx
  exact ⟨_, hword, h _ h1 h2 h3 h4 h5 h6 h7⟩

/-- The same of format I. -/
theorem decodes_of_wordI {op imm : Nat} (hword : ralnelWord i = some (wordI op rd rs imm)) (hop : op < 64) (hrd : rd < 16) (hrs : rs < 16)
    (himm : imm < 2 ^ 14) (h : ∀ w, fget w 26 6 = op → fget w 22 4 = rd → fget w 18 4 = rs → fget w 14 4 = 0 → fget w 0 14 = imm →
      legalWord w = true ∧ decodeRalnel n w = some j) : DecodesAs n i j := by
  obtain ⟨h1, h2, h3, h4, h5⟩ := fields_wordI hop hrd hrs himm
  exact ⟨_, hword, h _ h1 h2 h3 h4 h5⟩

end

/-! One lemma per group of R260 to R275: the fields of its format make the word legal and give the operands back. -/

theorem integer_decodes (n : Fin 5) (d s t : Fin 16) : ∀ i ∈ [Instr.add n d s t, .sub n d s t, .and n d s t, .or n d s t, .xor n d s t,
    .shl n d s t, .shr n d s t, .sar n d s t, .mul n d s t, .mulh n d s t, .div n d s t, .divu n d s t, .min n d s t, .max n d s t,
    .cmp n s t, .jr n s, .jalr n d s], DecodesAs n i i := by
  simp only [List.forall_mem_cons, List.not_mem_nil, false_implies, implies_true, and_true]
  refine ⟨?_, ?_, ?_, ?_, ?_, ?_, ?_, ?_, ?_, ?_, ?_, ?_, ?_, ?_, ?_, ?_, ?_⟩
  all_goals
    refine decodes_of_wordA (legal := fun rd _ rt sub fn => legalInt rd rt sub fn) (fun _ => legalWord_integer)
      (fun _ => decodeRalnel_integer) (by decide) rfl (by omega) (by omega) (by omega) (by omega) (by omega) rfl fun w h1 h2 h3 h4 h5 => ?_
    simp only [decodeInt, gAt, h1, h2, h3, h5, Fin.ofNat_val_eq_self]

theorem immediate_decodes (n : Fin 5) (d s : Fin 16) (imm : BitVec 14) : ∀ i ∈ [Instr.addi n d s imm, .andi n d s imm, .ori n d s imm,
    .xori n d s imm, .cmpi n s imm], DecodesAs n i i := by
  simp only [List.forall_mem_cons, List.not_mem_nil, false_implies, implies_true, and_true]
  refine ⟨?_, ?_, ?_, ?_, ?_⟩
  all_goals
    refine decodes_of_wordI rfl (by decide) (by omega) (by omega) imm.isLt fun w h1 h2 h3 h4 h5 => ?_
    simp [legalWord, decodeRalnel, decodeImm, gAt, h1, h2, h3, h4, h5]

theorem shiftImmediate_decodes (n : Fin 5) (d s : Fin 16) (sh : BitVec 5) : ∀ i ∈ [Instr.shli n d s sh, .shri n d s sh, .sari n d s sh],
    DecodesAs n i i := by
  simp only [List.forall_mem_cons, List.not_mem_nil, false_implies, implies_true, and_true]
  refine ⟨?_, ?_, ?_⟩
  all_goals
    refine decodes_of_wordI rfl (by decide) (by omega) (by omega) (by omega) fun w h1 h2 h3 h4 h5 => ?_
    obtain ⟨h6, h7⟩ := (shiftField_eq_iff sh.isLt).mp h5
    simp [legalWord, decodeRalnel, decodeImm, gAt, h1, h2, h3, h4, h6, h7]

theorem lui_decodes (n : Fin 5) (d : Fin 16) (imm : BitVec 18) : DecodesAs n (.lui n d imm) (.lui n d imm) := by
  obtain ⟨h1, h2, h3, h4⟩ := fields_wordLui (op := 0x10) (by decide) d.isLt imm.isLt
  refine ⟨_, rfl, ?_⟩
  simp [legalWord, decodeRalnel, decodeImm, gAt, h1, h2, h3, h4]

theorem accumulate_decodes (n : Fin 5) (acc : Bool) (s t : Fin 16) : ∀ i ∈ [Instr.mac n acc s t, .msu n acc s t], DecodesAs n i i := by
  simp only [List.forall_mem_cons, List.not_mem_nil, false_implies, implies_true, and_true]
  refine ⟨?_, ?_⟩
  all_goals
    refine decodes_of_wordA (fun _ => legalWord_accumulator) (fun _ => decodeRalnel_accumulator) (by decide) rfl (by omega) (by omega) (by omega)
      (by cases acc <;> decide) (by omega) (by cases acc <;> rfl) fun w h1 h2 h3 h4 h5 => ?_
    cases acc <;> simp [bit, decodeMac, gAt, nbit_of_sub, h2, h3, h4, h5]

theorem accr_decodes (n : Fin 5) (d : Fin 16) (acc raw : Bool) (sh : Fin 64) (h : raw = true → sh.val ≤ 32) :
    DecodesAs n (.accr n d acc raw sh) (.accr n d acc raw sh) := by
  have hraw := bit_le_one raw
  have hacc := bit_le_one acc
  have hlegal : legalMac d 0 0 (bit raw * 128 + bit acc * 64 + sh.val) 3 = true := by
    cases acc <;> cases raw <;> simp [bit, legalMac] at h ⊢ <;> omega
  refine decodes_of_wordA (fun _ => legalWord_accumulator) (fun _ => decodeRalnel_accumulator) (by decide) rfl (by omega) (by omega) (by omega)
    (by omega) (by omega) hlegal fun w h1 h2 h3 h4 h5 => ?_
  cases acc <;> cases raw <;> simp [bit, decodeMac, gAt, nbit_of_sub, fget_of_sub, Nat.testBit_eq_decide_div_mod_eq, Fin.ext_iff, h1, h4, h5] <;>
    omega

theorem accw_decodes (n : Fin 5) (acc clear : Bool) (s t : Fin 16) (h : clear = true → s = 0 ∧ t = 0) :
    DecodesAs n (.accw n acc clear s t) (.accw n acc clear s t) := by
  have hlegal : legalMac 0 s t (bit clear * 2 + bit acc) 4 = true := by
    cases acc <;> cases clear <;> simp [bit, legalMac] at h ⊢ <;> simp [h]
  refine decodes_of_wordA (fun _ => legalWord_accumulator) (fun _ => decodeRalnel_accumulator) (by decide) rfl (by omega) (by omega) (by omega)
    (by cases acc <;> cases clear <;> decide) (by omega) hlegal fun w h1 h2 h3 h4 h5 => ?_
  cases acc <;> cases clear <;> simp [bit, decodeMac, gAt, nbit_of_sub, Nat.testBit_eq_decide_div_mod_eq, h2, h3, h4, h5]

theorem sat_decodes (n : Fin 5) (d s : Fin 16) (k : Fin 32) : DecodesAs n (.sat n d s k) (.sat n d s k) := by
  refine decodes_of_wordA (fun _ => legalWord_accumulator) (fun _ => decodeRalnel_accumulator) (by decide) rfl (by omega) (by omega) (by omega)
    (by omega) (by omega) (by simp [legalMac]) fun w h1 h2 h3 h4 h5 => ?_
  simp [decodeMac, gAt, fget_of_sub, Fin.ext_iff, h1, h2, h4, h5]

theorem float_decodes (n : Fin 5) (d s t : Fin 8) (x : Fin 16) : ∀ i ∈ [Instr.fadd n d s t, .fsub n d s t, .fmul n d s t, .fdiv n d s t,
    .fsqrt n d s, .fmac n d s t, .fmin n d s t, .fmax n d s t, .fabs n d s, .fneg n d s, .fcmp n s t, .fcvtsw n d x, .fmvwf n x s,
    .fmvfw n d x, .tinterp n d s x], DecodesAs n i i := by
  simp only [List.forall_mem_cons, List.not_mem_nil, false_implies, implies_true, and_true]
  refine ⟨?_, ?_, ?_, ?_, ?_, ?_, ?_, ?_, ?_, ?_, ?_, ?_, ?_, ?_, ?_⟩
  all_goals
    refine decodes_of_wordA (fun _ => legalWord_float) (fun _ => decodeRalnel_float) (by decide) rfl (by omega) (by omega) (by omega)
      (by omega) (by omega) (by simp [legalFloat]) fun w h1 h2 h3 h4 h5 => ?_
    simp only [decodeFloat, gAt, fAt, h1, h2, h3, h5, Fin.ofNat_val_eq_self]

theorem fcvtws_decodes (n : Fin 5) (d : Fin 16) (s : Fin 8) (trunc : Bool) : DecodesAs n (.fcvtws n d s trunc) (.fcvtws n d s trunc) := by
  refine decodes_of_wordA (fun _ => legalWord_float) (fun _ => decodeRalnel_float) (by decide) rfl (by omega) (by omega) (by omega)
    (by cases trunc <;> decide) (by omega) (by cases trunc <;> simp [legalFloat, bit]) fun w h1 h2 h3 h4 h5 => ?_
  cases trunc <;> simp [bit, decodeFloat, gAt, fAt, nbit_of_sub, h1, h2, h4, h5]

theorem memory_decodes (n : Fin 5) (d : Fin 16) (f : Fin 8) (b : Fin 16) (am : Fin 3) (off : BitVec 13) : ∀ i ∈ [Instr.ldb n d b am off,
    .ldbu n d b am off, .ldh n d b am off, .ldhu n d b am off, .ldw n d b am off, .stb n d b am off, .sth n d b am off, .stw n d b am off,
    .fld n f b am off, .fldd n f b am off, .fst n f b am off], DecodesAs n i i := by
  simp only [List.forall_mem_cons, List.not_mem_nil, false_implies, implies_true, and_true]
  refine ⟨?_, ?_, ?_, ?_, ?_, ?_, ?_, ?_, ?_, ?_, ?_⟩
  all_goals
    refine decodes_of_wordM rfl (by decide) (by omega) (by omega) (by omega) (by decide) (by decide) fun w h1 h2 h3 h4 h5 h6 h7 => ?_
    simp [legalWord, legalMem, decodeRalnel, decodeMem, gAt, fAt, am.isLt.ne, h1, h2, h3, h4, h5, h6, h7]

theorem branch_decodes (n : Fin 5) (c : Fin 15) (s : Fin 16) (t : Fin 4) (off : BitVec 20) : ∀ i ∈ [Instr.bcc n c off, .cbr n s t off],
    DecodesAs n i i := by
  obtain ⟨h1, h2, h3, h4⟩ := fields_wordB (op := 0x20) (c := c) (t := 0) (off := off) (by decide) (by omega) (by decide)
  obtain ⟨g1, g2, g3, g4⟩ := fields_wordB (op := 0x21) (c := s) (off := off) (by decide) s.isLt t.isLt
  simp only [List.forall_mem_cons, List.not_mem_nil, false_implies, implies_true, and_true]
  refine ⟨⟨_, rfl, ?_⟩, ⟨_, rfl, ?_⟩⟩
  · simp [legalWord, decodeRalnel, h1, h2, h3, h4, c.isLt.ne]
  · simp [legalWord, decodeRalnel, gAt, g1, g2, g3, g4]

theorem jump_decodes (n : Fin 5) (off : BitVec 26) : ∀ i ∈ [Instr.j n off, .jal n off], DecodesAs n i i := by
  obtain ⟨h1, h2⟩ := fields_wordJ (op := 0x28) (off := off) (by decide)
  obtain ⟨g1, g2⟩ := fields_wordJ (op := 0x29) (off := off) (by decide)
  simp only [List.forall_mem_cons, List.not_mem_nil, false_implies, implies_true, and_true]
  refine ⟨⟨_, rfl, ?_⟩, ⟨_, rfl, ?_⟩⟩
  · simp [legalWord, decodeRalnel, h1, h2]
  · simp [legalWord, decodeRalnel, g1, g2]

theorem qpop_decodes (n : Fin 5) (wd : Fin 14) (q : BitVec 8) : DecodesAs n (.qpop n wd q) (.qpop n wd q) := by
  refine decodes_of_wordA (fun _ => legalWord_queue) (fun _ => decodeRalnel_queue) (by decide) rfl (by omega) (by omega) (by omega)
    q.isLt (by omega) (by simp [legalQueue]; omega) fun w h1 h2 h3 h4 h5 => ?_
  simp [decodeQueue, h1, h4, h5]

theorem queue_decodes (n : Fin 5) (x y z : Fin 16) (g : Fin 8) (q : BitVec 8) : ∀ i ∈ [Instr.qlen n x q, .qpush n q x y, .wait n z g x y,
    .post n q, .postr n x], DecodesAs n i i := by
  simp only [List.forall_mem_cons, List.not_mem_nil, false_implies, implies_true, and_true]
  refine ⟨?_, ?_, ?_, ?_, ?_⟩
  all_goals
    refine decodes_of_wordA (fun _ => legalWord_queue) (fun _ => decodeRalnel_queue) (by decide) rfl (by omega) (by omega) (by omega)
      (by omega) (by omega) (by simp [legalQueue]) fun w h1 h2 h3 h4 h5 => ?_
    simp [decodeQueue, gAt, h1, h2, h3, h4, h5]

theorem stamp_decodes (n : Fin 5) (wd : Fin 15) (laps : Bool) (ofs : Nat) : DecodesAs n (.stamp n wd laps ofs) (.stamp n wd laps 0) := by
  refine decodes_of_wordA (fun _ => legalWord_queue) (fun _ => decodeRalnel_queue) (by decide) rfl (by omega) (by omega) (by omega)
    (by cases laps <;> decide) (by omega) (by cases laps <;> simp [legalQueue, bit, wd.isLt.ne]) fun w h1 h2 h3 h4 h5 => ?_
  cases laps <;> simp [bit, decodeQueue, nbit_of_sub, h1, h4, h5]

theorem tally_decodes (n : Fin 5) (wd : Fin 16) (k : Fin 4) (vel : Bool) (ofs : Nat) (h : vel = true ∨ wd.val ≠ 15) :
    DecodesAs n (.tally n wd k vel ofs) (.tally n wd k vel 0) := by
  have hvel := bit_le_one vel
  have hlegal : legalQueue wd 0 0 (bit vel * 4 + k.val) 8 = true := by
    cases vel <;> simp [bit, legalQueue] at h ⊢ <;> omega
  refine decodes_of_wordA (fun _ => legalWord_queue) (fun _ => decodeRalnel_queue) (by decide) rfl (by omega) (by omega) (by omega)
    (by omega) (by omega) hlegal fun w h1 h2 h3 h4 h5 => ?_
  cases vel <;> simp [bit, decodeQueue, nbit_of_sub, gAt, fget_of_sub, Nat.testBit_eq_decide_div_mod_eq, Fin.ext_iff, h1, h4, h5] <;> omega

theorem system_decodes (n : Fin 5) (x : Fin 16) (sr : Fin 10) (code : BitVec 8) : ∀ i ∈ [Instr.nop n, .fence n, .syscall n code, .eret n,
    .mtsr n sr x], DecodesAs n i i := by
  simp only [List.forall_mem_cons, List.not_mem_nil, false_implies, implies_true, and_true]
  refine ⟨?_, ?_, ?_, ?_, ?_⟩
  all_goals
    refine decodes_of_wordA (fun _ => legalWord_system) (fun _ => decodeRalnel_system) (by decide) rfl (by omega) (by omega) (by omega)
      (by omega) (by omega) (by simp [legalSystem]) fun w h1 h2 h3 h4 h5 => ?_
    simp [decodeSystem, gAt, h2, h4, h5]

theorem mfsr_decodes (n : Fin 5) (x : Fin 16) (sr : Fin 10) (ofs : Nat) : DecodesAs n (.mfsr n x sr ofs) (.mfsr n x sr 0) := by
  refine decodes_of_wordA (fun _ => legalWord_system) (fun _ => decodeRalnel_system) (by decide) rfl (by omega) (by omega) (by omega)
    (by omega) (by omega) (by simp [legalSystem]) fun w h1 h2 h3 h4 h5 => ?_
  simp [decodeSystem, gAt, h1, h4, h5]

/-- Every well-formed instruction is decoded from its own word, with its instant at 0. -/
theorem core_decodes_own_word (i : Instr) (hwf : wellFormed i = true) : (coreOfInstr i).elim True fun n => DecodesAs n i (atZero i) := by
  cases i with
  | add m d s t | sub m d s t | and m d s t | or m d s t | xor m d s t | shl m d s t | shr m d s t | sar m d s t | mul m d s t
  | mulh m d s t | div m d s t | divu m d s t | min m d s t | max m d s t =>
    exact integer_decodes m d s t _ (by repeat constructor)
  | cmp m s t => exact integer_decodes m 0 s t _ (by repeat constructor)
  | jr m s => exact integer_decodes m 0 s 0 _ (by repeat constructor)
  | jalr m d s => exact integer_decodes m d s 0 _ (by repeat constructor)
  | addi m d s imm | andi m d s imm | ori m d s imm | xori m d s imm => exact immediate_decodes m d s imm _ (by repeat constructor)
  | cmpi m s imm => exact immediate_decodes m 0 s imm _ (by repeat constructor)
  | shli m d s sh | shri m d s sh | sari m d s sh => exact shiftImmediate_decodes m d s sh _ (by repeat constructor)
  | lui m d imm => exact lui_decodes m d imm
  | mac m acc s t | msu m acc s t => exact accumulate_decodes m acc s t _ (by repeat constructor)
  | accr m d acc raw sh =>
    have hraw : (!(raw && decide (32 < sh.val))) = true := hwf
    exact accr_decodes m d acc raw sh fun h => by simpa [h] using hraw
  | accw m acc clear s t =>
    have hclear : (!clear || decide (s.val = 0 ∧ t.val = 0)) = true := hwf
    exact accw_decodes m acc clear s t fun h => by simpa [h, Fin.val_eq_zero_iff] using hclear
  | sat m d s k => exact sat_decodes m d s k
  | fadd m d s t | fsub m d s t | fmul m d s t | fdiv m d s t | fmac m d s t | fmin m d s t | fmax m d s t =>
    exact float_decodes m d s t 0 _ (by repeat constructor)
  | fsqrt m d s | fabs m d s | fneg m d s => exact float_decodes m d s 0 0 _ (by repeat constructor)
  | fcmp m s t => exact float_decodes m 0 s t 0 _ (by repeat constructor)
  | fcvtsw m d x | fmvfw m d x => exact float_decodes m d 0 0 x _ (by repeat constructor)
  | fmvwf m x s => exact float_decodes m 0 s 0 x _ (by repeat constructor)
  | tinterp m d s x => exact float_decodes m d s 0 x _ (by repeat constructor)
  | fcvtws m d s trunc => exact fcvtws_decodes m d s trunc
  | ldb m d b am off | ldbu m d b am off | ldh m d b am off | ldhu m d b am off | ldw m d b am off | stb m d b am off | sth m d b am off
  | stw m d b am off =>
    exact memory_decodes m d 0 b am off _ (by repeat constructor)
  | fld m f b am off | fldd m f b am off | fst m f b am off => exact memory_decodes m 0 f b am off _ (by repeat constructor)
  | bcc m c off => exact branch_decodes m c 0 0 off _ (by repeat constructor)
  | cbr m s t off => exact branch_decodes m 0 s t off _ (by repeat constructor)
  | j m off | jal m off => exact jump_decodes m off _ (by repeat constructor)
  | qpop m wd q => exact qpop_decodes m wd q
  | qlen m x q => exact queue_decodes m x 0 0 0 q _ (by repeat constructor)
  | qpush m q x y => exact queue_decodes m x y 0 0 q _ (by repeat constructor)
  | wait m z g x y => exact queue_decodes m x y z g 0 _ (by repeat constructor)
  | post m q => exact queue_decodes m 0 0 0 0 q _ (by repeat constructor)
  | postr m x => exact queue_decodes m x 0 0 0 0 _ (by repeat constructor)
  | stamp m wd laps ofs => exact stamp_decodes m wd laps ofs
  | tally m wd k vel ofs =>
    have hwd : (inLap ofs && (vel || decide (wd.val ≠ 15))) = true := hwf
    exact tally_decodes m wd k vel ofs (by simpa using (Bool.and_eq_true_iff.mp hwd).2)
  | nop m | fence m | eret m => exact system_decodes m 0 0 0 _ (by repeat constructor)
  | syscall m code => exact system_decodes m 0 0 code _ (by repeat constructor)
  | mtsr m sr x => exact system_decodes m x sr 0 _ (by repeat constructor)
  | mfsr m x sr ofs => exact mfsr_decodes m x sr ofs
  | _ => exact True.intro

theorem decodes_own_word {i : Instr} {n : Fin 5} (hwf : wellFormed i = true) (hn : coreOfInstr i = some n) : DecodesAs n i (atZero i) := by
  have h := core_decodes_own_word i hwf
  rwa [hn] at h

theorem decodeRalnel_of_illegal {w : Word} (n : Fin 5) (h : legalWord w = false) : decodeRalnel n w = none := by
  rw [decodeRalnel, h]
  rfl

/-- Settles O46: an instruction is decoded from its own word by `decodes_own_word`, and a legal word spells one by `decodeRalnel_spells`. -/
theorem decodeOfEncode : Obligations.DecodeOfEncode := by
  refine ⟨fun i n hwf hn => ?_, fun n w => decodeRalnel_of_illegal n, fun n w => decodeRalnel_spells, ?_⟩
  · obtain ⟨w, hword, hlegal, hdecode⟩ := decodes_own_word hwf hn
    unfold atZero at hdecode
    exact ⟨w, hword, hlegal, hdecode⟩
  · decide

end Sys2Proof.Machine

namespace Sys2Proof.Machine
open Sys2Proof

/-! ### The shapes of the register instructions (R256 to R265) -/

section
variable {n : Nat} {s : State}

theorem onlyCore_setFlags (n v : Nat) (s : State) : OnlyCore n s (setFlags n v s) := .setCore ..

theorem onlyCore_setV (n : Nat) (v : Bool) (s : State) : OnlyCore n s (setV n v s) := .setCore ..

theorem onlyCore_setReg (n r : Nat) (v : Word) (s : State) : OnlyCore n s (setReg n r v s) := .setCore ..

theorem onlyCore_setFreg (n r : Nat) (v : Word) (s : State) : OnlyCore n s (setFreg n r v s) := .setCore ..

theorem onlyCore_setAcc (n : Nat) (one : Bool) (v : Int) (s : State) : OnlyCore n s (setAcc n one v s) := .setCore ..

/-- An effect on the record of its own core alone, by an instruction that issues: it completes with that effect. -/
theorem plainOp_next (hs : Settled s) (hi : Issues n s) {f : State → State} (hf : OnlyCore n s (f s)) :
    plainOp n f s = .next (advance n (f s)) :=
  (plainOp_runs hi f).trans (done_settled_next ((hf.trans (onlyCore_advance ..)).settled hs))

variable (hs : Settled s) (hi : Issues n s)
include hs hi

theorem intOp_next (rd : Nat) (r : State → Word) : intOp n rd r s = .next (withValue n rd (r s) s) :=
  plainOp_next hs hi (onlyCore_setReg ..)

theorem aluOp_next (rd : Nat) (f : State → Alu) : aluOp n rd f s =
    .next (withResult n rd (f s).r ((f s).c.getD (flagC (coreOf s n).flags)) ((f s).v.getD (flagV (coreOf s n).flags)) s) :=
  plainOp_next hs hi ((onlyCore_setReg ..).trans (onlyCore_setFlags ..))

theorem cmpOp_next (f : State → Alu) : cmpOp n f s =
    .next (withFlags n (f s).r ((f s).c.getD (flagC (coreOf s n).flags)) ((f s).v.getD (flagV (coreOf s n).flags)) s) :=
  plainOp_next hs hi (onlyCore_setFlags ..)

theorem intVOp_next (rd : Nat) (f : State → Word × Bool) : intVOp n rd f s = .next (withV n rd (f s).1 (f s).2 s) :=
  plainOp_next hs hi ((onlyCore_setReg ..).trans (onlyCore_setV ..))

theorem floatOp_next (fd : Nat) (f : State → FVal) : floatOp n fd f s = .next (withFloat n fd (f s) s) :=
  plainOp_next hs hi (onlyCore_setFreg ..)

theorem accumulate_next (one : Bool) (f : State → Int) : accumulate n one f s =
    .next (advance n (setV n (heldTo 64 (f s)).2 (setAcc n one (heldTo 64 (f s)).1 s))) :=
  plainOp_next hs hi ((onlyCore_setAcc ..).trans (onlyCore_setV ..))

theorem jumpOp_next {f : State → State} (target : State → Nat) (hf : OnlyCore n s (f s)) :
    jumpOp n f target s = .next (setPc n (target s) (f s)) :=
  (issue_runs hi _).trans (done_settled_next ((hf.trans (.setCore ..)).settled hs))

end

/-! ### Integer results (R260) -/

/-- The flag C after a shift: the last bit out, unchanged where the amount is 0. -/
theorem shiftCarry (k : Nat) (out c : Bool) : (if k = 0 then none else some out).getD c = if k = 0 then c else out := by
  split <;> rfl

theorem ofInt_mul_toInt (a b : Word) : BitVec.ofInt 32 (a.toInt * b.toInt) = a * b := by
  rw [BitVec.ofInt_mul, BitVec.ofInt_toInt, BitVec.ofInt_toInt]

theorem ofInt_min_toInt (a b : Word) : BitVec.ofInt 32 (min a.toInt b.toInt) = if a.toInt ≤ b.toInt then a else b := by
  rw [min_def]
  split <;> exact BitVec.ofInt_toInt

theorem ofInt_max_toInt (a b : Word) : BitVec.ofInt 32 (max a.toInt b.toInt) = if a.toInt ≤ b.toInt then b else a := by
  rw [max_def]
  split <;> exact BitVec.ofInt_toInt

theorem divSigned_eq (a b : Word) : divSigned a b = (if b = 0 then 0 else BitVec.ofInt 32 (a.toInt.tdiv b.toInt),
    decide (b = 0 ∨ (a.toInt = -2 ^ 31 ∧ b.toInt = -1))) := by
  have hmin : a = 0x80000000#32 ↔ a.toInt = -2 ^ 31 := BitVec.toInt_inj.symm
  have hone : b = 0xFFFFFFFF#32 ↔ b.toInt = -1 := BitVec.toInt_inj.symm
  unfold divSigned
  by_cases hb : b = 0
  · simp [hb]
  · by_cases h : a = 0x80000000#32 ∧ b = 0xFFFFFFFF#32
    · obtain ⟨rfl, rfl⟩ := h
      decide
    · rw [if_neg hb, if_neg hb, if_neg h, decide_eq_false (not_or.mpr ⟨hb, hmin.and hone |>.not.mp h⟩)]

theorem divUnsigned_eq (a b : Word) : divUnsigned a b = (if b = 0 then 0 else a / b, decide (b = 0)) := by
  unfold divUnsigned
  by_cases hb : b = 0
  · simp [hb]
  · have hdiv : w32 (a.toNat / b.toNat) = a / b := (eq_w32_of_toNat BitVec.toNat_udiv).symm
    rw [if_neg hb, if_neg hb, decide_eq_false hb, hdiv]

/-- Settles O32: each instruction is one of the shapes above, with the result and the flags of R260. -/
theorem integerRegisterResults : Obligations.IntegerRegisterResults := by
  intro s n rd rs rt a b k c v hs hi ha hb hk hc hv
  subst ha hb hk hc hv
  have hdiv := divSigned_eq (reg s n rs) (reg s n rt)
  have hdivu := divUnsigned_eq (reg s n rs) (reg s n rt)
  refine ⟨aluOp_next hs hi rd fun s => aluAdd (reg s n rs) (reg s n rt), aluOp_next hs hi rd fun s => aluSub (reg s n rs) (reg s n rt),
    aluOp_next hs hi rd fun s => { r := reg s n rs &&& reg s n rt }, aluOp_next hs hi rd fun s => { r := reg s n rs ||| reg s n rt },
    aluOp_next hs hi rd fun s => { r := reg s n rs ^^^ reg s n rt }, ?_, ?_, ?_, ?_,
    intOp_next hs hi rd fun s => BitVec.ofInt 32 ((reg s n rs).toInt * (reg s n rt).toInt / 2 ^ 32), ?_, ?_, ?_, ?_,
    cmpOp_next hs hi fun s => aluSub (reg s n rs) (reg s n rt)⟩
  · rw [← shiftCarry]
    exact aluOp_next hs hi rd fun s => aluShl (reg s n rs) (shiftBy s n rt)
  · rw [← shiftCarry]
    exact aluOp_next hs hi rd fun s => aluShr (reg s n rs) (shiftBy s n rt)
  · rw [← shiftCarry]
    exact aluOp_next hs hi rd fun s => aluSar (reg s n rs) (shiftBy s n rt)
  · rw [ofInt_mul_toInt]
    exact intOp_next hs hi rd fun s => reg s n rs * reg s n rt
  · exact (intVOp_next hs hi rd fun s => divSigned (reg s n rs) (reg s n rt)).trans (by rw [hdiv])
  · exact (intVOp_next hs hi rd fun s => divUnsigned (reg s n rs) (reg s n rt)).trans (by rw [hdivu])
  · rw [ofInt_min_toInt]
    exact intOp_next hs hi rd fun s => if (reg s n rs).toInt ≤ (reg s n rt).toInt then reg s n rs else reg s n rt
  · rw [ofInt_max_toInt]
    exact intOp_next hs hi rd fun s => if (reg s n rs).toInt ≤ (reg s n rt).toInt then reg s n rt else reg s n rs

end Sys2Proof.Machine

namespace Sys2Proof.Machine
open Sys2Proof

/-! ### Immediate results (R261) -/

@[simp] theorem reg_setFlags (n v k : Nat) (s : State) : reg (setFlags n v s) n k = reg s n k := by rw [reg, coreOf_setFlags, reg]

@[simp] theorem freg_setFlags (n v k : Nat) (s : State) : freg (setFlags n v s) n k = freg s n k := by rw [freg, coreOf_setFlags, freg]

theorem onlyCore_withValue (n rd : Nat) (r : Word) (s : State) : OnlyCore n s (withValue n rd r s) := onlyCore_advance_setReg ..

theorem reg_withValue_same (n rd : Nat) (r : Word) (s : State) : reg (withValue n rd r s) n rd = r := by
  rw [withValue, reg_advance, reg_setReg, if_pos rfl]

theorem reg_withResult_same (n rd : Nat) (r : Word) (c v : Bool) (s : State) : reg (withResult n rd r c v s) n rd = r := by
  rw [withResult, withFlags, reg_advance, reg_setFlags, reg_setReg, if_pos rfl]

/-- What LUI puts in its register. -/
theorem lui_value (imm : BitVec 18) : imm.setWidth 32 <<< 14 = BitVec.ofNat 32 (imm.toNat * 2 ^ 14) := by
  apply BitVec.eq_of_toNat_eq
  simp [Nat.shiftLeft_eq]

/-- The upper 18 bits of a constant with its lower 14 beside them. -/
theorem highBits_or_lowBits (a : Word) : ((a >>> 14).setWidth 18).setWidth 32 <<< 14 ||| (a.setWidth 14).setWidth 32 = a := by
  apply BitVec.eq_of_getLsbD_eq
  intro i hi
  simp only [BitVec.getLsbD_or, BitVec.getLsbD_shiftLeft, BitVec.getLsbD_setWidth, BitVec.getLsbD_ushiftRight]
  by_cases h : i < 14
  · simp [h, hi]
  · have hsub : 14 + (i - 14) = i := by omega
    have hlow : i - 14 < 18 := by omega
    have hword : i - 14 < 32 := by omega
    simp [h, hi, hsub, hlow, hword]

theorem lui_next {s : State} {n : Fin 5} (hs : Settled s) (hi : Issues n s) (rd : Fin 16) (imm : BitVec 18) :
    exec (.lui n rd imm) s = .next (withValue n rd (imm.setWidth 32 <<< 14) s) := intOp_next hs hi rd fun _ => imm.setWidth 32 <<< 14

theorem ori_next {s : State} {n : Fin 5} (hs : Settled s) (hi : Issues n s) (rd rs : Fin 16) (imm : BitVec 14) :
    exec (.ori n rd rs imm) s = .next (withResult n rd (reg s n rs ||| imm.setWidth 32) (nbit (coreOf s n).flags 1)
      (nbit (coreOf s n).flags 0) s) := aluOp_next hs hi rd fun s => { r := reg s n rs ||| imm.setWidth 32 }

/-- LUI and then ORI build a constant. -/
theorem lui_ori_builds {s t : State} {n : Fin 5} {rd : Fin 16} (hs : Settled s) (hi : Issues n s) (a : Word)
    (hlui : exec (.lui n rd ((a >>> 14).setWidth 18)) s = .next t) (hit : Issues n t) :
    ∃ u, exec (.ori n rd rd (a.setWidth 14)) t = .next u ∧ reg u n rd = a := by
  obtain rfl : withValue n rd (((a >>> 14).setWidth 18).setWidth 32 <<< 14) s = t :=
    Host.Outcome.next.inj ((lui_next hs hi rd _).symm.trans hlui)
  refine ⟨_, ori_next ((onlyCore_withValue ..).settled hs) hit rd rd _, ?_⟩
  rw [reg_withResult_same, reg_withValue_same, highBits_or_lowBits]

/-- Settles O33: each instruction is one of the shapes above, and LUI with ORI builds a constant by `lui_ori_builds`. -/
theorem immediateResults : Obligations.ImmediateResults := by
  intro s n rd rs imm sh imm18 a x c v hs hi ha hx hc hv
  subst ha hx hc hv
  have hsh : sh = 0 ↔ sh.toNat = 0 := BitVec.toNat_inj.symm
  simp only [BitVec.ofNat_toNat, hsh, ← shiftCarry, ← lui_value]
  exact ⟨aluOp_next hs hi rd fun s => aluAdd (reg s n rs) (imm.signExtend 32),
    aluOp_next hs hi rd fun s => { r := reg s n rs &&& imm.setWidth 32 }, ori_next hs hi rd rs imm,
    aluOp_next hs hi rd fun s => { r := reg s n rs ^^^ imm.setWidth 32 }, aluOp_next hs hi rd fun s => aluShl (reg s n rs) sh.toNat,
    aluOp_next hs hi rd fun s => aluShr (reg s n rs) sh.toNat, aluOp_next hs hi rd fun s => aluSar (reg s n rs) sh.toNat,
    cmpOp_next hs hi fun s => aluSub (reg s n rs) (imm.signExtend 32), lui_next hs hi rd imm18,
    fun t hlui hit => lui_ori_builds hs hi _ hlui hit⟩

end Sys2Proof.Machine

namespace Sys2Proof.Machine
open Sys2Proof

/-! ### Accumulators (R262, R263) -/

theorem heldTo_succ (w : Nat) (i : Int) :
    heldTo (w + 1) i = (max (-2 ^ w) (min (2 ^ w - 1) i), decide (i < -2 ^ w ∨ 2 ^ w ≤ i)) := by
  have hpos : (0 : Int) < 2 ^ w := by positivity
  rw [heldTo, satSigned, Nat.add_sub_cancel]
  generalize (2 : Int) ^ w = m at hpos
  refine Prod.ext ?_ ?_
  · dsimp only
    split
    · omega
    · split <;> omega
  · refine decide_eq_decide.mpr ?_
    split
    · omega
    · split <;> omega

/-- A pair of words as a 64-bit number: the sign is that of the upper one. -/
theorem signed_pair (a b : Word) : signed 64 (a.toNat * 2 ^ 32 + b.toNat) = a.toInt * 2 ^ 32 + b.toNat := by
  have ha := a.isLt
  have hb := b.isLt
  rw [signed, BitVec.toInt_eq_toNat_cond]
  split <;> split <;> omega

/-- The raw bits of an accumulator from bit `sh` up. -/
theorem accRaw_eq (a : Int) (sh : Nat) : accRaw a sh = BitVec.ofInt 32 (a % 2 ^ 64 / 2 ^ sh) := by
  have hnonneg : (0 : Int) ≤ a % 2 ^ 64 := Int.emod_nonneg _ (by decide)
  obtain ⟨m, hm⟩ := Int.eq_ofNat_of_zero_le hnonneg
  have hdiv : a % 2 ^ 64 / 2 ^ sh = ((m / 2 ^ sh : Nat) : Int) := by rw [hm]; push_cast; rfl
  rw [accRaw, unsignedOf, hdiv, hm, BitVec.ofInt_natCast]
  rfl

/-- The raw form of ACCR with a shift above 32 is no instruction. -/
theorem accr_raw_illegal (rd : Fin 16) (one : Bool) {sh : Fin 64} (h : 32 < sh.val) :
    legalWord (wordA 1 rd 0 0 (bit true * 128 + bit one * 64 + sh) 0x03) = false := by
  cases one <;> simp (disch := omega) [bit, legalWord, fields_wordA, legalMac] <;> omega

theorem accr_next {s : State} {n : Fin 5} (hs : Settled s) (hi : Issues n s) (rd : Fin 16) (one : Bool) (sh : Fin 64) :
    exec (.accr n rd one false sh) s = .next (withV n rd (BitVec.ofInt 32 (accRead (accOf s n one) sh).1) (accRead (accOf s n one) sh).2 s) :=
  intVOp_next hs hi rd fun s => (BitVec.ofInt 32 (accRead (accOf s n one) sh).1, (accRead (accOf s n one) sh).2)

theorem accr_raw {s : State} {n : Fin 5} (hi : Issues n s) (rd : Fin 16) (one : Bool) (sh : Fin 64) :
    exec (.accr n rd one true sh) s = if 32 < sh.val then done (trap n 1 (wordA 1 rd 0 0 (128 + bit one * 64 + sh) 3) s)
      else done (withValue n rd (accRaw (accOf s n one) sh) s) := by
  change execAccr n rd one true sh s = _
  unfold execAccr
  rw [if_pos rfl, issue_runs hi]
  rfl

theorem mac_next {s : State} {n : Fin 5} (hs : Settled s) (hi : Issues n s) (one : Bool) (rs rt : Fin 16) (sum : Int)
    (h : sum = accOf s n one + (reg s n rs).toInt * (reg s n rt).toInt) :
    exec (.mac n one rs rt) s = .next (advance n (setV n (heldTo 64 sum).2 (setAcc n one (heldTo 64 sum).1 s))) :=
  h ▸ accumulate_next hs hi one fun s => accOf s n one + (reg s n rs).toInt * (reg s n rt).toInt

theorem msu_next {s : State} {n : Fin 5} (hs : Settled s) (hi : Issues n s) (one : Bool) (rs rt : Fin 16) (sum : Int)
    (h : sum = accOf s n one - (reg s n rs).toInt * (reg s n rt).toInt) :
    exec (.msu n one rs rt) s = .next (advance n (setV n (heldTo 64 sum).2 (setAcc n one (heldTo 64 sum).1 s))) :=
  h ▸ accumulate_next hs hi one fun s => accOf s n one - (reg s n rs).toInt * (reg s n rt).toInt

theorem accw_next {s : State} {n : Fin 5} (hs : Settled s) (hi : Issues n s) (one clear : Bool) (rs rt : Fin 16) :
    exec (.accw n one clear rs rt) s = .next (advance n (setAcc n one (if clear then 0 else
      signed 64 ((reg s n rs).toNat * 2 ^ 32 + (reg s n rt).toNat)) s)) :=
  plainOp_next hs hi (f := fun s => setAcc n one (if clear then 0 else signed 64 ((reg s n rs).toNat * 2 ^ 32 + (reg s n rt).toNat)) s)
    (onlyCore_setAcc ..)

theorem sat_next {s : State} {n : Fin 5} (hs : Settled s) (hi : Issues n s) (rd rs : Fin 16) (m : Fin 32) :
    exec (.sat n rd rs m) s = .next (withV n rd (BitVec.ofInt 32 (heldTo (m + 1) (reg s n rs).toInt).1) (heldTo (m + 1) (reg s n rs).toInt).2 s) :=
  intVOp_next hs hi rd fun s => (BitVec.ofInt 32 (heldTo (m + 1) (reg s n rs).toInt).1, (heldTo (m + 1) (reg s n rs).toInt).2)

/-- Settles O34: each form by its own lemma, with saturation as in `heldTo_succ`. -/
theorem multiplyAccumulateResults : Obligations.MultiplyAccumulateResults := by
  intro s n rd rs rt one sh m acc a b hs hi hacc ha hb
  subst hacc ha hb
  refine ⟨fun sum hsum => ?_, fun sum hsum => ?_, fun x hx => ?_, fun hsh => ?_, fun hsh => ?_, ?_, ?_, fun lim hlim => ?_⟩
  · rw [mac_next hs hi one rs rt sum hsum, heldTo_succ 63]
  · rw [msu_next hs hi one rs rt sum hsum, heldTo_succ 63]
  · rw [accr_next hs hi, accRead, ← hx, heldTo_succ 31]
  · rw [accr_raw hi, if_neg (Nat.not_lt.mpr hsh), ← accRaw_eq]
    exact done_settled_next ((onlyCore_withValue ..).settled hs)
  · exact ⟨_, rfl, accr_raw_illegal rd one hsh, (accr_raw hi ..).trans (if_pos hsh)⟩
  · rw [accw_next hs hi, if_neg Bool.false_ne_true, signed_pair]
  · rw [accw_next hs hi, if_pos rfl]
  · rw [sat_next hs hi, heldTo_succ, hlim]

end Sys2Proof.Machine

namespace Sys2Proof.Machine
open Sys2Proof

/-! ### Float results (R264, R265) -/

theorem inUnits_whole (neg : Bool) (m : Nat) {e : Int} (he : 0 ≤ e) : inUnits neg m e (min e 0) = (if neg then -1 else 1) * (shl m e : Int) := by
  rw [min_eq_right he, inUnits, sub_zero, shl, mul_assoc]
  push_cast
  rfl

theorem inUnits_part (neg : Bool) (m : Nat) {e : Int} (he : ¬ 0 ≤ e) : inUnits neg m e (min e 0) = (if neg then -1 else 1) * (m : Int) := by
  rw [min_eq_left (by omega), inUnits, sub_self, Int.toNat_zero, pow_zero, mul_one]

theorem units_of_whole {e : Int} (he : 0 ≤ e) : (2 : Int) ^ (-(min e 0)).toNat = 1 := by
  rw [min_eq_right he, neg_zero, Int.toNat_zero, pow_zero]

theorem divHalfEven_one (i : Int) : divHalfEven i 1 = i := by simp [divHalfEven]

/-- Rounding toward zero, by the signed number of units of the last place. -/
theorem ftrunc_fin (neg : Bool) (m : Nat) (e : Int) :
    ftrunc (.fin neg m e) = some ((inUnits neg m e (min e 0)).tdiv (2 ^ (-(min e 0)).toNat)) := by
  rw [ftrunc]
  by_cases he : 0 ≤ e
  · rw [inUnits_whole neg m he, units_of_whole he, Int.tdiv_one, if_pos he]
    cases neg <;> simp
  · rw [inUnits_part neg m he, min_eq_left (by omega), if_neg he]
    cases neg
    · simp
    · simp [Int.neg_tdiv]

/-- Rounding to nearest even, by the magnitude. -/
theorem ftoInt_fin (neg : Bool) (m : Nat) (e : Int) : ftoInt (.fin neg m e) =
    some ((if neg then -1 else 1) * divHalfEven (inUnits false m e (min e 0)) (2 ^ (-(min e 0)).toNat)) := by
  rw [ftoInt]
  by_cases he : 0 ≤ e
  · rw [inUnits_whole false m he, units_of_whole he, divHalfEven_one, if_pos he]
    cases neg <;> simp
  · rw [inUnits_part false m he, min_eq_left (by omega), if_neg he]
    cases neg <;> simp

theorem fToWord_fin (trunc neg : Bool) (m : Nat) (e i : Int) (hi : i = if trunc then (inUnits neg m e (min e 0)).tdiv (2 ^ (-(min e 0)).toNat)
      else (if neg then -1 else 1) * divHalfEven (inUnits false m e (min e 0)) (2 ^ (-(min e 0)).toNat)) :
    fToWord trunc (.fin neg m e) = (BitVec.ofInt 32 (max (-2 ^ 31) (min (2 ^ 31 - 1) i)), decide (i < -2 ^ 31 ∨ 2 ^ 31 ≤ i)) := by
  have h : (if trunc then ftrunc (.fin neg m e) else ftoInt (.fin neg m e)) = some i := by
    rw [ftrunc_fin, ftoInt_fin, hi]
    split <;> rfl
  rw [fToWord, h]
  dsimp only
  rw [heldTo_succ 31]

theorem fcvtws_next {s : State} {n : Fin 5} (hs : Settled s) (hi : Issues n s) (wd : Fin 16) (fs : Fin 8) (trunc : Bool) :
    exec (.fcvtws n wd fs trunc) s = .next (withV n wd (fToWord trunc (fin32 (freg s n fs))).1 (fToWord trunc (fin32 (freg s n fs))).2 s) :=
  intVOp_next hs hi wd fun s => fToWord trunc (fop s n fs)

/-- Settles O35: each instruction is one of the shapes above, and FCVTWS rounds as in `fToWord_fin`. -/
theorem floatResults : Obligations.FloatResults := by
  intro s n fd fs ft wd ws trunc a b hs hi ha hb
  subst ha hb
  refine ⟨floatOp_next hs hi fd fun s => fadd fmt32 (fop s n fs) (fop s n ft), floatOp_next hs hi fd fun s => fsub fmt32 (fop s n fs) (fop s n ft),
    floatOp_next hs hi fd fun s => fmul fmt32 (fop s n fs) (fop s n ft), floatOp_next hs hi fd fun s => fdiv fmt32 (fop s n fs) (fop s n ft),
    floatOp_next hs hi fd fun s => fsqrt fmt32 (fop s n fs), floatOp_next hs hi fd fun s => ffma fmt32 (fop s n fs) (fop s n ft) (fop s n fd),
    floatOp_next hs hi fd fun s => fmin32 (fop s n fs) (fop s n ft), floatOp_next hs hi fd fun s => fmax32 (fop s n fs) (fop s n ft),
    floatOp_next hs hi fd fun s => fabs (fop s n fs), floatOp_next hs hi fd fun s => fneg (fop s n fs),
    floatOp_next hs hi fd fun s => fofInt (reg s n ws).toInt, fun neg m e i ha hv => ?_, fun ha => ?_, fun neg ha => ?_,
    intOp_next hs hi wd fun s => freg s n fs, plainOp_next hs hi (f := fun s => setFreg n fd (reg s n ws) s) (onlyCore_setFreg ..)⟩
  · rw [fcvtws_next hs hi, ha, fToWord_fin trunc neg m e i hv]
  · rw [fcvtws_next hs hi, ha, fToWord]
  · rw [fcvtws_next hs hi, ha, fToWord]

end Sys2Proof.Machine

namespace Sys2Proof.Machine
open Sys2Proof

/-! ### Normal results (R264) -/

theorem log2_mul_two_pow {m : Nat} (hm : m ≠ 0) (k : Nat) : Nat.log2 (m * 2 ^ k) = Nat.log2 m + k := by
  have hpos : 0 < 2 ^ k := Nat.two_pow_pos k
  rw [Nat.log2_eq_iff (by positivity), add_right_comm, pow_add, pow_add]
  exact ⟨Nat.mul_le_mul_right _ (Nat.log2_self_le hm), Nat.mul_lt_mul_of_pos_right Nat.lt_log2_self hpos⟩

/-- The upper 24 bits of a number that has so many. -/
theorem upper24 {m l : Nat} (hm : m ≠ 0) (hl : Nat.log2 m = l) (h : 23 ≤ l) : 2 ^ 23 ≤ m / 2 ^ (l - 23) ∧ m / 2 ^ (l - 23) < 2 ^ 24 := by
  obtain ⟨hlow, hhigh⟩ := (Nat.log2_eq_iff hm).mp hl
  rw [Nat.le_div_iff_mul_le (Nat.two_pow_pos _), Nat.div_lt_iff_lt_mul (Nat.two_pow_pos _), ← pow_add, ← pow_add,
    show 23 + (l - 23) = l by omega, show 24 + (l - 23) = l + 1 by omega]
  exact ⟨hlow, hhigh⟩

/-- A number of at most 24 bits with zeros below it. -/
theorem filled24 {m l : Nat} (hm : m ≠ 0) (hl : Nat.log2 m = l) (h : l ≤ 23) : 2 ^ 23 ≤ m * 2 ^ (23 - l) ∧ m * 2 ^ (23 - l) < 2 ^ 24 := by
  have hpos : 0 < 2 ^ (23 - l) := Nat.two_pow_pos _
  refine (Nat.log2_eq_iff (by positivity)).mp ?_
  rw [log2_mul_two_pow hm, hl]
  omega

/-- A binary32 value that is no subnormal: at least 2 ^ −126 where it is a number other than 0. -/
def NoSubnormal : FVal → Prop
  | .fin _ m e => m ≠ 0 → -126 ≤ (Nat.log2 m : Int) + e
  | _ => True

theorem flushSub_noSubnormal (v : FVal) : NoSubnormal (flushSub fmt32 v) := by
  match v with
  | .nan => trivial
  | .inf _ => trivial
  | .fin neg m e =>
    have hbias : 1 - fmt32.bias = -126 := by decide
    rw [flushSub, hbias]
    split
    · exact fun h => absurd rfl h
    · intro hm
      omega

/-- The exponent of the last place to which `m * 2 ^ e` is rounded. -/
def lastPlace (m : Nat) (e : Int) : Int := max (-149) (e + (Nat.log2 m + 1) - 24)

/-- `m * 2 ^ e` as a whole number of last places `2 ^ q`, rounded to nearest even. -/
def inLastPlaces (m : Nat) (e q : Int) (sticky : Bool) : Nat :=
  if q ≤ e then shl m (e - q)
  else m / 2 ^ (q - e).toNat + bit (decide (2 * (m % 2 ^ (q - e).toNat) > 2 ^ (q - e).toNat) ||
    (decide (2 * (m % 2 ^ (q - e).toNat) = 2 ^ (q - e).toNat) && (sticky || decide (m / 2 ^ (q - e).toNat % 2 = 1))))

/-- A whole number of last places as a value: an infinity past the format's range. -/
def boundedFin (neg : Bool) (m : Nat) (q : Int) : FVal :=
  if m = 0 then .fin neg 0 0 else if (Nat.log2 m : Int) + q > 127 then .inf neg else .fin neg m q

theorem ite_succ (up : Bool) (a : Nat) : (if up then a + 1 else a) = a + bit up := by cases up <;> rfl

theorem roundTo_eq (neg : Bool) {m : Nat} (hm : m ≠ 0) (e : Int) (sticky : Bool) :
    roundTo fmt32 neg m e sticky = boundedFin neg (inLastPlaces m e (lastPlace m e) sticky) (lastPlace m e) := by
  have hq : (if e + ((Nat.log2 m : Int) + 1) - fmt32.p < fmt32.qmin then fmt32.qmin else e + ((Nat.log2 m : Int) + 1) - fmt32.p) = lastPlace m e := by
    have hqmin : fmt32.qmin = -149 := by decide
    have hp : (fmt32.p : Int) = 24 := rfl
    rw [hqmin, hp, lastPlace]
    split <;> omega
  rw [roundTo, if_neg hm]
  dsimp only
  rw [hq]
  generalize lastPlace m e = q
  by_cases hqe : q ≤ e
  · rw [inLastPlaces, if_pos hqe, if_pos hqe]
    rfl
  · rw [inLastPlaces, if_neg hqe, if_neg hqe]
    rw [ite_succ]
    rfl

/-- Rounding to the last place does not bring a number that is no subnormal below the normal range. -/
theorem log2_inLastPlaces {m : Nat} (hm : m ≠ 0) {e : Int} (h : -126 ≤ (Nat.log2 m : Int) + e) (sticky : Bool) :
    -126 ≤ (Nat.log2 (inLastPlaces m e (lastPlace m e) sticky) : Int) + lastPlace m e := by
  have hq : lastPlace m e = e + (Nat.log2 m + 1) - 24 := max_eq_right (by omega)
  rw [hq, inLastPlaces]
  split
  · rw [shl, log2_mul_two_pow hm]
    omega
  · obtain ⟨hlow, -⟩ := upper24 hm rfl (show 23 ≤ Nat.log2 m by omega)
    have hk : (e + ((Nat.log2 m : Int) + 1) - 24 - e).toNat = Nat.log2 m - 23 := by omega
    rw [hk]
    generalize bit _ = up
    have hlog : 23 ≤ Nat.log2 (m / 2 ^ (Nat.log2 m - 23) + up) := (Nat.le_log2 (by omega)).mpr (by omega)
    omega

/-- The fields of a binary32 number. -/
def float32Bits (neg : Bool) (ex frac : Nat) : Nat := (if neg then 2 ^ 31 else 0) + ex * 2 ^ 23 + frac

theorem fencode_zero (neg : Bool) (e : Int) : fencode fmt32 (.fin neg 0 e) = float32Bits neg 0 0 := by
  cases neg <;> rfl

theorem fencode_inf (neg : Bool) : fencode fmt32 (.inf neg) = float32Bits neg 255 0 := by
  cases neg <;> rfl

/-- A normal number has an exponent field of 1 to 254. -/
theorem fencode_normal (neg : Bool) {m : Nat} (hm : m ≠ 0) {e : Int} (hlow : -126 ≤ (Nat.log2 m : Int) + e) (hhigh : (Nat.log2 m : Int) + e ≤ 127) :
    ∃ ex frac, 1 ≤ ex ∧ ex ≤ 254 ∧ frac < 2 ^ 23 ∧ fencode fmt32 (.fin neg m e) = float32Bits neg ex frac := by
  have hqmin : fmt32.qmin = -149 := by decide
  have hwant : (fmt32.p : Int) - 1 = 23 := rfl
  rw [fencode, if_neg hm]
  dsimp only
  rw [hqmin, hwant, if_neg (by omega)]
  refine ⟨_, _, ?_, ?_, ?_, rfl⟩
  · omega
  · omega
  · change _ - 2 ^ 23 < 2 ^ 23
    split
    next h =>
      have hfill := filled24 hm rfl (show Nat.log2 m ≤ 23 by omega)
      have hk : (23 - (Nat.log2 m : Int)).toNat = 23 - Nat.log2 m := by omega
      rw [shl, hk]
      omega
    next h =>
      have hupper := upper24 hm rfl (show 23 ≤ Nat.log2 m by omega)
      have hk : ((Nat.log2 m : Int) - 23).toNat = Nat.log2 m - 23 := by omega
      rw [hk]
      omega

/-- What a value that is no subnormal is written as: an infinity, a zero or a normal number; a NaN as the quiet NaN. -/
theorem w32f_noSubnormal {v : FVal} (h : NoSubnormal v) : ∃ neg ex frac, ex ≤ 255 ∧ frac < 2 ^ 23 ∧ (ex = 0 → frac = 0) ∧
    fencode fmt32 (fround fmt32 v) = float32Bits neg ex frac := by
  match v with
  | .nan => exact ⟨false, 255, 2 ^ 22, by decide, by decide, by decide, rfl⟩
  | .inf neg => exact ⟨neg, 255, 0, by decide, by decide, by decide, fencode_inf neg⟩
  | .fin neg m e =>
    by_cases hm : m = 0
    · subst hm
      exact ⟨neg, 0, 0, by decide, by decide, fun _ => rfl, fencode_zero neg 0⟩
    · have hlow := log2_inLastPlaces hm (h hm) false
      rw [fround, roundTo_eq neg hm, boundedFin]
      split
      · exact ⟨neg, 0, 0, by decide, by decide, fun _ => rfl, fencode_zero neg 0⟩
      next hr =>
        split
        · exact ⟨neg, 255, 0, by decide, by decide, by decide, fencode_inf neg⟩
        next hhigh =>
          obtain ⟨ex, frac, hex, hex', hfrac, henc⟩ := fencode_normal neg hr hlow (not_lt.mp hhigh)
          exact ⟨neg, ex, frac, by omega, hfrac, by omega, henc⟩

/-- No float result is subnormal. -/
theorem fout32_noSubnormal (v : FVal) : (fout32 v).toNat / 2 ^ 23 % 2 ^ 8 = 0 → (fout32 v).toNat % 2 ^ 23 = 0 := by
  obtain ⟨neg, ex, frac, hex, hfrac, hzero, henc⟩ := w32f_noSubnormal (flushSub_noSubnormal (fround fmt32 v))
  have hword : (fout32 v).toNat = float32Bits neg ex frac := by
    rw [fout32, w32f, henc, BitVec.toNat_ofNat]
    cases neg <;> simp [float32Bits] <;> omega
  rw [hword, float32Bits]
  split <;> omega

/-! ### FCMP, NaN and zeros of operands (R264, R265) -/

theorem sint_eq_inUnits (neg : Bool) (m : Nat) (e e0 : Int) : sint neg m e e0 = inUnits neg m e e0 := by
  rw [sint, inUnits, shl]
  cases neg <;> simp

/-- Two numbers are compared as whole numbers of the lesser unit. -/
theorem fcmpOrd_fin (na nb : Bool) (ma mb : Nat) (ea eb : Int) : fcmpOrd (.fin na ma ea) (.fin nb mb eb) =
    compare (inUnits na ma ea (min ea eb)) (inUnits nb mb eb (min ea eb)) := by
  have he : (if ea ≤ eb then ea else eb) = min ea eb := (min_def ..).symm
  rw [fcmpOrd, he, sint_eq_inUnits, sint_eq_inUnits]

theorem fcmpFlags_fin (na nb : Bool) (ma mb : Nat) (ea eb : Int) : fcmpFlags (.fin na ma ea) (.fin nb mb eb) =
    if inUnits na ma ea (min ea eb) < inUnits nb mb eb (min ea eb) then 8
    else if inUnits na ma ea (min ea eb) = inUnits nb mb eb (min ea eb) then 6 else 2 := by
  rw [fcmpFlags, fcmpOrd_fin]
  generalize inUnits na ma ea (min ea eb) = x
  generalize inUnits nb mb eb (min ea eb) = y
  rcases lt_trichotomy x y with h | h | h
  · rw [compare_lt_iff_lt.mpr h, if_pos h]
    rfl
  · rw [compare_eq_iff_eq.mpr h, if_neg h.not_lt, if_pos h]
    rfl
  · rw [compare_gt_iff_gt.mpr h, if_neg h.not_gt, if_neg h.ne']
    rfl

theorem fcmpFlags_nan {a b : FVal} (h : a = .nan ∨ b = .nan) : fcmpFlags a b = 1 := by
  rcases h with rfl | rfl
  · rfl
  · cases a <;> rfl

theorem fadd_nan {a b : FVal} (h : a = .nan ∨ b = .nan) : fadd fmt32 a b = .nan := by
  rcases h with rfl | rfl
  · rfl
  · cases a <;> rfl

theorem fdiv_nan {a b : FVal} (h : a = .nan ∨ b = .nan) : fdiv fmt32 a b = .nan := by
  rcases h with rfl | rfl
  · rfl
  · cases a <;> rfl

theorem fmulExact_nan {a b : FVal} (h : a = .nan ∨ b = .nan) : fmulExact a b = .nan := by
  rcases h with rfl | rfl
  · rfl
  · cases a <;> rfl

theorem fsub_nan {a b : FVal} (h : a = .nan ∨ b = .nan) : fsub fmt32 a b = .nan := by
  refine fadd_nan (h.imp_right ?_)
  rintro rfl
  rfl

theorem fmul_nan {a b : FVal} (h : a = .nan ∨ b = .nan) : fmul fmt32 a b = .nan := by rw [fmul, fmulExact_nan h, fround]

theorem ffma_nan {a b c : FVal} (h : a = .nan ∨ b = .nan) : ffma fmt32 a b c = .nan := by rw [ffma, fmulExact_nan h, fadd]

theorem freg_withFloat_same (n fd : Nat) (v : FVal) (s : State) : freg (withFloat n fd v s) n fd = fout32 v := by
  rw [withFloat, freg_advance, freg_setFreg, if_pos rfl]

/-- An operand with a zero exponent field is the zero of its sign. -/
theorem fin32_zero {w : Word} (h : w.toNat / 2 ^ 23 % 2 ^ 8 = 0) : ∃ e, fin32 w = .fin w.msb 0 e := by
  have hsign : decide (w.toNat / 2 ^ 31 % 2 = 1) = w.msb := by
    have := w.isLt
    rw [BitVec.msb_eq_decide]
    exact decide_eq_decide.mpr (by omega)
  have hdec : f32 w = .fin w.msb (w.toNat % 2 ^ 23) (-149) := by
    change fdecode ⟨24, 8⟩ w.toNat = _
    rw [fdecode]
    change (if w.toNat / 2 ^ 23 % 2 ^ 8 = 255 then _ else if w.toNat / 2 ^ 23 % 2 ^ 8 = 0 then
      FVal.fin (decide (w.toNat / 2 ^ 31 % 2 = 1)) (w.toNat % 2 ^ 23) (-149) else _) = _
    rw [if_neg (by omega), if_pos h, hsign]
  rw [fin32, hdec, flushSub]
  split
  · exact ⟨0, rfl⟩
  next hbig =>
    by_cases hm : w.toNat % 2 ^ 23 = 0
    · exact ⟨-149, by rw [hm]⟩
    · have hbias : 1 - fmt32.bias = -126 := by decide
      have hlt : Nat.log2 (w.toNat % 2 ^ 23) < 23 := (Nat.log2_lt hm).mpr (Nat.mod_lt _ (by decide))
      exact absurd ⟨hm, by rw [hbias]; omega⟩ hbig

theorem fcmp_next {s : State} {n : Fin 5} (hs : Settled s) (hi : Issues n s) (fs ft : Fin 8) :
    exec (.fcmp n fs ft) s = .next (advance n (setFlags n (fcmpFlags (fin32 (freg s n fs)) (fin32 (freg s n ft))) s)) :=
  plainOp_next hs hi (f := fun s => setFlags n (fcmpFlags (fop s n fs) (fop s n ft)) s) (onlyCore_setFlags ..)

/-- Settles O36: comparison by `fcmpFlags_fin`, NaN by the rule of each operation, results by `fout32_noSubnormal`, operands by `fin32_zero`. -/
theorem floatCompareAndSpecialValues : Obligations.FloatCompareAndSpecialValues := by
  refine ⟨fun s n fs ft na nb ma mb ea eb hs hi ha hb => ?_, fun s n fs ft hs hi h => ?_, fun s n fd fs ft hs hi h i hmem => ?_,
    fun s n fd fs ft hs hi i hmem => ?_, fun w => fin32_zero⟩
  · rw [fcmp_next hs hi, ha, hb, fcmpFlags_fin]
  · rw [fcmp_next hs hi, fcmpFlags_nan h]
  all_goals obtain ⟨hadd, hsub, hmul, hdiv, hsqrt, hmac, -⟩ := floatResults s n fd fs ft 0 0 false _ _ hs hi rfl rfl
  · have hnan : ∀ {v : FVal}, exec i s = .next (withFloat n fd v s) → v = .nan → ∃ t, exec i s = .next t ∧ freg t n fd = 0x7FC00000 := by
      rintro _ hrun rfl
      exact ⟨_, hrun, freg_withFloat_same ..⟩
    simp only [List.mem_cons, List.not_mem_nil, or_false] at hmem
    rcases hmem with rfl | rfl | rfl | rfl | rfl
    · exact hnan hadd (fadd_nan h)
    · exact hnan hsub (fsub_nan h)
    · exact hnan hmul (fmul_nan h)
    · exact hnan hdiv (fdiv_nan h)
    · exact hnan hmac (ffma_nan h)
  · have hout : ∀ {v : FVal}, exec i s = .next (withFloat n fd v s) →
        ∃ t, exec i s = .next t ∧ ((freg t n fd).toNat / 2 ^ 23 % 2 ^ 8 = 0 → (freg t n fd).toNat % 2 ^ 23 = 0) := by
      intro v hrun
      refine ⟨_, hrun, ?_⟩
      rw [freg_withFloat_same]
      exact fout32_noSubnormal v
    simp only [List.mem_cons, List.not_mem_nil, or_false] at hmem
    rcases hmem with rfl | rfl | rfl | rfl | rfl | rfl
    exacts [hout hadd, hout hsub, hout hmul, hout hdiv, hout hsqrt, hout hmac]

end Sys2Proof.Machine

namespace Sys2Proof.Machine
open Sys2Proof

/-! ### What an instruction of a core leaves unchanged -/

/-- The record of a core without what a register instruction writes. -/
def systemPart (c : Core) : Core := { c with w := [], f := [], acc0 := 0, acc1 := 0, flags := 0, pc := 0 }

/-- Between `s` and `t` core `n` alone changed: its general registers in `ints`, its float registers in `floats`, its flags in `mask`, its
accumulators in `accs`, and its pc. -/
structure Keeps (n : Nat) (ints floats : List Nat) (mask : Nat) (accs : Bool × Bool) (s t : State) : Prop where
  only : OnlyCore n s t
  int : ∀ r, r ∉ ints → reg t n r = reg s n r
  float : ∀ r, r ∉ floats → freg t n r = freg s n r
  flag : ∀ k < 4, mask.testBit k = false → nbit (coreOf t n).flags k = nbit (coreOf s n).flags k
  acc0 : accs.1 = false → (coreOf t n).acc0 = (coreOf s n).acc0
  acc1 : accs.2 = false → (coreOf t n).acc1 = (coreOf s n).acc1
  system : systemPart (coreOf t n) = systemPart (coreOf s n)

theorem nbit_nzcv (n z c v : Bool) : nbit (nzcv n z c v % 16) 3 = n ∧ nbit (nzcv n z c v % 16) 2 = z ∧ nbit (nzcv n z c v % 16) 1 = c ∧
    nbit (nzcv n z c v % 16) 0 = v := by revert n z c v; decide

/-- Setting V alone leaves N, Z and C. -/
theorem nbit_vFlag (f : Nat) (v : Bool) {k : Nat} (hk : k < 4) : nbit ((f / 2 * 2 + bit v) % 16) k = if k = 0 then v else nbit f k := by
  have hcases : k = 0 ∨ k = 1 ∨ k = 2 ∨ k = 3 := by omega
  rw [nbit, nbit]
  obtain rfl | rfl | rfl | rfl := hcases <;> cases v <;> simp [bit, Nat.testBit_eq_decide_div_mod_eq] <;> omega

theorem freg_setAcc (n k : Nat) (one : Bool) (v : Int) (s : State) : freg (setAcc n one v s) n k = freg s n k := by
  cases one <;> simp [freg, setAcc]

theorem reg_setAcc (n k : Nat) (one : Bool) (v : Int) (s : State) : reg (setAcc n one v s) n k = reg s n k := by
  cases one <;> simp [reg, setAcc]

namespace Keeps

variable {n : Nat} {ints floats : List Nat} {mask : Nat} {accs : Bool × Bool} {s t u : State}

protected theorem refl : Keeps n ints floats mask accs s s :=
  ⟨.refl n s, fun _ _ => rfl, fun _ _ => rfl, fun _ _ _ => rfl, fun _ => rfl, fun _ => rfl, rfl⟩

theorem trans (h : Keeps n ints floats mask accs s t) (h' : Keeps n ints floats mask accs t u) : Keeps n ints floats mask accs s u where
  only := h.only.trans h'.only
  int r hr := (h'.int r hr).trans (h.int r hr)
  float r hr := (h'.float r hr).trans (h.float r hr)
  flag k hk hm := (h'.flag k hk hm).trans (h.flag k hk hm)
  acc0 ha := (h'.acc0 ha).trans (h.acc0 ha)
  acc1 ha := (h'.acc1 ha).trans (h.acc1 ha)
  system := h'.system.trans h.system

theorem setPc (a : Nat) (s : State) : Keeps n ints floats mask accs s (setPc n a s) := by
  have h : coreOf (Machine.setPc n a s) n = { coreOf s n with pc := a % 2 ^ 32 } := coreOf_setCore_same ..
  exact ⟨.setCore .., fun r _ => by rw [reg, h, reg], fun r _ => by rw [freg, h, freg], fun k _ _ => by rw [h], fun _ => by rw [h],
    fun _ => by rw [h], by rw [h]; rfl⟩

theorem setReg {rd : Nat} (hrd : rd ∈ ints) (v : Word) (s : State) : Keeps n ints floats mask accs s (setReg n rd v s) := by
  have h := coreOf_setReg n rd v s
  refine ⟨onlyCore_setReg .., fun r hr => ?_, fun r _ => freg_setReg .., fun k _ _ => by rw [h], fun _ => by rw [h], fun _ => by rw [h],
    by rw [h]; rfl⟩
  rw [reg_setReg, if_neg (ne_of_mem_of_not_mem hrd hr).symm]

theorem setFreg {fd : Nat} (hfd : fd ∈ floats) (v : Word) (s : State) : Keeps n ints floats mask accs s (setFreg n fd v s) := by
  have h := coreOf_setFreg n fd v s
  refine ⟨onlyCore_setFreg .., fun r _ => reg_setFreg .., fun r hr => ?_, fun k _ _ => by rw [h], fun _ => by rw [h], fun _ => by rw [h],
    by rw [h]; rfl⟩
  rw [freg_setFreg, if_neg (ne_of_mem_of_not_mem hfd hr).symm]

theorem setFlags {v : Nat} (hv : ∀ k < 4, mask.testBit k = false → nbit (v % 16) k = nbit (coreOf s n).flags k) :
    Keeps n ints floats mask accs s (setFlags n v s) := by
  have h := coreOf_setFlags n v s
  exact ⟨onlyCore_setFlags .., fun r _ => reg_setFlags .., fun r _ => freg_setFlags .., fun k hk hm => by rw [h]; exact hv k hk hm,
    fun _ => by rw [h], fun _ => by rw [h], by rw [h]; rfl⟩

theorem setV (hm : mask % 2 = 1) (v : Bool) (s : State) : Keeps n ints floats mask accs s (setV n v s) := by
  refine setFlags fun k hk hk' => ?_
  have hne : k ≠ 0 := by
    rintro rfl
    exact absurd hm (by simpa using hk')
  rw [nbit_vFlag _ _ hk, if_neg hne]

theorem setNzcv (hn : mask.testBit 3 = true) (hz : mask.testBit 2 = true) (x z : Bool) {c v : Bool}
    (hc : mask.testBit 1 = true ∨ c = nbit (coreOf s n).flags 1) (hv : mask % 2 = 1 ∨ v = nbit (coreOf s n).flags 0) :
    Keeps n ints floats mask accs s (Machine.setFlags n (nzcv x z c v) s) := by
  obtain ⟨hx', hz', hc', hv'⟩ := nbit_nzcv x z c v
  refine setFlags fun k hk hm => ?_
  have hcases : k = 0 ∨ k = 1 ∨ k = 2 ∨ k = 3 := by omega
  obtain rfl | rfl | rfl | rfl := hcases
  · rw [hv', hv.resolve_left (by simpa using hm)]
  · rw [hc', hc.resolve_left (by simp [hm])]
  · exact absurd hz (by simp [hm])
  · exact absurd hn (by simp [hm])

theorem setAcc {one : Bool} (h0 : one = false → accs.1 = true) (h1 : one = true → accs.2 = true) (v : Int) (s : State) :
    Keeps n ints floats mask accs s (setAcc n one v s) := by
  cases one
  · have h : coreOf (Machine.setAcc n false v s) n = { coreOf s n with acc0 := v } := coreOf_setCore_same ..
    exact ⟨onlyCore_setAcc .., fun r _ => reg_setAcc .., fun r _ => freg_setAcc .., fun k _ _ => by rw [h],
      fun ha => absurd (h0 rfl) (by simp [ha]), fun _ => by rw [h], by rw [h]; rfl⟩
  · have h : coreOf (Machine.setAcc n true v s) n = { coreOf s n with acc1 := v } := coreOf_setCore_same ..
    exact ⟨onlyCore_setAcc .., fun r _ => reg_setAcc .., fun r _ => freg_setAcc .., fun k _ _ => by rw [h], fun _ => by rw [h],
      fun ha => absurd (h1 rfl) (by simp [ha]), by rw [h]; rfl⟩

/-- What no register instruction writes is kept. -/
theorem field (h : Keeps n ints floats mask accs s t) {α : Type} (f : Core → α) (hf : ∀ c, f (systemPart c) = f c) :
    f (coreOf t n) = f (coreOf s n) :=
  (hf _).symm.trans ((congrArg f h.system).trans (hf _))

/-! The results of the register instructions -/

theorem withValue {rd : Nat} (hrd : rd ∈ ints) (r : Word) (s : State) : Keeps n ints floats mask accs s (withValue n rd r s) :=
  (setReg hrd r s).trans (setPc ..)

theorem withV {rd : Nat} (hrd : rd ∈ ints) (hm : mask % 2 = 1) (r : Word) (v : Bool) (s : State) :
    Keeps n ints floats mask accs s (withV n rd r v s) :=
  ((setReg hrd r s).trans (setV hm v _)).trans (setPc ..)

theorem withFlags (hn : mask.testBit 3 = true) (hz : mask.testBit 2 = true) {c v : Bool} (hc : mask.testBit 1 = true ∨ c = nbit (coreOf s n).flags 1)
    (hv : mask % 2 = 1 ∨ v = nbit (coreOf s n).flags 0) (r : Word) : Keeps n ints floats mask accs s (withFlags n r c v s) :=
  (setNzcv hn hz _ _ hc hv).trans (setPc ..)

theorem withResult {rd : Nat} (hrd : rd ∈ ints) (hn : mask.testBit 3 = true) (hz : mask.testBit 2 = true) {c v : Bool}
    (hc : mask.testBit 1 = true ∨ c = nbit (coreOf s n).flags 1) (hv : mask % 2 = 1 ∨ v = nbit (coreOf s n).flags 0) (r : Word) :
    Keeps n ints floats mask accs s (withResult n rd r c v s) := by
  have h : (coreOf (Machine.setReg n rd r s) n).flags = (coreOf s n).flags := by rw [coreOf_setReg]
  exact (setReg hrd r s).trans (withFlags hn hz (by rwa [h]) (by rwa [h]) r)

/-- An operation that sets all four flags. -/
theorem withResult_nzcv {rd : Nat} (hrd : rd ∈ ints) (r : Word) (c v : Bool) (s : State) :
    Keeps n ints floats 15 accs s (Machine.withResult n rd r c v s) :=
  withResult hrd rfl rfl (.inl rfl) (.inl rfl) r

/-- A shift: V stays. -/
theorem withResult_nzc {rd : Nat} (hrd : rd ∈ ints) (r : Word) (c : Bool) (s : State) :
    Keeps n ints floats 14 accs s (Machine.withResult n rd r c (nbit (coreOf s n).flags 0) s) :=
  withResult hrd rfl rfl (.inl rfl) (.inr rfl) r

/-- A logical operation: C and V stay. -/
theorem withResult_nz {rd : Nat} (hrd : rd ∈ ints) (r : Word) (s : State) :
    Keeps n ints floats 12 accs s (Machine.withResult n rd r (nbit (coreOf s n).flags 1) (nbit (coreOf s n).flags 0) s) :=
  withResult hrd rfl rfl (.inr rfl) (.inr rfl) r

theorem withFlags_nzcv (r : Word) (c v : Bool) (s : State) : Keeps n ints floats 15 accs s (Machine.withFlags n r c v s) :=
  withFlags rfl rfl (.inl rfl) (.inl rfl) r

theorem withFloat {fd : Nat} (hfd : fd ∈ floats) (v : FVal) (s : State) : Keeps n ints floats mask accs s (withFloat n fd v s) :=
  (setFreg hfd _ s).trans (setPc ..)

end Keeps

/-- Instruction `i` of core `n` completes within its frame. -/
def Frames (n : Nat) (i : Instr) (s : State) : Prop :=
  ∃ t, exec i s = .next t ∧ Keeps n (intDests i) (floatDests i) (flagDests i) (accDests i) s t

/-- With all four flags in the mask no flag is kept. -/
theorem fourFlags {p : Nat → Prop} : ∀ k < 4, Nat.testBit 15 k = false → p k := by
  intro k hk h
  have hcases : k = 0 ∨ k = 1 ∨ k = 2 ∨ k = 3 := by omega
  obtain rfl | rfl | rfl | rfl := hcases <;> exact absurd h (by decide)

section
variable {s : State} {n : Fin 5} (hs : Settled s) (hi : Issues n s)
include hs hi

theorem frames_integer (rd rs rt : Fin 16) : ∀ i ∈ [Instr.add n rd rs rt, .sub n rd rs rt, .and n rd rs rt, .or n rd rs rt, .xor n rd rs rt,
    .shl n rd rs rt, .shr n rd rs rt, .sar n rd rs rt, .mul n rd rs rt, .mulh n rd rs rt, .div n rd rs rt, .divu n rd rs rt, .min n rd rs rt,
    .max n rd rs rt, .cmp n rs rt], Frames n i s := by
  obtain ⟨hadd, hsub, hand, hor, hxor, hshl, hshr, hsar, hmul, hmulh, hdiv, hdivu, hmin, hmax, hcmp⟩ :=
    integerRegisterResults s n rd rs rt _ _ _ _ _ hs hi rfl rfl rfl rfl rfl
  have hrd : rd.val ∈ [rd.val] := List.mem_singleton_self _
  simp only [List.forall_mem_cons, List.not_mem_nil, false_implies, implies_true, and_true]
  refine ⟨⟨_, hadd, ?_⟩, ⟨_, hsub, ?_⟩, ⟨_, hand, ?_⟩, ⟨_, hor, ?_⟩, ⟨_, hxor, ?_⟩, ⟨_, hshl, ?_⟩, ⟨_, hshr, ?_⟩, ⟨_, hsar, ?_⟩, ⟨_, hmul, ?_⟩,
    ⟨_, hmulh, ?_⟩, ⟨_, hdiv, ?_⟩, ⟨_, hdivu, ?_⟩, ⟨_, hmin, ?_⟩, ⟨_, hmax, ?_⟩, ⟨_, hcmp, ?_⟩⟩
  exacts [.withResult_nzcv hrd .., .withResult_nzcv hrd .., .withResult_nz hrd .., .withResult_nz hrd .., .withResult_nz hrd ..,
    .withResult_nzc hrd .., .withResult_nzc hrd .., .withResult_nzc hrd .., .withValue hrd _ _, .withValue hrd _ _,
    .withV hrd rfl _ _ _, .withV hrd rfl _ _ _, .withValue hrd _ _, .withValue hrd _ _, .withFlags_nzcv ..]

theorem frames_immediate (rd rs : Fin 16) (imm : BitVec 14) (sh : BitVec 5) (imm18 : BitVec 18) : ∀ i ∈ [Instr.addi n rd rs imm,
    .andi n rd rs imm, .ori n rd rs imm, .xori n rd rs imm, .shli n rd rs sh, .shri n rd rs sh, .sari n rd rs sh, .cmpi n rs imm,
    .lui n rd imm18], Frames n i s := by
  obtain ⟨haddi, handi, hori, hxori, hshli, hshri, hsari, hcmpi, hlui, -⟩ :=
    immediateResults s n rd rs imm sh imm18 _ _ _ _ hs hi rfl rfl rfl rfl
  have hrd : rd.val ∈ [rd.val] := List.mem_singleton_self _
  simp only [List.forall_mem_cons, List.not_mem_nil, false_implies, implies_true, and_true]
  refine ⟨⟨_, haddi, ?_⟩, ⟨_, handi, ?_⟩, ⟨_, hori, ?_⟩, ⟨_, hxori, ?_⟩, ⟨_, hshli, ?_⟩, ⟨_, hshri, ?_⟩, ⟨_, hsari, ?_⟩, ⟨_, hcmpi, ?_⟩,
    ⟨_, hlui, ?_⟩⟩
  exacts [.withResult_nzcv hrd .., .withResult_nz hrd .., .withResult_nz hrd .., .withResult_nz hrd .., .withResult_nzc hrd ..,
    .withResult_nzc hrd .., .withResult_nzc hrd .., .withFlags_nzcv .., .withValue hrd _ _]

theorem frames_accumulator (rd rs rt : Fin 16) (one clear : Bool) (m : Fin 32) : ∀ i ∈ [Instr.mac n one rs rt, .msu n one rs rt,
    .accw n one clear rs rt, .sat n rd rs m], Frames n i s := by
  have hrd : rd.val ∈ [rd.val] := List.mem_singleton_self _
  have h0 : one = false → (!one) = true := by rintro rfl; rfl
  simp only [List.forall_mem_cons, List.not_mem_nil, false_implies, implies_true, and_true]
  refine ⟨⟨_, mac_next hs hi one rs rt _ rfl, ?_⟩, ⟨_, msu_next hs hi one rs rt _ rfl, ?_⟩, ⟨_, accw_next hs hi one clear rs rt, ?_⟩,
    ⟨_, sat_next hs hi rd rs m, ?_⟩⟩
  · exact ((Keeps.setAcc h0 id _ _).trans (.setV rfl _ _)).trans (.setPc ..)
  · exact ((Keeps.setAcc h0 id _ _).trans (.setV rfl _ _)).trans (.setPc ..)
  · exact (Keeps.setAcc h0 id _ _).trans (.setPc ..)
  · exact .withV hrd rfl _ _ _

theorem frames_accr (rd : Fin 16) (one raw : Bool) (sh : Fin 64) (h : registerOnly (.accr n rd one raw sh) = true) :
    Frames n (.accr n rd one raw sh) s := by
  have hrd : rd.val ∈ [rd.val] := List.mem_singleton_self _
  cases raw
  · exact ⟨_, accr_next hs hi rd one sh, .withV hrd rfl _ _ _⟩
  · obtain ⟨-, -, -, hraw, -⟩ := multiplyAccumulateResults s n rd 0 0 one sh 0 _ _ _ hs hi rfl rfl rfl
    exact ⟨_, hraw (of_decide_eq_true h), .withValue hrd _ _⟩

theorem frames_float (fd fs ft : Fin 8) (wd ws : Fin 16) (trunc : Bool) : ∀ i ∈ [Instr.fadd n fd fs ft, .fsub n fd fs ft, .fmul n fd fs ft,
    .fdiv n fd fs ft, .fsqrt n fd fs, .fmac n fd fs ft, .fmin n fd fs ft, .fmax n fd fs ft, .fabs n fd fs, .fneg n fd fs, .fcvtsw n fd ws,
    .fcvtws n wd fs trunc, .fmvwf n wd fs, .fmvfw n fd ws, .fcmp n fs ft], Frames n i s := by
  obtain ⟨hadd, hsub, hmul, hdiv, hsqrt, hmac, hmin, hmax, habs, hneg, hcvt, -, -, -, hmvwf, hmvfw⟩ :=
    floatResults s n fd fs ft wd ws trunc _ _ hs hi rfl rfl
  have hfd : fd.val ∈ [fd.val] := List.mem_singleton_self _
  have hwd : wd.val ∈ [wd.val] := List.mem_singleton_self _
  simp only [List.forall_mem_cons, List.not_mem_nil, false_implies, implies_true, and_true]
  refine ⟨⟨_, hadd, ?_⟩, ⟨_, hsub, ?_⟩, ⟨_, hmul, ?_⟩, ⟨_, hdiv, ?_⟩, ⟨_, hsqrt, ?_⟩, ⟨_, hmac, ?_⟩, ⟨_, hmin, ?_⟩, ⟨_, hmax, ?_⟩, ⟨_, habs, ?_⟩,
    ⟨_, hneg, ?_⟩, ⟨_, hcvt, ?_⟩, ⟨_, fcvtws_next hs hi wd fs trunc, ?_⟩, ⟨_, hmvwf, ?_⟩, ⟨_, hmvfw, ?_⟩, ⟨_, fcmp_next hs hi fs ft, ?_⟩⟩
  exacts [.withFloat hfd _ _, .withFloat hfd _ _, .withFloat hfd _ _, .withFloat hfd _ _, .withFloat hfd _ _, .withFloat hfd _ _,
    .withFloat hfd _ _, .withFloat hfd _ _, .withFloat hfd _ _, .withFloat hfd _ _, .withFloat hfd _ _, .withV hwd rfl _ _ _,
    .withValue hwd _ _, (Keeps.setFreg hfd _ _).trans (.setPc ..), (Keeps.setFlags fourFlags).trans (.setPc ..)]

theorem frames_jump (rd rs : Fin 16) (cnd : Fin 15) (t : Fin 4) (off : BitVec 20) (far : BitVec 26) : ∀ i ∈ [Instr.jr n rs, .jalr n rd rs,
    .bcc n cnd off, .cbr n rs t off, .j n far, .jal n far, .nop n], Frames n i s := by
  have hrd : rd.val ∈ [rd.val, 15] := List.mem_cons_self
  have hlink : 15 ∈ [rd.val, 15] := List.mem_cons_of_mem _ (List.mem_singleton_self _)
  have hlink' : 15 ∈ [15] := List.mem_singleton_self _
  simp only [List.forall_mem_cons, List.not_mem_nil, false_implies, implies_true, and_true]
  have hgo : ∀ target : State → Nat, jumpOp n (fun s => s) target s = .next (setPc n (target s) s) :=
    fun target => jumpOp_next hs hi target (.refl n s)
  have hjalr := jumpOp_next hs hi (f := fun s => setReg n 15 (returnTo s n) (setReg n rd (returnTo s n) s)) (fun s => (reg s n rs).toNat)
    ((onlyCore_setReg ..).trans (onlyCore_setReg ..))
  have hjal := jumpOp_next hs hi (f := fun s => setReg n 15 (returnTo s n) s) (fun s => branchTarget s n far.toInt) (onlyCore_setReg ..)
  have hnop := plainOp_next hs hi (f := fun s => s) (.refl n s)
  refine ⟨⟨_, hgo fun s => (reg s n rs).toNat, ?_⟩, ⟨_, hjalr, ?_⟩,
    ⟨_, hgo fun s => if condHolds cnd (coreOf s n).flags then branchTarget s n off.toInt else (coreOf s n).pc + 4, ?_⟩,
    ⟨_, hgo fun s => if regTest t (reg s n rs) then branchTarget s n off.toInt else (coreOf s n).pc + 4, ?_⟩,
    ⟨_, hgo fun s => branchTarget s n far.toInt, ?_⟩, ⟨_, hjal, ?_⟩, ⟨_, hnop, ?_⟩⟩
  exacts [.setPc .., ((Keeps.setReg hrd _ _).trans (.setReg hlink _ _)).trans (.setPc ..), .setPc .., .setPc .., .setPc ..,
    (Keeps.setReg hlink' _ _).trans (.setPc ..), .setPc ..]

end

/-- Every register instruction keeps to its frame. -/
theorem core_frames_registerOnly {s : State} (hs : Settled s) (i : Instr) (hr : registerOnly i = true) :
    (coreOfInstr i).elim True fun n => Issues n s → Frames n i s := by
  cases i with
  | add _ rd rs rt | sub _ rd rs rt | and _ rd rs rt | or _ rd rs rt | xor _ rd rs rt | shl _ rd rs rt | shr _ rd rs rt | sar _ rd rs rt
  | mul _ rd rs rt | mulh _ rd rs rt | div _ rd rs rt | divu _ rd rs rt | min _ rd rs rt | max _ rd rs rt =>
    exact fun hi => frames_integer hs hi rd rs rt _ (by repeat constructor)
  | cmp _ rs rt => exact fun hi => frames_integer hs hi 0 rs rt _ (by repeat constructor)
  | addi _ rd rs imm | andi _ rd rs imm | ori _ rd rs imm | xori _ rd rs imm =>
    exact fun hi => frames_immediate hs hi rd rs imm 0 0 _ (by repeat constructor)
  | shli _ rd rs sh | shri _ rd rs sh | sari _ rd rs sh => exact fun hi => frames_immediate hs hi rd rs 0 sh 0 _ (by repeat constructor)
  | cmpi _ rs imm => exact fun hi => frames_immediate hs hi 0 rs imm 0 0 _ (by repeat constructor)
  | lui _ rd imm => exact fun hi => frames_immediate hs hi rd 0 0 0 imm _ (by repeat constructor)
  | mac _ one rs rt | msu _ one rs rt => exact fun hi => frames_accumulator hs hi 0 rs rt one false 0 _ (by repeat constructor)
  | accr _ rd one raw sh => exact fun hi => frames_accr hs hi rd one raw sh hr
  | accw _ one clear rs rt => exact fun hi => frames_accumulator hs hi 0 rs rt one clear 0 _ (by repeat constructor)
  | sat _ rd rs m => exact fun hi => frames_accumulator hs hi rd rs 0 false false m _ (by repeat constructor)
  | fadd _ fd fs ft | fsub _ fd fs ft | fmul _ fd fs ft | fdiv _ fd fs ft | fmac _ fd fs ft | fmin _ fd fs ft | fmax _ fd fs ft =>
    exact fun hi => frames_float hs hi fd fs ft 0 0 false _ (by repeat constructor)
  | fsqrt _ fd fs | fabs _ fd fs | fneg _ fd fs => exact fun hi => frames_float hs hi fd fs 0 0 0 false _ (by repeat constructor)
  | fcmp _ fs ft => exact fun hi => frames_float hs hi 0 fs ft 0 0 false _ (by repeat constructor)
  | fcvtsw _ fd ws | fmvfw _ fd ws => exact fun hi => frames_float hs hi fd 0 0 0 ws false _ (by repeat constructor)
  | fcvtws _ wd fs trunc => exact fun hi => frames_float hs hi 0 fs 0 wd 0 trunc _ (by repeat constructor)
  | fmvwf _ wd fs => exact fun hi => frames_float hs hi 0 fs 0 wd 0 false _ (by repeat constructor)
  | jr _ rs => exact fun hi => frames_jump hs hi 0 rs 0 0 0 0 _ (by repeat constructor)
  | jalr _ rd rs => exact fun hi => frames_jump hs hi rd rs 0 0 0 0 _ (by repeat constructor)
  | bcc _ cnd off => exact fun hi => frames_jump hs hi 0 0 cnd 0 off 0 _ (by repeat constructor)
  | cbr _ rs t off => exact fun hi => frames_jump hs hi 0 rs 0 t off 0 _ (by repeat constructor)
  | j _ far | jal _ far => exact fun hi => frames_jump hs hi 0 0 0 0 0 far _ (by repeat constructor)
  | nop _ => exact fun hi => frames_jump hs hi 0 0 0 0 0 0 _ (by repeat constructor)
  | _ => exact absurd hr Bool.false_ne_true

theorem frames_registerOnly {s : State} {n : Fin 5} (hs : Settled s) (hi : Issues n s) (i : Instr) (hn : coreOfInstr i = some n)
    (hr : registerOnly i = true) : Frames n i s := by
  have h := core_frames_registerOnly hs i hr
  rw [hn] at h
  exact h hi

theorem OnlyCore.queueOf {n : Nat} {s t : State} (h : OnlyCore n s t) (q : Nat) : queueOf t q = queueOf s q :=
  (congrArg (fun v => Machine.queueOf v q) h.rest).trans rfl

theorem OnlyCore.mget {n : Nat} {s t : State} (h : OnlyCore n s t) (a : Nat) : mget t a = mget s a :=
  (congrArg (fun v => Machine.mget v a) h.rest).trans rfl

/-- A change of core records alone leaves every other part of the block. -/
theorem OnlyCore.same {n : Nat} {s t : State} (h : OnlyCore n s t) {k : Comp} (hk : k ≠ .cores) : same k s t := by
  rw [h.rest]
  cases k with
  | cores => exact absurd rfl hk
  | _ => rfl

/-- Settles O38: every register instruction keeps to its frame, by `frames_registerOnly`. -/
theorem registerInstructionFrame : Obligations.RegisterInstructionFrame := by
  intro s i n hs hi hn hr
  obtain ⟨t, ht, hkeeps⟩ := frames_registerOnly hs hi i hn hr
  exact ⟨t, ht, hkeeps.int, hkeeps.float, hkeeps.flag, hkeeps.acc0, hkeeps.acc1, hkeeps.field Core.epc fun _ => rfl,
    hkeeps.field Core.estat fun _ => rfl, hkeeps.field Core.eval fun _ => rfl, hkeeps.field Core.vbase fun _ => rfl,
    hkeeps.field Core.scratch0 fun _ => rfl, hkeeps.field Core.scratch1 fun _ => rfl, hkeeps.field Core.cycle0 fun _ => rfl,
    hkeeps.field Core.stores fun _ => rfl, hkeeps.field Core.cache fun _ => rfl, hkeeps.field Core.asleep fun _ => rfl,
    hkeeps.only.others, hkeeps.only.queueOf, hkeeps.only.rd, hkeeps.only.mget, fun k hk => hkeeps.only.same hk⟩

end Sys2Proof.Machine

namespace Sys2Proof.Machine
open Sys2Proof

/-! ### System registers (R274 to R276) -/

theorem OnlyCore.clk {n : Nat} {s t : State} (h : OnlyCore n s t) : clk t = clk s :=
  (congrArg Machine.clk h.rest).trans rfl

/-- Within a lap the block's clock does not go back. -/
theorem clk_le_atOfs (ofs : Nat) (s : State) : clk s ≤ clk (atOfs ofs s) := by
  have hosc : oscillator s ≤ oscillator (atOfs ofs s) := Nat.add_le_add_left (Nat.le_max_left ..) _
  have hpwr : (atOfs ofs s).pwr = s.pwr := rfl
  rw [clk, clk, hpwr]
  cases s.pwr.rest with
  | some t => exact le_rfl
  | none => exact Nat.sub_le_sub_right hosc _

theorem systemReg_eq (s : State) (n : Nat) (sr : Fin 10) : systemReg s n sr =
    [(coreOf s n).vbase, (coreOf s n).epc, (coreOf s n).estat, (coreOf s n).eval, (coreOf s n).scratch0, (coreOf s n).scratch1,
      w32 ((clk s - (coreOf s n).cycle0) / corePeriod n), hi32 ((clk s - (coreOf s n).cycle0) / corePeriod n), w32 n,
      w32 (coreOf s n).flags].getD sr.val 0 := by
  fin_cases sr <;> rfl

section
variable {s : State} {n : Fin 5} (hs : Settled s) (hi : Issues n s)
include hi

theorem mfsr_runs (rd : Fin 16) (sr : Fin 10) (ofs : Nat) : exec (.mfsr n rd sr ofs) s =
    if inService s n = true ∧ sr.val < 6 then done (trap n 2 (wordA 3 rd 0 0 sr 5) s)
    else done (advance n (setReg n rd (systemReg (atOfs ofs s) n sr) (atOfs ofs s))) := by
  change execMfsr n rd sr ofs s = _
  rw [execMfsr, issue_runs hi]

theorem mtsr_runs (rs : Fin 16) (sr : Fin 10) : exec (.mtsr n sr rs) s =
    if inService s n = true ∧ sr.val ≠ 9 then done (trap n 2 (wordA 3 0 rs 0 sr 6) s)
    else done (advance n (setCore n (withSystemReg (coreOf s n) sr (reg s n rs)) s)) := by
  change execMtsr n sr rs s = _
  rw [execMtsr, issue_runs hi]

include hs

theorem mfsr_next (rd : Fin 16) (sr : Fin 10) (ofs : Nat) (h : inService s n = false ∨ 6 ≤ sr.val) :
    exec (.mfsr n rd sr ofs) s = .next (advance n (setReg n rd (systemReg (atOfs ofs s) n sr) (atOfs ofs s))) := by
  have hallowed : ¬ (inService s n = true ∧ sr.val < 6) := by
    rintro ⟨hm, hsr⟩
    exact h.elim (fun hf => Bool.false_ne_true (hf.symm.trans hm)) (Nat.not_le.mpr hsr)
  have hat : Settled (atOfs ofs s) := hs
  rw [mfsr_runs hi, if_neg hallowed, done_settled_next ((onlyCore_advance_setReg ..).settled hat)]

theorem mtsr_next (rs : Fin 16) (sr : Fin 10) (h : inService s n = false ∨ sr.val = 9) :
    exec (.mtsr n sr rs) s = .next (advance n (setCore n (withSystemReg (coreOf s n) sr (reg s n rs)) s)) := by
  have hallowed : ¬ (inService s n = true ∧ sr.val ≠ 9) := by
    rintro ⟨hm, hsr⟩
    exact h.elim (fun hf => Bool.false_ne_true (hf.symm.trans hm)) hsr
  rw [mtsr_runs hi, if_neg hallowed, done_settled_next (((OnlyCore.setCore ..).trans (onlyCore_advance ..)).settled hs)]

end

/-- What MTSR makes of the record of its core: each register by its number, and nothing of the registers marked ro. -/
theorem withSystemReg_eq (x : Core) (sr : Fin 10) (v : Word) : withSystemReg x sr v = { x with
    vbase := if sr.val = 0 then v &&& 0xFFFFFF00 else x.vbase
    epc := if sr.val = 1 then v else x.epc
    estat := if sr.val = 2 then v &&& 0xFF3F else x.estat
    scratch0 := if sr.val = 4 then v else x.scratch0
    scratch1 := if sr.val = 5 then v else x.scratch1
    flags := if sr.val = 9 then v.toNat % 16 else x.flags } := by
  fin_cases sr <;> rfl

/-- Settles O44: MFSR and MTSR issue as in `mfsr_runs` and `mtsr_runs`, over the tables `systemReg_eq` and `withSystemReg_eq`. -/
theorem systemRegisterInstructions : Obligations.SystemRegisterInstructions := by
  refine ⟨fun s n rd sr ofs hs hi h => ?_, fun s n sr rs v hs hi h hv => ?_, fun s n rd rs sr ofs hi hm => ⟨fun hsr => ?_, fun hsr => ?_⟩⟩
  · have hcore : coreOf (atOfs ofs s) n = coreOf s n := rfl
    have honly := onlyCore_advance_setReg n rd (systemReg (atOfs ofs s) n sr) (atOfs ofs s)
    have hread := systemReg_eq (atOfs ofs s) n sr
    rw [← honly.clk, hcore] at hread
    refine ⟨_, mfsr_next hs hi rd sr ofs h, ?_, fun r hr => ?_, ?_, ?_, ?_, honly.mem, honly.rd⟩
    · rwa [reg_advance, reg_setReg, if_pos rfl]
    · rw [reg_advance, reg_setReg, if_neg hr, reg, hcore, reg]
    · rw [coreOf_advance, coreOf_setReg, hcore]
    · rw [coreOf_advance, coreOf_setReg, hcore]
    · exact (clk_le_atOfs ofs s).trans_eq honly.clk.symm
  · have hrun := mtsr_next hs hi rs sr h
    have hx := withSystemReg_eq (coreOf s n) sr v
    rw [← hv] at hrun
    generalize withSystemReg (coreOf s n) sr v = x at hrun hx
    have honly := (OnlyCore.setCore n x s).trans (onlyCore_advance n _)
    have hreg : ∀ r, reg (advance n (setCore n x s)) n r = reg s n r := fun r => by rw [reg_advance, reg, coreOf_setCore_same, hx, reg]
    have hfreg : ∀ r, freg (advance n (setCore n x s)) n r = freg s n r := fun r => by rw [freg_advance, freg, coreOf_setCore_same, hx, freg]
    refine ⟨_, hrun, ?_, ?_, ?_, ?_, ?_, ?_, ?_, ?_, ?_, hreg, hfreg, honly.others, honly.mem, honly.rd⟩ <;>
      rw [coreOf_advance, coreOf_setCore_same, hx]
  · exact ⟨_, rfl, (mfsr_runs hi ..).trans (if_pos ⟨hm, hsr⟩)⟩
  · exact ⟨_, rfl, (mtsr_runs hi ..).trans (if_pos ⟨hm, hsr⟩)⟩

end Sys2Proof.Machine

namespace Sys2Proof.Machine
open Sys2Proof

/-! ### Words of a table in the own data memory (R266) -/

theorem seepOthers_of_five {n : Nat} {s : State} (h : ∀ m < 5, (coreOf s m).stores = []) : seepOthers n s = s :=
  foldl_fixed_of_mem fun m hm => if_pos (h m (List.mem_range.mp (List.mem_filter.mp hm).1))

/-- A byte of the memories above DRAM is what memory holds, where the core has no store under way. -/
theorem byteSeen_of_empty {s : State} {n a : Nat} (h : (coreOf s n).stores = []) (ha : 0x80000000 ≤ a) : byteSeen s n a = mget s a := by
  rw [byteSeen, h, List.reverse_nil, List.find?_nil]
  exact if_pos ha

/-- An aligned word of the own data memory, at its address in the own local alias. -/
theorem tableWord_own {s : State} {n : Fin 5} {a k : Nat} (ha : a = 0x90040000 + k) (h4 : k % 4 = 0) (hk : k + 4 ≤ dmemSize n)
    (hempty : ∀ m < 5, (coreOf s m).stores = []) {w : Word} (hw : mread s 4 (localBase n + 0x40000 + k) = w.toNat) :
    tableWord n a s = .ok (w, s) := by
  have hn := n.isLt
  have hsize : dmemSize n ≤ 0x20000 := by
    unfold dmemSize
    split <;> omega
  have hbase : localBase n = 0x91000000 + n * 0x100000 := rfl
  have hmod : a % 2 ^ 32 = a := Nat.mod_eq_of_lt (by omega)
  have hcanon : canonical n a = localBase n + 0x40000 + k := by
    rw [canonical, if_pos (by omega)]
    omega
  have hlocal : localAt (canonical n a) = some (n.val, 0x40000 + k) := by
    rw [hcanon, localAt, if_pos (by omega), show (localBase n + 0x40000 + k - 0x91000000) / 0x100000 = n.val by omega,
      show (localBase n + 0x40000 + k) % 0x100000 = 0x40000 + k by omega]
  have hholds : localHolds n (0x40000 + k) = true := by
    simp [localHolds]
    omega
  have hbarred : barred a = false := by
    simp [barred]
    omega
  have hrom : inRom a = false := inRom_of_lt (by omega)
  have hanswers : answers s (canonical n a) = true := by simp [answers, hlocal, hholds]
  have hfault : accessFault s n 4 a = none := by simp [accessFault, hbarred, hrom, hanswers]; omega
  have hmiss : misses s n (canonical n a) = false := misses_of_ge (by omega)
  have hload : loadBytes n 4 a s = (bytesSeen s n 4 (canonical n a), s) := by
    have hlow : ¬ canonical n a < 0x80000000 := by omega
    have hhigh : canonical n a < 0xA0000000 := by omega
    simp [loadBytes, inRom_of_lt hhigh, isBus_of_lt hhigh, hlow, seepOthers_of_five hempty, bytesSeen]
  have hbytes : bytesSeen s n 4 (canonical n a) = (List.range 4).map fun i => mget s (localBase n + 0x40000 + k + i) := by
    rw [bytesSeen, hcanon]
    exact List.map_congr_left fun i _ => byteSeen_of_empty (hempty n hn) (by omega)
  rw [tableWord, hmod]
  dsimp only
  rw [hfault]
  dsimp only
  rw [fetchLine_of_hit hmiss, hmiss, if_neg Bool.false_ne_true, hload, hbytes]
  dsimp only
  rw [← mread, hw, w32, BitVec.ofNat_toNat, BitVec.setWidth_eq]

/-! ### The held abscissa and its floor (R266) -/

theorem fofInt_ofNat (k : Nat) : fofInt (k : Int) = .fin false k 0 := by
  rw [fofInt, decide_eq_false (by omega), Int.natAbs_natCast]

/-- Of two numbers the less is that of fewer units. -/
theorem flt_fin (na nb : Bool) (ma mb : Nat) (ea eb : Int) :
    flt (.fin na ma ea) (.fin nb mb eb) = decide (inUnits na ma ea (min ea eb) < inUnits nb mb eb (min ea eb)) := by
  rw [flt, fcmpOrd_fin]
  by_cases h : inUnits na ma ea (min ea eb) < inUnits nb mb eb (min ea eb)
  · rw [compare_lt_iff_lt.mpr h, decide_eq_true h]
    rfl
  · rw [decide_eq_false h, Bool.and_eq_false_iff]
    exact .inr (beq_eq_false_iff_ne.mpr fun hlt => h (compare_lt_iff_lt.mp hlt))

/-- A number not below 0 has no sign, unless it is 0. -/
theorem unsigned_of_not_low {neg : Bool} {m : Nat} {e : Int} (h : flt (.fin neg m e) (fofInt 0) = false) : neg = true → m = 0 := by
  rintro rfl
  have h0 : fofInt 0 = .fin false 0 0 := rfl
  rw [h0, flt_fin, decide_eq_false_iff_not] at h
  by_contra hm
  apply h
  have hpos : (0 : Int) < (m : Int) * 2 ^ (e - min e 0).toNat := by positivity
  simp only [inUnits, if_pos, Nat.cast_zero, mul_zero, zero_mul, neg_mul, one_mul]
  omega

/-- The whole part of a number from 0 to `last`. -/
theorem ffloor_between {neg : Bool} {m : Nat} {e : Int} {last : Nat} (hlow : flt (.fin neg m e) (fofInt 0) = false)
    (hhigh : flt (fofInt (last : Int)) (.fin neg m e) = false) : ∃ i : Nat, ffloor (.fin neg m e) = some (i : Int) ∧ i ≤ last := by
  have hneg := unsigned_of_not_low hlow
  have hsign : (if neg then -(m : Int) else m) = m := by
    split
    next h => rw [hneg h]; rfl
    · rfl
  have hunits : inUnits neg m e (min 0 e) = m * 2 ^ (e - min 0 e).toNat := by
    cases neg
    · simp [inUnits]
    · simp [inUnits, hneg rfl]
  rw [fofInt_ofNat, flt_fin, hunits, decide_eq_false_iff_not, not_lt, inUnits] at hhigh
  rw [ffloor, hsign]
  by_cases he : 0 ≤ e
  · refine ⟨m * 2 ^ e.toNat, by simp [he], ?_⟩
    rw [min_eq_left he] at hhigh
    simp at hhigh
    exact_mod_cast hhigh
  · refine ⟨m / 2 ^ (-e).toNat, by simp [he], ?_⟩
    rw [min_eq_right (by omega)] at hhigh
    simp at hhigh
    exact Nat.div_le_of_le_mul (by rw [mul_comm]; exact_mod_cast hhigh)

/-- The abscissa of a table whose last entry is `last`, held to 0 to `last`. -/
def heldAbscissa (last : Nat) (x : FVal) : FVal := if flt x (fofInt 0) then fofInt 0 else if flt (fofInt last) x then fofInt last else x

/-- The entry below a held abscissa. -/
theorem ffloor_held (last : Nat) {x : FVal} (hx : x.isNan = false) : ∃ i : Nat, ffloor (heldAbscissa last x) = some (i : Int) ∧ i ≤ last := by
  have hwhole : ∀ k : Nat, ffloor (fofInt (k : Int)) = some (k : Int) := fun k => by rw [fofInt_ofNat]; simp [ffloor]
  rw [heldAbscissa]
  split
  · exact ⟨0, rfl, Nat.zero_le _⟩
  next hlow =>
    split
    · exact ⟨last, hwhole last, le_rfl⟩
    next hhigh =>
      match x with
      | .inf neg =>
        cases neg
        · exact absurd rfl hhigh
        · exact absurd rfl hlow
      | .fin neg m e => exact ffloor_between (Bool.eq_false_iff.mpr hlow) (Bool.eq_false_iff.mpr hhigh)

/-! ### TINTERP (R266) -/

theorem eq_nan {x : FVal} (h : x.isNan = true) : x = .nan := by
  cases x with
  | nan => rfl
  | inf _ => exact absurd h Bool.false_ne_true
  | fin _ _ _ => exact absurd h Bool.false_ne_true

/-- The core reads a table at `a`: its origin, the inverse of its step, the number of its entries and the entries. -/
structure TableAt (s : State) (n a cnt : Nat) (x0 step : Word) (y : Nat → Word) : Prop where
  origin : tableWord n a s = .ok (x0, s)
  step : tableWord n (a + 4) s = .ok (step, s)
  count : tableWord n (a + 8) s = .ok (w32 cnt, s)
  entry : ∀ k < cnt, tableWord n (a + 12 + 4 * k) s = .ok (y k, s)

/-- The abscissa of `v` in entries. -/
def tableAbscissa (x0 step : Word) (v : FVal) : FVal := rounded (fmul fmt32 (rounded (fsub fmt32 v (fin32 x0))) (fin32 step))

/-- The result at the abscissa `x` with `i` below it: the last entry, or that of the line through the entries around it. -/
def tableResult (y : Nat → Word) (last i : Nat) (x : FVal) : Word :=
  if i = last then fout32 (fin32 (y i)) else
    fout32 (fadd fmt32 (fin32 (y i)) (rounded (fmul fmt32 (rounded (fsub fmt32 x (fofInt i)))
      (rounded (fsub fmt32 (fin32 (y (i + 1))) (fin32 (y i)))))))

section
variable {s : State} {n a cnt : Nat} {x0 step : Word} {y : Nat → Word} (ht : TableAt s n a cnt x0 step y)
include ht

theorem interpolate_entry {i last : Nat} {x : FVal} (hx : ffloor x = some (i : Int)) (hi : i ≤ last) (hlast : last < cnt) :
    interpolate n a last x s = .ok (tableResult y last i x, s) := by
  rw [interpolate, hx]
  dsimp only
  rw [Int.toNat_natCast, ht.entry i (by omega), tableResult]
  dsimp only
  split
  · rfl
  next hne =>
    have hnext := ht.entry (i + 1) (by omega)
    rw [show a + 12 + 4 * (i + 1) = a + 16 + 4 * i by omega] at hnext
    rw [hnext]

theorem tinterp_nan {v : FVal} (hv : v.isNan = true) : tinterp n a v s = .ok ((0x7FC00000, true), s) := by
  rw [tinterp, ht.origin]
  dsimp only
  rw [ht.step]
  dsimp only
  rw [if_pos hv]

theorem tinterp_number {v : FVal} (hv : v.isNan = false) (hcnt : 2 ≤ cnt) (hcnt' : cnt ≤ 256) {w : Word} {t : State}
    (hw : interpolate n a (cnt - 1) (heldAbscissa (cnt - 1) (tableAbscissa x0 step v)) s = .ok (w, t)) :
    tinterp n a v s = .ok ((w, flt (tableAbscissa x0 step v) (fofInt 0) || flt (fofInt ((cnt - 1 : Nat) : Int)) (tableAbscissa x0 step v)), t) := by
  have hlast : clampNat 2 256 (w32 cnt).toNat - 1 = cnt - 1 := by
    rw [w32, BitVec.toNat_ofNat, Nat.mod_eq_of_lt (by omega), clampNat, if_neg (by omega), if_neg (by omega)]
  rw [tinterp, ht.origin]
  dsimp only
  rw [ht.step]
  dsimp only
  rw [hv, if_neg Bool.false_ne_true, ht.count]
  dsimp only
  rw [hlast, ← tableAbscissa, ← heldAbscissa, hw]

/-- What TINTERP gives: a NaN and V for a NaN; else V where the abscissa had to be held, and at a number the result there. An abscissa that is
no number leaves the result open. -/
theorem tinterp_result (v : FVal) (hcnt : 2 ≤ cnt) (hcnt' : cnt ≤ 256) {x : FVal} (hx : x = tableAbscissa x0 step v) :
    ∃ r t, tinterp n a v s = .ok (r, t) ∧ (t = s ∨ t = freshen s) ∧ (v.isNan = true → r = (0x7FC00000, true)) ∧
      (v.isNan = false → r.2 = (flt x (fofInt 0) || flt (fofInt ((cnt - 1 : Nat) : Int)) x)) ∧
      (v.isNan = false → x.isNan = false → ∃ i : Nat, ffloor (heldAbscissa (cnt - 1) x) = some (i : Int) ∧ i < cnt ∧
        r.1 = tableResult y (cnt - 1) i (heldAbscissa (cnt - 1) x)) := by
  subst hx
  cases hv : v.isNan with
  | true => exact ⟨_, s, tinterp_nan ht hv, .inl rfl, fun _ => rfl, nofun, nofun⟩
  | false =>
    cases hx : (tableAbscissa x0 step v).isNan with
    | false =>
      obtain ⟨i, hi, hle⟩ := ffloor_held (cnt - 1) hx
      exact ⟨_, s, tinterp_number ht hv hcnt hcnt' (interpolate_entry ht hi hle (by omega)), .inl rfl, nofun, fun _ => rfl,
        fun _ _ => ⟨i, hi, by omega, rfl⟩⟩
    | true =>
      have hheld : heldAbscissa (cnt - 1) (tableAbscissa x0 step v) = .nan := by
        rw [eq_nan hx]
        rfl
      have hopen : interpolate n a (cnt - 1) .nan s = .ok (Config.interpolated s.fresh, freshen s) := rfl
      exact ⟨_, freshen s, tinterp_number ht hv hcnt hcnt' (hheld ▸ hopen), .inr rfl, nofun, fun _ => rfl, nofun⟩

end

/-- Core `n` at the next instruction, with the float result and V of TINTERP. -/
def withTable (n fd : Nat) (r : Word × Bool) (s : State) : State := advance n (setV n r.2 (setFreg n fd r.1 s))

theorem keeps_withTable (n fd : Nat) (r : Word × Bool) (s : State) : Keeps n [] [fd] 1 (false, false) s (withTable n fd r s) :=
  ((Keeps.setFreg (List.mem_singleton_self fd) _ _).trans (.setV rfl _ _)).trans (.setPc ..)

theorem freg_withTable (n fd : Nat) (r : Word × Bool) (s : State) : freg (withTable n fd r s) n fd = r.1 := by
  rw [withTable, freg_advance, setV, freg_setFlags, freg_setFreg, if_pos rfl]

theorem flagV_withTable (n fd : Nat) (r : Word × Bool) (s : State) : nbit (coreOf (withTable n fd r s) n).flags 0 = r.2 := by
  rw [withTable, coreOf_advance, setV, coreOf_setFlags]
  exact nbit_vFlag _ _ (by decide)

theorem pc_withTable (n fd : Nat) (r : Word × Bool) (s : State) : (coreOf (withTable n fd r s) n).pc = ((coreOf s n).pc + 4) % 2 ^ 32 := by
  rw [withTable, coreOf_advance, setV, coreOf_setFlags, coreOf_setFreg]

theorem tinterp_next {s : State} {n : Fin 5} (hi : Issues n s) (fd fs : Fin 8) (ws : Fin 16) {r : Word × Bool} {t : State}
    (h : tinterp n (reg s n ws).toNat (fin32 (freg s n fs)) s = .ok (r, t)) (ht : Settled t) :
    exec (.tinterp n fd fs ws) s = .next (withTable n fd r t) := by
  change execTinterp n fd fs ws s = _
  rw [execTinterp, issue_runs hi, fop, h]
  exact done_settled_next ((keeps_withTable ..).only.settled ht)

/-- Settles O45: the words of the table are read by `tableWord_own`, and the result is that of `tinterp_result`. -/
theorem tableInterpolation : Obligations.TableInterpolation := by
  intro s n fd fs ws o cnt x0 step x xh low high y hs hi hempty hws ho hsize hcnt hcnt' horigin hstep hcount hentry hx hlow hhigh hxh
  have hsize' : dmemSize n ≤ 0x20000 := by
    unfold dmemSize
    split <;> omega
  have haddr : (reg s n ws).toNat = 0x90040000 + o := by
    rw [hws, w32, BitVec.toNat_ofNat]
    omega
  have htable : TableAt s n (0x90040000 + o) cnt x0 step y :=
    { origin := tableWord_own rfl ho (by omega) hempty horigin
      step := tableWord_own (k := o + 4) (by omega) (by omega) (by omega) hempty hstep
      count := tableWord_own (k := o + 8) (by omega) (by omega) (by omega) hempty
        (hcount.trans (by rw [w32, BitVec.toNat_ofNat, Nat.mod_eq_of_lt (by omega)]))
      entry := fun k hk => tableWord_own (k := o + 12 + 4 * k) (by omega) (by omega) (by omega) hempty
        ((congrArg (mread s 4) (by omega)).trans (hentry k hk)) }
  have hlast : ((cnt - 1 : Nat) : Int) = (cnt : Int) - 1 := by omega
  have hheld : xh = heldAbscissa (cnt - 1) x := by rw [hxh, hlow, hhigh, heldAbscissa, hlast]
  obtain ⟨r, t, hrun, ht, hnan, hflag, hresult⟩ := tinterp_result htable (fin32 (freg s n fs)) hcnt hcnt' hx
  rw [hlast, ← hlow, ← hhigh] at hflag
  rw [← hheld] at hresult
  have hkeeps := keeps_withTable n fd r t
  have hparts : Settled t ∧ t.cores = s.cores ∧ t.mem = s.mem ∧ t.regs = s.regs := by
    obtain rfl | rfl := ht
    · exact ⟨hs, rfl, rfl, rfl⟩
    · exact ⟨hs, rfl, rfl, rfl⟩
  obtain ⟨hsettled, hcores, hmem, hregs⟩ := hparts
  have hcore : coreOf t n = coreOf s n := coreOf_of_cores hcores n
  refine ⟨withTable n fd r t, tinterp_next hi fd fs ws (haddr ▸ hrun) hsettled, hkeeps.only.mem.trans hmem, fun k => ?_, fun k hk => ?_,
    fun k hk => ?_, ?_, fun b => ?_, fun hv => ?_, fun hv => ?_, fun hv hxn => ?_⟩
  · rw [hkeeps.int k (List.not_mem_nil), reg, hcore, reg]
  · rw [hkeeps.float k (by simpa using hk), freg, hcore, freg]
  · have hmask : k < 4 ∧ Nat.testBit 1 k = false := by
      simp only [List.mem_cons, List.not_mem_nil, or_false] at hk
      obtain rfl | rfl | rfl := hk <;> decide
    rw [hkeeps.flag k hmask.1 hmask.2, hcore]
  · rw [pc_withTable, hcore]
  · rw [hkeeps.only.rd, rd, hregs, rd]
  · rw [freg_withTable, flagV_withTable, hnan hv]
    exact ⟨rfl, rfl⟩
  · rw [flagV_withTable, hflag hv]
  · obtain ⟨i, hfloor, hlt, hr⟩ := hresult hv hxn
    exact ⟨i, hfloor, hlt, (freg_withTable ..).trans hr⟩

end Sys2Proof.Machine
